-- ==== Sys2Proof/Word.lean ====
section
/-!
DEFINITION. Word.lean: the words of the FT832 controller and the plain types that commands carry: bytes, register
words, the four requester paths (R18), a request with its path and principal (R26), and an Ebbex packet (R456).
-/
namespace Sys2Proof

/-- One byte. -/
abbrev Byte := BitVec 8

/-- A run of bytes as a memory structure, entry, record or flash image holds it, lowest address first (R15). -/
abbrev Bytes := List Byte

/-- A 32-bit register word (R16). -/
abbrev Word := BitVec 32

/-- A SHA-384 digest, first byte in the lowest eight bits (R15, R51). -/
abbrev Digest := BitVec 384

/-- The requester paths of R18, in the order in which writes of one cycle are applied. -/
inductive Path where
  | armature | management | fabric | debug
  deriving DecidableEq, Repr

/-- The number of a path, in the order of R18. -/
def Path.idx : Path → Nat
  | .armature => 0
  | .management => 1
  | .fabric => 2
  | .debug => 3

/-- A request as the access gate sees it (R26): its path, the number of its principal (R469), the queue it came by, if
it came by one (R439), its TAG and FLAGS bit 0, the completion event (R443). A request that came by a register or by a
Redfish action has no queue: its status code goes back on its own path (R474). -/
structure Req where
  path : Path
  principal : Nat
  queue : Option Nat
  tag : Nat
  event : Bool
  deriving DecidableEq, Repr

/-- An Ebbex packet, by the header fields of R456 and its payload. `crcOk` is whether its CRC-32C held on arrival. -/
structure Packet where
  cls : Nat
  status : Nat
  length : Nat
  srcEp : Nat
  dstEp : Nat
  tag : Nat
  principal : Nat
  addr : Nat
  payload : Bytes
  deriving DecidableEq, Repr

/-- What a shadow frame of the pair link carries (R483), by the items of its table, and the reports that ride beside them. -/
inductive Shadow where
  /-- The other controller reports whether it is PARTNER, its own input good, PAIR_SYNCED, and its image's PAIR_PROTO. -/
  | status (partner inputGood synced : Bool) (proto : Nat)
  /-- MAQ_ACTIVE_DIGEST, profile, principal table digest, option bytes digest. -/
  | identity (maq : Digest) (profile : Nat) (princ opt : Digest)
  /-- An operating setting: register address, instance, value. -/
  | setting (addr inst value : Nat)
  /-- The division state of sites 0 to 7: cap, prev_cap, recovering, still. -/
  | division (caps : List (Nat × Nat × Bool × Bool))
  /-- The Lead's Pointing count [2^-6 ns] as it stands when the frame is taken, its POINTING_VALID and the code of its state (R335). -/
  | count (t : Nat) (valid : Bool) (st : Nat)
  /-- A record as the Lead ingested it. -/
  | ingested (rec : Bytes)
  /-- A Chisel model image. -/
  | chiselModel (site : Nat) (image : Bytes)
  /-- An arm entry: its number, its state, and the block of its ARM. -/
  | armEntry (index st : Nat) (block : Bytes)
  /-- The seven counters of a rail. -/
  | railCounters (rail : Nat) (vals : List Nat)
  /-- The final division frame of a handover (R484). -/
  | handover (caps : List (Nat × Nat × Bool × Bool))
  deriving DecidableEq, Repr

/-- A Redfish request by what it asks for (R474): a read of a resource as the registers it shows (address and instance); an
action by its register form or by its queue form, with the bytes at its source; an event subscription. -/
inductive Redfish where
  | get (resource : Nat) (refs : List (Nat × Nat))
  | write (addr inst value : Nat)
  | entry (queue : Nat) (e : Bytes) (src : Bytes)
  | subscribe
  | unsubscribe
  deriving DecidableEq, Repr

/-- The tray input's bus as measured: voltage in codes of 10 mV, current in mA (R14, R222). -/
structure Bus where
  v : Nat
  i : Int
  deriving DecidableEq, Repr

/-- The tray input at input good: whether the supervisor thresholds read back right (R101, step 3), and the bus (R224). -/
structure Supply where
  thresholdsOk : Bool
  bus : Bus
  deriving DecidableEq, Repr

/-- How a flash write ends: taken and read back right; an erase, program or read-back failure; or a block that reads back with another
hash than its own (R144). -/
inductive FlashEnd where
  | ok
  | fails
  | differs (block : Nat)
  deriving DecidableEq, Repr

/-- A block number that an image can have (R117). -/
def FlashEnd.wf : FlashEnd → Bool
  | .differs n => decide (n < 1024)
  | _ => true

/-- An image that Plaster receives over its service path, and how its flash write ends (R135, R144). -/
structure PlasterImage where
  bytes : Bytes
  flash : FlashEnd
  deriving DecidableEq, Repr

/-- A converter's code, and whether the rail's power-good stood at the sample's time as it stands at its delivery (R149, R170). -/
structure Sample where
  code : Int
  held : Bool
  deriving DecidableEq, Repr

/-- A job of Caliper over a check or a COMPUTE entry: the number of the check, and the tile that runs the job (R368, R370). -/
structure CheckJob where
  check : Nat
  tile : Nat
  deriving DecidableEq, Repr

/-- The unsigned value of bytes, the first byte lowest (R15). -/
def leNat : Bytes → Nat
  | [] => 0
  | b :: bs => b.toNat + 256 * leNat bs

/-- The `n` bytes of a value, the lowest byte first (R15). -/
def leBytes : Nat → Nat → Bytes
  | 0, _ => []
  | n + 1, v => BitVec.ofNat 8 v :: leBytes n (v / 256)

end Sys2Proof
end

