-- ==== Sys2Proof/Syntax.lean ====
section
/-!
DEFINITION. Syntax.lean: the commands of the block, one constructor per row of spec/opcode_table.json. A row that the
table calls an expiry, an arrival, a change or an end is the event itself; its operands are what the surroundings give
with it (the operands are the model's own: the table lists no fields; notes/assumptions/2.md).
-/
namespace Sys2Proof

/-- The commands. -/
inductive Instr where
  /-- POWER_ON (R85). PLINTH_0V8 rises through its power-on level, clearing retention RAM and starting a cold start at step 1. -/
  | powerOn
  /-- STANDBY_ON (R29). The hold-up capacitance voltage rises through the standby-on threshold and the standby domain is powered. -/
  | standbyOn
  /-- STANDBY_OFF (R29). The hold-up capacitance voltage falls through the standby-off threshold and the standby domain loses power. -/
  | standbyOff
  /-- INPUT_GOOD (R97). The capacitance reaches INPUT_GOOD_V, the straps are sampled and the Reckoner starts. -/
  | inputGood (profile : Nat) (bay : Bool) (mgmt : Nat) (recovery : Bool) (supply : Supply)
  /-- INPUT_UNDERVOLTAGE_RESET (R85). The 64 V bus falls below UV_RESET_V, which causes a module reset once any page program in flight has ended. -/
  | inputUndervoltageReset
  /-- PLINTH_SUPERVISOR_RESET (R89). A crystal stop, a late Reckoner, a retention RAM parity error or a sequencer self-check failure causes a module reset. -/
  | plinthSupervisorReset (parity : Bool)
  /-- ARMATURE_WATCHDOG_EXPIRY (R87). ARM_WDT_PERIOD elapses without a refresh, causing an Armature restart, or a core-die restart on the third expiry within 600 s. -/
  | armatureWatchdogExpiry
  /-- SW_RESET_MODULE (R88). SW_RESET with KIND module and a valid key takes the counter snapshot and then causes a module reset. -/
  | swResetModule (r : Req) (key : Nat)
  /-- SW_RESET_CORE_DIE (R88). SW_RESET with KIND core die takes the counter snapshot and then causes a core-die restart. -/
  | swResetCoreDie (r : Req) (key : Nat)
  /-- SW_RESET_CALIPER (R88). SW_RESET with KIND Caliper causes a Caliper-only reset within 10 µs. -/
  | swResetCaliper (r : Req) (key : Nat)
  /-- SW_RESET_ARMATURE (R88). SW_RESET with KIND Armature causes an Armature restart within 10 µs. -/
  | swResetArmature (r : Req) (key : Nat)
  /-- SW_RESET_REFUSED (R88). A SW_RESET write without key 0xA5 or without the reset right is ignored and raises one event. -/
  | swResetRefused (r : Req) (value : Nat)
  /-- DEBUG_AUTHORISED_RESET (R85). A reset requested over the open debug port causes the requested restart kind. -/
  | debugAuthorisedReset (kind : Nat)
  /-- RECOVERY_REQ_HOLD (R91). RECOVERY_REQ_N held low for 5 s while running causes a module reset with the Plaster path forced. -/
  | recoveryReqHold
  /-- TJ_RESET_RELEASE (R90). The junction has stayed 15 °C below TJ_RESET for 10 s and the over-temperature reset is released. -/
  | tjResetRelease
  /-- STANDBY_DIES_UP (R101). Start step 4 brings up the standby dies and links, restores the counters and checks the accelerometer. -/
  | standbyDiesUp (accelOk : Bool)
  /-- MAQUETTE_START_LOAD (R73). The Reckoner chooses a profile and loads and verifies Maquettes in fallback order until one commits. -/
  | maquetteStartLoad
  /-- CORE_DOMAIN_UP (R101). Start step 7 brings up the core domain, or fails and is retried. -/
  | coreDomainUp (ok : Bool)
  /-- DIE_IDENTITY_CHECK (R44). Start step 8 reads all 32 die identities, compares them with the build record and treats silent dies as absent. -/
  | dieIdentityCheck (ids : List Bytes)
  /-- ARMATURE_LOCKSTEP_CHECK (R434). Start step 9 brings up SRAM and the Armature and tests the lockstep pairs, excluding failed ones. -/
  | armatureLockstepCheck (failed : Nat)
  /-- IMAGE_SLOT_CHOICE (R123). Start step 10 sorts the slots, verifies candidates and chooses slot A, slot B, Plaster or ROM service. -/
  | imageSlotChoice
  /-- QUARANTINE_RELEASE (R120). With both signatures, the key and every loaded block checked, the quarantine region is released to run. -/
  | quarantineRelease
  /-- ROM_SERVICE_PLASTER_IMAGE (R125). In ROM service a Plaster image arrives over the service port, is verified, written to both copies and a module reset follows. -/
  | romServicePlasterImage (image : Bytes)
  /-- START_STEP_TIMEOUT (R101). A start step reaches twice its done-by time and ends with outcome TIMEOUT. -/
  | startStepTimeout (step : Nat)
  /-- START_STEP_RETRY_TIMER (R101). The retry period of a failed start step elapses and the step runs again. -/
  | startStepRetryTimer (step : Nat) (ok : Bool)
  /-- LEDGER_FLASH_MIRROR (R108). The Plinth mirrors a rewritten ledger entry to the flash ring within 10 ms. -/
  | ledgerFlashMirror (step : Nat)
  /-- DIMM_TRAINING_DONE (R420). Full, saved or fast training of a channel ends, moving the channel to filling, in service or out of service. -/
  | dimmTrainingDone (ch : Nat) (ok : Bool) (answers : Bool) (mrdimm : Bool) (rate : Nat) (capGB : Nat) (serial : Nat)
  /-- JOURNAL_RECOVERY (R414). Start step 16 recovers the journal table and log heads, or opens a new journal epoch. -/
  | journalRecovery
  /-- CALIPER_SELF_TEST (R371). Each usable tile runs the ROM contract vectors and failing tiles are fenced. -/
  | caliperSelfTest (failing : Nat)
  /-- SITE_IMAGE_DIGEST_CHECK (R138). Start step 19 compares each site's running image digest with its matching stored entry. -/
  | siteImageDigestCheck
  /-- FULL_SERVICE_REPORTED (R101). Start step 20 ends, firmware reports full service and needed site pushes may start. -/
  | fullServiceReported
  /-- DEFERRED_BLOCK_CHECK (R121). A firmware block beyond LOAD_BLOCKS is loaded and compared with its hash, setting DEFERRED_FAIL on a mismatch. -/
  | deferredBlockCheck (block : Nat) (data : Bytes)
  /-- COMMIT_DWELL_EXPIRY (R131). COMMIT_DWELL passes without an Armature restart after step 20 and HEALTHY is set. -/
  | commitDwellExpiry
  /-- DEBUG_NONCE_READ (R128). A read of DEBUG_NONCE returns a fresh 32-byte value. -/
  | debugNonceRead (p : Path) (prin : Nat)
  /-- IDENTITY_KEYS_READY (R142). The RSA and SLH-DSA identity key pairs become ready and SPDM stops answering Busy. -/
  | identityKeysReady
  /-- MAQ_STORE (R80). STORE verifies a Maquette from SRC_ADDR, writes it to the profile slot, reads it back and verifies the flash copy. -/
  | maqStore (r : Req) (e : Bytes) (src : Option Bytes)
  /-- MAQ_SWITCH (R81). SWITCH verifies a stored profile and makes it active by IMMEDIATE, STAGED or NEXT_RESET. -/
  | maqSwitch (r : Req) (e : Bytes)
  /-- MAQ_CANCEL (R80). CANCEL discards the pending switch. -/
  | maqCancel (r : Req) (e : Bytes)
  /-- MAQ_VERIFY (R80). VERIFY checks a profile's stored copies and updates MAQ_PROF_STATUS. -/
  | maqVerify (r : Req) (e : Bytes)
  /-- MAQ_SET_MIN_VERSION (R58). SET_MIN_VERSION advances the minimum structure version unless it would leave no valid profile 0 or pass the active version. -/
  | maqSetMinVersion (r : Req) (e : Bytes)
  /-- MAQ_VERIFY_COMPLETE (R57). The structure verifier finishes checking a Maquette and commits, holds or discards its shadow. -/
  | maqVerifyComplete (flashOk : Bool)
  /-- MAQ_STAGED_COMMIT (R82). A pending staged switch commits on the cycle its last blocking scope reaches its structure point. -/
  | maqStagedCommit
  /-- PROFILE_PINS_STABLE (R76). A change of PROFILE[1:0] stable for 50 ms acts as a STAGED switch. -/
  | profilePinsStable (pins : Nat)
  /-- INSTALL_FW (R130). INSTALL_FW streams a firmware image into the slot that is not running, verifies it and writes the install record. -/
  | installFw (r : Req) (e : Bytes) (src : Option Bytes)
  /-- COMMIT_FW (R131). COMMIT_FW raises MIN_FW_VERSION to the running version when HEALTHY is set. -/
  | commitFw (r : Req)
  /-- UPDATE_PLASTER (R129). UPDATE_PLASTER streams a Plaster image to Plaster copy 0 and then copy 1. -/
  | updatePlaster (r : Req) (e : Bytes) (src : Option Bytes)
  /-- STORE_SITE_IMAGE (R129). STORE_SITE_IMAGE streams a site image to a store entry, copy 0 and then copy 1. -/
  | storeSiteImage (r : Req) (e : Bytes) (src : Option Bytes)
  /-- PUSH_SITE (R138). PUSH_SITE writes the matching stored image to a site's inactive bank and reads its digest back. -/
  | pushSite (r : Req) (site : Nat)
  /-- SITE_PUSH_DONE (R138). A site push ends; a failure is retried once and then sets SITE_PUSH_FAIL. -/
  | sitePushDone (site : Nat) (readback : Option Digest)
  /-- ACTIVATE_SITE (R139). ACTIVATE_SITE sequences the site's firmware reset onto its inactive bank through its Warden. -/
  | activateSite (r : Req) (site : Nat)
  /-- VERSION (R449). VERSION writes the 64-byte version report of running, stored and minimum versions. -/
  | versionReport (r : Req) (e : Bytes)
  /-- HELLO (R141). HELLO opens a fabric session at the stated interface version and reports FW_IF_VERSION. -/
  | helloSession (r : Req) (e : Bytes)
  /-- REVOKE (R133). A REVOKE control record revokes key slots when the revocation leaves usable images, Plaster and profile 0. -/
  | revokeKeys (r : Req) (rec : Bytes)
  /-- OPTION_UPDATE (R134). An OPTION_UPDATE record stores a new option bytes image that takes effect at the next module reset. -/
  | optionUpdate (r : Req) (rec : Bytes)
  /-- KEY_PROVISION (R134). A KEY_PROVISION record fills an empty key slot with its hashes. -/
  | keyProvision (r : Req) (rec : Bytes)
  /-- REVMIN_RESTORE (R116). A REVMIN_RESTORE record rewrites the lost revocation and minimum-version record. -/
  | revminRestore (r : Req) (rec : Bytes)
  /-- DEBUG_OPEN (R128). A DEBUG_OPEN record carrying a fresh nonce opens the debug port at the more restricted of the requested and allowed levels. -/
  | debugOpen (r : Req) (rec : Bytes)
  /-- PRINCIPAL_SET (R471). A PRINCIPAL_SET record replaces the principal table when its generation is higher. -/
  | principalSet (r : Req) (rec : Bytes)
  /-- CONTROL_RECORD_REFUSED (R132). A control record for another module, with a bad format or with a bad signature completes with its error status. -/
  | controlRecordRefused (r : Req) (rec : Bytes)
  /-- PLASTER_IMAGE_RECEIVED (R135). Plaster receives a firmware image, installs it into the empty or lower slot and resets unless its forcing cause holds. -/
  | plasterImageReceived (image : PlasterImage)
  /-- SPDM_GET_VERSION (R143). The SPDM responder answers GET_VERSION. -/
  | spdmGetVersion (req : Bytes)
  /-- SPDM_GET_CAPABILITIES (R143). The SPDM responder answers GET_CAPABILITIES. -/
  | spdmGetCapabilities (req : Bytes)
  /-- SPDM_NEGOTIATE_ALGORITHMS (R143). The SPDM responder answers NEGOTIATE_ALGORITHMS with SHA-384 and RSASSA-PSS 3072. -/
  | spdmNegotiateAlgorithms (req : Bytes)
  /-- SPDM_GET_DIGESTS (R143). The SPDM responder answers GET_DIGESTS. -/
  | spdmGetDigests (req : Bytes)
  /-- SPDM_GET_CERTIFICATE (R143). The SPDM responder returns the identity certificate chain of slot 0. -/
  | spdmGetCertificate (req : Bytes)
  /-- SPDM_CHALLENGE (R143). The SPDM responder answers CHALLENGE signed with the RSA identity key. -/
  | spdmChallenge (req : Bytes)
  /-- SPDM_GET_MEASUREMENTS (R143). The SPDM responder returns the signed attestation report as measurement block 0x10. -/
  | spdmGetMeasurements (req : Bytes)
  /-- CLOCK_GRANT (R35). A requested fast clock is stable and its grant is raised. -/
  | clockGrant (clk : Nat)
  /-- CLOCK_GRANT_TIMEOUT (R36). A fast clock is not granted within its grant timeout, which is counted and handled as a clock fault. -/
  | clockGrantTimeout (clk : Nat) (die : Nat)
  /-- CLOCK_IDLE_EXPIRY (R35). A fast clock released by its last requester for its idle hysteresis stops. -/
  | clockIdleExpiry (clk : Nat)
  /-- RC_OSC_STOP_EXPIRY (R34). 1 ms after none of its conditions holds, the Plinth stops the 4 MHz RC oscillator. -/
  | rcOscStopExpiry
  /-- LOCKSTEP_MISMATCH (R434). An Armature pair's cores differ, and the pair stops and is treated as an immediate watchdog expiry. -/
  | lockstepMismatch (pair : Nat)
  /-- SITE_UP (R165). UP orders a site in OFF or DEGRADED to sequence its rails up. -/
  | siteUp (r : Req) (site : Nat)
  /-- SITE_DOWN (R165). DOWN orders a site to sequence its rails down and ends any up attempt. -/
  | siteDown (r : Req) (site : Nat)
  /-- SITE_CLEAR (R165). CLEAR returns a FAULTED site to OFF, or to IDENTIFYING after a template change. -/
  | siteClear (r : Req) (site : Nat)
  /-- SITE_ADOPT (R168). ADOPT lets the Warden take drive of an UNADOPTED site and sequence it down. -/
  | siteAdopt (r : Req) (site : Nat)
  /-- SITE_IDENTIFY (R164). IDENTIFY rereads the identity ROM of a site in OFF or UNMATCHED. -/
  | siteIdentify (r : Req) (site : Nat)
  /-- SITE_CMD_INVALID (R165). A SITE_CMD write with a code outside the command table completes FORMAT with no effect. -/
  | siteCmdInvalid (r : Req) (site : Nat) (code : Nat)
  /-- SITE_PRESENT_ASSERTED (R164). SITE_PRESENT is asserted on an absent site, which enters SETTLING. -/
  | sitePresentAsserted (site : Nat)
  /-- SITE_SETTLE_EXPIRY (R164). A site stays present for its settle time and its identity ROM is read. -/
  | siteSettleExpiry (site : Nat)
  /-- SITE_IDENTITY_READ (R163). The identity ROM read completes and the site is matched to a template or marked UNMATCHED. -/
  | siteIdentityRead (site : Nat) (rom : Bytes)
  /-- SITE_IDROM_REREAD_TIMER (R163). 10 ms after a bad ROM header the identity ROM is read again. -/
  | siteIdromRereadTimer (site : Nat) (rom : Bytes)
  /-- SITE_PRESENCE_LOST (R167). Presence lost for 2 ms deasserts every enable, judges every rail off and writes a SITE_REMOVED record. -/
  | sitePresenceLost (site : Nat)
  /-- SITE_RETRY_WAIT_EXPIRY (R164). 1 s in RETRY_WAIT elapses and the site begins its next up attempt. -/
  | siteRetryWaitExpiry (site : Nat)
  /-- SITE_ADOPTION (R168). The Warden matches and observes a site for QUALIFY plus two scans and adopts it as RUNNING, OFF or UNADOPTED. -/
  | siteAdoption (site : Nat) (rom : Bytes) (good : Nat) (off : Nat) (latched : Nat) (ep : Nat) (digest : Bytes) (version : Nat)
  /-- RAIL_UP_DELAY_EXPIRY (R153). UP_DELAY elapses, the rail's enable is asserted and RISE_TIMEOUT starts. -/
  | railUpDelayExpiry (rail : Nat)
  /-- RAIL_PG_CHANGE (R150). A rail's power-good input changes, counting toward chatter and restarting qualify. -/
  | railPgChange (rail : Nat) (level : Bool)
  /-- RAIL_QUALIFY_EXPIRY (R149). Power-good stays asserted for QUALIFY with a fresh in-window sample and the rail is judged good. -/
  | railQualifyExpiry (rail : Nat)
  /-- RAIL_RISE_TIMEOUT (R151). RISE_TIMEOUT is reached and the step ends as SEQ_FAIL. -/
  | railRiseTimeout (rail : Nat)
  /-- RAIL_PG_LOSS_TIMER (R151). Power-good of a good rail stays deasserted for 10 µs with the voltage in window, which is a PG_LOSS fault. -/
  | railPgLossTimer (rail : Nat)
  /-- RAIL_DOWN_DELAY_EXPIRY (R153). DOWN_DELAY elapses, the enable is deasserted and FALL_TIMEOUT starts. -/
  | railDownDelayExpiry (rail : Nat)
  /-- RAIL_FALL_TIMEOUT (R157). A falling rail reaches FALL_TIMEOUT and enters DOWNFAULT. -/
  | railFallTimeout (rail : Nat)
  /-- RAIL_BACKOFF_EXPIRY (R155). The retry backoff elapses and the rail returns to UP_DELAY. -/
  | railBackoffExpiry (rail : Nat)
  /-- RAIL_RETRY_COUNT_RESET (R155). A rail that has stayed GOOD for 60 s has its retry count returned to 0. -/
  | railRetryCountReset (rail : Nat)
  /-- PMBUS_WRITE_DONE (R148). A PMBus PAGE or OPERATION write ends, acknowledged or failed after its repeats. -/
  | pmbusWriteDone (rail : Nat) (ok : Bool)
  /-- PMBUS_PG_POLL (R148). Every 500 µs the Warden polls STATUS_WORD of a PMBus rail for power-good. -/
  | pmbusPgPoll (rail : Nat) (status : Option Nat)
  /-- TRAY_RESET_WIDTH_EXPIRY (R154). The TRAY_RESET pulse ends and the sites of a system reset become FAULTED. -/
  | trayResetWidthExpiry
  /-- MODULE_GROUP_RESEQUENCE (R160). 1 s after the last rail of a shut-down module group is off, the group is ordered up once. -/
  | moduleGroupResequence (group : Nat)
  /-- WARDEN_BROWNOUT (R96). The Warden's isolated supply browns out and the Warden resets with its site lines undriven. -/
  | wardenBrownout (w : Nat)
  /-- WARDEN_SUPERVISOR_RESET (R96). The Warden supervisor resets the Warden with its site lines undriven. -/
  | wardenSupervisorReset (w : Nat)
  /-- WARDEN_RELOAD (R96). The Plinth commands a Warden reload, after which the Warden is reloaded and re-adopts its site. -/
  | wardenReload (w : Nat)
  /-- SURVEY_SAMPLE (R174). A Survey slot delivers a code that is calibrated and judged against the fault and warn windows. `held`: the rail's power-good stood as it stands now when the track-and-hold closed, 700 ns earlier (R149, R170). -/
  | surveySample (die : Nat) (slot : Nat) (x : Sample)
  /-- SURVEY_SLOW_SCAN_TIMER (R37). The slow-scan period elapses and a die whose rails are all off runs one scan. -/
  | surveySlowScanTimer (die : Nat)
  /-- SURVEY_STALE_TIMEOUT (R175). A channel delivers no valid sample for two scan periods and becomes stale. -/
  | surveyStaleTimeout (ch : Nat)
  /-- SURVEY_BUS_TIMEOUT (R175). A 10 µs Survey bus timeout makes the die's channels stale. -/
  | surveyBusTimeout (die : Nat)
  /-- RAIL_CNT_CLR (R183). A RAIL_CNT_CLR write clears the masked counters and their saturation bits for a principal with the counter-clear right. -/
  | railCntClr (r : Req) (rail : Nat) (mask : Nat)
  /-- LOG_PAGE_PROGRAM_DONE (R190). A ring page program on both devices completes and the next queued records may be programmed. -/
  | logPageProgramDone
  /-- LOG_SECTOR_ERASE_DONE (R190). A ring sector erase ahead of the write slot completes. -/
  | logSectorEraseDone
  /-- LOG_DEVICE_TIMEOUT (R192). A flash device fails to program or respond within 25 ms and the ring continues on the other device. -/
  | logDeviceTimeout (dev : Nat)
  /-- LOG_RING_RECOVERY_DONE (R193). At power-on the Plinth finds the ring write slot and LOG_SEQ, or re-initialises the ring. -/
  | logRingRecoveryDone
  /-- LOG_READ_FROM_WRITE (R194). A write of LOG_READ_FROM places the path's cursor and clears LOG_TORN. -/
  | logReadFromWrite (p : Path) (prin : Nat) (value : Nat)
  /-- LOG_READ_ADVANCE (R194). A read of word 15 of LOG_READ_REC advances the cursor, skipping torn slots. -/
  | logReadAdvance (p : Path)
  /-- SNAPSHOT_PERIODIC_TIMER (R197). Every 60 s while a counter is dirty a counter snapshot begins into the erased bank. -/
  | snapshotPeriodicTimer
  /-- SNAPSHOT_TRAILER_WRITTEN (R196). A snapshot's trailer and owner block are written and read back and the other bank's erase is started. -/
  | snapshotTrailerWritten
  /-- SNAPSHOT_BANK_ERASE_DONE (R197). The erase of the older snapshot bank completes. -/
  | snapshotBankEraseDone (bank : Nat)
  /-- HOLDUP_BEGIN (R200). The bus falls below HOLDUP_V; the ring freezes, erases suspend, Caliper stops and hold-up writes begin. -/
  | holdupBegin (busV : Nat)
  /-- HOLDUP_END (R203). The bus stays above INPUT_GOOD_V for 10 ms; summaries are queued and suspended work resumes. -/
  | holdupEnd
  /-- JOURNAL_FLUSH_DESCRIPTOR_DONE (R202). A journal flush descriptor write to the flush area ends, complete or marked incomplete. -/
  | journalFlushDescriptorDone (complete : Bool)
  /-- METERING_INTERVAL_END (R210). A 100 µs metering interval ends and site and tray power are formed and integrated into energy. -/
  | meteringIntervalEnd (bus : List (Nat × Int))
  /-- POWER_WINDOW_1MS_END (R233). A 1 ms window ends and the peaks and averages are updated. -/
  | powerWindow1msEnd
  /-- POWER_WINDOW_1S_END (R233). A 1 s window ends and PWR_AVG_60S is updated. -/
  | powerWindow1sEnd
  /-- TELEMETRY_RECORD (R208). A telemetry record arrives, is deduplicated by SEQ and updates demand and features. -/
  | telemetryRecord (port : Nat) (src : Nat) (rec : Bytes)
  /-- WARDEN_TELEMETRY_POLL (R208). Every 100 µs the Warden reads the site's telemetry record over I3C. -/
  | wardenTelemetryPoll (site : Nat) (rec : Option Bytes)
  /-- TELEMETRY_STALE_TIMEOUT (R208). No telemetry for 1 ms from a running site sets TELEM_STALE and substitutes the metered demand. -/
  | telemetryStaleTimeout (site : Nat)
  /-- JOB_MARK (R229). A job mark arrives, is deduplicated and opens, joins or ends a job at its Pointing time. -/
  | jobMark (src : Option (Nat × Nat)) (rec : Bytes)
  /-- JOB_RELEASE (R231). JOB_RELEASE frees a closed job entry and adds its parts to SITE_ENERGY_RELEASED. -/
  | jobRelease (r : Req) (job : Nat)
  /-- TRAY_BUDGET_WRITE (R214). A TRAY_BUDGET write is clamped to the budget minimum and ceiling. -/
  | trayBudgetWrite (r : Req) (value : Int)
  /-- CAP_SW_BOUND_WRITE (R215). A write of a site software floor, ceiling or weight is clamped into range. -/
  | capSwBoundWrite (r : Req) (site : Nat) (which : Nat) (value : Int)
  /-- CAP_DIVISION (R216). Every 1 ms the Armature divides the tray budget into site caps and passes them to the Wardens. -/
  | capDivision
  /-- CAP_GUARD_WINDOW (R220). Each 1 ms window the Warden compares metered power with the cap and raises, holds or releases the guard level. -/
  | capGuardWindow (site : Nat)
  /-- SITE_THROTTLE_FORCE_WRITE (R221). A SITE_THROTTLE_FORCE write sets a throttle source for the site. -/
  | siteThrottleForceWrite (r : Req) (site : Nat) (level : Nat)
  /-- SITE_VOUT (R226). SITE_VOUT writes a clamped VOUT_COMMAND to a site rail. -/
  | siteVout (r : Req) (site : Nat) (rail : Nat) (code : Nat)
  /-- PEAK_CLR (R234). A PEAK_CLR write clears PWR_PEAK_HOLD of the selected instance. -/
  | peakClr (r : Req) (inst : Nat)
  /-- RELIEF_VOLTAGE_CROSSING (R223). The bus falls through RELIEF_WARN_V and Relief asserts its voltage level. -/
  | reliefVoltageCrossing (busV : Nat)
  /-- RELIEF_CURRENT_CROSSING (R223). The bus current rises through TRAY_I_LIMIT and Relief asserts its current level. -/
  | reliefCurrentCrossing (busI : Int)
  /-- RELIEF_STAGE2 (R223). The stage-2 threshold is met and Relief asserts RELIEF_LEVEL_2. -/
  | reliefStage2 (busV : Nat) (busI : Int)
  /-- RELIEF_RELEASE_CONDITION (R223). The release condition begins or ceases to hold, starting or halting the release step. -/
  | reliefReleaseCondition (bus : Bus)
  /-- RELIEF_RELEASE_STEP_EXPIRY (R223). The release condition holds for RELIEF_RELEASE_STEP and the level falls by 1, or to IDLE with a RELIEF record. -/
  | reliefReleaseStepExpiry
  /-- PATINA_SECOND (R235). Each second the Plinth bins temperature and voltage and counts cycles and running time. -/
  | patinaSecond
  /-- PATINA_RECORD_WRITE (R236). Every 24 h Patina values are written as PATINA records. -/
  | patinaRecordWrite
  /-- HOLD_WINDOW_EXPIRY (R238). The Hold window ends without division; caps fall to floor and fans go full. -/
  | holdWindowExpiry
  /-- CHISEL_INTERVAL (R242). Every 250 µs Chisel classifies, learns and allocates for each site on which it is on. -/
  | chiselInterval
  /-- CHISEL_STALE_FALLBACK_EXPIRY (R259). Telemetry has been stale for STALE_FALLBACK and Chisel shares by fallback weights. -/
  | chiselStaleFallbackExpiry (site : Nat)
  /-- CHISEL_SW_BOUND_WRITE (R263). A write of a domain software floor or ceiling is clamped into the hardware bounds. -/
  | chiselSwBoundWrite (r : Req) (site : Nat) (dom : Nat) (ceil : Bool) (value : Int)
  /-- FREEZE (R264). FREEZE stops learning, spawning and eviction for a site. -/
  | chiselFreeze (r : Req) (e : Bytes)
  /-- THAW (R264). THAW resumes learning for a site. -/
  | chiselThaw (r : Req) (e : Bytes)
  /-- CHISEL_RESET (R264). RESET clears every cluster of a site's model. -/
  | chiselReset (r : Req) (e : Bytes)
  /-- EXPORT (R265). EXPORT writes a site's 3,456-byte model image to the address. -/
  | chiselExport (r : Req) (e : Bytes)
  /-- IMPORT (R265). IMPORT replaces a site's model with a checked image. -/
  | chiselImport (r : Req) (e : Bytes) (src : Option Bytes)
  /-- CHISEL_CHECKPOINT (R266). Every 1 s the Armature writes each model to its DRAM checkpoint. -/
  | chiselCheckpoint
  /-- COOLING_TICK (R278). Every 100 ms speeds are measured, effective targets formed, zones voted and loops updated. -/
  | coolingTick (tach : List (Nat × Nat × Nat × Nat))
  /-- FAN_START_TIMEOUT (R282). 3 s in STARTING without running moves the channel to STALLED or SEIZED. -/
  | fanStartTimeout (fan : Nat)
  /-- FAN_STALL_TIMER_EXPIRY (R282). 10 s in STALLED elapses and a new start attempt begins. -/
  | fanStallTimerExpiry (fan : Nat)
  /-- FAN_SEIZED_TIMER_EXPIRY (R282). 300 s in SEIZED elapses and a new start attempt begins. -/
  | fanSeizedTimerExpiry (fan : Nat)
  /-- FAN_TARGET_WRITE (R288). A FAN_TARGET write sets the policy target and restarts the cooling watchdog. -/
  | fanTargetWrite (r : Req) (fan : Nat) (value : Nat)
  /-- FAN_CLEAR (R282). FAN_CLEAR returns a STALLED or SEIZED channel to OFF. -/
  | fanClear (r : Req) (fan : Nat)
  /-- COOL_WDT_REFRESH (R288). A COOL_WDT_REFRESH write restarts the cooling watchdog. -/
  | coolWdtRefresh (r : Req)
  /-- COOL_WDT_EXPIRY (R288). WDT_WINDOW passes without a refresh and every fan and pump is forced full. -/
  | coolWdtExpiry
  /-- VALVE_CMD_WRITE (R290). A VALVE_CMD write sets the valve position, or is stored under an Isolate reaction. -/
  | valveCmdWrite (r : Req) (valve : Nat) (cmd : Nat)
  /-- VALVE_TRAVEL_TIMEOUT (R290). VALVE_POS does not confirm the position within TRAVEL_TIME and the valve enters VALVE_FAULT. -/
  | valveTravelTimeout (valve : Nat)
  /-- VALVE_POS_CHANGE (R290). The valve position input changes, confirming a move or starting the uncommanded-change timer. -/
  | valvePosChange (valve : Nat) (level : Bool)
  /-- VALVE_UNCOMMANDED_TIMER (R290). VALVE_POS changes for 1 s without a command and the valve enters VALVE_FAULT. -/
  | valveUncommandedTimer (valve : Nat)
  /-- FLOW_RATE_UPDATE (R291). Every 1 s FLOW_RATE is formed from the pulses of that second. -/
  | flowRateUpdate (meter : Nat) (pulses : Nat)
  /-- FLOW_LOSS_TIME_EXPIRY (R291). FLOW_RATE has stayed below FLOW_MIN for LOSS_TIME with its pump running, which is flow loss. -/
  | flowLossTimeExpiry (meter : Nat)
  /-- COOLANT_LOSS_END_TIMER (R293). A flow or pressure loss judgement has been false for 10 s and the episode ends. -/
  | coolantLossEndTimer (sensor : Nat)
  /-- ZONE_SENSOR_EXCLUSION (R297). A member's exclusion count reaches EXCL_COUNT and the member is excluded. -/
  | zoneSensorExclusion (zone : Nat) (slot : Nat)
  /-- ZONE_SENSOR_READMISSION (R297). After 600 samples within half its band an excluded member is readmitted. -/
  | zoneSensorReadmission (zone : Nat) (slot : Nat)
  /-- ZONE_COLD_LIE_CHECK (R298). Every 1 s a zone's power rise is compared with its temperature rise to judge COLD_LIE. -/
  | zoneColdLieCheck (zone : Nat)
  /-- ZONE_GUARD_EXIT_TIMER (R300). ZONE_TEMP stays below T_LIMIT − 2 × GUARD_MARGIN for 10 s and the zone leaves guard. -/
  | zoneGuardExitTimer (zone : Nat)
  /-- ZONE_CLEAR (R297). ZONE_CLEAR releases held exclusions and ends COLD_LIE for the zone. -/
  | zoneClear (r : Req) (zone : Nat)
  /-- LEAK_ROPE_READING (R303). A 2 ms rope reading classifies the rope as WET, BLIND, DRY or DAMP. -/
  | leakRopeReading (rope : Nat) (senseR : Nat) (loopR : Nat)
  /-- LEAK_POINT_SAMPLE (R304). A point sensor's two outputs are latched and classified. -/
  | leakPointSample (sensor : Nat) (a : Bool) (b : Bool)
  /-- LEAK_CLEAR (R312). LEAK_CLEAR ends a latched Isolate or Tray stop for a DRY zone. -/
  | leakClear (r : Req) (zone : Nat)
  /-- ACCEL_SAMPLE (R314). An 800 Hz accelerometer sample is filtered and judged against NOTE_MG and BRACE_MG. -/
  | accelSample (x : Int) (y : Int) (z : Int)
  /-- SHAKE_NOTE_EPISODE_END (R315). 10 s below NOTE_MG ends a Note episode. -/
  | shakeNoteEpisodeEnd
  /-- BRACE_REQUEST (R316). A BRACE_REQUEST write begins Brace or extends it. -/
  | braceRequest (r : Req)
  /-- BRACE_HOLD_EXPIRY (R316). SHAKE_PGA stays below NOTE_MG with no request for BRACE_HOLD and Brace ends. -/
  | braceHoldExpiry
  /-- SHAKE_PEAK_CLR (R314). SHAKE_PEAK_CLR clears SHAKE_PEAK_HOLD. -/
  | shakePeakClr (r : Req)
  /-- ACCEL_SELF_TEST (R318). Every 3,600 s the accelerometer self-test sets or clears SHAKE_FAULT. -/
  | accelSelfTest (ok : Bool)
  /-- ACCEL_NO_ANSWER (R318). The accelerometer does not answer for 10 ms and is in fault. -/
  | accelNoAnswer
  /-- TJ_SAMPLE (R320). Every 1 ms the core-die junction sensors are read and TJ_STATE is judged. -/
  | tjSample (readings : List (Option Int))
  /-- TJ_STOP_RELEASE_TIMER (R320). TJ_CORE stays below TJ_STOP − 10 °C for 10 s and the controller returns to NORMAL. -/
  | tjStopReleaseTimer
  /-- COUNT_FRAME_TRANSMIT (R326). At each multiple of 4,096 ns a COUNT frame leaves on every SYNC output. -/
  | countFrameTransmit
  /-- COUNT_FRAME (R330). A COUNT frame arrives on SYNC_IN and the alignment error drives the Pointing state. -/
  | countFrame (p : Bytes)
  /-- SYNC_CAL_PERIOD (R331). Every CAL_PERIOD the parent sends a CAL frame on a cabled line. -/
  | syncCalPeriod (line : Nat)
  /-- CAL_FRAME (R331). A CAL frame arrives at the child, which returns an ECHO frame. -/
  | calFrame (p : Bytes) (turn : Nat)
  /-- ECHO_FRAME (R331). An ECHO arrives at the parent, which forms the delay and sends DELAY or marks the line down. -/
  | echoFrame (line : Nat) (p : Bytes) (rtt : Nat)
  /-- DELAY_FRAME (R330). A DELAY frame arrives and the child steps or slews to COUNT + DELAY. -/
  | delayFrame (p : Bytes)
  /-- SYNC_FRAME_DISCARD (R325). A frame with a bad character or CRC is discarded and SYNC_CRC_ERR increments. -/
  | syncFrameDiscard (line : Nat)
  /-- POINTING_FRAME_LOSS (R330). No valid COUNT frame for 4 slots and the controller enters HOLDOVER. -/
  | pointingFrameLoss
  /-- HOLDOVER_LIMIT_EXPIRY (R330). HOLDOVER_LIMIT elapses and the count becomes invalid in FREE. -/
  | holdoverLimitExpiry
  /-- POINTING_SAVE_TIMER (R336). Every 1 s POINTING_SAVE is written to retention RAM with its Plinth time. -/
  | pointingSaveTimer
  /-- MANAGER_ECHO_WAIT_EXPIRY (R336). A starting manager without a valid count waits 50 ms for an ECHO and then sets its count. -/
  | managerEchoWaitExpiry
  /-- ARM (R337). ARM writes an arm table entry for a run. -/
  | armRun (r : Req) (e : Bytes) (src : Option Bytes)
  /-- LAUNCH (R338). LAUNCH at the manager starts the launch of a run at count N. -/
  | launchRun (r : Req) (e : Bytes)
  /-- DISARM (R338). DISARM discards an arm entry. -/
  | disarmRun (r : Req) (e : Bytes)
  /-- CLOSE (R345). CLOSE closes a run's launch record and hands it to the Journal engine. -/
  | closeRun (r : Req) (e : Bytes)
  /-- PROMOTE (R335). PROMOTE makes a free or holdover controller the manager of its subtree. -/
  | promoteManager (r : Req)
  /-- ARM_ENTRY_EXPIRY (R337). An arm entry not launched within 60 s is discarded with an EXPIRED record. -/
  | armEntryExpiry (run : Nat)
  /-- LAUNCH_FRAME (R339). A LAUNCH frame arrives, is checked against the refusals and forwarded to children and sites. -/
  | launchFrame (p : Bytes)
  /-- ACK_FRAME (R339). An ACK arrives from a child or site and is aggregated, or sent up once complete or refused. -/
  | ackFrame (line : Nat) (p : Bytes)
  /-- GO_FRAME (R339). A GO frame arrives and is forwarded so that the sites release at N. -/
  | goFrame (p : Bytes)
  /-- ABORT_FRAME (R339). An ABORT frame arrives and is forwarded so that no site releases. -/
  | abortFrame (p : Bytes)
  /-- RESULT_FRAME (R339). A RESULT frame arrives and is aggregated upward. -/
  | resultFrame (line : Nat) (p : Bytes)
  /-- LAUNCH_DEADLINE (R339). N − 100 µs passes without full acknowledgement and the manager sends ABORT with DEADLINE. -/
  | launchDeadline (run : Nat)
  /-- LAUNCH_COUNT_REACHED (R339). The count reaches N and each tray sends RESULT up and sets its launch record's outcome. -/
  | launchCountReached (run : Nat)
  /-- CHOICE_RECORD (R344). A CHOICE record is deduplicated and chained into its site's choice digest. -/
  | choiceRecord (src : Option (Nat × Nat)) (rec : Bytes)
  /-- SITE_DUMAP_REPORT (R343). A site reports its disabled-unit map to its Warden, updating SITE_DUMAP. -/
  | siteDumapReport (site : Nat) (map : Bytes)
  /-- AUDIT_OFFER (R379). An audit offer arrives, is counted and is selected for a check by its seed. -/
  | auditOffer (port : Nat) (src : Nat) (rec : Bytes)
  /-- CALIPER_FIRST_COMPUTE_DONE (R381). The first computation r1 ends and is compared with the site's result and flags. -/
  | caliperFirstComputeDone (check : Nat) (tile : Nat) (fetched : List (Nat × Bytes))
  /-- CALIPER_RECOMPUTE_DONE (R382). A recompute ends and, with both done, the verdict is reached. -/
  | caliperRecomputeDone (check : Nat) (tile : Nat) (fetched : List (Nat × Bytes))
  /-- CALIPER_FETCH_TIMEOUT (R369). A fetch returns no data within 1 ms and is reissued, or fails the job on a second failure. -/
  | caliperFetchTimeout (job : CheckJob)
  /-- CALIPER_OFFER_RETAIN_EXPIRY (R377). An operand fetch would end after POINTING_TIME plus CAL_OFFER_RETAIN and the check ends EXPIRED or INCONCLUSIVE. -/
  | caliperOfferRetainExpiry (check : Nat)
  /-- RUN_TABLE_IDLE_EXPIRY (R379). A run table entry with no offer for 60 s leaves the table. -/
  | runTableIdleExpiry (run : Nat)
  /-- CHECK (R395). CHECK runs the first computation and mismatch procedure on a submitted descriptor. -/
  | checkDesc (r : Req) (e : Bytes) (fetched : List (Nat × Bytes))
  /-- COMPUTE (R395). COMPUTE computes a descriptor's result and writes it at ADDR_D. -/
  | computeDesc (r : Req) (e : Bytes) (fetched : List (Nat × Bytes))
  /-- GAUGE_LOAD (R391). GAUGE_LOAD checks a model image against its slot and stores it in DRAM. -/
  | gaugeLoad (r : Req) (e : Bytes) (src : Option Bytes)
  /-- GAUGE_INVOKE (R395). GAUGE_INVOKE runs a slot at once outside its period. -/
  | gaugeInvoke (r : Req) (e : Bytes)
  /-- GAUGE_UNLOAD (R395). GAUGE_UNLOAD makes a slot NOT_LOADED. -/
  | gaugeUnload (r : Req) (e : Bytes)
  /-- GAUGE_INVOCATION (R392). At each multiple of PERIOD a loaded slot is invoked, or skipped if still running. -/
  | gaugeInvocation (slot : Nat)
  /-- GAUGE_INVOCATION_DONE (R392). A Gauge job ends and its outputs are judged against thresholds. -/
  | gaugeInvocationDone (slot : Nat)
  /-- CAL_AUDIT_RATE_WRITE (R379). A CAL_AUDIT_RATE write is stored clamped, with 0 alone turning audit off. -/
  | calAuditRateWrite (r : Req) (site : Nat) (value : Nat)
  /-- CAL_AUDIT_KEY_WRITE (R378). A CAL_AUDIT_KEY write sets the audit key for RUN_IDs first seen afterwards. -/
  | calAuditKeyWrite (r : Req) (key : Nat)
  /-- CAL_COV_CLR (R387). CAL_COV_CLR clears the selected site's coverage counters. -/
  | calCovClr (r : Req) (site : Nat)
  /-- CAL_DIS_FROM_WRITE (R386). A CAL_DIS_FROM write places the path's Disagreement record cursor. -/
  | calDisFromWrite (p : Path) (prin : Nat) (value : Nat)
  /-- CAL_DIS_REC_ADVANCE (R522). A read of the last word of CAL_DIS_REC advances the cursor. -/
  | calDisRecAdvance (p : Path)
  /-- EMISSION_RECORD (R399). An emission record arrives and is placed in its sequence block, possibly folding earlier blocks. -/
  | emissionRecord (port : Nat) (src : Nat) (rec : Bytes)
  /-- BIND_INPUT (R400). An INPUT bind record gives the digest of a sequence's input. -/
  | bindInput (port : Nat) (src : Nat) (rec : Bytes)
  /-- BIND_WEIGHTS (R410). A WEIGHTS bind record is logged and starts the weights spot check. -/
  | bindWeights (port : Nat) (src : Nat) (rec : Bytes)
  /-- JRN_GAP_WAIT_EXPIRY (R402). JRN_GAP_WAIT passes after a visible hole and the block folds with holes. -/
  | jrnGapWaitExpiry (seq : Nat)
  /-- JRN_SEQ_IDLE_EXPIRY (R401). A sequence with no record for JRN_SEQ_IDLE closes with TIMEOUT. -/
  | jrnSeqIdleExpiry (seq : Nat)
  /-- SPOT_CHECK_DONE (R410). The weights spot check ends and sets WEIGHTS_CHECKED or WEIGHTS_BAD. -/
  | spotCheckDone (site : Nat) (run : Nat) (list : Option Bytes) (chunks : List (Nat × Bytes))
  /-- JRN_SEAL_WAIT_EXPIRY (R411). JRN_SEAL_WAIT passes after the launch record closed and the manifest is sealed. -/
  | jrnSealWaitExpiry (run : Nat)
  /-- MANIFEST_SIGNED (R412). The Armature signs a sealed manifest and writes it to the log, retrying once on failure. -/
  | manifestSigned (run : Nat) (ok : Bool)
  /-- EXPORT_MANIFEST (R413). EXPORT_MANIFEST copies a sealed manifest. -/
  | exportManifest (r : Req) (e : Bytes)
  /-- EXPORT_SEQ (R413). EXPORT_SEQ copies a sequence's log entries. -/
  | exportSeq (r : Req) (e : Bytes)
  /-- EXPORT_LOG (R413). EXPORT_LOG copies whole log entries and advances the export cursor. -/
  | exportLog (r : Req) (e : Bytes)
  /-- HASH (R413). HASH writes the SHA-384 of a source range. -/
  | hashRange (r : Req) (e : Bytes) (src : Option Bytes)
  /-- SPOT (R413). SPOT runs the weights spot check again for a run and site. -/
  | spotCheck (r : Req) (e : Bytes)
  /-- MEM_REMOVE (R424). REMOVE takes an in-service channel out of service and its rail down. -/
  | memRemove (r : Req) (ch : Nat)
  /-- MEM_RETURN (R424). RETURN brings an out-of-service channel back for training. -/
  | memReturn (r : Req) (ch : Nat) (answers : Bool)
  /-- MEM_FILL_DONE (R428). The zero fill of a channel completes and the channel enters service. -/
  | memFillDone (ch : Nat)
  /-- MEM_READ_ERROR_DETECTED (R426). A read fails its cyclic checks and the data goes to its owner marked in error. -/
  | memReadErrorDetected (ch : Nat) (addr : Nat) (owner : Nat) (unit : Nat) (recovered : Bool)
  /-- MEM_SPD_SILENT_TIMEOUT (R423). The SPD is silent for 10 ms and the channel leaves service as REMOVED. -/
  | memSpdSilentTimeout (ch : Nat)
  /-- MEM_SCRUB_BURST (R432). A scrub burst reads 1 MB and passes detected errors to their owners. -/
  | memScrubBurst (ch : Nat) (errs : List (Nat × Nat × Nat))
  /-- SRAM_PARITY_ERROR (R433). A stacked SRAM parity error is counted and handled by the region's owner. -/
  | sramParityError (die : Nat) (region : Nat) (unit : Nat)
  /-- DOORBELL_SQ_TAIL (R441). An SQ_TAIL write makes entries pending for the writer's principal, or sets ERROR. -/
  | doorbellSqTail (r : Req) (q : Nat) (value : Nat)
  /-- QUEUE_SIZE_WRITE (R440). An SQ_SIZE or CQ_SIZE write resets the indices and enables or disables the queue. -/
  | queueSizeWrite (r : Req) (q : Nat) (cq : Bool) (value : Nat)
  /-- CQ_HEAD_WRITE (R443). A CQ_HEAD write frees completion slots, or is refused and sets ERROR. -/
  | cqHeadWrite (r : Req) (q : Nat) (value : Nat)
  /-- ENGINE_ENTRY_TAKE (R442). An engine reserves a completion slot and takes the next pending entry. -/
  | engineEntryTake (q : Nat)
  /-- COPY (R452). COPY moves bytes between Ebbex, DRAM and flash windows. -/
  | copyMem (r : Req) (e : Bytes)
  /-- FILL (R452). FILL writes a repeated pattern at DST_ADDR. -/
  | fillMem (r : Req) (e : Bytes)
  /-- FLASH_READ (R452). FLASH_READ copies from a flash device to DST_ADDR. -/
  | flashRead (r : Req) (e : Bytes)
  /-- MOVER_SEGMENT_DONE (R451). A 1 MB Mover segment completes and the next segment is assigned by priority. -/
  | moverSegmentDone (remote : Option Bytes)
  /-- READ_REQ (R457). An Ebbex READ_REQ arrives and is served from a window or refused. -/
  | readReq (port : Nat) (p : Packet)
  /-- WRITE_REQ (R457). An Ebbex WRITE_REQ arrives and is applied or refused. -/
  | writeReq (port : Nat) (p : Packet)
  /-- READ_RESP (R457). A READ_RESP arrives and is matched to its request by TAG. -/
  | readResp (port : Nat) (p : Packet)
  /-- WRITE_ACK (R457). A WRITE_ACK arrives and is matched to its request by TAG. -/
  | writeAck (port : Nat) (p : Packet)
  /-- ERROR_RESP (R457). An ERROR_RESP arrives and fails its request. -/
  | errorResp (port : Nat) (p : Packet)
  /-- POSTED_WRITE (R457). A POSTED_WRITE arrives and is written toward memory. -/
  | postedWrite (port : Nat) (p : Packet)
  /-- MESSAGE_INVALID (R460). A MESSAGE of the wrong source, length or type is discarded and counted. -/
  | messageInvalid (port : Nat) (p : Packet)
  /-- MESSAGE_COALESCED (R461). A MESSAGE whose ingress queue is full is counted in EBX_COALESCED. -/
  | messageCoalesced (port : Nat) (p : Packet)
  /-- CREDIT (R458). A CREDIT packet arrives carrying cumulative returned units. -/
  | creditPacket (port : Nat) (p : Packet)
  /-- LINK (R455). A LINK packet arrives and assigns the endpoint number. -/
  | linkPacket (port : Nat) (ep : Nat)
  /-- EBX_PACKET_DISCARD (R457). A packet of bad class, length or CRC is discarded and counted. -/
  | ebxPacketDiscard (port : Nat) (crcOk : Bool) (p : Packet)
  /-- EBX_CREDIT_SEND (R458). Every 1 µs with a changed count, or at 64 units, a CREDIT packet is sent. -/
  | ebxCreditSend
  /-- EBX_PORT_DOWN (R462). A port loses its link, drops posted traffic and begins retraining. -/
  | ebxPortDown (port : Nat) (dropped : Nat)
  /-- EBX_PORT_RETRAIN (R462). Every 1 s a down port retrains. -/
  | ebxPortRetrain (port : Nat) (ok : Bool)
  /-- EBX_REQUEST_TIMEOUT (R462). A request on a down port fails after 1 ms and is reissued on the other port. -/
  | ebxRequestTimeout (tag : Nat)
  /-- EVT_READ_ADVANCE (R466). A read of the last word of EVT_READ advances the path's cursor. -/
  | evtReadAdvance (p : Path)
  /-- EVENT_FORWARD (R466). Armature firmware forwards event ring entries to subscriptions and Redfish and frees them. -/
  | eventForward (n : Nat) (fails : List Nat)
  /-- EVENT_PUSH_RETRY (R475). A failed push is retried after 1 s, 2 s and 4 s and then dropped. -/
  | eventPushRetry (k : Nat) (ok : Bool)
  /-- TLS_CONNECT (R472). A TLS 1.3 client connects with a client key that resolves its principal, or is refused. -/
  | tlsConnect (port : Nat) (hash : Digest) (notBefore : Nat) (notAfter : Nat) (closed : List Nat) (conns : Nat) (svc : Bool)
  /-- REDFISH_REQUEST (R474). A Redfish request reads a resource or carries out an action's command. -/
  | redfishRequest (r : Req) (q : Redfish)
  /-- TELEMETRY_STREAM_PERIOD (R476). A telemetry stream's period elapses and its samples are sent or skipped. -/
  | telemetryStreamPeriod (k : Nat) (kept : Bool)
  /-- PTP_MESSAGE (R477). An IEEE 1588 message arrives and updates WALL_TIME and WALL_SYNC. -/
  | ptpMessage (port : Nat) (domain : Nat) (time : Nat) (within : Bool)
  /-- OWN_N_HEARTBEAT (R479). Every 100 µs the owner releases OWN_N for 1 µs or 4 µs and samples it for contention. -/
  | ownNHeartbeat (contention : Bool)
  /-- OWN_N_RELEASE_OBSERVED (R480). A Plinth observes a heartbeat or yield on OWN_N and updates its pair state. -/
  | ownNReleaseObserved (yield : Bool)
  /-- PAIR_CLAIM_DELAY_EXPIRY (R480). OWN_N high for the claim delay with a structure committed and the controller begins CLAIMING. -/
  | pairClaimDelayExpiry (us : Nat)
  /-- PAIR_OWN_N_IDLE_TIMEOUT (R480). OWN_N high for 300 µs moves a Partner to claim. -/
  | pairOwnNIdleTimeout (us : Nat)
  /-- PAIR_TAKEOVER_HANG (R481). OWN_N stays low for TAKEOVER_DETECT without a release and the Partner takes over. -/
  | pairTakeoverHang (us : Nat)
  /-- PAIR_TAKEOVER_DRIVE (R480). 20 µs after asserting TAKE_N the new Lead holds OWN_N and drives the latched levels. -/
  | pairTakeoverDrive
  /-- TAKE_N_ASSERTED (R480). TAKE_N from the other bay displaces the Lead into a core-die restart. -/
  | takeNAsserted
  /-- PAIR_SHADOW_FRAME (R483). A shadow frame carrying Lead state arrives at the Partner. -/
  | pairShadowFrame (item : Shadow)
  /-- PAIR_SYNC_AGE_TIMEOUT (R483). The last division frame becomes 10 ms old and PAIR_SYNCED clears. -/
  | pairSyncAgeTimeout
  /-- PAIR_LINK_CHANGE (R482). A pair link lane comes up or goes down. -/
  | pairLinkChange (lane : Nat) (up : Bool)
  /-- HANDOVER (R484). HANDOVER moves ownership to the Partner without a heartbeat gap. -/
  | handoverLead (r : Req)
  /-- TAKE (R481). TAKE at the Partner takes over ownership. -/
  | takeLead (r : Req)
  /-- HOLD_SET (R485). HOLD_SET writes HOLD_WINDOW, clamped, for the next Hold window. -/
  | holdSet (r : Req) (seconds : Nat)
  /-- EJECT_N_ASSERTED (R487). EJECT_N, debounced, makes the controller hand over or release the tray before its pins break. -/
  | ejectNAsserted
  /-- EJECT_LATCH_RELEASE (R535). The ejector latch releases at 60 ms or after the handover, 200 ms at most. -/
  | ejectLatchRelease
  /-- SELECT_WRITE (R495). A select write stores the index, sets SEL_ERR if out of range and invalidates the snapshot and staging. -/
  | selectWrite (r : Req) (addr : Nat) (value : Nat)
  /-- SNAPSHOT_LATCH_READ (R499). A read of the lowest word of a multi-word register latches all its words. -/
  | snapshotLatchRead (p : Path) (prin : Nat) (addr : Nat)
  /-- MULTIWORD_LOWER_WRITE (R500). A write of a lower word of a multi-word register is staged. -/
  | multiwordLowerWrite (r : Req) (addr : Nat) (value : Nat)
  /-- MULTIWORD_COMMIT_WRITE (R500). A write of the highest word commits every staged word at once. -/
  | multiwordCommitWrite (r : Req) (addr : Nat) (value : Nat)
  /-- REGISTER_READ_REFUSED (R498). A read by a principal without READ returns 0 and sets READ_REFUSED. -/
  | registerReadRefused (p : Path) (prin : Nat) (addr : Nat)
  /-- REGISTER_WRITE (R16). A write to a register with no row of its own acts by its access code. -/
  | registerWrite (r : Req) (addr : Nat) (value : Nat)
  /-- WARDEN_RESET_RELEASE (R96). A Site Warden leaves a brownout or supervisor reset, is reloaded by the Plinth from the loaded structure and re-adopts its site. -/
  | wardenResetRelease (w : Nat)
  /-- SYNC_LINE_LINK_UP (R331). The return pair of a SYNC line first delivers a valid frame, LINK_UP is set and the parent calibrates the line at once. -/
  | syncLineLinkUp (line : Nat)
  /-- DIGEST_HASH_DONE (R413). A Digest instance finishes hashing a HASH entry's source and writes the digest and the completion. -/
  | digestHashDone (k : Nat)
  /-- UPDATE_OPERATION_DONE (R130). An INSTALL_FW, UPDATE_PLASTER or STORE_SITE_IMAGE operation finishes streaming, programming and read-back, writes its install record and completes. -/
  | updateOperationDone (flashEnd : FlashEnd)
  /-- STRAP_STABLE (R528). A strap has been stable for 1 ms, or input good plus 5 ms has passed, and the strap is read. -/
  | strapStable (strap : Nat) (value : Bool)
  deriving DecidableEq, Repr

end Sys2Proof
end

