-- ==== Sys2Proof/Decode.lean ====
section
/-!
DEFINITION. Decode.lean: the commands that a word spells. The opcode table of this block gives none of its rows bits, so
no word spells a command.
-/
namespace Sys2Proof

/-- The command that a word spells by the opcode table's bits: no row of the table has any. -/
def decodeTableWord (_nbits _w : Nat) : Option Instr := none

end Sys2Proof
end

