-- ==== Sys2Proof/Config.lean ====
section
/-!
DEFINITION. Config.lean: what the manual names without giving (the cryptographic functions of other standards, the
values of one part) and the free values (results the manual leaves open). Each is opaque, or drawn
within the bounds that the manual states from choices that are: no proof can see more of it than the manual says, and a
claim about it holds whatever it is. notes/assumptions/3.md and 4.md list them.
-/
namespace Sys2Proof

/-- SHA-384 (R51, R111). A standard outside the manual, left uninterpreted. -/
opaque Config.sha384 : Bytes → Digest
/-- HMAC-SHA-384 under the device key (R112). -/
opaque Config.deviceHmac : Bytes → Digest
/-- RSASSA-PSS verification with SHA-384: modulus, signed bytes, signature (R52). -/
opaque Config.rsaVerify : Bytes → Bytes → Bytes → Bool
/-- SLH-DSA-SHA2-128s verification: public key, signed bytes, signature (R52). -/
opaque Config.slhVerify : Bytes → Bytes → Bytes → Bool
/-- The RSA identity key's signature over bytes (R142, R412). -/
opaque Config.rsaSign : Bytes → Bytes
/-- The SLH-DSA identity key's signature over bytes (R142, R412). -/
opaque Config.slhSign : Bytes → Bytes
/-- The RSA-3072 modulus of the identity key (R142, R411). -/
opaque Config.rsaModulus : Bytes
/-- The SLH-DSA public key of the identity key (R142, R411). -/
opaque Config.slhPubkey : Bytes
/-- The DER certificate chain of slot 0, held in the build record (R142; the manual gives its place in the record no offset). -/
opaque Config.certChain : Bytes → Bytes
/-- Fresh 32-byte value number k of the random source (R128). Free value. -/
opaque Config.freshNonce : Nat → BitVec 256
/-- The audit key made at start number k (R378, "Plinth value"). Free value. -/
opaque Config.freshAuditKey : Nat → BitVec 256
/-- The KIND byte of an event of the ring, for the rule that raises it (R466 gives no codes). Free value. -/
opaque Config.eventKind : Nat → BitVec 8
/-- A value that the manual leaves open, number k of them. Free value. -/
opaque Config.freeVal : Nat → Nat
/-- The settings that the training of a channel finds, for a DIMM of a serial at a rate (R421). Free value. -/
opaque Config.trainSettings : Nat → Nat → Nat → Bytes
/-- Tile compute cycles of a job whose work does not fill its last cycle, by its operation, formats and shape (R370 lets them depend on
nothing else; the manual gives no rounding). Free value. -/
opaque Config.jobCycles : List Nat → Nat
/-- Number k of the choices by which one part differs from another. Free value. -/
opaque Config.partPick : Nat → Nat
/-- `n` different members of a list, as the part's choices from number k on draw them. -/
def Config.draw {α : Type} : Nat → Nat → List α → List α
  | 0, _, _ => []
  | n + 1, k, l => match l[Config.partPick k % l.length]? with
    | none => []
    | some x => x :: Config.draw n (k + 1) (l.eraseIdx (Config.partPick k % l.length))
/-- Whether the part is of grade M2C (R5, R46). -/
opaque Config.gradeM2C : Bool
/-- CAL_DISABLED_MAP of the part: no tile of an M2A part, exactly four of the 16 of an M2C part, and which four is the part's own
(R5, R6, R46). -/
def Config.disabledMap : BitVec 16 :=
  if Config.gradeM2C then (Config.draw 4 0 (List.range 16)).foldl (fun m t => m ||| BitVec.ofNat 16 (2 ^ t)) 0 else 0
/-- What the accelerometer's filters' coefficients are exactly, times 2^30: 0 the high-pass's, 1 the low-pass's, 2 its damping (R314 gives
the corner frequencies alone; the model holds the first two near them). Free value. -/
opaque Config.accelCoef : Nat → Int
/-- A character of a serial number: 0 to 9, then A to Z (R43). -/
def Config.serialChar (k : Nat) : Nat := if k % 36 < 10 then 0x30 + k % 36 else 0x41 + (k % 36 - 10)
/-- MODULE_SERIAL, twelve characters of 0-9 and A-Z, first character lowest (R43). -/
def Config.moduleSerial : BitVec 96 :=
  BitVec.ofNat 96 ((List.range 12).foldr (fun i n => Config.serialChar (Config.partPick (16 + i)) + 256 * n) 0)
/-- ROM_VERSION (R508, "Image value"). -/
opaque Config.romVersion : BitVec 32
/-- Board revision that a build record lists (R43, R50; the manual gives its place in the record no offset). -/
opaque Config.buildRevision : Bytes → BitVec 8
/-- The Survey channels on which the Plinth's own map has the 24 module rails' voltages (R75; the manual numbers none). -/
def Config.factoryChans : List Nat := Config.draw 24 32 (List.range 384)
/-- NOM_K of a module rail's channel in the Plinth's own map (R75, R172; the manual gives none). -/
opaque Config.factoryScale : Nat → Nat
/-- How far a module rail's factory fault limits stand from its nominal voltage, below and above, in the codes of its encoding, and
their qualify count (R75; the manual gives none). -/
opaque Config.factoryWindow : Nat → Nat × Nat × Nat
/-- Identity of a die as a build record lists it: lot 6, wafer, x, y, type, stepping (R43; the manual gives the list no
layout). -/
opaque Config.buildDie : Bytes → Nat → Bytes
/-- A build record copy is valid (R111; the manual gives the record no check but that of its calibration table). -/
opaque Config.buildValid : Bytes → Bool
/-- A response message of SPDM 1.3 to a request code, from the request and what the responder puts in (R143: a standard
outside the manual). -/
opaque Config.spdmResponse : Nat → Bytes → Bytes → Bytes

end Sys2Proof
end

