-- ==== Sys2Proof/Machine/State.lean ====
section
/-!
DEFINITION. Machine/State.lean: everything the manual gives the controller to hold, as plain data. Each field's comment
reads: name | width [bits] | file and rule | reset value. "log n" is notes/assumptions/n.md.
-/
namespace Sys2Proof.Machine

/-- A sparse table by number: entry `k` is the first listed for `k`, and an unlisted one is the table's default. -/
abbrev Tbl (α : Type) := List (Nat × α)

/-- A byte memory: strictly rising addresses, no entry equal to what an unlisted address reads as (Memory.wf). -/
abbrev Memory := List Host.Cell

/-- A saturating 32-bit event counter with its CNT_SAT bit (R182, R501, R502). -/
structure Cnt where
  val : Word := 0
  sat : Bool := false
  deriving DecidableEq, Repr

/-- The restart kinds of R31, from widest (R86). -/
inductive RKind where
  | powerOn | moduleReset | coreDie | armature | caliperOnly
  deriving DecidableEq, Repr

/-- A last-cause record (R95). -/
structure LastCause where
  code : BitVec 8 := 1
  detail : BitVec 8 := 0
  time : BitVec 48 := 0
  deriving DecidableEq, Repr

/-- The outcomes of a start step (R105), in the order of their codes. -/
inductive StepEnd where
  | inProgress | ok | okAlternate | skippedWarm | failed | timeout | interrupted | interruptedBenign | notRun
  deriving DecidableEq, Repr

/-- A start ledger entry (R105); `begun` is the Plinth time of the step's first beginning in this start. -/
structure LedgerEntry where
  startSeq : Nat := 0
  form : Nat := 0
  outcome : StepEnd := .notRun
  attempt : Nat := 0
  carry : Nat := 0
  kind : RKind := .powerOn
  detail : Nat := 0
  duration : Nat := 0
  endTime : Nat := 0
  begun : Nat := 0
  deriving DecidableEq, Repr

/-- The power domains and clocks of chapter 1. -/
structure Power where
  /-- Standby domain powered | 1 | 01 R29 | 0 -/
  standby : Bool := false
  /-- Core domain powered | 1 | 01 R29 | 0 -/
  core : Bool := false
  /-- Armature domain powered | 1 | 01 R29 | 0 -/
  armature : Bool := false
  /-- Caliper domain powered | 1 | 01 R29 | 0 -/
  caliper : Bool := false
  /-- Stacked SRAM domain powered | 1 | 01 R29 | 0 -/
  sram : Bool := false
  /-- Fabric domain powered | 1 | 01 R29 | 0 -/
  fabric : Bool := false
  /-- Memory domain powered | 1 | 01 R29 | 0 -/
  memory : Bool := false
  /-- 4 MHz RC oscillator running | 1 | 01 R34 | 0 -/
  rcOsc : Bool := false
  /-- Fast clocks requested (0 Survey burst, 1 Armature, 2 Caliper, 3 DRAM), besides the requests that their requesters hold themselves:
  Ebbex.wake, Events.wake and MemCtl.wake (State.clkAsked) | 4 | 01 R35 | 0 -/
  clkReq : BitVec 4 := 0
  /-- Fast clocks granted, in the same order | 4 | 01 R35 | 0 -/
  clkGrant : BitVec 4 := 0
  /-- CLK_CNT_FAULT of the four clocks, and CNT_SAT bits 3:0 | 4 x 32 | 18 R506 | 0 -/
  clkFault : Tbl Cnt := []
  /-- Consecutive clock faults of the Armature PLL | 2 | 01 R36 | 0 -/
  armFaults : Nat := 0
  /-- Survey dies in slow scan | 16 | 01 R37 | 0 -/
  slowScan : BitVec 16 := 0
  /-- Fabric PHY, memory PHY, SRAM, Survey and Warden dies that did not answer, by die index | 32 | 01 R45 | 0 -/
  absent : BitVec 32 := 0
  /-- Die identity as read: lot 6, wafer, x, y, type, stepping bytes, by die index | 32 x 88 | 01 R42 | DESIGN CHOICE 0 (log 10) -/
  dieId : Tbl Bytes := []
  /-- IDENT_STATUS.IDENT_MISMATCH | 1 | 01 R44, 18 R506 | 0 -/
  identMismatch : Bool := false
  /-- IDENT_STATUS first differing die index | 5 | 01 R44, 18 R506 | 0 -/
  identFirst : BitVec 5 := 0
  /-- CAL_STATUS.FENCED: Caliper fenced by a clock fault, rail 265 or an absent SRAM die | 1 | 01 R36 R45, 05 R160, 18 R516 | 0 -/
  calFenced : Bool := false
  /-- CAL_STATUS clock fault | 1 | 01 R36, 18 R516 | 0 -/
  calClkFault : Bool := false
  /-- Lockstep pairs failed (ARM_PAIR_FAILED) | 4 | 15 R434, 18 R518 | 0 -/
  pairFailed : BitVec 4 := 0
  /-- Plinth times of the last lockstep mismatch of each pair | 4 x 48 | 15 R434 | none -/
  pairTime : Tbl Nat := []
  /-- Lockstep pairs that failed twice within 24 h, excluded until the next power-on | 4 | 15 R434 | 0 -/
  pairStuck : BitVec 4 := 0
  deriving DecidableEq, Repr

/-- Reset causes and the restart under way (chapter 3). Causes stand in retention storage. -/
structure ResetCtl where
  /-- RST_CAUSE | 13 | 03 R93, 18 R506 | 0x0001 -/
  rstCause : BitVec 13 := 1
  /-- CAL_RST_CAUSE | 13 | 03 R93, 18 R506 | 0x0001 -/
  calRstCause : BitVec 13 := 1
  /-- PLINTH_LAST_CAUSE | 64 | 03 R94 R95 | 0x0100_0000_0000_0000 -/
  plinthLast : LastCause := {}
  /-- BOOT_LAST_CAUSE | 64 | 03 R94 R95 | 0x0100_0000_0000_0000 -/
  bootLast : LastCause := {}
  /-- WARDEN_LAST_CAUSE of each Warden | 8 x 64 | 03 R94 R95 | 0x0100_0000_0000_0000 -/
  wardenLast : Tbl LastCause := []
  /-- Restart under way | 3 | 03 R86 | none. DESIGN CHOICE (log 64): R86 does not say until when a restart is under way. Here a
  power-on and a module reset are until input good, a core-die restart until step 7 ends with the core domain up, an Armature
  restart until step 9 ends, a Caliper-only reset until step 17 ends. -/
  under : Option RKind := none
  /-- Lowest last-cause code among the sources of the restart under way | 8 | 03 R86 | 0 -/
  underCode : Nat := 0
  /-- ARM_WDT_PERIOD [ms] | 16 | 03 R87, 18 R506 | 0x01F4 -/
  wdtPeriod : Nat := 500
  /-- Watchdog counting (since the handover lock) | 1 | 03 R87 | 0 -/
  wdtRunning : Bool := false
  /-- Plinth times of the watchdog expiries of the last 600 s, newest first | 2 x 48 | 03 R87 | none -/
  wdtTimes : List Nat := []
  /-- Software or debug resets waiting for the counter snapshot: kind and last-cause code | - | 03 R88 | none -/
  waiting : List (RKind × Nat) := []
  /-- Over-temperature reset held | 1 | 03 R90 | 0 -/
  otHeld : Bool := false
  /-- Plaster path forced by the strap, on the start of the input good or module reset that it was read at | 1 | 03 R91 | 0 -/
  strapForced : Bool := false
  /-- Handover lock | 1 | 00 R17 | 0 -/
  locked : Bool := false
  /-- Wardens in their own reset (brown-out or supervisor), lines undriven | 8 | 03 R96 | 0 -/
  wardenHeld : BitVec 8 := 0
  deriving DecidableEq, Repr

/-- The start ledger, in retention RAM (chapter 3). -/
structure Ledger where
  /-- START_SEQ, saturating | 32 | 03 R105, 18 R506 | DESIGN CHOICE 0 (log 10) -/
  startSeq : Nat := 0
  /-- START_SEQ of the last power-on, of which the Plinth derives CAL_AUDIT_KEY | 32 | 13 R378 | DESIGN CHOICE 0 (log 10) -/
  powerSeq : Nat := 0
  /-- LEDGER_CUR, by step 1 to 20; a step that has not begun has no entry and reads 0 | 20 x 256 | 03 R105, 18 R506 | DESIGN CHOICE 0
  (log 10) -/
  cur : Tbl LedgerEntry := []
  /-- How the steps stand that this start does not run (R31, R102): the entries as their own start left them, brought up to date
  when such a step ends | 20 x 256 | 03 R102 | none -/
  kept : Tbl LedgerEntry := []
  /-- LEDGER_CUR of the steps that a widened restart runs again and has not begun again | 20 x 256 | 03 R86 R105 | none -/
  again : Tbl LedgerEntry := []
  /-- LEDGER_PREV, by step | 20 x 256 | 03 R105, 18 R506 | DESIGN CHOICE 0 (log 10) -/
  prev : Tbl LedgerEntry := []
  /-- START_LEDGER_CTRL.RETRY_NORMAL, bit step - 1 | 20 | 03 R107, 18 R506 | 0 -/
  retryNormal : BitVec 20 := 0
  /-- Steps whose entry waits for its flash mirror | 20 | 03 R108 | none -/
  toMirror : List Nat := []
  /-- Bad entries skipped and counted on a read of the flash ring | 32 | 03 R108 | DESIGN CHOICE 0 (log 10) -/
  badEntries : Nat := 0
  /-- Saved DIMM training records, per channel: 512 bytes each, with the DIMM serial, the rate [MT/s], the settings and a CRC-32C
  | 4 x 4096 | 03 R101 R107, 15 R420 R421 | none -/
  savedTrain : Tbl Bytes := []
  /-- DIMM serials as last read, per channel; kept over a power-on, which R107's worked case needs (log 65) | 4 x 32 | 03 R107,
  15 R424 | DESIGN CHOICE none (log 10) -/
  serials : Tbl Nat := []
  /-- Steps whose CARRY returns to 0 at the next start (bit step - 1); kept over a power-on (log 65) | 20 | 03 R107 | 0 -/
  clear : BitVec 20 := 0
  /-- CARRY of each step before this start | 20 x 8 | 03 R105 R107 | 0 -/
  carries : Tbl Nat := []
  /-- DETAIL of each step's latest counted failure or success in an alternate form: what the alternate forms of steps 18 and 5 act on
  | 20 x 16 | 03 R101 R105 | none -/
  details : Tbl Nat := []
  /-- Slot of the last counted failures of step 11 and how many in a row were its own | 2 + 8 | 03 R101 | none -/
  slotRun : Nat × Nat := (3, 0)
  /-- KIND of the start under way or last made | 8 | 03 R105 | 0 -/
  kind : RKind := .powerOn
  /-- Image slots excluded by step 11 (0 A, 1 B), until an image is installed into them: kept over a power-on (log 65) | 2 | 03 R101
  | 0 -/
  excluded : BitVec 2 := 0
  deriving DecidableEq, Repr

/-- The option bytes in force and the merged revocation and minimum values (R97 to R99). Standby domain. -/
structure OptBytes where
  /-- Option bytes in use (256 bytes), or none with built-in defaults | 2048 | 03 R97 R98 | none -/
  bytes : Option Bytes := none
  /-- OB_STATUS.OB_STALE_COPY | 1 | 03 R98, 18 R506 | 0 -/
  stale : Bool := false
  /-- OB_STATUS.OB_ONE_COPY | 1 | 03 R98, 18 R506 | 0 -/
  oneCopy : Bool := false
  /-- OB_STATUS.OB_DEFAULTS | 1 | 03 R98, 18 R506 | 0 -/
  defaults : Bool := false
  /-- REVOKED_MAP, the union in force | 6 | 03 R99, 18 R508 | 0 -/
  revoked : BitVec 6 := 0
  /-- KEY_STATE as the boot ROM stage last wrote it, none until written: the Reckoner's value | 6 | 00 R16, 18 R508 | none -/
  keyWritten : Option (BitVec 6) := none
  /-- MIN_FW_VERSION in force | 32 | 03 R99, 18 R508 | 0 -/
  minFw : Nat := 0
  /-- MIN_STRUCT_VERSION in force (MAQ_MIN_VERSION) | 32 | 03 R99, 18 R507 R508 | 0 -/
  minStruct : Nat := 0
  /-- MIN_SITE_VERSION in force | 32 | 03 R99, 18 R508 | 0 -/
  minSite : Nat := 0
  /-- BOOT_STATUS.REVMIN_LOST | 1 | 04 R116, 18 R508 | 0 -/
  revminLost : Bool := false
  /-- BOOT_STATUS.KEY_TABLE_LOST | 1 | 04 R115, 18 R508 | 0 -/
  keyLost : Bool := false
  deriving DecidableEq, Repr

/-- The pins and straps that the controller reads from its surroundings (chapter 19). -/
structure Pins where
  /-- Input good on the hold-up capacitance | 1 | 03 R97 | 0 -/
  inputGood : Bool := false
  /-- PROFILE[1:0] as last stable | 2 | 02 R76, 19 R528 | DESIGN CHOICE 3 (log 10) -/
  profile : BitVec 2 := 3
  /-- BAY_ID strap as read | 1 | 17 R478, 19 R528 | DESIGN CHOICE 0 (log 10) -/
  bay : Bool := false
  /-- MGMT_MODE strap as read | 2 | 19 R528 | DESIGN CHOICE 3 (log 10) -/
  mgmtMode : BitVec 2 := 3
  /-- RECOVERY_REQ_N strap held low | 1 | 03 R91 | 0 -/
  recovery : Bool := false
  /-- EJECT_N asserted | 1 | 17 R487 | 0 -/
  eject : Bool := false
  /-- Ejector latch released | 1 | 19 R535 | 0 -/
  latchOpen : Bool := false
  /-- SITE_PRESENT inputs | 8 | 05 R164 | DESIGN CHOICE 0 (log 10) -/
  present : BitVec 8 := 0
  deriving DecidableEq, Repr

/-- One section of a committed Maquette: directory entry (R51) and bytes. -/
structure Sec where
  id : Nat
  cls : Nat
  scope : Nat
  digest : Digest
  body : Bytes
  deriving DecidableEq, Repr

/-- A Maquette as the structure registers hold it: the header fields in use and the sections (R50, R51). -/
structure Structure where
  version : Nat := 0
  keySlot : Nat := 0
  /-- SHA-384 of header and directory (R77). -/
  digest : Digest := 0
  secs : List Sec := []
  deriving DecidableEq, Repr

/-- A pending staged switch (R82): target, the request that made it, the blocking set, and whether queue 0 was reset
since it was submitted. -/
structure PendSwitch where
  profile : Nat
  target : Structure
  req : Req
  queueLost : Bool := false
  byPins : Bool := false
  deriving DecidableEq, Repr

/-- The operation that the structure verifier carries out (R56, R80). -/
structure MaqOp where
  /-- 1 STORE, 2 SWITCH, 4 VERIFY (codes of R80). -/
  op : Nat
  req : Req
  profile : Nat
  mode : Nat := 0
  data : Bytes := []
  byPins : Bool := false
  /-- STORE verified: the copy that is being written (0 or 1), its slot invalid since the write began (R71, R84). -/
  copy : Option Nat := none
  /-- Queue 0 was reset since it was submitted (R82). -/
  queueLost : Bool := false
  deriving DecidableEq, Repr

/-- The Maquette block: the live copy, the shadow and their registers (chapter 2). Standby domain. -/
structure Maq where
  /-- Live structure (NO_STRUCTURE when none) | - | 02 R57 R70 R75, 18 R507 | none -/
  live : Option Structure := none
  /-- Shadow with its pending switch (SWITCH_PENDING, PENDING_PROFILE) | - | 02 R57 R82, 18 R507 | none -/
  pend : Option PendSwitch := none
  /-- Structure verifier's operation | - | 02 R56 R80 | none -/
  op : Option MaqOp := none
  /-- Commands that wait for the verifier, oldest first: request, entry, source bytes | - | 02 R80 | none -/
  waiting : List (Req × Bytes × Option Bytes) := []
  /-- Profile record of a committed SWITCH that Brace or hold-up holds back: profile, STRUCT_VERSION | - | 02 R74, 10 R317 | none -/
  recordDue : Option (Nat × Nat) := none
  /-- MAQ_STATUS.ACTIVE_KEY_REVOKED | 1 | 02 R59, 18 R507 | 0 -/
  keyRevoked : Bool := false
  /-- MAQ_FORCE_P0 | 1 | 02 R73, 18 R507 | 0 -/
  forceP0 : Bool := false
  /-- MAQ_ACTIVE_PROFILE | 8 | 02 R73, 18 R507 | 0xFF -/
  activeProfile : Nat := 0xFF
  /-- MAQ_BLOCKERS of the last SWITCH that completed BLOCKED; while one pends MAQ_BLOCKERS is its blocking set as it stands | 9 | 02 R69
  R82, 18 R507 | 0 -/
  blockers : Nat := 0
  /-- MAQ_LOAD_ERR status | 8 | 02 R84, 18 R507 | 0 -/
  errCode : Nat := 0
  /-- MAQ_LOAD_ERR section ID or pin | 16 | 02 R84, 18 R507 | 0 -/
  errWhere : Nat := 0
  /-- Profile whose load failed at this start (R107) | 2 | 03 R107 | none -/
  failedProfile : Option Nat := none
  /-- Stable pin value that waits for the structure verifier | 2 | 02 R76 | none -/
  pinsNext : Option Nat := none
  /-- MAQ_PROF_STATUS per profile: valid and code of copy 0, valid and code of copy 1 | 4 x 24 | 02 R80, 18 R507 | 0 -/
  profStatus : Tbl ((Bool × Nat) × (Bool × Nat)) := []
  deriving DecidableEq, Repr

/-- A running image as the boot ROM left it (R123, R142). -/
structure RunImage where
  version : Nat := 0
  keySlot : Nat := 0
  digest : Digest := 0
  ifVersion : Nat := 0
  pairProto : Nat := 0
  /-- Verified block hash list (R121). -/
  hashes : List Digest := []
  loadBlocks : Nat := 0
  deriving DecidableEq, Repr

/-- An update operation under way (R129): the image that streams and where it goes. -/
structure UpdOp where
  /-- OPCODE of R449: 0x101 INSTALL_FW, 0x103 UPDATE_PLASTER, 0x104 STORE_SITE_IMAGE. -/
  op : Nat
  req : Req
  /-- Slot or entry. -/
  target : Nat
  image : Bytes
  /-- INSTALL_COUNT that its record gets, fixed before the target is erased (R118). -/
  count : Nat := 1
  /-- Copy 1 is in hand: copy 0 stands finished (R127, R129). -/
  second : Bool := false
  /-- Copy 1 is not started, since the module ejects (R487). -/
  held : Bool := false
  deriving DecidableEq, Repr

/-- A site image push under way (R138). -/
structure Push where
  site : Nat
  entry : Nat
  req : Option Req
  /-- Manifest digest that the bank must read back as (R138). -/
  digest : Digest := 0
  retried : Bool := false
  deriving DecidableEq, Repr

/-- The Boot and update block (chapter 4). Core domain, but for what its fields say. -/
structure Boot where
  /-- BOOT_SLOT: 0 A, 1 B, 2 Plaster | 2 | 04 R123, 18 R508 | 0 -/
  slot : Nat := 0
  /-- Candidate chosen in step 10, not yet released | - | 04 R120 R123 | none -/
  chosen : Option Nat := none
  /-- Running image, quarantine released | - | 04 R120 R121 | none -/
  run : Option RunImage := none
  /-- BOOT_STATUS.ROM_SERVICE | 1 | 04 R125, 18 R508 | 0 -/
  romService : Bool := false
  /-- BOOT_STATUS.PLASTER_HELD | 1 | 04 R136, 18 R508 | 0 -/
  plasterHeld : Bool := false
  /-- BOOT_STATUS.DEFERRED_FAIL | 1 | 04 R121, 18 R508 | 0 -/
  deferredFail : Bool := false
  /-- BOOT_STATUS.HEALTHY | 1 | 04 R131, 18 R508 | 0 -/
  healthy : Bool := false
  /-- COMMIT_DWELL counting | 1 | 04 R131 | 0 -/
  dwellRunning : Bool := false
  /-- COMMIT_DWELL [s] | 32 | 04 R131, 18 R508 | 0x258 -/
  commitDwell : Nat := 600
  /-- SLOT_ERR codes by SLOT_SEL | 12 x 8 | 04 R123, 18 R508 | 0 -/
  slotErr : Tbl Nat := []
  /-- DEBUG_NONCE last read | 256 | 04 R128, 18 R508 | DESIGN CHOICE 0 (log 10) -/
  nonce : BitVec 256 := 0
  /-- DEBUG_NONCE has been read and no accepted record has used it | 1 | 04 R128 | 0 -/
  nonceLive : Bool := false
  /-- UPDATE_STATUS: status, operation, number | 32 | 04 R144, 18 R508 | 0 -/
  updStatus : Nat := 0
  /-- SITE_PUSH_FAIL | 8 | 04 R138, 18 R508 | 0 -/
  pushFail : BitVec 8 := 0
  /-- Update operation under way | - | 04 R129 | none -/
  upd : Option UpdOp := none
  /-- Site pushes under way | - | 04 R138 | none -/
  pushes : List Push := []
  /-- Sites whose digest differs and whose entry is newer, found by step 19 | 8 | 04 R138 | 0 -/
  needPush : BitVec 8 := 0
  /-- Fabric sessions: interface version stated by each principal | - | 04 R141, 16 R450 | none -/
  sessions : Tbl Nat := []
  /-- Identity keys ready | 1 | 04 R142 | 0 -/
  identReady : Bool := false
  deriving DecidableEq, Repr

/-- The rail states of R153, in the order of their codes (R509). -/
inductive RailSt where
  | off | waitUp | upDelay | rising | good | waitDown | downDelay | falling | downfault | retryFall | backoff
  deriving DecidableEq, Repr

/-- One rail of the sequencers (chapter 5). -/
structure Rail where
  /-- RAIL_STATE state | 4 | 05 R153, 18 R509 | 0 -/
  st : RailSt := .off
  /-- Enable output asserted | 1 | 05 R153 | 0 -/
  enable : Bool := false
  /-- Ordered down in the power-down under way | 1 | 05 R153 | 0 -/
  downReq : Bool := false
  /-- Power-good input asserted | 1 | 05 R149 | DESIGN CHOICE 0 (log 10) -/
  pg : Bool := false
  /-- Power-good has stayed asserted for QUALIFY | 1 | 05 R149 | 0 -/
  qualified : Bool := false
  /-- Latest voltage sample taken after power-good last became asserted | 1 | 05 R149 | 0 -/
  fresh : Bool := false
  /-- Power-good changes counted in this step | 8 | 05 R150 | 0 -/
  changes : Nat := 0
  /-- CHATTER already recorded in this power-down step, or the fault that ends this rising step of a masked rail | 1 | 05 R150 R155 | 0 -/
  chatterDone : Bool := false
  /-- RAIL_STATE retry count | 8 | 05 R155, 18 R509 | 0 -/
  retries : Nat := 0
  /-- In retry (first RETRY_FALL until next GOOD) | 1 | 05 R153 | 0 -/
  inRetry : Bool := false
  /-- Wait cut short by R157: proceeds without DOWN_DELAY | 1 | 05 R157 | 0 -/
  cut : Bool := false
  /-- Masked dependent of a retrying rail until it completes its own QUALIFY | 1 | 05 R155 | 0 -/
  masked : Bool := false
  /-- PMBus write attempts failed in the write under way | 2 | 05 R148 | 0 -/
  pmbusTries : Nat := 0
  /-- Consecutive failed PMBus polls | 2 | 05 R148 | 0 -/
  pollFails : Nat := 0
  /-- Its backoff has elapsed in hold-up, which ends first | 1 | 05 R169 | 0 -/
  backoffDone : Bool := false
  /-- Plinth time at which its retry began, none once it is ordered up anew | 48 | 05 R156 | none -/
  retryAt : Option Nat := none
  /-- Plinth time of the last fault of its Survey channels | 48 | 05 R151 | none -/
  surveyAt : Option Nat := none
  /-- Plinth time at which it last left GOOD | 48 | 05 R156 | none -/
  leftGood : Option Nat := none
  /-- Plinth time of its last PG_LOSS, and whether the hold-up summary named the rail before it | 48, 1 | 05 R151 | none -/
  pgLossAt : Option (Nat × Bool) := none
  /-- Plinth time of the last BACKPOWER record | 48 | 06 R176 | none -/
  lastBack : Option Nat := none
  /-- Consecutive samples above OFF_LEVEL in OFF | 4 | 06 R176 | 0 -/
  backCount : Nat := 0
  deriving DecidableEq, Repr

/-- The site states of R164, in the order of their codes (R186). -/
inductive SiteSt where
  | absent | settling | identifying | unmatched | off | seqUp | running | degraded | seqDown | faulted | unadopted
  | retryWait
  deriving DecidableEq, Repr

/-- One accelerator site (chapter 5), held by its Warden. -/
structure Site where
  /-- SITE_STATE | 8 | 05 R164, 18 R509 | 0x00 -/
  st : SiteSt := .absent
  /-- SITE_TEMPLATE | 8 | 05 R163, 18 R509 | 0xFF -/
  template : Nat := 0xFF
  /-- Up attempt number | 2 | 05 R161 R164 | 0 -/
  attempt : Nat := 0
  /-- The sequence under way is a failed up attempt | 1 | 05 R164 | 0 -/
  failedUp : Bool := false
  /-- A downfault was recorded in this sequence | 1 | 05 R164 | 0 -/
  downfault : Bool := false
  /-- Rails whose wait was cut short in this sequence | 32 | 06 R187 | 0 -/
  cutMask : BitVec 32 := 0
  /-- Fault reaction running | 1 | 05 R156 | 0 -/
  reaction : Bool := false
  /-- Plinth time of the last Group shutdown of a part of it | 48 | 05 R156 | none -/
  shutAt : Option Nat := none
  /-- In the system reset under way | 1 | 05 R154 | 0 -/
  inSysReset : Bool := false
  /-- A commit changed SITE_TEMPLATES in the site's scope since it was identified | 1 | 05 R164 | 0 -/
  stale : Bool := false
  /-- Bad identity ROM header reads | 2 | 05 R163 | 0 -/
  romReads : Nat := 0
  /-- Identity ROM as last read | - | 05 R162 | none -/
  rom : Bytes := []
  /-- Level the Site Keeper latch or the Warden holds on the site's enables | 1 | 05 R168 | DESIGN CHOICE 0 (log 10) -/
  driven : Bool := false
  /-- Manifest digest of the image the site runs, as reported | 384 | 04 R138 | 0 -/
  imageDigest : Digest := 0
  /-- Version of the image the site runs, as reported | 32 | 04 R138 | 0 -/
  imageVersion : Nat := 0
  deriving DecidableEq, Repr

/-- A module group shut down (R160): members, time of its last shutdown, latched down. -/
structure ModGroup where
  mask : BitVec 24 := 0
  lastDown : Option Nat := none
  latched : Bool := false
  waiting : Bool := false
  deriving DecidableEq, Repr

/-- The Sequencer block (chapter 5). Standby domain. -/
structure Seq where
  /-- Rails by global number | 280 | 05 R145 R153 | OFF -/
  rails : Tbl Rail := []
  /-- Sites 0-7 | 8 | 05 R164 | ABSENT -/
  sites : Tbl Site := []
  /-- SITE_CMD_STATUS status | 8 | 05 R165, 18 R509 | 0 -/
  cmdStatus : Nat := 0
  /-- SITE_CMD_STATUS site | 3 | 05 R165, 18 R509 | 0 -/
  cmdSite : Nat := 0
  /-- TRAY_RESET_WIDTH [ms] | 32 | 05 R154, 18 R509 | 0xA -/
  resetWidth : Nat := 10
  /-- TRAY_RESET output asserted | 1 | 05 R154 | 0 -/
  trayReset : Bool := false
  /-- System reset under way | 1 | 05 R154 | 0 -/
  sysReset : Bool := false
  /-- Sites that were OFF, SEQ_UP, RUNNING, DEGRADED, SEQ_DOWN or RETRY_WAIT when it began | 8 | 05 R154 | 0 -/
  sysSites : BitVec 8 := 0
  /-- Sites still to be judged in start step 18 | 8 | 05 R168 | 0 -/
  toAdopt : BitVec 8 := 0
  /-- Module groups shut down, by their mask | - | 05 R160 | none -/
  groups : Tbl ModGroup := []
  /-- Rail 264 was shut down, and an Armature restart follows its return | 1 | 05 R160 | 0 -/
  armOwed : Bool := false
  deriving DecidableEq, Repr

/-- One Survey channel (chapter 6). -/
structure Chan where
  /-- SURVEY_RAW | 16 | 06 R177, 18 R510 | 0 -/
  raw : Int := 0
  /-- SURVEY_VALUE | 32 | 06 R177, 18 R510 | 0 -/
  value : Int := 0
  /-- SURVEY_CAL_OFF | 32 | 06 R178, 18 R510 | 0 -/
  calOff : Int := 0
  /-- SURVEY_CAL_K | 32 | 06 R178, 18 R510 | 0x0100_0000 -/
  calK : Int := 0x1000000
  /-- SURVEY_STATUS.WARN, W1C | 1 | 06 R174, 18 R510 | 0 -/
  warn : Bool := false
  /-- SURVEY_STATUS.STALE | 1 | 06 R175, 18 R510 | 0 -/
  stale : Bool := false
  /-- Judged out of the fault window: 0 in, 1 below FAULT_LO, 2 above FAULT_HI | 2 | 06 R174 | 0 -/
  out : Nat := 0
  /-- Consecutive samples beyond FAULT_LO, beyond FAULT_HI, and inside | 3 x 5 | 06 R174 | 0 -/
  nLo : Nat := 0
  nHi : Nat := 0
  nIn : Nat := 0
  /-- In warn: 0 no, 1 high, 2 low (KIND of R187) | 2 | 06 R174 | 0 -/
  inWarn : Nat := 0
  /-- Consecutive samples beyond a warn limit, and inside by HYST | 2 x 5 | 06 R174 | 0 -/
  wOut : Nat := 0
  wIn : Nat := 0
  /-- Plinth time of the last CHANNEL_WARN record of a warn | 48 | 06 R174 | none -/
  lastWarn : Option Nat := none
  deriving DecidableEq, Repr

/-- The Survey block (chapter 6). Standby domain. -/
structure Survey where
  /-- Channels 0-383 | 384 | 06 R172 | - -/
  chans : Tbl Chan := []
  /-- SURVEY_REF_FAIL per die | 16 x 32 | 06 R175, 18 R510 | 0 -/
  refFail : Tbl Cnt := []
  /-- Consecutive scans with slot 0 out of tolerance per die (key die), slot 1 (key 16 + die) | 32 x 2 | 06 R175 | 0 -/
  refBad : Tbl Nat := []
  /-- Windows that a die's channels keep until its next scan after a commit, by die | 16 x 384 x 8 | 02 R66 | none -/
  winOld : Tbl Bytes := []
  /-- SURVEY_STATUS.CAL_NEUTRAL per site | 8 | 06 R178, 18 R510 | 0 -/
  calNeutral : BitVec 8 := 0
  /-- SURVEY_STATUS.MODULE_CAL_NEUTRAL | 1 | 06 R539, 18 R510 | 0 -/
  moduleNeutral : Bool := false
  /-- Slow-scan period [ms], 1 to 100; no register or command sets it | 7 | 01 R37 | 10 -/
  slowPeriod : Nat := 10
  deriving DecidableEq, Repr

/-- The seven counters of a rail (R181), keyed OV 0, UV 1, OC 2, CHATTER 3, RETRY 4, SEQ_FAIL 5, DOWNFAULT 6. -/
structure RailCnt where
  /-- RAIL_CNT_OV to RAIL_CNT_DOWNFAULT and RAIL_CNT_SAT | 7 x 32, 7 | 06 R181 R182, 18 R509 | DESIGN CHOICE 0 (log 10) -/
  cnt : Tbl Cnt := []
  /-- Dirty for the next snapshot | 1 | 06 R183 R197 | 0 -/
  dirty : Bool := false
  deriving DecidableEq, Repr

/-- Rail counters in retention RAM, and the serials they belong to (R181, R184). -/
structure RailCnts where
  /-- Counters by rail | 280 | 06 R181 | 0 -/
  rails : Tbl RailCnt := []
  /-- The retention copy stands (parity good and not cleared since it was written) | 1 | 06 R185 | 0 -/
  stands : Bool := false
  /-- SITE_SERIAL the counters of each site belong to, 0 for none | 8 x 128 | 06 R184 | DESIGN CHOICE 0 (log 10) -/
  owners : Tbl Nat := []
  deriving DecidableEq, Repr

/-- A fault record before its SEQ and EPOCH are given (R186). -/
structure FaultRec where
  typ : Nat
  source : Nat
  kind : Nat
  siteState : Nat
  time : Nat
  pcount : Nat
  pfrac : Nat
  pvalid : Bool
  holdup : Bool
  retired : Bool
  data : Bytes
  /-- Waited in the queue over a freeze (FLAGS bit 2 QUEUED). -/
  queued : Bool := false
  deriving DecidableEq, Repr

/-- A ring page program in flight (R190): first slot, the bytes, and how many queued records it holds. -/
structure PageJob where
  slot : Nat
  bytes : Bytes
  count : Nat
  deriving DecidableEq, Repr

/-- The fault record log: queue and sequence in retention RAM, ring state in the Plinth (chapter 6). -/
structure Log where
  /-- Record queue, oldest first, at most 128 | 128 x 512 | 06 R190 R191 | empty -/
  queue : List FaultRec := []
  /-- Page program in flight; its records are the first of the queue | - | 06 R190 | none -/
  page : Option PageJob := none
  /-- LOG_SEQ | 32 | 06 R188, 18 R521 | DESIGN CHOICE 0 (log 10) -/
  seq : BitVec 32 := 0
  /-- LOG_EPOCH | 8 | 06 R188, 18 R521 | DESIGN CHOICE 0 (log 10) -/
  epoch : BitVec 8 := 0
  /-- LOG_LOST | 32 | 06 R191, 18 R521 | 0 -/
  lost : Cnt := {}
  /-- Dropped records not yet covered by a LOSS record, by kind as it changed, oldest first: count, first time, last time, kind | - | 06
  R191 R192 | none -/
  gap : List (Nat × Nat × Nat × Nat) := []
  /-- LOG_STATUS.SNAP_SKIPPED, W1C | 1 | 06 R197, 18 R521 | 0 -/
  snapSkipped : Bool := false
  /-- LOG_STATUS.COUNTERS_RESET, W1C | 1 | 06 R185, 18 R521 | 0 -/
  countersReset : Bool := false
  /-- Flash devices failed for the ring (ONE_DEVICE when one) | 2 | 06 R192, 18 R521 | 0 -/
  devFailed : BitVec 2 := 0
  /-- Ring write slot | 18 | 06 R189 | DESIGN CHOICE 0 (log 10) -/
  slot : Nat := 0
  /-- Sectors erased ahead of the write slot | 12 | 06 R190 | DESIGN CHOICE 0 (log 10) -/
  ahead : Nat := 0
  /-- Ring found (false between power-on and LOG_RING_RECOVERY_DONE) | 1 | 06 R193 | 0 -/
  ready : Bool := false
  /-- EPOCH_MARK that the next page begins with: 0 none, 1 sequence wrap, 2 ring re-initialised | 2 | 06 R188 R193 | 0 -/
  mark : Nat := 0
  /-- Read cursors per path, EPOCH:SEQ with the slot they stand at | 4 x 40 | 06 R194, 18 R521 | 0 -/
  cursor : Tbl Nat := []
  /-- LOG_READ_FROM per path | 4 x 40 | 06 R194, 18 R521 | 0 -/
  readFrom : Tbl Nat := []
  /-- LOG_TORN per path | 4 x 32 | 06 R195, 18 R521 | 0 -/
  torn : Tbl Cnt := []
  /-- LOG_ONE_COPY | 32 | 06 R194, 18 R521 | 0 -/
  oneCopy : Cnt := {}
  deriving DecidableEq, Repr

/-- A counter snapshot being written (R196): its trailer kind, bank, and the table and owners as they stood. -/
structure SnapJob where
  kind : Nat
  bank : Nat
  table : Tbl RailCnt
  owners : Tbl Nat
  seq : BitVec 32
  epoch : BitVec 8
  deriving DecidableEq, Repr

/-- The counter snapshot engine and hold-up (chapter 6). Plinth. -/
structure Snap where
  /-- Snapshot being written | - | 06 R196 R197 | none -/
  job : Option SnapJob := none
  /-- Bank erases in progress (bit b) | 2 | 06 R197 R537 | 0 -/
  erasing : BitVec 2 := 0
  /-- Bank erases held or suspended by hold-up | 2 | 06 R197 R200 | 0 -/
  held : BitVec 2 := 0
  /-- Erases of banks neither valid nor erased (bit 2 x device + bank) | 4 | 06 R537 | 0 -/
  mend : BitVec 4 := 0
  /-- Hold-up active | 1 | 06 R199 | 0 -/
  holdup : Bool := false
  /-- Plinth time hold-up began | 48 | 06 R199 | 0 -/
  holdStart : Nat := 0
  /-- Plinth time at which a reset ended it | 48 | 06 R187 R199 | none -/
  holdEnd : Option Nat := none
  /-- Lowest bus voltage of the hold-up | 16 | 06 R187 | 0xFFFF -/
  minBus : Nat := 0xFFFF
  /-- Summary of each site and of the module (8): UV_RAILS, OV_OC_RAILS, FAULTS | 9 x 96 | 06 R187 R201 | 0 -/
  sums : Tbl (Nat × Nat × Nat) := []
  /-- Journal flush descriptor being written | 1 | 06 R202 | 0 -/
  flushing : Bool := false
  /-- Bus voltage as last measured, bus encoding | 16 | 06 R199 R539, 07 R222 | DESIGN CHOICE 0 (log 10) -/
  busV : Nat := 0
  deriving DecidableEq, Repr

/-- An entry that an engine has taken: its bytes, and the principal and path of its doorbell (R26, R441, R442). -/
structure Taken where
  entry : Bytes
  principal : Nat
  path : Path := .fabric
  deriving DecidableEq, Repr

/-- The rings of a queue that was disabled or sized anew with entries taken: their completions still go there (R440). -/
structure Closing where
  base : Nat
  size : Nat
  tail : Nat
  phase : Bool
  taken : List Taken
  deriving DecidableEq, Repr

/-- One external queue (R439, R505). -/
structure Queue where
  /-- SQ_BASE | 64 | 16 R439, 18 R505 | 0 -/
  sqBase : Nat := 0
  /-- SQ_SIZE | 32 | 16 R440, 18 R505 | 0 -/
  sqSize : Nat := 0
  /-- SQ_TAIL | 32 | 16 R441, 18 R505 | 0 -/
  sqTail : Nat := 0
  /-- SQ_HEAD | 32 | 16 R441, 18 R505 | 0 -/
  sqHead : Nat := 0
  /-- CQ_BASE | 64 | 16 R439, 18 R505 | 0 -/
  cqBase : Nat := 0
  /-- CQ_SIZE | 32 | 16 R440, 18 R505 | 0 -/
  cqSize : Nat := 0
  /-- CQ_HEAD | 32 | 16 R443, 18 R505 | 0 -/
  cqHead : Nat := 0
  /-- CQ_TAIL | 32 | 16 R443, 18 R505 | 0 -/
  cqTail : Nat := 0
  /-- Phase of the next completion | 1 | 16 R440 R443 | 1 -/
  phase : Bool := true
  /-- Q_STATUS.ERROR | 1 | 16 R444, 18 R519 | 0 -/
  error : Bool := false
  /-- Q_STATUS error code | 8 | 16 R444, 18 R519 | 0 -/
  code : Nat := 0
  /-- Q_STATUS.CQ_STALL | 1 | 16 R442, 18 R519 | 0 -/
  stall : Bool := false
  /-- Q_STATUS.CQ_FULL | 1 | 16 R443, 18 R519 | 0 -/
  full : Bool := false
  /-- Q_EVENT_ADDR | 64 | 16 R446, 18 R519 | 0 -/
  evAddr : Nat := 0
  /-- Q_EVENT_DATA | 32 | 16 R446, 18 R519 | 0 -/
  evData : Nat := 0
  /-- Principals and paths of the pending entries' doorbells, oldest first | - | 01 R26, 16 R441 | none -/
  owners : List (Nat × Path) := []
  /-- Entries taken and not completed, each with a reserved slot | - | 16 R442 | none -/
  taken : List Taken := []
  /-- Former rings with entries still in flight | - | 16 R440 | none -/
  closing : List Closing := []
  /-- Entry read ahead over Ebbex from a remote ring, and failed reads of it so far | 512 + 2 | 16 R441 R445 | none -/
  got : Option Bytes := none
  fails : Nat := 0
  deriving DecidableEq, Repr

/-- A Mover entry in progress (R451, R452). -/
structure MovJob where
  req : Req
  entry : Bytes
  /-- Bytes of the entry moved so far. -/
  done : Nat := 0
  /-- CRC-32C register over the bytes written (FLAGS bit 1). -/
  crc : BitVec 32 := 0xFFFFFFFF
  /-- Its segment is under way. -/
  active : Bool := false
  /-- The port that all its Ebbex writes use (R451). -/
  port : Nat := 0
  deriving DecidableEq, Repr

/-- The Mover (R451). Core domain. -/
structure Mover where
  /-- Entries in progress, oldest first | - | 16 R451 | none -/
  jobs : List MovJob := []
  /-- Segments given since the last one of queue 6 | 3 | 16 R451 | 0 -/
  turn : Nat := 0
  deriving DecidableEq, Repr

/-- A request of the controller outstanding on a port (R457, R462). -/
structure EbxReq where
  tag : Nat
  port : Nat
  write : Bool
  addr : Nat
  length : Nat
  /-- Bytes of a write. -/
  data : Bytes := []
  reissued : Bool := false
  /-- Queue whose next entry a read fetches. -/
  q : Option Nat := none
  deriving DecidableEq, Repr

/-- The Ebbex endpoint (chapter 16). Core domain. -/
structure Ebbex where
  /-- EBX_EP_ID endpoint | 12 | 16 R455, 18 R519 | 0 -/
  epId : Nat := 0
  /-- Endpoint number assigned on each port | 2 x 12 | 16 R455 | none -/
  portEp : Tbl Nat := []
  /-- EBX_EP_ID.EP_CONFLICT | 1 | 16 R455, 18 R519 | 0 -/
  conflict : Bool := false
  /-- Link trained on a port, its LINK exchange not yet or already made | 2 | 16 R454 R462 | 0 -/
  trained : BitVec 2 := 0
  /-- TAG of the next request | 16 | 16 R456 | 0 -/
  nextTag : BitVec 16 := 0
  /-- Ports up | 2 | 16 R462 | 0 -/
  up : BitVec 2 := 0
  /-- SITE_EP | 8 x 16 | 16 R455, 18 R519 | 0xFFFF -/
  siteEp : Tbl Nat := []
  /-- EBX_CNT_FORMAT, EBX_CNT_CRC, EBX_CNT_DROP (0, 1, 2) | 3 x 32 | 16 R457 R458 R462, 18 R519 | 0 -/
  cnt : Tbl Cnt := []
  /-- EBX_CNT_MSG_BAD by source (8 other) | 9 x 32 | 16 R460, 18 R519 | 0 -/
  msgBad : Tbl Cnt := []
  /-- EBX_COALESCED by 6 x site + type index | 48 x 32 | 16 R461, 18 R519 | 0 -/
  coal : Tbl Cnt := []
  /-- Plinth time of the last coalescing event, by 6 x site + type index | 48 x 48 | 16 R461 | none -/
  coalTime : Tbl Nat := []
  /-- Cumulative units returned, by 4 x port + channel (0 Request, 1 Response, 2 Posted) | 8 x 32 | 16 R458 | 0 -/
  ret : Tbl (BitVec 32) := []
  /-- The same as last sent in a CREDIT packet | 8 x 32 | 16 R458 | 0 -/
  retSent : Tbl (BitVec 32) := []
  /-- Cumulative units the peer has returned, by 4 x port + channel | 8 x 32 | 16 R458 | 0 -/
  peer : Tbl (BitVec 32) := []
  /-- Requests outstanding, oldest first | - | 16 R451 R457 R462 | none -/
  reqs : List EbxReq := []
  /-- Fabric ingress asks for the Armature clock, not yet granted | 1 | 01 R35 | 0 -/
  wake : Bool := false
  deriving DecidableEq, Repr

/-- An entry of the event ring (R466). `cause` is the number of the rule that raises it; the KIND byte is
Config.eventKind of it. -/
structure Event where
  ptime : Nat
  block : Nat
  cause : Nat
  inst : Nat
  data : Nat
  deriving DecidableEq, Repr

/-- The event ring and the access gate's counters (chapters 0, 16, 18). Control buffers, core domain. -/
structure Events where
  /-- Event ring, oldest first | 4096 x 128 | 16 R466 | empty -/
  ring : List Event := []
  /-- Number of the oldest entry | - | 16 R466 | 0 -/
  first : Nat := 0
  /-- Read cursors per path, as entry numbers | 4 x 32 | 16 R466, 18 R521 | 0 -/
  cursor : Tbl Nat := []
  /-- EVT_COALESCED per block | 16 x 32 | 16 R466, 18 R521 | 0 -/
  coal : Tbl Cnt := []
  /-- Blocks that owe a COALESCED event | 16 | 16 R466 | 0 -/
  owed : BitVec 16 := 0
  /-- LOCK_VIOL_CNT | 32 | 00 R17, 18 R521 | 0 -/
  lockViol : Cnt := {}
  /-- Plinth time of the last lock-violation event per path | 4 x 48 | 00 R17 | none -/
  lastViol : Tbl Nat := []
  /-- An event or management ingress asks for the Armature clock, not yet granted | 1 | 01 R35 | 0 -/
  wake : Bool := false
  deriving DecidableEq, Repr

/-- A telemetry stream (R476, R520). -/
structure Stream where
  /-- TELEM_CFG | 2 | 17 R476, 18 R520 | 0 -/
  cfg : BitVec 2 := 0
  /-- TELEM_PERIOD [ms] | 32 | 17 R476, 18 R520 | 0x3E8 -/
  period : Nat := 1000
  /-- TELEM_DEST | 64 | 17 R476, 18 R520 | 0 -/
  dest : Nat := 0
  /-- TELEM_REF, register addresses | 64 x 32 | 17 R476, 18 R520 | 0 -/
  refs : Tbl Nat := []
  /-- TELEM_SKIP | 32 | 17 R476, 18 R520 | 0 -/
  skip : Cnt := {}
  /-- Principal that set the stream | 32 | 17 R476 | none -/
  owner : Option Nat := none
  deriving DecidableEq, Repr

/-- A failed push waiting for a retry (R475). -/
structure PushTry where
  sub : Nat
  event : Event
  tries : Nat
  deriving DecidableEq, Repr

/-- The management side (chapter 17). Core domain. -/
structure Mgmt where
  /-- Telemetry streams by TELEM_SEL | 16 | 17 R476, 18 R520 | - -/
  streams : Tbl Stream := []
  /-- MGMT_ADDR of port p word w (8 p + w), TRAY_SVC_ADDR words (16 + w) | 24 x 32 | 17 R472 R473, 18 R520 | 0 -/
  addr : Tbl (BitVec 32) := []
  /-- SPDM_PORT | 32 | 17 R472, 18 R520 | 0x1062 -/
  spdmPort : BitVec 32 := 0x1062
  /-- PTP_DOMAIN | 7 | 17 R477, 18 R520 | 0 -/
  ptpDomain : Nat := 0
  /-- WALL_TIME at its last synchronised value [ns] | 64 | 17 R477, 18 R520 | 0 -/
  wallBase : Nat := 0
  /-- Plinth time of that value | 48 | 17 R477 | 0 -/
  wallAt : Nat := 0
  /-- WALL_SYNC | 1 | 17 R477, 18 R520 | 0 -/
  wallSync : Bool := false
  /-- WALL_SYNC has been set since power-on | 1 | 17 R477 | 0 -/
  wallEver : Bool := false
  /-- Management ports left down by step 13 | 2 | 03 R101 | 0 -/
  portDown : BitVec 2 := 0
  /-- Principals that hold TLS sessions | 32 x 32 | 17 R472 | none -/
  tls : List Nat := []
  /-- Event subscriptions: principals | 16 x 32 | 17 R475 | none -/
  subs : List Nat := []
  /-- Failed pushes waiting for a retry | - | 17 R475 | none -/
  tries : List PushTry := []
  /-- EVT_SUB_DROP | 32 | 17 R475, 18 R520 | 0 -/
  subDrop : Cnt := {}
  /-- Plinth time of the last DENIED record per principal | - | 17 R468 | none -/
  lastDenied : Tbl Nat := []
  /-- Plinth time of the last TLS_REFUSED record per principal | - | 17 R491 | none -/
  lastTls : Tbl Nat := []
  deriving DecidableEq, Repr

/-- The pair states of R480, in the order of their codes (R520). -/
inductive PairSt where
  | undecided | claiming | lead | partner | displaced
  deriving DecidableEq, Repr

/-- Causes of a takeover (R491). -/
inductive TakeCause where
  | yield | hang | ownerless | command
  deriving DecidableEq, Repr

/-- Pair role, hold line and Hold window (chapter 17). Standby domain. -/
structure Pair where
  /-- PAIR_STATE | 3 | 17 R480, 18 R520 | 0 UNDECIDED -/
  st : PairSt := .undecided
  /-- PAIR_STATUS.PARTNER_ABSENT | 1 | 17 R487, 18 R520 | 0 -/
  partnerAbsent : Bool := false
  /-- PAIR_STATUS.ROLE_CONFLICT | 1 | 17 R480, 18 R520 | 0 -/
  roleConflict : Bool := false
  /-- PAIR_STATUS.TAKEOVER_BLOCKED, W1C | 1 | 17 R481, 18 R520 | 0 -/
  blocked : Bool := false
  /-- PAIR_STATUS.PAIR_SYNCED | 1 | 17 R483, 18 R520 | 0 -/
  synced : Bool := false
  /-- Pointing over the pair link is locked: the Partner's count follows the Lead's | 1 | 11 R335, 17 R482 R483 | 0 -/
  countLocked : Bool := false
  /-- OWN_N held low by this Plinth | 1 | 17 R479 | 0 -/
  ownHeld : Bool := false
  /-- TAKE_N driven toward the other bay | 1 | 17 R479 | 0 -/
  takeDriven : Bool := false
  /-- Tray outputs driven by this controller | 1 | 17 R480 | 0 -/
  outputs : Bool := false
  /-- Yielding heartbeats (from a restart until step 20, TJ stopped, or hold-up on this input) | 1 | 17 R481 | 0 -/
  yielding : Bool := false
  /-- Heartbeats without contention in CLAIMING | 2 | 17 R480 | 0 -/
  beats : Nat := 0
  /-- Consecutive yields seen as Partner | 2 | 17 R481 | 0 -/
  yields : Nat := 0
  /-- Plinth time of the last release seen on OWN_N | 48 | 17 R481 | 0 -/
  lastSeen : Nat := 0
  /-- Heartbeats for which contention checks stay suspended (200 us after a takeover, 1 ms in a handover) | 4 | 17 R480 R484
  | 0 -/
  suspended : Nat := 0
  /-- Takeover under way and its cause, before TAKEOVER_DRIVE | - | 17 R480 R481 | none -/
  taking : Option TakeCause := none
  /-- Pair link lanes up | 2 | 17 R482 | 0 -/
  lanes : BitVec 2 := 0
  /-- PAIR_PROTO of the other controller's running image | 16 | 17 R482 R484 | 0 -/
  peerProto : Nat := 0
  /-- The other controller reports its own input good | 1 | 17 R481 | 0 -/
  peerInputGood : Bool := false
  /-- Pair states as reported over the link: the other controller reports PARTNER | 1 | 17 R480 | 0 -/
  peerPartner : Bool := false
  /-- On-change items of the shadow equal and acknowledged | 1 | 17 R483 | 0 -/
  shadowOk : Bool := false
  /-- Plinth time of the last division frame | 48 | 17 R483 | none -/
  lastDivision : Option Nat := none
  /-- Last division frame: cap, prev_cap, recovering, still of each site | 8 x 66 | 17 R483 | none -/
  shadowCaps : Tbl (Nat × Nat × Bool × Bool) := []
  /-- Operating settings carried by the shadow (TRAY_BUDGET, bounds, fan targets, valve commands, HOLD_WINDOW), by
  register address, instance and value | - | 17 R483 | none -/
  shadowRegs : List (Nat × Nat × Nat) := []
  /-- Settings and on-change digests as last sent to the Partner: register address, instance and value | - | 17 R483 | none -/
  sent : List (Nat × Nat × Nat) := []
  sentIds : Option (Digest × Nat × Digest × Digest) := none
  /-- Rail counters and arm entries as the shadow last carried them, for a takeover: rail with its seven counts; entry number
  with its state and the block of ARM | - | 17 R483 | none -/
  shadowCnts : List (Nat × List Nat) := []
  shadowArms : Tbl (Nat × Bytes) := []
  shadowModels : Tbl Bytes := []
  /-- Arm entries as last sent to the Partner, by number: state and launch record | - | 17 R483 | none -/
  sentArms : List (Nat × Nat × Bytes) := []
  /-- HOLD_WINDOW [s] | 8 | 17 R485, 18 R520 | 0xA (R478 default, before a commit) -/
  holdWindow : Nat := 10
  /-- HOLD_STATE: 0 idle, 1 running, 2 expired | 2 | 17 R488, 18 R520 | 0 -/
  holdState : Nat := 0
  deriving DecidableEq, Repr

/-- The per-path access state of one block (R494 to R500). -/
structure PathBlock where
  /-- Primary select INDEX | 16 | 18 R493 R494 | 0 -/
  sel : Nat := 0
  /-- Secondary select | 16 | 18 R496 | 0 -/
  sel2 : Nat := 0
  /-- SEL_STATUS SEL_ERR primary, secondary, SNAP_MISS, READ_REFUSED (bits 0, 1, 8, 9) | 10 | 18 R493 | 0 -/
  status : BitVec 10 := 0
  /-- Snapshot: lowest offset of the latched register and its words | - | 18 R499 | none -/
  snap : Option (Nat × List Word) := none
  /-- Staged words: lowest offset of the register and its staged words by index | - | 18 R500 | none -/
  stage : Option (Nat × Tbl Word) := none
  deriving DecidableEq, Repr

/-- What the controller gives to its surroundings, newest first: the model's own record of its outputs. -/
inductive Out where
  /-- A completion or a command status on a request's path: request, status code, DETAIL, VALUE. -/
  | status (r : Req) (code detail value : Nat)
  /-- A register read's answer. -/
  | read (p : Path) (addr : Nat) (v : Word)
  /-- An Ebbex packet on a port. -/
  | packet (port : Nat) (p : Packet)
  /-- A frame on a SYNC line (13 lines of R324; 12 is SYNC_IN's return pair): class and fields. -/
  | frame (line : Nat) (cls : Nat) (data : Bytes)
  /-- Bytes to a management client: SPDM or Redfish response, telemetry, event push. -/
  | mgmt (what : Nat) (data : Bytes)
  /-- A write to a site over its sideband (rule number, site, data). -/
  | site (what site : Nat) (data : Bytes)
  /-- A frame on the pair link (item number, data). -/
  | pairFrame (what : Nat) (data : Bytes)
  /-- A pulse or a level given to the tray by a line that is no register (rule number, line). -/
  | line (what n : Nat)
  /-- A PMBus write to the device of a rail: address, PAGE first where there is one, and OPERATION (R148). -/
  | pmbus (rail addr : Nat) (page : Option Nat) (op : Nat)
  deriving DecidableEq, Repr

/-- The channel states of R422, in the order of their codes (R518). -/
inductive ChSt where
  | absent | training | filling | inService | outOfService
  deriving DecidableEq, Repr

/-- What a training report says of a channel, by its SPD and the training's result: capacity [GB], serial, rate [MT/s] (R417, R420). -/
structure TrainReport where
  supported : Bool
  trained : Bool
  cap : Nat
  serial : Nat
  rate : Nat
  deriving DecidableEq, Repr

/-- One DDR5 channel (chapter 15). -/
structure MemCh where
  /-- MEM_CH_STATE | 3 | 15 R422, 18 R518 | 0 ABSENT -/
  st : ChSt := .absent
  /-- MEM_OOS_CAUSE | 8 | 15 R423, 18 R518 | 0 -/
  cause : Nat := 0
  /-- Fitted capacity [bytes] | 39 | 15 R417 R418 | DESIGN CHOICE 0 (log 10) -/
  cap : Nat := 0
  /-- DIMM serial from the SPD | 32 | 15 R417 | DESIGN CHOICE 0 (log 10) -/
  serial : Nat := 0
  /-- Rate that the channel runs at [MT/s] | 14 | 15 R417 | DESIGN CHOICE 0 (log 10) -/
  rate : Nat := 0
  /-- MEM_CNT_DETECT | 32 | 15 R430, 18 R518 | 0 -/
  detect : Cnt := {}
  /-- MEM_CNT_SCRUB | 32 | 15 R432, 18 R518 | 0 -/
  scrub : Cnt := {}
  /-- MEM_CNT_UNRECOVERED | 32 | 15 R430, 18 R518 | 0 -/
  unrec : Cnt := {}
  /-- MEM_ERR_ADDR | 64 | 15 R430, 18 R518 | 0 -/
  errAddr : Nat := 0
  /-- MEM_ERR_TIME | 64 | 15 R430, 18 R518 | 0 -/
  errTime : Nat := 0
  /-- Plinth times of the detected errors of the last 3,600 s, newest first | - | 15 R431 | none -/
  errTimes : List Nat := []
  /-- MEM_FILL_FRONT, 1 MB regions | 32 | 15 R428, 18 R518 | 0 -/
  front : Nat := 0
  /-- Regions above the front filled out of turn | - | 15 R428 | none -/
  filled : List Nat := []
  /-- MEM_SCRUB_POS, 64-byte blocks | 32 | 15 R432, 18 R518 | 0 -/
  scrubPos : Nat := 0
  /-- MEM_STATUS.MEM_CONTENTS_LOST, W1C | 1 | 15 R428, 18 R518 | 0 -/
  lost : Bool := false
  /-- Contents kept through the restart (no fill after training) | 1 | 15 R422 | 0 -/
  kept : Bool := false
  /-- A fill was cut by a restart | 1 | 15 R423 R428 | 0 -/
  fillCut : Bool := false
  /-- Plinth time of the last DETECTED and SCRUB record | 2 x 48 | 15 R436 | none -/
  lastDet : Option Nat := none
  lastScrub : Option Nat := none
  /-- Blocks of DRAM that fail their checks, by channel-local block address | - | 15 R426 R427 | none -/
  bad : List Nat := []
  deriving DecidableEq, Repr

/-- The memory controllers and on-die memories (chapter 15). Core domain. -/
structure MemCtl where
  /-- Channels 0-3 | 4 | 15 R417 | - -/
  chs : Tbl MemCh := []
  /-- The DIMMs are in self-refresh for a hold-up (SHED_DIMMS_FIRST) | 1 | 06 R200 R203 | 0 -/
  shed : Bool := false
  /-- The memory controllers ask for the DRAM clock for an access, not yet granted | 1 | 01 R35 | 0 -/
  wake : Bool := false
  /-- MEM_ERR_LIMIT | 16 | 15 R431, 18 R518 | 0x40 -/
  errLimit : Nat := 64
  /-- MEM_SCRUB_PERIOD [h] | 8 | 15 R432, 18 R518 | 0x18 -/
  scrubPeriod : Nat := 24
  /-- MEM_SCRUB_PASS_TIME | 64 | 15 R432, 18 R518 | 0 -/
  passTime : Nat := 0
  /-- What step 15 has heard of each channel: supported, trained, capacity, serial; none where the SPD is silent | 4 | 15 R420 | none -/
  reports : Tbl (Option TrainReport) := []
  /-- SRAM_CNT_PARITY per die | 2 x 32 | 15 R433, 18 R518 | 0 -/
  parity : Tbl Cnt := []
  /-- Plinth time of the last SRAM_PARITY record per die | 2 x 48 | 15 R433 | none -/
  lastParity : Tbl Nat := []
  deriving DecidableEq, Repr

/-- Cap division of one site (chapter 7). -/
structure SiteCap where
  /-- SITE_CAP [mW], the last one also held by the Warden | 32 | 07 R216 R218 R219, 18 R511 | 0 -/
  cap : Int := 0
  /-- SITE_DEMAND [mW] as last divided | 32 | 07 R218, 18 R511 | 0 -/
  demand : Int := 0
  /-- CAP_CLAMP_SRC | 4 | 07 R218, 18 R511 | 0 -/
  src : Nat := 0
  /-- SITE_CAP_SW_FLOOR, none until written: FLOOR_MW | 32 | 07 R215, 18 R511 | Maquette value -/
  swFloor : Option Int := none
  /-- SITE_CAP_SW_CEIL, none until written: CEILING_MW | 32 | 07 R215, 18 R511 | Maquette value -/
  swCeil : Option Int := none
  /-- SITE_WEIGHT, none until written: WEIGHT | 32 | 07 R215, 18 R511 | Maquette value -/
  weight : Option Nat := none
  /-- CAP_CNT_SW_CLAMP, CAP_CNT_SHORT, CAP_CNT_GUARD, METER_EST_CNT, MARK_LOST, MARK_LATE, MARK_EARLY (keys 0-6) | 7 x 32
  | 07 R215 R218 R220 R213 R209 R230, 18 R511 | 0 -/
  cnts : Tbl Cnt := []
  /-- Recovering after a Hold fall | 1 | 07 R239 | 0 -/
  recovering : Bool := false
  /-- Still mode | 1 | 07 R217, 08 R260 | 0 -/
  still : Bool := false
  /-- CAPS entry in force while Still mode defers a commit | 256 | 02 R66 | none -/
  entry : Option Bytes := none
  /-- Cap held at launch [mW] | 32 | 07 R217 | 0 -/
  stillCap : Int := 0
  /-- STILL_CUT | 1 | 07 R217, 08 R260 | 0 -/
  stillCut : Bool := false
  /-- Cap guard level | 3 | 07 R220 | 0 -/
  guard : Nat := 0
  /-- Consecutive windows above the guard bound | 6 | 07 R220 | 0 -/
  guardOver : Nat := 0
  /-- Consecutive windows at or below SITE_CAP | 7 | 07 R220 | 0 -/
  guardUnder : Nat := 0
  /-- SITE_THROTTLE_FORCE | 3 | 07 R221, 18 R511 | 0 -/
  force : Nat := 0
  /-- Hazard throttle level of a leak reaction | 3 | 07 R221, 10 R311 | 0 -/
  leakLevel : Nat := 0
  /-- Last telemetry record | 512 | 07 R207 | none -/
  telem : Option Bytes := none
  /-- SEQ values used since the site's entry into RUNNING, newest first, the last 256 (log 86) | 256 x 32 | 07 R208 | none -/
  seen : List Nat := []
  /-- Plinth time of the last record or of the entry into RUNNING | 48 | 07 R208 | 0 -/
  telemAt : Nat := 0
  /-- METER_STATUS.TELEM_STALE | 1 | 07 R208, 18 R511 | 0 -/
  telemStale : Bool := false
  /-- METER_STATUS.TELEM_IMPLAUSIBLE | 1 | 07 R208, 18 R511 | 0 -/
  implausible : Bool := false
  /-- METER_STATUS.VTABLE_MISSING | 1 | 07 R227, 18 R511 | 0 -/
  vtMissing : Bool := false
  /-- METER_STATUS.PATINA_RESTORING | 1 | 07 R236, 18 R511 | 0 -/
  restoring : Bool := false
  /-- Voltage table as read from the identity ROM (record type 0x01) | - | 07 R225 | none -/
  vtable : Option Bytes := none
  /-- Survey calibration record as read (type 0x02) | - | 06 R179 | none -/
  calRec : Option Bytes := none
  /-- Sum and number of the voltage and current products of the interval under way [uW x 2^48], and the latest product | - |
  07 R210 | 0 -/
  prodSum : Int := 0
  prodN : Nat := 0
  prodLast : Int := 0
  /-- Last interval power [mW] and last valid one | 2 x 32 | 07 R210 R213 | 0 -/
  power : Int := 0
  lastValid : Int := 0
  deriving DecidableEq, Repr

/-- Capping (chapter 7). Standby domain, but TRAY_AVAIL, BUDGET_STATUS and the division registers: core. -/
structure Capping where
  /-- Sites | 8 | 07 R216 | - -/
  sites : Tbl SiteCap := []
  /-- TRAY_BUDGET, none until written: TRAY_BUDGET_DEFAULT | 32 | 07 R214, 18 R511 | TRAY_BUDGET_DEFAULT -/
  budget : Option Int := none
  /-- TRAY_AVAIL | 32 | 07 R216, 18 R511 | 0 -/
  avail : Int := 0
  /-- BUDGET_STATUS.BUDGET_CLAMPED, W1C | 1 | 07 R214, 18 R511 | 0 -/
  clamped : Bool := false
  /-- BUDGET_STATUS.BUDGET_SHORT, W1C | 1 | 07 R216, 18 R511 | 0 -/
  short : Bool := false
  /-- BUDGET_SHORT episode running | 1 | 07 R216 | 0 -/
  shortEp : Bool := false
  deriving DecidableEq, Repr

/-- The Relief states of R223, in the order of their codes (R511). -/
inductive RelSt where
  | idle | asserted | releasing | stage2
  deriving DecidableEq, Repr

/-- Relief (R222 to R224). Plinth. -/
structure Relief where
  /-- RELIEF_STATE state | 2 | 07 R223, 18 R511 | 0 IDLE -/
  st : RelSt := .idle
  /-- RELIEF_STATE level | 3 | 07 R223, 18 R511 | 0 -/
  level : Nat := 0
  /-- RELIEF_CNT_V | 32 | 07 R223, 18 R511 | 0 -/
  cntV : Cnt := {}
  /-- RELIEF_CNT_I | 32 | 07 R223, 18 R511 | 0 -/
  cntI : Cnt := {}
  /-- RELIEF_CNT_2 | 32 | 07 R223, 18 R511 | 0 -/
  cnt2 : Cnt := {}
  /-- Release condition holds | 1 | 07 R222 | 0 -/
  cond : Bool := false
  /-- Sites that the level asserted acts on: RELIEF_SITE_MASK as of the last transition, and none that it acted on before in the episode
  left out | 8 | 07 R222 R224 | 0 -/
  mask : Nat := 0
  /-- Episode: triggers (bits voltage, current, stage 2), highest level, start, least bus voltage, peak current | - | 07 R223
  R240 | 0 -/
  trig : Nat := 0
  maxLevel : Nat := 0
  start : Nat := 0
  minV : Nat := 0xFFFF
  peakI : Int := 0
  deriving DecidableEq, Repr

/-- A 64-bit energy accumulator with its residue [nJ] and its wrap bit (ENERGY_WRAP, W1C; R228, R503, R511). -/
structure Energy where
  uj : BitVec 64 := 0
  nj : Nat := 0
  wrap : Bool := false
  deriving DecidableEq, Repr

/-- A job table entry (R229). -/
structure Job where
  /-- JOB_ID | 64 | 07 R229, 18 R511 | 0 -/
  id : Nat := 0
  /-- JOB_STATE [1:0]: 0 free, 1 open, 2 closed | 2 | 07 R229, 18 R511 | 0 -/
  st : Nat := 0
  /-- JOB_STATE joined sites | 8 | 07 R229, 18 R511 | 0 -/
  joined : BitVec 8 := 0
  /-- Joined sites that have not ended it | 8 | 07 R231 | 0 -/
  active : BitVec 8 := 0
  /-- JOB_STATE.POINTING_VALID, ESTIMATED, IMPLICIT_END, WRAP | 4 | 07 R230 R213 R229, 18 R503 R511 | 0 -/
  pvalid : Bool := false
  estimated : Bool := false
  implicit : Bool := false
  wrap : Bool := false
  /-- JOB_ENERGY per site with residue | 8 x 64 | 07 R228, 18 R511 | 0 -/
  energy : Tbl Energy := []
  /-- Order of closing | 32 | 07 R231 | 0 -/
  closedAt : Nat := 0
  deriving DecidableEq, Repr

/-- One interval of the 10 ms history of a site (R230): its start, its energy [nJ], and the job (index plus 1, 0 idle)
that each part is attributed to, by the part's start, rising. -/
structure Interval where
  start : Nat
  len : Nat
  nj : Nat
  parts : List (Nat × Nat)
  /-- Estimated: a METER_RAIL channel was stale (R213). -/
  est : Bool := false
  deriving DecidableEq, Repr

/-- A job mark ahead of the current interval (R230). -/
structure Mark where
  site : Nat
  time : Nat
  begins : Bool
  id : Nat
  deriving DecidableEq, Repr

/-- One of the nine metered things (sites 0-7, tray 8): its peaks and averages (R233). -/
structure Peaks where
  /-- PWR_PEAK_1MS and its Pointing time | 32 + 64 | 07 R233, 18 R511 | 0 -/
  peak1ms : Int := 0
  peak1msAt : Nat := 0
  /-- PWR_AVG_1S and its Pointing time | 32 + 64 | 07 R233, 18 R511 | 0 -/
  avg1s : Int := 0
  avg1sAt : Nat := 0
  /-- PWR_AVG_60S and its Pointing time | 32 + 64 | 07 R233, 18 R511 | 0 -/
  avg60s : Int := 0
  avg60sAt : Nat := 0
  /-- PWR_PEAK_HOLD and its Pointing time | 32 + 64 | 07 R233 R234, 18 R511 | 0 -/
  hold : Int := 0
  holdAt : Nat := 0
  /-- Whether PWR_PEAK_HOLD has taken an interval since clear | 1 | 07 R233 | 0 -/
  holdSet : Bool := false
  /-- Interval powers of the 1 ms window under way | - | 07 R233 | none -/
  cur : List Int := []
  /-- Mean of the last complete 1 ms window | 32 | 07 R220 R208 | 0 -/
  avg1ms : Int := 0
  /-- Last 1,000 window means, newest first | - | 07 R233 | none -/
  ms : List Int := []
  /-- 1 ms windows of the 1 s window under way: sum and count | - | 07 R233 | 0 -/
  secSum : Int := 0
  secN : Nat := 0
  /-- Last 60 complete 1 s windows, newest first | - | 07 R233 | none -/
  secs60 : List Int := []
  deriving DecidableEq, Repr

/-- The meter (R210 to R234). Accumulators, job table and history in retention RAM; peaks in the Plinth. -/
structure Meter where
  /-- SITE_ENERGY | 8 x 64 | 07 R228, 18 R511 | DESIGN CHOICE 0 (log 10) -/
  energy : Tbl Energy := []
  /-- SITE_ENERGY_IDLE | 8 x 64 | 07 R228, 18 R511 | DESIGN CHOICE 0 (log 10) -/
  idle : Tbl Energy := []
  /-- SITE_ENERGY_RELEASED | 8 x 64 | 07 R228, 18 R511 | DESIGN CHOICE 0 (log 10) -/
  released : Tbl Energy := []
  /-- TRAY_ENERGY | 64 | 07 R228, 18 R511 | DESIGN CHOICE 0 (log 10) -/
  tray : Energy := {}
  /-- METER_BASE_SEQ | 32 | 07 R232, 18 R511 | DESIGN CHOICE 0 (log 10) -/
  baseSeq : Nat := 0
  /-- JOB_TABLE_FULL | 32 | 07 R231, 18 R511 | DESIGN CHOICE 0 (log 10) -/
  full : Cnt := {}
  /-- Job table | 1024 | 07 R229 | free -/
  jobs : Tbl Job := []
  /-- Job each site is attributed to, index plus 1, 0 none | 8 x 11 | 07 R229 | 0 -/
  siteJob : Tbl Nat := []
  /-- Closed jobs handed to the Journal engine for their run manifests, newest first | - | 07 R231 | none -/
  handed : List Job := []
  /-- Job closings so far | 32 | 07 R231 | 0 -/
  closings : Nat := 0
  /-- Last MARK_SEQ per site | 8 x 32 | 07 R209 | none -/
  markSeq : Tbl Nat := []
  /-- MARK_SEQ values skipped and not arrived since | - | 07 R209 | none -/
  markMiss : Tbl (List Nat) := []
  /-- Marks ahead of their interval | - | 07 R230 | none -/
  ahead : List Mark := []
  /-- 10 ms history per site, newest first | 8 x 100 | 07 R230 | none -/
  hist : Tbl (List Interval) := []
  /-- Start of the interval under way, on the time that metering keeps [ns] | 64 | 07 R210 | 0 -/
  start : Nat := 0
  /-- What metering's own time is ahead of the count by while Pointing is not acquired [ns] | 64 | 07 R210 R230 R237 | 0 -/
  base : Int := 0
  /-- Peaks and averages, 0-7 sites, 8 tray | 9 | 07 R233 | - -/
  peaks : Tbl Peaks := []
  /-- Non-site power of the last 1,000 windows, newest first | - | 07 R211 | none -/
  nonsite : List Int := []
  /-- Non-site interval powers of the window under way | - | 07 R211 | none -/
  nsCur : List Int := []
  /-- Bus current as last corrected [mA] | 32 | 07 R211 | DESIGN CHOICE 0 (log 10) -/
  busI : Int := 0
  deriving DecidableEq, Repr

/-- Patina of one site, of the core die (8), or running time of a fan or pump (R235). Retention RAM. -/
structure PatinaSet where
  /-- PATINA_CNT: temperature bins 0-7, voltage bins 8-11, cycles 12 | 13 x 32 | 07 R235, 18 R511 | DESIGN CHOICE 0 (log 10) -/
  cnt : Tbl Cnt := []
  /-- Thermal cycle detector: least and greatest temperature, and whether a rise of 30 degrees was seen | - | 07 R235 | none -/
  lo : Option Int := none
  hi : Option Int := none
  risen : Bool := false
  /-- Serial the counters belong to | 128 | 07 R236 | DESIGN CHOICE 0 (log 10) -/
  serial : Nat := 0
  deriving DecidableEq, Repr

/-- Patina (R235, R236). Retention RAM. -/
structure Patina where
  /-- Sites 0-7 and core die 8 | 9 | 07 R235 | 0 -/
  sets : Tbl PatinaSet := []
  /-- Fan and pump running seconds and starts, by channel (0-31 fans, 32-39 pumps) | 40 x 64 | 07 R235 | DESIGN CHOICE 0 (log 10) -/
  run : Tbl Cnt := []
  starts : Tbl Cnt := []
  deriving DecidableEq, Repr


/-- One phase cluster of a Chisel model (R248). -/
structure Cluster where
  used : Bool := false
  uses : Nat := 0
  /-- Pointing count at which it was last the current cluster. -/
  last : Nat := 0
  /-- Centroid, feature value x 2^16. -/
  cen : Tbl Int := []
  /-- Demand estimate per domain [mW]. -/
  e : Tbl Nat := []
  /-- Satisfaction term per domain [mW]. -/
  sat : Tbl Nat := []
  deriving DecidableEq, Repr

/-- A Chisel command that waits for the start of the next interval (R264): codes 1 FREEZE, 2 THAW, 3 RESET, 4 EXPORT,
5 IMPORT. -/
structure ChiselCmd where
  code : Nat
  req : Req
  addr : Nat := 0
  len : Nat := 0
  image : Option Bytes := none
  clearCnt : Bool := false
  deriving DecidableEq, Repr

/-- Chisel of one site (chapter 8). Core domain. -/
structure ChiselSite where
  /-- CHISEL_STATUS.ON | 1 | 08 R243, 18 R512 | 0 -/
  on : Bool := false
  /-- CHISEL_STATUS.FROZEN | 1 | 08 R264, 18 R512 | 0 -/
  frozen : Bool := false
  /-- CHISEL_STATUS.STILL | 1 | 08 R260, 18 R512 | 0 -/
  still : Bool := false
  /-- CHISEL_STATUS.STILL_CUT | 1 | 08 R261, 18 R512 | 0 -/
  stillCut : Bool := false
  /-- CHISEL_STATUS.SHORT | 1 | 08 R255, 18 R512 | 0 -/
  short : Bool := false
  /-- CHISEL_STATUS.FALLBACK | 1 | 08 R259, 18 R512 | 0 -/
  fallback : Bool := false
  /-- CHISEL_STATUS.STALE | 1 | 08 R259, 18 R512 | 0 -/
  stale : Bool := false
  /-- STALE_FALLBACK of staleness has passed | 1 | 08 R259 | 0 -/
  fallbackDue : Bool := false
  /-- CHISEL_STATUS.IMPLAUSIBLE | 1 | 08 R247, 18 R512 | 0 -/
  implausible : Bool := false
  /-- CHISEL_STATUS.MODEL_LOST | 1 | 08 R266, 18 R512 | 0 -/
  modelLost : Bool := false
  /-- Implausible records in a row | 4 | 08 R247 | 0 -/
  implRow : Nat := 0
  /-- Clusters | 16 | 08 R248 | unused -/
  clusters : Tbl Cluster := []
  /-- Current cluster (CHISEL_STATUS [23:16], 0xFF with none) | 8 | 08 R248, 18 R512 | 0xFF -/
  cur : Option Nat := none
  /-- Candidate cluster and its count | 5 + 5 | 08 R251 | none -/
  cand : Option Nat := none
  candN : Nat := 0
  /-- CHISEL_ALLOC | 8 x 32 | 08 R256, 18 R512 | 0 -/
  alloc : Tbl Nat := []
  /-- CHISEL_LEARNED | 8 x 32 | 08 R256, 18 R512 | 0 -/
  learned : Tbl Nat := []
  /-- CHISEL_DEMAND | 8 x 32 | 08 R256, 18 R512 | 0 -/
  demand : Tbl Nat := []
  /-- CHISEL_CLAMP_SRC | 8 x 4 | 08 R256, 18 R512 | 0 -/
  src : Tbl Nat := []
  /-- CHISEL_UNUSED_MW | 32 | 08 R254, 18 R512 | 0 -/
  unused : Nat := 0
  /-- CHISEL_SW_FLOOR, unlisted: hw_lo | 8 x 32 | 08 R263, 18 R512 | hw_lo -/
  swFloor : Tbl Nat := []
  /-- CHISEL_SW_CEIL, unlisted: hw_hi | 8 x 32 | 08 R263, 18 R512 | hw_hi -/
  swCeil : Tbl Nat := []
  /-- BIND 0-7, HW_CLAMP 8-15, IMPLAUSIBLE, SPAWN, EVICT, PHASE, MISSED, SHORT, SW_CLAMP 16-22 and CNT_SAT | 23 x 32 |
  08 R256 R267, 18 R512 | 0 -/
  cnts : Tbl Cnt := []
  /-- FALLBACK and SHORT of the last interval are status bits; SEQ of the next allocation record | 32 | 08 R257 | 0 -/
  seq : BitVec 32 := 0
  /-- Newest telemetry record not used by an interval | - | 08 R246 | none -/
  record : Option Bytes := none
  /-- CHISEL entry in force (held while Still defers a commit) | 1024 | 08 R244 R262, 02 R66 | none -/
  entry : Bytes := []
  /-- Cap that the last allocation was made under | 32 | 08 R261 | 0 -/
  heldCap : Nat := 0
  /-- Bounds lo and hi of each domain that the last allocation was made under | 8 x 2 x 32 | 08 R252 R261 | none -/
  heldBounds : Tbl (Nat × Nat) := []
  /-- A commit of CHISEL waits for the next interval | 1 | 02 R66, 08 R263 | 0 -/
  recommit : Bool := false
  /-- Command waiting for the next interval | - | 08 R264 | none -/
  cmd : Option ChiselCmd := none
  /-- Serial and domain count the model belongs to | 128 + 4 | 08 R266 | 0 -/
  serial : Nat := 0
  /-- CLUSTERS that the model was learned under, 0 with none | 5 | 02 R66, 08 R266 | 0 -/
  clustersOf : Nat := 0
  /-- Start step 20 has restored the model since the core domain was last reset | 1 | 08 R266 | 0 -/
  restored : Bool := false
  domains : Nat := 0
  deriving DecidableEq, Repr

/-- The fan and pump states of R282, in the order of their codes (R302). -/
inductive FanSt where
  | off | starting | running | stalled | seized | tachLost
  deriving DecidableEq, Repr

/-- One fan or pump (chapter 9). Plinth. -/
structure FanCh where
  /-- FAN_STATE state | 3 | 09 R282, 18 R513 | 0 OFF -/
  st : FanSt := .off
  /-- FAN_STATE ATTEMPT | 3 | 09 R282, 18 R513 | 0 -/
  attempt : Nat := 0
  /-- FAN_TARGET | 16 | 09 R278, 18 R513 | 0 -/
  target : Nat := 0
  /-- FAN_EFF_TARGET | 16 | 09 R278, 18 R513 | 0 -/
  eff : Nat := 0
  /-- FAN_TARGET_SRC | 4 | 09 R278, 18 R513 | 0 -/
  src : Nat := 0
  /-- FAN_SPEED | 16 | 09 R276, 18 R513 | 0 -/
  speed : Nat := 0
  /-- FAN_DUTY | 16 | 09 R274, 18 R513 | 0xFFFF -/
  duty : Nat := 0xFFFF
  /-- Integrator I | 32 | 09 R281 | 0 -/
  integ : Int := 0
  /-- Learned map M(b), in retention RAM, unlisted: the initial value | 8 x 32 | 09 R285 | initial values -/
  map : Tbl Int := []
  /-- MAX_RPM that the map was last begun under, with it in retention RAM | 16 | 09 R285 (log 123) | DESIGN CHOICE 0 (log 10) -/
  mapMax : Nat := 0
  /-- Consecutive speeds at or above MIN_RPM, tach periods absent, tach periods present | 3 x 2 | 09 R282 | 0 -/
  good : Nat := 0
  absent : Nat := 0
  seen : Nat := 0
  /-- Forced full at the last tick | 1 | 09 R279 | 0 -/
  forced : Bool := false
  /-- Supply switching: on-time of each cycle at SW_FREQ [ns] | 32 | 09 R275 | 0 -/
  onNs : Nat := 0
  /-- Supply switching: the stretched on-phase of the last measurement period [us], and the on-time that its other on-phases shared [us]
  | 2 x 17 | 09 R275 | 0 -/
  stretchUs : Nat := 0
  restUs : Nat := 0
  /-- FAN_CNT_STALL, FAN_CNT_SEIZED, FAN_CNT_TACH_LOST (keys 0-2) | 3 x 32 | 09 R286, 18 R513 | 0 -/
  cnts : Tbl Cnt := []
  deriving DecidableEq, Repr

/-- One valve. -/
structure Valve where
  /-- VALVE_CMD: 0 DEFAULT, 1 OPEN, 2 CLOSED | 2 | 09 R290, 18 R513 | 0 -/
  cmd : Nat := 0
  /-- Closed by a leak reaction (HAZARD_HELD) | 1 | 09 R290, 18 R513 | 0 -/
  held : Bool := false
  /-- VALVE_POS input, in the valve's polarity: open | 1 | 09 R290 | DESIGN CHOICE 0 (log 10) -/
  pos : Bool := false
  /-- A move waits for its confirmation | 1 | 09 R290 | 0 -/
  moving : Bool := false
  /-- VALVE_POS has left the position in force without a command | 1 | 09 R290 | 0 -/
  strayed : Bool := false
  /-- VALVE_STATE confirmed | 1 | 18 R513 | 0 -/
  confirmed : Bool := false
  /-- VALVE_STATE.VALVE_FAULT | 1 | 09 R290, 18 R513 | 0 -/
  fault : Bool := false
  deriving DecidableEq, Repr

/-- One flow meter. -/
structure FlowMeter where
  /-- FLOW_RATE | 16 | 09 R291, 18 R513 | 0 -/
  rate : Nat := 0
  /-- Plinth time since when FLOW_RATE has lain below FLOW_MIN | 48 | 09 R291 | none -/
  lowSince : Option Nat := none
  /-- In flow loss | 1 | 09 R291 R293 | 0 -/
  loss : Bool := false
  deriving DecidableEq, Repr

/-- One coolant pressure sensor. -/
structure PressSensor where
  /-- COOL_PRESSURE | 16 | 09 R292, 18 R513 | 0 -/
  value : Nat := 0
  /-- PRESS_STATUS.PRESS_STALE | 1 | 09 R292, 18 R513 | 0 -/
  stale : Bool := false
  /-- Ticks below PRESS_MIN | 2 | 09 R292 | 0 -/
  below : Nat := 0
  /-- Values of the last 10 ticks, newest first | 10 x 16 | 09 R292 | none -/
  hist : List Nat := []
  /-- Judged lost at the last tick | 1 | 09 R292 | 0 -/
  judged : Bool := false
  /-- PRESS_STATUS.PRESS_LOSS | 1 | 09 R293, 18 R513 | 0 -/
  loss : Bool := false
  deriving DecidableEq, Repr

/-- One member of a zone (R296, R297). -/
structure Member where
  /-- Previous sample | 16 | 09 R296 | none -/
  prev : Option Int := none
  /-- ZONE_SENSOR_VALID bit | 1 | 09 R297, 18 R513 | 0 -/
  valid : Bool := false
  /-- Exclusion count | 6 | 09 R297 | 0 -/
  cnt : Nat := 0
  /-- ZONE_SENSOR_EXCL excluded | 1 | 09 R297, 18 R513 | 0 -/
  excl : Bool := false
  /-- ZONE_SENSOR_EXCL held | 1 | 09 R297, 18 R513 | 0 -/
  held : Bool := false
  /-- Consecutive samples toward readmission | 10 | 09 R297 | 0 -/
  readmit : Nat := 0
  /-- Plinth times of the exclusions of the last 3,600 s, newest first | 2 x 48 | 09 R297 | none -/
  times : List Nat := []
  /-- The last sample was rate-rejected | 1 | 09 R296 R297 | 0 -/
  rated : Bool := false
  /-- A RANGE episode runs | 1 | 09 R297 | 0 -/
  outRange : Bool := false
  deriving DecidableEq, Repr

/-- One thermal zone. -/
structure Zone where
  /-- ZONE_TEMP | 16 | 09 R299, 18 R513 | 0 -/
  temp : Int := 0
  /-- ZONE_MEDIAN | 16 | 09 R296 R299, 18 R513 | 0x8000 -/
  median : Option Int := none
  /-- Members by slot | 8 | 09 R295 | - -/
  members : Tbl Member := []
  /-- ZONE_STATUS.DEGRADED | 1 | 09 R299, 18 R513 | 0 -/
  degraded : Bool := false
  /-- ZONE_STATUS.COLD_LIE | 1 | 09 R298, 18 R513 | 0 -/
  coldLie : Bool := false
  /-- ZONE_STATUS.GUARD | 1 | 09 R300, 18 R513 | 0 -/
  guard : Bool := false
  /-- ZONE_STATUS.OVER_LIMIT, W1C | 1 | 09 R300, 18 R513 | 0 -/
  overLimit : Bool := false
  /-- An over-limit episode runs | 1 | 09 R300 | 0 -/
  overEp : Bool := false
  /-- ZONE_STATUS.COOL_FLOW_LOSS and COOL_PRESS_LOSS | 2 | 09 R293, 18 R513 | 0 -/
  flowLoss : Bool := false
  pressLoss : Bool := false
  /-- Power sums and medians of the last COLD_WINDOW seconds, newest first | - | 09 R298 | none -/
  cold : List (Int × Option Int) := []
  /-- All members of the zone's fans have failed | 1 | 09 R287 | 0 -/
  noAir : Bool := false
  deriving DecidableEq, Repr

/-- The Cooling block (chapter 9). Plinth. -/
structure Cooling where
  /-- Fans 0-31 and pumps 32-39 | 40 | 09 R269 | - -/
  fans : Tbl FanCh := []
  /-- Valves | 16 | 09 R269 | - -/
  valves : Tbl Valve := []
  /-- Flow meters | 16 | 09 R269 | - -/
  meters : Tbl FlowMeter := []
  /-- Coolant pressure sensors | 8 | 09 R269 | - -/
  press : Tbl PressSensor := []
  /-- Zones | 16 | 09 R269 | - -/
  zones : Tbl Zone := []
  /-- Cooling watchdog counting (since a structure committed) | 1 | 09 R288 | 0 -/
  wdtRunning : Bool := false
  /-- Plinth time since when the watchdog's window runs: a refresh, its start, or the end of a restart | 48 | 09 R288 R289 |
  DESIGN CHOICE 0 (log 10) -/
  wdtAt : Nat := 0
  /-- The watchdog has tripped and no write has refreshed it | 1 | 09 R288 | 0 -/
  tripped : Bool := false
  /-- COOL_WDT_STATUS.COOL_WDT_TRIPPED, W1C | 1 | 09 R288, 18 R513 | 0 -/
  wdtTripped : Bool := false
  /-- COOL_WDT_STATUS suspended: an Armature or core-die restart runs | 1 | 09 R289, 18 R513 | 0 -/
  suspended : Bool := false
  /-- Hold window expired without Armature firmware | 1 | 09 R289 | 0 -/
  hold : Bool := false
  deriving DecidableEq, Repr

/-- One leak sensor: ropes 0-15, point sensors 16-47 (chapter 10). Plinth. -/
structure LeakSensor where
  /-- LEAK_STATE: 0 DRY, 1 DAMP, 2 WET, 3 BLIND | 3 | 10 R305, 18 R514 | 3 -/
  cls : Nat := 3
  /-- Class of the latest readings and how many in a row | 3 + 4 | 10 R305 | 0 -/
  cand : Nat := 3
  candN : Nat := 0
  /-- A class has qualified since the start | 1 | 10 R305 | 0 -/
  read : Bool := false
  /-- LEAK_SENSE_R and LEAK_LOOP_R | 2 x 32 | 10 R303, 18 R514 | 0xFFFF_FFFF -/
  senseR : Nat := 0xFFFFFFFF
  loopR : Nat := 0xFFFFFFFF
  /-- LEAK_CNT_WET, LEAK_CNT_BLIND and CNT_SAT | 2 x 32 | 10 R321, 18 R514 | 0 -/
  cntWet : Cnt := {}
  cntBlind : Cnt := {}
  deriving DecidableEq, Repr

/-- The leak state of one zone. -/
structure LeakZone where
  /-- LEAK_ZONE_STATE: 0 DRY, 1 ALERT, 2 WET | 2 | 10 R309, 18 R514 | 0 -/
  st : Nat := 0
  /-- LEAK_ZONE_STATE reaction: 0 none, 1 Warn, 2 Isolate, 3 Tray stop | 2 | 10 R311, 18 R514 | 0 -/
  react : Nat := 0
  /-- LEAK_ZONE_STATE.LATCHED | 1 | 10 R312, 18 R514 | 0 -/
  latched : Bool := false
  /-- SITE_MASK, valves, pumps and fans that the reaction took, with the throttle level it asserts | 8 + 16 + 8 + 32 + 3 |
  10 R311 R313 | 0 -/
  sites : Nat := 0
  valves : Nat := 0
  pumps : Nat := 0
  fans : Nat := 0
  level : Nat := 0
  deriving DecidableEq, Repr

/-- One axis of the accelerometer's filter (R314), in units of 2^-16 mg: the mean that the high-pass takes away, and the low-pass's
rate and value. -/
structure AccelAxis where
  mean : Int
  rate : Int := 0
  value : Int := 0
  deriving DecidableEq, Repr

/-- The Hazards block (chapter 10). Plinth. -/
structure Hazards where
  /-- Leak sensors | 48 | 10 R303 R304 | - -/
  sensors : Tbl LeakSensor := []
  /-- Leak zones | 16 | 10 R309 | - -/
  zones : Tbl LeakZone := []
  /-- BRACE_STATE.BRACE | 1 | 10 R316, 18 R514 | 0 -/
  brace : Bool := false
  /-- BRACE_STATE cause acceleration and cause request | 2 | 10 R316, 18 R514 | 0 -/
  causeAcc : Bool := false
  causeReq : Bool := false
  /-- BRACE_STATE.SHAKE_FAULT | 1 | 10 R318, 18 R514 | 0 -/
  shakeFault : Bool := false
  /-- SHAKE_PGA [mg] | 16 | 10 R314, 18 R514 | 0 -/
  pga : Nat := 0
  /-- SHAKE_PEAK_HOLD [mg] | 16 | 10 R314, 18 R514 | 0 -/
  peak : Nat := 0
  /-- Filter state of the three axes | - | 10 R314 | none; its first sample is the mean (log 117) -/
  filt : Tbl AccelAxis := []
  /-- Filtered axes [mg] | 3 x 16 | 10 R314 R321 | 0 -/
  axes : Tbl Int := []
  /-- Consecutive samples above NOTE_MG and BRACE_MG | 2 x 3 | 10 R314 | 0 -/
  overNote : Nat := 0
  overBrace : Nat := 0
  /-- A Note episode runs | 1 | 10 R315 | 0 -/
  note : Bool := false
  /-- Plinth times of the Note episode's and Brace's beginnings | 2 x 48 | 10 R321 | 0 -/
  noteAt : Nat := 0
  braceAt : Nat := 0
  /-- Plinth time since when SHAKE_PGA has stayed below NOTE_MG | 48 | 10 R315 R316 | none -/
  quietAt : Option Nat := none
  /-- Plinth time since when SHAKE_PGA has stayed below the NOTE_MG that Brace goes by | 48 | 02 R67, 10 R316 | none -/
  braceQuiet : Option Nat := none
  /-- HAZARD_REACTIONS as it stood when Brace began, empty without Brace | - | 02 R66 R67 | empty -/
  braceSec : Bytes := []
  /-- Plinth time of the last BRACE_REQUEST | 48 | 10 R316 | none -/
  lastReq : Option Nat := none
  /-- SHAKE_CNT_NOTE, SHAKE_CNT_BRACE, TJ_CNT_STOP | 3 x 32 | 10 R321, 18 R514 | 0 -/
  cntNote : Cnt := {}
  cntBrace : Cnt := {}
  cntStop : Cnt := {}
  /-- TJ_CORE | 16 | 10 R319, 18 R514 | 0 -/
  tjCore : Int := 0
  /-- TJ_STATE: 0 NORMAL, 1 STOPPED, 2 RESET | 2 | 10 R320, 18 R514 | 0 -/
  tjState : Nat := 0
  /-- TJ_STATE.TJ_SENSOR_FAULT | 1 | 10 R319, 18 R514 | 0 -/
  tjFault : Bool := false
  /-- The four junction readings of the last sample, 0x8000 when invalid | 4 x 16 | 10 R321 | 0x8000 -/
  tjRead : List (Option Int) := []
  deriving DecidableEq, Repr

/-- The Pointing states, in the order of their codes (R325). -/
inductive PtSt where
  | free | calibrating | locking | locked | holdover | manager
  deriving DecidableEq, Repr

/-- One SYNC line: 0 SYNC_IN, 1-4 peer lines, 5-12 site lines (R324). -/
structure SyncLine where
  /-- SYNC_STATUS.LINK_UP | 1 | 11 R331, 18 R515 | 0 -/
  linkUp : Bool := false
  /-- SYNC_STATUS.LINE_DOWN | 1 | 11 R331, 18 R515 | 0 -/
  lineDown : Bool := false
  /-- SYNC_STATUS.CALIBRATED | 1 | 18 R515 | 0 -/
  calibrated : Bool := false
  /-- SYNC_DELAY [2^-6 ns] | 32 | 11 R331, 18 R515 | 0 -/
  delay : Nat := 0
  /-- SYNC_CRC_ERR and CNT_SAT | 32 | 11 R325, 18 R515 | 0 -/
  crcErr : Cnt := {}
  /-- SEQ of the next frame sent on the line | 8 | 11 R325 | 0 -/
  seq : BitVec 8 := 0
  /-- CAL_SEQ outstanding, with T1 [2^-6 ns] | 16 + 70 | 11 R331 | none -/
  cal : Option (Nat × Nat) := none
  calSeq : BitVec 16 := 0
  /-- Measurements of the calibration under way, newest first | 3 x 32 | 11 R331 | none -/
  meas : List Nat := []
  /-- Failures to agree in a row | 2 | 11 R331 | 0 -/
  fails : Nat := 0
  deriving DecidableEq, Repr

/-- An arm table entry with its launch record (R337, R339, R345). -/
structure ArmEntry where
  /-- LAUNCH_ENTRY_STATE: 0 empty, 1 armed, 2 GO, 3 closed | 2 | 18 R515 | 0 -/
  st : Nat := 0
  runId : Nat := 0
  jobId : Nat := 0
  queue : Nat := 0
  siteMask : Nat := 0
  flags : Nat := 0
  program : Digest := 0
  participants : Nat := 0
  /-- Plinth time of arming. -/
  armedAt : Nat := 0
  /-- Disabled-unit maps that this tray formed its digests from at LAUNCH (R343). -/
  maps : Tbl (BitVec 256) := []
  /-- A LAUNCH has been received or sent for it. -/
  launched : Bool := false
  n : Nat := 0
  nFrac : Nat := 0
  /-- Still mode asked of Chisel (accepted timing-deterministic launch) and not ended. -/
  still : Bool := false
  /-- Sites that acknowledged, and whether the site ACK is still awaited. -/
  siteAcks : Nat := 0
  /-- Peer children that answered: key line, ACKED. -/
  childAcks : Tbl Nat := []
  /-- ACK (worker) or GO/ABORT (manager) sent. -/
  answered : Bool := false
  /-- ABORT received or sent. -/
  aborted : Bool := false
  refusal : Nat := 0
  firstNack : Nat := 0xFFFF
  /-- Count at full acknowledgement (manager) or at its ACK (worker), as ACK_MARGIN. -/
  margin : Nat := 0
  /-- Sites that had GO when the count reached N. -/
  released : Nat := 0
  notReleased : Nat := 0
  /-- RESULT frames of children: key line, (released, not released, first not). -/
  childRes : Tbl (Nat × Nat × Nat) := []
  resultSent : Bool := false
  /-- The count has reached N, and this tray released. -/
  reached : Bool := false
  trayOut : Bool := false
  outcome : Nat := 0
  stillCut : Nat := 0
  throttled : Nat := 0
  det : Digest := 0
  /-- Participating sites that have sent JOB_END for the entry's JOB_ID, or have left RUNNING. -/
  ended : Nat := 0
  left : Nat := 0
  /-- Choice chains and the next CHOICE_SEQ per site (R344). -/
  chain : Tbl Digest := []
  choiceSeq : Tbl Nat := []
  /-- Choice records of a site that wait for an earlier CHOICE_SEQ, in its order | - | 11 R344 | none -/
  choiceHeld : Tbl (List (Nat × Bytes)) := []
  diverge : Cnt := {}
  choiceLost : Nat := 0
  /-- Launch record as closed. -/
  record : Bytes := []
  /-- Pointing count at close. -/
  closeAt : Nat := 0
  closeWhy : Nat := 0
  deriving DecidableEq, Repr

/-- The Pointing block (chapter 11). Core domain, but POINTING_SAVE in retention RAM. -/
structure Pointing where
  /-- POINTING_STATE.POINTING_VALID | 1 | 11 R330, 18 R515 | 0 -/
  valid : Bool := false
  /-- POINTING_COUNT [ns] | 64 | 11 R322, 18 R515 | 0 -/
  count : Nat := 0
  /-- POINTING_FRAC [2^-6 ns] | 6 | 11 R322, 18 R515 | 0 -/
  frac : Nat := 0
  /-- Fraction bits of the count beyond POINTING_FRAC [2^-44 ns] | 38 | 11 R322 | DESIGN CHOICE 0 (log 10) -/
  fine : Nat := 0
  /-- What steering adds to the step of one PLL cycle [2^-44 ns] | 44 | 11 R322 R330 R332 | DESIGN CHOICE 0 (log 10) -/
  steer : Int := 0
  /-- PLL cycles of the crystal tick under way carried on to the next [1/256] | 8 | 11 R322 (log 112) | DESIGN CHOICE 0 (log 10) -/
  phase : Nat := 0
  /-- Error still to be slewed out [2^-6 ns] | - | 11 R332 | 0 -/
  slew : Int := 0
  /-- POINTING_STATE | 3 | 11 R330, 18 R515 | 0 FREE -/
  st : PtSt := .free
  /-- POINTING_STATUS.UPSTREAM_HOLDOVER | 1 | 11 R334, 18 R515 | 0 -/
  upstream : Bool := false
  /-- POINTING_STATUS.TREE_MISMATCH | 1 | 11 R329, 18 R515 | 0 -/
  mismatch : Bool := false
  /-- POINTING_EPOCH and CNT_SAT | 32 | 11 R323, 18 R515 | 0 -/
  epoch : Cnt := {}
  /-- LAUNCH_CONFLICT and CNT_SAT | 32 | 11 R341, 18 R515 | 0 -/
  conflict : Cnt := {}
  /-- Consecutive COUNT frames within 1 ns, and beyond 5 ns | 5 + 2 | 11 R330 | 0 -/
  nIn : Nat := 0
  nOut : Nat := 0
  /-- Error of the last COUNT frame [2^-6 ns] | 32 | 11 R330 R346 | 0 -/
  err : Int := 0
  /-- COUNT frame last received on SYNC_IN [2^-6 ns] | 70 | 11 R330 | 0 -/
  lastCount : Nat := 0
  /-- Local count at that frame [2^-6 ns] | 70 | 11 R330 | 0 -/
  lastLocal : Nat := 0
  /-- Manager waits for an ECHO to set its count | 1 | 11 R336 | 0 -/
  waitEcho : Bool := false
  /-- Lowest line whose ECHO offers a count to a starting manager, and that count less the local one [2^-6 ns] | - |
  11 R336 | none -/
  offer : Option (Nat × Int) := none
  /-- POINTING_SAVE: count and its Plinth time, in retention RAM | 64 + 48 | 11 R336 | none -/
  save : Option (Nat × Nat) := none
  /-- SYNC lines | 13 | 11 R324 | - -/
  lines : Tbl SyncLine := []
  /-- Arm table | 16 | 11 R337 | empty -/
  arms : Tbl ArmEntry := []
  /-- Launch records closed and handed to the Journal engine: RUN_ID and record, newest first | - | 11 R345 | none -/
  closed : List (Nat × Bytes) := []
  /-- SITE_DUMAP | 8 x 256 | 11 R343, 18 R515 | 0 -/
  dumap : Tbl (BitVec 256) := []
  deriving DecidableEq, Repr


/-- Coverage of one site and op (R387). -/
structure Cov where
  /-- OFFERS, SELECTED, PASSED, DISAGREE, INCONCLUSIVE, SKIPPED, EXPIRED, FETCH_FAIL, BAD (keys 0-8) and CNT_SAT | 9 x 32 |
  13 R387, 18 R516 | 0 -/
  cnt : Tbl Cnt := []
  /-- OFFERED_TERMS | 64 | 13 R387, 18 R516 | 0 -/
  offered : Nat := 0
  /-- CHECKED_TERMS | 64 | 13 R387, 18 R516 | 0 -/
  checked : Nat := 0
  /-- CAL_COV_STATUS.TERMS_WRAP, W1C | 1 | 18 R503 R516 | 0 -/
  wrap : Bool := false
  deriving DecidableEq, Repr

/-- Audit settings and coverage of one site (chapter 13). -/
structure CalSite where
  /-- CAL_AUDIT_RATE | 5 | 13 R379, 18 R516 | 0xD -/
  rate : Nat := 13
  /-- CAL_UNIT_FENCE_EN | 1 | 13 R384, 18 R516 | 0 -/
  fenceEn : Bool := false
  /-- Last OFFER_SEQ | 32 | 13 R376 | none -/
  lastSeq : Option Nat := none
  /-- Coverage by OP 1-6 | 6 | 13 R387 | 0 -/
  cov : Tbl Cov := []
  /-- CAL_COV_LOST and CNT_SAT bit 9 | 32 | 13 R376 R387, 18 R516 | 0 -/
  lost : Cnt := {}
  /-- Plinth times of the fence requests of the last 3,600 s, newest first | 4 x 48 | 13 R384 | none -/
  fences : List Nat := []
  /-- Plinth time of the last BAD_OFFER, OFFERS_LOST and FETCH_FAIL record (keys 4-6) | 3 x 48 | 13 R398 | none -/
  lastRec : Tbl Nat := []
  deriving DecidableEq, Repr

/-- An entry of the run table (R379): seed, latched rates, tiles seen, and the run's coverage by site (offered and checked
terms, disagreements, skips). -/
structure RunEnt where
  run : Nat
  seed : BitVec 256
  rates : Tbl Nat := []
  lastAt : Nat := 0
  cov : Tbl (Nat × Nat × Nat × Nat) := []
  deriving DecidableEq, Repr

/-- A check under way or queued (R381, R382): of an offer, or of a CHECK entry (`req`); or a COMPUTE entry, whose blocks stand in its place
(R370). -/
structure Check where
  id : Nat
  site : Nat
  req : Option Req := none
  unit : Nat := 0xFFFF
  run : Nat := 0
  tileIndex : Nat := 0
  jobId : Nat := 0
  time : Nat := 0
  desc : Bytes
  /-- 0 for the first computation, 1 with both recomputes to come, 2 with one of them done. -/
  stage : Nat := 0
  /-- A COMPUTE entry, its blocks still to be formed, and the flags of those formed. -/
  comp : Bool := false
  blocks : List Nat := []
  flags : Nat := 0
  /-- Tiles of r1, r2 and r3. -/
  t1 : Nat := 0
  t2 : Nat := 0
  t3 : Nat := 0
  /-- R374's bytes of r1, r2 and r3, with flags; none while not computed. -/
  r1 : Bytes := []
  r2 : Bytes := []
  r3 : Bytes := []
  /-- Site digest, FIRST_DIFF, DIFF_COUNT, SITE_VALUE, CAL_VALUE. -/
  siteDigest : Digest := 0
  first : Nat := 0xFFFFFFFF
  count : Nat := 0xFFFFFFFF
  siteVal : Nat := 0
  calVal : Nat := 0
  deriving DecidableEq, Repr

/-- One Gauge slot (R388 to R392). -/
structure GaugeSlot where
  /-- GAUGE_STATE.LOADED | 1 | 13 R391, 18 R516 | 0 -/
  loaded : Bool := false
  /-- GAUGE_SLOTS entry under which the image was loaded | 1024 | 13 R388 R391 | none -/
  entry : Bytes := []
  /-- Samples, newest first, each the FP32 codes of the inputs | 16 x 16 x 32 | 13 R389 | none -/
  hist : List (List Nat) := []
  /-- GAUGE_OUT | 8 x 32 | 13 R392, 18 R516 | 0x7FC0_0000 -/
  outs : Tbl Nat := []
  /-- GAUGE_CNT_SKIP | 32 | 13 R392, 18 R516 | 0 -/
  skip : Cnt := {}
  /-- The GAUGE_LOAD whose image is being fetched | - | 13 R395 | none -/
  loading : Option Req := none
  /-- A SKIPPED episode runs | 1 | 13 R392 | 0 -/
  skipEp : Bool := false
  /-- Invocations under way, oldest first: the input vector, and the GAUGE_INVOKE that asked with its OUT_ADDR | - | 13 R392
  R395 | none -/
  jobs : List (List Nat × Option (Req × Nat)) := []
  /-- Consecutive invocations at or above, and below, each threshold | 16 x 5 | 13 R392 | 0 -/
  above : Tbl Nat := []
  below : Tbl Nat := []
  /-- Outputs whose THRESHOLD was written and not re-armed, and in a NAN_OUTPUT episode | 16 | 13 R392 | 0 -/
  fired : Nat := 0
  nanEp : Nat := 0
  /-- Invocations completed | 32 | 13 R398 | 0 -/
  invocation : Nat := 0
  deriving DecidableEq, Repr

/-- A job that a tile runs (R368, R370): its rank (1 recompute, 2 sampled check, 3 CHECK entry, 4 Gauge), the check or Gauge slot, the
result it forms of a check (1 to 3) or the block of a COMPUTE, the scratch it reserves [bytes], and the fetches that have failed in it
(R369). -/
structure CalJob where
  tile : Nat
  rank : Nat
  id : Nat
  part : Nat
  bytes : Nat
  tries : Nat := 0
  deriving DecidableEq, Repr

/-- Caliper (chapter 13). Caliper and core domains. -/
structure Caliper where
  /-- Jobs that run, with their tiles and reservations in the 24 MB scratch pool | 16 | 13 R368 R370 | none -/
  busy : List CalJob := []
  /-- Gauge slots whose invocations wait for a tile, in arrival order | - | 13 R370 | none -/
  gaugeWait : List Nat := []
  /-- CAL_FENCED_MAP | 16 | 13 R369 R371, 18 R516 | 0 -/
  fencedMap : BitVec 16 := 0
  /-- CAL_STATUS.SELF_FENCED | 1 | 13 R383, 18 R516 | 0 -/
  selfFenced : Bool := false
  /-- Plinth times of detected errors of the last 60 s by tile | 16 x 48 | 13 R369 | none -/
  tileErr : Tbl Nat := []
  /-- CAL_AUDIT_KEY | 256 | 13 R378, 18 R516 | the Plinth's value (Config.freshAuditKey) -/
  key : Option (BitVec 256) := none
  /-- CAL_OFFER_RETAIN [ms] | 8 | 13 R377, 18 R516 | 0x14 -/
  retain : Nat := 20
  /-- DIS_SEQ of the next record | 32 | 13 R386 | 0 -/
  disSeq : Nat := 0
  /-- Disagreement ring in DRAM, newest first | 4096 x 3072 | 13 R386 | empty -/
  ring : List (Nat × Bytes) := []
  /-- CAL_DIS_FROM and the read cursor per path | 4 x 32 | 13 R386, 18 R516 | 0 -/
  disFrom : Tbl Nat := []
  disCur : Tbl Nat := []
  /-- CAL_COV_OP per path | 4 x 3 | 13 R387, 18 R516 | 1 -/
  covOp : Tbl Nat := []
  /-- Sites | 8 | 13 R379 | - -/
  sites : Tbl CalSite := []
  /-- Run table | 256 | 13 R379 | empty -/
  runs : List RunEnt := []
  /-- Offers seen: site, RUN_ID and TILE_INDEX | - | 13 R376 | none -/
  seen : List (Nat × Nat × Nat) := []
  /-- RUN_SEED of each RUN_ID seen, as latched when it was first seen | - x 256 | 13 R378 | none -/
  seeds : Tbl (BitVec 256) := []
  /-- Entries whose descriptor could not be read once | - | 13 R369, 15 R429 | none -/
  again : List Req := []
  /-- The self-test is due at the next step 17, for a fence of Caliper's own | 1 | 13 R383 | 0 -/
  testDue : Bool := false
  /-- Checks queued and under way, oldest first | 4096 | 13 R370 R380 | empty -/
  checks : List Check := []
  /-- Number of the next check | - | 13 R370 | 0 -/
  nextId : Nat := 0
  /-- Gauge slots | 8 | 13 R388 | - -/
  gauge : Tbl GaugeSlot := []
  deriving DecidableEq, Repr

/-- A record of an open block (R399, R403): TOKEN_INDEX, TOKEN_ID, SAMPLING_SEED, POINTING_TIME, and the SITE it named. -/
structure Token where
  idx : Nat
  id : Nat
  seed : Nat
  time : Nat
  site : Nat
  deriving DecidableEq, Repr

/-- A slot of the sequence table (R401). -/
structure JSeq where
  id : Nat
  slot : Nat
  site : Nat
  run : Nat
  open_ : Bool := true
  /-- Blocks folded so far. -/
  blocks : Nat := 0
  /-- Records of blocks not folded. -/
  recs : List Token := []
  /-- Index of FINAL, once it has arrived. -/
  last : Option Nat := none
  final : Bool := false
  holes : Bool := false
  timeout : Bool := false
  conflict : Bool := false
  noInput : Bool := false
  tokens : Nat := 0
  input : Option Digest := none
  /-- The chains, once the first block has folded or token 0 has arrived. -/
  d : Digest := 0
  c : Digest := 0
  started : Bool := false
  deriving DecidableEq, Repr

/-- A run known to the Journal engine (R411): its launch record at close, its weights by site, its audit disclosure. -/
structure JRun where
  run : Nat
  seed : BitVec 256
  launch : Option Bytes := none
  program : Digest := 0
  jobId : Nat := 0
  /-- WEIGHTS bind records by site. -/
  weights : Tbl Bytes := []
  /-- Audit rates latched, and coverage by site, at close. -/
  rates : Tbl Nat := []
  cov : Tbl (Nat × Nat × Nat × Nat) := []
  /-- Disagreement records, oldest first. -/
  dis : List Bytes := []
  spotChunks : Nat := 0
  weightsBad : Nat := 0
  weightsOk : Nat := 0
  mirrorLost : Bool := false
  overrun : Bool := false
  restarted : Bool := false
  /-- Manifest sealed, without its signature block; signed. -/
  manifest : Option Bytes := none
  signed : Bool := false
  failed : Bool := false
  /-- The retry of a failed signing has failed too (R412). -/
  unsignable : Bool := false
  exported : Bool := false
  deriving DecidableEq, Repr

/-- An entry of a pair's log (R405): its position since the log was emptied, its offset in the ring, its bytes. -/
structure JEntry where
  pos : Nat
  off : Nat
  bytes : Bytes
  deriving DecidableEq, Repr

/-- One mirror pair's log (R405 to R407). -/
structure JPair where
  /-- Entries still in the log, newest first | - | 14 R405 | empty -/
  log : List JEntry := []
  /-- Offset of the next entry | 38 | 14 R405 | 0 -/
  head : Nat := 0
  /-- LOG_SEQ | 32 | 14 R405 | 0 -/
  seq : Nat := 0
  /-- Position of the next entry, and the export cursor's | - | 14 R407 | 0 -/
  written : Nat := 0
  exported : Nat := 0
  /-- JRN_STATUS.MIRROR_LOST | 1 | 14 R406, 18 R517 | 0 -/
  mirrorLost : Bool := false
  /-- An OVERRUN episode runs | 1 | 14 R407 | 0 -/
  overEp : Bool := false
  deriving DecidableEq, Repr

/-- The Journal and Digest engines (chapter 14). -/
structure Journal where
  /-- JRN_KEEP per site | 8 x 2 | 14 R404, 18 R517 | 0 -/
  keep : Tbl Nat := []
  /-- JRN_SITE_STATUS: WEIGHTS_CHECKED bit 0, WEIGHTS_BAD bit 1, per site | 8 x 2 | 14 R410, 18 R517 | 0 -/
  siteStatus : Tbl Nat := []
  /-- JRN_STATUS.REGION_CLAMPED | 1 | 15 R419, 18 R517 | 0 -/
  clamped : Bool := false
  /-- JRN_STATUS.OVERRUN, W1C | 1 | 14 R407, 18 R517 | 0 -/
  overrun : Bool := false
  /-- JOURNAL_EPOCH | 32 | 14 R405 R414, 18 R517 | DESIGN CHOICE 0 (log 10) -/
  epoch : Nat := 0
  /-- JRN_SEQ_IDLE, JRN_GAP_WAIT, JRN_SEAL_WAIT [ms] | 3 x 32 | 14 R401 R402 R411, 18 R517 | 0x2710, 0x64, 0x3E8 -/
  seqIdle : Nat := 10000
  gapWait : Nat := 100
  sealWait : Nat := 1000
  /-- JRN_REGION [GB], and the one in force since power-on | 2 x 32 | 14 R405, 18 R517 | 0x40 -/
  region : Nat := 64
  regionNow : Nat := 64
  /-- JRN_SPOT_CHUNKS | 32 | 14 R410, 18 R517 | 0x40 -/
  spotN : Nat := 64
  /-- JRN_CNT_BAD, DUP, SEQ_FULL, LATE, OVERRUN, SPOT_FAIL, DROPPED (keys 0-6) and CNT_SAT | 7 x 32 | 14 R416, 18 R517 | 0 -/
  cnts : Tbl Cnt := []
  /-- A SEQ_FULL episode runs | 1 | 14 R401 | 0 -/
  fullEp : Bool := false
  /-- Sequence table | 65,536 | 14 R401 | empty -/
  seqs : List JSeq := []
  /-- Mirror pairs 0/1 and 2/3 | 2 | 14 R405 | - -/
  pairs : Tbl JPair := []
  /-- Entries that exports skipped, both copies of which failed; no register of the manual shows it | 32 | 14 R413 | DESIGN CHOICE 0
  (log 131) -/
  torn : Nat := 0
  /-- Runs | - | 14 R411 | none -/
  runs : List JRun := []
  /-- MANIFEST_SEQ of the next manifest | 32 | 14 R411 | 0 -/
  manifestSeq : Nat := 0
  /-- Spot checks under way: run, site, and the SPOT that asked | - | 14 R410 R413 | none -/
  spots : List (Nat × Nat × Option Req) := []
  /-- Manifests held without DIMMs in the control buffers, oldest first: RUN_ID, bytes, exported | 64 | 14 R414 | none -/
  held : List (Nat × Bytes × Bool) := []
  /-- HASH entries under way, oldest first: request, digest destination, source bytes | 4 | 14 R409 R413 | none -/
  hashes : List (Req × Nat × Bytes) := []
  deriving DecidableEq, Repr

/-- Reasons a step stops with a fault. -/
inductive Fault where
  /-- Raised by the idle tick when Plinth time (48 bits) or the Pointing count (64 bits) would pass its largest value:
  the manual says that neither wraps within product life (R12, R501) and gives no meaning to one that did. Safe. -/
  | productLifeEnded
  deriving DecidableEq, Repr

/-- Reasons a command has no meaning. -/
inductive Refusal where
  /-- Raised by an arm of exec whose meaning is not written yet. Safe. -/
  | notModelled (mnemonic : String)
  deriving DecidableEq, Repr

/-- The controller. -/
structure State where
  /-- Commands that wait, first in first out | - | the model's own (the block's queue of commands) | empty -/
  pending : List Instr := []
  /-- Number of the next free value | - | the model's own (log 4) | DESIGN CHOICE 0 (log 4) -/
  fresh : Nat := 0
  /-- Plinth time [1/32768 s] | 48 | 00 R12 | DESIGN CHOICE 0 (log 10) -/
  plinth : Nat := 0
  pwr : Power := {}
  rst : ResetCtl := {}
  led : Ledger := {}
  ob : OptBytes := {}
  pins : Pins := {}
  maq : Maq := {}
  boot : Boot := {}
  /-- DEBUG_STATE: 0 closed, 1 open, 2 open read-only | 2 | 04 R128 R142, 18 R508 | 0 -/
  debug : Nat := 0
  seq : Seq := {}
  svy : Survey := {}
  rcnt : RailCnts := {}
  log : Log := {}
  snap : Snap := {}
  mem : MemCtl := {}
  cap : Capping := {}
  rel : Relief := {}
  met : Meter := {}
  pat : Patina := {}
  pnt : Pointing := {}
  haz : Hazards := {}
  cool : Cooling := {}
  chi : Tbl ChiselSite := []
  /-- Chisel checkpoints in the controller region of module DRAM, by site | 8 x 27648 | 08 R266, 15 R419 | none -/
  ckpt : Tbl Bytes := []
  cal : Caliper := {}
  jrn : Journal := {}
  /-- Gauge model images in module DRAM, by slot | 8 x 4 MB | 13 R391 | none -/
  gimg : Tbl Bytes := []
  /-- CAL_SELFTEST_TIME | 48 | 13 R371, 18 R516 | DESIGN CHOICE 0 (log 10) -/
  selfTest : Nat := 0
  ques : Tbl Queue := []
  mov : Mover := {}
  ebx : Ebbex := {}
  evt : Events := {}
  mgt : Mgmt := {}
  pair : Pair := {}
  /-- Access state by 16 x path + block | - | 18 R494 | - -/
  acc : Tbl PathBlock := []
  /-- Flash device 0, erased where unlisted | 256 MB | 04 R109 | DESIGN CHOICE erased (log 11) -/
  flash0 : Memory := []
  /-- Flash device 1, erased where unlisted | 256 MB | 04 R109 | DESIGN CHOICE erased (log 11) -/
  flash1 : Memory := []
  /-- Module DRAM, 0 where unlisted | 1 TB | 15 R418 R428 | 0 (fill, R428) -/
  dram : Memory := []
  /-- What the controller gave to its surroundings, newest first | - | the model's own (log 5) | empty -/
  out : List Out := []
  deriving DecidableEq, Repr

/-- The machine before the standby domain is first powered. -/
def State.reset : State := {}

end Sys2Proof.Machine
end

