-- ==== Sys2Proof/Machine/Operands.lean ====
section
/-!
DEFINITION. Machine/Operands.lean: the operand forms. Fields of records, entries, images and headers by offset and size
(R15), their ranges and defaults (R146), signed values, rounding and clamping (R12, R14), and the cyclic checks.
-/
namespace Sys2Proof.Machine

/-- `n` bytes of `b` from offset `o`. -/
def slice (b : Bytes) (o n : Nat) : Bytes := (b.drop o).take n

/-- The unsigned little-endian field of `n` bytes at offset `o`; bytes beyond the end count as 0 (R15). -/
def le (b : Bytes) (o n : Nat) : Nat := leNat (slice b o n)

def u8 (b : Bytes) (o : Nat) : Nat := le b o 1
def u16 (b : Bytes) (o : Nat) : Nat := le b o 2
def u32 (b : Bytes) (o : Nat) : Nat := le b o 4
def u64 (b : Bytes) (o : Nat) : Nat := le b o 8

/-- Two's complement of a `w`-bit value. -/
def toInt (w v : Nat) : Int := if v % 2 ^ w < 2 ^ (w - 1) then (v % 2 ^ w : Nat) else (v % 2 ^ w : Nat) - (2 ^ w : Nat)

/-- The `w`-bit two's complement code of an integer. -/
def ofInt (w : Nat) (v : Int) : Nat := (v % (2 ^ w : Nat)).toNat

/-- The signed little-endian field of `n` bytes at offset `o`. -/
def sle (b : Bytes) (o n : Nat) : Int := toInt (8 * n) (le b o n)

/-- Bytes `o` to `o + n - 1` are all 0. -/
def zeroAt (b : Bytes) (o n : Nat) : Bool := (slice b o n).all (· == 0)

/-- The digest field of 48 bytes at offset `o`. -/
def digestAt (b : Bytes) (o : Nat) : Digest := BitVec.ofNat 384 (le b o 48)

/-- The 48 bytes of a digest. -/
def digestBytes (d : Digest) : Bytes := leBytes 48 d.toNat

/-- `b` with the bytes `v` in place from offset `o` (`b` extended by zeros if it is shorter). -/
def patch (b : Bytes) (o : Nat) (v : Bytes) : Bytes :=
  b.take o ++ List.replicate (o - b.length) 0 ++ v ++ b.drop (o + v.length)

/-- The bytes 0, `n` of them. -/
def zeros (n : Nat) : Bytes := List.replicate n 0

def clampN (lo hi v : Nat) : Nat := max lo (min hi v)
def clampI (lo hi v : Int) : Int := max lo (min hi v)

/-- A measured value in a signed 32-bit encoding: beyond the range it reads as the largest or smallest code (R14). -/
def sat32 (v : Int) : Int := clampI (-2147483648) 2147483647 v

/-- A signed 16-bit value, saturating (R14). -/
def sat16 (v : Int) : Int := clampI (-32768) 32767 v

/-- `n / d` rounded to nearest, ties away from zero (R177, R539). -/
def roundDiv (n : Int) (d : Nat) : Int :=
  if 0 ≤ n then ((2 * n.natAbs + d) / (2 * d) : Nat) else -((2 * n.natAbs + d) / (2 * d) : Nat)

/-- A field of a Maquette section or of another structure: offset, size, signedness, inclusive range, and the default
that a 0 takes, where the manual gives one (R146). -/
structure Fld where
  off : Nat
  size : Nat
  lo : Int
  hi : Int
  dflt : Option Int := none
  signed : Bool := false

/-- The field as it stands. -/
def Fld.raw (f : Fld) (b : Bytes) : Int := if f.signed then sle b f.off f.size else (le b f.off f.size : Nat)

/-- The field's value: its default where it holds 0 and has one (R146). -/
def Fld.val (f : Fld) (b : Bytes) : Int :=
  match f.dflt with
  | some d => if f.raw b = 0 then d else f.raw b
  | none => f.raw b

/-- The field's value as a natural number. -/
def Fld.nat (f : Fld) (b : Bytes) : Nat := (f.val b).toNat

/-- The field lies in its range. -/
def Fld.ok (f : Fld) (b : Bytes) : Bool := decide (f.lo ≤ f.val b) && decide (f.val b ≤ f.hi)

/-- One step of CRC-32C over a bit (reflected form). -/
def crc32cBit (r : BitVec 32) : BitVec 32 := if r.getLsbD 0 then (r >>> 1) ^^^ 0x82F63B78 else r >>> 1

def crc32cByte (r : BitVec 32) (b : Byte) : BitVec 32 :=
  (List.range 8).foldl (fun r _ => crc32cBit r) (r ^^^ b.zeroExtend 32)

/-- CRC-32C (Castagnoli) of bytes. The manual names it and gives no polynomial: PRESUMED, log 6. -/
def crc32c (b : Bytes) : Nat := ((b.foldl crc32cByte 0xFFFFFFFF) ^^^ 0xFFFFFFFF).toNat

/-- One bit of the cyclic check of R425. -/
def crc64Bit (p : BitVec 64) (r : BitVec 64) (m : Bool) : BitVec 64 :=
  if r.getLsbD 63 ^^ m then (r <<< 1) ^^^ p else r <<< 1

/-- The cyclic check of R425 over a message, most significant bit of each byte first. -/
def crc64 (p : BitVec 64) (m : Bytes) : BitVec 64 :=
  m.foldl (fun r b => [7, 6, 5, 4, 3, 2, 1, 0].foldl (fun r i => crc64Bit p r (b.getLsbD i)) r) 0xFFFFFFFFFFFFFFFF

/-- The 72-byte message of a block: TAG (channel number and channel-local address), then the data (R425). -/
def blockMsg (ch addr : Nat) (data : Bytes) : Bytes := leBytes 8 (addr % 2 ^ 38 + ch % 4 * 2 ^ 38) ++ data

/-- CHK of a block: CHK_A in the low half, CHK_B in the high half (R425, R426). -/
def blockChk (ch addr : Nat) (data : Bytes) : BitVec 128 :=
  crc64 0xAD93D23594C935A9 (blockMsg ch addr data) ++ crc64 0x42F0E1EBA9EA3693 (blockMsg ch addr data)

/-- The bytes of a UTF-8-free ASCII text, for MAGIC fields. -/
def ascii (s : String) : Bytes := s.toList.map fun c => BitVec.ofNat 8 c.toNat

end Sys2Proof.Machine
end

