-- ==== Sys2Proof/Machine/Flags.lean ====
section
/-!
DEFINITION. Machine/Flags.lean: the flag and counter computations that every block shares: saturating counters with
their CNT_SAT bit (R182, R502, R504), W1C and W1S writes (R16), single-bit updates, and the sparse tables' reads and
writes.
-/
namespace Sys2Proof.Machine

/-- Entry `k` of a table, or the default. -/
def Tbl.get {α : Type} (d : α) (t : Tbl α) (k : Nat) : α :=
  match t with
  | [] => d
  | (j, v) :: r => if j = k then v else Tbl.get d r k

/-- Entry `k` of a table, if it is listed. -/
def Tbl.find? {α : Type} (t : Tbl α) (k : Nat) : Option α :=
  match t with
  | [] => none
  | (j, v) :: r => if j = k then some v else Tbl.find? r k

/-- The table with entry `k` set to `v`. -/
def Tbl.set {α : Type} (t : Tbl α) (k : Nat) (v : α) : Tbl α :=
  match t with
  | [] => [(k, v)]
  | (j, w) :: r => if j = k then (k, v) :: r else (j, w) :: Tbl.set r k v

/-- The table without entry `k`. -/
def Tbl.del {α : Type} (t : Tbl α) (k : Nat) : Tbl α := t.filter fun e => e.1 != k

/-- The counter's increment (R182): it stays at its largest value, and the increment that would pass it sets the
saturation bit. The flag is whether this increment set the bit, which raises one event. -/
def Cnt.inc (c : Cnt) : Cnt × Bool :=
  if c.val = BitVec.allOnes 32 then ({ c with sat := true }, !c.sat) else ({ c with val := c.val + 1 }, false)

/-- `n` increments at once, with the flag of `Cnt.inc`. -/
def Cnt.add (c : Cnt) (n : Nat) : Cnt × Bool :=
  if c.val.toNat + n < 2 ^ 32 then ({ c with val := BitVec.ofNat 32 (c.val.toNat + n) }, false)
  else ({ val := BitVec.allOnes 32, sat := true }, !c.sat)

/-- W1C (R16): the bits written 1 are cleared. -/
def w1c {n : Nat} (old written : BitVec n) : BitVec n := old &&& ~~~written

/-- W1S (R16): the bits written 1 are set. -/
def w1s {n : Nat} (old written : BitVec n) : BitVec n := old ||| written

/-- `b` with bit `i` set to `v`. -/
def setBit {n : Nat} (b : BitVec n) (i : Nat) (v : Bool) : BitVec n :=
  if v then b ||| BitVec.twoPow n i else b &&& ~~~(BitVec.twoPow n i)

/-- The bits of a mask, as numbers below `n`. -/
def bitsOf (n m : Nat) : List Nat := (List.range n).filter fun i => m.testBit i

/-- The mask with the bits of a list of numbers. -/
def maskOf (l : List Nat) : Nat := l.foldl (fun m i => m ||| 2 ^ i) 0

/-- Bit `i` of a mask set. -/
def bitAt (b : Bool) (i : Nat) : Nat := if b then 2 ^ i else 0

/-- A list with an element put in before the first that it precedes. -/
def insertBy {α : Type} (le : α → α → Bool) (a : α) : List α → List α
  | [] => [a]
  | b :: r => if le a b then a :: b :: r else b :: insertBy le a r

/-- A list in rising order. -/
def sortBy {α : Type} (le : α → α → Bool) : List α → List α
  | [] => []
  | a :: r => insertBy le a (sortBy le r)

end Sys2Proof.Machine
end

