-- ==== Sys2Proof/Machine/Arith.lean ====
section
/-!
DEFINITION. Machine/Arith.lean: the arithmetic contract: formats, terms, the Krovven accumulator, rounding once, packets,
EXP2 and RSQRT (chapter 12).
-/
namespace Sys2Proof.Machine

/-! ## Formats (R347 to R350) -/

/-- A float format: code, exponent bits, fraction bits, bias, and its encoding of the largest finite value. -/
structure FloatFmt where
  ebits : Nat
  fbits : Nat
  bias : Nat
  /-- 0: IEEE infinities and NaN. 1: E4M3, NaN only. 2: MX, neither. -/
  special : Nat
  largest : Nat
  deriving DecidableEq, Repr

/-- The float formats by code (R347). -/
def floatFmt : Nat → Option FloatFmt
  | 1 => some ⟨8, 23, 127, 0, 0x7F7FFFFF⟩
  | 2 => some ⟨5, 10, 15, 0, 0x7BFF⟩
  | 3 => some ⟨8, 7, 127, 0, 0x7F7F⟩
  | 4 => some ⟨4, 3, 7, 1, 0x7E⟩
  | 5 => some ⟨5, 2, 15, 0, 0x7B⟩
  | 6 => some ⟨2, 3, 1, 2, 0x1F⟩
  | 7 => some ⟨3, 2, 3, 2, 0x1F⟩
  | 8 => some ⟨2, 1, 1, 2, 0x7⟩
  | _ => none

/-- EMIN of a format: 1 - bias. -/
def FloatFmt.emin (f : FloatFmt) : Int := 1 - f.bias

/-- Element width in bits by format code; a KROVVEN element is an 88-byte slot (R347, R364). -/
def fmtWidth : Nat → Nat
  | 1 => 32 | 2 => 16 | 3 => 16 | 4 => 8 | 5 => 8 | 6 => 6 | 7 => 6 | 8 => 4 | 9 => 8 | 10 => 4 | 11 => 32 | 15 => 704 | _ => 0

/-- The MX formats. -/
def isMx (f : Nat) : Bool := f == 6 || f == 7 || f == 8

/-- An input value: NaN, an infinity with its sign, or (-1)^neg x mant x 2^exp. -/
inductive Val where
  | nan
  | inf (neg : Bool)
  | fin (neg : Bool) (mant : Nat) (exp : Int)
  deriving DecidableEq, Repr

/-- A float code decoded at its exact value; no subnormal is flushed (R348). -/
def decodeFloat (f : FloatFmt) (c : Nat) : Val :=
  let neg := c.testBit (f.ebits + f.fbits)
  let e := c / 2 ^ f.fbits % 2 ^ f.ebits
  let m := c % 2 ^ f.fbits
  let top := decide (e = 2 ^ f.ebits - 1)
  if f.special = 0 ∧ top then (if m = 0 then .inf neg else .nan)
  else if f.special = 1 ∧ top ∧ m = 2 ^ f.fbits - 1 then .nan
  else if e = 0 then .fin neg m (f.emin - f.fbits)
  else .fin neg (2 ^ f.fbits + m) ((e : Int) - f.bias - f.fbits)

/-- An integer as a value. -/
def valOfInt (v : Int) : Val := .fin (decide (v < 0)) v.natAbs 0

/-- An element code of a format, with the E8M0 scale of its block for an MX format (R348, R349). -/
def decodeVal (fmt code scale : Nat) : Val :=
  match floatFmt fmt with
  | some f =>
    if isMx fmt then
      if scale = 0xFF then .nan
      else match decodeFloat f code with
        | .fin n m e => .fin n m (e + scale - 127)
        | v => v
    else decodeFloat f code
  | none => if fmt = 9 then valOfInt (toInt 8 code) else if fmt = 10 then valOfInt (toInt 4 code)
    else valOfInt (toInt 32 code)

/-- A product term (R352). -/
def Val.mul : Val → Val → Val
  | .nan, _ => .nan
  | _, .nan => .nan
  | .inf s, .inf t => .inf (s != t)
  | .inf s, .fin t m _ => if m = 0 then .nan else .inf (s != t)
  | .fin s m _, .inf t => if m = 0 then .nan else .inf (s != t)
  | .fin s m e, .fin t n f => .fin (s != t) (m * n) (e + f)

/-! ## The Krovven accumulator (R354 to R356) -/

/-- An accumulator: VALUE as the integer N of N x 2^-300, the five flags, and TERMS. -/
structure Acc where
  value : Int := 0
  nan : Bool := false
  pinf : Bool := false
  ninf : Bool := false
  seen : Bool := false
  nz : Bool := false
  terms : Nat := 0
  deriving DecidableEq, Repr

/-- A count that saturates at 0xFFFF_FFFF. -/
def satTerms (n : Nat) : Nat := min n 0xFFFFFFFF

/-- A special flag clears VALUE (R356). -/
def Acc.special (a : Acc) : Bool := a.nan || a.pinf || a.ninf
def Acc.clear (a : Acc) : Acc := if a.special then { a with value := 0 } else a

/-- The integer t x 2^300 of a finite term. -/
def scaled (neg : Bool) (m : Nat) (e : Int) : Int :=
  let n : Int := (m * 2 ^ (e + 300).toNat : Nat)
  if neg then -n else n

/-- One term folded exactly (R356). -/
def Acc.fold (a : Acc) (t : Val) : Acc :=
  let a := { a with terms := satTerms (a.terms + 1), seen := true }
  match t with
  | .nan => { a with nan := true }.clear
  | .inf neg => (if neg then { a with ninf := true } else { a with pinf := true }).clear
  | .fin neg m e => { a with nz := a.nz || !(neg && m == 0), value := a.value + scaled neg m e }.clear

/-- Two accumulators combined (R356). -/
def Acc.combine (a b : Acc) : Acc :=
  { value := a.value + b.value, nan := a.nan || b.nan, pinf := a.pinf || b.pinf, ninf := a.ninf || b.ninf
    seen := a.seen || b.seen, nz := a.nz || b.nz, terms := satTerms (a.terms + b.terms) : Acc }.clear

/-! ## Rounding once (R357 to R360) -/

/-- Exception flags of an element (R359): bits INVALID 0, DIVZERO 1, OVERFLOW 2, UNDERFLOW 3, INEXACT 4. -/
abbrev ExcFlags := Nat

/-- Position of the highest bit set of a positive number. -/
def msb (n : Nat) : Nat := n.log2

/-- The quotient of a division by 2^g rounded to nearest, ties to even, and whether it was exact (R358). -/
def roundShift (m g : Nat) : Nat × Bool :=
  let q := m / 2 ^ g
  let r := m % 2 ^ g
  (if 2 ^ g < 2 * r ∨ (2 * r = 2 ^ g ∧ q % 2 = 1) then q + 1 else q, decide (r = 0))

/-- NaN and infinities of an output format (R357). -/
def outNan : Nat → Nat
  | 1 => 0x7FC00000 | 2 => 0x7E00 | 3 => 0x7FC0 | 5 => 0x7E | 4 => 0x7F | _ => 0

def outInf (f : Nat) (neg : Bool) : Nat :=
  match f with
  | 1 => if neg then 0xFF800000 else 0x7F800000
  | 2 => if neg then 0xFC00 else 0x7C00
  | 3 => if neg then 0xFF80 else 0x7F80
  | 5 => if neg then 0xFC else 0x7C
  | 4 => 0x7F
  | 9 => if neg then 0x80 else 0x7F
  | 10 => if neg then 0x8 else 0x7
  | _ => if neg then 0x80000000 else 0x7FFFFFFF

/-- Largest magnitudes of an integer format. -/
def intTop : Nat → Nat
  | 9 => 127 | 10 => 7 | _ => 2 ^ 31 - 1

/-- round(N) of R358 to a float format, of the value N x 2^-(300 + e0): code and flags. Beyond the largest: infinity, or
the largest for E4M3 and the MX formats. -/
def roundFloat (fmt : Nat) (f : FloatFmt) (n : Int) (e0 : Int) : Nat × ExcFlags :=
  let m := n.natAbs
  let s := decide (n < 0)
  let e : Int := (msb m : Int) - 300 - e0
  let q : Int := max e f.emin - f.fbits
  let r := roundShift m (q + 300 + e0).toNat
  let bits := (q - (f.emin - f.fbits)).toNat * 2 ^ f.fbits + r.1
  let sign := if s then 2 ^ (f.ebits + f.fbits) else 0
  if f.largest < bits then
    (if f.special = 0 then outInf fmt s else f.largest + sign, 2 ^ 2 + 2 ^ 4)
  else
    (bits + sign, (if r.2 then 0 else 2 ^ 4) + if decide (e < f.emin) && !r.2 then 2 ^ 3 else 0)

/-- round(N) of R358 to an integer format. -/
def roundInt (fmt : Nat) (n : Int) : Nat × ExcFlags :=
  let r := roundShift n.natAbs 300
  let s := decide (n < 0)
  if intTop fmt + (if s then 1 else 0) < r.1 then (outInf fmt s, 1)
  else (ofInt (fmtWidth fmt) (if s then -(r.1 : Int) else r.1), if r.2 then 0 else 2 ^ 4)

/-- The result element of an accumulator in a float or integer format other than MX: the first case of R357 that applies,
with its flags. -/
def Acc.result (a : Acc) (fmt : Nat) : Nat × ExcFlags :=
  match floatFmt fmt with
  | some f =>
    if a.nan || (a.pinf && a.ninf) then (outNan fmt, 1)
    else if a.pinf then (outInf fmt false, if fmt = 4 then 1 else 0)
    else if a.ninf then (outInf fmt true, if fmt = 4 then 1 else 0)
    else if a.value ≠ 0 then roundFloat fmt f a.value 0
    else (if a.seen && !a.nz then 2 ^ (f.ebits + f.fbits) else 0, 0)
  | none =>
    if a.nan || (a.pinf && a.ninf) then (0, 1)
    else if a.pinf then (outInf fmt false, 1)
    else if a.ninf then (outInf fmt true, 1)
    else if a.value ≠ 0 then roundInt fmt a.value
    else (0, 0)

/-- EMAX of an MX format (R360). -/
def mxEmax : Nat → Int
  | 7 => 4 | _ => 2

/-- CONVERT of one block to an MX format: the scale, the codes and the flags (R360). -/
def mxBlock (fmt : Nat) (l : List Acc) : Nat × List Nat × ExcFlags :=
  match floatFmt fmt with
  | none => (0, [], 0)
  | some f =>
    let sign := 2 ^ (f.ebits + f.fbits)
    if l.any Acc.special then (0xFF, l.map fun _ => 0, 1)
    else
      let top := (l.map fun a => a.value.natAbs).foldl max 0
      if top = 0 then (0, l.map fun a => if a.seen && !a.nz then sign else 0, 0)
      else
        let e := clampI (-127) 127 ((msb top : Int) - 300 - mxEmax fmt)
        let r := l.map fun a =>
          if a.value = 0 then (if a.seen && !a.nz then sign else 0, 0) else roundFloat fmt f a.value e
        ((e + 127).toNat, r.map Prod.fst, (r.map Prod.snd).foldl (· ||| ·) 0)

/-! ## Packets (R361 to R363) -/

/-- FLAGS byte of a packet. -/
def Acc.flagByte (a : Acc) : Nat := bitAt a.nan 0 + bitAt a.pinf 1 + bitAt a.ninf 2 + bitAt a.seen 3 + bitAt a.nz 4

/-- Word i of VALUE in two's complement. -/
def Acc.word (a : Acc) (i : Nat) : Nat := ofInt 640 a.value / 2 ^ (64 * i) % 2 ^ 64

/-- BASE and W of the packet of a state (R362). -/
def Acc.shape (a : Acc) : Nat × Nat :=
  if a.special || a.value == 0 then (0, 5)
  else
    let lo := ((List.range 10).find? fun i => decide (a.word i ≠ 0)).getD 0
    let ext (h : Nat) : Nat := if 2 ^ 63 ≤ a.word h then 2 ^ 64 - 1 else 0
    let hi := ((List.range 10).find? fun h => (List.range 10).all fun i => decide (i ≤ h) || a.word i == ext h).getD 9
    if lo + 5 ≤ hi + 1 then (lo, hi + 1 - lo) else (min lo 5, 5)

/-- The packet of an accumulator (R361, R362). -/
def Acc.packet (a : Acc) : Bytes :=
  let p := a.shape
  leBytes 1 0x4B ++ leBytes 1 (16 * p.1 + p.2) ++ leBytes 1 a.flagByte ++ [0] ++ leBytes 4 a.terms ++
    (List.range p.2).flatMap fun i => leBytes 8 (if a.special then 0 else a.word (p.1 + i))

/-- The state that a packet decodes to (R361). -/
def packetAcc (b : Bytes) : Acc :=
  let base := u8 b 1 / 16
  let w := u8 b 1 % 16
  let v : Int := toInt (64 * w) (le b 8 (8 * w)) * (2 ^ (64 * base) : Nat)
  let f := u8 b 2
  { value := v, nan := f.testBit 0, pinf := f.testBit 1, ninf := f.testBit 2, seen := f.testBit 3, nz := f.testBit 4
    terms := u32 b 4 }

/-- A packet is accepted (R363). -/
def packetOk (b : Bytes) : Bool :=
  let base := u8 b 1 / 16
  let w := u8 b 1 % 16
  let a := packetAcc b
  let m := a.value.natAbs
  u8 b 0 == 0x4B && decide (5 ≤ w) && decide (w ≤ 10) && decide (base + w ≤ 10) && decide (u8 b 2 < 32) && u8 b 3 == 0 &&
    decide (b.take (8 + 8 * w) = a.packet) && (m == 0 || decide (0 < a.terms)) &&
    (a.terms == 0xFFFFFFFF || m == 0 || decide (m < a.terms * 2 ^ 564)) && decide (m < 2 ^ 629)

/-- A result element in an 88-byte slot (R364). -/
def Acc.slot (a : Acc) : Nat := leNat a.packet

/-! ## EXP2 and RSQRT (R365) -/

/-- The integer square root, bit by bit from the highest. -/
def sqrtBits (n : Nat) : Nat → Nat → Nat
  | 0, r => r
  | k + 1, r => if (r + 2 ^ k) * (r + 2 ^ k) ≤ n then sqrtBits n k (r + 2 ^ k) else sqrtBits n k r
def floorSqrt (n : Nat) : Nat := sqrtBits n (n.log2 / 2 + 1) 0

/-- The greatest y below 2^31 with y <= 2^(30 + a / 2^d), bit by bit: y^(2^d) <= 2^(30 x 2^d + a). -/
def exp2Bits (a d : Nat) : Nat → Nat → Nat
  | 0, r => r
  | k + 1, r => if (r + 2 ^ k) ^ 2 ^ d ≤ 2 ^ (30 * 2 ^ d + a) then exp2Bits a d k (r + 2 ^ k) else exp2Bits a d k r

/-- Bounds of 2^(a / 2^d) in units of 2^-128, from the lowest of the d bits of a upwards: 2^0.b... = sqrt(2^b x the rest). -/
def exp2Bounds (a : Nat) : Nat → Nat → Nat × Nat → Nat × Nat
  | 0, _, z => z
  | k + 1, i, z =>
    let m := if a.testBit i then 2 ^ 129 else 2 ^ 128
    exp2Bounds a k (i + 1) (floorSqrt (z.1 * m), floorSqrt (z.2 * m) + 1)

/-- floor(2^(30 + a / 2^d)), 0 <= a < 2^d: from the bounds where they agree on it, else bit by bit. -/
def exp2Floor (a d : Nat) : Nat :=
  let z := exp2Bounds a d 0 (2 ^ 128, 2 ^ 128)
  if z.1 / 2 ^ 98 = min (z.2 / 2 ^ 98) (2 ^ 31 - 1) then z.1 / 2 ^ 98 else exp2Bits a d 31 0

/-- a / 2^d in lowest terms. -/
def lowest (a : Nat) : Nat → Nat × Nat
  | 0 => (a, 0)
  | d + 1 => if a % 2 = 0 then lowest (a / 2) d else (a, d + 1)

/-- 2^x as an integer of 2^-300 whose rounding by R358 is that of the exact value: x = v / 2^d. -/
def exp2N (v : Int) (d : Nat) : Int :=
  let i : Int := v / (2 ^ d : Nat)
  let p := lowest (v - i * (2 ^ d : Nat)).toNat d
  if 256 ≤ i then (2 : Int) ^ 556
  else if i < -256 then 1
  else
    let y := exp2Floor p.1 p.2
    let n := 2 * y + if p.1 = 0 then 0 else 1
    (n * 2 ^ (i + 269).toNat : Nat)

def exp2Val (fmt : Nat) (x : Val) : Nat × ExcFlags :=
  match x, floatFmt fmt with
  | .nan, _ => (outNan fmt, 1)
  | .inf neg, _ => (if neg then 0 else outInf fmt false, 0)
  | .fin neg m e, some f =>
    let n : Int := if neg then -(m : Int) else m
    if m = 0 then roundFloat fmt f (2 ^ 300) 0
    else if 0 ≤ e then roundFloat fmt f (exp2N (n * (2 ^ e.toNat : Nat)) 0) 0
    else roundFloat fmt f (exp2N n (-e).toNat) 0
  | _, none => (0, 0)

def rsqrtVal (fmt : Nat) (x : Val) : Nat × ExcFlags :=
  match x, floatFmt fmt with
  | .nan, _ => (outNan fmt, 1)
  | .inf neg, _ => if neg then (outNan fmt, 1) else (0, 0)
  | .fin neg m e, some f =>
    if m = 0 then (outInf fmt neg, 2)
    else if neg then (outNan fmt, 1)
    else
      -- floor(2^299 / sqrt(m 2^e)), with a sticky bit below: the value is this times 2^-300.
      let num : Nat := 2 ^ (598 - min e 0).toNat
      let den : Nat := m * 2 ^ (max e 0).toNat
      let y := floorSqrt (num / den)
      let exact := decide (y * y * den = num)
      roundFloat fmt f ((2 * y + (if exact then 0 else 1) : Nat) : Int) 0
  | _, none => (0, 0)

end Sys2Proof.Machine
end

