-- ==== Sys2Proof/Machine/Mem.lean ====
section
/-!
DEFINITION. Machine/Mem.lean: byte memories in canonical form, and where an address of the module leads (R109, R418,
R455).
-/
namespace Sys2Proof.Machine

/-- The byte at an address; `d` is what an unlisted address reads as. -/
def Memory.get (d : Byte) (m : Memory) (a : Nat) : Byte :=
  match m with
  | [] => d
  | (k, v) :: r => if k = a then v else Memory.get d r a

/-- The memory with one byte written, canonical form kept: writing `d` removes the entry. -/
def Memory.put (d : Byte) (m : Memory) (a : Nat) (b : Byte) : Memory :=
  match m with
  | [] => if b = d then [] else [(a, b)]
  | (k, v) :: r =>
    if a < k then (if b = d then (k, v) :: r else (a, b) :: (k, v) :: r)
    else if k = a then (if b = d then r else (a, b) :: r)
    else (k, v) :: Memory.put d r a b

/-- Bytes written from an address upward. -/
def Memory.putAll (d : Byte) (m : Memory) (a : Nat) (bs : Bytes) : Memory :=
  match bs with
  | [] => m
  | b :: r => Memory.putAll d (Memory.put d m a b) (a + 1) r

/-- `n` bytes read from an address upward. -/
def Memory.getAll (d : Byte) (m : Memory) (a n : Nat) : Bytes :=
  (List.range n).map fun i => Memory.get d m (a + i)

/-- The bytes of a range erased, that is set back to `d`. -/
def Memory.clear (m : Memory) (a n : Nat) : Memory := m.filter fun c => c.1 < a || a + n ≤ c.1

/-- The canonical form: addresses strictly rising, and no entry equal to what an unlisted address reads as. -/
def Memory.wf (d : Byte) : Memory → Bool
  | [] => true
  | [(_, v)] => v != d
  | (a, v) :: (b, w) :: r => v != d && decide (a < b) && Memory.wf d ((b, w) :: r)

/-- An erased flash byte. -/
def erased : Byte := 0xFF

/-- Flash device 0 or 1. -/
def State.flash (s : State) (dev : Nat) : Memory := if dev = 0 then s.flash0 else s.flash1

def State.setFlash (s : State) (dev : Nat) (m : Memory) : State :=
  if dev = 0 then { s with flash0 := m } else { s with flash1 := m }

/-- Bytes of a flash device. -/
def State.fread (s : State) (dev off n : Nat) : Bytes := Memory.getAll erased (s.flash dev) off n

/-- Bytes programmed into a flash device, whose sectors were erased before. -/
def State.fwrite (s : State) (dev off : Nat) (bs : Bytes) : State :=
  s.setFlash dev (Memory.putAll erased (s.flash dev) off bs)

/-- A flash range erased. -/
def State.ferase (s : State) (dev off n : Nat) : State := s.setFlash dev (Memory.clear (s.flash dev) off n)

/-- A flash range erased and programmed. -/
def State.fstore (s : State) (dev off n : Nat) (bs : Bytes) : State := (s.ferase dev off n).fwrite dev off bs

/-- Both devices programmed alike. -/
def State.fwriteBoth (s : State) (off : Nat) (bs : Bytes) : State := (s.fwrite 0 off bs).fwrite 1 off bs

/-- A DDR5 channel. -/
def State.ch (s : State) (n : Nat) : MemCh := Tbl.get {} s.mem.chs n

def State.setCh (s : State) (n : Nat) (c : MemCh) : State := { s with mem := { s.mem with chs := Tbl.set s.mem.chs n c } }

/-- Offset of channel `n` in the module DRAM window (R418): 256 GB each. -/
def chSize : Nat := 0x4000000000

/-- A DRAM range touches a channel's controller region or training area, the last 8 GB, or its training area, the last 1 MB (R419). -/
def State.reserved (s : State) (off n : Nat) : Bool :=
  let c := s.ch (off / chSize)
  decide (c.cap < off % chSize + n + 0x200000000) && decide (off % chSize < c.cap)
def State.training (s : State) (off n : Nat) : Bool :=
  let c := s.ch (off / chSize)
  decide (c.cap < off % chSize + n + 0x100000) && decide (off % chSize < c.cap)

/-- The first region not yet filled, past those filled out of turn (R428). -/
def MemCh.fillFront (c : MemCh) : Nat :=
  (((List.range (c.filled.length + 1)).map (c.front + ·)).find? fun r => !c.filled.contains r).getD c.front

/-- Some channel serves accesses; with none the controller runs without DIMMs (R435). -/
def State.hasDram (s : State) : Bool := (List.range 4).any fun k => (s.ch k).st == .inService || (s.ch k).st == .filling

/-- Where an address leads (R455). -/
inductive Window where
  | reg (off : Nat)
  | flash (dev off : Nat)
  | dram (off : Nat)
  | sink
  | remote (ep : Nat)
  | nowhere
  deriving DecidableEq, Repr

/-- The window of an Ebbex address. An address whose endpoint number is the controller's own is local (R455). -/
def State.window (s : State) (addr : Nat) : Window :=
  if addr / 2 ^ 52 != s.ebx.epId then .remote (addr / 2 ^ 52)
  else
    let a := addr % 2 ^ 52
    if a < 0x100000 then .reg a
    else if 0x8000000000 ≤ a ∧ a < 0x8010000000 then .flash 0 (a - 0x8000000000)
    else if 0x8010000000 ≤ a ∧ a < 0x8020000000 then .flash 1 (a - 0x8010000000)
    else if 0x10000000000 ≤ a ∧ a < 0x20000000000 then .dram (a - 0x10000000000)
    else if 0x20000000000 ≤ a ∧ a < 0x20000001000 then .sink
    else .nowhere

/-- The Ebbex address of a module DRAM offset. -/
def State.dramAddr (s : State) (off : Nat) : Nat := s.ebx.epId * 2 ^ 52 + 0x10000000000 + off

/-- What a DRAM access meets (R418, R422, R455). -/
inductive DramAcc where
  | ok | address | unavailable
  deriving DecidableEq, Repr

/-- Whether `n` bytes at a DRAM offset lie on a fitted channel that serves accesses. -/
def State.dramAcc (s : State) (off n : Nat) : DramAcc :=
  let c := s.ch (off / chSize)
  if off % chSize + n > chSize then .address
  else match c.st with
    | .filling | .inService => if off % chSize + n ≤ c.cap then .ok else .address
    | _ => .unavailable

/-- The blocks of a DRAM range that fail their checks. -/
def State.dramBad (s : State) (off n : Nat) : List Nat :=
  (s.ch (off / chSize)).bad.filter fun b => b * 64 < off % chSize + n && off % chSize < b * 64 + 64

/-- Bytes of module DRAM, where the range serves accesses and passes its checks (R426). -/
def State.dread (s : State) (off n : Nat) : Option Bytes :=
  if s.dramAcc off n = .ok ∧ s.dramBad off n = [] then some (Memory.getAll 0 s.dram off n) else none

/-- The memory controllers ask for the DRAM clock for an access, unless it is granted (R35). -/
def State.memAsk (s : State) : State := { s with mem := { s.mem with wake := s.mem.wake || !s.pwr.clkGrant.getLsbD 3 } }

/-- Bytes written to module DRAM. A write that touches part of a block in error is not carried out (R427); a write of a
whole block clears its error. -/
def State.dwrite (s : State) (off : Nat) (bs : Bytes) : State :=
  let c := s.ch (off / chSize)
  let o := off % chSize
  let partly := (s.dramBad off bs.length).any fun b => b * 64 < o || o + bs.length < b * 64 + 64
  if s.dramAcc off bs.length = .ok ∧ ¬ partly then
    let whole := c.bad.filter fun b => !(o ≤ b * 64 && b * 64 + 64 ≤ o + bs.length)
    let rs := (List.range (bs.length / 0x100000 + 2)).map fun i => o / 0x100000 + i
    let rs := rs.filter fun r => r * 0x100000 < o + bs.length && c.front ≤ r && !c.filled.contains r
    let c := if c.st = .filling then { c with bad := whole, filled := rs ++ c.filled } else { c with bad := whole }
    { (s.setCh (off / chSize) c).memAsk with dram := Memory.putAll 0 s.dram off bs }
  else s

/-- Bytes at an address that a local window serves for reading, other than registers. -/
def State.localRead (s : State) (addr n : Nat) : Option Bytes :=
  match s.window addr with
  | .flash dev off => if off + n ≤ 0x10000000 then some (s.fread dev off n) else none
  | .dram off => s.dread off n
  | _ => none

/-- Source bytes for an engine: from a local window, or as the surroundings returned them for a remote address. -/
def State.source (s : State) (addr n : Nat) (fetched : Option Bytes) : Option Bytes :=
  match s.window addr with
  | .remote _ => fetched.map fun b => (b ++ zeros n).take n
  | _ => s.localRead addr n

end Sys2Proof.Machine
end

