-- ==== Sys2Proof/Machine/Ops.lean ====
section
/-!
DEFINITION. Machine/Ops.lean: the named operations every meaning shares: reading and writing the tables of State, raising
an event, counting, queueing a fault record, rights and refusals, the sections of the live structure, completing a
request, and giving bytes to an address.
-/
namespace Sys2Proof.Machine

/-! ## Outcomes -/

/-- A command that the standby domain serves: without it powered there is nothing to act, and nothing changes (R29). -/
def State.standbyDo (s : State) (f : State → State) : Host.Outcome State Fault Refusal :=
  .next (if s.pwr.standby then f s else s)

/-- A command that the core domain serves (access gate, engines, firmware; R29). -/
def State.coreDo (s : State) (f : State → State) : Host.Outcome State Fault Refusal :=
  .next (if s.pwr.core then f s else s)

/-- A command that any Armature image serves, Plaster included: the Armature runs a released image (R101, R120, R135). -/
def State.fwDo (s : State) (f : State → State) : Host.Outcome State Fault Refusal :=
  .next (if s.pwr.core && s.pwr.armature && s.boot.run.isSome then f s else s)

/-- A command that Armature firmware serves and Plaster does not (R104, R135). -/
def State.armDo (s : State) (f : State → State) : Host.Outcome State Fault Refusal :=
  s.fwDo fun s => if s.boot.slot = 2 then s else f s

/-! ## Tables of State -/

/-- A rail before any event of it: the standby rails are enabled in hardware and stand GOOD (R159), every other is OFF. -/
def railStart (g : Nat) : Rail :=
  if (256 ≤ g ∧ g ≤ 261) ∨ g = 276 ∨ g = 279 then { st := .good, enable := true, pg := true, qualified := true, fresh := true }
  else {}

def State.rail (s : State) (g : Nat) : Rail := Tbl.get (railStart g) s.seq.rails g

/-- A rail that keeps the 4 MHz RC oscillator running: a site rail or a rail of the memory, fabric or Caliper domains that is
on, or any rail in a sequencer step (R30, R34). -/
def Rail.needsOsc (g : Nat) (r : Rail) : Bool :=
  (r.enable && (decide (g < 256) || g == 265 || (decide (268 ≤ g) && decide (g ≤ 275)))) || !(r.st == .off || r.st == .good)

/-- A rail's new state; the oscillator starts where it is needed (R34). -/
def State.setRail (s : State) (g : Nat) (r : Rail) : State :=
  { s with seq := { s.seq with rails := Tbl.set s.seq.rails g r }
           pwr := { s.pwr with rcOsc := s.pwr.rcOsc || r.needsOsc g } }
def State.site (s : State) (n : Nat) : Site := Tbl.get {} s.seq.sites n
def State.setSite (s : State) (n : Nat) (x : Site) : State :=
  { s with seq := { s.seq with sites := Tbl.set s.seq.sites n x } }
def State.chan (s : State) (c : Nat) : Chan := Tbl.get {} s.svy.chans c
def State.setChan (s : State) (c : Nat) (x : Chan) : State :=
  { s with svy := { s.svy with chans := Tbl.set s.svy.chans c x } }
def State.queue (s : State) (q : Nat) : Queue := Tbl.get {} s.ques q
def State.setQueue (s : State) (q : Nat) (x : Queue) : State := { s with ques := Tbl.set s.ques q x }
/-- A fast clock's request is raised: 0 Survey burst, 1 Armature, 2 Caliper, 3 DRAM (R35). -/
def State.askClock (s : State) (k : Nat) : State := { s with pwr := { s.pwr with clkReq := setBit s.pwr.clkReq k true } }
def State.emit (s : State) (o : Out) : State := { s with out := o :: s.out }

/-- Plinth ticks in `n` seconds. -/
def secs (n : Nat) : Nat := 32768 * n
/-- Plinth ticks in `n` milliseconds, rounded up. -/
def msecs (n : Nat) : Nat := (32768 * n + 999) / 1000

/-- At least `d` ticks have passed since `t`, or there is no `t`. -/
def State.since (s : State) (t : Option Nat) (d : Nat) : Bool := match t with
  | none => true
  | some t => decide (t + d ≤ s.plinth)

/-! ## Pointing time in records -/

/-- POINTING_VALID: always 1 in MANAGER, also while it waits for the first count it may step to (R330, R336). -/
def State.ptValid (s : State) : Bool := s.pnt.valid || s.pnt.st == .manager
/-- The Pointing count for a time stamp; 0 when not valid (R186). -/
def State.ptime (s : State) : Nat := if s.ptValid then s.pnt.count else 0

/-! ## Events (R466) -/

/-- One event of a block, which asks for the Armature clock (R35). A full ring coalesces it into EVT_COALESCED of the block (R466);
events never block their source. `cause` is the number of the rule that raises it. -/
def State.event (s : State) (blk cause inst data : Nat) : State :=
  if s.evt.ring.length < 4096 then
    { s with evt := { s.evt with ring := s.evt.ring ++ [⟨s.ptime, blk, cause, inst, data⟩], wake := true } }
  else
    { s with evt := { s.evt with coal := Tbl.set s.evt.coal blk (Tbl.get {} s.evt.coal blk).inc.1
                                 owed := setBit s.evt.owed blk true, wake := true } }

/-- A request on the management path asks for the Armature clock (R35). -/
def State.ingress (s : State) : State := { s with evt := { s.evt with wake := true } }

/-- A counter's increment: `put` stores the new counter, and a saturation raises one event of the block (R182, R502). -/
def State.bump (s : State) (blk inst : Nat) (c : Cnt) (put : Cnt → State → State) : State :=
  let s := put c.inc.1 s
  if c.inc.2 then s.event blk 502 inst 0 else s

/-! ## Fault records (R186 to R192) -/

/-- The 64 bytes of a fault record under a SEQ and an EPOCH (R186). -/
def FaultRec.encode (r : FaultRec) (seq : BitVec 32) (epoch : BitVec 8) : Bytes :=
  let b := leBytes 4 seq.toNat ++ leBytes 1 epoch.toNat ++ leBytes 1 r.typ ++ leBytes 2 r.source ++ leBytes 8 r.time ++
    leBytes 8 r.pcount ++ leBytes 1 r.pfrac ++
    leBytes 1 (bitAt r.pvalid 0 + bitAt r.holdup 1 + bitAt r.queued 2 + bitAt r.retired 3) ++
    leBytes 1 r.kind ++ leBytes 1 r.siteState ++ zeros 4 ++ (r.data ++ zeros 28).take 28
  b ++ leBytes 4 (crc32c b)

/-- Code of a site's state (R186). -/
def SiteSt.code : SiteSt → Nat
  | .absent => 0 | .settling => 1 | .identifying => 2 | .unmatched => 3 | .off => 4 | .seqUp => 5 | .running => 6
  | .degraded => 7 | .seqDown => 8 | .faulted => 9 | .unadopted => 10 | .retryWait => 11

/-- A fault record of a type and source, with the state of a site, or 0xFF for module sources. -/
def State.mkRec (s : State) (typ source kind : Nat) (site : Option Nat) (data : Bytes) : FaultRec :=
  ⟨typ, source, kind, (site.map fun n => (s.site n).st.code).getD 0xFF, s.plinth, s.ptime, s.pnt.frac, s.ptValid,
    s.snap.holdup, false, data, false⟩

/-- An EPOCH_MARK record (R187), with the times of a record made as its page starts. -/
def epochMark (now : FaultRec) (kind prev : Nat) : FaultRec :=
  { now with typ := 0x09, source := 0xFFFF, kind := kind, data := leBytes 1 prev }

/-- Up to `n` records of the queue with their SEQ given in order (R188): the bytes, the next SEQ and EPOCH, the mark
that the page after begins with, and how many records of the queue were used. PREV_EPOCH of the mark of a ring re-initialised in epoch 0
is 0xFF (DESIGN CHOICE, log 110: there is no previous epoch). -/
def fillPage (now : FaultRec) : Nat → List FaultRec → BitVec 32 → BitVec 8 → Nat → Bytes × BitVec 32 × BitVec 8 × Nat × Nat
  | 0, _, seq, ep, mark => ([], seq, ep, mark, 0)
  | n + 1, q, seq, ep, mark =>
    if mark ≠ 0 then
      let r := fillPage now n q (seq + 1) ep 0
      ((epochMark now mark (ep - 1).toNat).encode seq ep ++ r.1, r.2)
    else match q with
      | [] => ([], seq, ep, mark, 0)
      | x :: q =>
        let wrap := seq == 0xFFFFFFFF
        let r := fillPage now n q (seq + 1) (if wrap then ep + 1 else ep) (if wrap then 1 else 0)
        (x.encode seq ep ++ r.1, r.2.1, r.2.2.1, r.2.2.2.1, r.2.2.2.2 + 1)

/-- Slots of the ring (R189). -/
@[irreducible] def ringSlots : Nat := 261120
/-- Flash offset of a ring slot (R189). -/
def ringOff (slot : Nat) : Nat := 0x05010000 + 64 * slot

/-- A page program starts if the ring is ready, no freeze holds (R200), a device works, a sector is erased, none is in
flight, and records wait (R190). It never crosses a page of 256 bytes. -/
def State.startPage (s : State) : State :=
  if s.log.ready && !s.snap.holdup && s.log.page.isNone && decide (s.log.devFailed ≠ 3#2) &&
      (!s.log.queue.isEmpty || decide (s.log.mark ≠ 0)) && decide (0 < s.log.ahead) then
    let r := fillPage (s.mkRec 0x09 0xFFFF 0 none []) (4 - s.log.slot % 4) s.log.queue s.log.seq s.log.epoch s.log.mark
    { s with log := { s.log with page := some ⟨s.log.slot, r.1, r.2.2.2.2⟩, seq := r.2.1, epoch := r.2.2.1
                                 mark := r.2.2.2.1 } }
  else s

/-- A LOSS record for dropped records, once the queue has room (R191, R192). -/
def State.lossRec (s : State) : State :=
  match s.log.gap with
  | (n, t0, t1, k) :: rest =>
    if s.log.queue.length < 128 then
      let r := s.mkRec 0x08 0xFFFF k none (leBytes 4 n ++ leBytes 8 t0 ++ leBytes 8 t1)
      { s with log := { s.log with queue := s.log.queue ++ [r], gap := rest } }
    else s
  | [] => s

/-- LOSS records for every kind of loss not yet covered, as the queue has room. -/
def State.flushGap (s : State) : State := s.log.gap.foldl (fun (s : State) _ => s.lossRec) s

/-- One more dropped record, of the kind that stands now: with both devices failed 2, else 1 (R191, R192). -/
def Log.drop (g : Log) (now : Nat) : Log :=
  let k := if g.devFailed = 3#2 then 2 else 1
  { g with gap := match g.gap.reverse with
    | (n, t0, _, j) :: r => if j = k then (((n + 1, t0, now, j) :: r).reverse) else g.gap ++ [(1, now, now, k)]
    | [] => [(1, now, now, k)] }

/-- A record is queued in retention RAM; with the queue full it is dropped and counted in LOG_LOST (R191). -/
def State.pushRec (s : State) (r : FaultRec) : State :=
  let s := s.flushGap
  if s.log.queue.length < 128 then
    { s with log := { s.log with queue := s.log.queue ++ [r] } }.startPage
  else
    let s := { s with log := s.log.drop s.plinth }
    s.bump 15 0 s.log.lost fun c s => { s with log := { s.log with lost := c } }

/-- A fault record written by a mechanism (R186). -/
def State.record (s : State) (typ source kind : Nat) (site : Option Nat) (data : Bytes) : State :=
  s.pushRec (s.mkRec typ source kind site data)

/-! ## Principals, rights and locks (R468 to R471, R17) -/

/-- The rights of R468, by bit. -/
inductive Right where
  | read | budget | sitePower | cooling | hazard | struct | update | reset | launch | audit | journal | memory
  | counterClear | pair
  deriving DecidableEq, Repr

def Right.bit : Right → Nat
  | .read => 0 | .budget => 1 | .sitePower => 2 | .cooling => 3 | .hazard => 4 | .struct => 5 | .update => 6
  | .reset => 7 | .launch => 8 | .audit => 9 | .journal => 10 | .memory => 11 | .counterClear => 12 | .pair => 13

/-- Principal numbers of R469. -/
def armPrincipal : Nat := 0
def sitePrincipal : Nat := 0xFFFFFFFE
def servicePrincipal : Nat := 0xFFFFFFF1
def debugPrincipal : Nat := 0xFFFFFFF0
def unknownPrincipal : Nat := 0xFFFFFFFF

/-- The principal table copy of a device, valid by its header and TAG (R470). -/
def State.princCopy (s : State) (dev : Nat) : Option Bytes :=
  let b := s.fread dev 0x04920000 0x840
  if u32 b 0 = 0x544E5250 ∧ u16 b 4 = 1 ∧ digestAt b 0x810 = Config.deviceHmac (b.take 0x810) then some b else none

/-- The principal table in force: the valid copy of higher GENERATION (R470). -/
def State.princTable (s : State) : Bytes :=
  match s.princCopy 0, s.princCopy 1 with
  | some a, some b => if u32 a 8 < u32 b 8 then b else a
  | some a, none => a
  | none, some b => b
  | none, none => []

/-- Entry `n` of the principal table. -/
def princEntry (t : Bytes) (n : Nat) : Bytes := slice t (0x10 + 64 * n) 64

/-- The RIGHTS word of a principal (R469). The service port holds UPDATE under Plaster and in ROM service. -/
def State.rights (s : State) (prin : Nat) : Nat :=
  if prin = armPrincipal then 0x3FFF
  else if 1 ≤ prin ∧ prin ≤ 32 then
    let e := princEntry s.princTable (prin - 1)
    if u8 e 0 = 1 then u32 e 4 % 2 ^ 14 else 0
  else if prin = debugPrincipal then (if s.debug = 1 then 0x3FFF else if s.debug = 2 then 1 else 0)
  else if prin = servicePrincipal then (if s.boot.romService || s.boot.slot == 2 then 2 ^ 6 else 0)
  else 0

/-- Whether a principal holds a right. -/
def State.may (s : State) (prin : Nat) (x : Right) : Bool := (s.rights prin).testBit x.bit

/-- A lock violation, or a write refused for lack of its right (R17, R468): counted, with one event per path per 1 s. -/
def State.violation (s : State) (p : Path) (addr : Nat) : State :=
  let s := s.bump 15 0 s.evt.lockViol fun c s => { s with evt := { s.evt with lockViol := c } }
  if s.since (Tbl.find? s.evt.lastViol p.idx) (secs 1) then
    { s with evt := { s.evt with lastViol := Tbl.set s.evt.lastViol p.idx s.plinth } }.event 15 17 p.idx addr
  else s

/-- A MGMT_EVENT record of kind DENIED, at most once per principal per 1 s (R468, R491). -/
def State.deniedRec (s : State) (p : Path) (prin : Nat) : State :=
  if s.since (Tbl.find? s.mgt.lastDenied prin) (secs 1) then
    let src := match p with
      | .fabric => 8
      | .debug => 9
      | _ => 0
    { s with mgt := { s.mgt with lastDenied := Tbl.set s.mgt.lastDenied prin s.plinth } }.record 0x22 src 2 none
      (leBytes 4 prin ++ zeros 16 ++ leBytes 4 (u32 s.princTable 8))
  else s

/-- A register write whose right the principal lacks (R468). -/
def State.refuseWrite (s : State) (p : Path) (prin addr : Nat) : State := (s.violation p addr).deniedRec p prin

/-! ## The live structure (chapter 2) -/

/-- The section of an ID in a structure. -/
def Structure.sec (m : Structure) (id : Nat) : Option Sec := m.secs.find? fun x => x.id = id

/-- The bytes of a section of the live structure; none of them with no structure or no such section. -/
def State.sec (s : State) (id : Nat) : Bytes :=
  match s.maq.live with
  | some m => match m.sec id with
    | some x => x.body
    | none => []
  | none => []

/-- The live structure has a section. -/
def State.hasSec (s : State) (id : Nat) : Bool :=
  match s.maq.live with
  | some m => (m.sec id).isSome
  | none => false

def State.brace (s : State) : Bool := s.haz.brace

/-! ## Giving bytes to addresses, and completions (R443 to R446) -/

/-- The port that new traffic to an endpoint takes (R462). -/
def State.portFor (s : State) (ep : Nat) : Nat :=
  if s.ebx.up = 3#2 then ep % 2 else if s.ebx.up = 2#2 then 1 else 0

/-- A packet of the controller toward an address. -/
def State.mkPacket (s : State) (cls addr : Nat) (payload : Bytes) : Packet :=
  ⟨cls, 0, payload.length, s.ebx.epId, addr / 2 ^ 52, 0, 0, addr, payload⟩

/-- The payload of a write cut into packets of at most 256 bytes (R457). -/
def chunks (n : Nat) : Nat → Bytes → List Bytes
  | 0, _ => []
  | k + 1, b => if b = [] then [] else b.take n :: chunks n k (b.drop n)

/-- A request of the controller goes out on a port and waits for its response (R457). -/
def State.request (s : State) (port : Nat) (write : Bool) (addr len : Nat) (data : Bytes) (q : Option Nat) : State :=
  let tag := s.ebx.nextTag
  let p := { s.mkPacket (if write then 2 else 1) addr data with tag := tag.toNat, length := len }
  { s with out := Out.packet port p :: s.out
           ebx := { s.ebx with nextTag := tag + 1
                               reqs := s.ebx.reqs ++ [{ tag := tag.toNat, port := port, write := write, addr := addr
                                                        length := len, data := data, q := q }] } }

/-- WRITE_REQ packets of bytes for a remote endpoint on a port (R457). -/
def State.giveOn (s : State) (port addr : Nat) (bs : Bytes) : State :=
  (chunks 256 bs.length bs).zipIdx.foldl (fun s c => s.request port true (addr + 256 * c.2) c.1.length c.1 none) s

/-- Bytes given to an address: module DRAM is written; a remote endpoint gets WRITE_REQ packets on its port (R451,
R457); any other address takes nothing. -/
def State.give (s : State) (addr : Nat) (bs : Bytes) : State :=
  match s.window addr with
  | .dram off => s.dwrite off bs
  | .remote ep => s.giveOn (s.portFor ep) addr bs
  | _ => s

/-- Whether a write to an address is possible: a serving DRAM range outside the training area, where the memory controller alone writes,
or a remote endpoint (R419, R453, R455). -/
def State.canGive (s : State) (addr n : Nat) : Option Nat :=
  match s.window addr with
  | .dram off => match s.dramAcc off n with
    | .ok => if s.training off n then some 0x37 else none
    | .address => some 0x93
    | .unavailable => some 0x84
  | .remote _ => if s.ebx.up = 0#2 then some 0x94 else none
  | _ => some 0x93

/-- As `canGive`, for an engine that owns nothing in the controller region (R419). -/
def State.canExport (s : State) (addr n : Nat) : Option Nat :=
  match s.window addr with
  | .dram off => if s.dramAcc off n = .ok ∧ s.reserved off n then some 0x37 else s.canGive addr n
  | _ => s.canGive addr n

/-- A write turned away from a region that others own is counted as a lock violation (R17, R419). -/
def State.ownViolation (s : State) (r : Req) (addr code : Nat) : State :=
  if code = 0x37 then s.violation r.path (addr % 2 ^ 32) else s

/-- A write of a ring or an event that would stand in a region that others own: the training area, and the controller region for any but
an engine that owns data there (R419). -/
def State.barred (s : State) (owner : Bool) (addr n : Nat) : Bool :=
  match s.window addr with
  | .dram off => decide (s.dramAcc off n = .ok) && (s.training off n || (!owner && s.reserved off n))
  | _ => false

/-- The engines of these queues are owners of the controller region: Caliper, the Mover and the Armature (R419). -/
def ownsRegion (q : Nat) : Bool := [1, 2, 5, 6, 7].contains q

/-- Bytes of a queue's rings given to an address; in a region that others own they have no effect and are counted (R17, R419). -/
def State.giveRing (s : State) (q : Nat) (p : Path) (addr : Nat) (bs : Bytes) : State :=
  if s.barred (ownsRegion q) addr bs.length then s.violation p (addr % 2 ^ 32) else s.give addr bs

/-- A posted write, on a port where it leaves the module (R446, R457), under the same bar. -/
def State.post (s : State) (owner : Bool) (p : Path) (port addr : Nat) (bs : Bytes) : State :=
  if s.barred owner addr bs.length then s.violation p (addr % 2 ^ 32) else
  match s.window addr with
  | .dram off => s.dwrite off bs
  | .remote _ => s.emit (.packet port (s.mkPacket 0x21 addr bs))
  | _ => s

/-- A queue is enabled when both its sizes are non-zero (R440). -/
def Queue.enabled (q : Queue) : Bool := decide (0 < q.sqSize) && decide (0 < q.cqSize)

/-- The completions not yet consumed (R442). -/
def Queue.unconsumed (q : Queue) : Nat := if q.full then q.cqSize else (q.cqTail + q.cqSize - q.cqHead) % q.cqSize

/-- Entries pending (R441). -/
def Queue.waiting (q : Queue) : Nat := (q.sqTail + q.sqSize - q.sqHead) % q.sqSize

/-- The 32 bytes of a completion (R443). -/
def completion (tag status b5 b6 : Nat) (phase : Bool) (rest : Bytes) : Bytes :=
  leBytes 4 tag ++ leBytes 1 status ++ leBytes 1 b5 ++ leBytes 1 b6 ++ leBytes 1 (bitAt phase 0) ++ (rest ++ zeros 24).take 24

/-- The ring position after one more completion, and its phase (R443). -/
def nextSlot (size tail : Nat) (phase : Bool) : Nat × Bool := if tail + 1 = size then (0, !phase) else (tail + 1, phase)

/-- A completion lands at the queue's tail, which advances and wraps with the phase; the ring is full when the tail meets the
head (R443). -/
def State.putCompletion (s : State) (q : Nat) (p : Path) (tag status b5 b6 : Nat) (rest : Bytes) : State :=
  let x := s.queue q
  let s := s.giveRing q p (x.cqBase + 32 * x.cqTail) (completion tag status b5 b6 x.phase rest)
  let t := nextSlot x.cqSize x.cqTail x.phase
  s.setQueue q { s.queue q with cqTail := t.1, phase := t.2, full := t.1 == x.cqHead }

/-- The list without its first element that a test holds for. -/
def dropFirst {α : Type} (p : α → Bool) : List α → List α
  | [] => []
  | a :: r => if p a then r else a :: dropFirst p r

/-- An entry of a tag stands in a list of taken entries. -/
def hasTag (tag : Nat) (l : List Taken) : Bool := l.any fun t => u32 t.entry 4 == tag

/-- The port of a completion event: the one that carried the completion (R446), or the event address's own where the ring stands in
the module (DESIGN CHOICE, log 113). -/
def State.eventPort (s : State) (ring addr : Nat) : Nat := match s.window ring with
  | .remote ep => s.portFor ep
  | _ => s.portFor (addr / 2 ^ 52)

/-- The completion event of a queue whose completion went to a ring (R446). -/
def State.completionEvent (s : State) (q : Nat) (p : Path) (ring tag : Nat) : State :=
  let x := s.queue q
  if x.evAddr = 0 then s.event 13 446 q tag
  else s.post (ownsRegion q) p (s.eventPort ring x.evAddr) x.evAddr (leBytes 4 x.evData)

/-- The completion of an entry taken before its queue was disabled goes to the ring of that time (R440). -/
def State.closeCompletion (s : State) (q : Nat) (p : Path) (c : Closing) (tag status b5 b6 : Nat) (rest : Bytes) : State :=
  let s := s.giveRing q p (c.base + 32 * c.tail) (completion tag status b5 b6 c.phase rest)
  let t := nextSlot c.size c.tail c.phase
  let c' := { c with tail := t.1, phase := t.2, taken := dropFirst (fun t => u32 t.entry 4 == tag) c.taken }
  let x := s.queue q
  s.setQueue q { x with closing := (x.closing.map fun y => if y = c then c' else y).filter fun y => !y.taken.isEmpty }

/-- A request completes: its status goes back on its path, and, for an entry that an engine took from a queue, the completion
is written into the reserved slot, with the completion event where FLAGS bit 0 asks for one (R440, R443, R446). -/
def State.completeAs (s : State) (r : Req) (status b5 b6 : Nat) (rest : Bytes) : State :=
  let s := s.emit (.status r status (le rest 0 4) (le rest 8 8))
  match r.queue with
  | none => s
  | some q =>
    let x := s.queue q
    if x.enabled && hasTag r.tag x.taken then
      let s := s.setQueue q { x with taken := dropFirst (fun t => u32 t.entry 4 == r.tag) x.taken }
      let s := s.putCompletion q r.path r.tag status b5 b6 rest
      if r.event then s.completionEvent q r.path x.cqBase r.tag else s
    else match x.closing.find? fun c => hasTag r.tag c.taken with
      | some c =>
        let s := s.closeCompletion q r.path c r.tag status b5 b6 rest
        if r.event then s.completionEvent q r.path c.base r.tag else s
      | none => s

/-- Bytes 0x0C to 0x0F of a completion of no engine's own: DIS_SEQ of a Caliper queue, with no record (R396), else 0 (R448). -/
def midBytes (q : Option Nat) : Bytes := if q = some 1 ∨ q = some 2 then leBytes 4 0xFFFFFFFF else zeros 4

/-- A completion with DETAIL at 0x08 and VALUE at 0x10 (R448). -/
def State.complete (s : State) (r : Req) (status detail value : Nat) : State :=
  s.completeAs r status 0 0 (leBytes 4 detail ++ midBytes r.queue ++ leBytes 8 value)

/-- A command whose principal lacks its right completes DENIED (R468). -/
def State.deny (s : State) (r : Req) : State := (s.deniedRec r.path r.principal).complete r 0x37 0 0

/-- A command that needs a right: DENIED without it. -/
def State.withRight (s : State) (r : Req) (x : Right) (f : State → State) : State :=
  if s.may r.principal x then f s else s.deny r

/-- A register command that needs a right: refused as a write without it (R468). -/
def State.withWriteRight (s : State) (r : Req) (x : Right) (addr : Nat) (f : State → State) : State :=
  if s.may r.principal x then f s else s.refuseWrite r.path r.principal addr

end Sys2Proof.Machine
end

