-- ==== Sys2Proof/Machine/Nodes.lean ====
section
/-!
DEFINITION. Machine/Nodes.lean: the Maquette's entries as fields with their ranges and defaults (R62, R145, R161, R172,
R173, R205, R206, R478), and where State finds them for a rail, a channel or a site.
-/
namespace Sys2Proof.Machine

/-! ## Rail nodes (R145) -/

def ndFlags : Fld := ⟨0x00, 2, 0, 0x0F, none, false⟩
def ndEnableKind : Fld := ⟨0x02, 1, 0, 1, none, false⟩
def ndEnableIndex : Fld := ⟨0x03, 1, 0, 23, none, false⟩
def ndPmbusAddr : Fld := ⟨0x04, 1, 0, 0x77, none, false⟩
def ndPmbusPage : Fld := ⟨0x05, 1, 0, 0xFF, none, false⟩
def ndPgKind : Fld := ⟨0x06, 1, 0, 1, none, false⟩
def ndPgIndex : Fld := ⟨0x07, 1, 0, 23, none, false⟩
def ndOffLevel : Fld := ⟨0x08, 2, 0, 65535, none, false⟩
def ndChatter : Fld := ⟨0x0A, 1, 1, 15, some 3, false⟩
def ndReaction : Fld := ⟨0x0B, 1, 0, 3, none, false⟩
def ndRetryLimit : Fld := ⟨0x0C, 1, 1, 7, some 3, false⟩
def ndBackoff : Fld := ⟨0x0E, 2, 10, 10000, some 100, false⟩
def ndUpDelay : Fld := ⟨0x1C, 4, 0, 1000000, none, false⟩
def ndDownDelay : Fld := ⟨0x20, 4, 0, 1000000, none, false⟩
def ndRise : Fld := ⟨0x24, 4, 1000, 1000000, some 10000, false⟩
def ndFall : Fld := ⟨0x28, 4, 1000, 2000000, some 20000, false⟩
def ndQualify : Fld := ⟨0x2C, 4, 50, 50000, some 500, false⟩

/-- Every field of a rail node with a range (R145). -/
def nodeFlds : List Fld :=
  [ndFlags, ndEnableKind, ndEnableIndex, ndPgKind, ndPgIndex, ndChatter, ndReaction, ndRetryLimit, ndBackoff, ndUpDelay,
   ndDownDelay, ndRise, ndFall, ndQualify]

def ndUpDeps (b : Bytes) : Nat := u32 b 0x10
def ndDownDeps (b : Bytes) : Nat := u32 b 0x14
def ndGroup (b : Bytes) : Nat := u32 b 0x18
def ndUsed (b : Bytes) : Bool := (u16 b 0).testBit 0
def ndBus (b : Bytes) : Bool := (u16 b 0).testBit 1
def ndTolerant (b : Bytes) : Bool := (u16 b 0).testBit 2
def ndPgLow (b : Bytes) : Bool := (u16 b 0).testBit 3

/-! ## Templates (R161) -/

def tplAttempts : Fld := ⟨0x02, 1, 1, 3, some 1, false⟩
def tplSettle : Fld := ⟨0x06, 2, 10, 5000, some 100, false⟩
def tplFlds : List Fld := [⟨0, 1, 0, 7, none, false⟩, ⟨1, 1, 1, 255, none, false⟩, tplAttempts, ⟨3, 1, 0, 1, none, false⟩,
  ⟨4, 1, 8, 0x77, none, false⟩, tplSettle]

/-- Bytes of one template: header and 32 nodes (R60). -/
def tplSize : Nat := 2112

/-- Template `t` of a SITE_TEMPLATES section. -/
def tplOf (sec : Bytes) (t : Nat) : Bytes := slice sec (tplSize * t) tplSize
/-- Node of rail `k` in a template. -/
def tplNode (tpl : Bytes) (k : Nat) : Bytes := slice tpl (64 + 64 * k) 64
def tplAllowed (tpl : Bytes) : Nat := u8 tpl 1
def tplAutoUp (tpl : Bytes) : Bool := u8 tpl 3 == 1

/-! ## The built-in module rail graph (R158) -/

/-- Up dependencies of module rail 256 + k, as bits. -/
def builtinUp (k : Nat) : Nat :=
  if k = 0 then 0
  else if k = 1 ∨ k = 3 ∨ k = 4 ∨ k = 5 ∨ k = 23 then 2 ^ 0
  else if k = 2 then 2 ^ 1
  else if k = 20 then 2 ^ 2
  else if k = 6 then 2 ^ 2
  else if k = 7 then 2 ^ 6
  else if k = 10 ∨ k = 11 ∨ k = 12 ∨ k = 14 ∨ k = 21 ∨ k = 22 then 2 ^ 7
  else if k = 8 ∨ k = 9 then 2 ^ 10
  else if k = 13 then 2 ^ 12
  else if k = 15 then 2 ^ 14
  else if 16 ≤ k ∧ k ≤ 19 then 2 ^ 15
  else 0

/-- Down dependencies, the inverse. -/
def builtinDown (k : Nat) : Nat := maskOf ((List.range 24).filter fun j => (builtinUp j).testBit k)

/-- Rails that depend on a set, directly or through others, with the set (fuel: one pass per rail). -/
def closeUp (deps : Nat → Nat) (n : Nat) : Nat → Nat → Nat
  | 0, m => m
  | f + 1, m => closeUp deps n f (m ||| maskOf ((List.range n).filter fun j => deps j &&& m != 0))

/-- Built-in group of module rail 256 + k: the rail and every rail that depends on it (R158). -/
def builtinGroup (k : Nat) : Nat := closeUp builtinUp 24 24 (2 ^ k)

/-- The standby rails 256-261, 276 and 279 (R159). -/
def standbyRail (k : Nat) : Bool := k ≤ 5 || k == 20 || k == 23

/-- Nominal voltage of module rail 256 + k in mV (R30). -/
def nominalMv (k : Nat) : Nat :=
  [5000, 800, 1800, 1800, 800, 3300, 12000, 750, 750, 700, 800, 1800, 750, 1200, 750, 1100, 12000, 12000, 12000, 12000, 1800, 1000,
   900, 3300].getD k 0

/-- A rail of more than 6.5 V nominal is reported in the bus encoding (R13). -/
def nominalBus (k : Nat) : Bool := decide (6500 < nominalMv k)

/-- The nominal voltage in the codes of the rail's encoding: 10 mV or 0.1 mV (R12, R30). -/
def nominalCode (k : Nat) : Nat := if nominalBus k then nominalMv k / 10 else nominalMv k * 10

/-- The Plinth's own SURVEY_MAP, in force with no structure committed: the voltages of the module rails (R75). -/
def factoryMap : Bytes :=
  (List.range 384).flatMap fun c => match Config.factoryChans.idxOf? c with
    | some k => leBytes 2 (256 + k) ++ [1, 0] ++ leBytes 4 (Config.factoryScale k)
    | none => [0xFF, 0xFF] ++ zeros 6

/-- The Plinth's own windows: fault limits round each module rail's nominal voltage (R75). -/
def factoryWindows : Bytes :=
  (List.range 384).flatMap fun c => match Config.factoryChans.idxOf? c with
    | some k =>
      let w := Config.factoryWindow k
      let lo := nominalCode k - w.1
      let hi := min 65535 (nominalCode k + w.2.1)
      leBytes 2 lo ++ leBytes 2 hi ++ leBytes 2 lo ++ leBytes 2 hi ++ leBytes 2 0 ++ leBytes 1 (w.2.2 % 16) ++ leBytes 1 3 ++ zeros 4
    | none => zeros 16

/-- The SURVEY_MAP in force: the live structure's, or the Plinth's own with none committed (R75). -/
def State.surveyMap (s : State) : Bytes := if s.maq.live.isNone then factoryMap else s.sec 0x04
/-- The SURVEY_WINDOWS in force. -/
def State.surveyWindows (s : State) : Bytes := if s.maq.live.isNone then factoryWindows else s.sec 0x05

/-- The built-in node of module rail 256 + k, in force with no structure committed (R75, R158): used, its built-in
reaction, dependencies and group, every other field at its default; bus encoding for the 12 V rails (R30). -/
def builtinNode (k : Nat) : Bytes :=
  leBytes 2 (1 + if nominalBus k then 2 else 0) ++ leBytes 1 0 ++ leBytes 1 k ++ leBytes 1 0 ++ leBytes 1 0xFF ++ leBytes 1 0 ++
    leBytes 1 k ++ leBytes 2 0 ++ leBytes 1 0 ++ leBytes 1 (if standbyRail k then 0 else 2) ++ zeros 4 ++
    leBytes 4 (builtinUp k) ++ leBytes 4 (builtinDown k) ++ leBytes 4 (if standbyRail k then 0 else builtinGroup k) ++
    zeros 36

/-! ## Finding nodes and channels in State -/

/-- Number of the first rail of a rail's scope. -/
def scopeBase (g : Nat) : Nat := if g < 256 then g / 32 * 32 else 256
/-- Rails of the scope. -/
def scopeSize (g : Nat) : Nat := if g < 256 then 32 else 24
/-- The site of a site rail. -/
def siteOf (g : Nat) : Option Nat := if g < 256 then some (g / 32) else none

/-- The node of a rail in force. -/
def State.node (s : State) (g : Nat) : Bytes :=
  if g < 256 then
    if (s.site (g / 32)).template = 0xFF then [] else
      tplNode (tplOf (s.sec 0x02) (s.site (g / 32)).template) (g % 32)
  else if s.hasSec 0x03 then slice (s.sec 0x03) (64 * (g - 256)) 64 else builtinNode (g - 256)

def State.used (s : State) (g : Nat) : Bool := ndUsed (s.node g)

/-- Up and down dependencies in force; those of module rails are the built-in ones (R75, R158). -/
def State.upDeps (s : State) (g : Nat) : Nat := if g < 256 then ndUpDeps (s.node g) else builtinUp (g - 256)
def State.downDeps (s : State) (g : Nat) : Nat := if g < 256 then ndDownDeps (s.node g) else builtinDown (g - 256)

/-- The SURVEY_MAP entry of a channel (R172). -/
def mapEntry (sec : Bytes) (ch : Nat) : Bytes := slice sec (8 * ch) 8
def mapOwner (e : Bytes) : Nat := u16 e 0
def mapKind (e : Bytes) : Nat := u8 e 2
def mapNomK (e : Bytes) : Nat := u32 e 4

/-- The channel of an owner and kind in a SURVEY_MAP (R147). -/
def chanIn (sec : Bytes) (owner kind : Nat) : Option Nat :=
  (List.range (sec.length / 8)).find? fun c => mapOwner (mapEntry sec c) == owner && mapKind (mapEntry sec c) == kind

/-- The voltage (kind 1) or current (kind 2) channel of a rail. -/
def State.chanOf (s : State) (g kind : Nat) : Option Nat := chanIn s.surveyMap g kind

/-- The window entry of a channel (R173): after a commit the one before it, until its die's next scan begins (R66). -/
def State.winEntry (s : State) (ch : Nat) : Bytes :=
  match Tbl.find? s.svy.winOld (ch / 24) with
  | some w => slice w (16 * (ch % 24)) 16
  | none => slice s.surveyWindows (16 * ch) 16

/-- SURVEY_WINDOWS are about to change: each die keeps its own until its next scan, the oldest of several (R66). -/
def State.keepWindows (s : State) (old : Bytes) : State :=
  if old = s.surveyWindows then s
  else { s with svy := { s.svy with winOld := (List.range 16).foldl (fun t d =>
    if (Tbl.find? t d).isSome then t else Tbl.set t d (slice old (384 * d) 384)) s.svy.winOld } }

/-- A window limit in the units of the channel's value: unsigned 10 mA codes for a current channel, and for the others the channel's
16-bit code, signed where FLAGS bit 3 says so (R173). -/
def winLimit (w : Bytes) (off kind : Nat) : Int :=
  if kind = 2 then (u16 w off : Nat) * 10
  else if (u8 w 0x0B).testBit 3 then sle w off 2 else (u16 w off : Nat)

/-- The value as a limit meets it: signed where FLAGS bit 3 says so; otherwise its code, 32 bits of a current channel and 16 of the
others, as an unsigned number (R173, log 71). -/
def winValue (w : Bytes) (kind : Nat) (v : Int) : Int :=
  if (u8 w 0x0B).testBit 3 then v else (ofInt (if kind = 2 then 32 else 16) v : Nat)

def winQual (w : Bytes) : Nat := u8 w 0x0A

/-- The current-side value lies beyond the enabled FAULT_LO or FAULT_HI of the channel. -/
def State.belowFault (s : State) (ch : Nat) (v : Int) : Bool :=
  let w := s.winEntry ch
  let k := mapKind (mapEntry s.surveyMap ch)
  (u8 w 0x0B).testBit 0 && decide (winValue w k v < winLimit w 0 k)
def State.aboveFault (s : State) (ch : Nat) (v : Int) : Bool :=
  let w := s.winEntry ch
  let k := mapKind (mapEntry s.surveyMap ch)
  (u8 w 0x0B).testBit 1 && decide (winLimit w 2 k < winValue w k v)

/-! ## CAPS (R205, R206) -/

def cpCeiling : Fld := ⟨0x00, 4, 1000000, 20000000, none, false⟩
def cpDefault : Fld := ⟨0x04, 4, 0, 20000000, none, false⟩
def cpReserve : Fld := ⟨0x08, 4, 0, 5000000, none, false⟩
def cpMask : Fld := ⟨0x0C, 1, 0, 255, none, false⟩
def cpLevelV : Fld := ⟨0x0D, 1, 1, 7, some 4, false⟩
def cpLevelI : Fld := ⟨0x0E, 1, 1, 7, some 4, false⟩
def cpLevel2 : Fld := ⟨0x0F, 1, 1, 7, some 7, false⟩
def cpStage2 : Fld := ⟨0x10, 2, 100, 1000, some 400, false⟩
def cpHyst : Fld := ⟨0x12, 2, 10, 500, some 100, false⟩
def cpStep : Fld := ⟨0x14, 4, 100, 100000, some 1000, false⟩
def cpGuardMargin : Fld := ⟨0x18, 1, 5, 100, some 20, false⟩
def cpGuardTime : Fld := ⟨0x19, 1, 1, 50, some 5, false⟩
def cpGuardRelease : Fld := ⟨0x1A, 1, 1, 100, some 10, false⟩
def cpRaise : Fld := ⟨0x1B, 1, 1, 100, some 5, false⟩
def capsFlds : List Fld := [cpCeiling, cpDefault, cpReserve, cpMask, cpLevelV, cpLevelI, cpLevel2, cpStage2, cpHyst,
  cpStep, cpGuardMargin, cpGuardTime, cpGuardRelease, cpRaise]

def cpFloor : Fld := ⟨0x00, 4, 0, 4000000, none, false⟩
def cpCeil : Fld := ⟨0x04, 4, 100000, 4000000, none, false⟩
def cpWeight : Fld := ⟨0x08, 1, 1, 255, some 1, false⟩
def cpMeterRail : Fld := ⟨0x09, 1, 0, 31, none, false⟩
def cpPatinaRail : Fld := ⟨0x0A, 1, 0, 31, none, false⟩
def capSiteFlds : List Fld := [cpFloor, cpCeil, cpWeight, cpMeterRail, cpPatinaRail]

/-- The CAPS entry of a site. -/
def capEntry (sec : Bytes) (n : Nat) : Bytes := slice sec (0x40 + 32 * n) 32
def State.caps (s : State) : Bytes := s.sec 0x0C
def State.capOf (s : State) (n : Nat) : Bytes := capEntry s.caps n

/-! ## ROLE, pair bytes (R478) -/

def roleMode : Fld := ⟨0x00, 1, 1, 2, none, false⟩
def roleBayPref : Fld := ⟨0x01, 1, 0, 3, none, false⟩
def roleDetect : Fld := ⟨0x02, 1, 20, 100, some 50, false⟩
def roleHold : Fld := ⟨0x04, 1, 1, 60, some 10, false⟩

/-! ## Option bytes (R97) -/

def obProfileCtrl : Fld := ⟨0x0C, 1, 0, 7, none, false⟩
def obDebug : Fld := ⟨0x0D, 1, 0, 2, none, false⟩
def obKeyEnable : Fld := ⟨0x0E, 1, 0, 0x3F, none, false⟩
def obRolePref : Fld := ⟨0x0F, 1, 0, 3, none, false⟩
def obRevoked : Fld := ⟨0x10, 1, 0, 0x3F, none, false⟩
def obMinFw : Fld := ⟨0x14, 4, 0, 0xFFFFFFFF, none, false⟩
def obMinStruct : Fld := ⟨0x18, 4, 0, 0xFFFFFFFF, none, false⟩
def obMinSite : Fld := ⟨0x1C, 4, 0, 0xFFFFFFFF, none, false⟩
def obInputGood : Fld := ⟨0x20, 2, 4650, 4800, none, false⟩
def obHoldup : Fld := ⟨0x22, 2, 4400, 4600, none, false⟩
def obUvReset : Fld := ⟨0x24, 2, 3650, 4200, none, false⟩
def obRelief : Fld := ⟨0x26, 2, 5000, 6200, none, false⟩
def obTrayI : Fld := ⟨0x28, 4, 50000, 600000, none, false⟩
def obTjStop : Fld := ⟨0x2C, 2, 95 * 16, 110 * 16, none, true⟩
def obTjReset : Fld := ⟨0x2E, 2, 115 * 16, 125 * 16, none, true⟩
def obHoldCtrl : Fld := ⟨0x30, 1, 0, 7, none, false⟩
def obFlds : List Fld := [obProfileCtrl, obDebug, obKeyEnable, obRolePref, obRevoked, obMinFw, obMinStruct, obMinSite,
  obInputGood, obHoldup, obUvReset, obRelief, obTrayI, obTjStop, obTjReset, obHoldCtrl]

/-- The built-in defaults (R97). -/
def obDefaults : Bytes :=
  zeros 0x0C ++ [0x00, 0x00, 0x3F, 0x02] ++ zeros 0x10 ++ leBytes 2 4700 ++ leBytes 2 4600 ++ leBytes 2 3800 ++
    leBytes 2 5800 ++ leBytes 4 320000 ++ leBytes 2 0x06E0 ++ leBytes 2 0x07D0 ++ [0x05] ++ zeros 207

/-- The option bytes in use (R98). -/
def State.optBytes (s : State) : Bytes := s.ob.bytes.getD obDefaults
/-- An option in use. -/
def State.opt (s : State) (f : Fld) : Nat := f.nat s.optBytes

end Sys2Proof.Machine
end

