-- ==== Sys2Proof/Machine/Energy.lean ====
section
/-!
DEFINITION. Machine/Energy.lean: energy accumulators, the job table and job marks (R228 to R231, R503).
-/
namespace Sys2Proof.Machine

def State.capS (s : State) (n : Nat) : SiteCap := Tbl.get {} s.cap.sites n
def State.setCapS (s : State) (n : Nat) (x : SiteCap) : State :=
  { s with cap := { s.cap with sites := Tbl.set s.cap.sites n x } }

/-- The CAPS entry in force for a site: held while it is in Still mode, unless the new ceiling lies below the cap (R66). -/
def State.capEntryNow (s : State) (n : Nat) : Bytes :=
  let c := s.capS n
  match c.entry with
  | some e => if c.still && decide (c.cap ≤ cpCeil.val (s.capOf n)) then e else s.capOf n
  | none => s.capOf n

/-- One of a site's seven counters of R511 (keys 0-6) counts. -/
def State.bumpSite (s : State) (n k : Nat) : State :=
  s.bump 5 n (Tbl.get {} (s.capS n).cnts k) fun c s =>
    s.setCapS n { s.capS n with cnts := Tbl.set (s.capS n).cnts k c }

/-- The accumulator with `nj` nanojoules added: residue kept, wrap modulo 2^64 µJ (R228, R503). The flag is the wrap. -/
def Energy.add (e : Energy) (nj : Nat) : Energy × Bool :=
  let u := e.uj.toNat + (e.nj + nj) / 1000
  let w := decide (2 ^ 64 ≤ u)
  ({ uj := BitVec.ofNat 64 u, nj := (e.nj + nj) % 1000, wrap := e.wrap || w }, w)

/-- The accumulator with `nj` taken away again, for a mark that splits an interval already added (R230). -/
def Energy.sub (e : Energy) (nj : Nat) : Energy :=
  let t := (e.uj.toNat * 1000 + e.nj + 2 ^ 64 * 1000 - nj % (2 ^ 64 * 1000)) % (2 ^ 64 * 1000)
  { e with uj := BitVec.ofNat 64 (t / 1000), nj := t % 1000 }

def State.job (s : State) (j : Nat) : Job := Tbl.get {} s.met.jobs j
def State.setJob (s : State) (j : Nat) (x : Job) : State := { s with met := { s.met with jobs := Tbl.set s.met.jobs j x } }

/-- Energy added to what a site's interval is attributed to: job index plus 1, or idle (R228). -/
def State.addTo (s : State) (site job nj : Nat) : State :=
  if job = 0 then
    let r := (Tbl.get {} s.met.idle site).add nj
    let s := { s with met := { s.met with idle := Tbl.set s.met.idle site r.1 } }
    if r.2 then s.event 5 503 site 1 else s
  else
    let j := s.job (job - 1)
    let r := (Tbl.get {} j.energy site).add nj
    let s := s.setJob (job - 1) { j with energy := Tbl.set j.energy site r.1, wrap := j.wrap || r.2 }
    if r.2 then s.event 5 503 site 3 else s

/-- Energy taken from what it was attributed to. -/
def State.takeFrom (s : State) (site job nj : Nat) : State :=
  if job = 0 then
    { s with met := { s.met with idle := Tbl.set s.met.idle site ((Tbl.get {} s.met.idle site).sub nj) } }
  else
    let j := s.job (job - 1)
    s.setJob (job - 1) { j with energy := Tbl.set j.energy site ((Tbl.get {} j.energy site).sub nj) }

/-- A job entry is released: each site's part goes to SITE_ENERGY_RELEASED with its residue, and the entry is free
(R231). The history's parts that were its own (1025 from then on) are attributed to no entry, so none that takes it up later gets them. -/
def State.releaseJob (s : State) (j : Nat) : State :=
  let x := s.job j
  let s := (List.range 8).foldl (fun s n =>
    let e : Energy := Tbl.get {} x.energy n
    let r := (Tbl.get {} s.met.released n).add (e.uj.toNat * 1000 + e.nj)
    let s := { s with met := { s.met with released := Tbl.set s.met.released n r.1 } }
    if r.2 then s.event 5 503 n 2 else s) s
  let hist := s.met.hist.map fun e => (e.1, e.2.map fun (x : Interval) =>
    { x with parts := x.parts.map fun p => if p.2 = j + 1 then (p.1, 1025) else p })
  { s.setJob j {} with met := { (s.setJob j {}).met with hist := hist } }

/-- A site's part in its job ends; the job closes when every joined site has ended it, and its energy goes to the
Journal engine (R231). -/
def State.endJobOn (s : State) (site : Nat) (implicit : Bool) : State :=
  let k := Tbl.get 0 s.met.siteJob site
  if k = 0 then s else
    let x := s.job (k - 1)
    let x := { x with active := setBit x.active site false, implicit := x.implicit || implicit }
    let s := { s with met := { s.met with siteJob := Tbl.set s.met.siteJob site 0 } }
    if x.active = 0#8 then
      let x := { x with st := 2, closedAt := s.met.closings }
      { s.setJob (k - 1) x with met := { (s.setJob (k - 1) x).met with closings := s.met.closings + 1
                                                                       handed := x :: s.met.handed } }
    else s.setJob (k - 1) x

/-- Index of a free entry, after releasing the oldest closed one if none is free (R231). -/
def State.roomForJob (s : State) : State × Option Nat :=
  match (List.range 1024).find? fun j => (s.job j).st == 0 with
  | some j => (s, some j)
  | none =>
    let closed := (List.range 1024).filter fun j => (s.job j).st == 2
    match closed.foldl (fun b j => match b with
        | none => some j
        | some i => if (s.job j).closedAt < (s.job i).closedAt then some j else some i) none with
    | some j => (s.releaseJob j, some j)
    | none => (s, none)

/-! ## The 10 ms history and marks (R229 to R231) -/

/-- The time that metering intervals and marks are on: the Pointing count, or the controller's free-running time while Pointing is not
acquired (R210, R230). -/
def State.mtime (s : State) : Nat := if s.pnt.valid then s.pnt.count else (s.pnt.count + s.met.base).toNat

/-- Energy of an interval before a time: floor(E x (t - T) / 100,000 ns), the length of an interval cut short in place
of 100,000 ns (R230, R323). -/
def Interval.upTo (x : Interval) (t : Nat) : Nat := min x.nj (x.nj * (t - x.start) / x.len)

/-- The parts of an interval from a time on that are attributed to `old` go to `new`; a part that holds the time is split
there. -/
def cutParts (t old new : Nat) : List (Nat × Nat) → List (Nat × Nat)
  | [] => []
  | (a, j) :: r =>
    let stop := (r.head?.map Prod.fst)
    if j = old then
      if t ≤ a then (a, new) :: cutParts t old new r
      else if stop.all (t < ·) then (a, j) :: (t, new) :: cutParts t old new r
      else (a, j) :: cutParts t old new r
    else (a, j) :: cutParts t old new r

/-- The energies of an interval's parts, with what each is attributed to. -/
def Interval.shares (x : Interval) : List (Nat × Nat) → List (Nat × Nat)
  | [] => []
  | (a, j) :: r =>
    let stop := match r with
      | (b, _) :: _ => x.upTo b
      | [] => x.nj
    (j, stop - x.upTo a) :: x.shares r

/-- Energy of an interval from a time on that is attributed to something. -/
def Interval.from (x : Interval) (t old : Nat) : List (Nat × Nat) → Nat
  | [] => 0
  | (a, j) :: r =>
    let stop := match r with
      | (b, _) :: _ => x.upTo b
      | [] => x.nj
    (if j = old then stop - max (x.upTo a) (x.upTo t) else 0) + x.from t old r

/-- A job is touched by an estimated interval (R213). -/
def State.markEstimated (s : State) (job : Nat) : State :=
  if job = 0 then s else s.setJob (job - 1) { s.job (job - 1) with estimated := true }

/-- Energy kept for a site from a time on moves from what it was attributed to, to another; a job that comes to touch an estimated
interval is ESTIMATED (R213, R230). -/
def State.reattr (s : State) (site t old new : Nat) : State :=
  let h : List Interval := Tbl.get [] s.met.hist site
  let step (a : State × List Interval) (x : Interval) : State × List Interval :=
    let parts := cutParts t old new x.parts
    if x.start + x.len ≤ t ∨ parts = x.parts then (a.1, x :: a.2) else
      let e := x.from t old x.parts
      let s := (a.1.takeFrom site old e).addTo site new e
      (if x.est then s.markEstimated new else s, { x with parts := parts } :: a.2)
  let r := h.reverse.foldl step (s, [])
  { r.1 with met := { r.1.met with hist := Tbl.set r.1.met.hist site r.2 } }

/-- The open entry of a JOB_ID (R229). -/
def State.openJob (s : State) (id : Nat) : Option Nat :=
  (List.range 1024).find? fun j => (s.job j).st == 1 && (s.job j).id == id

/-- A site joins a job from a time on. -/
def State.joinJob (s : State) (site t j : Nat) : State :=
  let x := s.job j
  let s := s.setJob j { x with joined := setBit x.joined site true, active := setBit x.active site true
                               pvalid := x.pvalid && s.pnt.valid }
  let s := s.reattr site t 0 (j + 1)
  { s with met := { s.met with siteJob := Tbl.set s.met.siteJob site (j + 1) } }

/-- A JOB_BEGIN or JOB_END takes effect on a site at a time (R229 to R231). -/
def State.applyMark (s : State) (site : Nat) (begins : Bool) (id t : Nat) : State :=
  let k := Tbl.get 0 s.met.siteJob site
  if begins then
    let s := (if k = 0 then s else s.reattr site t k 0).endJobOn site true
    match s.openJob id with
    | some j => s.joinJob site t j
    | none =>
      match s.roomForJob with
      | (s, some j) => (s.setJob j { id := id, st := 1, pvalid := s.pnt.valid }).joinJob site t j
      | (s, none) =>
        (s.bump 5 8 s.met.full fun c s => { s with met := { s.met with full := c } }).event 5 231 site 0
  else if k ≠ 0 ∧ (s.job (k - 1)).id = id then (s.reattr site t k 0).endJobOn site false
  else s

end Sys2Proof.Machine
end

