-- ==== Sys2Proof/Machine/LaunchRec.lean ====
section
/-!
DEFINITION. Machine/LaunchRec.lean: the arm table and its launch records (R337, R344, R345), what a throttle or a cut does
to them (R217, R221), and the throttle lines' level (R221).
-/
namespace Sys2Proof.Machine

def State.arm (s : State) (i : Nat) : ArmEntry := Tbl.get {} s.pnt.arms i
def State.setArm (s : State) (i : Nat) (x : ArmEntry) : State :=
  { s with pnt := { s.pnt with arms := Tbl.set s.pnt.arms i x } }

/-- The entry that holds a RUN_ID, armed or in GO. -/
def State.armOf (s : State) (run : Nat) : Option Nat :=
  (List.range 16).find? fun i => ((s.arm i).st == 1 || (s.arm i).st == 2) && (s.arm i).runId == run

/-- TIMING_DET and BALANCE (R337). -/
def ArmEntry.timingDet (x : ArmEntry) : Bool := x.flags.testBit 0
def ArmEntry.balance (x : ArmEntry) : Bool := x.flags.testBit 1

/-- TREE_INDEX and PT_ROLE of the live ROLE section (R328). -/
def State.treeIndex (s : State) : Nat := u16 (s.sec 0x0F) 0x22
def State.isManagerRole (s : State) : Bool := u8 (s.sec 0x0F) 0x20 == 1

/-- A site's records chained while the next CHOICE_SEQ is there: the chain, the next CHOICE_SEQ, and what waits (R344). -/
def chainRun (c : Digest) (next : Nat) : List (Nat × Bytes) → Digest × Nat × List (Nat × Bytes)
  | [] => (c, next, [])
  | (q, b) :: l => if q = next then chainRun (Config.sha384 (digestBytes c ++ b)) (next + 1) l else (c, next, (q, b) :: l)

/-- A record put among those that wait, in CHOICE_SEQ order. -/
def holdChoice (q : Nat) (b : Bytes) : List (Nat × Bytes) → List (Nat × Bytes)
  | [] => [(q, b)]
  | x :: l => if q < x.1 then (q, b) :: x :: l else x :: holdChoice q b l

/-- CHOICE_SEQ values of a site that are missing below its highest (R344). -/
def ArmEntry.choiceGap (x : ArmEntry) (n : Nat) : Nat :=
  let l := Tbl.get [] x.choiceHeld n
  (l.getLast?.elim 0 fun a => a.1 + 1 - Tbl.get 0 x.choiceSeq n) - l.length

/-- CHOICE_LOST of a run (R344). -/
def ArmEntry.lost (x : ArmEntry) : Nat := min (((List.range 8).map x.choiceGap).foldl (· + ·) 0) (2 ^ 32 - 1)

/-- A choice of a site taken: what can be is chained. -/
def ArmEntry.choose (x : ArmEntry) (n q : Nat) (b : Bytes) : ArmEntry :=
  let r := chainRun (Tbl.get 0 x.chain n) (Tbl.get 0 x.choiceSeq n) (holdChoice q b (Tbl.get [] x.choiceHeld n))
  let x := { x with chain := Tbl.set x.chain n r.1, choiceSeq := Tbl.set x.choiceSeq n r.2.1
                    choiceHeld := Tbl.set x.choiceHeld n r.2.2, diverge := x.diverge.inc.1 }
  { x with choiceLost := x.lost }

/-- At the close the records that still wait are chained over their gaps (R344). -/
def ArmEntry.flushChoices (x : ArmEntry) : ArmEntry :=
  (List.range 8).foldl (fun (x : ArmEntry) n =>
    let l := Tbl.get [] x.choiceHeld n
    if l = [] then x
    else { x with chain := Tbl.set x.chain n (l.foldl (fun c a => Config.sha384 (digestBytes c ++ a.2)) (Tbl.get 0 x.chain n))
                  choiceHeld := Tbl.set x.choiceHeld n [] }) x

/-- DIVERGE_DIGEST: the SHA-384 of the eight site chains in site order (R344). -/
def ArmEntry.divergeDigest (x : ArmEntry) : Digest :=
  Config.sha384 ((List.range 8).flatMap fun n => digestBytes (Tbl.get 0 x.chain n))

/-- The bytes of a launch record (R345). -/
def State.launchRecord (s : State) (x : ArmEntry) : Bytes :=
  let flags := bitAt x.timingDet 0 + bitAt x.balance 1 + bitAt (x.timingDet && x.st ≥ 2) 2 + bitAt s.ptValid 3
  let b := leBytes 4 0x48434E4C ++ leBytes 2 1 ++ leBytes 1 x.outcome ++ leBytes 1 flags ++ leBytes 8 x.runId ++
    leBytes 8 x.n ++ leBytes 1 x.nFrac ++ leBytes 1 x.siteMask ++ leBytes 1 x.stillCut ++ leBytes 1 x.throttled ++
    leBytes 2 x.queue ++ leBytes 2 s.treeIndex ++ leBytes 4 (min x.margin 0xFFFFFFFF) ++ leBytes 2 x.released ++
    leBytes 2 x.notReleased ++ leBytes 4 x.diverge.val.toNat ++ leBytes 4 x.choiceLost ++ leBytes 8 x.closeAt ++
    leBytes 8 x.jobId ++ digestBytes (if x.timingDet then x.det else 0) ++
    digestBytes (if x.balance then x.divergeDigest else 0) ++ leBytes 1 x.closeWhy ++ leBytes 1 x.refusal ++
    leBytes 2 x.firstNack ++ leBytes 4 s.pnt.epoch.val.toNat ++ zeros 20
  b ++ leBytes 4 (crc32c b)

/-- A LAUNCH_EVENT record (R346). -/
def State.launchEvent (s : State) (site kind : Nat) (x : ArmEntry) (reason pos : Nat) : State :=
  s.record 0x1B site kind (if site < 8 then some site else none)
    (leBytes 8 x.runId ++ leBytes 8 x.n ++ leBytes 1 reason ++ zeros 1 ++ leBytes 2 pos ++ leBytes 1 x.siteMask ++ zeros 7)

/-- A cap or allocation cut of a site is reported to the launch records of its runs (R217, R261). -/
def State.noteCut (s : State) (n : Nat) : State :=
  (List.range 16).foldl (fun s i =>
    let x := s.arm i
    if x.st = 2 ∧ x.timingDet ∧ x.siteMask.testBit n ∧ ¬ x.stillCut.testBit n then
      (s.setArm i { x with stillCut := x.stillCut ||| 2 ^ n }).launchEvent n 5 x 0 s.treeIndex
    else s) s

/-- A CAP_EVENT record (R240). -/
def State.capEvent (s : State) (source kind : Nat) (cap measured : Int) (level : Nat) : State :=
  s.record 0x11 source kind (if source < 8 then some source else none)
    (leBytes 4 (ofInt 32 (sat32 cap)) ++ leBytes 4 (ofInt 32 (sat32 measured)) ++ leBytes 1 level ++ zeros 19)

/-- Peaks of a site (0-7) or the tray (8). -/
def State.peaks (s : State) (n : Nat) : Peaks := Tbl.get {} s.met.peaks n
def State.setPeaks (s : State) (n : Nat) (x : Peaks) : State :=
  { s with met := { s.met with peaks := Tbl.set s.met.peaks n x } }

/-- STILL_CUT of a site: set once, with one CAP_EVENT record, and reported to its launch record (R217). -/
def State.capCut (s : State) (n : Nat) : State :=
  let c := s.capS n
  let s := if c.stillCut then s else
    (s.setCapS n { c with stillCut := true }).capEvent n 7 c.cap (s.peaks n).avg1ms 0
  s.noteCut n

/-! ## Throttle lines (R221) -/

/-- The Relief level on a site: of the mask of the last transition (R224). -/
def State.reliefOn (s : State) (n : Nat) : Nat := if s.rel.mask.testBit n then s.rel.level else 0

/-- THROTTLE_LEVEL of a site: the highest of its sources. -/
def State.throttle (s : State) (n : Nat) : Nat :=
  let c := s.capS n
  max (max (s.reliefOn n) c.guard) (max c.force c.leakLevel)

/-- Sites throttled during a run are marked in its launch record; in Still mode a throttle is a cut (R221, R345). -/
def State.throttleNote (s : State) : State :=
  (List.range 8).foldl (fun s n =>
    if s.throttle n = 0 then s else
      let s := (List.range 16).foldl (fun s i =>
        let x := s.arm i
        if x.st = 2 ∧ x.siteMask.testBit n then s.setArm i { x with throttled := x.throttled ||| 2 ^ n } else s) s
      if (s.capS n).still then s.capCut n else s) s

end Sys2Proof.Machine
end

