-- ==== Sys2Proof/Machine/CalCore.lean ====
section
/-!
DEFINITION. Machine/CalCore.lean: what the rest of the machine needs of Caliper: its sites' coverage, the run table, the ends
of checks, and Caliper's completions (R376 to R387, R396).
-/
namespace Sys2Proof.Machine

/-! ## Operation descriptors (R372, R373) -/

def dFmtA (d : Bytes) : Nat := u8 d 1
def dFmtB (d : Bytes) : Nat := u8 d 2
def dFmtC (d : Bytes) : Nat := u8 d 3
def dOut (d : Bytes) : Nat := u8 d 4
def dM (d : Bytes) : Nat := u32 d 8
def dN (d : Bytes) : Nat := u32 d 0xC
def dK (d : Bytes) : Nat := u32 d 0x10
def dTa (d : Bytes) : Bool := (u8 d 5).testBit 0
def dTb (d : Bytes) : Bool := (u8 d 5).testBit 1

/-- A part of a result: rows from one on, and columns from one on. -/
structure ResPart where
  r0 : Nat
  nr : Nat
  c0 : Nat
  nc : Nat
  deriving DecidableEq, Repr

def wholePart (d : Bytes) : ResPart := ⟨0, dM d, 0, dN d⟩

/-! ## Coverage and records (R376 to R387, R396) -/

def State.calSite (s : State) (n : Nat) : CalSite := Tbl.get {} s.cal.sites n
def State.setCalSite (s : State) (n : Nat) (x : CalSite) : State :=
  { s with cal := { s.cal with sites := Tbl.set s.cal.sites n x } }
def CalSite.covOf (c : CalSite) (op : Nat) : Cov := Tbl.get {} c.cov op

/-- A coverage counter of a site and op counts: keys as in `Cov.cnt` (R387). -/
def State.bumpCov (s : State) (n op k : Nat) : State :=
  s.bump 10 n (Tbl.get {} ((s.calSite n).covOf op).cnt k) fun c s =>
    let x := s.calSite n
    s.setCalSite n { x with cov := Tbl.set x.cov op { x.covOf op with cnt := Tbl.set (x.covOf op).cnt k c } }

/-- OFFERED_TERMS or CHECKED_TERMS counts; a wrap sets TERMS_WRAP with one event (R387, R503). -/
def State.addTerms (s : State) (n op terms : Nat) (chk : Bool) : State :=
  let x := s.calSite n
  let c := x.covOf op
  let v := (if chk then c.checked else c.offered) + terms
  let w := decide (2 ^ 64 ≤ v)
  let c := { c with offered := if chk then c.offered else v % 2 ^ 64, checked := if chk then v % 2 ^ 64 else c.checked
                    wrap := c.wrap || w }
  let s := s.setCalSite n { x with cov := Tbl.set x.cov op c }
  if w then s.event 10 503 n op else s

/-- Terms of a descriptor: M x N x K for DOT and SUM, M x N otherwise (R387). -/
def descTerms (d : Bytes) : Nat := u32 d 8 * u32 d 0xC * if u8 d 0 ≤ 2 then u32 d 0x10 else 1

/-- The op under which a descriptor's coverage counts. -/
def descOp (d : Bytes) : Nat := if 1 ≤ u8 d 0 ∧ u8 d 0 ≤ 6 then u8 d 0 else 1

/-- A CALIPER_EVENT record (R398). -/
def State.calEvent (s : State) (source kind site count run : Nat) : State :=
  s.record 0x1D source kind (if site < 8 then some site else none) (leBytes 2 s.cal.fencedMap.toNat ++ leBytes 1 site ++ [0] ++
    leBytes 4 count ++ leBytes 8 run ++ zeros 12)

/-- BAD_OFFER, OFFERS_LOST and FETCH_FAIL: at most one record per site per 1 s. -/
def State.calSiteEvent (s : State) (n kind count run : Nat) : State :=
  let c := s.calSite n
  if s.since (Tbl.find? c.lastRec kind) (secs 1) then
    (s.setCalSite n { c with lastRec := Tbl.set c.lastRec kind s.plinth }).calEvent 0xFFFF kind n count run
  else s

/-- CALIPER_FIRST step: Caliper cannot run (R380). -/
def State.calStopped (s : State) : Bool :=
  !s.pwr.caliper || s.pwr.calFenced || s.cal.selfFenced || s.snap.holdup || s.haz.tjState == 1 || !s.hasDram

/-- Tiles usable (R367). -/
def State.usableTiles (s : State) : List Nat :=
  (List.range 16).filter fun t => !Config.disabledMap.getLsbD t && !s.cal.fencedMap.getLsbD t

/-- A Caliper completion (R396). -/
def State.calDone (s : State) (r : Req) (status verdict flags detail dis cycles : Nat) : State :=
  s.completeAs r status verdict flags (leBytes 4 detail ++ leBytes 4 dis ++ leBytes 8 cycles ++ zeros 8)

/-- A run's coverage in the run table: terms offered, terms checked, disagreements, skips (R379). -/
def State.runCov (s : State) (run site : Nat) (f : Nat × Nat × Nat × Nat → Nat × Nat × Nat × Nat) : State :=
  { s with cal := { s.cal with runs := s.cal.runs.map fun x =>
      if x.run = run ∧ run ≠ 0 then { x with cov := Tbl.set x.cov site (f (Tbl.get (0, 0, 0, 0) x.cov site)) } else x } }

/-! ## Tiles and the scratch pool (R367, R368, R370) -/

/-- The scratch pool: 24 MB. -/
def scratchPool : Nat := 24 * 2 ^ 20

/-- The largest block of a descriptor's result, and the scratch that a job over it reserves (R368): 88 bytes per element and two chunks of
operands, each of at most 512 k positions. A block has up to 128 columns, and as many rows as 16,384 elements and the pool allow (DESIGN
CHOICE, log 90; the worked case of R380 gives 1.625 MB for 128 x 128 elements of E4M3). -/
def blockShape (d : Bytes) : Nat × Nat × Nat :=
  let k := if u8 d 0 ≤ 2 then min 512 (dK d) else 1
  let cols := min (dN d) 128
  let wide := if u8 d 0 = 3 then fmtWidth (dFmtA d) + fmtWidth (dFmtB d) else fmtWidth (dFmtA d)
  let line := (if u8 d 0 ≤ 2 then k else cols) * wide
  let fixed := if u8 d 0 = 1 then 2 * ((cols * k * fmtWidth (dFmtB d) + 7) / 8) else 0
  let row := 88 * cols + 2 * ((line + 7) / 8)
  let rows := max 1 (min (min (dM d) (16384 / cols)) ((scratchPool - fixed) / row))
  (rows, cols, rows * row + fixed)

def descScratch (d : Bytes) : Nat := (blockShape d).2.2

/-- Blocks of a result, across and in all; block b, from the top left, row of blocks by row of blocks (R368, R370; log 90). -/
def blocksWide (d : Bytes) : Nat := (dN d + (blockShape d).2.1 - 1) / (blockShape d).2.1
def resultBlocks (d : Bytes) : Nat := (dM d + (blockShape d).1 - 1) / (blockShape d).1 * blocksWide d
def blockPart (d : Bytes) (b : Nat) : ResPart :=
  let r0 := b / blocksWide d * (blockShape d).1
  let c0 := b % blocksWide d * (blockShape d).2.1
  ⟨r0, min (blockShape d).1 (dM d - r0), c0, min (blockShape d).2.1 (dN d - c0)⟩

/-- Products per lane and cycle by operand format, times 4 (R367). -/
def laneRate (f : Nat) : Nat := if f = 1 then 1 else if f = 2 ∨ f = 3 then 4 else if f = 8 ∨ f = 10 then 32 else 16

/-- Tile compute cycles of a job over a part of a descriptor's result, from the rates of R367: a packet of c takes its 2 cycles beside the
products. Where the work does not fill its last cycle the manual gives no rounding: a free value, of operation, formats and shape alone
(R370). -/
def jobCycles (d : Bytes) (rows cols : Nat) : Nat :=
  let el := rows * cols
  let r : Nat × Nat :=
    if u8 d 0 = 1 then (4 * el * dK d, 128 * min (laneRate (dFmtA d)) (laneRate (dFmtB d)))
    else if u8 d 0 = 2 then (if dFmtA d = 15 then (2 * el * dK d, 1) else (el * dK d, 128))
    else if u8 d 0 = 5 ∨ u8 d 0 = 6 then (el, 2)
    else if dFmtA d = 15 then (2 * el, 1)
    else (el * (if u8 d 0 = 3 ∧ u64 d 0x30 ≠ 0 then 2 else 1), 128)
  let c := if u8 d 0 = 1 ∧ u64 d 0x38 ≠ 0 ∧ dFmtC d = 15 then 2 * el else 0
  if r.1 % r.2 = 0 then r.1 / r.2 + c
  else Config.jobCycles [u8 d 0, dFmtA d, dFmtB d, dFmtC d, dOut d, bitAt (u64 d 0x30 != 0) 0 + bitAt (u64 d 0x38 != 0) 1, rows, cols, dK d]

/-- Elements that an entry's ended blocks have written: DETAIL of a COMPUTE (R396). -/
def Check.written (c : Check) : Nat :=
  if c.comp then (((List.range (resultBlocks c.desc)).filter fun b => !c.blocks.contains b).map fun b =>
    (blockPart c.desc b).nr * (blockPart c.desc b).nc).foldl (· + ·) 0 else 0

/-- CYCLES of an entry: those of its ended jobs (R396). -/
def Check.cycles (c : Check) : Nat :=
  if c.comp then (((List.range (resultBlocks c.desc)).filter fun b => !c.blocks.contains b).map fun b =>
    jobCycles c.desc (blockPart c.desc b).nr (blockPart c.desc b).nc).foldl (· + ·) 0
  else jobCycles c.desc (dM c.desc) (dN c.desc) * ([c.r1, c.r2, c.r3].filter fun b => !b.isEmpty).length

/-- The results that a check's first jobs form: r1, or the blocks of a COMPUTE still to be formed. -/
def Check.parts (c : Check) : List Nat := if c.comp then c.blocks else [1]

/-- The scratch of a Gauge invocation: that of its largest layer as a DOT of one column (R368, R390; log 90). -/
def imageScratch (b : Bytes) : Nat :=
  ((List.range (u8 b 6)).map fun l =>
    let o := 0x20 + 16 * l
    descScratch ([1, BitVec.ofNat 8 (u8 b (o + 4)), 1, 0, 1, 0, 0, 0] ++ leBytes 4 (u16 b (o + 2)) ++ leBytes 4 1 ++ leBytes 4 (u16 b o))).foldl
      max 0

/-- A result of a check is being formed. -/
def State.forming (s : State) (id part : Nat) : Bool := s.cal.busy.any fun j => j.rank != 4 && j.id == id && j.part == part

/-- Recomputes of a check that wait for a tile (R382). -/
def State.recomputes (s : State) (c : Check) : List CalJob :=
  if c.stage = 0 then []
  else ([(2, c.r2), (3, c.r3)].filter fun p => p.2.isEmpty && !s.forming c.id p.1).map fun p =>
    ⟨0, 1, c.id, p.1, descScratch c.desc, 0⟩

/-- Jobs that wait for a tile, in the order in which tiles take them (R370). -/
def State.calReady (s : State) : List CalJob :=
  let first (entry : Bool) : List CalJob :=
    (s.cal.checks.filter fun c => c.stage == 0 && c.req.isSome == entry).flatMap fun c =>
      (c.parts.filter fun p => !s.forming c.id p).map fun p => ⟨0, if entry then 3 else 2, c.id, p, descScratch c.desc, 0⟩
  s.cal.checks.flatMap s.recomputes ++ first false ++ first true ++
    s.cal.gaugeWait.map fun n => ⟨0, 4, n, 0, imageScratch (Tbl.get [] s.gimg n), 0⟩

/-- A tile may take a job: a recompute needs another tile than each of the check's results (R382). -/
def State.tileFits (s : State) (t : Nat) (j : CalJob) : Bool :=
  j.rank != 1 || (s.cal.checks.find? fun c => c.id == j.id).all fun c =>
    t != c.t1 && (c.r2.isEmpty || t != c.t2) && (c.r3.isEmpty || t != c.t3)

/-- Scratch that the running jobs hold. -/
def State.scratchHeld (s : State) : Nat := (s.cal.busy.map CalJob.bytes).foldl (· + ·) 0

/-- A free tile takes the next job, if its reservation fits in the pool (R368, R370). -/
def State.tileTakes (s : State) (t : Nat) : State :=
  if s.cal.busy.any fun j => j.tile == t then s
  else match s.calReady.find? (s.tileFits t) with
    | none => s
    | some j =>
      if s.scratchHeld + j.bytes ≤ scratchPool then
        { s with cal := { s.cal with busy := s.cal.busy ++ [{ j with tile := t }]
                                     gaugeWait := if j.rank = 4 then s.cal.gaugeWait.erase j.id else s.cal.gaugeWait } }
      else s

/-- Whenever usable tiles are free they take the next jobs, the lowest-numbered tile first (R370), once Caliper's clock is granted (R35,
R367). -/
def State.calNext (s : State) : State :=
  if s.calStopped || !s.pwr.clkGrant.getLsbD 2 then s else s.usableTiles.foldl State.tileTakes s

/-- The job that a tile runs over a check. -/
def State.tileRuns (s : State) (t id : Nat) : Option CalJob := s.cal.busy.find? fun j => j.tile == t && j.rank != 4 && j.id == id

/-- The job of a tile changes. -/
def State.setTileJob (s : State) (j : CalJob) : State :=
  { s with cal := { s.cal with busy := s.cal.busy.map fun x => if x.tile = j.tile then j else x } }

/-- A tile's job has ended. -/
def State.tileFree (s : State) (t : Nat) : State := { s with cal := { s.cal with busy := s.cal.busy.filter fun j => j.tile != t } }

/-- A check is gone, and the jobs over it with it. -/
def State.dropCheck (s : State) (id : Nat) : State :=
  { s with cal := { s.cal with checks := s.cal.checks.filter fun x => x.id != id
                               busy := s.cal.busy.filter fun j => j.rank == 4 || j.id != id } }

/-- A check ends with no verdict: an offer's is counted under a coverage key, but where Caliper fences itself (R385); an entry completes
with a status. -/
def State.endCheck (s : State) (c : Check) (key code : Nat) : State :=
  let s := s.dropCheck c.id
  match c.req with
  | some r => s.calDone r code 0 0 c.written 0xFFFFFFFF c.cycles
  | none => if code = 0x80 then s else
    let s := s.bumpCov c.site (descOp c.desc) key
    if key = 5 then s.runCov c.run c.site fun x => (x.1, x.2.1, x.2.2.1, x.2.2.2 + 1) else s

/-- Every check ends with no verdict (R383, R385): offers SKIPPED unless Caliper is fenced, entries with a status, those whose descriptor
is being read again among them. -/
def State.endChecks (s : State) (code : Nat) : State :=
  let again := s.cal.again
  let s := s.cal.checks.foldl (fun s c => s.endCheck c 5 code) { s with cal := { s.cal with again := [] } }
  again.foldl (fun (s : State) r => s.calDone r code 0 0 0 0xFFFFFFFF 0) s

/-- Every Gauge invocation and load in flight ends with a status, and the image of a slot unloaded meanwhile goes (R200, R320, R391,
R396). -/
def State.endGauge (s : State) (status : Nat) : State :=
  let s : State := { s with cal := { s.cal with gaugeWait := [], busy := s.cal.busy.filter fun j => j.rank != 4 } }
  (List.range 8).foldl (fun (s : State) n =>
    let g : GaugeSlot := Tbl.get {} s.cal.gauge n
    let s := g.jobs.foldl (fun (s : State) j => match j.2 with
      | some (r, _) => s.calDone r status 0 0 0 0xFFFFFFFF 0
      | none => s) s
    let s := g.loading.elim s fun r => s.calDone r status 0 0 0 0xFFFFFFFF 0
    let s := if g.loaded || g.jobs.isEmpty then s else { s with gimg := Tbl.del s.gimg n }
    { s with cal := { s.cal with gauge := Tbl.set s.cal.gauge n { g with jobs := [], loading := none } } }) s

/-- Everything that Caliper carries out ends with a status. -/
def State.calStop (s : State) (status : Nat) : State := (s.endChecks status).endGauge status

/-- A site is removed or leaves RUNNING: the fetches of its checks fail, with no verdict (R385). -/
def State.calSiteLeft (s : State) (n : Nat) : State :=
  ((s.cal.checks.filter fun c => c.site == n && c.req.isNone).foldl (fun s c => (s.endCheck c 7 0x83).calSiteEvent n 6 1 c.run) s).calNext

/-- CAL_AUDIT_KEY in force: as written, or as the Plinth derived it at power-on (R378). -/
def State.auditKey (s : State) : BitVec 256 := s.cal.key.getD (Config.freshAuditKey s.led.powerSeq)

/-- RUN_SEED of a RUN_ID first seen now: bytes 0 to 31 of SHA-384 of the key and the RUN_ID (R378). -/
def State.newSeed (s : State) (run : Nat) : BitVec 256 :=
  BitVec.ofNat 256 (Config.sha384 (leBytes 32 s.auditKey.toNat ++ leBytes 8 run)).toNat

/-- RUN_SEED of a run: as latched when it was first seen, by an offer or by the Journal engine (R378). -/
def State.runSeed (s : State) (run : Nat) : BitVec 256 :=
  match Tbl.find? s.cal.seeds run with
  | some x => x
  | none => match s.jrn.runs.find? fun x => x.run == run with
    | some x => x.seed
    | none => s.newSeed run

/-- A RUN_ID is seen: its seed is latched, and holds whatever leaves the run table (R378). -/
def State.latchSeed (s : State) (run : Nat) : State :=
  { s with cal := { s.cal with seeds := Tbl.set s.cal.seeds run (s.runSeed run) } }

end Sys2Proof.Machine
end

