-- ==== Sys2Proof/Machine/JrnCore.lean ====
section
/-!
DEFINITION. Machine/JrnCore.lean: the Journal engine's log, the folding and closing of sequences, and the sealing of run
manifests (R401 to R407, R411, R414).
-/
namespace Sys2Proof.Machine

def State.jpair (s : State) (p : Nat) : JPair := Tbl.get {} s.jrn.pairs p
def State.setJpair (s : State) (p : Nat) (x : JPair) : State := { s with jrn := { s.jrn with pairs := Tbl.set s.jrn.pairs p x } }

/-- One of the seven counters of R416: BAD 0, DUP 1, SEQ_FULL 2, LATE 3, OVERRUN 4, SPOT_FAIL 5, DROPPED 6. -/
def State.bumpJ (s : State) (k : Nat) : State :=
  s.bump 11 k (Tbl.get {} s.jrn.cnts k) fun c s => { s with jrn := { s.jrn with cnts := Tbl.set s.jrn.cnts k c } }

/-- A JOURNAL_EVENT record (R416). -/
def State.jEvent (s : State) (source kind run seq count : Nat) : State :=
  s.record 0x1F source kind (if source < 8 then some source else none) (leBytes 8 run ++ leBytes 8 seq ++ leBytes 4 count ++
    leBytes 4 s.jrn.epoch ++ zeros 4)

/-! ## The log (R405 to R407, R419) -/

/-- A channel serves the log. -/
def State.chServes (s : State) (n : Nat) : Bool := (s.ch n).st == .inService || (s.ch n).st == .filling

/-- A pair has a channel that serves. -/
def State.pairServes (s : State) (p : Nat) : Bool := s.chServes (2 * p) || s.chServes (2 * p + 1)

/-- One GB of the memory chapters (R418: 256 GB is 0x40_0000_0000). -/
def gb : Nat := 0x40000000

/-- J of a pair in bytes: that of the smaller DIMM fitted, whether its channel serves or not (R419); a refused module counts for nothing,
and with no channel of the pair in service there is no ring. -/
def State.ringSize (s : State) (p : Nat) : Nat :=
  let fitted := [2 * p, 2 * p + 1].filter fun n => (s.ch n).st != .absent && (s.ch n).cap != 0 && (s.ch n).cause != 2
  match fitted.map fun n => (s.ch n).cap with
  | [] => 0
  | a :: r => if !s.pairServes p then 0 else min (s.jrn.regionNow * gb) ((r.foldl min a - 16 * gb) / gb * gb)

/-- An entry of the log: header, body padded to whole units, CRC-32C over the entry with its field taken as 0 (R405). -/
def jEntry (kind units seq epoch : Nat) (body : Bytes) : Bytes :=
  let h := leBytes 1 kind ++ [0] ++ leBytes 2 units ++ leBytes 4 seq ++ leBytes 4 epoch
  let b := (body ++ zeros (64 * units)).take (64 * units - 16)
  h ++ leBytes 4 (crc32c (h ++ zeros 4 ++ b)) ++ b

/-- An entry is written to every serving channel of a pair; it overwrites the oldest, and what it overwrites beyond the
export cursor counts in JRN_CNT_OVERRUN (R406, R407). -/
def State.jAppend (s : State) (p kind : Nat) (body : Bytes) : State :=
  let x := s.jpair p
  let units := (16 + body.length + 63) / 64
  let len := 64 * units
  let size := s.ringSize p
  if size < len then s else
    let off := if x.head + len ≤ size then x.head else 0
    let e := jEntry kind units x.seq s.jrn.epoch body
    let hit (o : JEntry) : Bool := decide (o.off < off + len) && decide (off < o.off + o.bytes.length)
    let lost := (x.log.filter fun o => hit o && decide (x.exported ≤ o.pos)).length
    let y := { x with log := ⟨x.written, off, e⟩ :: x.log.filter (fun o => !hit o), head := off + len
                      seq := (x.seq + 1) % 2 ^ 32, written := x.written + len
                      overEp := decide (0 < lost) }
    let s := s.setJpair p y
    let s := ([2 * p, 2 * p + 1].filter s.chServes).foldl (fun (s : State) n => s.dwrite (chSize * n + off) e) s
    if lost = 0 then s else
      let s := (List.range lost).foldl (fun s _ => s.bumpJ 4) s
      let s := { s with jrn := { s.jrn with overrun := true } }
      if x.overEp then s else s.jEvent 0xFFFF 5 0 0 lost

/-! ## Runs (R411) -/

/-- The Journal engine comes to know a run. -/
def State.jrnSee (s : State) (run : Nat) : State :=
  if run = 0 ∨ s.jrn.runs.any fun x => x.run == run then s
  else ({ s with jrn := { s.jrn with runs := s.jrn.runs ++ [{ run := run, seed := s.runSeed run }] } } : State).latchSeed run

def State.jrnRun (s : State) (run : Nat) : JRun := (s.jrn.runs.find? fun x => x.run == run).getD { run := run, seed := s.runSeed run }
def State.setJrnRun (s : State) (x : JRun) : State :=
  { s with jrn := { s.jrn with runs := s.jrn.runs.map fun y => if y.run = x.run then x else y } }

def State.setSeq (s : State) (q : JSeq) : State :=
  { s with jrn := { s.jrn with seqs := s.jrn.seqs.map fun y => if y.slot = q.slot then q else y } }

/-- FLAGS of a sequence entry (R411). -/
def JSeq.flags (q : JSeq) : Nat :=
  bitAt q.final 0 + bitAt q.holes 1 + bitAt q.timeout 2 + bitAt q.conflict 3 + bitAt q.open_ 4 + bitAt q.noInput 5

/-- D(-1) of a sequence, with the digest of its input as bound so far (R400, R403). -/
def JSeq.dFirst (q : JSeq) : Digest :=
  Config.sha384 (leBytes 8 q.id ++ leBytes 8 q.run ++ leBytes 1 q.site ++ digestBytes (q.input.getD 0))

/-- The current D: a sequence with no block keeps D(-1) (R403). -/
def JSeq.dNow (q : JSeq) : Digest := if q.started then q.d else q.dFirst

/-- The sequence entry of 160 bytes (R411). -/
def JSeq.entry (q : JSeq) : Bytes :=
  leBytes 8 q.id ++ leBytes 1 q.site ++ leBytes 1 q.flags ++ zeros 2 ++ leBytes 4 q.tokens ++ digestBytes (q.input.getD 0) ++
    digestBytes q.dNow ++ digestBytes q.c

/-! ## Folding (R402, R403) -/

/-- D(-1): formed with the input's digest when token 0 arrives, or at the first fold (R400, R403). -/
def JSeq.start (q : JSeq) : JSeq :=
  if q.started then q else
    { q with started := true, noInput := q.noInput || q.input.isNone, input := some (q.input.getD 0), c := 0
             d := q.dFirst }

/-- The last index of a block (R402). -/
def JSeq.lastOf (q : JSeq) (b : Nat) : Nat :=
  match q.last with
  | some l => if l / 1024 = b then l else 1024 * b + 1023
  | none => 1024 * b + 1023

/-- Records of a block, in order. -/
def JSeq.block (q : JSeq) (b : Nat) : List Token :=
  sortBy (fun (x y : Token) => decide (x.idx ≤ y.idx)) (q.recs.filter fun t => t.idx / 1024 == b)

/-- An entry of a block, with or without its POINTING_TIME (R403). -/
def Token.bytes (t : Token) (withTime : Bool) : Bytes :=
  leBytes 4 t.idx ++ leBytes 4 t.id ++ leBytes 8 t.seed ++ if withTime then leBytes 8 t.time else []

/-- The next block of a sequence folds: chains, log entries, holes (R402 to R405). -/
def State.foldBlock (s : State) (slot : Nat) : State :=
  match s.jrn.seqs.find? fun q => q.slot == slot with
  | none => s
  | some q =>
    let q := q.start
    let b := q.blocks
    let ts := (q.block b).filter fun t => decide (t.idx ≤ q.lastOf b)
    let n := q.lastOf b - 1024 * b + 1
    let holes := (List.range n).filter fun i => !ts.any fun t => t.idx == 1024 * b + i
    let h := leBytes 128 (maskOf holes)
    let d := Config.sha384 (digestBytes q.d ++ leBytes 4 b ++ h ++ ts.flatMap fun t => t.bytes true)
    let c := Config.sha384 (digestBytes q.c ++ leBytes 4 b ++ h ++ ts.flatMap fun t => t.bytes false)
    let q := { q with blocks := b + 1, recs := q.recs.filter fun t => t.idx / 1024 != b
                      holes := q.holes || !holes.isEmpty, tokens := q.tokens + ts.length, d := d, c := c }
    let s := s.setSeq q
    let p := q.slot % 2
    -- the value 3 has no meaning in R404: what it retains is open (log 97)
    let keep := if Tbl.get 0 s.jrn.keep q.site = 3 then Config.partPick 404 % 3 else Tbl.get 0 s.jrn.keep q.site
    let s := s.jAppend p 1 (leBytes 8 q.id ++ leBytes 8 q.run ++ leBytes 4 b ++ leBytes 2 ts.length ++ leBytes 1 q.site ++
      leBytes 1 q.flags ++ digestBytes d ++ digestBytes c ++ h ++ zeros 56)
    let s := if keep = 0 then s else
      s.jAppend p 2 (ts.flatMap fun t => if keep = 1 then leBytes 4 t.id else t.bytes true)
    if holes.isEmpty then s else s.jEvent q.site 2 q.run q.id holes.length

/-- A block must fold of its own: it is complete, or a record lies two blocks on (R402). -/
def JSeq.blockDue (q : JSeq) (b : Nat) : Bool :=
  let n := q.lastOf b - 1024 * b + 1
  let have_ := (q.recs.filter fun t => t.idx / 1024 == b && decide (t.idx ≤ q.lastOf b)).length
  (q.last.all fun l => decide (b ≤ l / 1024)) && (decide (n ≤ have_) || q.recs.any fun t => decide (b + 2 ≤ t.idx / 1024))

/-- The next block must fold: of its own, or as the earlier one of a block that must (R402). -/
def JSeq.mustFold (q : JSeq) : Bool := (q.blocks :: q.recs.map fun t => t.idx / 1024).any fun b => decide (q.blocks ≤ b) && q.blockDue b

/-! ## Sealing (R411) -/

/-- The job of a JOB_ID: closed and handed over, or still in the table (R231). -/
def State.jobOf (s : State) (id : Nat) : Option Job :=
  if id = 0 then none
  else match s.met.handed.find? fun j => j.id == id with
    | some j => some j
    | none => (s.openJob id).map s.job

/-- A site entry of a manifest (R411). -/
def State.manifestSite (s : State) (x : JRun) (job : Option Job) (n : Nat) : Bytes :=
  let w : Bytes := Tbl.get [] x.weights n
  let c := Tbl.get (0, 0, 0, 0) x.cov n
  digestBytes (s.site n).imageDigest ++ (slice w 0x30 48 ++ zeros 48).take 48 ++
    leBytes 32 (Tbl.get 0 s.pnt.dumap n : BitVec 256).toNat ++
    leBytes 8 (job.elim 0 fun j => (Tbl.get ({} : Energy) j.energy n).uj.toNat) ++ leBytes 8 c.1 ++ leBytes 8 c.2.1 ++
    leBytes 4 c.2.2.1 ++ leBytes 4 c.2.2.2

/-- The bytes of a run's manifest before its signature block (R411). -/
def State.manifest (s : State) (x : JRun) : Bytes :=
  let qs := if s.hasDram then sortBy (fun (a b : JSeq) => decide (a.id ≤ b.id)) (s.jrn.seqs.filter fun q => q.run == x.run) else []
  let job := s.jobOf x.jobId
  let est := x.jobId ≠ 0 ∧ (job.all fun j => j.st ≠ 2 ∨ j.estimated)
  let mirror := (s.jpair 0).mirrorLost || (s.jpair 1).mirrorLost || x.mirrorLost
  let flags := bitAt (qs.any JSeq.holes) 0 + bitAt (qs.any JSeq.open_) 1 + bitAt (x.weightsBad != 0) 2 +
    bitAt (decide est) 3 + bitAt x.restarted 4 + bitAt mirror 5 + bitAt (s.jrn.overrun || x.overrun) 6 + bitAt (!s.hasDram) 7
  let launch := x.launch.getD (zeros 192)
  let mask := u8 launch 0x19 ||| maskOf (qs.map JSeq.site)
  let entries := qs.flatMap JSeq.entry
  leBytes 4 0x4E414D52 ++ leBytes 2 1 ++ leBytes 1 flags ++ leBytes 1 mask ++ leBytes 8 x.run ++ leBytes 8 x.jobId ++
    leBytes 12 Config.moduleSerial.toNat ++ leBytes 4 s.jrn.manifestSeq ++ leBytes 4 s.jrn.epoch ++ leBytes 4 qs.length ++
    leBytes 8 s.pnt.count ++ zeros 8 ++ digestBytes x.program ++
    digestBytes (Config.sha384 ((List.range 8).flatMap fun n => (slice (Tbl.get [] x.weights n) 0x30 48 ++ zeros 48).take 48)) ++
    digestBytes (Config.sha384 entries) ++ digestBytes (s.boot.run.elim 0 RunImage.digest) ++
    digestBytes (s.maq.live.elim 0 Structure.digest) ++
    digestBytes (if x.dis = [] then 0 else Config.sha384 x.dis.flatten) ++ leBytes 32 x.seed.toNat ++
    ((List.range 8).flatMap fun n => leBytes 1 (Tbl.get 0 x.rates n)) ++ leBytes 4 x.dis.length ++ leBytes 4 x.spotChunks ++
    launch ++ ((List.range 8).flatMap fun n => s.manifestSite x job n) ++ zeros 48 ++ entries

/-- A run's manifest is sealed: its closed slots are freed; without DIMMs it is held in the control buffers, 64 at most
(R401, R411, R414). -/
def State.sealRun (s : State) (run : Nat) : State :=
  let x := s.jrnRun run
  if x.manifest.isSome then s else
    let m := s.manifest x
    let s := s.setJrnRun { x with manifest := some m }
    let s := { s with jrn := { s.jrn with manifestSeq := (s.jrn.manifestSeq + 1) % 2 ^ 32
                                          seqs := s.jrn.seqs.filter fun q => q.run != run || q.open_ } }
    if s.hasDram then s
    else
      let past := decide (64 ≤ s.jrn.held.length) && (s.jrn.held.head?.any fun h => !h.2.2)
      let s := { s with jrn := { s.jrn with held := (if 64 ≤ s.jrn.held.length then s.jrn.held.drop 1 else s.jrn.held) ++ [(run, m, false)] } }
      if past then s.bumpJ 4 else s

/-- A run is sealed once its launch record has closed, or was lost, and every one of its sequences has closed (R411). -/
def State.trySeal (s : State) (run : Nat) : State :=
  match s.jrn.runs.find? fun x => x.run == run with
  | none => s
  | some x =>
    if x.manifest.isNone && (x.launch.isSome || x.restarted) && !(s.jrn.seqs.any fun q => q.run == run && q.open_) then s.sealRun run
    else s

/-! ## Closing (R401) -/

/-- Every block with a record folds, in order. -/
def State.foldRest (slot : Nat) : Nat → State → State
  | 0, s => s
  | f + 1, s => match s.jrn.seqs.find? fun q => q.slot == slot with
    | some q => if q.recs.any fun t => decide (q.blocks ≤ t.idx / 1024) then State.foldRest slot f (s.foldBlock slot) else s
    | none => s

/-- A slot closes: its SEQ_CLOSE entry is written; a slot of RUN_ID 0, or of a run already sealed, is freed (R401, R405). -/
def State.closeSeq (s : State) (slot : Nat) (timeout lost : Bool) : State :=
  let s := State.foldRest slot 16385 s
  match s.jrn.seqs.find? fun q => q.slot == slot with
  | none => s
  | some q =>
    if !q.open_ then s else
      let q := { q.start with open_ := false, timeout := timeout, holes := q.holes || lost }
      let s := (s.setSeq q).jAppend (slot % 2) 3 q.entry
      let sealed := (s.jrnRun q.run).manifest.isSome
      if q.run = 0 ∨ sealed then { s with jrn := { s.jrn with seqs := s.jrn.seqs.filter fun y => y.slot != slot } }
      else s.trySeal q.run

/-- A site leaves RUNNING or DEGRADED: its sequences close with TIMEOUT (R401). -/
def State.jrnSiteLeft (s : State) (n : Nat) : State :=
  (s.jrn.seqs.filter fun q => q.site == n && q.open_).foldl (fun s q => s.closeSeq q.slot true false) s

/-- A run's launch record closes: it is handed over, the run leaves the run table with its seed, rates and coverage, and
its manifest may be sealed (R345, R379, R411). -/
def State.jrnRunClosed (s : State) (a : ArmEntry) (record : Bytes) : State :=
  let s := s.jrnSee a.runId
  let e := s.cal.runs.find? fun x => x.run == a.runId
  let x := { s.jrnRun a.runId with launch := some record, program := a.program, jobId := a.jobId
                                   rates := e.elim [] RunEnt.rates, cov := e.elim [] RunEnt.cov }
  let s := s.setJrnRun x
  ({ s with cal := { s.cal with runs := s.cal.runs.filter fun y => y.run != a.runId } }).trySeal a.runId

/-- A channel of a pair left service: MIRROR_LOST, until the channel is back and copied; with both out, the pair's open
sequences close (R406). -/
def State.mirrorCheck (s : State) (p : Nat) : State :=
  let x := s.jpair p
  let whole (n : Nat) : Bool := (s.ch n).st == .inService || ((s.ch n).st == .filling && !x.mirrorLost)
  let bad := !(whole (2 * p) && whole (2 * p + 1))
  let s := s.setJpair p { x with mirrorLost := bad }
  let s := if bad && !x.mirrorLost then s.jEvent 0xFFFF 4 0 0 p else s
  if s.pairServes p then s
  else (s.jrn.seqs.filter fun q => q.slot % 2 == p && q.open_).foldl (fun s q => s.closeSeq q.slot true true) s

end Sys2Proof.Machine
end

