-- ==== Sys2Proof/Machine/Leaving.lean ====
section
/-!
DEFINITION. Machine/Leaving.lean: closing a launch record (R345), and everything that follows when a site leaves RUNNING or
DEGRADED (R231, R341, R345, R385, R401).
-/
namespace Sys2Proof.Machine

/-- A launch record closes (R345): handed to the Journal engine, and the run's Still mode ends (R262). `why`: 1 CLOSE,
2 JOB_END, 3 sites left. -/
def State.closeArm (s : State) (i why : Nat) : State :=
  let x := { (s.arm i).flushChoices with st := 3, still := false, closeAt := s.pnt.count, closeWhy := why }
  let r := s.launchRecord { x with st := (s.arm i).st }
  let s := s.setArm i { x with record := r }
  let s := ({ s with pnt := { s.pnt with closed := (x.runId, r) :: s.pnt.closed } }).jrnRunClosed x r
  (List.range 8).foldl (fun s n =>
    let other := (List.range 16).any fun j => (s.arm j).st == 2 && (s.arm j).timingDet && (s.arm j).siteMask.testBit n
    if x.siteMask.testBit n && !other then
      let s := s.setCapS n { s.capS n with still := false, stillCut := false }
      let c : ChiselSite := Tbl.get {} s.chi n
      { s with chi := Tbl.set s.chi n { c with still := false, stillCut := false } }
    else s) s

/-- A site has left RUNNING: the runs whose every participating site has left close (R345), but not before N, where each site is
reported in NOT_RELEASED (R341; DEDUCED, log 119). -/
def State.armsLeft (s : State) (n : Nat) : State :=
  (List.range 16).foldl (fun s i =>
    let x := s.arm i
    if (x.st = 1 ∨ x.st = 2) ∧ x.launched ∧ x.siteMask.testBit n then
      let x := { x with left := x.left ||| 2 ^ n }
      let s := s.setArm i x
      if x.reached ∧ x.left &&& x.siteMask = x.siteMask then s.closeArm i 3 else s
    else s) s

/-- A site has sent JOB_END of a job: the runs whose every participating site has done so close (R345). -/
def State.armsEnded (s : State) (n id : Nat) : State :=
  (List.range 16).foldl (fun s i =>
    let x := s.arm i
    if (x.st = 1 ∨ x.st = 2) ∧ x.launched ∧ x.siteMask.testBit n ∧ x.jobId ≠ 0 ∧ x.jobId = id then
      let x := { x with ended := x.ended ||| 2 ^ n }
      let s := s.setArm i x
      if x.ended &&& x.siteMask = x.siteMask then s.closeArm i 2 else s
    else s) s

/-- A site leaves RUNNING: its launches and its fetches take notice (R341, R345, R385). -/
def State.leftRunning (s : State) (n : Nat) : State := (s.armsLeft n).calSiteLeft n

/-- A site leaves RUNNING and DEGRADED both: its part in its job ends (R231), and its sequences close (R401). -/
def State.siteLeft (s : State) (n : Nat) : State := ((s.endJobOn n false).leftRunning n).jrnSiteLeft n

end Sys2Proof.Machine
end

