-- ==== Sys2Proof/Machine/Rails.lean ====
section
/-!
DEFINITION. Machine/Rails.lean: the sequencers' shared operations: judging a rail (R149), the rail state table (R153),
faults and their reactions (R151, R154 to R157), module groups (R160), and the site state table's own moves (R164).
-/
namespace Sys2Proof.Machine

/-! ## Judgements -/

/-- A rail is good (R149). -/
def State.railGood (s : State) (g : Nat) : Bool :=
  let r := s.rail g
  match s.chanOf g 1 with
  | some c => r.pg && r.qualified && r.fresh && !(s.chan c).stale && !s.belowFault c (s.chan c).value &&
      !s.aboveFault c (s.chan c).value
  | none => false

/-- A rail is off: power-good deasserted and the latest voltage sample below OFF_LEVEL (R149). -/
def State.railOff (s : State) (g : Nat) : Bool :=
  match s.chanOf g 1 with
  | some c => !(s.rail g).pg && !(s.chan c).stale && decide ((s.chan c).value < (ndOffLevel.val (s.node g)))
  | none => false

/-- A rail that stands off for those that wait on it: OFF, BACKOFF (off since RETRY_FALL) or DOWNFAULT (R153). -/
def RailSt.outOfWay (x : RailSt) : Bool := match x with
  | .off | .downfault | .backoff => true
  | _ => false

/-- Rails that depend on a rail through UP_DEPS, directly or through others (R155). -/
def State.dependents (s : State) (g : Nat) : Nat :=
  let base := scopeBase g
  closeUp (fun k => if s.used (base + k) then s.upDeps (base + k) else 0) (scopeSize g) (scopeSize g) (2 ^ (g - base))

/-- A rail in retry has `g` among its dependents (R155). -/
def State.retryAbove (s : State) (g : Nat) : Bool :=
  (List.range (scopeSize g)).any fun k => (s.rail (scopeBase g + k)).inRetry && scopeBase g + k != g &&
    (s.dependents (scopeBase g + k)).testBit (g - scopeBase g)

/-- Every rail of a mask, within the scope of `g`, satisfies a test. -/
def State.allDeps (s : State) (g mask : Nat) (p : Rail → Bool) : Bool :=
  (bitsOf (scopeSize g) mask).all fun k => p (s.rail (scopeBase g + k))

/-! ## The rail state table: moves that need no timer (R153) -/

/-- Enable asserted; RISE_TIMEOUT runs (R153). -/
def Rail.enableNow (r : Rail) : Rail := { r with st := .rising, enable := true, changes := 0, chatterDone := false, pmbusTries := 0 }
/-- Enable deasserted; FALL_TIMEOUT runs (R153). -/
def Rail.disableNow (r : Rail) (st : RailSt) : Rail :=
  { r with st := st, enable := false, changes := 0, chatterDone := false, pmbusTries := 0 }

/-- PAGE, where the node names one, and then OPERATION 0x80 or 0x00, to the device of a PMBus rail (R148). -/
def State.pmbusWrite (s : State) (g : Nat) (on : Bool) : State :=
  let n := s.node g
  if ndEnableKind.nat n = 1 then
    s.emit (.pmbus g (ndPmbusAddr.nat n) (if ndPmbusPage.nat n = 0xFF then none else some (ndPmbusPage.nat n)) (if on then 0x80 else 0))
  else s

/-- A retried rail is good again: its dependents that have completed their QUALIFY are masked no longer (R155). -/
def State.unmask (s : State) (g : Nat) : State :=
  (bitsOf (scopeSize g) (s.dependents g)).foldl (fun (s : State) k =>
    let d := scopeBase g + k
    let r := s.rail d
    if r.masked && r.qualified && r.pg && !s.retryAbove d then s.setRail d { r with masked := false } else s) s

/-- A rail moves: into RISING its device is told to enable and into FALLING or RETRY_FALL to disable (R148, R153); a rail in retry
that is GOOD unmasks its dependents (R155). -/
def State.moveRail (s : State) (g : Nat) (r : Rail) : State :=
  let was := s.rail g
  let s := s.setRail g (if was.st = .good ∧ r.st ≠ .good then { r with leftGood := some s.plinth } else r)
  let s := if r.st = .rising ∧ was.st ≠ .rising then s.pmbusWrite g true
    else if (r.st = .falling ∨ r.st = .retryFall) ∧ was.st ≠ r.st then s.pmbusWrite g false else s
  if r.st = .good ∧ was.inRetry then s.unmask g else s

/-- The move a rail makes now, without a timer, if it makes one. -/
def State.railMove (s : State) (g : Nat) : Option Rail :=
  let r := s.rail g
  let n := s.node g
  match r.st with
  | .waitUp =>
    if r.downReq then some { r with st := .off, downReq := false }
    else if s.allDeps g (s.upDeps g) fun d => d.st == .good then
      some (if ndUpDelay.val n = 0 then r.enableNow else { r with st := .upDelay })
    else none
  | .upDelay => if r.downReq then some { r with st := .off, downReq := false } else none
  | .rising =>
    if r.downReq then some { r with st := .waitDown }
    else if s.railGood g then some { r with st := .good, inRetry := false, masked := r.masked && s.retryAbove g } else none
  | .good => if r.downReq then some { r with st := .waitDown } else none
  | .waitDown =>
    if s.allDeps g (s.downDeps g) fun d => !d.downReq || d.st.outOfWay then
      some (if r.cut || ndDownDelay.val n = 0 then r.disableNow .falling else { r with st := .downDelay })
    else none
  | .falling => if s.railOff g then some { r with st := .off, downReq := false, cut := false } else none
  | .downfault => if s.railOff g then some { r with st := .off, downReq := false, cut := false } else none
  | .retryFall => if s.railOff g then some { r with st := .backoff } else none
  | _ => none

/-- One pass over the rails of a scope. -/
def State.railPass (s : State) (base n : Nat) : State :=
  (List.range n).foldl (fun s k => match s.railMove (base + k) with
    | some r => s.moveRail (base + k) r
    | none => s) s

/-- Passes until every move that needs no timer is made (a rail moves at most through its eleven states). -/
def State.railPasses (s : State) (base n : Nat) : Nat → State
  | 0 => s
  | f + 1 => (s.railPass base n).railPasses base n f

/-- The rails of a scope are ordered down (R153); no sequencer disables a standby rail (R159). -/
def State.orderDown (s : State) (base n mask : Nat) : State :=
  (bitsOf n mask).foldl (fun s k =>
    let r := s.rail (base + k)
    if r.st = .off ∨ (base = 256 ∧ standbyRail k) then s else s.setRail (base + k) { r with downReq := true }) s

/-- The module rails of the groups latched down: they stay down until a module reset (R160). -/
def State.latchedDown (s : State) : Nat := s.seq.groups.foldl (fun m g => if g.2.latched then m ||| g.2.mask.toNat else m) 0

/-- The Survey dies that watch a rail scan at full rate from now on, for which the burst clock is requested (R35, R37). -/
def State.fullRate (s : State) (g : Nat) : State :=
  [1, 2].foldl (fun (s : State) kind => match s.chanOf g kind with
    | some c => ({ s with pwr := { s.pwr with slowScan := setBit s.pwr.slowScan (c / 24) false } } : State).askClock 0
    | none => s) s

/-- USED rails of a scope that are OFF are ordered up (R153), those of a group latched down excepted (R160). -/
def State.orderUp (s : State) (base n mask : Nat) : State :=
  (bitsOf n mask).foldl (fun s k =>
    let r := s.rail (base + k)
    if r.st = .off ∧ s.used (base + k) ∧ ¬ (base = 256 ∧ s.latchedDown.testBit k) then
      (s.setRail (base + k) { r with st := .waitUp, downReq := false, cut := false, masked := false, retryAt := none }).fullRate (base + k) else s) s

def allRails : Nat := 0xFFFFFFFF

/-! ## Site records and moves (R164, R187) -/

/-- SITE_SERIAL of the site's identity ROM as last read (R162). -/
def State.serial (s : State) (n : Nat) : Nat := le (s.site n).rom 0x18 16

/-- Rails of a site whose enable is asserted, as bits. -/
def State.railsOn (s : State) (n : Nat) : Nat := maskOf ((List.range 32).filter fun k => (s.rail (32 * n + k)).enable)

/-- A SITE_EVENT record (R187). -/
def State.siteEvent (s : State) (n kind : Nat) : State :=
  s.record 0x03 n kind (some n)
    (leBytes 1 (s.site n).template ++ zeros 3 ++ leBytes 16 (s.serial n) ++ leBytes 4 (s.railsOn n))

/-- The states in which a site may be metered, telemetered and capped as running. -/
def SiteSt.runs (x : SiteSt) : Bool := x == .running || x == .degraded

/-- A site enters a state. Leaving RUNNING ends its part in launches and fetches (R341, R385), leaving DEGRADED too its part in its job
(R231); entering RUNNING starts the count
toward stale telemetry (R208); OFF, FAULTED and ABSENT end the hazard throttle (R311). -/
def State.siteTo (s : State) (n : Nat) (st : SiteSt) : State :=
  let was := (s.site n).st
  let s := s.setSite n { s.site n with st := st }
  let s := if was.runs && !st.runs then
      let s := s.siteLeft n
      s.setCapS n { s.capS n with telemStale := false }
    else if was = .running && st ≠ .running then s.leftRunning n
    else s
  let s := if st = .off ∨ st = .faulted ∨ st = .absent then s.setCapS n { s.capS n with leakLevel := 0 } else s
  if st = .running ∧ ¬ was.runs then s.setCapS n { s.capS n with telemAt := s.plinth, seen := [] } else s

/-- The site goes to SEQ_DOWN: every rail ordered down in DOWN_DEPS order (R164). -/
def State.siteDownSeq (s : State) (n : Nat) (failedUp : Bool) : State :=
  let s := s.setSite n { s.site n with failedUp := failedUp, downfault := false, cutMask := 0 }
  (s.siteTo n .seqDown).orderDown (32 * n) 32 allRails

/-- Every rail of the site is OFF. -/
def State.siteAllOff (s : State) (n : Nat) : Bool := (List.range 32).all fun k => (s.rail (32 * n + k)).st == .off

/-- Every USED rail of the site is GOOD. -/
def State.siteAllGood (s : State) (n : Nat) : Bool :=
  (List.range 32).all fun k => !s.used (32 * n + k) || (s.rail (32 * n + k)).st == .good

/-- The FAULTED entry of a site, with its record and event. -/
def State.siteFault (s : State) (n : Nat) : State :=
  ((s.siteTo n .faulted).siteEvent n 0x04).event 3 164 n 9

/-- The moves of the site state table that follow from its rails (R164). In hold-up a failed attempt with attempts remaining ends in
OFF (R169). -/
def State.siteSettle (s : State) (n : Nat) : State :=
  let x := s.site n
  match x.st with
  | .seqUp => if s.siteAllGood n then ((s.siteTo n .running).siteEvent n 0x03).event 3 164 n 6 else s
  | .seqDown =>
    if s.siteAllOff n then
      let s := s.setSite n { x with reaction := false }
      if x.downfault then s.siteFault n
      else if x.failedUp then
        if x.attempt < tplAttempts.nat (tplOf (s.sec 0x02) x.template) then
          s.siteTo n (if s.snap.holdup then .off else .retryWait)
        else s.siteFault n
      else s.siteTo n .off
    else s
  | .degraded =>
    if s.siteAllOff n then
      (s.setSite n { x with reaction := false }).siteFault n
    else if x.reaction && (List.range 32).all (fun k => !(s.rail (32 * n + k)).downReq) then
      s.setSite n { x with reaction := false }
    else s
  | _ => s

/-- The matrix entry of a pin in force; none until a structure has been committed (R62, R65). -/
def State.matrixPin (s : State) (k : Nat) : Option Nat := if s.maq.live.isNone then none else some (u32 (s.sec 0x01) (4 * k))

/-- The controller drives a matrix pin: every other pin is high-impedance. A pin is driven where its entry assigns it as an output and
this controller's tray outputs are on; until a commit, and with no structure, none is (R62, R65, R75). -/
def State.matrixDriven (s : State) (k : Nat) : Bool :=
  s.pair.outputs && (s.matrixPin k).any fun e => e / 2 ^ 24 != 0 && (e / 256 % 16 == 3 || e / 256 % 16 == 4)

/-- A TRAY_RESET pin is assigned by the matrix and driven (R62, R63, R65). -/
def State.hasTrayReset (s : State) : Bool :=
  (List.range 640).any fun k => (s.matrixPin k).any (fun e => e / 2 ^ 24 == 0x0F) && s.matrixDriven k

/-- The states from which a system reset takes a site to FAULTED (R154, R164). -/
def SiteSt.reset (x : SiteSt) : Bool := match x with
  | .off | .seqUp | .running | .degraded | .seqDown | .retryWait => true
  | _ => false

/-- The sites of a system reset end FAULTED; one removed meanwhile is no longer in such a state (R154, R164, R167). -/
def State.sysResetEnd (s : State) : State :=
  let s := { s with seq := { s.seq with sysReset := false, trayReset := false } }
  (bitsOf 8 s.seq.sysSites.toNat).foldl (fun s n =>
    let s := s.setSite n { s.site n with inSysReset := false, reaction := false }
    if (s.site n).st.reset then s.siteFault n else s) s

/-- Once every site is OFF or FAULTED or drives no rail, TRAY_RESET is asserted, or the reset ends where no pin carries
it, with one event (R154). -/
def State.sysSettle (s : State) : State :=
  if s.seq.sysReset && !s.seq.trayReset &&
      (List.range 8).all (fun n => match (s.site n).st with
        | .seqUp | .running | .degraded | .seqDown => false
        | _ => true) then
    if s.hasTrayReset then { s with seq := { s.seq with trayReset := true } }.emit (.line 154 1)
    else (s.event 3 154 0 0).sysResetEnd
  else s

/-- Every consequence of a change of a rail of a scope. -/
def State.settle (s : State) (g : Nat) : State :=
  let s := s.railPasses (scopeBase g) (scopeSize g) 64
  match siteOf g with
  | some n => (s.siteSettle n).sysSettle
  | none => s

/-! ## Counters and records of faults (R151, R181, R187, R201) -/

/-- The fault kinds of R151. -/
inductive RailFault where
  | ov | uv | oc | pgLoss | chatter | seqFail | retry
  deriving DecidableEq, Repr

/-- KIND of a RAIL_FAULT record (R187). -/
def RailFault.kind : RailFault → Nat
  | .ov => 1 | .uv => 2 | .oc => 3 | .pgLoss => 4 | .chatter => 5 | .seqFail => 6 | .retry => 7

/-- Counter of the kind (R151, R181). -/
def RailFault.counter : RailFault → Nat
  | .ov => 0 | .uv => 1 | .oc => 2 | .pgLoss => 1 | .chatter => 3 | .retry => 4 | .seqFail => 5

def State.railCnt (s : State) (g : Nat) : RailCnt := Tbl.get {} s.rcnt.rails g
def State.setRailCnt (s : State) (g : Nat) (x : RailCnt) : State :=
  { s with rcnt := { s.rcnt with rails := Tbl.set s.rcnt.rails g x } }

/-- A rail counter increments by 1 and its rail is dirty (R181, R182). -/
def State.countRail (s : State) (g k : Nat) : State :=
  s.bump 3 g (Tbl.get {} (s.railCnt g).cnt k) fun c s =>
    s.setRailCnt g { cnt := Tbl.set (s.railCnt g).cnt k c, dirty := true }

/-- The channel a fault kind is judged on: the current channel for OC, else the voltage channel. -/
def State.faultChan (s : State) (g : Nat) (k : RailFault) : Option Nat :=
  match k with
  | .oc => s.chanOf g 2
  | _ => s.chanOf g 1

/-- A fault is counted once and recorded; during hold-up UV and PG_LOSS are gathered into the summary instead (R201). FAULTS of the
summary counts every fault of a rail, whatever its kind (DESIGN CHOICE, log 74: R201 does not say which count). -/
def State.logFault (s : State) (g : Nat) (k : RailFault) : State :=
  let s := s.countRail g k.counter
  let unit := (siteOf g).getD 8
  let sum : Nat × Nat × Nat := Tbl.get (0, 0, 0) s.snap.sums unit
  let bit := 2 ^ (g - scopeBase g)
  let uv := k == .uv || k == .pgLoss
  let s := if s.snap.holdup then
      let sum := if uv then (sum.1 ||| bit, sum.2.1, sum.2.2 + 1)
        else if k == .ov || k == .oc then (sum.1, sum.2.1 ||| bit, sum.2.2 + 1) else (sum.1, sum.2.1, sum.2.2 + 1)
      { s with snap := { s.snap with sums := Tbl.set s.snap.sums unit sum } }
    else s
  if s.snap.holdup && uv then s else
    let c := s.faultChan g k
    let r := s.rail g
    s.record 0x01 g k.kind (siteOf g)
      (leBytes 4 (ofInt 32 (c.elim 0 fun c => (s.chan c).value)) ++ leBytes 2 (c.getD 0xFFFF) ++
        leBytes 1 (ndReaction.nat (s.node g)) ++ leBytes 1 r.retries ++
        leBytes 4 (Tbl.get ({} : Cnt) (s.railCnt g).cnt k.counter).val.toNat ++ leBytes 1 r.changes ++ zeros 15)

/-- What logging a fault on this cycle did is taken back: its count, its place in the hold-up summary's FAULTS, and its record while the
log still queues it (R151, R156; log 72). -/
def State.unlog (s : State) (g : Nat) (k : RailFault) : State :=
  let c : Cnt := Tbl.get {} (s.railCnt g).cnt k.counter
  let s := s.setRailCnt g { s.railCnt g with
    cnt := Tbl.set (s.railCnt g).cnt k.counter (if c.sat then c else { c with val := c.val - 1 }) }
  let unit := (siteOf g).getD 8
  let sum : Nat × Nat × Nat := Tbl.get (0, 0, 0) s.snap.sums unit
  let s := if s.snap.holdup then { s with snap := { s.snap with sums := Tbl.set s.snap.sums unit (sum.1, sum.2.1, sum.2.2 - 1) } } else s
  let fly := s.log.page.elim 0 PageJob.count
  let gone (x : FaultRec) : Bool := x.typ == 1 && x.source == g && x.kind == k.kind && x.time == s.plinth
  { s with log := { s.log with queue := s.log.queue.take fly ++ (s.log.queue.drop fly).filter fun x => !gone x } }

/-- A rail fails during power-down: DOWNFAULT, its enable deasserted again, the waits on it cut short, one record and
its counter (R157). Only a rail that is itself ordered down is waited on (R153). `kind`: 1 FALL_TIMEOUT, 2 OV, 3 OC. In hold-up it counts in FAULTS, and in no OV_OC_RAILS (log 74). -/
def State.downfault (s : State) (g kind : Nat) : State :=
  let s := (s.setRail g { s.rail g with st := .downfault, enable := false }).pmbusWrite g false
  let base := scopeBase g
  let waiting := (List.range (scopeSize g)).filter fun k => (s.rail g).downReq &&
    (s.downDeps (base + k)).testBit (g - base) &&
      ((s.rail (base + k)).st == .waitDown || (s.rail (base + k)).st == .downDelay)
  let s := waiting.foldl (fun s k =>
    let r := s.rail (base + k)
    if r.st = .downDelay then s.moveRail (base + k) ({ r with cut := true }.disableNow .falling)
    else s.setRail (base + k) { r with cut := true }) s
  let s := s.countRail g 6
  let s := match siteOf g with
    | some n => s.setSite n { s.site n with downfault := true
                                            cutMask := (s.site n).cutMask ||| BitVec.ofNat 32 (maskOf waiting) }
    | none => s
  let c := if kind = 3 then s.chanOf g 2 else s.chanOf g 1
  let s := if s.snap.holdup then
      let u := (siteOf g).getD 8
      let m : Nat × Nat × Nat := Tbl.get (0, 0, 0) s.snap.sums u
      { s with snap := { s.snap with sums := Tbl.set s.snap.sums u (m.1, m.2.1, m.2.2 + 1) } }
    else s
  s.record 0x02 g kind (siteOf g)
    (leBytes 4 (ofInt 32 (c.elim 0 fun c => (s.chan c).value)) ++ leBytes 2 (c.getD 0xFFFF) ++ zeros 2 ++
      leBytes 4 (Tbl.get ({} : Cnt) (s.railCnt g).cnt 6).val.toNat ++ leBytes 4 (maskOf waiting) ++ zeros 12)

/-! ## Module groups and channels (R160, R422) -/

/-- A MEM_EVENT record (R436). -/
def State.memEvent (s : State) (source kind addr owner cause count : Nat) : State :=
  s.record 0x20 source kind none
    (leBytes 8 addr ++ leBytes 1 owner ++ leBytes 1 cause ++ zeros 2 ++ leBytes 4 count ++ zeros 12)

/-- A channel leaves service with a cause (R422, R423); its rail is taken down by the caller. -/
def State.chOut (s : State) (n cause : Nat) : State :=
  let c := s.ch n
  if c.st = .outOfService ∨ c.st = .absent then s else
    ((s.setCh n { c with st := .outOfService, cause := cause, kept := false }).memEvent n 3 0 0 cause 0).mirrorCheck (n / 2)

/-- Consequences of a module group shutdown, by the rails it takes (R160). -/
def State.moduleLost (s : State) (mask : Nat) : State :=
  let has k := mask.testBit k
  let p := s.pwr
  let core := p.core && !has 6 && !has 7
  let sram := p.sram && core && !has 10
  let p := { p with core := core, sram := sram, armature := p.armature && sram && !has 8
                    caliper := p.caliper && sram && !has 9, calFenced := p.calFenced || has 9
                    fabric := p.fabric && core && !has 12 && !has 13, memory := p.memory && core && !has 14 && !has 15 }
  let s := { s with pwr := p, ebx := if p.fabric then s.ebx else { s.ebx with up := 0 } }
  let s := if has 9 then s.calStop 0x80 else s
  (List.range 4).foldl (fun s n => if has 15 || has 14 || has (16 + n) then s.chOut n 4 else s) s

/-- Group shutdown of module rails: down in order, once re-sequenced later, latched down at a second shutdown of the same group
within 600 s (R160). -/
def State.moduleShutdown (s : State) (mask : Nat) : State :=
  let k := mask % 2 ^ 24
  let g : ModGroup := Tbl.get {} s.seq.groups k
  let again := match g.lastDown with
    | some t => decide (s.plinth < t + secs 600)
    | none => false
  let g : ModGroup := { mask := BitVec.ofNat 24 mask, lastDown := some s.plinth, latched := g.latched || again
                        waiting := true }
  let s := { s with seq := { s.seq with groups := Tbl.set s.seq.groups k g } }
  (s.orderDown 256 24 mask).moduleLost mask

/-- A fault of a rail's Survey channels is noted: a power-good loss of the same cycle is no second fault (R151, log 72). -/
def State.surveyFault (s : State) (g : Nat) : State := s.setRail g { s.rail g with surveyAt := some s.plinth }

/-- Caliper leaves service: what it carries out completes FENCED, and its domain's rail goes down (R29, R36, R371, R383). -/
def State.calDown (s : State) : State :=
  let s := { s with pwr := { s.pwr with caliper := false } }
  ((s.calStop 0x80).orderDown 256 24 (maskOf [9])).settle 256

/-- Caliper is fenced (R29, R36, R45, R371). -/
def State.calFence (s : State) : State := ({ s with pwr := { s.pwr with calFenced := true } } : State).calDown

/-! ## Reactions (R154 to R156) -/

/-- Group shutdown of a mask on a site (R154): part of a RUNNING or DEGRADED site goes down; in SEQ_UP the up attempt
fails and the whole site goes down. -/
def State.siteShutdown (s : State) (n mask : Nat) : State :=
  let s := s.setSite n { s.site n with reaction := true, shutAt := some s.plinth }
  match (s.site n).st with
  | .seqUp => s.siteDownSeq n true
  | .running => ((s.orderDown (32 * n) 32 mask).siteTo n .degraded)
  | _ => s.orderDown (32 * n) 32 mask

/-- System reset of the tray (R154). -/
def State.sysResetBegin (s : State) : State :=
  if s.seq.sysReset then s else
    let inSet (n : Nat) : Bool := (s.site n).st.reset
    let s := { s with seq := { s.seq with sysReset := true
                                          sysSites := BitVec.ofNat 8 (maskOf ((List.range 8).filter inSet)) } }
    let s := (List.range 8).foldl (fun (s : State) (n : Nat) => match (s.site n).st with
      | .seqUp | .running | .degraded =>
        let s := s.siteDownSeq n false
        (s.setSite n { s.site n with reaction := true, inSysReset := true }).settle (32 * n)
      | _ => s) s
    s.sysSettle

/-- Group shutdown of a rail's GROUP_MASK (R154, R160). -/
def State.groupShutdown (s : State) (g : Nat) : State :=
  match siteOf g with
  | some n => s.siteShutdown n (ndGroup (s.node g))
  | none => s.moduleShutdown (if s.hasSec 0x03 then ndGroup (s.node g) else builtinGroup (g - 256))

/-- Another rail of the site is in retry (R155). -/
def State.otherInRetry (s : State) (g : Nat) : Bool :=
  decide (g < 256) && (List.range 32).any fun k => scopeBase g + k != g && (s.rail (scopeBase g + k)).inRetry

/-- A retry begins, or escalates: a second rail of a site in retry, or RETRY_LIMIT used up (R155). A rising rail is disabled at once
either way, and stays in retry until it is next GOOD (R153). -/
def State.retry (s : State) (g : Nat) : State :=
  let r := s.rail g
  if s.otherInRetry g || decide (ndRetryLimit.nat (s.node g) ≤ r.retries) then
    (if r.st = .rising then s.moveRail g (r.disableNow .retryFall) else s).groupShutdown g
  else
    let s := s.moveRail g { r.disableNow .retryFall with retries := r.retries + 1, inRetry := true, retryAt := some s.plinth }
    let deps := s.dependents g
    let s := (bitsOf (scopeSize g) deps).foldl (fun s k =>
      if scopeBase g + k = g then s
      else s.setRail (scopeBase g + k) { s.rail (scopeBase g + k) with masked := true }) s
    s.logFault g .retry

/-- The rails of the site whose retry began on this cycle (R156). Commands at one Plinth time count as one cycle (log 72). -/
def State.retriedNow (s : State) (g : Nat) : List Nat :=
  if g < 256 then
    ((List.range 32).map (scopeBase g + ·)).filter fun h => h != g && (s.rail h).st == .retryFall && (s.rail h).retryAt == some s.plinth
  else []

/-- A retry that began on this cycle gives way to a wider reaction of the cycle: no retry has begun, its dependents are masked no
longer, and the rail, still GOOD, goes down in DOWN_DEPS order with what takes it (R156). -/
def State.unretry (s : State) (g : Nat) : State :=
  let s := s.unlog g .retry
  let r := s.rail g
  let s := (s.setRail g { r with st := .good, enable := true, retries := r.retries - 1, inRetry := false, retryAt := none }).pmbusWrite
    g true
  (bitsOf (scopeSize g) (s.dependents g)).foldl (fun (s : State) k =>
    let d := scopeBase g + k
    if (s.rail d).masked && !s.retryAbove d then s.setRail d { s.rail d with masked := false } else s) s

/-- Group shutdown as the widest reaction of a cycle: the union of the groups of the rails that fault with Rail retry or Group shutdown
(R156). -/
def State.groupWidest (s : State) (g : Nat) : State :=
  ((s.retriedNow g).foldl (fun (s : State) h => (s.unretry h).groupShutdown h) s).groupShutdown g

/-- Rail retry, or Group shutdown where the cycle has another rail of the site that faults with Rail retry or Group shutdown (R156). -/
def State.retryReact (s : State) (g : Nat) : State :=
  let shut := (siteOf g).any fun n => (s.site n).shutAt == some s.plinth
  if shut || !(s.retriedNow g).isEmpty then s.groupWidest g else s.retry g

/-- The retries of the rail's site that began on this cycle give way (R156). -/
def State.unretryAll (s : State) (g : Nat) : State := (s.retriedNow g).foldl State.unretry s

/-- A fault on a GOOD rail: counted, recorded and answered by its REACTION (R154), the widest of its cycle (R156); a masked
dependent's is counted only (R155). -/
def State.goodFault (s : State) (g : Nat) (k : RailFault) : State :=
  let s := s.logFault g k
  let s := if g ≥ 256 && standbyRail (g - 256) then s.event 3 159 g k.kind else s
  if (s.rail g).masked then s else
    match ndReaction.nat (s.node g) with
    | 1 => (s.retryReact g).settle g
    | 2 => (s.groupWidest g).settle g
    | 3 => (s.unretryAll g).sysResetBegin
    | _ => s

/-- The rails of a site that no Warden drives yet are not sequenced: an UNADOPTED site stays under its latch (R168). -/
def State.supervised (s : State) (g : Nat) : Bool := (siteOf g).all fun n => (s.site n).st != .unadopted

/-- A rail that is GOOD, or was on this cycle until a reaction of its site took it down (R156). -/
def State.wasGood (s : State) (g : Nat) : Bool :=
  s.supervised g && ((s.rail g).st == .good || ((s.rail g).leftGood == some s.plinth &&
    (siteOf g).any fun n => (s.site n).shutAt == some s.plinth || (s.site n).inSysReset))

/-- A fault of a rail as `wasGood` has it: one that its site's reaction has taken down on this cycle is counted and recorded too, and
widens a Group shutdown by its GROUP_MASK, or takes the tray down (R156). -/
def State.cycleFault (s : State) (g : Nat) (k : RailFault) : State :=
  if (s.rail g).st = .good then s.goodFault g k
  else
    let s := s.logFault g k
    let shut := (siteOf g).any fun n => (s.site n).shutAt == some s.plinth
    match ndReaction.nat (s.node g) with
    | 1 | 2 => if shut && !s.seq.sysReset then (s.groupWidest g).settle g else s
    | 3 => (s.unretryAll g).sysResetBegin
    | _ => s

/-- A Survey fault on the cycle of a PG_LOSS: the one fault that is recorded is of the Survey kind, and its reaction is under way
(R151). -/
def State.pgReplaced (s : State) (g : Nat) (k : RailFault) (named : Bool) : State :=
  let s := (s.unlog g .pgLoss).setRail g { s.rail g with pgLossAt := none }
  let unit := (siteOf g).getD 8
  let sum : Nat × Nat × Nat := Tbl.get (0, 0, 0) s.snap.sums unit
  let s := if s.snap.holdup && !named then
      { s with snap := { s.snap with sums := Tbl.set s.snap.sums unit (sum.1 - (if sum.1.testBit (g - scopeBase g) then 2 ^ (g - scopeBase g) else 0), sum.2) } }
    else s
  s.logFault g k

/-- A rising step ends as CHATTER, SEQ_FAIL or OV (R153): in retry the next retry or escalation, else the rail goes down
and the site's up attempt fails. Below a rail in retry the fault is counted, once for the step, and not reacted to: the rail stays RISING
(R155; log 72). -/
def State.stepFail (s : State) (g : Nat) (k : RailFault) : State :=
  if (s.rail g).masked then
    if (s.rail g).chatterDone then s else (s.setRail g { s.rail g with chatterDone := true }).logFault g k
  else
  let s := s.logFault g k
  if (s.rail g).inRetry then (s.retry g).settle g
  else
    let s := s.moveRail g ((s.rail g).disableNow .falling)
    let s : State := match siteOf g with
      | some n => if (s.site n).st == SiteSt.seqUp then s.siteDownSeq n true else s
      | none => s
    s.settle g

end Sys2Proof.Machine
end

