-- ==== Sys2Proof/Machine/Survey.lean ====
section
/-!
DEFINITION. Machine/Survey.lean: the Survey converter (chapter 6): calibration, window judgement, stale channels,
reference checks, and the commands of samples, scans and rail counters.
-/
namespace Sys2Proof.Machine

/-! ## Calibration (R177 to R179, R539) -/

/-- A module calibration table is valid (R539). -/
def mcalOk (b : Bytes) : Bool :=
  u32 b 0 == 0x4C41434D && u16 b 4 == 1 && zeroAt b 6 10 &&
    (List.range 384).all (fun c => let e := slice b (0x10 + 8 * c) 8
      decide (-2048 ≤ sle e 0 2) && decide (sle e 0 2 ≤ 2047) && zeroAt e 2 2 &&
        decide (0x00800000 ≤ u32 e 4) && decide (u32 e 4 ≤ 0x02000000)) &&
    decide (-1000 ≤ sle b 0xC10 2) && decide (sle b 0xC10 2 ≤ 1000) && zeroAt b 0xC12 2 &&
    decide (0x00F00000 ≤ u32 b 0xC14) && decide (u32 b 0xC14 ≤ 0x01100000) &&
    decide (-10000 ≤ sle b 0xC18 4) && decide (sle b 0xC18 4 ≤ 10000) &&
    decide (0x00F00000 ≤ u32 b 0xC1C) && decide (u32 b 0xC1C ≤ 0x01100000) && zeroAt b 0xC20 988 &&
    u32 b 0xFFC == crc32c (b.take 0xFFC)

/-- The module calibration table of a device's build record: its first bytes decide before the rest is read. -/
def State.mcalCopy (s : State) (dev : Nat) : Option Bytes :=
  if u32 (s.fread dev 0xB000 4) 0 = 0x4C41434D then
    if mcalOk (s.fread dev 0xB000 4096) then some (s.fread dev 0xB000 4096) else none
  else none

/-- The table in use: of copy 0 if valid, else of copy 1 (R539). -/
def State.mcal (s : State) : Option Bytes := (s.mcalCopy 0).or (s.mcalCopy 1)

/-- OFF_M and G_M of a channel; neutral without a table. -/
def mcalChan (t : Option Bytes) (ch : Nat) : Int × Nat :=
  match t with
  | some b => (sle b (0x10 + 8 * ch) 2, u32 b (0x10 + 8 * ch + 4))
  | none => (0, 0x01000000)

/-- A bus sample corrected by the calibration table (R539): voltage in 10 mV codes, current in mA. -/
def State.busCorrect (s : State) (v : Nat) (i : Int) : Nat × Int :=
  match s.mcal with
  | some b =>
    ((clampI 0 65535 (roundDiv (((v : Int) - sle b 0xC10 2) * u32 b 0xC14) (2 ^ 24))).toNat,
     sat32 (roundDiv ((i - sle b 0xC18 4) * u32 b 0xC1C) (2 ^ 24)))
  | none => (v, i)

/-- A record of the identity ROM's directory, by TYPE: listed or not, and its bytes where its CRC holds (R179). -/
def romRecord (rom : Bytes) (typ : Nat) : Option (Option Bytes) :=
  let dir := slice rom (u16 rom 0x28) (u16 rom 0x2A)
  ((List.range (u16 rom 0x2A / 8)).find? fun k => u8 dir (8 * k) == typ).map fun k =>
    let b := slice rom (u16 dir (8 * k + 2)) (u16 dir (8 * k + 4))
    if 4 ≤ b.length ∧ u32 b (b.length - 4) = crc32c (b.take (b.length - 4)) then some b else none

/-- A Survey calibration record is readable (R179). -/
def scalOk (b : Bytes) : Bool :=
  let n := u8 b 0
  let e k := slice b (8 + 8 * k) 8
  decide (1 ≤ n) && decide (n ≤ 64) && b.length == 8 + 8 * n + 4 &&
    (List.range n).all (fun k => decide (u8 (e k) 0 ≤ 31) && (u8 (e k) 1 == 1 || u8 (e k) 1 == 2) &&
      decide (-2048 ≤ sle (e k) 2 2) && decide (sle (e k) 2 2 ≤ 2047) &&
      decide (0x00800000 ≤ u32 (e k) 4) && decide (u32 (e k) 4 ≤ 0x02000000) &&
      (List.range k).all fun j => !(u8 (e j) 0 == u8 (e k) 0 && u8 (e j) 1 == u8 (e k) 1))

/-- OFF_S and G_S of a site rail and kind; neutral without an entry (R178). -/
def scalEntry (r : Option Bytes) (rail kind : Nat) : Int × Nat :=
  match r with
  | none => (0, 0x01000000)
  | some b => match (List.range (u8 b 0)).find? fun k => u8 b (8 + 8 * k) == rail && u8 b (9 + 8 * k) == kind with
    | some k => (sle b (8 + 8 * k + 2) 2, u32 b (8 + 8 * k + 4))
    | none => (0, 0x01000000)

/-- SURVEY_CAL_OFF and SURVEY_CAL_K of a channel set from the module and site corrections (R178). A SURVEY_CAL_K
beyond 32 bits is kept whole in the conversion (DESIGN CHOICE, log 111: R178 states no result there). -/
def State.calSet (s : State) (t : Option Bytes) (ch : Nat) : State :=
  let e := mapEntry s.surveyMap ch
  let m := mcalChan t ch
  let o := mapOwner e
  let x := if o < 256 ∧ (mapKind e = 1 ∨ mapKind e = 2) then scalEntry (s.capS (o / 32)).calRec (o % 32) (mapKind e)
    else (0, 0x01000000)
  s.setChan ch { s.chan ch with calOff := m.1 + x.1
                                calK := roundDiv ((mapNomK e : Int) * m.2 * x.2) (2 ^ 48) }

/-- The calibration table is looked for: MODULE_CAL_NEUTRAL stands while neither copy holds one, with one event as it begins
(R539). -/
def State.calTable (s : State) : State :=
  let s' : State := { s with svy := { s.svy with moduleNeutral := s.mcal.isNone } }
  if s.mcal.isNone && !s.svy.moduleNeutral then s'.event 4 539 0 0 else s'

/-- Every mapped channel calibrated at a commit (R178, R539). -/
def State.calSetAll (s : State) : State :=
  let t := s.mcal
  let s := s.calTable
  (List.range (s.surveyMap.length / 8)).foldl (fun s ch =>
    if mapKind (mapEntry s.surveyMap ch) = 0 then s else s.calSet t ch) s

/-- The channels of a site's rails calibrated when it is identified or adopted (R178). -/
def State.calSetSite (s : State) (n : Nat) : State :=
  let t := s.mcal
  (List.range (s.surveyMap.length / 8)).foldl (fun s ch =>
    let e := mapEntry s.surveyMap ch
    if (mapKind e = 1 ∨ mapKind e = 2) ∧ mapOwner e < 256 ∧ mapOwner e / 32 = n then s.calSet t ch else s) s

/-- The clamp of a channel's encoding (R14, R172): bus or rail voltage and general 16-bit unsigned, current 32-bit
signed, temperature 16-bit signed. -/
def encClamp (kind : Nat) (v : Int) : Int :=
  if kind = 2 then sat32 v else if kind = 3 then clampI (-32768) 32767 v else clampI 0 65535 v

/-- A code converted to a value (R177). -/
def Chan.convert (c : Chan) (kind : Nat) (code : Int) : Int :=
  encClamp kind (roundDiv ((code - c.calOff) * c.calK) (2 ^ 24))

/-! ## Windows (R174) -/

/-- The fault-window judgement of a sample: the counts, and which side is judged out now (0 none, 1 low, 2 high) if that
judgement is new. -/
def State.judgeFault (s : State) (ch : Nat) (v : Int) : Chan × Nat :=
  let c := s.chan ch
  let q := winQual (s.winEntry ch) + 1
  let lo := s.belowFault ch v
  let hi := s.aboveFault ch v
  let c := { c with nLo := if lo then min (c.nLo + 1) 16 else 0, nHi := if hi then min (c.nHi + 1) 16 else 0
                    nIn := if lo || hi then 0 else min (c.nIn + 1) 16 }
  if c.nLo ≥ q ∧ c.out ≠ 1 then ({ c with out := 1 }, 1)
  else if c.nHi ≥ q ∧ c.out ≠ 2 then ({ c with out := 2 }, 2)
  else if c.nIn ≥ q then ({ c with out := 0 }, 0)
  else (c, 0)

/-- The warn judgement of a sample (R174): the channel, and the KIND of a warn entered now (1 high, 2 low, 0 none). -/
def State.judgeWarn (s : State) (ch : Nat) (c : Chan) (v : Int) : Chan × Nat :=
  let w := s.winEntry ch
  if (u8 w 0x0B).testBit 2 then
    let kind := mapKind (mapEntry s.surveyMap ch)
    let q := winQual w + 1
    let lo := winLimit w 4 kind
    let hi := winLimit w 6 kind
    let h : Int := if kind = 2 then (u16 w 8 : Nat) * 10 else (u16 w 8 : Nat)
    let x := winValue w kind v
    let inside := decide (lo + h ≤ x) && decide (x ≤ hi - h)
    let c := { c with wOut := if x < lo ∨ hi < x then min (c.wOut + 1) 16 else 0, wIn := if inside then min (c.wIn + 1) 16 else 0 }
    if c.inWarn = 0 then
      if c.wOut ≥ q then (if hi < x then ({ c with inWarn := 1 }, 1) else ({ c with inWarn := 2 }, 2)) else (c, 0)
    else if c.wIn ≥ q then ({ c with inWarn := 0 }, 0)
    else (c, 0)
  else ({ c with inWarn := 0, wOut := 0, wIn := 0 }, 0)

/-- Site whose rails a rail channel's owner is one of (R172, R178). -/
def State.chanSite (s : State) (c : Nat) : Option Nat :=
  let e := mapEntry s.surveyMap c
  if (mapKind e = 1 ∨ mapKind e = 2) ∧ mapOwner e < 256 then some (mapOwner e / 32) else none

/-- A CHANNEL_WARN record (R187), of the channel's site where it is a site rail's (R186). -/
def State.warnRec (s : State) (ch kind : Nat) (value limit : Int) (owner : Nat) : State :=
  s.record 0x04 ch kind (s.chanSite ch) (leBytes 4 (ofInt 32 value) ++ leBytes 4 (ofInt 32 limit) ++ leBytes 2 owner ++ zeros 18)

/-- A warn entered: the sticky WARN bit, one event, and one record per channel per 1 s (R174). -/
def State.enterWarn (s : State) (ch kind : Nat) : State :=
  let e := mapEntry s.surveyMap ch
  let c := s.chan ch
  let s := (s.setChan ch { c with warn := true }).event 4 174 ch kind
  if s.since c.lastWarn (secs 1) then
    (s.setChan ch { s.chan ch with lastWarn := some s.plinth }).warnRec ch kind c.value
      (winLimit (s.winEntry ch) (if kind = 1 then 6 else 4) (mapKind e)) (mapOwner e)
  else s

/-- A channel becomes stale: judgements forget it; a GOOD rail's voltage channel writes one STALE record (R175). -/
def State.goStale (s : State) (ch : Nat) : State :=
  let c := s.chan ch
  if c.stale then s else
    let s := s.setChan ch { c with stale := true, nLo := 0, nHi := 0, nIn := 0, wOut := 0, wIn := 0 }
    let e := mapEntry s.surveyMap ch
    if mapKind e = 1 ∧ mapOwner e < 280 ∧ (s.rail (mapOwner e)).st = .good then
      s.warnRec ch 4 c.value 0 (mapOwner e)
    else s

/-- A die's 24 channels become stale at once (R36, R45, R175). -/
def State.dieStale (s : State) (d : Nat) : State := (List.range 24).foldl (fun s i => s.goStale (24 * d + i)) s

/-- A failing reference slot on its third scan in a row: counted, recorded, the die stale (R175). -/
def State.refFail (s : State) (d slot : Nat) (code : Int) : State :=
  let s := s.bump 4 d (Tbl.get {} s.svy.refFail d) fun c s =>
    { s with svy := { s.svy with refFail := Tbl.set s.svy.refFail d c } }
  (s.warnRec (24 * d) 5 code slot d).dieStale d

/-- A reference slot's code (R175): slot 0 within ±64 of 0, slot 1 within ±0.5 % of 26,214. -/
def refOk (slot : Nat) (code : Int) : Bool :=
  if slot = 0 then decide (-64 ≤ code) && decide (code ≤ 64)
  else decide (26214 * 995 ≤ code * 1000) && decide (code * 1000 ≤ 26214 * 1005)

/-- A reference slot of a scan (R175): the third failing scan in a row is one reference failure, which lasts until the slot
reads in range again. -/
def State.refSample (s : State) (d slot : Nat) (code : Int) : State :=
  let k := 16 * slot + d
  let n := Tbl.get 0 s.svy.refBad k
  if refOk slot code then { s with svy := { s.svy with refBad := Tbl.set s.svy.refBad k 0 } }
  else if n < 2 then { s with svy := { s.svy with refBad := Tbl.set s.svy.refBad k (n + 1) } }
  else if n = 2 then ({ s with svy := { s.svy with refBad := Tbl.set s.svy.refBad k 3 } } : State).refFail d slot code
  else s

/-- A die whose reference check has failed gives no valid sample (R175). -/
def State.refFailed (s : State) (d : Nat) : Bool :=
  decide (3 ≤ Tbl.get 0 s.svy.refBad d) || decide (3 ≤ Tbl.get 0 s.svy.refBad (16 + d))

/-- BACKPOWER of an OFF rail in use above OFF_LEVEL (R176). -/
def State.backpower (s : State) (g ch : Nat) (v : Int) : State :=
  let r := s.rail g
  if r.st = .off ∧ s.used g ∧ s.supervised g ∧ ndOffLevel.val (s.node g) < v then
    let n := min (r.backCount + 1) 17
    let q := winQual (s.winEntry ch) + 1
    let s := s.setRail g { r with backCount := n }
    if n = q then
      let s := s.event 4 176 g 0
      if s.since r.lastBack (secs 60) then
        (s.setRail g { s.rail g with lastBack := some s.plinth }).warnRec ch 3 v (ndOffLevel.val (s.node g)) g
      else s
    else s
  else s.setRail g { r with backCount := 0 }

/-- A fault of a rail's Survey channels: in place of the PG_LOSS of its cycle, or of a rail that was GOOD on it (R151, R156). -/
def State.surveyKind (s : State) (g : Nat) (k : RailFault) : State :=
  let now := s.plinth
  match (s.rail g).pgLossAt.filter fun x => x.1 == now with
  | some x => (s.surveyFault g).pgReplaced g k x.2
  | none => (s.surveyFault g).cycleFault g k

/-- A rail that a Survey fault of this cycle concerns as a GOOD rail (R151, R156). -/
def State.faultsGood (s : State) (g : Nat) : Bool := s.wasGood g || (s.rail g).pgLossAt.any fun x => x.1 == s.plinth

/-- What a judged-out side means to a voltage channel's rail: a fault of a GOOD rail, or a downfault of a falling one (R151, R153,
R157). -/
def State.voltageOut (s : State) (g side : Nat) : State :=
  if s.faultsGood g then s.surveyKind g (if side = 1 then .uv else .ov) else
  match (s.rail g).st with
  | .falling => if side = 2 then (s.downfault g 2).settle g else s
  | .retryFall => if side = 2 then ((s.downfault g 2).groupShutdown g).settle g else s
  | _ => s

def State.currentOut (s : State) (g side : Nat) : State :=
  if side ≠ 2 then s else if s.faultsGood g then s.surveyKind g .oc else match (s.rail g).st with
  | .falling => (s.downfault g 3).settle g
  | .retryFall => ((s.downfault g 3).groupShutdown g).settle g
  | _ => s

/-- A sample of a site's METER_RAIL forms the product of the latest calibrated voltage and current, at full precision; a current sample
(`adds`) adds it to the interval under way (R210). Units: 0.1 µW, times 2^48. -/
def State.product (s : State) (g : Nat) (adds : Bool) : State :=
  if g < 256 ∧ g % 32 = cpMeterRail.nat (s.capEntryNow (g / 32)) then
    match s.chanOf g 1, s.chanOf g 2 with
    | some v, some i =>
      let a := s.chan v
      let b := s.chan i
      let p := (a.raw - a.calOff) * a.calK * ((b.raw - b.calOff) * b.calK) * (if ndBus (s.node g) then 100 else 1)
      let c := s.capS (g / 32)
      s.setCapS (g / 32) (if adds then { c with prodSum := c.prodSum + p, prodN := c.prodN + 1, prodLast := p }
        else { c with prodLast := p })
    | _, _ => s
  else s

/-- A general channel is the CURR_CHAN of a supply-switching fan whose supply is off through the whole period, at duty 0: its current is
sampled only during on-phases (R275). -/
def State.supplyOff (s : State) (ch : Nat) : Bool :=
  (List.range 32).any fun c =>
    let e := slice (s.sec 0x08) (32 * c) 32
    (u8 e 0) % 8 == 7 && u16 e 4 == ch && (Tbl.get {} s.cool.fans c : FanCh).duty == 0

/-- One sample of a channel (R174, R177), under the Plinth's own calibration while no structure has set one (R75, R539). `held` is
whether the rail's power-good stood as it stands now already when the track-and-hold closed: the sample's time (R149, R170). -/
def State.sample (s : State) (ch : Nat) (code : Int) (held : Bool) : State :=
  let e := mapEntry s.surveyMap ch
  let kind := mapKind e
  let g := mapOwner e
  if kind = 4 ∧ s.supplyOff ch then s else
  let s := if s.maq.live.isNone && kind != 0 then s.calSet s.mcal ch else s
  let v := (s.chan ch).convert kind code
  let s := s.setChan ch { s.chan ch with raw := code, value := v, stale := false }
  if kind = 0 then s else
    let f := s.judgeFault ch v
    let w := s.judgeWarn ch f.1 v
    let s := s.setChan ch w.1
    let s := if w.2 ≠ 0 then s.enterWarn ch w.2 else s
    if g ≥ 280 then s
    else if kind = 1 then
      let s := s.setRail g { s.rail g with fresh := (s.rail g).pg && held }
      let s := (s.backpower g ch v).product g false
      -- while the rail rises, one sample above FAULT_HI ends the step at once (R151)
      let s := if (s.rail g).st = .rising ∧ s.aboveFault ch v then s.stepFail g .ov
        else if f.2 ≠ 0 then s.voltageOut g f.2 else s
      s.settle g
    else if kind = 2 then (if f.2 ≠ 0 then (s.product g true).currentOut g f.2 else s.product g true)
    else s

/-- Every mapped rail of a die is off, so the die may scan slowly (R37). -/
def State.dieIdle (s : State) (d : Nat) : Bool :=
  (List.range 24).all fun i =>
    let e := mapEntry s.surveyMap (24 * d + i)
    !((mapKind e == 1 || mapKind e == 2) &&
      ((s.rail (mapOwner e)).st != .off || (!s.supervised (mapOwner e) && s.used (mapOwner e) && !s.railOff (mapOwner e))))

/-- The slow-scan period elapses: the die requests the burst clock for one scan; a die with a rail on or sequencing requests it for as
long as it scans at full rate (R35, R37). -/
def execSurveySlowScanTimer (die : Nat) (s : State) : Host.Outcome State Fault Refusal :=
  s.standbyDo fun s =>
    { s with pwr := { s.pwr with slowScan := setBit s.pwr.slowScan die (s.dieIdle die), clkReq := setBit s.pwr.clkReq 0 true
                                 rcOsc := true } }

def execSurveyStaleTimeout (ch : Nat) (s : State) : Host.Outcome State Fault Refusal := s.standbyDo fun s => s.goStale ch

def execSurveyBusTimeout (die : Nat) (s : State) : Host.Outcome State Fault Refusal := s.standbyDo fun s => s.dieStale die

/-- RAIL_CNT_CLR (R183): the counters of the mask and their saturation bits; the rail is dirty. Without the
counter-clear right it has no effect and raises one event. -/
def execRailCntClr (r : Req) (rail mask : Nat) (s : State) : Host.Outcome State Fault Refusal :=
  s.standbyDo fun s =>
    if s.may r.principal .counterClear then
      if rail < 280 then
        let x := s.railCnt rail
        s.setRailCnt rail { cnt := x.cnt.filter fun e => !(mask.testBit e.1), dirty := true }
      else s
    else (s.refuseWrite r.path r.principal 0x30130).event 3 183 rail 0

end Sys2Proof.Machine
end

