-- ==== Sys2Proof/Machine/Msg.lean ====
section
/-!
DEFINITION. Machine/Msg.lean: site records and how they arrive, as MESSAGE packets or through a Warden (R208, R209, R458,
R460), and the use of a telemetry record (R207, R208).
-/
namespace Sys2Proof.Machine

/-- Credit units of a packet (R458). -/
def creditUnits (payload : Nat) : Nat := (28 + payload + 31) / 32

/-- Units of a port's channel returned: 0 Request, 1 Response, 2 Posted (R458). A packet that has come asks for the Armature clock
(R35). -/
def State.credit (s : State) (port chan units : Nat) : State :=
  let k := 4 * port + chan
  { s with ebx := { s.ebx with ret := Tbl.set s.ebx.ret k (Tbl.get 0 s.ebx.ret k + BitVec.ofNat 32 units), wake := true } }

/-- The site whose SITE_EP is an endpoint, 8 for any other (R460). -/
def State.siteOfEp (s : State) (ep : Nat) : Nat :=
  ((List.range 8).find? fun n => Tbl.get 0xFFFF s.ebx.siteEp n == ep).getD 8

/-- A MESSAGE that is discarded: counted in EBX_CNT_MSG_BAD of its source (R460). -/
def State.badMsg (s : State) (ep : Nat) : State :=
  let k := s.siteOfEp ep
  s.bump 13 k (Tbl.get {} s.ebx.msgBad k) fun c s =>
    { s with ebx := { s.ebx with msgBad := Tbl.set s.ebx.msgBad k c } }

/-- The pair link carries the shadow: a lane is up, and both ends have the same PAIR_PROTO major (R140, R482). -/
def State.shadowLink (s : State) : Bool :=
  s.pair.lanes != 0#2 && s.boot.run.all fun m => m.pairProto / 256 == s.pair.peerProto / 256

/-- The Lead shadows job marks, choices, emissions and binds as ingested, while the pair link carries it (R482, R483). -/
def State.shadowRec (s : State) (typ : Nat) (rec : Bytes) : State :=
  if s.pair.st = .lead ∧ s.shadowLink ∧ (typ = 2 ∨ typ = 4 ∨ typ = 7 ∨ typ = 8) then s.emit (.pairFrame 5 rec) else s

/-- A site record of a TYPE and length arrives, through the site's Warden (none) or as a MESSAGE on a port from an
endpoint (R209, R460). -/
def State.siteMsg (s : State) (src : Option (Nat × Nat)) (rec : Bytes) (typ len : Nat) (f : Nat → State → State) :
    State :=
  let n := u8 rec 1
  match src with
  | none => if rec.length = len ∧ u8 rec 0 = typ ∧ n < 8 then f n (s.shadowRec typ rec) else s
  | some (port, ep) =>
    if s.pwr.core && s.pwr.fabric && s.ebx.up.getLsbD port then
      let s := s.credit port 2 (creditUnits rec.length)
      if rec.length = len ∧ u8 rec 0 = typ ∧ n < 8 ∧ Tbl.get 0xFFFF s.ebx.siteEp n = ep then f n (s.shadowRec typ rec)
      else s.badMsg ep
    else s

/-- SITE_PMAX of a site's voltage table (R225). -/
def SiteCap.pmax (c : SiteCap) : Option Nat := c.vtable.map fun b => u32 b 4

/-- The first arrival of a telemetry SEQ is used, the second discarded (R208). The model knows the last 256 values of SEQ that it used
since the site entered RUNNING (DESIGN CHOICE, log 86). -/
def State.useTelemetry (s : State) (n : Nat) (rec : Bytes) : State :=
  let c := s.capS n
  if !c.seen.contains (u32 rec 4) then
    let imp := c.pmax.any fun p => decide ((p : Int) < sle rec 0x10 4)
    let s := s.setCapS n { c with telem := some rec, telemAt := s.plinth, telemStale := false, implausible := imp
                                  seen := (u32 rec 4 :: c.seen).take 256 }
    let h : ChiselSite := Tbl.get {} s.chi n
    let s := { s with chi := Tbl.set s.chi n { h with record := some rec } }
    if imp && !c.implausible then s.capEvent n 5 c.cap (s.peaks n).avg1ms 0 else s
  else s

def execTelemetryRecord (port src : Nat) (rec : Bytes) (s : State) : Host.Outcome State Fault Refusal :=
  s.standbyDo fun s => s.siteMsg (some (port, src)) rec 1 64 fun n s => s.useTelemetry n rec

/-- The Warden's poll of a site's record; none is no answer (R208). -/
def execWardenTelemetryPoll (site : Nat) (rec : Option Bytes) (s : State) : Host.Outcome State Fault Refusal :=
  s.standbyDo fun s => match rec with
    | some b => if u8 b 1 = site then s.siteMsg none b 1 64 fun n s => s.useTelemetry n b else s
    | none => s

/-- 1 ms without a record from a running site: TELEM_STALE with one CAP_EVENT record per episode (R208). -/
def execTelemetryStaleTimeout (site : Nat) (s : State) : Host.Outcome State Fault Refusal :=
  s.standbyDo fun s =>
    let c := s.capS site
    if (s.site site).st.runs && !c.telemStale then
      (s.setCapS site { c with telemStale := true }).capEvent site 4 c.cap (s.peaks site).avg1ms 0
    else s

end Sys2Proof.Machine
end

