-- ==== Sys2Proof/Machine/Meter.lean ====
section
/-!
DEFINITION. Machine/Meter.lean: metering, energy, job marks, peaks and averages (R210 to R213, R228 to R234).
-/
namespace Sys2Proof.Machine

/-- The METER_RAIL channels of a site: voltage and current. -/
def State.meterChans (s : State) (n : Nat) : Option Nat × Option Nat :=
  let g := 32 * n + cpMeterRail.nat (s.capEntryNow n)
  (s.chanOf g 1, s.chanOf g 2)

/-- A METER_RAIL channel of the site is stale (R213). -/
def State.meterStale (s : State) (n : Nat) : Bool :=
  let m := s.meterChans n
  m.1.any (fun c => (s.chan c).stale) || m.2.any fun c => (s.chan c).stale

/-- The interval power of a site [mW], and whether it is estimated (R210, R213). -/
def State.sitePower (s : State) (n : Nat) : Int × Bool :=
  let c := s.capS n
  if s.meterStale n then (c.lastValid, true)
  else if 0 < c.prodN then (roundDiv c.prodSum (10000 * 2 ^ 48 * c.prodN), false)
  else (roundDiv c.prodLast (10000 * 2 ^ 48), false)

/-- Energy of an interval [nJ] from its power [mW] and length [ns]; reverse flow adds nothing (R228). -/
def intervalNj (mw : Int) (len : Nat) : Nat := if mw ≤ 0 then 0 else mw.toNat * len / 1000

/-- Energy added to a site's SITE_ENERGY, with its wrap event (R228, R503). -/
def State.addSite (s : State) (n nj : Nat) : State :=
  let r := (Tbl.get {} s.met.energy n : Energy).add nj
  let s := { s with met := { s.met with energy := Tbl.set s.met.energy n r.1 } }
  if r.2 then s.event 5 503 n 0 else s

def State.addTray (s : State) (nj : Nat) : State :=
  let r := s.met.tray.add nj
  let s := { s with met := { s.met with tray := r.1 } }
  if r.2 then s.event 5 503 8 0 else s

/-- The marks of a site that lie before a time take effect in order of time (R230). -/
def State.dueMarks (s : State) (n stop : Nat) : List Mark :=
  sortBy (fun (a b : Mark) => decide (a.time ≤ b.time)) (s.met.ahead.filter fun m => m.site == n && decide (m.time < stop))

/-- A mark takes effect on its site at a time, for its job and its runs (R229, R231, R345). -/
def State.markNow (s : State) (n : Nat) (begins : Bool) (id t : Nat) : State :=
  let s := s.applyMark n begins id t
  if begins then s else s.armsEnded n id

/-- One site's interval, integrated and attributed (R210, R213, R228, R230). An estimated one marks the job it is attributed to before the
marks due in it take effect, so that a job closed by one of them is handed over ESTIMATED. -/
def State.siteInterval (s : State) (start len n : Nat) : State :=
  let p := s.sitePower n
  let nj := intervalNj p.1 len
  let c := s.capS n
  let s := s.setCapS n { c with power := p.1, lastValid := p.1, prodSum := 0, prodN := 0 }
  let s := if p.2 then s.bumpSite n 3 else s
  let job := Tbl.get 0 s.met.siteJob n
  let s := (s.addSite n nj).addTo n job nj
  let s := if p.2 then s.markEstimated job else s
  let h : List Interval := ⟨start, len, nj, [(start, job)], p.2⟩ :: Tbl.get [] s.met.hist n
  let s := { s with met := { s.met with hist := Tbl.set s.met.hist n (h.take 100) } }
  let due := s.dueMarks n (start + len)
  let s := { s with met := { s.met with ahead := s.met.ahead.filter fun m => !(m.site == n && decide (m.time < start + len)) } }
  let s := due.foldl (fun s m => s.markNow n m.begins m.id (max m.time start)) s
  let k := s.peaks n
  let hold := decide (k.hold < p.1) || !k.holdSet
  s.setPeaks n { k with cur := p.1 :: k.cur, hold := if hold then p.1 else k.hold
                        holdAt := if hold then s.ptime else k.holdAt, holdSet := true }

/-- Bus samples corrected by the module calibration table (R539). -/
def State.busSamples (s : State) (bus : List (Nat × Int)) : List (Nat × Int) := bus.map fun x => s.busCorrect x.1 x.2

/-- Relief's episode and hold-up keep the least bus voltage and the peak current (R187, R240). -/
def State.busSeen (s : State) (v : Nat) (i : Int) : State :=
  let s := { s with snap := { s.snap with busV := v, minBus := if s.snap.holdup then min s.snap.minBus v else s.snap.minBus }
                    met := { s.met with busI := i } }
  if s.rel.st = .idle then s
  else { s with rel := { s.rel with minV := min s.rel.minV v, peakI := max s.rel.peakI i } }

/-- The tray's interval (R211, R228): the mean of the products of its bus samples, and the non-site power. Of an interval that is cut
short the samples are not known; it takes the bus as last measured (DESIGN CHOICE, log 87). -/
def State.trayInterval (s : State) (len : Nat) (bus : List (Nat × Int)) : State :=
  let b := if bus = [] then [(s.snap.busV, s.met.busI)] else s.busSamples bus
  let sum := (b.map fun x => (x.1 : Int) * x.2).foldl (· + ·) 0
  let p := roundDiv sum (100 * b.length)
  let sites := ((List.range 8).map fun n => (s.capS n).power).foldl (· + ·) 0
  let s := b.foldl (fun (s : State) (x : Nat × Int) => s.busSeen x.1 x.2) s
  let s := s.addTray (intervalNj p len)
  let k := s.peaks 8
  let hold := decide (k.hold < p) || !k.holdSet
  let s := s.setPeaks 8 { k with cur := p :: k.cur, hold := if hold then p else k.hold
                                 holdAt := if hold then s.ptime else k.holdAt, holdSet := true }
  { s with met := { s.met with nsCur := (p - sites) :: s.met.nsCur } }

/-- A metering interval of a length ends (R210, R228). -/
def State.meterEnd (s : State) (start len : Nat) (bus : List (Nat × Int)) : State :=
  ((List.range 8).foldl (fun s n => s.siteInterval start len n) s).trayInterval len bus

/-- A 100 µs interval ends: at a multiple of 100,000 ns of the count (R210). The first one after a step began mid-way, and is shorter.
While the core domain is off the count stands, and metering's own time goes on with its intervals (R237). -/
def execMeteringIntervalEnd (bus : List (Nat × Int)) (s : State) : Host.Outcome State Fault Refusal :=
  s.standbyDo fun s =>
    let stop := max (s.mtime / 100000 * 100000) ((s.met.start / 100000 + 1) * 100000)
    let start := max s.met.start (stop - 100000)
    let s := s.meterEnd start (stop - start) bus
    { s with met := { s.met with start := stop, base := if s.pwr.core then s.met.base else (stop : Int) - s.pnt.count } }

/-- The count takes a new value that metering goes over to: the interval in progress ends, and is integrated with the energy it holds;
the next intervals align to that count. The intervals kept lie on another timeline; marks that are still ahead stay as far ahead (R323;
DEDUCED, log 118). -/
def State.meterCut (s : State) (count : Nat) : State :=
  let now := s.mtime
  let len := min 100000 (now - s.met.start)
  let s := if len = 0 then s else s.meterEnd s.met.start len []
  { s with met := { s.met with start := count, base := 0, hist := []
                               ahead := s.met.ahead.map fun m => { m with time := count + (m.time - now) } } }

/-- The mean of a list, rounded to nearest (R233); 0 of an empty one. -/
def mean (l : List Int) : Int := if l = [] then 0 else roundDiv (l.foldl (· + ·) 0) l.length

/-- The largest of a list. -/
def greatest : List Int → Int
  | [] => 0
  | a :: r => r.foldl max a

/-- A 1 ms window of one metered thing ends (R233). -/
def State.peakWindow (s : State) (n : Nat) : State :=
  let k := s.peaks n
  if k.cur = [] then s else
    let m := mean k.cur
    let ms := (m :: k.ms).take 1000
    s.setPeaks n { k with cur := [], avg1ms := m, ms := ms, peak1ms := greatest k.cur, peak1msAt := s.ptime
                          avg1s := mean ms, avg1sAt := s.ptime, secSum := k.secSum + m, secN := k.secN + 1 }

/-- P_nonsite (R211): the mean over the last 1,000 windows, 0 before the first. -/
def State.nonsite (s : State) : Int := mean s.met.nonsite

def execPowerWindow1msEnd (s : State) : Host.Outcome State Fault Refusal :=
  s.standbyDo fun s =>
    let s := (List.range 9).foldl State.peakWindow s
    if s.met.nsCur = [] then s
    else { s with met := { s.met with nonsite := (mean s.met.nsCur :: s.met.nonsite).take 1000, nsCur := [] } }

def State.secWindow (s : State) (n : Nat) : State :=
  let k := s.peaks n
  if k.secN = 0 then s else
    let l := (roundDiv k.secSum k.secN :: k.secs60).take 60
    s.setPeaks n { k with secs60 := l, avg60s := mean l, avg60sAt := s.ptime, secSum := 0, secN := 0 }

def execPowerWindow1sEnd (s : State) : Host.Outcome State Fault Refusal :=
  s.standbyDo fun s => (List.range 9).foldl State.secWindow s

/-! ## Job marks (R209, R229, R230) -/

/-- A mark is used once, by its MARK_SEQ; the values skipped are counted in MARK_LOST and may still arrive (R209). -/
def State.markFresh (s : State) (n seq : Nat) : State × Bool :=
  let miss : List Nat := Tbl.get [] s.met.markMiss n
  match Tbl.find? s.met.markSeq n with
  | none => ({ s with met := { s.met with markSeq := Tbl.set s.met.markSeq n seq } }, true)
  | some l =>
    let d := (seq + 2 ^ 32 - l) % 2 ^ 32
    if d = 0 then (s, false)
    else if d < 2 ^ 31 then
      let gap := (List.range (min (d - 1) 256)).map fun i => (l + 1 + i) % 2 ^ 32
      let s := { s with met := { s.met with markSeq := Tbl.set s.met.markSeq n seq
                                            markMiss := Tbl.set s.met.markMiss n ((gap ++ miss).take 256) } }
      (if d = 1 then s else s.bumpSite n 4, true)
    else if miss.contains seq then
      ({ s with met := { s.met with markMiss := Tbl.set s.met.markMiss n (miss.filter (· != seq)) } }, true)
    else (s, false)

/-- A job mark (R229, R230): late marks take effect at the current interval, marks more than 10 ms ahead are discarded. With Pointing
not acquired a mark takes effect at the controller's own time as it comes (DEDUCED, log 118). -/
def State.jobMark (s : State) (n : Nat) (rec : Bytes) : State :=
  let r := s.markFresh n (u32 rec 4)
  let begins := u8 rec 2 == 1
  let id := u64 rec 8
  let t := u64 rec 0x10
  let s := r.1
  if !r.2 || id = 0 || !(u8 rec 2 == 1 || u8 rec 2 == 2) then s
  else if !s.pnt.valid then s.markNow n begins id (max s.met.start s.mtime)
  else if s.pnt.count + 10000000 < t then s.bumpSite n 6
  else if t + 10000000 < s.pnt.count then (s.bumpSite n 5).markNow n begins id (max s.met.start 1)
  else if s.met.start ≤ t then { s with met := { s.met with ahead := s.met.ahead ++ [⟨n, t, begins, id⟩] } }
  else s.markNow n begins id t

def execJobMark (src : Option (Nat × Nat)) (rec : Bytes) (s : State) : Host.Outcome State Fault Refusal :=
  s.standbyDo fun s => s.siteMsg src rec 2 32 fun n s => s.jobMark n rec

/-- JOB_RELEASE of a closed entry (R231). -/
def execJobRelease (_ : Req) (job : Nat) (s : State) : Host.Outcome State Fault Refusal :=
  s.coreDo fun s => if job < 1024 ∧ (s.job job).st = 2 then s.releaseJob job else s

/-- PEAK_CLR (R234): PWR_PEAK_HOLD of a site or the tray. -/
def execPeakClr (r : Req) (inst : Nat) (s : State) : Host.Outcome State Fault Refusal :=
  s.coreDo fun s => s.withWriteRight r .counterClear 0x501A0 fun s =>
    if inst < 9 then s.setPeaks inst { s.peaks inst with hold := 0, holdAt := 0, holdSet := false } else s

end Sys2Proof.Machine
end

