-- ==== Sys2Proof/Machine/Sites.lean ====
section
/-!
DEFINITION. Machine/Sites.lean: the commands of sites and rails (chapter 5): SITE_CMD, insertion, identification,
adoption, the rails' timers and inputs, PMBus, TRAY_RESET and Warden resets.
-/
namespace Sys2Proof.Machine

/-- The site is held by an Isolate or Tray stop reaction (R313). -/
def State.leakHeld (s : State) (n : Nat) : Bool :=
  (List.range 16).any fun z => (Tbl.get ({} : LeakZone) s.haz.zones z).latched &&
    (Tbl.get ({} : LeakZone) s.haz.zones z).sites.testBit n

/-! ## Identification (R162, R163, R166) -/

/-- The identity ROM's header is good (R162, R163). -/
def romOk (b : Bytes) : Bool := u32 b 0 == 0x52444953 && u16 b 4 == 1 && u32 b 0x3C == crc32c (b.take 0x3C)

/-- PART_KEY AND MASK equals VALUE AND MASK, byte for byte (R163). -/
def keyMatch (rom tpl : Bytes) : Bool :=
  (List.range 16).all fun i => u8 rom (8 + i) &&& u8 tpl (0x30 + i) == u8 tpl (0x20 + i) &&& u8 tpl (0x30 + i)

/-- The lowest-numbered template a site matches (R163). -/
def State.matchTpl (s : State) (n : Nat) (rom : Bytes) : Option Nat :=
  (List.range ((s.sec 0x02).length / tplSize)).find? fun t =>
    let tpl := tplOf (s.sec 0x02) t
    (tplAllowed tpl).testBit n && keyMatch rom tpl

/-- A voltage table is readable (R225). -/
def vtableOk (b : Bytes) : Bool :=
  let r := u8 b 0
  let d := u8 b 1
  decide (1 ≤ r) && decide (r ≤ 32) && decide (d ≤ 8) && zeroAt b 2 2 && zeroAt b 0xC 4 &&
    b.length == 16 + 8 * r + 8 * d + 4 && decide (100000 ≤ u32 b 4) && decide (u32 b 4 ≤ 4000000) &&
    decide (u32 b 4 ≤ u32 b 8) && decide (u32 b 8 ≤ 8000000) &&
    (List.range r).all (fun k => let e := slice b (0x10 + 8 * k) 8
      decide (u8 e 0 ≤ 31) && u8 e 1 == 0 && decide (u16 e 4 ≤ u16 e 2) && decide (u16 e 2 ≤ u16 e 6)) &&
    (List.range d).all fun j => let e := slice b (0x10 + 8 * r + 8 * j) 8
      decide (u8 e 0 ≤ 7) && zeroAt e 1 3

def State.chiS (s : State) (n : Nat) : ChiselSite := Tbl.get {} s.chi n
def State.setChiS (s : State) (n : Nat) (x : ChiselSite) : State := { s with chi := Tbl.set s.chi n x }

/-- The model cleared: no cluster, no candidate (R264, R266). -/
def ChiselSite.clear (c : ChiselSite) : ChiselSite := { c with clusters := [], cur := none, cand := none, candN := 0 }

/-- Domain count of a site's voltage table; 0 without one (R225, R227). -/
def SiteCap.domains (c : SiteCap) : Nat := c.vtable.elim 0 fun b => u8 b 1

/-- An identified site: the software bounds of its domains return to the hardware ones, and another SITE_SERIAL or domain
count clears its model (R263, R266). -/
def State.chiselIdentified (s : State) (n serial : Nat) : State :=
  let c := s.chiS n
  let d := (s.capS n).domains
  let same := c.serial = serial ∧ c.domains = d
  let c := if same then c else c.clear
  s.setChiS n { c with swFloor := [], swCeil := [], serial := serial, domains := d }

/-- The site's voltage table and calibration record are read (R164, R178, R225, R227). -/
def State.readRecords (s : State) (n : Nat) (rom : Bytes) : State :=
  let vt := (romRecord rom 1).join.filter vtableOk
  let cr := romRecord rom 2
  let ok := cr.join.filter scalOk
  let s := s.setCapS n { s.capS n with vtable := vt, vtMissing := vt.isNone, calRec := ok }
  let s := if vt.isNone then s.capEvent n 6 (s.capS n).cap (s.peaks n).avg1ms 0 else s
  let bad := cr.isSome && ok.isNone
  let s := { s with svy := { s.svy with calNeutral := setBit s.svy.calNeutral n bad } }
  let s := if bad then s.event 4 178 n 0 else s
  (s.calSetSite n).chiselIdentified n (le rom 0x18 16)

/-- A site identified with another SITE_SERIAL: its 32 rails' counters are recorded as retired and cleared; counters
that belong to no serial are taken over (R184). Its Patina counters follow likewise (R236). -/
def State.retireCounters (s : State) (n : Nat) (serial : Nat) : State :=
  let own := Tbl.get 0 s.rcnt.owners n
  let s := if own ≠ 0 ∧ own ≠ serial then
      let s := (List.range 32).foldl (fun s k =>
        let c := s.railCnt (32 * n + k)
        s.pushRec { s.mkRec 0x05 (32 * n + k) 0 (some n)
          ((List.range 7).flatMap fun i => leBytes 4 (Tbl.get ({} : Cnt) c.cnt i).val.toNat) with retired := true }) s
      (List.range 32).foldl (fun s k => s.setRailCnt (32 * n + k) { cnt := [], dirty := true }) s
    else s
  let s := { s with rcnt := { s.rcnt with owners := Tbl.set s.rcnt.owners n serial } }
  let p : PatinaSet := Tbl.get {} s.pat.sets n
  if p.serial = serial then s
  else { s with pat := { s.pat with sets := Tbl.set s.pat.sets n
                                      (if p.serial = 0 then { p with serial := serial } else { serial := serial }) } }

/-- The controller powers no site up whose Warden is absent (R45), and none under Plaster (R135). An UP then completes STATE 0x53
(DESIGN CHOICE, logs 79 and 107: no rule names a status). -/
def State.upBarred (s : State) (n : Nat) : Bool := s.pwr.absent.getLsbD (24 + n) || (s.boot.run.isSome && s.boot.slot == 2)

/-- A site is ordered up: an attempt begins (R164). -/
def State.siteUp (s : State) (n attempt : Nat) : State :=
  let s := s.setSite n { s.site n with attempt := attempt, failedUp := false, downfault := false }
  ((s.siteTo n .seqUp).orderUp (32 * n) 32 allRails).settle (32 * n)

/-- A read identity ROM: matched, unmatched, or read again (R163, R164). -/
def State.identify (s : State) (n : Nat) (rom : Bytes) : State :=
  let x := s.site n
  if x.st ≠ .identifying then s
  else if romOk rom then
    let s := s.setSite n { x with rom := rom, romReads := 0 }
    match s.matchTpl n rom with
    | some t =>
      let s := s.setSite n { s.site n with template := t, stale := false }
      let s := s.retireCounters n (s.serial n)
      let s := s.readRecords n rom
      let s := (s.siteTo n .off).siteEvent n 0x01
      if tplAutoUp (tplOf (s.sec 0x02) t) && !s.snap.holdup && !s.leakHeld n && !s.upBarred n then s.siteUp n 1 else s
    | none =>
      let s := s.setSite n { s.site n with template := 0xFF }
      ((s.siteTo n .unmatched).siteEvent n 0x02).event 3 164 n 3
  else if x.romReads + 1 < 3 then s.setSite n { x with romReads := x.romReads + 1 }
  else
    let s := s.setSite n { x with romReads := 0, rom := [], template := 0xFF }
    ((s.siteTo n .unmatched).siteEvent n 0x02).event 3 164 n 3

/-- The site enters IDENTIFYING and its ROM is read; with no SITE_TEMPLATES it becomes UNMATCHED (R164, R166). -/
def State.toIdentify (s : State) (n : Nat) : State :=
  let s := s.setSite n { s.site n with romReads := 0 }
  if s.hasSec 0x02 then s.siteTo n .identifying
  else
    let s := s.setSite n { s.site n with template := 0xFF }
    ((s.siteTo n .unmatched).siteEvent n 0x02).event 3 164 n 3

/-! ## SITE_CMD (R165) -/

/-- A SITE_CMD completes: SITE_CMD_STATUS and the status on its path. -/
def State.siteDone (s : State) (r : Req) (n code : Nat) : State :=
  { s with seq := { s.seq with cmdStatus := code, cmdSite := n % 8 } }.complete r code 0 0

/-- A reaction to a fault runs on a site: a Group shutdown, a Rail retry, or the System reset that takes the site (R154, R156). -/
def State.reacting (s : State) (n : Nat) : Bool :=
  (s.site n).reaction || (s.seq.sysReset && s.seq.sysSites.getLsbD n) ||
    (List.range 32).any fun k => (s.rail (32 * n + k)).inRetry && (match (s.rail (32 * n + k)).st with
      | .retryFall | .backoff => true
      | .upDelay | .rising => (s.rail (32 * n + k)).retryAt.isSome
      | _ => false)

/-- The gate of every site command: the site power right, a valid site, a committed structure, and no reaction running
(R11, R156, R165). -/
def State.siteCmd (s : State) (r : Req) (n : Nat) (f : State → State) : State :=
  if !s.may r.principal .sitePower then (s.refuseWrite r.path r.principal 0x31000).siteDone r n 0x37
  else if n ≥ 8 then s.siteDone r n 0x10
  else if s.maq.live.isNone then s.siteDone r n 0x54
  else if s.reacting n then s.siteDone r n 0x48
  else f s

def execSiteUp (r : Req) (site : Nat) (s : State) : Host.Outcome State Fault Refusal :=
  s.coreDo fun s => s.siteCmd r site fun s =>
    if s.leakHeld site then s.siteDone r site 0x55
    else if s.upBarred site && ((s.site site).st == .off || (s.site site).st == .degraded) then s.siteDone r site 0x53 else
    match (s.site site).st with
    | .off => if s.snap.holdup then s.siteDone r site 0x41 else (s.siteUp site 1).siteDone r site 0
    | .degraded => if s.snap.holdup then s.siteDone r site 0x41 else (s.siteUp site 1).siteDone r site 0
    | .running | .seqUp | .retryWait => s.siteDone r site 0
    | .faulted => s.siteDone r site 0x52
    | .absent | .settling | .identifying => s.siteDone r site 0x50
    | .unmatched => s.siteDone r site 0x51
    | .seqDown => s.siteDone r site 0x48
    | .unadopted => s.siteDone r site 0x53

def execSiteDown (r : Req) (site : Nat) (s : State) : Host.Outcome State Fault Refusal :=
  s.coreDo fun s => s.siteCmd r site fun s =>
    match (s.site site).st with
    | .seqUp | .running | .degraded => ((s.siteDownSeq site false).settle (32 * site)).siteDone r site 0
    | .retryWait => (s.siteTo site .off).siteDone r site 0
    | .off | .faulted => s.siteDone r site 0
    | .seqDown => (s.setSite site { s.site site with failedUp := false }).siteDone r site 0
    | _ => s.siteDone r site 0x53

def execSiteClear (r : Req) (site : Nat) (s : State) : Host.Outcome State Fault Refusal :=
  s.coreDo fun s => s.siteCmd r site fun s =>
    if (s.site site).st = .faulted then
      (if (s.site site).stale then s.toIdentify site else s.siteTo site .off).siteDone r site 0
    else s.siteDone r site 0x53

/-- ADOPT (R168): the Warden takes drive, its enables at the levels that the latch holds, and every USED rail not off is treated as on
and sequenced down. -/
def execSiteAdopt (r : Req) (site : Nat) (s : State) : Host.Outcome State Fault Refusal :=
  s.coreDo fun s => s.siteCmd r site fun s =>
    if (s.site site).st = .unadopted then
      let s := s.setSite site { s.site site with driven := true }
      let s := (List.range 32).foldl (fun s k =>
        let g := 32 * site + k
        if s.used g && !s.railOff g then (s.setRail g { s.rail g with st := .good }).fullRate g
        else s.setRail g { s.rail g with st := .off }) s
      ((s.siteDownSeq site false).settle (32 * site)).siteDone r site 0
    else s.siteDone r site 0x53

def execSiteIdentify (r : Req) (site : Nat) (s : State) : Host.Outcome State Fault Refusal :=
  s.coreDo fun s => s.siteCmd r site fun s =>
    if (s.site site).st = .off ∨ (s.site site).st = .unmatched then (s.toIdentify site).siteDone r site 0
    else s.siteDone r site 0x53

/-- A command code outside the table completes FORMAT with no effect, whatever the site's state (R165); so it does while no structure
is committed, where R165 also has every command complete NO_STRUCTURE (DESIGN CHOICE, log 73). -/
def execSiteCmdInvalid (r : Req) (site code : Nat) (s : State) : Host.Outcome State Fault Refusal :=
  s.coreDo fun s =>
    if code = 0 ∨ 6 ≤ code then
      if s.may r.principal .sitePower then s.siteDone r site 0x10
      else (s.refuseWrite r.path r.principal 0x31000).siteDone r site 0x37
    else s

/-! ## Insertion and removal (R164, R166, R167) -/

/-- The settle time of a site: the longest INSERT_SETTLE among the templates that allow it, else 100 ms (R164). -/
def State.settleMs (s : State) (n : Nat) : Nat :=
  let l := (List.range ((s.sec 0x02).length / tplSize)).filter fun t => (tplAllowed (tplOf (s.sec 0x02) t)).testBit n
  if l = [] then 100 else (l.map fun t => tplSettle.nat (tplOf (s.sec 0x02) t)).foldl max 0

def execSitePresentAsserted (site : Nat) (s : State) : Host.Outcome State Fault Refusal :=
  s.standbyDo fun s =>
    let s := { s with pins := { s.pins with present := setBit s.pins.present site true } }
    if (s.site site).st = .absent && s.maq.live.isSome && !s.pwr.absent.getLsbD (24 + site) then s.siteTo site .settling else s

def execSiteSettleExpiry (site : Nat) (s : State) : Host.Outcome State Fault Refusal :=
  s.standbyDo fun s =>
    if (s.site site).st = .settling && s.pins.present.getLsbD site && !s.pwr.absent.getLsbD (24 + site) then s.toIdentify site
    else s

def execSiteIdentityRead (site : Nat) (rom : Bytes) (s : State) : Host.Outcome State Fault Refusal :=
  s.standbyDo fun s => if (s.site site).romReads = 0 then s.identify site rom else s

/-- 10 ms after a bad header the ROM is read again (R163). -/
def execSiteIdromRereadTimer (site : Nat) (rom : Bytes) (s : State) : Host.Outcome State Fault Refusal :=
  s.standbyDo fun s => if (s.site site).romReads = 0 then s else s.identify site rom

/-- Presence lost for 2 ms (R164, R167): every enable deasserted without order, every rail judged off, one SITE_REMOVED
record. -/
def execSitePresenceLost (site : Nat) (s : State) : Host.Outcome State Fault Refusal :=
  s.standbyDo fun s =>
    let s := { s with pins := { s.pins with present := setBit s.pins.present site false } }
    match (s.site site).st with
    | .absent => s
    | .settling => s.siteTo site .absent
    | _ =>
      let s := (List.range 32).foldl (fun (s : State) k =>
        let r := s.rail (32 * site + k)
        let s := if r.enable then s.pmbusWrite (32 * site + k) false else s
        s.setRail (32 * site + k) { pg := r.pg, lastBack := r.lastBack }) s
      let s := s.siteEvent site 0x05
      let s := s.siteTo site .absent
      let s := s.setSite site { s.site site with reaction := false, driven := false, template := 0xFF, rom := [] }
      s.sysSettle

/-- 1 s in RETRY_WAIT elapses while hold-up is not active: the next attempt (R164); none while a System reset takes the site (R154). -/
def execSiteRetryWaitExpiry (site : Nat) (s : State) : Host.Outcome State Fault Refusal :=
  s.standbyDo fun s =>
    if (s.site site).st = .retryWait && !s.snap.holdup && !(s.seq.sysReset && s.seq.sysSites.getLsbD site) && !s.upBarred site then
      s.siteUp site ((s.site site).attempt + 1) else s

/-! ## Adoption (R168) -/

/-- Power-good of a rail at its adoption: asserted on a rail judged good and deasserted on one judged off. On any other it is asserted
where its voltage lies below OFF_LEVEL, since the rail would be off otherwise, and else as last seen (R149). -/
def State.adoptPg (s : State) (g : Nat) (good off : Bool) : Bool :=
  good || (!off && ((s.rail g).pg || (s.chanOf g 1).any fun c =>
    !(s.chan c).stale && decide ((s.chan c).value < ndOffLevel.val (s.node g))))

/-- Adoption of a site by its Warden: `good` and `off` are the rails it judged over its observation, `latched` the
enables the Site Keeper latch holds, `ep`, `digest` and `version` what the site reports (R138, R168, R455). A site with `skip` is left
under its latch, as after a failure of step 18 (R101). A site adopted as anything but RUNNING has ended its part in its job (R231). It
runs only while this controller is LEAD with a structure committed (R75, R102), and not for an absent Warden (R45). -/
def State.adopt (s : State) (n : Nat) (rom : Bytes) (good off latched ep : Nat) (digest : Bytes) (version : Nat) (skip : Bool) :
    State :=
  if s.pair.st ≠ .lead ∨ s.maq.live.isNone ∨ s.pwr.absent.getLsbD (24 + n) ∨ s.rst.wardenHeld.getLsbD n then s
  else if !s.pins.present.getLsbD n then (s.endJobOn n false).siteTo n .absent
  else
    let s := { s with ebx := { s.ebx with siteEp := Tbl.set s.ebx.siteEp n ep } }
    let tpl := if romOk rom then s.matchTpl n rom else none
    let s := s.setSite n { s.site n with rom := if romOk rom then rom else [], template := tpl.getD 0xFF, stale := false
                                         imageDigest := digestAt digest 0, imageVersion := version, driven := true }
    let used := (List.range 32).filter fun k => s.used (32 * n + k)
    let s := (List.range 32).foldl (fun s k =>
      s.setRail (32 * n + k) { s.rail (32 * n + k) with
        enable := latched.testBit k, pg := s.adoptPg (32 * n + k) (good.testBit k) (off.testBit k), qualified := good.testBit k, fresh := good.testBit k
        downReq := false, st := if good.testBit k && used.contains k then .good else .off }) s
    let s := used.foldl (fun (s : State) k => if off.testBit k then s else s.fullRate (32 * n + k)) s
    match tpl with
    | none => ((s.endJobOn n false).setSite n { s.site n with driven := false }).siteTo n .unadopted |>.siteEvent n 0x07
    | some _ =>
      let s := s.retireCounters n (s.serial n)
      let s := s.readRecords n rom
      if !skip && used.all good.testBit then (s.siteTo n .running).siteEvent n 0x06 else
      let s := s.endJobOn n false
      if !skip && used.all off.testBit then (s.siteTo n .off).siteEvent n 0x06
      else ((s.setSite n { s.site n with driven := false }).siteTo n .unadopted).siteEvent n 0x07

/-! ## Rail timers and inputs (R148 to R157) -/

def execRailUpDelayExpiry (rail : Nat) (s : State) : Host.Outcome State Fault Refusal :=
  s.standbyDo fun s =>
    let r := s.rail rail
    if r.st = .upDelay && !r.downReq then (s.moveRail rail r.enableNow).settle rail else s.settle rail

/-- A change of power-good: counted within a step, the qualify timer reset; a change past CHATTER_LIMIT ends a rising
step as CHATTER, and is recorded once in a power-down step (R149, R150). `level` is power-good asserted in the rail's
polarity. -/
def State.pgChange (s : State) (g : Nat) (level : Bool) : State :=
  let r := s.rail g
  if r.pg = level then s else
    let r := { r with pg := level, qualified := false, fresh := false }
    let past := decide (ndChatter.nat (s.node g) < r.changes + 1)
    match r.st with
    | .rising =>
      let s := s.setRail g { r with changes := r.changes + 1 }
      if past then s.stepFail g .chatter else s.settle g
    | .falling | .retryFall =>
      let s := s.setRail g { r with changes := r.changes + 1, chatterDone := r.chatterDone || past }
      let s := if past && !r.chatterDone then s.logFault g .chatter else s
      s.settle g
    | _ => (s.setRail g r).settle g

/-- The rails whose power-good one line carries: the site's rails that name the line's PG_INDEX, a module rail alone (R147). -/
def State.pgLine (s : State) (g : Nat) : List Nat :=
  if 256 ≤ g then [g]
  else ((List.range 32).map (scopeBase g + ·)).filter fun h =>
    h == g || (s.used h && ndPgKind.nat (s.node h) == 0 && ndPgIndex.nat (s.node h) == ndPgIndex.nat (s.node g))

/-- The power-good line of a rail changes to a level: every rail that shares the line moves with it, in its polarity (R147, R150). A
rail polled over PMBus has no line. -/
def execRailPgChange (rail : Nat) (level : Bool) (s : State) : Host.Outcome State Fault Refusal :=
  s.standbyDo fun s =>
    if ndPgKind.nat (s.node rail) = 1 then s
    else (s.pgLine rail).foldl (fun (s : State) g => s.pgChange g (level != ndPgLow (s.node g))) s

def execRailRiseTimeout (rail : Nat) (s : State) : Host.Outcome State Fault Refusal :=
  s.standbyDo fun s => if (s.rail rail).st = .rising then s.stepFail rail .seqFail else s

/-- Power-good of a GOOD rail deasserted for 10 µs with its voltage in window (R151): as R174 judges the channel, not as its latest
sample stands (DESIGN CHOICE, log 75). A stale channel is not judged, and the rail is supervised by power-good alone (R175). A Survey
fault of the same cycle is the one that is recorded. -/
def execRailPgLossTimer (rail : Nat) (s : State) : Host.Outcome State Fault Refusal :=
  s.standbyDo fun s =>
    let inWindow := match s.chanOf rail 1 with
      | some c => (s.chan c).stale || (s.chan c).out == 0
      | none => true
    let r := s.rail rail
    if s.wasGood rail && !r.pg && inWindow && r.surveyAt != some s.plinth && r.pgLossAt.all (fun x => x.1 != s.plinth) then
      let named := (Tbl.get ((0, 0, 0) : Nat × Nat × Nat) s.snap.sums ((siteOf rail).getD 8)).1.testBit (rail - scopeBase rail)
      (s.setRail rail { r with pgLossAt := some (s.plinth, named) }).cycleFault rail .pgLoss
    else s

def execRailDownDelayExpiry (rail : Nat) (s : State) : Host.Outcome State Fault Refusal :=
  s.standbyDo fun s =>
    let r := s.rail rail
    if r.st = .downDelay then (s.moveRail rail (r.disableNow .falling)).settle rail else s

def execRailFallTimeout (rail : Nat) (s : State) : Host.Outcome State Fault Refusal :=
  s.standbyDo fun s => match (s.rail rail).st with
    | .falling => (s.downfault rail 1).settle rail
    | .retryFall => ((s.downfault rail 1).groupShutdown rail).settle rail
    | _ => s

/-- A rail leaves BACKOFF (R153). -/
def State.backoffOver (s : State) (g : Nat) : State :=
  let r : Rail := { s.rail g with st := .upDelay, backoffDone := false }
  (s.moveRail g (if ndUpDelay.val (s.node g) = 0 ∧ ¬ r.downReq then r.enableNow else r)).settle g

/-- The backoff elapses; a rail in BACKOFF stays off while hold-up is active (R155, R169). -/
def execRailBackoffExpiry (rail : Nat) (s : State) : Host.Outcome State Fault Refusal :=
  s.standbyDo fun s =>
    let r := s.rail rail
    if r.st ≠ .backoff then s
    else if s.snap.holdup then s.setRail rail { r with backoffDone := true }
    else s.backoffOver rail

/-- Hold-up has ended: the rails whose backoff elapsed in it continue their retry (R169). -/
def State.backoffsOver (s : State) : State :=
  (List.range 280).foldl (fun (s : State) g => if (s.rail g).st = .backoff ∧ (s.rail g).backoffDone then s.backoffOver g else s) s

def execRailRetryCountReset (rail : Nat) (s : State) : Host.Outcome State Fault Refusal :=
  s.standbyDo fun s =>
    if (s.rail rail).st = .good then s.setRail rail { s.rail rail with retries := 0 } else s

/-- A PMBus PAGE and OPERATION write ends: acknowledged, made again, or failed for the third time (R148). -/
def execPmbusWriteDone (rail : Nat) (ok : Bool) (s : State) : Host.Outcome State Fault Refusal :=
  s.standbyDo fun s =>
    let r := s.rail rail
    if ndEnableKind.nat (s.node rail) ≠ 1 then s
    else if ok then s.setRail rail { r with pmbusTries := 0 }
    else if r.pmbusTries + 1 < 3 then (s.setRail rail { r with pmbusTries := r.pmbusTries + 1 }).pmbusWrite rail r.enable
    else
      let s := s.setRail rail { r with pmbusTries := 0 }
      match r.st with
      | .rising => s.stepFail rail .seqFail
      | .falling | .retryFall | .downfault => s.logFault rail .seqFail
      | _ => s

/-- A 500 µs poll of STATUS_WORD (R148): bit 11 at 0 is power good; three failed polls in a row count as deasserted. -/
def execPmbusPgPoll (rail : Nat) (status : Option Nat) (s : State) : Host.Outcome State Fault Refusal :=
  s.standbyDo fun s =>
    if ndPgKind.nat (s.node rail) ≠ 1 then s else
      let r := s.rail rail
      match status with
      | some w => (s.setRail rail { r with pollFails := 0 }).pgChange rail (!w.testBit 11)
      | none =>
        if r.pollFails + 1 < 3 then s.setRail rail { r with pollFails := r.pollFails + 1 }
        else (s.setRail rail { r with pollFails := 0 }).pgChange rail false

def execTrayResetWidthExpiry (s : State) : Host.Outcome State Fault Refusal :=
  s.standbyDo fun s => if s.seq.trayReset then (s.emit (.line 154 0)).sysResetEnd else s

/-! ## Warden resets (R96) -/

/-- A Warden resets on a cause of its own, its site lines undriven; the Site Keeper latch holds them (R95, R96). -/
def State.wardenReset (s : State) (w code : Nat) : State :=
  let s := { s with rst := { s.rst with
    wardenLast := Tbl.set s.rst.wardenLast w ⟨BitVec.ofNat 8 code, 1, BitVec.ofNat 48 s.plinth⟩
    wardenHeld := setBit s.rst.wardenHeld w true } }
  let s := s.siteLeft w
  let s := s.setCapS w { s.capS w with telemStale := false }
  let s := (List.range 32).foldl (fun s k => s.setRail (32 * w + k) { pg := (s.rail (32 * w + k)).pg, lastBack := (s.rail (32 * w + k)).lastBack }) s
  s.setSite w { rom := (s.site w).rom, imageDigest := (s.site w).imageDigest, imageVersion := (s.site w).imageVersion
                st := if s.pins.present.getLsbD w then .unadopted else .absent }

def execWardenBrownout (w : Nat) (s : State) : Host.Outcome State Fault Refusal :=
  s.standbyDo fun s => s.wardenReset w 0x20

def execWardenSupervisorReset (w : Nat) (s : State) : Host.Outcome State Fault Refusal :=
  s.standbyDo fun s => s.wardenReset w 0x21

/-- A reload commanded by the Plinth: undriven for 2 ms max, then reloaded; the adoption of its site follows (R96,
R168). -/
def execWardenReload (w : Nat) (s : State) : Host.Outcome State Fault Refusal :=
  s.standbyDo fun s =>
    let s := s.wardenReset w 0x22
    { s with rst := { s.rst with wardenHeld := setBit s.rst.wardenHeld w false }
             seq := { s.seq with toAdopt := setBit s.seq.toAdopt w true } }

/-- A Warden leaves a brown-out or supervisor reset: the Plinth reloads it, and it re-adopts its site (R96). -/
def execWardenResetRelease (w : Nat) (s : State) : Host.Outcome State Fault Refusal :=
  s.standbyDo fun s =>
    if s.rst.wardenHeld.getLsbD w then
      { s with rst := { s.rst with wardenHeld := setBit s.rst.wardenHeld w false }
               seq := { s.seq with toAdopt := setBit s.seq.toAdopt w true } }
    else s

end Sys2Proof.Machine
end

