-- ==== Sys2Proof/Machine/Commands.lean ====
section
/-!
DEFINITION. Machine/Commands.lean: what every Armature command shares: who carries it out, the right it needs, and the
session's interface version (R141, R449, R450, R468).
-/
namespace Sys2Proof.Machine

/-- A queued command's session states the running image's major version (R141, R450). A command that came by no queue
belongs to no fabric session. -/
def State.sessionOk (s : State) (r : Req) : Bool :=
  r.queue.isNone || match Tbl.find? s.boot.sessions r.principal, s.boot.run with
    | some v, some im => v / 256 == im.ifVersion / 256
    | _, _ => false

/-- A command that any image serves and that needs a right: DENIED without it. -/
def State.armRight (s : State) (r : Req) (x : Right) (f : State → State) : Host.Outcome State Fault Refusal :=
  s.fwDo fun s => s.withRight r x f

/-- An Armature command outside HELLO and 0x0101 to 0x0108: IF_MAJOR in a session of a different major (R141, R450). Plaster
does none of them (R135) and answers STATE, the code of R165 and R424 (DESIGN CHOICE, log 79: the rules name none here). -/
def State.armCmd (s : State) (r : Req) (x : Right) (f : State → State) : Host.Outcome State Fault Refusal :=
  s.armRight r x fun s =>
    if !s.sessionOk r then s.complete r 0x47 0 0
    else if s.boot.slot = 2 then s.complete r 0x53 0 0 else f s

end Sys2Proof.Machine
end

