-- ==== Sys2Proof/Machine/Pointing.lean ====
section
/-!
DEFINITION. Machine/Pointing.lean: the Pointing count, the SYNC lines and their frames, alignment, and the manager's start
(R322 to R336, R343).
-/
namespace Sys2Proof.Machine

/-! ## ROLE bytes 0x20 to 0x3F (R328) -/

def ptRole : Fld := ⟨0x20, 1, 1, 2, none, false⟩
def ptPeerMask : Fld := ⟨0x21, 1, 0, 15, none, false⟩
def ptIndex : Fld := ⟨0x22, 2, 0, 340, none, false⟩
def ptSiteMask : Fld := ⟨0x24, 1, 0, 255, none, false⟩
def ptHoldover : Fld := ⟨0x26, 2, 1, 600, some 10, false⟩
def ptCalPeriod : Fld := ⟨0x28, 2, 100, 10000, some 1000, false⟩
def ptLeadMin : Fld := ⟨0x2A, 2, 200, 10000, some 1000, false⟩
def ptFlds : List Fld := [ptRole, ptPeerMask, ptIndex, ptSiteMask, ptHoldover, ptCalPeriod, ptLeadMin]

def State.role (s : State) : Bytes := s.sec 0x0F

/-- Depth of a tree position (R327). -/
def depthOf (p : Nat) : Nat := if p = 0 then 0 else if p < 5 then 1 else if p < 21 then 2 else if p < 85 then 3 else 4

/-- Position of the child on peer line k (R327). -/
def childOf (p k : Nat) : Nat := 4 * p + k + 1

/-- Position `q` lies in the subtree of `c` (R327); four steps up reach the manager from any position. -/
def inSubtree (c : Nat) : Nat → Nat → Bool
  | 0, q => q == c
  | f + 1, q => q == c || (decide (0 < q) && inSubtree c f ((q - 1) / 4))

/-! ## Lines and frames (R324 to R326) -/

def State.line (s : State) (n : Nat) : SyncLine := Tbl.get {} s.pnt.lines n
def State.setLine (s : State) (n : Nat) (x : SyncLine) : State :=
  { s with pnt := { s.pnt with lines := Tbl.set s.pnt.lines n x } }

/-- A SYNC output is cabled: a peer line 1-4 of PEER_OUT_MASK, a site line 5-12 of SITE_OUT_MASK (R324, R328). -/
def State.cabled (s : State) (n : Nat) : Bool :=
  if n = 0 then false
  else if n < 5 then (ptPeerMask.nat s.role).testBit (n - 1)
  else (ptSiteMask.nat s.role).testBit (n - 5)

/-- Codes of the Pointing states (R325). -/
def PtSt.code : PtSt → Nat
  | .free => 0 | .calibrating => 1 | .locking => 2 | .locked => 3 | .holdover => 4 | .manager => 5

/-- The Pointing state of a code. -/
def PtSt.ofCode (c : Nat) : PtSt :=
  (([.calibrating, .locking, .locked, .holdover, .manager] : List PtSt).find? fun x => x.code == c).getD .free

/-- The STATE byte of a frame (R325). -/
def State.ptByte (s : State) : Nat := s.pnt.st.code + bitAt s.pnt.upstream 3 + 16 * depthOf s.treeIndex

/-- A frame leaves on a line: the return pair of line 0, or the forward pair of a cabled output that this controller
drives. A line that is down carries COUNT and CAL only (R331). SEQ counts per pair (R325). -/
def State.sendFrame (s : State) (n typ : Nat) (payload : Bytes) : State :=
  let l := s.line n
  if n = 0 || (s.cabled n && s.pair.outputs && (!l.lineDown || typ == 1 || typ == 2)) then
    let b := leBytes 1 typ ++ leBytes 1 l.seq.toNat ++ payload
    (s.setLine n { l with seq := l.seq + 1 }).emit (.frame n typ (b ++ leBytes 4 (crc32c b)))
  else s

/-- A frame that fails its characters or its CRC (R325). -/
def execSyncFrameDiscard (line : Nat) (s : State) : Host.Outcome State Fault Refusal :=
  s.coreDo fun s =>
    let l := s.line line
    s.bump 9 line l.crcErr fun c s => s.setLine line { s.line line with crcErr := c }

/-! ## The count (R322, R323) -/

/-- The local count in units of 2^-6 ns. -/
def State.local (s : State) : Nat := 64 * s.pnt.count + s.pnt.frac

/-- A POINTING_EVENT record (R346). -/
def State.ptEvent (s : State) (source kind : Nat) : State :=
  s.record 0x1A source kind none (leBytes 4 (ofInt 32 (sat32 s.pnt.err)) ++ leBytes 4 (s.line (if source < 13 then source else 0)).delay ++
    leBytes 4 s.pnt.epoch.val.toNat ++ leBytes 1 s.ptByte ++ zeros 15)

/-- At each multiple of 4,096 ns a COUNT frame leaves on every cabled output (R326). -/
def execCountFrameTransmit (s : State) : Host.Outcome State Fault Refusal :=
  s.coreDo fun s => ((List.range 13).filter s.cabled).foldl (fun s n =>
    s.sendFrame n 1 (leBytes 8 (s.pnt.count / 4096 * 4096) ++ [0] ++ leBytes 1 s.ptByte ++ leBytes 2 s.treeIndex ++
      leBytes 1 (if n < 5 then n - 1 else n - 5))) s

/-! ## Alignment of a worker (R329, R330, R332, R334) -/

/-- A state change of R330, with its record. -/
def State.ptTo (s : State) (st : PtSt) (kind : Nat) : State :=
  { s with pnt := { s.pnt with st := st, nIn := 0, nOut := 0 } }.ptEvent 0 kind

/-- What a COUNT frame with error e does to the state (R330): 1 ns is 64 units, 5 ns 320, 100 µs 6,400,000. -/
def State.alignBy (s : State) (e : Int) : State :=
  let s := { s with pnt := { s.pnt with err := e } }
  match s.pnt.st with
  | .free => { s with pnt := { s.pnt with st := .calibrating } }
  | .holdover =>
    if e.natAbs ≤ 6400000 then { s with pnt := { s.pnt with st := .calibrating } }
    else { s with pnt := { s.pnt with valid := false } }.ptTo .calibrating 5
  | .locking =>
    let s := { s with pnt := { s.pnt with slew := e } }
    if e.natAbs ≤ 64 then
      if 15 ≤ s.pnt.nIn then s.ptTo .locked 1 else { s with pnt := { s.pnt with nIn := s.pnt.nIn + 1 } }
    else { s with pnt := { s.pnt with nIn := 0 } }
  | .locked =>
    let s := { s with pnt := { s.pnt with slew := e } }
    if 320 < e.natAbs then
      if 2 ≤ s.pnt.nOut then s.ptTo .locking 2 else { s with pnt := { s.pnt with nOut := s.pnt.nOut + 1 } }
    else { s with pnt := { s.pnt with nOut := 0 } }
  | .calibrating => s
  | .manager => s

/-- A COUNT frame on SYNC_IN of a worker: the parent's state and position, and the error. -/
def execCountFrame (p : Bytes) (s : State) : Host.Outcome State Fault Refusal :=
  s.coreDo fun s =>
    let s := s.setLine 0 { s.line 0 with linkUp := true }
    if s.isManagerRole || s.pnt.st = .manager then s else
      let c := 64 * u64 p 0 + u8 p 8 % 64
      let state := u8 p 9
      let bad := decide (childOf (u16 p 10) (u8 p 12) ≠ s.treeIndex)
      let was := s.pnt.mismatch
      let s := { s with pnt := { s.pnt with upstream := decide (state % 8 = 4) || state.testBit 3, mismatch := bad
                                            lastCount := c, lastLocal := s.local } }
      let s := if bad && !was then s.ptEvent 0 7 else s
      s.alignBy ((c : Int) + (s.line 0).delay - s.local)

/-- No valid COUNT frame for 4 slots (R330): the rate stays as last steered. -/
def execPointingFrameLoss (s : State) : Host.Outcome State Fault Refusal :=
  s.coreDo fun s => match s.pnt.st with
    | .calibrating | .locking | .locked =>
      let s := s.setLine 0 { s.line 0 with linkUp := false }
      { s with pnt := { s.pnt with slew := 0 } }.ptTo .holdover 3
    | _ => s

def execHoldoverLimitExpiry (s : State) : Host.Outcome State Fault Refusal :=
  s.coreDo fun s => if s.pnt.st = .holdover then { s with pnt := { s.pnt with valid := false } }.ptTo .free 4 else s

/-- POINTING_SAVE (R336): the count and its Plinth time. -/
def execPointingSaveTimer (s : State) : Host.Outcome State Fault Refusal :=
  s.coreDo fun s => { s with pnt := { s.pnt with save := some (s.pnt.count, s.plinth) } }

/-! ## Delay calibration (R331) -/

/-- CAL leaves on a cabled line, its departure stamped as T1. -/
def State.sendCal (s : State) (n : Nat) : State :=
  let l := s.line n
  if s.cabled n then
    (s.setLine n { l with calSeq := l.calSeq + 1, cal := some (l.calSeq.toNat, s.local) }).sendFrame n 2
      (leBytes 2 l.calSeq.toNat)
  else s

def execSyncCalPeriod (line : Nat) (s : State) : Host.Outcome State Fault Refusal := s.coreDo fun s => s.sendCal line

/-- The return pair of a line first delivers a valid frame: the line is calibrated at once. -/
def execSyncLineLinkUp (line : Nat) (s : State) : Host.Outcome State Fault Refusal :=
  s.coreDo fun s => (s.setLine line { s.line line with linkUp := true }).sendCal line

/-- A CAL frame at the child: ECHO goes back with TURN, the child's time from arrival to departure [2^-6 ns]. -/
def execCalFrame (p : Bytes) (turn : Nat) (s : State) : Host.Outcome State Fault Refusal :=
  s.coreDo fun s => s.sendFrame 0 3 (leBytes 2 (u16 p 0) ++ leBytes 4 turn ++ leBytes 8 s.pnt.count ++ leBytes 1 s.pnt.frac ++
    leBytes 1 s.ptByte)

/-- The middle of three. -/
def median3 (a b c : Nat) : Nat := max (min a b) (min (max a b) c)

/-- A line is marked down, with one record (R331, R346). -/
def State.downLine (s : State) (n : Nat) : State :=
  let l := s.line n
  let s := s.setLine n { l with lineDown := true, calibrated := false, meas := [], fails := 0 }
  if l.lineDown then s else s.ptEvent n 8

/-- One measurement of a line's delay: three in a row within 0.1 ns (6 units) give their median to the child; above 200 ns,
or at the third failure to agree in a row, the line is down. `seq` is the CAL_SEQ of the CAL that was measured. -/
def State.measure (s : State) (n d seq : Nat) : State :=
  let l := s.line n
  if 12800 < d then s.downLine n
  else match l.meas with
    | a :: b :: _ =>
      if max d (max a b) - min d (min a b) ≤ 6 then
        let m := median3 d a b
        (s.setLine n { l with meas := [d, a], fails := 0, delay := m, calibrated := true, lineDown := false }).sendFrame n 4
          (leBytes 2 seq ++ leBytes 4 m)
      else if 2 ≤ l.fails then s.downLine n
      else s.setLine n { l with meas := [d, a], fails := l.fails + 1 }
    | m => s.setLine n { l with meas := d :: m }

/-- An ECHO frame at the parent: `rtt` is T4 - T1 as stamped [2^-6 ns]. -/
def execEchoFrame (line : Nat) (p : Bytes) (rtt : Nat) (s : State) : Host.Outcome State Fault Refusal :=
  s.coreDo fun s =>
    let l := s.line line
    if l.cal.any fun c => c.1 == u16 p 0 then
      let s := s.setLine line { l with cal := none, linkUp := true }
      let d := (roundDiv ((rtt : Int) - u32 p 2) 2).toNat
      let offer : Int := (64 * u64 p 6 + u8 p 14 % 64 + d : Nat) - (s.local : Int)
      let s := if s.pnt.waitEcho && line ≤ 4 && u8 p 15 % 8 == 4 && s.pnt.offer.all (fun o => decide (line < o.1)) then
          { s with pnt := { s.pnt with offer := some (line, offer) } } else s
      s.measure line d (u16 p 0)
    else s

/-! ## The manager (R335, R336) -/

def execPromoteManager (r : Req) (s : State) : Host.Outcome State Fault Refusal :=
  s.armCmd r .launch fun s =>
    if s.pnt.st = .free ∨ s.pnt.st = .holdover then
      -- the count goes on without a step; metering goes over to it
      let s := if s.met.base = 0 then s else s.meterCut s.pnt.count
      let s := { s with pnt := { s.pnt with st := .manager, valid := true, upstream := false, mismatch := false } }
      (s.ptEvent 0xFFFF 6).complete r 0 0 0
    else s.complete r 0x7A 0 0

/-! ## Disabled-unit maps (R343) -/

def execSiteDumapReport (site : Nat) (map : Bytes) (s : State) : Host.Outcome State Fault Refusal :=
  s.coreDo fun s => { s with pnt := { s.pnt with dumap := Tbl.set s.pnt.dumap site (BitVec.ofNat 256 (le map 0 32)) } }

end Sys2Proof.Machine
end

