-- ==== Sys2Proof/Machine/Launch.lean ====
section
/-!
DEFINITION. Machine/Launch.lean: the arm table, the launch exchange, the determinism contract's digests and choices, and
launch records (R337 to R346).
-/
namespace Sys2Proof.Machine

/-! ## Who takes part (R327, R337, R343) -/

/-- Peer lines 1-4 whose subtree holds a participant (R339). -/
def State.childLines (s : State) (x : ArmEntry) : List Nat :=
  [1, 2, 3, 4].filter fun k =>
    (List.range 341).any fun q => x.participants.testBit q && inSubtree (childOf s.treeIndex (k - 1)) 5 q

/-- Participating sites of this tray. -/
def ArmEntry.sites (x : ArmEntry) : List Nat := bitsOf 8 x.siteMask

/-- Number of participating trays. -/
def ArmEntry.count (x : ArmEntry) : Nat := ((List.range 341).filter fun q => x.participants.testBit q).length

/-- The digest of a participating site (R343). -/
def State.detOf (s : State) (x : ArmEntry) (n : Nat) : Digest :=
  Config.sha384 (digestBytes x.program ++ digestBytes (s.site n).imageDigest ++
    leBytes 32 (Tbl.get 0 s.pnt.dumap n : BitVec 256).toNat ++ leBytes 1 x.flags)

/-- The refusals of R340 at this tray, the first that holds, or 0. -/
def State.launchRefusal (s : State) (i : Option Nat) (n : Nat) (det : Digest) : Nat :=
  let x := s.arm (i.getD 16)
  if s.pnt.mismatch then 0x7A
  else if i.isNone || !x.participants.testBit s.treeIndex then 0x74
  else if s.pnt.st ≠ .manager ∧ (s.pnt.st ≠ .locked ∨ s.pnt.upstream) then 0x71
  else if s.snap.holdup then 0x41
  else if x.sites.any fun k => (s.site k).st != .running then 0x76
  else if x.sites.any s.leakHeld then 0x55
  else if (List.range 16).any fun j => decide (i ≠ some j) && (s.arm j).st == 2 && (s.arm j).queue == x.queue &&
      decide ((s.arm j).siteMask &&& x.siteMask ≠ 0) && decide ((s.arm j).n ≤ n + 1000000) &&
      decide (n ≤ (s.arm j).n + 1000000) then 0x77
  else if x.timingDet && x.sites.any fun k => s.detOf x k != det then 0x78
  else 0

/-! ## Frames of the exchange (R325, R339) -/

/-- A frame down: on the peer lines whose subtree holds a participant, and on the participating site lines. -/
def State.sendDown (s : State) (x : ArmEntry) (typ : Nat) (payload : Bytes) : State :=
  (s.childLines x ++ x.sites.map (· + 5)).foldl (fun s l => s.sendFrame l typ payload) s

def State.sendLaunch (s : State) (x : ArmEntry) : State :=
  s.sendDown x 0x10 (leBytes 8 x.runId ++ leBytes 8 x.n ++ leBytes 1 x.nFrac ++ leBytes 2 x.queue ++ leBytes 1 x.flags ++
    [0] ++ digestBytes (if x.timingDet then x.det else 0))

/-- ACK on the return pair of SYNC_IN. -/
def State.sendAck (s : State) (run acked result first sites : Nat) : State :=
  s.sendFrame 0 0x11 (leBytes 8 run ++ leBytes 2 acked ++ leBytes 1 result ++ leBytes 2 first ++ leBytes 1 sites)

/-- A tray refuses: a worker answers at once, the manager sends ABORT; the record's outcome is REFUSED. -/
def State.refuseRun (s : State) (i code pos : Nat) : State :=
  let x := s.arm i
  let y := { x with answered := true, aborted := s.pnt.st == .manager || x.aborted, outcome := 2, refusal := code, firstNack := pos }
  let s := (s.setArm i y).launchEvent 8 1 y code pos
  if s.pnt.st = .manager then s.sendDown x 0x13 (leBytes 8 x.runId ++ leBytes 1 code)
  else s.sendAck x.runId ((x.childAcks.map Prod.snd).foldl (· + ·) 0) code pos x.siteAcks

/-- Every site and every participating child subtree has answered: the worker acknowledges, the manager sends GO. -/
def State.answerRun (s : State) (i : Nat) : State :=
  let x := s.arm i
  let full := x.siteAcks &&& x.siteMask = x.siteMask ∧ (s.childLines x).all fun l => (Tbl.find? x.childAcks l).isSome
  if full ∧ ¬ x.answered then
    let acked := (x.childAcks.map Prod.snd).foldl (· + ·) 1
    let margin := x.n - s.pnt.count
    if s.pnt.st = .manager then
      if acked = x.count ∧ s.pnt.count + 100000 ≤ x.n then
        (s.setArm i { x with answered := true, margin := margin, st := 2, still := x.timingDet }).throttleNote.sendDown x 0x12
          (leBytes 8 x.runId ++ leBytes 8 x.n)
      else s
    else (s.setArm i { x with answered := true, margin := margin }).sendAck x.runId acked 0 0xFFFF x.siteAcks
  else s

/-- A tray takes up a LAUNCH: it refuses, or forwards it and waits for its sites and children. -/
def State.takeLaunch (s : State) (i n frac : Nat) (det : Digest) : State :=
  let code := s.launchRefusal (some i) n det
  let x := { s.arm i with launched := true, n := n, nFrac := frac, det := det }
  let x := { x with maps := x.sites.map fun k => (k, Tbl.get 0 s.pnt.dumap k) }
  let s := s.setArm i x
  if code ≠ 0 then s.refuseRun i code s.treeIndex else (s.sendLaunch x).answerRun i

/-! ## Commands (R337, R338, R341) -/

/-- The arm block of 128 bytes (R449): its fields as an entry. -/
def armEntryOf (b : Bytes) (now : Nat) : ArmEntry :=
  { st := 1, runId := u64 b 0, jobId := u64 b 8, queue := u16 b 16, siteMask := u8 b 18, flags := u8 b 19
    program := digestAt b 20, participants := le b 68 43, armedAt := now }

/-- The entry that an ARM takes: an empty one, else the one closed longest ago. -/
def State.armRoom (s : State) : Option Nat :=
  match (List.range 16).find? fun i => (s.arm i).st == 0 with
  | some i => some i
  | none => ((List.range 16).filter fun i => (s.arm i).st == 3).foldl (fun (b : Option Nat) j => match b with
      | none => some j
      | some i => if (s.arm j).closeAt < (s.arm i).closeAt then some j else some i) none

/-- ARM. The block at ARG_ADDR comes from a local window or as the surroundings returned it. -/
def execArmRun (r : Req) (e : Bytes) (src : Option Bytes) (s : State) : Host.Outcome State Fault Refusal :=
  s.armCmd r .launch fun s => match s.source (u64 e 8) 128 src with
    | none => s.complete r 0x93 0 0
    | some b =>
      if u64 b 0 = 0 then s.complete r 0x10 0 0
      else if 4 ≤ u8 b 19 then s.complete r 0x10 19 0
      else if 2 ^ 341 ≤ le b 68 43 then s.complete r 0x10 68 0
      else if !zeroAt b 111 17 then s.complete r 0x10 111 0
      else if u8 b 19 = 3 then s.complete r 0x73 0 0
      else if (s.armOf (u64 b 0)).isSome then s.complete r 0x48 0 0
      else match s.armRoom with
        | none => s.complete r 0x75 0 0
        | some i => (s.setArm i (armEntryOf b s.plinth)).complete r 0 0 0

/-- LAUNCH at the manager. -/
def execLaunchRun (r : Req) (e : Bytes) (s : State) : Host.Outcome State Fault Refusal :=
  s.armCmd r .launch fun s =>
    let n := u64 e 0x18
    if s.pnt.st ≠ .manager then s.complete r 0x70 0 0 else
      match s.armOf (u64 e 0x10) with
      | none => s.complete r 0x74 0 0
      | some i =>
        if (s.arm i).launched then s.complete r 0x48 0 0
        else if n < s.pnt.count + 1000 * ptLeadMin.nat s.role ∨ s.pnt.count + 10000000000 < n then s.complete r 0x72 0 0
        else
          let x := s.arm i
          let det := if x.timingDet then (x.sites.head?.elim 0 (s.detOf x)) else 0
          (s.complete r 0 0 0).takeLaunch i n (u8 e 0x20 % 64) det

/-- DISARM. A launch already GO is not stopped. -/
def execDisarmRun (r : Req) (e : Bytes) (s : State) : Host.Outcome State Fault Refusal :=
  s.armCmd r .launch fun s => match s.armOf (u64 e 0x10) with
    | none => s.complete r 0x74 0 0
    | some i => (if (s.arm i).st = 1 then s.setArm i {} else s).complete r 0 0 0

def execCloseRun (r : Req) (e : Bytes) (s : State) : Host.Outcome State Fault Refusal :=
  s.armCmd r .launch fun s => match s.armOf (u64 e 0x10) with
    | none => s.complete r 0x74 0 0
    | some i => (s.closeArm i 1).complete r 0 0 0

/-- 60 s without a launch: the entry is discarded; its record stays readable with OUTCOME EXPIRED (R337, R345). -/
def execArmEntryExpiry (run : Nat) (s : State) : Host.Outcome State Fault Refusal :=
  s.coreDo fun s => match s.armOf run with
    | some i => if (s.arm i).st = 1 ∧ ¬ (s.arm i).launched then (s.setArm i { record := s.launchRecord { s.arm i with outcome := 5 } }).launchEvent 8 4 (s.arm i) 0 s.treeIndex else s
    | none => s

/-! ## Frames that arrive (R339, R341) -/

/-- LAUNCH: RUN_ID, N, N_FRAC, QUEUE, FLAGS, DET_DIGEST. One for a run already in GO is discarded and counted. -/
def execLaunchFrame (p : Bytes) (s : State) : Host.Outcome State Fault Refusal :=
  s.coreDo fun s => match s.armOf (u64 p 0) with
    | none =>
      let code := s.launchRefusal none (u64 p 8) 0
      let x : ArmEntry := { runId := u64 p 0, n := u64 p 8 }
      (s.launchEvent 8 1 x code s.treeIndex).sendAck (u64 p 0) 0 code s.treeIndex 0
    | some i =>
      if (s.arm i).st = 2 then s.bump 9 1 s.pnt.conflict fun c s => { s with pnt := { s.pnt with conflict := c } }
      else if (s.arm i).launched then s
      else s.takeLaunch i (u64 p 8) (u8 p 16 % 64) (digestAt p 21)

/-- ACK from a child (lines 1-4) or a site (5-12). -/
def execAckFrame (line : Nat) (p : Bytes) (s : State) : Host.Outcome State Fault Refusal :=
  s.coreDo fun s => match s.armOf (u64 p 0) with
    | none => s
    | some i =>
      let x := s.arm i
      if x.st ≠ 1 ∨ ¬ x.launched ∨ x.answered ∨ x.aborted then s
      else if 5 ≤ line then
        let n := line - 5
        if ¬ x.siteMask.testBit n then s
        else if u8 p 10 ≠ 0 then s.refuseRun i (u8 p 10) s.treeIndex
        else if x.timingDet ∧ le p 14 32 ≠ (Tbl.get 0 x.maps n : BitVec 256).toNat then s.refuseRun i 0x78 s.treeIndex
        else (s.setArm i { x with siteAcks := x.siteAcks ||| 2 ^ n }).answerRun i
      else if u8 p 10 ≠ 0 then s.refuseRun i (u8 p 10) (u16 p 11)
      else (s.setArm i { x with childAcks := Tbl.set x.childAcks line (u16 p 8) }).answerRun i

/-- The counter of GO, ABORT or LAUNCH that come after the other (R341). -/
def State.launchConflict (s : State) : State :=
  s.bump 9 1 s.pnt.conflict fun c s => { s with pnt := { s.pnt with conflict := c } }

/-- GO is sent on down; the tray's own sites release only where it came at or before N - 5 µs (R339). -/
def execGoFrame (p : Bytes) (s : State) : Host.Outcome State Fault Refusal :=
  s.coreDo fun s => match s.armOf (u64 p 0) with
    | none => s
    | some i =>
      let x := s.arm i
      if x.aborted then s.launchConflict
      else if x.st = 1 ∧ x.launched ∧ x.refusal = 0 ∧ x.n = u64 p 8 then
        if x.n < s.pnt.count + 5000 then s.sendDown x 0x12 (leBytes 8 x.runId ++ leBytes 8 x.n) else
        (s.setArm i { x with st := 2, still := x.timingDet }).throttleNote.sendDown x 0x12 (leBytes 8 x.runId ++ leBytes 8 x.n)
      else s

/-- An abort of a run that is not GO: sent on down, recorded with its reason. -/
def State.abortRun (s : State) (i reason : Nat) : State :=
  let x := s.arm i
  let y := { x with aborted := true, outcome := if x.outcome = 0 then 3 else x.outcome
                    refusal := if x.refusal = 0 then reason else x.refusal }
  ((s.setArm i y).launchEvent 8 2 y reason s.treeIndex).sendDown x 0x13 (leBytes 8 x.runId ++ leBytes 1 reason)

def execAbortFrame (p : Bytes) (s : State) : Host.Outcome State Fault Refusal :=
  s.coreDo fun s => match s.armOf (u64 p 0) with
    | none => s
    | some i =>
      let x := s.arm i
      if x.st = 2 then s.launchConflict
      else if x.launched ∧ ¬ x.aborted then s.abortRun i (u8 p 8)
      else s

/-- N - 100 µs passes without a full acknowledgement at the manager (R339). -/
def execLaunchDeadline (run : Nat) (s : State) : Host.Outcome State Fault Refusal :=
  s.coreDo fun s => match s.armOf run with
    | none => s
    | some i =>
      let x := s.arm i
      if s.pnt.st = .manager ∧ x.st = 1 ∧ x.launched ∧ ¬ x.aborted then s.abortRun i 0x79 else s

/-! ## Release and results (R339, R341, R345) -/

/-- Trays released, not released, and the first position not released, of this tray's subtree. -/
def State.totals (s : State) (x : ArmEntry) : Nat × Nat × Nat :=
  let own := if x.trayOut then (1, 0, 0xFFFF) else (0, 1, s.treeIndex)
  x.childRes.foldl (fun a c => (a.1 + c.2.1, a.2.1 + c.2.2.1, min a.2.2 c.2.2.2)) own

/-- RESULT goes up once this tray's own and every participating child's results are in; the manager keeps the totals. -/
def State.reportRun (s : State) (i : Nat) : State :=
  let x := s.arm i
  let t := s.totals x
  let all := (s.childLines x).all fun l => (Tbl.find? x.childRes l).isSome
  if !x.reached then s
  else if s.pnt.st = .manager then s.setArm i { x with released := t.1, notReleased := t.2.1 }
  else if all && !x.resultSent then
    (s.setArm i { x with resultSent := true }).sendFrame 0 0x14
      (leBytes 8 x.runId ++ leBytes 2 t.1 ++ leBytes 2 t.2.1 ++ leBytes 2 t.2.2)
  else s

/-- The count reaches N: the participating sites of a run in GO release, but for one that has left RUNNING; a run without
GO does not release. A run whose every participating site has left RUNNING closes then (R345; log 119). -/
def execLaunchCountReached (run : Nat) (s : State) : Host.Outcome State Fault Refusal :=
  s.coreDo fun s => match s.armOf run with
    | none => s
    | some i =>
      let x := s.arm i
      if !x.launched || x.reached then s
      else
        let out := x.sites.filter fun n => x.st == 2 && !x.left.testBit n && (s.site n).st == .running
        let stay := x.sites.filter fun n => !out.contains n
        let outTray := decide (x.st = 2) && (!out.isEmpty || x.sites.isEmpty)
        let y := { x with reached := true, trayOut := outTray, released := out.length, notReleased := stay.length
                          outcome := if outTray then 1 else if x.outcome = 0 then 4 else x.outcome }
        let s := s.setArm i y
        let s := if x.st = 2 then stay.foldl (fun s n => s.launchEvent n 3 y 0 s.treeIndex) s
          else if x.outcome = 0 then s.launchEvent 8 3 y 0 s.treeIndex else s
        let s := s.reportRun i
        if x.siteMask ≠ 0 ∧ x.left &&& x.siteMask = x.siteMask then s.closeArm i 3 else s

/-- The entry of a RUN_ID whose results still come up: the open one, else a closed one. -/
def State.resultOf (s : State) (run : Nat) : Option Nat :=
  (s.armOf run).or ((List.range 16).find? fun i => (s.arm i).st == 3 && (s.arm i).runId == run)

def execResultFrame (line : Nat) (p : Bytes) (s : State) : Host.Outcome State Fault Refusal :=
  s.coreDo fun s => match s.resultOf (u64 p 0) with
    | none => s
    | some i =>
      let x := s.arm i
      if 1 ≤ line ∧ line ≤ 4 ∧ x.launched then
        (s.setArm i { x with childRes := Tbl.set x.childRes line (u16 p 8, u16 p 10, u16 p 12) }).reportRun i
      else s

/-! ## Choices (R344) -/

/-- A CHOICE record: counted once and chained in CHOICE_SEQ order, whatever the order of arrival; the values missing count in
CHOICE_LOST. -/
def State.choice (s : State) (n : Nat) (rec : Bytes) : State :=
  match s.armOf (u64 rec 8) with
  | none => s
  | some i =>
    let x := s.arm i
    let q := u32 rec 4
    if x.balance && decide (Tbl.get 0 x.choiceSeq n ≤ q) && !((Tbl.get [] x.choiceHeld n).any fun a => a.1 == q) then
      s.setArm i (x.choose n q rec)
    else s

def execChoiceRecord (src : Option (Nat × Nat)) (rec : Bytes) (s : State) : Host.Outcome State Fault Refusal :=
  s.coreDo fun s => s.siteMsg src rec 4 32 fun n s => s.choice n rec

end Sys2Proof.Machine
end

