-- ==== Sys2Proof/Machine/Chisel.lean ====
section
/-!
DEFINITION. Machine/Chisel.lean: Chisel, the phase model and the sharing of a site's cap among its power domains (chapter 8).
-/
namespace Sys2Proof.Machine

/-! ## The CHISEL section (R244) -/

def chFlags : Fld := ⟨0x00, 1, 0, 1, none, false⟩
def chClusters : Fld := ⟨0x01, 1, 1, 16, some 8, false⟩
def chLr : Fld := ⟨0x02, 1, 1, 12, some 5, false⟩
def chDem : Fld := ⟨0x03, 1, 1, 12, some 4, false⟩
def chDecay : Fld := ⟨0x04, 1, 1, 12, some 6, false⟩
def chConfirm : Fld := ⟨0x05, 1, 1, 16, some 2, false⟩
def chSatStep : Fld := ⟨0x08, 4, 100, 100000, some 5000, false⟩
def chSatMax : Fld := ⟨0x0C, 4, 1000, 2000000, some 200000, false⟩
def chSpawn : Fld := ⟨0x10, 4, 1, 0xFFFFFFFF, some 40000, false⟩
def chEvict : Fld := ⟨0x14, 4, 1000, 3600000, some 60000, false⟩
def chOverhead : Fld := ⟨0x18, 4, 0, 1000000, none, false⟩
def chStale : Fld := ⟨0x1C, 2, 2, 10000, some 100, false⟩
def chFlds : List Fld := [chFlags, chClusters, chLr, chDem, chDecay, chConfirm, chSatStep, chSatMax, chSpawn, chEvict,
  chOverhead, chStale]
def chWeight (e : Bytes) (j : Nat) : Nat := u8 e (0x20 + j)
def chMin (e : Bytes) (k : Nat) : Nat := u32 e (0x30 + 4 * k)
def chCeil (e : Bytes) (k : Nat) : Nat := u32 e (0x50 + 4 * k)
def chFallback (e : Bytes) (k : Nat) : Nat := if u8 e (0x70 + k) = 0 then 1 else u8 e (0x70 + k)

/-- Entry of a site in a CHISEL section. -/
def chiselEntry (sec : Bytes) (n : Nat) : Bytes := slice sec (128 * n) 128

/-- Domains of a voltage table in rising order, with DOMAIN_PMAX (R225). -/
def vtDomains (t : Bytes) : List (Nat × Nat) :=
  sortBy (fun (a b : Nat × Nat) => decide (a.1 ≤ b.1)) ((List.range (u8 t 1)).map fun j =>
    let e := slice t (0x10 + 8 * u8 t 0 + 8 * j) 8
    (u8 e 0, u32 e 4))

/-- Chisel is on for a site (R243). -/
def State.chiselOn (s : State) (n : Nat) : Bool :=
  let e := (s.chiS n).entry
  decide (e ≠ []) && (u8 e 0).testBit 0 && (s.site n).st.runs && decide (0 < (s.capS n).domains)

/-- One of a site's Chisel counters counts (R256, R267). -/
def State.bumpChi (s : State) (n k : Nat) : State :=
  s.bump 6 n (Tbl.get {} (s.chiS n).cnts k) fun c s => s.setChiS n { s.chiS n with cnts := Tbl.set (s.chiS n).cnts k c }

def State.chiCnt (s : State) (n k : Nat) : Nat := (Tbl.get ({} : Cnt) (s.chiS n).cnts k).val.toNat

/-! ## Features and plausibility (R245, R247) -/

/-- Feature j of a record; 12 and 13 are signed (R249). -/
def feature (rec : Bytes) (j : Nat) : Int := if j = 12 ∨ j = 13 then sle rec (0x20 + 2 * j) 2 else (u16 rec (0x20 + 2 * j) : Nat)

/-- A record is plausible (R247). -/
def plausible (rec : Bytes) (doms : List (Nat × Nat)) (peak : Int) : Bool :=
  let pw (k : Nat) := u16 rec (0x20 + 2 * k)
  let bound := u16 rec 0x36
  let hint := u16 rec 0x3C
  (List.range 8).all (fun k => match doms.find? fun d => d.1 == k with
    | some d => decide (pw k * 10000 ≤ d.2 * 110)
    | none => pw k == 0 && !bound.testBit k) &&
  decide (bound < 256) && (decide (hint < 16) || hint == 0xFFFF) &&
  decide (((((List.range 8).map pw).foldl (· + ·) 0 * 10000 : Nat) : Int) ≤ peak * 110 + 1000000)

/-! ## The phase model (R248 to R251) -/

def ChiselSite.cl (c : ChiselSite) (i : Nat) : Cluster := Tbl.get {} c.clusters i
def ChiselSite.setCl (c : ChiselSite) (i : Nat) (x : Cluster) : ChiselSite := { c with clusters := Tbl.set c.clusters i x }
def ChiselSite.usedCl (c : ChiselSite) : List Nat := (List.range 16).filter fun i => (c.cl i).used

/-- The distance of R249: 64-bit sum, saturating at 0xFFFF_FFFF. -/
def clusterDist (e rec : Bytes) (x : Cluster) : Nat :=
  min 0xFFFFFFFF (((List.range 16).filter fun j => decide (0 < chWeight e j) && !(j == 14 && u16 rec 0x3C == 0xFFFF)).foldl
    (fun a j => a + chWeight e j * ((feature rec j * 65536 - Tbl.get 0 x.cen j).natAbs / 65536)) 0)

/-- The nearest used cluster, the lowest on a tie (R249). -/
def ChiselSite.nearest (c : ChiselSite) (e rec : Bytes) : Option Nat :=
  c.usedCl.foldl (fun b i => match b with
    | none => some i
    | some k => if clusterDist e rec (c.cl i) < clusterDist e rec (c.cl k) then some i else some k) none

/-- A cluster made from an observation: init(n) of R250. -/
def initCluster (e rec : Bytes) (now : Nat) : Cluster :=
  { used := true, uses := 0, last := now
    cen := (List.range 16).map fun j => (j, if j = 14 ∧ u16 rec 0x3C = 0xFFFF then 0 else feature rec j * 65536)
    e := (List.range 8).map fun k => (k, u16 rec (0x20 + 2 * k) * 100)
    sat := (List.range 8).map fun k => (k, if (u16 rec 0x36).testBit k then chSatStep.nat e else 0) }

/-- What a cluster learns from an observation (R250). -/
def Cluster.learn (x : Cluster) (e rec : Bytes) (doms : List (Nat × Nat)) : Cluster :=
  let cen := (List.range 16).map fun j =>
    let c := Tbl.get 0 x.cen j
    (j, if j = 11 ∨ (j = 14 ∧ u16 rec 0x3C = 0xFFFF) then c else c + (feature rec j * 65536 - c) >>> chLr.nat e)
  doms.foldl (fun (x : Cluster) d =>
    let k := d.1
    let o : Int := (u16 rec (0x20 + 2 * k) * 100 : Nat)
    let v : Nat := Tbl.get 0 x.e k
    let st : Nat := Tbl.get 0 x.sat k
    if (u16 rec 0x36).testBit k then
      { x with sat := Tbl.set x.sat k (min (st + chSatStep.nat e) (chSatMax.nat e)) }
    else
      { x with e := Tbl.set x.e k ((v : Int) + (o - v) >>> chDem.nat e).toNat, sat := Tbl.set x.sat k (st - st >>> chDecay.nat e) })
    { x with cen := cen }

/-- The cluster to use for an observation, made or replaced where learning allows it: the model, the cluster, and 1 for a
spawn or 2 for an eviction (R250). -/
def ChiselSite.pick (c : ChiselSite) (e rec : Bytes) (now : Nat) (learn : Bool) : ChiselSite × Option Nat × Nat :=
  let near := c.nearest e rec
  let far := near.all fun i => decide (chSpawn.nat e < clusterDist e rec (c.cl i))
  if learn && far then
    let k := chClusters.nat e
    if c.usedCl.length < k then
      match (List.range 16).find? fun i => !(c.cl i).used with
      | some i => (c.setCl i (initCluster e rec now), some i, 1)
      | none => (c, near, 0)
    else
      let old := c.usedCl.filter fun i => decide (c.cur ≠ some i) && decide ((c.cl i).last + chEvict.nat e * 1000000 ≤ now)
      match old.foldl (fun (b : Option Nat) i => match b with
          | none => some i
          | some j => if (c.cl i).last < (c.cl j).last then some i else some j) none with
      | some i => (c.setCl i (initCluster e rec now), some i, 2)
      | none => (c, near, 0)
  else (c, near, 0)

/-- phase_confirm (R251): the model, and whether the current cluster changed by confirmation. -/
def ChiselSite.confirm (c : ChiselSite) (e : Bytes) (n now : Nat) : ChiselSite × Bool :=
  match c.cur with
  | none => ({ c with cur := some n, cand := none, candN := 0 }.setCl n { c.cl n with last := now }, false)
  | some cur =>
    if n = cur then ({ c with candN := 0 }, false)
    else
      let k := if c.cand = some n then c.candN + 1 else 1
      if chConfirm.nat e ≤ k then
        let c := c.setCl cur { c.cl cur with last := now }
        ({ c with cur := some n, cand := none, candN := 0 }.setCl n { c.cl n with last := now }, true)
      else ({ c with cand := some n, candN := k }, false)

/-- Classification and learning of one plausible record (R250). -/
def State.classify (s : State) (n : Nat) (rec : Bytes) (doms : List (Nat × Nat)) : State :=
  let c := s.chiS n
  let e := c.entry
  let now := s.pnt.count
  let learn := !c.frozen && !c.still && s.throttle n == 0
  match c.pick e rec now learn with
  | (_, none, _) => s
  | (c, some i, what) =>
    let x := if learn then (c.cl i).learn e rec doms else c.cl i
    let c := c.setCl i { x with uses := min (x.uses + 1) 0xFFFFFFFF }
    let r := c.confirm e i now
    let s := s.setChiS n r.1
    let s := if what = 1 then s.bumpChi n 17 else if what = 2 then s.bumpChi n 18 else s
    if r.2 then s.bumpChi n 19 else s

/-! ## Allocation (R252 to R256) -/

/-- A present domain with its bounds and its demand. -/
structure Dom where
  k : Nat
  pmax : Nat
  ceil : Nat
  hwLo : Nat
  hwHi : Nat
  lo : Nat
  hi : Nat
  dem : Nat
  deriving DecidableEq, Repr

/-- The bounds of R252, with a demand. -/
def ChiselSite.domOf (c : ChiselSite) (d : Nat × Nat) (dem : Nat) : Dom :=
  let hwHi := min d.2 (chCeil c.entry d.1)
  let hwLo := min (chMin c.entry d.1) hwHi
  let hi := min hwHi ((Tbl.find? c.swCeil d.1).getD hwHi)
  { k := d.1, pmax := d.2, ceil := chCeil c.entry d.1, hwLo := hwLo, hwHi := hwHi, hi := hi
    lo := max hwLo ((Tbl.find? c.swFloor d.1).getD hwLo), dem := dem }

/-- What a share gives a domain: its allocation, and whether a bound fixed it. -/
structure Alloc where
  k : Nat
  mw : Nat
  fixed : Bool
  deriving DecidableEq, Repr

/-- One more mW to each of the first domains, until nothing is left. -/
def spread : Nat → List Alloc → List Alloc
  | _, [] => []
  | 0, l => l
  | r + 1, a :: l => { a with mw := a.mw + 1 } :: spread r l

/-- The share procedure of R254 over the open domains; each pass fixes one or ends. `rest` is B less what is fixed. -/
def shareGo (lo hi : Dom → Nat) : Nat → Nat → List Dom → List Alloc → List Alloc
  | 0, _, _, done => done
  | f + 1, rest, open_, done =>
    if open_ = [] then done else
      let d := (open_.map Dom.dem).foldl (· + ·) 0
      let p (x : Dom) : Nat := rest * x.dem / d
      let low := open_.filter fun x => decide (p x < lo x)
      let high := open_.filter fun x => decide (hi x < p x)
      if low ≠ [] then
        shareGo lo hi f (rest - (low.map lo).foldl (· + ·) 0) (open_.filter fun x => decide (lo x ≤ p x))
          (done ++ low.map fun x => ⟨x.k, lo x, true⟩)
      else if high ≠ [] then
        shareGo lo hi f (rest - (high.map hi).foldl (· + ·) 0) (open_.filter fun x => decide (p x ≤ hi x))
          (done ++ high.map fun x => ⟨x.k, hi x, true⟩)
      else
        let sum := (open_.map p).foldl (· + ·) 0
        done ++ spread (rest - sum) (open_.map fun x => ⟨x.k, p x, false⟩)

/-- Sum of a bound over the domains. -/
def sumOf (f : Dom → Nat) (l : List Dom) : Nat := (l.map f).foldl (· + ·) 0

/-- The allocation of B, and whether the lower bounds did not fit (R254, R255). -/
def share (b : Nat) (lo hi : Dom → Nat) (l : List Dom) : List Alloc × Bool :=
  if sumOf lo l ≤ b then (shareGo lo hi 9 b l [], false)
  else
    let hw := sumOf Dom.hwLo l
    let a := if hw ≤ b then
        l.map fun x => (⟨x.k, x.hwLo + (b - hw) * (lo x - x.hwLo) / (sumOf lo l - hw), decide (x.hwLo < lo x)⟩ : Alloc)
      else l.map fun x => (⟨x.k, b * x.hwLo / hw, true⟩ : Alloc)
    (spread (b - (a.map Alloc.mw).foldl (· + ·) 0) a, true)

def allocOf (l : List Alloc) (k : Nat) : Alloc := (l.find? fun a => a.k == k).getD ⟨k, 0, false⟩

/-- CHISEL_CLAMP_SRC of a domain that ended at a value (R252, R256): the highest code of the bounds it equals. -/
def Dom.src (x : Dom) (mw : Nat) : Nat :=
  if mw = x.hwHi ∧ x.hwHi = x.pmax then 5
  else if mw = x.hwHi ∧ x.hwHi = x.ceil then 4
  else if mw = x.hwLo then 3
  else if mw = x.hi ∧ x.hi < x.hwHi then 2
  else if mw = x.lo ∧ x.hwLo < x.lo then 1
  else 0

/-- A CHISEL_EVENT record (R267). -/
def State.chiEvent (s : State) (n kind mask budget count : Nat) : State :=
  s.record 0x13 n kind (some n) (leBytes 1 ((s.chiS n).cur.getD 0xFF) ++ leBytes 1 mask ++ zeros 2 ++ leBytes 4 budget ++
    leBytes 4 count ++ zeros 16)

/-- What an allocation needs of a site: the domains with their demands, and B. -/
def State.chiDoms (s : State) (n : Nat) (fallback : Bool) : List Dom :=
  let c := s.chiS n
  (((s.capS n).vtable.map vtDomains).getD []).map fun d =>
    let x := c.domOf d 0
    let dem := if fallback then chFallback c.entry d.1 * 1000
      else match c.cur with
        | some i => max 1 (min x.hwHi (Tbl.get 0 (c.cl i).e d.1 + Tbl.get 0 (c.cl i).sat d.1))
        | none => 1
    { x with dem := dem }

/-- B of R252. -/
def State.chiBudget (s : State) (n : Nat) : Nat := ((s.capS n).cap - chOverhead.val (s.chiS n).entry).toNat

/-- The learned reference and the final allocation of an interval, with their registers and counters (R254 to R256).
`code` replaces the source codes: 7 STILL, 8 FALLBACK. CHISEL_DEMAND holds the demands of the current cluster; with no cluster those
that the shares use (DESIGN CHOICE, log 121). -/
def State.allocate (s : State) (n : Nat) (fallback : Bool) (code : Option Nat) : State :=
  let l := s.chiDoms n fallback
  let b := s.chiBudget n
  let ref := share b Dom.hwLo Dom.hwHi l
  let fin := share b Dom.lo Dom.hi l
  let c := s.chiS n
  let wasShort := c.short
  let past := sumOf Dom.hwLo l > b
  let src (x : Dom) : Nat := match code with
    | some v => v
    | none => if fin.2 && (past || decide (x.hwLo < x.lo)) then 6 else x.src (allocOf fin.1 x.k).mw
  let used := (fin.1.map Alloc.mw).foldl (· + ·) 0
  let s := s.setChiS n { c with
    alloc := l.map fun x => (x.k, (allocOf fin.1 x.k).mw)
    learned := l.map fun x => (x.k, (allocOf ref.1 x.k).mw)
    demand := (if c.cur.isNone then l else s.chiDoms n false).map fun x => (x.k, x.dem)
    src := l.map fun x => (x.k, src x)
    unused := b - used, short := fin.2, heldCap := (s.capS n).cap.toNat, heldBounds := l.map fun x => (x.k, x.lo, x.hi) }
  let s := l.foldl (fun (s : State) x =>
    let a := allocOf ref.1 x.k
    let bind := decide ((Tbl.find? c.swCeil x.k).getD x.hwHi < a.mw) || decide (a.mw < (Tbl.find? c.swFloor x.k).getD x.hwLo)
    let s := if bind then s.bumpChi n x.k else s
    if a.fixed && !ref.2 then s.bumpChi n (8 + x.k) else s) s
  if fin.2 then
    let s := s.bumpChi n 21
    if wasShort then s else s.chiEvent n 4 (maskOf ((l.filter fun x => src x == 6).map Dom.k)) b (s.chiCnt n 21)
  else s

/-! ## Model images (R265) -/

def imageCluster (x : Cluster) : Bytes :=
  leBytes 1 (if x.used then 1 else 0) ++ zeros 3 ++ leBytes 4 x.uses ++ leBytes 8 x.last ++
    ((List.range 16).flatMap fun j => leBytes 8 (ofInt 64 (Tbl.get 0 x.cen j))) ++
    ((List.range 8).flatMap fun k => leBytes 4 (Tbl.get 0 x.e k)) ++ (List.range 8).flatMap fun k => leBytes 4 (Tbl.get 0 x.sat k)

/-- K in force for a site's model: of its entry, or while the structure has none, what the model was learned under. -/
def ChiselSite.k (c : ChiselSite) : Nat := if c.entry = [] then c.clustersOf else chClusters.nat c.entry

/-- The model image of a site. -/
def State.modelImage (s : State) (n : Nat) : Bytes :=
  let c := s.chiS n
  let head := leBytes 4 0x4C4D4843 ++ leBytes 2 1 ++ leBytes 1 n ++ leBytes 1 c.k ++
    leBytes 1 (c.cur.getD 0xFF) ++ leBytes 1 (bitAt c.frozen 0) ++ leBytes 1 (s.capS n).domains ++ [0] ++
    slice ((s.site n).rom ++ zeros 64) 8 16 ++ zeros 4 ++ digestBytes (Config.sha384 c.entry) ++ leBytes 8 s.pnt.count ++ zeros 36
  let body := (List.range 16).flatMap fun i => imageCluster (c.cl i)
  head ++ leBytes 4 (crc32c (head ++ zeros 4 ++ body)) ++ body

/-- A model image's form (R265). -/
def imageOk (b : Bytes) : Bool :=
  b.length == 3456 && u32 b 0 == 0x4C4D4843 && u16 b 4 == 1 && decide (u8 b 9 < 2) && u8 b 11 == 0 && zeroAt b 0x1C 4 &&
    zeroAt b 0x58 36 && u32 b 0x7C == crc32c (patch b 0x7C (zeros 4)) &&
    (List.range 16).all fun i =>
      let o := 0x80 + 208 * i
      decide (u8 b o < 2) && zeroAt b (o + 1) 3 && (u8 b o == 0 || decide (i < u8 b 7))

/-- A model image belongs to the site and its entry (R265, R266). -/
def State.imageFits (s : State) (n : Nat) (b : Bytes) : Bool :=
  let c := s.chiS n
  slice b 0x0C 16 == slice ((s.site n).rom ++ zeros 64) 8 16 && u8 b 0x0A == (s.capS n).domains &&
    (c.entry == [] || u8 b 7 == chClusters.nat c.entry) && decide (digestAt b 0x20 = Config.sha384 c.entry)

/-- The model that an image holds. -/
def State.loadImage (s : State) (n : Nat) (b : Bytes) : State :=
  let c := s.chiS n
  let cl := (List.range 16).filter (fun i => u8 b (0x80 + 208 * i) == 1) |>.map fun i =>
    let o := 0x80 + 208 * i
    (i, ({ used := true, uses := u32 b (o + 4), last := u64 b (o + 8)
           cen := (List.range 16).map fun j => (j, sle b (o + 16 + 8 * j) 8)
           e := (List.range 8).map fun k => (k, u32 b (o + 144 + 4 * k))
           sat := (List.range 8).map fun k => (k, u32 b (o + 176 + 4 * k)) } : Cluster))
  let cur := if cl.any (fun x => x.1 == u8 b 8) then some (u8 b 8) else none
  s.setChiS n { c with clusters := cl, cur := cur, cand := none, candN := 0, frozen := u8 b 9 == 1, clustersOf := u8 b 7 }

/-! ## Commands (R264) -/

/-- A Chisel command waits for the start of the next interval; a second one completes BUSY. -/
def State.chiCommand (s : State) (r : Req) (e : Bytes) (code : Nat) (image : Option Bytes) :
    Host.Outcome State Fault Refusal :=
  s.armCmd r .sitePower fun s =>
    let n := u8 e 0x10
    if 8 ≤ n then s.complete r 0x10 0x10 0
    else if !zeroAt e 0x11 7 then s.complete r 0x10 0x11 0
    else if (s.chiS n).cmd.isSome then s.complete r 0x48 0 0
    else s.setChiS n { s.chiS n with cmd := some ⟨code, r, u64 e 0x18, u32 e 0x20, image, s.may r.principal .counterClear⟩ }

def execChiselFreeze (r : Req) (e : Bytes) (s : State) : Host.Outcome State Fault Refusal := s.chiCommand r e 1 none
def execChiselThaw (r : Req) (e : Bytes) (s : State) : Host.Outcome State Fault Refusal := s.chiCommand r e 2 none
def execChiselReset (r : Req) (e : Bytes) (s : State) : Host.Outcome State Fault Refusal := s.chiCommand r e 3 none
def execChiselExport (r : Req) (e : Bytes) (s : State) : Host.Outcome State Fault Refusal := s.chiCommand r e 4 none
def execChiselImport (r : Req) (e : Bytes) (src : Option Bytes) (s : State) : Host.Outcome State Fault Refusal :=
  s.chiCommand r e 5 src

/-- The command that waits acts, whole; while the Armature restarts it waits on (R266). -/
def State.chiRun (s : State) (n : Nat) (on : Bool) : State :=
  let c := s.chiS n
  match c.cmd with
  | none => s
  | some m => if !(s.pwr.armature && s.boot.run.isSome) then s else
    let s := s.setChiS n { c with cmd := none }
    let c := s.chiS n
    let done (s : State) (code : Nat) : State := s.complete m.req code 0 0
    if !on then done s 0x60
    else if m.code = 1 then done (s.setChiS n { c with frozen := true }) 0
    else if m.code = 2 then done (s.setChiS n { c with frozen := false }) 0
    else if m.code = 3 then
      if c.still then done s 0x62 else
        let c := if m.clearCnt then { c.clear with cnts := [] } else c.clear
        done ((s.setChiS n c).chiEvent n 7 0 (s.chiBudget n) 0) 0
    else if m.code = 4 then
      if m.len ≠ 3456 then done s 0x11 else
        match s.canGive m.addr 3456 with
        | some code => done (s.ownViolation m.req m.addr code) code
        | none => done (s.give m.addr (s.modelImage n)) 0
    else if c.still then done s 0x62
    else if m.len ≠ 3456 then done s 0x11
    else match s.source m.addr 3456 m.image with
      | none => done s 0x93
      | some b =>
        if !imageOk b then done s 0x10
        else if !s.imageFits n b then done s 0x61
        else done ((s.loadImage n b).chiEvent n 6 0 (s.chiBudget n) 0) 0

/-! ## The interval (R242, R246, R259 to R262) -/

/-- The entry in force: a commit acts here, but for a site in Still mode; another cluster count than the model was learned under clears
it, and the software bounds are set to the hardware ones again (R66, R262, R263). -/
def State.chiCommit (s : State) (n : Nat) : State :=
  let c := s.chiS n
  let new := if s.hasSec 0x0D then chiselEntry (s.sec 0x0D) n else []
  if c.still ∨ (!c.recommit ∧ c.entry = new) then s else
    let c := if new ≠ [] ∧ c.clustersOf ≠ 0 ∧ c.clustersOf ≠ chClusters.nat new then c.clear else c
    let c := if new = [] then c else { c with clustersOf := chClusters.nat new }
    s.setChiS n { c with entry := new, recommit := false, swFloor := [], swCeil := [] }

/-- A run in GO asks Still mode of a site (R217, R260). -/
def State.wantsStill (s : State) (n : Nat) : Bool :=
  (List.range 16).any fun i => (s.arm i).st == 2 && (s.arm i).still && (s.arm i).siteMask.testBit n

/-- The cap has changed since the held allocation was made, or a bound has changed so that the allocation violates it (R261). -/
def State.heldBroken (s : State) (n : Nat) : Bool :=
  let c := s.chiS n
  decide (c.heldCap ≠ (s.capS n).cap.toNat) ||
    (s.chiDoms n false).any fun x =>
      let b := Tbl.get (0, 0) c.heldBounds x.k
      let a := Tbl.get 0 c.alloc x.k
      (decide (x.lo ≠ b.1) && decide (a < x.lo)) || (decide (x.hi ≠ b.2) && decide (x.hi < a))

/-- The record that an interval uses, judged: none is a missed interval (R246, R247). -/
def State.chiRecord (s : State) (n : Nat) : State × Option Bytes :=
  let c := s.chiS n
  match c.record with
  | none => (s.bumpChi n 20, none)
  | some rec =>
    let s := s.setChiS n { c with record := none }
    let c := s.chiS n
    if plausible rec (((s.capS n).vtable.map vtDomains).getD []) (s.peaks n).peak1ms then
      (s.setChiS n { c with implRow := 0, implausible := false, stale := false, fallbackDue := false }, some rec)
    else
      let row := min (c.implRow + 1) 8
      let s := (s.setChiS n { c with implRow := row, implausible := c.implausible || row == 8 }).bumpChi n 16
      let s := if row = 8 ∧ ¬ c.implausible then s.chiEvent n 3 0 (s.chiBudget n) (s.chiCnt n 16) else s
      (s.bumpChi n 20, none)

/-- The 64-byte allocation record, over Ebbex and through the Warden (R257). -/
def State.sendAlloc (s : State) (n : Nat) : State :=
  let c := s.chiS n
  let rec_ := leBytes 1 3 ++ leBytes 1 n ++ leBytes 1 (if c.fallback then 0xFF else c.cur.getD 0xFF) ++
    leBytes 1 (bitAt c.still 0 + bitAt c.frozen 1 + bitAt c.fallback 2 + bitAt c.short 3) ++ leBytes 4 c.seq.toNat ++
    leBytes 8 ((s.pnt.count / 250000 + 1) * 250000) ++ leBytes 4 (s.capS n).cap.toNat ++ leBytes 4 (s.chiBudget n) ++ zeros 8 ++
    (List.range 8).flatMap fun k => leBytes 4 (Tbl.get 0 c.alloc k)
  let s := (s.setChiS n { c with seq := c.seq + 1 }).emit (.site 257 n rec_)
  let ep := Tbl.get 0xFFFF s.ebx.siteEp n
  if ep = 0xFFFF ∨ s.ebx.up = 0#2 then s
  else s.emit (.packet (s.portFor ep) { s.mkPacket 0x22 (ep * 2 ^ 52 + 0x20000000000) rec_ with dstEp := ep })

/-- One site's interval. A missed interval shares the same demands again, since nothing has learned: it repeats the allocation, with
its clamps formed against the bounds in force (R259; DEDUCED, log 92). -/
def State.chiSite (s : State) (n : Nat) : State :=
  let s := s.chiCommit n
  let on := s.chiselOn n
  let s := s.setChiS n { s.chiS n with on := on }
  let s := s.chiRun n on
  let enter := s.wantsStill n && !(s.capS n).still
  let s := if enter then
      (s.setCapS n { s.capS n with still := true, stillCap := (s.capS n).cap, entry := some (s.capOf n) }).throttleNote
    else s
  if !on then s.setChiS n { s.chiS n with stale := false, fallbackDue := false, fallback := false, short := false }
  else
    let held := (s.chiS n).still
    let s := if s.wantsStill n then s.setChiS n { s.chiS n with still := true } else s
    let r := s.chiRecord n
    let s := r.1
    let stale := (s.capS n).telemStale
    let s := if stale && !(s.chiS n).stale then (s.setChiS n { s.chiS n with stale := true }).chiEvent n 1 0 (s.chiBudget n) 0 else s
    if held then
      let s := if s.heldBroken n then
          let c := s.chiS n
          let s := (s.allocate n c.cur.isNone (some 7))
          let s := s.setChiS n { s.chiS n with stillCut := true }
          (s.chiEvent n 8 (maskOf ((s.chiDoms n false).map Dom.k)) (s.chiBudget n) 0).noteCut n
        else s
      s.sendAlloc n
    else
      let s := match r.2 with
        | some rec => s.classify n rec (((s.capS n).vtable.map vtDomains).getD [])
        | none => s
      let c := s.chiS n
      let fb := c.fallbackDue || c.cur.isNone
      let s := s.setChiS n { c with fallback := fb }
      let s := s.allocate n fb (if (s.chiS n).still then some 7 else if fb then some 8 else none)
      s.sendAlloc n

/-- An interval begins (R242); none does from a reset of the core domain to its start step 20 (R266). -/
def State.chiInterval (s : State) : State := if (s.chiS 0).restored then (List.range 8).foldl State.chiSite s else s

/-- Every 250 µs (R242). -/
def execChiselInterval (s : State) : Host.Outcome State Fault Refusal := s.coreDo State.chiInterval

/-- STALE_FALLBACK of staleness has passed (R259). -/
def execChiselStaleFallbackExpiry (site : Nat) (s : State) : Host.Outcome State Fault Refusal :=
  s.coreDo fun s =>
    let c := s.chiS site
    if c.stale && !c.fallbackDue then
      (s.setChiS site { c with fallbackDue := true }).chiEvent site 2 0 (s.chiBudget site) 0
    else s

/-- CHISEL_SW_FLOOR or CHISEL_SW_CEIL of a domain: clamped into the hardware bounds; the other bound is moved where the
write would cross it (R263). The value is a power, in two's complement (R12). -/
def execChiselSwBoundWrite (r : Req) (site dom : Nat) (ceil : Bool) (value : Int) (s : State) :
    Host.Outcome State Fault Refusal :=
  s.coreDo fun s => s.withWriteRight r .sitePower ((if ceil then 0x601B0 else 0x60190) + 4 * dom) fun s =>
    match ((s.capS site).vtable.map vtDomains).getD [] |>.find? fun d => d.1 == dom with
    | none => s
    | some d =>
      let c := s.chiS site
      let x := c.domOf d 0
      let v := (clampI x.hwLo x.hwHi value).toNat
      let moved := if ceil then decide (v < x.lo) else decide (x.hi < v)
      let c := if ceil then { c with swCeil := Tbl.set c.swCeil dom v } else { c with swFloor := Tbl.set c.swFloor dom v }
      let c := if moved then (if ceil then { c with swFloor := Tbl.set c.swFloor dom v } else { c with swCeil := Tbl.set c.swCeil dom v })
        else c
      let s := s.setChiS site c
      let s := if (v : Int) ≠ value then s.bumpChi site 22 else s
      if moved then s.bumpChi site 22 else s

/-! ## Checkpoints (R266) -/

/-- Every 1 s the Armature writes each model to DRAM, once step 20 has restored it. -/
def State.chiCheckpoint (s : State) : State :=
  if s.hasDram && (s.chiS 0).restored then { s with ckpt := (List.range 8).map fun n => (n, s.modelImage n) } else s

/-- A model starts empty: where the structure has an entry for it, MODEL_LOST and one record say so (R266, R267). -/
def State.chiLost (s : State) (n : Nat) : State :=
  let c := (s.chiS n).clear
  if c.entry = [] then s.setChiS n c else (s.setChiS n { c with modelLost := true }).chiEvent n 5 0 (s.chiBudget n) 0

/-- At start step 20 each model is restored from its checkpoint, or starts empty (R266). -/
def State.chiRestore (s : State) : State :=
  (List.range 8).foldl (fun (s : State) n =>
    let s := s.chiCommit n
    let s := s.setChiS n { s.chiS n with serial := le (s.site n).rom 0x18 16, domains := (s.capS n).domains, restored := true }
    match Tbl.find? s.ckpt n with
    | some b => if s.hasDram && imageOk b && s.imageFits n b then s.loadImage n b else s.chiLost n
    | none => s.chiLost n) s

end Sys2Proof.Machine
end

