-- ==== Sys2Proof/Machine/Align.lean ====
section
/-!
DEFINITION. Machine/Align.lean: the steps of the Pointing count and what they end (R323), a worker's alignment at a DELAY frame (R330,
R331), the count that a starting manager sets (R336), and the Partner's count (R335).
-/
namespace Sys2Proof.Machine

/-- The count is set to a new value: the metering interval and the Chisel interval under way end, so that the next ones begin with the new
count, and POINTING_EPOCH counts (R323). -/
def State.stepTo (s : State) (t : Nat) : State :=
  let s := s.meterCut (t / 64)
  let s := { s with pnt := { s.pnt with count := t / 64, frac := t % 64, fine := 0, slew := 0 } }
  (s.bump 9 0 s.pnt.epoch fun c s => { s with pnt := { s.pnt with epoch := c } }).chiInterval

/-- A DELAY frame at the child: CALIBRATING ends, with a step only while the count is not valid (R330). -/
def execDelayFrame (p : Bytes) (s : State) : Host.Outcome State Fault Refusal :=
  s.coreDo fun s =>
    let d := u32 p 2
    let s := s.setLine 0 { s.line 0 with delay := d, calibrated := true, linkUp := true }
    if s.pnt.st = .calibrating then
      let target : Int := (s.pnt.lastCount : Int) + d + ((s.local : Int) - s.pnt.lastLocal)
      if s.pnt.valid then
        { s with pnt := { s.pnt with st := .locking, nIn := 0, nOut := 0, slew := target - s.local, err := target - s.local } }
      else
        let s := s.stepTo target.toNat
        { s with pnt := { s.pnt with st := .locking, valid := true, nIn := 0, nOut := 0, err := 0 } }
    else s

/-- A starting manager sets its count: from an ECHO of a child in HOLDOVER, from POINTING_SAVE plus the Plinth time since
(2^6 ns units of a tick: 1,953,125), or 0. -/
def execManagerEchoWaitExpiry (s : State) : Host.Outcome State Fault Refusal :=
  s.coreDo fun s =>
    if s.pnt.waitEcho then
      let t : Nat := match s.pnt.offer, s.pnt.save with
        | some (_, o), _ => (o + s.local).toNat
        | none, some (c, at_) => if at_ ≤ s.plinth then 64 * c + 1953125 * (s.plinth - at_) else 0
        | none, none => 0
      let s := s.stepTo t
      { s with pnt := { s.pnt with waitEcho := false, offer := none, valid := true } }
    else s

/-- The count of the Lead comes to the Partner, with its POINTING_VALID and state: the Partner's count is locked to it, by a step only
while it is not valid (R323, R335). -/
def State.lockCount (s : State) (t : Nat) (valid : Bool) (st : PtSt) : State :=
  if !valid then { s with pnt := { s.pnt with st := .free, valid := false }, pair := { s.pair with countLocked := false } }
  else
    let s := if s.pnt.valid then { s with pnt := { s.pnt with count := t / 64, frac := t % 64, fine := 0 } } else s.stepTo t
    { s with pnt := { s.pnt with st := st, valid := true, waitEcho := false, slew := 0 }, pair := { s.pair with countLocked := true } }

end Sys2Proof.Machine
end

