-- ==== Sys2Proof/Machine/Caliper.lean ====
section
/-!
DEFINITION. Machine/Caliper.lean: operation descriptors and their results, audit offers, checks and verdicts, Disagreement
records, CHECK and COMPUTE (R367 to R387, R394 to R397).
-/
namespace Sys2Proof.Machine

/-! ## Descriptors (R372, R373, R375) -/

/-- Any input format but KROVVEN and INT32. -/
def plainIn (f : Nat) : Bool := decide (1 ≤ f) && decide (f ≤ 10)
/-- Output formats of DOT and SUM, but for KROVVEN. -/
def plainOut (f : Nat) : Bool := [1, 2, 3, 4, 5, 9, 10, 11].contains f

/-- Columns of a stored row of A or x, and its number of rows (R373). -/
def rowsA (d : Bytes) : Nat × Nat :=
  if u8 d 0 = 1 then (if dTa d then (dK d, dM d) else (dM d, dK d))
  else if u8 d 0 = 2 then (dM d, dK d) else (dM d, dN d)
def rowsB (d : Bytes) : Nat × Nat :=
  if u8 d 0 = 1 then (if dTb d then (dN d, dK d) else (dK d, dN d)) else (dM d, dN d)

/-- Bytes of a row of n elements as it is stored: FP6 in whole blocks of 24 bytes, elements beyond the row's length among them (R349,
R350, R373; log 125). -/
def rowBytes (fmt n : Nat) : Nat := if fmt = 6 ∨ fmt = 7 then 24 * ((n + 31) / 32) else (n * fmtWidth fmt + 7) / 8

/-- The offset of the first descriptor field at fault and its status, or none (R375). COMPUTE asks a location, and does not look at
RESULT_FLAGS, whose bits 7:5 are reserved (R359). α and β are in any format that R351 allows there, the MX formats included: R372 gives
their encoding, and R375 refuses by R351 alone (DEDUCED, log 126). -/
def descBad (d : Bytes) (compute : Bool) : Option (Nat × Nat) :=
  let op := u8 d 0
  let a := dFmtA d
  let b := dFmtB d
  let c := dFmtC d
  let o := dOut d
  let hasB := decide (op = 1) || (decide (op = 3) && decide (u64 d 0x30 ≠ 0))
  if op < 1 ∨ 6 < op then some (0x10, 0)
  else if !(if op = 1 ∨ op = 3 then plainIn a else if op = 2 ∨ op = 4 then plainIn a || a == 15 else decide (1 ≤ a) && decide (a ≤ 5)) then
    some (0x10, 1)
  else if !(if hasB then plainIn b else b == 0) then some (0x10, 2)
  else if !(if op = 1 then (if u64 d 0x38 = 0 then c == 0 else [1, 2, 3, 9, 15].contains c)
      else if op = 3 then plainIn c else c == 0) then some (0x10, 3)
  else if !(if op = 1 ∨ op = 2 then plainOut o || o == 15 else if op = 3 then plainOut o
      else if op = 4 then plainOut o || isMx o else decide (1 ≤ o) && decide (o ≤ 3)) then some (0x10, 4)
  else if 4 ≤ u8 d 5 ∨ (op ≠ 1 ∧ u8 d 5 ≠ 0) then some (0x10, 5)
  else if compute ∧ u8 d 6 ≠ 1 then some (0x11, 6)
  else if u8 d 6 ≠ 1 ∧ u8 d 6 ≠ 2 then some (0x10, 6)
  else if ¬ compute ∧ 32 ≤ u8 d 7 then some (0x10, 7)
  else if u8 d 6 = 1 ∧ ¬ zeroAt d 0x58 40 then some (0x10, 0x58)
  else if dM d < 1 ∨ 65536 < dM d then some (0x11, 8)
  else if dN d < 1 ∨ 65536 < dN d ∨ (op = 2 ∧ dN d ≠ 1) ∨ 2 ^ 24 < dM d * dN d then some (0x11, 0xC)
  else if (op ≤ 2 ∧ dK d = 0) ∨ (2 < op ∧ dK d ≠ 0) then some (0x11, 0x10)
  else if u32 d 0x1C < rowBytes a (rowsA d).2 then some (0x11, 0x1C)
  else if hasB ∧ u32 d 0x20 < rowBytes b (rowsB d).2 then some (0x11, 0x20)
  else if u8 d 6 = 1 ∧ u32 d 0x24 < rowBytes o (dN d) then some (0x11, 0x24)
  else none

/-! ## Operands (R369, R373) -/

/-- Bytes that the surroundings returned for remote addresses, as pairs of an address and bytes from it. -/
abbrev Fetched := List (Nat × Bytes)

/-- Bytes at an address, from a local window or as fetched. -/
def State.fetch (s : State) (f : Fetched) (addr n : Nat) : Option Bytes :=
  match s.window addr with
  | .remote _ => match f.find? fun x => decide (x.1 ≤ addr) && decide (addr + n ≤ x.1 + x.2.length) with
    | some x => some (slice x.2 (addr - x.1) n)
    | none => none
  | _ => s.localRead addr n

/-- Why bytes did not come: NO_MEMORY for module DRAM out of service (R397), 0x91 for a detected error in DRAM, FETCH otherwise. -/
def State.fetchWhy (s : State) (addr n : Nat) : Nat :=
  match s.window addr with
  | .dram off => match s.dramAcc off n with
    | .ok => 0x91
    | .unavailable => 0x84
    | .address => 0x83
  | _ => 0x83

/-- The status of an entry whose bytes did not come: an error that stays in DRAM is NO_MEMORY too (R429). -/
def State.fetchCode (s : State) (addr n : Nat) : Nat := if s.fetchWhy addr n = 0x91 then 0x84 else s.fetchWhy addr n

/-- Stored rows r0 to r0 + rows - 1 of an operand, each at its own number. -/
def State.fetchRows (s : State) (f : Fetched) (base ld r0 rows n : Nat) : Except Nat (List Bytes) := do
  let l ← (List.range rows).mapM fun i => match s.fetch f (base + (r0 + i) * ld) n with
    | some b => Except.ok b
    | none => .error (s.fetchWhy (base + (r0 + i) * ld) n)
  .ok (List.replicate r0 [] ++ l)

/-- Element k of a packed row (R350). -/
def rowElem (fmt : Nat) (row : Bytes) (k : Nat) : Nat :=
  let w := fmtWidth fmt
  le row (w * k / 8) ((w + 15) / 8) / 2 ^ (w * k % 8) % 2 ^ w

/-- The operands of a descriptor as fetched: rows of A and B, scales of A and B, and c. -/
structure Opnds where
  a : List Bytes
  b : List Bytes
  sa : Bytes
  sb : Bytes
  c : Bytes
  deriving DecidableEq, Repr

/-- Scale bytes of an operand: rows x blocks of 32 (R373). -/
def State.fetchScales (s : State) (f : Fetched) (fmt addr rows len : Nat) : Except Nat Bytes :=
  if isMx fmt then match s.fetch f addr (rows * ((len + 31) / 32)) with
    | some b => .ok b
    | none => .error (s.fetchWhy addr (rows * ((len + 31) / 32)))
  else .ok []

/-- The operands of a part of a result: the stored rows that it takes, but for KROVVEN elements every one, since a packet that is rejected
leaves the whole operation without a result (R363). -/
def State.operands (s : State) (f : Fetched) (d : Bytes) (p : ResPart) : Except Nat Opnds := do
  let ra := rowsA d
  let rb := rowsB d
  let dot := u8 d 0 == 1
  let pa : Nat × Nat := bif (dot && dTa d) || dFmtA d == 15 then (0, ra.1) else (p.r0, p.nr)
  let pb : Nat × Nat := bif dot then (bif dTb d then (p.c0, p.nc) else (0, rb.1)) else (p.r0, p.nr)
  let hasB := u8 d 0 = 1 ∨ (u8 d 0 = 3 ∧ u64 d 0x30 ≠ 0)
  let a ← s.fetchRows f (u64 d 0x28) (u32 d 0x1C) pa.1 pa.2 (rowBytes (dFmtA d) ra.2)
  let b ← if hasB then s.fetchRows f (u64 d 0x30) (u32 d 0x20) pb.1 pb.2 (rowBytes (dFmtB d) rb.2) else .ok []
  let sa ← s.fetchScales f (dFmtA d) (u64 d 0x40) (dM d) (if u8 d 0 ≤ 2 then dK d else dN d)
  let sb ← if hasB then s.fetchScales f (dFmtB d) (u64 d 0x48) (bif dot then dN d else dM d) (bif dot then dK d else dN d) else .ok []
  let n := dM d * dN d * fmtWidth (dFmtC d) / 8
  let c ← if u8 d 0 = 1 ∧ u64 d 0x38 ≠ 0 then match s.fetch f (u64 d 0x38) n with
      | some x => .ok x
      | none => .error (s.fetchWhy (u64 d 0x38) n)
    else .ok []
  .ok ⟨a, b, sa, sb, c⟩

/-- The value of element k of a line of an operand, with its scale along a dimension of `len`. -/
def elemVal (fmt : Nat) (row scales : Bytes) (col line len k : Nat) : Val :=
  decodeVal fmt (rowElem fmt row col) (u8 scales (line * ((len + 31) / 32) + k / 32))

/-- Element (m, k) of A, or (i, j) of x. -/
def Opnds.atA (x : Opnds) (d : Bytes) (m k : Nat) : Val :=
  let t := u8 d 0 == 1 && dTa d
  elemVal (dFmtA d) (x.a.getD (if t then k else m) []) x.sa (if t then m else k) m (if u8 d 0 ≤ 2 then dK d else dN d) k

/-- Element (k, n) of B of a DOT, or (i, j) of y. -/
def Opnds.atB (x : Opnds) (d : Bytes) (k n : Nat) : Val :=
  if u8 d 0 = 1 then elemVal (dFmtB d) (x.b.getD (if dTb d then n else k) []) x.sb (if dTb d then k else n) n (dK d) k
  else elemVal (dFmtB d) (x.b.getD k []) x.sb n k (dN d) n

/-- A KROVVEN slot as an accumulator: TERM_LIMIT where its TERMS has saturated, else PACKET where it is rejected (R363; the
order of R375's table). -/
def slotAcc (b : Bytes) : Except Nat Acc :=
  if u32 b 4 = 0xFFFFFFFF then .error 0x82 else if !packetOk b then .error 0x81 else .ok (packetAcc b)

/-- The KROVVEN slots among the operands, in order: those of c of a DOT, or of x of a SUM or CONVERT. -/
def Opnds.slots (x : Opnds) (d : Bytes) : List Bytes :=
  if u8 d 0 = 1 then (if dFmtC d = 15 then (List.range (x.c.length / 88)).map fun i => slice x.c (88 * i) 88 else [])
  else if dFmtA d = 15 then x.a.flatMap fun r => (List.range (rowsA d).2).map fun i => slice r (88 * i) 88
  else []

/-- α or β of an AXPBY: for an MX format bits 7:0 are the element and bits 15:8 the scale (R372). -/
def scalarVal (d : Bytes) (off : Nat) : Val := decodeVal (dFmtC d) (u32 d off % 2 ^ fmtWidth (dFmtC d)) (u8 d (off + 1))

/-- The accumulator of a result element (R351, R353). -/
def Opnds.acc (x : Opnds) (d : Bytes) (m n : Nat) : Except Nat Acc := do
  let op := u8 d 0
  if op = 1 then
    let a := (List.range (dK d)).foldl (fun (a : Acc) k => a.fold ((x.atA d m k).mul (x.atB d k n))) {}
    if u64 d 0x38 = 0 then .ok a
    else if dFmtC d = 15 then
      let c ← slotAcc (slice x.c (88 * (m * dN d + n)) 88)
      .ok (a.combine c)
    else
      let w := fmtWidth (dFmtC d) / 8
      .ok (a.fold (decodeVal (dFmtC d) (le x.c (w * (m * dN d + n)) w) 0))
  else if op = 2 then
    if dFmtA d = 15 then
      (List.range (dK d)).foldlM (fun (a : Acc) k => do
        let c ← slotAcc (slice (x.a.getD m []) (88 * k) 88)
        .ok (a.combine c)) {}
    else .ok ((List.range (dK d)).foldl (fun (a : Acc) k => a.fold (x.atA d m k)) {})
  else if op = 3 then
    let a := ({} : Acc).fold ((scalarVal d 0x14).mul (x.atA d m n))
    .ok (if u64 d 0x30 = 0 then a else a.fold ((scalarVal d 0x18).mul (x.atB d m n)))
  else if dFmtA d = 15 then slotAcc (slice (x.a.getD m []) (88 * n) 88)
  else .ok (({} : Acc).fold (x.atA d m n))

/-- A result: the codes of its rows, the scale codes of its rows, and the flags. -/
structure CalRes where
  rows : List (List Nat)
  scales : List (List Nat)
  flags : Nat
  deriving DecidableEq, Repr

/-- KROVVEN output: the accumulator itself; INVALID for a NaN (R357, R359, R364). -/
def Acc.out (a : Acc) (fmt : Nat) : Nat × ExcFlags :=
  if fmt = 15 then (a.slot, if a.nan || (a.pinf && a.ninf) then 1 else 0) else a.result fmt

/-- A list cut into runs of 32. -/
def runs32 (l : List Acc) : List (List Acc) := (List.range ((l.length + 31) / 32)).map fun i => (l.drop (32 * i)).take 32

/-- One row of a part of a result: codes, scales, flags. -/
def Opnds.row (x : Opnds) (d : Bytes) (p : ResPart) (m : Nat) : Except Nat (List Nat × List Nat × ExcFlags) := do
  let o := dOut d
  if u8 d 0 = 5 ∨ u8 d 0 = 6 then
    let r := (List.range p.nc).map fun n => (if u8 d 0 = 5 then exp2Val else rsqrtVal) o (x.atA d m (p.c0 + n))
    .ok (r.map Prod.fst, [], (r.map Prod.snd).foldl (· ||| ·) 0)
  else
    let l ← (List.range p.nc).mapM fun n => x.acc d m (p.c0 + n)
    if isMx o then
      let r := (runs32 l).map (mxBlock o)
      .ok (r.flatMap fun b => b.2.1, r.map fun b => b.1, (r.map fun b => b.2.2).foldl (· ||| ·) 0)
    else
      let r := l.map fun a => a.out o
      .ok (r.map Prod.fst, [], (r.map Prod.snd).foldl (· ||| ·) 0)

/-- A part of the result of a descriptor over its operands (R351 to R366); none where a KROVVEN input is refused (R363, R375). -/
def Opnds.result (x : Opnds) (d : Bytes) (p : ResPart) : Except Nat CalRes := do
  let _ ← (x.slots d).mapM slotAcc
  let l ← (List.range p.nr).mapM fun m => x.row d p (p.r0 + m)
  .ok ⟨l.map fun r => r.1, l.map fun r => r.2.1, (l.map fun r => r.2.2).foldl (· ||| ·) 0⟩

def State.compute (s : State) (f : Fetched) (d : Bytes) (p : ResPart) : Except Nat CalRes := do
  let x ← s.operands f d p
  x.result d p

/-- A row packed dense, padded with 0 bits to a whole byte (R350, R374). -/
def packRow (fmt : Nat) (l : List Nat) : Bytes :=
  leBytes ((l.length * fmtWidth fmt + 7) / 8) ((l.zipIdx.map fun x => x.1 * 2 ^ (fmtWidth fmt * x.2)).foldl (· + ·) 0)

/-- The bytes that R374's digest covers. -/
def CalRes.bytes (r : CalRes) (fmt : Nat) : Bytes :=
  ((r.rows.zip r.scales).flatMap fun x => packRow fmt x.1 ++ x.2.flatMap (leBytes 1)) ++ leBytes 1 r.flags

/-- The site's result at a location: codes and scales of each row. -/
def State.siteRows (s : State) (f : Fetched) (d : Bytes) : Except Nat CalRes := do
  let rows ← s.fetchRows f (u64 d 0x50) (u32 d 0x24) 0 (dM d) (rowBytes (dOut d) (dN d))
  let nb := (dN d + 31) / 32
  let sc ← s.fetchScales f (if u8 d 0 = 4 then dOut d else 0) (u64 d 0x48) (dM d) (dN d)
  .ok ⟨rows.map fun b => (List.range (dN d)).map (rowElem (dOut d) b),
    (List.range (dM d)).map fun m => if sc = [] then [] else (List.range nb).map fun i => u8 sc (m * nb + i), u8 d 7⟩

/-- Positions, in row-major order, of the elements that differ in a bit of their code or of their block's scale. -/
def diffAt (n : Nat) (a b : CalRes) : List Nat :=
  (List.range (a.rows.length * n)).filter fun i =>
    decide ((a.rows.getD (i / n) []).getD (i % n) 0 ≠ (b.rows.getD (i / n) []).getD (i % n) 0) ||
      decide ((a.scales.getD (i / n) []).getD (i % n / 32) 0 ≠ (b.scales.getD (i / n) []).getD (i % n / 32) 0)

/-! ## Verdicts (R381 to R384, R386) -/

/-- FENCE of a verdict: a request to the site's unit where enabled, at most 4 per 3,600 s (R384). -/
def State.fenceUnit (s : State) (c : Check) : State × Nat :=
  if 8 ≤ c.site ∨ ¬ (s.calSite c.site).fenceEn then (s, 0)
  else
    let x := s.calSite c.site
    let recent := x.fences.filter fun t => decide (s.plinth < t + secs 3600)
    if 4 ≤ recent.length then (s, 2)
    else
      let b := leBytes 1 6 ++ leBytes 1 c.site ++ leBytes 2 c.unit ++ leBytes 4 s.cal.disSeq ++ leBytes 8 c.run ++
        leBytes 8 s.pnt.count ++ zeros 8
      let s := (s.setCalSite c.site { x with fences := s.plinth :: recent }).emit (.site 384 c.site b)
      let ep := Tbl.get 0xFFFF s.ebx.siteEp c.site
      (if ep = 0xFFFF ∨ s.ebx.up = 0#2 then s
       else s.emit (.packet (s.portFor ep) { s.mkPacket 0x22 (ep * 2 ^ 52 + 0x20000000000) b with dstEp := ep }), 1)

/-- The 384-byte Disagreement record (R386). -/
def State.disRecord (s : State) (c : Check) (verdict fence : Nat) : Bytes :=
  let dg (b : Bytes) (n : Nat) : Bytes := if b = [] then zeros n else (digestBytes (Config.sha384 b)).take n
  let b := leBytes 4 0x47415344 ++ leBytes 2 1 ++ leBytes 1 verdict ++ leBytes 1 c.site ++ leBytes 4 s.cal.disSeq ++
    leBytes 1 (if c.req.isSome then 2 else 1) ++ leBytes 1 fence ++ leBytes 2 c.unit ++ leBytes 8 c.run ++
    leBytes 8 c.tileIndex ++ leBytes 8 c.jobId ++ leBytes 8 c.time ++ leBytes 8 s.pnt.count ++
    leBytes 2 (c.t1 + 16 * c.t2 + 256 * c.t3) ++ leBytes 1 (u8 c.desc 7) ++ leBytes 1 ((c.r1.getLast?.getD 0).toNat) ++
    leBytes 4 c.first ++ leBytes 4 c.count ++ zeros 4 ++ leBytes 8 c.siteVal ++ leBytes 8 c.calVal ++ zeros 8 ++
    (c.desc ++ zeros 128).take 128 ++ digestBytes c.siteDigest ++ dg c.r1 48 ++ dg c.r2 16 ++ dg c.r3 16 ++ zeros 28
  b ++ leBytes 4 (crc32c b)

/-- Caliper fences itself: every entry completes FENCED, checks end with no verdict, Gauge stops, and the reset that clears the fence runs
the self-test (R383). -/
def State.selfFence (s : State) : State :=
  ({ s with cal := { s.cal with selfFenced := true, testDue := true } }.calEvent 0xFFFF 3 0xFF 1 0).calDown

/-- A verdict on a check: its record in the ring, for its run and in the flash ring, its counters, its completion. -/
def State.verdict (s : State) (c : Check) (verdict : Nat) : State :=
  let f := if verdict = 2 then s.fenceUnit c else (s, 0)
  let s := f.1
  let r := s.disRecord c verdict f.2
  let seq := s.cal.disSeq
  let s := s.dropCheck c.id
  let s := { s with cal := { s.cal with disSeq := (seq + 1) % 2 ^ 32, ring := ((seq, r) :: s.cal.ring).take 4096 } }
  let s := if c.run = 0 then s else
    let s := s.jrnSee c.run
    s.setJrnRun { s.jrnRun c.run with dis := (s.jrnRun c.run).dis ++ [r] }
  let s := s.record 0x1C (if c.site < 8 then c.site else 0xFFFF) verdict (if c.site < 8 then some c.site else none)
    (leBytes 4 seq ++ leBytes 8 c.run ++ leBytes 8 c.tileIndex ++ leBytes 2 c.unit ++ leBytes 1 (u8 c.desc 0) ++
      leBytes 1 f.2 ++ leBytes 4 c.first)
  let op := descOp c.desc
  let s := match c.req with
    | some q => s.calDone q 0 verdict ((c.r1.getLast?.getD 0).toNat) c.first seq c.cycles
    | none =>
      if verdict = 2 then
        ((s.bumpCov c.site op 3).addTerms c.site op (descTerms c.desc) true).runCov c.run c.site fun x =>
          (x.1, x.2.1 + descTerms c.desc, x.2.2.1 + 1, x.2.2.2)
      else if verdict = 4 then s.bumpCov c.site op 4 else s
  if verdict = 3 then s.selfFence else s

def State.setCheck (s : State) (c : Check) : State :=
  { s with cal := { s.cal with checks := s.cal.checks.map fun x => if x.id = c.id then c else x } }

def State.checkOf (s : State) (id : Nat) : Option Check := s.cal.checks.find? fun c => c.id == id

/-- A check that passed. -/
def State.passCheck (s : State) (c : Check) (flags : Nat) : State :=
  let s := s.dropCheck c.id
  match c.req with
  | some q => s.calDone q 0 1 flags 0xFFFFFFFF 0xFFFFFFFF c.cycles
  | none =>
    let op := descOp c.desc
    ((s.bumpCov c.site op 2).addTerms c.site op (descTerms c.desc) true).runCov c.run c.site fun x =>
      (x.1, x.2.1 + descTerms c.desc, x.2.2.1, x.2.2.2)

/-- A job of a check cannot go on: an offer counts FETCH_FAIL or BAD, an entry completes with the status; in a recompute the
verdict is INCONCLUSIVE (R369, R382). -/
def State.checkFails (s : State) (c : Check) (code : Nat) : State :=
  if c.stage ≠ 0 then s.verdict c 4
  else if code = 0x81 ∨ code = 0x82 then
    let s := s.endCheck c 8 code
    if c.req.isSome then s else s.calSiteEvent c.site 4 1 c.run
  else
    let s := s.endCheck c 7 code
    if c.req.isSome then s else s.calSiteEvent c.site 6 1 c.run

/-- A mismatch: with three usable tiles the two recomputes queue behind those of earlier mismatches, else the verdict is INCONCLUSIVE
(R382, R385). -/
def State.mismatch (s : State) (c : Check) : State :=
  if s.usableTiles.length < 3 then s.verdict c 4
  else { s with cal := { s.cal with checks := (s.cal.checks.filter fun x => x.id != c.id) ++ [c] } }

/-- A second detected error on a tile within 60 s fences it; each restarts the job (R369). -/
def State.tileError (s : State) (t : Nat) : State :=
  let again := (Tbl.find? s.cal.tileErr t).any fun a => decide (s.plinth < a + secs 60)
  let s := { s with cal := { s.cal with tileErr := Tbl.set s.cal.tileErr t s.plinth
                                        busy := s.cal.busy.map fun j => if j.tile = t then { j with tries := 0 } else j } }
  if again && !s.cal.fencedMap.getLsbD t then
    let wait := (s.cal.busy.filter fun j => j.tile == t && j.rank == 4).map CalJob.id
    let s := ({ s with cal := { s.cal with fencedMap := setBit s.cal.fencedMap t true, gaugeWait := wait ++ s.cal.gaugeWait } } : State)
    let s := (s.tileFree t).calEvent t 2 0xFF 1 0
    -- with fewer than three usable tiles a recompute has no tile to run on (R382)
    let s := if s.usableTiles.length < 3 then (s.cal.checks.filter fun c => c.stage != 0).foldl (fun s c => s.verdict c 4) s else s
    s.calNext
  else s

/-- A job's operands did not come whole (R369): a detected error in DRAM restarts the job on its tile, or on another once that one is
fenced; a read that returned nothing is issued once more; a second failure, and every other error, fails the job. -/
def State.jobFails (s : State) (c : Check) (j : CalJob) (code : Nat) : State :=
  if code = 0x91 then s.tileError j.tile
  else if code = 0x83 ∧ j.tries = 0 then s.setTileJob { j with tries := 1 }
  else ((s.tileFree j.tile).checkFails c code).calNext

/-- The count has passed POINTING_TIME plus CAL_OFFER_RETAIN of an offer: its operands may no longer stand. The model reads them where a
computation ends (R377; log 127). -/
def State.pastRetain (s : State) (c : Check) : Bool := c.req.isNone && decide (c.time + s.cal.retain * 1000000 < s.pnt.count)

/-- A computation stopped by R377: the first ends the check as EXPIRED, a recompute as INCONCLUSIVE. -/
def State.expire (s : State) (c : Check) : State := (if c.stage = 0 then s.endCheck c 6 0x83 else s.verdict c 4).calNext

/-- r1 of a check is compared (R381): a pass, or the mismatch procedure of R382; the tile is free for the next job. -/
def State.judgeFirst (s : State) (c : Check) (j : CalJob) (fetched : Fetched) : State :=
  match s.compute fetched c.desc (wholePart c.desc) with
  | .error code => s.jobFails c j code
  | .ok r =>
    let d := c.desc
    let b := r.bytes (dOut d)
    let flagsDiffer := decide (r.flags ≠ u8 d 7)
    let c := { c with t1 := j.tile, r1 := b }
    let free := s.tileFree j.tile
    if u8 d 6 = 2 then
      if decide (Config.sha384 b = digestAt d 0x50) && !flagsDiffer then (free.passCheck c r.flags).calNext
      else (free.mismatch { c with stage := 1, siteDigest := digestAt d 0x50 }).calNext
    else match s.siteRows fetched d with
      | .error code => s.jobFails c j code
      | .ok site =>
        let l := diffAt (dN d) r site
        if l = [] ∧ ¬ flagsDiffer then (free.passCheck c r.flags).calNext
        else
          let at_ (x : CalRes) : Nat := l.head?.elim 0 fun i => (x.rows.getD (i / dN d) []).getD (i % dN d) 0 % 2 ^ 64
          (free.mismatch { c with stage := 1, siteDigest := Config.sha384 (site.bytes (dOut d)), first := l.head?.getD 0xFFFFFFFF
                                  count := l.length, siteVal := at_ site, calVal := at_ r }).calNext

/-- A block of a COMPUTE's result written at ADDR_D row by row, with the scales of an MX output at ADDR_SB (R373). Of the last FP6 block of
a row the elements beyond the row's length are not written. -/
def State.writeResult (s : State) (d : Bytes) (p : ResPart) (r : CalRes) : State :=
  let s := r.rows.zipIdx.foldl (fun (s : State) x =>
    s.give (u64 d 0x50 + (p.r0 + x.2) * u32 d 0x24 + p.c0 * fmtWidth (dOut d) / 8) (packRow (dOut d) x.1)) s
  if isMx (dOut d) then r.scales.zipIdx.foldl (fun (s : State) x =>
    s.give (u64 d 0x48 + (p.r0 + x.2) * ((dN d + 31) / 32) + p.c0 / 32) (x.1.flatMap (leBytes 1))) s
  else s

/-- Where a COMPUTE's result or its scales cannot be written, and why. -/
def State.resultBad (s : State) (d : Bytes) : Option (Nat × Nat) :=
  match s.canGive (u64 d 0x50) ((dM d - 1) * u32 d 0x24 + rowBytes (dOut d) (dN d)) with
  | some code => some (u64 d 0x50, code)
  | none => if isMx (dOut d) then (s.canGive (u64 d 0x48) (dM d * ((dN d + 31) / 32))).map fun code => (u64 d 0x48, code) else none

/-- A block of a COMPUTE is formed (R368, R370): its elements are written, and the last one completes the entry. -/
def State.blockDone (s : State) (c : Check) (j : CalJob) (fetched : Fetched) : State :=
  match s.compute fetched c.desc (blockPart c.desc j.part) with
  | .error code => s.jobFails c j code
  | .ok v => match c.req, s.resultBad c.desc with
    | some r, some (addr, code) =>
      (((s.tileFree j.tile).ownViolation r addr code).endCheck c 0 (if code = 0x84 ∨ code = 0x37 then code else 0x83)).calNext
    | some r, none =>
      let s := (s.tileFree j.tile).writeResult c.desc (blockPart c.desc j.part) v
      let c := { c with blocks := c.blocks.erase j.part, flags := c.flags ||| v.flags }
      (if c.blocks = [] then (s.dropCheck c.id).calDone r 0 0 c.flags c.written 0xFFFFFFFF c.cycles else s.setCheck c).calNext
    | none, _ => s

/-- A first job of a check or of a COMPUTE ends on the tile that ran it: r1 is computed, or a block of the result (R370, R381). -/
def execCaliperFirstComputeDone (check tile : Nat) (fetched : Fetched) (s : State) : Host.Outcome State Fault Refusal :=
  s.coreDo fun s => match s.checkOf check, s.tileRuns tile check with
    | some c, some j =>
      if c.stage ≠ 0 ∨ s.calStopped then s
      else if c.comp then s.blockDone c j fetched
      else if s.pastRetain c then s.expire c
      else s.judgeFirst c j fetched
    | _, _ => s

/-- r2 or r3 of a check; with both done the verdict is reached (R382). -/
def State.judgeRecompute (s : State) (c : Check) (j : CalJob) (fetched : Fetched) : State :=
  match s.compute fetched c.desc (wholePart c.desc) with
  | .error code => s.jobFails c j code
  | .ok r =>
    let b := r.bytes (dOut c.desc)
    let c := if j.part = 2 then { c with t2 := j.tile, r2 := b } else { c with t3 := j.tile, r3 := b }
    let s := s.tileFree j.tile
    (if c.stage = 1 then s.setCheck { c with stage := 2 }
     else s.verdict c (if c.r1 = c.r2 ∧ c.r2 = c.r3 then 2 else 3)).calNext

/-- A recompute is done on the tile that ran it. -/
def execCaliperRecomputeDone (check tile : Nat) (fetched : Fetched) (s : State) : Host.Outcome State Fault Refusal :=
  s.coreDo fun s => match s.checkOf check, s.tileRuns tile check with
    | some c, some j =>
      if c.stage = 0 ∨ s.calStopped then s
      else if s.pastRetain c then s.expire c
      else s.judgeRecompute c j fetched
    | _, _ => s

/-- A fetch without data for 1 ms is issued once more; a second failure fails the job (R369). A job that no tile runs fetches nothing. -/
def execCaliperFetchTimeout (job : CheckJob) (s : State) : Host.Outcome State Fault Refusal :=
  s.coreDo fun s => match s.checkOf job.check, s.tileRuns job.tile job.check with
    | some c, some j => s.jobFails c j 0x83
    | _, _ => s

/-- A fetch under way would end after the operands may no longer stand, or the count has passed that time (R377). -/
def execCaliperOfferRetainExpiry (check : Nat) (s : State) : Host.Outcome State Fault Refusal :=
  s.coreDo fun s => match s.checkOf check with
    | none => s
    | some c => if c.req.isNone && (s.pastRetain c || s.cal.busy.any fun j => j.rank != 4 && j.id == check) then s.expire c else s

/-! ## Offers (R376 to R380) -/

/-- The run table with a run seen now, and its seed latched (R378): an entry for an unknown run, the one with the oldest last offer leaving a full table;
the site's rate is latched at its first offer (R379). -/
def State.seeRun (s : State) (run site : Nat) : State :=
  let s := s.latchSeed run
  if run = 0 then s
  else
    let r := (s.calSite site).rate
    let upd (x : RunEnt) : RunEnt :=
      { x with lastAt := s.plinth, rates := if (Tbl.find? x.rates site).isSome then x.rates else Tbl.set x.rates site r }
    if s.cal.runs.any fun x => x.run == run then
      { s with cal := { s.cal with runs := s.cal.runs.map fun x => if x.run = run then upd x else x } }
    else
      let oldest := s.cal.runs.foldl (fun (b : Option RunEnt) x => match b with
        | none => some x
        | some y => if x.lastAt < y.lastAt then some x else some y) none
      let l := if s.cal.runs.length < 256 then s.cal.runs
        else s.cal.runs.filter fun x => decide (some x.run ≠ oldest.map RunEnt.run)
      { s with cal := { s.cal with runs := l ++ [upd { run := run, seed := s.runSeed run, lastAt := s.plinth }] } }

/-- A check is queued, and asks for the Caliper clock (R35); a free tile takes it up at once. -/
def State.addCheck (s : State) (c : Check) : State :=
  (({ s with cal := { s.cal with checks := s.cal.checks ++ [c], nextId := s.cal.nextId + 1 } } : State).askClock 2).calNext

/-- An offer of an unselected tile ends here; a selected one becomes a check, or is SKIPPED (R379, R380). -/
def State.selectOffer (s : State) (n : Nat) (rec : Bytes) : State :=
  let run := u64 rec 8
  let tile := u64 rec 0x10
  let d := slice rec 0x40 128
  let op := descOp d
  let e := s.cal.runs.find? fun x => x.run == run
  let rate : Nat := (e.bind fun x => Tbl.find? x.rates n).getD (s.calSite n).rate
  let seed := s.runSeed run
  let v : Nat := (Config.sha384 (leBytes 32 seed.toNat ++ leBytes 1 n ++ leBytes 8 tile)).toNat % 2 ^ 64
  if rate = 0 ∨ 2 ^ (64 - rate) ≤ v then s
  else
    let s := s.bumpCov n op 1
    if s.calStopped ∨ 4096 ≤ (s.cal.checks.filter fun c => c.req.isNone && c.stage == 0 && !s.forming c.id 1).length then
      (s.bumpCov n op 5).runCov run n fun x => (x.1, x.2.1, x.2.2.1, x.2.2.2 + 1)
    else if (descBad d false).isSome then
      (s.bumpCov n op 8).calSiteEvent n 4 1 run
    else
      let time := if s.pnt.valid then u64 rec 0x20 else s.pnt.count
      let c : Check := { id := s.cal.nextId, site := n, unit := u16 rec 2, run := run, tileIndex := tile
                         jobId := u64 rec 0x18, time := time, desc := d }
      s.addCheck c

/-- An audit offer that came from its site (R376). -/
def State.offer (s : State) (n : Nat) (rec : Bytes) : State :=
  let run := u64 rec 8
  let tile := u64 rec 0x10
  let d := slice rec 0x40 128
  let op := descOp d
  let x := s.calSite n
  let seq := u32 rec 4
  let gap := match x.lastSeq with
    | none => 0
    | some l => (seq + 2 ^ 32 - (l + 1)) % 2 ^ 32
  let gap := if gap < 2 ^ 31 then gap else 0
  let s := s.setCalSite n { x with lastSeq := some seq, lost := (x.lost.add gap).1 }
  let s := if 0 < gap then s.calSiteEvent n 5 gap run else s
  let s := if (x.lost.add gap).2 then s.event 10 502 n 9 else s
  let s := s.seeRun run n
  if s.cal.seen.contains (n, run, tile) then (s.bumpCov n op 8).calSiteEvent n 4 1 run
  else
    let s : State := { s with cal := { s.cal with seen := (n, run, tile) :: s.cal.seen } }
    let s := (s.bumpCov n op 0).addTerms n op (descTerms d) false
    let s := s.runCov run n fun c => (c.1 + descTerms d, c.2)
    s.selectOffer n rec

def execAuditOffer (port src : Nat) (rec : Bytes) (s : State) : Host.Outcome State Fault Refusal :=
  s.coreDo fun s => s.siteMsg (some (port, src)) rec 5 192 fun n s => s.offer n rec

/-- 60 s without an offer: the run leaves the run table (R379). -/
def execRunTableIdleExpiry (run : Nat) (s : State) : Host.Outcome State Fault Refusal :=
  s.coreDo fun s => { s with cal := { s.cal with runs := s.cal.runs.filter fun x => x.run != run } }

/-! ## CHECK and COMPUTE (R395 to R397) -/

/-- What an entry of queue 1 completes with at once, or none: reserved FLAGS bits and fields, hold-up, thermal stop, fence, no DIMMs. -/
def State.calEntryBad (s : State) (e : Bytes) (check : Bool) : Option (Nat × Nat) :=
  if 2 ≤ u16 e 2 then some (0x10, 2)
  else if u64 e 0x10 ≠ 0 then some (0x10, 0x10)
  else if u32 e 0x18 ≠ 0 then some (0x10, 0x18)
  else if u8 e 0x1C ≠ 0 then some (0x10, 0x1C)
  else if (check && !(decide (u8 e 0x1D < 8) || u8 e 0x1D == 0xFF)) || (!check && u8 e 0x1D != 0) then some (0x10, 0x1D)
  else if !zeroAt e 0x1E 34 then some (0x10, 0x1E)
  else if s.snap.holdup then some (0x41, 0)
  else if s.haz.tjState = 1 then some (0x4A, 0)
  else if s.pwr.calFenced ∨ s.cal.selfFenced ∨ ¬ s.pwr.caliper then some (0x80, 0)
  else if ¬ s.hasDram then some (0x84, 0)
  else none

/-- A descriptor could not be read: it is read once more, and a second failure completes the entry (R369, R429). -/
def State.descFails (s : State) (r : Req) (addr : Nat) : State :=
  if s.cal.again.contains r ∨ s.fetchWhy addr 128 = 0x84 then
    ({ s with cal := { s.cal with again := s.cal.again.erase r } } : State).calDone r (s.fetchCode addr 128) 0 0 0 0xFFFFFFFF 0
  else { s with cal := { s.cal with again := r :: s.cal.again } }

/-- The descriptor of an entry has been read. -/
def State.descRead (s : State) (r : Req) : State := { s with cal := { s.cal with again := s.cal.again.erase r } }

/-- CHECK: the first computation is queued on the submitted descriptor. -/
def execCheckDesc (r : Req) (e : Bytes) (fetched : Fetched) (s : State) : Host.Outcome State Fault Refusal :=
  s.coreDo fun s => s.withRight r .audit fun s => match s.calEntryBad e true with
    | some x => s.calDone r x.1 0 0 x.2 0xFFFFFFFF 0
    | none => match s.fetch fetched (u64 e 8) 128 with
      | none => s.descFails r (u64 e 8)
      | some d =>
        let s := s.descRead r
        match descBad d false with
        | some x => s.calDone r x.1 0 0 x.2 0xFFFFFFFF 0
        | none =>
          let c : Check := { id := s.cal.nextId, site := u8 e 0x1D, req := some r, desc := d, time := s.pnt.count }
          s.addCheck c

/-- COMPUTE: the descriptor's result is formed in blocks of at most 16,384 elements, one job each, and written at ADDR_D as the jobs end
(R368, R370). -/
def execComputeDesc (r : Req) (e : Bytes) (fetched : Fetched) (s : State) : Host.Outcome State Fault Refusal :=
  s.coreDo fun s => s.withRight r .audit fun s => match s.calEntryBad e false with
    | some x => s.calDone r x.1 0 0 x.2 0xFFFFFFFF 0
    | none => match s.fetch fetched (u64 e 8) 128 with
      | none => s.descFails r (u64 e 8)
      | some d =>
        let s := s.descRead r
        match descBad d true with
        | some x => s.calDone r x.1 0 0 x.2 0xFFFFFFFF 0
        | none => s.addCheck { id := s.cal.nextId, site := 0xFF, req := some r, desc := d, comp := true
                               blocks := List.range (resultBlocks d) }

/-! ## Registers of audit (R378, R379, R386, R387) -/

/-- CAL_AUDIT_RATE: 0 turns audit off, otherwise 4 to 24. -/
def execCalAuditRateWrite (r : Req) (site value : Nat) (s : State) : Host.Outcome State Fault Refusal :=
  s.coreDo fun s => s.withWriteRight r .audit 0xA0100 fun s =>
    if 8 ≤ site then s else
      let v := value % 2 ^ 32
      s.setCalSite site { s.calSite site with rate := if v = 0 then 0 else clampN 4 24 v }

def execCalAuditKeyWrite (r : Req) (key : Nat) (s : State) : Host.Outcome State Fault Refusal :=
  s.coreDo fun s => s.withWriteRight r .audit 0xA103C fun s => { s with cal := { s.cal with key := some (BitVec.ofNat 256 key) } }

def execCalCovClr (r : Req) (site : Nat) (s : State) : Host.Outcome State Fault Refusal :=
  s.coreDo fun s => s.withWriteRight r .counterClear 0xA014C fun s =>
    if 8 ≤ site then s else s.setCalSite site { s.calSite site with cov := [], lost := {} }

/-- The cursor of a path stands at the oldest record at or after a DIS_SEQ (R386 in the manner of R194). -/
def State.disAt (s : State) (seq : Nat) : Nat :=
  match s.cal.ring.reverse.find? fun x => decide ((x.1 + 2 ^ 32 - seq) % 2 ^ 32 < 2 ^ 31) with
  | some x => x.1
  | none => s.cal.disSeq

def execCalDisFromWrite (p : Path) (prin value : Nat) (s : State) : Host.Outcome State Fault Refusal :=
  s.coreDo fun s =>
    if s.may prin .read then
      { s with cal := { s.cal with disFrom := Tbl.set s.cal.disFrom p.idx (value % 2 ^ 32)
                                   disCur := Tbl.set s.cal.disCur p.idx (s.disAt (value % 2 ^ 32)) } }
    else s.refuseWrite p prin 0xA1044

/-- A read of the last word of CAL_DIS_REC advances the path's cursor. -/
def execCalDisRecAdvance (p : Path) (s : State) : Host.Outcome State Fault Refusal :=
  s.coreDo fun s =>
    let c := Tbl.get 0 s.cal.disCur p.idx
    if s.cal.ring.any fun x => x.1 == c then
      { s with cal := { s.cal with disCur := Tbl.set s.cal.disCur p.idx (s.disAt ((c + 1) % 2 ^ 32)) } }
    else s

end Sys2Proof.Machine
end

