-- ==== Sys2Proof/Machine/Caps.lean ====
section
/-!
DEFINITION. Machine/Caps.lean: the tray budget and its division, the cap guard, throttle force, SITE_VOUT, Relief and Patina
(R214 to R226, R235, R236, R239).
-/
namespace Sys2Proof.Machine

/-! ## Budget and software bounds (R214, R215) -/

/-- The budget minimum: the floors and the reserve (R214). -/
def State.budgetMin (s : State) : Int :=
  ((List.range 8).map fun n => cpFloor.val (s.capOf n)).foldl (· + ·) (cpReserve.val s.caps)

/-- TRAY_BUDGET in force (R214). -/
def State.trayBudget (s : State) : Int := s.cap.budget.getD (cpDefault.val s.caps)

/-- A value outside lo to hi takes the nearer limit; the flag is whether it was moved. -/
def clampTo (lo hi v : Int) : Int × Bool := if v < lo then (lo, true) else if hi < v then (hi, true) else (v, false)

def execTrayBudgetWrite (r : Req) (value : Int) (s : State) : Host.Outcome State Fault Refusal :=
  s.coreDo fun s => s.withWriteRight r .budget 0x51000 fun s =>
    if s.maq.live.isNone then s else
      let v := clampTo s.budgetMin (cpCeiling.val s.caps) value
      let s := { s with cap := { s.cap with budget := some v.1, clamped := s.cap.clamped || v.2 } }
      if v.2 then s.event 5 214 0 0 else s

/-- SITE_CAP_SW_FLOOR, SITE_CAP_SW_CEIL or SITE_WEIGHT (`which` 0, 1, 2) of a site (R215). -/
def execCapSwBoundWrite (r : Req) (site which : Nat) (value : Int) (s : State) : Host.Outcome State Fault Refusal :=
  s.coreDo fun s => s.withWriteRight r .sitePower (0x5010C + 4 * which) fun s =>
    if s.maq.live.isNone || 8 ≤ site || 3 ≤ which then s else
      let e := s.capOf site
      let c := s.capS site
      if which = 2 then
        let w := (value % 256).toNat
        if w = 0 then (s.setCapS site { c with weight := some 1 }).bumpSite site 0
        else s.setCapS site { c with weight := some w }
      else
        let v := clampTo (cpFloor.val e) (cpCeil.val e) value
        let s := s.setCapS site (if which = 0 then { c with swFloor := some v.1 } else { c with swCeil := some v.1 })
        if v.2 then s.bumpSite site 0 else s

/-! ## Division (R216 to R219, R239) -/

/-- What the division knows of a site. -/
structure DivSite where
  /-- Bounds above, by their code of R218. -/
  tops : List (Nat × Int)
  hi : Int
  lo : Int
  demand : Int
  d : Int
  holds : Bool
  active : Bool
  weight : Nat
  cap : Int
  deriving DecidableEq, Repr

/-- SITE_DEMAND: the site's own, or the substitute while it is stale or implausible (R208). -/
def State.siteDemand (s : State) (n : Nat) (lo : Int) : Int :=
  let c := s.capS n
  if c.telemStale || c.implausible then max lo ((s.peaks n).avg1ms * 105 / 100)
  else match c.telem with
    | some t => sle t 0x10 4
    | none => 0

/-- The bounds of a site (R216, R217, R227). -/
def State.divSite (s : State) (n : Nat) : DivSite :=
  let e := s.capEntryNow n
  let c := s.capS n
  let floor := cpFloor.val e
  let ceil := cpCeil.val e
  let tops := [(2, ceil), (3, c.swCeil.getD ceil), (4, c.pmax.elim floor fun p => (p : Int))] ++
    (if c.recovering then [(6, c.cap + ceil * cpRaise.val s.caps / 100)] else [])
  let hi := (tops.map Prod.snd).foldl min ceil
  let lo := min (max floor (c.swFloor.getD floor)) hi
  let lo := if c.still then min c.stillCap hi else lo
  let tops := if c.still ∧ c.stillCap ≤ hi then (5, lo) :: tops else tops
  let hi := if c.still then lo else hi
  let dem := s.siteDemand n lo
  let st := (s.site n).st
  let holds := st == .seqUp || st.runs
  { tops := tops, hi := hi, lo := lo, demand := dem, d := clampI lo hi dem, holds := holds, active := st.runs
    weight := c.weight.getD (cpWeight.nat e), cap := if holds then lo else 0 }

/-- One phase of the division: what remains is shared among the open sites by weight until it or their room ends (R216).
Each pass closes a site, so nine passes suffice for eight. -/
def fillCaps (target : DivSite → Int) : Nat → Int → List Nat → List DivSite → Int × List DivSite
  | 0, r, _, l => (r, l)
  | f + 1, r, open_, l =>
    if open_ = [] ∨ r = 0 then (r, l) else
      let at' (i : Nat) : DivSite := l.getD i ⟨[], 0, 0, 0, 0, false, false, 0, 0⟩
      let w : Nat := (open_.map fun i => (at' i).weight).foldl (· + ·) 0
      let share (i : Nat) : Int := r * ((at' i).weight : Int) / (w : Int)
      let room (i : Nat) : Int := target (at' i) - (at' i).cap
      let full := open_.filter fun i => decide (room i ≤ share i)
      if full ≠ [] then
        let l' := l.zipIdx.map fun x => if full.contains x.2 then { x.1 with cap := target x.1 } else x.1
        fillCaps target f (r - (full.map room).foldl (· + ·) (0 : Int)) (open_.filter fun i => !full.contains i) l'
      else
        let used := (open_.map share).foldl (· + ·) (0 : Int)
        let extra := (open_.zipIdx.filter fun x => decide ((x.2 : Int) < r - used)).map Prod.fst
        let l' := l.zipIdx.map fun x =>
          if open_.contains x.2 then { x.1 with cap := x.1.cap + share x.2 + (if extra.contains x.2 then (1 : Int) else 0) } else x.1
        (r - used - (extra.length : Int), l')

/-- Active sites with room below a target. -/
def openSites (target : DivSite → Int) (l : List DivSite) : List Nat :=
  (l.zipIdx.filter fun x => x.1.active && decide (x.1.cap < target x.1)).map Prod.snd

/-- The division of an amount among sites: the caps, and whether the lower bounds fit (R216). -/
def divide (a : Int) (l : List DivSite) : List DivSite × Bool :=
  let r := a - (l.map DivSite.cap).foldl (· + ·) 0
  if r < 0 then (l, false) else
    let p1 := fillCaps DivSite.d 9 r (openSites DivSite.d l) l
    let p2 := fillCaps DivSite.hi 9 p1.1 (openSites DivSite.hi p1.2) p1.2
    (p2.2, true)

/-- CAP_CLAMP_SRC (R218): the bound that set the cap, the lowest code where several are equal. The budget sets the cap of an active site
alone: one in SEQ_UP holds its lower bound (R216). -/
def DivSite.src (x : DivSite) : Nat :=
  if !x.holds then 8
  else if x.active && decide (x.cap < x.d) then 1
  else
    let l := (if x.demand = x.cap then [0] else []) ++
      ((x.tops.filter fun t => decide (t.2 = x.cap) && decide (x.cap = x.hi)).map Prod.fst) ++
      (if x.cap = x.lo ∧ (x.demand < x.lo ∨ ¬ x.active) then [7] else [])
    match l with
    | [] => 0
    | a :: r => r.foldl min a

/-- A cap reaches the Warden, which holds it and writes it to the site (R219). -/
def State.setCap (s : State) (n : Nat) (v : Int) : State :=
  let c := s.capS n
  if c.cap = v then s else (s.setCapS n { c with cap := v }).emit (.site 219 n (leBytes 4 (ofInt 32 (sat32 v))))

/-- The result of a division for a site (R217, R218, R239). -/
def State.divided (s : State) (n : Nat) (x : DivSite) : State :=
  let c := s.capS n
  let src := x.src
  let cut := c.still && x.holds && decide (x.cap < c.cap)
  let s := s.setCapS n { c with demand := x.demand, src := src, recovering := c.recovering && src == 6 }
  let s := if x.holds && decide (x.cap < x.d) then s.bumpSite n 1 else s
  let s := s.setCap n x.cap
  let s := if cut then s.capCut n else s
  -- a ceiling below the cap in force ends the hold of the old CAPS entry (R66)
  let c := s.capS n
  if cut && c.entry.any (fun e => decide (cpCeil.val (s.capOf n) < cpCeil.val e)) then s.setCapS n { c with entry := none } else s

/-- Every 1 ms the Armature of the Lead divides the budget (R216, R480). -/
def State.division (s : State) : State :=
  let a := min s.trayBudget (cpCeiling.val s.caps) - max s.nonsite (cpReserve.val s.caps)
  let l := (List.range 8).map s.divSite
  let r := divide a l
  let s : State :=
    if r.2 then { s with cap := { s.cap with avail := a, shortEp := false } }
    else
      let s1 := { s with cap := { s.cap with short := true, shortEp := true } }
      let s1 := if s.cap.shortEp then s1 else
        s1.capEvent 8 3 ((l.map DivSite.cap).foldl (· + ·) 0) s.nonsite 0
      (List.range 8).foldl (fun (s : State) n =>
        let c := s.capS n
        if c.still then s.setCapS n { c with stillCap := min c.stillCap (cpFloor.val (s.capEntryNow n)) } else s) s1
  let s := r.1.zipIdx.foldl (fun (s : State) x => s.divided x.2 x.1) s
  { s with pair := { s.pair with holdState := 0 } }

/-! ## Cap guard and force (R220, R221) -/

/-- One 1 ms window of a site's cap guard (R220). -/
def State.guardWindow (s : State) (n : Nat) : State :=
  let c := s.capS n
  let avg := (s.peaks n).avg1ms
  if c.cap * (1000 + cpGuardMargin.val s.caps) < avg * 1000 then
    let past := min (c.guardOver + 1) 64
    let rise := decide (cpGuardTime.nat s.caps ≤ past)
    let s := s.setCapS n { c with guardOver := past, guardUnder := 0
                                  guard := if rise then min 7 (c.guard + 1) else c.guard }
    let s := if rise && c.guard == 0 then (s.bumpSite n 2).capEvent n 1 c.cap avg 1 else s
    s.throttleNote
  else if avg ≤ c.cap then
    let under := if c.guard = 0 then 0 else c.guardUnder + 1
    let fall := decide (cpGuardRelease.nat s.caps ≤ under)
    s.setCapS n { c with guardOver := 0, guardUnder := if fall then 0 else under
                         guard := if fall then c.guard - 1 else c.guard }
  else s.setCapS n { c with guardOver := 0, guardUnder := 0 }

def execCapGuardWindow (site : Nat) (s : State) : Host.Outcome State Fault Refusal :=
  s.standbyDo fun s => if s.maq.live.isSome then s.guardWindow site else s

def execSiteThrottleForceWrite (r : Req) (site level : Nat) (s : State) : Host.Outcome State Fault Refusal :=
  s.coreDo fun s => s.withWriteRight r .sitePower 0x50120 fun s =>
    if 8 ≤ site then s else (s.setCapS site { s.capS site with force := level % 8 }).throttleNote

/-! ## SITE_VOUT (R226, R227) -/

/-- The rail entry of a voltage table: VNOM, VMIN, VMAX (R225). -/
def vtRail (t : Bytes) (rail : Nat) : Option (Nat × Nat × Nat) :=
  ((List.range (u8 t 0)).find? fun k => u8 t (0x10 + 8 * k) == rail).map fun k =>
    (u16 t (0x12 + 8 * k), u16 t (0x14 + 8 * k), u16 t (0x16 + 8 * k))

/-- SITE_VOUT: clamped to VMIN to VMAX; STATE without an entry or a table (R226, R227). -/
def execSiteVout (r : Req) (site rail code : Nat) (s : State) : Host.Outcome State Fault Refusal :=
  s.coreDo fun s => s.withWriteRight r .sitePower 0x50124 fun s =>
    match ((s.capS site).vtable.bind fun t => vtRail t rail) with
    | some (_, lo, hi) =>
      let v := clampTo lo hi code
      let s := if v.2 then s.bumpSite site 0 else s
      (s.emit (.site 226 site (leBytes 1 rail ++ leBytes 2 v.1.toNat))).complete r 0 0 0
    | none => s.complete r 0x53 0 0

/-! ## Relief (R222 to R224) -/

/-- The sites that Relief acts on from a transition on: RELIEF_SITE_MASK, and within an episode those it acts on already, whose level a
commit never lowers (R224). -/
def State.reliefMask (s : State) (first : Bool) : Nat := (if first then 0 else s.rel.mask) ||| cpMask.nat s.caps

/-- A trigger of Relief (R223): `trig` is its bit of TRIGGERS; a trigger never lowers the level. Stage 2 moves to STAGE2
from every other state. -/
def State.reliefTrigger (s : State) (trig level : Nat) : State :=
  let r := s.rel
  let first := r.st == .idle
  let st := if trig = 4 then RelSt.stage2 else match r.st with
    | .stage2 => .stage2
    | _ => .asserted
  let lv := if trig = 4 then max r.level level else if first then level else max r.level level
  let r := { r with st := st, level := lv, cond := false, mask := s.reliefMask first, trig := (if first then 0 else r.trig) ||| trig
                    maxLevel := if first then lv else max r.maxLevel lv
                    start := if first then s.plinth else r.start
                    minV := if first then s.snap.busV else r.minV, peakI := if first then s.met.busI else r.peakI }
  ({ s with rel := r } : State).throttleNote

/-- The analogue comparators' thresholds on the bus as it stands (R222): below RELIEF_WARN_V, above TRAY_I_LIMIT, stage 2, and the release
condition. -/
def State.busLow (s : State) (v : Nat) : Bool := decide (v < s.opt obRelief)
def State.busHigh (s : State) (i : Int) : Bool := decide ((s.opt obTrayI : Int) < i)
def State.busStage2 (s : State) (v : Nat) (i : Int) : Bool :=
  decide (v + cpStage2.nat s.caps < s.opt obRelief) || decide ((s.opt obTrayI : Int) * 110 < i * 100)
def State.busReleases (s : State) (v : Nat) (i : Int) : Bool :=
  decide (s.opt obRelief + cpHyst.nat s.caps ≤ v) && decide (i * 100 < (s.opt obTrayI : Int) * 95)

/-- A bus sample is kept as the calibration table corrects it (R539); a value that the row does not bring stays as it was. -/
def State.busKeep (s : State) (v : Option Nat) (i : Option Int) : State :=
  s.busSeen (v.elim s.snap.busV fun x => (s.busCorrect x 0).1) (i.elim s.met.busI fun x => (s.busCorrect 0 x).2)

/-- A voltage crossing: RELIEF_CNT_V counts each (R223). -/
def State.crossV (s : State) : State :=
  (s.bump 5 9 s.rel.cntV fun c s => { s with rel := { s.rel with cntV := c } }).reliefTrigger 1 (cpLevelV.nat s.caps)

/-- A current crossing: RELIEF_CNT_I counts each (R223). -/
def State.crossI (s : State) : State :=
  (s.bump 5 10 s.rel.cntI fun c s => { s with rel := { s.rel with cntI := c } }).reliefTrigger 2 (cpLevelI.nat s.caps)

/-- The stage-2 threshold, where it is met: RELIEF_CNT_2 counts the entry into STAGE2 (R223). -/
def State.enterStage2 (s : State) (v : Nat) (i : Int) : State :=
  if s.busStage2 v i && s.rel.st != .stage2 then
    (s.bump 5 11 s.rel.cnt2 fun c s => { s with rel := { s.rel with cnt2 := c } }).reliefTrigger 4 (cpLevel2.nat s.caps)
  else s

/-- The bus falls to a voltage. Below RELIEF_WARN_V that is the crossing; rows of R223 met at once apply in table order. -/
def execReliefVoltageCrossing (busV : Nat) (s : State) : Host.Outcome State Fault Refusal :=
  s.standbyDo fun s =>
    let s := s.busKeep (some busV) none
    (if s.busLow busV then s.crossV else s).enterStage2 busV s.met.busI

/-- The bus current rises to a value. Above TRAY_I_LIMIT that is the crossing. -/
def execReliefCurrentCrossing (busI : Int) (s : State) : Host.Outcome State Fault Refusal :=
  s.standbyDo fun s =>
    let s := s.busKeep none (some busI)
    (if s.busHigh busI then s.crossI else s).enterStage2 s.snap.busV busI

/-- The bus at values that meet the stage-2 threshold (R222, R223). -/
def execReliefStage2 (busV : Nat) (busI : Int) (s : State) : Host.Outcome State Fault Refusal :=
  s.standbyDo fun s => (s.busKeep (some busV) (some busI)).enterStage2 busV busI

/-- The release condition as the bus stands now holds or ceases (R222, R223). -/
def execReliefReleaseCondition (bus : Bus) (s : State) : Host.Outcome State Fault Refusal :=
  s.standbyDo fun s =>
    let s := s.busKeep (some bus.v) (some bus.i)
    let r := s.rel
    if r.st = .idle then s
    else if s.busReleases bus.v bus.i then
      if r.st = .releasing then { s with rel := { r with cond := true } }
      else ({ s with rel := { r with cond := true, st := .releasing, mask := s.reliefMask false } } : State).throttleNote
    else { s with rel := { r with cond := false } }

/-- Microseconds in a number of Plinth ticks. -/
def ticksToUs (t : Nat) : Nat := t * 1000000 / 32768

/-- The RELIEF record of an episode (R240). -/
def State.reliefRecord (s : State) : State :=
  let r := s.rel
  s.record 0x10 8 0 none (leBytes 1 r.maxLevel ++ leBytes 1 r.trig ++ zeros 2 ++
    leBytes 4 (min (ticksToUs (s.plinth - r.start)) 0xFFFFFFFF) ++ leBytes 2 (min r.minV 0xFFFF) ++ zeros 2 ++
    leBytes 4 (ofInt 32 (sat32 r.peakI)) ++ leBytes 1 r.mask ++ zeros 11)

def execReliefReleaseStepExpiry (s : State) : Host.Outcome State Fault Refusal :=
  s.standbyDo fun s =>
    let r := s.rel
    if r.st = .releasing && r.cond then
      if 1 < r.level then ({ s with rel := { r with level := r.level - 1, mask := s.reliefMask false } } : State).throttleNote
      else ({ s with rel := { r with level := 0, st := .idle, cond := false } } : State).reliefRecord
    else s

/-! ## Patina (R235, R236) -/

def State.patina (s : State) (n : Nat) : PatinaSet := Tbl.get {} s.pat.sets n
def State.setPatina (s : State) (n : Nat) (x : PatinaSet) : State := { s with pat := { s.pat with sets := Tbl.set s.pat.sets n x } }
def State.fan (s : State) (c : Nat) : FanCh := Tbl.get {} s.cool.fans c
def State.setFan (s : State) (c : Nat) (x : FanCh) : State := { s with cool := { s.cool with fans := Tbl.set s.cool.fans c x } }

/-- The temperature bin of R235, in the temperature encoding of 1/16 °C. -/
def tempBin (t : Int) : Nat := (([40, 55, 70, 80, 90, 100, 110] : List Int).filter fun b => decide (b * 16 ≤ t)).length

/-- The voltage bin of R235. -/
def voltBin (v nom : Int) : Nat := (([101, 103, 105] : List Int).filter fun p => decide (nom * p < v * 100)).length

def State.bumpPatina (s : State) (n k : Nat) : State :=
  s.bump 5 n (Tbl.get {} (s.patina n).cnt k) fun c s => s.setPatina n { s.patina n with cnt := Tbl.set (s.patina n).cnt k c }

/-- The thermal cycle detector: a rise of 30 °C from a minimum, then a fall of 30 °C from the maximum (R235). -/
def PatinaSet.cycle (p : PatinaSet) (t : Int) : PatinaSet × Bool :=
  if p.risen then
    let hi := max t (p.hi.getD t)
    if t ≤ hi - 480 then ({ p with risen := false, lo := some t, hi := none }, true) else ({ p with hi := some hi }, false)
  else
    let lo := min t (p.lo.getD t)
    if lo + 480 ≤ t then ({ p with risen := true, lo := some lo, hi := some t }, false) else ({ p with lo := some lo }, false)

def State.patinaTemp (s : State) (n : Nat) (t : Int) : State :=
  let s := s.bumpPatina n (tempBin t)
  let r := (s.patina n).cycle t
  let s := s.setPatina n r.1
  if r.2 then s.bumpPatina n 12 else s

/-- One second of a running site (R235). -/
def State.patinaSite (s : State) (n : Nat) : State :=
  if !(s.site n).st.runs then s else
    let s := match (s.capS n).telem with
      | some t => s.patinaTemp n (sle t 0x1A 2)
      | none => s
    let rail := cpPatinaRail.nat (s.capOf n)
    match s.chanOf (32 * n + rail) 1, ((s.capS n).vtable.bind fun t => vtRail t rail) with
    | some c, some (nom, _, _) => s.bumpPatina n (8 + voltBin (s.chan c).value nom)
    | _, _ => s

def execPatinaSecond (s : State) : Host.Outcome State Fault Refusal :=
  s.standbyDo fun s =>
    let s := (List.range 8).foldl State.patinaSite s
    let s := if s.pwr.core then s.bumpPatina 8 (tempBin s.haz.tjCore) else s
    (List.range 40).foldl (fun s c =>
      if (s.fan c).st = .running ∨ (s.fan c).st = .tachLost then
        s.bump 7 c (Tbl.get {} s.pat.run c) fun x s => { s with pat := { s.pat with run := Tbl.set s.pat.run c x } }
      else s) s

/-- The Patina records of R240. -/
def State.patinaRecords (s : State) : State :=
  let v n k := leBytes 4 (Tbl.get ({} : Cnt) (s.patina n).cnt k).val.toNat
  let s' := (List.range 9).foldl (fun (t : State) n =>
    let site := if n < 8 then some n else none
    (t.record 0x12 n 1 site ((List.range 7).flatMap (v n))).record 0x12 n 2 site
      (((List.range 6).flatMap fun i => v n (7 + i)) ++ zeros 4)) s
  (List.range 40).foldl (fun (t : State) c =>
    if (u8 (s.sec 0x08) (32 * c)).testBit 0 then
      t.record 0x12 (0x100 + c) 3 none
        (leBytes 4 (Tbl.get ({} : Cnt) s.pat.run c).val.toNat ++ leBytes 4 (Tbl.get ({} : Cnt) s.pat.starts c).val.toNat ++
          zeros 20)
    else t) s'

def execPatinaRecordWrite (s : State) : Host.Outcome State Fault Refusal := s.standbyDo State.patinaRecords

end Sys2Proof.Machine
end

