-- ==== Sys2Proof/Machine/Log.lean ====
section
/-!
DEFINITION. Machine/Log.lean: the fault record ring, its read-out, and the counter snapshots (R188 to R198, R537).
-/
namespace Sys2Proof.Machine

/-! ## The ring (R189 to R193) -/

/-- A page program on both devices ends: its bytes stand in the ring, and its records leave the queue (R190). -/
def State.pageLand (s : State) : State :=
  match s.log.page with
  | none => s
  | some p =>
    let s := if s.log.devFailed.getLsbD 0 then s else s.fwrite 0 (ringOff p.slot) p.bytes
    let s := if s.log.devFailed.getLsbD 1 then s else s.fwrite 1 (ringOff p.slot) p.bytes
    let next := (p.slot + p.bytes.length / 64) % ringSlots
    let s := { s with log := { s.log with
      page := none, queue := s.log.queue.drop p.count, slot := next
      ahead := if next / 64 = p.slot / 64 then s.log.ahead else s.log.ahead - 1 } }
    s

/-- A page program ends, and the next page may start. -/
def State.pageDone (s : State) : State := if s.log.page.isSome then s.pageLand.flushGap.startPage else s

def execLogPageProgramDone (s : State) : Host.Outcome State Fault Refusal := s.standbyDo State.pageDone

/-- A ring sector erase ahead of the write slot completes; hold-up suspends erases (R190, R200). -/
def execLogSectorEraseDone (s : State) : Host.Outcome State Fault Refusal :=
  s.standbyDo fun s =>
    if s.snap.holdup || !s.log.ready || decide (4079 ≤ s.log.ahead) then s
    else
      let sec := (s.log.slot / 64 + s.log.ahead) % 4080
      let s := (s.ferase 0 (ringOff (64 * sec)) 4096).ferase 1 (ringOff (64 * sec)) 4096
      { s with log := { s.log with ahead := s.log.ahead + 1 } }.startPage

/-- The page in flight is given up: its records stay in the queue, and SEQ, EPOCH and the mark due stand as before it (R188, R192). -/
def State.pageDrop (s : State) : State :=
  match s.log.page with
  | none => s
  | some p => { s with log := { s.log with
      page := none, seq := BitVec.ofNat 32 (u32 p.bytes 0), epoch := BitVec.ofNat 8 (u8 p.bytes 4)
      mark := if u8 p.bytes 5 = 9 then u8 p.bytes 0x1A else 0 } }

/-- A device fails to program or respond within 25 ms: the ring goes on on the other alone, ONE_DEVICE is set, one event
(R192). With both failed the page in flight never lands and records stay in the queue. -/
def execLogDeviceTimeout (dev : Nat) (s : State) : Host.Outcome State Fault Refusal :=
  s.standbyDo fun s =>
    if s.log.devFailed.getLsbD dev then s else
      let s := ({ s with log := { s.log with devFailed := setBit s.log.devFailed dev true } }).event 15 192 dev 0
      if s.log.devFailed = 3#2 then s.pageDrop else s

/-- A record's 40-bit place EPOCH:SEQ. -/
def recPlace (b : Bytes) : Nat := u8 b 4 * 2 ^ 32 + u32 b 0

/-- Record `a` precedes record `b` (R188). -/
def precedes (a b : Nat) : Bool :=
  let d := (b + 2 ^ 40 - a % 2 ^ 40) % 2 ^ 40
  decide (1 ≤ d) && decide (d ≤ 2 ^ 39)

/-- A slot's 64 bytes are empty, or hold a record whose CRC is valid (R186, R195). -/
def slotEmpty (b : Bytes) : Bool := b.all (· == erased)
def slotValid (b : Bytes) : Bool := !slotEmpty b && u32 b 0x3C == crc32c (b.take 0x3C)

/-- What a slot holds: empty, a record (with whether only flash 1 has it), or torn (R194, R195). -/
inductive SlotView where
  | empty | torn
  | held (b : Bytes) (one : Bool)
  deriving DecidableEq, Repr

def State.slotView (s : State) (slot : Nat) : SlotView :=
  let a := s.fread 0 (ringOff slot) 64
  let b := s.fread 1 (ringOff slot) 64
  if slotValid a then .held a false else if slotValid b then .held b true
  else if slotEmpty a && slotEmpty b then .empty else .torn

/-- The newest record of the ring and its slot. -/
def State.newest (s : State) : Option (Nat × Nat) :=
  (List.range ringSlots).foldl (fun best k => match s.slotView k with
    | .held b _ => match best with
      | none => some (k, recPlace b)
      | some (j, p) => if precedes p (recPlace b) then some (k, recPlace b) else some (j, p)
    | _ => best) none

/-- A flash range has no programmed byte. -/
def State.isErased (s : State) (dev off n : Nat) : Bool := (s.flash dev).all fun c => c.1 < off || off + n ≤ c.1

/-- The write slot behind the newest record: the rest of a page that a power loss cut short is passed over, up to the sector's end. -/
def State.clearSlot (s : State) (slot : Nat) : Nat → Nat
  | 0 => slot
  | f + 1 => if slot % 64 = 0 ∨ s.slotView slot = .empty then slot else s.clearSlot ((slot + 1) % ringSlots) f

/-- Sectors erased from a sector on, up to a bound. -/
def State.countAhead (s : State) (sec : Nat) : Nat → Nat
  | 0 => 0
  | f + 1 =>
    let o := ringOff (64 * (sec % 4080))
    if s.isErased 0 o 4096 && s.isErased 1 o 4096 then s.countAhead (sec + 1) f + 1 else 0

/-! ## Snapshot banks (R189, R196, R198, R537) -/

def bankOff (b : Nat) : Nat := 0x05000000 + 0x8000 * b

/-- A bank of a device holds a valid snapshot (R198): its trailer's CRC holds and TABLE_CRC matches. -/
def State.bankValid (s : State) (dev b : Nat) : Bool :=
  let t := s.fread dev (bankOff b + 0x4600) 64
  slotValid t && u8 t 5 == 0x06 &&
    u32 t 0x28 == crc32c (s.fread dev (bankOff b) 17920 ++ s.fread dev (bankOff b + 0x4640) 128)

/-- GENERATION of a bank's trailer. -/
def State.bankGen (s : State) (dev b : Nat) : Nat := u32 (s.fread dev (bankOff b + 0x4600) 64) 0x20

/-- EPOCH of a bank's trailer. -/
def State.bankEpoch (s : State) (dev b : Nat) : Nat := u8 (s.fread dev (bankOff b + 0x4600) 64) 4

/-- The valid bank of higher GENERATION, flash 0 when the devices agree (R198). -/
def State.bestBank (s : State) : Option (Nat × Nat) :=
  [(0, 0), (0, 1), (1, 0), (1, 1)].foldl (fun best x =>
    if s.bankValid x.1 x.2 then match best with
      | none => some x
      | some y => if s.bankGen y.1 y.2 < s.bankGen x.1 x.2 then some x else some y
    else best) none

/-- Sectors erased ahead as R190 counts them: the write slot's own, where records stand before it, and those after it. -/
def State.aheadOf (s : State) (slot : Nat) : Nat :=
  if slot % 64 = 0 then s.countAhead (slot / 64) 17 else 1 + s.countAhead (slot / 64 + 1) 16

/-- At power-on the Plinth finds the write slot and LOG_SEQ, or starts the ring anew (R193). -/
def execLogRingRecoveryDone (s : State) : Host.Outcome State Fault Refusal :=
  s.standbyDo fun s =>
    if s.log.ready then s else
      let s := match s.newest with
        | some (k, p) =>
          let slot := s.clearSlot ((k + 1) % ringSlots) 64
          { s with log := { s.log with slot := slot, ahead := s.aheadOf slot, ready := true
                                       seq := BitVec.ofNat 32 (p + 1)
                                       epoch := BitVec.ofNat 8 ((p + 1) / 2 ^ 32)
                                       mark := if (p + 1) % 2 ^ 32 = 0 then 1 else 0 } }
        | none =>
          let s := (s.ferase 0 (ringOff 0) 16711680).ferase 1 (ringOff 0) 16711680
          let ep := match s.bestBank with
            | some b => s.bankEpoch b.1 b.2 + 1
            | none => 0
          { s with log := { s.log with slot := 0, ahead := 4079, ready := true, seq := 0, epoch := BitVec.ofNat 8 ep
                                       mark := 2 } }
      s.startPage

/-! ## Read-out (R194, R195) -/

/-- The path's cursor moves past torn slots, counting each in LOG_TORN; a record that only flash 1 holds counts in
LOG_ONE_COPY. -/
def State.skipTorn (s : State) (p : Nat) : Nat → State
  | 0 => s
  | f + 1 =>
    let k := Tbl.get 0 s.log.cursor p
    match s.slotView k with
    | .torn =>
      let s := s.bump 15 3 (Tbl.get {} s.log.torn p) fun c s =>
        { s with log := { s.log with torn := Tbl.set s.log.torn p c } }
      { s with log := { s.log with cursor := Tbl.set s.log.cursor p ((k + 1) % ringSlots) } }.skipTorn p f
    | .held _ true => s.bump 15 2 s.log.oneCopy fun c s => { s with log := { s.log with oneCopy := c } }
    | _ => s

/-- LOG_READ_FROM (R194): the cursor stands at the first record that does not precede the value; LOG_TORN returns to 0;
an entry in flight on the path is invalidated (R522). -/
def State.logReadFrom (s : State) (p : Path) (value : Nat) : State :=
  let v := value % 2 ^ 40
  let order := (List.range ringSlots).map fun i => (s.log.slot + i) % ringSlots
  let at? := order.find? fun k => match s.slotView k with
    | .held b _ => !precedes (recPlace b) v
    | _ => false
  let a : PathBlock := Tbl.get {} s.acc (16 * p.idx + 15)
  let s := { s with log := { s.log with readFrom := Tbl.set s.log.readFrom p.idx v
                                        torn := Tbl.set s.log.torn p.idx {}
                                        cursor := Tbl.set s.log.cursor p.idx (at?.getD s.log.slot) }
                    acc := Tbl.set s.acc (16 * p.idx + 15) { a with snap := none } }
  s.skipTorn p.idx ringSlots

def execLogReadFromWrite (p : Path) (prin value : Nat) (s : State) : Host.Outcome State Fault Refusal :=
  s.coreDo fun s => if s.may prin .read then s.logReadFrom p value else s.refuseWrite p prin 0xF1040

/-- A read of word 15 of LOG_READ_REC advances the cursor to the next record; at an empty slot it stays (R194, R195). -/
def State.logAdvance (s : State) (p : Nat) : State :=
  let k := Tbl.get 0 s.log.cursor p
  match s.slotView k with
  | .empty => s
  | _ => { s with log := { s.log with cursor := Tbl.set s.log.cursor p ((k + 1) % ringSlots) } }.skipTorn p ringSlots

def execLogReadAdvance (p : Path) (s : State) : Host.Outcome State Fault Refusal :=
  s.coreDo fun s => s.logAdvance p.idx

/-! ## Counter snapshots (R185, R196, R197, R537) -/

/-- The 280 records of a snapshot (R196). -/
def State.snapRecords (s : State) (j : SnapJob) : Bytes :=
  (List.range 280).flatMap fun g =>
    let c : RailCnt := Tbl.get {} j.table g
    (s.mkRec 0x05 g 0 (siteOf g) ((List.range 7).flatMap fun i =>
      leBytes 4 (Tbl.get ({} : Cnt) c.cnt i).val.toNat)).encode j.seq j.epoch

/-- The bus is below UV_RESET_V + 0.5 V in a hold-up: no page program starts (R202). -/
def State.belowFloor (s : State) : Bool := s.snap.holdup && decide (s.snap.busV < s.opt obUvReset + 50)

/-- A bank can take a snapshot: every byte of it is erased on both devices, and no erase of it is due. -/
def State.bankFree (s : State) (b : Nat) : Bool :=
  s.isErased 0 (bankOff b) 0x8000 && s.isErased 1 (bankOff b) 0x8000 && !s.snap.erasing.getLsbD b &&
    !s.snap.mend.getLsbD b && !s.snap.mend.getLsbD (2 + b)

/-- A snapshot is asked for, with a trailer kind (1 periodic, 2 hold-up, 3 shutdown). One being written serves the
request; with no bank erased it is skipped and SNAP_SKIPPED is set (R197). Its 70 record pages stand as it begins, its last page at
SNAPSHOT_TRAILER_WRITTEN (DESIGN CHOICE, log 88: the model has no command between them); one cut short before leaves a bank that is
neither valid nor erased (R537). DESIGN CHOICE, log 108: dirty bits that it cleared as it began do not come back where it is cut short,
and the bus floor is judged before the banks. -/
def State.snapshot (s : State) (kind : Nat) : State :=
  match s.snap.job with
  | some _ => s
  | none =>
    if s.belowFloor then s
    else match [0, 1].find? s.bankFree with
    | none => { s with log := { s.log with snapSkipped := true } }
    | some b =>
      let job : SnapJob := ⟨kind, b, s.rcnt.rails, s.rcnt.owners, s.log.seq, s.log.epoch⟩
      let s := s.fwriteBoth (bankOff b) (s.snapRecords job)
      { s with snap := { s.snap with job := some job }
               rcnt := { s.rcnt with rails := s.rcnt.rails.map fun e => (e.1, { e.2 with dirty := false }) } }

/-- Some counter changed since the last snapshot began (R197). -/
def State.dirty (s : State) : Bool := s.rcnt.rails.any fun e => e.2.dirty

/-- Every 60 s while a counter is dirty a snapshot is asked for (R197). -/
def execSnapshotPeriodicTimer (s : State) : Host.Outcome State Fault Refusal :=
  s.standbyDo fun s => if s.dirty then s.snapshot 1 else s

/-- The owner block (R196). -/
def ownerBlock (owners : Tbl Nat) : Bytes := (List.range 8).flatMap fun n => leBytes 16 (Tbl.get 0 owners n)

/-- The trailer and owner block are written and read back valid: the bank stands on both devices, and the other bank's
erase starts, or is held while hold-up is active (R196, R197). Below the floor of R202 the page does not start: the snapshot ends without
a trailer, and the other bank stands. -/
def State.snapDone (s : State) : State :=
  match s.snap.job with
  | none => s
  | some j =>
    if s.belowFloor then { s with snap := { s.snap with job := none } } else
    let recs := s.fread 0 (bankOff j.bank) 17920
    let own := ownerBlock j.owners
    let other := 1 - j.bank
    let gen := (if s.bankValid 0 other then s.bankGen 0 other else if s.bankValid 1 other then s.bankGen 1 other else 0) + 1
    let trailer := (s.mkRec 0x06 0xFFFF j.kind none (leBytes 4 gen ++ leBytes 2 280 ++ zeros 2 ++
      leBytes 4 (crc32c (recs ++ own)) ++ leBytes 2 s.snap.busV)).encode j.seq j.epoch
    let s := s.fwriteBoth (bankOff j.bank + 0x4600) (trailer ++ own)
    { s with snap := { s.snap with job := none
                                   erasing := if s.snap.holdup then s.snap.erasing else setBit s.snap.erasing other true
                                   held := if s.snap.holdup then setBit s.snap.held other true else s.snap.held } }

/-- A bank's erase completes, on both devices after a newer snapshot (R197), else on each device where the bank was neither valid nor
erased (R537); hold-up suspends it (R200). -/
def execSnapshotBankEraseDone (bank : Nat) (s : State) : Host.Outcome State Fault Refusal :=
  s.standbyDo fun s =>
    if s.snap.holdup then s
    else
      let due (dev : Nat) : Bool := s.snap.erasing.getLsbD bank || s.snap.mend.getLsbD (2 * dev + bank)
      let t := if due 0 then s.ferase 0 (bankOff bank) 0x8000 else s
      let t := if due 1 then t.ferase 1 (bankOff bank) 0x8000 else t
      { t with snap := { s.snap with erasing := setBit s.snap.erasing bank false
                                     mend := setBit (setBit s.snap.mend bank false) (2 + bank) false } }

/-- A bank neither valid nor erased is erased on each device where it is in that state, but never the one that a restore took, nor one
that is being written (R537). -/
def State.eraseBadBanks (s : State) (keep : Option Nat) : State :=
  [(0, 0), (0, 1), (1, 0), (1, 1)].foldl (fun (s : State) (x : Nat × Nat) =>
    if !s.bankValid x.1 x.2 && !s.isErased x.1 (bankOff x.2) 0x8000 && keep != some x.2 && (s.snap.job.map SnapJob.bank) != some x.2 then
      { s with snap := { s.snap with mend := setBit s.snap.mend (2 * x.1 + x.2) true } } else s) s

/-- The erase that R197 owes once a newer snapshot is valid is begun again where a reset kept it from ending: with both banks valid, the
one of lower GENERATION is erased (DEDUCED, log 89). -/
def State.eraseOld (s : State) : State :=
  let gen b := if s.bankValid 0 b then some (s.bankGen 0 b) else if s.bankValid 1 b then some (s.bankGen 1 b) else none
  match gen 0, gen 1 with
  | some a, some b => { s with snap := { s.snap with erasing := setBit s.snap.erasing (if a < b then 0 else 1) true } }
  | _, _ => s

/-- The counters of a bank (R196). No bank holds RAIL_CNT_SAT: it is clear after a restore (DESIGN CHOICE, log 109). -/
def State.bankTable (s : State) (dev b : Nat) : Tbl RailCnt × Tbl Nat :=
  ((List.range 280).map fun g =>
      let r := s.fread dev (bankOff b + 64 * g) 64
      (g, { cnt := (List.range 7).map fun i => (i, { val := BitVec.ofNat 32 (u32 r (0x20 + 4 * i)), sat := false })
            dirty := false }),
   (List.range 8).map fun n => (n, le (s.fread dev (bankOff b + 0x4640 + 16 * n) 16) 0 16))

/-- Start step 4 restores the counters: from retention RAM, else from the newer valid bank, else as zero with
COUNTERS_RESET and one event; then bad banks are erased (R185, R537). -/
def State.restoreCounters (s : State) : State :=
  if s.rcnt.stands then (s.eraseBadBanks none).eraseOld
  else match s.bestBank with
    | some (dev, b) =>
      let t := s.bankTable dev b
      { s with rcnt := { rails := t.1, stands := true, owners := t.2 } }.eraseBadBanks (some b) |>.eraseOld
    | none =>
      let s := { s with rcnt := { stands := true }, log := { s.log with countersReset := true } }
      (s.event 15 185 0 0).eraseBadBanks none

end Sys2Proof.Machine
end

