-- ==== Sys2Proof/Machine/Hazard.lean ====
section
/-!
DEFINITION. Machine/Hazard.lean: leak sensors, zones and reactions, ground shaking and Brace, and the valves that a reaction
moves (R290, R303 to R318).
-/
namespace Sys2Proof.Machine

/-! ## Sections (R294, R307, R310) -/

def hzNote : Fld := ⟨0x00, 2, 10, 1000, some 50, false⟩
def hzBrace : Fld := ⟨0x02, 2, 10, 2000, some 150, false⟩
def hzHold : Fld := ⟨0x04, 2, 10, 3600, some 120, false⟩
def hzMargin : Fld := ⟨0x06, 2, 1, 320, some 48, false⟩
def hzScan : Fld := ⟨0x08, 2, 50, 1000, some 250, false⟩
def hzThrottle : Fld := ⟨0x0A, 1, 1, 7, some 7, false⟩
def hazardFlds : List Fld := [hzNote, hzBrace, hzHold, hzMargin, hzScan, hzThrottle]
/-- REACTION of a zone. -/
def hzReaction (z : Nat) : Fld := ⟨0x20 + 4 * z, 1, 1, 3, some 1, false⟩

def State.hazSec (s : State) : Bytes := s.sec 0x0B

/-- The section whose Brace settings are in force: while Brace holds, the one that it began under (R66, R67). -/
def State.braceSec (s : State) : Bytes := if s.haz.brace then s.haz.braceSec else s.hazSec

/-- The LEAK_MAP entry of a sensor: ropes 0-15, point sensors 16-47. -/
def leakEntry (sec : Bytes) (n : Nat) : Bytes := if n < 16 then slice sec (16 * n) 16 else slice sec (0x100 + 8 * (n - 16)) 8
def lkUsed (e : Bytes) : Bool := (u8 e 0).testBit 0
def lkZone (e : Bytes) : Nat := u8 e 1
def lkQualify : Fld := ⟨0x02, 1, 1, 15, some 3, false⟩

/-- The ZONES entry of a zone (R294). -/
def zoneEntry (sec : Bytes) (z : Nat) : Bytes := slice sec (64 * z) 64
def State.zoneOf (s : State) (z : Nat) : Bytes := zoneEntry (s.sec 0x06) z
def znUsed (e : Bytes) : Bool := (u8 e 0).testBit 0
def znSites (e : Bytes) : Nat := u8 e 2
def znFans (e : Bytes) : Nat := u32 e 4
def znPumps (e : Bytes) : Nat := u8 e 8

/-- COOLING_TOPOLOGY entries (R270, R271). -/
def fanEntry (sec : Bytes) (c : Nat) : Bytes := slice sec (32 * c) 32
def valveEntry (sec : Bytes) (v : Nat) : Bytes := slice sec (0x500 + 16 * v) 16
def meterEntry (sec : Bytes) (m : Nat) : Bytes := slice sec (0x600 + 16 * m) 16
def pressEntry (sec : Bytes) (p : Nat) : Bytes := slice sec (0x700 + 16 * p) 16
def State.topo (s : State) : Bytes := s.sec 0x08
def entryUsed (e : Bytes) : Bool := (u8 e 0).testBit 0

def State.czone (s : State) (z : Nat) : Zone := Tbl.get {} s.cool.zones z
def State.setCzone (s : State) (z : Nat) (x : Zone) : State := { s with cool := { s.cool with zones := Tbl.set s.cool.zones z x } }
def State.valve (s : State) (v : Nat) : Valve := Tbl.get {} s.cool.valves v
def State.setValve (s : State) (v : Nat) (x : Valve) : State := { s with cool := { s.cool with valves := Tbl.set s.cool.valves v x } }
def State.leak (s : State) (n : Nat) : LeakSensor := Tbl.get {} s.haz.sensors n
def State.setLeak (s : State) (n : Nat) (x : LeakSensor) : State := { s with haz := { s.haz with sensors := Tbl.set s.haz.sensors n x } }
def State.lzone (s : State) (z : Nat) : LeakZone := Tbl.get {} s.haz.zones z
def State.setLzone (s : State) (z : Nat) (x : LeakZone) : State := { s with haz := { s.haz with zones := Tbl.set s.haz.zones z x } }

/-! ## Valves (R290) -/

/-- The position in force: open or closed. -/
def State.valvePos (s : State) (v : Nat) : Bool :=
  let x := s.valve v
  if x.held then false else match x.cmd with
    | 1 => true
    | 2 => false
    | _ => (u8 (valveEntry s.topo v) 0).testBit 1

/-- A COOLANT_EVENT record (R302). -/
def State.coolantEvent (s : State) (src kind value limit mask : Nat) : State :=
  s.record 0x16 src kind none (leBytes 4 value ++ leBytes 4 limit ++ leBytes 2 mask ++ zeros 18)

/-- VALVE_DRIVE is asserted: this controller drives the tray, and the position in force differs from DEFAULT_POS (R290, R301). -/
def State.valveDrive (s : State) (v : Nat) : Bool :=
  s.pair.outputs && (s.valvePos v != (u8 (valveEntry s.topo v) 0).testBit 1)

/-- VALVE_POS stands at the position in force: a move is confirmed, and a fault ends with one record (R290). -/
def State.confirmValve (s : State) (v : Nat) (x : Valve) : State :=
  let s1 := s.setValve v { x with moving := false, confirmed := true, strayed := false, fault := false }
  if x.fault then s1.coolantEvent (0x140 + v) 4 (bitAt x.pos 0) 0 (u16 (valveEntry s.topo v) 2) else s1

/-- A change of a valve's command or hold: a move begins when the position in force changes, and VALVE_DRIVE follows (R290). -/
def State.moveValve (s : State) (v : Nat) (x : Valve) : State :=
  let was := s.valvePos v
  let drive := s.valveDrive v
  let s := s.setValve v x
  let now := s.valvePos v
  if was = now then s else
    let s := if x.pos = now then s.confirmValve v x
      else s.setValve v { x with moving := true, confirmed := false, strayed := false }
    if s.valveDrive v = drive then s else s.emit (.line 290 (2 * v + bitAt (s.valveDrive v) 0))

/-! ## Leak zones (R308 to R313) -/

/-- A LEAK_EVENT record (R321). -/
def State.leakEvent (s : State) (src kind : Nat) (x : LeakSensor) (z react ev mask : Nat) : State :=
  s.record 0x17 src kind none (leBytes 4 x.senseR ++ leBytes 4 x.loopR ++ leBytes 1 z ++ leBytes 1 react ++ leBytes 1 ev ++
    zeros 1 ++ leBytes 1 mask ++ zeros 15)

/-- SOURCE of a sensor's records. -/
def leakSource (n : Nat) : Nat := if n < 16 then 0x170 + n else 0x180 + (n - 16)

/-- The USED sensors that watch a zone. -/
def State.zoneSensors (s : State) (z : Nat) : List Nat :=
  (List.range 48).filter fun n => lkUsed (leakEntry (s.sec 0x0A) n) && lkZone (leakEntry (s.sec 0x0A) n) == z

/-- The class in force, the start-up BLIND among them (R305). -/
def LeakSensor.shows (x : LeakSensor) (c : Nat) : Bool := x.cls == c

/-- EVIDENCE that a sensor that is not dry meets in its zone: bit 0 a second sensor, bit 1 flow, bit 2 pressure (R308). Two sensors of
which no class has qualified yet are no evidence for each other (DEDUCED, log 20). -/
def State.evidence (s : State) (z n : Nat) : Nat :=
  bitAt ((s.zoneSensors z).any fun m => m != n && ((s.leak m).read || (s.leak n).read) && (s.leak m).cls != 0) 0 +
    bitAt (s.czone z).flowLoss 1 + bitAt (s.czone z).pressLoss 2

/-- A sensor counts as wet (R308). -/
def State.countsWet (s : State) (z n : Nat) : Bool :=
  (s.leak n).shows 2 || (((s.leak n).shows 1 || (s.leak n).shows 3) && s.evidence z n != 0)

/-- The leak state of a zone from its sensors: 0 DRY, 1 ALERT, 2 WET (R309). -/
def State.leakState (s : State) (z : Nat) : Nat :=
  let l := s.zoneSensors z
  if l.any (s.countsWet z) then 2 else if l.any (fun n => (s.leak n).cls != 0) then 1 else 0

/-- A pump all of whose zones lie under Isolate or Tray stop, or any pump under a Tray stop (R311). -/
def State.pumpStopped (s : State) (p : Nat) : Bool :=
  let zs := (List.range 16).filter fun z => znUsed (s.zoneOf z) && (znPumps (s.zoneOf z)).testBit p
  (!zs.isEmpty && zs.all fun z => (s.lzone z).latched) ||
    (List.range 16).any fun z => (s.lzone z).latched && (s.lzone z).react == 3

/-! ## Forced full (R280) -/

def znSlot (e : Bytes) (k : Nat) : Nat := u16 e (0x14 + 2 * k)

/-- A fan or pump that is USED. -/
def State.fanUsed (s : State) (c : Nat) : Bool := entryUsed (fanEntry s.topo c)

/-- The USED zones a fan or pump belongs to. -/
def State.zonesOf (s : State) (c : Nat) : List Nat :=
  (List.range 16).filter fun z => znUsed (s.zoneOf z) &&
    (if c < 32 then (znFans (s.zoneOf z)).testBit c else (znPumps (s.zoneOf z)).testBit (c - 32))

/-- A leak reaction, or a stopped junction, forces a channel full (R280, R311, R320). -/
def State.hazardFull (s : State) (c : Nat) : Bool :=
  decide (c < 32) && ((List.range 16).any (fun z => (s.lzone z).latched && (s.lzone z).fans.testBit c) ||
    (decide (s.haz.tjState = 1) && (s.zonesOf c).any fun z => (List.range 8).any fun k => znSlot (s.zoneOf z) k == 0x120))

/-- The source that forces a channel full, the lowest code of several; a pump stopped by a reaction has none (R280, R311). -/
def State.forcedBy (s : State) (c : Nat) : Option Nat :=
  if 32 ≤ c && s.pumpStopped (c - 32) then none
  else if (s.zonesOf c).any fun z => (s.czone z).guard then some 4
  else if s.cool.tripped then some 5
  else if s.cool.hold then some 6
  else if s.hazardFull c then some 8
  else none

/-! ## Drive (R268, R274, R275) -/

/-- Supply switching (R270). -/
def State.supplySw (s : State) (c : Nat) : Bool := decide (c < 32) && (u8 (fanEntry s.topo c) 0).testBit 1

def fnSwFreq : Fld := ⟨0x02, 1, 20, 160, some 30, false⟩

/-- On-time of each cycle [ns]: FAN_DUTY x the cycle length; at 0xFFFF the supply stays on (R275). -/
def State.cycleOn (s : State) (c duty : Nat) : Nat :=
  let cycle := 1000000000 / fnSwFreq.nat (fanEntry s.topo c)
  if duty = 0xFFFF then cycle else duty * cycle / 65536

/-- Steps of a PWM period: 160 at 25 kHz of a four-wire fan, 4,000 at 1 kHz of a pump (R274). -/
def pwmSteps (c : Nat) : Nat := if c < 32 then 160 else 4000

/-- Steps of the period for which the PWM output stands on: FAN_DUTY rounded down to a step, 0xFFFF the whole period (R274). -/
def pwmOn (c duty : Nat) : Nat := if duty = 0xFFFF then pwmSteps c else duty * pwmSteps c / 65536

/-- A duty with the RC oscillator stopped: the waveform is static, off at 0 and at 100 % else (R268). -/
def State.rcHold (s : State) (duty : Nat) : Nat := if s.pwr.rcOsc || duty == 0 then duty else 0xFFFF

/-- What the channel's output gives: PWM steps on in each period, or the supply's on-time in each cycle [ns]. -/
def State.fanDrive (s : State) (c : Nat) : Nat :=
  let d := s.rcHold (s.fan c).duty
  if s.supplySw c then s.cycleOn c d else pwmOn c d

/-- What a change of the cooling does, with the outputs of the USED channels after it, where the controller drives the tray (R274, R301;
log 55). -/
def State.withDrive (s : State) (f : State → State) : State :=
  let t := f s
  if !t.pair.outputs then t
  else (List.range 40).foldl (fun (u : State) c =>
    if !t.fanUsed c || (s.pair.outputs && s.fanDrive c == t.fanDrive c) then u else u.emit (.line 274 (2 ^ 32 * c + t.fanDrive c))) t

/-- A channel starts (R282). -/
def FanCh.start (x : FanCh) (attempt : Nat) : FanCh :=
  { x with st := .starting, attempt := attempt, duty := 0xFFFF, good := 0, absent := 0, seen := 0 }

/-- On taking drive every channel starts, but for a pump that a reaction stops (R301, R311). -/
def State.startAll (s : State) : State :=
  s.withDrive fun s => (List.range 40).foldl (fun (s : State) c =>
    if !s.fanUsed c || (decide (32 ≤ c) && s.pumpStopped (c - 32)) then s else s.setFan c ((s.fan c).start 1)) s

/-- What a source that begins does at once and without slew (R280, R311): while the controller drives the tray, each USED
channel that is forced goes to full duty, an OFF one starting, and a pump that a reaction stops has the effective target 0.
STALLED and SEIZED ignore it (R283). -/
def State.forceNow (s : State) : State :=
  if s.maq.live.isSome && s.pair.outputs then s.withDrive fun s =>
    (List.range 40).foldl (fun (s : State) c =>
      let x := s.fan c
      if !s.fanUsed c then s
      else if 32 ≤ c && s.pumpStopped (c - 32) then
        s.setFan c (if x.st = .running ∨ x.st = .tachLost then { x with eff := 0, st := .off, duty := 0 } else { x with eff := 0 })
      else match s.forcedBy c with
        | none => s
        | some k =>
          let x := { x with src := k, forced := true }
          match x.st with
          | .off => s.setFan c (x.start 1)
          | .running | .tachLost => s.setFan c { x with duty := 0xFFFF, integ := 65535 }
          | _ => s.setFan c x) s
  else s

/-- A site is ordered down as by DOWN (R165, R311). -/
def State.hazardDown (s : State) (n : Nat) : State :=
  match (s.site n).st with
  | .seqUp | .running | .degraded => (s.siteDownSeq n false).settle (32 * n)
  | .retryWait => s.siteTo n .off
  | .seqDown => s.setSite n { s.site n with failedUp := false }
  | _ => s

/-- A zone's reaction starts: 1 Warn, 2 Isolate, 3 Tray stop (R311). -/
def State.react (s : State) (z r ev : Nat) : State :=
  let e := s.zoneOf z
  if r = 1 then
    ((s.setLzone z { s.lzone z with react := 1 }).event 8 311 z 1).leakEvent z 6 {} z 1 ev (znSites e)
  else
    let all := r == 3
    let sites := if all then 0xFF else znSites e
    let vs := (List.range 16).filter fun v =>
      entryUsed (valveEntry s.topo v) && (all || (u16 (valveEntry s.topo v) 2).testBit z)
    let level := hzThrottle.nat s.hazSec
    let s := s.setLzone z { s.lzone z with react := r, latched := true, sites := sites, valves := maskOf vs
                                           fans := if all then 0xFFFFFFFF else znFans e
                                           pumps := if all then 0xFF else znPumps e, level := level }
    let s := (bitsOf 8 sites).foldl (fun (s : State) n =>
      match (s.site n).st with
      | .off | .faulted | .absent => s
      | _ => s.setCapS n { s.capS n with leakLevel := max (s.capS n).leakLevel level }) s
    let s := s.throttleNote
    let s := vs.foldl (fun (s : State) v => s.moveValve v { s.valve v with held := true }) s
    let s := (bitsOf 8 sites).foldl State.hazardDown s
    let s := s.forceNow
    s.leakEvent z (if all then 8 else 7) {} z r ev sites

/-- EVIDENCE of a zone: what the sensors meet that count as wet without being WET (R308, R321). -/
def State.zoneEvidence (s : State) (z : Nat) : Nat :=
  (((s.zoneSensors z).filter fun n => s.countsWet z n && !(s.leak n).shows 2).map (s.evidence z)).foldl (· ||| ·) 0

/-- A zone is judged again (R309 to R312): entry into WET starts its reaction, a Warn ends when the zone is DRY. -/
def State.leakJudge (s : State) (z : Nat) : State :=
  let x := s.lzone z
  let st := s.leakState z
  let s := s.setLzone z { x with st := st, react := if st = 0 && !x.latched then 0 else x.react }
  if st = 2 ∧ x.st ≠ 2 then
    let by_ := (s.zoneSensors z).filter fun n => s.countsWet z n && !(s.leak n).shows 2
    let ev := s.zoneEvidence z
    let own := hzReaction z |>.nat s.hazSec
    let r := if s.haz.brace then max own 2 else own
    let s := match by_ with
      | n :: _ => s.leakEvent (leakSource n) 5 (s.leak n) z r (s.evidence z n) (znSites (s.zoneOf z))
      | [] => s
    if x.latched && decide (r ≤ x.react) then s else s.react z r ev
  else s

/-- Every zone judged again, after a change of the coolant evidence (R293, R308). -/
def State.leakJudgeAll (s : State) : State := (List.range 16).foldl State.leakJudge s

/-- A reading of a sensor: a new class takes QUALIFY readings in a row (R305); an entry into BLIND or DAMP raises one event
and each new class writes one record (R308). A BLIND that qualifies on a sensor that started as BLIND is no new class. -/
def State.leakRead (s : State) (n cls : Nat) : State :=
  let e := leakEntry (s.sec 0x0A) n
  if !lkUsed e then s else
    let x := s.leak n
    let k := if x.cand = cls then min (x.candN + 1) 16 else 1
    let full := decide (lkQualify.nat e ≤ k)
    let new := full && x.cls != cls
    let first := full && !x.read
    let x := { x with cand := cls, candN := k, cls := if new then cls else x.cls, read := x.read || full }
    let s := s.setLeak n x
    if new then
      let s := if cls = 2 then s.bump 8 n x.cntWet fun c s => s.setLeak n { s.leak n with cntWet := c } else s
      let s := if cls = 3 then s.bump 8 n x.cntBlind fun c s => s.setLeak n { s.leak n with cntBlind := c } else s
      let s := if cls = 1 ∨ cls = 3 then s.event 8 308 n cls else s
      let kind := if cls = 2 then 1 else if cls = 1 then 2 else if cls = 3 then 3 else 4
      (s.leakEvent (leakSource n) kind (s.leak n) (lkZone e) 0 0 0).leakJudge (lkZone e)
    else if first then s.leakJudge (lkZone e)
    else s

/-- The class of a rope reading, judged in the order of R303. -/
def ropeClass (sense loop : Nat) : Nat :=
  if sense < 100000 then 2 else if 500 ≤ loop then 3 else if 1000000 < sense then 0 else 1

/-- Ohms as reported: up to 10 MΩ, higher as 0xFFFF_FFFF (R303). -/
def ohms (r : Nat) : Nat := if r ≤ 10000000 then r else 0xFFFFFFFF

def execLeakRopeReading (rope senseR loopR : Nat) (s : State) : Host.Outcome State Fault Refusal :=
  s.standbyDo fun s =>
    if s.maq.live.isNone || 16 ≤ rope then s else
      (s.setLeak rope { s.leak rope with senseR := ohms senseR, loopR := ohms loopR }).leakRead rope (ropeClass senseR loopR)

/-- The class of a point sensor's outputs (R304). -/
def pointClass (a b : Bool) : Nat := if a && !b then 0 else if !a && b then 2 else 3

def execLeakPointSample (sensor : Nat) (a b : Bool) (s : State) : Host.Outcome State Fault Refusal :=
  s.standbyDo fun s => if s.maq.live.isNone || 32 ≤ sensor then s else s.leakRead (16 + sensor) (pointClass a b)

/-- LEAK_CLEAR (R312): only for a latched zone that is DRY; valves that no other reaction holds return to VALVE_CMD. -/
def State.leakClear (s : State) (z : Nat) : State :=
  let x := s.lzone z
  if x.latched && x.st == 0 then
    let s := s.setLzone z { st := 0 }
    let other := ((List.range 16).map fun y => if (s.lzone y).latched then (s.lzone y).valves else 0).foldl (· ||| ·) 0
    let s := (bitsOf 16 x.valves).foldl (fun (s : State) v =>
      if other.testBit v then s else s.moveValve v { s.valve v with held := false }) s
    s.leakEvent z 9 {} z x.react 0 x.sites
  else s.event 8 312 z 0

def execLeakClear (r : Req) (zone : Nat) (s : State) : Host.Outcome State Fault Refusal :=
  s.coreDo fun s => s.withWriteRight r .hazard 0x80104 fun s => if zone < 16 then s.leakClear zone else s

/-! ## Ground shaking (R314 to R318) -/

/-- The whole part of a square root, bit by bit from the top. -/
def isqrtFrom (n : Nat) : Nat → Nat → Nat
  | 0, r => r
  | b + 1, r => let t := r + 2 ^ b
                isqrtFrom n b (if t * t ≤ n then t else r)
def isqrt (n : Nat) : Nat := isqrtFrom n 16 0

/-- A SHAKE_EVENT record (R321); `t0` is the beginning of the episode. -/
def State.shakeEvent (s : State) (kind t0 : Nat) : State :=
  let a k := leBytes 2 (ofInt 16 (sat16 (Tbl.get 0 s.haz.axes k)))
  s.record 0x18 8 kind none (leBytes 2 s.haz.pga ++ leBytes 2 s.haz.peak ++ a 0 ++ a 1 ++ a 2 ++ zeros 2 ++
    leBytes 4 ((s.plinth - t0) * 1000 / 32768) ++ zeros 12)

/-- Brace begins (R316, R317): the log is programmed, a snapshot and a journal flush descriptor are begun, and zones in Warn
widen to Isolate (R313). -/
def State.braceBegin (s : State) (req : Bool) : State :=
  if s.haz.brace then
    { s with haz := { s.haz with causeReq := s.haz.causeReq || req, causeAcc := s.haz.causeAcc || !req } }
  else
    let s := { s with haz := { s.haz with brace := true, causeReq := req, causeAcc := !req, braceAt := s.plinth
                                          braceSec := s.hazSec } }
    let s := s.bump 8 61 s.haz.cntBrace fun c s => { s with haz := { s.haz with cntBrace := c } }
    let s := s.shakeEvent (if req then 4 else 2) s.plinth
    let s := (s.snapshot 1).startPage
    let s := if s.snap.holdup then s else { s with snap := { s.snap with flushing := true } }
    (List.range 16).foldl (fun (s : State) z =>
      if (s.lzone z).react = 1 then s.react z 2 (s.zoneEvidence z) else s) s

/-- Coefficients of the filters at 800 Hz (R314), times 2^30: 2 pi 0.2 / 800 of the high-pass, and (2 pi 20 / 800) squared and the damping
of the low-pass. R314 gives the corners alone, so each is a free value within 1 % of its corner's, and the damping any from 0 to 1
(log 117). -/
def accelHigh : Int := clampI 1669763 1703496 (Config.accelCoef 0)
def accelLow : Int := clampI 26228582 26758453 (Config.accelCoef 1)
def accelDamp : Int := clampI 0 1073741824 (Config.accelCoef 2)

/-- One sample through the filters, ±2 g at 16 bits (R314): the first-order high-pass follows the mean and takes it away, and the
second-order low-pass follows what is left. -/
def AccelAxis.next (a : AccelAxis) (raw : Int) : AccelAxis :=
  let x := raw * 4000
  let mean := a.mean + roundDiv (accelHigh * (x - a.mean)) (2 ^ 30)
  let rate := a.rate + roundDiv (accelLow * (x - mean - a.value) - accelDamp * a.rate) (2 ^ 30)
  { mean := mean, rate := rate, value := a.value + rate }

/-- One filtered axis: a reading at the range limit counts as 2,000 mg (R314). The first sample after reset is its mean (log 117). -/
def State.axis (s : State) (k : Nat) (raw : Int) : State :=
  let f := (Tbl.get { mean := raw * 4000 } s.haz.filt k : AccelAxis).next raw
  let v : Int := if 32767 ≤ raw then 2000 else if raw ≤ -32768 then -2000 else roundDiv f.value 65536
  { s with haz := { s.haz with filt := Tbl.set s.haz.filt k f, axes := Tbl.set s.haz.axes k v } }

/-- SHAKE_PGA judged against NOTE_MG and BRACE_MG: a crossing counts after 4 samples in a row, and
the record of a Note is written once per episode (R314 to R316). -/
def State.shakeJudge (s : State) : State :=
  let note := hzNote.nat s.hazSec
  let h := s.haz
  let n := if note < h.pga then min (h.overNote + 1) 5 else 0
  let b := if hzBrace.nat s.hazSec < h.pga then min (h.overBrace + 1) 5 else 0
  let quiet := if h.pga < note then some (h.quietAt.getD s.plinth) else none
  let still := if h.pga < hzNote.nat s.braceSec then some (h.braceQuiet.getD s.plinth) else none
  let s := { s with haz := { h with overNote := n, overBrace := b, quietAt := quiet, braceQuiet := still } }
  let s := if n = 4 then
      let s := s.bump 8 60 s.haz.cntNote fun c s => { s with haz := { s.haz with cntNote := c } }
      let s := s.event 8 315 0 h.pga
      if h.note then s
      else ({ s with haz := { s.haz with note := true, noteAt := s.plinth } } : State).shakeEvent 1 s.plinth
    else s
  if b = 4 ∧ ¬ h.shakeFault then s.braceBegin false else s

def execAccelSample (x y z : Int) (s : State) : Host.Outcome State Fault Refusal :=
  s.standbyDo fun s =>
    let s := ((s.axis 0 x).axis 1 y).axis 2 z
    let a k : Int := Tbl.get 0 s.haz.axes k
    let p := isqrt (a 0 * a 0 + a 1 * a 1 + a 2 * a 2).toNat
    ({ s with haz := { s.haz with pga := p, peak := max s.haz.peak p } } : State).shakeJudge

/-- 10 s below NOTE_MG: the Note episode ends (R315). -/
def execShakeNoteEpisodeEnd (s : State) : Host.Outcome State Fault Refusal :=
  s.standbyDo fun s => if s.haz.quietAt.isSome then { s with haz := { s.haz with note := false } } else s

def execBraceRequest (r : Req) (s : State) : Host.Outcome State Fault Refusal :=
  s.coreDo fun s => s.withWriteRight r .hazard 0x81010 fun s =>
    ({ s with haz := { s.haz with lastReq := some s.plinth } } : State).braceBegin true

def execShakePeakClr (r : Req) (s : State) : Host.Outcome State Fault Refusal :=
  s.coreDo fun s => s.withWriteRight r .counterClear 0x81008 fun s => { s with haz := { s.haz with peak := 0 } }

/-- The accelerometer is in fault (R318). -/
def State.shakeFail (s : State) : State :=
  if s.haz.shakeFault then s else ({ s with haz := { s.haz with shakeFault := true } } : State).shakeEvent 5 s.plinth

def State.accelTest (s : State) (ok : Bool) : State :=
  if ok then { s with haz := { s.haz with shakeFault := false } } else s.shakeFail

def execAccelSelfTest (ok : Bool) (s : State) : Host.Outcome State Fault Refusal := s.standbyDo fun s => s.accelTest ok

def execAccelNoAnswer (s : State) : Host.Outcome State Fault Refusal := s.standbyDo State.shakeFail

end Sys2Proof.Machine
end

