-- ==== Sys2Proof/Machine/Cooling.lean ====
section
/-!
DEFINITION. Machine/Cooling.lean: fans, pumps, valves, flow, pressure and thermal zones (R268 to R302).
-/
namespace Sys2Proof.Machine

/-! ## Sections (R277, R294) -/

def clWdt : Fld := ⟨0x00, 1, 1, 60, some 5, false⟩
/-- The control entry of a fan or pump. -/
def State.ctl (s : State) (c : Nat) : Bytes := slice (s.sec 0x09) (0x40 + 64 * c) 64
def ctMin (e : Bytes) : Nat := u16 e 0
def ctMax (e : Bytes) : Nat := u16 e 2
def ctKp : Fld := ⟨0x04, 1, 1, 15, some 6, false⟩
def ctKi : Fld := ⟨0x05, 1, 1, 15, some 9, false⟩
def ctDutyMin (e : Bytes) : Nat := u16 e 6
def ctUp : Fld := ⟨0x08, 2, 10, 65535, some 1000, false⟩
def ctDown : Fld := ⟨0x0A, 2, 10, 65535, some 500, false⟩
def fnPulses : Fld := ⟨0x01, 1, 1, 4, some 2, false⟩
def vlTravel : Fld := ⟨0x04, 2, 1, 120, some 10, false⟩
def mtLoss : Fld := ⟨0x0A, 2, 1, 60, some 5, false⟩
def znExcl : Fld := ⟨0x01, 1, 1, 50, some 5, false⟩
def znLo : Fld := ⟨0x0C, 2, -32768, 32767, some (-320), true⟩
def znHi : Fld := ⟨0x0E, 2, -32768, 32767, some 2400, true⟩
def znRate : Fld := ⟨0x10, 2, 1, 1600, some 32, false⟩
def znBand (k : Nat) : Fld := ⟨0x24 + 2 * k, 2, 8, 800, some 80, false⟩
def lmLimit (e : Bytes) : Int := sle e 0 2
def lmMargin : Fld := ⟨0x02, 2, 16, 800, some 80, false⟩
def lmColdDp (e : Bytes) : Nat := u32 e 4
def lmColdDt : Fld := ⟨0x08, 2, 8, 800, some 32, false⟩
def lmColdWin : Fld := ⟨0x0A, 2, 10, 600, some 60, false⟩
/-- The ZONE_LIMITS entry of a zone. -/
def State.limits (s : State) (z : Nat) : Bytes := slice (s.sec 0x07) (32 * z) 32

/-- A FAN_EVENT record (R302). -/
def State.fanEvent (s : State) (c kind : Nat) : State :=
  let x := s.fan c
  let e := fanEntry s.topo c
  let cur := if (u8 e 0).testBit 2 then ofInt 16 (clampI 0 65535 (s.chan (u16 e 4)).value) else 0
  s.record 0x14 (0x100 + c) kind none (leBytes 2 x.speed ++ leBytes 2 x.eff ++ leBytes 2 x.duty ++ leBytes 1 x.attempt ++
    leBytes 1 (match x.st with | .off => 0 | .starting => 1 | .running => 2 | .stalled => 3 | .seized => 4 | .tachLost => 5) ++
    leBytes 2 cur ++ zeros 18)

/-- A FAN_EVENT record of kind WATCHDOG or HOLD_FULL, SOURCE 0xFFFF (R302). -/
def State.fanEventAll (s : State) (kind : Nat) : State := s.record 0x14 0xFFFF kind none (zeros 28)

def State.bumpFan (s : State) (c k : Nat) : State :=
  s.bump 7 c (Tbl.get {} (s.fan c).cnts k) fun x s => s.setFan c { s.fan c with cnts := Tbl.set (s.fan c).cnts k x }

/-! ## Zones (R296 to R300) -/

/-- A ZONE_EVENT record (R302). -/
def State.zoneEvent (s : State) (z kind slot : Nat) (value rise : Int) : State :=
  let x := s.czone z
  s.record 0x15 z kind none (leBytes 2 (ofInt 16 (sat16 x.temp)) ++ leBytes 1 slot ++ zeros 1 ++ leBytes 2 (ofInt 16 (sat16 value)) ++
    leBytes 2 (ofInt 16 (sat16 (x.median.getD (-32768)))) ++
    leBytes 1 (maskOf ((List.range 8).filter fun k => (Tbl.get ({} : Member) x.members k).valid)) ++ zeros 1 ++
    leBytes 4 (ofInt 32 (sat32 rise)) ++ zeros 14)

/-- The sample of a member reference; none while its channel or telemetry gives none (R295, R296). -/
def State.memberSample (s : State) (ref : Nat) : Option Int :=
  if ref < 0x100 then
    match chanIn s.surveyMap ref 3 with
    | some c => if (s.chan c).stale then none else some (s.chan c).value
    | none => none
  else if ref = 0x120 then some s.haz.tjCore
  else
    let n := if ref < 0x108 then ref - 0x100 else ref - 0x108
    let c := s.capS n
    if !(s.site n).st.runs || c.telemStale then none
    else c.telem.map fun t => sle t (if ref < 0x108 then 0x1A else 0x3A) 2

/-- The median: the middle one, the higher of the two middle ones of an even count (R296). -/
def medianOf (l : List Int) : Option Int :=
  let r := sortBy (fun a b => decide (a ≤ b)) l
  r[l.length / 2]?

/-- One member sampled at a tick, before the departure from the median is judged: the member, and whether the sample was
rate-rejected, and the value that went out of range now (R296, R297). -/
def memberTick (e : Bytes) (m : Member) (v : Option Int) : Member × Bool × Option Int :=
  match v with
  | none => ({ m with valid := false, cnt := 0, readmit := 0, prev := none, rated := false }, false, none)
  | some v =>
    if v < znLo.val e ∨ znHi.val e < v then
      ({ m with valid := false, cnt := 0, readmit := 0, prev := some v, outRange := true, rated := false }, false,
        if m.outRange then none else some v)
    else
      let rate := m.prev.any fun p => decide (znRate.val e < (v - p).natAbs)
      let m := { m with prev := some v, outRange := false, valid := !m.excl && !rate, rated := rate }
      ({ m with cnt := if rate then min (m.cnt + 1) 63 else if m.excl then 0 else m.cnt }, rate, none)

/-- The valid samples of a zone. -/
def Zone.validVals (x : Zone) : List Int :=
  (List.range 8).filterMap fun k =>
    let m : Member := Tbl.get {} x.members k
    if m.valid then m.prev else none

/-- ZONE_TEMP, DEGRADED, guard and OVER_LIMIT from the members as judged (R299, R300). -/
def State.zoneJudge (s : State) (z : Nat) : State :=
  let x := s.czone z
  let l := s.limits z
  let vals := x.validVals
  let deg := decide (vals.length < 2)
  let med := medianOf vals
  let temp := if deg || x.coldLie then lmLimit l else med.getD 0
  let level := lmLimit l - lmMargin.val l - (if s.haz.brace then hzMargin.val s.braceSec else 0)
  let guard := decide (level ≤ temp)
  let past := decide (lmLimit l ≤ temp)
  let s := s.setCzone z { x with median := med, temp := temp, degraded := deg, guard := x.guard || guard
                                 overLimit := x.overLimit || past, overEp := past }
  let s := if deg && !x.degraded then s.zoneEvent z 5 0xFF 0 0 else s
  let s := if guard && !x.guard then (s.zoneEvent z 6 0xFF 0 0).forceNow else s
  if past && !x.overEp then s.zoneEvent z 7 0xFF 0 0 else s

/-- A zone's members are sampled and voted (R296, R297). -/
def State.zoneTick (s : State) (z : Nat) : State :=
  let e := s.zoneOf z
  if !znUsed e then s else
    let x := s.czone z
    let ks := (List.range 8).filter fun k => znSlot e k != 0xFFFF
    let r := ks.map fun k => (k, memberTick e (Tbl.get {} x.members k) (s.memberSample (znSlot e k)))
    let mems := r.foldl (fun (t : Tbl Member) a => Tbl.set t a.1 a.2.1) x.members
    let med := medianOf ({ x with members := mems } : Zone).validVals
    let mems := r.foldl (fun (t : Tbl Member) a =>
      let m := a.2.1
      let band := (znBand a.1).val e
      let dev : Int := match m.prev, med with
        | some v, some d => (v - d).natAbs
        | _, _ => 0
      let m := if m.valid then { m with cnt := if band < dev then min (m.cnt + 1) 63 else 0 } else m
      let near := m.excl && !m.outRange && m.prev.isSome && med.isSome && decide (dev * 2 ≤ band)
      let m := { m with readmit := if near then min (m.readmit + 1) 600 else 0 }
      Tbl.set t a.1 m) mems
    let s := s.setCzone z { x with members := mems }
    let s := r.foldl (fun (s : State) a => match a.2.2.2 with
      | some v => s.zoneEvent z 3 a.1 v 0
      | none => s) s
    s.zoneJudge z

/-- A member is excluded; a third exclusion within 3,600 s holds it until ZONE_CLEAR (R297). -/
def execZoneSensorExclusion (zone slot : Nat) (s : State) : Host.Outcome State Fault Refusal :=
  s.standbyDo fun s =>
    let x := s.czone zone
    let m : Member := Tbl.get {} x.members slot
    if m.excl || decide (m.cnt < znExcl.nat (s.zoneOf zone)) then s else
      let recent := m.times.filter fun t => decide (s.plinth < t + secs 3600)
      let m := { m with excl := true, valid := false, cnt := 0, readmit := 0, times := (s.plinth :: recent).take 2
                        held := m.held || decide (2 ≤ recent.length) }
      let s := s.setCzone zone { x with members := Tbl.set x.members slot m }
      (s.zoneJudge zone).zoneEvent zone 1 slot (m.prev.getD 0) 0

/-- 600 samples within half the band of the median: the member is readmitted, unless it is held. An exclusion count that reaches
EXCL_COUNT on the same tick keeps it excluded, and a rate-rejected last sample leaves it invalid (R296, R297). -/
def execZoneSensorReadmission (zone slot : Nat) (s : State) : Host.Outcome State Fault Refusal :=
  s.standbyDo fun s =>
    let x := s.czone zone
    let m : Member := Tbl.get {} x.members slot
    if m.excl && !m.held && m.readmit == 600 then
      if znExcl.nat (s.zoneOf zone) ≤ m.cnt then
        s.setCzone zone { x with members := Tbl.set x.members slot { m with readmit := 0, cnt := 0 } }
      else
      let m := { m with excl := false, valid := !m.rated, readmit := 0, cnt := 0 }
      let s := s.setCzone zone { x with members := Tbl.set x.members slot m }
      (s.zoneJudge zone).zoneEvent zone 2 slot (m.prev.getD 0) 0
    else s

/-- The power sum of a zone: PWR_AVG_1S over SITE_MASK (R298). -/
def State.zonePower (s : State) (z : Nat) : Int :=
  ((bitsOf 8 (znSites (s.zoneOf z))).map fun n => (s.peaks n).avg1s).foldl (· + ·) 0

/-- The entry of least power in a history, the newest of several. -/
def leastPower : List (Int × Option Int) → Option (Int × Option Int)
  | [] => none
  | a :: r => match leastPower r with
    | none => some a
    | some b => if b.1 < a.1 then some b else some a

/-- The 1 s cold-lie check of a zone (R298). -/
def execZoneColdLieCheck (zone : Nat) (s : State) : Host.Outcome State Fault Refusal :=
  s.standbyDo fun s =>
    let e := s.zoneOf zone
    let l := s.limits zone
    if !znUsed e || lmColdDp l == 0 then s else
      let x := s.czone zone
      let p := s.zonePower zone
      let hist := x.cold.take (lmColdWin.nat l)
      let rise : Int × Option Bool := match leastPower hist with
        | some (p0, some m0) => (p - p0, if (lmColdDp l : Int) ≤ p - p0 then
            x.median.map fun m => decide (m - m0 < lmColdDt.val l) else none)
        | some (p0, none) => (p - p0, none)
        | none => (0, none)
      let lie := match rise.2 with
        | some b => b
        | none => x.coldLie
      let s := s.setCzone zone { x with cold := ((p, x.median) :: x.cold).take (lmColdWin.nat l), coldLie := lie }
      let s := if lie && !x.coldLie then s.zoneEvent zone 4 0xFF 0 rise.1 else s
      s.zoneJudge zone

/-- ZONE_TEMP has stayed below T_LIMIT - 2 x GUARD_MARGIN for 10 s (R300). -/
def execZoneGuardExitTimer (zone : Nat) (s : State) : Host.Outcome State Fault Refusal :=
  s.standbyDo fun s =>
    let x := s.czone zone
    let l := s.limits zone
    if x.temp < lmLimit l - 2 * lmMargin.val l then s.setCzone zone { x with guard := false } else s

/-- ZONE_CLEAR: held exclusions are released and COLD_LIE ends (R297, R298). -/
def execZoneClear (r : Req) (zone : Nat) (s : State) : Host.Outcome State Fault Refusal :=
  s.coreDo fun s => s.withWriteRight r .cooling 0x70114 fun s =>
    if 16 ≤ zone then s else
      let x := s.czone zone
      s.setCzone zone { x with coldLie := false, members := x.members.map fun m =>
        (m.1, { m.2 with held := false, times := [] }) }

/-! ## Targets (R278 to R280, R287) -/

/-- curve(z, T) x MAX_RPM div 1000, linear between neighbouring points (R278). -/
def curveRpm (pts : List (Int × Int)) (t maxRpm : Int) : Int :=
  match pts with
  | [] => 0
  | [(_, p)] => p * maxRpm / 1000
  | (t0, p0) :: (t1, p1) :: r =>
    if t ≤ t0 then p0 * maxRpm / 1000
    else if t < t1 then (p0 * (t1 - t0) + (p1 - p0) * (t - t0)) * maxRpm / (1000 * (t1 - t0))
    else curveRpm ((t1, p1) :: r) t maxRpm

/-- The points of a zone's curve (R277). -/
def State.curvePts (s : State) (z : Nat) : List (Int × Int) :=
  let b := slice (s.sec 0x09) (0xA40 + 64 * z) 32
  (List.range 8).map fun k => (sle b (4 * k) 2, (u16 b (4 * k + 2) : Int))

/-- The USED members of a zone of the kind of `c`. -/
def State.zoneMates (s : State) (c z : Nat) : List Nat :=
  (List.range 40).filter fun d => s.fanUsed d && (decide (d < 32) == decide (c < 32)) &&
    (if d < 32 then (znFans (s.zoneOf z)).testBit d else (znPumps (s.zoneOf z)).testBit (d - 32))

def FanSt.failed (x : FanSt) : Bool := x == .stalled || x == .seized

/-- n(c) and f(c): of the zone with the most failed members; of several such the one with the fewest (R287; DESIGN CHOICE, log 29). -/
def State.compTerms (s : State) (c : Nat) : Nat × Nat :=
  ((s.zonesOf c).map fun z =>
    let m := s.zoneMates c z
    (m.length, (m.filter fun d => (s.fan d).st.failed).length)).foldl (fun b x =>
      if b.1 = 0 ∨ b.2 < x.2 ∨ (b.2 = x.2 ∧ x.1 < b.1) then x else b) (0, 0)

/-- The skip bands of a control entry (R277). -/
def skipBands (e : Bytes) : List (Nat × Nat) :=
  ((List.range 4).map fun b => (u16 e (0x10 + 4 * b), u16 e (0x12 + 4 * b))).filter fun x => x != (0, 0)

/-- The target before the slew, and its source (R278, R287). -/
def State.fanGoal (s : State) (c : Nat) : Nat × Nat :=
  let e := s.ctl c
  let t0 := (s.fan c).target
  let cv := ((s.zonesOf c).map fun z => (curveRpm (s.curvePts z) (s.czone z).temp (ctMax e)).toNat).foldl max 0
  let r := if t0 < cv then (cv, 1) else (t0, 0)
  let k := s.compTerms c
  let r := if 0 < k.1 ∧ k.1 ≤ k.2 + 1 then (ctMax e, 7)
    else if 0 < k.2 then
      let t := min (r.1 * k.1 / (k.1 - k.2)) (ctMax e)
      if t = r.1 then r else (t, 7)
    else r
  let r := if 0 < r.1 ∧ r.1 < ctMin e then (ctMin e, 2) else r
  match (skipBands e).find? fun b => decide (b.1 ≤ r.1) && decide (r.1 ≤ b.2) with
  | some b => (b.2, 3)
  | none => r

/-- The slew of one tick; a rise that would stop within a skip band goes past it (R278, R279). -/
def slewTo (e : Bytes) (from_ goal : Nat) : Nat :=
  if from_ < goal then
    let t := min goal (from_ + ctUp.nat e * 3277 / 32768)
    match (skipBands e).find? fun b => decide (b.1 ≤ t) && decide (t ≤ b.2) with
    | some b => b.2
    | none => t
  else max goal (from_ - ctDown.nat e * 3277 / 32768)

/-! ## The speed loop and the state table (R276, R281 to R285) -/

/-- M(b) of the learned map (R285). -/
def State.mapAt (s : State) (c b : Nat) : Int :=
  (Tbl.find? (s.fan c).map b).getD ((ctMax (s.ctl c) * (2 * b + 1) / 16 : Nat) : Int)

/-- The open-loop bin for a target: the lowest whose M(b) reaches it (R285). -/
def State.openBin (s : State) (c t : Nat) : Option Nat := (List.range 8).find? fun b => decide ((t : Int) ≤ s.mapAt c b)

/-- The open-loop duty (R285). -/
def State.openDuty (s : State) (c t : Nat) : Nat := match s.openBin c t with
  | some b => b * 8192 + 8191
  | none => 0xFFFF

/-- FAN_SPEED in open loop: M(b) of the bin used (R285). -/
def State.openSpeed (s : State) (c t : Nat) : Nat := (s.mapAt c ((s.openBin c t).getD 7)).toNat

/-- The speed of a period from its edges and crystal periods; none while the tach is absent (R276). -/
def tachSpeed (pulses edges t : Nat) : Option Nat :=
  if edges < 2 ∨ t = 0 then none else some (60 * 32768 * (edges - 1) / (pulses * t))

/-- The measurement of a period: channel, tach edges, crystal periods from the first edge to the last, or between the two edges of a
stretch, and the time from a stretch's settle to its second edge [us]. -/
abbrev Tach := Nat × Nat × Nat × Nat

/-- The supply of a supply-switching fan runs in cycles: its duty lies below 0xFFFF (R275, R276). -/
def State.switches (s : State) (c : Nat) : Bool := s.supplySw c && decide ((s.fan c).duty < 0xFFFF)

/-- The stretched on-phase of a period [us]: 5 ms to settle, then until the second edge, 90 ms at most (R275). -/
def stretchOf (t : Option Tach) : Nat := 5000 + match t with
  | some (_, ed, _, second) => if ed < 2 then 90000 else min second 90000
  | none => 90000

/-- What is left to the other on-phases of the period, down to none, so that the period's on-time is FAN_DUTY x 100 ms, the whole
of it at 0xFFFF (R275). -/
def restOf (duty stretch : Nat) : Nat := (if duty = 0xFFFF then 100000 else duty * 100000 / 65536) - stretch

/-- The speed of a channel's period (R276): of a fan whose supply switches, from the two edges of the stretch, which end it. -/
def State.periodSpeed (s : State) (c : Nat) (t : Option Tach) : Option Nat :=
  let pulses := fnPulses.nat (fanEntry s.topo c)
  match t with
  | none => none
  | some (_, ed, d, second) =>
    if s.switches c then (if 90000 < second then none else tachSpeed pulses (min ed 2) d) else tachSpeed pulses ed d

/-- The period's drive of a supply-switching fan as it ends (R275): with no on-phase at duty 0 there is no stretch. -/
def State.driven (s : State) (c : Nat) (x : FanCh) (t : Option Tach) : FanCh :=
  if !s.supplySw c then x
  else
    let st := if x.duty = 0xFFFF ∨ x.duty = 0 then 0 else stretchOf t
    { x with onNs := s.cycleOn c x.duty, stretchUs := st, restUs := restOf x.duty st }

/-- The duty held in STALLED and SEIZED (R283). -/
def State.stallDuty (s : State) (c : Nat) : Nat := if s.supplySw c then 0 else 0xFFFF

/-- A running or tach-lost channel is judged stopped, or by its current (R282). 0 stopped, 1 above CURR_MAX, 2 within. -/
def State.fanCurrent (s : State) (c : Nat) : Nat :=
  let e := fanEntry s.topo c
  let ch := s.chan (u16 e 4)
  if !(u8 e 0).testBit 2 || ch.stale then 0
  else if ch.value < (u16 e 6 : Nat) then 0
  else if (u16 e 8 : Nat) < ch.value then 1 else 2

/-- The speed measurement of a tick of a controller that does not drive the tray (R276, R301). -/
def State.speedTick (s : State) (tach : List Tach) (c : Nat) : State :=
  if !s.fanUsed c then s
  else s.setFan c { s.fan c with speed := ((s.periodSpeed c (tach.find? fun a => a.1 == c)).map (min · 65535)).getD 0 }

/-- The normalised error of the speed loop (R281). Where the product leaves 32 bits the rule states no result: a free value (log 93). -/
def State.speedError (s : State) (eff speed max : Nat) : State × Int :=
  let p : Int := ((eff : Int) - speed) * 65536
  if -2147483648 ≤ p ∧ p < 2147483648 then (s, Int.tdiv p (max : Int))
  else ({ s with fresh := s.fresh + 1 }, (BitVec.ofNat 32 (Config.freeVal s.fresh)).toInt)

/-- One channel's tick: its speed is measured, its effective target formed, and its state and duty follow. A period without a tach value
leaves FAN_SPEED as last measured, and the loop and the map go on from it (R281, R285). -/
def State.fanTick (s : State) (tach : List Tach) (c : Nat) : State :=
  if !s.fanUsed c then s else
    let e := s.ctl c
    let t := tach.find? fun a => a.1 == c
    let x := s.driven c (s.fan c) t
    let speed := s.periodSpeed c t
    let forced := s.forcedBy c
    let stop := decide (32 ≤ c) && s.pumpStopped (c - 32)
    let goal := if stop then (0, 0) else s.fanGoal c
    let base := if x.forced && forced.isNone then x.speed else x.eff
    let eff := if stop then 0 else slewTo e base goal.1
    let x := { x with eff := eff, src := forced.getD goal.2, forced := forced.isSome
                      speed := match speed with
                        | some v => min v 65535
                        | none => if x.st = .running ∨ x.st = .tachLost then x.speed else 0
                      good := match speed with
                        | some v => if ctMin e ≤ v then x.good + 1 else 0
                        | none => 0
                      absent := if speed.isSome then 0 else x.absent + 1
                      seen := if speed.isSome then x.seen + 1 else 0 }
    let want := decide (0 < eff) || forced.isSome
    let s := s.setFan c x
    match x.st with
    | .off => if want then s.setFan c (x.start 1) else s.setFan c { x with duty := 0 }
    | .starting =>
      if 2 ≤ x.good then
        let x := { x with st := .running, integ := if forced.isSome then 65535 else (s.openDuty c eff : Nat) }
        (s.setFan c x).bump 7 c (Tbl.get {} s.pat.starts c) fun n s => { s with pat := { s.pat with starts := Tbl.set s.pat.starts c n } }
      else s
    | .running =>
      if !want then s.setFan c { x with st := .off, duty := 0 }
      else if 2 ≤ x.absent then
        match s.fanCurrent c with
        | 2 => ((s.setFan c { x with st := .tachLost, seen := 0, speed := s.openSpeed c eff
                                     duty := s.rcHold (if forced.isSome then 0xFFFF else s.openDuty c eff) }).bumpFan c 2).fanEvent c 3
        | k => ((s.setFan c { x with st := .stalled, attempt := 1, duty := s.stallDuty c }).bumpFan c 0).fanEvent c
            (if k = 1 then 1 else 4)
      else
        let b := x.duty / 8192
        let m := s.mapAt c b
        let x := { x with map := Tbl.set x.map b (m + ((x.speed : Int) - m) / 16) }
        if forced.isSome then s.setFan c { x with duty := 0xFFFF, integ := 65535 }
        else if !s.pwr.rcOsc then s.setFan c { x with duty := s.rcHold x.duty }
        else
          let r := s.speedError eff x.speed (ctMax e)
          let s := r.1
          let err := r.2
          let i := clampI 0 65535 (x.integ + err / ((2 ^ ctKi.nat e : Nat) : Int))
          let d := clampI (ctDutyMin e : Nat) 65535 (i + err / ((2 ^ ctKp.nat e : Nat) : Int))
          s.setFan c { x with integ := i, duty := d.toNat }
    | .tachLost =>
      if !want then s.setFan c { x with st := .off, duty := 0 }
      else if 2 ≤ x.seen then (s.setFan c { x with st := .running, integ := (x.duty : Int) }).fanEvent c 5
      else
        match s.fanCurrent c with
        | 2 => s.setFan c { x with duty := s.rcHold (if forced.isSome then 0xFFFF else s.openDuty c eff), speed := s.openSpeed c eff }
        | k => if 2 ≤ x.absent then
            ((s.setFan c { x with st := .stalled, attempt := 1, duty := s.stallDuty c }).bumpFan c 0).fanEvent c
              (if k = 1 then 1 else 4)
          else s
    | _ => s

/-- All members of a zone's fans have failed: one NO_AIRFLOW record per episode (R287). -/
def State.airCheck (s : State) (z : Nat) : State :=
  let m := s.zoneMates 0 z
  let dead := znUsed (s.zoneOf z) && !m.isEmpty && m.all fun d => (s.fan d).st.failed
  let x := s.czone z
  let s := s.setCzone z { x with noAir := dead }
  if dead && !x.noAir then s.zoneEvent z 8 0xFF 0 0 else s

/-! ## Pressure and flow (R291 to R293) -/

def State.meter (s : State) (m : Nat) : FlowMeter := Tbl.get {} s.cool.meters m
def State.setMeter (s : State) (m : Nat) (x : FlowMeter) : State := { s with cool := { s.cool with meters := Tbl.set s.cool.meters m x } }
def State.pressS (s : State) (p : Nat) : PressSensor := Tbl.get {} s.cool.press p
def State.setPressS (s : State) (p : Nat) (x : PressSensor) : State := { s with cool := { s.cool with press := Tbl.set s.cool.press p x } }

/-- COOL_FLOW_LOSS and COOL_PRESS_LOSS of every zone from the meters and sensors in loss, and the leak evidence with them
(R293, R308). -/
def State.lossBits (s : State) : State :=
  let zs := (List.range 16).foldl (fun (s : State) z =>
    let f := (List.range 16).any fun m => (s.meter m).loss && (u16 (meterEntry s.topo m) 2).testBit z
    let p := (List.range 8).any fun k => (s.pressS k).loss && (u16 (pressEntry s.topo k) 0xE).testBit z
    s.setCzone z { s.czone z with flowLoss := f, pressLoss := p }) s
  zs.leakJudgeAll

/-- A pressure sensor's tick (R292, R293). -/
def State.pressTick (s : State) (p : Nat) : State :=
  let e := pressEntry s.topo p
  if !entryUsed e then s else
    let x := s.pressS p
    let ch := s.chan (u16 e 2)
    if ch.stale then s.setPressS p { x with stale := true, below := 0, hist := [], judged := false }
    else
      let v := (clampI 0 65535 ((ch.value - (u16 e 4 : Nat)) * (u32 e 8 : Nat) / 65536)).toNat
      let below := if v < u16 e 6 then min (x.below + 1) 3 else 0
      let fell := (x.hist[9]?).any fun o => decide (v + u16 e 0xC < o)
      let lost := below == 3 || fell
      let s := s.setPressS p { x with value := v, stale := false, below := below, hist := (v :: x.hist).take 10
                                      judged := lost, loss := x.loss || lost }
      if lost && !x.loss then (s.coolantEvent (0x160 + p) 3 v (u16 e 6) (u16 e 0xE)).lossBits else s

/-- A pump whose FLOW_METER names the meter runs (R291). -/
def State.pumpRuns (s : State) (m : Nat) : Bool :=
  (List.range 8).any fun p => s.fanUsed (32 + p) && u8 (fanEntry s.topo (32 + p)) 0xC == m &&
    ((s.fan (32 + p)).st == .running || (s.fan (32 + p)).st == .tachLost)

/-- FLOW_RATE of a second, in 0.01 L/min (R291). -/
def execFlowRateUpdate (meter pulses : Nat) (s : State) : Host.Outcome State Fault Refusal :=
  s.standbyDo fun s =>
    let e := meterEntry s.topo meter
    if !entryUsed e then s else
      let rate := min (pulses * 6000 * 100 / u32 e 4) 65535
      let low := decide (rate < u16 e 8) && s.pumpRuns meter
      let x := s.meter meter
      s.setMeter meter { x with rate := rate, lowSince := if low then some (x.lowSince.getD s.plinth) else none }

/-- FLOW_RATE has stayed below FLOW_MIN for LOSS_TIME (R291, R293). -/
def execFlowLossTimeExpiry (meter : Nat) (s : State) : Host.Outcome State Fault Refusal :=
  s.standbyDo fun s =>
    let e := meterEntry s.topo meter
    let x := s.meter meter
    if x.lowSince.isSome && !x.loss then
      ((s.setMeter meter { x with loss := true }).coolantEvent (0x150 + meter) 2 x.rate (u16 e 8) (u16 e 2)).lossBits
    else s

/-- A judgement false for 10 s ends its episode (R293): flow meters 0-15, pressure sensors 16-23. -/
def execCoolantLossEndTimer (sensor : Nat) (s : State) : Host.Outcome State Fault Refusal :=
  s.standbyDo fun s =>
    if sensor < 16 then
      let x := s.meter sensor
      if x.loss && x.lowSince.isNone then
        ((s.setMeter sensor { x with loss := false }).coolantEvent (0x150 + sensor) 4 x.rate
          (u16 (meterEntry s.topo sensor) 8) (u16 (meterEntry s.topo sensor) 2)).lossBits
      else s
    else
      let p := sensor - 16
      let x := s.pressS p
      if x.loss && !x.judged then
        ((s.setPressS p { x with loss := false }).coolantEvent (0x160 + p) 4 x.value (u16 (pressEntry s.topo p) 6)
          (u16 (pressEntry s.topo p) 0xE)).lossBits
      else s

/-! ## The tick and the timers -/

/-- What every tick measures, whether this controller drives the tray or not: the zones' members and the coolant pressures (R292, R296). -/
def State.measureTick (s : State) : State :=
  let s := (List.range 16).foldl State.zoneTick s
  (List.range 8).foldl State.pressTick s

/-- The 100 ms tick (R268, R276, R278, R281, R292, R296) with a structure committed. The loops and the state table are of a controller that
drives the tray; any other measures the speeds alone (R301). `tach` lists the channels whose tach gave edges. -/
def State.coolingTick (s : State) (tach : List Tach) : State :=
  let s := s.measureTick
  if s.pair.outputs then
    let s := s.withDrive fun s => (List.range 40).foldl (fun (s : State) c => s.fanTick tach c) s
    (List.range 16).foldl State.airCheck s
  else (List.range 40).foldl (fun (s : State) c => s.speedTick tach c) s

def execCoolingTick (tach : List Tach) (s : State) : Host.Outcome State Fault Refusal :=
  s.standbyDo fun s => if s.maq.live.isSome then s.coolingTick tach else s

/-- 3 s in STARTING (R282). -/
def execFanStartTimeout (fan : Nat) (s : State) : Host.Outcome State Fault Refusal :=
  s.standbyDo fun s => s.withDrive fun s =>
    let x := s.fan fan
    if x.st = .starting then
      if x.attempt < 4 then ((s.setFan fan { x with st := .stalled, duty := s.stallDuty fan }).bumpFan fan 0).fanEvent fan 1
      else ((s.setFan fan { x with st := .seized, duty := s.stallDuty fan }).bumpFan fan 1).fanEvent fan 2
    else s

def execFanStallTimerExpiry (fan : Nat) (s : State) : Host.Outcome State Fault Refusal :=
  s.standbyDo fun s => s.withDrive fun s =>
    let x := s.fan fan
    if x.st = .stalled then s.setFan fan (x.start (x.attempt + 1)) else s

def execFanSeizedTimerExpiry (fan : Nat) (s : State) : Host.Outcome State Fault Refusal :=
  s.standbyDo fun s => s.withDrive fun s =>
    let x := s.fan fan
    if x.st = .seized then s.setFan fan (x.start 4) else s

/-- A refreshing write restarts the cooling watchdog and ends its trip (R288). -/
def State.wdtRefresh (s : State) : State := { s with cool := { s.cool with tripped := false, wdtAt := s.plinth } }

def execFanTargetWrite (r : Req) (fan value : Nat) (s : State) : Host.Outcome State Fault Refusal :=
  s.coreDo fun s => s.withWriteRight r .cooling 0x70100 fun s =>
    if 40 ≤ fan then s else
      (s.setFan fan { s.fan fan with target := min value (ctMax (s.ctl fan)) }).wdtRefresh

def execFanClear (r : Req) (fan : Nat) (s : State) : Host.Outcome State Fault Refusal :=
  s.coreDo fun s => s.withWriteRight r .cooling 0x70118 fun s =>
    if fan < 40 && (s.fan fan).st.failed then
      s.withDrive fun s => s.setFan fan { s.fan fan with st := .off, attempt := 0, duty := 0 }
    else s

def execCoolWdtRefresh (r : Req) (s : State) : Host.Outcome State Fault Refusal :=
  s.coreDo fun s => s.withWriteRight r .cooling 0x71000 State.wdtRefresh

/-- WDT_WINDOW passes without a refreshing write, one on the same tick among them (R288); suspended through an Armature or core-die restart
(R289). -/
def execCoolWdtExpiry (s : State) : Host.Outcome State Fault Refusal :=
  s.standbyDo fun s =>
    if s.cool.wdtRunning && !s.cool.suspended && !s.cool.tripped && s.since (some s.cool.wdtAt) (secs (clWdt.nat (s.sec 0x09))) then
      ({ s with cool := { s.cool with tripped := true, wdtTripped := true } } : State).forceNow.fanEventAll 6
    else s

def execValveCmdWrite (r : Req) (valve cmd : Nat) (s : State) : Host.Outcome State Fault Refusal :=
  s.coreDo fun s => s.withWriteRight r .cooling 0x70100 fun s =>
    if valve < 16 ∧ cmd < 3 then s.moveValve valve { s.valve valve with cmd := cmd } else s

/-- VALVE_POS has not confirmed the position in force within TRAVEL_TIME (R290). -/
def execValveTravelTimeout (valve : Nat) (s : State) : Host.Outcome State Fault Refusal :=
  s.standbyDo fun s =>
    let x := s.valve valve
    if x.moving && !x.fault then
      (s.setValve valve { x with fault := true }).coolantEvent (0x140 + valve) 1 (bitAt x.pos 0)
        (vlTravel.nat (valveEntry s.topo valve)) (u16 (valveEntry s.topo valve) 2)
    else s

/-- VALVE_POS changes to a level, read in the polarity of POS_ACTIVE_LOW (R271): a confirmation ends a move and clears VALVE_FAULT; a
change without a command is a stray (R290). -/
def execValvePosChange (valve : Nat) (level : Bool) (s : State) : Host.Outcome State Fault Refusal :=
  s.standbyDo fun s =>
    let isOpen := level != (u8 (valveEntry s.topo valve) 0).testBit 2
    let x := { s.valve valve with pos := isOpen }
    if s.valvePos valve = isOpen then s.confirmValve valve x
    else s.setValve valve { x with confirmed := false, strayed := !x.moving }

def execValveUncommandedTimer (valve : Nat) (s : State) : Host.Outcome State Fault Refusal :=
  s.standbyDo fun s =>
    let x := s.valve valve
    if x.strayed && !x.fault then
      (s.setValve valve { x with fault := true }).coolantEvent (0x140 + valve) 1 (bitAt x.pos 0) 0
        (u16 (valveEntry s.topo valve) 2)
    else s

end Sys2Proof.Machine
end

