-- ==== Sys2Proof/Machine/Gauge.lean ====
section
/-!
DEFINITION. Machine/Gauge.lean: Gauge models: slots, images, inputs, invocations and thresholds (R388 to R393, R395).
-/
namespace Sys2Proof.Machine

/-! ## GAUGE_SLOTS (R388, R389) -/

def ggFlags : Fld := ⟨0x00, 1, 0, 1, none, false⟩
def ggInputs : Fld := ⟨0x01, 1, 1, 16, none, false⟩
def ggHistory : Fld := ⟨0x02, 1, 1, 16, some 1, false⟩
def ggOutputs : Fld := ⟨0x03, 1, 1, 8, none, false⟩
def ggConfirm : Fld := ⟨0x04, 1, 1, 16, some 1, false⟩
def ggPeriod : Fld := ⟨0x08, 4, 10, 10000, none, false⟩
def ggLimit : Fld := ⟨0x0C, 4, 1024, 4194304, none, false⟩
def ggFlds : List Fld := [ggFlags, ggInputs, ggHistory, ggOutputs, ggConfirm, ggPeriod, ggLimit]
def ggRef (e : Bytes) (i : Nat) : Nat := u16 e (0x40 + 2 * i)
def ggThreshold (e : Bytes) (j : Nat) : Nat := u32 e (0x60 + 4 * j)

def gaugeEntry (sec : Bytes) (n : Nat) : Bytes := slice sec (128 * n) 128
def State.gaugeDef (s : State) (n : Nat) : Bytes := gaugeEntry (s.sec 0x0E) n
def gaugeUsed (e : Bytes) : Bool := (u8 e 0).testBit 0

def State.slot (s : State) (n : Nat) : GaugeSlot := Tbl.get {} s.cal.gauge n
def State.setSlot (s : State) (n : Nat) (g : GaugeSlot) : State := { s with cal := { s.cal with gauge := Tbl.set s.cal.gauge n g } }

/-- FP32 NaN (R357). -/
def fpNan : Nat := 0x7FC00000

/-- An integer as FP32 by R358. -/
def fpOfInt (v : Int) : Nat := (({} : Acc).fold (valOfInt v)).result 1 |>.1

/-- The quantity that an input reference names; none when stale or unavailable, as SHAKE_PGA is with the accelerometer in fault and an
absent site's power (R389; log 128). -/
def State.gaugeInput (s : State) (ref : Nat) : Option Int :=
  if ref < 0x180 then (if (s.chan ref).stale then none else some (s.chan ref).value)
  else if 0x200 ≤ ref ∧ ref < 0x220 then some (Tbl.get ({} : FanCh) s.cool.fans (ref - 0x200)).speed
  else if 0x220 ≤ ref ∧ ref < 0x228 then some (Tbl.get ({} : FanCh) s.cool.fans (ref - 0x220 + 32)).speed
  else if 0x260 ≤ ref ∧ ref < 0x270 then some (Tbl.get ({} : FlowMeter) s.cool.meters (ref - 0x260)).rate
  else if 0x270 ≤ ref ∧ ref < 0x278 then
    let p : PressSensor := Tbl.get {} s.cool.press (ref - 0x270)
    if p.stale then none else some p.value
  else if 0x280 ≤ ref ∧ ref < 0x290 then some (Tbl.get ({} : Zone) s.cool.zones (ref - 0x280)).temp
  else if 0x290 ≤ ref ∧ ref < 0x298 then (if (s.site (ref - 0x290)).st = .absent then none else some (s.peaks (ref - 0x290)).avg1s)
  else if 0x300 ≤ ref ∧ ref < 0x320 then some (Tbl.get ({} : Cnt) s.pat.run (ref - 0x300)).val.toNat
  else if 0x320 ≤ ref ∧ ref < 0x328 then some (Tbl.get ({} : Cnt) s.pat.run (ref - 0x320 + 32)).val.toNat
  else if ref = 0x400 then (if s.haz.shakeFault then none else some s.haz.pga)
  else none

/-- A sample of the inputs of a slot. -/
def State.gaugeSample (s : State) (e : Bytes) : List Nat :=
  (List.range (ggInputs.nat e)).map fun i => (s.gaugeInput (ggRef e i)).elim fpNan fpOfInt

/-- The input vector over the history, newest first; the oldest places repeat the first sample (R389). -/
def gaugeVector (e : Bytes) (hist : List (List Nat)) : List Nat :=
  (List.range (ggInputs.nat e)).flatMap fun i => (List.range (ggHistory.nat e)).map fun h =>
    ((hist[h]?).getD (hist.getLast?.getD [])).getD i fpNan

/-! ## Images (R390, R391) -/

/-- A layer entry. -/
def gmLayer (b : Bytes) (l : Nat) : Bytes := slice b (0x20 + 16 * l) 16

/-- Bytes of one weight row: elements, then its scales. -/
def gmRow (fmt n : Nat) : Nat := rowBytes fmt n + if isMx fmt then (n + 31) / 32 else 0

/-- An image's header and layers are consistent with a slot entry (R390). -/
def imageConsistent (e b : Bytes) : Bool :=
  let n := u8 b 6
  let ls := (List.range n).map (gmLayer b)
  let ins := ls.map fun l => u16 l 0
  let outs := ls.map fun l => u16 l 2
  u32 b 0 == 0x4C444D47 && u16 b 4 == 1 && decide (1 ≤ n) && decide (n ≤ 8) && u8 b 7 == 0 &&
    u16 b 8 == ggInputs.nat e * ggHistory.nat e && u16 b 0xA == ggOutputs.nat e && u32 b 0xC == b.length && zeroAt b 0x10 16 &&
    decide (ins = u16 b 8 :: outs.dropLast) && decide (outs.getLast? = some (u16 b 0xA)) &&
    ls.all fun l =>
      let i := u16 l 0
      let o := u16 l 2
      decide (1 ≤ i) && decide (i ≤ 4096) && decide (1 ≤ o) && decide (o ≤ 4096) && plainIn (u8 l 4) && decide (u8 l 5 ≤ 2) &&
        zeroAt l 6 2 && decide (u32 l 8 + o * gmRow (u8 l 4) i ≤ b.length) &&
        (u32 l 0xC == 0 || decide (u32 l 0xC + 4 * o ≤ b.length))

/-- The value of an FP32 code in units of 2^-300; none for a NaN. Infinities lie beyond every finite value. -/
def fpScaled (c : Nat) : Option Int :=
  match decodeVal 1 c 0 with
  | .nan => none
  | .inf neg => some (if neg then -(2 ^ 1000 : Int) else 2 ^ 1000)
  | .fin neg m e => some (scaled neg m e)

/-- An activation: 1 RELU, 2 CLAMP01; a NaN passes (R390). -/
def activate (act c : Nat) : Nat :=
  match fpScaled c with
  | none => c
  | some v =>
    if act = 1 then (if v ≤ 0 then 0 else c)
    else if act = 2 then (if v < 0 then 0 else if (2 : Int) ^ 300 < v then 0x3F800000 else c)
    else c

/-- One layer over its FP32 inputs: a DOT per output, then the activation (R390). -/
def layerOut (b l : Bytes) (x : List Nat) : List Nat × ExcFlags :=
  let n := u16 l 0
  let fmt := u8 l 4
  let r := (List.range (u16 l 2)).map fun j =>
    let row := slice b (u32 l 8 + j * gmRow fmt n) (gmRow fmt n)
    let sc := row.drop (rowBytes fmt n)
    let a := (List.range n).foldl (fun (a : Acc) k =>
      a.fold ((decodeVal fmt (rowElem fmt row k) (u8 sc (k / 32))).mul (decodeVal 1 (x.getD k fpNan) 0))) {}
    let a := if u32 l 0xC = 0 then a else a.fold (decodeVal 1 (u32 b (u32 l 0xC + 4 * j)) 0)
    (activate (u8 l 5) (a.result 1).1, (a.result 1).2)
  (r.map Prod.fst, (r.map Prod.snd).foldl (· ||| ·) 0)

/-- The outputs of a model image over an input vector, with the flags of its DOTs. -/
def gaugeOutputs (b : Bytes) (x : List Nat) : List Nat × ExcFlags :=
  (List.range (u8 b 6)).foldl (fun x l =>
    let r := layerOut b (gmLayer b l) x.1
    (r.1, x.2 ||| r.2)) (x, 0)

/-- A GAUGE_EVENT record (R398). -/
def State.gaugeEvent (s : State) (slot kind out value threshold : Nat) : State :=
  s.record 0x1E slot kind none (leBytes 1 out ++ zeros 3 ++ leBytes 4 value ++ leBytes 4 threshold ++
    leBytes 4 (s.slot slot).invocation ++ zeros 12)

/-- The image of a slot is dropped, unless invocations still run on it. -/
def State.dropImage (s : State) (n : Nat) : State :=
  if (s.slot n).loaded || !(s.slot n).jobs.isEmpty then s else { s with gimg := Tbl.del s.gimg n }

/-- A slot becomes NOT_LOADED, with a record where it was loaded, and its image is held no longer; invocations under way run to their
end on it (R391; log 128). -/
def State.gaugeUnload (s : State) (n kind : Nat) : State :=
  let g := s.slot n
  if g.loaded then ((s.setSlot n { g with loaded := false, hist := [] }).dropImage n).gaugeEvent n kind 0 0 0 else s

/-- A commit of GAUGE_SLOTS: a slot whose entry changes is unloaded (R66, R391). -/
def State.gaugeCommit (s : State) : State :=
  (List.range 8).foldl (fun s n => if s.gaugeDef n = (s.slot n).entry then s else s.gaugeUnload n 4) s

/-! ## Commands (R391, R395) -/

/-- What a Gauge entry completes with at once, or none; BUSY while the GAUGE_LOAD of another entry runs for the slot. -/
def State.gaugeEntryBad (s : State) (r : Req) (e : Bytes) (load invoke : Bool) : Option (Nat × Nat) :=
  if 2 ≤ u16 e 2 then some (0x10, 2)
  else if u64 e 8 ≠ 0 then some (0x10, 8)
  else if ¬ load ∧ u64 e 0x10 ≠ 0 then some (0x10, 0x10)
  else if ¬ load ∧ u32 e 0x18 ≠ 0 then some (0x10, 0x18)
  else if 8 ≤ u8 e 0x1C then some (0x10, 0x1C)
  else if u8 e 0x1D ≠ 0 then some (0x10, 0x1D)
  else if u16 e 0x1E ≠ 0 then some (0x10, 0x1E)
  else if ¬ invoke ∧ u64 e 0x20 ≠ 0 then some (0x10, 0x20)
  else if !zeroAt e 0x28 24 then some (0x10, 0x28)
  else if s.snap.holdup then some (0x41, 0)
  else if s.haz.tjState = 1 then some (0x4A, 0)
  else if s.pwr.calFenced ∨ s.cal.selfFenced ∨ ¬ s.pwr.caliper then some (0x80, 0)
  else if (s.slot (u8 e 0x1C)).loading.any (· != r) then some (0x48, 0)
  else none

/-- GAUGE_LOAD: four checks, then the image is stored in DRAM. An image from beyond an Ebbex port is being loaded while its bytes have not
come: they are asked for once more, and a second failure ends the load (R369, R395; log 42). -/
def execGaugeLoad (r : Req) (e : Bytes) (src : Option Bytes) (s : State) : Host.Outcome State Fault Refusal :=
  s.coreDo fun s => s.withRight r .audit fun s =>
    let n := u8 e 0x1C
    let done (s : State) (code detail : Nat) : State := s.calDone r code 0 0 detail 0xFFFFFFFF 0
    match s.gaugeEntryBad r e true false with
    | some x => done s x.1 x.2
    | none =>
      let again := (s.slot n).loading.isSome
      let d := s.gaugeDef n
      let s := s.setSlot n { s.slot n with loading := none }
      if !gaugeUsed d then done s 0x85 0
      else if !s.hasDram then done s 0x84 0
      else if ggLimit.nat d < u32 e 0x18 then done s 0x11 0x18
      else match s.source (u64 e 0x10) (u32 e 0x18) src with
        | none =>
          if again || s.fetchCode (u64 e 0x10) (u32 e 0x18) == 0x84 then done s (s.fetchCode (u64 e 0x10) (u32 e 0x18)) 0
          else s.setSlot n { s.slot n with loading := some r }
        | some b =>
          if Config.sha384 b ≠ digestAt d 0x10 then done s 0x17 0
          else if !imageConsistent d b then done s 0x10 0x10
          else
            let s := { s with gimg := Tbl.set s.gimg n b }
            let s := s.setSlot n { s.slot n with loaded := true, entry := d, hist := [], above := [], below := [], fired := 0, nanEp := 0 }
            done (s.gaugeEvent n 2 0 0 0) 0 0

/-- An invocation begins: the inputs are sampled now (R389, R392), and its job waits for a tile (R370). -/
def State.gaugeBegin (s : State) (n : Nat) (req : Option (Req × Nat)) : State :=
  let g := s.slot n
  let hist := (s.gaugeSample g.entry :: g.hist).take (ggHistory.nat g.entry)
  let s := s.setSlot n { g with hist := hist, jobs := g.jobs ++ [(gaugeVector g.entry hist, req)], skipEp := false }
  (({ s with cal := { s.cal with gaugeWait := s.cal.gaugeWait ++ [n] } } : State).askClock 2).calNext

def execGaugeInvoke (r : Req) (e : Bytes) (s : State) : Host.Outcome State Fault Refusal :=
  s.coreDo fun s => s.withRight r .audit fun s => match s.gaugeEntryBad r e false true with
    | some x => s.calDone r x.1 0 0 x.2 0xFFFFFFFF 0
    | none =>
      let n := u8 e 0x1C
      if !gaugeUsed (s.gaugeDef n) then s.calDone r 0x85 0 0 0 0xFFFFFFFF 0
      else if !(s.slot n).loaded then s.calDone r 0x86 0 0 0 0xFFFFFFFF 0
      else s.gaugeBegin n (some (r, u64 e 0x20))

def execGaugeUnload (r : Req) (e : Bytes) (s : State) : Host.Outcome State Fault Refusal :=
  s.coreDo fun s => s.withRight r .audit fun s => match s.gaugeEntryBad r e false false with
    | some x => s.calDone r x.1 0 0 x.2 0xFFFFFFFF 0
    | none =>
      let n := u8 e 0x1C
      if !gaugeUsed (s.gaugeDef n) then s.calDone r 0x85 0 0 0 0xFFFFFFFF 0
      else (s.gaugeUnload n 3).calDone r 0 0 0 0 0xFFFFFFFF 0

/-! ## Invocations (R392) -/

/-- At each multiple of PERIOD a loaded slot is invoked, or the invocation is skipped. -/
def execGaugeInvocation (slot : Nat) (s : State) : Host.Outcome State Fault Refusal :=
  s.coreDo fun s =>
    let g := s.slot slot
    if !g.loaded then s
    else if s.calStopped || !g.jobs.isEmpty then
      let s := s.bump 10 (8 + slot) g.skip fun c s => s.setSlot slot { s.slot slot with skip := c }
      let s := s.setSlot slot { s.slot slot with skipEp := true }
      if g.skipEp then s else s.gaugeEvent slot 5 0 0 0
    else s.gaugeBegin slot none

/-- An output lands and is judged against its threshold (R392). -/
def State.judgeOutput (s : State) (n j out : Nat) : State :=
  let g := s.slot n
  let th := ggThreshold g.entry j
  match fpScaled out with
  | none =>
    -- an invocation that judges nothing breaks a run of consecutive ones
    let s := s.setSlot n { g with nanEp := g.nanEp ||| 2 ^ j, above := Tbl.set g.above j 0, below := Tbl.set g.below j 0 }
    if g.nanEp.testBit j then s else s.gaugeEvent n 6 j out th
  | some v =>
    let g := { g with nanEp := g.nanEp &&& (0xFF ^^^ 2 ^ j) }
    match fpScaled th with
    | none => s.setSlot n g
    | some t =>
      let c := ggConfirm.nat g.entry
      if t ≤ v then
        let a := Tbl.get 0 g.above j + 1
        let g := { g with above := Tbl.set g.above j (min a c), below := Tbl.set g.below j 0 }
        if c ≤ a ∧ ¬ g.fired.testBit j then
          ((s.setSlot n { g with fired := g.fired ||| 2 ^ j }).gaugeEvent n 1 j out th).event 10 392 n j
        else s.setSlot n g
      else
        let b := Tbl.get 0 g.below j + 1
        s.setSlot n { g with below := Tbl.set g.below j (min b c), above := Tbl.set g.above j 0
                             fired := if c ≤ b then g.fired &&& (0xFF ^^^ 2 ^ j) else g.fired }

/-- Compute cycles of an invocation: each layer's products run at the FP32 rate of 32 per cycle (R367, R390). Where a layer does not fill
its last cycle the manual gives no rounding: a free value, of the layers' formats and shapes alone (R370). -/
def gaugeCycles (b : Bytes) : Nat :=
  let ls := (List.range (u8 b 6)).map (gmLayer b)
  let products := ls.map fun l => u16 l 0 * u16 l 2
  if products.all fun n => n % 32 == 0 then (products.map (· / 32)).foldl (· + ·) 0
  else Config.jobCycles (ls.flatMap fun l => [u16 l 0, u16 l 2, u8 l 4])

/-- What a Gauge job's end does: the outputs land in GAUGE_OUT and are judged; a GAUGE_INVOKE gets them at OUT_ADDR. -/
def State.gaugeLand (s : State) (slot : Nat) (x : List Nat) (req : Option (Req × Nat)) : State :=
  if s.calStopped then
    match req with
    | some (r, _) => s.calDone r (if s.snap.holdup then 0x41 else if s.haz.tjState = 1 then 0x4A
        else if s.pwr.calFenced || s.cal.selfFenced || !s.pwr.caliper then 0x80 else 0x84) 0 0 0 0xFFFFFFFF 0
    | none => s
  else
    let res := gaugeOutputs (Tbl.get [] s.gimg slot) x
    let outs := res.1
    let s := s.setSlot slot { s.slot slot with outs := outs.zipIdx.map fun o => (o.2, o.1)
                                               invocation := ((s.slot slot).invocation + 1) % 2 ^ 32 }
    let s := outs.zipIdx.foldl (fun (s : State) o => s.judgeOutput slot o.2 o.1) s
    match req with
    | none => s
    | some (r, addr) =>
      let t := gaugeCycles (Tbl.get [] s.gimg slot)
      match if addr = 0 then none else s.canGive addr (4 * outs.length) with
      | some code =>
        (s.ownViolation r addr code).calDone r (if code = 0x84 ∨ code = 0x37 then code else 0x83) 0 res.2 0 0xFFFFFFFF t
      | none => (if addr = 0 then s else s.give addr (outs.flatMap (leBytes 4))).calDone r 0 0 res.2 0 0xFFFFFFFF t

/-- The oldest Gauge job of a slot that a tile runs ends; the tile is free for the next job. -/
def execGaugeInvocationDone (slot : Nat) (s : State) : Host.Outcome State Fault Refusal :=
  s.coreDo fun s => match (s.slot slot).jobs, s.cal.busy.find? fun j => j.rank == 4 && j.id == slot with
    | (x, req) :: rest, some j =>
      ((((s.tileFree j.tile).setSlot slot { s.slot slot with jobs := rest }).gaugeLand slot x req).dropImage slot).calNext
    | _, _ => s

end Sys2Proof.Machine
end

