-- ==== Sys2Proof/Machine/Journal.lean ====
section
/-!
DEFINITION. Machine/Journal.lean: emission and bind records, spot checks, signing, exports, the Digest engine, and flush
descriptors (R399 to R416).
-/
namespace Sys2Proof.Machine

/-! ## Records (R399 to R402) -/

def State.seqOf (s : State) (id : Nat) : Option JSeq := s.jrn.seqs.find? fun q => q.id == id

/-- The lowest free slot of a pair that serves (R401, R406). -/
def State.freeSlot (s : State) : Option Nat :=
  (List.range 65536).find? fun k => s.pairServes (k % 2) && !s.jrn.seqs.any fun q => q.slot == k

/-- The first record of an unknown SEQ_ID opens a slot; with none free it is discarded (R401). -/
def State.openSeq (s : State) (id site run : Nat) : State :=
  if (s.seqOf id).isSome then s
  else if 65536 ≤ s.jrn.seqs.length then
    let s := s.bumpJ 2
    if s.jrn.fullEp then s else { s with jrn := { s.jrn with fullEp := true } }.jEvent site 1 run id 65536
  else match s.freeSlot with
    | some k =>
      let s := { s with jrn := { s.jrn with seqs := { id := id, slot := k, site := site, run := run } :: s.jrn.seqs, fullEp := false } }
      s.jrnSee run
    | none =>
      let s := s.bumpJ 2
      if s.jrn.fullEp then s else { s with jrn := { s.jrn with fullEp := true } }.jEvent site 1 run id s.jrn.seqs.length

/-- Blocks fold while the next one must; after the block of FINAL the slot closes (R401, R402). -/
def State.foldLoop (slot : Nat) : Nat → State → State
  | 0, s => s
  | f + 1, s => match s.jrn.seqs.find? fun q => q.slot == slot with
    | none => s
    | some q =>
      if q.mustFold then State.foldLoop slot f (s.foldBlock slot)
      else if q.last.any fun l => decide (l / 1024 < q.blocks) then s.closeSeq slot false false
      else s

/-- Emission records are dropped during hold-up and without DIMMs; bind records only without DIMMs (R414). -/
def State.jrnDrops (s : State) : Bool := s.snap.holdup || !s.hasDram

/-- An emission record of a known sequence: a repeat of a held index is identical only if every field is, its SITE among them (R399). -/
def State.emission (s : State) (q : JSeq) (n : Nat) (rec : Bytes) : State :=
  let i := u32 rec 4
  let t : Token := ⟨i, u32 rec 0x18, u64 rec 0x20, u64 rec 0x28, n⟩
  let final := (u8 rec 2).testBit 0
  if q.run ≠ u64 rec 0x10 then s.bumpJ 0
  else if !q.open_ || (s.jrnRun q.run).manifest.isSome || decide (i / 1024 < q.blocks) then s.bumpJ 3
  else match q.recs.find? fun x => x.idx == i with
    | some x =>
      if x = t ∧ final = decide (q.last = some i) then s.bumpJ 1
      else (s.setSeq { q with conflict := true }).jEvent q.site 3 q.run q.id 1
    | none =>
      if q.last.any fun l => decide (l < i) then s.bumpJ 0
      else
        let q := { q with recs := t :: q.recs, last := if final then some i else q.last, final := q.final || final }
        let q := if i = 0 then q.start else q
        State.foldLoop q.slot 16385 (s.setSeq q)

/-- An EMISSION record is ingested (R399, R401, R416). -/
def State.takeEmission (s : State) (n : Nat) (rec : Bytes) : State :=
  if s.jrnDrops then s.bumpJ 6
  else if 16777215 < u32 rec 4 ∨ 2 ≤ u8 rec 2 ∨ u8 rec 3 ≠ 0 ∨ u32 rec 0x1C ≠ 0 ∨ u64 rec 8 = 0 then s.bumpJ 0
  else
    let s := s.openSeq (u64 rec 8) n (u64 rec 0x10)
    match s.seqOf (u64 rec 8) with
    | some q => s.emission q n rec
    | none => s

def execEmissionRecord (port src : Nat) (rec : Bytes) (s : State) : Host.Outcome State Fault Refusal :=
  s.coreDo fun s => s.siteMsg (some (port, src)) rec 7 48 fun n s => s.takeEmission n rec

/-- A bind record's form: reserved fields 0 (R400). -/
def bindOk (rec : Bytes) : Bool := zeroAt rec 3 5 && zeroAt rec 0x28 8

/-- INPUT: the digest of a sequence's input, before its token 0. -/
def State.takeInput (s : State) (n : Nat) (rec : Bytes) : State :=
  if !s.hasDram then s.bumpJ 6
  else if !bindOk rec || u8 rec 2 != 2 || u64 rec 0x20 != 0 || u64 rec 0x10 == 0 then s.bumpJ 0
  else
    let s := s.openSeq (u64 rec 0x10) n (u64 rec 8)
    match s.seqOf (u64 rec 0x10) with
    | none => s
    | some q =>
      if q.run ≠ u64 rec 8 then s.bumpJ 0
      else if q.started || !q.open_ then s.bumpJ 3
      else (s.setSeq { q with input := some (digestAt rec 0x30) }).jAppend (q.slot % 2) 5 rec

def execBindInput (port src : Nat) (rec : Bytes) (s : State) : Host.Outcome State Fault Refusal :=
  s.coreDo fun s => s.siteMsg (some (port, src)) rec 8 96 fun n s => s.takeInput n rec

/-- WEIGHTS: logged, and the spot check starts (R400, R410). -/
def State.takeWeights (s : State) (n : Nat) (rec : Bytes) : State :=
  let run := u64 rec 8
  if !s.hasDram then s.bumpJ 6
  else if !bindOk rec || u8 rec 2 != 1 || u64 rec 0x10 != 0 || run == 0 then s.bumpJ 0
  else
    let s := (s.jrnSee run).jAppend 0 5 rec
    let x := s.jrnRun run
    if x.manifest.isSome then s.bumpJ 3
    else
      let s := s.setJrnRun { x with weights := Tbl.set x.weights n rec }
      if s.jrn.spotN = 0 then s else { s with jrn := { s.jrn with spots := s.jrn.spots ++ [(run, n, none)] } }

def execBindWeights (port src : Nat) (rec : Bytes) (s : State) : Host.Outcome State Fault Refusal :=
  s.coreDo fun s => s.siteMsg (some (port, src)) rec 8 96 fun n s => s.takeWeights n rec

/-- The block folds after JRN_GAP_WAIT of a visible hole (R402). -/
def execJrnGapWaitExpiry (seq : Nat) (s : State) : Host.Outcome State Fault Refusal :=
  s.coreDo fun s => match s.seqOf seq with
    | none => s
    | some q =>
      let n := 1024 * q.blocks
      let top := (q.recs.map Token.idx).foldl max 0
      let hole := (List.range 1024).any fun i => decide (n + i < top) && !q.recs.any fun t => t.idx == n + i
      if q.open_ && hole then State.foldLoop q.slot 16385 (s.foldBlock q.slot) else s

def execJrnSeqIdleExpiry (seq : Nat) (s : State) : Host.Outcome State Fault Refusal :=
  s.coreDo fun s => match s.seqOf seq with
    | some q => if q.open_ then s.closeSeq q.slot true false else s
    | none => s

def execJrnSealWaitExpiry (run : Nat) (s : State) : Host.Outcome State Fault Refusal :=
  s.coreDo fun s => match s.jrn.runs.find? fun x => x.run == run with
    | some x => if x.launch.isSome then s.sealRun run else s
    | none => s

/-! ## Weights spot check (R409, R410) -/

/-- Chunk number m of a spot check. -/
def spotChunk (seed : BitVec 256) (site m chunks : Nat) : Nat :=
  (Config.sha384 (leBytes 32 seed.toNat ++ leBytes 1 site ++ leBytes 4 m)).toNat % 2 ^ 64 % chunks

/-- A Journal or Digest completion (R413). -/
def State.jDone (s : State) (r : Req) (status result detail written next : Nat) : State :=
  s.completeAs r status result 0 (leBytes 4 detail ++ leBytes 4 written ++ leBytes 8 next ++ zeros 8)

/-- What a spot check finds: none for a fetch that failed, otherwise whether every comparison held, and how many chunks. -/
def spotVerdict (rec : Bytes) (seed : BitVec 256) (site n : Nat) (list : Option Bytes) (chunks : List (Nat × Bytes)) :
    Option (Bool × Nat) :=
  match list with
  | none => none
  | some l =>
    let count := (u64 rec 0x18 + 1048575) / 1048576
    if Config.sha384 l ≠ digestAt rec 0x30 then some (false, 0)
    else if count = 0 then some (true, 0)
    else
      let picks := (List.range n).map fun m => spotChunk seed site m count
      if picks.all fun j => (Tbl.find? chunks j).isSome then
        some (picks.all fun j => decide (Config.sha384 (Tbl.get [] chunks j) = digestAt l (48 * j)), n)
      else none

/-- A spot check ends: the list and the selected chunks as fetched from the site. -/
def execSpotCheckDone (site run : Nat) (list : Option Bytes) (chunks : List (Nat × Bytes)) (s : State) :
    Host.Outcome State Fault Refusal :=
  s.coreDo fun s => match s.jrn.spots.find? fun x => x.1 == run && x.2.1 == site with
    | none => s
    | some sp =>
      let s := { s with jrn := { s.jrn with spots := dropFirst (fun x => x.1 == run && x.2.1 == site) s.jrn.spots } }
      let x := s.jrnRun run
      let finish (s : State) (code res : Nat) : State := match sp.2.2 with
        | some r => s.jDone r code res 0 0 0
        | none => s
      match spotVerdict (Tbl.get [] x.weights site) x.seed site s.jrn.spotN list chunks with
      | none => finish (s.bumpJ 5) 0x83 0
      | some (ok, n) =>
        let st := Tbl.get 0 s.jrn.siteStatus site
        let s := { s with jrn := { s.jrn with siteStatus := Tbl.set s.jrn.siteStatus site (if ok then st ||| 1 else st ||| 2) } }
        let x := { x with spotChunks := x.spotChunks + n, weightsOk := if ok then x.weightsOk ||| 2 ^ site else x.weightsOk
                          weightsBad := if ok then x.weightsBad else x.weightsBad ||| 2 ^ site }
        let s := s.setJrnRun x
        let s := if ok then s else s.jEvent site 6 run 0 n
        finish s 0 (if ok then 1 else 2)

/-! ## Signing (R411, R412) -/

/-- The signature block of R52 with SIG_MAGIC "RMSG" and the identity keys (R411). -/
def rmSignature (b : Bytes) : Bytes :=
  leBytes 4 0x47534D52 ++ zeros 4 ++ leBytes 4 384 ++ leBytes 4 7856 ++ (Config.rsaModulus ++ zeros 384).take 384 ++
    (Config.slhPubkey ++ zeros 32).take 32 ++ (Config.rsaSign b ++ zeros 384).take 384 ++ (Config.slhSign b ++ zeros 7856).take 7856

/-- MANIFEST_SEQ of a sealed manifest (R411). -/
def JRun.sealSeq (x : JRun) : Nat := u32 (x.manifest.getD []) 0x24

/-- A run's manifest is the one to sign next: none sealed before it waits for its signatures (R412). -/
def State.signsNext (s : State) (x : JRun) : Bool :=
  !s.jrn.runs.any fun y => y.manifest.isSome && !y.signed && !y.unsignable &&
    decide (2 ^ 31 ≤ (y.sealSeq + 2 ^ 32 - x.sealSeq) % 2 ^ 32)

/-- The Armature signs the oldest sealed manifest and writes it to the log of pair 0/1; a failure is recorded and retried
once. -/
def execManifestSigned (run : Nat) (ok : Bool) (s : State) : Host.Outcome State Fault Refusal :=
  s.armDo fun s => match s.jrn.runs.find? fun x => x.run == run with
    | none => s
    | some x => match x.manifest with
      | none => s
      | some m =>
        if x.signed || x.unsignable || !s.boot.identReady || !s.signsNext x then s
        else if ok then
          let full := m ++ rmSignature m
          let s := s.setJrnRun { x with manifest := some full, signed := true }
          let s := { s with jrn := { s.jrn with held := s.jrn.held.map fun (h : Nat × Bytes × Bool) => if h.1 = run then (run, full, h.2.2) else h } }
          s.jAppend 0 4 full
        else (s.setJrnRun { x with failed := true, unsignable := x.failed }).jEvent 0xFFFF 9 run 0 1

/-! ## Exports (R413) -/

/-- The CRC of a log entry holds. -/
def jEntryOk (b : Bytes) : Bool := u32 b 0xC == crc32c (patch b 0xC (zeros 4))

/-- An entry as read: the lower channel, or its mirror; none when both fail (R406, R413). -/
def State.jRead (s : State) (p : Nat) (e : JEntry) : Option Bytes :=
  ([2 * p, 2 * p + 1].filterMap fun n => (s.dread (chSize * n + e.off) e.bytes.length).filter jEntryOk).head?

/-- A read that met a bad copy and took the other rewrites it (R406). -/
def State.jMend (s : State) (p : Nat) (e : JEntry) : State :=
  let copy (n : Nat) : Option Bytes := (s.dread (chSize * n + e.off) e.bytes.length).filter jEntryOk
  match copy (2 * p), copy (2 * p + 1) with
  | none, some b => s.dwrite (chSize * (2 * p) + e.off) b
  | _, _ => s

/-- Entries whose copies both fail are skipped and counted (R413; log 131). -/
def State.jTorn (s : State) (n : Nat) : State := { s with jrn := { s.jrn with torn := min (s.jrn.torn + n) 0xFFFFFFFF } }

/-- What an export completes with at once, or none. -/
def State.jEntryBad (s : State) (e : Bytes) (pair site src : Bool) : Option Nat :=
  if 2 ≤ u16 e 2 then some 0x10
  else if !src && u64 e 0x10 != 0 then some 0x10
  else if (!pair && u8 e 0x28 != 0) || (pair && decide (1 < u8 e 0x28)) then some 0x10
  else if (!site && u8 e 0x29 != 0) || (site && decide (7 < u8 e 0x29)) then some 0x10
  else if !zeroAt e 0x2A 22 then some 0x10
  else if s.snap.holdup then some 0x41
  else none

/-- An export or a digest that cannot be written at its address (R413, R419, R422). -/
def State.badTarget (s : State) (r : Req) (addr code : Nat) : State :=
  (s.ownViolation r addr code).jDone r (if code = 0x84 ∨ code = 0x37 then code else 0x83) 0 0 0 0

/-- Entries of the logs, each with its pair, copied in order to DST_ADDR: LENGTH where they do not fit. -/
def State.jCopy (s : State) (r : Req) (e : Bytes) (l : List (Nat × JEntry)) : State :=
  let bs := l.filterMap fun x => s.jRead x.1 x.2
  let all := bs.flatten
  let next := l.getLast?.elim (u64 e 8) fun x => x.2.off + x.2.bytes.length
  let s := (l.foldl (fun (s : State) x => s.jMend x.1 x.2) s).jTorn (l.length - bs.length)
  if u64 e 0x20 < all.length then s.jDone r 0x11 0 0 0 0
  else match s.canExport (u64 e 0x18) all.length with
    | some code => s.badTarget r (u64 e 0x18) code
    | none => (s.give (u64 e 0x18) all).jDone r 0 0 bs.length all.length next

/-- A manifest held in the control buffers since the DIMMs were out is exported from there (R414). -/
def State.exportHeld (s : State) (r : Req) (e : Bytes) : State :=
  match s.jrn.held.find? fun h => h.1 == u64 e 8 with
  | none => s.jDone r 0x90 0 0 0 0
  | some h =>
    if !(s.jrnRun h.1).signed then s.jDone r 0x90 0 0 0 0
    else if u64 e 0x20 < h.2.1.length then s.jDone r 0x11 0 0 0 0
    else match s.canExport (u64 e 0x18) h.2.1.length with
      | some code => s.badTarget r (u64 e 0x18) code
      | none =>
        let s := s.give (u64 e 0x18) h.2.1
        let s := { s with jrn := { s.jrn with held := s.jrn.held.map fun (y : Nat × Bytes × Bool) => if y.1 = h.1 then (y.1, y.2.1, true) else y } }
        s.jDone r 0 0 1 h.2.1.length 0

/-- EXPORT_MANIFEST: the signed manifest in the log, else as held in the control buffers (R414). -/
def execExportManifest (r : Req) (e : Bytes) (s : State) : Host.Outcome State Fault Refusal :=
  s.coreDo fun s => s.withRight r .journal fun s => match s.jEntryBad e false false false with
    | some code => s.jDone r code 0 0 0 0
    | none =>
      match (if s.hasDram then (s.jpair 0).log.find? fun x => u8 x.bytes 0 == 4 && u64 x.bytes 0x18 == u64 e 8 else none) with
      | none => s.exportHeld r e
      | some x => match s.jRead 0 x with
        | none => (s.jTorn 1).jDone r 0x90 0 0 0 0
        | some b =>
          let s := s.jMend 0 x
          let m := slice b 16 (1920 + 160 * u32 b (16 + 0x2C) + 8672)
          if u64 e 0x20 < m.length then s.jDone r 0x11 0 0 0 0
          else match s.canExport (u64 e 0x18) m.length with
            | some code => s.badTarget r (u64 e 0x18) code
            | none => (s.give (u64 e 0x18) m).jDone r 0 0 1 m.length (x.off + x.bytes.length)

/-- The entries of a sequence still in a log, oldest first: BLOCK and its TOKENS, SEQ_CLOSE. -/
def seqEntries (id : Nat) : Bool → List JEntry → List JEntry
  | _, [] => []
  | after, x :: l =>
    let k := u8 x.bytes 0
    if (k = 1 ∨ k = 3) ∧ u64 x.bytes 16 = id then x :: seqEntries id (k == 1) l
    else if k = 2 ∧ after then x :: seqEntries id false l
    else seqEntries id false l

/-- EXPORT_SEQ: the entries of a SEQ_ID in pair 0/1's log, then those in pair 2/3's (R413; log 131). -/
def execExportSeq (r : Req) (e : Bytes) (s : State) : Host.Outcome State Fault Refusal :=
  s.coreDo fun s => s.withRight r .journal fun s => match s.jEntryBad e false false false with
    | some code => s.jDone r code 0 0 0 0
    | none =>
      if !s.hasDram then s.jDone r 0x84 0 0 0 0 else
        let l := [0, 1].flatMap fun p => (seqEntries (u64 e 8) false (s.jpair p).log.reverse).map fun x => (p, x)
        if l = [] then s.jDone r 0x90 0 0 0 0 else s.jCopy r e l

/-- Entries from the front whose lengths fit a space. -/
def fitEntries : Nat → List JEntry → List JEntry
  | _, [] => []
  | n, x :: l => if x.bytes.length ≤ n then x :: fitEntries (n - x.bytes.length) l else []

/-- EXPORT_LOG: whole entries of a pair from an offset; the export cursor moves past them. -/
def execExportLog (r : Req) (e : Bytes) (s : State) : Host.Outcome State Fault Refusal :=
  s.coreDo fun s => s.withRight r .journal fun s => match s.jEntryBad e true false false with
    | some code => s.jDone r code 0 0 0 0
    | none =>
      let p := u8 e 0x28
      if !s.pairServes p then s.jDone r 0x84 0 0 0 0 else
        let x := s.jpair p
        match x.log.find? fun y => y.off == u64 e 8 with
        | none => s.jDone r 0x90 0 0 0 0
        | some y =>
          let l := fitEntries (u64 e 0x20) (x.log.reverse.filter fun z => decide (y.pos ≤ z.pos))
          if l = [] then s.jDone r 0x11 0 0 0 0
          else match s.canExport (u64 e 0x18) ((l.map fun z => z.bytes.length).foldl (· + ·) 0) with
            | some code => s.badTarget r (u64 e 0x18) code
            | none =>
              let stop := l.getLast?.elim x.exported fun z => z.pos + z.bytes.length
              (s.setJpair p { x with exported := max x.exported stop }).jCopy r e (l.map fun z => (p, z))

/-! ## The Digest engine (R409, R413) -/

/-- HASH begins: its source streams into an instance. -/
def execHashRange (r : Req) (e : Bytes) (src : Option Bytes) (s : State) : Host.Outcome State Fault Refusal :=
  s.coreDo fun s => s.withRight r .journal fun s => match s.jEntryBad e false false true with
    | some code => s.jDone r code 0 0 0 0
    | none =>
      match s.source (u64 e 0x10) (u64 e 0x20) src with
        | some b => { s with jrn := { s.jrn with hashes := s.jrn.hashes ++ [(r, u64 e 0x18, b)] } }
        | none => s.jDone r (match s.window (u64 e 0x10) with
          | .dram off => if s.dramAcc off 1 = .unavailable then 0x84 else 0x83
          | _ => 0x83) 0 0 0 0

/-- An instance finishes the k-th hash under way: the digest is written, and the completion. -/
def execDigestHashDone (k : Nat) (s : State) : Host.Outcome State Fault Refusal :=
  s.coreDo fun s => match s.jrn.hashes[k]? with
    | none => s
    | some (r, dst, b) =>
      let s := { s with jrn := { s.jrn with hashes := s.jrn.hashes.eraseIdx k } }
      match s.canExport dst 48 with
      | some code => s.badTarget r dst code
      | none => (s.give dst (digestBytes (Config.sha384 b))).jDone r 0 0 0 48 0

/-- SPOT: R410 again for a run and a site. -/
def execSpotCheck (r : Req) (e : Bytes) (s : State) : Host.Outcome State Fault Refusal :=
  s.coreDo fun s => s.withRight r .journal fun s => match s.jEntryBad e false true false with
    | some code => s.jDone r code 0 0 0 0
    | none =>
      let run := u64 e 8
      let n := u8 e 0x29
      if !((s.jrn.runs.any fun x => x.run == run) && (Tbl.find? (s.jrnRun run).weights n).isSome) then s.jDone r 0x90 0 0 0 0
      else if s.jrn.spots.any fun x => x.1 == run && x.2.1 == n then s.jDone r 0x48 0 0 0 0
      else { s with jrn := { s.jrn with spots := s.jrn.spots ++ [(run, n, some r)] } }

/-! ## Flush descriptors (R202, R415) -/

/-- Offset of a slot of the journal flush area (R109, R415). -/
def flushOff (k : Nat) : Nat := 0x0A000000 + 16384 * k

/-- A descriptor's header is good (R415). -/
def flushOk (b : Bytes) : Bool := u32 b 0 == 0x444C464A && u16 b 4 == 1 && u32 b 124 == crc32c (b.take 124)

/-- A descriptor's header as read from a slot, where it is one. -/
def State.flushHead (s : State) (k : Nat) : Option Bytes :=
  let b (dev : Nat) : Bytes := s.fread dev (flushOff k) 128
  if flushOk (b 0) then some (b 0) else if flushOk (b 1) then some (b 1) else none

/-- A whole descriptor, from the lower device whose copy of its header is good. -/
def State.flushRead (s : State) (k : Nat) : Bytes :=
  s.fread (if flushOk (s.fread 0 (flushOff k) 128) then 0 else 1) (flushOff k) 16384

/-- The newest descriptor, complete ones only if asked: its slot and header, by START_SEQ and PLINTH_TIME. -/
def State.newestFlush (s : State) (complete : Bool) : Option (Nat × Bytes) :=
  (List.range 4096).foldl (fun (m : Option (Nat × Bytes)) k => match s.flushHead k with
    | none => m
    | some h =>
      if complete && u8 h 6 != 1 then m
      else match m with
        | none => some (k, h)
        | some (_, g) =>
          if u32 g 12 < u32 h 12 ∨ (u32 g 12 = u32 h 12 ∧ u64 g 16 ≤ u64 h 16) then some (k, h) else m) none

/-- Runs not sealed, in order of RUN_ID. -/
def State.openRuns (s : State) : List JRun :=
  sortBy (fun (a b : JRun) => decide (a.run ≤ b.run)) (s.jrn.runs.filter fun x => x.manifest.isNone)

/-- JOB_ID of a run: its launch record's, or its open arm entry's (R337, R345, R415). -/
def State.runJob (s : State) (x : JRun) : Nat :=
  if x.launch.isSome then x.jobId
  else ((s.pnt.arms.map Prod.snd : List ArmEntry).find? fun a => a.runId == x.run && a.st != 0).elim x.jobId ArmEntry.jobId

/-- The journal flush descriptor (R415). -/
def State.flushDesc (s : State) (complete : Bool) : Bytes :=
  let rs := s.openRuns
  let seqs := sortBy (fun (a b : JSeq) => decide (a.slot ≤ b.slot)) s.jrn.seqs
  let head := leBytes 4 0x444C464A ++ leBytes 2 1 ++ leBytes 1 (if complete then 1 else 0) ++ [0] ++ leBytes 4 s.jrn.epoch ++
    leBytes 4 s.led.startSeq ++ leBytes 8 s.plinth ++ leBytes 4 rs.length ++
    ([0, 1].flatMap fun p => leBytes 8 (s.jpair p).head ++ leBytes 4 (s.jpair p).seq) ++
    digestBytes (Config.sha384 (seqs.flatMap JSeq.entry)) ++ zeros 24
  let run (x : JRun) : Bytes :=
    let qs := sortBy (fun (a b : JSeq) => decide (a.id ≤ b.id)) (s.jrn.seqs.filter fun q => q.run == x.run)
    leBytes 8 x.run ++ leBytes 8 (s.runJob x) ++ leBytes 4 (qs.filter JSeq.open_).length ++ zeros 4 ++
      leBytes 8 ((qs.map JSeq.tokens).foldl (· + ·) 0) ++ zeros 48 ++
      digestBytes (Config.sha384 (qs.flatMap fun q => digestBytes q.dNow))
  let head := head.take 124
  let b := head ++ leBytes 4 (crc32c head) ++ (rs.take 127).flatMap run
  (b ++ zeros 16384).take 16384

/-- The descriptor's pages end, all of them or stopped by R202: it stands in the next slot of both devices. -/
def State.flushEnd (s : State) (complete : Bool) : State :=
  let k := (s.newestFlush false).elim 0 fun x => (x.1 + 1) % 4096
  let b := s.flushDesc complete
  let s := (s.fstore 0 (flushOff k) 16384 b).fstore 1 (flushOff k) 16384 b
  { s with snap := { s.snap with flushing := false } }

def execJournalFlushDescriptorDone (complete : Bool) (s : State) : Host.Outcome State Fault Refusal :=
  s.standbyDo fun s => if s.snap.flushing then s.flushEnd complete else s

/-! ## Recovery (R414) -/

/-- A new epoch: table and log emptied, NEW_EPOCH, and RUN_LOST for each run of the newest complete descriptor. A pair that runs on one
copy goes on doing so (R406). -/
def State.jrnNewEpoch (s : State) : State :=
  let d := s.newestFlush true
  let lost := d.elim 0 fun x => min (u32 x.2 24) 127
  let s := { s with jrn := { s.jrn with epoch := (s.jrn.epoch + 1) % 2 ^ 32, seqs := [], runs := [], spots := [], held := []
                                        pairs := s.jrn.pairs.map fun (e : Nat × JPair) => (e.1, { mirrorLost := e.2.mirrorLost }) } }
  let s := s.jEvent 0xFFFF 7 0 0 s.jrn.epoch
  let b := d.elim [] fun x => s.flushRead x.1
  (List.range lost).foldl (fun s i => s.jEvent 0xFFFF 8 (u64 b (128 + 128 * i)) 0 (u32 b (128 + 128 * i + 16))) s

/-- What was recovered agrees with a complete descriptor (R414): of its epoch; where a log has gone on since, at or past the descriptor's
heads; where none has, at exactly its heads and with its sequence table (DEDUCED, log 132). -/
def State.flushAgrees (s : State) (h : Bytes) : Bool :=
  let seqs := sortBy (fun (a b : JSeq) => decide (a.slot ≤ b.slot)) s.jrn.seqs
  let past (p : Nat) : Nat := ((s.jpair p).seq + 2 ^ 32 - u32 h (28 + 12 * p + 8)) % 2 ^ 32
  u32 h 8 == s.jrn.epoch && decide (past 0 < 2 ^ 31) && decide (past 1 < 2 ^ 31) &&
    [0, 1].all (fun p => past p != 0 || u64 h (28 + 12 * p) == (s.jpair p).head) &&
    (past 0 != 0 || past 1 != 0 || digestAt h 52 == Config.sha384 (seqs.flatMap JSeq.entry))

/-- The recovered table and heads agree with the newest complete descriptor (R414); contents lost in a fill (R428), or a pair whose
entries stand on no channel kept through the restart, do not. -/
def State.jrnAgrees (s : State) : Bool :=
  if (List.range 4).any (fun n => (s.ch n).lost) ||
      [0, 1].any (fun p => !(s.jpair p).log.isEmpty && (s.ch (2 * p)).st != .inService && (s.ch (2 * p + 1)).st != .inService) then
    false
  else (s.newestFlush true).all fun x => s.flushAgrees x.2

/-- A run whose launch record was lost to the restart and whose sequences have all closed is sealed (R411). -/
def State.sealLost (s : State) : State :=
  (s.jrn.runs.filter fun x => x.restarted && s.jrn.seqs.any fun q => q.run == x.run).foldl (fun (s : State) x => s.trySeal x.run) s

end Sys2Proof.Machine
end

