-- ==== Sys2Proof/Machine/Images.lean ====
section
/-!
DEFINITION. Machine/Images.lean: signature blocks, protected records, key slots, image manifests and the areas of flash that
hold images (R52, R97 to R99, R109 to R118, R123, R132, R137).
-/
namespace Sys2Proof.Machine

/-! ## Signature blocks (R52) -/

/-- Bytes of a signature block. -/
def sigLen : Nat := 8672

/-- The fixed fields of a signature block hold. -/
def sigFormat (b : Bytes) (magic : Nat) : Bool :=
  b.length == sigLen && u32 b 0 == magic && zeroAt b 4 4 && u32 b 8 == 384 && u32 b 12 == 7856

def sigRsaOk (b msg : Bytes) : Bool := Config.rsaVerify (slice b 0x10 384) msg (slice b 0x1B0 384)
def sigSlhOk (b msg : Bytes) : Bool := Config.slhVerify (slice b 0x190 32) msg (slice b 0x330 7856)

/-- A signature block of the identity keys over bytes (R142, R412). -/
def identSig (magic : Nat) (msg : Bytes) : Bytes :=
  leBytes 4 magic ++ zeros 4 ++ leBytes 4 384 ++ leBytes 4 7856 ++ (Config.rsaModulus ++ zeros 384).take 384 ++
    (Config.slhPubkey ++ zeros 32).take 32 ++ (Config.rsaSign msg ++ zeros 384).take 384 ++
    (Config.slhSign msg ++ zeros 7856).take 7856

/-! ## Option bytes (R97, R98) -/

/-- A copy of the option bytes is valid (R97). -/
def obValid (b : Bytes) : Bool :=
  u32 b 0xFC == crc32c (b.take 0xFC) && u32 b 0 == 0x5459424F && u16 b 4 == 1 && zeroAt b 6 2 && zeroAt b 0x11 3 &&
    zeroAt b 0x31 203 && decide (1 ≤ u32 b 8) && decide (u32 b 8 ≤ 0xFFFFFFFE) && obFlds.all (fun f => f.ok b) &&
    decide (obTjStop.raw b + 160 ≤ obTjReset.raw b)

/-- What the Reckoner takes of the two copies: the bytes, stale, one copy (R98). -/
def State.obChoose (s : State) : Option Bytes × Bool × Bool :=
  let a := s.fread 0 0 256
  let b := s.fread 1 0 256
  match obValid a, obValid b with
  | true, true =>
    if a = b then (some a, false, false)
    else if u32 a 8 = u32 b 8 then (none, false, false)
    else (some (if u32 b 8 < u32 a 8 then a else b), true, false)
  | true, false => (some a, false, true)
  | false, true => (some b, false, true)
  | false, false => (none, false, false)

/-! ## Protected records (R112 to R116) -/

/-- The revocation and minimum-version record of a device, where it is valid (R114). -/
def State.revminCopy (s : State) (dev : Nat) : Option Bytes :=
  let b := s.fread dev 0x1000 0x50
  if u32 b 0 = 0x4E4D5652 ∧ u16 b 4 = 1 ∧ zeroAt b 6 2 ∧ 1 ≤ u32 b 8 ∧ u32 b 8 ≤ 0xFFFFFFFE ∧ zeroAt b 0xD 3 ∧ zeroAt b 0x1C 4 ∧
      digestAt b 0x20 = Config.deviceHmac (b.take 0x20) then some b else none

/-- The record in use: the valid copy of the higher GENERATION (R114). -/
def State.revmin (s : State) : Option Bytes :=
  match s.revminCopy 0, s.revminCopy 1 with
  | some a, some b => some (if u32 a 8 < u32 b 8 then b else a)
  | some a, none => some a
  | none, x => x

/-- A record with its TAG (R114). -/
def revminBytes (gen revoked fw st site : Nat) : Bytes :=
  let b := leBytes 4 0x4E4D5652 ++ leBytes 2 1 ++ zeros 2 ++ leBytes 4 gen ++ leBytes 1 revoked ++ zeros 3 ++ leBytes 4 fw ++
    leBytes 4 st ++ leBytes 4 site ++ zeros 4
  b ++ digestBytes (Config.deviceHmac b)

/-- The key hash table of a device, where it is valid (R113). -/
def State.keyCopy (s : State) (dev : Nat) : Option Bytes :=
  let b := s.fread dev 0x2000 0x340
  if u32 b 0 = 0x5459454B ∧ u16 b 4 = 1 ∧ zeroAt b 6 10 ∧ digestAt b 0x310 = Config.deviceHmac (b.take 0x310) then some b else none

/-- Entry i of a key hash table. -/
def keyEntry (b : Bytes) (i : Nat) : Bytes := slice b (0x10 + 128 * i) 128

/-- Valid copies of the key hash table. -/
def State.keyTables (s : State) : List Bytes := [0, 1].filterMap s.keyCopy

/-- Index of a slot in the layout of KEY_ENABLE: firmware 0-3, structure 4-5 (R97). -/
def keyIdx (cls slot : Nat) : Nat := if cls = 2 then 4 + slot else slot

/-- KEY_ENABLE in force. -/
def State.keyEnable (s : State) : Nat := obKeyEnable.nat s.optBytes

/-- A key slot is enabled and not revoked. -/
def State.slotOpen (s : State) (i : Nat) : Bool := s.keyEnable.testBit i && !s.ob.revoked.getLsbD i

/-- A key slot is provisioned in a valid table copy. -/
def State.provisioned (s : State) (cls slot : Nat) : Option Bytes :=
  (s.keyTables.map fun b => keyEntry b (keyIdx cls slot)).find? fun e => u8 e 0 == cls && u8 e 1 == slot && u8 e 2 == 1

/-- A key slot is usable for a signature block (R115). -/
def State.keyUsable (s : State) (cls slot : Nat) (sig : Bytes) : Bool :=
  (if cls = 2 then decide (slot < 2) else cls == 1 && decide (slot < 4)) && s.slotOpen (keyIdx cls slot) &&
    match s.provisioned cls slot with
    | some e => digestAt e 8 == Config.sha384 (slice sig 0x10 384) && digestAt e 0x38 == Config.sha384 (slice sig 0x190 32)
    | none => false

/-- KEY_STATE: usable slots, as far as no signature block decides (R508). -/
def State.keyState (s : State) : Nat :=
  maskOf ((List.range 6).filter fun i => s.slotOpen i &&
    (if i < 4 then s.provisioned 1 i else s.provisioned 2 (i - 4)).isSome)

/-! ## Images (R117, R118) -/

def manType (m : Bytes) : Nat := u8 m 6
def manKey (m : Bytes) : Nat := u8 m 7
def manVersion (m : Bytes) : Nat := u32 m 8
def manLength (m : Bytes) : Nat := u32 m 0xC
def manBlocks (m : Bytes) : Nat := u16 m 0x10
def manLoad (m : Bytes) : Nat := u16 m 0x12
def manHash (m : Bytes) (n : Nat) : Digest := digestAt m (0x80 + 48 * n)
/-- The signed part of a manifest. -/
def manSigned (m : Bytes) : Bytes := m.take (0x80 + 48 * manBlocks m)
def manSig (m : Bytes) : Bytes := slice m (0x80 + 48 * manBlocks m) sigLen
/-- Bytes of a manifest with its signature block. -/
def manLen (m : Bytes) : Nat := 0x80 + 48 * manBlocks m + sigLen
/-- The manifest digest (R117). -/
def manDigest (m : Bytes) : Digest := Config.sha384 (manSigned m)

/-- Most blocks of an image type. -/
def maxBlocks (typ : Nat) : Nat := if typ = 1 then 960 else if typ = 2 then 63 else 127

/-- The build record in use: of flash 0 where it is valid, else of flash 1 (R43, R110). -/
def State.buildRecord (s : State) : Bytes :=
  let a := s.fread 0 0x3000 49152
  if Config.buildValid a then a else s.fread 1 0x3000 49152

/-- The board revision that the build record in use lists (R43). -/
def State.boardRevision (s : State) : Nat := (Config.buildRevision s.buildRecord).toNat

/-- Grade and board revision allowed (R50, R117). -/
def State.hwOk (s : State) (grade lo hi : Nat) : Bool :=
  grade.testBit (if Config.gradeM2C then 1 else 0) && decide (lo ≤ s.boardRevision) && decide (s.boardRevision ≤ hi)

/-- The checks of a manifest for an image type, in the order of R538's levels: the status of the first that fails. `none` as
minimum asks for no version check (Plaster). LOAD_BLOCKS out of range, and a PAIR_PROTO, ENTRY_OFFSET or SITE_MATCH that is not 0 in
a type that has none, are FORMAT 0x10 (DESIGN CHOICE, log 104: R144 names no status for them). -/
def State.manCheck (s : State) (m : Bytes) (typ : Nat) (minVer : Option Nat) : Option Nat :=
  if u32 m 0 ≠ 0x464D5746 ∨ u16 m 4 ≠ 1 ∨ manType m ≠ typ ∨ 4 ≤ u8 m 0x18 ∨ u8 m 0x1B ≠ 0 ∨ !zeroAt m 0x68 24 then some 0x10
  else if typ = 3 ∧ (u16 m 0x1E ≠ 0 ∨ u32 m 0x14 ≠ 0) then some 0x10
  else if typ ≠ 3 ∧ !zeroAt m 0x20 32 then some 0x10
  else if manBlocks m = 0 ∨ maxBlocks typ < manBlocks m ∨ manBlocks m ≠ (manLength m + 65535) / 65536 then some 0x11
  else if (typ = 1 ∧ (manLoad m = 0 ∨ 64 < manLoad m)) ∨ (typ = 2 ∧ manLoad m ≠ manBlocks m) ∨ (typ = 3 ∧ manLoad m ≠ 0) then
    some 0x10
  else if !sigFormat (manSig m) 0x47535746 then some 0x10
  else if !s.hwOk (u8 m 0x18) (u8 m 0x19) (u8 m 0x1A) then some 0x16
  else if !s.keyUsable 1 (manKey m) (manSig m) then some 0x22
  else if minVer.any fun v => decide (manVersion m < v) then some 0x23
  else if !sigRsaOk (manSig m) (manSigned m) then some 0x20
  else if !sigSlhOk (manSig m) (manSigned m) then some 0x21
  else none

/-- Bytes of block n of an image of a length. -/
def imgBlock (img : Bytes) (len n : Nat) : Bytes := slice img (65536 * n) (min 65536 (len - 65536 * n))

/-- The first block, of the first k, that does not match its hash. -/
def badBlock (m img : Bytes) (k : Nat) : Option Nat :=
  (List.range (min k (manBlocks m))).find? fun n => Config.sha384 (imgBlock img (manLength m) n) != manHash m n

/-- Where an image area stands: device and offset. Areas by SLOT_SEL (R508): 0 and 1 slots, 2 and 3 Plaster copies; site store
entries 0-7 by device below. -/
def slotOff : Nat := 0x00800000
def plasterOff : Nat := 0x00010000
def storeOff (e : Nat) : Nat := 0x06000000 + 0x800000 * e
/-- Sizes of the areas. -/
def slotSize : Nat := 0x4000000
def plasterSize : Nat := 0x400000
def storeSize : Nat := 0x800000

/-- The install record of an area, where it is valid (R118). -/
def State.install (s : State) (dev off : Nat) : Option Bytes :=
  let b := s.fread dev off 0x44
  if u32 b 0 = 0x54534E49 ∧ zeroAt b 4 4 ∧ 1 ≤ u32 b 8 ∧ u32 b 8 ≤ 0xFFFFFFFE ∧ u32 b 0x40 = crc32c (b.take 0x40) then some b
  else none

/-- The manifest in an area. -/
def State.manifestAt (s : State) (dev off : Nat) : Bytes :=
  let h := s.fread dev (off + 0x1000) 0x80
  if u32 h 0 = 0x464D5746 then s.fread dev (off + 0x1000) (min (manLen h) 61440) else h

/-- The first `k` image blocks in an area. -/
def State.blocksAt (s : State) (dev off k : Nat) : Bytes := s.fread dev (off + 0x10000) (65536 * k)

/-- The status of a whole check of an area: its manifest and its first `k` blocks (all of them with none). -/
def State.areaCheck (s : State) (dev off typ : Nat) (minVer : Option Nat) (k : Option Nat) : Option Nat :=
  let m := s.manifestAt dev off
  match s.manCheck m typ minVer with
  | some c => some c
  | none =>
    let k := k.getD (manBlocks m)
    if (badBlock m (s.blocksAt dev off k) k).isSome then some 0x17 else none

/-- Slot A (0) or B (1) has a valid install record. -/
def State.installed (s : State) (k : Nat) : Bool := (s.install k slotOff).isSome

/-- INSTALL_COUNT of a slot, 0 without one. -/
def State.installCount (s : State) (k : Nat) : Nat := (s.install k slotOff).elim 0 fun b => u32 b 8

/-- Why a slot is not usable, with its loaded blocks: a code of R144, 0x4B EXCLUDED, or none (R123). A slot without a valid install
record is empty (R118). -/
def State.slotCheck (s : State) (k : Nat) : Option Nat :=
  if !s.installed k then some 0x10
  else if s.led.excluded.getLsbD k then some 0x4B
  else s.areaCheck k slotOff 1 (some s.ob.minFw) (some (manLoad (s.manifestAt k slotOff)))

/-- Why a Plaster copy is not usable (R123): no minimum-version check. R118 calls a slot without a valid install record empty; of a
Plaster copy or a site store copy it says nothing, and their manifests and blocks stand on their own (DESIGN CHOICE, log 103). -/
def State.plasterCheck (s : State) (c : Nat) : Option Nat := s.areaCheck c plasterOff 2 none none

/-- A site store entry's valid copy: fully verified, key usable, at or above the minimum (R137; its install record is not
asked, log 103). -/
def State.storeCopy (s : State) (e : Nat) : Option Nat :=
  [0, 1].find? fun dev => s.areaCheck dev (storeOff e) 3 (some s.ob.minSite) none == none

/-- The match of the template a site has adopted (R137, R161). -/
def State.siteMatch (s : State) (n : Nat) : Option Bytes :=
  if (s.site n).template = 0xFF then none else some (slice (tplOf (s.sec 0x02) (s.site n).template) 0x20 32)

/-- The store entry that matches a site: the highest VERSION, on a tie the lowest entry, with its copy (R137). -/
def State.matchingEntry (s : State) (n : Nat) : Option (Nat × Nat) :=
  match s.siteMatch n with
  | none => none
  | some mt =>
    (List.range 8).foldl (fun (best : Option (Nat × Nat)) e => match s.storeCopy e with
      | none => best
      | some dev =>
        let m := s.manifestAt dev (storeOff e)
        if slice m 0x20 32 ≠ mt then best
        else match best with
          | none => some (e, dev)
          | some (b, d) => if manVersion (s.manifestAt d (storeOff b)) < manVersion m then some (e, dev) else best) none

/-- An area written whole: record sector erased first, manifest and blocks, then the install record (R118). -/
def State.writeArea (s : State) (dev off size count : Nat) (man img : Bytes) : State :=
  let s := (s.ferase dev off size).fwrite dev (off + 0x1000) man
  let s := s.fwrite dev (off + 0x10000) (img.take (manLength man))
  let rec_ := leBytes 4 0x54534E49 ++ zeros 4 ++ leBytes 4 count ++ leBytes 4 man.length ++ digestBytes (manDigest man)
  s.fwrite dev off (rec_ ++ leBytes 4 (crc32c rec_))

end Sys2Proof.Machine
end

