-- ==== Sys2Proof/Machine/MaqCheck.lean ====
section
/-!
DEFINITION. Machine/MaqCheck.lean: the Maquette's container and every check of it, in the precedence of R538: header, directory
and signature block, the two signatures, then the lowest failing section (R49 to R64, and each chapter's content rules).
-/
namespace Sys2Proof.Machine

/-- The sections of a Maquette, by ID: empty where absent. -/
abbrev Secs := Nat → Bytes

/-- A content check: the sections it spans, the pin it names (R64), and whether it holds. -/
structure SecCheck where
  secs : List Nat
  pin : Option Nat := none
  ok : Bool

/-! ## PIN_MATRIX (R62 to R64) -/

def pinEntry (b : Bytes) (k : Nat) : Nat := u32 b (4 * k)
def pinFunc (e : Nat) : Nat := e / 2 ^ 24
def pinInst (e : Nat) : Nat := e / 2 ^ 16 % 256
def pinSignal (e : Nat) : Nat := e / 2 ^ 12 % 16
def pinMode (e : Nat) : Nat := e / 2 ^ 8 % 16
def pinScope (e : Nat) : Nat := e % 256

/-- Modes, instances and signals a function allows, and its pins: 0 any, 1 its own Warden's, 2 the Plinth's (R62, R63). -/
def funcRule (f : Nat) : Option (List Nat × Nat × Nat × Nat) :=
  let out := [3, 4]
  let inp := [1, 2]
  if f = 0 then some ([0], 1, 1, 0) else if f = 1 then some (out, 8, 16, 1) else if f = 2 then some (inp, 8, 16, 1)
  else if f = 3 then some (out, 8, 3, 1) else if f = 4 then some (inp, 8, 1, 1) else if f = 5 ∨ f = 7 then some (out, 32, 1, 2)
  else if f = 6 then some (inp, 32, 1, 2) else if f = 8 then some (out, 8, 1, 2) else if f = 9 then some (inp, 8, 1, 2)
  else if f = 0xA then some (out, 16, 1, 2) else if f = 0xB ∨ f = 0xC then some (inp, 16, 1, 2)
  else if f = 0xD ∨ f = 0xE then some (inp, 32, 1, 2) else if f = 0xF then some ([4], 1, 1, 2)
  else if f = 0x10 then some (inp, 256, 1, 0) else if f = 0x11 then some (out, 256, 1, 0) else none

/-- A pin's entry is in order, by itself (R62 to R64). -/
def pinOk (k e : Nat) : Bool :=
  match funcRule (pinFunc e) with
  | none => false
  | some (modes, insts, sigs, place) =>
    modes.contains (pinMode e) && decide (pinInst e < insts) && decide (pinSignal e < sigs) &&
      (if place = 1 then k / 64 == pinInst e else if place = 2 then decide (512 ≤ k) else true) &&
      pinScope e == (if pinFunc e = 0 then 0xFF else if pinFunc e ≤ 4 then pinInst e else 8)

/-- The first pin that breaks R64, a repeated function being broken by its second pin. -/
def badPin (b : Bytes) : Option Nat :=
  (List.range 640).find? fun k =>
    let e := pinEntry b k
    !pinOk k e || (pinFunc e != 0 && (List.range k).any fun j => pinEntry b j / 2 ^ 12 == e / 2 ^ 12)

/-- Some pin carries a function's instance and signal. -/
def hasPin (b : Bytes) (f inst sig : Nat) : Bool :=
  (List.range (b.length / 4)).any fun k => pinEntry b k / 2 ^ 12 == f * 2 ^ 12 + inst * 16 + sig

/-! ## Rail nodes (R145 to R147, R158, R159, R161) -/

/-- A graph over `n` rails has no cycle: peeling rails whose dependencies are all peeled leaves none. -/
def acyclic (deps : Nat → Nat) (n : Nat) : Bool :=
  let step (m : Nat) : Nat := maskOf ((bitsOf n m).filter fun k => deps k &&& m != 0)
  (List.range n).foldl (fun m _ => step m) (2 ^ n - 1) == 0

/-- Nodes of one scope are in order by themselves: `n` rails. -/
def nodesOk (node : Nat → Bytes) (n : Nat) : Bool :=
  let ks := List.range n
  let used := maskOf (ks.filter fun k => ndUsed (node k))
  let up (k : Nat) : Nat := if used.testBit k then ndUpDeps (node k) else 0
  let down (k : Nat) : Nat := if used.testBit k then ndDownDeps (node k) else 0
  ks.all (fun k => (node k).length == 64 && nodeFlds.all (fun f => f.ok (node k)) && u8 (node k) 0x0D == 0 && zeroAt (node k) 0x30 16 &&
      (if u8 (node k) 2 = 1 ∨ u8 (node k) 6 = 1 then decide (8 ≤ u8 (node k) 4) && decide (u8 (node k) 4 ≤ 0x77) else u8 (node k) 4 == 0) &&
      (decide (u8 (node k) 5 ≤ 0x1F) || u8 (node k) 5 == 0xFF) && !(u8 (node k) 6 == 1 && (ndPgLow (node k) || u8 (node k) 7 != 0))) &&
    ks.all (fun k => !used.testBit k ||
      ((up k ||| down k) &&& used == (up k ||| down k) &&
       (let dep := closeUp up n n (2 ^ k)
        (ndReaction.val (node k) != 1 || (bitsOf n dep).all fun j => j == k || ndTolerant (node j)) &&
        (let g := ndGroup (node k)
         g.testBit k && closeUp up n n g &&& g == closeUp up n n g)))) &&
    acyclic up n && acyclic down n &&
    ks.all fun k => ks.all fun j => !(used.testBit k && used.testBit j && u8 (node k) 6 == 0 && u8 (node j) 6 == 0 &&
      u8 (node k) 7 == u8 (node j) 7 && ndPgLow (node k) != ndPgLow (node j))

/-- Allowed sites of a template. -/
def tplSites (t : Bytes) : List Nat := bitsOf 8 (tplAllowed t)

/-- Templates of a section. -/
def tpls (b : Bytes) : List Bytes := (List.range (b.length / tplSize)).map (tplOf b)

def templateOk (t : Bytes) (k : Nat) : Bool :=
  tplFlds.all (fun f => f.ok t) && u8 t 0 == k && u8 t 5 == 0 && zeroAt t 8 24 && nodesOk (tplNode t) 32 &&
    ((List.range 32).all fun r => decide (u8 (tplNode t r) 3 ≤ 15) && decide (u8 (tplNode t r) 7 ≤ 15)) &&
    decide (((List.range 32).filter fun r => ndUsed (tplNode t r) && u8 (tplNode t r) 6 == 1).length ≤ 6)

/-- Enable and power-good lines of a template's USED rails are assigned for each allowed site. -/
def tplPinsOk (pins t : Bytes) : Bool :=
  (List.range 32).all fun r =>
    let d := tplNode t r
    !ndUsed d || (tplSites t).all fun n => (u8 d 2 != 0 || hasPin pins 1 n (u8 d 3)) && (u8 d 6 != 0 || hasPin pins 2 n (u8 d 7))

/-- Number of channels of an owner and kind. -/
def chansOf (map : Bytes) (owner kind : Nat) : Nat :=
  ((List.range (map.length / 8)).filter fun c => mapOwner (mapEntry map c) == owner && mapKind (mapEntry map c) == kind).length

/-- Every USED rail of each allowed site has one voltage channel. -/
def tplChansOk (map t : Bytes) : Bool :=
  (List.range 32).all fun r => !ndUsed (tplNode t r) || (tplSites t).all fun n => chansOf map (32 * n + r) 1 == 1

def moduleRailsOk (b : Bytes) : Bool :=
  let node (k : Nat) : Bytes := slice b (64 * k) 64
  b.length == 1536 && nodesOk node 24 &&
    (List.range 24).all fun k =>
      let d := node k
      decide (ndUpDeps d < 2 ^ 24) && decide (ndDownDeps d < 2 ^ 24) && decide (ndGroup d < 2 ^ 24) && u8 d 2 == 0 && u8 d 6 == 0 &&
        u8 d 3 == k && u8 d 7 == k && u8 d 0xB != 3 && (!standbyRail k || u8 d 0xB == 0) && ndUpDeps d == builtinUp k &&
        ndDownDeps d == builtinDown k

/-! ## SURVEY_MAP and SURVEY_WINDOWS (R172, R173) -/

def mapOk (e : Bytes) : Bool :=
  let o := mapOwner e
  let k := mapKind e
  decide (k ≤ 4) && decide (u8 e 3 ≤ 2) &&
    (if k = 0 then o == 0xFFFF
     else decide (1 ≤ mapNomK e) && decide (mapNomK e ≤ 0x7FFFFFFF) &&
      (if k ≤ 2 then decide (o ≤ 279) else if k = 3 then decide (o ≤ 255) else decide (o ≤ 279) || o == 0xFFFF))

/-- The limits of a window are in order, in the encoding of its channel's kind (R173). -/
def winOrder (w : Bytes) (kind : Nat) : Bool :=
  decide (winLimit w 0 kind ≤ winLimit w 4 kind) && decide (winLimit w 4 kind ≤ winLimit w 6 kind) &&
    decide (winLimit w 6 kind ≤ winLimit w 2 kind)

/-- The other fields of a window (R173). -/
def winOk (w : Bytes) : Bool :=
    decide (u16 w 8 ≤ 1000) && decide (u8 w 0xA ≤ 15) && decide (u8 w 0xB < 16) && zeroAt w 0xC 4

def mapAt (s : Secs) (c : Nat) : Bytes := mapEntry (s 4) c
def winAt (s : Secs) (c : Nat) : Bytes := slice (s 5) (16 * c) 16

/-! ## Zones and cooling (R270 to R277, R294, R295) -/

def fldsOk (l : List Fld) (b : Bytes) : Bool := l.all fun f => f.ok b

def zoneEntOk (e : Bytes) : Bool :=
  decide (u8 e 0 ≤ 1) && fldsOk [znExcl, znLo, znHi, znRate] e && ((List.range 8).all fun k => (znBand k).ok e) && zeroAt e 3 1 &&
    zeroAt e 9 3 && zeroAt e 0x12 2 && zeroAt e 0x34 12 && decide (znLo.val e < znHi.val e) &&
    (let refs := ((List.range 8).map (znSlot e)).filter fun r => r != 0xFFFF
     (!znUsed e || decide (3 ≤ refs.length)) && refs.all (fun r => decide (r < 0x110) || r == 0x120) &&
       refs.all fun r => decide ((refs.filter fun q => q == r).length = 1))

/-- Survey sensors named by zones stand in SURVEY_MAP. -/
def zoneSensorsOk (s : Secs) : Bool :=
  (List.range 16).all fun z => (List.range 8).all fun k =>
    let r := znSlot (zoneEntry (s 6) z) k
    decide (0xFF < r) || (chanIn (s 4) r 3).isSome

/-- Every USED fan and pump belongs to a zone. -/
def zonedOk (s : Secs) : Bool :=
  (List.range 40).all fun c => !entryUsed (fanEntry (s 8) c) || (List.range 16).any fun z =>
    let e := zoneEntry (s 6) z
    znUsed e && (if c < 32 then (znFans e).testBit c else (znPumps e).testBit (c - 32))

def limitsOk (e : Bytes) : Bool :=
  lmMargin.ok e && decide (lmColdDp e ≤ 32000000) && lmColdDt.ok e && lmColdWin.ok e && zeroAt e 0xC 20

def fanEntOk (c : Nat) (e : Bytes) : Bool :=
  decide (u8 e 0 < 8) && (decide (c < 32) || !(u8 e 0).testBit 1) && fnPulses.ok e &&
    (if (u8 e 0).testBit 1 then decide (u8 e 2 = 0 ∨ 20 ≤ u8 e 2 ∧ u8 e 2 ≤ 160) else u8 e 2 == 0) && zeroAt e 3 1 &&
    (!entryUsed e || (if (u8 e 0).testBit 2 then decide (u16 e 4 ≤ 383) else u16 e 4 == 0xFFFF)) && decide (u16 e 6 ≤ u16 e 8) &&
    zeroAt e 0xA 2 && (if c < 32 then u8 e 0xC == 0 else !entryUsed e || decide (u8 e 0xC ≤ 15) || u8 e 0xC == 0xFF) && zeroAt e 0xD 19

def valveEntOk (e : Bytes) : Bool :=
  decide (u8 e 0 < 8) && zeroAt e 1 1 && vlTravel.ok e && zeroAt e 6 10 && (!entryUsed e || u16 e 2 != 0)
def meterEntOk (e : Bytes) : Bool :=
  decide (u8 e 0 ≤ 1) && zeroAt e 1 1 && mtLoss.ok e && zeroAt e 0xC 4 &&
    (!entryUsed e || (u16 e 2 != 0 && decide (1 ≤ u32 e 4) && decide (u32 e 4 ≤ 1000000)))
def pressEntOk (e : Bytes) : Bool :=
  decide (u8 e 0 ≤ 1) && zeroAt e 1 1 &&
    (!entryUsed e || (decide (u16 e 2 ≤ 383) && decide (1 ≤ u32 e 8) && decide (1 ≤ u16 e 0xC) && u16 e 0xE != 0))

def topoOk (b : Bytes) : Bool :=
  b.length == 1920 && (List.range 40).all (fun c => fanEntOk c (fanEntry b c)) && (List.range 16).all (fun v => valveEntOk (valveEntry b v)) &&
    (List.range 16).all (fun m => meterEntOk (meterEntry b m)) && (List.range 8).all fun p => pressEntOk (pressEntry b p)

/-- Pins of the cooling functions, and of channels in use alone (R273). -/
def topoPinsOk (s : Secs) : Bool :=
  let p (f n : Nat) : Bool := hasPin (s 1) f n 0
  (List.range 32).all (fun c =>
      let e := fanEntry (s 8) c
      let sw := (u8 e 0).testBit 1
      if entryUsed e then p 6 c && (if sw then p 7 c else p 5 c) else !p 5 c && !p 6 c && !p 7 c) &&
    (List.range 8).all (fun c => let u := entryUsed (fanEntry (s 8) (32 + c))
                                 p 8 c == u && p 9 c == u) &&
    (List.range 16).all (fun v => let u := entryUsed (valveEntry (s 8) v)
                                  p 0xA v == u && p 0xB v == u) &&
    (List.range 16).all fun m => p 0xC m == entryUsed (meterEntry (s 8) m)

/-- CURR_CHAN and CHAN name channels of KIND 0x04. -/
def topoChansOk (s : Secs) : Bool :=
  (List.range 40).all (fun c => let e := fanEntry (s 8) c
                                !(entryUsed e && (u8 e 0).testBit 2) || mapKind (mapAt s (u16 e 4)) == 4) &&
    (List.range 8).all fun k => let e := pressEntry (s 8) k
                                !entryUsed e || mapKind (mapAt s (u16 e 2)) == 4

def ctlAt (b : Bytes) (c : Nat) : Bytes := slice b (0x40 + 64 * c) 64
def curveAt (b : Bytes) (z : Nat) : Bytes := slice b (0xA40 + 64 * z) 64

def curvesOk (b : Bytes) : Bool :=
  b.length == 3648 && clWdt.ok b && zeroAt b 1 63 &&
    (List.range 40).all (fun c => let e := ctlAt b c
      fldsOk [ctKp, ctKi, ctUp, ctDown] e && zeroAt e 0xC 4 && zeroAt e 0x20 32 &&
        (List.range 4).all fun k => decide (u16 e (0x10 + 4 * k) ≤ u16 e (0x12 + 4 * k))) &&
    (List.range 16).all fun z => let e := curveAt b z
      zeroAt e 0x20 32 && (List.range 8).all fun p => decide (u16 e (4 * p + 2) ≤ 1000)

/-- Speeds of the USED fans and pumps, and curves of the USED zones (R277). -/
def curveSpeedsOk (s : Secs) : Bool :=
  (List.range 40).all fun c =>
    let e := ctlAt (s 9) c
    let f := fanEntry (s 8) c
    !entryUsed f || (decide (100 ≤ ctMin e) && decide (ctMin e ≤ ctMax e) && decide (1500 ≤ ctMin e * fnPulses.nat f))
def curvePointsOk (s : Secs) : Bool :=
  (List.range 16).all fun z => !znUsed (zoneEntry (s 6) z) ||
    (List.range 7).all fun p => decide (sle (curveAt (s 9) z) (4 * p) 2 < sle (curveAt (s 9) z) (4 * p + 4) 2)

/-! ## Hazards (R307, R310) -/

def leakOk (b : Bytes) : Bool :=
  b.length == 512 && (List.range 48).all fun n =>
    let e := leakEntry b n
    decide (u8 e 0 ≤ 1) && decide (lkZone e ≤ 15) && lkQualify.ok e && zeroAt e 3 (if n < 16 then 13 else 5)

def leakPinsOk (s : Secs) : Bool :=
  (List.range 32).all fun n => !lkUsed (leakEntry (s 0xA) (16 + n)) || (hasPin (s 1) 0xD n 0 && hasPin (s 1) 0xE n 0)

def leakZonesOk (s : Secs) : Bool :=
  (List.range 48).all fun n => let e := leakEntry (s 0xA) n
    !lkUsed e || znUsed (zoneEntry (s 6) (lkZone e))

def leakPairsOk (b : Bytes) : Bool :=
  (List.range 16).all fun z =>
    decide (((List.range 48).filter fun n => lkUsed (leakEntry b n) && lkZone (leakEntry b n) == z).length ≠ 1)

def hazardOk (b : Bytes) : Bool :=
  b.length == 128 && fldsOk hazardFlds b && decide (hzNote.val b ≤ hzBrace.val b) && zeroAt b 0xB 21 && zeroAt b 0x60 32 &&
    (List.range 16).all fun z => (hzReaction z).ok b && zeroAt b (0x21 + 4 * z) 3

/-! ## CAPS, CHISEL, GAUGE_SLOTS, ROLE (R205, R206, R244, R328, R388, R478) -/

def capsFloors (b : Bytes) : Nat := ((List.range 8).map fun n => u32 (capEntry b n) 0).foldl (· + ·) 0 + u32 b 8

def capsOk (b : Bytes) : Bool :=
  b.length == 320 && fldsOk capsFlds b && zeroAt b 0x1C 36 && decide (cpLevelV.val b ≤ cpLevel2.val b) && decide (cpLevelI.val b ≤ cpLevel2.val b) &&
    decide (capsFloors b ≤ u32 b 0) && decide (capsFloors b ≤ u32 b 4) && decide (u32 b 4 ≤ u32 b 0) &&
    (List.range 8).all fun n => let e := capEntry b n
      fldsOk capSiteFlds e && decide (u32 e 0 ≤ u32 e 4) && zeroAt e 0xB 21

/-- METER_RAIL has both channels wherever a template is allowed for the site (R206). -/
def meterChansOk (s : Secs) : Bool :=
  (List.range 8).all fun n => !(tpls (s 2)).any (fun t => (tplAllowed t).testBit n) ||
    (let g := 32 * n + cpMeterRail.nat (capEntry (s 0xC) n)
     (chanIn (s 4) g 1).isSome && (chanIn (s 4) g 2).isSome)

def chiselOk (b : Bytes) : Bool :=
  b.length == 1024 && (List.range 8).all fun n =>
    let e := chiselEntry b n
    fldsOk chFlds e && zeroAt e 6 2 && zeroAt e 0x1E 2 && zeroAt e 0x78 8 && chWeight e 11 == 0 &&
      (List.range 8).all fun k => decide (chMin e k ≤ chCeil e k) && decide (chCeil e k ≤ 4000000)

def chiselFloorsOk (s : Secs) : Bool :=
  (List.range 8).all fun n =>
    let e := chiselEntry (s 0xD) n
    decide (((List.range 8).map (chMin e)).foldl (· + ·) 0 + u32 e 0x18 ≤ u32 (capEntry (s 0xC) n) 0)

/-- A Gauge reference is one of R389. -/
def gaugeRefOk (r : Nat) : Bool :=
  decide (r < 0x180) || (decide (0x200 ≤ r) && decide (r < 0x228)) || (decide (0x260 ≤ r) && decide (r < 0x278)) ||
    (decide (0x280 ≤ r) && decide (r < 0x298)) || (decide (0x300 ≤ r) && decide (r < 0x328)) || r == 0x400

def gaugeRefs (b : Bytes) : List Nat :=
  (List.range 8).flatMap fun n => let e := gaugeEntry b n
    if gaugeUsed e then (List.range (min 16 (ggInputs.nat e))).map (ggRef e) else []

def gaugeOk (b : Bytes) : Bool :=
  b.length == 1024 && (List.range 8).all (fun n => let e := gaugeEntry b n
    decide (u8 e 0 ≤ 1) && zeroAt e 5 3 && (!gaugeUsed e || (fldsOk ggFlds e && decide (ggInputs.nat e * ggHistory.nat e ≤ 256)))) &&
    (gaugeRefs b).all gaugeRefOk

def gaugeChansOk (s : Secs) : Bool := (gaugeRefs (s 0xE)).all fun r => decide (0x180 ≤ r) || mapKind (mapAt s r) != 0
def gaugeCoolOk (s : Secs) : Bool := (gaugeRefs (s 0xE)).all fun r =>
  if 0x200 ≤ r ∧ r < 0x228 then entryUsed (fanEntry (s 8) (r - 0x200))
  else if 0x300 ≤ r ∧ r < 0x328 then entryUsed (fanEntry (s 8) (r - 0x300))
  else if 0x260 ≤ r ∧ r < 0x270 then entryUsed (meterEntry (s 8) (r - 0x260))
  else if 0x270 ≤ r ∧ r < 0x278 then entryUsed (pressEntry (s 8) (r - 0x270))
  else true
def gaugeZonesOk (s : Secs) : Bool := (gaugeRefs (s 0xE)).all fun r =>
  !(decide (0x280 ≤ r) && decide (r < 0x290)) || znUsed (zoneEntry (s 6) (r - 0x280))

def roleOk (b : Bytes) : Bool :=
  b.length == 64 && fldsOk [roleMode, roleBayPref, roleDetect, roleHold] b && zeroAt b 3 1 && zeroAt b 5 27 && fldsOk ptFlds b &&
    zeroAt b 0x25 1 && zeroAt b 0x2C 20 && (if u8 b 0x20 = 1 then u16 b 0x22 == 0 else u16 b 0x22 != 0) &&
    (bitsOf 4 (u8 b 0x21)).all fun k => decide (childOf (u16 b 0x22) k ≤ 340)

/-! ## Every content check, and scopes (R61) -/

/-- Content checks of the sections that are present. -/
def contentChecks (has : Nat → Bool) (s : Secs) : List SecCheck :=
  let ck (l : List Nat) (ok : Bool) : List SecCheck := if l.all has then [⟨l, none, ok⟩] else []
  (if (s 1).length = 2560 then (match badPin (s 1) with
    | some k => [⟨[1], some k, false⟩]
    | none => []) else ck [1] false) ++
  ck [2] (decide ((s 2).length % tplSize = 0) && decide ((s 2).length ≤ 8 * tplSize) &&
    ((tpls (s 2)).zipIdx.all fun t => templateOk t.1 t.2)) ++
  ck [1, 2] ((tpls (s 2)).all (tplPinsOk (s 1))) ++ ck [2, 4] ((tpls (s 2)).all (tplChansOk (s 4))) ++
  ck [3] (moduleRailsOk (s 3)) ++
  ck [4] ((s 4).length == 3072 && (List.range 384).all fun c => mapOk (mapAt s c)) ++
  ck [5] ((s 5).length == 6144 && (List.range 384).all fun c => winOk (winAt s c)) ++
  ck [4, 5] ((List.range 384).all fun c => winOrder (winAt s c) (mapKind (mapAt s c))) ++
  ck [4, 5] ((List.range 384).all fun c => !(mapKind (mapAt s c) == 2 && (u8 (winAt s c) 0xB).testBit 0)) ++
  ck [6] ((s 6).length == 1024 && (List.range 16).all fun z => zoneEntOk (zoneEntry (s 6) z)) ++ ck [4, 6] (zoneSensorsOk s) ++
  ck [6, 8] (zonedOk s) ++
  ck [7] ((s 7).length == 512 && (List.range 16).all fun z => limitsOk (slice (s 7) (32 * z) 32)) ++
  ck [8] (topoOk (s 8)) ++ ck [1, 8] (topoPinsOk s) ++ ck [4, 8] (topoChansOk s) ++
  ck [9] (curvesOk (s 9)) ++ ck [8, 9] (curveSpeedsOk s) ++ ck [6, 9] (curvePointsOk s) ++
  ck [0xA] (leakOk (s 0xA) && leakPairsOk (s 0xA)) ++ ck [1, 0xA] (leakPinsOk s) ++ ck [6, 0xA] (leakZonesOk s) ++
  ck [0xB] (hazardOk (s 0xB)) ++
  ck [0xC] (capsOk (s 0xC)) ++ ck [2, 4, 0xC] (meterChansOk s) ++
  ck [0xD] (chiselOk (s 0xD)) ++ ck [0xC, 0xD] (chiselFloorsOk s) ++
  ck [0xE] (gaugeOk (s 0xE)) ++ ck [4, 0xE] (gaugeChansOk s) ++ ck [8, 0xE] (gaugeCoolOk s) ++ ck [6, 0xE] (gaugeZonesOk s) ++
  ck [0xF] (roleOk (s 0xF))

/-- Scope of a channel: its rail's site, or the module. -/
def chanScope (e : Bytes) : Nat :=
  if mapKind e = 0 then 0
  else if (mapKind e = 1 ∨ mapKind e = 2) ∧ mapOwner e < 256 then 2 ^ (mapOwner e / 32) else 256

/-- Scope that a section's entries act on, in the layout of SCOPE (R51, R61). Every entry n of CHISEL acts on site n (R244), enabled or
not. DESIGN CHOICE, log 101: ZONES, LEAK_MAP and HAZARD_REACTIONS act on the module alone, and a SURVEY_WINDOWS entry not in use on
nothing. -/
def actScope (s : Secs) (id : Nat) : Nat :=
  if id = 1 then
    (List.range 640).foldl (fun m k => let e := pinEntry (s 1) k
      if pinFunc e = 0 then m else m ||| if pinScope e < 8 then 2 ^ pinScope e else 256) 0
  else if id = 2 then (tpls (s 2)).foldl (fun m t => m ||| tplAllowed t) 0
  else if id = 4 then (List.range 384).foldl (fun m c => m ||| chanScope (mapAt s c)) 0
  else if id = 5 then (List.range 384).foldl (fun m c => if u8 (winAt s c) 0xB % 8 = 0 then m else m ||| chanScope (mapAt s c)) 0
  else if id = 0xC then 0x1FF
  else if id = 0xD then 0xFF
  else 256

/-! ## The container (R49 to R53) -/

/-- Class of a section ID: 1 structural (R60). -/
def secClass (id : Nat) : Option Nat :=
  if [1, 2, 3, 4, 6, 8, 0xA, 0xF].contains id then some 1
  else if [5, 7, 9, 0xB, 0xC, 0xD, 0xE].contains id then some 0 else none

def mqCount (b : Bytes) : Nat := u16 b 6
def mqDir (b : Bytes) (k : Nat) : Bytes := slice b (0x40 + 64 * k) 64
def mqSigOff (b : Bytes) : Nat := 0x40 + 64 * mqCount b
def mqSig (b : Bytes) : Bytes := slice b (mqSigOff b) sigLen
def mqSigned (b : Bytes) : Bytes := b.take (mqSigOff b)
def dirId (d : Bytes) : Nat := u8 d 0
def dirOff (d : Bytes) : Nat := u32 d 4
def dirLen (d : Bytes) : Nat := u32 d 8

/-- Directory entries, lowest section first. -/
def mqDirs (b : Bytes) : List Bytes :=
  sortBy (fun (x y : Bytes) => decide (dirOff x ≤ dirOff y)) ((List.range (mqCount b)).map (mqDir b))

/-- Sections in rising order do not overlap. -/
def dirsApart (total : Nat) : Nat → List Bytes → Bool
  | _, [] => true
  | lo, d :: r => decide (lo ≤ dirOff d) && decide (dirOff d % 16 = 0) && decide (dirOff d + dirLen d ≤ total) &&
      dirsApart total (dirOff d + dirLen d) r

/-- The sections of a Maquette by ID. -/
def mqSecs (b : Bytes) : Secs := fun id =>
  match ((List.range (mqCount b)).map (mqDir b)).find? fun d => dirId d == id with
  | some d => slice b (dirOff d) (dirLen d)
  | none => []

def mqHas (b : Bytes) (id : Nat) : Bool := ((List.range (mqCount b)).map (mqDir b)).any fun d => dirId d == id

/-- The checks of header, directory and signature block (R538 level 1). `srcLen` is SRC_LEN of a STORE. -/
def State.mqHeader (s : State) (b : Bytes) (srcLen : Option Nat) : Option Nat :=
  let dirs := (List.range (mqCount b)).map (mqDir b)
  if u32 b 0 = 0xFFFFFFFF then some 0x38
  else if u32 b 0 ≠ 0x4554514D ∨ u16 b 4 ≠ 1 ∨ 4 ≤ u8 b 0x12 ∨ !zeroAt b 0x15 3 ∨ !sigFormat (mqSig b) 0x4753514D ∨
      dirs.any (fun d => u16 d 2 ≥ 512 || !zeroAt d 0xC 4) then some 0x10
  else if u32 b 8 < 30944 ∨ 262144 < u32 b 8 ∨ mqCount b < 12 ∨ 15 < mqCount b ∨ srcLen.any (fun n => u32 b 8 != n) then some 0x11
  else if !dirsApart (u32 b 8) (mqSigOff b + sigLen) (mqDirs b) ∨
      dirs.any (fun d => secClass (dirId d) != some (u8 d 1) || decide ((dirs.filter fun x => dirId x == dirId d).length ≠ 1)) then
    some 0x12
  else if [1, 3, 4, 5, 6, 7, 8, 9, 0xA, 0xB, 0xC, 0xF].any fun id => !mqHas b id then some 0x15
  else if !s.hwOk (u8 b 0x12) (u8 b 0x13) (u8 b 0x14) then some 0x16
  else if !s.keyUsable 2 (u8 b 0x11) (mqSig b) then some 0x22
  else if u32 b 0xC < s.ob.minStruct then some 0x23
  else none

/-- The first failing check of the sections, lowest section first (R538 level 3): status and section or pin. -/
def mqSections (b : Bytes) : Option (Nat × Nat) :=
  let secs := mqSecs b
  let dirs := mqDirs b
  let offOf (id : Nat) : Nat := (dirs.find? fun d => dirId d == id).elim 0 dirOff
  let checks := (contentChecks (mqHas b) secs).filter fun c => !c.ok
  dirs.findSome? fun d =>
    let id := dirId d
    if Config.sha384 (secs id) ≠ digestAt d 0x10 then some (0x17, id)
    else match checks.find? fun c => c.secs.contains id && c.secs.all fun j => decide (offOf j ≤ dirOff d) with
      | some c => some (0x13, c.pin.getD id)
      | none => if actScope secs id &&& u16 d 2 = actScope secs id then none else some (0x14, id)

/-- The lowest section that stands out of bounds, out of line, or in the one below it. -/
def dirAstray (total : Nat) : Nat → List Bytes → Option Nat
  | _, [] => none
  | lo, d :: r => if lo ≤ dirOff d ∧ dirOff d % 16 = 0 ∧ dirOff d + dirLen d ≤ total then dirAstray total (dirOff d + dirLen d) r
      else some (dirId d)

/-- The section a failed check of the directory names: one with a reserved field that is not 0; one out of bounds, out of line or overlapping; one of an unknown ID or a
wrong class, or listed twice; or the lowest missing ID. 0 otherwise (R84). -/
def mqNames (b : Bytes) (code : Nat) : Nat :=
  let dirs := (List.range (mqCount b)).map (mqDir b)
  if code = 0x12 then
    match dirAstray (u32 b 8) (mqSigOff b + sigLen) (mqDirs b) with
    | some id => id
    | none => (dirs.find? fun d => secClass (dirId d) != some (u8 d 1) ||
        decide ((dirs.filter fun x => dirId x == dirId d).length ≠ 1)).elim 0 dirId
  else if code = 0x10 then
    -- a directory entry's own field, where the header's are good (R84)
    if u32 b 0 ≠ 0x4554514D ∨ u16 b 4 ≠ 1 ∨ 4 ≤ u8 b 0x12 ∨ !zeroAt b 0x15 3 ∨ !sigFormat (mqSig b) 0x4753514D then 0
    else (dirs.find? fun d => u16 d 2 ≥ 512 || !zeroAt d 0xC 4).elim 0 dirId
  else if code = 0x15 then ([1, 3, 4, 5, 6, 7, 8, 9, 0xA, 0xB, 0xC, 0xF].find? fun id => !mqHas b id).getD 0
  else 0

/-- The first failing check of a Maquette, by R538: status, and section ID or pin. -/
def State.mqCheck (s : State) (b : Bytes) (srcLen : Option Nat) : Option (Nat × Nat) :=
  match s.mqHeader b srcLen with
  | some c => some (c, mqNames b c)
  | none =>
    if !sigRsaOk (mqSig b) (mqSigned b) then some (0x20, 0)
    else if !sigSlhOk (mqSig b) (mqSigned b) then some (0x21, 0)
    else mqSections b

/-- The structure a valid Maquette holds. -/
def mqStructure (b : Bytes) : Structure :=
  { version := u32 b 0xC, keySlot := u8 b 0x11, digest := Config.sha384 (mqSigned b)
    secs := (List.range (mqCount b)).map fun k =>
      let d := mqDir b k
      ⟨dirId d, u8 d 1, u16 d 2, digestAt d 0x10, mqSecs b (dirId d)⟩ }

end Sys2Proof.Machine
end

