-- ==== Sys2Proof/Machine/Maquette.lean ====
section
/-!
DEFINITION. Machine/Maquette.lean: profiles in flash, the start load, commits and their blocking sets, and the Maquette load
queue (R57 to R59, R66 to R84).
-/
namespace Sys2Proof.Machine

/-! ## Profiles in flash (R71, R74, R109) -/

/-- Where the copies of a profile stand: device and offset. -/
def profCopies (p : Nat) : List (Nat × Nat) :=
  if p = 0 then [(0, 0x04800000), (1, 0x04800000)]
  else if p = 1 then [(0, 0x04840000)] else if p = 2 then [(1, 0x04840000)] else [(1, 0x04880000)]

/-- A stored Maquette: its header alone where the rest cannot be one, and never less than the least Maquette, so that a TOTAL_LENGTH
too small is seen as such (R538). -/
def State.storedMaq (s : State) (dev off : Nat) : Bytes :=
  let h := s.fread dev off 64
  if u32 h 0 = 0x4554514D then s.fread dev off (max 30944 (min 262144 (u32 h 8))) else h

/-- The checks of each copy of a profile. -/
def State.profChecks (s : State) (p : Nat) : List (Option (Nat × Nat)) :=
  (profCopies p).map fun c => s.mqCheck (s.storedMaq c.1 c.2) none

/-- The first valid copy of a profile (R73). -/
def State.validMaq (s : State) (p : Nat) : Option Bytes :=
  ((profCopies p).map fun c => s.storedMaq c.1 c.2).find? fun b => (s.mqCheck b none).isNone

/-- The profile record: profile, STRUCT_VERSION, CRC-32C (R74; the places of its fields are the model's, log 21). -/
def profRecord (p version : Nat) : Bytes :=
  let b := leBytes 4 p ++ leBytes 4 version ++ zeros 4
  b ++ leBytes 4 (crc32c b)

/-- The profile of the record in use: copy 0 if its CRC is valid, else copy 1 (R110). -/
def State.profRecorded (s : State) : Option Nat :=
  let ok (b : Bytes) : Bool := u32 b 12 == crc32c (b.take 12) && decide (u32 b 0 ≤ 3)
  let c (dev : Nat) : Bytes := s.fread dev 0x04900000 16
  if ok (c 0) then some (u32 (c 0) 0) else if ok (c 1) then some (u32 (c 1) 0) else none

/-- The profile record is written, copy 0 then copy 1 (R74, R110). -/
def State.writeProfRecord (s : State) (p version : Nat) : State :=
  (s.fstore 0 0x04900000 4096 (profRecord p version)).fstore 1 0x04900000 4096 (profRecord p version)

/-! ## Blocking sets (R68, R69) -/

/-- A scope is at its structure point: bits 0-7 sites, bit 8 the module, which reaches its own only at a reset. -/
def State.atPoint (s : State) (k : Nat) : Bool :=
  decide (k < 8) && match (s.site k).st with
    | .absent | .settling | .unmatched | .off | .faulted => true
    | _ => false

/-- Scopes that a change from one structure to another affects in a section. -/
def secChange (a b : Structure) (id : Nat) : Nat :=
  match a.sec id, b.sec id with
  | some x, some y => if x.digest = y.digest then 0 else x.scope ||| y.scope
  | some x, none => x.scope
  | none, some y => y.scope
  | none, none => 0

/-- The blocking set of a target (R69): empty while no structure is committed (R68). -/
def State.blocking (s : State) (target : Structure) : Nat :=
  match s.maq.live with
  | none => 0
  | some m =>
    let ch := [1, 2, 3, 4, 6, 8, 0xA, 0xF].foldl (fun k id => k ||| secChange m target id) 0
    maskOf ((bitsOf 9 ch).filter fun k => !s.atPoint k)

/-! ## Commits (R57, R66, R285, R288, R391) -/

/-- The active structure's key slot is revoked (R59). -/
def State.activeKeyRevoked (s : State) : Bool := s.maq.live.any fun m => s.ob.revoked.getLsbD (keyIdx 2 m.keySlot)

/-- A Pointing manager's ROLE takes effect, at start step 12 and not before (R330): it waits for an ECHO before it sets its count (R336).
A Partner follows the count of its Lead instead (R335). -/
def State.pointingRole (s : State) : State :=
  let begun := (Tbl.find? s.led.cur 12).isSome || (Tbl.find? s.led.kept 12).isSome
  if s.pwr.core && begun && s.pair.st != .partner && s.pnt.st == .free && u8 (s.sec 0x0F) 0x20 == 1 then
    { s with pnt := { s.pnt with st := .manager, waitEcho := true, valid := false } }
  else s

/-- MAQ_BLOCKERS: the blocking set of the pending switch as it stands, or of the last SWITCH that completed BLOCKED (R69, R82). -/
def State.maqBlockers (s : State) : Nat := s.maq.pend.elim s.maq.blockers fun x => s.blocking x.target

/-- The operating settings stay within the bounds of the structure now live: the tray budget, the software floors and ceilings and the
fan targets (R70). -/
def State.reclamp (s : State) : State :=
  let s : State := { s with cap := { s.cap with budget := s.cap.budget.map fun v => (clampTo s.budgetMin (cpCeiling.val s.caps) v).1 } }
  let s := (List.range 8).foldl (fun (s : State) n =>
    let c := s.capS n
    let f (v : Int) : Int := (clampTo (cpFloor.val (s.capOf n)) (cpCeil.val (s.capOf n)) v).1
    s.setCapS n { c with swFloor := c.swFloor.map f, swCeil := c.swCeil.map f }) s
  (List.range 40).foldl (fun (s : State) c =>
    let x := s.fan c
    if x.target ≤ ctMax (s.ctl c) then s else s.setFan c { x with target := ctMax (s.ctl c) }) s

/-- The whole commit of a structure: the live copy is replaced in one step, and each section takes effect as R66 says. -/
def State.commit (s : State) (target : Structure) (p : Nat) : State :=
  let old := s.maq.live.getD {}
  let first := s.maq.live.isNone
  -- a site in Still mode keeps its CAPS entry until the end of the run
  let s := (List.range 8).foldl (fun (s : State) n =>
    let c := s.capS n
    let s := if c.still && c.entry.isNone then s.setCapS n { c with entry := some (s.capOf n) } else s
    s.setChiS n { s.chiS n with recommit := true }) s
  let tplChange := secChange old target 2
  let oldWindows := s.surveyWindows
  let s := { s with maq := { s.maq with live := some target, activeProfile := p, blockers := 0, pend := none }
                    cool := { s.cool with wdtRunning := true, wdtAt := if s.cool.wdtRunning then s.cool.wdtAt else s.plinth }
                    pair := { s.pair with holdWindow := roleHold.nat (((target.sec 0x0F).map Sec.body).getD []) } }
  let s := { s with maq := { s.maq with keyRevoked := s.activeKeyRevoked } }
  let s := (s.calSetAll.reclamp).keepWindows oldWindows
  let s := (List.range 40).foldl (fun (s : State) c =>
    if (s.fan c).mapMax = ctMax (s.ctl c) then s else s.setFan c { s.fan c with map := [], mapMax := ctMax (s.ctl c) }) s
  -- an UNMATCHED site is identified again at every commit of SITE_TEMPLATES (R164)
  let s := (List.range 8).foldl (fun (s : State) n =>
    if (target.sec 2).isSome ∧ (s.site n).st = .unmatched then s.toIdentify n
    else if tplChange = 0 then s
    else match (s.site n).st with
      | .off => if tplChange.testBit n then s.toIdentify n else s
      | _ => if tplChange.testBit n then s.setSite n { s.site n with stale := true } else s) s
  let s := if first then { s with seq := { s.seq with toAdopt := s.pins.present } }.pointingRole else s
  let s := if first && s.pair.outputs then s.startAll else s
  -- the sensors that the structure now uses, unread ones BLIND, judge their zones (R305, R309)
  s.gaugeCommit.leakJudgeAll

/-! ## Verification errors (R84) -/

/-- MAQ_LOAD_ERR is written and one event raised. -/
def State.maqError (s : State) (e : Nat × Nat) : State :=
  { s with maq := { s.maq with errCode := e.1, errWhere := e.2 } }.event 1 84 e.2 e.1

/-- A Maquette load completes: PROFILE at 0x05, DETAIL at 0x08 (R448). -/
def State.maqDone (s : State) (r : Req) (status profile detail : Nat) : State :=
  s.completeAs r status profile 0 (leBytes 4 detail)

/-! ## The start load (R73) -/

/-- Profiles in the order in which the Reckoner tries them. -/
def State.loadOrder (s : State) : List Nat :=
  let p := if s.maq.forceP0 then 0
    else if (u8 s.optBytes 0xC).testBit 0 then s.pins.profile.toNat
    else match s.profRecorded with
      | some p => p
      | none => u8 s.optBytes 0xC / 2 % 4
  (p :: [0, 1, 2, 3].filter fun q => q != p)

/-- The copies of a profile in order, until one passes every check: each failed one writes MAQ_LOAD_ERR and raises one event (R73,
R84). -/
def State.loadCopies (s : State) (p : Nat) : State × Option Bytes :=
  (profCopies p).foldl (fun (x : State × Option Bytes) c =>
    match x.2 with
    | some _ => x
    | none =>
      let b := x.1.storedMaq c.1 c.2
      match x.1.mqCheck b none with
      | none => (x.1, some b)
      | some e => (x.1.maqError e, none)) (s, none)

/-- Profiles tried until one commits. -/
def State.startLoad (s : State) : List Nat → State
  | [] => s
  | p :: rest =>
    let r := s.loadCopies p
    match r.2 with
    | some b => r.1.commit (mqStructure b) p
    | none =>
      r.1.startLoad rest

/-- What step 5's load leaves: whether its first profile committed, and the profile whose load failed (R101, R107). -/
def State.noteLoad (s : State) (first : Nat) : State × Bool :=
  if s.maq.live.isNone || s.maq.activeProfile != first then ({ s with maq := { s.maq with failedProfile := some first } }, false)
  else (s, true)

/-! ## Command entries (R79) -/

/-- The first offending field of an entry for an opcode: STORE 1, SWITCH 2, CANCEL 3, VERIFY 4, SET_MIN_VERSION 5; any other is itself
the fault. -/
def maqField (e : Bytes) (op : Nat) : Option Nat :=
  if op = 0 ∨ 5 < op then some 0
  else if 2 ≤ u16 e 2 then some 2
  else if op ≠ 1 ∧ u64 e 8 ≠ 0 then some 8
  else if op ≠ 1 ∧ u32 e 0x10 ≠ 0 then some 0x10
  else if 3 < u8 e 0x14 ∨ ((op = 3 ∨ op = 5) ∧ u8 e 0x14 ≠ 0) then some 0x14
  else if (op = 2 ∧ 2 < u8 e 0x15) ∨ (op ≠ 2 ∧ u8 e 0x15 ≠ 0) then some 0x15
  else if u16 e 0x16 ≠ 0 then some 0x16
  else if op ≠ 5 ∧ u32 e 0x18 ≠ 0 then some 0x18
  else if !zeroAt e 0x1C 36 then some 0x1C
  else none

/-- A Maquette load command in its turn: for a principal with the structure right, its entry in form (R79, R80). -/
def State.maqTurn (s : State) (r : Req) (e : Bytes) (op : Nat) (f : State → State) : State :=
  if !s.may r.principal .struct then (s.deniedRec r.path r.principal).maqDone r 0x37 (u8 e 0x14) 0
  else match maqField e op with
    | some o => s.maqDone r 0x10 (u8 e 0x14) (0x80000000 + o)
    | none => f s

/-- The protected writer is at work on a Plaster update: its operations are carried out one at a time (R127). -/
def State.protBusy (s : State) : Bool := s.boot.upd.any fun u => u.op == 0x103

/-- A Maquette load command: the structure verifier carries them out one at a time, in the order in which they came; one that comes
while it is at work waits (R80), and SET_MIN_VERSION for the protected writer (R127). -/
def State.maqCmd (s : State) (r : Req) (e : Bytes) (src : Option Bytes) (op : Nat) (f : State → State) :
    Host.Outcome State Fault Refusal :=
  s.coreDo fun s =>
    if s.maq.op.isSome || !s.maq.waiting.isEmpty || (op == 5 && s.protBusy) then
      { s with maq := { s.maq with waiting := s.maq.waiting ++ [(r, e, src)] } }
    else s.maqTurn r e op f

/-- The code of a source that cannot be read (R453). -/
def State.srcCode (s : State) (addr : Nat) : Nat :=
  match s.window addr with
  | .dram off => if s.dramAcc off 1 = .unavailable then 0x84 else if s.dramAcc off 1 = .address then 0x93 else 0x91
  | .remote _ => 0x94
  | _ => 0x93

/-- STORE begins: refused under Brace and hold-up and into the pending target's slot (R80, R82, R83). -/
def State.maqStore (s : State) (r : Req) (e : Bytes) (src : Option Bytes) : State :=
  let p := u8 e 0x14
  if s.brace then s.maqDone r 0x31 p 0
  else if s.snap.holdup then s.maqDone r 0x41 p 0
  else if s.maq.pend.any fun x => x.profile == p then s.maqDone r 0x36 p 0
  else match s.source (u64 e 8) (u32 e 0x10) src with
    | none => s.maqDone r (s.srcCode (u64 e 8)) p 0
    | some b => { s with maq := { s.maq with op := some { op := 1, req := r, profile := p, data := b } } }

def execMaqStore (r : Req) (e : Bytes) (src : Option Bytes) (s : State) : Host.Outcome State Fault Refusal :=
  s.maqCmd r e src 1 fun s => s.maqStore r e src

/-- SWITCH begins verification: it supersedes a pending switch (R76, R80, R82, R83). -/
def State.maqSwitch (s : State) (r : Req) (e : Bytes) : State :=
  let p := u8 e 0x14
  let mode := u8 e 0x15
  if (u8 s.optBytes 0xC).testBit 0 then s.maqDone r 0x35 p 0
  else if mode = 2 ∧ s.brace then s.maqDone r 0x31 p 0
  else if mode = 2 ∧ s.snap.holdup then s.maqDone r 0x41 p 0
  else
    let s := match s.maq.pend with
      | some x => if x.byPins || x.queueLost then s else s.maqDone x.req 0x33 x.profile 0
      | none => s
    { s with maq := { s.maq with pend := none, blockers := 0, op := some { op := 2, req := r, profile := p, mode := mode } } }

def execMaqSwitch (r : Req) (e : Bytes) (s : State) : Host.Outcome State Fault Refusal :=
  s.maqCmd r e none 2 fun s => s.maqSwitch r e

/-- CANCEL discards the pending switch. -/
def State.maqCancel (s : State) (r : Req) : State :=
  let s := match s.maq.pend with
    | some x => if x.byPins || x.queueLost then s else s.maqDone x.req 0x34 x.profile 0
    | none => s
  { s with maq := { s.maq with pend := none, blockers := 0 } }.maqDone r 0 0 0

def execMaqCancel (r : Req) (e : Bytes) (s : State) : Host.Outcome State Fault Refusal :=
  s.maqCmd r e none 3 fun s => s.maqCancel r

/-- VERIFY begins. -/
def State.maqVerify (s : State) (r : Req) (e : Bytes) : State :=
  { s with maq := { s.maq with op := some { op := 4, req := r, profile := u8 e 0x14 } } }

def execMaqVerify (r : Req) (e : Bytes) (s : State) : Host.Outcome State Fault Refusal :=
  s.maqCmd r e none 4 fun s => s.maqVerify r e

/-- Both copies of a record are written: first the copy of the lower GENERATION (`gens`, 0 for an invalid copy; copy 0 on a tie), which is
verified before the other is started (R127). A device that no longer answers does not take its copy (R119, R192): the write ends there, a
FLASH failure (R144). -/
def State.protWrite (s : State) (gens : Nat × Nat) (off : Nat) (b : Bytes) : State × Bool :=
  let d := if gens.2 < gens.1 then 1 else 0
  if s.log.devFailed.getLsbD d then (s, false)
  else if s.log.devFailed.getLsbD (1 - d) then (s.fstore d off 4096 b, false)
  else ((s.fstore d off 4096 b).fstore (1 - d) off 4096 b, true)

/-- GENERATION of the two copies of a record; 0 for an invalid one. -/
def copyGens (copy : Nat → Option Bytes) : Nat × Nat := ((copy 0).elim 0 fun b => u32 b 8, (copy 1).elim 0 fun b => u32 b 8)

/-- The revocation and minimum-version record is written by the protected writer, GENERATION raised by 1 (R114, R127). At the top of
R114's range, where the rule says nothing, GENERATION stays there (DESIGN CHOICE, log 77). With REVMIN_LOST no copy is valid and the
record begins again at GENERATION 1 (DESIGN CHOICE, log 78). -/
def State.writeRevmin (s : State) (revoked fw st site : Nat) : State × Bool :=
  let g := copyGens s.revminCopy
  s.protWrite g 0x1000 (revminBytes (min 0xFFFFFFFE (max g.1 g.2 + 1)) revoked fw st site)

/-- SET_MIN_VERSION: forward only, never past the active structure or what leaves no valid copy of profile 0 (R58). -/
def State.maqSetMin (s : State) (r : Req) (e : Bytes) : State :=
  let v := u32 e 0x18
  let s' := { s with ob := { s.ob with minStruct := v } }
  if v ≤ s.ob.minStruct then s.maqDone r 0 0 0
  else if (s'.validMaq 0).isNone ∨ s.maq.live.any (fun m => decide (m.version < v)) then s.maqDone r 0x23 0 0
  else if s.brace then s.maqDone r 0x31 0 0
  else if s.snap.holdup then s.maqDone r 0x41 0 0
  else
    let w := s.writeRevmin s.ob.revoked.toNat s.ob.minFw v s.ob.minSite
    if w.2 then { w.1 with ob := { w.1.ob with minStruct := v } }.maqDone r 0 0 0 else w.1.maqDone r 0x32 0 0

def execMaqSetMinVersion (r : Req) (e : Bytes) (s : State) : Host.Outcome State Fault Refusal :=
  s.maqCmd r e none 5 fun s => s.maqSetMin r e

/-- An entry whose OPCODE is not in the table completes FORMAT with the offset of OPCODE (R79). -/
def execMaqUnknown (r : Req) (e : Bytes) (s : State) : Host.Outcome State Fault Refusal :=
  s.maqCmd r e none (u16 e 0) fun s => s

/-- A command that waited is carried out in its turn, by its OPCODE (R80). -/
def State.maqServe (s : State) (r : Req) (e : Bytes) (src : Option Bytes) : State :=
  s.maqTurn r e (u16 e 0) fun s => match u16 e 0 with
    | 1 => s.maqStore r e src
    | 2 => s.maqSwitch r e
    | 3 => s.maqCancel r
    | 4 => s.maqVerify r e
    | 5 => s.maqSetMin r e
    | _ => s

/-- The commands that waited, in order, until one puts the verifier to work again or must wait for the protected writer (R80,
R127). -/
def State.maqServeAll (s : State) : List (Req × Bytes × Option Bytes) → State
  | [] => { s with maq := { s.maq with waiting := [] } }
  | x :: l => if s.maq.op.isSome || (u16 x.2.1 0 == 5 && s.protBusy) then { s with maq := { s.maq with waiting := x :: l } } else (s.maqServe x.1 x.2.1 x.2.2).maqServeAll l

/-- The protected writer is free again: the commands that waited for it go on (R127). -/
def State.protFree (s : State) : State :=
  if s.maq.op.isNone && !s.protBusy && !s.maq.waiting.isEmpty then s.maqServeAll s.maq.waiting else s

/-! ## The verifier's end (R80 to R84) -/

/-- A success of step 5's data clears its CARRY (R107). -/
def State.clearCarry (s : State) (step : Nat) : State :=
  { s with led := { s.led with clear := setBit s.led.clear (step - 1) true } }

/-- The profile record after a commit by command (R74); flash is left alone under Brace and in hold-up (R83, R200, R317), and the
record is written once they end. -/
def State.recordSwitch (s : State) (p version : Nat) : State :=
  if s.brace || s.snap.holdup then { s with maq := { s.maq with recordDue := some (p, version) } }
  else ({ s with maq := { s.maq with recordDue := none } } : State).writeProfRecord p version

/-- Brace or hold-up has ended: the profile record that it held back is written (R74). -/
def State.recordLate (s : State) : State := s.maq.recordDue.elim s fun x => s.recordSwitch x.1 x.2

/-- A STORE goes on with a copy of its slot: the copy is invalid from here until it is written (R71, R84). -/
def State.storeCopyBegin (s : State) (o : MaqOp) (k : Nat) : State :=
  let s := (((profCopies o.profile)[k]?).elim s fun c => s.ferase c.1 c.2 0x40000)
  { s with maq := { s.maq with op := some { o with copy := some k } } }

/-- A STORE's verification ends: a Maquette that fails sets MAQ_LOAD_ERR, an erased header of a source being FORMAT; the first copy of
one that passes begins, unless Brace holds, in which case it waits (R80, R83, R84). -/
def State.storeVerified (s : State) (o : MaqOp) : State :=
  match s.mqCheck o.data (some o.data.length) with
  | some x =>
    let x := if x.1 = 0x38 then (0x10, 0) else x
    (s.maqError x).maqDone o.req x.1 o.profile x.2
  | none => if s.brace then { s with maq := { s.maq with op := some o } } else s.storeCopyBegin o 0

/-- A copy of a STORE is written and read back, and the next begins only once it is verified (R71, R80). Under Brace the write pauses
(R83, R317). -/
def State.storeWritten (s : State) (o : MaqOp) (k : Nat) (flashOk : Bool) : State :=
  if s.brace then { s with maq := { s.maq with op := some o } }
  else if !flashOk then s.maqDone o.req 0x32 o.profile 0
  else
    let s := ((profCopies o.profile)[k]?).elim s fun c => s.fwrite c.1 c.2 o.data
    if k + 1 < (profCopies o.profile).length then
      -- an ejecting module starts no other copy (R487)
      if s.pins.eject then { s with maq := { s.maq with op := some o } } else s.storeCopyBegin o (k + 1)
    else (if s.maq.failedProfile = some o.profile then s.clearCarry 5 else s).maqDone o.req 0 o.profile 0

/-- STORE ends, or goes on to its next copy. -/
def State.storeEnd (s : State) (o : MaqOp) (flashOk : Bool) : State :=
  match o.copy with
  | none => s.storeVerified o
  | some k => s.storeWritten o k flashOk

/-- The status of a SWITCH or start attempt that finds no valid copy: the last copy's, or the other's where one is erased. -/
def switchError (l : List (Option (Nat × Nat))) : Nat × Nat :=
  let es := l.filterMap id
  match es.reverse.find? fun e => e.1 != 0x38 with
  | some e => e
  | none => (0x38, 0)

/-- A switch's completion, to its request unless the pins asked, or queue 0 has been reset since (R82). -/
def State.switchDone (s : State) (o : MaqOp) (status detail : Nat) : State :=
  if o.byPins || o.queueLost then s.event 1 76 o.profile status else s.maqDone o.req status o.profile detail

/-- SWITCH ends by its mode (R81): each copy that fails its checks sets MAQ_LOAD_ERR (R84). Under Brace NEXT_RESET's record waits
(R83, R317). -/
def State.switchEnd (s : State) (o : MaqOp) (flashOk : Bool) : State :=
  let l := s.loadCopies o.profile
  let x := switchError (s.profChecks o.profile)
  let s := l.1
  match l.2 with
  | none => s.switchDone o x.1 x.2
  | some b =>
    let m := mqStructure b
    let set := s.blocking m
    if o.mode = 2 then
      if s.brace then { s with maq := { s.maq with op := some o } }
      else if flashOk then (s.writeProfRecord o.profile m.version).switchDone o 0 0 else s.switchDone o 0x32 0
    else if set = 0 then
      let s := (s.commit m o.profile).clearCarry 5
      let s := if o.byPins then s else s.recordSwitch o.profile m.version
      s.switchDone o 0 0
    else
      let s := { s with maq := { s.maq with blockers := set } }
      if o.mode = 0 ∨ set.testBit 8 then s.switchDone o 0x30 set
      else
        let s := { s with maq := { s.maq with pend := some ⟨o.profile, m, o.req, o.queueLost, o.byPins⟩ } }
        let taken := (s.queue 0).taken.filter fun t => u32 t.entry 4 == o.req.tag
        let s := s.switchDone o 0x01 set
        -- the second completion keeps the entry's slot reserved
        if o.byPins || o.queueLost || o.req.queue.isNone then s
        else s.setQueue 0 { s.queue 0 with taken := taken.take 1 ++ (s.queue 0).taken }

/-- VERIFY ends: MAQ_PROF_STATUS alone changes (R80). -/
def State.verifyEnd (s : State) (o : MaqOp) : State :=
  let l := s.profChecks o.profile
  let of (k : Nat) : Bool × Nat := match l[k]? with
    | some none => (true, 0)
    | some (some e) => (false, e.1)
    | none => (false, 0)
  let s := { s with maq := { s.maq with profStatus := Tbl.set s.maq.profStatus o.profile (of 0, of 1) } }
  if l.any Option.isNone then s.maqDone o.req 0 o.profile 0
  else match l.head? with
    | some (some e) => s.maqDone o.req e.1 o.profile e.2
    | _ => s

/-- A STAGED switch of the pins begins: it supersedes a pending one (R76, R82). -/
def State.pinsBegin (s : State) (p : Nat) : State :=
  let s := match s.maq.pend with
    | some x => if x.byPins || x.queueLost then s else s.maqDone x.req 0x33 x.profile 0
    | none => s
  let o : MaqOp := { op := 2, req := ⟨.armature, armPrincipal, none, 0, false⟩, profile := p, mode := 1, byPins := true }
  { s with maq := { s.maq with pend := none, blockers := 0, op := some o, pinsNext := none } }

/-- The structure verifier ends its operation, or a stage of it; `flashOk` is whether its flash write reads back. A pin change that
waited begins next, or else the commands that waited. -/
def execMaqVerifyComplete (flashOk : Bool) (s : State) : Host.Outcome State Fault Refusal :=
  s.standbyDo fun s => match s.maq.op with
    | none => s
    | some o =>
      let s := { s with maq := { s.maq with op := none } }
      let s := if o.op = 1 then s.storeEnd o flashOk else if o.op = 2 then s.switchEnd o flashOk else s.verifyEnd o
      if s.maq.op.isSome then s
      else match s.maq.pinsNext with
        | some p => s.pinsBegin p
        | none => s.maqServeAll s.maq.waiting

/-- The pending switch commits, whole, once its blocking set is empty (R82). -/
def execMaqStagedCommit (s : State) : Host.Outcome State Fault Refusal :=
  s.standbyDo fun s => match s.maq.pend with
    | none => s
    | some x =>
      if s.blocking x.target ≠ 0 then s
      else
        let s := (s.commit x.target x.profile).clearCarry 5
        let s := if x.byPins then s else s.recordSwitch x.profile x.target.version
        if x.byPins || x.queueLost then s.event 1 82 x.profile 0 else s.maqDone x.req 0 x.profile 0

/-- PROFILE[1:0] has stayed stable for 50 ms at a new value: a STAGED switch while pin selection is enabled (R76). -/
def execProfilePinsStable (pins : Nat) (s : State) : Host.Outcome State Fault Refusal :=
  s.standbyDo fun s =>
    let v := pins % 4
    if s.pins.profile.toNat = v then s
    else
      let s := { s with pins := { s.pins with profile := BitVec.ofNat 2 v } }
      if (u8 s.optBytes 0xC).testBit 0 then
        if s.maq.op.isSome then { s with maq := { s.maq with pinsNext := some v } } else s.pinsBegin v
      else s

end Sys2Proof.Machine
end

