-- ==== Sys2Proof/Machine/Reset.lean ====
section
/-!
DEFINITION. Machine/Reset.lean: reset sources, restart kinds and cause records, what each restart clears and keeps, and the
start ledger (R31, R85 to R96, R105 to R108, R447).
-/
namespace Sys2Proof.Machine

/-! ## The start ledger (R105 to R108) -/

/-- Restart kinds from narrowest (R86). -/
def RKind.rank : RKind → Nat
  | .powerOn => 4 | .moduleReset => 3 | .coreDie => 2 | .armature => 1 | .caliperOnly => 0

/-- KIND of a ledger entry (R105). -/
def RKind.code (k : RKind) : Nat := 4 - k.rank

/-- OUTCOME codes (R105). -/
def StepEnd.code : StepEnd → Nat
  | .inProgress => 0 | .ok => 1 | .okAlternate => 2 | .skippedWarm => 3 | .failed => 4 | .timeout => 5 | .interrupted => 6
  | .interruptedBenign => 7 | .notRun => 8

/-- Outcomes counted as failures, by code (R105). -/
def countedCode (o : Nat) : Bool := o == 4 || o == 5 || o == 6

/-- The 32 bytes of an entry (R105). -/
def LedgerEntry.bytes (step : Nat) (x : LedgerEntry) : Bytes :=
  let b := leBytes 4 x.startSeq ++ leBytes 1 step ++ leBytes 1 x.form ++ leBytes 1 x.outcome.code ++ leBytes 1 x.attempt ++
    leBytes 1 x.carry ++ leBytes 1 x.kind.code ++ leBytes 2 x.detail ++ leBytes 4 x.duration ++ leBytes 8 x.endTime ++ zeros 4
  b ++ leBytes 4 (crc32c b)

/-- CARRY after an entry of an outcome code, a form and a CARRY (R107). -/
def nextCarry (o form carry : Nat) : Nat :=
  if countedCode o then min 255 (carry + 1) else if o = 1 ∧ form = 0 then 0 else carry

/-- Flash offset of a start's entry on flash 1 (R108, R109). -/
def ledgerOff (seq step : Nat) : Nat := 0x04910000 + 640 * (seq % 64) + 32 * (step - 1)

/-- The start steps that a restart kind runs (R102); a core-die restart of a displaced controller runs step 6 too. -/
def RKind.runs (k : RKind) (code step : Nat) : Bool :=
  match k with
  | .powerOn | .moduleReset => true
  | .coreDie => decide (7 ≤ step) || (step == 6 && code == 9)
  | .armature => step == 9 || step == 10 || step == 11 || step == 20
  | .caliperOnly => step == 17

/-- A valid entry of a slot of the flash ring. -/
def State.ringEntry (s : State) (slot step : Nat) : Option Bytes :=
  let b := s.fread 1 (ledgerOff slot step) 32
  if u32 b 0x1C = crc32c (b.take 0x1C) ∧ u8 b 4 = step then some b else none

/-- Steps 1 to 20. -/
def allSteps : List Nat := (List.range 20).map (· + 1)

/-- The highest START_SEQ of the ring and its slot (R108). -/
def State.ringNewest (s : State) : Option (Nat × Nat) :=
  (List.range 64).foldl (fun (best : Option (Nat × Nat)) k =>
    match (allSteps.filterMap (s.ringEntry k)).head? with
    | none => best
    | some b => match best with
      | none => some (u32 b 0, k)
      | some (q, j) => if q < u32 b 0 then some (u32 b 0, k) else some (q, j)) none

/-- The outcome of a code, and the kind of a KIND byte (R105). -/
def stepEndOf (c : Nat) : StepEnd :=
  ([.inProgress, .ok, .okAlternate, .skippedWarm, .failed, .timeout, .interrupted, .interruptedBenign] : List StepEnd).getD c .notRun
def rkindOf (c : Nat) : RKind := ([.powerOn, .moduleReset, .coreDie, .armature] : List RKind).getD c .caliperOnly

/-- The entry that 32 bytes of the ring hold. The layout of R105 has no time of beginning: an entry still open is taken to have
begun `now`. -/
def ledgerEntryOf (b : Bytes) (now : Nat) : LedgerEntry :=
  { startSeq := u32 b 0, form := u8 b 5, outcome := stepEndOf (u8 b 6), attempt := u8 b 7, carry := u8 b 8, kind := rkindOf (u8 b 9)
    detail := u16 b 0xA, duration := u32 b 0xC, endTime := u64 b 0x10, begun := now }

/-- The valid entries of a slot of the ring, by step. -/
def State.ringEntries (s : State) (slot : Nat) : Tbl LedgerEntry :=
  allSteps.filterMap fun n => (s.ringEntry slot n).map fun b => (n, ledgerEntryOf b s.plinth)

/-- Entries of the whole ring whose CRC is bad (R108): neither valid nor erased. -/
def State.ringBad (s : State) : Nat :=
  ((List.range 64).map fun k => (allSteps.filter fun n =>
    (s.ringEntry k n).isNone && !s.isErased 1 (ledgerOff k n) 32).length).foldl (· + ·) 0

/-- A step's entry in the ring of start `q`, if it is valid and of that start. -/
def State.ringOf (s : State) (q n : Nat) : Option LedgerEntry :=
  match s.ringEntry (q % 64) n with
  | some b => if u32 b 0 = q then some (ledgerEntryOf b s.plinth) else none
  | none => none

/-- How many starts in a row before start `q` counted a failure of step 11 on a slot, as far as the ring goes back. -/
def State.ringRun (s : State) (slot : Nat) : Nat → Nat → Nat
  | 0, _ => 0
  | f + 1, q =>
    match s.ringOf q 11 with
    | some x => if countedCode x.outcome.code && x.detail == slot then 1 + s.ringRun slot f (q - 1) else 0
    | none => 0

/-- Start number `n`, saturating (R105). -/
def satSeq (n : Nat) : Nat := min 0xFFFFFFFF n

/-- The profile of the latest counted failure of step 5 in the ring (R107). -/
def State.ringFailedProfile (s : State) : Option Nat :=
  ((List.range 64).foldl (fun (best : Option LedgerEntry) k =>
    match (s.ringEntry k 5).map fun b => ledgerEntryOf b s.plinth with
    | some x =>
      if countedCode x.outcome.code then match best with
        | some y => if y.startSeq < x.startSeq then some x else best
        | none => some x
      else best
    | none => best) none).map LedgerEntry.detail

/-- The ledger when retention RAM has been cleared: the newest start of the flash ring becomes the previous start, with its
entries as they stand (R108); newStart closes those still open (R106). -/
def State.coldLedger (s : State) : State :=
  let s := { s with led := { s.led with badEntries := s.led.badEntries + s.ringBad } }
  match s.ringNewest with
  | none => s
  | some (q, slot) =>
    let l := s.ringEntries slot
    let d := (Tbl.find? l 11).elim 3 LedgerEntry.detail
    { s with led := { s.led with startSeq := q, cur := l, carries := l.map fun e => (e.1, e.2.carry)
                                 slotRun := (d, s.ringRun d 64 (q - 1)) }
             maq := { s.maq with failedProfile := s.ringFailedProfile } }

/-- An open entry closed by the new start (R106): a counted INTERRUPTED after the watchdog or the Plinth supervisor. -/
def LedgerEntry.closed (x : LedgerEntry) (code now : Nat) : LedgerEntry :=
  if x.outcome = .inProgress then
    { x with outcome := if code = 3 ∨ code = 4 ∨ code = 5 then .interrupted else .interruptedBenign, endTime := now
             duration := min 0xFFFFFFFF ((now - x.begun) * 1000000 / 32768) }
  else x

/-- A new start: START_SEQ + 1, the previous entries closed and their CARRY values formed, and what step 11 excludes (R101,
R105 to R107). `code` is the last-cause code. A step that this kind does not run keeps its state (R102): it goes on where it runs,
though its entry is closed. A strap forces the Plaster path on its own start alone (R91). -/
def State.newStart (s : State) (k : RKind) (code : Nat) : State :=
  let prev := (s.led.cur ++ s.led.again).map fun e => (e.1, e.2.closed code s.plinth)
  let carries : Tbl Nat := prev.foldl (fun t e => Tbl.set t e.1 (nextCarry e.2.outcome.code e.2.form e.2.carry)) s.led.carries
  let run : Nat × Nat := match Tbl.find? prev 11 with
    | some x =>
      if countedCode x.outcome.code then
        (if s.led.slotRun.1 = x.detail then (x.detail, s.led.slotRun.2 + 1) else (x.detail, 1))
      else if x.outcome = .ok then (3, 0) else s.led.slotRun
    | none => s.led.slotRun
  let details : Tbl Nat := prev.foldl (fun t e =>
    if countedCode e.2.outcome.code || e.2.outcome == .okAlternate then Tbl.set t e.1 e.2.detail else t) s.led.details
  let zero := s.led.retryNormal ||| s.led.clear
  let carries : Tbl Nat := allSteps.map fun n => (n, if zero.getLsbD (n - 1) then 0 else Tbl.get 0 carries n)
  let ex := if 3 ≤ run.2 ∧ run.1 < 2 ∧ 3 ≤ Tbl.get 0 carries 11 then setBit s.led.excluded run.1 true else s.led.excluded
  let lost := (Tbl.find? prev 15).any fun x => countedCode x.outcome.code
  { s with led := { s.led with startSeq := satSeq (s.led.startSeq + 1), cur := [], again := []
                               powerSeq := if k = .powerOn then satSeq (s.led.startSeq + 1) else s.led.powerSeq
                               prev := prev, carries := carries, details := details, kind := k
                               kept := (s.led.cur ++ s.led.kept).filter fun e => !k.runs code e.1
                               slotRun := run, excluded := ex, retryNormal := 0, clear := 0
                               savedTrain := if lost then [] else s.led.savedTrain
                               toMirror := prev.map fun e => e.1 + 32 }
           rst := { s.rst with strapForced := s.rst.strapForced && (decide (3 ≤ k.rank) || k == .caliperOnly) } }

/-- DETAIL of a step's latest counted failure, or of a success in an alternate form after it. -/
def State.lastDetail (s : State) (n : Nat) : Nat := Tbl.get 0 s.led.details n

/-- CARRY of a step before this start. -/
def State.carry (s : State) (n : Nat) : Nat := Tbl.get 0 s.led.carries n

/-- LEDGER_CUR: the entries of this start, those among them of steps that a widened restart runs again (R86, R105). -/
def State.ledgerCur (s : State) : Tbl LedgerEntry := s.led.cur ++ s.led.again

def State.putEntry (s : State) (n : Nat) (x : LedgerEntry) : State :=
  { s with led := { s.led with cur := Tbl.set s.led.cur n x, again := Tbl.del s.led.again n, toMirror := (s.led.toMirror.filter (· != n)) ++ [n] } }

/-- The module rails that a step brings up (R29, R30, R101): the core domain in step 7, Armature, Caliper and stacked SRAM in
step 9, the fabric in step 14, the memory PHYs in step 15; none for a domain whose PHY dies are both absent (R45), and none for a Caliper
that is fenced (R29). -/
def State.stepRails (s : State) (n : Nat) : Nat := match n with
  | 7 => maskOf [6, 7, 11, 21, 22]
  | 9 => if s.pwr.calFenced || s.cal.selfFenced then maskOf [8, 10] else maskOf [8, 9, 10]
  | 14 => if s.pwr.absent.getLsbD 1 && s.pwr.absent.getLsbD 2 then 0 else maskOf [12, 13]
  | 15 => if s.pwr.absent.getLsbD 3 && s.pwr.absent.getLsbD 4 then 0 else maskOf [14, 15]
  | _ => 0

/-- The rails of a step are ordered up; the fabric domain is powered from step 14 and the memory domain from step 15 (R29). A fabric
port counts as enabled where its PHY die answered (DESIGN CHOICE, log 67: no register of the spec enables a port). -/
def State.powerStep (s : State) (n : Nat) : State :=
  if s.stepRails n = 0 then s
  else
    let s := { s with pwr := { s.pwr with fabric := s.pwr.fabric || n == 14, memory := s.pwr.memory || n == 15 } }
    (s.orderUp 256 24 (s.stepRails n)).settle 256

/-- A step begins: its rails are ordered up where they are off, and it writes its entry (R105, R153). -/
def State.beginStep (s : State) (n form detail : Nat) : State :=
  let s := if 2 ≤ form ∨ (n = 14 ∧ form = 1) then s else s.powerStep n
  s.putEntry n (match Tbl.find? s.ledgerCur n with
    | some x => { x with outcome := .inProgress, attempt := min 255 (x.attempt + 1), form := form, detail := detail }
    | none => { startSeq := s.led.startSeq, form := form, outcome := .inProgress, attempt := 1, carry := s.carry n
                kind := s.led.kind, detail := detail, begun := s.plinth })

/-- How a step stands: its entry of this start, or how an earlier start left it that this one does not run again (R102). -/
def State.stepOf (s : State) (n : Nat) : Option LedgerEntry := (Tbl.find? s.led.cur n).or (Tbl.find? s.led.kept n)

/-- An entry of a step that ends: a success in an alternate form is OK_ALTERNATE (R105, R107). -/
def LedgerEntry.ended (x : LedgerEntry) (o : StepEnd) (detail : Option Nat) (now : Nat) : LedgerEntry :=
  { x with outcome := if o = .ok ∧ x.form ≠ 0 then .okAlternate else o, detail := detail.getD x.detail, endTime := now
           duration := min 0xFFFFFFFF ((now - x.begun) * 1000000 / 32768) }

/-- A step that runs ends and rewrites its entry (R105). The entry of a step that an earlier start began is closed (R106) and stays
as it is. -/
def State.endStep (s : State) (n : Nat) (o : StepEnd) (detail : Option Nat) : State :=
  match Tbl.find? s.led.cur n, Tbl.find? s.led.kept n with
  | some x, _ => if x.outcome = .inProgress then s.putEntry n (x.ended o detail s.plinth) else s
  | none, some x =>
    if x.outcome = .inProgress then { s with led := { s.led with kept := Tbl.set s.led.kept n (x.ended o detail s.plinth) } } else s
  | none, none => s

/-- A step begins and ends at once. -/
def State.wholeStep (s : State) (n form detail : Nat) (o : StepEnd) : State := (s.beginStep n form detail).endStep n o none

/-- A step runs. -/
def State.stepRuns (s : State) (n : Nat) : Bool := (s.stepOf n).any fun x => x.outcome == .inProgress

/-- A step has ended, in this start or before one that does not run it. -/
def State.stepEnded (s : State) (n : Nat) : Bool := (s.stepOf n).any fun x => x.outcome != .inProgress

/-! ## What restarts clear (R31, R447) -/

/-- The area an update operation writes: device, offset and size. Of two copies, copy 0 and then copy 1. -/
def UpdOp.area (u : UpdOp) : Nat × Nat × Nat :=
  if u.op = 0x101 then (u.target, slotOff, slotSize)
  else if u.op = 0x103 then (if u.second then 1 else 0, plasterOff, plasterSize)
  else (if u.second then 1 else 0, storeOff u.target, storeSize)

/-- An update operation ends before its install record is written: the copy in hand is left empty (R127, R130). -/
def State.dropUpdate (s : State) : State :=
  match s.boot.upd with
  | none => s
  | some u =>
    let s : State := { s with boot := { s.boot with upd := none } }
    if u.held then s else s.ferase u.area.1 u.area.2.1 u.area.2.2

/-- The request of an entry that an engine has taken from a queue. -/
def Taken.req (t : Taken) (q : Nat) : Req := ⟨t.path, t.principal, some q, u32 t.entry 4, (u16 t.entry 2).testBit 0⟩

/-- Entries that the Armature was carrying out complete ABANDONED (R447). -/
def State.abandon7 (s : State) : State :=
  (s.queue 7).taken.foldl (fun s t => s.completeAs (t.req 7) 0x88 0 0 []) s

/-- What an Armature restart resets (R31, R447): the Armature, its firmware's state, and its path's selects (R494); the Hold
window runs (R488), the cooling watchdog is suspended (R289) and heartbeats yield (R481). -/
def State.armatureReset (s : State) : State :=
  { s with
    pwr := { s.pwr with armature := false }
    rst := { s.rst with locked := false, wdtRunning := false }
    boot := { s.boot with chosen := none, run := none, healthy := false, dwellRunning := false, deferredFail := false
                          plasterHeld := false, romService := false, pushes := [], sessions := [], upd := none }
    mgt := { s.mgt with tls := [], tries := [] }
    cool := { s.cool with suspended := true }
    pair := { s.pair with yielding := true, holdState := 1 }
    acc := s.acc.filter fun e => decide (16 ≤ e.1) }

/-- The Armature stops for a restart of its own: its update operation and its entries end, and what waited for the protected writer goes
on (R31, R127). -/
def State.armatureStop (s : State) : State := s.dropUpdate.abandon7.armatureReset.protFree

/-- A channel over a restart of its controller: contents in service are kept in self-refresh; a fill is cut (R31, R422,
R428). -/
def MemCh.atRestart (c : MemCh) : MemCh :=
  { cap := c.cap, serial := c.serial, bad := c.bad, kept := c.kept || c.st == .inService
    fillCut := c.fillCut || c.st == .filling }

/-- The journal over a restart of the core die: what stands in DRAM stays, the table, the log and the open-block buffers (R405); records in
flight on the core die, which the model has none of between two commands, and the engines' work are lost (R414). -/
def Journal.atRestart (j : Journal) : Journal :=
  { epoch := j.epoch, region := j.region, regionNow := j.regionNow, manifestSeq := j.manifestSeq, pairs := j.pairs
    seqs := j.seqs
    runs := j.runs.map fun x => { x with restarted := x.restarted || (x.manifest.isNone && x.launch.isNone) } }

/-- What a core-die restart resets (R31, R447): every block of the core domain. The standby domain keeps its state, and module DRAM
its contents in self-refresh, the Disagreement ring among them (R386). The Survey burst clock is the Plinth's, and stays (R35). Caliper's fence of itself outlasts it (R383). -/
def State.coreReset (s : State) : State :=
  let sites := s.cap.sites.map fun e => (e.1, { e.2 with still := false, stillCut := false, entry := none })
  { s with
    pwr := { s.pwr with core := false, armature := false, caliper := false, sram := false, fabric := false, memory := false
                        clkReq := s.pwr.clkReq &&& 1, clkGrant := s.pwr.clkGrant &&& 1, armFaults := 0, pairFailed := s.pwr.pairStuck }
    rst := { s.rst with locked := false, wdtRunning := false }
    boot := {}
    maq := { s.maq with pend := s.maq.pend.map fun x => { x with queueLost := true }
                        op := s.maq.op.map fun x => { x with queueLost := true }, waiting := [] }
    mem := { chs := s.mem.chs.map fun e => (e.1, e.2.atRestart) }
    cap := { sites := sites, budget := s.cap.budget }
    met := { s.met with base := s.mtime }
    pnt := { save := s.pnt.save }
    chi := []
    cal := { ring := s.cal.ring, disSeq := s.cal.disSeq, selfFenced := s.cal.selfFenced, testDue := s.cal.testDue }
    gimg := s.gimg.filter fun e => (Tbl.get ({} : GaugeSlot) s.cal.gauge e.1).loaded || (Tbl.get ({} : GaugeSlot) s.cal.gauge e.1).jobs.isEmpty
    jrn := s.jrn.atRestart
    ques := []
    mov := {}
    ebx := {}
    evt := {}
    mgt := { wallEver := s.mgt.wallEver }
    acc := []
    cool := { s.cool with suspended := true }
    pair := { s.pair with yielding := true, holdState := 1, lanes := 0, countLocked := false } }

/-- What a Caliper-only reset resets (R31, R36, R371): entries in flight complete ABANDONED, Gauge invocations end, fences are
cleared but for an absent SRAM die 0 (R45). -/
def State.caliperReset (s : State) : State :=
  let s := s.calStop 0x88
  let fenced := s.pwr.absent.getLsbD 5
  let s := { s with cal := { s.cal with fencedMap := 0, selfFenced := false, tileErr := [] }
                    pwr := { s.pwr with calFenced := fenced, calClkFault := false, caliper := s.pwr.sram && !fenced } }
  if fenced then s else (s.orderUp 256 24 (maskOf [9])).settle 256

/-- What a module reset clears beside the core domain (R31): the Plinth, Survey and Warden registers. Retention storage
stays: causes, ledger, queue, counters, energy, Patina, learned maps, POINTING_SAVE. Site lines stand at their latches. -/
def State.standbyReset (s : State) : State :=
  let sites := (List.range 8).map fun n => (n, ({ driven := (s.site n).driven } : Site))
  { s with
    pwr := { standby := s.pwr.standby, rcOsc := s.pwr.rcOsc, pairTime := s.pwr.pairTime, pairStuck := s.pwr.pairStuck
             pairFailed := s.pwr.pairStuck }
    rst := { rstCause := s.rst.rstCause, calRstCause := s.rst.calRstCause, plinthLast := s.rst.plinthLast
             bootLast := s.rst.bootLast, wardenLast := s.rst.wardenLast, under := s.rst.under, underCode := s.rst.underCode
             wdtTimes := s.rst.wdtTimes, otHeld := s.rst.otHeld }
    ob := {}
    pins := { s.pins with inputGood := false }
    maq := { failedProfile := s.maq.failedProfile }
    debug := 0
    seq := { rails := s.seq.rails.filter fun e => decide (256 ≤ e.1), sites := sites }
    svy := {}
    log := { s.log with queue := if s.snap.holdup then s.log.queue.map fun x => { x with queued := true } else s.log.queue
                        snapSkipped := false, countersReset := false, devFailed := 0, page := none, cursor := []
                        readFrom := [], torn := [], oneCopy := {} }
    snap := { erasing := s.snap.erasing ||| s.snap.held, mend := s.snap.mend
              holdStart := s.snap.holdStart, holdEnd := if s.snap.holdup then some s.plinth else s.snap.holdEnd
              minBus := s.snap.minBus, sums := s.snap.sums, busV := s.snap.busV }
    cap := { sites := s.cap.sites.map fun e => (e.1, { restoring := e.2.restoring }) }
    rel := {}
    met := { s.met with peaks := [], nonsite := [], nsCur := [] }
    haz := {}
    cal := { s.cal with selfFenced := false }
    cool := { fans := s.cool.fans.map fun e => (e.1, { map := e.2.map, mapMax := e.2.mapMax }) }
    pair := {} }

/-- What a power-on clears: everything but flash, the pins, the serial numbers of the model's own and the journal's epoch
(R31, R93, R414), and of the start's history the excluded slots, the DIMM serials and the steps whose CARRY returns to 0 (R101, R107;
log 65). -/
def State.coldState (s : State) : State :=
  { State.reset with
    pending := s.pending, fresh := s.fresh, plinth := s.plinth, out := s.out, flash0 := s.flash0, flash1 := s.flash1
    pins := { s.pins with inputGood := false }
    snap := { busV := s.snap.busV }
    led := { serials := s.led.serials, excluded := s.led.excluded, clear := s.led.clear }
    jrn := { epoch := s.jrn.epoch, manifestSeq := s.jrn.manifestSeq, region := s.jrn.region
             regionNow := s.jrn.region } }

/-! ## Sources and causes (R85, R86, R93 to R95) -/

/-- A source's sticky bits (R93). -/
def State.noteCause (s : State) (code : Nat) (k : RKind) : State :=
  { s with rst := { s.rst with
      rstCause := setBit s.rst.rstCause (code - 1) true
      calRstCause := if k = RKind.armature then s.rst.calRstCause else setBit s.rst.calRstCause (code - 1) true } }

/-- A unit's last-cause record at a source's action: a new record where the unit's reset begins now; where it is under way already,
the lower code alone, since TIME is when the reset began (R86, R94, R95). -/
def LastCause.after (old : LastCause) (running : Bool) (code : Nat) (new : LastCause) : LastCause :=
  if running then { old with code := BitVec.ofNat 8 code } else new

/-- The last-cause records of the units that a kind resets (R94, R95); those of rank `was` and below are under way. The Wardens' lines
are undriven through a module reset. -/
def State.lastCauses (s : State) (k : RKind) (was code : Nat) : State :=
  let c : LastCause := { code := BitVec.ofNat 8 code, time := BitVec.ofNat 48 s.plinth }
  let r := s.rst
  let on := decide (3 ≤ was)
  let r := if 3 ≤ k.rank then
      { r with plinthLast := r.plinthLast.after on code c
               wardenLast := (List.range 8).map fun n =>
                 (n, (Tbl.get {} r.wardenLast n).after on code { c with detail := if k = .powerOn then 0 else 1 }) }
    else r
  { s with rst := if 1 ≤ k.rank then { r with bootLast := r.bootLast.after (decide (1 ≤ was)) code c } else r }

/-- The boot ROM stage's record at a reset that no source of R85 causes: written whole as R94 says, with a code that the manual does
not give (free value, log 66). -/
def State.bootAgain (s : State) : State :=
  { s with fresh := s.fresh + 1
           rst := { s.rst with bootLast := { code := BitVec.ofNat 8 (Config.freeVal s.fresh), time := BitVec.ofNat 48 s.plinth } } }

/-- Step 7 begins, but for an over-temperature reset that is held, which keeps the core domain off (R90). -/
def State.begin7 (s : State) : State := if s.rst.otHeld then s else s.beginStep 7 (min 2 (s.carry 7)) 0

/-- Step 9 begins: after a failure the pairs that failed are excluded (R101). -/
def State.begin9 (s : State) : State :=
  let s : State := if 1 ≤ s.carry 9 then
      { s with pwr := { s.pwr with pairFailed := s.pwr.pairFailed ||| BitVec.ofNat 4 (s.lastDetail 9) } }
    else s
  s.beginStep 9 (min 1 (s.carry 9)) 0

/-- Step 6 begins again at a displaced controller (R102, R480). -/
def State.begin6 (s : State) : State :=
  if s.pair.st = .displaced then
    ({ s with pair := { s.pair with st := .undecided } } : State).beginStep 6 (min 1 (s.carry 6)) 0
  else s

/-- A restart of this kind is under way no longer (R86; log 64). -/
def State.restartOver (s : State) (k : RKind) : State :=
  { s with rst := { s.rst with under := if s.rst.under = some k then none else s.rst.under } }

/-- What a source means for the module reset that it makes or joins: 0x0C forces the Plaster path on its start, 0x0A holds the core
domain off (R90, R91). -/
def State.sourceHolds (s : State) (code : Nat) (k : RKind) : State :=
  if k.rank = 3 then
    { s with rst := { s.rst with strapForced := s.rst.strapForced || code == 0x0C, otHeld := s.rst.otHeld || code == 0x0A }
             haz := { s.haz with tjState := if code = 0x0A then 2 else s.haz.tjState } }
  else s

/-- The effects of a restart kind (R31). -/
def State.restartEffects (s : State) (k : RKind) (code : Nat) : State :=
  match k with
  | .powerOn => s.coldState
  | .moduleReset =>
    let s := s.pageLand.dropUpdate.coreReset.standbyReset
    let held := code == 0x0A || s.rst.otHeld
    { s with rst := { s.rst with strapForced := code == 0x0C, otHeld := held }
             haz := { s.haz with tjState := if held then 2 else 0 } }
  | .coreDie => s.dropUpdate.coreReset
  | .armature => s.armatureStop
  | .caliperOnly => s.caliperReset

/-- The first step of a restart that the standby domain lives through (R102). -/
def State.firstStep (s : State) (k : RKind) : State :=
  match k with
  | .caliperOnly => s.beginStep 17 0 0
  | .armature => s.begin9
  | .coreDie => s.begin6.begin7
  | _ => s

/-- A reset source acts (R85, R86): its sticky bit, the last-cause records, and the restart it causes. One that comes while a
restart is under way widens it, if its kind is wider: the restart goes on as the wider kind and begins no new start. Of the steps that
the wider kind runs again the entries go on, ATTEMPT and first beginning with them (R105). One no wider keeps what it means for the
start (R90, R91). -/
def State.resetSource (s : State) (code : Nat) (k : RKind) : State :=
  let s := s.noteCause code k
  match s.rst.under with
  | some u =>
    let low := min s.rst.underCode code
    let w := if u.rank < k.rank then k else u
    let s := { s with rst := { s.rst with underCode := low, under := some w } }
    let s := s.lastCauses w u.rank low
    if u.rank < k.rank then
      let s := s.restartEffects k code
      let s := { s with led := { s.led with kind := k, cur := s.led.cur.filter (fun (e : Nat × LedgerEntry) => !k.runs code e.1)
                                            again := s.led.again ++ s.led.cur.filter (fun (e : Nat × LedgerEntry) => k.runs code e.1)
                                            kept := s.led.kept.filter (fun e => !k.runs code e.1) }
                        rst := { s.rst with strapForced := s.rst.strapForced && decide (3 ≤ k.rank) } }
      s.firstStep k
    else s.sourceHolds code k
  | none =>
    let s := s.lastCauses k 0 code
    let s := { s with rst := { s.rst with under := some k, underCode := code } }
    ((s.restartEffects k code).newStart k code).firstStep k

/-- A commanded reset (R88): a module or core-die reset first takes the counter snapshot, or begins at once where it is
skipped. -/
def State.swReset (s : State) (code : Nat) (k : RKind) : State :=
  if k = .armature ∨ k = .caliperOnly then s.resetSource code k
  else
    let s := s.snapshot 3
    if s.snap.job.isSome then { s with rst := { s.rst with waiting := s.rst.waiting ++ [(k, code)] } }
    else s.resetSource code k

/-- A SW_RESET write: only with KEY 0xA5 and the reset right (R88). -/
def State.swResetWrite (s : State) (r : Req) (key code : Nat) (k : RKind) : Host.Outcome State Fault Refusal :=
  s.coreDo fun s =>
    if !s.may r.principal .reset then (s.refuseWrite r.path r.principal 0x1030).event 0 88 0 k.code
    else if key ≠ 0xA5 then s.event 0 88 0 k.code
    else s.swReset code k

/-! ## The rows -/

/-- PLINTH_0V8 rises through its power-on level (R85): every other sticky bit cleared and bit 0 set (R93). -/
def execPowerOn (s : State) : Host.Outcome State Fault Refusal :=
  let s := s.coldState
  .next { s with pwr := { s.pwr with standby := true }, rst := { s.rst with under := some .powerOn, underCode := 1 } }

/-- The standby domain is powered (R29). -/
def execStandbyOn (s : State) : Host.Outcome State Fault Refusal := .next { s with pwr := { s.pwr with standby := true } }

/-- The standby domain loses power, and everything with it but flash (R29). -/
def execStandbyOff (s : State) : Host.Outcome State Fault Refusal := .next s.coldState

/-- The bus falls below UV_RESET_V: a module reset once the page in flight has ended (R85, R202). -/
def execInputUndervoltageReset (s : State) : Host.Outcome State Fault Refusal :=
  s.standbyDo fun s => s.resetSource 2 .moduleReset

/-- The ledger of a start whose retention RAM a parity error has cleared: it comes from the flash mirror (R89, R108). A power-on reads
it at input good; a restart under way becomes a start of its own, since the number of its own is lost. -/
def State.parityLedger (s : State) : State := match s.rst.under with
  | some .powerOn => s
  | some _ => s.coldLedger.newStart .moduleReset 3
  | none => s.coldLedger

/-- A Plinth internal fault (R89); a parity error clears retention RAM too, so the ledger comes from the flash mirror. -/
def execPlinthSupervisorReset (parity : Bool) (s : State) : Host.Outcome State Fault Refusal :=
  s.standbyDo fun s =>
    if parity then
      let s : State := { s with led := { serials := s.led.serials, excluded := s.led.excluded, clear := s.led.clear }, rcnt := {}, log := {}, met := {}, pat := {}, pnt := { s.pnt with save := none }
                                cool := { s.cool with fans := s.cool.fans.map fun (e : Nat × FanCh) => (e.1, { e.2 with map := [] }) } }
      let s := s.parityLedger.resetSource 3 .moduleReset
      { s with met := { s.met with baseSeq := s.led.startSeq } }
    else s.resetSource 3 .moduleReset

/-- A watchdog expiry: an Armature restart, the third within 600 s a core-die restart (R87). -/
def State.wdtExpiry (s : State) : State :=
  let recent := (s.rst.wdtTimes.filter fun t => decide (s.plinth < t + secs 600)).take 2
  let s := { s with rst := { s.rst with wdtTimes := (s.plinth :: recent).take 2 } }
  if recent.length = 2 then s.resetSource 5 .coreDie else s.resetSource 4 .armature

def execArmatureWatchdogExpiry (s : State) : Host.Outcome State Fault Refusal :=
  s.coreDo fun s => if s.rst.wdtRunning then s.wdtExpiry else s

def execSwResetModule (r : Req) (key : Nat) (s : State) : Host.Outcome State Fault Refusal := s.swResetWrite r key 6 .moduleReset
def execSwResetCoreDie (r : Req) (key : Nat) (s : State) : Host.Outcome State Fault Refusal := s.swResetWrite r key 7 .coreDie
def execSwResetCaliper (r : Req) (key : Nat) (s : State) : Host.Outcome State Fault Refusal := s.swResetWrite r key 8 .caliperOnly
def execSwResetArmature (r : Req) (key : Nat) (s : State) : Host.Outcome State Fault Refusal := s.swResetWrite r key 13 .armature

/-- Any other SW_RESET write is ignored, with one event (R88). -/
def execSwResetRefused (r : Req) (value : Nat) (s : State) : Host.Outcome State Fault Refusal :=
  s.coreDo fun s =>
    let s := if s.may r.principal .reset then s else s.refuseWrite r.path r.principal 0x1030
    s.event 0 88 0 value

/-- A reset over the open debug port: 1 module, 2 core die, 3 Caliper (R85, R88, R128). -/
def execDebugAuthorisedReset (kind : Nat) (s : State) : Host.Outcome State Fault Refusal :=
  s.standbyDo fun s =>
    if s.debug ≠ 1 then s
    else if kind = 1 then s.swReset 11 .moduleReset
    else if kind = 2 then s.swReset 11 .coreDie
    else if kind = 3 then s.swReset 11 .caliperOnly
    else s

/-- RECOVERY_REQ_N low for 5 s: a module reset with the Plaster path forced (R91). -/
def execRecoveryReqHold (s : State) : Host.Outcome State Fault Refusal :=
  s.standbyDo fun s => s.resetSource 12 .moduleReset

/-- A snapshot's trailer is written and reads back valid; the resets that waited for it begin (R88, R197). -/
def execSnapshotTrailerWritten (s : State) : Host.Outcome State Fault Refusal :=
  s.standbyDo fun s =>
    if s.snap.job.isNone then s
    else
      let w := s.rst.waiting
      let s := s.snapDone
      let s := { s with rst := { s.rst with waiting := [] } }
      w.foldl (fun s x => s.resetSource x.2 x.1) s

end Sys2Proof.Machine
end

