-- ==== Sys2Proof/Machine/Update.lean ====
section
/-!
DEFINITION. Machine/Update.lean: update operations, control records, Plaster, debug, and SPDM (R121, R127 to R144, R449, R471).
-/
namespace Sys2Proof.Machine

/-! ## Shared operations -/

/-- A failed operation: UPDATE_STATUS, one event, and its completion (R144, R508). -/
def State.updFail (s : State) (r : Req) (op num code detail : Nat) : State :=
  let s := { s with boot := { s.boot with updStatus := code * 2 ^ 24 + op % 256 * 2 ^ 16 + num % 65536 } }
  (s.event 2 144 num code).complete r code detail 0

/-- An update operation runs (R129). -/
def State.updBusy (s : State) : Bool := s.boot.upd.isSome || s.boot.pushes.any fun p => p.req.isSome

/-- What refuses any operation: BUSY beside another, and Brace (R129, R130). -/
def State.opRefusal (s : State) : Option Nat := if s.updBusy then some 0x48 else if s.brace then some 0x31 else none

/-- An operation that writes flash is refused in hold-up too (R127, R144). -/
def State.updRefusal (s : State) : Option Nat :=
  match s.opRefusal with
  | some c => some c
  | none => if s.snap.holdup then some 0x41 else none

/-- An operation of a principal without the update right: DENIED, as a failed operation (R129, R144, R468). -/
def State.updRight (s : State) (r : Req) (op num : Nat) (f : State → State) : Host.Outcome State Fault Refusal :=
  s.fwDo fun s => if s.may r.principal .update then f s else (s.deniedRec r.path r.principal).updFail r op num 0x37 0

/-- An operation that is none of Plaster's functions (R135): NOT_STATE while Plaster runs (DESIGN CHOICE, log 79: R144 names no
code). -/
def State.notPlaster (s : State) (r : Req) (op num : Nat) (f : State → State) : State :=
  if s.boot.slot = 2 then s.updFail r op num 0x49 0 else f s

/-- An operation that writes no flash: refused BUSY or BRACE, or carried out. -/
def State.opDo (s : State) (r : Req) (op num : Nat) (f : State → State) : State :=
  match s.opRefusal with
  | some c => s.updFail r op num c 0
  | none => f s

/-- An operation refused or carried out. -/
def State.updDo (s : State) (r : Req) (op num : Nat) (f : State → State) : State :=
  match s.updRefusal with
  | some c => s.updFail r op num c 0
  | none => f s

/-- An image as it arrives: its manifest with the signature block, then its blocks (R117; log 22). -/
def imgManifest (b : Bytes) : Bytes := if u32 b 0 = 0x464D5746 then b.take (manLen b) else b.take 0x80
def imgBody (b : Bytes) : Bytes := b.drop (manLen b)

/-- The size check of an arriving image for its area. -/
def imgFits (b : Bytes) (size : Nat) : Bool :=
  let m := imgManifest b
  decide (manLen m + manLength m ≤ b.length) && decide (0x10000 + manLength m ≤ size)

/-- What an arriving image fails, before its blocks. -/
def State.imgCheck (s : State) (b : Bytes) (typ size : Nat) (minVer : Option Nat) : Option Nat :=
  match s.manCheck (imgManifest b) typ minVer with
  | some c => some c
  | none => if imgFits b size then none else some 0x11

/-- The first block of an arriving image that does not match its hash. -/
def imgBad (b : Bytes) : Option Nat := badBlock (imgManifest b) (imgBody b) (manBlocks (imgManifest b))

/-- INSTALL_COUNT of an area, 0 without a valid record. -/
def State.countAt (s : State) (dev off : Nat) : Nat := (s.install dev off).elim 0 fun b => u32 b 8

/-- INSTALL_COUNT of the next install into an area with two places. At 0xFFFF_FFFE, the top of its range, it stays (DESIGN CHOICE,
log 102: R118 says nothing). -/
def State.nextCount (s : State) (off : Nat) : Nat := min 0xFFFFFFFE (max (s.countAt 0 off) (s.countAt 1 off) + 1)

/-! ## Streaming operations (R129, R130) -/

/-- A streaming operation begins: the manifest is verified, then the target's record sector is erased (R118, R129). -/
def State.streamBegin (s : State) (r : Req) (e : Bytes) (src : Option Bytes) (op typ size target : Nat) (minVer : Option Nat) :
    State :=
  s.notPlaster r op target fun s => s.updDo r op target fun s =>
    match s.source (u64 e 0x10) (u32 e 0x18) src with
    | none => s.updFail r op target (s.srcCode (u64 e 0x10)) 0
    | some b =>
      match s.imgCheck b typ size minVer with
      | some c => s.updFail r op target c (if c = 0x11 then 0x18 else 0)
      | none =>
        let u : UpdOp := { op := op, req := r, target := target, image := b
                           count := s.nextCount (if op = 0x101 then slotOff else if op = 0x103 then plasterOff else storeOff target) }
        { s with boot := { s.boot with upd := some u } }.ferase u.area.1 u.area.2.1 4096

/-- The slot that is not running. -/
def State.idleSlot (s : State) : Nat := if s.boot.slot = 0 then 1 else 0

def execInstallFw (r : Req) (e : Bytes) (src : Option Bytes) (s : State) : Host.Outcome State Fault Refusal :=
  s.updRight r 0x101 s.idleSlot fun s => s.streamBegin r e src 0x101 1 slotSize s.idleSlot (some s.ob.minFw)

def execUpdatePlaster (r : Req) (e : Bytes) (src : Option Bytes) (s : State) : Host.Outcome State Fault Refusal :=
  s.updRight r 0x103 0 fun s => s.streamBegin r e src 0x103 2 plasterSize 0 none

def execStoreSiteImage (r : Req) (e : Bytes) (src : Option Bytes) (s : State) : Host.Outcome State Fault Refusal :=
  s.updRight r 0x104 (u8 e 0x1C) fun s =>
    if 8 ≤ u8 e 0x1C then s.updFail r 0x104 (u8 e 0x1C) 0x10 0x1C
    else s.streamBegin r e src 0x104 3 storeSize (u8 e 0x1C) (some s.ob.minSite)

/-- The copy in hand is written whole, its install record last (R118). -/
def State.updWrite (s : State) (u : UpdOp) : State :=
  s.writeArea u.area.1 u.area.2.1 u.area.2.2 u.count (imgManifest u.image) (imgBody u.image)

/-- The end of a copy: every block hashed before it is programmed, read back and hashed again, then the install record. Of two copies
copy 1 begins once copy 0 stands (R127, R129). -/
def State.streamEnd (s : State) (u : UpdOp) (flash : FlashEnd) : State :=
  let s0 := { s with boot := { s.boot with upd := none } }
  match imgBad u.image with
  | some n => (s0.ferase u.area.1 u.area.2.1 u.area.2.2).updFail u.req u.op n 0x17 0
  | none => match flash with
    | .fails => (s0.ferase u.area.1 u.area.2.1 u.area.2.2).updFail u.req u.op u.target 0x32 0
    | .differs n => (s0.ferase u.area.1 u.area.2.1 u.area.2.2).updFail u.req u.op n 0x17 0
    | .ok =>
      let s := s0.updWrite u
      if u.op = 0x101 then
        ({ s with led := { s.led with excluded := setBit s.led.excluded u.target false, slotRun := (3, 0) }
                  boot := { s.boot with slotErr := Tbl.del s.boot.slotErr u.target } } : State).complete u.req 0 0 0
      else if u.second then s.complete u.req 0 0 0
      else
        -- an ejecting module starts no other copy (R487)
        let u := { u with second := true, held := s.pins.eject }
        let s : State := { s with boot := { s.boot with upd := some u } }
        if u.held then s else s.ferase u.area.1 u.area.2.1 4096

/-- A streaming operation finishes; under Brace it is paused and finishes later (R130). -/
def execUpdateOperationDone (flashEnd : FlashEnd) (s : State) : Host.Outcome State Fault Refusal :=
  s.fwDo fun s => match s.boot.upd with
    | none => s
    | some u => if s.brace || s.snap.holdup || (u.held && s.pins.eject) then s else (s.streamEnd u flashEnd).protFree

/-! ## COMMIT_FW (R131) -/

def execCommitFw (r : Req) (s : State) : Host.Outcome State Fault Refusal :=
  s.updRight r 0x102 0 fun s => s.opDo r 0x102 0 fun s =>
    match s.boot.run with
    | none => s
    | some im =>
      if !s.boot.healthy || s.boot.slot == 2 then s.updFail r 0x102 0 0x42 0
      else if im.version ≤ s.ob.minFw then s.complete r 0 0 0
      else s.updDo r 0x102 0 fun s =>
        let w := s.writeRevmin s.ob.revoked.toNat im.version s.ob.minStruct s.ob.minSite
        if w.2 then { w.1 with ob := { w.1.ob with minFw := im.version } }.complete r 0 0 0 else w.1.updFail r 0x102 0 0x32 0

/-- COMMIT_DWELL has passed without an Armature restart after step 20 (R131). -/
def execCommitDwellExpiry (s : State) : Host.Outcome State Fault Refusal :=
  s.coreDo fun s =>
    if s.boot.dwellRunning && !s.boot.deferredFail then
      { s with boot := { s.boot with healthy := true, dwellRunning := false } }
    else s

/-- A block beyond LOAD_BLOCKS compared with its hash (R121). -/
def execDeferredBlockCheck (block : Nat) (data : Bytes) (s : State) : Host.Outcome State Fault Refusal :=
  s.fwDo fun s => match s.boot.run with
    | none => s
    | some im =>
      if block < im.loadBlocks ∨ some (Config.sha384 data) = im.hashes[block]? then s
      else { s with boot := { s.boot with deferredFail := true, healthy := false } }.event 2 121 block 0

/-! ## Site images (R137 to R139) -/

/-- A push of a matching entry begins. -/
def State.startPush (s : State) (n : Nat) (entry : Nat × Nat) (r : Option Req) : State :=
  let d := manDigest (s.manifestAt entry.2 (storeOff entry.1))
  let p : Push := { site := n, entry := entry.1, req := r, digest := d }
  { s with boot := { s.boot with pushes := s.boot.pushes ++ [p] } }.emit (.site 138 n (digestBytes d))

/-- The pushes that step 19 found needed start after step 20, but not under Brace or in hold-up (R138). -/
def State.startPushes (s : State) : State :=
  if s.brace || s.snap.holdup || !s.stepEnded 20 then s
  else (bitsOf 8 s.boot.needPush.toNat).foldl (fun (s : State) n =>
    let s := { s with boot := { s.boot with needPush := setBit s.boot.needPush n false } }
    match s.matchingEntry n with
    | some x => if s.boot.pushes.any fun p => p.site == n then s else s.startPush n x none
    | none => s) s

/-- PUSH_SITE: without a site adopted or a matching entry it completes NOT_STATE. A push of that site that the controller has begun of
itself goes on as the command's. -/
def execPushSite (r : Req) (site : Nat) (s : State) : Host.Outcome State Fault Refusal :=
  s.updRight r 0x105 site fun s =>
    if 8 ≤ site then s.updFail r 0x105 site 0x10 0x10
    else s.notPlaster r 0x105 site fun s => s.updDo r 0x105 site fun s =>
      if s.boot.pushes.any fun p => p.site == site then
        { s with boot := { s.boot with pushes := s.boot.pushes.map fun p => if p.site = site then { p with req := some r } else p } }
      else match s.matchingEntry site with
        | none => s.updFail r 0x105 site 0x49 0
        | some x => s.startPush site x (some r)

/-- A push ends, with the manifest digest that the site's inactive bank reads back (none where the push failed before that). Under Brace
it is paused and ends later. A failure is retried once, then SITE_PUSH_FAIL and one event (R138); a command's push then completes FLASH, as
an update operation whose read-back fails (DESIGN CHOICE, log 80: R138 names no code). -/
def execSitePushDone (site : Nat) (readback : Option Digest) (s : State) : Host.Outcome State Fault Refusal :=
  s.fwDo fun s => match s.boot.pushes.find? fun p => p.site == site with
    | none => s
    | some p =>
      let rest := s.boot.pushes.filter fun p => p.site != site
      if s.brace then s
      else if readback = some p.digest then
        let s := { s with boot := { s.boot with pushes := rest } }
        match p.req with
        | some r => s.complete r 0 0 0
        | none => s
      else if p.retried then
        let s := { s with boot := { s.boot with pushes := rest, pushFail := setBit s.boot.pushFail site true } }
        match p.req with
        | some r => s.updFail r 0x105 site 0x32 0
        | none => s.event 2 138 site 0
      else { s with boot := { s.boot with pushes := { p with retried := true } :: rest } }

/-- ACTIVATE_SITE sequences the site's own firmware reset through its Warden (R139). -/
def execActivateSite (r : Req) (site : Nat) (s : State) : Host.Outcome State Fault Refusal :=
  s.updRight r 0x106 site fun s =>
    if 8 ≤ site then s.updFail r 0x106 site 0x10 0x10
    else s.notPlaster r 0x106 site fun s => s.opDo r 0x106 site fun s =>
    if (s.site site).template = 0xFF then s.updFail r 0x106 site 0x49 0
    else (s.emit (.site 139 site [])).complete r 0 0 0

/-! ## VERSION and HELLO (R141, R449, R450) -/

/-- Version of an image area, 0 when empty. -/
def State.versionAt (s : State) (dev off : Nat) : Nat := if (s.install dev off).isSome then manVersion (s.manifestAt dev off) else 0

/-- BOOT_PATH of R142. -/
def State.bootPath (s : State) : Nat := s.boot.slot

/-- The 64-byte version report (R449). -/
def State.versionReport (s : State) : Bytes :=
  let im := s.boot.run.getD {}
  let pl := if (s.install 0 plasterOff).isSome then s.versionAt 0 plasterOff else s.versionAt 1 plasterOff
  leBytes 2 im.ifVersion ++ zeros 2 ++ leBytes 4 im.version ++ leBytes 4 (s.versionAt 0 slotOff) ++ leBytes 4 (s.versionAt 1 slotOff) ++
    leBytes 4 pl ++ leBytes 4 s.ob.minFw ++ leBytes 4 s.ob.minStruct ++ leBytes 4 s.ob.minSite ++ leBytes 1 s.bootPath ++ zeros 31

def execVersionReport (r : Req) (e : Bytes) (s : State) : Host.Outcome State Fault Refusal :=
  s.updRight r 0x108 0 fun s => s.opDo r 0x108 0 fun s =>
    if u32 e 0x18 < 64 then s.updFail r 0x108 0 0x11 0x18
    else match s.canGive (u64 e 0x10) 64 with
      | some c => (s.ownViolation r (u64 e 0x10) c).updFail r 0x108 0 c 0
      | none => (s.give (u64 e 0x10) s.versionReport).complete r 0 0 0

/-- HELLO opens the principal's session (R450). -/
def execHelloSession (r : Req) (e : Bytes) (s : State) : Host.Outcome State Fault Refusal :=
  s.fwDo fun s =>
    let s := { s with boot := { s.boot with sessions := Tbl.set s.boot.sessions r.principal (u16 e 0x10) } }
    let unused := maskOf ((List.range 46).filterMap fun i => if u8 e (0x12 + i) = 0 then none else some (i + 2))
    s.complete r 0 (s.boot.run.elim 0 RunImage.ifVersion) unused

/-! ## Control records (R132 to R134, R471) -/

def crBody (b : Bytes) : Bytes := slice b 0x20 (u32 b 0xC)
def crSig (b : Bytes) : Bytes := b.drop (0x20 + u32 b 0xC)
def crSigned (b : Bytes) : Bytes := b.take (0x20 + u32 b 0xC)

/-- BODY_LEN of a kind. -/
def crLen (kind : Nat) : Option Nat := match kind with
  | 1 => some 4 | 2 => some 256 | 3 => some 104 | 4 => some 24 | 5 => some 50 | 6 => some 2056 | _ => none

/-- The signing class a kind asks for; REVOKE and KEY_PROVISION take the class of their slots. -/
def crClassOk (b : Bytes) : Bool :=
  let body := crBody b
  match u8 b 6 with
  | 1 => if u8 b 7 = 1 then decide (u8 body 0 < 16) else u8 body 0 % 16 == 0
  | 3 => u8 body 0 == u8 b 7
  | _ => u8 b 7 == 1

/-- What a record of a kind fails: form, length, target, key, signatures (R132, R144). -/
def State.crCheck (s : State) (b : Bytes) : Option Nat :=
  if u32 b 0 ≠ 0x43455243 ∨ u16 b 4 ≠ 1 ∨ !zeroAt b 9 3 ∨ !zeroAt b 0x1C 4 ∨ (u8 b 7 ≠ 1 ∧ u8 b 7 ≠ 2) then some 0x10
  else match crLen (u8 b 6) with
    | none => some 0x10
    | some n =>
      if u32 b 0xC ≠ n ∨ b.length ≠ 0x20 + n + sigLen then some 0x11
      else if !sigFormat (crSig b) 0x47535243 then some 0x10
      else if !zeroAt b 0x10 12 ∧ le b 0x10 12 ≠ Config.moduleSerial.toNat then some 0x46
      else if !crClassOk b || !s.keyUsable (u8 b 7) (u8 b 8) (crSig b) then some 0x22
      else if !sigRsaOk (crSig b) (crSigned b) then some 0x20
      else if !sigSlhOk (crSig b) (crSigned b) then some 0x21
      else none

/-- A control record of a kind: refused with its status, or carried out on its body. `any` asks for no right (R471). -/
def State.crDo (s : State) (r : Req) (b : Bytes) (kind : Nat) (any : Bool) (f : State → Bytes → State) :
    Host.Outcome State Fault Refusal :=
  s.fwDo fun s =>
    if !any && !s.may r.principal .update then (s.deniedRec r.path r.principal).updFail r 0x107 kind 0x37 0
    else s.updDo r 0x107 kind fun s =>
      if u8 b 6 ≠ kind then s.updFail r 0x107 kind 0x10 0
      else match s.crCheck b with
        | some c => s.updFail r 0x107 kind c 0
        | none => f s (crBody b)

/-- R133's three conditions. -/
def State.keysSafe (s : State) (struct : Bool) : Bool :=
  ((s.slotCheck 0).isNone || (s.slotCheck 1).isNone) && ((s.plasterCheck 0).isNone || (s.plasterCheck 1).isNone) &&
    (!struct || (s.validMaq 0).isSome)

/-- REVOKE (R132, R133). A signing slot that is among those it revokes completes KEY 0x22 (DESIGN CHOICE, log 105: R144 names no code). -/
def execRevokeKeys (r : Req) (rec : Bytes) (s : State) : Host.Outcome State Fault Refusal :=
  s.crDo r rec 1 false fun s body =>
    let bits := u8 body 0
    if 64 ≤ bits ∨ !zeroAt body 1 3 then s.updFail r 0x107 1 0x10 0
    else if bits.testBit (keyIdx (u8 rec 7) (u8 rec 8)) then s.updFail r 0x107 1 0x22 0
    else
      let un := s.ob.revoked ||| BitVec.ofNat 6 bits
      let s' : State := { s with ob := { s.ob with revoked := un } }
      if un = s.ob.revoked then s.complete r 0 0 0
      else if !s'.keysSafe (decide (16 ≤ bits)) then s.updFail r 0x107 1 0x43 0
      else
        let w := s'.writeRevmin un.toNat s.ob.minFw s.ob.minStruct s.ob.minSite
        if w.2 then
          { w.1 with maq := { w.1.maq with keyRevoked := w.1.activeKeyRevoked }, ob := { w.1.ob with keyWritten := none } }.complete
            r 0 0 0
        else { w.1 with ob := s.ob }.updFail r 0x107 1 0x32 0

/-- GENERATION of the option bytes in force; 0 with the built-in defaults. -/
def State.obGeneration (s : State) : Nat := s.ob.bytes.elim 0 fun b => u32 b 8

/-- GENERATION of the option bytes that flash holds: above the one in force once an update is accepted. -/
def State.obStored (s : State) : Nat := s.obChoose.1.elim 0 fun b => u32 b 8

/-- OPTION_UPDATE (R132, R134). A second one before the reset that takes the first up fails the GENERATION check, as a replay does (R132;
for another record of the same GENERATION DESIGN CHOICE, log 81). R133 is asked only where an enabled slot is removed, and R59 only for
a structure slot. -/
def execOptionUpdate (r : Req) (rec : Bytes) (s : State) : Host.Outcome State Fault Refusal :=
  s.crDo r rec 2 false fun s body =>
    if !obValid body then s.updFail r 0x107 2 0x10 0
    else if u32 body 8 ≠ s.obGeneration + 1 ∨ s.obGeneration < s.obStored ∨ obRevoked.nat body ≠ s.ob.revoked.toNat ∨ obMinFw.nat body < s.ob.minFw ∨
        obMinStruct.nat body < s.ob.minStruct ∨ obMinSite.nat body < s.ob.minSite then s.updFail r 0x107 2 0x44 0
    else
    let gone := bitsOf 6 s.keyEnable |>.filter fun k => !(obKeyEnable.nat body).testBit k
    if !gone.isEmpty ∧ !({ s with ob := { s.ob with bytes := some body } } : State).keysSafe (gone.any fun k => decide (4 ≤ k)) then
      s.updFail r 0x107 2 0x43 0
    else
      let w := s.protWrite (copyGens fun d => some (s.fread d 0 256) |>.filter obValid) 0 body
      if w.2 then w.1.complete r 0 0 0 else w.1.updFail r 0x107 2 0x32 0

/-- A key hash table with one entry provisioned and its TAG (R113). -/
def keyTableWith (t body : Bytes) (cls slot : Nat) : Bytes :=
  let e := leBytes 1 cls ++ leBytes 1 slot ++ [1] ++ zeros 5 ++ slice body 8 96 ++ zeros 24
  let b := patch (t.take 0x310) (0x10 + 128 * keyIdx cls slot) e
  b ++ digestBytes (Config.deviceHmac b)

/-- KEY_PROVISION. A revoked slot cannot be provisioned (R133): KEY, before SLOT_FILLED is asked (DESIGN CHOICE, log 82: R133 names no
code). -/
def execKeyProvision (r : Req) (rec : Bytes) (s : State) : Host.Outcome State Fault Refusal :=
  s.crDo r rec 3 false fun s body =>
    let cls := u8 body 0
    let slot := u8 body 1
    if !zeroAt body 2 6 ∨ (if cls = 2 then 2 else 4) ≤ slot then s.updFail r 0x107 3 0x10 0
    else if s.ob.revoked.getLsbD (keyIdx cls slot) then s.updFail r 0x107 3 0x22 0
    else if (s.provisioned cls slot).isSome then s.updFail r 0x107 3 0x45 0
    else match s.keyTables.head? with
      | none => s.updFail r 0x107 3 0x22 0
      | some t =>
        let b := keyTableWith t body cls slot
        let w := s.protWrite (0, 0) 0x2000 b
        if w.2 then { w.1 with ob := { w.1.ob with keyWritten := none } }.complete r 0 0 0 else w.1.updFail r 0x107 3 0x32 0

/-- A cause that forces Plaster holds (R136). -/
def State.plasterForcing (s : State) : Bool := s.pins.recovery || s.ob.defaults || s.ob.revminLost

/-- Once no cause forces Plaster any longer, a Plaster that was held after its install causes its module reset (R136: it stays running
while the cause holds). -/
def State.plasterLetGo (s : State) : State :=
  if s.boot.plasterHeld && !s.plasterForcing then ({ s with boot := { s.boot with plasterHeld := false } } : State).swReset 6 .moduleReset
  else s

/-- REVMIN_RESTORE (R116, R132). Values below the option bytes' complete GENERATION, as an OPTION_UPDATE's do (DESIGN CHOICE, log 83: R144
names the code for OPTION_UPDATE only). Plaster that stayed only for REVMIN_LOST lets go (R136). -/
def execRevminRestore (r : Req) (rec : Bytes) (s : State) : Host.Outcome State Fault Refusal :=
  s.crDo r rec 4 false fun s body =>
    let revoked := u8 body 4
    let fw := u32 body 8
    let st := u32 body 12
    let site := u32 body 16
    if u32 body 0 = 0 ∨ u32 body 0 = 0xFFFFFFFF ∨ 64 ≤ revoked ∨ !zeroAt body 5 3 ∨ !zeroAt body 20 4 then
      s.updFail r 0x107 4 0x10 0
    else if !s.ob.revminLost then s.updFail r 0x107 4 0x49 0
    else if revoked &&& s.ob.revoked.toNat ≠ s.ob.revoked.toNat ∨ fw < s.ob.minFw ∨ st < s.ob.minStruct ∨ site < s.ob.minSite then
      s.updFail r 0x107 4 0x44 0
    else
      let b := revminBytes (u32 body 0) revoked fw st site
      let w := s.protWrite (0, 0) 0x1000 b
      if w.2 then
        ({ w.1 with ob := { w.1.ob with revminLost := false, revoked := BitVec.ofNat 6 revoked, minFw := fw, minStruct := st
                                        minSite := site, keyWritten := none } }.complete r 0 0 0).plasterLetGo
      else w.1.updFail r 0x107 4 0x32 0

/-- DEBUG_OPEN with the nonce last read, at the more restricted of the two levels (R128). A nonce that is wrong or already used completes
NOT_STATE, as a closed policy does (DESIGN CHOICE, log 84: the rules name no code). -/
def execDebugOpen (r : Req) (rec : Bytes) (s : State) : Host.Outcome State Fault Refusal :=
  s.crDo r rec 5 false fun s body =>
    let policy := obDebug.nat s.optBytes
    let access := u8 body 44
    if policy = 0 ∨ !s.boot.nonceLive ∨ le body 0 32 ≠ s.boot.nonce.toNat then s.updFail r 0x107 5 0x49 0
    else if le body 32 12 ≠ Config.moduleSerial.toNat then s.updFail r 0x107 5 0x46 0
    else if (access ≠ 1 ∧ access ≠ 2) ∨ !zeroAt body 45 5 then s.updFail r 0x107 5 0x10 0
    else
      let lv := if access = 2 ∨ policy = 2 then 2 else 1
      let s := { s with debug := lv, boot := { s.boot with nonceLive := false } }
      (s.event 2 128 0 lv).complete r 0 0 0

/-- PRINCIPAL_SET, for any principal (R471). -/
def execPrincipalSet (r : Req) (rec : Bytes) (s : State) : Host.Outcome State Fault Refusal :=
  s.crDo r rec 6 true fun s body =>
    if !zeroAt body 4 4 then s.updFail r 0x107 6 0x10 0
    else if u32 body 0 ≤ u32 s.princTable 8 then s.updFail r 0x107 6 0x44 0
    else
      let b := leBytes 4 0x544E5250 ++ leBytes 2 1 ++ zeros 2 ++ leBytes 4 (u32 body 0) ++ zeros 4 ++ slice body 8 2048
      let b := b ++ digestBytes (Config.deviceHmac b)
      let w := s.protWrite (copyGens s.princCopy) 0x04920000 b
      if !w.2 then w.1.updFail r 0x107 6 0x32 0
      else (w.1.record 0x22 (if r.path = .fabric then 8 else if r.path = .debug then 9 else 0) 3 none
        (leBytes 4 r.principal ++ zeros 16 ++ leBytes 4 (u32 body 0))).complete r 0 0 0

/-- A control record that its checks refuse (R132). -/
def execControlRecordRefused (r : Req) (rec : Bytes) (s : State) : Host.Outcome State Fault Refusal :=
  s.fwDo fun s =>
    if !s.may r.principal .update && u8 rec 6 != 6 then (s.deniedRec r.path r.principal).updFail r 0x107 (u8 rec 6) 0x37 0
    else s.updDo r 0x107 (u8 rec 6) fun s => match s.crCheck rec with
      | some c => s.updFail r 0x107 (u8 rec 6) c 0
      | none => s

/-! ## Plaster (R135, R136) -/

/-- The slot Plaster installs into: empty or unusable first, else the lower VERSION (R135). With both empty or unusable it is slot A
(DESIGN CHOICE, log 106: R135 does not say). -/
def State.plasterTarget (s : State) : Nat :=
  if (s.slotCheck 0).isSome then 0
  else if (s.slotCheck 1).isSome then 1
  else if s.versionAt 1 slotOff < s.versionAt 0 slotOff then 1 else 0

/-- Plaster receives a firmware image, installs it, and resets the module or stays held (R135, R136). A write that fails leaves the slot
empty (R144). -/
def execPlasterImageReceived (image : PlasterImage) (s : State) : Host.Outcome State Fault Refusal :=
  s.fwDo fun s =>
    if s.boot.slot ≠ 2 then s
    else
      let fail (code num : Nat) : State :=
        { s with boot := { s.boot with updStatus := code * 2 ^ 24 + 2 ^ 16 + num } }.event 2 144 num code
      match s.updRefusal.or (s.imgCheck image.bytes 1 slotSize (some s.ob.minFw)) with
      | some c => fail c 0
      | none => match imgBad image.bytes, image.flash with
        | some n, _ => fail 0x17 n
        | none, .fails => (fail 0x32 s.plasterTarget).ferase s.plasterTarget slotOff slotSize
        | none, .differs n => (fail 0x17 n).ferase s.plasterTarget slotOff slotSize
        | none, .ok =>
          let k := s.plasterTarget
          let s := s.writeArea k slotOff slotSize (s.nextCount slotOff) (imgManifest image.bytes) (imgBody image.bytes)
          let s := { s with led := { s.led with excluded := setBit s.led.excluded k false, slotRun := (3, 0) } }
          if s.plasterForcing then { s with boot := { s.boot with plasterHeld := true } } else s.swReset 6 .moduleReset

/-! ## The debug nonce (R128) -/

/-- A read of DEBUG_NONCE's lowest word renews it and latches it for the path (R128, R499). -/
def State.nonceLatch (s : State) (p : Path) : State :=
  let k := 16 * p.idx + 2
  let v := Config.freshNonce s.fresh
  let ws := (List.range 8).map fun i => BitVec.ofNat 32 (v.toNat / 2 ^ (32 * i))
  { s with fresh := s.fresh + 1, boot := { s.boot with nonce := v, nonceLive := true }
           acc := Tbl.set s.acc k { (Tbl.get {} s.acc k : PathBlock) with snap := some (0x1040, ws) } }

/-- A read of DEBUG_NONCE: a fresh value, latched for the path; 0 and READ_REFUSED without READ (R128, R498, R499). -/
def execDebugNonceRead (p : Path) (prin : Nat) (s : State) : Host.Outcome State Fault Refusal :=
  s.coreDo fun s =>
    let k := 16 * p.idx + 2
    let a : PathBlock := Tbl.get {} s.acc k
    if s.may prin .read then
      let s := s.nonceLatch p
      s.emit (.read p 0x21040 (BitVec.ofNat 32 s.boot.nonce.toNat))
    else
      { s with acc := Tbl.set s.acc k { a with status := setBit a.status 9 true } }.emit (.read p 0x21040 0)

/-! ## Attestation (R142, R143) -/

def execIdentityKeysReady (s : State) : Host.Outcome State Fault Refusal :=
  s.coreDo fun s => { s with boot := { s.boot with identReady := true } }

/-- The attestation report without its signature block (R143). -/
def State.reportBody (s : State) (nonce : Bytes) : Bytes :=
  let im := s.boot.run.getD {}
  let die n := (Tbl.get (zeros 11) s.pwr.dieId n ++ zeros 16).take 16
  let site n := if (s.site n).template = 0xFF then zeros 48 else digestBytes (s.site n).imageDigest
  leBytes 4 0x50525441 ++ leBytes 2 1 ++ leBytes 1 s.bootPath ++ leBytes 1 s.debug ++ (nonce ++ zeros 32).take 32 ++
    leBytes 12 Config.moduleSerial.toNat ++ leBytes 1 im.keySlot ++ leBytes 1 s.keyEnable ++ leBytes 1 s.ob.revoked.toNat ++
    leBytes 1 s.maq.activeProfile ++ leBytes 8 (s.plinth % 2 ^ 48) ++ leBytes 4 im.version ++ leBytes 4 s.ob.minFw ++
    leBytes 4 s.ob.minStruct ++ leBytes 4 s.ob.minSite ++ leBytes 4 Config.romVersion.toNat ++
    leBytes 4 (bitAt s.pwr.identMismatch 31 + s.pwr.identFirst.toNat) ++ zeros 8 ++ digestBytes im.digest ++
    digestBytes (s.maq.live.elim 0 Structure.digest) ++ digestBytes (Config.sha384 s.optBytes) ++
    digestBytes (Config.sha384 s.buildRecord) ++ (List.range 32).flatMap die ++ (List.range 8).flatMap site

/-- The attestation report (R143). -/
def State.report (s : State) (nonce : Bytes) : Bytes := let b := s.reportBody nonce; b ++ identSig 0x47535441 b

/-- An SPDM error response of a code. -/
def spdmError (code : Nat) : Bytes := [0x13, 0x7F] ++ leBytes 1 code ++ [0]

/-- An SPDM request: Busy until the identity keys are ready, before step 20 of a power-on or module reset too (R142); no answer before
step 20 of an Armature or core-die restart (R488). -/
def State.spdm (s : State) (code : Nat) (req : Bytes) (put : State → Option Bytes) : Host.Outcome State Fault Refusal :=
  s.fwDo fun s =>
    if !s.stepEnded 20 && s.led.kind != .powerOn && s.led.kind != .moduleReset then s
    else
    let s := s.ingress
    if !s.stepEnded 20 || !s.boot.identReady then s.emit (.mgmt 143 (spdmError 3))
    else match put s with
      | some b => s.emit (.mgmt 143 (Config.spdmResponse code req b))
      | none => s.emit (.mgmt 143 (spdmError 1))

def execSpdmGetVersion (req : Bytes) (s : State) : Host.Outcome State Fault Refusal := s.spdm 0x84 req fun _ => some [0x13]
def execSpdmGetCapabilities (req : Bytes) (s : State) : Host.Outcome State Fault Refusal := s.spdm 0xE1 req fun _ => some []
def execSpdmNegotiateAlgorithms (req : Bytes) (s : State) : Host.Outcome State Fault Refusal := s.spdm 0xE3 req fun _ => some []
def execSpdmGetDigests (req : Bytes) (s : State) : Host.Outcome State Fault Refusal :=
  s.spdm 0x81 req fun s => some (digestBytes (Config.sha384 (Config.certChain s.buildRecord)))
def execSpdmGetCertificate (req : Bytes) (s : State) : Host.Outcome State Fault Refusal := 
  s.spdm 0x82 req fun s => some (Config.certChain s.buildRecord)
def execSpdmChallenge (req : Bytes) (s : State) : Host.Outcome State Fault Refusal :=
  s.spdm 0x83 req fun _ => some (Config.rsaSign req)
/-- A measurement block of an index, a raw bit stream (R143; its header is SPDM 1.3's: index, specification 1, sizes, and a value type with
the raw bit; PRESUMED, log 85). -/
def spdmBlock (index : Nat) (v : Bytes) : Bytes :=
  leBytes 1 index ++ [1] ++ leBytes 2 (v.length + 3) ++ [0x80] ++ leBytes 2 v.length ++ v

/-- The measurement blocks that a request asks for: the report, carrying the requester's nonce (bytes 4 to 35 of the request), as index
0x10, alone or among all (0xFF); index 0 asks for their count only; any other index names none (R143; log 85). -/
def State.spdmBlocks (s : State) (req : Bytes) : Option Bytes :=
  if u8 req 3 = 0x10 ∨ u8 req 3 = 0xFF then some (spdmBlock 0x10 (s.report (slice req 4 32)))
  else if u8 req 3 = 0 then some [] else none

/-- The response is signed with the RSA identity key (R143). -/
def execSpdmGetMeasurements (req : Bytes) (s : State) : Host.Outcome State Fault Refusal :=
  s.spdm 0xE0 req fun s => (s.spdmBlocks req).map fun b => b ++ Config.rsaSign (req ++ b)

end Sys2Proof.Machine
end

