-- ==== Sys2Proof/Machine/Start.lean ====
section
/-!
DEFINITION. Machine/Start.lean: the twenty start steps (R44, R45, R73, R97 to R104, R111, R120 to R126), adoption, hold-up
(R199 to R203), the Hold window (R238, R289, R488), Brace's end (R316) and the junction temperature (R319, R320).
-/
namespace Sys2Proof.Machine

/-- The start under way has begun again from reset: firmware of steps 12 to 19 is Plaster's (R104). -/
def State.plaster (s : State) : Bool := s.boot.slot == 2

/-! ## Steps 1 to 3: straps, Reckoner, thresholds (R97 to R100, R112, R528) -/

/-- The Reckoner reads flash: the RC oscillator runs for it (R34). -/
def State.reckonerReads (s : State) : State := { s with pwr := { s.pwr with rcOsc := true } }

/-- The Reckoner's option bytes, revocations and minimums (R98, R99, R114 to R116). -/
def State.reckon (s : State) : State :=
  let c := s.obChoose
  let b := c.1.getD obDefaults
  let rv := s.revmin
  let r (o n : Nat) : Nat := rv.elim 0 fun x => le x o n
  { s with ob := { bytes := c.1, stale := c.2.1, oneCopy := c.2.2, defaults := c.1.isNone
                   revoked := BitVec.ofNat 6 (obRevoked.nat b ||| r 0xC 1)
                   minFw := max (obMinFw.nat b) (r 0x10 4), minStruct := max (obMinStruct.nat b) (r 0x14 4)
                   minSite := max (obMinSite.nat b) (r 0x18 4)
                   revminLost := rv.isNone, keyLost := s.keyTables.isEmpty } }

/-- Relief leaves reset, at power-on or at a module reset: a threshold already met is a crossing at that instant (R224). -/
def State.reliefArm (s : State) : State :=
  let s := if s.busLow s.snap.busV then s.crossV else s
  (if s.busHigh s.met.busI then s.crossI else s).enterStage2 s.snap.busV s.met.busI

/-- Step 3 ends: with its thresholds read back, step 4 begins; else the module is held in reset (R101). -/
def State.thresholds (s : State) (ok : Bool) : State :=
  if ok then (s.endStep 3 .ok none).reliefArm.beginStep 4 0 0 else s.endStep 3 .failed none

/-- Input good, with the bus as it stands: the straps are read and the Reckoner runs (R91, R97 to R100, R224, R528). -/
def execInputGood (profile : Nat) (bay : Bool) (mgmt : Nat) (recovery : Bool) (supply : Supply) (s : State) :
    Host.Outcome State Fault Refusal :=
  s.standbyDo fun s =>
    let kind := s.rst.under.getD .powerOn
    if s.pins.inputGood || kind.rank < 3 then s
    else
      let s := { s with pins := { s.pins with inputGood := true, profile := BitVec.ofNat 2 profile, bay := bay
                                              mgmtMode := BitVec.ofNat 2 mgmt, recovery := recovery }
                        rst := { s.rst with under := none, strapForced := s.rst.strapForced || recovery } }
      let s := if kind = .powerOn then
          let s := s.coldLedger.newStart .powerOn 1
          { s with met := { s.met with baseSeq := s.led.startSeq }
                   cap := { s.cap with sites := (List.range 8).map fun n => (n, { s.capS n with restoring := true }) } }
        else s
      let s := s.busKeep (some supply.bus.v) (some supply.bus.i)
      let s := s.wholeStep 1 0 0 .ok
      let s := (s.beginStep 2 0 0).calTable.reckonerReads.reckon
      let s := s.endStep 2 (if s.ob.defaults then .failed else .ok) none
      (s.beginStep 3 0 0).thresholds supply.thresholdsOk

/-- Input good came at most 5 ms ago: a strap that was not stable then is read now (R528). -/
def State.strapsOpen (s : State) : Bool :=
  s.pins.inputGood && (Tbl.find? s.led.cur 1).any fun x => decide (s.plinth ≤ x.endTime + msecs 5)

/-- RECOVERY_REQ_N as sampled continuously (R528): as the reading of input good, which is due within 5 ms, it forces the Plaster path on
this start (DESIGN CHOICE, log 115); later a low that is shorter than 5 s forces nothing (R91), and a release lets Plaster go (R136). -/
def State.recoveryPin (s : State) (low : Bool) : State :=
  let s := { s with pins := { s.pins with recovery := low }
                    rst := { s.rst with strapForced := s.rst.strapForced || (low && s.strapsOpen) } }
  s.plasterLetGo

/-- A strap has been stable for 1 ms, or input good plus 5 ms has passed: it is read (R528). 0 and 1 PROFILE, 2 BAY_ID, 3 and 4
MGMT_MODE, 5 RECOVERY_REQ_N, which is sampled continuously. After step 5 the profile straps act through PROFILE_PINS_STABLE (R76). -/
def execStrapStable (strap : Nat) (value : Bool) (s : State) : Host.Outcome State Fault Refusal :=
  s.standbyDo fun s =>
    if strap = 5 then s.recoveryPin !value
    else if !s.pins.inputGood || s.stepEnded 5 then s
    else match strap with
      | 0 => { s with pins := { s.pins with profile := setBit s.pins.profile 0 value } }
      | 1 => { s with pins := { s.pins with profile := setBit s.pins.profile 1 value } }
      | 2 => { s with pins := { s.pins with bay := value } }
      | 3 => { s with pins := { s.pins with mgmtMode := setBit s.pins.mgmtMode 0 value } }
      | 4 => { s with pins := { s.pins with mgmtMode := setBit s.pins.mgmtMode 1 value } }
      | _ => s

/-! ## Steps 4 and 5 -/

/-- The summaries of a hold-up (R187, R201, R203): 1 input recovered, 2 reset followed. Its duration ends where the reset ended it. They
are records written after the freeze. -/
def State.holdupSummaries (s : State) (kind : Nat) : State :=
  let dur := min 0xFFFFFFFF (ticksToUs (s.snap.holdEnd.getD s.plinth - s.snap.holdStart))
  let sums := sortBy (fun (a b : Nat × Nat × Nat × Nat) => decide (a.1 ≤ b.1)) s.snap.sums
  let s := sums.foldl (fun (s : State) e =>
    s.pushRec { s.mkRec 0x07 e.1 kind (if e.1 < 8 then some e.1 else none)
      (leBytes 4 e.2.1 ++ leBytes 4 e.2.2.1 ++ leBytes 4 e.2.2.2 ++ leBytes 4 dur ++ leBytes 2 (min s.snap.minBus 0xFFFF) ++
        zeros 10) with queued := true }) s
  { s with snap := { s.snap with sums := [], holdEnd := none } }

/-- Steps 5, 6 and 7 begin, in the forms that their histories give: step 5 with MAQ_FORCE_P0 after a failure (R73, R101). -/
def State.begin567 (s : State) : State :=
  let s := { s with maq := { s.maq with forceP0 := decide (1 ≤ s.carry 5) } }
  ((s.beginStep 5 (min 1 (s.carry 5)) 0).beginStep 6 (min 1 (s.carry 6)) 0).begin7

/-- Step 4: standby dies and links, counters restored, accelerometer checked; summaries of a hold-up that a reset ended
(R185, R203, R318, R537). Steps 5, 6 and 7 begin. -/
def execStandbyDiesUp (accelOk : Bool) (s : State) : Host.Outcome State Fault Refusal :=
  s.standbyDo fun s =>
    if !s.stepRuns 4 then s
    else
      let s := s.restoreCounters.accelTest accelOk
      let s := if s.snap.sums.isEmpty then s else s.holdupSummaries 2
      let s := { s with rst := { s.rst with wardenHeld := 0 } }
      let s := (s.endStep 4 .ok none).startPage
      s.begin567

/-- Step 5: profiles in their order until one commits (R73). With another than the first committed, or none, the step is a counted
failure, and DETAIL names the profile that failed (R105, R107). -/
def State.loadStep (s : State) : State :=
  let first := s.loadOrder.headD 0
  let r := (s.startLoad s.loadOrder).noteLoad first
  r.1.endStep 5 (if r.2 then .ok else .failed) (some first)

def execMaquetteStartLoad (s : State) : Host.Outcome State Fault Refusal :=
  s.standbyDo fun s => if s.stepRuns 5 then s.reckonerReads.loadStep else s

/-! ## Step 7: the core domain -/

/-- Step 7 has failed: the core domain is down, and its rails with it (R29, R101). -/
def State.coreFails (s : State) : State := ((s.restartOver .coreDie).orderDown 256 24 (s.stepRails 7)).settle 256

/-- Step 7 ends, and with it a core-die restart (R86, R101). -/
def State.coreUp (s : State) (ok : Bool) : State :=
  if ok then
    let s := ({ s with pwr := { s.pwr with core := true } } : State).restartOver .coreDie
    (s.endStep 7 .ok none).beginStep 8 0 0
  else (s.endStep 7 .failed none).coreFails

/-- Step 7. At CARRY 2 or more the core domain is kept off until its retry timer (R101); so it is while an over-temperature
reset is held (R90). -/
def execCoreDomainUp (ok : Bool) (s : State) : Host.Outcome State Fault Refusal :=
  s.standbyDo fun s =>
    if !s.stepRuns 7 || s.rst.otHeld || (s.stepOf 7).any (fun x => x.form == 2) then s else s.coreUp ok

/-! ## Step 8: die identities (R42 to R45) -/

/-- Step 8: identities read and compared; a die of type 0 did not answer and is absent, with the consequences of R45: the channels of a
Survey die go stale as R175 says, and with the Plinth die absent the start goes no further and no tray line is driven. -/
def State.identify32 (s : State) (ids : List Bytes) : State :=
  let id (n : Nat) : Bytes := (ids[n]?.getD [] ++ zeros 11).take 11
  let absent := maskOf ((List.range 32).filter fun n => u8 (id n) 9 = 0)
  let b := s.buildRecord
  let diff := (List.range 32).find? fun n => id n != Config.buildDie b n
  let s := { s with pwr := { s.pwr with
      dieId := (List.range 32).map fun n => (n, id n)
      absent := BitVec.ofNat 32 absent, identMismatch := diff.isSome, identFirst := BitVec.ofNat 5 (diff.getD 0)
      calFenced := s.pwr.calFenced || absent.testBit 5 } }
  let s := if diff.isSome then s.event 0 44 (diff.getD 0) 0 else s
  let s := ((List.range 16).filter fun d => absent.testBit (8 + d)).foldl (fun (s : State) d => s.dieStale d) s
  if absent.testBit 7 then ({ s with pair := { s.pair with outputs := false } } : State).endStep 8 .failed diff
  else (s.endStep 8 (if diff.isSome || absent != 0 then .failed else .ok) diff).begin9

/-- Step 8. The core die reads the identities: where it does not answer, none is read, the step has failed and the start goes no further
(R45). -/
def execDieIdentityCheck (ids : List Bytes) (s : State) : Host.Outcome State Fault Refusal :=
  s.coreDo fun s =>
    if !s.stepRuns 8 then s
    else if u8 (ids[0]?.getD []) 9 != 0 then s.identify32 ids
    else ({ s with pwr := { s.pwr with absent := setBit s.pwr.absent 0 true } } : State).endStep 8 .failed (some 0)

/-! ## Step 9: stacked SRAM and the Armature (R24, R434) -/

/-- A lockstep pair fails; twice within 24 h excludes it until power-on (R434). -/
def State.pairFails (s : State) (p : Nat) : State :=
  let again := (Tbl.find? s.pwr.pairTime p).any fun t => decide (s.plinth < t + secs 86400)
  { s with pwr := { s.pwr with pairFailed := setBit s.pwr.pairFailed p true, pairTime := Tbl.set s.pwr.pairTime p s.plinth
                               pairStuck := if again then setBit s.pwr.pairStuck p true else s.pwr.pairStuck } }

/-- The Armature domain is up on its healthy pairs, and an Armature restart is over (R24, R86, R101). -/
def State.armUp (s : State) : State :=
  ({ s with pwr := { s.pwr with sram := true, armature := decide (s.pwr.pairFailed ≠ 15#4)
                                caliper := !s.pwr.calFenced && !s.cal.selfFenced } } : State).restartOver .armature

/-- Step 10 begins. With no healthy pair, or with SRAM die 1 absent, the start stops at the boot ROM stage; it records that die by one event
(R24, R45; log 114). -/
def State.begin10 (s : State) : State :=
  if s.pwr.absent.getLsbD 6 then s.event 0 45 6 0
  else if s.pwr.armature then s.beginStep 10 0 0 else s

/-- Step 9: SRAM and Armature up, pairs tested, the failed excluded (R24, R101). -/
def execArmatureLockstepCheck (failed : Nat) (s : State) : Host.Outcome State Fault Refusal :=
  s.coreDo fun s =>
    if !s.stepRuns 9 || decide (s.haz.tjState = 1) then s
    else
      let new := (bitsOf 4 failed).filter fun p => !s.pwr.pairFailed.getLsbD p
      let s := new.foldl State.pairFails s
      (s.armUp.endStep 9 (if new.isEmpty && !s.pwr.absent.getLsbD 6 then .ok else .failed) (some s.pwr.pairFailed.toNat)).begin10

/-! ## Step 10: repair, slot choice and release (R98, R111, R120 to R126) -/

/-- A range of the protected region rewritten from the device where it is valid (R111). -/
def State.repair (s : State) (off size : Nat) (ok0 ok1 : Bool) : State :=
  if ok0 && !ok1 then s.fstore 1 off size (s.fread 0 off size)
  else if ok1 && !ok0 then s.fstore 0 off size (s.fread 1 off size) else s

/-- The repairs before the lock; none while Brace holds or hold-up is active (R98, R111). Of the option bytes the stale or invalid
copy alone is rewritten, from the copy that the devices now hold as the better. -/
def State.repairAll (s : State) : State :=
  if s.brace || s.snap.holdup then s
  else
    let s := match s.obChoose with
      | (some b, stale, one) => if stale || one then
          [0, 1].foldl (fun (s : State) d => if s.fread d 0 256 = b then s else s.fstore d 0 4096 b) s
        else s
      | (none, _, _) => s
    let s := s.repair 0x1000 4096 (s.revminCopy 0).isSome (s.revminCopy 1).isSome
    let s := s.repair 0x2000 4096 (s.keyCopy 0).isSome (s.keyCopy 1).isSome
    let s := s.repair 0x3000 49152 (Config.buildValid (s.fread 0 0x3000 49152)) (Config.buildValid (s.fread 1 0x3000 49152))
    s.repair plasterOff plasterSize (s.plasterCheck 0).isNone (s.plasterCheck 1).isNone

/-- Slots with a valid install record: VERSION descending, INSTALL_COUNT descending, A before B (R123). -/
def State.slotOrder (s : State) : List Nat :=
  let v (k : Nat) : Nat := manVersion (s.manifestAt k slotOff)
  let bFirst := decide (v 0 < v 1) || (v 0 == v 1 && decide (s.installCount 0 < s.installCount 1))
  (if s.installed 0 && s.installed 1 && bFirst then [1, 0] else [0, 1]).filter s.installed

/-- Why a candidate of step 10 is not usable (R123): slots A and B are 0 and 1, Plaster copies 0 and 1 are 2 and 3. -/
def State.imageCheck (s : State) (k : Nat) : Option Nat := if k < 2 then s.slotCheck k else s.plasterCheck (k - 2)

/-- SLOT_ERR of a candidate, with one event for a slot (R123). -/
def State.slotFails (s : State) (k code : Nat) : State :=
  let s := { s with boot := { s.boot with slotErr := Tbl.set s.boot.slotErr k code } }
  if k < 2 then s.event 2 123 k code else s

/-- The first candidate that passes every check; each that fails is named in SLOT_ERR (R123). -/
def State.trySlots (s : State) : List Nat → State × Option Nat
  | [] => (s, none)
  | k :: r => match s.imageCheck k with
    | none => ({ s with boot := { s.boot with slotErr := Tbl.del s.boot.slotErr k } }, some k)
    | some c => (s.slotFails k c).trySlots r

/-- The Plaster path is forced: the strap, OB_DEFAULTS, REVMIN_LOST (R123). -/
def State.plasterForced (s : State) : Bool := s.rst.strapForced || s.ob.defaults || s.ob.revminLost

/-- The candidates of step 10 in their order (R123). -/
def State.candidates (s : State) : List Nat := (if s.plasterForced then [] else s.slotOrder) ++ [2, 3]

/-- Slots that the choice of a higher version leaves untried: SLOT_ERR still names one below the minimum (R124, "Below minimum"; log
68). -/
def State.noteBelow (s : State) (l : List Nat) : State :=
  l.foldl (fun (s : State) k =>
    if k < 2 ∧ manVersion (s.manifestAt k slotOff) < s.ob.minFw then s.slotFails k 0x23 else s) s

/-- A choice among candidates, with the path it takes (R95, R123, R125). Where none is left, ROM service runs: R95 gives
BOOT_LAST_CAUSE.DETAIL no code for it, and DETAIL stays as the reset left it (DESIGN CHOICE, log 69). -/
def State.chooseFrom (s : State) (cands : List Nat) : State :=
  let r := s.trySlots cands
  match r.2 with
  | some k =>
    let s := r.1.noteBelow ((cands.dropWhile (· != k)).drop 1)
    { s with boot := { s.boot with chosen := some k, slot := min k 2, romService := false }
             rst := { s.rst with bootLast := { s.rst.bootLast with detail := BitVec.ofNat 8 (min k 2) } } }
  | none => { r.1 with boot := { r.1.boot with chosen := none, romService := true } }.endStep 10 .failed none

/-- Step 10's choice, and the repairs before the lock (R111, R123, R124). -/
def State.choose (s : State) : State := (s.chooseFrom s.candidates).repairAll

/-- The choice goes on behind the candidate in hand, or behind the first where none is chosen yet (R101, R433). -/
def State.chooseNext (s : State) : State :=
  let c := s.candidates
  let rest := match s.boot.chosen with
    | some k => (c.dropWhile (· != k)).drop 1
    | none => c.drop 1
  s.chooseFrom rest

def execImageSlotChoice (s : State) : Host.Outcome State Fault Refusal :=
  s.coreDo fun s => if s.stepRuns 10 && s.boot.chosen.isNone then s.choose else s

/-- Where a choice of step 10 stands. -/
def imgAt (k : Nat) : Nat × Nat := if k < 2 then (k, slotOff) else (k - 2, plasterOff)

/-- What the boot ROM leaves of the image it releases (R121, R142). -/
def State.imageOf (s : State) (k : Nat) : RunImage :=
  let m := s.manifestAt (imgAt k).1 (imgAt k).2
  { version := manVersion m, keySlot := manKey m, digest := manDigest m, ifVersion := u16 m 0x1C, pairProto := u16 m 0x1E
    hashes := (List.range (manBlocks m)).map (manHash m), loadBlocks := manLoad m }

/-- The handover lock is set, the region released, the watchdog counts, and step 11 begins (R87, R120, R126). -/
def execQuarantineRelease (s : State) : Host.Outcome State Fault Refusal :=
  s.coreDo fun s => match s.boot.chosen with
    | none => s
    | some k =>
      let s := { s with boot := { s.boot with chosen := none, run := some (s.imageOf k) }
                        rst := { s.rst with locked := true, wdtRunning := true } }
      (s.endStep 10 .ok (some (min k 2))).beginStep 11 0 (min k 2)

/-- A Plaster image in ROM service: verified, written to copy 0 and then copy 1, and a module reset (R125; log 23). No
Plaster write starts under Brace or in hold-up (R200, R317). -/
def execRomServicePlasterImage (image : Bytes) (s : State) : Host.Outcome State Fault Refusal :=
  s.coreDo fun s =>
    if !s.boot.romService || s.brace || s.snap.holdup || (s.imgCheck image 2 plasterSize none).isSome || (imgBad image).isSome then s
    else
      let n := s.nextCount plasterOff
      let s := s.writeArea 0 plasterOff plasterSize n (imgManifest image) (imgBody image)
      let s := s.writeArea 1 plasterOff plasterSize n (imgManifest image) (imgBody image)
      s.swReset 6 .moduleReset

/-! ## Steps 11 to 20 -/

/-- Step 19 in its form (R101, R104). -/
def State.begin19 (s : State) : State := if s.plaster then s else s.beginStep 19 (min 1 (s.carry 19)) 0

/-- Sites that step 18 leaves under their latches after a failure (R101). -/
def State.leftSites (s : State) : Nat := if 1 ≤ s.carry 18 then s.lastDetail 18 else 0

/-- Step 18 ends once no site waits to be judged, and for a controller that is not Lead; step 19 follows (R102). DETAIL holds the sites
left under their latches; one that no earlier failure named makes the step a failure (R101, R105). -/
def State.laterSteps (s : State) : State :=
  if s.stepRuns 18 && (s.seq.toAdopt == 0#8 || s.pair.st == .partner) then
    let bad := (s.stepOf 18).elim 0 LedgerEntry.detail
    (s.endStep 18 (if bad ||| s.leftSites = s.leftSites then .ok else .failed) (some bad)).begin19
  else s

/-- Step 18 begins: the sites of this start that already stand UNADOPTED enter its DETAIL. -/
def State.begin18 (s : State) : State :=
  let bad := (List.range 8).filter fun n => (s.site n).st == .unadopted
  (s.beginStep 18 (min 1 (s.carry 18)) (if 3 ≤ s.led.kind.rank then maskOf bad else 0)).laterSteps

/-- A site that step 18 leaves UNADOPTED enters its DETAIL. -/
def State.noteSite (s : State) (n : Nat) : State :=
  match Tbl.find? s.led.cur 18 with
  | some x =>
    if x.outcome = .inProgress ∧ (s.site n).st = .unadopted then s.putEntry 18 { x with detail := x.detail ||| 2 ^ n } else s
  | none => s

/-- Step 12 in its form: Plaster does not run it, after a failure it is skipped for now (R101, R104). -/
def State.begin12 (s : State) : State :=
  if s.plaster then s.wholeStep 12 4 0 .notRun
  else if 1 ≤ s.carry 12 then s.wholeStep 12 1 0 .okAlternate
  else (s.beginStep 12 0 0).pointingRole

/-- Step 13 in its form: a port that failed is left down after a failure (R101). -/
def State.begin13 (s : State) : State :=
  let s : State := if 1 ≤ s.carry 13 then { s with mgt := { s.mgt with portDown := setBit s.mgt.portDown (s.lastDetail 13 % 2) true } } else s
  s.beginStep 13 (min 1 (s.carry 13)) 0

/-- The first management port left down, and the first fabric port whose die answered and whose link is down: DETAIL of steps 13 and 14
(R105). -/
def State.mgmtDown (s : State) : Option Nat := (List.range 2).find? fun p => s.mgt.portDown.getLsbD p
def State.fabricDown (s : State) : Option Nat := (List.range 2).find? fun p => !s.pwr.absent.getLsbD (1 + p) && !s.ebx.up.getLsbD p

/-- Step 14 in its form. -/
def State.begin14 (s : State) : State :=
  if s.plaster then s.wholeStep 14 4 0 .notRun
  else if 1 ≤ s.carry 14 then s.wholeStep 14 1 0 .okAlternate
  else s.beginStep 14 0 0

/-- Without a channel that serves or trains the memory domain's rails go off and what stood in DRAM is lost (R391, R435); what Caliper
carries out ends NO_MEMORY (R397; log 129). -/
def State.noDimms (s : State) : State :=
  if (List.range 4).all fun k => (s.ch k).st == .absent || (s.ch k).st == .outOfService then
    let s := s.calStop 0x84
    let s := (List.range 8).foldl (fun (s : State) n => s.gaugeUnload n 4) s
    let s := { s with pwr := { s.pwr with memory := false }, gimg := [], ckpt := [], cal := { s.cal with ring := [] } }
    (s.orderDown 256 24 0xFC000).settle 256
  else s

/-! ## Channels leaving and returning (R422 to R424, R435) -/

/-- A channel leaves service: refresh stops and its rail goes down (R422). -/
def State.chDown (s : State) (n cause : Nat) : State :=
  if (s.ch n).st = .outOfService ∨ (s.ch n).st = .absent then s
  else (((s.chOut n cause).orderDown 256 24 (2 ^ (16 + n))).settle 256).noDimms

/-- The journal ring and the tables of a pair as far as the channel's fill leaves them; the copy from the mirror is one step
of the model (R405, R406). -/
def State.mirrorCopy (s : State) (n : Nat) : State :=
  let m := n / 2 * 2 + (1 - n % 2)
  if (s.jpair (n / 2)).mirrorLost && (s.ch m).st == .inService then
    let top := s.ringSize (n / 2) + 4 * gb
    let from' := s.dram.filter fun c => decide (m * chSize ≤ c.1) && decide (c.1 < m * chSize + top)
    { s with dram := from'.foldl (fun d c => Memory.put 0 d (c.1 - m * chSize + n * chSize) c.2) s.dram }
  else s

/-- A fill completes: IN_SERVICE, one RETURNED record, and the pair is whole again once copied (R422, R428). -/
def State.fillDone (s : State) (n : Nat) : State :=
  let c := s.ch n
  let s := s.setCh n { c with st := .inService, filled := [], front := c.cap / 0x100000, kept := true, scrubPos := 0 }
  ((s.memEvent n 4 0 0 0 0).mirrorCopy n).mirrorCheck (n / 2)

/-- A fill begins at address 0: every byte reads 0 and passes its checks (R428). -/
def State.fillStart (s : State) (n : Nat) : State :=
  let s := s.setCh n { s.ch n with st := .filling, front := 0, filled := [], bad := [], kept := false, fillCut := false
                                   cause := 0 }
  { s with dram := Memory.clear s.dram (n * chSize) chSize }

/-- The rate that a channel runs at, of the highest that the DIMM's SPD allows: 8800 MT/s, or 8000 or 6400 where it allows no higher
(R417). -/
def dimmRate (spd : Nat) : Nat := if 8800 ≤ spd then 8800 else if 8000 ≤ spd then 8000 else 6400

/-- A supported module: an MRDIMM of 32, 64, 128 or 256 GB whose SPD allows one of the three rates (R417). -/
def dimmOk (mrdimm : Bool) (spd capGB : Nat) : Bool := mrdimm && decide (6400 ≤ spd) && [32, 64, 128, 256].contains capGB

/-- The saved training record of a channel: serial, rate, settings and the CRC-32C over them, 512 bytes (R421; the manual gives the fields no
places: DESIGN CHOICE, log 133). The settings are the hardware's own. -/
def trainRecord (ch serial rate : Nat) : Bytes :=
  let b := leBytes 4 serial ++ leBytes 4 rate ++ (Config.trainSettings ch serial rate ++ zeros 500).take 500
  b ++ leBytes 4 (crc32c b)

/-- A saved record is valid for the DIMM whose SPD gives a serial: its CRC holds and its serial is that one (R421). -/
def trainValid (b : Bytes) (serial : Nat) : Bool := u32 b 508 == crc32c (b.take 508) && u32 b 0 == serial % 2 ^ 32

/-- A channel that did not train, or must not, is out of service and keeps no saved training. -/
def State.chFails (s : State) (n cause : Nat) : State :=
  ({ s with led := { s.led with savedTrain := Tbl.del s.led.savedTrain n } } : State).chDown n cause

/-- A fill cut short by a reset lost the contents. -/
def State.chCutLost (s : State) (n : Nat) (cut : Bool) : State :=
  if cut then (s.setCh n { s.ch n with lost := true }).memEvent n 7 0 0 0 0 else s

/-- The saved form trains a channel: a warm restart at CARRY 0 with a valid record of the fitted DIMM; any other success makes a new record
(R420, R421). -/
def State.savedForm (s : State) (n serial : Nat) : Bool :=
  s.stepRuns 15 && s.led.kind != .powerOn && s.carry 15 == 0 && (Tbl.find? s.led.savedTrain n).any fun b => trainValid b serial

/-- A channel whose training has ended takes its state (R417, R422, R423, R428, R45). -/
def State.chTrained (s : State) (n : Nat) (t : TrainReport) : State :=
  let c := s.ch n
  let same := c.serial = t.serial
  let kept := c.kept && !c.fillCut && same
  let cut := c.fillCut && same
  let rate := if s.savedForm n t.serial then u32 (Tbl.get [] s.led.savedTrain n) 4 else t.rate
  let s := s.setCh n { c with st := .training, cap := t.cap * gb, serial := t.serial, rate := rate }
  let s := { s with led := { s.led with serials := Tbl.set s.led.serials n t.serial } }
  if s.pwr.absent.getLsbD (3 + n % 2) then s.chFails n 5
  else if !t.supported then s.chFails n 2
  else if !t.trained then s.chFails n (if cut then 8 else 1)
  else
    let s := { s with led := { s.led with savedTrain := Tbl.set s.led.savedTrain n (trainRecord n t.serial rate) } }
    let s := (s.orderUp 256 24 (maskOf [14, 15, 16 + n])).settle 256
    let s := { s with pwr := { s.pwr with memory := true } }
    if kept then s.setCh n { s.ch n with st := .inService, front := t.cap * 1024, cause := 0 }
    else (s.chCutLost n cut).fillStart n

/-- A channel whose training did not end in time, or that a start without DIMMs leaves out, is out of service (R101, R422, R423): for its
PHY die, for a fill that a restart cut, else for its training (log 130). -/
def State.chNoTrain (s : State) (n : Nat) : State :=
  let s := s.setCh n { s.ch n with st := .training }
  s.chFails n (if s.pwr.absent.getLsbD (3 + n % 2) then 5 else if (s.ch n).fillCut then 8 else 1)

/-- Step 15 has passed its time: the channels that had reported take their states, those without a report did not train (R101). -/
def State.chsTimedOut (s : State) : State :=
  let s := (List.range 4).foldl (fun (s : State) k => match Tbl.find? s.mem.reports k with
    | some (some t) => s.chTrained k t
    | some none => s
    | none => s.chNoTrain k) s
  ((List.range 2).foldl (fun (s : State) p => s.mirrorCheck p) s).noDimms

/-- Channels without a report of their training in step 15, or with one of a failure: its DETAIL (R105). -/
def State.untrained (s : State) : Nat :=
  maskOf ((List.range 4).filter fun k => (Tbl.find? s.mem.reports k).all fun r => r.any fun t =>
    !t.supported || !t.trained || s.pwr.absent.getLsbD (3 + k % 2))

/-- REGION_CLAMPED: J of a pair is lower than JRN_REGION (R419). -/
def State.clampCheck (s : State) : State :=
  { s with jrn := { s.jrn with clamped := [0, 1].any fun p => s.pairServes p && decide (s.ringSize p < s.jrn.regionNow * gb) } }

/-- Step 15 in its form; Plaster runs neither it nor step 16. The second alternate form starts without DIMMs, and ends at once: every
channel is out of service, from which RETURN brings one back (R101, R435; log 70). -/
def State.begin15 (s : State) : State :=
  let s := { s with mem := { s.mem with reports := [] } }
  if s.plaster then (s.wholeStep 15 4 0 .notRun).wholeStep 16 4 0 .notRun
  else if 2 ≤ s.carry 15 then
    let s := (List.range 4).foldl State.chNoTrain s
    (s.wholeStep 15 2 0 .ok).noDimms.beginStep 16 0 0
  else s.beginStep 15 (s.carry 15) 0

/-- Step 17 in its form: Caliper fenced after a failure, the self-test skipped on a warm start within a day of the last, but never
after a fence of Caliper's own (R101, R371, R383). -/
def State.begin17 (s : State) : State :=
  if s.plaster then s.wholeStep 17 4 0 .notRun
  else if 1 ≤ s.carry 17 then
    s.calFence.wholeStep 17 1 0 .ok
  else if s.pwr.calFenced ∨ s.cal.selfFenced then s.wholeStep 17 0 0 .failed
  else if s.led.kind ≠ .powerOn ∧ s.selfTest ≠ 0 ∧ s.plinth < s.selfTest + secs 86400 ∧ ¬ s.cal.testDue then
    s.wholeStep 17 3 0 .skippedWarm
  else s.beginStep 17 0 0

/-- The steps that firmware carries out begin; after an Armature restart step 20 alone (R101, R102, R104). -/
def State.beginSteps (s : State) : State :=
  if s.led.kind = .armature then s.beginStep 20 0 0
  else
    let s := s.begin12.begin13.begin14.begin15.begin17
    let s := s.begin18
    (if s.plaster then s.wholeStep 19 4 0 .notRun else s).beginStep 20 0 0

/-- Firmware runs: step 11 ends and the steps it carries out begin; HOLD ends and the cooling watchdog restarts (R289). -/
def State.firmwareRuns (s : State) : State :=
  if !s.stepRuns 11 then s
  else
    let s := s.endStep 11 .ok none
    ({ s with cool := { s.cool with hold := false, suspended := false, wdtAt := s.plinth } } : State).beginSteps

/-- Adoption of one site that waits for it (R102, R168). -/
def execSiteAdoption (site : Nat) (rom : Bytes) (good off latched ep : Nat) (digest : Bytes) (version : Nat) (s : State) :
    Host.Outcome State Fault Refusal :=
  s.standbyDo fun s =>
    if site < 8 && s.seq.toAdopt.getLsbD site && s.pair.st == .lead && s.maq.live.isSome then
      let s := s.adopt site rom good off latched ep digest version (s.leftSites.testBit site)
      (({ s with seq := { s.seq with toAdopt := setBit s.seq.toAdopt site false } } : State).noteSite site).laterSteps
    else s

/-- MODEL_DIGEST of an image kept in self-refresh still matches: its slot is loaded again (R391). -/
def State.gaugeKeep (s : State) (n : Nat) : State :=
  match Tbl.find? s.gimg n with
  | some b =>
    if s.hasDram && gaugeUsed (s.gaugeDef n) && Config.sha384 b == digestAt (s.gaugeDef n) 0x10 then
      s.setSlot n { s.slot n with loaded := true, entry := s.gaugeDef n }
    else { s with gimg := Tbl.del s.gimg n }
  | none => s

/-- Step 16: recovery of the journal, or a new epoch at a power-on or where it fails (R391, R411, R414). -/
def execJournalRecovery (s : State) : Host.Outcome State Fault Refusal :=
  s.armDo fun s =>
    let s := s.firmwareRuns
    if !s.stepRuns 16 then s
    else
      let s := (List.range 8).foldl State.gaugeKeep s
      if s.led.kind = .powerOn then s.jrnNewEpoch.endStep 16 .ok none
      else if s.hasDram && s.jrnAgrees then s.sealLost.endStep 16 .ok none
      else s.jrnNewEpoch.endStep 16 .failed none

/-- Step 17 ends, and with it a Caliper-only reset (R86; log 64). -/
def State.endStep17 (s : State) (o : StepEnd) (detail : Nat) : State :=
  let s := s.endStep 17 o (some detail)
  s.restartOver .caliperOnly

/-- The Caliper self-test: failing tiles are fenced, with one record each; with none passing Caliper is fenced and step 17
fails (R371). -/
def State.calSelfTest (s : State) (failing : Nat) : State :=
  let bad := s.usableTiles.filter failing.testBit
  let s : State := { s with cal := { s.cal with testDue := false } }
  let s := bad.foldl (fun (s : State) t =>
    ({ s with cal := { s.cal with fencedMap := setBit s.cal.fencedMap t true } } : State).calEvent t 1 0xFF 1 0) s
  if s.usableTiles.isEmpty then
    s.calFence.endStep17 .failed failing
  else ({ s with selfTest := s.plinth } : State).endStep17 .ok 0

def execCaliperSelfTest (failing : Nat) (s : State) : Host.Outcome State Fault Refusal :=
  s.coreDo fun s =>
    let s := s.firmwareRuns
    if s.stepRuns 17 && s.pwr.caliper then s.calSelfTest failing else s

/-- Step 19: sites whose digest differs from a matching entry of a higher VERSION need a push; none at CARRY 1 or more
(R101, R138). -/
def execSiteImageDigestCheck (s : State) : Host.Outcome State Fault Refusal :=
  s.armDo fun s =>
    let s := s.firmwareRuns.laterSteps
    if !s.stepRuns 19 then s
    else
      let need := (List.range 8).filter fun n => match s.matchingEntry n with
        | some x =>
          let m := s.manifestAt x.2 (storeOff x.1)
          manDigest m != (s.site n).imageDigest && decide ((s.site n).imageVersion < manVersion m)
        | none => false
      let push := if 1 ≤ s.carry 19 then [] else need
      { s with boot := { s.boot with needPush := BitVec.ofNat 8 (maskOf push) } }.endStep 19 .ok (some (maskOf need))

/-- A record says that a site's counters changed owner: a COUNTER_SNAPSHOT of one of its rails with RETIRED set (R184, R186). -/
def retiresSite (b : Bytes) (src : Nat) : Bool :=
  u8 b 5 == 5 && decide (src < 8) && u16 b 6 / 32 == src && (u8 b 0x19).testBit 3

/-- The newest PATINA record of a source and kind in the ring, none where the counters of the site that wrote it have been retired
since, for they follow its SITE_SERIAL (R184, R236). -/
def State.patinaRec (s : State) (src kind : Nat) : Option Bytes :=
  if s.log.queue.any fun x => x.retired && x.typ == 5 && x.source / 32 == src then none
  else
    ((List.range ringSlots).foldl (fun (best : Option Bytes) k => match s.slotView k with
      | .held b _ =>
        if (u8 b 5 = 0x12 ∧ u16 b 6 = src ∧ u8 b 0x1A = kind) ∨ retiresSite b src then match best with
          | none => some b
          | some c => if precedes (recPlace c) (recPlace b) then some b else best
        else best
      | _ => best) none).filter fun b => u8 b 5 == 0x12

/-- A counter of 32 bits from a record. -/
def recCnt (b : Bytes) (o : Nat) : Cnt := { val := BitVec.ofNat 32 (u32 b o), sat := false }

/-- Run hours and starts of a fan from the record found for it (R236). -/
def State.patinaFanFrom (s : State) (c : Nat) (r : Option Bytes) : State :=
  match r with
  | some b => { s with pat := { s.pat with run := Tbl.set s.pat.run c (recCnt b 0x20), starts := Tbl.set s.pat.starts c (recCnt b 0x24) } }
  | none => s

/-- Run hours and starts of a fan from its newest record (R236). -/
def State.patinaFan (s : State) (c : Nat) : State := s.patinaFanFrom c (s.patinaRec (0x100 + c) 3)

/-- The counters of one site's Patina from the two records found for it (R236). -/
def State.patinaRefillFrom (s : State) (n : Nat) (r1 r2 : Option Bytes) : State :=
  let p := s.patina n
  let t := match r1 with
    | some b => (List.range 7).foldl (fun t i => Tbl.set t i (recCnt b (0x20 + 4 * i))) p.cnt
    | none => p.cnt
  let t := match r2 with
    | some b => (List.range 6).foldl (fun t i => Tbl.set t (7 + i) (recCnt b (0x20 + 4 * i))) t
    | none => t
  -- restored counters of a site not yet identified belong to the serial that its rail counters belong to (R184; DEDUCED, log 120)
  s.setPatina n { p with cnt := t, serial := if p.serial = 0 ∧ (r1.isSome ∨ r2.isSome) then Tbl.get 0 s.rcnt.owners n else p.serial }

/-- The counters of one site's Patina from its newest records (R236). -/
def State.patinaRefill (s : State) (n : Nat) : State := s.patinaRefillFrom n (s.patinaRec n 1) (s.patinaRec n 2)

/-- After a power-on the Armature restores Patina from the newest records (R236). -/
def State.patinaRestore (s : State) : State :=
  let s := (List.range 40).foldl State.patinaFan ((List.range 9).foldl State.patinaRefill s)
  { s with cap := { s.cap with sites := (List.range 8).map fun n => (n, { s.capS n with restoring := false }) } }

/-- Step 20 ends: full service (R101, R131, R138, R236, R266, R289, R481). -/
def State.fullService (s : State) : State :=
  let s := s.firmwareRuns.laterSteps
  if !s.stepRuns 20 then s
  else
    let s := s.endStep 12 (if s.pnt.valid then .ok else .failed) none
    let s := s.endStep 13 .ok none
    let s := s.endStep 14 (if s.fabricDown.isNone then .ok else .failed) s.fabricDown
    let s := s.endStep 20 .ok none
    let s := if (s.capS 0).restoring then s.patinaRestore else s
    let s := if (s.chiS 0).restored then s else s.chiRestore
    let s := if 1 ≤ s.carry 12 ∧ s.led.kind ≠ .armature then s.pointingRole else s
    let s := { s with boot := { s.boot with dwellRunning := true }
                      cool := { s.cool with suspended := false, hold := false, wdtAt := if s.cool.suspended then s.plinth else s.cool.wdtAt }
                      pair := { s.pair with yielding := false } }
    s.startPushes

def execFullServiceReported (s : State) : Host.Outcome State Fault Refusal := s.fwDo State.fullService

/-! ## Timeouts and retries (R101) -/

/-- An Armature restart that no source of R85 asks for: no sticky bit is set (R101 step 11, R320). -/
def State.armatureAgain (s : State) : State :=
  let s := s.armatureStop.bootAgain
  let s := { s with rst := { s.rst with under := some .armature, underCode := 0xFF } }
  (s.newStart .armature 0).begin9

/-- What follows from a step's failure by timeout. -/
def State.timeoutEffect (s : State) (n : Nat) : State :=
  match n with
  | 3 => s
  | 4 => s.begin567
  | 5 =>
    let l := s.loadOrder
    ((s.startLoad (l.drop 1)).noteLoad (l.headD 0)).1
  | 6 => if s.pair.st = .undecided then { s with pair := { s.pair with st := .partner } }.record 0x21 (bitAt s.pins.bay 0) 2 none
      (zeros 4 ++ [0] ++ leBytes 1 3 ++ zeros 2 ++ leBytes 1 s.pair.holdWindow ++ zeros 19) else s
  | 7 => s.coreFails
  | 8 => if s.pwr.absent.getLsbD 0 || s.pwr.absent.getLsbD 7 then s else s.begin9
  | 9 => if s.haz.tjState = 1 then s else s.armUp.begin10
  | 10 => s.chooseNext.repairAll
  | 11 => s.armatureAgain
  | 13 => { s with mgt := { s.mgt with portDown := 3 } }
  | 15 =>
    let s := s.chsTimedOut.clampCheck
    ({ s with led := { s.led with savedTrain := [] } } : State).beginStep 16 0 0
  | 16 => s.jrnNewEpoch
  | 17 => ({ s with cal := { s.cal with fencedMap := BitVec.allOnes 16 } } : State).endStep17 .timeout 0
  | 18 => ({ s with seq := { s.seq with toAdopt := 0 } } : State).begin19
  | 19 => { s with boot := { s.boot with needPush := 0 } }
  | _ => s

/-- A step reaches twice its done-by time and ends TIMEOUT (R101). -/
def execStartStepTimeout (step : Nat) (s : State) : Host.Outcome State Fault Refusal :=
  s.standbyDo fun s =>
    if !s.stepRuns step then s
    else
      let detail := if step = 15 then some s.untrained else if step = 5 then s.loadOrder.head?
        else if step = 9 then some s.pwr.pairFailed.toNat else if step = 13 then some 0 else if step = 14 then s.fabricDown
        else if step = 18 then some ((s.stepOf 18).elim 0 LedgerEntry.detail ||| s.seq.toAdopt.toNat) else none
      (s.endStep step .timeout detail).timeoutEffect step

/-- The retry period of a failed step elapses and it runs again: steps 3, 6 and 7, and the ports of 13 and 14 after step 20
(R101). `ok` is how the retry ends. -/
def execStartStepRetryTimer (step : Nat) (ok : Bool) (s : State) : Host.Outcome State Fault Refusal :=
  s.standbyDo fun s =>
    if step = 3 then
      if s.stepEnded 3 && !s.stepEnded 4 && !s.stepRuns 4 then (s.beginStep 3 0 0).thresholds ok else s
    else if step = 6 then
      if s.stepEnded 6 && decide (s.pair.st = .partner) then s.wholeStep 6 (min 1 (s.carry 6)) 0 (if ok then .ok else .failed) else s
    else if step = 7 then
      match s.stepOf 7 with
      | some x =>
        if s.pwr.core || s.rst.otHeld || !(x.form == 2 || x.outcome != .inProgress && decide (x.attempt < 2)) then s
        else ((s.beginStep 7 x.form 0).powerStep 7).coreUp ok
      | none => s
    else if step = 13 ∨ step = 14 then
      if s.stepEnded 20 then
        let s := if step = 14 ∧ s.pwr.core then s.powerStep 14 else s
        let s : State := if step = 13 ∧ ok then { s with mgt := { s.mgt with portDown := 0 } } else s
        let port := if step = 13 then s.mgmtDown else s.fabricDown
        s.wholeStep step 1 (if ok then 0 else port.getD 0) (if ok then .okAlternate else .failed)
      else s
    else s

/-- An entry is mirrored to the flash ring; in hold-up none is started (R108). Number 32 + n is step n of the previous start. -/
def execLedgerFlashMirror (step : Nat) (s : State) : Host.Outcome State Fault Refusal :=
  s.standbyDo fun s =>
    if s.snap.holdup || !s.led.toMirror.contains step then s
    else
      let n := step % 32
      let s := { s with led := { s.led with toMirror := s.led.toMirror.filter (· != step) } }
      match Tbl.find? (if step < 32 then s.ledgerCur else s.led.prev) n with
      | none => s
      | some x =>
        let slot := 640 * (x.startSeq % 64)
        -- a slot of an older start is erased before the first entry of a new one
        let old := (allSteps.filterMap (s.ringEntry (x.startSeq % 64))).any fun b => u32 b 0 != x.startSeq
        let s := if old then s.ferase 1 (0x04910000 + slot) 640 else s
        s.fstore 1 (ledgerOff x.startSeq n) 32 (x.bytes n)

/-! ## Hold-up (R169, R199 to R203) -/

/-- Sites in SEQ_UP go down and those in RETRY_WAIT to OFF (R169). -/
def State.holdupSites (s : State) : State :=
  (List.range 8).foldl (fun (s : State) n => match (s.site n).st with
    | .seqUp => (s.siteDownSeq n false).settle (32 * n)
    | .retryWait => s.siteTo n .off
    | _ => s) s

/-- Update operations and pushes end HOLDUP (R200). The Plaster copy in hand is finished first, and the other is not started (R127). -/
def State.holdupUpdates (s : State) : State :=
  let s := match s.boot.upd with
    | some u => (if u.op = 0x103 ∧ !u.held ∧ (imgBad u.image).isNone then ({ s with boot := { s.boot with upd := none } } : State).updWrite u
      else s.dropUpdate).updFail u.req u.op u.target 0x41 0
    | none => s
  let s := s.boot.pushes.foldl (fun (s : State) p => match p.req with
    | some r => s.updFail r 0x105 p.site 0x41 0
    | none => s) s
  ({ s with boot := { s.boot with pushes := [] } } : State).protFree

/-- A STORE or a NEXT_RESET switch under way ends HOLDUP, the copy in hand left invalid (R83, R84, R200). -/
def State.holdupStore (s : State) : State :=
  match s.maq.op with
  | some o =>
    if o.op = 1 ∨ (o.op = 2 ∧ o.mode = 2) then
      let s := ({ s with maq := { s.maq with op := none } } : State).switchDone o 0x41 0
      s.maqServeAll s.maq.waiting
    else s
  | none => s

/-- SHED_DIMMS_FIRST: the memory controllers place the DIMMs in self-refresh, and the DRAM clock is given back (R35, R200). -/
def State.shedDimms (s : State) : State :=
  { s with mem := { s.mem with shed := true }
           pwr := { s.pwr with clkReq := setBit s.pwr.clkReq 3 false, clkGrant := setBit s.pwr.clkGrant 3 false } }

/-- Once hold-up ends, the DIMMs leave self-refresh, and Caliper resumes (R203): their clocks are asked for again where they are needed. -/
def State.holdupResume (s : State) : State :=
  let dram := s.mem.shed
  let s : State := { s with mem := { s.mem with shed := false } }
  let s := if dram then s.askClock 3 else s
  if decide (0 < (s.queue 1).waiting) || decide (0 < (s.queue 2).waiting) then s.askClock 2 else s

/-- What hold-up does at its beginning (R169, R200, R202). -/
def State.holdupStart (s : State) (busV : Nat) : State :=
  let s := { s with snap := { s.snap with holdup := true, holdStart := s.plinth, holdEnd := none, minBus := busV, sums := [] }
                    pwr := { s.pwr with clkReq := setBit s.pwr.clkReq 2 false, clkGrant := setBit s.pwr.clkGrant 2 false } }
  let s := (s.calStop 0x41).holdupSites.holdupUpdates.holdupStore
  let ctl := obHoldCtrl.nat s.optBytes
  let s := if ctl.testBit 0 then s.snapshot 2 else s
  let s := if ctl.testBit 1 then { s with snap := { s.snap with flushing := true } } else s
  if ctl.testBit 2 then s.shedDimms else s

/-- Hold-up begins; during one, the lowest bus voltage is kept (R201). The bus is the corrected one (R539). -/
def execHoldupBegin (busV : Nat) (s : State) : Host.Outcome State Fault Refusal :=
  s.standbyDo fun s =>
    let v := (s.busCorrect busV s.met.busI).1
    let s := s.busSeen v s.met.busI
    if s.snap.holdup then s else s.holdupStart v

/-- Hold-up ends with the input recovered (R203, R537). -/
def execHoldupEnd (s : State) : Host.Outcome State Fault Refusal :=
  s.standbyDo fun s =>
    if !s.snap.holdup then s
    else
      let s := s.holdupSummaries 1
      let inFlight := s.log.page.elim 0 PageJob.count
      let q := s.log.queue.take inFlight ++ (s.log.queue.drop inFlight).map fun x => { x with queued := true }
      let s := { s with log := { s.log with queue := q }
                        snap := { s.snap with holdup := false, erasing := s.snap.erasing ||| s.snap.held, held := 0
                                              flushing := false } }
      (((s.eraseBadBanks none).startPage).startPushes).backoffsOver.recordLate.holdupResume

/-! ## The Hold window (R238, R289, R488) -/

/-- The Hold window ends without division: held caps fall to min(FLOOR_MW, SITE_PMAX), and without firmware every fan and
pump goes full. -/
def execHoldWindowExpiry (s : State) : Host.Outcome State Fault Refusal :=
  s.standbyDo fun s =>
    if s.pair.holdState ≠ 1 then s
    else
      let s := (List.range 8).foldl (fun (s : State) n => match (s.site n).st with
        | .seqUp | .running | .degraded =>
          let c := s.capS n
          let f := cpFloor.val (s.capEntryNow n)
          let v : Int := c.pmax.elim f fun p => min f p
          ((s.setCap n v).setCapS n { (s.setCap n v).capS n with recovering := true }).capEvent n 2 v (s.peaks n).avg1ms 0
        | _ => s) s
      let s := if s.stepEnded 11 && s.boot.run.isSome then s
        else ({ s with cool := { s.cool with hold := true } } : State).forceNow.fanEventAll 7
      let s := { s with pair := { s.pair with holdState := 2 } }
      s.record 0x21 (bitAt s.pins.bay 0) 0xB none (zeros 4 ++ zeros 1 ++
        leBytes 1 (match s.pair.st with | .undecided => 0 | .claiming => 1 | .lead => 2 | .partner => 3 | .displaced => 4) ++ zeros 2 ++
        leBytes 1 s.pair.holdWindow ++ zeros 19)

/-! ## Brace's end (R316) -/

/-- BRACE_HOLD passes quietly and without a request: Brace ends, and what it paused resumes. -/
def execBraceHoldExpiry (s : State) : Host.Outcome State Fault Refusal :=
  s.standbyDo fun s =>
    if !s.haz.brace then s
    else
      let hold := secs (hzHold.nat s.braceSec)
      let quiet := decide (s.haz.pga < hzNote.nat s.braceSec) && decide (s.haz.braceQuiet.getD s.haz.braceAt + hold ≤ s.plinth)
      if quiet && s.since s.haz.lastReq hold then
        let s := s.shakeEvent 3 s.haz.braceAt
        ({ s with haz := { s.haz with brace := false, causeAcc := false, causeReq := false, braceSec := [] } } : State).startPushes.recordLate
      else s

/-! ## Junction temperature (R319, R320) -/

/-- A TJ_EVENT record (R321). -/
def State.tjEvent (s : State) (kind : Nat) (threshold : Int) : State :=
  let rd (k : Nat) : Bytes := leBytes 2 (match s.haz.tjRead[k]? with
    | some (some v) => ofInt 16 (sat16 v)
    | _ => 0x8000)
  let valid := maskOf ((List.range 4).filter fun k => match s.haz.tjRead[k]? with
    | some (some v) => decide (-640 ≤ v) && decide (v ≤ 2400)
    | _ => false)
  s.record 0x19 8 kind none (leBytes 2 (ofInt 16 (sat16 s.haz.tjCore)) ++ rd 0 ++ rd 1 ++ rd 2 ++ rd 3 ++ leBytes 1 valid ++ zeros 1 ++
    leBytes 2 (ofInt 16 (sat16 threshold)) ++ zeros 14)

/-- STOPPED (R320): Caliper stops, its entries complete THERMAL; the Armature is held in reset, and so its domain's rail goes down (R29);
the Hold window runs. -/
def State.tjStop (s : State) : State :=
  let s := ({ s with haz := { s.haz with tjState := 1 } } : State).forceNow
  let s := s.bump 8 62 s.haz.cntStop fun c s => { s with haz := { s.haz with cntStop := c } }
  let s := (s.tjEvent 1 (obTjStop.val s.optBytes)).calStop 0x4A
  (s.armatureStop.orderDown 256 24 (maskOf [8])).settle 256

/-- TJ_CORE from the readings: the highest valid one, or TJ_STOP with fewer than two, which is a fault recorded once (R319). -/
def State.tjTake (s : State) (rd : List (Option Int)) : State :=
  let ok := rd.filterMap fun (x : Option Int) => match x with
    | some v => if -640 ≤ v ∧ v ≤ 2400 then some v else none
    | none => none
  let stop := obTjStop.val s.optBytes
  let blind := decide (ok.length < 2)
  let was := s.haz.tjFault
  let s := { s with haz := { s.haz with tjRead := rd, tjCore := if blind then stop else ok.foldl max (-640), tjFault := blind } }
  if blind && !was then s.tjEvent 4 stop else s

/-- TJ_CORE against TJ_RESET and TJ_STOP (R320). -/
def State.tjJudge (s : State) : State :=
  let tj := s.haz.tjCore
  let reset := obTjReset.val s.optBytes
  if s.haz.tjState = 2 then s
  else if reset < tj then (s.tjEvent 3 reset).resetSource 0x0A .moduleReset
  else if s.haz.tjState = 0 ∧ obTjStop.val s.optBytes ≤ tj then s.tjStop
  else s

/-- The junction sensors, every 1 ms while the core domain is powered (R319, R320). -/
def execTjSample (readings : List (Option Int)) (s : State) : Host.Outcome State Fault Refusal :=
  s.standbyDo fun s => if s.pwr.core then (s.tjTake (readings.take 4)).tjJudge else s

/-- TJ_CORE has stayed below TJ_STOP - 10 degrees for 10 s: steps 9, 10, 11 and 20 as an Armature restart, with no RST_CAUSE
bit (R320). -/
def execTjStopReleaseTimer (s : State) : Host.Outcome State Fault Refusal :=
  s.standbyDo fun s =>
    let stop := obTjStop.val s.optBytes
    if s.haz.tjState = 1 ∧ s.haz.tjCore < stop - 160 then
      let s := ({ s with haz := { s.haz with tjState := 0 } } : State).tjEvent 2 (stop - 160)
      s.armatureAgain
    else s

/-- An over-temperature reset is released, and the core domain that it held down comes up (R90, R320). -/
def execTjResetRelease (s : State) : Host.Outcome State Fault Refusal :=
  s.standbyDo fun s =>
    if s.rst.otHeld then
      let s := ({ s with rst := { s.rst with otHeld := false }, haz := { s.haz with tjState := 0 } } : State).tjEvent 2
        (obTjReset.val s.optBytes - 240)
      if s.pins.inputGood && s.stepEnded 4 && (s.stepOf 7).isNone && !s.pwr.core then s.begin7 else s
    else s

/-! ## Module groups (R160) -/

/-- A core-die restart that no source of R85 asks for (R160). -/
def State.coreAgain (s : State) : State :=
  let s := s.dropUpdate.coreReset.bootAgain
  let s := { s with rst := { s.rst with under := some .coreDie, underCode := 0xFF } }
  (s.newStart .coreDie 0).begin7

/-- Rail 264 is back: the Armature restart follows (R160). -/
def State.armBack (s : State) : State :=
  if s.seq.armOwed && (s.rail 264).st == .good then ({ s with seq := { s.seq with armOwed := false } } : State).armatureAgain else s

/-- QUALIFY elapses with power-good stable; a dependent of a retried rail that is good again is masked no longer (R149, R155). -/
def execRailQualifyExpiry (rail : Nat) (s : State) : Host.Outcome State Fault Refusal :=
  s.standbyDo fun s =>
    let r := s.rail rail
    if r.pg then ((s.setRail rail { r with qualified := true, masked := r.masked && s.retryAbove rail }).settle rail).armBack else s

def execSurveySample (die slot : Nat) (x : Sample) (s : State) : Host.Outcome State Fault Refusal :=
  s.standbyDo fun s =>
    if s.pwr.absent.getLsbD (8 + die) || 16 ≤ die || 26 ≤ slot then s
    else if slot < 2 then
      -- slot 0 begins a scan: the windows last committed are in force from here (R66)
      let s : State := if slot = 0 then { s with svy := { s.svy with winOld := Tbl.del s.svy.winOld die } } else s
      s.refSample die slot x.code
    else if s.refFailed die then s
    else (s.sample (24 * die + (slot - 2)) x.code x.held).armBack

/-- 1 s after the last rail of a shut-down group is off, it is ordered up once, unless it is latched down; rail 264's return
will restart the Armature. -/
def execModuleGroupResequence (group : Nat) (s : State) : Host.Outcome State Fault Refusal :=
  s.standbyDo fun s =>
    let g : ModGroup := Tbl.get {} s.seq.groups group
    let off := (bitsOf 24 g.mask.toNat).all fun k => (s.rail (256 + k)).st == .off
    if !g.waiting || g.latched || !off then s
    else
      let s := { s with seq := { s.seq with groups := Tbl.set s.seq.groups group { g with waiting := false } } }
      let s := (s.orderUp 256 24 g.mask.toNat).settle 256
      let has (k : Nat) : Bool := g.mask.getLsbD k
      if has 6 || has 7 then s.coreAgain
      else if has 8 then ({ s with seq := { s.seq with armOwed := true } } : State).armBack
      else if (has 12 || has 13) && s.pwr.core then { s with pwr := { s.pwr with fabric := true } }
      else s

end Sys2Proof.Machine
end

