-- ==== Sys2Proof/Machine/Dram.lean ====
section
/-!
DEFINITION. Machine/Dram.lean: fast clocks and their faults (R34 to R37), and the memory subsystem: training, channel
states, detected errors, scrubbing, parity and lockstep (R417 to R436).
-/
namespace Sys2Proof.Machine

/-! ## Step 15 (R417, R420 to R424) -/

/-- A DIMM serial has changed: the CARRY of step 15 returns to 0, and the step is in its normal form (R107, R424). -/
def State.newSerial (s : State) : State :=
  let s := { s with led := { s.led with carries := Tbl.set s.led.carries 15 0 } }
  match Tbl.find? s.led.cur 15 with
  | some x => s.putEntry 15 { x with form := 0, carry := 0 }
  | none => s

/-- Whether a serial differs from the one last read on the channel. -/
def State.otherSerial (s : State) (ch serial : Nat) : Bool := (Tbl.find? s.led.serials ch).any fun v => v != serial

/-- Step 15 ends, once every channel has reported (R101, R107, R420); any failure invalidates the saved results. -/
def State.step15 (s : State) (reps : List (Nat × Option TrainReport)) : State :=
  let s := if reps.any fun x => x.2.any fun t => s.otherSerial x.1 t.serial then s.newSerial else s
  let s := reps.foldl (fun (s : State) x => x.2.elim s fun t => s.chTrained x.1 t) s
  let bad := reps.filter fun x => (s.ch x.1).st == .outOfService
  let good := reps.filter fun x => s.chServes x.1
  let s := if bad.isEmpty then s.endStep 15 .ok (some (maskOf (good.map Prod.fst)))
    else ({ s with led := { s.led with savedTrain := [] } } : State).endStep 15 .failed (some (maskOf (bad.map Prod.fst)))
  (((List.range 2).foldl (fun (s : State) p => s.mirrorCheck p) s).clampCheck).noDimms.beginStep 16 0 0

/-- This start runs without DIMMs by the form of its step 15 (R101). -/
def State.withoutDimms (s : State) : Bool := (Tbl.find? s.led.cur 15).any fun x => x.form == 2 && x.outcome == .okAlternate

/-- A training report in step 15: a channel whose SPD answers shows TRAINING, with its rail up, until the four are judged together, when all
have reported (R101, R422; the command of a channel's report is the model's first word of its SPD, log 130). -/
def State.step15Report (s : State) (ch : Nat) (t : TrainReport) (answers : Bool) : State :=
  let s := { s with mem := { s.mem with reports := Tbl.set s.mem.reports (ch % 4) (if answers then some t else none) } }
  let s := if answers then ((s.setCh (ch % 4) { s.ch (ch % 4) with st := .training }).orderUp 256 24 (2 ^ (16 + ch % 4))).settle 256
    else s.setCh (ch % 4) { s.ch (ch % 4) with st := .absent }
  if (List.range 4).all fun k => s.mem.reports.any fun x => x.1 == k then
    s.step15 ((List.range 4).map fun k => (k, Tbl.get none s.mem.reports k))
  else s

/-- A start without DIMMs finds another serial in a socket: step 15 begins again in its normal form (R107's worked case; log 70). -/
def State.again15 (s : State) : State :=
  let s := (List.range 4).foldl (fun (s : State) k => s.setCh k { s.ch k with st := .absent, cause := 0 }) s
  s.newSerial.beginStep 15 0 0

/-- Training of a channel ends. In step 15 the four channels train together and are judged when all have ended; outside it the
channel is one that RETURN brought to TRAINING (R420, R422). `rate` is the highest that the DIMM's SPD allows [MT/s] (R417). -/
def execDimmTrainingDone (ch : Nat) (ok answers mrdimm : Bool) (rate capGB serial : Nat) (s : State) :
    Host.Outcome State Fault Refusal :=
  s.coreDo fun s =>
    let s := s.firmwareRuns
    let t : TrainReport := ⟨dimmOk mrdimm rate capGB, ok, capGB, serial, dimmRate rate⟩
    if s.stepRuns 15 then s.step15Report ch t answers
    else if (s.ch ch).st = .training then
      if answers then
        let s := if s.otherSerial ch serial then
            { s with led := { s.led with clear := setBit s.led.clear 14 true } } else s
        ((s.chTrained ch t).mirrorCheck (ch / 2)).clampCheck
      else s.setCh ch { s.ch ch with st := .absent }
    else if s.withoutDimms && answers && s.otherSerial ch serial then s.again15.step15Report ch t answers
    else s

/-! ## Commands of R424 -/

/-- What REMOVE and RETURN are refused with: Brace, hold-up, or the channel's state. -/
def State.memRefusal (s : State) (states : List ChSt) (ch : Nat) : Option Nat :=
  if s.brace then some 0x31
  else if s.snap.holdup then some 0x41
  else if !states.contains (s.ch ch).st then some 0x53
  else none

def execMemRemove (r : Req) (ch : Nat) (s : State) : Host.Outcome State Fault Refusal :=
  s.coreDo fun s => s.withWriteRight r .memory 0xC0108 fun s =>
    match s.memRefusal [.inService] ch with
    | some c => s.complete r c 0 0
    | none => (s.chDown ch 7).complete r 0 0 0

/-- RETURN: ABSENT, and at once TRAINING with the rail up where the SPD answers; a channel that is ABSENT already takes it too (R422). -/
def execMemReturn (r : Req) (ch : Nat) (answers : Bool) (s : State) : Host.Outcome State Fault Refusal :=
  s.coreDo fun s => s.withWriteRight r .memory 0xC0108 fun s =>
    match s.memRefusal [.outOfService, .absent] ch with
    | some c => s.complete r c 0 0
    | none =>
      let s := s.setCh ch { s.ch ch with st := if answers then .training else .absent }
      let s := if answers then
          (({ s with pwr := { s.pwr with memory := true } } : State).orderUp 256 24 (maskOf [14, 15, 16 + ch])).settle 256
        else s
      s.complete r 0 0 0

def execMemFillDone (ch : Nat) (s : State) : Host.Outcome State Fault Refusal :=
  s.coreDo fun s => if (s.ch ch).st = .filling then s.fillDone ch else s

def execMemSpdSilentTimeout (ch : Nat) (s : State) : Host.Outcome State Fault Refusal :=
  s.coreDo fun s => if s.chServes ch then s.chDown ch 7 else s

/-! ## Detected errors (R426 to R432) -/

/-- The owner of a channel-local address: the Journal engine's regions, the policy region's requester, and in the controller
region the row of R429 that the reader is (R419). -/
def State.ownerAt (s : State) (ch addr owner : Nat) : Nat :=
  let j := s.ringSize (ch / 2)
  if addr < j + 4 * gb then 1
  else if addr < (s.ch ch).cap - 8 * gb then 8
  else owner

/-- Bytes that could be read are written at an address; whether there were any. -/
def State.dwriteSome (s : State) (a : Nat) (o : Option Bytes) : State × Bool :=
  match o with
  | some b => (s.dwrite a b, true)
  | none => (s, false)

/-- The Journal engine rewrites the bad copy from the mirror; with both bad it stays (R406, R429). -/
def State.journalRecover (s : State) (ch addr : Nat) : State × Bool :=
  let m := ch / 2 * 2 + (1 - ch % 2)
  let a := addr / 64 * 64
  s.dwriteSome (ch * chSize + a) (s.dread (m * chSize + a) 64)

/-- What the owner of the data does (R429), and whether it recovered. `unit` is the tile, Gauge slot, DIS_SEQ, site or block
that the row concerns. -/
def State.ownerActs (s : State) (ch addr owner unit : Nat) (recovered : Bool) : State × Bool :=
  match owner with
  | 1 => s.journalRecover ch addr
  | 2 => (s.tileError unit, true)
  | 3 => (({ s with gimg := Tbl.del s.gimg unit } : State).gaugeUnload unit 4, true)
  | 4 => ({ s with cal := { s.cal with ring := s.cal.ring.filter fun x => x.1 != unit } }, false)
  | 6 => if recovered then (s, true)
    else ({ s with boot := { s.boot with deferredFail := true, healthy := false } }.event 2 121 unit 0, false)
  | 7 => ({ s with ckpt := Tbl.del s.ckpt unit }, recovered)
  | _ => (s, recovered)

/-- The channel counts the error, and leaves service at the limit (R430, R431). -/
def State.countDetect (s : State) (ch addr : Nat) : State :=
  let c := s.ch ch
  let times := s.plinth :: (c.errTimes.filter fun t => decide (s.plinth < t + secs 3600)).take 65534
  let s := s.setCh ch { c with errAddr := addr, errTime := s.plinth, errTimes := times }
  s.bump 12 ch c.detect fun x s => s.setCh ch { s.ch ch with detect := x }

def State.limitCheck (s : State) (ch : Nat) : State :=
  if s.mem.errLimit ≤ (s.ch ch).errTimes.length then s.chDown ch 6 else s

/-- The owner acts: the block is good again, or its error stays, counted in MEM_CNT_UNRECOVERED, with one record (R429, R430,
R436). -/
def State.ownerRecovers (s : State) (ch addr owner unit : Nat) (recovered : Bool) : State :=
  let x := s.ownerActs ch addr owner unit recovered
  let s := x.1
  if x.2 then s.setCh ch { s.ch ch with bad := (s.ch ch).bad.filter (· != addr / 64) }
  else
    let s := s.bump 12 ch (s.ch ch).unrec fun v s => s.setCh ch { s.ch ch with unrec := v }
    s.memEvent ch 8 addr owner 0 (s.ch ch).unrec.val.toNat

/-- A detected error on a read (R426, R429 to R431, R436). A block whose error stays keeps failing its checks. -/
def State.memError (s : State) (ch addr owner unit : Nat) (recovered : Bool) : State :=
  let blk := addr / 64
  -- what Caliper reads in the policy region as an operand or a descriptor is Caliper's data (R369, R429)
  let own := if owner = 2 ∧ s.ownerAt ch addr owner = 8 then 2 else s.ownerAt ch addr owner
  let s := s.countDetect ch addr
  let s := s.setCh ch { s.ch ch with bad := if (s.ch ch).bad.contains blk then (s.ch ch).bad else blk :: (s.ch ch).bad }
  let s := if s.since (s.ch ch).lastDet (secs 1) then
      (s.setCh ch { s.ch ch with lastDet := some s.plinth }).memEvent ch 1 addr own 0 (s.ch ch).detect.val.toNat
    else s
  (s.ownerRecovers ch addr own unit recovered).limitCheck ch

def execMemReadErrorDetected (ch addr owner unit : Nat) (recovered : Bool) (s : State) : Host.Outcome State Fault Refusal :=
  s.coreDo fun s => if s.chServes ch && decide (addr < (s.ch ch).cap) then s.memError ch addr owner unit recovered else s

/-- One error that a scrub burst meets (R432). -/
def State.scrubError (s : State) (ch : Nat) (e : Nat × Nat × Nat) : State :=
  let own := s.ownerAt ch e.1 e.2.1
  let s := s.countDetect ch e.1
  let s := s.bump 12 ch (s.ch ch).scrub fun v s => s.setCh ch { s.ch ch with scrub := v }
  let blk := e.1 / 64
  let s := s.setCh ch { s.ch ch with bad := if (s.ch ch).bad.contains blk then (s.ch ch).bad else blk :: (s.ch ch).bad }
  let s := if own = 8 then
      if s.since (s.ch ch).lastScrub (secs 1) then
        (s.setCh ch { s.ch ch with lastScrub := some s.plinth }).memEvent ch 2 e.1 8 0 (s.ch ch).scrub.val.toNat
      else s
    else s.ownerRecovers ch e.1 own e.2.2 true
  s.limitCheck ch

/-- A scrub burst of 1 MB: the errors it met, then the next position; the training area is excluded. It pauses in hold-up
and while a channel fills (R432). A pass is a channel's own (DEDUCED, log 96). -/
def execMemScrubBurst (ch : Nat) (errs : List (Nat × Nat × Nat)) (s : State) : Host.Outcome State Fault Refusal :=
  s.coreDo fun s =>
    if s.snap.holdup || (List.range 4).any (fun k => (s.ch k).st == .filling) || (s.ch ch).st != .inService then s
    else
      let c := s.ch ch
      let next := c.scrubPos + 16384
      let wrap := decide ((c.cap - 0x100000) / 64 ≤ next)
      let s := s.askClock 3
      let s := s.setCh ch { c with scrubPos := if wrap then 0 else next }
      let s := if wrap then { s with mem := { s.mem with passTime := s.plinth } } else s
      (errs.filter fun e => decide (c.scrubPos ≤ e.1 / 64) && decide (e.1 / 64 < next)).foldl (fun (s : State) e => s.scrubError ch e) s

/-! ## Stacked SRAM and lockstep (R433, R434) -/

/-- The quarantine region's image is discarded and slot choice goes on with the next candidate (R120, R123, R433). -/
def State.quarantineLost (s : State) : State :=
  match s.boot.chosen with
  | none => s
  | some k =>
    ({ s with boot := { s.boot with slotErr := Tbl.set s.boot.slotErr k 0x17 } }.event 2 123 k 0x17).chooseNext

/-- A queue ring's entry that has no other copy completes with an error (R433). -/
def State.ringEntryLost (s : State) (q : Nat) : State :=
  match (s.queue q).taken with
  | t :: _ => s.complete (t.req q) 0x84 0 0
  | [] => s

/-- Sizes in MB of the stacked SRAM's regions by die: Caliper scratch and control buffers (R23). -/
def sramMB (die : Nat) : Nat × Nat := if die = 0 then (16, 0) else (8, 8)

/-- A parity error of a stacked SRAM die. `region` is the row of R433, from 0; `unit` is the tile, the site, or, in the buffers,
0 where a copy exists, 1 for a flush descriptor and 2 + q for an entry of queue q that have none. -/
def execSramParityError (die region unit : Nat) (s : State) : Host.Outcome State Fault Refusal :=
  s.coreDo fun s =>
    let d := die % 2
    -- die 0 is Caliper's lower scratch and nothing else; the control buffers stand on die 1 (R23)
    if d = 0 ∧ region ≠ 0 then s else
    let cnt := Tbl.get {} s.mem.parity d
    let s := s.bump 12 (16 + d) cnt fun c s => { s with mem := { s.mem with parity := Tbl.set s.mem.parity d c } }
    let s := if s.since (Tbl.find? s.mem.lastParity d) (secs 1) then
        ({ s with mem := { s.mem with lastParity := Tbl.set s.mem.lastParity d s.plinth } } : State).memEvent (0x10 + d) 5 0
          (region + 1) 0 (Tbl.get {} s.mem.parity d).val.toNat
      else s
    match region with
    | 0 => s.tileError unit
    | 1 => s.quarantineLost
    | 2 => (s.setChiS unit { (s.chiS unit).clear with modelLost := true }).chiEvent unit 5 0 0 0
    | 3 =>
      if unit = 0 then s
      else if unit = 1 then (if s.snap.flushing then s.flushEnd false else s)
      else s.ringEntryLost (unit - 2)
    | _ => if s.boot.run.isSome then s.wdtExpiry else s

/-- A pair's cores differ: the pair stops, one record, and the watchdog's expiry at once (R434). -/
def execLockstepMismatch (pair : Nat) (s : State) : Host.Outcome State Fault Refusal :=
  s.coreDo fun s =>
    if !s.pwr.armature || s.pwr.pairFailed.getLsbD pair then s
    else ((s.pairFails pair).memEvent (0x20 + pair) 6 0 0 0 0).wdtExpiry

/-! ## Clocks (R34 to R37) -/

/-- What needs the RC oscillator (R34). The Reckoner's reading is one step of the model. -/
def State.oscNeeded (s : State) : Bool :=
  ((List.range 280).any fun g => (s.rail g).needsOsc g) || s.pwr.clkReq.getLsbD 0

def execRcOscStopExpiry (s : State) : Host.Outcome State Fault Refusal :=
  s.standbyDo fun s => if s.oscNeeded then s else
    -- every waveform output is static then: a channel whose duty is not 0 is held at 100 % (R268)
    s.withDrive fun s =>
      { s with pwr := { s.pwr with rcOsc := false }
               cool := { s.cool with fans := s.cool.fans.map fun e => (e.1, { e.2 with duty := if e.2.duty = 0 then 0 else 0xFFFF }) } }

/-- A clock of the core die runs only with the core domain; the burst clock is the standby domain's. -/
def State.clkDo (s : State) (clk : Nat) (f : State → State) : Host.Outcome State Fault Refusal :=
  s.standbyDo fun s => if clk = 0 ∨ s.pwr.core then f s else s

/-- A requester that still needs its clock holds its request (R35): a Survey die at full rate; Armature work, an event or ingress; a
Caliper check, offer, Gauge invocation or doorbell; a DRAM access or fill, a Mover entry or an entry to fetch. -/
def State.clkNeeded (s : State) (clk : Nat) : Bool := match clk with
  | 0 => (List.range 16).any fun d => !s.pwr.absent.getLsbD (8 + d) && !s.pwr.slowScan.getLsbD d
  | 1 => s.evt.wake || s.ebx.wake || s.boot.upd.isSome || !s.boot.pushes.isEmpty ||
      decide (0 < (s.queue 7).waiting) || !(s.queue 7).taken.isEmpty
  | 2 => !s.cal.checks.isEmpty || (List.range 8).any (fun n => !(Tbl.get {} s.cal.gauge n).jobs.isEmpty) ||
      [1, 2].any fun q => decide (0 < (s.queue q).waiting) || !(s.queue q).taken.isEmpty
  | _ => !s.mem.shed && (s.mem.wake || (List.range 4).any (fun k => (s.ch k).st == .filling) || !s.mov.jobs.isEmpty ||
      (List.range 8).any fun q => decide (0 < (s.queue q).waiting))

/-- A fast clock is requested: by the clock controller's record of it, or by a requester that holds its own request, an event or ingress
for the Armature's and the memory controllers for the DRAM's (R35). The row of an Armature timer stands for its request, the grant and
what firmware then does (DESIGN CHOICE, log 124). -/
def State.clkAsked (s : State) (clk : Nat) : Bool :=
  s.pwr.clkReq.getLsbD clk || (clk == 1 && (s.evt.wake || s.ebx.wake)) || (clk == 3 && s.mem.wake)

/-- Caliper's tiles take up what waited for their clock (R35, R367). -/
def State.afterGrant (s : State) (clk : Nat) : State := if clk = 2 then s.calNext else s

/-- A requested clock is stable: its grant is raised; an Armature grant ends a run of faults (R35, R36). The DRAM clock is not requested
while the DIMMs are in self-refresh (R200). -/
def execClockGrant (clk : Nat) (s : State) : Host.Outcome State Fault Refusal :=
  s.clkDo clk fun s =>
    if clk = 3 ∧ s.mem.shed then s else
    { s with pwr := { s.pwr with clkReq := setBit s.pwr.clkReq clk true, clkGrant := setBit s.pwr.clkGrant clk true
                                 rcOsc := s.pwr.rcOsc || clk == 0
                                 armFaults := if clk = 1 then 0 else s.pwr.armFaults }
             mem := { s.mem with wake := s.mem.wake && clk != 3 }
             evt := { s.evt with wake := s.evt.wake && clk != 1 }
             ebx := { s.ebx with wake := s.ebx.wake && clk != 1 } }.afterGrant clk

/-- Released by its last requester for its idle hysteresis, the clock stops; a request that has come before cancels the stop (R35). -/
def execClockIdleExpiry (clk : Nat) (s : State) : Host.Outcome State Fault Refusal :=
  s.clkDo clk fun s =>
    if s.clkNeeded clk then s else { s with pwr := { s.pwr with clkReq := setBit s.pwr.clkReq clk false, clkGrant := setBit s.pwr.clkGrant clk false } }

/-- A clock fault: counted, one event, and the clock's consequence (R36). `die` is the Survey die or the DRAM channel. Scans at full rate
follow one another (R37), so that the next one asks for the burst clock again at once; a die in slow scan asks at its timer. -/
def execClockGrantTimeout (clk die : Nat) (s : State) : Host.Outcome State Fault Refusal :=
  s.clkDo clk fun s =>
    let s := s.bump 0 clk (Tbl.get {} s.pwr.clkFault clk) fun c s =>
      { s with pwr := { s.pwr with clkFault := Tbl.set s.pwr.clkFault clk c } }
    let s := s.event 0 36 clk die
    let s := { s with pwr := { s.pwr with clkReq := setBit s.pwr.clkReq clk false, clkGrant := setBit s.pwr.clkGrant clk false } }
    match clk with
    | 0 => (if s.clkNeeded 0 then s.askClock 0 else s).dieStale die
    | 1 =>
      if 2 ≤ s.pwr.armFaults then ({ s with pwr := { s.pwr with armFaults := 0 } } : State).wdtExpiry
      else { s with pwr := { s.pwr with armFaults := s.pwr.armFaults + 1 } }
    | 2 => ({ s with pwr := { s.pwr with calClkFault := true } } : State).calFence
    | _ => if s.chServes die then s.chDown die 3 else s

end Sys2Proof.Machine
end

