-- ==== Sys2Proof/Machine/Queues.lean ====
section
/-!
DEFINITION. Machine/Queues.lean: the external queues (R439 to R447) and the Mover (R451, R452).
-/
namespace Sys2Proof.Machine

/-! ## Doorbells, sizes and heads (R440 to R444) -/

/-- The right of a queue's engine (R468); the Armature command queue serves every principal, and each command asks for its
own right. -/
def queueRight (q : Nat) : Option Right := match q with
  | 0 => some .struct
  | 1 | 2 => some .audit
  | 3 | 4 => some .journal
  | 5 | 6 => some .memory
  | _ => none

/-- Register address of a queue's set (R505, R507, R516, R517, R519). -/
def queueBase (q : Nat) : Nat := match q with
  | 0 => 0x11100
  | 1 => 0xA1500
  | 2 => 0xA1540
  | 3 => 0xB1100
  | 4 => 0xB1140
  | 5 => 0xD1000
  | 6 => 0xD1040
  | _ => 0xD1080

/-- A write to a queue's registers, refused without the engine's right (R468). -/
def State.queueWrite (s : State) (r : Req) (q off : Nat) (f : State → State) : State := match queueRight q with
  | some x => s.withWriteRight r x (queueBase q + off) f
  | none => f s

/-- The queue enters ERROR with a cause: one queue error completion, in the overflow slot where no other is free (R444). -/
def State.queueError (s : State) (q cause : Nat) : State :=
  let x := s.queue q
  if x.error then s
  else
    let s := s.setQueue q { x with error := true, code := cause }
    if x.full then s else s.putCompletion q (x.owners.head?.elim .fabric Prod.snd) 0xFFFFFFFF 0x92 0 0 (leBytes 4 cause ++ midBytes (some q))

/-- A ring base lies outside every window (R444, R455). -/
def State.baseOut (s : State) (addr : Nat) : Bool := s.window addr == .nowhere

/-- The fast clocks that a doorbell asks for: its engine's, and the DRAM's for a ring that stands there (R35). -/
def State.doorbellClock (s : State) (q : Nat) : State :=
  let k := if q = 1 ∨ q = 2 then some 2 else if q = 7 then some 1 else none
  let s := k.elim s s.askClock
  match s.window (s.queue q).sqBase with
  | .dram _ => s.askClock 3
  | _ => s

/-- The next pending entry of a ring beyond an Ebbex port is asked for (R441, R457). -/
def State.askEntry (s : State) (q : Nat) : State :=
  let x := s.queue q
  let addr := x.sqBase + 64 * x.sqHead
  match s.window addr with
  | .remote ep =>
    if x.enabled && !x.error && decide (0 < x.waiting) && x.got.isNone && decide (x.fails < 2) &&
        !(s.ebx.reqs.any fun e => e.q == some q) then
      s.request (s.portFor ep) false addr 64 [] (some q)
    else s
  | _ => s

/-- SQ_TAIL: entries become pending for the writer's principal, on its path (R26); a value of SQ_SIZE or above sets ERROR (R441, R444). While the
queue is disabled the doorbell is ignored. -/
def State.doorbell (s : State) (q principal : Nat) (path : Path) (v : Nat) : State :=
  let x := s.queue q
  if !x.enabled then s
  else if x.sqSize ≤ v then s.queueError q 1
  else
    let n := (v + x.sqSize - x.sqHead) % x.sqSize
    let own := (x.owners ++ List.replicate n (principal, path)).take n
    ((s.setQueue q { x with sqTail := v, owners := own }).doorbellClock q).askEntry q

def execDoorbellSqTail (r : Req) (q value : Nat) (s : State) : Host.Outcome State Fault Refusal :=
  s.coreDo fun s => s.doorbell q r.principal r.path value

/-- A size that is a power of two from 16 to 4,096; any other is stored as 0 (R440). -/
def ringSizeOf (v : Nat) : Nat := if [16, 32, 64, 128, 256, 512, 1024, 2048, 4096].contains v then v else 0

/-- SQ_SIZE or CQ_SIZE: indices to 0, phase to 1, ERROR cleared, pending entries abandoned; entries taken complete into the rings
as they stood (R440). -/
def State.sizeWrite (s : State) (q : Nat) (cq : Bool) (v : Nat) : State :=
  let x := s.queue q
  let closing := if x.enabled && !x.taken.isEmpty then x.closing ++ [⟨x.cqBase, x.cqSize, x.cqTail, x.phase, x.taken⟩] else x.closing
  let y : Queue := { sqBase := x.sqBase, cqBase := x.cqBase, evAddr := x.evAddr, evData := x.evData, closing := closing
                     sqSize := if cq then x.sqSize else ringSizeOf v, cqSize := if cq then ringSizeOf v else x.cqSize }
  let s := s.setQueue q y
  let s := { s with ebx := { s.ebx with reqs := s.ebx.reqs.map fun e => if e.q = some q then { e with q := none } else e } }
  if y.enabled && (s.baseOut y.sqBase || s.baseOut y.cqBase) then s.queueError q 2 else s

def execQueueSizeWrite (r : Req) (q : Nat) (cq : Bool) (value : Nat) (s : State) : Host.Outcome State Fault Refusal :=
  s.coreDo fun s => s.queueWrite r q (if cq then 0x20 else 8) fun s => s.sizeWrite q cq value

/-- CQ_HEAD: completion slots are freed; a value that would free slots not yet written is ignored and sets ERROR (R443). -/
def State.headWrite (s : State) (q v : Nat) : State :=
  let x := s.queue q
  if !x.enabled then s
  else
    let n := if x.full && decide (v = x.cqHead) then x.cqSize else (v + x.cqSize - x.cqHead) % x.cqSize
    if x.cqSize ≤ v ∨ x.unconsumed < n then s.queueError q 3
    else s.setQueue q { x with cqHead := v, full := x.full && decide (n = 0), stall := x.stall && decide (n = 0) }

def execCqHeadWrite (r : Req) (q value : Nat) (s : State) : Host.Outcome State Fault Refusal :=
  s.coreDo fun s => s.queueWrite r q 0x24 fun s => s.headWrite q value

/-! ## Taking an entry (R441, R442, R445, R447) -/

/-- The OPCODEs that a queue's engine knows (R79, R395, R413, R449, R452, R485). -/
def opcodes (q : Nat) : List Nat := match q with
  | 0 => [1, 2, 3, 4, 5]
  | 1 => [1, 2]
  | 2 => [0x10, 0x11, 0x12]
  | 3 => [1, 2, 3]
  | 4 => [1, 2]
  | 5 | 6 => [1, 2, 3]
  | _ => [1, 0x101, 0x102, 0x103, 0x104, 0x105, 0x106, 0x107, 0x108, 0x201, 0x202, 0x203, 0x204, 0x205, 0x301, 0x302, 0x303, 0x304,
    0x305, 0x401, 0x402, 0x403]

/-- The engine of a queue takes entries now: hold-up stops queues 1 to 6, queue 0 waits for its verifier, the Digest engine has
four instances, and queue 7 waits for firmware (R200, R447, R56). -/
def State.engineFree (s : State) (q : Nat) : Bool := match q with
  | 0 => s.maq.op.isNone
  | 1 | 2 => !s.snap.holdup
  | 3 => !s.snap.holdup
  | 4 => !s.snap.holdup && decide (s.jrn.hashes.length < 4)
  | 5 | 6 => !s.snap.holdup
  | _ => s.pwr.armature && s.boot.run.isSome

/-- A slot can be reserved for one more entry, the overflow slot apart (R442). -/
def Queue.canReserve (x : Queue) : Bool := decide (x.unconsumed + x.taken.length + 2 ≤ x.cqSize)

/-- The next entry as the engine reads it, or the status of a second failed read (R445). -/
def State.nextEntry (s : State) (q : Nat) : Option Bytes × Nat :=
  let x := s.queue q
  let addr := x.sqBase + 64 * x.sqHead
  match s.window addr with
  | .remote _ => (x.got, 0x83)
  | _ => (s.localRead addr 64, 0x84)

/-- An engine takes the next pending entry with its completion slot reserved. One that cannot be read completes NO_MEMORY or
FETCH with TAG 0xFFFFFFFF, one without the engine's right DENIED, one of an unknown OPCODE FORMAT (R441, R442, R445, R447). What
the entry does is the command of its own name. -/
def State.takeEntry (s : State) (q : Nat) : State :=
  let x := s.queue q
  if !x.enabled || x.error || x.waiting == 0 || !s.engineFree q then s
  else if !x.canReserve then s.setQueue q { x with stall := true }
  else
    let got := s.nextEntry q
    match got.1 with
    | none =>
      if got.2 = 0x83 && decide (x.fails < 2) then s.askEntry q
      else
        let s := s.setQueue q { x with stall := false, sqHead := (x.sqHead + 1) % x.sqSize, owners := x.owners.drop 1, fails := 0 }
        (s.putCompletion q (x.owners.head?.elim .fabric Prod.snd) 0xFFFFFFFF got.2 0 0 (zeros 4 ++ midBytes (some q))).askEntry q
    | some e =>
      let o := x.owners.headD (unknownPrincipal, .fabric)
      let t : Taken := ⟨e, o.1, o.2⟩
      let s := s.setQueue q { x with stall := false, sqHead := (x.sqHead + 1) % x.sqSize, owners := x.owners.drop 1
                                     taken := x.taken ++ [t], got := none, fails := 0 }
      let s := s.askEntry q
      let r := t.req q
      if (queueRight q).any fun y => !s.may o.1 y then s.deny r
      else if (opcodes q).contains (u16 e 0) then s
      else s.complete r 0x10 (if q = 0 then 0x80000000 else 0) 0

def execEngineEntryTake (q : Nat) (s : State) : Host.Outcome State Fault Refusal := s.coreDo fun s => s.takeEntry q

/-! ## The Mover (R451, R452) -/

/-- A Mover completion (R452): DETAIL, CRC, MOVED. -/
def State.movDone (s : State) (r : Req) (status detail : Nat) (j : MovJob) : State :=
  let crc := if (u16 j.entry 2).testBit 1 then (j.crc ^^^ 0xFFFFFFFF).toNat else 0
  s.completeAs r status 0 0 (leBytes 4 detail ++ leBytes 4 crc ++ leBytes 8 j.done ++ zeros 8)

/-- A DRAM range that crosses no channel: each megabyte of it must serve (R418). -/
def State.dramRange (s : State) (off n : Nat) : DramAcc := s.dramAcc off n

/-- What a source or a destination window refuses (R452, R453): registers, the sink and holes are no address for the Mover;
flash is read only, the controller region and the training area are their owners' (R419), and no range leaves an endpoint. -/
def State.movWindow (s : State) (addr n : Nat) (dst : Bool) : Option Nat :=
  match s.window addr with
  | .flash _ off => if dst then some 0x37 else if off + n ≤ 0x10000000 then none else some 0x93
  | .dram off => match s.dramRange off n with
    | .ok => if dst && s.reserved off n then some 0x37 else none
    | .address => some 0x93
    | .unavailable => some 0x84
  | .remote _ => if 2 ^ 52 < addr % 2 ^ 52 + n then some 0x93 else if s.ebx.up = 0#2 then some 0x94 else none
  | _ => some 0x93

/-- What a Mover entry completes with at once (R452). -/
def State.movBad (s : State) (r : Req) (e : Bytes) : Option Nat :=
  let op := u16 e 0
  let src := u64 e 8
  let dst := u64 e 0x10
  let len := u64 e 0x18
  if 4 ≤ u16 e 2 ∨ len = 0 ∨ 0x100000000 < len ∨ !zeroAt e 0x28 24 ∨ (op ≠ 2 ∧ u64 e 0x20 ≠ 0) ∨ (op = 2 ∧ src ≠ 0) ∨
      (op = 3 ∧ 2 ^ 29 ≤ src) then some 0x10
  else if op = 1 ∧ src < dst + len ∧ dst < src + len then some 0x10
  else if op ≠ 2 ∧ !s.may r.principal .read then some 0x37
  else if op = 3 ∧ 0x10000000 < src % 0x10000000 + len then some 0x93
  else match (if op = 1 then s.movWindow src len false else none) with
    | some c => some c
    | none => s.movWindow dst len true

/-- The next segment goes to queue 5, and every eighth to queue 6 while it has entries; within a queue to the oldest entry
(R451). -/
def State.movAssign (s : State) : State :=
  let of' (q : Nat) := s.mov.jobs.find? fun j => j.req.queue == some q
  if s.mov.jobs.any MovJob.active then s
  else
    let pick := match of' 5, of' 6 with
      | some a, some b => if 7 ≤ s.mov.turn then some (b, 0) else some (a, s.mov.turn + 1)
      | some a, none => some (a, min 7 (s.mov.turn + 1))
      | none, some b => some (b, 0)
      | none, none => s.mov.jobs.head?.map fun j => (j, s.mov.turn)
    match pick with
    | some (j, t) => { s with mov := { jobs := s.mov.jobs.map fun x => if x = j then { x with active := true } else x, turn := t } }
    | none => s

/-- A Mover entry is carried out: it waits for its segments, or completes at once (R451, R452). -/
def State.movStart (s : State) (r : Req) (e : Bytes) : State :=
  s.withRight r .memory fun s => match s.movBad r e with
    | some c =>
      let s := match s.window (u64 e 0x10) with
        | .dram off => if s.reserved off (u64 e 0x18) then s.ownViolation r (u64 e 0x10) c else s
        | _ => s
      s.movDone r c 0 { req := r, entry := e }
    | none =>
      let j : MovJob := { req := r, entry := e, port := s.portFor (u64 e 0x10 / 2 ^ 52) }
      ({ s with mov := { s.mov with jobs := s.mov.jobs ++ [j] } } : State).movAssign

def execCopyMem (r : Req) (e : Bytes) (s : State) : Host.Outcome State Fault Refusal := s.coreDo fun s => s.movStart r (patch e 0 [1, 0])
def execFillMem (r : Req) (e : Bytes) (s : State) : Host.Outcome State Fault Refusal := s.coreDo fun s => s.movStart r (patch e 0 [2, 0])
def execFlashRead (r : Req) (e : Bytes) (s : State) : Host.Outcome State Fault Refusal :=
  s.coreDo fun s => s.movStart r (patch e 0 [3, 0])

/-- Source bytes of a segment, as many as could be read in order: a DRAM block that fails its check twice ends them (R429). -/
def State.movSource (s : State) (j : MovJob) (n : Nat) (remote : Option Bytes) : Bytes × Nat :=
  let src := u64 j.entry 8 + j.done
  match u16 j.entry 0 with
  | 2 =>
    let p := slice j.entry 0x20 8
    (((List.range (n / 8 + 2)).flatMap fun _ => p).drop (j.done % 8) |>.take n, 0)
  | 3 => (s.fread (src / 0x10000000) (src % 0x10000000) n, 0)
  | _ => match s.window src with
    | .dram off =>
      let o := off % chSize
      let bad := (s.dramBad off n).map fun b => b * 64
      let first := bad.foldl (fun m b => min m (b - o)) n
      (Memory.getAll 0 s.dram off first, 0x91)
    | .remote _ => ((remote.getD []).take n, 0x94)
    | _ => ((s.localRead src n).getD [], 0x93)

/-- A partial first or last block of the destination fails its check, so that its write is not carried out (R427). -/
def State.dstBad (s : State) (addr n : Nat) : Bool := match s.window addr with
  | .dram off =>
    let o := off % chSize
    (s.dramBad off n).any fun b => decide (b * 64 < o) || decide (o + n < b * 64 + 64)
  | _ => false

/-- Bytes of an entry are written: those for an endpoint go out on the entry's one port while that is up (R451). -/
def State.movGive (s : State) (j : MovJob) (addr : Nat) (bs : Bytes) : State := match s.window addr with
  | .remote ep => s.giveOn (if s.ebx.up.getLsbD j.port then j.port else s.portFor ep) addr bs
  | _ => s.give addr bs

/-- A segment of at most 1 MB ends: its bytes are written, and the entry completes once all are, or where one failed. `remote` is
what the far endpoint returned (R451, R452). -/
def State.movSegment (s : State) (remote : Option Bytes) : State :=
  match s.mov.jobs.find? MovJob.active with
  | none => s
  | some j =>
    let dst := u64 j.entry 0x10 + j.done
    let want := min 0x100000 (u64 j.entry 0x18 - j.done)
    let got := s.movSource j want remote
    let rest := s.mov.jobs.filter fun x => x != j
    let gone := match s.movWindow dst want true with
      | some c => if c = 0x84 ∨ c = 0x94 then some c else none
      | none => if s.dstBad dst got.1.length then some 0x91 else none
    match gone with
    | some c =>
      (({ s with mov := { s.mov with jobs := rest } } : State).movDone j.req c (j.done % 2 ^ 32) j).movAssign
    | none =>
      let s := s.memAsk.movGive j dst got.1
      let j' := { j with done := j.done + got.1.length, crc := got.1.foldl crc32cByte j.crc, active := false }
      if got.1.length < want then
        (({ s with mov := { s.mov with jobs := rest } } : State).movDone j.req got.2 (j'.done % 2 ^ 32) j').movAssign
      else if u64 j.entry 0x18 ≤ j'.done then (({ s with mov := { s.mov with jobs := rest } } : State).movDone j.req 0 0 j').movAssign
      else ({ s with mov := { s.mov with jobs := s.mov.jobs.map fun x => if x = j then j' else x } } : State).movAssign

def execMoverSegmentDone (remote : Option Bytes) (s : State) : Host.Outcome State Fault Refusal := s.coreDo fun s => s.movSegment remote

end Sys2Proof.Machine
end

