-- ==== Sys2Proof/Machine/Regs.lean ====
section
/-!
DEFINITION. Machine/Regs.lean: the register space (chapter 18). Each block is a table of its registers as R506 to R521 list
them: offset, words, what a read answers and what a write does; the header, the selects, snapshots, staging, and the access
codes (R16, R17, R493 to R500, R522) are applied to the tables once.
-/
namespace Sys2Proof.Machine

/-! ## The shape of a register -/

/-- A register: the offset of its lowest word, its words, its value, and what a write of a value does. Without `put` it is
RO. `right` is what a write needs (R468), `gate` the right that the register's own command asks for, `wl` a register open
until the handover lock (R16, R92), `hidden` one that reads 0 on every path (R516), `roMask` the RO fields of a register that has fields
of another access code too. -/
structure RegDef where
  off : Nat
  words : Nat := 1
  get : State → Nat
  put : Option (Req → Nat → State → State) := none
  right : Option Right := none
  gate : Option Right := none
  wl : Bool := false
  hidden : Bool := false
  roMask : Nat := 0

/-- The state that a command answers. -/
def nextOr (s : State) : Host.Outcome State Fault Refusal → State
  | .next t => t
  | _ => s

def ro (off : Nat) (get : State → Nat) : RegDef := { off := off, get := get }
def roWide (off words : Nat) (get : State → Nat) : RegDef := { off := off, words := words, get := get }
/-- An RW register whose write stores a value. -/
def rw (off : Nat) (right : Option Right) (get : State → Nat) (put : Nat → State → State) : RegDef :=
  { off := off, get := get, put := some fun _ v s => put v s, right := right }
/-- A register whose write is a command with a row of its own, which asks for its own right. -/
def via (off : Nat) (gate : Option Right) (get : State → Nat) (f : Req → Nat → State → Host.Outcome State Fault Refusal) : RegDef :=
  { off := off, get := get, gate := gate, put := some fun r v s => nextOr s (f r v s) }
/-- An SC field [0]: a written 0 has no effect (R16). -/
def act (off : Nat) (gate : Option Right) (f : Req → State → Host.Outcome State Fault Refusal) : RegDef :=
  via off gate (fun _ => 0) fun r v s => if v % 2 = 1 then f r s else .next s

/-- A register with RO fields beside others (R17). -/
def mixed (m : Nat) (d : RegDef) : RegDef := { d with roMask := m }

def cv (c : Cnt) : Nat := c.val.toNat
/-- CNT_SAT over counters in the order listed (R502). -/
def satOf (l : List Cnt) : Nat := maskOf ((List.range l.length).filter fun i => (l[i]?).any Cnt.sat)
def keysOf (t : Tbl Cnt) (n : Nat) : List Cnt := (List.range n).map fun k => Tbl.get {} t k
/-- A signed value as a register word; one beyond the range reads as the largest or smallest code (R14). -/
def iw (v : Int) : Nat := ofInt 32 (sat32 v)
/-- An array of registers, 4 bytes apart. -/
def arr (n : Nat) (f : Nat → RegDef) : List RegDef := (List.range n).map f

def PairSt.code : PairSt → Nat
  | .undecided => 0 | .claiming => 1 | .lead => 2 | .partner => 3 | .displaced => 4
def RailSt.code : RailSt → Nat
  | .off => 0 | .waitUp => 1 | .upDelay => 2 | .rising => 3 | .good => 4 | .waitDown => 5 | .downDelay => 6 | .falling => 7
  | .downfault => 8 | .retryFall => 9 | .backoff => 10
def FanSt.code : FanSt → Nat
  | .off => 0 | .starting => 1 | .running => 2 | .stalled => 3 | .seized => 4 | .tachLost => 5
def RelSt.code : RelSt → Nat
  | .idle => 0 | .asserted => 1 | .releasing => 2 | .stage2 => 3
def ChSt.code : ChSt → Nat
  | .absent => 0 | .training => 1 | .filling => 2 | .inService => 3 | .outOfService => 4

/-- The access state of a path in a block (R494). -/
def State.pb (s : State) (p : Path) (blk : Nat) : PathBlock := Tbl.get {} s.acc (16 * p.idx + blk)
def State.setPb (s : State) (p : Path) (blk : Nat) (x : PathBlock) : State := { s with acc := Tbl.set s.acc (16 * p.idx + blk) x }

/-! ## Identity and reset (R506) -/

def LastCause.word (c : LastCause) : Nat := c.code.toNat * 2 ^ 56 + c.detail.toNat * 2 ^ 48 + c.time.toNat

/-- LEDGER_CUR and LEDGER_PREV (R105, R506); a step without an entry reads 0 (DESIGN CHOICE, log 10: the spec gives no value). -/
def ledgerRegs (base : Nat) (f : State → Tbl LedgerEntry) : List RegDef :=
  (List.range 20).map fun k => roWide (base + 32 * k) 8 fun s =>
    (Tbl.find? (f s) (k + 1)).elim 0 fun x => leNat (LedgerEntry.bytes (k + 1) x)

/-- Identity of a die; a die that did not answer is of type 0 (R42). -/
def State.dieByte (s : State) (d o : Nat) : Nat := if s.pwr.absent.getLsbD d then 0 else u8 (Tbl.get [] s.pwr.dieId d) o

def identInst (d : Nat) : List RegDef :=
  [roWide 0x100 2 fun s => if s.pwr.absent.getLsbD d then 0 else le (Tbl.get [] s.pwr.dieId d) 0 6,
   ro 0x108 fun s => s.dieByte d 6, ro 0x10C fun s => s.dieByte d 7 + 256 * s.dieByte d 8,
   ro 0x110 fun s => s.dieByte d 9, ro 0x114 fun s => s.dieByte d 10,
   roWide 0x118 2 fun s => if 24 ≤ d then (Tbl.get {} s.rst.wardenLast (d - 24)).word else 0]

/-- KIND of SW_RESET for a reset (R88). -/
def swKind : RKind → Nat
  | .moduleReset => 1 | .coreDie => 2 | .caliperOnly => 3 | .armature => 4 | .powerOn => 0

/-- What SW_RESET reads (R16): the KIND of the reset that runs. It is the widest of those that wait for their counter snapshot, else that
of the restart under way where a write of SW_RESET or a wider source it joined made it. -/
def State.swRuns (s : State) : Nat :=
  if s.rst.waiting.any fun x => x.1 == .moduleReset then 1
  else if !s.rst.waiting.isEmpty then 2
  else match s.rst.under with
    | some k => if [6, 7, 8, 13].contains s.rst.underCode then swKind k else 0
    | none => 0

/-- SW_RESET (R88): KEY and KIND; KIND of no reset is any other write. -/
def swResetReg : RegDef := via 0x1030 (some .reset) State.swRuns fun r v s =>
  let key := v / 256 % 256
  match v % 8 with
  | 1 => execSwResetModule r key s
  | 2 => execSwResetCoreDie r key s
  | 3 => execSwResetCaliper r key s
  | 4 => execSwResetArmature r key s
  | _ => execSwResetRefused r v s

def identGlob : List RegDef :=
  [ro 0x1000 fun _ => if Config.gradeM2C then 2 else 1,
   roWide 0x1004 3 fun _ => Config.moduleSerial.toNat,
   ro 0x1010 fun s => bitAt s.pwr.identMismatch 31 + s.pwr.identFirst.toNat,
   rw 0x1014 (some .reset) (fun s => s.rst.rstCause.toNat)
     fun v s => { s with rst := { s.rst with rstCause := w1c s.rst.rstCause (BitVec.ofNat 13 v) } },
   rw 0x1018 (some .reset) (fun s => s.rst.calRstCause.toNat)
     fun v s => { s with rst := { s.rst with calRstCause := w1c s.rst.calRstCause (BitVec.ofNat 13 v) } },
   roWide 0x1020 2 fun s => s.rst.plinthLast.word, roWide 0x1028 2 fun s => s.rst.bootLast.word,
   swResetReg,
   rw 0x1034 (some .reset) (fun s => s.rst.wdtPeriod)
     fun v s => { s with rst := { s.rst with wdtPeriod := clampN 50 5000 (v % 65536) } },
   ro 0x1050 fun s => bitAt s.ob.defaults 2 + bitAt s.ob.oneCopy 1 + bitAt s.ob.stale 0,
   ro 0x1054 fun s => s.led.startSeq,
   rw 0x1058 (some .reset) (fun s => s.led.retryNormal.toNat)
     fun v s => { s with led := { s.led with retryNormal := w1s s.led.retryNormal (BitVec.ofNat 20 v) } },
   ro 0x105C fun s => satOf (keysOf s.pwr.clkFault 4)] ++
  arr 4 (fun k => ro (0x1040 + 4 * k) fun s => cv (Tbl.get {} s.pwr.clkFault k)) ++
  ledgerRegs 0x1100 State.ledgerCur ++ ledgerRegs 0x1400 fun s => s.led.prev

/-! ## Queue sets (R505) -/

/-- A queue's base takes writes only while the queue is disabled (R440). -/
def State.setBase (s : State) (q : Nat) (cq : Bool) (v : Nat) : State :=
  let x := s.queue q
  if x.enabled then s else s.setQueue q (if cq then { x with cqBase := v } else { x with sqBase := v })

/-- The queue set of R505 at the queue's base in its block. -/
def queueSet (q : Nat) : List RegDef :=
  let b := queueBase q % 0x10000
  let t := queueRight q
  [{ off := b, words := 2, get := fun s => (s.queue q).sqBase, put := some fun _ v s => s.setBase q false v, right := t },
   via (b + 8) t (fun s => (s.queue q).sqSize) fun r v s => execQueueSizeWrite r q false v s,
   via (b + 0xC) none (fun s => (s.queue q).sqTail) fun r v s => execDoorbellSqTail r q v s,
   ro (b + 0x10) fun s => (s.queue q).sqHead,
   { off := b + 0x18, words := 2, get := fun s => (s.queue q).cqBase, put := some fun _ v s => s.setBase q true v, right := t },
   via (b + 0x20) t (fun s => (s.queue q).cqSize) fun r v s => execQueueSizeWrite r q true v s,
   via (b + 0x24) t (fun s => (s.queue q).cqHead) fun r v s => execCqHeadWrite r q v s,
   ro (b + 0x28) fun s => (s.queue q).cqTail]

/-! ## Maquette (R507) -/

/-- MAQ_PROF_STATUS of a profile: the codes and validity of its copies (R84). -/
def State.profWord (s : State) (p : Nat) : Nat :=
  let x := Tbl.get ((false, 0), (false, 0)) s.maq.profStatus p
  let c1 := if p = 0 ∧ !x.2.1 then x.2.2 else 0
  let c0 := if x.1.1 then 0 else x.1.2
  65536 * c1 + 256 * c0 + bitAt x.2.1 1 + bitAt x.1.1 0

def maqInst (p : Nat) : List RegDef :=
  [ro 0x100 fun s => s.profWord p,
   ro 0x104 fun s => ((s.validMaq p).map fun b => (mqStructure b).version).getD 0,
   roWide 0x110 12 fun s => ((s.validMaq p).map fun b => (mqStructure b).digest.toNat).getD 0]

def maqGlob : List RegDef :=
  [ro 0x1000 fun s => 256 * (s.maq.pend.map PendSwitch.profile).getD 0xFF + bitAt s.maq.pend.isSome 2 + bitAt s.maq.keyRevoked 1 +
     bitAt s.maq.live.isNone 0,
   ro 0x1004 fun s => bitAt s.maq.forceP0 0, ro 0x1008 fun s => s.maq.activeProfile, ro 0x100C fun s => s.maqBlockers,
   ro 0x1010 fun s => 2 ^ 24 * s.maq.errCode + s.maq.errWhere, ro 0x1014 fun s => s.ob.minStruct,
   roWide 0x1020 12 fun s => (s.maq.live.map fun m => m.digest.toNat).getD 0] ++ queueSet 0

/-! ## Boot and update (R508) -/

/-- The area that SLOT_SEL shows: slots A and B, Plaster copies, and the better copy of a site store entry. -/
def State.selArea (s : State) (k : Nat) : Nat × Nat :=
  if k < 2 then (k, slotOff) else if k < 4 then (k - 2, plasterOff)
  else ((s.storeCopy (k - 4)).getD (if (s.install 0 (storeOff (k - 4))).isSome then 0 else 1), storeOff (k - 4))

/-- Why the selected area is not usable (R123, R137). -/
def State.selCheck (s : State) (k : Nat) : Option Nat :=
  if k < 2 then s.slotCheck k else if k < 4 then s.plasterCheck (k - 2)
  else s.areaCheck (s.selArea k).1 (storeOff (k - 4)) 3 (some s.ob.minSite) none

def State.slotStatus (s : State) (k : Nat) : Nat :=
  let inst := (s.install (s.selArea k).1 (s.selArea k).2).isSome
  let excl := k < 2 && s.led.excluded.getLsbD k
  let err := if excl then 0x4B else if k < 4 then Tbl.get 0 s.boot.slotErr k else if inst then (s.selCheck k).getD 0 else 0
  bitAt inst 0 + bitAt (inst && s.selCheck k == none) 1 + bitAt excl 2 + 256 * err

/-- A value of the selected area's manifest; 0 with no install record. -/
def State.selMan (s : State) (k : Nat) (f : Bytes → Nat) : Nat :=
  let a := s.selArea k
  if (s.install a.1 a.2).isSome then f (s.manifestAt a.1 a.2) else 0

def bootInst (k : Nat) : List RegDef :=
  [ro 0x100 fun s => s.slotStatus k, ro 0x104 fun s => s.selMan k manVersion,
   ro 0x108 fun s => (s.install (s.selArea k).1 (s.selArea k).2).elim 0 fun b => u32 b 8,
   ro 0x10C fun s => s.selMan k manKey, roWide 0x110 12 fun s => s.selMan k fun m => (manDigest m).toNat]

def bootGlob : List RegDef :=
  [ro 0x1000 fun s => bitAt s.boot.plasterHeld 5 + bitAt s.boot.romService 4 + bitAt s.ob.revminLost 3 + bitAt s.ob.keyLost 2 +
     bitAt s.boot.deferredFail 1 + bitAt s.boot.healthy 0,
   ro 0x1004 fun s => s.boot.slot, ro 0x1008 fun s => (s.boot.run.map RunImage.ifVersion).getD 0,
   ro 0x100C fun _ => Config.romVersion.toNat,
   { off := 0x1010, get := fun s => (s.ob.keyWritten.map BitVec.toNat).getD s.keyState, wl := true
     put := some fun _ v s => { s with ob := { s.ob with keyWritten := some (BitVec.ofNat 6 v) } } },
   { off := 0x1014, get := fun s => s.ob.revoked.toNat, wl := true
     put := some fun _ v s => { s with ob := { s.ob with revoked := BitVec.ofNat 6 v } } },
   ro 0x1018 fun s => s.ob.minFw, ro 0x101C fun s => s.ob.minStruct, ro 0x1020 fun s => s.ob.minSite,
   rw 0x1024 (some .update) (fun s => s.boot.commitDwell)
     fun v s => { s with boot := { s.boot with commitDwell := clampN 60 86400 v } },
   roWide 0x1040 8 fun s => s.boot.nonce.toNat, ro 0x1060 fun s => s.debug, ro 0x1064 fun s => s.boot.updStatus,
   rw 0x1068 (some .update) (fun s => s.boot.pushFail.toNat)
     fun v s => { s with boot := { s.boot with pushFail := w1c s.boot.pushFail (BitVec.ofNat 8 v) } }]

/-! ## Sequencer (R509) and Survey (R510) -/

def seqInst (g : Nat) : List RegDef :=
  [ro 0x100 fun s => bitAt (s.used g) 16 + 256 * (s.rail g).retries + (s.rail g).st.code,
   ro 0x12C fun s => satOf (keysOf (s.railCnt g).cnt 7),
   via 0x130 (some .counterClear) (fun _ => 0) fun r v s => execRailCntClr r g (v % 128) s] ++
  arr 7 fun k => ro (0x110 + 4 * k) fun s => cv (Tbl.get {} (s.railCnt g).cnt k)

/-- SITE_CMD (R165). -/
def siteCmdReg : RegDef := via 0x1000 (some .sitePower) (fun _ => 0) fun r v s =>
  let n := v / 256 % 8
  match v % 16 with
  | 1 => execSiteUp r n s
  | 2 => execSiteDown r n s
  | 3 => execSiteClear r n s
  | 4 => execSiteAdopt r n s
  | 5 => execSiteIdentify r n s
  | c => execSiteCmdInvalid r n c s

def seqGlob : List RegDef :=
  [siteCmdReg, ro 0x1004 fun s => 2 ^ 24 * s.seq.cmdStatus + 256 * s.seq.cmdSite,
   rw 0x1050 (some .sitePower) (fun s => s.seq.resetWidth)
     fun v s => { s with seq := { s.seq with resetWidth := clampN 1 1000 v } }] ++
  arr 8 (fun n => ro (0x1010 + 4 * n) fun s => (s.site n).st.code) ++ arr 8 fun n => ro (0x1030 + 4 * n) fun s => (s.site n).template

def surveyInst (c : Nat) : List RegDef :=
  [ro 0x100 fun s => ofInt 16 (s.chan c).raw, ro 0x104 fun s => iw (s.chan c).value,
   mixed 0x1E <| rw 0x108 (some .counterClear)
     (fun s => bitAt (s.chan c).warn 0 + bitAt (s.chan c).stale 1 + bitAt ((s.chan c).out != 0) 2 +
       bitAt ((s.chanSite c).any fun n => s.svy.calNeutral.getLsbD n) 3 + bitAt s.svy.moduleNeutral 4)
     fun v s => if v % 2 = 1 then s.setChan c { s.chan c with warn := false } else s,
   ro 0x10C fun s => iw (s.chan c).calOff, ro 0x110 fun s => iw (s.chan c).calK]

def surveyGlob : List RegDef :=
  (ro 0x1040 fun s => satOf (keysOf s.svy.refFail 16)) ::
    arr 16 fun d => ro (0x1000 + 4 * d) fun s => cv (Tbl.get {} s.svy.refFail d)

/-! ## Capping and Relief (R511) -/

def energyOf (t : Tbl Energy) (n : Nat) : Energy := Tbl.get {} t n

/-- ENERGY_WRAP of an instance: clearing it leaves the values unchanged (R503). -/
def State.wrapBits (s : State) (n : Nat) : Nat :=
  if n = 8 then bitAt s.met.tray.wrap 0
  else bitAt (energyOf s.met.energy n).wrap 0 + bitAt (energyOf s.met.idle n).wrap 1 + bitAt (energyOf s.met.released n).wrap 2

def clrWrap (t : Tbl Energy) (n : Nat) (b : Bool) : Tbl Energy :=
  if b && (energyOf t n).wrap then Tbl.set t n { energyOf t n with wrap := false } else t

def State.clearWrap (s : State) (n v : Nat) : State :=
  if n = 8 then { s with met := { s.met with tray := { s.met.tray with wrap := s.met.tray.wrap && !v.testBit 0 } } }
  else { s with met := { s.met with energy := clrWrap s.met.energy n (v.testBit 0), idle := clrWrap s.met.idle n (v.testBit 1)
                                    released := clrWrap s.met.released n (v.testBit 2) } }

/-- The registers that answer at CAP_SEL 8 too: peaks, averages and ENERGY_WRAP. -/
def peakRegs (n : Nat) : List RegDef :=
  [ro 0x160 fun s => iw (s.peaks n).peak1ms, roWide 0x168 2 fun s => (s.peaks n).peak1msAt,
   ro 0x170 fun s => iw (s.peaks n).avg1s, roWide 0x178 2 fun s => (s.peaks n).avg1sAt,
   ro 0x180 fun s => iw (s.peaks n).avg60s, roWide 0x188 2 fun s => (s.peaks n).avg60sAt,
   ro 0x190 fun s => iw (s.peaks n).hold, roWide 0x198 2 fun s => (s.peaks n).holdAt,
   act 0x1A0 (some .counterClear) fun r s => execPeakClr r n s,
   rw 0x1A4 (some .counterClear) (fun s => s.wrapBits n) fun v s => s.clearWrap n v]

def capInst (n : Nat) : List RegDef :=
  if n = 8 then peakRegs 8
  else
    peakRegs n ++
    [ro 0x100 fun s => iw (s.capS n).cap, ro 0x104 fun s => iw (s.capS n).demand, ro 0x108 fun s => (s.capS n).src,
     via 0x10C (some .sitePower) (fun s => iw ((s.capS n).swFloor.getD (cpFloor.val (s.capOf n)))) fun r v s => execCapSwBoundWrite r n 0 (toInt 32 v) s,
     via 0x110 (some .sitePower) (fun s => iw ((s.capS n).swCeil.getD (cpCeil.val (s.capOf n)))) fun r v s => execCapSwBoundWrite r n 1 (toInt 32 v) s,
     via 0x114 (some .sitePower) (fun s => (s.capS n).weight.getD (cpWeight.nat (s.capOf n))) fun r v s => execCapSwBoundWrite r n 2 v s,
     ro 0x118 fun s => s.throttle n,
     ro 0x11C fun s => 4096 * (s.capS n).leakLevel + 256 * (s.capS n).force + 16 * (s.capS n).guard + s.reliefOn n,
     via 0x120 (some .sitePower) (fun s => (s.capS n).force) fun r v s => execSiteThrottleForceWrite r n (v % 8) s,
     via 0x124 (some .sitePower) (fun _ => 0) fun r v s => execSiteVout r n (v / 65536 % 32) (v % 65536) s,
     ro 0x128 fun s => bitAt (s.capS n).restoring 3 + bitAt (s.capS n).vtMissing 2 + bitAt (s.capS n).implausible 1 +
       bitAt (s.capS n).telemStale 0,
     ro 0x14C fun s => satOf (keysOf (s.capS n).cnts 7),
     roWide 0x150 2 fun s => (energyOf s.met.energy n).uj.toNat, roWide 0x158 2 fun s => (energyOf s.met.idle n).uj.toNat,
     roWide 0x1A8 2 fun s => (energyOf s.met.released n).uj.toNat] ++
    arr 7 (fun k => ro (0x130 + 4 * k) fun s => cv (Tbl.get {} (s.capS n).cnts k)) ++
    arr 15 fun k => ro (0x200 + 4 * k) fun s => if k < 13 then cv (Tbl.get {} (s.patina n).cnt k) else 0

def capGlob : List RegDef :=
  [via 0x1000 (some .budget) (fun s => iw s.trayBudget) fun r v s => execTrayBudgetWrite r (toInt 32 v) s,
   ro 0x1004 fun s => iw s.cap.avail,
   rw 0x1008 (some .budget) (fun s => bitAt s.cap.short 1 + bitAt s.cap.clamped 0)
     fun v s => { s with cap := { s.cap with short := s.cap.short && !v.testBit 1, clamped := s.cap.clamped && !v.testBit 0 } },
   ro 0x100C fun s => 16 * s.rel.level + s.rel.st.code, ro 0x1010 fun s => cv s.rel.cntV, ro 0x1014 fun s => cv s.rel.cntI,
   ro 0x1018 fun s => cv s.rel.cnt2, ro 0x101C fun s => s.met.baseSeq, ro 0x1020 fun s => cv s.met.full,
   ro 0x1028 fun s => satOf [s.rel.cntV, s.rel.cntI, s.rel.cnt2, s.met.full],
   roWide 0x1100 2 fun s => s.met.tray.uj.toNat]

/-- The job table through JOB_SEL (R496, R511). -/
def jobRegs (j : Nat) : List RegDef :=
  [roWide 0x1200 2 fun s => (s.job j).id,
   ro 0x1208 fun s => 65536 * (s.job j).joined.toNat + bitAt (s.job j).wrap 11 + bitAt (s.job j).pvalid 10 + bitAt (s.job j).estimated 9 +
     bitAt (s.job j).implicit 8 + (s.job j).st,
   act 0x1250 none fun r s => execJobRelease r j s] ++
  arr 8 fun n => roWide (0x1210 + 8 * n) 2 fun s => (energyOf (s.job j).energy n).uj.toNat

/-! ## Chisel (R512) -/

/-- A hardware bound of a domain, as CHISEL_SW_FLOOR and CHISEL_SW_CEIL reset to (R263). -/
def State.domBounds (s : State) (n k : Nat) : Nat × Nat :=
  match (((s.capS n).vtable.map vtDomains).getD []).find? fun d => d.1 == k with
  | some d => (((s.chiS n).domOf d 0).lo, ((s.chiS n).domOf d 0).hi)
  | none => (0, 0)

def State.chiselStatus (s : State) (n : Nat) : Nat :=
  let c := s.chiS n
  65536 * c.cur.getD 0xFF + bitAt c.modelLost 8 + bitAt c.stillCut 7 + bitAt c.still 6 + bitAt c.short 5 + bitAt c.fallback 4 +
    bitAt c.stale 3 + bitAt c.implausible 2 + bitAt c.frozen 1 + bitAt c.on 0

def chiselInst (n : Nat) : List RegDef :=
  [ro 0x100 fun s => s.chiselStatus n, ro 0x210 fun s => (s.chiS n).unused, ro 0x23C fun s => satOf (keysOf (s.chiS n).cnts 23)] ++
  arr 8 (fun k => ro (0x110 + 4 * k) fun s => Tbl.get 0 (s.chiS n).alloc k) ++
  arr 8 (fun k => ro (0x130 + 4 * k) fun s => Tbl.get 0 (s.chiS n).learned k) ++
  arr 8 (fun k => ro (0x150 + 4 * k) fun s => Tbl.get 0 (s.chiS n).demand k) ++
  arr 8 (fun k => ro (0x170 + 4 * k) fun s => Tbl.get 0 (s.chiS n).src k) ++
  arr 8 (fun k => via (0x190 + 4 * k) (some .sitePower) (fun s => (s.domBounds n k).1) fun r v s => execChiselSwBoundWrite r n k false (toInt 32 v) s) ++
  arr 8 (fun k => via (0x1B0 + 4 * k) (some .sitePower) (fun s => (s.domBounds n k).2) fun r v s => execChiselSwBoundWrite r n k true (toInt 32 v) s) ++
  arr 16 (fun k => ro (0x1D0 + 4 * k) fun s => cv (Tbl.get {} (s.chiS n).cnts k)) ++
  arr 7 fun k => ro (0x220 + 4 * k) fun s => cv (Tbl.get {} (s.chiS n).cnts (16 + k))

/-! ## Cooling (R513) -/

def fanRegs (c : Nat) : List RegDef :=
  [via 0x100 (some .cooling) (fun s => (s.fan c).target) fun r v s => execFanTargetWrite r c v s,
   ro 0x104 fun s => (s.fan c).eff, ro 0x108 fun s => (s.fan c).src, ro 0x10C fun s => (s.fan c).speed, ro 0x110 fun s => (s.fan c).duty,
   ro 0x114 fun s => bitAt ((s.fan c).st == .tachLost) 16 + 256 * (s.fan c).attempt + (s.fan c).st.code,
   act 0x118 (some .cooling) fun r s => execFanClear r c s,
   ro 0x12C fun s => satOf (keysOf (s.fan c).cnts 3)] ++
  arr 3 fun k => ro (0x120 + 4 * k) fun s => cv (Tbl.get {} (s.fan c).cnts k)

def valveRegs (v : Nat) : List RegDef :=
  [via 0x100 (some .cooling) (fun s => (s.valve v).cmd) fun r x s => execValveCmdWrite r v (x % 4) s,
   ro 0x104 fun s => bitAt (s.valve v).held 3 + bitAt (s.valve v).fault 2 + bitAt (s.valve v).confirmed 1 + bitAt (s.valvePos v) 0]

def zoneRegs (z : Nat) : List RegDef :=
  [ro 0x100 fun s => ofInt 16 (s.czone z).temp, ro 0x104 fun s => ofInt 16 ((s.czone z).median.getD (-32768)),
   mixed 0x37 <| rw 0x108 (some .cooling)
     (fun s => bitAt (s.czone z).pressLoss 5 + bitAt (s.czone z).flowLoss 4 + bitAt (s.czone z).overLimit 3 + bitAt (s.czone z).guard 2 +
       bitAt (s.czone z).coldLie 1 + bitAt (s.czone z).degraded 0)
     fun v s => s.setCzone z { s.czone z with overLimit := (s.czone z).overLimit && !v.testBit 3 },
   ro 0x10C fun s => maskOf ((List.range 8).filter fun k => (Tbl.get {} (s.czone z).members k : Member).valid),
   ro 0x110 fun s => 256 * maskOf ((List.range 8).filter fun k => (Tbl.get {} (s.czone z).members k : Member).held) +
     maskOf ((List.range 8).filter fun k => (Tbl.get {} (s.czone z).members k : Member).excl),
   act 0x114 (some .cooling) fun r s => execZoneClear r z s]

/-- The instance kinds of R269 in FAN_SEL's order. -/
def coolInst (i : Nat) : List RegDef :=
  if i < 40 then fanRegs i
  else if i < 56 then valveRegs (i - 40)
  else if i < 72 then [ro 0x100 fun s => (s.meter (i - 56)).rate]
  else if i < 80 then [ro 0x100 fun s => (s.pressS (i - 72)).value,
    ro 0x104 fun s => bitAt (s.pressS (i - 72)).loss 1 + bitAt (s.pressS (i - 72)).stale 0]
  else zoneRegs (i - 80)

def coolGlob : List RegDef :=
  [via 0x1000 (some .cooling) (fun _ => 0) fun r _ s => execCoolWdtRefresh r s,
   mixed 2 <| rw 0x1004 (some .cooling) (fun s => bitAt s.cool.suspended 1 + bitAt s.cool.wdtTripped 0)
     fun v s => { s with cool := { s.cool with wdtTripped := s.cool.wdtTripped && !v.testBit 0 } }]

/-! ## Hazards (R514) -/

def hazInst (i : Nat) : List RegDef :=
  if i < 48 then
    [ro 0x100 fun s => (s.leak i).cls, ro 0x10C fun s => cv (s.leak i).cntWet, ro 0x110 fun s => cv (s.leak i).cntBlind,
     ro 0x114 fun s => satOf [(s.leak i).cntWet, (s.leak i).cntBlind]] ++
    if i < 16 then [ro 0x104 fun s => (s.leak i).senseR, ro 0x108 fun s => (s.leak i).loopR] else []
  else
    let z := i - 48
    [ro 0x100 fun s => bitAt (s.lzone z).latched 8 + 16 * (s.lzone z).react + (s.lzone z).st,
     act 0x104 (some .hazard) fun r s => execLeakClear r z s]

def hazGlob : List RegDef :=
  [ro 0x1000 fun s => s.haz.pga, ro 0x1004 fun s => s.haz.peak, act 0x1008 (some .counterClear) fun r s => execShakePeakClr r s,
   ro 0x100C fun s => bitAt s.haz.shakeFault 3 + bitAt s.haz.causeReq 2 + bitAt s.haz.causeAcc 1 + bitAt s.haz.brace 0,
   act 0x1010 (some .hazard) fun r s => execBraceRequest r s,
   ro 0x1014 fun s => cv s.haz.cntNote, ro 0x1018 fun s => cv s.haz.cntBrace, ro 0x101C fun s => ofInt 16 s.haz.tjCore,
   ro 0x1020 fun s => bitAt s.haz.tjFault 4 + s.haz.tjState, ro 0x1024 fun s => cv s.haz.cntStop,
   ro 0x1028 fun s => satOf [s.haz.cntNote, s.haz.cntBrace, s.haz.cntStop]]

/-! ## Pointing (R515) -/

def syncInst (n : Nat) : List RegDef :=
  [ro 0x100 fun s => bitAt (s.line n).calibrated 2 + bitAt (s.line n).lineDown 1 + bitAt (s.line n).linkUp 0,
   ro 0x104 fun s => (s.line n).delay, ro 0x108 fun s => cv (s.line n).crcErr, ro 0x10C fun s => satOf [(s.line n).crcErr]]

/-- POINTING_COUNT and POINTING_FRAC are one snapshot of three words (R515). -/
def syncGlob : List RegDef :=
  [roWide 0x1000 3 fun s => s.pnt.frac * 2 ^ 64 + s.pnt.count,
   ro 0x100C fun s => bitAt s.ptValid 8 + s.pnt.st.code, ro 0x1010 fun s => bitAt s.pnt.upstream 1 + bitAt s.pnt.mismatch 0,
   ro 0x1014 fun s => cv s.pnt.epoch, ro 0x1018 fun s => cv s.pnt.conflict, ro 0x101C fun s => satOf [s.pnt.epoch, s.pnt.conflict]] ++
  arr 8 fun n => roWide (0x1200 + 32 * n) 8 fun s => (Tbl.get 0 s.pnt.dumap n).toNat

def launchRegs (i : Nat) : List RegDef :=
  [ro 0x1100 fun s => (s.arm i).st,
   roWide 0x1110 48 fun s => if (s.arm i).st = 0 ∨ (s.arm i).st = 3 then leNat (s.arm i).record
     else leNat (s.launchRecord (s.arm i))]

/-! ## Caliper (R516) -/

/-- Coverage of the op that CAL_COV_OP of the path names (R387). -/
def State.covSel (s : State) (p : Path) (n : Nat) : Cov := (s.calSite n).covOf (Tbl.get 1 s.cal.covOp p.idx)

def calInst (p : Path) (n : Nat) : List RegDef :=
  [via 0x100 (some .audit) (fun s => (s.calSite n).rate) fun r v s => execCalAuditRateWrite r n v s,
   rw 0x104 (some .audit) (fun s => bitAt (s.calSite n).fenceEn 0) fun v s => s.setCalSite n { s.calSite n with fenceEn := v % 2 == 1 },
   rw 0x108 (some .read) (fun s => Tbl.get 1 s.cal.covOp p.idx) fun v s => { s with cal := { s.cal with covOp := Tbl.set s.cal.covOp p.idx (v % 8) } },
   roWide 0x138 2 fun s => (s.covSel p n).offered, roWide 0x140 2 fun s => (s.covSel p n).checked,
   ro 0x148 fun s => cv (s.calSite n).lost,
   act 0x14C (some .counterClear) fun r s => execCalCovClr r n s,
   ro 0x150 fun s => satOf (keysOf (s.covSel p n).cnt 9 ++ [(s.calSite n).lost]),
   rw 0x154 (some .counterClear) (fun s => bitAt (s.covSel p n).wrap 0)
     fun v s => if v % 2 = 1 then
         let op := Tbl.get 1 s.cal.covOp p.idx
         s.setCalSite n { s.calSite n with cov := Tbl.set (s.calSite n).cov op { s.covSel p n with wrap := false } }
       else s] ++
  arr 9 fun k => ro (0x110 + 4 * k) fun s => cv (Tbl.get {} (s.covSel p n).cnt k)

/-- The Disagreement record at the path's cursor (R386), all 0 beyond the newest. -/
def State.disRec (s : State) (p : Path) : Nat :=
  ((s.cal.ring.find? fun x => x.1 == Tbl.get 0 s.cal.disCur p.idx).map fun x => leNat x.2).getD 0

def calGlob (p : Path) : List RegDef :=
  [ro 0x1000 fun _ => Config.disabledMap.toNat, ro 0x1004 fun s => s.cal.fencedMap.toNat,
   ro 0x1008 fun s => bitAt s.pwr.calClkFault 2 + bitAt s.pwr.calFenced 1 + bitAt s.cal.selfFenced 0,
   roWide 0x1010 2 fun s => s.selfTest,
   { off := 0x1020, words := 8, get := fun s => s.auditKey.toNat, hidden := true, right := some .audit
     put := some fun r v s => nextOr s (execCalAuditKeyWrite r v s) },
   rw 0x1040 (some .audit) (fun s => s.cal.retain) fun v s => { s with cal := { s.cal with retain := clampN 1 200 v } },
   via 0x1044 (some .read) (fun s => Tbl.get 0 s.cal.disFrom p.idx) fun r v s =>
     execCalDisFromWrite r.path r.principal v (s.setPb p 10 { s.pb p 10 with snap := none }),
   roWide 0x1100 96 fun s => s.disRec p] ++
  (List.range 8).flatMap (fun n => arr 8 fun j => ro (0x1300 + 32 * n + 4 * j) fun s => Tbl.get fpNan (s.slot n).outs j) ++
  arr 8 (fun n => ro (0x1400 + 4 * n) fun s => bitAt (s.slot n).loaded 0) ++
  arr 8 (fun n => ro (0x1420 + 4 * n) fun s => cv (s.slot n).skip) ++ queueSet 1 ++ queueSet 2

/-! ## Journal and Digest (R517), Memory (R518) -/

def jrnInst (n : Nat) : List RegDef :=
  [rw 0x100 (some .journal) (fun s => Tbl.get 0 s.jrn.keep n) fun v s => { s with jrn := { s.jrn with keep := Tbl.set s.jrn.keep n (v % 4) } },
   ro 0x104 fun s => bitAt ((Tbl.get 0 s.jrn.siteStatus n).testBit 0) 0 + bitAt ((Tbl.get 0 s.jrn.siteStatus n).testBit 1) 1]

def jrnGlob : List RegDef :=
  [mixed 0xB <| rw 0x1000 (some .journal)
     (fun s => bitAt s.jrn.clamped 3 + bitAt s.jrn.overrun 2 + bitAt (Tbl.get {} s.jrn.pairs 1 : JPair).mirrorLost 1 +
       bitAt (Tbl.get {} s.jrn.pairs 0 : JPair).mirrorLost 0)
     fun v s => { s with jrn := { s.jrn with overrun := s.jrn.overrun && !v.testBit 2 } },
   ro 0x1004 fun s => s.jrn.epoch,
   rw 0x1008 (some .journal) (fun s => s.jrn.seqIdle) fun v s => { s with jrn := { s.jrn with seqIdle := clampN 1000 600000 v } },
   rw 0x100C (some .journal) (fun s => s.jrn.gapWait) fun v s => { s with jrn := { s.jrn with gapWait := clampN 10 1000 v } },
   rw 0x1010 (some .journal) (fun s => s.jrn.region) fun v s => { s with jrn := { s.jrn with region := clampN 4 200 v } },
   rw 0x1014 (some .journal) (fun s => s.jrn.spotN) fun v s => { s with jrn := { s.jrn with spotN := clampN 0 4096 v } },
   rw 0x1018 (some .journal) (fun s => s.jrn.sealWait) fun v s => { s with jrn := { s.jrn with sealWait := clampN 0 60000 v } },
   ro 0x103C fun s => satOf (keysOf s.jrn.cnts 7)] ++
  arr 7 (fun k => ro (0x1020 + 4 * k) fun s => cv (Tbl.get {} s.jrn.cnts k)) ++ queueSet 3 ++ queueSet 4

/-- MEM_CH_CMD (R424): 1 REMOVE, 2 RETURN. -/
def memCmdReg (n : Nat) : RegDef := via 0x108 (some .memory) (fun _ => 0) fun r v s => match v % 4 with
  | 1 => execMemRemove r n s
  | 2 => execMemReturn r n true s
  | _ => .next s

def memInst (n : Nat) : List RegDef :=
  [ro 0x100 fun s => (s.ch n).st.code, ro 0x104 fun s => (s.ch n).cause, memCmdReg n,
   ro 0x110 fun s => cv (s.ch n).detect, ro 0x114 fun s => cv (s.ch n).scrub, ro 0x118 fun s => cv (s.ch n).unrec,
   ro 0x11C fun s => satOf [(s.ch n).detect, (s.ch n).scrub, (s.ch n).unrec],
   roWide 0x120 2 fun s => (s.ch n).errAddr, roWide 0x128 2 fun s => (s.ch n).errTime,
   ro 0x130 fun s => (s.ch n).fillFront, ro 0x134 fun s => (s.ch n).scrubPos,
   rw 0x138 (some .memory) (fun s => bitAt (s.ch n).lost 0) fun v s => s.setCh n { s.ch n with lost := (s.ch n).lost && !v.testBit 0 }]

def memGlob : List RegDef :=
  [rw 0x1000 (some .memory) (fun s => s.mem.errLimit) fun v s => { s with mem := { s.mem with errLimit := clampN 1 65535 v } },
   rw 0x1004 (some .memory) (fun s => s.mem.scrubPeriod) fun v s => { s with mem := { s.mem with scrubPeriod := clampN 1 168 v } },
   roWide 0x1008 2 fun s => s.mem.passTime,
   ro 0x1010 fun s => cv (Tbl.get {} s.mem.parity 0), ro 0x1014 fun s => cv (Tbl.get {} s.mem.parity 1),
   ro 0x1018 fun s => s.pwr.pairFailed.toNat, ro 0x101C fun s => satOf (keysOf s.mem.parity 2)]

/-! ## Queues and doorbells (R519) -/

def queueInst (q : Nat) : List RegDef :=
  [via 0x100 none (fun s => (s.queue q).sqTail) fun r v s => execDoorbellSqTail r q v s,
   via 0x104 (queueRight q) (fun s => (s.queue q).cqHead) fun r v s => execCqHeadWrite r q v s,
   ro 0x108 fun s => 256 * (s.queue q).code + bitAt (s.queue q).full 3 + bitAt (s.queue q).error 2 + bitAt (s.queue q).stall 1 +
     bitAt (s.queue q).enabled 0,
   { off := 0x110, words := 2, get := fun s => (s.queue q).evAddr, right := queueRight q
     put := some fun _ v s => s.setQueue q { s.queue q with evAddr := v } },
   rw 0x118 (queueRight q) (fun s => (s.queue q).evData) fun v s => s.setQueue q { s.queue q with evData := v }]

def queueGlob : List RegDef :=
  queueSet 5 ++ queueSet 6 ++ queueSet 7 ++
  [ro 0x1100 fun s => bitAt s.ebx.conflict 16 + s.ebx.epId,
   roWide 0x1300 2 fun s => satOf (keysOf s.ebx.cnt 3 ++ keysOf s.ebx.msgBad 9 ++ keysOf s.ebx.coal 48)] ++
  arr 8 (fun n => ro (0x1110 + 4 * n) fun s => Tbl.get 0xFFFF s.ebx.siteEp n) ++
  arr 3 (fun k => ro (0x1130 + 4 * k) fun s => cv (Tbl.get {} s.ebx.cnt k)) ++
  arr 9 (fun k => ro (0x1140 + 4 * k) fun s => cv (Tbl.get {} s.ebx.msgBad k)) ++
  arr 48 fun k => ro (0x1200 + 4 * k) fun s => cv (Tbl.get {} s.ebx.coal k)

/-! ## Management and pair (R520) -/

def State.stream (s : State) (i : Nat) : Stream := Tbl.get {} s.mgt.streams i

/-- A telemetry setting; its stream then belongs to the principal that wrote it (R476). -/
def teleReg (i off words : Nat) (get : Stream → Nat) (put : Stream → Nat → Stream) : RegDef :=
  { off := off, words := words, get := fun s => get (s.stream i), right := some .read
    put := some fun r v s =>
      { s with mgt := { s.mgt with streams := Tbl.set s.mgt.streams i { put (s.stream i) v with owner := some r.principal } } } }

def mgmtInst (i : Nat) : List RegDef :=
  [teleReg i 0x100 1 (fun x => x.cfg.toNat) (fun x v => { x with cfg := BitVec.ofNat 2 v }),
   teleReg i 0x104 1 (fun x => x.period) (fun x v => { x with period := clampN 10 3600000 v }),
   teleReg i 0x108 2 (fun x => x.dest) (fun x v => { x with dest := v }),
   ro 0x210 fun s => cv (s.stream i).skip] ++
  arr 64 fun k => teleReg i (0x110 + 4 * k) 1 (fun x => Tbl.get 0 x.refs k) (fun x v => { x with refs := Tbl.set x.refs k v })

/-- WALL_TIME: the last synchronised value advanced by Plinth time, in ns (R477). -/
def State.wallTime (s : State) : Nat := (s.mgt.wallBase + (s.plinth - s.mgt.wallAt) * 1000000000 / 32768) % 2 ^ 64

/-- Words `k` to `k + n - 1` of the management addresses. -/
def State.addrWords (s : State) (k n : Nat) : Nat :=
  leNat ((List.range n).flatMap fun i => leBytes 4 (Tbl.get 0 s.mgt.addr (k + i)).toNat)
def State.setAddrWords (s : State) (k n v : Nat) : State :=
  { s with mgt := { s.mgt with addr := (List.range n).foldl (fun t i => Tbl.set t (k + i) (BitVec.ofNat 32 (v / 2 ^ (32 * i)))) s.mgt.addr } }

/-- MGMT_ADDR of a port or TRAY_SVC_ADDR: IPv4, prefix, IPv6 (R520). -/
def addrRegs (off k : Nat) : List RegDef :=
  [(off, k, 1), (off + 4, k + 1, 1), (off + 8, k + 2, 4)].map fun x =>
    { off := x.1, words := x.2.2, get := fun s => s.addrWords x.2.1 x.2.2, right := some .reset
      put := some fun _ v s => s.setAddrWords x.2.1 x.2.2 v }

def mgmtGlob : List RegDef :=
  [ro 0x1000 fun s => bitAt s.pins.bay 8 + s.pair.st.code,
   mixed 0xD <| rw 0x1004 (some .pair)
     (fun s => bitAt s.pair.partnerAbsent 3 + bitAt s.pair.roleConflict 2 + bitAt s.pair.blocked 1 + bitAt s.pair.synced 0)
     fun v s => { s with pair := { s.pair with blocked := s.pair.blocked && !v.testBit 1 } },
   rw 0x1008 (some .pair) (fun s => s.pair.holdWindow) fun v s => { s with pair := { s.pair with holdWindow := clampN 1 60 v } },
   ro 0x100C fun s => s.pair.holdState,
   rw 0x1080 (some .reset) (fun s => s.mgt.spdmPort.toNat) fun v s => { s with mgt := { s.mgt with spdmPort := BitVec.ofNat 32 v } },
   rw 0x1084 (some .reset) (fun s => s.mgt.ptpDomain) fun v s => { s with mgt := { s.mgt with ptpDomain := clampN 0 127 v } },
   roWide 0x1088 2 State.wallTime, ro 0x1090 fun s => bitAt s.mgt.wallSync 0,
   ro 0x1094 fun s => cv s.mgt.subDrop, ro 0x1098 fun s => satOf [s.mgt.subDrop],
   ro 0x109C fun s => u32 s.princTable 8] ++ addrRegs 0x1020 0 ++ addrRegs 0x1040 8 ++ addrRegs 0x1060 16

/-! ## Events and logs (R521) -/

/-- The path's cursor in the event ring, never before the oldest entry (R466). -/
def State.evtCursor (s : State) (p : Nat) : Nat := max s.evt.first (Tbl.get 0 s.evt.cursor p)

/-- The event at a path's cursor. -/
def State.evtAt (s : State) (p : Nat) : Option Event := s.evt.ring[s.evtCursor p - s.evt.first]?

/-- The 16 bytes of an event (R466). -/
def Event.bytes (e : Event) : Bytes :=
  leBytes 8 e.ptime ++ leBytes 1 e.block ++ leBytes 1 (Config.eventKind e.cause).toNat ++ leBytes 2 e.inst ++ leBytes 4 e.data

/-- The record at a path's log cursor; none at an empty slot, which ends the read-out (R194, R195). -/
def State.logRec (s : State) (p : Nat) : Option Bytes := match s.slotView (Tbl.get 0 s.log.cursor p) with
  | .held b _ => some b
  | _ => none

def evtInst (b : Nat) : List RegDef := [ro 0x100 fun s => cv (Tbl.get {} s.evt.coal b)]

def evtGlob (p : Path) : List RegDef :=
  [ro 0x1000 fun s => cv s.evt.lockViol,
   ro 0x1004 fun s => s.evt.first + s.evt.ring.length - s.evtCursor p.idx,
   roWide 0x1010 4 fun s => ((s.evtAt p.idx).map fun e => leNat e.bytes).getD 0,
   mixed 2 <| rw 0x1030 (some .counterClear)
     (fun s => bitAt s.log.snapSkipped 2 + bitAt (s.log.devFailed != 0) 1 + bitAt s.log.countersReset 0)
     fun v s => { s with log := { s.log with snapSkipped := s.log.snapSkipped && !v.testBit 2
                                             countersReset := s.log.countersReset && !v.testBit 0 } },
   ro 0x1034 fun s => s.log.seq.toNat, ro 0x1038 fun s => s.log.epoch.toNat, ro 0x103C fun s => cv s.log.lost,
   { off := 0x1040, words := 2, get := fun s => Tbl.get 0 s.log.readFrom p.idx, right := some .read
     put := some fun r v s => nextOr s (execLogReadFromWrite r.path r.principal v s) },
   roWide 0x1100 16 fun s => ((s.logRec p.idx).map leNat).getD 0,
   ro 0x1140 fun s => bitAt (s.logRec p.idx).isNone 0,
   ro 0x1144 fun s => cv s.log.oneCopy, ro 0x1148 fun s => cv (Tbl.get {} s.log.torn p.idx),
   ro 0x114C fun s => satOf [s.evt.lockViol, s.log.lost, s.log.oneCopy, Tbl.get {} s.log.torn p.idx] +
     bitAt ((keysOf s.evt.coal 16).any Cnt.sat) 4]

/-! ## Finding a register (R492, R493, R495, R496) -/

/-- Instances of a block's primary select (R492). -/
def blockCount (blk : Nat) : Nat := match blk with
  | 0 => 32
  | 1 => 4
  | 2 => 12
  | 3 => 280
  | 4 => 384
  | 5 => 9
  | 6 => 8
  | 7 => 96
  | 8 => 64
  | 9 => 13
  | 10 => 8
  | 11 => 8
  | 12 => 4
  | 13 => 8
  | _ => 16

/-- A block's secondary select: its offset and count (R496). -/
def secondSel (blk : Nat) : Option (Nat × Nat) := match blk with
  | 5 => some (0x1030, 1024)
  | 9 => some (0x1020, 16)
  | _ => none

def instRegs (p : Path) (blk i : Nat) : List RegDef := match blk with
  | 0 => identInst i
  | 1 => maqInst i
  | 2 => bootInst i
  | 3 => seqInst i
  | 4 => surveyInst i
  | 5 => capInst i
  | 6 => chiselInst i
  | 7 => coolInst i
  | 8 => hazInst i
  | 9 => syncInst i
  | 10 => calInst p i
  | 11 => jrnInst i
  | 12 => memInst i
  | 13 => queueInst i
  | 14 => mgmtInst i
  | _ => evtInst i

def secondRegs (blk i : Nat) : List RegDef := match blk with
  | 5 => jobRegs i
  | 9 => launchRegs i
  | _ => []

def globRegs (p : Path) (blk : Nat) : List RegDef := match blk with
  | 0 => identGlob
  | 1 => maqGlob
  | 2 => bootGlob
  | 3 => seqGlob
  | 4 => surveyGlob
  | 5 => capGlob
  | 6 => []
  | 7 => coolGlob
  | 8 => hazGlob
  | 9 => syncGlob
  | 10 => calGlob p
  | 11 => jrnGlob
  | 12 => memGlob
  | 13 => queueGlob
  | 14 => mgmtGlob
  | _ => evtGlob p

/-- The registers that a path sees in a block: the selected instances, none where a select is out of range (R495), and the
block's own. -/
def State.regs (s : State) (p : Path) (blk : Nat) : List RegDef :=
  let a := s.pb p blk
  (if a.sel < blockCount blk then instRegs p blk a.sel else []) ++
    (if (secondSel blk).any fun x => decide (a.sel2 < x.2) then secondRegs blk a.sel2 else []) ++ globRegs p blk

/-- The header's own registers and counts, which every block holds (R493, R496): the RO ones. -/
def headRegs (blk : Nat) : List RegDef :=
  [ro 0 fun _ => blk * 0x1000000 + 0x100, ro 0x14 fun _ => blockCount blk] ++
    match secondSel blk with
    | some (o, n) => [ro (o + 4) fun _ => n]
    | none => []

/-- The register that an offset lies in. -/
def State.regAt (s : State) (p : Path) (blk off : Nat) : Option RegDef :=
  (headRegs blk ++ s.regs p blk).find? fun d => decide (d.off ≤ off) && decide (off < d.off + 4 * d.words)

/-! ## Reads (R498, R499, R522) -/

/-- Word `i` of a value. -/
def wordOf (v i : Nat) : Word := BitVec.ofNat 32 (v / 2 ^ (32 * i))

/-- The words of a register as a snapshot latches them. -/
def RegDef.latch (d : RegDef) (s : State) : List Word := (List.range d.words).map (wordOf (if d.hidden then 0 else d.get s))

/-- The cursor that a read of a register's last word advances (R522): the row of each of the three registers. -/
def State.readAdvance (s : State) (p : Path) (blk off : Nat) : State :=
  if blk = 15 ∧ off = 0x101C then
    (if (s.evtAt p.idx).isSome then { s with evt := { s.evt with cursor := Tbl.set s.evt.cursor p.idx (s.evtCursor p.idx + 1) } } else s)
  else if blk = 15 ∧ off = 0x113C then s.logAdvance p.idx
  else if blk = 10 ∧ off = 0x127C then nextOr s (execCalDisRecAdvance p s)
  else s

/-- Whether reading an offset's word ends a record that a cursor presents. -/
def endsRecord (blk off : Nat) : Bool := (blk == 15 && (off == 0x101C || off == 0x113C)) || (blk == 10 && off == 0x127C)

/-- A higher word without a valid latch sets SNAP_MISS; POINTING_FRAC is a register of its own (R499, R515). -/
def State.missed (s : State) (p : Path) (blk base i : Nat) : State :=
  if blk = 9 ∧ base = 0x1000 ∧ i = 2 then s
  else s.setPb p blk { s.pb p blk with status := setBit (s.pb p blk).status 8 true }

/-- A read of a register word that its principal may make: the state after it and the word. -/
def State.readWord (s : State) (p : Path) (blk off : Nat) : State × Word :=
  let a := s.pb p blk
  if off = 0x10 then (s, BitVec.ofNat 32 a.sel)
  else if off = 0x18 then (s, a.status.zeroExtend 32)
  else if (secondSel blk).any fun x => x.1 == off then (s, BitVec.ofNat 32 a.sel2)
  else match s.regAt p blk off with
    | none => (s, 0)
    | some d =>
      let i := (off - d.off) / 4
      let now := (d.latch s)[i]?.getD 0
      if d.words = 1 then (s, now)
      else if i = 0 then
        let s := if blk = 2 ∧ d.off = 0x1040 then s.nonceLatch p else s
        let ws := d.latch s
        (s.setPb p blk { s.pb p blk with snap := some (d.off, ws) }, ws[0]?.getD 0)
      else match a.snap with
        | some (o, ws) =>
          if o = d.off then
            if endsRecord blk off then ((s.setPb p blk { a with snap := none }).readAdvance p blk off, ws[i]?.getD 0)
            else (s, ws[i]?.getD 0)
          else (s.missed p blk d.off i, now)
        | none => (s.missed p blk d.off i, now)
/-- A register read on a path: 0 and READ_REFUSED without the READ right (R498). -/
def State.readReg (s : State) (p : Path) (prin addr : Nat) : State × Word :=
  let blk := addr / 0x10000 % 16
  let off := addr % 0x10000 / 4 * 4
  if s.may prin .read then s.readWord p blk off
  else (s.setPb p blk { s.pb p blk with status := setBit (s.pb p blk).status 9 true }, 0)

/-- A register read whose answer goes back on its path. -/
def State.readOut (s : State) (p : Path) (prin addr : Nat) : State :=
  let x := s.readReg p prin addr
  x.1.emit (.read p addr x.2)

/-! ## Writes (R16, R17, R495, R500) -/

/-- A select write (R495, R499, R500): stored as written; out of range sets SEL_ERR; the block's snapshot and staging of the path
are gone. -/
def State.selectWrite (s : State) (p : Path) (blk v : Nat) (second : Bool) : State :=
  let a := s.pb p blk
  let x := v % 65536
  if second then
    let bad := (secondSel blk).any fun y => decide (y.2 ≤ x)
    s.setPb p blk { a with sel2 := x, snap := none, stage := none, status := if bad then setBit a.status 1 true else a.status }
  else
    let bad := blockCount blk ≤ x
    s.setPb p blk { a with sel := x, snap := none, stage := none, status := if bad then setBit a.status 0 true else a.status }

/-- The SEL_ERR bits that stand: those of select values at or above their count (R495). -/
def PathBlock.standing (a : PathBlock) (blk : Nat) : BitVec 10 :=
  BitVec.ofNat 10 (bitAt (decide (blockCount blk ≤ a.sel)) 0 + bitAt ((secondSel blk).any fun y => decide (y.2 ≤ a.sel2)) 1)

/-- The value that a write of the highest word commits: staged words, the word written, and the others as they stand (R500). -/
def stagedValue (cur words v : Nat) (stage : Tbl Word) : Nat :=
  leNat ((List.range words).flatMap fun i =>
    leBytes 4 (if i + 1 = words then v else match Tbl.find? stage i with
      | some w => w.toNat
      | none => cur / 2 ^ (32 * i) % 2 ^ 32))

/-- A write to a register that takes writes: a lower word is staged, the highest commits (R500). -/
def State.putWord (s : State) (r : Req) (blk off v : Nat) (d : RegDef) (f : Req → Nat → State → State) : State :=
  if d.words = 1 then f r v s
  else
    let i := (off - d.off) / 4
    let a := s.pb r.path blk
    let st := match a.stage with
      | some (o, t) => if o = d.off then t else []
      | none => []
    if i + 1 < d.words then s.setPb r.path blk { a with stage := some (d.off, Tbl.set st i (BitVec.ofNat 32 v)) }
    else
      let s' := s.setPb r.path blk { a with stage := if a.stage.any fun x => x.1 == d.off then none else a.stage }
      f r (stagedValue (d.get s) d.words v st) s'

/-- A register write: selects and SEL_STATUS, an RO register or a WL one after the lock (R17, R92), a write without its right
(R468), or what the register does; a 1 written into an RO field beside others counts too (R17, log 76). An offset that holds no
register ignores it (R493). -/
def State.writeReg (s : State) (r : Req) (addr value : Nat) : State :=
  let blk := addr / 0x10000 % 16
  let off := addr % 0x10000 / 4 * 4
  let v := value % 2 ^ 32
  let guard (f : State → State) : State := if s.may r.principal .read then f s else s.refuseWrite r.path r.principal addr
  if off = 0x10 then guard fun s => s.selectWrite r.path blk v false
  else if off = 0x18 then guard fun s =>
    s.setPb r.path blk { s.pb r.path blk with status := w1c (s.pb r.path blk).status (BitVec.ofNat 10 v) ||| (s.pb r.path blk).standing blk }
  else if (secondSel blk).any fun x => x.1 == off then guard fun s => s.selectWrite r.path blk v true
  else match s.regAt r.path blk off with
    | none => s
    | some d => match d.put with
      | none => s.violation r.path addr
      | some f =>
        if d.wl then
          if s.rst.locked ∨ r.principal ≠ armPrincipal then s.violation r.path addr else s.putWord r blk off v d f
        else if d.right.any fun x => !s.may r.principal x then s.refuseWrite r.path r.principal addr
        else (if v &&& d.roMask = 0 then s else s.violation r.path addr).putWord r blk off v d f

/-- The access gate refuses a register write (R457, R468, R92). -/
def State.writeDenied (s : State) (r : Req) (addr : Nat) : Bool :=
  let blk := addr / 0x10000 % 16
  let off := addr % 0x10000 / 4 * 4
  if off = 0x10 ∨ off = 0x18 ∨ ((secondSel blk).any fun x => x.1 == off) then !s.may r.principal .read
  else match s.regAt r.path blk off with
    | none => false
    | some d => d.put.isSome && ((d.wl && (s.rst.locked || r.principal != armPrincipal)) || (d.right.any fun x => !s.may r.principal x) ||
        d.gate.any fun x => !s.may r.principal x)

/-! ## The rows -/

def execSelectWrite (r : Req) (addr value : Nat) (s : State) : Host.Outcome State Fault Refusal := s.coreDo fun s => s.writeReg r addr value

def execSnapshotLatchRead (p : Path) (prin addr : Nat) (s : State) : Host.Outcome State Fault Refusal :=
  s.coreDo fun s => s.readOut p prin addr

def execMultiwordLowerWrite (r : Req) (addr value : Nat) (s : State) : Host.Outcome State Fault Refusal :=
  s.coreDo fun s => s.writeReg r addr value

def execMultiwordCommitWrite (r : Req) (addr value : Nat) (s : State) : Host.Outcome State Fault Refusal :=
  s.coreDo fun s => s.writeReg r addr value

def execRegisterReadRefused (p : Path) (prin addr : Nat) (s : State) : Host.Outcome State Fault Refusal :=
  s.coreDo fun s => s.readOut p prin addr

def execRegisterWrite (r : Req) (addr value : Nat) (s : State) : Host.Outcome State Fault Refusal :=
  s.coreDo fun s => s.writeReg r addr value

/-- A read of the last word of EVT_READ advances the path's cursor (R466, R521). -/
def execEvtReadAdvance (p : Path) (s : State) : Host.Outcome State Fault Refusal := s.coreDo fun s => s.readAdvance p 15 0x101C

end Sys2Proof.Machine
end

