-- ==== Sys2Proof/Machine/Ebbex.lean ====
section
/-!
DEFINITION. Machine/Ebbex.lean: the Ebbex endpoint (R455 to R462): requests served from the windows, responses to the
controller's own requests, discarded and coalesced messages, credits and ports.
-/
namespace Sys2Proof.Machine

/-- A packet of a port is heard: the core and fabric domains run and the port is up (R454, R462). -/
def State.portDo (s : State) (port : Nat) (f : State → State) : Host.Outcome State Fault Refusal :=
  s.coreDo fun s => if s.pwr.fabric && s.ebx.up.getLsbD port then f s else s

/-- The principal of a fabric requester: the first entry of its endpoint, else a site, else unknown (R469, R470). -/
def State.fabricPrincipal (s : State) (ep : Nat) : Nat :=
  let t := s.princTable
  match (List.range 32).find? fun n =>
      let e := princEntry t n
      u8 e 0 == 1 && u8 e 1 == 2 && u16 e 8 == ep with
  | some n => n + 1
  | none => if s.siteOfEp ep < 8 then sitePrincipal else unknownPrincipal

/-- A response leaves on the port that carried its request (R456, R462). -/
def State.respond (s : State) (port : Nat) (p : Packet) (cls status : Nat) (payload : Bytes) : State :=
  s.emit (.packet port ⟨cls, status, payload.length, s.ebx.epId, p.srcEp, p.tag, 0, 0, payload⟩)

/-- EBX_CNT_FORMAT, EBX_CNT_CRC or EBX_CNT_DROP counts `n` (R457, R458, R462). -/
def State.ebxCount (s : State) (k n : Nat) : State :=
  let c := (Tbl.get {} s.ebx.cnt k).add n
  let s := { s with ebx := { s.ebx with cnt := Tbl.set s.ebx.cnt k c.1 } }
  if c.2 then s.event 13 502 k 0 else s

/-- The request of a fabric requester as the access gate sees it (R26, R467). -/
def fabricReq (prin tag : Nat) : Req := ⟨.fabric, prin, none, tag, false⟩

/-! ## Requests (R455, R457) -/

/-- STATUS of R456 for a DRAM access. -/
def DramAcc.status : DramAcc → Nat
  | .ok => 0 | .address => 1 | .unavailable => 5

/-- What a READ_REQ answers: the bytes, or the STATUS of its ERROR_RESP. Registers answer as R498 says whatever the right. -/
def State.serveRead (s : State) (prin addr n : Nat) : State × (Nat ⊕ Bytes) :=
  match s.window addr with
  | .reg off =>
    if n ≠ 4 ∨ off % 4 ≠ 0 then (s, .inl 3)
    else
      let x := s.readReg .fabric prin off
      (x.1, .inr (leBytes 4 x.2.toNat))
  | .flash dev off =>
    if !s.may prin .read then (s, .inl 2) else if 0x10000000 < off + n then (s, .inl 1) else (s, .inr (s.fread dev off n))
  | .dram off =>
    if !s.may prin .read then (s, .inl 2)
    else if 4096 < off % 4096 + n then (s, .inl 3)
    else if s.dramAcc off n ≠ .ok then (s, .inl (s.dramAcc off n).status)
    else match s.dread off n with
      | some b => (s.memAsk, .inr b)
      | none => (s.memAsk, .inl 4)
  | .sink => (s, .inl 2)
  | _ => (s, .inl 1)

/-- READ_REQ (R457): a LENGTH outside 1 to 256 or a payload is discarded and counted. -/
def execReadReq (port : Nat) (p : Packet) (s : State) : Host.Outcome State Fault Refusal :=
  s.portDo port fun s =>
    if !p.payload.isEmpty ∨ p.length = 0 ∨ 256 < p.length then s.ebxCount 0 1
    else
      let s := s.credit port 0 (creditUnits 0)
      let x := s.serveRead (s.fabricPrincipal p.srcEp) p.addr p.length
      match x.2 with
      | .inl c => x.1.respond port p 0x13 c []
      | .inr b => x.1.respond port p 0x11 0 b

/-- A write of a fabric requester to module DRAM, with its STATUS. A controller region is written by its owners alone: such a
write is counted as a lock violation (R419); part of a block in error is not written (R427). -/
def State.serveDram (s : State) (prin addr off : Nat) (b : Bytes) : State × Nat :=
  if s.rights prin = 0 then (s, 2)
  else if 4096 < off % 4096 + b.length then (s, 3)
  else if s.dramAcc off b.length ≠ .ok then (s, (s.dramAcc off b.length).status)
  else if s.reserved off b.length then (s.violation .fabric (addr % 2 ^ 32), 2)
  else if s.dstBad addr b.length then (s, 4)
  else (s.dwrite off b, 0)

/-- What a WRITE_REQ does and the STATUS of its answer (R455, R457). -/
def State.serveWrite (s : State) (prin tag addr : Nat) (b : Bytes) : State × Nat :=
  match s.window addr with
  | .reg off =>
    if b.length ≠ 4 ∨ off % 4 ≠ 0 then (s, 3)
    else (s.writeReg (fabricReq prin tag) off (leNat b), if s.writeDenied (fabricReq prin tag) off then 2 else 0)
  | .flash _ _ => (s, 2)
  | .dram off => s.serveDram prin addr off b
  | .sink => (s, 2)
  | _ => (s, 1)

def execWriteReq (port : Nat) (p : Packet) (s : State) : Host.Outcome State Fault Refusal :=
  s.portDo port fun s =>
    if p.payload.isEmpty ∨ 256 < p.payload.length then s.ebxCount 0 1
    else
      let s := s.credit port 0 (creditUnits p.payload.length)
      let x := s.serveWrite (s.fabricPrincipal p.srcEp) p.tag p.addr p.payload
      x.1.respond port p (if x.2 = 0 then 0x12 else 0x13) x.2 []

/-- POSTED_WRITE (R457, R458): written toward module DRAM, the one window that takes it; nothing answers it. -/
def execPostedWrite (port : Nat) (p : Packet) (s : State) : Host.Outcome State Fault Refusal :=
  s.portDo port fun s =>
    if p.payload.isEmpty ∨ 256 < p.payload.length then s.ebxCount 0 1
    else
      let s := s.credit port 2 (creditUnits p.payload.length)
      match s.window p.addr with
      | .dram off => (s.serveDram (s.fabricPrincipal p.srcEp) p.addr off p.payload).1
      | _ => s

/-! ## Responses (R457) -/

/-- The outstanding request that a response answers, by TAG. -/
def State.reqOf (s : State) (tag : Nat) (write : Bool) : Option EbxReq := s.ebx.reqs.find? fun e => e.tag == tag && e.write == write

def State.dropReq (s : State) (e : EbxReq) : State := { s with ebx := { s.ebx with reqs := dropFirst (fun x => x == e) s.ebx.reqs } }

/-- A Mover entry whose destination holds an address completes REMOTE (R453, R462). -/
def State.movRemote (s : State) (hit : MovJob → Bool) : State :=
  let gone := s.mov.jobs.filter hit
  let s := { s with mov := { s.mov with jobs := s.mov.jobs.filter fun j => !hit j } }
  (gone.foldl (fun (s : State) j => s.movDone j.req 0x94 (j.done % 2 ^ 32) j) s).movAssign

/-- A request fails: an entry fetch counts a failed read and is made once more (R445); a Mover write ends its entry. -/
def State.reqFailed (s : State) (e : EbxReq) : State :=
  let s := s.dropReq e
  match e.q with
  | some q =>
    let x := s.queue q
    (s.setQueue q { x with fails := x.fails + 1 }).askEntry q
  | none =>
    if e.write then s.movRemote fun j => decide (u64 j.entry 0x10 ≤ e.addr) && decide (e.addr < u64 j.entry 0x10 + u64 j.entry 0x18)
    else s

/-- READ_RESP; one whose payload is not of its LENGTH, as a WRITE_ACK or ERROR_RESP with a payload, is discarded and counted
(R457). -/
def execReadResp (port : Nat) (p : Packet) (s : State) : Host.Outcome State Fault Refusal :=
  s.portDo port fun s =>
    let s := s.credit port 1 (creditUnits p.payload.length)
    if p.payload.length ≠ p.length then s.ebxCount 0 1 else
    match s.reqOf p.tag false with
    | none => s
    | some e =>
      let s := s.dropReq e
      match e.q with
      | some q => s.setQueue q { s.queue q with got := some (p.payload ++ zeros 64 |>.take 64) }
      | none => s

def execWriteAck (port : Nat) (p : Packet) (s : State) : Host.Outcome State Fault Refusal :=
  s.portDo port fun s =>
    let s := s.credit port 1 (creditUnits p.payload.length)
    if !p.payload.isEmpty then s.ebxCount 0 1 else
    match s.reqOf p.tag true with
    | none => s
    | some e => s.dropReq e

def execErrorResp (port : Nat) (p : Packet) (s : State) : Host.Outcome State Fault Refusal :=
  s.portDo port fun s =>
    let s := s.credit port 1 (creditUnits p.payload.length)
    if !p.payload.isEmpty then s.ebxCount 0 1 else
    match s.ebx.reqs.find? fun e => e.tag == p.tag with
    | none => s
    | some e => s.reqFailed e

/-! ## Messages (R460, R461) -/

/-- Length of a site record by its TYPE (R460). -/
def msgLen (typ : Nat) : Option Nat := match typ with
  | 1 => some 64
  | 2 => some 32
  | 4 => some 32
  | 5 => some 192
  | 7 => some 48
  | 8 => some 96
  | _ => none

/-- t of EBX_COALESCED by TYPE (R519). -/
def msgIdx (typ : Nat) : Nat := match typ with
  | 1 => 0
  | 2 => 1
  | 4 => 2
  | 5 => 3
  | 7 => 4
  | _ => 5

/-- A record is of a type, length and source that the controller accepts (R460). -/
def State.msgOk (s : State) (src : Nat) (rec : Bytes) : Bool :=
  msgLen (u8 rec 0) == some rec.length && decide (u8 rec 1 < 8) && Tbl.get 0xFFFF s.ebx.siteEp (u8 rec 1) == src && src != 0xFFFF

def execMessageInvalid (port : Nat) (p : Packet) (s : State) : Host.Outcome State Fault Refusal :=
  s.portDo port fun s =>
    if p.payload.length < 32 ∨ 192 < p.payload.length then s.ebxCount 0 1
    else if s.msgOk p.srcEp p.payload then s
    else (s.credit port 2 (creditUnits p.payload.length)).badMsg p.srcEp

/-- EBX_COALESCED counts, with one event per site and TYPE per 1 s, and the Posted credit returns at once (R461). -/
def execMessageCoalesced (port : Nat) (p : Packet) (s : State) : Host.Outcome State Fault Refusal :=
  s.portDo port fun s =>
    if !s.msgOk p.srcEp p.payload then s
    else
      let k := 6 * u8 p.payload 1 + msgIdx (u8 p.payload 0)
      let s := s.credit port 2 (creditUnits p.payload.length)
      let s := s.bump 13 k (Tbl.get {} s.ebx.coal k) fun c s => { s with ebx := { s.ebx with coal := Tbl.set s.ebx.coal k c } }
      if s.since (Tbl.find? s.ebx.coalTime k) (secs 1) then
        ({ s with ebx := { s.ebx with coalTime := Tbl.set s.ebx.coalTime k s.plinth } } : State).event 13 461 (u8 p.payload 1)
          (u8 p.payload 0)
      else s

/-- A packet of another CLASS or of a payload outside its range counts in EBX_CNT_FORMAT; one whose CRC fails in EBX_CNT_CRC, and
its units return to its channel (R457, R458). -/
def execEbxPacketDiscard (port : Nat) (crcOk : Bool) (p : Packet) (s : State) : Host.Outcome State Fault Refusal :=
  s.portDo port fun s =>
    if crcOk then s.ebxCount 0 1
    else
      let chan := if p.cls = 1 ∨ p.cls = 2 then some 0 else if 0x11 ≤ p.cls ∧ p.cls ≤ 0x13 then some 1
        else if p.cls = 0x21 ∨ p.cls = 0x22 then some 2 else none
      (chan.elim s fun c => s.credit port c (creditUnits p.payload.length)).ebxCount 1 1

/-! ## Credits (R458) -/

/-- A CREDIT packet carries the peer's cumulative counts: Request, Response, Posted. -/
def execCreditPacket (port : Nat) (p : Packet) (s : State) : Host.Outcome State Fault Refusal :=
  s.portDo port fun s =>
    if p.payload.length ≠ 16 then s.ebxCount 0 1
    else { s with ebx := { s.ebx with peer := (List.range 3).foldl (fun t c =>
             Tbl.set t (4 * port + c) (BitVec.ofNat 32 (u32 p.payload (4 * c)))) s.ebx.peer } }

/-- The CREDIT packet of a port whose counts have changed since the last. -/
def State.sendCredit (s : State) (port : Nat) : State :=
  let now := (List.range 3).map fun c => Tbl.get 0 s.ebx.ret (4 * port + c)
  let sent := (List.range 3).map fun c => Tbl.get 0 s.ebx.retSent (4 * port + c)
  if !s.ebx.up.getLsbD port || now == sent then s
  else
    let s := s.emit (.packet port (s.mkPacket 0x31 0 ((now.flatMap fun v => leBytes 4 v.toNat) ++ zeros 4)))
    { s with ebx := { s.ebx with retSent := (List.range 3).foldl (fun t c =>
        Tbl.set t (4 * port + c) (Tbl.get 0 s.ebx.ret (4 * port + c))) s.ebx.retSent } }

def execEbxCreditSend (s : State) : Host.Outcome State Fault Refusal := s.coreDo fun s => (s.sendCredit 0).sendCredit 1

/-! ## Ports (R454, R455, R462) -/

/-- A LINK packet assigns the endpoint number on a trained port, which comes up; with different numbers port 1 stays down with
EP_CONFLICT set (R455). The port of an absent PHY die stays down (R45). -/
def State.link (s : State) (port ep : Nat) : State :=
  if s.pwr.absent.getLsbD (1 + port) then s else
  let ports := Tbl.set s.ebx.portEp port (ep % 4096)
  let other := s.ebx.up.getLsbD (1 - port) && Tbl.get 0 ports (1 - port) != ep % 4096
  let e := { s.ebx with portEp := ports, conflict := other }
  let e : Ebbex := if other then { e with up := 1, epId := Tbl.get 0 ports 0 }
    else { e with up := setBit e.up port true, epId := ep % 4096 }
  let s := { s with ebx := e }
  if e.up == 3#2 && s.stepRuns 14 then s.endStep 14 .ok none else s

def execLinkPacket (port ep : Nat) (s : State) : Host.Outcome State Fault Refusal :=
  s.coreDo fun s => if s.pwr.fabric && s.ebx.trained.getLsbD port then s.link port ep else s

/-- A port loses its link or fails its LINK exchange: waiting Posted packets are dropped and counted, an entry with a write in
flight on it completes REMOTE, and it retrains (R462). -/
def execEbxPortDown (port dropped : Nat) (s : State) : Host.Outcome State Fault Refusal :=
  s.coreDo fun s =>
    let flying := s.ebx.reqs.filter fun e => e.write && e.port == port
    let s := { s with ebx := { s.ebx with up := setBit s.ebx.up port false, trained := setBit s.ebx.trained port false } }
    let s := if dropped = 0 then s else s.ebxCount 2 dropped
    s.movRemote fun j => flying.any fun e => decide (u64 j.entry 0x10 ≤ e.addr) && decide (e.addr < u64 j.entry 0x10 + u64 j.entry 0x18)

/-- A down port trains its link again; its LINK exchange then brings it up (R454, R462). -/
def execEbxPortRetrain (port : Nat) (ok : Bool) (s : State) : Host.Outcome State Fault Refusal :=
  s.coreDo fun s =>
    if s.ebx.up.getLsbD port then s else { s with ebx := { s.ebx with trained := setBit s.ebx.trained port (ok && s.pwr.fabric && !s.pwr.absent.getLsbD (1 + port)) } }

/-- A request on a down port fails after 1 ms and is issued once more on the other port, if that one is up (R462). -/
def execEbxRequestTimeout (tag : Nat) (s : State) : Host.Outcome State Fault Refusal :=
  s.coreDo fun s =>
    match s.ebx.reqs.find? fun e => e.tag == tag && !s.ebx.up.getLsbD e.port with
    | none => s
    | some e =>
      let port := 1 - e.port
      if e.reissued || !s.ebx.up.getLsbD port then s.reqFailed e
      else
        let s := s.dropReq e
        let p := { s.mkPacket (if e.write then 2 else 1) e.addr e.data with tag := e.tag, length := e.length }
        let s := s.emit (.packet port p)
        { s with ebx := { s.ebx with reqs := s.ebx.reqs ++ [{ e with port := port, reissued := true }] } }

end Sys2Proof.Machine
end

