-- ==== Sys2Proof/Machine/Pair.lean ====
section
/-!
DEFINITION. Machine/Pair.lean: the pair of controllers: hold line, roles, takeover, the shadow, handover, the ejector (R478 to
R487, R535), and the two rows that the Lead's shadow rides on.
-/
namespace Sys2Proof.Machine

/-! ## Roles and records (R478, R480, R491) -/

/-- A PAIR_EVENT record: GAP in µs and CAUSE (R491). -/
def State.pairEvent (s : State) (kind gap cause : Nat) : State :=
  s.record 0x21 (bitAt s.pins.bay 0) kind none
    (leBytes 4 (min gap 0xFFFFFFFF) ++ leBytes 1 cause ++ leBytes 1 s.pair.st.code ++ zeros 2 ++ leBytes 1 s.pair.holdWindow ++ zeros 19)

def TakeCause.code : TakeCause → Nat
  | .yield => 1 | .hang => 2 | .ownerless => 3 | .command => 4

/-- The controller is single: by PAIR_ROLE_PREF, else by PAIR_MODE (R478). -/
def State.single (s : State) : Bool :=
  let p := obRolePref.nat s.optBytes
  p == 3 || (p == 0 && roleMode.nat s.role == 1)

/-- The controller prefers Lead (R478). -/
def State.prefersLead (s : State) : Bool :=
  let p := obRolePref.nat s.optBytes
  if p = 0 then (roleBayPref.nat s.role).testBit (bitAt s.pins.bay 0) else p == 1 || p == 3

/-- The claim delay in µs (R480); after a failure of step 6 the bay alone decides, with no preference (R101). -/
def State.claimDelay (s : State) : Nat :=
  (if s.prefersLead && s.carry 6 == 0 then 2000 else 6000) + (if s.pins.bay then 1000 else 0)

def State.setPair (s : State) (f : Pair → Pair) : State := { s with pair := f s.pair }

/-- Step 6 ends when the state leaves UNDECIDED (R480). -/
def State.leaveUndecided (s : State) : State := if s.stepRuns 6 then s.endStep 6 .ok none else s

/-- What a controller does on becoming LEAD: tray outputs driven, its Wardens judge their sites (R168, R480), and the tray service
address is announced (R473). With the Plinth die absent no tray line is driven (R45). Its count goes on without a step; a Pointing manager
that has none yet sets one (R335, R336). -/
def State.toLead (s : State) : State :=
  let s := s.setPair fun p => { p with st := .lead, outputs := !s.pwr.absent.getLsbD 7, beats := 0, yields := 0, roleConflict := false }
  let s := (({ s with seq := { s.seq with toAdopt := s.pins.present } } : State).emit (.mgmt 473 [])).pointingRole
  -- the cooling pins are driven from now on (R290, R301)
  if !s.pair.outputs then s
  else (List.range 16).foldl (fun (s : State) v => if s.valveDrive v then s.emit (.line 290 (2 * v + 1)) else s) s.startAll

/-- What a controller does on becoming PARTNER: outputs high-impedance, OWN_N and TAKE_N released; the Hold window is the other
controller's (R480, R488). -/
def State.toPartner (s : State) : State :=
  s.setPair fun p => { p with st := .partner, outputs := false, ownHeld := false, takeDriven := false, beats := 0, yields := 0
                              taking := none, holdState := 0 }

/-! ## The shadow at the Lead (R483) -/

/-- A register of a block by instance and offset. -/
def regOf (blk inst off : Nat) : Option RegDef :=
  (if off < 0x1000 then instRegs .armature blk inst else globRegs .armature blk).find? fun d => d.off == off

/-- The operating settings that the shadow carries: address and instance (R483). -/
def settingKeys : List (Nat × Nat) :=
  [(0x51000, 0), (0xE1008, 0), (0xA1040, 0), (0xB1008, 0), (0xB100C, 0), (0xB1010, 0), (0xB1014, 0), (0xB1018, 0)] ++
  (List.range 8).flatMap (fun n => [(0x5010C, n), (0x50110, n), (0x50114, n), (0xA0100, n), (0xA0104, n), (0xB0100, n)]) ++
  (List.range 56).map fun c => (0x70100, c)

def State.settingAt (s : State) (k : Nat × Nat) : Nat × Nat × Nat :=
  (k.1, k.2, ((regOf (k.1 / 0x10000) k.2 (k.1 % 0x10000)).map fun d => d.get s).getD 0)

/-- The on-change digests: MAQ_ACTIVE_DIGEST, profile, principal table, option bytes (R483). -/
def State.shadowIds (s : State) : Digest × Nat × Digest × Digest :=
  ((s.maq.live.map Structure.digest).getD 0, s.maq.activeProfile, Config.sha384 s.princTable, Config.sha384 s.optBytes)

/-- An arm entry as the shadow carries it: number, state, and the launch record of one in use. Frame item 4. -/
def State.armImage (s : State) (i : Nat) : Nat × Nat × Bytes :=
  (i, (s.arm i).st, if (s.arm i).st = 0 then [] else s.launchRecord (s.arm i))
def armFrame (x : Nat × Nat × Bytes) : Out := .pairFrame 4 (leBytes 1 x.1 ++ leBytes 1 x.2.1 ++ x.2.2)

/-- The Lead sends the division state every 1 ms, and what has changed of the on-change items (R483). Frame items: 0 digests, 1
setting, 4 arm entry, 8 the Pointing count, 2 division. -/
def State.shadowDivision (s : State) : State :=
  if !s.shadowLink then s
  else
    let ids := s.shadowIds
    let now := settingKeys.map s.settingAt
    let news := now.filter fun x => !s.pair.sent.contains x
    let s := if s.pair.sentIds = some ids then s
      else s.emit (.pairFrame 0 (digestBytes ids.1 ++ leBytes 1 ids.2.1 ++ digestBytes ids.2.2.1 ++ digestBytes ids.2.2.2))
    let s := news.foldl (fun (s : State) x => s.emit (.pairFrame 1 (leBytes 4 x.1 ++ leBytes 2 x.2.1 ++ leBytes 4 x.2.2))) s
    let arms := (List.range 16).map s.armImage
    let s := (arms.filter fun x => !s.pair.sentArms.contains x).foldl (fun (s : State) x => s.emit (armFrame x)) s
    let s := s.setPair fun p => { p with sent := now, sentIds := some ids, sentArms := arms }
    let s := s.emit (.pairFrame 8 (leBytes 8 s.pnt.count ++ leBytes 1 s.pnt.frac ++ leBytes 1 (bitAt s.pnt.valid 0) ++ leBytes 1 s.pnt.st.code))
    s.emit (.pairFrame 2 ((List.range 8).flatMap fun n =>
      let c := s.capS n
      leBytes 4 (ofInt 32 (sat32 c.cap)) ++ leBytes 1 (bitAt c.recovering 0 + bitAt c.still 1)))

/-- Every 1 s the Lead sends models, arm table with launch records, and rail counters (R483). Frame items 3, 4 and 6. -/
def State.shadowSecond (s : State) : State :=
  if s.pair.st ≠ .lead ∨ !s.shadowLink then s
  else
    let s := (List.range 8).foldl (fun (s : State) n => s.emit (.pairFrame 3 (leBytes 1 n ++ s.modelImage n))) s
    let s := (List.range 16).foldl (fun (s : State) i => if (s.arm i).st = 0 then s else s.emit (armFrame (s.armImage i))) s
    s.emit (.pairFrame 6 ((List.range 280).flatMap fun g => (List.range 7).flatMap fun k => leBytes 4 (cv (Tbl.get {} (s.railCnt g).cnt k))))

/-- The Lead divides the budget, and shadows the division (R216, R480, R483). -/
def execCapDivision (s : State) : Host.Outcome State Fault Refusal :=
  s.armDo fun s => if s.maq.live.isSome && decide (s.pair.st = .lead) then s.division.shadowDivision else s

/-- Models are checkpointed, and shadowed (R266, R483). -/
def execChiselCheckpoint (s : State) : Host.Outcome State Fault Refusal := s.armDo fun s => s.chiCheckpoint.shadowSecond

/-! ## What a takeover takes from the shadow (R483) -/

/-- The request of work that the Armature starts itself (R27). -/
def armReq : Req := ⟨.armature, armPrincipal, none, 0, false⟩

def State.applySetting (s : State) (x : Nat × Nat × Nat) : State :=
  match (regOf (x.1 / 0x10000) x.2.1 (x.1 % 0x10000)).bind RegDef.put with
  | some f => f armReq x.2.2 s
  | none => s

/-- The shadowed division state becomes prev_cap of the first division. -/
def State.applyCaps (s : State) : State :=
  s.pair.shadowCaps.foldl (fun (s : State) e =>
    s.setCapS e.1 { s.capS e.1 with
                              cap := e.2.1, recovering := e.2.2.2.1, still := e.2.2.2.2
                              stillCap := if e.2.2.2.2 then e.2.1 else (s.capS e.1).stillCap }) s

/-- Settings, division state, counters, arm table and models as shadowed become this controller's own; checks in flight of the other
one are none of its own. -/
def State.takeShadow (s : State) : State :=
  let s := s.pair.shadowRegs.foldl State.applySetting s
  let s := s.applyCaps
  let s := s.pair.shadowCnts.foldl (fun (s : State) e =>
    s.setRailCnt e.1 { cnt := e.2.zipIdx.map fun v => (v.2, { val := BitVec.ofNat 32 v.1 }), dirty := true }) s
  let s := s.pair.shadowArms.foldl (fun (s : State) e =>
    if e.2.1 = 0 then s.setArm e.1 {} else s.setArm e.1 { armEntryOf e.2.2 s.plinth with st := e.2.1 }) s
  -- a site in Still mode that a throttle holds already is cut (R221)
  let s := s.throttleNote
  s.pair.shadowModels.foldl (fun (s : State) e => if imageOk e.2 && s.imageFits e.1 e.2 then s.loadImage e.1 e.2 else s) s

/-- A takeover begins: TAKE_N is asserted (R480). -/
def State.beginTake (s : State) (c : TakeCause) : State :=
  (s.setPair fun p => { p with taking := some c, takeDriven := true }).emit (.line 480 1)

/-! ## The hold line (R479 to R481) -/

/-- This Plinth yields (R481). -/
def State.yieldsNow (s : State) : Bool :=
  s.pair.yielding || s.haz.tjState == 1 || (s.snap.holdup && s.pair.peerInputGood && s.pair.st == .lead)

/-- The owner's heartbeat, and the contention that its sample finds (R479, R480). -/
def execOwnNHeartbeat (contention : Bool) (s : State) : Host.Outcome State Fault Refusal :=
  s.standbyDo fun s =>
    if !s.pair.ownHeld then s
    else
      let s := s.emit (.line 479 (if s.yieldsNow then 4 else 1))
      if 0 < s.pair.suspended then s.setPair fun p => { p with suspended := p.suspended - 1 }
      else if contention then
        if s.pins.bay && (s.pair.st == .claiming || s.pair.st == .lead) then s.toPartner.pairEvent 5 0 0
        else s.setPair fun p => { p with beats := 0 }
      else if s.pair.st = .claiming then
        if s.pair.beats < 2 then s.setPair fun p => { p with beats := p.beats + 1 }
        else
          let own := s.pair.taking == some .ownerless
          let gap := (s.plinth - s.pair.lastSeen) * 1000000 / 32768
          let s := (s.setPair fun p => { p with taking := none }).toLead
          if own then s.takeShadow.pairEvent 3 gap 3 else s.pairEvent 1 0 0
      else s

/-- A release of OWN_N by the other controller is seen: a heartbeat, or a yield (R480, R481). -/
def execOwnNReleaseObserved (yield : Bool) (s : State) : Host.Outcome State Fault Refusal :=
  s.standbyDo fun s =>
    if s.pair.ownHeld then s
    else
      let s := s.setPair fun p => { p with lastSeen := s.plinth }
      match s.pair.st with
      | .undecided =>
        let s := s.leaveUndecided.toPartner
        if s.single then (s.setPair fun p => { p with roleConflict := true }).pairEvent 0xA 0 0 else s
      | .partner =>
        let n := if yield then min 3 (s.pair.yields + 1) else 0
        let third := decide (s.pair.yields = 2)
        let s := s.setPair fun p => { p with yields := n }
        if n < 3 || s.pair.taking.isSome || s.single then s
        else if s.pair.synced then s.beginTake .yield
        else if !third then s
        else (s.setPair fun p => { p with blocked := true }).pairEvent 6 0 1
      | _ => s

/-- OWN_N has been high for `us` µs: the claim delay, with a structure committed, or for a Partner without an owner the claim delay
less 2 ms, 0.5 ms at least (R480). OWN_N is held low and heartbeats begin. -/
def execPairClaimDelayExpiry (us : Nat) (s : State) : Host.Outcome State Fault Refusal :=
  s.standbyDo fun s =>
    match s.pair.st with
    | .undecided =>
      if us < s.claimDelay || s.maq.live.isNone then s
      else s.leaveUndecided.setPair fun p => { p with st := .claiming, ownHeld := true, beats := 0 }
    | .claiming =>
      if s.pair.ownHeld || us < max 500 (s.claimDelay - 2000) then s else s.setPair fun p => { p with ownHeld := true, beats := 0 }
    | _ => s

/-- OWN_N has been high for 300 µs: a Partner claims (R480). -/
def execPairOwnNIdleTimeout (us : Nat) (s : State) : Host.Outcome State Fault Refusal :=
  s.standbyDo fun s =>
    if s.pair.st = .partner ∧ 300 ≤ us ∧ !s.pair.roleConflict ∧ !s.pins.eject ∧ s.pair.taking.isNone then
      s.setPair fun p => { p with st := .claiming, taking := some .ownerless, beats := 0 }
    else s

/-- OWN_N has stayed low for `us` µs without a release: a hang of TAKEOVER_DETECT (R481). -/
def execPairTakeoverHang (us : Nat) (s : State) : Host.Outcome State Fault Refusal :=
  s.standbyDo fun s =>
    if s.pair.st = .partner ∧ 1000 * roleDetect.nat s.role ≤ us ∧ s.pwr.armature ∧ s.boot.run.isSome ∧ s.maq.live.isSome ∧ !s.single ∧
        s.pair.taking.isNone then
      s.beginTake .hang
    else s

/-- 20 µs after TAKE_N: OWN_N held, heartbeats begun with contention checks suspended for 200 µs, and every tray output driven at
the level the latches hold (R480, R483). -/
def execPairTakeoverDrive (s : State) : Host.Outcome State Fault Refusal :=
  s.standbyDo fun s =>
    match s.pair.taking, s.pair.st with
    | some c, .partner =>
      let gap := if c = .hang then 1000 * roleDetect.nat s.role + 20 else 20
      let s := (s.setPair fun p => { p with ownHeld := true, suspended := 2, taking := none }).toLead
      s.takeShadow.pairEvent 3 gap c.code
    | _, _ => s

/-- TAKE_N from the other bay displaces the Lead into a core-die restart with cause 0x09 (R85, R480). -/
def execTakeNAsserted (s : State) : Host.Outcome State Fault Refusal :=
  s.standbyDo fun s =>
    if s.pair.st = .lead then
      let s := s.toPartner.setPair fun p => { p with st := .displaced }
      (s.resetSource 9 .coreDie).begin6.setPair fun p => { p with holdState := 0 }
    else s

/-! ## The pair link (R482, R483) -/

/-- PAIR_SYNCED is set when the on-change items agree, the division frame is at most 3 ms old, and Pointing is locked (R483). -/
def State.syncJudge (s : State) : State :=
  let fresh := s.pair.lastDivision.any fun t => decide (s.plinth ≤ t + msecs 3)
  if s.pair.st = .partner && !s.pair.synced && s.pair.shadowOk && fresh && s.pair.countLocked then
    (s.setPair fun p => { p with synced := true }).pairEvent 7 0 0
  else s

def State.syncLost (s : State) : State :=
  if s.pair.synced then (s.setPair fun p => { p with synced := false }).pairEvent 8 0 0 else s

/-- The caps of a division frame, by site. -/
def divisionTbl (caps : List (Nat × Nat × Bool × Bool)) : Tbl (Nat × Nat × Bool × Bool) := caps.zipIdx.map fun c => (c.2, c.1)

/-- A record that the Lead ingested is ingested (R483). -/
def State.ingest (s : State) (rec : Bytes) : State :=
  let n := u8 rec 1
  if 8 ≤ n then s
  else match u8 rec 0 with
    | 2 => s.jobMark n rec
    | 4 => s.choice n rec
    | 7 => s.takeEmission n rec
    | 8 => if u8 rec 2 = 1 then s.takeWeights n rec else s.takeInput n rec
    | _ => s

/-- The report that the Partner gives in answer to each division frame: PARTNER, input good and PAIR_SYNCED as bits 0 to 2, PAIR_PROTO (R480,
R481, R483; DESIGN CHOICE, log 55). Frame item 7. -/
def State.pairReport (s : State) : State :=
  s.emit (.pairFrame 7 (leBytes 1 (bitAt (s.pair.st == .partner) 0 + bitAt (s.pins.inputGood && !s.snap.holdup) 1 + bitAt s.pair.synced 2) ++
    leBytes 2 (s.boot.run.elim 0 RunImage.pairProto)))

/-- A frame of the pair link (R483, R484). The status report goes both ways; the rest is the Lead's state, taken by a Partner. -/
def State.shadowFrame (s : State) : Shadow → State
  | .status partner inputGood synced proto =>
    let s := s.setPair fun p => { p with peerPartner := partner, peerInputGood := inputGood, peerProto := proto
                                         takeDriven := p.takeDriven && !(p.st == .lead && partner) }
    if s.pair.st = .lead then s.setPair fun p => { p with synced := synced } else s
  | .identity maq profile princ opt =>
    if s.pair.st ≠ .partner then s
    else
      let same := decide ((maq, profile, princ, opt) = s.shadowIds)
      let s := s.setPair fun p => { p with shadowOk := same }
      if same then s.syncJudge else s.syncLost
  | .setting addr inst value =>
    if s.pair.st ≠ .partner ∨ !settingKeys.contains (addr, inst) then s
    else s.setPair fun p => { p with shadowRegs := (p.shadowRegs.filter fun x => !(x.1 == addr && x.2.1 == inst)) ++ [(addr, inst, value)] }
  | .division caps =>
    if s.pair.st ≠ .partner then s
    else (s.setPair fun p => { p with shadowCaps := divisionTbl caps, lastDivision := some s.plinth }).syncJudge.pairReport
  | .count t valid st => if s.pair.st = .partner then (s.lockCount t valid (PtSt.ofCode st)).syncJudge else s
  | .ingested rec => if s.pair.st = .partner then s.ingest rec else s
  | .chiselModel site image =>
    if s.pair.st = .partner then s.setPair fun p => { p with shadowModels := Tbl.set p.shadowModels site image } else s
  | .armEntry index st block =>
    if s.pair.st = .partner then s.setPair fun p => { p with shadowArms := Tbl.set p.shadowArms index (st, block) } else s
  | .railCounters rail vals =>
    if s.pair.st = .partner then
      s.setPair fun p => { p with shadowCnts := (p.shadowCnts.filter fun x => x.1 != rail) ++ [(rail, vals)] } else s
  | .handover caps =>
    if s.pair.st ≠ .partner ∨ !s.pair.synced then s
    else
      let s := s.setPair fun p => { p with shadowCaps := divisionTbl caps, lastDivision := some s.plinth, ownHeld := true, suspended := 10 }
      s.toLead.takeShadow.pairEvent 4 0 0

/-- The report of the other controller, which crosses any link. -/
def isStatus : Shadow → Bool
  | .status _ _ _ _ => true
  | _ => false

def execPairShadowFrame (item : Shadow) (s : State) : Host.Outcome State Fault Refusal :=
  s.coreDo fun s => if s.pair.lanes = 0#2 || !(isStatus item || s.shadowLink) then s else s.shadowFrame item

/-- PAIR_SYNCED clears when the last division frame is 10 ms old (R483). -/
def execPairSyncAgeTimeout (s : State) : Host.Outcome State Fault Refusal :=
  s.standbyDo fun s => if s.since s.pair.lastDivision (msecs 10) then s.syncLost else s

/-- A lane of the pair link comes up or goes down (R482). With no lane left a Lead has no Partner (R487). -/
def execPairLinkChange (lane : Nat) (up : Bool) (s : State) : Host.Outcome State Fault Refusal :=
  s.standbyDo fun s =>
    let lanes := setBit s.pair.lanes lane (up && s.pwr.core && !s.pins.eject)
    let s := s.setPair fun p => { p with lanes := lanes }
    if lanes = 0#2 then
      s.setPair fun p => { p with peerInputGood := false, peerPartner := false, sent := [], sentIds := none, sentArms := [], shadowOk := false, countLocked := false
                                  partnerAbsent := p.partnerAbsent || p.st == .lead }
    else s.setPair fun p => { p with partnerAbsent := false }

/-! ## Handover, TAKE and HOLD_SET (R484, R485) -/

/-- Why a handover is refused (R484). -/
def State.handRefusal (s : State) (commanded : Bool) : Option Nat :=
  if s.pair.st ≠ .lead then some 0xA2
  else if !s.pair.synced then some 0xA0
  else if (s.boot.run.elim 0 RunImage.pairProto) / 256 ≠ s.pair.peerProto / 256 then some 0xA1
  else if commanded && s.brace then some 0x31
  else if s.snap.holdup then some 0x41
  else none

/-- The Lead's side of a handover: the final division frame, then outputs high-impedance and OWN_N released (R484). -/
def State.handOver (s : State) : State :=
  let s := s.emit (.pairFrame 484 ((List.range 8).flatMap fun n => leBytes 4 (ofInt 32 (sat32 (s.capS n).cap))))
  s.toPartner.pairEvent 4 0 0

def execHandoverLead (r : Req) (s : State) : Host.Outcome State Fault Refusal :=
  s.armCmd r .pair fun s => match s.handRefusal true with
    | some c => s.complete r c 0 0
    | none => s.handOver.complete r 0 0 0

/-- TAKE at the Partner (R481, R485). -/
def execTakeLead (r : Req) (s : State) : Host.Outcome State Fault Refusal :=
  s.armCmd r .pair fun s =>
    if s.pair.st = .lead then s.complete r 0xA2 0 0
    else if s.pair.st ≠ .partner then s.complete r 0x53 0 0
    else if !s.pair.synced then s.complete r 0xA0 0 0
    else if s.pair.taking.isSome then s.complete r 0x48 0 0
    else (s.beginTake .command).complete r 0 0 0

/-- HOLD_SET: seconds at byte 0x10, clamped to 1 to 60 (R485). -/
def execHoldSet (r : Req) (seconds : Nat) (s : State) : Host.Outcome State Fault Refusal :=
  s.armCmd r .pair fun s => (s.setPair fun p => { p with holdWindow := clampN 1 60 (seconds % 256) }).complete r 0 0 0

/-! ## The ejector (R487, R535) -/

/-- EJECT_N, debounced (R487). -/
def execEjectNAsserted (s : State) : Host.Outcome State Fault Refusal :=
  s.standbyDo fun s =>
    let s := { s with pins := { s.pins with eject := true } }
    match s.pair.st with
    | .lead =>
      if (s.handRefusal false).isNone then s.handOver.pairEvent 9 0 0
      else ((s.startPage.snapshot 3).toPartner).pairEvent 9 0 0
    | .partner =>
      let s := s.pairEvent 9 0 0
      (s.setPair fun p => { p with lanes := 0, peerInputGood := false, shadowOk := false, countLocked := false }).syncLost
    | _ => s.pairEvent 9 0 0

/-- The ejector latch releases (R535). -/
def execEjectLatchRelease (s : State) : Host.Outcome State Fault Refusal :=
  s.standbyDo fun s => if s.pins.eject then ({ s with pins := { s.pins with latchOpen := true } } : State).emit (.line 535 1) else s

end Sys2Proof.Machine
end

