-- ==== Sys2Proof/Machine/Mgmt.lean ====
section
/-!
DEFINITION. Machine/Mgmt.lean: the management side (R466, R472 to R477): event forwarding and pushes, TLS clients, Redfish
requests, telemetry streams and wall time.
-/
namespace Sys2Proof.Machine

/-- Redfish and event forwarding are served once step 20 has ended (R488). -/
def State.servesDo (s : State) (f : State → State) : Host.Outcome State Fault Refusal :=
  s.fwDo fun s => if s.stepEnded 20 then f s else s

/-- A MGMT_EVENT record (R491). -/
def State.mgmtEvent (s : State) (src kind prin : Nat) (hash : Digest) : State :=
  s.record 0x22 src kind none (leBytes 4 prin ++ (digestBytes hash).take 16 ++ leBytes 4 (u32 s.princTable 8) ++ zeros 4)

/-! ## Events (R466, R475) -/

/-- One event goes to every subscription whose principal has READ; a push that fails waits for a retry (R475, R468). -/
def State.pushEvent (s : State) (fails : List Nat) (e : Event) : State :=
  s.mgt.subs.zipIdx.foldl (fun (s : State) x =>
    if !s.may x.1 .read then s
    else if fails.contains x.2 then { s with mgt := { s.mgt with tries := s.mgt.tries ++ [⟨x.2, e, 0⟩] } }
    else s.emit (.mgmt 475 (leBytes 4 x.1 ++ e.bytes))) s

/-- Blocks that owe a COALESCED event raise it now that there is room (R466). -/
def State.payOwed (s : State) : State :=
  (List.range 16).foldl (fun (s : State) b =>
    if s.evt.owed.getLsbD b && decide (s.evt.ring.length < 4096) then
      ({ s with evt := { s.evt with owed := setBit s.evt.owed b false } } : State).event b 466 0 (cv (Tbl.get {} s.evt.coal b))
    else s) s

/-- Firmware forwards the `n` oldest events and frees them (R466). `fails` are the subscriptions whose push fails. -/
def execEventForward (n : Nat) (fails : List Nat) (s : State) : Host.Outcome State Fault Refusal :=
  s.servesDo fun s =>
    let out := s.evt.ring.take n
    let s := out.foldl (fun (s : State) e => s.pushEvent fails e) s
    ({ s with evt := { s.evt with ring := s.evt.ring.drop n, first := s.evt.first + out.length } } : State).payOwed

/-- A retry of the `k`-th waiting push: sent, kept for the next of its three retries, or dropped and counted (R475). -/
def execEventPushRetry (k : Nat) (ok : Bool) (s : State) : Host.Outcome State Fault Refusal :=
  s.servesDo fun s => match s.mgt.tries[k]? with
    | none => s
    | some x =>
      let rest := s.mgt.tries.take k ++ s.mgt.tries.drop (k + 1)
      if ok then ({ s with mgt := { s.mgt with tries := rest } } : State).emit
        (.mgmt 475 (leBytes 4 (s.mgt.subs[x.sub]?.getD unknownPrincipal) ++ x.event.bytes))
      else if x.tries + 1 < 3 then
        { s with mgt := { s.mgt with tries := s.mgt.tries.take k ++ { x with tries := x.tries + 1 } :: s.mgt.tries.drop (k + 1) } }
      else
        ({ s with mgt := { s.mgt with tries := rest } } : State).bump 14 0 s.mgt.subDrop fun c s => { s with mgt := { s.mgt with subDrop := c } }

/-! ## TLS clients (R469, R470, R472, R477) -/

/-- The principal of a client key: the first table entry of its hash, else unknown. -/
def State.tlsPrincipal (s : State) (hash : Digest) : Nat :=
  let t := s.princTable
  match (List.range 32).find? fun n =>
      let e := princEntry t n
      u8 e 0 == 1 && u8 e 1 == 1 && digestAt e 0x10 == hash with
  | some n => n + 1
  | none => unknownPrincipal

/-- A certificate is valid by WALL_TIME; none is refused as not yet valid before WALL_SYNC has been set (R477). -/
def State.certOk (s : State) (notBefore notAfter : Nat) : Bool :=
  decide (s.wallTime ≤ notAfter) && (!s.mgt.wallEver || decide (notBefore ≤ s.wallTime))

/-- A TLS client connects, on a port that step 13 has not left down (R101). `closed` are the principals whose sessions have closed before it, `conns` the TCP connections open, and
`svc` whether it comes to the tray service address, which the Lead alone answers (R472, R473). -/
def execTlsConnect (port : Nat) (hash : Digest) (notBefore notAfter : Nat) (closed : List Nat) (conns : Nat) (svc : Bool) (s : State) :
    Host.Outcome State Fault Refusal :=
  s.servesDo fun s =>
    let s := { s.ingress with mgt := { s.mgt with tls := closed.foldl (fun l p => dropFirst (fun x => x == p) l) s.mgt.tls } }
    if s.mgt.portDown.getLsbD port || (svc && s.pair.st != .lead) || 64 ≤ conns || 32 ≤ s.mgt.tls.length then s
    else
      let prin := s.tlsPrincipal hash
      if prin ≠ unknownPrincipal ∧ s.certOk notBefore notAfter then
        ({ s with mgt := { s.mgt with tls := s.mgt.tls ++ [prin] } } : State).emit (.mgmt 472 (leBytes 4 prin))
      else if s.since (Tbl.find? s.mgt.lastTls prin) (secs 1) then
        ({ s with mgt := { s.mgt with lastTls := Tbl.set s.mgt.lastTls prin s.plinth } } : State).mgmtEvent port 1 prin hash
      else s

/-! ## Redfish (R474) -/

/-- The register at an address for an instance, whatever a path has selected. -/
def regFor (p : Path) (addr inst : Nat) : Option RegDef :=
  let blk := addr / 0x10000 % 16
  let off := addr % 0x10000 / 4 * 4
  (headRegs blk ++ (if inst < blockCount blk then instRegs p blk inst else []) ++
    (if (secondSel blk).any fun x => decide (inst < x.2) then secondRegs blk inst else []) ++ globRegs p blk).find? fun d =>
    decide (d.off ≤ off) && decide (off < d.off + 4 * d.words)

/-- The value of a register for a resource, its words lowest first. -/
def State.shows (s : State) (ref : Nat × Nat) : Bytes := match regFor .management ref.1 ref.2 with
  | some d => leBytes (4 * d.words) (if d.hidden then 0 else d.get s)
  | none => zeros 4

/-- An action by its register form: the write of the instance's register, the path's own selects left as they are. An instance that
does not exist completes FORMAT with no effect (R11). A register that
completes a command of its own gives its status; any other gives OK, or DENIED. -/
def State.redfishWrite (s : State) (r : Req) (addr inst v : Nat) : State :=
  if (regFor r.path addr inst).isNone then s.complete r 0x10 0 0 else
  let blk := addr / 0x10000 % 16
  let a := s.pb r.path blk
  let s := s.setPb r.path blk { a with sel := inst, sel2 := inst, stage := none }
  let bad := s.writeDenied r addr
  let s := s.writeReg r addr v
  let s := s.setPb r.path blk a
  if [0x31000, 0x50124, 0xC0108].contains addr then s else s.complete r (if bad then 0x37 else 0) 0 0

/-- APPLY_RECORD by the kind of its record (R132, R471). -/
def applyRecord (r : Req) (b : Bytes) : State → Host.Outcome State Fault Refusal := match u8 b 6 with
  | 1 => execRevokeKeys r b
  | 2 => execOptionUpdate r b
  | 3 => execKeyProvision r b
  | 4 => execRevminRestore r b
  | 5 => execDebugOpen r b
  | 6 => execPrincipalSet r b
  | _ => execControlRecordRefused r b

/-- An Armature command by its OPCODE (R449). -/
def armCommand (r : Req) (e : Bytes) (src : Bytes) : State → Host.Outcome State Fault Refusal := match u16 e 0 with
  | 0x001 => execHelloSession r e
  | 0x101 => execInstallFw r e (some src)
  | 0x102 => execCommitFw r
  | 0x103 => execUpdatePlaster r e (some src)
  | 0x104 => execStoreSiteImage r e (some src)
  | 0x105 => execPushSite r (u8 e 0x10)
  | 0x106 => execActivateSite r (u8 e 0x10)
  | 0x107 => applyRecord r src
  | 0x108 => execVersionReport r e
  | 0x201 => execChiselFreeze r e
  | 0x202 => execChiselThaw r e
  | 0x203 => execChiselReset r e
  | 0x204 => execChiselExport r e
  | 0x205 => execChiselImport r e (some src)
  | 0x301 => execArmRun r e (some src)
  | 0x302 => execLaunchRun r e
  | 0x303 => execDisarmRun r e
  | 0x304 => execCloseRun r e
  | 0x305 => execPromoteManager r
  | 0x401 => execHandoverLead r
  | 0x402 => execTakeLead r
  | 0x403 => execHoldSet r (u8 e 0x10)
  | _ => fun s => s.fwDo fun s => s.complete r 0x10 0 0

/-- An OPCODE that its queue does not have. -/
def noCommand (r : Req) : State → Host.Outcome State Fault Refusal := fun s => s.coreDo fun s => s.complete r 0x10 0 0

/-- A Maquette command (R79). -/
def maqCommand (r : Req) (e src : Bytes) : State → Host.Outcome State Fault Refusal := match u16 e 0 with
  | 1 => execMaqStore r e (some src)
  | 2 => execMaqSwitch r e
  | 3 => execMaqCancel r e
  | 4 => execMaqVerify r e
  | 5 => execMaqSetMinVersion r e
  | _ => execMaqUnknown r e

/-- A Caliper command (R395). -/
def calCommand (r : Req) (e src : Bytes) : State → Host.Outcome State Fault Refusal := match u16 e 0 with
  | 1 => execCheckDesc r e [(u64 e 8, src)]
  | 2 => execComputeDesc r e [(u64 e 8, src)]
  | _ => noCommand r

/-- A Gauge command (R395). -/
def gaugeCommand (r : Req) (e src : Bytes) : State → Host.Outcome State Fault Refusal := match u16 e 0 with
  | 0x10 => execGaugeLoad r e (some src)
  | 0x11 => execGaugeInvoke r e
  | 0x12 => execGaugeUnload r e
  | _ => noCommand r

/-- A Journal command (R413). -/
def jrnCommand (r : Req) (e : Bytes) : State → Host.Outcome State Fault Refusal := match u16 e 0 with
  | 1 => execExportManifest r e
  | 2 => execExportSeq r e
  | 3 => execExportLog r e
  | _ => noCommand r

/-- A Digest command (R413). -/
def digestCommand (r : Req) (e src : Bytes) : State → Host.Outcome State Fault Refusal := match u16 e 0 with
  | 1 => execHashRange r e (some src)
  | 2 => execSpotCheck r e
  | _ => noCommand r

/-- A Mover command (R452). -/
def movCommand (r : Req) (e : Bytes) : State → Host.Outcome State Fault Refusal := match u16 e 0 with
  | 1 => execCopyMem r e
  | 2 => execFillMem r e
  | 3 => execFlashRead r e
  | _ => noCommand r

/-- An entry's command by its queue and OPCODE (R79, R395, R413, R449, R452). -/
def queueCommand (r : Req) (q : Nat) (e src : Bytes) : State → Host.Outcome State Fault Refusal := match q with
  | 0 => maqCommand r e src
  | 1 => calCommand r e src
  | 2 => gaugeCommand r e src
  | 3 => jrnCommand r e
  | 4 => digestCommand r e src
  | 5 => movCommand r e
  | 6 => movCommand r e
  | 7 => armCommand r e src
  | _ => noCommand r

/-- A status that the manual does not state: a free value. -/
def State.openStatus (s : State) (r : Req) : State :=
  ({ s with fresh := s.fresh + 1 } : State).complete r (Config.freeVal s.fresh % 256) 0 0

/-- A subscription of a principal with READ, at most 16 of them (R475). -/
def State.subscribe (s : State) (r : Req) : State :=
  if s.mgt.subs.length < 16 then ({ s with mgt := { s.mgt with subs := s.mgt.subs ++ [r.principal] } } : State).complete r 0 0 0
  else s.openStatus r

/-- A Redfish request over a client's session: reads and subscriptions need READ, actions what their commands need (R474). -/
def execRedfishRequest (r : Req) (q : Redfish) (s : State) : Host.Outcome State Fault Refusal :=
  s.servesDo fun s =>
    if !s.mgt.tls.contains r.principal then s
    else
      let r : Req := { r with path := .management, queue := none }
      let s := s.ingress
      match q with
      | .get _ refs => s.withRight r .read fun s => (s.emit (.mgmt 474 (refs.flatMap s.shows))).complete r 0 0 0
      | .write addr inst value => s.redfishWrite r addr inst value
      | .entry queue e src => nextOr s (queueCommand r queue e src s)
      | .subscribe => s.withRight r .read fun s => s.subscribe r
      | .unsubscribe => s.withRight r .read fun s =>
        ({ s with mgt := { s.mgt with subs := dropFirst (fun x => x == r.principal) s.mgt.subs } } : State).complete r 0 0 0

/-! ## Telemetry streams (R476) -/

/-- A stream's samples: the word at each register address, by the Armature path's selects. -/
def State.samples (s : State) (x : Stream) : Bytes :=
  ((List.range 64).filter fun k => Tbl.get 0 x.refs k != 0).flatMap fun k =>
    let addr := Tbl.get 0 x.refs k % 0x100000
    match s.regAt .armature (addr / 0x10000) (addr % 0x10000 / 4 * 4) with
    | some d => leBytes 4 ((d.latch s)[(addr % 0x10000 - d.off) / 4]?.getD 0).toNat
    | none => zeros 4

/-- A stream's period: its samples go out, or are skipped and counted where the destination cannot keep it (R476). -/
def execTelemetryStreamPeriod (k : Nat) (kept : Bool) (s : State) : Host.Outcome State Fault Refusal :=
  s.servesDo fun s =>
    let x := s.stream k
    if s.boot.slot = 2 ∨ !x.cfg.getLsbD 0 ∨ !(x.owner.any fun p => s.may p .read) then s
    else if !kept then
      s.bump 14 k x.skip fun c s => { s with mgt := { s.mgt with streams := Tbl.set s.mgt.streams k { s.stream k with skip := c } } }
    else if x.cfg.getLsbD 1 then s.post false .armature (s.portFor (x.dest / 2 ^ 52)) x.dest (s.samples x)
    else s.emit (.mgmt 476 (leBytes 1 x.dest ++ s.samples x))

/-! ## Wall time (R477) -/

/-- An IEEE 1588 message in the domain of PTP_DOMAIN: `within` is whether WALL_TIME then stands within 10 µs of the grandmaster. -/
def execPtpMessage (port domain time : Nat) (within : Bool) (s : State) : Host.Outcome State Fault Refusal :=
  s.fwDo fun s =>
    if domain ≠ s.mgt.ptpDomain then s
    else if within then
      let was := s.mgt.wallSync
      let s := { s with mgt := { s.mgt with wallBase := time % 2 ^ 64, wallAt := s.plinth, wallSync := true, wallEver := true } }
      if was then s else s.mgmtEvent port 5 0 0
    else if s.mgt.wallSync then ({ s with mgt := { s.mgt with wallSync := false } } : State).mgmtEvent port 4 0 0
    else s

end Sys2Proof.Machine
end

