-- ==== Sys2Proof/Machine/Dispatch.lean ====
section
/-!
DEFINITION. Machine/Dispatch.lean: the meaning of each command, one arm per constructor.
-/
namespace Sys2Proof.Machine

def exec (i : Instr) (s : State) : Host.Outcome State Fault Refusal :=
  match i with
  | .powerOn => Sys2Proof.Machine.execPowerOn s
  | .standbyOn => Sys2Proof.Machine.execStandbyOn s
  | .standbyOff => Sys2Proof.Machine.execStandbyOff s
  | .inputGood profile bay mgmt recovery supply => Sys2Proof.Machine.execInputGood profile bay mgmt recovery supply s
  | .inputUndervoltageReset => Sys2Proof.Machine.execInputUndervoltageReset s
  | .plinthSupervisorReset parity => Sys2Proof.Machine.execPlinthSupervisorReset parity s
  | .armatureWatchdogExpiry => Sys2Proof.Machine.execArmatureWatchdogExpiry s
  | .swResetModule r key => Sys2Proof.Machine.execSwResetModule r key s
  | .swResetCoreDie r key => Sys2Proof.Machine.execSwResetCoreDie r key s
  | .swResetCaliper r key => Sys2Proof.Machine.execSwResetCaliper r key s
  | .swResetArmature r key => Sys2Proof.Machine.execSwResetArmature r key s
  | .swResetRefused r value => Sys2Proof.Machine.execSwResetRefused r value s
  | .debugAuthorisedReset kind => Sys2Proof.Machine.execDebugAuthorisedReset kind s
  | .recoveryReqHold => Sys2Proof.Machine.execRecoveryReqHold s
  | .tjResetRelease => Sys2Proof.Machine.execTjResetRelease s
  | .standbyDiesUp accelOk => Sys2Proof.Machine.execStandbyDiesUp accelOk s
  | .maquetteStartLoad => Sys2Proof.Machine.execMaquetteStartLoad s
  | .coreDomainUp ok => Sys2Proof.Machine.execCoreDomainUp ok s
  | .dieIdentityCheck ids => Sys2Proof.Machine.execDieIdentityCheck ids s
  | .armatureLockstepCheck failed => Sys2Proof.Machine.execArmatureLockstepCheck failed s
  | .imageSlotChoice => Sys2Proof.Machine.execImageSlotChoice s
  | .quarantineRelease => Sys2Proof.Machine.execQuarantineRelease s
  | .romServicePlasterImage image => Sys2Proof.Machine.execRomServicePlasterImage image s
  | .startStepTimeout step => Sys2Proof.Machine.execStartStepTimeout step s
  | .startStepRetryTimer step ok => Sys2Proof.Machine.execStartStepRetryTimer step ok s
  | .ledgerFlashMirror step => Sys2Proof.Machine.execLedgerFlashMirror step s
  | .dimmTrainingDone ch ok answers mrdimm rate capGB serial => Sys2Proof.Machine.execDimmTrainingDone ch ok answers mrdimm rate capGB serial s
  | .journalRecovery => Sys2Proof.Machine.execJournalRecovery s
  | .caliperSelfTest failing => Sys2Proof.Machine.execCaliperSelfTest failing s
  | .siteImageDigestCheck => Sys2Proof.Machine.execSiteImageDigestCheck s
  | .fullServiceReported => Sys2Proof.Machine.execFullServiceReported s
  | .deferredBlockCheck block data => Sys2Proof.Machine.execDeferredBlockCheck block data s
  | .commitDwellExpiry => Sys2Proof.Machine.execCommitDwellExpiry s
  | .debugNonceRead p prin => Sys2Proof.Machine.execDebugNonceRead p prin s
  | .identityKeysReady => Sys2Proof.Machine.execIdentityKeysReady s
  | .maqStore r e src => Sys2Proof.Machine.execMaqStore r e src s
  | .maqSwitch r e => Sys2Proof.Machine.execMaqSwitch r e s
  | .maqCancel r e => Sys2Proof.Machine.execMaqCancel r e s
  | .maqVerify r e => Sys2Proof.Machine.execMaqVerify r e s
  | .maqSetMinVersion r e => Sys2Proof.Machine.execMaqSetMinVersion r e s
  | .maqVerifyComplete flashOk => Sys2Proof.Machine.execMaqVerifyComplete flashOk s
  | .maqStagedCommit => Sys2Proof.Machine.execMaqStagedCommit s
  | .profilePinsStable pins => Sys2Proof.Machine.execProfilePinsStable pins s
  | .installFw r e src => Sys2Proof.Machine.execInstallFw r e src s
  | .commitFw r => Sys2Proof.Machine.execCommitFw r s
  | .updatePlaster r e src => Sys2Proof.Machine.execUpdatePlaster r e src s
  | .storeSiteImage r e src => Sys2Proof.Machine.execStoreSiteImage r e src s
  | .pushSite r site => Sys2Proof.Machine.execPushSite r site s
  | .sitePushDone site readback => Sys2Proof.Machine.execSitePushDone site readback s
  | .activateSite r site => Sys2Proof.Machine.execActivateSite r site s
  | .versionReport r e => Sys2Proof.Machine.execVersionReport r e s
  | .helloSession r e => Sys2Proof.Machine.execHelloSession r e s
  | .revokeKeys r rec => Sys2Proof.Machine.execRevokeKeys r rec s
  | .optionUpdate r rec => Sys2Proof.Machine.execOptionUpdate r rec s
  | .keyProvision r rec => Sys2Proof.Machine.execKeyProvision r rec s
  | .revminRestore r rec => Sys2Proof.Machine.execRevminRestore r rec s
  | .debugOpen r rec => Sys2Proof.Machine.execDebugOpen r rec s
  | .principalSet r rec => Sys2Proof.Machine.execPrincipalSet r rec s
  | .controlRecordRefused r rec => Sys2Proof.Machine.execControlRecordRefused r rec s
  | .plasterImageReceived image => Sys2Proof.Machine.execPlasterImageReceived image s
  | .spdmGetVersion req => Sys2Proof.Machine.execSpdmGetVersion req s
  | .spdmGetCapabilities req => Sys2Proof.Machine.execSpdmGetCapabilities req s
  | .spdmNegotiateAlgorithms req => Sys2Proof.Machine.execSpdmNegotiateAlgorithms req s
  | .spdmGetDigests req => Sys2Proof.Machine.execSpdmGetDigests req s
  | .spdmGetCertificate req => Sys2Proof.Machine.execSpdmGetCertificate req s
  | .spdmChallenge req => Sys2Proof.Machine.execSpdmChallenge req s
  | .spdmGetMeasurements req => Sys2Proof.Machine.execSpdmGetMeasurements req s
  | .clockGrant clk => Sys2Proof.Machine.execClockGrant clk s
  | .clockGrantTimeout clk die => Sys2Proof.Machine.execClockGrantTimeout clk die s
  | .clockIdleExpiry clk => Sys2Proof.Machine.execClockIdleExpiry clk s
  | .rcOscStopExpiry => Sys2Proof.Machine.execRcOscStopExpiry s
  | .lockstepMismatch pair => Sys2Proof.Machine.execLockstepMismatch pair s
  | .siteUp r site => Sys2Proof.Machine.execSiteUp r site s
  | .siteDown r site => Sys2Proof.Machine.execSiteDown r site s
  | .siteClear r site => Sys2Proof.Machine.execSiteClear r site s
  | .siteAdopt r site => Sys2Proof.Machine.execSiteAdopt r site s
  | .siteIdentify r site => Sys2Proof.Machine.execSiteIdentify r site s
  | .siteCmdInvalid r site code => Sys2Proof.Machine.execSiteCmdInvalid r site code s
  | .sitePresentAsserted site => Sys2Proof.Machine.execSitePresentAsserted site s
  | .siteSettleExpiry site => Sys2Proof.Machine.execSiteSettleExpiry site s
  | .siteIdentityRead site rom => Sys2Proof.Machine.execSiteIdentityRead site rom s
  | .siteIdromRereadTimer site rom => Sys2Proof.Machine.execSiteIdromRereadTimer site rom s
  | .sitePresenceLost site => Sys2Proof.Machine.execSitePresenceLost site s
  | .siteRetryWaitExpiry site => Sys2Proof.Machine.execSiteRetryWaitExpiry site s
  | .siteAdoption site rom good off latched ep digest version => Sys2Proof.Machine.execSiteAdoption site rom good off latched ep digest version s
  | .railUpDelayExpiry rail => Sys2Proof.Machine.execRailUpDelayExpiry rail s
  | .railPgChange rail level => Sys2Proof.Machine.execRailPgChange rail level s
  | .railQualifyExpiry rail => Sys2Proof.Machine.execRailQualifyExpiry rail s
  | .railRiseTimeout rail => Sys2Proof.Machine.execRailRiseTimeout rail s
  | .railPgLossTimer rail => Sys2Proof.Machine.execRailPgLossTimer rail s
  | .railDownDelayExpiry rail => Sys2Proof.Machine.execRailDownDelayExpiry rail s
  | .railFallTimeout rail => Sys2Proof.Machine.execRailFallTimeout rail s
  | .railBackoffExpiry rail => Sys2Proof.Machine.execRailBackoffExpiry rail s
  | .railRetryCountReset rail => Sys2Proof.Machine.execRailRetryCountReset rail s
  | .pmbusWriteDone rail ok => Sys2Proof.Machine.execPmbusWriteDone rail ok s
  | .pmbusPgPoll rail status => Sys2Proof.Machine.execPmbusPgPoll rail status s
  | .trayResetWidthExpiry => Sys2Proof.Machine.execTrayResetWidthExpiry s
  | .moduleGroupResequence group => Sys2Proof.Machine.execModuleGroupResequence group s
  | .wardenBrownout w => Sys2Proof.Machine.execWardenBrownout w s
  | .wardenSupervisorReset w => Sys2Proof.Machine.execWardenSupervisorReset w s
  | .wardenReload w => Sys2Proof.Machine.execWardenReload w s
  | .surveySample die slot x => Sys2Proof.Machine.execSurveySample die slot x s
  | .surveySlowScanTimer die => Sys2Proof.Machine.execSurveySlowScanTimer die s
  | .surveyStaleTimeout ch => Sys2Proof.Machine.execSurveyStaleTimeout ch s
  | .surveyBusTimeout die => Sys2Proof.Machine.execSurveyBusTimeout die s
  | .railCntClr r rail mask => Sys2Proof.Machine.execRailCntClr r rail mask s
  | .logPageProgramDone => Sys2Proof.Machine.execLogPageProgramDone s
  | .logSectorEraseDone => Sys2Proof.Machine.execLogSectorEraseDone s
  | .logDeviceTimeout dev => Sys2Proof.Machine.execLogDeviceTimeout dev s
  | .logRingRecoveryDone => Sys2Proof.Machine.execLogRingRecoveryDone s
  | .logReadFromWrite p prin value => Sys2Proof.Machine.execLogReadFromWrite p prin value s
  | .logReadAdvance p => Sys2Proof.Machine.execLogReadAdvance p s
  | .snapshotPeriodicTimer => Sys2Proof.Machine.execSnapshotPeriodicTimer s
  | .snapshotTrailerWritten => Sys2Proof.Machine.execSnapshotTrailerWritten s
  | .snapshotBankEraseDone bank => Sys2Proof.Machine.execSnapshotBankEraseDone bank s
  | .holdupBegin busV => Sys2Proof.Machine.execHoldupBegin busV s
  | .holdupEnd => Sys2Proof.Machine.execHoldupEnd s
  | .journalFlushDescriptorDone complete => Sys2Proof.Machine.execJournalFlushDescriptorDone complete s
  | .meteringIntervalEnd bus => Sys2Proof.Machine.execMeteringIntervalEnd bus s
  | .powerWindow1msEnd => Sys2Proof.Machine.execPowerWindow1msEnd s
  | .powerWindow1sEnd => Sys2Proof.Machine.execPowerWindow1sEnd s
  | .telemetryRecord port src rec => Sys2Proof.Machine.execTelemetryRecord port src rec s
  | .wardenTelemetryPoll site rec => Sys2Proof.Machine.execWardenTelemetryPoll site rec s
  | .telemetryStaleTimeout site => Sys2Proof.Machine.execTelemetryStaleTimeout site s
  | .jobMark src rec => Sys2Proof.Machine.execJobMark src rec s
  | .jobRelease r job => Sys2Proof.Machine.execJobRelease r job s
  | .trayBudgetWrite r value => Sys2Proof.Machine.execTrayBudgetWrite r value s
  | .capSwBoundWrite r site which value => Sys2Proof.Machine.execCapSwBoundWrite r site which value s
  | .capDivision => Sys2Proof.Machine.execCapDivision s
  | .capGuardWindow site => Sys2Proof.Machine.execCapGuardWindow site s
  | .siteThrottleForceWrite r site level => Sys2Proof.Machine.execSiteThrottleForceWrite r site level s
  | .siteVout r site rail code => Sys2Proof.Machine.execSiteVout r site rail code s
  | .peakClr r inst => Sys2Proof.Machine.execPeakClr r inst s
  | .reliefVoltageCrossing busV => Sys2Proof.Machine.execReliefVoltageCrossing busV s
  | .reliefCurrentCrossing busI => Sys2Proof.Machine.execReliefCurrentCrossing busI s
  | .reliefStage2 busV busI => Sys2Proof.Machine.execReliefStage2 busV busI s
  | .reliefReleaseCondition bus => Sys2Proof.Machine.execReliefReleaseCondition bus s
  | .reliefReleaseStepExpiry => Sys2Proof.Machine.execReliefReleaseStepExpiry s
  | .patinaSecond => Sys2Proof.Machine.execPatinaSecond s
  | .patinaRecordWrite => Sys2Proof.Machine.execPatinaRecordWrite s
  | .holdWindowExpiry => Sys2Proof.Machine.execHoldWindowExpiry s
  | .chiselInterval => Sys2Proof.Machine.execChiselInterval s
  | .chiselStaleFallbackExpiry site => Sys2Proof.Machine.execChiselStaleFallbackExpiry site s
  | .chiselSwBoundWrite r site dom ceil value => Sys2Proof.Machine.execChiselSwBoundWrite r site dom ceil value s
  | .chiselFreeze r e => Sys2Proof.Machine.execChiselFreeze r e s
  | .chiselThaw r e => Sys2Proof.Machine.execChiselThaw r e s
  | .chiselReset r e => Sys2Proof.Machine.execChiselReset r e s
  | .chiselExport r e => Sys2Proof.Machine.execChiselExport r e s
  | .chiselImport r e src => Sys2Proof.Machine.execChiselImport r e src s
  | .chiselCheckpoint => Sys2Proof.Machine.execChiselCheckpoint s
  | .coolingTick tach => Sys2Proof.Machine.execCoolingTick tach s
  | .fanStartTimeout fan => Sys2Proof.Machine.execFanStartTimeout fan s
  | .fanStallTimerExpiry fan => Sys2Proof.Machine.execFanStallTimerExpiry fan s
  | .fanSeizedTimerExpiry fan => Sys2Proof.Machine.execFanSeizedTimerExpiry fan s
  | .fanTargetWrite r fan value => Sys2Proof.Machine.execFanTargetWrite r fan value s
  | .fanClear r fan => Sys2Proof.Machine.execFanClear r fan s
  | .coolWdtRefresh r => Sys2Proof.Machine.execCoolWdtRefresh r s
  | .coolWdtExpiry => Sys2Proof.Machine.execCoolWdtExpiry s
  | .valveCmdWrite r valve cmd => Sys2Proof.Machine.execValveCmdWrite r valve cmd s
  | .valveTravelTimeout valve => Sys2Proof.Machine.execValveTravelTimeout valve s
  | .valvePosChange valve level => Sys2Proof.Machine.execValvePosChange valve level s
  | .valveUncommandedTimer valve => Sys2Proof.Machine.execValveUncommandedTimer valve s
  | .flowRateUpdate meter pulses => Sys2Proof.Machine.execFlowRateUpdate meter pulses s
  | .flowLossTimeExpiry meter => Sys2Proof.Machine.execFlowLossTimeExpiry meter s
  | .coolantLossEndTimer sensor => Sys2Proof.Machine.execCoolantLossEndTimer sensor s
  | .zoneSensorExclusion zone slot => Sys2Proof.Machine.execZoneSensorExclusion zone slot s
  | .zoneSensorReadmission zone slot => Sys2Proof.Machine.execZoneSensorReadmission zone slot s
  | .zoneColdLieCheck zone => Sys2Proof.Machine.execZoneColdLieCheck zone s
  | .zoneGuardExitTimer zone => Sys2Proof.Machine.execZoneGuardExitTimer zone s
  | .zoneClear r zone => Sys2Proof.Machine.execZoneClear r zone s
  | .leakRopeReading rope senseR loopR => Sys2Proof.Machine.execLeakRopeReading rope senseR loopR s
  | .leakPointSample sensor a b => Sys2Proof.Machine.execLeakPointSample sensor a b s
  | .leakClear r zone => Sys2Proof.Machine.execLeakClear r zone s
  | .accelSample x y z => Sys2Proof.Machine.execAccelSample x y z s
  | .shakeNoteEpisodeEnd => Sys2Proof.Machine.execShakeNoteEpisodeEnd s
  | .braceRequest r => Sys2Proof.Machine.execBraceRequest r s
  | .braceHoldExpiry => Sys2Proof.Machine.execBraceHoldExpiry s
  | .shakePeakClr r => Sys2Proof.Machine.execShakePeakClr r s
  | .accelSelfTest ok => Sys2Proof.Machine.execAccelSelfTest ok s
  | .accelNoAnswer => Sys2Proof.Machine.execAccelNoAnswer s
  | .tjSample readings => Sys2Proof.Machine.execTjSample readings s
  | .tjStopReleaseTimer => Sys2Proof.Machine.execTjStopReleaseTimer s
  | .countFrameTransmit => Sys2Proof.Machine.execCountFrameTransmit s
  | .countFrame p => Sys2Proof.Machine.execCountFrame p s
  | .syncCalPeriod line => Sys2Proof.Machine.execSyncCalPeriod line s
  | .calFrame p turn => Sys2Proof.Machine.execCalFrame p turn s
  | .echoFrame line p rtt => Sys2Proof.Machine.execEchoFrame line p rtt s
  | .delayFrame p => Sys2Proof.Machine.execDelayFrame p s
  | .syncFrameDiscard line => Sys2Proof.Machine.execSyncFrameDiscard line s
  | .pointingFrameLoss => Sys2Proof.Machine.execPointingFrameLoss s
  | .holdoverLimitExpiry => Sys2Proof.Machine.execHoldoverLimitExpiry s
  | .pointingSaveTimer => Sys2Proof.Machine.execPointingSaveTimer s
  | .managerEchoWaitExpiry => Sys2Proof.Machine.execManagerEchoWaitExpiry s
  | .armRun r e src => Sys2Proof.Machine.execArmRun r e src s
  | .launchRun r e => Sys2Proof.Machine.execLaunchRun r e s
  | .disarmRun r e => Sys2Proof.Machine.execDisarmRun r e s
  | .closeRun r e => Sys2Proof.Machine.execCloseRun r e s
  | .promoteManager r => Sys2Proof.Machine.execPromoteManager r s
  | .armEntryExpiry run => Sys2Proof.Machine.execArmEntryExpiry run s
  | .launchFrame p => Sys2Proof.Machine.execLaunchFrame p s
  | .ackFrame line p => Sys2Proof.Machine.execAckFrame line p s
  | .goFrame p => Sys2Proof.Machine.execGoFrame p s
  | .abortFrame p => Sys2Proof.Machine.execAbortFrame p s
  | .resultFrame line p => Sys2Proof.Machine.execResultFrame line p s
  | .launchDeadline run => Sys2Proof.Machine.execLaunchDeadline run s
  | .launchCountReached run => Sys2Proof.Machine.execLaunchCountReached run s
  | .choiceRecord src rec => Sys2Proof.Machine.execChoiceRecord src rec s
  | .siteDumapReport site map => Sys2Proof.Machine.execSiteDumapReport site map s
  | .auditOffer port src rec => Sys2Proof.Machine.execAuditOffer port src rec s
  | .caliperFirstComputeDone check tile fetched => Sys2Proof.Machine.execCaliperFirstComputeDone check tile fetched s
  | .caliperRecomputeDone check tile fetched => Sys2Proof.Machine.execCaliperRecomputeDone check tile fetched s
  | .caliperFetchTimeout job => Sys2Proof.Machine.execCaliperFetchTimeout job s
  | .caliperOfferRetainExpiry check => Sys2Proof.Machine.execCaliperOfferRetainExpiry check s
  | .runTableIdleExpiry run => Sys2Proof.Machine.execRunTableIdleExpiry run s
  | .checkDesc r e fetched => Sys2Proof.Machine.execCheckDesc r e fetched s
  | .computeDesc r e fetched => Sys2Proof.Machine.execComputeDesc r e fetched s
  | .gaugeLoad r e src => Sys2Proof.Machine.execGaugeLoad r e src s
  | .gaugeInvoke r e => Sys2Proof.Machine.execGaugeInvoke r e s
  | .gaugeUnload r e => Sys2Proof.Machine.execGaugeUnload r e s
  | .gaugeInvocation slot => Sys2Proof.Machine.execGaugeInvocation slot s
  | .gaugeInvocationDone slot => Sys2Proof.Machine.execGaugeInvocationDone slot s
  | .calAuditRateWrite r site value => Sys2Proof.Machine.execCalAuditRateWrite r site value s
  | .calAuditKeyWrite r key => Sys2Proof.Machine.execCalAuditKeyWrite r key s
  | .calCovClr r site => Sys2Proof.Machine.execCalCovClr r site s
  | .calDisFromWrite p prin value => Sys2Proof.Machine.execCalDisFromWrite p prin value s
  | .calDisRecAdvance p => Sys2Proof.Machine.execCalDisRecAdvance p s
  | .emissionRecord port src rec => Sys2Proof.Machine.execEmissionRecord port src rec s
  | .bindInput port src rec => Sys2Proof.Machine.execBindInput port src rec s
  | .bindWeights port src rec => Sys2Proof.Machine.execBindWeights port src rec s
  | .jrnGapWaitExpiry seq => Sys2Proof.Machine.execJrnGapWaitExpiry seq s
  | .jrnSeqIdleExpiry seq => Sys2Proof.Machine.execJrnSeqIdleExpiry seq s
  | .spotCheckDone site run list chunks => Sys2Proof.Machine.execSpotCheckDone site run list chunks s
  | .jrnSealWaitExpiry run => Sys2Proof.Machine.execJrnSealWaitExpiry run s
  | .manifestSigned run ok => Sys2Proof.Machine.execManifestSigned run ok s
  | .exportManifest r e => Sys2Proof.Machine.execExportManifest r e s
  | .exportSeq r e => Sys2Proof.Machine.execExportSeq r e s
  | .exportLog r e => Sys2Proof.Machine.execExportLog r e s
  | .hashRange r e src => Sys2Proof.Machine.execHashRange r e src s
  | .spotCheck r e => Sys2Proof.Machine.execSpotCheck r e s
  | .memRemove r ch => Sys2Proof.Machine.execMemRemove r ch s
  | .memReturn r ch answers => Sys2Proof.Machine.execMemReturn r ch answers s
  | .memFillDone ch => Sys2Proof.Machine.execMemFillDone ch s
  | .memReadErrorDetected ch addr owner unit recovered => Sys2Proof.Machine.execMemReadErrorDetected ch addr owner unit recovered s
  | .memSpdSilentTimeout ch => Sys2Proof.Machine.execMemSpdSilentTimeout ch s
  | .memScrubBurst ch errs => Sys2Proof.Machine.execMemScrubBurst ch errs s
  | .sramParityError die region unit => Sys2Proof.Machine.execSramParityError die region unit s
  | .doorbellSqTail r q value => Sys2Proof.Machine.execDoorbellSqTail r q value s
  | .queueSizeWrite r q cq value => Sys2Proof.Machine.execQueueSizeWrite r q cq value s
  | .cqHeadWrite r q value => Sys2Proof.Machine.execCqHeadWrite r q value s
  | .engineEntryTake q => Sys2Proof.Machine.execEngineEntryTake q s
  | .copyMem r e => Sys2Proof.Machine.execCopyMem r e s
  | .fillMem r e => Sys2Proof.Machine.execFillMem r e s
  | .flashRead r e => Sys2Proof.Machine.execFlashRead r e s
  | .moverSegmentDone remote => Sys2Proof.Machine.execMoverSegmentDone remote s
  | .readReq port p => Sys2Proof.Machine.execReadReq port p s
  | .writeReq port p => Sys2Proof.Machine.execWriteReq port p s
  | .readResp port p => Sys2Proof.Machine.execReadResp port p s
  | .writeAck port p => Sys2Proof.Machine.execWriteAck port p s
  | .errorResp port p => Sys2Proof.Machine.execErrorResp port p s
  | .postedWrite port p => Sys2Proof.Machine.execPostedWrite port p s
  | .messageInvalid port p => Sys2Proof.Machine.execMessageInvalid port p s
  | .messageCoalesced port p => Sys2Proof.Machine.execMessageCoalesced port p s
  | .creditPacket port p => Sys2Proof.Machine.execCreditPacket port p s
  | .linkPacket port ep => Sys2Proof.Machine.execLinkPacket port ep s
  | .ebxPacketDiscard port crcOk p => Sys2Proof.Machine.execEbxPacketDiscard port crcOk p s
  | .ebxCreditSend => Sys2Proof.Machine.execEbxCreditSend s
  | .ebxPortDown port dropped => Sys2Proof.Machine.execEbxPortDown port dropped s
  | .ebxPortRetrain port ok => Sys2Proof.Machine.execEbxPortRetrain port ok s
  | .ebxRequestTimeout tag => Sys2Proof.Machine.execEbxRequestTimeout tag s
  | .evtReadAdvance p => Sys2Proof.Machine.execEvtReadAdvance p s
  | .eventForward n fails => Sys2Proof.Machine.execEventForward n fails s
  | .eventPushRetry k ok => Sys2Proof.Machine.execEventPushRetry k ok s
  | .tlsConnect port hash notBefore notAfter closed conns svc => Sys2Proof.Machine.execTlsConnect port hash notBefore notAfter closed conns svc s
  | .redfishRequest r q => Sys2Proof.Machine.execRedfishRequest r q s
  | .telemetryStreamPeriod k kept => Sys2Proof.Machine.execTelemetryStreamPeriod k kept s
  | .ptpMessage port domain time within => Sys2Proof.Machine.execPtpMessage port domain time within s
  | .ownNHeartbeat contention => Sys2Proof.Machine.execOwnNHeartbeat contention s
  | .ownNReleaseObserved yield => Sys2Proof.Machine.execOwnNReleaseObserved yield s
  | .pairClaimDelayExpiry us => Sys2Proof.Machine.execPairClaimDelayExpiry us s
  | .pairOwnNIdleTimeout us => Sys2Proof.Machine.execPairOwnNIdleTimeout us s
  | .pairTakeoverHang us => Sys2Proof.Machine.execPairTakeoverHang us s
  | .pairTakeoverDrive => Sys2Proof.Machine.execPairTakeoverDrive s
  | .takeNAsserted => Sys2Proof.Machine.execTakeNAsserted s
  | .pairShadowFrame item => Sys2Proof.Machine.execPairShadowFrame item s
  | .pairSyncAgeTimeout => Sys2Proof.Machine.execPairSyncAgeTimeout s
  | .pairLinkChange lane up => Sys2Proof.Machine.execPairLinkChange lane up s
  | .handoverLead r => Sys2Proof.Machine.execHandoverLead r s
  | .takeLead r => Sys2Proof.Machine.execTakeLead r s
  | .holdSet r seconds => Sys2Proof.Machine.execHoldSet r seconds s
  | .ejectNAsserted => Sys2Proof.Machine.execEjectNAsserted s
  | .ejectLatchRelease => Sys2Proof.Machine.execEjectLatchRelease s
  | .selectWrite r addr value => Sys2Proof.Machine.execSelectWrite r addr value s
  | .snapshotLatchRead p prin addr => Sys2Proof.Machine.execSnapshotLatchRead p prin addr s
  | .multiwordLowerWrite r addr value => Sys2Proof.Machine.execMultiwordLowerWrite r addr value s
  | .multiwordCommitWrite r addr value => Sys2Proof.Machine.execMultiwordCommitWrite r addr value s
  | .registerReadRefused p prin addr => Sys2Proof.Machine.execRegisterReadRefused p prin addr s
  | .registerWrite r addr value => Sys2Proof.Machine.execRegisterWrite r addr value s
  | .wardenResetRelease w => Sys2Proof.Machine.execWardenResetRelease w s
  | .syncLineLinkUp line => Sys2Proof.Machine.execSyncLineLinkUp line s
  | .digestHashDone k => Sys2Proof.Machine.execDigestHashDone k s
  | .updateOperationDone flashOk => Sys2Proof.Machine.execUpdateOperationDone flashOk s
  | .strapStable strap value => Sys2Proof.Machine.execStrapStable strap value s

end Sys2Proof.Machine
end

