-- ==== Sys2Proof/Machine/Tick.lean ====
section
/-!
DEFINITION. Machine/Tick.lean: the idle step, one tick of the 32,768 Hz crystal (R12, R322, R332; log 1).
-/
namespace Sys2Proof.Machine

/-- The step of one cycle of the 1.25 GHz PLL, 0.8 ns, in units of 2^-44 ns (R322). -/
def nominalStep : Nat := 14073748835533

/-- Limit of the rate correction: 500 ppm of the step in LOCKING and 20 ppm in LOCKED (R332); in every other state nothing is steered. -/
def PtSt.rateLimit : PtSt → Option Int
  | .locking => some 7036874417
  | .locked => some 281474976
  | _ => none

/-- PLL cycles in one crystal tick, 38,146 and 249 / 256, and what is carried on of the last one. -/
def pllCycles (phase : Nat) : Nat × Nat := (38146 + (phase + 249) / 256, (phase + 249) % 256)

/-- What steering adds to the step through the next tick: what takes the error out in that tick, within the limit; frozen outside LOCKING
and LOCKED (R330, R332; DESIGN CHOICE, log 112: no rule gives a law within the limit). -/
def State.steering (s : State) : Int := match s.pnt.st.rateLimit with
  | some lim => clampI (-lim) lim ((s.pnt.slew * 2 ^ 38).tdiv (pllCycles s.pnt.phase).1)
  | none => s.pnt.steer

/-- The count after one tick: every cycle of it advances the count by the step as steered (R322). -/
def Pointing.advance (p : Pointing) (steer : Int) : Pointing :=
  let c := pllCycles p.phase
  let t := (64 * p.count + p.frac) * 2 ^ 38 + p.fine + c.1 * (nominalStep + steer).toNat
  { p with count := t / 2 ^ 44, frac := t / 2 ^ 38 % 64, fine := t % 2 ^ 38, phase := c.2, steer := steer
           slew := if p.st.rateLimit.isSome then p.slew - (steer * c.1 + 2 ^ 37) / 2 ^ 38 else p.slew }

/-- One crystal tick, which there is while the standby domain is powered (R33): Plinth time counts, and the Pointing count advances
while the core domain is powered. Every other effect of time is a command (log 1). -/
def State.tick (s : State) : Host.Outcome State Fault Refusal :=
  if !s.pwr.standby then .next s
  else if 2 ^ 48 ≤ s.plinth + 1 then .fault .productLifeEnded
  else if s.pwr.core then
    let p := s.pnt.advance s.steering
    if 2 ^ 64 ≤ p.count then .fault .productLifeEnded
    else .next { s with plinth := s.plinth + 1, pnt := p }
  else .next { s with plinth := s.plinth + 1 }

end Sys2Proof.Machine
end

