-- ==== Sys2Proof/Safety.lean ====
section
/-!
DEFINITION. Safety.lean: what a sound state of the controller is, and what it is for a command to complete and to leave the
rest of the state alone, in the terms the claims use.
-/
namespace Sys2Proof.Machine

/-- The parts of the state, one for each field of State. -/
inductive Part where
  | pending | fresh | plinth | pwr | rst | led | ob | pins | maq | boot | debug | seq | svy | rcnt | log | snap
  | mem | cap | rel | met | pat | pnt | haz | cool | chi | ckpt | cal | jrn | gimg | selfTest | ques | mov
  | ebx | evt | mgt | pair | acc | flash0 | flash1 | dram | out
  deriving DecidableEq, Repr

/-- Every part but the queue of commands and Plinth time, which no command changes. -/
def Part.others : List Part :=
  [.fresh, .pwr, .rst, .led, .ob, .pins, .maq, .boot, .debug, .seq, .svy, .rcnt, .log, .snap, .mem, .cap,
   .rel, .met, .pat, .pnt, .haz, .cool, .chi, .ckpt, .cal, .jrn, .gimg, .selfTest, .ques, .mov, .ebx, .evt,
   .mgt, .pair, .acc, .flash0, .flash1, .dram, .out]

/-- The part `p` is the same in two states. -/
def Part.same (p : Part) (s t : State) : Prop :=
  match p with
  | .pending => t.pending = s.pending
  | .fresh => t.fresh = s.fresh
  | .plinth => t.plinth = s.plinth
  | .pwr => t.pwr = s.pwr
  | .rst => t.rst = s.rst
  | .led => t.led = s.led
  | .ob => t.ob = s.ob
  | .pins => t.pins = s.pins
  | .maq => t.maq = s.maq
  | .boot => t.boot = s.boot
  | .debug => t.debug = s.debug
  | .seq => t.seq = s.seq
  | .svy => t.svy = s.svy
  | .rcnt => t.rcnt = s.rcnt
  | .log => t.log = s.log
  | .snap => t.snap = s.snap
  | .mem => t.mem = s.mem
  | .cap => t.cap = s.cap
  | .rel => t.rel = s.rel
  | .met => t.met = s.met
  | .pat => t.pat = s.pat
  | .pnt => t.pnt = s.pnt
  | .haz => t.haz = s.haz
  | .cool => t.cool = s.cool
  | .chi => t.chi = s.chi
  | .ckpt => t.ckpt = s.ckpt
  | .cal => t.cal = s.cal
  | .jrn => t.jrn = s.jrn
  | .gimg => t.gimg = s.gimg
  | .selfTest => t.selfTest = s.selfTest
  | .ques => t.ques = s.ques
  | .mov => t.mov = s.mov
  | .ebx => t.ebx = s.ebx
  | .evt => t.evt = s.evt
  | .mgt => t.mgt = s.mgt
  | .pair => t.pair = s.pair
  | .acc => t.acc = s.acc
  | .flash0 => t.flash0 = s.flash0
  | .flash1 => t.flash1 = s.flash1
  | .dram => t.dram = s.dram
  | .out => t.out = s.out

/-- `t` differs from `s` in no part but the listed ones. -/
def State.onlyChanges (ps : List Part) (s t : State) : Prop := ∀ p : Part, ps.contains p = false → p.same s t

/-- The command runs to its end in `s`: it answers a next state, of which `q` holds. -/
def Completes (c : Instr) (s : State) (q : State → Prop) : Prop := ∃ t : State, exec c s = .next t ∧ q t

/-- An Armature image runs: core and Armature domains powered, a released image (R101, R120). -/
def State.imageRuns (s : State) : Bool := s.pwr.core && s.pwr.armature && s.boot.run.isSome

/-- Armature firmware serves: an image runs and it is not Plaster (R104, R135). -/
def State.armServes (s : State) : Bool := s.imageRuns && decide (s.boot.slot ≠ 2)

/-- Full service: an image runs and start step 20 has ended (R488). -/
def State.inService (s : State) : Bool := s.imageRuns && s.stepEnded 20

/-- Firmware carries out a request that needs a right: it serves, the principal holds the right, and a queued request's
session states the running major version (R141, R450, R468). -/
def State.carriesOut (s : State) (r : Req) (x : Right) : Bool := s.armServes && s.may r.principal x && s.sessionOk r

/-- From `s` to `t` the request is answered on its path with a status, a DETAIL and a VALUE. -/
def State.answers (s t : State) (r : Req) (status detail value : Nat) : Prop :=
  ∃ later earlier : List Out, t.out = later ++ Out.status r status detail value :: (earlier ++ s.out)

/-- From `s` to `t` something goes out of the block. -/
def State.sends (s t : State) (o : Out) : Prop := ∃ later earlier : List Out, t.out = later ++ o :: (earlier ++ s.out)

/-- From `s` to `t` the cooling becomes that of `u`, which differs in channel `f`, and the channel's output follows where this controller
drives the tray (R274, R301). -/
def State.drives (s u : State) (f : Nat) (t : State) : Prop :=
  t.cool = u.cool ∧
  (s.pair.outputs = false ∨ s.fanUsed f = false ∨ s.fanDrive f = u.fanDrive f → t = u) ∧
  (f < 40 → s.pair.outputs = true → s.fanUsed f = true → s.fanDrive f ≠ u.fanDrive f →
    t = u.emit (.line 274 (2 ^ 32 * f + u.fanDrive f)))

/-- From `s` to `t` a restart of kind `k` with last-cause code `code` has begun: its sticky bit and the cause record, the
locks and the running image gone, and a new start (R86, R93 to R95, R105). -/
structure State.Restarted (s t : State) (code : Nat) (k : RKind) : Prop where
  cause : t.rst.rstCause = setBit s.rst.rstCause (code - 1) true
  under : t.rst.under = some k
  last : t.rst.bootLast = { code := BitVec.ofNat 8 code, time := BitVec.ofNat 48 s.plinth }
  lock : t.rst.locked = false
  watchdog : t.rst.wdtRunning = false
  image : t.boot.run = none
  start : t.led.startSeq = min 0xFFFFFFFF (s.led.startSeq + 1)
  kind : t.led.kind = k

/-- The three byte memories keep their canonical form. -/
def State.memOk (s : State) : Bool :=
  Memory.wf erased s.flash0 && Memory.wf erased s.flash1 && Memory.wf 0 s.dram

/-- A run of the block is safe over `k` steps: it meets no fault and no refusal. -/
def safeRun : Nat → State → Bool
  | 0, _ => true
  | k + 1, s => match step s with
    | .next t => safeRun k t
    | _ => false

end Sys2Proof.Machine
end

