-- ==== Sys2Proof/Machine/Writes.lean ====
section
/-!
DEFINITION. Machine/Writes.lean: the parts of the state that each command may change: the frame of its effect, read off its
meaning. A part that a row does not list is unchanged whatever the state.
-/
namespace Sys2Proof
open Machine (Part)

/-- The parts that a command may change. -/
def Instr.writes : Instr → List Part
  | .powerOn | .standbyOff => Part.others.filter fun p => !([.fresh, .flash0, .flash1, .out].contains p)
  | .standbyOn | .clockIdleExpiry .. | .surveySlowScanTimer .. => [.pwr]
  | .inputGood .. => [.pwr, .rst, .led, .ob, .pins, .maq, .seq, .svy, .log, .snap, .mem, .cap, .rel, .met, .pnt, .chi, .cal,
    .jrn, .ques, .ebx, .evt, .dram, .out]
  | .inputUndervoltageReset | .plinthSupervisorReset .. | .armatureWatchdogExpiry | .swResetModule .. | .swResetCoreDie .. |
    .swResetCaliper .. | .swResetArmature .. | .debugAuthorisedReset .. | .recoveryReqHold | .romServicePlasterImage .. |
    .revminRestore .. | .plasterImageReceived .. | .clockGrantTimeout .. | .lockstepMismatch .. | .snapshotTrailerWritten |
    .tjSample .. | .sramParityError .. | .writeReq .. | .ownNHeartbeat .. | .pairTakeoverDrive | .takeNAsserted |
    .pairShadowFrame .. | .selectWrite .. | .multiwordLowerWrite .. | .multiwordCommitWrite .. | .registerWrite .. |
    .strapStable .. => Part.others.filter fun p => !([.fresh].contains p)
  | .swResetRefused .. | .ptpMessage .. => [.log, .evt, .mgt]
  | .tjResetRelease => [.pwr, .rst, .led, .seq, .log, .mem, .cap, .met, .pnt, .haz, .chi, .cal, .jrn, .ques, .ebx, .evt,
    .dram, .out]
  | .standbyDiesUp .. => [.pwr, .rst, .led, .maq, .seq, .rcnt, .log, .snap, .mem, .cap, .met, .pnt, .haz, .chi, .cal, .jrn,
    .ques, .ebx, .evt, .dram, .out]
  | .maquetteStartLoad => [.pwr, .led, .maq, .seq, .svy, .log, .mem, .cap, .met, .pnt, .haz, .cool, .chi, .cal, .jrn, .gimg,
    .ques, .ebx, .evt, .pair, .dram, .out]
  | .coreDomainUp .. | .armatureLockstepCheck .. => [.pwr, .rst, .led, .seq, .log, .mem, .cap, .met, .pnt, .chi, .cal, .jrn,
    .ques, .ebx, .evt, .dram, .out]
  | .dieIdentityCheck .. => [.pwr, .led, .seq, .svy, .log, .mem, .cap, .met, .pnt, .chi, .cal, .jrn, .ques, .ebx, .evt,
    .pair, .dram, .out]
  | .imageSlotChoice => [.rst, .led, .boot, .evt, .flash0, .flash1]
  | .quarantineRelease => [.pwr, .rst, .led, .boot, .seq, .log, .mem, .cap, .met, .pnt, .chi, .cal, .jrn, .ques, .ebx, .evt,
    .dram, .out]
  | .startStepTimeout .. => Part.others.filter fun p => !([.pins, .debug, .rcnt, .snap, .rel, .pat, .selfTest, .mov].contains
    p)
  | .startStepRetryTimer .. => [.pwr, .rst, .led, .seq, .log, .mem, .cap, .rel, .met, .pnt, .chi, .cal, .jrn, .ques, .ebx,
    .evt, .mgt, .dram, .out]
  | .ledgerFlashMirror .. => [.led, .flash0, .flash1]
  | .dimmTrainingDone .. | .journalRecovery => [.pwr, .led, .seq, .log, .mem, .cap, .met, .pnt, .cool, .chi, .ckpt, .cal,
    .jrn, .gimg, .ques, .ebx, .evt, .mgt, .dram, .out]
  | .caliperSelfTest .. => [.pwr, .rst, .led, .seq, .log, .mem, .cap, .met, .pnt, .cool, .chi, .ckpt, .cal, .jrn, .gimg,
    .selfTest, .ques, .ebx, .evt, .mgt, .dram, .out]
  | .siteImageDigestCheck => [.pwr, .led, .boot, .seq, .log, .mem, .cap, .met, .pnt, .cool, .chi, .ckpt, .cal, .jrn, .gimg,
    .ques, .ebx, .evt, .mgt, .dram, .out]
  | .fullServiceReported => [.pwr, .led, .boot, .seq, .log, .mem, .cap, .met, .pat, .pnt, .cool, .chi, .ckpt, .cal, .jrn,
    .gimg, .ques, .ebx, .evt, .mgt, .pair, .dram, .out]
  | .deferredBlockCheck .. => [.boot, .evt]
  | .commitDwellExpiry | .identityKeysReady => [.boot]
  | .debugNonceRead .. => [.fresh, .boot, .acc, .out]
  | .maqStore .. | .maqSwitch .. | .maqCancel .. | .maqVerify .. => [.maq, .log, .mem, .ques, .ebx, .evt, .mgt, .dram, .out]
  | .maqSetMinVersion .. => [.ob, .maq, .log, .mem, .ques, .ebx, .evt, .mgt, .flash0, .flash1, .dram, .out]
  | .maqVerifyComplete .. => [.pwr, .led, .ob, .maq, .seq, .svy, .log, .mem, .cap, .met, .pnt, .haz, .cool, .chi, .cal, .jrn,
    .gimg, .ques, .ebx, .evt, .mgt, .pair, .flash0, .flash1, .dram, .out]
  | .maqStagedCommit => [.pwr, .led, .maq, .seq, .svy, .log, .mem, .cap, .met, .pnt, .haz, .cool, .chi, .cal, .jrn, .gimg,
    .ques, .ebx, .evt, .pair, .flash0, .flash1, .dram, .out]
  | .profilePinsStable .. => [.pins, .maq, .mem, .ques, .ebx, .evt, .dram, .out]
  | .installFw .. | .updatePlaster .. | .storeSiteImage .. | .principalSet .. => [.boot, .log, .mem, .ques, .ebx, .evt, .mgt,
    .flash0, .flash1, .dram, .out]
  | .commitFw .. | .optionUpdate .. | .keyProvision .. => [.ob, .boot, .log, .mem, .ques, .ebx, .evt, .mgt, .flash0, .flash1,
    .dram, .out]
  | .pushSite .. | .activateSite .. | .versionReport .. | .controlRecordRefused .. => [.boot, .log, .mem, .ques, .ebx, .evt,
    .mgt, .dram, .out]
  | .sitePushDone .. | .helloSession .. => [.boot, .mem, .ques, .ebx, .evt, .dram, .out]
  | .revokeKeys .. => [.ob, .maq, .boot, .log, .mem, .ques, .ebx, .evt, .mgt, .flash0, .flash1, .dram, .out]
  | .debugOpen .. => [.boot, .debug, .log, .mem, .ques, .ebx, .evt, .mgt, .dram, .out]
  | .spdmGetVersion .. | .spdmGetCapabilities .. | .spdmNegotiateAlgorithms .. | .spdmGetDigests .. | .spdmGetCertificate ..
    | .spdmChallenge .. | .spdmGetMeasurements .. => [.evt, .out]
  | .clockGrant .. => [.pwr, .mem, .cal, .ebx, .evt]
  | .rcOscStopExpiry => [.pwr, .cool, .out]
  | .siteUp .. | .siteDown .. | .siteAdopt .. | .memReturn .. => [.pwr, .seq, .log, .mem, .cap, .met, .pnt, .chi, .cal, .jrn,
    .ques, .ebx, .evt, .mgt, .dram, .out]
  | .siteClear .. | .siteIdentify .. => [.seq, .log, .mem, .cap, .met, .pnt, .chi, .cal, .jrn, .ques, .ebx, .evt, .mgt,
    .dram, .out]
  | .siteCmdInvalid .. => [.seq, .log, .mem, .ques, .ebx, .evt, .mgt, .dram, .out]
  | .sitePresentAsserted .. => [.pins, .seq, .log, .mem, .cap, .met, .pnt, .chi, .cal, .jrn, .ques, .ebx, .evt, .dram, .out]
  | .siteSettleExpiry .. | .trayResetWidthExpiry => [.seq, .log, .mem, .cap, .met, .pnt, .chi, .cal, .jrn, .ques, .ebx, .evt,
    .dram, .out]
  | .siteIdentityRead .. | .siteIdromRereadTimer .. => [.pwr, .seq, .svy, .rcnt, .log, .mem, .cap, .met, .pat, .pnt, .chi,
    .cal, .jrn, .ques, .ebx, .evt, .dram, .out]
  | .sitePresenceLost .. => [.pwr, .pins, .seq, .log, .mem, .cap, .met, .pnt, .chi, .cal, .jrn, .ques, .ebx, .evt, .dram,
    .out]
  | .siteRetryWaitExpiry .. | .railUpDelayExpiry .. | .railDownDelayExpiry .. | .railBackoffExpiry .. => [.pwr, .seq, .log,
    .mem, .cap, .met, .pnt, .chi, .cal, .jrn, .ques, .ebx, .evt, .dram, .out]
  | .siteAdoption .. => [.pwr, .led, .seq, .svy, .rcnt, .log, .mem, .cap, .met, .pat, .pnt, .chi, .cal, .jrn, .ques, .ebx,
    .evt, .dram, .out]
  | .railPgChange .. | .railRiseTimeout .. | .railPgLossTimer .. | .railFallTimeout .. | .pmbusWriteDone .. | .pmbusPgPoll ..
    => [.pwr, .seq, .rcnt, .log, .snap, .mem, .cap, .met, .pnt, .chi, .cal, .jrn, .gimg, .ques, .ebx, .evt, .dram, .out]
  | .railQualifyExpiry .. => [.fresh, .pwr, .rst, .led, .ob, .maq, .boot, .seq, .log, .mem, .cap, .met, .pnt, .cool, .chi,
    .cal, .jrn, .ques, .ebx, .evt, .mgt, .pair, .acc, .flash0, .flash1, .dram, .out]
  | .railRetryCountReset .. => [.pwr, .seq]
  | .moduleGroupResequence .. => [.fresh, .pwr, .rst, .led, .ob, .maq, .boot, .seq, .log, .mem, .cap, .met, .pnt, .cool,
    .chi, .cal, .jrn, .gimg, .ques, .mov, .ebx, .evt, .mgt, .pair, .acc, .flash0, .flash1, .dram, .out]
  | .wardenBrownout .. | .wardenSupervisorReset .. | .wardenReload .. => [.pwr, .rst, .seq, .log, .mem, .cap, .met, .pnt,
    .chi, .cal, .jrn, .ques, .ebx, .evt, .dram, .out]
  | .surveySample .. => Part.others.filter fun p => !([.pins, .debug, .rel, .pat, .haz, .ckpt, .selfTest, .mov].contains p)
  | .surveyStaleTimeout .. | .surveyBusTimeout .. => [.svy, .log, .evt]
  | .railCntClr .. => [.rcnt, .log, .evt, .mgt]
  | .logPageProgramDone | .logSectorEraseDone | .logRingRecoveryDone => [.log, .flash0, .flash1]
  | .logDeviceTimeout .. | .logReadAdvance .. | .patinaRecordWrite => [.log, .evt]
  | .logReadFromWrite .. => [.log, .evt, .mgt, .acc]
  | .snapshotPeriodicTimer => [.rcnt, .log, .snap, .flash0, .flash1]
  | .snapshotBankEraseDone .. | .journalFlushDescriptorDone .. => [.snap, .flash0, .flash1]
  | .holdupBegin .. => [.pwr, .ob, .maq, .boot, .seq, .rcnt, .log, .snap, .mem, .cap, .rel, .met, .pnt, .chi, .cal, .jrn,
    .gimg, .ques, .ebx, .evt, .mgt, .flash0, .flash1, .dram, .out]
  | .holdupEnd => [.pwr, .maq, .boot, .seq, .log, .snap, .mem, .cap, .met, .pnt, .chi, .cal, .jrn, .ques, .ebx, .evt,
    .flash0, .flash1, .dram, .out]
  | .meteringIntervalEnd .. => [.snap, .cap, .rel, .met, .pnt, .chi, .cal, .jrn, .evt]
  | .powerWindow1msEnd | .powerWindow1sEnd => [.met]
  | .telemetryRecord .. | .wardenTelemetryPoll .. => [.log, .cap, .chi, .ebx, .evt, .out]
  | .telemetryStaleTimeout .. => [.log, .cap, .evt]
  | .jobMark .. => [.cap, .met, .pnt, .chi, .cal, .jrn, .ebx, .evt, .out]
  | .jobRelease .. => [.met, .evt]
  | .trayBudgetWrite .. | .capSwBoundWrite .. => [.log, .cap, .evt, .mgt]
  | .capDivision => [.log, .cap, .pnt, .evt, .pair, .out]
  | .capGuardWindow .. => [.log, .cap, .pnt, .evt]
  | .siteThrottleForceWrite .. => [.log, .cap, .pnt, .evt, .mgt]
  | .siteVout .. => [.log, .mem, .cap, .ques, .ebx, .evt, .mgt, .dram, .out]
  | .peakClr .. => [.log, .met, .evt, .mgt]
  | .reliefVoltageCrossing .. | .reliefCurrentCrossing .. | .reliefStage2 .. | .reliefReleaseCondition .. => [.log, .snap,
    .cap, .rel, .met, .pnt, .evt]
  | .reliefReleaseStepExpiry => [.log, .cap, .rel, .pnt, .evt]
  | .patinaSecond => [.pat, .evt]
  | .holdWindowExpiry => [.log, .cap, .cool, .evt, .pair, .out]
  | .chiselInterval => [.log, .mem, .cap, .pnt, .chi, .ques, .ebx, .evt, .dram, .out]
  | .chiselStaleFallbackExpiry .. => [.log, .chi, .evt]
  | .chiselSwBoundWrite .. => [.log, .chi, .evt, .mgt]
  | .chiselFreeze .. | .chiselThaw .. | .chiselReset .. | .chiselExport .. | .chiselImport .. => [.log, .mem, .chi, .ques,
    .ebx, .evt, .mgt, .dram, .out]
  | .chiselCheckpoint => [.ckpt, .out]
  | .coolingTick .. => [.fresh, .pwr, .seq, .log, .mem, .cap, .met, .pat, .pnt, .haz, .cool, .chi, .cal, .jrn, .ques, .ebx,
    .evt, .dram, .out]
  | .fanStartTimeout .. | .coolWdtExpiry | .zoneSensorExclusion .. | .zoneSensorReadmission .. | .zoneColdLieCheck .. =>
    [.log, .cool, .evt, .out]
  | .fanStallTimerExpiry .. | .fanSeizedTimerExpiry .. => [.cool, .out]
  | .fanTargetWrite .. | .coolWdtRefresh .. | .zoneClear .. => [.log, .cool, .evt, .mgt]
  | .fanClear .. | .valveCmdWrite .. => [.log, .cool, .evt, .mgt, .out]
  | .valveTravelTimeout .. | .valvePosChange .. | .valveUncommandedTimer .. => [.log, .cool, .evt]
  | .flowRateUpdate .. | .zoneGuardExitTimer .. => [.cool]
  | .flowLossTimeExpiry .. | .coolantLossEndTimer .. | .leakRopeReading .. | .leakPointSample .. => [.pwr, .seq, .log, .mem,
    .cap, .met, .pnt, .haz, .cool, .chi, .cal, .jrn, .ques, .ebx, .evt, .dram, .out]
  | .leakClear .. => [.log, .haz, .cool, .evt, .mgt, .out]
  | .accelSample .. => [.pwr, .seq, .rcnt, .log, .snap, .mem, .cap, .met, .pnt, .haz, .cool, .chi, .cal, .jrn, .ques, .ebx,
    .evt, .flash0, .flash1, .dram, .out]
  | .shakeNoteEpisodeEnd => [.haz]
  | .braceRequest .. => [.pwr, .seq, .rcnt, .log, .snap, .mem, .cap, .met, .pnt, .haz, .cool, .chi, .cal, .jrn, .ques, .ebx,
    .evt, .mgt, .flash0, .flash1, .dram, .out]
  | .braceHoldExpiry => [.maq, .boot, .log, .haz, .evt, .flash0, .flash1, .out]
  | .shakePeakClr .. => [.log, .haz, .evt, .mgt]
  | .accelSelfTest .. | .accelNoAnswer => [.log, .haz, .evt]
  | .tjStopReleaseTimer => [.fresh, .pwr, .rst, .led, .ob, .maq, .boot, .seq, .log, .mem, .cap, .met, .pnt, .haz, .cool,
    .chi, .cal, .jrn, .ques, .ebx, .evt, .mgt, .pair, .acc, .flash0, .flash1, .dram, .out]
  | .countFrameTransmit | .syncCalPeriod .. | .calFrame .. | .resultFrame .. | .syncLineLinkUp .. => [.pnt, .out]
  | .countFrame .. | .pointingFrameLoss | .holdoverLimitExpiry | .armEntryExpiry .. => [.log, .pnt, .evt]
  | .echoFrame .. | .abortFrame .. | .launchDeadline .. => [.log, .pnt, .evt, .out]
  | .delayFrame .. | .managerEchoWaitExpiry => [.log, .snap, .mem, .cap, .rel, .met, .pnt, .chi, .cal, .jrn, .ques, .ebx,
    .evt, .dram, .out]
  | .syncFrameDiscard .. => [.pnt, .evt]
  | .pointingSaveTimer | .siteDumapReport .. => [.pnt]
  | .armRun .. | .disarmRun .. => [.log, .mem, .pnt, .ques, .ebx, .evt, .mgt, .dram, .out]
  | .launchRun .. => [.log, .mem, .cap, .pnt, .ques, .ebx, .evt, .mgt, .dram, .out]
  | .closeRun .. => [.log, .mem, .cap, .pnt, .chi, .cal, .jrn, .ques, .ebx, .evt, .mgt, .dram, .out]
  | .promoteManager .. => [.log, .snap, .mem, .cap, .rel, .met, .pnt, .chi, .cal, .jrn, .ques, .ebx, .evt, .mgt, .dram, .out]
  | .launchFrame .. | .ackFrame .. | .goFrame .. => [.log, .cap, .pnt, .evt, .out]
  | .launchCountReached .. => [.log, .cap, .pnt, .chi, .cal, .jrn, .evt, .out]
  | .choiceRecord .. => [.pnt, .ebx, .evt, .out]
  | .auditOffer .. => [.pwr, .log, .cal, .ebx, .evt, .out]
  | .caliperFirstComputeDone .. | .caliperRecomputeDone .. | .caliperFetchTimeout .. | .caliperOfferRetainExpiry .. => [.pwr,
    .seq, .log, .mem, .cap, .met, .pnt, .chi, .cal, .jrn, .gimg, .ques, .ebx, .evt, .dram, .out]
  | .runTableIdleExpiry .. | .calDisRecAdvance .. => [.cal]
  | .checkDesc .. | .computeDesc .. | .gaugeInvoke .. => [.pwr, .log, .mem, .cal, .ques, .ebx, .evt, .mgt, .dram, .out]
  | .gaugeLoad .. | .gaugeUnload .. => [.log, .mem, .cal, .gimg, .ques, .ebx, .evt, .mgt, .dram, .out]
  | .gaugeInvocation .. => [.pwr, .log, .cal, .evt]
  | .gaugeInvocationDone .. => [.log, .mem, .cal, .gimg, .ques, .ebx, .evt, .dram, .out]
  | .calAuditRateWrite .. | .calAuditKeyWrite .. | .calCovClr .. | .calDisFromWrite .. => [.log, .cal, .evt, .mgt]
  | .emissionRecord .. | .bindInput .. | .bindWeights .. => [.log, .mem, .cal, .jrn, .ebx, .evt, .dram, .out]
  | .jrnGapWaitExpiry .. | .jrnSeqIdleExpiry .. | .manifestSigned .. | .memFillDone .. => [.log, .mem, .jrn, .evt, .dram]
  | .spotCheckDone .. => [.log, .mem, .jrn, .ques, .ebx, .evt, .dram, .out]
  | .jrnSealWaitExpiry .. => [.jrn, .evt]
  | .exportManifest .. | .exportSeq .. | .exportLog .. | .hashRange .. | .spotCheck .. => [.log, .mem, .jrn, .ques, .ebx,
    .evt, .mgt, .dram, .out]
  | .memRemove .. => [.pwr, .seq, .log, .mem, .cap, .met, .pnt, .chi, .ckpt, .cal, .jrn, .gimg, .ques, .ebx, .evt, .mgt,
    .dram, .out]
  | .memReadErrorDetected .. | .memScrubBurst .. => [.pwr, .boot, .seq, .log, .mem, .cap, .met, .pnt, .chi, .ckpt, .cal,
    .jrn, .gimg, .ques, .ebx, .evt, .dram, .out]
  | .memSpdSilentTimeout .. => [.pwr, .seq, .log, .mem, .cap, .met, .pnt, .chi, .ckpt, .cal, .jrn, .gimg, .ques, .ebx, .evt,
    .dram, .out]
  | .doorbellSqTail .. => [.pwr, .mem, .ques, .ebx, .evt, .dram, .out]
  | .queueSizeWrite .. | .cqHeadWrite .. | .engineEntryTake .. => [.log, .mem, .ques, .ebx, .evt, .mgt, .dram, .out]
  | .copyMem .. | .fillMem .. | .flashRead .. => [.log, .mem, .ques, .mov, .ebx, .evt, .mgt, .dram, .out]
  | .moverSegmentDone .. | .errorResp .. | .ebxPortDown .. | .ebxRequestTimeout .. => [.mem, .ques, .mov, .ebx, .evt, .dram,
    .out]
  | .readReq .. => [.fresh, .boot, .log, .mem, .cal, .ebx, .evt, .acc, .out]
  | .readResp .. => [.ques, .ebx, .evt]
  | .writeAck .. | .messageInvalid .. | .messageCoalesced .. | .creditPacket .. | .ebxPacketDiscard .. => [.ebx, .evt]
  | .postedWrite .. => [.mem, .ebx, .evt, .dram]
  | .linkPacket .. => [.led, .ebx]
  | .ebxCreditSend => [.ebx, .out]
  | .ebxPortRetrain .. => [.ebx]
  | .evtReadAdvance .. => [.log, .cal, .evt]
  | .eventForward .. | .eventPushRetry .. => [.evt, .mgt, .out]
  | .tlsConnect .. => [.log, .evt, .mgt, .out]
  | .redfishRequest .. => Part.others
  | .telemetryStreamPeriod .. => [.mem, .evt, .mgt, .dram, .out]
  | .ownNReleaseObserved .. => [.led, .log, .evt, .pair, .out]
  | .pairClaimDelayExpiry .. => [.led, .pair]
  | .pairOwnNIdleTimeout .. | .pairLinkChange .. => [.pair]
  | .pairTakeoverHang .. => [.pair, .out]
  | .pairSyncAgeTimeout => [.log, .evt, .pair]
  | .handoverLead .. | .takeLead .. | .holdSet .. => [.log, .mem, .ques, .ebx, .evt, .mgt, .pair, .dram, .out]
  | .ejectNAsserted => [.pins, .rcnt, .log, .snap, .evt, .pair, .flash0, .flash1, .out]
  | .ejectLatchRelease => [.pins, .out]
  | .snapshotLatchRead .. | .registerReadRefused .. => [.fresh, .boot, .log, .cal, .evt, .acc, .out]
  | .wardenResetRelease .. => [.rst, .seq]
  | .digestHashDone .. => [.mem, .jrn, .ques, .ebx, .evt, .dram, .out]
  | .updateOperationDone .. => [.led, .ob, .maq, .boot, .log, .mem, .ques, .ebx, .evt, .mgt, .flash0, .flash1, .dram, .out]

end Sys2Proof
end

