-- ==== Sys2Proof/Certificates/Slice0/Obligations.lean ====
section
/-! DEFINITION. The statements for the provers. `Completes c s P` says that command c answers a next state t at s with P t;
`s.onlyChanges ps t` says that t differs from s at most in the parts ps of the state: every part that is not listed is the same.
Every statement holds in every state that meets its own
hypotheses, reachable or not. -/

open Sys2Proof Sys2Proof.Machine

/-- Restart sources, power and supervision, and the commanded resets: SW_RESET with its key and right, any other write of it, the
debug port's, and the release of an over-temperature reset (R29, R31, R85 to R90, R93 to R95, R128, R320). A waiting restart
behind a snapshot is the model's reading (log 26). -/
def Obligations.PowerAndResetCommandsTakeEffect : Prop :=
  (∀ s : State,
  Completes .powerOn s (fun t => t.pwr = { standby := true } ∧ t.rst = { under := some .powerOn, underCode := 1 } ∧
    t.led = { serials := s.led.serials, excluded := s.led.excluded, clear := s.led.clear } ∧
    t.rcnt = {} ∧ t.log = {} ∧ t.met = {} ∧ t.pat = {} ∧ t.maq = {} ∧ t.ques = [] ∧ t.dram = [] ∧
    t.flash0 = s.flash0 ∧ t.flash1 = s.flash1 ∧ t.pins = { s.pins with inputGood := false }) ∧
  Completes .standbyOn s (fun t => t = { s with pwr := { s.pwr with standby := true } }) ∧
  Completes .standbyOff s (fun t => t.pwr = {} ∧ t.rst = {} ∧
    t.led = { serials := s.led.serials, excluded := s.led.excluded, clear := s.led.clear } ∧ t.rcnt = {} ∧ t.log = {} ∧ t.dram = [] ∧
    t.flash0 = s.flash0 ∧ t.flash1 = s.flash1) ∧
  (s.pwr.standby = true → s.rst.under = none →
    Completes .inputUndervoltageReset s (fun t => s.Restarted t 2 .moduleReset ∧ t.pwr.core = false ∧ t.maq = { failedProfile := s.maq.failedProfile } ∧ t.ques = [] ∧
      t.rcnt = s.rcnt ∧ t.dram = s.dram) ∧
    Completes (.plinthSupervisorReset true) s (fun t => t.rst.rstCause = setBit s.rst.rstCause 2 true ∧
      t.rst.under = some .moduleReset ∧ t.pwr.core = false ∧ t.rcnt = {} ∧ t.pat = {} ∧ t.log = {}) ∧
    Completes (.plinthSupervisorReset false) s (fun t => s.Restarted t 3 .moduleReset ∧ t.pwr.core = false ∧ t.rcnt = s.rcnt) ∧
    Completes .recoveryReqHold s (fun t => s.Restarted t 12 .moduleReset ∧ t.rst.strapForced = true ∧ t.pwr.core = false)) ∧
  (s.pwr.core = true → s.rst.under = none → s.rst.wdtRunning = true →
    ((s.rst.wdtTimes.filter fun w => decide (s.plinth < w + secs 600)).take 2).length = 2 →
    Completes .armatureWatchdogExpiry s fun t => s.Restarted t 5 .coreDie ∧ t.boot = {} ∧ t.rcnt = s.rcnt) ∧
  (s.pwr.core = true → s.rst.under = none → s.rst.wdtRunning = true →
    ((s.rst.wdtTimes.filter fun w => decide (s.plinth < w + secs 600)).take 2).length < 2 →
    Completes .armatureWatchdogExpiry s fun t => s.Restarted t 4 .armature ∧
      t.rst.wdtTimes = (s.plinth :: (s.rst.wdtTimes.filter fun w => decide (s.plinth < w + secs 600)).take 2).take 2 ∧ t.rcnt = s.rcnt)) ∧
  (∀ (s : State) (r : Req),
  (s.pwr.core = true → s.rst.under = none → s.may r.principal .reset = true →
    Completes (.swResetArmature r 0xA5) s (fun t => s.Restarted t 13 .armature ∧ t.rcnt = s.rcnt) ∧
    Completes (.swResetCaliper r 0xA5) s (fun t => t.rst.rstCause = setBit s.rst.rstCause 7 true ∧
      t.rst.calRstCause = setBit s.rst.calRstCause 7 true ∧ t.rst.under = some .caliperOnly ∧ t.rst.locked = s.rst.locked ∧
      t.led.kind = .caliperOnly ∧ t.boot = s.boot) ∧
    ((s.snapshot 3).snap.job = none →
      Completes (.swResetModule r 0xA5) s (fun t => s.Restarted t 6 .moduleReset ∧ t.pwr.core = false) ∧
      Completes (.swResetCoreDie r 0xA5) s (fun t => s.Restarted t 7 .coreDie ∧ t.boot = {})) ∧
    ((s.snapshot 3).snap.job.isSome = true →
      Completes (.swResetModule r 0xA5) s (fun t => t.rst.waiting = s.rst.waiting ++ [(.moduleReset, 6)] ∧
        t.snap = (s.snapshot 3).snap ∧ s.onlyChanges [.rst, .snap, .rcnt, .flash0, .flash1] t) ∧
      Completes (.swResetCoreDie r 0xA5) s (fun t => t.rst.waiting = s.rst.waiting ++ [(.coreDie, 7)] ∧
        t.snap = (s.snapshot 3).snap ∧ s.onlyChanges [.rst, .snap, .rcnt, .flash0, .flash1] t))) ∧
  (∀ v, s.pwr.core = true → Completes (.swResetRefused r v) s fun t => s.onlyChanges [.log, .evt, .mgt] t ∧
    (s.may r.principal .reset = true → s.evt.ring.length < 4096 → t.evt.ring = s.evt.ring ++ [⟨s.ptime, 0, 88, 0, v⟩] ∧ t.log = s.log)) ∧
  (s.pwr.standby = true → s.rst.under = none → s.debug = 1 → (s.snapshot 3).snap.job = none →
    Completes (.debugAuthorisedReset 1) s (fun t => s.Restarted t 11 .moduleReset) ∧
    Completes (.debugAuthorisedReset 2) s (fun t => s.Restarted t 11 .coreDie) ∧
    Completes (.debugAuthorisedReset 3) s (fun t => t.rst.calRstCause = setBit s.rst.calRstCause 10 true ∧ t.boot = s.boot)) ∧
  (s.pwr.standby = true → s.rst.otHeld = true → Completes .tjResetRelease s fun t =>
    t.rst = { s.rst with otHeld := false } ∧ t.haz.tjState = 0 ∧
    ((s.stepOf 7).isSome = true → t.haz = { s.haz with tjState := 0 } ∧ s.onlyChanges [.rst, .haz, .log, .evt] t) ∧
    (s.pins.inputGood = true → s.stepEnded 4 = true → s.stepOf 7 = none → s.pwr.core = false → t.stepRuns 7 = true)))

/-- Start steps 1 to 9: straps, thresholds, standby dies, the Maquette, the core domain, the dies and the Armature (R44, R73, R91,
R97, R101, R434, R528). -/
def Obligations.EarlyStartStepsTakeEffect : Prop := ∀ s : State,
  (∀ p b m rec ok busV busI, s.pwr.standby = true → s.pins.inputGood = false → s.rst.under.all (fun k => decide (3 ≤ k.rank)) = true →
    Completes (.inputGood p b m rec ⟨ok, ⟨busV, busI⟩⟩) s fun t =>
      t.pins = { s.pins with inputGood := true, profile := BitVec.ofNat 2 p, bay := b, mgmtMode := BitVec.ofNat 2 m, recovery := rec } ∧
      t.rst = { s.rst with under := none, strapForced := s.rst.strapForced || rec } ∧
      t.stepEnded 1 = true ∧ t.stepEnded 2 = true ∧ (ok = true → t.stepRuns 4 = true) ∧
      (ok = false → (t.stepOf 3).map LedgerEntry.outcome = some .failed)) ∧
  (∀ v, s.pwr.standby = true → s.pins.inputGood = true → s.stepEnded 5 = false →
    Completes (.strapStable 0 v) s (fun t => t = { s with pins := { s.pins with profile := setBit s.pins.profile 0 v } }) ∧
    Completes (.strapStable 1 v) s (fun t => t = { s with pins := { s.pins with profile := setBit s.pins.profile 1 v } }) ∧
    Completes (.strapStable 2 v) s (fun t => t = { s with pins := { s.pins with bay := v } }) ∧
    Completes (.strapStable 3 v) s (fun t => t = { s with pins := { s.pins with mgmtMode := setBit s.pins.mgmtMode 0 v } }) ∧
    Completes (.strapStable 4 v) s (fun t => t = { s with pins := { s.pins with mgmtMode := setBit s.pins.mgmtMode 1 v } })
) ∧
  (∀ v, s.pwr.standby = true → Completes (.strapStable 5 v) s fun t =>
    (s.boot.plasterHeld = false ∨ v = false → t = { s with
      pins := { s.pins with recovery := !v }
      rst := { s.rst with strapForced := s.rst.strapForced || (!v && s.strapsOpen) } }) ∧
    (s.boot.plasterHeld = true → v = true → s.ob.defaults = false → s.ob.revminLost = false → s.rst.under = none →
      t.rst.under = some .moduleReset ∨ (RKind.moduleReset, 6) ∈ t.rst.waiting)) ∧
  (∀ ok, s.pwr.standby = true → s.stepRuns 4 = true → Completes (.standbyDiesUp ok) s fun t =>
    t.rst = { s.rst with wardenHeld := 0 } ∧ t.maq = { s.maq with forceP0 := decide (1 ≤ s.carry 5) } ∧ t.snap.sums = [] ∧
    t.stepRuns 5 = true ∧ t.stepRuns 6 = true ∧ (s.rst.otHeld = false → t.stepRuns 7 = true) ∧
    t.stepOf 4 = (s.stepOf 4).map fun x => x.ended .ok none s.plinth) ∧
  (s.pwr.standby = true → s.stepRuns 5 = true → Completes .maquetteStartLoad s fun t =>
    t.maq = ((s.reckonerReads.startLoad s.loadOrder).noteLoad (s.loadOrder.headD 0)).1.maq ∧ t.stepEnded 5 = true) ∧
  (s.pwr.standby = true → s.stepRuns 7 = true → s.rst.otHeld = false →
    ((s.stepOf 7).any fun x => x.form == 2) = false →
    Completes (.coreDomainUp true) s (fun t => t.pwr = { s.pwr with core := true } ∧ t.stepEnded 7 = true ∧ t.stepRuns 8 = true ∧
      s.onlyChanges [.pwr, .rst, .led] t) ∧
    Completes (.coreDomainUp false) s (fun t => (t.stepOf 7).map LedgerEntry.outcome = some .failed ∧
      t.rst = { s.rst with under := if s.rst.under = some .coreDie then none else s.rst.under } ∧
      s.onlyChanges [.pwr, .rst, .led, .seq, .log, .mem, .cap, .met, .pnt, .chi, .cal, .jrn, .ques, .ebx, .evt, .dram, .out] t)) ∧
  (∀ ids, s.pwr.core = true → s.stepRuns 8 = true → u8 (ids[0]?.getD []) 9 ≠ 0 → Completes (.dieIdentityCheck ids) s fun t =>
    t.stepEnded 8 = true ∧ (u8 ((ids[7]?.getD [] ++ zeros 11).take 11) 9 ≠ 0 → t.stepRuns 9 = true) ∧
    (u8 ((ids[7]?.getD [] ++ zeros 11).take 11) 9 = 0 → t.pair.outputs = false ∧ t.stepOf 9 = s.stepOf 9) ∧
    ∀ c, c < 384 → u8 ((ids[8 + c / 24]?.getD [] ++ zeros 11).take 11) 9 = 0 → (t.chan c).stale = true) ∧
  (∀ failed, s.pwr.core = true → s.stepRuns 9 = true → s.haz.tjState ≠ 1 → Completes (.armatureLockstepCheck failed) s fun t =>
    t.pwr.sram = true ∧ t.pwr.armature = decide (t.pwr.pairFailed ≠ 15#4) ∧ t.pwr.caliper = (!s.pwr.calFenced && !s.cal.selfFenced) ∧ t.stepEnded 9 = true ∧
    (∀ p, p < 4 → (t.pwr.pairFailed.getLsbD p = true ↔ s.pwr.pairFailed.getLsbD p = true ∨ failed.testBit p = true)) ∧
    (t.pwr.pairFailed ≠ 15#4 → s.pwr.absent.getLsbD 6 = false → t.stepRuns 10 = true))

/-- Start step 10 and what follows a step that did not end well: slot choice, release, ROM service, timeouts, retries, the flash
mirror (R101, R106, R108, R120, R123, R125). -/
def Obligations.ReleaseAndRecoveryStepsTakeEffect : Prop := ∀ s : State,
  (s.pwr.core = true → s.stepRuns 10 = true → s.boot.chosen = none → Completes .imageSlotChoice s fun t =>
    (∀ k, (s.trySlots s.candidates).2 = some k →
      t.boot.chosen = some k ∧ t.boot.slot = min k 2 ∧ t.boot.romService = false ∧ t.stepRuns 10 = true ∧
      t.rst = { s.rst with bootLast := { s.rst.bootLast with detail := BitVec.ofNat 8 (min k 2) } }) ∧
    ((s.trySlots s.candidates).2 = none → t.boot.romService = true ∧ t.boot.chosen = none ∧ t.rst = s.rst ∧
      (t.stepOf 10).map LedgerEntry.outcome = some .failed) ∧
    (s.plasterForced = true → (t.boot.slot = 2 ∧ t.boot.chosen.isSome = true) ∨ (t.boot.romService = true ∧ t.boot.chosen = none))) ∧
  (∀ k, s.pwr.core = true → s.stepRuns 10 = true → s.boot.chosen = some k → Completes .quarantineRelease s fun t =>
    t.boot = { s.boot with chosen := none, run := some (s.imageOf k) } ∧ t.rst = { s.rst with locked := true, wdtRunning := true } ∧
    t.stepEnded 10 = true ∧ t.stepRuns 11 = true ∧ s.onlyChanges [.boot, .rst, .led] t) ∧
  (∀ img, s.pwr.core = true → s.boot.romService = true → s.rst.under = none → Completes (.romServicePlasterImage img) s fun t =>
    (s.brace = true ∨ s.snap.holdup = true → t = s) ∧
    (s.brace = false → s.snap.holdup = false → s.imgCheck img 2 plasterSize none = none → imgBad img = none →
      t.rst.under = some .moduleReset ∨ (RKind.moduleReset, 6) ∈ t.rst.waiting) ∧
    ((s.imgCheck img 2 plasterSize none).isSome = true ∨ (imgBad img).isSome = true → t = s)) ∧
  (∀ n, s.pwr.standby = true → s.stepRuns n = true → n ≠ 11 → Completes (.startStepTimeout n) s fun t =>
    (t.stepOf n).map LedgerEntry.outcome = some .timeout) ∧
  (s.pwr.standby = true → s.stepRuns 11 = true → Completes (.startStepTimeout 11) s fun t =>
    t.rst.under = some .armature ∧ t.led.kind = .armature ∧ t.boot.run = none ∧ t.stepRuns 9 = true ∧ t.rst.rstCause = s.rst.rstCause ∧
    t.rst.bootLast.time = BitVec.ofNat 48 s.plinth) ∧
  (s.pwr.standby = true → s.stepEnded 3 = true → s.stepEnded 4 = false → s.stepRuns 4 = false →
    Completes (.startStepRetryTimer 3 true) s (fun t => t.stepEnded 3 = true ∧ t.stepRuns 4 = true) ∧
    Completes (.startStepRetryTimer 3 false) s (fun t => (t.stepOf 3).map LedgerEntry.outcome = some .failed)) ∧
  (∀ ok, s.pwr.standby = true → s.stepEnded 6 = true → s.pair.st = .partner → Completes (.startStepRetryTimer 6 ok) s fun t =>
    (t.stepOf 6).map LedgerEntry.outcome = some (if ok then (if s.carry 6 = 0 then .ok else .okAlternate) else .failed)) ∧
  (s.pwr.standby = true → s.pwr.core = false → s.rst.otHeld = false →
    (s.stepOf 7).any (fun x => x.form == 2 || x.outcome != .inProgress && decide (x.attempt < 2)) = true →
    Completes (.startStepRetryTimer 7 true) s fun t => t.pwr.core = true ∧ t.stepEnded 7 = true ∧ t.stepRuns 8 = true) ∧
  (∀ ok, s.pwr.standby = true → s.stepEnded 20 = true →
    Completes (.startStepRetryTimer 13 ok) s (fun t =>
      (t.stepOf 13).map LedgerEntry.outcome = some (if ok then .okAlternate else .failed)) ∧
    Completes (.startStepRetryTimer 14 ok) s (fun t =>
      (t.stepOf 14).map LedgerEntry.outcome = some (if ok then .okAlternate else .failed))) ∧
  (∀ n x, s.pwr.standby = true → s.snap.holdup = false → s.led.toMirror.contains n = true → 1 ≤ n → n ≤ 20 →
    Tbl.find? s.led.cur n = some x → Completes (.ledgerFlashMirror n) s fun t =>
      t.led = { s.led with toMirror := s.led.toMirror.filter (· != n) } ∧ t.fread 1 (ledgerOff x.startSeq n) 32 = x.bytes n ∧
      t.flash0 = s.flash0) ∧
  (∀ n x, s.pwr.standby = true → s.snap.holdup = false → s.led.toMirror.contains (32 + n) = true → 1 ≤ n → n ≤ 20 →
    Tbl.find? s.led.prev n = some x → Completes (.ledgerFlashMirror (32 + n)) s fun t =>
      t.led = { s.led with toMirror := s.led.toMirror.filter (· != 32 + n) } ∧ t.fread 1 (ledgerOff x.startSeq n) 32 = x.bytes n ∧
      t.flash0 = s.flash0)

/-- Start steps 15 to 20 and firmware's own reports (R101, R121, R128, R131, R142, R168, R371, R414, R420). -/
def Obligations.FirmwareStepsTakeEffect : Prop := ∀ s : State,
  (∀ c ok ans mr rate cap ser, s.pwr.core = true → s.stepRuns 11 = false → s.stepRuns 15 = true →
    (∃ k, k < 4 ∧ k ≠ c % 4 ∧ ∀ x ∈ s.mem.reports, x.1 ≠ k) → Completes (.dimmTrainingDone c ok ans mr rate cap ser) s fun t =>
      Tbl.get none t.mem.reports (c % 4) = (if ans then some ⟨dimmOk mr rate cap, ok, cap, ser, dimmRate rate⟩ else none) ∧
      (t.ch (c % 4)).st = (if ans then .training else .absent) ∧
      s.onlyChanges [.pwr, .seq, .log, .mem, .cap, .met, .pnt, .chi, .cal, .jrn, .ques, .ebx, .evt, .dram, .out] t) ∧
  (∀ c ok mr rate cap ser, s.pwr.core = true → s.stepRuns 11 = false → s.stepRuns 15 = false → (s.ch c).st ≠ .training →
    s.withoutDimms = true → s.otherSerial c ser = true → (∃ k, k < 4 ∧ k ≠ c % 4 ∧ ∀ x ∈ s.mem.reports, x.1 ≠ k) →
    Completes (.dimmTrainingDone c ok true mr rate cap ser) s fun t => t.stepRuns 15 = true ∧
      t.mem.reports.any (fun x => x.1 == c % 4) = true) ∧
  (∀ c ok mr rate cap ser, s.pwr.core = true → s.stepRuns 11 = false → s.stepRuns 15 = false → (s.ch c).st = .training →
    Completes (.dimmTrainingDone c ok false mr rate cap ser) s fun t => t = s.setCh c { s.ch c with st := .absent }) ∧
  (s.armServes = true → s.stepRuns 11 = false → s.stepRuns 16 = true → s.led.kind = .powerOn →
    Completes .journalRecovery s fun t => t.jrn.epoch = (s.jrn.epoch + 1) % 2 ^ 32 ∧
      t.stepOf 16 = (s.stepOf 16).map fun x => x.ended .ok none s.plinth) ∧
  (s.pwr.core = true → s.pwr.caliper = true → s.stepRuns 11 = false → s.stepRuns 17 = true →
    Completes (.caliperSelfTest 0) s fun t => (s.usableTiles ≠ [] → t.cal = { s.cal with testDue := false } ∧ t.selfTest = s.plinth ∧ t.pwr = s.pwr ∧
        t.stepOf 17 = (s.stepOf 17).map (fun x => x.ended .ok (some 0) s.plinth) ∧
        (s.rst.under = some .caliperOnly → t.rst = { s.rst with under := none })) ∧
      (s.usableTiles = [] → t.selfTest = s.selfTest ∧ t.pwr.calFenced = true ∧ t.pwr.caliper = false ∧
        (t.stepOf 17).map LedgerEntry.outcome = some .failed)) ∧
  (s.armServes = true → s.stepRuns 11 = false → s.stepRuns 18 = false → s.stepRuns 19 = true →
    Completes .siteImageDigestCheck s fun t => t.stepEnded 19 = true ∧
      (1 ≤ s.carry 19 → t.boot.needPush = 0) ∧ s.onlyChanges [.boot, .led] t) ∧
  (s.imageRuns = true → s.stepRuns 11 = false → s.stepRuns 18 = false → s.stepRuns 20 = true → s.led.kind = .armature →
    Completes .fullServiceReported s fun t => t.boot.dwellRunning = true ∧ t.cool = { s.cool with
        suspended := false, hold := false, wdtAt := if s.cool.suspended then s.plinth else s.cool.wdtAt } ∧
      t.pair = { s.pair with yielding := false } ∧ t.stepOf 20 = (s.stepOf 20).map fun x => x.ended .ok none s.plinth) ∧
  (∀ im b data, s.imageRuns = true → s.boot.run = some im → im.loadBlocks ≤ b → some (Config.sha384 data) ≠ im.hashes[b]? →
    Completes (.deferredBlockCheck b data) s fun t => t.boot = { s.boot with deferredFail := true, healthy := false } ∧
      s.onlyChanges [.boot, .evt] t) ∧
  (∀ im b data, s.imageRuns = true → s.boot.run = some im → some (Config.sha384 data) = im.hashes[b]? →
    Completes (.deferredBlockCheck b data) s fun t => t = s) ∧
  (s.pwr.core = true → s.boot.dwellRunning = true → s.boot.deferredFail = false → Completes .commitDwellExpiry s fun t =>
    t = { s with boot := { s.boot with healthy := true, dwellRunning := false } }) ∧
  (∀ p prin, s.pwr.core = true → s.may prin .read = true → Completes (.debugNonceRead p prin) s fun t =>
    t.boot = { s.boot with nonce := Config.freshNonce s.fresh, nonceLive := true } ∧ t.fresh = s.fresh + 1 ∧
    t.out = .read p 0x21040 (BitVec.ofNat 32 (Config.freshNonce s.fresh).toNat) :: s.out ∧ s.onlyChanges [.boot, .fresh, .acc, .out] t) ∧
  (∀ p prin, s.pwr.core = true → s.may prin .read = false → Completes (.debugNonceRead p prin) s fun t =>
    t.out = .read p 0x21040 0 :: s.out ∧ t.boot = s.boot ∧ s.onlyChanges [.acc, .out] t) ∧
  (s.pwr.core = true → Completes .identityKeysReady s fun t => t = { s with boot := { s.boot with identReady := true } })

/-- Update operations and site images (R129 to R131, R137 to R139, R144). -/
def Obligations.UpdateOperationsTakeEffect : Prop := ∀ (s : State) (r : Req),
  (∀ e src, s.armServes = true → s.may r.principal .update = true → s.updRefusal = none →
    Completes (.installFw r e src) s (fun t => ∀ b, s.source (u64 e 0x10) (u32 e 0x18) src = some b →
      (s.imgCheck b 1 slotSize (some s.ob.minFw) = none →
        t.boot = { s.boot with upd := some { op := 0x101, req := r, target := s.idleSlot, image := b, count := s.nextCount slotOff } } ∧
        t.isErased s.idleSlot slotOff 4096 = true ∧ s.onlyChanges [.boot, .flash0, .flash1] t) ∧
      (∀ c, s.imgCheck b 1 slotSize (some s.ob.minFw) = some c → t.boot.upd = none ∧ t.boot.updStatus = c * 2 ^ 24 + 2 ^ 16 + s.idleSlot ∧
        s.answers t r c (if c = 0x11 then 0x18 else 0) 0)) ∧
    Completes (.updatePlaster r e src) s (fun t => ∀ b, s.source (u64 e 0x10) (u32 e 0x18) src = some b →
      s.imgCheck b 2 plasterSize none = none →
        t.boot = { s.boot with upd := some { op := 0x103, req := r, target := 0, image := b, count := s.nextCount plasterOff } } ∧
        t.isErased 0 plasterOff 4096 = true ∧ s.onlyChanges [.boot, .flash0, .flash1] t) ∧
    (u8 e 0x1C < 8 → Completes (.storeSiteImage r e src) s (fun t => ∀ b, s.source (u64 e 0x10) (u32 e 0x18) src = some b →
      s.imgCheck b 3 storeSize (some s.ob.minSite) = none →
        t.boot = { s.boot with
          upd := some { op := 0x104, req := r, target := u8 e 0x1C, image := b, count := s.nextCount (storeOff (u8 e 0x1C)) } } ∧
        t.isErased 0 (storeOff (u8 e 0x1C)) 4096 = true ∧ s.onlyChanges [.boot, .flash0, .flash1] t))) ∧
  (∀ u fe, s.imageRuns = true → s.boot.upd = some u → s.brace = false → s.snap.holdup = false →
    (u.held && s.pins.eject) = false → Completes (.updateOperationDone fe) s fun t =>
      (imgBad u.image = none → fe = .ok → u.op = 0x101 ∨ u.second = true → t.boot.upd = none ∧ s.answers t u.req 0 0 0) ∧
      (imgBad u.image = none → fe = .ok → u.op ≠ 0x101 → u.second = false →
        t.boot = { s.boot with upd := some { u with second := true, held := s.pins.eject } } ∧
        (s.maq.waiting = [] → s.onlyChanges [.boot, .flash0, .flash1] t)) ∧
      (imgBad u.image = none → fe = .fails → t.boot.upd = none ∧ s.answers t u.req 0x32 0 0) ∧
      (∀ n, imgBad u.image = none → fe = .differs n → t.boot.upd = none ∧ s.answers t u.req 0x17 0 0) ∧
      ((imgBad u.image).isSome = true → t.boot.upd = none ∧ s.answers t u.req 0x17 0 0)) ∧
  (∀ u fe, s.imageRuns = true → s.boot.upd = some u → s.brace = true ∨ s.snap.holdup = true ∨ (u.held && s.pins.eject) = true →
    Completes (.updateOperationDone fe) s fun t => t = s) ∧
  (∀ im, s.imageRuns = true → s.may r.principal .update = true → s.boot.run = some im → s.updRefusal = none →
    s.boot.healthy = true → s.boot.slot ≠ 2 → s.log.devFailed = 0 → Completes (.commitFw r) s fun t => s.answers t r 0 0 0 ∧
      t.ob = { s.ob with minFw := max s.ob.minFw im.version }) ∧
  (∀ n, s.armServes = true → s.may r.principal .update = true → s.updRefusal = none → n < 8 →
    (s.boot.pushes.any fun p => p.site == n) = true → Completes (.pushSite r n) s fun t =>
      t = { s with boot := { s.boot with
        pushes := s.boot.pushes.map fun p => if p.site = n then { p with req := some r } else p } }) ∧
  (∀ n, s.armServes = true → s.may r.principal .update = true → s.updRefusal = none → n < 8 →
    (s.boot.pushes.any fun p => p.site == n) = false → Completes (.pushSite r n) s fun t =>
    (∀ x, s.matchingEntry n = some x →
      t.boot = { s.boot with pushes := s.boot.pushes ++ [{ site := n, entry := x.1, req := some r
                                                           digest := manDigest (s.manifestAt x.2 (storeOff x.1)) }] } ∧
      t.out = .site 138 n (digestBytes (manDigest (s.manifestAt x.2 (storeOff x.1)))) :: s.out ∧ s.onlyChanges [.boot, .out] t) ∧
    (s.matchingEntry n = none → s.answers t r 0x49 0 0 ∧ t.boot.pushes = s.boot.pushes)) ∧
  (∀ n p, s.imageRuns = true → s.boot.pushes.find? (fun p => p.site == n) = some p → s.brace = false →
    Completes (.sitePushDone n (some p.digest)) s (fun t =>
      t.boot = { s.boot with pushes := s.boot.pushes.filter fun p => p.site != n } ∧ ∀ q, p.req = some q → s.answers t q 0 0 0) ∧
    (∀ d, d ≠ some p.digest → p.retried = false → Completes (.sitePushDone n d) s (fun t => t = { s with boot := { s.boot with
      pushes := { p with retried := true } :: s.boot.pushes.filter fun p => p.site != n } })) ∧
    (∀ d, d ≠ some p.digest → p.retried = true → Completes (.sitePushDone n d) s (fun t =>
      t.boot.pushFail = setBit s.boot.pushFail n true ∧ t.boot.pushes = s.boot.pushes.filter (fun p => p.site != n) ∧
      ∀ q, p.req = some q → s.answers t q 0x32 0 0))) ∧
  (∀ n d, s.imageRuns = true → s.brace = true → Completes (.sitePushDone n d) s fun t => t = s) ∧
  (∀ n, s.armServes = true → s.may r.principal .update = true → n < 8 → s.opRefusal = none → (s.site n).template ≠ 0xFF →
    Completes (.activateSite r n) s fun t => s.answers t r 0 0 0 ∧ s.sends t (.site 139 n []) ∧ t.boot = s.boot ∧ t.seq = s.seq) ∧
  (∀ e, s.imageRuns = true → s.may r.principal .update = true → s.opRefusal = none → 64 ≤ u32 e 0x18 → s.canGive (u64 e 0x10) 64 = none →
    Completes (.versionReport r e) s fun t => t = (s.give (u64 e 0x10) s.versionReport).complete r 0 0 0 ∧ s.answers t r 0 0 0) ∧
  (∀ e, s.imageRuns = true → Completes (.helloSession r e) s fun t =>
    t.boot = { s.boot with sessions := Tbl.set s.boot.sessions r.principal (u16 e 0x10) } ∧
    ∃ v, s.answers t r 0 ((s.boot.run.elim 0 RunImage.ifVersion) % 2 ^ 32) v)

/-- Control records, Plaster's image and SPDM (R128, R132 to R136, R143, R471). -/
def Obligations.ControlRecordsAndPlasterTakeEffect : Prop := ∀ (s : State) (r : Req) (b : Bytes),
  (s.imageRuns = true → s.may r.principal .update = true → s.updRefusal = none →
    (u8 b 6 = 1 → Completes (.revokeKeys r b) s fun t => (∀ c, s.crCheck b = some c → s.answers t r c 0 0 ∧ t.ob = s.ob) ∧
      (s.crCheck b = none → u8 (crBody b) 0 < 64 → zeroAt (crBody b) 1 3 = true →
        (u8 (crBody b) 0).testBit (keyIdx (u8 b 7) (u8 b 8)) = false →
        (s.ob.revoked ||| BitVec.ofNat 6 (u8 (crBody b) 0) = s.ob.revoked → t.ob = s.ob ∧ s.answers t r 0 0 0) ∧
        (s.ob.revoked ||| BitVec.ofNat 6 (u8 (crBody b) 0) ≠ s.ob.revoked →
          ({ s with ob := { s.ob with revoked := s.ob.revoked ||| BitVec.ofNat 6 (u8 (crBody b) 0) } } : State).keysSafe
            (decide (16 ≤ u8 (crBody b) 0)) = true →
          (s.log.devFailed = 0 → s.answers t r 0 0 0 ∧
            t.ob = { s.ob with revoked := s.ob.revoked ||| BitVec.ofNat 6 (u8 (crBody b) 0), keyWritten := none }) ∧
          (s.log.devFailed ≠ 0 → s.answers t r 0x32 0 0 ∧ t.ob = s.ob)))) ∧
    (u8 b 6 = 2 → Completes (.optionUpdate r b) s fun t => (∀ c, s.crCheck b = some c → s.answers t r c 0 0) ∧ t.ob = s.ob ∧
      (s.crCheck b = none → obValid (crBody b) = false → s.answers t r 0x10 0 0)) ∧
    (u8 b 6 = 2 → s.crCheck b = none → obValid (crBody b) = true → u32 (crBody b) 8 = s.obGeneration + 1 → s.obStored ≤ s.obGeneration →
      obRevoked.nat (crBody b) = s.ob.revoked.toNat → s.ob.minFw ≤ obMinFw.nat (crBody b) →
      s.ob.minStruct ≤ obMinStruct.nat (crBody b) → s.ob.minSite ≤ obMinSite.nat (crBody b) →
      s.keyEnable &&& obKeyEnable.nat (crBody b) = s.keyEnable ∨
        ({ s with ob := { s.ob with bytes := some (crBody b) } } : State).keysSafe
          ((bitsOf 6 s.keyEnable).any fun k => !(obKeyEnable.nat (crBody b)).testBit k && decide (4 ≤ k)) = true →
      s.log.devFailed = 0 → Completes (.optionUpdate r b) s fun t => t.fread 0 0 256 = crBody b ∧ t.fread 1 0 256 = crBody b ∧
        s.answers t r 0 0 0 ∧ s.onlyChanges [.flash0, .flash1, .mem, .ques, .ebx, .evt, .dram, .out] t) ∧
    (u8 b 6 = 3 → Completes (.keyProvision r b) s fun t => (∀ c, s.crCheck b = some c → s.answers t r c 0 0 ∧ t.flash0 = s.flash0) ∧
      (s.crCheck b = none → zeroAt (crBody b) 2 6 = false → s.answers t r 0x10 0 0)) ∧
    (∀ k, u8 b 6 = 3 → s.crCheck b = none → zeroAt (crBody b) 2 6 = true → u8 (crBody b) 1 < (if u8 (crBody b) 0 = 2 then 2 else 4) →
      s.ob.revoked.getLsbD (keyIdx (u8 (crBody b) 0) (u8 (crBody b) 1)) = false →
      s.provisioned (u8 (crBody b) 0) (u8 (crBody b) 1) = none → s.keyTables.head? = some k → s.log.devFailed = 0 →
      Completes (.keyProvision r b) s fun t =>
        t.fread 0 0x2000 832 = keyTableWith k (crBody b) (u8 (crBody b) 0) (u8 (crBody b) 1) ∧
        t.fread 1 0x2000 832 = keyTableWith k (crBody b) (u8 (crBody b) 0) (u8 (crBody b) 1) ∧
        t.ob = { s.ob with keyWritten := none } ∧ s.answers t r 0 0 0 ∧
        s.onlyChanges [.flash0, .flash1, .ob, .mem, .ques, .ebx, .evt, .dram, .out] t) ∧
    (u8 b 6 = 4 → Completes (.revminRestore r b) s fun t => (∀ c, s.crCheck b = some c → s.answers t r c 0 0 ∧ t.ob = s.ob) ∧
      (s.crCheck b = none → s.ob.revminLost = true → u32 (crBody b) 0 ≠ 0 → u32 (crBody b) 0 ≠ 0xFFFFFFFF → u8 (crBody b) 4 < 64 →
        zeroAt (crBody b) 5 3 = true → zeroAt (crBody b) 20 4 = true →
        u8 (crBody b) 4 &&& s.ob.revoked.toNat = s.ob.revoked.toNat → s.ob.minFw ≤ u32 (crBody b) 8 →
        s.ob.minStruct ≤ u32 (crBody b) 12 → s.ob.minSite ≤ u32 (crBody b) 16 → s.log.devFailed = 0 → s.boot.plasterHeld = false →
        t.ob = { s.ob with revminLost := false, keyWritten := none, revoked := BitVec.ofNat 6 (u8 (crBody b) 4), minFw := u32 (crBody b) 8,
                           minStruct := u32 (crBody b) 12, minSite := u32 (crBody b) 16 } ∧ s.answers t r 0 0 0)) ∧
    (u8 b 6 = 5 → Completes (.debugOpen r b) s fun t => (∀ c, s.crCheck b = some c → s.answers t r c 0 0 ∧ t.debug = s.debug) ∧
      (s.crCheck b = none → obDebug.nat s.optBytes ≠ 0 → s.boot.nonceLive = true → le (crBody b) 0 32 = s.boot.nonce.toNat →
        le (crBody b) 32 12 = Config.moduleSerial.toNat → (u8 (crBody b) 44 = 1 ∨ u8 (crBody b) 44 = 2) → zeroAt (crBody b) 45 5 = true →
        t.debug = (if u8 (crBody b) 44 = 2 ∨ obDebug.nat s.optBytes = 2 then 2 else 1) ∧ t.boot.nonceLive = false ∧
        s.answers t r 0 0 0))) ∧
  (s.imageRuns = true → s.updRefusal = none → u8 b 6 = 6 → Completes (.principalSet r b) s fun t =>
    (∀ c, s.crCheck b = some c → s.answers t r c 0 0 ∧ t.flash0 = s.flash0 ∧ t.flash1 = s.flash1) ∧
    (s.crCheck b = none → zeroAt (crBody b) 4 4 = true → u32 s.princTable 8 < u32 (crBody b) 0 → s.log.devFailed = 0 →
      u32 (t.fread 0 0x04920000 12) 8 = u32 (crBody b) 0 ∧ u32 (t.fread 1 0x04920000 12) 8 = u32 (crBody b) 0 ∧ s.answers t r 0 0 0)) ∧
  (∀ c, s.imageRuns = true → s.may r.principal .update = true → s.updRefusal = none → s.crCheck b = some c →
    Completes (.controlRecordRefused r b) s fun t => s.answers t r c 0 0 ∧
      t.boot = { s.boot with updStatus := c * 2 ^ 24 + 0x107 % 256 * 2 ^ 16 + u8 b 6 } ∧ t.ob = s.ob ∧ t.flash0 = s.flash0 ∧
      t.flash1 = s.flash1) ∧
  (∀ fe, s.imageRuns = true → s.boot.slot = 2 → s.updRefusal = none → Completes (.plasterImageReceived ⟨b, fe⟩) s fun t =>
    (∀ c, s.imgCheck b 1 slotSize (some s.ob.minFw) = some c → t.boot = { s.boot with updStatus := c * 2 ^ 24 + 2 ^ 16 } ∧
      t.flash0 = s.flash0 ∧ t.flash1 = s.flash1) ∧
    (∀ n, s.imgCheck b 1 slotSize (some s.ob.minFw) = none → imgBad b = some n →
      t.boot = { s.boot with updStatus := 0x17 * 2 ^ 24 + 2 ^ 16 + n } ∧ t.flash0 = s.flash0 ∧ t.flash1 = s.flash1) ∧
    (s.imgCheck b 1 slotSize (some s.ob.minFw) = none → imgBad b = none → fe = .fails →
      t.boot = { s.boot with updStatus := 0x32 * 2 ^ 24 + 2 ^ 16 + s.plasterTarget } ∧ t.led = s.led ∧ t.rst = s.rst) ∧
    (∀ n, s.imgCheck b 1 slotSize (some s.ob.minFw) = none → imgBad b = none → fe = .differs n →
      t.boot = { s.boot with updStatus := 0x17 * 2 ^ 24 + 2 ^ 16 + n } ∧ t.led = s.led ∧ t.rst = s.rst) ∧
    (s.imgCheck b 1 slotSize (some s.ob.minFw) = none → imgBad b = none → fe = .ok → s.plasterForcing = true →
      t.boot = { s.boot with plasterHeld := true } ∧
      t.led = { s.led with excluded := setBit s.led.excluded s.plasterTarget false, slotRun := (3, 0) }) ∧
    (s.imgCheck b 1 slotSize (some s.ob.minFw) = none → imgBad b = none → fe = .ok → s.plasterForcing = false → s.rst.under = none →
      t.rst.under = some .moduleReset ∨ (RKind.moduleReset, 6) ∈ t.rst.waiting)) ∧
  (s.inService = true → s.boot.identReady = true →
    Completes (.spdmGetVersion b) s (fun t => t = s.ingress.emit (.mgmt 143 (Config.spdmResponse 0x84 b [0x13]))) ∧
    Completes (.spdmGetCapabilities b) s (fun t => t = s.ingress.emit (.mgmt 143 (Config.spdmResponse 0xE1 b []))) ∧
    Completes (.spdmNegotiateAlgorithms b) s (fun t => t = s.ingress.emit (.mgmt 143 (Config.spdmResponse 0xE3 b []))) ∧
    Completes (.spdmGetDigests b) s (fun t => t = s.ingress.emit (.mgmt 143 (Config.spdmResponse 0x81 b (digestBytes (Config.sha384 (Config.certChain s.buildRecord)))))) ∧
    Completes (.spdmGetCertificate b) s (fun t => t = s.ingress.emit (.mgmt 143 (Config.spdmResponse 0x82 b (Config.certChain s.buildRecord)))) ∧
    Completes (.spdmChallenge b) s (fun t => t = s.ingress.emit (.mgmt 143 (Config.spdmResponse 0x83 b (Config.rsaSign b)))) ∧
    Completes (.spdmGetMeasurements b) s (fun t =>
      (∀ m, s.spdmBlocks b = some m → t = s.ingress.emit (.mgmt 143 (Config.spdmResponse 0xE0 b (m ++ Config.rsaSign (b ++ m))))) ∧
      (s.spdmBlocks b = none → t = s.ingress.emit (.mgmt 143 (spdmError 1))))) ∧
  (s.inService = true → s.boot.identReady = false →
    Completes (.spdmGetVersion b) s (fun t => t = s.ingress.emit (.mgmt 143 (spdmError 3)))) ∧
  (s.imageRuns = true → s.stepEnded 20 = false →
    Completes (.spdmGetVersion b) s (fun t =>
      (s.led.kind = .powerOn ∨ s.led.kind = .moduleReset → t = s.ingress.emit (.mgmt 143 (spdmError 3))) ∧
      (s.led.kind = .coreDie ∨ s.led.kind = .armature → t = s)))

/-- The Maquette load commands, what each records for the structure verifier, with CANCEL and SET_MIN_VERSION whole; the verifier's
end, the commit of a pending switch, and profile selection by pins (R58, R76, R79 to R83). -/
def Obligations.MaquetteCommandsTakeEffect : Prop :=
  (∀ (s : State) (r : Req) (e : Bytes),
  s.pwr.core = true → s.maq.op = none → s.maq.waiting = [] → s.may r.principal .struct = true →
  (∀ src, maqField e 1 = none → s.brace = false → s.snap.holdup = false →
    (∀ x, s.maq.pend = some x → x.profile ≠ u8 e 0x14) → Completes (.maqStore r e src) s fun t =>
      (∀ b, s.source (u64 e 8) (u32 e 0x10) src = some b →
        t = { s with maq := { s.maq with op := some { op := 1, req := r, profile := u8 e 0x14, data := b } } }) ∧
      (s.source (u64 e 8) (u32 e 0x10) src = none → s.answers t r (s.srcCode (u64 e 8)) 0 0 ∧ t.maq = s.maq)) ∧
  (maqField e 2 = none → (u8 s.optBytes 0xC).testBit 0 = false → s.brace = false → s.snap.holdup = false →
    Completes (.maqSwitch r e) s fun t =>
      t.maq = { s.maq with pend := none, blockers := 0
                           op := some { op := 2, req := r, profile := u8 e 0x14, mode := u8 e 0x15 } } ∧
      ∀ x, s.maq.pend = some x → x.byPins = false → x.queueLost = false → s.answers t x.req 0x33 0 0) ∧
  (maqField e 3 = none → Completes (.maqCancel r e) s fun t =>
    t.maq = { s.maq with pend := none, blockers := 0 } ∧ s.answers t r 0 0 0 ∧
    ∀ x, s.maq.pend = some x → x.byPins = false → x.queueLost = false → s.answers t x.req 0x34 0 0) ∧
  (maqField e 4 = none → Completes (.maqVerify r e) s fun t =>
    t = { s with maq := { s.maq with op := some { op := 4, req := r, profile := u8 e 0x14 } } }) ∧
  (maqField e 5 = none → s.brace = false → s.snap.holdup = false → s.protBusy = false → Completes (.maqSetMinVersion r e) s fun t =>
    (u32 e 0x18 ≤ s.ob.minStruct → s.answers t r 0 0 0 ∧ t.ob = s.ob) ∧
    (s.ob.minStruct < u32 e 0x18 → (∃ m, s.maq.live = some m ∧ m.version < u32 e 0x18) → s.answers t r 0x23 0 0 ∧ t.ob = s.ob) ∧
    (s.ob.minStruct < u32 e 0x18 → (∀ m, s.maq.live = some m → u32 e 0x18 ≤ m.version) →
      (({ s with ob := { s.ob with minStruct := u32 e 0x18 } } : State).validMaq 0).isSome = true → s.log.devFailed = 0 →
      s.answers t r 0 0 0 ∧ t.ob = { s.ob with minStruct := u32 e 0x18 }))) ∧
  (∀ (s : State) (r : Req) (e : Bytes), s.pwr.core = true → s.maq.op.isSome = true ∨ s.maq.waiting ≠ [] →
  (∀ src, Completes (.maqStore r e src) s fun t => t = { s with maq := { s.maq with waiting := s.maq.waiting ++ [(r, e, src)] } }) ∧
  Completes (.maqSwitch r e) s (fun t => t = { s with maq := { s.maq with waiting := s.maq.waiting ++ [(r, e, none)] } }) ∧
  Completes (.maqCancel r e) s (fun t => t = { s with maq := { s.maq with waiting := s.maq.waiting ++ [(r, e, none)] } }) ∧
  Completes (.maqVerify r e) s (fun t => t = { s with maq := { s.maq with waiting := s.maq.waiting ++ [(r, e, none)] } }) ∧
  Completes (.maqSetMinVersion r e) s (fun t => t = { s with maq := { s.maq with waiting := s.maq.waiting ++ [(r, e, none)] } })) ∧
  (∀ (s : State) (r : Req) (e : Bytes), s.pwr.core = true → s.protBusy = true → Completes (.maqSetMinVersion r e) s fun t =>
    t = { s with maq := { s.maq with waiting := s.maq.waiting ++ [(r, e, none)] } }) ∧
  (∀ s : State, s.pwr.standby = true →
  (∀ o ok, s.maq.op = some o → s.maq.pinsNext = none → s.maq.waiting = [] → s.brace = false →
    Completes (.maqVerifyComplete ok) s fun t => t.ob = s.ob ∧ (o.op ≠ 2 → t.pwr = s.pwr) ∧
    (o.op = 1 → o.copy = none →
      (s.mqCheck o.data (some o.data.length) = none → t.maq = { s.maq with op := some { o with copy := some 0 } } ∧ t.out = s.out ∧
        ∀ c, (profCopies o.profile)[0]? = some c → t.isErased c.1 c.2 64 = true) ∧
      (∀ x, s.mqCheck o.data (some o.data.length) = some x → x.1 ≠ 0x38 → s.answers t o.req x.1 (x.2 % 2 ^ 32) 0 ∧ t.maq.op = none ∧
        t.flash0 = s.flash0 ∧ t.flash1 = s.flash1 ∧ t.maq.errCode = x.1 ∧ t.maq.errWhere = x.2)) ∧
    (∀ k, o.op = 1 → o.copy = some k →
      (ok = true → (profCopies o.profile).length ≤ k + 1 → s.answers t o.req 0 0 0 ∧ t.maq.live = s.maq.live ∧ t.maq.op = none) ∧
      (ok = true → k + 1 < (profCopies o.profile).length → s.pins.eject = false →
        t.maq = { s.maq with op := some { o with copy := some (k + 1) } } ∧ t.out = s.out) ∧
      (ok = false → s.answers t o.req 0x32 0 0 ∧ t.maq.op = none)) ∧
    (o.op = 2 → o.byPins = false → o.queueLost = false → ∀ b, (s.loadCopies o.profile).2 = some b → o.mode ≠ 2 → t.maq.op = none ∧
      (s.blocking (mqStructure b) = 0 → s.answers t o.req 0 0 0 ∧ t.maq.live = some (mqStructure b) ∧
        t.maq.activeProfile = o.profile) ∧
      (s.blocking (mqStructure b) ≠ 0 → o.mode = 0 → s.answers t o.req 0x30 (s.blocking (mqStructure b) % 2 ^ 32) 0 ∧
        t.maq.live = s.maq.live ∧ t.maq.blockers = s.blocking (mqStructure b))) ∧
    (o.op = 4 → t.maq.op = none ∧ t.maq.live = s.maq.live ∧ t.maq.pend = s.maq.pend ∧ t.flash0 = s.flash0 ∧ t.flash1 = s.flash1 ∧
      ((s.profChecks o.profile).any Option.isNone = true → s.answers t o.req 0 0 0))) ∧
  (∀ x, s.maq.pend = some x → s.blocking x.target = 0 → Completes .maqStagedCommit s fun t =>
    t.maq.live = some x.target ∧ t.maq.activeProfile = x.profile ∧ t.maq.pend = none ∧ t.maq.blockers = 0 ∧
    (x.byPins = false → x.queueLost = false → s.answers t x.req 0 0 0)) ∧
  (∀ v, s.pins.profile.toNat ≠ v % 4 → s.maq.op = none → Completes (.profilePinsStable v) s fun t =>
    t.pins = { s.pins with profile := BitVec.ofNat 2 v } ∧
    ((u8 s.optBytes 0xC).testBit 0 = false → t.maq = s.maq) ∧
    ((u8 s.optBytes 0xC).testBit 0 = true → t.maq.pend = none ∧ t.maq.live = s.maq.live ∧
      ∃ o, t.maq.op = some o ∧ o.op = 2 ∧ o.mode = 1 ∧ o.byPins = true ∧ o.profile = v % 4)))

/-- SITE_CMD (R165, R168): each command in a state that admits it, its status, and the commands turned away. -/
def Obligations.SiteCommandsTakeEffect : Prop := ∀ (s : State) (r : Req) (n : Nat),
  s.pwr.core = true → s.may r.principal .sitePower = true →
  (n < 8 → s.maq.live.isSome = true → s.reacting n = false →
    (s.leakHeld n = false → s.upBarred n = false → s.snap.holdup = false → ((s.site n).st = .off ∨ (s.site n).st = .degraded) →
      Completes (.siteUp r n) s fun t => t = (s.siteUp n 1).siteDone r n 0 ∧ s.answers t r 0 0 0 ∧
        t.seq.cmdStatus = 0 ∧ t.seq.cmdSite = n) ∧
    (s.leakHeld n = false → (s.site n).st = .faulted → Completes (.siteUp r n) s fun t => t = s.siteDone r n 0x52 ∧ s.answers t r 0x52 0 0) ∧
    ((s.site n).st = .running → Completes (.siteDown r n) s fun t =>
      t = ((s.siteDownSeq n false).settle (32 * n)).siteDone r n 0 ∧ t.seq.cmdStatus = 0 ∧ t.seq.cmdSite = n) ∧
    ((s.site n).st = .retryWait → Completes (.siteDown r n) s fun t => (t.site n).st = .off ∧ s.answers t r 0 0 0 ∧
      t.seq.rails = s.seq.rails) ∧
    ((s.site n).st = .off → Completes (.siteDown r n) s fun t => t = s.siteDone r n 0 ∧ s.answers t r 0 0 0) ∧
    ((s.site n).st = .faulted → (s.site n).stale = false → Completes (.siteClear r n) s fun t =>
      t.site n = { s.site n with st := .off } ∧ s.answers t r 0 0 0) ∧
    ((s.site n).st = .faulted → (s.site n).stale = true → s.hasSec 0x02 = true → Completes (.siteClear r n) s fun t =>
      t.site n = { s.site n with st := .identifying, romReads := 0 } ∧ s.answers t r 0 0 0) ∧
    ((s.site n).st ≠ .faulted → Completes (.siteClear r n) s fun t => t = s.siteDone r n 0x53 ∧ s.answers t r 0x53 0 0) ∧
    ((s.site n).st = .unadopted → s.seq.sysReset = false → Completes (.siteAdopt r n) s fun t =>
      (t.site n).driven = true ∧ t.seq.cmdStatus = 0 ∧ t.seq.cmdSite = n ∧
      ((t.site n).st = .seqDown ∨ (t.site n).st = .off)) ∧
    (((s.site n).st = .off ∨ (s.site n).st = .unmatched) → s.hasSec 0x02 = true → Completes (.siteIdentify r n) s fun t =>
      t.site n = { s.site n with st := .identifying, romReads := 0 } ∧ s.answers t r 0 0 0)) ∧
  (∀ code, (code = 0 ∨ 6 ≤ code) → Completes (.siteCmdInvalid r n code) s fun t => t = s.siteDone r n 0x10 ∧ s.answers t r 0x10 0 0 ∧
    t.seq.cmdStatus = 0x10)

/-- Presence, identification, adoption and retries of a site (R162 to R168). -/
def Obligations.SitePresenceAndIdentityTakeEffect : Prop := ∀ (s : State) (n : Nat), n < 8 → s.pwr.standby = true →
  (Completes (.sitePresentAsserted n) s fun t =>
    t.pins = { s.pins with present := setBit s.pins.present n true } ∧
    ((s.site n).st = .absent → s.maq.live.isSome = true → s.pwr.absent.getLsbD (24 + n) = false → t.site n = { s.site n with st := .settling }) ∧
    ((s.site n).st ≠ .absent → t.seq = s.seq)) ∧
  ((s.site n).st = .settling → s.pins.present.getLsbD n = true → s.pwr.absent.getLsbD (24 + n) = false →
    Completes (.siteSettleExpiry n) s fun t =>
      (s.hasSec 0x02 = true → t.site n = { s.site n with st := .identifying, romReads := 0 }) ∧
      (s.hasSec 0x02 = false → t.site n = { s.site n with st := .unmatched, romReads := 0, template := 0xFF })) ∧
  (∀ rom, (s.site n).st = .identifying → (s.site n).romReads = 0 → Completes (.siteIdentityRead n rom) s fun t =>
    (romOk rom = false → t.site n = { s.site n with romReads := 1 } ∧ s.onlyChanges [.seq] t) ∧
    (romOk rom = true → s.matchTpl n rom = none →
      t.site n = { s.site n with st := .unmatched, template := 0xFF, rom := rom, romReads := 0 }) ∧
    (∀ p, romOk rom = true → s.matchTpl n rom = some p → tplAutoUp (tplOf (s.sec 0x02) p) = false →
      t.site n = { s.site n with st := .off, template := p, stale := false, rom := rom, romReads := 0 })) ∧
  (∀ rom, (s.site n).st = .identifying → (s.site n).romReads = 2 → Completes (.siteIdromRereadTimer n rom) s fun t =>
    (romOk rom = false → t.site n = { s.site n with st := .unmatched, template := 0xFF, rom := [], romReads := 0 }) ∧
    (romOk rom = true → s.matchTpl n rom = none →
      t.site n = { s.site n with st := .unmatched, template := 0xFF, rom := rom, romReads := 0 })) ∧
  (∀ rom, (s.site n).romReads = 0 → Completes (.siteIdromRereadTimer n rom) s fun t => t = s) ∧
  (Completes (.sitePresenceLost n) s fun t => t.pins = { s.pins with present := setBit s.pins.present n false } ∧
    ((s.site n).st = .settling → t.site n = { s.site n with st := .absent }) ∧
    ((s.site n).st = .running → s.seq.sysReset = false → (t.site n).st = .absent ∧ (t.site n).template = 0xFF ∧
      (t.site n).driven = false ∧ (t.site n).reaction = false ∧
      ∀ k, k < 32 → (t.rail (32 * n + k)).enable = false ∧ (t.rail (32 * n + k)).st = .off)) ∧
  ((s.site n).st = .retryWait → s.snap.holdup = false → (s.seq.sysReset && s.seq.sysSites.getLsbD n) = false →
    s.upBarred n = false → Completes (.siteRetryWaitExpiry n) s fun t =>
    t = s.siteUp n ((s.site n).attempt + 1)) ∧
  ((s.site n).st = .retryWait → s.snap.holdup = true → Completes (.siteRetryWaitExpiry n) s fun t => t = s) ∧
  (∀ rom good off latched ep digest version, s.seq.toAdopt.getLsbD n = true → s.pair.st = .lead → s.maq.live.isSome = true →
    s.pwr.absent.getLsbD (24 + n) = false → s.rst.wardenHeld.getLsbD n = false →
    Completes (.siteAdoption n rom good off latched ep digest version) s fun t =>
      t.seq.toAdopt = setBit s.seq.toAdopt n false ∧
      (s.pins.present.getLsbD n = false → (t.site n).st = .absent) ∧
      (s.pins.present.getLsbD n = true → (romOk rom = false ∨ s.matchTpl n rom = none) →
        (t.site n).st = .unadopted ∧ (t.site n).driven = false ∧ (t.site n).template = 0xFF) ∧
      (∀ p, s.pins.present.getLsbD n = true → romOk rom = true → s.matchTpl n rom = some p → (t.site n).template = p ∧
        (t.site n).rom = rom ∧ ((t.site n).st = .running ∨ (t.site n).st = .off ∨ (t.site n).st = .unadopted) ∧
        ((∀ k, k < 32 → good.testBit k = true) → s.leftSites.testBit n = false → (t.site n).st = .running ∧ (t.site n).driven = true)))

/-- Warden resets and TRAY_RESET (R95, R96, R154, R168). -/
def Obligations.WardenResetsTakeEffect : Prop := ∀ (s : State) (w : Nat), s.pwr.standby = true → w < 8 →
  (∀ c code, c ∈ [(Instr.wardenBrownout w, 0x20), (.wardenSupervisorReset w, 0x21)] → c.2 = code → Completes c.1 s fun t =>
    t.rst = { s.rst with wardenLast := Tbl.set s.rst.wardenLast w ⟨BitVec.ofNat 8 code, 1, BitVec.ofNat 48 s.plinth⟩
                         wardenHeld := setBit s.rst.wardenHeld w true } ∧
    (t.site w).st = (if s.pins.present.getLsbD w then .unadopted else .absent) ∧ (t.site w).driven = false ∧
    (∀ k, k < 32 → (t.rail (32 * w + k)).enable = false ∧ (t.rail (32 * w + k)).st = .off) ∧ t.seq.toAdopt = s.seq.toAdopt) ∧
  (Completes (.wardenReload w) s fun t =>
    t.rst = { s.rst with wardenLast := Tbl.set s.rst.wardenLast w ⟨0x22#8, 1, BitVec.ofNat 48 s.plinth⟩
                         wardenHeld := setBit (setBit s.rst.wardenHeld w true) w false } ∧
    t.seq.toAdopt = setBit s.seq.toAdopt w true ∧ (t.site w).driven = false) ∧
  (s.rst.wardenHeld.getLsbD w = true → Completes (.wardenResetRelease w) s fun t =>
    t = { s with rst := { s.rst with wardenHeld := setBit s.rst.wardenHeld w false }
                 seq := { s.seq with toAdopt := setBit s.seq.toAdopt w true } }) ∧
  (s.seq.trayReset = true → Completes .trayResetWidthExpiry s fun t => t.seq.sysReset = false ∧ t.seq.trayReset = false ∧
    (s.seq.sysSites = 0 → t = { s with seq := { s.seq with sysReset := false, trayReset := false }, out := .line 154 0 :: s.out }) ∧
    ∀ n, n < 8 → s.seq.sysSites.getLsbD n = true → (s.site n).st.reset = true → (t.site n).st = .faulted)

/-- The rails' timers, inputs and PMBus writes (R148 to R155). -/
def Obligations.RailEventsTakeEffect : Prop := ∀ (s : State) (g : Nat), s.pwr.standby = true →
  ((s.rail g).st = .upDelay → (s.rail g).downReq = false → Completes (.railUpDelayExpiry g) s fun t =>
    t = (s.moveRail g (s.rail g).enableNow).settle g) ∧
  (∀ level, ndPgKind.nat (s.node g) = 1 → Completes (.railPgChange g level) s fun t => t = s) ∧
  (∀ level, ndPgKind.nat (s.node g) ≠ 1 → Completes (.railPgChange g level) s fun t =>
    t = (s.pgLine g).foldl (fun (s : State) h => s.pgChange h (level != ndPgLow (s.node h))) s ∧ g ∈ s.pgLine g) ∧
  (∀ wire level, ndPgKind.nat (s.node g) ≠ 1 → s.pgLine g = [g] → level = (wire != ndPgLow (s.node g)) → (s.rail g).pg = level →
    Completes (.railPgChange g wire) s fun t => t = s) ∧
  (∀ wire level, ndPgKind.nat (s.node g) ≠ 1 → s.pgLine g = [g] → level = (wire != ndPgLow (s.node g)) → (s.rail g).pg ≠ level →
    Completes (.railPgChange g wire) s fun t =>
    ((s.rail g).st = .good → t = (s.setRail g { s.rail g with pg := level, qualified := false, fresh := false }).settle g) ∧
    ((s.rail g).st = .rising → (s.rail g).changes + 1 ≤ ndChatter.nat (s.node g) →
      t = (s.setRail g { s.rail g with pg := level, qualified := false, fresh := false, changes := (s.rail g).changes + 1 }).settle g) ∧
    ((s.rail g).st = .rising → ndChatter.nat (s.node g) < (s.rail g).changes + 1 →
      t = (s.setRail g { s.rail g with pg := level, qualified := false, fresh := false
                                       changes := (s.rail g).changes + 1 }).stepFail g .chatter)) ∧
  ((s.rail g).pg = true → Completes (.railQualifyExpiry g) s fun t =>
    t = ((s.setRail g { s.rail g with qualified := true, masked := (s.rail g).masked && s.retryAbove g }).settle g).armBack) ∧
  ((s.rail g).st = .rising → (s.rail g).inRetry = false → Completes (.railRiseTimeout g) s fun t =>
    t = s.stepFail g .seqFail ∧ (((s.rail g).masked && (s.rail g).chatterDone) = true → t = s) ∧
      (((s.rail g).masked && (s.rail g).chatterDone) = false → t.rcnt = (s.countRail g 5).rcnt)) ∧
  (∀ u : State, (s.rail g).st = .good → s.supervised g = true → (s.rail g).pg = false → (s.rail g).surveyAt ≠ some s.plinth →
    (s.rail g).pgLossAt.all (fun x => x.1 != s.plinth) = true →
    (∀ c, s.chanOf g 1 = some c → (s.chan c).stale = true ∨ (s.chan c).out = 0) →
    u = s.setRail g { s.rail g with pgLossAt := some (s.plinth,
      (Tbl.get ((0, 0, 0) : Nat × Nat × Nat) s.snap.sums ((siteOf g).getD 8)).1.testBit (g - scopeBase g)) } →
    Completes (.railPgLossTimer g) s fun t => t = u.goodFault g .pgLoss ∧
      (ndReaction.nat (s.node g) = 0 → t.rcnt = (s.countRail g 1).rcnt ∧ t.seq = u.seq)) ∧
  (s.supervised g = false → (s.rail g).st = .good → Completes (.railPgLossTimer g) s fun t => t = s) ∧
  ((s.rail g).st = .downDelay → Completes (.railDownDelayExpiry g) s fun t =>
    t = (s.moveRail g ((s.rail g).disableNow .falling)).settle g) ∧
  ((s.rail g).st = .falling → Completes (.railFallTimeout g) s fun t =>
    t = (s.downfault g 1).settle g ∧ t.rcnt = (s.countRail g 6).rcnt) ∧
  ((s.rail g).st = .retryFall → Completes (.railFallTimeout g) s fun t => t = ((s.downfault g 1).groupShutdown g).settle g) ∧
  ((s.rail g).st = .backoff → s.snap.holdup = true → Completes (.railBackoffExpiry g) s fun t =>
    t = s.setRail g { s.rail g with backoffDone := true }) ∧
  ((s.rail g).st = .backoff → s.snap.holdup = false → Completes (.railBackoffExpiry g) s fun t =>
    (ndUpDelay.val (s.node g) ≠ 0 → t = (s.moveRail g { s.rail g with st := .upDelay, backoffDone := false }).settle g) ∧
    (ndUpDelay.val (s.node g) = 0 → (s.rail g).downReq = false →
      t = (s.moveRail g ({ s.rail g with st := .upDelay, backoffDone := false } : Rail).enableNow).settle g)) ∧
  ((s.rail g).st = .good → Completes (.railRetryCountReset g) s fun t => t = s.setRail g { s.rail g with retries := 0 }) ∧
  (ndEnableKind.nat (s.node g) = 1 → Completes (.pmbusWriteDone g true) s (fun t => t = s.setRail g { s.rail g with pmbusTries := 0 }) ∧
    ((s.rail g).pmbusTries < 2 → Completes (.pmbusWriteDone g false) s fun t =>
      t = (s.setRail g { s.rail g with pmbusTries := (s.rail g).pmbusTries + 1 }).pmbusWrite g (s.rail g).enable) ∧
    (2 ≤ (s.rail g).pmbusTries → (s.rail g).st = .rising → Completes (.pmbusWriteDone g false) s fun t =>
      t = (s.setRail g { s.rail g with pmbusTries := 0 }).stepFail g .seqFail)) ∧
  (ndPgKind.nat (s.node g) = 1 →
    (∀ w, (s.rail g).pg = !w.testBit 11 → Completes (.pmbusPgPoll g (some w)) s fun t => t = s.setRail g { s.rail g with pollFails := 0 }) ∧
    ((s.rail g).pollFails < 2 → Completes (.pmbusPgPoll g none) s fun t =>
      t = s.setRail g { s.rail g with pollFails := (s.rail g).pollFails + 1 }) ∧
    (2 ≤ (s.rail g).pollFails → Completes (.pmbusPgPoll g none) s fun t =>
      t = (s.setRail g { s.rail g with pollFails := 0 }).pgChange g false))

/-- The Survey converter: samples, reference slots, scans, stale channels and the rail counters' clear (R35, R37, R174 to R177,
R183). -/
def Obligations.SurveyCommandsTakeEffect : Prop := ∀ s : State, s.pwr.standby = true →
  (∀ die slot code held, die < 16 → 2 ≤ slot → slot < 26 → s.pwr.absent.getLsbD (8 + die) = false → s.refFailed die = false →
    (mapKind (mapEntry s.surveyMap (24 * die + (slot - 2))) = 4 → s.supplyOff (24 * die + (slot - 2)) = false) →
    Completes (.surveySample die slot ⟨code, held⟩) s fun t =>
      (t.chan (24 * die + (slot - 2))).raw = code ∧ (t.chan (24 * die + (slot - 2))).stale = false ∧
      (s.maq.live.isSome = true ∨ mapKind (mapEntry s.surveyMap (24 * die + (slot - 2))) = 0 →
        (t.chan (24 * die + (slot - 2))).value = (s.chan (24 * die + (slot - 2))).convert
          (mapKind (mapEntry s.surveyMap (24 * die + (slot - 2)))) code) ∧
      (s.maq.live = none → mapKind (mapEntry s.surveyMap (24 * die + (slot - 2))) ≠ 0 →
        (t.chan (24 * die + (slot - 2))).value = ((s.calSet s.mcal (24 * die + (slot - 2))).chan (24 * die + (slot - 2))).convert
          (mapKind (mapEntry s.surveyMap (24 * die + (slot - 2)))) code) ∧
      (mapKind (mapEntry s.surveyMap (24 * die + (slot - 2))) = 0 → s.seq.armOwed = false → s.onlyChanges [.svy] t)) ∧
  (∀ die slot code held, die < 16 → 2 ≤ slot → slot < 26 → s.pwr.absent.getLsbD (8 + die) = false → s.refFailed die = false →
    mapKind (mapEntry s.surveyMap (24 * die + (slot - 2))) = 4 → s.supplyOff (24 * die + (slot - 2)) = true → s.seq.armOwed = false →
    Completes (.surveySample die slot ⟨code, held⟩) s fun t => t = s) ∧
  (∀ die slot code held, die < 16 → slot < 2 → s.pwr.absent.getLsbD (8 + die) = false →
    Completes (.surveySample die slot ⟨code, held⟩) s fun t =>
      t.svy.winOld = (if slot = 0 then Tbl.del s.svy.winOld die else s.svy.winOld) ∧
      (refOk slot code = true → t = { s with svy := { s.svy with refBad := Tbl.set s.svy.refBad (16 * slot + die) 0
                                                                 winOld := t.svy.winOld } }) ∧
      (refOk slot code = false → Tbl.get 0 s.svy.refBad (16 * slot + die) < 2 →
        t = { s with svy := { s.svy with refBad := Tbl.set s.svy.refBad (16 * slot + die)
                                                     (Tbl.get 0 s.svy.refBad (16 * slot + die) + 1)
                                         winOld := t.svy.winOld } }) ∧
      (refOk slot code = false → Tbl.get 0 s.svy.refBad (16 * slot + die) = 2 →
        Tbl.get 0 t.svy.refBad (16 * slot + die) = 3 ∧ ∀ i, i < 24 → (t.chan (24 * die + i)).stale = true) ∧
      (refOk slot code = false → 2 < Tbl.get 0 s.svy.refBad (16 * slot + die) →
        t = { s with svy := { s.svy with winOld := t.svy.winOld } })) ∧
  (∀ die slot code held, 2 ≤ slot → s.refFailed die = true → Completes (.surveySample die slot ⟨code, held⟩) s fun t => t = s) ∧
  (∀ die slot code held, (16 ≤ die ∨ 26 ≤ slot ∨ s.pwr.absent.getLsbD (8 + die) = true) →
    Completes (.surveySample die slot ⟨code, held⟩) s fun t => t = s) ∧
  (∀ die, s.dieIdle die = true → Completes (.surveySlowScanTimer die) s fun t =>
    t = { s with pwr := { s.pwr with slowScan := setBit s.pwr.slowScan die true, clkReq := setBit s.pwr.clkReq 0 true, rcOsc := true } }) ∧
  (∀ die, s.dieIdle die = false → Completes (.surveySlowScanTimer die) s fun t =>
    t = { s with pwr := { s.pwr with slowScan := setBit s.pwr.slowScan die false, clkReq := setBit s.pwr.clkReq 0 true, rcOsc := true } }) ∧
  (∀ ch, Completes (.surveyStaleTimeout ch) s fun t => (t.chan ch).stale = true ∧ (t.chan ch).value = (s.chan ch).value ∧
    s.onlyChanges [.svy, .log, .evt] t) ∧
  (∀ die, Completes (.surveyBusTimeout die) s fun t => (∀ i, i < 24 → (t.chan (24 * die + i)).stale = true) ∧
    (∀ c, (c < 24 * die ∨ 24 * die + 24 ≤ c) → t.chan c = s.chan c) ∧ s.onlyChanges [.svy, .log, .evt] t) ∧
  (∀ (r : Req) rail mask, s.may r.principal .counterClear = true → rail < 280 → Completes (.railCntClr r rail mask) s fun t =>
    t = s.setRailCnt rail { cnt := (s.railCnt rail).cnt.filter fun e => !(mask.testBit e.1), dirty := true } ∧
    ∀ k, mask.testBit k = true → Tbl.get ({} : Cnt) (t.railCnt rail).cnt k = {}) ∧
  (∀ (r : Req) rail mask, s.may r.principal .counterClear = false → Completes (.railCntClr r rail mask) s fun t =>
    t.rcnt = s.rcnt ∧ s.onlyChanges [.log, .evt, .mgt] t)

/-- Clocks, lockstep and module groups (R34 to R37, R160, R434). -/
def Obligations.ClocksAndDomainsTakeEffect : Prop := ∀ s : State, s.pwr.standby = true →
  (∀ clk, (clk = 0 ∨ s.pwr.core = true) →
    (∀ u : State, ¬ (clk = 3 ∧ s.mem.shed = true) →
      u = { s with pwr := { s.pwr with clkReq := setBit s.pwr.clkReq clk true, clkGrant := setBit s.pwr.clkGrant clk true
                                       rcOsc := s.pwr.rcOsc || clk == 0, armFaults := if clk = 1 then 0 else s.pwr.armFaults } } →
      Completes (.clockGrant clk) s fun t => t.pwr = u.pwr ∧
      (clk = 1 → t = { u with evt := { s.evt with wake := false }, ebx := { s.ebx with wake := false } }) ∧
      (clk = 2 → t = u.calNext) ∧
      (clk = 3 → t = { u with mem := { s.mem with wake := false } }) ∧ (clk = 0 ∨ 4 ≤ clk → t = u)) ∧
    (clk = 3 → s.mem.shed = true → Completes (.clockGrant clk) s fun t => t = s) ∧
    (s.clkNeeded clk = true → Completes (.clockIdleExpiry clk) s fun t => t = s) ∧
    (s.clkNeeded clk = false → Completes (.clockIdleExpiry clk) s fun t => t = { s with pwr := { s.pwr with
      clkReq := setBit s.pwr.clkReq clk false, clkGrant := setBit s.pwr.clkGrant clk false } })) ∧
  (s.oscNeeded = false → Completes .rcOscStopExpiry s fun t => t.pwr = { s.pwr with rcOsc := false } ∧
    t.cool = { s.cool with fans := s.cool.fans.map fun e => (e.1, { e.2 with duty := if e.2.duty = 0 then 0 else 0xFFFF }) } ∧
    s.onlyChanges [.pwr, .cool, .out] t) ∧
  (s.oscNeeded = true → Completes .rcOscStopExpiry s fun t => t = s) ∧
  (∀ die, Completes (.clockGrantTimeout 0 die) s fun t =>
    t.pwr = { s.pwr with clkFault := Tbl.set s.pwr.clkFault 0 (Tbl.get {} s.pwr.clkFault 0).inc.1
                         clkReq := if s.clkNeeded 0 then setBit (setBit s.pwr.clkReq 0 false) 0 true else setBit s.pwr.clkReq 0 false
                         clkGrant := setBit s.pwr.clkGrant 0 false } ∧
    ∀ i, i < 24 → (t.chan (24 * die + i)).stale = true) ∧
  (∀ die, s.pwr.core = true → s.pwr.armFaults < 2 → Completes (.clockGrantTimeout 1 die) s fun t =>
    t.pwr = { s.pwr with clkFault := Tbl.set s.pwr.clkFault 1 (Tbl.get {} s.pwr.clkFault 1).inc.1
                         clkReq := setBit s.pwr.clkReq 1 false, clkGrant := setBit s.pwr.clkGrant 1 false
                         armFaults := s.pwr.armFaults + 1 } ∧ s.onlyChanges [.pwr, .evt] t) ∧
  (∀ die, s.pwr.core = true → Completes (.clockGrantTimeout 2 die) s fun t =>
    t.pwr.clkFault = Tbl.set s.pwr.clkFault 2 (Tbl.get {} s.pwr.clkFault 2).inc.1 ∧ t.pwr.calFenced = true ∧
    t.pwr.calClkFault = true ∧ t.pwr.caliper = false ∧ ∀ n, n < 8 → (t.slot n).jobs = []) ∧
  (∀ p, p < 4 → s.pwr.core = true → s.pwr.armature = true → s.pwr.pairFailed.getLsbD p = false → s.rst.under = none →
    ((s.rst.wdtTimes.filter fun w => decide (s.plinth < w + secs 600)).take 2).length < 2 →
    Completes (.lockstepMismatch p) s fun t => s.Restarted t 4 .armature ∧ t.pwr.pairFailed.getLsbD p = true) ∧
  (∀ (group : Nat) (g : ModGroup), Tbl.get {} s.seq.groups group = g → g.waiting = true → g.latched = false →
    (∀ k, k < 24 → g.mask.getLsbD k = true → (s.rail (256 + k)).st = .off) →
    Completes (.moduleGroupResequence group) s fun t =>
      (g.mask.getLsbD 6 = false → g.mask.getLsbD 7 = false → g.mask.getLsbD 8 = false → g.mask.getLsbD 12 = false →
        g.mask.getLsbD 13 = false →
        t = (({ s with seq := { s.seq with groups := Tbl.set s.seq.groups group { g with waiting := false } } } : State).orderUp
          256 24 g.mask.toNat).settle 256) ∧
      (g.mask.getLsbD 6 = false → g.mask.getLsbD 7 = false → g.mask.getLsbD 8 = false → g.mask.getLsbD 12 = true →
        s.pwr.core = true → t.pwr.fabric = true) ∧
      (g.mask.getLsbD 6 = true → t.rst.under = some .coreDie ∧ t.rst.rstCause = s.rst.rstCause ∧ t.boot.run = none) ∧
      (∀ u, u = (({ s with seq := { s.seq with groups := Tbl.set s.seq.groups group { g with waiting := false } } } : State).orderUp
          256 24 g.mask.toNat).settle 256 → g.mask.getLsbD 6 = false → g.mask.getLsbD 7 = false → g.mask.getLsbD 8 = true →
        ((u.rail 264).st ≠ .good → t = { u with seq := { u.seq with armOwed := true } }) ∧
        ((u.rail 264).st = .good → t.rst.under = some .armature ∧ t.rst.rstCause = s.rst.rstCause ∧ t.boot.run = none ∧
          t.seq.armOwed = false)))

/-- Hold-up, the Hold window, the end of Brace and the junction sensors (R169, R200 to R203, R238, R289, R316, R319, R320). -/
def Obligations.HoldupBraceAndJunctionTakeEffect : Prop := ∀ s : State, s.pwr.standby = true →
  (∀ v, s.snap.holdup = false → Completes (.holdupBegin v) s fun t =>
    t.snap.holdup = true ∧ t.snap.holdStart = s.plinth ∧ t.snap.minBus = (s.busCorrect v s.met.busI).1 ∧
    t.snap.busV = (s.busCorrect v s.met.busI).1 ∧ t.boot.pushes = [] ∧
    t.boot.upd = none ∧ (∀ n, n < 8 → (t.slot n).jobs = []) ∧
    ∀ n, n < 8 → s.seq.sysReset = false → (s.site n).st = .retryWait → (t.site n).st = .off) ∧
  (∀ v, s.snap.holdup = true → Completes (.holdupBegin v) s fun t =>
    t = s.busSeen (s.busCorrect v s.met.busI).1 s.met.busI ∧
    t.snap = { s.snap with busV := (s.busCorrect v s.met.busI).1, minBus := min s.snap.minBus (s.busCorrect v s.met.busI).1 }) ∧
  (s.snap.holdup = true → Completes .holdupEnd s fun t => t.snap.holdup = false ∧ t.snap.held = 0 ∧ t.snap.flushing = false ∧
    t.snap.sums = []) ∧
  (s.snap.holdup = false → Completes .holdupEnd s fun t => t = s) ∧
  (s.pair.holdState = 1 → Completes .holdWindowExpiry s fun t => t.pair = { s.pair with holdState := 2 } ∧
    ((s.stepEnded 11 && s.boot.run.isSome) = false → t.cool.hold = true) ∧
    ((s.stepEnded 11 && s.boot.run.isSome) = true → t.cool = s.cool)) ∧
  (s.haz.brace = true → s.haz.pga < hzNote.nat s.braceSec →
    s.haz.braceQuiet.getD s.haz.braceAt + secs (hzHold.nat s.braceSec) ≤ s.plinth →
    s.since s.haz.lastReq (secs (hzHold.nat s.braceSec)) = true →
    Completes .braceHoldExpiry s fun t => t.haz = { s.haz with brace := false, causeAcc := false, causeReq := false, braceSec := [] }) ∧
  (s.haz.brace = true → (hzNote.nat s.braceSec ≤ s.haz.pga ∨
      s.plinth < s.haz.braceQuiet.getD s.haz.braceAt + secs (hzHold.nat s.braceSec) ∨
      s.since s.haz.lastReq (secs (hzHold.nat s.braceSec)) = false) → Completes .braceHoldExpiry s fun t => t = s) ∧
  (∀ l : List Int, s.pwr.core = true → 2 ≤ l.length → l.length ≤ 4 → (∀ v ∈ l, -640 ≤ v ∧ v ≤ 2400) →
    (∀ v ∈ l, v < obTjStop.val s.optBytes ∧ v ≤ obTjReset.val s.optBytes) → Completes (.tjSample (l.map some)) s fun t =>
      t = { s with haz := { s.haz with tjRead := l.map some, tjCore := l.foldl max (-640), tjFault := false } }) ∧
  (∀ v : Int, s.pwr.core = true → s.haz.tjState = 0 → -640 ≤ v → v ≤ 2400 → obTjStop.val s.optBytes ≤ v →
    v ≤ obTjReset.val s.optBytes → Completes (.tjSample [some v, some v, some v, some v]) s fun t =>
      t.haz.tjState = 1 ∧ t.haz.tjCore = v ∧ t.boot.run = none ∧ t.pwr.armature = false ∧ t.pair.holdState = 1) ∧
  (s.haz.tjState = 1 → s.haz.tjCore < obTjStop.val s.optBytes - 160 → Completes .tjStopReleaseTimer s fun t =>
    t.haz = { s.haz with tjState := 0 } ∧ t.rst.under = some .armature ∧ t.rst.rstCause = s.rst.rstCause ∧ t.stepRuns 9 = true)

/-- The fault record ring's flash, its read-out, and the counter snapshots (R189 to R198). -/
def Obligations.LogAndSnapshotTakeEffect : Prop := ∀ s : State, s.pwr.standby = true →
  (∀ p, s.log.page = some p → s.log.gap = [] → Completes .logPageProgramDone s fun t =>
    t.log.queue = s.log.queue.drop p.count ∧ t.log.slot = (p.slot + p.bytes.length / 64) % ringSlots ∧
    (s.log.devFailed.getLsbD 0 = false → t.flash0 = (s.fwrite 0 (ringOff p.slot) p.bytes).flash0) ∧
    (s.log.devFailed.getLsbD 1 = false → t.flash1 = (s.fwrite 1 (ringOff p.slot) p.bytes).flash1) ∧
    (s.log.devFailed.getLsbD 0 = true → t.flash0 = s.flash0) ∧ (s.log.devFailed.getLsbD 1 = true → t.flash1 = s.flash1)) ∧
  (s.log.page = none → Completes .logPageProgramDone s fun t => t = s) ∧
  (s.snap.holdup = false → s.log.ready = true → s.log.ahead < 4079 → Completes .logSectorEraseDone s fun t =>
    t.log.ahead = s.log.ahead + 1 ∧ t.log.queue = s.log.queue ∧
    t.isErased 0 (ringOff (64 * ((s.log.slot / 64 + s.log.ahead) % 4080))) 4096 = true ∧
    t.isErased 1 (ringOff (64 * ((s.log.slot / 64 + s.log.ahead) % 4080))) 4096 = true ∧ s.onlyChanges [.log, .flash0, .flash1] t) ∧
  (∀ dev, dev < 2 → s.log.devFailed.getLsbD dev = false → Completes (.logDeviceTimeout dev) s fun t =>
    t.log.devFailed = setBit s.log.devFailed dev true ∧ t.log.queue = s.log.queue ∧ s.onlyChanges [.log, .evt] t ∧
    (s.evt.ring.length < 4096 → t.evt.ring = s.evt.ring ++ [⟨s.ptime, 15, 192, dev, 0⟩])) ∧
  (s.log.ready = false → Completes .logRingRecoveryDone s fun t => t.log.ready = true ∧ t.log.queue = s.log.queue ∧
    (∀ k p, s.newest = some (k, p) → t.log.slot = s.clearSlot ((k + 1) % ringSlots) 64 ∧ t.flash0 = s.flash0 ∧ t.flash1 = s.flash1) ∧
    (s.newest = none → t.log.slot = 0 ∧ t.log.ahead = 4079 ∧ t.isErased 0 (ringOff 0) 16711680 = true ∧
      t.isErased 1 (ringOff 0) 16711680 = true)) ∧
  (∀ (p : Path) prin v, s.pwr.core = true → s.may prin .read = true → Completes (.logReadFromWrite p prin v) s fun t =>
    t.log.readFrom = Tbl.set s.log.readFrom p.idx (v % 2 ^ 40) ∧ s.onlyChanges [.log, .acc, .evt] t ∧
    ∀ k, (((List.range ringSlots).map fun i => (s.log.slot + i) % ringSlots).find? fun k => match s.slotView k with
      | .held b _ => !precedes (recPlace b) (v % 2 ^ 40)
      | _ => false) = some k → Tbl.get 0 t.log.cursor p.idx = k) ∧
  (∀ (p : Path) prin v, s.pwr.core = true → s.may prin .read = false → Completes (.logReadFromWrite p prin v) s fun t =>
    t.log.readFrom = s.log.readFrom ∧ t.log.cursor = s.log.cursor) ∧
  (∀ p : Path, s.pwr.core = true → Completes (.logReadAdvance p) s fun t => s.onlyChanges [.log, .evt] t ∧
    (s.slotView (Tbl.get 0 s.log.cursor p.idx) = .empty → t = s) ∧
    (∀ b one, s.slotView (Tbl.get 0 s.log.cursor p.idx) = .held b one →
      s.slotView ((Tbl.get 0 s.log.cursor p.idx + 1) % ringSlots) ≠ .torn →
      Tbl.get 0 t.log.cursor p.idx = (Tbl.get 0 s.log.cursor p.idx + 1) % ringSlots)) ∧
  (s.dirty = true → s.belowFloor = false → s.snap.job = none → Completes .snapshotPeriodicTimer s fun t =>
    (s.bankFree 0 = true →
      t.snap.job = some ⟨1, 0, s.rcnt.rails, s.rcnt.owners, s.log.seq, s.log.epoch⟩ ∧ t.dirty = false) ∧
    (s.bankFree 0 = false → s.bankFree 1 = false → t = { s with log := { s.log with snapSkipped := true } })) ∧
  (s.belowFloor = true → Completes .snapshotPeriodicTimer s fun t => t = s) ∧
  (∀ j, s.snap.job = some j → s.rst.waiting = [] → s.belowFloor = true → Completes .snapshotTrailerWritten s fun t =>
    t = { s with snap := { s.snap with job := none } }) ∧
  (∀ j, s.snap.job = some j → s.rst.waiting = [] → s.belowFloor = false → Completes .snapshotTrailerWritten s fun t => t.snap.job = none ∧
    (s.snap.holdup = false → t.snap.erasing = setBit s.snap.erasing (1 - j.bank) true) ∧
    (s.snap.holdup = true → t.snap.held = setBit s.snap.held (1 - j.bank) true ∧ t.snap.erasing = s.snap.erasing) ∧
    s.onlyChanges [.snap, .flash0, .flash1] t) ∧
  (∀ b, b < 2 → s.snap.erasing.getLsbD b = true → s.snap.holdup = false → Completes (.snapshotBankEraseDone b) s fun t =>
    t.isErased 0 (bankOff b) 0x8000 = true ∧ t.isErased 1 (bankOff b) 0x8000 = true ∧
    t.snap = { s.snap with erasing := setBit s.snap.erasing b false, mend := setBit (setBit s.snap.mend b false) (2 + b) false } ∧
    s.onlyChanges [.snap, .flash0, .flash1] t) ∧
  (∀ b dev, b < 2 → dev < 2 → s.snap.erasing.getLsbD b = false → s.snap.mend.getLsbD (2 * dev + b) = true →
    s.snap.mend.getLsbD (2 * (1 - dev) + b) = false → s.snap.holdup = false → Completes (.snapshotBankEraseDone b) s fun t =>
    t.isErased dev (bankOff b) 0x8000 = true ∧ t.flash (1 - dev) = s.flash (1 - dev) ∧
    s.onlyChanges [.snap, .flash0, .flash1] t) ∧
  (∀ b, s.snap.holdup = true → Completes (.snapshotBankEraseDone b) s fun t => t = s)

/-- Metering, telemetry, jobs and peaks (R208 to R213, R228 to R234). -/
def Obligations.MeteringAndJobsTakeEffect : Prop := ∀ s : State,
  (s.pwr.standby = true →
    (∀ bus stop len, stop = max (s.mtime / 100000 * 100000) ((s.met.start / 100000 + 1) * 100000) →
      len = stop - max s.met.start (stop - 100000) → Completes (.meteringIntervalEnd bus) s fun t =>
      t.met.start = stop ∧ len ≤ 100000 ∧ (s.pwr.core = false → (t.pnt.count + t.met.base).toNat = stop) ∧
      (∀ n, n < 8 → (t.capS n).prodN = 0) ∧
      (∀ n, n < 8 → s.met.ahead = [] ∨ (s.capS n).entry = none → (t.capS n).power = (s.sitePower n).1 ∧
        Tbl.get {} t.met.energy n = ((Tbl.get {} s.met.energy n : Energy).add (intervalNj (s.sitePower n).1 len)).1) ∧
      (bus ≠ [] → t.met.tray = (s.met.tray.add (intervalNj (roundDiv
        (((s.busSamples bus).map fun x => (x.1 : Int) * x.2).foldl (· + ·) 0) (100 * bus.length)) len)).1) ∧
      (bus = [] → t.met.tray = (s.met.tray.add (intervalNj (roundDiv ((s.snap.busV : Int) * s.met.busI) 100) len)).1)) ∧
    (Completes .powerWindow1msEnd s fun t => ∀ n, n < 9 →
      ((s.peaks n).cur = [] → t.peaks n = s.peaks n) ∧
      ((s.peaks n).cur ≠ [] → (t.peaks n).cur = [] ∧ (t.peaks n).avg1ms = mean (s.peaks n).cur ∧
        (t.peaks n).peak1ms = greatest (s.peaks n).cur ∧
        (t.peaks n).avg1s = mean ((mean (s.peaks n).cur :: (s.peaks n).ms).take 1000))) ∧
    (Completes .powerWindow1sEnd s fun t => ∀ n, n < 9 → (s.peaks n).secN ≠ 0 → (t.peaks n).secN = 0 ∧
      (t.peaks n).avg60s = mean ((roundDiv (s.peaks n).secSum (s.peaks n).secN :: (s.peaks n).secs60).take 60)) ∧
    (∀ n rec, rec.length = 64 → u8 rec 0 = 1 → u8 rec 1 = n → n < 8 →
      (Completes (.wardenTelemetryPoll n (some rec)) s fun t =>
        ((s.capS n).seen.contains (u32 rec 4) = false → (t.capS n).telem = some rec ∧ (t.capS n).telemStale = false ∧
          (t.capS n).telemAt = s.plinth) ∧
        ((s.capS n).seen.contains (u32 rec 4) = true → t = s)) ∧
      (∀ port src, s.pwr.core = true → s.pwr.fabric = true → s.ebx.up.getLsbD port = true → Tbl.get 0xFFFF s.ebx.siteEp n = src →
        Completes (.telemetryRecord port src rec) s fun t =>
          ((s.capS n).seen.contains (u32 rec 4) = false → (t.capS n).telem = some rec ∧ (t.capS n).telemStale = false) ∧
          t.ebx = (s.credit port 2 3).ebx)) ∧
    (∀ n, Completes (.wardenTelemetryPoll n none) s fun t => t = s) ∧
    (∀ n, (s.site n).st.runs = true → (s.capS n).telemStale = false → Completes (.telemetryStaleTimeout n) s fun t =>
      t.capS n = { s.capS n with telemStale := true } ∧ s.onlyChanges [.cap, .log, .evt] t) ∧
    (∀ n rec, rec.length = 32 → u8 rec 0 = 2 → u8 rec 1 = n → n < 8 → (u8 rec 2 = 1 ∨ u8 rec 2 = 2) → u64 rec 8 ≠ 0 →
      Tbl.find? s.met.markSeq n = none → s.pnt.valid = true → s.met.start ≤ u64 rec 0x10 → s.pnt.count ≤ u64 rec 0x10 + 10000000 →
      u64 rec 0x10 ≤ s.pnt.count + 10000000 → Completes (.jobMark none rec) s fun t =>
        t.met = { s.met with markSeq := Tbl.set s.met.markSeq n (u32 rec 4)
                             ahead := s.met.ahead ++ [⟨n, u64 rec 0x10, u8 rec 2 == 1, u64 rec 8⟩] })) ∧
  (∀ r j, s.pwr.core = true → j < 1024 → (s.job j).st = 2 → Completes (.jobRelease r j) s fun t => t.job j = {} ∧
    (∀ n, n < 8 → Tbl.get {} t.met.released n = ((Tbl.get {} s.met.released n : Energy).add
      ((Tbl.get ({} : Energy) (s.job j).energy n).uj.toNat * 1000 + (Tbl.get ({} : Energy) (s.job j).energy n).nj)).1) ∧
    s.onlyChanges [.met, .evt] t) ∧
  (∀ (r : Req) n, s.pwr.core = true → s.may r.principal .counterClear = true → n < 9 → Completes (.peakClr r n) s fun t =>
    t = s.setPeaks n { s.peaks n with hold := 0, holdAt := 0, holdSet := false })

/-- The tray budget, the software bounds, the division, the cap guard, throttle force and SITE_VOUT (R214 to R221, R226, R227). -/
def Obligations.CappingTakesEffect : Prop := ∀ s : State,
  (∀ r : Req, s.pwr.core = true → s.may r.principal .budget = true → s.maq.live.isSome = true → ∀ v,
    Completes (.trayBudgetWrite r v) s fun t =>
      t.cap = { s.cap with budget := some (clampTo s.budgetMin (cpCeiling.val s.caps) v).1
                           clamped := s.cap.clamped || (clampTo s.budgetMin (cpCeiling.val s.caps) v).2 } ∧
      s.onlyChanges [.cap, .evt] t) ∧
  (∀ (r : Req) n v, s.pwr.core = true → s.may r.principal .sitePower = true → n < 8 →
    (s.maq.live.isSome = true →
      Completes (.capSwBoundWrite r n 0 v) s (fun t => (t.capS n).cap = (s.capS n).cap ∧
        (t.capS n).swFloor = some (clampTo (cpFloor.val (s.capOf n)) (cpCeil.val (s.capOf n)) v).1 ∧ s.onlyChanges [.cap, .evt] t) ∧
      Completes (.capSwBoundWrite r n 1 v) s (fun t =>
        (t.capS n).swCeil = some (clampTo (cpFloor.val (s.capOf n)) (cpCeil.val (s.capOf n)) v).1 ∧ s.onlyChanges [.cap, .evt] t) ∧
      Completes (.capSwBoundWrite r n 2 v) s (fun t => (t.capS n).weight = some (max 1 (v % 256).toNat) ∧
        s.onlyChanges [.cap, .evt] t)) ∧
    (∀ level, Completes (.siteThrottleForceWrite r n level) s fun t => (t.capS n).force = level % 8) ∧
    (∀ rail code nom lo hi, ((s.capS n).vtable.bind fun t => vtRail t rail) = some (nom, lo, hi) →
      Completes (.siteVout r n rail code) s fun t => s.answers t r 0 0 0 ∧
        s.sends t (.site 226 n (leBytes 1 rail ++ leBytes 2 (clampTo lo hi code).1.toNat))) ∧
    (∀ rail code, ((s.capS n).vtable.bind fun t => vtRail t rail) = none →
      Completes (.siteVout r n rail code) s fun t => s.answers t r 0x53 0 0)) ∧
  (s.armServes = true → s.maq.live.isSome = true → s.pair.st = .lead → Completes .capDivision s fun t => t.pair.holdState = 0 ∧
    ∀ a l, a = min s.trayBudget (cpCeiling.val s.caps) - max s.nonsite (cpReserve.val s.caps) →
      divide a ((List.range 8).map s.divSite) = (l, true) → t.cap.avail = a ∧ t.cap.shortEp = false ∧
      ∀ n x, l[n]? = some x → (t.capS n).cap = x.cap ∧ (t.capS n).demand = x.demand ∧ (t.capS n).src = x.src) ∧
  (∀ n, s.pwr.standby = true → s.maq.live.isSome = true → Completes (.capGuardWindow n) s fun t =>
    ((s.capS n).cap * (1000 + cpGuardMargin.val s.caps) < (s.peaks n).avg1ms * 1000 →
      (t.capS n).guardOver = min ((s.capS n).guardOver + 1) 64 ∧
      (t.capS n).guard = (if cpGuardTime.nat s.caps ≤ min ((s.capS n).guardOver + 1) 64 then min 7 ((s.capS n).guard + 1)
        else (s.capS n).guard)) ∧
    (¬ (s.capS n).cap * (1000 + cpGuardMargin.val s.caps) < (s.peaks n).avg1ms * 1000 → (t.capS n).guardOver = 0 ∧
      (t.capS n).guard ≤ (s.capS n).guard ∧ (s.capS n).guard ≤ (t.capS n).guard + 1 ∧ s.onlyChanges [.cap] t))

/-- Relief and Patina (R222 to R224, R235, R240). -/
def Obligations.ReliefAndPatinaTakeEffect : Prop := ∀ s : State, s.pwr.standby = true →
  (∀ v, s.rel.st = .idle → v < s.opt obRelief → s.busStage2 v s.met.busI = false →
    Completes (.reliefVoltageCrossing v) s fun t => t.rel.st = .asserted ∧
      t.rel.level = cpLevelV.nat s.caps ∧ t.rel.mask = cpMask.nat s.caps ∧ t.rel.trig = 1 ∧ t.rel.start = s.plinth ∧
      t.rel.cntV = s.rel.cntV.inc.1 ∧ t.snap.busV = (s.busCorrect v 0).1) ∧
  (∀ v, s.opt obRelief ≤ v → s.busStage2 v s.met.busI = false → Completes (.reliefVoltageCrossing v) s fun t =>
    t = s.busKeep (some v) none) ∧
  (∀ i, s.rel.st = .releasing → (s.opt obTrayI : Int) < i → s.busStage2 s.snap.busV i = false →
    Completes (.reliefCurrentCrossing i) s fun t => t.rel.st = .asserted ∧
      t.rel.level = max s.rel.level (cpLevelI.nat s.caps) ∧ t.rel.trig = s.rel.trig ||| 2 ∧ t.rel.start = s.rel.start ∧
      t.rel.cntI = s.rel.cntI.inc.1 ∧ t.met.busI = (s.busCorrect 0 i).2) ∧
  (∀ i, i ≤ (s.opt obTrayI : Int) → s.busStage2 s.snap.busV i = false → Completes (.reliefCurrentCrossing i) s fun t =>
    t = s.busKeep none (some i)) ∧
  (∀ v i, s.rel.st ≠ .stage2 → (v + cpStage2.nat s.caps < s.opt obRelief ∨ (s.opt obTrayI : Int) * 110 < i * 100) →
    Completes (.reliefStage2 v i) s fun t => t.rel.st = .stage2 ∧
      t.rel.level = max s.rel.level (cpLevel2.nat s.caps) ∧ t.rel.cnt2 = s.rel.cnt2.inc.1 ∧ t.rel.cond = false) ∧
  (∀ v i, s.opt obRelief ≤ v + cpStage2.nat s.caps → i * 100 ≤ (s.opt obTrayI : Int) * 110 → Completes (.reliefStage2 v i) s fun t =>
    t = s.busKeep (some v) (some i)) ∧
  (∀ v i, s.rel.st ≠ .idle → s.opt obRelief + cpHyst.nat s.caps ≤ v → i * 100 < (s.opt obTrayI : Int) * 95 →
    Completes (.reliefReleaseCondition ⟨v, i⟩) s fun t => t.rel.st = .releasing ∧ t.rel.cond = true ∧ t.rel.level = s.rel.level) ∧
  (∀ v i, s.rel.st ≠ .idle → (v < s.opt obRelief + cpHyst.nat s.caps ∨ (s.opt obTrayI : Int) * 95 ≤ i * 100) →
    Completes (.reliefReleaseCondition ⟨v, i⟩) s fun t =>
      t = { s.busKeep (some v) (some i) with rel := { (s.busKeep (some v) (some i)).rel with cond := false } }) ∧
  (∀ v i, s.rel.st = .idle → Completes (.reliefReleaseCondition ⟨v, i⟩) s fun t => t = s.busKeep (some v) (some i)) ∧
  (s.rel.st = .releasing → s.rel.cond = true → 1 < s.rel.level → Completes .reliefReleaseStepExpiry s fun t =>
    t.rel = { s.rel with level := s.rel.level - 1, mask := s.reliefMask false }) ∧
  (s.rel.st = .releasing → s.rel.cond = true → s.rel.level ≤ 1 → Completes .reliefReleaseStepExpiry s fun t =>
    t.rel = { s.rel with level := 0, st := .idle, cond := false } ∧ s.onlyChanges [.rel, .log, .evt] t) ∧
  (Completes .patinaSecond s fun t => s.onlyChanges [.pat, .evt] t ∧
    (∀ c, c < 40 → ((s.fan c).st = .running ∨ (s.fan c).st = .tachLost) →
      Tbl.get {} t.pat.run c = (Tbl.get ({} : Cnt) s.pat.run c).inc.1) ∧
    (s.pwr.core = true → Tbl.get {} (t.patina 8).cnt (tempBin s.haz.tjCore) =
      (Tbl.get ({} : Cnt) (s.patina 8).cnt (tempBin s.haz.tjCore)).inc.1) ∧
    ∀ n, n < 8 → (s.site n).st.runs = false → t.patina n = s.patina n) ∧
  (Completes .patinaRecordWrite s fun t => s.onlyChanges [.log, .evt] t ∧
    (s.log.gap = [] → s.log.queue.length + 58 ≤ 128 → s.log.queue.length + 18 ≤ t.log.queue.length))

/-- Chisel: its commands wait for the interval, the interval carries them out and allocates, fallback, software bounds and
checkpoints (R242, R257, R259, R263, R264, R266). -/
def Obligations.ChiselTakesEffect : Prop := ∀ s : State,
  (∀ (r : Req) e, s.carriesOut r .sitePower = true → u8 e 0x10 < 8 → zeroAt e 0x11 7 = true → (s.chiS (u8 e 0x10)).cmd = none →
    (∀ c code, c ∈ [(Instr.chiselFreeze r e, 1), (.chiselThaw r e, 2), (.chiselReset r e, 3), (.chiselExport r e, 4)] → c.2 = code →
      Completes c.1 s fun t => t = s.setChiS (u8 e 0x10) { s.chiS (u8 e 0x10) with
        cmd := some ⟨code, r, u64 e 0x18, u32 e 0x20, none, s.may r.principal .counterClear⟩ }) ∧
    ∀ src, Completes (.chiselImport r e src) s fun t => t = s.setChiS (u8 e 0x10) { s.chiS (u8 e 0x10) with
      cmd := some ⟨5, r, u64 e 0x18, u32 e 0x20, src, s.may r.principal .counterClear⟩ }) ∧
  (∀ (r : Req) e, s.carriesOut r .sitePower = true → u8 e 0x10 < 8 → zeroAt e 0x11 7 = true → (s.chiS (u8 e 0x10)).cmd.isSome = true →
    Completes (.chiselFreeze r e) s fun t => t = s.complete r 0x48 0 0 ∧ s.answers t r 0x48 0 0) ∧
  (s.pwr.core = true → (s.chiS 0).restored = false → Completes .chiselInterval s fun t => t = s) ∧
  (s.pwr.core = true → (s.chiS 0).restored = true → Completes .chiselInterval s fun t => ∀ n, n < 8 →
    ((t.chiS n).cmd = if s.pwr.armature && s.boot.run.isSome then none else (s.chiS n).cmd) ∧
    (t.chiS n).on = (s.chiCommit n).chiselOn n ∧
    ((s.chiS n).still = false → (t.chiS n).recommit = false) ∧
    ((s.chiCommit n).chiselOn n = false → (t.chiS n).alloc = (s.chiS n).alloc ∧ (t.chiS n).seq = (s.chiS n).seq ∧
      (t.chiS n).record = (s.chiS n).record) ∧
    ((s.chiCommit n).chiselOn n = true → (t.chiS n).seq = (s.chiS n).seq + 1 ∧
      ∀ m, (s.chiS n).cmd = some m → s.pwr.armature = true → s.boot.run.isSome = true → (m.code = 1 → (t.chiS n).frozen = true) ∧ (m.code = 2 → (t.chiS n).frozen = false))) ∧
  (∀ n, s.pwr.core = true → (s.chiS n).stale = true → (s.chiS n).fallbackDue = false →
    Completes (.chiselStaleFallbackExpiry n) s fun t => t.chiS n = { s.chiS n with fallbackDue := true } ∧
      s.onlyChanges [.chi, .log, .evt] t) ∧
  (∀ (r : Req) n k p v, s.pwr.core = true → s.may r.principal .sitePower = true →
    (((s.capS n).vtable.map vtDomains).getD []).find? (fun d => d.1 == k) = some (k, p) →
    Completes (.chiselSwBoundWrite r n k false v) s (fun t => s.onlyChanges [.chi, .evt] t ∧
      Tbl.find? (t.chiS n).swFloor k =
        some (clampI ((s.chiS n).domOf (k, p) 0).hwLo ((s.chiS n).domOf (k, p) 0).hwHi v).toNat) ∧
    Completes (.chiselSwBoundWrite r n k true v) s (fun t => s.onlyChanges [.chi, .evt] t ∧
      Tbl.find? (t.chiS n).swCeil k =
        some (clampI ((s.chiS n).domOf (k, p) 0).hwLo ((s.chiS n).domOf (k, p) 0).hwHi v).toNat)) ∧
  (s.armServes = true → Completes .chiselCheckpoint s fun t => s.onlyChanges [.ckpt, .out] t ∧
    (s.hasDram = true → (s.chiS 0).restored = true → t.ckpt = (List.range 8).map fun n => (n, s.modelImage n)) ∧
    (s.hasDram = false ∨ (s.chiS 0).restored = false → t.ckpt = s.ckpt))

/-- Fans and pumps: the tick, the timers and the commands (R268, R280 to R283, R288). -/
def Obligations.FansTakeEffect : Prop := ∀ s : State,
  (∀ tach, s.pwr.standby = true → s.maq.live.isSome = true → s.pair.outputs = true → Completes (.coolingTick tach) s fun t =>
    ∀ c, c < 40 → (s.fanUsed c = false → t.fan c = s.fan c) ∧
      (s.fanUsed c = true → (s.fan c).st.failed = true → (t.fan c).st = (s.fan c).st ∧ (t.fan c).duty = (s.fan c).duty) ∧
      (s.fanUsed c = true → (s.fan c).st = .starting → (tach.find? fun a => a.1 == c) = none → (t.fan c).st = .starting) ∧
      (∀ v, s.fanUsed c = true → c < 32 → (s.fan c).st = .running → s.cool.tripped = true →
        s.periodSpeed c (tach.find? fun a => a.1 == c) = some v →
        (t.fan c).st = .running ∧ (t.fan c).duty = 0xFFFF ∧ ((t.fan c).src = 4 ∨ (t.fan c).src = 5))) ∧
  (∀ tach, s.pwr.standby = true → s.maq.live = none → Completes (.coolingTick tach) s fun t => t = s) ∧
  (∀ tach, s.pwr.standby = true → s.maq.live.isSome = true → s.pair.outputs = false → Completes (.coolingTick tach) s fun t =>
    ∀ c, c < 40 → t.fan c = if s.fanUsed c then { s.fan c with
      speed := ((s.periodSpeed c (tach.find? fun a => a.1 == c)).map (min · 65535)).getD 0 } else s.fan c) ∧
  (∀ f, s.pwr.standby = true → (s.fan f).st = .starting → Completes (.fanStartTimeout f) s fun t =>
    (t.fan f).duty = s.stallDuty f ∧ (t.fan f).attempt = (s.fan f).attempt ∧ s.onlyChanges [.cool, .log, .evt, .out] t ∧
    ((s.fan f).attempt < 4 → (t.fan f).st = .stalled) ∧ (4 ≤ (s.fan f).attempt → (t.fan f).st = .seized)) ∧
  (∀ f (u : State), s.pwr.standby = true → (s.fan f).st = .stalled → u = s.setFan f ((s.fan f).start ((s.fan f).attempt + 1)) →
    Completes (.fanStallTimerExpiry f) s (s.drives u f)) ∧
  (∀ f (u : State), s.pwr.standby = true → (s.fan f).st = .seized → u = s.setFan f ((s.fan f).start 4) →
    Completes (.fanSeizedTimerExpiry f) s (s.drives u f)) ∧
  (∀ r : Req, s.pwr.core = true → s.may r.principal .cooling = true →
    (∀ f v, f < 40 → Completes (.fanTargetWrite r f v) s fun t =>
      t.fan f = { s.fan f with target := min v (ctMax (s.ctl f)) } ∧ t.cool.tripped = false ∧ s.onlyChanges [.cool] t) ∧
    (∀ f (u : State), f < 40 → (s.fan f).st.failed = true → u = s.setFan f { s.fan f with st := .off, attempt := 0, duty := 0 } →
      Completes (.fanClear r f) s (s.drives u f)) ∧
    Completes (.coolWdtRefresh r) s fun t => t = { s with cool := { s.cool with tripped := false, wdtAt := s.plinth } }) ∧
  (s.pwr.standby = true → s.plinth < s.cool.wdtAt + secs (clWdt.nat (s.sec 0x09)) → Completes .coolWdtExpiry s fun t => t = s) ∧
  (s.pwr.standby = true → s.cool.wdtRunning = true → s.cool.suspended = false → s.cool.tripped = false →
    s.cool.wdtAt + secs (clWdt.nat (s.sec 0x09)) ≤ s.plinth →
    Completes .coolWdtExpiry s fun t => t.cool.tripped = true ∧ t.cool.wdtTripped = true ∧
      s.onlyChanges [.cool, .log, .evt, .out] t ∧ (s.maq.live.isSome = true → s.pair.outputs = true → ∀ c, c < 32 → s.fanUsed c = true →
        (s.fan c).st = .running → (t.fan c).duty = 0xFFFF ∧ ((t.fan c).src = 4 ∨ (t.fan c).src = 5)))

/-- Valves, flow and pressure (R290 to R293). -/
def Obligations.ValvesAndFlowTakeEffect : Prop := ∀ s : State,
  (∀ (r : Req) v cmd, s.pwr.core = true → s.may r.principal .cooling = true → v < 16 → cmd < 3 →
    Completes (.valveCmdWrite r v cmd) s fun t => (t.valve v).cmd = cmd ∧ (t.valve v).held = (s.valve v).held ∧
      s.onlyChanges [.cool, .log, .evt, .out] t ∧ (t.valveDrive v = s.valveDrive v → t.out = s.out) ∧
      (t.valveDrive v ≠ s.valveDrive v → t.out = .line 290 (2 * v + bitAt (t.valveDrive v) 0) :: s.out)) ∧
  (s.pwr.standby = true →
    (∀ v, (s.valve v).moving = true → (s.valve v).fault = false → Completes (.valveTravelTimeout v) s fun t =>
      t.valve v = { s.valve v with fault := true } ∧ s.onlyChanges [.cool, .log, .evt] t) ∧
    (∀ v level, (level != (u8 (valveEntry s.topo v) 0).testBit 2) = s.valvePos v → Completes (.valvePosChange v level) s fun t =>
      t.valve v = { s.valve v with pos := s.valvePos v, moving := false, confirmed := true, strayed := false, fault := false } ∧
      s.onlyChanges [.cool, .log, .evt] t) ∧
    (∀ v level, (level != (u8 (valveEntry s.topo v) 0).testBit 2) ≠ s.valvePos v → Completes (.valvePosChange v level) s fun t =>
      t = s.setValve v { s.valve v with pos := !s.valvePos v, confirmed := false, strayed := !(s.valve v).moving }) ∧
    (∀ v, (s.valve v).strayed = true → (s.valve v).fault = false → Completes (.valveUncommandedTimer v) s fun t =>
      t.valve v = { s.valve v with fault := true } ∧ s.onlyChanges [.cool, .log, .evt] t) ∧
    (∀ m p, entryUsed (meterEntry s.topo m) = true → Completes (.flowRateUpdate m p) s fun t =>
      s.onlyChanges [.cool] t ∧ (t.meter m).rate = min (p * 6000 * 100 / u32 (meterEntry s.topo m) 4) 65535 ∧
      (t.meter m).loss = (s.meter m).loss ∧
      ((t.meter m).rate < u16 (meterEntry s.topo m) 8 → s.pumpRuns m = true → (t.meter m).lowSince.isSome = true) ∧
      (s.pumpRuns m = false → (t.meter m).lowSince = none)) ∧
    (∀ m, m < 16 → (s.meter m).lowSince.isSome = true → (s.meter m).loss = false → Completes (.flowLossTimeExpiry m) s fun t =>
      t.meter m = { s.meter m with loss := true } ∧
      ∀ z, z < 16 → (u16 (meterEntry s.topo m) 2).testBit z = true → (t.czone z).flowLoss = true) ∧
    (∀ m, m < 16 → (s.meter m).loss = true → (s.meter m).lowSince = none → Completes (.coolantLossEndTimer m) s fun t =>
      t.meter m = { s.meter m with loss := false }) ∧
    (∀ p, p < 8 → (s.pressS p).loss = true → (s.pressS p).judged = false → Completes (.coolantLossEndTimer (16 + p)) s fun t =>
      t.pressS p = { s.pressS p with loss := false }))

/-- Thermal zones (R297, R298, R300). -/
def Obligations.ZonesTakeEffect : Prop := ∀ (s : State) (z : Nat),
  (s.pwr.standby = true →
    (∀ k m, Tbl.get {} (s.czone z).members k = m → m.excl = false → znExcl.nat (s.zoneOf z) ≤ m.cnt →
      Completes (.zoneSensorExclusion z k) s fun t => s.onlyChanges [.cool, .log, .evt, .out] t ∧
        (Tbl.get ({} : Member) (t.czone z).members k).excl = true ∧ (Tbl.get ({} : Member) (t.czone z).members k).valid = false ∧
        ((Tbl.get ({} : Member) (t.czone z).members k).held = true ↔ m.held = true ∨
          2 ≤ (m.times.filter fun u => decide (s.plinth < u + secs 3600)).length)) ∧
    (∀ k m, Tbl.get {} (s.czone z).members k = m → m.excl = true → m.held = false → m.readmit = 600 →
      (m.cnt < znExcl.nat (s.zoneOf z) → Completes (.zoneSensorReadmission z k) s fun t => s.onlyChanges [.cool, .log, .evt, .out] t ∧
        Tbl.get {} (t.czone z).members k = { m with excl := false, valid := !m.rated, readmit := 0, cnt := 0 }) ∧
      (znExcl.nat (s.zoneOf z) ≤ m.cnt → Completes (.zoneSensorReadmission z k) s fun t => s.onlyChanges [.cool] t ∧
        Tbl.get {} (t.czone z).members k = { m with readmit := 0, cnt := 0 })) ∧
    (znUsed (s.zoneOf z) = true → lmColdDp (s.limits z) ≠ 0 → Completes (.zoneColdLieCheck z) s fun t =>
      s.onlyChanges [.cool, .log, .evt, .out] t ∧
      (t.czone z).cold = ((s.zonePower z, (s.czone z).median) :: (s.czone z).cold).take (lmColdWin.nat (s.limits z)) ∧
      ∀ p m b, leastPower ((s.czone z).cold.take (lmColdWin.nat (s.limits z))) = some (p, some m) → (s.czone z).median = some b →
        (lmColdDp (s.limits z) : Int) ≤ s.zonePower z - p →
        (t.czone z).coldLie = decide (b - m < lmColdDt.val (s.limits z))) ∧
    ((s.czone z).temp < lmLimit (s.limits z) - 2 * lmMargin.val (s.limits z) → Completes (.zoneGuardExitTimer z) s fun t =>
      t = s.setCzone z { s.czone z with guard := false })) ∧
  (∀ r : Req, s.pwr.core = true → s.may r.principal .cooling = true → z < 16 → Completes (.zoneClear r z) s fun t =>
    s.onlyChanges [.cool] t ∧ (t.czone z).coldLie = false ∧ (t.czone z).cold = (s.czone z).cold ∧
    ∀ k, (Tbl.get ({} : Member) (t.czone z).members k).held = false ∧
      (Tbl.get ({} : Member) (t.czone z).members k).excl = (Tbl.get ({} : Member) (s.czone z).members k).excl)

/-- Leaks, ground shaking and Brace (R303 to R305, R312, R314 to R318). -/
def Obligations.LeaksAndShakingTakeEffect : Prop := ∀ s : State,
  (s.pwr.standby = true →
    (∀ n a b, s.maq.live.isSome = true → n < 16 → Completes (.leakRopeReading n a b) s fun t =>
      (t.leak n).senseR = ohms a ∧ (t.leak n).loopR = ohms b ∧
      (lkUsed (leakEntry (s.sec 0x0A) n) = false → (t.leak n).cls = (s.leak n).cls) ∧
      (lkUsed (leakEntry (s.sec 0x0A) n) = true → lkQualify.nat (leakEntry (s.sec 0x0A) n) ≤
        (if (s.leak n).cand = ropeClass a b then min ((s.leak n).candN + 1) 16 else 1) →
        (t.leak n).cls = ropeClass a b ∧ (t.leak n).read = true)) ∧
    (∀ k a b, s.maq.live.isSome = true → k < 32 → Completes (.leakPointSample k a b) s fun t =>
      (lkUsed (leakEntry (s.sec 0x0A) (16 + k)) = false → t = s) ∧
      (lkUsed (leakEntry (s.sec 0x0A) (16 + k)) = true → lkQualify.nat (leakEntry (s.sec 0x0A) (16 + k)) ≤
        (if (s.leak (16 + k)).cand = pointClass a b then min ((s.leak (16 + k)).candN + 1) 16 else 1) →
        (t.leak (16 + k)).cls = pointClass a b ∧ (t.leak (16 + k)).read = true)) ∧
    (∀ x y z, Completes (.accelSample x y z) s fun t => t.haz.peak = max s.haz.peak t.haz.pga ∧
      (32767 ≤ x → Tbl.get 0 t.haz.axes 0 = 2000) ∧ (y ≤ -32768 → Tbl.get 0 t.haz.axes 1 = -2000) ∧
      t.haz.pga = isqrt (Tbl.get 0 t.haz.axes 0 * Tbl.get 0 t.haz.axes 0 + Tbl.get 0 t.haz.axes 1 * Tbl.get 0 t.haz.axes 1 +
        Tbl.get 0 t.haz.axes 2 * Tbl.get 0 t.haz.axes 2).toNat) ∧
    (s.haz.quietAt.isSome = true → Completes .shakeNoteEpisodeEnd s fun t => t = { s with haz := { s.haz with note := false } }) ∧
    Completes (.accelSelfTest true) s (fun t => t = { s with haz := { s.haz with shakeFault := false } }) ∧
    (s.haz.shakeFault = false →
      Completes (.accelSelfTest false) s (fun t => t.haz = { s.haz with shakeFault := true } ∧ s.onlyChanges [.haz, .log, .evt] t) ∧
      Completes .accelNoAnswer s (fun t => t.haz = { s.haz with shakeFault := true } ∧ s.onlyChanges [.haz, .log, .evt] t))) ∧
  (∀ (r : Req) z, s.pwr.core = true → s.may r.principal .hazard = true → z < 16 →
    ((s.lzone z).latched = true → (s.lzone z).st = 0 → Completes (.leakClear r z) s fun t => t.lzone z = { st := 0 } ∧
      s.onlyChanges [.cool, .haz, .log, .evt, .out] t) ∧
    ((s.lzone z).st ≠ 0 → Completes (.leakClear r z) s fun t => t = s.event 8 312 z 0)) ∧
  (∀ r : Req, s.pwr.core = true → s.may r.principal .hazard = true →
    (s.haz.brace = false → Completes (.braceRequest r) s fun t => t.haz.brace = true ∧ t.haz.causeReq = true ∧
      t.haz.causeAcc = false ∧ t.haz.braceAt = s.plinth ∧ t.haz.lastReq = some s.plinth ∧
      (s.snap.holdup = false → t.snap.flushing = true)) ∧
    (s.haz.brace = true → Completes (.braceRequest r) s fun t =>
      t = { s with haz := { s.haz with lastReq := some s.plinth, causeReq := true } })) ∧
  (∀ r : Req, s.pwr.core = true → s.may r.principal .counterClear = true → Completes (.shakePeakClr r) s fun t =>
    t = { s with haz := { s.haz with peak := 0 } })

/-- The Pointing count and its SYNC lines (R322 to R336, R343). -/
def Obligations.PointingTakesEffect : Prop := ∀ s : State, s.pwr.core = true →
  (s.pair.outputs = true → Completes .countFrameTransmit s fun t => s.onlyChanges [.pnt, .out] t ∧ t.pnt.count = s.pnt.count ∧
    ∀ n, n < 13 → (s.cabled n = true → (t.line n).seq = (s.line n).seq + 1) ∧ (s.cabled n = false → t.line n = s.line n)) ∧
  (∀ p, s.isManagerRole = false → s.pnt.st ≠ .manager → Completes (.countFrame p) s fun t => (t.line 0).linkUp = true ∧
    t.pnt.lastCount = 64 * u64 p 0 + u8 p 8 % 64 ∧ t.pnt.count = s.pnt.count ∧ s.onlyChanges [.pnt, .log, .evt] t ∧
    t.pnt.err = ((64 * u64 p 0 + u8 p 8 % 64 : Nat) : Int) + (s.line 0).delay - s.local ∧
    (s.pnt.st = .free → t.pnt.st = .calibrating) ∧
    (s.pnt.st = .locking → t.pnt.err.natAbs ≤ 64 → 15 ≤ s.pnt.nIn → t.pnt.st = .locked) ∧
    (s.pnt.st = .locking → (64 < t.pnt.err.natAbs ∨ s.pnt.nIn < 15) → t.pnt.st = .locking) ∧
    (s.pnt.st = .locked → 320 < t.pnt.err.natAbs → 2 ≤ s.pnt.nOut → t.pnt.st = .locking) ∧
    (s.pnt.st = .locked → (t.pnt.err.natAbs ≤ 320 ∨ s.pnt.nOut < 2) → t.pnt.st = .locked)) ∧
  (∀ p, s.isManagerRole = true → Completes (.countFrame p) s fun t => t = s.setLine 0 { s.line 0 with linkUp := true }) ∧
  (∀ n, s.cabled n = true → s.pair.outputs = true → Completes (.syncCalPeriod n) s fun t => s.onlyChanges [.pnt, .out] t ∧
    (t.line n).calSeq = (s.line n).calSeq + 1 ∧ (t.line n).cal = some ((s.line n).calSeq.toNat, s.local) ∧
    (t.line n).seq = (s.line n).seq + 1) ∧
  (∀ n, s.cabled n = false → Completes (.syncCalPeriod n) s fun t => t = s) ∧
  (∀ n, Completes (.syncLineLinkUp n) s fun t => (t.line n).linkUp = true ∧ s.onlyChanges [.pnt, .out] t ∧
    (s.cabled n = true → (t.line n).cal = some ((s.line n).calSeq.toNat, s.local))) ∧
  (∀ p turn, Completes (.calFrame p turn) s fun t => (t.line 0).seq = (s.line 0).seq + 1 ∧ s.onlyChanges [.pnt, .out] t ∧
    ∃ b, t.out = .frame 0 3 b :: s.out) ∧
  (∀ n p rtt c a b l, (s.line n).cal = some (u16 p 0, c) → (s.line n).meas = a :: b :: l →
    Completes (.echoFrame n p rtt) s fun t => (t.line n).cal = none ∧ (t.line n).linkUp = true ∧
      ∀ d, d = (roundDiv ((rtt : Int) - u32 p 2) 2).toNat →
        (d ≤ 12800 → max d (max a b) - min d (min a b) ≤ 6 → (t.line n).delay = median3 d a b ∧ (t.line n).calibrated = true ∧
          (t.line n).lineDown = false) ∧
        (12800 < d → (t.line n).lineDown = true ∧ (t.line n).calibrated = false ∧ (t.line n).meas = [])) ∧
  (∀ n p rtt, (s.line n).cal = none → Completes (.echoFrame n p rtt) s fun t => t = s) ∧
  (∀ p, s.pnt.st = .calibrating → Completes (.delayFrame p) s fun t => t.pnt.st = .locking ∧ t.pnt.valid = true ∧
    (t.line 0).delay = u32 p 2 ∧ (t.line 0).calibrated = true ∧
    (s.pnt.valid = true → t.local = s.local ∧
      t.pnt.slew = (s.pnt.lastCount : Int) + u32 p 2 + ((s.local : Int) - s.pnt.lastLocal) - s.local) ∧
    (s.pnt.valid = false → t.local = ((s.pnt.lastCount : Int) + u32 p 2 + ((s.local : Int) - s.pnt.lastLocal)).toNat ∧
      t.pnt.epoch = s.pnt.epoch.inc.1)) ∧
  (∀ n, Completes (.syncFrameDiscard n) s fun t => t.line n = { s.line n with crcErr := (s.line n).crcErr.inc.1 } ∧
    s.onlyChanges [.pnt, .evt] t) ∧
  (s.pnt.st = .locked → Completes .pointingFrameLoss s fun t => t.pnt.st = .holdover ∧ t.pnt.slew = 0 ∧ t.pnt.valid = s.pnt.valid ∧
    (t.line 0).linkUp = false ∧ s.onlyChanges [.pnt, .log, .evt] t) ∧
  (s.pnt.st = .holdover → Completes .holdoverLimitExpiry s fun t => t.pnt.st = .free ∧ t.pnt.valid = false ∧
    s.onlyChanges [.pnt, .log, .evt] t) ∧
  (Completes .pointingSaveTimer s fun t => t = { s with pnt := { s.pnt with save := some (s.pnt.count, s.plinth) } }) ∧
  (s.pnt.waitEcho = true → Completes .managerEchoWaitExpiry s fun t => t.pnt.waitEcho = false ∧ t.pnt.valid = true ∧
    (∀ n o, s.pnt.offer = some (n, o) → t.local = (o + s.local).toNat) ∧
    (∀ c u, s.pnt.offer = none → s.pnt.save = some (c, u) → u ≤ s.plinth → t.local = 64 * c + 1953125 * (s.plinth - u)) ∧
    (s.pnt.offer = none → s.pnt.save = none → t.local = 0)) ∧
  (∀ r : Req, s.carriesOut r .launch = true → Completes (.promoteManager r) s fun t =>
    ((s.pnt.st = .free ∨ s.pnt.st = .holdover) → t.pnt.st = .manager ∧ t.pnt.valid = true ∧ s.answers t r 0 0 0) ∧
    (s.pnt.st = .locked → t = s.complete r 0x7A 0 0 ∧ s.answers t r 0x7A 0 0)) ∧
  (∀ n b, Completes (.siteDumapReport n b) s fun t =>
    t = { s with pnt := { s.pnt with dumap := Tbl.set s.pnt.dumap n (BitVec.ofNat 256 (le b 0 32)) } })

/-- The launch commands (R337, R338, R345). -/
def Obligations.LaunchCommandsTakeEffect : Prop := ∀ (s : State) (r : Req) (e : Bytes), s.carriesOut r .launch = true →
  (∀ src, Completes (.armRun r e src) s fun t =>
    (s.source (u64 e 8) 128 src = none → s.answers t r 0x93 0 0) ∧
    ∀ b, s.source (u64 e 8) 128 src = some b →
      (u64 b 0 = 0 → s.answers t r 0x10 0 0 ∧ t.pnt = s.pnt) ∧
      ∀ i, u64 b 0 ≠ 0 → u8 b 19 < 3 → le b 68 43 < 2 ^ 341 → zeroAt b 111 17 = true →
        s.armOf (u64 b 0) = none → s.armRoom = some i → s.answers t r 0 0 0 ∧ t.arm i = armEntryOf b s.plinth ∧
        ∀ j, j ≠ i → t.arm j = s.arm j) ∧
  (∀ i, s.pnt.st = .manager → s.armOf (u64 e 0x10) = some i → (s.arm i).launched = false →
    s.pnt.count + 1000 * ptLeadMin.nat s.role ≤ u64 e 0x18 → u64 e 0x18 ≤ s.pnt.count + 10000000000 →
    Completes (.launchRun r e) s fun t => s.answers t r 0 0 0 ∧ (t.arm i).launched = true ∧ (t.arm i).n = u64 e 0x18) ∧
  (s.pnt.st ≠ .manager → Completes (.launchRun r e) s fun t => t = s.complete r 0x70 0 0 ∧ s.answers t r 0x70 0 0) ∧
  (∀ i, s.armOf (u64 e 0x10) = some i →
    Completes (.disarmRun r e) s (fun t => s.answers t r 0 0 0 ∧ ((s.arm i).st = 1 → t.arm i = {}) ∧
      ((s.arm i).st = 2 → t.pnt = s.pnt)) ∧
    Completes (.closeRun r e) s (fun t => s.answers t r 0 0 0 ∧ (t.arm i).st = 3 ∧ (t.arm i).closeWhy = 1 ∧
      (t.arm i).closeAt = s.pnt.count)) ∧
  (s.armOf (u64 e 0x10) = none →
    Completes (.disarmRun r e) s (fun t => s.answers t r 0x74 0 0 ∧ t.pnt = s.pnt) ∧
    Completes (.closeRun r e) s (fun t => s.answers t r 0x74 0 0 ∧ t.pnt = s.pnt))

/-- The launch exchange: frames, deadlines, release and choices (R339 to R341, R344). -/
def Obligations.LaunchExchangeTakesEffect : Prop := ∀ (s : State) (p : Bytes), s.pwr.core = true →
  (∀ run i, s.armOf run = some i → (s.arm i).st = 1 → (s.arm i).launched = false → Completes (.armEntryExpiry run) s fun t =>
    t.arm i = { record := s.launchRecord { s.arm i with outcome := 5 } } ∧ s.onlyChanges [.pnt, .log, .evt] t) ∧
  (s.armOf (u64 p 0) = none →
    Completes (.launchFrame p) s (fun t => t.pnt.arms = s.pnt.arms ∧ (t.line 0).seq = (s.line 0).seq + 1) ∧
    (∀ n, Completes (.ackFrame n p) s fun t => t = s) ∧ Completes (.goFrame p) s (fun t => t = s) ∧
    Completes (.abortFrame p) s fun t => t = s) ∧
  (∀ n, s.resultOf (u64 p 0) = none → Completes (.resultFrame n p) s fun t => t = s) ∧
  (∀ n i x, s.resultOf (u64 p 0) = some i → s.arm i = x → 1 ≤ n → n ≤ 4 → x.launched = true → Completes (.resultFrame n p) s fun t =>
    (t.arm i).childRes = Tbl.set x.childRes n (u16 p 8, u16 p 10, u16 p 12)) ∧
  (∀ i x, s.armOf (u64 p 0) = some i → s.arm i = x →
    (x.st = 2 → Completes (.launchFrame p) s (fun t => t.pnt = { s.pnt with conflict := s.pnt.conflict.inc.1 }) ∧
      Completes (.abortFrame p) s (fun t => t.pnt = { s.pnt with conflict := s.pnt.conflict.inc.1 })) ∧
    (x.st = 1 → x.launched = false → Completes (.launchFrame p) s fun t => (t.arm i).launched = true ∧ (t.arm i).n = u64 p 8 ∧
      (t.arm i).det = digestAt p 21 ∧ (s.launchRefusal (some i) (u64 p 8) (digestAt p 21) ≠ 0 →
        (t.arm i).refusal ≠ 0 ∧ (t.arm i).st = 1)) ∧
    (∀ k, x.st = 1 → x.launched = true → x.answered = false → x.aborted = false → x.timingDet = false → x.siteMask.testBit k = true →
      u8 p 10 = 0 → Completes (.ackFrame (5 + k) p) s fun t => (t.arm i).siteAcks = x.siteAcks ||| 2 ^ k) ∧
    (∀ k, k < 5 → x.st = 1 → x.launched = true → x.answered = false → x.aborted = false → u8 p 10 = 0 →
      Completes (.ackFrame k p) s fun t => (t.arm i).childAcks = Tbl.set x.childAcks k (u16 p 8)) ∧
    (x.st = 1 → x.launched = true → x.aborted = false → x.refusal = 0 → x.n = u64 p 8 → x.n < s.pnt.count + 5000 →
      Completes (.goFrame p) s fun t => t = s.sendDown x 0x12 (leBytes 8 x.runId ++ leBytes 8 x.n) ∧ t.arm i = x) ∧
    (x.st = 1 → x.launched = true → x.aborted = false → x.refusal = 0 → x.n = u64 p 8 → s.pnt.count + 5000 ≤ x.n →
      Completes (.goFrame p) s fun t =>
      (t.arm i).st = 2 ∧ (t.arm i).still = x.timingDet ∧ s.onlyChanges [.pnt, .cap, .log, .evt, .out] t ∧
      ((∀ n, n < 8 → s.throttle n = 0) → t.arm i = { x with st := 2, still := x.timingDet })) ∧
    (x.aborted = true → Completes (.goFrame p) s fun t => t.pnt = { s.pnt with conflict := s.pnt.conflict.inc.1 }) ∧
    (x.st = 1 → x.launched = true → x.aborted = false → Completes (.abortFrame p) s fun t =>
      (t.arm i).aborted = true ∧ (t.arm i).st = 1 ∧ (t.arm i).refusal = (if x.refusal = 0 then u8 p 8 else x.refusal))) ∧
  (∀ run i x, s.armOf run = some i → s.arm i = x →
    (s.pnt.st = .manager → x.st = 1 → x.launched = true → x.aborted = false → Completes (.launchDeadline run) s fun t =>
      (t.arm i).aborted = true ∧ (t.arm i).refusal = (if x.refusal = 0 then 0x79 else x.refusal)) ∧
    (x.launched = true → x.reached = false → Completes (.launchCountReached run) s fun t => (t.arm i).reached = true ∧
      (x.st = 1 → (t.arm i).trayOut = false ∧ ((t.arm i).outcome = if x.outcome = 0 then 4 else x.outcome)) ∧
      (x.st = 2 → (∃ n, n < 8 ∧ x.siteMask.testBit n = true ∧ x.left.testBit n = false ∧ (s.site n).st = .running) →
        (t.arm i).trayOut = true ∧ (t.arm i).outcome = 1)) ∧
    (∀ rec n, rec.length = 32 → u8 rec 0 = 4 → u8 rec 1 = n → n < 8 → u64 rec 8 = run → x.balance = true →
      Completes (.choiceRecord none rec) s fun t =>
        (Tbl.get 0 x.choiceSeq n = u32 rec 4 → Tbl.get [] x.choiceHeld n = [] →
          Tbl.get 0 (t.arm i).choiceSeq n = u32 rec 4 + 1 ∧ (t.arm i).diverge = x.diverge.inc.1 ∧
          Tbl.get 0 (t.arm i).chain n = Config.sha384 (digestBytes (Tbl.get 0 x.chain n) ++ rec)) ∧
        (Tbl.get 0 x.choiceSeq n < u32 rec 4 →
          (∀ a ∈ Tbl.get [] x.choiceHeld n, Tbl.get 0 x.choiceSeq n < a.1 ∧ a.1 ≠ u32 rec 4) →
          (u32 rec 4, rec) ∈ Tbl.get [] (t.arm i).choiceHeld n ∧ (t.arm i).diverge = x.diverge.inc.1 ∧
          Tbl.get 0 (t.arm i).choiceSeq n = Tbl.get 0 x.choiceSeq n ∧ Tbl.get 0 (t.arm i).chain n = Tbl.get 0 x.chain n) ∧
        (u32 rec 4 < Tbl.get 0 x.choiceSeq n → t.pnt = s.pnt)))

/-- Caliper: offers, checks, verdicts, CHECK and COMPUTE, and the audit registers (R376 to R387, R395 to R397). -/
def Obligations.CaliperTakesEffect : Prop := ∀ s : State, s.pwr.core = true →
  (∀ port n rec, s.pwr.fabric = true → s.ebx.up.getLsbD port = true → rec.length = 192 → u8 rec 0 = 5 → u8 rec 1 = n → n < 8 →
    u64 rec 8 = 0 → s.cal.seen.contains (n, 0, u64 rec 0x10) = false → (s.cal.runs.find? fun x => x.run == 0) = none →
    Completes (.auditOffer port (Tbl.get 0xFFFF s.ebx.siteEp n) rec) s fun t => (t.calSite n).lastSeq = some (u32 rec 4) ∧
      t.cal.seen = (n, 0, u64 rec 0x10) :: s.cal.seen ∧ Tbl.find? t.cal.seeds 0 = some (s.runSeed 0) ∧
      ((s.calSite n).rate = 0 → t.cal.checks = s.cal.checks) ∧
      ((s.calSite n).rate ≠ 0 → (Config.sha384 (leBytes 32 (s.runSeed 0).toNat ++ leBytes 1 n ++ leBytes 8 (u64 rec 0x10))).toNat % 2 ^ 64 <
          2 ^ (64 - (s.calSite n).rate) → s.calStopped = false →
        (s.cal.checks.filter fun c => c.req.isNone && c.stage == 0 && !s.forming c.id 1).length < 4096 →
        descBad (slice rec 0x40 128) false = none → t.cal.nextId = s.cal.nextId + 1 ∧ t.cal.checks.length = s.cal.checks.length + 1)) ∧
  (∀ id c tile f j, s.checkOf id = some c → s.calStopped = false → s.tileRuns tile id = some j →
    (c.stage = 0 → c.comp = false → s.pastRetain c = true → Completes (.caliperFirstComputeDone id tile f) s fun t =>
      t.checkOf id = none ∧ t.cal.disSeq = s.cal.disSeq) ∧
    (c.stage = 0 → c.comp = false → s.pastRetain c = false → Completes (.caliperFirstComputeDone id tile f) s fun t =>
      (∀ code, s.compute f c.desc (wholePart c.desc) = .error code → (code = 0x91 → t = s.tileError j.tile) ∧
        (code = 0x83 → j.tries = 0 → t = s.setTileJob { j with tries := 1 }) ∧
        (code ≠ 0x91 → (code ≠ 0x83 ∨ j.tries ≠ 0) → t.checkOf id = none)) ∧
      (∀ v, s.compute f c.desc (wholePart c.desc) = .ok v → u8 c.desc 6 = 2 →
        (Config.sha384 (v.bytes (dOut c.desc)) = digestAt c.desc 0x50 → v.flags = u8 c.desc 7 → t.checkOf id = none) ∧
        (Config.sha384 (v.bytes (dOut c.desc)) ≠ digestAt c.desc 0x50 → s.usableTiles.length < 3 → t.checkOf id = none) ∧
        (Config.sha384 (v.bytes (dOut c.desc)) ≠ digestAt c.desc 0x50 → 3 ≤ s.usableTiles.length → s.onlyChanges [.cal] t ∧
          t.checkOf id = some { c with
            stage := 1, t1 := tile, r1 := v.bytes (dOut c.desc), siteDigest := digestAt c.desc 0x50 }))) ∧
    (∀ v, c.stage = 1 → s.pastRetain c = false → s.compute f c.desc (wholePart c.desc) = .ok v →
      Completes (.caliperRecomputeDone id tile f) s fun t => s.onlyChanges [.cal] t ∧
      (j.part = 2 → t.checkOf id = some { c with stage := 2, t2 := tile, r2 := v.bytes (dOut c.desc) }) ∧
      (j.part = 3 → t.checkOf id = some { c with stage := 2, t3 := tile, r3 := v.bytes (dOut c.desc) })) ∧
    (c.stage ≠ 0 →
      (s.pastRetain c = true → Completes (.caliperRecomputeDone id tile f) s fun t =>
        t.checkOf id = none ∧ t.cal.disSeq = (s.cal.disSeq + 1) % 2 ^ 32) ∧
      (∀ v, c.stage ≠ 1 → s.compute f c.desc (wholePart c.desc) = .ok v → Completes (.caliperRecomputeDone id tile f) s fun t =>
        t.checkOf id = none ∧ t.cal.disSeq = (s.cal.disSeq + 1) % 2 ^ 32) ∧
      ∀ code, s.compute f c.desc (wholePart c.desc) = .error code → code ≠ 0x91 → (code ≠ 0x83 ∨ j.tries ≠ 0) →
        Completes (.caliperRecomputeDone id tile f) s fun t =>
          t.checkOf id = none ∧ t.cal.disSeq = (s.cal.disSeq + 1) % 2 ^ 32)) ∧
  (∀ id c tile f j r v c', s.checkOf id = some c → s.calStopped = false → s.tileRuns tile id = some j → c.stage = 0 → c.comp = true →
    c.req = some r → s.compute f c.desc (blockPart c.desc j.part) = .ok v →
    c' = { c with blocks := c.blocks.erase j.part, flags := c.flags ||| v.flags } →
    Completes (.caliperFirstComputeDone id tile f) s fun t =>
      (s.resultBad c.desc = none → c'.blocks ≠ [] → t.checkOf id = some c') ∧
      (s.resultBad c.desc = none → c'.blocks = [] → t.checkOf id = none ∧
        s.answers t r 0 (c'.written % 2 ^ 32) (c'.cycles % 2 ^ 64)) ∧
      (∀ addr code, s.resultBad c.desc = some (addr, code) → t.checkOf id = none ∧
        s.answers t r (if code = 0x84 ∨ code = 0x37 then code else 0x83) (c.written % 2 ^ 32) (c.cycles % 2 ^ 64))) ∧
  (∀ id tile f, s.tileRuns tile id = none → Completes (.caliperFirstComputeDone id tile f) s (fun t => t = s) ∧
    Completes (.caliperRecomputeDone id tile f) s (fun t => t = s)) ∧
  (∀ id tile c j, s.checkOf id = some c → s.tileRuns tile id = some j →
    (j.tries = 0 → Completes (.caliperFetchTimeout ⟨id, tile⟩) s fun t => t = s.setTileJob { j with tries := 1 }) ∧
    (j.tries ≠ 0 → Completes (.caliperFetchTimeout ⟨id, tile⟩) s fun t => t.checkOf id = none)) ∧
  (∀ id tile, s.tileRuns tile id = none → Completes (.caliperFetchTimeout ⟨id, tile⟩) s fun t => t = s) ∧
  (∀ id c, s.checkOf id = some c →
    (c.req = none → (s.pastRetain c = true ∨ (s.cal.busy.any fun j => j.rank != 4 && j.id == id) = true) →
      Completes (.caliperOfferRetainExpiry id) s fun t => t.checkOf id = none ∧
        (c.stage = 0 → t.cal.disSeq = s.cal.disSeq) ∧ (c.stage ≠ 0 → t.cal.disSeq = (s.cal.disSeq + 1) % 2 ^ 32)) ∧
    (c.req.isSome = true ∨ (s.pastRetain c = false ∧ (s.cal.busy.any fun j => j.rank != 4 && j.id == id) = false) →
      Completes (.caliperOfferRetainExpiry id) s fun t => t = s)) ∧
  (∀ run, Completes (.runTableIdleExpiry run) s fun t =>
    t = { s with cal := { s.cal with runs := s.cal.runs.filter fun x => x.run != run } }) ∧
  (∀ (r : Req) e f, s.may r.principal .audit = true →
    (s.calEntryBad e true = none → Completes (.checkDesc r e f) s fun t =>
      (s.fetch f (u64 e 8) 128 = none → s.cal.again.contains r = true ∨ s.fetchWhy (u64 e 8) 128 = 0x84 →
        s.answers t r (s.fetchCode (u64 e 8) 128) 0 0 ∧ t.cal = { s.cal with again := s.cal.again.erase r }) ∧
      (s.fetch f (u64 e 8) 128 = none → s.cal.again.contains r = false → s.fetchWhy (u64 e 8) 128 ≠ 0x84 →
        t = { s with cal := { s.cal with again := r :: s.cal.again } }) ∧
      ∀ d, s.fetch f (u64 e 8) 128 = some d →
        (∀ x, descBad d false = some x → s.answers t r x.1 (x.2 % 2 ^ 32) 0 ∧ t.cal = { s.cal with again := s.cal.again.erase r }) ∧
        (descBad d false = none → t.cal.nextId = s.cal.nextId + 1 ∧ t.cal.checks = s.cal.checks ++
          [{ id := s.cal.nextId, site := u8 e 0x1D, req := some r, desc := d, time := s.pnt.count }] ∧
          (s.calStopped = true → t.cal.busy = s.cal.busy))) ∧
    (s.calEntryBad e false = none → Completes (.computeDesc r e f) s fun t => ∀ d, s.fetch f (u64 e 8) 128 = some d →
      (∀ x, descBad d true = some x → s.answers t r x.1 (x.2 % 2 ^ 32) 0) ∧
      (descBad d true = none → t.cal.nextId = s.cal.nextId + 1 ∧ t.cal.checks = s.cal.checks ++
        [{ id := s.cal.nextId, site := 0xFF, req := some r, desc := d, comp := true, blocks := List.range (resultBlocks d) }]))) ∧
  (∀ (r : Req) n v, s.may r.principal .audit = true → n < 8 → Completes (.calAuditRateWrite r n v) s fun t =>
    t = s.setCalSite n { s.calSite n with rate := if v % 2 ^ 32 = 0 then 0 else clampN 4 24 (v % 2 ^ 32) }) ∧
  (∀ (r : Req) key, s.may r.principal .audit = true → Completes (.calAuditKeyWrite r key) s fun t =>
    t = { s with cal := { s.cal with key := some (BitVec.ofNat 256 key) } }) ∧
  (∀ (r : Req) n, s.may r.principal .counterClear = true → n < 8 → Completes (.calCovClr r n) s fun t =>
    t = s.setCalSite n { s.calSite n with cov := [], lost := {} }) ∧
  (∀ (p : Path) prin v, s.may prin .read = true → Completes (.calDisFromWrite p prin v) s fun t =>
    t = { s with cal := { s.cal with disFrom := Tbl.set s.cal.disFrom p.idx (v % 2 ^ 32)
                                     disCur := Tbl.set s.cal.disCur p.idx (s.disAt (v % 2 ^ 32)) } }) ∧
  (∀ p : Path, (s.cal.ring.any fun x => x.1 == Tbl.get 0 s.cal.disCur p.idx) = true → Completes (.calDisRecAdvance p) s fun t =>
    t = { s with cal := { s.cal with disCur := Tbl.set s.cal.disCur p.idx (s.disAt ((Tbl.get 0 s.cal.disCur p.idx + 1) % 2 ^ 32)) } })

/-- Gauge (R388 to R392, R395). -/
def Obligations.GaugeTakesEffect : Prop := ∀ s : State, s.pwr.core = true →
  (∀ (r : Req) e src, s.may r.principal .audit = true → s.gaugeEntryBad r e true false = none → gaugeUsed (s.gaugeDef (u8 e 0x1C)) = true →
    s.hasDram = true → u32 e 0x18 ≤ ggLimit.nat (s.gaugeDef (u8 e 0x1C)) → Completes (.gaugeLoad r e src) s fun t =>
      (s.source (u64 e 0x10) (u32 e 0x18) src = none → (s.slot (u8 e 0x1C)).loading = none →
        s.fetchCode (u64 e 0x10) (u32 e 0x18) ≠ 0x84 →
        t.slot (u8 e 0x1C) = { s.slot (u8 e 0x1C) with loading := some r } ∧ s.onlyChanges [.cal] t) ∧
      (s.source (u64 e 0x10) (u32 e 0x18) src = none → (s.slot (u8 e 0x1C)).loading.isSome = true ∨
        s.fetchCode (u64 e 0x10) (u32 e 0x18) = 0x84 → s.answers t r (s.fetchCode (u64 e 0x10) (u32 e 0x18)) 0 0 ∧
        t.slot (u8 e 0x1C) = { s.slot (u8 e 0x1C) with loading := none }) ∧
      ∀ b, s.source (u64 e 0x10) (u32 e 0x18) src = some b → (t.slot (u8 e 0x1C)).loading = none ∧
        (Config.sha384 b ≠ digestAt (s.gaugeDef (u8 e 0x1C)) 0x10 → s.answers t r 0x17 0 0 ∧
          t.slot (u8 e 0x1C) = { s.slot (u8 e 0x1C) with loading := none }) ∧
        (Config.sha384 b = digestAt (s.gaugeDef (u8 e 0x1C)) 0x10 → imageConsistent (s.gaugeDef (u8 e 0x1C)) b = true →
          s.answers t r 0 0 0 ∧ t.gimg = Tbl.set s.gimg (u8 e 0x1C) b ∧ (t.slot (u8 e 0x1C)).loaded = true ∧
          (t.slot (u8 e 0x1C)).entry = s.gaugeDef (u8 e 0x1C))) ∧
  (∀ (r : Req) e, s.may r.principal .audit = true → gaugeUsed (s.gaugeDef (u8 e 0x1C)) = true → (s.slot (u8 e 0x1C)).loaded = true →
    (s.gaugeEntryBad r e false true = none → Completes (.gaugeInvoke r e) s fun t =>
      t = s.gaugeBegin (u8 e 0x1C) (some (r, u64 e 0x20)) ∧
      (t.slot (u8 e 0x1C)).jobs.length = (s.slot (u8 e 0x1C)).jobs.length + 1) ∧
    (s.gaugeEntryBad r e false false = none → Completes (.gaugeUnload r e) s fun t => s.answers t r 0 0 0 ∧
      t.slot (u8 e 0x1C) = { s.slot (u8 e 0x1C) with loaded := false, hist := [] } ∧
      t.gimg = if (s.slot (u8 e 0x1C)).jobs = [] then Tbl.del s.gimg (u8 e 0x1C) else s.gimg)) ∧
  (∀ (r : Req) e, s.may r.principal .audit = true → gaugeUsed (s.gaugeDef (u8 e 0x1C)) = true → (s.slot (u8 e 0x1C)).loaded = false →
    s.gaugeEntryBad r e false true = none → Completes (.gaugeInvoke r e) s fun t => s.answers t r 0x86 0 0 ∧ t.cal = s.cal) ∧
  (∀ n, (s.slot n).loaded = true →
    (s.calStopped = false → (s.slot n).jobs = [] → Completes (.gaugeInvocation n) s fun t => t = s.gaugeBegin n none) ∧
    ((s.calStopped = true ∨ (s.slot n).jobs ≠ []) → Completes (.gaugeInvocation n) s fun t =>
      t.slot n = { s.slot n with skip := (s.slot n).skip.inc.1, skipEp := true })) ∧
  (∀ n, (s.slot n).loaded = false → Completes (.gaugeInvocation n) s fun t => t = s) ∧
  (∀ n x q rest, (s.slot n).jobs = (x, q) :: rest → s.calStopped = false →
    (s.cal.busy.any fun j => j.rank == 4 && j.id == n) = true → Completes (.gaugeInvocationDone n) s fun t =>
    (t.slot n).jobs = rest ∧ (t.slot n).invocation = ((s.slot n).invocation + 1) % 2 ^ 32 ∧
    (t.slot n).outs = (gaugeOutputs (Tbl.get [] s.gimg n) x).1.zipIdx.map fun o => (o.2, o.1)) ∧
  (∀ n, (s.cal.busy.any fun j => j.rank == 4 && j.id == n) = false → Completes (.gaugeInvocationDone n) s fun t => t = s)

/-- The Journal engine: records, waits, spot checks, signing and flush descriptors (R399 to R402, R410 to R412, R415). -/
def Obligations.JournalRecordsTakeEffect : Prop := ∀ s : State,
  (∀ port n rec, s.pwr.core = true → s.pwr.fabric = true → s.ebx.up.getLsbD port = true → rec.length = 48 → u8 rec 0 = 7 →
    u8 rec 1 = n → n < 8 →
    (s.jrnDrops = true → Completes (.emissionRecord port (Tbl.get 0xFFFF s.ebx.siteEp n) rec) s fun t =>
      Tbl.get {} t.jrn.cnts 6 = (Tbl.get ({} : Cnt) s.jrn.cnts 6).inc.1 ∧ t.jrn.seqs = s.jrn.seqs) ∧
    (∀ q, s.jrnDrops = false → u32 rec 4 ≤ 16777215 → u8 rec 2 = 0 → u8 rec 3 = 0 → u32 rec 0x1C = 0 → u64 rec 8 ≠ 0 →
      s.seqOf (u64 rec 8) = some q → q.run = u64 rec 0x10 → q.open_ = true → (s.jrnRun q.run).manifest = none →
      q.blocks ≤ u32 rec 4 / 1024 → u32 rec 4 ≠ 0 → q.last = none → (∀ x ∈ q.recs, x.idx ≠ u32 rec 4) →
      ({ q with recs := ⟨u32 rec 4, u32 rec 0x18, u64 rec 0x20, u64 rec 0x28, n⟩ :: q.recs } : JSeq).mustFold = false →
      (s.jrn.seqs.map JSeq.slot).Nodup →
      Completes (.emissionRecord port (Tbl.get 0xFFFF s.ebx.siteEp n) rec) s fun t =>
        t.seqOf (u64 rec 8) = some { q with recs := ⟨u32 rec 4, u32 rec 0x18, u64 rec 0x20, u64 rec 0x28, n⟩ :: q.recs })) ∧
  (∀ port n rec, s.pwr.core = true → s.pwr.fabric = true → s.ebx.up.getLsbD port = true → rec.length = 96 → u8 rec 0 = 8 →
    u8 rec 1 = n → n < 8 → s.jrnDrops = false → bindOk rec = true →
    (∀ q, u8 rec 2 = 2 → u64 rec 0x20 = 0 → u64 rec 0x10 ≠ 0 → s.seqOf (u64 rec 0x10) = some q → q.run = u64 rec 8 →
      q.started = false → q.open_ = true → Completes (.bindInput port (Tbl.get 0xFFFF s.ebx.siteEp n) rec) s fun t =>
        t.seqOf (u64 rec 0x10) = some { q with input := some (digestAt rec 0x30) }) ∧
    (u8 rec 2 = 1 → u64 rec 0x10 = 0 → u64 rec 8 ≠ 0 → (s.jrnRun (u64 rec 8)).manifest = none →
      Completes (.bindWeights port (Tbl.get 0xFFFF s.ebx.siteEp n) rec) s fun t =>
        Tbl.find? (t.jrnRun (u64 rec 8)).weights n = some rec ∧
        (s.jrn.spotN ≠ 0 → t.jrn.spots = s.jrn.spots ++ [(u64 rec 8, n, none)]))) ∧
  (∀ id q, s.pwr.core = true → s.seqOf id = some q → q.open_ = true → (s.jrn.seqs.map JSeq.slot).Nodup →
    (s.jrn.seqs.map JSeq.id).Nodup →
    (((List.range 1024).any fun i => decide (1024 * q.blocks + i < (q.recs.map Token.idx).foldl max 0) &&
        !q.recs.any fun t => t.idx == 1024 * q.blocks + i) = true →
      Completes (.jrnGapWaitExpiry id) s fun t => ∀ u, t.seqOf id = some u → q.blocks < u.blocks) ∧
    Completes (.jrnSeqIdleExpiry id) s fun t => ∀ u, t.seqOf id = some u → u.open_ = false) ∧
  (∀ run x, s.pwr.core = true → (s.jrn.runs.find? fun x => x.run == run) = some x →
    (x.launch.isSome = true → Completes (.jrnSealWaitExpiry run) s fun t => (t.jrnRun run).manifest.isSome = true) ∧
    (∀ m, s.armServes = true → x.manifest = some m → x.signed = false → x.unsignable = false → s.boot.identReady = true →
      s.signsNext x = true →
      Completes (.manifestSigned run true) s (fun t => (t.jrnRun run).signed = true ∧
        (t.jrnRun run).manifest = some (m ++ rmSignature m)) ∧
      Completes (.manifestSigned run false) s (fun t => (t.jrnRun run).failed = true ∧ (t.jrnRun run).signed = false ∧
        (t.jrnRun run).unsignable = x.failed))) ∧
  (∀ n run x list chunks, s.pwr.core = true → (s.jrn.spots.find? fun x => x.1 == run && x.2.1 == n) = some x →
    Completes (.spotCheckDone n run list chunks) s fun t =>
      t.jrn.spots = dropFirst (fun x => x.1 == run && x.2.1 == n) s.jrn.spots ∧
      (list = none → Tbl.get {} t.jrn.cnts 5 = (Tbl.get ({} : Cnt) s.jrn.cnts 5).inc.1 ∧ t.jrn.siteStatus = s.jrn.siteStatus) ∧
      (∀ ok k, spotVerdict (Tbl.get [] (s.jrnRun run).weights n) (s.jrnRun run).seed n s.jrn.spotN list chunks = some (ok, k) →
        Tbl.get 0 t.jrn.siteStatus n = Tbl.get 0 s.jrn.siteStatus n ||| (if ok then 1 else 2))) ∧
  (∀ c, s.pwr.standby = true → s.snap.flushing = true → Completes (.journalFlushDescriptorDone c) s fun t =>
    t.snap = { s.snap with flushing := false } ∧ s.onlyChanges [.snap, .flash0, .flash1] t ∧
    ∀ k, k = ((s.newestFlush false).elim 0 fun x => (x.1 + 1) % 4096) →
      t.fread 0 (flushOff k) 16384 = s.flushDesc c ∧ t.fread 1 (flushOff k) 16384 = s.flushDesc c)

/-- Exports, hashes and spot checks as commanded (R409, R410, R413). -/
def Obligations.JournalCommandsTakeEffect : Prop := ∀ (s : State) (r : Req) (e : Bytes),
  s.pwr.core = true → s.may r.principal .journal = true →
  (s.jEntryBad e false false false = none →
    Completes (.exportManifest r e) s (fun t =>
      ((s.hasDram = false ∨ ∀ x ∈ (s.jpair 0).log, ¬ (u8 x.bytes 0 = 4 ∧ u64 x.bytes 0x18 = u64 e 8)) →
        (s.jrn.held.find? fun h => h.1 == u64 e 8) = none → s.answers t r 0x90 0 0 ∧ t.jrn = s.jrn) ∧
      (∀ h, (s.hasDram = false ∨ ∀ x ∈ (s.jpair 0).log, ¬ (u8 x.bytes 0 = 4 ∧ u64 x.bytes 0x18 = u64 e 8)) → (s.jrn.held.find? fun h => h.1 == u64 e 8) = some h → (s.jrnRun h.1).signed = true →
        h.2.1.length ≤ u64 e 0x20 → s.canExport (u64 e 0x18) h.2.1.length = none → s.answers t r 0 1 0)) ∧
    Completes (.exportSeq r e) s (fun t => (s.hasDram = false → t = s.jDone r 0x84 0 0 0 0) ∧
      (∀ l, s.hasDram = true →
        ([0, 1].flatMap fun p => (seqEntries (u64 e 8) false (s.jpair p).log.reverse).map fun x => (p, x)) = l →
        (l ≠ [] → t = s.jCopy r e l) ∧ (l = [] → s.answers t r 0x90 0 0)))) ∧
  (s.jEntryBad e true false false = none → Completes (.exportLog r e) s fun t =>
    (s.pairServes (u8 e 0x28) = false → s.answers t r 0x84 0 0) ∧
    ∀ y l, s.pairServes (u8 e 0x28) = true → ((s.jpair (u8 e 0x28)).log.find? fun y => y.off == u64 e 8) = some y →
      fitEntries (u64 e 0x20) ((s.jpair (u8 e 0x28)).log.reverse.filter fun z => decide (y.pos ≤ z.pos)) = l → l ≠ [] →
      s.canExport (u64 e 0x18) ((l.map fun z => z.bytes.length).foldl (· + ·) 0) = none →
      (t.jpair (u8 e 0x28)).exported = max (s.jpair (u8 e 0x28)).exported
        (l.getLast?.elim (s.jpair (u8 e 0x28)).exported fun z => z.pos + z.bytes.length)) ∧
  (s.jEntryBad e false false true = none → ∀ src, Completes (.hashRange r e src) s fun t =>
    (∀ b, s.source (u64 e 0x10) (u64 e 0x20) src = some b →
      t = { s with jrn := { s.jrn with hashes := s.jrn.hashes ++ [(r, u64 e 0x18, b)] } }) ∧
    (s.source (u64 e 0x10) (u64 e 0x20) src = none → t.jrn = s.jrn)) ∧
  (∀ k dst b, s.jrn.hashes[k]? = some (r, dst, b) → Completes (.digestHashDone k) s fun t =>
    t.jrn.hashes = s.jrn.hashes.eraseIdx k ∧ (s.canExport dst 48 = none → s.answers t r 0 0 0) ∧
    (s.canExport dst 48 = some 0x84 → s.answers t r 0x84 0 0)) ∧
  (s.jEntryBad e false true false = none → Completes (.spotCheck r e) s fun t =>
    ((s.jrn.runs.any fun x => x.run == u64 e 8) = true → (Tbl.find? (s.jrnRun (u64 e 8)).weights (u8 e 0x29)).isSome = true →
      (s.jrn.spots.any fun x => x.1 == u64 e 8 && x.2.1 == u8 e 0x29) = false →
      t = { s with jrn := { s.jrn with spots := s.jrn.spots ++ [(u64 e 8, u8 e 0x29, some r)] } }) ∧
    (((s.jrn.runs.any fun x => x.run == u64 e 8) = false ∨ Tbl.find? (s.jrnRun (u64 e 8)).weights (u8 e 0x29) = none) →
      s.answers t r 0x90 0 0 ∧ t.jrn = s.jrn))

/-- The memory commands, fills, scrubbing and the SPD's silence (R422 to R424, R428, R432). -/
def Obligations.MemoryCommandsTakeEffect : Prop := ∀ s : State, s.pwr.core = true →
  (∀ (r : Req) ch, s.may r.principal .memory = true → s.brace = false → s.snap.holdup = false →
    ((s.ch ch).st = .inService → Completes (.memRemove r ch) s fun t => s.answers t r 0 0 0 ∧ (t.ch ch).st = .outOfService ∧
      (t.ch ch).cause = 7 ∧ (t.ch ch).kept = false) ∧
    ((s.ch ch).st ≠ .inService → Completes (.memRemove r ch) s fun t => t = s.complete r 0x53 0 0) ∧
    (((s.ch ch).st = .outOfService ∨ (s.ch ch).st = .absent) → Completes (.memReturn r ch true) s fun t => s.answers t r 0 0 0 ∧
      (t.ch ch).st = .training ∧ t.pwr.memory = true) ∧
    (((s.ch ch).st = .outOfService ∨ (s.ch ch).st = .absent) → Completes (.memReturn r ch false) s fun t => s.answers t r 0 0 0 ∧ (t.ch ch).st = .absent) ∧
    (∀ a, (s.ch ch).st ≠ .outOfService → (s.ch ch).st ≠ .absent → Completes (.memReturn r ch a) s fun t => t = s.complete r 0x53 0 0)) ∧
  (∀ (r : Req) ch a c, s.may r.principal .memory = true → (s.brace = true ∧ c = 0x31 ∨ s.brace = false ∧ s.snap.holdup = true ∧ c = 0x41) →
    Completes (.memRemove r ch) s (fun t => t = s.complete r c 0 0) ∧
    Completes (.memReturn r ch a) s (fun t => t = s.complete r c 0 0)) ∧
  (∀ ch, (s.ch ch).st = .filling → Completes (.memFillDone ch) s fun t => (t.ch ch).st = .inService ∧
    (t.ch ch).front = (s.ch ch).cap / 0x100000 ∧ (t.ch ch).kept = true ∧ (t.ch ch).scrubPos = 0) ∧
  (∀ ch, (s.ch ch).st ≠ .filling → Completes (.memFillDone ch) s fun t => t = s) ∧
  (∀ ch, s.chServes ch = true → Completes (.memSpdSilentTimeout ch) s fun t => (t.ch ch).st = .outOfService ∧ (t.ch ch).cause = 7) ∧
  (∀ ch, s.chServes ch = false → Completes (.memSpdSilentTimeout ch) s fun t => t = s) ∧
  (∀ ch, s.snap.holdup = false → (∀ k, k < 4 → (s.ch k).st ≠ .filling) → (s.ch ch).st = .inService →
    ((s.ch ch).scrubPos + 16384 < ((s.ch ch).cap - 0x100000) / 64 → Completes (.memScrubBurst ch []) s fun t =>
      t = { s with pwr := { s.pwr with clkReq := setBit s.pwr.clkReq 3 true }
                   mem := { s.mem with chs := Tbl.set s.mem.chs ch { s.ch ch with scrubPos := (s.ch ch).scrubPos + 16384 } } }) ∧
    (((s.ch ch).cap - 0x100000) / 64 ≤ (s.ch ch).scrubPos + 16384 → Completes (.memScrubBurst ch []) s fun t =>
      (t.ch ch).scrubPos = 0 ∧ t.mem.passTime = s.plinth ∧ s.onlyChanges [.pwr, .mem] t) ∧
    ∀ e : Nat × Nat × Nat, (s.ch ch).scrubPos ≤ e.1 / 64 → e.1 / 64 < (s.ch ch).scrubPos + 16384 → s.ownerAt ch e.1 e.2.1 = 8 →
      Completes (.memScrubBurst ch [e]) s fun t => (t.ch ch).scrub = (s.ch ch).scrub.inc.1 ∧
        (t.ch ch).detect = (s.ch ch).detect.inc.1 ∧ (t.ch ch).errAddr = e.1 ∧ (t.ch ch).errTime = s.plinth) ∧
  (∀ ch errs, (s.snap.holdup = true ∨ (∃ k, k < 4 ∧ (s.ch k).st = .filling) ∨ (s.ch ch).st ≠ .inService) →
    Completes (.memScrubBurst ch errs) s fun t => t = s)

/-- Detected errors and parity errors of the stacked SRAM (R426 to R431, R433, R436). -/
def Obligations.MemoryErrorsTakeEffect : Prop := ∀ s : State, s.pwr.core = true →
  (∀ ch addr owner unit recovered, s.chServes ch = true → addr < (s.ch ch).cap →
    Completes (.memReadErrorDetected ch addr owner unit recovered) s fun t =>
      (t.ch ch).detect = (s.ch ch).detect.inc.1 ∧ (t.ch ch).errAddr = addr ∧ (t.ch ch).errTime = s.plinth ∧
      (s.mem.errLimit ≤ 1 + ((s.ch ch).errTimes.filter fun a => decide (s.plinth < a + secs 3600)).length →
        s.mem.errLimit ≤ 65535 → (t.ch ch).st = .outOfService ∧ (t.ch ch).cause = 6) ∧
      (1 + ((s.ch ch).errTimes.filter fun a => decide (s.plinth < a + secs 3600)).length < s.mem.errLimit →
        (t.ch ch).st = (s.ch ch).st) ∧
      (s.ownerAt ch addr owner = 8 → owner ≠ 2 → recovered = false → (t.ch ch).bad.contains (addr / 64) = true ∧
        (t.ch ch).unrec = (s.ch ch).unrec.inc.1) ∧
      (s.ownerAt ch addr owner = 8 → owner ≠ 2 → recovered = true → (t.ch ch).bad.contains (addr / 64) = false ∧
        (t.ch ch).unrec = (s.ch ch).unrec) ∧
      (s.ownerAt ch addr owner = 8 → owner = 2 → (t.ch ch).bad.contains (addr / 64) = false ∧
        (t.ch ch).unrec = (s.ch ch).unrec)) ∧
  (∀ ch addr owner unit recovered, (s.chServes ch = false ∨ (s.ch ch).cap ≤ addr) →
    Completes (.memReadErrorDetected ch addr owner unit recovered) s fun t => t = s) ∧
  (∀ die region unit, die % 2 = 0 → region ≠ 0 → Completes (.sramParityError die region unit) s fun t => t = s) ∧
  (∀ die region unit, region < 4 → (die % 2 = 1 ∨ region = 0) → Completes (.sramParityError die region unit) s fun t =>
    Tbl.get {} t.mem.parity (die % 2) = (Tbl.get ({} : Cnt) s.mem.parity (die % 2)).inc.1 ∧
    (region = 0 → Tbl.find? t.cal.tileErr unit = some s.plinth ∧
      ((Tbl.find? s.cal.tileErr unit).any (fun a => decide (s.plinth < a + secs 60)) = true → unit < 16 →
        t.cal.fencedMap.getLsbD unit = true)) ∧
    (∀ k, region = 1 → s.boot.chosen = some k → t.boot.chosen ≠ some k ∧ Tbl.get 0 t.boot.slotErr k = 0x17) ∧
    (region = 2 → t.chiS unit = { (s.chiS unit).clear with modelLost := true }) ∧
    (∀ q x rest, region = 3 → unit = 2 + q → (s.queue q).taken = x :: rest → s.answers t (x.req q) 0x84 0 0)) ∧
  (∀ die unit, die % 2 = 1 → s.boot.run.isSome = true → s.rst.under = none →
    ((s.rst.wdtTimes.filter fun w => decide (s.plinth < w + secs 600)).take 2).length < 2 →
    Completes (.sramParityError die 4 unit) s fun t => s.Restarted t 4 .armature) ∧
  (∀ die unit, die % 2 = 1 → s.boot.run.isSome = false → Completes (.sramParityError die 4 unit) s fun t =>
    t.boot = s.boot ∧ s.onlyChanges [.mem, .log, .evt] t)

/-- Queues: doorbells, sizes, heads, and an engine taking an entry (R35, R440 to R445, R447). -/
def Obligations.QueueRegistersAndEntriesTakeEffect : Prop := ∀ s : State, s.pwr.core = true →
  (∀ (r : Req) q v, (s.queue q).enabled = true → v < (s.queue q).sqSize → Completes (.doorbellSqTail r q v) s fun t =>
    (t.queue q).sqTail = v ∧ (t.queue q).sqHead = (s.queue q).sqHead ∧ (t.queue q).error = (s.queue q).error ∧
    (t.queue q).owners = ((s.queue q).owners ++ List.replicate ((v + (s.queue q).sqSize - (s.queue q).sqHead) % (s.queue q).sqSize)
      (r.principal, r.path)).take ((v + (s.queue q).sqSize - (s.queue q).sqHead) % (s.queue q).sqSize) ∧
    ((q = 1 ∨ q = 2) → t.pwr.clkReq.getLsbD 2 = true)) ∧
  (∀ (r : Req) q v, (s.queue q).enabled = true → (s.queue q).sqSize ≤ v → (s.queue q).error = false →
    Completes (.doorbellSqTail r q v) s fun t => (t.queue q).error = true ∧ (t.queue q).code = 1 ∧ (t.queue q).sqTail = (s.queue q).sqTail) ∧
  (∀ (r : Req) q v, (s.queue q).enabled = false → Completes (.doorbellSqTail r q v) s fun t => t = s) ∧
  (∀ (r : Req) q v, (∀ x, queueRight q = some x → s.may r.principal x = true) →
    Completes (.queueSizeWrite r q false v) s (fun t => (t.queue q).sqSize = ringSizeOf v ∧ (t.queue q).cqSize = (s.queue q).cqSize ∧
      (t.queue q).sqHead = 0 ∧ (t.queue q).sqTail = 0 ∧ (t.queue q).taken = [] ∧ (t.queue q).owners = []) ∧
    Completes (.queueSizeWrite r q true v) s (fun t => (t.queue q).cqSize = ringSizeOf v ∧ (t.queue q).sqSize = (s.queue q).sqSize ∧
      (t.queue q).sqHead = 0 ∧ (t.queue q).sqTail = 0 ∧ (t.queue q).taken = [] ∧
      (ringSizeOf v = 0 → (t.queue q).error = false ∧ (t.queue q).cqTail = 0 ∧ (t.queue q).phase = true))) ∧
  (∀ (r : Req) q v, (∀ x, queueRight q = some x → s.may r.principal x = true) → (s.queue q).enabled = true → (s.queue q).full = false →
    (v < (s.queue q).cqSize → (v + (s.queue q).cqSize - (s.queue q).cqHead) % (s.queue q).cqSize ≤ (s.queue q).unconsumed →
      Completes (.cqHeadWrite r q v) s fun t => (t.queue q).cqHead = v ∧ (t.queue q).cqTail = (s.queue q).cqTail ∧
        (t.queue q).error = (s.queue q).error ∧ s.onlyChanges [.ques] t) ∧
    ((s.queue q).cqSize ≤ v → (s.queue q).error = false → Completes (.cqHeadWrite r q v) s fun t =>
      (t.queue q).error = true ∧ (t.queue q).code = 3 ∧ (t.queue q).cqHead = (s.queue q).cqHead)) ∧
  (∀ q x, queueRight q = some x → ∀ (r : Req) cq v, s.may r.principal x = false →
    Completes (.queueSizeWrite r q cq v) s (fun t => t.ques = s.ques ∧ s.onlyChanges [.log, .evt, .mgt] t) ∧
    Completes (.cqHeadWrite r q v) s (fun t => t.ques = s.ques ∧ s.onlyChanges [.log, .evt, .mgt] t)) ∧
  (∀ q e o, (s.queue q).enabled = true → (s.queue q).error = false → (s.queue q).waiting ≠ 0 → s.engineFree q = true →
    (s.queue q).canReserve = true → (s.nextEntry q).1 = some e → (s.queue q).owners.headD (unknownPrincipal, .fabric) = o →
    Completes (.engineEntryTake q) s fun t =>
      (t.queue q).sqHead = ((s.queue q).sqHead + 1) % (s.queue q).sqSize ∧ (t.queue q).owners = (s.queue q).owners.drop 1 ∧
      ((opcodes q).contains (u16 e 0) = true → ((queueRight q).any fun y => !s.may o.1 y) = false →
        (t.queue q).taken = (s.queue q).taken ++ [⟨e, o.1, o.2⟩]) ∧
      (((queueRight q).any fun y => !s.may o.1 y) = true → s.answers t (Taken.req ⟨e, o.1, o.2⟩ q) 0x37 0 0) ∧
      ((opcodes q).contains (u16 e 0) = false → q ≠ 0 → ((queueRight q).any fun y => !s.may o.1 y) = false →
        s.answers t (Taken.req ⟨e, o.1, o.2⟩ q) 0x10 0 0)) ∧
  (∀ q, (s.queue q).enabled = true → (s.queue q).error = false → (s.queue q).waiting ≠ 0 → s.engineFree q = true →
    (s.queue q).canReserve = false → Completes (.engineEntryTake q) s fun t => t = s.setQueue q { s.queue q with stall := true }) ∧
  (∀ q, ((s.queue q).enabled = false ∨ (s.queue q).error = true ∨ (s.queue q).waiting = 0 ∨ s.engineFree q = false) →
    Completes (.engineEntryTake q) s fun t => t = s)

/-- The Mover: COPY, FILL and FLASH_READ, and their segments (R451, R452). -/
def Obligations.MoverTakesEffect : Prop := ∀ s : State, s.pwr.core = true →
  (∀ (r : Req) e, s.may r.principal .memory = true →
    (s.movBad r (patch e 0 [1, 0]) = none → Completes (.copyMem r e) s fun t =>
      t.mov.jobs.length = s.mov.jobs.length + 1 ∧ s.onlyChanges [.mov] t) ∧
    (s.movBad r (patch e 0 [2, 0]) = none → Completes (.fillMem r e) s fun t =>
      t.mov.jobs.length = s.mov.jobs.length + 1 ∧ s.onlyChanges [.mov] t) ∧
    (s.movBad r (patch e 0 [3, 0]) = none → Completes (.flashRead r e) s fun t =>
      t.mov.jobs.length = s.mov.jobs.length + 1 ∧ s.onlyChanges [.mov] t) ∧
    (∀ c, s.movBad r (patch e 0 [1, 0]) = some c → Completes (.copyMem r e) s fun t => t.mov = s.mov ∧ s.answers t r c 0 0) ∧
    (∀ c, s.movBad r (patch e 0 [2, 0]) = some c → Completes (.fillMem r e) s fun t => t.mov = s.mov ∧ s.answers t r c 0 0) ∧
    (∀ c, s.movBad r (patch e 0 [3, 0]) = some c → Completes (.flashRead r e) s fun t => t.mov = s.mov ∧ s.answers t r c 0 0)) ∧
  (∀ (r : Req) e, s.may r.principal .memory = false →
    Completes (.copyMem r e) s (fun t => t.mov = s.mov ∧ s.answers t r 0x37 0 0) ∧
    Completes (.fillMem r e) s (fun t => t.mov = s.mov ∧ s.answers t r 0x37 0 0) ∧
    Completes (.flashRead r e) s (fun t => t.mov = s.mov ∧ s.answers t r 0x37 0 0)) ∧
  (∀ (remote : Option Bytes) (j : MovJob) off, s.memOk = true → s.mov.jobs = [j] → j.active = true → j.done = 0 →
    j.entry.length = 64 → (u16 j.entry 0 = 2 ∨ u16 j.entry 0 = 3) → 0 < u64 j.entry 0x18 → u64 j.entry 0x18 ≤ 0x100000 →
    s.window (u64 j.entry 0x10) = .dram off → s.movWindow (u64 j.entry 0x10) (u64 j.entry 0x18) true = none →
    s.dstBad (u64 j.entry 0x10) (u64 j.entry 0x18) = false → j.req.queue = none →
    Completes (.moverSegmentDone remote) s fun t => t.mov.jobs = [] ∧ s.answers t j.req 0 0 (u64 j.entry 0x18) ∧
      (∀ i, i < u64 j.entry 0x18 → Memory.get 0 t.dram (off + i) = if u16 j.entry 0 = 2 then (slice j.entry 0x20 8).getD (i % 8) 0
        else Memory.get erased (s.flash (u64 j.entry 8 / 0x10000000)) (u64 j.entry 8 % 0x10000000 + i)) ∧
      ∀ a, (a < off ∨ off + u64 j.entry 0x18 ≤ a) → Memory.get 0 t.dram a = Memory.get 0 s.dram a) ∧
  (∀ (remote : Option Bytes), (s.mov.jobs.find? MovJob.active) = none → Completes (.moverSegmentDone remote) s fun t => t = s)

/-- Ebbex requests served from the windows (R455, R457, R458). -/
def Obligations.EbbexRequestsTakeEffect : Prop := ∀ (s : State) port (p : Packet),
  s.pwr.core = true → s.pwr.fabric = true → s.ebx.up.getLsbD port = true →
  (p.payload = [] → 0 < p.length → p.length ≤ 256 →
    (∀ dev off, s.window p.addr = .flash dev off →
      (s.may (s.fabricPrincipal p.srcEp) .read = true → off + p.length ≤ 0x10000000 → Completes (.readReq port p) s fun t =>
        t = (s.credit port 0 1).respond port p 0x11 0 (s.fread dev off p.length)) ∧
      (s.may (s.fabricPrincipal p.srcEp) .read = false → Completes (.readReq port p) s fun t =>
        t = (s.credit port 0 1).respond port p 0x13 2 [])) ∧
    (∀ off b, s.window p.addr = .dram off → s.may (s.fabricPrincipal p.srcEp) .read = true → off % 4096 + p.length ≤ 4096 →
      s.dread off p.length = some b → Completes (.readReq port p) s fun t =>
        t = ((s.credit port 0 1).memAsk).respond port p 0x11 0 b) ∧
    (∀ off, s.window p.addr = .dram off → s.may (s.fabricPrincipal p.srcEp) .read = true → off % 4096 + p.length ≤ 4096 →
      s.dread off p.length = none → Completes (.readReq port p) s fun t =>
        t = if s.dramAcc off p.length = .ok then ((s.credit port 0 1).memAsk).respond port p 0x13 4 []
          else (s.credit port 0 1).respond port p 0x13 (s.dramAcc off p.length).status []) ∧
    (∀ off, s.window p.addr = .reg off → p.length = 4 → off % 4 = 0 → Completes (.readReq port p) s fun t =>
      t = (((s.credit port 0 1).readReg .fabric (s.fabricPrincipal p.srcEp) off).1).respond port p 0x11 0
        (leBytes 4 (((s.credit port 0 1).readReg .fabric (s.fabricPrincipal p.srcEp) off).2).toNat)) ∧
    (∀ off, s.window p.addr = .reg off → (p.length ≠ 4 ∨ off % 4 ≠ 0) → Completes (.readReq port p) s fun t =>
      t = (s.credit port 0 1).respond port p 0x13 3 []) ∧
    (s.window p.addr = .sink → Completes (.readReq port p) s fun t => t = (s.credit port 0 1).respond port p 0x13 2 []) ∧
    (s.window p.addr = .nowhere → Completes (.readReq port p) s fun t => t = (s.credit port 0 1).respond port p 0x13 1 [])) ∧
  ((p.payload ≠ [] ∨ p.length = 0 ∨ 256 < p.length) → Completes (.readReq port p) s fun t => t = s.ebxCount 0 1) ∧
  (p.payload ≠ [] → p.payload.length ≤ 256 →
    (∀ off, s.window p.addr = .dram off → s.rights (s.fabricPrincipal p.srcEp) ≠ 0 → off % 4096 + p.payload.length ≤ 4096 →
      s.dramAcc off p.payload.length = .ok → s.reserved off p.payload.length = false → s.dstBad p.addr p.payload.length = false →
      Completes (.writeReq port p) s (fun t => t = ((s.credit port 0 (creditUnits p.payload.length)).dwrite off p.payload).respond
        port p 0x12 0 [] ∧ t.dram = Memory.putAll 0 s.dram off p.payload) ∧
      Completes (.postedWrite port p) s (fun t => t = (s.credit port 2 (creditUnits p.payload.length)).dwrite off p.payload ∧
        t.dram = Memory.putAll 0 s.dram off p.payload ∧ t.out = s.out)) ∧
    (∀ off, s.window p.addr = .dram off → s.rights (s.fabricPrincipal p.srcEp) = 0 →
      Completes (.writeReq port p) s (fun t => t = (s.credit port 0 (creditUnits p.payload.length)).respond port p 0x13 2 []) ∧
      Completes (.postedWrite port p) s (fun t => t = s.credit port 2 (creditUnits p.payload.length))) ∧
    (∀ dev off, s.window p.addr = .flash dev off →
      Completes (.writeReq port p) s (fun t => t = (s.credit port 0 (creditUnits p.payload.length)).respond port p 0x13 2 []) ∧
      Completes (.postedWrite port p) s (fun t => t = s.credit port 2 (creditUnits p.payload.length))) ∧
    (∀ off, s.window p.addr = .reg off → p.payload.length = 4 → off % 4 = 0 →
      (s.credit port 0 1).writeDenied (fabricReq (s.fabricPrincipal p.srcEp) p.tag) off = false → Completes (.writeReq port p) s fun t =>
        t = ((s.credit port 0 1).writeReg (fabricReq (s.fabricPrincipal p.srcEp) p.tag) off (leNat p.payload)).respond port p 0x12 0 [])) ∧
  ((p.payload = [] ∨ 256 < p.payload.length) →
    Completes (.writeReq port p) s (fun t => t = s.ebxCount 0 1) ∧ Completes (.postedWrite port p) s (fun t => t = s.ebxCount 0 1))

/-- Ebbex responses, discarded and coalesced messages, and credits (R457, R458, R460, R461). -/
def Obligations.EbbexResponsesAndMessagesTakeEffect : Prop := ∀ (s : State) port (p : Packet),
  s.pwr.core = true → s.pwr.fabric = true → s.ebx.up.getLsbD port = true →
  (p.payload.length ≠ p.length → Completes (.readResp port p) s fun t =>
    t = (s.credit port 1 (creditUnits p.payload.length)).ebxCount 0 1) ∧
  (p.payload.length = p.length → s.reqOf p.tag false = none → Completes (.readResp port p) s fun t =>
    t = s.credit port 1 (creditUnits p.payload.length)) ∧
  (∀ e, p.payload.length = p.length → s.reqOf p.tag false = some e →
    (e.q = none → Completes (.readResp port p) s fun t => t = (s.credit port 1 (creditUnits p.payload.length)).dropReq e) ∧
    ∀ q, e.q = some q → Completes (.readResp port p) s fun t => (t.queue q).got = some ((p.payload ++ zeros 64).take 64) ∧
      t.ebx.reqs = dropFirst (fun x => x == e) s.ebx.reqs ∧ s.onlyChanges [.ebx, .ques] t) ∧
  (p.payload ≠ [] → Completes (.writeAck port p) s (fun t => t = (s.credit port 1 (creditUnits p.payload.length)).ebxCount 0 1) ∧
    Completes (.errorResp port p) s fun t => t = (s.credit port 1 (creditUnits p.payload.length)).ebxCount 0 1) ∧
  (∀ e, p.payload = [] → s.reqOf p.tag true = some e → Completes (.writeAck port p) s fun t => t = (s.credit port 1 1).dropReq e) ∧
  (p.payload = [] → s.reqOf p.tag true = none → Completes (.writeAck port p) s fun t => t = s.credit port 1 1) ∧
  (∀ e, p.payload = [] → (s.ebx.reqs.find? fun e => e.tag == p.tag) = some e →
    (∀ q, e.q = some q → Completes (.errorResp port p) s fun t => (t.queue q).fails = (s.queue q).fails + 1 ∧
      s.onlyChanges [.ques, .ebx, .out] t) ∧
    (∀ j, e.q = none → e.write = true → s.mov.jobs = [j] → u64 j.entry 0x10 ≤ e.addr → e.addr < u64 j.entry 0x10 + u64 j.entry 0x18 →
      Completes (.errorResp port p) s fun t => t.mov.jobs = [] ∧ s.answers t j.req 0x94 (j.done % 2 ^ 32) (j.done % 2 ^ 64)) ∧
    (e.q = none → e.write = false → Completes (.errorResp port p) s fun t => t = (s.credit port 1 1).dropReq e)) ∧
  ((p.payload.length < 32 ∨ 192 < p.payload.length) → Completes (.messageInvalid port p) s fun t => t = s.ebxCount 0 1) ∧
  (32 ≤ p.payload.length → p.payload.length ≤ 192 → s.msgOk p.srcEp p.payload = false → Completes (.messageInvalid port p) s fun t =>
    Tbl.get {} t.ebx.msgBad (s.siteOfEp p.srcEp) = (Tbl.get ({} : Cnt) s.ebx.msgBad (s.siteOfEp p.srcEp)).inc.1 ∧
    Tbl.get 0 t.ebx.ret (4 * port + 2) = Tbl.get 0 s.ebx.ret (4 * port + 2) + BitVec.ofNat 32 (creditUnits p.payload.length) ∧
    s.onlyChanges [.ebx, .evt] t) ∧
  (s.msgOk p.srcEp p.payload = true → Completes (.messageCoalesced port p) s fun t =>
    Tbl.get {} t.ebx.coal (6 * u8 p.payload 1 + msgIdx (u8 p.payload 0)) =
      (Tbl.get ({} : Cnt) s.ebx.coal (6 * u8 p.payload 1 + msgIdx (u8 p.payload 0))).inc.1 ∧
    Tbl.get 0 t.ebx.ret (4 * port + 2) = Tbl.get 0 s.ebx.ret (4 * port + 2) + BitVec.ofNat 32 (creditUnits p.payload.length) ∧
    s.onlyChanges [.ebx, .evt] t) ∧
  (p.payload.length = 16 → Completes (.creditPacket port p) s fun t => s.onlyChanges [.ebx] t ∧
    ∀ c, c < 3 → Tbl.get 0 t.ebx.peer (4 * port + c) = BitVec.ofNat 32 (u32 p.payload (4 * c))) ∧
  (p.payload.length ≠ 16 → Completes (.creditPacket port p) s fun t => t = s.ebxCount 0 1) ∧
  Completes (.ebxPacketDiscard port true p) s (fun t => t = s.ebxCount 0 1) ∧
  Completes (.ebxPacketDiscard port false p) s (fun t =>
    Tbl.get {} t.ebx.cnt 1 = ((Tbl.get ({} : Cnt) s.ebx.cnt 1).add 1).1 ∧ s.onlyChanges [.ebx, .evt] t)

/-- Ebbex ports, links, credits sent and requests on a port that went down (R454, R455, R458, R462). -/
def Obligations.EbbexPortsTakeEffect : Prop := ∀ s : State, s.pwr.core = true →
  (∀ port ep, s.pwr.fabric = true → port < 2 → s.ebx.trained.getLsbD port = true → s.pwr.absent.getLsbD (1 + port) = false →
    ((s.ebx.up.getLsbD (1 - port) = false ∨ Tbl.get 0 s.ebx.portEp (1 - port) = ep % 4096) →
      Completes (.linkPacket port ep) s fun t => t.ebx.up = setBit s.ebx.up port true ∧ t.ebx.epId = ep % 4096 ∧
        t.ebx.conflict = false ∧ s.onlyChanges [.ebx, .led] t ∧
        (setBit s.ebx.up port true = 3#2 → s.stepRuns 14 = true → t.stepRuns 14 = false)) ∧
    (s.ebx.up.getLsbD (1 - port) = true → Tbl.get 0 s.ebx.portEp (1 - port) ≠ ep % 4096 →
      Completes (.linkPacket port ep) s fun t => t.ebx.up = 1 ∧ t.ebx.conflict = true ∧ s.onlyChanges [.ebx] t)) ∧
  (∀ port ep, (s.pwr.fabric = false ∨ s.ebx.trained.getLsbD port = false ∨ s.pwr.absent.getLsbD (1 + port) = true) → Completes (.linkPacket port ep) s fun t => t = s) ∧
  (∀ port dropped, port < 2 → Completes (.ebxPortDown port dropped) s fun t => t.ebx.up.getLsbD port = false ∧
    t.ebx.trained.getLsbD port = false ∧
    (dropped ≠ 0 → Tbl.get {} t.ebx.cnt 2 = ((Tbl.get ({} : Cnt) s.ebx.cnt 2).add dropped).1) ∧
    ((s.ebx.reqs.filter fun e => e.write && e.port == port) = [] → (∃ j ∈ s.mov.jobs, j.active = true) → t.mov = s.mov)) ∧
  (∀ port ok, s.ebx.up.getLsbD port = false → Completes (.ebxPortRetrain port ok) s fun t =>
    t = { s with ebx := { s.ebx with trained := setBit s.ebx.trained port (ok && s.pwr.fabric && !s.pwr.absent.getLsbD (1 + port)) } }) ∧
  (∀ tag e, (s.ebx.reqs.find? fun e => e.tag == tag && !s.ebx.up.getLsbD e.port) = some e → e.reissued = false →
    s.ebx.up.getLsbD (1 - e.port) = true → Completes (.ebxRequestTimeout tag) s fun t => s.onlyChanges [.ebx, .out] t ∧
      t.ebx.reqs = dropFirst (fun x => x == e) s.ebx.reqs ++ [{ e with port := 1 - e.port, reissued := true }] ∧
      t.out = .packet (1 - e.port) { s.mkPacket (if e.write then 2 else 1) e.addr e.data with tag := e.tag, length := e.length } :: s.out) ∧
  (∀ tag e q, (s.ebx.reqs.find? fun e => e.tag == tag && !s.ebx.up.getLsbD e.port) = some e →
    (e.reissued = true ∨ s.ebx.up.getLsbD (1 - e.port) = false) → e.q = some q → Completes (.ebxRequestTimeout tag) s fun t =>
      (t.queue q).fails = (s.queue q).fails + 1) ∧
  (∀ tag, (s.ebx.reqs.find? fun e => e.tag == tag && !s.ebx.up.getLsbD e.port) = none →
    Completes (.ebxRequestTimeout tag) s fun t => t = s) ∧
  Completes .ebxCreditSend s (fun t => s.onlyChanges [.ebx, .out] t ∧ ∀ port c, port < 2 → c < 3 → s.ebx.up.getLsbD port = true →
    Tbl.get 0 t.ebx.retSent (4 * port + c) = Tbl.get 0 s.ebx.ret (4 * port + c)) ∧
  (s.ebx.up = 0#2 → Completes .ebxCreditSend s fun t => t = s)

/-- Events read, forwarded and pushed (R466, R475, R522). -/
def Obligations.EventForwardingTakesEffect : Prop := ∀ s : State,
  (∀ p : Path, s.pwr.core = true →
    ((s.evtAt p.idx).isSome = true → Completes (.evtReadAdvance p) s fun t =>
      t = { s with evt := { s.evt with cursor := Tbl.set s.evt.cursor p.idx (s.evtCursor p.idx + 1) } }) ∧
    (s.evtAt p.idx = none → Completes (.evtReadAdvance p) s fun t => t = s)) ∧
  (s.inService = true →
    (∀ n fails, s.evt.ring.length ≤ 4096 → Completes (.eventForward n fails) s fun t =>
      t.evt.first = s.evt.first + min n s.evt.ring.length ∧ s.onlyChanges [.evt, .mgt, .out] t ∧
      (s.evt.owed = 0#16 → t.evt.ring = s.evt.ring.drop n) ∧
      (16 ≤ n → 16 ≤ s.evt.ring.length → t.evt.owed = 0#16 ∧ ∃ l, t.evt.ring = s.evt.ring.drop n ++ l) ∧
      ∀ e sub prin, e ∈ s.evt.ring.take n → s.mgt.subs[sub]? = some prin → s.may prin .read = true →
        (fails.contains sub = false → Out.mgmt 475 (leBytes 4 prin ++ e.bytes) ∈ t.out) ∧
        (fails.contains sub = true → ⟨sub, e, 0⟩ ∈ t.mgt.tries)) ∧
    (∀ k (x : PushTry), s.mgt.tries[k]? = some x →
      Completes (.eventPushRetry k true) s (fun t => t.mgt.tries = s.mgt.tries.take k ++ s.mgt.tries.drop (k + 1) ∧
        t.out = .mgmt 475 (leBytes 4 (s.mgt.subs[x.sub]?.getD unknownPrincipal) ++ x.event.bytes) :: s.out) ∧
      (x.tries < 2 → Completes (.eventPushRetry k false) s fun t => t = { s with mgt := { s.mgt with
        tries := s.mgt.tries.take k ++ { x with tries := x.tries + 1 } :: s.mgt.tries.drop (k + 1) } }) ∧
      (2 ≤ x.tries → Completes (.eventPushRetry k false) s fun t =>
        t.mgt.tries = s.mgt.tries.take k ++ s.mgt.tries.drop (k + 1) ∧ t.mgt.subDrop = s.mgt.subDrop.inc.1 ∧
        s.onlyChanges [.mgt, .evt] t)) ∧
    (∀ k ok, s.mgt.tries[k]? = none → Completes (.eventPushRetry k ok) s fun t => t = s))

/-- TLS clients, Redfish requests, telemetry streams and wall time (R469, R472 to R477, R491). A Redfish request is the command
that its row names, carried out for the management path. -/
def Obligations.ManagementTakesEffect : Prop := ∀ s : State, s.inService = true →
  (∀ port hash nb na conns svc, s.mgt.portDown.getLsbD port = false → conns < 64 → s.mgt.tls.length < 32 →
    (svc = true → s.pair.st = .lead) →
    (s.tlsPrincipal hash ≠ unknownPrincipal → s.certOk nb na = true → Completes (.tlsConnect port hash nb na [] conns svc) s fun t =>
      t.mgt = { s.mgt with tls := s.mgt.tls ++ [s.tlsPrincipal hash] } ∧ t.out = .mgmt 472 (leBytes 4 (s.tlsPrincipal hash)) :: s.out ∧
      t.evt = { s.evt with wake := true } ∧ s.onlyChanges [.mgt, .evt, .out] t) ∧
    ((s.tlsPrincipal hash = unknownPrincipal ∨ s.certOk nb na = false) → Completes (.tlsConnect port hash nb na [] conns svc) s fun t =>
      t.mgt.tls = s.mgt.tls ∧ s.onlyChanges [.mgt, .log, .evt] t)) ∧
  (∀ port hash nb na conns svc, (s.mgt.portDown.getLsbD port = true ∨ 64 ≤ conns ∨ 32 ≤ s.mgt.tls.length ∨ (svc = true ∧ s.pair.st ≠ .lead)) →
    Completes (.tlsConnect port hash nb na [] conns svc) s fun t => t = s.ingress) ∧
  (∀ (r : Req) q, s.mgt.tls.contains r.principal = false → Completes (.redfishRequest r q) s fun t => t = s) ∧
  (∀ (r q : Req), s.mgt.tls.contains r.principal = true → q = { r with path := .management, queue := none } →
    (s.may r.principal .read = true →
      (∀ resource refs, Completes (.redfishRequest r (.get resource refs)) s fun t =>
        t = (s.ingress.emit (.mgmt 474 (refs.flatMap s.ingress.shows))).complete q 0 0 0) ∧
      (s.mgt.subs.length < 16 → Completes (.redfishRequest r .subscribe) s fun t => t.mgt.subs = s.mgt.subs ++ [r.principal] ∧
        s.answers t q 0 0 0) ∧
      Completes (.redfishRequest r .unsubscribe) s (fun t => t.mgt.subs = dropFirst (fun x => x == r.principal) s.mgt.subs ∧
        s.answers t q 0 0 0)) ∧
    (s.may r.principal .read = false → ∀ resource refs, Completes (.redfishRequest r (.get resource refs)) s fun t =>
      s.answers t q 0x37 0 0) ∧
    (∀ addr inst v, (regFor .management addr inst).isNone = true → Completes (.redfishRequest r (.write addr inst v)) s fun t =>
      t = s.ingress.complete q 0x10 0 0) ∧
    (∀ addr inst v, (regFor .management addr inst).isSome = true → [0x31000, 0x50124, 0xC0108].contains addr = false → Completes (.redfishRequest r (.write addr inst v)) s fun t =>
      (s.answers t q 0 0 0 ∨ s.answers t q 0x37 0 0) ∧
      t.pb .management (addr / 0x10000 % 16) = s.pb .management (addr / 0x10000 % 16)) ∧
    (∀ e src, Completes (.redfishRequest r (.entry 0 e src)) s (fun t => u16 e 0 = 4 → exec (.maqVerify q e) s.ingress = .next t) ∧
      Completes (.redfishRequest r (.entry 2 e src)) s (fun t => u16 e 0 = 0x12 → exec (.gaugeUnload q e) s.ingress = .next t) ∧
      Completes (.redfishRequest r (.entry 3 e src)) s (fun t => u16 e 0 = 2 → exec (.exportSeq q e) s.ingress = .next t) ∧
      Completes (.redfishRequest r (.entry 4 e src)) s (fun t => u16 e 0 = 1 → exec (.hashRange q e (some src)) s.ingress = .next t) ∧
      Completes (.redfishRequest r (.entry 5 e src)) s (fun t => u16 e 0 = 1 → exec (.copyMem q e) s.ingress = .next t) ∧
      Completes (.redfishRequest r (.entry 7 e src)) s (fun t => u16 e 0 = 1 → exec (.helloSession q e) s.ingress = .next t))) ∧
  (∀ k, s.boot.slot ≠ 2 → (s.stream k).cfg.getLsbD 0 = true → ((s.stream k).owner.any fun p => s.may p .read) = true →
    ((s.stream k).cfg.getLsbD 1 = false → Completes (.telemetryStreamPeriod k true) s fun t =>
      t = s.emit (.mgmt 476 (leBytes 1 (s.stream k).dest ++ s.samples (s.stream k)))) ∧
    ((s.stream k).cfg.getLsbD 1 = true → Completes (.telemetryStreamPeriod k true) s fun t =>
      t = s.post false .armature (s.portFor ((s.stream k).dest / 2 ^ 52)) (s.stream k).dest (s.samples (s.stream k))) ∧
    Completes (.telemetryStreamPeriod k false) s (fun t => (t.stream k).skip = (s.stream k).skip.inc.1 ∧
      (t.stream k).dest = (s.stream k).dest ∧ s.onlyChanges [.mgt, .evt] t)) ∧
  (∀ k kept, (s.boot.slot = 2 ∨ (s.stream k).cfg.getLsbD 0 = false ∨ ((s.stream k).owner.any fun p => s.may p .read) = false) →
    Completes (.telemetryStreamPeriod k kept) s fun t => t = s) ∧
  (∀ port time, Completes (.ptpMessage port s.mgt.ptpDomain time true) s (fun t =>
      t.mgt = { s.mgt with wallBase := time % 2 ^ 64, wallAt := s.plinth, wallSync := true, wallEver := true } ∧
      s.onlyChanges [.mgt, .log, .evt] t) ∧
    Completes (.ptpMessage port s.mgt.ptpDomain time false) s (fun t => t.mgt = { s.mgt with wallSync := false } ∧
      s.onlyChanges [.mgt, .log, .evt] t)) ∧
  (∀ port domain time within, domain ≠ s.mgt.ptpDomain → Completes (.ptpMessage port domain time within) s fun t => t = s)

/-- The hold line and the takeover: heartbeats, releases seen, claims, the takeover's drive, and TAKE_N (R478 to R481, R483). -/
def Obligations.PairRolesTakeEffect : Prop := ∀ s : State, s.pwr.standby = true →
  (∀ c, s.pair.ownHeld = false → Completes (.ownNHeartbeat c) s fun t => t = s) ∧
  (s.pair.ownHeld = true →
    (∀ c, 0 < s.pair.suspended → Completes (.ownNHeartbeat c) s fun t => t.pair = { s.pair with suspended := s.pair.suspended - 1 } ∧
      t.out = .line 479 (if s.yieldsNow then 4 else 1) :: s.out ∧ s.onlyChanges [.pair, .out] t) ∧
    (s.pair.suspended = 0 →
      (s.pins.bay = true → (s.pair.st = .claiming ∨ s.pair.st = .lead) → Completes (.ownNHeartbeat true) s fun t =>
        t.pair.st = .partner ∧ t.pair.ownHeld = false ∧ t.pair.outputs = false ∧ s.onlyChanges [.pair, .log, .evt, .out] t) ∧
      (s.pins.bay = false → Completes (.ownNHeartbeat true) s fun t => t.pair = { s.pair with beats := 0 } ∧
        s.onlyChanges [.pair, .out] t) ∧
      (s.pair.st = .claiming → s.pair.beats < 2 → Completes (.ownNHeartbeat false) s fun t =>
        t.pair = { s.pair with beats := s.pair.beats + 1 } ∧ s.onlyChanges [.pair, .out] t) ∧
      (s.pair.st = .claiming → 2 ≤ s.pair.beats → s.pair.taking ≠ some .ownerless → Completes (.ownNHeartbeat false) s fun t =>
        t.pair.st = .lead ∧ t.pair.outputs = !s.pwr.absent.getLsbD 7 ∧ t.seq.toAdopt = s.pins.present ∧
        s.onlyChanges [.pair, .seq, .cool, .pnt, .log, .evt, .out] t) ∧
      (s.pair.st = .lead → Completes (.ownNHeartbeat false) s fun t =>
        t = s.emit (.line 479 (if s.yieldsNow then 4 else 1))))) ∧
  (s.pair.ownHeld = false →
    (∀ y, s.pair.st = .undecided → Completes (.ownNReleaseObserved y) s fun t => t.pair.st = .partner ∧ t.pair.lastSeen = s.plinth ∧
      t.pair.roleConflict = (s.single || s.pair.roleConflict) ∧ s.onlyChanges [.pair, .led, .log, .evt] t) ∧
    (s.pair.st = .partner → Completes (.ownNReleaseObserved false) s fun t =>
      t = s.setPair fun p => { p with lastSeen := s.plinth, yields := 0 }) ∧
    (s.pair.st = .partner → s.pair.yields < 2 → Completes (.ownNReleaseObserved true) s fun t =>
      t = s.setPair fun p => { p with lastSeen := s.plinth, yields := s.pair.yields + 1 }) ∧
    (s.pair.st = .partner → 2 ≤ s.pair.yields → s.pair.taking = none → s.single = false →
      (s.pair.synced = true → Completes (.ownNReleaseObserved true) s fun t => t.pair.taking = some .yield ∧ t.pair.takeDriven = true ∧
        t.out = .line 480 1 :: s.out ∧ s.onlyChanges [.pair, .out] t) ∧
      (s.pair.synced = false → s.pair.yields ≠ 2 → Completes (.ownNReleaseObserved true) s fun t =>
        t = s.setPair fun p => { p with lastSeen := s.plinth, yields := 3 }) ∧
      (s.pair.synced = false → s.pair.yields = 2 → Completes (.ownNReleaseObserved true) s fun t => t.pair.blocked = true ∧ t.pair.taking = none ∧
        t.pair.takeDriven = s.pair.takeDriven))) ∧
  (∀ y, s.pair.ownHeld = true → Completes (.ownNReleaseObserved y) s fun t => t = s) ∧
  (∀ us, s.pair.st = .undecided → s.claimDelay ≤ us → s.maq.live.isSome = true → Completes (.pairClaimDelayExpiry us) s fun t =>
    t.pair = { s.pair with st := .claiming, ownHeld := true, beats := 0 } ∧ s.onlyChanges [.pair, .led] t) ∧
  (∀ us, s.pair.st = .undecided → (us < s.claimDelay ∨ s.maq.live = none) → Completes (.pairClaimDelayExpiry us) s fun t => t = s) ∧
  (∀ us, s.pair.st = .claiming → s.pair.ownHeld = false → max 500 (s.claimDelay - 2000) ≤ us →
    Completes (.pairClaimDelayExpiry us) s fun t => t = s.setPair fun p => { p with ownHeld := true, beats := 0 }) ∧
  (∀ us, 300 ≤ us → s.pair.st = .partner → s.pair.roleConflict = false → s.pins.eject = false → s.pair.taking = none →
    Completes (.pairOwnNIdleTimeout us) s fun t => t = s.setPair fun p => { p with st := .claiming, taking := some .ownerless, beats := 0 }) ∧
  (∀ us, (us < 300 ∨ s.pair.st ≠ .partner) → Completes (.pairOwnNIdleTimeout us) s fun t => t = s) ∧
  (∀ us, s.pair.st = .partner → s.pair.taking = none → s.single = false → s.pwr.armature = true → s.boot.run.isSome = true →
    s.maq.live.isSome = true → 1000 * roleDetect.nat s.role ≤ us → Completes (.pairTakeoverHang us) s fun t =>
      t = (s.setPair fun p => { p with taking := some .hang, takeDriven := true }).emit (.line 480 1)) ∧
  (∀ us, s.pair.st ≠ .partner → Completes (.pairTakeoverHang us) s fun t => t = s) ∧
  (∀ c, s.pair.taking = some c → s.pair.st = .partner → s.pair.shadowRegs = [] → Completes .pairTakeoverDrive s fun t =>
    t.pair.st = .lead ∧ t.pair.ownHeld = true ∧ t.pair.outputs = !s.pwr.absent.getLsbD 7 ∧ t.pair.suspended = 2 ∧ t.pair.taking = none ∧
    (s.pwr.absent.getLsbD 7 = false → ∀ f, f < 40 → s.fanUsed f = true → (t.fan f).st = .starting ∨ s.pumpStopped (f - 32) = true) ∧
    ∀ n (x : Nat × Nat × Bool × Bool), s.pair.shadowCaps = [(n, x)] → (t.capS n).cap = x.1) ∧
  (s.pair.taking = none → Completes .pairTakeoverDrive s fun t => t = s) ∧
  (s.pair.st = .lead → s.rst.under = none → Completes .takeNAsserted s fun t => s.Restarted t 9 .coreDie ∧ t.pair.st = .undecided ∧
    t.pair.outputs = false ∧ t.pair.ownHeld = false ∧ t.pair.holdState = 0) ∧
  (s.pair.st ≠ .lead → Completes .takeNAsserted s fun t => t = s)

/-- The pair link, the shadow, handover and the ejector (R482 to R485, R487, R535). -/
def Obligations.PairLinkAndHandoverTakeEffect : Prop := ∀ s : State,
  (s.pwr.core = true → s.pair.lanes ≠ 0#2 →
    (∀ partner good synced proto, Completes (.pairShadowFrame (.status partner good synced proto)) s fun t =>
      t.pair.peerPartner = partner ∧ t.pair.peerInputGood = good ∧ t.pair.peerProto = proto ∧
      t.pair.synced = (if s.pair.st = .lead then synced else s.pair.synced) ∧ s.onlyChanges [.pair] t) ∧
    (∀ item, (s.pair.st ≠ .partner ∨ s.shadowLink = false) → isStatus item = false → Completes (.pairShadowFrame item) s fun t =>
      t = s) ∧
    (s.pair.st = .partner → s.shadowLink = true →
      (∀ maq profile princ opt, (maq, profile, princ, opt) ≠ s.shadowIds →
        Completes (.pairShadowFrame (.identity maq profile princ opt)) s fun t => t.pair.shadowOk = false ∧ t.pair.synced = false ∧
          s.onlyChanges [.pair, .log, .evt] t) ∧
      (∀ maq profile princ opt, (maq, profile, princ, opt) = s.shadowIds →
        Completes (.pairShadowFrame (.identity maq profile princ opt)) s fun t => t.pair.shadowOk = true ∧
          s.onlyChanges [.pair, .log, .evt] t) ∧
      (∀ addr inst v, settingKeys.contains (addr, inst) = true → Completes (.pairShadowFrame (.setting addr inst v)) s fun t =>
        (addr, inst, v) ∈ t.pair.shadowRegs ∧ s.onlyChanges [.pair] t) ∧
      (∀ caps, Completes (.pairShadowFrame (.division caps)) s fun t => t.pair.lastDivision = some s.plinth ∧
        t.pair.shadowCaps = divisionTbl caps ∧ (∃ b, t.out.head? = some (.pairFrame 7 b)) ∧ (s.pair.shadowOk = true → s.pair.countLocked = true → t.pair.synced = true)) ∧
      (∀ c valid st, Completes (.pairShadowFrame (.count c valid st)) s fun t => t.pnt.valid = valid ∧ t.pair.countLocked = valid ∧
        (valid = true → t.pnt.count = c / 64 ∧ t.pnt.frac = c % 64 ∧ t.pnt.st = PtSt.ofCode st ∧
          t.pnt.epoch = if s.pnt.valid then s.pnt.epoch else s.pnt.epoch.inc.1) ∧
        (valid = false → t.pnt.st = .free ∧ t.pnt.count = s.pnt.count)) ∧
      (∀ n img, Completes (.pairShadowFrame (.chiselModel n img)) s fun t => Tbl.find? t.pair.shadowModels n = some img ∧
        s.onlyChanges [.pair] t) ∧
      (∀ i st b, Completes (.pairShadowFrame (.armEntry i st b)) s fun t => Tbl.find? t.pair.shadowArms i = some (st, b) ∧
        s.onlyChanges [.pair] t) ∧
      (∀ g vals, Completes (.pairShadowFrame (.railCounters g vals)) s fun t => (g, vals) ∈ t.pair.shadowCnts ∧
        s.onlyChanges [.pair] t) ∧
      (∀ rec, u8 rec 0 = 4 → u8 rec 1 < 8 → Completes (.pairShadowFrame (.ingested rec)) s fun t => t = s.choice (u8 rec 1) rec) ∧
      (∀ caps, s.pair.synced = true → s.pair.shadowRegs = [] → Completes (.pairShadowFrame (.handover caps)) s fun t =>
        t.pair.st = .lead ∧ t.pair.ownHeld = true ∧ t.pair.outputs = !s.pwr.absent.getLsbD 7 ∧ t.pair.suspended = 10))) ∧
  (∀ item, s.pwr.core = true → s.pair.lanes = 0#2 → Completes (.pairShadowFrame item) s fun t => t = s) ∧
  (s.pwr.standby = true →
    (s.since s.pair.lastDivision (msecs 10) = true → Completes .pairSyncAgeTimeout s fun t => t.pair = { s.pair with synced := false } ∧
      s.onlyChanges [.pair, .log, .evt] t) ∧
    (s.since s.pair.lastDivision (msecs 10) = false → Completes .pairSyncAgeTimeout s fun t => t = s) ∧
    (∀ lane up, Completes (.pairLinkChange lane up) s fun t => s.onlyChanges [.pair] t ∧
      t.pair.lanes = setBit s.pair.lanes lane (up && s.pwr.core && !s.pins.eject) ∧
      (t.pair.lanes = 0#2 → t.pair.peerPartner = false ∧ t.pair.partnerAbsent = (s.pair.partnerAbsent || s.pair.st == .lead)) ∧
      (t.pair.lanes ≠ 0#2 → t.pair.partnerAbsent = false)) ∧
    Completes .ejectNAsserted s (fun t => t.pins = { s.pins with eject := true } ∧
      (s.pair.st = .lead → t.pair.st = .partner ∧ t.pair.outputs = false ∧ t.pair.ownHeld = false) ∧
      (s.pair.st = .partner → t.pair.lanes = 0 ∧ t.pair.synced = false) ∧ (s.pair.st ≠ .lead → t.pair.st = s.pair.st)) ∧
    (s.pins.eject = true → Completes .ejectLatchRelease s fun t => t.pins = { s.pins with latchOpen := true } ∧
      t.out = .line 535 1 :: s.out ∧ s.onlyChanges [.pins, .out] t) ∧
    (s.pins.eject = false → Completes .ejectLatchRelease s fun t => t = s)) ∧
  (∀ r : Req, s.carriesOut r .pair = true →
    (s.handRefusal true = none → Completes (.handoverLead r) s fun t => s.answers t r 0 0 0 ∧ t.pair.st = .partner ∧
      t.pair.outputs = false ∧ t.pair.ownHeld = false) ∧
    (∀ c, s.handRefusal true = some c → Completes (.handoverLead r) s fun t => t = s.complete r c 0 0) ∧
    (s.pair.st = .partner → s.pair.synced = true → s.pair.taking = none → Completes (.takeLead r) s fun t => s.answers t r 0 0 0 ∧
      t.pair = { s.pair with taking := some .command, takeDriven := true }) ∧
    (s.pair.st = .lead → Completes (.takeLead r) s fun t => t = s.complete r 0xA2 0 0) ∧
    (s.pair.st = .partner → s.pair.synced = false → Completes (.takeLead r) s fun t => t = s.complete r 0xA0 0 0) ∧
    ∀ v, Completes (.holdSet r v) s fun t => s.answers t r 0 0 0 ∧ t.pair = { s.pair with holdWindow := clampN 1 60 (v % 256) })

/-- Register access: selects, snapshots, reads, staged and committed writes, and refusals (R16, R17, R92, R466, R468, R493 to
R500). Each clause names the address by its block `blk` and its offset. -/
def Obligations.RegisterAccessTakesEffect : Prop := ∀ s : State, s.pwr.core = true → ∀ blk off addr : Nat, blk < 16 →
  off < 0x10000 → off % 4 = 0 → addr = 0x10000 * blk + off →
  (∀ (r : Req) v, off = 0x10 →
    (s.may r.principal .read = true → Completes (.selectWrite r addr v) s fun t => s.onlyChanges [.acc] t ∧
      t.pb r.path blk = { s.pb r.path blk with
        sel := v % 2 ^ 32 % 65536, snap := none, stage := none
        status := if blockCount blk ≤ v % 2 ^ 32 % 65536 then setBit (s.pb r.path blk).status 0 true else (s.pb r.path blk).status } ∧
      ∀ (q : Path) k, k < 16 → (q ≠ r.path ∨ k ≠ blk) → t.pb q k = s.pb q k) ∧
    (s.may r.principal .read = false → Completes (.selectWrite r addr v) s fun t => t = s.refuseWrite r.path r.principal addr)) ∧
  (∀ (r : Req) v, off = 0x18 → s.may r.principal .read = true → Completes (.registerWrite r addr v) s fun t =>
    t = s.setPb r.path blk { s.pb r.path blk with
      status := w1c (s.pb r.path blk).status (BitVec.ofNat 10 (v % 2 ^ 32)) ||| (s.pb r.path blk).standing blk }) ∧
  (∀ (p : Path) prin, s.may prin .read = false →
    Completes (.registerReadRefused p prin addr) s (fun t => t.out = .read p addr 0 :: s.out ∧ s.onlyChanges [.acc, .out] t ∧
      t.pb p blk = { s.pb p blk with status := setBit (s.pb p blk).status 9 true }) ∧
    Completes (.snapshotLatchRead p prin addr) s (fun t => t.out = .read p addr 0 :: s.out ∧
      t.pb p blk = { s.pb p blk with status := setBit (s.pb p blk).status 9 true })) ∧
  (∀ (p : Path) prin d, s.may prin .read = true → off ≠ 0x10 → off ≠ 0x18 → ((secondSel blk).any fun x => x.1 == off) = false →
    s.regAt p blk off = some d →
    (d.words = 1 → Completes (.snapshotLatchRead p prin addr) s fun t =>
      t = s.emit (.read p addr (wordOf (if d.hidden then 0 else d.get s) 0))) ∧
    (d.words ≠ 1 → off = d.off → ¬(blk = 2 ∧ off = 0x1040) → Completes (.snapshotLatchRead p prin addr) s fun t =>
      t.out = .read p addr ((d.latch s)[0]?.getD 0) :: s.out ∧ s.onlyChanges [.acc, .out] t ∧
      t.pb p blk = { s.pb p blk with snap := some (d.off, d.latch s) }) ∧
    (∀ ws, d.words ≠ 1 → d.off + 4 ≤ off → endsRecord blk off = false → (s.pb p blk).snap = some (d.off, ws) →
      Completes (.snapshotLatchRead p prin addr) s fun t => t = s.emit (.read p addr (ws[(off - d.off) / 4]?.getD 0))) ∧
    (d.words ≠ 1 → d.off + 4 ≤ off → (s.pb p blk).snap = none → ¬(blk = 9 ∧ d.off = 0x1000) →
      Completes (.snapshotLatchRead p prin addr) s fun t =>
        t.pb p blk = { s.pb p blk with status := setBit (s.pb p blk).status 8 true } ∧
        t.out = .read p addr ((d.latch s)[(off - d.off) / 4]?.getD 0) :: s.out)) ∧
  (∀ (r : Req) v d f, off ≠ 0x10 → off ≠ 0x18 → ((secondSel blk).any fun x => x.1 == off) = false →
    s.regAt r.path blk off = some d → d.put = some f →
    (d.wl = true → (s.rst.locked = true ∨ r.principal ≠ armPrincipal) → Completes (.registerWrite r addr v) s fun t =>
      t = s.violation r.path addr) ∧
    (∀ x, d.wl = false → d.right = some x → s.may r.principal x = false → Completes (.registerWrite r addr v) s fun t =>
      t = s.refuseWrite r.path r.principal addr) ∧
    ((d.wl = true → s.rst.locked = false ∧ r.principal = armPrincipal) → (d.wl = false → ∀ x, d.right = some x →
      s.may r.principal x = true) →
      (d.words = 1 → Completes (.registerWrite r addr v) s fun t =>
        t = f r (v % 2 ^ 32) (if d.wl || (v % 2 ^ 32 &&& d.roMask) == 0 then s else s.violation r.path addr)) ∧
      (d.words ≠ 1 → (s.pb r.path blk).stage = none → d.roMask = 0 → (off - d.off) / 4 + 1 < d.words → Completes (.multiwordLowerWrite r addr v) s fun t =>
        s.onlyChanges [.acc] t ∧ (t.pb r.path blk).stage = some (d.off, [((off - d.off) / 4, BitVec.ofNat 32 (v % 2 ^ 32))])) ∧
      (∀ st, d.words = 2 → d.roMask = 0 → off = d.off + 4 → (s.pb r.path blk).stage = some (d.off, [(0, st)]) →
        Completes (.multiwordCommitWrite r addr v) s fun t => t = f r (st.toNat + 2 ^ 32 * (v % 2 ^ 32))
          (s.setPb r.path blk { s.pb r.path blk with stage := none })))) ∧
  (∀ (r : Req) v d, off ≠ 0x10 → off ≠ 0x18 → ((secondSel blk).any fun x => x.1 == off) = false →
    s.regAt r.path blk off = some d → d.put = none → Completes (.registerWrite r addr v) s fun t => t = s.violation r.path addr) ∧
  (∀ (r : Req) v, off ≠ 0x10 → off ≠ 0x18 → ((secondSel blk).any fun x => x.1 == off) = false →
    s.regAt r.path blk off = none → Completes (.registerWrite r addr v) s fun t => t = s)

/-- Single settings and sticky fields by their register addresses: what a write of a right's holder leaves (R16, R85, R89, R139,
R431, R446, R477, R485, R506, R508, R518 to R520). -/
def Obligations.SettingRegistersHoldTheirRanges : Prop := ∀ (s : State) (r : Req) (v : Nat), s.pwr.core = true → v < 2 ^ 32 →
  (s.may r.principal .reset = true →
    Completes (.registerWrite r 0x01014 v) s (fun t => t = { s with rst := { s.rst with rstCause := s.rst.rstCause &&& ~~~(BitVec.ofNat 13 v) } }) ∧
    Completes (.registerWrite r 0x01034 v) s (fun t => t = { s with rst := { s.rst with wdtPeriod := max 50 (min 5000 (v % 65536)) } }) ∧
    Completes (.registerWrite r 0x01058 v) s (fun t => t = { s with led := { s.led with retryNormal := s.led.retryNormal ||| BitVec.ofNat 20 v } }) ∧
    Completes (.registerWrite r 0xE1084 v) s (fun t => t = { s with mgt := { s.mgt with ptpDomain := max 0 (min 127 v) } })) ∧
  (s.may r.principal .update = true →
    Completes (.registerWrite r 0x21024 v) s (fun t => t = { s with boot := { s.boot with commitDwell := max 60 (min 86400 v) } }) ∧
    Completes (.registerWrite r 0x21068 v) s (fun t => t = { s with boot := { s.boot with pushFail := s.boot.pushFail &&& ~~~(BitVec.ofNat 8 v) } })) ∧
  (s.may r.principal .memory = true →
    Completes (.registerWrite r 0xC1000 v) s (fun t => t = { s with mem := { s.mem with errLimit := max 1 (min 65535 v) } }) ∧
    Completes (.registerWrite r 0xC1004 v) s (fun t => t = { s with mem := { s.mem with scrubPeriod := max 1 (min 168 v) } })) ∧
  (s.may r.principal .pair = true →
    Completes (.registerWrite r 0xE1008 v) s (fun t => t = { s with pair := { s.pair with holdWindow := max 1 (min 60 v) } }) ∧
    (v &&& 0xD = 0 → Completes (.registerWrite r 0xE1004 v) s fun t => t = { s with pair := { s.pair with blocked := s.pair.blocked && !v.testBit 1 } })) ∧
  (s.may r.principal .journal = true →
    Completes (.registerWrite r 0xB1008 v) s (fun t => t = { s with jrn := { s.jrn with seqIdle := max 1000 (min 600000 v) } }) ∧
    Completes (.registerWrite r 0xB100C v) s (fun t => t = { s with jrn := { s.jrn with gapWait := max 10 (min 1000 v) } })) ∧
  (s.may r.principal .audit = true →
    Completes (.registerWrite r 0xA1040 v) s (fun t => t = { s with cal := { s.cal with retain := max 1 (min 200 v) } })) ∧
  (s.may r.principal .budget = true →
    Completes (.registerWrite r 0x51000 v) s (fun t => exec (.trayBudgetWrite r (toInt 32 v)) s = .next t)) ∧
  (s.may r.principal .reset = false →
    Completes (.registerWrite r 0x01014 v) s (fun t => t.rst = s.rst ∧ t.evt.lockViol = s.evt.lockViol.inc.1) ∧
    Completes (.registerWrite r 0x01034 v) s (fun t => t.rst = s.rst ∧ t.evt.lockViol = s.evt.lockViol.inc.1))

/-- R356: folding a term and combining two accumulators, field by field; both are commutative and associative in every field, so
the terms' order and how they were divided leave no trace; the empty accumulator; TERMS never affects a result. -/
def Obligations.KrovvenFoldingIsOrderFree : Prop :=
  (∀ (a : Acc) (t : Val), (a.fold t).terms = min (a.terms + 1) 0xFFFFFFFF ∧ (a.fold t).seen = true ∧
    (a.fold t).nan = (a.nan || t == .nan) ∧ (a.fold t).pinf = (a.pinf || t == .inf false) ∧
    (a.fold t).ninf = (a.ninf || t == .inf true) ∧
    ((a.fold t).nz = true ↔ a.nz = true ∨ ∃ neg m e, t = .fin neg m e ∧ (neg = false ∨ m ≠ 0)) ∧
    ((a.fold t).special = true → (a.fold t).value = 0) ∧
    ∀ neg m e, t = .fin neg m e → -300 ≤ e → a.special = false →
      (a.fold t).value = a.value + (if neg then -1 else 1) * (m * 2 ^ (e + 300).toNat : Nat)) ∧
  (∀ a b : Acc, (a.combine b).terms = min (a.terms + b.terms) 0xFFFFFFFF ∧ (a.combine b).flagByte = a.flagByte ||| b.flagByte ∧
    (a.combine b).value = if a.special || b.special then 0 else a.value + b.value) ∧
  (∀ (a : Acc) (t u : Val), (a.fold t).fold u = (a.fold u).fold t) ∧
  (∀ a b : Acc, a.combine b = b.combine a) ∧ (∀ a b c : Acc, (a.combine b).combine c = a.combine (b.combine c)) ∧
  (∀ l m : List Val, (l ++ m).foldl Acc.fold {} = (l.foldl Acc.fold {}).combine (m.foldl Acc.fold {}) ∧
    (l.Perm m → l.foldl Acc.fold {} = m.foldl Acc.fold {})) ∧
  (({} : Acc).value = 0 ∧ ({} : Acc).flagByte = 0 ∧ ({} : Acc).terms = 0) ∧
  ∀ (a : Acc) (n fmt : Nat), ({ a with terms := n } : Acc).result fmt = a.result fmt

/-- R361, R362: a packet is 48 to 88 bytes, decodes to the accumulator it was made from and no two accepted packets of one state
differ; within the bounds of R355 and R363 it is accepted. -/
def Obligations.KrovvenPacketsCarryTheWholeState : Prop :=
  (∀ a : Acc, a.terms < 2 ^ 32 → -2 ^ 639 ≤ a.value → a.value < 2 ^ 639 → (a.special = true → a.value = 0) →
    packetAcc a.packet = a ∧ 48 ≤ a.packet.length ∧ a.packet.length ≤ 88 ∧ a.packet.length = 8 + 8 * (u8 a.packet 1 % 16) ∧
    (a.value.natAbs < 2 ^ 629 → (a.value ≠ 0 → 0 < a.terms) →
      (a.terms = 0xFFFFFFFF ∨ a.value = 0 ∨ a.value.natAbs < a.terms * 2 ^ 564) → ∀ rest : Bytes, packetOk (a.packet ++ rest) = true)) ∧
  ∀ b c : Bytes, packetOk b = true → packetOk c = true → packetAcc b = packetAcc c →
    b.take (8 + 8 * (u8 b 1 % 16)) = c.take (8 + 8 * (u8 c 1 % 16))

/-- R430: every detected error is counted once in MEM_CNT_DETECT, whoever finds it, with its address and time kept, and in
MEM_CNT_UNRECOVERED where its owner could not recover it. Whether an owner other than the Journal engine and Caliper recovers
is the command's operand. -/
def Obligations.EveryDetectedErrorIsCounted : Prop := ∀ (s : State) ch addr owner unit recovered (own : Nat) (ok : Bool),
  s.pwr.core = true → s.chServes ch = true → addr < (s.ch ch).cap → (s.ch ch).cap ≤ chSize → own = (if owner = 2 ∧ s.ownerAt ch addr owner = 8 then 2 else s.ownerAt ch addr owner) →
  ok = (if own = 1 then (s.dread ((ch / 2 * 2 + (1 - ch % 2)) * chSize + addr / 64 * 64) 64).isSome
    else if own = 2 ∨ own = 3 then true else if own = 4 then false else recovered) →
  Completes (.memReadErrorDetected ch addr owner unit recovered) s (fun t =>
    (t.ch ch).detect = (s.ch ch).detect.inc.1 ∧ (t.ch ch).errAddr = addr ∧ (t.ch ch).errTime = s.plinth ∧
    (t.ch ch).unrec = if ok then (s.ch ch).unrec else (s.ch ch).unrec.inc.1) ∧
  (s.snap.holdup = false → (∀ k, k < 4 → (s.ch k).st ≠ .filling) → (s.ch ch).st = .inService → (s.ch ch).scrubPos ≤ addr / 64 →
    addr / 64 < (s.ch ch).scrubPos + 16384 → recovered = true → Completes (.memScrubBurst ch [(addr, owner, unit)]) s fun t =>
      (t.ch ch).detect = (s.ch ch).detect.inc.1 ∧ (t.ch ch).errAddr = addr ∧ (t.ch ch).errTime = s.plinth ∧
      (t.ch ch).unrec = if ok then (s.ch ch).unrec else (s.ch ch).unrec.inc.1)

/-- R431: a channel leaves service with cause LIMIT once MEM_CNT_DETECT has grown by MEM_ERR_LIMIT within 3,600 s of Plinth
time, and not before; MEM_ERR_LIMIT is 64 by default and takes 1 to 65,535. -/
def Obligations.ErrorLimitTakesAChannelOut : Prop :=
  State.reset.mem.errLimit = 64 ∧
  (∀ (s : State) (r : Req) v, s.pwr.core = true → s.may r.principal .memory = true → v < 2 ^ 32 →
    Completes (.registerWrite r 0xC1000 v) s fun t => t.mem.errLimit = max 1 (min 65535 v) ∧ s.onlyChanges [.mem] t) ∧
  ∀ (s : State) ch addr owner unit recovered, s.pwr.core = true → s.chServes ch = true → addr < (s.ch ch).cap →
    1 ≤ s.mem.errLimit → s.mem.errLimit ≤ 65535 →
    Completes (.memReadErrorDetected ch addr owner unit recovered) s fun t =>
      (s.mem.errLimit ≤ 1 + ((s.ch ch).errTimes.filter fun a => decide (s.plinth < a + secs 3600)).length →
        (t.ch ch).st = .outOfService ∧ (t.ch ch).cause = 6) ∧
      (1 + ((s.ch ch).errTimes.filter fun a => decide (s.plinth < a + secs 3600)).length < s.mem.errLimit →
        (t.ch ch).st = (s.ch ch).st ∧ (t.ch ch).cause = (s.ch ch).cause)

/-- R83: under Brace STORE and SWITCH with NEXT_RESET complete BRACE and have no effect, and SWITCH with IMMEDIATE or STAGED is
carried out: it goes to the verifier, whose end commits a valid target that nothing blocks. -/
def Obligations.BraceHoldsOffStructureWrites : Prop := ∀ (s : State) (r : Req) (e : Bytes), s.pwr.core = true →
  s.pwr.standby = true → s.may r.principal .struct = true → s.brace = true →
  (s.maq.op = none → s.maq.waiting = [] →
    (∀ src, maqField e 1 = none → Completes (.maqStore r e src) s fun t => s.answers t r 0x31 0 0 ∧ t.maq = s.maq ∧
      t.flash0 = s.flash0 ∧ t.flash1 = s.flash1) ∧
    (maqField e 2 = none → (u8 s.optBytes 0xC).testBit 0 = false → u8 e 0x15 = 2 → Completes (.maqSwitch r e) s fun t =>
      s.answers t r 0x31 0 0 ∧ t.maq = s.maq ∧ t.flash0 = s.flash0 ∧ t.flash1 = s.flash1) ∧
    (maqField e 2 = none → (u8 s.optBytes 0xC).testBit 0 = false → u8 e 0x15 ≠ 2 → Completes (.maqSwitch r e) s fun t =>
      t.maq.op = some { op := 2, req := r, profile := u8 e 0x14, mode := u8 e 0x15 })) ∧
  (∀ o b, s.maq.op = some o → s.maq.pinsNext = none → s.maq.waiting = [] → o.op = 2 → o.byPins = false → o.queueLost = false → o.mode ≠ 2 →
    (s.loadCopies o.profile).2 = some b →
    s.blocking (mqStructure b) = 0 → Completes (.maqVerifyComplete true) s fun t => s.answers t o.req 0 0 0 ∧
      t.maq.live = some (mqStructure b) ∧ t.maq.activeProfile = o.profile)

/-- R215: the software floor, ceiling and weight of a site by their registers through CAP_SEL. The reset values are what the
registers read before any write. -/
def Obligations.SoftwareBoundsStayWithinTheStructure : Prop := ∀ (s : State) (r : Req) n v, s.pwr.core = true → n < 8 →
  s.maq.live.isSome = true → (s.pb r.path 5).sel = n → v < 2 ^ 32 →
  (s.may r.principal .sitePower = true →
    (∀ lo hi w : Int, lo = cpFloor.val (s.capOf n) → hi = cpCeil.val (s.capOf n) → w = toInt 32 v →
      Completes (.registerWrite r 0x5010C v) s (fun t => (t.capS n).swFloor = some (clampTo lo hi w).1 ∧
        ((lo ≤ w ∧ w ≤ hi) → (t.capS n).swFloor = some w ∧ t.capS n = { s.capS n with swFloor := some w }) ∧
        ((w < lo ∨ hi < w) → Tbl.get {} (t.capS n).cnts 0 = (Tbl.get ({} : Cnt) (s.capS n).cnts 0).inc.1)) ∧
      Completes (.registerWrite r 0x50110 v) s (fun t => (t.capS n).swCeil = some (clampTo lo hi w).1 ∧
        ((lo ≤ w ∧ w ≤ hi) → t.capS n = { s.capS n with swCeil := some w }) ∧
        ((w < lo ∨ hi < w) → Tbl.get {} (t.capS n).cnts 0 = (Tbl.get ({} : Cnt) (s.capS n).cnts 0).inc.1))) ∧
    (v % 256 = 0 → Completes (.registerWrite r 0x50114 v) s fun t => (t.capS n).weight = some 1 ∧
      Tbl.get {} (t.capS n).cnts 0 = (Tbl.get ({} : Cnt) (s.capS n).cnts 0).inc.1) ∧
    (v % 256 ≠ 0 → Completes (.registerWrite r 0x50114 v) s fun t => t.capS n = { s.capS n with weight := some (v % 256) })) ∧
  (s.may r.principal .sitePower = false → Completes (.registerWrite r 0x5010C v) s fun t => t.cap = s.cap) ∧
  (s.may r.principal .read = true → State.reset.capS n = {} ∧
    ((s.capS n).swFloor = none → Completes (.snapshotLatchRead r.path r.principal 0x5010C) s fun t =>
      t.out = .read r.path 0x5010C (BitVec.ofInt 32 (cpFloor.val (s.capOf n))) :: s.out) ∧
    ((s.capS n).swCeil = none → Completes (.snapshotLatchRead r.path r.principal 0x50110) s fun t =>
      t.out = .read r.path 0x50110 (BitVec.ofInt 32 (cpCeil.val (s.capOf n))) :: s.out) ∧
    ((s.capS n).weight = none → Completes (.snapshotLatchRead r.path r.principal 0x50114) s fun t =>
      t.out = .read r.path 0x50114 (BitVec.ofNat 32 (cpWeight.nat (s.capOf n))) :: s.out))

/-- R498, with what R468 and R17 make of a refused write: nothing but the counter, the event and the DENIED record. -/
def Obligations.RefusedAccessesHaveNoEffect : Prop := ∀ s : State, s.pwr.core = true → ∀ blk off addr : Nat, blk < 16 →
  off < 0x10000 → off % 4 = 0 → addr = 0x10000 * blk + off →
  (∀ (p : Path) prin, s.may prin .read = false → Completes (.registerReadRefused p prin addr) s fun t =>
    t.out = .read p addr 0 :: s.out ∧ (t.pb p blk).status.getLsbD 9 = true ∧ s.onlyChanges [.acc, .out] t) ∧
  (∀ (r : Req) v d, off ≠ 0x10 → off ≠ 0x18 → ((secondSel blk).any fun x => x.1 == off) = false → s.regAt r.path blk off = some d →
    (∀ x, d.put.isSome = true → d.wl = false → d.right = some x → s.may r.principal x = false →
      Completes (.registerWrite r addr v) s fun t => s.onlyChanges [.log, .evt, .mgt] t ∧
        t.evt.lockViol = s.evt.lockViol.inc.1 ∧
        (s.since (Tbl.find? s.evt.lastViol r.path.idx) (secs 1) = true → s.evt.ring.length < 4096 →
          s.evt.lockViol.inc.2 = false → (⟨s.ptime, 15, 17, r.path.idx, addr⟩ : Event) ∈ t.evt.ring) ∧
        (s.since (Tbl.find? s.mgt.lastDenied r.principal) (secs 1) = false → t.log = s.log) ∧
        (s.since (Tbl.find? s.mgt.lastDenied r.principal) (secs 1) = true → s.log.queue.length < 128 → s.log.gap = [] →
          s.log.ready = false → ∃ x, t.log.queue = s.log.queue ++ [x] ∧ x.typ = 0x22 ∧ x.kind = 2)) ∧
    ((d.put = none ∨ d.wl = true ∧ s.rst.locked = true) → Completes (.registerWrite r addr v) s fun t =>
      s.onlyChanges [.evt] t ∧ t.evt.lockViol = s.evt.lockViol.inc.1 ∧
      (s.since (Tbl.find? s.evt.lastViol r.path.idx) (secs 1) = false → s.evt.lockViol.inc.2 = false → t.evt.ring = s.evt.ring) ∧
      (s.since (Tbl.find? s.evt.lastViol r.path.idx) (secs 1) = true → s.evt.ring.length < 4096 →
        s.evt.lockViol.inc.2 = false → t.evt.ring = s.evt.ring ++ [⟨s.ptime, 15, 17, r.path.idx, addr⟩])))

/-- The queue of commands: a step is the front command's effect on the state with the queue's rest. With no command waiting one
crystal tick passes, which is the model's choice (log 1): Plinth time counts, and the Pointing count while the core domain is
powered, by the 0.8 ns step of each cycle of the PLL in units of 2^-44 ns as steered: by 500 ppm of it at most in LOCKING and 20 ppm in
LOCKED, and frozen elsewhere (R12, R322, R330, R332; the law within the limit is the model's choice, log 112). -/
def Obligations.StepRunsTheFrontCommandOrOneTick : Prop := ∀ s : State,
  (∀ c rest, s.pending = c :: rest →
    step s = exec c { s with pending := rest } ∧ ∀ t, step s = .next t → t.pending = rest) ∧
  (s.pending = [] → s.pwr.standby = false → step s = .next s) ∧
  (s.pending = [] → s.pwr.standby = true → s.plinth + 1 < 2 ^ 48 →
    (s.pwr.core = false → step s = .next { s with plinth := s.plinth + 1 }) ∧
    (s.pwr.core = true → s.pnt.frac < 64 → s.pnt.fine < 2 ^ 38 → s.pnt.phase < 256 → s.pnt.count + 30600 < 2 ^ 64 →
      (-7036874417 ≤ s.pnt.steer ∧ s.pnt.steer ≤ 7036874417) → ∃ t c, step s = .next t ∧ t.plinth = s.plinth + 1 ∧
      s.onlyChanges [.plinth, .pnt] t ∧ t.pnt.frac < 64 ∧ t.pnt.fine < 2 ^ 38 ∧ t.pnt.phase < 256 ∧
      256 * c + t.pnt.phase = 256 * 38146 + 249 + s.pnt.phase ∧
      (2 ^ 44 * t.pnt.count + 2 ^ 38 * t.pnt.frac + t.pnt.fine : Int) =
        2 ^ 44 * s.pnt.count + 2 ^ 38 * s.pnt.frac + s.pnt.fine + c * (14073748835533 + t.pnt.steer) ∧
      (s.pnt.st = .locking → -7036874417 ≤ t.pnt.steer ∧ t.pnt.steer ≤ 7036874417) ∧
      (s.pnt.st = .locked → -281474976 ≤ t.pnt.steer ∧ t.pnt.steer ≤ 281474976) ∧
      (s.pnt.st ≠ .locking → s.pnt.st ≠ .locked → t.pnt.steer = s.pnt.steer ∧ t.pnt.slew = s.pnt.slew)))

/-- Reset: memories in canonical form and nothing listed, no command waiting, and the reset values that the spec gives (R85, R105,
R305, R405, R431, R432, R471, R478, R506, R508, R516 to R520). -/
def Obligations.ResetHoldsItsValues : Prop :=
  State.reset.memOk = true ∧ State.reset.pending = [] ∧ State.reset.flash0 = [] ∧ State.reset.flash1 = [] ∧ State.reset.dram = [] ∧
  State.reset.rst.rstCause = 1 ∧ State.reset.rst.calRstCause = 1 ∧ State.reset.rst.wdtPeriod = 500 ∧ State.reset.boot.commitDwell = 600 ∧ State.reset.led.startSeq = 0 ∧
  State.reset.mem.errLimit = 64 ∧ State.reset.mem.scrubPeriod = 24 ∧ State.reset.jrn.region = 64 ∧ State.reset.pair.st = .undecided ∧
  State.reset.pair.holdWindow = 10 ∧ State.reset.mgt.spdmPort = 0x1062 ∧ State.reset.cal.fencedMap = 0 ∧
  (∀ n, (State.reset.stream n).period = 1000 ∧ (State.reset.ch n).st = .absent ∧ (State.reset.queue n).enabled = false ∧
    (State.reset.site n).st = .absent ∧ (State.reset.rail n).retries = 0) ∧
  ∀ p k, State.reset.pb p k = {}

/-- The byte memories keep their canonical form through every step. -/
def Obligations.MemoriesStayCanonical : Prop := ∀ s t : State, s.memOk = true → step s = .next t → t.memOk = true

/-- Every command completes in every state: no command faults or is refused by the model, and none touches the queue or Plinth
time. -/
def Obligations.EveryCommandCompletes : Prop := ∀ (c : Instr) (s : State), Completes c s fun t =>
  t.pending = s.pending ∧ t.plinth = s.plinth ∧ s.onlyChanges c.writes t

/-- A block without its standby and core domains powered stands still: only a power-on or a standby supply's event moves it (R29). -/
def Obligations.UnpoweredBlockStandsStill : Prop := ∀ (c : Instr) (s : State), s.pwr.standby = false → s.pwr.core = false →
  c ≠ .powerOn → c ≠ .standbyOn → c ≠ .standbyOff → exec c s = .next s

/-- R216: a division whose lower bounds fit gives out no more than the budget that is left beside the sites, and a site out of
service gets nothing; where the lower bounds do not fit, BUDGET_SHORT is set and every cap stays at its lower bound (that
TRAY_AVAIL then stands is the model's reading, log 33). -/
def Obligations.DivisionObeysTheBudget : Prop := ∀ s : State, s.armServes = true → s.maq.live.isSome = true → s.pair.st = .lead →
  ((((List.range 8).map s.divSite).map DivSite.cap).foldl (· + ·) 0 ≤
    min s.trayBudget (cpCeiling.val s.caps) - max s.nonsite (cpReserve.val s.caps) →
    Completes .capDivision s fun t =>
      ((List.range 8).map fun n => (t.capS n).cap).foldl (· + ·) 0 ≤
        min s.trayBudget (cpCeiling.val s.caps) - max s.nonsite (cpReserve.val s.caps) ∧
      t.cap.avail = min s.trayBudget (cpCeiling.val s.caps) - max s.nonsite (cpReserve.val s.caps) ∧
      ∀ n, n < 8 → (s.site n).st ≠ .seqUp → (s.site n).st ≠ .running → (s.site n).st ≠ .degraded → (t.capS n).cap = 0) ∧
  (min s.trayBudget (cpCeiling.val s.caps) - max s.nonsite (cpReserve.val s.caps) <
    (((List.range 8).map s.divSite).map DivSite.cap).foldl (· + ·) 0 →
    Completes .capDivision s fun t => t.cap.short = true ∧ t.cap.avail = s.cap.avail ∧
      ∀ n, n < 8 → (t.capS n).cap = (s.divSite n).cap)

/-- R153, R158: the move of a rail that asserts its enable without a timer comes from WAIT_UP alone, with every UP_DEPS rail good
and no order down; one that drops its enable comes from WAIT_DOWN alone, with every DOWN_DEPS rail under no order or out of the way. -/
def Obligations.RailsRiseOnlyOnGoodDependencies : Prop := ∀ (s : State) g r, s.railMove g = some r →
  (r.enable = true → (s.rail g).enable = false → r.st = .rising ∧ (s.rail g).st = .waitUp ∧ (s.rail g).downReq = false ∧
    ∀ k, k < scopeSize g → (s.upDeps g).testBit k = true → (s.rail (scopeBase g + k)).st = .good) ∧
  (r.enable = false → (s.rail g).enable = true → (s.rail g).st = .waitDown ∧
    ∀ k, k < scopeSize g → (s.downDeps g).testBit k = true →
      (s.rail (scopeBase g + k)).downReq = false ∨ (s.rail (scopeBase g + k)).st.outOfWay = true)

/-- R443: a completion of an entry taken from a ring in module DRAM lands in the 32 bytes at the ring's tail and nowhere else, in a
region that others own not at all (R419), and one without a queue stores nothing. -/
def Obligations.CompletionsWriteOnlyTheirSlot : Prop := ∀ (s : State) (r : Req) st d v,
  (r.queue = none → (s.complete r st d v).dram = s.dram) ∧
  (∀ q off, r.queue = some q → r.event = false → (s.queue q).enabled = true → hasTag r.tag (s.queue q).taken = true →
    s.window ((s.queue q).cqBase + 32 * (s.queue q).cqTail) = .dram off →
    (∀ a, (a < off ∨ off + 32 ≤ a) → Memory.get 0 (s.complete r st d v).dram a = Memory.get 0 s.dram a) ∧
    (s.memOk = true → s.dramAcc off 32 = .ok → s.dramBad off 32 = [] →
      (s.training off 32 || (!ownsRegion q && s.reserved off 32)) = false → ∀ i, i < 32 →
      Memory.get 0 (s.complete r st d v).dram (off + i) = (completion r.tag st 0 0 (s.queue q).phase
        (leBytes 4 d ++ midBytes (some q) ++ leBytes 8 v)).getD i 0) ∧
    ((s.training off 32 || (!ownsRegion q && s.reserved off 32)) = true → s.dramAcc off 32 = .ok → (s.complete r st d v).dram = s.dram) ∧
    ((s.complete r st d v).queue q).taken = dropFirst (fun x => u32 x.entry 4 == r.tag) (s.queue q).taken)

/-- R186: the fields of a fault record's 64 bytes, and its CRC over the 60 before it. -/
def Obligations.FaultRecordsReadAsLaidOut : Prop := ∀ (r : FaultRec) (seq : BitVec 32) (epoch : BitVec 8),
  (r.encode seq epoch).length = 64 ∧ u32 (r.encode seq epoch) 0 = seq.toNat ∧ u8 (r.encode seq epoch) 4 = epoch.toNat ∧
  u8 (r.encode seq epoch) 5 = r.typ % 256 ∧ u16 (r.encode seq epoch) 6 = r.source % 65536 ∧
  u64 (r.encode seq epoch) 8 = r.time % 2 ^ 64 ∧ u64 (r.encode seq epoch) 16 = r.pcount % 2 ^ 64 ∧
  u8 (r.encode seq epoch) 26 = r.kind % 256 ∧ u8 (r.encode seq epoch) 27 = r.siteState % 256 ∧
  (r.data.length = 28 → slice (r.encode seq epoch) 32 28 = r.data) ∧
  u32 (r.encode seq epoch) 60 = crc32c ((r.encode seq epoch).take 60)

/-- R418, R426, R427: module DRAM reads back what was written where a channel serves it; a block in error is never read as data,
a write of part of it is not carried out, and a write of all of it makes it whole. -/
def Obligations.ModuleDramReadsBackOrFails : Prop := ∀ (s : State) off (b : Bytes), s.memOk = true → s.dramAcc off b.length = .ok →
  0 < b.length →
  (s.dramBad off b.length = [] → (s.dwrite off b).dread off b.length = some b ∧
    ∀ a, (a < off ∨ off + b.length ≤ a) → Memory.get 0 (s.dwrite off b).dram a = Memory.get 0 s.dram a) ∧
  (s.dramBad off b.length ≠ [] → s.dread off b.length = none) ∧
  (∀ k ∈ s.dramBad off b.length, (k * 64 < off % chSize ∨ off % chSize + b.length < k * 64 + 64) → s.dwrite off b = s) ∧
  (off % 64 = 0 → b.length % 64 = 0 → (s.dwrite off b).dread off b.length = some b)
end

