-- ==== Sys2Proof/Laws/Memory.lean ====
section
/-!
SUPPORT. Laws/Memory.lean: every memory operation keeps the canonical form, a read after a write gives what was written, and
a write leaves every other address alone.
-/
set_option Elab.async false
namespace Sys2Proof.Machine

/-- Every listed address of a memory is above `k`. -/
def Memory.above (k : Nat) (m : Memory) : Prop := ∀ c ∈ m, k < c.1

theorem Memory.wf_cons {d : Byte} {a : Nat} {v : Byte} {m : Memory} :
    Memory.wf d ((a, v) :: m) = true ↔ v ≠ d ∧ Memory.above a m ∧ Memory.wf d m = true := by
  induction m generalizing a v with
  | nil => simp [Memory.wf, Memory.above]
  | cons c m ih =>
    obtain ⟨b, w⟩ := c
    have hb := ih (a := b) (v := w)
    simp only [Memory.wf, Bool.and_eq_true, bne_iff_ne, decide_eq_true_eq] at hb ⊢
    constructor
    · rintro ⟨⟨hv, hab⟩, hw⟩
      refine ⟨hv, ?_, hw⟩
      intro c hc
      rcases List.mem_cons.1 hc with rfl | hc
      · exact hab
      · exact Nat.lt_trans hab ((hb.1 hw).2.1 c hc)
    · rintro ⟨hv, ha, hw⟩
      exact ⟨⟨hv, ha (b, w) (by simp)⟩, hw⟩

theorem Memory.above_put {d : Byte} {k a : Nat} {b : Byte} {m : Memory} (hk : k < a) (h : Memory.above k m) :
    Memory.above k (Memory.put d m a b) := by
  induction m with
  | nil =>
    unfold Memory.put
    split
    · exact h
    · intro c hc; simp only [List.mem_singleton] at hc; subst hc; exact hk
  | cons e m ih =>
    obtain ⟨j, v⟩ := e
    have hj : k < j := h (j, v) (by simp)
    have hm : Memory.above k m := fun c hc => h c (List.mem_cons_of_mem _ hc)
    have cons {x : Nat × Byte} {l : Memory} (hx : k < x.1) (hl : Memory.above k l) : Memory.above k (x :: l) := by
      intro c hc
      rcases List.mem_cons.1 hc with rfl | hc
      · exact hx
      · exact hl c hc
    unfold Memory.put
    split
    · split
      · exact h
      · exact cons hk h
    · split
      · split
        · exact hm
        · exact cons hk hm
      · exact cons hj (ih hm)

theorem Memory.wf_put {d : Byte} {m : Memory} {a : Nat} {b : Byte} (h : Memory.wf d m = true) :
    Memory.wf d (Memory.put d m a b) = true := by
  induction m with
  | nil =>
    unfold Memory.put
    split
    · rfl
    · next hb => simp [Memory.wf, hb]
  | cons e m ih =>
    obtain ⟨j, v⟩ := e
    obtain ⟨hv, ha, hw⟩ := Memory.wf_cons.1 h
    unfold Memory.put
    split
    · next hlt =>
      split
      · exact h
      · next hb =>
        refine Memory.wf_cons.2 ⟨hb, ?_, h⟩
        intro c hc
        rcases List.mem_cons.1 hc with rfl | hc
        · exact hlt
        · exact Nat.lt_trans hlt (ha c hc)
    · split
      · next _ he =>
        split
        · exact hw
        · next hb => exact Memory.wf_cons.2 ⟨hb, he ▸ ha, hw⟩
      · next h1 h2 => exact Memory.wf_cons.2 ⟨hv, Memory.above_put (by omega) ha, ih hw⟩

theorem Memory.wf_putAll {d : Byte} {m : Memory} {a : Nat} {bs : Bytes} (h : Memory.wf d m = true) :
    Memory.wf d (Memory.putAll d m a bs) = true := by
  induction bs generalizing m a with
  | nil => exact h
  | cons b r ih => exact ih (Memory.wf_put h)

theorem Memory.wf_filter {d : Byte} {m : Memory} {f : Host.Cell → Bool} (h : Memory.wf d m = true) :
    Memory.wf d (m.filter f) = true := by
  induction m with
  | nil => rfl
  | cons e m ih =>
    obtain ⟨j, v⟩ := e
    obtain ⟨hv, ha, hw⟩ := Memory.wf_cons.1 h
    rw [List.filter_cons]
    split
    · exact Memory.wf_cons.2 ⟨hv, fun c hc => ha c (List.mem_filter.1 hc).1, ih hw⟩
    · exact ih hw

theorem Memory.wf_clear {d : Byte} {m : Memory} {a n : Nat} (h : Memory.wf d m = true) :
    Memory.wf d (Memory.clear m a n) = true := Memory.wf_filter h

theorem Memory.get_put_same {d : Byte} {m : Memory} {a : Nat} {b : Byte} (h : Memory.wf d m = true) :
    Memory.get d (Memory.put d m a b) a = b := by
  have miss {k : Nat} {l : Memory} (hl : Memory.above k l) : Memory.get d l k = d := by
    induction l with
    | nil => rfl
    | cons e l ih =>
      obtain ⟨j, v⟩ := e
      have hj : k < j := hl (j, v) (by simp)
      unfold Memory.get
      rw [if_neg (by omega)]
      exact ih fun c hc => hl c (List.mem_cons_of_mem _ hc)
  induction m with
  | nil =>
    unfold Memory.put
    split
    · next hb => simp [Memory.get, hb]
    · simp [Memory.get]
  | cons e m ih =>
    obtain ⟨j, v⟩ := e
    obtain ⟨_, ha, hw⟩ := Memory.wf_cons.1 h
    unfold Memory.put
    split
    · next hlt =>
      split
      · next hb =>
        subst hb
        refine miss fun c hc => ?_
        rcases List.mem_cons.1 hc with rfl | hc
        · exact hlt
        · exact Nat.lt_trans hlt (ha c hc)
      · simp [Memory.get]
    · split
      · next _ he =>
        split
        · next hb => subst hb; subst he; exact miss ha
        · simp [Memory.get]
      · next _ he => simp [Memory.get, he, ih hw]

theorem Memory.get_put_other {d : Byte} {m : Memory} {a c : Nat} {b : Byte} (hc : c ≠ a) :
    Memory.get d (Memory.put d m a b) c = Memory.get d m c := by
  induction m with
  | nil =>
    unfold Memory.put
    split
    · rfl
    · simp [Memory.get, Ne.symm hc]
  | cons e m ih =>
    obtain ⟨j, v⟩ := e
    unfold Memory.put
    split
    · split
      · rfl
      · simp [Memory.get, Ne.symm hc]
    · split
      · next _ he =>
        subst he
        split <;> simp [Memory.get, Ne.symm hc]
      · simp [Memory.get, ih]

/-- Bytes written outside an address leave it alone. -/
theorem Memory.get_putAll_other {d : Byte} {m : Memory} {a c : Nat} {bs : Bytes} (hc : c < a ∨ a + bs.length ≤ c) :
    Memory.get d (Memory.putAll d m a bs) c = Memory.get d m c := by
  induction bs generalizing m a with
  | nil => rfl
  | cons b r ih =>
    simp only [List.length_cons] at hc
    unfold Memory.putAll
    rw [ih (by omega), Memory.get_put_other (by omega)]

/-- The bytes of a range after they were written. -/
theorem Memory.get_putAll {d : Byte} {m : Memory} {a i : Nat} {bs : Bytes} (h : Memory.wf d m = true) (hi : i < bs.length) :
    Memory.get d (Memory.putAll d m a bs) (a + i) = bs[i] := by
  induction bs generalizing m a i with
  | nil => simp at hi
  | cons b r ih =>
    unfold Memory.putAll
    cases i with
    | zero => rw [Memory.get_putAll_other (by omega)]; exact Memory.get_put_same h
    | succ i =>
      have := ih (m := Memory.put d m a b) (a := a + 1) (i := i) (Memory.wf_put h) (by simpa using hi)
      simpa [Nat.add_assoc, Nat.add_comm 1] using this

theorem State.memOk_iff {s : State} :
    s.memOk = true ↔ Memory.wf erased s.flash0 = true ∧ Memory.wf erased s.flash1 = true ∧ Memory.wf 0 s.dram = true := by
  simp [State.memOk, and_assoc]

end Sys2Proof.Machine
end

