-- ==== Sys2Proof/Laws/Touches.lean ====
section
/-!
SUPPORT. Laws/Touches.lean: the relation that each lemma of Laws/Frames states of an operation (it changes only these parts,
and it keeps the memories canonical), and the rules by which such lemmas compose.
-/
set_option Elab.async false
namespace Sys2Proof.Machine

/-- Every part of the first list stands in the second. -/
def Part.within (us ps : List Part) : Bool := us.all ps.contains

theorem Part.sub {us ws ps : List Part} (h : Part.within us ws = true) (hp : Part.within ws ps = true) :
    Part.within us ps = true := by
  simp only [Part.within, List.all_eq_true, List.contains_iff_mem] at *
  exact fun p hu => hp p (h p hu)

theorem Part.within_not {us ps : List Part} {p : Part} (h : Part.within us ps = true) (hp : ps.contains p = false) :
    us.contains p = false := by
  cases hu : us.contains p with
  | false => rfl
  | true =>
    simp only [Part.within, List.all_eq_true, List.contains_iff_mem] at h hu
    simp [h p hu] at hp

theorem Part.same_refl (p : Part) (s : State) : p.same s s := by cases p <;> rfl

theorem Part.same_trans {p : Part} {r s t : State} (h : p.same r s) (h' : p.same s t) : p.same r t := by
  cases p <;> exact Eq.trans h' h

/-- From `s` to `t` only the listed parts change, and canonical memories stay canonical. -/
structure Touches (ps : List Part) (s t : State) : Prop where
  only : s.onlyChanges ps t
  mem : s.memOk = true → t.memOk = true

namespace Touches

theorem refl (ps : List Part) (s : State) : Touches ps s s := ⟨fun p _ => p.same_refl s, id⟩

theorem trans {ps : List Part} {r s t : State} (h : Touches ps r s) (h' : Touches ps s t) : Touches ps r t :=
  ⟨fun p hp => Part.same_trans (h.only p hp) (h'.only p hp), fun m => h'.mem (h.mem m)⟩

theorem mono {us ps : List Part} {s t : State} (hp : Part.within us ps = true) (h : Touches us s t) : Touches ps s t :=
  ⟨fun p q => h.only p (Part.within_not hp q), h.mem⟩

theorem ite {ps : List Part} {s a b : State} {c : Prop} [Decidable c] (ha : Touches ps s a) (hb : Touches ps s b) :
    Touches ps s (if c then a else b) := by split <;> assumption

theorem dite {ps : List Part} {s : State} {c : Prop} [Decidable c] {a : c → State} {b : ¬c → State}
    (ha : ∀ h, Touches ps s (a h)) (hb : ∀ h, Touches ps s (b h)) :
    Touches ps s (if h : c then a h else b h) := by split <;> simp_all

theorem foldl {α : Type} {ps : List Part} {s0 s : State} {f : State → α → State} {l : List α}
    (hf : ∀ s a, Touches ps s0 s → Touches ps s0 (f s a)) (h : Touches ps s0 s) : Touches ps s0 (l.foldl f s) := by
  induction l generalizing s with
  | nil => exact h
  | cons a l ih => exact ih (hf s a h)

theorem foldlPair {α β : Type} {ps : List Part} {s0 : State} {z : State × β} {f : State × β → α → State × β} {l : List α}
    (hf : ∀ z a, Touches ps s0 z.1 → Touches ps s0 (f z a).1) (h : Touches ps s0 z.1) : Touches ps s0 (l.foldl f z).1 := by
  induction l generalizing z with
  | nil => exact h
  | cons a l ih => exact ih (hf z a h)

theorem elim {α : Type} {ps : List Part} {s0 s : State} {f : α → State} {o : Option α}
    (hs : Touches ps s0 s) (hf : ∀ a, Touches ps s0 (f a)) : Touches ps s0 (o.elim s f) := by
  cases o with
  | none => exact hs
  | some a => exact hf a

/-- An update of the parts `us` alone. -/
theorem upd {ps : List Part} {s0 s : State}
    {x_fresh : Nat} {x_plinth : Nat} {x_pwr : Power} {x_rst : ResetCtl} {x_led : Ledger} {x_ob : OptBytes}
    {x_pins : Pins} {x_maq : Maq} {x_boot : Boot} {x_debug : Nat} {x_seq : Seq} {x_svy : Survey}
    {x_rcnt : RailCnts} {x_log : Log} {x_snap : Snap} {x_mem : MemCtl} {x_cap : Capping} {x_rel : Relief}
    {x_met : Meter} {x_pat : Patina} {x_pnt : Pointing} {x_haz : Hazards} {x_cool : Cooling}
    {x_chi : Tbl ChiselSite} {x_ckpt : Tbl Bytes} {x_cal : Caliper} {x_jrn : Journal} {x_gimg : Tbl Bytes}
    {x_selfTest : Nat} {x_ques : Tbl Queue} {x_mov : Mover} {x_ebx : Ebbex} {x_evt : Events} {x_mgt : Mgmt}
    {x_pair : Pair} {x_acc : Tbl PathBlock} {x_flash0 : Memory} {x_flash1 : Memory} {x_dram : Memory}
    {x_out : List Out}
    (us : List Part) (hp : Part.within us ps = true) (h : Touches ps s0 s)
    (ho : s.onlyChanges us
      (State.mk s.pending x_fresh x_plinth x_pwr x_rst x_led x_ob x_pins x_maq x_boot x_debug x_seq x_svy
      x_rcnt x_log x_snap x_mem x_cap x_rel x_met x_pat x_pnt x_haz x_cool x_chi x_ckpt x_cal x_jrn x_gimg
      x_selfTest x_ques x_mov x_ebx x_evt x_mgt x_pair x_acc x_flash0 x_flash1 x_dram x_out) := by
        intro p q; cases p <;> first | exact absurd q (by decide) | rfl)
    (hm : x_flash0 = s.flash0 ∧ x_flash1 = s.flash1 ∧ x_dram = s.dram := by exact ⟨rfl, rfl, rfl⟩) :
    Touches ps s0
      (State.mk s.pending x_fresh x_plinth x_pwr x_rst x_led x_ob x_pins x_maq x_boot x_debug x_seq x_svy
      x_rcnt x_log x_snap x_mem x_cap x_rel x_met x_pat x_pnt x_haz x_cool x_chi x_ckpt x_cal x_jrn x_gimg
      x_selfTest x_ques x_mov x_ebx x_evt x_mgt x_pair x_acc x_flash0 x_flash1 x_dram x_out) :=
  h.trans ⟨fun p q => ho p (Part.within_not hp q), fun m => by
    obtain ⟨h0, h1, h2⟩ := hm
    simpa only [State.memOk, h0, h1, h2] using m⟩

/-- Any change of the parts `us` that keeps the memories canonical. -/
theorem other {ps : List Part} {s0 s t : State} (us : List Part) (hp : Part.within us ps = true) (h : Touches ps s0 s)
    (ho : s.onlyChanges us t) (hm : s.memOk = true → t.memOk = true) : Touches ps s0 t :=
  h.trans ⟨fun p q => ho p (Part.within_not hp q), hm⟩

end Touches

/-- Every next state of an outcome differs from `s` as Touches says. -/
def OTouches (ps : List Part) (s : State) (o : Host.Outcome State Fault Refusal) : Prop :=
  ∀ t : State, o = .next t → Touches ps s t

theorem OTouches.next {ps : List Part} {s t : State} (h : Touches ps s t) : OTouches ps s (.next t) := by
  intro u hu; cases hu; exact h

theorem OTouches.fault {ps : List Part} {s : State} {r : Fault} : OTouches ps s (.fault r) := by
  intro u hu; cases hu

theorem OTouches.ite {ps : List Part} {s : State} {a b : Host.Outcome State Fault Refusal} {c : Prop} [Decidable c]
    (ha : OTouches ps s a) (hb : OTouches ps s b) : OTouches ps s (if c then a else b) := by split <;> assumption

/-- Whatever state it is given, a command's outcome differs as the list says. -/
def CTouches (ps : List Part) (s0 : State) (c : State → Host.Outcome State Fault Refusal) : Prop :=
  ∀ t : State, Touches ps s0 t → OTouches ps s0 (c t)

end Sys2Proof.Machine
end

