-- ==== Sys2Proof/Laws/Updates.lean ====
section
/-!
SUPPORT. Laws/Updates.lean: the frame of a record update of State, one lemma for each set of fields that the operations of the
model write together. Each is proved for a variable state, so that its uses evaluate nothing.
-/
set_option Elab.async false
namespace Sys2Proof.Machine.Touches

variable {ps : List Part} {s0 s : State}

theorem updAcc {x_acc : Tbl PathBlock} (hp : Part.within [.acc] ps = true) (h : Touches ps s0 s) :
    Touches ps s0 { s with acc := x_acc } := .upd _ hp h

theorem updBoot {x_boot : Boot} (hp : Part.within [.boot] ps = true) (h : Touches ps s0 s) :
    Touches ps s0 { s with boot := x_boot } := .upd _ hp h

theorem updBootCoolPair {x_boot : Boot} {x_cool : Cooling} {x_pair : Pair} (hp : Part.within [.boot, .cool, .pair] ps = true) (h : Touches ps s0 s) :
    Touches ps s0 { s with boot := x_boot, cool := x_cool, pair := x_pair } := .upd _ hp h

theorem updBootDebug {x_boot : Boot} {x_debug : Nat} (hp : Part.within [.boot, .debug] ps = true) (h : Touches ps s0 s) :
    Touches ps s0 { s with boot := x_boot, debug := x_debug } := .upd _ hp h

theorem updCal {x_cal : Caliper} (hp : Part.within [.cal] ps = true) (h : Touches ps s0 s) :
    Touches ps s0 { s with cal := x_cal } := .upd _ hp h

theorem updCap {x_cap : Capping} (hp : Part.within [.cap] ps = true) (h : Touches ps s0 s) :
    Touches ps s0 { s with cap := x_cap } := .upd _ hp h

theorem updCapMet {x_cap : Capping} {x_met : Meter} (hp : Part.within [.cap, .met] ps = true) (h : Touches ps s0 s) :
    Touches ps s0 { s with cap := x_cap, met := x_met } := .upd _ hp h

theorem updChi {x_chi : Tbl ChiselSite} (hp : Part.within [.chi] ps = true) (h : Touches ps s0 s) :
    Touches ps s0 { s with chi := x_chi } := .upd _ hp h

theorem updCkpt {x_ckpt : Tbl Bytes} (hp : Part.within [.ckpt] ps = true) (h : Touches ps s0 s) :
    Touches ps s0 { s with ckpt := x_ckpt } := .upd _ hp h

theorem updCool {x_cool : Cooling} (hp : Part.within [.cool] ps = true) (h : Touches ps s0 s) :
    Touches ps s0 { s with cool := x_cool } := .upd _ hp h

theorem updEbx {x_ebx : Ebbex} (hp : Part.within [.ebx] ps = true) (h : Touches ps s0 s) :
    Touches ps s0 { s with ebx := x_ebx } := .upd _ hp h

theorem updEbxOut {x_ebx : Ebbex} {x_out : List Out} (hp : Part.within [.ebx, .out] ps = true) (h : Touches ps s0 s) :
    Touches ps s0 { s with ebx := x_ebx, out := x_out } := .upd _ hp h

theorem updEvt {x_evt : Events} (hp : Part.within [.evt] ps = true) (h : Touches ps s0 s) :
    Touches ps s0 { s with evt := x_evt } := .upd _ hp h

theorem updFresh {x_fresh : Nat} (hp : Part.within [.fresh] ps = true) (h : Touches ps s0 s) :
    Touches ps s0 { s with fresh := x_fresh } := .upd _ hp h

theorem updFreshBootAcc {x_fresh : Nat} {x_boot : Boot} {x_acc : Tbl PathBlock} (hp : Part.within [.fresh, .boot, .acc] ps = true) (h : Touches ps s0 s) :
    Touches ps s0 { s with fresh := x_fresh, boot := x_boot, acc := x_acc } := .upd _ hp h

theorem updFreshRst {x_fresh : Nat} {x_rst : ResetCtl} (hp : Part.within [.fresh, .rst] ps = true) (h : Touches ps s0 s) :
    Touches ps s0 { s with fresh := x_fresh, rst := x_rst } := .upd _ hp h

theorem updGimg {x_gimg : Tbl Bytes} (hp : Part.within [.gimg] ps = true) (h : Touches ps s0 s) :
    Touches ps s0 { s with gimg := x_gimg } := .upd _ hp h

theorem updHaz {x_haz : Hazards} (hp : Part.within [.haz] ps = true) (h : Touches ps s0 s) :
    Touches ps s0 { s with haz := x_haz } := .upd _ hp h

theorem updJrn {x_jrn : Journal} (hp : Part.within [.jrn] ps = true) (h : Touches ps s0 s) :
    Touches ps s0 { s with jrn := x_jrn } := .upd _ hp h

theorem updLed {x_led : Ledger} (hp : Part.within [.led] ps = true) (h : Touches ps s0 s) :
    Touches ps s0 { s with led := x_led } := .upd _ hp h

theorem updLedBoot {x_led : Ledger} {x_boot : Boot} (hp : Part.within [.led, .boot] ps = true) (h : Touches ps s0 s) :
    Touches ps s0 { s with led := x_led, boot := x_boot } := .upd _ hp h

theorem updLedMaq {x_led : Ledger} {x_maq : Maq} (hp : Part.within [.led, .maq] ps = true) (h : Touches ps s0 s) :
    Touches ps s0 { s with led := x_led, maq := x_maq } := .upd _ hp h

theorem updLedRcntLogMetPatPntCool {x_led : Ledger} {x_rcnt : RailCnts} {x_log : Log} {x_met : Meter} {x_pat : Patina} {x_pnt : Pointing} {x_cool : Cooling} (hp : Part.within [.led, .rcnt, .log, .met, .pat, .pnt, .cool] ps = true) (h : Touches ps s0 s) :
    Touches ps s0 { s with led := x_led, rcnt := x_rcnt, log := x_log, met := x_met, pat := x_pat, pnt := x_pnt, cool := x_cool } := .upd _ hp h

theorem updLog {x_log : Log} (hp : Part.within [.log] ps = true) (h : Touches ps s0 s) :
    Touches ps s0 { s with log := x_log } := .upd _ hp h

theorem updLogAcc {x_log : Log} {x_acc : Tbl PathBlock} (hp : Part.within [.log, .acc] ps = true) (h : Touches ps s0 s) :
    Touches ps s0 { s with log := x_log, acc := x_acc } := .upd _ hp h

theorem updLogSnap {x_log : Log} {x_snap : Snap} (hp : Part.within [.log, .snap] ps = true) (h : Touches ps s0 s) :
    Touches ps s0 { s with log := x_log, snap := x_snap } := .upd _ hp h

theorem updMaq {x_maq : Maq} (hp : Part.within [.maq] ps = true) (h : Touches ps s0 s) :
    Touches ps s0 { s with maq := x_maq } := .upd _ hp h

theorem updMaqCoolPair {x_maq : Maq} {x_cool : Cooling} {x_pair : Pair} (hp : Part.within [.maq, .cool, .pair] ps = true) (h : Touches ps s0 s) :
    Touches ps s0 { s with maq := x_maq, cool := x_cool, pair := x_pair } := .upd _ hp h

theorem updMem {x_mem : MemCtl} (hp : Part.within [.mem] ps = true) (h : Touches ps s0 s) :
    Touches ps s0 { s with mem := x_mem } := .upd _ hp h

theorem updMet {x_met : Meter} (hp : Part.within [.met] ps = true) (h : Touches ps s0 s) :
    Touches ps s0 { s with met := x_met } := .upd _ hp h

theorem updMgt {x_mgt : Mgmt} (hp : Part.within [.mgt] ps = true) (h : Touches ps s0 s) :
    Touches ps s0 { s with mgt := x_mgt } := .upd _ hp h

theorem updMov {x_mov : Mover} (hp : Part.within [.mov] ps = true) (h : Touches ps s0 s) :
    Touches ps s0 { s with mov := x_mov } := .upd _ hp h

theorem updOb {x_ob : OptBytes} (hp : Part.within [.ob] ps = true) (h : Touches ps s0 s) :
    Touches ps s0 { s with ob := x_ob } := .upd _ hp h

theorem updObMaq {x_ob : OptBytes} {x_maq : Maq} (hp : Part.within [.ob, .maq] ps = true) (h : Touches ps s0 s) :
    Touches ps s0 { s with ob := x_ob, maq := x_maq } := .upd _ hp h

theorem updOut {x_out : List Out} (hp : Part.within [.out] ps = true) (h : Touches ps s0 s) :
    Touches ps s0 { s with out := x_out } := .upd _ hp h

theorem updPair {x_pair : Pair} (hp : Part.within [.pair] ps = true) (h : Touches ps s0 s) :
    Touches ps s0 { s with pair := x_pair } := .upd _ hp h

theorem updPat {x_pat : Patina} (hp : Part.within [.pat] ps = true) (h : Touches ps s0 s) :
    Touches ps s0 { s with pat := x_pat } := .upd _ hp h

theorem updPins {x_pins : Pins} (hp : Part.within [.pins] ps = true) (h : Touches ps s0 s) :
    Touches ps s0 { s with pins := x_pins } := .upd _ hp h

theorem updPnt {x_pnt : Pointing} (hp : Part.within [.pnt] ps = true) (h : Touches ps s0 s) :
    Touches ps s0 { s with pnt := x_pnt } := .upd _ hp h

theorem updPntPair {x_pnt : Pointing} {x_pair : Pair} (hp : Part.within [.pnt, .pair] ps = true) (h : Touches ps s0 s) :
    Touches ps s0 { s with pnt := x_pnt, pair := x_pair } := .upd _ hp h

theorem updPwr {x_pwr : Power} (hp : Part.within [.pwr] ps = true) (h : Touches ps s0 s) :
    Touches ps s0 { s with pwr := x_pwr } := .upd _ hp h

theorem updPwrCal {x_pwr : Power} {x_cal : Caliper} (hp : Part.within [.pwr, .cal] ps = true) (h : Touches ps s0 s) :
    Touches ps s0 { s with pwr := x_pwr, cal := x_cal } := .upd _ hp h

theorem updPwrCkptCalGimg {x_pwr : Power} {x_ckpt : Tbl Bytes} {x_cal : Caliper} {x_gimg : Tbl Bytes} (hp : Part.within [.pwr, .ckpt, .cal, .gimg] ps = true) (h : Touches ps s0 s) :
    Touches ps s0 { s with pwr := x_pwr, ckpt := x_ckpt, cal := x_cal, gimg := x_gimg } := .upd _ hp h

theorem updPwrCool {x_pwr : Power} {x_cool : Cooling} (hp : Part.within [.pwr, .cool] ps = true) (h : Touches ps s0 s) :
    Touches ps s0 { s with pwr := x_pwr, cool := x_cool } := .upd _ hp h

theorem updPwrEbx {x_pwr : Power} {x_ebx : Ebbex} (hp : Part.within [.pwr, .ebx] ps = true) (h : Touches ps s0 s) :
    Touches ps s0 { s with pwr := x_pwr, ebx := x_ebx } := .upd _ hp h

theorem updPwrMem {x_pwr : Power} {x_mem : MemCtl} (hp : Part.within [.pwr, .mem] ps = true) (h : Touches ps s0 s) :
    Touches ps s0 { s with pwr := x_pwr, mem := x_mem } := .upd _ hp h

theorem updPwrRst {x_pwr : Power} {x_rst : ResetCtl} (hp : Part.within [.pwr, .rst] ps = true) (h : Touches ps s0 s) :
    Touches ps s0 { s with pwr := x_pwr, rst := x_rst } := .upd _ hp h

theorem updPwrRstBootCoolMgtPairAcc {x_pwr : Power} {x_rst : ResetCtl} {x_boot : Boot} {x_cool : Cooling} {x_mgt : Mgmt} {x_pair : Pair} {x_acc : Tbl PathBlock} (hp : Part.within [.pwr, .rst, .boot, .cool, .mgt, .pair, .acc] ps = true) (h : Touches ps s0 s) :
    Touches ps s0 { s with pwr := x_pwr, rst := x_rst, boot := x_boot, cool := x_cool, mgt := x_mgt, pair := x_pair, acc := x_acc } := .upd _ hp h

theorem updPwrRstMaqBootMemCapMetPntCoolChiCalJrnGimgQuesMovEbxEvtMgtPairAcc {x_pwr : Power} {x_rst : ResetCtl} {x_maq : Maq} {x_boot : Boot} {x_mem : MemCtl} {x_cap : Capping} {x_met : Meter} {x_pnt : Pointing} {x_cool : Cooling} {x_chi : Tbl ChiselSite} {x_cal : Caliper} {x_jrn : Journal} {x_gimg : Tbl Bytes} {x_ques : Tbl Queue} {x_mov : Mover} {x_ebx : Ebbex} {x_evt : Events} {x_mgt : Mgmt} {x_pair : Pair} {x_acc : Tbl PathBlock} (hp : Part.within [.pwr, .rst, .maq, .boot, .mem, .cap, .met, .pnt, .cool, .chi, .cal, .jrn, .gimg, .ques, .mov,
      .ebx, .evt, .mgt, .pair, .acc] ps = true) (h : Touches ps s0 s) :
    Touches ps s0 { s with pwr := x_pwr, rst := x_rst, maq := x_maq, boot := x_boot, mem := x_mem, cap := x_cap, met := x_met, pnt := x_pnt, cool := x_cool, chi := x_chi, cal := x_cal, jrn := x_jrn, gimg := x_gimg, ques := x_ques, mov := x_mov, ebx := x_ebx, evt := x_evt, mgt := x_mgt, pair := x_pair, acc := x_acc } := .upd _ hp h

theorem updPwrRstObPinsMaqDebugSeqSvyLogSnapCapRelMetHazCoolCalPair {x_pwr : Power} {x_rst : ResetCtl} {x_ob : OptBytes} {x_pins : Pins} {x_maq : Maq} {x_debug : Nat} {x_seq : Seq} {x_svy : Survey} {x_log : Log} {x_snap : Snap} {x_cap : Capping} {x_rel : Relief} {x_met : Meter} {x_haz : Hazards} {x_cool : Cooling} {x_cal : Caliper} {x_pair : Pair} (hp : Part.within [.pwr, .rst, .ob, .pins, .maq, .debug, .seq, .svy, .log, .snap, .cap, .rel, .met, .haz, .cool,
      .cal, .pair] ps = true) (h : Touches ps s0 s) :
    Touches ps s0 { s with pwr := x_pwr, rst := x_rst, ob := x_ob, pins := x_pins, maq := x_maq, debug := x_debug, seq := x_seq, svy := x_svy, log := x_log, snap := x_snap, cap := x_cap, rel := x_rel, met := x_met, haz := x_haz, cool := x_cool, cal := x_cal, pair := x_pair } := .upd _ hp h

theorem updPwrSeq {x_pwr : Power} {x_seq : Seq} (hp : Part.within [.pwr, .seq] ps = true) (h : Touches ps s0 s) :
    Touches ps s0 { s with pwr := x_pwr, seq := x_seq } := .upd _ hp h

theorem updPwrSnap {x_pwr : Power} {x_snap : Snap} (hp : Part.within [.pwr, .snap] ps = true) (h : Touches ps s0 s) :
    Touches ps s0 { s with pwr := x_pwr, snap := x_snap } := .upd _ hp h

theorem updQues {x_ques : Tbl Queue} (hp : Part.within [.ques] ps = true) (h : Touches ps s0 s) :
    Touches ps s0 { s with ques := x_ques } := .upd _ hp h

theorem updRcnt {x_rcnt : RailCnts} (hp : Part.within [.rcnt] ps = true) (h : Touches ps s0 s) :
    Touches ps s0 { s with rcnt := x_rcnt } := .upd _ hp h

theorem updRcntLog {x_rcnt : RailCnts} {x_log : Log} (hp : Part.within [.rcnt, .log] ps = true) (h : Touches ps s0 s) :
    Touches ps s0 { s with rcnt := x_rcnt, log := x_log } := .upd _ hp h

theorem updRcntSnap {x_rcnt : RailCnts} {x_snap : Snap} (hp : Part.within [.rcnt, .snap] ps = true) (h : Touches ps s0 s) :
    Touches ps s0 { s with rcnt := x_rcnt, snap := x_snap } := .upd _ hp h

theorem updRel {x_rel : Relief} (hp : Part.within [.rel] ps = true) (h : Touches ps s0 s) :
    Touches ps s0 { s with rel := x_rel } := .upd _ hp h

theorem updRst {x_rst : ResetCtl} (hp : Part.within [.rst] ps = true) (h : Touches ps s0 s) :
    Touches ps s0 { s with rst := x_rst } := .upd _ hp h

theorem updRstBoot {x_rst : ResetCtl} {x_boot : Boot} (hp : Part.within [.rst, .boot] ps = true) (h : Touches ps s0 s) :
    Touches ps s0 { s with rst := x_rst, boot := x_boot } := .upd _ hp h

theorem updRstHaz {x_rst : ResetCtl} {x_haz : Hazards} (hp : Part.within [.rst, .haz] ps = true) (h : Touches ps s0 s) :
    Touches ps s0 { s with rst := x_rst, haz := x_haz } := .upd _ hp h

theorem updRstLed {x_rst : ResetCtl} {x_led : Ledger} (hp : Part.within [.rst, .led] ps = true) (h : Touches ps s0 s) :
    Touches ps s0 { s with rst := x_rst, led := x_led } := .upd _ hp h

theorem updRstPins {x_rst : ResetCtl} {x_pins : Pins} (hp : Part.within [.rst, .pins] ps = true) (h : Touches ps s0 s) :
    Touches ps s0 { s with rst := x_rst, pins := x_pins } := .upd _ hp h

theorem updRstSeq {x_rst : ResetCtl} {x_seq : Seq} (hp : Part.within [.rst, .seq] ps = true) (h : Touches ps s0 s) :
    Touches ps s0 { s with rst := x_rst, seq := x_seq } := .upd _ hp h

theorem updSelfTest {x_selfTest : Nat} (hp : Part.within [.selfTest] ps = true) (h : Touches ps s0 s) :
    Touches ps s0 { s with selfTest := x_selfTest } := .upd _ hp h

theorem updSeq {x_seq : Seq} (hp : Part.within [.seq] ps = true) (h : Touches ps s0 s) :
    Touches ps s0 { s with seq := x_seq } := .upd _ hp h

theorem updSnap {x_snap : Snap} (hp : Part.within [.snap] ps = true) (h : Touches ps s0 s) :
    Touches ps s0 { s with snap := x_snap } := .upd _ hp h

theorem updSnapMet {x_snap : Snap} {x_met : Meter} (hp : Part.within [.snap, .met] ps = true) (h : Touches ps s0 s) :
    Touches ps s0 { s with snap := x_snap, met := x_met } := .upd _ hp h

theorem updSvy {x_svy : Survey} (hp : Part.within [.svy] ps = true) (h : Touches ps s0 s) :
    Touches ps s0 { s with svy := x_svy } := .upd _ hp h

end Sys2Proof.Machine.Touches
end

