-- ==== Sys2Proof/Laws/Frames/Mem.lean ====
section
/-!
SUPPORT. Laws/Frames/Mem.lean: what each operation of Machine/Mem.lean changes: one lemma for each, by the rules of
Laws/Touches.
-/
set_option Elab.async false
namespace Sys2Proof.Machine

theorem State.setFlash_touches {ps : List Part} {s0 s : State} {dev : Nat} {m : Memory}
    (hp : Part.within [.flash0, .flash1] ps = true)
    (hm : Memory.wf erased (s.flash dev) = true → Memory.wf erased m = true) (h : Touches ps s0 s) :
    Touches ps s0 (State.setFlash s dev m) := by
  refine .other [.flash0, .flash1] hp h ?_ ?_
  · intro p q; unfold State.setFlash; split <;> cases p <;> first | rfl | exact absurd q (by decide)
  · intro k
    obtain ⟨h0, h1, h2⟩ := State.memOk_iff.1 k
    unfold State.setFlash State.flash at *
    split at hm
    · next hd => rw [if_pos hd]; exact State.memOk_iff.2 ⟨hm h0, h1, h2⟩
    · next hd => rw [if_neg hd]; exact State.memOk_iff.2 ⟨h0, hm h1, h2⟩

theorem State.fwrite_touches {ps : List Part} {s0 s : State} {dev : Nat} {off : Nat} {bs : Bytes}
    (hp : Part.within [.flash0, .flash1] ps = true) (h : Touches ps s0 s) :
    Touches ps s0 (State.fwrite s dev off bs) :=
  State.setFlash_touches hp Memory.wf_putAll h

theorem State.ferase_touches {ps : List Part} {s0 s : State} {dev : Nat} {off : Nat} {n : Nat}
    (hp : Part.within [.flash0, .flash1] ps = true) (h : Touches ps s0 s) :
    Touches ps s0 (State.ferase s dev off n) :=
  State.setFlash_touches hp Memory.wf_clear h

theorem State.fstore_touches {ps : List Part} {s0 s : State} {dev : Nat} {off : Nat} {n : Nat} {bs : Bytes}
    (hp : Part.within [.flash0, .flash1] ps = true) (h : Touches ps s0 s) :
    Touches ps s0 (State.fstore s dev off n bs) :=
  State.fwrite_touches (Part.sub rfl hp) (State.ferase_touches (Part.sub rfl hp) h)

theorem State.fwriteBoth_touches {ps : List Part} {s0 s : State} {off : Nat} {bs : Bytes}
    (hp : Part.within [.flash0, .flash1] ps = true) (h : Touches ps s0 s) :
    Touches ps s0 (State.fwriteBoth s off bs) :=
  State.fwrite_touches (Part.sub rfl hp) (State.fwrite_touches (Part.sub rfl hp) h)

theorem State.setCh_touches {ps : List Part} {s0 s : State} {n : Nat} {c : MemCh}
    (hp : Part.within [.mem] ps = true) (h : Touches ps s0 s) :
    Touches ps s0 (State.setCh s n c) :=
  .updMem (Part.sub rfl hp) h

theorem State.memAsk_touches {ps : List Part} {s0 s : State} (hp : Part.within [.mem] ps = true)
    (h : Touches ps s0 s) :
    Touches ps s0 (State.memAsk s) :=
  .updMem (Part.sub rfl hp) h

theorem State.dram_touches {ps : List Part} {s0 s : State} {m : Memory} (hp : Part.within [.dram] ps = true)
    (hm : Memory.wf 0 s.dram = true → Memory.wf 0 m = true) (h : Touches ps s0 s) : Touches ps s0 { s with dram := m } := by
  refine .other [.dram] hp h ?_ ?_
  · intro p q; cases p <;> first | rfl | exact absurd q (by decide)
  · intro k
    obtain ⟨h0, h1, h2⟩ := State.memOk_iff.1 k
    exact State.memOk_iff.2 ⟨h0, h1, hm h2⟩

theorem State.dwrite_touches {ps : List Part} {s0 s : State} {off : Nat} {bs : Bytes}
    (hp : Part.within [.mem, .dram] ps = true) (h : Touches ps s0 s) :
    Touches ps s0 (State.dwrite s off bs) :=
  .ite (State.dram_touches (s := State.memAsk (State.setCh s _ _)) (Part.sub rfl hp) Memory.wf_putAll
    (State.memAsk_touches (Part.sub rfl hp) (State.setCh_touches (Part.sub rfl hp) h))) h

end Sys2Proof.Machine
end

