-- ==== Sys2Proof/Laws/Frames/Ops.lean ====
section
/-!
SUPPORT. Laws/Frames/Ops.lean: what each operation of Machine/Ops.lean changes: one lemma for each, by the rules of
Laws/Touches.
-/
set_option Elab.async false
namespace Sys2Proof.Machine

theorem State.standbyDo_touches {ps : List Part} {s0 s : State} {f : State → State} (_hp : Part.within [] ps = true)
    (hf : ∀ (s' : State) (_ : Touches ps s0 s'), Touches ps s0 (f s')) (h : Touches ps s0 s) :
    OTouches ps s0 (State.standbyDo s f) :=
  .next (.ite (hf _ h) h)

theorem State.coreDo_touches {ps : List Part} {s0 s : State} {f : State → State} (_hp : Part.within [] ps = true)
    (hf : ∀ (s' : State) (_ : Touches ps s0 s'), Touches ps s0 (f s')) (h : Touches ps s0 s) :
    OTouches ps s0 (State.coreDo s f) :=
  .next (.ite (hf _ h) h)

theorem State.fwDo_touches {ps : List Part} {s0 s : State} {f : State → State} (_hp : Part.within [] ps = true)
    (hf : ∀ (s' : State) (_ : Touches ps s0 s'), Touches ps s0 (f s')) (h : Touches ps s0 s) :
    OTouches ps s0 (State.fwDo s f) :=
  .next (.ite (hf _ h) h)

theorem State.armDo_touches {ps : List Part} {s0 s : State} {f : State → State} (hp : Part.within [] ps = true)
    (hf : ∀ (s' : State) (_ : Touches ps s0 s'), Touches ps s0 (f s')) (h : Touches ps s0 s) :
    OTouches ps s0 (State.armDo s f) :=
  State.fwDo_touches (Part.sub rfl hp) (fun _ h => (.ite h (hf _ h))) h

theorem State.setRail_touches {ps : List Part} {s0 s : State} {g : Nat} {r : Rail}
    (hp : Part.within [.pwr, .seq] ps = true) (h : Touches ps s0 s) :
    Touches ps s0 (State.setRail s g r) :=
  .updPwrSeq (Part.sub rfl hp) h

theorem State.setSite_touches {ps : List Part} {s0 s : State} {n : Nat} {x : Site}
    (hp : Part.within [.seq] ps = true) (h : Touches ps s0 s) :
    Touches ps s0 (State.setSite s n x) :=
  .updSeq (Part.sub rfl hp) h

theorem State.setChan_touches {ps : List Part} {s0 s : State} {c : Nat} {x : Chan}
    (hp : Part.within [.svy] ps = true) (h : Touches ps s0 s) :
    Touches ps s0 (State.setChan s c x) :=
  .updSvy (Part.sub rfl hp) h

theorem State.setQueue_touches {ps : List Part} {s0 s : State} {q : Nat} {x : Queue}
    (hp : Part.within [.ques] ps = true) (h : Touches ps s0 s) :
    Touches ps s0 (State.setQueue s q x) :=
  .updQues (Part.sub rfl hp) h

theorem State.askClock_touches {ps : List Part} {s0 s : State} {k : Nat} (hp : Part.within [.pwr] ps = true)
    (h : Touches ps s0 s) :
    Touches ps s0 (State.askClock s k) :=
  .updPwr (Part.sub rfl hp) h

theorem State.emit_touches {ps : List Part} {s0 s : State} {o : Out} (hp : Part.within [.out] ps = true)
    (h : Touches ps s0 s) :
    Touches ps s0 (State.emit s o) :=
  .updOut (Part.sub rfl hp) h

theorem State.event_touches {ps : List Part} {s0 s : State} {blk : Nat} {cause : Nat} {inst : Nat} {data : Nat}
    (hp : Part.within [.evt] ps = true) (h : Touches ps s0 s) :
    Touches ps s0 (State.event s blk cause inst data) :=
  .ite (.updEvt (Part.sub rfl hp) h) (.updEvt (Part.sub rfl hp) h)

theorem State.ingress_touches {ps : List Part} {s0 s : State} (hp : Part.within [.evt] ps = true)
    (h : Touches ps s0 s) :
    Touches ps s0 (State.ingress s) :=
  .updEvt (Part.sub rfl hp) h

theorem State.bump_touches {ps : List Part} {s0 s : State} {blk : Nat} {inst : Nat} {c : Cnt}
    {put : Cnt → State → State} (hp : Part.within [.evt] ps = true) (hput : ∀ (z1 : Cnt) (s' : State)
    (_ : Touches ps s0 s'), Touches ps s0 (put z1 s')) (h : Touches ps s0 s) :
    Touches ps s0 (State.bump s blk inst c put) := by
  unfold State.bump
  extract_lets s1
  have h1 : Touches ps s0 s1 := hput _ _ h
  clear_value s1
  exact .ite (State.event_touches (Part.sub rfl hp) h1) h1

theorem State.startPage_touches {ps : List Part} {s0 s : State} (hp : Part.within [.log] ps = true)
    (h : Touches ps s0 s) :
    Touches ps s0 (State.startPage s) :=
  .ite (.updLog (Part.sub rfl hp) h) h

theorem State.lossRec_touches {ps : List Part} {s0 s : State} (hp : Part.within [.log] ps = true)
    (h : Touches ps s0 s) :
    Touches ps s0 (State.lossRec s) := by
  unfold State.lossRec
  split
  · exact (.ite (.updLog (Part.sub rfl hp) h) h)
  · exact h

theorem State.flushGap_touches {ps : List Part} {s0 s : State} (hp : Part.within [.log] ps = true)
    (h : Touches ps s0 s) :
    Touches ps s0 (State.flushGap s) :=
  .foldl (fun _ _ h => (State.lossRec_touches (Part.sub rfl hp) h)) h

theorem State.pushRec_touches {ps : List Part} {s0 s : State} {r : FaultRec}
    (hp : Part.within [.log, .evt] ps = true) (h : Touches ps s0 s) :
    Touches ps s0 (State.pushRec s r) := by
  unfold State.pushRec
  extract_lets s1 _ s2
  have h1 : Touches ps s0 s1 := State.flushGap_touches (Part.sub rfl hp) h
  clear_value s1
  have h2 : Touches ps s0 s2 := .updLog (Part.sub rfl hp) h1
  clear_value s2
  refine .ite ?_ ?_
  · exact State.startPage_touches (Part.sub rfl hp) (.updLog (Part.sub rfl hp) h1)
  · exact State.bump_touches (Part.sub rfl hp) (fun _ _ h => (.updLog (Part.sub rfl hp) h)) h2

theorem State.record_touches {ps : List Part} {s0 s : State} {typ : Nat} {source : Nat} {kind : Nat}
    {site : Option Nat} {data : Bytes} (hp : Part.within [.log, .evt] ps = true) (h : Touches ps s0 s) :
    Touches ps s0 (State.record s typ source kind site data) :=
  State.pushRec_touches (Part.sub rfl hp) h

theorem State.violation_touches {ps : List Part} {s0 s : State} {p : Path} {addr : Nat}
    (hp : Part.within [.evt] ps = true) (h : Touches ps s0 s) :
    Touches ps s0 (State.violation s p addr) := by
  unfold State.violation
  extract_lets s1 _
  have h1 : Touches ps s0 s1 := State.bump_touches (Part.sub rfl hp) (fun _ _ h => (.updEvt (Part.sub rfl
      hp) h)) h
  clear_value s1
  exact .ite (State.event_touches (Part.sub rfl hp) (.updEvt (Part.sub rfl hp) h1)) h1

theorem State.deniedRec_touches {ps : List Part} {s0 s : State} {p : Path} {prin : Nat}
    (hp : Part.within [.log, .evt, .mgt] ps = true) (h : Touches ps s0 s) :
    Touches ps s0 (State.deniedRec s p prin) :=
  .ite (State.record_touches (Part.sub rfl hp) (.updMgt (Part.sub rfl hp) h)) h

theorem State.refuseWrite_touches {ps : List Part} {s0 s : State} {p : Path} {prin : Nat} {addr : Nat}
    (hp : Part.within [.log, .evt, .mgt] ps = true) (h : Touches ps s0 s) :
    Touches ps s0 (State.refuseWrite s p prin addr) :=
  State.deniedRec_touches (Part.sub rfl hp) (State.violation_touches (Part.sub rfl hp) h)

theorem State.request_touches {ps : List Part} {s0 s : State} {port : Nat} {write : Bool} {addr : Nat} {len : Nat}
    {data : Bytes} {q : Option Nat} (hp : Part.within [.ebx, .out] ps = true) (h : Touches ps s0 s) :
    Touches ps s0 (State.request s port write addr len data q) := by
  unfold State.request
  extract_lets _ _ _ _
  exact .updEbxOut (Part.sub rfl hp) h

theorem State.giveOn_touches {ps : List Part} {s0 s : State} {port : Nat} {addr : Nat} {bs : Bytes}
    (hp : Part.within [.ebx, .out] ps = true) (h : Touches ps s0 s) :
    Touches ps s0 (State.giveOn s port addr bs) :=
  .foldl (fun _ _ h => (State.request_touches (Part.sub rfl hp) h)) h

theorem State.give_touches {ps : List Part} {s0 s : State} {addr : Nat} {bs : Bytes}
    (hp : Part.within [.mem, .ebx, .dram, .out] ps = true) (h : Touches ps s0 s) :
    Touches ps s0 (State.give s addr bs) := by
  unfold State.give
  split
  · exact (State.dwrite_touches (Part.sub rfl hp) h)
  · exact (State.giveOn_touches (Part.sub rfl hp) h)
  · exact h

theorem State.ownViolation_touches {ps : List Part} {s0 s : State} {r : Req} {addr : Nat} {code : Nat}
    (hp : Part.within [.evt] ps = true) (h : Touches ps s0 s) :
    Touches ps s0 (State.ownViolation s r addr code) :=
  .ite (State.violation_touches (Part.sub rfl hp) h) h

theorem State.giveRing_touches {ps : List Part} {s0 s : State} {q : Nat} {p : Path} {addr : Nat} {bs : Bytes}
    (hp : Part.within [.mem, .ebx, .evt, .dram, .out] ps = true) (h : Touches ps s0 s) :
    Touches ps s0 (State.giveRing s q p addr bs) :=
  .ite (State.violation_touches (Part.sub rfl hp) h) (State.give_touches (Part.sub rfl hp) h)

theorem State.post_touches {ps : List Part} {s0 s : State} {owner : Bool} {p : Path} {port : Nat} {addr : Nat}
    {bs : Bytes} (hp : Part.within [.mem, .evt, .dram, .out] ps = true) (h : Touches ps s0 s) :
    Touches ps s0 (State.post s owner p port addr bs) := by
  unfold State.post
  refine .ite ?_ ?_
  · exact State.violation_touches (Part.sub rfl hp) h
  · split
    · exact State.dwrite_touches (Part.sub rfl hp) h
    · exact State.emit_touches (Part.sub rfl hp) h
    · exact h

theorem State.putCompletion_touches {ps : List Part} {s0 s : State} {q : Nat} {p : Path} {tag : Nat} {status : Nat}
    {b5 : Nat} {b6 : Nat} {rest : Bytes} (hp : Part.within [.mem, .ques, .ebx, .evt, .dram, .out] ps = true)
    (h : Touches ps s0 s) :
    Touches ps s0 (State.putCompletion s q p tag status b5 b6 rest) := by
  unfold State.putCompletion
  extract_lets _ s1 _ _
  have h1 : Touches ps s0 s1 := State.giveRing_touches (Part.sub rfl hp) h
  clear_value s1
  exact State.setQueue_touches (Part.sub rfl hp) h1

theorem State.completionEvent_touches {ps : List Part} {s0 s : State} {q : Nat} {p : Path} {ring : Nat} {tag : Nat}
    (hp : Part.within [.mem, .evt, .dram, .out] ps = true) (h : Touches ps s0 s) :
    Touches ps s0 (State.completionEvent s q p ring tag) := by
  unfold State.completionEvent
  extract_lets _
  exact .ite (State.event_touches (Part.sub rfl hp) h) (State.post_touches (Part.sub rfl hp) h)

theorem State.closeCompletion_touches {ps : List Part} {s0 s : State} {q : Nat} {p : Path} {c : Closing} {tag : Nat}
    {status : Nat} {b5 : Nat} {b6 : Nat} {rest : Bytes}
    (hp : Part.within [.mem, .ques, .ebx, .evt, .dram, .out] ps = true) (h : Touches ps s0 s) :
    Touches ps s0 (State.closeCompletion s q p c tag status b5 b6 rest) := by
  unfold State.closeCompletion
  extract_lets s1 _ _ _
  have h1 : Touches ps s0 s1 := State.giveRing_touches (Part.sub rfl hp) h
  clear_value s1
  exact State.setQueue_touches (Part.sub rfl hp) h1

theorem State.completeAs_touches {ps : List Part} {s0 s : State} {r : Req} {status : Nat} {b5 : Nat} {b6 : Nat}
    {rest : Bytes} (hp : Part.within [.mem, .ques, .ebx, .evt, .dram, .out] ps = true) (h : Touches ps s0 s) :
    Touches ps s0 (State.completeAs s r status b5 b6 rest) := by
  unfold State.completeAs
  extract_lets s1
  have h1 : Touches ps s0 s1 := State.emit_touches (Part.sub rfl hp) h
  clear_value s1
  split
  · exact h1
  · extract_lets _ m1s1 m1s2
    have m1h1 : Touches ps s0 m1s1 := State.setQueue_touches (Part.sub rfl hp) h1
    clear_value m1s1
    have m1h2 : Touches ps s0 m1s2 := State.putCompletion_touches (Part.sub rfl hp) m1h1
    clear_value m1s2
    refine .ite ?_ ?_
    · exact .ite (State.completionEvent_touches (Part.sub rfl hp) m1h2) m1h2
    · split
      · extract_lets m1bm0s1
        have m1bm0h1 : Touches ps s0 m1bm0s1 := State.closeCompletion_touches (Part.sub rfl hp) h1
        clear_value m1bm0s1
        exact .ite (State.completionEvent_touches (Part.sub rfl hp) m1bm0h1) m1bm0h1
      · exact h1

theorem State.complete_touches {ps : List Part} {s0 s : State} {r : Req} {status : Nat} {detail : Nat} {value : Nat}
    (hp : Part.within [.mem, .ques, .ebx, .evt, .dram, .out] ps = true) (h : Touches ps s0 s) :
    Touches ps s0 (State.complete s r status detail value) :=
  State.completeAs_touches (Part.sub rfl hp) h

theorem State.deny_touches {ps : List Part} {s0 s : State} {r : Req}
    (hp : Part.within [.log, .mem, .ques, .ebx, .evt, .mgt, .dram, .out] ps = true) (h : Touches ps s0 s) :
    Touches ps s0 (State.deny s r) :=
  State.complete_touches (Part.sub rfl hp) (State.deniedRec_touches (Part.sub rfl hp) h)

theorem State.withRight_touches {ps : List Part} {s0 s : State} {r : Req} {x : Right} {f : State → State}
    (hp : Part.within [.log, .mem, .ques, .ebx, .evt, .mgt, .dram, .out] ps = true) (hf : ∀ (s' : State)
    (_ : Touches ps s0 s'), Touches ps s0 (f s')) (h : Touches ps s0 s) :
    Touches ps s0 (State.withRight s r x f) :=
  .ite (hf _ h) (State.deny_touches (Part.sub rfl hp) h)

theorem State.withWriteRight_touches {ps : List Part} {s0 s : State} {r : Req} {x : Right} {addr : Nat}
    {f : State → State} (hp : Part.within [.log, .evt, .mgt] ps = true) (hf : ∀ (s' : State)
    (_ : Touches ps s0 s'), Touches ps s0 (f s')) (h : Touches ps s0 s) :
    Touches ps s0 (State.withWriteRight s r x addr f) :=
  .ite (hf _ h) (State.refuseWrite_touches (Part.sub rfl hp) h)

end Sys2Proof.Machine
end

