-- ==== Sys2Proof/Laws/Answers.lean ====
section
/-!
SUPPORT. Laws/Answers.lean: little-endian fields, and that a completion answers its request on its path with the status, DETAIL
and VALUE it was given.
-/
set_option Elab.async false
namespace Sys2Proof.Machine

theorem leBytes_length (n v : Nat) : (leBytes n v).length = n := by
  induction n generalizing v with
  | zero => rfl
  | succ n ih => simp [leBytes, ih]

theorem leNat_leBytes (n v : Nat) : leNat (leBytes n v) = v % 256 ^ n := by
  induction n generalizing v with
  | zero => simp [leBytes, leNat, Nat.mod_one]
  | succ n ih =>
    simp only [leBytes, leNat, ih, BitVec.toNat_ofNat]
    rw [show (256 : Nat) ^ (n + 1) = 256 * 256 ^ n by rw [Nat.pow_succ, Nat.mul_comm], Nat.mod_mul]

/-- A field reads as it was written. -/
theorem le_field (a b : Bytes) (n v : Nat) : le (a ++ leBytes n v ++ b) a.length n = v % 256 ^ n := by
  have h : slice (a ++ leBytes n v ++ b) a.length n = leBytes n v := by
    unfold slice
    rw [List.append_assoc, List.drop_left]
    exact List.take_left' (leBytes_length n v)
  rw [le, h, leNat_leBytes]

/-- What goes out stands before what went out earlier. -/
def State.grows (s t : State) : Prop := ∃ l : List Out, t.out = l ++ s.out

theorem State.grows_refl {s t : State} (h : t.out = s.out) : s.grows t := ⟨[], h⟩

theorem State.grows_trans {r s t : State} (h : r.grows s) (h' : s.grows t) : r.grows t := by
  obtain ⟨l, h⟩ := h
  obtain ⟨m, h'⟩ := h'
  exact ⟨m ++ l, by rw [h', h, List.append_assoc]⟩

theorem State.grows_request {s : State} {p a n : Nat} {w : Bool} {d : Bytes} {q : Option Nat} :
    s.grows (s.request p w a n d q) := ⟨[_], rfl⟩

theorem State.grows_foldl {α : Type} {f : State → α → State} {l : List α} (hf : ∀ (s : State) (a : α), s.grows (f s a)) (s : State) :
    s.grows (l.foldl f s) := by
  induction l generalizing s with
  | nil => exact State.grows_refl rfl
  | cons a l ih => exact State.grows_trans (hf s a) (ih (f s a))

theorem State.dwrite_out (s : State) (a : Nat) (b : Bytes) : (s.dwrite a b).out = s.out := by
  unfold State.dwrite
  extract_lets
  split <;> rfl

theorem State.grows_give (s : State) (a : Nat) (b : Bytes) : s.grows (s.give a b) := by
  unfold State.give
  split
  · exact State.grows_refl (State.dwrite_out s _ b)
  · exact State.grows_foldl (fun _ _ => State.grows_request) s
  · exact State.grows_refl rfl

/-- Counting a violation gives nothing out. -/
theorem State.violation_out (s : State) (p : Path) (a : Nat) : (s.violation p a).out = s.out :=
  (State.violation_touches (ps := Part.others.erase .out) rfl (.refl _ _)).only .out rfl

theorem State.grows_giveRing (s : State) (q : Nat) (p : Path) (a : Nat) (b : Bytes) : s.grows (s.giveRing q p a b) := by
  unfold State.giveRing
  split
  · exact State.grows_refl (State.violation_out s p _)
  · exact State.grows_give s a b

theorem State.grows_post (s : State) (o : Bool) (p : Path) (port a : Nat) (b : Bytes) : s.grows (s.post o p port a b) := by
  unfold State.post
  split
  · exact State.grows_refl (State.violation_out s p _)
  · split
    · exact State.grows_refl (State.dwrite_out s _ b)
    · exact ⟨[_], rfl⟩
    · exact State.grows_refl rfl

theorem State.event_out (s : State) (b c i d : Nat) : (s.event b c i d).out = s.out := by
  unfold State.event
  split <;> rfl

theorem State.grows_putCompletion (s : State) (q : Nat) (p : Path) (t a b c : Nat) (d : Bytes) :
    s.grows (s.putCompletion q p t a b c d) := by
  unfold State.putCompletion
  extract_lets
  exact State.grows_trans (State.grows_giveRing s _ _ _ _) (State.grows_refl rfl)

theorem State.grows_closeCompletion (s : State) (q : Nat) (p : Path) (x : Closing) (t a b c : Nat) (d : Bytes) :
    s.grows (s.closeCompletion q p x t a b c d) := by
  unfold State.closeCompletion
  extract_lets
  exact State.grows_trans (State.grows_giveRing s _ _ _ _) (State.grows_refl rfl)

theorem State.grows_completionEvent (s : State) (q : Nat) (p : Path) (a t : Nat) : s.grows (s.completionEvent q p a t) := by
  unfold State.completionEvent
  extract_lets
  split
  · exact State.grows_refl (State.event_out s _ _ _ _)
  · exact State.grows_post s _ _ _ _ _

/-- A completion answers the request. -/
theorem State.completeAs_answers (s : State) (r : Req) (st a b : Nat) (rest : Bytes) :
    s.answers (s.completeAs r st a b rest) r st (le rest 0 4) (le rest 8 8) := by
  suffices h : (s.emit (.status r st (le rest 0 4) (le rest 8 8))).grows (s.completeAs r st a b rest) by
    obtain ⟨l, h⟩ := h
    exact ⟨l, [], h⟩
  unfold State.completeAs
  extract_lets s1
  split
  · exact State.grows_refl rfl
  · next q _ =>
    extract_lets x s2 s3
    have h2 : s1.grows s3 := State.grows_trans (s := s2) (State.grows_refl rfl) (State.grows_putCompletion _ _ _ _ _ _ _ _)
    split
    · split
      · exact State.grows_trans h2 (State.grows_completionEvent _ _ _ _ _)
      · exact h2
    · split
      · next c _ =>
        have h4 := State.grows_closeCompletion s1 q r.path c r.tag st a b rest
        extract_lets s4
        split
        · exact State.grows_trans h4 (State.grows_completionEvent _ _ _ _ _)
        · exact h4
      · exact State.grows_refl rfl

/-- A completion with DETAIL and VALUE answers the request with them. -/
theorem State.complete_answers (s : State) (r : Req) (st d v : Nat) :
    s.answers (s.complete r st d v) r st (d % 2 ^ 32) (v % 2 ^ 64) := by
  have h := s.completeAs_answers r st 0 0 (leBytes 4 d ++ midBytes r.queue ++ leBytes 8 v)
  have hm : (midBytes r.queue).length = 4 := by unfold midBytes; split <;> rfl
  have h1 : le (leBytes 4 d ++ midBytes r.queue ++ leBytes 8 v) 0 4 = d % 2 ^ 32 := by
    have := le_field [] (midBytes r.queue ++ leBytes 8 v) 4 d
    simpa [List.append_assoc] using this
  have h2 : le (leBytes 4 d ++ midBytes r.queue ++ leBytes 8 v) 8 8 = v % 2 ^ 64 := by
    have := le_field (leBytes 4 d ++ midBytes r.queue) [] 8 v
    simpa [List.append_assoc, leBytes_length, hm] using this
  rw [h1, h2] at h
  exact h

/-- An answer to a state whose output has grown is an answer. -/
theorem State.answers_of_grows {r s t : State} {q : Req} {a b c : Nat} (h : r.grows s) (h' : s.answers t q a b c) :
    r.answers t q a b c := by
  obtain ⟨m, h⟩ := h
  obtain ⟨l, e, h'⟩ := h'
  exact ⟨l, e ++ m, by rw [h', h, List.append_assoc]⟩

end Sys2Proof.Machine
end

