-- ==== Sys2Proof/Laws/Frames/Nodes.lean ====
section
/-!
SUPPORT. Laws/Frames/Nodes.lean: what each operation of Machine/Nodes.lean changes: one lemma for each, by the rules of
Laws/Touches.
-/
set_option Elab.async false
namespace Sys2Proof.Machine

theorem State.keepWindows_touches {ps : List Part} {s0 s : State} {old : Bytes} (hp : Part.within [.svy] ps = true)
    (h : Touches ps s0 s) :
    Touches ps s0 (State.keepWindows s old) :=
  .ite h (.updSvy (Part.sub rfl hp) h)

end Sys2Proof.Machine
end

