-- ==== Sys2Proof/Laws/Frames/Energy.lean ====
section
/-!
SUPPORT. Laws/Frames/Energy.lean: what each operation of Machine/Energy.lean changes: one lemma for each, by the rules of
Laws/Touches.
-/
set_option Elab.async false
namespace Sys2Proof.Machine

theorem State.setCapS_touches {ps : List Part} {s0 s : State} {n : Nat} {x : SiteCap}
    (hp : Part.within [.cap] ps = true) (h : Touches ps s0 s) :
    Touches ps s0 (State.setCapS s n x) :=
  .updCap (Part.sub rfl hp) h

theorem State.bumpSite_touches {ps : List Part} {s0 s : State} {n : Nat} {k : Nat}
    (hp : Part.within [.cap, .evt] ps = true) (h : Touches ps s0 s) :
    Touches ps s0 (State.bumpSite s n k) :=
  State.bump_touches (Part.sub rfl hp) (fun _ _ h => (State.setCapS_touches (Part.sub rfl hp) h)) h

theorem State.setJob_touches {ps : List Part} {s0 s : State} {j : Nat} {x : Job} (hp : Part.within [.met] ps = true)
    (h : Touches ps s0 s) :
    Touches ps s0 (State.setJob s j x) :=
  .updMet (Part.sub rfl hp) h

theorem State.addTo_touches {ps : List Part} {s0 s : State} {site : Nat} {job : Nat} {nj : Nat}
    (hp : Part.within [.met, .evt] ps = true) (h : Touches ps s0 s) :
    Touches ps s0 (State.addTo s site job nj) :=
  .ite (.ite (State.event_touches (Part.sub rfl hp) (.updMet (Part.sub rfl hp) h)) (.updMet (Part.sub rfl
    hp) h)) (.ite (State.event_touches (Part.sub rfl hp) (State.setJob_touches (Part.sub rfl hp) h))
    (State.setJob_touches (Part.sub rfl hp) h))

theorem State.takeFrom_touches {ps : List Part} {s0 s : State} {site : Nat} {job : Nat} {nj : Nat}
    (hp : Part.within [.met] ps = true) (h : Touches ps s0 s) :
    Touches ps s0 (State.takeFrom s site job nj) :=
  .ite (.updMet (Part.sub rfl hp) h) (State.setJob_touches (Part.sub rfl hp) h)

theorem State.releaseJob_touches {ps : List Part} {s0 s : State} {j : Nat} (hp : Part.within [.met, .evt] ps = true)
    (h : Touches ps s0 s) :
    Touches ps s0 (State.releaseJob s j) := by
  unfold State.releaseJob
  extract_lets _ s1 _ s2 _
  have h1 : Touches ps s0 s1 := .foldl (fun _ _ h => (.ite (State.event_touches (Part.sub rfl hp) (.updMet
      (Part.sub rfl hp) h)) (.updMet (Part.sub rfl hp) h))) h
  clear_value s1
  have h2 : Touches ps s0 s2 := State.setJob_touches (Part.sub rfl hp) h1
  clear_value s2
  exact .updMet (Part.sub rfl hp) h2

theorem State.endJobOn_touches {ps : List Part} {s0 s : State} {site : Nat} {implicit : Bool}
    (hp : Part.within [.met] ps = true) (h : Touches ps s0 s) :
    Touches ps s0 (State.endJobOn s site implicit) := by
  unfold State.endJobOn
  extract_lets _ _ _ _ s1 _ s2 _
  have h1 : Touches ps s0 s1 := .updMet (Part.sub rfl hp) h
  clear_value s1
  have h2 : Touches ps s0 s2 := State.setJob_touches (Part.sub rfl hp) h1
  clear_value s2
  refine .ite ?_ ?_
  · exact h
  · exact .ite (.updMet (Part.sub rfl hp) h2) (State.setJob_touches (Part.sub rfl hp) h1)

theorem State.roomForJob_touches {ps : List Part} {s0 s : State} (hp : Part.within [.met, .evt] ps = true)
    (h : Touches ps s0 s) :
    Touches ps s0 (State.roomForJob s).1 := by
  unfold State.roomForJob
  generalize List.find? _ _ = o
  cases o with
  | some j => exact h
  | none =>
    dsimp only
    generalize List.foldl _ _ _ = o
    cases o with
    | some j => exact State.releaseJob_touches (Part.sub rfl hp) h
    | none => exact h

theorem State.markEstimated_touches {ps : List Part} {s0 s : State} {job : Nat} (hp : Part.within [.met] ps = true)
    (h : Touches ps s0 s) :
    Touches ps s0 (State.markEstimated s job) :=
  .ite h (State.setJob_touches (Part.sub rfl hp) h)

theorem State.reattr_touches {ps : List Part} {s0 s : State} {site : Nat} {t : Nat} {old : Nat} {new : Nat}
    (hp : Part.within [.met, .evt] ps = true) (h : Touches ps s0 s) :
    Touches ps s0 (State.reattr s site t old new) := by
  refine .updMet (Part.sub rfl hp) (.foldlPair (fun z x hz => ?_) h)
  dsimp only
  split
  · exact hz
  · have h1 := State.addTo_touches (site := site) (job := new) (nj := x.from t old x.parts) (Part.sub rfl hp)
      (State.takeFrom_touches (site := site) (job := old) (nj := x.from t old x.parts) (Part.sub rfl hp) hz)
    exact .ite (State.markEstimated_touches (Part.sub rfl hp) h1) h1

theorem State.joinJob_touches {ps : List Part} {s0 s : State} {site : Nat} {t : Nat} {j : Nat}
    (hp : Part.within [.met, .evt] ps = true) (h : Touches ps s0 s) :
    Touches ps s0 (State.joinJob s site t j) := by
  unfold State.joinJob
  extract_lets _ s1 s2 _
  have h1 : Touches ps s0 s1 := State.setJob_touches (Part.sub rfl hp) h
  clear_value s1
  have h2 : Touches ps s0 s2 := State.reattr_touches (Part.sub rfl hp) h1
  clear_value s2
  exact .updMet (Part.sub rfl hp) h2

theorem State.applyMark_touches {ps : List Part} {s0 s : State} {site : Nat} {begins : Bool} {id : Nat} {t : Nat}
    (hp : Part.within [.met, .evt] ps = true) (h : Touches ps s0 s) :
    Touches ps s0 (State.applyMark s site begins id t) := by
  have hs : Touches ps s0 ((if Tbl.get 0 s.met.siteJob site = 0 then s
      else s.reattr site t (Tbl.get 0 s.met.siteJob site) 0).endJobOn site true) :=
    State.endJobOn_touches (Part.sub rfl hp) (.ite h (State.reattr_touches (Part.sub rfl hp) h))
  unfold State.applyMark
  cases begins with
  | false =>
    rw [if_neg Bool.false_ne_true]
    exact .ite (State.endJobOn_touches (Part.sub rfl hp) (State.reattr_touches (Part.sub rfl hp) h)) h
  | true =>
    rw [if_pos rfl]
    dsimp only
    generalize State.endJobOn _ _ _ = u at hs ⊢
    generalize State.openJob _ _ = o
    cases o with
    | some j => exact State.joinJob_touches (Part.sub rfl hp) hs
    | none =>
      have hr := State.roomForJob_touches (Part.sub rfl hp) hs
      dsimp only
      generalize State.roomForJob _ = z at hr ⊢
      obtain ⟨u, o⟩ := z
      cases o with
      | some j => exact State.joinJob_touches (Part.sub rfl hp) (State.setJob_touches (Part.sub rfl hp) hr)
      | none =>
        exact State.event_touches (Part.sub rfl hp)
          (State.bump_touches (Part.sub rfl hp) (fun _ _ h => .updMet (Part.sub rfl hp) h) hr)

end Sys2Proof.Machine
end

