-- ==== Sys2Proof/Laws/Frames/LaunchRec.lean ====
section
/-!
SUPPORT. Laws/Frames/LaunchRec.lean: what each operation of Machine/LaunchRec.lean changes: one lemma for each, by the rules of
Laws/Touches.
-/
set_option Elab.async false
namespace Sys2Proof.Machine

theorem State.setArm_touches {ps : List Part} {s0 s : State} {i : Nat} {x : ArmEntry}
    (hp : Part.within [.pnt] ps = true) (h : Touches ps s0 s) :
    Touches ps s0 (State.setArm s i x) :=
  .updPnt (Part.sub rfl hp) h

theorem State.launchEvent_touches {ps : List Part} {s0 s : State} {site : Nat} {kind : Nat} {x : ArmEntry}
    {reason : Nat} {pos : Nat} (hp : Part.within [.log, .evt] ps = true) (h : Touches ps s0 s) :
    Touches ps s0 (State.launchEvent s site kind x reason pos) :=
  State.record_touches (Part.sub rfl hp) h

theorem State.noteCut_touches {ps : List Part} {s0 s : State} {n : Nat}
    (hp : Part.within [.log, .pnt, .evt] ps = true) (h : Touches ps s0 s) :
    Touches ps s0 (State.noteCut s n) :=
  .foldl (fun _ _ h => (.ite (State.launchEvent_touches (Part.sub rfl hp) (State.setArm_touches (Part.sub rfl hp)
    h)) h)) h

theorem State.capEvent_touches {ps : List Part} {s0 s : State} {source : Nat} {kind : Nat} {cap : Int}
    {measured : Int} {level : Nat} (hp : Part.within [.log, .evt] ps = true) (h : Touches ps s0 s) :
    Touches ps s0 (State.capEvent s source kind cap measured level) :=
  State.record_touches (Part.sub rfl hp) h

theorem State.setPeaks_touches {ps : List Part} {s0 s : State} {n : Nat} {x : Peaks}
    (hp : Part.within [.met] ps = true) (h : Touches ps s0 s) :
    Touches ps s0 (State.setPeaks s n x) :=
  .updMet (Part.sub rfl hp) h

theorem State.capCut_touches {ps : List Part} {s0 s : State} {n : Nat}
    (hp : Part.within [.log, .cap, .pnt, .evt] ps = true) (h : Touches ps s0 s) :
    Touches ps s0 (State.capCut s n) := by
  unfold State.capCut
  extract_lets _ s1
  have h1 : Touches ps s0 s1 := .ite h (State.capEvent_touches (Part.sub rfl hp) (State.setCapS_touches
      (Part.sub rfl hp) h))
  clear_value s1
  exact State.noteCut_touches (Part.sub rfl hp) h1

theorem State.throttleNote_touches {ps : List Part} {s0 s : State}
    (hp : Part.within [.log, .cap, .pnt, .evt] ps = true) (h : Touches ps s0 s) :
    Touches ps s0 (State.throttleNote s) :=
  .foldl (fun _ _ h => (.ite h (.ite (State.capCut_touches (Part.sub rfl hp) (.foldl (fun _ _ h => (.ite
    (State.setArm_touches (Part.sub rfl hp) h) h)) h)) (.foldl (fun _ _ h => (.ite (State.setArm_touches (Part.sub
    rfl hp) h) h)) h)))) h

end Sys2Proof.Machine
end

