-- ==== Sys2Proof/Laws/Frames/CalCore.lean ====
section
/-!
SUPPORT. Laws/Frames/CalCore.lean: what each operation of Machine/CalCore.lean changes: one lemma for each, by the rules of
Laws/Touches.
-/
set_option Elab.async false
namespace Sys2Proof.Machine

theorem State.setCalSite_touches {ps : List Part} {s0 s : State} {n : Nat} {x : CalSite}
    (hp : Part.within [.cal] ps = true) (h : Touches ps s0 s) :
    Touches ps s0 (State.setCalSite s n x) :=
  .updCal (Part.sub rfl hp) h

theorem State.bumpCov_touches {ps : List Part} {s0 s : State} {n : Nat} {op : Nat} {k : Nat}
    (hp : Part.within [.cal, .evt] ps = true) (h : Touches ps s0 s) :
    Touches ps s0 (State.bumpCov s n op k) :=
  State.bump_touches (Part.sub rfl hp) (fun _ _ h => (State.setCalSite_touches (Part.sub rfl hp) h)) h

theorem State.addTerms_touches {ps : List Part} {s0 s : State} {n : Nat} {op : Nat} {terms : Nat} {chk : Bool}
    (hp : Part.within [.cal, .evt] ps = true) (h : Touches ps s0 s) :
    Touches ps s0 (State.addTerms s n op terms chk) := by
  unfold State.addTerms
  extract_lets _ _ _ _ _ s1
  have h1 : Touches ps s0 s1 := State.setCalSite_touches (Part.sub rfl hp) h
  clear_value s1
  exact .ite (State.event_touches (Part.sub rfl hp) h1) h1

theorem State.calEvent_touches {ps : List Part} {s0 s : State} {source : Nat} {kind : Nat} {site : Nat}
    {count : Nat} {run : Nat} (hp : Part.within [.log, .evt] ps = true) (h : Touches ps s0 s) :
    Touches ps s0 (State.calEvent s source kind site count run) :=
  State.record_touches (Part.sub rfl hp) h

theorem State.calSiteEvent_touches {ps : List Part} {s0 s : State} {n : Nat} {kind : Nat} {count : Nat} {run : Nat}
    (hp : Part.within [.log, .cal, .evt] ps = true) (h : Touches ps s0 s) :
    Touches ps s0 (State.calSiteEvent s n kind count run) := by
  unfold State.calSiteEvent
  extract_lets _
  refine .ite ?_ ?_
  · exact State.calEvent_touches (Part.sub rfl hp) (State.setCalSite_touches (Part.sub rfl hp) h)
  · exact h

theorem State.calDone_touches {ps : List Part} {s0 s : State} {r : Req} {status : Nat} {verdict : Nat} {flags : Nat}
    {detail : Nat} {dis : Nat} {cycles : Nat} (hp : Part.within [.mem, .ques, .ebx, .evt, .dram, .out] ps = true)
    (h : Touches ps s0 s) :
    Touches ps s0 (State.calDone s r status verdict flags detail dis cycles) :=
  State.completeAs_touches (Part.sub rfl hp) h

theorem State.runCov_touches {ps : List Part} {s0 s : State} {run : Nat} {site : Nat}
    {f : Nat × Nat × Nat × Nat → Nat × Nat × Nat × Nat} (hp : Part.within [.cal] ps = true) (h : Touches ps s0 s) :
    Touches ps s0 (State.runCov s run site f) :=
  .updCal (Part.sub rfl hp) h

theorem State.tileTakes_touches {ps : List Part} {s0 s : State} {t : Nat} (hp : Part.within [.cal] ps = true)
    (h : Touches ps s0 s) :
    Touches ps s0 (State.tileTakes s t) := by
  unfold State.tileTakes
  extract_lets _
  refine .ite ?_ ?_
  · exact h
  · split
    · exact h
    · exact .ite (.updCal (Part.sub rfl hp) h) h

theorem State.calNext_touches {ps : List Part} {s0 s : State} (hp : Part.within [.cal] ps = true)
    (h : Touches ps s0 s) :
    Touches ps s0 (State.calNext s) :=
  .ite h (.foldl (fun _ _ h => (State.tileTakes_touches (Part.sub rfl hp) h)) h)

theorem State.setTileJob_touches {ps : List Part} {s0 s : State} {j : CalJob} (hp : Part.within [.cal] ps = true)
    (h : Touches ps s0 s) :
    Touches ps s0 (State.setTileJob s j) :=
  .updCal (Part.sub rfl hp) h

theorem State.tileFree_touches {ps : List Part} {s0 s : State} {t : Nat} (hp : Part.within [.cal] ps = true)
    (h : Touches ps s0 s) :
    Touches ps s0 (State.tileFree s t) :=
  .updCal (Part.sub rfl hp) h

theorem State.dropCheck_touches {ps : List Part} {s0 s : State} {id : Nat} (hp : Part.within [.cal] ps = true)
    (h : Touches ps s0 s) :
    Touches ps s0 (State.dropCheck s id) :=
  .updCal (Part.sub rfl hp) h

theorem State.endCheck_touches {ps : List Part} {s0 s : State} {c : Check} {key : Nat} {code : Nat}
    (hp : Part.within [.mem, .cal, .ques, .ebx, .evt, .dram, .out] ps = true) (h : Touches ps s0 s) :
    Touches ps s0 (State.endCheck s c key code) := by
  unfold State.endCheck
  extract_lets s1 s2
  have h1 : Touches ps s0 s1 := State.dropCheck_touches (Part.sub rfl hp) h
  clear_value s1
  have h2 : Touches ps s0 s2 := State.bumpCov_touches (Part.sub rfl hp) h1
  clear_value s2
  split
  · exact State.calDone_touches (Part.sub rfl hp) h1
  · exact .ite h1 (.ite (State.runCov_touches (Part.sub rfl hp) h2) h2)

theorem State.endChecks_touches {ps : List Part} {s0 s : State} {code : Nat}
    (hp : Part.within [.mem, .cal, .ques, .ebx, .evt, .dram, .out] ps = true) (h : Touches ps s0 s) :
    Touches ps s0 (State.endChecks s code) := by
  unfold State.endChecks
  extract_lets _ _ s1
  have h1 : Touches ps s0 s1 := .foldl (fun _ _ h => (State.endCheck_touches (Part.sub rfl hp) h)) (.updCal
      (Part.sub rfl hp) h)
  clear_value s1
  exact .foldl (fun _ _ h => (State.calDone_touches (Part.sub rfl hp) h)) h1

theorem State.endGauge_touches {ps : List Part} {s0 s : State} {status : Nat}
    (hp : Part.within [.mem, .cal, .gimg, .ques, .ebx, .evt, .dram, .out] ps = true) (h : Touches ps s0 s) :
    Touches ps s0 (State.endGauge s status) := by
  unfold State.endGauge
  extract_lets _ s1
  have h1 : Touches ps s0 s1 := .updCal (Part.sub rfl hp) h
  clear_value s1
  refine .foldl (fun _ _ hf => ?_) h1
  extract_lets _ fs1 fs2 fs3 _
  have fh1 : Touches ps s0 fs1 := by
    unfold fs1
    refine .foldl (fun _ _ fk1hf => ?_) hf
    exact by split; exact (State.calDone_touches (Part.sub rfl hp) fk1hf); exact fk1hf
  clear_value fs1
  have fh2 : Touches ps s0 fs2 := .elim fh1 fun _ => (State.calDone_touches (Part.sub rfl hp) fh1)
  clear_value fs2
  have fh3 : Touches ps s0 fs3 := .ite fh2 (.updGimg (Part.sub rfl hp) fh2)
  clear_value fs3
  exact .updCal (Part.sub rfl hp) fh3

theorem State.calStop_touches {ps : List Part} {s0 s : State} {status : Nat}
    (hp : Part.within [.mem, .cal, .gimg, .ques, .ebx, .evt, .dram, .out] ps = true) (h : Touches ps s0 s) :
    Touches ps s0 (State.calStop s status) :=
  State.endGauge_touches (Part.sub rfl hp) (State.endChecks_touches (Part.sub rfl hp) h)

theorem State.calSiteLeft_touches {ps : List Part} {s0 s : State} {n : Nat}
    (hp : Part.within [.log, .mem, .cal, .ques, .ebx, .evt, .dram, .out] ps = true) (h : Touches ps s0 s) :
    Touches ps s0 (State.calSiteLeft s n) :=
  State.calNext_touches (Part.sub rfl hp) (.foldl (fun _ _ h => (State.calSiteEvent_touches (Part.sub rfl hp)
    (State.endCheck_touches (Part.sub rfl hp) h))) h)

theorem State.latchSeed_touches {ps : List Part} {s0 s : State} {run : Nat} (hp : Part.within [.cal] ps = true)
    (h : Touches ps s0 s) :
    Touches ps s0 (State.latchSeed s run) :=
  .updCal (Part.sub rfl hp) h

end Sys2Proof.Machine
end

