-- ==== Sys2Proof/Laws/Frames/JrnCore.lean ====
section
/-!
SUPPORT. Laws/Frames/JrnCore.lean: what each operation of Machine/JrnCore.lean changes: one lemma for each, by the rules of
Laws/Touches.
-/
set_option Elab.async false
namespace Sys2Proof.Machine

theorem State.setJpair_touches {ps : List Part} {s0 s : State} {p : Nat} {x : JPair}
    (hp : Part.within [.jrn] ps = true) (h : Touches ps s0 s) :
    Touches ps s0 (State.setJpair s p x) :=
  .updJrn (Part.sub rfl hp) h

theorem State.bumpJ_touches {ps : List Part} {s0 s : State} {k : Nat} (hp : Part.within [.jrn, .evt] ps = true)
    (h : Touches ps s0 s) :
    Touches ps s0 (State.bumpJ s k) :=
  State.bump_touches (Part.sub rfl hp) (fun _ _ h => (.updJrn (Part.sub rfl hp) h)) h

theorem State.jEvent_touches {ps : List Part} {s0 s : State} {source : Nat} {kind : Nat} {run : Nat} {seq : Nat}
    {count : Nat} (hp : Part.within [.log, .evt] ps = true) (h : Touches ps s0 s) :
    Touches ps s0 (State.jEvent s source kind run seq count) :=
  State.record_touches (Part.sub rfl hp) h

theorem State.jAppend_touches {ps : List Part} {s0 s : State} {p : Nat} {kind : Nat} {body : Bytes}
    (hp : Part.within [.log, .mem, .jrn, .evt, .dram] ps = true) (h : Touches ps s0 s) :
    Touches ps s0 (State.jAppend s p kind body) := by
  unfold State.jAppend
  extract_lets _ _ _ _ _ _ _ _ _ s1 s2 s3 _ s4
  have h1 : Touches ps s0 s1 := State.setJpair_touches (Part.sub rfl hp) h
  clear_value s1
  have h2 : Touches ps s0 s2 := .foldl (fun _ _ h => (State.dwrite_touches (Part.sub rfl hp) h)) h1
  clear_value s2
  have h3 : Touches ps s0 s3 := .foldl (fun _ _ h => (State.bumpJ_touches (Part.sub rfl hp) h)) h2
  clear_value s3
  have h4 : Touches ps s0 s4 := .updJrn (Part.sub rfl hp) h3
  clear_value s4
  exact .ite h (.ite h2 (.ite h4 (State.jEvent_touches (Part.sub rfl hp) h4)))

theorem State.jrnSee_touches {ps : List Part} {s0 s : State} {run : Nat} (hp : Part.within [.cal, .jrn] ps = true)
    (h : Touches ps s0 s) :
    Touches ps s0 (State.jrnSee s run) :=
  .ite h (State.latchSeed_touches (Part.sub rfl hp) (.updJrn (Part.sub rfl hp) h))

theorem State.setJrnRun_touches {ps : List Part} {s0 s : State} {x : JRun} (hp : Part.within [.jrn] ps = true)
    (h : Touches ps s0 s) :
    Touches ps s0 (State.setJrnRun s x) :=
  .updJrn (Part.sub rfl hp) h

theorem State.setSeq_touches {ps : List Part} {s0 s : State} {q : JSeq} (hp : Part.within [.jrn] ps = true)
    (h : Touches ps s0 s) :
    Touches ps s0 (State.setSeq s q) :=
  .updJrn (Part.sub rfl hp) h

theorem State.foldBlock_touches {ps : List Part} {s0 s : State} {slot : Nat}
    (hp : Part.within [.log, .mem, .jrn, .evt, .dram] ps = true) (h : Touches ps s0 s) :
    Touches ps s0 (State.foldBlock s slot) := by
  unfold State.foldBlock
  split
  · exact h
  · extract_lets _ _ _ _ _ _ _ _ _ m1s1 _ _ m1s2 m1s3
    have m1h1 : Touches ps s0 m1s1 := State.setSeq_touches (Part.sub rfl hp) h
    clear_value m1s1
    have m1h2 : Touches ps s0 m1s2 := State.jAppend_touches (Part.sub rfl hp) m1h1
    clear_value m1s2
    have m1h3 : Touches ps s0 m1s3 := .ite m1h2 (State.jAppend_touches (Part.sub rfl hp) m1h2)
    clear_value m1s3
    exact .ite m1h3 (State.jEvent_touches (Part.sub rfl hp) m1h3)

theorem State.sealRun_touches {ps : List Part} {s0 s : State} {run : Nat} (hp : Part.within [.jrn, .evt] ps = true)
    (h : Touches ps s0 s) :
    Touches ps s0 (State.sealRun s run) := by
  unfold State.sealRun
  extract_lets _ _ s1 _ s2 _ _ s3
  have h1 : Touches ps s0 s1 := State.setJrnRun_touches (Part.sub rfl hp) h
  clear_value s1
  have h2 : Touches ps s0 s2 := .updJrn (Part.sub rfl hp) h1
  clear_value s2
  have h3 : Touches ps s0 s3 := .updJrn (Part.sub rfl hp) h2
  clear_value s3
  exact .ite h (.ite h2 (.ite (State.bumpJ_touches (Part.sub rfl hp) h3) h3))

theorem State.trySeal_touches {ps : List Part} {s0 s : State} {run : Nat} (hp : Part.within [.jrn, .evt] ps = true)
    (h : Touches ps s0 s) :
    Touches ps s0 (State.trySeal s run) := by
  unfold State.trySeal
  split
  · exact h
  · exact (.ite (State.sealRun_touches (Part.sub rfl hp) h) h)

theorem State.foldRest_touches {ps : List Part} {s0 s : State} {slot k : Nat}
    (hp : Part.within [.log, .mem, .jrn, .evt, .dram] ps = true) (h : Touches ps s0 s) :
    Touches ps s0 (State.foldRest slot k s) := by
  induction k generalizing s with
  | zero => exact h
  | succ k ih =>
    unfold State.foldRest
    split
    · exact .ite (ih (State.foldBlock_touches (Part.sub rfl hp) h)) h
    · exact h

theorem State.closeSeq_touches {ps : List Part} {s0 s : State} {slot : Nat} {timeout : Bool} {lost : Bool}
    (hp : Part.within [.log, .mem, .jrn, .evt, .dram] ps = true) (h : Touches ps s0 s) :
    Touches ps s0 (State.closeSeq s slot timeout lost) := by
  unfold State.closeSeq
  extract_lets s1
  have h1 : Touches ps s0 s1 := State.foldRest_touches (Part.sub rfl hp) h
  clear_value s1
  split
  · exact h1
  · extract_lets _ _ m1s1 _ _
    have m1h1 : Touches ps s0 m1s1 := State.jAppend_touches (Part.sub rfl hp) (State.setSeq_touches (Part.sub
        rfl hp) h1)
    clear_value m1s1
    refine .ite ?_ ?_
    · exact h1
    · refine .ite ?_ ?_
      · exact .updJrn (Part.sub rfl hp) m1h1
      · exact State.trySeal_touches (Part.sub rfl hp) m1h1

theorem State.jrnSiteLeft_touches {ps : List Part} {s0 s : State} {n : Nat}
    (hp : Part.within [.log, .mem, .jrn, .evt, .dram] ps = true) (h : Touches ps s0 s) :
    Touches ps s0 (State.jrnSiteLeft s n) :=
  .foldl (fun _ _ h => (State.closeSeq_touches (Part.sub rfl hp) h)) h

theorem State.jrnRunClosed_touches {ps : List Part} {s0 s : State} {a : ArmEntry} {record : Bytes}
    (hp : Part.within [.cal, .jrn, .evt] ps = true) (h : Touches ps s0 s) :
    Touches ps s0 (State.jrnRunClosed s a record) := by
  unfold State.jrnRunClosed
  extract_lets s1 _ _ _ s2 _
  have h1 : Touches ps s0 s1 := State.jrnSee_touches (Part.sub rfl hp) h
  clear_value s1
  have h2 : Touches ps s0 s2 := State.setJrnRun_touches (Part.sub rfl hp) h1
  clear_value s2
  exact State.trySeal_touches (Part.sub rfl hp) (.updCal (Part.sub rfl hp) h2)

theorem State.mirrorCheck_touches {ps : List Part} {s0 s : State} {p : Nat}
    (hp : Part.within [.log, .mem, .jrn, .evt, .dram] ps = true) (h : Touches ps s0 s) :
    Touches ps s0 (State.mirrorCheck s p) := by
  unfold State.mirrorCheck
  extract_lets _ _ _ s1 s2
  have h1 : Touches ps s0 s1 := State.setJpair_touches (Part.sub rfl hp) h
  clear_value s1
  have h2 : Touches ps s0 s2 := .ite (State.jEvent_touches (Part.sub rfl hp) h1) h1
  clear_value s2
  exact .ite h2 (.foldl (fun _ _ h => (State.closeSeq_touches (Part.sub rfl hp) h)) h2)

end Sys2Proof.Machine
end

