-- ==== Sys2Proof/Laws/Frames/Leaving.lean ====
section
/-!
SUPPORT. Laws/Frames/Leaving.lean: what each operation of Machine/Leaving.lean changes: one lemma for each, by the rules of
Laws/Touches.
-/
set_option Elab.async false
namespace Sys2Proof.Machine

theorem State.closeArm_touches {ps : List Part} {s0 s : State} {i : Nat} {why : Nat}
    (hp : Part.within [.cap, .pnt, .chi, .cal, .jrn, .evt] ps = true) (h : Touches ps s0 s) :
    Touches ps s0 (State.closeArm s i why) := by
  unfold State.closeArm
  extract_lets _ _ _ s1 _ s2
  have h1 : Touches ps s0 s1 := State.setArm_touches (Part.sub rfl hp) h
  clear_value s1
  have h2 : Touches ps s0 s2 := State.jrnRunClosed_touches (Part.sub rfl hp) (.updPnt (Part.sub rfl hp) h1)
  clear_value s2
  refine .foldl (fun _ _ hf => ?_) h2
  extract_lets _ _ fs1 _
  have fh1 : Touches ps s0 fs1 := State.setCapS_touches (Part.sub rfl hp) hf
  clear_value fs1
  exact .ite (.updChi (Part.sub rfl hp) fh1) hf

theorem State.armsLeft_touches {ps : List Part} {s0 s : State} {n : Nat}
    (hp : Part.within [.cap, .pnt, .chi, .cal, .jrn, .evt] ps = true) (h : Touches ps s0 s) :
    Touches ps s0 (State.armsLeft s n) :=
  .foldl (fun _ _ h => (.ite (.ite (State.closeArm_touches (Part.sub rfl hp) (State.setArm_touches (Part.sub rfl
    hp) h)) (State.setArm_touches (Part.sub rfl hp) h)) h)) h

theorem State.armsEnded_touches {ps : List Part} {s0 s : State} {n : Nat} {id : Nat}
    (hp : Part.within [.cap, .pnt, .chi, .cal, .jrn, .evt] ps = true) (h : Touches ps s0 s) :
    Touches ps s0 (State.armsEnded s n id) :=
  .foldl (fun _ _ h => (.ite (.ite (State.closeArm_touches (Part.sub rfl hp) (State.setArm_touches (Part.sub rfl
    hp) h)) (State.setArm_touches (Part.sub rfl hp) h)) h)) h

theorem State.leftRunning_touches {ps : List Part} {s0 s : State} {n : Nat}
    (hp : Part.within [.log, .mem, .cap, .pnt, .chi, .cal, .jrn, .ques, .ebx, .evt, .dram, .out] ps = true)
    (h : Touches ps s0 s) :
    Touches ps s0 (State.leftRunning s n) :=
  State.calSiteLeft_touches (Part.sub rfl hp) (State.armsLeft_touches (Part.sub rfl hp) h)

theorem State.siteLeft_touches {ps : List Part} {s0 s : State} {n : Nat}
    (hp : Part.within [.log, .mem, .cap, .met, .pnt, .chi, .cal, .jrn, .ques, .ebx, .evt, .dram, .out] ps = true)
    (h : Touches ps s0 s) :
    Touches ps s0 (State.siteLeft s n) :=
  State.jrnSiteLeft_touches (Part.sub rfl hp) (State.leftRunning_touches (Part.sub rfl hp) (State.endJobOn_touches
    (Part.sub rfl hp) h))

end Sys2Proof.Machine
end

