-- ==== Sys2Proof/Laws/Frames/Rails.lean ====
section
/-!
SUPPORT. Laws/Frames/Rails.lean: what each operation of Machine/Rails.lean changes: one lemma for each, by the rules of
Laws/Touches.
-/
set_option Elab.async false
namespace Sys2Proof.Machine

theorem State.pmbusWrite_touches {ps : List Part} {s0 s : State} {g : Nat} {on : Bool}
    (hp : Part.within [.out] ps = true) (h : Touches ps s0 s) :
    Touches ps s0 (State.pmbusWrite s g on) := by
  unfold State.pmbusWrite
  extract_lets _
  exact .ite (State.emit_touches (Part.sub rfl hp) h) h

theorem State.unmask_touches {ps : List Part} {s0 s : State} {g : Nat} (hp : Part.within [.pwr, .seq] ps = true)
    (h : Touches ps s0 s) :
    Touches ps s0 (State.unmask s g) :=
  .foldl (fun _ _ h => (.ite (State.setRail_touches (Part.sub rfl hp) h) h)) h

theorem State.moveRail_touches {ps : List Part} {s0 s : State} {g : Nat} {r : Rail}
    (hp : Part.within [.pwr, .seq, .out] ps = true) (h : Touches ps s0 s) :
    Touches ps s0 (State.moveRail s g r) := by
  unfold State.moveRail
  extract_lets _ s1 s2
  have h1 : Touches ps s0 s1 := State.setRail_touches (Part.sub rfl hp) h
  clear_value s1
  have h2 : Touches ps s0 s2 := .ite (State.pmbusWrite_touches (Part.sub rfl hp) h1) (.ite
      (State.pmbusWrite_touches (Part.sub rfl hp) h1) h1)
  clear_value s2
  exact .ite (State.unmask_touches (Part.sub rfl hp) h2) h2

theorem State.railPass_touches {ps : List Part} {s0 s : State} {base : Nat} {n : Nat}
    (hp : Part.within [.pwr, .seq, .out] ps = true) (h : Touches ps s0 s) :
    Touches ps s0 (State.railPass s base n) := by
  unfold State.railPass
  refine .foldl (fun _ _ hf => ?_) h
  split
  · exact State.moveRail_touches (Part.sub rfl hp) hf
  · exact hf

theorem State.railPasses_touches {ps : List Part} {s0 s : State} {base n k : Nat}
    (hp : Part.within [.pwr, .seq, .out] ps = true) (h : Touches ps s0 s) :
    Touches ps s0 (State.railPasses s base n k) := by
  induction k generalizing s with
  | zero => exact h
  | succ k ih => exact ih (State.railPass_touches (Part.sub rfl hp) h)

theorem State.orderDown_touches {ps : List Part} {s0 s : State} {base : Nat} {n : Nat} {mask : Nat}
    (hp : Part.within [.pwr, .seq] ps = true) (h : Touches ps s0 s) :
    Touches ps s0 (State.orderDown s base n mask) :=
  .foldl (fun _ _ h => (.ite h (State.setRail_touches (Part.sub rfl hp) h))) h

theorem State.fullRate_touches {ps : List Part} {s0 s : State} {g : Nat} (hp : Part.within [.pwr] ps = true)
    (h : Touches ps s0 s) :
    Touches ps s0 (State.fullRate s g) := by
  unfold State.fullRate
  refine .foldl (fun _ _ hf => ?_) h
  extract_lets _
  split
  · exact State.askClock_touches (Part.sub rfl hp) (.updPwr (Part.sub rfl hp) hf)
  · exact hf

theorem State.orderUp_touches {ps : List Part} {s0 s : State} {base : Nat} {n : Nat} {mask : Nat}
    (hp : Part.within [.pwr, .seq] ps = true) (h : Touches ps s0 s) :
    Touches ps s0 (State.orderUp s base n mask) :=
  .foldl (fun _ _ h => (.ite (State.fullRate_touches (Part.sub rfl hp) (State.setRail_touches (Part.sub rfl hp) h))
    h)) h

theorem State.siteEvent_touches {ps : List Part} {s0 s : State} {n : Nat} {kind : Nat}
    (hp : Part.within [.log, .evt] ps = true) (h : Touches ps s0 s) :
    Touches ps s0 (State.siteEvent s n kind) :=
  State.record_touches (Part.sub rfl hp) h

theorem State.siteTo_touches {ps : List Part} {s0 s : State} {n : Nat} {st : SiteSt}
    (hp : Part.within [.seq, .log, .mem, .cap, .met, .pnt, .chi, .cal, .jrn, .ques, .ebx, .evt, .dram, .out] ps = true)
    (h : Touches ps s0 s) :
    Touches ps s0 (State.siteTo s n st) := by
  unfold State.siteTo
  extract_lets _ _ s1 s2 _ s3 _ s4 _
  have h1 : Touches ps s0 s1 := State.setSite_touches (Part.sub rfl hp) h
  clear_value s1
  have h2 : Touches ps s0 s2 := State.siteLeft_touches (Part.sub rfl hp) h1
  clear_value s2
  have h3 : Touches ps s0 s3 := .ite (State.setCapS_touches (Part.sub rfl hp) h2) (.ite
      (State.leftRunning_touches (Part.sub rfl hp) h1) h1)
  clear_value s3
  have h4 : Touches ps s0 s4 := .ite (State.setCapS_touches (Part.sub rfl hp) h3) h3
  clear_value s4
  exact .ite (State.setCapS_touches (Part.sub rfl hp) h4) h4

theorem State.siteDownSeq_touches {ps : List Part} {s0 s : State} {n : Nat} {failedUp : Bool}
    (hp : Part.within [.pwr, .seq, .log, .mem, .cap, .met, .pnt, .chi, .cal, .jrn, .ques, .ebx, .evt, .dram, .out] ps = true)
    (h : Touches ps s0 s) :
    Touches ps s0 (State.siteDownSeq s n failedUp) := by
  unfold State.siteDownSeq
  extract_lets _ s1
  have h1 : Touches ps s0 s1 := State.setSite_touches (Part.sub rfl hp) h
  clear_value s1
  exact State.orderDown_touches (Part.sub rfl hp) (State.siteTo_touches (Part.sub rfl hp) h1)

theorem State.siteFault_touches {ps : List Part} {s0 s : State} {n : Nat}
    (hp : Part.within [.seq, .log, .mem, .cap, .met, .pnt, .chi, .cal, .jrn, .ques, .ebx, .evt, .dram, .out] ps = true)
    (h : Touches ps s0 s) :
    Touches ps s0 (State.siteFault s n) :=
  State.event_touches (Part.sub rfl hp) (State.siteEvent_touches (Part.sub rfl hp) (State.siteTo_touches (Part.sub
    rfl hp) h))

theorem State.siteSettle_touches {ps : List Part} {s0 s : State} {n : Nat}
    (hp : Part.within [.seq, .log, .mem, .cap, .met, .pnt, .chi, .cal, .jrn, .ques, .ebx, .evt, .dram, .out] ps = true)
    (h : Touches ps s0 s) :
    Touches ps s0 (State.siteSettle s n) := by
  unfold State.siteSettle
  extract_lets _ s1
  have h1 : Touches ps s0 s1 := State.setSite_touches (Part.sub rfl hp) h
  clear_value s1
  split
  · refine .ite ?_ ?_
    · exact State.event_touches (Part.sub rfl hp) (State.siteEvent_touches (Part.sub rfl hp)
          (State.siteTo_touches (Part.sub rfl hp) h))
    · exact h
  · refine .ite ?_ ?_
    · refine .ite ?_ ?_
      · exact State.siteFault_touches (Part.sub rfl hp) h1
      · refine .ite ?_ ?_
        · refine .ite ?_ ?_
          · exact State.siteTo_touches (Part.sub rfl hp) h1
          · exact State.siteFault_touches (Part.sub rfl hp) h1
        · exact State.siteTo_touches (Part.sub rfl hp) h1
    · exact h
  · refine .ite ?_ ?_
    · exact State.siteFault_touches (Part.sub rfl hp) (State.setSite_touches (Part.sub rfl hp) h)
    · exact .ite (State.setSite_touches (Part.sub rfl hp) h) h
  · exact h

theorem State.sysResetEnd_touches {ps : List Part} {s0 s : State}
    (hp : Part.within [.seq, .log, .mem, .cap, .met, .pnt, .chi, .cal, .jrn, .ques, .ebx, .evt, .dram, .out] ps = true)
    (h : Touches ps s0 s) :
    Touches ps s0 (State.sysResetEnd s) := by
  unfold State.sysResetEnd
  extract_lets _ s1
  have h1 : Touches ps s0 s1 := .updSeq (Part.sub rfl hp) h
  clear_value s1
  exact .foldl (fun _ _ h => (.ite (State.siteFault_touches (Part.sub rfl hp) (State.setSite_touches (Part.sub
      rfl hp) h)) (State.setSite_touches (Part.sub rfl hp) h))) h1

theorem State.sysSettle_touches {ps : List Part} {s0 s : State}
    (hp : Part.within [.seq, .log, .mem, .cap, .met, .pnt, .chi, .cal, .jrn, .ques, .ebx, .evt, .dram, .out] ps = true)
    (h : Touches ps s0 s) :
    Touches ps s0 (State.sysSettle s) :=
  .ite (.ite (State.emit_touches (Part.sub rfl hp) (.updSeq (Part.sub rfl hp) h)) (State.sysResetEnd_touches
    (Part.sub rfl hp) (State.event_touches (Part.sub rfl hp) h))) h

theorem State.settle_touches {ps : List Part} {s0 s : State} {g : Nat}
    (hp : Part.within [.pwr, .seq, .log, .mem, .cap, .met, .pnt, .chi, .cal, .jrn, .ques, .ebx, .evt, .dram, .out] ps = true)
    (h : Touches ps s0 s) :
    Touches ps s0 (State.settle s g) := by
  unfold State.settle
  extract_lets s1
  have h1 : Touches ps s0 s1 := State.railPasses_touches (Part.sub rfl hp) h
  clear_value s1
  split
  · exact State.sysSettle_touches (Part.sub rfl hp) (State.siteSettle_touches (Part.sub rfl hp) h1)
  · exact h1

theorem State.setRailCnt_touches {ps : List Part} {s0 s : State} {g : Nat} {x : RailCnt}
    (hp : Part.within [.rcnt] ps = true) (h : Touches ps s0 s) :
    Touches ps s0 (State.setRailCnt s g x) :=
  .updRcnt (Part.sub rfl hp) h

theorem State.countRail_touches {ps : List Part} {s0 s : State} {g : Nat} {k : Nat}
    (hp : Part.within [.rcnt, .evt] ps = true) (h : Touches ps s0 s) :
    Touches ps s0 (State.countRail s g k) :=
  State.bump_touches (Part.sub rfl hp) (fun _ _ h => (State.setRailCnt_touches (Part.sub rfl hp) h)) h

theorem State.logFault_touches {ps : List Part} {s0 s : State} {g : Nat} {k : RailFault}
    (hp : Part.within [.rcnt, .log, .snap, .evt] ps = true) (h : Touches ps s0 s) :
    Touches ps s0 (State.logFault s g k) := by
  unfold State.logFault
  extract_lets s1 _ _ _ _ _ _ s2 _ _
  have h1 : Touches ps s0 s1 := State.countRail_touches (Part.sub rfl hp) h
  clear_value s1
  have h2 : Touches ps s0 s2 := .ite (.updSnap (Part.sub rfl hp) h1) h1
  clear_value s2
  exact .ite h2 (State.record_touches (Part.sub rfl hp) h2)

theorem State.unlog_touches {ps : List Part} {s0 s : State} {g : Nat} {k : RailFault}
    (hp : Part.within [.rcnt, .log, .snap] ps = true) (h : Touches ps s0 s) :
    Touches ps s0 (State.unlog s g k) := by
  unfold State.unlog
  extract_lets _ _ s1 _ _ _ s2 _ _ _
  have h1 : Touches ps s0 s1 := State.setRailCnt_touches (Part.sub rfl hp) h
  clear_value s1
  have h2 : Touches ps s0 s2 := .ite (.updSnap (Part.sub rfl hp) h1) h1
  clear_value s2
  exact .updLog (Part.sub rfl hp) h2

theorem State.downfault_touches {ps : List Part} {s0 s : State} {g : Nat} {kind : Nat}
    (hp : Part.within [.pwr, .seq, .rcnt, .log, .snap, .evt, .out] ps = true) (h : Touches ps s0 s) :
    Touches ps s0 (State.downfault s g kind) := by
  unfold State.downfault
  extract_lets _ s1 _ _ s2 s3 s4 _ _ _ _ s5
  have h1 : Touches ps s0 s1 := State.pmbusWrite_touches (Part.sub rfl hp) (State.setRail_touches (Part.sub rfl hp) h)
  clear_value s1
  have h2 : Touches ps s0 s2 := .foldl (fun _ _ h => (.ite (State.moveRail_touches (Part.sub rfl hp) h)
      (State.setRail_touches (Part.sub rfl hp) h))) h1
  clear_value s2
  have h3 : Touches ps s0 s3 := State.countRail_touches (Part.sub rfl hp) h2
  clear_value s3
  have h4 : Touches ps s0 s4 := by
    unfold s4
    exact by split; exact (State.setSite_touches (Part.sub rfl hp) h3); exact h3
  clear_value s4
  have h5 : Touches ps s0 s5 := .ite (.updSnap (Part.sub rfl hp) h4) h4
  clear_value s5
  exact State.record_touches (Part.sub rfl hp) h5

theorem State.memEvent_touches {ps : List Part} {s0 s : State} {source : Nat} {kind : Nat} {addr : Nat}
    {owner : Nat} {cause : Nat} {count : Nat} (hp : Part.within [.log, .evt] ps = true) (h : Touches ps s0 s) :
    Touches ps s0 (State.memEvent s source kind addr owner cause count) :=
  State.record_touches (Part.sub rfl hp) h

theorem State.chOut_touches {ps : List Part} {s0 s : State} {n : Nat} {cause : Nat}
    (hp : Part.within [.log, .mem, .jrn, .evt, .dram] ps = true) (h : Touches ps s0 s) :
    Touches ps s0 (State.chOut s n cause) := by
  unfold State.chOut
  extract_lets _
  refine .ite ?_ ?_
  · exact h
  · exact State.mirrorCheck_touches (Part.sub rfl hp) (State.memEvent_touches (Part.sub rfl hp)
        (State.setCh_touches (Part.sub rfl hp) h))

theorem State.moduleLost_touches {ps : List Part} {s0 s : State} {mask : Nat}
    (hp : Part.within [.pwr, .log, .mem, .cal, .jrn, .gimg, .ques, .ebx, .evt, .dram, .out] ps = true)
    (h : Touches ps s0 s) :
    Touches ps s0 (State.moduleLost s mask) := by
  unfold State.moduleLost
  extract_lets _ _ _ _ _ _ s1 s2
  have h1 : Touches ps s0 s1 := .updPwrEbx (Part.sub rfl hp) h
  clear_value s1
  have h2 : Touches ps s0 s2 := .ite (State.calStop_touches (Part.sub rfl hp) h1) h1
  clear_value s2
  exact .foldl (fun _ _ h => (.ite (State.chOut_touches (Part.sub rfl hp) h) h)) h2

theorem State.moduleShutdown_touches {ps : List Part} {s0 s : State} {mask : Nat}
    (hp : Part.within [.pwr, .seq, .log, .mem, .cal, .jrn, .gimg, .ques, .ebx, .evt, .dram, .out] ps = true)
    (h : Touches ps s0 s) :
    Touches ps s0 (State.moduleShutdown s mask) := by
  unfold State.moduleShutdown
  extract_lets _ _ _ _ _ s1
  have h1 : Touches ps s0 s1 := .updSeq (Part.sub rfl hp) h
  clear_value s1
  exact State.moduleLost_touches (Part.sub rfl hp) (State.orderDown_touches (Part.sub rfl hp) h1)

theorem State.surveyFault_touches {ps : List Part} {s0 s : State} {g : Nat}
    (hp : Part.within [.pwr, .seq] ps = true) (h : Touches ps s0 s) :
    Touches ps s0 (State.surveyFault s g) :=
  State.setRail_touches (Part.sub rfl hp) h

theorem State.calDown_touches {ps : List Part} {s0 s : State}
    (hp : Part.within [.pwr, .seq, .log, .mem, .cap, .met, .pnt, .chi, .cal, .jrn, .gimg, .ques, .ebx, .evt, .dram, .out] ps = true)
    (h : Touches ps s0 s) :
    Touches ps s0 (State.calDown s) := by
  unfold State.calDown
  extract_lets _ s1
  have h1 : Touches ps s0 s1 := .updPwr (Part.sub rfl hp) h
  clear_value s1
  exact State.settle_touches (Part.sub rfl hp) (State.orderDown_touches (Part.sub rfl hp)
      (State.calStop_touches (Part.sub rfl hp) h1))

theorem State.calFence_touches {ps : List Part} {s0 s : State}
    (hp : Part.within [.pwr, .seq, .log, .mem, .cap, .met, .pnt, .chi, .cal, .jrn, .gimg, .ques, .ebx, .evt, .dram, .out] ps = true)
    (h : Touches ps s0 s) :
    Touches ps s0 (State.calFence s) :=
  State.calDown_touches (Part.sub rfl hp) (.updPwr (Part.sub rfl hp) h)

theorem State.siteShutdown_touches {ps : List Part} {s0 s : State} {n : Nat} {mask : Nat}
    (hp : Part.within [.pwr, .seq, .log, .mem, .cap, .met, .pnt, .chi, .cal, .jrn, .ques, .ebx, .evt, .dram, .out] ps = true)
    (h : Touches ps s0 s) :
    Touches ps s0 (State.siteShutdown s n mask) := by
  unfold State.siteShutdown
  extract_lets _ s1
  have h1 : Touches ps s0 s1 := State.setSite_touches (Part.sub rfl hp) h
  clear_value s1
  split
  · exact State.siteDownSeq_touches (Part.sub rfl hp) h1
  · exact State.siteTo_touches (Part.sub rfl hp) (State.orderDown_touches (Part.sub rfl hp) h1)
  · exact State.orderDown_touches (Part.sub rfl hp) h1

theorem State.sysResetBegin_touches {ps : List Part} {s0 s : State}
    (hp : Part.within [.pwr, .seq, .log, .mem, .cap, .met, .pnt, .chi, .cal, .jrn, .ques, .ebx, .evt, .dram, .out] ps = true)
    (h : Touches ps s0 s) :
    Touches ps s0 (State.sysResetBegin s) := by
  unfold State.sysResetBegin
  extract_lets _ _ s1 s2
  have h1 : Touches ps s0 s1 := .updSeq (Part.sub rfl hp) h
  clear_value s1
  have h2 : Touches ps s0 s2 := by
    unfold s2
    refine .foldl (fun _ _ k2hf => ?_) h1
    extract_lets k2fs1 _
    have k2fh1 : Touches ps s0 k2fs1 := State.siteDownSeq_touches (Part.sub rfl hp) k2hf
    clear_value k2fs1
    split
    · exact State.settle_touches (Part.sub rfl hp) (State.setSite_touches (Part.sub rfl hp) k2fh1)
    · exact State.settle_touches (Part.sub rfl hp) (State.setSite_touches (Part.sub rfl hp) k2fh1)
    · exact State.settle_touches (Part.sub rfl hp) (State.setSite_touches (Part.sub rfl hp) k2fh1)
    · exact k2hf
  clear_value s2
  exact .ite h (State.sysSettle_touches (Part.sub rfl hp) h2)

theorem State.groupShutdown_touches {ps : List Part} {s0 s : State} {g : Nat}
    (hp : Part.within [.pwr, .seq, .log, .mem, .cap, .met, .pnt, .chi, .cal, .jrn, .gimg, .ques, .ebx, .evt, .dram, .out] ps = true)
    (h : Touches ps s0 s) :
    Touches ps s0 (State.groupShutdown s g) := by
  unfold State.groupShutdown
  split
  · exact (State.siteShutdown_touches (Part.sub rfl hp) h)
  · exact (State.moduleShutdown_touches (Part.sub rfl hp) h)

theorem State.retry_touches {ps : List Part} {s0 s : State} {g : Nat}
    (hp : Part.within [.pwr, .seq, .rcnt, .log, .snap, .mem, .cap, .met, .pnt, .chi, .cal, .jrn, .gimg, .ques, .ebx, .evt, .dram, .out] ps = true)
    (h : Touches ps s0 s) :
    Touches ps s0 (State.retry s g) := by
  unfold State.retry
  extract_lets _ _ s1 _ s2
  have h1 : Touches ps s0 s1 := State.moveRail_touches (Part.sub rfl hp) h
  clear_value s1
  have h2 : Touches ps s0 s2 := .foldl (fun _ _ h => (.ite h (State.setRail_touches (Part.sub rfl hp) h))) h1
  clear_value s2
  refine .ite ?_ ?_
  · exact State.groupShutdown_touches (Part.sub rfl hp) (.ite (State.moveRail_touches (Part.sub rfl hp) h) h)
  · exact State.logFault_touches (Part.sub rfl hp) h2

theorem State.unretry_touches {ps : List Part} {s0 s : State} {g : Nat}
    (hp : Part.within [.pwr, .seq, .rcnt, .log, .snap, .out] ps = true) (h : Touches ps s0 s) :
    Touches ps s0 (State.unretry s g) := by
  unfold State.unretry
  extract_lets s1 _ s2
  have h1 : Touches ps s0 s1 := State.unlog_touches (Part.sub rfl hp) h
  clear_value s1
  have h2 : Touches ps s0 s2 := State.pmbusWrite_touches (Part.sub rfl hp) (State.setRail_touches (Part.sub rfl
      hp) h1)
  clear_value s2
  exact .foldl (fun _ _ h => (.ite (State.setRail_touches (Part.sub rfl hp) h) h)) h2

theorem State.groupWidest_touches {ps : List Part} {s0 s : State} {g : Nat}
    (hp : Part.within [.pwr, .seq, .rcnt, .log, .snap, .mem, .cap, .met, .pnt, .chi, .cal, .jrn, .gimg, .ques, .ebx, .evt, .dram, .out] ps = true)
    (h : Touches ps s0 s) :
    Touches ps s0 (State.groupWidest s g) :=
  State.groupShutdown_touches (Part.sub rfl hp) (.foldl (fun _ _ h => (State.groupShutdown_touches (Part.sub rfl
    hp) (State.unretry_touches (Part.sub rfl hp) h))) h)

theorem State.retryReact_touches {ps : List Part} {s0 s : State} {g : Nat}
    (hp : Part.within [.pwr, .seq, .rcnt, .log, .snap, .mem, .cap, .met, .pnt, .chi, .cal, .jrn, .gimg, .ques, .ebx, .evt, .dram, .out] ps = true)
    (h : Touches ps s0 s) :
    Touches ps s0 (State.retryReact s g) := by
  unfold State.retryReact
  extract_lets _
  refine .ite ?_ ?_
  · exact State.groupWidest_touches (Part.sub rfl hp) h
  · exact State.retry_touches (Part.sub rfl hp) h

theorem State.unretryAll_touches {ps : List Part} {s0 s : State} {g : Nat}
    (hp : Part.within [.pwr, .seq, .rcnt, .log, .snap, .out] ps = true) (h : Touches ps s0 s) :
    Touches ps s0 (State.unretryAll s g) :=
  .foldl (fun _ _ h => (State.unretry_touches (Part.sub rfl hp) h)) h

theorem State.goodFault_touches {ps : List Part} {s0 s : State} {g : Nat} {k : RailFault}
    (hp : Part.within [.pwr, .seq, .rcnt, .log, .snap, .mem, .cap, .met, .pnt, .chi, .cal, .jrn, .gimg, .ques, .ebx, .evt, .dram, .out] ps = true)
    (h : Touches ps s0 s) :
    Touches ps s0 (State.goodFault s g k) := by
  unfold State.goodFault
  extract_lets s1 s2
  have h1 : Touches ps s0 s1 := State.logFault_touches (Part.sub rfl hp) h
  clear_value s1
  have h2 : Touches ps s0 s2 := .ite (State.event_touches (Part.sub rfl hp) h1) h1
  clear_value s2
  refine .ite ?_ ?_
  · exact h2
  · split
    · exact State.settle_touches (Part.sub rfl hp) (State.retryReact_touches (Part.sub rfl hp) h2)
    · exact State.settle_touches (Part.sub rfl hp) (State.groupWidest_touches (Part.sub rfl hp) h2)
    · exact State.sysResetBegin_touches (Part.sub rfl hp) (State.unretryAll_touches (Part.sub rfl hp) h2)
    · exact h2

theorem State.cycleFault_touches {ps : List Part} {s0 s : State} {g : Nat} {k : RailFault}
    (hp : Part.within [.pwr, .seq, .rcnt, .log, .snap, .mem, .cap, .met, .pnt, .chi, .cal, .jrn, .gimg, .ques, .ebx, .evt, .dram, .out] ps = true)
    (h : Touches ps s0 s) :
    Touches ps s0 (State.cycleFault s g k) := by
  unfold State.cycleFault
  extract_lets s1 _
  have h1 : Touches ps s0 s1 := State.logFault_touches (Part.sub rfl hp) h
  clear_value s1
  refine .ite ?_ ?_
  · exact State.goodFault_touches (Part.sub rfl hp) h
  · split
    · refine .ite ?_ ?_
      · exact State.settle_touches (Part.sub rfl hp) (State.groupWidest_touches (Part.sub rfl hp) h1)
      · exact h1
    · refine .ite ?_ ?_
      · exact State.settle_touches (Part.sub rfl hp) (State.groupWidest_touches (Part.sub rfl hp) h1)
      · exact h1
    · exact State.sysResetBegin_touches (Part.sub rfl hp) (State.unretryAll_touches (Part.sub rfl hp) h1)
    · exact h1

theorem State.pgReplaced_touches {ps : List Part} {s0 s : State} {g : Nat} {k : RailFault} {named : Bool}
    (hp : Part.within [.pwr, .seq, .rcnt, .log, .snap, .evt] ps = true) (h : Touches ps s0 s) :
    Touches ps s0 (State.pgReplaced s g k named) := by
  unfold State.pgReplaced
  extract_lets _ s1 _ _ _ s2
  have h1 : Touches ps s0 s1 := State.setRail_touches (Part.sub rfl hp) (State.unlog_touches (Part.sub rfl hp) h)
  clear_value s1
  have h2 : Touches ps s0 s2 := .ite (.updSnap (Part.sub rfl hp) h1) h1
  clear_value s2
  exact State.logFault_touches (Part.sub rfl hp) h2

theorem State.stepFail_touches {ps : List Part} {s0 s : State} {g : Nat} {k : RailFault}
    (hp : Part.within [.pwr, .seq, .rcnt, .log, .snap, .mem, .cap, .met, .pnt, .chi, .cal, .jrn, .gimg, .ques, .ebx, .evt, .dram, .out] ps = true)
    (h : Touches ps s0 s) :
    Touches ps s0 (State.stepFail s g k) := by
  unfold State.stepFail
  extract_lets _ s1 s2 s3
  have h1 : Touches ps s0 s1 := State.logFault_touches (Part.sub rfl hp) h
  clear_value s1
  have h2 : Touches ps s0 s2 := State.moveRail_touches (Part.sub rfl hp) h1
  clear_value s2
  have h3 : Touches ps s0 s3 := by
    unfold s3
    split
    · exact .ite (State.siteDownSeq_touches (Part.sub rfl hp) h2) h2
    · exact h2
  clear_value s3
  refine .ite ?_ ?_
  · refine .ite ?_ ?_
    · exact h
    · exact State.logFault_touches (Part.sub rfl hp) (State.setRail_touches (Part.sub rfl hp) h)
  · refine .ite ?_ ?_
    · exact State.settle_touches (Part.sub rfl hp) (State.retry_touches (Part.sub rfl hp) h1)
    · exact State.settle_touches (Part.sub rfl hp) h3

end Sys2Proof.Machine
end

