-- ==== Sys2Proof/Laws/Frames/Survey.lean ====
section
/-!
SUPPORT. Laws/Frames/Survey.lean: what each operation of Machine/Survey.lean changes: one lemma for each, by the rules of
Laws/Touches.
-/
set_option Elab.async false
namespace Sys2Proof.Machine

theorem State.calSet_touches {ps : List Part} {s0 s : State} {t : Option Bytes} {ch : Nat}
    (hp : Part.within [.svy] ps = true) (h : Touches ps s0 s) :
    Touches ps s0 (State.calSet s t ch) := by
  unfold State.calSet
  extract_lets _ _ _ _ _
  exact State.setChan_touches (Part.sub rfl hp) h

theorem State.calTable_touches {ps : List Part} {s0 s : State} (hp : Part.within [.svy, .evt] ps = true)
    (h : Touches ps s0 s) :
    Touches ps s0 (State.calTable s) := by
  unfold State.calTable
  extract_lets _ s1
  have h1 : Touches ps s0 s1 := .updSvy (Part.sub rfl hp) h
  clear_value s1
  exact .ite (State.event_touches (Part.sub rfl hp) h1) h1

theorem State.calSetAll_touches {ps : List Part} {s0 s : State} (hp : Part.within [.svy, .evt] ps = true)
    (h : Touches ps s0 s) :
    Touches ps s0 (State.calSetAll s) := by
  unfold State.calSetAll
  extract_lets _ s1
  have h1 : Touches ps s0 s1 := State.calTable_touches (Part.sub rfl hp) h
  clear_value s1
  exact .foldl (fun _ _ h => (.ite h (State.calSet_touches (Part.sub rfl hp) h))) h1

theorem State.calSetSite_touches {ps : List Part} {s0 s : State} {n : Nat} (hp : Part.within [.svy] ps = true)
    (h : Touches ps s0 s) :
    Touches ps s0 (State.calSetSite s n) := by
  unfold State.calSetSite
  extract_lets _
  exact .foldl (fun _ _ h => (.ite (State.calSet_touches (Part.sub rfl hp) h) h)) h

theorem State.warnRec_touches {ps : List Part} {s0 s : State} {ch : Nat} {kind : Nat} {value : Int} {limit : Int}
    {owner : Nat} (hp : Part.within [.log, .evt] ps = true) (h : Touches ps s0 s) :
    Touches ps s0 (State.warnRec s ch kind value limit owner) :=
  State.record_touches (Part.sub rfl hp) h

theorem State.enterWarn_touches {ps : List Part} {s0 s : State} {ch : Nat} {kind : Nat}
    (hp : Part.within [.svy, .log, .evt] ps = true) (h : Touches ps s0 s) :
    Touches ps s0 (State.enterWarn s ch kind) := by
  unfold State.enterWarn
  extract_lets _ _ s1 _
  have h1 : Touches ps s0 s1 := State.event_touches (Part.sub rfl hp) (State.setChan_touches (Part.sub rfl hp) h)
  clear_value s1
  refine .ite ?_ ?_
  · exact State.warnRec_touches (Part.sub rfl hp) (State.setChan_touches (Part.sub rfl hp) h1)
  · exact h1

theorem State.goStale_touches {ps : List Part} {s0 s : State} {ch : Nat}
    (hp : Part.within [.svy, .log, .evt] ps = true) (h : Touches ps s0 s) :
    Touches ps s0 (State.goStale s ch) := by
  unfold State.goStale
  extract_lets _ s1 _
  have h1 : Touches ps s0 s1 := State.setChan_touches (Part.sub rfl hp) h
  clear_value s1
  exact .ite h (.ite (State.warnRec_touches (Part.sub rfl hp) h1) h1)

theorem State.dieStale_touches {ps : List Part} {s0 s : State} {d : Nat}
    (hp : Part.within [.svy, .log, .evt] ps = true) (h : Touches ps s0 s) :
    Touches ps s0 (State.dieStale s d) :=
  .foldl (fun _ _ h => (State.goStale_touches (Part.sub rfl hp) h)) h

theorem State.refFail_touches {ps : List Part} {s0 s : State} {d : Nat} {slot : Nat} {code : Int}
    (hp : Part.within [.svy, .log, .evt] ps = true) (h : Touches ps s0 s) :
    Touches ps s0 (State.refFail s d slot code) := by
  unfold State.refFail
  extract_lets s1
  have h1 : Touches ps s0 s1 := State.bump_touches (Part.sub rfl hp) (fun _ _ h => (.updSvy (Part.sub rfl
      hp) h)) h
  clear_value s1
  exact State.dieStale_touches (Part.sub rfl hp) (State.warnRec_touches (Part.sub rfl hp) h1)

theorem State.refSample_touches {ps : List Part} {s0 s : State} {d : Nat} {slot : Nat} {code : Int}
    (hp : Part.within [.svy, .log, .evt] ps = true) (h : Touches ps s0 s) :
    Touches ps s0 (State.refSample s d slot code) := by
  unfold State.refSample
  extract_lets _ _ _
  refine .ite ?_ ?_
  · exact .updSvy (Part.sub rfl hp) h
  · refine .ite ?_ ?_
    · exact .updSvy (Part.sub rfl hp) h
    · exact .ite (State.refFail_touches (Part.sub rfl hp) (.updSvy (Part.sub rfl hp) h)) h

theorem State.backpower_touches {ps : List Part} {s0 s : State} {g : Nat} {ch : Nat} {v : Int}
    (hp : Part.within [.pwr, .seq, .log, .evt] ps = true) (h : Touches ps s0 s) :
    Touches ps s0 (State.backpower s g ch v) := by
  unfold State.backpower
  extract_lets _ _ _ s1 s2 _
  have h1 : Touches ps s0 s1 := State.setRail_touches (Part.sub rfl hp) h
  clear_value s1
  have h2 : Touches ps s0 s2 := State.event_touches (Part.sub rfl hp) h1
  clear_value s2
  refine .ite ?_ ?_
  · refine .ite ?_ ?_
    · refine .ite ?_ ?_
      · exact State.warnRec_touches (Part.sub rfl hp) (State.setRail_touches (Part.sub rfl hp) h2)
      · exact h2
    · exact h1
  · exact State.setRail_touches (Part.sub rfl hp) h

theorem State.surveyKind_touches {ps : List Part} {s0 s : State} {g : Nat} {k : RailFault}
    (hp : Part.within [.pwr, .seq, .rcnt, .log, .snap, .mem, .cap, .met, .pnt, .chi, .cal, .jrn, .gimg, .ques, .ebx, .evt, .dram, .out] ps = true)
    (h : Touches ps s0 s) :
    Touches ps s0 (State.surveyKind s g k) := by
  unfold State.surveyKind
  extract_lets _
  split
  · exact State.pgReplaced_touches (Part.sub rfl hp) (State.surveyFault_touches (Part.sub rfl hp) h)
  · exact State.cycleFault_touches (Part.sub rfl hp) (State.surveyFault_touches (Part.sub rfl hp) h)

theorem State.voltageOut_touches {ps : List Part} {s0 s : State} {g : Nat} {side : Nat}
    (hp : Part.within [.pwr, .seq, .rcnt, .log, .snap, .mem, .cap, .met, .pnt, .chi, .cal, .jrn, .gimg, .ques, .ebx, .evt, .dram, .out] ps = true)
    (h : Touches ps s0 s) :
    Touches ps s0 (State.voltageOut s g side) := by
  unfold State.voltageOut
  refine .ite ?_ ?_
  · exact State.surveyKind_touches (Part.sub rfl hp) h
  · split
    · refine .ite ?_ ?_
      · exact State.settle_touches (Part.sub rfl hp) (State.downfault_touches (Part.sub rfl hp) h)
      · exact h
    · refine .ite ?_ ?_
      · exact State.settle_touches (Part.sub rfl hp) (State.groupShutdown_touches (Part.sub rfl hp)
            (State.downfault_touches (Part.sub rfl hp) h))
      · exact h
    · exact h

theorem State.currentOut_touches {ps : List Part} {s0 s : State} {g : Nat} {side : Nat}
    (hp : Part.within [.pwr, .seq, .rcnt, .log, .snap, .mem, .cap, .met, .pnt, .chi, .cal, .jrn, .gimg, .ques, .ebx, .evt, .dram, .out] ps = true)
    (h : Touches ps s0 s) :
    Touches ps s0 (State.currentOut s g side) := by
  unfold State.currentOut
  refine .ite ?_ ?_
  · exact h
  · refine .ite ?_ ?_
    · exact State.surveyKind_touches (Part.sub rfl hp) h
    · split
      · exact State.settle_touches (Part.sub rfl hp) (State.downfault_touches (Part.sub rfl hp) h)
      · exact State.settle_touches (Part.sub rfl hp) (State.groupShutdown_touches (Part.sub rfl hp)
            (State.downfault_touches (Part.sub rfl hp) h))
      · exact h

theorem State.product_touches {ps : List Part} {s0 s : State} {g : Nat} {adds : Bool}
    (hp : Part.within [.cap] ps = true) (h : Touches ps s0 s) :
    Touches ps s0 (State.product s g adds) := by
  unfold State.product
  extract_lets _
  refine .ite ?_ ?_
  · split
    · extract_lets _ _ _
      exact State.setCapS_touches (Part.sub rfl hp) h
    · exact h
  · exact h

theorem State.sample_touches {ps : List Part} {s0 s : State} {ch : Nat} {code : Int} {held : Bool}
    (hp : Part.within [.pwr, .seq, .svy, .rcnt, .log, .snap, .mem, .cap, .met, .pnt, .chi, .cal, .jrn, .gimg, .ques, .ebx, .evt, .dram, .out] ps = true)
    (h : Touches ps s0 s) :
    Touches ps s0 (State.sample s ch code held) := by
  unfold State.sample
  extract_lets _ _ _ s1 _ _ s2 _ _ s3 s4 _ s5 s6 s7
  have h1 : Touches ps s0 s1 := .ite (State.calSet_touches (Part.sub rfl hp) h) h
  clear_value s1
  have h2 : Touches ps s0 s2 := State.setChan_touches (Part.sub rfl hp) h1
  clear_value s2
  have h3 : Touches ps s0 s3 := State.setChan_touches (Part.sub rfl hp) h2
  clear_value s3
  have h4 : Touches ps s0 s4 := .ite (State.enterWarn_touches (Part.sub rfl hp) h3) h3
  clear_value s4
  have h5 : Touches ps s0 s5 := State.setRail_touches (Part.sub rfl hp) h4
  clear_value s5
  have h6 : Touches ps s0 s6 := State.product_touches (Part.sub rfl hp) (State.backpower_touches (Part.sub rfl hp) h5)
  clear_value s6
  have h7 : Touches ps s0 s7 := .ite (State.stepFail_touches (Part.sub rfl hp) h6) (.ite
      (State.voltageOut_touches (Part.sub rfl hp) h6) h6)
  clear_value s7
  refine .ite ?_ ?_
  · exact h
  · refine .ite ?_ ?_
    · exact h2
    · refine .ite ?_ ?_
      · exact h4
      · refine .ite ?_ ?_
        · exact State.settle_touches (Part.sub rfl hp) h7
        · refine .ite ?_ ?_
          · refine .ite ?_ ?_
            · exact State.currentOut_touches (Part.sub rfl hp) (State.product_touches (Part.sub rfl hp) h4)
            · exact State.product_touches (Part.sub rfl hp) h4
          · exact h4

theorem execSurveySlowScanTimer_touches {ps : List Part} {s0 : State} {die : Nat} {s : State}
    (hp : Part.within [.pwr] ps = true) (h : Touches ps s0 s) :
    OTouches ps s0 (execSurveySlowScanTimer die s) :=
  State.standbyDo_touches (Part.sub rfl hp) (fun _ h => (.updPwr (Part.sub rfl hp) h)) h

theorem execSurveyStaleTimeout_touches {ps : List Part} {s0 : State} {ch : Nat} {s : State}
    (hp : Part.within [.svy, .log, .evt] ps = true) (h : Touches ps s0 s) :
    OTouches ps s0 (execSurveyStaleTimeout ch s) :=
  State.standbyDo_touches (Part.sub rfl hp) (fun _ h => (State.goStale_touches (Part.sub rfl hp) h)) h

theorem execSurveyBusTimeout_touches {ps : List Part} {s0 : State} {die : Nat} {s : State}
    (hp : Part.within [.svy, .log, .evt] ps = true) (h : Touches ps s0 s) :
    OTouches ps s0 (execSurveyBusTimeout die s) :=
  State.standbyDo_touches (Part.sub rfl hp) (fun _ h => (State.dieStale_touches (Part.sub rfl hp) h)) h

theorem execRailCntClr_touches {ps : List Part} {s0 : State} {r : Req} {rail : Nat} {mask : Nat} {s : State}
    (hp : Part.within [.rcnt, .log, .evt, .mgt] ps = true) (h : Touches ps s0 s) :
    OTouches ps s0 (execRailCntClr r rail mask s) :=
  State.standbyDo_touches (Part.sub rfl hp) (fun _ h => (.ite (.ite (State.setRailCnt_touches (Part.sub rfl hp) h)
    h) (State.event_touches (Part.sub rfl hp) (State.refuseWrite_touches (Part.sub rfl hp) h)))) h

end Sys2Proof.Machine
end

