-- ==== Sys2Proof/Laws/Frames/Msg.lean ====
section
/-!
SUPPORT. Laws/Frames/Msg.lean: what each operation of Machine/Msg.lean changes: one lemma for each, by the rules of
Laws/Touches.
-/
set_option Elab.async false
namespace Sys2Proof.Machine

theorem State.credit_touches {ps : List Part} {s0 s : State} {port : Nat} {chan : Nat} {units : Nat}
    (hp : Part.within [.ebx] ps = true) (h : Touches ps s0 s) :
    Touches ps s0 (State.credit s port chan units) := by
  unfold State.credit
  extract_lets _ _
  exact .updEbx (Part.sub rfl hp) h

theorem State.badMsg_touches {ps : List Part} {s0 s : State} {ep : Nat} (hp : Part.within [.ebx, .evt] ps = true)
    (h : Touches ps s0 s) :
    Touches ps s0 (State.badMsg s ep) := by
  unfold State.badMsg
  extract_lets _
  exact State.bump_touches (Part.sub rfl hp) (fun _ _ h => (.updEbx (Part.sub rfl hp) h)) h

theorem State.shadowRec_touches {ps : List Part} {s0 s : State} {typ : Nat} {rec : Bytes}
    (hp : Part.within [.out] ps = true) (h : Touches ps s0 s) :
    Touches ps s0 (State.shadowRec s typ rec) :=
  .ite (State.emit_touches (Part.sub rfl hp) h) h

theorem State.siteMsg_touches {ps : List Part} {s0 s : State} {src : Option (Nat × Nat)} {rec : Bytes} {typ : Nat}
    {len : Nat} {f : Nat → State → State} (hp : Part.within [.ebx, .evt, .out] ps = true) (hf : ∀ (z1 : Nat)
    (s' : State) (_ : Touches ps s0 s'), Touches ps s0 (f z1 s')) (h : Touches ps s0 s) :
    Touches ps s0 (State.siteMsg s src rec typ len f) := by
  unfold State.siteMsg
  extract_lets _
  split
  · exact .ite (hf _ _ (State.shadowRec_touches (Part.sub rfl hp) h)) h
  · extract_lets m1s1
    have m1h1 : Touches ps s0 m1s1 := State.credit_touches (Part.sub rfl hp) h
    clear_value m1s1
    refine .ite ?_ ?_
    · refine .ite ?_ ?_
      · exact hf _ _ (State.shadowRec_touches (Part.sub rfl hp) m1h1)
      · exact State.badMsg_touches (Part.sub rfl hp) m1h1
    · exact h

theorem State.useTelemetry_touches {ps : List Part} {s0 s : State} {n : Nat} {rec : Bytes}
    (hp : Part.within [.log, .cap, .chi, .evt] ps = true) (h : Touches ps s0 s) :
    Touches ps s0 (State.useTelemetry s n rec) := by
  unfold State.useTelemetry
  extract_lets _ _ s1 _ s2
  have h1 : Touches ps s0 s1 := State.setCapS_touches (Part.sub rfl hp) h
  clear_value s1
  have h2 : Touches ps s0 s2 := .updChi (Part.sub rfl hp) h1
  clear_value s2
  exact .ite (.ite (State.capEvent_touches (Part.sub rfl hp) h2) h2) h

theorem execTelemetryRecord_touches {ps : List Part} {s0 : State} {port : Nat} {src : Nat} {rec : Bytes} {s : State}
    (hp : Part.within [.log, .cap, .chi, .ebx, .evt, .out] ps = true) (h : Touches ps s0 s) :
    OTouches ps s0 (execTelemetryRecord port src rec s) :=
  State.standbyDo_touches (Part.sub rfl hp) (fun _ h => (State.siteMsg_touches (Part.sub rfl hp) (fun _ _ h =>
    (State.useTelemetry_touches (Part.sub rfl hp) h)) h)) h

theorem execWardenTelemetryPoll_touches {ps : List Part} {s0 : State} {site : Nat} {rec : Option Bytes} {s : State}
    (hp : Part.within [.log, .cap, .chi, .ebx, .evt, .out] ps = true) (h : Touches ps s0 s) :
    OTouches ps s0 (execWardenTelemetryPoll site rec s) := by
  unfold execWardenTelemetryPoll
  refine State.standbyDo_touches (Part.sub rfl hp) (fun _ hg => ?_) h
  split
  · refine .ite ?_ ?_
    · exact State.siteMsg_touches (Part.sub rfl hp) (fun _ _ h => (State.useTelemetry_touches (Part.sub rfl hp) h)) hg
    · exact hg
  · exact hg

theorem execTelemetryStaleTimeout_touches {ps : List Part} {s0 : State} {site : Nat} {s : State}
    (hp : Part.within [.log, .cap, .evt] ps = true) (h : Touches ps s0 s) :
    OTouches ps s0 (execTelemetryStaleTimeout site s) :=
  State.standbyDo_touches (Part.sub rfl hp) (fun _ h => (.ite (State.capEvent_touches (Part.sub rfl hp)
    (State.setCapS_touches (Part.sub rfl hp) h)) h)) h

end Sys2Proof.Machine
end

