-- ==== Sys2Proof/Laws/Frames/Meter.lean ====
section
/-!
SUPPORT. Laws/Frames/Meter.lean: what each operation of Machine/Meter.lean changes: one lemma for each, by the rules of
Laws/Touches.
-/
set_option Elab.async false
namespace Sys2Proof.Machine

theorem State.addSite_touches {ps : List Part} {s0 s : State} {n : Nat} {nj : Nat}
    (hp : Part.within [.met, .evt] ps = true) (h : Touches ps s0 s) :
    Touches ps s0 (State.addSite s n nj) := by
  unfold State.addSite
  extract_lets _ _ s1
  have h1 : Touches ps s0 s1 := .updMet (Part.sub rfl hp) h
  clear_value s1
  exact .ite (State.event_touches (Part.sub rfl hp) h1) h1

theorem State.addTray_touches {ps : List Part} {s0 s : State} {nj : Nat} (hp : Part.within [.met, .evt] ps = true)
    (h : Touches ps s0 s) :
    Touches ps s0 (State.addTray s nj) := by
  unfold State.addTray
  extract_lets _ _ s1
  have h1 : Touches ps s0 s1 := .updMet (Part.sub rfl hp) h
  clear_value s1
  exact .ite (State.event_touches (Part.sub rfl hp) h1) h1

theorem State.markNow_touches {ps : List Part} {s0 s : State} {n : Nat} {begins : Bool} {id : Nat} {t : Nat}
    (hp : Part.within [.cap, .met, .pnt, .chi, .cal, .jrn, .evt] ps = true) (h : Touches ps s0 s) :
    Touches ps s0 (State.markNow s n begins id t) := by
  unfold State.markNow
  extract_lets s1
  have h1 : Touches ps s0 s1 := State.applyMark_touches (Part.sub rfl hp) h
  clear_value s1
  exact .ite h1 (State.armsEnded_touches (Part.sub rfl hp) h1)

theorem State.siteInterval_touches {ps : List Part} {s0 s : State} {start : Nat} {len : Nat} {n : Nat}
    (hp : Part.within [.cap, .met, .pnt, .chi, .cal, .jrn, .evt] ps = true) (h : Touches ps s0 s) :
    Touches ps s0 (State.siteInterval s start len n) := by
  unfold State.siteInterval
  extract_lets _ _ _ s1 s2 _ s3 s4 _ _ s5 _ _ s6 s7 _ _
  have h1 : Touches ps s0 s1 := State.setCapS_touches (Part.sub rfl hp) h
  clear_value s1
  have h2 : Touches ps s0 s2 := .ite (State.bumpSite_touches (Part.sub rfl hp) h1) h1
  clear_value s2
  have h3 : Touches ps s0 s3 := State.addTo_touches (Part.sub rfl hp) (State.addSite_touches (Part.sub rfl hp) h2)
  clear_value s3
  have h4 : Touches ps s0 s4 := .ite (State.markEstimated_touches (Part.sub rfl hp) h3) h3
  clear_value s4
  have h5 : Touches ps s0 s5 := .updMet (Part.sub rfl hp) h4
  clear_value s5
  have h6 : Touches ps s0 s6 := .updMet (Part.sub rfl hp) h5
  clear_value s6
  have h7 : Touches ps s0 s7 := .foldl (fun _ _ h => (State.markNow_touches (Part.sub rfl hp) h)) h6
  clear_value s7
  exact State.setPeaks_touches (Part.sub rfl hp) h7

theorem State.busSeen_touches {ps : List Part} {s0 s : State} {v : Nat} {i : Int}
    (hp : Part.within [.snap, .rel, .met] ps = true) (h : Touches ps s0 s) :
    Touches ps s0 (State.busSeen s v i) := by
  unfold State.busSeen
  extract_lets _ _ s1 _
  have h1 : Touches ps s0 s1 := .updSnapMet (Part.sub rfl hp) h
  exact .ite h1 (.updRel (Part.sub rfl hp) h1)

theorem State.trayInterval_touches {ps : List Part} {s0 s : State} {len : Nat} {bus : List (Nat × Int)}
    (hp : Part.within [.snap, .rel, .met, .evt] ps = true) (h : Touches ps s0 s) :
    Touches ps s0 (State.trayInterval s len bus) := by
  unfold State.trayInterval
  extract_lets _ _ _ _ s1 s2 _ _ s3 _
  have h1 : Touches ps s0 s1 := .foldl (fun _ _ h => (State.busSeen_touches (Part.sub rfl hp) h)) h
  have h2 : Touches ps s0 s2 := State.addTray_touches (Part.sub rfl hp) h1
  have h3 : Touches ps s0 s3 := State.setPeaks_touches (Part.sub rfl hp) h2
  exact .updMet (Part.sub rfl hp) h3

theorem State.meterEnd_touches {ps : List Part} {s0 s : State} {start : Nat} {len : Nat} {bus : List (Nat × Int)}
    (hp : Part.within [.snap, .cap, .rel, .met, .pnt, .chi, .cal, .jrn, .evt] ps = true) (h : Touches ps s0 s) :
    Touches ps s0 (State.meterEnd s start len bus) :=
  State.trayInterval_touches (Part.sub rfl hp) (.foldl (fun _ _ h => (State.siteInterval_touches (Part.sub rfl hp)
    h)) h)

theorem execMeteringIntervalEnd_touches {ps : List Part} {s0 : State} {bus : List (Nat × Int)} {s : State}
    (hp : Part.within [.snap, .cap, .rel, .met, .pnt, .chi, .cal, .jrn, .evt] ps = true) (h : Touches ps s0 s) :
    OTouches ps s0 (execMeteringIntervalEnd bus s) := by
  unfold execMeteringIntervalEnd
  refine State.standbyDo_touches (Part.sub rfl hp) (fun _ hg => ?_) h
  extract_lets _ _ gs1 _
  have gh1 : Touches ps s0 gs1 := State.meterEnd_touches (Part.sub rfl hp) hg
  clear_value gs1
  exact .updMet (Part.sub rfl hp) gh1

theorem State.meterCut_touches {ps : List Part} {s0 s : State} {count : Nat}
    (hp : Part.within [.snap, .cap, .rel, .met, .pnt, .chi, .cal, .jrn, .evt] ps = true) (h : Touches ps s0 s) :
    Touches ps s0 (State.meterCut s count) := by
  unfold State.meterCut
  extract_lets _ _ s1 _
  have h1 : Touches ps s0 s1 := .ite h (State.meterEnd_touches (Part.sub rfl hp) h)
  clear_value s1
  exact .updMet (Part.sub rfl hp) h1

theorem State.peakWindow_touches {ps : List Part} {s0 s : State} {n : Nat} (hp : Part.within [.met] ps = true)
    (h : Touches ps s0 s) :
    Touches ps s0 (State.peakWindow s n) := by
  unfold State.peakWindow
  extract_lets _ _ _
  exact .ite h (State.setPeaks_touches (Part.sub rfl hp) h)

theorem execPowerWindow1msEnd_touches {ps : List Part} {s0 s : State} (hp : Part.within [.met] ps = true)
    (h : Touches ps s0 s) :
    OTouches ps s0 (execPowerWindow1msEnd s) := by
  unfold execPowerWindow1msEnd
  refine State.standbyDo_touches (Part.sub rfl hp) (fun _ hg => ?_) h
  extract_lets gs1 _
  have gh1 : Touches ps s0 gs1 := .foldl (fun _ _ h => (State.peakWindow_touches (Part.sub rfl hp) h)) hg
  clear_value gs1
  exact .ite gh1 (.updMet (Part.sub rfl hp) gh1)

theorem State.secWindow_touches {ps : List Part} {s0 s : State} {n : Nat} (hp : Part.within [.met] ps = true)
    (h : Touches ps s0 s) :
    Touches ps s0 (State.secWindow s n) := by
  unfold State.secWindow
  extract_lets _ _
  exact .ite h (State.setPeaks_touches (Part.sub rfl hp) h)

theorem execPowerWindow1sEnd_touches {ps : List Part} {s0 s : State} (hp : Part.within [.met] ps = true)
    (h : Touches ps s0 s) :
    OTouches ps s0 (execPowerWindow1sEnd s) :=
  State.standbyDo_touches (Part.sub rfl hp) (fun _ h => (.foldl (fun _ _ h => (State.secWindow_touches (Part.sub
    rfl hp) h)) h)) h

theorem State.markFresh_touches {ps : List Part} {s0 s : State} {n : Nat} {seq : Nat}
    (hp : Part.within [.cap, .met, .evt] ps = true) (h : Touches ps s0 s) :
    Touches ps s0 (State.markFresh s n seq).1 := by
  unfold State.markFresh
  extract_lets _ _
  split
  · dsimp only
    exact .updMet (Part.sub rfl hp) h
  · extract_lets
    split
    · exact h
    · split
      · dsimp only
        exact .ite (.updMet (Part.sub rfl hp) h) (State.bumpSite_touches (Part.sub rfl hp) (.updMet (Part.sub rfl hp) h))
      · split
        · dsimp only
          exact .updMet (Part.sub rfl hp) h
        · exact h

theorem State.jobMark_touches {ps : List Part} {s0 s : State} {n : Nat} {rec : Bytes}
    (hp : Part.within [.cap, .met, .pnt, .chi, .cal, .jrn, .evt] ps = true) (h : Touches ps s0 s) :
    Touches ps s0 (State.jobMark s n rec) := by
  unfold State.jobMark
  extract_lets s1 _ _ _ s2 _
  have h1 : Touches ps s0 s1.1 := State.markFresh_touches (Part.sub rfl hp) h
  clear_value s1
  have h2 : Touches ps s0 s2 := h1
  clear_value s2
  refine .ite ?_ ?_
  · exact h2
  · refine .ite ?_ ?_
    · exact State.markNow_touches (Part.sub rfl hp) h2
    · refine .ite ?_ ?_
      · exact State.bumpSite_touches (Part.sub rfl hp) h2
      · refine .ite ?_ ?_
        · exact State.markNow_touches (Part.sub rfl hp) (State.bumpSite_touches (Part.sub rfl hp) h2)
        · exact .ite (.updMet (Part.sub rfl hp) h2) (State.markNow_touches (Part.sub rfl hp) h2)

theorem execJobMark_touches {ps : List Part} {s0 : State} {src : Option (Nat × Nat)} {rec : Bytes} {s : State}
    (hp : Part.within [.cap, .met, .pnt, .chi, .cal, .jrn, .ebx, .evt, .out] ps = true) (h : Touches ps s0 s) :
    OTouches ps s0 (execJobMark src rec s) :=
  State.standbyDo_touches (Part.sub rfl hp) (fun _ h => (State.siteMsg_touches (Part.sub rfl hp) (fun _ _ h =>
    (State.jobMark_touches (Part.sub rfl hp) h)) h)) h

theorem execJobRelease_touches {ps : List Part} {s0 : State} {v0 : Req} {job : Nat} {s : State}
    (hp : Part.within [.met, .evt] ps = true) (h : Touches ps s0 s) :
    OTouches ps s0 (execJobRelease v0 job s) :=
  State.coreDo_touches (Part.sub rfl hp) (fun _ h => (.ite (State.releaseJob_touches (Part.sub rfl hp) h) h)) h

theorem execPeakClr_touches {ps : List Part} {s0 : State} {r : Req} {inst : Nat} {s : State}
    (hp : Part.within [.log, .met, .evt, .mgt] ps = true) (h : Touches ps s0 s) :
    OTouches ps s0 (execPeakClr r inst s) :=
  State.coreDo_touches (Part.sub rfl hp) (fun _ h => (State.withWriteRight_touches (Part.sub rfl hp) (fun _ h =>
    (.ite (State.setPeaks_touches (Part.sub rfl hp) h) h)) h)) h

end Sys2Proof.Machine
end

