-- ==== Sys2Proof/Laws/Frames/Sites.lean ====
section
/-!
SUPPORT. Laws/Frames/Sites.lean: what each operation of Machine/Sites.lean changes: one lemma for each, by the rules of
Laws/Touches.
-/
set_option Elab.async false
namespace Sys2Proof.Machine

theorem State.setChiS_touches {ps : List Part} {s0 s : State} {n : Nat} {x : ChiselSite}
    (hp : Part.within [.chi] ps = true) (h : Touches ps s0 s) :
    Touches ps s0 (State.setChiS s n x) :=
  .updChi (Part.sub rfl hp) h

theorem State.chiselIdentified_touches {ps : List Part} {s0 s : State} {n : Nat} {serial : Nat}
    (hp : Part.within [.chi] ps = true) (h : Touches ps s0 s) :
    Touches ps s0 (State.chiselIdentified s n serial) := by
  unfold State.chiselIdentified
  extract_lets _ _ _ _
  exact State.setChiS_touches (Part.sub rfl hp) h

theorem State.readRecords_touches {ps : List Part} {s0 s : State} {n : Nat} {rom : Bytes}
    (hp : Part.within [.svy, .log, .cap, .chi, .evt] ps = true) (h : Touches ps s0 s) :
    Touches ps s0 (State.readRecords s n rom) := by
  unfold State.readRecords
  extract_lets _ _ _ _ s1 s2 _ _ s3 s4
  have h1 : Touches ps s0 s1 := State.setCapS_touches (Part.sub rfl hp) h
  clear_value s1
  have h2 : Touches ps s0 s2 := .ite (State.capEvent_touches (Part.sub rfl hp) h1) h1
  clear_value s2
  have h3 : Touches ps s0 s3 := .updSvy (Part.sub rfl hp) h2
  clear_value s3
  have h4 : Touches ps s0 s4 := .ite (State.event_touches (Part.sub rfl hp) h3) h3
  clear_value s4
  exact State.chiselIdentified_touches (Part.sub rfl hp) (State.calSetSite_touches (Part.sub rfl hp) h4)

theorem State.retireCounters_touches {ps : List Part} {s0 s : State} {n : Nat} {serial : Nat}
    (hp : Part.within [.rcnt, .log, .pat, .evt] ps = true) (h : Touches ps s0 s) :
    Touches ps s0 (State.retireCounters s n serial) := by
  unfold State.retireCounters
  extract_lets _ s1 s2 _ s3 _ _
  have h1 : Touches ps s0 s1 := .foldl (fun _ _ h => (State.pushRec_touches (Part.sub rfl hp) h)) h
  clear_value s1
  have h2 : Touches ps s0 s2 := .ite (.foldl (fun _ _ h => (State.setRailCnt_touches (Part.sub rfl hp) h)) h1) h
  clear_value s2
  have h3 : Touches ps s0 s3 := .updRcnt (Part.sub rfl hp) h2
  clear_value s3
  exact .ite h3 (.updPat (Part.sub rfl hp) h3)

theorem State.siteUp_touches {ps : List Part} {s0 s : State} {n : Nat} {attempt : Nat}
    (hp : Part.within [.pwr, .seq, .log, .mem, .cap, .met, .pnt, .chi, .cal, .jrn, .ques, .ebx, .evt, .dram, .out] ps = true)
    (h : Touches ps s0 s) :
    Touches ps s0 (State.siteUp s n attempt) := by
  unfold State.siteUp
  extract_lets _ s1
  have h1 : Touches ps s0 s1 := State.setSite_touches (Part.sub rfl hp) h
  clear_value s1
  exact State.settle_touches (Part.sub rfl hp) (State.orderUp_touches (Part.sub rfl hp) (State.siteTo_touches
      (Part.sub rfl hp) h1))

theorem State.identify_touches {ps : List Part} {s0 s : State} {n : Nat} {rom : Bytes}
    (hp : Part.within [.pwr, .seq, .svy, .rcnt, .log, .mem, .cap, .met, .pat, .pnt, .chi, .cal, .jrn, .ques, .ebx, .evt, .dram, .out] ps = true)
    (h : Touches ps s0 s) :
    Touches ps s0 (State.identify s n rom) := by
  unfold State.identify
  extract_lets _ s1 _ s2 s3
  have h1 : Touches ps s0 s1 := State.setSite_touches (Part.sub rfl hp) h
  clear_value s1
  have h2 : Touches ps s0 s2 := State.setSite_touches (Part.sub rfl hp) h1
  clear_value s2
  have h3 : Touches ps s0 s3 := State.setSite_touches (Part.sub rfl hp) h
  clear_value s3
  refine .ite ?_ ?_
  · exact h
  · refine .ite ?_ ?_
    · split
      · extract_lets bam0s1 bam0s2 bam0s3 bam0s4
        have bam0h1 : Touches ps s0 bam0s1 := State.setSite_touches (Part.sub rfl hp) h1
        clear_value bam0s1
        have bam0h2 : Touches ps s0 bam0s2 := State.retireCounters_touches (Part.sub rfl hp) bam0h1
        clear_value bam0s2
        have bam0h3 : Touches ps s0 bam0s3 := State.readRecords_touches (Part.sub rfl hp) bam0h2
        clear_value bam0s3
        have bam0h4 : Touches ps s0 bam0s4 := State.siteEvent_touches (Part.sub rfl hp) (State.siteTo_touches
            (Part.sub rfl hp) bam0h3)
        clear_value bam0s4
        exact .ite (State.siteUp_touches (Part.sub rfl hp) bam0h4) bam0h4
      · exact State.event_touches (Part.sub rfl hp) (State.siteEvent_touches (Part.sub rfl hp)
            (State.siteTo_touches (Part.sub rfl hp) h2))
    · refine .ite ?_ ?_
      · exact State.setSite_touches (Part.sub rfl hp) h
      · exact State.event_touches (Part.sub rfl hp) (State.siteEvent_touches (Part.sub rfl hp)
            (State.siteTo_touches (Part.sub rfl hp) h3))

theorem State.toIdentify_touches {ps : List Part} {s0 s : State} {n : Nat}
    (hp : Part.within [.seq, .log, .mem, .cap, .met, .pnt, .chi, .cal, .jrn, .ques, .ebx, .evt, .dram, .out] ps = true)
    (h : Touches ps s0 s) :
    Touches ps s0 (State.toIdentify s n) := by
  unfold State.toIdentify
  extract_lets _ s1 _ s2
  have h1 : Touches ps s0 s1 := State.setSite_touches (Part.sub rfl hp) h
  clear_value s1
  have h2 : Touches ps s0 s2 := State.setSite_touches (Part.sub rfl hp) h1
  clear_value s2
  refine .ite ?_ ?_
  · exact State.siteTo_touches (Part.sub rfl hp) h1
  · exact State.event_touches (Part.sub rfl hp) (State.siteEvent_touches (Part.sub rfl hp)
        (State.siteTo_touches (Part.sub rfl hp) h2))

theorem State.siteDone_touches {ps : List Part} {s0 s : State} {r : Req} {n : Nat} {code : Nat}
    (hp : Part.within [.seq, .mem, .ques, .ebx, .evt, .dram, .out] ps = true) (h : Touches ps s0 s) :
    Touches ps s0 (State.siteDone s r n code) :=
  State.complete_touches (Part.sub rfl hp) (.updSeq (Part.sub rfl hp) h)

theorem State.siteCmd_touches {ps : List Part} {s0 s : State} {r : Req} {n : Nat} {f : State → State}
    (hp : Part.within [.seq, .log, .mem, .ques, .ebx, .evt, .mgt, .dram, .out] ps = true) (hf : ∀ (s' : State)
    (_ : Touches ps s0 s'), Touches ps s0 (f s')) (h : Touches ps s0 s) :
    Touches ps s0 (State.siteCmd s r n f) :=
  .ite (State.siteDone_touches (Part.sub rfl hp) (State.refuseWrite_touches (Part.sub rfl hp) h)) (.ite
    (State.siteDone_touches (Part.sub rfl hp) h) (.ite (State.siteDone_touches (Part.sub rfl hp) h) (.ite
    (State.siteDone_touches (Part.sub rfl hp) h) (hf _ h))))

theorem execSiteUp_touches {ps : List Part} {s0 : State} {r : Req} {site : Nat} {s : State}
    (hp : Part.within [.pwr, .seq, .log, .mem, .cap, .met, .pnt, .chi, .cal, .jrn, .ques, .ebx, .evt, .mgt, .dram, .out] ps = true)
    (h : Touches ps s0 s) :
    OTouches ps s0 (execSiteUp r site s) := by
  unfold execSiteUp
  refine State.coreDo_touches (Part.sub rfl hp) (fun _ hg => ?_) h
  refine State.siteCmd_touches (Part.sub rfl hp) (fun _ ghg => ?_) hg
  refine .ite ?_ ?_
  · exact State.siteDone_touches (Part.sub rfl hp) ghg
  · refine .ite ?_ ?_
    · exact State.siteDone_touches (Part.sub rfl hp) ghg
    · split
      · refine .ite ?_ ?_
        · exact State.siteDone_touches (Part.sub rfl hp) ghg
        · exact State.siteDone_touches (Part.sub rfl hp) (State.siteUp_touches (Part.sub rfl hp) ghg)
      · refine .ite ?_ ?_
        · exact State.siteDone_touches (Part.sub rfl hp) ghg
        · exact State.siteDone_touches (Part.sub rfl hp) (State.siteUp_touches (Part.sub rfl hp) ghg)
      · exact State.siteDone_touches (Part.sub rfl hp) ghg
      · exact State.siteDone_touches (Part.sub rfl hp) ghg
      · exact State.siteDone_touches (Part.sub rfl hp) ghg
      · exact State.siteDone_touches (Part.sub rfl hp) ghg
      · exact State.siteDone_touches (Part.sub rfl hp) ghg
      · exact State.siteDone_touches (Part.sub rfl hp) ghg
      · exact State.siteDone_touches (Part.sub rfl hp) ghg
      · exact State.siteDone_touches (Part.sub rfl hp) ghg
      · exact State.siteDone_touches (Part.sub rfl hp) ghg
      · exact State.siteDone_touches (Part.sub rfl hp) ghg

theorem execSiteDown_touches {ps : List Part} {s0 : State} {r : Req} {site : Nat} {s : State}
    (hp : Part.within [.pwr, .seq, .log, .mem, .cap, .met, .pnt, .chi, .cal, .jrn, .ques, .ebx, .evt, .mgt, .dram, .out] ps = true)
    (h : Touches ps s0 s) :
    OTouches ps s0 (execSiteDown r site s) := by
  unfold execSiteDown
  refine State.coreDo_touches (Part.sub rfl hp) (fun _ hg => ?_) h
  refine State.siteCmd_touches (Part.sub rfl hp) (fun _ ghg => ?_) hg
  extract_lets _
  split
  · exact State.siteDone_touches (Part.sub rfl hp) (State.settle_touches (Part.sub rfl hp)
        (State.siteDownSeq_touches (Part.sub rfl hp) ghg))
  · exact State.siteDone_touches (Part.sub rfl hp) (State.settle_touches (Part.sub rfl hp)
        (State.siteDownSeq_touches (Part.sub rfl hp) ghg))
  · exact State.siteDone_touches (Part.sub rfl hp) (State.settle_touches (Part.sub rfl hp)
        (State.siteDownSeq_touches (Part.sub rfl hp) ghg))
  · exact State.siteDone_touches (Part.sub rfl hp) (State.siteTo_touches (Part.sub rfl hp) ghg)
  · exact State.siteDone_touches (Part.sub rfl hp) ghg
  · exact State.siteDone_touches (Part.sub rfl hp) ghg
  · exact State.siteDone_touches (Part.sub rfl hp) (State.setSite_touches (Part.sub rfl hp) ghg)
  · exact State.siteDone_touches (Part.sub rfl hp) ghg

theorem execSiteClear_touches {ps : List Part} {s0 : State} {r : Req} {site : Nat} {s : State}
    (hp : Part.within [.seq, .log, .mem, .cap, .met, .pnt, .chi, .cal, .jrn, .ques, .ebx, .evt, .mgt, .dram, .out] ps = true)
    (h : Touches ps s0 s) :
    OTouches ps s0 (execSiteClear r site s) :=
  State.coreDo_touches (Part.sub rfl hp) (fun _ h => (State.siteCmd_touches (Part.sub rfl hp) (fun _ h => (.ite
    (State.siteDone_touches (Part.sub rfl hp) (.ite (State.toIdentify_touches (Part.sub rfl hp) h)
    (State.siteTo_touches (Part.sub rfl hp) h))) (State.siteDone_touches (Part.sub rfl hp) h))) h)) h

theorem execSiteAdopt_touches {ps : List Part} {s0 : State} {r : Req} {site : Nat} {s : State}
    (hp : Part.within [.pwr, .seq, .log, .mem, .cap, .met, .pnt, .chi, .cal, .jrn, .ques, .ebx, .evt, .mgt, .dram, .out] ps = true)
    (h : Touches ps s0 s) :
    OTouches ps s0 (execSiteAdopt r site s) := by
  unfold execSiteAdopt
  refine State.coreDo_touches (Part.sub rfl hp) (fun _ hg => ?_) h
  exact State.siteCmd_touches (Part.sub rfl hp) (fun _ h => (.ite (State.siteDone_touches (Part.sub rfl hp)
      (State.settle_touches (Part.sub rfl hp) (State.siteDownSeq_touches (Part.sub rfl hp) (.foldl (fun _ _ h =>
      (.ite (State.fullRate_touches (Part.sub rfl hp) (State.setRail_touches (Part.sub rfl hp) h))
      (State.setRail_touches (Part.sub rfl hp) h))) (State.setSite_touches (Part.sub rfl hp) h)))))
      (State.siteDone_touches (Part.sub rfl hp) h))) hg

theorem execSiteIdentify_touches {ps : List Part} {s0 : State} {r : Req} {site : Nat} {s : State}
    (hp : Part.within [.seq, .log, .mem, .cap, .met, .pnt, .chi, .cal, .jrn, .ques, .ebx, .evt, .mgt, .dram, .out] ps = true)
    (h : Touches ps s0 s) :
    OTouches ps s0 (execSiteIdentify r site s) :=
  State.coreDo_touches (Part.sub rfl hp) (fun _ h => (State.siteCmd_touches (Part.sub rfl hp) (fun _ h => (.ite
    (State.siteDone_touches (Part.sub rfl hp) (State.toIdentify_touches (Part.sub rfl hp) h))
    (State.siteDone_touches (Part.sub rfl hp) h))) h)) h

theorem execSiteCmdInvalid_touches {ps : List Part} {s0 : State} {r : Req} {site : Nat} {code : Nat} {s : State}
    (hp : Part.within [.seq, .log, .mem, .ques, .ebx, .evt, .mgt, .dram, .out] ps = true) (h : Touches ps s0 s) :
    OTouches ps s0 (execSiteCmdInvalid r site code s) :=
  State.coreDo_touches (Part.sub rfl hp) (fun _ h => (.ite (.ite (State.siteDone_touches (Part.sub rfl hp) h)
    (State.siteDone_touches (Part.sub rfl hp) (State.refuseWrite_touches (Part.sub rfl hp) h))) h)) h

theorem execSitePresentAsserted_touches {ps : List Part} {s0 : State} {site : Nat} {s : State}
    (hp : Part.within [.pins, .seq, .log, .mem, .cap, .met, .pnt, .chi, .cal, .jrn, .ques, .ebx, .evt, .dram, .out] ps = true)
    (h : Touches ps s0 s) :
    OTouches ps s0 (execSitePresentAsserted site s) :=
  State.standbyDo_touches (Part.sub rfl hp) (fun _ h => (.ite (State.siteTo_touches (Part.sub rfl hp) (.updPins
    (Part.sub rfl hp) h)) (.updPins (Part.sub rfl hp) h))) h

theorem execSiteSettleExpiry_touches {ps : List Part} {s0 : State} {site : Nat} {s : State}
    (hp : Part.within [.seq, .log, .mem, .cap, .met, .pnt, .chi, .cal, .jrn, .ques, .ebx, .evt, .dram, .out] ps = true)
    (h : Touches ps s0 s) :
    OTouches ps s0 (execSiteSettleExpiry site s) :=
  State.standbyDo_touches (Part.sub rfl hp) (fun _ h => (.ite (State.toIdentify_touches (Part.sub rfl hp) h) h)) h

theorem execSiteIdentityRead_touches {ps : List Part} {s0 : State} {site : Nat} {rom : Bytes} {s : State}
    (hp : Part.within [.pwr, .seq, .svy, .rcnt, .log, .mem, .cap, .met, .pat, .pnt, .chi, .cal, .jrn, .ques, .ebx, .evt, .dram, .out] ps = true)
    (h : Touches ps s0 s) :
    OTouches ps s0 (execSiteIdentityRead site rom s) :=
  State.standbyDo_touches (Part.sub rfl hp) (fun _ h => (.ite (State.identify_touches (Part.sub rfl hp) h) h)) h

theorem execSiteIdromRereadTimer_touches {ps : List Part} {s0 : State} {site : Nat} {rom : Bytes} {s : State}
    (hp : Part.within [.pwr, .seq, .svy, .rcnt, .log, .mem, .cap, .met, .pat, .pnt, .chi, .cal, .jrn, .ques, .ebx, .evt, .dram, .out] ps = true)
    (h : Touches ps s0 s) :
    OTouches ps s0 (execSiteIdromRereadTimer site rom s) :=
  State.standbyDo_touches (Part.sub rfl hp) (fun _ h => (.ite h (State.identify_touches (Part.sub rfl hp) h))) h

theorem execSitePresenceLost_touches {ps : List Part} {s0 : State} {site : Nat} {s : State}
    (hp : Part.within [.pwr, .pins, .seq, .log, .mem, .cap, .met, .pnt, .chi, .cal, .jrn, .ques, .ebx, .evt, .dram, .out] ps = true)
    (h : Touches ps s0 s) :
    OTouches ps s0 (execSitePresenceLost site s) := by
  unfold execSitePresenceLost
  refine State.standbyDo_touches (Part.sub rfl hp) (fun _ hg => ?_) h
  extract_lets _ gs1 gs2 gs3 gs4 _ gs5
  have gh1 : Touches ps s0 gs1 := .updPins (Part.sub rfl hp) hg
  clear_value gs1
  have gh2 : Touches ps s0 gs2 := .foldl (fun _ _ h => (State.setRail_touches (Part.sub rfl hp) (.ite
      (State.pmbusWrite_touches (Part.sub rfl hp) h) h))) gh1
  clear_value gs2
  have gh3 : Touches ps s0 gs3 := State.siteEvent_touches (Part.sub rfl hp) gh2
  clear_value gs3
  have gh4 : Touches ps s0 gs4 := State.siteTo_touches (Part.sub rfl hp) gh3
  clear_value gs4
  have gh5 : Touches ps s0 gs5 := State.setSite_touches (Part.sub rfl hp) gh4
  clear_value gs5
  exact by split; exact gh1; exact (State.siteTo_touches (Part.sub rfl hp) gh1); exact (State.sysSettle_touches (Part.sub rfl hp) gh5)

theorem execSiteRetryWaitExpiry_touches {ps : List Part} {s0 : State} {site : Nat} {s : State}
    (hp : Part.within [.pwr, .seq, .log, .mem, .cap, .met, .pnt, .chi, .cal, .jrn, .ques, .ebx, .evt, .dram, .out] ps = true)
    (h : Touches ps s0 s) :
    OTouches ps s0 (execSiteRetryWaitExpiry site s) :=
  State.standbyDo_touches (Part.sub rfl hp) (fun _ h => (.ite (State.siteUp_touches (Part.sub rfl hp) h) h)) h

theorem State.adopt_touches {ps : List Part} {s0 s : State} {n : Nat} {rom : Bytes} {good : Nat} {off : Nat}
    {latched : Nat} {ep : Nat} {digest : Bytes} {version : Nat} {skip : Bool}
    (hp : Part.within [.pwr, .seq, .svy, .rcnt, .log, .mem, .cap, .met, .pat, .pnt, .chi, .cal, .jrn, .ques, .ebx, .evt, .dram, .out] ps = true)
    (h : Touches ps s0 s) :
    Touches ps s0 (State.adopt s n rom good off latched ep digest version skip) := by
  unfold State.adopt
  extract_lets _ s1 v2 _ s2 _ s3 s4 _ s5 s6 s7 _
  have h1 : Touches ps s0 s1 := .updEbx (Part.sub rfl hp) h
  clear_value s1
  have h2 : Touches ps s0 s2 := State.setSite_touches (Part.sub rfl hp) h1
  clear_value s2
  have h3 : Touches ps s0 s3 := .foldl (fun _ _ h => (State.setRail_touches (Part.sub rfl hp) h)) h2
  clear_value s3
  have h4 : Touches ps s0 s4 := .foldl (fun _ _ h => (.ite h (State.fullRate_touches (Part.sub rfl hp) h))) h3
  clear_value s4
  have h5 : Touches ps s0 s5 := State.retireCounters_touches (Part.sub rfl hp) h4
  clear_value s5
  have h6 : Touches ps s0 s6 := State.readRecords_touches (Part.sub rfl hp) h5
  clear_value s6
  have h7 : Touches ps s0 s7 := State.endJobOn_touches (Part.sub rfl hp) h6
  clear_value s7
  refine .ite ?_ ?_
  · exact h
  · refine .ite ?_ ?_
    · exact State.siteTo_touches (Part.sub rfl hp) (State.endJobOn_touches (Part.sub rfl hp) h)
    · clear_value v2
      split
      · exact State.siteEvent_touches (Part.sub rfl hp) (State.siteTo_touches (Part.sub rfl hp)
            (State.setSite_touches (Part.sub rfl hp) (State.endJobOn_touches (Part.sub rfl hp) h4)))
      · refine .ite ?_ ?_
        · exact State.siteEvent_touches (Part.sub rfl hp) (State.siteTo_touches (Part.sub rfl hp) h6)
        · refine .ite ?_ ?_
          · exact State.siteEvent_touches (Part.sub rfl hp) (State.siteTo_touches (Part.sub rfl hp) h7)
          · exact State.siteEvent_touches (Part.sub rfl hp) (State.siteTo_touches (Part.sub rfl hp)
                (State.setSite_touches (Part.sub rfl hp) h7))

theorem execRailUpDelayExpiry_touches {ps : List Part} {s0 : State} {rail : Nat} {s : State}
    (hp : Part.within [.pwr, .seq, .log, .mem, .cap, .met, .pnt, .chi, .cal, .jrn, .ques, .ebx, .evt, .dram, .out] ps = true)
    (h : Touches ps s0 s) :
    OTouches ps s0 (execRailUpDelayExpiry rail s) :=
  State.standbyDo_touches (Part.sub rfl hp) (fun _ h => (.ite (State.settle_touches (Part.sub rfl hp)
    (State.moveRail_touches (Part.sub rfl hp) h)) (State.settle_touches (Part.sub rfl hp) h))) h

theorem State.pgChange_touches {ps : List Part} {s0 s : State} {g : Nat} {level : Bool}
    (hp : Part.within [.pwr, .seq, .rcnt, .log, .snap, .mem, .cap, .met, .pnt, .chi, .cal, .jrn, .gimg, .ques, .ebx, .evt, .dram, .out] ps = true)
    (h : Touches ps s0 s) :
    Touches ps s0 (State.pgChange s g level) := by
  unfold State.pgChange
  extract_lets _ _ _ s1 s2 s3
  have h1 : Touches ps s0 s1 := State.setRail_touches (Part.sub rfl hp) h
  clear_value s1
  have h2 : Touches ps s0 s2 := State.setRail_touches (Part.sub rfl hp) h
  clear_value s2
  have h3 : Touches ps s0 s3 := .ite (State.logFault_touches (Part.sub rfl hp) h2) h2
  clear_value s3
  refine .ite ?_ ?_
  · exact h
  · split
    · refine .ite ?_ ?_
      · exact State.stepFail_touches (Part.sub rfl hp) h1
      · exact State.settle_touches (Part.sub rfl hp) h1
    · exact State.settle_touches (Part.sub rfl hp) h3
    · exact State.settle_touches (Part.sub rfl hp) h3
    · exact State.settle_touches (Part.sub rfl hp) (State.setRail_touches (Part.sub rfl hp) h)

theorem execRailPgChange_touches {ps : List Part} {s0 : State} {rail : Nat} {level : Bool} {s : State}
    (hp : Part.within [.pwr, .seq, .rcnt, .log, .snap, .mem, .cap, .met, .pnt, .chi, .cal, .jrn, .gimg, .ques, .ebx, .evt, .dram, .out] ps = true)
    (h : Touches ps s0 s) :
    OTouches ps s0 (execRailPgChange rail level s) :=
  State.standbyDo_touches (Part.sub rfl hp) (fun _ h => (.ite h (.foldl (fun _ _ h => (State.pgChange_touches
    (Part.sub rfl hp) h)) h))) h

theorem execRailRiseTimeout_touches {ps : List Part} {s0 : State} {rail : Nat} {s : State}
    (hp : Part.within [.pwr, .seq, .rcnt, .log, .snap, .mem, .cap, .met, .pnt, .chi, .cal, .jrn, .gimg, .ques, .ebx, .evt, .dram, .out] ps = true)
    (h : Touches ps s0 s) :
    OTouches ps s0 (execRailRiseTimeout rail s) :=
  State.standbyDo_touches (Part.sub rfl hp) (fun _ h => (.ite (State.stepFail_touches (Part.sub rfl hp) h) h)) h

theorem execRailPgLossTimer_touches {ps : List Part} {s0 : State} {rail : Nat} {s : State}
    (hp : Part.within [.pwr, .seq, .rcnt, .log, .snap, .mem, .cap, .met, .pnt, .chi, .cal, .jrn, .gimg, .ques, .ebx, .evt, .dram, .out] ps = true)
    (h : Touches ps s0 s) :
    OTouches ps s0 (execRailPgLossTimer rail s) :=
  State.standbyDo_touches (Part.sub rfl hp) (fun _ h => (.ite (State.cycleFault_touches (Part.sub rfl hp)
    (State.setRail_touches (Part.sub rfl hp) h)) h)) h

theorem execRailDownDelayExpiry_touches {ps : List Part} {s0 : State} {rail : Nat} {s : State}
    (hp : Part.within [.pwr, .seq, .log, .mem, .cap, .met, .pnt, .chi, .cal, .jrn, .ques, .ebx, .evt, .dram, .out] ps = true)
    (h : Touches ps s0 s) :
    OTouches ps s0 (execRailDownDelayExpiry rail s) :=
  State.standbyDo_touches (Part.sub rfl hp) (fun _ h => (.ite (State.settle_touches (Part.sub rfl hp)
    (State.moveRail_touches (Part.sub rfl hp) h)) h)) h

theorem execRailFallTimeout_touches {ps : List Part} {s0 : State} {rail : Nat} {s : State}
    (hp : Part.within [.pwr, .seq, .rcnt, .log, .snap, .mem, .cap, .met, .pnt, .chi, .cal, .jrn, .gimg, .ques, .ebx, .evt, .dram, .out] ps = true)
    (h : Touches ps s0 s) :
    OTouches ps s0 (execRailFallTimeout rail s) := by
  unfold execRailFallTimeout
  refine State.standbyDo_touches (Part.sub rfl hp) (fun _ hg => ?_) h
  split
  · exact State.settle_touches (Part.sub rfl hp) (State.downfault_touches (Part.sub rfl hp) hg)
  · exact State.settle_touches (Part.sub rfl hp) (State.groupShutdown_touches (Part.sub rfl hp)
        (State.downfault_touches (Part.sub rfl hp) hg))
  · exact hg

theorem State.backoffOver_touches {ps : List Part} {s0 s : State} {g : Nat}
    (hp : Part.within [.pwr, .seq, .log, .mem, .cap, .met, .pnt, .chi, .cal, .jrn, .ques, .ebx, .evt, .dram, .out] ps = true)
    (h : Touches ps s0 s) :
    Touches ps s0 (State.backoffOver s g) := by
  unfold State.backoffOver
  extract_lets _ _
  exact State.settle_touches (Part.sub rfl hp) (State.moveRail_touches (Part.sub rfl hp) h)

theorem execRailBackoffExpiry_touches {ps : List Part} {s0 : State} {rail : Nat} {s : State}
    (hp : Part.within [.pwr, .seq, .log, .mem, .cap, .met, .pnt, .chi, .cal, .jrn, .ques, .ebx, .evt, .dram, .out] ps = true)
    (h : Touches ps s0 s) :
    OTouches ps s0 (execRailBackoffExpiry rail s) :=
  State.standbyDo_touches (Part.sub rfl hp) (fun _ h => (.ite h (.ite (State.setRail_touches (Part.sub rfl hp) h)
    (State.backoffOver_touches (Part.sub rfl hp) h)))) h

theorem State.backoffsOver_touches {ps : List Part} {s0 s : State}
    (hp : Part.within [.pwr, .seq, .log, .mem, .cap, .met, .pnt, .chi, .cal, .jrn, .ques, .ebx, .evt, .dram, .out] ps = true)
    (h : Touches ps s0 s) :
    Touches ps s0 (State.backoffsOver s) :=
  .foldl (fun _ _ h => (.ite (State.backoffOver_touches (Part.sub rfl hp) h) h)) h

theorem execRailRetryCountReset_touches {ps : List Part} {s0 : State} {rail : Nat} {s : State}
    (hp : Part.within [.pwr, .seq] ps = true) (h : Touches ps s0 s) :
    OTouches ps s0 (execRailRetryCountReset rail s) :=
  State.standbyDo_touches (Part.sub rfl hp) (fun _ h => (.ite (State.setRail_touches (Part.sub rfl hp) h) h)) h

theorem execPmbusWriteDone_touches {ps : List Part} {s0 : State} {rail : Nat} {ok : Bool} {s : State}
    (hp : Part.within [.pwr, .seq, .rcnt, .log, .snap, .mem, .cap, .met, .pnt, .chi, .cal, .jrn, .gimg, .ques, .ebx, .evt, .dram, .out] ps = true)
    (h : Touches ps s0 s) :
    OTouches ps s0 (execPmbusWriteDone rail ok s) := by
  unfold execPmbusWriteDone
  refine State.standbyDo_touches (Part.sub rfl hp) (fun _ hg => ?_) h
  extract_lets _ gs1
  have gh1 : Touches ps s0 gs1 := State.setRail_touches (Part.sub rfl hp) hg
  clear_value gs1
  refine .ite ?_ ?_
  · exact hg
  · refine .ite ?_ ?_
    · exact State.setRail_touches (Part.sub rfl hp) hg
    · refine .ite ?_ ?_
      · exact State.pmbusWrite_touches (Part.sub rfl hp) (State.setRail_touches (Part.sub rfl hp) hg)
      · split
        · exact State.stepFail_touches (Part.sub rfl hp) gh1
        · exact State.logFault_touches (Part.sub rfl hp) gh1
        · exact State.logFault_touches (Part.sub rfl hp) gh1
        · exact State.logFault_touches (Part.sub rfl hp) gh1
        · exact gh1

theorem execPmbusPgPoll_touches {ps : List Part} {s0 : State} {rail : Nat} {status : Option Nat} {s : State}
    (hp : Part.within [.pwr, .seq, .rcnt, .log, .snap, .mem, .cap, .met, .pnt, .chi, .cal, .jrn, .gimg, .ques, .ebx, .evt, .dram, .out] ps = true)
    (h : Touches ps s0 s) :
    OTouches ps s0 (execPmbusPgPoll rail status s) := by
  unfold execPmbusPgPoll
  refine State.standbyDo_touches (Part.sub rfl hp) (fun _ hg => ?_) h
  extract_lets _
  refine .ite ?_ ?_
  · exact hg
  · split
    · exact State.pgChange_touches (Part.sub rfl hp) (State.setRail_touches (Part.sub rfl hp) hg)
    · refine .ite ?_ ?_
      · exact State.setRail_touches (Part.sub rfl hp) hg
      · exact State.pgChange_touches (Part.sub rfl hp) (State.setRail_touches (Part.sub rfl hp) hg)

theorem execTrayResetWidthExpiry_touches {ps : List Part} {s0 s : State}
    (hp : Part.within [.seq, .log, .mem, .cap, .met, .pnt, .chi, .cal, .jrn, .ques, .ebx, .evt, .dram, .out] ps = true)
    (h : Touches ps s0 s) :
    OTouches ps s0 (execTrayResetWidthExpiry s) :=
  State.standbyDo_touches (Part.sub rfl hp) (fun _ h => (.ite (State.sysResetEnd_touches (Part.sub rfl hp)
    (State.emit_touches (Part.sub rfl hp) h)) h)) h

theorem State.wardenReset_touches {ps : List Part} {s0 s : State} {w : Nat} {code : Nat}
    (hp : Part.within [.pwr, .rst, .seq, .log, .mem, .cap, .met, .pnt, .chi, .cal, .jrn, .ques, .ebx, .evt, .dram, .out] ps = true)
    (h : Touches ps s0 s) :
    Touches ps s0 (State.wardenReset s w code) := by
  unfold State.wardenReset
  extract_lets _ s1 s2 _ s3 s4
  have h1 : Touches ps s0 s1 := .updRst (Part.sub rfl hp) h
  clear_value s1
  have h2 : Touches ps s0 s2 := State.siteLeft_touches (Part.sub rfl hp) h1
  clear_value s2
  have h3 : Touches ps s0 s3 := State.setCapS_touches (Part.sub rfl hp) h2
  clear_value s3
  have h4 : Touches ps s0 s4 := .foldl (fun _ _ h => (State.setRail_touches (Part.sub rfl hp) h)) h3
  clear_value s4
  exact State.setSite_touches (Part.sub rfl hp) h4

theorem execWardenBrownout_touches {ps : List Part} {s0 : State} {w : Nat} {s : State}
    (hp : Part.within [.pwr, .rst, .seq, .log, .mem, .cap, .met, .pnt, .chi, .cal, .jrn, .ques, .ebx, .evt, .dram, .out] ps = true)
    (h : Touches ps s0 s) :
    OTouches ps s0 (execWardenBrownout w s) :=
  State.standbyDo_touches (Part.sub rfl hp) (fun _ h => (State.wardenReset_touches (Part.sub rfl hp) h)) h

theorem execWardenSupervisorReset_touches {ps : List Part} {s0 : State} {w : Nat} {s : State}
    (hp : Part.within [.pwr, .rst, .seq, .log, .mem, .cap, .met, .pnt, .chi, .cal, .jrn, .ques, .ebx, .evt, .dram, .out] ps = true)
    (h : Touches ps s0 s) :
    OTouches ps s0 (execWardenSupervisorReset w s) :=
  State.standbyDo_touches (Part.sub rfl hp) (fun _ h => (State.wardenReset_touches (Part.sub rfl hp) h)) h

theorem execWardenReload_touches {ps : List Part} {s0 : State} {w : Nat} {s : State}
    (hp : Part.within [.pwr, .rst, .seq, .log, .mem, .cap, .met, .pnt, .chi, .cal, .jrn, .ques, .ebx, .evt, .dram, .out] ps = true)
    (h : Touches ps s0 s) :
    OTouches ps s0 (execWardenReload w s) := by
  unfold execWardenReload
  refine State.standbyDo_touches (Part.sub rfl hp) (fun _ hg => ?_) h
  extract_lets gs1 _ _
  have gh1 : Touches ps s0 gs1 := State.wardenReset_touches (Part.sub rfl hp) hg
  clear_value gs1
  exact .updRstSeq (Part.sub rfl hp) gh1

theorem execWardenResetRelease_touches {ps : List Part} {s0 : State} {w : Nat} {s : State}
    (hp : Part.within [.rst, .seq] ps = true) (h : Touches ps s0 s) :
    OTouches ps s0 (execWardenResetRelease w s) :=
  State.standbyDo_touches (Part.sub rfl hp) (fun _ h => (.ite (.updRstSeq (Part.sub rfl hp) h) h)) h

end Sys2Proof.Machine
end

