-- ==== Sys2Proof/Laws/Frames/Commands.lean ====
section
/-!
SUPPORT. Laws/Frames/Commands.lean: what each operation of Machine/Commands.lean changes: one lemma for each, by the rules of
Laws/Touches.
-/
set_option Elab.async false
namespace Sys2Proof.Machine

theorem State.armRight_touches {ps : List Part} {s0 s : State} {r : Req} {x : Right} {f : State → State}
    (hp : Part.within [.log, .mem, .ques, .ebx, .evt, .mgt, .dram, .out] ps = true) (hf : ∀ (s' : State)
    (_ : Touches ps s0 s'), Touches ps s0 (f s')) (h : Touches ps s0 s) :
    OTouches ps s0 (State.armRight s r x f) :=
  State.fwDo_touches (Part.sub rfl hp) (fun _ h => (State.withRight_touches (Part.sub rfl hp) (fun _ h => (hf _ h))
    h)) h

theorem State.armCmd_touches {ps : List Part} {s0 s : State} {r : Req} {x : Right} {f : State → State}
    (hp : Part.within [.log, .mem, .ques, .ebx, .evt, .mgt, .dram, .out] ps = true) (hf : ∀ (s' : State)
    (_ : Touches ps s0 s'), Touches ps s0 (f s')) (h : Touches ps s0 s) :
    OTouches ps s0 (State.armCmd s r x f) :=
  State.armRight_touches (Part.sub rfl hp) (fun _ h => (.ite (State.complete_touches (Part.sub rfl hp) h) (.ite
    (State.complete_touches (Part.sub rfl hp) h) (hf _ h)))) h

end Sys2Proof.Machine
end

