-- ==== Sys2Proof/Laws/Frames/Pointing.lean ====
section
/-!
SUPPORT. Laws/Frames/Pointing.lean: what each operation of Machine/Pointing.lean changes: one lemma for each, by the rules of
Laws/Touches.
-/
set_option Elab.async false
namespace Sys2Proof.Machine

theorem State.setLine_touches {ps : List Part} {s0 s : State} {n : Nat} {x : SyncLine}
    (hp : Part.within [.pnt] ps = true) (h : Touches ps s0 s) :
    Touches ps s0 (State.setLine s n x) :=
  .updPnt (Part.sub rfl hp) h

theorem State.sendFrame_touches {ps : List Part} {s0 s : State} {n : Nat} {typ : Nat} {payload : Bytes}
    (hp : Part.within [.pnt, .out] ps = true) (h : Touches ps s0 s) :
    Touches ps s0 (State.sendFrame s n typ payload) := by
  unfold State.sendFrame
  extract_lets _ _
  refine .ite ?_ ?_
  · exact State.emit_touches (Part.sub rfl hp) (State.setLine_touches (Part.sub rfl hp) h)
  · exact h

theorem execSyncFrameDiscard_touches {ps : List Part} {s0 : State} {line : Nat} {s : State}
    (hp : Part.within [.pnt, .evt] ps = true) (h : Touches ps s0 s) :
    OTouches ps s0 (execSyncFrameDiscard line s) :=
  State.coreDo_touches (Part.sub rfl hp) (fun _ h => (State.bump_touches (Part.sub rfl hp) (fun _ _ h =>
    (State.setLine_touches (Part.sub rfl hp) h)) h)) h

theorem State.ptEvent_touches {ps : List Part} {s0 s : State} {source : Nat} {kind : Nat}
    (hp : Part.within [.log, .evt] ps = true) (h : Touches ps s0 s) :
    Touches ps s0 (State.ptEvent s source kind) :=
  State.record_touches (Part.sub rfl hp) h

theorem execCountFrameTransmit_touches {ps : List Part} {s0 s : State} (hp : Part.within [.pnt, .out] ps = true)
    (h : Touches ps s0 s) :
    OTouches ps s0 (execCountFrameTransmit s) :=
  State.coreDo_touches (Part.sub rfl hp) (fun _ h => (.foldl (fun _ _ h => (State.sendFrame_touches (Part.sub rfl
    hp) h)) h)) h

theorem State.ptTo_touches {ps : List Part} {s0 s : State} {st : PtSt} {kind : Nat}
    (hp : Part.within [.log, .pnt, .evt] ps = true) (h : Touches ps s0 s) :
    Touches ps s0 (State.ptTo s st kind) :=
  State.ptEvent_touches (Part.sub rfl hp) (.updPnt (Part.sub rfl hp) h)

theorem State.alignBy_touches {ps : List Part} {s0 s : State} {e : Int}
    (hp : Part.within [.log, .pnt, .evt] ps = true) (h : Touches ps s0 s) :
    Touches ps s0 (State.alignBy s e) := by
  unfold State.alignBy
  extract_lets _ s1 _ s2 _
  have h1 : Touches ps s0 s1 := .updPnt (Part.sub rfl hp) h
  clear_value s1
  have h2 : Touches ps s0 s2 := .updPnt (Part.sub rfl hp) h1
  clear_value s2
  split
  · exact .updPnt (Part.sub rfl hp) h1
  · refine .ite ?_ ?_
    · exact .updPnt (Part.sub rfl hp) h1
    · exact State.ptTo_touches (Part.sub rfl hp) (.updPnt (Part.sub rfl hp) h1)
  · refine .ite ?_ ?_
    · exact .ite (State.ptTo_touches (Part.sub rfl hp) h2) (.updPnt (Part.sub rfl hp) h2)
    · exact .updPnt (Part.sub rfl hp) h2
  · refine .ite ?_ ?_
    · exact .ite (State.ptTo_touches (Part.sub rfl hp) h2) (.updPnt (Part.sub rfl hp) h2)
    · exact .updPnt (Part.sub rfl hp) h2
  · exact h1
  · exact h1

theorem execCountFrame_touches {ps : List Part} {s0 : State} {p : Bytes} {s : State}
    (hp : Part.within [.log, .pnt, .evt] ps = true) (h : Touches ps s0 s) :
    OTouches ps s0 (execCountFrame p s) := by
  unfold execCountFrame
  refine State.coreDo_touches (Part.sub rfl hp) (fun _ hg => ?_) h
  extract_lets _ gs1 _ _ _ _ _ gs2 gs3
  have gh1 : Touches ps s0 gs1 := State.setLine_touches (Part.sub rfl hp) hg
  clear_value gs1
  have gh2 : Touches ps s0 gs2 := .updPnt (Part.sub rfl hp) gh1
  clear_value gs2
  have gh3 : Touches ps s0 gs3 := .ite (State.ptEvent_touches (Part.sub rfl hp) gh2) gh2
  clear_value gs3
  exact .ite gh1 (State.alignBy_touches (Part.sub rfl hp) gh3)

theorem execPointingFrameLoss_touches {ps : List Part} {s0 s : State}
    (hp : Part.within [.log, .pnt, .evt] ps = true) (h : Touches ps s0 s) :
    OTouches ps s0 (execPointingFrameLoss s) := by
  unfold execPointingFrameLoss
  refine State.coreDo_touches (Part.sub rfl hp) (fun _ hg => ?_) h
  extract_lets _ gs1 _
  have gh1 : Touches ps s0 gs1 := State.setLine_touches (Part.sub rfl hp) hg
  clear_value gs1
  split
  · exact State.ptTo_touches (Part.sub rfl hp) (.updPnt (Part.sub rfl hp) gh1)
  · exact State.ptTo_touches (Part.sub rfl hp) (.updPnt (Part.sub rfl hp) gh1)
  · exact State.ptTo_touches (Part.sub rfl hp) (.updPnt (Part.sub rfl hp) gh1)
  · exact hg

theorem execHoldoverLimitExpiry_touches {ps : List Part} {s0 s : State}
    (hp : Part.within [.log, .pnt, .evt] ps = true) (h : Touches ps s0 s) :
    OTouches ps s0 (execHoldoverLimitExpiry s) :=
  State.coreDo_touches (Part.sub rfl hp) (fun _ h => (.ite (State.ptTo_touches (Part.sub rfl hp) (.updPnt
    (Part.sub rfl hp) h)) h)) h

theorem execPointingSaveTimer_touches {ps : List Part} {s0 s : State} (hp : Part.within [.pnt] ps = true)
    (h : Touches ps s0 s) :
    OTouches ps s0 (execPointingSaveTimer s) :=
  State.coreDo_touches (Part.sub rfl hp) (fun _ h => (.updPnt (Part.sub rfl hp) h)) h

theorem State.sendCal_touches {ps : List Part} {s0 s : State} {n : Nat} (hp : Part.within [.pnt, .out] ps = true)
    (h : Touches ps s0 s) :
    Touches ps s0 (State.sendCal s n) := by
  unfold State.sendCal
  extract_lets _
  refine .ite ?_ ?_
  · exact State.sendFrame_touches (Part.sub rfl hp) (State.setLine_touches (Part.sub rfl hp) h)
  · exact h

theorem execSyncCalPeriod_touches {ps : List Part} {s0 : State} {line : Nat} {s : State}
    (hp : Part.within [.pnt, .out] ps = true) (h : Touches ps s0 s) :
    OTouches ps s0 (execSyncCalPeriod line s) :=
  State.coreDo_touches (Part.sub rfl hp) (fun _ h => (State.sendCal_touches (Part.sub rfl hp) h)) h

theorem execSyncLineLinkUp_touches {ps : List Part} {s0 : State} {line : Nat} {s : State}
    (hp : Part.within [.pnt, .out] ps = true) (h : Touches ps s0 s) :
    OTouches ps s0 (execSyncLineLinkUp line s) :=
  State.coreDo_touches (Part.sub rfl hp) (fun _ h => (State.sendCal_touches (Part.sub rfl hp)
    (State.setLine_touches (Part.sub rfl hp) h))) h

theorem execCalFrame_touches {ps : List Part} {s0 : State} {p : Bytes} {turn : Nat} {s : State}
    (hp : Part.within [.pnt, .out] ps = true) (h : Touches ps s0 s) :
    OTouches ps s0 (execCalFrame p turn s) :=
  State.coreDo_touches (Part.sub rfl hp) (fun _ h => (State.sendFrame_touches (Part.sub rfl hp) h)) h

theorem State.downLine_touches {ps : List Part} {s0 s : State} {n : Nat}
    (hp : Part.within [.log, .pnt, .evt] ps = true) (h : Touches ps s0 s) :
    Touches ps s0 (State.downLine s n) := by
  unfold State.downLine
  extract_lets _ s1
  have h1 : Touches ps s0 s1 := State.setLine_touches (Part.sub rfl hp) h
  clear_value s1
  exact .ite h1 (State.ptEvent_touches (Part.sub rfl hp) h1)

theorem State.measure_touches {ps : List Part} {s0 s : State} {n : Nat} {d : Nat} {seq : Nat}
    (hp : Part.within [.log, .pnt, .evt, .out] ps = true) (h : Touches ps s0 s) :
    Touches ps s0 (State.measure s n d seq) := by
  unfold State.measure
  extract_lets _
  refine .ite ?_ ?_
  · exact State.downLine_touches (Part.sub rfl hp) h
  · split
    · extract_lets _
      refine .ite ?_ ?_
      · exact State.sendFrame_touches (Part.sub rfl hp) (State.setLine_touches (Part.sub rfl hp) h)
      · refine .ite ?_ ?_
        · exact State.downLine_touches (Part.sub rfl hp) h
        · exact State.setLine_touches (Part.sub rfl hp) h
    · exact State.setLine_touches (Part.sub rfl hp) h

theorem execEchoFrame_touches {ps : List Part} {s0 : State} {line : Nat} {p : Bytes} {rtt : Nat} {s : State}
    (hp : Part.within [.log, .pnt, .evt, .out] ps = true) (h : Touches ps s0 s) :
    OTouches ps s0 (execEchoFrame line p rtt s) := by
  unfold execEchoFrame
  refine State.coreDo_touches (Part.sub rfl hp) (fun _ hg => ?_) h
  extract_lets _ gs1 _ _ _ gs2
  have gh1 : Touches ps s0 gs1 := State.setLine_touches (Part.sub rfl hp) hg
  clear_value gs1
  have gh2 : Touches ps s0 gs2 := .ite (.updPnt (Part.sub rfl hp) gh1) gh1
  clear_value gs2
  exact .ite (State.measure_touches (Part.sub rfl hp) gh2) hg

theorem execPromoteManager_touches {ps : List Part} {s0 : State} {r : Req} {s : State}
    (hp : Part.within [.log, .snap, .mem, .cap, .rel, .met, .pnt, .chi, .cal, .jrn, .ques, .ebx, .evt, .mgt, .dram, .out] ps = true)
    (h : Touches ps s0 s) :
    OTouches ps s0 (execPromoteManager r s) := by
  unfold execPromoteManager
  refine State.armCmd_touches (Part.sub rfl hp) (fun _ hg => ?_) h
  extract_lets gs1 _ gs2
  have gh1 : Touches ps s0 gs1 := .ite hg (State.meterCut_touches (Part.sub rfl hp) hg)
  clear_value gs1
  have gh2 : Touches ps s0 gs2 := .updPnt (Part.sub rfl hp) gh1
  clear_value gs2
  refine .ite ?_ ?_
  · exact State.complete_touches (Part.sub rfl hp) (State.ptEvent_touches (Part.sub rfl hp) gh2)
  · exact State.complete_touches (Part.sub rfl hp) hg

theorem execSiteDumapReport_touches {ps : List Part} {s0 : State} {site : Nat} {map : Bytes} {s : State}
    (hp : Part.within [.pnt] ps = true) (h : Touches ps s0 s) :
    OTouches ps s0 (execSiteDumapReport site map s) :=
  State.coreDo_touches (Part.sub rfl hp) (fun _ h => (.updPnt (Part.sub rfl hp) h)) h

end Sys2Proof.Machine
end

