-- ==== Sys2Proof/Laws/Frames/Launch.lean ====
section
/-!
SUPPORT. Laws/Frames/Launch.lean: what each operation of Machine/Launch.lean changes: one lemma for each, by the rules of
Laws/Touches.
-/
set_option Elab.async false
namespace Sys2Proof.Machine

theorem State.sendDown_touches {ps : List Part} {s0 s : State} {x : ArmEntry} {typ : Nat} {payload : Bytes}
    (hp : Part.within [.pnt, .out] ps = true) (h : Touches ps s0 s) :
    Touches ps s0 (State.sendDown s x typ payload) :=
  .foldl (fun _ _ h => (State.sendFrame_touches (Part.sub rfl hp) h)) h

theorem State.sendLaunch_touches {ps : List Part} {s0 s : State} {x : ArmEntry}
    (hp : Part.within [.pnt, .out] ps = true) (h : Touches ps s0 s) :
    Touches ps s0 (State.sendLaunch s x) :=
  State.sendDown_touches (Part.sub rfl hp) h

theorem State.sendAck_touches {ps : List Part} {s0 s : State} {run : Nat} {acked : Nat} {result : Nat} {first : Nat}
    {sites : Nat} (hp : Part.within [.pnt, .out] ps = true) (h : Touches ps s0 s) :
    Touches ps s0 (State.sendAck s run acked result first sites) :=
  State.sendFrame_touches (Part.sub rfl hp) h

theorem State.refuseRun_touches {ps : List Part} {s0 s : State} {i : Nat} {code : Nat} {pos : Nat}
    (hp : Part.within [.log, .pnt, .evt, .out] ps = true) (h : Touches ps s0 s) :
    Touches ps s0 (State.refuseRun s i code pos) := by
  unfold State.refuseRun
  extract_lets _ _ s1
  have h1 : Touches ps s0 s1 := State.launchEvent_touches (Part.sub rfl hp) (State.setArm_touches (Part.sub rfl hp) h)
  clear_value s1
  refine .ite ?_ ?_
  · exact State.sendDown_touches (Part.sub rfl hp) h1
  · exact State.sendAck_touches (Part.sub rfl hp) h1

theorem State.answerRun_touches {ps : List Part} {s0 s : State} {i : Nat}
    (hp : Part.within [.log, .cap, .pnt, .evt, .out] ps = true) (h : Touches ps s0 s) :
    Touches ps s0 (State.answerRun s i) := by
  unfold State.answerRun
  extract_lets _ _ _ _
  refine .ite ?_ ?_
  · refine .ite ?_ ?_
    · refine .ite ?_ ?_
      · exact State.sendDown_touches (Part.sub rfl hp) (State.throttleNote_touches (Part.sub rfl hp)
            (State.setArm_touches (Part.sub rfl hp) h))
      · exact h
    · exact State.sendAck_touches (Part.sub rfl hp) (State.setArm_touches (Part.sub rfl hp) h)
  · exact h

theorem State.takeLaunch_touches {ps : List Part} {s0 s : State} {i : Nat} {n : Nat} {frac : Nat} {det : Digest}
    (hp : Part.within [.log, .cap, .pnt, .evt, .out] ps = true) (h : Touches ps s0 s) :
    Touches ps s0 (State.takeLaunch s i n frac det) := by
  unfold State.takeLaunch
  extract_lets _ _ _ _ s1
  have h1 : Touches ps s0 s1 := State.setArm_touches (Part.sub rfl hp) h
  clear_value s1
  refine .ite ?_ ?_
  · exact State.refuseRun_touches (Part.sub rfl hp) h1
  · exact State.answerRun_touches (Part.sub rfl hp) (State.sendLaunch_touches (Part.sub rfl hp) h1)

theorem execArmRun_touches {ps : List Part} {s0 : State} {r : Req} {e : Bytes} {src : Option Bytes} {s : State}
    (hp : Part.within [.log, .mem, .pnt, .ques, .ebx, .evt, .mgt, .dram, .out] ps = true) (h : Touches ps s0 s) :
    OTouches ps s0 (execArmRun r e src s) := by
  unfold execArmRun
  refine State.armCmd_touches (Part.sub rfl hp) (fun _ hg => ?_) h
  split
  · exact State.complete_touches (Part.sub rfl hp) hg
  · refine .ite ?_ ?_
    · exact State.complete_touches (Part.sub rfl hp) hg
    · refine .ite ?_ ?_
      · exact State.complete_touches (Part.sub rfl hp) hg
      · refine .ite ?_ ?_
        · exact State.complete_touches (Part.sub rfl hp) hg
        · refine .ite ?_ ?_
          · exact State.complete_touches (Part.sub rfl hp) hg
          · refine .ite ?_ ?_
            · exact State.complete_touches (Part.sub rfl hp) hg
            · refine .ite ?_ ?_
              · exact State.complete_touches (Part.sub rfl hp) hg
              · split
                · exact State.complete_touches (Part.sub rfl hp) hg
                · exact State.complete_touches (Part.sub rfl hp) (State.setArm_touches (Part.sub rfl hp) hg)

theorem execLaunchRun_touches {ps : List Part} {s0 : State} {r : Req} {e : Bytes} {s : State}
    (hp : Part.within [.log, .mem, .cap, .pnt, .ques, .ebx, .evt, .mgt, .dram, .out] ps = true)
    (h : Touches ps s0 s) :
    OTouches ps s0 (execLaunchRun r e s) := by
  unfold execLaunchRun
  refine State.armCmd_touches (Part.sub rfl hp) (fun _ hg => ?_) h
  extract_lets _
  refine .ite ?_ ?_
  · exact State.complete_touches (Part.sub rfl hp) hg
  · split
    · exact State.complete_touches (Part.sub rfl hp) hg
    · extract_lets _ _
      refine .ite ?_ ?_
      · exact State.complete_touches (Part.sub rfl hp) hg
      · refine .ite ?_ ?_
        · exact State.complete_touches (Part.sub rfl hp) hg
        · exact State.takeLaunch_touches (Part.sub rfl hp) (State.complete_touches (Part.sub rfl hp) hg)

theorem execDisarmRun_touches {ps : List Part} {s0 : State} {r : Req} {e : Bytes} {s : State}
    (hp : Part.within [.log, .mem, .pnt, .ques, .ebx, .evt, .mgt, .dram, .out] ps = true) (h : Touches ps s0 s) :
    OTouches ps s0 (execDisarmRun r e s) := by
  unfold execDisarmRun
  refine State.armCmd_touches (Part.sub rfl hp) (fun _ hg => ?_) h
  split
  · exact State.complete_touches (Part.sub rfl hp) hg
  · exact State.complete_touches (Part.sub rfl hp) (.ite (State.setArm_touches (Part.sub rfl hp) hg) hg)

theorem execCloseRun_touches {ps : List Part} {s0 : State} {r : Req} {e : Bytes} {s : State}
    (hp : Part.within [.log, .mem, .cap, .pnt, .chi, .cal, .jrn, .ques, .ebx, .evt, .mgt, .dram, .out] ps = true)
    (h : Touches ps s0 s) :
    OTouches ps s0 (execCloseRun r e s) := by
  unfold execCloseRun
  refine State.armCmd_touches (Part.sub rfl hp) (fun _ hg => ?_) h
  split
  · exact State.complete_touches (Part.sub rfl hp) hg
  · exact State.complete_touches (Part.sub rfl hp) (State.closeArm_touches (Part.sub rfl hp) hg)

theorem execArmEntryExpiry_touches {ps : List Part} {s0 : State} {run : Nat} {s : State}
    (hp : Part.within [.log, .pnt, .evt] ps = true) (h : Touches ps s0 s) :
    OTouches ps s0 (execArmEntryExpiry run s) := by
  unfold execArmEntryExpiry
  refine State.coreDo_touches (Part.sub rfl hp) (fun _ hg => ?_) h
  split
  · extract_lets _
    refine .ite ?_ ?_
    · exact State.launchEvent_touches (Part.sub rfl hp) (State.setArm_touches (Part.sub rfl hp) hg)
    · exact hg
  · exact hg

theorem execLaunchFrame_touches {ps : List Part} {s0 : State} {p : Bytes} {s : State}
    (hp : Part.within [.log, .cap, .pnt, .evt, .out] ps = true) (h : Touches ps s0 s) :
    OTouches ps s0 (execLaunchFrame p s) := by
  unfold execLaunchFrame
  refine State.coreDo_touches (Part.sub rfl hp) (fun _ hg => ?_) h
  extract_lets _ _
  split
  · exact State.sendAck_touches (Part.sub rfl hp) (State.launchEvent_touches (Part.sub rfl hp) hg)
  · refine .ite ?_ ?_
    · exact State.bump_touches (Part.sub rfl hp) (fun _ _ h => (.updPnt (Part.sub rfl hp) h)) hg
    · exact .ite hg (State.takeLaunch_touches (Part.sub rfl hp) hg)

theorem execAckFrame_touches {ps : List Part} {s0 : State} {line : Nat} {p : Bytes} {s : State}
    (hp : Part.within [.log, .cap, .pnt, .evt, .out] ps = true) (h : Touches ps s0 s) :
    OTouches ps s0 (execAckFrame line p s) := by
  unfold execAckFrame
  refine State.coreDo_touches (Part.sub rfl hp) (fun _ hg => ?_) h
  extract_lets _
  split
  · exact hg
  · extract_lets _
    refine .ite ?_ ?_
    · exact hg
    · refine .ite ?_ ?_
      · refine .ite ?_ ?_
        · exact hg
        · refine .ite ?_ ?_
          · exact State.refuseRun_touches (Part.sub rfl hp) hg
          · refine .ite ?_ ?_
            · exact State.refuseRun_touches (Part.sub rfl hp) hg
            · exact State.answerRun_touches (Part.sub rfl hp) (State.setArm_touches (Part.sub rfl hp) hg)
      · refine .ite ?_ ?_
        · exact State.refuseRun_touches (Part.sub rfl hp) hg
        · exact State.answerRun_touches (Part.sub rfl hp) (State.setArm_touches (Part.sub rfl hp) hg)

theorem State.launchConflict_touches {ps : List Part} {s0 s : State} (hp : Part.within [.pnt, .evt] ps = true)
    (h : Touches ps s0 s) :
    Touches ps s0 (State.launchConflict s) :=
  State.bump_touches (Part.sub rfl hp) (fun _ _ h => (.updPnt (Part.sub rfl hp) h)) h

theorem execGoFrame_touches {ps : List Part} {s0 : State} {p : Bytes} {s : State}
    (hp : Part.within [.log, .cap, .pnt, .evt, .out] ps = true) (h : Touches ps s0 s) :
    OTouches ps s0 (execGoFrame p s) := by
  unfold execGoFrame
  refine State.coreDo_touches (Part.sub rfl hp) (fun _ hg => ?_) h
  split
  · exact hg
  · extract_lets _
    refine .ite ?_ ?_
    · exact State.launchConflict_touches (Part.sub rfl hp) hg
    · refine .ite ?_ ?_
      · refine .ite ?_ ?_
        · exact State.sendDown_touches (Part.sub rfl hp) hg
        · exact State.sendDown_touches (Part.sub rfl hp) (State.throttleNote_touches (Part.sub rfl hp)
              (State.setArm_touches (Part.sub rfl hp) hg))
      · exact hg

theorem State.abortRun_touches {ps : List Part} {s0 s : State} {i : Nat} {reason : Nat}
    (hp : Part.within [.log, .pnt, .evt, .out] ps = true) (h : Touches ps s0 s) :
    Touches ps s0 (State.abortRun s i reason) := by
  unfold State.abortRun
  extract_lets _ _
  exact State.sendDown_touches (Part.sub rfl hp) (State.launchEvent_touches (Part.sub rfl hp)
      (State.setArm_touches (Part.sub rfl hp) h))

theorem execAbortFrame_touches {ps : List Part} {s0 : State} {p : Bytes} {s : State}
    (hp : Part.within [.log, .pnt, .evt, .out] ps = true) (h : Touches ps s0 s) :
    OTouches ps s0 (execAbortFrame p s) := by
  unfold execAbortFrame
  refine State.coreDo_touches (Part.sub rfl hp) (fun _ hg => ?_) h
  split
  · exact hg
  · extract_lets _
    refine .ite ?_ ?_
    · exact State.launchConflict_touches (Part.sub rfl hp) hg
    · exact .ite (State.abortRun_touches (Part.sub rfl hp) hg) hg

theorem execLaunchDeadline_touches {ps : List Part} {s0 : State} {run : Nat} {s : State}
    (hp : Part.within [.log, .pnt, .evt, .out] ps = true) (h : Touches ps s0 s) :
    OTouches ps s0 (execLaunchDeadline run s) := by
  unfold execLaunchDeadline
  refine State.coreDo_touches (Part.sub rfl hp) (fun _ hg => ?_) h
  split
  · exact hg
  · extract_lets _
    exact .ite (State.abortRun_touches (Part.sub rfl hp) hg) hg

theorem State.reportRun_touches {ps : List Part} {s0 s : State} {i : Nat} (hp : Part.within [.pnt, .out] ps = true)
    (h : Touches ps s0 s) :
    Touches ps s0 (State.reportRun s i) := by
  unfold State.reportRun
  extract_lets _ _ _
  refine .ite ?_ ?_
  · exact h
  · refine .ite ?_ ?_
    · exact State.setArm_touches (Part.sub rfl hp) h
    · refine .ite ?_ ?_
      · exact State.sendFrame_touches (Part.sub rfl hp) (State.setArm_touches (Part.sub rfl hp) h)
      · exact h

theorem execLaunchCountReached_touches {ps : List Part} {s0 : State} {run : Nat} {s : State}
    (hp : Part.within [.log, .cap, .pnt, .chi, .cal, .jrn, .evt, .out] ps = true) (h : Touches ps s0 s) :
    OTouches ps s0 (execLaunchCountReached run s) := by
  unfold execLaunchCountReached
  refine State.coreDo_touches (Part.sub rfl hp) (fun _ hg => ?_) h
  split
  · exact hg
  · extract_lets _ _ _ _ _ gm1s1 gm1s2 gm1s3
    have gm1h1 : Touches ps s0 gm1s1 := State.setArm_touches (Part.sub rfl hp) hg
    clear_value gm1s1
    have gm1h2 : Touches ps s0 gm1s2 := .ite (.foldl (fun _ _ h => (State.launchEvent_touches (Part.sub rfl hp)
        h)) gm1h1) (.ite (State.launchEvent_touches (Part.sub rfl hp) gm1h1) gm1h1)
    clear_value gm1s2
    have gm1h3 : Touches ps s0 gm1s3 := State.reportRun_touches (Part.sub rfl hp) gm1h2
    clear_value gm1s3
    exact .ite hg (.ite (State.closeArm_touches (Part.sub rfl hp) gm1h3) gm1h3)

theorem execResultFrame_touches {ps : List Part} {s0 : State} {line : Nat} {p : Bytes} {s : State}
    (hp : Part.within [.pnt, .out] ps = true) (h : Touches ps s0 s) :
    OTouches ps s0 (execResultFrame line p s) := by
  unfold execResultFrame
  refine State.coreDo_touches (Part.sub rfl hp) (fun _ hg => ?_) h
  split
  · exact hg
  · extract_lets _
    refine .ite ?_ ?_
    · exact State.reportRun_touches (Part.sub rfl hp) (State.setArm_touches (Part.sub rfl hp) hg)
    · exact hg

theorem State.choice_touches {ps : List Part} {s0 s : State} {n : Nat} {rec : Bytes}
    (hp : Part.within [.pnt] ps = true) (h : Touches ps s0 s) :
    Touches ps s0 (State.choice s n rec) := by
  unfold State.choice
  split
  · exact h
  · exact (.ite (State.setArm_touches (Part.sub rfl hp) h) h)

theorem execChoiceRecord_touches {ps : List Part} {s0 : State} {src : Option (Nat × Nat)} {rec : Bytes} {s : State}
    (hp : Part.within [.pnt, .ebx, .evt, .out] ps = true) (h : Touches ps s0 s) :
    OTouches ps s0 (execChoiceRecord src rec s) :=
  State.coreDo_touches (Part.sub rfl hp) (fun _ h => (State.siteMsg_touches (Part.sub rfl hp) (fun _ _ h =>
    (State.choice_touches (Part.sub rfl hp) h)) h)) h

end Sys2Proof.Machine
end

