-- ==== Sys2Proof/Laws/Frames/Chisel.lean ====
section
/-!
SUPPORT. Laws/Frames/Chisel.lean: what each operation of Machine/Chisel.lean changes: one lemma for each, by the rules of
Laws/Touches.
-/
set_option Elab.async false
namespace Sys2Proof.Machine

theorem State.bumpChi_touches {ps : List Part} {s0 s : State} {n : Nat} {k : Nat}
    (hp : Part.within [.chi, .evt] ps = true) (h : Touches ps s0 s) :
    Touches ps s0 (State.bumpChi s n k) :=
  State.bump_touches (Part.sub rfl hp) (fun _ _ h => (State.setChiS_touches (Part.sub rfl hp) h)) h

theorem State.classify_touches {ps : List Part} {s0 s : State} {n : Nat} {rec : Bytes} {doms : List (Nat × Nat)}
    (hp : Part.within [.chi, .evt] ps = true) (h : Touches ps s0 s) :
    Touches ps s0 (State.classify s n rec doms) := by
  unfold State.classify
  extract_lets _ _ _ _
  split
  · exact h
  · extract_lets _ _ _ m1s1 m1s2
    have m1h1 : Touches ps s0 m1s1 := State.setChiS_touches (Part.sub rfl hp) h
    clear_value m1s1
    have m1h2 : Touches ps s0 m1s2 := .ite (State.bumpChi_touches (Part.sub rfl hp) m1h1) (.ite
        (State.bumpChi_touches (Part.sub rfl hp) m1h1) m1h1)
    clear_value m1s2
    exact .ite (State.bumpChi_touches (Part.sub rfl hp) m1h2) m1h2

theorem State.chiEvent_touches {ps : List Part} {s0 s : State} {n : Nat} {kind : Nat} {mask : Nat} {budget : Nat}
    {count : Nat} (hp : Part.within [.log, .evt] ps = true) (h : Touches ps s0 s) :
    Touches ps s0 (State.chiEvent s n kind mask budget count) :=
  State.record_touches (Part.sub rfl hp) h

theorem State.allocate_touches {ps : List Part} {s0 s : State} {n : Nat} {fallback : Bool} {code : Option Nat}
    (hp : Part.within [.log, .chi, .evt] ps = true) (h : Touches ps s0 s) :
    Touches ps s0 (State.allocate s n fallback code) := by
  unfold State.allocate
  extract_lets _ _ _ _ _ _ _ _ _ s1 s2 s3
  have h1 : Touches ps s0 s1 := State.setChiS_touches (Part.sub rfl hp) h
  clear_value s1
  have h2 : Touches ps s0 s2 := .foldl (fun _ _ h => (.ite (State.bumpChi_touches (Part.sub rfl hp) (.ite
      (State.bumpChi_touches (Part.sub rfl hp) h) h)) (.ite (State.bumpChi_touches (Part.sub rfl hp) h) h))) h1
  clear_value s2
  have h3 : Touches ps s0 s3 := State.bumpChi_touches (Part.sub rfl hp) h2
  clear_value s3
  exact .ite (.ite h3 (State.chiEvent_touches (Part.sub rfl hp) h3)) h2

theorem State.loadImage_touches {ps : List Part} {s0 s : State} {n : Nat} {b : Bytes}
    (hp : Part.within [.chi] ps = true) (h : Touches ps s0 s) :
    Touches ps s0 (State.loadImage s n b) := by
  unfold State.loadImage
  extract_lets _ _ _
  exact State.setChiS_touches (Part.sub rfl hp) h

theorem State.chiCommand_touches {ps : List Part} {s0 s : State} {r : Req} {e : Bytes} {code : Nat}
    {image : Option Bytes} (hp : Part.within [.log, .mem, .chi, .ques, .ebx, .evt, .mgt, .dram, .out] ps = true)
    (h : Touches ps s0 s) :
    OTouches ps s0 (State.chiCommand s r e code image) :=
  State.armCmd_touches (Part.sub rfl hp) (fun _ h => (.ite (State.complete_touches (Part.sub rfl hp) h) (.ite
    (State.complete_touches (Part.sub rfl hp) h) (.ite (State.complete_touches (Part.sub rfl hp) h)
    (State.setChiS_touches (Part.sub rfl hp) h))))) h

theorem execChiselFreeze_touches {ps : List Part} {s0 : State} {r : Req} {e : Bytes} {s : State}
    (hp : Part.within [.log, .mem, .chi, .ques, .ebx, .evt, .mgt, .dram, .out] ps = true) (h : Touches ps s0 s) :
    OTouches ps s0 (execChiselFreeze r e s) :=
  State.chiCommand_touches (Part.sub rfl hp) h

theorem execChiselThaw_touches {ps : List Part} {s0 : State} {r : Req} {e : Bytes} {s : State}
    (hp : Part.within [.log, .mem, .chi, .ques, .ebx, .evt, .mgt, .dram, .out] ps = true) (h : Touches ps s0 s) :
    OTouches ps s0 (execChiselThaw r e s) :=
  State.chiCommand_touches (Part.sub rfl hp) h

theorem execChiselReset_touches {ps : List Part} {s0 : State} {r : Req} {e : Bytes} {s : State}
    (hp : Part.within [.log, .mem, .chi, .ques, .ebx, .evt, .mgt, .dram, .out] ps = true) (h : Touches ps s0 s) :
    OTouches ps s0 (execChiselReset r e s) :=
  State.chiCommand_touches (Part.sub rfl hp) h

theorem execChiselExport_touches {ps : List Part} {s0 : State} {r : Req} {e : Bytes} {s : State}
    (hp : Part.within [.log, .mem, .chi, .ques, .ebx, .evt, .mgt, .dram, .out] ps = true) (h : Touches ps s0 s) :
    OTouches ps s0 (execChiselExport r e s) :=
  State.chiCommand_touches (Part.sub rfl hp) h

theorem execChiselImport_touches {ps : List Part} {s0 : State} {r : Req} {e : Bytes} {src : Option Bytes}
    {s : State} (hp : Part.within [.log, .mem, .chi, .ques, .ebx, .evt, .mgt, .dram, .out] ps = true)
    (h : Touches ps s0 s) :
    OTouches ps s0 (execChiselImport r e src s) :=
  State.chiCommand_touches (Part.sub rfl hp) h

theorem State.chiRun_touches {ps : List Part} {s0 s : State} {n : Nat} {on : Bool}
    (hp : Part.within [.log, .mem, .chi, .ques, .ebx, .evt, .dram, .out] ps = true) (h : Touches ps s0 s) :
    Touches ps s0 (State.chiRun s n on) := by
  unfold State.chiRun
  extract_lets _ s1 _ _
  have h1 : Touches ps s0 s1 := State.setChiS_touches (Part.sub rfl hp) h
  clear_value s1
  split
  · exact h
  · extract_lets m1v1 _
    refine .ite ?_ ?_
    · exact h
    · refine .ite ?_ ?_
      · exact State.complete_touches (Part.sub rfl hp) h1
      · refine .ite ?_ ?_
        · exact State.complete_touches (Part.sub rfl hp) (State.setChiS_touches (Part.sub rfl hp) h1)
        · refine .ite ?_ ?_
          · exact State.complete_touches (Part.sub rfl hp) (State.setChiS_touches (Part.sub rfl hp) h1)
          · refine .ite ?_ ?_
            · refine .ite ?_ ?_
              · exact State.complete_touches (Part.sub rfl hp) h1
              · unfold m1v1
                exact State.complete_touches (Part.sub rfl hp) (State.chiEvent_touches (Part.sub rfl hp)
                    (State.setChiS_touches (Part.sub rfl hp) h1))
            · refine .ite ?_ ?_
              · refine .ite ?_ ?_
                · exact State.complete_touches (Part.sub rfl hp) h1
                · split
                  · unfold m1v1
                    exact State.complete_touches (Part.sub rfl hp) (State.ownViolation_touches (Part.sub rfl hp) h1)
                  · exact State.complete_touches (Part.sub rfl hp) (State.give_touches (Part.sub rfl hp) h1)
              · refine .ite ?_ ?_
                · exact State.complete_touches (Part.sub rfl hp) h1
                · refine .ite ?_ ?_
                  · exact State.complete_touches (Part.sub rfl hp) h1
                  · split
                    · exact State.complete_touches (Part.sub rfl hp) h1
                    · refine .ite ?_ ?_
                      · exact State.complete_touches (Part.sub rfl hp) h1
                      · refine .ite ?_ ?_
                        · exact State.complete_touches (Part.sub rfl hp) h1
                        · unfold m1v1
                          exact State.complete_touches (Part.sub rfl hp) (State.chiEvent_touches (Part.sub rfl
                              hp) (State.loadImage_touches (Part.sub rfl hp) h1))

theorem State.chiCommit_touches {ps : List Part} {s0 s : State} {n : Nat} (hp : Part.within [.chi] ps = true)
    (h : Touches ps s0 s) :
    Touches ps s0 (State.chiCommit s n) := by
  unfold State.chiCommit
  extract_lets _ _ _ _
  exact .ite h (State.setChiS_touches (Part.sub rfl hp) h)

theorem State.chiRecord_touches {ps : List Part} {s0 s : State} {n : Nat}
    (hp : Part.within [.log, .chi, .evt] ps = true) (h : Touches ps s0 s) :
    Touches ps s0 (State.chiRecord s n).1 := by
  unfold State.chiRecord
  extract_lets _ s1 _ _ s2 s3
  have h1 : Touches ps s0 s1 := State.setChiS_touches (Part.sub rfl hp) h
  clear_value s1
  have h2 : Touches ps s0 s2 := State.bumpChi_touches (Part.sub rfl hp) (State.setChiS_touches (Part.sub rfl hp) h1)
  clear_value s2
  have h3 : Touches ps s0 s3 := .ite (State.chiEvent_touches (Part.sub rfl hp) h2) h2
  clear_value s3
  split
  · exact State.bumpChi_touches (Part.sub rfl hp) h
  · split
    · exact State.setChiS_touches (Part.sub rfl hp) h1
    · exact State.bumpChi_touches (Part.sub rfl hp) h3

theorem State.sendAlloc_touches {ps : List Part} {s0 s : State} {n : Nat} (hp : Part.within [.chi, .out] ps = true)
    (h : Touches ps s0 s) :
    Touches ps s0 (State.sendAlloc s n) := by
  unfold State.sendAlloc
  extract_lets _ _ s1 _ _
  have h1 : Touches ps s0 s1 := State.emit_touches (Part.sub rfl hp) (State.setChiS_touches (Part.sub rfl hp) h)
  clear_value s1
  exact .ite h1 (State.emit_touches (Part.sub rfl hp) h1)

theorem State.chiSite_touches {ps : List Part} {s0 s : State} {n : Nat}
    (hp : Part.within [.log, .mem, .cap, .pnt, .chi, .ques, .ebx, .evt, .dram, .out] ps = true)
    (h : Touches ps s0 s) :
    Touches ps s0 (State.chiSite s n) := by
  unfold State.chiSite
  extract_lets s1 _ _ s2 s3 _ _ s4 _ _ s5 s6 s7 _ _ s8 _ s9 _ s10 s11 s12 _ _ s13 s14
  have h1 : Touches ps s0 s1 := State.chiCommit_touches (Part.sub rfl hp) h
  clear_value s1
  have h2 : Touches ps s0 s2 := State.setChiS_touches (Part.sub rfl hp) h1
  clear_value s2
  have h3 : Touches ps s0 s3 := State.chiRun_touches (Part.sub rfl hp) h2
  clear_value s3
  have h4 : Touches ps s0 s4 := .ite (State.throttleNote_touches (Part.sub rfl hp) (State.setCapS_touches
      (Part.sub rfl hp) h3)) h3
  clear_value s4
  have h5 : Touches ps s0 s5 := .ite (State.setChiS_touches (Part.sub rfl hp) h4) h4
  clear_value s5
  have h6 : Touches ps s0 s6.1 := State.chiRecord_touches (Part.sub rfl hp) h5
  clear_value s6
  have h7 : Touches ps s0 s7 := h6
  clear_value s7
  have h8 : Touches ps s0 s8 := .ite (State.chiEvent_touches (Part.sub rfl hp) (State.setChiS_touches (Part.sub
      rfl hp) h7)) h7
  clear_value s8
  have h9 : Touches ps s0 s9 := State.allocate_touches (Part.sub rfl hp) h8
  clear_value s9
  have h10 : Touches ps s0 s10 := State.setChiS_touches (Part.sub rfl hp) h9
  clear_value s10
  have h11 : Touches ps s0 s11 := .ite (State.noteCut_touches (Part.sub rfl hp) (State.chiEvent_touches
      (Part.sub rfl hp) h10)) h8
  clear_value s11
  have h12 : Touches ps s0 s12 := by
    unfold s12
    exact by split; exact (State.classify_touches (Part.sub rfl hp) h8); exact h8
  clear_value s12
  have h13 : Touches ps s0 s13 := State.setChiS_touches (Part.sub rfl hp) h12
  clear_value s13
  have h14 : Touches ps s0 s14 := State.allocate_touches (Part.sub rfl hp) h13
  clear_value s14
  refine .ite ?_ ?_
  · exact State.setChiS_touches (Part.sub rfl hp) h4
  · refine .ite ?_ ?_
    · exact State.sendAlloc_touches (Part.sub rfl hp) h11
    · exact State.sendAlloc_touches (Part.sub rfl hp) h14

theorem State.chiInterval_touches {ps : List Part} {s0 s : State}
    (hp : Part.within [.log, .mem, .cap, .pnt, .chi, .ques, .ebx, .evt, .dram, .out] ps = true)
    (h : Touches ps s0 s) :
    Touches ps s0 (State.chiInterval s) :=
  .ite (.foldl (fun _ _ h => (State.chiSite_touches (Part.sub rfl hp) h)) h) h

theorem execChiselInterval_touches {ps : List Part} {s0 s : State}
    (hp : Part.within [.log, .mem, .cap, .pnt, .chi, .ques, .ebx, .evt, .dram, .out] ps = true)
    (h : Touches ps s0 s) :
    OTouches ps s0 (execChiselInterval s) :=
  State.coreDo_touches (Part.sub rfl hp) (fun _ h => (State.chiInterval_touches (Part.sub rfl hp) h)) h

theorem execChiselStaleFallbackExpiry_touches {ps : List Part} {s0 : State} {site : Nat} {s : State}
    (hp : Part.within [.log, .chi, .evt] ps = true) (h : Touches ps s0 s) :
    OTouches ps s0 (execChiselStaleFallbackExpiry site s) :=
  State.coreDo_touches (Part.sub rfl hp) (fun _ h => (.ite (State.chiEvent_touches (Part.sub rfl hp)
    (State.setChiS_touches (Part.sub rfl hp) h)) h)) h

theorem execChiselSwBoundWrite_touches {ps : List Part} {s0 : State} {r : Req} {site : Nat} {dom : Nat}
    {ceil : Bool} {value : Int} {s : State} (hp : Part.within [.log, .chi, .evt, .mgt] ps = true)
    (h : Touches ps s0 s) :
    OTouches ps s0 (execChiselSwBoundWrite r site dom ceil value s) := by
  unfold execChiselSwBoundWrite
  refine State.coreDo_touches (Part.sub rfl hp) (fun _ hg => ?_) h
  refine State.withWriteRight_touches (Part.sub rfl hp) (fun _ ghg => ?_) hg
  extract_lets _
  split
  · exact ghg
  · extract_lets _ _ _ _ _ ggm1s1 ggm1s2
    have ggm1h1 : Touches ps s0 ggm1s1 := State.setChiS_touches (Part.sub rfl hp) ghg
    clear_value ggm1s1
    have ggm1h2 : Touches ps s0 ggm1s2 := .ite (State.bumpChi_touches (Part.sub rfl hp) ggm1h1) ggm1h1
    clear_value ggm1s2
    exact .ite (State.bumpChi_touches (Part.sub rfl hp) ggm1h2) ggm1h2

theorem State.chiCheckpoint_touches {ps : List Part} {s0 s : State} (hp : Part.within [.ckpt] ps = true)
    (h : Touches ps s0 s) :
    Touches ps s0 (State.chiCheckpoint s) :=
  .ite (.updCkpt (Part.sub rfl hp) h) h

theorem State.chiLost_touches {ps : List Part} {s0 s : State} {n : Nat}
    (hp : Part.within [.log, .chi, .evt] ps = true) (h : Touches ps s0 s) :
    Touches ps s0 (State.chiLost s n) := by
  unfold State.chiLost
  extract_lets _
  refine .ite ?_ ?_
  · exact State.setChiS_touches (Part.sub rfl hp) h
  · exact State.chiEvent_touches (Part.sub rfl hp) (State.setChiS_touches (Part.sub rfl hp) h)

theorem State.chiRestore_touches {ps : List Part} {s0 s : State} (hp : Part.within [.log, .chi, .evt] ps = true)
    (h : Touches ps s0 s) :
    Touches ps s0 (State.chiRestore s) := by
  unfold State.chiRestore
  refine .foldl (fun _ _ hf => ?_) h
  extract_lets fs1 _ fs2
  have fh1 : Touches ps s0 fs1 := State.chiCommit_touches (Part.sub rfl hp) hf
  clear_value fs1
  have fh2 : Touches ps s0 fs2 := State.setChiS_touches (Part.sub rfl hp) fh1
  clear_value fs2
  split
  · refine .ite ?_ ?_
    · exact State.loadImage_touches (Part.sub rfl hp) fh2
    · exact State.chiLost_touches (Part.sub rfl hp) fh2
  · exact State.chiLost_touches (Part.sub rfl hp) fh2

end Sys2Proof.Machine
end

