-- ==== Sys2Proof/Laws/Frames/Align.lean ====
section
/-!
SUPPORT. Laws/Frames/Align.lean: what each operation of Machine/Align.lean changes: one lemma for each, by the rules of
Laws/Touches.
-/
set_option Elab.async false
namespace Sys2Proof.Machine

theorem State.stepTo_touches {ps : List Part} {s0 s : State} {t : Nat}
    (hp : Part.within [.log, .snap, .mem, .cap, .rel, .met, .pnt, .chi, .cal, .jrn, .ques, .ebx, .evt, .dram, .out] ps = true)
    (h : Touches ps s0 s) :
    Touches ps s0 (State.stepTo s t) := by
  unfold State.stepTo
  extract_lets s1 _ s2
  have h1 : Touches ps s0 s1 := State.meterCut_touches (Part.sub rfl hp) h
  clear_value s1
  have h2 : Touches ps s0 s2 := .updPnt (Part.sub rfl hp) h1
  clear_value s2
  exact State.chiInterval_touches (Part.sub rfl hp) (State.bump_touches (Part.sub rfl hp) (fun _ _ h => (.upd
      [.pnt] (Part.sub rfl hp) h)) h2)

theorem execDelayFrame_touches {ps : List Part} {s0 : State} {p : Bytes} {s : State}
    (hp : Part.within [.log, .snap, .mem, .cap, .rel, .met, .pnt, .chi, .cal, .jrn, .ques, .ebx, .evt, .dram, .out] ps = true)
    (h : Touches ps s0 s) :
    OTouches ps s0 (execDelayFrame p s) := by
  unfold execDelayFrame
  refine State.coreDo_touches (Part.sub rfl hp) (fun _ hg => ?_) h
  extract_lets _ _ gs1 _ _ gs2 _
  have gh1 : Touches ps s0 gs1 := State.setLine_touches (Part.sub rfl hp) hg
  clear_value gs1
  have gh2 : Touches ps s0 gs2 := State.stepTo_touches (Part.sub rfl hp) gh1
  clear_value gs2
  exact .ite (.ite (.updPnt (Part.sub rfl hp) gh1) (.updPnt (Part.sub rfl hp) gh2)) gh1

theorem execManagerEchoWaitExpiry_touches {ps : List Part} {s0 s : State}
    (hp : Part.within [.log, .snap, .mem, .cap, .rel, .met, .pnt, .chi, .cal, .jrn, .ques, .ebx, .evt, .dram, .out] ps = true)
    (h : Touches ps s0 s) :
    OTouches ps s0 (execManagerEchoWaitExpiry s) := by
  unfold execManagerEchoWaitExpiry
  refine State.coreDo_touches (Part.sub rfl hp) (fun _ hg => ?_) h
  extract_lets _ gs1 _
  have gh1 : Touches ps s0 gs1 := State.stepTo_touches (Part.sub rfl hp) hg
  clear_value gs1
  exact .ite (.updPnt (Part.sub rfl hp) gh1) hg

theorem State.lockCount_touches {ps : List Part} {s0 s : State} {t : Nat} {valid : Bool} {st : PtSt}
    (hp : Part.within [.log, .snap, .mem, .cap, .rel, .met, .pnt, .chi, .cal, .jrn, .ques, .ebx, .evt, .pair, .dram, .out] ps = true)
    (h : Touches ps s0 s) :
    Touches ps s0 (State.lockCount s t valid st) := by
  unfold State.lockCount
  extract_lets _ _ s1 _ _
  have h1 : Touches ps s0 s1 := .ite (.updPnt (Part.sub rfl hp) h) (State.stepTo_touches (Part.sub rfl hp) h)
  clear_value s1
  exact .ite (.updPntPair (Part.sub rfl hp) h) (.updPntPair (Part.sub rfl hp) h1)

end Sys2Proof.Machine
end

