-- ==== Sys2Proof/Laws/Frames/Caliper.lean ====
section
/-!
SUPPORT. Laws/Frames/Caliper.lean: what each operation of Machine/Caliper.lean changes: one lemma for each, by the rules of
Laws/Touches.
-/
set_option Elab.async false
namespace Sys2Proof.Machine

theorem State.fenceUnit_touches {ps : List Part} {s0 s : State} {c : Check}
    (hp : Part.within [.cal, .out] ps = true) (h : Touches ps s0 s) :
    Touches ps s0 (State.fenceUnit s c).1 := by
  unfold State.fenceUnit
  extract_lets _ _ _ s1 _ _
  have h1 : Touches ps s0 s1 := State.emit_touches (Part.sub rfl hp) (State.setCalSite_touches (Part.sub rfl hp) h)
  clear_value s1
  split
  · exact h
  · split
    · exact h
    · exact .ite h1 (State.emit_touches (Part.sub rfl hp) h1)

theorem State.selfFence_touches {ps : List Part} {s0 s : State}
    (hp : Part.within [.pwr, .seq, .log, .mem, .cap, .met, .pnt, .chi, .cal, .jrn, .gimg, .ques, .ebx, .evt, .dram, .out] ps = true)
    (h : Touches ps s0 s) :
    Touches ps s0 (State.selfFence s) :=
  State.calDown_touches (Part.sub rfl hp) (State.calEvent_touches (Part.sub rfl hp) (.updCal (Part.sub rfl hp)
    h))

theorem State.verdict_touches {ps : List Part} {s0 s : State} {c : Check} {verdict : Nat}
    (hp : Part.within [.pwr, .seq, .log, .mem, .cap, .met, .pnt, .chi, .cal, .jrn, .gimg, .ques, .ebx, .evt, .dram, .out] ps = true)
    (h : Touches ps s0 s) :
    Touches ps s0 (State.verdict s c verdict) := by
  unfold State.verdict
  extract_lets s1 s2 _ _ s3 _ s4 s5 _ s6 s7 _ s8
  have h1 : Touches ps s0 s1.1 := by
    unfold s1
    split
    · exact State.fenceUnit_touches (Part.sub rfl hp) h
    · exact h
  clear_value s1
  have h2 : Touches ps s0 s2 := h1
  clear_value s2
  have h3 : Touches ps s0 s3 := State.dropCheck_touches (Part.sub rfl hp) h2
  clear_value s3
  have h4 : Touches ps s0 s4 := .updCal (Part.sub rfl hp) h3
  clear_value s4
  have h5 : Touches ps s0 s5 := State.jrnSee_touches (Part.sub rfl hp) h4
  clear_value s5
  have h6 : Touches ps s0 s6 := .ite h4 (State.setJrnRun_touches (Part.sub rfl hp) h5)
  clear_value s6
  have h7 : Touches ps s0 s7 := State.record_touches (Part.sub rfl hp) h6
  clear_value s7
  have h8 : Touches ps s0 s8 := by
    unfold s8
    split
    · exact State.calDone_touches (Part.sub rfl hp) h7
    · refine .ite ?_ ?_
      · exact State.runCov_touches (Part.sub rfl hp) (State.addTerms_touches (Part.sub rfl hp)
            (State.bumpCov_touches (Part.sub rfl hp) h7))
      · exact .ite (State.bumpCov_touches (Part.sub rfl hp) h7) h7
  clear_value s8
  exact .ite (State.selfFence_touches (Part.sub rfl hp) h8) h8

theorem State.setCheck_touches {ps : List Part} {s0 s : State} {c : Check} (hp : Part.within [.cal] ps = true)
    (h : Touches ps s0 s) :
    Touches ps s0 (State.setCheck s c) :=
  .updCal (Part.sub rfl hp) h

theorem State.passCheck_touches {ps : List Part} {s0 s : State} {c : Check} {flags : Nat}
    (hp : Part.within [.mem, .cal, .ques, .ebx, .evt, .dram, .out] ps = true) (h : Touches ps s0 s) :
    Touches ps s0 (State.passCheck s c flags) := by
  unfold State.passCheck
  extract_lets s1 _
  have h1 : Touches ps s0 s1 := State.dropCheck_touches (Part.sub rfl hp) h
  clear_value s1
  split
  · exact State.calDone_touches (Part.sub rfl hp) h1
  · exact State.runCov_touches (Part.sub rfl hp) (State.addTerms_touches (Part.sub rfl hp)
        (State.bumpCov_touches (Part.sub rfl hp) h1))

theorem State.checkFails_touches {ps : List Part} {s0 s : State} {c : Check} {code : Nat}
    (hp : Part.within [.pwr, .seq, .log, .mem, .cap, .met, .pnt, .chi, .cal, .jrn, .gimg, .ques, .ebx, .evt, .dram, .out] ps = true)
    (h : Touches ps s0 s) :
    Touches ps s0 (State.checkFails s c code) :=
  .ite (State.verdict_touches (Part.sub rfl hp) h) (.ite (.ite (State.endCheck_touches (Part.sub rfl hp) h)
    (State.calSiteEvent_touches (Part.sub rfl hp) (State.endCheck_touches (Part.sub rfl hp) h))) (.ite
    (State.endCheck_touches (Part.sub rfl hp) h) (State.calSiteEvent_touches (Part.sub rfl hp)
    (State.endCheck_touches (Part.sub rfl hp) h))))

theorem State.mismatch_touches {ps : List Part} {s0 s : State} {c : Check}
    (hp : Part.within [.pwr, .seq, .log, .mem, .cap, .met, .pnt, .chi, .cal, .jrn, .gimg, .ques, .ebx, .evt, .dram, .out] ps = true)
    (h : Touches ps s0 s) :
    Touches ps s0 (State.mismatch s c) :=
  .ite (State.verdict_touches (Part.sub rfl hp) h) (.updCal (Part.sub rfl hp) h)

theorem State.tileError_touches {ps : List Part} {s0 s : State} {t : Nat}
    (hp : Part.within [.pwr, .seq, .log, .mem, .cap, .met, .pnt, .chi, .cal, .jrn, .gimg, .ques, .ebx, .evt, .dram, .out] ps = true)
    (h : Touches ps s0 s) :
    Touches ps s0 (State.tileError s t) := by
  unfold State.tileError
  extract_lets _ _ s1 _ _ s2 s3 s4
  have h1 : Touches ps s0 s1 := .updCal (Part.sub rfl hp) h
  clear_value s1
  have h2 : Touches ps s0 s2 := .updCal (Part.sub rfl hp) h1
  clear_value s2
  have h3 : Touches ps s0 s3 := State.calEvent_touches (Part.sub rfl hp) (State.tileFree_touches (Part.sub rfl hp) h2)
  clear_value s3
  have h4 : Touches ps s0 s4 := .ite (.foldl (fun _ _ h => (State.verdict_touches (Part.sub rfl hp) h)) h3) h3
  clear_value s4
  exact .ite (State.calNext_touches (Part.sub rfl hp) h4) h1

theorem State.jobFails_touches {ps : List Part} {s0 s : State} {c : Check} {j : CalJob} {code : Nat}
    (hp : Part.within [.pwr, .seq, .log, .mem, .cap, .met, .pnt, .chi, .cal, .jrn, .gimg, .ques, .ebx, .evt, .dram, .out] ps = true)
    (h : Touches ps s0 s) :
    Touches ps s0 (State.jobFails s c j code) :=
  .ite (State.tileError_touches (Part.sub rfl hp) h) (.ite (State.setTileJob_touches (Part.sub rfl hp) h)
    (State.calNext_touches (Part.sub rfl hp) (State.checkFails_touches (Part.sub rfl hp) (State.tileFree_touches
    (Part.sub rfl hp) h))))

theorem State.expire_touches {ps : List Part} {s0 s : State} {c : Check}
    (hp : Part.within [.pwr, .seq, .log, .mem, .cap, .met, .pnt, .chi, .cal, .jrn, .gimg, .ques, .ebx, .evt, .dram, .out] ps = true)
    (h : Touches ps s0 s) :
    Touches ps s0 (State.expire s c) :=
  State.calNext_touches (Part.sub rfl hp) (.ite (State.endCheck_touches (Part.sub rfl hp) h) (State.verdict_touches
    (Part.sub rfl hp) h))

theorem State.judgeFirst_touches {ps : List Part} {s0 s : State} {c : Check} {j : CalJob} {fetched : Fetched}
    (hp : Part.within [.pwr, .seq, .log, .mem, .cap, .met, .pnt, .chi, .cal, .jrn, .gimg, .ques, .ebx, .evt, .dram, .out] ps = true)
    (h : Touches ps s0 s) :
    Touches ps s0 (State.judgeFirst s c j fetched) := by
  unfold State.judgeFirst
  extract_lets _ s1
  have h1 : Touches ps s0 s1 := State.tileFree_touches (Part.sub rfl hp) h
  clear_value s1
  split
  · exact State.jobFails_touches (Part.sub rfl hp) h
  · extract_lets _ _ _
    refine .ite ?_ ?_
    · refine .ite ?_ ?_
      · exact State.calNext_touches (Part.sub rfl hp) (State.passCheck_touches (Part.sub rfl hp) h1)
      · exact State.calNext_touches (Part.sub rfl hp) (State.mismatch_touches (Part.sub rfl hp) h1)
    · split
      · exact State.jobFails_touches (Part.sub rfl hp) h
      · extract_lets _ _
        refine .ite ?_ ?_
        · exact State.calNext_touches (Part.sub rfl hp) (State.passCheck_touches (Part.sub rfl hp) h1)
        · exact State.calNext_touches (Part.sub rfl hp) (State.mismatch_touches (Part.sub rfl hp) h1)

theorem State.writeResult_touches {ps : List Part} {s0 s : State} {d : Bytes} {p : ResPart} {r : CalRes}
    (hp : Part.within [.mem, .ebx, .dram, .out] ps = true) (h : Touches ps s0 s) :
    Touches ps s0 (State.writeResult s d p r) := by
  unfold State.writeResult
  extract_lets s1
  have h1 : Touches ps s0 s1 := .foldl (fun _ _ h => (State.give_touches (Part.sub rfl hp) h)) h
  clear_value s1
  exact .ite (.foldl (fun _ _ h => (State.give_touches (Part.sub rfl hp) h)) h1) h1

theorem State.blockDone_touches {ps : List Part} {s0 s : State} {c : Check} {j : CalJob} {fetched : Fetched}
    (hp : Part.within [.pwr, .seq, .log, .mem, .cap, .met, .pnt, .chi, .cal, .jrn, .gimg, .ques, .ebx, .evt, .dram, .out] ps = true)
    (h : Touches ps s0 s) :
    Touches ps s0 (State.blockDone s c j fetched) := by
  unfold State.blockDone
  split
  · exact State.jobFails_touches (Part.sub rfl hp) h
  · extract_lets m1s1 _
    have m1h1 : Touches ps s0 m1s1 := State.writeResult_touches (Part.sub rfl hp) (State.tileFree_touches
        (Part.sub rfl hp) h)
    clear_value m1s1
    split
    · exact State.calNext_touches (Part.sub rfl hp) (State.endCheck_touches (Part.sub rfl hp)
          (State.ownViolation_touches (Part.sub rfl hp) (State.tileFree_touches (Part.sub rfl hp) h)))
    · exact State.calNext_touches (Part.sub rfl hp) (.ite (State.calDone_touches (Part.sub rfl hp)
          (State.dropCheck_touches (Part.sub rfl hp) m1h1)) (State.setCheck_touches (Part.sub rfl hp) m1h1))
    · exact h

theorem execCaliperFirstComputeDone_touches {ps : List Part} {s0 : State} {check : Nat} {tile : Nat}
    {fetched : Fetched} {s : State}
    (hp : Part.within [.pwr, .seq, .log, .mem, .cap, .met, .pnt, .chi, .cal, .jrn, .gimg, .ques, .ebx, .evt, .dram, .out] ps = true)
    (h : Touches ps s0 s) :
    OTouches ps s0 (execCaliperFirstComputeDone check tile fetched s) := by
  unfold execCaliperFirstComputeDone
  refine State.coreDo_touches (Part.sub rfl hp) (fun _ hg => ?_) h
  split
  · refine .ite ?_ ?_
    · exact hg
    · refine .ite ?_ ?_
      · exact State.blockDone_touches (Part.sub rfl hp) hg
      · refine .ite ?_ ?_
        · exact State.expire_touches (Part.sub rfl hp) hg
        · exact State.judgeFirst_touches (Part.sub rfl hp) hg
  · exact hg

theorem State.judgeRecompute_touches {ps : List Part} {s0 s : State} {c : Check} {j : CalJob} {fetched : Fetched}
    (hp : Part.within [.pwr, .seq, .log, .mem, .cap, .met, .pnt, .chi, .cal, .jrn, .gimg, .ques, .ebx, .evt, .dram, .out] ps = true)
    (h : Touches ps s0 s) :
    Touches ps s0 (State.judgeRecompute s c j fetched) := by
  unfold State.judgeRecompute
  split
  · exact (State.jobFails_touches (Part.sub rfl hp) h)
  · exact (State.calNext_touches (Part.sub rfl hp) (.ite (State.setCheck_touches (Part.sub rfl hp) (State.tileFree_touches (Part.sub rfl hp) h)) (State.verdict_touches (Part.sub rfl hp) (State.tileFree_touches (Part.sub rfl hp) h))))

theorem execCaliperRecomputeDone_touches {ps : List Part} {s0 : State} {check : Nat} {tile : Nat}
    {fetched : Fetched} {s : State}
    (hp : Part.within [.pwr, .seq, .log, .mem, .cap, .met, .pnt, .chi, .cal, .jrn, .gimg, .ques, .ebx, .evt, .dram, .out] ps = true)
    (h : Touches ps s0 s) :
    OTouches ps s0 (execCaliperRecomputeDone check tile fetched s) := by
  unfold execCaliperRecomputeDone
  refine State.coreDo_touches (Part.sub rfl hp) (fun _ hg => ?_) h
  split
  · refine .ite ?_ ?_
    · exact hg
    · refine .ite ?_ ?_
      · exact State.expire_touches (Part.sub rfl hp) hg
      · exact State.judgeRecompute_touches (Part.sub rfl hp) hg
  · exact hg

theorem execCaliperFetchTimeout_touches {ps : List Part} {s0 : State} {job : CheckJob} {s : State}
    (hp : Part.within [.pwr, .seq, .log, .mem, .cap, .met, .pnt, .chi, .cal, .jrn, .gimg, .ques, .ebx, .evt, .dram, .out] ps = true)
    (h : Touches ps s0 s) :
    OTouches ps s0 (execCaliperFetchTimeout job s) := by
  unfold execCaliperFetchTimeout
  refine State.coreDo_touches (Part.sub rfl hp) (fun _ hg => ?_) h
  split
  · exact State.jobFails_touches (Part.sub rfl hp) hg
  · exact hg

theorem execCaliperOfferRetainExpiry_touches {ps : List Part} {s0 : State} {check : Nat} {s : State}
    (hp : Part.within [.pwr, .seq, .log, .mem, .cap, .met, .pnt, .chi, .cal, .jrn, .gimg, .ques, .ebx, .evt, .dram, .out] ps = true)
    (h : Touches ps s0 s) :
    OTouches ps s0 (execCaliperOfferRetainExpiry check s) := by
  unfold execCaliperOfferRetainExpiry
  refine State.coreDo_touches (Part.sub rfl hp) (fun _ hg => ?_) h
  split
  · exact hg
  · exact .ite (State.expire_touches (Part.sub rfl hp) hg) hg

theorem State.seeRun_touches {ps : List Part} {s0 s : State} {run : Nat} {site : Nat}
    (hp : Part.within [.cal] ps = true) (h : Touches ps s0 s) :
    Touches ps s0 (State.seeRun s run site) := by
  unfold State.seeRun
  extract_lets s1 _ _ _ _ _
  have h1 : Touches ps s0 s1 := State.latchSeed_touches (Part.sub rfl hp) h
  clear_value s1
  exact .ite h1 (.ite (.updCal (Part.sub rfl hp) h1) (.updCal (Part.sub rfl hp) h1))

theorem State.addCheck_touches {ps : List Part} {s0 s : State} {c : Check} (hp : Part.within [.pwr, .cal] ps = true)
    (h : Touches ps s0 s) :
    Touches ps s0 (State.addCheck s c) :=
  State.calNext_touches (Part.sub rfl hp) (State.askClock_touches (Part.sub rfl hp) (.updCal (Part.sub rfl hp)
    h))

theorem State.selectOffer_touches {ps : List Part} {s0 s : State} {n : Nat} {rec : Bytes}
    (hp : Part.within [.pwr, .log, .cal, .evt] ps = true) (h : Touches ps s0 s) :
    Touches ps s0 (State.selectOffer s n rec) := by
  unfold State.selectOffer
  extract_lets _ _ _ _ _ _ _ _ s1 _ _
  have h1 : Touches ps s0 s1 := State.bumpCov_touches (Part.sub rfl hp) h
  clear_value s1
  refine .ite ?_ ?_
  · exact h
  · refine .ite ?_ ?_
    · exact State.runCov_touches (Part.sub rfl hp) (State.bumpCov_touches (Part.sub rfl hp) h1)
    · refine .ite ?_ ?_
      · exact State.calSiteEvent_touches (Part.sub rfl hp) (State.bumpCov_touches (Part.sub rfl hp) h1)
      · exact State.addCheck_touches (Part.sub rfl hp) h1

theorem State.offer_touches {ps : List Part} {s0 s : State} {n : Nat} {rec : Bytes}
    (hp : Part.within [.pwr, .log, .cal, .evt] ps = true) (h : Touches ps s0 s) :
    Touches ps s0 (State.offer s n rec) := by
  unfold State.offer
  extract_lets _ _ _ _ _ _ _ _ s1 s2 s3 s4 _ s5 s6 s7
  have h1 : Touches ps s0 s1 := State.setCalSite_touches (Part.sub rfl hp) h
  clear_value s1
  have h2 : Touches ps s0 s2 := .ite (State.calSiteEvent_touches (Part.sub rfl hp) h1) h1
  clear_value s2
  have h3 : Touches ps s0 s3 := .ite (State.event_touches (Part.sub rfl hp) h2) h2
  clear_value s3
  have h4 : Touches ps s0 s4 := State.seeRun_touches (Part.sub rfl hp) h3
  clear_value s4
  have h5 : Touches ps s0 s5 := .updCal (Part.sub rfl hp) h4
  clear_value s5
  have h6 : Touches ps s0 s6 := State.addTerms_touches (Part.sub rfl hp) (State.bumpCov_touches (Part.sub rfl hp) h5)
  clear_value s6
  have h7 : Touches ps s0 s7 := State.runCov_touches (Part.sub rfl hp) h6
  clear_value s7
  refine .ite ?_ ?_
  · exact State.calSiteEvent_touches (Part.sub rfl hp) (State.bumpCov_touches (Part.sub rfl hp) h4)
  · exact State.selectOffer_touches (Part.sub rfl hp) h7

theorem execAuditOffer_touches {ps : List Part} {s0 : State} {port : Nat} {src : Nat} {rec : Bytes} {s : State}
    (hp : Part.within [.pwr, .log, .cal, .ebx, .evt, .out] ps = true) (h : Touches ps s0 s) :
    OTouches ps s0 (execAuditOffer port src rec s) :=
  State.coreDo_touches (Part.sub rfl hp) (fun _ h => (State.siteMsg_touches (Part.sub rfl hp) (fun _ _ h =>
    (State.offer_touches (Part.sub rfl hp) h)) h)) h

theorem execRunTableIdleExpiry_touches {ps : List Part} {s0 : State} {run : Nat} {s : State}
    (hp : Part.within [.cal] ps = true) (h : Touches ps s0 s) :
    OTouches ps s0 (execRunTableIdleExpiry run s) :=
  State.coreDo_touches (Part.sub rfl hp) (fun _ h => (.updCal (Part.sub rfl hp) h)) h

theorem State.descFails_touches {ps : List Part} {s0 s : State} {r : Req} {addr : Nat}
    (hp : Part.within [.mem, .cal, .ques, .ebx, .evt, .dram, .out] ps = true) (h : Touches ps s0 s) :
    Touches ps s0 (State.descFails s r addr) :=
  .ite (State.calDone_touches (Part.sub rfl hp) (.updCal (Part.sub rfl hp) h)) (.updCal (Part.sub rfl hp) h)

theorem State.descRead_touches {ps : List Part} {s0 s : State} {r : Req} (hp : Part.within [.cal] ps = true)
    (h : Touches ps s0 s) :
    Touches ps s0 (State.descRead s r) :=
  .updCal (Part.sub rfl hp) h

theorem execCheckDesc_touches {ps : List Part} {s0 : State} {r : Req} {e : Bytes} {fetched : Fetched} {s : State}
    (hp : Part.within [.pwr, .log, .mem, .cal, .ques, .ebx, .evt, .mgt, .dram, .out] ps = true)
    (h : Touches ps s0 s) :
    OTouches ps s0 (execCheckDesc r e fetched s) := by
  unfold execCheckDesc
  refine State.coreDo_touches (Part.sub rfl hp) (fun _ hg => ?_) h
  refine State.withRight_touches (Part.sub rfl hp) (fun _ ghg => ?_) hg
  extract_lets ggs1
  have ggh1 : Touches ps s0 ggs1 := State.descRead_touches (Part.sub rfl hp) ghg
  clear_value ggs1
  split
  · exact State.calDone_touches (Part.sub rfl hp) ghg
  · split
    · exact State.descFails_touches (Part.sub rfl hp) ghg
    · extract_lets _
      split
      · exact State.calDone_touches (Part.sub rfl hp) ggh1
      · exact State.addCheck_touches (Part.sub rfl hp) ggh1

theorem execComputeDesc_touches {ps : List Part} {s0 : State} {r : Req} {e : Bytes} {fetched : Fetched} {s : State}
    (hp : Part.within [.pwr, .log, .mem, .cal, .ques, .ebx, .evt, .mgt, .dram, .out] ps = true)
    (h : Touches ps s0 s) :
    OTouches ps s0 (execComputeDesc r e fetched s) := by
  unfold execComputeDesc
  refine State.coreDo_touches (Part.sub rfl hp) (fun _ hg => ?_) h
  refine State.withRight_touches (Part.sub rfl hp) (fun _ ghg => ?_) hg
  extract_lets ggs1
  have ggh1 : Touches ps s0 ggs1 := State.descRead_touches (Part.sub rfl hp) ghg
  clear_value ggs1
  split
  · exact State.calDone_touches (Part.sub rfl hp) ghg
  · split
    · exact State.descFails_touches (Part.sub rfl hp) ghg
    · split
      · exact State.calDone_touches (Part.sub rfl hp) ggh1
      · exact State.addCheck_touches (Part.sub rfl hp) ggh1

theorem execCalAuditRateWrite_touches {ps : List Part} {s0 : State} {r : Req} {site : Nat} {value : Nat} {s : State}
    (hp : Part.within [.log, .cal, .evt, .mgt] ps = true) (h : Touches ps s0 s) :
    OTouches ps s0 (execCalAuditRateWrite r site value s) :=
  State.coreDo_touches (Part.sub rfl hp) (fun _ h => (State.withWriteRight_touches (Part.sub rfl hp) (fun _ h =>
    (.ite h (State.setCalSite_touches (Part.sub rfl hp) h))) h)) h

theorem execCalAuditKeyWrite_touches {ps : List Part} {s0 : State} {r : Req} {key : Nat} {s : State}
    (hp : Part.within [.log, .cal, .evt, .mgt] ps = true) (h : Touches ps s0 s) :
    OTouches ps s0 (execCalAuditKeyWrite r key s) :=
  State.coreDo_touches (Part.sub rfl hp) (fun _ h => (State.withWriteRight_touches (Part.sub rfl hp) (fun _ h =>
    (.updCal (Part.sub rfl hp) h)) h)) h

theorem execCalCovClr_touches {ps : List Part} {s0 : State} {r : Req} {site : Nat} {s : State}
    (hp : Part.within [.log, .cal, .evt, .mgt] ps = true) (h : Touches ps s0 s) :
    OTouches ps s0 (execCalCovClr r site s) :=
  State.coreDo_touches (Part.sub rfl hp) (fun _ h => (State.withWriteRight_touches (Part.sub rfl hp) (fun _ h =>
    (.ite h (State.setCalSite_touches (Part.sub rfl hp) h))) h)) h

theorem execCalDisFromWrite_touches {ps : List Part} {s0 : State} {p : Path} {prin : Nat} {value : Nat} {s : State}
    (hp : Part.within [.log, .cal, .evt, .mgt] ps = true) (h : Touches ps s0 s) :
    OTouches ps s0 (execCalDisFromWrite p prin value s) :=
  State.coreDo_touches (Part.sub rfl hp) (fun _ h => (.ite (.updCal (Part.sub rfl hp) h)
    (State.refuseWrite_touches (Part.sub rfl hp) h))) h

theorem execCalDisRecAdvance_touches {ps : List Part} {s0 : State} {p : Path} {s : State}
    (hp : Part.within [.cal] ps = true) (h : Touches ps s0 s) :
    OTouches ps s0 (execCalDisRecAdvance p s) :=
  State.coreDo_touches (Part.sub rfl hp) (fun _ h => (.ite (.updCal (Part.sub rfl hp) h) h)) h

end Sys2Proof.Machine
end

