-- ==== Sys2Proof/Laws/Frames/Caps.lean ====
section
/-!
SUPPORT. Laws/Frames/Caps.lean: what each operation of Machine/Caps.lean changes: one lemma for each, by the rules of
Laws/Touches.
-/
set_option Elab.async false
namespace Sys2Proof.Machine

theorem execTrayBudgetWrite_touches {ps : List Part} {s0 : State} {r : Req} {value : Int} {s : State}
    (hp : Part.within [.log, .cap, .evt, .mgt] ps = true) (h : Touches ps s0 s) :
    OTouches ps s0 (execTrayBudgetWrite r value s) :=
  State.coreDo_touches (Part.sub rfl hp) (fun _ h => (State.withWriteRight_touches (Part.sub rfl hp) (fun _ h =>
    (.ite h (.ite (State.event_touches (Part.sub rfl hp) (.updCap (Part.sub rfl hp) h)) (.updCap (Part.sub
    rfl hp) h)))) h)) h

theorem execCapSwBoundWrite_touches {ps : List Part} {s0 : State} {r : Req} {site : Nat} {which : Nat} {value : Int}
    {s : State} (hp : Part.within [.log, .cap, .evt, .mgt] ps = true) (h : Touches ps s0 s) :
    OTouches ps s0 (execCapSwBoundWrite r site which value s) :=
  State.coreDo_touches (Part.sub rfl hp) (fun _ h => (State.withWriteRight_touches (Part.sub rfl hp) (fun _ h =>
    (.ite h (.ite (.ite (State.bumpSite_touches (Part.sub rfl hp) (State.setCapS_touches (Part.sub rfl hp) h))
    (State.setCapS_touches (Part.sub rfl hp) h)) (.ite (State.bumpSite_touches (Part.sub rfl hp)
    (State.setCapS_touches (Part.sub rfl hp) h)) (State.setCapS_touches (Part.sub rfl hp) h))))) h)) h

theorem State.setCap_touches {ps : List Part} {s0 s : State} {n : Nat} {v : Int}
    (hp : Part.within [.cap, .out] ps = true) (h : Touches ps s0 s) :
    Touches ps s0 (State.setCap s n v) := by
  unfold State.setCap
  extract_lets _
  refine .ite ?_ ?_
  · exact h
  · exact State.emit_touches (Part.sub rfl hp) (State.setCapS_touches (Part.sub rfl hp) h)

theorem State.divided_touches {ps : List Part} {s0 s : State} {n : Nat} {x : DivSite}
    (hp : Part.within [.log, .cap, .pnt, .evt, .out] ps = true) (h : Touches ps s0 s) :
    Touches ps s0 (State.divided s n x) := by
  unfold State.divided
  extract_lets _ _ _ s1 s2 s3 s4 _
  have h1 : Touches ps s0 s1 := State.setCapS_touches (Part.sub rfl hp) h
  clear_value s1
  have h2 : Touches ps s0 s2 := .ite (State.bumpSite_touches (Part.sub rfl hp) h1) h1
  clear_value s2
  have h3 : Touches ps s0 s3 := State.setCap_touches (Part.sub rfl hp) h2
  clear_value s3
  have h4 : Touches ps s0 s4 := .ite (State.capCut_touches (Part.sub rfl hp) h3) h3
  clear_value s4
  exact .ite (State.setCapS_touches (Part.sub rfl hp) h4) h4

theorem State.division_touches {ps : List Part} {s0 s : State}
    (hp : Part.within [.log, .cap, .pnt, .evt, .pair, .out] ps = true) (h : Touches ps s0 s) :
    Touches ps s0 (State.division s) := by
  unfold State.division
  extract_lets _ _ _ _ s1 s2 s3 s4 _
  have h1 : Touches ps s0 s1 := .updCap (Part.sub rfl hp) h
  clear_value s1
  have h2 : Touches ps s0 s2 := .ite h1 (State.capEvent_touches (Part.sub rfl hp) h1)
  clear_value s2
  have h3 : Touches ps s0 s3 := .ite (.updCap (Part.sub rfl hp) h) (.foldl (fun _ _ h => (.ite
      (State.setCapS_touches (Part.sub rfl hp) h) h)) h2)
  clear_value s3
  have h4 : Touches ps s0 s4 := .foldl (fun _ _ h => (State.divided_touches (Part.sub rfl hp) h)) h3
  clear_value s4
  exact .updPair (Part.sub rfl hp) h4

theorem State.guardWindow_touches {ps : List Part} {s0 s : State} {n : Nat}
    (hp : Part.within [.log, .cap, .pnt, .evt] ps = true) (h : Touches ps s0 s) :
    Touches ps s0 (State.guardWindow s n) := by
  unfold State.guardWindow
  extract_lets _ _ _ _ s1 s2 _ _
  have h1 : Touches ps s0 s1 := State.setCapS_touches (Part.sub rfl hp) h
  clear_value s1
  have h2 : Touches ps s0 s2 := .ite (State.capEvent_touches (Part.sub rfl hp) (State.bumpSite_touches
      (Part.sub rfl hp) h1)) h1
  clear_value s2
  refine .ite ?_ ?_
  · exact State.throttleNote_touches (Part.sub rfl hp) h2
  · refine .ite ?_ ?_
    · exact State.setCapS_touches (Part.sub rfl hp) h
    · exact State.setCapS_touches (Part.sub rfl hp) h

theorem execCapGuardWindow_touches {ps : List Part} {s0 : State} {site : Nat} {s : State}
    (hp : Part.within [.log, .cap, .pnt, .evt] ps = true) (h : Touches ps s0 s) :
    OTouches ps s0 (execCapGuardWindow site s) :=
  State.standbyDo_touches (Part.sub rfl hp) (fun _ h => (.ite (State.guardWindow_touches (Part.sub rfl hp) h) h)) h

theorem execSiteThrottleForceWrite_touches {ps : List Part} {s0 : State} {r : Req} {site : Nat} {level : Nat}
    {s : State} (hp : Part.within [.log, .cap, .pnt, .evt, .mgt] ps = true) (h : Touches ps s0 s) :
    OTouches ps s0 (execSiteThrottleForceWrite r site level s) :=
  State.coreDo_touches (Part.sub rfl hp) (fun _ h => (State.withWriteRight_touches (Part.sub rfl hp) (fun _ h =>
    (.ite h (State.throttleNote_touches (Part.sub rfl hp) (State.setCapS_touches (Part.sub rfl hp) h)))) h)) h

theorem execSiteVout_touches {ps : List Part} {s0 : State} {r : Req} {site : Nat} {rail : Nat} {code : Nat}
    {s : State} (hp : Part.within [.log, .mem, .cap, .ques, .ebx, .evt, .mgt, .dram, .out] ps = true)
    (h : Touches ps s0 s) :
    OTouches ps s0 (execSiteVout r site rail code s) := by
  unfold execSiteVout
  refine State.coreDo_touches (Part.sub rfl hp) (fun _ hg => ?_) h
  refine State.withWriteRight_touches (Part.sub rfl hp) (fun _ ghg => ?_) hg
  split
  · extract_lets _ ggm0s1
    have ggm0h1 : Touches ps s0 ggm0s1 := .ite (State.bumpSite_touches (Part.sub rfl hp) ghg) ghg
    clear_value ggm0s1
    exact State.complete_touches (Part.sub rfl hp) (State.emit_touches (Part.sub rfl hp) ggm0h1)
  · exact State.complete_touches (Part.sub rfl hp) ghg

theorem State.reliefTrigger_touches {ps : List Part} {s0 s : State} {trig : Nat} {level : Nat}
    (hp : Part.within [.log, .cap, .rel, .pnt, .evt] ps = true) (h : Touches ps s0 s) :
    Touches ps s0 (State.reliefTrigger s trig level) := by
  unfold State.reliefTrigger
  extract_lets _ _ _ _ _
  exact State.throttleNote_touches (Part.sub rfl hp) (.updRel (Part.sub rfl hp) h)

theorem State.busKeep_touches {ps : List Part} {s0 s : State} {v : Option Nat} {i : Option Int}
    (hp : Part.within [.snap, .rel, .met] ps = true) (h : Touches ps s0 s) :
    Touches ps s0 (State.busKeep s v i) :=
  State.busSeen_touches (Part.sub rfl hp) h

theorem State.crossV_touches {ps : List Part} {s0 s : State}
    (hp : Part.within [.log, .cap, .rel, .pnt, .evt] ps = true) (h : Touches ps s0 s) :
    Touches ps s0 (State.crossV s) :=
  State.reliefTrigger_touches (Part.sub rfl hp) (State.bump_touches (Part.sub rfl hp) (fun _ _ h => (.updRel
    (Part.sub rfl hp) h)) h)

theorem State.crossI_touches {ps : List Part} {s0 s : State}
    (hp : Part.within [.log, .cap, .rel, .pnt, .evt] ps = true) (h : Touches ps s0 s) :
    Touches ps s0 (State.crossI s) :=
  State.reliefTrigger_touches (Part.sub rfl hp) (State.bump_touches (Part.sub rfl hp) (fun _ _ h => (.updRel
    (Part.sub rfl hp) h)) h)

theorem State.enterStage2_touches {ps : List Part} {s0 s : State} {v : Nat} {i : Int}
    (hp : Part.within [.log, .cap, .rel, .pnt, .evt] ps = true) (h : Touches ps s0 s) :
    Touches ps s0 (State.enterStage2 s v i) :=
  .ite (State.reliefTrigger_touches (Part.sub rfl hp) (State.bump_touches (Part.sub rfl hp) (fun _ _ h => (.upd
    [.rel] (Part.sub rfl hp) h)) h)) h

theorem execReliefVoltageCrossing_touches {ps : List Part} {s0 : State} {busV : Nat} {s : State}
    (hp : Part.within [.log, .snap, .cap, .rel, .met, .pnt, .evt] ps = true) (h : Touches ps s0 s) :
    OTouches ps s0 (execReliefVoltageCrossing busV s) :=
  State.standbyDo_touches (Part.sub rfl hp) (fun _ h => (State.enterStage2_touches (Part.sub rfl hp) (.ite
    (State.crossV_touches (Part.sub rfl hp) (State.busKeep_touches (Part.sub rfl hp) h)) (State.busKeep_touches
    (Part.sub rfl hp) h)))) h

theorem execReliefCurrentCrossing_touches {ps : List Part} {s0 : State} {busI : Int} {s : State}
    (hp : Part.within [.log, .snap, .cap, .rel, .met, .pnt, .evt] ps = true) (h : Touches ps s0 s) :
    OTouches ps s0 (execReliefCurrentCrossing busI s) :=
  State.standbyDo_touches (Part.sub rfl hp) (fun _ h => (State.enterStage2_touches (Part.sub rfl hp) (.ite
    (State.crossI_touches (Part.sub rfl hp) (State.busKeep_touches (Part.sub rfl hp) h)) (State.busKeep_touches
    (Part.sub rfl hp) h)))) h

theorem execReliefStage2_touches {ps : List Part} {s0 : State} {busV : Nat} {busI : Int} {s : State}
    (hp : Part.within [.log, .snap, .cap, .rel, .met, .pnt, .evt] ps = true) (h : Touches ps s0 s) :
    OTouches ps s0 (execReliefStage2 busV busI s) :=
  State.standbyDo_touches (Part.sub rfl hp) (fun _ h => (State.enterStage2_touches (Part.sub rfl hp)
    (State.busKeep_touches (Part.sub rfl hp) h))) h

theorem execReliefReleaseCondition_touches {ps : List Part} {s0 : State} {bus : Bus} {s : State}
    (hp : Part.within [.log, .snap, .cap, .rel, .met, .pnt, .evt] ps = true) (h : Touches ps s0 s) :
    OTouches ps s0 (execReliefReleaseCondition bus s) := by
  unfold execReliefReleaseCondition
  refine State.standbyDo_touches (Part.sub rfl hp) (fun _ hg => ?_) h
  extract_lets gs1 _
  have gh1 : Touches ps s0 gs1 := State.busKeep_touches (Part.sub rfl hp) hg
  clear_value gs1
  refine .ite ?_ ?_
  · exact gh1
  · refine .ite ?_ ?_
    · refine .ite ?_ ?_
      · exact .updRel (Part.sub rfl hp) gh1
      · exact State.throttleNote_touches (Part.sub rfl hp) (.updRel (Part.sub rfl hp) gh1)
    · exact .updRel (Part.sub rfl hp) gh1

theorem State.reliefRecord_touches {ps : List Part} {s0 s : State} (hp : Part.within [.log, .evt] ps = true)
    (h : Touches ps s0 s) :
    Touches ps s0 (State.reliefRecord s) := by
  unfold State.reliefRecord
  extract_lets _
  exact State.record_touches (Part.sub rfl hp) h

theorem execReliefReleaseStepExpiry_touches {ps : List Part} {s0 s : State}
    (hp : Part.within [.log, .cap, .rel, .pnt, .evt] ps = true) (h : Touches ps s0 s) :
    OTouches ps s0 (execReliefReleaseStepExpiry s) :=
  State.standbyDo_touches (Part.sub rfl hp) (fun _ h => (.ite (.ite (State.throttleNote_touches (Part.sub rfl hp)
    (.updRel (Part.sub rfl hp) h)) (State.reliefRecord_touches (Part.sub rfl hp) (.updRel (Part.sub rfl hp)
    h))) h)) h

theorem State.setPatina_touches {ps : List Part} {s0 s : State} {n : Nat} {x : PatinaSet}
    (hp : Part.within [.pat] ps = true) (h : Touches ps s0 s) :
    Touches ps s0 (State.setPatina s n x) :=
  .updPat (Part.sub rfl hp) h

theorem State.setFan_touches {ps : List Part} {s0 s : State} {c : Nat} {x : FanCh}
    (hp : Part.within [.cool] ps = true) (h : Touches ps s0 s) :
    Touches ps s0 (State.setFan s c x) :=
  .updCool (Part.sub rfl hp) h

theorem State.bumpPatina_touches {ps : List Part} {s0 s : State} {n : Nat} {k : Nat}
    (hp : Part.within [.pat, .evt] ps = true) (h : Touches ps s0 s) :
    Touches ps s0 (State.bumpPatina s n k) :=
  State.bump_touches (Part.sub rfl hp) (fun _ _ h => (State.setPatina_touches (Part.sub rfl hp) h)) h

theorem State.patinaTemp_touches {ps : List Part} {s0 s : State} {n : Nat} {t : Int}
    (hp : Part.within [.pat, .evt] ps = true) (h : Touches ps s0 s) :
    Touches ps s0 (State.patinaTemp s n t) := by
  unfold State.patinaTemp
  extract_lets s1 _ s2
  have h1 : Touches ps s0 s1 := State.bumpPatina_touches (Part.sub rfl hp) h
  clear_value s1
  have h2 : Touches ps s0 s2 := State.setPatina_touches (Part.sub rfl hp) h1
  clear_value s2
  exact .ite (State.bumpPatina_touches (Part.sub rfl hp) h2) h2

theorem State.patinaSite_touches {ps : List Part} {s0 s : State} {n : Nat} (hp : Part.within [.pat, .evt] ps = true)
    (h : Touches ps s0 s) :
    Touches ps s0 (State.patinaSite s n) := by
  unfold State.patinaSite
  extract_lets s1 _
  have h1 : Touches ps s0 s1 := by
    unfold s1
    exact by split; exact (State.patinaTemp_touches (Part.sub rfl hp) h); exact h
  clear_value s1
  refine .ite ?_ ?_
  · exact h
  · exact by split; exact (State.bumpPatina_touches (Part.sub rfl hp) h1); exact h1

theorem execPatinaSecond_touches {ps : List Part} {s0 s : State} (hp : Part.within [.pat, .evt] ps = true)
    (h : Touches ps s0 s) :
    OTouches ps s0 (execPatinaSecond s) :=
  State.standbyDo_touches (Part.sub rfl hp) (fun _ h => (.foldl (fun _ _ h => (.ite (State.bump_touches (Part.sub
    rfl hp) (fun _ _ h => (.updPat (Part.sub rfl hp) h)) h) h)) (.ite (State.bumpPatina_touches (Part.sub rfl
    hp) (.foldl (fun _ _ h => (State.patinaSite_touches (Part.sub rfl hp) h)) h)) (.foldl (fun _ _ h =>
    (State.patinaSite_touches (Part.sub rfl hp) h)) h)))) h

theorem State.patinaRecords_touches {ps : List Part} {s0 s : State} (hp : Part.within [.log, .evt] ps = true)
    (h : Touches ps s0 s) :
    Touches ps s0 (State.patinaRecords s) := by
  unfold State.patinaRecords
  extract_lets _ s1
  have h1 : Touches ps s0 s1 := .foldl (fun _ _ h => (State.record_touches (Part.sub rfl hp)
      (State.record_touches (Part.sub rfl hp) h))) h
  clear_value s1
  exact .foldl (fun _ _ h => (.ite (State.record_touches (Part.sub rfl hp) h) h)) h1

theorem execPatinaRecordWrite_touches {ps : List Part} {s0 s : State} (hp : Part.within [.log, .evt] ps = true)
    (h : Touches ps s0 s) :
    OTouches ps s0 (execPatinaRecordWrite s) :=
  State.standbyDo_touches (Part.sub rfl hp) (fun _ h => (State.patinaRecords_touches (Part.sub rfl hp) h)) h

end Sys2Proof.Machine
end

