-- ==== Sys2Proof/Laws/Frames/Log.lean ====
section
/-!
SUPPORT. Laws/Frames/Log.lean: what each operation of Machine/Log.lean changes: one lemma for each, by the rules of
Laws/Touches.
-/
set_option Elab.async false
namespace Sys2Proof.Machine

theorem State.pageLand_touches {ps : List Part} {s0 s : State} (hp : Part.within [.log, .flash0, .flash1] ps = true)
    (h : Touches ps s0 s) :
    Touches ps s0 (State.pageLand s) := by
  unfold State.pageLand
  split
  · exact h
  · extract_lets m1s1 m1s2 _ _ m1s3
    have m1h1 : Touches ps s0 m1s1 := .ite h (State.fwrite_touches (Part.sub rfl hp) h)
    clear_value m1s1
    have m1h2 : Touches ps s0 m1s2 := .ite m1h1 (State.fwrite_touches (Part.sub rfl hp) m1h1)
    clear_value m1s2
    have m1h3 : Touches ps s0 m1s3 := .updLog (Part.sub rfl hp) m1h2
    clear_value m1s3
    exact m1h3

theorem State.pageDone_touches {ps : List Part} {s0 s : State} (hp : Part.within [.log, .flash0, .flash1] ps = true)
    (h : Touches ps s0 s) :
    Touches ps s0 (State.pageDone s) :=
  .ite (State.startPage_touches (Part.sub rfl hp) (State.flushGap_touches (Part.sub rfl hp) (State.pageLand_touches
    (Part.sub rfl hp) h))) h

theorem execLogPageProgramDone_touches {ps : List Part} {s0 s : State}
    (hp : Part.within [.log, .flash0, .flash1] ps = true) (h : Touches ps s0 s) :
    OTouches ps s0 (execLogPageProgramDone s) :=
  State.standbyDo_touches (Part.sub rfl hp) (fun _ h => (State.pageDone_touches (Part.sub rfl hp) h)) h

theorem execLogSectorEraseDone_touches {ps : List Part} {s0 s : State}
    (hp : Part.within [.log, .flash0, .flash1] ps = true) (h : Touches ps s0 s) :
    OTouches ps s0 (execLogSectorEraseDone s) := by
  unfold execLogSectorEraseDone
  refine State.standbyDo_touches (Part.sub rfl hp) (fun _ hg => ?_) h
  extract_lets _ gs1 _
  have gh1 : Touches ps s0 gs1 := State.ferase_touches (Part.sub rfl hp) (State.ferase_touches (Part.sub rfl hp) hg)
  clear_value gs1
  exact .ite hg (State.startPage_touches (Part.sub rfl hp) (.updLog (Part.sub rfl hp) gh1))

theorem State.pageDrop_touches {ps : List Part} {s0 s : State} (hp : Part.within [.log] ps = true)
    (h : Touches ps s0 s) :
    Touches ps s0 (State.pageDrop s) := by
  unfold State.pageDrop
  split
  · exact h
  · exact (.updLog (Part.sub rfl hp) h)

theorem execLogDeviceTimeout_touches {ps : List Part} {s0 : State} {dev : Nat} {s : State}
    (hp : Part.within [.log, .evt] ps = true) (h : Touches ps s0 s) :
    OTouches ps s0 (execLogDeviceTimeout dev s) :=
  State.standbyDo_touches (Part.sub rfl hp) (fun _ h => (.ite h (.ite (State.pageDrop_touches (Part.sub rfl hp)
    (State.event_touches (Part.sub rfl hp) (.updLog (Part.sub rfl hp) h))) (State.event_touches (Part.sub rfl
    hp) (.updLog (Part.sub rfl hp) h))))) h

theorem execLogRingRecoveryDone_touches {ps : List Part} {s0 s : State}
    (hp : Part.within [.log, .flash0, .flash1] ps = true) (h : Touches ps s0 s) :
    OTouches ps s0 (execLogRingRecoveryDone s) := by
  unfold execLogRingRecoveryDone
  refine State.standbyDo_touches (Part.sub rfl hp) (fun _ hg => ?_) h
  extract_lets _ gs1 _ _ gs2
  have gh1 : Touches ps s0 gs1 := State.ferase_touches (Part.sub rfl hp) (State.ferase_touches (Part.sub rfl hp) hg)
  clear_value gs1
  have gh2 : Touches ps s0 gs2 := by
    unfold gs2
    split
    · extract_lets _
      exact .updLog (Part.sub rfl hp) hg
    · exact .updLog (Part.sub rfl hp) gh1
  clear_value gs2
  exact .ite hg (State.startPage_touches (Part.sub rfl hp) gh2)

theorem State.skipTorn_touches {ps : List Part} {s0 s : State} {p k : Nat} (hp : Part.within [.log, .evt] ps = true)
    (h : Touches ps s0 s) : Touches ps s0 (State.skipTorn s p k) := by
  induction k generalizing s with
  | zero => exact h
  | succ k ih =>
    unfold State.skipTorn
    dsimp only
    split
    · exact ih (.updLog (Part.sub rfl hp)
        (State.bump_touches (Part.sub rfl hp) (fun _ _ h => .updLog (Part.sub rfl hp) h) h))
    · exact State.bump_touches (Part.sub rfl hp) (fun _ _ h => .updLog (Part.sub rfl hp) h) h
    · exact h

theorem State.logReadFrom_touches {ps : List Part} {s0 s : State} {p : Path} {value : Nat}
    (hp : Part.within [.log, .evt, .acc] ps = true) (h : Touches ps s0 s) :
    Touches ps s0 (State.logReadFrom s p value) := by
  unfold State.logReadFrom
  extract_lets _ _ _ _ _ s1
  have h1 : Touches ps s0 s1 := .updLogAcc (Part.sub rfl hp) h
  clear_value s1
  exact State.skipTorn_touches (Part.sub rfl hp) h1

theorem execLogReadFromWrite_touches {ps : List Part} {s0 : State} {p : Path} {prin : Nat} {value : Nat} {s : State}
    (hp : Part.within [.log, .evt, .mgt, .acc] ps = true) (h : Touches ps s0 s) :
    OTouches ps s0 (execLogReadFromWrite p prin value s) :=
  State.coreDo_touches (Part.sub rfl hp) (fun _ h => (.ite (State.logReadFrom_touches (Part.sub rfl hp) h)
    (State.refuseWrite_touches (Part.sub rfl hp) h))) h

theorem State.logAdvance_touches {ps : List Part} {s0 s : State} {p : Nat} (hp : Part.within [.log, .evt] ps = true)
    (h : Touches ps s0 s) :
    Touches ps s0 (State.logAdvance s p) := by
  unfold State.logAdvance
  extract_lets _ _
  split
  · exact h
  · exact State.skipTorn_touches (Part.sub rfl hp) (.updLog (Part.sub rfl hp) h)

theorem execLogReadAdvance_touches {ps : List Part} {s0 : State} {p : Path} {s : State}
    (hp : Part.within [.log, .evt] ps = true) (h : Touches ps s0 s) :
    OTouches ps s0 (execLogReadAdvance p s) :=
  State.coreDo_touches (Part.sub rfl hp) (fun _ h => (State.logAdvance_touches (Part.sub rfl hp) h)) h

theorem State.snapshot_touches {ps : List Part} {s0 s : State} {kind : Nat}
    (hp : Part.within [.rcnt, .log, .snap, .flash0, .flash1] ps = true) (h : Touches ps s0 s) :
    Touches ps s0 (State.snapshot s kind) := by
  unfold State.snapshot
  extract_lets _
  split
  · exact h
  · refine .ite ?_ ?_
    · exact h
    · split
      · exact .updLog (Part.sub rfl hp) h
      · extract_lets _ m1bm1s1 _ _
        have m1bm1h1 : Touches ps s0 m1bm1s1 := State.fwriteBoth_touches (Part.sub rfl hp) h
        clear_value m1bm1s1
        exact .updRcntSnap (Part.sub rfl hp) m1bm1h1

theorem execSnapshotPeriodicTimer_touches {ps : List Part} {s0 s : State}
    (hp : Part.within [.rcnt, .log, .snap, .flash0, .flash1] ps = true) (h : Touches ps s0 s) :
    OTouches ps s0 (execSnapshotPeriodicTimer s) :=
  State.standbyDo_touches (Part.sub rfl hp) (fun _ h => (.ite (State.snapshot_touches (Part.sub rfl hp) h) h)) h

theorem State.snapDone_touches {ps : List Part} {s0 s : State}
    (hp : Part.within [.snap, .flash0, .flash1] ps = true) (h : Touches ps s0 s) :
    Touches ps s0 (State.snapDone s) := by
  unfold State.snapDone
  extract_lets _
  split
  · exact h
  · extract_lets _ _ _ _ _ m1s1 _
    have m1h1 : Touches ps s0 m1s1 := State.fwriteBoth_touches (Part.sub rfl hp) h
    clear_value m1s1
    exact .ite (.updSnap (Part.sub rfl hp) h) (.updSnap (Part.sub rfl hp) m1h1)

theorem execSnapshotBankEraseDone_touches {ps : List Part} {s0 : State} {bank : Nat} {s : State}
    (hp : Part.within [.snap, .flash0, .flash1] ps = true) (h : Touches ps s0 s) :
    OTouches ps s0 (execSnapshotBankEraseDone bank s) := by
  unfold execSnapshotBankEraseDone
  refine State.standbyDo_touches (Part.sub rfl hp) (fun _ hg => ?_) h
  extract_lets _ gs1 gs2 _
  have gh1 : Touches ps s0 gs1 := .ite (State.ferase_touches (Part.sub rfl hp) hg) hg
  clear_value gs1
  have gh2 : Touches ps s0 gs2 := .ite (State.ferase_touches (Part.sub rfl hp) gh1) gh1
  clear_value gs2
  exact .ite hg (.updSnap (Part.sub rfl hp) gh2)

theorem State.eraseBadBanks_touches {ps : List Part} {s0 s : State} {keep : Option Nat}
    (hp : Part.within [.snap] ps = true) (h : Touches ps s0 s) :
    Touches ps s0 (State.eraseBadBanks s keep) :=
  .foldl (fun _ _ h => (.ite (.updSnap (Part.sub rfl hp) h) h)) h

theorem State.eraseOld_touches {ps : List Part} {s0 s : State} (hp : Part.within [.snap] ps = true)
    (h : Touches ps s0 s) :
    Touches ps s0 (State.eraseOld s) := by
  unfold State.eraseOld
  extract_lets _ _
  split
  · exact .updSnap (Part.sub rfl hp) h
  · exact h

theorem State.restoreCounters_touches {ps : List Part} {s0 s : State}
    (hp : Part.within [.rcnt, .log, .snap, .evt] ps = true) (h : Touches ps s0 s) :
    Touches ps s0 (State.restoreCounters s) := by
  unfold State.restoreCounters
  extract_lets _ s1
  have h1 : Touches ps s0 s1 := .updRcntLog (Part.sub rfl hp) h
  clear_value s1
  refine .ite ?_ ?_
  · exact State.eraseOld_touches (Part.sub rfl hp) (State.eraseBadBanks_touches (Part.sub rfl hp) h)
  · split
    · extract_lets _
      exact State.eraseOld_touches (Part.sub rfl hp) (State.eraseBadBanks_touches (Part.sub rfl hp) (.upd
          [.rcnt] (Part.sub rfl hp) h))
    · exact State.eraseBadBanks_touches (Part.sub rfl hp) (State.event_touches (Part.sub rfl hp) h1)

end Sys2Proof.Machine
end

