-- ==== Sys2Proof/Laws/Frames/Hazard.lean ====
section
/-!
SUPPORT. Laws/Frames/Hazard.lean: what each operation of Machine/Hazard.lean changes: one lemma for each, by the rules of
Laws/Touches.
-/
set_option Elab.async false
namespace Sys2Proof.Machine

theorem State.setCzone_touches {ps : List Part} {s0 s : State} {z : Nat} {x : Zone}
    (hp : Part.within [.cool] ps = true) (h : Touches ps s0 s) :
    Touches ps s0 (State.setCzone s z x) :=
  .updCool (Part.sub rfl hp) h

theorem State.setValve_touches {ps : List Part} {s0 s : State} {v : Nat} {x : Valve}
    (hp : Part.within [.cool] ps = true) (h : Touches ps s0 s) :
    Touches ps s0 (State.setValve s v x) :=
  .updCool (Part.sub rfl hp) h

theorem State.setLeak_touches {ps : List Part} {s0 s : State} {n : Nat} {x : LeakSensor}
    (hp : Part.within [.haz] ps = true) (h : Touches ps s0 s) :
    Touches ps s0 (State.setLeak s n x) :=
  .updHaz (Part.sub rfl hp) h

theorem State.setLzone_touches {ps : List Part} {s0 s : State} {z : Nat} {x : LeakZone}
    (hp : Part.within [.haz] ps = true) (h : Touches ps s0 s) :
    Touches ps s0 (State.setLzone s z x) :=
  .updHaz (Part.sub rfl hp) h

theorem State.coolantEvent_touches {ps : List Part} {s0 s : State} {src : Nat} {kind : Nat} {value : Nat}
    {limit : Nat} {mask : Nat} (hp : Part.within [.log, .evt] ps = true) (h : Touches ps s0 s) :
    Touches ps s0 (State.coolantEvent s src kind value limit mask) :=
  State.record_touches (Part.sub rfl hp) h

theorem State.confirmValve_touches {ps : List Part} {s0 s : State} {v : Nat} {x : Valve}
    (hp : Part.within [.log, .cool, .evt] ps = true) (h : Touches ps s0 s) :
    Touches ps s0 (State.confirmValve s v x) := by
  unfold State.confirmValve
  extract_lets s1
  have h1 : Touches ps s0 s1 := State.setValve_touches (Part.sub rfl hp) h
  clear_value s1
  exact .ite (State.coolantEvent_touches (Part.sub rfl hp) h1) h1

theorem State.moveValve_touches {ps : List Part} {s0 s : State} {v : Nat} {x : Valve}
    (hp : Part.within [.log, .cool, .evt, .out] ps = true) (h : Touches ps s0 s) :
    Touches ps s0 (State.moveValve s v x) := by
  unfold State.moveValve
  extract_lets _ _ s1 _ s2
  have h1 : Touches ps s0 s1 := State.setValve_touches (Part.sub rfl hp) h
  clear_value s1
  have h2 : Touches ps s0 s2 := .ite (State.confirmValve_touches (Part.sub rfl hp) h1) (State.setValve_touches
      (Part.sub rfl hp) h1)
  clear_value s2
  exact .ite h1 (.ite h2 (State.emit_touches (Part.sub rfl hp) h2))

theorem State.leakEvent_touches {ps : List Part} {s0 s : State} {src : Nat} {kind : Nat} {x : LeakSensor} {z : Nat}
    {react : Nat} {ev : Nat} {mask : Nat} (hp : Part.within [.log, .evt] ps = true) (h : Touches ps s0 s) :
    Touches ps s0 (State.leakEvent s src kind x z react ev mask) :=
  State.record_touches (Part.sub rfl hp) h

theorem State.withDrive_touches {ps : List Part} {s0 s : State} {f : State → State}
    (hp : Part.within [.out] ps = true) (hf : ∀ (s' : State) (_ : Touches ps s0 s'), Touches ps s0 (f s'))
    (h : Touches ps s0 s) :
    Touches ps s0 (State.withDrive s f) := by
  unfold State.withDrive
  extract_lets s1
  have h1 : Touches ps s0 s1 := hf _ h
  clear_value s1
  exact .ite h1 (.foldl (fun _ _ h => (.ite h (State.emit_touches (Part.sub rfl hp) h))) h1)

theorem State.startAll_touches {ps : List Part} {s0 s : State} (hp : Part.within [.cool, .out] ps = true)
    (h : Touches ps s0 s) :
    Touches ps s0 (State.startAll s) :=
  State.withDrive_touches (Part.sub rfl hp) (fun _ h => (.foldl (fun _ _ h => (.ite h (State.setFan_touches
    (Part.sub rfl hp) h))) h)) h

theorem State.forceNow_touches {ps : List Part} {s0 s : State} (hp : Part.within [.cool, .out] ps = true)
    (h : Touches ps s0 s) :
    Touches ps s0 (State.forceNow s) := by
  unfold State.forceNow
  refine .ite ?_ ?_
  · refine State.withDrive_touches (Part.sub rfl hp) (fun _ ahg => ?_) h
    refine .foldl (fun _ _ aghf => ?_) ahg
    extract_lets _
    refine .ite ?_ ?_
    · exact aghf
    · refine .ite ?_ ?_
      · exact State.setFan_touches (Part.sub rfl hp) aghf
      · split
        · exact aghf
        · extract_lets _
          split
          · exact State.setFan_touches (Part.sub rfl hp) aghf
          · exact State.setFan_touches (Part.sub rfl hp) aghf
          · exact State.setFan_touches (Part.sub rfl hp) aghf
          · exact State.setFan_touches (Part.sub rfl hp) aghf
  · exact h

theorem State.hazardDown_touches {ps : List Part} {s0 s : State} {n : Nat}
    (hp : Part.within [.pwr, .seq, .log, .mem, .cap, .met, .pnt, .chi, .cal, .jrn, .ques, .ebx, .evt, .dram, .out] ps = true)
    (h : Touches ps s0 s) :
    Touches ps s0 (State.hazardDown s n) := by
  unfold State.hazardDown
  split
  · exact (State.settle_touches (Part.sub rfl hp) (State.siteDownSeq_touches (Part.sub rfl hp) h))
  · exact (State.settle_touches (Part.sub rfl hp) (State.siteDownSeq_touches (Part.sub rfl hp) h))
  · exact (State.settle_touches (Part.sub rfl hp) (State.siteDownSeq_touches (Part.sub rfl hp) h))
  · exact (State.siteTo_touches (Part.sub rfl hp) h)
  · exact (State.setSite_touches (Part.sub rfl hp) h)
  · exact h

theorem State.react_touches {ps : List Part} {s0 s : State} {z : Nat} {r : Nat} {ev : Nat}
    (hp : Part.within [.pwr, .seq, .log, .mem, .cap, .met, .pnt, .haz, .cool, .chi, .cal, .jrn, .ques, .ebx, .evt, .dram, .out] ps = true)
    (h : Touches ps s0 s) :
    Touches ps s0 (State.react s z r ev) := by
  unfold State.react
  extract_lets _ _ _ _ _ _ s1 s2 s3 s4 s5 s6
  have h1 : Touches ps s0 s1 := State.setLzone_touches (Part.sub rfl hp) h
  clear_value s1
  have h2 : Touches ps s0 s2 := by
    unfold s2
    refine .foldl (fun _ _ k2hf => ?_) h1
    extract_lets _
    split
    · exact k2hf
    · exact k2hf
    · exact k2hf
    · exact State.setCapS_touches (Part.sub rfl hp) k2hf
  clear_value s2
  have h3 : Touches ps s0 s3 := State.throttleNote_touches (Part.sub rfl hp) h2
  clear_value s3
  have h4 : Touches ps s0 s4 := .foldl (fun _ _ h => (State.moveValve_touches (Part.sub rfl hp) h)) h3
  clear_value s4
  have h5 : Touches ps s0 s5 := .foldl (fun _ _ h => (State.hazardDown_touches (Part.sub rfl hp) h)) h4
  clear_value s5
  have h6 : Touches ps s0 s6 := State.forceNow_touches (Part.sub rfl hp) h5
  clear_value s6
  refine .ite ?_ ?_
  · exact State.leakEvent_touches (Part.sub rfl hp) (State.event_touches (Part.sub rfl hp)
        (State.setLzone_touches (Part.sub rfl hp) h))
  · exact State.leakEvent_touches (Part.sub rfl hp) h6

theorem State.leakJudge_touches {ps : List Part} {s0 s : State} {z : Nat}
    (hp : Part.within [.pwr, .seq, .log, .mem, .cap, .met, .pnt, .haz, .cool, .chi, .cal, .jrn, .ques, .ebx, .evt, .dram, .out] ps = true)
    (h : Touches ps s0 s) :
    Touches ps s0 (State.leakJudge s z) := by
  unfold State.leakJudge
  extract_lets _ _ s1 v3 _ _ _ s2
  have h1 : Touches ps s0 s1 := State.setLzone_touches (Part.sub rfl hp) h
  clear_value s1
  have h2 : Touches ps s0 s2 := by
    unfold s2
    clear_value v3
    split
    · exact State.leakEvent_touches (Part.sub rfl hp) h1
    · exact h1
  clear_value s2
  exact .ite (.ite h2 (State.react_touches (Part.sub rfl hp) h2)) h1

theorem State.leakJudgeAll_touches {ps : List Part} {s0 s : State}
    (hp : Part.within [.pwr, .seq, .log, .mem, .cap, .met, .pnt, .haz, .cool, .chi, .cal, .jrn, .ques, .ebx, .evt, .dram, .out] ps = true)
    (h : Touches ps s0 s) :
    Touches ps s0 (State.leakJudgeAll s) :=
  .foldl (fun _ _ h => (State.leakJudge_touches (Part.sub rfl hp) h)) h

theorem State.leakRead_touches {ps : List Part} {s0 s : State} {n : Nat} {cls : Nat}
    (hp : Part.within [.pwr, .seq, .log, .mem, .cap, .met, .pnt, .haz, .cool, .chi, .cal, .jrn, .ques, .ebx, .evt, .dram, .out] ps = true)
    (h : Touches ps s0 s) :
    Touches ps s0 (State.leakRead s n cls) := by
  unfold State.leakRead
  extract_lets _ _ _ _ _ _ _ s1 s2 s3 s4 _
  have h1 : Touches ps s0 s1 := State.setLeak_touches (Part.sub rfl hp) h
  clear_value s1
  have h2 : Touches ps s0 s2 := .ite (State.bump_touches (Part.sub rfl hp) (fun _ _ h => (State.setLeak_touches
      (Part.sub rfl hp) h)) h1) h1
  clear_value s2
  have h3 : Touches ps s0 s3 := .ite (State.bump_touches (Part.sub rfl hp) (fun _ _ h => (State.setLeak_touches
      (Part.sub rfl hp) h)) h2) h2
  clear_value s3
  have h4 : Touches ps s0 s4 := .ite (State.event_touches (Part.sub rfl hp) h3) h3
  clear_value s4
  refine .ite ?_ ?_
  · exact h
  · refine .ite ?_ ?_
    · exact State.leakJudge_touches (Part.sub rfl hp) (State.leakEvent_touches (Part.sub rfl hp) h4)
    · exact .ite (State.leakJudge_touches (Part.sub rfl hp) h1) h1

theorem execLeakRopeReading_touches {ps : List Part} {s0 : State} {rope : Nat} {senseR : Nat} {loopR : Nat}
    {s : State}
    (hp : Part.within [.pwr, .seq, .log, .mem, .cap, .met, .pnt, .haz, .cool, .chi, .cal, .jrn, .ques, .ebx, .evt, .dram, .out] ps = true)
    (h : Touches ps s0 s) :
    OTouches ps s0 (execLeakRopeReading rope senseR loopR s) :=
  State.standbyDo_touches (Part.sub rfl hp) (fun _ h => (.ite h (State.leakRead_touches (Part.sub rfl hp)
    (State.setLeak_touches (Part.sub rfl hp) h)))) h

theorem execLeakPointSample_touches {ps : List Part} {s0 : State} {sensor : Nat} {a : Bool} {b : Bool} {s : State}
    (hp : Part.within [.pwr, .seq, .log, .mem, .cap, .met, .pnt, .haz, .cool, .chi, .cal, .jrn, .ques, .ebx, .evt, .dram, .out] ps = true)
    (h : Touches ps s0 s) :
    OTouches ps s0 (execLeakPointSample sensor a b s) :=
  State.standbyDo_touches (Part.sub rfl hp) (fun _ h => (.ite h (State.leakRead_touches (Part.sub rfl hp) h))) h

theorem State.leakClear_touches {ps : List Part} {s0 s : State} {z : Nat}
    (hp : Part.within [.log, .haz, .cool, .evt, .out] ps = true) (h : Touches ps s0 s) :
    Touches ps s0 (State.leakClear s z) := by
  unfold State.leakClear
  extract_lets _ s1 _ s2
  have h1 : Touches ps s0 s1 := State.setLzone_touches (Part.sub rfl hp) h
  clear_value s1
  have h2 : Touches ps s0 s2 := .foldl (fun _ _ h => (.ite h (State.moveValve_touches (Part.sub rfl hp) h))) h1
  clear_value s2
  refine .ite ?_ ?_
  · exact State.leakEvent_touches (Part.sub rfl hp) h2
  · exact State.event_touches (Part.sub rfl hp) h

theorem execLeakClear_touches {ps : List Part} {s0 : State} {r : Req} {zone : Nat} {s : State}
    (hp : Part.within [.log, .haz, .cool, .evt, .mgt, .out] ps = true) (h : Touches ps s0 s) :
    OTouches ps s0 (execLeakClear r zone s) :=
  State.coreDo_touches (Part.sub rfl hp) (fun _ h => (State.withWriteRight_touches (Part.sub rfl hp) (fun _ h =>
    (.ite (State.leakClear_touches (Part.sub rfl hp) h) h)) h)) h

theorem State.shakeEvent_touches {ps : List Part} {s0 s : State} {kind : Nat} {t0 : Nat}
    (hp : Part.within [.log, .evt] ps = true) (h : Touches ps s0 s) :
    Touches ps s0 (State.shakeEvent s kind t0) := by
  unfold State.shakeEvent
  extract_lets _
  exact State.record_touches (Part.sub rfl hp) h

theorem State.braceBegin_touches {ps : List Part} {s0 s : State} {req : Bool}
    (hp : Part.within [.pwr, .seq, .rcnt, .log, .snap, .mem, .cap, .met, .pnt, .haz, .cool, .chi, .cal, .jrn, .ques, .ebx, .evt, .flash0, .flash1, .dram, .out] ps = true)
    (h : Touches ps s0 s) :
    Touches ps s0 (State.braceBegin s req) := by
  unfold State.braceBegin
  extract_lets _ s1 s2 s3 s4 _ s5
  have h1 : Touches ps s0 s1 := .updHaz (Part.sub rfl hp) h
  clear_value s1
  have h2 : Touches ps s0 s2 := State.bump_touches (Part.sub rfl hp) (fun _ _ h => (.updHaz (Part.sub rfl
      hp) h)) h1
  clear_value s2
  have h3 : Touches ps s0 s3 := State.shakeEvent_touches (Part.sub rfl hp) h2
  clear_value s3
  have h4 : Touches ps s0 s4 := State.startPage_touches (Part.sub rfl hp) (State.snapshot_touches (Part.sub rfl
      hp) h3)
  clear_value s4
  have h5 : Touches ps s0 s5 := .ite h4 (.updSnap (Part.sub rfl hp) h4)
  clear_value s5
  refine .ite ?_ ?_
  · exact .updHaz (Part.sub rfl hp) h
  · exact .foldl (fun _ _ h => (.ite (State.react_touches (Part.sub rfl hp) h) h)) h5

theorem State.axis_touches {ps : List Part} {s0 s : State} {k : Nat} {raw : Int} (hp : Part.within [.haz] ps = true)
    (h : Touches ps s0 s) :
    Touches ps s0 (State.axis s k raw) := by
  unfold State.axis
  extract_lets _ _ _
  exact .updHaz (Part.sub rfl hp) h

theorem State.shakeJudge_touches {ps : List Part} {s0 s : State}
    (hp : Part.within [.pwr, .seq, .rcnt, .log, .snap, .mem, .cap, .met, .pnt, .haz, .cool, .chi, .cal, .jrn, .ques, .ebx, .evt, .flash0, .flash1, .dram, .out] ps = true)
    (h : Touches ps s0 s) :
    Touches ps s0 (State.shakeJudge s) := by
  unfold State.shakeJudge
  extract_lets _ _ _ _ _ _ s1 s2 s3 _ s4
  have h1 : Touches ps s0 s1 := .updHaz (Part.sub rfl hp) h
  clear_value s1
  have h2 : Touches ps s0 s2 := State.bump_touches (Part.sub rfl hp) (fun _ _ h => (.updHaz (Part.sub rfl
      hp) h)) h1
  clear_value s2
  have h3 : Touches ps s0 s3 := State.event_touches (Part.sub rfl hp) h2
  clear_value s3
  have h4 : Touches ps s0 s4 := .ite (.ite h3 (State.shakeEvent_touches (Part.sub rfl hp) (.updHaz
      (Part.sub rfl hp) h3))) h1
  clear_value s4
  exact .ite (State.braceBegin_touches (Part.sub rfl hp) h4) h4

theorem execAccelSample_touches {ps : List Part} {s0 : State} {x : Int} {y : Int} {z : Int} {s : State}
    (hp : Part.within [.pwr, .seq, .rcnt, .log, .snap, .mem, .cap, .met, .pnt, .haz, .cool, .chi, .cal, .jrn, .ques, .ebx, .evt, .flash0, .flash1, .dram, .out] ps = true)
    (h : Touches ps s0 s) :
    OTouches ps s0 (execAccelSample x y z s) := by
  unfold execAccelSample
  refine State.standbyDo_touches (Part.sub rfl hp) (fun _ hg => ?_) h
  extract_lets gs1 _ _ _
  have gh1 : Touches ps s0 gs1 := State.axis_touches (Part.sub rfl hp) (State.axis_touches (Part.sub rfl hp)
      (State.axis_touches (Part.sub rfl hp) hg))
  clear_value gs1
  exact State.shakeJudge_touches (Part.sub rfl hp) (.updHaz (Part.sub rfl hp) gh1)

theorem execShakeNoteEpisodeEnd_touches {ps : List Part} {s0 s : State} (hp : Part.within [.haz] ps = true)
    (h : Touches ps s0 s) :
    OTouches ps s0 (execShakeNoteEpisodeEnd s) :=
  State.standbyDo_touches (Part.sub rfl hp) (fun _ h => (.ite (.updHaz (Part.sub rfl hp) h) h)) h

theorem execBraceRequest_touches {ps : List Part} {s0 : State} {r : Req} {s : State}
    (hp : Part.within [.pwr, .seq, .rcnt, .log, .snap, .mem, .cap, .met, .pnt, .haz, .cool, .chi, .cal, .jrn, .ques, .ebx, .evt, .mgt, .flash0, .flash1, .dram, .out] ps = true)
    (h : Touches ps s0 s) :
    OTouches ps s0 (execBraceRequest r s) :=
  State.coreDo_touches (Part.sub rfl hp) (fun _ h => (State.withWriteRight_touches (Part.sub rfl hp) (fun _ h =>
    (State.braceBegin_touches (Part.sub rfl hp) (.updHaz (Part.sub rfl hp) h))) h)) h

theorem execShakePeakClr_touches {ps : List Part} {s0 : State} {r : Req} {s : State}
    (hp : Part.within [.log, .haz, .evt, .mgt] ps = true) (h : Touches ps s0 s) :
    OTouches ps s0 (execShakePeakClr r s) :=
  State.coreDo_touches (Part.sub rfl hp) (fun _ h => (State.withWriteRight_touches (Part.sub rfl hp) (fun _ h =>
    (.updHaz (Part.sub rfl hp) h)) h)) h

theorem State.shakeFail_touches {ps : List Part} {s0 s : State} (hp : Part.within [.log, .haz, .evt] ps = true)
    (h : Touches ps s0 s) :
    Touches ps s0 (State.shakeFail s) :=
  .ite h (State.shakeEvent_touches (Part.sub rfl hp) (.updHaz (Part.sub rfl hp) h))

theorem State.accelTest_touches {ps : List Part} {s0 s : State} {ok : Bool}
    (hp : Part.within [.log, .haz, .evt] ps = true) (h : Touches ps s0 s) :
    Touches ps s0 (State.accelTest s ok) :=
  .ite (.updHaz (Part.sub rfl hp) h) (State.shakeFail_touches (Part.sub rfl hp) h)

theorem execAccelSelfTest_touches {ps : List Part} {s0 : State} {ok : Bool} {s : State}
    (hp : Part.within [.log, .haz, .evt] ps = true) (h : Touches ps s0 s) :
    OTouches ps s0 (execAccelSelfTest ok s) :=
  State.standbyDo_touches (Part.sub rfl hp) (fun _ h => (State.accelTest_touches (Part.sub rfl hp) h)) h

theorem execAccelNoAnswer_touches {ps : List Part} {s0 s : State} (hp : Part.within [.log, .haz, .evt] ps = true)
    (h : Touches ps s0 s) :
    OTouches ps s0 (execAccelNoAnswer s) :=
  State.standbyDo_touches (Part.sub rfl hp) (fun _ h => (State.shakeFail_touches (Part.sub rfl hp) h)) h

end Sys2Proof.Machine
end

