-- ==== Sys2Proof/Laws/Frames/Cooling.lean ====
section
/-!
SUPPORT. Laws/Frames/Cooling.lean: what each operation of Machine/Cooling.lean changes: one lemma for each, by the rules of
Laws/Touches.
-/
set_option Elab.async false
namespace Sys2Proof.Machine

theorem State.fanEvent_touches {ps : List Part} {s0 s : State} {c : Nat} {kind : Nat}
    (hp : Part.within [.log, .evt] ps = true) (h : Touches ps s0 s) :
    Touches ps s0 (State.fanEvent s c kind) := by
  unfold State.fanEvent
  extract_lets _ _ _
  exact State.record_touches (Part.sub rfl hp) h

theorem State.fanEventAll_touches {ps : List Part} {s0 s : State} {kind : Nat}
    (hp : Part.within [.log, .evt] ps = true) (h : Touches ps s0 s) :
    Touches ps s0 (State.fanEventAll s kind) :=
  State.record_touches (Part.sub rfl hp) h

theorem State.bumpFan_touches {ps : List Part} {s0 s : State} {c : Nat} {k : Nat}
    (hp : Part.within [.cool, .evt] ps = true) (h : Touches ps s0 s) :
    Touches ps s0 (State.bumpFan s c k) :=
  State.bump_touches (Part.sub rfl hp) (fun _ _ h => (State.setFan_touches (Part.sub rfl hp) h)) h

theorem State.zoneEvent_touches {ps : List Part} {s0 s : State} {z : Nat} {kind : Nat} {slot : Nat} {value : Int}
    {rise : Int} (hp : Part.within [.log, .evt] ps = true) (h : Touches ps s0 s) :
    Touches ps s0 (State.zoneEvent s z kind slot value rise) := by
  unfold State.zoneEvent
  extract_lets _
  exact State.record_touches (Part.sub rfl hp) h

theorem State.zoneJudge_touches {ps : List Part} {s0 s : State} {z : Nat}
    (hp : Part.within [.log, .cool, .evt, .out] ps = true) (h : Touches ps s0 s) :
    Touches ps s0 (State.zoneJudge s z) := by
  unfold State.zoneJudge
  extract_lets _ _ _ _ _ _ _ _ _ s1 s2 s3
  have h1 : Touches ps s0 s1 := State.setCzone_touches (Part.sub rfl hp) h
  clear_value s1
  have h2 : Touches ps s0 s2 := .ite (State.zoneEvent_touches (Part.sub rfl hp) h1) h1
  clear_value s2
  have h3 : Touches ps s0 s3 := .ite (State.forceNow_touches (Part.sub rfl hp) (State.zoneEvent_touches
      (Part.sub rfl hp) h2)) h2
  clear_value s3
  exact .ite (State.zoneEvent_touches (Part.sub rfl hp) h3) h3

theorem State.zoneTick_touches {ps : List Part} {s0 s : State} {z : Nat}
    (hp : Part.within [.log, .cool, .evt, .out] ps = true) (h : Touches ps s0 s) :
    Touches ps s0 (State.zoneTick s z) := by
  unfold State.zoneTick
  extract_lets _ _ _ _ _ _ _ s1 s2
  have h1 : Touches ps s0 s1 := State.setCzone_touches (Part.sub rfl hp) h
  clear_value s1
  have h2 : Touches ps s0 s2 := by
    unfold s2
    refine .foldl (fun _ _ k2hf => ?_) h1
    exact by split; exact (State.zoneEvent_touches (Part.sub rfl hp) k2hf); exact k2hf
  clear_value s2
  exact .ite h (State.zoneJudge_touches (Part.sub rfl hp) h2)

theorem execZoneSensorExclusion_touches {ps : List Part} {s0 : State} {zone : Nat} {slot : Nat} {s : State}
    (hp : Part.within [.log, .cool, .evt, .out] ps = true) (h : Touches ps s0 s) :
    OTouches ps s0 (execZoneSensorExclusion zone slot s) :=
  State.standbyDo_touches (Part.sub rfl hp) (fun _ h => (.ite h (State.zoneEvent_touches (Part.sub rfl hp)
    (State.zoneJudge_touches (Part.sub rfl hp) (State.setCzone_touches (Part.sub rfl hp) h))))) h

theorem execZoneSensorReadmission_touches {ps : List Part} {s0 : State} {zone : Nat} {slot : Nat} {s : State}
    (hp : Part.within [.log, .cool, .evt, .out] ps = true) (h : Touches ps s0 s) :
    OTouches ps s0 (execZoneSensorReadmission zone slot s) :=
  State.standbyDo_touches (Part.sub rfl hp) (fun _ h => (.ite (.ite (State.setCzone_touches (Part.sub rfl hp) h)
    (State.zoneEvent_touches (Part.sub rfl hp) (State.zoneJudge_touches (Part.sub rfl hp) (State.setCzone_touches
    (Part.sub rfl hp) h)))) h)) h

theorem execZoneColdLieCheck_touches {ps : List Part} {s0 : State} {zone : Nat} {s : State}
    (hp : Part.within [.log, .cool, .evt, .out] ps = true) (h : Touches ps s0 s) :
    OTouches ps s0 (execZoneColdLieCheck zone s) :=
  State.standbyDo_touches (Part.sub rfl hp) (fun _ h => (.ite h (State.zoneJudge_touches (Part.sub rfl hp) (.ite
    (State.zoneEvent_touches (Part.sub rfl hp) (State.setCzone_touches (Part.sub rfl hp) h))
    (State.setCzone_touches (Part.sub rfl hp) h))))) h

theorem execZoneGuardExitTimer_touches {ps : List Part} {s0 : State} {zone : Nat} {s : State}
    (hp : Part.within [.cool] ps = true) (h : Touches ps s0 s) :
    OTouches ps s0 (execZoneGuardExitTimer zone s) :=
  State.standbyDo_touches (Part.sub rfl hp) (fun _ h => (.ite (State.setCzone_touches (Part.sub rfl hp) h) h)) h

theorem execZoneClear_touches {ps : List Part} {s0 : State} {r : Req} {zone : Nat} {s : State}
    (hp : Part.within [.log, .cool, .evt, .mgt] ps = true) (h : Touches ps s0 s) :
    OTouches ps s0 (execZoneClear r zone s) :=
  State.coreDo_touches (Part.sub rfl hp) (fun _ h => (State.withWriteRight_touches (Part.sub rfl hp) (fun _ h =>
    (.ite h (State.setCzone_touches (Part.sub rfl hp) h))) h)) h

theorem State.speedTick_touches {ps : List Part} {s0 s : State} {tach : List Tach} {c : Nat}
    (hp : Part.within [.cool] ps = true) (h : Touches ps s0 s) :
    Touches ps s0 (State.speedTick s tach c) :=
  .ite h (State.setFan_touches (Part.sub rfl hp) h)

theorem State.speedError_touches {ps : List Part} {s0 s : State} {eff : Nat} {speed : Nat} {max : Nat}
    (hp : Part.within [.fresh] ps = true) (h : Touches ps s0 s) :
    Touches ps s0 (State.speedError s eff speed max).1 := by
  unfold State.speedError
  extract_lets _
  split
  · exact h
  · exact .updFresh (Part.sub rfl hp) h

theorem State.fanTick_touches {ps : List Part} {s0 s : State} {tach : List Tach} {c : Nat}
    (hp : Part.within [.fresh, .log, .pat, .cool, .evt] ps = true) (h : Touches ps s0 s) :
    Touches ps s0 (State.fanTick s tach c) := by
  unfold State.fanTick
  extract_lets _ _ _ _ _ _ _ _ _ _ _ s1 _ _ _ _ s2 s3 _ _ _
  have h1 : Touches ps s0 s1 := State.setFan_touches (Part.sub rfl hp) h
  clear_value s1
  have h2 : Touches ps s0 s2.1 := State.speedError_touches (Part.sub rfl hp) h1
  clear_value s2
  have h3 : Touches ps s0 s3 := h2
  clear_value s3
  refine .ite ?_ ?_
  · exact h
  · split
    · refine .ite ?_ ?_
      · exact State.setFan_touches (Part.sub rfl hp) h1
      · exact State.setFan_touches (Part.sub rfl hp) h1
    · refine .ite ?_ ?_
      · exact State.bump_touches (Part.sub rfl hp) (fun _ _ h => (.updPat (Part.sub rfl hp) h))
            (State.setFan_touches (Part.sub rfl hp) h1)
      · exact h1
    · refine .ite ?_ ?_
      · exact State.setFan_touches (Part.sub rfl hp) h1
      · refine .ite ?_ ?_
        · split
          · exact State.fanEvent_touches (Part.sub rfl hp) (State.bumpFan_touches (Part.sub rfl hp)
                (State.setFan_touches (Part.sub rfl hp) h1))
          · exact State.fanEvent_touches (Part.sub rfl hp) (State.bumpFan_touches (Part.sub rfl hp)
                (State.setFan_touches (Part.sub rfl hp) h1))
        · refine .ite ?_ ?_
          · exact State.setFan_touches (Part.sub rfl hp) h1
          · refine .ite ?_ ?_
            · exact State.setFan_touches (Part.sub rfl hp) h1
            · exact State.setFan_touches (Part.sub rfl hp) h3
    · refine .ite ?_ ?_
      · exact State.setFan_touches (Part.sub rfl hp) h1
      · refine .ite ?_ ?_
        · exact State.fanEvent_touches (Part.sub rfl hp) (State.setFan_touches (Part.sub rfl hp) h1)
        · split
          · exact State.setFan_touches (Part.sub rfl hp) h1
          · refine .ite ?_ ?_
            · exact State.fanEvent_touches (Part.sub rfl hp) (State.bumpFan_touches (Part.sub rfl hp)
                  (State.setFan_touches (Part.sub rfl hp) h1))
            · exact h1
    · exact h1

theorem State.airCheck_touches {ps : List Part} {s0 s : State} {z : Nat}
    (hp : Part.within [.log, .cool, .evt] ps = true) (h : Touches ps s0 s) :
    Touches ps s0 (State.airCheck s z) := by
  unfold State.airCheck
  extract_lets _ _ _ s1
  have h1 : Touches ps s0 s1 := State.setCzone_touches (Part.sub rfl hp) h
  clear_value s1
  exact .ite (State.zoneEvent_touches (Part.sub rfl hp) h1) h1

theorem State.setMeter_touches {ps : List Part} {s0 s : State} {m : Nat} {x : FlowMeter}
    (hp : Part.within [.cool] ps = true) (h : Touches ps s0 s) :
    Touches ps s0 (State.setMeter s m x) :=
  .updCool (Part.sub rfl hp) h

theorem State.setPressS_touches {ps : List Part} {s0 s : State} {p : Nat} {x : PressSensor}
    (hp : Part.within [.cool] ps = true) (h : Touches ps s0 s) :
    Touches ps s0 (State.setPressS s p x) :=
  .updCool (Part.sub rfl hp) h

theorem State.lossBits_touches {ps : List Part} {s0 s : State}
    (hp : Part.within [.pwr, .seq, .log, .mem, .cap, .met, .pnt, .haz, .cool, .chi, .cal, .jrn, .ques, .ebx, .evt, .dram, .out] ps = true)
    (h : Touches ps s0 s) :
    Touches ps s0 (State.lossBits s) := by
  unfold State.lossBits
  extract_lets s1
  have h1 : Touches ps s0 s1 := .foldl (fun _ _ h => (State.setCzone_touches (Part.sub rfl hp) h)) h
  clear_value s1
  exact State.leakJudgeAll_touches (Part.sub rfl hp) h1

theorem State.pressTick_touches {ps : List Part} {s0 s : State} {p : Nat}
    (hp : Part.within [.pwr, .seq, .log, .mem, .cap, .met, .pnt, .haz, .cool, .chi, .cal, .jrn, .ques, .ebx, .evt, .dram, .out] ps = true)
    (h : Touches ps s0 s) :
    Touches ps s0 (State.pressTick s p) := by
  unfold State.pressTick
  extract_lets _ _ _ _ _ _ _ s1
  have h1 : Touches ps s0 s1 := State.setPressS_touches (Part.sub rfl hp) h
  clear_value s1
  refine .ite ?_ ?_
  · exact h
  · refine .ite ?_ ?_
    · exact State.setPressS_touches (Part.sub rfl hp) h
    · refine .ite ?_ ?_
      · exact State.lossBits_touches (Part.sub rfl hp) (State.coolantEvent_touches (Part.sub rfl hp) h1)
      · exact h1

theorem execFlowRateUpdate_touches {ps : List Part} {s0 : State} {meter : Nat} {pulses : Nat} {s : State}
    (hp : Part.within [.cool] ps = true) (h : Touches ps s0 s) :
    OTouches ps s0 (execFlowRateUpdate meter pulses s) :=
  State.standbyDo_touches (Part.sub rfl hp) (fun _ h => (.ite h (State.setMeter_touches (Part.sub rfl hp) h))) h

theorem execFlowLossTimeExpiry_touches {ps : List Part} {s0 : State} {meter : Nat} {s : State}
    (hp : Part.within [.pwr, .seq, .log, .mem, .cap, .met, .pnt, .haz, .cool, .chi, .cal, .jrn, .ques, .ebx, .evt, .dram, .out] ps = true)
    (h : Touches ps s0 s) :
    OTouches ps s0 (execFlowLossTimeExpiry meter s) :=
  State.standbyDo_touches (Part.sub rfl hp) (fun _ h => (.ite (State.lossBits_touches (Part.sub rfl hp)
    (State.coolantEvent_touches (Part.sub rfl hp) (State.setMeter_touches (Part.sub rfl hp) h))) h)) h

theorem execCoolantLossEndTimer_touches {ps : List Part} {s0 : State} {sensor : Nat} {s : State}
    (hp : Part.within [.pwr, .seq, .log, .mem, .cap, .met, .pnt, .haz, .cool, .chi, .cal, .jrn, .ques, .ebx, .evt, .dram, .out] ps = true)
    (h : Touches ps s0 s) :
    OTouches ps s0 (execCoolantLossEndTimer sensor s) :=
  State.standbyDo_touches (Part.sub rfl hp) (fun _ h => (.ite (.ite (State.lossBits_touches (Part.sub rfl hp)
    (State.coolantEvent_touches (Part.sub rfl hp) (State.setMeter_touches (Part.sub rfl hp) h))) h) (.ite
    (State.lossBits_touches (Part.sub rfl hp) (State.coolantEvent_touches (Part.sub rfl hp)
    (State.setPressS_touches (Part.sub rfl hp) h))) h))) h

theorem State.measureTick_touches {ps : List Part} {s0 s : State}
    (hp : Part.within [.pwr, .seq, .log, .mem, .cap, .met, .pnt, .haz, .cool, .chi, .cal, .jrn, .ques, .ebx, .evt, .dram, .out] ps = true)
    (h : Touches ps s0 s) :
    Touches ps s0 (State.measureTick s) := by
  unfold State.measureTick
  extract_lets s1
  have h1 : Touches ps s0 s1 := .foldl (fun _ _ h => (State.zoneTick_touches (Part.sub rfl hp) h)) h
  clear_value s1
  exact .foldl (fun _ _ h => (State.pressTick_touches (Part.sub rfl hp) h)) h1

theorem State.coolingTick_touches {ps : List Part} {s0 s : State} {tach : List Tach}
    (hp : Part.within [.fresh, .pwr, .seq, .log, .mem, .cap, .met, .pat, .pnt, .haz, .cool, .chi, .cal, .jrn, .ques, .ebx, .evt, .dram, .out] ps = true)
    (h : Touches ps s0 s) :
    Touches ps s0 (State.coolingTick s tach) := by
  unfold State.coolingTick
  extract_lets s1 s2
  have h1 : Touches ps s0 s1 := State.measureTick_touches (Part.sub rfl hp) h
  clear_value s1
  have h2 : Touches ps s0 s2 := State.withDrive_touches (Part.sub rfl hp) (fun _ h => (.foldl (fun _ _ h =>
      (State.fanTick_touches (Part.sub rfl hp) h)) h)) h1
  clear_value s2
  refine .ite ?_ ?_
  · exact .foldl (fun _ _ h => (State.airCheck_touches (Part.sub rfl hp) h)) h2
  · exact .foldl (fun _ _ h => (State.speedTick_touches (Part.sub rfl hp) h)) h1

theorem execCoolingTick_touches {ps : List Part} {s0 : State} {tach : List Tach} {s : State}
    (hp : Part.within [.fresh, .pwr, .seq, .log, .mem, .cap, .met, .pat, .pnt, .haz, .cool, .chi, .cal, .jrn, .ques, .ebx, .evt, .dram, .out] ps = true)
    (h : Touches ps s0 s) :
    OTouches ps s0 (execCoolingTick tach s) :=
  State.standbyDo_touches (Part.sub rfl hp) (fun _ h => (.ite (State.coolingTick_touches (Part.sub rfl hp) h) h)) h

theorem execFanStartTimeout_touches {ps : List Part} {s0 : State} {fan : Nat} {s : State}
    (hp : Part.within [.log, .cool, .evt, .out] ps = true) (h : Touches ps s0 s) :
    OTouches ps s0 (execFanStartTimeout fan s) :=
  State.standbyDo_touches (Part.sub rfl hp) (fun _ h => (State.withDrive_touches (Part.sub rfl hp) (fun _ h =>
    (.ite (.ite (State.fanEvent_touches (Part.sub rfl hp) (State.bumpFan_touches (Part.sub rfl hp)
    (State.setFan_touches (Part.sub rfl hp) h))) (State.fanEvent_touches (Part.sub rfl hp) (State.bumpFan_touches
    (Part.sub rfl hp) (State.setFan_touches (Part.sub rfl hp) h)))) h)) h)) h

theorem execFanStallTimerExpiry_touches {ps : List Part} {s0 : State} {fan : Nat} {s : State}
    (hp : Part.within [.cool, .out] ps = true) (h : Touches ps s0 s) :
    OTouches ps s0 (execFanStallTimerExpiry fan s) :=
  State.standbyDo_touches (Part.sub rfl hp) (fun _ h => (State.withDrive_touches (Part.sub rfl hp) (fun _ h =>
    (.ite (State.setFan_touches (Part.sub rfl hp) h) h)) h)) h

theorem execFanSeizedTimerExpiry_touches {ps : List Part} {s0 : State} {fan : Nat} {s : State}
    (hp : Part.within [.cool, .out] ps = true) (h : Touches ps s0 s) :
    OTouches ps s0 (execFanSeizedTimerExpiry fan s) :=
  State.standbyDo_touches (Part.sub rfl hp) (fun _ h => (State.withDrive_touches (Part.sub rfl hp) (fun _ h =>
    (.ite (State.setFan_touches (Part.sub rfl hp) h) h)) h)) h

theorem State.wdtRefresh_touches {ps : List Part} {s0 s : State} (hp : Part.within [.cool] ps = true)
    (h : Touches ps s0 s) :
    Touches ps s0 (State.wdtRefresh s) :=
  .updCool (Part.sub rfl hp) h

theorem execFanTargetWrite_touches {ps : List Part} {s0 : State} {r : Req} {fan : Nat} {value : Nat} {s : State}
    (hp : Part.within [.log, .cool, .evt, .mgt] ps = true) (h : Touches ps s0 s) :
    OTouches ps s0 (execFanTargetWrite r fan value s) :=
  State.coreDo_touches (Part.sub rfl hp) (fun _ h => (State.withWriteRight_touches (Part.sub rfl hp) (fun _ h =>
    (.ite h (State.wdtRefresh_touches (Part.sub rfl hp) (State.setFan_touches (Part.sub rfl hp) h)))) h)) h

theorem execFanClear_touches {ps : List Part} {s0 : State} {r : Req} {fan : Nat} {s : State}
    (hp : Part.within [.log, .cool, .evt, .mgt, .out] ps = true) (h : Touches ps s0 s) :
    OTouches ps s0 (execFanClear r fan s) :=
  State.coreDo_touches (Part.sub rfl hp) (fun _ h => (State.withWriteRight_touches (Part.sub rfl hp) (fun _ h =>
    (.ite (State.withDrive_touches (Part.sub rfl hp) (fun _ h => (State.setFan_touches (Part.sub rfl hp) h)) h) h))
    h)) h

theorem execCoolWdtRefresh_touches {ps : List Part} {s0 : State} {r : Req} {s : State}
    (hp : Part.within [.log, .cool, .evt, .mgt] ps = true) (h : Touches ps s0 s) :
    OTouches ps s0 (execCoolWdtRefresh r s) :=
  State.coreDo_touches (Part.sub rfl hp) (fun _ h => (State.withWriteRight_touches (Part.sub rfl hp) (fun _ h =>
    (State.wdtRefresh_touches (Part.sub rfl hp) h)) h)) h

theorem execCoolWdtExpiry_touches {ps : List Part} {s0 s : State}
    (hp : Part.within [.log, .cool, .evt, .out] ps = true) (h : Touches ps s0 s) :
    OTouches ps s0 (execCoolWdtExpiry s) :=
  State.standbyDo_touches (Part.sub rfl hp) (fun _ h => (.ite (State.fanEventAll_touches (Part.sub rfl hp)
    (State.forceNow_touches (Part.sub rfl hp) (.updCool (Part.sub rfl hp) h))) h)) h

theorem execValveCmdWrite_touches {ps : List Part} {s0 : State} {r : Req} {valve : Nat} {cmd : Nat} {s : State}
    (hp : Part.within [.log, .cool, .evt, .mgt, .out] ps = true) (h : Touches ps s0 s) :
    OTouches ps s0 (execValveCmdWrite r valve cmd s) :=
  State.coreDo_touches (Part.sub rfl hp) (fun _ h => (State.withWriteRight_touches (Part.sub rfl hp) (fun _ h =>
    (.ite (State.moveValve_touches (Part.sub rfl hp) h) h)) h)) h

theorem execValveTravelTimeout_touches {ps : List Part} {s0 : State} {valve : Nat} {s : State}
    (hp : Part.within [.log, .cool, .evt] ps = true) (h : Touches ps s0 s) :
    OTouches ps s0 (execValveTravelTimeout valve s) :=
  State.standbyDo_touches (Part.sub rfl hp) (fun _ h => (.ite (State.coolantEvent_touches (Part.sub rfl hp)
    (State.setValve_touches (Part.sub rfl hp) h)) h)) h

theorem execValvePosChange_touches {ps : List Part} {s0 : State} {valve : Nat} {level : Bool} {s : State}
    (hp : Part.within [.log, .cool, .evt] ps = true) (h : Touches ps s0 s) :
    OTouches ps s0 (execValvePosChange valve level s) :=
  State.standbyDo_touches (Part.sub rfl hp) (fun _ h => (.ite (State.confirmValve_touches (Part.sub rfl hp) h)
    (State.setValve_touches (Part.sub rfl hp) h))) h

theorem execValveUncommandedTimer_touches {ps : List Part} {s0 : State} {valve : Nat} {s : State}
    (hp : Part.within [.log, .cool, .evt] ps = true) (h : Touches ps s0 s) :
    OTouches ps s0 (execValveUncommandedTimer valve s) :=
  State.standbyDo_touches (Part.sub rfl hp) (fun _ h => (.ite (State.coolantEvent_touches (Part.sub rfl hp)
    (State.setValve_touches (Part.sub rfl hp) h)) h)) h

end Sys2Proof.Machine
end

