-- ==== Sys2Proof/Laws/Frames/Gauge.lean ====
section
/-!
SUPPORT. Laws/Frames/Gauge.lean: what each operation of Machine/Gauge.lean changes: one lemma for each, by the rules of
Laws/Touches.
-/
set_option Elab.async false
namespace Sys2Proof.Machine

theorem State.setSlot_touches {ps : List Part} {s0 s : State} {n : Nat} {g : GaugeSlot}
    (hp : Part.within [.cal] ps = true) (h : Touches ps s0 s) :
    Touches ps s0 (State.setSlot s n g) :=
  .updCal (Part.sub rfl hp) h

theorem State.gaugeEvent_touches {ps : List Part} {s0 s : State} {slot : Nat} {kind : Nat} {out : Nat} {value : Nat}
    {threshold : Nat} (hp : Part.within [.log, .evt] ps = true) (h : Touches ps s0 s) :
    Touches ps s0 (State.gaugeEvent s slot kind out value threshold) :=
  State.record_touches (Part.sub rfl hp) h

theorem State.dropImage_touches {ps : List Part} {s0 s : State} {n : Nat} (hp : Part.within [.gimg] ps = true)
    (h : Touches ps s0 s) :
    Touches ps s0 (State.dropImage s n) :=
  .ite h (.updGimg (Part.sub rfl hp) h)

theorem State.gaugeUnload_touches {ps : List Part} {s0 s : State} {n : Nat} {kind : Nat}
    (hp : Part.within [.log, .cal, .gimg, .evt] ps = true) (h : Touches ps s0 s) :
    Touches ps s0 (State.gaugeUnload s n kind) := by
  unfold State.gaugeUnload
  extract_lets _
  refine .ite ?_ ?_
  · exact State.gaugeEvent_touches (Part.sub rfl hp) (State.dropImage_touches (Part.sub rfl hp)
        (State.setSlot_touches (Part.sub rfl hp) h))
  · exact h

theorem State.gaugeCommit_touches {ps : List Part} {s0 s : State}
    (hp : Part.within [.log, .cal, .gimg, .evt] ps = true) (h : Touches ps s0 s) :
    Touches ps s0 (State.gaugeCommit s) :=
  .foldl (fun _ _ h => (.ite h (State.gaugeUnload_touches (Part.sub rfl hp) h))) h

theorem execGaugeLoad_touches {ps : List Part} {s0 : State} {r : Req} {e : Bytes} {src : Option Bytes} {s : State}
    (hp : Part.within [.log, .mem, .cal, .gimg, .ques, .ebx, .evt, .mgt, .dram, .out] ps = true)
    (h : Touches ps s0 s) :
    OTouches ps s0 (execGaugeLoad r e src s) := by
  unfold execGaugeLoad
  refine State.coreDo_touches (Part.sub rfl hp) (fun _ hg => ?_) h
  extract_lets _ gv2
  refine State.withRight_touches (Part.sub rfl hp) (fun _ ghg => ?_) hg
  extract_lets _ _ _ ggs1 _
  have ggh1 : Touches ps s0 ggs1 := State.setSlot_touches (Part.sub rfl hp) ghg
  clear_value ggs1
  split
  · exact State.calDone_touches (Part.sub rfl hp) ghg
  · refine .ite ?_ ?_
    · exact State.calDone_touches (Part.sub rfl hp) ggh1
    · refine .ite ?_ ?_
      · exact State.calDone_touches (Part.sub rfl hp) ggh1
      · refine .ite ?_ ?_
        · exact State.calDone_touches (Part.sub rfl hp) ggh1
        · split
          · refine .ite ?_ ?_
            · exact State.calDone_touches (Part.sub rfl hp) ggh1
            · exact State.setSlot_touches (Part.sub rfl hp) ggh1
          · extract_lets ggm1bbbm1s1 _ ggm1bbbm1s2
            have ggm1bbbm1h1 : Touches ps s0 ggm1bbbm1s1 := .updGimg (Part.sub rfl hp) ggh1
            clear_value ggm1bbbm1s1
            have ggm1bbbm1h2 : Touches ps s0 ggm1bbbm1s2 := State.setSlot_touches (Part.sub rfl hp) ggm1bbbm1h1
            clear_value ggm1bbbm1s2
            refine .ite ?_ ?_
            · exact State.calDone_touches (Part.sub rfl hp) ggh1
            · refine .ite ?_ ?_
              · exact State.calDone_touches (Part.sub rfl hp) ggh1
              · unfold gv2
                exact State.calDone_touches (Part.sub rfl hp) (State.gaugeEvent_touches (Part.sub rfl hp) ggm1bbbm1h2)

theorem State.gaugeBegin_touches {ps : List Part} {s0 s : State} {n : Nat} {req : Option (Req × Nat)}
    (hp : Part.within [.pwr, .cal] ps = true) (h : Touches ps s0 s) :
    Touches ps s0 (State.gaugeBegin s n req) := by
  unfold State.gaugeBegin
  extract_lets _ _ s1 _
  have h1 : Touches ps s0 s1 := State.setSlot_touches (Part.sub rfl hp) h
  clear_value s1
  exact State.calNext_touches (Part.sub rfl hp) (State.askClock_touches (Part.sub rfl hp) (.updCal
      (Part.sub rfl hp) h1))

theorem execGaugeInvoke_touches {ps : List Part} {s0 : State} {r : Req} {e : Bytes} {s : State}
    (hp : Part.within [.pwr, .log, .mem, .cal, .ques, .ebx, .evt, .mgt, .dram, .out] ps = true)
    (h : Touches ps s0 s) :
    OTouches ps s0 (execGaugeInvoke r e s) := by
  unfold execGaugeInvoke
  refine State.coreDo_touches (Part.sub rfl hp) (fun _ hg => ?_) h
  extract_lets _
  refine State.withRight_touches (Part.sub rfl hp) (fun _ ghg => ?_) hg
  split
  · exact State.calDone_touches (Part.sub rfl hp) ghg
  · refine .ite ?_ ?_
    · exact State.calDone_touches (Part.sub rfl hp) ghg
    · refine .ite ?_ ?_
      · exact State.calDone_touches (Part.sub rfl hp) ghg
      · exact State.gaugeBegin_touches (Part.sub rfl hp) ghg

theorem execGaugeUnload_touches {ps : List Part} {s0 : State} {r : Req} {e : Bytes} {s : State}
    (hp : Part.within [.log, .mem, .cal, .gimg, .ques, .ebx, .evt, .mgt, .dram, .out] ps = true)
    (h : Touches ps s0 s) :
    OTouches ps s0 (execGaugeUnload r e s) := by
  unfold execGaugeUnload
  refine State.coreDo_touches (Part.sub rfl hp) (fun _ hg => ?_) h
  extract_lets _
  refine State.withRight_touches (Part.sub rfl hp) (fun _ ghg => ?_) hg
  split
  · exact State.calDone_touches (Part.sub rfl hp) ghg
  · refine .ite ?_ ?_
    · exact State.calDone_touches (Part.sub rfl hp) ghg
    · exact State.calDone_touches (Part.sub rfl hp) (State.gaugeUnload_touches (Part.sub rfl hp) ghg)

theorem execGaugeInvocation_touches {ps : List Part} {s0 : State} {slot : Nat} {s : State}
    (hp : Part.within [.pwr, .log, .cal, .evt] ps = true) (h : Touches ps s0 s) :
    OTouches ps s0 (execGaugeInvocation slot s) := by
  unfold execGaugeInvocation
  refine State.coreDo_touches (Part.sub rfl hp) (fun _ hg => ?_) h
  extract_lets _ gs1 _ gs2
  have gh1 : Touches ps s0 gs1 := State.bump_touches (Part.sub rfl hp) (fun _ _ h => (State.setSlot_touches
      (Part.sub rfl hp) h)) hg
  clear_value gs1
  have gh2 : Touches ps s0 gs2 := State.setSlot_touches (Part.sub rfl hp) gh1
  clear_value gs2
  refine .ite ?_ ?_
  · exact hg
  · refine .ite ?_ ?_
    · exact .ite gh2 (State.gaugeEvent_touches (Part.sub rfl hp) gh2)
    · exact State.gaugeBegin_touches (Part.sub rfl hp) hg

theorem State.judgeOutput_touches {ps : List Part} {s0 s : State} {n : Nat} {j : Nat} {out : Nat}
    (hp : Part.within [.log, .cal, .evt] ps = true) (h : Touches ps s0 s) :
    Touches ps s0 (State.judgeOutput s n j out) := by
  unfold State.judgeOutput
  extract_lets _ _ s1 _ _ _ _ _
  have h1 : Touches ps s0 s1 := State.setSlot_touches (Part.sub rfl hp) h
  clear_value s1
  split
  · exact .ite h1 (State.gaugeEvent_touches (Part.sub rfl hp) h1)
  · split
    · exact State.setSlot_touches (Part.sub rfl hp) h
    · refine .ite ?_ ?_
      · refine .ite ?_ ?_
        · exact State.event_touches (Part.sub rfl hp) (State.gaugeEvent_touches (Part.sub rfl hp)
              (State.setSlot_touches (Part.sub rfl hp) h))
        · exact State.setSlot_touches (Part.sub rfl hp) h
      · exact State.setSlot_touches (Part.sub rfl hp) h

theorem State.gaugeLand_touches {ps : List Part} {s0 s : State} {slot : Nat} {x : List Nat} {req : Option
    (Req × Nat)} (hp : Part.within [.log, .mem, .cal, .ques, .ebx, .evt, .dram, .out] ps = true)
    (h : Touches ps s0 s) :
    Touches ps s0 (State.gaugeLand s slot x req) := by
  unfold State.gaugeLand
  extract_lets _ _ _ s1 s2 _
  have h1 : Touches ps s0 s1 := State.setSlot_touches (Part.sub rfl hp) h
  clear_value s1
  have h2 : Touches ps s0 s2 := .foldl (fun _ _ h => (State.judgeOutput_touches (Part.sub rfl hp) h)) h1
  clear_value s2
  refine .ite ?_ ?_
  · split
    · exact State.calDone_touches (Part.sub rfl hp) h
    · exact h
  · split
    · exact h2
    · split
      · exact State.calDone_touches (Part.sub rfl hp) (State.ownViolation_touches (Part.sub rfl hp) h2)
      · exact State.calDone_touches (Part.sub rfl hp) (.ite h2 (State.give_touches (Part.sub rfl hp) h2))

theorem execGaugeInvocationDone_touches {ps : List Part} {s0 : State} {slot : Nat} {s : State}
    (hp : Part.within [.log, .mem, .cal, .gimg, .ques, .ebx, .evt, .dram, .out] ps = true) (h : Touches ps s0 s) :
    OTouches ps s0 (execGaugeInvocationDone slot s) := by
  unfold execGaugeInvocationDone
  refine State.coreDo_touches (Part.sub rfl hp) (fun _ hg => ?_) h
  extract_lets _
  split
  · exact State.calNext_touches (Part.sub rfl hp) (State.dropImage_touches (Part.sub rfl hp)
        (State.gaugeLand_touches (Part.sub rfl hp) (State.setSlot_touches (Part.sub rfl hp)
        (State.tileFree_touches (Part.sub rfl hp) hg))))
  · exact hg

end Sys2Proof.Machine
end

