-- ==== Sys2Proof/Laws/Frames/Journal.lean ====
section
/-!
SUPPORT. Laws/Frames/Journal.lean: what each operation of Machine/Journal.lean changes: one lemma for each, by the rules of
Laws/Touches.
-/
set_option Elab.async false
namespace Sys2Proof.Machine

theorem State.openSeq_touches {ps : List Part} {s0 s : State} {id : Nat} {site : Nat} {run : Nat}
    (hp : Part.within [.log, .cal, .jrn, .evt] ps = true) (h : Touches ps s0 s) :
    Touches ps s0 (State.openSeq s id site run) := by
  unfold State.openSeq
  extract_lets s1 _ _
  have h1 : Touches ps s0 s1 := State.bumpJ_touches (Part.sub rfl hp) h
  clear_value s1
  refine .ite ?_ ?_
  · exact h
  · refine .ite ?_ ?_
    · exact .ite h1 (State.jEvent_touches (Part.sub rfl hp) (.updJrn (Part.sub rfl hp) h1))
    · split
      · extract_lets bbm0s1
        have bbm0h1 : Touches ps s0 bbm0s1 := .updJrn (Part.sub rfl hp) h
        clear_value bbm0s1
        exact State.jrnSee_touches (Part.sub rfl hp) bbm0h1
      · exact .ite h1 (State.jEvent_touches (Part.sub rfl hp) (.updJrn (Part.sub rfl hp) h1))

theorem State.foldLoop_touches {ps : List Part} {s0 s : State} {slot k : Nat}
    (hp : Part.within [.log, .mem, .jrn, .evt, .dram] ps = true) (h : Touches ps s0 s) :
    Touches ps s0 (State.foldLoop slot k s) := by
  induction k generalizing s with
  | zero => exact h
  | succ k ih =>
    unfold State.foldLoop
    split
    · exact h
    · exact .ite (ih (State.foldBlock_touches (Part.sub rfl hp) h))
        (.ite (State.closeSeq_touches (Part.sub rfl hp) h) h)

theorem State.emission_touches {ps : List Part} {s0 s : State} {q : JSeq} {n : Nat} {rec : Bytes}
    (hp : Part.within [.log, .mem, .jrn, .evt, .dram] ps = true) (h : Touches ps s0 s) :
    Touches ps s0 (State.emission s q n rec) := by
  unfold State.emission
  extract_lets _ _ _ _ _
  refine .ite ?_ ?_
  · exact State.bumpJ_touches (Part.sub rfl hp) h
  · refine .ite ?_ ?_
    · exact State.bumpJ_touches (Part.sub rfl hp) h
    · split
      · refine .ite ?_ ?_
        · exact State.bumpJ_touches (Part.sub rfl hp) h
        · exact State.jEvent_touches (Part.sub rfl hp) (State.setSeq_touches (Part.sub rfl hp) h)
      · refine .ite ?_ ?_
        · exact State.bumpJ_touches (Part.sub rfl hp) h
        · exact State.foldLoop_touches (Part.sub rfl hp) (State.setSeq_touches (Part.sub rfl hp) h)

theorem State.takeEmission_touches {ps : List Part} {s0 s : State} {n : Nat} {rec : Bytes}
    (hp : Part.within [.log, .mem, .cal, .jrn, .evt, .dram] ps = true) (h : Touches ps s0 s) :
    Touches ps s0 (State.takeEmission s n rec) := by
  unfold State.takeEmission
  extract_lets s1
  have h1 : Touches ps s0 s1 := State.openSeq_touches (Part.sub rfl hp) h
  clear_value s1
  refine .ite ?_ ?_
  · exact State.bumpJ_touches (Part.sub rfl hp) h
  · refine .ite ?_ ?_
    · exact State.bumpJ_touches (Part.sub rfl hp) h
    · split
      · exact State.emission_touches (Part.sub rfl hp) h1
      · exact h1

theorem execEmissionRecord_touches {ps : List Part} {s0 : State} {port : Nat} {src : Nat} {rec : Bytes} {s : State}
    (hp : Part.within [.log, .mem, .cal, .jrn, .ebx, .evt, .dram, .out] ps = true) (h : Touches ps s0 s) :
    OTouches ps s0 (execEmissionRecord port src rec s) :=
  State.coreDo_touches (Part.sub rfl hp) (fun _ h => (State.siteMsg_touches (Part.sub rfl hp) (fun _ _ h =>
    (State.takeEmission_touches (Part.sub rfl hp) h)) h)) h

theorem State.takeInput_touches {ps : List Part} {s0 s : State} {n : Nat} {rec : Bytes}
    (hp : Part.within [.log, .mem, .cal, .jrn, .evt, .dram] ps = true) (h : Touches ps s0 s) :
    Touches ps s0 (State.takeInput s n rec) := by
  unfold State.takeInput
  extract_lets s1
  have h1 : Touches ps s0 s1 := State.openSeq_touches (Part.sub rfl hp) h
  clear_value s1
  refine .ite ?_ ?_
  · exact State.bumpJ_touches (Part.sub rfl hp) h
  · refine .ite ?_ ?_
    · exact State.bumpJ_touches (Part.sub rfl hp) h
    · split
      · exact h1
      · refine .ite ?_ ?_
        · exact State.bumpJ_touches (Part.sub rfl hp) h1
        · refine .ite ?_ ?_
          · exact State.bumpJ_touches (Part.sub rfl hp) h1
          · exact State.jAppend_touches (Part.sub rfl hp) (State.setSeq_touches (Part.sub rfl hp) h1)

theorem execBindInput_touches {ps : List Part} {s0 : State} {port : Nat} {src : Nat} {rec : Bytes} {s : State}
    (hp : Part.within [.log, .mem, .cal, .jrn, .ebx, .evt, .dram, .out] ps = true) (h : Touches ps s0 s) :
    OTouches ps s0 (execBindInput port src rec s) :=
  State.coreDo_touches (Part.sub rfl hp) (fun _ h => (State.siteMsg_touches (Part.sub rfl hp) (fun _ _ h =>
    (State.takeInput_touches (Part.sub rfl hp) h)) h)) h

theorem State.takeWeights_touches {ps : List Part} {s0 s : State} {n : Nat} {rec : Bytes}
    (hp : Part.within [.log, .mem, .cal, .jrn, .evt, .dram] ps = true) (h : Touches ps s0 s) :
    Touches ps s0 (State.takeWeights s n rec) := by
  unfold State.takeWeights
  extract_lets _ s1 _ s2 _
  have h1 : Touches ps s0 s1 := State.jAppend_touches (Part.sub rfl hp) (State.jrnSee_touches (Part.sub rfl hp) h)
  clear_value s1
  have h2 : Touches ps s0 s2 := State.setJrnRun_touches (Part.sub rfl hp) h1
  clear_value s2
  refine .ite ?_ ?_
  · exact State.bumpJ_touches (Part.sub rfl hp) h
  · refine .ite ?_ ?_
    · exact State.bumpJ_touches (Part.sub rfl hp) h
    · refine .ite ?_ ?_
      · exact State.bumpJ_touches (Part.sub rfl hp) h1
      · exact .ite h2 (.updJrn (Part.sub rfl hp) h2)

theorem execBindWeights_touches {ps : List Part} {s0 : State} {port : Nat} {src : Nat} {rec : Bytes} {s : State}
    (hp : Part.within [.log, .mem, .cal, .jrn, .ebx, .evt, .dram, .out] ps = true) (h : Touches ps s0 s) :
    OTouches ps s0 (execBindWeights port src rec s) :=
  State.coreDo_touches (Part.sub rfl hp) (fun _ h => (State.siteMsg_touches (Part.sub rfl hp) (fun _ _ h =>
    (State.takeWeights_touches (Part.sub rfl hp) h)) h)) h

theorem execJrnGapWaitExpiry_touches {ps : List Part} {s0 : State} {seq : Nat} {s : State}
    (hp : Part.within [.log, .mem, .jrn, .evt, .dram] ps = true) (h : Touches ps s0 s) :
    OTouches ps s0 (execJrnGapWaitExpiry seq s) := by
  unfold execJrnGapWaitExpiry
  refine State.coreDo_touches (Part.sub rfl hp) (fun _ hg => ?_) h
  split
  · exact hg
  · extract_lets _ _ _
    refine .ite ?_ ?_
    · exact State.foldLoop_touches (Part.sub rfl hp) (State.foldBlock_touches (Part.sub rfl hp) hg)
    · exact hg

theorem execJrnSeqIdleExpiry_touches {ps : List Part} {s0 : State} {seq : Nat} {s : State}
    (hp : Part.within [.log, .mem, .jrn, .evt, .dram] ps = true) (h : Touches ps s0 s) :
    OTouches ps s0 (execJrnSeqIdleExpiry seq s) := by
  unfold execJrnSeqIdleExpiry
  refine State.coreDo_touches (Part.sub rfl hp) (fun _ hg => ?_) h
  split
  · exact .ite (State.closeSeq_touches (Part.sub rfl hp) hg) hg
  · exact hg

theorem execJrnSealWaitExpiry_touches {ps : List Part} {s0 : State} {run : Nat} {s : State}
    (hp : Part.within [.jrn, .evt] ps = true) (h : Touches ps s0 s) :
    OTouches ps s0 (execJrnSealWaitExpiry run s) := by
  unfold execJrnSealWaitExpiry
  refine State.coreDo_touches (Part.sub rfl hp) (fun _ hg => ?_) h
  split
  · exact .ite (State.sealRun_touches (Part.sub rfl hp) hg) hg
  · exact hg

theorem State.jDone_touches {ps : List Part} {s0 s : State} {r : Req} {status : Nat} {result : Nat} {detail : Nat}
    {written : Nat} {next : Nat} (hp : Part.within [.mem, .ques, .ebx, .evt, .dram, .out] ps = true)
    (h : Touches ps s0 s) :
    Touches ps s0 (State.jDone s r status result detail written next) :=
  State.completeAs_touches (Part.sub rfl hp) h

theorem execSpotCheckDone_touches {ps : List Part} {s0 : State} {site : Nat} {run : Nat} {list : Option Bytes}
    {chunks : List (Nat × Bytes)} {s : State}
    (hp : Part.within [.log, .mem, .jrn, .ques, .ebx, .evt, .dram, .out] ps = true) (h : Touches ps s0 s) :
    OTouches ps s0 (execSpotCheckDone site run list chunks s) := by
  unfold execSpotCheckDone
  refine State.coreDo_touches (Part.sub rfl hp) (fun _ hg => ?_) h
  extract_lets _ gs1 _ _ _
  have gh1 : Touches ps s0 gs1 := .updJrn (Part.sub rfl hp) hg
  clear_value gs1
  split
  · exact hg
  · extract_lets gm1v1
    split
    · unfold gm1v1
      split
      · exact State.jDone_touches (Part.sub rfl hp) (State.bumpJ_touches (Part.sub rfl hp) gh1)
      · exact State.bumpJ_touches (Part.sub rfl hp) gh1
    · extract_lets gm1m1s1 _ gm1m1s2 gm1m1s3
      have gm1m1h1 : Touches ps s0 gm1m1s1 := .updJrn (Part.sub rfl hp) gh1
      clear_value gm1m1s1
      have gm1m1h2 : Touches ps s0 gm1m1s2 := State.setJrnRun_touches (Part.sub rfl hp) gm1m1h1
      clear_value gm1m1s2
      have gm1m1h3 : Touches ps s0 gm1m1s3 := .ite gm1m1h2 (State.jEvent_touches (Part.sub rfl hp) gm1m1h2)
      clear_value gm1m1s3
      unfold gm1v1
      split
      · exact State.jDone_touches (Part.sub rfl hp) gm1m1h3
      · exact gm1m1h3

theorem execManifestSigned_touches {ps : List Part} {s0 : State} {run : Nat} {ok : Bool} {s : State}
    (hp : Part.within [.log, .mem, .jrn, .evt, .dram] ps = true) (h : Touches ps s0 s) :
    OTouches ps s0 (execManifestSigned run ok s) := by
  unfold execManifestSigned
  refine State.armDo_touches (Part.sub rfl hp) (fun _ hg => ?_) h
  split
  · exact hg
  · split
    · exact hg
    · extract_lets _ gm1m1s1 _ gm1m1s2
      have gm1m1h1 : Touches ps s0 gm1m1s1 := State.setJrnRun_touches (Part.sub rfl hp) hg
      clear_value gm1m1s1
      have gm1m1h2 : Touches ps s0 gm1m1s2 := .updJrn (Part.sub rfl hp) gm1m1h1
      clear_value gm1m1s2
      refine .ite ?_ ?_
      · exact hg
      · refine .ite ?_ ?_
        · exact State.jAppend_touches (Part.sub rfl hp) gm1m1h2
        · exact State.jEvent_touches (Part.sub rfl hp) (State.setJrnRun_touches (Part.sub rfl hp) hg)

theorem State.jMend_touches {ps : List Part} {s0 s : State} {p : Nat} {e : JEntry}
    (hp : Part.within [.mem, .dram] ps = true) (h : Touches ps s0 s) :
    Touches ps s0 (State.jMend s p e) := by
  unfold State.jMend
  extract_lets _
  split
  · exact State.dwrite_touches (Part.sub rfl hp) h
  · exact h

theorem State.jTorn_touches {ps : List Part} {s0 s : State} {n : Nat} (hp : Part.within [.jrn] ps = true)
    (h : Touches ps s0 s) :
    Touches ps s0 (State.jTorn s n) :=
  .updJrn (Part.sub rfl hp) h

theorem State.badTarget_touches {ps : List Part} {s0 s : State} {r : Req} {addr : Nat} {code : Nat}
    (hp : Part.within [.mem, .ques, .ebx, .evt, .dram, .out] ps = true) (h : Touches ps s0 s) :
    Touches ps s0 (State.badTarget s r addr code) :=
  State.jDone_touches (Part.sub rfl hp) (State.ownViolation_touches (Part.sub rfl hp) h)

theorem State.jCopy_touches {ps : List Part} {s0 s : State} {r : Req} {e : Bytes} {l : List (Nat × JEntry)}
    (hp : Part.within [.mem, .jrn, .ques, .ebx, .evt, .dram, .out] ps = true) (h : Touches ps s0 s) :
    Touches ps s0 (State.jCopy s r e l) := by
  unfold State.jCopy
  extract_lets _ _ _ s1
  have h1 : Touches ps s0 s1 := State.jTorn_touches (Part.sub rfl hp) (.foldl (fun _ _ h =>
      (State.jMend_touches (Part.sub rfl hp) h)) h)
  clear_value s1
  refine .ite ?_ ?_
  · exact State.jDone_touches (Part.sub rfl hp) h1
  · split
    · exact State.badTarget_touches (Part.sub rfl hp) h1
    · exact State.jDone_touches (Part.sub rfl hp) (State.give_touches (Part.sub rfl hp) h1)

theorem State.exportHeld_touches {ps : List Part} {s0 s : State} {r : Req} {e : Bytes}
    (hp : Part.within [.mem, .jrn, .ques, .ebx, .evt, .dram, .out] ps = true) (h : Touches ps s0 s) :
    Touches ps s0 (State.exportHeld s r e) := by
  unfold State.exportHeld
  split
  · exact State.jDone_touches (Part.sub rfl hp) h
  · extract_lets m1s1 _ m1s2
    have m1h1 : Touches ps s0 m1s1 := State.give_touches (Part.sub rfl hp) h
    clear_value m1s1
    have m1h2 : Touches ps s0 m1s2 := .updJrn (Part.sub rfl hp) m1h1
    clear_value m1s2
    refine .ite ?_ ?_
    · exact State.jDone_touches (Part.sub rfl hp) h
    · refine .ite ?_ ?_
      · exact State.jDone_touches (Part.sub rfl hp) h
      · split
        · exact State.badTarget_touches (Part.sub rfl hp) h
        · exact State.jDone_touches (Part.sub rfl hp) m1h2

theorem execExportManifest_touches {ps : List Part} {s0 : State} {r : Req} {e : Bytes} {s : State}
    (hp : Part.within [.log, .mem, .jrn, .ques, .ebx, .evt, .mgt, .dram, .out] ps = true) (h : Touches ps s0 s) :
    OTouches ps s0 (execExportManifest r e s) := by
  unfold execExportManifest
  refine State.coreDo_touches (Part.sub rfl hp) (fun _ hg => ?_) h
  refine State.withRight_touches (Part.sub rfl hp) (fun _ ghg => ?_) hg
  split
  · exact State.jDone_touches (Part.sub rfl hp) ghg
  · split
    · exact State.exportHeld_touches (Part.sub rfl hp) ghg
    · extract_lets ggm1m1s1
      have ggm1m1h1 : Touches ps s0 ggm1m1s1 := State.jMend_touches (Part.sub rfl hp) ghg
      clear_value ggm1m1s1
      split
      · exact State.jDone_touches (Part.sub rfl hp) (State.jTorn_touches (Part.sub rfl hp) ghg)
      · extract_lets _
        refine .ite ?_ ?_
        · exact State.jDone_touches (Part.sub rfl hp) ggm1m1h1
        · split
          · exact State.badTarget_touches (Part.sub rfl hp) ggm1m1h1
          · exact State.jDone_touches (Part.sub rfl hp) (State.give_touches (Part.sub rfl hp) ggm1m1h1)

theorem execExportSeq_touches {ps : List Part} {s0 : State} {r : Req} {e : Bytes} {s : State}
    (hp : Part.within [.log, .mem, .jrn, .ques, .ebx, .evt, .mgt, .dram, .out] ps = true) (h : Touches ps s0 s) :
    OTouches ps s0 (execExportSeq r e s) := by
  unfold execExportSeq
  refine State.coreDo_touches (Part.sub rfl hp) (fun _ hg => ?_) h
  refine State.withRight_touches (Part.sub rfl hp) (fun _ ghg => ?_) hg
  extract_lets _
  split
  · exact State.jDone_touches (Part.sub rfl hp) ghg
  · refine .ite ?_ ?_
    · exact State.jDone_touches (Part.sub rfl hp) ghg
    · refine .ite ?_ ?_
      · exact State.jDone_touches (Part.sub rfl hp) ghg
      · exact State.jCopy_touches (Part.sub rfl hp) ghg

theorem execExportLog_touches {ps : List Part} {s0 : State} {r : Req} {e : Bytes} {s : State}
    (hp : Part.within [.log, .mem, .jrn, .ques, .ebx, .evt, .mgt, .dram, .out] ps = true) (h : Touches ps s0 s) :
    OTouches ps s0 (execExportLog r e s) := by
  unfold execExportLog
  refine State.coreDo_touches (Part.sub rfl hp) (fun _ hg => ?_) h
  extract_lets _
  refine State.withRight_touches (Part.sub rfl hp) (fun _ ghg => ?_) hg
  extract_lets _
  split
  · exact State.jDone_touches (Part.sub rfl hp) ghg
  · refine .ite ?_ ?_
    · exact State.jDone_touches (Part.sub rfl hp) ghg
    · split
      · exact State.jDone_touches (Part.sub rfl hp) ghg
      · extract_lets _ _
        refine .ite ?_ ?_
        · exact State.jDone_touches (Part.sub rfl hp) ghg
        · split
          · exact State.badTarget_touches (Part.sub rfl hp) ghg
          · exact State.jCopy_touches (Part.sub rfl hp) (State.setJpair_touches (Part.sub rfl hp) ghg)

theorem execHashRange_touches {ps : List Part} {s0 : State} {r : Req} {e : Bytes} {src : Option Bytes} {s : State}
    (hp : Part.within [.log, .mem, .jrn, .ques, .ebx, .evt, .mgt, .dram, .out] ps = true) (h : Touches ps s0 s) :
    OTouches ps s0 (execHashRange r e src s) := by
  unfold execHashRange
  refine State.coreDo_touches (Part.sub rfl hp) (fun _ hg => ?_) h
  refine State.withRight_touches (Part.sub rfl hp) (fun _ ghg => ?_) hg
  extract_lets _
  split
  · exact State.jDone_touches (Part.sub rfl hp) ghg
  · split
    · exact .updJrn (Part.sub rfl hp) ghg
    · exact State.jDone_touches (Part.sub rfl hp) ghg

theorem execDigestHashDone_touches {ps : List Part} {s0 : State} {k : Nat} {s : State}
    (hp : Part.within [.mem, .jrn, .ques, .ebx, .evt, .dram, .out] ps = true) (h : Touches ps s0 s) :
    OTouches ps s0 (execDigestHashDone k s) := by
  unfold execDigestHashDone
  refine State.coreDo_touches (Part.sub rfl hp) (fun _ hg => ?_) h
  extract_lets _ gs1
  have gh1 : Touches ps s0 gs1 := .updJrn (Part.sub rfl hp) hg
  clear_value gs1
  split
  · exact hg
  · exact by split; exact (State.badTarget_touches (Part.sub rfl hp) gh1); exact (State.jDone_touches (Part.sub rfl hp) (State.give_touches (Part.sub rfl hp) gh1))

theorem execSpotCheck_touches {ps : List Part} {s0 : State} {r : Req} {e : Bytes} {s : State}
    (hp : Part.within [.log, .mem, .jrn, .ques, .ebx, .evt, .mgt, .dram, .out] ps = true) (h : Touches ps s0 s) :
    OTouches ps s0 (execSpotCheck r e s) := by
  unfold execSpotCheck
  refine State.coreDo_touches (Part.sub rfl hp) (fun _ hg => ?_) h
  extract_lets _ _
  refine State.withRight_touches (Part.sub rfl hp) (fun _ ghg => ?_) hg
  extract_lets _
  split
  · exact State.jDone_touches (Part.sub rfl hp) ghg
  · refine .ite ?_ ?_
    · exact State.jDone_touches (Part.sub rfl hp) ghg
    · exact .ite (State.jDone_touches (Part.sub rfl hp) ghg) (.updJrn (Part.sub rfl hp) ghg)

theorem State.flushEnd_touches {ps : List Part} {s0 s : State} {complete : Bool}
    (hp : Part.within [.snap, .flash0, .flash1] ps = true) (h : Touches ps s0 s) :
    Touches ps s0 (State.flushEnd s complete) := by
  unfold State.flushEnd
  extract_lets _ _ s1 _
  have h1 : Touches ps s0 s1 := State.fstore_touches (Part.sub rfl hp) (State.fstore_touches (Part.sub rfl hp) h)
  clear_value s1
  exact .updSnap (Part.sub rfl hp) h1

theorem execJournalFlushDescriptorDone_touches {ps : List Part} {s0 : State} {complete : Bool} {s : State}
    (hp : Part.within [.snap, .flash0, .flash1] ps = true) (h : Touches ps s0 s) :
    OTouches ps s0 (execJournalFlushDescriptorDone complete s) :=
  State.standbyDo_touches (Part.sub rfl hp) (fun _ h => (.ite (State.flushEnd_touches (Part.sub rfl hp) h) h)) h

theorem State.jrnNewEpoch_touches {ps : List Part} {s0 s : State} (hp : Part.within [.log, .jrn, .evt] ps = true)
    (h : Touches ps s0 s) :
    Touches ps s0 (State.jrnNewEpoch s) := by
  unfold State.jrnNewEpoch
  extract_lets _ _ _ s1 s2 _
  have h1 : Touches ps s0 s1 := .updJrn (Part.sub rfl hp) h
  clear_value s1
  have h2 : Touches ps s0 s2 := State.jEvent_touches (Part.sub rfl hp) h1
  clear_value s2
  exact .foldl (fun _ _ h => (State.jEvent_touches (Part.sub rfl hp) h)) h2

theorem State.sealLost_touches {ps : List Part} {s0 s : State} (hp : Part.within [.jrn, .evt] ps = true)
    (h : Touches ps s0 s) :
    Touches ps s0 (State.sealLost s) :=
  .foldl (fun _ _ h => (State.trySeal_touches (Part.sub rfl hp) h)) h

end Sys2Proof.Machine
end

