-- ==== Sys2Proof/Laws/Frames/Images.lean ====
section
/-!
SUPPORT. Laws/Frames/Images.lean: what each operation of Machine/Images.lean changes: one lemma for each, by the rules of
Laws/Touches.
-/
set_option Elab.async false
namespace Sys2Proof.Machine

theorem State.writeArea_touches {ps : List Part} {s0 s : State} {dev : Nat} {off : Nat} {size : Nat} {count : Nat}
    {man : Bytes} {img : Bytes} (hp : Part.within [.flash0, .flash1] ps = true) (h : Touches ps s0 s) :
    Touches ps s0 (State.writeArea s dev off size count man img) := by
  unfold State.writeArea
  extract_lets s1 s2 _
  have h1 : Touches ps s0 s1 := State.fwrite_touches (Part.sub rfl hp) (State.ferase_touches (Part.sub rfl hp) h)
  clear_value s1
  have h2 : Touches ps s0 s2 := State.fwrite_touches (Part.sub rfl hp) h1
  clear_value s2
  exact State.fwrite_touches (Part.sub rfl hp) h2

end Sys2Proof.Machine
end

