-- ==== Sys2Proof/Laws/Frames/Maquette.lean ====
section
/-!
SUPPORT. Laws/Frames/Maquette.lean: what each operation of Machine/Maquette.lean changes: one lemma for each, by the rules of
Laws/Touches.
-/
set_option Elab.async false
namespace Sys2Proof.Machine

theorem State.writeProfRecord_touches {ps : List Part} {s0 s : State} {p : Nat} {version : Nat}
    (hp : Part.within [.flash0, .flash1] ps = true) (h : Touches ps s0 s) :
    Touches ps s0 (State.writeProfRecord s p version) :=
  State.fstore_touches (Part.sub rfl hp) (State.fstore_touches (Part.sub rfl hp) h)

theorem State.pointingRole_touches {ps : List Part} {s0 s : State} (hp : Part.within [.pnt] ps = true)
    (h : Touches ps s0 s) :
    Touches ps s0 (State.pointingRole s) := by
  unfold State.pointingRole
  extract_lets _ _
  exact .ite (.updPnt (Part.sub rfl hp) h) h

theorem State.reclamp_touches {ps : List Part} {s0 s : State} (hp : Part.within [.cap, .cool] ps = true)
    (h : Touches ps s0 s) :
    Touches ps s0 (State.reclamp s) := by
  unfold State.reclamp
  extract_lets _ s1 s2
  have h1 : Touches ps s0 s1 := .updCap (Part.sub rfl hp) h
  clear_value s1
  have h2 : Touches ps s0 s2 := .foldl (fun _ _ h => (State.setCapS_touches (Part.sub rfl hp) h)) h1
  clear_value s2
  exact .foldl (fun _ _ h => (.ite h (State.setFan_touches (Part.sub rfl hp) h))) h2

theorem State.commit_touches {ps : List Part} {s0 s : State} {target : Structure} {p : Nat}
    (hp : Part.within [.pwr, .maq, .seq, .svy, .log, .mem, .cap, .met, .pnt, .haz, .cool, .chi, .cal, .jrn, .gimg, .ques, .ebx, .evt, .pair, .dram, .out] ps = true)
    (h : Touches ps s0 s) :
    Touches ps s0 (State.commit s target p) := by
  unfold State.commit
  extract_lets _ _ s1 _ _ _ _ _ s2 _ s3 s4 s5 s6 _ s7 s8
  have h1 : Touches ps s0 s1 := .foldl (fun _ _ h => (State.setChiS_touches (Part.sub rfl hp) (.ite
      (State.setCapS_touches (Part.sub rfl hp) h) h))) h
  clear_value s1
  have h2 : Touches ps s0 s2 := .updMaqCoolPair (Part.sub rfl hp) h1
  clear_value s2
  have h3 : Touches ps s0 s3 := .updMaq (Part.sub rfl hp) h2
  clear_value s3
  have h4 : Touches ps s0 s4 := State.keepWindows_touches (Part.sub rfl hp) (State.reclamp_touches (Part.sub
      rfl hp) (State.calSetAll_touches (Part.sub rfl hp) h3))
  clear_value s4
  have h5 : Touches ps s0 s5 := .foldl (fun _ _ h => (.ite h (State.setFan_touches (Part.sub rfl hp) h))) h4
  clear_value s5
  have h6 : Touches ps s0 s6 := by
    unfold s6
    refine .foldl (fun _ _ k6hf => ?_) h5
    extract_lets _
    refine .ite ?_ ?_
    · exact State.toIdentify_touches (Part.sub rfl hp) k6hf
    · refine .ite ?_ ?_
      · exact k6hf
      · split
        · exact .ite (State.toIdentify_touches (Part.sub rfl hp) k6hf) k6hf
        · exact .ite (State.setSite_touches (Part.sub rfl hp) k6hf) k6hf
  clear_value s6
  have h7 : Touches ps s0 s7 := .ite (State.pointingRole_touches (Part.sub rfl hp) (.updSeq (Part.sub rfl
      hp) h6)) h6
  clear_value s7
  have h8 : Touches ps s0 s8 := .ite (State.startAll_touches (Part.sub rfl hp) h7) h7
  clear_value s8
  exact State.leakJudgeAll_touches (Part.sub rfl hp) (State.gaugeCommit_touches (Part.sub rfl hp) h8)

theorem State.maqError_touches {ps : List Part} {s0 s : State} {e : Nat × Nat}
    (hp : Part.within [.maq, .evt] ps = true) (h : Touches ps s0 s) :
    Touches ps s0 (State.maqError s e) :=
  State.event_touches (Part.sub rfl hp) (.updMaq (Part.sub rfl hp) h)

theorem State.maqDone_touches {ps : List Part} {s0 s : State} {r : Req} {status : Nat} {profile : Nat}
    {detail : Nat} (hp : Part.within [.mem, .ques, .ebx, .evt, .dram, .out] ps = true) (h : Touches ps s0 s) :
    Touches ps s0 (State.maqDone s r status profile detail) :=
  State.completeAs_touches (Part.sub rfl hp) h

theorem State.loadCopies_touches {ps : List Part} {s0 s : State} {p : Nat} (hp : Part.within [.maq, .evt] ps = true)
    (h : Touches ps s0 s) :
    Touches ps s0 (State.loadCopies s p).1 := by
  unfold State.loadCopies
  refine .foldlPair (fun z c hz => ?_) h
  dsimp only
  split
  · exact hz
  · split
    · exact hz
    · exact State.maqError_touches (Part.sub rfl hp) hz

theorem State.startLoad_touches {ps : List Part} {s0 s : State} {l : List Nat}
    (hp : Part.within [.pwr, .maq, .seq, .svy, .log, .mem, .cap, .met, .pnt, .haz, .cool, .chi, .cal, .jrn, .gimg, .ques, .ebx, .evt, .pair, .dram, .out] ps = true) (h : Touches ps s0 s) :
    Touches ps s0 (State.startLoad s l) := by
  induction l generalizing s with
  | nil => exact h
  | cons p rest ih =>
    have hr : Touches ps s0 (s.loadCopies p).1 := State.loadCopies_touches (Part.sub rfl hp) h
    unfold State.startLoad
    dsimp only
    split
    · exact State.commit_touches (Part.sub rfl hp) hr
    · exact ih hr

theorem State.noteLoad_touches {ps : List Part} {s0 s : State} {first : Nat} (hp : Part.within [.maq] ps = true)
    (h : Touches ps s0 s) :
    Touches ps s0 (State.noteLoad s first).1 := by
  unfold State.noteLoad
  split
  · exact (.updMaq (Part.sub rfl hp) h)
  · exact h

theorem State.maqTurn_touches {ps : List Part} {s0 s : State} {r : Req} {e : Bytes} {op : Nat} {f : State → State}
    (hp : Part.within [.log, .mem, .ques, .ebx, .evt, .mgt, .dram, .out] ps = true) (hf : ∀ (s' : State)
    (_ : Touches ps s0 s'), Touches ps s0 (f s')) (h : Touches ps s0 s) :
    Touches ps s0 (State.maqTurn s r e op f) := by
  unfold State.maqTurn
  refine .ite ?_ ?_
  · exact State.maqDone_touches (Part.sub rfl hp) (State.deniedRec_touches (Part.sub rfl hp) h)
  · split
    · exact State.maqDone_touches (Part.sub rfl hp) h
    · exact hf _ h

theorem State.maqCmd_touches {ps : List Part} {s0 s : State} {r : Req} {e : Bytes} {src : Option Bytes} {op : Nat}
    {f : State → State} (hp : Part.within [.maq, .log, .mem, .ques, .ebx, .evt, .mgt, .dram, .out] ps = true)
    (hf : ∀ (s' : State) (_ : Touches ps s0 s'), Touches ps s0 (f s')) (h : Touches ps s0 s) :
    OTouches ps s0 (State.maqCmd s r e src op f) :=
  State.coreDo_touches (Part.sub rfl hp) (fun _ h => (.ite (.updMaq (Part.sub rfl hp) h) (State.maqTurn_touches
    (Part.sub rfl hp) (fun _ h => (hf _ h)) h))) h

theorem State.maqStore_touches {ps : List Part} {s0 s : State} {r : Req} {e : Bytes} {src : Option Bytes}
    (hp : Part.within [.maq, .mem, .ques, .ebx, .evt, .dram, .out] ps = true) (h : Touches ps s0 s) :
    Touches ps s0 (State.maqStore s r e src) := by
  unfold State.maqStore
  extract_lets _ _
  refine .ite ?_ ?_
  · exact State.maqDone_touches (Part.sub rfl hp) h
  · refine .ite ?_ ?_
    · exact State.maqDone_touches (Part.sub rfl hp) h
    · refine .ite ?_ ?_
      · exact State.maqDone_touches (Part.sub rfl hp) h
      · split
        · exact State.maqDone_touches (Part.sub rfl hp) h
        · exact .updMaq (Part.sub rfl hp) h

theorem execMaqStore_touches {ps : List Part} {s0 : State} {r : Req} {e : Bytes} {src : Option Bytes} {s : State}
    (hp : Part.within [.maq, .log, .mem, .ques, .ebx, .evt, .mgt, .dram, .out] ps = true) (h : Touches ps s0 s) :
    OTouches ps s0 (execMaqStore r e src s) :=
  State.maqCmd_touches (Part.sub rfl hp) (fun _ h => (State.maqStore_touches (Part.sub rfl hp) h)) h

theorem State.maqSwitch_touches {ps : List Part} {s0 s : State} {r : Req} {e : Bytes}
    (hp : Part.within [.maq, .mem, .ques, .ebx, .evt, .dram, .out] ps = true) (h : Touches ps s0 s) :
    Touches ps s0 (State.maqSwitch s r e) := by
  unfold State.maqSwitch
  extract_lets _ _ s1 _
  have h1 : Touches ps s0 s1 := by
    unfold s1
    split
    · exact .ite h (State.maqDone_touches (Part.sub rfl hp) h)
    · exact h
  clear_value s1
  refine .ite ?_ ?_
  · exact State.maqDone_touches (Part.sub rfl hp) h
  · refine .ite ?_ ?_
    · exact State.maqDone_touches (Part.sub rfl hp) h
    · exact .ite (State.maqDone_touches (Part.sub rfl hp) h) (.updMaq (Part.sub rfl hp) h1)

theorem execMaqSwitch_touches {ps : List Part} {s0 : State} {r : Req} {e : Bytes} {s : State}
    (hp : Part.within [.maq, .log, .mem, .ques, .ebx, .evt, .mgt, .dram, .out] ps = true) (h : Touches ps s0 s) :
    OTouches ps s0 (execMaqSwitch r e s) :=
  State.maqCmd_touches (Part.sub rfl hp) (fun _ h => (State.maqSwitch_touches (Part.sub rfl hp) h)) h

theorem State.maqCancel_touches {ps : List Part} {s0 s : State} {r : Req}
    (hp : Part.within [.maq, .mem, .ques, .ebx, .evt, .dram, .out] ps = true) (h : Touches ps s0 s) :
    Touches ps s0 (State.maqCancel s r) := by
  unfold State.maqCancel
  extract_lets s1 _
  have h1 : Touches ps s0 s1 := by
    unfold s1
    split
    · exact .ite h (State.maqDone_touches (Part.sub rfl hp) h)
    · exact h
  clear_value s1
  exact State.maqDone_touches (Part.sub rfl hp) (.updMaq (Part.sub rfl hp) h1)

theorem execMaqCancel_touches {ps : List Part} {s0 : State} {r : Req} {e : Bytes} {s : State}
    (hp : Part.within [.maq, .log, .mem, .ques, .ebx, .evt, .mgt, .dram, .out] ps = true) (h : Touches ps s0 s) :
    OTouches ps s0 (execMaqCancel r e s) :=
  State.maqCmd_touches (Part.sub rfl hp) (fun _ h => (State.maqCancel_touches (Part.sub rfl hp) h)) h

theorem State.maqVerify_touches {ps : List Part} {s0 s : State} {r : Req} {e : Bytes}
    (hp : Part.within [.maq] ps = true) (h : Touches ps s0 s) :
    Touches ps s0 (State.maqVerify s r e) :=
  .updMaq (Part.sub rfl hp) h

theorem execMaqVerify_touches {ps : List Part} {s0 : State} {r : Req} {e : Bytes} {s : State}
    (hp : Part.within [.maq, .log, .mem, .ques, .ebx, .evt, .mgt, .dram, .out] ps = true) (h : Touches ps s0 s) :
    OTouches ps s0 (execMaqVerify r e s) :=
  State.maqCmd_touches (Part.sub rfl hp) (fun _ h => (State.maqVerify_touches (Part.sub rfl hp) h)) h

theorem State.protWrite_touches {ps : List Part} {s0 s : State} {gens : Nat × Nat} {off : Nat} {b : Bytes}
    (hp : Part.within [.flash0, .flash1] ps = true) (h : Touches ps s0 s) :
    Touches ps s0 (State.protWrite s gens off b).1 := by
  unfold State.protWrite
  extract_lets _
  split
  · exact h
  · split
    · exact State.fstore_touches (Part.sub rfl hp) h
    · exact State.fstore_touches (Part.sub rfl hp) (State.fstore_touches (Part.sub rfl hp) h)

theorem State.writeRevmin_touches {ps : List Part} {s0 s : State} {revoked : Nat} {fw : Nat} {st : Nat} {site : Nat}
    (hp : Part.within [.flash0, .flash1] ps = true) (h : Touches ps s0 s) :
    Touches ps s0 (State.writeRevmin s revoked fw st site).1 := by
  unfold State.writeRevmin
  extract_lets _
  exact State.protWrite_touches (Part.sub rfl hp) h

theorem State.maqSetMin_touches {ps : List Part} {s0 s : State} {r : Req} {e : Bytes}
    (hp : Part.within [.ob, .mem, .ques, .ebx, .evt, .flash0, .flash1, .dram, .out] ps = true) (h : Touches ps s0 s) :
    Touches ps s0 (State.maqSetMin s r e) := by
  have hd : ∀ (t : State) (c : Nat), Touches ps s0 t → Touches ps s0 (t.maqDone r c 0 0) := fun t c ht =>
    State.maqDone_touches (Part.sub rfl hp) ht
  unfold State.maqSetMin
  extract_lets _ _ _ w _
  have hw : Touches ps s0 w.1 := State.writeRevmin_touches (Part.sub rfl hp) h
  clear_value w
  exact .ite (hd _ _ h) (.ite (hd _ _ h) (.ite (hd _ _ h) (.ite (hd _ _ h) (.ite (hd _ _ (.updOb (Part.sub rfl hp) hw))
    (hd _ _ hw)))))

theorem execMaqSetMinVersion_touches {ps : List Part} {s0 : State} {r : Req} {e : Bytes} {s : State}
    (hp : Part.within [.ob, .maq, .log, .mem, .ques, .ebx, .evt, .mgt, .flash0, .flash1, .dram, .out] ps = true)
    (h : Touches ps s0 s) :
    OTouches ps s0 (execMaqSetMinVersion r e s) :=
  State.maqCmd_touches (Part.sub rfl hp) (fun _ h => (State.maqSetMin_touches (Part.sub rfl hp) h)) h

theorem execMaqUnknown_touches {ps : List Part} {s0 : State} {r : Req} {e : Bytes} {s : State}
    (hp : Part.within [.maq, .log, .mem, .ques, .ebx, .evt, .mgt, .dram, .out] ps = true) (h : Touches ps s0 s) :
    OTouches ps s0 (execMaqUnknown r e s) :=
  State.maqCmd_touches (Part.sub rfl hp) (fun _ h => h) h

theorem State.maqServe_touches {ps : List Part} {s0 s : State} {r : Req} {e : Bytes} {src : Option Bytes}
    (hp : Part.within [.ob, .maq, .log, .mem, .ques, .ebx, .evt, .mgt, .flash0, .flash1, .dram, .out] ps = true)
    (h : Touches ps s0 s) :
    Touches ps s0 (State.maqServe s r e src) := by
  unfold State.maqServe
  refine State.maqTurn_touches (Part.sub rfl hp) (fun _ hg => ?_) h
  split
  · exact State.maqStore_touches (Part.sub rfl hp) hg
  · exact State.maqSwitch_touches (Part.sub rfl hp) hg
  · exact State.maqCancel_touches (Part.sub rfl hp) hg
  · exact State.maqVerify_touches (Part.sub rfl hp) hg
  · exact State.maqSetMin_touches (Part.sub rfl hp) hg
  · exact hg

theorem State.maqServeAll_touches {ps : List Part} {s0 s : State} {l : List (Req × Bytes × Option Bytes)}
    (hp : Part.within [.ob, .maq, .log, .mem, .ques, .ebx, .evt, .mgt, .flash0, .flash1, .dram, .out] ps = true)
    (h : Touches ps s0 s) : Touches ps s0 (State.maqServeAll s l) := by
  induction l generalizing s with
  | nil => exact .updMaq (Part.sub rfl hp) h
  | cons x l ih =>
    unfold State.maqServeAll
    exact .ite (.updMaq (Part.sub rfl hp) h) (ih (State.maqServe_touches (Part.sub rfl hp) h))

theorem State.protFree_touches {ps : List Part} {s0 s : State}
    (hp : Part.within [.ob, .maq, .log, .mem, .ques, .ebx, .evt, .mgt, .flash0, .flash1, .dram, .out] ps = true)
    (h : Touches ps s0 s) :
    Touches ps s0 (State.protFree s) :=
  .ite (State.maqServeAll_touches (Part.sub rfl hp) h) h

theorem State.clearCarry_touches {ps : List Part} {s0 s : State} {step : Nat} (hp : Part.within [.led] ps = true)
    (h : Touches ps s0 s) :
    Touches ps s0 (State.clearCarry s step) :=
  .updLed (Part.sub rfl hp) h

theorem State.recordSwitch_touches {ps : List Part} {s0 s : State} {p : Nat} {version : Nat}
    (hp : Part.within [.maq, .flash0, .flash1] ps = true) (h : Touches ps s0 s) :
    Touches ps s0 (State.recordSwitch s p version) :=
  .ite (.updMaq (Part.sub rfl hp) h) (State.writeProfRecord_touches (Part.sub rfl hp) (.updMaq (Part.sub
    rfl hp) h))

theorem State.recordLate_touches {ps : List Part} {s0 s : State}
    (hp : Part.within [.maq, .flash0, .flash1] ps = true) (h : Touches ps s0 s) :
    Touches ps s0 (State.recordLate s) :=
  .elim h fun _ => (State.recordSwitch_touches (Part.sub rfl hp) h)

theorem State.storeCopyBegin_touches {ps : List Part} {s0 s : State} {o : MaqOp} {k : Nat}
    (hp : Part.within [.maq, .flash0, .flash1] ps = true) (h : Touches ps s0 s) :
    Touches ps s0 (State.storeCopyBegin s o k) := by
  unfold State.storeCopyBegin
  extract_lets s1 _
  have h1 : Touches ps s0 s1 := .elim h fun _ => (State.ferase_touches (Part.sub rfl hp) h)
  clear_value s1
  exact .updMaq (Part.sub rfl hp) h1

theorem State.storeVerified_touches {ps : List Part} {s0 s : State} {o : MaqOp}
    (hp : Part.within [.maq, .mem, .ques, .ebx, .evt, .flash0, .flash1, .dram, .out] ps = true)
    (h : Touches ps s0 s) :
    Touches ps s0 (State.storeVerified s o) := by
  unfold State.storeVerified
  split
  · exact (State.maqDone_touches (Part.sub rfl hp) (State.maqError_touches (Part.sub rfl hp) h))
  · exact (.ite (.updMaq (Part.sub rfl hp) h) (State.storeCopyBegin_touches (Part.sub rfl hp) h))

theorem State.storeWritten_touches {ps : List Part} {s0 s : State} {o : MaqOp} {k : Nat} {flashOk : Bool}
    (hp : Part.within [.led, .maq, .mem, .ques, .ebx, .evt, .flash0, .flash1, .dram, .out] ps = true)
    (h : Touches ps s0 s) :
    Touches ps s0 (State.storeWritten s o k flashOk) := by
  unfold State.storeWritten
  extract_lets _ s1 _
  have h1 : Touches ps s0 s1 := .elim h fun _ => (State.fwrite_touches (Part.sub rfl hp) h)
  clear_value s1
  refine .ite ?_ ?_
  · exact .updMaq (Part.sub rfl hp) h
  · refine .ite ?_ ?_
    · exact State.maqDone_touches (Part.sub rfl hp) h
    · refine .ite ?_ ?_
      · refine .ite ?_ ?_
        · exact .updMaq (Part.sub rfl hp) h1
        · exact State.storeCopyBegin_touches (Part.sub rfl hp) h1
      · exact State.maqDone_touches (Part.sub rfl hp) (.ite (State.clearCarry_touches (Part.sub rfl hp) h1) h1)

theorem State.storeEnd_touches {ps : List Part} {s0 s : State} {o : MaqOp} {flashOk : Bool}
    (hp : Part.within [.led, .maq, .mem, .ques, .ebx, .evt, .flash0, .flash1, .dram, .out] ps = true)
    (h : Touches ps s0 s) :
    Touches ps s0 (State.storeEnd s o flashOk) := by
  unfold State.storeEnd
  split
  · exact (State.storeVerified_touches (Part.sub rfl hp) h)
  · exact (State.storeWritten_touches (Part.sub rfl hp) h)

theorem State.switchDone_touches {ps : List Part} {s0 s : State} {o : MaqOp} {status : Nat} {detail : Nat}
    (hp : Part.within [.mem, .ques, .ebx, .evt, .dram, .out] ps = true) (h : Touches ps s0 s) :
    Touches ps s0 (State.switchDone s o status detail) :=
  .ite (State.event_touches (Part.sub rfl hp) h) (State.maqDone_touches (Part.sub rfl hp) h)

theorem State.switchEnd_touches {ps : List Part} {s0 s : State} {o : MaqOp} {flashOk : Bool}
    (hp : Part.within [.pwr, .led, .maq, .seq, .svy, .log, .mem, .cap, .met, .pnt, .haz, .cool, .chi, .cal, .jrn, .gimg, .ques, .ebx, .evt, .pair, .flash0, .flash1, .dram, .out] ps = true)
    (h : Touches ps s0 s) :
    Touches ps s0 (State.switchEnd s o flashOk) := by
  unfold State.switchEnd
  extract_lets s1 _ s2 _
  have h1 : Touches ps s0 s1.1 := State.loadCopies_touches (Part.sub rfl hp) h
  clear_value s1
  have h2 : Touches ps s0 s2 := h1
  clear_value s2
  split
  · exact State.switchDone_touches (Part.sub rfl hp) h2
  · extract_lets _ _ m1s1 m1s2 m1s3 _ m1s4 _ m1s5 _
    have m1h1 : Touches ps s0 m1s1 := State.clearCarry_touches (Part.sub rfl hp) (State.commit_touches
        (Part.sub rfl hp) h2)
    clear_value m1s1
    have m1h2 : Touches ps s0 m1s2 := .ite m1h1 (State.recordSwitch_touches (Part.sub rfl hp) m1h1)
    clear_value m1s2
    have m1h3 : Touches ps s0 m1s3 := .updMaq (Part.sub rfl hp) h2
    clear_value m1s3
    have m1h4 : Touches ps s0 m1s4 := .updMaq (Part.sub rfl hp) m1h3
    clear_value m1s4
    have m1h5 : Touches ps s0 m1s5 := State.switchDone_touches (Part.sub rfl hp) m1h4
    clear_value m1s5
    refine .ite ?_ ?_
    · refine .ite ?_ ?_
      · exact .updMaq (Part.sub rfl hp) h2
      · refine .ite ?_ ?_
        · exact State.switchDone_touches (Part.sub rfl hp) (State.writeProfRecord_touches (Part.sub rfl hp) h2)
        · exact State.switchDone_touches (Part.sub rfl hp) h2
    · refine .ite ?_ ?_
      · exact State.switchDone_touches (Part.sub rfl hp) m1h2
      · refine .ite ?_ ?_
        · exact State.switchDone_touches (Part.sub rfl hp) m1h3
        · exact .ite m1h5 (State.setQueue_touches (Part.sub rfl hp) m1h5)

theorem State.verifyEnd_touches {ps : List Part} {s0 s : State} {o : MaqOp}
    (hp : Part.within [.maq, .mem, .ques, .ebx, .evt, .dram, .out] ps = true) (h : Touches ps s0 s) :
    Touches ps s0 (State.verifyEnd s o) := by
  unfold State.verifyEnd
  extract_lets _ _ _ s1
  have h1 : Touches ps s0 s1 := .updMaq (Part.sub rfl hp) h
  clear_value s1
  refine .ite ?_ ?_
  · exact State.maqDone_touches (Part.sub rfl hp) h1
  · split
    · exact State.maqDone_touches (Part.sub rfl hp) h1
    · exact h1

theorem State.pinsBegin_touches {ps : List Part} {s0 s : State} {p : Nat}
    (hp : Part.within [.maq, .mem, .ques, .ebx, .evt, .dram, .out] ps = true) (h : Touches ps s0 s) :
    Touches ps s0 (State.pinsBegin s p) := by
  unfold State.pinsBegin
  extract_lets s1 _ _
  have h1 : Touches ps s0 s1 := by
    unfold s1
    split
    · exact .ite h (State.maqDone_touches (Part.sub rfl hp) h)
    · exact h
  clear_value s1
  exact .updMaq (Part.sub rfl hp) h1

theorem execMaqVerifyComplete_touches {ps : List Part} {s0 : State} {flashOk : Bool} {s : State}
    (hp : Part.within [.pwr, .led, .ob, .maq, .seq, .svy, .log, .mem, .cap, .met, .pnt, .haz, .cool, .chi, .cal, .jrn, .gimg, .ques, .ebx, .evt, .mgt, .pair, .flash0, .flash1, .dram, .out] ps = true)
    (h : Touches ps s0 s) :
    OTouches ps s0 (execMaqVerifyComplete flashOk s) := by
  unfold execMaqVerifyComplete
  refine State.standbyDo_touches (Part.sub rfl hp) (fun _ hg => ?_) h
  extract_lets _ gs1
  have gh1 : Touches ps s0 gs1 := .updMaq (Part.sub rfl hp) hg
  clear_value gs1
  split
  · exact hg
  · extract_lets gm1s1
    have gm1h1 : Touches ps s0 gm1s1 := .ite (State.storeEnd_touches (Part.sub rfl hp) gh1) (.ite
        (State.switchEnd_touches (Part.sub rfl hp) gh1) (State.verifyEnd_touches (Part.sub rfl hp) gh1))
    clear_value gm1s1
    exact .ite gm1h1 (by split; exact (State.pinsBegin_touches (Part.sub rfl hp) gm1h1); exact (State.maqServeAll_touches (Part.sub rfl hp) gm1h1))

theorem execMaqStagedCommit_touches {ps : List Part} {s0 s : State}
    (hp : Part.within [.pwr, .led, .maq, .seq, .svy, .log, .mem, .cap, .met, .pnt, .haz, .cool, .chi, .cal, .jrn, .gimg, .ques, .ebx, .evt, .pair, .flash0, .flash1, .dram, .out] ps = true)
    (h : Touches ps s0 s) :
    OTouches ps s0 (execMaqStagedCommit s) := by
  unfold execMaqStagedCommit
  refine State.standbyDo_touches (Part.sub rfl hp) (fun _ hg => ?_) h
  split
  · exact hg
  · extract_lets gm1s1 gm1s2
    have gm1h1 : Touches ps s0 gm1s1 := State.clearCarry_touches (Part.sub rfl hp) (State.commit_touches
        (Part.sub rfl hp) hg)
    clear_value gm1s1
    have gm1h2 : Touches ps s0 gm1s2 := .ite gm1h1 (State.recordSwitch_touches (Part.sub rfl hp) gm1h1)
    clear_value gm1s2
    refine .ite ?_ ?_
    · exact hg
    · refine .ite ?_ ?_
      · exact State.event_touches (Part.sub rfl hp) gm1h2
      · exact State.maqDone_touches (Part.sub rfl hp) gm1h2

theorem execProfilePinsStable_touches {ps : List Part} {s0 : State} {pins : Nat} {s : State}
    (hp : Part.within [.pins, .maq, .mem, .ques, .ebx, .evt, .dram, .out] ps = true) (h : Touches ps s0 s) :
    OTouches ps s0 (execProfilePinsStable pins s) := by
  unfold execProfilePinsStable
  refine State.standbyDo_touches (Part.sub rfl hp) (fun _ hg => ?_) h
  extract_lets _ _ gs1 _
  have gh1 : Touches ps s0 gs1 := .updPins (Part.sub rfl hp) hg
  clear_value gs1
  refine .ite ?_ ?_
  · exact hg
  · refine .ite ?_ ?_
    · exact .ite (.updMaq (Part.sub rfl hp) gh1) (State.pinsBegin_touches (Part.sub rfl hp) gh1)
    · exact gh1

end Sys2Proof.Machine
end

