-- ==== Sys2Proof/Laws/Frames/Reset.lean ====
section
/-!
SUPPORT. Laws/Frames/Reset.lean: what each operation of Machine/Reset.lean changes: one lemma for each, by the rules of
Laws/Touches.
-/
set_option Elab.async false
namespace Sys2Proof.Machine

theorem State.coldLedger_touches {ps : List Part} {s0 s : State} (hp : Part.within [.led, .maq] ps = true)
    (h : Touches ps s0 s) :
    Touches ps s0 (State.coldLedger s) := by
  unfold State.coldLedger
  extract_lets _ s1 _ _
  have h1 : Touches ps s0 s1 := .updLed (Part.sub rfl hp) h
  clear_value s1
  split
  · exact h1
  · extract_lets _ _
    exact .updLedMaq (Part.sub rfl hp) h1

theorem State.newStart_touches {ps : List Part} {s0 s : State} {k : RKind} {code : Nat}
    (hp : Part.within [.rst, .led] ps = true) (h : Touches ps s0 s) :
    Touches ps s0 (State.newStart s k code) := by
  unfold State.newStart
  extract_lets _ _ _ _ _ _ _ _ _ _
  exact .updRstLed (Part.sub rfl hp) h

theorem State.putEntry_touches {ps : List Part} {s0 s : State} {n : Nat} {x : LedgerEntry}
    (hp : Part.within [.led] ps = true) (h : Touches ps s0 s) :
    Touches ps s0 (State.putEntry s n x) :=
  .updLed (Part.sub rfl hp) h

theorem State.powerStep_touches {ps : List Part} {s0 s : State} {n : Nat}
    (hp : Part.within [.pwr, .seq, .log, .mem, .cap, .met, .pnt, .chi, .cal, .jrn, .ques, .ebx, .evt, .dram, .out] ps = true)
    (h : Touches ps s0 s) :
    Touches ps s0 (State.powerStep s n) :=
  .ite h (State.settle_touches (Part.sub rfl hp) (State.orderUp_touches (Part.sub rfl hp) (.updPwr (Part.sub
    rfl hp) h)))

theorem State.beginStep_touches {ps : List Part} {s0 s : State} {n : Nat} {form : Nat} {detail : Nat}
    (hp : Part.within [.pwr, .led, .seq, .log, .mem, .cap, .met, .pnt, .chi, .cal, .jrn, .ques, .ebx, .evt, .dram, .out] ps = true)
    (h : Touches ps s0 s) :
    Touches ps s0 (State.beginStep s n form detail) := by
  unfold State.beginStep
  extract_lets s1
  have h1 : Touches ps s0 s1 := .ite h (State.powerStep_touches (Part.sub rfl hp) h)
  clear_value s1
  exact State.putEntry_touches (Part.sub rfl hp) h1

theorem State.endStep_touches {ps : List Part} {s0 s : State} {n : Nat} {o : StepEnd} {detail : Option Nat}
    (hp : Part.within [.led] ps = true) (h : Touches ps s0 s) :
    Touches ps s0 (State.endStep s n o detail) := by
  unfold State.endStep
  split
  · exact (.ite (State.putEntry_touches (Part.sub rfl hp) h) h)
  · exact (.ite (.updLed (Part.sub rfl hp) h) h)
  · exact h

theorem State.wholeStep_touches {ps : List Part} {s0 s : State} {n : Nat} {form : Nat} {detail : Nat} {o : StepEnd}
    (hp : Part.within [.pwr, .led, .seq, .log, .mem, .cap, .met, .pnt, .chi, .cal, .jrn, .ques, .ebx, .evt, .dram, .out] ps = true)
    (h : Touches ps s0 s) :
    Touches ps s0 (State.wholeStep s n form detail o) :=
  State.endStep_touches (Part.sub rfl hp) (State.beginStep_touches (Part.sub rfl hp) h)

theorem State.dropUpdate_touches {ps : List Part} {s0 s : State}
    (hp : Part.within [.boot, .flash0, .flash1] ps = true) (h : Touches ps s0 s) :
    Touches ps s0 (State.dropUpdate s) := by
  unfold State.dropUpdate
  split
  · exact h
  · exact (.ite (.updBoot (Part.sub rfl hp) h) (State.ferase_touches (Part.sub rfl hp) (.updBoot (Part.sub rfl hp) h)))

theorem State.abandon7_touches {ps : List Part} {s0 s : State}
    (hp : Part.within [.mem, .ques, .ebx, .evt, .dram, .out] ps = true) (h : Touches ps s0 s) :
    Touches ps s0 (State.abandon7 s) :=
  .foldl (fun _ _ h => (State.completeAs_touches (Part.sub rfl hp) h)) h

theorem State.armatureReset_touches {ps : List Part} {s0 s : State}
    (hp : Part.within [.pwr, .rst, .boot, .cool, .mgt, .pair, .acc] ps = true) (h : Touches ps s0 s) :
    Touches ps s0 (State.armatureReset s) :=
  .updPwrRstBootCoolMgtPairAcc (Part.sub rfl hp) h

theorem State.armatureStop_touches {ps : List Part} {s0 s : State}
    (hp : Part.within [.pwr, .rst, .ob, .maq, .boot, .log, .mem, .cool, .ques, .ebx, .evt, .mgt, .pair, .acc, .flash0, .flash1, .dram, .out] ps = true)
    (h : Touches ps s0 s) :
    Touches ps s0 (State.armatureStop s) :=
  State.protFree_touches (Part.sub rfl hp) (State.armatureReset_touches (Part.sub rfl hp) (State.abandon7_touches
    (Part.sub rfl hp) (State.dropUpdate_touches (Part.sub rfl hp) h)))

theorem State.coreReset_touches {ps : List Part} {s0 s : State}
    (hp : Part.within [.pwr, .rst, .maq, .boot, .mem, .cap, .met, .pnt, .cool, .chi, .cal, .jrn, .gimg, .ques, .mov, .ebx, .evt, .mgt, .pair, .acc] ps = true)
    (h : Touches ps s0 s) :
    Touches ps s0 (State.coreReset s) := by
  unfold State.coreReset
  extract_lets _ _ _ _ _ _ _
  exact .updPwrRstMaqBootMemCapMetPntCoolChiCalJrnGimgQuesMovEbxEvtMgtPairAcc (Part.sub rfl hp) h

theorem State.caliperReset_touches {ps : List Part} {s0 s : State}
    (hp : Part.within [.pwr, .seq, .log, .mem, .cap, .met, .pnt, .chi, .cal, .jrn, .gimg, .ques, .ebx, .evt, .dram, .out] ps = true)
    (h : Touches ps s0 s) :
    Touches ps s0 (State.caliperReset s) := by
  unfold State.caliperReset
  extract_lets s1 _ _ _ s2
  have h1 : Touches ps s0 s1 := State.calStop_touches (Part.sub rfl hp) h
  clear_value s1
  have h2 : Touches ps s0 s2 := .updPwrCal (Part.sub rfl hp) h1
  clear_value s2
  refine .ite ?_ ?_
  · exact h2
  · exact State.settle_touches (Part.sub rfl hp) (State.orderUp_touches (Part.sub rfl hp) h2)

theorem State.standbyReset_touches {ps : List Part} {s0 s : State}
    (hp : Part.within [.pwr, .rst, .ob, .pins, .maq, .debug, .seq, .svy, .log, .snap, .cap, .rel, .met, .haz, .cool, .cal, .pair] ps = true)
    (h : Touches ps s0 s) :
    Touches ps s0 (State.standbyReset s) := by
  unfold State.standbyReset
  extract_lets _ _ _ _ _
  exact .updPwrRstObPinsMaqDebugSeqSvyLogSnapCapRelMetHazCoolCalPair (Part.sub rfl hp) h

theorem State.coldState_touches {ps : List Part} {s0 s : State}
    (hp : Part.within [.pwr, .rst, .led, .ob, .pins, .maq, .boot, .debug, .seq, .svy, .rcnt, .log, .snap, .mem, .cap, .rel, .met, .pat, .pnt, .haz, .cool, .chi, .ckpt, .cal, .jrn, .gimg, .selfTest, .ques, .mov, .ebx, .evt, .mgt, .pair, .acc, .dram] ps = true) (h : Touches ps s0 s) : Touches ps s0 (State.coldState s) := by
  refine .other [.pwr, .rst, .led, .ob, .pins, .maq, .boot, .debug, .seq, .svy, .rcnt, .log, .snap, .mem, .cap, .rel, .met, .pat, .pnt, .haz, .cool, .chi, .ckpt, .cal, .jrn, .gimg, .selfTest, .ques, .mov, .ebx, .evt, .mgt, .pair, .acc, .dram] hp h ?_ ?_
  · intro p q; cases p <;> first | rfl | exact absurd q (by decide)
  · intro k
    obtain ⟨h0, h1, _⟩ := State.memOk_iff.1 k
    exact State.memOk_iff.2 ⟨h0, h1, rfl⟩

theorem State.noteCause_touches {ps : List Part} {s0 s : State} {code : Nat} {k : RKind}
    (hp : Part.within [.rst] ps = true) (h : Touches ps s0 s) :
    Touches ps s0 (State.noteCause s code k) :=
  .updRst (Part.sub rfl hp) h

theorem State.lastCauses_touches {ps : List Part} {s0 s : State} {k : RKind} {was : Nat} {code : Nat}
    (hp : Part.within [.rst] ps = true) (h : Touches ps s0 s) :
    Touches ps s0 (State.lastCauses s k was code) := by
  unfold State.lastCauses
  extract_lets _ _ _ _
  exact .updRst (Part.sub rfl hp) h

theorem State.bootAgain_touches {ps : List Part} {s0 s : State} (hp : Part.within [.fresh, .rst] ps = true)
    (h : Touches ps s0 s) :
    Touches ps s0 (State.bootAgain s) :=
  .updFreshRst (Part.sub rfl hp) h

theorem State.begin7_touches {ps : List Part} {s0 s : State}
    (hp : Part.within [.pwr, .led, .seq, .log, .mem, .cap, .met, .pnt, .chi, .cal, .jrn, .ques, .ebx, .evt, .dram, .out] ps = true)
    (h : Touches ps s0 s) :
    Touches ps s0 (State.begin7 s) :=
  .ite h (State.beginStep_touches (Part.sub rfl hp) h)

theorem State.begin9_touches {ps : List Part} {s0 s : State}
    (hp : Part.within [.pwr, .led, .seq, .log, .mem, .cap, .met, .pnt, .chi, .cal, .jrn, .ques, .ebx, .evt, .dram, .out] ps = true)
    (h : Touches ps s0 s) :
    Touches ps s0 (State.begin9 s) := by
  unfold State.begin9
  extract_lets _ s1
  have h1 : Touches ps s0 s1 := .ite (.updPwr (Part.sub rfl hp) h) h
  clear_value s1
  exact State.beginStep_touches (Part.sub rfl hp) h1

theorem State.begin6_touches {ps : List Part} {s0 s : State}
    (hp : Part.within [.pwr, .led, .seq, .log, .mem, .cap, .met, .pnt, .chi, .cal, .jrn, .ques, .ebx, .evt, .pair, .dram, .out] ps = true)
    (h : Touches ps s0 s) :
    Touches ps s0 (State.begin6 s) :=
  .ite (State.beginStep_touches (Part.sub rfl hp) (.updPair (Part.sub rfl hp) h)) h

theorem State.restartOver_touches {ps : List Part} {s0 s : State} {k : RKind} (hp : Part.within [.rst] ps = true)
    (h : Touches ps s0 s) :
    Touches ps s0 (State.restartOver s k) :=
  .updRst (Part.sub rfl hp) h

theorem State.sourceHolds_touches {ps : List Part} {s0 s : State} {code : Nat} {k : RKind}
    (hp : Part.within [.rst, .haz] ps = true) (h : Touches ps s0 s) :
    Touches ps s0 (State.sourceHolds s code k) :=
  .ite (.updRstHaz (Part.sub rfl hp) h) h

theorem State.restartEffects_touches {ps : List Part} {s0 s : State} {k : RKind} {code : Nat}
    (hp : Part.within [.pwr, .rst, .led, .ob, .pins, .maq, .boot, .debug, .seq, .svy, .rcnt, .log, .snap, .mem, .cap, .rel, .met, .pat, .pnt, .haz, .cool, .chi, .ckpt, .cal, .jrn, .gimg, .selfTest, .ques, .mov, .ebx, .evt, .mgt, .pair, .acc, .flash0, .flash1, .dram, .out] ps = true)
    (h : Touches ps s0 s) :
    Touches ps s0 (State.restartEffects s k code) := by
  unfold State.restartEffects
  extract_lets s1 _ _ _
  have h1 : Touches ps s0 s1 := State.standbyReset_touches (Part.sub rfl hp) (State.coreReset_touches (Part.sub
      rfl hp) (State.dropUpdate_touches (Part.sub rfl hp) (State.pageLand_touches (Part.sub rfl hp) h)))
  clear_value s1
  split
  · exact State.coldState_touches (Part.sub rfl hp) h
  · exact .updRstHaz (Part.sub rfl hp) h1
  · exact State.coreReset_touches (Part.sub rfl hp) (State.dropUpdate_touches (Part.sub rfl hp) h)
  · exact State.armatureStop_touches (Part.sub rfl hp) h
  · exact State.caliperReset_touches (Part.sub rfl hp) h

theorem State.firstStep_touches {ps : List Part} {s0 s : State} {k : RKind}
    (hp : Part.within [.pwr, .led, .seq, .log, .mem, .cap, .met, .pnt, .chi, .cal, .jrn, .ques, .ebx, .evt, .pair, .dram, .out] ps = true)
    (h : Touches ps s0 s) :
    Touches ps s0 (State.firstStep s k) := by
  unfold State.firstStep
  split
  · exact (State.beginStep_touches (Part.sub rfl hp) h)
  · exact (State.begin9_touches (Part.sub rfl hp) h)
  · exact (State.begin7_touches (Part.sub rfl hp) (State.begin6_touches (Part.sub rfl hp) h))
  · exact h

theorem State.resetSource_touches {ps : List Part} {s0 s : State} {code : Nat} {k : RKind}
    (hp : Part.within [.pwr, .rst, .led, .ob, .pins, .maq, .boot, .debug, .seq, .svy, .rcnt, .log, .snap, .mem, .cap, .rel, .met, .pat, .pnt, .haz, .cool, .chi, .ckpt, .cal, .jrn, .gimg, .selfTest, .ques, .mov, .ebx, .evt, .mgt, .pair, .acc, .flash0, .flash1, .dram, .out] ps = true)
    (h : Touches ps s0 s) :
    Touches ps s0 (State.resetSource s code k) := by
  unfold State.resetSource
  extract_lets s1 _ _ s2 _ s3
  have h1 : Touches ps s0 s1 := State.noteCause_touches (Part.sub rfl hp) h
  clear_value s1
  have h2 : Touches ps s0 s2 := State.lastCauses_touches (Part.sub rfl hp) h1
  clear_value s2
  have h3 : Touches ps s0 s3 := .updRst (Part.sub rfl hp) h2
  clear_value s3
  split
  · extract_lets _ m0s1 m0s2 m0s3 _ _ m0s4
    have m0h1 : Touches ps s0 m0s1 := .updRst (Part.sub rfl hp) h1
    clear_value m0s1
    have m0h2 : Touches ps s0 m0s2 := State.lastCauses_touches (Part.sub rfl hp) m0h1
    clear_value m0s2
    have m0h3 : Touches ps s0 m0s3 := State.restartEffects_touches (Part.sub rfl hp) m0h2
    clear_value m0s3
    have m0h4 : Touches ps s0 m0s4 := .updRstLed (Part.sub rfl hp) m0h3
    clear_value m0s4
    refine .ite ?_ ?_
    · exact State.firstStep_touches (Part.sub rfl hp) m0h4
    · exact State.sourceHolds_touches (Part.sub rfl hp) m0h2
  · exact State.firstStep_touches (Part.sub rfl hp) (State.newStart_touches (Part.sub rfl hp)
        (State.restartEffects_touches (Part.sub rfl hp) h3))

theorem State.swReset_touches {ps : List Part} {s0 s : State} {code : Nat} {k : RKind}
    (hp : Part.within [.pwr, .rst, .led, .ob, .pins, .maq, .boot, .debug, .seq, .svy, .rcnt, .log, .snap, .mem, .cap, .rel, .met, .pat, .pnt, .haz, .cool, .chi, .ckpt, .cal, .jrn, .gimg, .selfTest, .ques, .mov, .ebx, .evt, .mgt, .pair, .acc, .flash0, .flash1, .dram, .out] ps = true)
    (h : Touches ps s0 s) :
    Touches ps s0 (State.swReset s code k) := by
  unfold State.swReset
  extract_lets s1 _
  have h1 : Touches ps s0 s1 := State.snapshot_touches (Part.sub rfl hp) h
  clear_value s1
  refine .ite ?_ ?_
  · exact State.resetSource_touches (Part.sub rfl hp) h
  · refine .ite ?_ ?_
    · exact .updRst (Part.sub rfl hp) h1
    · exact State.resetSource_touches (Part.sub rfl hp) h1

theorem State.swResetWrite_touches {ps : List Part} {s0 s : State} {r : Req} {key : Nat} {code : Nat} {k : RKind}
    (hp : Part.within [.pwr, .rst, .led, .ob, .pins, .maq, .boot, .debug, .seq, .svy, .rcnt, .log, .snap, .mem, .cap, .rel, .met, .pat, .pnt, .haz, .cool, .chi, .ckpt, .cal, .jrn, .gimg, .selfTest, .ques, .mov, .ebx, .evt, .mgt, .pair, .acc, .flash0, .flash1, .dram, .out] ps = true)
    (h : Touches ps s0 s) :
    OTouches ps s0 (State.swResetWrite s r key code k) :=
  State.coreDo_touches (Part.sub rfl hp) (fun _ h => (.ite (State.event_touches (Part.sub rfl hp)
    (State.refuseWrite_touches (Part.sub rfl hp) h)) (.ite (State.event_touches (Part.sub rfl hp) h)
    (State.swReset_touches (Part.sub rfl hp) h)))) h

theorem execPowerOn_touches {ps : List Part} {s0 s : State}
    (hp : Part.within [.pwr, .rst, .led, .ob, .pins, .maq, .boot, .debug, .seq, .svy, .rcnt, .log, .snap, .mem, .cap, .rel, .met, .pat, .pnt, .haz, .cool, .chi, .ckpt, .cal, .jrn, .gimg, .selfTest, .ques, .mov, .ebx, .evt, .mgt, .pair, .acc, .dram] ps = true)
    (h : Touches ps s0 s) :
    OTouches ps s0 (execPowerOn s) :=
  .next (.updPwrRst (Part.sub rfl hp) (State.coldState_touches (Part.sub rfl hp) h))

theorem execStandbyOn_touches {ps : List Part} {s0 s : State} (hp : Part.within [.pwr] ps = true)
    (h : Touches ps s0 s) :
    OTouches ps s0 (execStandbyOn s) :=
  .next (.updPwr (Part.sub rfl hp) h)

theorem execStandbyOff_touches {ps : List Part} {s0 s : State}
    (hp : Part.within [.pwr, .rst, .led, .ob, .pins, .maq, .boot, .debug, .seq, .svy, .rcnt, .log, .snap, .mem, .cap, .rel, .met, .pat, .pnt, .haz, .cool, .chi, .ckpt, .cal, .jrn, .gimg, .selfTest, .ques, .mov, .ebx, .evt, .mgt, .pair, .acc, .dram] ps = true)
    (h : Touches ps s0 s) :
    OTouches ps s0 (execStandbyOff s) :=
  .next (State.coldState_touches (Part.sub rfl hp) h)

theorem execInputUndervoltageReset_touches {ps : List Part} {s0 s : State}
    (hp : Part.within [.pwr, .rst, .led, .ob, .pins, .maq, .boot, .debug, .seq, .svy, .rcnt, .log, .snap, .mem, .cap, .rel, .met, .pat, .pnt, .haz, .cool, .chi, .ckpt, .cal, .jrn, .gimg, .selfTest, .ques, .mov, .ebx, .evt, .mgt, .pair, .acc, .flash0, .flash1, .dram, .out] ps = true)
    (h : Touches ps s0 s) :
    OTouches ps s0 (execInputUndervoltageReset s) :=
  State.standbyDo_touches (Part.sub rfl hp) (fun _ h => (State.resetSource_touches (Part.sub rfl hp) h)) h

theorem State.parityLedger_touches {ps : List Part} {s0 s : State} (hp : Part.within [.rst, .led, .maq] ps = true)
    (h : Touches ps s0 s) :
    Touches ps s0 (State.parityLedger s) := by
  unfold State.parityLedger
  split
  · exact h
  · exact (State.newStart_touches (Part.sub rfl hp) (State.coldLedger_touches (Part.sub rfl hp) h))
  · exact (State.coldLedger_touches (Part.sub rfl hp) h)

theorem execPlinthSupervisorReset_touches {ps : List Part} {s0 : State} {parity : Bool} {s : State}
    (hp : Part.within [.pwr, .rst, .led, .ob, .pins, .maq, .boot, .debug, .seq, .svy, .rcnt, .log, .snap, .mem, .cap, .rel, .met, .pat, .pnt, .haz, .cool, .chi, .ckpt, .cal, .jrn, .gimg, .selfTest, .ques, .mov, .ebx, .evt, .mgt, .pair, .acc, .flash0, .flash1, .dram, .out] ps = true)
    (h : Touches ps s0 s) :
    OTouches ps s0 (execPlinthSupervisorReset parity s) := by
  unfold execPlinthSupervisorReset
  refine State.standbyDo_touches (Part.sub rfl hp) (fun _ hg => ?_) h
  extract_lets _ _ gs1 gs2 _
  have gh1 : Touches ps s0 gs1 := .updLedRcntLogMetPatPntCool (Part.sub rfl hp) hg
  clear_value gs1
  have gh2 : Touches ps s0 gs2 := State.resetSource_touches (Part.sub rfl hp) (State.parityLedger_touches
      (Part.sub rfl hp) gh1)
  clear_value gs2
  refine .ite ?_ ?_
  · exact .updMet (Part.sub rfl hp) gh2
  · exact State.resetSource_touches (Part.sub rfl hp) hg

theorem State.wdtExpiry_touches {ps : List Part} {s0 s : State}
    (hp : Part.within [.pwr, .rst, .led, .ob, .pins, .maq, .boot, .debug, .seq, .svy, .rcnt, .log, .snap, .mem, .cap, .rel, .met, .pat, .pnt, .haz, .cool, .chi, .ckpt, .cal, .jrn, .gimg, .selfTest, .ques, .mov, .ebx, .evt, .mgt, .pair, .acc, .flash0, .flash1, .dram, .out] ps = true)
    (h : Touches ps s0 s) :
    Touches ps s0 (State.wdtExpiry s) := by
  unfold State.wdtExpiry
  extract_lets _ _ s1
  have h1 : Touches ps s0 s1 := .updRst (Part.sub rfl hp) h
  clear_value s1
  refine .ite ?_ ?_
  · exact State.resetSource_touches (Part.sub rfl hp) h1
  · exact State.resetSource_touches (Part.sub rfl hp) h1

theorem execArmatureWatchdogExpiry_touches {ps : List Part} {s0 s : State}
    (hp : Part.within [.pwr, .rst, .led, .ob, .pins, .maq, .boot, .debug, .seq, .svy, .rcnt, .log, .snap, .mem, .cap, .rel, .met, .pat, .pnt, .haz, .cool, .chi, .ckpt, .cal, .jrn, .gimg, .selfTest, .ques, .mov, .ebx, .evt, .mgt, .pair, .acc, .flash0, .flash1, .dram, .out] ps = true)
    (h : Touches ps s0 s) :
    OTouches ps s0 (execArmatureWatchdogExpiry s) :=
  State.coreDo_touches (Part.sub rfl hp) (fun _ h => (.ite (State.wdtExpiry_touches (Part.sub rfl hp) h) h)) h

theorem execSwResetModule_touches {ps : List Part} {s0 : State} {r : Req} {key : Nat} {s : State}
    (hp : Part.within [.pwr, .rst, .led, .ob, .pins, .maq, .boot, .debug, .seq, .svy, .rcnt, .log, .snap, .mem, .cap, .rel, .met, .pat, .pnt, .haz, .cool, .chi, .ckpt, .cal, .jrn, .gimg, .selfTest, .ques, .mov, .ebx, .evt, .mgt, .pair, .acc, .flash0, .flash1, .dram, .out] ps = true)
    (h : Touches ps s0 s) :
    OTouches ps s0 (execSwResetModule r key s) :=
  State.swResetWrite_touches (Part.sub rfl hp) h

theorem execSwResetCoreDie_touches {ps : List Part} {s0 : State} {r : Req} {key : Nat} {s : State}
    (hp : Part.within [.pwr, .rst, .led, .ob, .pins, .maq, .boot, .debug, .seq, .svy, .rcnt, .log, .snap, .mem, .cap, .rel, .met, .pat, .pnt, .haz, .cool, .chi, .ckpt, .cal, .jrn, .gimg, .selfTest, .ques, .mov, .ebx, .evt, .mgt, .pair, .acc, .flash0, .flash1, .dram, .out] ps = true)
    (h : Touches ps s0 s) :
    OTouches ps s0 (execSwResetCoreDie r key s) :=
  State.swResetWrite_touches (Part.sub rfl hp) h

theorem execSwResetCaliper_touches {ps : List Part} {s0 : State} {r : Req} {key : Nat} {s : State}
    (hp : Part.within [.pwr, .rst, .led, .ob, .pins, .maq, .boot, .debug, .seq, .svy, .rcnt, .log, .snap, .mem, .cap, .rel, .met, .pat, .pnt, .haz, .cool, .chi, .ckpt, .cal, .jrn, .gimg, .selfTest, .ques, .mov, .ebx, .evt, .mgt, .pair, .acc, .flash0, .flash1, .dram, .out] ps = true)
    (h : Touches ps s0 s) :
    OTouches ps s0 (execSwResetCaliper r key s) :=
  State.swResetWrite_touches (Part.sub rfl hp) h

theorem execSwResetArmature_touches {ps : List Part} {s0 : State} {r : Req} {key : Nat} {s : State}
    (hp : Part.within [.pwr, .rst, .led, .ob, .pins, .maq, .boot, .debug, .seq, .svy, .rcnt, .log, .snap, .mem, .cap, .rel, .met, .pat, .pnt, .haz, .cool, .chi, .ckpt, .cal, .jrn, .gimg, .selfTest, .ques, .mov, .ebx, .evt, .mgt, .pair, .acc, .flash0, .flash1, .dram, .out] ps = true)
    (h : Touches ps s0 s) :
    OTouches ps s0 (execSwResetArmature r key s) :=
  State.swResetWrite_touches (Part.sub rfl hp) h

theorem execSwResetRefused_touches {ps : List Part} {s0 : State} {r : Req} {value : Nat} {s : State}
    (hp : Part.within [.log, .evt, .mgt] ps = true) (h : Touches ps s0 s) :
    OTouches ps s0 (execSwResetRefused r value s) :=
  State.coreDo_touches (Part.sub rfl hp) (fun _ h => (State.event_touches (Part.sub rfl hp) (.ite h
    (State.refuseWrite_touches (Part.sub rfl hp) h)))) h

theorem execDebugAuthorisedReset_touches {ps : List Part} {s0 : State} {kind : Nat} {s : State}
    (hp : Part.within [.pwr, .rst, .led, .ob, .pins, .maq, .boot, .debug, .seq, .svy, .rcnt, .log, .snap, .mem, .cap, .rel, .met, .pat, .pnt, .haz, .cool, .chi, .ckpt, .cal, .jrn, .gimg, .selfTest, .ques, .mov, .ebx, .evt, .mgt, .pair, .acc, .flash0, .flash1, .dram, .out] ps = true)
    (h : Touches ps s0 s) :
    OTouches ps s0 (execDebugAuthorisedReset kind s) :=
  State.standbyDo_touches (Part.sub rfl hp) (fun _ h => (.ite h (.ite (State.swReset_touches (Part.sub rfl hp) h)
    (.ite (State.swReset_touches (Part.sub rfl hp) h) (.ite (State.swReset_touches (Part.sub rfl hp) h) h))))) h

theorem execRecoveryReqHold_touches {ps : List Part} {s0 s : State}
    (hp : Part.within [.pwr, .rst, .led, .ob, .pins, .maq, .boot, .debug, .seq, .svy, .rcnt, .log, .snap, .mem, .cap, .rel, .met, .pat, .pnt, .haz, .cool, .chi, .ckpt, .cal, .jrn, .gimg, .selfTest, .ques, .mov, .ebx, .evt, .mgt, .pair, .acc, .flash0, .flash1, .dram, .out] ps = true)
    (h : Touches ps s0 s) :
    OTouches ps s0 (execRecoveryReqHold s) :=
  State.standbyDo_touches (Part.sub rfl hp) (fun _ h => (State.resetSource_touches (Part.sub rfl hp) h)) h

theorem execSnapshotTrailerWritten_touches {ps : List Part} {s0 s : State}
    (hp : Part.within [.pwr, .rst, .led, .ob, .pins, .maq, .boot, .debug, .seq, .svy, .rcnt, .log, .snap, .mem, .cap, .rel, .met, .pat, .pnt, .haz, .cool, .chi, .ckpt, .cal, .jrn, .gimg, .selfTest, .ques, .mov, .ebx, .evt, .mgt, .pair, .acc, .flash0, .flash1, .dram, .out] ps = true)
    (h : Touches ps s0 s) :
    OTouches ps s0 (execSnapshotTrailerWritten s) := by
  unfold execSnapshotTrailerWritten
  refine State.standbyDo_touches (Part.sub rfl hp) (fun _ hg => ?_) h
  extract_lets _ gs1 _ gs2
  have gh1 : Touches ps s0 gs1 := State.snapDone_touches (Part.sub rfl hp) hg
  clear_value gs1
  have gh2 : Touches ps s0 gs2 := .updRst (Part.sub rfl hp) gh1
  clear_value gs2
  exact .ite hg (.foldl (fun _ _ h => (State.resetSource_touches (Part.sub rfl hp) h)) gh2)

end Sys2Proof.Machine
end

