-- ==== Sys2Proof/Laws/Frames/Update.lean ====
section
/-!
SUPPORT. Laws/Frames/Update.lean: what each operation of Machine/Update.lean changes: one lemma for each, by the rules of
Laws/Touches.
-/
set_option Elab.async false
namespace Sys2Proof.Machine

theorem State.updFail_touches {ps : List Part} {s0 s : State} {r : Req} {op : Nat} {num : Nat} {code : Nat}
    {detail : Nat} (hp : Part.within [.boot, .mem, .ques, .ebx, .evt, .dram, .out] ps = true) (h : Touches ps s0 s) :
    Touches ps s0 (State.updFail s r op num code detail) := by
  unfold State.updFail
  extract_lets _ s1
  have h1 : Touches ps s0 s1 := .updBoot (Part.sub rfl hp) h
  clear_value s1
  exact State.complete_touches (Part.sub rfl hp) (State.event_touches (Part.sub rfl hp) h1)

theorem State.updRight_touches {ps : List Part} {s0 s : State} {r : Req} {op : Nat} {num : Nat} {f : State → State}
    (hp : Part.within [.boot, .log, .mem, .ques, .ebx, .evt, .mgt, .dram, .out] ps = true) (hf : ∀ (s' : State)
    (_ : Touches ps s0 s'), Touches ps s0 (f s')) (h : Touches ps s0 s) :
    OTouches ps s0 (State.updRight s r op num f) :=
  State.fwDo_touches (Part.sub rfl hp) (fun _ h => (.ite (hf _ h) (State.updFail_touches (Part.sub rfl hp)
    (State.deniedRec_touches (Part.sub rfl hp) h)))) h

theorem State.notPlaster_touches {ps : List Part} {s0 s : State} {r : Req} {op : Nat} {num : Nat}
    {f : State → State} (hp : Part.within [.boot, .mem, .ques, .ebx, .evt, .dram, .out] ps = true) (hf : ∀
    (s' : State) (_ : Touches ps s0 s'), Touches ps s0 (f s')) (h : Touches ps s0 s) :
    Touches ps s0 (State.notPlaster s r op num f) :=
  .ite (State.updFail_touches (Part.sub rfl hp) h) (hf _ h)

theorem State.opDo_touches {ps : List Part} {s0 s : State} {r : Req} {op : Nat} {num : Nat} {f : State → State}
    (hp : Part.within [.boot, .mem, .ques, .ebx, .evt, .dram, .out] ps = true) (hf : ∀ (s' : State)
    (_ : Touches ps s0 s'), Touches ps s0 (f s')) (h : Touches ps s0 s) :
    Touches ps s0 (State.opDo s r op num f) := by
  unfold State.opDo
  split
  · exact (State.updFail_touches (Part.sub rfl hp) h)
  · exact (hf _ h)

theorem State.updDo_touches {ps : List Part} {s0 s : State} {r : Req} {op : Nat} {num : Nat} {f : State → State}
    (hp : Part.within [.boot, .mem, .ques, .ebx, .evt, .dram, .out] ps = true) (hf : ∀ (s' : State)
    (_ : Touches ps s0 s'), Touches ps s0 (f s')) (h : Touches ps s0 s) :
    Touches ps s0 (State.updDo s r op num f) := by
  unfold State.updDo
  split
  · exact (State.updFail_touches (Part.sub rfl hp) h)
  · exact (hf _ h)

theorem State.streamBegin_touches {ps : List Part} {s0 s : State} {r : Req} {e : Bytes} {src : Option Bytes}
    {op : Nat} {typ : Nat} {size : Nat} {target : Nat} {minVer : Option Nat}
    (hp : Part.within [.boot, .mem, .ques, .ebx, .evt, .flash0, .flash1, .dram, .out] ps = true)
    (h : Touches ps s0 s) :
    Touches ps s0 (State.streamBegin s r e src op typ size target minVer) := by
  unfold State.streamBegin
  refine State.notPlaster_touches (Part.sub rfl hp) (fun _ hg => ?_) h
  refine State.updDo_touches (Part.sub rfl hp) (fun _ ghg => ?_) hg
  extract_lets _
  split
  · exact State.updFail_touches (Part.sub rfl hp) ghg
  · extract_lets _
    split
    · exact State.updFail_touches (Part.sub rfl hp) ghg
    · exact State.ferase_touches (Part.sub rfl hp) (.updBoot (Part.sub rfl hp) ghg)

theorem execInstallFw_touches {ps : List Part} {s0 : State} {r : Req} {e : Bytes} {src : Option Bytes} {s : State}
    (hp : Part.within [.boot, .log, .mem, .ques, .ebx, .evt, .mgt, .flash0, .flash1, .dram, .out] ps = true)
    (h : Touches ps s0 s) :
    OTouches ps s0 (execInstallFw r e src s) :=
  State.updRight_touches (Part.sub rfl hp) (fun _ h => (State.streamBegin_touches (Part.sub rfl hp) h)) h

theorem execUpdatePlaster_touches {ps : List Part} {s0 : State} {r : Req} {e : Bytes} {src : Option Bytes}
    {s : State}
    (hp : Part.within [.boot, .log, .mem, .ques, .ebx, .evt, .mgt, .flash0, .flash1, .dram, .out] ps = true)
    (h : Touches ps s0 s) :
    OTouches ps s0 (execUpdatePlaster r e src s) :=
  State.updRight_touches (Part.sub rfl hp) (fun _ h => (State.streamBegin_touches (Part.sub rfl hp) h)) h

theorem execStoreSiteImage_touches {ps : List Part} {s0 : State} {r : Req} {e : Bytes} {src : Option Bytes}
    {s : State}
    (hp : Part.within [.boot, .log, .mem, .ques, .ebx, .evt, .mgt, .flash0, .flash1, .dram, .out] ps = true)
    (h : Touches ps s0 s) :
    OTouches ps s0 (execStoreSiteImage r e src s) :=
  State.updRight_touches (Part.sub rfl hp) (fun _ h => (.ite (State.updFail_touches (Part.sub rfl hp) h)
    (State.streamBegin_touches (Part.sub rfl hp) h))) h

theorem State.updWrite_touches {ps : List Part} {s0 s : State} {u : UpdOp}
    (hp : Part.within [.flash0, .flash1] ps = true) (h : Touches ps s0 s) :
    Touches ps s0 (State.updWrite s u) :=
  State.writeArea_touches (Part.sub rfl hp) h

theorem State.streamEnd_touches {ps : List Part} {s0 s : State} {u : UpdOp} {flash : FlashEnd}
    (hp : Part.within [.led, .boot, .mem, .ques, .ebx, .evt, .flash0, .flash1, .dram, .out] ps = true)
    (h : Touches ps s0 s) :
    Touches ps s0 (State.streamEnd s u flash) := by
  unfold State.streamEnd
  extract_lets _ s1 s2 _ _ _ s3
  have h1 : Touches ps s0 s1 := .updBoot (Part.sub rfl hp) h
  clear_value s1
  have h2 : Touches ps s0 s2 := State.updWrite_touches (Part.sub rfl hp) h1
  clear_value s2
  have h3 : Touches ps s0 s3 := .updBoot (Part.sub rfl hp) h2
  clear_value s3
  split
  · exact State.updFail_touches (Part.sub rfl hp) (State.ferase_touches (Part.sub rfl hp) h1)
  · split
    · exact State.updFail_touches (Part.sub rfl hp) (State.ferase_touches (Part.sub rfl hp) h1)
    · exact State.updFail_touches (Part.sub rfl hp) (State.ferase_touches (Part.sub rfl hp) h1)
    · refine .ite ?_ ?_
      · exact State.complete_touches (Part.sub rfl hp) (.updLedBoot (Part.sub rfl hp) h2)
      · refine .ite ?_ ?_
        · exact State.complete_touches (Part.sub rfl hp) h2
        · exact .ite h3 (State.ferase_touches (Part.sub rfl hp) h3)

theorem execUpdateOperationDone_touches {ps : List Part} {s0 : State} {flashEnd : FlashEnd} {s : State}
    (hp : Part.within [.led, .ob, .maq, .boot, .log, .mem, .ques, .ebx, .evt, .mgt, .flash0, .flash1, .dram, .out] ps = true)
    (h : Touches ps s0 s) :
    OTouches ps s0 (execUpdateOperationDone flashEnd s) := by
  unfold execUpdateOperationDone
  refine State.fwDo_touches (Part.sub rfl hp) (fun _ hg => ?_) h
  split
  · exact hg
  · refine .ite ?_ ?_
    · exact hg
    · exact State.protFree_touches (Part.sub rfl hp) (State.streamEnd_touches (Part.sub rfl hp) hg)

theorem execCommitFw_touches {ps : List Part} {s0 : State} {r : Req} {s : State}
    (hp : Part.within [.ob, .boot, .log, .mem, .ques, .ebx, .evt, .mgt, .flash0, .flash1, .dram, .out] ps = true)
    (h : Touches ps s0 s) :
    OTouches ps s0 (execCommitFw r s) := by
  unfold execCommitFw
  refine State.updRight_touches (Part.sub rfl hp) (fun _ hg => ?_) h
  refine State.opDo_touches (Part.sub rfl hp) (fun _ ghg => ?_) hg
  split
  · exact ghg
  · refine .ite ?_ ?_
    · exact State.updFail_touches (Part.sub rfl hp) ghg
    · refine .ite ?_ ?_
      · exact State.complete_touches (Part.sub rfl hp) ghg
      · refine State.updDo_touches (Part.sub rfl hp) (fun _ ggm1bbhg => ?_) ghg
        extract_lets ggm1bbgs1 ggm1bbgs2 _
        have ggm1bbgh1 : Touches ps s0 ggm1bbgs1.1 := State.writeRevmin_touches (Part.sub rfl hp) ggm1bbhg
        clear_value ggm1bbgs1
        have ggm1bbgh2 : Touches ps s0 ggm1bbgs2 := ggm1bbgh1
        clear_value ggm1bbgs2
        refine .ite ?_ ?_
        · exact State.complete_touches (Part.sub rfl hp) (.updOb (Part.sub rfl hp) ggm1bbgh2)
        · exact State.updFail_touches (Part.sub rfl hp) ggm1bbgh1

theorem execCommitDwellExpiry_touches {ps : List Part} {s0 s : State} (hp : Part.within [.boot] ps = true)
    (h : Touches ps s0 s) :
    OTouches ps s0 (execCommitDwellExpiry s) :=
  State.coreDo_touches (Part.sub rfl hp) (fun _ h => (.ite (.updBoot (Part.sub rfl hp) h) h)) h

theorem execDeferredBlockCheck_touches {ps : List Part} {s0 : State} {block : Nat} {data : Bytes} {s : State}
    (hp : Part.within [.boot, .evt] ps = true) (h : Touches ps s0 s) :
    OTouches ps s0 (execDeferredBlockCheck block data s) := by
  unfold execDeferredBlockCheck
  refine State.fwDo_touches (Part.sub rfl hp) (fun _ hg => ?_) h
  extract_lets _
  split
  · exact hg
  · exact .ite hg (State.event_touches (Part.sub rfl hp) (.updBoot (Part.sub rfl hp) hg))

theorem State.startPush_touches {ps : List Part} {s0 s : State} {n : Nat} {entry : Nat × Nat} {r : Option Req}
    (hp : Part.within [.boot, .out] ps = true) (h : Touches ps s0 s) :
    Touches ps s0 (State.startPush s n entry r) := by
  unfold State.startPush
  extract_lets _ _ _
  exact State.emit_touches (Part.sub rfl hp) (.updBoot (Part.sub rfl hp) h)

theorem State.startPushes_touches {ps : List Part} {s0 s : State} (hp : Part.within [.boot, .out] ps = true)
    (h : Touches ps s0 s) :
    Touches ps s0 (State.startPushes s) := by
  unfold State.startPushes
  refine .ite ?_ ?_
  · exact h
  · refine .foldl (fun _ _ bhf => ?_) h
    extract_lets _ bfs1
    have bfh1 : Touches ps s0 bfs1 := .updBoot (Part.sub rfl hp) bhf
    clear_value bfs1
    exact by split; exact (.ite bfh1 (State.startPush_touches (Part.sub rfl hp) bfh1)); exact bfh1

theorem execPushSite_touches {ps : List Part} {s0 : State} {r : Req} {site : Nat} {s : State}
    (hp : Part.within [.boot, .log, .mem, .ques, .ebx, .evt, .mgt, .dram, .out] ps = true) (h : Touches ps s0 s) :
    OTouches ps s0 (execPushSite r site s) := by
  unfold execPushSite
  refine State.updRight_touches (Part.sub rfl hp) (fun _ hg => ?_) h
  refine .ite ?_ ?_
  · exact State.updFail_touches (Part.sub rfl hp) hg
  · refine State.notPlaster_touches (Part.sub rfl hp) (fun _ gbhg => ?_) hg
    refine State.updDo_touches (Part.sub rfl hp) (fun _ gbghg => ?_) gbhg
    extract_lets _
    refine .ite ?_ ?_
    · exact .updBoot (Part.sub rfl hp) gbghg
    · split
      · exact State.updFail_touches (Part.sub rfl hp) gbghg
      · exact State.startPush_touches (Part.sub rfl hp) gbghg

theorem execSitePushDone_touches {ps : List Part} {s0 : State} {site : Nat} {readback : Option Digest} {s : State}
    (hp : Part.within [.boot, .mem, .ques, .ebx, .evt, .dram, .out] ps = true) (h : Touches ps s0 s) :
    OTouches ps s0 (execSitePushDone site readback s) := by
  unfold execSitePushDone
  refine State.fwDo_touches (Part.sub rfl hp) (fun _ hg => ?_) h
  extract_lets _ _ gs1 gs2
  have gh1 : Touches ps s0 gs1 := .updBoot (Part.sub rfl hp) hg
  clear_value gs1
  have gh2 : Touches ps s0 gs2 := .updBoot (Part.sub rfl hp) hg
  clear_value gs2
  split
  · exact hg
  · refine .ite ?_ ?_
    · exact hg
    · refine .ite ?_ ?_
      · split
        · exact State.complete_touches (Part.sub rfl hp) gh1
        · exact gh1
      · refine .ite ?_ ?_
        · split
          · exact State.updFail_touches (Part.sub rfl hp) gh2
          · exact State.event_touches (Part.sub rfl hp) gh2
        · exact .updBoot (Part.sub rfl hp) hg

theorem execActivateSite_touches {ps : List Part} {s0 : State} {r : Req} {site : Nat} {s : State}
    (hp : Part.within [.boot, .log, .mem, .ques, .ebx, .evt, .mgt, .dram, .out] ps = true) (h : Touches ps s0 s) :
    OTouches ps s0 (execActivateSite r site s) :=
  State.updRight_touches (Part.sub rfl hp) (fun _ h => (.ite (State.updFail_touches (Part.sub rfl hp) h)
    (State.notPlaster_touches (Part.sub rfl hp) (fun _ h => (State.opDo_touches (Part.sub rfl hp) (fun _ h => (.ite
    (State.updFail_touches (Part.sub rfl hp) h) (State.complete_touches (Part.sub rfl hp) (State.emit_touches
    (Part.sub rfl hp) h)))) h)) h))) h

theorem execVersionReport_touches {ps : List Part} {s0 : State} {r : Req} {e : Bytes} {s : State}
    (hp : Part.within [.boot, .log, .mem, .ques, .ebx, .evt, .mgt, .dram, .out] ps = true) (h : Touches ps s0 s) :
    OTouches ps s0 (execVersionReport r e s) := by
  unfold execVersionReport
  refine State.updRight_touches (Part.sub rfl hp) (fun _ hg => ?_) h
  refine State.opDo_touches (Part.sub rfl hp) (fun _ ghg => ?_) hg
  refine .ite ?_ ?_
  · exact State.updFail_touches (Part.sub rfl hp) ghg
  · split
    · exact State.updFail_touches (Part.sub rfl hp) (State.ownViolation_touches (Part.sub rfl hp) ghg)
    · exact State.complete_touches (Part.sub rfl hp) (State.give_touches (Part.sub rfl hp) ghg)

theorem execHelloSession_touches {ps : List Part} {s0 : State} {r : Req} {e : Bytes} {s : State}
    (hp : Part.within [.boot, .mem, .ques, .ebx, .evt, .dram, .out] ps = true) (h : Touches ps s0 s) :
    OTouches ps s0 (execHelloSession r e s) :=
  State.fwDo_touches (Part.sub rfl hp) (fun _ h => (State.complete_touches (Part.sub rfl hp) (.updBoot
    (Part.sub rfl hp) h))) h

theorem State.crDo_touches {ps : List Part} {s0 s : State} {r : Req} {b : Bytes} {kind : Nat} {any : Bool}
    {f : State → Bytes → State}
    (hp : Part.within [.boot, .log, .mem, .ques, .ebx, .evt, .mgt, .dram, .out] ps = true) (hf : ∀ (s' : State)
    (_ : Touches ps s0 s') (z2 : Bytes), Touches ps s0 (f s' z2)) (h : Touches ps s0 s) :
    OTouches ps s0 (State.crDo s r b kind any f) := by
  unfold State.crDo
  refine State.fwDo_touches (Part.sub rfl hp) (fun _ hg => ?_) h
  refine .ite ?_ ?_
  · exact State.updFail_touches (Part.sub rfl hp) (State.deniedRec_touches (Part.sub rfl hp) hg)
  · refine State.updDo_touches (Part.sub rfl hp) (fun _ gbhg => ?_) hg
    refine .ite ?_ ?_
    · exact State.updFail_touches (Part.sub rfl hp) gbhg
    · split
      · exact State.updFail_touches (Part.sub rfl hp) gbhg
      · exact hf _ gbhg _

theorem execRevokeKeys_touches {ps : List Part} {s0 : State} {r : Req} {rec : Bytes} {s : State}
    (hp : Part.within [.ob, .maq, .boot, .log, .mem, .ques, .ebx, .evt, .mgt, .flash0, .flash1, .dram, .out] ps = true)
    (h : Touches ps s0 s) :
    OTouches ps s0 (execRevokeKeys r rec s) := by
  unfold execRevokeKeys
  refine State.crDo_touches (Part.sub rfl hp) (fun _ hg _ => ?_) h
  extract_lets _ _ _ gs1 gs2 gs3 _ _
  have gh1 : Touches ps s0 gs1 := .updOb (Part.sub rfl hp) hg
  clear_value gs1
  have gh2 : Touches ps s0 gs2.1 := State.writeRevmin_touches (Part.sub rfl hp) gh1
  clear_value gs2
  have gh3 : Touches ps s0 gs3 := gh2
  clear_value gs3
  refine .ite ?_ ?_
  · exact State.updFail_touches (Part.sub rfl hp) hg
  · refine .ite ?_ ?_
    · exact State.updFail_touches (Part.sub rfl hp) hg
    · refine .ite ?_ ?_
      · exact State.complete_touches (Part.sub rfl hp) hg
      · refine .ite ?_ ?_
        · exact State.updFail_touches (Part.sub rfl hp) hg
        · refine .ite ?_ ?_
          · exact State.complete_touches (Part.sub rfl hp) (.updObMaq (Part.sub rfl hp) gh3)
          · exact State.updFail_touches (Part.sub rfl hp) (.updOb (Part.sub rfl hp) gh3)

theorem execOptionUpdate_touches {ps : List Part} {s0 : State} {r : Req} {rec : Bytes} {s : State}
    (hp : Part.within [.ob, .boot, .log, .mem, .ques, .ebx, .evt, .mgt, .flash0, .flash1, .dram, .out] ps = true)
    (h : Touches ps s0 s) :
    OTouches ps s0 (execOptionUpdate r rec s) :=
  State.crDo_touches (Part.sub rfl hp) (fun _ h _ => (.ite (State.updFail_touches (Part.sub rfl hp) h) (.ite
    (State.updFail_touches (Part.sub rfl hp) h) (.ite (State.updFail_touches (Part.sub rfl hp) h) (.ite
    (State.complete_touches (Part.sub rfl hp) (State.protWrite_touches (Part.sub rfl hp) h)) (State.updFail_touches
    (Part.sub rfl hp) (State.protWrite_touches (Part.sub rfl hp) h))))))) h

theorem execKeyProvision_touches {ps : List Part} {s0 : State} {r : Req} {rec : Bytes} {s : State}
    (hp : Part.within [.ob, .boot, .log, .mem, .ques, .ebx, .evt, .mgt, .flash0, .flash1, .dram, .out] ps = true)
    (h : Touches ps s0 s) :
    OTouches ps s0 (execKeyProvision r rec s) := by
  unfold execKeyProvision
  refine State.crDo_touches (Part.sub rfl hp) (fun _ hg _ => ?_) h
  extract_lets _ _
  refine .ite ?_ ?_
  · exact State.updFail_touches (Part.sub rfl hp) hg
  · refine .ite ?_ ?_
    · exact State.updFail_touches (Part.sub rfl hp) hg
    · refine .ite ?_ ?_
      · exact State.updFail_touches (Part.sub rfl hp) hg
      · split
        · exact State.updFail_touches (Part.sub rfl hp) hg
        · extract_lets _ gbbbm1s1 gbbbm1s2 _
          have gbbbm1h1 : Touches ps s0 gbbbm1s1.1 := State.protWrite_touches (Part.sub rfl hp) hg
          clear_value gbbbm1s1
          have gbbbm1h2 : Touches ps s0 gbbbm1s2 := gbbbm1h1
          clear_value gbbbm1s2
          refine .ite ?_ ?_
          · exact State.complete_touches (Part.sub rfl hp) (.updOb (Part.sub rfl hp) gbbbm1h2)
          · exact State.updFail_touches (Part.sub rfl hp) gbbbm1h1

theorem State.plasterLetGo_touches {ps : List Part} {s0 s : State}
    (hp : Part.within [.pwr, .rst, .led, .ob, .pins, .maq, .boot, .debug, .seq, .svy, .rcnt, .log, .snap, .mem, .cap, .rel, .met, .pat, .pnt, .haz, .cool, .chi, .ckpt, .cal, .jrn, .gimg, .selfTest, .ques, .mov, .ebx, .evt, .mgt, .pair, .acc, .flash0, .flash1, .dram, .out] ps = true)
    (h : Touches ps s0 s) :
    Touches ps s0 (State.plasterLetGo s) :=
  .ite (State.swReset_touches (Part.sub rfl hp) (.updBoot (Part.sub rfl hp) h)) h

theorem execRevminRestore_touches {ps : List Part} {s0 : State} {r : Req} {rec : Bytes} {s : State}
    (hp : Part.within [.pwr, .rst, .led, .ob, .pins, .maq, .boot, .debug, .seq, .svy, .rcnt, .log, .snap, .mem, .cap, .rel, .met, .pat, .pnt, .haz, .cool, .chi, .ckpt, .cal, .jrn, .gimg, .selfTest, .ques, .mov, .ebx, .evt, .mgt, .pair, .acc, .flash0, .flash1, .dram, .out] ps = true)
    (h : Touches ps s0 s) :
    OTouches ps s0 (execRevminRestore r rec s) := by
  unfold execRevminRestore
  refine State.crDo_touches (Part.sub rfl hp) (fun _ hg _ => ?_) h
  extract_lets _ _ _ _ _ gs1 gs2 _
  have gh1 : Touches ps s0 gs1.1 := State.protWrite_touches (Part.sub rfl hp) hg
  clear_value gs1
  have gh2 : Touches ps s0 gs2 := gh1
  clear_value gs2
  refine .ite ?_ ?_
  · exact State.updFail_touches (Part.sub rfl hp) hg
  · refine .ite ?_ ?_
    · exact State.updFail_touches (Part.sub rfl hp) hg
    · refine .ite ?_ ?_
      · exact State.updFail_touches (Part.sub rfl hp) hg
      · refine .ite ?_ ?_
        · exact State.plasterLetGo_touches (Part.sub rfl hp) (State.complete_touches (Part.sub rfl hp) (.upd
              [.ob] (Part.sub rfl hp) gh2))
        · exact State.updFail_touches (Part.sub rfl hp) gh1

theorem execDebugOpen_touches {ps : List Part} {s0 : State} {r : Req} {rec : Bytes} {s : State}
    (hp : Part.within [.boot, .debug, .log, .mem, .ques, .ebx, .evt, .mgt, .dram, .out] ps = true)
    (h : Touches ps s0 s) :
    OTouches ps s0 (execDebugOpen r rec s) :=
  State.crDo_touches (Part.sub rfl hp) (fun _ h _ => (.ite (State.updFail_touches (Part.sub rfl hp) h) (.ite
    (State.updFail_touches (Part.sub rfl hp) h) (.ite (State.updFail_touches (Part.sub rfl hp) h)
    (State.complete_touches (Part.sub rfl hp) (State.event_touches (Part.sub rfl hp) (.updBootDebug
    (Part.sub rfl hp) h))))))) h

theorem execPrincipalSet_touches {ps : List Part} {s0 : State} {r : Req} {rec : Bytes} {s : State}
    (hp : Part.within [.boot, .log, .mem, .ques, .ebx, .evt, .mgt, .flash0, .flash1, .dram, .out] ps = true)
    (h : Touches ps s0 s) :
    OTouches ps s0 (execPrincipalSet r rec s) :=
  State.crDo_touches (Part.sub rfl hp) (fun _ h _ => (.ite (State.updFail_touches (Part.sub rfl hp) h) (.ite
    (State.updFail_touches (Part.sub rfl hp) h) (.ite (State.updFail_touches (Part.sub rfl hp)
    (State.protWrite_touches (Part.sub rfl hp) h)) (State.complete_touches (Part.sub rfl hp) (State.record_touches
    (Part.sub rfl hp) (State.protWrite_touches (Part.sub rfl hp) h))))))) h

theorem execControlRecordRefused_touches {ps : List Part} {s0 : State} {r : Req} {rec : Bytes} {s : State}
    (hp : Part.within [.boot, .log, .mem, .ques, .ebx, .evt, .mgt, .dram, .out] ps = true) (h : Touches ps s0 s) :
    OTouches ps s0 (execControlRecordRefused r rec s) := by
  unfold execControlRecordRefused
  refine State.fwDo_touches (Part.sub rfl hp) (fun _ hg => ?_) h
  refine .ite ?_ ?_
  · exact State.updFail_touches (Part.sub rfl hp) (State.deniedRec_touches (Part.sub rfl hp) hg)
  · refine State.updDo_touches (Part.sub rfl hp) (fun _ gbhg => ?_) hg
    split
    · exact State.updFail_touches (Part.sub rfl hp) gbhg
    · exact gbhg

theorem execPlasterImageReceived_touches {ps : List Part} {s0 : State} {image : PlasterImage} {s : State}
    (hp : Part.within [.pwr, .rst, .led, .ob, .pins, .maq, .boot, .debug, .seq, .svy, .rcnt, .log, .snap, .mem, .cap, .rel, .met, .pat, .pnt, .haz, .cool, .chi, .ckpt, .cal, .jrn, .gimg, .selfTest, .ques, .mov, .ebx, .evt, .mgt, .pair, .acc, .flash0, .flash1, .dram, .out] ps = true)
    (h : Touches ps s0 s) :
    OTouches ps s0 (execPlasterImageReceived image s) := by
  unfold execPlasterImageReceived
  refine State.fwDo_touches (Part.sub rfl hp) (fun _ hg => ?_) h
  extract_lets _ _ _ gs1 _ gs2 _
  have gh1 : Touches ps s0 gs1 := State.writeArea_touches (Part.sub rfl hp) hg
  clear_value gs1
  have gh2 : Touches ps s0 gs2 := .updLed (Part.sub rfl hp) gh1
  clear_value gs2
  refine .ite ?_ ?_
  · exact hg
  · split
    · exact State.event_touches (Part.sub rfl hp) (.updBoot (Part.sub rfl hp) hg)
    · split
      · exact State.event_touches (Part.sub rfl hp) (.updBoot (Part.sub rfl hp) hg)
      · exact State.ferase_touches (Part.sub rfl hp) (State.event_touches (Part.sub rfl hp) (.updBoot
            (Part.sub rfl hp) hg))
      · exact State.ferase_touches (Part.sub rfl hp) (State.event_touches (Part.sub rfl hp) (.updBoot
            (Part.sub rfl hp) hg))
      · exact .ite (.updBoot (Part.sub rfl hp) gh2) (State.swReset_touches (Part.sub rfl hp) gh2)

theorem State.nonceLatch_touches {ps : List Part} {s0 s : State} {p : Path}
    (hp : Part.within [.fresh, .boot, .acc] ps = true) (h : Touches ps s0 s) :
    Touches ps s0 (State.nonceLatch s p) := by
  unfold State.nonceLatch
  extract_lets _ _ _ _ _
  exact .updFreshBootAcc (Part.sub rfl hp) h

theorem execDebugNonceRead_touches {ps : List Part} {s0 : State} {p : Path} {prin : Nat} {s : State}
    (hp : Part.within [.fresh, .boot, .acc, .out] ps = true) (h : Touches ps s0 s) :
    OTouches ps s0 (execDebugNonceRead p prin s) :=
  State.coreDo_touches (Part.sub rfl hp) (fun _ h => (.ite (State.emit_touches (Part.sub rfl hp)
    (State.nonceLatch_touches (Part.sub rfl hp) h)) (State.emit_touches (Part.sub rfl hp) (.updAcc (Part.sub
    rfl hp) h)))) h

theorem execIdentityKeysReady_touches {ps : List Part} {s0 s : State} (hp : Part.within [.boot] ps = true)
    (h : Touches ps s0 s) :
    OTouches ps s0 (execIdentityKeysReady s) :=
  State.coreDo_touches (Part.sub rfl hp) (fun _ h => (.updBoot (Part.sub rfl hp) h)) h

theorem State.spdm_touches {ps : List Part} {s0 s : State} {code : Nat} {req : Bytes} {put : State → Option Bytes}
    (hp : Part.within [.evt, .out] ps = true) (h : Touches ps s0 s) :
    OTouches ps s0 (State.spdm s code req put) := by
  unfold State.spdm
  refine State.fwDo_touches (Part.sub rfl hp) (fun _ hg => ?_) h
  extract_lets gs1
  have gh1 : Touches ps s0 gs1 := State.ingress_touches (Part.sub rfl hp) hg
  clear_value gs1
  refine .ite ?_ ?_
  · exact hg
  · refine .ite ?_ ?_
    · exact State.emit_touches (Part.sub rfl hp) gh1
    · split
      · exact State.emit_touches (Part.sub rfl hp) gh1
      · exact State.emit_touches (Part.sub rfl hp) gh1

theorem execSpdmGetVersion_touches {ps : List Part} {s0 : State} {req : Bytes} {s : State}
    (hp : Part.within [.evt, .out] ps = true) (h : Touches ps s0 s) :
    OTouches ps s0 (execSpdmGetVersion req s) :=
  State.spdm_touches (Part.sub rfl hp) h

theorem execSpdmGetCapabilities_touches {ps : List Part} {s0 : State} {req : Bytes} {s : State}
    (hp : Part.within [.evt, .out] ps = true) (h : Touches ps s0 s) :
    OTouches ps s0 (execSpdmGetCapabilities req s) :=
  State.spdm_touches (Part.sub rfl hp) h

theorem execSpdmNegotiateAlgorithms_touches {ps : List Part} {s0 : State} {req : Bytes} {s : State}
    (hp : Part.within [.evt, .out] ps = true) (h : Touches ps s0 s) :
    OTouches ps s0 (execSpdmNegotiateAlgorithms req s) :=
  State.spdm_touches (Part.sub rfl hp) h

theorem execSpdmGetDigests_touches {ps : List Part} {s0 : State} {req : Bytes} {s : State}
    (hp : Part.within [.evt, .out] ps = true) (h : Touches ps s0 s) :
    OTouches ps s0 (execSpdmGetDigests req s) :=
  State.spdm_touches (Part.sub rfl hp) h

theorem execSpdmGetCertificate_touches {ps : List Part} {s0 : State} {req : Bytes} {s : State}
    (hp : Part.within [.evt, .out] ps = true) (h : Touches ps s0 s) :
    OTouches ps s0 (execSpdmGetCertificate req s) :=
  State.spdm_touches (Part.sub rfl hp) h

theorem execSpdmChallenge_touches {ps : List Part} {s0 : State} {req : Bytes} {s : State}
    (hp : Part.within [.evt, .out] ps = true) (h : Touches ps s0 s) :
    OTouches ps s0 (execSpdmChallenge req s) :=
  State.spdm_touches (Part.sub rfl hp) h

theorem execSpdmGetMeasurements_touches {ps : List Part} {s0 : State} {req : Bytes} {s : State}
    (hp : Part.within [.evt, .out] ps = true) (h : Touches ps s0 s) :
    OTouches ps s0 (execSpdmGetMeasurements req s) :=
  State.spdm_touches (Part.sub rfl hp) h

end Sys2Proof.Machine
end

