-- ==== Sys2Proof/Laws/Frames/Start.lean ====
section
/-!
SUPPORT. Laws/Frames/Start.lean: what each operation of Machine/Start.lean changes: one lemma for each, by the rules of
Laws/Touches.
-/
set_option Elab.async false
namespace Sys2Proof.Machine

theorem State.reckonerReads_touches {ps : List Part} {s0 s : State} (hp : Part.within [.pwr] ps = true)
    (h : Touches ps s0 s) :
    Touches ps s0 (State.reckonerReads s) :=
  .updPwr (Part.sub rfl hp) h

theorem State.reckon_touches {ps : List Part} {s0 s : State} (hp : Part.within [.ob] ps = true)
    (h : Touches ps s0 s) :
    Touches ps s0 (State.reckon s) := by
  unfold State.reckon
  extract_lets _ _ _ _
  exact .updOb (Part.sub rfl hp) h

theorem State.reliefArm_touches {ps : List Part} {s0 s : State}
    (hp : Part.within [.log, .cap, .rel, .pnt, .evt] ps = true) (h : Touches ps s0 s) :
    Touches ps s0 (State.reliefArm s) := by
  unfold State.reliefArm
  extract_lets s1
  have h1 : Touches ps s0 s1 := .ite (State.crossV_touches (Part.sub rfl hp) h) h
  clear_value s1
  exact State.enterStage2_touches (Part.sub rfl hp) (.ite (State.crossI_touches (Part.sub rfl hp) h1) h1)

theorem State.thresholds_touches {ps : List Part} {s0 s : State} {ok : Bool}
    (hp : Part.within [.pwr, .led, .seq, .log, .mem, .cap, .rel, .met, .pnt, .chi, .cal, .jrn, .ques, .ebx, .evt, .dram, .out] ps = true)
    (h : Touches ps s0 s) :
    Touches ps s0 (State.thresholds s ok) :=
  .ite (State.beginStep_touches (Part.sub rfl hp) (State.reliefArm_touches (Part.sub rfl hp) (State.endStep_touches
    (Part.sub rfl hp) h))) (State.endStep_touches (Part.sub rfl hp) h)

theorem execInputGood_touches {ps : List Part} {s0 : State} {profile : Nat} {bay : Bool} {mgmt : Nat}
    {recovery : Bool} {supply : Supply} {s : State}
    (hp : Part.within [.pwr, .rst, .led, .ob, .pins, .maq, .seq, .svy, .log, .snap, .mem, .cap, .rel, .met, .pnt, .chi, .cal, .jrn, .ques, .ebx, .evt, .dram, .out] ps = true)
    (h : Touches ps s0 s) :
    OTouches ps s0 (execInputGood profile bay mgmt recovery supply s) := by
  unfold execInputGood
  refine State.standbyDo_touches (Part.sub rfl hp) (fun _ hg => ?_) h
  extract_lets _ _ _ gs1 gs2 _ _ gs3 gs4 gs5 gs6 gs7
  have gh1 : Touches ps s0 gs1 := .updRstPins (Part.sub rfl hp) hg
  clear_value gs1
  have gh2 : Touches ps s0 gs2 := State.newStart_touches (Part.sub rfl hp) (State.coldLedger_touches (Part.sub
      rfl hp) gh1)
  clear_value gs2
  have gh3 : Touches ps s0 gs3 := .ite (.updCapMet (Part.sub rfl hp) gh2) gh1
  clear_value gs3
  have gh4 : Touches ps s0 gs4 := State.busKeep_touches (Part.sub rfl hp) gh3
  clear_value gs4
  have gh5 : Touches ps s0 gs5 := State.wholeStep_touches (Part.sub rfl hp) gh4
  clear_value gs5
  have gh6 : Touches ps s0 gs6 := State.reckon_touches (Part.sub rfl hp) (State.reckonerReads_touches (Part.sub
      rfl hp) (State.calTable_touches (Part.sub rfl hp) (State.beginStep_touches (Part.sub rfl hp) gh5)))
  clear_value gs6
  have gh7 : Touches ps s0 gs7 := State.endStep_touches (Part.sub rfl hp) gh6
  clear_value gs7
  refine .ite ?_ ?_
  · exact hg
  · exact State.thresholds_touches (Part.sub rfl hp) (State.beginStep_touches (Part.sub rfl hp) gh7)

theorem State.recoveryPin_touches {ps : List Part} {s0 s : State} {low : Bool}
    (hp : Part.within [.pwr, .rst, .led, .ob, .pins, .maq, .boot, .debug, .seq, .svy, .rcnt, .log, .snap, .mem, .cap, .rel, .met, .pat, .pnt, .haz, .cool, .chi, .ckpt, .cal, .jrn, .gimg, .selfTest, .ques, .mov, .ebx, .evt, .mgt, .pair, .acc, .flash0, .flash1, .dram, .out] ps = true)
    (h : Touches ps s0 s) :
    Touches ps s0 (State.recoveryPin s low) := by
  unfold State.recoveryPin
  extract_lets _ _ s1
  have h1 : Touches ps s0 s1 := .updRstPins (Part.sub rfl hp) h
  clear_value s1
  exact State.plasterLetGo_touches (Part.sub rfl hp) h1

theorem execStrapStable_touches {ps : List Part} {s0 : State} {strap : Nat} {value : Bool} {s : State}
    (hp : Part.within [.pwr, .rst, .led, .ob, .pins, .maq, .boot, .debug, .seq, .svy, .rcnt, .log, .snap, .mem, .cap, .rel, .met, .pat, .pnt, .haz, .cool, .chi, .ckpt, .cal, .jrn, .gimg, .selfTest, .ques, .mov, .ebx, .evt, .mgt, .pair, .acc, .flash0, .flash1, .dram, .out] ps = true)
    (h : Touches ps s0 s) :
    OTouches ps s0 (execStrapStable strap value s) := by
  unfold execStrapStable
  refine State.standbyDo_touches (Part.sub rfl hp) (fun _ hg => ?_) h
  extract_lets _
  refine .ite ?_ ?_
  · exact State.recoveryPin_touches (Part.sub rfl hp) hg
  · refine .ite ?_ ?_
    · exact hg
    · split
      · exact .updPins (Part.sub rfl hp) hg
      · exact .updPins (Part.sub rfl hp) hg
      · exact .updPins (Part.sub rfl hp) hg
      · exact .updPins (Part.sub rfl hp) hg
      · exact .updPins (Part.sub rfl hp) hg
      · exact hg

theorem State.holdupSummaries_touches {ps : List Part} {s0 s : State} {kind : Nat}
    (hp : Part.within [.log, .snap, .evt] ps = true) (h : Touches ps s0 s) :
    Touches ps s0 (State.holdupSummaries s kind) := by
  unfold State.holdupSummaries
  extract_lets _ _ s1 _
  have h1 : Touches ps s0 s1 := .foldl (fun _ _ h => (State.pushRec_touches (Part.sub rfl hp) h)) h
  clear_value s1
  exact .updSnap (Part.sub rfl hp) h1

theorem State.begin567_touches {ps : List Part} {s0 s : State}
    (hp : Part.within [.pwr, .led, .maq, .seq, .log, .mem, .cap, .met, .pnt, .chi, .cal, .jrn, .ques, .ebx, .evt, .dram, .out] ps = true)
    (h : Touches ps s0 s) :
    Touches ps s0 (State.begin567 s) := by
  unfold State.begin567
  extract_lets _ s1
  have h1 : Touches ps s0 s1 := .updMaq (Part.sub rfl hp) h
  clear_value s1
  exact State.begin7_touches (Part.sub rfl hp) (State.beginStep_touches (Part.sub rfl hp)
      (State.beginStep_touches (Part.sub rfl hp) h1))

theorem execStandbyDiesUp_touches {ps : List Part} {s0 : State} {accelOk : Bool} {s : State}
    (hp : Part.within [.pwr, .rst, .led, .maq, .seq, .rcnt, .log, .snap, .mem, .cap, .met, .pnt, .haz, .chi, .cal, .jrn, .ques, .ebx, .evt, .dram, .out] ps = true)
    (h : Touches ps s0 s) :
    OTouches ps s0 (execStandbyDiesUp accelOk s) := by
  unfold execStandbyDiesUp
  refine State.standbyDo_touches (Part.sub rfl hp) (fun _ hg => ?_) h
  extract_lets gs1 gs2 _ gs3 gs4
  have gh1 : Touches ps s0 gs1 := State.accelTest_touches (Part.sub rfl hp) (State.restoreCounters_touches
      (Part.sub rfl hp) hg)
  clear_value gs1
  have gh2 : Touches ps s0 gs2 := .ite gh1 (State.holdupSummaries_touches (Part.sub rfl hp) gh1)
  clear_value gs2
  have gh3 : Touches ps s0 gs3 := .updRst (Part.sub rfl hp) gh2
  clear_value gs3
  have gh4 : Touches ps s0 gs4 := State.startPage_touches (Part.sub rfl hp) (State.endStep_touches (Part.sub
      rfl hp) gh3)
  clear_value gs4
  exact .ite hg (State.begin567_touches (Part.sub rfl hp) gh4)

theorem State.loadStep_touches {ps : List Part} {s0 s : State}
    (hp : Part.within [.pwr, .led, .maq, .seq, .svy, .log, .mem, .cap, .met, .pnt, .haz, .cool, .chi, .cal, .jrn, .gimg, .ques, .ebx, .evt, .pair, .dram, .out] ps = true)
    (h : Touches ps s0 s) :
    Touches ps s0 (State.loadStep s) := by
  unfold State.loadStep
  extract_lets _ s1
  have h1 : Touches ps s0 s1.1 := State.noteLoad_touches (Part.sub rfl hp) (State.startLoad_touches (Part.sub
      rfl hp) h)
  clear_value s1
  exact State.endStep_touches (Part.sub rfl hp) h1

theorem execMaquetteStartLoad_touches {ps : List Part} {s0 s : State}
    (hp : Part.within [.pwr, .led, .maq, .seq, .svy, .log, .mem, .cap, .met, .pnt, .haz, .cool, .chi, .cal, .jrn, .gimg, .ques, .ebx, .evt, .pair, .dram, .out] ps = true)
    (h : Touches ps s0 s) :
    OTouches ps s0 (execMaquetteStartLoad s) :=
  State.standbyDo_touches (Part.sub rfl hp) (fun _ h => (.ite (State.loadStep_touches (Part.sub rfl hp)
    (State.reckonerReads_touches (Part.sub rfl hp) h)) h)) h

theorem State.coreFails_touches {ps : List Part} {s0 s : State}
    (hp : Part.within [.pwr, .rst, .seq, .log, .mem, .cap, .met, .pnt, .chi, .cal, .jrn, .ques, .ebx, .evt, .dram, .out] ps = true)
    (h : Touches ps s0 s) :
    Touches ps s0 (State.coreFails s) :=
  State.settle_touches (Part.sub rfl hp) (State.orderDown_touches (Part.sub rfl hp) (State.restartOver_touches
    (Part.sub rfl hp) h))

theorem State.coreUp_touches {ps : List Part} {s0 s : State} {ok : Bool}
    (hp : Part.within [.pwr, .rst, .led, .seq, .log, .mem, .cap, .met, .pnt, .chi, .cal, .jrn, .ques, .ebx, .evt, .dram, .out] ps = true)
    (h : Touches ps s0 s) :
    Touches ps s0 (State.coreUp s ok) :=
  .ite (State.beginStep_touches (Part.sub rfl hp) (State.endStep_touches (Part.sub rfl hp)
    (State.restartOver_touches (Part.sub rfl hp) (.updPwr (Part.sub rfl hp) h)))) (State.coreFails_touches
    (Part.sub rfl hp) (State.endStep_touches (Part.sub rfl hp) h))

theorem execCoreDomainUp_touches {ps : List Part} {s0 : State} {ok : Bool} {s : State}
    (hp : Part.within [.pwr, .rst, .led, .seq, .log, .mem, .cap, .met, .pnt, .chi, .cal, .jrn, .ques, .ebx, .evt, .dram, .out] ps = true)
    (h : Touches ps s0 s) :
    OTouches ps s0 (execCoreDomainUp ok s) :=
  State.standbyDo_touches (Part.sub rfl hp) (fun _ h => (.ite h (State.coreUp_touches (Part.sub rfl hp) h))) h

theorem State.identify32_touches {ps : List Part} {s0 s : State} {ids : List Bytes}
    (hp : Part.within [.pwr, .led, .seq, .svy, .log, .mem, .cap, .met, .pnt, .chi, .cal, .jrn, .ques, .ebx, .evt, .pair, .dram, .out] ps = true)
    (h : Touches ps s0 s) :
    Touches ps s0 (State.identify32 s ids) := by
  unfold State.identify32
  extract_lets _ _ _ _ _ s1 s2 s3 _
  have h1 : Touches ps s0 s1 := .updPwr (Part.sub rfl hp) h
  clear_value s1
  have h2 : Touches ps s0 s2 := .ite (State.event_touches (Part.sub rfl hp) h1) h1
  clear_value s2
  have h3 : Touches ps s0 s3 := .foldl (fun _ _ h => (State.dieStale_touches (Part.sub rfl hp) h)) h2
  clear_value s3
  refine .ite ?_ ?_
  · exact State.endStep_touches (Part.sub rfl hp) (.updPair (Part.sub rfl hp) h3)
  · exact State.begin9_touches (Part.sub rfl hp) (State.endStep_touches (Part.sub rfl hp) h3)

theorem execDieIdentityCheck_touches {ps : List Part} {s0 : State} {ids : List Bytes} {s : State}
    (hp : Part.within [.pwr, .led, .seq, .svy, .log, .mem, .cap, .met, .pnt, .chi, .cal, .jrn, .ques, .ebx, .evt, .pair, .dram, .out] ps = true)
    (h : Touches ps s0 s) :
    OTouches ps s0 (execDieIdentityCheck ids s) :=
  State.coreDo_touches (Part.sub rfl hp) (fun _ h => (.ite h (.ite (State.identify32_touches (Part.sub rfl hp) h)
    (State.endStep_touches (Part.sub rfl hp) (.updPwr (Part.sub rfl hp) h))))) h

theorem State.pairFails_touches {ps : List Part} {s0 s : State} {p : Nat} (hp : Part.within [.pwr] ps = true)
    (h : Touches ps s0 s) :
    Touches ps s0 (State.pairFails s p) := by
  unfold State.pairFails
  extract_lets _ _
  exact .updPwr (Part.sub rfl hp) h

theorem State.armUp_touches {ps : List Part} {s0 s : State} (hp : Part.within [.pwr, .rst] ps = true)
    (h : Touches ps s0 s) :
    Touches ps s0 (State.armUp s) :=
  State.restartOver_touches (Part.sub rfl hp) (.updPwr (Part.sub rfl hp) h)

theorem State.begin10_touches {ps : List Part} {s0 s : State}
    (hp : Part.within [.pwr, .led, .seq, .log, .mem, .cap, .met, .pnt, .chi, .cal, .jrn, .ques, .ebx, .evt, .dram, .out] ps = true)
    (h : Touches ps s0 s) :
    Touches ps s0 (State.begin10 s) :=
  .ite (State.event_touches (Part.sub rfl hp) h) (.ite (State.beginStep_touches (Part.sub rfl hp) h) h)

theorem execArmatureLockstepCheck_touches {ps : List Part} {s0 : State} {failed : Nat} {s : State}
    (hp : Part.within [.pwr, .rst, .led, .seq, .log, .mem, .cap, .met, .pnt, .chi, .cal, .jrn, .ques, .ebx, .evt, .dram, .out] ps = true)
    (h : Touches ps s0 s) :
    OTouches ps s0 (execArmatureLockstepCheck failed s) :=
  State.coreDo_touches (Part.sub rfl hp) (fun _ h => (.ite h (State.begin10_touches (Part.sub rfl hp)
    (State.endStep_touches (Part.sub rfl hp) (State.armUp_touches (Part.sub rfl hp) (.foldl (fun _ _ h =>
    (State.pairFails_touches (Part.sub rfl hp) h)) h)))))) h

theorem State.repair_touches {ps : List Part} {s0 s : State} {off : Nat} {size : Nat} {ok0 : Bool} {ok1 : Bool}
    (hp : Part.within [.flash0, .flash1] ps = true) (h : Touches ps s0 s) :
    Touches ps s0 (State.repair s off size ok0 ok1) :=
  .ite (State.fstore_touches (Part.sub rfl hp) h) (.ite (State.fstore_touches (Part.sub rfl hp) h) h)

theorem State.repairAll_touches {ps : List Part} {s0 s : State} (hp : Part.within [.flash0, .flash1] ps = true)
    (h : Touches ps s0 s) :
    Touches ps s0 (State.repairAll s) := by
  unfold State.repairAll
  extract_lets s1 s2 s3 s4
  have h1 : Touches ps s0 s1 := by
    unfold s1
    split
    · exact .ite (.foldl (fun _ _ h => (.ite h (State.fstore_touches (Part.sub rfl hp) h))) h) h
    · exact h
  clear_value s1
  have h2 : Touches ps s0 s2 := State.repair_touches (Part.sub rfl hp) h1
  clear_value s2
  have h3 : Touches ps s0 s3 := State.repair_touches (Part.sub rfl hp) h2
  clear_value s3
  have h4 : Touches ps s0 s4 := State.repair_touches (Part.sub rfl hp) h3
  clear_value s4
  exact .ite h (State.repair_touches (Part.sub rfl hp) h4)

theorem State.slotFails_touches {ps : List Part} {s0 s : State} {k : Nat} {code : Nat}
    (hp : Part.within [.boot, .evt] ps = true) (h : Touches ps s0 s) :
    Touches ps s0 (State.slotFails s k code) := by
  unfold State.slotFails
  extract_lets _ s1
  have h1 : Touches ps s0 s1 := .updBoot (Part.sub rfl hp) h
  clear_value s1
  exact .ite (State.event_touches (Part.sub rfl hp) h1) h1

theorem State.trySlots_touches {ps : List Part} {s0 s : State} {l : List Nat}
    (hp : Part.within [.boot, .evt] ps = true) (h : Touches ps s0 s) : Touches ps s0 (State.trySlots s l).1 := by
  induction l generalizing s with
  | nil => exact h
  | cons k r ih =>
    unfold State.trySlots
    split
    · exact .updBoot (Part.sub rfl hp) h
    · exact ih (State.slotFails_touches (Part.sub rfl hp) h)

theorem State.noteBelow_touches {ps : List Part} {s0 s : State} {l : List Nat}
    (hp : Part.within [.boot, .evt] ps = true) (h : Touches ps s0 s) :
    Touches ps s0 (State.noteBelow s l) :=
  .foldl (fun _ _ h => (.ite (State.slotFails_touches (Part.sub rfl hp) h) h)) h

theorem State.chooseFrom_touches {ps : List Part} {s0 s : State} {cands : List Nat}
    (hp : Part.within [.rst, .led, .boot, .evt] ps = true) (h : Touches ps s0 s) :
    Touches ps s0 (State.chooseFrom s cands) := by
  unfold State.chooseFrom
  extract_lets s1 s2 _
  have h1 : Touches ps s0 s1.1 := State.trySlots_touches (Part.sub rfl hp) h
  clear_value s1
  have h2 : Touches ps s0 s2 := h1
  clear_value s2
  split
  · extract_lets m0s1 _ _ _
    have m0h1 : Touches ps s0 m0s1 := State.noteBelow_touches (Part.sub rfl hp) h1
    clear_value m0s1
    exact .updRstBoot (Part.sub rfl hp) m0h1
  · exact State.endStep_touches (Part.sub rfl hp) (.updBoot (Part.sub rfl hp) h2)

theorem State.choose_touches {ps : List Part} {s0 s : State}
    (hp : Part.within [.rst, .led, .boot, .evt, .flash0, .flash1] ps = true) (h : Touches ps s0 s) :
    Touches ps s0 (State.choose s) :=
  State.repairAll_touches (Part.sub rfl hp) (State.chooseFrom_touches (Part.sub rfl hp) h)

theorem State.chooseNext_touches {ps : List Part} {s0 s : State}
    (hp : Part.within [.rst, .led, .boot, .evt] ps = true) (h : Touches ps s0 s) :
    Touches ps s0 (State.chooseNext s) := by
  unfold State.chooseNext
  extract_lets _ _
  exact State.chooseFrom_touches (Part.sub rfl hp) h

theorem execImageSlotChoice_touches {ps : List Part} {s0 s : State}
    (hp : Part.within [.rst, .led, .boot, .evt, .flash0, .flash1] ps = true) (h : Touches ps s0 s) :
    OTouches ps s0 (execImageSlotChoice s) :=
  State.coreDo_touches (Part.sub rfl hp) (fun _ h => (.ite (State.choose_touches (Part.sub rfl hp) h) h)) h

theorem execQuarantineRelease_touches {ps : List Part} {s0 s : State}
    (hp : Part.within [.pwr, .rst, .led, .boot, .seq, .log, .mem, .cap, .met, .pnt, .chi, .cal, .jrn, .ques, .ebx, .evt, .dram, .out] ps = true)
    (h : Touches ps s0 s) :
    OTouches ps s0 (execQuarantineRelease s) := by
  unfold execQuarantineRelease
  refine State.coreDo_touches (Part.sub rfl hp) (fun _ hg => ?_) h
  extract_lets _ _
  split
  · exact hg
  · extract_lets gm1s1
    have gm1h1 : Touches ps s0 gm1s1 := .updRstBoot (Part.sub rfl hp) hg
    clear_value gm1s1
    exact State.beginStep_touches (Part.sub rfl hp) (State.endStep_touches (Part.sub rfl hp) gm1h1)

theorem execRomServicePlasterImage_touches {ps : List Part} {s0 : State} {image : Bytes} {s : State}
    (hp : Part.within [.pwr, .rst, .led, .ob, .pins, .maq, .boot, .debug, .seq, .svy, .rcnt, .log, .snap, .mem, .cap, .rel, .met, .pat, .pnt, .haz, .cool, .chi, .ckpt, .cal, .jrn, .gimg, .selfTest, .ques, .mov, .ebx, .evt, .mgt, .pair, .acc, .flash0, .flash1, .dram, .out] ps = true)
    (h : Touches ps s0 s) :
    OTouches ps s0 (execRomServicePlasterImage image s) :=
  State.coreDo_touches (Part.sub rfl hp) (fun _ h => (.ite h (State.swReset_touches (Part.sub rfl hp)
    (State.writeArea_touches (Part.sub rfl hp) (State.writeArea_touches (Part.sub rfl hp) h))))) h

theorem State.begin19_touches {ps : List Part} {s0 s : State}
    (hp : Part.within [.pwr, .led, .seq, .log, .mem, .cap, .met, .pnt, .chi, .cal, .jrn, .ques, .ebx, .evt, .dram, .out] ps = true)
    (h : Touches ps s0 s) :
    Touches ps s0 (State.begin19 s) :=
  .ite h (State.beginStep_touches (Part.sub rfl hp) h)

theorem State.laterSteps_touches {ps : List Part} {s0 s : State}
    (hp : Part.within [.pwr, .led, .seq, .log, .mem, .cap, .met, .pnt, .chi, .cal, .jrn, .ques, .ebx, .evt, .dram, .out] ps = true)
    (h : Touches ps s0 s) :
    Touches ps s0 (State.laterSteps s) :=
  .ite (State.begin19_touches (Part.sub rfl hp) (State.endStep_touches (Part.sub rfl hp) h)) h

theorem State.begin18_touches {ps : List Part} {s0 s : State}
    (hp : Part.within [.pwr, .led, .seq, .log, .mem, .cap, .met, .pnt, .chi, .cal, .jrn, .ques, .ebx, .evt, .dram, .out] ps = true)
    (h : Touches ps s0 s) :
    Touches ps s0 (State.begin18 s) := by
  unfold State.begin18
  extract_lets _
  exact State.laterSteps_touches (Part.sub rfl hp) (State.beginStep_touches (Part.sub rfl hp) h)

theorem State.noteSite_touches {ps : List Part} {s0 s : State} {n : Nat} (hp : Part.within [.led] ps = true)
    (h : Touches ps s0 s) :
    Touches ps s0 (State.noteSite s n) := by
  unfold State.noteSite
  split
  · exact (.ite (State.putEntry_touches (Part.sub rfl hp) h) h)
  · exact h

theorem State.begin12_touches {ps : List Part} {s0 s : State}
    (hp : Part.within [.pwr, .led, .seq, .log, .mem, .cap, .met, .pnt, .chi, .cal, .jrn, .ques, .ebx, .evt, .dram, .out] ps = true)
    (h : Touches ps s0 s) :
    Touches ps s0 (State.begin12 s) :=
  .ite (State.wholeStep_touches (Part.sub rfl hp) h) (.ite (State.wholeStep_touches (Part.sub rfl hp) h)
    (State.pointingRole_touches (Part.sub rfl hp) (State.beginStep_touches (Part.sub rfl hp) h)))

theorem State.begin13_touches {ps : List Part} {s0 s : State}
    (hp : Part.within [.pwr, .led, .seq, .log, .mem, .cap, .met, .pnt, .chi, .cal, .jrn, .ques, .ebx, .evt, .mgt, .dram, .out] ps = true)
    (h : Touches ps s0 s) :
    Touches ps s0 (State.begin13 s) := by
  unfold State.begin13
  extract_lets _ s1
  have h1 : Touches ps s0 s1 := .ite (.updMgt (Part.sub rfl hp) h) h
  clear_value s1
  exact State.beginStep_touches (Part.sub rfl hp) h1

theorem State.begin14_touches {ps : List Part} {s0 s : State}
    (hp : Part.within [.pwr, .led, .seq, .log, .mem, .cap, .met, .pnt, .chi, .cal, .jrn, .ques, .ebx, .evt, .dram, .out] ps = true)
    (h : Touches ps s0 s) :
    Touches ps s0 (State.begin14 s) :=
  .ite (State.wholeStep_touches (Part.sub rfl hp) h) (.ite (State.wholeStep_touches (Part.sub rfl hp) h)
    (State.beginStep_touches (Part.sub rfl hp) h))

theorem State.noDimms_touches {ps : List Part} {s0 s : State}
    (hp : Part.within [.pwr, .seq, .log, .mem, .cap, .met, .pnt, .chi, .ckpt, .cal, .jrn, .gimg, .ques, .ebx, .evt, .dram, .out] ps = true)
    (h : Touches ps s0 s) :
    Touches ps s0 (State.noDimms s) := by
  unfold State.noDimms
  extract_lets s1 s2 _ _ s3
  have h1 : Touches ps s0 s1 := State.calStop_touches (Part.sub rfl hp) h
  clear_value s1
  have h2 : Touches ps s0 s2 := .foldl (fun _ _ h => (State.gaugeUnload_touches (Part.sub rfl hp) h)) h1
  clear_value s2
  have h3 : Touches ps s0 s3 := .updPwrCkptCalGimg (Part.sub rfl hp) h2
  clear_value s3
  refine .ite ?_ ?_
  · exact State.settle_touches (Part.sub rfl hp) (State.orderDown_touches (Part.sub rfl hp) h3)
  · exact h

theorem State.chDown_touches {ps : List Part} {s0 s : State} {n : Nat} {cause : Nat}
    (hp : Part.within [.pwr, .seq, .log, .mem, .cap, .met, .pnt, .chi, .ckpt, .cal, .jrn, .gimg, .ques, .ebx, .evt, .dram, .out] ps = true)
    (h : Touches ps s0 s) :
    Touches ps s0 (State.chDown s n cause) :=
  .ite h (State.noDimms_touches (Part.sub rfl hp) (State.settle_touches (Part.sub rfl hp) (State.orderDown_touches
    (Part.sub rfl hp) (State.chOut_touches (Part.sub rfl hp) h))))

theorem Memory.wf_copy {m l : Memory} {f : Host.Cell → Nat} (h : Memory.wf 0 m = true) :
    Memory.wf 0 (l.foldl (fun d c => Memory.put 0 d (f c) c.2) m) = true := by
  induction l generalizing m with
  | nil => exact h
  | cons c l ih => exact ih (Memory.wf_put h)

theorem State.mirrorCopy_touches {ps : List Part} {s0 s : State} {n : Nat} (hp : Part.within [.dram] ps = true)
    (h : Touches ps s0 s) : Touches ps s0 (State.mirrorCopy s n) :=
  .ite (State.dram_touches (Part.sub rfl hp) Memory.wf_copy h) h

theorem State.fillDone_touches {ps : List Part} {s0 s : State} {n : Nat}
    (hp : Part.within [.log, .mem, .jrn, .evt, .dram] ps = true) (h : Touches ps s0 s) :
    Touches ps s0 (State.fillDone s n) := by
  unfold State.fillDone
  extract_lets _ s1
  have h1 : Touches ps s0 s1 := State.setCh_touches (Part.sub rfl hp) h
  clear_value s1
  exact State.mirrorCheck_touches (Part.sub rfl hp) (State.mirrorCopy_touches (Part.sub rfl hp)
      (State.memEvent_touches (Part.sub rfl hp) h1))

theorem State.fillStart_touches {ps : List Part} {s0 s : State} {n : Nat} (hp : Part.within [.mem, .dram] ps = true)
    (h : Touches ps s0 s) : Touches ps s0 (State.fillStart s n) :=
  State.dram_touches (s := State.setCh s _ _) (Part.sub rfl hp) Memory.wf_clear (State.setCh_touches (Part.sub rfl hp) h)

theorem State.chFails_touches {ps : List Part} {s0 s : State} {n : Nat} {cause : Nat}
    (hp : Part.within [.pwr, .led, .seq, .log, .mem, .cap, .met, .pnt, .chi, .ckpt, .cal, .jrn, .gimg, .ques, .ebx, .evt, .dram, .out] ps = true)
    (h : Touches ps s0 s) :
    Touches ps s0 (State.chFails s n cause) :=
  State.chDown_touches (Part.sub rfl hp) (.updLed (Part.sub rfl hp) h)

theorem State.chCutLost_touches {ps : List Part} {s0 s : State} {n : Nat} {cut : Bool}
    (hp : Part.within [.log, .mem, .evt] ps = true) (h : Touches ps s0 s) :
    Touches ps s0 (State.chCutLost s n cut) :=
  .ite (State.memEvent_touches (Part.sub rfl hp) (State.setCh_touches (Part.sub rfl hp) h)) h

theorem State.chTrained_touches {ps : List Part} {s0 s : State} {n : Nat} {t : TrainReport}
    (hp : Part.within [.pwr, .led, .seq, .log, .mem, .cap, .met, .pnt, .chi, .ckpt, .cal, .jrn, .gimg, .ques, .ebx, .evt, .dram, .out] ps = true)
    (h : Touches ps s0 s) :
    Touches ps s0 (State.chTrained s n t) := by
  unfold State.chTrained
  extract_lets _ _ _ _ _ s1 _ s2 _ s3 s4 _ s5 _
  have h1 : Touches ps s0 s1 := State.setCh_touches (Part.sub rfl hp) h
  clear_value s1
  have h2 : Touches ps s0 s2 := .updLed (Part.sub rfl hp) h1
  clear_value s2
  have h3 : Touches ps s0 s3 := .updLed (Part.sub rfl hp) h2
  clear_value s3
  have h4 : Touches ps s0 s4 := State.settle_touches (Part.sub rfl hp) (State.orderUp_touches (Part.sub rfl hp) h3)
  clear_value s4
  have h5 : Touches ps s0 s5 := .updPwr (Part.sub rfl hp) h4
  clear_value s5
  exact .ite (State.chFails_touches (Part.sub rfl hp) h2) (.ite (State.chFails_touches (Part.sub rfl hp) h2)
      (.ite (State.chFails_touches (Part.sub rfl hp) h2) (.ite (State.setCh_touches (Part.sub rfl hp) h5)
      (State.fillStart_touches (Part.sub rfl hp) (State.chCutLost_touches (Part.sub rfl hp) h5)))))

theorem State.chNoTrain_touches {ps : List Part} {s0 s : State} {n : Nat}
    (hp : Part.within [.pwr, .led, .seq, .log, .mem, .cap, .met, .pnt, .chi, .ckpt, .cal, .jrn, .gimg, .ques, .ebx, .evt, .dram, .out] ps = true)
    (h : Touches ps s0 s) :
    Touches ps s0 (State.chNoTrain s n) := by
  unfold State.chNoTrain
  extract_lets _ s1
  have h1 : Touches ps s0 s1 := State.setCh_touches (Part.sub rfl hp) h
  clear_value s1
  exact State.chFails_touches (Part.sub rfl hp) h1

theorem State.chsTimedOut_touches {ps : List Part} {s0 s : State}
    (hp : Part.within [.pwr, .led, .seq, .log, .mem, .cap, .met, .pnt, .chi, .ckpt, .cal, .jrn, .gimg, .ques, .ebx, .evt, .dram, .out] ps = true)
    (h : Touches ps s0 s) :
    Touches ps s0 (State.chsTimedOut s) := by
  unfold State.chsTimedOut
  extract_lets s1
  have h1 : Touches ps s0 s1 := by
    unfold s1
    refine .foldl (fun _ _ k1hf => ?_) h
    split
    · exact State.chTrained_touches (Part.sub rfl hp) k1hf
    · exact k1hf
    · exact State.chNoTrain_touches (Part.sub rfl hp) k1hf
  clear_value s1
  exact State.noDimms_touches (Part.sub rfl hp) (.foldl (fun _ _ h => (State.mirrorCheck_touches (Part.sub rfl
      hp) h)) h1)

theorem State.clampCheck_touches {ps : List Part} {s0 s : State} (hp : Part.within [.jrn] ps = true)
    (h : Touches ps s0 s) :
    Touches ps s0 (State.clampCheck s) :=
  .updJrn (Part.sub rfl hp) h

theorem State.begin15_touches {ps : List Part} {s0 s : State}
    (hp : Part.within [.pwr, .led, .seq, .log, .mem, .cap, .met, .pnt, .chi, .ckpt, .cal, .jrn, .gimg, .ques, .ebx, .evt, .dram, .out] ps = true)
    (h : Touches ps s0 s) :
    Touches ps s0 (State.begin15 s) := by
  unfold State.begin15
  extract_lets _ s1 s2
  have h1 : Touches ps s0 s1 := .updMem (Part.sub rfl hp) h
  clear_value s1
  have h2 : Touches ps s0 s2 := .foldl (fun _ _ h => (State.chNoTrain_touches (Part.sub rfl hp) h)) h1
  clear_value s2
  exact .ite (State.wholeStep_touches (Part.sub rfl hp) (State.wholeStep_touches (Part.sub rfl hp) h1)) (.ite
      (State.beginStep_touches (Part.sub rfl hp) (State.noDimms_touches (Part.sub rfl hp)
      (State.wholeStep_touches (Part.sub rfl hp) h2))) (State.beginStep_touches (Part.sub rfl hp) h1))

theorem State.begin17_touches {ps : List Part} {s0 s : State}
    (hp : Part.within [.pwr, .led, .seq, .log, .mem, .cap, .met, .pnt, .chi, .cal, .jrn, .gimg, .ques, .ebx, .evt, .dram, .out] ps = true)
    (h : Touches ps s0 s) :
    Touches ps s0 (State.begin17 s) :=
  .ite (State.wholeStep_touches (Part.sub rfl hp) h) (.ite (State.wholeStep_touches (Part.sub rfl hp)
    (State.calFence_touches (Part.sub rfl hp) h)) (.ite (State.wholeStep_touches (Part.sub rfl hp) h) (.ite
    (State.wholeStep_touches (Part.sub rfl hp) h) (State.beginStep_touches (Part.sub rfl hp) h))))

theorem State.beginSteps_touches {ps : List Part} {s0 s : State}
    (hp : Part.within [.pwr, .led, .seq, .log, .mem, .cap, .met, .pnt, .chi, .ckpt, .cal, .jrn, .gimg, .ques, .ebx, .evt, .mgt, .dram, .out] ps = true)
    (h : Touches ps s0 s) :
    Touches ps s0 (State.beginSteps s) := by
  unfold State.beginSteps
  extract_lets s1 s2
  have h1 : Touches ps s0 s1 := State.begin17_touches (Part.sub rfl hp) (State.begin15_touches (Part.sub rfl
      hp) (State.begin14_touches (Part.sub rfl hp) (State.begin13_touches (Part.sub rfl hp)
      (State.begin12_touches (Part.sub rfl hp) h))))
  clear_value s1
  have h2 : Touches ps s0 s2 := State.begin18_touches (Part.sub rfl hp) h1
  clear_value s2
  refine .ite ?_ ?_
  · exact State.beginStep_touches (Part.sub rfl hp) h
  · exact State.beginStep_touches (Part.sub rfl hp) (.ite (State.wholeStep_touches (Part.sub rfl hp) h2) h2)

theorem State.firmwareRuns_touches {ps : List Part} {s0 s : State}
    (hp : Part.within [.pwr, .led, .seq, .log, .mem, .cap, .met, .pnt, .cool, .chi, .ckpt, .cal, .jrn, .gimg, .ques, .ebx, .evt, .mgt, .dram, .out] ps = true)
    (h : Touches ps s0 s) :
    Touches ps s0 (State.firmwareRuns s) := by
  unfold State.firmwareRuns
  extract_lets s1 _
  have h1 : Touches ps s0 s1 := State.endStep_touches (Part.sub rfl hp) h
  clear_value s1
  exact .ite h (State.beginSteps_touches (Part.sub rfl hp) (.updCool (Part.sub rfl hp) h1))

theorem execSiteAdoption_touches {ps : List Part} {s0 : State} {site : Nat} {rom : Bytes} {good : Nat} {off : Nat}
    {latched : Nat} {ep : Nat} {digest : Bytes} {version : Nat} {s : State}
    (hp : Part.within [.pwr, .led, .seq, .svy, .rcnt, .log, .mem, .cap, .met, .pat, .pnt, .chi, .cal, .jrn, .ques, .ebx, .evt, .dram, .out] ps = true)
    (h : Touches ps s0 s) :
    OTouches ps s0 (execSiteAdoption site rom good off latched ep digest version s) := by
  unfold execSiteAdoption
  refine State.standbyDo_touches (Part.sub rfl hp) (fun _ hg => ?_) h
  extract_lets gs1 _
  have gh1 : Touches ps s0 gs1 := State.adopt_touches (Part.sub rfl hp) hg
  clear_value gs1
  refine .ite ?_ ?_
  · exact State.laterSteps_touches (Part.sub rfl hp) (State.noteSite_touches (Part.sub rfl hp) (.updSeq
        (Part.sub rfl hp) gh1))
  · exact hg

theorem State.gaugeKeep_touches {ps : List Part} {s0 s : State} {n : Nat} (hp : Part.within [.cal, .gimg] ps = true)
    (h : Touches ps s0 s) :
    Touches ps s0 (State.gaugeKeep s n) := by
  unfold State.gaugeKeep
  split
  · exact (.ite (State.setSlot_touches (Part.sub rfl hp) h) (.updGimg (Part.sub rfl hp) h))
  · exact h

theorem execJournalRecovery_touches {ps : List Part} {s0 s : State}
    (hp : Part.within [.pwr, .led, .seq, .log, .mem, .cap, .met, .pnt, .cool, .chi, .ckpt, .cal, .jrn, .gimg, .ques, .ebx, .evt, .mgt, .dram, .out] ps = true)
    (h : Touches ps s0 s) :
    OTouches ps s0 (execJournalRecovery s) := by
  unfold execJournalRecovery
  refine State.armDo_touches (Part.sub rfl hp) (fun _ hg => ?_) h
  extract_lets gs1 gs2
  have gh1 : Touches ps s0 gs1 := State.firmwareRuns_touches (Part.sub rfl hp) hg
  clear_value gs1
  have gh2 : Touches ps s0 gs2 := .foldl (fun _ _ h => (State.gaugeKeep_touches (Part.sub rfl hp) h)) gh1
  clear_value gs2
  refine .ite ?_ ?_
  · exact gh1
  · refine .ite ?_ ?_
    · exact State.endStep_touches (Part.sub rfl hp) (State.jrnNewEpoch_touches (Part.sub rfl hp) gh2)
    · refine .ite ?_ ?_
      · exact State.endStep_touches (Part.sub rfl hp) (State.sealLost_touches (Part.sub rfl hp) gh2)
      · exact State.endStep_touches (Part.sub rfl hp) (State.jrnNewEpoch_touches (Part.sub rfl hp) gh2)

theorem State.endStep17_touches {ps : List Part} {s0 s : State} {o : StepEnd} {detail : Nat}
    (hp : Part.within [.rst, .led] ps = true) (h : Touches ps s0 s) :
    Touches ps s0 (State.endStep17 s o detail) := by
  unfold State.endStep17
  extract_lets s1
  have h1 : Touches ps s0 s1 := State.endStep_touches (Part.sub rfl hp) h
  clear_value s1
  exact State.restartOver_touches (Part.sub rfl hp) h1

theorem State.calSelfTest_touches {ps : List Part} {s0 s : State} {failing : Nat}
    (hp : Part.within [.pwr, .rst, .led, .seq, .log, .mem, .cap, .met, .pnt, .chi, .cal, .jrn, .gimg, .selfTest, .ques, .ebx, .evt, .dram, .out] ps = true)
    (h : Touches ps s0 s) :
    Touches ps s0 (State.calSelfTest s failing) := by
  unfold State.calSelfTest
  extract_lets _ _ s1 s2
  have h1 : Touches ps s0 s1 := .updCal (Part.sub rfl hp) h
  clear_value s1
  have h2 : Touches ps s0 s2 := .foldl (fun _ _ h => (State.calEvent_touches (Part.sub rfl hp) (.updCal
      (Part.sub rfl hp) h))) h1
  clear_value s2
  refine .ite ?_ ?_
  · exact State.endStep17_touches (Part.sub rfl hp) (State.calFence_touches (Part.sub rfl hp) h2)
  · exact State.endStep17_touches (Part.sub rfl hp) (.updSelfTest (Part.sub rfl hp) h2)

theorem execCaliperSelfTest_touches {ps : List Part} {s0 : State} {failing : Nat} {s : State}
    (hp : Part.within [.pwr, .rst, .led, .seq, .log, .mem, .cap, .met, .pnt, .cool, .chi, .ckpt, .cal, .jrn, .gimg, .selfTest, .ques, .ebx, .evt, .mgt, .dram, .out] ps = true)
    (h : Touches ps s0 s) :
    OTouches ps s0 (execCaliperSelfTest failing s) :=
  State.coreDo_touches (Part.sub rfl hp) (fun _ h => (.ite (State.calSelfTest_touches (Part.sub rfl hp)
    (State.firmwareRuns_touches (Part.sub rfl hp) h)) (State.firmwareRuns_touches (Part.sub rfl hp) h))) h

theorem execSiteImageDigestCheck_touches {ps : List Part} {s0 s : State}
    (hp : Part.within [.pwr, .led, .boot, .seq, .log, .mem, .cap, .met, .pnt, .cool, .chi, .ckpt, .cal, .jrn, .gimg, .ques, .ebx, .evt, .mgt, .dram, .out] ps = true)
    (h : Touches ps s0 s) :
    OTouches ps s0 (execSiteImageDigestCheck s) := by
  unfold execSiteImageDigestCheck
  refine State.armDo_touches (Part.sub rfl hp) (fun _ hg => ?_) h
  extract_lets gs1 _ _ _
  have gh1 : Touches ps s0 gs1 := State.laterSteps_touches (Part.sub rfl hp) (State.firmwareRuns_touches
      (Part.sub rfl hp) hg)
  clear_value gs1
  exact .ite gh1 (State.endStep_touches (Part.sub rfl hp) (.updBoot (Part.sub rfl hp) gh1))

theorem State.patinaFanFrom_touches {ps : List Part} {s0 s : State} {c : Nat} {r : Option Bytes}
    (hp : Part.within [.pat] ps = true) (h : Touches ps s0 s) :
    Touches ps s0 (State.patinaFanFrom s c r) := by
  unfold State.patinaFanFrom
  split
  · exact (.updPat (Part.sub rfl hp) h)
  · exact h

theorem State.patinaFan_touches {ps : List Part} {s0 s : State} {c : Nat} (hp : Part.within [.pat] ps = true)
    (h : Touches ps s0 s) :
    Touches ps s0 (State.patinaFan s c) :=
  State.patinaFanFrom_touches (Part.sub rfl hp) h

theorem State.patinaRefillFrom_touches {ps : List Part} {s0 s : State} {n : Nat} {r1 : Option Bytes}
    {r2 : Option Bytes} (hp : Part.within [.pat] ps = true) (h : Touches ps s0 s) :
    Touches ps s0 (State.patinaRefillFrom s n r1 r2) := by
  unfold State.patinaRefillFrom
  extract_lets _ _ _
  exact State.setPatina_touches (Part.sub rfl hp) h

theorem State.patinaRefill_touches {ps : List Part} {s0 s : State} {n : Nat} (hp : Part.within [.pat] ps = true)
    (h : Touches ps s0 s) :
    Touches ps s0 (State.patinaRefill s n) :=
  State.patinaRefillFrom_touches (Part.sub rfl hp) h

theorem State.patinaRestore_touches {ps : List Part} {s0 s : State} (hp : Part.within [.cap, .pat] ps = true)
    (h : Touches ps s0 s) : Touches ps s0 (State.patinaRestore s) := by
  unfold State.patinaRestore
  refine .updCap (Part.sub rfl hp) ?_
  refine .foldl (fun _ _ h => State.patinaFan_touches (Part.sub rfl hp) h) ?_
  exact .foldl (fun _ _ h => State.patinaRefill_touches (Part.sub rfl hp) h) h

theorem State.fullService_touches {ps : List Part} {s0 s : State}
    (hp : Part.within [.pwr, .led, .boot, .seq, .log, .mem, .cap, .met, .pat, .pnt, .cool, .chi, .ckpt, .cal, .jrn, .gimg, .ques, .ebx, .evt, .mgt, .pair, .dram, .out] ps = true)
    (h : Touches ps s0 s) :
    Touches ps s0 (State.fullService s) := by
  unfold State.fullService
  extract_lets s1 s2 s3 s4 s5 s6 s7 s8 _ _ _ s9
  have h1 : Touches ps s0 s1 := State.laterSteps_touches (Part.sub rfl hp) (State.firmwareRuns_touches
      (Part.sub rfl hp) h)
  clear_value s1
  have h2 : Touches ps s0 s2 := State.endStep_touches (Part.sub rfl hp) h1
  clear_value s2
  have h3 : Touches ps s0 s3 := State.endStep_touches (Part.sub rfl hp) h2
  clear_value s3
  have h4 : Touches ps s0 s4 := State.endStep_touches (Part.sub rfl hp) h3
  clear_value s4
  have h5 : Touches ps s0 s5 := State.endStep_touches (Part.sub rfl hp) h4
  clear_value s5
  have h6 : Touches ps s0 s6 := .ite (State.patinaRestore_touches (Part.sub rfl hp) h5) h5
  clear_value s6
  have h7 : Touches ps s0 s7 := .ite h6 (State.chiRestore_touches (Part.sub rfl hp) h6)
  clear_value s7
  have h8 : Touches ps s0 s8 := .ite (State.pointingRole_touches (Part.sub rfl hp) h7) h7
  clear_value s8
  have h9 : Touches ps s0 s9 := .updBootCoolPair (Part.sub rfl hp) h8
  clear_value s9
  exact .ite h1 (State.startPushes_touches (Part.sub rfl hp) h9)

theorem execFullServiceReported_touches {ps : List Part} {s0 s : State}
    (hp : Part.within [.pwr, .led, .boot, .seq, .log, .mem, .cap, .met, .pat, .pnt, .cool, .chi, .ckpt, .cal, .jrn, .gimg, .ques, .ebx, .evt, .mgt, .pair, .dram, .out] ps = true)
    (h : Touches ps s0 s) :
    OTouches ps s0 (execFullServiceReported s) :=
  State.fwDo_touches (Part.sub rfl hp) (fun _ h => (State.fullService_touches (Part.sub rfl hp) h)) h

theorem State.armatureAgain_touches {ps : List Part} {s0 s : State}
    (hp : Part.within [.fresh, .pwr, .rst, .led, .ob, .maq, .boot, .seq, .log, .mem, .cap, .met, .pnt, .cool, .chi, .cal, .jrn, .ques, .ebx, .evt, .mgt, .pair, .acc, .flash0, .flash1, .dram, .out] ps = true)
    (h : Touches ps s0 s) :
    Touches ps s0 (State.armatureAgain s) := by
  unfold State.armatureAgain
  extract_lets s1 _ s2
  have h1 : Touches ps s0 s1 := State.bootAgain_touches (Part.sub rfl hp) (State.armatureStop_touches (Part.sub
      rfl hp) h)
  clear_value s1
  have h2 : Touches ps s0 s2 := .updRst (Part.sub rfl hp) h1
  clear_value s2
  exact State.begin9_touches (Part.sub rfl hp) (State.newStart_touches (Part.sub rfl hp) h2)

theorem State.timeoutEffect_touches {ps : List Part} {s0 s : State} {n : Nat}
    (hp : Part.within [.fresh, .pwr, .rst, .led, .ob, .maq, .boot, .seq, .svy, .log, .mem, .cap, .met, .pnt, .haz, .cool, .chi, .ckpt, .cal, .jrn, .gimg, .ques, .ebx, .evt, .mgt, .pair, .acc, .flash0, .flash1, .dram, .out] ps = true)
    (h : Touches ps s0 s) :
    Touches ps s0 (State.timeoutEffect s n) := by
  unfold State.timeoutEffect
  extract_lets _ _ _ s1 _ _ _ _
  have h1 : Touches ps s0 s1 := State.clampCheck_touches (Part.sub rfl hp) (State.chsTimedOut_touches (Part.sub
      rfl hp) h)
  clear_value s1
  split
  · exact h
  · exact State.begin567_touches (Part.sub rfl hp) h
  · exact State.noteLoad_touches (Part.sub rfl hp) (State.startLoad_touches (Part.sub rfl hp) h)
  · exact .ite (State.record_touches (Part.sub rfl hp) (.updPair (Part.sub rfl hp) h)) h
  · exact State.coreFails_touches (Part.sub rfl hp) h
  · exact .ite h (State.begin9_touches (Part.sub rfl hp) h)
  · refine .ite ?_ ?_
    · exact h
    · exact State.begin10_touches (Part.sub rfl hp) (State.armUp_touches (Part.sub rfl hp) h)
  · exact State.repairAll_touches (Part.sub rfl hp) (State.chooseNext_touches (Part.sub rfl hp) h)
  · exact State.armatureAgain_touches (Part.sub rfl hp) h
  · exact .updMgt (Part.sub rfl hp) h
  · exact State.beginStep_touches (Part.sub rfl hp) (.updLed (Part.sub rfl hp) h1)
  · exact State.jrnNewEpoch_touches (Part.sub rfl hp) h
  · exact State.endStep17_touches (Part.sub rfl hp) (.updCal (Part.sub rfl hp) h)
  · exact State.begin19_touches (Part.sub rfl hp) (.updSeq (Part.sub rfl hp) h)
  · exact .updBoot (Part.sub rfl hp) h
  · exact h

theorem execStartStepTimeout_touches {ps : List Part} {s0 : State} {step : Nat} {s : State}
    (hp : Part.within [.fresh, .pwr, .rst, .led, .ob, .maq, .boot, .seq, .svy, .log, .mem, .cap, .met, .pnt, .haz, .cool, .chi, .ckpt, .cal, .jrn, .gimg, .ques, .ebx, .evt, .mgt, .pair, .acc, .flash0, .flash1, .dram, .out] ps = true)
    (h : Touches ps s0 s) :
    OTouches ps s0 (execStartStepTimeout step s) :=
  State.standbyDo_touches (Part.sub rfl hp) (fun _ h => (.ite h (State.timeoutEffect_touches (Part.sub rfl hp)
    (State.endStep_touches (Part.sub rfl hp) h)))) h

theorem execStartStepRetryTimer_touches {ps : List Part} {s0 : State} {step : Nat} {ok : Bool} {s : State}
    (hp : Part.within [.pwr, .rst, .led, .seq, .log, .mem, .cap, .rel, .met, .pnt, .chi, .cal, .jrn, .ques, .ebx, .evt, .mgt, .dram, .out] ps = true)
    (h : Touches ps s0 s) :
    OTouches ps s0 (execStartStepRetryTimer step ok s) := by
  unfold execStartStepRetryTimer
  refine State.standbyDo_touches (Part.sub rfl hp) (fun _ hg => ?_) h
  extract_lets gs1 _ gs2 _
  have gh1 : Touches ps s0 gs1 := .ite (State.powerStep_touches (Part.sub rfl hp) hg) hg
  clear_value gs1
  have gh2 : Touches ps s0 gs2 := .ite (.updMgt (Part.sub rfl hp) gh1) gh1
  clear_value gs2
  refine .ite ?_ ?_
  · refine .ite ?_ ?_
    · exact State.thresholds_touches (Part.sub rfl hp) (State.beginStep_touches (Part.sub rfl hp) hg)
    · exact hg
  · refine .ite ?_ ?_
    · exact .ite (State.wholeStep_touches (Part.sub rfl hp) hg) hg
    · refine .ite ?_ ?_
      · split
        · refine .ite ?_ ?_
          · exact hg
          · exact State.coreUp_touches (Part.sub rfl hp) (State.powerStep_touches (Part.sub rfl hp)
                (State.beginStep_touches (Part.sub rfl hp) hg))
        · exact hg
      · exact .ite (.ite (State.wholeStep_touches (Part.sub rfl hp) gh2) hg) hg

theorem execLedgerFlashMirror_touches {ps : List Part} {s0 : State} {step : Nat} {s : State}
    (hp : Part.within [.led, .flash0, .flash1] ps = true) (h : Touches ps s0 s) :
    OTouches ps s0 (execLedgerFlashMirror step s) := by
  unfold execLedgerFlashMirror
  refine State.standbyDo_touches (Part.sub rfl hp) (fun _ hg => ?_) h
  extract_lets _ _ gs1
  have gh1 : Touches ps s0 gs1 := .updLed (Part.sub rfl hp) hg
  clear_value gs1
  refine .ite ?_ ?_
  · exact hg
  · split
    · exact gh1
    · extract_lets _ _ gbm1s1
      have gbm1h1 : Touches ps s0 gbm1s1 := .ite (State.ferase_touches (Part.sub rfl hp) gh1) gh1
      clear_value gbm1s1
      exact State.fstore_touches (Part.sub rfl hp) gbm1h1

theorem State.holdupSites_touches {ps : List Part} {s0 s : State}
    (hp : Part.within [.pwr, .seq, .log, .mem, .cap, .met, .pnt, .chi, .cal, .jrn, .ques, .ebx, .evt, .dram, .out] ps = true)
    (h : Touches ps s0 s) :
    Touches ps s0 (State.holdupSites s) := by
  unfold State.holdupSites
  refine .foldl (fun _ _ hf => ?_) h
  split
  · exact State.settle_touches (Part.sub rfl hp) (State.siteDownSeq_touches (Part.sub rfl hp) hf)
  · exact State.siteTo_touches (Part.sub rfl hp) hf
  · exact hf

theorem State.holdupUpdates_touches {ps : List Part} {s0 s : State}
    (hp : Part.within [.ob, .maq, .boot, .log, .mem, .ques, .ebx, .evt, .mgt, .flash0, .flash1, .dram, .out] ps = true)
    (h : Touches ps s0 s) :
    Touches ps s0 (State.holdupUpdates s) := by
  unfold State.holdupUpdates
  extract_lets _ s1 s2 _
  have h1 : Touches ps s0 s1 := by
    unfold s1
    split
    · exact State.updFail_touches (Part.sub rfl hp) (.ite (State.updWrite_touches (Part.sub rfl hp) (.upd
          [.boot] (Part.sub rfl hp) h)) (State.dropUpdate_touches (Part.sub rfl hp) h))
    · exact h
  clear_value s1
  have h2 : Touches ps s0 s2 := by
    unfold s2
    refine .foldl (fun _ _ k2hf => ?_) h1
    split
    · exact State.updFail_touches (Part.sub rfl hp) k2hf
    · exact k2hf
  clear_value s2
  exact State.protFree_touches (Part.sub rfl hp) (.updBoot (Part.sub rfl hp) h2)

theorem State.holdupStore_touches {ps : List Part} {s0 s : State}
    (hp : Part.within [.ob, .maq, .log, .mem, .ques, .ebx, .evt, .mgt, .flash0, .flash1, .dram, .out] ps = true)
    (h : Touches ps s0 s) :
    Touches ps s0 (State.holdupStore s) := by
  unfold State.holdupStore
  split
  · exact (.ite (State.maqServeAll_touches (Part.sub rfl hp) (State.switchDone_touches (Part.sub rfl hp) (.updMaq (Part.sub rfl hp) h))) h)
  · exact h

theorem State.shedDimms_touches {ps : List Part} {s0 s : State} (hp : Part.within [.pwr, .mem] ps = true)
    (h : Touches ps s0 s) :
    Touches ps s0 (State.shedDimms s) :=
  .updPwrMem (Part.sub rfl hp) h

theorem State.holdupResume_touches {ps : List Part} {s0 s : State} (hp : Part.within [.pwr, .mem] ps = true)
    (h : Touches ps s0 s) :
    Touches ps s0 (State.holdupResume s) := by
  unfold State.holdupResume
  extract_lets _ _ s1 s2
  have h1 : Touches ps s0 s1 := .updMem (Part.sub rfl hp) h
  clear_value s1
  have h2 : Touches ps s0 s2 := .ite (State.askClock_touches (Part.sub rfl hp) h1) h1
  clear_value s2
  exact .ite (State.askClock_touches (Part.sub rfl hp) h2) h2

theorem State.holdupStart_touches {ps : List Part} {s0 s : State} {busV : Nat}
    (hp : Part.within [.pwr, .ob, .maq, .boot, .seq, .rcnt, .log, .snap, .mem, .cap, .met, .pnt, .chi, .cal, .jrn, .gimg, .ques, .ebx, .evt, .mgt, .flash0, .flash1, .dram, .out] ps = true)
    (h : Touches ps s0 s) :
    Touches ps s0 (State.holdupStart s busV) := by
  unfold State.holdupStart
  extract_lets _ _ s1 s2 _ s3 _ s4
  have h1 : Touches ps s0 s1 := .updPwrSnap (Part.sub rfl hp) h
  clear_value s1
  have h2 : Touches ps s0 s2 := State.holdupStore_touches (Part.sub rfl hp) (State.holdupUpdates_touches
      (Part.sub rfl hp) (State.holdupSites_touches (Part.sub rfl hp) (State.calStop_touches (Part.sub rfl hp)
      h1)))
  clear_value s2
  have h3 : Touches ps s0 s3 := .ite (State.snapshot_touches (Part.sub rfl hp) h2) h2
  clear_value s3
  have h4 : Touches ps s0 s4 := .ite (.updSnap (Part.sub rfl hp) h3) h3
  clear_value s4
  exact .ite (State.shedDimms_touches (Part.sub rfl hp) h4) h4

theorem execHoldupBegin_touches {ps : List Part} {s0 : State} {busV : Nat} {s : State}
    (hp : Part.within [.pwr, .ob, .maq, .boot, .seq, .rcnt, .log, .snap, .mem, .cap, .rel, .met, .pnt, .chi, .cal, .jrn, .gimg, .ques, .ebx, .evt, .mgt, .flash0, .flash1, .dram, .out] ps = true)
    (h : Touches ps s0 s) :
    OTouches ps s0 (execHoldupBegin busV s) :=
  State.standbyDo_touches (Part.sub rfl hp) (fun _ h => (.ite (State.busSeen_touches (Part.sub rfl hp) h)
    (State.holdupStart_touches (Part.sub rfl hp) (State.busSeen_touches (Part.sub rfl hp) h)))) h

theorem execHoldupEnd_touches {ps : List Part} {s0 s : State}
    (hp : Part.within [.pwr, .maq, .boot, .seq, .log, .snap, .mem, .cap, .met, .pnt, .chi, .cal, .jrn, .ques, .ebx, .evt, .flash0, .flash1, .dram, .out] ps = true)
    (h : Touches ps s0 s) :
    OTouches ps s0 (execHoldupEnd s) := by
  unfold execHoldupEnd
  refine State.standbyDo_touches (Part.sub rfl hp) (fun _ hg => ?_) h
  extract_lets gs1 _ _ _ _ gs2
  have gh1 : Touches ps s0 gs1 := State.holdupSummaries_touches (Part.sub rfl hp) hg
  clear_value gs1
  have gh2 : Touches ps s0 gs2 := .updLogSnap (Part.sub rfl hp) gh1
  clear_value gs2
  refine .ite ?_ ?_
  · exact hg
  · exact State.holdupResume_touches (Part.sub rfl hp) (State.recordLate_touches (Part.sub rfl hp)
        (State.backoffsOver_touches (Part.sub rfl hp) (State.startPushes_touches (Part.sub rfl hp)
        (State.startPage_touches (Part.sub rfl hp) (State.eraseBadBanks_touches (Part.sub rfl hp) gh2)))))

theorem execHoldWindowExpiry_touches {ps : List Part} {s0 s : State}
    (hp : Part.within [.log, .cap, .cool, .evt, .pair, .out] ps = true) (h : Touches ps s0 s) :
    OTouches ps s0 (execHoldWindowExpiry s) := by
  unfold execHoldWindowExpiry
  refine State.standbyDo_touches (Part.sub rfl hp) (fun _ hg => ?_) h
  extract_lets gs1 _ gs2 _ gs3
  have gh1 : Touches ps s0 gs1 := by
    unfold gs1
    refine .foldl (fun _ _ gk1hf => ?_) hg
    extract_lets _ _ _ _
    split
    · exact State.capEvent_touches (Part.sub rfl hp) (State.setCapS_touches (Part.sub rfl hp)
          (State.setCap_touches (Part.sub rfl hp) gk1hf))
    · exact State.capEvent_touches (Part.sub rfl hp) (State.setCapS_touches (Part.sub rfl hp)
          (State.setCap_touches (Part.sub rfl hp) gk1hf))
    · exact State.capEvent_touches (Part.sub rfl hp) (State.setCapS_touches (Part.sub rfl hp)
          (State.setCap_touches (Part.sub rfl hp) gk1hf))
    · exact gk1hf
  clear_value gs1
  have gh2 : Touches ps s0 gs2 := .ite gh1 (State.fanEventAll_touches (Part.sub rfl hp) (State.forceNow_touches
      (Part.sub rfl hp) (.updCool (Part.sub rfl hp) gh1)))
  clear_value gs2
  have gh3 : Touches ps s0 gs3 := .updPair (Part.sub rfl hp) gh2
  clear_value gs3
  exact .ite hg (State.record_touches (Part.sub rfl hp) gh3)

theorem execBraceHoldExpiry_touches {ps : List Part} {s0 s : State}
    (hp : Part.within [.maq, .boot, .log, .haz, .evt, .flash0, .flash1, .out] ps = true) (h : Touches ps s0 s) :
    OTouches ps s0 (execBraceHoldExpiry s) := by
  unfold execBraceHoldExpiry
  refine State.standbyDo_touches (Part.sub rfl hp) (fun _ hg => ?_) h
  extract_lets _ _ gs1 _
  have gh1 : Touches ps s0 gs1 := State.shakeEvent_touches (Part.sub rfl hp) hg
  clear_value gs1
  refine .ite ?_ ?_
  · exact hg
  · refine .ite ?_ ?_
    · exact State.recordLate_touches (Part.sub rfl hp) (State.startPushes_touches (Part.sub rfl hp) (.upd
          [.haz] (Part.sub rfl hp) gh1))
    · exact hg

theorem State.tjEvent_touches {ps : List Part} {s0 s : State} {kind : Nat} {threshold : Int}
    (hp : Part.within [.log, .evt] ps = true) (h : Touches ps s0 s) :
    Touches ps s0 (State.tjEvent s kind threshold) := by
  unfold State.tjEvent
  extract_lets _ _
  exact State.record_touches (Part.sub rfl hp) h

theorem State.tjStop_touches {ps : List Part} {s0 s : State}
    (hp : Part.within [.pwr, .rst, .ob, .maq, .boot, .seq, .log, .mem, .cap, .met, .pnt, .haz, .cool, .chi, .cal, .jrn, .gimg, .ques, .ebx, .evt, .mgt, .pair, .acc, .flash0, .flash1, .dram, .out] ps = true)
    (h : Touches ps s0 s) :
    Touches ps s0 (State.tjStop s) := by
  unfold State.tjStop
  extract_lets _ s1 s2 s3
  have h1 : Touches ps s0 s1 := State.forceNow_touches (Part.sub rfl hp) (.updHaz (Part.sub rfl hp) h)
  clear_value s1
  have h2 : Touches ps s0 s2 := State.bump_touches (Part.sub rfl hp) (fun _ _ h => (.updHaz (Part.sub rfl
      hp) h)) h1
  clear_value s2
  have h3 : Touches ps s0 s3 := State.calStop_touches (Part.sub rfl hp) (State.tjEvent_touches (Part.sub rfl hp) h2)
  clear_value s3
  exact State.settle_touches (Part.sub rfl hp) (State.orderDown_touches (Part.sub rfl hp)
      (State.armatureStop_touches (Part.sub rfl hp) h3))

theorem State.tjTake_touches {ps : List Part} {s0 s : State} {rd : List (Option Int)}
    (hp : Part.within [.log, .haz, .evt] ps = true) (h : Touches ps s0 s) :
    Touches ps s0 (State.tjTake s rd) := by
  unfold State.tjTake
  extract_lets _ _ _ _ _ s1
  have h1 : Touches ps s0 s1 := .updHaz (Part.sub rfl hp) h
  clear_value s1
  exact .ite (State.tjEvent_touches (Part.sub rfl hp) h1) h1

theorem State.tjJudge_touches {ps : List Part} {s0 s : State}
    (hp : Part.within [.pwr, .rst, .led, .ob, .pins, .maq, .boot, .debug, .seq, .svy, .rcnt, .log, .snap, .mem, .cap, .rel, .met, .pat, .pnt, .haz, .cool, .chi, .ckpt, .cal, .jrn, .gimg, .selfTest, .ques, .mov, .ebx, .evt, .mgt, .pair, .acc, .flash0, .flash1, .dram, .out] ps = true)
    (h : Touches ps s0 s) :
    Touches ps s0 (State.tjJudge s) := by
  unfold State.tjJudge
  extract_lets _ _
  refine .ite ?_ ?_
  · exact h
  · refine .ite ?_ ?_
    · exact State.resetSource_touches (Part.sub rfl hp) (State.tjEvent_touches (Part.sub rfl hp) h)
    · exact .ite (State.tjStop_touches (Part.sub rfl hp) h) h

theorem execTjSample_touches {ps : List Part} {s0 : State} {readings : List (Option Int)} {s : State}
    (hp : Part.within [.pwr, .rst, .led, .ob, .pins, .maq, .boot, .debug, .seq, .svy, .rcnt, .log, .snap, .mem, .cap, .rel, .met, .pat, .pnt, .haz, .cool, .chi, .ckpt, .cal, .jrn, .gimg, .selfTest, .ques, .mov, .ebx, .evt, .mgt, .pair, .acc, .flash0, .flash1, .dram, .out] ps = true)
    (h : Touches ps s0 s) :
    OTouches ps s0 (execTjSample readings s) :=
  State.standbyDo_touches (Part.sub rfl hp) (fun _ h => (.ite (State.tjJudge_touches (Part.sub rfl hp)
    (State.tjTake_touches (Part.sub rfl hp) h)) h)) h

theorem execTjStopReleaseTimer_touches {ps : List Part} {s0 s : State}
    (hp : Part.within [.fresh, .pwr, .rst, .led, .ob, .maq, .boot, .seq, .log, .mem, .cap, .met, .pnt, .haz, .cool, .chi, .cal, .jrn, .ques, .ebx, .evt, .mgt, .pair, .acc, .flash0, .flash1, .dram, .out] ps = true)
    (h : Touches ps s0 s) :
    OTouches ps s0 (execTjStopReleaseTimer s) :=
  State.standbyDo_touches (Part.sub rfl hp) (fun _ h => (.ite (State.armatureAgain_touches (Part.sub rfl hp)
    (State.tjEvent_touches (Part.sub rfl hp) (.updHaz (Part.sub rfl hp) h))) h)) h

theorem execTjResetRelease_touches {ps : List Part} {s0 s : State}
    (hp : Part.within [.pwr, .rst, .led, .seq, .log, .mem, .cap, .met, .pnt, .haz, .chi, .cal, .jrn, .ques, .ebx, .evt, .dram, .out] ps = true)
    (h : Touches ps s0 s) :
    OTouches ps s0 (execTjResetRelease s) :=
  State.standbyDo_touches (Part.sub rfl hp) (fun _ h => (.ite (.ite (State.begin7_touches (Part.sub rfl hp)
    (State.tjEvent_touches (Part.sub rfl hp) (.updRstHaz (Part.sub rfl hp) h))) (State.tjEvent_touches
    (Part.sub rfl hp) (.updRstHaz (Part.sub rfl hp) h))) h)) h

theorem State.coreAgain_touches {ps : List Part} {s0 s : State}
    (hp : Part.within [.fresh, .pwr, .rst, .led, .maq, .boot, .seq, .log, .mem, .cap, .met, .pnt, .cool, .chi, .cal, .jrn, .gimg, .ques, .mov, .ebx, .evt, .mgt, .pair, .acc, .flash0, .flash1, .dram, .out] ps = true)
    (h : Touches ps s0 s) :
    Touches ps s0 (State.coreAgain s) := by
  unfold State.coreAgain
  extract_lets s1 _ s2
  have h1 : Touches ps s0 s1 := State.bootAgain_touches (Part.sub rfl hp) (State.coreReset_touches (Part.sub
      rfl hp) (State.dropUpdate_touches (Part.sub rfl hp) h))
  clear_value s1
  have h2 : Touches ps s0 s2 := .updRst (Part.sub rfl hp) h1
  clear_value s2
  exact State.begin7_touches (Part.sub rfl hp) (State.newStart_touches (Part.sub rfl hp) h2)

theorem State.armBack_touches {ps : List Part} {s0 s : State}
    (hp : Part.within [.fresh, .pwr, .rst, .led, .ob, .maq, .boot, .seq, .log, .mem, .cap, .met, .pnt, .cool, .chi, .cal, .jrn, .ques, .ebx, .evt, .mgt, .pair, .acc, .flash0, .flash1, .dram, .out] ps = true)
    (h : Touches ps s0 s) :
    Touches ps s0 (State.armBack s) :=
  .ite (State.armatureAgain_touches (Part.sub rfl hp) (.updSeq (Part.sub rfl hp) h)) h

theorem execRailQualifyExpiry_touches {ps : List Part} {s0 : State} {rail : Nat} {s : State}
    (hp : Part.within [.fresh, .pwr, .rst, .led, .ob, .maq, .boot, .seq, .log, .mem, .cap, .met, .pnt, .cool, .chi, .cal, .jrn, .ques, .ebx, .evt, .mgt, .pair, .acc, .flash0, .flash1, .dram, .out] ps = true)
    (h : Touches ps s0 s) :
    OTouches ps s0 (execRailQualifyExpiry rail s) :=
  State.standbyDo_touches (Part.sub rfl hp) (fun _ h => (.ite (State.armBack_touches (Part.sub rfl hp)
    (State.settle_touches (Part.sub rfl hp) (State.setRail_touches (Part.sub rfl hp) h))) h)) h

theorem execSurveySample_touches {ps : List Part} {s0 : State} {die : Nat} {slot : Nat} {x : Sample} {s : State}
    (hp : Part.within [.fresh, .pwr, .rst, .led, .ob, .maq, .boot, .seq, .svy, .rcnt, .log, .snap, .mem, .cap, .met, .pnt, .cool, .chi, .cal, .jrn, .gimg, .ques, .ebx, .evt, .mgt, .pair, .acc, .flash0, .flash1, .dram, .out] ps = true)
    (h : Touches ps s0 s) :
    OTouches ps s0 (execSurveySample die slot x s) :=
  State.standbyDo_touches (Part.sub rfl hp) (fun _ h => (.ite h (.ite (State.refSample_touches (Part.sub rfl hp)
    (.ite (.updSvy (Part.sub rfl hp) h) h)) (.ite h (State.armBack_touches (Part.sub rfl hp)
    (State.sample_touches (Part.sub rfl hp) h)))))) h

theorem execModuleGroupResequence_touches {ps : List Part} {s0 : State} {group : Nat} {s : State}
    (hp : Part.within [.fresh, .pwr, .rst, .led, .ob, .maq, .boot, .seq, .log, .mem, .cap, .met, .pnt, .cool, .chi, .cal, .jrn, .gimg, .ques, .mov, .ebx, .evt, .mgt, .pair, .acc, .flash0, .flash1, .dram, .out] ps = true)
    (h : Touches ps s0 s) :
    OTouches ps s0 (execModuleGroupResequence group s) := by
  unfold execModuleGroupResequence
  refine State.standbyDo_touches (Part.sub rfl hp) (fun _ hg => ?_) h
  extract_lets _ _ _ gs1 gs2 _ _ _
  have gh1 : Touches ps s0 gs1 := .updSeq (Part.sub rfl hp) hg
  have gh2 : Touches ps s0 gs2 := State.settle_touches (Part.sub rfl hp) (State.orderUp_touches (Part.sub rfl hp) gh1)
  refine .ite ?_ ?_
  · exact hg
  · refine .ite ?_ ?_
    · exact State.coreAgain_touches (Part.sub rfl hp) gh2
    · refine .ite ?_ ?_
      · exact State.armBack_touches (Part.sub rfl hp) (.updSeq (Part.sub rfl hp) gh2)
      · exact .ite (.updPwr (Part.sub rfl hp) gh2) gh2

end Sys2Proof.Machine
end

