-- ==== Sys2Proof/Laws/Frames/Dram.lean ====
section
/-!
SUPPORT. Laws/Frames/Dram.lean: what each operation of Machine/Dram.lean changes: one lemma for each, by the rules of
Laws/Touches.
-/
set_option Elab.async false
namespace Sys2Proof.Machine

theorem State.newSerial_touches {ps : List Part} {s0 s : State} (hp : Part.within [.led] ps = true)
    (h : Touches ps s0 s) :
    Touches ps s0 (State.newSerial s) := by
  unfold State.newSerial
  extract_lets _ s1
  have h1 : Touches ps s0 s1 := .updLed (Part.sub rfl hp) h
  clear_value s1
  split
  · exact State.putEntry_touches (Part.sub rfl hp) h1
  · exact h1

theorem State.step15_touches {ps : List Part} {s0 s : State} {reps : List (Nat × Option TrainReport)}
    (hp : Part.within [.pwr, .led, .seq, .log, .mem, .cap, .met, .pnt, .chi, .ckpt, .cal, .jrn, .gimg, .ques, .ebx, .evt, .dram, .out] ps = true)
    (h : Touches ps s0 s) :
    Touches ps s0 (State.step15 s reps) := by
  unfold State.step15
  extract_lets s1 s2 _ _ _ s3
  have h1 : Touches ps s0 s1 := .ite (State.newSerial_touches (Part.sub rfl hp) h) h
  clear_value s1
  have h2 : Touches ps s0 s2 := .foldl (fun _ _ h => (.elim h fun _ => (State.chTrained_touches (Part.sub rfl
      hp) h))) h1
  clear_value s2
  have h3 : Touches ps s0 s3 := .ite (State.endStep_touches (Part.sub rfl hp) h2) (State.endStep_touches
      (Part.sub rfl hp) (.updLed (Part.sub rfl hp) h2))
  clear_value s3
  exact State.beginStep_touches (Part.sub rfl hp) (State.noDimms_touches (Part.sub rfl hp)
      (State.clampCheck_touches (Part.sub rfl hp) (.foldl (fun _ _ h => (State.mirrorCheck_touches (Part.sub rfl
      hp) h)) h3)))

theorem State.step15Report_touches {ps : List Part} {s0 s : State} {ch : Nat} {t : TrainReport} {answers : Bool}
    (hp : Part.within [.pwr, .led, .seq, .log, .mem, .cap, .met, .pnt, .chi, .ckpt, .cal, .jrn, .gimg, .ques, .ebx, .evt, .dram, .out] ps = true)
    (h : Touches ps s0 s) :
    Touches ps s0 (State.step15Report s ch t answers) := by
  unfold State.step15Report
  extract_lets _ s1 _ s2
  have h1 : Touches ps s0 s1 := .updMem (Part.sub rfl hp) h
  clear_value s1
  have h2 : Touches ps s0 s2 := .ite (State.settle_touches (Part.sub rfl hp) (State.orderUp_touches (Part.sub
      rfl hp) (State.setCh_touches (Part.sub rfl hp) h1))) (State.setCh_touches (Part.sub rfl hp) h1)
  clear_value s2
  exact .ite (State.step15_touches (Part.sub rfl hp) h2) h2

theorem State.again15_touches {ps : List Part} {s0 s : State}
    (hp : Part.within [.pwr, .led, .seq, .log, .mem, .cap, .met, .pnt, .chi, .cal, .jrn, .ques, .ebx, .evt, .dram, .out] ps = true)
    (h : Touches ps s0 s) :
    Touches ps s0 (State.again15 s) := by
  unfold State.again15
  extract_lets s1
  have h1 : Touches ps s0 s1 := .foldl (fun _ _ h => (State.setCh_touches (Part.sub rfl hp) h)) h
  clear_value s1
  exact State.beginStep_touches (Part.sub rfl hp) (State.newSerial_touches (Part.sub rfl hp) h1)

theorem execDimmTrainingDone_touches {ps : List Part} {s0 : State} {ch : Nat} {ok : Bool} {answers : Bool}
    {mrdimm : Bool} {rate : Nat} {capGB : Nat} {serial : Nat} {s : State}
    (hp : Part.within [.pwr, .led, .seq, .log, .mem, .cap, .met, .pnt, .cool, .chi, .ckpt, .cal, .jrn, .gimg, .ques, .ebx, .evt, .mgt, .dram, .out] ps = true)
    (h : Touches ps s0 s) :
    OTouches ps s0 (execDimmTrainingDone ch ok answers mrdimm rate capGB serial s) := by
  unfold execDimmTrainingDone
  refine State.coreDo_touches (Part.sub rfl hp) (fun _ hg => ?_) h
  extract_lets gs1 _ _ gs2 _
  have gh1 : Touches ps s0 gs1 := State.firmwareRuns_touches (Part.sub rfl hp) hg
  clear_value gs1
  have gh2 : Touches ps s0 gs2 := .ite (.updLed (Part.sub rfl hp) gh1) gh1
  clear_value gs2
  refine .ite ?_ ?_
  · exact State.step15Report_touches (Part.sub rfl hp) gh1
  · refine .ite ?_ ?_
    · refine .ite ?_ ?_
      · exact State.clampCheck_touches (Part.sub rfl hp) (State.mirrorCheck_touches (Part.sub rfl hp)
            (State.chTrained_touches (Part.sub rfl hp) gh2))
      · exact State.setCh_touches (Part.sub rfl hp) gh1
    · refine .ite ?_ ?_
      · exact State.step15Report_touches (Part.sub rfl hp) (State.again15_touches (Part.sub rfl hp) gh1)
      · exact gh1

theorem execMemRemove_touches {ps : List Part} {s0 : State} {r : Req} {ch : Nat} {s : State}
    (hp : Part.within [.pwr, .seq, .log, .mem, .cap, .met, .pnt, .chi, .ckpt, .cal, .jrn, .gimg, .ques, .ebx, .evt, .mgt, .dram, .out] ps = true)
    (h : Touches ps s0 s) :
    OTouches ps s0 (execMemRemove r ch s) := by
  unfold execMemRemove
  refine State.coreDo_touches (Part.sub rfl hp) (fun _ hg => ?_) h
  refine State.withWriteRight_touches (Part.sub rfl hp) (fun _ ghg => ?_) hg
  split
  · exact State.complete_touches (Part.sub rfl hp) ghg
  · exact State.complete_touches (Part.sub rfl hp) (State.chDown_touches (Part.sub rfl hp) ghg)

theorem execMemReturn_touches {ps : List Part} {s0 : State} {r : Req} {ch : Nat} {answers : Bool} {s : State}
    (hp : Part.within [.pwr, .seq, .log, .mem, .cap, .met, .pnt, .chi, .cal, .jrn, .ques, .ebx, .evt, .mgt, .dram, .out] ps = true)
    (h : Touches ps s0 s) :
    OTouches ps s0 (execMemReturn r ch answers s) := by
  unfold execMemReturn
  refine State.coreDo_touches (Part.sub rfl hp) (fun _ hg => ?_) h
  refine State.withWriteRight_touches (Part.sub rfl hp) (fun _ ghg => ?_) hg
  extract_lets _ ggs1 _ ggs2
  have ggh1 : Touches ps s0 ggs1 := State.setCh_touches (Part.sub rfl hp) ghg
  clear_value ggs1
  have ggh2 : Touches ps s0 ggs2 := .ite (State.settle_touches (Part.sub rfl hp) (State.orderUp_touches
      (Part.sub rfl hp) (.updPwr (Part.sub rfl hp) ggh1))) ggh1
  clear_value ggs2
  split
  · exact State.complete_touches (Part.sub rfl hp) ghg
  · exact State.complete_touches (Part.sub rfl hp) ggh2

theorem execMemFillDone_touches {ps : List Part} {s0 : State} {ch : Nat} {s : State}
    (hp : Part.within [.log, .mem, .jrn, .evt, .dram] ps = true) (h : Touches ps s0 s) :
    OTouches ps s0 (execMemFillDone ch s) :=
  State.coreDo_touches (Part.sub rfl hp) (fun _ h => (.ite (State.fillDone_touches (Part.sub rfl hp) h) h)) h

theorem execMemSpdSilentTimeout_touches {ps : List Part} {s0 : State} {ch : Nat} {s : State}
    (hp : Part.within [.pwr, .seq, .log, .mem, .cap, .met, .pnt, .chi, .ckpt, .cal, .jrn, .gimg, .ques, .ebx, .evt, .dram, .out] ps = true)
    (h : Touches ps s0 s) :
    OTouches ps s0 (execMemSpdSilentTimeout ch s) :=
  State.coreDo_touches (Part.sub rfl hp) (fun _ h => (.ite (State.chDown_touches (Part.sub rfl hp) h) h)) h

theorem State.dwriteSome_touches {ps : List Part} {s0 s : State} {a : Nat} {o : Option Bytes}
    (hp : Part.within [.mem, .dram] ps = true) (h : Touches ps s0 s) :
    Touches ps s0 (State.dwriteSome s a o).1 := by
  unfold State.dwriteSome
  split
  · exact (State.dwrite_touches (Part.sub rfl hp) h)
  · exact h

theorem State.journalRecover_touches {ps : List Part} {s0 s : State} {ch : Nat} {addr : Nat}
    (hp : Part.within [.mem, .dram] ps = true) (h : Touches ps s0 s) :
    Touches ps s0 (State.journalRecover s ch addr).1 := by
  unfold State.journalRecover
  extract_lets _ _
  exact State.dwriteSome_touches (Part.sub rfl hp) h

theorem State.ownerActs_touches {ps : List Part} {s0 s : State} {ch : Nat} {addr : Nat} {owner : Nat} {unit : Nat}
    {recovered : Bool}
    (hp : Part.within [.pwr, .boot, .seq, .log, .mem, .cap, .met, .pnt, .chi, .ckpt, .cal, .jrn, .gimg, .ques, .ebx, .evt, .dram, .out] ps = true)
    (h : Touches ps s0 s) :
    Touches ps s0 (State.ownerActs s ch addr owner unit recovered).1 := by
  unfold State.ownerActs
  extract_lets _ _
  split
  · exact State.journalRecover_touches (Part.sub rfl hp) h
  · exact State.tileError_touches (Part.sub rfl hp) h
  · exact State.gaugeUnload_touches (Part.sub rfl hp) (.updGimg (Part.sub rfl hp) h)
  · exact .updCal (Part.sub rfl hp) h
  · split
    · exact h
    · exact State.event_touches (Part.sub rfl hp) (.updBoot (Part.sub rfl hp) h)
  · exact .updCkpt (Part.sub rfl hp) h
  · exact h

theorem State.countDetect_touches {ps : List Part} {s0 s : State} {ch : Nat} {addr : Nat}
    (hp : Part.within [.mem, .evt] ps = true) (h : Touches ps s0 s) :
    Touches ps s0 (State.countDetect s ch addr) := by
  unfold State.countDetect
  extract_lets _ _ s1
  have h1 : Touches ps s0 s1 := State.setCh_touches (Part.sub rfl hp) h
  clear_value s1
  exact State.bump_touches (Part.sub rfl hp) (fun _ _ h => (State.setCh_touches (Part.sub rfl hp) h)) h1

theorem State.limitCheck_touches {ps : List Part} {s0 s : State} {ch : Nat}
    (hp : Part.within [.pwr, .seq, .log, .mem, .cap, .met, .pnt, .chi, .ckpt, .cal, .jrn, .gimg, .ques, .ebx, .evt, .dram, .out] ps = true)
    (h : Touches ps s0 s) :
    Touches ps s0 (State.limitCheck s ch) :=
  .ite (State.chDown_touches (Part.sub rfl hp) h) h

theorem State.ownerRecovers_touches {ps : List Part} {s0 s : State} {ch : Nat} {addr : Nat} {owner : Nat}
    {unit : Nat} {recovered : Bool}
    (hp : Part.within [.pwr, .boot, .seq, .log, .mem, .cap, .met, .pnt, .chi, .ckpt, .cal, .jrn, .gimg, .ques, .ebx, .evt, .dram, .out] ps = true)
    (h : Touches ps s0 s) :
    Touches ps s0 (State.ownerRecovers s ch addr owner unit recovered) := by
  unfold State.ownerRecovers
  extract_lets s1 s2 _ s3
  have h1 : Touches ps s0 s1.1 := State.ownerActs_touches (Part.sub rfl hp) h
  clear_value s1
  have h2 : Touches ps s0 s2 := h1
  clear_value s2
  have h3 : Touches ps s0 s3 := State.bump_touches (Part.sub rfl hp) (fun _ _ h => (State.setCh_touches
      (Part.sub rfl hp) h)) h2
  clear_value s3
  refine .ite ?_ ?_
  · exact State.setCh_touches (Part.sub rfl hp) h2
  · exact State.memEvent_touches (Part.sub rfl hp) h3

theorem State.memError_touches {ps : List Part} {s0 s : State} {ch : Nat} {addr : Nat} {owner : Nat} {unit : Nat}
    {recovered : Bool}
    (hp : Part.within [.pwr, .boot, .seq, .log, .mem, .cap, .met, .pnt, .chi, .ckpt, .cal, .jrn, .gimg, .ques, .ebx, .evt, .dram, .out] ps = true)
    (h : Touches ps s0 s) :
    Touches ps s0 (State.memError s ch addr owner unit recovered) := by
  unfold State.memError
  extract_lets _ _ s1 _ s2 _ s3
  have h1 : Touches ps s0 s1 := State.countDetect_touches (Part.sub rfl hp) h
  clear_value s1
  have h2 : Touches ps s0 s2 := State.setCh_touches (Part.sub rfl hp) h1
  clear_value s2
  have h3 : Touches ps s0 s3 := .ite (State.memEvent_touches (Part.sub rfl hp) (State.setCh_touches (Part.sub
      rfl hp) h2)) h2
  clear_value s3
  exact State.limitCheck_touches (Part.sub rfl hp) (State.ownerRecovers_touches (Part.sub rfl hp) h3)

theorem execMemReadErrorDetected_touches {ps : List Part} {s0 : State} {ch : Nat} {addr : Nat} {owner : Nat}
    {unit : Nat} {recovered : Bool} {s : State}
    (hp : Part.within [.pwr, .boot, .seq, .log, .mem, .cap, .met, .pnt, .chi, .ckpt, .cal, .jrn, .gimg, .ques, .ebx, .evt, .dram, .out] ps = true)
    (h : Touches ps s0 s) :
    OTouches ps s0 (execMemReadErrorDetected ch addr owner unit recovered s) :=
  State.coreDo_touches (Part.sub rfl hp) (fun _ h => (.ite (State.memError_touches (Part.sub rfl hp) h) h)) h

theorem State.scrubError_touches {ps : List Part} {s0 s : State} {ch : Nat} {e : Nat × Nat × Nat}
    (hp : Part.within [.pwr, .boot, .seq, .log, .mem, .cap, .met, .pnt, .chi, .ckpt, .cal, .jrn, .gimg, .ques, .ebx, .evt, .dram, .out] ps = true)
    (h : Touches ps s0 s) :
    Touches ps s0 (State.scrubError s ch e) := by
  unfold State.scrubError
  extract_lets _ s1 s2 _ _ s3 _ s4
  have h1 : Touches ps s0 s1 := State.countDetect_touches (Part.sub rfl hp) h
  clear_value s1
  have h2 : Touches ps s0 s2 := State.bump_touches (Part.sub rfl hp) (fun _ _ h => (State.setCh_touches
      (Part.sub rfl hp) h)) h1
  clear_value s2
  have h3 : Touches ps s0 s3 := State.setCh_touches (Part.sub rfl hp) h2
  clear_value s3
  have h4 : Touches ps s0 s4 := .ite (.ite (State.memEvent_touches (Part.sub rfl hp) (State.setCh_touches
      (Part.sub rfl hp) h3)) h3) (State.ownerRecovers_touches (Part.sub rfl hp) h3)
  clear_value s4
  exact State.limitCheck_touches (Part.sub rfl hp) h4

theorem execMemScrubBurst_touches {ps : List Part} {s0 : State} {ch : Nat} {errs : List (Nat × Nat × Nat)}
    {s : State}
    (hp : Part.within [.pwr, .boot, .seq, .log, .mem, .cap, .met, .pnt, .chi, .ckpt, .cal, .jrn, .gimg, .ques, .ebx, .evt, .dram, .out] ps = true)
    (h : Touches ps s0 s) :
    OTouches ps s0 (execMemScrubBurst ch errs s) := by
  unfold execMemScrubBurst
  refine State.coreDo_touches (Part.sub rfl hp) (fun _ hg => ?_) h
  extract_lets _ _ _ gs1 gs2 _ gs3
  have gh1 : Touches ps s0 gs1 := State.askClock_touches (Part.sub rfl hp) hg
  clear_value gs1
  have gh2 : Touches ps s0 gs2 := State.setCh_touches (Part.sub rfl hp) gh1
  clear_value gs2
  have gh3 : Touches ps s0 gs3 := .ite (.updMem (Part.sub rfl hp) gh2) gh2
  clear_value gs3
  exact .ite hg (.foldl (fun _ _ h => (State.scrubError_touches (Part.sub rfl hp) h)) gh3)

theorem State.quarantineLost_touches {ps : List Part} {s0 s : State}
    (hp : Part.within [.rst, .led, .boot, .evt] ps = true) (h : Touches ps s0 s) :
    Touches ps s0 (State.quarantineLost s) := by
  unfold State.quarantineLost
  split
  · exact h
  · exact (State.chooseNext_touches (Part.sub rfl hp) (State.event_touches (Part.sub rfl hp) (.updBoot (Part.sub rfl hp) h)))

theorem State.ringEntryLost_touches {ps : List Part} {s0 s : State} {q : Nat}
    (hp : Part.within [.mem, .ques, .ebx, .evt, .dram, .out] ps = true) (h : Touches ps s0 s) :
    Touches ps s0 (State.ringEntryLost s q) := by
  unfold State.ringEntryLost
  split
  · exact (State.complete_touches (Part.sub rfl hp) h)
  · exact h

theorem execSramParityError_touches {ps : List Part} {s0 : State} {die : Nat} {region : Nat} {unit : Nat}
    {s : State}
    (hp : Part.within [.pwr, .rst, .led, .ob, .pins, .maq, .boot, .debug, .seq, .svy, .rcnt, .log, .snap, .mem, .cap, .rel, .met, .pat, .pnt, .haz, .cool, .chi, .ckpt, .cal, .jrn, .gimg, .selfTest, .ques, .mov, .ebx, .evt, .mgt, .pair, .acc, .flash0, .flash1, .dram, .out] ps = true)
    (h : Touches ps s0 s) :
    OTouches ps s0 (execSramParityError die region unit s) := by
  unfold execSramParityError
  refine State.coreDo_touches (Part.sub rfl hp) (fun _ hg => ?_) h
  extract_lets _ _ gs1 _ gs2 _
  have gh1 : Touches ps s0 gs1 := State.bump_touches (Part.sub rfl hp) (fun _ _ h => (.updMem (Part.sub rfl
      hp) h)) hg
  clear_value gs1
  have gh2 : Touches ps s0 gs2 := .ite (State.memEvent_touches (Part.sub rfl hp) (.updMem (Part.sub rfl hp)
      gh1)) gh1
  clear_value gs2
  refine .ite ?_ ?_
  · exact hg
  · split
    · exact State.tileError_touches (Part.sub rfl hp) gh2
    · exact State.quarantineLost_touches (Part.sub rfl hp) gh2
    · exact State.chiEvent_touches (Part.sub rfl hp) (State.setChiS_touches (Part.sub rfl hp) gh2)
    · refine .ite ?_ ?_
      · exact gh2
      · refine .ite ?_ ?_
        · exact .ite (State.flushEnd_touches (Part.sub rfl hp) gh2) gh2
        · exact State.ringEntryLost_touches (Part.sub rfl hp) gh2
    · exact .ite (State.wdtExpiry_touches (Part.sub rfl hp) gh2) gh2

theorem execLockstepMismatch_touches {ps : List Part} {s0 : State} {pair : Nat} {s : State}
    (hp : Part.within [.pwr, .rst, .led, .ob, .pins, .maq, .boot, .debug, .seq, .svy, .rcnt, .log, .snap, .mem, .cap, .rel, .met, .pat, .pnt, .haz, .cool, .chi, .ckpt, .cal, .jrn, .gimg, .selfTest, .ques, .mov, .ebx, .evt, .mgt, .pair, .acc, .flash0, .flash1, .dram, .out] ps = true)
    (h : Touches ps s0 s) :
    OTouches ps s0 (execLockstepMismatch pair s) :=
  State.coreDo_touches (Part.sub rfl hp) (fun _ h => (.ite h (State.wdtExpiry_touches (Part.sub rfl hp)
    (State.memEvent_touches (Part.sub rfl hp) (State.pairFails_touches (Part.sub rfl hp) h))))) h

theorem execRcOscStopExpiry_touches {ps : List Part} {s0 s : State} (hp : Part.within [.pwr, .cool, .out] ps = true)
    (h : Touches ps s0 s) :
    OTouches ps s0 (execRcOscStopExpiry s) :=
  State.standbyDo_touches (Part.sub rfl hp) (fun _ h => (.ite h (State.withDrive_touches (Part.sub rfl hp) (fun _ h
    => (.updPwrCool (Part.sub rfl hp) h)) h))) h

theorem State.clkDo_touches {ps : List Part} {s0 s : State} {clk : Nat} {f : State → State}
    (hp : Part.within [] ps = true) (hf : ∀ (s' : State) (_ : Touches ps s0 s'), Touches ps s0 (f s'))
    (h : Touches ps s0 s) :
    OTouches ps s0 (State.clkDo s clk f) :=
  State.standbyDo_touches (Part.sub rfl hp) (fun _ h => (.ite (hf _ h) h)) h

theorem State.afterGrant_touches {ps : List Part} {s0 s : State} {clk : Nat} (hp : Part.within [.cal] ps = true)
    (h : Touches ps s0 s) :
    Touches ps s0 (State.afterGrant s clk) :=
  .ite (State.calNext_touches (Part.sub rfl hp) h) h

theorem execClockGrant_touches {ps : List Part} {s0 : State} {clk : Nat} {s : State}
    (hp : Part.within [.pwr, .mem, .cal, .ebx, .evt] ps = true) (h : Touches ps s0 s) :
    OTouches ps s0 (execClockGrant clk s) :=
  State.clkDo_touches (Part.sub rfl hp) (fun _ h => (.ite h (State.afterGrant_touches (Part.sub rfl hp) (.upd
    [.pwr, .mem, .ebx, .evt] (Part.sub rfl hp) h)))) h

theorem execClockIdleExpiry_touches {ps : List Part} {s0 : State} {clk : Nat} {s : State}
    (hp : Part.within [.pwr] ps = true) (h : Touches ps s0 s) :
    OTouches ps s0 (execClockIdleExpiry clk s) :=
  State.clkDo_touches (Part.sub rfl hp) (fun _ h => (.ite h (.updPwr (Part.sub rfl hp) h))) h

theorem execClockGrantTimeout_touches {ps : List Part} {s0 : State} {clk : Nat} {die : Nat} {s : State}
    (hp : Part.within [.pwr, .rst, .led, .ob, .pins, .maq, .boot, .debug, .seq, .svy, .rcnt, .log, .snap, .mem, .cap, .rel, .met, .pat, .pnt, .haz, .cool, .chi, .ckpt, .cal, .jrn, .gimg, .selfTest, .ques, .mov, .ebx, .evt, .mgt, .pair, .acc, .flash0, .flash1, .dram, .out] ps = true)
    (h : Touches ps s0 s) :
    OTouches ps s0 (execClockGrantTimeout clk die s) := by
  unfold execClockGrantTimeout
  refine State.clkDo_touches (Part.sub rfl hp) (fun _ hg => ?_) h
  extract_lets gs1 gs2 _ gs3 _
  have gh1 : Touches ps s0 gs1 := State.bump_touches (Part.sub rfl hp) (fun _ _ h => (.updPwr (Part.sub rfl
      hp) h)) hg
  clear_value gs1
  have gh2 : Touches ps s0 gs2 := State.event_touches (Part.sub rfl hp) gh1
  clear_value gs2
  have gh3 : Touches ps s0 gs3 := .updPwr (Part.sub rfl hp) gh2
  clear_value gs3
  split
  · exact State.dieStale_touches (Part.sub rfl hp) (.ite (State.askClock_touches (Part.sub rfl hp) gh3) gh3)
  · refine .ite ?_ ?_
    · exact State.wdtExpiry_touches (Part.sub rfl hp) (.updPwr (Part.sub rfl hp) gh3)
    · exact .updPwr (Part.sub rfl hp) gh3
  · exact State.calFence_touches (Part.sub rfl hp) (.updPwr (Part.sub rfl hp) gh3)
  · exact .ite (State.chDown_touches (Part.sub rfl hp) gh3) gh3

end Sys2Proof.Machine
end

