-- ==== Sys2Proof/Laws/Frames/Queues.lean ====
section
/-!
SUPPORT. Laws/Frames/Queues.lean: what each operation of Machine/Queues.lean changes: one lemma for each, by the rules of
Laws/Touches.
-/
set_option Elab.async false
namespace Sys2Proof.Machine

theorem State.queueWrite_touches {ps : List Part} {s0 s : State} {r : Req} {q : Nat} {off : Nat} {f : State → State}
    (hp : Part.within [.log, .evt, .mgt] ps = true) (hf : ∀ (s' : State) (_ : Touches ps s0 s'), Touches ps s0
    (f s')) (h : Touches ps s0 s) :
    Touches ps s0 (State.queueWrite s r q off f) := by
  unfold State.queueWrite
  split
  · exact (State.withWriteRight_touches (Part.sub rfl hp) (fun _ h => (hf _ h)) h)
  · exact (hf _ h)

theorem State.queueError_touches {ps : List Part} {s0 s : State} {q : Nat} {cause : Nat}
    (hp : Part.within [.mem, .ques, .ebx, .evt, .dram, .out] ps = true) (h : Touches ps s0 s) :
    Touches ps s0 (State.queueError s q cause) := by
  unfold State.queueError
  extract_lets _ s1
  have h1 : Touches ps s0 s1 := State.setQueue_touches (Part.sub rfl hp) h
  clear_value s1
  exact .ite h (.ite h1 (State.putCompletion_touches (Part.sub rfl hp) h1))

theorem State.doorbellClock_touches {ps : List Part} {s0 s : State} {q : Nat} (hp : Part.within [.pwr] ps = true)
    (h : Touches ps s0 s) :
    Touches ps s0 (State.doorbellClock s q) := by
  unfold State.doorbellClock
  extract_lets _ s1
  have h1 : Touches ps s0 s1 := .elim h fun _ => (State.askClock_touches (Part.sub rfl hp) h)
  clear_value s1
  split
  · exact State.askClock_touches (Part.sub rfl hp) h1
  · exact h1

theorem State.askEntry_touches {ps : List Part} {s0 s : State} {q : Nat} (hp : Part.within [.ebx, .out] ps = true)
    (h : Touches ps s0 s) :
    Touches ps s0 (State.askEntry s q) := by
  unfold State.askEntry
  extract_lets _ _
  split
  · exact .ite (State.request_touches (Part.sub rfl hp) h) h
  · exact h

theorem State.doorbell_touches {ps : List Part} {s0 s : State} {q : Nat} {principal : Nat} {path : Path} {v : Nat}
    (hp : Part.within [.pwr, .mem, .ques, .ebx, .evt, .dram, .out] ps = true) (h : Touches ps s0 s) :
    Touches ps s0 (State.doorbell s q principal path v) := by
  unfold State.doorbell
  extract_lets _ _ _
  refine .ite ?_ ?_
  · exact h
  · refine .ite ?_ ?_
    · exact State.queueError_touches (Part.sub rfl hp) h
    · exact State.askEntry_touches (Part.sub rfl hp) (State.doorbellClock_touches (Part.sub rfl hp)
          (State.setQueue_touches (Part.sub rfl hp) h))

theorem execDoorbellSqTail_touches {ps : List Part} {s0 : State} {r : Req} {q : Nat} {value : Nat} {s : State}
    (hp : Part.within [.pwr, .mem, .ques, .ebx, .evt, .dram, .out] ps = true) (h : Touches ps s0 s) :
    OTouches ps s0 (execDoorbellSqTail r q value s) :=
  State.coreDo_touches (Part.sub rfl hp) (fun _ h => (State.doorbell_touches (Part.sub rfl hp) h)) h

theorem State.sizeWrite_touches {ps : List Part} {s0 s : State} {q : Nat} {cq : Bool} {v : Nat}
    (hp : Part.within [.mem, .ques, .ebx, .evt, .dram, .out] ps = true) (h : Touches ps s0 s) :
    Touches ps s0 (State.sizeWrite s q cq v) := by
  unfold State.sizeWrite
  extract_lets _ _ _ s1 _ s2
  have h1 : Touches ps s0 s1 := State.setQueue_touches (Part.sub rfl hp) h
  clear_value s1
  have h2 : Touches ps s0 s2 := .updEbx (Part.sub rfl hp) h1
  clear_value s2
  exact .ite (State.queueError_touches (Part.sub rfl hp) h2) h2

theorem execQueueSizeWrite_touches {ps : List Part} {s0 : State} {r : Req} {q : Nat} {cq : Bool} {value : Nat}
    {s : State} (hp : Part.within [.log, .mem, .ques, .ebx, .evt, .mgt, .dram, .out] ps = true)
    (h : Touches ps s0 s) :
    OTouches ps s0 (execQueueSizeWrite r q cq value s) :=
  State.coreDo_touches (Part.sub rfl hp) (fun _ h => (State.queueWrite_touches (Part.sub rfl hp) (fun _ h =>
    (State.sizeWrite_touches (Part.sub rfl hp) h)) h)) h

theorem State.headWrite_touches {ps : List Part} {s0 s : State} {q : Nat} {v : Nat}
    (hp : Part.within [.mem, .ques, .ebx, .evt, .dram, .out] ps = true) (h : Touches ps s0 s) :
    Touches ps s0 (State.headWrite s q v) := by
  unfold State.headWrite
  extract_lets _ _
  refine .ite ?_ ?_
  · exact h
  · refine .ite ?_ ?_
    · exact State.queueError_touches (Part.sub rfl hp) h
    · exact State.setQueue_touches (Part.sub rfl hp) h

theorem execCqHeadWrite_touches {ps : List Part} {s0 : State} {r : Req} {q : Nat} {value : Nat} {s : State}
    (hp : Part.within [.log, .mem, .ques, .ebx, .evt, .mgt, .dram, .out] ps = true) (h : Touches ps s0 s) :
    OTouches ps s0 (execCqHeadWrite r q value s) :=
  State.coreDo_touches (Part.sub rfl hp) (fun _ h => (State.queueWrite_touches (Part.sub rfl hp) (fun _ h =>
    (State.headWrite_touches (Part.sub rfl hp) h)) h)) h

theorem State.takeEntry_touches {ps : List Part} {s0 s : State} {q : Nat}
    (hp : Part.within [.log, .mem, .ques, .ebx, .evt, .mgt, .dram, .out] ps = true) (h : Touches ps s0 s) :
    Touches ps s0 (State.takeEntry s q) := by
  unfold State.takeEntry
  extract_lets _ _ s1 _
  have h1 : Touches ps s0 s1 := State.setQueue_touches (Part.sub rfl hp) h
  clear_value s1
  refine .ite ?_ ?_
  · exact h
  · refine .ite ?_ ?_
    · exact State.setQueue_touches (Part.sub rfl hp) h
    · split
      · refine .ite ?_ ?_
        · exact State.askEntry_touches (Part.sub rfl hp) h
        · exact State.askEntry_touches (Part.sub rfl hp) (State.putCompletion_touches (Part.sub rfl hp) h1)
      · extract_lets _ bbm1s1 bbm1s2 _
        have bbm1h1 : Touches ps s0 bbm1s1 := State.setQueue_touches (Part.sub rfl hp) h
        clear_value bbm1s1
        have bbm1h2 : Touches ps s0 bbm1s2 := State.askEntry_touches (Part.sub rfl hp) bbm1h1
        clear_value bbm1s2
        refine .ite ?_ ?_
        · exact State.deny_touches (Part.sub rfl hp) bbm1h2
        · exact .ite bbm1h2 (State.complete_touches (Part.sub rfl hp) bbm1h2)

theorem execEngineEntryTake_touches {ps : List Part} {s0 : State} {q : Nat} {s : State}
    (hp : Part.within [.log, .mem, .ques, .ebx, .evt, .mgt, .dram, .out] ps = true) (h : Touches ps s0 s) :
    OTouches ps s0 (execEngineEntryTake q s) :=
  State.coreDo_touches (Part.sub rfl hp) (fun _ h => (State.takeEntry_touches (Part.sub rfl hp) h)) h

theorem State.movDone_touches {ps : List Part} {s0 s : State} {r : Req} {status : Nat} {detail : Nat} {j : MovJob}
    (hp : Part.within [.mem, .ques, .ebx, .evt, .dram, .out] ps = true) (h : Touches ps s0 s) :
    Touches ps s0 (State.movDone s r status detail j) := by
  unfold State.movDone
  extract_lets _
  exact State.completeAs_touches (Part.sub rfl hp) h

theorem State.movAssign_touches {ps : List Part} {s0 s : State} (hp : Part.within [.mov] ps = true)
    (h : Touches ps s0 s) :
    Touches ps s0 (State.movAssign s) := by
  unfold State.movAssign
  extract_lets _ v2
  refine .ite ?_ ?_
  · exact h
  · clear_value v2
    split
    · exact .updMov (Part.sub rfl hp) h
    · exact h

theorem State.movStart_touches {ps : List Part} {s0 s : State} {r : Req} {e : Bytes}
    (hp : Part.within [.log, .mem, .ques, .mov, .ebx, .evt, .mgt, .dram, .out] ps = true) (h : Touches ps s0 s) :
    Touches ps s0 (State.movStart s r e) := by
  unfold State.movStart
  refine State.withRight_touches (Part.sub rfl hp) (fun _ hg => ?_) h
  extract_lets _ _
  split
  · extract_lets gm0s1
    have gm0h1 : Touches ps s0 gm0s1 := by
      unfold gm0s1
      exact by split; exact (.ite (State.ownViolation_touches (Part.sub rfl hp) hg) hg); exact hg
    clear_value gm0s1
    exact State.movDone_touches (Part.sub rfl hp) gm0h1
  · exact State.movAssign_touches (Part.sub rfl hp) (.updMov (Part.sub rfl hp) hg)

theorem execCopyMem_touches {ps : List Part} {s0 : State} {r : Req} {e : Bytes} {s : State}
    (hp : Part.within [.log, .mem, .ques, .mov, .ebx, .evt, .mgt, .dram, .out] ps = true) (h : Touches ps s0 s) :
    OTouches ps s0 (execCopyMem r e s) :=
  State.coreDo_touches (Part.sub rfl hp) (fun _ h => (State.movStart_touches (Part.sub rfl hp) h)) h

theorem execFillMem_touches {ps : List Part} {s0 : State} {r : Req} {e : Bytes} {s : State}
    (hp : Part.within [.log, .mem, .ques, .mov, .ebx, .evt, .mgt, .dram, .out] ps = true) (h : Touches ps s0 s) :
    OTouches ps s0 (execFillMem r e s) :=
  State.coreDo_touches (Part.sub rfl hp) (fun _ h => (State.movStart_touches (Part.sub rfl hp) h)) h

theorem execFlashRead_touches {ps : List Part} {s0 : State} {r : Req} {e : Bytes} {s : State}
    (hp : Part.within [.log, .mem, .ques, .mov, .ebx, .evt, .mgt, .dram, .out] ps = true) (h : Touches ps s0 s) :
    OTouches ps s0 (execFlashRead r e s) :=
  State.coreDo_touches (Part.sub rfl hp) (fun _ h => (State.movStart_touches (Part.sub rfl hp) h)) h

theorem State.movGive_touches {ps : List Part} {s0 s : State} {j : MovJob} {addr : Nat} {bs : Bytes}
    (hp : Part.within [.mem, .ebx, .dram, .out] ps = true) (h : Touches ps s0 s) :
    Touches ps s0 (State.movGive s j addr bs) := by
  unfold State.movGive
  split
  · exact (State.giveOn_touches (Part.sub rfl hp) h)
  · exact (State.give_touches (Part.sub rfl hp) h)

theorem State.movSegment_touches {ps : List Part} {s0 s : State} {remote : Option Bytes}
    (hp : Part.within [.mem, .ques, .mov, .ebx, .evt, .dram, .out] ps = true) (h : Touches ps s0 s) :
    Touches ps s0 (State.movSegment s remote) := by
  unfold State.movSegment
  extract_lets _
  split
  · exact h
  · extract_lets _ _ _ _ m1v5 m1s1 _ _
    have m1h1 : Touches ps s0 m1s1 := State.movGive_touches (Part.sub rfl hp) (State.memAsk_touches (Part.sub
        rfl hp) h)
    clear_value m1s1
    clear_value m1v5
    split
    · exact State.movAssign_touches (Part.sub rfl hp) (State.movDone_touches (Part.sub rfl hp) (.updMov
          (Part.sub rfl hp) h))
    · refine .ite ?_ ?_
      · exact State.movAssign_touches (Part.sub rfl hp) (State.movDone_touches (Part.sub rfl hp) (.updMov
            (Part.sub rfl hp) m1h1))
      · refine .ite ?_ ?_
        · exact State.movAssign_touches (Part.sub rfl hp) (State.movDone_touches (Part.sub rfl hp) (.updMov
              (Part.sub rfl hp) m1h1))
        · exact State.movAssign_touches (Part.sub rfl hp) (.updMov (Part.sub rfl hp) m1h1)

theorem execMoverSegmentDone_touches {ps : List Part} {s0 : State} {remote : Option Bytes} {s : State}
    (hp : Part.within [.mem, .ques, .mov, .ebx, .evt, .dram, .out] ps = true) (h : Touches ps s0 s) :
    OTouches ps s0 (execMoverSegmentDone remote s) :=
  State.coreDo_touches (Part.sub rfl hp) (fun _ h => (State.movSegment_touches (Part.sub rfl hp) h)) h

end Sys2Proof.Machine
end

