-- ==== Sys2Proof/Laws/Frames/Regs.lean ====
section
/-!
SUPPORT. Laws/Frames/Regs.lean: what each operation of Machine/Regs.lean changes: one lemma for each, by the rules of
Laws/Touches.
-/
set_option Elab.async false
namespace Sys2Proof.Machine

theorem State.setPb_touches {ps : List Part} {s0 s : State} {p : Path} {blk : Nat} {x : PathBlock}
    (hp : Part.within [.acc] ps = true) (h : Touches ps s0 s) :
    Touches ps s0 (State.setPb s p blk x) :=
  .updAcc (Part.sub rfl hp) h

theorem State.setBase_touches {ps : List Part} {s0 s : State} {q : Nat} {cq : Bool} {v : Nat}
    (hp : Part.within [.ques] ps = true) (h : Touches ps s0 s) :
    Touches ps s0 (State.setBase s q cq v) := by
  unfold State.setBase
  extract_lets _
  exact .ite h (State.setQueue_touches (Part.sub rfl hp) h)

theorem State.clearWrap_touches {ps : List Part} {s0 s : State} {n : Nat} {v : Nat}
    (hp : Part.within [.met] ps = true) (h : Touches ps s0 s) :
    Touches ps s0 (State.clearWrap s n v) :=
  .ite (.updMet (Part.sub rfl hp) h) (.updMet (Part.sub rfl hp) h)

theorem State.setAddrWords_touches {ps : List Part} {s0 s : State} {k : Nat} {n : Nat} {v : Nat}
    (hp : Part.within [.mgt] ps = true) (h : Touches ps s0 s) :
    Touches ps s0 (State.setAddrWords s k n v) :=
  .updMgt (Part.sub rfl hp) h

/-- The state that a command answers differs as its outcome says. -/
theorem nextOr_touches {ps : List Part} {s0 s : State} {o : Host.Outcome State Fault Refusal} (ho : OTouches ps s0 o)
    (h : Touches ps s0 s) : Touches ps s0 (nextOr s o) := by
  cases o with
  | next t => exact ho t rfl
  | fault _ => exact h
  | refused _ => exact h

theorem State.readAdvance_touches {ps : List Part} {s0 s : State} {p : Path} {blk : Nat} {off : Nat}
    (hp : Part.within [.log, .cal, .evt] ps = true) (h : Touches ps s0 s) :
    Touches ps s0 (State.readAdvance s p blk off) :=
  .ite (.ite (.updEvt (Part.sub rfl hp) h) h) (.ite (State.logAdvance_touches (Part.sub rfl hp) h) (.ite
    (nextOr_touches (execCalDisRecAdvance_touches (Part.sub rfl hp) h) h) h))

theorem State.missed_touches {ps : List Part} {s0 s : State} {p : Path} {blk : Nat} {base : Nat} {i : Nat}
    (hp : Part.within [.acc] ps = true) (h : Touches ps s0 s) :
    Touches ps s0 (State.missed s p blk base i) :=
  .ite h (State.setPb_touches (Part.sub rfl hp) h)

theorem State.readWord_touches {ps : List Part} {s0 s : State} {p : Path} {blk : Nat} {off : Nat}
    (hp : Part.within [.fresh, .boot, .log, .cal, .evt, .acc] ps = true) (h : Touches ps s0 s) :
    Touches ps s0 (State.readWord s p blk off).1 := by
  unfold State.readWord
  extract_lets _
  split
  · exact h
  · split
    · exact h
    · split
      · exact h
      · split
        · exact h
        · extract_lets _ _ bbbm1s1 _ _
          have bbbm1h1 : Touches ps s0 bbbm1s1 := .ite (State.nonceLatch_touches (Part.sub rfl hp) h) h
          clear_value bbbm1s1
          split
          · exact h
          · split
            · exact State.setPb_touches (Part.sub rfl hp) bbbm1h1
            · split
              · split
                · split
                  · exact State.readAdvance_touches (Part.sub rfl hp) (State.setPb_touches (Part.sub rfl hp) h)
                  · exact h
                · exact State.missed_touches (Part.sub rfl hp) h
              · exact State.missed_touches (Part.sub rfl hp) h

theorem State.readReg_touches {ps : List Part} {s0 s : State} {p : Path} {prin : Nat} {addr : Nat}
    (hp : Part.within [.fresh, .boot, .log, .cal, .evt, .acc] ps = true) (h : Touches ps s0 s) :
    Touches ps s0 (State.readReg s p prin addr).1 := by
  unfold State.readReg
  extract_lets _ _ _
  split
  · exact State.readWord_touches (Part.sub rfl hp) h
  · exact State.setPb_touches (Part.sub rfl hp) h

theorem State.readOut_touches {ps : List Part} {s0 s : State} {p : Path} {prin : Nat} {addr : Nat}
    (hp : Part.within [.fresh, .boot, .log, .cal, .evt, .acc, .out] ps = true) (h : Touches ps s0 s) :
    Touches ps s0 (State.readOut s p prin addr) := by
  unfold State.readOut
  extract_lets s1
  have h1 : Touches ps s0 s1.1 := State.readReg_touches (Part.sub rfl hp) h
  clear_value s1
  exact State.emit_touches (Part.sub rfl hp) h1

theorem State.selectWrite_touches {ps : List Part} {s0 s : State} {p : Path} {blk : Nat} {v : Nat} {second : Bool}
    (hp : Part.within [.acc] ps = true) (h : Touches ps s0 s) :
    Touches ps s0 (State.selectWrite s p blk v second) := by
  unfold State.selectWrite
  extract_lets _ _ _ _
  refine .ite ?_ ?_
  · exact State.setPb_touches (Part.sub rfl hp) h
  · exact State.setPb_touches (Part.sub rfl hp) h

theorem State.putWord_touches {ps : List Part} {s0 s : State} {r : Req} {blk : Nat} {off : Nat} {v : Nat}
    {d : RegDef} {f : Req → Nat → State → State} (hp : Part.within [.acc] ps = true) (hf : ∀ (z1 : Req) (z2 : Nat)
    (s' : State) (_ : Touches ps s0 s'), Touches ps s0 (f z1 z2 s')) (h : Touches ps s0 s) :
    Touches ps s0 (State.putWord s r blk off v d f) :=
  .ite (hf _ _ _ h) (.ite (State.setPb_touches (Part.sub rfl hp) h) (hf _ _ _ (State.setPb_touches (Part.sub rfl
    hp) h)))

/-- The parts that a register write can change. -/
def Part.regWrite : List Part :=
  [.pwr, .rst, .led, .ob, .pins, .maq, .boot, .debug, .seq, .svy, .rcnt, .log, .snap, .mem, .cap, .rel, .met, .pat, .pnt,
   .haz, .cool, .chi, .ckpt, .cal, .jrn, .gimg, .selfTest, .ques, .mov, .ebx, .evt, .mgt, .pair, .acc, .flash0, .flash1,
   .dram, .out]

/-- A register whose write changes only the listed parts. -/
def RegDef.Tame (ps : List Part) (d : RegDef) : Prop :=
  ∀ f, d.put = some f → ∀ (r : Req) (v : Nat) (s0 s : State), Touches ps s0 s → Touches ps s0 (f r v s)

/-- A table of such registers. -/
def Tame (ps : List Part) (l : List RegDef) : Prop := ∀ d ∈ l, d.Tame ps

theorem tame_nil {ps : List Part} : Tame ps [] := by simp [Tame]

theorem tame_cons {ps : List Part} {d : RegDef} {l : List RegDef} (hd : d.Tame ps) (hl : Tame ps l) : Tame ps (d :: l) := by
  intro x hx
  rcases List.mem_cons.mp hx with rfl | hx
  · exact hd
  · exact hl x hx

theorem tame_append {ps : List Part} {l m : List RegDef} (hl : Tame ps l) (hm : Tame ps m) : Tame ps (l ++ m) := by
  intro x hx
  rcases List.mem_append.mp hx with hx | hx
  · exact hl x hx
  · exact hm x hx

theorem tame_map {α : Type} {ps : List Part} {l : List α} {f : α → RegDef} (hf : ∀ k, (f k).Tame ps) : Tame ps (l.map f) := by
  intro x hx
  obtain ⟨k, -, rfl⟩ := List.mem_map.mp hx
  exact hf k

theorem tame_arr {ps : List Part} {n : Nat} {f : Nat → RegDef} (hf : ∀ k, (f k).Tame ps) : Tame ps (arr n f) := tame_map hf

theorem tame_flatMap {α : Type} {ps : List Part} {l : List α} {f : α → List RegDef} (hf : ∀ k, Tame ps (f k)) :
    Tame ps (l.flatMap f) := by
  intro x hx
  obtain ⟨k, -, hk⟩ := List.mem_flatMap.mp hx
  exact hf k x hk

theorem tame_ite {ps : List Part} {c : Prop} [Decidable c] {l m : List RegDef} (hl : Tame ps l) (hm : Tame ps m) :
    Tame ps (if c then l else m) := by split <;> assumption

theorem RegDef.tame_ro {ps : List Part} {o : Nat} {g : State → Nat} : (ro o g).Tame ps := by intro f hf; cases hf

theorem RegDef.tame_roWide {ps : List Part} {o w : Nat} {g : State → Nat} : (roWide o w g).Tame ps := by intro f hf; cases hf

theorem RegDef.tame_mk {ps : List Part} {o w : Nat} {g : State → Nat} {p : Req → Nat → State → State}
    {r q : Option Right} {a b : Bool} {m : Nat}
    (hp : ∀ r v s0 s, Touches ps s0 s → Touches ps s0 (p r v s)) : (RegDef.mk o w g (some p) r q a b m).Tame ps := by
  intro f hf r v s0 s h
  cases hf
  exact hp r v s0 s h

theorem RegDef.tame_rw {ps : List Part} {o : Nat} {r : Option Right} {g : State → Nat} {p : Nat → State → State}
    (hp : ∀ v s0 s, Touches ps s0 s → Touches ps s0 (p v s)) : (rw o r g p).Tame ps :=
  RegDef.tame_mk fun _ v s0 s h => hp v s0 s h

theorem RegDef.tame_mixed {ps : List Part} {m : Nat} {d : RegDef} (hd : d.Tame ps) : (mixed m d).Tame ps := hd

theorem RegDef.tame_via {ps : List Part} {o : Nat} {r : Option Right} {g : State → Nat}
    {p : Req → Nat → State → Host.Outcome State Fault Refusal}
    (hp : ∀ r v s0 s, Touches ps s0 s → OTouches ps s0 (p r v s)) : (via o r g p).Tame ps :=
  RegDef.tame_mk fun r v s0 s h => nextOr_touches (hp r v s0 s h) h

theorem RegDef.tame_act {ps : List Part} {o : Nat} {r : Option Right} {p : Req → State → Host.Outcome State Fault Refusal}
    (hp : ∀ r s0 s, Touches ps s0 s → OTouches ps s0 (p r s)) : (act o r p).Tame ps :=
  RegDef.tame_via fun r _ s0 s h => .ite (hp r s0 s h) (.next h)

open RegDef in
theorem swResetReg_tame {ps : List Part} (hp : Part.within Part.regWrite ps = true) : swResetReg.Tame ps := by
  refine tame_via fun r v s0 s h => ?_
  dsimp only
  split
  · exact execSwResetModule_touches (Part.sub rfl hp) h
  · exact execSwResetCoreDie_touches (Part.sub rfl hp) h
  · exact execSwResetCaliper_touches (Part.sub rfl hp) h
  · exact execSwResetArmature_touches (Part.sub rfl hp) h
  · exact execSwResetRefused_touches (Part.sub rfl hp) h

open RegDef in
theorem identGlob_tame {ps : List Part} (hp : Part.within Part.regWrite ps = true) : Tame ps identGlob := by
  unfold identGlob
  refine tame_append (tame_append (tame_append ?_ (tame_arr fun _ => tame_ro)) (tame_map fun _ => tame_roWide))
    (tame_map fun _ => tame_roWide)
  refine tame_cons tame_ro (tame_cons tame_roWide (tame_cons tame_ro (tame_cons (tame_rw fun _ _ _ h => ?_)
    (tame_cons (tame_rw fun _ _ _ h => ?_) (tame_cons tame_roWide (tame_cons tame_roWide (tame_cons (swResetReg_tame hp)
    (tame_cons (tame_rw fun _ _ _ h => ?_) (tame_cons tame_ro (tame_cons tame_ro (tame_cons (tame_rw fun _ _ _ h => ?_)
    (tame_cons tame_ro tame_nil))))))))))))
  · exact .updRst (Part.sub rfl hp) h
  · exact .updRst (Part.sub rfl hp) h
  · exact .updRst (Part.sub rfl hp) h
  · exact .updLed (Part.sub rfl hp) h

open RegDef in
theorem queueSet_tame {ps : List Part} {q : Nat} (hp : Part.within Part.regWrite ps = true) : Tame ps (queueSet q) := by
  unfold queueSet
  extract_lets b t
  refine tame_cons (tame_mk fun _ _ _ _ h => ?_) (tame_cons (tame_via fun _ _ _ _ h => ?_) (tame_cons
    (tame_via fun _ _ _ _ h => ?_) (tame_cons tame_ro (tame_cons (tame_mk fun _ _ _ _ h => ?_) (tame_cons
    (tame_via fun _ _ _ _ h => ?_) (tame_cons (tame_via fun _ _ _ _ h => ?_) (tame_cons tame_ro tame_nil)))))))
  · exact State.setBase_touches (Part.sub rfl hp) h
  · exact execQueueSizeWrite_touches (Part.sub rfl hp) h
  · exact execDoorbellSqTail_touches (Part.sub rfl hp) h
  · exact State.setBase_touches (Part.sub rfl hp) h
  · exact execQueueSizeWrite_touches (Part.sub rfl hp) h
  · exact execCqHeadWrite_touches (Part.sub rfl hp) h

open RegDef in
theorem maqGlob_tame {ps : List Part} (hp : Part.within Part.regWrite ps = true) : Tame ps maqGlob := by
  unfold maqGlob
  refine tame_append ?_ (queueSet_tame hp)
  exact tame_cons tame_ro (tame_cons tame_ro (tame_cons tame_ro (tame_cons tame_ro (tame_cons tame_ro (tame_cons tame_ro
    (tame_cons tame_roWide tame_nil))))))

open RegDef in
theorem bootGlob_tame {ps : List Part} (hp : Part.within Part.regWrite ps = true) : Tame ps bootGlob := by
  unfold bootGlob
  refine tame_cons tame_ro (tame_cons tame_ro (tame_cons tame_ro (tame_cons tame_ro (tame_cons (tame_mk fun _ _ _ _ h => ?_)
    (tame_cons (tame_mk fun _ _ _ _ h => ?_) (tame_cons tame_ro (tame_cons tame_ro (tame_cons tame_ro (tame_cons
    (tame_rw fun _ _ _ h => ?_) (tame_cons tame_roWide (tame_cons tame_ro (tame_cons tame_ro (tame_cons
    (tame_rw fun _ _ _ h => ?_) tame_nil)))))))))))))
  · exact .updOb (Part.sub rfl hp) h
  · exact .updOb (Part.sub rfl hp) h
  · exact .updBoot (Part.sub rfl hp) h
  · exact .updBoot (Part.sub rfl hp) h

open RegDef in
theorem seqInst_tame {ps : List Part} {g : Nat} (hp : Part.within Part.regWrite ps = true) : Tame ps (seqInst g) :=
  tame_append (tame_cons tame_ro (tame_cons tame_ro (tame_cons
    (tame_via fun _ _ _ _ h => execRailCntClr_touches (Part.sub rfl hp) h) tame_nil))) (tame_arr fun _ => tame_ro)

open RegDef in
theorem siteCmdReg_tame {ps : List Part} (hp : Part.within Part.regWrite ps = true) : siteCmdReg.Tame ps := by
  refine tame_via fun r v s0 s h => ?_
  dsimp only
  split
  · exact execSiteUp_touches (Part.sub rfl hp) h
  · exact execSiteDown_touches (Part.sub rfl hp) h
  · exact execSiteClear_touches (Part.sub rfl hp) h
  · exact execSiteAdopt_touches (Part.sub rfl hp) h
  · exact execSiteIdentify_touches (Part.sub rfl hp) h
  · exact execSiteCmdInvalid_touches (Part.sub rfl hp) h

open RegDef in
theorem seqGlob_tame {ps : List Part} (hp : Part.within Part.regWrite ps = true) : Tame ps seqGlob :=
  tame_append (tame_append (tame_cons (siteCmdReg_tame hp) (tame_cons tame_ro (tame_cons
    (tame_rw fun _ _ _ h => .updSeq (Part.sub rfl hp) h) tame_nil))) (tame_arr fun _ => tame_ro)) (tame_arr fun _ => tame_ro)

open RegDef in
theorem surveyInst_tame {ps : List Part} {c : Nat} (hp : Part.within Part.regWrite ps = true) : Tame ps (surveyInst c) :=
  tame_cons tame_ro (tame_cons tame_ro (tame_cons
    (tame_mixed <| tame_rw fun _ _ _ h => .ite (State.setChan_touches (Part.sub rfl hp) h) h)
    (tame_cons tame_ro (tame_cons tame_ro tame_nil))))

open RegDef in
theorem peakRegs_tame {ps : List Part} {n : Nat} (hp : Part.within Part.regWrite ps = true) : Tame ps (peakRegs n) :=
  tame_cons tame_ro (tame_cons tame_roWide (tame_cons tame_ro (tame_cons tame_roWide (tame_cons tame_ro (tame_cons tame_roWide
    (tame_cons tame_ro (tame_cons tame_roWide (tame_cons
    (tame_act fun _ _ _ h => execPeakClr_touches (Part.sub rfl hp) h) (tame_cons
    (tame_rw fun _ _ _ h => State.clearWrap_touches (Part.sub rfl hp) h) tame_nil)))))))))

open RegDef in
theorem capInst_tame {ps : List Part} {n : Nat} (hp : Part.within Part.regWrite ps = true) : Tame ps (capInst n) := by
  unfold capInst
  refine tame_ite (peakRegs_tame hp) (tame_append (tame_append (tame_append (peakRegs_tame hp) ?_)
    (tame_arr fun _ => tame_ro)) (tame_arr fun _ => tame_ro))
  refine tame_cons tame_ro (tame_cons tame_ro (tame_cons tame_ro (tame_cons (tame_via fun _ _ _ _ h => ?_) (tame_cons
    (tame_via fun _ _ _ _ h => ?_) (tame_cons (tame_via fun _ _ _ _ h => ?_) (tame_cons tame_ro (tame_cons tame_ro (tame_cons
    (tame_via fun _ _ _ _ h => ?_) (tame_cons (tame_via fun _ _ _ _ h => ?_) (tame_cons tame_ro (tame_cons tame_ro (tame_cons
    tame_roWide (tame_cons tame_roWide (tame_cons tame_roWide tame_nil))))))))))))))
  · exact execCapSwBoundWrite_touches (Part.sub rfl hp) h
  · exact execCapSwBoundWrite_touches (Part.sub rfl hp) h
  · exact execCapSwBoundWrite_touches (Part.sub rfl hp) h
  · exact execSiteThrottleForceWrite_touches (Part.sub rfl hp) h
  · exact execSiteVout_touches (Part.sub rfl hp) h

open RegDef in
theorem capGlob_tame {ps : List Part} (hp : Part.within Part.regWrite ps = true) : Tame ps capGlob :=
  tame_cons (tame_via fun _ _ _ _ h => execTrayBudgetWrite_touches (Part.sub rfl hp) h) (tame_cons tame_ro (tame_cons
    (tame_rw fun _ _ _ h => .updCap (Part.sub rfl hp) h) (tame_cons tame_ro (tame_cons tame_ro (tame_cons tame_ro (tame_cons
    tame_ro (tame_cons tame_ro (tame_cons tame_ro (tame_cons tame_ro (tame_cons tame_roWide tame_nil))))))))))

open RegDef in
theorem jobRegs_tame {ps : List Part} {j : Nat} (hp : Part.within Part.regWrite ps = true) : Tame ps (jobRegs j) :=
  tame_append (tame_cons tame_roWide (tame_cons tame_ro (tame_cons
    (tame_act fun _ _ _ h => execJobRelease_touches (Part.sub rfl hp) h) tame_nil))) (tame_arr fun _ => tame_roWide)

open RegDef in
theorem chiselInst_tame {ps : List Part} {n : Nat} (hp : Part.within Part.regWrite ps = true) : Tame ps (chiselInst n) := by
  unfold chiselInst
  refine tame_append (tame_append (tame_append (tame_append (tame_append (tame_append (tame_append (tame_append
    (tame_cons tame_ro (tame_cons tame_ro (tame_cons tame_ro tame_nil))) ?_) ?_) ?_) ?_) ?_) ?_) ?_) ?_ <;> refine tame_arr fun _ => ?_
  · exact tame_ro
  · exact tame_ro
  · exact tame_ro
  · exact tame_ro
  · exact tame_via fun _ _ _ _ h => execChiselSwBoundWrite_touches (Part.sub rfl hp) h
  · exact tame_via fun _ _ _ _ h => execChiselSwBoundWrite_touches (Part.sub rfl hp) h
  · exact tame_ro
  · exact tame_ro

open RegDef in
theorem coolInst_tame {ps : List Part} {i : Nat} (hp : Part.within Part.regWrite ps = true) : Tame ps (coolInst i) := by
  unfold coolInst
  refine tame_ite ?_ (tame_ite ?_ (tame_ite (tame_cons tame_ro tame_nil) (tame_ite (tame_cons tame_ro (tame_cons tame_ro
    tame_nil)) ?_)))
  · refine tame_append (tame_cons (tame_via fun _ _ _ _ h => execFanTargetWrite_touches (Part.sub rfl hp) h) (tame_cons tame_ro
      (tame_cons tame_ro (tame_cons tame_ro (tame_cons tame_ro (tame_cons tame_ro (tame_cons
      (tame_act fun _ _ _ h => execFanClear_touches (Part.sub rfl hp) h) (tame_cons tame_ro tame_nil))))))))
      (tame_arr fun _ => tame_ro)
  · exact tame_cons (tame_via fun _ _ _ _ h => execValveCmdWrite_touches (Part.sub rfl hp) h) (tame_cons tame_ro tame_nil)
  · exact tame_cons tame_ro (tame_cons tame_ro (tame_cons
      (tame_mixed <| tame_rw fun _ _ _ h => State.setCzone_touches (Part.sub rfl hp) h) (tame_cons tame_ro (tame_cons tame_ro (tame_cons
      (tame_act fun _ _ _ h => execZoneClear_touches (Part.sub rfl hp) h) tame_nil)))))

open RegDef in
theorem coolGlob_tame {ps : List Part} (hp : Part.within Part.regWrite ps = true) : Tame ps coolGlob :=
  tame_cons (tame_via fun _ _ _ _ h => execCoolWdtRefresh_touches (Part.sub rfl hp) h) (tame_cons
    (tame_mixed <| tame_rw fun _ _ _ h => .updCool (Part.sub rfl hp) h) tame_nil)

open RegDef in
theorem hazInst_tame {ps : List Part} {i : Nat} (hp : Part.within Part.regWrite ps = true) : Tame ps (hazInst i) := by
  unfold hazInst
  refine tame_ite (tame_append (tame_cons tame_ro (tame_cons tame_ro (tame_cons tame_ro (tame_cons tame_ro tame_nil))))
    (tame_ite (tame_cons tame_ro (tame_cons tame_ro tame_nil)) tame_nil)) ?_
  exact tame_cons tame_ro (tame_cons (tame_act fun _ _ _ h => execLeakClear_touches (Part.sub rfl hp) h) tame_nil)

open RegDef in
theorem hazGlob_tame {ps : List Part} (hp : Part.within Part.regWrite ps = true) : Tame ps hazGlob :=
  tame_cons tame_ro (tame_cons tame_ro (tame_cons (tame_act fun _ _ _ h => execShakePeakClr_touches (Part.sub rfl hp) h)
    (tame_cons tame_ro (tame_cons (tame_act fun _ _ _ h => execBraceRequest_touches (Part.sub rfl hp) h) (tame_cons tame_ro
    (tame_cons tame_ro (tame_cons tame_ro (tame_cons tame_ro (tame_cons tame_ro (tame_cons tame_ro tame_nil))))))))))

open RegDef in
theorem calInst_tame {ps : List Part} {p : Path} {n : Nat} (hp : Part.within Part.regWrite ps = true) : Tame ps (calInst p n) := by
  refine tame_append ?_ (tame_arr fun _ => tame_ro)
  refine tame_cons (tame_via fun _ _ _ _ h => ?_) (tame_cons (tame_rw fun _ _ _ h => ?_) (tame_cons (tame_rw fun _ _ _ h => ?_)
    (tame_cons tame_roWide (tame_cons tame_roWide (tame_cons tame_ro (tame_cons (tame_act fun _ _ _ h => ?_) (tame_cons tame_ro
    (tame_cons (tame_rw fun _ _ _ h => ?_) tame_nil))))))))
  · exact execCalAuditRateWrite_touches (Part.sub rfl hp) h
  · exact State.setCalSite_touches (Part.sub rfl hp) h
  · exact .updCal (Part.sub rfl hp) h
  · exact execCalCovClr_touches (Part.sub rfl hp) h
  · exact .ite (State.setCalSite_touches (Part.sub rfl hp) h) h

open RegDef in
theorem calGlob_tame {ps : List Part} {p : Path} (hp : Part.within Part.regWrite ps = true) : Tame ps (calGlob p) := by
  unfold calGlob
  refine tame_append (tame_append (tame_append (tame_append (tame_append ?_ (tame_flatMap fun _ => tame_arr fun _ => tame_ro))
    (tame_arr fun _ => tame_ro)) (tame_arr fun _ => tame_ro)) (queueSet_tame hp)) (queueSet_tame hp)
  refine tame_cons tame_ro (tame_cons tame_ro (tame_cons tame_ro (tame_cons tame_roWide (tame_cons (tame_mk fun _ _ _ _ h => ?_)
    (tame_cons (tame_rw fun _ _ _ h => ?_) (tame_cons (tame_via fun _ _ _ _ h => ?_) (tame_cons tame_roWide tame_nil)))))))
  · exact nextOr_touches (execCalAuditKeyWrite_touches (Part.sub rfl hp) h) h
  · exact .updCal (Part.sub rfl hp) h
  · exact execCalDisFromWrite_touches (Part.sub rfl hp) (State.setPb_touches (Part.sub rfl hp) h)

open RegDef in
theorem jrnInst_tame {ps : List Part} {n : Nat} (hp : Part.within Part.regWrite ps = true) : Tame ps (jrnInst n) :=
  tame_cons (tame_rw fun _ _ _ h => .updJrn (Part.sub rfl hp) h) (tame_cons tame_ro tame_nil)

open RegDef in
theorem jrnGlob_tame {ps : List Part} (hp : Part.within Part.regWrite ps = true) : Tame ps jrnGlob := by
  unfold jrnGlob
  refine tame_append (tame_append (tame_append ?_ (tame_arr fun _ => tame_ro)) (queueSet_tame hp)) (queueSet_tame hp)
  refine tame_cons (tame_mixed <| tame_rw fun _ _ _ h => ?_) (tame_cons tame_ro (tame_cons (tame_rw fun _ _ _ h => ?_) (tame_cons
    (tame_rw fun _ _ _ h => ?_) (tame_cons (tame_rw fun _ _ _ h => ?_) (tame_cons (tame_rw fun _ _ _ h => ?_) (tame_cons
    (tame_rw fun _ _ _ h => ?_) (tame_cons tame_ro tame_nil)))))))
  · exact .updJrn (Part.sub rfl hp) h
  · exact .updJrn (Part.sub rfl hp) h
  · exact .updJrn (Part.sub rfl hp) h
  · exact .updJrn (Part.sub rfl hp) h
  · exact .updJrn (Part.sub rfl hp) h
  · exact .updJrn (Part.sub rfl hp) h

open RegDef in
theorem memCmdReg_tame {ps : List Part} {n : Nat} (hp : Part.within Part.regWrite ps = true) : (memCmdReg n).Tame ps := by
  refine tame_via fun r v s0 s h => ?_
  split
  · exact execMemRemove_touches (Part.sub rfl hp) h
  · exact execMemReturn_touches (Part.sub rfl hp) h
  · exact .next h

open RegDef in
theorem memInst_tame {ps : List Part} {n : Nat} (hp : Part.within Part.regWrite ps = true) : Tame ps (memInst n) :=
  tame_cons tame_ro (tame_cons tame_ro (tame_cons (memCmdReg_tame hp) (tame_cons tame_ro (tame_cons tame_ro (tame_cons tame_ro
    (tame_cons tame_ro (tame_cons tame_roWide (tame_cons tame_roWide (tame_cons tame_ro (tame_cons tame_ro (tame_cons
    (tame_rw fun _ _ _ h => State.setCh_touches (Part.sub rfl hp) h) tame_nil)))))))))))

open RegDef in
theorem memGlob_tame {ps : List Part} (hp : Part.within Part.regWrite ps = true) : Tame ps memGlob :=
  tame_cons (tame_rw fun _ _ _ h => .updMem (Part.sub rfl hp) h) (tame_cons
    (tame_rw fun _ _ _ h => .updMem (Part.sub rfl hp) h) (tame_cons tame_roWide (tame_cons tame_ro (tame_cons tame_ro (tame_cons
    tame_ro (tame_cons tame_ro tame_nil))))))

open RegDef in
theorem queueInst_tame {ps : List Part} {q : Nat} (hp : Part.within Part.regWrite ps = true) : Tame ps (queueInst q) := by
  refine tame_cons (tame_via fun _ _ _ _ h => ?_) (tame_cons (tame_via fun _ _ _ _ h => ?_) (tame_cons tame_ro (tame_cons
    (tame_mk fun _ _ _ _ h => ?_) (tame_cons (tame_rw fun _ _ _ h => ?_) tame_nil))))
  · exact execDoorbellSqTail_touches (Part.sub rfl hp) h
  · exact execCqHeadWrite_touches (Part.sub rfl hp) h
  · exact State.setQueue_touches (Part.sub rfl hp) h
  · exact State.setQueue_touches (Part.sub rfl hp) h

open RegDef in
theorem queueGlob_tame {ps : List Part} (hp : Part.within Part.regWrite ps = true) : Tame ps queueGlob := by
  unfold queueGlob
  refine tame_append (tame_append (tame_append (tame_append (tame_append (tame_append (tame_append (queueSet_tame hp)
    (queueSet_tame hp)) (queueSet_tame hp)) ?_) (tame_arr fun _ => tame_ro)) (tame_arr fun _ => tame_ro))
    (tame_arr fun _ => tame_ro)) (tame_arr fun _ => tame_ro)
  exact tame_cons tame_ro (tame_cons tame_roWide tame_nil)

open RegDef in
theorem mgmtInst_tame {ps : List Part} {i : Nat} (hp : Part.within Part.regWrite ps = true) : Tame ps (mgmtInst i) := by
  have ht : ∀ {i off w : Nat} {g : Stream → Nat} {p : Stream → Nat → Stream}, (teleReg i off w g p).Tame ps :=
    tame_mk fun _ _ _ _ h => .updMgt (Part.sub rfl hp) h
  exact tame_append (tame_cons ht (tame_cons ht (tame_cons ht (tame_cons tame_ro tame_nil)))) (tame_arr fun _ => ht)

open RegDef in
theorem addrRegs_tame {ps : List Part} {o k : Nat} (hp : Part.within Part.regWrite ps = true) : Tame ps (addrRegs o k) :=
  tame_map fun _ => tame_mk fun _ _ _ _ h => State.setAddrWords_touches (Part.sub rfl hp) h

open RegDef in
theorem mgmtGlob_tame {ps : List Part} (hp : Part.within Part.regWrite ps = true) : Tame ps mgmtGlob := by
  unfold mgmtGlob
  refine tame_append (tame_append (tame_append ?_ (addrRegs_tame hp)) (addrRegs_tame hp)) (addrRegs_tame hp)
  refine tame_cons tame_ro (tame_cons (tame_mixed <| tame_rw fun _ _ _ h => ?_) (tame_cons (tame_rw fun _ _ _ h => ?_) (tame_cons tame_ro
    (tame_cons (tame_rw fun _ _ _ h => ?_) (tame_cons (tame_rw fun _ _ _ h => ?_) (tame_cons tame_roWide (tame_cons tame_ro
    (tame_cons tame_ro (tame_cons tame_ro (tame_cons tame_ro tame_nil))))))))))
  · exact .updPair (Part.sub rfl hp) h
  · exact .updPair (Part.sub rfl hp) h
  · exact .updMgt (Part.sub rfl hp) h
  · exact .updMgt (Part.sub rfl hp) h

open RegDef in
theorem evtGlob_tame {ps : List Part} {p : Path} (hp : Part.within Part.regWrite ps = true) : Tame ps (evtGlob p) := by
  unfold evtGlob
  refine tame_cons tame_ro (tame_cons tame_ro (tame_cons tame_roWide (tame_cons (tame_mixed <| tame_rw fun _ _ _ h => ?_) (tame_cons tame_ro
    (tame_cons tame_ro (tame_cons tame_ro (tame_cons (tame_mk fun _ _ _ _ h => ?_) (tame_cons tame_roWide (tame_cons tame_ro
    (tame_cons tame_ro (tame_cons tame_ro (tame_cons tame_ro tame_nil))))))))))))
  · exact .updLog (Part.sub rfl hp) h
  · exact nextOr_touches (execLogReadFromWrite_touches (Part.sub rfl hp) h) h

open RegDef in
theorem instRegs_tame {ps : List Part} {p : Path} {blk i : Nat} (hp : Part.within Part.regWrite ps = true) :
    Tame ps (instRegs p blk i) := by
  unfold instRegs
  split
  · exact tame_cons tame_roWide (tame_cons tame_ro (tame_cons tame_ro (tame_cons tame_ro (tame_cons tame_ro (tame_cons tame_roWide
      tame_nil)))))
  · exact tame_cons tame_ro (tame_cons tame_ro (tame_cons tame_roWide tame_nil))
  · exact tame_cons tame_ro (tame_cons tame_ro (tame_cons tame_ro (tame_cons tame_ro (tame_cons tame_roWide tame_nil))))
  · exact seqInst_tame hp
  · exact surveyInst_tame hp
  · exact capInst_tame hp
  · exact chiselInst_tame hp
  · exact coolInst_tame hp
  · exact hazInst_tame hp
  · exact tame_cons tame_ro (tame_cons tame_ro (tame_cons tame_ro (tame_cons tame_ro tame_nil)))
  · exact calInst_tame hp
  · exact jrnInst_tame hp
  · exact memInst_tame hp
  · exact queueInst_tame hp
  · exact mgmtInst_tame hp
  · exact tame_cons tame_ro tame_nil

open RegDef in
theorem secondRegs_tame {ps : List Part} {blk i : Nat} (hp : Part.within Part.regWrite ps = true) :
    Tame ps (secondRegs blk i) := by
  unfold secondRegs
  split
  · exact jobRegs_tame hp
  · exact tame_cons tame_ro (tame_cons tame_roWide tame_nil)
  · exact tame_nil

open RegDef in
theorem globRegs_tame {ps : List Part} {p : Path} {blk : Nat} (hp : Part.within Part.regWrite ps = true) :
    Tame ps (globRegs p blk) := by
  unfold globRegs
  split
  · exact identGlob_tame hp
  · exact maqGlob_tame hp
  · exact bootGlob_tame hp
  · exact seqGlob_tame hp
  · exact tame_cons tame_ro (tame_arr fun _ => tame_ro)
  · exact capGlob_tame hp
  · exact tame_nil
  · exact coolGlob_tame hp
  · exact hazGlob_tame hp
  · exact tame_append (tame_cons tame_roWide (tame_cons tame_ro (tame_cons tame_ro (tame_cons tame_ro (tame_cons tame_ro (tame_cons
      tame_ro tame_nil)))))) (tame_arr fun _ => tame_roWide)
  · exact calGlob_tame hp
  · exact jrnGlob_tame hp
  · exact memGlob_tame hp
  · exact queueGlob_tame hp
  · exact mgmtGlob_tame hp
  · exact evtGlob_tame hp

open RegDef in
theorem headRegs_tame {ps : List Part} {blk : Nat} : Tame ps (headRegs blk) := by
  unfold headRegs
  refine tame_append (tame_cons tame_ro (tame_cons tame_ro tame_nil)) ?_
  split
  · exact tame_cons tame_ro tame_nil
  · exact tame_nil

/-- Whatever register an offset holds, its write changes only these parts. -/
theorem State.regAt_tame {ps : List Part} {s : State} {p : Path} {blk off : Nat} {d : RegDef}
    (hp : Part.within Part.regWrite ps = true) (hd : s.regAt p blk off = some d) : d.Tame ps := by
  refine (?_ : Tame ps _) d (List.mem_of_find?_eq_some hd)
  unfold State.regs
  exact tame_append headRegs_tame (tame_append (tame_append (tame_ite (instRegs_tame hp) tame_nil)
    (tame_ite (secondRegs_tame hp) tame_nil)) (globRegs_tame hp))

theorem State.writeReg_touches {ps : List Part} {s0 s : State} {r : Req} {addr : Nat} {value : Nat}
    (hp : Part.within Part.regWrite ps = true) (h : Touches ps s0 s) : Touches ps s0 (State.writeReg s r addr value) := by
  unfold State.writeReg
  extract_lets blk off v guard
  have hg : ∀ f : State → State, (∀ t, Touches ps s0 t → Touches ps s0 (f t)) → Touches ps s0 (guard f) := fun f hf =>
    .ite (hf s h) (State.refuseWrite_touches (Part.sub rfl hp) h)
  clear_value guard
  refine .ite (hg _ fun t ht => State.selectWrite_touches (Part.sub rfl hp) ht) (.ite
    (hg _ fun t ht => State.setPb_touches (Part.sub rfl hp) ht) (.ite
    (hg _ fun t ht => State.selectWrite_touches (Part.sub rfl hp) ht) ?_))
  split
  · exact h
  · next d hd =>
    split
    · exact State.violation_touches (Part.sub rfl hp) h
    · next f hf =>
      have hw : ∀ t, Touches ps s0 t → Touches ps s0 (t.putWord r blk off v d f) := fun t ht =>
        State.putWord_touches (Part.sub rfl hp) (fun r v t ht => State.regAt_tame hp hd f hf r v s0 t ht) ht
      exact .ite (.ite (State.violation_touches (Part.sub rfl hp) h) (hw s h)) (.ite
        (State.refuseWrite_touches (Part.sub rfl hp) h) (hw _ (.ite h (State.violation_touches (Part.sub rfl hp) h))))

theorem execSelectWrite_touches {ps : List Part} {s0 : State} {r : Req} {addr : Nat} {value : Nat} {s : State}
    (hp : Part.within [.pwr, .rst, .led, .ob, .pins, .maq, .boot, .debug, .seq, .svy, .rcnt, .log, .snap, .mem, .cap, .rel, .met, .pat, .pnt, .haz, .cool, .chi, .ckpt, .cal, .jrn, .gimg, .selfTest, .ques, .mov, .ebx, .evt, .mgt, .pair, .acc, .flash0, .flash1, .dram, .out] ps = true)
    (h : Touches ps s0 s) :
    OTouches ps s0 (execSelectWrite r addr value s) :=
  State.coreDo_touches (Part.sub rfl hp) (fun _ h => (State.writeReg_touches (Part.sub rfl hp) h)) h

theorem execSnapshotLatchRead_touches {ps : List Part} {s0 : State} {p : Path} {prin : Nat} {addr : Nat} {s : State}
    (hp : Part.within [.fresh, .boot, .log, .cal, .evt, .acc, .out] ps = true) (h : Touches ps s0 s) :
    OTouches ps s0 (execSnapshotLatchRead p prin addr s) :=
  State.coreDo_touches (Part.sub rfl hp) (fun _ h => (State.readOut_touches (Part.sub rfl hp) h)) h

theorem execMultiwordLowerWrite_touches {ps : List Part} {s0 : State} {r : Req} {addr : Nat} {value : Nat}
    {s : State}
    (hp : Part.within [.pwr, .rst, .led, .ob, .pins, .maq, .boot, .debug, .seq, .svy, .rcnt, .log, .snap, .mem, .cap, .rel, .met, .pat, .pnt, .haz, .cool, .chi, .ckpt, .cal, .jrn, .gimg, .selfTest, .ques, .mov, .ebx, .evt, .mgt, .pair, .acc, .flash0, .flash1, .dram, .out] ps = true)
    (h : Touches ps s0 s) :
    OTouches ps s0 (execMultiwordLowerWrite r addr value s) :=
  State.coreDo_touches (Part.sub rfl hp) (fun _ h => (State.writeReg_touches (Part.sub rfl hp) h)) h

theorem execMultiwordCommitWrite_touches {ps : List Part} {s0 : State} {r : Req} {addr : Nat} {value : Nat}
    {s : State}
    (hp : Part.within [.pwr, .rst, .led, .ob, .pins, .maq, .boot, .debug, .seq, .svy, .rcnt, .log, .snap, .mem, .cap, .rel, .met, .pat, .pnt, .haz, .cool, .chi, .ckpt, .cal, .jrn, .gimg, .selfTest, .ques, .mov, .ebx, .evt, .mgt, .pair, .acc, .flash0, .flash1, .dram, .out] ps = true)
    (h : Touches ps s0 s) :
    OTouches ps s0 (execMultiwordCommitWrite r addr value s) :=
  State.coreDo_touches (Part.sub rfl hp) (fun _ h => (State.writeReg_touches (Part.sub rfl hp) h)) h

theorem execRegisterReadRefused_touches {ps : List Part} {s0 : State} {p : Path} {prin : Nat} {addr : Nat}
    {s : State} (hp : Part.within [.fresh, .boot, .log, .cal, .evt, .acc, .out] ps = true) (h : Touches ps s0 s) :
    OTouches ps s0 (execRegisterReadRefused p prin addr s) :=
  State.coreDo_touches (Part.sub rfl hp) (fun _ h => (State.readOut_touches (Part.sub rfl hp) h)) h

theorem execRegisterWrite_touches {ps : List Part} {s0 : State} {r : Req} {addr : Nat} {value : Nat} {s : State}
    (hp : Part.within [.pwr, .rst, .led, .ob, .pins, .maq, .boot, .debug, .seq, .svy, .rcnt, .log, .snap, .mem, .cap, .rel, .met, .pat, .pnt, .haz, .cool, .chi, .ckpt, .cal, .jrn, .gimg, .selfTest, .ques, .mov, .ebx, .evt, .mgt, .pair, .acc, .flash0, .flash1, .dram, .out] ps = true)
    (h : Touches ps s0 s) :
    OTouches ps s0 (execRegisterWrite r addr value s) :=
  State.coreDo_touches (Part.sub rfl hp) (fun _ h => (State.writeReg_touches (Part.sub rfl hp) h)) h

theorem execEvtReadAdvance_touches {ps : List Part} {s0 : State} {p : Path} {s : State}
    (hp : Part.within [.log, .cal, .evt] ps = true) (h : Touches ps s0 s) :
    OTouches ps s0 (execEvtReadAdvance p s) :=
  State.coreDo_touches (Part.sub rfl hp) (fun _ h => (State.readAdvance_touches (Part.sub rfl hp) h)) h

end Sys2Proof.Machine
end

