-- ==== Sys2Proof/Laws/Frames/Ebbex.lean ====
section
/-!
SUPPORT. Laws/Frames/Ebbex.lean: what each operation of Machine/Ebbex.lean changes: one lemma for each, by the rules of
Laws/Touches.
-/
set_option Elab.async false
namespace Sys2Proof.Machine

theorem State.portDo_touches {ps : List Part} {s0 s : State} {port : Nat} {f : State → State}
    (hp : Part.within [] ps = true) (hf : ∀ (s' : State) (_ : Touches ps s0 s'), Touches ps s0 (f s'))
    (h : Touches ps s0 s) :
    OTouches ps s0 (State.portDo s port f) :=
  State.coreDo_touches (Part.sub rfl hp) (fun _ h => (.ite (hf _ h) h)) h

theorem State.respond_touches {ps : List Part} {s0 s : State} {port : Nat} {p : Packet} {cls : Nat} {status : Nat}
    {payload : Bytes} (hp : Part.within [.out] ps = true) (h : Touches ps s0 s) :
    Touches ps s0 (State.respond s port p cls status payload) :=
  State.emit_touches (Part.sub rfl hp) h

theorem State.ebxCount_touches {ps : List Part} {s0 s : State} {k : Nat} {n : Nat}
    (hp : Part.within [.ebx, .evt] ps = true) (h : Touches ps s0 s) :
    Touches ps s0 (State.ebxCount s k n) := by
  unfold State.ebxCount
  extract_lets _ _ s1
  have h1 : Touches ps s0 s1 := .updEbx (Part.sub rfl hp) h
  clear_value s1
  exact .ite (State.event_touches (Part.sub rfl hp) h1) h1

theorem State.serveRead_touches {ps : List Part} {s0 s : State} {prin : Nat} {addr : Nat} {n : Nat}
    (hp : Part.within [.fresh, .boot, .log, .mem, .cal, .evt, .acc] ps = true) (h : Touches ps s0 s) :
    Touches ps s0 (State.serveRead s prin addr n).1 := by
  unfold State.serveRead
  split
  · extract_lets m0s1
    have m0h1 : Touches ps s0 m0s1.1 := State.readReg_touches (Part.sub rfl hp) h
    clear_value m0s1
    split
    · exact h
    · exact m0h1
  · split
    · exact h
    · split
      · exact h
      · exact h
  · split
    · exact h
    · split
      · exact h
      · split
        · exact h
        · split
          · exact State.memAsk_touches (Part.sub rfl hp) h
          · exact State.memAsk_touches (Part.sub rfl hp) h
  · exact h
  · exact h

theorem execReadReq_touches {ps : List Part} {s0 : State} {port : Nat} {p : Packet} {s : State}
    (hp : Part.within [.fresh, .boot, .log, .mem, .cal, .ebx, .evt, .acc, .out] ps = true) (h : Touches ps s0 s) :
    OTouches ps s0 (execReadReq port p s) := by
  unfold execReadReq
  refine State.portDo_touches (Part.sub rfl hp) (fun _ hg => ?_) h
  extract_lets gs1 gs2
  have gh1 : Touches ps s0 gs1 := State.credit_touches (Part.sub rfl hp) hg
  clear_value gs1
  have gh2 : Touches ps s0 gs2.1 := State.serveRead_touches (Part.sub rfl hp) gh1
  clear_value gs2
  refine .ite ?_ ?_
  · exact State.ebxCount_touches (Part.sub rfl hp) hg
  · split
    · exact State.respond_touches (Part.sub rfl hp) gh2
    · exact State.respond_touches (Part.sub rfl hp) gh2

theorem State.serveDram_touches {ps : List Part} {s0 s : State} {prin : Nat} {addr : Nat} {off : Nat} {b : Bytes}
    (hp : Part.within [.mem, .evt, .dram] ps = true) (h : Touches ps s0 s) :
    Touches ps s0 (State.serveDram s prin addr off b).1 := by
  unfold State.serveDram
  split
  · exact h
  · split
    · exact h
    · split
      · exact h
      · split
        · exact State.violation_touches (Part.sub rfl hp) h
        · split
          · exact h
          · exact State.dwrite_touches (Part.sub rfl hp) h

theorem State.serveWrite_touches {ps : List Part} {s0 s : State} {prin : Nat} {tag : Nat} {addr : Nat} {b : Bytes}
    (hp : Part.within [.pwr, .rst, .led, .ob, .pins, .maq, .boot, .debug, .seq, .svy, .rcnt, .log, .snap, .mem, .cap, .rel, .met, .pat, .pnt, .haz, .cool, .chi, .ckpt, .cal, .jrn, .gimg, .selfTest, .ques, .mov, .ebx, .evt, .mgt, .pair, .acc, .flash0, .flash1, .dram, .out] ps = true)
    (h : Touches ps s0 s) :
    Touches ps s0 (State.serveWrite s prin tag addr b).1 := by
  unfold State.serveWrite
  split
  · split
    · exact h
    · exact State.writeReg_touches (Part.sub rfl hp) h
  · exact h
  · exact State.serveDram_touches (Part.sub rfl hp) h
  · exact h
  · exact h

theorem execWriteReq_touches {ps : List Part} {s0 : State} {port : Nat} {p : Packet} {s : State}
    (hp : Part.within [.pwr, .rst, .led, .ob, .pins, .maq, .boot, .debug, .seq, .svy, .rcnt, .log, .snap, .mem, .cap, .rel, .met, .pat, .pnt, .haz, .cool, .chi, .ckpt, .cal, .jrn, .gimg, .selfTest, .ques, .mov, .ebx, .evt, .mgt, .pair, .acc, .flash0, .flash1, .dram, .out] ps = true)
    (h : Touches ps s0 s) :
    OTouches ps s0 (execWriteReq port p s) :=
  State.portDo_touches (Part.sub rfl hp) (fun _ h => (.ite (State.ebxCount_touches (Part.sub rfl hp) h)
    (State.respond_touches (Part.sub rfl hp) (State.serveWrite_touches (Part.sub rfl hp) (State.credit_touches
    (Part.sub rfl hp) h))))) h

theorem execPostedWrite_touches {ps : List Part} {s0 : State} {port : Nat} {p : Packet} {s : State}
    (hp : Part.within [.mem, .ebx, .evt, .dram] ps = true) (h : Touches ps s0 s) :
    OTouches ps s0 (execPostedWrite port p s) := by
  unfold execPostedWrite
  refine State.portDo_touches (Part.sub rfl hp) (fun _ hg => ?_) h
  extract_lets gs1
  have gh1 : Touches ps s0 gs1 := State.credit_touches (Part.sub rfl hp) hg
  clear_value gs1
  refine .ite ?_ ?_
  · exact State.ebxCount_touches (Part.sub rfl hp) hg
  · split
    · exact State.serveDram_touches (Part.sub rfl hp) gh1
    · exact gh1

theorem State.dropReq_touches {ps : List Part} {s0 s : State} {e : EbxReq} (hp : Part.within [.ebx] ps = true)
    (h : Touches ps s0 s) :
    Touches ps s0 (State.dropReq s e) :=
  .updEbx (Part.sub rfl hp) h

theorem State.movRemote_touches {ps : List Part} {s0 s : State} {hit : MovJob → Bool}
    (hp : Part.within [.mem, .ques, .mov, .ebx, .evt, .dram, .out] ps = true) (h : Touches ps s0 s) :
    Touches ps s0 (State.movRemote s hit) := by
  unfold State.movRemote
  extract_lets _ _ s1
  have h1 : Touches ps s0 s1 := .updMov (Part.sub rfl hp) h
  clear_value s1
  exact State.movAssign_touches (Part.sub rfl hp) (.foldl (fun _ _ h => (State.movDone_touches (Part.sub rfl
      hp) h)) h1)

theorem State.reqFailed_touches {ps : List Part} {s0 s : State} {e : EbxReq}
    (hp : Part.within [.mem, .ques, .mov, .ebx, .evt, .dram, .out] ps = true) (h : Touches ps s0 s) :
    Touches ps s0 (State.reqFailed s e) := by
  unfold State.reqFailed
  extract_lets s1
  have h1 : Touches ps s0 s1 := State.dropReq_touches (Part.sub rfl hp) h
  clear_value s1
  split
  · extract_lets _
    exact State.askEntry_touches (Part.sub rfl hp) (State.setQueue_touches (Part.sub rfl hp) h1)
  · exact .ite (State.movRemote_touches (Part.sub rfl hp) h1) h1

theorem execReadResp_touches {ps : List Part} {s0 : State} {port : Nat} {p : Packet} {s : State}
    (hp : Part.within [.ques, .ebx, .evt] ps = true) (h : Touches ps s0 s) :
    OTouches ps s0 (execReadResp port p s) := by
  unfold execReadResp
  refine State.portDo_touches (Part.sub rfl hp) (fun _ hg => ?_) h
  extract_lets gs1
  have gh1 : Touches ps s0 gs1 := State.credit_touches (Part.sub rfl hp) hg
  clear_value gs1
  refine .ite ?_ ?_
  · exact State.ebxCount_touches (Part.sub rfl hp) gh1
  · split
    · exact gh1
    · extract_lets gbm1s1
      have gbm1h1 : Touches ps s0 gbm1s1 := State.dropReq_touches (Part.sub rfl hp) gh1
      clear_value gbm1s1
      split
      · extract_lets _
        exact State.setQueue_touches (Part.sub rfl hp) gbm1h1
      · exact gbm1h1

theorem execWriteAck_touches {ps : List Part} {s0 : State} {port : Nat} {p : Packet} {s : State}
    (hp : Part.within [.ebx, .evt] ps = true) (h : Touches ps s0 s) :
    OTouches ps s0 (execWriteAck port p s) := by
  unfold execWriteAck
  refine State.portDo_touches (Part.sub rfl hp) (fun _ hg => ?_) h
  extract_lets gs1
  have gh1 : Touches ps s0 gs1 := State.credit_touches (Part.sub rfl hp) hg
  clear_value gs1
  refine .ite ?_ ?_
  · exact State.ebxCount_touches (Part.sub rfl hp) gh1
  · split
    · exact gh1
    · exact State.dropReq_touches (Part.sub rfl hp) gh1

theorem execErrorResp_touches {ps : List Part} {s0 : State} {port : Nat} {p : Packet} {s : State}
    (hp : Part.within [.mem, .ques, .mov, .ebx, .evt, .dram, .out] ps = true) (h : Touches ps s0 s) :
    OTouches ps s0 (execErrorResp port p s) := by
  unfold execErrorResp
  refine State.portDo_touches (Part.sub rfl hp) (fun _ hg => ?_) h
  extract_lets gs1
  have gh1 : Touches ps s0 gs1 := State.credit_touches (Part.sub rfl hp) hg
  clear_value gs1
  refine .ite ?_ ?_
  · exact State.ebxCount_touches (Part.sub rfl hp) gh1
  · split
    · exact gh1
    · exact State.reqFailed_touches (Part.sub rfl hp) gh1

theorem execMessageInvalid_touches {ps : List Part} {s0 : State} {port : Nat} {p : Packet} {s : State}
    (hp : Part.within [.ebx, .evt] ps = true) (h : Touches ps s0 s) :
    OTouches ps s0 (execMessageInvalid port p s) :=
  State.portDo_touches (Part.sub rfl hp) (fun _ h => (.ite (State.ebxCount_touches (Part.sub rfl hp) h) (.ite h
    (State.badMsg_touches (Part.sub rfl hp) (State.credit_touches (Part.sub rfl hp) h))))) h

theorem execMessageCoalesced_touches {ps : List Part} {s0 : State} {port : Nat} {p : Packet} {s : State}
    (hp : Part.within [.ebx, .evt] ps = true) (h : Touches ps s0 s) :
    OTouches ps s0 (execMessageCoalesced port p s) := by
  unfold execMessageCoalesced
  refine State.portDo_touches (Part.sub rfl hp) (fun _ hg => ?_) h
  extract_lets _ gs1 gs2 _
  have gh1 : Touches ps s0 gs1 := State.credit_touches (Part.sub rfl hp) hg
  clear_value gs1
  have gh2 : Touches ps s0 gs2 := State.bump_touches (Part.sub rfl hp) (fun _ _ h => (.updEbx (Part.sub rfl
      hp) h)) gh1
  clear_value gs2
  refine .ite ?_ ?_
  · exact hg
  · exact .ite (State.event_touches (Part.sub rfl hp) (.updEbx (Part.sub rfl hp) gh2)) gh2

theorem execEbxPacketDiscard_touches {ps : List Part} {s0 : State} {port : Nat} {crcOk : Bool} {p : Packet}
    {s : State} (hp : Part.within [.ebx, .evt] ps = true) (h : Touches ps s0 s) :
    OTouches ps s0 (execEbxPacketDiscard port crcOk p s) :=
  State.portDo_touches (Part.sub rfl hp) (fun _ h => (.ite (State.ebxCount_touches (Part.sub rfl hp) h)
    (State.ebxCount_touches (Part.sub rfl hp) (.elim h fun _ => (State.credit_touches (Part.sub rfl hp) h))))) h

theorem execCreditPacket_touches {ps : List Part} {s0 : State} {port : Nat} {p : Packet} {s : State}
    (hp : Part.within [.ebx, .evt] ps = true) (h : Touches ps s0 s) :
    OTouches ps s0 (execCreditPacket port p s) :=
  State.portDo_touches (Part.sub rfl hp) (fun _ h => (.ite (State.ebxCount_touches (Part.sub rfl hp) h) (.upd
    [.ebx] (Part.sub rfl hp) h))) h

theorem State.sendCredit_touches {ps : List Part} {s0 s : State} {port : Nat}
    (hp : Part.within [.ebx, .out] ps = true) (h : Touches ps s0 s) :
    Touches ps s0 (State.sendCredit s port) := by
  unfold State.sendCredit
  extract_lets _ _ s1 _
  have h1 : Touches ps s0 s1 := State.emit_touches (Part.sub rfl hp) h
  clear_value s1
  exact .ite h (.updEbx (Part.sub rfl hp) h1)

theorem execEbxCreditSend_touches {ps : List Part} {s0 s : State} (hp : Part.within [.ebx, .out] ps = true)
    (h : Touches ps s0 s) :
    OTouches ps s0 (execEbxCreditSend s) :=
  State.coreDo_touches (Part.sub rfl hp) (fun _ h => (State.sendCredit_touches (Part.sub rfl hp)
    (State.sendCredit_touches (Part.sub rfl hp) h))) h

theorem State.link_touches {ps : List Part} {s0 s : State} {port : Nat} {ep : Nat}
    (hp : Part.within [.led, .ebx] ps = true) (h : Touches ps s0 s) :
    Touches ps s0 (State.link s port ep) :=
  .ite h (.ite (State.endStep_touches (Part.sub rfl hp) (.updEbx (Part.sub rfl hp) h)) (.updEbx (Part.sub
    rfl hp) h))

theorem execLinkPacket_touches {ps : List Part} {s0 : State} {port : Nat} {ep : Nat} {s : State}
    (hp : Part.within [.led, .ebx] ps = true) (h : Touches ps s0 s) :
    OTouches ps s0 (execLinkPacket port ep s) :=
  State.coreDo_touches (Part.sub rfl hp) (fun _ h => (.ite (State.link_touches (Part.sub rfl hp) h) h)) h

theorem execEbxPortDown_touches {ps : List Part} {s0 : State} {port : Nat} {dropped : Nat} {s : State}
    (hp : Part.within [.mem, .ques, .mov, .ebx, .evt, .dram, .out] ps = true) (h : Touches ps s0 s) :
    OTouches ps s0 (execEbxPortDown port dropped s) :=
  State.coreDo_touches (Part.sub rfl hp) (fun _ h => (State.movRemote_touches (Part.sub rfl hp) (.ite (.updEbx
    (Part.sub rfl hp) h) (State.ebxCount_touches (Part.sub rfl hp) (.updEbx (Part.sub rfl hp) h))))) h

theorem execEbxPortRetrain_touches {ps : List Part} {s0 : State} {port : Nat} {ok : Bool} {s : State}
    (hp : Part.within [.ebx] ps = true) (h : Touches ps s0 s) :
    OTouches ps s0 (execEbxPortRetrain port ok s) :=
  State.coreDo_touches (Part.sub rfl hp) (fun _ h => (.ite h (.updEbx (Part.sub rfl hp) h))) h

theorem execEbxRequestTimeout_touches {ps : List Part} {s0 : State} {tag : Nat} {s : State}
    (hp : Part.within [.mem, .ques, .mov, .ebx, .evt, .dram, .out] ps = true) (h : Touches ps s0 s) :
    OTouches ps s0 (execEbxRequestTimeout tag s) := by
  unfold execEbxRequestTimeout
  refine State.coreDo_touches (Part.sub rfl hp) (fun _ hg => ?_) h
  split
  · exact hg
  · extract_lets _ gm1s1 _ _ gm1s2 _
    have gm1h1 : Touches ps s0 gm1s1 := State.dropReq_touches (Part.sub rfl hp) hg
    clear_value gm1s1
    have gm1h2 : Touches ps s0 gm1s2 := State.emit_touches (Part.sub rfl hp) gm1h1
    clear_value gm1s2
    refine .ite ?_ ?_
    · exact State.reqFailed_touches (Part.sub rfl hp) hg
    · exact .updEbx (Part.sub rfl hp) gm1h2

end Sys2Proof.Machine
end

