-- ==== Sys2Proof/Laws/Frames/Pair.lean ====
section
/-!
SUPPORT. Laws/Frames/Pair.lean: what each operation of Machine/Pair.lean changes: one lemma for each, by the rules of
Laws/Touches.
-/
set_option Elab.async false
namespace Sys2Proof.Machine

theorem State.pairEvent_touches {ps : List Part} {s0 s : State} {kind : Nat} {gap : Nat} {cause : Nat}
    (hp : Part.within [.log, .evt] ps = true) (h : Touches ps s0 s) :
    Touches ps s0 (State.pairEvent s kind gap cause) :=
  State.record_touches (Part.sub rfl hp) h

theorem State.setPair_touches {ps : List Part} {s0 s : State} {f : Pair → Pair} (hp : Part.within [.pair] ps = true)
    (h : Touches ps s0 s) :
    Touches ps s0 (State.setPair s f) :=
  .updPair (Part.sub rfl hp) h

theorem State.leaveUndecided_touches {ps : List Part} {s0 s : State} (hp : Part.within [.led] ps = true)
    (h : Touches ps s0 s) :
    Touches ps s0 (State.leaveUndecided s) :=
  .ite (State.endStep_touches (Part.sub rfl hp) h) h

theorem State.toLead_touches {ps : List Part} {s0 s : State}
    (hp : Part.within [.seq, .pnt, .cool, .pair, .out] ps = true) (h : Touches ps s0 s) :
    Touches ps s0 (State.toLead s) := by
  unfold State.toLead
  extract_lets s1 _ s2
  have h1 : Touches ps s0 s1 := State.setPair_touches (Part.sub rfl hp) h
  clear_value s1
  have h2 : Touches ps s0 s2 := State.pointingRole_touches (Part.sub rfl hp) (State.emit_touches (Part.sub rfl
      hp) (.updSeq (Part.sub rfl hp) h1))
  clear_value s2
  refine .ite ?_ ?_
  · exact h2
  · exact .foldl (fun _ _ h => (.ite (State.emit_touches (Part.sub rfl hp) h) h)) (State.startAll_touches
        (Part.sub rfl hp) h2)

theorem State.toPartner_touches {ps : List Part} {s0 s : State} (hp : Part.within [.pair] ps = true)
    (h : Touches ps s0 s) :
    Touches ps s0 (State.toPartner s) :=
  State.setPair_touches (Part.sub rfl hp) h

theorem State.shadowDivision_touches {ps : List Part} {s0 s : State} (hp : Part.within [.pair, .out] ps = true)
    (h : Touches ps s0 s) :
    Touches ps s0 (State.shadowDivision s) :=
  .ite h (State.emit_touches (Part.sub rfl hp) (State.emit_touches (Part.sub rfl hp) (State.setPair_touches
    (Part.sub rfl hp) (.foldl (fun _ _ h => (State.emit_touches (Part.sub rfl hp) h)) (.foldl (fun _ _ h =>
    (State.emit_touches (Part.sub rfl hp) h)) (.ite h (State.emit_touches (Part.sub rfl hp) h)))))))

theorem State.shadowSecond_touches {ps : List Part} {s0 s : State} (hp : Part.within [.out] ps = true)
    (h : Touches ps s0 s) :
    Touches ps s0 (State.shadowSecond s) :=
  .ite h (State.emit_touches (Part.sub rfl hp) (.foldl (fun _ _ h => (.ite h (State.emit_touches (Part.sub rfl hp)
    h))) (.foldl (fun _ _ h => (State.emit_touches (Part.sub rfl hp) h)) h)))

theorem execCapDivision_touches {ps : List Part} {s0 s : State}
    (hp : Part.within [.log, .cap, .pnt, .evt, .pair, .out] ps = true) (h : Touches ps s0 s) :
    OTouches ps s0 (execCapDivision s) :=
  State.armDo_touches (Part.sub rfl hp) (fun _ h => (.ite (State.shadowDivision_touches (Part.sub rfl hp)
    (State.division_touches (Part.sub rfl hp) h)) h)) h

theorem execChiselCheckpoint_touches {ps : List Part} {s0 s : State} (hp : Part.within [.ckpt, .out] ps = true)
    (h : Touches ps s0 s) :
    OTouches ps s0 (execChiselCheckpoint s) :=
  State.armDo_touches (Part.sub rfl hp) (fun _ h => (State.shadowSecond_touches (Part.sub rfl hp)
    (State.chiCheckpoint_touches (Part.sub rfl hp) h))) h

theorem State.applySetting_touches {ps : List Part} {s0 s : State} {x : Nat × Nat × Nat}
    (hp : Part.within Part.regWrite ps = true) (h : Touches ps s0 s) : Touches ps s0 (State.applySetting s x) := by
  unfold State.applySetting
  split
  · next f hf =>
    obtain ⟨d, hd, hf⟩ := Option.bind_eq_some_iff.mp hf
    have ht : Tame ps (if x.1 % 0x10000 < 0x1000 then instRegs .armature (x.1 / 0x10000) x.2.1
        else globRegs .armature (x.1 / 0x10000)) := tame_ite (instRegs_tame hp) (globRegs_tame hp)
    exact ht d (List.mem_of_find?_eq_some hd) f hf armReq x.2.2 s0 s h
  · exact h

theorem State.applyCaps_touches {ps : List Part} {s0 s : State} (hp : Part.within [.cap] ps = true)
    (h : Touches ps s0 s) :
    Touches ps s0 (State.applyCaps s) :=
  .foldl (fun _ _ h => (State.setCapS_touches (Part.sub rfl hp) h)) h

theorem State.takeShadow_touches {ps : List Part} {s0 s : State}
    (hp : Part.within [.pwr, .rst, .led, .ob, .pins, .maq, .boot, .debug, .seq, .svy, .rcnt, .log, .snap, .mem, .cap, .rel, .met, .pat, .pnt, .haz, .cool, .chi, .ckpt, .cal, .jrn, .gimg, .selfTest, .ques, .mov, .ebx, .evt, .mgt, .pair, .acc, .flash0, .flash1, .dram, .out] ps = true)
    (h : Touches ps s0 s) :
    Touches ps s0 (State.takeShadow s) := by
  unfold State.takeShadow
  extract_lets s1 s2 s3 s4 s5
  have h1 : Touches ps s0 s1 := .foldl (fun _ _ h => (State.applySetting_touches (Part.sub rfl hp) h)) h
  clear_value s1
  have h2 : Touches ps s0 s2 := State.applyCaps_touches (Part.sub rfl hp) h1
  clear_value s2
  have h3 : Touches ps s0 s3 := .foldl (fun _ _ h => (State.setRailCnt_touches (Part.sub rfl hp) h)) h2
  clear_value s3
  have h4 : Touches ps s0 s4 := .foldl (fun _ _ h => (.ite (State.setArm_touches (Part.sub rfl hp) h)
      (State.setArm_touches (Part.sub rfl hp) h))) h3
  clear_value s4
  have h5 : Touches ps s0 s5 := State.throttleNote_touches (Part.sub rfl hp) h4
  clear_value s5
  exact .foldl (fun _ _ h => (.ite (State.loadImage_touches (Part.sub rfl hp) h) h)) h5

theorem State.beginTake_touches {ps : List Part} {s0 s : State} {c : TakeCause}
    (hp : Part.within [.pair, .out] ps = true) (h : Touches ps s0 s) :
    Touches ps s0 (State.beginTake s c) :=
  State.emit_touches (Part.sub rfl hp) (State.setPair_touches (Part.sub rfl hp) h)

theorem execOwnNHeartbeat_touches {ps : List Part} {s0 : State} {contention : Bool} {s : State}
    (hp : Part.within [.pwr, .rst, .led, .ob, .pins, .maq, .boot, .debug, .seq, .svy, .rcnt, .log, .snap, .mem, .cap, .rel, .met, .pat, .pnt, .haz, .cool, .chi, .ckpt, .cal, .jrn, .gimg, .selfTest, .ques, .mov, .ebx, .evt, .mgt, .pair, .acc, .flash0, .flash1, .dram, .out] ps = true)
    (h : Touches ps s0 s) :
    OTouches ps s0 (execOwnNHeartbeat contention s) := by
  unfold execOwnNHeartbeat
  refine State.standbyDo_touches (Part.sub rfl hp) (fun _ hg => ?_) h
  extract_lets gs1 _ _ gs2
  have gh1 : Touches ps s0 gs1 := State.emit_touches (Part.sub rfl hp) hg
  clear_value gs1
  have gh2 : Touches ps s0 gs2 := State.toLead_touches (Part.sub rfl hp) (State.setPair_touches (Part.sub rfl hp) gh1)
  clear_value gs2
  refine .ite ?_ ?_
  · exact hg
  · refine .ite ?_ ?_
    · exact State.setPair_touches (Part.sub rfl hp) gh1
    · refine .ite ?_ ?_
      · refine .ite ?_ ?_
        · exact State.pairEvent_touches (Part.sub rfl hp) (State.toPartner_touches (Part.sub rfl hp) gh1)
        · exact State.setPair_touches (Part.sub rfl hp) gh1
      · refine .ite ?_ ?_
        · refine .ite ?_ ?_
          · exact State.setPair_touches (Part.sub rfl hp) gh1
          · refine .ite ?_ ?_
            · exact State.pairEvent_touches (Part.sub rfl hp) (State.takeShadow_touches (Part.sub rfl hp) gh2)
            · exact State.pairEvent_touches (Part.sub rfl hp) gh2
        · exact gh1

theorem execOwnNReleaseObserved_touches {ps : List Part} {s0 : State} {yield : Bool} {s : State}
    (hp : Part.within [.led, .log, .evt, .pair, .out] ps = true) (h : Touches ps s0 s) :
    OTouches ps s0 (execOwnNReleaseObserved yield s) := by
  unfold execOwnNReleaseObserved
  refine State.standbyDo_touches (Part.sub rfl hp) (fun _ hg => ?_) h
  extract_lets gs1 gs2 _ _ gs3
  have gh1 : Touches ps s0 gs1 := State.setPair_touches (Part.sub rfl hp) hg
  clear_value gs1
  have gh2 : Touches ps s0 gs2 := State.toPartner_touches (Part.sub rfl hp) (State.leaveUndecided_touches
      (Part.sub rfl hp) gh1)
  clear_value gs2
  have gh3 : Touches ps s0 gs3 := State.setPair_touches (Part.sub rfl hp) gh1
  clear_value gs3
  refine .ite ?_ ?_
  · exact hg
  · split
    · refine .ite ?_ ?_
      · exact State.pairEvent_touches (Part.sub rfl hp) (State.setPair_touches (Part.sub rfl hp) gh2)
      · exact gh2
    · refine .ite ?_ ?_
      · exact gh3
      · refine .ite ?_ ?_
        · exact State.beginTake_touches (Part.sub rfl hp) gh3
        · refine .ite ?_ ?_
          · exact gh3
          · exact State.pairEvent_touches (Part.sub rfl hp) (State.setPair_touches (Part.sub rfl hp) gh3)
    · exact gh1

theorem execPairClaimDelayExpiry_touches {ps : List Part} {s0 : State} {us : Nat} {s : State}
    (hp : Part.within [.led, .pair] ps = true) (h : Touches ps s0 s) :
    OTouches ps s0 (execPairClaimDelayExpiry us s) := by
  unfold execPairClaimDelayExpiry
  refine State.standbyDo_touches (Part.sub rfl hp) (fun _ hg => ?_) h
  split
  · refine .ite ?_ ?_
    · exact hg
    · exact State.setPair_touches (Part.sub rfl hp) (State.leaveUndecided_touches (Part.sub rfl hp) hg)
  · exact .ite hg (State.setPair_touches (Part.sub rfl hp) hg)
  · exact hg

theorem execPairOwnNIdleTimeout_touches {ps : List Part} {s0 : State} {us : Nat} {s : State}
    (hp : Part.within [.pair] ps = true) (h : Touches ps s0 s) :
    OTouches ps s0 (execPairOwnNIdleTimeout us s) :=
  State.standbyDo_touches (Part.sub rfl hp) (fun _ h => (.ite (State.setPair_touches (Part.sub rfl hp) h) h)) h

theorem execPairTakeoverHang_touches {ps : List Part} {s0 : State} {us : Nat} {s : State}
    (hp : Part.within [.pair, .out] ps = true) (h : Touches ps s0 s) :
    OTouches ps s0 (execPairTakeoverHang us s) :=
  State.standbyDo_touches (Part.sub rfl hp) (fun _ h => (.ite (State.beginTake_touches (Part.sub rfl hp) h) h)) h

theorem execPairTakeoverDrive_touches {ps : List Part} {s0 s : State}
    (hp : Part.within [.pwr, .rst, .led, .ob, .pins, .maq, .boot, .debug, .seq, .svy, .rcnt, .log, .snap, .mem, .cap, .rel, .met, .pat, .pnt, .haz, .cool, .chi, .ckpt, .cal, .jrn, .gimg, .selfTest, .ques, .mov, .ebx, .evt, .mgt, .pair, .acc, .flash0, .flash1, .dram, .out] ps = true)
    (h : Touches ps s0 s) :
    OTouches ps s0 (execPairTakeoverDrive s) := by
  unfold execPairTakeoverDrive
  refine State.standbyDo_touches (Part.sub rfl hp) (fun _ hg => ?_) h
  extract_lets gs1
  have gh1 : Touches ps s0 gs1 := State.toLead_touches (Part.sub rfl hp) (State.setPair_touches (Part.sub rfl hp) hg)
  clear_value gs1
  split
  · extract_lets _
    exact State.pairEvent_touches (Part.sub rfl hp) (State.takeShadow_touches (Part.sub rfl hp) gh1)
  · exact hg

theorem execTakeNAsserted_touches {ps : List Part} {s0 s : State}
    (hp : Part.within [.pwr, .rst, .led, .ob, .pins, .maq, .boot, .debug, .seq, .svy, .rcnt, .log, .snap, .mem, .cap, .rel, .met, .pat, .pnt, .haz, .cool, .chi, .ckpt, .cal, .jrn, .gimg, .selfTest, .ques, .mov, .ebx, .evt, .mgt, .pair, .acc, .flash0, .flash1, .dram, .out] ps = true)
    (h : Touches ps s0 s) :
    OTouches ps s0 (execTakeNAsserted s) :=
  State.standbyDo_touches (Part.sub rfl hp) (fun _ h => (.ite (State.setPair_touches (Part.sub rfl hp)
    (State.begin6_touches (Part.sub rfl hp) (State.resetSource_touches (Part.sub rfl hp) (State.setPair_touches
    (Part.sub rfl hp) (State.toPartner_touches (Part.sub rfl hp) h))))) h)) h

theorem State.syncJudge_touches {ps : List Part} {s0 s : State} (hp : Part.within [.log, .evt, .pair] ps = true)
    (h : Touches ps s0 s) :
    Touches ps s0 (State.syncJudge s) := by
  unfold State.syncJudge
  extract_lets _
  refine .ite ?_ ?_
  · exact State.pairEvent_touches (Part.sub rfl hp) (State.setPair_touches (Part.sub rfl hp) h)
  · exact h

theorem State.syncLost_touches {ps : List Part} {s0 s : State} (hp : Part.within [.log, .evt, .pair] ps = true)
    (h : Touches ps s0 s) :
    Touches ps s0 (State.syncLost s) :=
  .ite (State.pairEvent_touches (Part.sub rfl hp) (State.setPair_touches (Part.sub rfl hp) h)) h

theorem State.ingest_touches {ps : List Part} {s0 s : State} {rec : Bytes}
    (hp : Part.within [.log, .mem, .cap, .met, .pnt, .chi, .cal, .jrn, .evt, .dram] ps = true) (h : Touches ps s0 s) :
    Touches ps s0 (State.ingest s rec) := by
  unfold State.ingest
  extract_lets _
  refine .ite ?_ ?_
  · exact h
  · split
    · exact State.jobMark_touches (Part.sub rfl hp) h
    · exact State.choice_touches (Part.sub rfl hp) h
    · exact State.takeEmission_touches (Part.sub rfl hp) h
    · refine .ite ?_ ?_
      · exact State.takeWeights_touches (Part.sub rfl hp) h
      · exact State.takeInput_touches (Part.sub rfl hp) h
    · exact h

theorem State.pairReport_touches {ps : List Part} {s0 s : State} (hp : Part.within [.out] ps = true)
    (h : Touches ps s0 s) :
    Touches ps s0 (State.pairReport s) :=
  State.emit_touches (Part.sub rfl hp) h

theorem State.shadowFrame_touches {ps : List Part} {s0 s : State} {v2 : Shadow}
    (hp : Part.within [.pwr, .rst, .led, .ob, .pins, .maq, .boot, .debug, .seq, .svy, .rcnt, .log, .snap, .mem, .cap, .rel, .met, .pat, .pnt, .haz, .cool, .chi, .ckpt, .cal, .jrn, .gimg, .selfTest, .ques, .mov, .ebx, .evt, .mgt, .pair, .acc, .flash0, .flash1, .dram, .out] ps = true)
    (h : Touches ps s0 s) :
    Touches ps s0 (State.shadowFrame s v2) := by
  unfold State.shadowFrame
  split
  · extract_lets m0s1
    have m0h1 : Touches ps s0 m0s1 := State.setPair_touches (Part.sub rfl hp) h
    clear_value m0s1
    exact .ite (State.setPair_touches (Part.sub rfl hp) m0h1) m0h1
  · extract_lets _ m1s1
    have m1h1 : Touches ps s0 m1s1 := State.setPair_touches (Part.sub rfl hp) h
    clear_value m1s1
    refine .ite ?_ ?_
    · exact h
    · refine .ite ?_ ?_
      · exact State.syncJudge_touches (Part.sub rfl hp) m1h1
      · exact State.syncLost_touches (Part.sub rfl hp) m1h1
  · exact .ite h (State.setPair_touches (Part.sub rfl hp) h)
  · refine .ite ?_ ?_
    · exact h
    · exact State.pairReport_touches (Part.sub rfl hp) (State.syncJudge_touches (Part.sub rfl hp)
          (State.setPair_touches (Part.sub rfl hp) h))
  · refine .ite ?_ ?_
    · exact State.syncJudge_touches (Part.sub rfl hp) (State.lockCount_touches (Part.sub rfl hp) h)
    · exact h
  · exact .ite (State.ingest_touches (Part.sub rfl hp) h) h
  · exact .ite (State.setPair_touches (Part.sub rfl hp) h) h
  · exact .ite (State.setPair_touches (Part.sub rfl hp) h) h
  · exact .ite (State.setPair_touches (Part.sub rfl hp) h) h
  · extract_lets m9s1
    have m9h1 : Touches ps s0 m9s1 := State.setPair_touches (Part.sub rfl hp) h
    clear_value m9s1
    refine .ite ?_ ?_
    · exact h
    · exact State.pairEvent_touches (Part.sub rfl hp) (State.takeShadow_touches (Part.sub rfl hp)
          (State.toLead_touches (Part.sub rfl hp) m9h1))

theorem execPairShadowFrame_touches {ps : List Part} {s0 : State} {item : Shadow} {s : State}
    (hp : Part.within [.pwr, .rst, .led, .ob, .pins, .maq, .boot, .debug, .seq, .svy, .rcnt, .log, .snap, .mem, .cap, .rel, .met, .pat, .pnt, .haz, .cool, .chi, .ckpt, .cal, .jrn, .gimg, .selfTest, .ques, .mov, .ebx, .evt, .mgt, .pair, .acc, .flash0, .flash1, .dram, .out] ps = true)
    (h : Touches ps s0 s) :
    OTouches ps s0 (execPairShadowFrame item s) :=
  State.coreDo_touches (Part.sub rfl hp) (fun _ h => (.ite h (State.shadowFrame_touches (Part.sub rfl hp) h))) h

theorem execPairSyncAgeTimeout_touches {ps : List Part} {s0 s : State}
    (hp : Part.within [.log, .evt, .pair] ps = true) (h : Touches ps s0 s) :
    OTouches ps s0 (execPairSyncAgeTimeout s) :=
  State.standbyDo_touches (Part.sub rfl hp) (fun _ h => (.ite (State.syncLost_touches (Part.sub rfl hp) h) h)) h

theorem execPairLinkChange_touches {ps : List Part} {s0 : State} {lane : Nat} {up : Bool} {s : State}
    (hp : Part.within [.pair] ps = true) (h : Touches ps s0 s) :
    OTouches ps s0 (execPairLinkChange lane up s) :=
  State.standbyDo_touches (Part.sub rfl hp) (fun _ h => (.ite (State.setPair_touches (Part.sub rfl hp)
    (State.setPair_touches (Part.sub rfl hp) h)) (State.setPair_touches (Part.sub rfl hp) (State.setPair_touches
    (Part.sub rfl hp) h)))) h

theorem State.handOver_touches {ps : List Part} {s0 s : State}
    (hp : Part.within [.log, .evt, .pair, .out] ps = true) (h : Touches ps s0 s) :
    Touches ps s0 (State.handOver s) := by
  unfold State.handOver
  extract_lets s1
  have h1 : Touches ps s0 s1 := State.emit_touches (Part.sub rfl hp) h
  clear_value s1
  exact State.pairEvent_touches (Part.sub rfl hp) (State.toPartner_touches (Part.sub rfl hp) h1)

theorem execHandoverLead_touches {ps : List Part} {s0 : State} {r : Req} {s : State}
    (hp : Part.within [.log, .mem, .ques, .ebx, .evt, .mgt, .pair, .dram, .out] ps = true) (h : Touches ps s0 s) :
    OTouches ps s0 (execHandoverLead r s) := by
  unfold execHandoverLead
  refine State.armCmd_touches (Part.sub rfl hp) (fun _ hg => ?_) h
  split
  · exact State.complete_touches (Part.sub rfl hp) hg
  · exact State.complete_touches (Part.sub rfl hp) (State.handOver_touches (Part.sub rfl hp) hg)

theorem execTakeLead_touches {ps : List Part} {s0 : State} {r : Req} {s : State}
    (hp : Part.within [.log, .mem, .ques, .ebx, .evt, .mgt, .pair, .dram, .out] ps = true) (h : Touches ps s0 s) :
    OTouches ps s0 (execTakeLead r s) :=
  State.armCmd_touches (Part.sub rfl hp) (fun _ h => (.ite (State.complete_touches (Part.sub rfl hp) h) (.ite
    (State.complete_touches (Part.sub rfl hp) h) (.ite (State.complete_touches (Part.sub rfl hp) h) (.ite
    (State.complete_touches (Part.sub rfl hp) h) (State.complete_touches (Part.sub rfl hp) (State.beginTake_touches
    (Part.sub rfl hp) h))))))) h

theorem execHoldSet_touches {ps : List Part} {s0 : State} {r : Req} {seconds : Nat} {s : State}
    (hp : Part.within [.log, .mem, .ques, .ebx, .evt, .mgt, .pair, .dram, .out] ps = true) (h : Touches ps s0 s) :
    OTouches ps s0 (execHoldSet r seconds s) :=
  State.armCmd_touches (Part.sub rfl hp) (fun _ h => (State.complete_touches (Part.sub rfl hp)
    (State.setPair_touches (Part.sub rfl hp) h))) h

theorem execEjectNAsserted_touches {ps : List Part} {s0 s : State}
    (hp : Part.within [.pins, .rcnt, .log, .snap, .evt, .pair, .flash0, .flash1, .out] ps = true)
    (h : Touches ps s0 s) :
    OTouches ps s0 (execEjectNAsserted s) := by
  unfold execEjectNAsserted
  refine State.standbyDo_touches (Part.sub rfl hp) (fun _ hg => ?_) h
  extract_lets _ gs1 gs2
  have gh1 : Touches ps s0 gs1 := .updPins (Part.sub rfl hp) hg
  clear_value gs1
  have gh2 : Touches ps s0 gs2 := State.pairEvent_touches (Part.sub rfl hp) gh1
  clear_value gs2
  split
  · refine .ite ?_ ?_
    · exact State.pairEvent_touches (Part.sub rfl hp) (State.handOver_touches (Part.sub rfl hp) gh1)
    · exact State.pairEvent_touches (Part.sub rfl hp) (State.toPartner_touches (Part.sub rfl hp)
          (State.snapshot_touches (Part.sub rfl hp) (State.startPage_touches (Part.sub rfl hp) gh1)))
  · exact State.syncLost_touches (Part.sub rfl hp) (State.setPair_touches (Part.sub rfl hp) gh2)
  · exact State.pairEvent_touches (Part.sub rfl hp) gh1

theorem execEjectLatchRelease_touches {ps : List Part} {s0 s : State} (hp : Part.within [.pins, .out] ps = true)
    (h : Touches ps s0 s) :
    OTouches ps s0 (execEjectLatchRelease s) :=
  State.standbyDo_touches (Part.sub rfl hp) (fun _ h => (.ite (State.emit_touches (Part.sub rfl hp) (.updPins
    (Part.sub rfl hp) h)) h)) h

end Sys2Proof.Machine
end

