-- ==== Sys2Proof/Laws/Frames/Mgmt.lean ====
section
/-!
SUPPORT. Laws/Frames/Mgmt.lean: what each operation of Machine/Mgmt.lean changes: one lemma for each, by the rules of
Laws/Touches.
-/
set_option Elab.async false
namespace Sys2Proof.Machine

theorem State.servesDo_touches {ps : List Part} {s0 s : State} {f : State → State} (hp : Part.within [] ps = true)
    (hf : ∀ (s' : State) (_ : Touches ps s0 s'), Touches ps s0 (f s')) (h : Touches ps s0 s) :
    OTouches ps s0 (State.servesDo s f) :=
  State.fwDo_touches (Part.sub rfl hp) (fun _ h => (.ite (hf _ h) h)) h

theorem State.mgmtEvent_touches {ps : List Part} {s0 s : State} {src : Nat} {kind : Nat} {prin : Nat}
    {hash : Digest} (hp : Part.within [.log, .evt] ps = true) (h : Touches ps s0 s) :
    Touches ps s0 (State.mgmtEvent s src kind prin hash) :=
  State.record_touches (Part.sub rfl hp) h

theorem State.pushEvent_touches {ps : List Part} {s0 s : State} {fails : List Nat} {e : Event}
    (hp : Part.within [.mgt, .out] ps = true) (h : Touches ps s0 s) :
    Touches ps s0 (State.pushEvent s fails e) :=
  .foldl (fun _ _ h => (.ite h (.ite (.updMgt (Part.sub rfl hp) h) (State.emit_touches (Part.sub rfl hp) h)))) h

theorem State.payOwed_touches {ps : List Part} {s0 s : State} (hp : Part.within [.evt] ps = true)
    (h : Touches ps s0 s) :
    Touches ps s0 (State.payOwed s) :=
  .foldl (fun _ _ h => (.ite (State.event_touches (Part.sub rfl hp) (.updEvt (Part.sub rfl hp) h)) h)) h

theorem execEventForward_touches {ps : List Part} {s0 : State} {n : Nat} {fails : List Nat} {s : State}
    (hp : Part.within [.evt, .mgt, .out] ps = true) (h : Touches ps s0 s) :
    OTouches ps s0 (execEventForward n fails s) := by
  unfold execEventForward
  refine State.servesDo_touches (Part.sub rfl hp) (fun _ hg => ?_) h
  extract_lets _ gs1 _
  have gh1 : Touches ps s0 gs1 := .foldl (fun _ _ h => (State.pushEvent_touches (Part.sub rfl hp) h)) hg
  clear_value gs1
  exact State.payOwed_touches (Part.sub rfl hp) (.updEvt (Part.sub rfl hp) gh1)

theorem execEventPushRetry_touches {ps : List Part} {s0 : State} {k : Nat} {ok : Bool} {s : State}
    (hp : Part.within [.evt, .mgt, .out] ps = true) (h : Touches ps s0 s) :
    OTouches ps s0 (execEventPushRetry k ok s) := by
  unfold execEventPushRetry
  refine State.servesDo_touches (Part.sub rfl hp) (fun _ hg => ?_) h
  extract_lets _ _
  split
  · exact hg
  · refine .ite ?_ ?_
    · exact State.emit_touches (Part.sub rfl hp) (.updMgt (Part.sub rfl hp) hg)
    · refine .ite ?_ ?_
      · exact .updMgt (Part.sub rfl hp) hg
      · exact State.bump_touches (Part.sub rfl hp) (fun _ _ h => (.updMgt (Part.sub rfl hp) h)) (.upd
            [.mgt] (Part.sub rfl hp) hg)

theorem execTlsConnect_touches {ps : List Part} {s0 : State} {port : Nat} {hash : Digest} {notBefore : Nat}
    {notAfter : Nat} {closed : List Nat} {conns : Nat} {svc : Bool} {s : State}
    (hp : Part.within [.log, .evt, .mgt, .out] ps = true) (h : Touches ps s0 s) :
    OTouches ps s0 (execTlsConnect port hash notBefore notAfter closed conns svc s) := by
  unfold execTlsConnect
  refine State.servesDo_touches (Part.sub rfl hp) (fun _ hg => ?_) h
  extract_lets gs1 _ gs2 _ _
  have gh1 : Touches ps s0 gs1 := State.ingress_touches (Part.sub rfl hp) hg
  clear_value gs1
  have gh2 : Touches ps s0 gs2 := .updMgt (Part.sub rfl hp) gh1
  clear_value gs2
  refine .ite ?_ ?_
  · exact gh2
  · refine .ite ?_ ?_
    · exact State.emit_touches (Part.sub rfl hp) (.updMgt (Part.sub rfl hp) gh2)
    · refine .ite ?_ ?_
      · exact State.mgmtEvent_touches (Part.sub rfl hp) (.updMgt (Part.sub rfl hp) gh2)
      · exact gh2

theorem State.redfishWrite_touches {ps : List Part} {s0 s : State} {r : Req} {addr : Nat} {inst : Nat} {v : Nat}
    (hp : Part.within [.pwr, .rst, .led, .ob, .pins, .maq, .boot, .debug, .seq, .svy, .rcnt, .log, .snap, .mem, .cap, .rel, .met, .pat, .pnt, .haz, .cool, .chi, .ckpt, .cal, .jrn, .gimg, .selfTest, .ques, .mov, .ebx, .evt, .mgt, .pair, .acc, .flash0, .flash1, .dram, .out] ps = true)
    (h : Touches ps s0 s) :
    Touches ps s0 (State.redfishWrite s r addr inst v) :=
  .ite (State.complete_touches (Part.sub rfl hp) h) (.ite (State.setPb_touches (Part.sub rfl hp)
    (State.writeReg_touches (Part.sub rfl hp) (State.setPb_touches (Part.sub rfl hp) h))) (State.complete_touches
    (Part.sub rfl hp) (State.setPb_touches (Part.sub rfl hp) (State.writeReg_touches (Part.sub rfl hp)
    (State.setPb_touches (Part.sub rfl hp) h)))))

theorem applyRecord_touches {ps : List Part} {s0 : State} {r : Req} {b : Bytes}
    (hp : Part.within [.pwr, .rst, .led, .ob, .pins, .maq, .boot, .debug, .seq, .svy, .rcnt, .log, .snap, .mem, .cap, .rel, .met, .pat, .pnt, .haz, .cool, .chi, .ckpt, .cal, .jrn, .gimg, .selfTest, .ques, .mov, .ebx, .evt, .mgt, .pair, .acc, .flash0, .flash1, .dram, .out] ps = true) :
    CTouches ps s0 (applyRecord r b) := by
  unfold applyRecord
  split
  · exact fun t ht => execRevokeKeys_touches (Part.sub rfl hp) ht
  · exact fun t ht => execOptionUpdate_touches (Part.sub rfl hp) ht
  · exact fun t ht => execKeyProvision_touches (Part.sub rfl hp) ht
  · exact fun t ht => execRevminRestore_touches (Part.sub rfl hp) ht
  · exact fun t ht => execDebugOpen_touches (Part.sub rfl hp) ht
  · exact fun t ht => execPrincipalSet_touches (Part.sub rfl hp) ht
  · exact fun t ht => execControlRecordRefused_touches (Part.sub rfl hp) ht

theorem armCommand_touches {ps : List Part} {s0 : State} {r : Req} {e src : Bytes}
    (hp : Part.within [.pwr, .rst, .led, .ob, .pins, .maq, .boot, .debug, .seq, .svy, .rcnt, .log, .snap, .mem, .cap, .rel, .met, .pat, .pnt, .haz, .cool, .chi, .ckpt, .cal, .jrn, .gimg, .selfTest, .ques, .mov, .ebx, .evt, .mgt, .pair, .acc, .flash0, .flash1, .dram, .out] ps = true) :
    CTouches ps s0 (armCommand r e src) := by
  unfold armCommand
  split
  · exact fun t ht => execHelloSession_touches (Part.sub rfl hp) ht
  · exact fun t ht => execInstallFw_touches (Part.sub rfl hp) ht
  · exact fun t ht => execCommitFw_touches (Part.sub rfl hp) ht
  · exact fun t ht => execUpdatePlaster_touches (Part.sub rfl hp) ht
  · exact fun t ht => execStoreSiteImage_touches (Part.sub rfl hp) ht
  · exact fun t ht => execPushSite_touches (Part.sub rfl hp) ht
  · exact fun t ht => execActivateSite_touches (Part.sub rfl hp) ht
  · exact applyRecord_touches (Part.sub rfl hp)
  · exact fun t ht => execVersionReport_touches (Part.sub rfl hp) ht
  · exact fun t ht => execChiselFreeze_touches (Part.sub rfl hp) ht
  · exact fun t ht => execChiselThaw_touches (Part.sub rfl hp) ht
  · exact fun t ht => execChiselReset_touches (Part.sub rfl hp) ht
  · exact fun t ht => execChiselExport_touches (Part.sub rfl hp) ht
  · exact fun t ht => execChiselImport_touches (Part.sub rfl hp) ht
  · exact fun t ht => execArmRun_touches (Part.sub rfl hp) ht
  · exact fun t ht => execLaunchRun_touches (Part.sub rfl hp) ht
  · exact fun t ht => execDisarmRun_touches (Part.sub rfl hp) ht
  · exact fun t ht => execCloseRun_touches (Part.sub rfl hp) ht
  · exact fun t ht => execPromoteManager_touches (Part.sub rfl hp) ht
  · exact fun t ht => execHandoverLead_touches (Part.sub rfl hp) ht
  · exact fun t ht => execTakeLead_touches (Part.sub rfl hp) ht
  · exact fun t ht => execHoldSet_touches (Part.sub rfl hp) ht
  · exact fun t ht => State.fwDo_touches (Part.sub rfl hp) (fun _ h => State.complete_touches (Part.sub rfl hp) h) ht

theorem noCommand_touches {ps : List Part} {s0 : State} {r : Req}
    (hp : Part.within [.mem, .ques, .ebx, .evt, .dram, .out] ps = true) : CTouches ps s0 (noCommand r) :=
  fun _ ht => State.coreDo_touches (Part.sub rfl hp) (fun _ h => State.complete_touches (Part.sub rfl hp) h) ht

theorem maqCommand_touches {ps : List Part} {s0 : State} {r : Req} {e src : Bytes}
    (hp : Part.within [.ob, .maq, .log, .mem, .ques, .ebx, .evt, .mgt, .flash0, .flash1, .dram, .out] ps = true)
    :
    CTouches ps s0 (maqCommand r e src) := by
  unfold maqCommand
  split
  · exact fun t ht => execMaqStore_touches (Part.sub rfl hp) ht
  · exact fun t ht => execMaqSwitch_touches (Part.sub rfl hp) ht
  · exact fun t ht => execMaqCancel_touches (Part.sub rfl hp) ht
  · exact fun t ht => execMaqVerify_touches (Part.sub rfl hp) ht
  · exact fun t ht => execMaqSetMinVersion_touches (Part.sub rfl hp) ht
  · exact fun t ht => execMaqUnknown_touches (Part.sub rfl hp) ht

theorem calCommand_touches {ps : List Part} {s0 : State} {r : Req} {e src : Bytes}
    (hp : Part.within [.pwr, .log, .mem, .cal, .ques, .ebx, .evt, .mgt, .dram, .out] ps = true) :
    CTouches ps s0 (calCommand r e src) := by
  unfold calCommand
  split
  · exact fun t ht => execCheckDesc_touches (Part.sub rfl hp) ht
  · exact fun t ht => execComputeDesc_touches (Part.sub rfl hp) ht
  · exact noCommand_touches (Part.sub rfl hp)

theorem gaugeCommand_touches {ps : List Part} {s0 : State} {r : Req} {e src : Bytes}
    (hp : Part.within [.pwr, .log, .mem, .cal, .gimg, .ques, .ebx, .evt, .mgt, .dram, .out] ps = true) :
    CTouches ps s0 (gaugeCommand r e src) := by
  unfold gaugeCommand
  split
  · exact fun t ht => execGaugeLoad_touches (Part.sub rfl hp) ht
  · exact fun t ht => execGaugeInvoke_touches (Part.sub rfl hp) ht
  · exact fun t ht => execGaugeUnload_touches (Part.sub rfl hp) ht
  · exact noCommand_touches (Part.sub rfl hp)

theorem jrnCommand_touches {ps : List Part} {s0 : State} {r : Req} {e : Bytes}
    (hp : Part.within [.log, .mem, .jrn, .ques, .ebx, .evt, .mgt, .dram, .out] ps = true) :
    CTouches ps s0 (jrnCommand r e) := by
  unfold jrnCommand
  split
  · exact fun t ht => execExportManifest_touches (Part.sub rfl hp) ht
  · exact fun t ht => execExportSeq_touches (Part.sub rfl hp) ht
  · exact fun t ht => execExportLog_touches (Part.sub rfl hp) ht
  · exact noCommand_touches (Part.sub rfl hp)

theorem digestCommand_touches {ps : List Part} {s0 : State} {r : Req} {e src : Bytes}
    (hp : Part.within [.log, .mem, .jrn, .ques, .ebx, .evt, .mgt, .dram, .out] ps = true) :
    CTouches ps s0 (digestCommand r e src) := by
  unfold digestCommand
  split
  · exact fun t ht => execHashRange_touches (Part.sub rfl hp) ht
  · exact fun t ht => execSpotCheck_touches (Part.sub rfl hp) ht
  · exact noCommand_touches (Part.sub rfl hp)

theorem movCommand_touches {ps : List Part} {s0 : State} {r : Req} {e : Bytes}
    (hp : Part.within [.log, .mem, .ques, .mov, .ebx, .evt, .mgt, .dram, .out] ps = true) :
    CTouches ps s0 (movCommand r e) := by
  unfold movCommand
  split
  · exact fun t ht => execCopyMem_touches (Part.sub rfl hp) ht
  · exact fun t ht => execFillMem_touches (Part.sub rfl hp) ht
  · exact fun t ht => execFlashRead_touches (Part.sub rfl hp) ht
  · exact noCommand_touches (Part.sub rfl hp)

theorem queueCommand_touches {ps : List Part} {s0 : State} {r : Req} {q : Nat} {e src : Bytes}
    (hp : Part.within [.pwr, .rst, .led, .ob, .pins, .maq, .boot, .debug, .seq, .svy, .rcnt, .log, .snap, .mem, .cap, .rel, .met, .pat, .pnt, .haz, .cool, .chi, .ckpt, .cal, .jrn, .gimg, .selfTest, .ques, .mov, .ebx, .evt, .mgt, .pair, .acc, .flash0, .flash1, .dram, .out] ps = true) :
    CTouches ps s0 (queueCommand r q e src) := by
  unfold queueCommand
  split
  · exact maqCommand_touches (Part.sub rfl hp)
  · exact calCommand_touches (Part.sub rfl hp)
  · exact gaugeCommand_touches (Part.sub rfl hp)
  · exact jrnCommand_touches (Part.sub rfl hp)
  · exact digestCommand_touches (Part.sub rfl hp)
  · exact movCommand_touches (Part.sub rfl hp)
  · exact movCommand_touches (Part.sub rfl hp)
  · exact armCommand_touches (Part.sub rfl hp)
  · exact noCommand_touches (Part.sub rfl hp)

theorem State.openStatus_touches {ps : List Part} {s0 s : State} {r : Req}
    (hp : Part.within [.fresh, .mem, .ques, .ebx, .evt, .dram, .out] ps = true) (h : Touches ps s0 s) :
    Touches ps s0 (State.openStatus s r) :=
  State.complete_touches (Part.sub rfl hp) (.updFresh (Part.sub rfl hp) h)

theorem State.subscribe_touches {ps : List Part} {s0 s : State} {r : Req}
    (hp : Part.within [.fresh, .mem, .ques, .ebx, .evt, .mgt, .dram, .out] ps = true) (h : Touches ps s0 s) :
    Touches ps s0 (State.subscribe s r) :=
  .ite (State.complete_touches (Part.sub rfl hp) (.updMgt (Part.sub rfl hp) h)) (State.openStatus_touches
    (Part.sub rfl hp) h)

theorem execRedfishRequest_touches {ps : List Part} {s0 : State} {r : Req} {q : Redfish} {s : State}
    (hp : Part.within Part.others ps = true) (h : Touches ps s0 s) : OTouches ps s0 (execRedfishRequest r q s) := by
  unfold execRedfishRequest
  refine State.servesDo_touches (Part.sub rfl hp) (fun t hg => ?_) h
  refine .ite hg ?_
  extract_lets r t
  replace hg : Touches ps s0 t := State.ingress_touches (Part.sub rfl hp) hg
  clear_value t
  split
  · exact State.withRight_touches (Part.sub rfl hp) (fun _ h => State.complete_touches (Part.sub rfl hp)
      (State.emit_touches (Part.sub rfl hp) h)) hg
  · exact State.redfishWrite_touches (Part.sub rfl hp) hg
  · exact nextOr_touches (queueCommand_touches (Part.sub rfl hp) t hg) hg
  · exact State.withRight_touches (Part.sub rfl hp) (fun _ h => State.subscribe_touches (Part.sub rfl hp) h) hg
  · exact State.withRight_touches (Part.sub rfl hp) (fun _ h => State.complete_touches (Part.sub rfl hp)
      (.updMgt (Part.sub rfl hp) h)) hg

theorem execTelemetryStreamPeriod_touches {ps : List Part} {s0 : State} {k : Nat} {kept : Bool} {s : State}
    (hp : Part.within [.mem, .evt, .mgt, .dram, .out] ps = true) (h : Touches ps s0 s) :
    OTouches ps s0 (execTelemetryStreamPeriod k kept s) :=
  State.servesDo_touches (Part.sub rfl hp) (fun _ h => (.ite h (.ite (State.bump_touches (Part.sub rfl hp) (fun _ _
    h => (.updMgt (Part.sub rfl hp) h)) h) (.ite (State.post_touches (Part.sub rfl hp) h) (State.emit_touches
    (Part.sub rfl hp) h))))) h

theorem execPtpMessage_touches {ps : List Part} {s0 : State} {port : Nat} {domain : Nat} {time : Nat}
    {within : Bool} {s : State} (hp : Part.within [.log, .evt, .mgt] ps = true) (h : Touches ps s0 s) :
    OTouches ps s0 (execPtpMessage port domain time within s) :=
  State.fwDo_touches (Part.sub rfl hp) (fun _ h => (.ite h (.ite (.ite (.updMgt (Part.sub rfl hp) h)
    (State.mgmtEvent_touches (Part.sub rfl hp) (.updMgt (Part.sub rfl hp) h))) (.ite (State.mgmtEvent_touches
    (Part.sub rfl hp) (.updMgt (Part.sub rfl hp) h)) h)))) h

end Sys2Proof.Machine
end

