-- ==== Sys2Proof/Laws/Gates.lean ====
section
/-!
SUPPORT. Laws/Gates.lean: the gates of Machine/Ops.lean when they stand open, and the forms in which a command is shown to
complete.
-/
set_option Elab.async false
namespace Sys2Proof.Machine

theorem standbyDo_on {s : State} {f : State → State} (h : s.pwr.standby = true) : s.standbyDo f = .next (f s) := by
  simp only [State.standbyDo, if_pos h]

theorem coreDo_on {s : State} {f : State → State} (h : s.pwr.core = true) : s.coreDo f = .next (f s) := by
  simp only [State.coreDo, if_pos h]

theorem fwDo_on {s : State} {f : State → State} (h : s.imageRuns = true) : s.fwDo f = .next (f s) := by
  unfold State.fwDo
  exact congrArg _ (if_pos h)

theorem armDo_on {s : State} {f : State → State} (h : s.armServes = true) : s.armDo f = .next (f s) := by
  simp only [State.armServes, Bool.and_eq_true, decide_eq_true_eq] at h
  rw [State.armDo, fwDo_on h.1, if_neg h.2]

theorem servesDo_on {s : State} {f : State → State} (h : s.inService = true) : s.servesDo f = .next (f s) := by
  simp only [State.inService, Bool.and_eq_true] at h
  rw [State.servesDo, fwDo_on h.1, if_pos h.2]

theorem withRight_on {s : State} {r : Req} {x : Right} {f : State → State} (h : s.may r.principal x = true) :
    s.withRight r x f = f s := by rw [State.withRight, if_pos h]

theorem withWriteRight_on {s : State} {r : Req} {x : Right} {a : Nat} {f : State → State} (h : s.may r.principal x = true) :
    s.withWriteRight r x a f = f s := by rw [State.withWriteRight, if_pos h]

/-- A command completes: from an equation of exec. -/
theorem completes_of {c : Instr} {s t : State} {q : State → Prop} (h : exec c s = .next t) (hq : q t) : Completes c s q :=
  ⟨t, h, hq⟩

/-- The frame of a command that answers `t`. -/
theorem only_of {ps : List Part} {s t : State} {o : Host.Outcome State Fault Refusal} (h : OTouches ps s o)
    (e : o = .next t) : s.onlyChanges ps t := (h t e).only

end Sys2Proof.Machine
end

