-- ==== Sys2Proof/Laws/Tables.lean ====
section
/-!
SUPPORT. Laws/Tables.lean: reading a sparse table after a write, and the counters' increments.
-/
set_option Elab.async false
namespace Sys2Proof.Machine

@[simp] theorem Tbl.find?_set_same {α : Type} (t : Tbl α) (k : Nat) (v : α) : Tbl.find? (Tbl.set t k v) k = some v := by
  induction t with
  | nil => simp [Tbl.set, Tbl.find?]
  | cons e r ih =>
    obtain ⟨j, w⟩ := e
    by_cases h : j = k
    · simp [Tbl.set, Tbl.find?, h]
    · simp [Tbl.set, Tbl.find?, h, ih]

theorem Tbl.find?_set_other {α : Type} (t : Tbl α) {j k : Nat} (v : α) (h : j ≠ k) :
    Tbl.find? (Tbl.set t k v) j = Tbl.find? t j := by
  induction t with
  | nil => simp [Tbl.set, Tbl.find?, Ne.symm h]
  | cons e r ih =>
    obtain ⟨i, w⟩ := e
    by_cases hk : i = k
    · subst hk
      simp [Tbl.set, Tbl.find?, Ne.symm h]
    · by_cases hj : i = j
      · subst hj
        simp [Tbl.set, Tbl.find?, hk]
      · simp [Tbl.set, Tbl.find?, hk, hj, ih]

@[simp] theorem Tbl.get_set_same {α : Type} (d : α) (t : Tbl α) (k : Nat) (v : α) : Tbl.get d (Tbl.set t k v) k = v := by
  induction t with
  | nil => simp [Tbl.set, Tbl.get]
  | cons e r ih =>
    obtain ⟨j, w⟩ := e
    by_cases h : j = k
    · simp [Tbl.set, Tbl.get, h]
    · simp [Tbl.set, Tbl.get, h, ih]

theorem Tbl.get_set_other {α : Type} (d : α) (t : Tbl α) {j k : Nat} (v : α) (h : j ≠ k) :
    Tbl.get d (Tbl.set t k v) j = Tbl.get d t j := by
  induction t with
  | nil => simp [Tbl.set, Tbl.get, Ne.symm h]
  | cons e r ih =>
    obtain ⟨i, w⟩ := e
    by_cases hk : i = k
    · subst hk
      simp [Tbl.set, Tbl.get, Ne.symm h]
    · by_cases hj : i = j
      · subst hj
        simp [Tbl.set, Tbl.get, hk]
      · simp [Tbl.set, Tbl.get, hk, hj, ih]

/-- A counter that does not stand at its largest value counts, and keeps its flag. -/
theorem Cnt.inc_below {c : Cnt} (h : c.val ≠ BitVec.allOnes 32) : c.inc = ({ c with val := c.val + 1 }, false) := by
  unfold Cnt.inc
  rw [if_neg h]

/-- At its largest value it stays and is flagged. -/
theorem Cnt.inc_full {c : Cnt} (h : c.val = BitVec.allOnes 32) : c.inc = ({ c with sat := true }, !c.sat) := by
  unfold Cnt.inc
  rw [if_pos h]

end Sys2Proof.Machine
end

