-- ==== Sys2Proof/Laws/Ledger.lean ====
section
/-!
SUPPORT. Laws/Ledger.lean: what beginning and ending a start step leaves in the ledger.
-/
set_option Elab.async false
namespace Sys2Proof.Machine

/-- A step that begins runs. -/
theorem State.stepRuns_beginStep (s : State) (n form detail : Nat) : (s.beginStep n form detail).stepRuns n = true := by
  unfold State.beginStep State.stepRuns State.stepOf State.putEntry
  extract_lets t
  simp only [Tbl.find?_set_same]
  cases Tbl.find? t.ledgerCur n <;> rfl

/-- Powering a step's rails writes no ledger entry. -/
theorem State.powerStep_led (s : State) (n : Nat) : (s.powerStep n).led = s.led := by
  exact (State.powerStep_touches (ps := Part.others.erase .led) rfl (.refl _ _)).only .led rfl

/-- Beginning a step leaves the other steps' entries and the start's number and kind alone. -/
theorem State.beginStep_led (s : State) (n form detail : Nat) :
    (s.beginStep n form detail).led.startSeq = s.led.startSeq ∧ (s.beginStep n form detail).led.kind = s.led.kind ∧
    ∀ k, k ≠ n → (s.beginStep n form detail).stepOf k = s.stepOf k := by
  unfold State.beginStep
  extract_lets t
  have h : t.led = s.led := by
    show (if _ then _ else _ : State).led = _
    split
    · rfl
    · exact s.powerStep_led n
  refine ⟨?_, ?_, fun k hk => ?_⟩
  · show t.led.startSeq = _
    rw [h]
  · show t.led.kind = _
    rw [h]
  · show (Tbl.find? (Tbl.set t.led.cur n _) k).or (Tbl.find? t.led.kept k) = _
    rw [Tbl.find?_set_other _ _ hk, h]
    rfl

/-- A step that runs and ends has ended: with its outcome, or OK_ALTERNATE for a success in an alternate form. -/
theorem State.endStep_ends {s : State} {n : Nat} {o : StepEnd} {d : Option Nat} (h : s.stepRuns n = true) :
    ((s.endStep n o d).stepOf n).map LedgerEntry.outcome =
      some (if o = .ok ∧ (s.stepOf n).any (fun x => x.form != 0) then .okAlternate else o) := by
  unfold State.stepRuns State.stepOf at h
  unfold State.endStep State.stepOf
  split
  · next x hx =>
    rw [hx] at h
    have : x.outcome = .inProgress := by simpa using h
    simp [this, State.putEntry, hx, LedgerEntry.ended]
  · next x hc hk =>
    rw [hc, hk] at h
    have : x.outcome = .inProgress := by simpa using h
    simp [this, hc, hk, LedgerEntry.ended]
  · next hc hk => rw [hc, hk] at h; cases h

end Sys2Proof.Machine
end

