-- ==== Sys2Proof/Laws/State.lean ====
section
/-!
SUPPORT. Laws/State.lean: what each named update of State leaves alone, one lemma for each field, and what it reads back.
-/
set_option Elab.async false
namespace Sys2Proof.Machine

variable (s : State)

/-! ### setCalSite changes cal -/

@[simp] theorem State.setCalSite_pending (n : Nat) (x : CalSite) : (s.setCalSite n x).pending = s.pending := rfl
@[simp] theorem State.setCalSite_fresh (n : Nat) (x : CalSite) : (s.setCalSite n x).fresh = s.fresh := rfl
@[simp] theorem State.setCalSite_plinth (n : Nat) (x : CalSite) : (s.setCalSite n x).plinth = s.plinth := rfl
@[simp] theorem State.setCalSite_pwr (n : Nat) (x : CalSite) : (s.setCalSite n x).pwr = s.pwr := rfl
@[simp] theorem State.setCalSite_rst (n : Nat) (x : CalSite) : (s.setCalSite n x).rst = s.rst := rfl
@[simp] theorem State.setCalSite_led (n : Nat) (x : CalSite) : (s.setCalSite n x).led = s.led := rfl
@[simp] theorem State.setCalSite_ob (n : Nat) (x : CalSite) : (s.setCalSite n x).ob = s.ob := rfl
@[simp] theorem State.setCalSite_pins (n : Nat) (x : CalSite) : (s.setCalSite n x).pins = s.pins := rfl
@[simp] theorem State.setCalSite_maq (n : Nat) (x : CalSite) : (s.setCalSite n x).maq = s.maq := rfl
@[simp] theorem State.setCalSite_boot (n : Nat) (x : CalSite) : (s.setCalSite n x).boot = s.boot := rfl
@[simp] theorem State.setCalSite_debug (n : Nat) (x : CalSite) : (s.setCalSite n x).debug = s.debug := rfl
@[simp] theorem State.setCalSite_seq (n : Nat) (x : CalSite) : (s.setCalSite n x).seq = s.seq := rfl
@[simp] theorem State.setCalSite_svy (n : Nat) (x : CalSite) : (s.setCalSite n x).svy = s.svy := rfl
@[simp] theorem State.setCalSite_rcnt (n : Nat) (x : CalSite) : (s.setCalSite n x).rcnt = s.rcnt := rfl
@[simp] theorem State.setCalSite_log (n : Nat) (x : CalSite) : (s.setCalSite n x).log = s.log := rfl
@[simp] theorem State.setCalSite_snap (n : Nat) (x : CalSite) : (s.setCalSite n x).snap = s.snap := rfl
@[simp] theorem State.setCalSite_mem (n : Nat) (x : CalSite) : (s.setCalSite n x).mem = s.mem := rfl
@[simp] theorem State.setCalSite_cap (n : Nat) (x : CalSite) : (s.setCalSite n x).cap = s.cap := rfl
@[simp] theorem State.setCalSite_rel (n : Nat) (x : CalSite) : (s.setCalSite n x).rel = s.rel := rfl
@[simp] theorem State.setCalSite_met (n : Nat) (x : CalSite) : (s.setCalSite n x).met = s.met := rfl
@[simp] theorem State.setCalSite_pat (n : Nat) (x : CalSite) : (s.setCalSite n x).pat = s.pat := rfl
@[simp] theorem State.setCalSite_pnt (n : Nat) (x : CalSite) : (s.setCalSite n x).pnt = s.pnt := rfl
@[simp] theorem State.setCalSite_haz (n : Nat) (x : CalSite) : (s.setCalSite n x).haz = s.haz := rfl
@[simp] theorem State.setCalSite_cool (n : Nat) (x : CalSite) : (s.setCalSite n x).cool = s.cool := rfl
@[simp] theorem State.setCalSite_chi (n : Nat) (x : CalSite) : (s.setCalSite n x).chi = s.chi := rfl
@[simp] theorem State.setCalSite_ckpt (n : Nat) (x : CalSite) : (s.setCalSite n x).ckpt = s.ckpt := rfl
@[simp] theorem State.setCalSite_jrn (n : Nat) (x : CalSite) : (s.setCalSite n x).jrn = s.jrn := rfl
@[simp] theorem State.setCalSite_gimg (n : Nat) (x : CalSite) : (s.setCalSite n x).gimg = s.gimg := rfl
@[simp] theorem State.setCalSite_selfTest (n : Nat) (x : CalSite) : (s.setCalSite n x).selfTest = s.selfTest := rfl
@[simp] theorem State.setCalSite_ques (n : Nat) (x : CalSite) : (s.setCalSite n x).ques = s.ques := rfl
@[simp] theorem State.setCalSite_mov (n : Nat) (x : CalSite) : (s.setCalSite n x).mov = s.mov := rfl
@[simp] theorem State.setCalSite_ebx (n : Nat) (x : CalSite) : (s.setCalSite n x).ebx = s.ebx := rfl
@[simp] theorem State.setCalSite_evt (n : Nat) (x : CalSite) : (s.setCalSite n x).evt = s.evt := rfl
@[simp] theorem State.setCalSite_mgt (n : Nat) (x : CalSite) : (s.setCalSite n x).mgt = s.mgt := rfl
@[simp] theorem State.setCalSite_pair (n : Nat) (x : CalSite) : (s.setCalSite n x).pair = s.pair := rfl
@[simp] theorem State.setCalSite_acc (n : Nat) (x : CalSite) : (s.setCalSite n x).acc = s.acc := rfl
@[simp] theorem State.setCalSite_flash0 (n : Nat) (x : CalSite) : (s.setCalSite n x).flash0 = s.flash0 := rfl
@[simp] theorem State.setCalSite_flash1 (n : Nat) (x : CalSite) : (s.setCalSite n x).flash1 = s.flash1 := rfl
@[simp] theorem State.setCalSite_dram (n : Nat) (x : CalSite) : (s.setCalSite n x).dram = s.dram := rfl
@[simp] theorem State.setCalSite_out (n : Nat) (x : CalSite) : (s.setCalSite n x).out = s.out := rfl
@[simp] theorem State.calSite_setCalSite_same (n : Nat) (x : CalSite) : (s.setCalSite n x).calSite n = x := Tbl.get_set_same ..
theorem State.calSite_setCalSite_other (n : Nat) (x : CalSite) {y : Nat} (h : y ≠ n) : (s.setCalSite n x).calSite y = s.calSite y := Tbl.get_set_other _ _ _ h

/-! ### setPatina changes pat -/

@[simp] theorem State.setPatina_pending (n : Nat) (x : PatinaSet) : (s.setPatina n x).pending = s.pending := rfl
@[simp] theorem State.setPatina_fresh (n : Nat) (x : PatinaSet) : (s.setPatina n x).fresh = s.fresh := rfl
@[simp] theorem State.setPatina_plinth (n : Nat) (x : PatinaSet) : (s.setPatina n x).plinth = s.plinth := rfl
@[simp] theorem State.setPatina_pwr (n : Nat) (x : PatinaSet) : (s.setPatina n x).pwr = s.pwr := rfl
@[simp] theorem State.setPatina_rst (n : Nat) (x : PatinaSet) : (s.setPatina n x).rst = s.rst := rfl
@[simp] theorem State.setPatina_led (n : Nat) (x : PatinaSet) : (s.setPatina n x).led = s.led := rfl
@[simp] theorem State.setPatina_ob (n : Nat) (x : PatinaSet) : (s.setPatina n x).ob = s.ob := rfl
@[simp] theorem State.setPatina_pins (n : Nat) (x : PatinaSet) : (s.setPatina n x).pins = s.pins := rfl
@[simp] theorem State.setPatina_maq (n : Nat) (x : PatinaSet) : (s.setPatina n x).maq = s.maq := rfl
@[simp] theorem State.setPatina_boot (n : Nat) (x : PatinaSet) : (s.setPatina n x).boot = s.boot := rfl
@[simp] theorem State.setPatina_debug (n : Nat) (x : PatinaSet) : (s.setPatina n x).debug = s.debug := rfl
@[simp] theorem State.setPatina_seq (n : Nat) (x : PatinaSet) : (s.setPatina n x).seq = s.seq := rfl
@[simp] theorem State.setPatina_svy (n : Nat) (x : PatinaSet) : (s.setPatina n x).svy = s.svy := rfl
@[simp] theorem State.setPatina_rcnt (n : Nat) (x : PatinaSet) : (s.setPatina n x).rcnt = s.rcnt := rfl
@[simp] theorem State.setPatina_log (n : Nat) (x : PatinaSet) : (s.setPatina n x).log = s.log := rfl
@[simp] theorem State.setPatina_snap (n : Nat) (x : PatinaSet) : (s.setPatina n x).snap = s.snap := rfl
@[simp] theorem State.setPatina_mem (n : Nat) (x : PatinaSet) : (s.setPatina n x).mem = s.mem := rfl
@[simp] theorem State.setPatina_cap (n : Nat) (x : PatinaSet) : (s.setPatina n x).cap = s.cap := rfl
@[simp] theorem State.setPatina_rel (n : Nat) (x : PatinaSet) : (s.setPatina n x).rel = s.rel := rfl
@[simp] theorem State.setPatina_met (n : Nat) (x : PatinaSet) : (s.setPatina n x).met = s.met := rfl
@[simp] theorem State.setPatina_pnt (n : Nat) (x : PatinaSet) : (s.setPatina n x).pnt = s.pnt := rfl
@[simp] theorem State.setPatina_haz (n : Nat) (x : PatinaSet) : (s.setPatina n x).haz = s.haz := rfl
@[simp] theorem State.setPatina_cool (n : Nat) (x : PatinaSet) : (s.setPatina n x).cool = s.cool := rfl
@[simp] theorem State.setPatina_chi (n : Nat) (x : PatinaSet) : (s.setPatina n x).chi = s.chi := rfl
@[simp] theorem State.setPatina_ckpt (n : Nat) (x : PatinaSet) : (s.setPatina n x).ckpt = s.ckpt := rfl
@[simp] theorem State.setPatina_cal (n : Nat) (x : PatinaSet) : (s.setPatina n x).cal = s.cal := rfl
@[simp] theorem State.setPatina_jrn (n : Nat) (x : PatinaSet) : (s.setPatina n x).jrn = s.jrn := rfl
@[simp] theorem State.setPatina_gimg (n : Nat) (x : PatinaSet) : (s.setPatina n x).gimg = s.gimg := rfl
@[simp] theorem State.setPatina_selfTest (n : Nat) (x : PatinaSet) : (s.setPatina n x).selfTest = s.selfTest := rfl
@[simp] theorem State.setPatina_ques (n : Nat) (x : PatinaSet) : (s.setPatina n x).ques = s.ques := rfl
@[simp] theorem State.setPatina_mov (n : Nat) (x : PatinaSet) : (s.setPatina n x).mov = s.mov := rfl
@[simp] theorem State.setPatina_ebx (n : Nat) (x : PatinaSet) : (s.setPatina n x).ebx = s.ebx := rfl
@[simp] theorem State.setPatina_evt (n : Nat) (x : PatinaSet) : (s.setPatina n x).evt = s.evt := rfl
@[simp] theorem State.setPatina_mgt (n : Nat) (x : PatinaSet) : (s.setPatina n x).mgt = s.mgt := rfl
@[simp] theorem State.setPatina_pair (n : Nat) (x : PatinaSet) : (s.setPatina n x).pair = s.pair := rfl
@[simp] theorem State.setPatina_acc (n : Nat) (x : PatinaSet) : (s.setPatina n x).acc = s.acc := rfl
@[simp] theorem State.setPatina_flash0 (n : Nat) (x : PatinaSet) : (s.setPatina n x).flash0 = s.flash0 := rfl
@[simp] theorem State.setPatina_flash1 (n : Nat) (x : PatinaSet) : (s.setPatina n x).flash1 = s.flash1 := rfl
@[simp] theorem State.setPatina_dram (n : Nat) (x : PatinaSet) : (s.setPatina n x).dram = s.dram := rfl
@[simp] theorem State.setPatina_out (n : Nat) (x : PatinaSet) : (s.setPatina n x).out = s.out := rfl
@[simp] theorem State.patina_setPatina_same (n : Nat) (x : PatinaSet) : (s.setPatina n x).patina n = x := Tbl.get_set_same ..
theorem State.patina_setPatina_other (n : Nat) (x : PatinaSet) {y : Nat} (h : y ≠ n) : (s.setPatina n x).patina y = s.patina y := Tbl.get_set_other _ _ _ h

/-! ### setFan changes cool -/

@[simp] theorem State.setFan_pending (c : Nat) (x : FanCh) : (s.setFan c x).pending = s.pending := rfl
@[simp] theorem State.setFan_fresh (c : Nat) (x : FanCh) : (s.setFan c x).fresh = s.fresh := rfl
@[simp] theorem State.setFan_plinth (c : Nat) (x : FanCh) : (s.setFan c x).plinth = s.plinth := rfl
@[simp] theorem State.setFan_pwr (c : Nat) (x : FanCh) : (s.setFan c x).pwr = s.pwr := rfl
@[simp] theorem State.setFan_rst (c : Nat) (x : FanCh) : (s.setFan c x).rst = s.rst := rfl
@[simp] theorem State.setFan_led (c : Nat) (x : FanCh) : (s.setFan c x).led = s.led := rfl
@[simp] theorem State.setFan_ob (c : Nat) (x : FanCh) : (s.setFan c x).ob = s.ob := rfl
@[simp] theorem State.setFan_pins (c : Nat) (x : FanCh) : (s.setFan c x).pins = s.pins := rfl
@[simp] theorem State.setFan_maq (c : Nat) (x : FanCh) : (s.setFan c x).maq = s.maq := rfl
@[simp] theorem State.setFan_boot (c : Nat) (x : FanCh) : (s.setFan c x).boot = s.boot := rfl
@[simp] theorem State.setFan_debug (c : Nat) (x : FanCh) : (s.setFan c x).debug = s.debug := rfl
@[simp] theorem State.setFan_seq (c : Nat) (x : FanCh) : (s.setFan c x).seq = s.seq := rfl
@[simp] theorem State.setFan_svy (c : Nat) (x : FanCh) : (s.setFan c x).svy = s.svy := rfl
@[simp] theorem State.setFan_rcnt (c : Nat) (x : FanCh) : (s.setFan c x).rcnt = s.rcnt := rfl
@[simp] theorem State.setFan_log (c : Nat) (x : FanCh) : (s.setFan c x).log = s.log := rfl
@[simp] theorem State.setFan_snap (c : Nat) (x : FanCh) : (s.setFan c x).snap = s.snap := rfl
@[simp] theorem State.setFan_mem (c : Nat) (x : FanCh) : (s.setFan c x).mem = s.mem := rfl
@[simp] theorem State.setFan_cap (c : Nat) (x : FanCh) : (s.setFan c x).cap = s.cap := rfl
@[simp] theorem State.setFan_rel (c : Nat) (x : FanCh) : (s.setFan c x).rel = s.rel := rfl
@[simp] theorem State.setFan_met (c : Nat) (x : FanCh) : (s.setFan c x).met = s.met := rfl
@[simp] theorem State.setFan_pat (c : Nat) (x : FanCh) : (s.setFan c x).pat = s.pat := rfl
@[simp] theorem State.setFan_pnt (c : Nat) (x : FanCh) : (s.setFan c x).pnt = s.pnt := rfl
@[simp] theorem State.setFan_haz (c : Nat) (x : FanCh) : (s.setFan c x).haz = s.haz := rfl
@[simp] theorem State.setFan_chi (c : Nat) (x : FanCh) : (s.setFan c x).chi = s.chi := rfl
@[simp] theorem State.setFan_ckpt (c : Nat) (x : FanCh) : (s.setFan c x).ckpt = s.ckpt := rfl
@[simp] theorem State.setFan_cal (c : Nat) (x : FanCh) : (s.setFan c x).cal = s.cal := rfl
@[simp] theorem State.setFan_jrn (c : Nat) (x : FanCh) : (s.setFan c x).jrn = s.jrn := rfl
@[simp] theorem State.setFan_gimg (c : Nat) (x : FanCh) : (s.setFan c x).gimg = s.gimg := rfl
@[simp] theorem State.setFan_selfTest (c : Nat) (x : FanCh) : (s.setFan c x).selfTest = s.selfTest := rfl
@[simp] theorem State.setFan_ques (c : Nat) (x : FanCh) : (s.setFan c x).ques = s.ques := rfl
@[simp] theorem State.setFan_mov (c : Nat) (x : FanCh) : (s.setFan c x).mov = s.mov := rfl
@[simp] theorem State.setFan_ebx (c : Nat) (x : FanCh) : (s.setFan c x).ebx = s.ebx := rfl
@[simp] theorem State.setFan_evt (c : Nat) (x : FanCh) : (s.setFan c x).evt = s.evt := rfl
@[simp] theorem State.setFan_mgt (c : Nat) (x : FanCh) : (s.setFan c x).mgt = s.mgt := rfl
@[simp] theorem State.setFan_pair (c : Nat) (x : FanCh) : (s.setFan c x).pair = s.pair := rfl
@[simp] theorem State.setFan_acc (c : Nat) (x : FanCh) : (s.setFan c x).acc = s.acc := rfl
@[simp] theorem State.setFan_flash0 (c : Nat) (x : FanCh) : (s.setFan c x).flash0 = s.flash0 := rfl
@[simp] theorem State.setFan_flash1 (c : Nat) (x : FanCh) : (s.setFan c x).flash1 = s.flash1 := rfl
@[simp] theorem State.setFan_dram (c : Nat) (x : FanCh) : (s.setFan c x).dram = s.dram := rfl
@[simp] theorem State.setFan_out (c : Nat) (x : FanCh) : (s.setFan c x).out = s.out := rfl
@[simp] theorem State.fan_setFan_same (c : Nat) (x : FanCh) : (s.setFan c x).fan c = x := Tbl.get_set_same ..
theorem State.fan_setFan_other (c : Nat) (x : FanCh) {y : Nat} (h : y ≠ c) : (s.setFan c x).fan y = s.fan y := Tbl.get_set_other _ _ _ h

/-! ### setMeter changes cool -/

@[simp] theorem State.setMeter_pending (m : Nat) (x : FlowMeter) : (s.setMeter m x).pending = s.pending := rfl
@[simp] theorem State.setMeter_fresh (m : Nat) (x : FlowMeter) : (s.setMeter m x).fresh = s.fresh := rfl
@[simp] theorem State.setMeter_plinth (m : Nat) (x : FlowMeter) : (s.setMeter m x).plinth = s.plinth := rfl
@[simp] theorem State.setMeter_pwr (m : Nat) (x : FlowMeter) : (s.setMeter m x).pwr = s.pwr := rfl
@[simp] theorem State.setMeter_rst (m : Nat) (x : FlowMeter) : (s.setMeter m x).rst = s.rst := rfl
@[simp] theorem State.setMeter_led (m : Nat) (x : FlowMeter) : (s.setMeter m x).led = s.led := rfl
@[simp] theorem State.setMeter_ob (m : Nat) (x : FlowMeter) : (s.setMeter m x).ob = s.ob := rfl
@[simp] theorem State.setMeter_pins (m : Nat) (x : FlowMeter) : (s.setMeter m x).pins = s.pins := rfl
@[simp] theorem State.setMeter_maq (m : Nat) (x : FlowMeter) : (s.setMeter m x).maq = s.maq := rfl
@[simp] theorem State.setMeter_boot (m : Nat) (x : FlowMeter) : (s.setMeter m x).boot = s.boot := rfl
@[simp] theorem State.setMeter_debug (m : Nat) (x : FlowMeter) : (s.setMeter m x).debug = s.debug := rfl
@[simp] theorem State.setMeter_seq (m : Nat) (x : FlowMeter) : (s.setMeter m x).seq = s.seq := rfl
@[simp] theorem State.setMeter_svy (m : Nat) (x : FlowMeter) : (s.setMeter m x).svy = s.svy := rfl
@[simp] theorem State.setMeter_rcnt (m : Nat) (x : FlowMeter) : (s.setMeter m x).rcnt = s.rcnt := rfl
@[simp] theorem State.setMeter_log (m : Nat) (x : FlowMeter) : (s.setMeter m x).log = s.log := rfl
@[simp] theorem State.setMeter_snap (m : Nat) (x : FlowMeter) : (s.setMeter m x).snap = s.snap := rfl
@[simp] theorem State.setMeter_mem (m : Nat) (x : FlowMeter) : (s.setMeter m x).mem = s.mem := rfl
@[simp] theorem State.setMeter_cap (m : Nat) (x : FlowMeter) : (s.setMeter m x).cap = s.cap := rfl
@[simp] theorem State.setMeter_rel (m : Nat) (x : FlowMeter) : (s.setMeter m x).rel = s.rel := rfl
@[simp] theorem State.setMeter_met (m : Nat) (x : FlowMeter) : (s.setMeter m x).met = s.met := rfl
@[simp] theorem State.setMeter_pat (m : Nat) (x : FlowMeter) : (s.setMeter m x).pat = s.pat := rfl
@[simp] theorem State.setMeter_pnt (m : Nat) (x : FlowMeter) : (s.setMeter m x).pnt = s.pnt := rfl
@[simp] theorem State.setMeter_haz (m : Nat) (x : FlowMeter) : (s.setMeter m x).haz = s.haz := rfl
@[simp] theorem State.setMeter_chi (m : Nat) (x : FlowMeter) : (s.setMeter m x).chi = s.chi := rfl
@[simp] theorem State.setMeter_ckpt (m : Nat) (x : FlowMeter) : (s.setMeter m x).ckpt = s.ckpt := rfl
@[simp] theorem State.setMeter_cal (m : Nat) (x : FlowMeter) : (s.setMeter m x).cal = s.cal := rfl
@[simp] theorem State.setMeter_jrn (m : Nat) (x : FlowMeter) : (s.setMeter m x).jrn = s.jrn := rfl
@[simp] theorem State.setMeter_gimg (m : Nat) (x : FlowMeter) : (s.setMeter m x).gimg = s.gimg := rfl
@[simp] theorem State.setMeter_selfTest (m : Nat) (x : FlowMeter) : (s.setMeter m x).selfTest = s.selfTest := rfl
@[simp] theorem State.setMeter_ques (m : Nat) (x : FlowMeter) : (s.setMeter m x).ques = s.ques := rfl
@[simp] theorem State.setMeter_mov (m : Nat) (x : FlowMeter) : (s.setMeter m x).mov = s.mov := rfl
@[simp] theorem State.setMeter_ebx (m : Nat) (x : FlowMeter) : (s.setMeter m x).ebx = s.ebx := rfl
@[simp] theorem State.setMeter_evt (m : Nat) (x : FlowMeter) : (s.setMeter m x).evt = s.evt := rfl
@[simp] theorem State.setMeter_mgt (m : Nat) (x : FlowMeter) : (s.setMeter m x).mgt = s.mgt := rfl
@[simp] theorem State.setMeter_pair (m : Nat) (x : FlowMeter) : (s.setMeter m x).pair = s.pair := rfl
@[simp] theorem State.setMeter_acc (m : Nat) (x : FlowMeter) : (s.setMeter m x).acc = s.acc := rfl
@[simp] theorem State.setMeter_flash0 (m : Nat) (x : FlowMeter) : (s.setMeter m x).flash0 = s.flash0 := rfl
@[simp] theorem State.setMeter_flash1 (m : Nat) (x : FlowMeter) : (s.setMeter m x).flash1 = s.flash1 := rfl
@[simp] theorem State.setMeter_dram (m : Nat) (x : FlowMeter) : (s.setMeter m x).dram = s.dram := rfl
@[simp] theorem State.setMeter_out (m : Nat) (x : FlowMeter) : (s.setMeter m x).out = s.out := rfl
@[simp] theorem State.meter_setMeter_same (m : Nat) (x : FlowMeter) : (s.setMeter m x).meter m = x := Tbl.get_set_same ..
theorem State.meter_setMeter_other (m : Nat) (x : FlowMeter) {y : Nat} (h : y ≠ m) : (s.setMeter m x).meter y = s.meter y := Tbl.get_set_other _ _ _ h

/-! ### setPressS changes cool -/

@[simp] theorem State.setPressS_pending (p : Nat) (x : PressSensor) : (s.setPressS p x).pending = s.pending := rfl
@[simp] theorem State.setPressS_fresh (p : Nat) (x : PressSensor) : (s.setPressS p x).fresh = s.fresh := rfl
@[simp] theorem State.setPressS_plinth (p : Nat) (x : PressSensor) : (s.setPressS p x).plinth = s.plinth := rfl
@[simp] theorem State.setPressS_pwr (p : Nat) (x : PressSensor) : (s.setPressS p x).pwr = s.pwr := rfl
@[simp] theorem State.setPressS_rst (p : Nat) (x : PressSensor) : (s.setPressS p x).rst = s.rst := rfl
@[simp] theorem State.setPressS_led (p : Nat) (x : PressSensor) : (s.setPressS p x).led = s.led := rfl
@[simp] theorem State.setPressS_ob (p : Nat) (x : PressSensor) : (s.setPressS p x).ob = s.ob := rfl
@[simp] theorem State.setPressS_pins (p : Nat) (x : PressSensor) : (s.setPressS p x).pins = s.pins := rfl
@[simp] theorem State.setPressS_maq (p : Nat) (x : PressSensor) : (s.setPressS p x).maq = s.maq := rfl
@[simp] theorem State.setPressS_boot (p : Nat) (x : PressSensor) : (s.setPressS p x).boot = s.boot := rfl
@[simp] theorem State.setPressS_debug (p : Nat) (x : PressSensor) : (s.setPressS p x).debug = s.debug := rfl
@[simp] theorem State.setPressS_seq (p : Nat) (x : PressSensor) : (s.setPressS p x).seq = s.seq := rfl
@[simp] theorem State.setPressS_svy (p : Nat) (x : PressSensor) : (s.setPressS p x).svy = s.svy := rfl
@[simp] theorem State.setPressS_rcnt (p : Nat) (x : PressSensor) : (s.setPressS p x).rcnt = s.rcnt := rfl
@[simp] theorem State.setPressS_log (p : Nat) (x : PressSensor) : (s.setPressS p x).log = s.log := rfl
@[simp] theorem State.setPressS_snap (p : Nat) (x : PressSensor) : (s.setPressS p x).snap = s.snap := rfl
@[simp] theorem State.setPressS_mem (p : Nat) (x : PressSensor) : (s.setPressS p x).mem = s.mem := rfl
@[simp] theorem State.setPressS_cap (p : Nat) (x : PressSensor) : (s.setPressS p x).cap = s.cap := rfl
@[simp] theorem State.setPressS_rel (p : Nat) (x : PressSensor) : (s.setPressS p x).rel = s.rel := rfl
@[simp] theorem State.setPressS_met (p : Nat) (x : PressSensor) : (s.setPressS p x).met = s.met := rfl
@[simp] theorem State.setPressS_pat (p : Nat) (x : PressSensor) : (s.setPressS p x).pat = s.pat := rfl
@[simp] theorem State.setPressS_pnt (p : Nat) (x : PressSensor) : (s.setPressS p x).pnt = s.pnt := rfl
@[simp] theorem State.setPressS_haz (p : Nat) (x : PressSensor) : (s.setPressS p x).haz = s.haz := rfl
@[simp] theorem State.setPressS_chi (p : Nat) (x : PressSensor) : (s.setPressS p x).chi = s.chi := rfl
@[simp] theorem State.setPressS_ckpt (p : Nat) (x : PressSensor) : (s.setPressS p x).ckpt = s.ckpt := rfl
@[simp] theorem State.setPressS_cal (p : Nat) (x : PressSensor) : (s.setPressS p x).cal = s.cal := rfl
@[simp] theorem State.setPressS_jrn (p : Nat) (x : PressSensor) : (s.setPressS p x).jrn = s.jrn := rfl
@[simp] theorem State.setPressS_gimg (p : Nat) (x : PressSensor) : (s.setPressS p x).gimg = s.gimg := rfl
@[simp] theorem State.setPressS_selfTest (p : Nat) (x : PressSensor) : (s.setPressS p x).selfTest = s.selfTest := rfl
@[simp] theorem State.setPressS_ques (p : Nat) (x : PressSensor) : (s.setPressS p x).ques = s.ques := rfl
@[simp] theorem State.setPressS_mov (p : Nat) (x : PressSensor) : (s.setPressS p x).mov = s.mov := rfl
@[simp] theorem State.setPressS_ebx (p : Nat) (x : PressSensor) : (s.setPressS p x).ebx = s.ebx := rfl
@[simp] theorem State.setPressS_evt (p : Nat) (x : PressSensor) : (s.setPressS p x).evt = s.evt := rfl
@[simp] theorem State.setPressS_mgt (p : Nat) (x : PressSensor) : (s.setPressS p x).mgt = s.mgt := rfl
@[simp] theorem State.setPressS_pair (p : Nat) (x : PressSensor) : (s.setPressS p x).pair = s.pair := rfl
@[simp] theorem State.setPressS_acc (p : Nat) (x : PressSensor) : (s.setPressS p x).acc = s.acc := rfl
@[simp] theorem State.setPressS_flash0 (p : Nat) (x : PressSensor) : (s.setPressS p x).flash0 = s.flash0 := rfl
@[simp] theorem State.setPressS_flash1 (p : Nat) (x : PressSensor) : (s.setPressS p x).flash1 = s.flash1 := rfl
@[simp] theorem State.setPressS_dram (p : Nat) (x : PressSensor) : (s.setPressS p x).dram = s.dram := rfl
@[simp] theorem State.setPressS_out (p : Nat) (x : PressSensor) : (s.setPressS p x).out = s.out := rfl
@[simp] theorem State.pressS_setPressS_same (p : Nat) (x : PressSensor) : (s.setPressS p x).pressS p = x := Tbl.get_set_same ..
theorem State.pressS_setPressS_other (p : Nat) (x : PressSensor) {y : Nat} (h : y ≠ p) : (s.setPressS p x).pressS y = s.pressS y := Tbl.get_set_other _ _ _ h

/-! ### setCapS changes cap -/

@[simp] theorem State.setCapS_pending (n : Nat) (x : SiteCap) : (s.setCapS n x).pending = s.pending := rfl
@[simp] theorem State.setCapS_fresh (n : Nat) (x : SiteCap) : (s.setCapS n x).fresh = s.fresh := rfl
@[simp] theorem State.setCapS_plinth (n : Nat) (x : SiteCap) : (s.setCapS n x).plinth = s.plinth := rfl
@[simp] theorem State.setCapS_pwr (n : Nat) (x : SiteCap) : (s.setCapS n x).pwr = s.pwr := rfl
@[simp] theorem State.setCapS_rst (n : Nat) (x : SiteCap) : (s.setCapS n x).rst = s.rst := rfl
@[simp] theorem State.setCapS_led (n : Nat) (x : SiteCap) : (s.setCapS n x).led = s.led := rfl
@[simp] theorem State.setCapS_ob (n : Nat) (x : SiteCap) : (s.setCapS n x).ob = s.ob := rfl
@[simp] theorem State.setCapS_pins (n : Nat) (x : SiteCap) : (s.setCapS n x).pins = s.pins := rfl
@[simp] theorem State.setCapS_maq (n : Nat) (x : SiteCap) : (s.setCapS n x).maq = s.maq := rfl
@[simp] theorem State.setCapS_boot (n : Nat) (x : SiteCap) : (s.setCapS n x).boot = s.boot := rfl
@[simp] theorem State.setCapS_debug (n : Nat) (x : SiteCap) : (s.setCapS n x).debug = s.debug := rfl
@[simp] theorem State.setCapS_seq (n : Nat) (x : SiteCap) : (s.setCapS n x).seq = s.seq := rfl
@[simp] theorem State.setCapS_svy (n : Nat) (x : SiteCap) : (s.setCapS n x).svy = s.svy := rfl
@[simp] theorem State.setCapS_rcnt (n : Nat) (x : SiteCap) : (s.setCapS n x).rcnt = s.rcnt := rfl
@[simp] theorem State.setCapS_log (n : Nat) (x : SiteCap) : (s.setCapS n x).log = s.log := rfl
@[simp] theorem State.setCapS_snap (n : Nat) (x : SiteCap) : (s.setCapS n x).snap = s.snap := rfl
@[simp] theorem State.setCapS_mem (n : Nat) (x : SiteCap) : (s.setCapS n x).mem = s.mem := rfl
@[simp] theorem State.setCapS_rel (n : Nat) (x : SiteCap) : (s.setCapS n x).rel = s.rel := rfl
@[simp] theorem State.setCapS_met (n : Nat) (x : SiteCap) : (s.setCapS n x).met = s.met := rfl
@[simp] theorem State.setCapS_pat (n : Nat) (x : SiteCap) : (s.setCapS n x).pat = s.pat := rfl
@[simp] theorem State.setCapS_pnt (n : Nat) (x : SiteCap) : (s.setCapS n x).pnt = s.pnt := rfl
@[simp] theorem State.setCapS_haz (n : Nat) (x : SiteCap) : (s.setCapS n x).haz = s.haz := rfl
@[simp] theorem State.setCapS_cool (n : Nat) (x : SiteCap) : (s.setCapS n x).cool = s.cool := rfl
@[simp] theorem State.setCapS_chi (n : Nat) (x : SiteCap) : (s.setCapS n x).chi = s.chi := rfl
@[simp] theorem State.setCapS_ckpt (n : Nat) (x : SiteCap) : (s.setCapS n x).ckpt = s.ckpt := rfl
@[simp] theorem State.setCapS_cal (n : Nat) (x : SiteCap) : (s.setCapS n x).cal = s.cal := rfl
@[simp] theorem State.setCapS_jrn (n : Nat) (x : SiteCap) : (s.setCapS n x).jrn = s.jrn := rfl
@[simp] theorem State.setCapS_gimg (n : Nat) (x : SiteCap) : (s.setCapS n x).gimg = s.gimg := rfl
@[simp] theorem State.setCapS_selfTest (n : Nat) (x : SiteCap) : (s.setCapS n x).selfTest = s.selfTest := rfl
@[simp] theorem State.setCapS_ques (n : Nat) (x : SiteCap) : (s.setCapS n x).ques = s.ques := rfl
@[simp] theorem State.setCapS_mov (n : Nat) (x : SiteCap) : (s.setCapS n x).mov = s.mov := rfl
@[simp] theorem State.setCapS_ebx (n : Nat) (x : SiteCap) : (s.setCapS n x).ebx = s.ebx := rfl
@[simp] theorem State.setCapS_evt (n : Nat) (x : SiteCap) : (s.setCapS n x).evt = s.evt := rfl
@[simp] theorem State.setCapS_mgt (n : Nat) (x : SiteCap) : (s.setCapS n x).mgt = s.mgt := rfl
@[simp] theorem State.setCapS_pair (n : Nat) (x : SiteCap) : (s.setCapS n x).pair = s.pair := rfl
@[simp] theorem State.setCapS_acc (n : Nat) (x : SiteCap) : (s.setCapS n x).acc = s.acc := rfl
@[simp] theorem State.setCapS_flash0 (n : Nat) (x : SiteCap) : (s.setCapS n x).flash0 = s.flash0 := rfl
@[simp] theorem State.setCapS_flash1 (n : Nat) (x : SiteCap) : (s.setCapS n x).flash1 = s.flash1 := rfl
@[simp] theorem State.setCapS_dram (n : Nat) (x : SiteCap) : (s.setCapS n x).dram = s.dram := rfl
@[simp] theorem State.setCapS_out (n : Nat) (x : SiteCap) : (s.setCapS n x).out = s.out := rfl
@[simp] theorem State.capS_setCapS_same (n : Nat) (x : SiteCap) : (s.setCapS n x).capS n = x := Tbl.get_set_same ..
theorem State.capS_setCapS_other (n : Nat) (x : SiteCap) {y : Nat} (h : y ≠ n) : (s.setCapS n x).capS y = s.capS y := Tbl.get_set_other _ _ _ h

/-! ### setJob changes met -/

@[simp] theorem State.setJob_pending (j : Nat) (x : Job) : (s.setJob j x).pending = s.pending := rfl
@[simp] theorem State.setJob_fresh (j : Nat) (x : Job) : (s.setJob j x).fresh = s.fresh := rfl
@[simp] theorem State.setJob_plinth (j : Nat) (x : Job) : (s.setJob j x).plinth = s.plinth := rfl
@[simp] theorem State.setJob_pwr (j : Nat) (x : Job) : (s.setJob j x).pwr = s.pwr := rfl
@[simp] theorem State.setJob_rst (j : Nat) (x : Job) : (s.setJob j x).rst = s.rst := rfl
@[simp] theorem State.setJob_led (j : Nat) (x : Job) : (s.setJob j x).led = s.led := rfl
@[simp] theorem State.setJob_ob (j : Nat) (x : Job) : (s.setJob j x).ob = s.ob := rfl
@[simp] theorem State.setJob_pins (j : Nat) (x : Job) : (s.setJob j x).pins = s.pins := rfl
@[simp] theorem State.setJob_maq (j : Nat) (x : Job) : (s.setJob j x).maq = s.maq := rfl
@[simp] theorem State.setJob_boot (j : Nat) (x : Job) : (s.setJob j x).boot = s.boot := rfl
@[simp] theorem State.setJob_debug (j : Nat) (x : Job) : (s.setJob j x).debug = s.debug := rfl
@[simp] theorem State.setJob_seq (j : Nat) (x : Job) : (s.setJob j x).seq = s.seq := rfl
@[simp] theorem State.setJob_svy (j : Nat) (x : Job) : (s.setJob j x).svy = s.svy := rfl
@[simp] theorem State.setJob_rcnt (j : Nat) (x : Job) : (s.setJob j x).rcnt = s.rcnt := rfl
@[simp] theorem State.setJob_log (j : Nat) (x : Job) : (s.setJob j x).log = s.log := rfl
@[simp] theorem State.setJob_snap (j : Nat) (x : Job) : (s.setJob j x).snap = s.snap := rfl
@[simp] theorem State.setJob_mem (j : Nat) (x : Job) : (s.setJob j x).mem = s.mem := rfl
@[simp] theorem State.setJob_cap (j : Nat) (x : Job) : (s.setJob j x).cap = s.cap := rfl
@[simp] theorem State.setJob_rel (j : Nat) (x : Job) : (s.setJob j x).rel = s.rel := rfl
@[simp] theorem State.setJob_pat (j : Nat) (x : Job) : (s.setJob j x).pat = s.pat := rfl
@[simp] theorem State.setJob_pnt (j : Nat) (x : Job) : (s.setJob j x).pnt = s.pnt := rfl
@[simp] theorem State.setJob_haz (j : Nat) (x : Job) : (s.setJob j x).haz = s.haz := rfl
@[simp] theorem State.setJob_cool (j : Nat) (x : Job) : (s.setJob j x).cool = s.cool := rfl
@[simp] theorem State.setJob_chi (j : Nat) (x : Job) : (s.setJob j x).chi = s.chi := rfl
@[simp] theorem State.setJob_ckpt (j : Nat) (x : Job) : (s.setJob j x).ckpt = s.ckpt := rfl
@[simp] theorem State.setJob_cal (j : Nat) (x : Job) : (s.setJob j x).cal = s.cal := rfl
@[simp] theorem State.setJob_jrn (j : Nat) (x : Job) : (s.setJob j x).jrn = s.jrn := rfl
@[simp] theorem State.setJob_gimg (j : Nat) (x : Job) : (s.setJob j x).gimg = s.gimg := rfl
@[simp] theorem State.setJob_selfTest (j : Nat) (x : Job) : (s.setJob j x).selfTest = s.selfTest := rfl
@[simp] theorem State.setJob_ques (j : Nat) (x : Job) : (s.setJob j x).ques = s.ques := rfl
@[simp] theorem State.setJob_mov (j : Nat) (x : Job) : (s.setJob j x).mov = s.mov := rfl
@[simp] theorem State.setJob_ebx (j : Nat) (x : Job) : (s.setJob j x).ebx = s.ebx := rfl
@[simp] theorem State.setJob_evt (j : Nat) (x : Job) : (s.setJob j x).evt = s.evt := rfl
@[simp] theorem State.setJob_mgt (j : Nat) (x : Job) : (s.setJob j x).mgt = s.mgt := rfl
@[simp] theorem State.setJob_pair (j : Nat) (x : Job) : (s.setJob j x).pair = s.pair := rfl
@[simp] theorem State.setJob_acc (j : Nat) (x : Job) : (s.setJob j x).acc = s.acc := rfl
@[simp] theorem State.setJob_flash0 (j : Nat) (x : Job) : (s.setJob j x).flash0 = s.flash0 := rfl
@[simp] theorem State.setJob_flash1 (j : Nat) (x : Job) : (s.setJob j x).flash1 = s.flash1 := rfl
@[simp] theorem State.setJob_dram (j : Nat) (x : Job) : (s.setJob j x).dram = s.dram := rfl
@[simp] theorem State.setJob_out (j : Nat) (x : Job) : (s.setJob j x).out = s.out := rfl
@[simp] theorem State.job_setJob_same (j : Nat) (x : Job) : (s.setJob j x).job j = x := Tbl.get_set_same ..
theorem State.job_setJob_other (j : Nat) (x : Job) {y : Nat} (h : y ≠ j) : (s.setJob j x).job y = s.job y := Tbl.get_set_other _ _ _ h

/-! ### setSlot changes cal -/

@[simp] theorem State.setSlot_pending (n : Nat) (g : GaugeSlot) : (s.setSlot n g).pending = s.pending := rfl
@[simp] theorem State.setSlot_fresh (n : Nat) (g : GaugeSlot) : (s.setSlot n g).fresh = s.fresh := rfl
@[simp] theorem State.setSlot_plinth (n : Nat) (g : GaugeSlot) : (s.setSlot n g).plinth = s.plinth := rfl
@[simp] theorem State.setSlot_pwr (n : Nat) (g : GaugeSlot) : (s.setSlot n g).pwr = s.pwr := rfl
@[simp] theorem State.setSlot_rst (n : Nat) (g : GaugeSlot) : (s.setSlot n g).rst = s.rst := rfl
@[simp] theorem State.setSlot_led (n : Nat) (g : GaugeSlot) : (s.setSlot n g).led = s.led := rfl
@[simp] theorem State.setSlot_ob (n : Nat) (g : GaugeSlot) : (s.setSlot n g).ob = s.ob := rfl
@[simp] theorem State.setSlot_pins (n : Nat) (g : GaugeSlot) : (s.setSlot n g).pins = s.pins := rfl
@[simp] theorem State.setSlot_maq (n : Nat) (g : GaugeSlot) : (s.setSlot n g).maq = s.maq := rfl
@[simp] theorem State.setSlot_boot (n : Nat) (g : GaugeSlot) : (s.setSlot n g).boot = s.boot := rfl
@[simp] theorem State.setSlot_debug (n : Nat) (g : GaugeSlot) : (s.setSlot n g).debug = s.debug := rfl
@[simp] theorem State.setSlot_seq (n : Nat) (g : GaugeSlot) : (s.setSlot n g).seq = s.seq := rfl
@[simp] theorem State.setSlot_svy (n : Nat) (g : GaugeSlot) : (s.setSlot n g).svy = s.svy := rfl
@[simp] theorem State.setSlot_rcnt (n : Nat) (g : GaugeSlot) : (s.setSlot n g).rcnt = s.rcnt := rfl
@[simp] theorem State.setSlot_log (n : Nat) (g : GaugeSlot) : (s.setSlot n g).log = s.log := rfl
@[simp] theorem State.setSlot_snap (n : Nat) (g : GaugeSlot) : (s.setSlot n g).snap = s.snap := rfl
@[simp] theorem State.setSlot_mem (n : Nat) (g : GaugeSlot) : (s.setSlot n g).mem = s.mem := rfl
@[simp] theorem State.setSlot_cap (n : Nat) (g : GaugeSlot) : (s.setSlot n g).cap = s.cap := rfl
@[simp] theorem State.setSlot_rel (n : Nat) (g : GaugeSlot) : (s.setSlot n g).rel = s.rel := rfl
@[simp] theorem State.setSlot_met (n : Nat) (g : GaugeSlot) : (s.setSlot n g).met = s.met := rfl
@[simp] theorem State.setSlot_pat (n : Nat) (g : GaugeSlot) : (s.setSlot n g).pat = s.pat := rfl
@[simp] theorem State.setSlot_pnt (n : Nat) (g : GaugeSlot) : (s.setSlot n g).pnt = s.pnt := rfl
@[simp] theorem State.setSlot_haz (n : Nat) (g : GaugeSlot) : (s.setSlot n g).haz = s.haz := rfl
@[simp] theorem State.setSlot_cool (n : Nat) (g : GaugeSlot) : (s.setSlot n g).cool = s.cool := rfl
@[simp] theorem State.setSlot_chi (n : Nat) (g : GaugeSlot) : (s.setSlot n g).chi = s.chi := rfl
@[simp] theorem State.setSlot_ckpt (n : Nat) (g : GaugeSlot) : (s.setSlot n g).ckpt = s.ckpt := rfl
@[simp] theorem State.setSlot_jrn (n : Nat) (g : GaugeSlot) : (s.setSlot n g).jrn = s.jrn := rfl
@[simp] theorem State.setSlot_gimg (n : Nat) (g : GaugeSlot) : (s.setSlot n g).gimg = s.gimg := rfl
@[simp] theorem State.setSlot_selfTest (n : Nat) (g : GaugeSlot) : (s.setSlot n g).selfTest = s.selfTest := rfl
@[simp] theorem State.setSlot_ques (n : Nat) (g : GaugeSlot) : (s.setSlot n g).ques = s.ques := rfl
@[simp] theorem State.setSlot_mov (n : Nat) (g : GaugeSlot) : (s.setSlot n g).mov = s.mov := rfl
@[simp] theorem State.setSlot_ebx (n : Nat) (g : GaugeSlot) : (s.setSlot n g).ebx = s.ebx := rfl
@[simp] theorem State.setSlot_evt (n : Nat) (g : GaugeSlot) : (s.setSlot n g).evt = s.evt := rfl
@[simp] theorem State.setSlot_mgt (n : Nat) (g : GaugeSlot) : (s.setSlot n g).mgt = s.mgt := rfl
@[simp] theorem State.setSlot_pair (n : Nat) (g : GaugeSlot) : (s.setSlot n g).pair = s.pair := rfl
@[simp] theorem State.setSlot_acc (n : Nat) (g : GaugeSlot) : (s.setSlot n g).acc = s.acc := rfl
@[simp] theorem State.setSlot_flash0 (n : Nat) (g : GaugeSlot) : (s.setSlot n g).flash0 = s.flash0 := rfl
@[simp] theorem State.setSlot_flash1 (n : Nat) (g : GaugeSlot) : (s.setSlot n g).flash1 = s.flash1 := rfl
@[simp] theorem State.setSlot_dram (n : Nat) (g : GaugeSlot) : (s.setSlot n g).dram = s.dram := rfl
@[simp] theorem State.setSlot_out (n : Nat) (g : GaugeSlot) : (s.setSlot n g).out = s.out := rfl
@[simp] theorem State.slot_setSlot_same (n : Nat) (g : GaugeSlot) : (s.setSlot n g).slot n = g := Tbl.get_set_same ..
theorem State.slot_setSlot_other (n : Nat) (g : GaugeSlot) {y : Nat} (h : y ≠ n) : (s.setSlot n g).slot y = s.slot y := Tbl.get_set_other _ _ _ h

/-! ### setCzone changes cool -/

@[simp] theorem State.setCzone_pending (z : Nat) (x : Zone) : (s.setCzone z x).pending = s.pending := rfl
@[simp] theorem State.setCzone_fresh (z : Nat) (x : Zone) : (s.setCzone z x).fresh = s.fresh := rfl
@[simp] theorem State.setCzone_plinth (z : Nat) (x : Zone) : (s.setCzone z x).plinth = s.plinth := rfl
@[simp] theorem State.setCzone_pwr (z : Nat) (x : Zone) : (s.setCzone z x).pwr = s.pwr := rfl
@[simp] theorem State.setCzone_rst (z : Nat) (x : Zone) : (s.setCzone z x).rst = s.rst := rfl
@[simp] theorem State.setCzone_led (z : Nat) (x : Zone) : (s.setCzone z x).led = s.led := rfl
@[simp] theorem State.setCzone_ob (z : Nat) (x : Zone) : (s.setCzone z x).ob = s.ob := rfl
@[simp] theorem State.setCzone_pins (z : Nat) (x : Zone) : (s.setCzone z x).pins = s.pins := rfl
@[simp] theorem State.setCzone_maq (z : Nat) (x : Zone) : (s.setCzone z x).maq = s.maq := rfl
@[simp] theorem State.setCzone_boot (z : Nat) (x : Zone) : (s.setCzone z x).boot = s.boot := rfl
@[simp] theorem State.setCzone_debug (z : Nat) (x : Zone) : (s.setCzone z x).debug = s.debug := rfl
@[simp] theorem State.setCzone_seq (z : Nat) (x : Zone) : (s.setCzone z x).seq = s.seq := rfl
@[simp] theorem State.setCzone_svy (z : Nat) (x : Zone) : (s.setCzone z x).svy = s.svy := rfl
@[simp] theorem State.setCzone_rcnt (z : Nat) (x : Zone) : (s.setCzone z x).rcnt = s.rcnt := rfl
@[simp] theorem State.setCzone_log (z : Nat) (x : Zone) : (s.setCzone z x).log = s.log := rfl
@[simp] theorem State.setCzone_snap (z : Nat) (x : Zone) : (s.setCzone z x).snap = s.snap := rfl
@[simp] theorem State.setCzone_mem (z : Nat) (x : Zone) : (s.setCzone z x).mem = s.mem := rfl
@[simp] theorem State.setCzone_cap (z : Nat) (x : Zone) : (s.setCzone z x).cap = s.cap := rfl
@[simp] theorem State.setCzone_rel (z : Nat) (x : Zone) : (s.setCzone z x).rel = s.rel := rfl
@[simp] theorem State.setCzone_met (z : Nat) (x : Zone) : (s.setCzone z x).met = s.met := rfl
@[simp] theorem State.setCzone_pat (z : Nat) (x : Zone) : (s.setCzone z x).pat = s.pat := rfl
@[simp] theorem State.setCzone_pnt (z : Nat) (x : Zone) : (s.setCzone z x).pnt = s.pnt := rfl
@[simp] theorem State.setCzone_haz (z : Nat) (x : Zone) : (s.setCzone z x).haz = s.haz := rfl
@[simp] theorem State.setCzone_chi (z : Nat) (x : Zone) : (s.setCzone z x).chi = s.chi := rfl
@[simp] theorem State.setCzone_ckpt (z : Nat) (x : Zone) : (s.setCzone z x).ckpt = s.ckpt := rfl
@[simp] theorem State.setCzone_cal (z : Nat) (x : Zone) : (s.setCzone z x).cal = s.cal := rfl
@[simp] theorem State.setCzone_jrn (z : Nat) (x : Zone) : (s.setCzone z x).jrn = s.jrn := rfl
@[simp] theorem State.setCzone_gimg (z : Nat) (x : Zone) : (s.setCzone z x).gimg = s.gimg := rfl
@[simp] theorem State.setCzone_selfTest (z : Nat) (x : Zone) : (s.setCzone z x).selfTest = s.selfTest := rfl
@[simp] theorem State.setCzone_ques (z : Nat) (x : Zone) : (s.setCzone z x).ques = s.ques := rfl
@[simp] theorem State.setCzone_mov (z : Nat) (x : Zone) : (s.setCzone z x).mov = s.mov := rfl
@[simp] theorem State.setCzone_ebx (z : Nat) (x : Zone) : (s.setCzone z x).ebx = s.ebx := rfl
@[simp] theorem State.setCzone_evt (z : Nat) (x : Zone) : (s.setCzone z x).evt = s.evt := rfl
@[simp] theorem State.setCzone_mgt (z : Nat) (x : Zone) : (s.setCzone z x).mgt = s.mgt := rfl
@[simp] theorem State.setCzone_pair (z : Nat) (x : Zone) : (s.setCzone z x).pair = s.pair := rfl
@[simp] theorem State.setCzone_acc (z : Nat) (x : Zone) : (s.setCzone z x).acc = s.acc := rfl
@[simp] theorem State.setCzone_flash0 (z : Nat) (x : Zone) : (s.setCzone z x).flash0 = s.flash0 := rfl
@[simp] theorem State.setCzone_flash1 (z : Nat) (x : Zone) : (s.setCzone z x).flash1 = s.flash1 := rfl
@[simp] theorem State.setCzone_dram (z : Nat) (x : Zone) : (s.setCzone z x).dram = s.dram := rfl
@[simp] theorem State.setCzone_out (z : Nat) (x : Zone) : (s.setCzone z x).out = s.out := rfl
@[simp] theorem State.czone_setCzone_same (z : Nat) (x : Zone) : (s.setCzone z x).czone z = x := Tbl.get_set_same ..
theorem State.czone_setCzone_other (z : Nat) (x : Zone) {y : Nat} (h : y ≠ z) : (s.setCzone z x).czone y = s.czone y := Tbl.get_set_other _ _ _ h

/-! ### setValve changes cool -/

@[simp] theorem State.setValve_pending (v : Nat) (x : Valve) : (s.setValve v x).pending = s.pending := rfl
@[simp] theorem State.setValve_fresh (v : Nat) (x : Valve) : (s.setValve v x).fresh = s.fresh := rfl
@[simp] theorem State.setValve_plinth (v : Nat) (x : Valve) : (s.setValve v x).plinth = s.plinth := rfl
@[simp] theorem State.setValve_pwr (v : Nat) (x : Valve) : (s.setValve v x).pwr = s.pwr := rfl
@[simp] theorem State.setValve_rst (v : Nat) (x : Valve) : (s.setValve v x).rst = s.rst := rfl
@[simp] theorem State.setValve_led (v : Nat) (x : Valve) : (s.setValve v x).led = s.led := rfl
@[simp] theorem State.setValve_ob (v : Nat) (x : Valve) : (s.setValve v x).ob = s.ob := rfl
@[simp] theorem State.setValve_pins (v : Nat) (x : Valve) : (s.setValve v x).pins = s.pins := rfl
@[simp] theorem State.setValve_maq (v : Nat) (x : Valve) : (s.setValve v x).maq = s.maq := rfl
@[simp] theorem State.setValve_boot (v : Nat) (x : Valve) : (s.setValve v x).boot = s.boot := rfl
@[simp] theorem State.setValve_debug (v : Nat) (x : Valve) : (s.setValve v x).debug = s.debug := rfl
@[simp] theorem State.setValve_seq (v : Nat) (x : Valve) : (s.setValve v x).seq = s.seq := rfl
@[simp] theorem State.setValve_svy (v : Nat) (x : Valve) : (s.setValve v x).svy = s.svy := rfl
@[simp] theorem State.setValve_rcnt (v : Nat) (x : Valve) : (s.setValve v x).rcnt = s.rcnt := rfl
@[simp] theorem State.setValve_log (v : Nat) (x : Valve) : (s.setValve v x).log = s.log := rfl
@[simp] theorem State.setValve_snap (v : Nat) (x : Valve) : (s.setValve v x).snap = s.snap := rfl
@[simp] theorem State.setValve_mem (v : Nat) (x : Valve) : (s.setValve v x).mem = s.mem := rfl
@[simp] theorem State.setValve_cap (v : Nat) (x : Valve) : (s.setValve v x).cap = s.cap := rfl
@[simp] theorem State.setValve_rel (v : Nat) (x : Valve) : (s.setValve v x).rel = s.rel := rfl
@[simp] theorem State.setValve_met (v : Nat) (x : Valve) : (s.setValve v x).met = s.met := rfl
@[simp] theorem State.setValve_pat (v : Nat) (x : Valve) : (s.setValve v x).pat = s.pat := rfl
@[simp] theorem State.setValve_pnt (v : Nat) (x : Valve) : (s.setValve v x).pnt = s.pnt := rfl
@[simp] theorem State.setValve_haz (v : Nat) (x : Valve) : (s.setValve v x).haz = s.haz := rfl
@[simp] theorem State.setValve_chi (v : Nat) (x : Valve) : (s.setValve v x).chi = s.chi := rfl
@[simp] theorem State.setValve_ckpt (v : Nat) (x : Valve) : (s.setValve v x).ckpt = s.ckpt := rfl
@[simp] theorem State.setValve_cal (v : Nat) (x : Valve) : (s.setValve v x).cal = s.cal := rfl
@[simp] theorem State.setValve_jrn (v : Nat) (x : Valve) : (s.setValve v x).jrn = s.jrn := rfl
@[simp] theorem State.setValve_gimg (v : Nat) (x : Valve) : (s.setValve v x).gimg = s.gimg := rfl
@[simp] theorem State.setValve_selfTest (v : Nat) (x : Valve) : (s.setValve v x).selfTest = s.selfTest := rfl
@[simp] theorem State.setValve_ques (v : Nat) (x : Valve) : (s.setValve v x).ques = s.ques := rfl
@[simp] theorem State.setValve_mov (v : Nat) (x : Valve) : (s.setValve v x).mov = s.mov := rfl
@[simp] theorem State.setValve_ebx (v : Nat) (x : Valve) : (s.setValve v x).ebx = s.ebx := rfl
@[simp] theorem State.setValve_evt (v : Nat) (x : Valve) : (s.setValve v x).evt = s.evt := rfl
@[simp] theorem State.setValve_mgt (v : Nat) (x : Valve) : (s.setValve v x).mgt = s.mgt := rfl
@[simp] theorem State.setValve_pair (v : Nat) (x : Valve) : (s.setValve v x).pair = s.pair := rfl
@[simp] theorem State.setValve_acc (v : Nat) (x : Valve) : (s.setValve v x).acc = s.acc := rfl
@[simp] theorem State.setValve_flash0 (v : Nat) (x : Valve) : (s.setValve v x).flash0 = s.flash0 := rfl
@[simp] theorem State.setValve_flash1 (v : Nat) (x : Valve) : (s.setValve v x).flash1 = s.flash1 := rfl
@[simp] theorem State.setValve_dram (v : Nat) (x : Valve) : (s.setValve v x).dram = s.dram := rfl
@[simp] theorem State.setValve_out (v : Nat) (x : Valve) : (s.setValve v x).out = s.out := rfl
@[simp] theorem State.valve_setValve_same (v : Nat) (x : Valve) : (s.setValve v x).valve v = x := Tbl.get_set_same ..
theorem State.valve_setValve_other (v : Nat) (x : Valve) {y : Nat} (h : y ≠ v) : (s.setValve v x).valve y = s.valve y := Tbl.get_set_other _ _ _ h

/-! ### setLeak changes haz -/

@[simp] theorem State.setLeak_pending (n : Nat) (x : LeakSensor) : (s.setLeak n x).pending = s.pending := rfl
@[simp] theorem State.setLeak_fresh (n : Nat) (x : LeakSensor) : (s.setLeak n x).fresh = s.fresh := rfl
@[simp] theorem State.setLeak_plinth (n : Nat) (x : LeakSensor) : (s.setLeak n x).plinth = s.plinth := rfl
@[simp] theorem State.setLeak_pwr (n : Nat) (x : LeakSensor) : (s.setLeak n x).pwr = s.pwr := rfl
@[simp] theorem State.setLeak_rst (n : Nat) (x : LeakSensor) : (s.setLeak n x).rst = s.rst := rfl
@[simp] theorem State.setLeak_led (n : Nat) (x : LeakSensor) : (s.setLeak n x).led = s.led := rfl
@[simp] theorem State.setLeak_ob (n : Nat) (x : LeakSensor) : (s.setLeak n x).ob = s.ob := rfl
@[simp] theorem State.setLeak_pins (n : Nat) (x : LeakSensor) : (s.setLeak n x).pins = s.pins := rfl
@[simp] theorem State.setLeak_maq (n : Nat) (x : LeakSensor) : (s.setLeak n x).maq = s.maq := rfl
@[simp] theorem State.setLeak_boot (n : Nat) (x : LeakSensor) : (s.setLeak n x).boot = s.boot := rfl
@[simp] theorem State.setLeak_debug (n : Nat) (x : LeakSensor) : (s.setLeak n x).debug = s.debug := rfl
@[simp] theorem State.setLeak_seq (n : Nat) (x : LeakSensor) : (s.setLeak n x).seq = s.seq := rfl
@[simp] theorem State.setLeak_svy (n : Nat) (x : LeakSensor) : (s.setLeak n x).svy = s.svy := rfl
@[simp] theorem State.setLeak_rcnt (n : Nat) (x : LeakSensor) : (s.setLeak n x).rcnt = s.rcnt := rfl
@[simp] theorem State.setLeak_log (n : Nat) (x : LeakSensor) : (s.setLeak n x).log = s.log := rfl
@[simp] theorem State.setLeak_snap (n : Nat) (x : LeakSensor) : (s.setLeak n x).snap = s.snap := rfl
@[simp] theorem State.setLeak_mem (n : Nat) (x : LeakSensor) : (s.setLeak n x).mem = s.mem := rfl
@[simp] theorem State.setLeak_cap (n : Nat) (x : LeakSensor) : (s.setLeak n x).cap = s.cap := rfl
@[simp] theorem State.setLeak_rel (n : Nat) (x : LeakSensor) : (s.setLeak n x).rel = s.rel := rfl
@[simp] theorem State.setLeak_met (n : Nat) (x : LeakSensor) : (s.setLeak n x).met = s.met := rfl
@[simp] theorem State.setLeak_pat (n : Nat) (x : LeakSensor) : (s.setLeak n x).pat = s.pat := rfl
@[simp] theorem State.setLeak_pnt (n : Nat) (x : LeakSensor) : (s.setLeak n x).pnt = s.pnt := rfl
@[simp] theorem State.setLeak_cool (n : Nat) (x : LeakSensor) : (s.setLeak n x).cool = s.cool := rfl
@[simp] theorem State.setLeak_chi (n : Nat) (x : LeakSensor) : (s.setLeak n x).chi = s.chi := rfl
@[simp] theorem State.setLeak_ckpt (n : Nat) (x : LeakSensor) : (s.setLeak n x).ckpt = s.ckpt := rfl
@[simp] theorem State.setLeak_cal (n : Nat) (x : LeakSensor) : (s.setLeak n x).cal = s.cal := rfl
@[simp] theorem State.setLeak_jrn (n : Nat) (x : LeakSensor) : (s.setLeak n x).jrn = s.jrn := rfl
@[simp] theorem State.setLeak_gimg (n : Nat) (x : LeakSensor) : (s.setLeak n x).gimg = s.gimg := rfl
@[simp] theorem State.setLeak_selfTest (n : Nat) (x : LeakSensor) : (s.setLeak n x).selfTest = s.selfTest := rfl
@[simp] theorem State.setLeak_ques (n : Nat) (x : LeakSensor) : (s.setLeak n x).ques = s.ques := rfl
@[simp] theorem State.setLeak_mov (n : Nat) (x : LeakSensor) : (s.setLeak n x).mov = s.mov := rfl
@[simp] theorem State.setLeak_ebx (n : Nat) (x : LeakSensor) : (s.setLeak n x).ebx = s.ebx := rfl
@[simp] theorem State.setLeak_evt (n : Nat) (x : LeakSensor) : (s.setLeak n x).evt = s.evt := rfl
@[simp] theorem State.setLeak_mgt (n : Nat) (x : LeakSensor) : (s.setLeak n x).mgt = s.mgt := rfl
@[simp] theorem State.setLeak_pair (n : Nat) (x : LeakSensor) : (s.setLeak n x).pair = s.pair := rfl
@[simp] theorem State.setLeak_acc (n : Nat) (x : LeakSensor) : (s.setLeak n x).acc = s.acc := rfl
@[simp] theorem State.setLeak_flash0 (n : Nat) (x : LeakSensor) : (s.setLeak n x).flash0 = s.flash0 := rfl
@[simp] theorem State.setLeak_flash1 (n : Nat) (x : LeakSensor) : (s.setLeak n x).flash1 = s.flash1 := rfl
@[simp] theorem State.setLeak_dram (n : Nat) (x : LeakSensor) : (s.setLeak n x).dram = s.dram := rfl
@[simp] theorem State.setLeak_out (n : Nat) (x : LeakSensor) : (s.setLeak n x).out = s.out := rfl
@[simp] theorem State.leak_setLeak_same (n : Nat) (x : LeakSensor) : (s.setLeak n x).leak n = x := Tbl.get_set_same ..
theorem State.leak_setLeak_other (n : Nat) (x : LeakSensor) {y : Nat} (h : y ≠ n) : (s.setLeak n x).leak y = s.leak y := Tbl.get_set_other _ _ _ h

/-! ### setLzone changes haz -/

@[simp] theorem State.setLzone_pending (z : Nat) (x : LeakZone) : (s.setLzone z x).pending = s.pending := rfl
@[simp] theorem State.setLzone_fresh (z : Nat) (x : LeakZone) : (s.setLzone z x).fresh = s.fresh := rfl
@[simp] theorem State.setLzone_plinth (z : Nat) (x : LeakZone) : (s.setLzone z x).plinth = s.plinth := rfl
@[simp] theorem State.setLzone_pwr (z : Nat) (x : LeakZone) : (s.setLzone z x).pwr = s.pwr := rfl
@[simp] theorem State.setLzone_rst (z : Nat) (x : LeakZone) : (s.setLzone z x).rst = s.rst := rfl
@[simp] theorem State.setLzone_led (z : Nat) (x : LeakZone) : (s.setLzone z x).led = s.led := rfl
@[simp] theorem State.setLzone_ob (z : Nat) (x : LeakZone) : (s.setLzone z x).ob = s.ob := rfl
@[simp] theorem State.setLzone_pins (z : Nat) (x : LeakZone) : (s.setLzone z x).pins = s.pins := rfl
@[simp] theorem State.setLzone_maq (z : Nat) (x : LeakZone) : (s.setLzone z x).maq = s.maq := rfl
@[simp] theorem State.setLzone_boot (z : Nat) (x : LeakZone) : (s.setLzone z x).boot = s.boot := rfl
@[simp] theorem State.setLzone_debug (z : Nat) (x : LeakZone) : (s.setLzone z x).debug = s.debug := rfl
@[simp] theorem State.setLzone_seq (z : Nat) (x : LeakZone) : (s.setLzone z x).seq = s.seq := rfl
@[simp] theorem State.setLzone_svy (z : Nat) (x : LeakZone) : (s.setLzone z x).svy = s.svy := rfl
@[simp] theorem State.setLzone_rcnt (z : Nat) (x : LeakZone) : (s.setLzone z x).rcnt = s.rcnt := rfl
@[simp] theorem State.setLzone_log (z : Nat) (x : LeakZone) : (s.setLzone z x).log = s.log := rfl
@[simp] theorem State.setLzone_snap (z : Nat) (x : LeakZone) : (s.setLzone z x).snap = s.snap := rfl
@[simp] theorem State.setLzone_mem (z : Nat) (x : LeakZone) : (s.setLzone z x).mem = s.mem := rfl
@[simp] theorem State.setLzone_cap (z : Nat) (x : LeakZone) : (s.setLzone z x).cap = s.cap := rfl
@[simp] theorem State.setLzone_rel (z : Nat) (x : LeakZone) : (s.setLzone z x).rel = s.rel := rfl
@[simp] theorem State.setLzone_met (z : Nat) (x : LeakZone) : (s.setLzone z x).met = s.met := rfl
@[simp] theorem State.setLzone_pat (z : Nat) (x : LeakZone) : (s.setLzone z x).pat = s.pat := rfl
@[simp] theorem State.setLzone_pnt (z : Nat) (x : LeakZone) : (s.setLzone z x).pnt = s.pnt := rfl
@[simp] theorem State.setLzone_cool (z : Nat) (x : LeakZone) : (s.setLzone z x).cool = s.cool := rfl
@[simp] theorem State.setLzone_chi (z : Nat) (x : LeakZone) : (s.setLzone z x).chi = s.chi := rfl
@[simp] theorem State.setLzone_ckpt (z : Nat) (x : LeakZone) : (s.setLzone z x).ckpt = s.ckpt := rfl
@[simp] theorem State.setLzone_cal (z : Nat) (x : LeakZone) : (s.setLzone z x).cal = s.cal := rfl
@[simp] theorem State.setLzone_jrn (z : Nat) (x : LeakZone) : (s.setLzone z x).jrn = s.jrn := rfl
@[simp] theorem State.setLzone_gimg (z : Nat) (x : LeakZone) : (s.setLzone z x).gimg = s.gimg := rfl
@[simp] theorem State.setLzone_selfTest (z : Nat) (x : LeakZone) : (s.setLzone z x).selfTest = s.selfTest := rfl
@[simp] theorem State.setLzone_ques (z : Nat) (x : LeakZone) : (s.setLzone z x).ques = s.ques := rfl
@[simp] theorem State.setLzone_mov (z : Nat) (x : LeakZone) : (s.setLzone z x).mov = s.mov := rfl
@[simp] theorem State.setLzone_ebx (z : Nat) (x : LeakZone) : (s.setLzone z x).ebx = s.ebx := rfl
@[simp] theorem State.setLzone_evt (z : Nat) (x : LeakZone) : (s.setLzone z x).evt = s.evt := rfl
@[simp] theorem State.setLzone_mgt (z : Nat) (x : LeakZone) : (s.setLzone z x).mgt = s.mgt := rfl
@[simp] theorem State.setLzone_pair (z : Nat) (x : LeakZone) : (s.setLzone z x).pair = s.pair := rfl
@[simp] theorem State.setLzone_acc (z : Nat) (x : LeakZone) : (s.setLzone z x).acc = s.acc := rfl
@[simp] theorem State.setLzone_flash0 (z : Nat) (x : LeakZone) : (s.setLzone z x).flash0 = s.flash0 := rfl
@[simp] theorem State.setLzone_flash1 (z : Nat) (x : LeakZone) : (s.setLzone z x).flash1 = s.flash1 := rfl
@[simp] theorem State.setLzone_dram (z : Nat) (x : LeakZone) : (s.setLzone z x).dram = s.dram := rfl
@[simp] theorem State.setLzone_out (z : Nat) (x : LeakZone) : (s.setLzone z x).out = s.out := rfl
@[simp] theorem State.lzone_setLzone_same (z : Nat) (x : LeakZone) : (s.setLzone z x).lzone z = x := Tbl.get_set_same ..
theorem State.lzone_setLzone_other (z : Nat) (x : LeakZone) {y : Nat} (h : y ≠ z) : (s.setLzone z x).lzone y = s.lzone y := Tbl.get_set_other _ _ _ h

/-! ### setJpair changes jrn -/

@[simp] theorem State.setJpair_pending (p : Nat) (x : JPair) : (s.setJpair p x).pending = s.pending := rfl
@[simp] theorem State.setJpair_fresh (p : Nat) (x : JPair) : (s.setJpair p x).fresh = s.fresh := rfl
@[simp] theorem State.setJpair_plinth (p : Nat) (x : JPair) : (s.setJpair p x).plinth = s.plinth := rfl
@[simp] theorem State.setJpair_pwr (p : Nat) (x : JPair) : (s.setJpair p x).pwr = s.pwr := rfl
@[simp] theorem State.setJpair_rst (p : Nat) (x : JPair) : (s.setJpair p x).rst = s.rst := rfl
@[simp] theorem State.setJpair_led (p : Nat) (x : JPair) : (s.setJpair p x).led = s.led := rfl
@[simp] theorem State.setJpair_ob (p : Nat) (x : JPair) : (s.setJpair p x).ob = s.ob := rfl
@[simp] theorem State.setJpair_pins (p : Nat) (x : JPair) : (s.setJpair p x).pins = s.pins := rfl
@[simp] theorem State.setJpair_maq (p : Nat) (x : JPair) : (s.setJpair p x).maq = s.maq := rfl
@[simp] theorem State.setJpair_boot (p : Nat) (x : JPair) : (s.setJpair p x).boot = s.boot := rfl
@[simp] theorem State.setJpair_debug (p : Nat) (x : JPair) : (s.setJpair p x).debug = s.debug := rfl
@[simp] theorem State.setJpair_seq (p : Nat) (x : JPair) : (s.setJpair p x).seq = s.seq := rfl
@[simp] theorem State.setJpair_svy (p : Nat) (x : JPair) : (s.setJpair p x).svy = s.svy := rfl
@[simp] theorem State.setJpair_rcnt (p : Nat) (x : JPair) : (s.setJpair p x).rcnt = s.rcnt := rfl
@[simp] theorem State.setJpair_log (p : Nat) (x : JPair) : (s.setJpair p x).log = s.log := rfl
@[simp] theorem State.setJpair_snap (p : Nat) (x : JPair) : (s.setJpair p x).snap = s.snap := rfl
@[simp] theorem State.setJpair_mem (p : Nat) (x : JPair) : (s.setJpair p x).mem = s.mem := rfl
@[simp] theorem State.setJpair_cap (p : Nat) (x : JPair) : (s.setJpair p x).cap = s.cap := rfl
@[simp] theorem State.setJpair_rel (p : Nat) (x : JPair) : (s.setJpair p x).rel = s.rel := rfl
@[simp] theorem State.setJpair_met (p : Nat) (x : JPair) : (s.setJpair p x).met = s.met := rfl
@[simp] theorem State.setJpair_pat (p : Nat) (x : JPair) : (s.setJpair p x).pat = s.pat := rfl
@[simp] theorem State.setJpair_pnt (p : Nat) (x : JPair) : (s.setJpair p x).pnt = s.pnt := rfl
@[simp] theorem State.setJpair_haz (p : Nat) (x : JPair) : (s.setJpair p x).haz = s.haz := rfl
@[simp] theorem State.setJpair_cool (p : Nat) (x : JPair) : (s.setJpair p x).cool = s.cool := rfl
@[simp] theorem State.setJpair_chi (p : Nat) (x : JPair) : (s.setJpair p x).chi = s.chi := rfl
@[simp] theorem State.setJpair_ckpt (p : Nat) (x : JPair) : (s.setJpair p x).ckpt = s.ckpt := rfl
@[simp] theorem State.setJpair_cal (p : Nat) (x : JPair) : (s.setJpair p x).cal = s.cal := rfl
@[simp] theorem State.setJpair_gimg (p : Nat) (x : JPair) : (s.setJpair p x).gimg = s.gimg := rfl
@[simp] theorem State.setJpair_selfTest (p : Nat) (x : JPair) : (s.setJpair p x).selfTest = s.selfTest := rfl
@[simp] theorem State.setJpair_ques (p : Nat) (x : JPair) : (s.setJpair p x).ques = s.ques := rfl
@[simp] theorem State.setJpair_mov (p : Nat) (x : JPair) : (s.setJpair p x).mov = s.mov := rfl
@[simp] theorem State.setJpair_ebx (p : Nat) (x : JPair) : (s.setJpair p x).ebx = s.ebx := rfl
@[simp] theorem State.setJpair_evt (p : Nat) (x : JPair) : (s.setJpair p x).evt = s.evt := rfl
@[simp] theorem State.setJpair_mgt (p : Nat) (x : JPair) : (s.setJpair p x).mgt = s.mgt := rfl
@[simp] theorem State.setJpair_pair (p : Nat) (x : JPair) : (s.setJpair p x).pair = s.pair := rfl
@[simp] theorem State.setJpair_acc (p : Nat) (x : JPair) : (s.setJpair p x).acc = s.acc := rfl
@[simp] theorem State.setJpair_flash0 (p : Nat) (x : JPair) : (s.setJpair p x).flash0 = s.flash0 := rfl
@[simp] theorem State.setJpair_flash1 (p : Nat) (x : JPair) : (s.setJpair p x).flash1 = s.flash1 := rfl
@[simp] theorem State.setJpair_dram (p : Nat) (x : JPair) : (s.setJpair p x).dram = s.dram := rfl
@[simp] theorem State.setJpair_out (p : Nat) (x : JPair) : (s.setJpair p x).out = s.out := rfl
@[simp] theorem State.jpair_setJpair_same (p : Nat) (x : JPair) : (s.setJpair p x).jpair p = x := Tbl.get_set_same ..
theorem State.jpair_setJpair_other (p : Nat) (x : JPair) {y : Nat} (h : y ≠ p) : (s.setJpair p x).jpair y = s.jpair y := Tbl.get_set_other _ _ _ h

/-! ### setArm changes pnt -/

@[simp] theorem State.setArm_pending (i : Nat) (x : ArmEntry) : (s.setArm i x).pending = s.pending := rfl
@[simp] theorem State.setArm_fresh (i : Nat) (x : ArmEntry) : (s.setArm i x).fresh = s.fresh := rfl
@[simp] theorem State.setArm_plinth (i : Nat) (x : ArmEntry) : (s.setArm i x).plinth = s.plinth := rfl
@[simp] theorem State.setArm_pwr (i : Nat) (x : ArmEntry) : (s.setArm i x).pwr = s.pwr := rfl
@[simp] theorem State.setArm_rst (i : Nat) (x : ArmEntry) : (s.setArm i x).rst = s.rst := rfl
@[simp] theorem State.setArm_led (i : Nat) (x : ArmEntry) : (s.setArm i x).led = s.led := rfl
@[simp] theorem State.setArm_ob (i : Nat) (x : ArmEntry) : (s.setArm i x).ob = s.ob := rfl
@[simp] theorem State.setArm_pins (i : Nat) (x : ArmEntry) : (s.setArm i x).pins = s.pins := rfl
@[simp] theorem State.setArm_maq (i : Nat) (x : ArmEntry) : (s.setArm i x).maq = s.maq := rfl
@[simp] theorem State.setArm_boot (i : Nat) (x : ArmEntry) : (s.setArm i x).boot = s.boot := rfl
@[simp] theorem State.setArm_debug (i : Nat) (x : ArmEntry) : (s.setArm i x).debug = s.debug := rfl
@[simp] theorem State.setArm_seq (i : Nat) (x : ArmEntry) : (s.setArm i x).seq = s.seq := rfl
@[simp] theorem State.setArm_svy (i : Nat) (x : ArmEntry) : (s.setArm i x).svy = s.svy := rfl
@[simp] theorem State.setArm_rcnt (i : Nat) (x : ArmEntry) : (s.setArm i x).rcnt = s.rcnt := rfl
@[simp] theorem State.setArm_log (i : Nat) (x : ArmEntry) : (s.setArm i x).log = s.log := rfl
@[simp] theorem State.setArm_snap (i : Nat) (x : ArmEntry) : (s.setArm i x).snap = s.snap := rfl
@[simp] theorem State.setArm_mem (i : Nat) (x : ArmEntry) : (s.setArm i x).mem = s.mem := rfl
@[simp] theorem State.setArm_cap (i : Nat) (x : ArmEntry) : (s.setArm i x).cap = s.cap := rfl
@[simp] theorem State.setArm_rel (i : Nat) (x : ArmEntry) : (s.setArm i x).rel = s.rel := rfl
@[simp] theorem State.setArm_met (i : Nat) (x : ArmEntry) : (s.setArm i x).met = s.met := rfl
@[simp] theorem State.setArm_pat (i : Nat) (x : ArmEntry) : (s.setArm i x).pat = s.pat := rfl
@[simp] theorem State.setArm_haz (i : Nat) (x : ArmEntry) : (s.setArm i x).haz = s.haz := rfl
@[simp] theorem State.setArm_cool (i : Nat) (x : ArmEntry) : (s.setArm i x).cool = s.cool := rfl
@[simp] theorem State.setArm_chi (i : Nat) (x : ArmEntry) : (s.setArm i x).chi = s.chi := rfl
@[simp] theorem State.setArm_ckpt (i : Nat) (x : ArmEntry) : (s.setArm i x).ckpt = s.ckpt := rfl
@[simp] theorem State.setArm_cal (i : Nat) (x : ArmEntry) : (s.setArm i x).cal = s.cal := rfl
@[simp] theorem State.setArm_jrn (i : Nat) (x : ArmEntry) : (s.setArm i x).jrn = s.jrn := rfl
@[simp] theorem State.setArm_gimg (i : Nat) (x : ArmEntry) : (s.setArm i x).gimg = s.gimg := rfl
@[simp] theorem State.setArm_selfTest (i : Nat) (x : ArmEntry) : (s.setArm i x).selfTest = s.selfTest := rfl
@[simp] theorem State.setArm_ques (i : Nat) (x : ArmEntry) : (s.setArm i x).ques = s.ques := rfl
@[simp] theorem State.setArm_mov (i : Nat) (x : ArmEntry) : (s.setArm i x).mov = s.mov := rfl
@[simp] theorem State.setArm_ebx (i : Nat) (x : ArmEntry) : (s.setArm i x).ebx = s.ebx := rfl
@[simp] theorem State.setArm_evt (i : Nat) (x : ArmEntry) : (s.setArm i x).evt = s.evt := rfl
@[simp] theorem State.setArm_mgt (i : Nat) (x : ArmEntry) : (s.setArm i x).mgt = s.mgt := rfl
@[simp] theorem State.setArm_pair (i : Nat) (x : ArmEntry) : (s.setArm i x).pair = s.pair := rfl
@[simp] theorem State.setArm_acc (i : Nat) (x : ArmEntry) : (s.setArm i x).acc = s.acc := rfl
@[simp] theorem State.setArm_flash0 (i : Nat) (x : ArmEntry) : (s.setArm i x).flash0 = s.flash0 := rfl
@[simp] theorem State.setArm_flash1 (i : Nat) (x : ArmEntry) : (s.setArm i x).flash1 = s.flash1 := rfl
@[simp] theorem State.setArm_dram (i : Nat) (x : ArmEntry) : (s.setArm i x).dram = s.dram := rfl
@[simp] theorem State.setArm_out (i : Nat) (x : ArmEntry) : (s.setArm i x).out = s.out := rfl
@[simp] theorem State.arm_setArm_same (i : Nat) (x : ArmEntry) : (s.setArm i x).arm i = x := Tbl.get_set_same ..
theorem State.arm_setArm_other (i : Nat) (x : ArmEntry) {y : Nat} (h : y ≠ i) : (s.setArm i x).arm y = s.arm y := Tbl.get_set_other _ _ _ h

/-! ### setPeaks changes met -/

@[simp] theorem State.setPeaks_pending (n : Nat) (x : Peaks) : (s.setPeaks n x).pending = s.pending := rfl
@[simp] theorem State.setPeaks_fresh (n : Nat) (x : Peaks) : (s.setPeaks n x).fresh = s.fresh := rfl
@[simp] theorem State.setPeaks_plinth (n : Nat) (x : Peaks) : (s.setPeaks n x).plinth = s.plinth := rfl
@[simp] theorem State.setPeaks_pwr (n : Nat) (x : Peaks) : (s.setPeaks n x).pwr = s.pwr := rfl
@[simp] theorem State.setPeaks_rst (n : Nat) (x : Peaks) : (s.setPeaks n x).rst = s.rst := rfl
@[simp] theorem State.setPeaks_led (n : Nat) (x : Peaks) : (s.setPeaks n x).led = s.led := rfl
@[simp] theorem State.setPeaks_ob (n : Nat) (x : Peaks) : (s.setPeaks n x).ob = s.ob := rfl
@[simp] theorem State.setPeaks_pins (n : Nat) (x : Peaks) : (s.setPeaks n x).pins = s.pins := rfl
@[simp] theorem State.setPeaks_maq (n : Nat) (x : Peaks) : (s.setPeaks n x).maq = s.maq := rfl
@[simp] theorem State.setPeaks_boot (n : Nat) (x : Peaks) : (s.setPeaks n x).boot = s.boot := rfl
@[simp] theorem State.setPeaks_debug (n : Nat) (x : Peaks) : (s.setPeaks n x).debug = s.debug := rfl
@[simp] theorem State.setPeaks_seq (n : Nat) (x : Peaks) : (s.setPeaks n x).seq = s.seq := rfl
@[simp] theorem State.setPeaks_svy (n : Nat) (x : Peaks) : (s.setPeaks n x).svy = s.svy := rfl
@[simp] theorem State.setPeaks_rcnt (n : Nat) (x : Peaks) : (s.setPeaks n x).rcnt = s.rcnt := rfl
@[simp] theorem State.setPeaks_log (n : Nat) (x : Peaks) : (s.setPeaks n x).log = s.log := rfl
@[simp] theorem State.setPeaks_snap (n : Nat) (x : Peaks) : (s.setPeaks n x).snap = s.snap := rfl
@[simp] theorem State.setPeaks_mem (n : Nat) (x : Peaks) : (s.setPeaks n x).mem = s.mem := rfl
@[simp] theorem State.setPeaks_cap (n : Nat) (x : Peaks) : (s.setPeaks n x).cap = s.cap := rfl
@[simp] theorem State.setPeaks_rel (n : Nat) (x : Peaks) : (s.setPeaks n x).rel = s.rel := rfl
@[simp] theorem State.setPeaks_pat (n : Nat) (x : Peaks) : (s.setPeaks n x).pat = s.pat := rfl
@[simp] theorem State.setPeaks_pnt (n : Nat) (x : Peaks) : (s.setPeaks n x).pnt = s.pnt := rfl
@[simp] theorem State.setPeaks_haz (n : Nat) (x : Peaks) : (s.setPeaks n x).haz = s.haz := rfl
@[simp] theorem State.setPeaks_cool (n : Nat) (x : Peaks) : (s.setPeaks n x).cool = s.cool := rfl
@[simp] theorem State.setPeaks_chi (n : Nat) (x : Peaks) : (s.setPeaks n x).chi = s.chi := rfl
@[simp] theorem State.setPeaks_ckpt (n : Nat) (x : Peaks) : (s.setPeaks n x).ckpt = s.ckpt := rfl
@[simp] theorem State.setPeaks_cal (n : Nat) (x : Peaks) : (s.setPeaks n x).cal = s.cal := rfl
@[simp] theorem State.setPeaks_jrn (n : Nat) (x : Peaks) : (s.setPeaks n x).jrn = s.jrn := rfl
@[simp] theorem State.setPeaks_gimg (n : Nat) (x : Peaks) : (s.setPeaks n x).gimg = s.gimg := rfl
@[simp] theorem State.setPeaks_selfTest (n : Nat) (x : Peaks) : (s.setPeaks n x).selfTest = s.selfTest := rfl
@[simp] theorem State.setPeaks_ques (n : Nat) (x : Peaks) : (s.setPeaks n x).ques = s.ques := rfl
@[simp] theorem State.setPeaks_mov (n : Nat) (x : Peaks) : (s.setPeaks n x).mov = s.mov := rfl
@[simp] theorem State.setPeaks_ebx (n : Nat) (x : Peaks) : (s.setPeaks n x).ebx = s.ebx := rfl
@[simp] theorem State.setPeaks_evt (n : Nat) (x : Peaks) : (s.setPeaks n x).evt = s.evt := rfl
@[simp] theorem State.setPeaks_mgt (n : Nat) (x : Peaks) : (s.setPeaks n x).mgt = s.mgt := rfl
@[simp] theorem State.setPeaks_pair (n : Nat) (x : Peaks) : (s.setPeaks n x).pair = s.pair := rfl
@[simp] theorem State.setPeaks_acc (n : Nat) (x : Peaks) : (s.setPeaks n x).acc = s.acc := rfl
@[simp] theorem State.setPeaks_flash0 (n : Nat) (x : Peaks) : (s.setPeaks n x).flash0 = s.flash0 := rfl
@[simp] theorem State.setPeaks_flash1 (n : Nat) (x : Peaks) : (s.setPeaks n x).flash1 = s.flash1 := rfl
@[simp] theorem State.setPeaks_dram (n : Nat) (x : Peaks) : (s.setPeaks n x).dram = s.dram := rfl
@[simp] theorem State.setPeaks_out (n : Nat) (x : Peaks) : (s.setPeaks n x).out = s.out := rfl
@[simp] theorem State.peaks_setPeaks_same (n : Nat) (x : Peaks) : (s.setPeaks n x).peaks n = x := Tbl.get_set_same ..
theorem State.peaks_setPeaks_other (n : Nat) (x : Peaks) {y : Nat} (h : y ≠ n) : (s.setPeaks n x).peaks y = s.peaks y := Tbl.get_set_other _ _ _ h

/-! ### setCh changes mem -/

@[simp] theorem State.setCh_pending (n : Nat) (c : MemCh) : (s.setCh n c).pending = s.pending := rfl
@[simp] theorem State.setCh_fresh (n : Nat) (c : MemCh) : (s.setCh n c).fresh = s.fresh := rfl
@[simp] theorem State.setCh_plinth (n : Nat) (c : MemCh) : (s.setCh n c).plinth = s.plinth := rfl
@[simp] theorem State.setCh_pwr (n : Nat) (c : MemCh) : (s.setCh n c).pwr = s.pwr := rfl
@[simp] theorem State.setCh_rst (n : Nat) (c : MemCh) : (s.setCh n c).rst = s.rst := rfl
@[simp] theorem State.setCh_led (n : Nat) (c : MemCh) : (s.setCh n c).led = s.led := rfl
@[simp] theorem State.setCh_ob (n : Nat) (c : MemCh) : (s.setCh n c).ob = s.ob := rfl
@[simp] theorem State.setCh_pins (n : Nat) (c : MemCh) : (s.setCh n c).pins = s.pins := rfl
@[simp] theorem State.setCh_maq (n : Nat) (c : MemCh) : (s.setCh n c).maq = s.maq := rfl
@[simp] theorem State.setCh_boot (n : Nat) (c : MemCh) : (s.setCh n c).boot = s.boot := rfl
@[simp] theorem State.setCh_debug (n : Nat) (c : MemCh) : (s.setCh n c).debug = s.debug := rfl
@[simp] theorem State.setCh_seq (n : Nat) (c : MemCh) : (s.setCh n c).seq = s.seq := rfl
@[simp] theorem State.setCh_svy (n : Nat) (c : MemCh) : (s.setCh n c).svy = s.svy := rfl
@[simp] theorem State.setCh_rcnt (n : Nat) (c : MemCh) : (s.setCh n c).rcnt = s.rcnt := rfl
@[simp] theorem State.setCh_log (n : Nat) (c : MemCh) : (s.setCh n c).log = s.log := rfl
@[simp] theorem State.setCh_snap (n : Nat) (c : MemCh) : (s.setCh n c).snap = s.snap := rfl
@[simp] theorem State.setCh_cap (n : Nat) (c : MemCh) : (s.setCh n c).cap = s.cap := rfl
@[simp] theorem State.setCh_rel (n : Nat) (c : MemCh) : (s.setCh n c).rel = s.rel := rfl
@[simp] theorem State.setCh_met (n : Nat) (c : MemCh) : (s.setCh n c).met = s.met := rfl
@[simp] theorem State.setCh_pat (n : Nat) (c : MemCh) : (s.setCh n c).pat = s.pat := rfl
@[simp] theorem State.setCh_pnt (n : Nat) (c : MemCh) : (s.setCh n c).pnt = s.pnt := rfl
@[simp] theorem State.setCh_haz (n : Nat) (c : MemCh) : (s.setCh n c).haz = s.haz := rfl
@[simp] theorem State.setCh_cool (n : Nat) (c : MemCh) : (s.setCh n c).cool = s.cool := rfl
@[simp] theorem State.setCh_chi (n : Nat) (c : MemCh) : (s.setCh n c).chi = s.chi := rfl
@[simp] theorem State.setCh_ckpt (n : Nat) (c : MemCh) : (s.setCh n c).ckpt = s.ckpt := rfl
@[simp] theorem State.setCh_cal (n : Nat) (c : MemCh) : (s.setCh n c).cal = s.cal := rfl
@[simp] theorem State.setCh_jrn (n : Nat) (c : MemCh) : (s.setCh n c).jrn = s.jrn := rfl
@[simp] theorem State.setCh_gimg (n : Nat) (c : MemCh) : (s.setCh n c).gimg = s.gimg := rfl
@[simp] theorem State.setCh_selfTest (n : Nat) (c : MemCh) : (s.setCh n c).selfTest = s.selfTest := rfl
@[simp] theorem State.setCh_ques (n : Nat) (c : MemCh) : (s.setCh n c).ques = s.ques := rfl
@[simp] theorem State.setCh_mov (n : Nat) (c : MemCh) : (s.setCh n c).mov = s.mov := rfl
@[simp] theorem State.setCh_ebx (n : Nat) (c : MemCh) : (s.setCh n c).ebx = s.ebx := rfl
@[simp] theorem State.setCh_evt (n : Nat) (c : MemCh) : (s.setCh n c).evt = s.evt := rfl
@[simp] theorem State.setCh_mgt (n : Nat) (c : MemCh) : (s.setCh n c).mgt = s.mgt := rfl
@[simp] theorem State.setCh_pair (n : Nat) (c : MemCh) : (s.setCh n c).pair = s.pair := rfl
@[simp] theorem State.setCh_acc (n : Nat) (c : MemCh) : (s.setCh n c).acc = s.acc := rfl
@[simp] theorem State.setCh_flash0 (n : Nat) (c : MemCh) : (s.setCh n c).flash0 = s.flash0 := rfl
@[simp] theorem State.setCh_flash1 (n : Nat) (c : MemCh) : (s.setCh n c).flash1 = s.flash1 := rfl
@[simp] theorem State.setCh_dram (n : Nat) (c : MemCh) : (s.setCh n c).dram = s.dram := rfl
@[simp] theorem State.setCh_out (n : Nat) (c : MemCh) : (s.setCh n c).out = s.out := rfl
@[simp] theorem State.ch_setCh_same (n : Nat) (c : MemCh) : (s.setCh n c).ch n = c := Tbl.get_set_same ..
theorem State.ch_setCh_other (n : Nat) (c : MemCh) {y : Nat} (h : y ≠ n) : (s.setCh n c).ch y = s.ch y := Tbl.get_set_other _ _ _ h

/-! ### setSite changes seq -/

@[simp] theorem State.setSite_pending (n : Nat) (x : Site) : (s.setSite n x).pending = s.pending := rfl
@[simp] theorem State.setSite_fresh (n : Nat) (x : Site) : (s.setSite n x).fresh = s.fresh := rfl
@[simp] theorem State.setSite_plinth (n : Nat) (x : Site) : (s.setSite n x).plinth = s.plinth := rfl
@[simp] theorem State.setSite_pwr (n : Nat) (x : Site) : (s.setSite n x).pwr = s.pwr := rfl
@[simp] theorem State.setSite_rst (n : Nat) (x : Site) : (s.setSite n x).rst = s.rst := rfl
@[simp] theorem State.setSite_led (n : Nat) (x : Site) : (s.setSite n x).led = s.led := rfl
@[simp] theorem State.setSite_ob (n : Nat) (x : Site) : (s.setSite n x).ob = s.ob := rfl
@[simp] theorem State.setSite_pins (n : Nat) (x : Site) : (s.setSite n x).pins = s.pins := rfl
@[simp] theorem State.setSite_maq (n : Nat) (x : Site) : (s.setSite n x).maq = s.maq := rfl
@[simp] theorem State.setSite_boot (n : Nat) (x : Site) : (s.setSite n x).boot = s.boot := rfl
@[simp] theorem State.setSite_debug (n : Nat) (x : Site) : (s.setSite n x).debug = s.debug := rfl
@[simp] theorem State.setSite_svy (n : Nat) (x : Site) : (s.setSite n x).svy = s.svy := rfl
@[simp] theorem State.setSite_rcnt (n : Nat) (x : Site) : (s.setSite n x).rcnt = s.rcnt := rfl
@[simp] theorem State.setSite_log (n : Nat) (x : Site) : (s.setSite n x).log = s.log := rfl
@[simp] theorem State.setSite_snap (n : Nat) (x : Site) : (s.setSite n x).snap = s.snap := rfl
@[simp] theorem State.setSite_mem (n : Nat) (x : Site) : (s.setSite n x).mem = s.mem := rfl
@[simp] theorem State.setSite_cap (n : Nat) (x : Site) : (s.setSite n x).cap = s.cap := rfl
@[simp] theorem State.setSite_rel (n : Nat) (x : Site) : (s.setSite n x).rel = s.rel := rfl
@[simp] theorem State.setSite_met (n : Nat) (x : Site) : (s.setSite n x).met = s.met := rfl
@[simp] theorem State.setSite_pat (n : Nat) (x : Site) : (s.setSite n x).pat = s.pat := rfl
@[simp] theorem State.setSite_pnt (n : Nat) (x : Site) : (s.setSite n x).pnt = s.pnt := rfl
@[simp] theorem State.setSite_haz (n : Nat) (x : Site) : (s.setSite n x).haz = s.haz := rfl
@[simp] theorem State.setSite_cool (n : Nat) (x : Site) : (s.setSite n x).cool = s.cool := rfl
@[simp] theorem State.setSite_chi (n : Nat) (x : Site) : (s.setSite n x).chi = s.chi := rfl
@[simp] theorem State.setSite_ckpt (n : Nat) (x : Site) : (s.setSite n x).ckpt = s.ckpt := rfl
@[simp] theorem State.setSite_cal (n : Nat) (x : Site) : (s.setSite n x).cal = s.cal := rfl
@[simp] theorem State.setSite_jrn (n : Nat) (x : Site) : (s.setSite n x).jrn = s.jrn := rfl
@[simp] theorem State.setSite_gimg (n : Nat) (x : Site) : (s.setSite n x).gimg = s.gimg := rfl
@[simp] theorem State.setSite_selfTest (n : Nat) (x : Site) : (s.setSite n x).selfTest = s.selfTest := rfl
@[simp] theorem State.setSite_ques (n : Nat) (x : Site) : (s.setSite n x).ques = s.ques := rfl
@[simp] theorem State.setSite_mov (n : Nat) (x : Site) : (s.setSite n x).mov = s.mov := rfl
@[simp] theorem State.setSite_ebx (n : Nat) (x : Site) : (s.setSite n x).ebx = s.ebx := rfl
@[simp] theorem State.setSite_evt (n : Nat) (x : Site) : (s.setSite n x).evt = s.evt := rfl
@[simp] theorem State.setSite_mgt (n : Nat) (x : Site) : (s.setSite n x).mgt = s.mgt := rfl
@[simp] theorem State.setSite_pair (n : Nat) (x : Site) : (s.setSite n x).pair = s.pair := rfl
@[simp] theorem State.setSite_acc (n : Nat) (x : Site) : (s.setSite n x).acc = s.acc := rfl
@[simp] theorem State.setSite_flash0 (n : Nat) (x : Site) : (s.setSite n x).flash0 = s.flash0 := rfl
@[simp] theorem State.setSite_flash1 (n : Nat) (x : Site) : (s.setSite n x).flash1 = s.flash1 := rfl
@[simp] theorem State.setSite_dram (n : Nat) (x : Site) : (s.setSite n x).dram = s.dram := rfl
@[simp] theorem State.setSite_out (n : Nat) (x : Site) : (s.setSite n x).out = s.out := rfl
@[simp] theorem State.site_setSite_same (n : Nat) (x : Site) : (s.setSite n x).site n = x := Tbl.get_set_same ..
theorem State.site_setSite_other (n : Nat) (x : Site) {y : Nat} (h : y ≠ n) : (s.setSite n x).site y = s.site y := Tbl.get_set_other _ _ _ h

/-! ### setChan changes svy -/

@[simp] theorem State.setChan_pending (c : Nat) (x : Chan) : (s.setChan c x).pending = s.pending := rfl
@[simp] theorem State.setChan_fresh (c : Nat) (x : Chan) : (s.setChan c x).fresh = s.fresh := rfl
@[simp] theorem State.setChan_plinth (c : Nat) (x : Chan) : (s.setChan c x).plinth = s.plinth := rfl
@[simp] theorem State.setChan_pwr (c : Nat) (x : Chan) : (s.setChan c x).pwr = s.pwr := rfl
@[simp] theorem State.setChan_rst (c : Nat) (x : Chan) : (s.setChan c x).rst = s.rst := rfl
@[simp] theorem State.setChan_led (c : Nat) (x : Chan) : (s.setChan c x).led = s.led := rfl
@[simp] theorem State.setChan_ob (c : Nat) (x : Chan) : (s.setChan c x).ob = s.ob := rfl
@[simp] theorem State.setChan_pins (c : Nat) (x : Chan) : (s.setChan c x).pins = s.pins := rfl
@[simp] theorem State.setChan_maq (c : Nat) (x : Chan) : (s.setChan c x).maq = s.maq := rfl
@[simp] theorem State.setChan_boot (c : Nat) (x : Chan) : (s.setChan c x).boot = s.boot := rfl
@[simp] theorem State.setChan_debug (c : Nat) (x : Chan) : (s.setChan c x).debug = s.debug := rfl
@[simp] theorem State.setChan_seq (c : Nat) (x : Chan) : (s.setChan c x).seq = s.seq := rfl
@[simp] theorem State.setChan_rcnt (c : Nat) (x : Chan) : (s.setChan c x).rcnt = s.rcnt := rfl
@[simp] theorem State.setChan_log (c : Nat) (x : Chan) : (s.setChan c x).log = s.log := rfl
@[simp] theorem State.setChan_snap (c : Nat) (x : Chan) : (s.setChan c x).snap = s.snap := rfl
@[simp] theorem State.setChan_mem (c : Nat) (x : Chan) : (s.setChan c x).mem = s.mem := rfl
@[simp] theorem State.setChan_cap (c : Nat) (x : Chan) : (s.setChan c x).cap = s.cap := rfl
@[simp] theorem State.setChan_rel (c : Nat) (x : Chan) : (s.setChan c x).rel = s.rel := rfl
@[simp] theorem State.setChan_met (c : Nat) (x : Chan) : (s.setChan c x).met = s.met := rfl
@[simp] theorem State.setChan_pat (c : Nat) (x : Chan) : (s.setChan c x).pat = s.pat := rfl
@[simp] theorem State.setChan_pnt (c : Nat) (x : Chan) : (s.setChan c x).pnt = s.pnt := rfl
@[simp] theorem State.setChan_haz (c : Nat) (x : Chan) : (s.setChan c x).haz = s.haz := rfl
@[simp] theorem State.setChan_cool (c : Nat) (x : Chan) : (s.setChan c x).cool = s.cool := rfl
@[simp] theorem State.setChan_chi (c : Nat) (x : Chan) : (s.setChan c x).chi = s.chi := rfl
@[simp] theorem State.setChan_ckpt (c : Nat) (x : Chan) : (s.setChan c x).ckpt = s.ckpt := rfl
@[simp] theorem State.setChan_cal (c : Nat) (x : Chan) : (s.setChan c x).cal = s.cal := rfl
@[simp] theorem State.setChan_jrn (c : Nat) (x : Chan) : (s.setChan c x).jrn = s.jrn := rfl
@[simp] theorem State.setChan_gimg (c : Nat) (x : Chan) : (s.setChan c x).gimg = s.gimg := rfl
@[simp] theorem State.setChan_selfTest (c : Nat) (x : Chan) : (s.setChan c x).selfTest = s.selfTest := rfl
@[simp] theorem State.setChan_ques (c : Nat) (x : Chan) : (s.setChan c x).ques = s.ques := rfl
@[simp] theorem State.setChan_mov (c : Nat) (x : Chan) : (s.setChan c x).mov = s.mov := rfl
@[simp] theorem State.setChan_ebx (c : Nat) (x : Chan) : (s.setChan c x).ebx = s.ebx := rfl
@[simp] theorem State.setChan_evt (c : Nat) (x : Chan) : (s.setChan c x).evt = s.evt := rfl
@[simp] theorem State.setChan_mgt (c : Nat) (x : Chan) : (s.setChan c x).mgt = s.mgt := rfl
@[simp] theorem State.setChan_pair (c : Nat) (x : Chan) : (s.setChan c x).pair = s.pair := rfl
@[simp] theorem State.setChan_acc (c : Nat) (x : Chan) : (s.setChan c x).acc = s.acc := rfl
@[simp] theorem State.setChan_flash0 (c : Nat) (x : Chan) : (s.setChan c x).flash0 = s.flash0 := rfl
@[simp] theorem State.setChan_flash1 (c : Nat) (x : Chan) : (s.setChan c x).flash1 = s.flash1 := rfl
@[simp] theorem State.setChan_dram (c : Nat) (x : Chan) : (s.setChan c x).dram = s.dram := rfl
@[simp] theorem State.setChan_out (c : Nat) (x : Chan) : (s.setChan c x).out = s.out := rfl
@[simp] theorem State.chan_setChan_same (c : Nat) (x : Chan) : (s.setChan c x).chan c = x := Tbl.get_set_same ..
theorem State.chan_setChan_other (c : Nat) (x : Chan) {y : Nat} (h : y ≠ c) : (s.setChan c x).chan y = s.chan y := Tbl.get_set_other _ _ _ h

/-! ### setQueue changes ques -/

@[simp] theorem State.setQueue_pending (q : Nat) (x : Queue) : (s.setQueue q x).pending = s.pending := rfl
@[simp] theorem State.setQueue_fresh (q : Nat) (x : Queue) : (s.setQueue q x).fresh = s.fresh := rfl
@[simp] theorem State.setQueue_plinth (q : Nat) (x : Queue) : (s.setQueue q x).plinth = s.plinth := rfl
@[simp] theorem State.setQueue_pwr (q : Nat) (x : Queue) : (s.setQueue q x).pwr = s.pwr := rfl
@[simp] theorem State.setQueue_rst (q : Nat) (x : Queue) : (s.setQueue q x).rst = s.rst := rfl
@[simp] theorem State.setQueue_led (q : Nat) (x : Queue) : (s.setQueue q x).led = s.led := rfl
@[simp] theorem State.setQueue_ob (q : Nat) (x : Queue) : (s.setQueue q x).ob = s.ob := rfl
@[simp] theorem State.setQueue_pins (q : Nat) (x : Queue) : (s.setQueue q x).pins = s.pins := rfl
@[simp] theorem State.setQueue_maq (q : Nat) (x : Queue) : (s.setQueue q x).maq = s.maq := rfl
@[simp] theorem State.setQueue_boot (q : Nat) (x : Queue) : (s.setQueue q x).boot = s.boot := rfl
@[simp] theorem State.setQueue_debug (q : Nat) (x : Queue) : (s.setQueue q x).debug = s.debug := rfl
@[simp] theorem State.setQueue_seq (q : Nat) (x : Queue) : (s.setQueue q x).seq = s.seq := rfl
@[simp] theorem State.setQueue_svy (q : Nat) (x : Queue) : (s.setQueue q x).svy = s.svy := rfl
@[simp] theorem State.setQueue_rcnt (q : Nat) (x : Queue) : (s.setQueue q x).rcnt = s.rcnt := rfl
@[simp] theorem State.setQueue_log (q : Nat) (x : Queue) : (s.setQueue q x).log = s.log := rfl
@[simp] theorem State.setQueue_snap (q : Nat) (x : Queue) : (s.setQueue q x).snap = s.snap := rfl
@[simp] theorem State.setQueue_mem (q : Nat) (x : Queue) : (s.setQueue q x).mem = s.mem := rfl
@[simp] theorem State.setQueue_cap (q : Nat) (x : Queue) : (s.setQueue q x).cap = s.cap := rfl
@[simp] theorem State.setQueue_rel (q : Nat) (x : Queue) : (s.setQueue q x).rel = s.rel := rfl
@[simp] theorem State.setQueue_met (q : Nat) (x : Queue) : (s.setQueue q x).met = s.met := rfl
@[simp] theorem State.setQueue_pat (q : Nat) (x : Queue) : (s.setQueue q x).pat = s.pat := rfl
@[simp] theorem State.setQueue_pnt (q : Nat) (x : Queue) : (s.setQueue q x).pnt = s.pnt := rfl
@[simp] theorem State.setQueue_haz (q : Nat) (x : Queue) : (s.setQueue q x).haz = s.haz := rfl
@[simp] theorem State.setQueue_cool (q : Nat) (x : Queue) : (s.setQueue q x).cool = s.cool := rfl
@[simp] theorem State.setQueue_chi (q : Nat) (x : Queue) : (s.setQueue q x).chi = s.chi := rfl
@[simp] theorem State.setQueue_ckpt (q : Nat) (x : Queue) : (s.setQueue q x).ckpt = s.ckpt := rfl
@[simp] theorem State.setQueue_cal (q : Nat) (x : Queue) : (s.setQueue q x).cal = s.cal := rfl
@[simp] theorem State.setQueue_jrn (q : Nat) (x : Queue) : (s.setQueue q x).jrn = s.jrn := rfl
@[simp] theorem State.setQueue_gimg (q : Nat) (x : Queue) : (s.setQueue q x).gimg = s.gimg := rfl
@[simp] theorem State.setQueue_selfTest (q : Nat) (x : Queue) : (s.setQueue q x).selfTest = s.selfTest := rfl
@[simp] theorem State.setQueue_mov (q : Nat) (x : Queue) : (s.setQueue q x).mov = s.mov := rfl
@[simp] theorem State.setQueue_ebx (q : Nat) (x : Queue) : (s.setQueue q x).ebx = s.ebx := rfl
@[simp] theorem State.setQueue_evt (q : Nat) (x : Queue) : (s.setQueue q x).evt = s.evt := rfl
@[simp] theorem State.setQueue_mgt (q : Nat) (x : Queue) : (s.setQueue q x).mgt = s.mgt := rfl
@[simp] theorem State.setQueue_pair (q : Nat) (x : Queue) : (s.setQueue q x).pair = s.pair := rfl
@[simp] theorem State.setQueue_acc (q : Nat) (x : Queue) : (s.setQueue q x).acc = s.acc := rfl
@[simp] theorem State.setQueue_flash0 (q : Nat) (x : Queue) : (s.setQueue q x).flash0 = s.flash0 := rfl
@[simp] theorem State.setQueue_flash1 (q : Nat) (x : Queue) : (s.setQueue q x).flash1 = s.flash1 := rfl
@[simp] theorem State.setQueue_dram (q : Nat) (x : Queue) : (s.setQueue q x).dram = s.dram := rfl
@[simp] theorem State.setQueue_out (q : Nat) (x : Queue) : (s.setQueue q x).out = s.out := rfl
@[simp] theorem State.queue_setQueue_same (q : Nat) (x : Queue) : (s.setQueue q x).queue q = x := Tbl.get_set_same ..
theorem State.queue_setQueue_other (q : Nat) (x : Queue) {y : Nat} (h : y ≠ q) : (s.setQueue q x).queue y = s.queue y := Tbl.get_set_other _ _ _ h

/-! ### emit changes out -/

@[simp] theorem State.emit_pending (o : Out) : (s.emit o).pending = s.pending := rfl
@[simp] theorem State.emit_fresh (o : Out) : (s.emit o).fresh = s.fresh := rfl
@[simp] theorem State.emit_plinth (o : Out) : (s.emit o).plinth = s.plinth := rfl
@[simp] theorem State.emit_pwr (o : Out) : (s.emit o).pwr = s.pwr := rfl
@[simp] theorem State.emit_rst (o : Out) : (s.emit o).rst = s.rst := rfl
@[simp] theorem State.emit_led (o : Out) : (s.emit o).led = s.led := rfl
@[simp] theorem State.emit_ob (o : Out) : (s.emit o).ob = s.ob := rfl
@[simp] theorem State.emit_pins (o : Out) : (s.emit o).pins = s.pins := rfl
@[simp] theorem State.emit_maq (o : Out) : (s.emit o).maq = s.maq := rfl
@[simp] theorem State.emit_boot (o : Out) : (s.emit o).boot = s.boot := rfl
@[simp] theorem State.emit_debug (o : Out) : (s.emit o).debug = s.debug := rfl
@[simp] theorem State.emit_seq (o : Out) : (s.emit o).seq = s.seq := rfl
@[simp] theorem State.emit_svy (o : Out) : (s.emit o).svy = s.svy := rfl
@[simp] theorem State.emit_rcnt (o : Out) : (s.emit o).rcnt = s.rcnt := rfl
@[simp] theorem State.emit_log (o : Out) : (s.emit o).log = s.log := rfl
@[simp] theorem State.emit_snap (o : Out) : (s.emit o).snap = s.snap := rfl
@[simp] theorem State.emit_mem (o : Out) : (s.emit o).mem = s.mem := rfl
@[simp] theorem State.emit_cap (o : Out) : (s.emit o).cap = s.cap := rfl
@[simp] theorem State.emit_rel (o : Out) : (s.emit o).rel = s.rel := rfl
@[simp] theorem State.emit_met (o : Out) : (s.emit o).met = s.met := rfl
@[simp] theorem State.emit_pat (o : Out) : (s.emit o).pat = s.pat := rfl
@[simp] theorem State.emit_pnt (o : Out) : (s.emit o).pnt = s.pnt := rfl
@[simp] theorem State.emit_haz (o : Out) : (s.emit o).haz = s.haz := rfl
@[simp] theorem State.emit_cool (o : Out) : (s.emit o).cool = s.cool := rfl
@[simp] theorem State.emit_chi (o : Out) : (s.emit o).chi = s.chi := rfl
@[simp] theorem State.emit_ckpt (o : Out) : (s.emit o).ckpt = s.ckpt := rfl
@[simp] theorem State.emit_cal (o : Out) : (s.emit o).cal = s.cal := rfl
@[simp] theorem State.emit_jrn (o : Out) : (s.emit o).jrn = s.jrn := rfl
@[simp] theorem State.emit_gimg (o : Out) : (s.emit o).gimg = s.gimg := rfl
@[simp] theorem State.emit_selfTest (o : Out) : (s.emit o).selfTest = s.selfTest := rfl
@[simp] theorem State.emit_ques (o : Out) : (s.emit o).ques = s.ques := rfl
@[simp] theorem State.emit_mov (o : Out) : (s.emit o).mov = s.mov := rfl
@[simp] theorem State.emit_ebx (o : Out) : (s.emit o).ebx = s.ebx := rfl
@[simp] theorem State.emit_evt (o : Out) : (s.emit o).evt = s.evt := rfl
@[simp] theorem State.emit_mgt (o : Out) : (s.emit o).mgt = s.mgt := rfl
@[simp] theorem State.emit_pair (o : Out) : (s.emit o).pair = s.pair := rfl
@[simp] theorem State.emit_acc (o : Out) : (s.emit o).acc = s.acc := rfl
@[simp] theorem State.emit_flash0 (o : Out) : (s.emit o).flash0 = s.flash0 := rfl
@[simp] theorem State.emit_flash1 (o : Out) : (s.emit o).flash1 = s.flash1 := rfl
@[simp] theorem State.emit_dram (o : Out) : (s.emit o).dram = s.dram := rfl

/-! ### setPair changes pair -/

@[simp] theorem State.setPair_pending (f : Pair → Pair) : (s.setPair f).pending = s.pending := rfl
@[simp] theorem State.setPair_fresh (f : Pair → Pair) : (s.setPair f).fresh = s.fresh := rfl
@[simp] theorem State.setPair_plinth (f : Pair → Pair) : (s.setPair f).plinth = s.plinth := rfl
@[simp] theorem State.setPair_pwr (f : Pair → Pair) : (s.setPair f).pwr = s.pwr := rfl
@[simp] theorem State.setPair_rst (f : Pair → Pair) : (s.setPair f).rst = s.rst := rfl
@[simp] theorem State.setPair_led (f : Pair → Pair) : (s.setPair f).led = s.led := rfl
@[simp] theorem State.setPair_ob (f : Pair → Pair) : (s.setPair f).ob = s.ob := rfl
@[simp] theorem State.setPair_pins (f : Pair → Pair) : (s.setPair f).pins = s.pins := rfl
@[simp] theorem State.setPair_maq (f : Pair → Pair) : (s.setPair f).maq = s.maq := rfl
@[simp] theorem State.setPair_boot (f : Pair → Pair) : (s.setPair f).boot = s.boot := rfl
@[simp] theorem State.setPair_debug (f : Pair → Pair) : (s.setPair f).debug = s.debug := rfl
@[simp] theorem State.setPair_seq (f : Pair → Pair) : (s.setPair f).seq = s.seq := rfl
@[simp] theorem State.setPair_svy (f : Pair → Pair) : (s.setPair f).svy = s.svy := rfl
@[simp] theorem State.setPair_rcnt (f : Pair → Pair) : (s.setPair f).rcnt = s.rcnt := rfl
@[simp] theorem State.setPair_log (f : Pair → Pair) : (s.setPair f).log = s.log := rfl
@[simp] theorem State.setPair_snap (f : Pair → Pair) : (s.setPair f).snap = s.snap := rfl
@[simp] theorem State.setPair_mem (f : Pair → Pair) : (s.setPair f).mem = s.mem := rfl
@[simp] theorem State.setPair_cap (f : Pair → Pair) : (s.setPair f).cap = s.cap := rfl
@[simp] theorem State.setPair_rel (f : Pair → Pair) : (s.setPair f).rel = s.rel := rfl
@[simp] theorem State.setPair_met (f : Pair → Pair) : (s.setPair f).met = s.met := rfl
@[simp] theorem State.setPair_pat (f : Pair → Pair) : (s.setPair f).pat = s.pat := rfl
@[simp] theorem State.setPair_pnt (f : Pair → Pair) : (s.setPair f).pnt = s.pnt := rfl
@[simp] theorem State.setPair_haz (f : Pair → Pair) : (s.setPair f).haz = s.haz := rfl
@[simp] theorem State.setPair_cool (f : Pair → Pair) : (s.setPair f).cool = s.cool := rfl
@[simp] theorem State.setPair_chi (f : Pair → Pair) : (s.setPair f).chi = s.chi := rfl
@[simp] theorem State.setPair_ckpt (f : Pair → Pair) : (s.setPair f).ckpt = s.ckpt := rfl
@[simp] theorem State.setPair_cal (f : Pair → Pair) : (s.setPair f).cal = s.cal := rfl
@[simp] theorem State.setPair_jrn (f : Pair → Pair) : (s.setPair f).jrn = s.jrn := rfl
@[simp] theorem State.setPair_gimg (f : Pair → Pair) : (s.setPair f).gimg = s.gimg := rfl
@[simp] theorem State.setPair_selfTest (f : Pair → Pair) : (s.setPair f).selfTest = s.selfTest := rfl
@[simp] theorem State.setPair_ques (f : Pair → Pair) : (s.setPair f).ques = s.ques := rfl
@[simp] theorem State.setPair_mov (f : Pair → Pair) : (s.setPair f).mov = s.mov := rfl
@[simp] theorem State.setPair_ebx (f : Pair → Pair) : (s.setPair f).ebx = s.ebx := rfl
@[simp] theorem State.setPair_evt (f : Pair → Pair) : (s.setPair f).evt = s.evt := rfl
@[simp] theorem State.setPair_mgt (f : Pair → Pair) : (s.setPair f).mgt = s.mgt := rfl
@[simp] theorem State.setPair_acc (f : Pair → Pair) : (s.setPair f).acc = s.acc := rfl
@[simp] theorem State.setPair_flash0 (f : Pair → Pair) : (s.setPair f).flash0 = s.flash0 := rfl
@[simp] theorem State.setPair_flash1 (f : Pair → Pair) : (s.setPair f).flash1 = s.flash1 := rfl
@[simp] theorem State.setPair_dram (f : Pair → Pair) : (s.setPair f).dram = s.dram := rfl
@[simp] theorem State.setPair_out (f : Pair → Pair) : (s.setPair f).out = s.out := rfl

/-! ### setLine changes pnt -/

@[simp] theorem State.setLine_pending (n : Nat) (x : SyncLine) : (s.setLine n x).pending = s.pending := rfl
@[simp] theorem State.setLine_fresh (n : Nat) (x : SyncLine) : (s.setLine n x).fresh = s.fresh := rfl
@[simp] theorem State.setLine_plinth (n : Nat) (x : SyncLine) : (s.setLine n x).plinth = s.plinth := rfl
@[simp] theorem State.setLine_pwr (n : Nat) (x : SyncLine) : (s.setLine n x).pwr = s.pwr := rfl
@[simp] theorem State.setLine_rst (n : Nat) (x : SyncLine) : (s.setLine n x).rst = s.rst := rfl
@[simp] theorem State.setLine_led (n : Nat) (x : SyncLine) : (s.setLine n x).led = s.led := rfl
@[simp] theorem State.setLine_ob (n : Nat) (x : SyncLine) : (s.setLine n x).ob = s.ob := rfl
@[simp] theorem State.setLine_pins (n : Nat) (x : SyncLine) : (s.setLine n x).pins = s.pins := rfl
@[simp] theorem State.setLine_maq (n : Nat) (x : SyncLine) : (s.setLine n x).maq = s.maq := rfl
@[simp] theorem State.setLine_boot (n : Nat) (x : SyncLine) : (s.setLine n x).boot = s.boot := rfl
@[simp] theorem State.setLine_debug (n : Nat) (x : SyncLine) : (s.setLine n x).debug = s.debug := rfl
@[simp] theorem State.setLine_seq (n : Nat) (x : SyncLine) : (s.setLine n x).seq = s.seq := rfl
@[simp] theorem State.setLine_svy (n : Nat) (x : SyncLine) : (s.setLine n x).svy = s.svy := rfl
@[simp] theorem State.setLine_rcnt (n : Nat) (x : SyncLine) : (s.setLine n x).rcnt = s.rcnt := rfl
@[simp] theorem State.setLine_log (n : Nat) (x : SyncLine) : (s.setLine n x).log = s.log := rfl
@[simp] theorem State.setLine_snap (n : Nat) (x : SyncLine) : (s.setLine n x).snap = s.snap := rfl
@[simp] theorem State.setLine_mem (n : Nat) (x : SyncLine) : (s.setLine n x).mem = s.mem := rfl
@[simp] theorem State.setLine_cap (n : Nat) (x : SyncLine) : (s.setLine n x).cap = s.cap := rfl
@[simp] theorem State.setLine_rel (n : Nat) (x : SyncLine) : (s.setLine n x).rel = s.rel := rfl
@[simp] theorem State.setLine_met (n : Nat) (x : SyncLine) : (s.setLine n x).met = s.met := rfl
@[simp] theorem State.setLine_pat (n : Nat) (x : SyncLine) : (s.setLine n x).pat = s.pat := rfl
@[simp] theorem State.setLine_haz (n : Nat) (x : SyncLine) : (s.setLine n x).haz = s.haz := rfl
@[simp] theorem State.setLine_cool (n : Nat) (x : SyncLine) : (s.setLine n x).cool = s.cool := rfl
@[simp] theorem State.setLine_chi (n : Nat) (x : SyncLine) : (s.setLine n x).chi = s.chi := rfl
@[simp] theorem State.setLine_ckpt (n : Nat) (x : SyncLine) : (s.setLine n x).ckpt = s.ckpt := rfl
@[simp] theorem State.setLine_cal (n : Nat) (x : SyncLine) : (s.setLine n x).cal = s.cal := rfl
@[simp] theorem State.setLine_jrn (n : Nat) (x : SyncLine) : (s.setLine n x).jrn = s.jrn := rfl
@[simp] theorem State.setLine_gimg (n : Nat) (x : SyncLine) : (s.setLine n x).gimg = s.gimg := rfl
@[simp] theorem State.setLine_selfTest (n : Nat) (x : SyncLine) : (s.setLine n x).selfTest = s.selfTest := rfl
@[simp] theorem State.setLine_ques (n : Nat) (x : SyncLine) : (s.setLine n x).ques = s.ques := rfl
@[simp] theorem State.setLine_mov (n : Nat) (x : SyncLine) : (s.setLine n x).mov = s.mov := rfl
@[simp] theorem State.setLine_ebx (n : Nat) (x : SyncLine) : (s.setLine n x).ebx = s.ebx := rfl
@[simp] theorem State.setLine_evt (n : Nat) (x : SyncLine) : (s.setLine n x).evt = s.evt := rfl
@[simp] theorem State.setLine_mgt (n : Nat) (x : SyncLine) : (s.setLine n x).mgt = s.mgt := rfl
@[simp] theorem State.setLine_pair (n : Nat) (x : SyncLine) : (s.setLine n x).pair = s.pair := rfl
@[simp] theorem State.setLine_acc (n : Nat) (x : SyncLine) : (s.setLine n x).acc = s.acc := rfl
@[simp] theorem State.setLine_flash0 (n : Nat) (x : SyncLine) : (s.setLine n x).flash0 = s.flash0 := rfl
@[simp] theorem State.setLine_flash1 (n : Nat) (x : SyncLine) : (s.setLine n x).flash1 = s.flash1 := rfl
@[simp] theorem State.setLine_dram (n : Nat) (x : SyncLine) : (s.setLine n x).dram = s.dram := rfl
@[simp] theorem State.setLine_out (n : Nat) (x : SyncLine) : (s.setLine n x).out = s.out := rfl
@[simp] theorem State.line_setLine_same (n : Nat) (x : SyncLine) : (s.setLine n x).line n = x := Tbl.get_set_same ..
theorem State.line_setLine_other (n : Nat) (x : SyncLine) {y : Nat} (h : y ≠ n) : (s.setLine n x).line y = s.line y := Tbl.get_set_other _ _ _ h

/-! ### setRailCnt changes rcnt -/

@[simp] theorem State.setRailCnt_pending (g : Nat) (x : RailCnt) : (s.setRailCnt g x).pending = s.pending := rfl
@[simp] theorem State.setRailCnt_fresh (g : Nat) (x : RailCnt) : (s.setRailCnt g x).fresh = s.fresh := rfl
@[simp] theorem State.setRailCnt_plinth (g : Nat) (x : RailCnt) : (s.setRailCnt g x).plinth = s.plinth := rfl
@[simp] theorem State.setRailCnt_pwr (g : Nat) (x : RailCnt) : (s.setRailCnt g x).pwr = s.pwr := rfl
@[simp] theorem State.setRailCnt_rst (g : Nat) (x : RailCnt) : (s.setRailCnt g x).rst = s.rst := rfl
@[simp] theorem State.setRailCnt_led (g : Nat) (x : RailCnt) : (s.setRailCnt g x).led = s.led := rfl
@[simp] theorem State.setRailCnt_ob (g : Nat) (x : RailCnt) : (s.setRailCnt g x).ob = s.ob := rfl
@[simp] theorem State.setRailCnt_pins (g : Nat) (x : RailCnt) : (s.setRailCnt g x).pins = s.pins := rfl
@[simp] theorem State.setRailCnt_maq (g : Nat) (x : RailCnt) : (s.setRailCnt g x).maq = s.maq := rfl
@[simp] theorem State.setRailCnt_boot (g : Nat) (x : RailCnt) : (s.setRailCnt g x).boot = s.boot := rfl
@[simp] theorem State.setRailCnt_debug (g : Nat) (x : RailCnt) : (s.setRailCnt g x).debug = s.debug := rfl
@[simp] theorem State.setRailCnt_seq (g : Nat) (x : RailCnt) : (s.setRailCnt g x).seq = s.seq := rfl
@[simp] theorem State.setRailCnt_svy (g : Nat) (x : RailCnt) : (s.setRailCnt g x).svy = s.svy := rfl
@[simp] theorem State.setRailCnt_log (g : Nat) (x : RailCnt) : (s.setRailCnt g x).log = s.log := rfl
@[simp] theorem State.setRailCnt_snap (g : Nat) (x : RailCnt) : (s.setRailCnt g x).snap = s.snap := rfl
@[simp] theorem State.setRailCnt_mem (g : Nat) (x : RailCnt) : (s.setRailCnt g x).mem = s.mem := rfl
@[simp] theorem State.setRailCnt_cap (g : Nat) (x : RailCnt) : (s.setRailCnt g x).cap = s.cap := rfl
@[simp] theorem State.setRailCnt_rel (g : Nat) (x : RailCnt) : (s.setRailCnt g x).rel = s.rel := rfl
@[simp] theorem State.setRailCnt_met (g : Nat) (x : RailCnt) : (s.setRailCnt g x).met = s.met := rfl
@[simp] theorem State.setRailCnt_pat (g : Nat) (x : RailCnt) : (s.setRailCnt g x).pat = s.pat := rfl
@[simp] theorem State.setRailCnt_pnt (g : Nat) (x : RailCnt) : (s.setRailCnt g x).pnt = s.pnt := rfl
@[simp] theorem State.setRailCnt_haz (g : Nat) (x : RailCnt) : (s.setRailCnt g x).haz = s.haz := rfl
@[simp] theorem State.setRailCnt_cool (g : Nat) (x : RailCnt) : (s.setRailCnt g x).cool = s.cool := rfl
@[simp] theorem State.setRailCnt_chi (g : Nat) (x : RailCnt) : (s.setRailCnt g x).chi = s.chi := rfl
@[simp] theorem State.setRailCnt_ckpt (g : Nat) (x : RailCnt) : (s.setRailCnt g x).ckpt = s.ckpt := rfl
@[simp] theorem State.setRailCnt_cal (g : Nat) (x : RailCnt) : (s.setRailCnt g x).cal = s.cal := rfl
@[simp] theorem State.setRailCnt_jrn (g : Nat) (x : RailCnt) : (s.setRailCnt g x).jrn = s.jrn := rfl
@[simp] theorem State.setRailCnt_gimg (g : Nat) (x : RailCnt) : (s.setRailCnt g x).gimg = s.gimg := rfl
@[simp] theorem State.setRailCnt_selfTest (g : Nat) (x : RailCnt) : (s.setRailCnt g x).selfTest = s.selfTest := rfl
@[simp] theorem State.setRailCnt_ques (g : Nat) (x : RailCnt) : (s.setRailCnt g x).ques = s.ques := rfl
@[simp] theorem State.setRailCnt_mov (g : Nat) (x : RailCnt) : (s.setRailCnt g x).mov = s.mov := rfl
@[simp] theorem State.setRailCnt_ebx (g : Nat) (x : RailCnt) : (s.setRailCnt g x).ebx = s.ebx := rfl
@[simp] theorem State.setRailCnt_evt (g : Nat) (x : RailCnt) : (s.setRailCnt g x).evt = s.evt := rfl
@[simp] theorem State.setRailCnt_mgt (g : Nat) (x : RailCnt) : (s.setRailCnt g x).mgt = s.mgt := rfl
@[simp] theorem State.setRailCnt_pair (g : Nat) (x : RailCnt) : (s.setRailCnt g x).pair = s.pair := rfl
@[simp] theorem State.setRailCnt_acc (g : Nat) (x : RailCnt) : (s.setRailCnt g x).acc = s.acc := rfl
@[simp] theorem State.setRailCnt_flash0 (g : Nat) (x : RailCnt) : (s.setRailCnt g x).flash0 = s.flash0 := rfl
@[simp] theorem State.setRailCnt_flash1 (g : Nat) (x : RailCnt) : (s.setRailCnt g x).flash1 = s.flash1 := rfl
@[simp] theorem State.setRailCnt_dram (g : Nat) (x : RailCnt) : (s.setRailCnt g x).dram = s.dram := rfl
@[simp] theorem State.setRailCnt_out (g : Nat) (x : RailCnt) : (s.setRailCnt g x).out = s.out := rfl
@[simp] theorem State.railCnt_setRailCnt_same (g : Nat) (x : RailCnt) : (s.setRailCnt g x).railCnt g = x := Tbl.get_set_same ..
theorem State.railCnt_setRailCnt_other (g : Nat) (x : RailCnt) {y : Nat} (h : y ≠ g) : (s.setRailCnt g x).railCnt y = s.railCnt y := Tbl.get_set_other _ _ _ h

/-! ### setPb changes acc -/

@[simp] theorem State.setPb_pending (p : Path) (blk : Nat) (x : PathBlock) : (s.setPb p blk x).pending = s.pending := rfl
@[simp] theorem State.setPb_fresh (p : Path) (blk : Nat) (x : PathBlock) : (s.setPb p blk x).fresh = s.fresh := rfl
@[simp] theorem State.setPb_plinth (p : Path) (blk : Nat) (x : PathBlock) : (s.setPb p blk x).plinth = s.plinth := rfl
@[simp] theorem State.setPb_pwr (p : Path) (blk : Nat) (x : PathBlock) : (s.setPb p blk x).pwr = s.pwr := rfl
@[simp] theorem State.setPb_rst (p : Path) (blk : Nat) (x : PathBlock) : (s.setPb p blk x).rst = s.rst := rfl
@[simp] theorem State.setPb_led (p : Path) (blk : Nat) (x : PathBlock) : (s.setPb p blk x).led = s.led := rfl
@[simp] theorem State.setPb_ob (p : Path) (blk : Nat) (x : PathBlock) : (s.setPb p blk x).ob = s.ob := rfl
@[simp] theorem State.setPb_pins (p : Path) (blk : Nat) (x : PathBlock) : (s.setPb p blk x).pins = s.pins := rfl
@[simp] theorem State.setPb_maq (p : Path) (blk : Nat) (x : PathBlock) : (s.setPb p blk x).maq = s.maq := rfl
@[simp] theorem State.setPb_boot (p : Path) (blk : Nat) (x : PathBlock) : (s.setPb p blk x).boot = s.boot := rfl
@[simp] theorem State.setPb_debug (p : Path) (blk : Nat) (x : PathBlock) : (s.setPb p blk x).debug = s.debug := rfl
@[simp] theorem State.setPb_seq (p : Path) (blk : Nat) (x : PathBlock) : (s.setPb p blk x).seq = s.seq := rfl
@[simp] theorem State.setPb_svy (p : Path) (blk : Nat) (x : PathBlock) : (s.setPb p blk x).svy = s.svy := rfl
@[simp] theorem State.setPb_rcnt (p : Path) (blk : Nat) (x : PathBlock) : (s.setPb p blk x).rcnt = s.rcnt := rfl
@[simp] theorem State.setPb_log (p : Path) (blk : Nat) (x : PathBlock) : (s.setPb p blk x).log = s.log := rfl
@[simp] theorem State.setPb_snap (p : Path) (blk : Nat) (x : PathBlock) : (s.setPb p blk x).snap = s.snap := rfl
@[simp] theorem State.setPb_mem (p : Path) (blk : Nat) (x : PathBlock) : (s.setPb p blk x).mem = s.mem := rfl
@[simp] theorem State.setPb_cap (p : Path) (blk : Nat) (x : PathBlock) : (s.setPb p blk x).cap = s.cap := rfl
@[simp] theorem State.setPb_rel (p : Path) (blk : Nat) (x : PathBlock) : (s.setPb p blk x).rel = s.rel := rfl
@[simp] theorem State.setPb_met (p : Path) (blk : Nat) (x : PathBlock) : (s.setPb p blk x).met = s.met := rfl
@[simp] theorem State.setPb_pat (p : Path) (blk : Nat) (x : PathBlock) : (s.setPb p blk x).pat = s.pat := rfl
@[simp] theorem State.setPb_pnt (p : Path) (blk : Nat) (x : PathBlock) : (s.setPb p blk x).pnt = s.pnt := rfl
@[simp] theorem State.setPb_haz (p : Path) (blk : Nat) (x : PathBlock) : (s.setPb p blk x).haz = s.haz := rfl
@[simp] theorem State.setPb_cool (p : Path) (blk : Nat) (x : PathBlock) : (s.setPb p blk x).cool = s.cool := rfl
@[simp] theorem State.setPb_chi (p : Path) (blk : Nat) (x : PathBlock) : (s.setPb p blk x).chi = s.chi := rfl
@[simp] theorem State.setPb_ckpt (p : Path) (blk : Nat) (x : PathBlock) : (s.setPb p blk x).ckpt = s.ckpt := rfl
@[simp] theorem State.setPb_cal (p : Path) (blk : Nat) (x : PathBlock) : (s.setPb p blk x).cal = s.cal := rfl
@[simp] theorem State.setPb_jrn (p : Path) (blk : Nat) (x : PathBlock) : (s.setPb p blk x).jrn = s.jrn := rfl
@[simp] theorem State.setPb_gimg (p : Path) (blk : Nat) (x : PathBlock) : (s.setPb p blk x).gimg = s.gimg := rfl
@[simp] theorem State.setPb_selfTest (p : Path) (blk : Nat) (x : PathBlock) : (s.setPb p blk x).selfTest = s.selfTest := rfl
@[simp] theorem State.setPb_ques (p : Path) (blk : Nat) (x : PathBlock) : (s.setPb p blk x).ques = s.ques := rfl
@[simp] theorem State.setPb_mov (p : Path) (blk : Nat) (x : PathBlock) : (s.setPb p blk x).mov = s.mov := rfl
@[simp] theorem State.setPb_ebx (p : Path) (blk : Nat) (x : PathBlock) : (s.setPb p blk x).ebx = s.ebx := rfl
@[simp] theorem State.setPb_evt (p : Path) (blk : Nat) (x : PathBlock) : (s.setPb p blk x).evt = s.evt := rfl
@[simp] theorem State.setPb_mgt (p : Path) (blk : Nat) (x : PathBlock) : (s.setPb p blk x).mgt = s.mgt := rfl
@[simp] theorem State.setPb_pair (p : Path) (blk : Nat) (x : PathBlock) : (s.setPb p blk x).pair = s.pair := rfl
@[simp] theorem State.setPb_flash0 (p : Path) (blk : Nat) (x : PathBlock) : (s.setPb p blk x).flash0 = s.flash0 := rfl
@[simp] theorem State.setPb_flash1 (p : Path) (blk : Nat) (x : PathBlock) : (s.setPb p blk x).flash1 = s.flash1 := rfl
@[simp] theorem State.setPb_dram (p : Path) (blk : Nat) (x : PathBlock) : (s.setPb p blk x).dram = s.dram := rfl
@[simp] theorem State.setPb_out (p : Path) (blk : Nat) (x : PathBlock) : (s.setPb p blk x).out = s.out := rfl

/-! ### setChiS changes chi -/

@[simp] theorem State.setChiS_pending (n : Nat) (x : ChiselSite) : (s.setChiS n x).pending = s.pending := rfl
@[simp] theorem State.setChiS_fresh (n : Nat) (x : ChiselSite) : (s.setChiS n x).fresh = s.fresh := rfl
@[simp] theorem State.setChiS_plinth (n : Nat) (x : ChiselSite) : (s.setChiS n x).plinth = s.plinth := rfl
@[simp] theorem State.setChiS_pwr (n : Nat) (x : ChiselSite) : (s.setChiS n x).pwr = s.pwr := rfl
@[simp] theorem State.setChiS_rst (n : Nat) (x : ChiselSite) : (s.setChiS n x).rst = s.rst := rfl
@[simp] theorem State.setChiS_led (n : Nat) (x : ChiselSite) : (s.setChiS n x).led = s.led := rfl
@[simp] theorem State.setChiS_ob (n : Nat) (x : ChiselSite) : (s.setChiS n x).ob = s.ob := rfl
@[simp] theorem State.setChiS_pins (n : Nat) (x : ChiselSite) : (s.setChiS n x).pins = s.pins := rfl
@[simp] theorem State.setChiS_maq (n : Nat) (x : ChiselSite) : (s.setChiS n x).maq = s.maq := rfl
@[simp] theorem State.setChiS_boot (n : Nat) (x : ChiselSite) : (s.setChiS n x).boot = s.boot := rfl
@[simp] theorem State.setChiS_debug (n : Nat) (x : ChiselSite) : (s.setChiS n x).debug = s.debug := rfl
@[simp] theorem State.setChiS_seq (n : Nat) (x : ChiselSite) : (s.setChiS n x).seq = s.seq := rfl
@[simp] theorem State.setChiS_svy (n : Nat) (x : ChiselSite) : (s.setChiS n x).svy = s.svy := rfl
@[simp] theorem State.setChiS_rcnt (n : Nat) (x : ChiselSite) : (s.setChiS n x).rcnt = s.rcnt := rfl
@[simp] theorem State.setChiS_log (n : Nat) (x : ChiselSite) : (s.setChiS n x).log = s.log := rfl
@[simp] theorem State.setChiS_snap (n : Nat) (x : ChiselSite) : (s.setChiS n x).snap = s.snap := rfl
@[simp] theorem State.setChiS_mem (n : Nat) (x : ChiselSite) : (s.setChiS n x).mem = s.mem := rfl
@[simp] theorem State.setChiS_cap (n : Nat) (x : ChiselSite) : (s.setChiS n x).cap = s.cap := rfl
@[simp] theorem State.setChiS_rel (n : Nat) (x : ChiselSite) : (s.setChiS n x).rel = s.rel := rfl
@[simp] theorem State.setChiS_met (n : Nat) (x : ChiselSite) : (s.setChiS n x).met = s.met := rfl
@[simp] theorem State.setChiS_pat (n : Nat) (x : ChiselSite) : (s.setChiS n x).pat = s.pat := rfl
@[simp] theorem State.setChiS_pnt (n : Nat) (x : ChiselSite) : (s.setChiS n x).pnt = s.pnt := rfl
@[simp] theorem State.setChiS_haz (n : Nat) (x : ChiselSite) : (s.setChiS n x).haz = s.haz := rfl
@[simp] theorem State.setChiS_cool (n : Nat) (x : ChiselSite) : (s.setChiS n x).cool = s.cool := rfl
@[simp] theorem State.setChiS_ckpt (n : Nat) (x : ChiselSite) : (s.setChiS n x).ckpt = s.ckpt := rfl
@[simp] theorem State.setChiS_cal (n : Nat) (x : ChiselSite) : (s.setChiS n x).cal = s.cal := rfl
@[simp] theorem State.setChiS_jrn (n : Nat) (x : ChiselSite) : (s.setChiS n x).jrn = s.jrn := rfl
@[simp] theorem State.setChiS_gimg (n : Nat) (x : ChiselSite) : (s.setChiS n x).gimg = s.gimg := rfl
@[simp] theorem State.setChiS_selfTest (n : Nat) (x : ChiselSite) : (s.setChiS n x).selfTest = s.selfTest := rfl
@[simp] theorem State.setChiS_ques (n : Nat) (x : ChiselSite) : (s.setChiS n x).ques = s.ques := rfl
@[simp] theorem State.setChiS_mov (n : Nat) (x : ChiselSite) : (s.setChiS n x).mov = s.mov := rfl
@[simp] theorem State.setChiS_ebx (n : Nat) (x : ChiselSite) : (s.setChiS n x).ebx = s.ebx := rfl
@[simp] theorem State.setChiS_evt (n : Nat) (x : ChiselSite) : (s.setChiS n x).evt = s.evt := rfl
@[simp] theorem State.setChiS_mgt (n : Nat) (x : ChiselSite) : (s.setChiS n x).mgt = s.mgt := rfl
@[simp] theorem State.setChiS_pair (n : Nat) (x : ChiselSite) : (s.setChiS n x).pair = s.pair := rfl
@[simp] theorem State.setChiS_acc (n : Nat) (x : ChiselSite) : (s.setChiS n x).acc = s.acc := rfl
@[simp] theorem State.setChiS_flash0 (n : Nat) (x : ChiselSite) : (s.setChiS n x).flash0 = s.flash0 := rfl
@[simp] theorem State.setChiS_flash1 (n : Nat) (x : ChiselSite) : (s.setChiS n x).flash1 = s.flash1 := rfl
@[simp] theorem State.setChiS_dram (n : Nat) (x : ChiselSite) : (s.setChiS n x).dram = s.dram := rfl
@[simp] theorem State.setChiS_out (n : Nat) (x : ChiselSite) : (s.setChiS n x).out = s.out := rfl
@[simp] theorem State.chiS_setChiS_same (n : Nat) (x : ChiselSite) : (s.setChiS n x).chiS n = x := Tbl.get_set_same ..
theorem State.chiS_setChiS_other (n : Nat) (x : ChiselSite) {y : Nat} (h : y ≠ n) : (s.setChiS n x).chiS y = s.chiS y := Tbl.get_set_other _ _ _ h

/-! ### setRail changes seq and pwr -/

@[simp] theorem State.setRail_pending (g : Nat) (r : Rail) : (s.setRail g r).pending = s.pending := rfl
@[simp] theorem State.setRail_fresh (g : Nat) (r : Rail) : (s.setRail g r).fresh = s.fresh := rfl
@[simp] theorem State.setRail_plinth (g : Nat) (r : Rail) : (s.setRail g r).plinth = s.plinth := rfl
@[simp] theorem State.setRail_rst (g : Nat) (r : Rail) : (s.setRail g r).rst = s.rst := rfl
@[simp] theorem State.setRail_led (g : Nat) (r : Rail) : (s.setRail g r).led = s.led := rfl
@[simp] theorem State.setRail_ob (g : Nat) (r : Rail) : (s.setRail g r).ob = s.ob := rfl
@[simp] theorem State.setRail_pins (g : Nat) (r : Rail) : (s.setRail g r).pins = s.pins := rfl
@[simp] theorem State.setRail_maq (g : Nat) (r : Rail) : (s.setRail g r).maq = s.maq := rfl
@[simp] theorem State.setRail_boot (g : Nat) (r : Rail) : (s.setRail g r).boot = s.boot := rfl
@[simp] theorem State.setRail_debug (g : Nat) (r : Rail) : (s.setRail g r).debug = s.debug := rfl
@[simp] theorem State.setRail_svy (g : Nat) (r : Rail) : (s.setRail g r).svy = s.svy := rfl
@[simp] theorem State.setRail_rcnt (g : Nat) (r : Rail) : (s.setRail g r).rcnt = s.rcnt := rfl
@[simp] theorem State.setRail_log (g : Nat) (r : Rail) : (s.setRail g r).log = s.log := rfl
@[simp] theorem State.setRail_snap (g : Nat) (r : Rail) : (s.setRail g r).snap = s.snap := rfl
@[simp] theorem State.setRail_mem (g : Nat) (r : Rail) : (s.setRail g r).mem = s.mem := rfl
@[simp] theorem State.setRail_cap (g : Nat) (r : Rail) : (s.setRail g r).cap = s.cap := rfl
@[simp] theorem State.setRail_rel (g : Nat) (r : Rail) : (s.setRail g r).rel = s.rel := rfl
@[simp] theorem State.setRail_met (g : Nat) (r : Rail) : (s.setRail g r).met = s.met := rfl
@[simp] theorem State.setRail_pat (g : Nat) (r : Rail) : (s.setRail g r).pat = s.pat := rfl
@[simp] theorem State.setRail_pnt (g : Nat) (r : Rail) : (s.setRail g r).pnt = s.pnt := rfl
@[simp] theorem State.setRail_haz (g : Nat) (r : Rail) : (s.setRail g r).haz = s.haz := rfl
@[simp] theorem State.setRail_cool (g : Nat) (r : Rail) : (s.setRail g r).cool = s.cool := rfl
@[simp] theorem State.setRail_chi (g : Nat) (r : Rail) : (s.setRail g r).chi = s.chi := rfl
@[simp] theorem State.setRail_ckpt (g : Nat) (r : Rail) : (s.setRail g r).ckpt = s.ckpt := rfl
@[simp] theorem State.setRail_cal (g : Nat) (r : Rail) : (s.setRail g r).cal = s.cal := rfl
@[simp] theorem State.setRail_jrn (g : Nat) (r : Rail) : (s.setRail g r).jrn = s.jrn := rfl
@[simp] theorem State.setRail_gimg (g : Nat) (r : Rail) : (s.setRail g r).gimg = s.gimg := rfl
@[simp] theorem State.setRail_selfTest (g : Nat) (r : Rail) : (s.setRail g r).selfTest = s.selfTest := rfl
@[simp] theorem State.setRail_ques (g : Nat) (r : Rail) : (s.setRail g r).ques = s.ques := rfl
@[simp] theorem State.setRail_mov (g : Nat) (r : Rail) : (s.setRail g r).mov = s.mov := rfl
@[simp] theorem State.setRail_ebx (g : Nat) (r : Rail) : (s.setRail g r).ebx = s.ebx := rfl
@[simp] theorem State.setRail_evt (g : Nat) (r : Rail) : (s.setRail g r).evt = s.evt := rfl
@[simp] theorem State.setRail_mgt (g : Nat) (r : Rail) : (s.setRail g r).mgt = s.mgt := rfl
@[simp] theorem State.setRail_pair (g : Nat) (r : Rail) : (s.setRail g r).pair = s.pair := rfl
@[simp] theorem State.setRail_acc (g : Nat) (r : Rail) : (s.setRail g r).acc = s.acc := rfl
@[simp] theorem State.setRail_flash0 (g : Nat) (r : Rail) : (s.setRail g r).flash0 = s.flash0 := rfl
@[simp] theorem State.setRail_flash1 (g : Nat) (r : Rail) : (s.setRail g r).flash1 = s.flash1 := rfl
@[simp] theorem State.setRail_dram (g : Nat) (r : Rail) : (s.setRail g r).dram = s.dram := rfl
@[simp] theorem State.setRail_out (g : Nat) (r : Rail) : (s.setRail g r).out = s.out := rfl
@[simp] theorem State.rail_setRail_same (g : Nat) (r : Rail) : (s.setRail g r).rail g = r := Tbl.get_set_same ..
theorem State.rail_setRail_other (g : Nat) (r : Rail) {y : Nat} (h : y ≠ g) : (s.setRail g r).rail y = s.rail y := Tbl.get_set_other _ _ _ h

end Sys2Proof.Machine
end

