-- ==== Sys2Proof/WellFormed.lean ====
section
/-!
DEFINITION. WellFormed.lean: when a command's operands fit the fields and numbers that carry them. An event of the
surroundings names a thing that exists (R10); a number in a request fits its field and is judged by the command (R11).
-/
namespace Sys2Proof

/-- A request's principal and TAG are 32-bit, and its queue is one of 0 to 7 (R439, R443, R469). -/
def Req.wf (r : Req) : Bool :=
  decide (r.principal < 2 ^ 32) && decide (r.tag < 2 ^ 32) && (r.queue.getD 0).blt 8

/-- A packet's fields fit the header of R456. -/
def Packet.wf (p : Packet) : Bool :=
  decide (p.cls < 256) && decide (p.status < 256) && decide (p.length < 2 ^ 16) && decide (p.srcEp < 2 ^ 12) &&
    decide (p.dstEp < 2 ^ 12) && decide (p.tag < 2 ^ 16) && decide (p.principal < 2 ^ 32) && decide (p.addr < 2 ^ 64)

/-- The operands of a command fit. -/
def Instr.wf : Instr → Bool
  | .powerOn => true
  | .standbyOn => true
  | .standbyOff => true
  | .inputGood profile _ mgmt _ supply => decide (profile < 4) && decide (mgmt < 4) && decide (supply.bus.v < 2 ^ 16)
  | .inputUndervoltageReset => true
  | .plinthSupervisorReset _ => true
  | .armatureWatchdogExpiry => true
  | .swResetModule r key => r.wf && decide (key < 2 ^ 64)
  | .swResetCoreDie r key => r.wf && decide (key < 2 ^ 64)
  | .swResetCaliper r key => r.wf && decide (key < 2 ^ 64)
  | .swResetArmature r key => r.wf && decide (key < 2 ^ 64)
  | .swResetRefused r value => r.wf && decide (value < 2 ^ 64)
  | .debugAuthorisedReset kind => decide (kind < 2 ^ 64)
  | .recoveryReqHold => true
  | .tjResetRelease => true
  | .standbyDiesUp _ => true
  | .maquetteStartLoad => true
  | .coreDomainUp _ => true
  | .dieIdentityCheck _ => true
  | .armatureLockstepCheck failed => decide (failed < 16)
  | .imageSlotChoice => true
  | .quarantineRelease => true
  | .romServicePlasterImage _ => true
  | .startStepTimeout step => decide (step < 21)
  | .startStepRetryTimer step _ => decide (step < 21)
  | .ledgerFlashMirror step => decide (step < 53)
  | .dimmTrainingDone ch _ _ _ rate capGB serial => decide (ch < 4) && decide (rate < 2 ^ 64) && decide (capGB < 2 ^ 64) && decide (serial < 2 ^ 64)
  | .journalRecovery => true
  | .caliperSelfTest failing => decide (failing < 2 ^ 16)
  | .siteImageDigestCheck => true
  | .fullServiceReported => true
  | .deferredBlockCheck block _ => decide (block < 2 ^ 64)
  | .commitDwellExpiry => true
  | .debugNonceRead _ prin => decide (prin < 2 ^ 32)
  | .identityKeysReady => true
  | .maqStore r _ _ => r.wf
  | .maqSwitch r _ => r.wf
  | .maqCancel r _ => r.wf
  | .maqVerify r _ => r.wf
  | .maqSetMinVersion r _ => r.wf
  | .maqVerifyComplete _ => true
  | .maqStagedCommit => true
  | .profilePinsStable pins => decide (pins < 4)
  | .installFw r _ _ => r.wf
  | .commitFw r => r.wf
  | .updatePlaster r _ _ => r.wf
  | .storeSiteImage r _ _ => r.wf
  | .pushSite r site => r.wf && decide (site < 2 ^ 64)
  | .sitePushDone site _ => decide (site < 8)
  | .activateSite r site => r.wf && decide (site < 2 ^ 64)
  | .versionReport r _ => r.wf
  | .helloSession r _ => r.wf
  | .revokeKeys r _ => r.wf
  | .optionUpdate r _ => r.wf
  | .keyProvision r _ => r.wf
  | .revminRestore r _ => r.wf
  | .debugOpen r _ => r.wf
  | .principalSet r _ => r.wf
  | .controlRecordRefused r _ => r.wf
  | .plasterImageReceived x => x.flash.wf
  | .spdmGetVersion _ => true
  | .spdmGetCapabilities _ => true
  | .spdmNegotiateAlgorithms _ => true
  | .spdmGetDigests _ => true
  | .spdmGetCertificate _ => true
  | .spdmChallenge _ => true
  | .spdmGetMeasurements _ => true
  | .clockGrant clk => decide (clk < 4)
  | .clockGrantTimeout clk die => decide (clk < 4) && decide (die < 16)
  | .clockIdleExpiry clk => decide (clk < 4)
  | .rcOscStopExpiry => true
  | .lockstepMismatch pair => decide (pair < 4)
  | .siteUp r site => r.wf && decide (site < 2 ^ 64)
  | .siteDown r site => r.wf && decide (site < 2 ^ 64)
  | .siteClear r site => r.wf && decide (site < 2 ^ 64)
  | .siteAdopt r site => r.wf && decide (site < 2 ^ 64)
  | .siteIdentify r site => r.wf && decide (site < 2 ^ 64)
  | .siteCmdInvalid r site code => r.wf && decide (site < 2 ^ 64) && decide (code < 2 ^ 64)
  | .sitePresentAsserted site => decide (site < 8)
  | .siteSettleExpiry site => decide (site < 8)
  | .siteIdentityRead site _ => decide (site < 8)
  | .siteIdromRereadTimer site _ => decide (site < 8)
  | .sitePresenceLost site => decide (site < 8)
  | .siteRetryWaitExpiry site => decide (site < 8)
  | .siteAdoption site _ good off latched ep _ version => decide (site < 8) && decide (good < 2 ^ 32) && decide (off < 2 ^ 32) && decide (latched < 2 ^ 32) && decide (ep < 2 ^ 12) && decide (version < 2 ^ 32)
  | .railUpDelayExpiry rail => decide (rail < 280)
  | .railPgChange rail _ => decide (rail < 280)
  | .railQualifyExpiry rail => decide (rail < 280)
  | .railRiseTimeout rail => decide (rail < 280)
  | .railPgLossTimer rail => decide (rail < 280)
  | .railDownDelayExpiry rail => decide (rail < 280)
  | .railFallTimeout rail => decide (rail < 280)
  | .railBackoffExpiry rail => decide (rail < 280)
  | .railRetryCountReset rail => decide (rail < 280)
  | .pmbusWriteDone rail _ => decide (rail < 280)
  | .pmbusPgPoll rail _ => decide (rail < 280)
  | .trayResetWidthExpiry => true
  | .moduleGroupResequence group => decide (group < 2 ^ 64)
  | .wardenBrownout w => decide (w < 8)
  | .wardenSupervisorReset w => decide (w < 8)
  | .wardenReload w => decide (w < 8)
  | .surveySample die slot _ => decide (die < 16) && decide (slot < 26)
  | .surveySlowScanTimer die => decide (die < 16)
  | .surveyStaleTimeout ch => decide (ch < 384)
  | .surveyBusTimeout die => decide (die < 16)
  | .railCntClr r rail mask => r.wf && decide (rail < 2 ^ 64) && decide (mask < 2 ^ 64)
  | .logPageProgramDone => true
  | .logSectorEraseDone => true
  | .logDeviceTimeout dev => decide (dev < 2)
  | .logRingRecoveryDone => true
  | .logReadFromWrite _ prin value => decide (prin < 2 ^ 32) && decide (value < 2 ^ 64)
  | .logReadAdvance _ => true
  | .snapshotPeriodicTimer => true
  | .snapshotTrailerWritten => true
  | .snapshotBankEraseDone bank => decide (bank < 2)
  | .holdupBegin busV => decide (busV < 2 ^ 64)
  | .holdupEnd => true
  | .journalFlushDescriptorDone _ => true
  | .meteringIntervalEnd _ => true
  | .powerWindow1msEnd => true
  | .powerWindow1sEnd => true
  | .telemetryRecord port src _ => decide (port < 2) && decide (src < 2 ^ 12)
  | .wardenTelemetryPoll site _ => decide (site < 8)
  | .telemetryStaleTimeout site => decide (site < 8)
  | .jobMark _ _ => true
  | .jobRelease r job => r.wf && decide (job < 2 ^ 64)
  | .trayBudgetWrite r _ => r.wf
  | .capSwBoundWrite r site which _ => r.wf && decide (site < 2 ^ 64) && decide (which < 2 ^ 64)
  | .capDivision => true
  | .capGuardWindow site => decide (site < 8)
  | .siteThrottleForceWrite r site level => r.wf && decide (site < 2 ^ 64) && decide (level < 2 ^ 64)
  | .siteVout r site rail code => r.wf && decide (site < 2 ^ 64) && decide (rail < 2 ^ 64) && decide (code < 2 ^ 64)
  | .peakClr r inst => r.wf && decide (inst < 2 ^ 64)
  | .reliefVoltageCrossing busV => decide (busV < 2 ^ 16)
  | .reliefCurrentCrossing _ => true
  | .reliefStage2 busV _ => decide (busV < 2 ^ 16)
  | .reliefReleaseCondition bus => decide (bus.v < 2 ^ 16)
  | .reliefReleaseStepExpiry => true
  | .patinaSecond => true
  | .patinaRecordWrite => true
  | .holdWindowExpiry => true
  | .chiselInterval => true
  | .chiselStaleFallbackExpiry site => decide (site < 8)
  | .chiselSwBoundWrite r site dom _ _ => r.wf && decide (site < 2 ^ 64) && decide (dom < 2 ^ 64)
  | .chiselFreeze r _ => r.wf
  | .chiselThaw r _ => r.wf
  | .chiselReset r _ => r.wf
  | .chiselExport r _ => r.wf
  | .chiselImport r _ _ => r.wf
  | .chiselCheckpoint => true
  | .coolingTick _ => true
  | .fanStartTimeout fan => decide (fan < 40)
  | .fanStallTimerExpiry fan => decide (fan < 40)
  | .fanSeizedTimerExpiry fan => decide (fan < 40)
  | .fanTargetWrite r fan value => r.wf && decide (fan < 2 ^ 64) && decide (value < 2 ^ 64)
  | .fanClear r fan => r.wf && decide (fan < 2 ^ 64)
  | .coolWdtRefresh r => r.wf
  | .coolWdtExpiry => true
  | .valveCmdWrite r valve cmd => r.wf && decide (valve < 2 ^ 64) && decide (cmd < 2 ^ 64)
  | .valveTravelTimeout valve => decide (valve < 16)
  | .valvePosChange valve _ => decide (valve < 16)
  | .valveUncommandedTimer valve => decide (valve < 16)
  | .flowRateUpdate meter pulses => decide (meter < 16) && decide (pulses < 2 ^ 64)
  | .flowLossTimeExpiry meter => decide (meter < 16)
  | .coolantLossEndTimer sensor => decide (sensor < 32)
  | .zoneSensorExclusion zone slot => decide (zone < 16) && decide (slot < 8)
  | .zoneSensorReadmission zone slot => decide (zone < 16) && decide (slot < 8)
  | .zoneColdLieCheck zone => decide (zone < 16)
  | .zoneGuardExitTimer zone => decide (zone < 16)
  | .zoneClear r zone => r.wf && decide (zone < 2 ^ 64)
  | .leakRopeReading rope senseR loopR => decide (rope < 16) && decide (senseR < 2 ^ 64) && decide (loopR < 2 ^ 64)
  | .leakPointSample sensor _ _ => decide (sensor < 32)
  | .leakClear r zone => r.wf && decide (zone < 2 ^ 64)
  | .accelSample _ _ _ => true
  | .shakeNoteEpisodeEnd => true
  | .braceRequest r => r.wf
  | .braceHoldExpiry => true
  | .shakePeakClr r => r.wf
  | .accelSelfTest _ => true
  | .accelNoAnswer => true
  | .tjSample _ => true
  | .tjStopReleaseTimer => true
  | .countFrameTransmit => true
  | .countFrame _ => true
  | .syncCalPeriod line => decide (line < 13)
  | .calFrame _ turn => decide (turn < 2 ^ 64)
  | .echoFrame line _ rtt => decide (line < 13) && decide (rtt < 2 ^ 64)
  | .delayFrame _ => true
  | .syncFrameDiscard line => decide (line < 13)
  | .pointingFrameLoss => true
  | .holdoverLimitExpiry => true
  | .pointingSaveTimer => true
  | .managerEchoWaitExpiry => true
  | .armRun r _ _ => r.wf
  | .launchRun r _ => r.wf
  | .disarmRun r _ => r.wf
  | .closeRun r _ => r.wf
  | .promoteManager r => r.wf
  | .armEntryExpiry run => decide (run < 2 ^ 64)
  | .launchFrame _ => true
  | .ackFrame line _ => decide (line < 13)
  | .goFrame _ => true
  | .abortFrame _ => true
  | .resultFrame line _ => decide (line < 13)
  | .launchDeadline run => decide (run < 2 ^ 64)
  | .launchCountReached run => decide (run < 2 ^ 64)
  | .choiceRecord _ _ => true
  | .siteDumapReport site _ => decide (site < 8)
  | .auditOffer port src _ => decide (port < 2) && decide (src < 2 ^ 12)
  | .caliperFirstComputeDone check tile _ => decide (check < 2 ^ 64) && decide (tile < 16)
  | .caliperRecomputeDone check tile _ => decide (check < 2 ^ 64) && decide (tile < 16)
  | .caliperFetchTimeout job => decide (job.check < 2 ^ 64) && decide (job.tile < 16)
  | .caliperOfferRetainExpiry check => decide (check < 2 ^ 64)
  | .runTableIdleExpiry run => decide (run < 2 ^ 64)
  | .checkDesc r _ _ => r.wf
  | .computeDesc r _ _ => r.wf
  | .gaugeLoad r _ _ => r.wf
  | .gaugeInvoke r _ => r.wf
  | .gaugeUnload r _ => r.wf
  | .gaugeInvocation slot => decide (slot < 8)
  | .gaugeInvocationDone slot => decide (slot < 8)
  | .calAuditRateWrite r site value => r.wf && decide (site < 2 ^ 64) && decide (value < 2 ^ 64)
  | .calAuditKeyWrite r key => r.wf && decide (key < 2 ^ 256)
  | .calCovClr r site => r.wf && decide (site < 2 ^ 64)
  | .calDisFromWrite _ prin value => decide (prin < 2 ^ 32) && decide (value < 2 ^ 64)
  | .calDisRecAdvance _ => true
  | .emissionRecord port src _ => decide (port < 2) && decide (src < 2 ^ 12)
  | .bindInput port src _ => decide (port < 2) && decide (src < 2 ^ 12)
  | .bindWeights port src _ => decide (port < 2) && decide (src < 2 ^ 12)
  | .jrnGapWaitExpiry seq => decide (seq < 2 ^ 64)
  | .jrnSeqIdleExpiry seq => decide (seq < 2 ^ 64)
  | .spotCheckDone site run _ _ => decide (site < 8) && decide (run < 2 ^ 64)
  | .jrnSealWaitExpiry run => decide (run < 2 ^ 64)
  | .manifestSigned run _ => decide (run < 2 ^ 64)
  | .exportManifest r _ => r.wf
  | .exportSeq r _ => r.wf
  | .exportLog r _ => r.wf
  | .hashRange r _ _ => r.wf
  | .spotCheck r _ => r.wf
  | .memRemove r ch => r.wf && decide (ch < 2 ^ 64)
  | .memReturn r ch _ => r.wf && decide (ch < 2 ^ 64)
  | .memFillDone ch => decide (ch < 4)
  | .memReadErrorDetected ch addr owner unit _ => decide (ch < 4) && decide (addr < 2 ^ 64) && decide (owner < 2 ^ 64) && decide (unit < 2 ^ 64)
  | .memSpdSilentTimeout ch => decide (ch < 4)
  | .memScrubBurst ch _ => decide (ch < 4)
  | .sramParityError die region unit => decide (die < 2) && decide (region < 5) && decide (unit < 2 ^ 64)
  | .doorbellSqTail r q value => r.wf && decide (q < 2 ^ 64) && decide (value < 2 ^ 64)
  | .queueSizeWrite r q _ value => r.wf && decide (q < 2 ^ 64) && decide (value < 2 ^ 64)
  | .cqHeadWrite r q value => r.wf && decide (q < 2 ^ 64) && decide (value < 2 ^ 64)
  | .engineEntryTake q => decide (q < 8)
  | .copyMem r _ => r.wf
  | .fillMem r _ => r.wf
  | .flashRead r _ => r.wf
  | .moverSegmentDone _ => true
  | .readReq port p => decide (port < 2) && p.wf
  | .writeReq port p => decide (port < 2) && p.wf
  | .readResp port p => decide (port < 2) && p.wf
  | .writeAck port p => decide (port < 2) && p.wf
  | .errorResp port p => decide (port < 2) && p.wf
  | .postedWrite port p => decide (port < 2) && p.wf
  | .messageInvalid port p => decide (port < 2) && p.wf
  | .messageCoalesced port p => decide (port < 2) && p.wf
  | .creditPacket port p => decide (port < 2) && p.wf
  | .linkPacket port ep => decide (port < 2) && decide (ep < 2 ^ 12)
  | .ebxPacketDiscard port _ p => decide (port < 2) && p.wf
  | .ebxCreditSend => true
  | .ebxPortDown port dropped => decide (port < 2) && decide (dropped < 2 ^ 64)
  | .ebxPortRetrain port _ => decide (port < 2)
  | .ebxRequestTimeout tag => decide (tag < 2 ^ 16)
  | .evtReadAdvance _ => true
  | .eventForward n _ => decide (n < 2 ^ 64)
  | .eventPushRetry k _ => decide (k < 2 ^ 64)
  | .tlsConnect port _ notBefore notAfter _ conns _ => decide (port < 2) && decide (notBefore < 2 ^ 64) && decide (notAfter < 2 ^ 64) && decide (conns < 2 ^ 64)
  | .redfishRequest r _ => r.wf
  | .telemetryStreamPeriod k _ => decide (k < 2 ^ 64)
  | .ptpMessage port domain time _ => decide (port < 2) && decide (domain < 256) && decide (time < 2 ^ 64)
  | .ownNHeartbeat _ => true
  | .ownNReleaseObserved _ => true
  | .pairClaimDelayExpiry us => decide (us < 2 ^ 64)
  | .pairOwnNIdleTimeout us => decide (us < 2 ^ 64)
  | .pairTakeoverHang us => decide (us < 2 ^ 64)
  | .pairTakeoverDrive => true
  | .takeNAsserted => true
  | .pairShadowFrame _ => true
  | .pairSyncAgeTimeout => true
  | .pairLinkChange lane _ => decide (lane < 2)
  | .handoverLead r => r.wf
  | .takeLead r => r.wf
  | .holdSet r seconds => r.wf && decide (seconds < 2 ^ 64)
  | .ejectNAsserted => true
  | .ejectLatchRelease => true
  | .selectWrite r addr value => r.wf && decide (addr < 0x100000) && decide (value < 2 ^ 32)
  | .snapshotLatchRead _ prin addr => decide (prin < 2 ^ 32) && decide (addr < 0x100000)
  | .multiwordLowerWrite r addr value => r.wf && decide (addr < 0x100000) && decide (value < 2 ^ 32)
  | .multiwordCommitWrite r addr value => r.wf && decide (addr < 0x100000) && decide (value < 2 ^ 32)
  | .registerReadRefused _ prin addr => decide (prin < 2 ^ 32) && decide (addr < 0x100000)
  | .registerWrite r addr value => r.wf && decide (addr < 0x100000) && decide (value < 2 ^ 32)
  | .wardenResetRelease w => decide (w < 8)
  | .syncLineLinkUp line => decide (line < 13)
  | .digestHashDone k => decide (k < 2 ^ 64)
  | .updateOperationDone x => x.wf
  | .strapStable strap _ => decide (strap < 6)

end Sys2Proof
end

