-- ==== Sys2Proof/Tests/Slice0.lean ====
section
/-!
SUPPORT. Tests/Slice0.lean: tests of single steps and of the arithmetic against the manual's worked values, ill-formed commands that
WellFormed refuses, and for every obligation with hypotheses a witness that meets them together, named by the obligation and
the number of its clause. A clause whose hypotheses are about every state, or the domain's power alone, has none of its own.
-/
set_option Elab.async false
namespace Sys2Proof.Tests
open Sys2Proof Sys2Proof.Machine

/-- Every domain powered, a million Plinth ticks in. -/
def wOn : State := { State.reset with
  plinth := 1000000
  pwr := { standby := true, core := true, armature := true, caliper := true, sram := true, fabric := true, memory := true, rcOsc := true }
  pins := { inputGood := true } }
/-- An image runs from slot A after step 20. -/
def wRun : State := { wOn with
  boot := { run := some { version := 1 } }
  rst := { locked := true, wdtRunning := true }
  led := { startSeq := 1, cur := [(20, { startSeq := 1, outcome := .ok })] }
  pair := { st := .lead, outputs := true } }
/-- Start step `n` runs; no image yet. -/
def wStep (n : Nat) : State := { wOn with
  led := { startSeq := 1, cur := [(n, { startSeq := 1, outcome := .inProgress })] } }
/-- A live structure with the given sections. -/
def wSecs (l : List (Nat × Bytes)) (s : State) : State :=
  { s with maq := { live := some { secs := l.map fun x => ⟨x.1, 0, 0, 0, x.2⟩ }, activeProfile := 0 } }
/-- The Armature path, whose principal holds every right, and a principal that holds none. -/
def wArm : Req := ⟨.armature, 0, none, 7, false⟩
def wNone : Req := ⟨.management, 0xFFFFFFFE, none, 7, false⟩
/-- `n` bytes with fields written over zeros, each an offset, a width in bytes and a value. -/
def wBytes (n : Nat) (l : List (Nat × Nat × Nat)) : Bytes := l.foldl (fun b x => patch b x.1 (leBytes x.2.1 x.2.2)) (zeros n)
/-- A queue entry whose source address names another endpoint. -/
def wEntry (l : List (Nat × Nat × Nat)) : Bytes := wBytes 64 l
/-- A live structure with one template of four rails, and site 7 in a state under it. -/
def wSite (st : SiteSt) : State := { wSecs [(2, wBytes 2112 [(1, 1, 0xFF)]), (4, []), (5, [])] wRun with
  pins := { inputGood := true, present := 0x80 }
  seq := { sites := [(7, { st := st, template := 0, driven := true })] } }
/-- Rail 255 (site 7, rail 31) with the given state and inputs. -/
def wRail (x : Rail) : State := { wSite .running with seq := { (wSite .running).seq with rails := [(255, x)] } }
/-- The same with rail 31 of the template enabled and watched over PMBus. -/
def wBus (x : Rail) : State := { wSecs [(2, wBytes 2112 [(1, 1, 0xFF), (2048, 2, 1), (2050, 1, 1), (2052, 1, 8), (2054, 1, 1)]), (4, []), (5, [])] wRun with
  pins := { inputGood := true, present := 0x80 }
  seq := { sites := [(7, { st := .running, template := 0, driven := true })], rails := [(255, x)] } }
/-- Channel 0 samples the current of a supply-switching fan whose supply is off. -/
def wFan : State := { wSecs [(4, wBytes 3072 [(2, 1, 4)]), (8, wBytes 1920 [(0, 1, 7)])] wRun with cool := { fans := [(0, { duty := 0 })] } }
/-- Channel 0 samples the voltage of a module rail that is off. -/
def wIdle : State := wSecs [(4, wBytes 3072 [(0, 2, 262), (2, 1, 1)])] wRun
/-- A record of the log's queue. -/
def wRec : FaultRec := ⟨0x22, 0, 2, 0, 5, 0, 0, false, false, false, zeros 28, false⟩
/-- The telemetry record of site 7, and its JOB_BEGIN mark of job 9. -/
def wTelem : Bytes := wBytes 64 [(0, 1, 1), (1, 1, 7), (4, 4, 3)]
def wMark : Bytes := wBytes 32 [(0, 1, 2), (1, 1, 7), (2, 1, 1), (8, 8, 9)]
/-- CAPS with a ceiling of 2 MW, a budget default of 1 MW, and site bounds of 0 and 100 kW. -/
def wCaps : Bytes := wBytes 320 ([(0, 4, 2000000), (4, 4, 1000000)] ++ (List.range 8).map fun n => (0x44 + 32 * n, 4, 100000))
def wCap : State := wSecs [(0xC, wCaps)] wRun
/-- A voltage table that names rail 3. -/
def wVt : Bytes := wBytes 256 [(0, 1, 1), (0x10, 1, 3), (0x12, 2, 900), (0x14, 2, 800), (0x16, 2, 1000)]
/-- A topology with fan 0, pump 0 (fed by meter 0), valve 15 and meter 0 in use; zone 0 of fan 0 and pump 0, zone 15 of none. -/
def wTopo : Bytes := wBytes 1920 [(0, 1, 1), (4, 2, 0xFFFF), (1024, 1, 1), (1028, 2, 0xFFFF), (0x5F0, 1, 1), (0x5F2, 2, 1),
  (0x600, 1, 1), (0x602, 2, 0x8001), (0x604, 4, 1000), (0x608, 2, 500)]
def wZones : Bytes := wBytes 1024 [(0, 1, 1), (4, 4, 1), (8, 1, 1), (960, 1, 1), (962, 1, 0x80)]
def wLimits : Bytes := wBytes 512 [(0, 2, 1280), (480, 2, 1280), (484, 4, 1000)]
def wCurves : Bytes := wBytes 3648 [(0x40, 2, 500), (0x42, 2, 3000), (0x840, 2, 500), (0x842, 2, 3000)]
def wCool (c : Cooling) : State := { wSecs [(4, []), (6, wZones), (7, wLimits), (8, wTopo), (9, wCurves)] wRun with cool := c }
/-- Leak sensors 15 and 47 in use, the first with two readings to qualify. -/
def wLeak (h : Hazards) : State := { wSecs [(0xA, wBytes 512 [(240, 1, 1), (242, 1, 2), (504, 1, 1), (506, 1, 1)]), (0xB, zeros 128)] wRun with haz := h }
/-- A CHISEL section with site 0 on, and a voltage table of one domain. -/
def wChi (x : ChiselSite) : State := { wSecs [(0xD, wBytes 1024 [(0, 1, 1)])] wRun with
  chi := [(0, x)], seq := { sites := [(0, { st := .running })] }, cap := { sites := [(0, { vtable := some (wBytes 64 [(1, 1, 1), (0x10, 1, 0), (0x14, 4, 50000)]) })] } }
/-- A child of the tree: ROLE with role 2, its index 1, peers and sites cabled. -/
def wRole (r : Nat) : Bytes := wBytes 64 [(0, 1, 1), (0x20, 1, r), (0x21, 1, 0xF), (0x22, 2, if r = 1 then 0 else 1), (0x24, 1, 0xFF)]
def wPt (r : Nat) (p : Pointing) : State := { wSecs [(0xF, wRole r)] wRun with pnt := p, led := { cur := [(11, { outcome := .ok }), (20, { outcome := .ok })] } }
def wPtArm (r : Nat) (st : PtSt) (x : ArmEntry) : State := wPt r { st := st, valid := true, count := 5000, arms := [(0, x)] }
/-- The block of an ARM of run 9, a launch frame's payload for it, and its arm entry. -/
def wArmBlock : Bytes := wBytes 128 [(0, 8, 9), (8, 8, 1), (18, 1, 0x80), (68, 1, 1)]
def wRun9 : Bytes := wBytes 80 [(0, 8, 9)]
/-- Channel 0 in service, and with it the Fabric link of port 0. -/
def wMem : State := { wRun with
  mem := { chs := [(0, { st := .inService, cap := 0x1000000000, kept := true })] }, ebx := { up := 1, siteEp := [(7, 5)] } }
/-- A descriptor of one FP32 product at another endpoint, with its result there (1) or its digest (2). -/
def wDesc (mode : Nat) : Bytes := wBytes 128 ([(0, 1, 1), (1, 1, 1), (2, 1, 1), (4, 1, 1), (6, 1, mode), (8, 4, 1), (0xC, 4, 1), (0x10, 4, 1),
  (0x1C, 4, 4), (0x20, 4, 4), (0x24, 4, 4), (0x28, 8, 2 ^ 52), (0x30, 8, 2 ^ 52 + 0x100)] ++ if mode = 1 then [(0x50, 8, 2 ^ 52 + 0x200)] else [])
def wFetch : List (Nat × Bytes) := [(2 ^ 52, wBytes 4 [(0, 4, 0x40000000)]), (2 ^ 52 + 0x100, wBytes 4 [(0, 4, 0x40400000)])]
def wOffer : Bytes := wBytes 64 [(0, 1, 5), (1, 1, 7), (4, 4, 3), (0x10, 8, 11)] ++ wDesc 2
def wChk (st : Nat) (r : Option Req) : Check := { id := 4, site := 7, desc := wDesc 2, stage := st, t1 := 1, t2 := 2, req := r }
def wCal (c : Caliper) : State := { wMem with cal := c }
/-- A GAUGE_SLOTS section with slot 7 in use: one input (Survey channel 0), one output, one sample. -/
def wGauge : Bytes := wBytes 1024 [(0x380, 1, 1), (0x381, 1, 1), (0x382, 1, 1), (0x383, 1, 1), (0x38C, 4, 4194304)]
def wGg (g : GaugeSlot) (i : Tbl Bytes) : State := { wSecs [(0xE, wGauge), (4, wBytes 3072 [(2, 1, 1)])] wMem with cal := { gauge := [(7, g)] }, gimg := i }
/-- Sequence 20 of run 9 at site 7, and records of the Journal engine for it. -/
def wSeq : JSeq := { id := 20, slot := 0, site := 7, run := 9 }
def wJrn (j : Journal) : State := { wMem with jrn := j }
def wEmit (i : Nat) : Bytes := wBytes 48 [(0, 1, 7), (1, 1, 7), (4, 4, i), (8, 8, 20), (0x10, 8, 9), (0x18, 4, 100)]
def wBind (k : Nat) (q : Nat) : Bytes := wBytes 96 [(0, 1, 8), (1, 1, 7), (2, 1, k), (8, 8, 9), (0x10, 8, q)]
/-- The product 2 × 3 in FP32, as the descriptors above form it. -/
def wSix : CalRes := ⟨[[0x40C00000]], [[]], 0⟩
/-- Channel 0 as given, the other three absent. -/
def wCh (c : MemCh) : State := { wRun with mem := { chs := [(0, c)] } }
/-- Channel 0 in service at 1 GB with a scrub position and times of earlier errors. -/
def wServ (pos : Nat) (times : List Nat) : State := wCh { st := .inService, cap := 0x2000000000, kept := true, scrubPos := pos, errTimes := times }
def wBrace (s : State) : State := { s with snap := { s.snap with holdup := true } }
/-- Channels 0 and 1 in service, and queue 5 with rings in module DRAM. -/
def wQ (q : Queue) : State := { wRun with
  mem := { chs := [(0, { st := .inService, cap := 0x2000000000, kept := true }), (1, { st := .inService, cap := 0x2000000000, kept := true })] }
  ques := [(5, { q with sqBase := 0x11400000000, sqSize := 16, cqBase := 0x11400001000, cqSize := 16 })] }
/-- A Mover entry of `len` bytes to module DRAM. -/
def wMv (op len : Nat) : Bytes := wEntry [(0, 2, op), (4, 4, 9), (8, 8, if op = 1 then 0x11500000000 else 0), (0x10, 8, 0x11480000000), (0x18, 8, len), (0x20, 8, if op = 2 then 0x0102030405060708 else 0)]
def wMov (op len : Nat) : State := { wQ {} with mov := { jobs := [{ req := wArm, entry := wMv op len, active := true }] } }
/-- A COPY entry at the head of queue 5. -/
def wPend (q : Queue) (e : Bytes) : State := { wQ { q with sqTail := 1 } with dram := Memory.putAll 0 [] 0x1400000000 e }
def wCells (a : Nat) : Bytes → Memory
  | [] => []
  | x :: r => (a, x) :: wCells (a + 1) r
/-- A principal table: entry 0 the endpoint 9 with every right, entry 1 the client key of hash 5. -/
def wTable : Bytes := wBytes 0x810 [(0, 4, 0x544E5250), (4, 2, 1), (0x10, 1, 1), (0x11, 1, 2), (0x14, 4, 0x3FFF), (0x18, 2, 9),
  (0x50, 1, 1), (0x51, 1, 1), (0x54, 4, 0x3FFF), (0x60, 1, 5)]
@[irreducible]
def wPrinc : Memory := wCells 0x04920000 (wTable ++ leBytes 48 (Config.deviceHmac wTable).toNat)
def wMg (m : Mgmt) (e : Events) : State := { wRun with flash0 := wPrinc, mgt := m, evt := e }
def wEv (c : Nat) : Event := ⟨100, 4, c, 0, 0⟩
def wTlsReq : Req := ⟨.management, 2, none, 0, false⟩
def wNoRead : Req := ⟨.management, 32, none, 0, false⟩
def wP (p : Pair) : State := { wRun with pair := p }
def wHeld (p : Pair) : State := wP { p with ownHeld := true }
def wLive : Maq := { live := some { secs := [] } }
def wR (a : PathBlock) (blk : Nat) : State := wRun.setPb .armature blk a
def wDef (s : State) (blk off : Nat) : RegDef := (s.regAt .armature blk off).getD { off := 0, get := fun _ => 0 }
def wPut (s : State) (blk off : Nat) : Req → Nat → State → State := (wDef s blk off).put.getD fun _ _ s => s
def wChY (c : MemCh) : State := { wRun with mem := { chs := [(0, c), (1, { st := .inService, cap := 0x2000000000 })] } }
def wServY (pos : Nat) (times : List Nat) : State := wChY { st := .inService, cap := 0x2000000000, kept := true, scrubPos := pos, errTimes := times }
def wStr : State := { wRun with haz := { brace := true } }
def wStEnt (p m : Nat) : Bytes := wEntry [(0, 2, 2), (0x14, 1, p), (0x15, 1, m)]
/-- A CAPS section with a ceiling, a reserve and a site of floor, ceiling and weight, and a budget. -/
def wDiv (b : Int) : State := { wSecs [(0xC, wBytes 320 [(0, 4, 4000000), (8, 4, 1000), (0x120, 4, 100000), (0x124, 4, 900000), (0x128, 1, 3)])] wRun with
  cap := { budget := some b }, seq := { sites := [(7, { st := .running })] } }
def wQZ (q : Queue) : State := { wRun with
  mem := { chs := [(0, { st := .inService, cap := 0x2000000000, kept := true })] }
  ques := [(5, { q with sqBase := 0x11400000000, sqSize := 16, cqBase := 0x11400001000, cqSize := 16 })] }
/-- Port 0 up, channel 0 in service, and the table above. -/
def wEbx (e : Ebbex) : State := { wRun with
  flash0 := wPrinc, ebx := { e with up := if e.up = 0 then 1 else e.up }
  mem := { chs := [(0, { st := .inService, cap := 0x2000000000, kept := true })] } }
def wPk (addr len : Nat) (b : Bytes) : Packet := ⟨1, 0, len, 9, 0, 3, 0, addr, b⟩
def wPkS (addr len : Nat) (b : Bytes) : Packet := ⟨1, 0, len, 8, 0, 3, 0, addr, b⟩
def wRq (q : Option Nat) (w : Bool) : EbxReq := { tag := 3, port := 0, write := w, addr := 2 ^ 52 + 64, length := 64, data := [1, 2], q := q }
def wMvR : Bytes := wEntry [(0, 2, 1), (0x10, 8, 2 ^ 52), (0x18, 8, 256)]

/-! ## Witnesses: states and operands that meet the hypotheses of each clause of an obligation, by the number of the clause -/

def wA1 : State := { wRun with rst := { wRun.rst with wdtTimes := [999999, 1] } }
def wA2 : State := { wRun with rst := { wRun.rst with wdtTimes := [999999] } }
def wA3 : State := { wRun with snap := { erasing := 3 } }
def wA4 : State := { wRun with debug := 1, snap := { erasing := 3 } }
def wA5 : State := { wRun with rst := { wRun.rst with otHeld := true } }
def wB1 : State := { State.reset with pwr := { standby := true } }
def wB2 : State := { State.reset with pwr := { standby := true }, rst := { under := some .moduleReset } }
def wB3 : State := { State.reset with pwr := { standby := true }, pins := { inputGood := true } }
def wB6 : State := { wOn with boot := { plasterHeld := true } }
def wB7 : State := (wStep 4)
def wB8 : State := { wStep 4 with led := { (wStep 4).led with carries := [(5, 1)] }, rst := { wardenHeld := 3 } }
def wB9 : State := (wStep 5)
def wB10 : State := { wStep 7 with pwr := { standby := true } }
def wB12 : State := (wStep 8)
def wB14 : State := (wStep 9)
def wB16 : State := (wStep 10)
def wB17 : State := { wStep 10 with rst := { strapForced := true } }
def wB18 : State := { wStep 10 with boot := { chosen := some 1 } }
def wB19 : State := { wStep 10 with boot := { romService := true } }
def wB20 : State := (wStep 12)
def wB21 : State := (wStep 11)
def wB22 : State := { wStep 3 with led := { cur := [(3, { outcome := .failed })] } }
def wB24 : State := { wStep 3 with led := { cur := [(6, { outcome := .failed })] }, pair := { st := .partner } }
def wB25 : State := { State.reset with pwr := { standby := true }, led := { cur := [(7, { outcome := .failed })] } }
def wB26 : State := { wRun with led := { wRun.led with toMirror := [20] } }
def wB27 : State := { wRun with led := { wRun.led with prev := [(20, {outcome := .ok, startSeq := 1})], toMirror := [52] } }
def wB28 : State := { wStep 15 with boot := { run := some {} } }
def wB29 : State := { wRun with led := { cur := [(15, { outcome := .okAlternate, form := 2 })], serials := [(2, 4)] } }
def wB30 : State := { wRun with mem := { chs := [(2, { st := .training })] } }
def wB31 : State := { wRun with led := { cur := [(16, { outcome := .inProgress })], kind := .powerOn } }
def wB32 : State := { wRun with led := { cur := [(17, { outcome := .inProgress })] } }
def wB33 : State := { wRun with led := { cur := [(19, { outcome := .inProgress })], carries := [(19, 1)] }, boot := { wRun.boot with needPush := 3 } }
def wB34 : State := { wRun with led := { cur := [(20, { outcome := .inProgress })], kind := .armature } }
def wB35 : State := { wRun with boot := { run := some { hashes := [Config.sha384 [1] + 1] } } }
def bB2 : Bytes := [1]
def wB36 : State := { wRun with boot := { run := some { hashes := [Config.sha384 [1]] } } }
def wB37 : State := { wRun with boot := { wRun.boot with dwellRunning := true } }
def bC3 : Bytes := (wEntry [(0x10, 8, 2 ^ 52), (0x18, 4, 8), (0x1C, 1, 7)])
def wC1 : State := { wRun with boot := { wRun.boot with upd := some { op := 0x101, req := wArm, target := 1, image := [] } } }
def wC3 : State := { wRun with haz := { brace := true }, boot := { wRun.boot with upd := some { op := 0x101, req := wArm, target := 1, image := [] } } }
def wC4 : State := { wRun with boot := { wRun.boot with healthy := true } }
def wC5 : State := { wRun with boot := { wRun.boot with pushes := [{ site := 7, entry := 0, req := none }] } }
def wC6 : State := { wRun with boot := { wRun.boot with pushes := [{ site := 7, entry := 0, req := some wArm }] } }
def wC8 : State := { wRun with boot := { wRun.boot with pushes := [{ site := 7, entry := 0, req := some wArm, retried := true }] } }
def wC9 : State := { wRun with haz := { brace := true } }
def wC10 : State := { wRun with seq := { sites := [(7, { template := 0 })] } }
def wC11 : State := { wRun with ebx := { up := 1 } }
def bC4 : Bytes := (wEntry [(0x10, 8, 2 ^ 52), (0x18, 4, 64)])
def bC6 : Bytes := (wBytes 32 [(6, 1, 1)])
def bC7 : Bytes := (wBytes 32 [(6, 1, 2)])
def bC8 : Bytes := (wBytes 32 [(6, 1, 3)])
def bC9 : Bytes := (wBytes 32 [(6, 1, 4)])
def bC10 : Bytes := (wBytes 32 [(6, 1, 5)])
def bC11 : Bytes := (wBytes 32 [(6, 1, 6)])
def bC12 : Bytes := (wBytes 32 [(6, 1, 7)])
def wC12 : State := { wRun with boot := { wRun.boot with slot := 2 } }
def wC13 : State := { wRun with boot := { wRun.boot with identReady := true } }
def wC14 : State := { wRun with led := { startSeq := 1, kind := .powerOn, cur := [(20, { startSeq := 1, outcome := .inProgress })] } }
def wC15 : State := { wRun with led := { startSeq := 1, kind := .coreDie, cur := [(20, { startSeq := 1, outcome := .inProgress })] } }
def bD1 : Bytes := (wEntry [(8, 8, 2 ^ 52), (0x10, 4, 30944), (0x14, 1, 3)])
def bD2 : Bytes := (wEntry [(8, 8, 2 ^ 52), (0x10, 4, 262144)])
def bD3 : Bytes := (wEntry [(0x14, 1, 3), (0x15, 1, 2)])
def wD1 : State := { wRun with maq := { pend := some { profile := 1, target := {}, req := wArm } } }
def bD4 : Bytes := (wEntry [])
def bD5 : Bytes := (wEntry [(0x14, 1, 3)])
def wD2 : State := { wRun with maq := { live := some { version := 4 } } }
def bD6 : Bytes := (wEntry [(0x18, 4, 5)])
def wD3 : State := { wRun with ob := { minStruct := 5 } }
def wD4 : State := { wRun with boot := { wRun.boot with upd := some { op := 0x103, req := wArm, target := 1, image := [] } } }
def wD5 : State := { wRun with maq := { op := some { op := 1, req := wArm, profile := 3 } } }
def wD6 : State := { wRun with maq := { op := some { op := 4, req := wArm, profile := 3 } } }
def wD7 : State := { wRun with maq := { live := some {}, pend := some { profile := 1, target := { version := 2 }, req := wArm } } }
def wD8 : State := { wRun with ob := { bytes := some (patch (zeros 256) 0xC [1]) } }
def wE1 : State := (wSite .off)
def wE2 : State := (wSite .degraded)
def wE3 : State := (wSite .faulted)
def wE4 : State := (wSite .running)
def wE5 : State := (wSite .retryWait)
def wE8 : State := { wSite .faulted with seq := { sites := [(7, { st := .faulted, template := 0, stale := true })] } }
def wE10 : State := (wSite .unadopted)
def wE11 : State := (wSite .unmatched)
def wE12 : State := (wSite .absent)
def wE13 : State := (wSite .settling)
def wE14 : State := { wRun with pins := { present := 0x80 }, seq := { sites := [(7, { st := .settling })] } }
def wE15 : State := (wSite .identifying)
def wE17 : State := { wSite .identifying with seq := { sites := [(7, { st := .identifying, romReads := 2 })] } }
def wE22 : State := { wSite .retryWait with snap := { holdup := true } }
def wE23 : State := { wSite .unadopted with seq := { toAdopt := 0x80 } }
def wE25 : State := { wSite .unadopted with seq := { toAdopt := 0x80 }, pins := {} }
def wE29 : State := { wSite .unadopted with rst := { wardenHeld := 0x80 } }
def wE30 : State := { wSite .running with seq := { (wSite .running).seq with trayReset := true, sysReset := true } }
def wE31 : State := { wSite .running with seq := { (wSite .running).seq with trayReset := true, sysReset := true, sysSites := 0x80 } }
def wE32 : State := (wRail { st := .upDelay })
def wE33 : State := (wBus { st := .upDelay })
def wE34 : State := (wRail { st := .rising })
def wE36 : State := (wRail { st := .good, pg := true })
def wE37 : State := (wRail { st := .rising, changes := 2 })
def wE38 : State := (wRail { st := .rising, changes := 3 })
def wE39 : State := (wRail { st := .rising, pg := true })
def wE41 : State := (wRail { st := .good, enable := true })
def wE42 : State := { wRail {} with seq := { rails := [(255, { st := .good })], sites := [(7, { st := .unadopted })] } }
def wE43 : State := (wRail { st := .downDelay, enable := true })
def wE44 : State := (wRail { st := .falling })
def wE45 : State := (wRail { st := .retryFall, inRetry := true })
def wE46 : State := { wRail { st := .backoff } with snap := { holdup := true } }
def wE47 : State := (wRail { st := .backoff })
def wE48 : State := (wRail { st := .good, retries := 2 })
def wE21 : State := (wBus { st := .good })
def wE22e2 : State := (wBus { st := .good, pmbusTries := 1 })
def wE23e2 : State := (wBus { st := .rising, pmbusTries := 2 })
def wE24 : State := (wBus { st := .good, pg := true })
def wE25e2 : State := (wBus { st := .good, pg := false })
def wE26 : State := (wBus { st := .good, pollFails := 1 })
def wE27 : State := (wBus { st := .good, pg := true, pollFails := 2 })
def wF1 : State := (wSecs [] wRun)
def wF3 : State := (wSecs [(4, wBytes 3072 [(0, 2, 256), (2, 1, 1)])] wRun)
def wF4 : State := { wRun with svy := { refBad := [(31, 2)] } }
def wF5 : State := { wRun with svy := { refBad := [(31, 3)] } }
def wF7 : State := (wSecs [(4, wBytes 3072 [(0, 2, 256), (2, 1, 1)])] { wRun with seq := { rails := [(256, { st := .good })] } })
def wF8 : State := { wRun with rcnt := { rails := [(279, { cnt := [(1, { val := 3 })] })] } }
def wF10 : State := { wOn with pwr := { standby := true, rcOsc := true, clkReq := 0 }, led := { cur := [(20, { outcome := .ok })] } }
def wF11 : State := { wRun with pwr := { wRun.pwr with clkReq := 1 } }
def wF12 : State := { wRun with pwr := { wRun.pwr with armFaults := 1 } }
def wF13 : State := { wRun with seq := { groups := [(10, { mask := 0x400, waiting := true })] } }
def wF14 : State := { wRun with seq := { groups := [(12, { mask := 0x3000, waiting := true })] } }
def wF15 : State := { wRun with seq := { groups := [(6, { mask := 0x40, waiting := true })] } }
def wF16 : State := { wRun with seq := { groups := [(8, { mask := 0x100, waiting := true })] } }
def wF18 : State := { wRun with snap := { holdup := true, minBus := 4200 } }
def wF19 : State := { wRun with snap := { holdup := true, held := 1, flushing := true } }
def wF20 : State := { wRun with pair := { wRun.pair with holdState := 1 } }
def wF21 : State := { wRun with pair := { wRun.pair with holdState := 1 }, led := { cur := [(11, { outcome := .ok })] } }
def wF22 : State := { wRun with plinth := 200 * 32768, haz := { brace := true, shakeFault := true, causeReq := true, lastReq := some (80 * 32768) } }
def wF23 : State := { wRun with haz := { brace := true, lastReq := some 999999 } }
def wF24 : State := { wOn with haz := { tjState := 1, tjCore := 1599 } }
def wF25 : State := { wRun with mem := { wRun.mem with shed := true } }
def wG1 : State := { wRun with log := { queue := [wRec], page := some ⟨0, zeros 64, 1⟩, ready := true } }
def wG2 : State := { wRun with log := { queue := [wRec], page := some ⟨0, zeros 64, 1⟩, devFailed := 1 } }
def wG3 : State := { wRun with log := { ready := true, ahead := 4078 } }
def wG4 : State := { wRun with log := { ready := true, slot := 3 }, flash0 := ((wRec.encode 5 1).zipIdx.map fun x => (ringOff 0 + x.2, x.1)).filter fun x => x.2 != 0xFF }
def wG5 : State := { wRun with rcnt := { rails := [(279, { cnt := [(1, { val := 3 })], dirty := true })] } }
def wG6 : State := { wRun with rcnt := { rails := [(279, { cnt := [(1, { val := 3 })], dirty := true })] }, flash0 := [(bankOff 0, 0), (bankOff 1, 0)] }
def wG7 : State := { wRun with snap := { job := some ⟨1, 0, [], [], 0, 0⟩ } }
def wG8 : State := { wRun with snap := { job := some ⟨1, 0, [], [], 0, 0⟩, holdup := true, busV := 5000 } }
def wG9 : State := { wRun with snap := { erasing := 2 }, flash0 := [(bankOff 1, 0)] }
def wG11 : State := { wRun with met := { peaks := [(8, { cur := [5, 7, 9], ms := [1, 2], secN := 2, secSum := 5 })] } }
def wG14 : State := { wSite .running with ebx := { up := 1, siteEp := [(7, 5)] } }
def wG16 : State := { wRun with pnt := { valid := true, st := .locked } }
def wG17 : State := { wRun with met := { jobs := [(1023, { id := 9, st := 2, energy := [(7, { uj := 5, nj := 999 })] })], released := [(7, { uj := 1, nj := 1 })] } }
def wG18 : State := { wRun with met := { peaks := [(8, { hold := 5, holdAt := 7, holdSet := true })] } }
def wG19 : State := { wRun with cap := { sites := [(7, { vtable := some wVt })] } }
def wG20 : State := { wCap with seq := { sites := [(0, { st := .running }), (7, { st := .degraded })] } }
def wG21 : State := { wCap with met := { peaks := [(7, { avg1ms := 5 })] } }
def wG22 : State := { wCap with cap := { sites := [(7, { cap := 100000, guardOver := 4 })] }, met := { peaks := [(7, { avg1ms := 120001 })] } }
def wG23 : State := { wCap with cap := { sites := [(7, { cap := 100000, guardOver := 4, guard := 3 })] }, met := { peaks := [(7, { avg1ms := 102000 })] } }
def wG24 : State := { wRun with snap := { holdup := true, busV := 3800 } }
def wG25 : State := { wRun with snap := { job := some ⟨1, 0, [], [], 0, 0⟩, holdup := true, busV := 3800 } }
def wG26 : State := { wRun with snap := { mend := 8 } }
def wG27 : State := { wRun with snap := { holdup := true } }
def wG28 : State := { wRun with snap := { busV := 6400 }, rel := { st := .releasing, level := 5 } }
def wG29 : State := { wRun with snap := { busV := 6400 }, rel := { st := .idle } }
def wG30 : State := { wRun with snap := { busV := 6400 }, rel := { st := .asserted, level := 4 } }
def wG33 : State := { wRun with snap := { busV := 6400 }, rel := { st := .asserted, level := 4, cond := true } }
def wG35 : State := { wRun with snap := { busV := 6400 }, rel := { st := .releasing, cond := true, level := 2 } }
def wG36 : State := { wRun with snap := { busV := 6400 }, rel := { st := .releasing, cond := true, level := 1 } }
def wG37 : State := { wRun with cool := { fans := [(39, { st := .tachLost })] } }
def bH1 : Bytes := (wEntry [(0x10, 1, 7)])
def wH1 : State := { wRun with chi := [(7, { cmd := some ⟨1, wArm, 0, 0, none, true⟩ })] }
def wH2 : State := { wRun with chi := [(0, { restored := true })] }
def wH3 : State := (wChi { restored := true, cmd := some ⟨1, wArm, 0, 0, none, true⟩ })
def wH4 : State := (wChi { restored := true, frozen := true, cmd := some ⟨2, wArm, 0, 0, none, true⟩ })
def wH5 : State := (wChi { restored := true, cmd := some ⟨3, wArm, 0, 0, none, true⟩ })
def wH6 : State := { wRun with chi := [(7, { stale := true })] }
def wH7 : State := (wChi {})
def wH9 : State := { wRun with mem := { chs := [(0, { st := .inService, cap := 0x4000000000 })] } }
def wH10 : State := (wCool {})
def wH11 : State := (wCool { fans := [(0, { st := .running })], tripped := true })
def wH12 : State := (wCool { fans := [(0, { st := .starting, attempt := 1 }), (32, { st := .seized })] })
def wH13 : State := { wCool {} with maq := {} }
def wH14 : State := { wCool {} with pair := {} }
def wH15 : State := (wCool { fans := [(39, { st := .starting, attempt := 4 })] })
def wH16 : State := (wCool { fans := [(0, { st := .starting, attempt := 3 })] })
def wH17 : State := (wCool { fans := [(0, { st := .stalled, attempt := 1 })] })
def wH18 : State := (wCool { fans := [(39, { st := .seized, attempt := 4 })] })
def wH19 : State := (wCool { tripped := true })
def wH23 : State := { wCool { wdtRunning := true, wdtAt := 999999 } with plinth := 1000000 }
def wH24 : State := { wCool { wdtRunning := true, fans := [(0, { st := .running })] } with plinth := 2 ^ 40 }
def wH27 : State := (wCool { valves := [(15, { held := true })] })
def wH28 : State := (wCool { valves := [(15, { moving := true })] })
def wH29 : State := (wCool { valves := [(15, { cmd := 1, moving := true })] })
def wH30 : State := (wCool { valves := [(15, { cmd := 1, pos := true })] })
def wH31 : State := (wCool { valves := [(15, { strayed := true })] })
def wH32 : State := (wCool { fans := [(32, { st := .running })] })
def wH34 : State := (wCool { meters := [(0, { lowSince := some 5 })] })
def wH35 : State := (wCool { meters := [(15, { loss := true })] })
def wH36 : State := (wCool { press := [(7, { loss := true })] })
def wH37 : State := (wCool { zones := [(15, { members := [(7, { cnt := 5, valid := true })] })] })
def wH38 : State := (wCool { zones := [(15, { members := [(7, { cnt := 5, valid := true, times := [999999, 5] })] })] })
def wH39 : State := (wCool { zones := [(15, { members := [(7, { excl := true, readmit := 600 })] })] })
def wH40 : State := { wCool { zones := [(15, { median := some 500, cold := [(0, some 490)] })] } with met := { peaks := [(7, { avg1s := 1000 })] } }
def wH41 : State := (wCool { zones := [(15, { temp := 1119, guard := true })] })
def wH42 : State := (wCool { zones := [(15, { coldLie := true, members := [(7, { excl := true, held := true })] })] })
def wH43 : State := (wLeak {})
def wH44 : State := (wLeak { sensors := [(15, { cand := ropeClass 100 100, candN := 1 })] })
def wH48 : State := (wLeak { note := true, quietAt := some 5 })
def wH49 : State := (wLeak { shakeFault := true })
def wH51 : State := (wLeak { zones := [(15, { latched := true, react := 3 })] })
def wH52 : State := (wLeak { zones := [(15, { latched := true, st := 1 })] })
def wH54 : State := (wLeak { brace := true, causeAcc := true })
def wH55 : State := (wLeak { peak := 7 })
def wI1 : State := (wPt 2 {})
def wI3 : State := (wPt 2 { st := .locking, nIn := 15 })
def wI4 : State := (wPt 2 { st := .locking, nIn := 14 })
def wI5 : State := (wPt 2 { st := .locking, nIn := 15, valid := true, count := 2 })
def wI6 : State := (wPt 2 { st := .locked, nOut := 2, valid := true, count := 6 })
def wI7 : State := (wPt 2 { st := .locked, nOut := 1, valid := true, count := 6 })
def wI8 : State := (wPt 2 { st := .locked, nOut := 2, valid := true, count := 5 })
def wI9 : State := (wPt 1 {})
def wI13 : State := (wPt 2 { lines := [(0, { seq := 255 })] })
def wI14 : State := (wPt 2 { lines := [(12, { cal := some (3, 5), meas := [90, 96] })] })
def bI10 : Bytes := (wBytes 16 [(0, 2, 3), (2, 4, 10)])
def wI17 : State := (wPt 2 { st := .calibrating, lastCount := 6400, lastLocal := 0 })
def wI18 : State := (wPt 2 { st := .calibrating, valid := true, lastCount := 6400, lastLocal := 0 })
def wI20 : State := (wPt 2 { st := .locked, slew := 5 })
def wI21 : State := (wPt 2 { st := .holdover, valid := true })
def wI22 : State := (wPt 2 { valid := true, count := 4 })
def wI23 : State := (wPt 1 { waitEcho := true, offer := some (5, 640) })
def wI24 : State := (wPt 1 { waitEcho := true, save := some (5, 999999) })
def wI25 : State := (wPt 1 { waitEcho := true })
def wI26 : State := (wPt 2 { st := .holdover })
def wI27 : State := (wPt 2 { st := .free })
def wI28 : State := (wPt 2 { st := .locked })
def bI16 : Bytes := (wEntry [(8, 8, 2 ^ 52)])
def wI32 : State := (wPtArm 1 .manager { st := 1, runId := 9 })
def bI19 : Bytes := (wEntry [(0x10, 8, 9), (0x18, 8, 1005000)])
def bI20 : Bytes := (wEntry [(0x10, 8, 9), (0x18, 8, 10000005000)])
def wI34 : State := (wPtArm 2 .locked { st := 1, runId := 9 })
def bI21 : Bytes := (wEntry [(0x10, 8, 9)])
def wI36 : State := (wPtArm 2 .locked { st := 2, runId := 9 })
def wI39 : State := (wPtArm 2 .locked { st := 3, runId := 9, launched := true })
def wI48 : State := (wPtArm 2 .locked { st := 1, runId := 9, launched := true, siteMask := 0x80 })
def wI50 : State := (wPtArm 2 .locked { st := 1, runId := 9, launched := true, n := 9999 })
def bI27 : Bytes := (wBytes 80 [(0, 8, 9), (8, 8, 9999)])
def wI51 : State := (wPtArm 2 .locked { st := 1, runId := 9, launched := true, n := 10000 })
def bI28 : Bytes := (wBytes 80 [(0, 8, 9), (8, 8, 10000)])
def wI52 : State := (wPtArm 2 .locked { st := 1, runId := 9, launched := true, aborted := true })
def wI53 : State := (wPtArm 2 .locked { st := 1, runId := 9, launched := true })
def wI54 : State := (wPtArm 1 .manager { st := 1, runId := 9, launched := true })
def wI56 : State := { wPtArm 1 .manager { st := 2, runId := 9, launched := true, siteMask := 0x80 } with seq := { sites := [(7, { st := .running })] } }
def wI57 : State := { wPtArm 1 .manager { st := 2, runId := 9, launched := true, flags := 2 } with seq := { sites := [(7, { st := .running })] } }
def bI33 : Bytes := (wBytes 32 [(0, 1, 4), (1, 1, 7), (8, 8, 9), (4, 4, 2)])
def wJ1 : State := (wCal { sites := [(7, { rate := 0 })] })
def wJ2 : State := (wCal {})
def wJ3 : State := { wCal {} with cal := { checks := [wChk 0 none], fencedMap := 0xFFFC, busy := [⟨3, 2, 4, 1, 0, 0⟩] } }
def wJ4 : State := { wCal { checks := [wChk 0 none], busy := [⟨3, 2, 4, 1, 0, 0⟩] } with pnt := { count := 20000001 } }
def wJ5 : State := (wCal { checks := [wChk 0 none], busy := [⟨3, 2, 4, 1, 0, 0⟩] })
def wJ7 : State := (wCal { checks := [wChk 0 none], busy := [⟨3, 2, 4, 1, 0, 1⟩] })
def wJ8 : State := (wCal { checks := [wChk 1 none], busy := [⟨2, 1, 4, 2, 0, 0⟩] })
def wJ9 : State := (wCal { checks := [wChk 1 none], busy := [⟨2, 1, 4, 3, 0, 0⟩] })
def wJ10 : State := (wCal { checks := [{ wChk 2 none with r2 := [1, 2, 3, 4] }], busy := [⟨3, 1, 4, 3, 0, 0⟩] })
def wJ11 : State := { wCal { checks := [wChk 1 none], busy := [⟨2, 1, 4, 3, 0, 0⟩] } with pnt := { count := 20000001 } }
def wJ12 : State := (wCal { checks := [wChk 1 none], busy := [⟨2, 1, 4, 3, 0, 1⟩] })
def wJ13 : State := (wCal { checks := [{ wChk 0 (some wArm) with desc := wDesc 1, comp := true, blocks := [0] }], busy := [⟨3, 3, 4, 0, 0, 0⟩] })
def wJ14 : State := (wCal { checks := [{ wChk 0 (some wArm) with desc := wDesc 1, comp := true, blocks := [0, 1] }], busy := [⟨3, 3, 4, 0, 0, 0⟩] })
def wJ19 : State := (wCal { checks := [wChk 0 none] })
def wJ20 : State := { wCal { checks := [wChk 0 none] } with pnt := { count := 20000001 } }
def wJ22 : State := { wCal { checks := [wChk 1 none] } with pnt := { count := 20000001 } }
def wJ23 : State := (wCal { checks := [wChk 1 none] })
def wJ24 : State := (wCal { runs := [⟨9, 0, [], 0, []⟩] })
def bJ1 : Bytes := (wEntry [(8, 8, 2 ^ 52), (0x1D, 1, 0xFF)])
def bJ2 : Bytes := (wEntry [(8, 8, 2 ^ 52), (0x1D, 1, 7)])
def bJ4 : Bytes := (wEntry [(8, 8, 2 ^ 52 + 0x1000)])
def wJ32 : State := (wCal { sites := [(7, { lost := { val := 4 } })] })
def wJ33 : State := (wCal { ring := [(3, []), (2, [])], disSeq := 4 })
def wJ34 : State := (wCal { ring := [(3, []), (2, [])], disSeq := 4, disCur := [(3, 3)] })
def wJ35 : State := (wGg {} [])
def bJ5 : Bytes := (wEntry [(0x10, 8, 2 ^ 52), (0x18, 4, 100), (0x1C, 1, 7)])
def wJ36 : State := (wGg { loaded := true } [(7, zeros 100)])
def bJ6 : Bytes := (wEntry [(0x1C, 1, 7), (0x20, 8, 2 ^ 52)])
def bJ7 : Bytes := (wEntry [(0x1C, 1, 7)])
def wJ40 : State := (wGg { loaded := true, jobs := [([1], none)] } [(7, zeros 100)])
def wJ42 : State := { wGg { loaded := true, jobs := [([1], none)] } [(7, zeros 100)] with cal := { gauge := [(7, { loaded := true, jobs := [([1], none)] })], busy := [⟨5, 4, 7, 0, 0, 0⟩] } }
def wJ44 : State := { wJrn {} with mem := {} }
def bJ9 : Bytes := (wEmit 0)
def wJ45 : State := (wJrn { seqs := [wSeq] })
def bJ10 : Bytes := (wEmit 5)
def wJ46 : State := (wJrn { seqs := [{ wSeq with blocks := 1 }] })
def bJ11 : Bytes := (wEmit 1025)
def bJ12 : Bytes := (wBind 2 20)
def wJ48 : State := (wJrn {})
def bJ13 : Bytes := (wBind 1 0)
def wJ49 : State := (wJrn { seqs := [{ wSeq with recs := [⟨1025, 5, 6, 7, 7⟩] }] })
def wJ51 : State := (wJrn { runs := [{ run := 9, seed := 0, launch := some [] }] })
def wJ52 : State := { wJrn { runs := [{ run := 9, seed := 0, manifest := some [1] }] } with boot := { wRun.boot with identReady := true } }
def wJ54 : State := (wJrn { runs := [{ run := 9, seed := 0, weights := [(7, wBind 1 0)] }], spots := [(9, 7, none)] })
def wJ56 : State := { wJrn {} with snap := { flushing := true } }
def bJ16 : Bytes := (wEntry [(8, 8, 9)])
def wJ58 : State := { wRun with ebx := { up := 1 }, jrn := { held := [(9, [1, 2], false)], runs := [{ run := 9, seed := 0, signed := true, manifest := some [1, 2] }] } }
def bJ17 : Bytes := (wEntry [(8, 8, 9), (0x18, 8, 2 ^ 52), (0x20, 8, 2)])
def wJ60 : State := (wJrn { pairs := [(0, { log := [⟨0, 0, wBytes 64 [(0, 1, 1), (16, 8, 9)]⟩], written := 64, head := 64 })] })
def bJ20 : Bytes := (wEntry [(8, 8, 9), (0x18, 8, 2 ^ 52), (0x20, 8, 64)])
def bJ21 : Bytes := (wEntry [(0x18, 8, 2 ^ 52), (0x20, 8, 64)])
def bJ22 : Bytes := (wEntry [(0x28, 1, 1)])
def bJ23 : Bytes := (wEntry [(0x10, 8, 2 ^ 52), (0x20, 8, 3)])
def wJ65 : State := { wJrn {} with jrn := { hashes := [(wArm, 2 ^ 52, [1, 2, 3])] } }
def bJ26 : Bytes := [1, 2, 3]
def wJ66 : State := { wJrn {} with jrn := { hashes := [(wArm, 0x10000000000 + 0x4000000000, [1, 2, 3])] } }
def wJ67 : State := (wJrn { runs := [{ run := 9, seed := 0, weights := [(7, wBind 1 0)] }] })
def bJ29 : Bytes := (wEntry [(8, 8, 9), (0x29, 1, 7)])
def wK1 : State := (wServ 0 [])
def wK3 : State := (wCh { st := .outOfService, cause := 6 })
def wK6 : State := (wBrace (wServ 0 []))
def wK7 : State := { wServ 0 [] with haz := { brace := true } }
def wK8 : State := (wCh { st := .filling, cap := 0x40000000, front := 1022 })
def wK11 : State := (wCh { st := .training })
def wK13 : State := (wServ 2147450879 [])
def wK14 : State := (wServ 2147450880 [])
def wK15 : State := (wServ 0x4C000000 [])
def wK20 : State := { wServ 0 [999999, 5] with mem := { (wServ 0 [999999, 5]).mem with errLimit := 3 } }
def wK21 : State := { wServ 0 [999999, 5] with mem := { (wServ 0 [999999, 5]).mem with errLimit := 4 } }
def wK24 : State := { wServ 0 [] with cal := { tileErr := [(15, 999999)] } }
def wK25 : State := { wServ 0 [] with boot := { chosen := some 1 } }
def wK27 : State := { wServ 0 [] with ques := [(3, { taken := [⟨wEntry [(0, 2, 1)], armPrincipal, .armature⟩] })] }
def wK29 : State := { wServ 0 [] with boot := {} }
def wL1 : State := (wQ {})
def wL2 : State := { wQ {} with ques := [(1, { sqBase := 0x11400000000, sqSize := 16, cqBase := 0x11400001000, cqSize := 16, sqHead := 15, sqTail := 2, owners := [(1, .fabric), (2, .management), (3, .fabric)] })] }
def wL5 : State := (wQ { taken := [⟨wMv 1 64, armPrincipal, .armature⟩] })
def wL6 : State := (wQ { error := true })
def wL7 : State := (wQ { cqTail := 2, cqHead := 15 })
def wL10 : State := (wPend { owners := [(armPrincipal, .armature)] } (wMv 1 64))
def bL1 : Bytes := (wMv 1 64)
def wL11 : State := (wPend { owners := [(0xFFFFFFFE, .management)] } (wMv 1 64))
def wL12 : State := (wPend { owners := [(armPrincipal, .armature)] } (wMv 9 64))
def bL3 : Bytes := (wMv 9 64)
def wL13 : State := (wPend { owners := [(armPrincipal, .armature)], cqTail := 15 } (wMv 9 64))
def wL15 : State := (wPend { owners := [(armPrincipal, .armature)], error := true } (wMv 1 64))
def bL5 : Bytes := (wMv 2 64)
def bL6 : Bytes := (wMv 3 64)
def bL7 : Bytes := (wMv 1 0)
def bL8 : Bytes := (wMv 3 0x1000000000)
def wL23 : State := (wMov 2 19)
def wL24 : State := { wMov 3 7 with flash0 := [(2, 0x55)] }
def wM1 : State := (wEbx {})
def pM1 : Packet := (wPk 0x8004920000 4 [])
def pM2 : Packet := (wPkS 0x8004920000 4 [])
def pM3 : Packet := (wPk 0x11000000000 256 [])
def bM1 : Bytes := (zeros 256)
def pM4 : Packet := (wPk 0x12000000000 4 [])
def wM5 : State := { wEbx {} with mem := { chs := [(0, { st := .inService, cap := 0x2000000000, bad := [2] })] } }
def pM5 : Packet := (wPk 0x10000000080 4 [])
def pM6 : Packet := (wPk 0x1014 4 [])
def pM7 : Packet := (wPkS 0x1014 4 [])
def pM8 : Packet := (wPk 0x1016 4 [])
def pM9 : Packet := (wPk 0x20000000FFF 4 [])
def pM10 : Packet := (wPk 0x20000001000 4 [])
def pM11 : Packet := (wPk 0x1014 257 [])
def pM12 : Packet := (wPk 0x11000000FF0 0 (wBytes 16 [(0, 4, 5)]))
def pM14 : Packet := (wPkS 0x11000000000 0 [1])
def pM15 : Packet := (wPk 0x8000000000 0 [1])
def pM16 : Packet := (wPk 0x1034 0 [0, 1, 0, 0])
def pM17 : Packet := (wPk 0x1034 0 [])
def pM18 : Packet := (wPk 0 0 [1])
def pM19 : Packet := (wPk 0 1 [1])
def wM20 : State := (wEbx { reqs := [wRq none false] })
def wM21 : State := (wEbx { reqs := [wRq (some 5) false] })
def wM23 : State := (wEbx { reqs := [wRq none true] })
def pM23 : Packet := (wPk 0 0 [])
def wM26 : State := { wEbx { reqs := [wRq none true] } with mov := { jobs := [{ req := wArm, entry := wMvR }] } }
def pM28 : Packet := (wPk 0 0 (zeros 31))
def pM29 : Packet := (wPk 0 0 (zeros 32))
def wM30 : State := (wEbx { siteEp := [(7, 9)] })
def pM30 : Packet := (wPk 0 0 (wBytes 96 [(0, 1, 8), (1, 1, 7)]))
def pM31 : Packet := (wPk 0 0 (wBytes 16 [(0, 4, 5), (8, 4, 2 ^ 32 - 1)]))
def wM35 : State := (wEbx { trained := 1 })
def wM36 : State := { wEbx { trained := 2, portEp := [(0, 7)] } with led := { startSeq := 1, cur := [(14, { startSeq := 1, outcome := .inProgress })] } }
def wM37 : State := (wEbx { trained := 2, portEp := [(0, 7)] })
def wM39 : State := { wEbx { up := 3 } with mov := { jobs := [{ req := wArm, entry := wMvR, active := true }] } }
def wM41 : State := (wEbx { up := 2, reqs := [wRq none true] })
def wM42 : State := (wEbx { up := 2, reqs := [{ wRq (some 5) false with reissued := true }] })
def wM43 : State := (wEbx { up := 1, reqs := [wRq none true] })
def wM44 : State := (wEbx { up := 3, ret := [(6, 9)] })
def wM45 : State := { wEbx {} with ebx := {} }
def wN1 : State := (wMg {} { ring := [wEv 1] })
def wN2 : State := (wMg {} { ring := [wEv 1], cursor := [(1, 1)] })
def wN3 : State := (wMg { subs := [armPrincipal, 2] } { ring := [wEv 1, wEv 2, wEv 3] })
def wN4 : State := (wMg { subs := [armPrincipal, 2] } { ring := List.replicate 4096 (wEv 1), owed := 0x8011 })
def wN5 : State := (wMg { subs := [2], tries := [⟨0, wEv 1, 1⟩] } {})
def wN7 : State := (wMg { subs := [2], tries := [⟨0, wEv 1, 2⟩] } {})
def wN8 : State := (wMg {} {})
def wN11 : State := { wMg {} {} with pair := { st := .partner } }
def wN13 : State := (wMg { tls := [2] } {})
def wN15 : State := (wMg { tls := [2], subs := [2, 2] } {})
def wN16 : State := (wMg { tls := [32] } {})
def wN23 : State := (wMg { streams := [(3, { cfg := 1, refs := [(0, 0x01034)], owner := some armPrincipal })] } {})
def wN24 : State := (wMg { streams := [(3, { cfg := 3, dest := 0x10000000000, refs := [(0, 0x01034)], owner := some armPrincipal })] } {})
def wN26 : State := (wMg { streams := [(3, { cfg := 1 })] } {})
def wN28 : State := (wMg { wallSync := true } {})
def wP1 : State := (wP {})
def wP2 : State := (wHeld { st := .lead, suspended := 2 })
def wP3 : State := { wHeld { st := .lead, outputs := true } with pins := { bay := true } }
def wP4 : State := (wHeld { st := .claiming, beats := 2 })
def wP5 : State := (wHeld { st := .claiming, beats := 1 })
def wP6 : State := { wHeld { st := .claiming, beats := 2 } with pins := { present := 0x81 } }
def wP7 : State := (wHeld { st := .lead, yielding := true })
def wP8 : State := { wP {} with led := { startSeq := 1, cur := [(6, { startSeq := 1, outcome := .inProgress })] } }
def wP9 : State := (wP { st := .partner, yields := 2 })
def wP10 : State := (wP { st := .partner, yields := 1 })
def wP11 : State := (wP { st := .partner, yields := 2, synced := true })
def wP12 : State := (wP { st := .partner, yields := 3 })
def wP13 : State := (wHeld { st := .lead })
def wP14 : State := { wP {} with maq := wLive }
def wP17 : State := (wP { st := .claiming })
def wP18 : State := (wP { st := .partner })
def wP20 : State := { wP { st := .partner } with maq := wLive }
def wP21 : State := (wP { st := .lead })
def wP22 : State := (wP { st := .partner, taking := some .hang, shadowCaps := [(7, (12345, 0, true, false))] })
def wP24 : State := (wP { st := .lead, ownHeld := true, outputs := true, holdState := 1 })
def wP26 : State := (wP { st := .lead, lanes := 1 })
def wP27 : State := (wP { st := .partner, lanes := 2, synced := true })
def wP28 : State := (wP { st := .lead, lanes := 3 })
def wP29 : State := (wP { st := .partner, lanes := 1, synced := true, shadowOk := true })
def wP30 : State := { wP { st := .partner, lanes := 1, lastDivision := some 999999 } with pnt := { st := .locked } }
def wP31 : State := (wP { st := .partner, lanes := 1, shadowRegs := [(0x51000, 0, 5)] })
def wP32 : State := { wP { st := .partner, lanes := 1, shadowOk := true, countLocked := true } with pnt := { st := .locked } }
def wP33 : State := (wP { st := .partner, lanes := 1 })
def wP34 : State := { wP { st := .partner, lanes := 1, countLocked := true } with pnt := { valid := true, count := 50, st := .locked, epoch := { val := 7 } } }
def wP35 : State := { wP { st := .partner, lanes := 1, countLocked := true } with pnt := { valid := true, count := 50, st := .locked } }
def bP3 : Bytes := (wBytes 32 [(0, 1, 4), (1, 1, 7)])
def wP40 : State := (wP { st := .partner, lanes := 1, synced := true })
def wP42 : State := (wP { st := .partner, synced := true, lastDivision := some 999672 })
def wP43 : State := (wP { st := .partner, synced := true, lastDivision := some 999673 })
def wP44 : State := (wP { st := .lead, lanes := 2 })
def wP45 : State := (wP { st := .lead, partnerAbsent := true })
def wP46 : State := (wP { st := .lead, outputs := true, ownHeld := true })
def wP47 : State := (wP { st := .partner, lanes := 3, synced := true })
def wP48 : State := { wP {} with pins := { eject := true } }
def wP50 : State := (wP { st := .lead, synced := true, outputs := true, ownHeld := true })
def wP52 : State := (wP { st := .partner, synced := true })
def wP57 : State := { wP { st := .partner, taking := some .hang } with pwr := { (wP {}).pwr with absent := 0x80 } }
def wQ1 : State := (wR { stage := some (8, []), snap := some (8, []), sel := 3 } 3)
def wQ2 : State := (wR {} 3)
def wQ4 : State := (wR {} 1)
def wQ5 : State := (wR { snap := some (0x1004, [1, 2, 3]) } 0)
def wQ6 : State := { wRun with rst := { locked := true } }
def wQ7 : State := { wRun with rst := { locked := false } }
def wQ8 : State := (wR { stage := some (0x1000, [(0, 5)]) } 13)
def wQ9 : State := (wR { status := 0x3FF } 3)
def wY1 : State := (wServY 0 [])
def wY2 : State := { wServY 0 [] with mem := { chs := [(0, { st := .inService, cap := 0x2000000000 })] } }
def wY3 : State := (wServY 0x4C000000 [])
def wY6 : State := (wServY 0x78000000 [])
def wY11 : State := { wServY 0 [999999, 5] with mem := { (wServY 0 [999999, 5]).mem with errLimit := 3 } }
def wY12 : State := { wServY 0 [999999, 5] with mem := { (wServY 0 [999999, 5]).mem with errLimit := 4 } }
def wY13 : State := { wServY 0 [999999, 5] with plinth := 5 + 3600 * 32768, mem := { (wServY 0 [999999, 5]).mem with errLimit := 3 } }
def bY1 : Bytes := (wEntry [(0, 2, 1), (8, 8, 0x10000000000), (0x10, 4, 4096)])
def bY2 : Bytes := (wStEnt 0 2)
def bY3 : Bytes := (wStEnt 0 1)
def bY4 : Bytes := (wStEnt 3 0)
def wY14 : State := { wStr with maq := { live := some { secs := [] } } }
def wZ1 : State := (wDiv 101000)
def wZ2 : State := (wDiv 100999)
def wZ3 : State := (wQZ { taken := [⟨wEntry [(4, 4, 9)], armPrincipal, .armature⟩], cqTail := 15 })
def wZ4 : State := { wQZ {} with dram := [(0x1400000000, 7)] }
def bZ1 : Bytes := [1, 0, 3]
def wZ5 : State := { wRun with mem := { chs := [(0, { st := .inService, cap := 0x2000000000, bad := [0x50000000] })] } }
def bZ2 : Bytes := (zeros 63)
def bZ3 : Bytes := (zeros 64)

theorem witness_PowerAndResetCommandsTakeEffect_0_3 :
    (wRun.pwr.standby = true) ∧ (wRun.rst.under = none) := by decide +kernel
theorem witness_PowerAndResetCommandsTakeEffect_0_4 :
    (wA1.pwr.core = true) ∧ (wA1.rst.under = none) ∧ (wA1.rst.wdtRunning = true) ∧ ((List.take 2 (List.filter (fun w => decide (wA1.plinth < w + secs 600)) wA1.rst.wdtTimes)).length = 2) := by decide +kernel
theorem witness_PowerAndResetCommandsTakeEffect_0_5 :
    (wA2.pwr.core = true) ∧ (wA2.rst.under = none) ∧ (wA2.rst.wdtRunning = true) ∧ ((List.take 2 (List.filter (fun w => decide (wA2.plinth < w + secs 600)) wA2.rst.wdtTimes)).length < 2) := by decide +kernel
theorem witness_PowerAndResetCommandsTakeEffect_1_0_0 :
    (wRun.pwr.core = true) ∧ (wRun.rst.under = none) ∧ (wRun.may wArm.principal Right.reset = true) := by decide +kernel
theorem witness_PowerAndResetCommandsTakeEffect_1_0_1 :
    (wRun.pwr.core = true) ∧ (wRun.rst.under = none) ∧ (wRun.may wArm.principal Right.reset = true) := by decide +kernel
theorem witness_PowerAndResetCommandsTakeEffect_1_0_2 :
    (wA3.pwr.core = true) ∧ (wA3.rst.under = none) ∧ (wA3.may wArm.principal Right.reset = true) ∧ ((wA3.snapshot 3).snap.job = none) := by decide +kernel
theorem witness_PowerAndResetCommandsTakeEffect_1_0_3 :
    (wRun.pwr.core = true) ∧ (wRun.rst.under = none) ∧ (wRun.may wArm.principal Right.reset = true) ∧ ((wRun.snapshot 3).snap.job.isSome = true) := by decide +kernel
theorem witness_PowerAndResetCommandsTakeEffect_1_1 :
    (wRun.pwr.core = true) := by decide +kernel
theorem witness_PowerAndResetCommandsTakeEffect_1_1_b :
    (wRun.pwr.core = true) := by decide +kernel
theorem witness_PowerAndResetCommandsTakeEffect_1_2 :
    (wA4.pwr.standby = true) ∧ (wA4.rst.under = none) ∧ (wA4.debug = 1) ∧ ((wA4.snapshot 3).snap.job = none) := by decide +kernel
theorem witness_PowerAndResetCommandsTakeEffect_1_3 :
    (wA5.pwr.standby = true) ∧ (wA5.rst.otHeld = true) := by decide +kernel
theorem witness_EarlyStartStepsTakeEffect_0 :
    (wB1.pwr.standby = true) ∧ (wB1.pins.inputGood = false) ∧ (Option.all (fun k => decide (3 ≤ k.rank)) wB1.rst.under = true) := by decide +kernel
theorem witness_EarlyStartStepsTakeEffect_0_b :
    (wB2.pwr.standby = true) ∧ (wB2.pins.inputGood = false) ∧ (Option.all (fun k => decide (3 ≤ k.rank)) wB2.rst.under = true) := by decide +kernel
theorem witness_EarlyStartStepsTakeEffect_1 :
    (wB3.pwr.standby = true) ∧ (wB3.pins.inputGood = true) ∧ (wB3.stepEnded 5 = false) := by decide +kernel
theorem witness_EarlyStartStepsTakeEffect_1_b :
    (wB3.pwr.standby = true) ∧ (wB3.pins.inputGood = true) ∧ (wB3.stepEnded 5 = false) := by decide +kernel
theorem witness_EarlyStartStepsTakeEffect_2 :
    (wB3.pwr.standby = true) := by decide +kernel
theorem witness_EarlyStartStepsTakeEffect_2_b :
    (wB6.pwr.standby = true) := by decide +kernel
theorem witness_EarlyStartStepsTakeEffect_3 :
    (wB7.pwr.standby = true) ∧ (wB7.stepRuns 4 = true) := by decide +kernel
theorem witness_EarlyStartStepsTakeEffect_3_b :
    (wB8.pwr.standby = true) ∧ (wB8.stepRuns 4 = true) := by decide +kernel
theorem witness_EarlyStartStepsTakeEffect_4 :
    (wB9.pwr.standby = true) ∧ (wB9.stepRuns 5 = true) := by decide +kernel
theorem witness_EarlyStartStepsTakeEffect_5_0 :
    (wB10.pwr.standby = true) ∧ (wB10.stepRuns 7 = true) ∧ (wB10.rst.otHeld = false) ∧ (Option.any (fun x => x.form == 2) (wB10.stepOf 7) = false) := by decide +kernel
theorem witness_EarlyStartStepsTakeEffect_5_1 :
    (wB10.pwr.standby = true) ∧ (wB10.stepRuns 7 = true) ∧ (wB10.rst.otHeld = false) ∧ (Option.any (fun x => x.form == 2) (wB10.stepOf 7) = false) := by decide +kernel
theorem witness_EarlyStartStepsTakeEffect_6 :
    (wB12.pwr.core = true) ∧ (wB12.stepRuns 8 = true) ∧ (u8 (([[0, 0, 0, 0, 0, 0, 0, 0, 0, 1, 0]] : List Bytes)[0]?.getD []) 9 ≠ 0) := by decide +kernel
theorem witness_EarlyStartStepsTakeEffect_6_b :
    (wB12.pwr.core = true) ∧ (wB12.stepRuns 8 = true) ∧ (u8 ((List.replicate 24 [0, 0, 0, 0, 0, 0, 0, 0, 0, 1, 0] : List Bytes)[0]?.getD []) 9 ≠ 0) := by decide +kernel
theorem witness_EarlyStartStepsTakeEffect_7 :
    (wB14.pwr.core = true) ∧ (wB14.stepRuns 9 = true) ∧ (wB14.haz.tjState ≠ 1) := by decide +kernel
theorem witness_EarlyStartStepsTakeEffect_7_b :
    (wB14.pwr.core = true) ∧ (wB14.stepRuns 9 = true) ∧ (wB14.haz.tjState ≠ 1) := by decide +kernel
theorem witness_ReleaseAndRecoveryStepsTakeEffect_0 :
    (wB16.pwr.core = true) ∧ (wB16.stepRuns 10 = true) ∧ (wB16.boot.chosen = none) := by decide +kernel
theorem witness_ReleaseAndRecoveryStepsTakeEffect_0_b :
    (wB17.pwr.core = true) ∧ (wB17.stepRuns 10 = true) ∧ (wB17.boot.chosen = none) := by decide +kernel
theorem witness_ReleaseAndRecoveryStepsTakeEffect_1 :
    (wB18.pwr.core = true) ∧ (wB18.stepRuns 10 = true) ∧ (wB18.boot.chosen = some 1) := by decide +kernel
theorem witness_ReleaseAndRecoveryStepsTakeEffect_2 :
    (wB19.pwr.core = true) ∧ (wB19.boot.romService = true) ∧ (wB19.rst.under = none) := by decide +kernel
theorem witness_ReleaseAndRecoveryStepsTakeEffect_3 :
    (wB20.pwr.standby = true) ∧ (wB20.stepRuns 12 = true) ∧ (12 ≠ 11) := by decide +kernel
theorem witness_ReleaseAndRecoveryStepsTakeEffect_4 :
    (wB21.pwr.standby = true) ∧ (wB21.stepRuns 11 = true) := by decide +kernel
theorem witness_ReleaseAndRecoveryStepsTakeEffect_5_0 :
    (wB22.pwr.standby = true) ∧ (wB22.stepEnded 3 = true) ∧ (wB22.stepEnded 4 = false) ∧ (wB22.stepRuns 4 = false) := by decide +kernel
theorem witness_ReleaseAndRecoveryStepsTakeEffect_5_1 :
    (wB22.pwr.standby = true) ∧ (wB22.stepEnded 3 = true) ∧ (wB22.stepEnded 4 = false) ∧ (wB22.stepRuns 4 = false) := by decide +kernel
theorem witness_ReleaseAndRecoveryStepsTakeEffect_6 :
    (wB24.pwr.standby = true) ∧ (wB24.stepEnded 6 = true) ∧ (wB24.pair.st = PairSt.partner) := by decide +kernel
theorem witness_ReleaseAndRecoveryStepsTakeEffect_7 :
    (wB25.pwr.standby = true) ∧ (wB25.pwr.core = false) ∧ (wB25.rst.otHeld = false) ∧ (Option.any (fun x => x.form == 2 || x.outcome != StepEnd.inProgress && decide (x.attempt < 2)) (wB25.stepOf 7) = true) := by decide +kernel
theorem witness_ReleaseAndRecoveryStepsTakeEffect_8_0 :
    (wRun.pwr.standby = true) ∧ (wRun.stepEnded 20 = true) := by decide +kernel
theorem witness_ReleaseAndRecoveryStepsTakeEffect_8_1 :
    (wRun.pwr.standby = true) ∧ (wRun.stepEnded 20 = true) := by decide +kernel
theorem witness_ReleaseAndRecoveryStepsTakeEffect_9 :
    (wB26.pwr.standby = true) ∧ (wB26.snap.holdup = false) ∧ (wB26.led.toMirror.contains 20 = true) ∧ (1 ≤ 20) ∧ (20 ≤ 20) ∧ (wB26.led.cur.find? 20 = some { startSeq := 1, outcome := StepEnd.ok : LedgerEntry }) := by decide +kernel
theorem witness_ReleaseAndRecoveryStepsTakeEffect_10 :
    (wB27.pwr.standby = true) ∧ (wB27.snap.holdup = false) ∧ (wB27.led.toMirror.contains (32 + 20) = true) ∧ (1 ≤ 20) ∧ (20 ≤ 20) ∧ (wB27.led.prev.find? 20 = some { startSeq := 1, outcome := StepEnd.ok : LedgerEntry }) := by decide +kernel
theorem witness_FirmwareStepsTakeEffect_0 :
    (wB28.pwr.core = true) ∧ (wB28.stepRuns 11 = false) ∧ (wB28.stepRuns 15 = true) ∧ (∃ k, k < 4 ∧ k ≠ 3 % 4 ∧ ∀ (x : Nat × Option TrainReport), x ∈ wB28.mem.reports → x.fst ≠ k) := by decide +kernel
theorem witness_FirmwareStepsTakeEffect_1 :
    (wB29.pwr.core = true) ∧ (wB29.stepRuns 11 = false) ∧ (wB29.stepRuns 15 = false) ∧ ((wB29.ch 2).st ≠ ChSt.training) ∧ (wB29.withoutDimms = true) ∧ (wB29.otherSerial 2 5 = true) ∧ (∃ k, k < 4 ∧ k ≠ 2 % 4 ∧ ∀ (x : Nat × Option TrainReport), x ∈ wB29.mem.reports → x.fst ≠ k) := by decide +kernel
theorem witness_FirmwareStepsTakeEffect_2 :
    (wB30.pwr.core = true) ∧ (wB30.stepRuns 11 = false) ∧ (wB30.stepRuns 15 = false) ∧ ((wB30.ch 2).st = ChSt.training) := by decide +kernel
theorem witness_FirmwareStepsTakeEffect_3 :
    (wB31.armServes = true) ∧ (wB31.stepRuns 11 = false) ∧ (wB31.stepRuns 16 = true) ∧ (wB31.led.kind = RKind.powerOn) := by decide +kernel
theorem witness_FirmwareStepsTakeEffect_4 :
    (wB32.pwr.core = true) ∧ (wB32.pwr.caliper = true) ∧ (wB32.stepRuns 11 = false) ∧ (wB32.stepRuns 17 = true) := by decide +kernel
theorem witness_FirmwareStepsTakeEffect_5 :
    (wB33.armServes = true) ∧ (wB33.stepRuns 11 = false) ∧ (wB33.stepRuns 18 = false) ∧ (wB33.stepRuns 19 = true) := by decide +kernel
theorem witness_FirmwareStepsTakeEffect_6 :
    (wB34.imageRuns = true) ∧ (wB34.stepRuns 11 = false) ∧ (wB34.stepRuns 18 = false) ∧ (wB34.stepRuns 20 = true) ∧ (wB34.led.kind = RKind.armature) := by decide +kernel
theorem witness_FirmwareStepsTakeEffect_9 :
    (wB37.pwr.core = true) ∧ (wB37.boot.dwellRunning = true) ∧ (wB37.boot.deferredFail = false) := by decide +kernel
theorem witness_FirmwareStepsTakeEffect_10 :
    (wRun.pwr.core = true) ∧ (wRun.may 0 Right.read = true) := by decide +kernel
theorem witness_FirmwareStepsTakeEffect_11 :
    (wRun.pwr.core = true) ∧ (wRun.may 4294967294 Right.read = false) := by decide +kernel
theorem witness_FirmwareStepsTakeEffect_12 :
    (wRun.pwr.core = true) := by decide +kernel
theorem witness_UpdateOperationsTakeEffect_0_0 :
    (wRun.armServes = true) ∧ (wRun.may wArm.principal Right.update = true) ∧ (wRun.updRefusal = none) := by decide +kernel
theorem witness_UpdateOperationsTakeEffect_0_1 :
    (wRun.armServes = true) ∧ (wRun.may wArm.principal Right.update = true) ∧ (wRun.updRefusal = none) := by decide +kernel
theorem witness_UpdateOperationsTakeEffect_0_2 :
    (wRun.armServes = true) ∧ (wRun.may wArm.principal Right.update = true) ∧ (wRun.updRefusal = none) ∧ (u8 bC3 28 < 8) := by decide +kernel
theorem witness_UpdateOperationsTakeEffect_1 :
    (wC1.imageRuns = true) ∧ (wC1.boot.upd = some { op := 257, req := wArm, target := 1, image := [] : UpdOp }) ∧ (wC1.brace = false) ∧ (wC1.snap.holdup = false) ∧ (({ op := 257, req := wArm, target := 1, image := [] : UpdOp }.held && wC1.pins.eject) = false) := by decide +kernel
theorem witness_UpdateOperationsTakeEffect_1_b :
    (wC1.imageRuns = true) ∧ (wC1.boot.upd = some { op := 257, req := wArm, target := 1, image := [] : UpdOp }) ∧ (wC1.brace = false) ∧ (wC1.snap.holdup = false) ∧ (({ op := 257, req := wArm, target := 1, image := [] : UpdOp }.held && wC1.pins.eject) = false) := by decide +kernel
theorem witness_UpdateOperationsTakeEffect_2 :
    (wC3.imageRuns = true) ∧ (wC3.boot.upd = some { op := 257, req := wArm, target := 1, image := [] : UpdOp }) ∧ (wC3.brace = true ∨ wC3.snap.holdup = true ∨ ({ op := 257, req := wArm, target := 1, image := [] : UpdOp }.held && wC3.pins.eject) = true) := by decide +kernel
theorem witness_UpdateOperationsTakeEffect_3 :
    (wC4.imageRuns = true) ∧ (wC4.may wArm.principal Right.update = true) ∧ (wC4.boot.run = some { version := 1 : RunImage }) ∧ (wC4.updRefusal = none) ∧ (wC4.boot.healthy = true) ∧ (wC4.boot.slot ≠ 2) ∧ (wC4.log.devFailed = 0) := by decide +kernel
theorem witness_UpdateOperationsTakeEffect_4 :
    (wC5.armServes = true) ∧ (wC5.may wArm.principal Right.update = true) ∧ (wC5.updRefusal = none) ∧ (7 < 8) ∧ ((wC5.boot.pushes.any fun p => p.site == 7) = true) := by decide +kernel
theorem witness_UpdateOperationsTakeEffect_5 :
    (wRun.armServes = true) ∧ (wRun.may wArm.principal Right.update = true) ∧ (wRun.updRefusal = none) ∧ (7 < 8) ∧ ((wRun.boot.pushes.any fun p => p.site == 7) = false) := by decide +kernel
theorem witness_UpdateOperationsTakeEffect_6_0 :
    (wC6.imageRuns = true) ∧ (List.find? (fun p => p.site == 7) wC6.boot.pushes = some { site := 7, entry := 0, req := some wArm : Push }) ∧ (wC6.brace = false) := by decide +kernel
theorem witness_UpdateOperationsTakeEffect_6_1 :
    (wC6.imageRuns = true) ∧ (List.find? (fun p => p.site == 7) wC6.boot.pushes = some { site := 7, entry := 0, req := some wArm : Push }) ∧ (wC6.brace = false) ∧ (none ≠ some { site := 7, entry := 0, req := some wArm : Push }.digest) ∧ ({ site := 7, entry := 0, req := some wArm : Push }.retried = false) := by decide +kernel
theorem witness_UpdateOperationsTakeEffect_6_2 :
    (wC8.imageRuns = true) ∧ (List.find? (fun p => p.site == 7) wC8.boot.pushes = some { site := 7, entry := 0, req := some wArm, retried := true : Push }) ∧ (wC8.brace = false) ∧ (none ≠ some { site := 7, entry := 0, req := some wArm, retried := true : Push }.digest) ∧ ({ site := 7, entry := 0, req := some wArm, retried := true : Push }.retried = true) := by decide +kernel
theorem witness_UpdateOperationsTakeEffect_7 :
    (wC9.imageRuns = true) ∧ (wC9.brace = true) := by decide +kernel
theorem witness_UpdateOperationsTakeEffect_8 :
    (wC10.armServes = true) ∧ (wC10.may wArm.principal Right.update = true) ∧ (7 < 8) ∧ (wC10.opRefusal = none) ∧ ((wC10.site 7).template ≠ 255) := by decide +kernel
theorem witness_UpdateOperationsTakeEffect_9 :
    (wC11.imageRuns = true) ∧ (wC11.may wArm.principal Right.update = true) ∧ (wC11.opRefusal = none) ∧ (64 ≤ u32 bC4 24) ∧ (wC11.canGive (u64 bC4 16) 64 = none) := by decide +kernel
theorem witness_UpdateOperationsTakeEffect_10 :
    (wRun.imageRuns = true) := by decide +kernel
theorem witness_ControlRecordsAndPlasterTakeEffect_0_0 :
    (wRun.imageRuns = true) ∧ (wRun.may wArm.principal Right.update = true) ∧ (wRun.updRefusal = none) ∧ (u8 bC6 6 = 1) := by decide +kernel
theorem witness_ControlRecordsAndPlasterTakeEffect_0_1 :
    (wRun.imageRuns = true) ∧ (wRun.may wArm.principal Right.update = true) ∧ (wRun.updRefusal = none) ∧ (u8 bC7 6 = 2) := by decide +kernel
theorem witness_ControlRecordsAndPlasterTakeEffect_0_3 :
    (wRun.imageRuns = true) ∧ (wRun.may wArm.principal Right.update = true) ∧ (wRun.updRefusal = none) ∧ (u8 bC8 6 = 3) := by decide +kernel
theorem witness_ControlRecordsAndPlasterTakeEffect_0_5 :
    (wRun.imageRuns = true) ∧ (wRun.may wArm.principal Right.update = true) ∧ (wRun.updRefusal = none) ∧ (u8 bC9 6 = 4) := by decide +kernel
theorem witness_ControlRecordsAndPlasterTakeEffect_0_6 :
    (wRun.imageRuns = true) ∧ (wRun.may wArm.principal Right.update = true) ∧ (wRun.updRefusal = none) ∧ (u8 bC10 6 = 5) := by decide +kernel
theorem witness_ControlRecordsAndPlasterTakeEffect_1 :
    (wRun.imageRuns = true) ∧ (wRun.updRefusal = none) ∧ (u8 bC11 6 = 6) := by decide +kernel
theorem witness_ControlRecordsAndPlasterTakeEffect_2 :
    (wRun.imageRuns = true) ∧ (wRun.may wArm.principal Right.update = true) ∧ (wRun.updRefusal = none) ∧ (wRun.crCheck bC12 = some 16) := by decide +kernel
theorem witness_ControlRecordsAndPlasterTakeEffect_3 :
    (wC12.imageRuns = true) ∧ (wC12.boot.slot = 2) ∧ (wC12.updRefusal = none) := by decide +kernel
theorem witness_ControlRecordsAndPlasterTakeEffect_4 :
    (wC13.inService = true) ∧ (wC13.boot.identReady = true) := by decide +kernel
theorem witness_ControlRecordsAndPlasterTakeEffect_5 :
    (wRun.inService = true) ∧ (wRun.boot.identReady = false) := by decide +kernel
theorem witness_ControlRecordsAndPlasterTakeEffect_6 :
    (wC14.imageRuns = true) ∧ (wC14.stepEnded 20 = false) := by decide +kernel
theorem witness_ControlRecordsAndPlasterTakeEffect_6_b :
    (wC15.imageRuns = true) ∧ (wC15.stepEnded 20 = false) := by decide +kernel
theorem witness_MaquetteCommandsTakeEffect_0_0 :
    (wRun.pwr.core = true) ∧ (wRun.maq.op = none) ∧ (wRun.maq.waiting = []) ∧ (wRun.may wArm.principal Right.struct = true) ∧ (maqField bD1 1 = none) ∧ (wRun.brace = false) ∧ (wRun.snap.holdup = false) ∧ (∀ (x : PendSwitch), wRun.maq.pend = some x → x.profile ≠ u8 bD1 20) := by decide +kernel
theorem witness_MaquetteCommandsTakeEffect_0_0_b :
    (wRun.pwr.core = true) ∧ (wRun.maq.op = none) ∧ (wRun.maq.waiting = []) ∧ (wRun.may wArm.principal Right.struct = true) ∧ (maqField bD2 1 = none) ∧ (wRun.brace = false) ∧ (wRun.snap.holdup = false) ∧ (∀ (x : PendSwitch), wRun.maq.pend = some x → x.profile ≠ u8 bD2 20) := by decide +kernel
theorem witness_MaquetteCommandsTakeEffect_0_1 :
    (wRun.pwr.core = true) ∧ (wRun.maq.op = none) ∧ (wRun.maq.waiting = []) ∧ (wRun.may wArm.principal Right.struct = true) ∧ (maqField bD3 2 = none) ∧ ((u8 wRun.optBytes 12).testBit 0 = false) ∧ (wRun.brace = false) ∧ (wRun.snap.holdup = false) := by decide +kernel
theorem witness_MaquetteCommandsTakeEffect_0_2 :
    (wD1.pwr.core = true) ∧ (wD1.maq.op = none) ∧ (wD1.maq.waiting = []) ∧ (wD1.may wArm.principal Right.struct = true) ∧ (maqField bD4 3 = none) := by decide +kernel
theorem witness_MaquetteCommandsTakeEffect_0_3 :
    (wRun.pwr.core = true) ∧ (wRun.maq.op = none) ∧ (wRun.maq.waiting = []) ∧ (wRun.may wArm.principal Right.struct = true) ∧ (maqField bD5 4 = none) := by decide +kernel
theorem witness_MaquetteCommandsTakeEffect_0_4 :
    (wD2.pwr.core = true) ∧ (wD2.maq.op = none) ∧ (wD2.maq.waiting = []) ∧ (wD2.may wArm.principal Right.struct = true) ∧ (maqField bD6 5 = none) ∧ (wD2.brace = false) ∧ (wD2.snap.holdup = false) ∧ (wD2.protBusy = false) := by decide +kernel
theorem witness_MaquetteCommandsTakeEffect_0_4_b :
    (wD3.pwr.core = true) ∧ (wD3.maq.op = none) ∧ (wD3.maq.waiting = []) ∧ (wD3.may wArm.principal Right.struct = true) ∧ (maqField bD6 5 = none) ∧ (wD3.brace = false) ∧ (wD3.snap.holdup = false) ∧ (wD3.protBusy = false) := by decide +kernel
theorem witness_MaquetteCommandsTakeEffect_2 :
    (wD4.pwr.core = true) ∧ (wD4.protBusy = true) := by decide +kernel
theorem witness_MaquetteCommandsTakeEffect_3_0 :
    (wD5.pwr.standby = true) ∧ (wD5.maq.op = some { op := 1, req := wArm, profile := 3 : MaqOp }) ∧ (wD5.maq.pinsNext = none) ∧ (wD5.maq.waiting = []) ∧ (wD5.brace = false) := by decide +kernel
theorem witness_MaquetteCommandsTakeEffect_3_0_b :
    (wD6.pwr.standby = true) ∧ (wD6.maq.op = some { op := 4, req := wArm, profile := 3 : MaqOp }) ∧ (wD6.maq.pinsNext = none) ∧ (wD6.maq.waiting = []) ∧ (wD6.brace = false) := by decide +kernel
theorem witness_MaquetteCommandsTakeEffect_3_1 :
    (wD7.pwr.standby = true) ∧ (wD7.maq.pend = some { profile := 1, target := { version := 2 : Structure }, req := wArm : PendSwitch }) ∧ (wD7.blocking { profile := 1, target := { version := 2 : Structure }, req := wArm : PendSwitch }.target = 0) := by decide +kernel
theorem witness_MaquetteCommandsTakeEffect_3_2 :
    (wRun.pwr.standby = true) ∧ (wRun.pins.profile.toNat ≠ 2 % 4) ∧ (wRun.maq.op = none) := by decide +kernel
theorem witness_MaquetteCommandsTakeEffect_3_2_b :
    (wD8.pwr.standby = true) ∧ (wD8.pins.profile.toNat ≠ 0 % 4) ∧ (wD8.maq.op = none) := by decide +kernel
theorem witness_MaquetteCommandsTakeEffect_1_0 :
    (wD5.pwr.core = true) ∧ (wD5.maq.op.isSome = true ∨ wD5.maq.waiting ≠ []) := by decide +kernel
theorem witness_MaquetteCommandsTakeEffect_1_1 :
    (wD5.pwr.core = true) ∧ (wD5.maq.op.isSome = true ∨ wD5.maq.waiting ≠ []) := by decide +kernel
theorem witness_MaquetteCommandsTakeEffect_1_2 :
    (wD5.pwr.core = true) ∧ (wD5.maq.op.isSome = true ∨ wD5.maq.waiting ≠ []) := by decide +kernel
theorem witness_MaquetteCommandsTakeEffect_1_3 :
    (wD5.pwr.core = true) ∧ (wD5.maq.op.isSome = true ∨ wD5.maq.waiting ≠ []) := by decide +kernel
theorem witness_MaquetteCommandsTakeEffect_1_4 :
    (wD5.pwr.core = true) ∧ (wD5.maq.op.isSome = true ∨ wD5.maq.waiting ≠ []) := by decide +kernel
theorem witness_SiteCommandsTakeEffect_0_0 :
    (wE1.pwr.core = true) ∧ (wE1.may wArm.principal Right.sitePower = true) ∧ (7 < 8) ∧ (wE1.maq.live.isSome = true) ∧ (wE1.reacting 7 = false) ∧ (wE1.leakHeld 7 = false) ∧ (wE1.upBarred 7 = false) ∧ (wE1.snap.holdup = false) ∧ ((wE1.site 7).st = SiteSt.off ∨ (wE1.site 7).st = SiteSt.degraded) := by decide +kernel
theorem witness_SiteCommandsTakeEffect_0_0_b :
    (wE2.pwr.core = true) ∧ (wE2.may wArm.principal Right.sitePower = true) ∧ (7 < 8) ∧ (wE2.maq.live.isSome = true) ∧ (wE2.reacting 7 = false) ∧ (wE2.leakHeld 7 = false) ∧ (wE2.upBarred 7 = false) ∧ (wE2.snap.holdup = false) ∧ ((wE2.site 7).st = SiteSt.off ∨ (wE2.site 7).st = SiteSt.degraded) := by decide +kernel
theorem witness_SiteCommandsTakeEffect_0_1 :
    (wE3.pwr.core = true) ∧ (wE3.may wArm.principal Right.sitePower = true) ∧ (7 < 8) ∧ (wE3.maq.live.isSome = true) ∧ (wE3.reacting 7 = false) ∧ (wE3.leakHeld 7 = false) ∧ ((wE3.site 7).st = SiteSt.faulted) := by decide +kernel
theorem witness_SiteCommandsTakeEffect_0_2 :
    (wE4.pwr.core = true) ∧ (wE4.may wArm.principal Right.sitePower = true) ∧ (7 < 8) ∧ (wE4.maq.live.isSome = true) ∧ (wE4.reacting 7 = false) ∧ ((wE4.site 7).st = SiteSt.running) := by decide +kernel
theorem witness_SiteCommandsTakeEffect_0_3 :
    (wE5.pwr.core = true) ∧ (wE5.may wArm.principal Right.sitePower = true) ∧ (7 < 8) ∧ (wE5.maq.live.isSome = true) ∧ (wE5.reacting 7 = false) ∧ ((wE5.site 7).st = SiteSt.retryWait) := by decide +kernel
theorem witness_SiteCommandsTakeEffect_0_4 :
    (wE1.pwr.core = true) ∧ (wE1.may wArm.principal Right.sitePower = true) ∧ (7 < 8) ∧ (wE1.maq.live.isSome = true) ∧ (wE1.reacting 7 = false) ∧ ((wE1.site 7).st = SiteSt.off) := by decide +kernel
theorem witness_SiteCommandsTakeEffect_0_5 :
    (wE3.pwr.core = true) ∧ (wE3.may wArm.principal Right.sitePower = true) ∧ (7 < 8) ∧ (wE3.maq.live.isSome = true) ∧ (wE3.reacting 7 = false) ∧ ((wE3.site 7).st = SiteSt.faulted) ∧ ((wE3.site 7).stale = false) := by decide +kernel
theorem witness_SiteCommandsTakeEffect_0_6 :
    (wE8.pwr.core = true) ∧ (wE8.may wArm.principal Right.sitePower = true) ∧ (7 < 8) ∧ (wE8.maq.live.isSome = true) ∧ (wE8.reacting 7 = false) ∧ ((wE8.site 7).st = SiteSt.faulted) ∧ ((wE8.site 7).stale = true) ∧ (wE8.hasSec 2 = true) := by decide +kernel
theorem witness_SiteCommandsTakeEffect_0_7 :
    (wE4.pwr.core = true) ∧ (wE4.may wArm.principal Right.sitePower = true) ∧ (7 < 8) ∧ (wE4.maq.live.isSome = true) ∧ (wE4.reacting 7 = false) ∧ ((wE4.site 7).st ≠ SiteSt.faulted) := by decide +kernel
theorem witness_SiteCommandsTakeEffect_0_8 :
    (wE10.pwr.core = true) ∧ (wE10.may wArm.principal Right.sitePower = true) ∧ (7 < 8) ∧ (wE10.maq.live.isSome = true) ∧ (wE10.reacting 7 = false) ∧ ((wE10.site 7).st = SiteSt.unadopted) ∧ (wE10.seq.sysReset = false) := by decide +kernel
theorem witness_SiteCommandsTakeEffect_0_9 :
    (wE11.pwr.core = true) ∧ (wE11.may wArm.principal Right.sitePower = true) ∧ (7 < 8) ∧ (wE11.maq.live.isSome = true) ∧ (wE11.reacting 7 = false) ∧ ((wE11.site 7).st = SiteSt.off ∨ (wE11.site 7).st = SiteSt.unmatched) ∧ (wE11.hasSec 2 = true) := by decide +kernel
theorem witness_SiteCommandsTakeEffect_1 :
    (wRun.pwr.core = true) ∧ (wRun.may wArm.principal Right.sitePower = true) ∧ (6 = 0 ∨ 6 ≤ 6) := by decide +kernel
theorem witness_SiteCommandsTakeEffect_1_b :
    (wRun.pwr.core = true) ∧ (wRun.may wArm.principal Right.sitePower = true) ∧ (0 = 0 ∨ 6 ≤ 0) := by decide +kernel
theorem witness_SitePresenceAndIdentityTakeEffect_0 :
    (7 < 8) ∧ (wE12.pwr.standby = true) := by decide +kernel
theorem witness_SitePresenceAndIdentityTakeEffect_1 :
    (7 < 8) ∧ (wE13.pwr.standby = true) ∧ ((wE13.site 7).st = SiteSt.settling) ∧ (wE13.pins.present.getLsbD 7 = true) ∧ (wE13.pwr.absent.getLsbD (24 + 7) = false) := by decide +kernel
theorem witness_SitePresenceAndIdentityTakeEffect_1_b :
    (7 < 8) ∧ (wE14.pwr.standby = true) ∧ ((wE14.site 7).st = SiteSt.settling) ∧ (wE14.pins.present.getLsbD 7 = true) ∧ (wE14.pwr.absent.getLsbD (24 + 7) = false) := by decide +kernel
theorem witness_SitePresenceAndIdentityTakeEffect_2 :
    (7 < 8) ∧ (wE15.pwr.standby = true) ∧ ((wE15.site 7).st = SiteSt.identifying) ∧ ((wE15.site 7).romReads = 0) := by decide +kernel
theorem witness_SitePresenceAndIdentityTakeEffect_2_b :
    (7 < 8) ∧ (wE15.pwr.standby = true) ∧ ((wE15.site 7).st = SiteSt.identifying) ∧ ((wE15.site 7).romReads = 0) := by decide +kernel
theorem witness_SitePresenceAndIdentityTakeEffect_3 :
    (7 < 8) ∧ (wE17.pwr.standby = true) ∧ ((wE17.site 7).st = SiteSt.identifying) ∧ ((wE17.site 7).romReads = 2) := by decide +kernel
theorem witness_SitePresenceAndIdentityTakeEffect_4 :
    (7 < 8) ∧ (wE15.pwr.standby = true) ∧ ((wE15.site 7).romReads = 0) := by decide +kernel
theorem witness_SitePresenceAndIdentityTakeEffect_5 :
    (7 < 8) ∧ (wE4.pwr.standby = true) := by decide +kernel
theorem witness_SitePresenceAndIdentityTakeEffect_5_b :
    (7 < 8) ∧ (wE13.pwr.standby = true) := by decide +kernel
theorem witness_SitePresenceAndIdentityTakeEffect_6 :
    (7 < 8) ∧ (wE5.pwr.standby = true) ∧ ((wE5.site 7).st = SiteSt.retryWait) ∧ (wE5.snap.holdup = false) ∧ ((wE5.seq.sysReset && wE5.seq.sysSites.getLsbD 7) = false) ∧ (wE5.upBarred 7 = false) := by decide +kernel
theorem witness_SitePresenceAndIdentityTakeEffect_7 :
    (7 < 8) ∧ (wE22.pwr.standby = true) ∧ ((wE22.site 7).st = SiteSt.retryWait) ∧ (wE22.snap.holdup = true) := by decide +kernel
theorem witness_SitePresenceAndIdentityTakeEffect_8 :
    (7 < 8) ∧ (wE23.pwr.standby = true) ∧ (wE23.seq.toAdopt.getLsbD 7 = true) ∧ (wE23.pair.st = PairSt.lead) ∧ (wE23.maq.live.isSome = true) ∧ (wE23.pwr.absent.getLsbD (24 + 7) = false) ∧ (wE23.rst.wardenHeld.getLsbD 7 = false) := by decide +kernel
theorem witness_SitePresenceAndIdentityTakeEffect_8_b :
    (7 < 8) ∧ (wE23.pwr.standby = true) ∧ (wE23.seq.toAdopt.getLsbD 7 = true) ∧ (wE23.pair.st = PairSt.lead) ∧ (wE23.maq.live.isSome = true) ∧ (wE23.pwr.absent.getLsbD (24 + 7) = false) ∧ (wE23.rst.wardenHeld.getLsbD 7 = false) := by decide +kernel
theorem witness_SitePresenceAndIdentityTakeEffect_8_c :
    (7 < 8) ∧ (wE25.pwr.standby = true) ∧ (wE25.seq.toAdopt.getLsbD 7 = true) ∧ (wE25.pair.st = PairSt.lead) ∧ (wE25.maq.live.isSome = true) ∧ (wE25.pwr.absent.getLsbD (24 + 7) = false) ∧ (wE25.rst.wardenHeld.getLsbD 7 = false) := by decide +kernel
theorem witness_WardenResetsTakeEffect_0 :
    (wE4.pwr.standby = true) ∧ (7 < 8) ∧ (Instr.wardenBrownout 7, 32) ∈ [(Instr.wardenBrownout 7, 32), (Instr.wardenSupervisorReset 7, 33)] ∧ ((Instr.wardenBrownout 7, 32).snd = 32) := by decide +kernel
theorem witness_WardenResetsTakeEffect_0_b :
    (wE4.pwr.standby = true) ∧ (7 < 8) ∧ (Instr.wardenSupervisorReset 7, 33) ∈ [(Instr.wardenBrownout 7, 32), (Instr.wardenSupervisorReset 7, 33)] ∧ ((Instr.wardenSupervisorReset 7, 33).snd = 33) := by decide +kernel
theorem witness_WardenResetsTakeEffect_1 :
    (wE4.pwr.standby = true) ∧ (7 < 8) := by decide +kernel
theorem witness_WardenResetsTakeEffect_2 :
    (wE29.pwr.standby = true) ∧ (7 < 8) ∧ (wE29.rst.wardenHeld.getLsbD 7 = true) := by decide +kernel
theorem witness_WardenResetsTakeEffect_3 :
    (wE30.pwr.standby = true) ∧ (7 < 8) ∧ (wE30.seq.trayReset = true) := by decide +kernel
theorem witness_WardenResetsTakeEffect_3_b :
    (wE31.pwr.standby = true) ∧ (7 < 8) ∧ (wE31.seq.trayReset = true) := by decide +kernel
theorem witness_RailEventsTakeEffect_0 :
    (wE32.pwr.standby = true) ∧ ((wE32.rail 255).st = RailSt.upDelay) ∧ ((wE32.rail 255).downReq = false) := by decide +kernel
theorem witness_RailEventsTakeEffect_1 :
    (wE33.pwr.standby = true) ∧ (ndPgKind.nat (wE33.node 255) = 1) := by decide +kernel
theorem witness_RailEventsTakeEffect_2 :
    (wE34.pwr.standby = true) ∧ (ndPgKind.nat (wE34.node 255) ≠ 1) := by decide +kernel
theorem witness_RailEventsTakeEffect_3 :
    (wE32.pwr.standby = true) ∧ (ndPgKind.nat (wE32.node 255) ≠ 1) ∧ (wE32.pgLine 255 = [255]) ∧ (false = (false != ndPgLow (wE32.node 255))) ∧ ((wE32.rail 255).pg = false) := by decide +kernel
theorem witness_RailEventsTakeEffect_4 :
    (wE36.pwr.standby = true) ∧ (ndPgKind.nat (wE36.node 255) ≠ 1) ∧ (wE36.pgLine 255 = [255]) ∧ (false = (false != ndPgLow (wE36.node 255))) ∧ ((wE36.rail 255).pg ≠ false) := by decide +kernel
theorem witness_RailEventsTakeEffect_4_b :
    (wE37.pwr.standby = true) ∧ (ndPgKind.nat (wE37.node 255) ≠ 1) ∧ (wE37.pgLine 255 = [255]) ∧ (true = (true != ndPgLow (wE37.node 255))) ∧ ((wE37.rail 255).pg ≠ true) := by decide +kernel
theorem witness_RailEventsTakeEffect_4_c :
    (wE38.pwr.standby = true) ∧ (ndPgKind.nat (wE38.node 255) ≠ 1) ∧ (wE38.pgLine 255 = [255]) ∧ (true = (true != ndPgLow (wE38.node 255))) ∧ ((wE38.rail 255).pg ≠ true) := by decide +kernel
theorem witness_RailEventsTakeEffect_5 :
    (wE39.pwr.standby = true) ∧ ((wE39.rail 255).pg = true) := by decide +kernel
theorem witness_RailEventsTakeEffect_6 :
    (wE34.pwr.standby = true) ∧ ((wE34.rail 255).st = RailSt.rising) ∧ ((wE34.rail 255).inRetry = false) := by decide +kernel
theorem witness_RailEventsTakeEffect_7 :
    (wE41.pwr.standby = true) ∧ ((wE41.rail 255).st = RailSt.good) ∧ (wE41.supervised 255 = true) ∧ ((wE41.rail 255).pg = false) ∧ ((wE41.rail 255).surveyAt ≠ some wE41.plinth) ∧ (Option.all (fun x => x.fst != wE41.plinth) (wE41.rail 255).pgLossAt = true) ∧ (∀ (c : Nat), wE41.chanOf 255 1 = some c → (wE41.chan c).stale = true ∨ (wE41.chan c).out = 0) ∧ (wE41.setRail 255 (have __src := wE41.rail 255; { st := __src.st, enable := __src.enable, downReq := __src.downReq, pg := __src.pg, qualified := __src.qualified, fresh := __src.fresh, changes := __src.changes, chatterDone := __src.chatterDone, retries := __src.retries, inRetry := __src.inRetry, cut := __src.cut, masked := __src.masked, pmbusTries := __src.pmbusTries, pollFails := __src.pollFails, backoffDone := __src.backoffDone, retryAt := __src.retryAt, surveyAt := __src.surveyAt, leftGood := __src.leftGood, pgLossAt := some (wE41.plinth, (Tbl.get (0, 0, 0) wE41.snap.sums ((siteOf 255).getD 8)).fst.testBit (255 - scopeBase 255)), lastBack := __src.lastBack, backCount := __src.backCount : Rail }) = wE41.setRail 255 (have __src := wE41.rail 255; { st := __src.st, enable := __src.enable, downReq := __src.downReq, pg := __src.pg, qualified := __src.qualified, fresh := __src.fresh, changes := __src.changes, chatterDone := __src.chatterDone, retries := __src.retries, inRetry := __src.inRetry, cut := __src.cut, masked := __src.masked, pmbusTries := __src.pmbusTries, pollFails := __src.pollFails, backoffDone := __src.backoffDone, retryAt := __src.retryAt, surveyAt := __src.surveyAt, leftGood := __src.leftGood, pgLossAt := some (wE41.plinth, (Tbl.get (0, 0, 0) wE41.snap.sums ((siteOf 255).getD 8)).fst.testBit (255 - scopeBase 255)), lastBack := __src.lastBack, backCount := __src.backCount : Rail })) := by decide +kernel
theorem witness_RailEventsTakeEffect_8 :
    (wE42.pwr.standby = true) ∧ (wE42.supervised 255 = false) ∧ ((wE42.rail 255).st = RailSt.good) := by decide +kernel
theorem witness_RailEventsTakeEffect_9 :
    (wE43.pwr.standby = true) ∧ ((wE43.rail 255).st = RailSt.downDelay) := by decide +kernel
theorem witness_RailEventsTakeEffect_10 :
    (wE44.pwr.standby = true) ∧ ((wE44.rail 255).st = RailSt.falling) := by decide +kernel
theorem witness_RailEventsTakeEffect_11 :
    (wE45.pwr.standby = true) ∧ ((wE45.rail 255).st = RailSt.retryFall) := by decide +kernel
theorem witness_RailEventsTakeEffect_12 :
    (wE46.pwr.standby = true) ∧ ((wE46.rail 255).st = RailSt.backoff) ∧ (wE46.snap.holdup = true) := by decide +kernel
theorem witness_RailEventsTakeEffect_13 :
    (wE47.pwr.standby = true) ∧ ((wE47.rail 255).st = RailSt.backoff) ∧ (wE47.snap.holdup = false) := by decide +kernel
theorem witness_RailEventsTakeEffect_14 :
    (wE48.pwr.standby = true) ∧ ((wE48.rail 255).st = RailSt.good) := by decide +kernel
theorem witness_RailEventsTakeEffect_15_0 :
    (wE21.pwr.standby = true) ∧ (ndEnableKind.nat (wE21.node 255) = 1) := by decide +kernel
theorem witness_RailEventsTakeEffect_15_1 :
    (wE22e2.pwr.standby = true) ∧ (ndEnableKind.nat (wE22e2.node 255) = 1) ∧ ((wE22e2.rail 255).pmbusTries < 2) := by decide +kernel
theorem witness_RailEventsTakeEffect_15_2 :
    (wE23e2.pwr.standby = true) ∧ (ndEnableKind.nat (wE23e2.node 255) = 1) ∧ (2 ≤ (wE23e2.rail 255).pmbusTries) ∧ ((wE23e2.rail 255).st = RailSt.rising) := by decide +kernel
theorem witness_RailEventsTakeEffect_16_0 :
    (wE24.pwr.standby = true) ∧ (ndPgKind.nat (wE24.node 255) = 1) ∧ ((wE24.rail 255).pg = !Nat.testBit 0 11) := by decide +kernel
theorem witness_RailEventsTakeEffect_16_0_b :
    (wE25e2.pwr.standby = true) ∧ (ndPgKind.nat (wE25e2.node 255) = 1) ∧ ((wE25e2.rail 255).pg = !Nat.testBit 2048 11) := by decide +kernel
theorem witness_RailEventsTakeEffect_16_1 :
    (wE26.pwr.standby = true) ∧ (ndPgKind.nat (wE26.node 255) = 1) ∧ ((wE26.rail 255).pollFails < 2) := by decide +kernel
theorem witness_RailEventsTakeEffect_16_2 :
    (wE27.pwr.standby = true) ∧ (ndPgKind.nat (wE27.node 255) = 1) ∧ (2 ≤ (wE27.rail 255).pollFails) := by decide +kernel
theorem witness_SurveyCommandsTakeEffect_0 :
    (wF1.pwr.standby = true) ∧ (15 < 16) ∧ (2 ≤ 25) ∧ (25 < 26) ∧ (wF1.pwr.absent.getLsbD (8 + 15) = false) ∧ (wF1.refFailed 15 = false) ∧ (mapKind (mapEntry wF1.surveyMap (24 * 15 + (25 - 2))) = 4 → wF1.supplyOff (24 * 15 + (25 - 2)) = false) := by decide +kernel
theorem witness_SurveyCommandsTakeEffect_0_b :
    (wF1.pwr.standby = true) ∧ (0 < 16) ∧ (2 ≤ 2) ∧ (2 < 26) ∧ (wF1.pwr.absent.getLsbD (8 + 0) = false) ∧ (wF1.refFailed 0 = false) ∧ (mapKind (mapEntry wF1.surveyMap (24 * 0 + (2 - 2))) = 4 → wF1.supplyOff (24 * 0 + (2 - 2)) = false) := by decide +kernel
theorem witness_SurveyCommandsTakeEffect_0_c :
    (wF3.pwr.standby = true) ∧ (0 < 16) ∧ (2 ≤ 2) ∧ (2 < 26) ∧ (wF3.pwr.absent.getLsbD (8 + 0) = false) ∧ (wF3.refFailed 0 = false) ∧ (mapKind (mapEntry wF3.surveyMap (24 * 0 + (2 - 2))) = 4 → wF3.supplyOff (24 * 0 + (2 - 2)) = false) := by decide +kernel
theorem witness_SurveyCommandsTakeEffect_1 :
    (wFan.pwr.standby = true) ∧ (0 < 16) ∧ (2 ≤ 2) ∧ (2 < 26) ∧ (wFan.pwr.absent.getLsbD (8 + 0) = false) ∧ (wFan.refFailed 0 = false) ∧ (mapKind (mapEntry wFan.surveyMap (24 * 0 + (2 - 2))) = 4) ∧ (wFan.supplyOff (24 * 0 + (2 - 2)) = true) ∧ (wFan.seq.armOwed = false) := by decide +kernel
theorem witness_SurveyCommandsTakeEffect_2 :
    (wRun.pwr.standby = true) ∧ (15 < 16) ∧ (0 < 2) ∧ (wRun.pwr.absent.getLsbD (8 + 15) = false) := by decide +kernel
theorem witness_SurveyCommandsTakeEffect_2_b :
    (wRun.pwr.standby = true) ∧ (15 < 16) ∧ (1 < 2) ∧ (wRun.pwr.absent.getLsbD (8 + 15) = false) := by decide +kernel
theorem witness_SurveyCommandsTakeEffect_2_c :
    (wF4.pwr.standby = true) ∧ (15 < 16) ∧ (1 < 2) ∧ (wF4.pwr.absent.getLsbD (8 + 15) = false) := by decide +kernel
theorem witness_SurveyCommandsTakeEffect_2_d :
    (wF5.pwr.standby = true) ∧ (15 < 16) ∧ (1 < 2) ∧ (wF5.pwr.absent.getLsbD (8 + 15) = false) := by decide +kernel
theorem witness_SurveyCommandsTakeEffect_3 :
    (wF5.pwr.standby = true) ∧ (2 ≤ 2) ∧ (wF5.refFailed 15 = true) := by decide +kernel
theorem witness_SurveyCommandsTakeEffect_4 :
    (wRun.pwr.standby = true) ∧ (16 ≤ 16 ∨ 26 ≤ 2 ∨ wRun.pwr.absent.getLsbD (8 + 16) = true) := by decide +kernel
theorem witness_SurveyCommandsTakeEffect_4_b :
    (wRun.pwr.standby = true) ∧ (16 ≤ 0 ∨ 26 ≤ 26 ∨ wRun.pwr.absent.getLsbD (8 + 0) = true) := by decide +kernel
theorem witness_SurveyCommandsTakeEffect_5 :
    (wIdle.pwr.standby = true) ∧ (wIdle.dieIdle 0 = true) := by decide +kernel
theorem witness_SurveyCommandsTakeEffect_6 :
    (wF7.pwr.standby = true) ∧ (wF7.dieIdle 0 = false) := by decide +kernel
theorem witness_SurveyCommandsTakeEffect_7 :
    (wRun.pwr.standby = true) := by decide +kernel
theorem witness_SurveyCommandsTakeEffect_8 :
    (wRun.pwr.standby = true) := by decide +kernel
theorem witness_SurveyCommandsTakeEffect_9 :
    (wF8.pwr.standby = true) ∧ (wF8.may wArm.principal Right.counterClear = true) ∧ (279 < 280) := by decide +kernel
theorem witness_SurveyCommandsTakeEffect_10 :
    (wRun.pwr.standby = true) ∧ (wRun.may wNone.principal Right.counterClear = false) := by decide +kernel
theorem witness_ClocksAndDomainsTakeEffect_0 :
    (wRun.pwr.standby = true) ∧ (3 = 0 ∨ wRun.pwr.core = true) := by decide +kernel
theorem witness_ClocksAndDomainsTakeEffect_0_b :
    (wB1.pwr.standby = true) ∧ (0 = 0 ∨ wB1.pwr.core = true) := by decide +kernel
theorem witness_ClocksAndDomainsTakeEffect_1 :
    (wF10.pwr.standby = true) ∧ (wF10.oscNeeded = false) := by decide +kernel
theorem witness_ClocksAndDomainsTakeEffect_2 :
    (wF11.pwr.standby = true) ∧ (wF11.oscNeeded = true) := by decide +kernel
theorem witness_ClocksAndDomainsTakeEffect_3 :
    (wRun.pwr.standby = true) := by decide +kernel
theorem witness_ClocksAndDomainsTakeEffect_4 :
    (wF12.pwr.standby = true) ∧ (wF12.pwr.core = true) ∧ (wF12.pwr.armFaults < 2) := by decide +kernel
theorem witness_ClocksAndDomainsTakeEffect_5 :
    (wRun.pwr.standby = true) ∧ (wRun.pwr.core = true) := by decide +kernel
theorem witness_ClocksAndDomainsTakeEffect_6 :
    (wRun.pwr.standby = true) ∧ (3 < 4) ∧ (wRun.pwr.core = true) ∧ (wRun.pwr.armature = true) ∧ (wRun.pwr.pairFailed.getLsbD 3 = false) ∧ (wRun.rst.under = none) ∧ ((List.take 2 (List.filter (fun w => decide (wRun.plinth < w + secs 600)) wRun.rst.wdtTimes)).length < 2) := by decide +kernel
theorem witness_ClocksAndDomainsTakeEffect_7 :
    (wF13.pwr.standby = true) ∧ (Tbl.get { : ModGroup } wF13.seq.groups 10 = { mask := 1024, waiting := true : ModGroup }) ∧ ({ mask := 1024, waiting := true : ModGroup }.waiting = true) ∧ ({ mask := 1024, waiting := true : ModGroup }.latched = false) ∧ (∀ (k : Nat), k < 24 → { mask := 1024, waiting := true : ModGroup }.mask.getLsbD k = true → (wF13.rail (256 + k)).st = RailSt.off) := by decide +kernel
theorem witness_ClocksAndDomainsTakeEffect_7_b :
    (wF14.pwr.standby = true) ∧ (Tbl.get { : ModGroup } wF14.seq.groups 12 = { mask := 12288, waiting := true : ModGroup }) ∧ ({ mask := 12288, waiting := true : ModGroup }.waiting = true) ∧ ({ mask := 12288, waiting := true : ModGroup }.latched = false) ∧ (∀ (k : Nat), k < 24 → { mask := 12288, waiting := true : ModGroup }.mask.getLsbD k = true → (wF14.rail (256 + k)).st = RailSt.off) := by decide +kernel
theorem witness_ClocksAndDomainsTakeEffect_7_c :
    (wF15.pwr.standby = true) ∧ (Tbl.get { : ModGroup } wF15.seq.groups 6 = { mask := 64, waiting := true : ModGroup }) ∧ ({ mask := 64, waiting := true : ModGroup }.waiting = true) ∧ ({ mask := 64, waiting := true : ModGroup }.latched = false) ∧ (∀ (k : Nat), k < 24 → { mask := 64, waiting := true : ModGroup }.mask.getLsbD k = true → (wF15.rail (256 + k)).st = RailSt.off) := by decide +kernel
theorem witness_ClocksAndDomainsTakeEffect_7_d :
    (wF16.pwr.standby = true) ∧ (Tbl.get { : ModGroup } wF16.seq.groups 8 = { mask := 256, waiting := true : ModGroup }) ∧ ({ mask := 256, waiting := true : ModGroup }.waiting = true) ∧ ({ mask := 256, waiting := true : ModGroup }.latched = false) ∧ (∀ (k : Nat), k < 24 → { mask := 256, waiting := true : ModGroup }.mask.getLsbD k = true → (wF16.rail (256 + k)).st = RailSt.off) := by decide +kernel
theorem witness_HoldupBraceAndJunctionTakeEffect_0 :
    (wE5.pwr.standby = true) ∧ (wE5.snap.holdup = false) := by decide +kernel
theorem witness_HoldupBraceAndJunctionTakeEffect_1 :
    (wF18.pwr.standby = true) ∧ (wF18.snap.holdup = true) := by decide +kernel
theorem witness_HoldupBraceAndJunctionTakeEffect_2 :
    (wF19.pwr.standby = true) ∧ (wF19.snap.holdup = true) := by decide +kernel
theorem witness_HoldupBraceAndJunctionTakeEffect_3 :
    (wRun.pwr.standby = true) ∧ (wRun.snap.holdup = false) := by decide +kernel
theorem witness_HoldupBraceAndJunctionTakeEffect_4 :
    (wF20.pwr.standby = true) ∧ (wF20.pair.holdState = 1) := by decide +kernel
theorem witness_HoldupBraceAndJunctionTakeEffect_4_b :
    (wF21.pwr.standby = true) ∧ (wF21.pair.holdState = 1) := by decide +kernel
theorem witness_HoldupBraceAndJunctionTakeEffect_5 :
    (wF22.pwr.standby = true) ∧ (wF22.haz.brace = true) ∧ (wF22.haz.pga < hzNote.nat wF22.braceSec) ∧ (wF22.haz.braceQuiet.getD wF22.haz.braceAt + secs (hzHold.nat wF22.braceSec) ≤ wF22.plinth) ∧ (wF22.since wF22.haz.lastReq (secs (hzHold.nat wF22.braceSec)) = true) := by decide +kernel
theorem witness_HoldupBraceAndJunctionTakeEffect_6 :
    (wF23.pwr.standby = true) ∧ (wF23.haz.brace = true) ∧ (hzNote.nat wF23.braceSec ≤ wF23.haz.pga ∨ wF23.plinth < wF23.haz.braceQuiet.getD wF23.haz.braceAt + secs (hzHold.nat wF23.braceSec) ∨ wF23.since wF23.haz.lastReq (secs (hzHold.nat wF23.braceSec)) = false) := by decide +kernel
theorem witness_HoldupBraceAndJunctionTakeEffect_7 :
    (wRun.pwr.standby = true) ∧ (wRun.pwr.core = true) ∧ (2 ≤ [-640, 1759].length) ∧ ([-640, 1759].length ≤ 4) ∧ (∀ (v : Int), v ∈ [-640, 1759] → -640 ≤ v ∧ v ≤ 2400) ∧ (∀ (v : Int), v ∈ [-640, 1759] → v < obTjStop.val wRun.optBytes ∧ v ≤ obTjReset.val wRun.optBytes) := by decide +kernel
theorem witness_HoldupBraceAndJunctionTakeEffect_7_b :
    (wRun.pwr.standby = true) ∧ (wRun.pwr.core = true) ∧ (2 ≤ [100, 200, 300, 1759].length) ∧ ([100, 200, 300, 1759].length ≤ 4) ∧ (∀ (v : Int), v ∈ [100, 200, 300, 1759] → -640 ≤ v ∧ v ≤ 2400) ∧ (∀ (v : Int), v ∈ [100, 200, 300, 1759] → v < obTjStop.val wRun.optBytes ∧ v ≤ obTjReset.val wRun.optBytes) := by decide +kernel
theorem witness_HoldupBraceAndJunctionTakeEffect_8 :
    (wRun.pwr.standby = true) ∧ (wRun.pwr.core = true) ∧ (wRun.haz.tjState = 0) ∧ (-640 ≤ 1760) ∧ (1760 ≤ 2400) ∧ (obTjStop.val wRun.optBytes ≤ 1760) ∧ (1760 ≤ obTjReset.val wRun.optBytes) := by decide +kernel
theorem witness_HoldupBraceAndJunctionTakeEffect_8_b :
    (wRun.pwr.standby = true) ∧ (wRun.pwr.core = true) ∧ (wRun.haz.tjState = 0) ∧ (-640 ≤ 2000) ∧ (2000 ≤ 2400) ∧ (obTjStop.val wRun.optBytes ≤ 2000) ∧ (2000 ≤ obTjReset.val wRun.optBytes) := by decide +kernel
theorem witness_HoldupBraceAndJunctionTakeEffect_9 :
    (wF24.pwr.standby = true) ∧ (wF24.haz.tjState = 1) ∧ (wF24.haz.tjCore < obTjStop.val wF24.optBytes - 160) := by decide +kernel
theorem witness_ClocksAndDomainsTakeEffect_0_0 :
    (wRun.pwr.standby = true) ∧ (3 = 0 ∨ wRun.pwr.core = true) ∧ (¬(3 = 3 ∧ wRun.mem.shed = true)) ∧ ({ pending := wRun.pending, fresh := wRun.fresh, plinth := wRun.plinth, pwr := have __src := wRun.pwr; { standby := __src.standby, core := __src.core, armature := __src.armature, caliper := __src.caliper, sram := __src.sram, fabric := __src.fabric, memory := __src.memory, rcOsc := wRun.pwr.rcOsc || 3 == 0, clkReq := setBit wRun.pwr.clkReq 3 true, clkGrant := setBit wRun.pwr.clkGrant 3 true, clkFault := __src.clkFault, armFaults := if 3 = 1 then 0 else wRun.pwr.armFaults, slowScan := __src.slowScan, absent := __src.absent, dieId := __src.dieId, identMismatch := __src.identMismatch, identFirst := __src.identFirst, calFenced := __src.calFenced, calClkFault := __src.calClkFault, pairFailed := __src.pairFailed, pairTime := __src.pairTime, pairStuck := __src.pairStuck : Power }, rst := wRun.rst, led := wRun.led, ob := wRun.ob, pins := wRun.pins, maq := wRun.maq, boot := wRun.boot, debug := wRun.debug, seq := wRun.seq, svy := wRun.svy, rcnt := wRun.rcnt, log := wRun.log, snap := wRun.snap, mem := wRun.mem, cap := wRun.cap, rel := wRun.rel, met := wRun.met, pat := wRun.pat, pnt := wRun.pnt, haz := wRun.haz, cool := wRun.cool, chi := wRun.chi, ckpt := wRun.ckpt, cal := wRun.cal, jrn := wRun.jrn, gimg := wRun.gimg, selfTest := wRun.selfTest, ques := wRun.ques, mov := wRun.mov, ebx := wRun.ebx, evt := wRun.evt, mgt := wRun.mgt, pair := wRun.pair, acc := wRun.acc, flash0 := wRun.flash0, flash1 := wRun.flash1, dram := wRun.dram, out := wRun.out : State } = { pending := wRun.pending, fresh := wRun.fresh, plinth := wRun.plinth, pwr := have __src := wRun.pwr; { standby := __src.standby, core := __src.core, armature := __src.armature, caliper := __src.caliper, sram := __src.sram, fabric := __src.fabric, memory := __src.memory, rcOsc := wRun.pwr.rcOsc || 3 == 0, clkReq := setBit wRun.pwr.clkReq 3 true, clkGrant := setBit wRun.pwr.clkGrant 3 true, clkFault := __src.clkFault, armFaults := if 3 = 1 then 0 else wRun.pwr.armFaults, slowScan := __src.slowScan, absent := __src.absent, dieId := __src.dieId, identMismatch := __src.identMismatch, identFirst := __src.identFirst, calFenced := __src.calFenced, calClkFault := __src.calClkFault, pairFailed := __src.pairFailed, pairTime := __src.pairTime, pairStuck := __src.pairStuck : Power }, rst := wRun.rst, led := wRun.led, ob := wRun.ob, pins := wRun.pins, maq := wRun.maq, boot := wRun.boot, debug := wRun.debug, seq := wRun.seq, svy := wRun.svy, rcnt := wRun.rcnt, log := wRun.log, snap := wRun.snap, mem := wRun.mem, cap := wRun.cap, rel := wRun.rel, met := wRun.met, pat := wRun.pat, pnt := wRun.pnt, haz := wRun.haz, cool := wRun.cool, chi := wRun.chi, ckpt := wRun.ckpt, cal := wRun.cal, jrn := wRun.jrn, gimg := wRun.gimg, selfTest := wRun.selfTest, ques := wRun.ques, mov := wRun.mov, ebx := wRun.ebx, evt := wRun.evt, mgt := wRun.mgt, pair := wRun.pair, acc := wRun.acc, flash0 := wRun.flash0, flash1 := wRun.flash1, dram := wRun.dram, out := wRun.out : State }) := by decide +kernel
theorem witness_ClocksAndDomainsTakeEffect_0_0_b :
    (wRun.pwr.standby = true) ∧ (1 = 0 ∨ wRun.pwr.core = true) ∧ (¬(1 = 3 ∧ wRun.mem.shed = true)) ∧ ({ pending := wRun.pending, fresh := wRun.fresh, plinth := wRun.plinth, pwr := have __src := wRun.pwr; { standby := __src.standby, core := __src.core, armature := __src.armature, caliper := __src.caliper, sram := __src.sram, fabric := __src.fabric, memory := __src.memory, rcOsc := wRun.pwr.rcOsc || 1 == 0, clkReq := setBit wRun.pwr.clkReq 1 true, clkGrant := setBit wRun.pwr.clkGrant 1 true, clkFault := __src.clkFault, armFaults := if 1 = 1 then 0 else wRun.pwr.armFaults, slowScan := __src.slowScan, absent := __src.absent, dieId := __src.dieId, identMismatch := __src.identMismatch, identFirst := __src.identFirst, calFenced := __src.calFenced, calClkFault := __src.calClkFault, pairFailed := __src.pairFailed, pairTime := __src.pairTime, pairStuck := __src.pairStuck : Power }, rst := wRun.rst, led := wRun.led, ob := wRun.ob, pins := wRun.pins, maq := wRun.maq, boot := wRun.boot, debug := wRun.debug, seq := wRun.seq, svy := wRun.svy, rcnt := wRun.rcnt, log := wRun.log, snap := wRun.snap, mem := wRun.mem, cap := wRun.cap, rel := wRun.rel, met := wRun.met, pat := wRun.pat, pnt := wRun.pnt, haz := wRun.haz, cool := wRun.cool, chi := wRun.chi, ckpt := wRun.ckpt, cal := wRun.cal, jrn := wRun.jrn, gimg := wRun.gimg, selfTest := wRun.selfTest, ques := wRun.ques, mov := wRun.mov, ebx := wRun.ebx, evt := wRun.evt, mgt := wRun.mgt, pair := wRun.pair, acc := wRun.acc, flash0 := wRun.flash0, flash1 := wRun.flash1, dram := wRun.dram, out := wRun.out : State } = { pending := wRun.pending, fresh := wRun.fresh, plinth := wRun.plinth, pwr := have __src := wRun.pwr; { standby := __src.standby, core := __src.core, armature := __src.armature, caliper := __src.caliper, sram := __src.sram, fabric := __src.fabric, memory := __src.memory, rcOsc := wRun.pwr.rcOsc || 1 == 0, clkReq := setBit wRun.pwr.clkReq 1 true, clkGrant := setBit wRun.pwr.clkGrant 1 true, clkFault := __src.clkFault, armFaults := if 1 = 1 then 0 else wRun.pwr.armFaults, slowScan := __src.slowScan, absent := __src.absent, dieId := __src.dieId, identMismatch := __src.identMismatch, identFirst := __src.identFirst, calFenced := __src.calFenced, calClkFault := __src.calClkFault, pairFailed := __src.pairFailed, pairTime := __src.pairTime, pairStuck := __src.pairStuck : Power }, rst := wRun.rst, led := wRun.led, ob := wRun.ob, pins := wRun.pins, maq := wRun.maq, boot := wRun.boot, debug := wRun.debug, seq := wRun.seq, svy := wRun.svy, rcnt := wRun.rcnt, log := wRun.log, snap := wRun.snap, mem := wRun.mem, cap := wRun.cap, rel := wRun.rel, met := wRun.met, pat := wRun.pat, pnt := wRun.pnt, haz := wRun.haz, cool := wRun.cool, chi := wRun.chi, ckpt := wRun.ckpt, cal := wRun.cal, jrn := wRun.jrn, gimg := wRun.gimg, selfTest := wRun.selfTest, ques := wRun.ques, mov := wRun.mov, ebx := wRun.ebx, evt := wRun.evt, mgt := wRun.mgt, pair := wRun.pair, acc := wRun.acc, flash0 := wRun.flash0, flash1 := wRun.flash1, dram := wRun.dram, out := wRun.out : State }) := by decide +kernel
theorem witness_ClocksAndDomainsTakeEffect_0_1 :
    (wF25.pwr.standby = true) ∧ (3 = 0 ∨ wF25.pwr.core = true) ∧ (3 = 3) ∧ (wF25.mem.shed = true) := by decide +kernel
theorem witness_ClocksAndDomainsTakeEffect_0_3 :
    (wF25.pwr.standby = true) ∧ (3 = 0 ∨ wF25.pwr.core = true) ∧ (wF25.clkNeeded 3 = false) := by decide +kernel
theorem witness_ClocksAndDomainsTakeEffect_0_3_b :
    (wRun.pwr.standby = true) ∧ (1 = 0 ∨ wRun.pwr.core = true) ∧ (wRun.clkNeeded 1 = false) := by decide +kernel
theorem witness_LogAndSnapshotTakeEffect_0 :
    (wG1.pwr.standby = true) ∧ (wG1.log.page = some { slot := 0, bytes := zeros 64, count := 1 : PageJob }) ∧ (wG1.log.gap = []) := by decide +kernel
theorem witness_LogAndSnapshotTakeEffect_0_b :
    (wG2.pwr.standby = true) ∧ (wG2.log.page = some { slot := 0, bytes := zeros 64, count := 1 : PageJob }) ∧ (wG2.log.gap = []) := by decide +kernel
theorem witness_LogAndSnapshotTakeEffect_1 :
    (wRun.pwr.standby = true) ∧ (wRun.log.page = none) := by decide +kernel
theorem witness_LogAndSnapshotTakeEffect_2 :
    (wG3.pwr.standby = true) ∧ (wG3.snap.holdup = false) ∧ (wG3.log.ready = true) ∧ (wG3.log.ahead < 4079) := by decide +kernel
theorem witness_LogAndSnapshotTakeEffect_3 :
    (wRun.pwr.standby = true) ∧ (1 < 2) ∧ (wRun.log.devFailed.getLsbD 1 = false) := by decide +kernel
theorem witness_LogAndSnapshotTakeEffect_5 :
    (wRun.pwr.standby = true) ∧ (wRun.pwr.core = true) ∧ (wRun.may 0 Right.read = true) := by decide +kernel
theorem witness_LogAndSnapshotTakeEffect_6 :
    (wRun.pwr.standby = true) ∧ (wRun.pwr.core = true) ∧ (wRun.may 4294967294 Right.read = false) := by decide +kernel
theorem witness_LogAndSnapshotTakeEffect_7 :
    (wRun.pwr.standby = true) ∧ (wRun.pwr.core = true) := by decide +kernel
theorem witness_LogAndSnapshotTakeEffect_7_b :
    (wG4.pwr.standby = true) ∧ (wG4.pwr.core = true) := by decide +kernel
theorem witness_LogAndSnapshotTakeEffect_8 :
    (wG5.pwr.standby = true) ∧ (wG5.dirty = true) ∧ (wG5.belowFloor = false) ∧ (wG5.snap.job = none) := by decide +kernel
theorem witness_LogAndSnapshotTakeEffect_8_b :
    (wG6.pwr.standby = true) ∧ (wG6.dirty = true) ∧ (wG6.belowFloor = false) ∧ (wG6.snap.job = none) := by decide +kernel
theorem witness_LogAndSnapshotTakeEffect_11 :
    (wG7.pwr.standby = true) ∧ (wG7.snap.job = some { kind := 1, bank := 0, table := [], owners := [], seq := 0, epoch := 0 : SnapJob }) ∧ (wG7.rst.waiting = []) ∧ (wG7.belowFloor = false) := by decide +kernel
theorem witness_LogAndSnapshotTakeEffect_11_b :
    (wG8.pwr.standby = true) ∧ (wG8.snap.job = some { kind := 1, bank := 0, table := [], owners := [], seq := 0, epoch := 0 : SnapJob }) ∧ (wG8.rst.waiting = []) ∧ (wG8.belowFloor = false) := by decide +kernel
theorem witness_LogAndSnapshotTakeEffect_12 :
    (wG9.pwr.standby = true) ∧ (1 < 2) ∧ (wG9.snap.erasing.getLsbD 1 = true) ∧ (wG9.snap.holdup = false) := by decide +kernel
theorem witness_MeteringAndJobsTakeEffect_0_0 :
    (wE4.pwr.standby = true) ∧ (max (wE4.mtime / 100000 * 100000) ((wE4.met.start / 100000 + 1) * 100000) = max (wE4.mtime / 100000 * 100000) ((wE4.met.start / 100000 + 1) * 100000)) ∧ (max (wE4.mtime / 100000 * 100000) ((wE4.met.start / 100000 + 1) * 100000) - max wE4.met.start (max (wE4.mtime / 100000 * 100000) ((wE4.met.start / 100000 + 1) * 100000) - 100000) = max (wE4.mtime / 100000 * 100000) ((wE4.met.start / 100000 + 1) * 100000) - max wE4.met.start (max (wE4.mtime / 100000 * 100000) ((wE4.met.start / 100000 + 1) * 100000) - 100000)) := by decide +kernel
theorem witness_MeteringAndJobsTakeEffect_0_1 :
    (wG11.pwr.standby = true) := by decide +kernel
theorem witness_MeteringAndJobsTakeEffect_0_2 :
    (wG11.pwr.standby = true) := by decide +kernel
theorem witness_MeteringAndJobsTakeEffect_0_3_0 :
    (wE4.pwr.standby = true) ∧ (List.length wTelem = 64) ∧ (u8 wTelem 0 = 1) ∧ (u8 wTelem 1 = 7) ∧ (7 < 8) := by decide +kernel
theorem witness_MeteringAndJobsTakeEffect_0_3_1 :
    (wG14.pwr.standby = true) ∧ (List.length wTelem = 64) ∧ (u8 wTelem 0 = 1) ∧ (u8 wTelem 1 = 7) ∧ (7 < 8) ∧ (wG14.pwr.core = true) ∧ (wG14.pwr.fabric = true) ∧ (wG14.ebx.up.getLsbD 0 = true) ∧ (Tbl.get 65535 wG14.ebx.siteEp 7 = 5) := by decide +kernel
theorem witness_MeteringAndJobsTakeEffect_0_4 :
    (wRun.pwr.standby = true) := by decide +kernel
theorem witness_MeteringAndJobsTakeEffect_0_5 :
    (wE4.pwr.standby = true) ∧ ((wE4.site 7).st.runs = true) ∧ ((wE4.capS 7).telemStale = false) := by decide +kernel
theorem witness_MeteringAndJobsTakeEffect_0_6 :
    (wG16.pwr.standby = true) ∧ (List.length wMark = 32) ∧ (u8 wMark 0 = 2) ∧ (u8 wMark 1 = 7) ∧ (7 < 8) ∧ (u8 wMark 2 = 1 ∨ u8 wMark 2 = 2) ∧ (u64 wMark 8 ≠ 0) ∧ (wG16.met.markSeq.find? 7 = none) ∧ (wG16.pnt.valid = true) ∧ (wG16.met.start ≤ u64 wMark 16) ∧ (wG16.pnt.count ≤ u64 wMark 16 + 10000000) ∧ (u64 wMark 16 ≤ wG16.pnt.count + 10000000) := by decide +kernel
theorem witness_MeteringAndJobsTakeEffect_1 :
    (wG17.pwr.core = true) ∧ (1023 < 1024) ∧ ((wG17.job 1023).st = 2) := by decide +kernel
theorem witness_MeteringAndJobsTakeEffect_2 :
    (wG18.pwr.core = true) ∧ (wG18.may wArm.principal Right.counterClear = true) ∧ (8 < 9) := by decide +kernel
theorem witness_CappingTakesEffect_0 :
    (wCap.pwr.core = true) ∧ (wCap.may wArm.principal Right.budget = true) ∧ (wCap.maq.live.isSome = true) := by decide +kernel
theorem witness_CappingTakesEffect_0_b :
    (wCap.pwr.core = true) ∧ (wCap.may wArm.principal Right.budget = true) ∧ (wCap.maq.live.isSome = true) := by decide +kernel
theorem witness_CappingTakesEffect_0_c :
    (wCap.pwr.core = true) ∧ (wCap.may wArm.principal Right.budget = true) ∧ (wCap.maq.live.isSome = true) := by decide +kernel
theorem witness_CappingTakesEffect_1_0 :
    (wCap.pwr.core = true) ∧ (wCap.may wArm.principal Right.sitePower = true) ∧ (7 < 8) ∧ (wCap.maq.live.isSome = true) := by decide +kernel
theorem witness_CappingTakesEffect_1_0_b :
    (wCap.pwr.core = true) ∧ (wCap.may wArm.principal Right.sitePower = true) ∧ (0 < 8) ∧ (wCap.maq.live.isSome = true) := by decide +kernel
theorem witness_CappingTakesEffect_1_1 :
    (wRun.pwr.core = true) ∧ (wRun.may wArm.principal Right.sitePower = true) ∧ (7 < 8) := by decide +kernel
theorem witness_CappingTakesEffect_1_2 :
    (wG19.pwr.core = true) ∧ (wG19.may wArm.principal Right.sitePower = true) ∧ (7 < 8) ∧ (((wG19.capS 7).vtable.bind fun t => vtRail t 3) = some (900, 800, 1000)) := by decide +kernel
theorem witness_CappingTakesEffect_1_3 :
    (wRun.pwr.core = true) ∧ (wRun.may wArm.principal Right.sitePower = true) ∧ (7 < 8) ∧ (((wRun.capS 7).vtable.bind fun t => vtRail t 3) = none) := by decide +kernel
theorem witness_CappingTakesEffect_2 :
    (wCap.armServes = true) ∧ (wCap.maq.live.isSome = true) ∧ (wCap.pair.st = PairSt.lead) := by decide +kernel
theorem witness_CappingTakesEffect_2_b :
    (wG20.armServes = true) ∧ (wG20.maq.live.isSome = true) ∧ (wG20.pair.st = PairSt.lead) := by decide +kernel
theorem witness_CappingTakesEffect_3 :
    (wG21.pwr.standby = true) ∧ (wG21.maq.live.isSome = true) := by decide +kernel
theorem witness_CappingTakesEffect_3_b :
    (wG22.pwr.standby = true) ∧ (wG22.maq.live.isSome = true) := by decide +kernel
theorem witness_CappingTakesEffect_3_c :
    (wG23.pwr.standby = true) ∧ (wG23.maq.live.isSome = true) := by decide +kernel
theorem witness_LogAndSnapshotTakeEffect_9 :
    (wG24.pwr.standby = true) ∧ (wG24.belowFloor = true) := by decide +kernel
theorem witness_LogAndSnapshotTakeEffect_10 :
    (wG25.pwr.standby = true) ∧ (wG25.snap.job = some { kind := 1, bank := 0, table := [], owners := [], seq := 0, epoch := 0 : SnapJob }) ∧ (wG25.rst.waiting = []) ∧ (wG25.belowFloor = true) := by decide +kernel
theorem witness_LogAndSnapshotTakeEffect_13 :
    (wG26.pwr.standby = true) ∧ (1 < 2) ∧ (wG26.snap.erasing.getLsbD 1 = false) ∧ (wG26.snap.mend.getLsbD (2 * 1 + 1) = true) ∧ (wG26.snap.mend.getLsbD (2 * (1 - 1) + 1) = false) ∧ (wG26.snap.holdup = false) := by decide +kernel
theorem witness_LogAndSnapshotTakeEffect_14 :
    (wG27.pwr.standby = true) ∧ (wG27.snap.holdup = true) := by decide +kernel
theorem witness_ReliefAndPatinaTakeEffect_0 :
    (wRun.pwr.standby = true) ∧ (wRun.rel.st = RelSt.idle) ∧ (5700 < wRun.opt obRelief) ∧ (wRun.busStage2 5700 wRun.met.busI = false) := by decide +kernel
theorem witness_ReliefAndPatinaTakeEffect_1 :
    (wRun.pwr.standby = true) ∧ (wRun.opt obRelief ≤ 5800) ∧ (wRun.busStage2 5800 wRun.met.busI = false) := by decide +kernel
theorem witness_ReliefAndPatinaTakeEffect_2 :
    (wG28.pwr.standby = true) ∧ (wG28.rel.st = RelSt.releasing) ∧ (↑(wG28.opt obTrayI) < 330000) ∧ (wG28.busStage2 wG28.snap.busV 330000 = false) := by decide +kernel
theorem witness_ReliefAndPatinaTakeEffect_3 :
    (wG29.pwr.standby = true) ∧ (320000 ≤ ↑(wG29.opt obTrayI)) ∧ (wG29.busStage2 wG29.snap.busV 320000 = false) := by decide +kernel
theorem witness_ReliefAndPatinaTakeEffect_4 :
    (wG30.pwr.standby = true) ∧ (wG30.rel.st ≠ RelSt.stage2) ∧ (3000 + cpStage2.nat wG30.caps < wG30.opt obRelief ∨ ↑(wG30.opt obTrayI) * 110 < 1000 * 100) := by decide +kernel
theorem witness_ReliefAndPatinaTakeEffect_5 :
    (wG30.pwr.standby = true) ∧ (wG30.opt obRelief ≤ 5800 + cpStage2.nat wG30.caps) ∧ (1000 * 100 ≤ ↑(wG30.opt obTrayI) * 110) := by decide +kernel
theorem witness_ReliefAndPatinaTakeEffect_6 :
    (wG30.pwr.standby = true) ∧ (wG30.rel.st ≠ RelSt.idle) ∧ (wG30.opt obRelief + cpHyst.nat wG30.caps ≤ 6400) ∧ (1000 * 100 < ↑(wG30.opt obTrayI) * 95) := by decide +kernel
theorem witness_ReliefAndPatinaTakeEffect_7 :
    (wG33.pwr.standby = true) ∧ (wG33.rel.st ≠ RelSt.idle) ∧ (5800 < wG33.opt obRelief + cpHyst.nat wG33.caps ∨ ↑(wG33.opt obTrayI) * 95 ≤ 1000 * 100) := by decide +kernel
theorem witness_ReliefAndPatinaTakeEffect_8 :
    (wG29.pwr.standby = true) ∧ (wG29.rel.st = RelSt.idle) := by decide +kernel
theorem witness_ReliefAndPatinaTakeEffect_9 :
    (wG35.pwr.standby = true) ∧ (wG35.rel.st = RelSt.releasing) ∧ (wG35.rel.cond = true) ∧ (1 < wG35.rel.level) := by decide +kernel
theorem witness_ReliefAndPatinaTakeEffect_10 :
    (wG36.pwr.standby = true) ∧ (wG36.rel.st = RelSt.releasing) ∧ (wG36.rel.cond = true) ∧ (wG36.rel.level ≤ 1) := by decide +kernel
theorem witness_ReliefAndPatinaTakeEffect_11 :
    (wG37.pwr.standby = true) := by decide +kernel
theorem witness_ReliefAndPatinaTakeEffect_12 :
    (wRun.pwr.standby = true) := by decide +kernel
theorem witness_LogAndSnapshotTakeEffect_7_c :
    (wRun.pwr.standby = true) ∧ (wRun.pwr.core = true) := by decide +kernel
theorem witness_LogAndSnapshotTakeEffect_7_d :
    (wG4.pwr.standby = true) ∧ (wG4.pwr.core = true) := by decide +kernel
theorem witness_CappingTakesEffect_2_c :
    (wCap.armServes = true) ∧ (wCap.maq.live.isSome = true) ∧ (wCap.pair.st = PairSt.lead) := by decide +kernel
theorem witness_CappingTakesEffect_2_d :
    (wG20.armServes = true) ∧ (wG20.maq.live.isSome = true) ∧ (wG20.pair.st = PairSt.lead) := by decide +kernel
theorem witness_ChiselTakesEffect_0_0 :
    (wRun.carriesOut wArm Right.sitePower = true) ∧ (u8 bH1 16 < 8) ∧ (zeroAt bH1 17 7 = true) ∧ ((wRun.chiS (u8 bH1 16)).cmd = none) ∧ (Instr.chiselFreeze wArm (wEntry [(16, 1, 7)]), 1) ∈ [(Instr.chiselFreeze wArm bH1, 1), (Instr.chiselThaw wArm bH1, 2), (Instr.chiselReset wArm bH1, 3), (Instr.chiselExport wArm bH1, 4)] ∧ ((Instr.chiselFreeze wArm (wEntry [(16, 1, 7)]), 1).snd = 1) := by decide +kernel
theorem witness_ChiselTakesEffect_0_0_b :
    (wRun.carriesOut wArm Right.sitePower = true) ∧ (u8 bH1 16 < 8) ∧ (zeroAt bH1 17 7 = true) ∧ ((wRun.chiS (u8 bH1 16)).cmd = none) ∧ (Instr.chiselExport wArm (wEntry [(16, 1, 7)]), 4) ∈ [(Instr.chiselFreeze wArm bH1, 1), (Instr.chiselThaw wArm bH1, 2), (Instr.chiselReset wArm bH1, 3), (Instr.chiselExport wArm bH1, 4)] ∧ ((Instr.chiselExport wArm (wEntry [(16, 1, 7)]), 4).snd = 4) := by decide +kernel
theorem witness_ChiselTakesEffect_0_1 :
    (wRun.carriesOut wArm Right.sitePower = true) ∧ (u8 bH1 16 < 8) ∧ (zeroAt bH1 17 7 = true) ∧ ((wRun.chiS (u8 bH1 16)).cmd = none) := by decide +kernel
theorem witness_ChiselTakesEffect_1 :
    (wH1.carriesOut wArm Right.sitePower = true) ∧ (u8 bH1 16 < 8) ∧ (zeroAt bH1 17 7 = true) ∧ ((wH1.chiS (u8 bH1 16)).cmd.isSome = true) := by decide +kernel
theorem witness_ChiselTakesEffect_2 :
    (wRun.pwr.core = true) ∧ ((wRun.chiS 0).restored = false) := by decide +kernel
theorem witness_ChiselTakesEffect_3 :
    (wH2.pwr.core = true) ∧ ((wH2.chiS 0).restored = true) := by decide +kernel
theorem witness_ChiselTakesEffect_3_b :
    (wH3.pwr.core = true) ∧ ((wH3.chiS 0).restored = true) := by decide +kernel
theorem witness_ChiselTakesEffect_3_c :
    (wH4.pwr.core = true) ∧ ((wH4.chiS 0).restored = true) := by decide +kernel
theorem witness_ChiselTakesEffect_3_d :
    (wH5.pwr.core = true) ∧ ((wH5.chiS 0).restored = true) := by decide +kernel
theorem witness_ChiselTakesEffect_4 :
    (wH6.pwr.core = true) ∧ ((wH6.chiS 7).stale = true) ∧ ((wH6.chiS 7).fallbackDue = false) := by decide +kernel
theorem witness_ChiselTakesEffect_5 :
    (wH7.pwr.core = true) ∧ (wH7.may wArm.principal Right.sitePower = true) ∧ (List.find? (fun d => d.fst == 0) ((Option.map vtDomains (wH7.capS 0).vtable).getD []) = some (0, 50000)) := by decide +kernel
theorem witness_ChiselTakesEffect_5_b :
    (wH7.pwr.core = true) ∧ (wH7.may wArm.principal Right.sitePower = true) ∧ (List.find? (fun d => d.fst == 0) ((Option.map vtDomains (wH7.capS 0).vtable).getD []) = some (0, 50000)) := by decide +kernel
theorem witness_ChiselTakesEffect_6 :
    (wRun.armServes = true) := by decide +kernel
theorem witness_ChiselTakesEffect_6_b :
    (wH9.armServes = true) := by decide +kernel
theorem witness_FansTakeEffect_0 :
    (wH10.pwr.standby = true) ∧ (wH10.maq.live.isSome = true) ∧ (wH10.pair.outputs = true) := by decide +kernel
theorem witness_FansTakeEffect_0_b :
    (wH11.pwr.standby = true) ∧ (wH11.maq.live.isSome = true) ∧ (wH11.pair.outputs = true) := by decide +kernel
theorem witness_FansTakeEffect_0_c :
    (wH12.pwr.standby = true) ∧ (wH12.maq.live.isSome = true) ∧ (wH12.pair.outputs = true) := by decide +kernel
theorem witness_FansTakeEffect_1 :
    (wH13.pwr.standby = true) ∧ (wH13.maq.live = none) := by decide +kernel
theorem witness_FansTakeEffect_2 :
    (wH14.pwr.standby = true) ∧ (wH14.maq.live.isSome = true) ∧ (wH14.pair.outputs = false) := by decide +kernel
theorem witness_FansTakeEffect_3 :
    (wH15.pwr.standby = true) ∧ ((wH15.fan 39).st = FanSt.starting) := by decide +kernel
theorem witness_FansTakeEffect_3_b :
    (wH16.pwr.standby = true) ∧ ((wH16.fan 0).st = FanSt.starting) := by decide +kernel
theorem witness_FansTakeEffect_4 :
    (wH17.pwr.standby = true) ∧ ((wH17.fan 0).st = FanSt.stalled) ∧ (wH17.setFan 0 ((wH17.fan 0).start ((wH17.fan 0).attempt + 1)) = wH17.setFan 0 ((wH17.fan 0).start ((wH17.fan 0).attempt + 1))) := by decide +kernel
theorem witness_FansTakeEffect_5 :
    (wH18.pwr.standby = true) ∧ ((wH18.fan 39).st = FanSt.seized) ∧ (wH18.setFan 39 ((wH18.fan 39).start 4) = wH18.setFan 39 ((wH18.fan 39).start 4)) := by decide +kernel
theorem witness_FansTakeEffect_6_0 :
    (wH19.pwr.core = true) ∧ (wH19.may wArm.principal Right.cooling = true) ∧ (39 < 40) := by decide +kernel
theorem witness_FansTakeEffect_6_0_b :
    (wH19.pwr.core = true) ∧ (wH19.may wArm.principal Right.cooling = true) ∧ (0 < 40) := by decide +kernel
theorem witness_FansTakeEffect_6_1 :
    (wH18.pwr.core = true) ∧ (wH18.may wArm.principal Right.cooling = true) ∧ (39 < 40) ∧ ((wH18.fan 39).st.failed = true) ∧ (wH18.setFan 39 (have __src := wH18.fan 39; { target := __src.target, eff := __src.eff, src := __src.src, speed := __src.speed, duty := 0, integ := __src.integ, map := __src.map, mapMax := __src.mapMax, good := __src.good, absent := __src.absent, seen := __src.seen, forced := __src.forced, onNs := __src.onNs, stretchUs := __src.stretchUs, restUs := __src.restUs, cnts := __src.cnts : FanCh }) = wH18.setFan 39 (have __src := wH18.fan 39; { target := __src.target, eff := __src.eff, src := __src.src, speed := __src.speed, duty := 0, integ := __src.integ, map := __src.map, mapMax := __src.mapMax, good := __src.good, absent := __src.absent, seen := __src.seen, forced := __src.forced, onNs := __src.onNs, stretchUs := __src.stretchUs, restUs := __src.restUs, cnts := __src.cnts : FanCh })) := by decide +kernel
theorem witness_FansTakeEffect_6_2 :
    (wH19.pwr.core = true) ∧ (wH19.may wArm.principal Right.cooling = true) := by decide +kernel
theorem witness_FansTakeEffect_7 :
    (wH23.pwr.standby = true) ∧ (wH23.plinth < wH23.cool.wdtAt + secs (clWdt.nat (wH23.sec 9))) := by decide +kernel
theorem witness_FansTakeEffect_8 :
    (wH24.pwr.standby = true) ∧ (wH24.cool.wdtRunning = true) ∧ (wH24.cool.suspended = false) ∧ (wH24.cool.tripped = false) ∧ (wH24.cool.wdtAt + secs (clWdt.nat (wH24.sec 9)) ≤ wH24.plinth) := by decide +kernel
theorem witness_ValvesAndFlowTakeEffect_0 :
    (wH10.pwr.core = true) ∧ (wH10.may wArm.principal Right.cooling = true) ∧ (15 < 16) ∧ (0 < 3) := by decide +kernel
theorem witness_ValvesAndFlowTakeEffect_0_b :
    (wH10.pwr.core = true) ∧ (wH10.may wArm.principal Right.cooling = true) ∧ (15 < 16) ∧ (1 < 3) := by decide +kernel
theorem witness_ValvesAndFlowTakeEffect_0_c :
    (wH27.pwr.core = true) ∧ (wH27.may wArm.principal Right.cooling = true) ∧ (15 < 16) ∧ (1 < 3) := by decide +kernel
theorem witness_ValvesAndFlowTakeEffect_1_0 :
    (wH28.pwr.standby = true) ∧ ((wH28.valve 15).moving = true) ∧ ((wH28.valve 15).fault = false) := by decide +kernel
theorem witness_ValvesAndFlowTakeEffect_1_1 :
    (wH29.pwr.standby = true) ∧ ((true != (u8 (valveEntry wH29.topo 15) 0).testBit 2) = wH29.valvePos 15) := by decide +kernel
theorem witness_ValvesAndFlowTakeEffect_1_2 :
    (wH30.pwr.standby = true) ∧ ((false != (u8 (valveEntry wH30.topo 15) 0).testBit 2) ≠ wH30.valvePos 15) := by decide +kernel
theorem witness_ValvesAndFlowTakeEffect_1_3 :
    (wH31.pwr.standby = true) ∧ ((wH31.valve 15).strayed = true) ∧ ((wH31.valve 15).fault = false) := by decide +kernel
theorem witness_ValvesAndFlowTakeEffect_1_4 :
    (wH32.pwr.standby = true) ∧ (entryUsed (meterEntry wH32.topo 0) = true) := by decide +kernel
theorem witness_ValvesAndFlowTakeEffect_1_4_b :
    (wH10.pwr.standby = true) ∧ (entryUsed (meterEntry wH10.topo 0) = true) := by decide +kernel
theorem witness_ValvesAndFlowTakeEffect_1_5 :
    (wH34.pwr.standby = true) ∧ (0 < 16) ∧ ((wH34.meter 0).lowSince.isSome = true) ∧ ((wH34.meter 0).loss = false) := by decide +kernel
theorem witness_ValvesAndFlowTakeEffect_1_6 :
    (wH35.pwr.standby = true) ∧ (15 < 16) ∧ ((wH35.meter 15).loss = true) ∧ ((wH35.meter 15).lowSince = none) := by decide +kernel
theorem witness_ValvesAndFlowTakeEffect_1_7 :
    (wH36.pwr.standby = true) ∧ (7 < 8) ∧ ((wH36.pressS 7).loss = true) ∧ ((wH36.pressS 7).judged = false) := by decide +kernel
theorem witness_ZonesTakeEffect_0_0 :
    (wH37.pwr.standby = true) ∧ (Tbl.get { : Member } (wH37.czone 15).members 7 = { valid := true, cnt := 5 : Member }) ∧ ({ valid := true, cnt := 5 : Member }.excl = false) ∧ (znExcl.nat (wH37.zoneOf 15) ≤ { valid := true, cnt := 5 : Member }.cnt) := by decide +kernel
theorem witness_ZonesTakeEffect_0_0_b :
    (wH38.pwr.standby = true) ∧ (Tbl.get { : Member } (wH38.czone 15).members 7 = { valid := true, cnt := 5, times := [999999, 5] : Member }) ∧ ({ valid := true, cnt := 5, times := [999999, 5] : Member }.excl = false) ∧ (znExcl.nat (wH38.zoneOf 15) ≤ { valid := true, cnt := 5, times := [999999, 5] : Member }.cnt) := by decide +kernel
theorem witness_ZonesTakeEffect_0_1 :
    (wH39.pwr.standby = true) ∧ (Tbl.get { : Member } (wH39.czone 15).members 7 = { excl := true, readmit := 600 : Member }) ∧ ({ excl := true, readmit := 600 : Member }.excl = true) ∧ ({ excl := true, readmit := 600 : Member }.held = false) ∧ ({ excl := true, readmit := 600 : Member }.readmit = 600) := by decide +kernel
theorem witness_ZonesTakeEffect_0_2 :
    (wH40.pwr.standby = true) ∧ (znUsed (wH40.zoneOf 15) = true) ∧ (lmColdDp (wH40.limits 15) ≠ 0) := by decide +kernel
theorem witness_ZonesTakeEffect_0_3 :
    (wH41.pwr.standby = true) ∧ ((wH41.czone 15).temp < lmLimit (wH41.limits 15) - 2 * lmMargin.val (wH41.limits 15)) := by decide +kernel
theorem witness_ZonesTakeEffect_1 :
    (wH42.pwr.core = true) ∧ (wH42.may wArm.principal Right.cooling = true) ∧ (15 < 16) := by decide +kernel
theorem witness_LeaksAndShakingTakeEffect_0_0 :
    (wH43.pwr.standby = true) ∧ (wH43.maq.live.isSome = true) ∧ (15 < 16) := by decide +kernel
theorem witness_LeaksAndShakingTakeEffect_0_0_b :
    (wH44.pwr.standby = true) ∧ (wH44.maq.live.isSome = true) ∧ (15 < 16) := by decide +kernel
theorem witness_LeaksAndShakingTakeEffect_0_1 :
    (wH43.pwr.standby = true) ∧ (wH43.maq.live.isSome = true) ∧ (31 < 32) := by decide +kernel
theorem witness_LeaksAndShakingTakeEffect_0_1_b :
    (wH43.pwr.standby = true) ∧ (wH43.maq.live.isSome = true) ∧ (0 < 32) := by decide +kernel
theorem witness_LeaksAndShakingTakeEffect_0_2 :
    (wH43.pwr.standby = true) := by decide +kernel
theorem witness_LeaksAndShakingTakeEffect_0_3 :
    (wH48.pwr.standby = true) ∧ (wH48.haz.quietAt.isSome = true) := by decide +kernel
theorem witness_LeaksAndShakingTakeEffect_0_4 :
    (wH49.pwr.standby = true) := by decide +kernel
theorem witness_LeaksAndShakingTakeEffect_0_5 :
    (wH43.pwr.standby = true) ∧ (wH43.haz.shakeFault = false) := by decide +kernel
theorem witness_LeaksAndShakingTakeEffect_1_0 :
    (wH51.pwr.core = true) ∧ (wH51.may wArm.principal Right.hazard = true) ∧ (15 < 16) ∧ ((wH51.lzone 15).latched = true) ∧ ((wH51.lzone 15).st = 0) := by decide +kernel
theorem witness_LeaksAndShakingTakeEffect_1_1 :
    (wH52.pwr.core = true) ∧ (wH52.may wArm.principal Right.hazard = true) ∧ (15 < 16) ∧ ((wH52.lzone 15).st ≠ 0) := by decide +kernel
theorem witness_LeaksAndShakingTakeEffect_2_0 :
    (wH43.pwr.core = true) ∧ (wH43.may wArm.principal Right.hazard = true) ∧ (wH43.haz.brace = false) := by decide +kernel
theorem witness_LeaksAndShakingTakeEffect_2_1 :
    (wH54.pwr.core = true) ∧ (wH54.may wArm.principal Right.hazard = true) ∧ (wH54.haz.brace = true) := by decide +kernel
theorem witness_LeaksAndShakingTakeEffect_3 :
    (wH55.pwr.core = true) ∧ (wH55.may wArm.principal Right.counterClear = true) := by decide +kernel
theorem witness_PointingTakesEffect_0 :
    (wI1.pwr.core = true) ∧ (wI1.pair.outputs = true) := by decide +kernel
theorem witness_PointingTakesEffect_1 :
    (wI1.pwr.core = true) ∧ (wI1.isManagerRole = false) ∧ (wI1.pnt.st ≠ PtSt.manager) := by decide +kernel
theorem witness_PointingTakesEffect_1_b :
    (wI3.pwr.core = true) ∧ (wI3.isManagerRole = false) ∧ (wI3.pnt.st ≠ PtSt.manager) := by decide +kernel
theorem witness_PointingTakesEffect_1_c :
    (wI4.pwr.core = true) ∧ (wI4.isManagerRole = false) ∧ (wI4.pnt.st ≠ PtSt.manager) := by decide +kernel
theorem witness_PointingTakesEffect_1_d :
    (wI5.pwr.core = true) ∧ (wI5.isManagerRole = false) ∧ (wI5.pnt.st ≠ PtSt.manager) := by decide +kernel
theorem witness_PointingTakesEffect_1_e :
    (wI6.pwr.core = true) ∧ (wI6.isManagerRole = false) ∧ (wI6.pnt.st ≠ PtSt.manager) := by decide +kernel
theorem witness_PointingTakesEffect_1_f :
    (wI7.pwr.core = true) ∧ (wI7.isManagerRole = false) ∧ (wI7.pnt.st ≠ PtSt.manager) := by decide +kernel
theorem witness_PointingTakesEffect_1_g :
    (wI8.pwr.core = true) ∧ (wI8.isManagerRole = false) ∧ (wI8.pnt.st ≠ PtSt.manager) := by decide +kernel
theorem witness_PointingTakesEffect_2 :
    (wI9.pwr.core = true) ∧ (wI9.isManagerRole = true) := by decide +kernel
theorem witness_PointingTakesEffect_3 :
    (wI1.pwr.core = true) ∧ (wI1.cabled 12 = true) ∧ (wI1.pair.outputs = true) := by decide +kernel
theorem witness_PointingTakesEffect_3_b :
    (wI1.pwr.core = true) ∧ (wI1.cabled 1 = true) ∧ (wI1.pair.outputs = true) := by decide +kernel
theorem witness_PointingTakesEffect_4 :
    (wRun.pwr.core = true) ∧ (wRun.cabled 12 = false) := by decide +kernel
theorem witness_PointingTakesEffect_5 :
    (wI1.pwr.core = true) := by decide +kernel
theorem witness_PointingTakesEffect_6 :
    (wI13.pwr.core = true) := by decide +kernel
theorem witness_PointingTakesEffect_7 :
    (wI14.pwr.core = true) ∧ ((wI14.line 12).cal = some (u16 bI10 0, 5)) ∧ ((wI14.line 12).meas = [90, 96]) := by decide +kernel
theorem witness_PointingTakesEffect_7_b :
    (wI14.pwr.core = true) ∧ ((wI14.line 12).cal = some (u16 bI10 0, 5)) ∧ ((wI14.line 12).meas = [90, 96]) := by decide +kernel
theorem witness_PointingTakesEffect_8 :
    (wI1.pwr.core = true) ∧ ((wI1.line 12).cal = none) := by decide +kernel
theorem witness_PointingTakesEffect_9 :
    (wI17.pwr.core = true) ∧ (wI17.pnt.st = PtSt.calibrating) := by decide +kernel
theorem witness_PointingTakesEffect_9_b :
    (wI18.pwr.core = true) ∧ (wI18.pnt.st = PtSt.calibrating) := by decide +kernel
theorem witness_PointingTakesEffect_10 :
    (wI1.pwr.core = true) := by decide +kernel
theorem witness_PointingTakesEffect_11 :
    (wI20.pwr.core = true) ∧ (wI20.pnt.st = PtSt.locked) := by decide +kernel
theorem witness_PointingTakesEffect_12 :
    (wI21.pwr.core = true) ∧ (wI21.pnt.st = PtSt.holdover) := by decide +kernel
theorem witness_PointingTakesEffect_13 :
    (wI22.pwr.core = true) := by decide +kernel
theorem witness_PointingTakesEffect_14 :
    (wI23.pwr.core = true) ∧ (wI23.pnt.waitEcho = true) := by decide +kernel
theorem witness_PointingTakesEffect_14_b :
    (wI24.pwr.core = true) ∧ (wI24.pnt.waitEcho = true) := by decide +kernel
theorem witness_PointingTakesEffect_14_c :
    (wI25.pwr.core = true) ∧ (wI25.pnt.waitEcho = true) := by decide +kernel
theorem witness_PointingTakesEffect_15 :
    (wI26.pwr.core = true) ∧ (wI26.carriesOut wArm Right.launch = true) := by decide +kernel
theorem witness_PointingTakesEffect_15_b :
    (wI27.pwr.core = true) ∧ (wI27.carriesOut wArm Right.launch = true) := by decide +kernel
theorem witness_PointingTakesEffect_15_c :
    (wI28.pwr.core = true) ∧ (wI28.carriesOut wArm Right.launch = true) := by decide +kernel
theorem witness_PointingTakesEffect_16 :
    (wRun.pwr.core = true) := by decide +kernel
theorem witness_LaunchCommandsTakeEffect_0 :
    (wI9.carriesOut wArm Right.launch = true) := by decide +kernel
theorem witness_LaunchCommandsTakeEffect_0_b :
    (wI9.carriesOut wArm Right.launch = true) := by decide +kernel
theorem witness_LaunchCommandsTakeEffect_0_c :
    (wI9.carriesOut wArm Right.launch = true) := by decide +kernel
theorem witness_LaunchCommandsTakeEffect_1 :
    (wI32.carriesOut wArm Right.launch = true) ∧ (wI32.pnt.st = PtSt.manager) ∧ (wI32.armOf (u64 bI19 16) = some 0) ∧ ((wI32.arm 0).launched = false) ∧ (wI32.pnt.count + 1000 * ptLeadMin.nat wI32.role ≤ u64 bI19 24) ∧ (u64 bI19 24 ≤ wI32.pnt.count + 10000000000) := by decide +kernel
theorem witness_LaunchCommandsTakeEffect_1_b :
    (wI32.carriesOut wArm Right.launch = true) ∧ (wI32.pnt.st = PtSt.manager) ∧ (wI32.armOf (u64 bI20 16) = some 0) ∧ ((wI32.arm 0).launched = false) ∧ (wI32.pnt.count + 1000 * ptLeadMin.nat wI32.role ≤ u64 bI20 24) ∧ (u64 bI20 24 ≤ wI32.pnt.count + 10000000000) := by decide +kernel
theorem witness_LaunchCommandsTakeEffect_2 :
    (wI34.carriesOut wArm Right.launch = true) ∧ (wI34.pnt.st ≠ PtSt.manager) := by decide +kernel
theorem witness_LaunchCommandsTakeEffect_3_0 :
    (wI34.carriesOut wArm Right.launch = true) ∧ (wI34.armOf (u64 bI21 16) = some 0) := by decide +kernel
theorem witness_LaunchCommandsTakeEffect_3_0_b :
    (wI36.carriesOut wArm Right.launch = true) ∧ (wI36.armOf (u64 bI21 16) = some 0) := by decide +kernel
theorem witness_LaunchCommandsTakeEffect_3_1 :
    (wI36.carriesOut wArm Right.launch = true) ∧ (wI36.armOf (u64 bI21 16) = some 0) := by decide +kernel
theorem witness_LaunchCommandsTakeEffect_4 :
    (wI1.carriesOut wArm Right.launch = true) ∧ (wI1.armOf (u64 bI21 16) = none) := by decide +kernel
theorem witness_LaunchExchangeTakesEffect_3 :
    (wI39.pwr.core = true) ∧ (wI39.resultOf (u64 wRun9 0) = some 0) ∧ (wI39.arm 0 = { st := 3, runId := 9, launched := true : ArmEntry }) ∧ (1 ≤ 4) ∧ (4 ≤ 4) ∧ ({ st := 3, runId := 9, launched := true : ArmEntry }.launched = true) := by decide +kernel
theorem witness_LaunchExchangeTakesEffect_0 :
    (wI34.pwr.core = true) ∧ (wI34.armOf 9 = some 0) ∧ ((wI34.arm 0).st = 1) ∧ ((wI34.arm 0).launched = false) := by decide +kernel
theorem witness_LaunchExchangeTakesEffect_1_0 :
    (wI1.pwr.core = true) ∧ (wI1.armOf (u64 wRun9 0) = none) := by decide +kernel
theorem witness_LaunchExchangeTakesEffect_1_1 :
    (wI1.pwr.core = true) ∧ (wI1.armOf (u64 wRun9 0) = none) := by decide +kernel
theorem witness_LaunchExchangeTakesEffect_1_2 :
    (wI1.pwr.core = true) ∧ (wI1.armOf (u64 wRun9 0) = none) := by decide +kernel
theorem witness_LaunchExchangeTakesEffect_1_3 :
    (wI1.pwr.core = true) ∧ (wI1.armOf (u64 wRun9 0) = none) := by decide +kernel
theorem witness_LaunchExchangeTakesEffect_2 :
    (wI1.pwr.core = true) ∧ (wI1.resultOf (u64 wRun9 0) = none) := by decide +kernel
theorem witness_LaunchExchangeTakesEffect_4_0 :
    (wI36.pwr.core = true) ∧ (wI36.armOf (u64 wRun9 0) = some 0) ∧ (wI36.arm 0 = { st := 2, runId := 9 : ArmEntry }) ∧ ({ st := 2, runId := 9 : ArmEntry }.st = 2) := by decide +kernel
theorem witness_LaunchExchangeTakesEffect_4_1 :
    (wI34.pwr.core = true) ∧ (wI34.armOf (u64 wRun9 0) = some 0) ∧ (wI34.arm 0 = { st := 1, runId := 9 : ArmEntry }) ∧ ({ st := 1, runId := 9 : ArmEntry }.st = 1) ∧ ({ st := 1, runId := 9 : ArmEntry }.launched = false) := by decide +kernel
theorem witness_LaunchExchangeTakesEffect_4_2 :
    (wI48.pwr.core = true) ∧ (wI48.armOf (u64 wRun9 0) = some 0) ∧ (wI48.arm 0 = { st := 1, runId := 9, siteMask := 128, launched := true : ArmEntry }) ∧ ({ st := 1, runId := 9, siteMask := 128, launched := true : ArmEntry }.st = 1) ∧ ({ st := 1, runId := 9, siteMask := 128, launched := true : ArmEntry }.launched = true) ∧ ({ st := 1, runId := 9, siteMask := 128, launched := true : ArmEntry }.answered = false) ∧ ({ st := 1, runId := 9, siteMask := 128, launched := true : ArmEntry }.aborted = false) ∧ ({ st := 1, runId := 9, siteMask := 128, launched := true : ArmEntry }.timingDet = false) ∧ ({ st := 1, runId := 9, siteMask := 128, launched := true : ArmEntry }.siteMask.testBit 7 = true) ∧ (u8 wRun9 10 = 0) := by decide +kernel
theorem witness_LaunchExchangeTakesEffect_4_3 :
    (wI48.pwr.core = true) ∧ (wI48.armOf (u64 wRun9 0) = some 0) ∧ (wI48.arm 0 = { st := 1, runId := 9, siteMask := 128, launched := true : ArmEntry }) ∧ (4 < 5) ∧ ({ st := 1, runId := 9, siteMask := 128, launched := true : ArmEntry }.st = 1) ∧ ({ st := 1, runId := 9, siteMask := 128, launched := true : ArmEntry }.launched = true) ∧ ({ st := 1, runId := 9, siteMask := 128, launched := true : ArmEntry }.answered = false) ∧ ({ st := 1, runId := 9, siteMask := 128, launched := true : ArmEntry }.aborted = false) ∧ (u8 wRun9 10 = 0) := by decide +kernel
theorem witness_LaunchExchangeTakesEffect_4_4 :
    (wI50.pwr.core = true) ∧ (wI50.armOf (u64 bI27 0) = some 0) ∧ (wI50.arm 0 = { st := 1, runId := 9, launched := true, n := 9999 : ArmEntry }) ∧ ({ st := 1, runId := 9, launched := true, n := 9999 : ArmEntry }.st = 1) ∧ ({ st := 1, runId := 9, launched := true, n := 9999 : ArmEntry }.launched = true) ∧ ({ st := 1, runId := 9, launched := true, n := 9999 : ArmEntry }.aborted = false) ∧ ({ st := 1, runId := 9, launched := true, n := 9999 : ArmEntry }.refusal = 0) ∧ ({ st := 1, runId := 9, launched := true, n := 9999 : ArmEntry }.n = u64 bI27 8) ∧ ({ st := 1, runId := 9, launched := true, n := 9999 : ArmEntry }.n < wI50.pnt.count + 5000) := by decide +kernel
theorem witness_LaunchExchangeTakesEffect_4_5 :
    (wI51.pwr.core = true) ∧ (wI51.armOf (u64 bI28 0) = some 0) ∧ (wI51.arm 0 = { st := 1, runId := 9, launched := true, n := 10000 : ArmEntry }) ∧ ({ st := 1, runId := 9, launched := true, n := 10000 : ArmEntry }.st = 1) ∧ ({ st := 1, runId := 9, launched := true, n := 10000 : ArmEntry }.launched = true) ∧ ({ st := 1, runId := 9, launched := true, n := 10000 : ArmEntry }.aborted = false) ∧ ({ st := 1, runId := 9, launched := true, n := 10000 : ArmEntry }.refusal = 0) ∧ ({ st := 1, runId := 9, launched := true, n := 10000 : ArmEntry }.n = u64 bI28 8) ∧ (wI51.pnt.count + 5000 ≤ { st := 1, runId := 9, launched := true, n := 10000 : ArmEntry }.n) := by decide +kernel
theorem witness_LaunchExchangeTakesEffect_4_6 :
    (wI52.pwr.core = true) ∧ (wI52.armOf (u64 wRun9 0) = some 0) ∧ (wI52.arm 0 = { st := 1, runId := 9, launched := true, aborted := true : ArmEntry }) ∧ ({ st := 1, runId := 9, launched := true, aborted := true : ArmEntry }.aborted = true) := by decide +kernel
theorem witness_LaunchExchangeTakesEffect_4_7 :
    (wI53.pwr.core = true) ∧ (wI53.armOf (u64 wRun9 0) = some 0) ∧ (wI53.arm 0 = { st := 1, runId := 9, launched := true : ArmEntry }) ∧ ({ st := 1, runId := 9, launched := true : ArmEntry }.st = 1) ∧ ({ st := 1, runId := 9, launched := true : ArmEntry }.launched = true) ∧ ({ st := 1, runId := 9, launched := true : ArmEntry }.aborted = false) := by decide +kernel
theorem witness_LaunchExchangeTakesEffect_5_0 :
    (wI54.pwr.core = true) ∧ (wI54.armOf 9 = some 0) ∧ (wI54.arm 0 = { st := 1, runId := 9, launched := true : ArmEntry }) ∧ (wI54.pnt.st = PtSt.manager) ∧ ({ st := 1, runId := 9, launched := true : ArmEntry }.st = 1) ∧ ({ st := 1, runId := 9, launched := true : ArmEntry }.launched = true) ∧ ({ st := 1, runId := 9, launched := true : ArmEntry }.aborted = false) := by decide +kernel
theorem witness_LaunchExchangeTakesEffect_5_1 :
    (wI54.pwr.core = true) ∧ (wI54.armOf 9 = some 0) ∧ (wI54.arm 0 = { st := 1, runId := 9, launched := true : ArmEntry }) ∧ ({ st := 1, runId := 9, launched := true : ArmEntry }.launched = true) ∧ ({ st := 1, runId := 9, launched := true : ArmEntry }.reached = false) := by decide +kernel
theorem witness_LaunchExchangeTakesEffect_5_1_b :
    (wI56.pwr.core = true) ∧ (wI56.armOf 9 = some 0) ∧ (wI56.arm 0 = { st := 2, runId := 9, siteMask := 128, launched := true : ArmEntry }) ∧ ({ st := 2, runId := 9, siteMask := 128, launched := true : ArmEntry }.launched = true) ∧ ({ st := 2, runId := 9, siteMask := 128, launched := true : ArmEntry }.reached = false) := by decide +kernel
theorem witness_LaunchExchangeTakesEffect_5_2 :
    (wI57.pwr.core = true) ∧ (wI57.armOf 9 = some 0) ∧ (wI57.arm 0 = { st := 2, runId := 9, flags := 2, launched := true : ArmEntry }) ∧ (List.length bI33 = 32) ∧ (u8 bI33 0 = 4) ∧ (u8 bI33 1 = 7) ∧ (7 < 8) ∧ (u64 bI33 8 = 9) ∧ ({ st := 2, runId := 9, flags := 2, launched := true : ArmEntry }.balance = true) := by decide +kernel
theorem witness_CaliperTakesEffect_0 :
    (wJ1.pwr.core = true) ∧ (wJ1.pwr.fabric = true) ∧ (wJ1.ebx.up.getLsbD 0 = true) ∧ (List.length wOffer = 192) ∧ (u8 wOffer 0 = 5) ∧ (u8 wOffer 1 = 7) ∧ (7 < 8) ∧ (u64 wOffer 8 = 0) ∧ (wJ1.cal.seen.contains (7, 0, u64 wOffer 16) = false) ∧ (List.find? (fun x => x.run == 0) wJ1.cal.runs = none) := by decide +kernel
theorem witness_CaliperTakesEffect_0_b :
    (wJ2.pwr.core = true) ∧ (wJ2.pwr.fabric = true) ∧ (wJ2.ebx.up.getLsbD 0 = true) ∧ (List.length wOffer = 192) ∧ (u8 wOffer 0 = 5) ∧ (u8 wOffer 1 = 7) ∧ (7 < 8) ∧ (u64 wOffer 8 = 0) ∧ (wJ2.cal.seen.contains (7, 0, u64 wOffer 16) = false) ∧ (List.find? (fun x => x.run == 0) wJ2.cal.runs = none) := by decide +kernel
theorem witness_CaliperTakesEffect_1_1 :
    (wJ3.pwr.core = true) ∧ (wJ3.checkOf 4 = some (wChk 0 none)) ∧ (wJ3.calStopped = false) ∧ (wJ3.tileRuns 3 4 = some { tile := 3, rank := 2, id := 4, part := 1, bytes := 0 : CalJob }) ∧ ((wChk 0 none).stage = 0) ∧ ((wChk 0 none).comp = false) ∧ (wJ3.pastRetain (wChk 0 none) = false) := by decide +kernel
theorem witness_CaliperTakesEffect_1_0 :
    (wJ4.pwr.core = true) ∧ (wJ4.checkOf 4 = some (wChk 0 none)) ∧ (wJ4.calStopped = false) ∧ (wJ4.tileRuns 3 4 = some { tile := 3, rank := 2, id := 4, part := 1, bytes := 0 : CalJob }) ∧ ((wChk 0 none).stage = 0) ∧ ((wChk 0 none).comp = false) ∧ (wJ4.pastRetain (wChk 0 none) = true) := by decide +kernel
theorem witness_CaliperTakesEffect_1_1_b :
    (wJ5.pwr.core = true) ∧ (wJ5.checkOf 4 = some (wChk 0 none)) ∧ (wJ5.calStopped = false) ∧ (wJ5.tileRuns 3 4 = some { tile := 3, rank := 2, id := 4, part := 1, bytes := 0 : CalJob }) ∧ ((wChk 0 none).stage = 0) ∧ ((wChk 0 none).comp = false) ∧ (wJ5.pastRetain (wChk 0 none) = false) := by decide +kernel
theorem witness_CaliperTakesEffect_1_1_c :
    (wJ5.pwr.core = true) ∧ (wJ5.checkOf 4 = some (wChk 0 none)) ∧ (wJ5.calStopped = false) ∧ (wJ5.tileRuns 3 4 = some { tile := 3, rank := 2, id := 4, part := 1, bytes := 0 : CalJob }) ∧ ((wChk 0 none).stage = 0) ∧ ((wChk 0 none).comp = false) ∧ (wJ5.pastRetain (wChk 0 none) = false) := by decide +kernel
theorem witness_CaliperTakesEffect_1_1_d :
    (wJ7.pwr.core = true) ∧ (wJ7.checkOf 4 = some (wChk 0 none)) ∧ (wJ7.calStopped = false) ∧ (wJ7.tileRuns 3 4 = some { tile := 3, rank := 2, id := 4, part := 1, bytes := 0, tries := 1 : CalJob }) ∧ ((wChk 0 none).stage = 0) ∧ ((wChk 0 none).comp = false) ∧ (wJ7.pastRetain (wChk 0 none) = false) := by decide +kernel
theorem witness_CaliperTakesEffect_1_2 :
    (wJ8.pwr.core = true) ∧ (wJ8.checkOf 4 = some (wChk 1 none)) ∧ (wJ8.calStopped = false) ∧ (wJ8.tileRuns 2 4 = some { tile := 2, rank := 1, id := 4, part := 2, bytes := 0 : CalJob }) ∧ ((wChk 1 none).stage = 1) ∧ (wJ8.pastRetain (wChk 1 none) = false) ∧ (wJ8.compute wFetch (wChk 1 none).desc (wholePart (wChk 1 none).desc) = Except.ok wSix) := by decide +kernel
theorem witness_CaliperTakesEffect_1_2_b :
    (wJ9.pwr.core = true) ∧ (wJ9.checkOf 4 = some (wChk 1 none)) ∧ (wJ9.calStopped = false) ∧ (wJ9.tileRuns 2 4 = some { tile := 2, rank := 1, id := 4, part := 3, bytes := 0 : CalJob }) ∧ ((wChk 1 none).stage = 1) ∧ (wJ9.pastRetain (wChk 1 none) = false) ∧ (wJ9.compute wFetch (wChk 1 none).desc (wholePart (wChk 1 none).desc) = Except.ok wSix) := by decide +kernel
theorem witness_CaliperTakesEffect_1_3_1 :
    (wJ10.pwr.core = true) ∧ (wJ10.checkOf 4 = some (let __src := wChk 2 none; { id := __src.id, site := __src.site, req := __src.req, unit := __src.unit, run := __src.run, tileIndex := __src.tileIndex, jobId := __src.jobId, time := __src.time, desc := __src.desc, stage := __src.stage, comp := __src.comp, blocks := __src.blocks, flags := __src.flags, t1 := __src.t1, t2 := __src.t2, t3 := __src.t3, r1 := __src.r1, r2 := [1, 2, 3, 4], r3 := __src.r3, siteDigest := __src.siteDigest, first := __src.first, count := __src.count, siteVal := __src.siteVal, calVal := __src.calVal : Check })) ∧ (wJ10.calStopped = false) ∧ (wJ10.tileRuns 3 4 = some { tile := 3, rank := 1, id := 4, part := 3, bytes := 0 : CalJob }) ∧ ((let __src := wChk 2 none; { id := __src.id, site := __src.site, req := __src.req, unit := __src.unit, run := __src.run, tileIndex := __src.tileIndex, jobId := __src.jobId, time := __src.time, desc := __src.desc, stage := __src.stage, comp := __src.comp, blocks := __src.blocks, flags := __src.flags, t1 := __src.t1, t2 := __src.t2, t3 := __src.t3, r1 := __src.r1, r2 := [1, 2, 3, 4], r3 := __src.r3, siteDigest := __src.siteDigest, first := __src.first, count := __src.count, siteVal := __src.siteVal, calVal := __src.calVal : Check }).stage ≠ 0) ∧ ((let __src := wChk 2 none; { id := __src.id, site := __src.site, req := __src.req, unit := __src.unit, run := __src.run, tileIndex := __src.tileIndex, jobId := __src.jobId, time := __src.time, desc := __src.desc, stage := __src.stage, comp := __src.comp, blocks := __src.blocks, flags := __src.flags, t1 := __src.t1, t2 := __src.t2, t3 := __src.t3, r1 := __src.r1, r2 := [1, 2, 3, 4], r3 := __src.r3, siteDigest := __src.siteDigest, first := __src.first, count := __src.count, siteVal := __src.siteVal, calVal := __src.calVal : Check }).stage ≠ 1) ∧ (wJ10.compute wFetch (let __src := wChk 2 none; { id := __src.id, site := __src.site, req := __src.req, unit := __src.unit, run := __src.run, tileIndex := __src.tileIndex, jobId := __src.jobId, time := __src.time, desc := __src.desc, stage := __src.stage, comp := __src.comp, blocks := __src.blocks, flags := __src.flags, t1 := __src.t1, t2 := __src.t2, t3 := __src.t3, r1 := __src.r1, r2 := [1, 2, 3, 4], r3 := __src.r3, siteDigest := __src.siteDigest, first := __src.first, count := __src.count, siteVal := __src.siteVal, calVal := __src.calVal : Check }).desc (wholePart (let __src := wChk 2 none; { id := __src.id, site := __src.site, req := __src.req, unit := __src.unit, run := __src.run, tileIndex := __src.tileIndex, jobId := __src.jobId, time := __src.time, desc := __src.desc, stage := __src.stage, comp := __src.comp, blocks := __src.blocks, flags := __src.flags, t1 := __src.t1, t2 := __src.t2, t3 := __src.t3, r1 := __src.r1, r2 := [1, 2, 3, 4], r3 := __src.r3, siteDigest := __src.siteDigest, first := __src.first, count := __src.count, siteVal := __src.siteVal, calVal := __src.calVal : Check }).desc) = Except.ok wSix) := by decide +kernel
theorem witness_CaliperTakesEffect_1_3_0 :
    (wJ11.pwr.core = true) ∧ (wJ11.checkOf 4 = some (wChk 1 none)) ∧ (wJ11.calStopped = false) ∧ (wJ11.tileRuns 2 4 = some { tile := 2, rank := 1, id := 4, part := 3, bytes := 0 : CalJob }) ∧ ((wChk 1 none).stage ≠ 0) ∧ (wJ11.pastRetain (wChk 1 none) = true) := by decide +kernel
theorem witness_CaliperTakesEffect_1_3_2 :
    (wJ12.pwr.core = true) ∧ (wJ12.checkOf 4 = some (wChk 1 none)) ∧ (wJ12.calStopped = false) ∧ (wJ12.tileRuns 2 4 = some { tile := 2, rank := 1, id := 4, part := 3, bytes := 0, tries := 1 : CalJob }) ∧ ((wChk 1 none).stage ≠ 0) ∧ (wJ12.compute [] (wChk 1 none).desc (wholePart (wChk 1 none).desc) = Except.error 131) ∧ (131 ≠ 145) ∧ (131 ≠ 131 ∨ { tile := 2, rank := 1, id := 4, part := 3, bytes := 0, tries := 1 : CalJob }.tries ≠ 0) := by decide +kernel
theorem witness_CaliperTakesEffect_2 :
    (wJ13.pwr.core = true) ∧ (wJ13.checkOf 4 = some (let __src := wChk 0 (some wArm); { id := __src.id, site := __src.site, req := __src.req, unit := __src.unit, run := __src.run, tileIndex := __src.tileIndex, jobId := __src.jobId, time := __src.time, desc := wDesc 1, stage := __src.stage, comp := true, blocks := [0], flags := __src.flags, t1 := __src.t1, t2 := __src.t2, t3 := __src.t3, r1 := __src.r1, r2 := __src.r2, r3 := __src.r3, siteDigest := __src.siteDigest, first := __src.first, count := __src.count, siteVal := __src.siteVal, calVal := __src.calVal : Check })) ∧ (wJ13.calStopped = false) ∧ (wJ13.tileRuns 3 4 = some { tile := 3, rank := 3, id := 4, part := 0, bytes := 0 : CalJob }) ∧ ((let __src := wChk 0 (some wArm); { id := __src.id, site := __src.site, req := __src.req, unit := __src.unit, run := __src.run, tileIndex := __src.tileIndex, jobId := __src.jobId, time := __src.time, desc := wDesc 1, stage := __src.stage, comp := true, blocks := [0], flags := __src.flags, t1 := __src.t1, t2 := __src.t2, t3 := __src.t3, r1 := __src.r1, r2 := __src.r2, r3 := __src.r3, siteDigest := __src.siteDigest, first := __src.first, count := __src.count, siteVal := __src.siteVal, calVal := __src.calVal : Check }).stage = 0) ∧ ((let __src := wChk 0 (some wArm); { id := __src.id, site := __src.site, req := __src.req, unit := __src.unit, run := __src.run, tileIndex := __src.tileIndex, jobId := __src.jobId, time := __src.time, desc := wDesc 1, stage := __src.stage, comp := true, blocks := [0], flags := __src.flags, t1 := __src.t1, t2 := __src.t2, t3 := __src.t3, r1 := __src.r1, r2 := __src.r2, r3 := __src.r3, siteDigest := __src.siteDigest, first := __src.first, count := __src.count, siteVal := __src.siteVal, calVal := __src.calVal : Check }).comp = true) ∧ ((let __src := wChk 0 (some wArm); { id := __src.id, site := __src.site, req := __src.req, unit := __src.unit, run := __src.run, tileIndex := __src.tileIndex, jobId := __src.jobId, time := __src.time, desc := wDesc 1, stage := __src.stage, comp := true, blocks := [0], flags := __src.flags, t1 := __src.t1, t2 := __src.t2, t3 := __src.t3, r1 := __src.r1, r2 := __src.r2, r3 := __src.r3, siteDigest := __src.siteDigest, first := __src.first, count := __src.count, siteVal := __src.siteVal, calVal := __src.calVal : Check }).req = some wArm) ∧ (wJ13.compute wFetch (let __src := wChk 0 (some wArm); { id := __src.id, site := __src.site, req := __src.req, unit := __src.unit, run := __src.run, tileIndex := __src.tileIndex, jobId := __src.jobId, time := __src.time, desc := wDesc 1, stage := __src.stage, comp := true, blocks := [0], flags := __src.flags, t1 := __src.t1, t2 := __src.t2, t3 := __src.t3, r1 := __src.r1, r2 := __src.r2, r3 := __src.r3, siteDigest := __src.siteDigest, first := __src.first, count := __src.count, siteVal := __src.siteVal, calVal := __src.calVal : Check }).desc (blockPart (let __src := wChk 0 (some wArm); { id := __src.id, site := __src.site, req := __src.req, unit := __src.unit, run := __src.run, tileIndex := __src.tileIndex, jobId := __src.jobId, time := __src.time, desc := wDesc 1, stage := __src.stage, comp := true, blocks := [0], flags := __src.flags, t1 := __src.t1, t2 := __src.t2, t3 := __src.t3, r1 := __src.r1, r2 := __src.r2, r3 := __src.r3, siteDigest := __src.siteDigest, first := __src.first, count := __src.count, siteVal := __src.siteVal, calVal := __src.calVal : Check }).desc { tile := 3, rank := 3, id := 4, part := 0, bytes := 0 : CalJob }.part) = Except.ok wSix) ∧ ({ id := (let __src := wChk 0 (some wArm); { id := __src.id, site := __src.site, req := __src.req, unit := __src.unit, run := __src.run, tileIndex := __src.tileIndex, jobId := __src.jobId, time := __src.time, desc := wDesc 1, stage := __src.stage, comp := true, blocks := [0], flags := __src.flags, t1 := __src.t1, t2 := __src.t2, t3 := __src.t3, r1 := __src.r1, r2 := __src.r2, r3 := __src.r3, siteDigest := __src.siteDigest, first := __src.first, count := __src.count, siteVal := __src.siteVal, calVal := __src.calVal : Check }).id, site := (let __src := wChk 0 (some wArm); { id := __src.id, site := __src.site, req := __src.req, unit := __src.unit, run := __src.run, tileIndex := __src.tileIndex, jobId := __src.jobId, time := __src.time, desc := wDesc 1, stage := __src.stage, comp := true, blocks := [0], flags := __src.flags, t1 := __src.t1, t2 := __src.t2, t3 := __src.t3, r1 := __src.r1, r2 := __src.r2, r3 := __src.r3, siteDigest := __src.siteDigest, first := __src.first, count := __src.count, siteVal := __src.siteVal, calVal := __src.calVal : Check }).site, req := (let __src := wChk 0 (some wArm); { id := __src.id, site := __src.site, req := __src.req, unit := __src.unit, run := __src.run, tileIndex := __src.tileIndex, jobId := __src.jobId, time := __src.time, desc := wDesc 1, stage := __src.stage, comp := true, blocks := [0], flags := __src.flags, t1 := __src.t1, t2 := __src.t2, t3 := __src.t3, r1 := __src.r1, r2 := __src.r2, r3 := __src.r3, siteDigest := __src.siteDigest, first := __src.first, count := __src.count, siteVal := __src.siteVal, calVal := __src.calVal : Check }).req, unit := (let __src := wChk 0 (some wArm); { id := __src.id, site := __src.site, req := __src.req, unit := __src.unit, run := __src.run, tileIndex := __src.tileIndex, jobId := __src.jobId, time := __src.time, desc := wDesc 1, stage := __src.stage, comp := true, blocks := [0], flags := __src.flags, t1 := __src.t1, t2 := __src.t2, t3 := __src.t3, r1 := __src.r1, r2 := __src.r2, r3 := __src.r3, siteDigest := __src.siteDigest, first := __src.first, count := __src.count, siteVal := __src.siteVal, calVal := __src.calVal : Check }).unit, run := (let __src := wChk 0 (some wArm); { id := __src.id, site := __src.site, req := __src.req, unit := __src.unit, run := __src.run, tileIndex := __src.tileIndex, jobId := __src.jobId, time := __src.time, desc := wDesc 1, stage := __src.stage, comp := true, blocks := [0], flags := __src.flags, t1 := __src.t1, t2 := __src.t2, t3 := __src.t3, r1 := __src.r1, r2 := __src.r2, r3 := __src.r3, siteDigest := __src.siteDigest, first := __src.first, count := __src.count, siteVal := __src.siteVal, calVal := __src.calVal : Check }).run, tileIndex := (let __src := wChk 0 (some wArm); { id := __src.id, site := __src.site, req := __src.req, unit := __src.unit, run := __src.run, tileIndex := __src.tileIndex, jobId := __src.jobId, time := __src.time, desc := wDesc 1, stage := __src.stage, comp := true, blocks := [0], flags := __src.flags, t1 := __src.t1, t2 := __src.t2, t3 := __src.t3, r1 := __src.r1, r2 := __src.r2, r3 := __src.r3, siteDigest := __src.siteDigest, first := __src.first, count := __src.count, siteVal := __src.siteVal, calVal := __src.calVal : Check }).tileIndex, jobId := (let __src := wChk 0 (some wArm); { id := __src.id, site := __src.site, req := __src.req, unit := __src.unit, run := __src.run, tileIndex := __src.tileIndex, jobId := __src.jobId, time := __src.time, desc := wDesc 1, stage := __src.stage, comp := true, blocks := [0], flags := __src.flags, t1 := __src.t1, t2 := __src.t2, t3 := __src.t3, r1 := __src.r1, r2 := __src.r2, r3 := __src.r3, siteDigest := __src.siteDigest, first := __src.first, count := __src.count, siteVal := __src.siteVal, calVal := __src.calVal : Check }).jobId, time := (let __src := wChk 0 (some wArm); { id := __src.id, site := __src.site, req := __src.req, unit := __src.unit, run := __src.run, tileIndex := __src.tileIndex, jobId := __src.jobId, time := __src.time, desc := wDesc 1, stage := __src.stage, comp := true, blocks := [0], flags := __src.flags, t1 := __src.t1, t2 := __src.t2, t3 := __src.t3, r1 := __src.r1, r2 := __src.r2, r3 := __src.r3, siteDigest := __src.siteDigest, first := __src.first, count := __src.count, siteVal := __src.siteVal, calVal := __src.calVal : Check }).time, desc := (let __src := wChk 0 (some wArm); { id := __src.id, site := __src.site, req := __src.req, unit := __src.unit, run := __src.run, tileIndex := __src.tileIndex, jobId := __src.jobId, time := __src.time, desc := wDesc 1, stage := __src.stage, comp := true, blocks := [0], flags := __src.flags, t1 := __src.t1, t2 := __src.t2, t3 := __src.t3, r1 := __src.r1, r2 := __src.r2, r3 := __src.r3, siteDigest := __src.siteDigest, first := __src.first, count := __src.count, siteVal := __src.siteVal, calVal := __src.calVal : Check }).desc, stage := (let __src := wChk 0 (some wArm); { id := __src.id, site := __src.site, req := __src.req, unit := __src.unit, run := __src.run, tileIndex := __src.tileIndex, jobId := __src.jobId, time := __src.time, desc := wDesc 1, stage := __src.stage, comp := true, blocks := [0], flags := __src.flags, t1 := __src.t1, t2 := __src.t2, t3 := __src.t3, r1 := __src.r1, r2 := __src.r2, r3 := __src.r3, siteDigest := __src.siteDigest, first := __src.first, count := __src.count, siteVal := __src.siteVal, calVal := __src.calVal : Check }).stage, comp := (let __src := wChk 0 (some wArm); { id := __src.id, site := __src.site, req := __src.req, unit := __src.unit, run := __src.run, tileIndex := __src.tileIndex, jobId := __src.jobId, time := __src.time, desc := wDesc 1, stage := __src.stage, comp := true, blocks := [0], flags := __src.flags, t1 := __src.t1, t2 := __src.t2, t3 := __src.t3, r1 := __src.r1, r2 := __src.r2, r3 := __src.r3, siteDigest := __src.siteDigest, first := __src.first, count := __src.count, siteVal := __src.siteVal, calVal := __src.calVal : Check }).comp, blocks := (let __src := wChk 0 (some wArm); { id := __src.id, site := __src.site, req := __src.req, unit := __src.unit, run := __src.run, tileIndex := __src.tileIndex, jobId := __src.jobId, time := __src.time, desc := wDesc 1, stage := __src.stage, comp := true, blocks := [0], flags := __src.flags, t1 := __src.t1, t2 := __src.t2, t3 := __src.t3, r1 := __src.r1, r2 := __src.r2, r3 := __src.r3, siteDigest := __src.siteDigest, first := __src.first, count := __src.count, siteVal := __src.siteVal, calVal := __src.calVal : Check }).blocks.erase { tile := 3, rank := 3, id := 4, part := 0, bytes := 0 : CalJob }.part, flags := (let __src := wChk 0 (some wArm); { id := __src.id, site := __src.site, req := __src.req, unit := __src.unit, run := __src.run, tileIndex := __src.tileIndex, jobId := __src.jobId, time := __src.time, desc := wDesc 1, stage := __src.stage, comp := true, blocks := [0], flags := __src.flags, t1 := __src.t1, t2 := __src.t2, t3 := __src.t3, r1 := __src.r1, r2 := __src.r2, r3 := __src.r3, siteDigest := __src.siteDigest, first := __src.first, count := __src.count, siteVal := __src.siteVal, calVal := __src.calVal : Check }).flags ||| wSix.flags, t1 := (let __src := wChk 0 (some wArm); { id := __src.id, site := __src.site, req := __src.req, unit := __src.unit, run := __src.run, tileIndex := __src.tileIndex, jobId := __src.jobId, time := __src.time, desc := wDesc 1, stage := __src.stage, comp := true, blocks := [0], flags := __src.flags, t1 := __src.t1, t2 := __src.t2, t3 := __src.t3, r1 := __src.r1, r2 := __src.r2, r3 := __src.r3, siteDigest := __src.siteDigest, first := __src.first, count := __src.count, siteVal := __src.siteVal, calVal := __src.calVal : Check }).t1, t2 := (let __src := wChk 0 (some wArm); { id := __src.id, site := __src.site, req := __src.req, unit := __src.unit, run := __src.run, tileIndex := __src.tileIndex, jobId := __src.jobId, time := __src.time, desc := wDesc 1, stage := __src.stage, comp := true, blocks := [0], flags := __src.flags, t1 := __src.t1, t2 := __src.t2, t3 := __src.t3, r1 := __src.r1, r2 := __src.r2, r3 := __src.r3, siteDigest := __src.siteDigest, first := __src.first, count := __src.count, siteVal := __src.siteVal, calVal := __src.calVal : Check }).t2, t3 := (let __src := wChk 0 (some wArm); { id := __src.id, site := __src.site, req := __src.req, unit := __src.unit, run := __src.run, tileIndex := __src.tileIndex, jobId := __src.jobId, time := __src.time, desc := wDesc 1, stage := __src.stage, comp := true, blocks := [0], flags := __src.flags, t1 := __src.t1, t2 := __src.t2, t3 := __src.t3, r1 := __src.r1, r2 := __src.r2, r3 := __src.r3, siteDigest := __src.siteDigest, first := __src.first, count := __src.count, siteVal := __src.siteVal, calVal := __src.calVal : Check }).t3, r1 := (let __src := wChk 0 (some wArm); { id := __src.id, site := __src.site, req := __src.req, unit := __src.unit, run := __src.run, tileIndex := __src.tileIndex, jobId := __src.jobId, time := __src.time, desc := wDesc 1, stage := __src.stage, comp := true, blocks := [0], flags := __src.flags, t1 := __src.t1, t2 := __src.t2, t3 := __src.t3, r1 := __src.r1, r2 := __src.r2, r3 := __src.r3, siteDigest := __src.siteDigest, first := __src.first, count := __src.count, siteVal := __src.siteVal, calVal := __src.calVal : Check }).r1, r2 := (let __src := wChk 0 (some wArm); { id := __src.id, site := __src.site, req := __src.req, unit := __src.unit, run := __src.run, tileIndex := __src.tileIndex, jobId := __src.jobId, time := __src.time, desc := wDesc 1, stage := __src.stage, comp := true, blocks := [0], flags := __src.flags, t1 := __src.t1, t2 := __src.t2, t3 := __src.t3, r1 := __src.r1, r2 := __src.r2, r3 := __src.r3, siteDigest := __src.siteDigest, first := __src.first, count := __src.count, siteVal := __src.siteVal, calVal := __src.calVal : Check }).r2, r3 := (let __src := wChk 0 (some wArm); { id := __src.id, site := __src.site, req := __src.req, unit := __src.unit, run := __src.run, tileIndex := __src.tileIndex, jobId := __src.jobId, time := __src.time, desc := wDesc 1, stage := __src.stage, comp := true, blocks := [0], flags := __src.flags, t1 := __src.t1, t2 := __src.t2, t3 := __src.t3, r1 := __src.r1, r2 := __src.r2, r3 := __src.r3, siteDigest := __src.siteDigest, first := __src.first, count := __src.count, siteVal := __src.siteVal, calVal := __src.calVal : Check }).r3, siteDigest := (let __src := wChk 0 (some wArm); { id := __src.id, site := __src.site, req := __src.req, unit := __src.unit, run := __src.run, tileIndex := __src.tileIndex, jobId := __src.jobId, time := __src.time, desc := wDesc 1, stage := __src.stage, comp := true, blocks := [0], flags := __src.flags, t1 := __src.t1, t2 := __src.t2, t3 := __src.t3, r1 := __src.r1, r2 := __src.r2, r3 := __src.r3, siteDigest := __src.siteDigest, first := __src.first, count := __src.count, siteVal := __src.siteVal, calVal := __src.calVal : Check }).siteDigest, first := (let __src := wChk 0 (some wArm); { id := __src.id, site := __src.site, req := __src.req, unit := __src.unit, run := __src.run, tileIndex := __src.tileIndex, jobId := __src.jobId, time := __src.time, desc := wDesc 1, stage := __src.stage, comp := true, blocks := [0], flags := __src.flags, t1 := __src.t1, t2 := __src.t2, t3 := __src.t3, r1 := __src.r1, r2 := __src.r2, r3 := __src.r3, siteDigest := __src.siteDigest, first := __src.first, count := __src.count, siteVal := __src.siteVal, calVal := __src.calVal : Check }).first, count := (let __src := wChk 0 (some wArm); { id := __src.id, site := __src.site, req := __src.req, unit := __src.unit, run := __src.run, tileIndex := __src.tileIndex, jobId := __src.jobId, time := __src.time, desc := wDesc 1, stage := __src.stage, comp := true, blocks := [0], flags := __src.flags, t1 := __src.t1, t2 := __src.t2, t3 := __src.t3, r1 := __src.r1, r2 := __src.r2, r3 := __src.r3, siteDigest := __src.siteDigest, first := __src.first, count := __src.count, siteVal := __src.siteVal, calVal := __src.calVal : Check }).count, siteVal := (let __src := wChk 0 (some wArm); { id := __src.id, site := __src.site, req := __src.req, unit := __src.unit, run := __src.run, tileIndex := __src.tileIndex, jobId := __src.jobId, time := __src.time, desc := wDesc 1, stage := __src.stage, comp := true, blocks := [0], flags := __src.flags, t1 := __src.t1, t2 := __src.t2, t3 := __src.t3, r1 := __src.r1, r2 := __src.r2, r3 := __src.r3, siteDigest := __src.siteDigest, first := __src.first, count := __src.count, siteVal := __src.siteVal, calVal := __src.calVal : Check }).siteVal, calVal := (let __src := wChk 0 (some wArm); { id := __src.id, site := __src.site, req := __src.req, unit := __src.unit, run := __src.run, tileIndex := __src.tileIndex, jobId := __src.jobId, time := __src.time, desc := wDesc 1, stage := __src.stage, comp := true, blocks := [0], flags := __src.flags, t1 := __src.t1, t2 := __src.t2, t3 := __src.t3, r1 := __src.r1, r2 := __src.r2, r3 := __src.r3, siteDigest := __src.siteDigest, first := __src.first, count := __src.count, siteVal := __src.siteVal, calVal := __src.calVal : Check }).calVal : Check } = { id := (let __src := wChk 0 (some wArm); { id := __src.id, site := __src.site, req := __src.req, unit := __src.unit, run := __src.run, tileIndex := __src.tileIndex, jobId := __src.jobId, time := __src.time, desc := wDesc 1, stage := __src.stage, comp := true, blocks := [0], flags := __src.flags, t1 := __src.t1, t2 := __src.t2, t3 := __src.t3, r1 := __src.r1, r2 := __src.r2, r3 := __src.r3, siteDigest := __src.siteDigest, first := __src.first, count := __src.count, siteVal := __src.siteVal, calVal := __src.calVal : Check }).id, site := (let __src := wChk 0 (some wArm); { id := __src.id, site := __src.site, req := __src.req, unit := __src.unit, run := __src.run, tileIndex := __src.tileIndex, jobId := __src.jobId, time := __src.time, desc := wDesc 1, stage := __src.stage, comp := true, blocks := [0], flags := __src.flags, t1 := __src.t1, t2 := __src.t2, t3 := __src.t3, r1 := __src.r1, r2 := __src.r2, r3 := __src.r3, siteDigest := __src.siteDigest, first := __src.first, count := __src.count, siteVal := __src.siteVal, calVal := __src.calVal : Check }).site, req := (let __src := wChk 0 (some wArm); { id := __src.id, site := __src.site, req := __src.req, unit := __src.unit, run := __src.run, tileIndex := __src.tileIndex, jobId := __src.jobId, time := __src.time, desc := wDesc 1, stage := __src.stage, comp := true, blocks := [0], flags := __src.flags, t1 := __src.t1, t2 := __src.t2, t3 := __src.t3, r1 := __src.r1, r2 := __src.r2, r3 := __src.r3, siteDigest := __src.siteDigest, first := __src.first, count := __src.count, siteVal := __src.siteVal, calVal := __src.calVal : Check }).req, unit := (let __src := wChk 0 (some wArm); { id := __src.id, site := __src.site, req := __src.req, unit := __src.unit, run := __src.run, tileIndex := __src.tileIndex, jobId := __src.jobId, time := __src.time, desc := wDesc 1, stage := __src.stage, comp := true, blocks := [0], flags := __src.flags, t1 := __src.t1, t2 := __src.t2, t3 := __src.t3, r1 := __src.r1, r2 := __src.r2, r3 := __src.r3, siteDigest := __src.siteDigest, first := __src.first, count := __src.count, siteVal := __src.siteVal, calVal := __src.calVal : Check }).unit, run := (let __src := wChk 0 (some wArm); { id := __src.id, site := __src.site, req := __src.req, unit := __src.unit, run := __src.run, tileIndex := __src.tileIndex, jobId := __src.jobId, time := __src.time, desc := wDesc 1, stage := __src.stage, comp := true, blocks := [0], flags := __src.flags, t1 := __src.t1, t2 := __src.t2, t3 := __src.t3, r1 := __src.r1, r2 := __src.r2, r3 := __src.r3, siteDigest := __src.siteDigest, first := __src.first, count := __src.count, siteVal := __src.siteVal, calVal := __src.calVal : Check }).run, tileIndex := (let __src := wChk 0 (some wArm); { id := __src.id, site := __src.site, req := __src.req, unit := __src.unit, run := __src.run, tileIndex := __src.tileIndex, jobId := __src.jobId, time := __src.time, desc := wDesc 1, stage := __src.stage, comp := true, blocks := [0], flags := __src.flags, t1 := __src.t1, t2 := __src.t2, t3 := __src.t3, r1 := __src.r1, r2 := __src.r2, r3 := __src.r3, siteDigest := __src.siteDigest, first := __src.first, count := __src.count, siteVal := __src.siteVal, calVal := __src.calVal : Check }).tileIndex, jobId := (let __src := wChk 0 (some wArm); { id := __src.id, site := __src.site, req := __src.req, unit := __src.unit, run := __src.run, tileIndex := __src.tileIndex, jobId := __src.jobId, time := __src.time, desc := wDesc 1, stage := __src.stage, comp := true, blocks := [0], flags := __src.flags, t1 := __src.t1, t2 := __src.t2, t3 := __src.t3, r1 := __src.r1, r2 := __src.r2, r3 := __src.r3, siteDigest := __src.siteDigest, first := __src.first, count := __src.count, siteVal := __src.siteVal, calVal := __src.calVal : Check }).jobId, time := (let __src := wChk 0 (some wArm); { id := __src.id, site := __src.site, req := __src.req, unit := __src.unit, run := __src.run, tileIndex := __src.tileIndex, jobId := __src.jobId, time := __src.time, desc := wDesc 1, stage := __src.stage, comp := true, blocks := [0], flags := __src.flags, t1 := __src.t1, t2 := __src.t2, t3 := __src.t3, r1 := __src.r1, r2 := __src.r2, r3 := __src.r3, siteDigest := __src.siteDigest, first := __src.first, count := __src.count, siteVal := __src.siteVal, calVal := __src.calVal : Check }).time, desc := (let __src := wChk 0 (some wArm); { id := __src.id, site := __src.site, req := __src.req, unit := __src.unit, run := __src.run, tileIndex := __src.tileIndex, jobId := __src.jobId, time := __src.time, desc := wDesc 1, stage := __src.stage, comp := true, blocks := [0], flags := __src.flags, t1 := __src.t1, t2 := __src.t2, t3 := __src.t3, r1 := __src.r1, r2 := __src.r2, r3 := __src.r3, siteDigest := __src.siteDigest, first := __src.first, count := __src.count, siteVal := __src.siteVal, calVal := __src.calVal : Check }).desc, stage := (let __src := wChk 0 (some wArm); { id := __src.id, site := __src.site, req := __src.req, unit := __src.unit, run := __src.run, tileIndex := __src.tileIndex, jobId := __src.jobId, time := __src.time, desc := wDesc 1, stage := __src.stage, comp := true, blocks := [0], flags := __src.flags, t1 := __src.t1, t2 := __src.t2, t3 := __src.t3, r1 := __src.r1, r2 := __src.r2, r3 := __src.r3, siteDigest := __src.siteDigest, first := __src.first, count := __src.count, siteVal := __src.siteVal, calVal := __src.calVal : Check }).stage, comp := (let __src := wChk 0 (some wArm); { id := __src.id, site := __src.site, req := __src.req, unit := __src.unit, run := __src.run, tileIndex := __src.tileIndex, jobId := __src.jobId, time := __src.time, desc := wDesc 1, stage := __src.stage, comp := true, blocks := [0], flags := __src.flags, t1 := __src.t1, t2 := __src.t2, t3 := __src.t3, r1 := __src.r1, r2 := __src.r2, r3 := __src.r3, siteDigest := __src.siteDigest, first := __src.first, count := __src.count, siteVal := __src.siteVal, calVal := __src.calVal : Check }).comp, blocks := (let __src := wChk 0 (some wArm); { id := __src.id, site := __src.site, req := __src.req, unit := __src.unit, run := __src.run, tileIndex := __src.tileIndex, jobId := __src.jobId, time := __src.time, desc := wDesc 1, stage := __src.stage, comp := true, blocks := [0], flags := __src.flags, t1 := __src.t1, t2 := __src.t2, t3 := __src.t3, r1 := __src.r1, r2 := __src.r2, r3 := __src.r3, siteDigest := __src.siteDigest, first := __src.first, count := __src.count, siteVal := __src.siteVal, calVal := __src.calVal : Check }).blocks.erase { tile := 3, rank := 3, id := 4, part := 0, bytes := 0 : CalJob }.part, flags := (let __src := wChk 0 (some wArm); { id := __src.id, site := __src.site, req := __src.req, unit := __src.unit, run := __src.run, tileIndex := __src.tileIndex, jobId := __src.jobId, time := __src.time, desc := wDesc 1, stage := __src.stage, comp := true, blocks := [0], flags := __src.flags, t1 := __src.t1, t2 := __src.t2, t3 := __src.t3, r1 := __src.r1, r2 := __src.r2, r3 := __src.r3, siteDigest := __src.siteDigest, first := __src.first, count := __src.count, siteVal := __src.siteVal, calVal := __src.calVal : Check }).flags ||| wSix.flags, t1 := (let __src := wChk 0 (some wArm); { id := __src.id, site := __src.site, req := __src.req, unit := __src.unit, run := __src.run, tileIndex := __src.tileIndex, jobId := __src.jobId, time := __src.time, desc := wDesc 1, stage := __src.stage, comp := true, blocks := [0], flags := __src.flags, t1 := __src.t1, t2 := __src.t2, t3 := __src.t3, r1 := __src.r1, r2 := __src.r2, r3 := __src.r3, siteDigest := __src.siteDigest, first := __src.first, count := __src.count, siteVal := __src.siteVal, calVal := __src.calVal : Check }).t1, t2 := (let __src := wChk 0 (some wArm); { id := __src.id, site := __src.site, req := __src.req, unit := __src.unit, run := __src.run, tileIndex := __src.tileIndex, jobId := __src.jobId, time := __src.time, desc := wDesc 1, stage := __src.stage, comp := true, blocks := [0], flags := __src.flags, t1 := __src.t1, t2 := __src.t2, t3 := __src.t3, r1 := __src.r1, r2 := __src.r2, r3 := __src.r3, siteDigest := __src.siteDigest, first := __src.first, count := __src.count, siteVal := __src.siteVal, calVal := __src.calVal : Check }).t2, t3 := (let __src := wChk 0 (some wArm); { id := __src.id, site := __src.site, req := __src.req, unit := __src.unit, run := __src.run, tileIndex := __src.tileIndex, jobId := __src.jobId, time := __src.time, desc := wDesc 1, stage := __src.stage, comp := true, blocks := [0], flags := __src.flags, t1 := __src.t1, t2 := __src.t2, t3 := __src.t3, r1 := __src.r1, r2 := __src.r2, r3 := __src.r3, siteDigest := __src.siteDigest, first := __src.first, count := __src.count, siteVal := __src.siteVal, calVal := __src.calVal : Check }).t3, r1 := (let __src := wChk 0 (some wArm); { id := __src.id, site := __src.site, req := __src.req, unit := __src.unit, run := __src.run, tileIndex := __src.tileIndex, jobId := __src.jobId, time := __src.time, desc := wDesc 1, stage := __src.stage, comp := true, blocks := [0], flags := __src.flags, t1 := __src.t1, t2 := __src.t2, t3 := __src.t3, r1 := __src.r1, r2 := __src.r2, r3 := __src.r3, siteDigest := __src.siteDigest, first := __src.first, count := __src.count, siteVal := __src.siteVal, calVal := __src.calVal : Check }).r1, r2 := (let __src := wChk 0 (some wArm); { id := __src.id, site := __src.site, req := __src.req, unit := __src.unit, run := __src.run, tileIndex := __src.tileIndex, jobId := __src.jobId, time := __src.time, desc := wDesc 1, stage := __src.stage, comp := true, blocks := [0], flags := __src.flags, t1 := __src.t1, t2 := __src.t2, t3 := __src.t3, r1 := __src.r1, r2 := __src.r2, r3 := __src.r3, siteDigest := __src.siteDigest, first := __src.first, count := __src.count, siteVal := __src.siteVal, calVal := __src.calVal : Check }).r2, r3 := (let __src := wChk 0 (some wArm); { id := __src.id, site := __src.site, req := __src.req, unit := __src.unit, run := __src.run, tileIndex := __src.tileIndex, jobId := __src.jobId, time := __src.time, desc := wDesc 1, stage := __src.stage, comp := true, blocks := [0], flags := __src.flags, t1 := __src.t1, t2 := __src.t2, t3 := __src.t3, r1 := __src.r1, r2 := __src.r2, r3 := __src.r3, siteDigest := __src.siteDigest, first := __src.first, count := __src.count, siteVal := __src.siteVal, calVal := __src.calVal : Check }).r3, siteDigest := (let __src := wChk 0 (some wArm); { id := __src.id, site := __src.site, req := __src.req, unit := __src.unit, run := __src.run, tileIndex := __src.tileIndex, jobId := __src.jobId, time := __src.time, desc := wDesc 1, stage := __src.stage, comp := true, blocks := [0], flags := __src.flags, t1 := __src.t1, t2 := __src.t2, t3 := __src.t3, r1 := __src.r1, r2 := __src.r2, r3 := __src.r3, siteDigest := __src.siteDigest, first := __src.first, count := __src.count, siteVal := __src.siteVal, calVal := __src.calVal : Check }).siteDigest, first := (let __src := wChk 0 (some wArm); { id := __src.id, site := __src.site, req := __src.req, unit := __src.unit, run := __src.run, tileIndex := __src.tileIndex, jobId := __src.jobId, time := __src.time, desc := wDesc 1, stage := __src.stage, comp := true, blocks := [0], flags := __src.flags, t1 := __src.t1, t2 := __src.t2, t3 := __src.t3, r1 := __src.r1, r2 := __src.r2, r3 := __src.r3, siteDigest := __src.siteDigest, first := __src.first, count := __src.count, siteVal := __src.siteVal, calVal := __src.calVal : Check }).first, count := (let __src := wChk 0 (some wArm); { id := __src.id, site := __src.site, req := __src.req, unit := __src.unit, run := __src.run, tileIndex := __src.tileIndex, jobId := __src.jobId, time := __src.time, desc := wDesc 1, stage := __src.stage, comp := true, blocks := [0], flags := __src.flags, t1 := __src.t1, t2 := __src.t2, t3 := __src.t3, r1 := __src.r1, r2 := __src.r2, r3 := __src.r3, siteDigest := __src.siteDigest, first := __src.first, count := __src.count, siteVal := __src.siteVal, calVal := __src.calVal : Check }).count, siteVal := (let __src := wChk 0 (some wArm); { id := __src.id, site := __src.site, req := __src.req, unit := __src.unit, run := __src.run, tileIndex := __src.tileIndex, jobId := __src.jobId, time := __src.time, desc := wDesc 1, stage := __src.stage, comp := true, blocks := [0], flags := __src.flags, t1 := __src.t1, t2 := __src.t2, t3 := __src.t3, r1 := __src.r1, r2 := __src.r2, r3 := __src.r3, siteDigest := __src.siteDigest, first := __src.first, count := __src.count, siteVal := __src.siteVal, calVal := __src.calVal : Check }).siteVal, calVal := (let __src := wChk 0 (some wArm); { id := __src.id, site := __src.site, req := __src.req, unit := __src.unit, run := __src.run, tileIndex := __src.tileIndex, jobId := __src.jobId, time := __src.time, desc := wDesc 1, stage := __src.stage, comp := true, blocks := [0], flags := __src.flags, t1 := __src.t1, t2 := __src.t2, t3 := __src.t3, r1 := __src.r1, r2 := __src.r2, r3 := __src.r3, siteDigest := __src.siteDigest, first := __src.first, count := __src.count, siteVal := __src.siteVal, calVal := __src.calVal : Check }).calVal : Check }) := by decide +kernel
theorem witness_CaliperTakesEffect_2_b :
    (wJ14.pwr.core = true) ∧ (wJ14.checkOf 4 = some (let __src := wChk 0 (some wArm); { id := __src.id, site := __src.site, req := __src.req, unit := __src.unit, run := __src.run, tileIndex := __src.tileIndex, jobId := __src.jobId, time := __src.time, desc := wDesc 1, stage := __src.stage, comp := true, blocks := [0, 1], flags := __src.flags, t1 := __src.t1, t2 := __src.t2, t3 := __src.t3, r1 := __src.r1, r2 := __src.r2, r3 := __src.r3, siteDigest := __src.siteDigest, first := __src.first, count := __src.count, siteVal := __src.siteVal, calVal := __src.calVal : Check })) ∧ (wJ14.calStopped = false) ∧ (wJ14.tileRuns 3 4 = some { tile := 3, rank := 3, id := 4, part := 0, bytes := 0 : CalJob }) ∧ ((let __src := wChk 0 (some wArm); { id := __src.id, site := __src.site, req := __src.req, unit := __src.unit, run := __src.run, tileIndex := __src.tileIndex, jobId := __src.jobId, time := __src.time, desc := wDesc 1, stage := __src.stage, comp := true, blocks := [0, 1], flags := __src.flags, t1 := __src.t1, t2 := __src.t2, t3 := __src.t3, r1 := __src.r1, r2 := __src.r2, r3 := __src.r3, siteDigest := __src.siteDigest, first := __src.first, count := __src.count, siteVal := __src.siteVal, calVal := __src.calVal : Check }).stage = 0) ∧ ((let __src := wChk 0 (some wArm); { id := __src.id, site := __src.site, req := __src.req, unit := __src.unit, run := __src.run, tileIndex := __src.tileIndex, jobId := __src.jobId, time := __src.time, desc := wDesc 1, stage := __src.stage, comp := true, blocks := [0, 1], flags := __src.flags, t1 := __src.t1, t2 := __src.t2, t3 := __src.t3, r1 := __src.r1, r2 := __src.r2, r3 := __src.r3, siteDigest := __src.siteDigest, first := __src.first, count := __src.count, siteVal := __src.siteVal, calVal := __src.calVal : Check }).comp = true) ∧ ((let __src := wChk 0 (some wArm); { id := __src.id, site := __src.site, req := __src.req, unit := __src.unit, run := __src.run, tileIndex := __src.tileIndex, jobId := __src.jobId, time := __src.time, desc := wDesc 1, stage := __src.stage, comp := true, blocks := [0, 1], flags := __src.flags, t1 := __src.t1, t2 := __src.t2, t3 := __src.t3, r1 := __src.r1, r2 := __src.r2, r3 := __src.r3, siteDigest := __src.siteDigest, first := __src.first, count := __src.count, siteVal := __src.siteVal, calVal := __src.calVal : Check }).req = some wArm) ∧ (wJ14.compute wFetch (let __src := wChk 0 (some wArm); { id := __src.id, site := __src.site, req := __src.req, unit := __src.unit, run := __src.run, tileIndex := __src.tileIndex, jobId := __src.jobId, time := __src.time, desc := wDesc 1, stage := __src.stage, comp := true, blocks := [0, 1], flags := __src.flags, t1 := __src.t1, t2 := __src.t2, t3 := __src.t3, r1 := __src.r1, r2 := __src.r2, r3 := __src.r3, siteDigest := __src.siteDigest, first := __src.first, count := __src.count, siteVal := __src.siteVal, calVal := __src.calVal : Check }).desc (blockPart (let __src := wChk 0 (some wArm); { id := __src.id, site := __src.site, req := __src.req, unit := __src.unit, run := __src.run, tileIndex := __src.tileIndex, jobId := __src.jobId, time := __src.time, desc := wDesc 1, stage := __src.stage, comp := true, blocks := [0, 1], flags := __src.flags, t1 := __src.t1, t2 := __src.t2, t3 := __src.t3, r1 := __src.r1, r2 := __src.r2, r3 := __src.r3, siteDigest := __src.siteDigest, first := __src.first, count := __src.count, siteVal := __src.siteVal, calVal := __src.calVal : Check }).desc { tile := 3, rank := 3, id := 4, part := 0, bytes := 0 : CalJob }.part) = Except.ok wSix) ∧ ({ id := (let __src := wChk 0 (some wArm); { id := __src.id, site := __src.site, req := __src.req, unit := __src.unit, run := __src.run, tileIndex := __src.tileIndex, jobId := __src.jobId, time := __src.time, desc := wDesc 1, stage := __src.stage, comp := true, blocks := [0, 1], flags := __src.flags, t1 := __src.t1, t2 := __src.t2, t3 := __src.t3, r1 := __src.r1, r2 := __src.r2, r3 := __src.r3, siteDigest := __src.siteDigest, first := __src.first, count := __src.count, siteVal := __src.siteVal, calVal := __src.calVal : Check }).id, site := (let __src := wChk 0 (some wArm); { id := __src.id, site := __src.site, req := __src.req, unit := __src.unit, run := __src.run, tileIndex := __src.tileIndex, jobId := __src.jobId, time := __src.time, desc := wDesc 1, stage := __src.stage, comp := true, blocks := [0, 1], flags := __src.flags, t1 := __src.t1, t2 := __src.t2, t3 := __src.t3, r1 := __src.r1, r2 := __src.r2, r3 := __src.r3, siteDigest := __src.siteDigest, first := __src.first, count := __src.count, siteVal := __src.siteVal, calVal := __src.calVal : Check }).site, req := (let __src := wChk 0 (some wArm); { id := __src.id, site := __src.site, req := __src.req, unit := __src.unit, run := __src.run, tileIndex := __src.tileIndex, jobId := __src.jobId, time := __src.time, desc := wDesc 1, stage := __src.stage, comp := true, blocks := [0, 1], flags := __src.flags, t1 := __src.t1, t2 := __src.t2, t3 := __src.t3, r1 := __src.r1, r2 := __src.r2, r3 := __src.r3, siteDigest := __src.siteDigest, first := __src.first, count := __src.count, siteVal := __src.siteVal, calVal := __src.calVal : Check }).req, unit := (let __src := wChk 0 (some wArm); { id := __src.id, site := __src.site, req := __src.req, unit := __src.unit, run := __src.run, tileIndex := __src.tileIndex, jobId := __src.jobId, time := __src.time, desc := wDesc 1, stage := __src.stage, comp := true, blocks := [0, 1], flags := __src.flags, t1 := __src.t1, t2 := __src.t2, t3 := __src.t3, r1 := __src.r1, r2 := __src.r2, r3 := __src.r3, siteDigest := __src.siteDigest, first := __src.first, count := __src.count, siteVal := __src.siteVal, calVal := __src.calVal : Check }).unit, run := (let __src := wChk 0 (some wArm); { id := __src.id, site := __src.site, req := __src.req, unit := __src.unit, run := __src.run, tileIndex := __src.tileIndex, jobId := __src.jobId, time := __src.time, desc := wDesc 1, stage := __src.stage, comp := true, blocks := [0, 1], flags := __src.flags, t1 := __src.t1, t2 := __src.t2, t3 := __src.t3, r1 := __src.r1, r2 := __src.r2, r3 := __src.r3, siteDigest := __src.siteDigest, first := __src.first, count := __src.count, siteVal := __src.siteVal, calVal := __src.calVal : Check }).run, tileIndex := (let __src := wChk 0 (some wArm); { id := __src.id, site := __src.site, req := __src.req, unit := __src.unit, run := __src.run, tileIndex := __src.tileIndex, jobId := __src.jobId, time := __src.time, desc := wDesc 1, stage := __src.stage, comp := true, blocks := [0, 1], flags := __src.flags, t1 := __src.t1, t2 := __src.t2, t3 := __src.t3, r1 := __src.r1, r2 := __src.r2, r3 := __src.r3, siteDigest := __src.siteDigest, first := __src.first, count := __src.count, siteVal := __src.siteVal, calVal := __src.calVal : Check }).tileIndex, jobId := (let __src := wChk 0 (some wArm); { id := __src.id, site := __src.site, req := __src.req, unit := __src.unit, run := __src.run, tileIndex := __src.tileIndex, jobId := __src.jobId, time := __src.time, desc := wDesc 1, stage := __src.stage, comp := true, blocks := [0, 1], flags := __src.flags, t1 := __src.t1, t2 := __src.t2, t3 := __src.t3, r1 := __src.r1, r2 := __src.r2, r3 := __src.r3, siteDigest := __src.siteDigest, first := __src.first, count := __src.count, siteVal := __src.siteVal, calVal := __src.calVal : Check }).jobId, time := (let __src := wChk 0 (some wArm); { id := __src.id, site := __src.site, req := __src.req, unit := __src.unit, run := __src.run, tileIndex := __src.tileIndex, jobId := __src.jobId, time := __src.time, desc := wDesc 1, stage := __src.stage, comp := true, blocks := [0, 1], flags := __src.flags, t1 := __src.t1, t2 := __src.t2, t3 := __src.t3, r1 := __src.r1, r2 := __src.r2, r3 := __src.r3, siteDigest := __src.siteDigest, first := __src.first, count := __src.count, siteVal := __src.siteVal, calVal := __src.calVal : Check }).time, desc := (let __src := wChk 0 (some wArm); { id := __src.id, site := __src.site, req := __src.req, unit := __src.unit, run := __src.run, tileIndex := __src.tileIndex, jobId := __src.jobId, time := __src.time, desc := wDesc 1, stage := __src.stage, comp := true, blocks := [0, 1], flags := __src.flags, t1 := __src.t1, t2 := __src.t2, t3 := __src.t3, r1 := __src.r1, r2 := __src.r2, r3 := __src.r3, siteDigest := __src.siteDigest, first := __src.first, count := __src.count, siteVal := __src.siteVal, calVal := __src.calVal : Check }).desc, stage := (let __src := wChk 0 (some wArm); { id := __src.id, site := __src.site, req := __src.req, unit := __src.unit, run := __src.run, tileIndex := __src.tileIndex, jobId := __src.jobId, time := __src.time, desc := wDesc 1, stage := __src.stage, comp := true, blocks := [0, 1], flags := __src.flags, t1 := __src.t1, t2 := __src.t2, t3 := __src.t3, r1 := __src.r1, r2 := __src.r2, r3 := __src.r3, siteDigest := __src.siteDigest, first := __src.first, count := __src.count, siteVal := __src.siteVal, calVal := __src.calVal : Check }).stage, comp := (let __src := wChk 0 (some wArm); { id := __src.id, site := __src.site, req := __src.req, unit := __src.unit, run := __src.run, tileIndex := __src.tileIndex, jobId := __src.jobId, time := __src.time, desc := wDesc 1, stage := __src.stage, comp := true, blocks := [0, 1], flags := __src.flags, t1 := __src.t1, t2 := __src.t2, t3 := __src.t3, r1 := __src.r1, r2 := __src.r2, r3 := __src.r3, siteDigest := __src.siteDigest, first := __src.first, count := __src.count, siteVal := __src.siteVal, calVal := __src.calVal : Check }).comp, blocks := (let __src := wChk 0 (some wArm); { id := __src.id, site := __src.site, req := __src.req, unit := __src.unit, run := __src.run, tileIndex := __src.tileIndex, jobId := __src.jobId, time := __src.time, desc := wDesc 1, stage := __src.stage, comp := true, blocks := [0, 1], flags := __src.flags, t1 := __src.t1, t2 := __src.t2, t3 := __src.t3, r1 := __src.r1, r2 := __src.r2, r3 := __src.r3, siteDigest := __src.siteDigest, first := __src.first, count := __src.count, siteVal := __src.siteVal, calVal := __src.calVal : Check }).blocks.erase { tile := 3, rank := 3, id := 4, part := 0, bytes := 0 : CalJob }.part, flags := (let __src := wChk 0 (some wArm); { id := __src.id, site := __src.site, req := __src.req, unit := __src.unit, run := __src.run, tileIndex := __src.tileIndex, jobId := __src.jobId, time := __src.time, desc := wDesc 1, stage := __src.stage, comp := true, blocks := [0, 1], flags := __src.flags, t1 := __src.t1, t2 := __src.t2, t3 := __src.t3, r1 := __src.r1, r2 := __src.r2, r3 := __src.r3, siteDigest := __src.siteDigest, first := __src.first, count := __src.count, siteVal := __src.siteVal, calVal := __src.calVal : Check }).flags ||| wSix.flags, t1 := (let __src := wChk 0 (some wArm); { id := __src.id, site := __src.site, req := __src.req, unit := __src.unit, run := __src.run, tileIndex := __src.tileIndex, jobId := __src.jobId, time := __src.time, desc := wDesc 1, stage := __src.stage, comp := true, blocks := [0, 1], flags := __src.flags, t1 := __src.t1, t2 := __src.t2, t3 := __src.t3, r1 := __src.r1, r2 := __src.r2, r3 := __src.r3, siteDigest := __src.siteDigest, first := __src.first, count := __src.count, siteVal := __src.siteVal, calVal := __src.calVal : Check }).t1, t2 := (let __src := wChk 0 (some wArm); { id := __src.id, site := __src.site, req := __src.req, unit := __src.unit, run := __src.run, tileIndex := __src.tileIndex, jobId := __src.jobId, time := __src.time, desc := wDesc 1, stage := __src.stage, comp := true, blocks := [0, 1], flags := __src.flags, t1 := __src.t1, t2 := __src.t2, t3 := __src.t3, r1 := __src.r1, r2 := __src.r2, r3 := __src.r3, siteDigest := __src.siteDigest, first := __src.first, count := __src.count, siteVal := __src.siteVal, calVal := __src.calVal : Check }).t2, t3 := (let __src := wChk 0 (some wArm); { id := __src.id, site := __src.site, req := __src.req, unit := __src.unit, run := __src.run, tileIndex := __src.tileIndex, jobId := __src.jobId, time := __src.time, desc := wDesc 1, stage := __src.stage, comp := true, blocks := [0, 1], flags := __src.flags, t1 := __src.t1, t2 := __src.t2, t3 := __src.t3, r1 := __src.r1, r2 := __src.r2, r3 := __src.r3, siteDigest := __src.siteDigest, first := __src.first, count := __src.count, siteVal := __src.siteVal, calVal := __src.calVal : Check }).t3, r1 := (let __src := wChk 0 (some wArm); { id := __src.id, site := __src.site, req := __src.req, unit := __src.unit, run := __src.run, tileIndex := __src.tileIndex, jobId := __src.jobId, time := __src.time, desc := wDesc 1, stage := __src.stage, comp := true, blocks := [0, 1], flags := __src.flags, t1 := __src.t1, t2 := __src.t2, t3 := __src.t3, r1 := __src.r1, r2 := __src.r2, r3 := __src.r3, siteDigest := __src.siteDigest, first := __src.first, count := __src.count, siteVal := __src.siteVal, calVal := __src.calVal : Check }).r1, r2 := (let __src := wChk 0 (some wArm); { id := __src.id, site := __src.site, req := __src.req, unit := __src.unit, run := __src.run, tileIndex := __src.tileIndex, jobId := __src.jobId, time := __src.time, desc := wDesc 1, stage := __src.stage, comp := true, blocks := [0, 1], flags := __src.flags, t1 := __src.t1, t2 := __src.t2, t3 := __src.t3, r1 := __src.r1, r2 := __src.r2, r3 := __src.r3, siteDigest := __src.siteDigest, first := __src.first, count := __src.count, siteVal := __src.siteVal, calVal := __src.calVal : Check }).r2, r3 := (let __src := wChk 0 (some wArm); { id := __src.id, site := __src.site, req := __src.req, unit := __src.unit, run := __src.run, tileIndex := __src.tileIndex, jobId := __src.jobId, time := __src.time, desc := wDesc 1, stage := __src.stage, comp := true, blocks := [0, 1], flags := __src.flags, t1 := __src.t1, t2 := __src.t2, t3 := __src.t3, r1 := __src.r1, r2 := __src.r2, r3 := __src.r3, siteDigest := __src.siteDigest, first := __src.first, count := __src.count, siteVal := __src.siteVal, calVal := __src.calVal : Check }).r3, siteDigest := (let __src := wChk 0 (some wArm); { id := __src.id, site := __src.site, req := __src.req, unit := __src.unit, run := __src.run, tileIndex := __src.tileIndex, jobId := __src.jobId, time := __src.time, desc := wDesc 1, stage := __src.stage, comp := true, blocks := [0, 1], flags := __src.flags, t1 := __src.t1, t2 := __src.t2, t3 := __src.t3, r1 := __src.r1, r2 := __src.r2, r3 := __src.r3, siteDigest := __src.siteDigest, first := __src.first, count := __src.count, siteVal := __src.siteVal, calVal := __src.calVal : Check }).siteDigest, first := (let __src := wChk 0 (some wArm); { id := __src.id, site := __src.site, req := __src.req, unit := __src.unit, run := __src.run, tileIndex := __src.tileIndex, jobId := __src.jobId, time := __src.time, desc := wDesc 1, stage := __src.stage, comp := true, blocks := [0, 1], flags := __src.flags, t1 := __src.t1, t2 := __src.t2, t3 := __src.t3, r1 := __src.r1, r2 := __src.r2, r3 := __src.r3, siteDigest := __src.siteDigest, first := __src.first, count := __src.count, siteVal := __src.siteVal, calVal := __src.calVal : Check }).first, count := (let __src := wChk 0 (some wArm); { id := __src.id, site := __src.site, req := __src.req, unit := __src.unit, run := __src.run, tileIndex := __src.tileIndex, jobId := __src.jobId, time := __src.time, desc := wDesc 1, stage := __src.stage, comp := true, blocks := [0, 1], flags := __src.flags, t1 := __src.t1, t2 := __src.t2, t3 := __src.t3, r1 := __src.r1, r2 := __src.r2, r3 := __src.r3, siteDigest := __src.siteDigest, first := __src.first, count := __src.count, siteVal := __src.siteVal, calVal := __src.calVal : Check }).count, siteVal := (let __src := wChk 0 (some wArm); { id := __src.id, site := __src.site, req := __src.req, unit := __src.unit, run := __src.run, tileIndex := __src.tileIndex, jobId := __src.jobId, time := __src.time, desc := wDesc 1, stage := __src.stage, comp := true, blocks := [0, 1], flags := __src.flags, t1 := __src.t1, t2 := __src.t2, t3 := __src.t3, r1 := __src.r1, r2 := __src.r2, r3 := __src.r3, siteDigest := __src.siteDigest, first := __src.first, count := __src.count, siteVal := __src.siteVal, calVal := __src.calVal : Check }).siteVal, calVal := (let __src := wChk 0 (some wArm); { id := __src.id, site := __src.site, req := __src.req, unit := __src.unit, run := __src.run, tileIndex := __src.tileIndex, jobId := __src.jobId, time := __src.time, desc := wDesc 1, stage := __src.stage, comp := true, blocks := [0, 1], flags := __src.flags, t1 := __src.t1, t2 := __src.t2, t3 := __src.t3, r1 := __src.r1, r2 := __src.r2, r3 := __src.r3, siteDigest := __src.siteDigest, first := __src.first, count := __src.count, siteVal := __src.siteVal, calVal := __src.calVal : Check }).calVal : Check } = { id := (let __src := wChk 0 (some wArm); { id := __src.id, site := __src.site, req := __src.req, unit := __src.unit, run := __src.run, tileIndex := __src.tileIndex, jobId := __src.jobId, time := __src.time, desc := wDesc 1, stage := __src.stage, comp := true, blocks := [0, 1], flags := __src.flags, t1 := __src.t1, t2 := __src.t2, t3 := __src.t3, r1 := __src.r1, r2 := __src.r2, r3 := __src.r3, siteDigest := __src.siteDigest, first := __src.first, count := __src.count, siteVal := __src.siteVal, calVal := __src.calVal : Check }).id, site := (let __src := wChk 0 (some wArm); { id := __src.id, site := __src.site, req := __src.req, unit := __src.unit, run := __src.run, tileIndex := __src.tileIndex, jobId := __src.jobId, time := __src.time, desc := wDesc 1, stage := __src.stage, comp := true, blocks := [0, 1], flags := __src.flags, t1 := __src.t1, t2 := __src.t2, t3 := __src.t3, r1 := __src.r1, r2 := __src.r2, r3 := __src.r3, siteDigest := __src.siteDigest, first := __src.first, count := __src.count, siteVal := __src.siteVal, calVal := __src.calVal : Check }).site, req := (let __src := wChk 0 (some wArm); { id := __src.id, site := __src.site, req := __src.req, unit := __src.unit, run := __src.run, tileIndex := __src.tileIndex, jobId := __src.jobId, time := __src.time, desc := wDesc 1, stage := __src.stage, comp := true, blocks := [0, 1], flags := __src.flags, t1 := __src.t1, t2 := __src.t2, t3 := __src.t3, r1 := __src.r1, r2 := __src.r2, r3 := __src.r3, siteDigest := __src.siteDigest, first := __src.first, count := __src.count, siteVal := __src.siteVal, calVal := __src.calVal : Check }).req, unit := (let __src := wChk 0 (some wArm); { id := __src.id, site := __src.site, req := __src.req, unit := __src.unit, run := __src.run, tileIndex := __src.tileIndex, jobId := __src.jobId, time := __src.time, desc := wDesc 1, stage := __src.stage, comp := true, blocks := [0, 1], flags := __src.flags, t1 := __src.t1, t2 := __src.t2, t3 := __src.t3, r1 := __src.r1, r2 := __src.r2, r3 := __src.r3, siteDigest := __src.siteDigest, first := __src.first, count := __src.count, siteVal := __src.siteVal, calVal := __src.calVal : Check }).unit, run := (let __src := wChk 0 (some wArm); { id := __src.id, site := __src.site, req := __src.req, unit := __src.unit, run := __src.run, tileIndex := __src.tileIndex, jobId := __src.jobId, time := __src.time, desc := wDesc 1, stage := __src.stage, comp := true, blocks := [0, 1], flags := __src.flags, t1 := __src.t1, t2 := __src.t2, t3 := __src.t3, r1 := __src.r1, r2 := __src.r2, r3 := __src.r3, siteDigest := __src.siteDigest, first := __src.first, count := __src.count, siteVal := __src.siteVal, calVal := __src.calVal : Check }).run, tileIndex := (let __src := wChk 0 (some wArm); { id := __src.id, site := __src.site, req := __src.req, unit := __src.unit, run := __src.run, tileIndex := __src.tileIndex, jobId := __src.jobId, time := __src.time, desc := wDesc 1, stage := __src.stage, comp := true, blocks := [0, 1], flags := __src.flags, t1 := __src.t1, t2 := __src.t2, t3 := __src.t3, r1 := __src.r1, r2 := __src.r2, r3 := __src.r3, siteDigest := __src.siteDigest, first := __src.first, count := __src.count, siteVal := __src.siteVal, calVal := __src.calVal : Check }).tileIndex, jobId := (let __src := wChk 0 (some wArm); { id := __src.id, site := __src.site, req := __src.req, unit := __src.unit, run := __src.run, tileIndex := __src.tileIndex, jobId := __src.jobId, time := __src.time, desc := wDesc 1, stage := __src.stage, comp := true, blocks := [0, 1], flags := __src.flags, t1 := __src.t1, t2 := __src.t2, t3 := __src.t3, r1 := __src.r1, r2 := __src.r2, r3 := __src.r3, siteDigest := __src.siteDigest, first := __src.first, count := __src.count, siteVal := __src.siteVal, calVal := __src.calVal : Check }).jobId, time := (let __src := wChk 0 (some wArm); { id := __src.id, site := __src.site, req := __src.req, unit := __src.unit, run := __src.run, tileIndex := __src.tileIndex, jobId := __src.jobId, time := __src.time, desc := wDesc 1, stage := __src.stage, comp := true, blocks := [0, 1], flags := __src.flags, t1 := __src.t1, t2 := __src.t2, t3 := __src.t3, r1 := __src.r1, r2 := __src.r2, r3 := __src.r3, siteDigest := __src.siteDigest, first := __src.first, count := __src.count, siteVal := __src.siteVal, calVal := __src.calVal : Check }).time, desc := (let __src := wChk 0 (some wArm); { id := __src.id, site := __src.site, req := __src.req, unit := __src.unit, run := __src.run, tileIndex := __src.tileIndex, jobId := __src.jobId, time := __src.time, desc := wDesc 1, stage := __src.stage, comp := true, blocks := [0, 1], flags := __src.flags, t1 := __src.t1, t2 := __src.t2, t3 := __src.t3, r1 := __src.r1, r2 := __src.r2, r3 := __src.r3, siteDigest := __src.siteDigest, first := __src.first, count := __src.count, siteVal := __src.siteVal, calVal := __src.calVal : Check }).desc, stage := (let __src := wChk 0 (some wArm); { id := __src.id, site := __src.site, req := __src.req, unit := __src.unit, run := __src.run, tileIndex := __src.tileIndex, jobId := __src.jobId, time := __src.time, desc := wDesc 1, stage := __src.stage, comp := true, blocks := [0, 1], flags := __src.flags, t1 := __src.t1, t2 := __src.t2, t3 := __src.t3, r1 := __src.r1, r2 := __src.r2, r3 := __src.r3, siteDigest := __src.siteDigest, first := __src.first, count := __src.count, siteVal := __src.siteVal, calVal := __src.calVal : Check }).stage, comp := (let __src := wChk 0 (some wArm); { id := __src.id, site := __src.site, req := __src.req, unit := __src.unit, run := __src.run, tileIndex := __src.tileIndex, jobId := __src.jobId, time := __src.time, desc := wDesc 1, stage := __src.stage, comp := true, blocks := [0, 1], flags := __src.flags, t1 := __src.t1, t2 := __src.t2, t3 := __src.t3, r1 := __src.r1, r2 := __src.r2, r3 := __src.r3, siteDigest := __src.siteDigest, first := __src.first, count := __src.count, siteVal := __src.siteVal, calVal := __src.calVal : Check }).comp, blocks := (let __src := wChk 0 (some wArm); { id := __src.id, site := __src.site, req := __src.req, unit := __src.unit, run := __src.run, tileIndex := __src.tileIndex, jobId := __src.jobId, time := __src.time, desc := wDesc 1, stage := __src.stage, comp := true, blocks := [0, 1], flags := __src.flags, t1 := __src.t1, t2 := __src.t2, t3 := __src.t3, r1 := __src.r1, r2 := __src.r2, r3 := __src.r3, siteDigest := __src.siteDigest, first := __src.first, count := __src.count, siteVal := __src.siteVal, calVal := __src.calVal : Check }).blocks.erase { tile := 3, rank := 3, id := 4, part := 0, bytes := 0 : CalJob }.part, flags := (let __src := wChk 0 (some wArm); { id := __src.id, site := __src.site, req := __src.req, unit := __src.unit, run := __src.run, tileIndex := __src.tileIndex, jobId := __src.jobId, time := __src.time, desc := wDesc 1, stage := __src.stage, comp := true, blocks := [0, 1], flags := __src.flags, t1 := __src.t1, t2 := __src.t2, t3 := __src.t3, r1 := __src.r1, r2 := __src.r2, r3 := __src.r3, siteDigest := __src.siteDigest, first := __src.first, count := __src.count, siteVal := __src.siteVal, calVal := __src.calVal : Check }).flags ||| wSix.flags, t1 := (let __src := wChk 0 (some wArm); { id := __src.id, site := __src.site, req := __src.req, unit := __src.unit, run := __src.run, tileIndex := __src.tileIndex, jobId := __src.jobId, time := __src.time, desc := wDesc 1, stage := __src.stage, comp := true, blocks := [0, 1], flags := __src.flags, t1 := __src.t1, t2 := __src.t2, t3 := __src.t3, r1 := __src.r1, r2 := __src.r2, r3 := __src.r3, siteDigest := __src.siteDigest, first := __src.first, count := __src.count, siteVal := __src.siteVal, calVal := __src.calVal : Check }).t1, t2 := (let __src := wChk 0 (some wArm); { id := __src.id, site := __src.site, req := __src.req, unit := __src.unit, run := __src.run, tileIndex := __src.tileIndex, jobId := __src.jobId, time := __src.time, desc := wDesc 1, stage := __src.stage, comp := true, blocks := [0, 1], flags := __src.flags, t1 := __src.t1, t2 := __src.t2, t3 := __src.t3, r1 := __src.r1, r2 := __src.r2, r3 := __src.r3, siteDigest := __src.siteDigest, first := __src.first, count := __src.count, siteVal := __src.siteVal, calVal := __src.calVal : Check }).t2, t3 := (let __src := wChk 0 (some wArm); { id := __src.id, site := __src.site, req := __src.req, unit := __src.unit, run := __src.run, tileIndex := __src.tileIndex, jobId := __src.jobId, time := __src.time, desc := wDesc 1, stage := __src.stage, comp := true, blocks := [0, 1], flags := __src.flags, t1 := __src.t1, t2 := __src.t2, t3 := __src.t3, r1 := __src.r1, r2 := __src.r2, r3 := __src.r3, siteDigest := __src.siteDigest, first := __src.first, count := __src.count, siteVal := __src.siteVal, calVal := __src.calVal : Check }).t3, r1 := (let __src := wChk 0 (some wArm); { id := __src.id, site := __src.site, req := __src.req, unit := __src.unit, run := __src.run, tileIndex := __src.tileIndex, jobId := __src.jobId, time := __src.time, desc := wDesc 1, stage := __src.stage, comp := true, blocks := [0, 1], flags := __src.flags, t1 := __src.t1, t2 := __src.t2, t3 := __src.t3, r1 := __src.r1, r2 := __src.r2, r3 := __src.r3, siteDigest := __src.siteDigest, first := __src.first, count := __src.count, siteVal := __src.siteVal, calVal := __src.calVal : Check }).r1, r2 := (let __src := wChk 0 (some wArm); { id := __src.id, site := __src.site, req := __src.req, unit := __src.unit, run := __src.run, tileIndex := __src.tileIndex, jobId := __src.jobId, time := __src.time, desc := wDesc 1, stage := __src.stage, comp := true, blocks := [0, 1], flags := __src.flags, t1 := __src.t1, t2 := __src.t2, t3 := __src.t3, r1 := __src.r1, r2 := __src.r2, r3 := __src.r3, siteDigest := __src.siteDigest, first := __src.first, count := __src.count, siteVal := __src.siteVal, calVal := __src.calVal : Check }).r2, r3 := (let __src := wChk 0 (some wArm); { id := __src.id, site := __src.site, req := __src.req, unit := __src.unit, run := __src.run, tileIndex := __src.tileIndex, jobId := __src.jobId, time := __src.time, desc := wDesc 1, stage := __src.stage, comp := true, blocks := [0, 1], flags := __src.flags, t1 := __src.t1, t2 := __src.t2, t3 := __src.t3, r1 := __src.r1, r2 := __src.r2, r3 := __src.r3, siteDigest := __src.siteDigest, first := __src.first, count := __src.count, siteVal := __src.siteVal, calVal := __src.calVal : Check }).r3, siteDigest := (let __src := wChk 0 (some wArm); { id := __src.id, site := __src.site, req := __src.req, unit := __src.unit, run := __src.run, tileIndex := __src.tileIndex, jobId := __src.jobId, time := __src.time, desc := wDesc 1, stage := __src.stage, comp := true, blocks := [0, 1], flags := __src.flags, t1 := __src.t1, t2 := __src.t2, t3 := __src.t3, r1 := __src.r1, r2 := __src.r2, r3 := __src.r3, siteDigest := __src.siteDigest, first := __src.first, count := __src.count, siteVal := __src.siteVal, calVal := __src.calVal : Check }).siteDigest, first := (let __src := wChk 0 (some wArm); { id := __src.id, site := __src.site, req := __src.req, unit := __src.unit, run := __src.run, tileIndex := __src.tileIndex, jobId := __src.jobId, time := __src.time, desc := wDesc 1, stage := __src.stage, comp := true, blocks := [0, 1], flags := __src.flags, t1 := __src.t1, t2 := __src.t2, t3 := __src.t3, r1 := __src.r1, r2 := __src.r2, r3 := __src.r3, siteDigest := __src.siteDigest, first := __src.first, count := __src.count, siteVal := __src.siteVal, calVal := __src.calVal : Check }).first, count := (let __src := wChk 0 (some wArm); { id := __src.id, site := __src.site, req := __src.req, unit := __src.unit, run := __src.run, tileIndex := __src.tileIndex, jobId := __src.jobId, time := __src.time, desc := wDesc 1, stage := __src.stage, comp := true, blocks := [0, 1], flags := __src.flags, t1 := __src.t1, t2 := __src.t2, t3 := __src.t3, r1 := __src.r1, r2 := __src.r2, r3 := __src.r3, siteDigest := __src.siteDigest, first := __src.first, count := __src.count, siteVal := __src.siteVal, calVal := __src.calVal : Check }).count, siteVal := (let __src := wChk 0 (some wArm); { id := __src.id, site := __src.site, req := __src.req, unit := __src.unit, run := __src.run, tileIndex := __src.tileIndex, jobId := __src.jobId, time := __src.time, desc := wDesc 1, stage := __src.stage, comp := true, blocks := [0, 1], flags := __src.flags, t1 := __src.t1, t2 := __src.t2, t3 := __src.t3, r1 := __src.r1, r2 := __src.r2, r3 := __src.r3, siteDigest := __src.siteDigest, first := __src.first, count := __src.count, siteVal := __src.siteVal, calVal := __src.calVal : Check }).siteVal, calVal := (let __src := wChk 0 (some wArm); { id := __src.id, site := __src.site, req := __src.req, unit := __src.unit, run := __src.run, tileIndex := __src.tileIndex, jobId := __src.jobId, time := __src.time, desc := wDesc 1, stage := __src.stage, comp := true, blocks := [0, 1], flags := __src.flags, t1 := __src.t1, t2 := __src.t2, t3 := __src.t3, r1 := __src.r1, r2 := __src.r2, r3 := __src.r3, siteDigest := __src.siteDigest, first := __src.first, count := __src.count, siteVal := __src.siteVal, calVal := __src.calVal : Check }).calVal : Check }) := by decide +kernel
theorem witness_CaliperTakesEffect_3_0 :
    (wJ2.pwr.core = true) ∧ (wJ2.tileRuns 3 4 = none) := by decide +kernel
theorem witness_CaliperTakesEffect_3_1 :
    (wJ2.pwr.core = true) ∧ (wJ2.tileRuns 3 4 = none) := by decide +kernel
theorem witness_CaliperTakesEffect_4_0 :
    (wJ5.pwr.core = true) ∧ (wJ5.checkOf 4 = some (wChk 0 none)) ∧ (wJ5.tileRuns 3 4 = some { tile := 3, rank := 2, id := 4, part := 1, bytes := 0 : CalJob }) ∧ ({ tile := 3, rank := 2, id := 4, part := 1, bytes := 0 : CalJob }.tries = 0) := by decide +kernel
theorem witness_CaliperTakesEffect_4_1 :
    (wJ7.pwr.core = true) ∧ (wJ7.checkOf 4 = some (wChk 0 none)) ∧ (wJ7.tileRuns 3 4 = some { tile := 3, rank := 2, id := 4, part := 1, bytes := 0, tries := 1 : CalJob }) ∧ ({ tile := 3, rank := 2, id := 4, part := 1, bytes := 0, tries := 1 : CalJob }.tries ≠ 0) := by decide +kernel
theorem witness_CaliperTakesEffect_5 :
    (wJ19.pwr.core = true) ∧ (wJ19.tileRuns 3 4 = none) := by decide +kernel
theorem witness_CaliperTakesEffect_6_0 :
    (wJ20.pwr.core = true) ∧ (wJ20.checkOf 4 = some (wChk 0 none)) ∧ ((wChk 0 none).req = none) ∧ (wJ20.pastRetain (wChk 0 none) = true ∨ (wJ20.cal.busy.any fun j => j.rank != 4 && j.id == 4) = true) := by decide +kernel
theorem witness_CaliperTakesEffect_6_0_b :
    (wJ7.pwr.core = true) ∧ (wJ7.checkOf 4 = some (wChk 0 none)) ∧ ((wChk 0 none).req = none) ∧ (wJ7.pastRetain (wChk 0 none) = true ∨ (wJ7.cal.busy.any fun j => j.rank != 4 && j.id == 4) = true) := by decide +kernel
theorem witness_CaliperTakesEffect_6_0_c :
    (wJ22.pwr.core = true) ∧ (wJ22.checkOf 4 = some (wChk 1 none)) ∧ ((wChk 1 none).req = none) ∧ (wJ22.pastRetain (wChk 1 none) = true ∨ (wJ22.cal.busy.any fun j => j.rank != 4 && j.id == 4) = true) := by decide +kernel
theorem witness_CaliperTakesEffect_6_1 :
    (wJ23.pwr.core = true) ∧ (wJ23.checkOf 4 = some (wChk 1 none)) ∧ ((wChk 1 none).req.isSome = true ∨ wJ23.pastRetain (wChk 1 none) = false ∧ (wJ23.cal.busy.any fun j => j.rank != 4 && j.id == 4) = false) := by decide +kernel
theorem witness_CaliperTakesEffect_7 :
    (wJ24.pwr.core = true) := by decide +kernel
theorem witness_CaliperTakesEffect_8_0 :
    (wJ2.pwr.core = true) ∧ (wJ2.may wArm.principal Right.audit = true) ∧ (wJ2.calEntryBad bJ1 true = none) := by decide +kernel
theorem witness_CaliperTakesEffect_8_0_b :
    (wJ2.pwr.core = true) ∧ (wJ2.may wArm.principal Right.audit = true) ∧ (wJ2.calEntryBad bJ2 true = none) := by decide +kernel
theorem witness_CaliperTakesEffect_8_0_c :
    (wJ2.pwr.core = true) ∧ (wJ2.may wArm.principal Right.audit = true) ∧ (wJ2.calEntryBad bI16 true = none) := by decide +kernel
theorem witness_CaliperTakesEffect_8_1 :
    (wJ2.pwr.core = true) ∧ (wJ2.may wArm.principal Right.audit = true) ∧ (wJ2.calEntryBad bJ4 false = none) := by decide +kernel
theorem witness_CaliperTakesEffect_9 :
    (wJ2.pwr.core = true) ∧ (wJ2.may wArm.principal Right.audit = true) ∧ (7 < 8) := by decide +kernel
theorem witness_CaliperTakesEffect_9_b :
    (wJ2.pwr.core = true) ∧ (wJ2.may wArm.principal Right.audit = true) ∧ (7 < 8) := by decide +kernel
theorem witness_CaliperTakesEffect_10 :
    (wJ2.pwr.core = true) ∧ (wJ2.may wArm.principal Right.audit = true) := by decide +kernel
theorem witness_CaliperTakesEffect_11 :
    (wJ32.pwr.core = true) ∧ (wJ32.may wArm.principal Right.counterClear = true) ∧ (7 < 8) := by decide +kernel
theorem witness_CaliperTakesEffect_12 :
    (wJ33.pwr.core = true) ∧ (wJ33.may 0 Right.read = true) := by decide +kernel
theorem witness_CaliperTakesEffect_13 :
    (wJ34.pwr.core = true) ∧ ((wJ34.cal.ring.any fun x => x.fst == Tbl.get 0 wJ34.cal.disCur (Path.debug).idx) = true) := by decide +kernel
theorem witness_GaugeTakesEffect_0 :
    (wJ35.pwr.core = true) ∧ (wJ35.may wArm.principal Right.audit = true) ∧ (wJ35.gaugeEntryBad wArm bJ5 true false = none) ∧ (gaugeUsed (wJ35.gaugeDef (u8 bJ5 28)) = true) ∧ (wJ35.hasDram = true) ∧ (u32 bJ5 24 ≤ ggLimit.nat (wJ35.gaugeDef (u8 bJ5 28))) := by decide +kernel
theorem witness_GaugeTakesEffect_1_0 :
    (wJ36.pwr.core = true) ∧ (wJ36.may wArm.principal Right.audit = true) ∧ (gaugeUsed (wJ36.gaugeDef (u8 bJ6 28)) = true) ∧ ((wJ36.slot (u8 bJ6 28)).loaded = true) ∧ (wJ36.gaugeEntryBad wArm bJ6 false true = none) := by decide +kernel
theorem witness_GaugeTakesEffect_1_1 :
    (wJ36.pwr.core = true) ∧ (wJ36.may wArm.principal Right.audit = true) ∧ (gaugeUsed (wJ36.gaugeDef (u8 bJ7 28)) = true) ∧ ((wJ36.slot (u8 bJ7 28)).loaded = true) ∧ (wJ36.gaugeEntryBad wArm bJ7 false false = none) := by decide +kernel
theorem witness_GaugeTakesEffect_2 :
    (wJ35.pwr.core = true) ∧ (wJ35.may wArm.principal Right.audit = true) ∧ (gaugeUsed (wJ35.gaugeDef (u8 bJ6 28)) = true) ∧ ((wJ35.slot (u8 bJ6 28)).loaded = false) ∧ (wJ35.gaugeEntryBad wArm bJ6 false true = none) := by decide +kernel
theorem witness_GaugeTakesEffect_3_0 :
    (wJ36.pwr.core = true) ∧ ((wJ36.slot 7).loaded = true) ∧ (wJ36.calStopped = false) ∧ ((wJ36.slot 7).jobs = []) := by decide +kernel
theorem witness_GaugeTakesEffect_3_1 :
    (wJ40.pwr.core = true) ∧ ((wJ40.slot 7).loaded = true) ∧ (wJ40.calStopped = true ∨ (wJ40.slot 7).jobs ≠ []) := by decide +kernel
theorem witness_GaugeTakesEffect_4 :
    (wJ35.pwr.core = true) ∧ ((wJ35.slot 7).loaded = false) := by decide +kernel
theorem witness_GaugeTakesEffect_5 :
    (wJ42.pwr.core = true) ∧ ((wJ42.slot 7).jobs = [([1], none)]) ∧ (wJ42.calStopped = false) ∧ ((wJ42.cal.busy.any fun j => j.rank == 4 && j.id == 7) = true) := by decide +kernel
theorem witness_GaugeTakesEffect_6 :
    (wJ40.pwr.core = true) ∧ ((wJ40.cal.busy.any fun j => j.rank == 4 && j.id == 7) = false) := by decide +kernel
theorem witness_JournalRecordsTakeEffect_0_0 :
    (wJ44.pwr.core = true) ∧ (wJ44.pwr.fabric = true) ∧ (wJ44.ebx.up.getLsbD 0 = true) ∧ (List.length bJ9 = 48) ∧ (u8 bJ9 0 = 7) ∧ (u8 bJ9 1 = 7) ∧ (7 < 8) ∧ (wJ44.jrnDrops = true) := by decide +kernel
theorem witness_JournalRecordsTakeEffect_0_1 :
    (wJ45.pwr.core = true) ∧ (wJ45.pwr.fabric = true) ∧ (wJ45.ebx.up.getLsbD 0 = true) ∧ (List.length bJ10 = 48) ∧ (u8 bJ10 0 = 7) ∧ (u8 bJ10 1 = 7) ∧ (7 < 8) ∧ (wJ45.jrnDrops = false) ∧ (u32 bJ10 4 ≤ 16777215) ∧ (u8 bJ10 2 = 0) ∧ (u8 bJ10 3 = 0) ∧ (u32 bJ10 28 = 0) ∧ (u64 bJ10 8 ≠ 0) ∧ (wJ45.seqOf (u64 bJ10 8) = some wSeq) ∧ (wSeq.run = u64 bJ10 16) ∧ (wSeq.open_ = true) ∧ ((wJ45.jrnRun wSeq.run).manifest = none) ∧ (wSeq.blocks ≤ u32 bJ10 4 / 1024) ∧ (u32 bJ10 4 ≠ 0) ∧ (wSeq.last = none) ∧ (∀ (x : Token), x ∈ wSeq.recs → x.idx ≠ u32 bJ10 4) ∧ ({ id := wSeq.id, slot := wSeq.slot, site := wSeq.site, run := wSeq.run, open_ := wSeq.open_, blocks := wSeq.blocks, recs := { idx := u32 bJ10 4, id := u32 bJ10 24, seed := u64 bJ10 32, time := u64 bJ10 40, site := 7 : Token } :: wSeq.recs, last := wSeq.last, final := wSeq.final, holes := wSeq.holes, timeout := wSeq.timeout, conflict := wSeq.conflict, noInput := wSeq.noInput, tokens := wSeq.tokens, input := wSeq.input, d := wSeq.d, c := wSeq.c, started := wSeq.started : JSeq }.mustFold = false) ∧ (List.map JSeq.slot wJ45.jrn.seqs).Nodup := by decide +kernel
theorem witness_JournalRecordsTakeEffect_0_1_b :
    (wJ46.pwr.core = true) ∧ (wJ46.pwr.fabric = true) ∧ (wJ46.ebx.up.getLsbD 0 = true) ∧ (List.length bJ11 = 48) ∧ (u8 bJ11 0 = 7) ∧ (u8 bJ11 1 = 7) ∧ (7 < 8) ∧ (wJ46.jrnDrops = false) ∧ (u32 bJ11 4 ≤ 16777215) ∧ (u8 bJ11 2 = 0) ∧ (u8 bJ11 3 = 0) ∧ (u32 bJ11 28 = 0) ∧ (u64 bJ11 8 ≠ 0) ∧ (wJ46.seqOf (u64 bJ11 8) = some (let __src := wSeq; { id := __src.id, slot := __src.slot, site := __src.site, run := __src.run, open_ := __src.open_, blocks := 1, recs := __src.recs, last := __src.last, final := __src.final, holes := __src.holes, timeout := __src.timeout, conflict := __src.conflict, noInput := __src.noInput, tokens := __src.tokens, input := __src.input, d := __src.d, c := __src.c, started := __src.started : JSeq })) ∧ ((let __src := wSeq; { id := __src.id, slot := __src.slot, site := __src.site, run := __src.run, open_ := __src.open_, blocks := 1, recs := __src.recs, last := __src.last, final := __src.final, holes := __src.holes, timeout := __src.timeout, conflict := __src.conflict, noInput := __src.noInput, tokens := __src.tokens, input := __src.input, d := __src.d, c := __src.c, started := __src.started : JSeq }).run = u64 bJ11 16) ∧ ((let __src := wSeq; { id := __src.id, slot := __src.slot, site := __src.site, run := __src.run, open_ := __src.open_, blocks := 1, recs := __src.recs, last := __src.last, final := __src.final, holes := __src.holes, timeout := __src.timeout, conflict := __src.conflict, noInput := __src.noInput, tokens := __src.tokens, input := __src.input, d := __src.d, c := __src.c, started := __src.started : JSeq }).open_ = true) ∧ ((wJ46.jrnRun (let __src := wSeq; { id := __src.id, slot := __src.slot, site := __src.site, run := __src.run, open_ := __src.open_, blocks := 1, recs := __src.recs, last := __src.last, final := __src.final, holes := __src.holes, timeout := __src.timeout, conflict := __src.conflict, noInput := __src.noInput, tokens := __src.tokens, input := __src.input, d := __src.d, c := __src.c, started := __src.started : JSeq }).run).manifest = none) ∧ ((let __src := wSeq; { id := __src.id, slot := __src.slot, site := __src.site, run := __src.run, open_ := __src.open_, blocks := 1, recs := __src.recs, last := __src.last, final := __src.final, holes := __src.holes, timeout := __src.timeout, conflict := __src.conflict, noInput := __src.noInput, tokens := __src.tokens, input := __src.input, d := __src.d, c := __src.c, started := __src.started : JSeq }).blocks ≤ u32 bJ11 4 / 1024) ∧ (u32 bJ11 4 ≠ 0) ∧ ((let __src := wSeq; { id := __src.id, slot := __src.slot, site := __src.site, run := __src.run, open_ := __src.open_, blocks := 1, recs := __src.recs, last := __src.last, final := __src.final, holes := __src.holes, timeout := __src.timeout, conflict := __src.conflict, noInput := __src.noInput, tokens := __src.tokens, input := __src.input, d := __src.d, c := __src.c, started := __src.started : JSeq }).last = none) ∧ (∀ (x : Token), x ∈ (let __src := wSeq; { id := __src.id, slot := __src.slot, site := __src.site, run := __src.run, open_ := __src.open_, blocks := 1, recs := __src.recs, last := __src.last, final := __src.final, holes := __src.holes, timeout := __src.timeout, conflict := __src.conflict, noInput := __src.noInput, tokens := __src.tokens, input := __src.input, d := __src.d, c := __src.c, started := __src.started : JSeq }).recs → x.idx ≠ u32 bJ11 4) ∧ ({ id := (let __src := wSeq; { id := __src.id, slot := __src.slot, site := __src.site, run := __src.run, open_ := __src.open_, blocks := 1, recs := __src.recs, last := __src.last, final := __src.final, holes := __src.holes, timeout := __src.timeout, conflict := __src.conflict, noInput := __src.noInput, tokens := __src.tokens, input := __src.input, d := __src.d, c := __src.c, started := __src.started : JSeq }).id, slot := (let __src := wSeq; { id := __src.id, slot := __src.slot, site := __src.site, run := __src.run, open_ := __src.open_, blocks := 1, recs := __src.recs, last := __src.last, final := __src.final, holes := __src.holes, timeout := __src.timeout, conflict := __src.conflict, noInput := __src.noInput, tokens := __src.tokens, input := __src.input, d := __src.d, c := __src.c, started := __src.started : JSeq }).slot, site := (let __src := wSeq; { id := __src.id, slot := __src.slot, site := __src.site, run := __src.run, open_ := __src.open_, blocks := 1, recs := __src.recs, last := __src.last, final := __src.final, holes := __src.holes, timeout := __src.timeout, conflict := __src.conflict, noInput := __src.noInput, tokens := __src.tokens, input := __src.input, d := __src.d, c := __src.c, started := __src.started : JSeq }).site, run := (let __src := wSeq; { id := __src.id, slot := __src.slot, site := __src.site, run := __src.run, open_ := __src.open_, blocks := 1, recs := __src.recs, last := __src.last, final := __src.final, holes := __src.holes, timeout := __src.timeout, conflict := __src.conflict, noInput := __src.noInput, tokens := __src.tokens, input := __src.input, d := __src.d, c := __src.c, started := __src.started : JSeq }).run, open_ := (let __src := wSeq; { id := __src.id, slot := __src.slot, site := __src.site, run := __src.run, open_ := __src.open_, blocks := 1, recs := __src.recs, last := __src.last, final := __src.final, holes := __src.holes, timeout := __src.timeout, conflict := __src.conflict, noInput := __src.noInput, tokens := __src.tokens, input := __src.input, d := __src.d, c := __src.c, started := __src.started : JSeq }).open_, blocks := (let __src := wSeq; { id := __src.id, slot := __src.slot, site := __src.site, run := __src.run, open_ := __src.open_, blocks := 1, recs := __src.recs, last := __src.last, final := __src.final, holes := __src.holes, timeout := __src.timeout, conflict := __src.conflict, noInput := __src.noInput, tokens := __src.tokens, input := __src.input, d := __src.d, c := __src.c, started := __src.started : JSeq }).blocks, recs := { idx := u32 bJ11 4, id := u32 bJ11 24, seed := u64 bJ11 32, time := u64 bJ11 40, site := 7 : Token } :: (let __src := wSeq; { id := __src.id, slot := __src.slot, site := __src.site, run := __src.run, open_ := __src.open_, blocks := 1, recs := __src.recs, last := __src.last, final := __src.final, holes := __src.holes, timeout := __src.timeout, conflict := __src.conflict, noInput := __src.noInput, tokens := __src.tokens, input := __src.input, d := __src.d, c := __src.c, started := __src.started : JSeq }).recs, last := (let __src := wSeq; { id := __src.id, slot := __src.slot, site := __src.site, run := __src.run, open_ := __src.open_, blocks := 1, recs := __src.recs, last := __src.last, final := __src.final, holes := __src.holes, timeout := __src.timeout, conflict := __src.conflict, noInput := __src.noInput, tokens := __src.tokens, input := __src.input, d := __src.d, c := __src.c, started := __src.started : JSeq }).last, final := (let __src := wSeq; { id := __src.id, slot := __src.slot, site := __src.site, run := __src.run, open_ := __src.open_, blocks := 1, recs := __src.recs, last := __src.last, final := __src.final, holes := __src.holes, timeout := __src.timeout, conflict := __src.conflict, noInput := __src.noInput, tokens := __src.tokens, input := __src.input, d := __src.d, c := __src.c, started := __src.started : JSeq }).final, holes := (let __src := wSeq; { id := __src.id, slot := __src.slot, site := __src.site, run := __src.run, open_ := __src.open_, blocks := 1, recs := __src.recs, last := __src.last, final := __src.final, holes := __src.holes, timeout := __src.timeout, conflict := __src.conflict, noInput := __src.noInput, tokens := __src.tokens, input := __src.input, d := __src.d, c := __src.c, started := __src.started : JSeq }).holes, timeout := (let __src := wSeq; { id := __src.id, slot := __src.slot, site := __src.site, run := __src.run, open_ := __src.open_, blocks := 1, recs := __src.recs, last := __src.last, final := __src.final, holes := __src.holes, timeout := __src.timeout, conflict := __src.conflict, noInput := __src.noInput, tokens := __src.tokens, input := __src.input, d := __src.d, c := __src.c, started := __src.started : JSeq }).timeout, conflict := (let __src := wSeq; { id := __src.id, slot := __src.slot, site := __src.site, run := __src.run, open_ := __src.open_, blocks := 1, recs := __src.recs, last := __src.last, final := __src.final, holes := __src.holes, timeout := __src.timeout, conflict := __src.conflict, noInput := __src.noInput, tokens := __src.tokens, input := __src.input, d := __src.d, c := __src.c, started := __src.started : JSeq }).conflict, noInput := (let __src := wSeq; { id := __src.id, slot := __src.slot, site := __src.site, run := __src.run, open_ := __src.open_, blocks := 1, recs := __src.recs, last := __src.last, final := __src.final, holes := __src.holes, timeout := __src.timeout, conflict := __src.conflict, noInput := __src.noInput, tokens := __src.tokens, input := __src.input, d := __src.d, c := __src.c, started := __src.started : JSeq }).noInput, tokens := (let __src := wSeq; { id := __src.id, slot := __src.slot, site := __src.site, run := __src.run, open_ := __src.open_, blocks := 1, recs := __src.recs, last := __src.last, final := __src.final, holes := __src.holes, timeout := __src.timeout, conflict := __src.conflict, noInput := __src.noInput, tokens := __src.tokens, input := __src.input, d := __src.d, c := __src.c, started := __src.started : JSeq }).tokens, input := (let __src := wSeq; { id := __src.id, slot := __src.slot, site := __src.site, run := __src.run, open_ := __src.open_, blocks := 1, recs := __src.recs, last := __src.last, final := __src.final, holes := __src.holes, timeout := __src.timeout, conflict := __src.conflict, noInput := __src.noInput, tokens := __src.tokens, input := __src.input, d := __src.d, c := __src.c, started := __src.started : JSeq }).input, d := (let __src := wSeq; { id := __src.id, slot := __src.slot, site := __src.site, run := __src.run, open_ := __src.open_, blocks := 1, recs := __src.recs, last := __src.last, final := __src.final, holes := __src.holes, timeout := __src.timeout, conflict := __src.conflict, noInput := __src.noInput, tokens := __src.tokens, input := __src.input, d := __src.d, c := __src.c, started := __src.started : JSeq }).d, c := (let __src := wSeq; { id := __src.id, slot := __src.slot, site := __src.site, run := __src.run, open_ := __src.open_, blocks := 1, recs := __src.recs, last := __src.last, final := __src.final, holes := __src.holes, timeout := __src.timeout, conflict := __src.conflict, noInput := __src.noInput, tokens := __src.tokens, input := __src.input, d := __src.d, c := __src.c, started := __src.started : JSeq }).c, started := (let __src := wSeq; { id := __src.id, slot := __src.slot, site := __src.site, run := __src.run, open_ := __src.open_, blocks := 1, recs := __src.recs, last := __src.last, final := __src.final, holes := __src.holes, timeout := __src.timeout, conflict := __src.conflict, noInput := __src.noInput, tokens := __src.tokens, input := __src.input, d := __src.d, c := __src.c, started := __src.started : JSeq }).started : JSeq }.mustFold = false) ∧ (List.map JSeq.slot wJ46.jrn.seqs).Nodup := by decide +kernel
theorem witness_JournalRecordsTakeEffect_1_0 :
    (wJ45.pwr.core = true) ∧ (wJ45.pwr.fabric = true) ∧ (wJ45.ebx.up.getLsbD 0 = true) ∧ (List.length bJ12 = 96) ∧ (u8 bJ12 0 = 8) ∧ (u8 bJ12 1 = 7) ∧ (7 < 8) ∧ (wJ45.jrnDrops = false) ∧ (bindOk bJ12 = true) ∧ (u8 bJ12 2 = 2) ∧ (u64 bJ12 32 = 0) ∧ (u64 bJ12 16 ≠ 0) ∧ (wJ45.seqOf (u64 bJ12 16) = some wSeq) ∧ (wSeq.run = u64 bJ12 8) ∧ (wSeq.started = false) ∧ (wSeq.open_ = true) := by decide +kernel
theorem witness_JournalRecordsTakeEffect_1_1 :
    (wJ48.pwr.core = true) ∧ (wJ48.pwr.fabric = true) ∧ (wJ48.ebx.up.getLsbD 0 = true) ∧ (List.length bJ13 = 96) ∧ (u8 bJ13 0 = 8) ∧ (u8 bJ13 1 = 7) ∧ (7 < 8) ∧ (wJ48.jrnDrops = false) ∧ (bindOk bJ13 = true) ∧ (u8 bJ13 2 = 1) ∧ (u64 bJ13 16 = 0) ∧ (u64 bJ13 8 ≠ 0) ∧ ((wJ48.jrnRun (u64 bJ13 8)).manifest = none) := by decide +kernel
theorem witness_JournalRecordsTakeEffect_2_0 :
    (wJ49.pwr.core = true) ∧ (wJ49.seqOf 20 = some (let __src := wSeq; { id := __src.id, slot := __src.slot, site := __src.site, run := __src.run, open_ := __src.open_, blocks := __src.blocks, recs := [{ idx := 1025, id := 5, seed := 6, time := 7, site := 7 : Token }], last := __src.last, final := __src.final, holes := __src.holes, timeout := __src.timeout, conflict := __src.conflict, noInput := __src.noInput, tokens := __src.tokens, input := __src.input, d := __src.d, c := __src.c, started := __src.started : JSeq })) ∧ ((let __src := wSeq; { id := __src.id, slot := __src.slot, site := __src.site, run := __src.run, open_ := __src.open_, blocks := __src.blocks, recs := [{ idx := 1025, id := 5, seed := 6, time := 7, site := 7 : Token }], last := __src.last, final := __src.final, holes := __src.holes, timeout := __src.timeout, conflict := __src.conflict, noInput := __src.noInput, tokens := __src.tokens, input := __src.input, d := __src.d, c := __src.c, started := __src.started : JSeq }).open_ = true) ∧ (List.map JSeq.slot wJ49.jrn.seqs).Nodup ∧ (List.map JSeq.id wJ49.jrn.seqs).Nodup ∧ (((List.range 1024).any fun i => decide (1024 * (let __src := wSeq; { id := __src.id, slot := __src.slot, site := __src.site, run := __src.run, open_ := __src.open_, blocks := __src.blocks, recs := [{ idx := 1025, id := 5, seed := 6, time := 7, site := 7 : Token }], last := __src.last, final := __src.final, holes := __src.holes, timeout := __src.timeout, conflict := __src.conflict, noInput := __src.noInput, tokens := __src.tokens, input := __src.input, d := __src.d, c := __src.c, started := __src.started : JSeq }).blocks + i < List.foldl max 0 (List.map Token.idx (let __src := wSeq; { id := __src.id, slot := __src.slot, site := __src.site, run := __src.run, open_ := __src.open_, blocks := __src.blocks, recs := [{ idx := 1025, id := 5, seed := 6, time := 7, site := 7 : Token }], last := __src.last, final := __src.final, holes := __src.holes, timeout := __src.timeout, conflict := __src.conflict, noInput := __src.noInput, tokens := __src.tokens, input := __src.input, d := __src.d, c := __src.c, started := __src.started : JSeq }).recs)) && !(let __src := wSeq; { id := __src.id, slot := __src.slot, site := __src.site, run := __src.run, open_ := __src.open_, blocks := __src.blocks, recs := [{ idx := 1025, id := 5, seed := 6, time := 7, site := 7 : Token }], last := __src.last, final := __src.final, holes := __src.holes, timeout := __src.timeout, conflict := __src.conflict, noInput := __src.noInput, tokens := __src.tokens, input := __src.input, d := __src.d, c := __src.c, started := __src.started : JSeq }).recs.any fun t => t.idx == 1024 * (let __src := wSeq; { id := __src.id, slot := __src.slot, site := __src.site, run := __src.run, open_ := __src.open_, blocks := __src.blocks, recs := [{ idx := 1025, id := 5, seed := 6, time := 7, site := 7 : Token }], last := __src.last, final := __src.final, holes := __src.holes, timeout := __src.timeout, conflict := __src.conflict, noInput := __src.noInput, tokens := __src.tokens, input := __src.input, d := __src.d, c := __src.c, started := __src.started : JSeq }).blocks + i) = true) := by decide +kernel
theorem witness_JournalRecordsTakeEffect_2_1 :
    (wJ45.pwr.core = true) ∧ (wJ45.seqOf 20 = some wSeq) ∧ (wSeq.open_ = true) ∧ (List.map JSeq.slot wJ45.jrn.seqs).Nodup ∧ (List.map JSeq.id wJ45.jrn.seqs).Nodup := by decide +kernel
theorem witness_JournalRecordsTakeEffect_3_0 :
    (wJ51.pwr.core = true) ∧ (List.find? (fun x => x.run == 9) wJ51.jrn.runs = some { run := 9, seed := 0, launch := some [] : JRun }) ∧ ({ run := 9, seed := 0, launch := some [] : JRun }.launch.isSome = true) := by decide +kernel
theorem witness_JournalRecordsTakeEffect_3_1_0 :
    (wJ52.pwr.core = true) ∧ (List.find? (fun x => x.run == 9) wJ52.jrn.runs = some { run := 9, seed := 0, manifest := some [1] : JRun }) ∧ (wJ52.armServes = true) ∧ ({ run := 9, seed := 0, manifest := some [1] : JRun }.manifest = some bB2) ∧ ({ run := 9, seed := 0, manifest := some [1] : JRun }.signed = false) ∧ ({ run := 9, seed := 0, manifest := some [1] : JRun }.unsignable = false) ∧ (wJ52.boot.identReady = true) ∧ (wJ52.signsNext { run := 9, seed := 0, manifest := some [1] : JRun } = true) := by decide +kernel
theorem witness_JournalRecordsTakeEffect_3_1_1 :
    (wJ52.pwr.core = true) ∧ (List.find? (fun x => x.run == 9) wJ52.jrn.runs = some { run := 9, seed := 0, manifest := some [1] : JRun }) ∧ (wJ52.armServes = true) ∧ ({ run := 9, seed := 0, manifest := some [1] : JRun }.manifest = some bB2) ∧ ({ run := 9, seed := 0, manifest := some [1] : JRun }.signed = false) ∧ ({ run := 9, seed := 0, manifest := some [1] : JRun }.unsignable = false) ∧ (wJ52.boot.identReady = true) ∧ (wJ52.signsNext { run := 9, seed := 0, manifest := some [1] : JRun } = true) := by decide +kernel
theorem witness_JournalRecordsTakeEffect_4 :
    (wJ54.pwr.core = true) ∧ (List.find? (fun x => x.fst == 9 && x.snd.fst == 7) wJ54.jrn.spots = some (9, 7, none)) := by decide +kernel
theorem witness_JournalRecordsTakeEffect_4_b :
    (wJ54.pwr.core = true) ∧ (List.find? (fun x => x.fst == 9 && x.snd.fst == 7) wJ54.jrn.spots = some (9, 7, none)) := by decide +kernel
theorem witness_JournalRecordsTakeEffect_5 :
    (wJ56.pwr.standby = true) ∧ (wJ56.snap.flushing = true) := by decide +kernel
theorem witness_JournalCommandsTakeEffect_0_0 :
    (wJ48.pwr.core = true) ∧ (wJ48.may wArm.principal Right.journal = true) ∧ (wJ48.jEntryBad bJ16 false false false = none) := by decide +kernel
theorem witness_JournalCommandsTakeEffect_0_0_b :
    (wJ58.pwr.core = true) ∧ (wJ58.may wArm.principal Right.journal = true) ∧ (wJ58.jEntryBad bJ17 false false false = none) := by decide +kernel
theorem witness_JournalCommandsTakeEffect_0_1 :
    (wJ48.pwr.core = true) ∧ (wJ48.may wArm.principal Right.journal = true) ∧ (wJ48.jEntryBad bJ16 false false false = none) := by decide +kernel
theorem witness_JournalCommandsTakeEffect_0_1_b :
    (wRun.pwr.core = true) ∧ (wRun.may wArm.principal Right.journal = true) ∧ (wRun.jEntryBad bJ16 false false false = none) := by decide +kernel
theorem witness_JournalCommandsTakeEffect_0_1_c :
    (wJ60.pwr.core = true) ∧ (wJ60.may wArm.principal Right.journal = true) ∧ (wJ60.jEntryBad bJ20 false false false = none) := by decide +kernel
theorem witness_JournalCommandsTakeEffect_1 :
    (wJ60.pwr.core = true) ∧ (wJ60.may wArm.principal Right.journal = true) ∧ (wJ60.jEntryBad bJ21 true false false = none) := by decide +kernel
theorem witness_JournalCommandsTakeEffect_1_b :
    (wJ48.pwr.core = true) ∧ (wJ48.may wArm.principal Right.journal = true) ∧ (wJ48.jEntryBad bJ22 true false false = none) := by decide +kernel
theorem witness_JournalCommandsTakeEffect_2 :
    (wJ48.pwr.core = true) ∧ (wJ48.may wArm.principal Right.journal = true) ∧ (wJ48.jEntryBad bJ23 false false true = none) := by decide +kernel
theorem witness_JournalCommandsTakeEffect_2_b :
    (wJ48.pwr.core = true) ∧ (wJ48.may wArm.principal Right.journal = true) ∧ (wJ48.jEntryBad bJ23 false false true = none) := by decide +kernel
theorem witness_JournalCommandsTakeEffect_3 :
    (wJ65.pwr.core = true) ∧ (wJ65.may wArm.principal Right.journal = true) ∧ (wJ65.jrn.hashes[0]? = some (wArm, 2 ^ 52, bJ26)) := by decide +kernel
theorem witness_JournalCommandsTakeEffect_3_b :
    (wJ66.pwr.core = true) ∧ (wJ66.may wArm.principal Right.journal = true) ∧ (wJ66.jrn.hashes[0]? = some (wArm, 1099511627776 + 274877906944, bJ26)) := by decide +kernel
theorem witness_JournalCommandsTakeEffect_4 :
    (wJ67.pwr.core = true) ∧ (wJ67.may wArm.principal Right.journal = true) ∧ (wJ67.jEntryBad bJ29 false true false = none) := by decide +kernel
theorem witness_JournalCommandsTakeEffect_4_b :
    (wJ48.pwr.core = true) ∧ (wJ48.may wArm.principal Right.journal = true) ∧ (wJ48.jEntryBad bJ29 false true false = none) := by decide +kernel
theorem witness_MemoryCommandsTakeEffect_0_0 :
    (wK1.pwr.core = true) ∧ (wK1.may wArm.principal Right.memory = true) ∧ (wK1.brace = false) ∧ (wK1.snap.holdup = false) ∧ ((wK1.ch 0).st = ChSt.inService) := by decide +kernel
theorem witness_MemoryCommandsTakeEffect_0_1 :
    (wK1.pwr.core = true) ∧ (wK1.may wArm.principal Right.memory = true) ∧ (wK1.brace = false) ∧ (wK1.snap.holdup = false) ∧ ((wK1.ch 1).st ≠ ChSt.inService) := by decide +kernel
theorem witness_MemoryCommandsTakeEffect_0_2 :
    (wK3.pwr.core = true) ∧ (wK3.may wArm.principal Right.memory = true) ∧ (wK3.brace = false) ∧ (wK3.snap.holdup = false) ∧ ((wK3.ch 0).st = ChSt.outOfService ∨ (wK3.ch 0).st = ChSt.absent) := by decide +kernel
theorem witness_MemoryCommandsTakeEffect_0_3 :
    (wK3.pwr.core = true) ∧ (wK3.may wArm.principal Right.memory = true) ∧ (wK3.brace = false) ∧ (wK3.snap.holdup = false) ∧ ((wK3.ch 0).st = ChSt.outOfService ∨ (wK3.ch 0).st = ChSt.absent) := by decide +kernel
theorem witness_MemoryCommandsTakeEffect_0_4 :
    (wK1.pwr.core = true) ∧ (wK1.may wArm.principal Right.memory = true) ∧ (wK1.brace = false) ∧ (wK1.snap.holdup = false) ∧ ((wK1.ch 0).st ≠ ChSt.outOfService) ∧ ((wK1.ch 0).st ≠ ChSt.absent) := by decide +kernel
theorem witness_MemoryCommandsTakeEffect_1 :
    (wK6.pwr.core = true) ∧ (wK6.may wArm.principal Right.memory = true) ∧ (wK6.brace = true ∧ 65 = 49 ∨ wK6.brace = false ∧ wK6.snap.holdup = true ∧ 65 = 65) := by decide +kernel
theorem witness_MemoryCommandsTakeEffect_1_b :
    (wK7.pwr.core = true) ∧ (wK7.may wArm.principal Right.memory = true) ∧ (wK7.brace = true ∧ 49 = 49 ∨ wK7.brace = false ∧ wK7.snap.holdup = true ∧ 49 = 65) := by decide +kernel
theorem witness_MemoryCommandsTakeEffect_2 :
    (wK8.pwr.core = true) ∧ ((wK8.ch 0).st = ChSt.filling) := by decide +kernel
theorem witness_MemoryCommandsTakeEffect_3 :
    (wK1.pwr.core = true) ∧ ((wK1.ch 0).st ≠ ChSt.filling) := by decide +kernel
theorem witness_MemoryCommandsTakeEffect_4 :
    (wK1.pwr.core = true) ∧ (wK1.chServes 0 = true) := by decide +kernel
theorem witness_MemoryCommandsTakeEffect_5 :
    (wK11.pwr.core = true) ∧ (wK11.chServes 0 = false) := by decide +kernel
theorem witness_MemoryCommandsTakeEffect_6_0 :
    (wK1.pwr.core = true) ∧ (wK1.snap.holdup = false) ∧ (∀ (k : Nat), k < 4 → (wK1.ch k).st ≠ ChSt.filling) ∧ ((wK1.ch 0).st = ChSt.inService) ∧ ((wK1.ch 0).scrubPos + 16384 < ((wK1.ch 0).cap - 1048576) / 64) := by decide +kernel
theorem witness_MemoryCommandsTakeEffect_6_0_b :
    (wK13.pwr.core = true) ∧ (wK13.snap.holdup = false) ∧ (∀ (k : Nat), k < 4 → (wK13.ch k).st ≠ ChSt.filling) ∧ ((wK13.ch 0).st = ChSt.inService) ∧ ((wK13.ch 0).scrubPos + 16384 < ((wK13.ch 0).cap - 1048576) / 64) := by decide +kernel
theorem witness_MemoryCommandsTakeEffect_6_1 :
    (wK14.pwr.core = true) ∧ (wK14.snap.holdup = false) ∧ (∀ (k : Nat), k < 4 → (wK14.ch k).st ≠ ChSt.filling) ∧ ((wK14.ch 0).st = ChSt.inService) ∧ (((wK14.ch 0).cap - 1048576) / 64 ≤ (wK14.ch 0).scrubPos + 16384) := by decide +kernel
theorem witness_MemoryCommandsTakeEffect_6_2 :
    (wK15.pwr.core = true) ∧ (wK15.snap.holdup = false) ∧ (∀ (k : Nat), k < 4 → (wK15.ch k).st ≠ ChSt.filling) ∧ ((wK15.ch 0).st = ChSt.inService) ∧ ((wK15.ch 0).scrubPos ≤ (81604378624, 8, 0).fst / 64) ∧ ((81604378624, 8, 0).fst / 64 < (wK15.ch 0).scrubPos + 16384) ∧ (wK15.ownerAt 0 (81604378624, 8, 0).fst (81604378624, 8, 0).snd.fst = 8) := by decide +kernel
theorem witness_MemoryCommandsTakeEffect_6_2_b :
    (wK15.pwr.core = true) ∧ (wK15.snap.holdup = false) ∧ (∀ (k : Nat), k < 4 → (wK15.ch k).st ≠ ChSt.filling) ∧ ((wK15.ch 0).st = ChSt.inService) ∧ ((wK15.ch 0).scrubPos ≤ (81605427199, 9, 0).fst / 64) ∧ ((81605427199, 9, 0).fst / 64 < (wK15.ch 0).scrubPos + 16384) ∧ (wK15.ownerAt 0 (81605427199, 9, 0).fst (81605427199, 9, 0).snd.fst = 8) := by decide +kernel
theorem witness_MemoryCommandsTakeEffect_7 :
    (wK6.pwr.core = true) ∧ (wK6.snap.holdup = true ∨ (∃ k, k < 4 ∧ (wK6.ch k).st = ChSt.filling) ∨ (wK6.ch 0).st ≠ ChSt.inService) := by decide +kernel
theorem witness_MemoryErrorsTakeEffect_0 :
    (wK1.pwr.core = true) ∧ (wK1.chServes 0 = true) ∧ (81604378624 < (wK1.ch 0).cap) := by decide +kernel
theorem witness_MemoryErrorsTakeEffect_0_b :
    (wK1.pwr.core = true) ∧ (wK1.chServes 0 = true) ∧ (81604378624 < (wK1.ch 0).cap) := by decide +kernel
theorem witness_MemoryErrorsTakeEffect_0_c :
    (wK20.pwr.core = true) ∧ (wK20.chServes 0 = true) ∧ (81604378624 < (wK20.ch 0).cap) := by decide +kernel
theorem witness_MemoryErrorsTakeEffect_0_d :
    (wK21.pwr.core = true) ∧ (wK21.chServes 0 = true) ∧ (81604378624 < (wK21.ch 0).cap) := by decide +kernel
theorem witness_MemoryErrorsTakeEffect_0_e :
    (wK1.pwr.core = true) ∧ (wK1.chServes 0 = true) ∧ (81604378624 < (wK1.ch 0).cap) := by decide +kernel
theorem witness_MemoryErrorsTakeEffect_1 :
    (wK1.pwr.core = true) ∧ (wK1.chServes 0 = false ∨ (wK1.ch 0).cap ≤ 137438953472) := by decide +kernel
theorem witness_MemoryErrorsTakeEffect_3 :
    (wK24.pwr.core = true) ∧ (0 < 4) ∧ (1 % 2 = 1 ∨ 0 = 0) := by decide +kernel
theorem witness_MemoryErrorsTakeEffect_3_b :
    (wK25.pwr.core = true) ∧ (1 < 4) ∧ (1 % 2 = 1 ∨ 1 = 0) := by decide +kernel
theorem witness_MemoryErrorsTakeEffect_3_c :
    (wK1.pwr.core = true) ∧ (2 < 4) ∧ (1 % 2 = 1 ∨ 2 = 0) := by decide +kernel
theorem witness_MemoryErrorsTakeEffect_3_d :
    (wK27.pwr.core = true) ∧ (3 < 4) ∧ (1 % 2 = 1 ∨ 3 = 0) := by decide +kernel
theorem witness_MemoryErrorsTakeEffect_4 :
    (wK1.pwr.core = true) ∧ (1 % 2 = 1) ∧ (wK1.boot.run.isSome = true) ∧ (wK1.rst.under = none) ∧ ((List.take 2 (List.filter (fun w => decide (wK1.plinth < w + secs 600)) wK1.rst.wdtTimes)).length < 2) := by decide +kernel
theorem witness_MemoryErrorsTakeEffect_5 :
    (wK29.pwr.core = true) ∧ (1 % 2 = 1) ∧ (wK29.boot.run.isSome = false) := by decide +kernel
theorem witness_MemoryErrorsTakeEffect_2 :
    (wK1.pwr.core = true) ∧ (0 % 2 = 0) ∧ (1 ≠ 0) := by decide +kernel
theorem witness_MemoryErrorsTakeEffect_3_e :
    (wK1.pwr.core = true) ∧ (0 < 4) ∧ (0 % 2 = 1 ∨ 0 = 0) := by decide +kernel
theorem witness_QueueRegistersAndEntriesTakeEffect_0 :
    (wL1.pwr.core = true) ∧ ((wL1.queue 5).enabled = true) ∧ (3 < (wL1.queue 5).sqSize) := by decide +kernel
theorem witness_QueueRegistersAndEntriesTakeEffect_0_b :
    (wL2.pwr.core = true) ∧ ((wL2.queue 1).enabled = true) ∧ (4 < (wL2.queue 1).sqSize) := by decide +kernel
theorem witness_QueueRegistersAndEntriesTakeEffect_1 :
    (wL1.pwr.core = true) ∧ ((wL1.queue 5).enabled = true) ∧ ((wL1.queue 5).sqSize ≤ 16) ∧ ((wL1.queue 5).error = false) := by decide +kernel
theorem witness_QueueRegistersAndEntriesTakeEffect_2 :
    (wL1.pwr.core = true) ∧ ((wL1.queue 6).enabled = false) := by decide +kernel
theorem witness_QueueRegistersAndEntriesTakeEffect_5 :
    (wL1.pwr.core = true) ∧ (queueRight 5 = some Right.memory) ∧ (wL1.may wNone.principal Right.memory = false) := by decide +kernel
theorem witness_QueueRegistersAndEntriesTakeEffect_6 :
    (wL10.pwr.core = true) ∧ ((wL10.queue 5).enabled = true) ∧ ((wL10.queue 5).error = false) ∧ ((wL10.queue 5).waiting ≠ 0) ∧ (wL10.engineFree 5 = true) ∧ ((wL10.queue 5).canReserve = true) ∧ ((wL10.nextEntry 5).fst = some bL1) ∧ ((wL10.queue 5).owners.headD (unknownPrincipal, Path.fabric) = (wL10.queue 5).owners.headD (unknownPrincipal, Path.fabric)) := by decide +kernel
theorem witness_QueueRegistersAndEntriesTakeEffect_6_b :
    (wL11.pwr.core = true) ∧ ((wL11.queue 5).enabled = true) ∧ ((wL11.queue 5).error = false) ∧ ((wL11.queue 5).waiting ≠ 0) ∧ (wL11.engineFree 5 = true) ∧ ((wL11.queue 5).canReserve = true) ∧ ((wL11.nextEntry 5).fst = some bL1) ∧ ((wL11.queue 5).owners.headD (unknownPrincipal, Path.fabric) = (wL11.queue 5).owners.headD (unknownPrincipal, Path.fabric)) := by decide +kernel
theorem witness_QueueRegistersAndEntriesTakeEffect_6_c :
    (wL12.pwr.core = true) ∧ ((wL12.queue 5).enabled = true) ∧ ((wL12.queue 5).error = false) ∧ ((wL12.queue 5).waiting ≠ 0) ∧ (wL12.engineFree 5 = true) ∧ ((wL12.queue 5).canReserve = true) ∧ ((wL12.nextEntry 5).fst = some bL3) ∧ ((wL12.queue 5).owners.headD (unknownPrincipal, Path.fabric) = (wL12.queue 5).owners.headD (unknownPrincipal, Path.fabric)) := by decide +kernel
theorem witness_QueueRegistersAndEntriesTakeEffect_7 :
    (wL13.pwr.core = true) ∧ ((wL13.queue 5).enabled = true) ∧ ((wL13.queue 5).error = false) ∧ ((wL13.queue 5).waiting ≠ 0) ∧ (wL13.engineFree 5 = true) ∧ ((wL13.queue 5).canReserve = false) := by decide +kernel
theorem witness_QueueRegistersAndEntriesTakeEffect_8 :
    (wL1.pwr.core = true) ∧ ((wL1.queue 5).enabled = false ∨ (wL1.queue 5).error = true ∨ (wL1.queue 5).waiting = 0 ∨ wL1.engineFree 5 = false) := by decide +kernel
theorem witness_QueueRegistersAndEntriesTakeEffect_8_b :
    (wL15.pwr.core = true) ∧ ((wL15.queue 5).enabled = false ∨ (wL15.queue 5).error = true ∨ (wL15.queue 5).waiting = 0 ∨ wL15.engineFree 5 = false) := by decide +kernel
theorem witness_MoverTakesEffect_0_0 :
    (wL1.pwr.core = true) ∧ (wL1.may wArm.principal Right.memory = true) ∧ (wL1.movBad wArm (patch bL1 0 [1, 0]) = none) := by decide +kernel
theorem witness_MoverTakesEffect_0_1 :
    (wL1.pwr.core = true) ∧ (wL1.may wArm.principal Right.memory = true) ∧ (wL1.movBad wArm (patch bL5 0 [2, 0]) = none) := by decide +kernel
theorem witness_MoverTakesEffect_0_2 :
    (wL1.pwr.core = true) ∧ (wL1.may wArm.principal Right.memory = true) ∧ (wL1.movBad wArm (patch bL6 0 [3, 0]) = none) := by decide +kernel
theorem witness_MoverTakesEffect_0_3 :
    (wL1.pwr.core = true) ∧ (wL1.may wArm.principal Right.memory = true) ∧ (wL1.movBad wArm (patch bL7 0 [1, 0]) = some 16) := by decide +kernel
theorem witness_MoverTakesEffect_0_4 :
    (wL1.pwr.core = true) ∧ (wL1.may wArm.principal Right.memory = true) ∧ (wL1.movBad wArm (patch bL8 0 [2, 0]) = some 16) := by decide +kernel
theorem witness_MoverTakesEffect_0_5 :
    (wL1.pwr.core = true) ∧ (wL1.may wArm.principal Right.memory = true) ∧ (wL1.movBad wArm (patch bL5 0 [3, 0]) = some 16) := by decide +kernel
theorem witness_MoverTakesEffect_1 :
    (wL1.pwr.core = true) ∧ (wL1.may wNone.principal Right.memory = false) := by decide +kernel
theorem witness_MoverTakesEffect_2 :
    (wL23.pwr.core = true) ∧ (wL23.memOk = true) ∧ (wL23.mov.jobs = [{ req := wArm, entry := wMv 2 19, active := true : MovJob }]) ∧ ({ req := wArm, entry := wMv 2 19, active := true : MovJob }.active = true) ∧ ({ req := wArm, entry := wMv 2 19, active := true : MovJob }.done = 0) ∧ (List.length { req := wArm, entry := wMv 2 19, active := true : MovJob }.entry = 64) ∧ (u16 { req := wArm, entry := wMv 2 19, active := true : MovJob }.entry 0 = 2 ∨ u16 { req := wArm, entry := wMv 2 19, active := true : MovJob }.entry 0 = 3) ∧ (0 < u64 { req := wArm, entry := wMv 2 19, active := true : MovJob }.entry 24) ∧ (u64 { req := wArm, entry := wMv 2 19, active := true : MovJob }.entry 24 ≤ 1048576) ∧ (wL23.window (u64 { req := wArm, entry := wMv 2 19, active := true : MovJob }.entry 16) = Window.dram 88046829568) ∧ (wL23.movWindow (u64 { req := wArm, entry := wMv 2 19, active := true : MovJob }.entry 16) (u64 { req := wArm, entry := wMv 2 19, active := true : MovJob }.entry 24) true = none) ∧ (wL23.dstBad (u64 { req := wArm, entry := wMv 2 19, active := true : MovJob }.entry 16) (u64 { req := wArm, entry := wMv 2 19, active := true : MovJob }.entry 24) = false) ∧ ({ req := wArm, entry := wMv 2 19, active := true : MovJob }.req.queue = none) := by decide +kernel
theorem witness_MoverTakesEffect_2_b :
    (wL24.pwr.core = true) ∧ (wL24.memOk = true) ∧ (wL24.mov.jobs = [{ req := wArm, entry := wMv 3 7, active := true : MovJob }]) ∧ ({ req := wArm, entry := wMv 3 7, active := true : MovJob }.active = true) ∧ ({ req := wArm, entry := wMv 3 7, active := true : MovJob }.done = 0) ∧ (List.length { req := wArm, entry := wMv 3 7, active := true : MovJob }.entry = 64) ∧ (u16 { req := wArm, entry := wMv 3 7, active := true : MovJob }.entry 0 = 2 ∨ u16 { req := wArm, entry := wMv 3 7, active := true : MovJob }.entry 0 = 3) ∧ (0 < u64 { req := wArm, entry := wMv 3 7, active := true : MovJob }.entry 24) ∧ (u64 { req := wArm, entry := wMv 3 7, active := true : MovJob }.entry 24 ≤ 1048576) ∧ (wL24.window (u64 { req := wArm, entry := wMv 3 7, active := true : MovJob }.entry 16) = Window.dram 88046829568) ∧ (wL24.movWindow (u64 { req := wArm, entry := wMv 3 7, active := true : MovJob }.entry 16) (u64 { req := wArm, entry := wMv 3 7, active := true : MovJob }.entry 24) true = none) ∧ (wL24.dstBad (u64 { req := wArm, entry := wMv 3 7, active := true : MovJob }.entry 16) (u64 { req := wArm, entry := wMv 3 7, active := true : MovJob }.entry 24) = false) ∧ ({ req := wArm, entry := wMv 3 7, active := true : MovJob }.req.queue = none) := by decide +kernel
theorem witness_MoverTakesEffect_3 :
    (wL1.pwr.core = true) ∧ (List.find? MovJob.active wL1.mov.jobs = none) := by decide +kernel
theorem witness_EbbexRequestsTakeEffect_0_3 :
    (wM1.pwr.core = true) ∧ (wM1.pwr.fabric = true) ∧ (wM1.ebx.up.getLsbD 0 = true) ∧ (pM6.payload = []) ∧ (0 < pM6.length) ∧ (pM6.length ≤ 256) ∧ (wM1.window pM6.addr = Window.reg 4116) ∧ (pM6.length = 4) ∧ (4116 % 4 = 0) := by decide +kernel
theorem witness_EbbexRequestsTakeEffect_0_3_b :
    (wM1.pwr.core = true) ∧ (wM1.pwr.fabric = true) ∧ (wM1.ebx.up.getLsbD 0 = true) ∧ (pM7.payload = []) ∧ (0 < pM7.length) ∧ (pM7.length ≤ 256) ∧ (wM1.window pM7.addr = Window.reg 4116) ∧ (pM7.length = 4) ∧ (4116 % 4 = 0) := by decide +kernel
theorem witness_EbbexRequestsTakeEffect_0_4 :
    (wM1.pwr.core = true) ∧ (wM1.pwr.fabric = true) ∧ (wM1.ebx.up.getLsbD 0 = true) ∧ (pM8.payload = []) ∧ (0 < pM8.length) ∧ (pM8.length ≤ 256) ∧ (wM1.window pM8.addr = Window.reg 4118) ∧ (pM8.length ≠ 4 ∨ 4118 % 4 ≠ 0) := by decide +kernel
theorem witness_EbbexRequestsTakeEffect_0_5 :
    (wM1.pwr.core = true) ∧ (wM1.pwr.fabric = true) ∧ (wM1.ebx.up.getLsbD 0 = true) ∧ (pM9.payload = []) ∧ (0 < pM9.length) ∧ (pM9.length ≤ 256) ∧ (wM1.window pM9.addr = Window.sink) := by decide +kernel
theorem witness_EbbexRequestsTakeEffect_0_6 :
    (wM1.pwr.core = true) ∧ (wM1.pwr.fabric = true) ∧ (wM1.ebx.up.getLsbD 0 = true) ∧ (pM10.payload = []) ∧ (0 < pM10.length) ∧ (pM10.length ≤ 256) ∧ (wM1.window pM10.addr = Window.nowhere) := by decide +kernel
theorem witness_EbbexRequestsTakeEffect_1 :
    (wM1.pwr.core = true) ∧ (wM1.pwr.fabric = true) ∧ (wM1.ebx.up.getLsbD 0 = true) ∧ (pM11.payload ≠ [] ∨ pM11.length = 0 ∨ 256 < pM11.length) := by decide +kernel
theorem witness_EbbexRequestsTakeEffect_2_2 :
    (wM1.pwr.core = true) ∧ (wM1.pwr.fabric = true) ∧ (wM1.ebx.up.getLsbD 0 = true) ∧ (pM15.payload ≠ []) ∧ (List.length pM15.payload ≤ 256) ∧ (wM1.window pM15.addr = Window.flash 0 0) := by decide +kernel
theorem witness_EbbexRequestsTakeEffect_3 :
    (wM1.pwr.core = true) ∧ (wM1.pwr.fabric = true) ∧ (wM1.ebx.up.getLsbD 0 = true) ∧ (pM17.payload = [] ∨ 256 < List.length pM17.payload) := by decide +kernel
theorem witness_EbbexResponsesAndMessagesTakeEffect_0 :
    (wM1.pwr.core = true) ∧ (wM1.pwr.fabric = true) ∧ (wM1.ebx.up.getLsbD 0 = true) ∧ (List.length pM18.payload ≠ pM18.length) := by decide +kernel
theorem witness_EbbexResponsesAndMessagesTakeEffect_1 :
    (wM1.pwr.core = true) ∧ (wM1.pwr.fabric = true) ∧ (wM1.ebx.up.getLsbD 0 = true) ∧ (List.length pM19.payload = pM19.length) ∧ (wM1.reqOf pM19.tag false = none) := by decide +kernel
theorem witness_EbbexResponsesAndMessagesTakeEffect_2_0 :
    (wM20.pwr.core = true) ∧ (wM20.pwr.fabric = true) ∧ (wM20.ebx.up.getLsbD 0 = true) ∧ (List.length pM19.payload = pM19.length) ∧ (wM20.reqOf pM19.tag false = some (wRq none false)) ∧ ((wRq none false).q = none) := by decide +kernel
theorem witness_EbbexResponsesAndMessagesTakeEffect_2_1 :
    (wM21.pwr.core = true) ∧ (wM21.pwr.fabric = true) ∧ (wM21.ebx.up.getLsbD 0 = true) ∧ (List.length pM19.payload = pM19.length) ∧ (wM21.reqOf pM19.tag false = some (wRq (some 5) false)) ∧ ((wRq (some 5) false).q = some 5) := by decide +kernel
theorem witness_EbbexResponsesAndMessagesTakeEffect_3 :
    (wM1.pwr.core = true) ∧ (wM1.pwr.fabric = true) ∧ (wM1.ebx.up.getLsbD 0 = true) ∧ (pM18.payload ≠ []) := by decide +kernel
theorem witness_EbbexResponsesAndMessagesTakeEffect_4 :
    (wM23.pwr.core = true) ∧ (wM23.pwr.fabric = true) ∧ (wM23.ebx.up.getLsbD 0 = true) ∧ (pM23.payload = []) ∧ (wM23.reqOf pM23.tag true = some (wRq none true)) := by decide +kernel
theorem witness_EbbexResponsesAndMessagesTakeEffect_5 :
    (wM20.pwr.core = true) ∧ (wM20.pwr.fabric = true) ∧ (wM20.ebx.up.getLsbD 0 = true) ∧ (pM23.payload = []) ∧ (wM20.reqOf pM23.tag true = none) := by decide +kernel
theorem witness_EbbexResponsesAndMessagesTakeEffect_6_0 :
    (wM21.pwr.core = true) ∧ (wM21.pwr.fabric = true) ∧ (wM21.ebx.up.getLsbD 0 = true) ∧ (pM23.payload = []) ∧ (List.find? (fun e => e.tag == pM23.tag) wM21.ebx.reqs = some (wRq (some 5) false)) ∧ ((wRq (some 5) false).q = some 5) := by decide +kernel
theorem witness_EbbexResponsesAndMessagesTakeEffect_6_1 :
    (wM26.pwr.core = true) ∧ (wM26.pwr.fabric = true) ∧ (wM26.ebx.up.getLsbD 0 = true) ∧ (pM23.payload = []) ∧ (List.find? (fun e => e.tag == pM23.tag) wM26.ebx.reqs = some (wRq none true)) ∧ ((wRq none true).q = none) ∧ ((wRq none true).write = true) ∧ (wM26.mov.jobs = [{ req := wArm, entry := wMvR : MovJob }]) ∧ (u64 { req := wArm, entry := wMvR : MovJob }.entry 16 ≤ (wRq none true).addr) ∧ ((wRq none true).addr < u64 { req := wArm, entry := wMvR : MovJob }.entry 16 + u64 { req := wArm, entry := wMvR : MovJob }.entry 24) := by decide +kernel
theorem witness_EbbexResponsesAndMessagesTakeEffect_6_2 :
    (wM20.pwr.core = true) ∧ (wM20.pwr.fabric = true) ∧ (wM20.ebx.up.getLsbD 0 = true) ∧ (pM23.payload = []) ∧ (List.find? (fun e => e.tag == pM23.tag) wM20.ebx.reqs = some (wRq none false)) ∧ ((wRq none false).q = none) ∧ ((wRq none false).write = false) := by decide +kernel
theorem witness_EbbexResponsesAndMessagesTakeEffect_7 :
    (wM1.pwr.core = true) ∧ (wM1.pwr.fabric = true) ∧ (wM1.ebx.up.getLsbD 0 = true) ∧ (List.length pM28.payload < 32 ∨ 192 < List.length pM28.payload) := by decide +kernel
theorem witness_EbbexResponsesAndMessagesTakeEffect_8 :
    (wM1.pwr.core = true) ∧ (wM1.pwr.fabric = true) ∧ (wM1.ebx.up.getLsbD 0 = true) ∧ (32 ≤ List.length pM29.payload) ∧ (List.length pM29.payload ≤ 192) ∧ (wM1.msgOk pM29.srcEp pM29.payload = false) := by decide +kernel
theorem witness_EbbexResponsesAndMessagesTakeEffect_9 :
    (wM30.pwr.core = true) ∧ (wM30.pwr.fabric = true) ∧ (wM30.ebx.up.getLsbD 0 = true) ∧ (wM30.msgOk pM30.srcEp pM30.payload = true) := by decide +kernel
theorem witness_EbbexResponsesAndMessagesTakeEffect_10 :
    (wM1.pwr.core = true) ∧ (wM1.pwr.fabric = true) ∧ (wM1.ebx.up.getLsbD 0 = true) ∧ (List.length pM31.payload = 16) := by decide +kernel
theorem witness_EbbexResponsesAndMessagesTakeEffect_11 :
    (wM1.pwr.core = true) ∧ (wM1.pwr.fabric = true) ∧ (wM1.ebx.up.getLsbD 0 = true) ∧ (List.length pM23.payload ≠ 16) := by decide +kernel
theorem witness_EbbexResponsesAndMessagesTakeEffect_12 :
    (wM1.pwr.core = true) ∧ (wM1.pwr.fabric = true) ∧ (wM1.ebx.up.getLsbD 0 = true) := by decide +kernel
theorem witness_EbbexResponsesAndMessagesTakeEffect_13 :
    (wM1.pwr.core = true) ∧ (wM1.pwr.fabric = true) ∧ (wM1.ebx.up.getLsbD 0 = true) := by decide +kernel
theorem witness_EbbexPortsTakeEffect_0_0 :
    (wM35.pwr.core = true) ∧ (wM35.pwr.fabric = true) ∧ (0 < 2) ∧ (wM35.ebx.trained.getLsbD 0 = true) ∧ (wM35.pwr.absent.getLsbD (1 + 0) = false) ∧ (wM35.ebx.up.getLsbD (1 - 0) = false ∨ Tbl.get 0 wM35.ebx.portEp (1 - 0) = 4097 % 4096) := by decide +kernel
theorem witness_EbbexPortsTakeEffect_0_0_b :
    (wM36.pwr.core = true) ∧ (wM36.pwr.fabric = true) ∧ (1 < 2) ∧ (wM36.ebx.trained.getLsbD 1 = true) ∧ (wM36.pwr.absent.getLsbD (1 + 1) = false) ∧ (wM36.ebx.up.getLsbD (1 - 1) = false ∨ Tbl.get 0 wM36.ebx.portEp (1 - 1) = 7 % 4096) := by decide +kernel
theorem witness_EbbexPortsTakeEffect_0_1 :
    (wM37.pwr.core = true) ∧ (wM37.pwr.fabric = true) ∧ (1 < 2) ∧ (wM37.ebx.trained.getLsbD 1 = true) ∧ (wM37.pwr.absent.getLsbD (1 + 1) = false) ∧ (wM37.ebx.up.getLsbD (1 - 1) = true) ∧ (Tbl.get 0 wM37.ebx.portEp (1 - 1) ≠ 9 % 4096) := by decide +kernel
theorem witness_EbbexPortsTakeEffect_1 :
    (wM1.pwr.core = true) ∧ (wM1.pwr.fabric = false ∨ wM1.ebx.trained.getLsbD 0 = false ∨ wM1.pwr.absent.getLsbD (1 + 0) = true) := by decide +kernel
theorem witness_EbbexPortsTakeEffect_2 :
    (wM39.pwr.core = true) ∧ (0 < 2) := by decide +kernel
theorem witness_EbbexPortsTakeEffect_3 :
    (wM1.pwr.core = true) ∧ (wM1.ebx.up.getLsbD 1 = false) := by decide +kernel
theorem witness_EbbexPortsTakeEffect_4 :
    (wM41.pwr.core = true) ∧ (List.find? (fun e => e.tag == 3 && !wM41.ebx.up.getLsbD e.port) wM41.ebx.reqs = some (wRq none true)) ∧ ((wRq none true).reissued = false) ∧ (wM41.ebx.up.getLsbD (1 - (wRq none true).port) = true) := by decide +kernel
theorem witness_EbbexPortsTakeEffect_5 :
    (wM42.pwr.core = true) ∧ (List.find? (fun e => e.tag == 3 && !wM42.ebx.up.getLsbD e.port) wM42.ebx.reqs = some (let __src := wRq (some 5) false; { tag := __src.tag, port := __src.port, write := __src.write, addr := __src.addr, length := __src.length, data := __src.data, reissued := true, q := __src.q : EbxReq })) ∧ ((let __src := wRq (some 5) false; { tag := __src.tag, port := __src.port, write := __src.write, addr := __src.addr, length := __src.length, data := __src.data, reissued := true, q := __src.q : EbxReq }).reissued = true ∨ wM42.ebx.up.getLsbD (1 - (let __src := wRq (some 5) false; { tag := __src.tag, port := __src.port, write := __src.write, addr := __src.addr, length := __src.length, data := __src.data, reissued := true, q := __src.q : EbxReq }).port) = false) ∧ ((let __src := wRq (some 5) false; { tag := __src.tag, port := __src.port, write := __src.write, addr := __src.addr, length := __src.length, data := __src.data, reissued := true, q := __src.q : EbxReq }).q = some 5) := by decide +kernel
theorem witness_EbbexPortsTakeEffect_6 :
    (wM43.pwr.core = true) ∧ (List.find? (fun e => e.tag == 3 && !wM43.ebx.up.getLsbD e.port) wM43.ebx.reqs = none) := by decide +kernel
theorem witness_EbbexPortsTakeEffect_7 :
    (wM44.pwr.core = true) := by decide +kernel
theorem witness_EbbexPortsTakeEffect_8 :
    (wM45.pwr.core = true) ∧ (wM45.ebx.up = 0#2) := by decide +kernel
theorem witness_EventForwardingTakesEffect_0_0 :
    (wN1.pwr.core = true) ∧ ((wN1.evtAt Path.management.idx).isSome = true) := by decide +kernel
theorem witness_EventForwardingTakesEffect_0_1 :
    (wN2.pwr.core = true) ∧ (wN2.evtAt Path.management.idx = none) := by decide +kernel
theorem witness_EventForwardingTakesEffect_1_0 :
    (wN3.inService = true) ∧ (wN3.evt.ring.length ≤ 4096) := by decide +kernel
theorem witness_EventForwardingTakesEffect_1_0_b :
    (wN4.inService = true) ∧ (wN4.evt.ring.length ≤ 4096) := by decide +kernel
theorem witness_EventForwardingTakesEffect_1_1_0 :
    (wN5.inService = true) ∧ (wN5.mgt.tries[0]? = some { sub := 0, event := wEv 1, tries := 1 : PushTry }) := by decide +kernel
theorem witness_EventForwardingTakesEffect_1_1_1 :
    (wN5.inService = true) ∧ (wN5.mgt.tries[0]? = some { sub := 0, event := wEv 1, tries := 1 : PushTry }) ∧ ({ sub := 0, event := wEv 1, tries := 1 : PushTry }.tries < 2) := by decide +kernel
theorem witness_EventForwardingTakesEffect_1_1_2 :
    (wN7.inService = true) ∧ (wN7.mgt.tries[0]? = some { sub := 0, event := wEv 1, tries := 2 : PushTry }) ∧ (2 ≤ { sub := 0, event := wEv 1, tries := 2 : PushTry }.tries) := by decide +kernel
theorem witness_EventForwardingTakesEffect_1_2 :
    (wN8.inService = true) ∧ (wN8.mgt.tries[0]? = none) := by decide +kernel
theorem witness_ManagementTakesEffect_1 :
    (wN11.inService = true) ∧ (wN11.mgt.portDown.getLsbD 0 = true ∨ 64 ≤ 3 ∨ 32 ≤ wN11.mgt.tls.length ∨ true = true ∧ wN11.pair.st ≠ PairSt.lead) := by decide +kernel
theorem witness_ManagementTakesEffect_2 :
    (wN8.inService = true) ∧ (wN8.mgt.tls.contains wTlsReq.principal = false) := by decide +kernel
theorem witness_ManagementTakesEffect_3_3 :
    (wN13.inService = true) ∧ (wN13.mgt.tls.contains wTlsReq.principal = true) ∧ (wTlsReq = { path := Path.management, principal := wTlsReq.principal, queue := none, tag := wTlsReq.tag, event := wTlsReq.event : Req }) ∧ ((regFor Path.management 331776 0).isSome = true) ∧ ([200704, 327972, 786696].contains 331776 = false) := by decide +kernel
theorem witness_ManagementTakesEffect_3_3_b :
    (wN16.inService = true) ∧ (wN16.mgt.tls.contains wNoRead.principal = true) ∧ (wNoRead = { path := Path.management, principal := wNoRead.principal, queue := none, tag := wNoRead.tag, event := wNoRead.event : Req }) ∧ ((regFor Path.management 331776 0).isSome = true) ∧ ([200704, 327972, 786696].contains 331776 = false) := by decide +kernel
theorem witness_ManagementTakesEffect_3_4 :
    (wN13.inService = true) ∧ (wN13.mgt.tls.contains wTlsReq.principal = true) ∧ (wTlsReq = { path := Path.management, principal := wTlsReq.principal, queue := none, tag := wTlsReq.tag, event := wTlsReq.event : Req }) := by decide +kernel
theorem witness_ManagementTakesEffect_3_4_b :
    (wN13.inService = true) ∧ (wN13.mgt.tls.contains wTlsReq.principal = true) ∧ (wTlsReq = { path := Path.management, principal := wTlsReq.principal, queue := none, tag := wTlsReq.tag, event := wTlsReq.event : Req }) := by decide +kernel
theorem witness_ManagementTakesEffect_3_4_c :
    (wN13.inService = true) ∧ (wN13.mgt.tls.contains wTlsReq.principal = true) ∧ (wTlsReq = { path := Path.management, principal := wTlsReq.principal, queue := none, tag := wTlsReq.tag, event := wTlsReq.event : Req }) := by decide +kernel
theorem witness_ManagementTakesEffect_3_4_d :
    (wN13.inService = true) ∧ (wN13.mgt.tls.contains wTlsReq.principal = true) ∧ (wTlsReq = { path := Path.management, principal := wTlsReq.principal, queue := none, tag := wTlsReq.tag, event := wTlsReq.event : Req }) := by decide +kernel
theorem witness_ManagementTakesEffect_4_0 :
    (wN23.inService = true) ∧ (wN23.boot.slot ≠ 2) ∧ ((wN23.stream 3).cfg.getLsbD 0 = true) ∧ (Option.any (fun p => wN23.may p Right.read) (wN23.stream 3).owner = true) ∧ ((wN23.stream 3).cfg.getLsbD 1 = false) := by decide +kernel
theorem witness_ManagementTakesEffect_4_1 :
    (wN24.inService = true) ∧ (wN24.boot.slot ≠ 2) ∧ ((wN24.stream 3).cfg.getLsbD 0 = true) ∧ (Option.any (fun p => wN24.may p Right.read) (wN24.stream 3).owner = true) ∧ ((wN24.stream 3).cfg.getLsbD 1 = true) := by decide +kernel
theorem witness_ManagementTakesEffect_4_2 :
    (wN24.inService = true) ∧ (wN24.boot.slot ≠ 2) ∧ ((wN24.stream 3).cfg.getLsbD 0 = true) ∧ (Option.any (fun p => wN24.may p Right.read) (wN24.stream 3).owner = true) := by decide +kernel
theorem witness_ManagementTakesEffect_5 :
    (wN26.inService = true) ∧ (wN26.boot.slot = 2 ∨ (wN26.stream 3).cfg.getLsbD 0 = false ∨ Option.any (fun p => wN26.may p Right.read) (wN26.stream 3).owner = false) := by decide +kernel
theorem witness_ManagementTakesEffect_6 :
    (wN8.inService = true) := by decide +kernel
theorem witness_ManagementTakesEffect_6_b :
    (wN28.inService = true) := by decide +kernel
theorem witness_ManagementTakesEffect_7 :
    (wN8.inService = true) ∧ (1 ≠ wN8.mgt.ptpDomain) := by decide +kernel
theorem witness_ManagementTakesEffect_3_2 :
    (wN13.inService = true) ∧ (wN13.mgt.tls.contains wTlsReq.principal = true) ∧ (wTlsReq = { path := Path.management, principal := wTlsReq.principal, queue := none, tag := wTlsReq.tag, event := wTlsReq.event : Req }) ∧ ((regFor Path.management 335868 0).isNone = true) := by decide +kernel
theorem witness_PairRolesTakeEffect_0 :
    (wP1.pwr.standby = true) ∧ (wP1.pair.ownHeld = false) := by decide +kernel
theorem witness_PairRolesTakeEffect_1_0 :
    (wP2.pwr.standby = true) ∧ (wP2.pair.ownHeld = true) ∧ (0 < wP2.pair.suspended) := by decide +kernel
theorem witness_PairRolesTakeEffect_1_1_0 :
    (wP3.pwr.standby = true) ∧ (wP3.pair.ownHeld = true) ∧ (wP3.pair.suspended = 0) ∧ (wP3.pins.bay = true) ∧ (wP3.pair.st = PairSt.claiming ∨ wP3.pair.st = PairSt.lead) := by decide +kernel
theorem witness_PairRolesTakeEffect_1_1_1 :
    (wP4.pwr.standby = true) ∧ (wP4.pair.ownHeld = true) ∧ (wP4.pair.suspended = 0) ∧ (wP4.pins.bay = false) := by decide +kernel
theorem witness_PairRolesTakeEffect_1_1_2 :
    (wP5.pwr.standby = true) ∧ (wP5.pair.ownHeld = true) ∧ (wP5.pair.suspended = 0) ∧ (wP5.pair.st = PairSt.claiming) ∧ (wP5.pair.beats < 2) := by decide +kernel
theorem witness_PairRolesTakeEffect_1_1_3 :
    (wP6.pwr.standby = true) ∧ (wP6.pair.ownHeld = true) ∧ (wP6.pair.suspended = 0) ∧ (wP6.pair.st = PairSt.claiming) ∧ (2 ≤ wP6.pair.beats) ∧ (wP6.pair.taking ≠ some TakeCause.ownerless) := by decide +kernel
theorem witness_PairRolesTakeEffect_1_1_4 :
    (wP7.pwr.standby = true) ∧ (wP7.pair.ownHeld = true) ∧ (wP7.pair.suspended = 0) ∧ (wP7.pair.st = PairSt.lead) := by decide +kernel
theorem witness_PairRolesTakeEffect_2_0 :
    (wP8.pwr.standby = true) ∧ (wP8.pair.ownHeld = false) ∧ (wP8.pair.st = PairSt.undecided) := by decide +kernel
theorem witness_PairRolesTakeEffect_2_1 :
    (wP9.pwr.standby = true) ∧ (wP9.pair.ownHeld = false) ∧ (wP9.pair.st = PairSt.partner) := by decide +kernel
theorem witness_PairRolesTakeEffect_2_2 :
    (wP10.pwr.standby = true) ∧ (wP10.pair.ownHeld = false) ∧ (wP10.pair.st = PairSt.partner) ∧ (wP10.pair.yields < 2) := by decide +kernel
theorem witness_PairRolesTakeEffect_2_3_0 :
    (wP11.pwr.standby = true) ∧ (wP11.pair.ownHeld = false) ∧ (wP11.pair.st = PairSt.partner) ∧ (2 ≤ wP11.pair.yields) ∧ (wP11.pair.taking = none) ∧ (wP11.single = false) ∧ (wP11.pair.synced = true) := by decide +kernel
theorem witness_PairRolesTakeEffect_2_3_1 :
    (wP12.pwr.standby = true) ∧ (wP12.pair.ownHeld = false) ∧ (wP12.pair.st = PairSt.partner) ∧ (2 ≤ wP12.pair.yields) ∧ (wP12.pair.taking = none) ∧ (wP12.single = false) ∧ (wP12.pair.synced = false) ∧ (wP12.pair.yields ≠ 2) := by decide +kernel
theorem witness_PairRolesTakeEffect_3 :
    (wP13.pwr.standby = true) ∧ (wP13.pair.ownHeld = true) := by decide +kernel
theorem witness_PairRolesTakeEffect_4 :
    (wP14.pwr.standby = true) ∧ (wP14.pair.st = PairSt.undecided) ∧ (wP14.claimDelay ≤ 6000) ∧ (wP14.maq.live.isSome = true) := by decide +kernel
theorem witness_PairRolesTakeEffect_5 :
    (wP14.pwr.standby = true) ∧ (wP14.pair.st = PairSt.undecided) ∧ (1999 < wP14.claimDelay ∨ wP14.maq.live = none) := by decide +kernel
theorem witness_PairRolesTakeEffect_5_b :
    (wP1.pwr.standby = true) ∧ (wP1.pair.st = PairSt.undecided) ∧ (7000 < wP1.claimDelay ∨ wP1.maq.live = none) := by decide +kernel
theorem witness_PairRolesTakeEffect_6 :
    (wP17.pwr.standby = true) ∧ (wP17.pair.st = PairSt.claiming) ∧ (wP17.pair.ownHeld = false) ∧ (max 500 (wP17.claimDelay - 2000) ≤ 4000) := by decide +kernel
theorem witness_PairRolesTakeEffect_7 :
    (wP18.pwr.standby = true) ∧ (300 ≤ 300) ∧ (wP18.pair.st = PairSt.partner) ∧ (wP18.pair.roleConflict = false) ∧ (wP18.pins.eject = false) ∧ (wP18.pair.taking = none) := by decide +kernel
theorem witness_PairRolesTakeEffect_8 :
    (wP18.pwr.standby = true) ∧ (299 < 300 ∨ wP18.pair.st ≠ PairSt.partner) := by decide +kernel
theorem witness_PairRolesTakeEffect_9 :
    (wP20.pwr.standby = true) ∧ (wP20.pair.st = PairSt.partner) ∧ (wP20.pair.taking = none) ∧ (wP20.single = false) ∧ (wP20.pwr.armature = true) ∧ (wP20.boot.run.isSome = true) ∧ (wP20.maq.live.isSome = true) ∧ (1000 * roleDetect.nat wP20.role ≤ 1000000) := by decide +kernel
theorem witness_PairRolesTakeEffect_10 :
    (wP21.pwr.standby = true) ∧ (wP21.pair.st ≠ PairSt.partner) := by decide +kernel
theorem witness_PairRolesTakeEffect_11 :
    (wP22.pwr.standby = true) ∧ (wP22.pair.taking = some TakeCause.hang) ∧ (wP22.pair.st = PairSt.partner) ∧ (wP22.pair.shadowRegs = []) := by decide +kernel
theorem witness_PairRolesTakeEffect_12 :
    (wP18.pwr.standby = true) ∧ (wP18.pair.taking = none) := by decide +kernel
theorem witness_PairRolesTakeEffect_13 :
    (wP24.pwr.standby = true) ∧ (wP24.pair.st = PairSt.lead) ∧ (wP24.rst.under = none) := by decide +kernel
theorem witness_PairRolesTakeEffect_14 :
    (wP18.pwr.standby = true) ∧ (wP18.pair.st ≠ PairSt.lead) := by decide +kernel
theorem witness_PairLinkAndHandoverTakeEffect_0_0 :
    (wP26.pwr.core = true) ∧ (wP26.pair.lanes ≠ 0#2) := by decide +kernel
theorem witness_PairLinkAndHandoverTakeEffect_0_0_b :
    (wP27.pwr.core = true) ∧ (wP27.pair.lanes ≠ 0#2) := by decide +kernel
theorem witness_PairLinkAndHandoverTakeEffect_0_1 :
    (wP28.pwr.core = true) ∧ (wP28.pair.lanes ≠ 0#2) ∧ (wP28.pair.st ≠ PairSt.partner ∨ wP28.shadowLink = false) ∧ (isStatus (Shadow.division []) = false) := by decide +kernel
theorem witness_PairLinkAndHandoverTakeEffect_0_2_2 :
    (wP31.pwr.core = true) ∧ (wP31.pair.lanes ≠ 0#2) ∧ (wP31.pair.st = PairSt.partner) ∧ (wP31.shadowLink = true) ∧ (settingKeys.contains (331776, 0) = true) := by decide +kernel
theorem witness_PairLinkAndHandoverTakeEffect_0_2_3 :
    (wP32.pwr.core = true) ∧ (wP32.pair.lanes ≠ 0#2) ∧ (wP32.pair.st = PairSt.partner) ∧ (wP32.shadowLink = true) := by decide +kernel
theorem witness_PairLinkAndHandoverTakeEffect_0_2_4 :
    (wP33.pwr.core = true) ∧ (wP33.pair.lanes ≠ 0#2) ∧ (wP33.pair.st = PairSt.partner) ∧ (wP33.shadowLink = true) := by decide +kernel
theorem witness_PairLinkAndHandoverTakeEffect_0_2_4_b :
    (wP34.pwr.core = true) ∧ (wP34.pair.lanes ≠ 0#2) ∧ (wP34.pair.st = PairSt.partner) ∧ (wP34.shadowLink = true) := by decide +kernel
theorem witness_PairLinkAndHandoverTakeEffect_0_2_4_c :
    (wP35.pwr.core = true) ∧ (wP35.pair.lanes ≠ 0#2) ∧ (wP35.pair.st = PairSt.partner) ∧ (wP35.shadowLink = true) := by decide +kernel
theorem witness_PairLinkAndHandoverTakeEffect_0_2_5 :
    (wP33.pwr.core = true) ∧ (wP33.pair.lanes ≠ 0#2) ∧ (wP33.pair.st = PairSt.partner) ∧ (wP33.shadowLink = true) := by decide +kernel
theorem witness_PairLinkAndHandoverTakeEffect_0_2_6 :
    (wP33.pwr.core = true) ∧ (wP33.pair.lanes ≠ 0#2) ∧ (wP33.pair.st = PairSt.partner) ∧ (wP33.shadowLink = true) := by decide +kernel
theorem witness_PairLinkAndHandoverTakeEffect_0_2_7 :
    (wP33.pwr.core = true) ∧ (wP33.pair.lanes ≠ 0#2) ∧ (wP33.pair.st = PairSt.partner) ∧ (wP33.shadowLink = true) := by decide +kernel
theorem witness_PairLinkAndHandoverTakeEffect_0_2_8 :
    (wP33.pwr.core = true) ∧ (wP33.pair.lanes ≠ 0#2) ∧ (wP33.pair.st = PairSt.partner) ∧ (wP33.shadowLink = true) ∧ (u8 bP3 0 = 4) ∧ (u8 bP3 1 < 8) := by decide +kernel
theorem witness_PairLinkAndHandoverTakeEffect_0_2_9 :
    (wP40.pwr.core = true) ∧ (wP40.pair.lanes ≠ 0#2) ∧ (wP40.pair.st = PairSt.partner) ∧ (wP40.shadowLink = true) ∧ (wP40.pair.synced = true) ∧ (wP40.pair.shadowRegs = []) := by decide +kernel
theorem witness_PairLinkAndHandoverTakeEffect_1 :
    (wP18.pwr.core = true) ∧ (wP18.pair.lanes = 0#2) := by decide +kernel
theorem witness_PairLinkAndHandoverTakeEffect_2_0 :
    (wP42.pwr.standby = true) ∧ (wP42.since wP42.pair.lastDivision (msecs 10) = true) := by decide +kernel
theorem witness_PairLinkAndHandoverTakeEffect_2_1 :
    (wP43.pwr.standby = true) ∧ (wP43.since wP43.pair.lastDivision (msecs 10) = false) := by decide +kernel
theorem witness_PairLinkAndHandoverTakeEffect_2_2 :
    (wP44.pwr.standby = true) := by decide +kernel
theorem witness_PairLinkAndHandoverTakeEffect_2_2_b :
    (wP45.pwr.standby = true) := by decide +kernel
theorem witness_PairLinkAndHandoverTakeEffect_2_3 :
    (wP46.pwr.standby = true) := by decide +kernel
theorem witness_PairLinkAndHandoverTakeEffect_2_3_b :
    (wP47.pwr.standby = true) := by decide +kernel
theorem witness_PairLinkAndHandoverTakeEffect_2_4 :
    (wP48.pwr.standby = true) ∧ (wP48.pins.eject = true) := by decide +kernel
theorem witness_PairLinkAndHandoverTakeEffect_2_5 :
    (wP1.pwr.standby = true) ∧ (wP1.pins.eject = false) := by decide +kernel
theorem witness_PairLinkAndHandoverTakeEffect_3_0 :
    (wP50.carriesOut wArm Right.pair = true) ∧ (wP50.handRefusal true = none) := by decide +kernel
theorem witness_PairLinkAndHandoverTakeEffect_3_1 :
    (wP21.carriesOut wArm Right.pair = true) ∧ (wP21.handRefusal true = some 160) := by decide +kernel
theorem witness_PairLinkAndHandoverTakeEffect_3_2 :
    (wP52.carriesOut wArm Right.pair = true) ∧ (wP52.pair.st = PairSt.partner) ∧ (wP52.pair.synced = true) ∧ (wP52.pair.taking = none) := by decide +kernel
theorem witness_PairLinkAndHandoverTakeEffect_3_3 :
    (wP21.carriesOut wArm Right.pair = true) ∧ (wP21.pair.st = PairSt.lead) := by decide +kernel
theorem witness_PairLinkAndHandoverTakeEffect_3_4 :
    (wP18.carriesOut wArm Right.pair = true) ∧ (wP18.pair.st = PairSt.partner) ∧ (wP18.pair.synced = false) := by decide +kernel
theorem witness_PairLinkAndHandoverTakeEffect_3_5 :
    (wP18.carriesOut wArm Right.pair = true) := by decide +kernel
theorem witness_PairRolesTakeEffect_2_3_2 :
    (wP9.pwr.standby = true) ∧ (wP9.pair.ownHeld = false) ∧ (wP9.pair.st = PairSt.partner) ∧ (2 ≤ wP9.pair.yields) ∧ (wP9.pair.taking = none) ∧ (wP9.single = false) ∧ (wP9.pair.synced = false) ∧ (wP9.pair.yields = 2) := by decide +kernel
theorem witness_PairRolesTakeEffect_11_b :
    (wP57.pwr.standby = true) ∧ (wP57.pair.taking = some TakeCause.hang) ∧ (wP57.pair.st = PairSt.partner) ∧ (wP57.pair.shadowRegs = []) := by decide +kernel
theorem witness_RegisterAccessTakesEffect_0_0 :
    (wQ1.pwr.core = true) ∧ (3 < 16) ∧ (16 < 65536) ∧ (16 % 4 = 0) ∧ (196624 = 65536 * 3 + 16) ∧ (16 = 16) ∧ (wQ1.may wArm.principal Right.read = true) := by decide +kernel
theorem witness_RegisterAccessTakesEffect_0_0_b :
    (wQ2.pwr.core = true) ∧ (3 < 16) ∧ (16 < 65536) ∧ (16 % 4 = 0) ∧ (196624 = 65536 * 3 + 16) ∧ (16 = 16) ∧ (wQ2.may wArm.principal Right.read = true) := by decide +kernel
theorem witness_RegisterAccessTakesEffect_0_1 :
    (wQ2.pwr.core = true) ∧ (3 < 16) ∧ (16 < 65536) ∧ (16 % 4 = 0) ∧ (196624 = 65536 * 3 + 16) ∧ (16 = 16) ∧ (wQ2.may wNone.principal Right.read = false) := by decide +kernel
theorem witness_RegisterAccessTakesEffect_2 :
    (wQ4.pwr.core = true) ∧ (0 < 16) ∧ (4148 < 65536) ∧ (4148 % 4 = 0) ∧ (4148 = 65536 * 0 + 4148) ∧ (wQ4.may 4294967294 Right.read = false) := by decide +kernel
theorem witness_RegisterAccessTakesEffect_6 :
    (wRun.pwr.core = true) ∧ (0 < 16) ∧ (65532 < 65536) ∧ (65532 % 4 = 0) ∧ (65532 = 65536 * 0 + 65532) ∧ (65532 ≠ 16) ∧ (65532 ≠ 24) ∧ (Option.any (fun x => x.fst == 65532) (secondSel 0) = false) ∧ (wRun.regAt wArm.path 0 65532 = none) := by decide +kernel
theorem witness_SettingRegistersHoldTheirRanges_0 :
    (wRun.pwr.core = true) ∧ (65535 < 2 ^ 32) ∧ (wRun.may wArm.principal Right.reset = true) := by decide +kernel
theorem witness_SettingRegistersHoldTheirRanges_0_b :
    (wRun.pwr.core = true) ∧ (4294967295 < 2 ^ 32) ∧ (wRun.may wArm.principal Right.reset = true) := by decide +kernel
theorem witness_SettingRegistersHoldTheirRanges_0_c :
    (wRun.pwr.core = true) ∧ (0 < 2 ^ 32) ∧ (wRun.may wArm.principal Right.reset = true) := by decide +kernel
theorem witness_SettingRegistersHoldTheirRanges_1 :
    (wRun.pwr.core = true) ∧ (0 < 2 ^ 32) ∧ (wRun.may wArm.principal Right.update = true) := by decide +kernel
theorem witness_SettingRegistersHoldTheirRanges_1_b :
    (wRun.pwr.core = true) ∧ (86401 < 2 ^ 32) ∧ (wRun.may wArm.principal Right.update = true) := by decide +kernel
theorem witness_SettingRegistersHoldTheirRanges_2 :
    (wRun.pwr.core = true) ∧ (0 < 2 ^ 32) ∧ (wRun.may wArm.principal Right.memory = true) := by decide +kernel
theorem witness_SettingRegistersHoldTheirRanges_2_b :
    (wRun.pwr.core = true) ∧ (169 < 2 ^ 32) ∧ (wRun.may wArm.principal Right.memory = true) := by decide +kernel
theorem witness_SettingRegistersHoldTheirRanges_3 :
    (wRun.pwr.core = true) ∧ (61 < 2 ^ 32) ∧ (wRun.may wArm.principal Right.pair = true) := by decide +kernel
theorem witness_SettingRegistersHoldTheirRanges_3_b :
    (wRun.pwr.core = true) ∧ (2 < 2 ^ 32) ∧ (wRun.may wArm.principal Right.pair = true) := by decide +kernel
theorem witness_SettingRegistersHoldTheirRanges_4 :
    (wRun.pwr.core = true) ∧ (1001 < 2 ^ 32) ∧ (wRun.may wArm.principal Right.journal = true) := by decide +kernel
theorem witness_SettingRegistersHoldTheirRanges_5 :
    (wRun.pwr.core = true) ∧ (201 < 2 ^ 32) ∧ (wRun.may wArm.principal Right.audit = true) := by decide +kernel
theorem witness_SettingRegistersHoldTheirRanges_6 :
    (wRun.pwr.core = true) ∧ (5000 < 2 ^ 32) ∧ (wRun.may wArm.principal Right.budget = true) := by decide +kernel
theorem witness_SettingRegistersHoldTheirRanges_7 :
    (wRun.pwr.core = true) ∧ (5000 < 2 ^ 32) ∧ (wRun.may wNone.principal Right.reset = false) := by decide +kernel
theorem witness_RegisterAccessTakesEffect_1 :
    (wQ9.pwr.core = true) ∧ (3 < 16) ∧ (24 < 65536) ∧ (24 % 4 = 0) ∧ (196632 = 65536 * 3 + 24) ∧ (24 = 24) ∧ (wQ9.may wArm.principal Right.read = true) := by decide +kernel
theorem witness_EveryDetectedErrorIsCounted :
    (wY1.pwr.core = true) ∧ (wY1.chServes 0 = true) ∧ (4096 < (wY1.ch 0).cap) ∧ ((wY1.ch 0).cap ≤ chSize) ∧ (1 = if 0 = 2 ∧ wY1.ownerAt 0 4096 0 = 8 then 2 else wY1.ownerAt 0 4096 0) ∧ (true = if 1 = 1 then (wY1.dread ((0 / 2 * 2 + (1 - 0 % 2)) * chSize + 4096 / 64 * 64) 64).isSome else if 1 = 2 ∨ 1 = 3 then true else if 1 = 4 then false else false) := by decide +kernel
theorem witness_EveryDetectedErrorIsCounted_b :
    (wY2.pwr.core = true) ∧ (wY2.chServes 0 = true) ∧ (4096 < (wY2.ch 0).cap) ∧ ((wY2.ch 0).cap ≤ chSize) ∧ (1 = if 0 = 2 ∧ wY2.ownerAt 0 4096 0 = 8 then 2 else wY2.ownerAt 0 4096 0) ∧ (false = if 1 = 1 then (wY2.dread ((0 / 2 * 2 + (1 - 0 % 2)) * chSize + 4096 / 64 * 64) 64).isSome else if 1 = 2 ∨ 1 = 3 then true else if 1 = 4 then false else true) := by decide +kernel
theorem witness_EveryDetectedErrorIsCounted_c :
    (wY3.pwr.core = true) ∧ (wY3.chServes 0 = true) ∧ (81604378624 < (wY3.ch 0).cap) ∧ ((wY3.ch 0).cap ≤ chSize) ∧ (8 = if 8 = 2 ∧ wY3.ownerAt 0 81604378624 8 = 8 then 2 else wY3.ownerAt 0 81604378624 8) ∧ (true = if 8 = 1 then (wY3.dread ((0 / 2 * 2 + (1 - 0 % 2)) * chSize + 81604378624 / 64 * 64) 64).isSome else if 8 = 2 ∨ 8 = 3 then true else if 8 = 4 then false else true) := by decide +kernel
theorem witness_EveryDetectedErrorIsCounted_d :
    (wY3.pwr.core = true) ∧ (wY3.chServes 0 = true) ∧ (81604378624 < (wY3.ch 0).cap) ∧ ((wY3.ch 0).cap ≤ chSize) ∧ (8 = if 8 = 2 ∧ wY3.ownerAt 0 81604378624 8 = 8 then 2 else wY3.ownerAt 0 81604378624 8) ∧ (false = if 8 = 1 then (wY3.dread ((0 / 2 * 2 + (1 - 0 % 2)) * chSize + 81604378624 / 64 * 64) 64).isSome else if 8 = 2 ∨ 8 = 3 then true else if 8 = 4 then false else false) := by decide +kernel
theorem witness_EveryDetectedErrorIsCounted_e :
    (wY3.pwr.core = true) ∧ (wY3.chServes 0 = true) ∧ (81604378624 < (wY3.ch 0).cap) ∧ ((wY3.ch 0).cap ≤ chSize) ∧ (2 = if 2 = 2 ∧ wY3.ownerAt 0 81604378624 2 = 8 then 2 else wY3.ownerAt 0 81604378624 2) ∧ (true = if 2 = 1 then (wY3.dread ((0 / 2 * 2 + (1 - 0 % 2)) * chSize + 81604378624 / 64 * 64) 64).isSome else if 2 = 2 ∨ 2 = 3 then true else if 2 = 4 then false else false) := by decide +kernel
theorem witness_EveryDetectedErrorIsCounted_f :
    (wY6.pwr.core = true) ∧ (wY6.chServes 0 = true) ∧ (128849018880 < (wY6.ch 0).cap) ∧ ((wY6.ch 0).cap ≤ chSize) ∧ (2 = if 2 = 2 ∧ wY6.ownerAt 0 128849018880 2 = 8 then 2 else wY6.ownerAt 0 128849018880 2) ∧ (true = if 2 = 1 then (wY6.dread ((0 / 2 * 2 + (1 - 0 % 2)) * chSize + 128849018880 / 64 * 64) 64).isSome else if 2 = 2 ∨ 2 = 3 then true else if 2 = 4 then false else true) := by decide +kernel
theorem witness_EveryDetectedErrorIsCounted_g :
    (wY6.pwr.core = true) ∧ (wY6.chServes 0 = true) ∧ (128849018880 < (wY6.ch 0).cap) ∧ ((wY6.ch 0).cap ≤ chSize) ∧ (4 = if 4 = 2 ∧ wY6.ownerAt 0 128849018880 4 = 8 then 2 else wY6.ownerAt 0 128849018880 4) ∧ (false = if 4 = 1 then (wY6.dread ((0 / 2 * 2 + (1 - 0 % 2)) * chSize + 128849018880 / 64 * 64) 64).isSome else if 4 = 2 ∨ 4 = 3 then true else if 4 = 4 then false else true) := by decide +kernel
theorem witness_EveryDetectedErrorIsCounted_h :
    (wY6.pwr.core = true) ∧ (wY6.chServes 0 = true) ∧ (128849018880 < (wY6.ch 0).cap) ∧ ((wY6.ch 0).cap ≤ chSize) ∧ (5 = if 5 = 2 ∧ wY6.ownerAt 0 128849018880 5 = 8 then 2 else wY6.ownerAt 0 128849018880 5) ∧ (true = if 5 = 1 then (wY6.dread ((0 / 2 * 2 + (1 - 0 % 2)) * chSize + 128849018880 / 64 * 64) 64).isSome else if 5 = 2 ∨ 5 = 3 then true else if 5 = 4 then false else true) := by decide +kernel
theorem witness_ErrorLimitTakesAChannelOut_1 :
    (wY1.pwr.core = true) ∧ (wY1.may wArm.principal Right.memory = true) ∧ (0 < 2 ^ 32) := by decide +kernel
theorem witness_ErrorLimitTakesAChannelOut_1_b :
    (wY1.pwr.core = true) ∧ (wY1.may wArm.principal Right.memory = true) ∧ (65536 < 2 ^ 32) := by decide +kernel
theorem witness_ErrorLimitTakesAChannelOut_2 :
    (wY11.pwr.core = true) ∧ (wY11.chServes 0 = true) ∧ (81604378624 < (wY11.ch 0).cap) ∧ (1 ≤ wY11.mem.errLimit) ∧ (wY11.mem.errLimit ≤ 65535) := by decide +kernel
theorem witness_ErrorLimitTakesAChannelOut_2_b :
    (wY12.pwr.core = true) ∧ (wY12.chServes 0 = true) ∧ (81604378624 < (wY12.ch 0).cap) ∧ (1 ≤ wY12.mem.errLimit) ∧ (wY12.mem.errLimit ≤ 65535) := by decide +kernel
theorem witness_ErrorLimitTakesAChannelOut_2_c :
    (wY13.pwr.core = true) ∧ (wY13.chServes 0 = true) ∧ (81604378624 < (wY13.ch 0).cap) ∧ (1 ≤ wY13.mem.errLimit) ∧ (wY13.mem.errLimit ≤ 65535) := by decide +kernel
theorem witness_BraceHoldsOffStructureWrites_0_0 :
    (wStr.pwr.core = true) ∧ (wStr.pwr.standby = true) ∧ (wStr.may wArm.principal Right.struct = true) ∧ (wStr.brace = true) ∧ (wStr.maq.op = none) ∧ (wStr.maq.waiting = []) ∧ (maqField bY1 1 = none) := by decide +kernel
theorem witness_BraceHoldsOffStructureWrites_0_1 :
    (wStr.pwr.core = true) ∧ (wStr.pwr.standby = true) ∧ (wStr.may wArm.principal Right.struct = true) ∧ (wStr.brace = true) ∧ (wStr.maq.op = none) ∧ (wStr.maq.waiting = []) ∧ (maqField bY2 2 = none) ∧ ((u8 wStr.optBytes 12).testBit 0 = false) ∧ (u8 bY2 21 = 2) := by decide +kernel
theorem witness_BraceHoldsOffStructureWrites_0_2 :
    (wStr.pwr.core = true) ∧ (wStr.pwr.standby = true) ∧ (wStr.may wArm.principal Right.struct = true) ∧ (wStr.brace = true) ∧ (wStr.maq.op = none) ∧ (wStr.maq.waiting = []) ∧ (maqField bY3 2 = none) ∧ ((u8 wStr.optBytes 12).testBit 0 = false) ∧ (u8 bY3 21 ≠ 2) := by decide +kernel
theorem witness_BraceHoldsOffStructureWrites_0_2_b :
    (wStr.pwr.core = true) ∧ (wStr.pwr.standby = true) ∧ (wStr.may wArm.principal Right.struct = true) ∧ (wStr.brace = true) ∧ (wStr.maq.op = none) ∧ (wStr.maq.waiting = []) ∧ (maqField bY4 2 = none) ∧ ((u8 wStr.optBytes 12).testBit 0 = false) ∧ (u8 bY4 21 ≠ 2) := by decide +kernel
theorem witness_SoftwareBoundsStayWithinTheStructure_0_0 :
    (wY14.pwr.core = true) ∧ (0 < 8) ∧ (wY14.maq.live.isSome = true) ∧ ((wY14.pb wArm.path 5).sel = 0) ∧ (0 < 2 ^ 32) ∧ (wY14.may wArm.principal Right.sitePower = true) ∧ (0 = cpFloor.val (wY14.capOf 0)) ∧ (0 = cpCeil.val (wY14.capOf 0)) ∧ (toInt 32 0 = toInt 32 0) := by decide +kernel
theorem witness_SoftwareBoundsStayWithinTheStructure_0_0_b :
    (wY14.pwr.core = true) ∧ (0 < 8) ∧ (wY14.maq.live.isSome = true) ∧ ((wY14.pb wArm.path 5).sel = 0) ∧ (5 < 2 ^ 32) ∧ (wY14.may wArm.principal Right.sitePower = true) ∧ (0 = cpFloor.val (wY14.capOf 0)) ∧ (0 = cpCeil.val (wY14.capOf 0)) ∧ (toInt 32 5 = toInt 32 5) := by decide +kernel
theorem witness_SoftwareBoundsStayWithinTheStructure_0_1 :
    (wY14.pwr.core = true) ∧ (0 < 8) ∧ (wY14.maq.live.isSome = true) ∧ ((wY14.pb wArm.path 5).sel = 0) ∧ (256 < 2 ^ 32) ∧ (wY14.may wArm.principal Right.sitePower = true) ∧ (256 % 256 = 0) := by decide +kernel
theorem witness_SoftwareBoundsStayWithinTheStructure_0_2 :
    (wY14.pwr.core = true) ∧ (0 < 8) ∧ (wY14.maq.live.isSome = true) ∧ ((wY14.pb wArm.path 5).sel = 0) ∧ (257 < 2 ^ 32) ∧ (wY14.may wArm.principal Right.sitePower = true) ∧ (257 % 256 ≠ 0) := by decide +kernel
theorem witness_SoftwareBoundsStayWithinTheStructure_1 :
    (wY14.pwr.core = true) ∧ (0 < 8) ∧ (wY14.maq.live.isSome = true) ∧ ((wY14.pb wNone.path 5).sel = 0) ∧ (257 < 2 ^ 32) ∧ (wY14.may wNone.principal Right.sitePower = false) := by decide +kernel
theorem witness_SoftwareBoundsStayWithinTheStructure_2 :
    (wY14.pwr.core = true) ∧ (0 < 8) ∧ (wY14.maq.live.isSome = true) ∧ ((wY14.pb wArm.path 5).sel = 0) ∧ (257 < 2 ^ 32) ∧ (wY14.may wArm.principal Right.read = true) := by decide +kernel
theorem witness_RefusedAccessesHaveNoEffect_0 :
    (wRun.pwr.core = true) ∧ (0 < 16) ∧ (4148 < 65536) ∧ (4148 % 4 = 0) ∧ (4148 = 65536 * 0 + 4148) ∧ (wRun.may 4294967294 Right.read = false) := by decide +kernel
theorem witness_DivisionObeysTheBudget_0 :
    (wZ1.armServes = true) ∧ (wZ1.maq.live.isSome = true) ∧ (wZ1.pair.st = PairSt.lead) ∧ (List.foldl (fun x1 x2 => x1 + x2) 0 (List.map DivSite.cap (List.map wZ1.divSite (List.range 8))) ≤ min wZ1.trayBudget (cpCeiling.val wZ1.caps) - max wZ1.nonsite (cpReserve.val wZ1.caps)) := by decide +kernel
theorem witness_DivisionObeysTheBudget_1 :
    (wZ2.armServes = true) ∧ (wZ2.maq.live.isSome = true) ∧ (wZ2.pair.st = PairSt.lead) ∧ (min wZ2.trayBudget (cpCeiling.val wZ2.caps) - max wZ2.nonsite (cpReserve.val wZ2.caps) < List.foldl (fun x1 x2 => x1 + x2) 0 (List.map DivSite.cap (List.map wZ2.divSite (List.range 8)))) := by decide +kernel
theorem witness_CompletionsWriteOnlyTheirSlot_1 :
    ({ path := Path.armature, principal := 0, queue := some 5, tag := 9, event := false : Req }.queue = some 5) ∧ ({ path := Path.armature, principal := 0, queue := some 5, tag := 9, event := false : Req }.event = false) ∧ ((wZ3.queue 5).enabled = true) ∧ (hasTag { path := Path.armature, principal := 0, queue := some 5, tag := 9, event := false : Req }.tag (wZ3.queue 5).taken = true) ∧ (wZ3.window ((wZ3.queue 5).cqBase + 32 * (wZ3.queue 5).cqTail) = Window.dram 85899350496) := by decide +kernel
theorem witness_ModuleDramReadsBackOrFails :
    (wZ4.memOk = true) ∧ (wZ4.dramAcc 85899345920 (List.length bZ1) = DramAcc.ok) ∧ (0 < List.length bZ1) := by decide +kernel
theorem witness_ModuleDramReadsBackOrFails_b :
    (wZ5.memOk = true) ∧ (wZ5.dramAcc 85899345920 (List.length bZ2) = DramAcc.ok) ∧ (0 < List.length bZ2) := by decide +kernel
theorem witness_ModuleDramReadsBackOrFails_c :
    (wZ5.memOk = true) ∧ (wZ5.dramAcc 85899345920 (List.length bZ3) = DramAcc.ok) ∧ (0 < List.length bZ3) := by decide +kernel

/-! ## What the witnesses with a principal table, a register or an opaque value rest on -/

theorem getD_of {α : Type} {o : Option α} {d : α} (h : o.isSome = true) : o = some (o.getD d) := by
  cases o with
  | none => simp at h
  | some x => rfl

theorem may_arm (s : State) (x : Right) : s.may armPrincipal x = true := by
  unfold State.may State.rights
  rw [if_pos rfl]
  cases x <;> decide

/-- The bytes of the table above with its TAG. -/
def wTab : Bytes := wTable ++ leBytes 48 (Config.deviceHmac wTable).toNat

theorem get_wCells (d : Byte) (b : Bytes) : ∀ a i, i < b.length → Memory.get d (wCells a b) (a + i) = b.getD i d := by
  induction b with
  | nil => intro a i h; exact absurd h (by simp)
  | cons x r ih =>
    intro a i h
    cases i with
    | zero => simp [wCells, Memory.get]
    | succ i =>
      have e : a + (i + 1) = a + 1 + i := by omega
      have hne : ¬ a = a + 1 + i := by omega
      rw [e, wCells, Memory.get, if_neg hne, ih (a + 1) i (by simpa using h)]
      rfl

theorem getAll_wCells (d : Byte) (a : Nat) (b : Bytes) : Memory.getAll d (wCells a b) a b.length = b := by
  apply List.ext_getElem
  · simp [Memory.getAll]
  · intro i h1 h2
    simp only [Memory.getAll, List.getElem_map, List.getElem_range]
    rw [get_wCells d b a i h2]
    simp [List.getD, List.getElem?_eq_getElem h2]

theorem leBytes_length' (n v : Nat) : (leBytes n v).length = n := by
  induction n generalizing v with
  | zero => rfl
  | succ n ih => simp [leBytes, ih]

theorem wTable_length : wTable.length = 0x810 := by decide +kernel

theorem princTable_wTab (s : State) (h0 : s.flash0 = wPrinc) (h1 : s.flash1 = []) : s.princTable = wTab := by
  have hl : wTab.length = 0x840 := by simp [wTab, wTable_length, leBytes_length']
  have hr : s.fread 0 0x04920000 0x840 = wTab := by
    rw [State.fread, State.flash, if_pos rfl, h0, ← hl]
    unfold wPrinc
    exact getAll_wCells erased 0x04920000 wTab
  have ht : wTab.take 0x810 = wTable := by rw [wTab, ← wTable_length]; exact List.take_left
  have hd : digestAt wTab 0x810 = Config.deviceHmac wTable := by
    have hs : slice wTab 0x810 48 = leBytes 48 (Config.deviceHmac wTable).toNat := by
      rw [slice, wTab, ← wTable_length, List.drop_left, List.take_of_length_le (by rw [leBytes_length'])]
    rw [digestAt, le, hs, leNat_leBytes, Nat.mod_eq_of_lt (by have := (Config.deviceHmac wTable).isLt; omega)]
    simp
  have c0 : s.princCopy 0 = some wTab := by
    have m1 : u32 wTab 0 = 0x544E5250 ∧ u16 wTab 4 = 1 := by decide +kernel
    unfold State.princCopy
    simp only [hr, ht, hd, m1, and_self, if_true]
  have c1 : s.princCopy 1 = none := by
    have m1 : u32 (Memory.getAll erased [] 0x04920000 0x840) 0 ≠ 0x544E5250 := by decide +kernel
    have hr1 : s.fread 1 0x04920000 0x840 = Memory.getAll erased [] 0x04920000 0x840 := by
      rw [State.fread, State.flash, if_neg (by decide), h1]
    unfold State.princCopy
    simp only [hr1]
    exact if_neg fun h => m1 h.1
  unfold State.princTable
  rw [c0, c1]

theorem sha_ne : some (Config.sha384 bB2) ≠ ({ hashes := [Config.sha384 [1] + 1] } : RunImage).hashes[0]? := by
  intro h
  have h : Config.sha384 [1] = Config.sha384 [1] + 1 := Option.some.inj h
  have h2 := congrArg BitVec.toNat h
  rw [BitVec.toNat_add] at h2
  have := (Config.sha384 [1]).isLt
  simp at h2
  omega

theorem shadowIds_empty : (0, 255, Config.sha384 [], Config.sha384 wRun.optBytes) = wP30.shadowIds := by
  have h : wP30.princTable = [] := by decide +kernel
  unfold State.shadowIds
  rw [h]
  rfl

theorem witness_FirmwareStepsTakeEffect_7 :
    (wB35.imageRuns = true) ∧ (wB35.boot.run = some { hashes := [Config.sha384 [1] + 1] : RunImage }) ∧ ({ hashes := [Config.sha384 [1] + 1] : RunImage }.loadBlocks ≤ 0) ∧ (some (Config.sha384 bB2) ≠ { hashes := [Config.sha384 [1] + 1] : RunImage }.hashes[0]?) :=
  ⟨by decide +kernel,
    by rfl,
    by rfl,
    sha_ne⟩
theorem witness_FirmwareStepsTakeEffect_8 :
    (wB36.imageRuns = true) ∧ (wB36.boot.run = some { hashes := [Config.sha384 [1]] : RunImage }) ∧ (some (Config.sha384 bB2) = { hashes := [Config.sha384 [1]] : RunImage }.hashes[0]?) :=
  ⟨by decide +kernel,
    by rfl,
    by rfl⟩
theorem witness_QueueRegistersAndEntriesTakeEffect_3 :
    (wL5.pwr.core = true) ∧ (∀ (x : Right), queueRight 5 = some x → wL5.may wArm.principal x = true) :=
  ⟨by decide +kernel,
    fun x _ => may_arm _ x⟩
theorem witness_QueueRegistersAndEntriesTakeEffect_3_b :
    (wL6.pwr.core = true) ∧ (∀ (x : Right), queueRight 5 = some x → wL6.may wArm.principal x = true) :=
  ⟨by decide +kernel,
    fun x _ => may_arm _ x⟩
theorem witness_QueueRegistersAndEntriesTakeEffect_4_0 :
    (wL7.pwr.core = true) ∧ (∀ (x : Right), queueRight 5 = some x → wL7.may wArm.principal x = true) ∧ ((wL7.queue 5).enabled = true) ∧ ((wL7.queue 5).full = false) ∧ (2 < (wL7.queue 5).cqSize) ∧ ((2 + (wL7.queue 5).cqSize - (wL7.queue 5).cqHead) % (wL7.queue 5).cqSize ≤ (wL7.queue 5).unconsumed) :=
  ⟨by decide +kernel,
    fun x _ => may_arm _ x,
    by decide +kernel,
    by decide +kernel,
    by decide +kernel,
    by decide +kernel⟩
theorem witness_QueueRegistersAndEntriesTakeEffect_4_1 :
    (wL7.pwr.core = true) ∧ (∀ (x : Right), queueRight 5 = some x → wL7.may wArm.principal x = true) ∧ ((wL7.queue 5).enabled = true) ∧ ((wL7.queue 5).full = false) ∧ ((wL7.queue 5).cqSize ≤ 16) ∧ ((wL7.queue 5).error = false) :=
  ⟨by decide +kernel,
    fun x _ => may_arm _ x,
    by decide +kernel,
    by decide +kernel,
    by decide +kernel,
    by decide +kernel⟩
theorem witness_EbbexRequestsTakeEffect_0_0_0 :
    (wM1.pwr.core = true) ∧ (wM1.pwr.fabric = true) ∧ (wM1.ebx.up.getLsbD 0 = true) ∧ (pM1.payload = []) ∧ (0 < pM1.length) ∧ (pM1.length ≤ 256) ∧ (wM1.window pM1.addr = Window.flash 0 76677120) ∧ (wM1.may (wM1.fabricPrincipal pM1.srcEp) Right.read = true) ∧ (76677120 + pM1.length ≤ 268435456) :=
  ⟨by decide +kernel,
    by decide +kernel,
    by decide +kernel,
    by decide +kernel,
    by decide +kernel,
    by decide +kernel,
    by decide +kernel,
    by
      have e : wM1.princTable = wTab := princTable_wTab _ rfl rfl
      unfold State.may State.rights State.fabricPrincipal
      simp only [e]
      decide +kernel,
    by decide +kernel⟩
theorem witness_EbbexRequestsTakeEffect_0_0_1 :
    (wM1.pwr.core = true) ∧ (wM1.pwr.fabric = true) ∧ (wM1.ebx.up.getLsbD 0 = true) ∧ (pM2.payload = []) ∧ (0 < pM2.length) ∧ (pM2.length ≤ 256) ∧ (wM1.window pM2.addr = Window.flash 0 76677120) ∧ (wM1.may (wM1.fabricPrincipal pM2.srcEp) Right.read = false) :=
  ⟨by decide +kernel,
    by decide +kernel,
    by decide +kernel,
    by decide +kernel,
    by decide +kernel,
    by decide +kernel,
    by decide +kernel,
    by
      have e : wM1.princTable = wTab := princTable_wTab _ rfl rfl
      unfold State.may State.rights State.fabricPrincipal
      simp only [e]
      decide +kernel⟩
theorem witness_EbbexRequestsTakeEffect_0_1 :
    (wM1.pwr.core = true) ∧ (wM1.pwr.fabric = true) ∧ (wM1.ebx.up.getLsbD 0 = true) ∧ (pM3.payload = []) ∧ (0 < pM3.length) ∧ (pM3.length ≤ 256) ∧ (wM1.window pM3.addr = Window.dram 68719476736) ∧ (wM1.may (wM1.fabricPrincipal pM3.srcEp) Right.read = true) ∧ (68719476736 % 4096 + pM3.length ≤ 4096) ∧ (wM1.dread 68719476736 pM3.length = some bM1) :=
  ⟨by decide +kernel,
    by decide +kernel,
    by decide +kernel,
    by decide +kernel,
    by decide +kernel,
    by decide +kernel,
    by decide +kernel,
    by
      have e : wM1.princTable = wTab := princTable_wTab _ rfl rfl
      unfold State.may State.rights State.fabricPrincipal
      simp only [e]
      decide +kernel,
    by decide +kernel,
    by decide +kernel⟩
theorem witness_EbbexRequestsTakeEffect_0_2 :
    (wM1.pwr.core = true) ∧ (wM1.pwr.fabric = true) ∧ (wM1.ebx.up.getLsbD 0 = true) ∧ (pM4.payload = []) ∧ (0 < pM4.length) ∧ (pM4.length ≤ 256) ∧ (wM1.window pM4.addr = Window.dram 137438953472) ∧ (wM1.may (wM1.fabricPrincipal pM4.srcEp) Right.read = true) ∧ (137438953472 % 4096 + pM4.length ≤ 4096) ∧ (wM1.dread 137438953472 pM4.length = none) :=
  ⟨by decide +kernel,
    by decide +kernel,
    by decide +kernel,
    by decide +kernel,
    by decide +kernel,
    by decide +kernel,
    by decide +kernel,
    by
      have e : wM1.princTable = wTab := princTable_wTab _ rfl rfl
      unfold State.may State.rights State.fabricPrincipal
      simp only [e]
      decide +kernel,
    by decide +kernel,
    by decide +kernel⟩
theorem witness_EbbexRequestsTakeEffect_0_2_b :
    (wM5.pwr.core = true) ∧ (wM5.pwr.fabric = true) ∧ (wM5.ebx.up.getLsbD 0 = true) ∧ (pM5.payload = []) ∧ (0 < pM5.length) ∧ (pM5.length ≤ 256) ∧ (wM5.window pM5.addr = Window.dram 128) ∧ (wM5.may (wM5.fabricPrincipal pM5.srcEp) Right.read = true) ∧ (128 % 4096 + pM5.length ≤ 4096) ∧ (wM5.dread 128 pM5.length = none) :=
  ⟨by decide +kernel,
    by decide +kernel,
    by decide +kernel,
    by decide +kernel,
    by decide +kernel,
    by decide +kernel,
    by decide +kernel,
    by
      have e : wM5.princTable = wTab := princTable_wTab _ rfl rfl
      unfold State.may State.rights State.fabricPrincipal
      simp only [e]
      decide +kernel,
    by decide +kernel,
    by decide +kernel⟩
theorem witness_EbbexRequestsTakeEffect_2_0_0 :
    (wM1.pwr.core = true) ∧ (wM1.pwr.fabric = true) ∧ (wM1.ebx.up.getLsbD 0 = true) ∧ (pM12.payload ≠ []) ∧ (List.length pM12.payload ≤ 256) ∧ (wM1.window pM12.addr = Window.dram 68719480816) ∧ (wM1.rights (wM1.fabricPrincipal pM12.srcEp) ≠ 0) ∧ (68719480816 % 4096 + List.length pM12.payload ≤ 4096) ∧ (wM1.dramAcc 68719480816 (List.length pM12.payload) = DramAcc.ok) ∧ (wM1.reserved 68719480816 (List.length pM12.payload) = false) ∧ (wM1.dstBad pM12.addr (List.length pM12.payload) = false) :=
  ⟨by decide +kernel,
    by decide +kernel,
    by decide +kernel,
    by decide +kernel,
    by decide +kernel,
    by decide +kernel,
    by
      have e : wM1.princTable = wTab := princTable_wTab _ rfl rfl
      unfold State.rights State.fabricPrincipal
      simp only [e]
      decide +kernel,
    by decide +kernel,
    by decide +kernel,
    by decide +kernel,
    by decide +kernel⟩
theorem witness_EbbexRequestsTakeEffect_2_0_1 :
    (wM1.pwr.core = true) ∧ (wM1.pwr.fabric = true) ∧ (wM1.ebx.up.getLsbD 0 = true) ∧ (pM12.payload ≠ []) ∧ (List.length pM12.payload ≤ 256) ∧ (wM1.window pM12.addr = Window.dram 68719480816) ∧ (wM1.rights (wM1.fabricPrincipal pM12.srcEp) ≠ 0) ∧ (68719480816 % 4096 + List.length pM12.payload ≤ 4096) ∧ (wM1.dramAcc 68719480816 (List.length pM12.payload) = DramAcc.ok) ∧ (wM1.reserved 68719480816 (List.length pM12.payload) = false) ∧ (wM1.dstBad pM12.addr (List.length pM12.payload) = false) :=
  ⟨by decide +kernel,
    by decide +kernel,
    by decide +kernel,
    by decide +kernel,
    by decide +kernel,
    by decide +kernel,
    by
      have e : wM1.princTable = wTab := princTable_wTab _ rfl rfl
      unfold State.rights State.fabricPrincipal
      simp only [e]
      decide +kernel,
    by decide +kernel,
    by decide +kernel,
    by decide +kernel,
    by decide +kernel⟩
theorem witness_EbbexRequestsTakeEffect_2_1 :
    (wM1.pwr.core = true) ∧ (wM1.pwr.fabric = true) ∧ (wM1.ebx.up.getLsbD 0 = true) ∧ (pM14.payload ≠ []) ∧ (List.length pM14.payload ≤ 256) ∧ (wM1.window pM14.addr = Window.dram 68719476736) ∧ (wM1.rights (wM1.fabricPrincipal pM14.srcEp) = 0) :=
  ⟨by decide +kernel,
    by decide +kernel,
    by decide +kernel,
    by decide +kernel,
    by decide +kernel,
    by decide +kernel,
    by
      have e : wM1.princTable = wTab := princTable_wTab _ rfl rfl
      unfold State.rights State.fabricPrincipal
      simp only [e]
      decide +kernel⟩
theorem witness_EbbexRequestsTakeEffect_2_3 :
    (wM1.pwr.core = true) ∧ (wM1.pwr.fabric = true) ∧ (wM1.ebx.up.getLsbD 0 = true) ∧ (pM16.payload ≠ []) ∧ (List.length pM16.payload ≤ 256) ∧ (wM1.window pM16.addr = Window.reg 4148) ∧ (List.length pM16.payload = 4) ∧ (4148 % 4 = 0) ∧ ((wM1.credit 0 0 1).writeDenied (fabricReq (wM1.fabricPrincipal pM16.srcEp) pM16.tag) 4148 = false) :=
  ⟨by decide +kernel,
    by decide +kernel,
    by decide +kernel,
    by decide +kernel,
    by decide +kernel,
    by decide +kernel,
    by decide +kernel,
    by decide +kernel,
    by
      have e : (wM1.credit 0 0 1).princTable = wTab := princTable_wTab _ rfl rfl
      have e2 : wM1.princTable = wTab := princTable_wTab _ rfl rfl
      unfold State.writeDenied State.may State.rights State.fabricPrincipal
      simp only [e, e2]
      decide +kernel⟩
theorem witness_ManagementTakesEffect_0_0 :
    (wN8.inService = true) ∧ (wN8.mgt.portDown.getLsbD 0 = false) ∧ (63 < 64) ∧ (wN8.mgt.tls.length < 32) ∧ (true = true → wN8.pair.st = PairSt.lead) ∧ (wN8.tlsPrincipal 5 ≠ unknownPrincipal) ∧ (wN8.certOk 0 18446744073709551615 = true) :=
  ⟨by decide +kernel,
    by decide +kernel,
    by decide +kernel,
    by decide +kernel,
    by decide +kernel,
    by
      have e : wN8.princTable = wTab := princTable_wTab _ rfl rfl
      unfold State.tlsPrincipal
      simp only [e]
      decide +kernel,
    by decide +kernel⟩
theorem witness_ManagementTakesEffect_0_1 :
    (wN8.inService = true) ∧ (wN8.mgt.portDown.getLsbD 0 = false) ∧ (0 < 64) ∧ (wN8.mgt.tls.length < 32) ∧ (false = true → wN8.pair.st = PairSt.lead) ∧ (wN8.tlsPrincipal 6 = unknownPrincipal ∨ wN8.certOk 0 18446744073709551615 = false) :=
  ⟨by decide +kernel,
    by decide +kernel,
    by decide +kernel,
    by decide +kernel,
    by decide +kernel,
    by
      have e : wN8.princTable = wTab := princTable_wTab _ rfl rfl
      unfold State.tlsPrincipal
      simp only [e]
      decide +kernel⟩
theorem witness_ManagementTakesEffect_3_0_0 :
    (wN13.inService = true) ∧ (wN13.mgt.tls.contains wTlsReq.principal = true) ∧ (wTlsReq = { path := Path.management, principal := wTlsReq.principal, queue := none, tag := wTlsReq.tag, event := wTlsReq.event : Req }) ∧ (wN13.may wTlsReq.principal Right.read = true) :=
  ⟨by decide +kernel,
    by decide +kernel,
    by decide +kernel,
    by
      have e : wN13.princTable = wTab := princTable_wTab _ rfl rfl
      unfold State.may State.rights
      simp only [e]
      decide +kernel⟩
theorem witness_ManagementTakesEffect_3_0_1 :
    (wN13.inService = true) ∧ (wN13.mgt.tls.contains wTlsReq.principal = true) ∧ (wTlsReq = { path := Path.management, principal := wTlsReq.principal, queue := none, tag := wTlsReq.tag, event := wTlsReq.event : Req }) ∧ (wN13.may wTlsReq.principal Right.read = true) ∧ (wN13.mgt.subs.length < 16) :=
  ⟨by decide +kernel,
    by decide +kernel,
    by decide +kernel,
    by
      have e : wN13.princTable = wTab := princTable_wTab _ rfl rfl
      unfold State.may State.rights
      simp only [e]
      decide +kernel,
    by decide +kernel⟩
theorem witness_ManagementTakesEffect_3_0_2 :
    (wN15.inService = true) ∧ (wN15.mgt.tls.contains wTlsReq.principal = true) ∧ (wTlsReq = { path := Path.management, principal := wTlsReq.principal, queue := none, tag := wTlsReq.tag, event := wTlsReq.event : Req }) ∧ (wN15.may wTlsReq.principal Right.read = true) :=
  ⟨by decide +kernel,
    by decide +kernel,
    by decide +kernel,
    by
      have e : wN15.princTable = wTab := princTable_wTab _ rfl rfl
      unfold State.may State.rights
      simp only [e]
      decide +kernel⟩
theorem witness_ManagementTakesEffect_3_1 :
    (wN16.inService = true) ∧ (wN16.mgt.tls.contains wNoRead.principal = true) ∧ (wNoRead = { path := Path.management, principal := wNoRead.principal, queue := none, tag := wNoRead.tag, event := wNoRead.event : Req }) ∧ (wN16.may wNoRead.principal Right.read = false) :=
  ⟨by decide +kernel,
    by decide +kernel,
    by decide +kernel,
    by
      have e : wN16.princTable = wTab := princTable_wTab _ rfl rfl
      unfold State.may State.rights
      simp only [e]
      decide +kernel⟩
theorem witness_PairLinkAndHandoverTakeEffect_0_2_0 :
    (wP29.pwr.core = true) ∧ (wP29.pair.lanes ≠ 0#2) ∧ (wP29.pair.st = PairSt.partner) ∧ (wP29.shadowLink = true) ∧ ((1, 0, 0, 0) ≠ wP29.shadowIds) :=
  ⟨by decide +kernel,
    by decide +kernel,
    by decide +kernel,
    by decide +kernel,
    fun h => absurd (congrArg Prod.fst h) (by decide +kernel)⟩
theorem witness_PairLinkAndHandoverTakeEffect_0_2_1 :
    (wP30.pwr.core = true) ∧ (wP30.pair.lanes ≠ 0#2) ∧ (wP30.pair.st = PairSt.partner) ∧ (wP30.shadowLink = true) ∧ ((0, 255, Config.sha384 [], Config.sha384 wRun.optBytes) = wP30.shadowIds) :=
  ⟨by decide +kernel,
    by decide +kernel,
    by decide +kernel,
    by decide +kernel,
    shadowIds_empty⟩
theorem witness_RegisterAccessTakesEffect_3_0 :
    (wRun.pwr.core = true) ∧ (0 < 16) ∧ (4148 < 65536) ∧ (4148 % 4 = 0) ∧ (4148 = 65536 * 0 + 4148) ∧ (wRun.may armPrincipal Right.read = true) ∧ (4148 ≠ 16) ∧ (4148 ≠ 24) ∧ (Option.any (fun x => x.fst == 4148) (secondSel 0) = false) ∧ (wRun.regAt Path.armature 0 4148 = some (wDef wRun 0 4148)) ∧ ((wDef wRun 0 4148).words = 1) :=
  ⟨by decide +kernel,
    by decide +kernel,
    by decide +kernel,
    by decide +kernel,
    by decide +kernel,
    by decide +kernel,
    by decide +kernel,
    by decide +kernel,
    by decide +kernel,
    getD_of (by decide +kernel),
    by decide +kernel⟩
theorem witness_RegisterAccessTakesEffect_3_1 :
    (wRun.pwr.core = true) ∧ (0 < 16) ∧ (4100 < 65536) ∧ (4100 % 4 = 0) ∧ (4100 = 65536 * 0 + 4100) ∧ (wRun.may armPrincipal Right.read = true) ∧ (4100 ≠ 16) ∧ (4100 ≠ 24) ∧ (Option.any (fun x => x.fst == 4100) (secondSel 0) = false) ∧ (wRun.regAt Path.armature 0 4100 = some (wDef wRun 0 4100)) ∧ ((wDef wRun 0 4100).words ≠ 1) ∧ (4100 = (wDef wRun 0 4100).off) ∧ (¬(0 = 2 ∧ 4100 = 4160)) :=
  ⟨by decide +kernel,
    by decide +kernel,
    by decide +kernel,
    by decide +kernel,
    by decide +kernel,
    by decide +kernel,
    by decide +kernel,
    by decide +kernel,
    by decide +kernel,
    getD_of (by decide +kernel),
    by decide +kernel,
    by decide +kernel,
    by decide +kernel⟩
theorem witness_RegisterAccessTakesEffect_3_2 :
    (wQ5.pwr.core = true) ∧ (0 < 16) ∧ (4108 < 65536) ∧ (4108 % 4 = 0) ∧ (4108 = 65536 * 0 + 4108) ∧ (wQ5.may armPrincipal Right.read = true) ∧ (4108 ≠ 16) ∧ (4108 ≠ 24) ∧ (Option.any (fun x => x.fst == 4108) (secondSel 0) = false) ∧ (wQ5.regAt Path.armature 0 4108 = some (wDef wQ5 0 4108)) ∧ ((wDef wQ5 0 4108).words ≠ 1) ∧ ((wDef wQ5 0 4108).off + 4 ≤ 4108) ∧ (endsRecord 0 4108 = false) ∧ ((wQ5.pb Path.armature 0).snap = some ((wDef wQ5 0 4108).off, [1, 2, 3])) :=
  ⟨by decide +kernel,
    by decide +kernel,
    by decide +kernel,
    by decide +kernel,
    by decide +kernel,
    by decide +kernel,
    by decide +kernel,
    by decide +kernel,
    by decide +kernel,
    getD_of (by decide +kernel),
    by decide +kernel,
    by decide +kernel,
    by decide +kernel,
    by decide +kernel⟩
theorem witness_RegisterAccessTakesEffect_3_3 :
    (wRun.pwr.core = true) ∧ (0 < 16) ∧ (4104 < 65536) ∧ (4104 % 4 = 0) ∧ (4104 = 65536 * 0 + 4104) ∧ (wRun.may armPrincipal Right.read = true) ∧ (4104 ≠ 16) ∧ (4104 ≠ 24) ∧ (Option.any (fun x => x.fst == 4104) (secondSel 0) = false) ∧ (wRun.regAt Path.armature 0 4104 = some (wDef wRun 0 4104)) ∧ ((wDef wRun 0 4104).words ≠ 1) ∧ ((wDef wRun 0 4104).off + 4 ≤ 4104) ∧ ((wRun.pb Path.armature 0).snap = none) ∧ (¬(0 = 9 ∧ (wDef wRun 0 4104).off = 4096)) :=
  ⟨by decide +kernel,
    by decide +kernel,
    by decide +kernel,
    by decide +kernel,
    by decide +kernel,
    by decide +kernel,
    by decide +kernel,
    by decide +kernel,
    by decide +kernel,
    getD_of (by decide +kernel),
    by decide +kernel,
    by decide +kernel,
    by decide +kernel,
    by decide +kernel⟩
theorem witness_RegisterAccessTakesEffect_4_0 :
    (wQ6.pwr.core = true) ∧ (2 < 16) ∧ (4112 < 65536) ∧ (4112 % 4 = 0) ∧ (135184 = 65536 * 2 + 4112) ∧ (4112 ≠ 16) ∧ (4112 ≠ 24) ∧ (Option.any (fun x => x.fst == 4112) (secondSel 2) = false) ∧ (wQ6.regAt wArm.path 2 4112 = some (wDef wQ6 2 4112)) ∧ ((wDef wQ6 2 4112).put = some (wPut wQ6 2 4112)) ∧ ((wDef wQ6 2 4112).wl = true) ∧ (wQ6.rst.locked = true ∨ wArm.principal ≠ armPrincipal) :=
  ⟨by decide +kernel,
    by decide +kernel,
    by decide +kernel,
    by decide +kernel,
    by decide +kernel,
    by decide +kernel,
    by decide +kernel,
    by decide +kernel,
    getD_of (by decide +kernel),
    getD_of (by decide +kernel),
    by decide +kernel,
    by decide +kernel⟩
theorem witness_RegisterAccessTakesEffect_4_1 :
    (wRun.pwr.core = true) ∧ (0 < 16) ∧ (4148 < 65536) ∧ (4148 % 4 = 0) ∧ (4148 = 65536 * 0 + 4148) ∧ (4148 ≠ 16) ∧ (4148 ≠ 24) ∧ (Option.any (fun x => x.fst == 4148) (secondSel 0) = false) ∧ (wRun.regAt wNone.path 0 4148 = some (wDef wRun 0 4148)) ∧ ((wDef wRun 0 4148).put = some (wPut wRun 0 4148)) ∧ ((wDef wRun 0 4148).wl = false) ∧ ((wDef wRun 0 4148).right = some Right.reset) ∧ (wRun.may wNone.principal Right.reset = false) :=
  ⟨by decide +kernel,
    by decide +kernel,
    by decide +kernel,
    by decide +kernel,
    by decide +kernel,
    by decide +kernel,
    by decide +kernel,
    by decide +kernel,
    getD_of (by decide +kernel),
    getD_of (by decide +kernel),
    by decide +kernel,
    by decide +kernel,
    by decide +kernel⟩
theorem witness_RegisterAccessTakesEffect_4_2_0 :
    (wRun.pwr.core = true) ∧ (0 < 16) ∧ (4148 < 65536) ∧ (4148 % 4 = 0) ∧ (4148 = 65536 * 0 + 4148) ∧ (4148 ≠ 16) ∧ (4148 ≠ 24) ∧ (Option.any (fun x => x.fst == 4148) (secondSel 0) = false) ∧ (wRun.regAt wArm.path 0 4148 = some (wDef wRun 0 4148)) ∧ ((wDef wRun 0 4148).put = some (wPut wRun 0 4148)) ∧ ((wDef wRun 0 4148).wl = true → wRun.rst.locked = false ∧ wArm.principal = armPrincipal) ∧ ((wDef wRun 0 4148).wl = false → ∀ (x : Right), (wDef wRun 0 4148).right = some x → wRun.may wArm.principal x = true) ∧ ((wDef wRun 0 4148).words = 1) :=
  ⟨by decide +kernel,
    by decide +kernel,
    by decide +kernel,
    by decide +kernel,
    by decide +kernel,
    by decide +kernel,
    by decide +kernel,
    by decide +kernel,
    getD_of (by decide +kernel),
    getD_of (by decide +kernel),
    by decide +kernel,
    fun _ x _ => may_arm _ x,
    by decide +kernel⟩
theorem witness_RegisterAccessTakesEffect_4_2_0_b :
    (wQ7.pwr.core = true) ∧ (2 < 16) ∧ (4112 < 65536) ∧ (4112 % 4 = 0) ∧ (135184 = 65536 * 2 + 4112) ∧ (4112 ≠ 16) ∧ (4112 ≠ 24) ∧ (Option.any (fun x => x.fst == 4112) (secondSel 2) = false) ∧ (wQ7.regAt wArm.path 2 4112 = some (wDef wQ7 2 4112)) ∧ ((wDef wQ7 2 4112).put = some (wPut wQ7 2 4112)) ∧ ((wDef wQ7 2 4112).wl = true → wQ7.rst.locked = false ∧ wArm.principal = armPrincipal) ∧ ((wDef wQ7 2 4112).wl = false → ∀ (x : Right), (wDef wQ7 2 4112).right = some x → wQ7.may wArm.principal x = true) ∧ ((wDef wQ7 2 4112).words = 1) :=
  ⟨by decide +kernel,
    by decide +kernel,
    by decide +kernel,
    by decide +kernel,
    by decide +kernel,
    by decide +kernel,
    by decide +kernel,
    by decide +kernel,
    getD_of (by decide +kernel),
    getD_of (by decide +kernel),
    by decide +kernel,
    fun _ x _ => may_arm _ x,
    by decide +kernel⟩
theorem witness_RegisterAccessTakesEffect_4_2_1 :
    (wRun.pwr.core = true) ∧ (13 < 16) ∧ (4096 < 65536) ∧ (4096 % 4 = 0) ∧ (856064 = 65536 * 13 + 4096) ∧ (4096 ≠ 16) ∧ (4096 ≠ 24) ∧ (Option.any (fun x => x.fst == 4096) (secondSel 13) = false) ∧ (wRun.regAt wArm.path 13 4096 = some (wDef wRun 13 4096)) ∧ ((wDef wRun 13 4096).put = some (wPut wRun 13 4096)) ∧ ((wDef wRun 13 4096).wl = true → wRun.rst.locked = false ∧ wArm.principal = armPrincipal) ∧ ((wDef wRun 13 4096).wl = false → ∀ (x : Right), (wDef wRun 13 4096).right = some x → wRun.may wArm.principal x = true) ∧ ((wDef wRun 13 4096).words ≠ 1) ∧ ((wRun.pb wArm.path 13).stage = none) ∧ ((wDef wRun 13 4096).roMask = 0) ∧ ((4096 - (wDef wRun 13 4096).off) / 4 + 1 < (wDef wRun 13 4096).words) :=
  ⟨by decide +kernel,
    by decide +kernel,
    by decide +kernel,
    by decide +kernel,
    by decide +kernel,
    by decide +kernel,
    by decide +kernel,
    by decide +kernel,
    getD_of (by decide +kernel),
    getD_of (by decide +kernel),
    by decide +kernel,
    fun _ x _ => may_arm _ x,
    by decide +kernel,
    by decide +kernel,
    by decide +kernel,
    by decide +kernel⟩
theorem witness_RegisterAccessTakesEffect_4_2_2 :
    (wQ8.pwr.core = true) ∧ (13 < 16) ∧ (4100 < 65536) ∧ (4100 % 4 = 0) ∧ (856068 = 65536 * 13 + 4100) ∧ (4100 ≠ 16) ∧ (4100 ≠ 24) ∧ (Option.any (fun x => x.fst == 4100) (secondSel 13) = false) ∧ (wQ8.regAt wArm.path 13 4100 = some (wDef wQ8 13 4100)) ∧ ((wDef wQ8 13 4100).put = some (wPut wQ8 13 4100)) ∧ ((wDef wQ8 13 4100).wl = true → wQ8.rst.locked = false ∧ wArm.principal = armPrincipal) ∧ ((wDef wQ8 13 4100).wl = false → ∀ (x : Right), (wDef wQ8 13 4100).right = some x → wQ8.may wArm.principal x = true) ∧ ((wDef wQ8 13 4100).words = 2) ∧ ((wDef wQ8 13 4100).roMask = 0) ∧ (4100 = (wDef wQ8 13 4100).off + 4) ∧ ((wQ8.pb wArm.path 13).stage = some ((wDef wQ8 13 4100).off, [(0, 5)])) :=
  ⟨by decide +kernel,
    by decide +kernel,
    by decide +kernel,
    by decide +kernel,
    by decide +kernel,
    by decide +kernel,
    by decide +kernel,
    by decide +kernel,
    getD_of (by decide +kernel),
    getD_of (by decide +kernel),
    by decide +kernel,
    fun _ x _ => may_arm _ x,
    by decide +kernel,
    by decide +kernel,
    by decide +kernel,
    by decide +kernel⟩
theorem witness_RegisterAccessTakesEffect_5 :
    (wRun.pwr.core = true) ∧ (0 < 16) ∧ (4100 < 65536) ∧ (4100 % 4 = 0) ∧ (4100 = 65536 * 0 + 4100) ∧ (4100 ≠ 16) ∧ (4100 ≠ 24) ∧ (Option.any (fun x => x.fst == 4100) (secondSel 0) = false) ∧ (wRun.regAt wArm.path 0 4100 = some (wDef wRun 0 4100)) ∧ ((wDef wRun 0 4100).put = none) :=
  ⟨by decide +kernel,
    by decide +kernel,
    by decide +kernel,
    by decide +kernel,
    by decide +kernel,
    by decide +kernel,
    by decide +kernel,
    by decide +kernel,
    getD_of (by decide +kernel),
    Option.isNone_iff_eq_none.mp (by decide +kernel)⟩

/-! ## Ill-formed commands: each check refuses a command that fails it alone -/

/-- A request whose TAG does not fit, and a packet whose class does not fit. -/
def wBad : Req := ⟨.armature, 0, none, 2 ^ 32, false⟩
def wPk0 : Packet := ⟨0, 0, 0, 0, 0, 0, 0, 0, []⟩
def wPkBad : Packet := { wPk0 with cls := 256 }

theorem wf_refuses_requests : [⟨.armature, 2 ^ 32, none, 0, false⟩, ⟨.armature, 0, none, 2 ^ 32, false⟩, ⟨.armature, 0, some 8, 0, false⟩].all (fun r : Req => !r.wf) = true := by
  decide +kernel
theorem wf_refuses_packets : [{ wPk0 with cls := 256 },
    { wPk0 with status := 256 },
    { wPk0 with length := 2 ^ 16 },
    { wPk0 with srcEp := 2 ^ 12 },
    { wPk0 with dstEp := 2 ^ 12 },
    { wPk0 with tag := 2 ^ 16 },
    { wPk0 with principal := 2 ^ 32 },
    { wPk0 with addr := 2 ^ 64 }].all (fun p : Packet => !p.wf) = true := by
  decide +kernel
theorem wf_accepts : wArm.wf = true ∧ wPk0.wf = true ∧ (Instr.readReq 0 wPk0).wf = true := by decide +kernel
theorem wf_refuses_0 : ([.inputGood 4 false 0 false ⟨false, ⟨0, 0⟩⟩,
    .inputGood 0 false 4 false ⟨false, ⟨0, 0⟩⟩,
    .inputGood 0 false 0 false ⟨false, ⟨2 ^ 16, 0⟩⟩,
    .swResetModule wBad 0,
    .swResetModule wArm (2 ^ 64),
    .swResetCoreDie wBad 0,
    .swResetCoreDie wArm (2 ^ 64),
    .swResetCaliper wBad 0,
    .swResetCaliper wArm (2 ^ 64),
    .swResetArmature wBad 0,
    .swResetArmature wArm (2 ^ 64),
    .swResetRefused wBad 0,
    .swResetRefused wArm (2 ^ 64),
    .debugAuthorisedReset (2 ^ 64),
    .armatureLockstepCheck 16,
    .startStepTimeout 21,
    .startStepRetryTimer 21 false,
    .ledgerFlashMirror 53,
    .dimmTrainingDone 4 false false false 0 0 0,
    .dimmTrainingDone 0 false false false (2 ^ 64) 0 0,
    .dimmTrainingDone 0 false false false 0 (2 ^ 64) 0,
    .dimmTrainingDone 0 false false false 0 0 (2 ^ 64),
    .caliperSelfTest (2 ^ 16),
    .deferredBlockCheck (2 ^ 64) [],
    .debugNonceRead .armature (2 ^ 32)] : List Instr).all (fun c => !c.wf) = true := by
  decide +kernel
theorem wf_refuses_1 : ([.maqStore wBad [] none,
    .maqSwitch wBad [],
    .maqCancel wBad [],
    .maqVerify wBad [],
    .maqSetMinVersion wBad [],
    .profilePinsStable 4,
    .installFw wBad [] none,
    .commitFw wBad,
    .updatePlaster wBad [] none,
    .storeSiteImage wBad [] none,
    .pushSite wBad 0,
    .pushSite wArm (2 ^ 64),
    .sitePushDone 8 none,
    .activateSite wBad 0,
    .activateSite wArm (2 ^ 64),
    .versionReport wBad [],
    .helloSession wBad [],
    .revokeKeys wBad [],
    .optionUpdate wBad [],
    .keyProvision wBad [],
    .revminRestore wBad [],
    .debugOpen wBad [],
    .principalSet wBad [],
    .controlRecordRefused wBad [],
    .plasterImageReceived ⟨[], .differs 1024⟩] : List Instr).all (fun c => !c.wf) = true := by
  decide +kernel
theorem wf_refuses_2 : ([.clockGrant 4,
    .clockGrantTimeout 4 0,
    .clockGrantTimeout 0 16,
    .clockIdleExpiry 4,
    .lockstepMismatch 4,
    .siteUp wBad 0,
    .siteUp wArm (2 ^ 64),
    .siteDown wBad 0,
    .siteDown wArm (2 ^ 64),
    .siteClear wBad 0,
    .siteClear wArm (2 ^ 64),
    .siteAdopt wBad 0,
    .siteAdopt wArm (2 ^ 64),
    .siteIdentify wBad 0,
    .siteIdentify wArm (2 ^ 64),
    .siteCmdInvalid wBad 0 0,
    .siteCmdInvalid wArm (2 ^ 64) 0,
    .siteCmdInvalid wArm 0 (2 ^ 64),
    .sitePresentAsserted 8,
    .siteSettleExpiry 8,
    .siteIdentityRead 8 [],
    .siteIdromRereadTimer 8 [],
    .sitePresenceLost 8,
    .siteRetryWaitExpiry 8,
    .siteAdoption 8 [] 0 0 0 0 [] 0] : List Instr).all (fun c => !c.wf) = true := by
  decide +kernel
theorem wf_refuses_3 : ([.siteAdoption 0 [] (2 ^ 32) 0 0 0 [] 0,
    .siteAdoption 0 [] 0 (2 ^ 32) 0 0 [] 0,
    .siteAdoption 0 [] 0 0 (2 ^ 32) 0 [] 0,
    .siteAdoption 0 [] 0 0 0 (2 ^ 12) [] 0,
    .siteAdoption 0 [] 0 0 0 0 [] (2 ^ 32),
    .railUpDelayExpiry 280,
    .railPgChange 280 false,
    .railQualifyExpiry 280,
    .railRiseTimeout 280,
    .railPgLossTimer 280,
    .railDownDelayExpiry 280,
    .railFallTimeout 280,
    .railBackoffExpiry 280,
    .railRetryCountReset 280,
    .pmbusWriteDone 280 false,
    .pmbusPgPoll 280 none,
    .moduleGroupResequence (2 ^ 64),
    .wardenBrownout 8,
    .wardenSupervisorReset 8,
    .wardenReload 8,
    .surveySample 16 0 ⟨0, false⟩,
    .surveySample 0 26 ⟨0, false⟩,
    .surveySlowScanTimer 16,
    .surveyStaleTimeout 384,
    .surveyBusTimeout 16] : List Instr).all (fun c => !c.wf) = true := by
  decide +kernel
theorem wf_refuses_4 : ([.railCntClr wBad 0 0,
    .railCntClr wArm (2 ^ 64) 0,
    .railCntClr wArm 0 (2 ^ 64),
    .logDeviceTimeout 2,
    .logReadFromWrite .armature (2 ^ 32) 0,
    .logReadFromWrite .armature 0 (2 ^ 64),
    .snapshotBankEraseDone 2,
    .holdupBegin (2 ^ 64),
    .telemetryRecord 2 0 [],
    .telemetryRecord 0 (2 ^ 12) [],
    .wardenTelemetryPoll 8 none,
    .telemetryStaleTimeout 8,
    .jobRelease wBad 0,
    .jobRelease wArm (2 ^ 64),
    .trayBudgetWrite wBad 0,
    .capSwBoundWrite wBad 0 0 0,
    .capSwBoundWrite wArm (2 ^ 64) 0 0,
    .capSwBoundWrite wArm 0 (2 ^ 64) 0,
    .capGuardWindow 8,
    .siteThrottleForceWrite wBad 0 0,
    .siteThrottleForceWrite wArm (2 ^ 64) 0,
    .siteThrottleForceWrite wArm 0 (2 ^ 64),
    .siteVout wBad 0 0 0,
    .siteVout wArm (2 ^ 64) 0 0,
    .siteVout wArm 0 (2 ^ 64) 0] : List Instr).all (fun c => !c.wf) = true := by
  decide +kernel
theorem wf_refuses_5 : ([.siteVout wArm 0 0 (2 ^ 64),
    .peakClr wBad 0,
    .peakClr wArm (2 ^ 64),
    .reliefVoltageCrossing (2 ^ 16),
    .reliefStage2 (2 ^ 16) 0,
    .reliefReleaseCondition ⟨2 ^ 16, 0⟩,
    .chiselStaleFallbackExpiry 8,
    .chiselSwBoundWrite wBad 0 0 false 0,
    .chiselSwBoundWrite wArm (2 ^ 64) 0 false 0,
    .chiselSwBoundWrite wArm 0 (2 ^ 64) false 0,
    .chiselFreeze wBad [],
    .chiselThaw wBad [],
    .chiselReset wBad [],
    .chiselExport wBad [],
    .chiselImport wBad [] none,
    .fanStartTimeout 40,
    .fanStallTimerExpiry 40,
    .fanSeizedTimerExpiry 40,
    .fanTargetWrite wBad 0 0,
    .fanTargetWrite wArm (2 ^ 64) 0,
    .fanTargetWrite wArm 0 (2 ^ 64),
    .fanClear wBad 0,
    .fanClear wArm (2 ^ 64),
    .coolWdtRefresh wBad,
    .valveCmdWrite wBad 0 0] : List Instr).all (fun c => !c.wf) = true := by
  decide +kernel
theorem wf_refuses_6 : ([.valveCmdWrite wArm (2 ^ 64) 0,
    .valveCmdWrite wArm 0 (2 ^ 64),
    .valveTravelTimeout 16,
    .valvePosChange 16 false,
    .valveUncommandedTimer 16,
    .flowRateUpdate 16 0,
    .flowRateUpdate 0 (2 ^ 64),
    .flowLossTimeExpiry 16,
    .coolantLossEndTimer 32,
    .zoneSensorExclusion 16 0,
    .zoneSensorExclusion 0 8,
    .zoneSensorReadmission 16 0,
    .zoneSensorReadmission 0 8,
    .zoneColdLieCheck 16,
    .zoneGuardExitTimer 16,
    .zoneClear wBad 0,
    .zoneClear wArm (2 ^ 64),
    .leakRopeReading 16 0 0,
    .leakRopeReading 0 (2 ^ 64) 0,
    .leakRopeReading 0 0 (2 ^ 64),
    .leakPointSample 32 false false,
    .leakClear wBad 0,
    .leakClear wArm (2 ^ 64),
    .braceRequest wBad,
    .shakePeakClr wBad] : List Instr).all (fun c => !c.wf) = true := by
  decide +kernel
theorem wf_refuses_7 : ([.syncCalPeriod 13,
    .calFrame [] (2 ^ 64),
    .echoFrame 13 [] 0,
    .echoFrame 0 [] (2 ^ 64),
    .syncFrameDiscard 13,
    .armRun wBad [] none,
    .launchRun wBad [],
    .disarmRun wBad [],
    .closeRun wBad [],
    .promoteManager wBad,
    .armEntryExpiry (2 ^ 64),
    .ackFrame 13 [],
    .resultFrame 13 [],
    .launchDeadline (2 ^ 64),
    .launchCountReached (2 ^ 64),
    .siteDumapReport 8 [],
    .auditOffer 2 0 [],
    .auditOffer 0 (2 ^ 12) [],
    .caliperFirstComputeDone (2 ^ 64) 0 [],
    .caliperFirstComputeDone 0 16 [],
    .caliperRecomputeDone (2 ^ 64) 0 [],
    .caliperRecomputeDone 0 16 [],
    .caliperFetchTimeout ⟨2 ^ 64, 0⟩,
    .caliperFetchTimeout ⟨0, 16⟩,
    .caliperOfferRetainExpiry (2 ^ 64)] : List Instr).all (fun c => !c.wf) = true := by
  decide +kernel
theorem wf_refuses_8 : ([.runTableIdleExpiry (2 ^ 64),
    .checkDesc wBad [] [],
    .computeDesc wBad [] [],
    .gaugeLoad wBad [] none,
    .gaugeInvoke wBad [],
    .gaugeUnload wBad [],
    .gaugeInvocation 8,
    .gaugeInvocationDone 8,
    .calAuditRateWrite wBad 0 0,
    .calAuditRateWrite wArm (2 ^ 64) 0,
    .calAuditRateWrite wArm 0 (2 ^ 64),
    .calAuditKeyWrite wBad 0,
    .calAuditKeyWrite wArm (2 ^ 256),
    .calCovClr wBad 0,
    .calCovClr wArm (2 ^ 64),
    .calDisFromWrite .armature (2 ^ 32) 0,
    .calDisFromWrite .armature 0 (2 ^ 64),
    .emissionRecord 2 0 [],
    .emissionRecord 0 (2 ^ 12) [],
    .bindInput 2 0 [],
    .bindInput 0 (2 ^ 12) [],
    .bindWeights 2 0 [],
    .bindWeights 0 (2 ^ 12) [],
    .jrnGapWaitExpiry (2 ^ 64),
    .jrnSeqIdleExpiry (2 ^ 64)] : List Instr).all (fun c => !c.wf) = true := by
  decide +kernel
theorem wf_refuses_9 : ([.spotCheckDone 8 0 none [],
    .spotCheckDone 0 (2 ^ 64) none [],
    .jrnSealWaitExpiry (2 ^ 64),
    .manifestSigned (2 ^ 64) false,
    .exportManifest wBad [],
    .exportSeq wBad [],
    .exportLog wBad [],
    .hashRange wBad [] none,
    .spotCheck wBad [],
    .memRemove wBad 0,
    .memRemove wArm (2 ^ 64),
    .memReturn wBad 0 false,
    .memReturn wArm (2 ^ 64) false,
    .memFillDone 4,
    .memReadErrorDetected 4 0 0 0 false,
    .memReadErrorDetected 0 (2 ^ 64) 0 0 false,
    .memReadErrorDetected 0 0 (2 ^ 64) 0 false,
    .memReadErrorDetected 0 0 0 (2 ^ 64) false,
    .memSpdSilentTimeout 4,
    .memScrubBurst 4 [],
    .sramParityError 2 0 0,
    .sramParityError 0 5 0,
    .sramParityError 0 0 (2 ^ 64),
    .doorbellSqTail wBad 0 0,
    .doorbellSqTail wArm (2 ^ 64) 0] : List Instr).all (fun c => !c.wf) = true := by
  decide +kernel
theorem wf_refuses_10 : ([.doorbellSqTail wArm 0 (2 ^ 64),
    .queueSizeWrite wBad 0 false 0,
    .queueSizeWrite wArm (2 ^ 64) false 0,
    .queueSizeWrite wArm 0 false (2 ^ 64),
    .cqHeadWrite wBad 0 0,
    .cqHeadWrite wArm (2 ^ 64) 0,
    .cqHeadWrite wArm 0 (2 ^ 64),
    .engineEntryTake 8,
    .copyMem wBad [],
    .fillMem wBad [],
    .flashRead wBad [],
    .readReq 2 wPk0,
    .readReq 0 wPkBad,
    .writeReq 2 wPk0,
    .writeReq 0 wPkBad,
    .readResp 2 wPk0,
    .readResp 0 wPkBad,
    .writeAck 2 wPk0,
    .writeAck 0 wPkBad,
    .errorResp 2 wPk0,
    .errorResp 0 wPkBad,
    .postedWrite 2 wPk0,
    .postedWrite 0 wPkBad,
    .messageInvalid 2 wPk0,
    .messageInvalid 0 wPkBad] : List Instr).all (fun c => !c.wf) = true := by
  decide +kernel
theorem wf_refuses_11 : ([.messageCoalesced 2 wPk0,
    .messageCoalesced 0 wPkBad,
    .creditPacket 2 wPk0,
    .creditPacket 0 wPkBad,
    .linkPacket 2 0,
    .linkPacket 0 (2 ^ 12),
    .ebxPacketDiscard 2 false wPk0,
    .ebxPacketDiscard 0 false wPkBad,
    .ebxPortDown 2 0,
    .ebxPortDown 0 (2 ^ 64),
    .ebxPortRetrain 2 false,
    .ebxRequestTimeout (2 ^ 16),
    .eventForward (2 ^ 64) [],
    .eventPushRetry (2 ^ 64) false,
    .tlsConnect 2 0 0 0 [] 0 false,
    .tlsConnect 0 0 (2 ^ 64) 0 [] 0 false,
    .tlsConnect 0 0 0 (2 ^ 64) [] 0 false,
    .tlsConnect 0 0 0 0 [] (2 ^ 64) false,
    .redfishRequest wBad .subscribe,
    .telemetryStreamPeriod (2 ^ 64) false,
    .ptpMessage 2 0 0 false,
    .ptpMessage 0 256 0 false,
    .ptpMessage 0 0 (2 ^ 64) false,
    .pairClaimDelayExpiry (2 ^ 64),
    .pairOwnNIdleTimeout (2 ^ 64)] : List Instr).all (fun c => !c.wf) = true := by
  decide +kernel
theorem wf_refuses_12 : ([.pairTakeoverHang (2 ^ 64),
    .pairLinkChange 2 false,
    .handoverLead wBad,
    .takeLead wBad,
    .holdSet wBad 0,
    .holdSet wArm (2 ^ 64),
    .selectWrite wBad 0 0,
    .selectWrite wArm 0x100000 0,
    .selectWrite wArm 0 (2 ^ 32),
    .snapshotLatchRead .armature (2 ^ 32) 0,
    .snapshotLatchRead .armature 0 0x100000,
    .multiwordLowerWrite wBad 0 0,
    .multiwordLowerWrite wArm 0x100000 0,
    .multiwordLowerWrite wArm 0 (2 ^ 32),
    .multiwordCommitWrite wBad 0 0,
    .multiwordCommitWrite wArm 0x100000 0,
    .multiwordCommitWrite wArm 0 (2 ^ 32),
    .registerReadRefused .armature (2 ^ 32) 0,
    .registerReadRefused .armature 0 0x100000,
    .registerWrite wBad 0 0,
    .registerWrite wArm 0x100000 0,
    .registerWrite wArm 0 (2 ^ 32),
    .wardenResetRelease 8,
    .syncLineLinkUp 13,
    .digestHashDone (2 ^ 64)] : List Instr).all (fun c => !c.wf) = true := by
  decide +kernel
theorem wf_refuses_13 : ([.updateOperationDone (.differs 1024),
    .strapStable 6 false] : List Instr).all (fun c => !c.wf) = true := by
  decide +kernel

/-! ## The manual's worked values -/

/-- R180's worked case: the calibrated scale, and a raw code of 31,470 that reads 1,199.4 mV. -/
theorem test_survey_worked_case : roundDiv ((6400000 : Int) * 16768827) (2 ^ 24) = 6396800 ∧
    ({ calOff := 12, calK := 6396800 } : Chan).convert 0 31470 = 11994 := by decide +kernel

/-- R230's example: 180,000 µJ split 37,500 ns into the interval. -/
theorem test_mark_splits_interval : (⟨0, 100000, 180000000, [], false⟩ : Interval).shares [(0, 1), (37500, 0)] =
    [(1, 67500000), (0, 112500000)] := by decide +kernel

/-- A site of chapter 07's worked division, in watts: demand, bounds and weight. -/
def wShare (demand hi : Nat) (tops : List (Nat × Int)) (weight : Nat) : DivSite :=
  ⟨tops, hi * 1000, 600000, demand * 1000, min demand hi * 1000, true, true, weight, 600000⟩
def wShares : List DivSite :=
  [wShare 2000 2100 [(2, 2100000)] 2, wShare 1900 2100 [(2, 2100000)] 1, wShare 1800 1500 [(2, 2100000), (3, 1500000)] 1,
   wShare 1950 2100 [(2, 2100000)] 1, wShare 1200 2100 [(2, 2100000)] 1, wShare 2100 2100 [(2, 2100000)] 1,
   wShare 2100 2050 [(2, 2100000), (4, 2050000)] 1]
/-- The worked division: the caps and their clamp sources. -/
theorem test_worked_division : ((divide 11760000 wShares).1.map fun x => (x.cap, x.src)) =
    [(2000000, 0), (1765000, 1), (1500000, 3), (1765000, 1), (1200000, 0), (1765000, 1), (1765000, 1)] := by decide +kernel

/-- One value folded alone and rounded to a format. -/
def wConv (bits fmt : Nat) : Nat × ExcFlags := (({} : Acc).fold (decodeVal 1 bits 0)).result fmt
/-- The conversion edges of chapter 12, E4M3 and INT8 (R357 to R359). -/
theorem test_conversion_edges : [wConv 0x43E80000 4, wConv 0x43EB0000 4, wConv 0x3A800000 4, wConv 0xC0200000 9, wConv 0x43960000 9,
    wConv 0x7F800000 4] = [(0x7E, 0x10), (0x7E, 0x14), (0, 0x18), (0xFE, 0x10), (0x7F, 1), (0x7F, 1)] := by decide +kernel
/-- R349's example: the MXFP4 element 0b0111 with scale 0x7A is 0.1875. -/
theorem test_mxfp4_scale : (({} : Acc).fold (decodeVal 8 7 0x7A)).result 1 = (0x3E400000, 0) := by decide +kernel

/-- EXP2 and RSQRT of an FP32 code in FP32. -/
def wExp (b : Nat) : Nat × ExcFlags := exp2Val 1 (decodeVal 1 b 0)
def wRsq (b : Nat) : Nat × ExcFlags := rsqrtVal 1 (decodeVal 1 b 0)
/-- The EXP2 rows of R365's worked case. -/
theorem test_exp2_edges : [0x80000000, 0xFF800000, 0xFFC01234, 0x3F000000, 0xBF000000, 0x42FE0000, 0x42FFFFFF, 0x43000000, 0xC2FC0000,
    0xC3150000, 0xC3160000, 0xC315FFFF].map wExp = [(0x3F800000, 0), (0, 0), (0x7FC00000, 1), (0x3FB504F3, 16), (0x3F3504F3, 16),
    (0x7F000000, 0), (0x7F7FFFA7, 16), (0x7F800000, 20), (0x00800000, 0), (1, 0), (0, 24), (1, 24)] := by decide +kernel
/-- The RSQRT rows of R365's worked case. -/
theorem test_rsqrt_edges : [0x80000000, 0xBF800000, 0x40000000, 0x40800000, 1, 0x7F7FFFFF].map wRsq =
    [(0xFF800000, 2), (0x7FC00000, 1), (0x3F3504F3, 16), (0x3F000000, 0), (0x64B504F3, 16), (0x1F800000, 16)] := by decide +kernel

/-- The products of the DOT of chapter 12's worked case. -/
def wDot (l : List (Nat × Nat)) : Acc := l.foldl (fun a x => a.fold ((decodeVal 3 x.1 0).mul (decodeVal 3 x.2 0))) {}
def wChip0 : Acc := wDot [(0x4580, 0x4580), (0x3FC0, 0x3F80)]
def wChip1 : Acc := wDot [(0xC580, 0x4580), (0x3B80, 0x3F80)]
/-- The packets of the two chips and of their combination, header and words 4 to 8. -/
theorem test_dot_packets : wChip0.packet.take 8 = [0x4B, 0x45, 0x18, 0, 2, 0, 0, 0] ∧
    (List.range 5).map (fun i => u64 wChip0.packet (8 + 8 * i)) = [0x0000180000000000, 0x10, 0, 0, 0] ∧
    wChip1.packet.take 8 = [0x4B, 0x45, 0x18, 0, 2, 0, 0, 0] ∧
    (List.range 3).map (fun i => u64 wChip1.packet (8 + 8 * i)) = [0x0000001000000000, 0xFFFFFFFFFFFFFFF0, 0xFFFFFFFFFFFFFFFF] ∧
    (wChip0.combine wChip1).packet.take 16 = [0x4B, 0x45, 0x18, 0, 4, 0, 0, 0, 0, 0, 0, 0, 0x10, 0x18, 0, 0] ∧
    (wChip0.combine wChip1).packet.length = 48 ∧ packetOk wChip0.packet = true ∧
    packetAcc (wChip0.combine wChip1).packet = wDot [(0x3B80, 0x3F80), (0xC580, 0x4580), (0x4580, 0x4580), (0x3FC0, 0x3F80)] := by
  decide +kernel
/-- The combination rounded to FP32, exact, and to BF16, a tie. -/
theorem test_dot_rounds_once : (wChip0.combine wChip1).result 1 = (0x3FC08000, 0) ∧ (wChip0.combine wChip1).result 3 = (0x3FC0, 16) := by
  decide +kernel

/-! ## Witnesses of the statements about the whole block -/

theorem witness_KrovvenPacketsCarryTheWholeState_0 : wChip1.terms < 2 ^ 32 ∧ -2 ^ 639 ≤ wChip1.value ∧ wChip1.value < 2 ^ 639 ∧
    (wChip1.special = true → wChip1.value = 0) ∧ wChip1.value.natAbs < 2 ^ 629 ∧ (wChip1.value ≠ 0 → 0 < wChip1.terms) ∧
    (wChip1.terms = 0xFFFFFFFF ∨ wChip1.value = 0 ∨ wChip1.value.natAbs < wChip1.terms * 2 ^ 564) := by decide +kernel
theorem witness_KrovvenPacketsCarryTheWholeState_1 : packetOk wChip0.packet = true ∧ packetOk (wChip0.packet ++ [1]) = true ∧
    packetAcc wChip0.packet = packetAcc (wChip0.packet ++ [1]) := by decide +kernel
theorem witness_StepRunsTheFrontCommandOrOneTick_0 : ({ wRun with pending := [.powerOn, .standbyOn] } : State).pending = .powerOn :: [.standbyOn] := rfl
theorem witness_StepRunsTheFrontCommandOrOneTick_1 : (State.reset.pending = [] ∧ State.reset.plinth + 1 < 2 ^ 48 ∧ State.reset.pwr.core = false) ∧
    wRun.pending = [] ∧ wRun.plinth + 1 < 2 ^ 48 ∧ wRun.pwr.core = true ∧ wRun.pnt.frac < 64 ∧ wRun.pnt.count + 30534 < 2 ^ 64 ∧
    wRun.pnt.st ≠ .locking ∧ wRun.pnt.st ≠ .locked := by decide +kernel
theorem witness_StepRunsTheFrontCommandOrOneTick_1_b : ({ wRun with pnt := { st := .locking } } : State).pnt.st = .locking ∧
    ({ wRun with pnt := { st := .locked } } : State).pnt.st = .locked := by decide +kernel
theorem witness_MemoriesStayCanonical : State.reset.memOk = true ∧ ∃ t, step State.reset = .next t := ⟨by decide +kernel, _, rfl⟩
theorem witness_UnpoweredBlockStandsStill : State.reset.pwr.standby = false ∧ State.reset.pwr.core = false ∧
    Instr.journalRecovery ≠ .powerOn ∧ Instr.journalRecovery ≠ .standbyOn ∧ Instr.journalRecovery ≠ .standbyOff :=
  ⟨rfl, rfl, nofun, nofun, nofun⟩
theorem witness_RailsRiseOnlyOnGoodDependencies_0 : (wRail { st := .waitUp }).railMove 255 = some (({ st := .waitUp } : Rail).enableNow) ∧
    ({ st := .waitUp } : Rail).enableNow.enable = true ∧ ((wRail { st := .waitUp }).rail 255).enable = false := by decide +kernel
theorem witness_RailsRiseOnlyOnGoodDependencies_1 : (wRail { st := .waitDown, enable := true }).railMove 255 =
    some (({ st := .waitDown, enable := true } : Rail).disableNow .falling) ∧
    (({ st := .waitDown, enable := true } : Rail).disableNow .falling).enable = false ∧
    ((wRail { st := .waitDown, enable := true }).rail 255).enable = true := by decide +kernel
theorem witness_LogAndSnapshotTakeEffect_4 : wRun.pwr.standby = true ∧ wRun.log.ready = false := by decide +kernel
/-- A register as the management path reaches it. -/
def wRef (blk off : Nat) : RegDef := (wRun.regAt wNone.path blk off).getD { off := 0, get := fun _ => 0 }
theorem witness_RefusedAccessesHaveNoEffect_1_0 : (wRun.pwr.core = true ∧ 13 < 16 ∧ 4096 < 0x10000 ∧ 4096 % 4 = 0 ∧ 856064 = 0x10000 * 13 + 4096 ∧
    ((secondSel 13).any fun x => x.1 == 4096) = false) ∧ wRun.regAt wNone.path 13 4096 = some (wRef 13 4096) ∧
    ((wRef 13 4096).put.isSome = true ∧ (wRef 13 4096).wl = false) ∧ (wRef 13 4096).right = some .memory ∧
    wRun.may wNone.principal .memory = false :=
  ⟨by decide +kernel, getD_of (by decide +kernel), by decide +kernel, by decide +kernel, by decide +kernel⟩
theorem witness_RefusedAccessesHaveNoEffect_1_1 : wRun.regAt wNone.path 0 4100 = some (wRef 0 4100) ∧ (wRef 0 4100).put = none :=
  ⟨getD_of (by decide +kernel), Option.isNone_iff_eq_none.mp (by decide +kernel)⟩

/-! ## Signed control records: what a record that both signatures accept meets, the two verifiers being opaque -/

/-- A signature block of zero keys and signatures. -/
def wSig : Bytes := leBytes 4 0x47535243 ++ zeros 4 ++ leBytes 4 384 ++ leBytes 4 7856 ++ zeros (384 + 32 + 384 + 7856)
/-- A record of a kind, signed by firmware key 0. -/
def wCrHead (kind len : Nat) : Bytes :=
  leBytes 4 0x43455243 ++ leBytes 2 1 ++ leBytes 1 kind ++ leBytes 1 1 ++ zeros 4 ++ leBytes 4 len ++ zeros 16
def wCr (kind : Nat) (body : Bytes) : Bytes := wCrHead kind body.length ++ (body ++ wSig)
/-- The entry of firmware key 0, by the hashes of the zero keys, and a key hash table that holds it alone, with its TAG. -/
def wKeyEnt : Bytes := ([1, 0, 1, 0, 0, 0, 0, 0] : Bytes) ++ (digestBytes (Config.sha384 (zeros 384)) ++
  (digestBytes (Config.sha384 (zeros 32)) ++ zeros 24))
def wKeyHead : Bytes := leBytes 4 0x5459454B ++ leBytes 2 1 ++ zeros 10
def wKeyBody : Bytes := wKeyHead ++ (wKeyEnt ++ zeros 640)
def wKeyTab : Bytes := wKeyBody ++ digestBytes (Config.deviceHmac wKeyBody)
@[irreducible]
def wKeyFlash : Memory := wCells 0x2000 wKeyTab
/-- An image runs, and flash 0 holds the key hash table. -/
def wKey : State := { wRun with flash0 := wKeyFlash }
/-- Option bytes at their defaults of GENERATION 1. -/
def wObBody : Bytes := (patch (patch obDefaults 0 (leBytes 4 0x5459424F ++ leBytes 2 1)) 8 (leBytes 4 1)).take 0xFC
def wOb : Bytes := wObBody ++ leBytes 4 (crc32c wObBody)
/-- The body of a KEY_PROVISION of firmware slot 3. -/
def wProv : Bytes := patch (zeros 104) 0 [1, 3]

theorem digestBytes_length (d : Digest) : (digestBytes d).length = 48 := leBytes_length' 48 _
theorem digestAt_mid (a : Bytes) (d : Digest) (c : Bytes) : digestAt (a ++ (digestBytes d ++ c)) a.length = d := by
  have hs : slice (a ++ (digestBytes d ++ c)) a.length 48 = digestBytes d := by
    rw [slice, List.drop_left, ← digestBytes_length d, List.take_left]
  rw [digestAt, le, hs, digestBytes, leNat_leBytes, Nat.mod_eq_of_lt (by have := d.isLt; omega)]
  simp
theorem get_wCells_lt (d : Byte) (b : Bytes) : ∀ a a', a' < a → Memory.get d (wCells a b) a' = d := by
  induction b with
  | nil => intro a a' _; rfl
  | cons x r ih =>
    intro a a' h
    rw [wCells, Memory.get, if_neg (by omega), ih (a + 1) a' (by omega)]
theorem getAll_wCells_lt (d : Byte) (b : Bytes) (a n : Nat) (h : n ≤ a) :
    Memory.getAll d (wCells a b) 0 n = List.replicate n d := by
  apply List.ext_getElem
  · simp [Memory.getAll]
  · intro i h1 h2
    simp only [Memory.getAll, List.getElem_map, List.getElem_range, List.getElem_replicate]
    exact get_wCells_lt d b a (0 + i) (by simp [Memory.getAll] at h1; omega)

theorem wKeyEnt_length : wKeyEnt.length = 128 := by
  simp only [wKeyEnt, List.length_append, digestBytes_length, zeros, List.length_replicate, List.length_cons, List.length_nil]
theorem wKeyBody_length : wKeyBody.length = 784 := by
  have : wKeyHead.length = 16 := by decide +kernel
  simp only [wKeyBody, List.length_append, wKeyEnt_length, this, zeros, List.length_replicate]
theorem wKeyTab_length : wKeyTab.length = 832 := by
  simp only [wKeyTab, List.length_append, wKeyBody_length, digestBytes_length]
theorem wKey_fread : wKey.fread 0 0x2000 0x340 = wKeyTab := by
  have h := getAll_wCells erased 0x2000 wKeyTab
  rw [wKeyTab_length] at h
  rw [State.fread, State.flash, if_pos rfl]
  change Memory.getAll erased wKeyFlash 0x2000 832 = _
  unfold wKeyFlash
  exact h
theorem wKey_tables : wKey.keyTables = [wKeyTab] := by
  have m : u32 wKeyTab 0 = 0x5459454B ∧ u16 wKeyTab 4 = 1 ∧ zeroAt wKeyTab 6 10 := by decide +kernel
  have ht : wKeyTab.take 0x310 = wKeyBody := by
    have := List.take_left (l₁ := wKeyBody) (l₂ := digestBytes (Config.deviceHmac wKeyBody))
    rwa [wKeyBody_length] at this
  have hd : digestAt wKeyTab 0x310 = Config.deviceHmac wKeyBody := by
    have := digestAt_mid wKeyBody (Config.deviceHmac wKeyBody) []
    rwa [wKeyBody_length, List.append_nil] at this
  have c0 : wKey.keyCopy 0 = some wKeyTab := by
    unfold State.keyCopy
    simp only [wKey_fread, ht, hd]
    exact if_pos ⟨m.1, m.2.1, m.2.2, trivial⟩
  have c1 : wKey.keyCopy 1 = none := by
    have m1 : u32 (wKey.fread 1 0x2000 0x340) 0 ≠ 0x5459454B := by decide +kernel
    unfold State.keyCopy
    exact if_neg fun h => m1 h.1
  simp [State.keyTables, c0, c1]
theorem wKey_entry : keyEntry wKeyTab 0 = wKeyEnt := by
  have e : wKeyTab = wKeyHead ++ (wKeyEnt ++ (zeros 640 ++ digestBytes (Config.deviceHmac wKeyBody))) := by
    simp only [wKeyTab, wKeyBody, List.append_assoc]
  have hl : wKeyHead.length = 16 := by decide +kernel
  have h1 : List.drop 16 wKeyTab = wKeyEnt ++ (zeros 640 ++ digestBytes (Config.deviceHmac wKeyBody)) := by
    rw [e, ← hl, List.drop_left]
  have h2 := List.take_left (l₁ := wKeyEnt) (l₂ := zeros 640 ++ digestBytes (Config.deviceHmac wKeyBody))
  rw [wKeyEnt_length] at h2
  rw [keyEntry, slice, Nat.mul_zero, Nat.add_zero, h1, h2]
theorem wKey_provisioned : wKey.provisioned 1 0 = some wKeyEnt := by
  have m : (u8 wKeyEnt 0 == 1 && u8 wKeyEnt 1 == 0 && u8 wKeyEnt 2 == 1) = true := by decide +kernel
  have k : keyIdx 1 0 = 0 := rfl
  simp only [State.provisioned, wKey_tables, k, List.map_cons, wKey_entry, List.map_nil, List.find?_cons, m]
theorem wKey_usable (sig : Bytes) (h1 : slice sig 0x10 384 = zeros 384) (h2 : slice sig 0x190 32 = zeros 32) :
    wKey.keyUsable 1 0 sig = true := by
  have a : digestAt wKeyEnt 8 = Config.sha384 (zeros 384) := digestAt_mid [1, 0, 1, 0, 0, 0, 0, 0] _ _
  have b : digestAt wKeyEnt 0x38 = Config.sha384 (zeros 32) := by
    have := digestAt_mid (([1, 0, 1, 0, 0, 0, 0, 0] : Bytes) ++ digestBytes (Config.sha384 (zeros 384))) (Config.sha384 (zeros 32)) (zeros 24)
    simp only [List.append_assoc, List.length_append, digestBytes_length] at this
    exact this
  have o : wKey.slotOpen 0 = true := by decide +kernel
  have k : keyIdx 1 0 = 0 := rfl
  simp [State.keyUsable, wKey_provisioned, h1, h2, a, b, o, k]

theorem wSig_format : sigFormat wSig 0x47535243 = true := by
  have l : wSig.length = sigLen := by
    simp only [wSig, List.length_append, leBytes_length', zeros, List.length_replicate, sigLen]
  have m : u32 wSig 0 = 0x47535243 ∧ zeroAt wSig 4 4 = true ∧ u32 wSig 8 = 384 ∧ u32 wSig 12 = 7856 := by decide +kernel
  simp only [sigFormat, l, m, beq_self_eq_true, Bool.and_self]

/-- A record of firmware key 0 that both verifiers accept passes every check. -/
theorem wKey_check (k : Nat) (body : Bytes) (hr : ∀ k m t, Config.rsaVerify k m t = true)
    (hs : ∀ k m t, Config.slhVerify k m t = true) (hl : (wCrHead k body.length).length = 0x20)
    (h0 : (u32 (wCr k body) 0 = 0x43455243 ∧ u16 (wCr k body) 4 = 1 ∧ zeroAt (wCr k body) 9 3 = true ∧ zeroAt (wCr k body) 0x1C 4 = true ∧
      zeroAt (wCr k body) 0x10 12 = true) ∧ u8 (wCr k body) 7 = 1 ∧ u8 (wCr k body) 8 = 0 ∧ u32 (wCr k body) 0xC = body.length ∧
      crLen (u8 (wCr k body) 6) = some body.length) (hc : crClassOk (wCr k body) = true) : wKey.crCheck (wCr k body) = none := by
  obtain ⟨⟨f1, f2, f3, f4, z⟩, k1, k0, e, l⟩ := h0
  have g : crSig (wCr k body) = wSig := by
    have h : (0x20 + body.length) = (wCrHead k body.length ++ body).length := by rw [List.length_append, hl]
    rw [crSig, e, h, wCr, ← List.append_assoc, List.drop_left]
  have t : (wCr k body).length = 0x20 + body.length + sigLen := by
    have ls : wSig.length = sigLen := by
      simp only [wSig, List.length_append, leBytes_length', zeros, List.length_replicate, sigLen]
    rw [wCr, List.length_append, List.length_append, hl, ls, Nat.add_assoc]
  have u := wKey_usable wSig (by decide +kernel) (by decide +kernel)
  simp [State.crCheck, f1, f2, f3, f4, l, e, t, g, z, hc, k1, k0, u, wSig_format, sigRsaOk, sigSlhOk, hr, hs]

theorem wOb_valid : obValid wOb = true := by
  have l : wObBody.length = 0xFC := by decide +kernel
  have c : u32 wOb 0xFC = crc32c wObBody := by
    have h : slice wOb 0xFC 4 = leBytes 4 (crc32c wObBody) := by
      rw [slice, wOb, ← l, List.drop_left, List.take_of_length_le (by rw [leBytes_length'])]
    rw [u32, le, h, leNat_leBytes, Nat.mod_eq_of_lt (by have : crc32c wObBody < 2 ^ 32 := BitVec.isLt _; omega)]
  have t : wOb.take 0xFC = wObBody := by rw [wOb, ← l, List.take_left]
  have o : (u32 wOb 0 == 0x5459424F && u16 wOb 4 == 1 && zeroAt wOb 6 2 && zeroAt wOb 0x11 3 && zeroAt wOb 0x31 203 &&
      decide (1 ≤ u32 wOb 8) && decide (u32 wOb 8 ≤ 0xFFFFFFFE) && obFlds.all (fun f => f.ok wOb) &&
      decide (obTjStop.raw wOb + 160 ≤ obTjReset.raw wOb)) = true := by decide +kernel
  simp only [Bool.and_eq_true] at o
  simp only [obValid, c, t, beq_self_eq_true, o, Bool.and_self]
theorem obValid_magic (b : Bytes) (h : u32 b 0 ≠ 0x5459424F) : obValid b = false := by
  have h' : (u32 b 0 == 0x5459424F) = false := by simpa using h
  simp only [obValid, h', Bool.and_false, Bool.false_and]

theorem wCr_body (k : Nat) (body : Bytes) (hl : (wCrHead k body.length).length = 0x20) (e : u32 (wCr k body) 0xC = body.length) :
    crBody (wCr k body) = body := by
  rw [crBody, e, slice, wCr, ← hl, List.drop_left, List.take_left]

theorem wKey_ob0 : wKey.fread 0 0 256 = List.replicate 256 erased := by
  have h := getAll_wCells_lt erased wKeyTab 0x2000 256 (by decide)
  rw [State.fread, State.flash, if_pos rfl]
  change Memory.getAll erased wKeyFlash 0 256 = _
  unfold wKeyFlash
  exact h
theorem wKey_bad0 : obValid (wKey.fread 0 0 256) = false := by
  rw [wKey_ob0]
  exact obValid_magic _ (by decide +kernel)
theorem wKey_bad1 : obValid (wKey.fread 1 0 256) = false := obValid_magic _ (by decide +kernel)
theorem obChoose_bad (s : State) (h0 : obValid (s.fread 0 0 256) = false) (h1 : obValid (s.fread 1 0 256) = false) :
    s.obChoose = (none, false, false) := by
  unfold State.obChoose
  generalize s.fread 0 0 256 = x at h0
  generalize s.fread 1 0 256 = y at h1
  cases hx : obValid x with
  | true => simp [hx] at h0
  | false => cases hy : obValid y with
    | true => simp [hy] at h1
    | false => simp only [hx, hy]
theorem wKey_choose : wKey.obChoose = (none, false, false) := obChoose_bad _ wKey_bad0 wKey_bad1
theorem wKey_stored : wKey.obStored = 0 := by
  rw [State.obStored, wKey_choose]
  rfl

/-- The OPTION_UPDATE that completes (ControlRecordsAndPlasterTakeEffect, clause 0.2). -/
theorem witness_ControlRecordsAndPlasterTakeEffect_0_2
    (hr : ∀ k m t, Config.rsaVerify k m t = true) (hs : ∀ k m t, Config.slhVerify k m t = true) :
    (wKey.imageRuns = true ∧ wKey.may wArm.principal .update = true ∧ wKey.updRefusal = none) ∧ u8 (wCr 2 wOb) 6 = 2 ∧
    wKey.crCheck (wCr 2 wOb) = none ∧ (obValid (crBody (wCr 2 wOb)) = true ∧ u32 (crBody (wCr 2 wOb)) 8 = wKey.obGeneration + 1) ∧
    wKey.obStored ≤ wKey.obGeneration ∧ (obRevoked.nat (crBody (wCr 2 wOb)) = wKey.ob.revoked.toNat ∧
    wKey.ob.minFw ≤ obMinFw.nat (crBody (wCr 2 wOb)) ∧ wKey.ob.minStruct ≤ obMinStruct.nat (crBody (wCr 2 wOb)) ∧
    wKey.ob.minSite ≤ obMinSite.nat (crBody (wCr 2 wOb)) ∧
    wKey.keyEnable &&& obKeyEnable.nat (crBody (wCr 2 wOb)) = wKey.keyEnable ∧ wKey.log.devFailed = 0) := by
  rw [wKey_stored, wCr_body 2 wOb (by decide +kernel) (by decide +kernel)]
  exact ⟨⟨by decide +kernel, may_arm _ _, by decide +kernel⟩, by decide +kernel, wKey_check _ _ hr hs (by decide +kernel)
    (by decide +kernel) (by decide +kernel), ⟨wOb_valid, by decide +kernel⟩, Nat.zero_le _, by decide +kernel⟩

/-- The KEY_PROVISION that completes (clause 0.4). -/
theorem witness_ControlRecordsAndPlasterTakeEffect_0_4
    (hr : ∀ k m t, Config.rsaVerify k m t = true) (hs : ∀ k m t, Config.slhVerify k m t = true) :
    (wKey.imageRuns = true ∧ wKey.may wArm.principal .update = true ∧ wKey.updRefusal = none) ∧ u8 (wCr 3 wProv) 6 = 3 ∧
    wKey.crCheck (wCr 3 wProv) = none ∧ (zeroAt (crBody (wCr 3 wProv)) 2 6 = true ∧
    u8 (crBody (wCr 3 wProv)) 1 < (if u8 (crBody (wCr 3 wProv)) 0 = 2 then 2 else 4) ∧
    wKey.ob.revoked.getLsbD (keyIdx (u8 (crBody (wCr 3 wProv)) 0) (u8 (crBody (wCr 3 wProv)) 1)) = false) ∧
    wKey.provisioned (u8 (crBody (wCr 3 wProv)) 0) (u8 (crBody (wCr 3 wProv)) 1) = none ∧ wKey.keyTables.head? = some wKeyTab ∧
    wKey.log.devFailed = 0 := by
  have a : u8 wProv 0 = 1 := by decide +kernel
  have b : u8 wProv 1 = 3 := by decide +kernel
  have k : keyIdx 1 3 = 3 := rfl
  have m : (u8 (keyEntry wKeyTab 3) 0 == 1) = false := by decide +kernel
  have v : wKey.provisioned 1 3 = none := by simp [State.provisioned, wKey_tables, k, m]
  rw [wCr_body 3 wProv (by decide +kernel) (by decide +kernel), a, b]
  exact ⟨⟨by decide +kernel, may_arm _ _, by decide +kernel⟩, by decide +kernel, wKey_check _ _ hr hs (by decide +kernel)
    (by decide +kernel) (by decide +kernel), by decide +kernel, v, by rw [wKey_tables]; rfl, by decide +kernel⟩

/-- The other records that both verifiers accept, REVMIN_RESTORE, DEBUG_OPEN and PRINCIPAL_SET, pass the check too. -/
theorem witness_control_records_pass (hr : ∀ k m t, Config.rsaVerify k m t = true) (hs : ∀ k m t, Config.slhVerify k m t = true) :
    wKey.crCheck (wCr 1 [2, 0, 0, 0]) = none ∧ wKey.crCheck (wCr 4 (wBytes 24 [(0, 4, 9)])) = none ∧
    wKey.crCheck (wCr 5 (wBytes 50 [(44, 1, 1)])) = none :=
  ⟨wKey_check _ _ hr hs (by decide +kernel) (by decide +kernel) (by decide +kernel),
    wKey_check _ _ hr hs (by decide +kernel) (by decide +kernel) (by decide +kernel),
    wKey_check _ _ hr hs (by decide +kernel) (by decide +kernel) (by decide +kernel)⟩

/-- The manifest of an image of one block, of a type, in its 128 bytes. -/
def wManHead (typ len : Nat) : Bytes := wBytes 0x80 [(0, 4, 0x464D5746), (4, 2, 1), (6, 1, typ), (8, 4, 5), (0xC, 4, len), (0x10, 2, 1),
  (0x12, 2, if typ = 3 then 0 else 1), (0x18, 1, 3), (0x1A, 1, 255)]
def wManSig : Bytes := leBytes 4 0x47535746 ++ zeros 4 ++ leBytes 4 384 ++ leBytes 4 7856 ++ zeros (384 + 32 + 384 + 7856)
/-- An image of one block as it arrives, signed by firmware key 0. -/
def wMan (typ : Nat) (body : Bytes) : Bytes := wManHead typ body.length ++ (digestBytes (Config.sha384 body) ++ wManSig)
def wImg (typ : Nat) (body : Bytes) : Bytes := wMan typ body ++ body

theorem wManSig_length : wManSig.length = sigLen := by
  simp only [wManSig, List.length_append, leBytes_length', zeros, List.length_replicate, sigLen]
theorem wManSig_format : sigFormat wManSig 0x47535746 = true := by
  have m : u32 wManSig 0 = 0x47535746 ∧ zeroAt wManSig 4 4 = true ∧ u32 wManSig 8 = 384 ∧ u32 wManSig 12 = 7856 := by decide +kernel
  simp only [sigFormat, wManSig_length, m, beq_self_eq_true, Bool.and_self]
theorem wMan_length (typ : Nat) (body : Bytes) (hl : (wManHead typ body.length).length = 0x80) :
    (wMan typ body).length = 0x80 + 48 + sigLen := by
  rw [wMan, List.length_append, List.length_append, hl, digestBytes_length, wManSig_length]
  rfl
theorem wImg_manifest (typ : Nat) (body : Bytes) (hl : (wManHead typ body.length).length = 0x80)
    (h0 : u32 (wImg typ body) 0 = 0x464D5746 ∧ manBlocks (wImg typ body) = 1) : imgManifest (wImg typ body) = wMan typ body := by
  rw [imgManifest, if_pos h0.1, manLen, h0.2, Nat.mul_one, ← wMan_length typ body hl, wImg, List.take_left]
theorem wImg_body (typ : Nat) (body : Bytes) (hl : (wManHead typ body.length).length = 0x80)
    (h1 : manBlocks (wImg typ body) = 1) : imgBody (wImg typ body) = body := by
  rw [imgBody, manLen, h1, Nat.mul_one, ← wMan_length typ body hl, wImg, List.drop_left]

/-- Such an image passes the checks before its blocks, and its block matches. -/
theorem wImg_passes (typ size : Nat) (body : Bytes) (v : Option Nat) (hr : ∀ k m t, Config.rsaVerify k m t = true)
    (hs : ∀ k m t, Config.slhVerify k m t = true) (hl : (wManHead typ body.length).length = 0x80)
    (h0 : u32 (wImg typ body) 0 = 0x464D5746 ∧ manBlocks (wImg typ body) = 1)
    (hm : (u32 (wMan typ body) 0 = 0x464D5746 ∧ u16 (wMan typ body) 4 = 1 ∧ manType (wMan typ body) = typ ∧ u8 (wMan typ body) 0x1B = 0 ∧
      zeroAt (wMan typ body) 0x68 24 = true) ∧ (u16 (wMan typ body) 0x1E = 0 ∧ u32 (wMan typ body) 0x14 = 0 ∧
      zeroAt (wMan typ body) 0x20 32 = true) ∧ (manBlocks (wMan typ body) = 1 ∧ 1 ≤ maxBlocks typ) ∧
      manLoad (wMan typ body) = (if typ = 3 then 0 else 1) ∧ u8 (wMan typ body) 0x18 = 3 ∧ u8 (wMan typ body) 0x19 = 0 ∧
      u8 (wMan typ body) 0x1A = 255 ∧ manKey (wMan typ body) = 0 ∧ manLength (wMan typ body) = body.length)
    (hv : (v.any fun v => decide (manVersion (wMan typ body) < v)) = false) (hb : 0 < body.length ∧ body.length ≤ 65536)
    (ht : typ = 1 ∨ typ = 2 ∨ typ = 3) (hz : 0x10000 + body.length ≤ size) :
    wKey.imgCheck (wImg typ body) typ size v = none ∧ imgBad (wImg typ body) = none := by
  have g : manSig (wMan typ body) = wManSig := by
    have h : List.drop (0x80 + 48) (wMan typ body) = wManSig := by
      have l : 0x80 + 48 = (wManHead typ body.length ++ digestBytes (Config.sha384 body)).length := by
        rw [List.length_append, hl, digestBytes_length]
      rw [l, wMan, ← List.append_assoc, List.drop_left]
    rw [manSig, hm.2.2.1.1, Nat.mul_one, slice, h, List.take_of_length_le (Nat.le_of_eq wManSig_length)]
  have u := wKey_usable wManSig (by decide +kernel) (by decide +kernel)
  have d : manHash (wMan typ body) 0 = Config.sha384 body := by
    have := digestAt_mid (wManHead typ body.length) (Config.sha384 body) wManSig
    rwa [hl] at this
  have w : wKey.hwOk 3 0 255 = true := by
    have b : wKey.boardRevision ≤ 255 := by
      have : wKey.boardRevision < 2 ^ 8 := BitVec.isLt _
      omega
    cases hg : Config.gradeM2C with
    | false => simp [State.hwOk, b, hg]
    | true =>
      simp [State.hwOk, b, hg]
      decide
  obtain ⟨⟨m1, m2, m3, m4, m5⟩, ⟨z1, z2, z3⟩, ⟨b1, b2⟩, l1, x1, x2, x3, k0, n1⟩ := hm
  have e : body.length = manLength (wMan typ body) := n1.symm
  have c1 : wKey.manCheck (wMan typ body) typ v = none := by
    have q : (body.length + 65535) / 65536 = 1 := by omega
    have hb1 : ¬ (maxBlocks typ < 1) := by omega
    rw [State.manCheck, if_neg (by simp [m1, m2, m3, m4, m5, x1]), if_neg (by simp [z1, z2]), if_neg (by simp [z3]),
      if_neg (by simp [b1, n1, q, hb1]), if_neg (by rcases ht with rfl | rfl | rfl <;> simp [l1, b1])]
    simp [g, wManSig_format, x1, x2, x3, w, k0, u, hv, sigRsaOk, sigSlhOk, hr, hs]
  refine ⟨?_, ?_⟩
  · have f : imgFits (wImg typ body) size = true := by
      have t : (wImg typ body).length = 0x80 + 48 + sigLen + body.length := by
        rw [wImg, List.length_append, wMan_length typ body hl]
      simp only [imgFits, wImg_manifest typ body hl h0, manLen, b1, n1, t]
      simp only [decide_eq_true_eq, Bool.and_eq_true]
      omega
    simp [State.imgCheck, wImg_manifest typ body hl h0, c1, f]
  · have i : imgBlock body body.length 0 = body := by
      simp only [imgBlock, slice, Nat.mul_zero, List.drop_zero, Nat.sub_zero, Nat.min_eq_right hb.2, List.take_length]
    simp [imgBad, wImg_manifest typ body hl h0, wImg_body typ body hl h0.2, badBlock, b1, n1, i, d, List.range_one]

/-- The images of INSTALL_FW, UPDATE_PLASTER and STORE_SITE_IMAGE that both verifiers accept (UpdateOperationsTakeEffect, clauses 0 and 1;
ControlRecordsAndPlasterTakeEffect, clause 3). -/
theorem witness_UpdateOperationsTakeEffect_images
    (hr : ∀ k m t, Config.rsaVerify k m t = true) (hs : ∀ k m t, Config.slhVerify k m t = true) :
    (wKey.imgCheck (wImg 1 [1, 2, 3]) 1 slotSize (some wKey.ob.minFw) = none ∧ imgBad (wImg 1 [1, 2, 3]) = none) ∧
    (wKey.imgCheck (wImg 2 [1, 2, 3]) 2 plasterSize none = none ∧ imgBad (wImg 2 [1, 2, 3]) = none) ∧
    wKey.imgCheck (wImg 3 [1, 2, 3]) 3 storeSize (some wKey.ob.minSite) = none ∧ imgBad (wImg 3 [1, 2, 3]) = none :=
  ⟨wImg_passes 1 _ _ _ hr hs (by decide +kernel) (by decide +kernel) (by decide +kernel) (by decide +kernel) (by decide) (by decide)
      (by decide +kernel),
    wImg_passes 2 _ _ _ hr hs (by decide +kernel) (by decide +kernel) (by decide +kernel) (by decide +kernel) (by decide) (by decide)
      (by decide +kernel),
    wImg_passes 3 _ _ _ hr hs (by decide +kernel) (by decide +kernel) (by decide +kernel) (by decide +kernel) (by decide) (by decide)
      (by decide +kernel)⟩

end Sys2Proof.Tests
end

section
/-!
SUPPORT. The dispatch: every command answers a next state, and within which parts it differs, from the frames of the operations.
-/
namespace Sys2Proof.Machine

/-- No command ends in a fault or a refusal: every meaning, through whatever gate of Machine/Ops.lean it goes, answers a next state. -/
theorem exec_eq_next (c : Instr) (s : State) : exec c s = .next (nextOr s (exec c s)) := by
  cases c <;> rfl

/-- A command changes the parts that are listed for it, and keeps the memories canonical. -/
theorem exec_touches (c : Instr) (s : State) : OTouches c.writes s (exec c s) :=
  have h {ps : List Part} : Touches ps s s := .refl ps s
  match c with
  | .powerOn => execPowerOn_touches rfl h
  | .standbyOn => execStandbyOn_touches rfl h
  | .standbyOff => execStandbyOff_touches rfl h
  | .inputGood .. => execInputGood_touches rfl h
  | .inputUndervoltageReset => execInputUndervoltageReset_touches rfl h
  | .plinthSupervisorReset .. => execPlinthSupervisorReset_touches rfl h
  | .armatureWatchdogExpiry => execArmatureWatchdogExpiry_touches rfl h
  | .swResetModule .. => execSwResetModule_touches rfl h
  | .swResetCoreDie .. => execSwResetCoreDie_touches rfl h
  | .swResetCaliper .. => execSwResetCaliper_touches rfl h
  | .swResetArmature .. => execSwResetArmature_touches rfl h
  | .swResetRefused .. => execSwResetRefused_touches rfl h
  | .debugAuthorisedReset .. => execDebugAuthorisedReset_touches rfl h
  | .recoveryReqHold => execRecoveryReqHold_touches rfl h
  | .tjResetRelease => execTjResetRelease_touches rfl h
  | .standbyDiesUp .. => execStandbyDiesUp_touches rfl h
  | .maquetteStartLoad => execMaquetteStartLoad_touches rfl h
  | .coreDomainUp .. => execCoreDomainUp_touches rfl h
  | .dieIdentityCheck .. => execDieIdentityCheck_touches rfl h
  | .armatureLockstepCheck .. => execArmatureLockstepCheck_touches rfl h
  | .imageSlotChoice => execImageSlotChoice_touches rfl h
  | .quarantineRelease => execQuarantineRelease_touches rfl h
  | .romServicePlasterImage .. => execRomServicePlasterImage_touches rfl h
  | .startStepTimeout .. => execStartStepTimeout_touches rfl h
  | .startStepRetryTimer .. => execStartStepRetryTimer_touches rfl h
  | .ledgerFlashMirror .. => execLedgerFlashMirror_touches rfl h
  | .dimmTrainingDone .. => execDimmTrainingDone_touches rfl h
  | .journalRecovery => execJournalRecovery_touches rfl h
  | .caliperSelfTest .. => execCaliperSelfTest_touches rfl h
  | .siteImageDigestCheck => execSiteImageDigestCheck_touches rfl h
  | .fullServiceReported => execFullServiceReported_touches rfl h
  | .deferredBlockCheck .. => execDeferredBlockCheck_touches rfl h
  | .commitDwellExpiry => execCommitDwellExpiry_touches rfl h
  | .debugNonceRead .. => execDebugNonceRead_touches rfl h
  | .identityKeysReady => execIdentityKeysReady_touches rfl h
  | .maqStore .. => execMaqStore_touches rfl h
  | .maqSwitch .. => execMaqSwitch_touches rfl h
  | .maqCancel .. => execMaqCancel_touches rfl h
  | .maqVerify .. => execMaqVerify_touches rfl h
  | .maqSetMinVersion .. => execMaqSetMinVersion_touches rfl h
  | .maqVerifyComplete .. => execMaqVerifyComplete_touches rfl h
  | .maqStagedCommit => execMaqStagedCommit_touches rfl h
  | .profilePinsStable .. => execProfilePinsStable_touches rfl h
  | .installFw .. => execInstallFw_touches rfl h
  | .commitFw .. => execCommitFw_touches rfl h
  | .updatePlaster .. => execUpdatePlaster_touches rfl h
  | .storeSiteImage .. => execStoreSiteImage_touches rfl h
  | .pushSite .. => execPushSite_touches rfl h
  | .sitePushDone .. => execSitePushDone_touches rfl h
  | .activateSite .. => execActivateSite_touches rfl h
  | .versionReport .. => execVersionReport_touches rfl h
  | .helloSession .. => execHelloSession_touches rfl h
  | .revokeKeys .. => execRevokeKeys_touches rfl h
  | .optionUpdate .. => execOptionUpdate_touches rfl h
  | .keyProvision .. => execKeyProvision_touches rfl h
  | .revminRestore .. => execRevminRestore_touches rfl h
  | .debugOpen .. => execDebugOpen_touches rfl h
  | .principalSet .. => execPrincipalSet_touches rfl h
  | .controlRecordRefused .. => execControlRecordRefused_touches rfl h
  | .plasterImageReceived .. => execPlasterImageReceived_touches rfl h
  | .spdmGetVersion .. => execSpdmGetVersion_touches rfl h
  | .spdmGetCapabilities .. => execSpdmGetCapabilities_touches rfl h
  | .spdmNegotiateAlgorithms .. => execSpdmNegotiateAlgorithms_touches rfl h
  | .spdmGetDigests .. => execSpdmGetDigests_touches rfl h
  | .spdmGetCertificate .. => execSpdmGetCertificate_touches rfl h
  | .spdmChallenge .. => execSpdmChallenge_touches rfl h
  | .spdmGetMeasurements .. => execSpdmGetMeasurements_touches rfl h
  | .clockGrant .. => execClockGrant_touches rfl h
  | .clockGrantTimeout .. => execClockGrantTimeout_touches rfl h
  | .clockIdleExpiry .. => execClockIdleExpiry_touches rfl h
  | .rcOscStopExpiry => execRcOscStopExpiry_touches rfl h
  | .lockstepMismatch .. => execLockstepMismatch_touches rfl h
  | .siteUp .. => execSiteUp_touches rfl h
  | .siteDown .. => execSiteDown_touches rfl h
  | .siteClear .. => execSiteClear_touches rfl h
  | .siteAdopt .. => execSiteAdopt_touches rfl h
  | .siteIdentify .. => execSiteIdentify_touches rfl h
  | .siteCmdInvalid .. => execSiteCmdInvalid_touches rfl h
  | .sitePresentAsserted .. => execSitePresentAsserted_touches rfl h
  | .siteSettleExpiry .. => execSiteSettleExpiry_touches rfl h
  | .siteIdentityRead .. => execSiteIdentityRead_touches rfl h
  | .siteIdromRereadTimer .. => execSiteIdromRereadTimer_touches rfl h
  | .sitePresenceLost .. => execSitePresenceLost_touches rfl h
  | .siteRetryWaitExpiry .. => execSiteRetryWaitExpiry_touches rfl h
  | .siteAdoption .. => execSiteAdoption_touches rfl h
  | .railUpDelayExpiry .. => execRailUpDelayExpiry_touches rfl h
  | .railPgChange .. => execRailPgChange_touches rfl h
  | .railQualifyExpiry .. => execRailQualifyExpiry_touches rfl h
  | .railRiseTimeout .. => execRailRiseTimeout_touches rfl h
  | .railPgLossTimer .. => execRailPgLossTimer_touches rfl h
  | .railDownDelayExpiry .. => execRailDownDelayExpiry_touches rfl h
  | .railFallTimeout .. => execRailFallTimeout_touches rfl h
  | .railBackoffExpiry .. => execRailBackoffExpiry_touches rfl h
  | .railRetryCountReset .. => execRailRetryCountReset_touches rfl h
  | .pmbusWriteDone .. => execPmbusWriteDone_touches rfl h
  | .pmbusPgPoll .. => execPmbusPgPoll_touches rfl h
  | .trayResetWidthExpiry => execTrayResetWidthExpiry_touches rfl h
  | .moduleGroupResequence .. => execModuleGroupResequence_touches rfl h
  | .wardenBrownout .. => execWardenBrownout_touches rfl h
  | .wardenSupervisorReset .. => execWardenSupervisorReset_touches rfl h
  | .wardenReload .. => execWardenReload_touches rfl h
  | .surveySample .. => execSurveySample_touches rfl h
  | .surveySlowScanTimer .. => execSurveySlowScanTimer_touches rfl h
  | .surveyStaleTimeout .. => execSurveyStaleTimeout_touches rfl h
  | .surveyBusTimeout .. => execSurveyBusTimeout_touches rfl h
  | .railCntClr .. => execRailCntClr_touches rfl h
  | .logPageProgramDone => execLogPageProgramDone_touches rfl h
  | .logSectorEraseDone => execLogSectorEraseDone_touches rfl h
  | .logDeviceTimeout .. => execLogDeviceTimeout_touches rfl h
  | .logRingRecoveryDone => execLogRingRecoveryDone_touches rfl h
  | .logReadFromWrite .. => execLogReadFromWrite_touches rfl h
  | .logReadAdvance .. => execLogReadAdvance_touches rfl h
  | .snapshotPeriodicTimer => execSnapshotPeriodicTimer_touches rfl h
  | .snapshotTrailerWritten => execSnapshotTrailerWritten_touches rfl h
  | .snapshotBankEraseDone .. => execSnapshotBankEraseDone_touches rfl h
  | .holdupBegin .. => execHoldupBegin_touches rfl h
  | .holdupEnd => execHoldupEnd_touches rfl h
  | .journalFlushDescriptorDone .. => execJournalFlushDescriptorDone_touches rfl h
  | .meteringIntervalEnd .. => execMeteringIntervalEnd_touches rfl h
  | .powerWindow1msEnd => execPowerWindow1msEnd_touches rfl h
  | .powerWindow1sEnd => execPowerWindow1sEnd_touches rfl h
  | .telemetryRecord .. => execTelemetryRecord_touches rfl h
  | .wardenTelemetryPoll .. => execWardenTelemetryPoll_touches rfl h
  | .telemetryStaleTimeout .. => execTelemetryStaleTimeout_touches rfl h
  | .jobMark .. => execJobMark_touches rfl h
  | .jobRelease r _ => execJobRelease_touches (v0 := r) rfl h
  | .trayBudgetWrite .. => execTrayBudgetWrite_touches rfl h
  | .capSwBoundWrite .. => execCapSwBoundWrite_touches rfl h
  | .capDivision => execCapDivision_touches rfl h
  | .capGuardWindow .. => execCapGuardWindow_touches rfl h
  | .siteThrottleForceWrite .. => execSiteThrottleForceWrite_touches rfl h
  | .siteVout .. => execSiteVout_touches rfl h
  | .peakClr .. => execPeakClr_touches rfl h
  | .reliefVoltageCrossing .. => execReliefVoltageCrossing_touches rfl h
  | .reliefCurrentCrossing .. => execReliefCurrentCrossing_touches rfl h
  | .reliefStage2 .. => execReliefStage2_touches rfl h
  | .reliefReleaseCondition .. => execReliefReleaseCondition_touches rfl h
  | .reliefReleaseStepExpiry => execReliefReleaseStepExpiry_touches rfl h
  | .patinaSecond => execPatinaSecond_touches rfl h
  | .patinaRecordWrite => execPatinaRecordWrite_touches rfl h
  | .holdWindowExpiry => execHoldWindowExpiry_touches rfl h
  | .chiselInterval => execChiselInterval_touches rfl h
  | .chiselStaleFallbackExpiry .. => execChiselStaleFallbackExpiry_touches rfl h
  | .chiselSwBoundWrite .. => execChiselSwBoundWrite_touches rfl h
  | .chiselFreeze .. => execChiselFreeze_touches rfl h
  | .chiselThaw .. => execChiselThaw_touches rfl h
  | .chiselReset .. => execChiselReset_touches rfl h
  | .chiselExport .. => execChiselExport_touches rfl h
  | .chiselImport .. => execChiselImport_touches rfl h
  | .chiselCheckpoint => execChiselCheckpoint_touches rfl h
  | .coolingTick .. => execCoolingTick_touches rfl h
  | .fanStartTimeout .. => execFanStartTimeout_touches rfl h
  | .fanStallTimerExpiry .. => execFanStallTimerExpiry_touches rfl h
  | .fanSeizedTimerExpiry .. => execFanSeizedTimerExpiry_touches rfl h
  | .fanTargetWrite .. => execFanTargetWrite_touches rfl h
  | .fanClear .. => execFanClear_touches rfl h
  | .coolWdtRefresh .. => execCoolWdtRefresh_touches rfl h
  | .coolWdtExpiry => execCoolWdtExpiry_touches rfl h
  | .valveCmdWrite .. => execValveCmdWrite_touches rfl h
  | .valveTravelTimeout .. => execValveTravelTimeout_touches rfl h
  | .valvePosChange .. => execValvePosChange_touches rfl h
  | .valveUncommandedTimer .. => execValveUncommandedTimer_touches rfl h
  | .flowRateUpdate .. => execFlowRateUpdate_touches rfl h
  | .flowLossTimeExpiry .. => execFlowLossTimeExpiry_touches rfl h
  | .coolantLossEndTimer .. => execCoolantLossEndTimer_touches rfl h
  | .zoneSensorExclusion .. => execZoneSensorExclusion_touches rfl h
  | .zoneSensorReadmission .. => execZoneSensorReadmission_touches rfl h
  | .zoneColdLieCheck .. => execZoneColdLieCheck_touches rfl h
  | .zoneGuardExitTimer .. => execZoneGuardExitTimer_touches rfl h
  | .zoneClear .. => execZoneClear_touches rfl h
  | .leakRopeReading .. => execLeakRopeReading_touches rfl h
  | .leakPointSample .. => execLeakPointSample_touches rfl h
  | .leakClear .. => execLeakClear_touches rfl h
  | .accelSample .. => execAccelSample_touches rfl h
  | .shakeNoteEpisodeEnd => execShakeNoteEpisodeEnd_touches rfl h
  | .braceRequest .. => execBraceRequest_touches rfl h
  | .braceHoldExpiry => execBraceHoldExpiry_touches rfl h
  | .shakePeakClr .. => execShakePeakClr_touches rfl h
  | .accelSelfTest .. => execAccelSelfTest_touches rfl h
  | .accelNoAnswer => execAccelNoAnswer_touches rfl h
  | .tjSample .. => execTjSample_touches rfl h
  | .tjStopReleaseTimer => execTjStopReleaseTimer_touches rfl h
  | .countFrameTransmit => execCountFrameTransmit_touches rfl h
  | .countFrame .. => execCountFrame_touches rfl h
  | .syncCalPeriod .. => execSyncCalPeriod_touches rfl h
  | .calFrame .. => execCalFrame_touches rfl h
  | .echoFrame .. => execEchoFrame_touches rfl h
  | .delayFrame .. => execDelayFrame_touches rfl h
  | .syncFrameDiscard .. => execSyncFrameDiscard_touches rfl h
  | .pointingFrameLoss => execPointingFrameLoss_touches rfl h
  | .holdoverLimitExpiry => execHoldoverLimitExpiry_touches rfl h
  | .pointingSaveTimer => execPointingSaveTimer_touches rfl h
  | .managerEchoWaitExpiry => execManagerEchoWaitExpiry_touches rfl h
  | .armRun .. => execArmRun_touches rfl h
  | .launchRun .. => execLaunchRun_touches rfl h
  | .disarmRun .. => execDisarmRun_touches rfl h
  | .closeRun .. => execCloseRun_touches rfl h
  | .promoteManager .. => execPromoteManager_touches rfl h
  | .armEntryExpiry .. => execArmEntryExpiry_touches rfl h
  | .launchFrame .. => execLaunchFrame_touches rfl h
  | .ackFrame .. => execAckFrame_touches rfl h
  | .goFrame .. => execGoFrame_touches rfl h
  | .abortFrame .. => execAbortFrame_touches rfl h
  | .resultFrame .. => execResultFrame_touches rfl h
  | .launchDeadline .. => execLaunchDeadline_touches rfl h
  | .launchCountReached .. => execLaunchCountReached_touches rfl h
  | .choiceRecord .. => execChoiceRecord_touches rfl h
  | .siteDumapReport .. => execSiteDumapReport_touches rfl h
  | .auditOffer .. => execAuditOffer_touches rfl h
  | .caliperFirstComputeDone .. => execCaliperFirstComputeDone_touches rfl h
  | .caliperRecomputeDone .. => execCaliperRecomputeDone_touches rfl h
  | .caliperFetchTimeout .. => execCaliperFetchTimeout_touches rfl h
  | .caliperOfferRetainExpiry .. => execCaliperOfferRetainExpiry_touches rfl h
  | .runTableIdleExpiry .. => execRunTableIdleExpiry_touches rfl h
  | .checkDesc .. => execCheckDesc_touches rfl h
  | .computeDesc .. => execComputeDesc_touches rfl h
  | .gaugeLoad .. => execGaugeLoad_touches rfl h
  | .gaugeInvoke .. => execGaugeInvoke_touches rfl h
  | .gaugeUnload .. => execGaugeUnload_touches rfl h
  | .gaugeInvocation .. => execGaugeInvocation_touches rfl h
  | .gaugeInvocationDone .. => execGaugeInvocationDone_touches rfl h
  | .calAuditRateWrite .. => execCalAuditRateWrite_touches rfl h
  | .calAuditKeyWrite .. => execCalAuditKeyWrite_touches rfl h
  | .calCovClr .. => execCalCovClr_touches rfl h
  | .calDisFromWrite .. => execCalDisFromWrite_touches rfl h
  | .calDisRecAdvance .. => execCalDisRecAdvance_touches rfl h
  | .emissionRecord .. => execEmissionRecord_touches rfl h
  | .bindInput .. => execBindInput_touches rfl h
  | .bindWeights .. => execBindWeights_touches rfl h
  | .jrnGapWaitExpiry .. => execJrnGapWaitExpiry_touches rfl h
  | .jrnSeqIdleExpiry .. => execJrnSeqIdleExpiry_touches rfl h
  | .spotCheckDone .. => execSpotCheckDone_touches rfl h
  | .jrnSealWaitExpiry .. => execJrnSealWaitExpiry_touches rfl h
  | .manifestSigned .. => execManifestSigned_touches rfl h
  | .exportManifest .. => execExportManifest_touches rfl h
  | .exportSeq .. => execExportSeq_touches rfl h
  | .exportLog .. => execExportLog_touches rfl h
  | .hashRange .. => execHashRange_touches rfl h
  | .spotCheck .. => execSpotCheck_touches rfl h
  | .memRemove .. => execMemRemove_touches rfl h
  | .memReturn .. => execMemReturn_touches rfl h
  | .memFillDone .. => execMemFillDone_touches rfl h
  | .memReadErrorDetected .. => execMemReadErrorDetected_touches rfl h
  | .memSpdSilentTimeout .. => execMemSpdSilentTimeout_touches rfl h
  | .memScrubBurst .. => execMemScrubBurst_touches rfl h
  | .sramParityError .. => execSramParityError_touches rfl h
  | .doorbellSqTail .. => execDoorbellSqTail_touches rfl h
  | .queueSizeWrite .. => execQueueSizeWrite_touches rfl h
  | .cqHeadWrite .. => execCqHeadWrite_touches rfl h
  | .engineEntryTake .. => execEngineEntryTake_touches rfl h
  | .copyMem .. => execCopyMem_touches rfl h
  | .fillMem .. => execFillMem_touches rfl h
  | .flashRead .. => execFlashRead_touches rfl h
  | .moverSegmentDone .. => execMoverSegmentDone_touches rfl h
  | .readReq .. => execReadReq_touches rfl h
  | .writeReq .. => execWriteReq_touches rfl h
  | .readResp .. => execReadResp_touches rfl h
  | .writeAck .. => execWriteAck_touches rfl h
  | .errorResp .. => execErrorResp_touches rfl h
  | .postedWrite .. => execPostedWrite_touches rfl h
  | .messageInvalid .. => execMessageInvalid_touches rfl h
  | .messageCoalesced .. => execMessageCoalesced_touches rfl h
  | .creditPacket .. => execCreditPacket_touches rfl h
  | .linkPacket .. => execLinkPacket_touches rfl h
  | .ebxPacketDiscard .. => execEbxPacketDiscard_touches rfl h
  | .ebxCreditSend => execEbxCreditSend_touches rfl h
  | .ebxPortDown .. => execEbxPortDown_touches rfl h
  | .ebxPortRetrain .. => execEbxPortRetrain_touches rfl h
  | .ebxRequestTimeout .. => execEbxRequestTimeout_touches rfl h
  | .evtReadAdvance .. => execEvtReadAdvance_touches rfl h
  | .eventForward .. => execEventForward_touches rfl h
  | .eventPushRetry .. => execEventPushRetry_touches rfl h
  | .tlsConnect .. => execTlsConnect_touches rfl h
  | .redfishRequest .. => execRedfishRequest_touches rfl h
  | .telemetryStreamPeriod .. => execTelemetryStreamPeriod_touches rfl h
  | .ptpMessage .. => execPtpMessage_touches rfl h
  | .ownNHeartbeat .. => execOwnNHeartbeat_touches rfl h
  | .ownNReleaseObserved .. => execOwnNReleaseObserved_touches rfl h
  | .pairClaimDelayExpiry .. => execPairClaimDelayExpiry_touches rfl h
  | .pairOwnNIdleTimeout .. => execPairOwnNIdleTimeout_touches rfl h
  | .pairTakeoverHang .. => execPairTakeoverHang_touches rfl h
  | .pairTakeoverDrive => execPairTakeoverDrive_touches rfl h
  | .takeNAsserted => execTakeNAsserted_touches rfl h
  | .pairShadowFrame .. => execPairShadowFrame_touches rfl h
  | .pairSyncAgeTimeout => execPairSyncAgeTimeout_touches rfl h
  | .pairLinkChange .. => execPairLinkChange_touches rfl h
  | .handoverLead .. => execHandoverLead_touches rfl h
  | .takeLead .. => execTakeLead_touches rfl h
  | .holdSet .. => execHoldSet_touches rfl h
  | .ejectNAsserted => execEjectNAsserted_touches rfl h
  | .ejectLatchRelease => execEjectLatchRelease_touches rfl h
  | .selectWrite .. => execSelectWrite_touches rfl h
  | .snapshotLatchRead .. => execSnapshotLatchRead_touches rfl h
  | .multiwordLowerWrite .. => execMultiwordLowerWrite_touches rfl h
  | .multiwordCommitWrite .. => execMultiwordCommitWrite_touches rfl h
  | .registerReadRefused .. => execRegisterReadRefused_touches rfl h
  | .registerWrite .. => execRegisterWrite_touches rfl h
  | .wardenResetRelease .. => execWardenResetRelease_touches rfl h
  | .syncLineLinkUp .. => execSyncLineLinkUp_touches rfl h
  | .digestHashDone .. => execDigestHashDone_touches rfl h
  | .updateOperationDone .. => execUpdateOperationDone_touches rfl h
  | .strapStable .. => execStrapStable_touches rfl h

theorem writes_within_others (c : Instr) : Part.within c.writes Part.others = true := by
  cases c <;> rfl

/-- No command changes the queue of commands or Plinth time. -/
theorem exec_spares {c : Instr} {s t : State} {p : Part} (hp : Part.others.contains p = false) (h : exec c s = .next t) :
    p.same s t :=
  (exec_touches c s t h).only p (Part.within_not (writes_within_others c) hp)

/-- Settles O54: every arm of the dispatch answers a next state, and its frame is that of the operations it is made of. -/
theorem everyCommandCompletes : Obligations.EveryCommandCompletes := by
  intro c s
  have h := exec_eq_next c s
  exact completes_of h ⟨exec_spares (p := .pending) rfl h, exec_spares (p := .plinth) rfl h, only_of (exec_touches c s) h⟩

end Sys2Proof.Machine
end


section
/-!
SUPPORT. One step of the block: the front command, or one crystal tick and what it adds to the Pointing count (R12, R322, R332).
-/
namespace Sys2Proof.Machine

theorem step_of_pending {s : State} {c : Instr} {rest : List Instr} (h : s.pending = c :: rest) :
    step s = exec c { s with pending := rest } := by
  rw [step, h]

theorem step_of_idle {s : State} (h : s.pending = []) : step s = s.tick := by
  rw [step, h]

theorem tick_unpowered {s : State} (h : s.pwr.standby = false) : s.tick = .next s := by
  simp [State.tick, h]

theorem tick_standby {s : State} (hs : s.pwr.standby = true) (ht : s.plinth + 1 < 2 ^ 48) (hc : s.pwr.core = false) :
    s.tick = .next { s with plinth := s.plinth + 1 } := by
  rw [State.tick, if_neg (by simp [hs]), if_neg (Nat.not_le.2 ht), if_neg (by simp [hc])]

theorem tick_core {s : State} (hs : s.pwr.standby = true) (ht : s.plinth + 1 < 2 ^ 48) (hc : s.pwr.core = true)
    (hn : (s.pnt.advance s.steering).count < 2 ^ 64) :
    s.tick = .next { s with plinth := s.plinth + 1, pnt := s.pnt.advance s.steering } := by
  rw [State.tick, if_neg (by simp [hs]), if_neg (Nat.not_le.2 ht), if_pos hc]
  exact if_neg (Nat.not_le.2 hn)

/-- A clamp lies within its limits. -/
theorem clampI_mem {lo hi v : Int} (h : lo ≤ hi) : lo ≤ clampI lo hi v ∧ clampI lo hi v ≤ hi := by
  unfold clampI
  omega

/-- Where a limit holds, steering keeps within it (R332). -/
theorem steering_within {s : State} {lim : Int} (h : s.pnt.st.rateLimit = some lim) (h0 : 0 ≤ lim) :
    -lim ≤ s.steering ∧ s.steering ≤ lim := by
  rw [State.steering, h]
  exact clampI_mem (by omega)

/-- With no limit the rate stands as it is (R330). -/
theorem steering_frozen {s : State} (h : s.pnt.st.rateLimit = none) : s.steering = s.pnt.steer := by
  rw [State.steering, h]

theorem rateLimit_none {st : PtSt} (h : st ≠ .locking) (h' : st ≠ .locked) : st.rateLimit = none := by
  cases st with
  | locking => contradiction
  | locked => contradiction
  | _ => rfl

/-- In every state the rate stays within the limit of LOCKING once it does. -/
theorem steering_bounded {s : State} (h : -7036874417 ≤ s.pnt.steer ∧ s.pnt.steer ≤ 7036874417) :
    -7036874417 ≤ s.steering ∧ s.steering ≤ 7036874417 := by
  by_cases h1 : s.pnt.st = .locking
  · exact steering_within (by rw [h1]; rfl) (by decide)
  · by_cases h2 : s.pnt.st = .locked
    · have := steering_within (lim := 281474976) (by rw [h2]; rfl) (by decide)
      omega
    · rwa [steering_frozen (rateLimit_none h1 h2)]

/-- The cycles of one tick and the fraction carried on make 38,146 and 249/256 with the fraction before. -/
theorem pllCycles_split (phase : Nat) :
    256 * (pllCycles phase).1 + (pllCycles phase).2 = 256 * 38146 + 249 + phase ∧ (pllCycles phase).2 < 256 := by
  simp only [pllCycles]
  omega

namespace Pointing

/-- What one tick adds to the count, in units of 2^-44 ns (R322). -/
def tickStep (p : Pointing) (steer : Int) : Nat := (pllCycles p.phase).1 * (nominalStep + steer).toNat

variable {p : Pointing} {steer : Int}

/-- The advanced count, fraction and fine part are the digits of one sum. -/
theorem advance_total : 2 ^ 44 * (p.advance steer).count + 2 ^ 38 * (p.advance steer).frac + (p.advance steer).fine =
    2 ^ 44 * p.count + 2 ^ 38 * p.frac + p.fine + p.tickStep steer := by
  simp only [advance, tickStep]
  generalize (pllCycles p.phase).1 * (nominalStep + steer).toNat = x
  omega

theorem advance_digits : (p.advance steer).frac < 64 ∧ (p.advance steer).fine < 2 ^ 38 :=
  ⟨Nat.mod_lt _ (by decide), Nat.mod_lt _ (by decide)⟩

theorem advance_slew_frozen (h : p.st.rateLimit = none) : (p.advance steer).slew = p.slew := by
  simp [advance, h]

/-- One tick adds less than 30,533 ns: at most 38,147 cycles of 0.8 ns and 500 ppm. -/
theorem tickStep_lt (hp : p.phase < 256) (hs : steer ≤ 7036874417) : p.tickStep steer < 2 ^ 44 * 30533 := by
  have hc : (pllCycles p.phase).1 ≤ 38147 := by
    simp only [pllCycles]
    omega
  have hn : (nominalStep + steer).toNat ≤ 14080785709950 := by
    simp only [nominalStep]
    omega
  calc p.tickStep steer ≤ 38147 * 14080785709950 := Nat.mul_le_mul hc hn
    _ < 2 ^ 44 * 30533 := by decide

theorem tickStep_cast (hs : -7036874417 ≤ steer) : (p.tickStep steer : Int) = (pllCycles p.phase).1 * (14073748835533 + steer) := by
  rw [tickStep, Nat.cast_mul, Int.toNat_of_nonneg (by simp only [nominalStep]; omega)]
  rfl

end Pointing

/-- A tick with the core domain powered changes Plinth time and the Pointing count alone. -/
theorem onlyChanges_tick (s : State) (n : Nat) (p : Pointing) :
    s.onlyChanges [.plinth, .pnt] { s with plinth := n, pnt := p } := by
  intro q hq
  cases q with
  | plinth => exact absurd hq (by decide)
  | pnt => exact absurd hq (by decide)
  | _ => rfl

/-- Settles O51: a step is the front command or State.tick, whose sum of the count's digits grows by its cycles. -/
theorem stepRunsTheFrontCommandOrOneTick : Obligations.StepRunsTheFrontCommandOrOneTick := by
  intro s
  refine ⟨fun c rest h => ⟨step_of_pending h, fun t ht => ?_⟩, fun h hs => ?_, fun h hs hw => ⟨fun hc => ?_, ?_⟩⟩
  · rw [step_of_pending h] at ht
    exact exec_spares (p := .pending) rfl ht
  · rw [step_of_idle h, tick_unpowered hs]
  · rw [step_of_idle h, tick_standby hs hw hc]
  · intro hc hfrac hfine hphase hcount hsteer
    have hrate := steering_bounded hsteer
    have total := s.pnt.advance_total (steer := s.steering)
    have small := s.pnt.tickStep_lt hphase hrate.2
    have digits := s.pnt.advance_digits (steer := s.steering)
    have cycles := pllCycles_split s.pnt.phase
    have value := s.pnt.tickStep_cast hrate.1
    have fits : (s.pnt.advance s.steering).count < 2 ^ 64 := by omega
    refine ⟨_, (pllCycles s.pnt.phase).1, (step_of_idle h).trans (tick_core hs hw hc fits), rfl, onlyChanges_tick s _ _, digits.1,
      digits.2, cycles.2, cycles.1, ?_, fun hl => ?_, fun hl => ?_, fun h1 h2 => ⟨?_, ?_⟩⟩
    · calc _ = ((2 ^ 44 * s.pnt.count + 2 ^ 38 * s.pnt.frac + s.pnt.fine + s.pnt.tickStep s.steering : Nat) : Int) := by
            rw [← total]
            push_cast
            rfl
        _ = _ := by
            rw [Nat.cast_add, value]
            push_cast
            rfl
    · exact steering_within (lim := 7036874417) (by rw [hl]; rfl) (by decide)
    · exact steering_within (lim := 281474976) (by rw [hl]; rfl) (by decide)
    · exact steering_frozen (rateLimit_none h1 h2)
    · exact Pointing.advance_slew_frozen (rateLimit_none h1 h2)

end Sys2Proof.Machine
end


section
/-!
SUPPORT. Register access: what a write and a read of an address do, one lemma for each way that State.writeReg and
State.readWord can go (R493 to R500), and the register that an address names.
-/
namespace Sys2Proof.Machine

/-! ## Access state of a path in a block (R494) -/

theorem Path.idx_injective : Function.Injective Path.idx := by
  intro p q h
  cases p <;> cases q <;> simp_all [Path.idx]

/-- Two paths' blocks do not share an entry. -/
theorem Path.key_ne {p q : Path} {j k : Nat} (hj : j < 16) (hk : k < 16) (h : q ≠ p ∨ k ≠ j) :
    16 * q.idx + k ≠ 16 * p.idx + j := by
  intro he
  have hi : q.idx = p.idx := by omega
  have hk : k = j := by omega
  exact h.elim (fun hq => hq (Path.idx_injective hi)) (fun hn => hn hk)

@[simp] theorem State.pb_setPb_same (s : State) (p : Path) (blk : Nat) (x : PathBlock) : (s.setPb p blk x).pb p blk = x :=
  Tbl.get_set_same ..

theorem State.pb_setPb_other (s : State) {p q : Path} {blk k : Nat} (x : PathBlock) (hb : blk < 16) (hk : k < 16)
    (h : q ≠ p ∨ k ≠ blk) : (s.setPb p blk x).pb q k = s.pb q k :=
  Tbl.get_set_other _ _ _ (Path.key_ne hb hk h)

theorem State.onlyChanges_setPb {s : State} {p : Path} {blk : Nat} {x : PathBlock} : s.onlyChanges [.acc] (s.setPb p blk x) :=
  (State.setPb_touches rfl (.refl _ s)).only

theorem State.onlyChanges_setPb_emit {s : State} {p : Path} {blk : Nat} {x : PathBlock} {o : Out} :
    s.onlyChanges [.acc, .out] ((s.setPb p blk x).emit o) :=
  (State.emit_touches rfl (State.setPb_touches rfl (.refl _ s))).only

/-! ## The word that an address names (R492) -/

/-- `addr` lies at the word `off` of block `blk`. -/
structure AddrIn (addr blk off : Nat) : Prop where
  blk : addr / 0x10000 % 16 = blk
  off : addr % 0x10000 / 4 * 4 = off

theorem AddrIn.of_eq {addr blk off : Nat} (hb : blk < 16) (ho : off < 0x10000) (h4 : off % 4 = 0)
    (h : addr = 0x10000 * blk + off) : AddrIn addr blk off := ⟨by omega, by omega⟩

/-- The offset is none of the block's select registers and not its SEL_STATUS. -/
structure Plain (blk off : Nat) : Prop where
  sel : off ≠ 0x10
  status : off ≠ 0x18
  sel2 : ((secondSel blk).any fun x => x.1 == off) = false

/-! ## Writes -/

section Writes
variable {s : State} {r : Req} {addr blk off v : Nat} {d : RegDef} {f : Req → Nat → State → State}

theorem writeReg_select (ha : AddrIn addr blk 0x10) (hm : s.may r.principal .read = true) :
    s.writeReg r addr v = s.selectWrite r.path blk (v % 2 ^ 32) false := by
  simp only [State.writeReg, ha.blk, ha.off, if_true, hm]

theorem writeReg_select_refused (ha : AddrIn addr blk 0x10) (hm : s.may r.principal .read = false) :
    s.writeReg r addr v = s.refuseWrite r.path r.principal addr := by
  simp [State.writeReg, ha.off, hm]

theorem writeReg_status (ha : AddrIn addr blk 0x18) (hm : s.may r.principal .read = true) :
    s.writeReg r addr v = s.setPb r.path blk { s.pb r.path blk with
      status := w1c (s.pb r.path blk).status (BitVec.ofNat 10 (v % 2 ^ 32)) ||| (s.pb r.path blk).standing blk } := by
  simp [State.writeReg, ha.blk, ha.off, hm]

theorem writeReg_none (ha : AddrIn addr blk off) (hp : Plain blk off) (hd : s.regAt r.path blk off = none) :
    s.writeReg r addr v = s := by
  simp [State.writeReg, ha.blk, ha.off, hp.sel, hp.status, hp.sel2, hd]

theorem writeReg_readOnly (ha : AddrIn addr blk off) (hp : Plain blk off) (hd : s.regAt r.path blk off = some d)
    (hf : d.put = none) : s.writeReg r addr v = s.violation r.path addr := by
  simp [State.writeReg, ha.blk, ha.off, hp.sel, hp.status, hp.sel2, hd, hf]

theorem writeReg_locked (ha : AddrIn addr blk off) (hp : Plain blk off) (hd : s.regAt r.path blk off = some d)
    (hf : d.put = some f) (hw : d.wl = true) (hl : s.rst.locked = true ∨ r.principal ≠ armPrincipal) :
    s.writeReg r addr v = s.violation r.path addr := by
  simp only [State.writeReg, ha.blk, ha.off, if_neg hp.sel, if_neg hp.status, hp.sel2, hd, hf, if_pos hw, if_pos hl]
  rfl

theorem writeReg_refused {x : Right} (ha : AddrIn addr blk off) (hp : Plain blk off) (hd : s.regAt r.path blk off = some d)
    (hf : d.put = some f) (hw : d.wl = false) (hx : d.right = some x) (hm : s.may r.principal x = false) :
    s.writeReg r addr v = s.refuseWrite r.path r.principal addr := by
  simp [State.writeReg, ha.blk, ha.off, hp.sel, hp.status, hp.sel2, hd, hf, hw, hx, hm]

/-- The access gate lets a write of the register through: a register of the handover lock is open, another's right is held. -/
structure State.Admits (s : State) (r : Req) (d : RegDef) : Prop where
  lock : d.wl = true → s.rst.locked = false ∧ r.principal = armPrincipal
  right : d.wl = false → ∀ x, d.right = some x → s.may r.principal x = true

theorem writeReg_admitted (ha : AddrIn addr blk off) (hp : Plain blk off) (hd : s.regAt r.path blk off = some d)
    (hf : d.put = some f) (h : s.Admits r d) :
    s.writeReg r addr v = (if d.wl || (v % 2 ^ 32 &&& d.roMask) == 0 then s else s.violation r.path addr).putWord r blk off (v % 2 ^ 32) d f := by
  cases hw : d.wl with
  | true =>
    obtain ⟨hl, hr⟩ := h.lock hw
    simp [State.writeReg, ha.blk, ha.off, hp.sel, hp.status, hp.sel2, hd, hf, hw, hl, hr]
  | false =>
    have hx : (d.right.any fun x => !s.may r.principal x) = false := by
      cases hr : d.right with
      | none => rfl
      | some x => simp [h.right hw x hr]
    simp [State.writeReg, ha.blk, ha.off, hp.sel, hp.status, hp.sel2, hd, hf, hw, hx]

theorem putWord_single (h : d.words = 1) : s.putWord r blk off v d f = f r v s := if_pos h

/-- The first word written to a wide register is staged alone (R500). -/
theorem putWord_lower (hs : (s.pb r.path blk).stage = none) (hi : (off - d.off) / 4 + 1 < d.words) :
    s.putWord r blk off v d f = s.setPb r.path blk { s.pb r.path blk with
      stage := some (d.off, [((off - d.off) / 4, BitVec.ofNat 32 v)]) } := by
  simp [State.putWord, hs, hi, Tbl.set, show d.words ≠ 1 by omega]

/-- Two words staged and written make the value (R500). -/
theorem stagedValue_two (cur : Nat) (w : Word) (hv : v < 2 ^ 32) : stagedValue cur 2 v [(0, w)] = w.toNat + 2 ^ 32 * v := by
  have hw := w.isLt
  simp [stagedValue, List.range_succ, Tbl.find?, leBytes, leNat]
  omega

/-- The highest word of a register of two commits it with the lower one (R500). -/
theorem putWord_commit {w : Word} (hd : d.words = 2) (ho : off = d.off + 4) (hv : v < 2 ^ 32)
    (hs : (s.pb r.path blk).stage = some (d.off, [(0, w)])) :
    s.putWord r blk off v d f = f r (w.toNat + 2 ^ 32 * v) (s.setPb r.path blk { s.pb r.path blk with stage := none }) := by
  simp [State.putWord, hd, hs, ho, stagedValue_two _ w hv]

end Writes

/-! ## Reads -/

section Reads
variable {s : State} {p : Path} {prin addr blk off : Nat} {d : RegDef}

/-- A read without its right answers 0 and sets READ_REFUSED (R498). -/
theorem readOut_refused (ha : AddrIn addr blk off) (hm : s.may prin .read = false) :
    s.readOut p prin addr = (s.setPb p blk { s.pb p blk with status := setBit (s.pb p blk).status 9 true }).emit (.read p addr 0) := by
  simp [State.readOut, State.readReg, ha.blk, hm]

theorem readOut_allowed (ha : AddrIn addr blk off) (hm : s.may prin .read = true) :
    s.readOut p prin addr = (s.readWord p blk off).1.emit (.read p addr (s.readWord p blk off).2) := by
  simp [State.readOut, State.readReg, ha.blk, ha.off, hm]

theorem regAt_covers (h : s.regAt p blk off = some d) : d.off ≤ off ∧ off < d.off + 4 * d.words := by
  simpa using List.find?_some h

theorem latch_single (h : d.words = 1) : d.latch s = [wordOf (if d.hidden then 0 else d.get s) 0] := by
  simp [RegDef.latch, h]

theorem readWord_single (hp : Plain blk off) (hd : s.regAt p blk off = some d) (h : d.words = 1) :
    s.readWord p blk off = (s, wordOf (if d.hidden then 0 else d.get s) 0) := by
  have hi : (off - d.off) / 4 = 0 := by
    have := regAt_covers hd
    omega
  simp [State.readWord, hp.sel, hp.status, hp.sel2, hd, h, hi, latch_single h]

/-- A read of the lowest word latches the register (R499). -/
theorem readWord_lowest (hp : Plain blk off) (hd : s.regAt p blk off = some d) (h : d.words ≠ 1) (ho : off = d.off)
    (hn : ¬(blk = 2 ∧ off = 0x1040)) : s.readWord p blk off =
      (s.setPb p blk { s.pb p blk with snap := some (d.off, d.latch s) }, (d.latch s)[0]?.getD 0) := by
  subst ho
  simp [State.readWord, hp.sel, hp.status, hp.sel2, hd, h, hn]

/-- A higher word comes from the latch (R499). -/
theorem readWord_latched {ws : List Word} (hp : Plain blk off) (hd : s.regAt p blk off = some d) (h : d.words ≠ 1)
    (ho : d.off + 4 ≤ off) (he : endsRecord blk off = false) (hs : (s.pb p blk).snap = some (d.off, ws)) :
    s.readWord p blk off = (s, ws[(off - d.off) / 4]?.getD 0) := by
  have hi : (off - d.off) / 4 ≠ 0 := by omega
  simp only [State.readWord, if_neg hp.sel, if_neg hp.status, hp.sel2, hd, if_neg h, if_neg hi, hs, he]
  simp

/-- A higher word without a latch is read as it stands and sets SNAP_MISS (R499). -/
theorem readWord_missed (hp : Plain blk off) (hd : s.regAt p blk off = some d) (h : d.words ≠ 1)
    (ho : d.off + 4 ≤ off) (hs : (s.pb p blk).snap = none) (hn : ¬(blk = 9 ∧ d.off = 0x1000)) :
    s.readWord p blk off = (s.setPb p blk { s.pb p blk with status := setBit (s.pb p blk).status 8 true },
      (d.latch s)[(off - d.off) / 4]?.getD 0) := by
  have hi : (off - d.off) / 4 ≠ 0 := by omega
  have hm : s.missed p blk d.off ((off - d.off) / 4) =
      s.setPb p blk { s.pb p blk with status := setBit (s.pb p blk).status 8 true } :=
    if_neg fun ⟨h9, ho, _⟩ => hn ⟨h9, ho⟩
  simp only [State.readWord, if_neg hp.sel, if_neg hp.status, hp.sel2, hd, if_neg h, if_neg hi, hs, hm]
  simp

end Reads

/-! ## The commands of register access -/

theorem write_completes {c : Instr} {s : State} {r : Req} {addr v : Nat} {q : State → Prop}
    (he : exec c s = s.coreDo fun s => s.writeReg r addr v) (hc : s.pwr.core = true) (h : q (s.writeReg r addr v)) :
    Completes c s q := completes_of (he.trans (coreDo_on hc)) h

theorem read_completes {c : Instr} {s : State} {p : Path} {prin addr : Nat} {q : State → Prop}
    (he : exec c s = s.coreDo fun s => s.readOut p prin addr) (hc : s.pwr.core = true) (h : q (s.readOut p prin addr)) :
    Completes c s q := completes_of (he.trans (coreDo_on hc)) h

/-- A select write of the primary select stores it, drops the path's snapshot and staging of the block, and leaves the access
state of every other path and block alone (R495, R499, R500). -/
theorem selectWrite_effect (s : State) (p : Path) {blk : Nat} (v : Nat) (hb : blk < 16) :
    s.onlyChanges [.acc] (s.selectWrite p blk v false) ∧
    (s.selectWrite p blk v false).pb p blk = { s.pb p blk with
      sel := v % 65536, snap := none, stage := none
      status := if blockCount blk ≤ v % 65536 then setBit (s.pb p blk).status 0 true else (s.pb p blk).status } ∧
    ∀ (q : Path) k, k < 16 → (q ≠ p ∨ k ≠ blk) → (s.selectWrite p blk v false).pb q k = s.pb q k := by
  refine ⟨(State.selectWrite_touches rfl (.refl _ s)).only, ?_, fun q k hk h => State.pb_setPb_other s _ hb hk h⟩
  simp [State.selectWrite]

/-- Settles O42: each clause is one lemma on State.writeReg or State.readWord, at the address's block and offset. -/
theorem registerAccessTakesEffect : Obligations.RegisterAccessTakesEffect := by
  intro s hc blk off addr hb ho h4 haddr
  have ha := AddrIn.of_eq hb ho h4 haddr
  refine ⟨fun r v h10 => ⟨fun hm => ?_, fun hm => ?_⟩, fun r v h18 hm => ?_, fun p prin hm => ⟨?_, ?_⟩,
    fun p prin d hm h10 h18 hsel hd => ?_, fun r v d f h10 h18 hsel hd hf => ?_, fun r v d h10 h18 hsel hd hf => ?_,
    fun r v h10 h18 hsel hd => ?_⟩
  · subst h10
    refine write_completes rfl hc ?_
    rw [writeReg_select ha hm]
    exact selectWrite_effect s r.path _ hb
  · subst h10
    exact write_completes rfl hc (writeReg_select_refused ha hm)
  · subst h18
    exact write_completes rfl hc (writeReg_status ha hm)
  · refine read_completes rfl hc ?_
    rw [readOut_refused ha hm]
    exact ⟨rfl, State.onlyChanges_setPb_emit, State.pb_setPb_same ..⟩
  · refine read_completes rfl hc ?_
    rw [readOut_refused ha hm]
    exact ⟨rfl, State.pb_setPb_same ..⟩
  · have hp : Plain blk off := ⟨h10, h18, hsel⟩
    refine ⟨fun hw => ?_, fun hw hlow hn => ?_, fun ws hw hhigh he hs => ?_, fun hw hhigh hs hn => ?_⟩
    all_goals
      refine read_completes rfl hc ?_
      rw [readOut_allowed ha hm]
    · rw [readWord_single hp hd hw]
    · rw [readWord_lowest hp hd hw hlow hn]
      exact ⟨rfl, State.onlyChanges_setPb_emit, State.pb_setPb_same ..⟩
    · rw [readWord_latched hp hd hw hhigh he hs]
    · rw [readWord_missed hp hd hw hhigh hs hn]
      exact ⟨State.pb_setPb_same .., rfl⟩
  · have hp : Plain blk off := ⟨h10, h18, hsel⟩
    refine ⟨fun hw hl => write_completes rfl hc (writeReg_locked ha hp hd hf hw hl),
      fun x hw hx hm => write_completes rfl hc (writeReg_refused ha hp hd hf hw hx hm), fun hl hr => ?_⟩
    have hwrite := writeReg_admitted (v := v) ha hp hd hf ⟨hl, hr⟩
    refine ⟨fun hw => write_completes rfl hc (hwrite.trans (putWord_single hw)), fun hw hs hro hi => ?_,
      fun st hw hro hhigh hs => write_completes rfl hc (hwrite.trans ?_)⟩
    · refine write_completes rfl hc ?_
      rw [hwrite, if_pos (by simp [hro]), putWord_lower hs hi]
      exact ⟨State.onlyChanges_setPb, congrArg PathBlock.stage (State.pb_setPb_same ..)⟩
    · rw [if_pos (by simp [hro]), putWord_commit hw hhigh (Nat.mod_lt _ (by decide)) hs]
  · exact write_completes rfl hc (writeReg_readOnly ha ⟨h10, h18, hsel⟩ hd hf)
  · exact write_completes rfl hc (writeReg_none ha ⟨h10, h18, hsel⟩ hd)

end Sys2Proof.Machine
end


section
/-!
SUPPORT. A block's own registers by their addresses: which register such an address names whatever the selects hold, and what a
write of a setting leaves.
-/
namespace Sys2Proof.Machine

/-! ## The register that an address of the block's own names (R492, R496) -/

/-- The offset lies in the register. -/
def RegDef.covers (off : Nat) (d : RegDef) : Bool := decide (d.off ≤ off) && decide (off < d.off + 4 * d.words)

/-- Every register of the list ends below offset 0x1000. -/
def endsBelow (l : List RegDef) : Bool := l.all fun d => decide (d.off + 4 * d.words ≤ 0x1000)

theorem endsBelow_ite {c : Prop} [Decidable c] {l m : List RegDef} (hl : endsBelow l = true) (hm : endsBelow m = true) :
    endsBelow (if c then l else m) = true := by split <;> assumption

theorem endsBelow_append {l m : List RegDef} (hl : endsBelow l = true) (hm : endsBelow m = true) :
    endsBelow (l ++ m) = true := by
  rw [endsBelow, List.all_append]
  exact Bool.and_eq_true_iff.2 ⟨hl, hm⟩

/-- The registers that a select chooses lie below the block's own. -/
theorem instRegs_endsBelow (p : Path) (blk i : Nat) : endsBelow (instRegs p blk i) = true := by
  unfold instRegs
  split
  case h_6 => exact endsBelow_ite rfl rfl
  case h_8 => exact endsBelow_ite rfl (endsBelow_ite rfl (endsBelow_ite rfl (endsBelow_ite rfl rfl)))
  case h_9 => exact endsBelow_ite (endsBelow_append rfl (endsBelow_ite rfl rfl)) rfl
  all_goals rfl

/-- The registers that a secondary select chooses begin at offset 0x1100. -/
theorem secondRegs_begin (blk i : Nat) : ((secondRegs blk i).all fun d => decide (0x1100 ≤ d.off)) = true := by
  unfold secondRegs
  split <;> rfl

theorem find?_covers_of_endsBelow {l : List RegDef} {off : Nat} (h : endsBelow l = true) (ho : 0x1000 ≤ off) :
    l.find? (RegDef.covers off) = none := by
  refine List.find?_eq_none.2 fun d hd => ?_
  have hb := List.all_eq_true.1 h d hd
  simp only [decide_eq_true_eq] at hb
  simp [RegDef.covers]
  omega

theorem find?_covers_secondRegs {blk i off : Nat} (ho : off < 0x1100) : (secondRegs blk i).find? (RegDef.covers off) = none := by
  refine List.find?_eq_none.2 fun d hd => ?_
  have hb := List.all_eq_true.1 (secondRegs_begin blk i) d hd
  simp only [decide_eq_true_eq] at hb
  simp [RegDef.covers]
  omega

/-- The address is that of a word of a block's own registers from 0x1000 to 0x10FF, and of none of the header. -/
def ownWord (addr : Nat) : Bool :=
  let blk := addr / 0x10000 % 16
  let off := addr % 0x10000
  off % 4 == 0 && Nat.ble 0x1000 off && Nat.blt off 0x1100 && (headRegs blk).all (fun d => !d.covers off) &&
    !(secondSel blk).any fun x => x.1 == off

section Own
variable {addr : Nat}

theorem ownWord_addr (h : ownWord addr = true) : AddrIn addr (addr / 0x10000 % 16) (addr % 0x10000) := by
  simp only [ownWord, Bool.and_eq_true, beq_iff_eq] at h
  exact ⟨rfl, by omega⟩

theorem ownWord_plain (h : ownWord addr = true) : Plain (addr / 0x10000 % 16) (addr % 0x10000) := by
  simp only [ownWord, Bool.and_eq_true, Nat.ble_eq, Bool.not_eq_true'] at h
  obtain ⟨⟨⟨⟨-, hlow⟩, -⟩, -⟩, hsel⟩ := h
  exact ⟨by omega, by omega, hsel⟩

/-- Whatever the selects hold, such an address names a register of the block's own table. -/
theorem regAt_own (h : ownWord addr = true) (s : State) (p : Path) :
    s.regAt p (addr / 0x10000 % 16) (addr % 0x10000) =
      (globRegs p (addr / 0x10000 % 16)).find? (RegDef.covers (addr % 0x10000)) := by
  simp only [ownWord, Bool.and_eq_true, Nat.ble_eq, Nat.blt_eq] at h
  obtain ⟨⟨⟨⟨-, hlow⟩, hhigh⟩, hhead⟩, -⟩ := h
  have head : (headRegs (addr / 0x10000 % 16)).find? (RegDef.covers (addr % 0x10000)) = none :=
    List.find?_eq_none.2 fun d hd => by simpa using List.all_eq_true.1 hhead d hd
  have inst : ∀ i, (instRegs p (addr / 0x10000 % 16) i).find? (RegDef.covers (addr % 0x10000)) = none :=
    fun i => find?_covers_of_endsBelow (instRegs_endsBelow p _ i) hlow
  have second : ∀ i, (secondRegs (addr / 0x10000 % 16) i).find? (RegDef.covers (addr % 0x10000)) = none :=
    fun i => find?_covers_secondRegs hhigh
  have ifNone {c : Prop} [Decidable c] {l : List RegDef} (hl : l.find? (RegDef.covers (addr % 0x10000)) = none) :
      (if c then l else []).find? (RegDef.covers (addr % 0x10000)) = none := by
    split
    · exact hl
    · rfl
  change (headRegs _ ++ s.regs p _).find? (RegDef.covers (addr % 0x10000)) = _
  simp only [State.regs, List.find?_append, head, ifNone (inst _), ifNone (second _), Option.none_or]

end Own

/-! ## Settings -/

/-- The address is that of a setting of one word which is not of the handover lock: the right that a write needs, the mask of its RO
fields, and what a write does. -/
structure SettingAt (p : Path) (addr : Nat) (x : Option Right) (ro : Nat) (f : Req → Nat → State → State) : Prop where
  own : ownWord addr = true
  reg : ∃ d, (globRegs p (addr / 0x10000 % 16)).find? (RegDef.covers (addr % 0x10000)) = some d ∧ d.put = some f ∧
    d.words = 1 ∧ d.wl = false ∧ d.right = x ∧ d.roMask = ro

theorem SettingAt.of {p : Path} {addr off ro : Nat} {x gate : Option Right} {hidden : Bool} {get : State → Nat}
    {f : Req → Nat → State → State} (own : ownWord addr = true)
    (reg : (globRegs p (addr / 0x10000 % 16)).find? (RegDef.covers (addr % 0x10000)) =
      some ⟨off, 1, get, some f, x, gate, false, hidden, ro⟩) : SettingAt p addr x ro f :=
  ⟨own, _, reg, rfl, rfl, rfl, rfl, rfl⟩

section Settings
variable {s : State} {r : Req} {addr v ro : Nat} {f : Req → Nat → State → State} {q : State → Prop}

/-- A write of a setting by a holder of its right which leaves its RO fields alone does what the register does. -/
theorem SettingAt.write_completes {x : Option Right} (h : SettingAt r.path addr x ro f) (hc : s.pwr.core = true) (hv : v < 2 ^ 32)
    (hm : (x.all fun x => s.may r.principal x) = true) (hro : v &&& ro = 0) (hq : q (f r v s)) :
    Completes (.registerWrite r addr v) s q := by
  obtain ⟨own, d, hd, hf, hw, hl, rfl, rfl⟩ := h
  have admits : s.Admits r d := by
    refine ⟨fun hl' => ?_, fun _ x hx => ?_⟩
    · rw [hl] at hl'
      cases hl'
    · simpa [hx] using hm
  refine Machine.write_completes rfl hc ?_
  rw [writeReg_admitted (ownWord_addr own) (ownWord_plain own) ((regAt_own own s r.path).trans hd) hf admits,
    Nat.mod_eq_of_lt hv, if_pos (by simp [hro]), putWord_single hw]
  exact hq

/-- A write of a setting without its right is refused (R468). -/
theorem SettingAt.write_refused {x : Right} (h : SettingAt r.path addr (some x) ro f) (hc : s.pwr.core = true)
    (hm : s.may r.principal x = false) (hq : q (s.refuseWrite r.path r.principal addr)) :
    Completes (.registerWrite r addr v) s q := by
  obtain ⟨own, d, hd, hf, -, hl, hx, -⟩ := h
  refine Machine.write_completes rfl hc ?_
  rw [writeReg_refused (ownWord_addr own) (ownWord_plain own) ((regAt_own own s r.path).trans hd) hf hl hx hm]
  exact hq

end Settings

/-! ## What a refused write counts (R17, R468) -/

theorem State.event_lockViol (s : State) (blk cause inst data : Nat) :
    (s.event blk cause inst data).evt.lockViol = s.evt.lockViol := by
  unfold State.event
  split <;> rfl

theorem State.violation_lockViol (s : State) (p : Path) (addr : Nat) :
    (s.violation p addr).evt.lockViol = s.evt.lockViol.inc.1 := by
  have counted : (s.bump 15 0 s.evt.lockViol fun c s => { s with evt := { s.evt with lockViol := c } }).evt.lockViol =
      s.evt.lockViol.inc.1 := by
    unfold State.bump
    split
    · exact State.event_lockViol ..
    · rfl
  unfold State.violation
  extract_lets t
  split
  · exact (State.event_lockViol ..).trans counted
  · exact counted

theorem State.record_lockViol (s : State) (typ source kind : Nat) (site : Option Nat) (data : Bytes) :
    (s.record typ source kind site data).evt.lockViol = s.evt.lockViol := by
  have flushed : s.flushGap.evt = s.evt := (State.flushGap_touches (ps := [.log]) rfl (.refl _ s)).only .evt rfl
  rw [← flushed]
  unfold State.record State.pushRec
  extract_lets _ t
  split
  · exact congrArg Events.lockViol ((State.startPage_touches (ps := [.log]) rfl (.refl _ _)).only .evt rfl)
  · unfold State.bump
    split
    · exact State.event_lockViol ..
    · rfl

theorem State.refuseWrite_lockViol (s : State) (p : Path) (prin addr : Nat) :
    (s.refuseWrite p prin addr).evt.lockViol = s.evt.lockViol.inc.1 := by
  rw [← s.violation_lockViol p addr]
  unfold State.refuseWrite State.deniedRec
  split
  · exact State.record_lockViol ..
  · rfl

theorem State.refuseWrite_rst (s : State) (p : Path) (prin addr : Nat) : (s.refuseWrite p prin addr).rst = s.rst :=
  (State.refuseWrite_touches (ps := [.log, .evt, .mgt]) rfl (.refl _ s)).only .rst rfl

/-- Settles O43: each address is that of a setting in its block's table, whose write is read off the table. -/
theorem settingRegistersHoldTheirRanges : Obligations.SettingRegistersHoldTheirRanges := by
  intro s r v hc hv
  have whole : v &&& 0 = 0 := Nat.and_zero v
  have refused (addr : Nat) : (s.refuseWrite r.path r.principal addr).rst = s.rst ∧
      (s.refuseWrite r.path r.principal addr).evt.lockViol = s.evt.lockViol.inc.1 :=
    ⟨s.refuseWrite_rst .., s.refuseWrite_lockViol ..⟩
  have rstCause : SettingAt r.path 0x01014 (some .reset) 0 _ := .of (by decide) rfl
  have wdtPeriod : SettingAt r.path 0x01034 (some .reset) 0 _ := .of (by decide) rfl
  have retryNormal : SettingAt r.path 0x01058 (some .reset) 0 _ := .of (by decide) rfl
  have ptpDomain : SettingAt r.path 0xE1084 (some .reset) 0 _ := .of (by decide) rfl
  have commitDwell : SettingAt r.path 0x21024 (some .update) 0 _ := .of (by decide) rfl
  have pushFail : SettingAt r.path 0x21068 (some .update) 0 _ := .of (by decide) rfl
  have errLimit : SettingAt r.path 0xC1000 (some .memory) 0 _ := .of (by decide) rfl
  have scrubPeriod : SettingAt r.path 0xC1004 (some .memory) 0 _ := .of (by decide) rfl
  have holdWindow : SettingAt r.path 0xE1008 (some .pair) 0 _ := .of (by decide) rfl
  have pairStatus : SettingAt r.path 0xE1004 (some .pair) 0xD _ := .of (by decide) rfl
  have seqIdle : SettingAt r.path 0xB1008 (some .journal) 0 _ := .of (by decide) rfl
  have gapWait : SettingAt r.path 0xB100C (some .journal) 0 _ := .of (by decide) rfl
  have retain : SettingAt r.path 0xA1040 (some .audit) 0 _ := .of (by decide) rfl
  have trayBudget : SettingAt r.path 0x51000 none 0 _ := .of (by decide) rfl
  refine ⟨fun hm => ⟨?_, ?_, ?_, ?_⟩, fun hm => ⟨?_, ?_⟩, fun hm => ⟨?_, ?_⟩, fun hm => ⟨?_, fun hb => ?_⟩, fun hm => ⟨?_, ?_⟩,
    fun hm => ?_, fun hm => ?_, fun hm => ⟨?_, ?_⟩⟩
  · exact rstCause.write_completes hc hv hm whole rfl
  · exact wdtPeriod.write_completes hc hv hm whole rfl
  · exact retryNormal.write_completes hc hv hm whole rfl
  · exact ptpDomain.write_completes hc hv hm whole rfl
  · exact commitDwell.write_completes hc hv hm whole rfl
  · exact pushFail.write_completes hc hv hm whole rfl
  · exact errLimit.write_completes hc hv hm whole rfl
  · exact scrubPeriod.write_completes hc hv hm whole rfl
  · exact holdWindow.write_completes hc hv hm whole rfl
  · exact pairStatus.write_completes hc hv hm hb rfl
  · exact seqIdle.write_completes hc hv hm whole rfl
  · exact gapWait.write_completes hc hv hm whole rfl
  · exact retain.write_completes hc hv hm whole rfl
  · exact trayBudget.write_completes hc hv rfl whole (exec_eq_next (.trayBudgetWrite r (toInt 32 v)) s)
  · exact rstCause.write_refused hc hm (refused _)
  · exact wdtPeriod.write_refused hc hm (refused _)

end Sys2Proof.Machine
end


section
/-!
SUPPORT. The gates of Machine/Ops.lean when they stand closed: without its domains powered a block stands still (R29).
-/
namespace Sys2Proof.Machine

/-- What a gate answers while its domain is off, whatever its command would do (State.standbyDo, State.coreDo, State.fwDo). -/
theorem gate_off {s t : State} {b : Bool} (h : b = false) :
    (.next (if b then t else s) : Host.Outcome State Fault Refusal) = .next s := by
  rw [h]
  rfl

theorem imageGate_off {s : State} (h : s.pwr.core = false) : (s.pwr.core && s.pwr.armature && s.boot.run.isSome) = false := by
  rw [h]
  rfl

/-- Settles O55: every command but the three supply events goes through the gate of the domain that serves it (R29): the standby
domain's, a released image's, or the core domain's. -/
theorem unpoweredBlockStandsStill : Obligations.UnpoweredBlockStandsStill := by
  intro c s hs hc hpower hon hoff
  cases c with
  | powerOn => exact absurd rfl hpower
  | standbyOn => exact absurd rfl hon
  | standbyOff => exact absurd rfl hoff
  | surveySlowScanTimer | surveyStaleTimeout | surveyBusTimeout | railCntClr | telemetryRecord | wardenTelemetryPoll
    | telemetryStaleTimeout | meteringIntervalEnd | powerWindow1msEnd | powerWindow1sEnd | jobMark
    | sitePresentAsserted | siteSettleExpiry | siteIdentityRead | siteIdromRereadTimer | sitePresenceLost
    | siteRetryWaitExpiry | railUpDelayExpiry | railPgChange | railRiseTimeout | railPgLossTimer
    | railDownDelayExpiry | railFallTimeout | railBackoffExpiry | railRetryCountReset | pmbusWriteDone | pmbusPgPoll
    | trayResetWidthExpiry | wardenBrownout | wardenSupervisorReset | wardenReload | wardenResetRelease
    | capGuardWindow | reliefVoltageCrossing | reliefCurrentCrossing | reliefStage2 | reliefReleaseCondition
    | reliefReleaseStepExpiry | patinaSecond | patinaRecordWrite | logPageProgramDone | logSectorEraseDone
    | logDeviceTimeout | logRingRecoveryDone | snapshotPeriodicTimer | snapshotBankEraseDone | leakRopeReading
    | leakPointSample | accelSample | shakeNoteEpisodeEnd | accelSelfTest | accelNoAnswer | zoneSensorExclusion
    | zoneSensorReadmission | zoneColdLieCheck | zoneGuardExitTimer | flowRateUpdate | flowLossTimeExpiry
    | coolantLossEndTimer | coolingTick | fanStartTimeout | fanStallTimerExpiry | fanSeizedTimerExpiry
    | coolWdtExpiry | valveTravelTimeout | valvePosChange | valveUncommandedTimer | journalFlushDescriptorDone
    | maqVerifyComplete | maqStagedCommit | profilePinsStable | inputUndervoltageReset | plinthSupervisorReset
    | debugAuthorisedReset | recoveryReqHold | snapshotTrailerWritten | inputGood | strapStable | standbyDiesUp
    | maquetteStartLoad | coreDomainUp | siteAdoption | startStepTimeout | startStepRetryTimer | ledgerFlashMirror
    | holdupBegin | holdupEnd | holdWindowExpiry | braceHoldExpiry | tjSample | tjStopReleaseTimer | tjResetRelease
    | railQualifyExpiry | surveySample | moduleGroupResequence | rcOscStopExpiry | ownNHeartbeat
    | ownNReleaseObserved | pairClaimDelayExpiry | pairOwnNIdleTimeout | pairTakeoverHang | pairTakeoverDrive
    | takeNAsserted | pairSyncAgeTimeout | pairLinkChange | ejectNAsserted | ejectLatchRelease | clockGrant
    | clockIdleExpiry | clockGrantTimeout =>
    exact gate_off hs
  | promoteManager | armRun | launchRun | disarmRun | closeRun | handoverLead | takeLead | holdSet | chiselFreeze
    | chiselThaw | chiselReset | chiselExport | chiselImport | manifestSigned | journalRecovery
    | siteImageDigestCheck | capDivision | chiselCheckpoint | installFw | updatePlaster | storeSiteImage | commitFw
    | pushSite | activateSite | versionReport | updateOperationDone | deferredBlockCheck | sitePushDone
    | helloSession | controlRecordRefused | plasterImageReceived | fullServiceReported | ptpMessage | revokeKeys
    | optionUpdate | keyProvision | revminRestore | debugOpen | principalSet | spdmGetVersion | spdmGetCapabilities
    | spdmNegotiateAlgorithms | spdmGetDigests | spdmGetCertificate | spdmChallenge | spdmGetMeasurements
    | eventForward | eventPushRetry | tlsConnect | redfishRequest | telemetryStreamPeriod =>
    exact gate_off (imageGate_off hc)
  | _ => exact gate_off hc

end Sys2Proof.Machine
end


section
/-!
SUPPORT. Queues: what a completion leaves of its queue, what a register write and the taking of an entry do (R440 to R447).
-/
namespace Sys2Proof.Machine

/-- A command completes with what it does where its gate stands open. -/
theorem completes_gated {c : Instr} {s t : State} {b : Bool} {p : State → Prop} (he : exec c s = .next (if b then t else s))
    (hb : b = true) (h : p t) : Completes c s p :=
  ⟨t, he.trans (congrArg _ (if_pos hb)), h⟩

/-! ## What reads of the state depend on -/

theorem State.queue_congr {s t : State} (h : t.ques = s.ques) (q : Nat) : t.queue q = s.queue q := by
  rw [State.queue, h]
  rfl

/-- A principal's rights depend on the table in flash, the debug port's opening and the image that runs (R469, R470). -/
theorem State.may_congr {s t : State} (h0 : t.flash0 = s.flash0) (h1 : t.flash1 = s.flash1) (hd : t.debug = s.debug)
    (hb : t.boot = s.boot) (p : Nat) (x : Right) : t.may p x = s.may p x := by
  have hf (dev : Nat) : t.flash dev = s.flash dev := by
    unfold State.flash
    rw [h0, h1]
  have hc (dev : Nat) : t.princCopy dev = s.princCopy dev := by
    unfold State.princCopy State.fread
    rw [hf]
  have ht : t.princTable = s.princTable := by
    unfold State.princTable
    rw [hc, hc]
  unfold State.may State.rights
  rw [ht, hd, hb]

/-! ## Completions and a queue's registers (R443, R444) -/

theorem State.giveRing_ques (s : State) (q : Nat) (p : Path) (a : Nat) (b : Bytes) : (s.giveRing q p a b).ques = s.ques :=
  (State.giveRing_touches (ps := [.mem, .ebx, .evt, .dram, .out]) rfl (.refl _ s)).only .ques rfl

/-- The queue with its completion tail, phase and full mark moved. -/
def Queue.withTail (x : Queue) (tail : Nat) (phase full : Bool) : Queue := { x with cqTail := tail, phase := phase, full := full }

/-- A completion moves the tail, its phase and the full mark, and nothing else of the queue. -/
theorem State.queue_putCompletion (s : State) (q : Nat) (p : Path) (tag st b5 b6 : Nat) (rest : Bytes) :
    ∃ tail phase full, (s.putCompletion q p tag st b5 b6 rest).queue q = (s.queue q).withTail tail phase full := by
  unfold State.putCompletion
  extract_lets x s1 t
  have h1 : s1.queue q = x := State.queue_congr (State.giveRing_ques ..) q
  exact ⟨t.1, t.2, t.1 == x.cqHead, (State.queue_setQueue_same ..).trans (congrArg (Queue.withTail · _ _ _) h1)⟩

theorem State.queue_putCompletion_other (s : State) {q k : Nat} (p : Path) (tag st b5 b6 : Nat) (rest : Bytes) (h : k ≠ q) :
    (s.putCompletion q p tag st b5 b6 rest).queue k = s.queue k :=
  (State.queue_setQueue_other _ _ _ h).trans (State.queue_congr (State.giveRing_ques ..) k)

/-- An ERROR that a queue enters sets its mark and code; its completion moves the tail (R444). -/
theorem State.queue_queueError {s : State} {q : Nat} (cause : Nat) (h : (s.queue q).error = false) :
    ∃ tail phase full, (s.queueError q cause).queue q =
      ({ s.queue q with error := true, code := cause } : Queue).withTail tail phase full := by
  unfold State.queueError
  extract_lets x s1
  have h1 : s1.queue q = { x with error := true, code := cause } := State.queue_setQueue_same ..
  rw [if_neg (by simp [x, h])]
  split
  · exact ⟨_, _, _, h1⟩
  · obtain ⟨tail, phase, full, hq⟩ := s1.queue_putCompletion q (x.owners.head?.elim .fabric Prod.snd) 0xFFFFFFFF 0x92 0 0
      (leBytes 4 cause ++ midBytes (some q))
    exact ⟨tail, phase, full, by rw [hq, h1]⟩

/-- From `x` to `y` only what a completion changes of its queue: the tail with its mark and phase, and the entries in flight. -/
def Queue.CompletesTo (x y : Queue) : Prop :=
  y = { x with cqTail := y.cqTail, phase := y.phase, full := y.full, taken := y.taken, closing := y.closing }

theorem State.queue_completeAs (s : State) (r : Req) (st b5 b6 : Nat) (rest : Bytes) (k : Nat) :
    (s.queue k).CompletesTo ((s.completeAs r st b5 b6 rest).queue k) := by
  have event (u : State) (q : Nat) (ring : Nat) : (u.completionEvent q r.path ring r.tag).queue k = u.queue k :=
    State.queue_congr ((State.completionEvent_touches (ps := [.mem, .evt, .dram, .out]) rfl (.refl _ u)).only .ques rfl) k
  unfold State.completeAs
  extract_lets s1
  have h1 : s1.queue k = s.queue k := rfl
  split
  · rw [h1]
    rfl
  · next q _ =>
    extract_lets x s2 s3
    have h3 : (s.queue k).CompletesTo (s3.queue k) := by
      by_cases hk : k = q
      · subst hk
        obtain ⟨tail, phase, full, hq⟩ := s2.queue_putCompletion k r.path r.tag st b5 b6 rest
        rw [hq, State.queue_setQueue_same]
        rfl
      · rw [s2.queue_putCompletion_other _ _ _ _ _ _ hk, s1.queue_setQueue_other _ _ hk]
        rfl
    split
    · split
      · rw [event]
        exact h3
      · exact h3
    · split
      · next c _ =>
        extract_lets s4
        have h4 : (s.queue k).CompletesTo (s4.queue k) := by
          by_cases hk : k = q
          · subst hk
            rw [show s4.queue k = _ from State.queue_setQueue_same ..]
            rw [State.queue_congr (State.giveRing_ques ..)]
            rfl
          · rw [show s4.queue k = _ from State.queue_setQueue_other _ _ _ hk, State.queue_congr (State.giveRing_ques ..)]
            rfl
        split
        · rw [event]
          exact h4
        · exact h4
      · rfl

/-! ## Asking for the next entry, and refusals -/

theorem State.grows_askEntry (s : State) (q : Nat) : s.grows (s.askEntry q) := by
  unfold State.askEntry
  extract_lets
  split
  · split
    · exact State.grows_request
    · exact State.grows_refl rfl
  · exact State.grows_refl rfl

theorem State.deniedRec_frame (s : State) (p : Path) (prin : Nat) : s.onlyChanges [.log, .evt, .mgt] (s.deniedRec p prin) :=
  (State.deniedRec_touches rfl (.refl _ s)).only

/-- A denied command answers DENIED (R468). -/
theorem State.deny_answers (s : State) (r : Req) : s.answers (s.deny r) r 0x37 0 0 :=
  State.answers_of_grows (State.grows_refl ((s.deniedRec_frame r.path r.principal) .out rfl)) (State.complete_answers _ r 0x37 0 0)

theorem State.queue_deny (s : State) (r : Req) (k : Nat) : (s.queue k).CompletesTo ((s.deny r).queue k) := by
  rw [← State.queue_congr ((s.deniedRec_frame r.path r.principal) .ques rfl) k]
  exact State.queue_completeAs ..


theorem State.askEntry_frame (s : State) (q : Nat) : s.onlyChanges [.ebx, .out] (s.askEntry q) :=
  (State.askEntry_touches rfl (.refl _ s)).only

/-! ## Doorbells, sizes and heads (R440, R441, R443) -/

section Registers
variable {s : State} {r : Req} {q v off : Nat} {f : State → State}

/-- A doorbell in range sets the tail and names the writer as owner of each entry that became pending (R26, R441). -/
theorem State.queue_doorbell {p : Nat} {path : Path} (he : (s.queue q).enabled = true) (hv : v < (s.queue q).sqSize) :
    (s.doorbell q p path v).queue q = { s.queue q with
      sqTail := v
      owners := ((s.queue q).owners ++ List.replicate ((v + (s.queue q).sqSize - (s.queue q).sqHead) % (s.queue q).sqSize)
        (p, path)).take ((v + (s.queue q).sqSize - (s.queue q).sqHead) % (s.queue q).sqSize) } := by
  unfold State.doorbell
  extract_lets x n own
  rw [if_neg (by simp [x, he]), if_neg (Nat.not_le.2 hv), State.queue_congr ((State.askEntry_frame _ q) .ques rfl),
    State.queue_congr ((State.doorbellClock_touches (ps := [.pwr]) rfl (.refl _ _)).only .ques rfl), State.queue_setQueue_same]

theorem State.doorbell_off {p : Nat} {path : Path} (he : (s.queue q).enabled = false) : s.doorbell q p path v = s := by
  simp [State.doorbell, he]

theorem State.doorbell_out {p : Nat} {path : Path} (he : (s.queue q).enabled = true) (hv : (s.queue q).sqSize ≤ v) :
    s.doorbell q p path v = s.queueError q 1 := by
  unfold State.doorbell
  extract_lets x
  rw [if_neg (by simp [x, he]), if_pos hv]

/-- A doorbell of a Caliper queue asks for the Caliper clock (R35). -/
theorem State.doorbellClock_caliper (h : q = 1 ∨ q = 2) : (s.doorbellClock q).pwr.clkReq.getLsbD 2 = true := by
  unfold State.doorbellClock
  rw [if_pos h]
  extract_lets k s1
  have h1 : s1.pwr.clkReq.getLsbD 2 = true := by simp [s1, k, State.askClock, setBit]
  split
  · simpa [State.askClock, setBit] using h1
  · exact h1

theorem State.clkReq_doorbell {p : Nat} {path : Path} (he : (s.queue q).enabled = true) (hv : v < (s.queue q).sqSize)
    (h : q = 1 ∨ q = 2) : (s.doorbell q p path v).pwr.clkReq.getLsbD 2 = true := by
  unfold State.doorbell
  extract_lets x n own
  rw [if_neg (by simp [x, he]), if_neg (Nat.not_le.2 hv), (State.askEntry_frame _ q) .pwr rfl]
  exact State.doorbellClock_caliper h

theorem State.queueWrite_on (h : ∀ x, queueRight q = some x → s.may r.principal x = true) : s.queueWrite r q off f = f s := by
  unfold State.queueWrite
  split
  · next x hx => exact withWriteRight_on (h x hx)
  · rfl

/-- A queue's register without the engine's right changes no queue (R468). -/
theorem State.queueWrite_refused {x : Right} (hx : queueRight q = some x) (h : s.may r.principal x = false) :
    s.onlyChanges [.log, .evt, .mgt] (s.queueWrite r q off f) := by
  simp only [State.queueWrite, hx, State.withWriteRight, h, Bool.false_eq_true, if_false]
  exact (State.refuseWrite_touches rfl (.refl _ s)).only

/-- A size write empties the queue; where its new bases lie outside every window ERROR follows (R440, R444). -/
theorem State.queue_sizeWrite (s : State) (q : Nat) (cq : Bool) (v : Nat) : ∃ y : Queue,
    y.sqSize = (if cq then (s.queue q).sqSize else ringSizeOf v) ∧ y.cqSize = (if cq then ringSizeOf v else (s.queue q).cqSize) ∧
    y.sqHead = 0 ∧ y.sqTail = 0 ∧ y.taken = [] ∧ y.owners = [] ∧ y.error = false ∧ y.cqTail = 0 ∧ y.phase = true ∧
    ((s.sizeWrite q cq v).queue q = y ∨ y.enabled = true ∧ ∃ tail phase full,
      (s.sizeWrite q cq v).queue q = ({ y with error := true, code := 2 } : Queue).withTail tail phase full) := by
  unfold State.sizeWrite
  extract_lets x closing y s1 ebx s2
  have h2 : s2.queue q = y := State.queue_setQueue_same ..
  refine ⟨y, rfl, rfl, rfl, rfl, rfl, rfl, rfl, rfl, rfl, ?_⟩
  split
  · next h =>
    obtain ⟨tail, phase, full, hq⟩ := State.queue_queueError (s := s2) (q := q) 2 (by rw [h2])
    exact .inr ⟨(Bool.and_eq_true_iff.1 h).1, tail, phase, full, by rw [hq, h2]⟩
  · exact .inl h2

/-- The slots that a CQ_HEAD below CQ_SIZE frees, where they have been written (R443). -/
theorem State.headWrite_frees (he : (s.queue q).enabled = true) (hf : (s.queue q).full = false) (hv : v < (s.queue q).cqSize)
    (hn : (v + (s.queue q).cqSize - (s.queue q).cqHead) % (s.queue q).cqSize ≤ (s.queue q).unconsumed) :
    ∃ stall, s.headWrite q v = s.setQueue q { s.queue q with cqHead := v, full := false, stall := stall } := by
  unfold State.headWrite
  extract_lets x n
  have hx : x.full = false := hf
  have hn : n ≤ x.unconsumed := by simpa [n, hx] using hn
  rw [if_neg (by simp [x, he]), if_neg (by simp only [x] at *; omega), hx]
  exact ⟨_, rfl⟩

theorem State.headWrite_out (he : (s.queue q).enabled = true) (hv : (s.queue q).cqSize ≤ v) : s.headWrite q v = s.queueError q 3 := by
  unfold State.headWrite
  extract_lets x n
  rw [if_neg (by simp [x, he]), if_pos (.inl hv)]

end Registers

/-! ## Taking an entry (R441, R442, R445) -/

section Entries
variable {s : State} {q : Nat}

/-- The engine of a queue looks at its ring: the queue is enabled and not in ERROR, an entry is pending, and the engine is free. -/
structure State.Looks (s : State) (q : Nat) : Prop where
  enabled : (s.queue q).enabled = true
  error : (s.queue q).error = false
  waiting : (s.queue q).waiting ≠ 0
  free : s.engineFree q = true

/-- The queue with its next entry taken (R441). -/
def Queue.take (x : Queue) (t : Taken) : Queue := { x with
  stall := false, sqHead := (x.sqHead + 1) % x.sqSize, owners := x.owners.drop 1, taken := x.taken ++ [t], got := none, fails := 0 }

/-- The state in which an engine holds the next entry, with the one behind it asked for (R441). -/
def State.holding (s : State) (q : Nat) (t : Taken) : State := (s.setQueue q ((s.queue q).take t)).askEntry q

theorem State.holding_frame (t : Taken) : s.onlyChanges [.ques, .ebx, .out] (s.holding q t) :=
  (State.askEntry_touches rfl (State.setQueue_touches rfl (.refl _ s))).only

theorem State.queue_holding (t : Taken) : (s.holding q t).queue q = (s.queue q).take t := by
  rw [State.holding, State.queue_congr ((State.askEntry_frame _ q) .ques rfl), State.queue_setQueue_same]

theorem State.grows_holding (t : Taken) : s.grows (s.holding q t) :=
  State.grows_trans (s := s.setQueue q _) (State.grows_refl rfl) (State.grows_askEntry _ q)

theorem State.may_holding (t : Taken) (p : Nat) (x : Right) : (s.holding q t).may p x = s.may p x :=
  have h := State.holding_frame t
  State.may_congr (h .flash0 rfl) (h .flash1 rfl) (h .debug rfl) (h .boot rfl) p x

/-- An entry that an engine reads is taken, then denied, refused as unknown, or carried out by the command of its name. -/
theorem State.takeEntry_reads {e : Bytes} {o : Nat × Path} (h : s.Looks q) (hr : (s.queue q).canReserve = true)
    (hn : (s.nextEntry q).1 = some e) (ho : (s.queue q).owners.headD (unknownPrincipal, .fabric) = o) :
    s.takeEntry q =
      if (queueRight q).any (fun y => !s.may o.1 y) then (s.holding q ⟨e, o.1, o.2⟩).deny (Taken.req ⟨e, o.1, o.2⟩ q)
      else if (opcodes q).contains (u16 e 0) then s.holding q ⟨e, o.1, o.2⟩
      else (s.holding q ⟨e, o.1, o.2⟩).complete (Taken.req ⟨e, o.1, o.2⟩ q) 0x10 (if q = 0 then 0x80000000 else 0) 0 := by
  obtain ⟨he, her, hw, hf⟩ := h
  subst ho
  simp only [← State.may_holding (s := s) (q := q) ⟨e, ((s.queue q).owners.headD (unknownPrincipal, .fabric)).1,
    ((s.queue q).owners.headD (unknownPrincipal, .fabric)).2⟩]
  unfold State.takeEntry
  extract_lets x got
  rw [if_neg (by simp [x, he, her, hw, hf]), if_neg (by simp [x, hr]), show got.1 = some e from hn]
  rfl

theorem State.takeEntry_stalls (h : s.Looks q) (hr : (s.queue q).canReserve = false) :
    s.takeEntry q = s.setQueue q { s.queue q with stall := true } := by
  obtain ⟨he, her, hw, hf⟩ := h
  unfold State.takeEntry
  extract_lets x
  rw [if_neg (by simp [x, he, her, hw, hf]), if_pos (by simp [x, hr])]

theorem State.takeEntry_none (h : ¬ s.Looks q) : s.takeEntry q = s := by
  unfold State.takeEntry
  extract_lets x
  refine if_pos ?_
  by_contra hc
  simp only [Bool.or_eq_true, Bool.not_eq_true', beq_iff_eq, not_or, Bool.not_eq_true, Bool.not_eq_false] at hc
  obtain ⟨⟨⟨he, her⟩, hw⟩, hf⟩ := hc
  exact h ⟨he, her, hw, hf⟩

/-- Whatever becomes of it, an entry that was taken has moved the head and used up its owner. -/
theorem State.queue_takeEntry {e : Bytes} {o : Nat × Path} (h : s.Looks q) (hr : (s.queue q).canReserve = true)
    (hn : (s.nextEntry q).1 = some e) (ho : (s.queue q).owners.headD (unknownPrincipal, .fabric) = o) :
    ((s.holding q ⟨e, o.1, o.2⟩).queue q).CompletesTo ((s.takeEntry q).queue q) := by
  rw [State.takeEntry_reads h hr hn ho]
  split
  · exact State.queue_deny ..
  · split
    · rfl
    · exact State.queue_completeAs ..

end Entries

/-- Settles O33: a clause is what one register write or the taking of one entry does, cut along the branches of the model's
State.doorbell, State.sizeWrite, State.headWrite and State.takeEntry. -/
theorem queueRegistersAndEntriesTakeEffect : Obligations.QueueRegistersAndEntriesTakeEffect := by
  intro s hc
  refine ⟨fun r q v he hv => ?_, fun r q v he hv hn => ?_, fun r q v he => ?_, fun r q v hm => ⟨?_, ?_⟩,
    fun r q v hm he hf => ⟨fun hv hn => ?_, fun hv hn => ?_⟩, fun q x hx r cq v hm => ⟨?_, ?_⟩,
    fun q e o he her hw hf hr hn ho => ?_, fun q he her hw hf hr => ?_, fun q h => ?_⟩
  all_goals
    refine completes_gated rfl hc ?_
    beta_reduce
  · rw [State.queue_doorbell he hv]
    exact ⟨rfl, rfl, rfl, rfl, fun hq => State.clkReq_doorbell he hv hq⟩
  · obtain ⟨tail, phase, full, hq⟩ := State.queue_queueError 1 hn
    rw [State.doorbell_out he hv, hq]
    exact ⟨rfl, rfl, rfl⟩
  · exact State.doorbell_off he
  · rw [State.queueWrite_on hm]
    obtain ⟨y, hsq, hcq, hh, ht, htk, how, her, hct, hph, h | ⟨-, tail, phase, full, h⟩⟩ := s.queue_sizeWrite q false v
    · rw [h]
      exact ⟨hsq, hcq, hh, ht, htk, how⟩
    · rw [h]
      exact ⟨hsq, hcq, hh, ht, htk, how⟩
  · rw [State.queueWrite_on hm]
    obtain ⟨y, hsq, hcq, hh, ht, htk, how, her, hct, hph, h | ⟨hen, tail, phase, full, h⟩⟩ := s.queue_sizeWrite q true v
    · rw [h]
      exact ⟨hcq, hsq, hh, ht, htk, fun _ => ⟨her, hct, hph⟩⟩
    · rw [h]
      refine ⟨hcq, hsq, hh, ht, htk, fun h0 => ?_⟩
      simp [Queue.enabled, hcq, h0] at hen
  · obtain ⟨stall, h⟩ := State.headWrite_frees he hf hv hn
    rw [State.queueWrite_on hm, h, State.queue_setQueue_same]
    exact ⟨rfl, rfl, rfl, (State.setQueue_touches rfl (.refl _ s)).only⟩
  · obtain ⟨tail, phase, full, hq⟩ := State.queue_queueError 3 hn
    rw [State.queueWrite_on hm, State.headWrite_out he hv, hq]
    exact ⟨rfl, rfl, rfl⟩
  · have h := State.queueWrite_refused (r := r) (off := if cq then 0x20 else 8) (f := fun s => s.sizeWrite q cq v) hx hm
    exact ⟨h .ques rfl, h⟩
  · have h := State.queueWrite_refused (r := r) (off := 0x24) (f := fun s => s.headWrite q v) hx hm
    exact ⟨h .ques rfl, h⟩
  · have hl : s.Looks q := ⟨he, her, hw, hf⟩
    have ht := State.takeEntry_reads hl hr hn ho
    have hq := State.queue_takeEntry hl hr hn ho
    rw [State.queue_holding] at hq
    refine ⟨congrArg Queue.sqHead hq, congrArg Queue.owners hq, fun hop hright => ?_, fun hright => ?_, fun hop h0 hright => ?_⟩
    · rw [ht, if_neg (Bool.eq_false_iff.1 hright), if_pos hop, State.queue_holding]
      rfl
    · rw [ht, if_pos hright]
      exact State.answers_of_grows (State.grows_holding _) (State.deny_answers ..)
    · rw [ht, if_neg (Bool.eq_false_iff.1 hright), if_neg (Bool.eq_false_iff.1 hop), if_neg h0]
      exact State.answers_of_grows (State.grows_holding _) (State.complete_answers _ _ 0x10 0 0)
  · exact State.takeEntry_stalls ⟨he, her, hw, hf⟩ hr
  · refine State.takeEntry_none fun hl => ?_
    obtain ⟨he, her, hw, hf⟩ := hl
    simp [he, her, hw, hf] at h

end Sys2Proof.Machine
end


section
/-!
SUPPORT. Rail orders touch the rails alone (R150 to R158): of the power and sequencer parts nothing else moves.
-/
namespace Sys2Proof.Machine

/-- From `s` to `t` the sequencer touches rails, and of the power record what rails ask for: the RC oscillator and the Survey dies' scan
with its burst clock (R34, R35, R37). -/
structure RailsOnly (s t : State) : Prop where
  pwr : t.pwr = { s.pwr with rcOsc := t.pwr.rcOsc, slowScan := t.pwr.slowScan, clkReq := t.pwr.clkReq }
  seq : t.seq = { s.seq with rails := t.seq.rails }

namespace RailsOnly

theorem refl (s : State) : RailsOnly s s := ⟨rfl, rfl⟩

theorem trans {r s t : State} (h : RailsOnly r s) (h' : RailsOnly s t) : RailsOnly r t :=
  ⟨by rw [h'.pwr, h.pwr], by rw [h'.seq, h.seq]⟩

theorem of_same {s t : State} (hp : t.pwr = s.pwr) (hs : t.seq = s.seq) : RailsOnly s t := ⟨by rw [hp], by rw [hs]⟩

theorem foldl {α : Type} {f : State → α → State} {l : List α} (hf : ∀ s a, RailsOnly s (f s a)) (s : State) :
    RailsOnly s (l.foldl f s) := by
  induction l generalizing s with
  | nil => exact refl s
  | cons a l ih => exact (hf s a).trans (ih (f s a))

theorem setRail (s : State) (g : Nat) (r : Rail) : RailsOnly s (s.setRail g r) := ⟨rfl, rfl⟩

theorem pmbusWrite (s : State) (g : Nat) (on : Bool) : RailsOnly s (s.pmbusWrite g on) :=
  have h := (State.pmbusWrite_touches (ps := [.out]) (g := g) (on := on) rfl (.refl _ s)).only
  of_same (h .pwr rfl) (h .seq rfl)

theorem unmask (s : State) (g : Nat) : RailsOnly s (s.unmask g) := by
  refine foldl (fun s k => ?_) s
  extract_lets d r
  split
  · exact setRail ..
  · exact refl s

theorem moveRail (s : State) (g : Nat) (r : Rail) : RailsOnly s (s.moveRail g r) := by
  unfold State.moveRail
  extract_lets was s1 s2
  have h1 : RailsOnly s s1 := setRail ..
  have h2 : RailsOnly s s2 := by
    unfold s2
    split
    · exact h1.trans (pmbusWrite ..)
    · split
      · exact h1.trans (pmbusWrite ..)
      · exact h1
  split
  · exact h2.trans (unmask ..)
  · exact h2

theorem railPass (s : State) (base n : Nat) : RailsOnly s (s.railPass base n) := by
  refine foldl (fun s k => ?_) s
  split
  · exact moveRail ..
  · exact refl s

theorem railPasses (s : State) (base n k : Nat) : RailsOnly s (s.railPasses base n k) := by
  induction k generalizing s with
  | zero => exact refl s
  | succ k ih => exact (railPass s base n).trans (ih _)

/-- The moves of the module's rails have no site's consequences (R153). -/
theorem settle (s : State) {g : Nat} (hg : 256 ≤ g) : RailsOnly s (s.settle g) := by
  unfold State.settle
  rw [show siteOf g = none from if_neg (by omega)]
  exact railPasses ..

theorem orderDown (s : State) (base n mask : Nat) : RailsOnly s (s.orderDown base n mask) := by
  refine foldl (fun s k => ?_) s
  extract_lets r
  split
  · exact refl s
  · exact setRail ..

theorem fullRate (s : State) (g : Nat) : RailsOnly s (s.fullRate g) := by
  refine foldl (fun s kind => ?_) s
  split
  · exact ⟨rfl, rfl⟩
  · exact refl s

theorem orderUp (s : State) (base n mask : Nat) : RailsOnly s (s.orderUp base n mask) := by
  refine foldl (fun s k => ?_) s
  extract_lets r
  split
  · exact (setRail s _ _).trans (fullRate ..)
  · exact refl s

end RailsOnly

/-- A step that begins powers its rails; of the power record it marks the fabric domain from step 14 and the memory domain from step 15
(R29). -/
theorem State.beginStep_pwr (s : State) {n : Nat} (form detail : Nat) (h14 : n ≠ 14) (h15 : n ≠ 15) :
    RailsOnly s (s.beginStep n form detail) := by
  unfold State.beginStep
  extract_lets s1
  have h1 : RailsOnly s s1 := by
    unfold s1
    split
    · exact .refl s
    · unfold State.powerStep
      split
      · exact .refl s
      · refine .trans ?_ ((RailsOnly.orderUp _ 256 24 _).trans (.settle _ (Nat.le_refl 256)))
        exact .of_same (by simp [beq_eq_false_iff_ne.2 h14, beq_eq_false_iff_ne.2 h15]) rfl
  exact ⟨h1.pwr, h1.seq⟩

end Sys2Proof.Machine
end


section
/-!
SUPPORT. What a restart writes (R31, R85 to R95, R102): the source, the effects of its kind, the new start and the first step.
-/
namespace Sys2Proof.Machine

/-! ## What a source writes before its restart's effects (R86, R93 to R95) -/

/-- The state in which the effects of a restart begin that no other restart precedes. -/
def State.sourced (s : State) (code : Nat) (k : RKind) : State :=
  let t := (s.noteCause code k).lastCauses k 0 code
  { t with rst := { t.rst with under := some k, underCode := code } }

theorem resetSource_idle {s : State} {code : Nat} {k : RKind} (h : s.rst.under = none) :
    s.resetSource code k = (((s.sourced code k).restartEffects k code).newStart k code).firstStep k := by
  unfold State.resetSource
  extract_lets s1 x y s2
  have h1 : s1.rst.under = none := h
  rw [h1]
  rfl

theorem sourced_frame (s : State) (code : Nat) (k : RKind) : s.onlyChanges [.rst] (s.sourced code k) :=
  (Touches.updRst rfl (State.lastCauses_touches rfl (State.noteCause_touches rfl (.refl [.rst] s)))).only

theorem sourced_rstCause (s : State) (code : Nat) (k : RKind) :
    (s.sourced code k).rst.rstCause = setBit s.rst.rstCause (code - 1) true := by
  cases k <;> rfl

theorem sourced_under (s : State) (code : Nat) (k : RKind) : (s.sourced code k).rst.under = some k := rfl

theorem sourced_wdtTimes (s : State) (code : Nat) (k : RKind) : (s.sourced code k).rst.wdtTimes = s.rst.wdtTimes := by
  cases k <;> rfl

/-- Every kind but a Caliper-only reset resets the boot ROM stage, and writes its last cause whole (R94, R95). -/
theorem sourced_bootLast (s : State) (code : Nat) {k : RKind} (h : 1 ≤ k.rank) :
    (s.sourced code k).rst.bootLast = { code := BitVec.ofNat 8 code, time := BitVec.ofNat 48 s.plinth } := by
  cases k with
  | caliperOnly => exact absurd h (by decide)
  | _ => rfl

/-! ## What the effects of a restart have in common (R31) -/

/-- From `s` to `e` the Armature and what it runs have stopped: the locks and the running image are gone, and the causes, the ledger and
the rail counters stand. -/
structure State.Stops (s e : State) : Prop where
  cause : e.rst.rstCause = s.rst.rstCause
  under : e.rst.under = s.rst.under
  last : e.rst.bootLast = s.rst.bootLast
  times : e.rst.wdtTimes = s.rst.wdtTimes
  lock : e.rst.locked = false
  watchdog : e.rst.wdtRunning = false
  image : e.boot.run = none
  ledger : e.led = s.led
  counters : e.rcnt = s.rcnt

theorem State.Stops.of_frame {r s e : State} (h : s.Stops e) (hr : s.rst = r.rst) (hl : s.led = r.led) (hc : s.rcnt = r.rcnt) :
    r.Stops e := by
  obtain ⟨h1, h2, h3, h4, h5, h6, h7, h8, h9⟩ := h
  exact ⟨hr ▸ h1, hr ▸ h2, hr ▸ h3, hr ▸ h4, h5, h6, h7, h8.trans hl, h9.trans hc⟩

theorem State.dropUpdate_frame (s : State) : s.onlyChanges [.boot, .flash0, .flash1] s.dropUpdate :=
  (State.dropUpdate_touches rfl (.refl _ s)).only

theorem State.pageLand_frame (s : State) : s.onlyChanges [.log, .flash0, .flash1] s.pageLand :=
  (State.pageLand_touches rfl (.refl _ s)).only

theorem State.stops_coreReset (s : State) : s.Stops s.coreReset := ⟨rfl, rfl, rfl, rfl, rfl, rfl, rfl, rfl, rfl⟩

theorem State.stops_coreDie (s : State) : s.Stops s.dropUpdate.coreReset :=
  have h := s.dropUpdate_frame
  s.dropUpdate.stops_coreReset.of_frame (h .rst rfl) (h .led rfl) (h .rcnt rfl)

theorem State.stops_armatureStop (s : State) : s.Stops s.armatureStop := by
  have h : s.onlyChanges [.boot, .mem, .ques, .ebx, .evt, .flash0, .flash1, .dram, .out] s.dropUpdate.abandon7 :=
    (State.abandon7_touches rfl (State.dropUpdate_touches rfl (.refl _ s))).only
  have f : s.dropUpdate.abandon7.armatureReset.onlyChanges [.ob, .maq, .log, .mem, .ques, .ebx, .evt, .mgt, .flash0, .flash1, .dram, .out]
      s.armatureStop := (State.protFree_touches rfl (.refl _ _)).only
  have hr : s.armatureStop.rst = s.dropUpdate.abandon7.armatureReset.rst := f .rst rfl
  have hs : s.dropUpdate.abandon7.rst = s.rst := h .rst rfl
  refine ⟨?_, ?_, ?_, ?_, ?_, ?_, ?_, ?_, ?_⟩
  · rw [hr, ← hs]; rfl
  · rw [hr, ← hs]; rfl
  · rw [hr, ← hs]; rfl
  · rw [hr, ← hs]; rfl
  · rw [hr]; rfl
  · rw [hr]; rfl
  · rw [f .boot rfl]; rfl
  · rw [f .led rfl]; exact h .led rfl
  · rw [f .rcnt rfl]; exact h .rcnt rfl

/-- The kinds that stop the Armature and leave the standby domain powered. -/
def RKind.stops : RKind → Bool
  | .moduleReset | .coreDie | .armature => true
  | _ => false

theorem RKind.one_le_rank {k : RKind} (h : k.stops = true) : 1 ≤ k.rank := by
  cases k with
  | powerOn | caliperOnly => contradiction
  | moduleReset | coreDie | armature => decide

/-- The state of a module reset before what its source holds (R31). -/
def State.moduleClear (s : State) : State := s.pageLand.dropUpdate.coreReset.standbyReset

theorem State.stops_moduleClear (s : State) : s.Stops s.moduleClear := by
  have h := s.pageLand_frame
  have hd := (s.pageLand.stops_coreDie).of_frame (h .rst rfl) (h .led rfl) (h .rcnt rfl)
  obtain ⟨h1, h2, h3, h4, h5, h6, h7, h8, h9⟩ := hd
  exact ⟨h1, h2, h3, h4, rfl, rfl, h7, h8, h9⟩

theorem State.stops_restartEffects (s : State) {k : RKind} (code : Nat) (hk : k.stops = true) : s.Stops (s.restartEffects k code) := by
  cases k with
  | powerOn => contradiction
  | moduleReset =>
    obtain ⟨h1, h2, h3, h4, h5, h6, h7, h8, h9⟩ := s.stops_moduleClear
    exact ⟨h1, h2, h3, h4, h5, h6, h7, h8, h9⟩
  | coreDie => exact s.stops_coreDie
  | armature => exact s.stops_armatureStop
  | caliperOnly => contradiction

/-! ## The new start and its first step (R102, R105) -/

theorem State.newStart_frame (s : State) (k : RKind) (code : Nat) : s.onlyChanges [.rst, .led] (s.newStart k code) :=
  (State.newStart_touches rfl (.refl _ s)).only

theorem State.newStart_rst (s : State) (k : RKind) (code : Nat) : (s.newStart k code).rst =
    { s.rst with strapForced := s.rst.strapForced && (decide (3 ≤ k.rank) || k == .caliperOnly) } := rfl

theorem State.newStart_startSeq (s : State) (k : RKind) (code : Nat) :
    (s.newStart k code).led.startSeq = min 0xFFFFFFFF (s.led.startSeq + 1) := rfl

/-- The parts that the first step of a restart may change. -/
def firstStepParts : List Part :=
  [.pwr, .led, .seq, .log, .mem, .cap, .met, .pnt, .chi, .cal, .jrn, .ques, .ebx, .evt, .pair, .dram, .out]

theorem State.firstStep_frame (s : State) (k : RKind) : s.onlyChanges firstStepParts (s.firstStep k) :=
  (State.firstStep_touches rfl (.refl _ s)).only

theorem State.begin6_start (s : State) : s.begin6.led.startSeq = s.led.startSeq ∧ s.begin6.led.kind = s.led.kind := by
  unfold State.begin6
  split
  · have h := ({ s with pair := { s.pair with st := .undecided } } : State).beginStep_led 6 (min 1 (s.carry 6)) 0
    exact ⟨h.1, h.2.1⟩
  · exact ⟨rfl, rfl⟩

theorem State.begin7_start (s : State) : s.begin7.led.startSeq = s.led.startSeq ∧ s.begin7.led.kind = s.led.kind := by
  unfold State.begin7
  split
  · exact ⟨rfl, rfl⟩
  · have h := s.beginStep_led 7 (min 2 (s.carry 7)) 0
    exact ⟨h.1, h.2.1⟩

theorem State.begin9_start (s : State) : s.begin9.led.startSeq = s.led.startSeq ∧ s.begin9.led.kind = s.led.kind := by
  unfold State.begin9
  extract_lets c s1
  have h1 : s1.led = s.led := by
    unfold s1
    split <;> rfl
  have h := s1.beginStep_led 9 (min 1 (s1.carry 9)) 0
  rw [h1] at h
  exact ⟨h.1, h.2.1⟩

/-- The first step of a restart leaves the start's number and kind. -/
theorem State.firstStep_start (s : State) (k : RKind) :
    (s.firstStep k).led.startSeq = s.led.startSeq ∧ (s.firstStep k).led.kind = s.led.kind := by
  cases k with
  | caliperOnly =>
    have h := s.beginStep_led 17 0 0
    exact ⟨h.1, h.2.1⟩
  | armature => exact s.begin9_start
  | coreDie =>
    have h6 := s.begin6_start
    have h7 := s.begin6.begin7_start
    exact ⟨h7.1.trans h6.1, h7.2.trans h6.2⟩
  | _ => exact ⟨rfl, rfl⟩

/-! ## A source of a restart that no other precedes (R85, R86) -/

section Idle
variable {s : State} {code : Nat} {k : RKind}

/-- Effects, new start and first step of a restart make it a restart of its kind. -/
theorem State.Stops.restarted {u e : State} (he : u.Stops e) (hc : u.rst.rstCause = setBit s.rst.rstCause (code - 1) true)
    (hu : u.rst.under = some k) (hl : u.rst.bootLast = { code := BitVec.ofNat 8 code, time := BitVec.ofNat 48 s.plinth })
    (hled : u.led = s.led) : s.Restarted ((e.newStart k code).firstStep k) code k := by
  have hf := (e.newStart k code).firstStep_frame k
  have hn := e.newStart_frame k code
  have hs := (e.newStart k code).firstStep_start k
  have hr : ((e.newStart k code).firstStep k).rst = _ := (hf .rst rfl).trans (e.newStart_rst k code)
  refine ⟨?_, ?_, ?_, ?_, ?_, ?_, ?_, ?_⟩
  · rw [hr]; exact he.cause.trans hc
  · rw [hr]; exact he.under.trans hu
  · rw [hr]; exact he.last.trans hl
  · rw [hr]; exact he.lock
  · rw [hr]; exact he.watchdog
  · rw [hf .boot rfl, hn .boot rfl]; exact he.image
  · rw [hs.1, e.newStart_startSeq, he.ledger, hled]
  · exact hs.2

/-- A source of a module, core-die or Armature restart, with no other under way. -/
theorem resetSource_restarts (h : s.rst.under = none) (hk : k.stops = true) : s.Restarted (s.resetSource code k) code k := by
  rw [resetSource_idle h]
  exact ((s.sourced code k).stops_restartEffects code hk).restarted (sourced_rstCause ..) (sourced_under ..)
    (sourced_bootLast s code (RKind.one_le_rank hk)) ((sourced_frame s code k) .led rfl)

/-- What the effects of a restart leave, and the new start and its first step do not touch. -/
theorem resetSource_same {p : Part} (h : s.rst.under = none) (hp : (.rst :: firstStepParts).contains p = false) :
    p.same ((s.sourced code k).restartEffects k code) (s.resetSource code k) := by
  rw [resetSource_idle h]
  exact Part.same_trans (State.newStart_frame _ k code p (Part.within_not rfl hp)) (State.firstStep_frame _ k p (Part.within_not rfl hp))

theorem resetSource_rcnt (h : s.rst.under = none) (hk : k.stops = true) : (s.resetSource code k).rcnt = s.rcnt :=
  (resetSource_same (p := .rcnt) h rfl).trans
    (((s.sourced code k).stops_restartEffects code hk).counters.trans ((sourced_frame s code k) .rcnt rfl))

theorem resetSource_rst (h : s.rst.under = none) : (s.resetSource code k).rst =
    { ((s.sourced code k).restartEffects k code).rst with
      strapForced := ((s.sourced code k).restartEffects k code).rst.strapForced && (decide (3 ≤ k.rank) || k == .caliperOnly) } := by
  rw [resetSource_idle h]
  exact State.firstStep_frame _ k .rst rfl

theorem resetSource_wdtTimes (h : s.rst.under = none) (hk : k.stops = true) :
    (s.resetSource code k).rst.wdtTimes = s.rst.wdtTimes := by
  rw [resetSource_rst h]
  exact ((s.sourced code k).stops_restartEffects code hk).times.trans (sourced_wdtTimes ..)

/-! ## Module resets (R31, R91) -/

theorem moduleReset_eq (h : s.rst.under = none) : s.resetSource code .moduleReset =
    ((s.sourced code .moduleReset).restartEffects .moduleReset code).newStart .moduleReset code := resetSource_idle h

/-- Nothing of `p` is cleared by the landing of a page or the end of an update on the way to a module reset. -/
theorem moduleReset_before {p : Part} (hp : [Part.rst, .log, .boot, .flash0, .flash1].contains p = false) :
    p.same s (s.sourced code .moduleReset).pageLand.dropUpdate := by
  exact Part.same_trans (sourced_frame s code .moduleReset p (Part.within_not rfl hp))
    (Part.same_trans (State.pageLand_frame _ p (Part.within_not rfl hp)) (State.dropUpdate_frame _ p (Part.within_not rfl hp)))

theorem moduleReset_core (h : s.rst.under = none) : (s.resetSource code .moduleReset).pwr.core = false := by
  rw [moduleReset_eq h]
  rfl

theorem moduleReset_queues (h : s.rst.under = none) : (s.resetSource code .moduleReset).ques = [] := by
  rw [moduleReset_eq h]
  rfl

theorem moduleReset_maq (h : s.rst.under = none) :
    (s.resetSource code .moduleReset).maq = { failedProfile := s.maq.failedProfile } := by
  have hm : (s.sourced code .moduleReset).pageLand.dropUpdate.maq = s.maq := moduleReset_before (p := .maq) rfl
  rw [moduleReset_eq h, ← hm]
  rfl

theorem moduleReset_dram (h : s.rst.under = none) : (s.resetSource code .moduleReset).dram = s.dram := by
  rw [moduleReset_eq h]
  exact moduleReset_before (p := .dram) rfl

theorem moduleReset_pat (h : s.rst.under = none) : (s.resetSource code .moduleReset).pat = s.pat := by
  rw [moduleReset_eq h]
  exact moduleReset_before (p := .pat) rfl

theorem moduleReset_strapForced (h : s.rst.under = none) : (s.resetSource code .moduleReset).rst.strapForced = (code == 0x0C) := by
  rw [resetSource_rst h]
  exact Bool.and_true _

/-- A log that a parity error has cleared is clear after the module reset (R89). -/
theorem moduleReset_log (h : s.rst.under = none) (hl : s.log = {}) : (s.resetSource code .moduleReset).log = {} := by
  have h0 : (s.sourced code .moduleReset).log = {} := hl
  have hp : (s.sourced code .moduleReset).pageLand = s.sourced code .moduleReset := by
    rw [State.pageLand, h0]
  have hd : (s.sourced code .moduleReset).pageLand.dropUpdate.log = {} := by
    rw [hp, (State.dropUpdate_frame _) .log rfl, h0]
  rw [moduleReset_eq h]
  show (s.sourced code .moduleReset).pageLand.dropUpdate.coreReset.standbyReset.log = {}
  have hc : (s.sourced code .moduleReset).pageLand.dropUpdate.coreReset.log = {} := hd
  simp [State.standbyReset, hc]

end Idle

/-! ## Power, supervision and the watchdog (R29, R31, R85 to R93) -/

theorem powerOn_effect (s : State) : Completes .powerOn s fun t =>
    t.pwr = { standby := true } ∧ t.rst = { under := some .powerOn, underCode := 1 } ∧
    t.led = { serials := s.led.serials, excluded := s.led.excluded, clear := s.led.clear } ∧
    t.rcnt = {} ∧ t.log = {} ∧ t.met = {} ∧ t.pat = {} ∧ t.maq = {} ∧ t.ques = [] ∧ t.dram = [] ∧
    t.flash0 = s.flash0 ∧ t.flash1 = s.flash1 ∧ t.pins = { s.pins with inputGood := false } :=
  ⟨_, rfl, rfl, rfl, rfl, rfl, rfl, rfl, rfl, rfl, rfl, rfl, rfl, rfl, rfl⟩

theorem standbyOff_effect (s : State) : Completes .standbyOff s fun t => t.pwr = {} ∧ t.rst = {} ∧
    t.led = { serials := s.led.serials, excluded := s.led.excluded, clear := s.led.clear } ∧ t.rcnt = {} ∧ t.log = {} ∧ t.dram = [] ∧
    t.flash0 = s.flash0 ∧ t.flash1 = s.flash1 :=
  ⟨_, rfl, rfl, rfl, rfl, rfl, rfl, rfl, rfl, rfl⟩

section Watchdog
variable {s : State}

/-- The third expiry within 600 s is a core-die restart (R87). -/
theorem wdtExpiry_third (h : s.rst.under = none)
    (hw : ((s.rst.wdtTimes.filter fun w => decide (s.plinth < w + secs 600)).take 2).length = 2) :
    s.Restarted s.wdtExpiry 5 .coreDie ∧ s.wdtExpiry.boot = {} ∧ s.wdtExpiry.rcnt = s.rcnt := by
  unfold State.wdtExpiry
  extract_lets recent old s1
  have h1 : s1.rst.under = none := h
  rw [if_pos hw]
  obtain ⟨g1, g2, g3, g4, g5, g6, g7, g8⟩ := resetSource_restarts (code := 5) (k := .coreDie) h1 rfl
  refine ⟨⟨g1, g2, g3, g4, g5, g6, g7, g8⟩, ?_, resetSource_rcnt h1 rfl⟩
  exact (resetSource_same (p := .boot) h1 rfl).trans rfl

/-- Any other is an Armature restart, and its time is kept (R87). -/
theorem wdtExpiry_other (h : s.rst.under = none)
    (hw : ((s.rst.wdtTimes.filter fun w => decide (s.plinth < w + secs 600)).take 2).length < 2) :
    s.Restarted s.wdtExpiry 4 .armature ∧
    s.wdtExpiry.rst.wdtTimes = (s.plinth :: (s.rst.wdtTimes.filter fun w => decide (s.plinth < w + secs 600)).take 2).take 2 ∧
    s.wdtExpiry.rcnt = s.rcnt := by
  unfold State.wdtExpiry
  extract_lets recent old s1
  have h1 : s1.rst.under = none := h
  rw [if_neg (Nat.ne_of_lt hw)]
  obtain ⟨g1, g2, g3, g4, g5, g6, g7, g8⟩ := resetSource_restarts (code := 4) (k := .armature) h1 rfl
  exact ⟨⟨g1, g2, g3, g4, g5, g6, g7, g8⟩, resetSource_wdtTimes h1 rfl, resetSource_rcnt h1 rfl⟩

end Watchdog

/-! ## Commanded resets (R88) -/

section Commanded
variable {s : State} {code : Nat} {k : RKind}

/-- A Caliper-only reset sets its sticky bits and leaves the locks and the Armature's image (R31, R93). -/
theorem caliperOnly_effect (h : s.rst.under = none) :
    (s.resetSource code .caliperOnly).rst.rstCause = setBit s.rst.rstCause (code - 1) true ∧
    (s.resetSource code .caliperOnly).rst.calRstCause = setBit s.rst.calRstCause (code - 1) true ∧
    (s.resetSource code .caliperOnly).rst.under = some .caliperOnly ∧ (s.resetSource code .caliperOnly).rst.locked = s.rst.locked ∧
    (s.resetSource code .caliperOnly).led.kind = .caliperOnly ∧ (s.resetSource code .caliperOnly).boot = s.boot := by
  have hf : (s.sourced code .caliperOnly).onlyChanges [.pwr, .seq, .log, .mem, .cap, .met, .pnt, .chi, .cal, .jrn, .gimg, .ques, .ebx,
      .evt, .dram, .out] ((s.sourced code .caliperOnly).restartEffects .caliperOnly code) :=
    (State.caliperReset_touches rfl (.refl _ _)).only
  have hr := resetSource_rst (code := code) (k := .caliperOnly) h
  rw [hf .rst rfl] at hr
  refine ⟨by rw [hr]; rfl, by rw [hr]; rfl, by rw [hr]; rfl, by rw [hr]; rfl, ?_, ?_⟩
  · rw [resetSource_idle h]
    exact (State.firstStep_start _ _).2
  · exact (resetSource_same (p := .boot) h rfl).trans ((hf .boot rfl).trans ((sourced_frame s code _) .boot rfl))

theorem swReset_atOnce (hk : k = .armature ∨ k = .caliperOnly) : s.swReset code k = s.resetSource code k := if_pos hk

/-- A module or core-die reset begins at once where no snapshot is to be waited for. -/
theorem swReset_skipped (hk : ¬ (k = .armature ∨ k = .caliperOnly)) (h : (s.snapshot 3).snap.job = none) :
    s.swReset code k = (s.snapshot 3).resetSource code k := by
  unfold State.swReset
  extract_lets s1
  rw [if_neg hk, if_neg (by simp [s1, h])]

/-- Else it waits for the snapshot. -/
theorem swReset_waits (hk : ¬ (k = .armature ∨ k = .caliperOnly)) (h : (s.snapshot 3).snap.job.isSome = true) :
    s.swReset code k = { s.snapshot 3 with rst := { (s.snapshot 3).rst with waiting := (s.snapshot 3).rst.waiting ++ [(k, code)] } } := by
  unfold State.swReset
  extract_lets s1
  rw [if_neg hk, if_pos h]

theorem snapshot_frame (s : State) (kind : Nat) : s.onlyChanges [.rcnt, .log, .snap, .flash0, .flash1] (s.snapshot kind) :=
  (State.snapshot_touches rfl (.refl _ s)).only

/-- What a snapshot that begins writes, but for the bytes of its rows. -/
def State.snapBegun (s : State) (job : SnapJob) (bs : Bytes) : State :=
  let s := s.fwriteBoth (bankOff job.bank) bs
  { s with snap := { s.snap with job := some job }
           rcnt := { s.rcnt with rails := s.rcnt.rails.map fun e => (e.1, { e.2 with dirty := false }) } }

theorem snapBegun_log (s : State) (job : SnapJob) (bs : Bytes) : (s.snapBegun job bs).log = s.log :=
  (State.fwriteBoth_touches (ps := [.flash0, .flash1]) (off := bankOff job.bank) (bs := bs) rfl (.refl _ s)).only .log rfl

/-- A snapshot that is asked for begins, leaves the state, or, with both banks taken, sets its bit of the log. -/
theorem snapshot_cases (s : State) (kind : Nat) : (∃ job bs, s.snapshot kind = s.snapBegun job bs) ∨ s.snapshot kind = s ∨
    (s.snap.job = none ∧ s.snapshot kind = { s with log := { s.log with snapSkipped := true } }) := by
  unfold State.snapshot
  split
  · exact .inr (.inl rfl)
  · next hj =>
    split
    · exact .inr (.inl rfl)
    · split
      · exact .inr (.inr ⟨hj, rfl⟩)
      · next b _ => exact .inl ⟨⟨kind, b, s.rcnt.rails, s.rcnt.owners, s.log.seq, s.log.epoch⟩, _, rfl⟩

/-- A snapshot that is being written, as asked for before or now, leaves the log alone. -/
theorem snapshot_log {kind : Nat} (h : (s.snapshot kind).snap.job.isSome = true) : (s.snapshot kind).log = s.log := by
  rcases snapshot_cases s kind with ⟨job, bs, he⟩ | he | ⟨hj, he⟩
  · rw [he]
    exact snapBegun_log s job bs
  · rw [he]
  · rw [he] at h
    have h2 : s.snap.job.isSome = true := h
    rw [hj] at h2
    contradiction
/-- A listed part that is the same need not be listed. -/
theorem onlyChanges_of_cons {ps : List Part} {p : Part} {t : State} (h : s.onlyChanges (p :: ps) t) (hp : p.same s t) :
    s.onlyChanges ps t := by
  intro q hq
  by_cases he : q = p
  · exact he ▸ hp
  · refine h q ?_
    rw [List.contains_cons, hq, beq_eq_false_iff_ne.2 he]
    rfl

/-- A snapshot before a restart changes nothing that the restart's record is about. -/
theorem State.Restarted.after_snapshot {t : State} (h : (s.snapshot 3).Restarted t code k) : s.Restarted t code k := by
  have hf := snapshot_frame s 3
  have hr : (s.snapshot 3).rst = s.rst := hf .rst rfl
  have hp : (s.snapshot 3).plinth = s.plinth := hf .plinth rfl
  have hl : (s.snapshot 3).led = s.led := hf .led rfl
  obtain ⟨h1, h2, h3, h4, h5, h6, h7, h8⟩ := h
  exact ⟨hr ▸ h1, h2, hp ▸ h3, h4, h5, h6, hl ▸ h7, h8⟩

/-- A commanded module or core-die reset that begins at once (R88). -/
theorem swReset_restarts (h : s.rst.under = none) (hk : k = .moduleReset ∨ k = .coreDie) (hj : (s.snapshot 3).snap.job = none) :
    s.Restarted (s.swReset code k) code k ∧ (k = .moduleReset → (s.swReset code k).pwr.core = false) ∧
    (k = .coreDie → (s.swReset code k).boot = {}) := by
  have hu : (s.snapshot 3).rst.under = none := (congrArg ResetCtl.under (snapshot_frame s 3 .rst rfl)).trans h
  have hs : k.stops = true := by
    rcases hk with rfl | rfl <;> rfl
  have hn : ¬ (k = .armature ∨ k = .caliperOnly) := by
    rcases hk with rfl | rfl <;> decide
  rw [swReset_skipped hn hj]
  refine ⟨(resetSource_restarts hu hs).after_snapshot, fun he => ?_, fun he => ?_⟩
  · subst he
    exact moduleReset_core hu
  · subst he
    exact (resetSource_same (p := .boot) hu rfl).trans rfl

/-- One that waits for the snapshot changes nothing else (R88; log 26). -/
theorem swReset_waiting (hk : k = .moduleReset ∨ k = .coreDie) (hj : (s.snapshot 3).snap.job.isSome = true) :
    (s.swReset code k).rst.waiting = s.rst.waiting ++ [(k, code)] ∧ (s.swReset code k).snap = (s.snapshot 3).snap ∧
    s.onlyChanges [.rst, .snap, .rcnt, .flash0, .flash1] (s.swReset code k) := by
  have hn : ¬ (k = .armature ∨ k = .caliperOnly) := by
    rcases hk with rfl | rfl <;> decide
  have hf := snapshot_frame s 3
  rw [swReset_waits hn hj]
  refine ⟨congrArg (fun r : ResetCtl => r.waiting ++ [(k, code)]) (hf .rst rfl), rfl,
    onlyChanges_of_cons (p := .log) ?_ (snapshot_log hj)⟩
  exact (Touches.updRst rfl (State.snapshot_touches rfl (.refl [.log, .rst, .snap, .rcnt, .flash0, .flash1] s))).only

/-- SW_RESET with its key and right (R88). -/
theorem swResetWrite_on {c : Instr} {r : Req} {p : State → Prop} (he : exec c s = s.swResetWrite r 0xA5 code k)
    (hc : s.pwr.core = true) (hm : s.may r.principal .reset = true) (h : p (s.swReset code k)) : Completes c s p := by
  refine completes_of (he.trans (coreDo_on hc)) ?_
  rw [if_neg (by simp [hm]), if_neg (by decide)]
  exact h

end Commanded

end Sys2Proof.Machine
end


section
/-!
SUPPORT. Power, supervision and the commanded resets (R29, R85 to R95, R320).
-/
namespace Sys2Proof.Machine

/-- What a command answers where its gate stands open. -/
theorem exec_gated {c : Instr} {s t : State} {b : Bool} (he : exec c s = .next (if b then t else s)) (hb : b = true) :
    exec c s = .next t := he.trans (congrArg _ (if_pos hb))

/-! ## Resets of the standby domain (R86, R89, R91) -/

section Standby
variable {s : State}

/-- What a parity error clears of retention RAM (R89). -/
def State.parityClear (s : State) : State :=
  { s with
    led := { serials := s.led.serials, excluded := s.led.excluded, clear := s.led.clear }, rcnt := {}, log := {}, met := {}, pat := {}
    pnt := { s.pnt with save := none }
    cool := { s.cool with fans := s.cool.fans.map fun (e : Nat × FanCh) => (e.1, { e.2 with map := [] }) } }

/-- The module reset after a parity error. -/
def State.parityReset (s : State) : State := s.parityClear.parityLedger.resetSource 3 .moduleReset

theorem parityReset_effect (hu : s.rst.under = none) :
    s.parityReset.rst.rstCause = setBit s.rst.rstCause 2 true ∧ s.parityReset.rst.under = some .moduleReset ∧
    s.parityReset.pwr.core = false ∧ s.parityReset.rcnt = {} ∧ s.parityReset.pat = {} ∧ s.parityReset.log = {} := by
  have hp : s.parityClear.parityLedger = s.parityClear.coldLedger := by
    rw [State.parityLedger, show s.parityClear.rst.under = none from hu]
  have hf : s.parityClear.onlyChanges [.led, .maq] s.parityClear.coldLedger := (State.coldLedger_touches rfl (.refl _ _)).only
  have hr : s.parityClear.coldLedger.rst = s.rst := hf .rst rfl
  have hu' : s.parityClear.coldLedger.rst.under = none := hr ▸ hu
  obtain ⟨hc, hk, -, -, -, -, -, -⟩ := resetSource_restarts (code := 3) (k := .moduleReset) hu' rfl
  rw [State.parityReset, hp]
  exact ⟨hc.trans (by rw [hr]), hk, moduleReset_core hu', (resetSource_rcnt hu' rfl).trans (hf .rcnt rfl),
    (moduleReset_pat hu').trans (hf .pat rfl), moduleReset_log hu' (hf .log rfl)⟩

theorem plinthSupervisorReset_parity (h : s.pwr.standby = true) (hu : s.rst.under = none) : Completes (.plinthSupervisorReset true) s
    fun t => t.rst.rstCause = setBit s.rst.rstCause 2 true ∧ t.rst.under = some .moduleReset ∧ t.pwr.core = false ∧ t.rcnt = {} ∧
      t.pat = {} ∧ t.log = {} := by
  have he : exec (.plinthSupervisorReset true) s = .next { s.parityReset with
      met := { s.parityReset.met with baseSeq := s.parityReset.led.startSeq } } := exec_gated rfl h
  exact completes_of he (parityReset_effect hu)

theorem plinthSupervisorReset_other (h : s.pwr.standby = true) (hu : s.rst.under = none) : Completes (.plinthSupervisorReset false) s
    fun t => s.Restarted t 3 .moduleReset ∧ t.pwr.core = false ∧ t.rcnt = s.rcnt :=
  completes_gated rfl h ⟨resetSource_restarts hu rfl, moduleReset_core hu, resetSource_rcnt hu rfl⟩

theorem inputUndervoltageReset_effect (h : s.pwr.standby = true) (hu : s.rst.under = none) : Completes .inputUndervoltageReset s
    fun t => s.Restarted t 2 .moduleReset ∧ t.pwr.core = false ∧ t.maq = { failedProfile := s.maq.failedProfile } ∧ t.ques = [] ∧
      t.rcnt = s.rcnt ∧ t.dram = s.dram :=
  completes_gated rfl h ⟨resetSource_restarts hu rfl, moduleReset_core hu, moduleReset_maq hu, moduleReset_queues hu,
    resetSource_rcnt hu rfl, moduleReset_dram hu⟩

theorem recoveryReqHold_effect (h : s.pwr.standby = true) (hu : s.rst.under = none) : Completes .recoveryReqHold s
    fun t => s.Restarted t 12 .moduleReset ∧ t.rst.strapForced = true ∧ t.pwr.core = false :=
  completes_gated rfl h ⟨resetSource_restarts hu rfl, moduleReset_strapForced hu, moduleReset_core hu⟩

end Standby

/-! ## Writes that are refused, and the debug port (R88, R128) -/

section Writes
variable {s : State}

theorem State.event_append {blk cause inst data : Nat} (h : s.evt.ring.length < 4096) :
    (s.event blk cause inst data).evt.ring = s.evt.ring ++ [⟨s.ptime, blk, cause, inst, data⟩] := by
  rw [State.event, if_pos h]

theorem State.event_frame (s : State) (blk cause inst data : Nat) : s.onlyChanges [.evt] (s.event blk cause inst data) :=
  (State.event_touches rfl (.refl _ s)).only

theorem swResetRefused_effect (r : Req) (v : Nat) (hc : s.pwr.core = true) : Completes (.swResetRefused r v) s fun t =>
    s.onlyChanges [.log, .evt, .mgt] t ∧ (s.may r.principal .reset = true → s.evt.ring.length < 4096 →
      t.evt.ring = s.evt.ring ++ [⟨s.ptime, 0, 88, 0, v⟩] ∧ t.log = s.log) := by
  have he : exec (.swResetRefused r v) s = .next
      ((if s.may r.principal .reset then s else s.refuseWrite r.path r.principal 0x1030).event 0 88 0 v) := exec_gated rfl hc
  refine completes_of he ⟨only_of (execSwResetRefused_touches rfl (.refl _ s)) he, fun hm hl => ?_⟩
  rw [if_pos hm]
  exact ⟨State.event_append hl, s.event_frame 0 88 0 v .log rfl⟩

theorem debugAuthorisedReset_on {n : Nat} {p : State → Prop} (h : s.pwr.standby = true) (hd : s.debug = 1)
    (ht : p (if n = 1 then s.swReset 11 .moduleReset else if n = 2 then s.swReset 11 .coreDie
      else if n = 3 then s.swReset 11 .caliperOnly else s)) : Completes (.debugAuthorisedReset n) s p := by
  refine completes_gated rfl h ?_
  beta_reduce
  rw [if_neg (not_not.2 hd)]
  exact ht

end Writes

/-! ## The release of an over-temperature reset (R320) -/

section Release
variable {s : State}

theorem State.stepOf_congr {t : State} (h : t.led = s.led) (n : Nat) : t.stepOf n = s.stepOf n := by
  unfold State.stepOf
  rw [h]

theorem State.stepEnded_congr {t : State} (h : t.led = s.led) (n : Nat) : t.stepEnded n = s.stepEnded n := by
  unfold State.stepEnded
  rw [State.stepOf_congr h]

/-- The hold is over, its event recorded (R320). -/
def State.otReleased (s : State) : State :=
  ({ s with rst := { s.rst with otHeld := false }, haz := { s.haz with tjState := 0 } } : State).tjEvent 2
    (obTjReset.val s.optBytes - 240)

theorem otReleased_frame (s : State) :
    ({ s with rst := { s.rst with otHeld := false }, haz := { s.haz with tjState := 0 } } : State).onlyChanges [.log, .evt] s.otReleased :=
  (State.tjEvent_touches rfl (.refl _ _)).only

theorem begin7_frame (s : State) : s.onlyChanges [.pwr, .led, .seq, .log, .mem, .cap, .met, .pnt, .chi, .cal, .jrn, .ques, .ebx, .evt,
    .dram, .out] s.begin7 :=
  (State.begin7_touches rfl (.refl _ s)).only

theorem tjResetRelease_effect (h : s.pwr.standby = true) (ho : s.rst.otHeld = true) : Completes .tjResetRelease s fun t =>
    t.rst = { s.rst with otHeld := false } ∧ t.haz.tjState = 0 ∧
    ((s.stepOf 7).isSome = true → t.haz = { s.haz with tjState := 0 } ∧ s.onlyChanges [.rst, .haz, .log, .evt] t) ∧
    (s.pins.inputGood = true → s.stepEnded 4 = true → s.stepOf 7 = none → s.pwr.core = false → t.stepRuns 7 = true) := by
  have he : exec .tjResetRelease s = .next (if s.otReleased.pins.inputGood && s.otReleased.stepEnded 4 &&
      (s.otReleased.stepOf 7).isNone && !s.otReleased.pwr.core then s.otReleased.begin7 else s.otReleased) :=
    (standbyDo_on h).trans (congrArg _ (if_pos ho))
  have hf := otReleased_frame s
  have hr : s.otReleased.rst = { s.rst with otHeld := false } := hf .rst rfl
  have hz : s.otReleased.haz = { s.haz with tjState := 0 } := hf .haz rfl
  have hl : s.otReleased.led = s.led := hf .led rfl
  have hb := begin7_frame s.otReleased
  refine completes_of he ⟨?_, ?_, fun h7 => ?_, fun hi h4 h7 hc => ?_⟩
  · split
    · exact (hb .rst rfl).trans hr
    · exact hr
  · split
    · rw [hb .haz rfl, hz]
    · rw [hz]
  · have hn : (s.otReleased.stepOf 7).isNone = false := by
      rw [State.stepOf_congr hl, Option.isNone_eq_false_iff, h7]
    rw [hn, Bool.and_false, Bool.false_and, if_neg Bool.false_ne_true]
    refine ⟨hz, ?_⟩
    exact (State.tjEvent_touches rfl (.updRstHaz rfl (.refl [.rst, .haz, .log, .evt] s))).only
  · have hp : s.otReleased.pins = s.pins := hf .pins rfl
    have hw : s.otReleased.pwr = s.pwr := hf .pwr rfl
    rw [hp, hi, State.stepEnded_congr hl, h4, State.stepOf_congr hl, h7, hw, hc]
    show s.otReleased.begin7.stepRuns 7 = true
    rw [State.begin7, hr, if_neg Bool.false_ne_true]
    exact State.stepRuns_beginStep ..

end Release

/-- Settles O1: a restart's record follows from what its kind's effects, the new start and the first step each keep. -/
theorem powerAndResetCommandsTakeEffect : Obligations.PowerAndResetCommandsTakeEffect := by
  refine ⟨fun s => ⟨powerOn_effect s, completes_of rfl rfl, standbyOff_effect s, ?_, ?_, ?_⟩, fun s r => ⟨?_, ?_, ?_, ?_⟩⟩
  · intro h hu
    exact ⟨inputUndervoltageReset_effect h hu, plinthSupervisorReset_parity h hu, plinthSupervisorReset_other h hu,
      recoveryReqHold_effect h hu⟩
  · intro hc hu hw h2
    refine completes_gated rfl hc ?_
    beta_reduce
    rw [if_pos hw]
    exact wdtExpiry_third hu h2
  · intro hc hu hw h2
    refine completes_gated rfl hc ?_
    beta_reduce
    rw [if_pos hw]
    exact wdtExpiry_other hu h2
  · intro hc hu hm
    refine ⟨swResetWrite_on rfl hc hm ?_, swResetWrite_on rfl hc hm ?_, fun hj => ⟨?_, ?_⟩, fun hj => ⟨?_, ?_⟩⟩
    · rw [swReset_atOnce (.inl rfl)]
      exact ⟨resetSource_restarts hu rfl, resetSource_rcnt hu rfl⟩
    · rw [swReset_atOnce (.inr rfl)]
      exact caliperOnly_effect hu
    · obtain ⟨h1, h2, -⟩ := swReset_restarts (code := 6) hu (.inl rfl) hj
      exact swResetWrite_on rfl hc hm ⟨h1, h2 rfl⟩
    · obtain ⟨h1, -, h2⟩ := swReset_restarts (code := 7) hu (.inr rfl) hj
      exact swResetWrite_on rfl hc hm ⟨h1, h2 rfl⟩
    · exact swResetWrite_on rfl hc hm (swReset_waiting (.inl rfl) hj)
    · exact swResetWrite_on rfl hc hm (swReset_waiting (.inr rfl) hj)
  · exact fun v hc => swResetRefused_effect r v hc
  · intro h hu hd hj
    refine ⟨debugAuthorisedReset_on h hd ?_, debugAuthorisedReset_on h hd ?_, debugAuthorisedReset_on h hd ?_⟩
    · exact (swReset_restarts hu (.inl rfl) hj).1
    · exact (swReset_restarts hu (.inr rfl) hj).1
    · show (_ ∧ _)
      have hc := caliperOnly_effect (code := 11) hu
      obtain ⟨-, h2, -, -, -, h6⟩ := hc
      exact ⟨h2, h6⟩
  · exact fun h ho => tjResetRelease_effect h ho

end Sys2Proof.Machine
end


section
/-!
SUPPORT. Clocks and what goes stale with them (R34, R35, R37, R177).
-/
namespace Sys2Proof.Machine

/-! ## Folds over channels, slots and rails -/

/-- A fold over a list that gives each member what it is to have, and takes it from none. -/
theorem foldl_each {α : Type} {P : α → State → Prop} {f : State → α → State} {l : List α} {s : State} {a : α}
    (hf : ∀ s a, P a (f s a)) (hk : ∀ s a b, P b s → P b (f s a)) (ha : a ∈ l) : P a (l.foldl f s) := by
  have keep : ∀ (l : List α) (s : State), P a s → P a (l.foldl f s) := by
    intro l
    induction l with
    | nil => exact fun _ h => h
    | cons b l ih => exact fun s h => ih _ (hk s b a h)
  induction l generalizing s with
  | nil => cases ha
  | cons b l ih =>
    rcases List.mem_cons.1 ha with rfl | h
    · exact keep l _ (hf s a)
    · exact ih h

/-! ## Stale channels (R35, R177) -/

theorem State.chan_congr {s t : State} (h : t.svy = s.svy) (c : Nat) : t.chan c = s.chan c := by
  unfold State.chan
  rw [h]

/-- A channel as it goes stale: its runs begin anew (R177). -/
def Chan.aged (c : Chan) : Chan := { c with stale := true, nLo := 0, nHi := 0, nIn := 0, wOut := 0, wIn := 0 }

/-- Of the converter's state, going stale changes the channel alone. -/
theorem State.goStale_svy (s : State) (ch : Nat) :
    (s.goStale ch).svy = if (s.chan ch).stale then s.svy else (s.setChan ch (s.chan ch).aged).svy := by
  unfold State.goStale
  extract_lets c s1 e
  split
  · rfl
  · split
    · exact (State.warnRec_touches (ps := [.log, .evt]) rfl (.refl _ s1)).only .svy rfl
    · rfl

theorem State.goStale_stale (s : State) (ch : Nat) : ((s.goStale ch).chan ch).stale = true := by
  have h := s.goStale_svy ch
  split at h
  · next hs => rw [State.chan_congr h, hs]
  · rw [State.chan_congr h, State.chan_setChan_same]
    rfl

theorem State.goStale_keeps (s : State) (ch b : Nat) (hb : (s.chan b).stale = true) : ((s.goStale ch).chan b).stale = true := by
  by_cases he : b = ch
  · exact he ▸ s.goStale_stale ch
  · have h := s.goStale_svy ch
    split at h
    · rw [State.chan_congr h, hb]
    · rw [State.chan_congr h, State.chan_setChan_other _ _ _ he, hb]

theorem State.dieStale_frame (s : State) (d : Nat) : s.onlyChanges [.svy, .log, .evt] (s.dieStale d) :=
  (State.dieStale_touches rfl (.refl _ s)).only

/-- Each channel of a die goes stale with it (R35, R37). -/
theorem State.dieStale_stale (s : State) (d : Nat) {i : Nat} (hi : i < 24) : ((s.dieStale d).chan (24 * d + i)).stale = true :=
  foldl_each (P := fun i (s : State) => (s.chan (24 * d + i)).stale = true) (fun s i => s.goStale_stale (24 * d + i))
    (fun s _ b hb => s.goStale_keeps _ (24 * d + b) hb) (List.mem_range.2 hi)

/-! ## Clocks (R34 to R37) -/

section Clocks
variable {s : State} {clk : Nat}

/-- A row of a clock completes with what it does where the clock's domains stand (R35). -/
theorem completes_clk {c : Instr} {t : State} {p : State → Prop}
    (he : exec c s = .next (if s.pwr.standby then if clk = 0 ∨ s.pwr.core = true then t else s else s)) (h : s.pwr.standby = true)
    (hc : clk = 0 ∨ s.pwr.core = true) (hp : p t) : Completes c s p :=
  completes_gated he h ((congrArg p (if_pos hc)).mpr hp)

/-- A clock that runs: requested and granted, the oscillator under the burst clock (R34, R35). -/
def State.granted (s : State) (clk : Nat) : State :=
  { s with pwr := { s.pwr with clkReq := setBit s.pwr.clkReq clk true, clkGrant := setBit s.pwr.clkGrant clk true
                               rcOsc := s.pwr.rcOsc || clk == 0, armFaults := if clk = 1 then 0 else s.pwr.armFaults } }

/-- The wake-ups that a grant answers (R35). -/
def State.woken (s : State) (clk : Nat) : State :=
  { s with mem := { s.mem with wake := s.mem.wake && clk != 3 }, evt := { s.evt with wake := s.evt.wake && clk != 1 }
           ebx := { s.ebx with wake := s.ebx.wake && clk != 1 } }

theorem State.woken_other (s : State) (h1 : clk ≠ 1) (h3 : clk ≠ 3) : s.woken clk = s := by
  have e1 : (clk != 1) = true := bne_iff_ne.2 h1
  have e3 : (clk != 3) = true := bne_iff_ne.2 h3
  unfold State.woken
  rw [e1, e3, Bool.and_true, Bool.and_true, Bool.and_true]

theorem State.woken_armature (s : State) :
    s.woken 1 = { s with evt := { s.evt with wake := false }, ebx := { s.ebx with wake := false } } := by
  unfold State.woken
  simp

theorem State.woken_dram (s : State) : s.woken 3 = { s with mem := { s.mem with wake := false } } := by
  unfold State.woken
  simp

theorem State.calNext_pwr (s : State) : s.calNext.pwr = s.pwr := (State.calNext_touches rfl (.refl [.cal] s)).only .pwr rfl

theorem State.afterGrant_pwr (s : State) (clk : Nat) : (s.afterGrant clk).pwr = s.pwr := by
  unfold State.afterGrant
  split
  · exact s.calNext_pwr
  · rfl

theorem clockGrant_effect (h : s.pwr.standby = true) (hc : clk = 0 ∨ s.pwr.core = true) (hs : ¬ (clk = 3 ∧ s.mem.shed = true)) :
    Completes (.clockGrant clk) s fun t => t.pwr = (s.granted clk).pwr ∧
      (clk = 1 → t = { s.granted clk with evt := { s.evt with wake := false }, ebx := { s.ebx with wake := false } }) ∧
      (clk = 2 → t = (s.granted clk).calNext) ∧ (clk = 3 → t = { s.granted clk with mem := { s.mem with wake := false } }) ∧
      (clk = 0 ∨ 4 ≤ clk → t = s.granted clk) := by
  refine completes_clk (clk := clk) (t := if clk = 3 ∧ s.mem.shed = true then s else ((s.granted clk).woken clk).afterGrant clk)
    rfl h hc ?_
  rw [if_neg hs]
  refine ⟨State.afterGrant_pwr .., ?_, ?_, ?_, ?_⟩
  · rintro rfl
    exact State.woken_armature _
  · rintro rfl
    rw [State.woken_other _ (by decide) (by decide)]
    rfl
  · rintro rfl
    exact State.woken_dram _
  · intro hk
    rw [State.woken_other _ (by omega) (by omega)]
    exact if_neg (by omega)

theorem clockGrant_shed (h : s.pwr.standby = true) (hc : s.pwr.core = true) (hs : s.mem.shed = true) :
    Completes (.clockGrant 3) s fun t => t = s := by
  refine completes_clk (clk := 3) rfl h (.inr hc) ?_
  exact if_pos ⟨rfl, hs⟩

theorem clockIdleExpiry_needed (h : s.pwr.standby = true) (hc : clk = 0 ∨ s.pwr.core = true) (hn : s.clkNeeded clk = true) :
    Completes (.clockIdleExpiry clk) s fun t => t = s :=
  completes_clk rfl h hc (if_pos hn)

theorem clockIdleExpiry_idle (h : s.pwr.standby = true) (hc : clk = 0 ∨ s.pwr.core = true) (hn : s.clkNeeded clk = false) :
    Completes (.clockIdleExpiry clk) s fun t => t = { s with pwr := { s.pwr with
      clkReq := setBit s.pwr.clkReq clk false, clkGrant := setBit s.pwr.clkGrant clk false } } :=
  completes_clk rfl h hc (if_neg (by simp [hn]))

theorem State.withDrive_frame (s : State) (f : State → State) : (f s).onlyChanges [.out] (s.withDrive f) := by
  unfold State.withDrive
  extract_lets t
  split
  · exact fun p _ => Part.same_refl p t
  · exact (Touches.foldl (fun _ _ h => .ite h (State.emit_touches rfl h)) (.refl [.out] t)).only

/-- The oscillator stopped, every waveform output static (R34, R268). -/
def State.oscStopped (s : State) : State :=
  { s with pwr := { s.pwr with rcOsc := false }
           cool := { s.cool with fans := s.cool.fans.map fun e => (e.1, { e.2 with duty := if e.2.duty = 0 then 0 else 0xFFFF }) } }

theorem rcOscStopExpiry_idle (h : s.pwr.standby = true) (hn : s.oscNeeded = false) : Completes .rcOscStopExpiry s fun t =>
    t.pwr = { s.pwr with rcOsc := false } ∧
    t.cool = { s.cool with fans := s.cool.fans.map fun e => (e.1, { e.2 with duty := if e.2.duty = 0 then 0 else 0xFFFF }) } ∧
    s.onlyChanges [.pwr, .cool, .out] t := by
  have he : exec .rcOscStopExpiry s = .next (s.withDrive State.oscStopped) :=
    (exec_gated rfl h).trans (congrArg _ (if_neg (by simp [hn])))
  have hf : s.oscStopped.onlyChanges [.out] (s.withDrive State.oscStopped) := s.withDrive_frame _
  refine completes_of he ⟨hf .pwr rfl, hf .cool rfl, ?_⟩
  exact (State.withDrive_touches rfl (fun s' h => Touches.updPwrCool (s := s') rfl h) (.refl [.pwr, .cool, .out] s)).only

theorem rcOscStopExpiry_needed (h : s.pwr.standby = true) (hn : s.oscNeeded = true) : Completes .rcOscStopExpiry s fun t => t = s :=
  completes_gated rfl h (if_pos hn)

end Clocks
end Sys2Proof.Machine
end


section
/-!
SUPPORT. Clock grants that time out (R36).
-/
namespace Sys2Proof.Machine

/-! ## A clock that is not granted in time (R36) -/

section Timeout
variable {s : State}

/-- The count and the event of a grant that timed out, request and grant withdrawn (R36). -/
def State.timedOut (s : State) (clk die : Nat) : State :=
  let s := s.bump 0 clk (Tbl.get {} s.pwr.clkFault clk) fun c s =>
    { s with pwr := { s.pwr with clkFault := Tbl.set s.pwr.clkFault clk c } }
  let s := s.event 0 36 clk die
  { s with pwr := { s.pwr with clkReq := setBit s.pwr.clkReq clk false, clkGrant := setBit s.pwr.clkGrant clk false } }

theorem State.bump_frame {blk inst : Nat} {c : Cnt} {put : Cnt → State → State} :
    (put c.inc.1 s).onlyChanges [.evt] (s.bump blk inst c put) := by
  unfold State.bump
  extract_lets t
  split
  · exact t.event_frame blk 502 inst 0
  · exact fun p _ => p.same_refl t

theorem State.timedOut_pwr (s : State) (clk die : Nat) : (s.timedOut clk die).pwr =
    { s.pwr with clkFault := Tbl.set s.pwr.clkFault clk (Tbl.get {} s.pwr.clkFault clk).inc.1
                 clkReq := setBit s.pwr.clkReq clk false, clkGrant := setBit s.pwr.clkGrant clk false } := by
  unfold State.timedOut
  extract_lets s1 s2
  have h1 : s1.pwr = { s.pwr with clkFault := Tbl.set s.pwr.clkFault clk (Tbl.get {} s.pwr.clkFault clk).inc.1 } :=
    State.bump_frame .pwr rfl
  have h2 : s2.pwr = s1.pwr := s1.event_frame 0 36 clk die .pwr rfl
  show ({ s2.pwr with clkReq := _, clkGrant := _ } : Power) = _
  rw [h2, h1]

theorem State.timedOut_touches (s : State) (clk die : Nat) : Touches [.pwr, .evt] s (s.timedOut clk die) := by
  unfold State.timedOut
  extract_lets s1 s2
  have h1 : Touches [.pwr, .evt] s s1 := State.bump_touches rfl (fun _ _ h => .updPwr rfl h) (.refl _ s)
  have h2 : Touches [.pwr, .evt] s s2 := State.event_touches rfl h1
  exact .updPwr rfl h2

theorem State.clkNeeded_congr {t : State} (ha : t.pwr.absent = s.pwr.absent) (hs : t.pwr.slowScan = s.pwr.slowScan) :
    t.clkNeeded 0 = s.clkNeeded 0 := by
  unfold State.clkNeeded
  rw [ha, hs]
  rfl

theorem clockGrantTimeout_survey (die : Nat) (h : s.pwr.standby = true) : Completes (.clockGrantTimeout 0 die) s fun t =>
    t.pwr = { s.pwr with clkFault := Tbl.set s.pwr.clkFault 0 (Tbl.get {} s.pwr.clkFault 0).inc.1
                         clkReq := if s.clkNeeded 0 then setBit (setBit s.pwr.clkReq 0 false) 0 true else setBit s.pwr.clkReq 0 false
                         clkGrant := setBit s.pwr.clkGrant 0 false } ∧
    ∀ i, i < 24 → (t.chan (24 * die + i)).stale = true := by
  have hp := s.timedOut_pwr 0 die
  have hn : (s.timedOut 0 die).clkNeeded 0 = s.clkNeeded 0 := State.clkNeeded_congr (by rw [hp]) (by rw [hp])
  refine completes_clk (clk := 0) (t := (if (s.timedOut 0 die).clkNeeded 0 then (s.timedOut 0 die).askClock 0
    else s.timedOut 0 die).dieStale die) rfl h (.inl rfl) ⟨?_, fun i hi => State.dieStale_stale _ _ hi⟩
  rw [State.dieStale_frame _ _ .pwr rfl, hn]
  by_cases hc : s.clkNeeded 0 = true
  · rw [if_pos hc, if_pos hc]
    show ({ (s.timedOut 0 die).pwr with clkReq := _ } : Power) = _
    rw [hp]
  · rw [if_neg hc, if_neg hc, hp]

theorem clockGrantTimeout_armature (die : Nat) (h : s.pwr.standby = true) (hc : s.pwr.core = true) (ha : s.pwr.armFaults < 2) :
    Completes (.clockGrantTimeout 1 die) s fun t =>
      t.pwr = { s.pwr with clkFault := Tbl.set s.pwr.clkFault 1 (Tbl.get {} s.pwr.clkFault 1).inc.1
                           clkReq := setBit s.pwr.clkReq 1 false, clkGrant := setBit s.pwr.clkGrant 1 false
                           armFaults := s.pwr.armFaults + 1 } ∧ s.onlyChanges [.pwr, .evt] t := by
  have hp := s.timedOut_pwr 1 die
  have ht := s.timedOut_touches 1 die
  refine completes_clk (clk := 1) (t := if 2 ≤ (s.timedOut 1 die).pwr.armFaults then
      ({ s.timedOut 1 die with pwr := { (s.timedOut 1 die).pwr with armFaults := 0 } } : State).wdtExpiry
    else { s.timedOut 1 die with pwr := { (s.timedOut 1 die).pwr with armFaults := (s.timedOut 1 die).pwr.armFaults + 1 } })
    rfl h (.inr hc) ?_
  generalize s.timedOut 1 die = u at hp ht ⊢
  have hf : u.pwr.armFaults = s.pwr.armFaults := by rw [hp]
  rw [hf, if_neg (Nat.not_le.2 ha)]
  refine ⟨?_, (Touches.updPwr rfl ht).only⟩
  show ({ u.pwr with armFaults := s.pwr.armFaults + 1 } : Power) = _
  rw [hp]

/-- No slot of the Gauge holds a job once its jobs are ended (R378). -/
theorem State.endGauge_jobs (s : State) (status : Nat) {n : Nat} (hn : n < 8) : ((s.endGauge status).slot n).jobs = [] := by
  unfold State.endGauge
  extract_lets s1
  refine foldl_each (P := fun n (s : State) => (s.slot n).jobs = []) (fun s n => ?_) (fun s m b hb => ?_) (List.mem_range.2 hn)
  · exact congrArg GaugeSlot.jobs (Tbl.get_set_same ..)
  · extract_lets g u1 u2 u3
    by_cases he : b = m
    · subst he
      exact congrArg GaugeSlot.jobs (Tbl.get_set_same ..)
    · have h1 : Touches [.mem, .gimg, .ques, .ebx, .evt, .dram, .out] s u1 := by
        refine .foldl (fun _ j h => ?_) (.refl _ s)
        split
        · exact State.calDone_touches rfl h
        · exact h
      have h2 : Touches [.mem, .gimg, .ques, .ebx, .evt, .dram, .out] s u2 := .elim h1 fun _ => State.calDone_touches rfl h1
      have h3 : Touches [.mem, .gimg, .ques, .ebx, .evt, .dram, .out] s u3 := .ite h2 (.updGimg rfl h2)
      have hc : u3.cal = s.cal := h3.only .cal rfl
      have hs : (Tbl.get {} (Tbl.set u3.cal.gauge m { g with jobs := [], loading := none }) b : GaugeSlot) = s.slot b := by
        rw [Tbl.get_set_other _ _ _ he, hc]
        rfl
      exact (congrArg GaugeSlot.jobs hs).trans hb

theorem State.settle_module (s : State) {g : Nat} (hg : 256 ≤ g) : s.settle g = s.railPasses (scopeBase g) (scopeSize g) 64 := by
  unfold State.settle
  rw [show siteOf g = none from if_neg (by omega)]

/-- Ordering rails down moves neither Caliper's nor any other engine's state. -/
theorem State.fallen_frame (s : State) (mask : Nat) : s.onlyChanges [.pwr, .seq, .out] ((s.orderDown 256 24 mask).settle 256) := by
  rw [State.settle_module _ (Nat.le_refl 256)]
  exact (State.railPasses_touches rfl (State.orderDown_touches rfl (.refl _ s))).only

/-- Caliper's stop and the fall of its rails end its work; of the power record moves what rails ask for (R29). -/
theorem State.calFall_effect (s : State) : RailsOnly s (((s.calStop 0x80).orderDown 256 24 (maskOf [9])).settle 256) ∧
    ∀ n, n < 8 → ((((s.calStop 0x80).orderDown 256 24 (maskOf [9])).settle 256).slot n).jobs = [] := by
  have hf : s.onlyChanges [.mem, .cal, .gimg, .ques, .ebx, .evt, .dram, .out] (s.calStop 0x80) :=
    (State.calStop_touches rfl (.refl _ s)).only
  have hs : RailsOnly s (s.calStop 0x80) := .of_same (hf .pwr rfl) (hf .seq rfl)
  have hj : ∀ n, n < 8 → ((s.calStop 0x80).slot n).jobs = [] := fun n hn => State.endGauge_jobs _ _ hn
  generalize s.calStop 0x80 = u at hs hj ⊢
  refine ⟨hs.trans ((RailsOnly.orderDown u 256 24 _).trans (.settle _ (Nat.le_refl 256))), fun n hn => ?_⟩
  rw [State.slot, u.fallen_frame _ .cal rfl]
  exact hj n hn

/-- Caliper fenced after a clock fault (R36). -/
def State.calFaulted (s : State) : State :=
  { s with pwr := { s.pwr with calClkFault := true, calFenced := true, caliper := false } }

theorem clockGrantTimeout_caliper (die : Nat) (h : s.pwr.standby = true) (hc : s.pwr.core = true) :
    Completes (.clockGrantTimeout 2 die) s fun t =>
      t.pwr.clkFault = Tbl.set s.pwr.clkFault 2 (Tbl.get {} s.pwr.clkFault 2).inc.1 ∧ t.pwr.calFenced = true ∧
      t.pwr.calClkFault = true ∧ t.pwr.caliper = false ∧ ∀ n, n < 8 → (t.slot n).jobs = [] := by
  have hp := s.timedOut_pwr 2 die
  refine completes_clk (clk := 2) (t := (((s.timedOut 2 die).calFaulted.calStop 0x80).orderDown 256 24 (maskOf [9])).settle 256)
    rfl h (.inr hc) ?_
  generalize s.timedOut 2 die = u at hp ⊢
  obtain ⟨hr, hj⟩ := u.calFaulted.calFall_effect
  have hr' := hr.pwr
  refine ⟨?_, ?_, ?_, ?_, hj⟩
  · rw [hr']
    exact congrArg Power.clkFault hp
  · rw [hr']
    rfl
  · rw [hr']
    rfl
  · rw [hr']
    rfl

end Timeout
end Sys2Proof.Machine
end


section
/-!
SUPPORT. Lockstep and module groups (R160, R434).
-/
namespace Sys2Proof.Machine

/-! ## Lockstep (R434) -/

section Lockstep
variable {s : State} {p : Nat}

/-- The Armature's stop takes its domain away, and nothing else of the power record or the sequencer (R29, R31). -/
theorem State.armatureStop_power (s : State) :
    s.armatureStop.pwr = { s.pwr with armature := false } ∧ s.armatureStop.seq = s.seq := by
  have h : s.onlyChanges [.boot, .mem, .ques, .ebx, .evt, .flash0, .flash1, .dram, .out] s.dropUpdate.abandon7 :=
    (State.abandon7_touches rfl (State.dropUpdate_touches rfl (.refl _ s))).only
  have f : s.dropUpdate.abandon7.armatureReset.onlyChanges [.ob, .maq, .log, .mem, .ques, .ebx, .evt, .mgt, .flash0, .flash1, .dram, .out]
      s.armatureStop := (State.protFree_touches rfl (.refl _ _)).only
  have hp : s.dropUpdate.abandon7.pwr = s.pwr := h .pwr rfl
  have hs : s.dropUpdate.abandon7.seq = s.seq := h .seq rfl
  refine ⟨(f .pwr rfl).trans ?_, (f .seq rfl).trans hs⟩
  show ({ s.dropUpdate.abandon7.pwr with armature := false } : Power) = _
  rw [hp]

theorem State.begin9_seq (s : State) : s.begin9.seq = { s.seq with rails := s.begin9.seq.rails } := by
  unfold State.begin9
  extract_lets c t
  have ht : t.seq = s.seq := by
    unfold t
    split <;> rfl
  have h := (t.beginStep_pwr (n := 9) (min 1 (t.carry 9)) 0 (by decide) (by decide)).seq
  rw [ht] at h
  exact h

/-- Step 9 leaves every failed pair failed (R101). -/
theorem State.begin9_pairFailed (h : s.pwr.pairFailed.getLsbD p = true) : s.begin9.pwr.pairFailed.getLsbD p = true := by
  unfold State.begin9
  extract_lets c t
  have ht : t.pwr.pairFailed.getLsbD p = true := by
    unfold t
    split
    · simp [h]
    · exact h
  rw [(t.beginStep_pwr (n := 9) (min 1 (t.carry 9)) 0 (by decide) (by decide)).pwr]
  exact ht

theorem resetSource_armature_pairFailed {code : Nat} (hu : s.rst.under = none) (h : s.pwr.pairFailed.getLsbD p = true) :
    (s.resetSource code .armature).pwr.pairFailed.getLsbD p = true := by
  rw [resetSource_idle hu]
  refine State.begin9_pairFailed ?_
  have hp : ((s.sourced code .armature).armatureStop.newStart .armature code).pwr = { s.pwr with armature := false } :=
    (State.newStart_frame _ _ _ .pwr rfl).trans ((State.armatureStop_power _).1.trans
      (congrArg (fun w : Power => { w with armature := false }) (sourced_frame s code .armature .pwr rfl)))
  show ((s.sourced code .armature).armatureStop.newStart .armature code).pwr.pairFailed.getLsbD p = true
  rw [hp]
  exact h

theorem wdtExpiry_pairFailed (hu : s.rst.under = none)
    (hw : ((s.rst.wdtTimes.filter fun w => decide (s.plinth < w + secs 600)).take 2).length < 2)
    (h : s.pwr.pairFailed.getLsbD p = true) : s.wdtExpiry.pwr.pairFailed.getLsbD p = true := by
  unfold State.wdtExpiry
  extract_lets recent old s1
  rw [if_neg (Nat.ne_of_lt hw)]
  exact resetSource_armature_pairFailed (s := s1) hu h

theorem getLsbD_setBit_or {n i j : Nat} (b : BitVec n) (h : j < n) :
    (setBit b i true).getLsbD j = (b.getLsbD j || decide (i = j)) := by
  unfold setBit
  rw [if_pos rfl, BitVec.getLsbD_or, BitVec.getLsbD_twoPow]
  by_cases hi : i = j
  · rw [hi, decide_eq_true h, Bool.true_and]
  · rw [decide_eq_false hi, Bool.and_false]

theorem lockstepMismatch_effect (hp : p < 4) (hc : s.pwr.core = true) (ha : s.pwr.armature = true)
    (hf : s.pwr.pairFailed.getLsbD p = false) (hu : s.rst.under = none)
    (hw : ((s.rst.wdtTimes.filter fun w => decide (s.plinth < w + secs 600)).take 2).length < 2) :
    Completes (.lockstepMismatch p) s fun t => s.Restarted t 4 .armature ∧ t.pwr.pairFailed.getLsbD p = true := by
  have hm : (s.pairFails p).onlyChanges [.log, .evt] ((s.pairFails p).memEvent (0x20 + p) 6 0 0 0 0) :=
    (State.memEvent_touches rfl (.refl _ _)).only
  refine completes_gated (t := if !s.pwr.armature || s.pwr.pairFailed.getLsbD p then s
    else ((s.pairFails p).memEvent (0x20 + p) 6 0 0 0 0).wdtExpiry) rfl hc ?_
  rw [ha, hf, if_neg (by decide)]
  generalize (s.pairFails p).memEvent (0x20 + p) 6 0 0 0 0 = u at hm ⊢
  have hr : u.rst = s.rst := hm .rst rfl
  have ht : u.plinth = s.plinth := hm .plinth rfl
  have hl : u.led = s.led := hm .led rfl
  have hb : u.pwr.pairFailed.getLsbD p = true := by
    rw [hm .pwr rfl]
    exact (getLsbD_setBit_or _ hp).trans (by simp)
  rw [← hr, ← ht] at hw
  rw [← hr] at hu
  obtain ⟨h1, h2, h3, h4, h5, h6, h7, h8⟩ := (wdtExpiry_other hu hw).1
  exact ⟨⟨hr ▸ h1, h2, ht ▸ h3, h4, h5, h6, hl ▸ h7, h8⟩, wdtExpiry_pairFailed hu hw hb⟩

end Lockstep

/-! ## Restarts that no source asks for (R160) -/

section Again
variable {s : State}

theorem State.dropUpdate_rst (s : State) : s.dropUpdate.rst = s.rst := s.dropUpdate_frame .rst rfl

theorem State.coreAgain_effect (s : State) : s.coreAgain.rst.under = some .coreDie ∧ s.coreAgain.rst.rstCause = s.rst.rstCause ∧
    s.coreAgain.boot.run = none := by
  unfold State.coreAgain
  extract_lets s1 r s2
  have hn := s2.newStart_frame .coreDie 0
  have hr := s2.newStart_rst .coreDie 0
  have h1 : s1.rst.rstCause = s.rst.rstCause := by
    rw [← s.dropUpdate_rst]
    rfl
  generalize s2.newStart .coreDie 0 = u at hn hr ⊢
  have hf := begin7_frame u
  rw [hf .rst rfl, hf .boot rfl, hn .boot rfl, hr]
  exact ⟨rfl, h1, rfl⟩

theorem State.armatureAgain_effect (s : State) : s.armatureAgain.rst.under = some .armature ∧
    s.armatureAgain.rst.rstCause = s.rst.rstCause ∧ s.armatureAgain.boot.run = none ∧ s.armatureAgain.seq.armOwed = s.seq.armOwed := by
  unfold State.armatureAgain
  have hs := s.stops_armatureStop
  have hq := s.armatureStop_power.2
  generalize s.armatureStop = a at hs hq ⊢
  extract_lets s1 r s2
  have hn := s2.newStart_frame .armature 0
  have hr := s2.newStart_rst .armature 0
  generalize s2.newStart .armature 0 = u at hn hr ⊢
  have hf : u.onlyChanges [.pwr, .led, .seq, .log, .mem, .cap, .met, .pnt, .chi, .cal, .jrn, .ques, .ebx, .evt, .dram, .out] u.begin9 :=
    (State.begin9_touches rfl (.refl _ u)).only
  rw [hf .rst rfl, hf .boot rfl, hn .boot rfl, hr, u.begin9_seq]
  exact ⟨rfl, hs.cause, hs.image, (congrArg Seq.armOwed (hn .seq rfl)).trans (congrArg Seq.armOwed hq)⟩

end Again

/-! ## Module groups that come back (R160) -/

section Groups
variable {s : State} {group : Nat} {g : ModGroup}

/-- A group that waits no longer. -/
def State.groupTaken (s : State) (group : Nat) (g : ModGroup) : State :=
  { s with seq := { s.seq with groups := Tbl.set s.seq.groups group { g with waiting := false } } }

/-- Its rails on their way up again. -/
def State.groupUp (s : State) (group : Nat) (g : ModGroup) : State :=
  ((s.groupTaken group g).orderUp 256 24 g.mask.toNat).settle 256

/-- An Armature restart is owed, or not. -/
def State.owesArmature (u : State) (b : Bool) : State := { u with seq := { u.seq with armOwed := b } }

/-- What follows for the domains that the group's rails feed. -/
def State.groupBack (u : State) (g : ModGroup) : State :=
  if g.mask.getLsbD 6 || g.mask.getLsbD 7 then u.coreAgain
  else if g.mask.getLsbD 8 then (u.owesArmature true).armBack
  else if (g.mask.getLsbD 12 || g.mask.getLsbD 13) && u.pwr.core then { u with pwr := { u.pwr with fabric := true } }
  else u

theorem State.groupUp_frame (s : State) (group : Nat) (g : ModGroup) : s.onlyChanges [.pwr, .seq, .out] (s.groupUp group g) := by
  unfold State.groupUp
  rw [State.settle_module _ (Nat.le_refl 256)]
  exact (State.railPasses_touches rfl (State.orderUp_touches rfl (.updSeq rfl (.refl _ s)))).only

theorem State.groupUp_core (s : State) (group : Nat) (g : ModGroup) : (s.groupUp group g).pwr.core = s.pwr.core := by
  have h : s.pwr = (s.groupTaken group g).pwr := rfl
  rw [h]
  unfold State.groupUp
  generalize s.groupTaken group g = u
  rw [((RailsOnly.orderUp u 256 24 g.mask.toNat).trans (.settle _ (Nat.le_refl 256))).pwr]

theorem moduleGroupResequence_runs (h : s.pwr.standby = true) (hg : Tbl.get {} s.seq.groups group = g) (hw : g.waiting = true)
    (hl : g.latched = false) (ho : ∀ k, k < 24 → g.mask.getLsbD k = true → (s.rail (256 + k)).st = .off) :
    exec (.moduleGroupResequence group) s = .next ((s.groupUp group g).groupBack g) := by
  subst hg
  have hoff : ((bitsOf 24 (Tbl.get {} s.seq.groups group : ModGroup).mask.toNat).all fun k => (s.rail (256 + k)).st == .off) = true := by
    refine List.all_eq_true.2 fun k hk => ?_
    obtain ⟨h1, h2⟩ := List.mem_filter.1 hk
    rw [ho k (List.mem_range.1 h1) (by rwa [BitVec.testBit_toNat] at h2)]
    rfl
  refine (show exec (.moduleGroupResequence group) s = execModuleGroupResequence group s from rfl).trans ?_
  unfold execModuleGroupResequence
  rw [standbyDo_on h]
  refine congrArg Host.Outcome.next ?_
  extract_lets x off q s1 s2 has
  have hn : ¬ (!x.waiting || x.latched || !off) = true := by
    rw [show off = true from hoff, show x.waiting = true from hw, show x.latched = false from hl]
    decide
  have h2 : s2 = s.groupUp group x := rfl
  clear_value s2
  rw [if_neg hn, ← h2]
  rfl

theorem State.armBack_waits (h : (s.rail 264).st ≠ .good) : (s.owesArmature true).armBack = s.owesArmature true := by
  refine if_neg ?_
  show ¬ (true && (s.rail 264).st == .good) = true
  simp [h]

theorem State.armBack_good (h : (s.rail 264).st = .good) :
    (s.owesArmature true).armBack = (s.owesArmature false).armatureAgain := by
  refine if_pos ?_
  show (true && (s.rail 264).st == .good) = true
  simp [h]

end Groups

/-- Settles O13: clock rows by their grant or timeout, lockstep by the watchdog's restart, groups by the rails they raise. -/
theorem clocksAndDomainsTakeEffect : Obligations.ClocksAndDomainsTakeEffect := by
  intro s h
  refine ⟨fun clk hc => ⟨?_, ?_, ?_, ?_⟩, ?_, ?_, ?_, ?_, ?_, ?_, ?_⟩
  · rintro u hs rfl
    exact clockGrant_effect h hc hs
  · rintro rfl hs
    exact clockGrant_shed h (hc.resolve_left (by decide)) hs
  · exact clockIdleExpiry_needed h hc
  · exact clockIdleExpiry_idle h hc
  · exact rcOscStopExpiry_idle h
  · exact rcOscStopExpiry_needed h
  · exact fun die => clockGrantTimeout_survey die h
  · exact fun die hc ha => clockGrantTimeout_armature die h hc ha
  · exact fun die hc => clockGrantTimeout_caliper die h hc
  · exact fun p hp hc ha hf hu hw => lockstepMismatch_effect hp hc ha hf hu hw
  · intro group g hg hw hl ho
    have hf := s.groupUp_frame group g
    have hcore := s.groupUp_core group g
    refine completes_of (moduleGroupResequence_runs h hg hw hl ho) ⟨?_, ?_, ?_, ?_⟩
    · intro h6 h7 h8 h12 h13
      simp only [State.groupBack, h6, h7, h8, h12, h13]
      rfl
    · intro h6 h7 h8 h12 hc
      rw [← hcore] at hc
      simp only [State.groupBack, h6, h7, h8, h12, hc]
      rfl
    · intro h6
      have he : (s.groupUp group g).groupBack g = (s.groupUp group g).coreAgain := by
        rw [State.groupBack, h6, Bool.true_or, if_pos rfl]
      obtain ⟨h1, h2, h3⟩ := (s.groupUp group g).coreAgain_effect
      rw [he]
      exact ⟨h1, h2.trans (congrArg ResetCtl.rstCause (hf .rst rfl)), h3⟩
    · rintro u hu h6 h7 h8
      have hu' : u = s.groupUp group g := hu
      have he : u.groupBack g = (u.owesArmature true).armBack := by
        simp only [State.groupBack, h6, h7, h8]
        rfl
      rw [← hu'] at hf ⊢
      rw [he]
      refine ⟨State.armBack_waits, fun h264 => ?_⟩
      rw [State.armBack_good h264]
      obtain ⟨h1, h2, h3, h4⟩ := (u.owesArmature false).armatureAgain_effect
      exact ⟨h1, h2.trans (congrArg ResetCtl.rstCause (hf .rst rfl)), h3, h4⟩
end Sys2Proof.Machine
end


section
/-!
SUPPORT. The Survey converter: readings, stale channels, reference slots and the clear of rail counters (R174 to R177, R183).
-/
namespace Sys2Proof.Machine

/-! ## A die's stale channels, and the others (R45, R175) -/

section Stale
variable {s : State}

/-- From `s` to `t` the channels alone of the converter's state changed. -/
def State.chansOnly (s t : State) : Prop := t.svy = { s.svy with chans := t.svy.chans }

theorem State.chansOnly_of_eq {t : State} (h : t.svy = s.svy) : s.chansOnly t := by
  rw [State.chansOnly, h]

theorem State.chansOnly_trans {t u : State} (h : s.chansOnly t) (h' : t.chansOnly u) : s.chansOnly u := by
  rw [State.chansOnly] at h h' ⊢
  rw [h', h]

theorem State.chansOnly_goStale (s : State) (ch : Nat) : s.chansOnly (s.goStale ch) := by
  rw [State.chansOnly, s.goStale_svy ch]
  split <;> rfl

theorem State.chansOnly_dieStale (s : State) (d : Nat) : s.chansOnly (s.dieStale d) := by
  unfold State.dieStale
  generalize List.range 24 = l
  induction l generalizing s with
  | nil => exact State.chansOnly_of_eq rfl
  | cons i l ih => exact State.chansOnly_trans (s.chansOnly_goStale _) (ih _)

theorem State.goStale_other (s : State) {ch c : Nat} (h : c ≠ ch) : (s.goStale ch).chan c = s.chan c := by
  have hs := s.goStale_svy ch
  split at hs
  · exact State.chan_congr hs c
  · exact (State.chan_congr hs c).trans (State.chan_setChan_other _ _ _ h)

theorem State.goStale_value (s : State) (ch : Nat) : ((s.goStale ch).chan ch).value = (s.chan ch).value := by
  have hs := s.goStale_svy ch
  split at hs
  · rw [State.chan_congr hs]
  · rw [State.chan_congr hs, State.chan_setChan_same]
    rfl

theorem State.dieStale_other (s : State) {d c : Nat} (h : c < 24 * d ∨ 24 * d + 24 ≤ c) : (s.dieStale d).chan c = s.chan c := by
  have keep : ∀ (l : List Nat) (s : State), (∀ i ∈ l, i < 24) →
      (l.foldl (fun s i => s.goStale (24 * d + i)) s).chan c = s.chan c := by
    intro l
    induction l with
    | nil => exact fun _ _ => rfl
    | cons i l ih =>
      intro s hl
      have hi := hl i List.mem_cons_self
      exact (ih _ fun j hj => hl j (List.mem_cons_of_mem _ hj)).trans (s.goStale_other (by omega))
  exact keep _ s fun i hi => List.mem_range.1 hi

end Stale

/-! ## What a sample leaves in its channel (R174, R177) -/

/-- Code, value and age of a channel. -/
def Chan.reading (c : Chan) : Int × Int × Bool := (c.raw, c.value, c.stale)

section Sample
variable {s : State} {ch : Nat} {code : Int} {held : Bool}

theorem State.judgeFault_reading (s : State) (ch : Nat) (v : Int) : (s.judgeFault ch v).1.reading = (s.chan ch).reading := by
  unfold State.judgeFault
  extract_lets c q lo hi c1
  split
  · rfl
  · split
    · rfl
    · split <;> rfl

theorem State.judgeWarn_reading (s : State) (ch : Nat) (c : Chan) (v : Int) : (s.judgeWarn ch c v).1.reading = c.reading := by
  unfold State.judgeWarn
  extract_lets w kind q lo hi h x inside c1
  split
  · split
    · split
      · split <;> rfl
      · rfl
    · split <;> rfl
  · rfl

theorem State.event_svy (s : State) (blk cause inst data : Nat) : (s.event blk cause inst data).svy = s.svy :=
  s.event_frame blk cause inst data .svy rfl

theorem State.enterWarn_reading (s : State) (ch kind : Nat) : ((s.enterWarn ch kind).chan ch).reading = (s.chan ch).reading := by
  unfold State.enterWarn
  extract_lets e c s1
  have h1 : s1.chan ch = { c with warn := true } := by
    rw [State.chan_congr (State.event_svy ..), State.chan_setChan_same]
  have hr : (s1.chan ch).reading = (s.chan ch).reading := by
    rw [h1]
    rfl
  split
  · rw [State.chan_congr ((State.warnRec_touches (ps := [.log, .evt]) rfl (.refl _ _)).only .svy rfl), State.chan_setChan_same]
    exact hr
  · exact hr

/-- The parts that the faults of a judged sample may change. -/
def judgedParts : List Part :=
  [.pwr, .seq, .rcnt, .log, .snap, .mem, .cap, .met, .pnt, .chi, .cal, .jrn, .gimg, .ques, .ebx, .evt, .dram, .out]

/-- The state in which a sample is converted: under the Plinth's own calibration while no structure has set one (R75). -/
def State.calibrated (s : State) (ch : Nat) : State :=
  if s.maq.live.isNone && mapKind (mapEntry s.surveyMap ch) != 0 then s.calSet s.mcal ch else s

theorem State.calibrated_neutral (h : s.maq.live.isSome = true ∨ mapKind (mapEntry s.surveyMap ch) = 0) : s.calibrated ch = s := by
  refine if_neg ?_
  rw [Bool.and_eq_true, bne_iff_ne, Option.isNone_iff_eq_none]
  rintro ⟨hl, hk⟩
  rcases h with h | h
  · rw [hl] at h
    contradiction
  · exact hk h

theorem State.calibrated_own (hl : s.maq.live = none) (hk : mapKind (mapEntry s.surveyMap ch) ≠ 0) :
    s.calibrated ch = s.calSet s.mcal ch :=
  if_pos (by rw [Bool.and_eq_true, bne_iff_ne, hl]; exact ⟨rfl, hk⟩)

/-- The channel's new reading. -/
def State.stored (s : State) (ch : Nat) (code v : Int) : State :=
  s.setChan ch { s.chan ch with raw := code, value := v, stale := false }

/-- A sample that counts leaves code, value and age; what its judgement sets off does not change them. -/
theorem State.sample_reading (h : ¬ (mapKind (mapEntry s.surveyMap ch) = 4 ∧ s.supplyOff ch = true)) :
    ((s.sample ch code held).chan ch).reading =
      (code, ((s.calibrated ch).chan ch).convert (mapKind (mapEntry s.surveyMap ch)) code, false) := by
  unfold State.sample
  extract_lets e kind g s1 v c s2 f w s3 s4 r s5 s6 s7
  rw [if_neg h]
  have h2 : (s2.chan ch).reading = (code, v, false) := by
    unfold s2
    rw [State.chan_setChan_same]
    rfl
  have h3 : (s3.chan ch).reading = (code, v, false) := by
    unfold s3
    rw [State.chan_setChan_same]
    exact (s2.judgeWarn_reading ..).trans ((s2.judgeFault_reading ..).trans h2)
  have h4 : (s4.chan ch).reading = (code, v, false) := by
    unfold s4
    split
    · exact (s3.enterWarn_reading ..).trans h3
    · exact h3
  have from4 {t : State} (ht : Touches judgedParts s4 t) : (t.chan ch).reading = (code, v, false) := by
    rw [State.chan_congr (ht.only .svy rfl)]
    exact h4
  have h5 : Touches judgedParts s4 s5 := State.setRail_touches rfl (.refl _ _)
  clear_value s5
  have h6 : Touches judgedParts s4 s6 := State.product_touches rfl (State.backpower_touches rfl h5)
  clear_value s6
  have h7 : Touches judgedParts s4 s7 := .ite (State.stepFail_touches rfl h6) (.ite (State.voltageOut_touches rfl h6) h6)
  clear_value s7
  have hp : Touches judgedParts s4 (s4.product g true) := State.product_touches rfl (.refl _ _)
  show _ = (code, v, false)
  split
  · exact h2
  · split
    · exact h4
    · split
      · exact from4 (State.settle_touches rfl h7)
      · split
        · exact from4 (.ite (State.currentOut_touches rfl hp) hp)
        · exact h4

theorem State.sample_off (h : mapKind (mapEntry s.surveyMap ch) = 4 ∧ s.supplyOff ch = true) : s.sample ch code held = s := if_pos h

/-- A sample of an unmapped channel does nothing more. -/
theorem State.sample_unmapped (h : mapKind (mapEntry s.surveyMap ch) = 0) :
    s.sample ch code held = s.stored ch code ((s.chan ch).convert 0 code) := by
  unfold State.sample
  extract_lets e kind g s1 v c s2 f w s3 s4 r s5 s6 s7
  have hk : kind = 0 := h
  have h1 : s1 = s := by
    unfold s1
    rw [hk, if_neg (by simp)]
  rw [if_neg (by omega), if_pos hk]
  unfold s2 v c
  rw [h1, hk]
  rfl

theorem State.armBack_svy (s : State) : s.armBack.svy = s.svy :=
  (State.armBack_touches (ps := [.fresh, .pwr, .rst, .led, .ob, .maq, .boot, .seq, .log, .mem, .cap, .met, .pnt, .cool, .chi, .cal, .jrn,
    .ques, .ebx, .evt, .mgt, .pair, .acc, .flash0, .flash1, .dram, .out]) rfl (.refl _ s)).only .svy rfl

theorem State.armBack_none (h : s.seq.armOwed = false) : s.armBack = s := by
  rw [State.armBack, h, Bool.false_and, if_neg Bool.false_ne_true]

end Sample

/-! ## Rows of the converter (R175, R177) -/

section Rows
variable {s : State} {die slot : Nat} {code : Int} {held : Bool}

/-- A sample by its die and slot. -/
theorem surveySample_exec (hs : s.pwr.standby = true) : exec (.surveySample die slot ⟨code, held⟩) s =
    .next (if s.pwr.absent.getLsbD (8 + die) || 16 ≤ die || 26 ≤ slot then s
      else if slot < 2 then
        (if slot = 0 then { s with svy := { s.svy with winOld := Tbl.del s.svy.winOld die } } else s).refSample die slot code
      else if s.refFailed die then s
      else (s.sample (24 * die + (slot - 2)) code held).armBack) :=
  exec_gated rfl hs

theorem surveySample_channel (hs : s.pwr.standby = true) (hd : die < 16) (h2 : 2 ≤ slot) (h26 : slot < 26)
    (ha : s.pwr.absent.getLsbD (8 + die) = false) (hr : s.refFailed die = false) :
    exec (.surveySample die slot ⟨code, held⟩) s = .next (s.sample (24 * die + (slot - 2)) code held).armBack := by
  rw [surveySample_exec hs]
  refine congrArg _ ?_
  rw [ha, hr, if_neg (by simp; omega), if_neg (by omega), if_neg Bool.false_ne_true]

/-- No sample of a failed or absent die counts, nor one out of range (R175). -/
theorem surveySample_void (hs : s.pwr.standby = true)
    (h : (16 ≤ die ∨ 26 ≤ slot ∨ s.pwr.absent.getLsbD (8 + die) = true) ∨ (2 ≤ slot ∧ s.refFailed die = true)) :
    Completes (.surveySample die slot ⟨code, held⟩) s fun t => t = s := by
  refine completes_of (surveySample_exec hs) ?_
  by_cases hv : (s.pwr.absent.getLsbD (8 + die) || 16 ≤ die || 26 ≤ slot) = true
  · exact if_pos hv
  · rw [if_neg hv]
    simp only [Bool.or_eq_true, decide_eq_true_eq, not_or] at hv
    obtain ⟨h2, hr⟩ : 2 ≤ slot ∧ s.refFailed die = true := h.resolve_left (by simp [hv])
    rw [if_neg (by omega), if_pos hr]

/-- A scan begins with slot 0: the windows last committed are in force from there (R66). -/
def State.scanBegun (s : State) (die slot : Nat) : State :=
  { s with svy := { s.svy with winOld := if slot = 0 then Tbl.del s.svy.winOld die else s.svy.winOld } }

theorem surveySample_reference (hs : s.pwr.standby = true) (hd : die < 16) (h2 : slot < 2)
    (ha : s.pwr.absent.getLsbD (8 + die) = false) :
    exec (.surveySample die slot ⟨code, held⟩) s = .next ((s.scanBegun die slot).refSample die slot code) := by
  rw [surveySample_exec hs]
  refine congrArg _ ?_
  rw [ha, if_neg (by simp; omega), if_pos h2]
  unfold State.scanBegun
  by_cases h0 : slot = 0
  · rw [if_pos h0, if_pos h0]
  · rw [if_neg h0, if_neg h0]

theorem State.refSample_good (h : refOk slot code = true) : s.refSample die slot code =
    { s with svy := { s.svy with refBad := Tbl.set s.svy.refBad (16 * slot + die) 0 } } := if_pos h

theorem State.refSample_counts (h : refOk slot code = false) (hn : Tbl.get 0 s.svy.refBad (16 * slot + die) < 2) :
    s.refSample die slot code =
      { s with svy := { s.svy with refBad := Tbl.set s.svy.refBad (16 * slot + die) (Tbl.get 0 s.svy.refBad (16 * slot + die) + 1) } } := by
  unfold State.refSample
  extract_lets k n
  rw [h, if_neg Bool.false_ne_true, if_pos hn]

theorem State.refSample_failed (h : refOk slot code = false) (hn : 2 < Tbl.get 0 s.svy.refBad (16 * slot + die)) :
    s.refSample die slot code = s := by
  unfold State.refSample
  extract_lets k n
  have hk : 2 < n := hn
  rw [h, if_neg Bool.false_ne_true, if_neg (by omega), if_neg (by omega)]

/-- A reference failure keeps the counts of failing scans and the windows. -/
theorem State.refFail_effect (s : State) (d slot : Nat) (code : Int) : (s.refFail d slot code).svy.refBad = s.svy.refBad ∧
    (s.refFail d slot code).svy.winOld = s.svy.winOld ∧ ∀ i, i < 24 → ((s.refFail d slot code).chan (24 * d + i)).stale = true := by
  unfold State.refFail
  extract_lets s1
  have h1 : s1.svy = { s.svy with refFail := Tbl.set s.svy.refFail d (Tbl.get {} s.svy.refFail d).inc.1 } := State.bump_frame .svy rfl
  have hw : (s1.warnRec (24 * d) 5 code slot d).svy = s1.svy := (State.warnRec_touches (ps := [.log, .evt]) rfl (.refl _ s1)).only .svy rfl
  have hd : ((s1.warnRec (24 * d) 5 code slot d).dieStale d).svy = _ := State.chansOnly_dieStale _ d
  refine ⟨?_, ?_, fun i hi => State.dieStale_stale _ d hi⟩
  · rw [hd, hw, h1]
  · rw [hd, hw, h1]

/-- The state with a reference slot's count of failing scans. -/
def State.withRefBad (s : State) (k n : Nat) : State := { s with svy := { s.svy with refBad := Tbl.set s.svy.refBad k n } }

/-- The third failing scan in a row is a reference failure (R175). -/
theorem State.refSample_third (h : refOk slot code = false) (hn : Tbl.get 0 s.svy.refBad (16 * slot + die) = 2) :
    Tbl.get 0 (s.refSample die slot code).svy.refBad (16 * slot + die) = 3 ∧ (s.refSample die slot code).svy.winOld = s.svy.winOld ∧
    ∀ i, i < 24 → ((s.refSample die slot code).chan (24 * die + i)).stale = true := by
  have he : s.refSample die slot code = (s.withRefBad (16 * slot + die) 3).refFail die slot code := by
    unfold State.refSample
    extract_lets k n
    have hk : n = 2 := hn
    rw [h, if_neg Bool.false_ne_true, if_neg (by omega), if_pos hk]
    rfl
  have hw : (s.withRefBad (16 * slot + die) 3).svy.winOld = s.svy.winOld := rfl
  have hb : Tbl.get 0 (s.withRefBad (16 * slot + die) 3).svy.refBad (16 * slot + die) = 3 := Tbl.get_set_same ..
  rw [he]
  generalize s.withRefBad (16 * slot + die) 3 = u at hw hb ⊢
  obtain ⟨h1, h2, h3⟩ := u.refFail_effect die slot code
  exact ⟨by rw [h1, hb], by rw [h2, hw], h3⟩

/-- Entries cleared from a table read as its default. -/
theorem Tbl.get_filter_not {α : Type} (d : α) (t : Tbl α) {q : Nat → Bool} {k : Nat} (h : q k = true) :
    Tbl.get d (t.filter fun e => !(q e.1)) k = d := by
  induction t with
  | nil => rfl
  | cons e r ih =>
    obtain ⟨j, v⟩ := e
    by_cases hj : q j = true
    · rw [List.filter_cons_of_neg (by simp [hj]), ih]
    · rw [List.filter_cons_of_pos (by simp [hj]), Tbl.get, if_neg (show ¬ j = k from fun he => hj (by rw [he, h])), ih]

theorem railCntClr_allowed {r : Req} {rail mask : Nat} (hs : s.pwr.standby = true) (hm : s.may r.principal .counterClear = true)
    (hg : rail < 280) : Completes (.railCntClr r rail mask) s fun t =>
      t = s.setRailCnt rail { cnt := (s.railCnt rail).cnt.filter fun e => !(mask.testBit e.1), dirty := true } ∧
      ∀ k, mask.testBit k = true → Tbl.get ({} : Cnt) (t.railCnt rail).cnt k = {} := by
  refine completes_gated rfl hs ?_
  beta_reduce
  rw [if_pos hm, if_pos hg]
  refine ⟨rfl, fun k hk => ?_⟩
  rw [State.railCnt_setRailCnt_same]
  exact Tbl.get_filter_not _ _ (q := mask.testBit) hk

theorem railCntClr_refused {r : Req} {rail mask : Nat} (hs : s.pwr.standby = true) (hm : s.may r.principal .counterClear = false) :
    Completes (.railCntClr r rail mask) s fun t => t.rcnt = s.rcnt ∧ s.onlyChanges [.log, .evt, .mgt] t := by
  refine completes_gated rfl hs ?_
  beta_reduce
  rw [hm, if_neg Bool.false_ne_true]
  have hf : s.onlyChanges [.log, .evt, .mgt] ((s.refuseWrite r.path r.principal 0x30130).event 3 183 rail 0) :=
    (State.event_touches rfl (State.refuseWrite_touches rfl (.refl _ s))).only
  exact ⟨hf .rcnt rfl, hf⟩

end Rows

/-- Settles O12: what a sample stores survives its judgement, and going stale changes channels alone. -/
theorem surveyCommandsTakeEffect : Obligations.SurveyCommandsTakeEffect := by
  intro s hs
  refine ⟨?_, ?_, ?_, ?_, ?_, ?_, ?_, ?_, ?_, ?_, ?_⟩
  · intro die slot code held hd h2 h26 ha hr hoff
    have hn : ¬ (mapKind (mapEntry s.surveyMap (24 * die + (slot - 2))) = 4 ∧ s.supplyOff (24 * die + (slot - 2)) = true) :=
      fun ⟨hk, ho⟩ => Bool.false_ne_true ((hoff hk).symm.trans ho)
    have hread := s.sample_reading (code := code) (held := held) hn
    rw [← State.chan_congr (State.armBack_svy _)] at hread
    have hval := congrArg (fun x => x.2.1) hread
    refine completes_of (surveySample_channel hs hd h2 h26 ha hr) ⟨congrArg (fun x => x.1) hread,
      congrArg (fun x => x.2.2) hread, ?_, ?_, ?_⟩
    · intro hl
      rwa [State.calibrated_neutral hl] at hval
    · intro hl hk
      rwa [State.calibrated_own hl hk] at hval
    · intro hk ho
      rw [State.sample_unmapped hk, State.armBack_none (s := s.stored ..) ho]
      exact (Touches.updSvy rfl (.refl [.svy] s)).only
  · intro die slot code held hd h2 h26 ha hr hk ho hw
    refine completes_of (surveySample_channel hs hd h2 h26 ha hr) ?_
    rw [State.sample_off ⟨hk, ho⟩, State.armBack_none hw]
  · intro die slot code held hd h2 ha
    refine completes_of (surveySample_reference hs hd h2 ha) ?_
    by_cases hok : refOk slot code = true
    · rw [State.refSample_good (s := s.scanBegun die slot) hok]
      have hn : ¬ refOk slot code = false := by rw [hok]; decide
      exact ⟨rfl, fun _ => rfl, fun h => absurd h hn, fun h => absurd h hn, fun h => absurd h hn⟩
    · rw [Bool.not_eq_true] at hok
      rcases Nat.lt_trichotomy (Tbl.get 0 s.svy.refBad (16 * slot + die)) 2 with hn | hn | hn
      · rw [State.refSample_counts (s := s.scanBegun die slot) hok hn]
        refine ⟨rfl, ?_, fun _ _ => rfl, ?_, ?_⟩
        · simp [hok]
        · omega
        · omega
      · obtain ⟨h3, hwin, hst⟩ := State.refSample_third (s := s.scanBegun die slot) hok hn
        refine ⟨hwin, ?_, ?_, fun _ _ => ⟨h3, hst⟩, ?_⟩
        · simp [hok]
        · omega
        · omega
      · rw [State.refSample_failed (s := s.scanBegun die slot) hok hn]
        refine ⟨rfl, ?_, ?_, ?_, fun _ _ => rfl⟩
        · simp [hok]
        · omega
        · omega
  · exact fun die slot code held h2 hr => surveySample_void hs (.inr ⟨h2, hr⟩)
  · exact fun die slot code held h => surveySample_void hs (.inl h)
  · intro die hi
    exact completes_gated rfl hs (by beta_reduce; rw [hi])
  · intro die hi
    exact completes_gated rfl hs (by beta_reduce; rw [hi])
  · exact fun ch => completes_gated rfl hs ⟨s.goStale_stale ch, s.goStale_value ch, (State.goStale_touches rfl (.refl _ s)).only⟩
  · exact fun die => completes_gated rfl hs ⟨fun i hi => s.dieStale_stale die hi,
      fun c hc => s.dieStale_other hc, s.dieStale_frame die⟩
  · exact fun r rail mask hm hg => railCntClr_allowed hs hm hg
  · exact fun r rail mask hm => railCntClr_refused hs hm

end Sys2Proof.Machine
end


section
/-!
SUPPORT. The start ledger over the early steps (R101, R105): what the end of a step leaves, and steps 1 to 3.
-/
namespace Sys2Proof.Machine

/-! ## What the end of a step leaves (R101, R105) -/

section Ledger
variable {s : State} {n k : Nat} {o : StepEnd} {d : Option Nat}

theorem State.endStep_frame (s : State) (n : Nat) (o : StepEnd) (d : Option Nat) : s.onlyChanges [.led] (s.endStep n o d) :=
  (State.endStep_touches rfl (.refl _ s)).only

/-- A step's end leaves how the others stand. -/
theorem State.stepOf_endStep_other (hk : k ≠ n) : (s.endStep n o d).stepOf k = s.stepOf k := by
  unfold State.endStep State.stepOf
  split
  · split
    · show (Tbl.find? (Tbl.set s.led.cur n _) k).or (Tbl.find? s.led.kept k) = _
      rw [Tbl.find?_set_other _ _ hk]
    · rfl
  · split
    · show (Tbl.find? s.led.cur k).or (Tbl.find? (Tbl.set s.led.kept n _) k) = _
      rw [Tbl.find?_set_other _ _ hk]
    · rfl
  · rfl

/-- A step that runs ends with its outcome, at this time. -/
theorem State.stepOf_endStep_same (h : s.stepRuns n = true) :
    (s.endStep n o d).stepOf n = (s.stepOf n).map fun x => x.ended o d s.plinth := by
  unfold State.stepRuns State.stepOf at h
  unfold State.endStep State.stepOf
  split
  · next x hx =>
    rw [hx] at h
    have hr : x.outcome = .inProgress := by simpa using h
    simp [hr, State.putEntry, hx]
  · next x hc hk =>
    rw [hc, hk] at h
    have hr : x.outcome = .inProgress := by simpa using h
    simp [hr, hc, hk]
  · next hc hk =>
    rw [hc, hk] at h
    contradiction

theorem State.stepRuns_congr {t : State} (h : t.stepOf n = s.stepOf n) : t.stepRuns n = s.stepRuns n := by
  rw [State.stepRuns, h, State.stepRuns]

theorem State.stepEnded_same {t : State} (h : t.stepOf n = s.stepOf n) : t.stepEnded n = s.stepEnded n := by
  rw [State.stepEnded, h, State.stepEnded]

/-- A step that ended in a way has ended. -/
theorem State.stepEnded_of_outcome {e : StepEnd} (h : (s.stepOf n).map LedgerEntry.outcome = some e) (he : e ≠ .inProgress) :
    s.stepEnded n = true := by
  obtain ⟨x, hx, rfl⟩ := Option.map_eq_some_iff.1 h
  rw [State.stepEnded, hx]
  exact bne_iff_ne.2 he

theorem State.stepEnded_endStep (h : s.stepRuns n = true) (ho : o ≠ .inProgress) : (s.endStep n o d).stepEnded n = true := by
  refine State.stepEnded_of_outcome (State.endStep_ends h) ?_
  split
  · decide
  · exact ho

theorem State.endStep_failed (h : s.stepRuns n = true) :
    ((s.endStep n .failed d).stepOf n).map LedgerEntry.outcome = some .failed := by
  rw [State.endStep_ends h, if_neg (by rintro ⟨he, -⟩; contradiction)]

theorem State.stepOf_beginStep_other {form detail : Nat} (hk : k ≠ n) : (s.beginStep n form detail).stepOf k = s.stepOf k :=
  (s.beginStep_led n form detail).2.2 k hk

theorem State.beginStep_frame (s : State) (n form detail : Nat) : s.onlyChanges
    [.pwr, .led, .seq, .log, .mem, .cap, .met, .pnt, .chi, .cal, .jrn, .ques, .ebx, .evt, .dram, .out] (s.beginStep n form detail) :=
  (State.beginStep_touches rfl (.refl _ s)).only

/-- A step without rails of its own touches the ledger alone. -/
theorem State.beginStep_ledger (s : State) {n : Nat} (form detail : Nat) (h : s.stepRails n = 0) :
    s.onlyChanges [.led] (s.beginStep n form detail) := by
  have hp : s.powerStep n = s := if_pos h
  unfold State.beginStep
  rw [hp, ite_self]
  exact (State.putEntry_touches rfl (.refl _ s)).only

theorem State.stepOf_begin9_other (hk : k ≠ 9) : s.begin9.stepOf k = s.stepOf k := by
  unfold State.begin9
  extract_lets c t
  have ht : t.led = s.led := by
    unfold t
    split <;> rfl
  rw [State.stepOf_beginStep_other hk, State.stepOf_congr ht]

theorem State.begin9_runs (s : State) : s.begin9.stepRuns 9 = true := State.stepRuns_beginStep ..

theorem State.stepOf_begin7_other (hk : k ≠ 7) : s.begin7.stepOf k = s.stepOf k := by
  unfold State.begin7
  split
  · rfl
  · exact State.stepOf_beginStep_other hk

theorem State.begin7_runs (h : s.rst.otHeld = false) : s.begin7.stepRuns 7 = true := by
  rw [State.begin7, h, if_neg Bool.false_ne_true]
  exact State.stepRuns_beginStep ..

end Ledger

/-! ## Steps 1 to 3 (R97 to R100, R528) -/

section Input
variable {s : State}

theorem State.thresholds_frame (s : State) (ok : Bool) : s.onlyChanges [.pwr, .led, .seq, .log, .mem, .cap, .rel, .met, .pnt, .chi, .cal,
    .jrn, .ques, .ebx, .evt, .dram, .out] (s.thresholds ok) := by
  refine Touches.only (.ite ?_ ?_)
  · exact State.beginStep_touches rfl (State.reliefArm_touches rfl (State.endStep_touches rfl (.refl _ s)))
  · exact State.endStep_touches rfl (.refl _ s)

theorem State.reliefArm_stepOf (s : State) (k : Nat) : s.reliefArm.stepOf k = s.stepOf k :=
  State.stepOf_congr ((State.reliefArm_touches (ps := [.log, .cap, .rel, .pnt, .evt]) rfl (.refl _ s)).only .led rfl) k

theorem State.thresholds_other {ok : Bool} {k : Nat} (h3 : k ≠ 3) (h4 : k ≠ 4) : (s.thresholds ok).stepOf k = s.stepOf k := by
  unfold State.thresholds
  split
  · rw [State.stepOf_beginStep_other h4, State.reliefArm_stepOf, State.stepOf_endStep_other h3]
  · exact State.stepOf_endStep_other h3

theorem State.thresholds_ok (s : State) : (s.thresholds true).stepRuns 4 = true := State.stepRuns_beginStep ..

theorem State.thresholds_failed (h : s.stepRuns 3 = true) :
    ((s.thresholds false).stepOf 3).map LedgerEntry.outcome = some .failed := State.endStep_failed h

/-- The Reckoner's reading leaves the ledger. -/
theorem State.reckon_stepOf (s : State) (k : Nat) : s.calTable.reckonerReads.reckon.stepOf k = s.stepOf k := by
  have h : Touches [.pwr, .ob, .svy, .evt] s s.calTable.reckonerReads.reckon :=
    State.reckon_touches rfl (.updPwr rfl (State.calTable_touches rfl (.refl _ s)))
  exact State.stepOf_congr (h.only .led rfl) k

/-- The parts that the steps of input good may change before the thresholds. -/
def inputParts : List Part :=
  [.pwr, .led, .ob, .seq, .svy, .log, .mem, .cap, .met, .pnt, .chi, .cal, .jrn, .ques, .ebx, .evt, .dram, .out]

/-- Steps 1 to 3, and step 4 where the thresholds hold. -/
def State.firstSteps (s : State) (ok : Bool) : State :=
  let s := s.wholeStep 1 0 0 .ok
  let s := (s.beginStep 2 0 0).calTable.reckonerReads.reckon
  let s := s.endStep 2 (if s.ob.defaults then .failed else .ok) none
  (s.beginStep 3 0 0).thresholds ok

theorem State.firstSteps_effect (s : State) (ok : Bool) : (s.firstSteps ok).pins = s.pins ∧ (s.firstSteps ok).rst = s.rst ∧
    (s.firstSteps ok).stepEnded 1 = true ∧ (s.firstSteps ok).stepEnded 2 = true ∧ (ok = true → (s.firstSteps ok).stepRuns 4 = true) ∧
    (ok = false → ((s.firstSteps ok).stepOf 3).map LedgerEntry.outcome = some .failed) := by
  unfold State.firstSteps
  extract_lets s1 s2 s3
  have f1 : Touches inputParts s s1 :=
    State.endStep_touches rfl (State.beginStep_touches rfl (.refl _ s))
  have e1 : s1.stepEnded 1 = true := State.stepEnded_endStep (State.stepRuns_beginStep ..) (by decide)
  clear_value s1
  have f2 : Touches inputParts s s2 :=
    State.reckon_touches rfl (.updPwr rfl (State.calTable_touches rfl (State.beginStep_touches rfl f1)))
  have r2 : s2.stepRuns 2 = true := (State.stepRuns_congr (State.reckon_stepOf _ 2)).trans (State.stepRuns_beginStep ..)
  have o2 : s2.stepOf 1 = s1.stepOf 1 := (State.reckon_stepOf _ 1).trans (State.stepOf_beginStep_other (by decide))
  clear_value s2
  have f3 : Touches inputParts s s3 :=
    State.endStep_touches rfl f2
  have e3 : s3.stepEnded 2 = true := State.stepEnded_endStep r2 (by split <;> decide)
  have o3 : s3.stepOf 1 = s1.stepOf 1 := (State.stepOf_endStep_other (by decide)).trans o2
  clear_value s3
  have f4 : Touches inputParts s (s3.beginStep 3 0 0) := State.beginStep_touches rfl f3
  have r4 : (s3.beginStep 3 0 0).stepRuns 3 = true := State.stepRuns_beginStep ..
  have o41 : (s3.beginStep 3 0 0).stepOf 1 = s1.stepOf 1 := (State.stepOf_beginStep_other (by decide)).trans o3
  have o42 : (s3.beginStep 3 0 0).stepOf 2 = s3.stepOf 2 := State.stepOf_beginStep_other (by decide)
  generalize s3.beginStep 3 0 0 = u at f4 r4 o41 o42 ⊢
  have hf := u.thresholds_frame ok
  refine ⟨(hf .pins rfl).trans (f4.only .pins rfl), (hf .rst rfl).trans (f4.only .rst rfl), ?_, ?_, ?_, ?_⟩
  · rw [State.stepEnded_same ((State.thresholds_other (by decide) (by decide)).trans o41), e1]
  · rw [State.stepEnded_same ((State.thresholds_other (by decide) (by decide)).trans o42), e3]
  · rintro rfl
    exact u.thresholds_ok
  · rintro rfl
    exact State.thresholds_failed r4

end Input
end Sys2Proof.Machine
end


section
/-!
SUPPORT. Input good, straps, and steps 4 and 5 (R73, R91, R101, R203, R528).
-/
namespace Sys2Proof.Machine

section Input
variable {s : State}

/-- The straps as read at input good, the restart over (R86, R528). -/
def State.strapped (s : State) (p : Nat) (b : Bool) (m : Nat) (rec : Bool) : State :=
  { s with pins := { s.pins with inputGood := true, profile := BitVec.ofNat 2 p, bay := b, mgmtMode := BitVec.ofNat 2 m, recovery := rec }
           rst := { s.rst with under := none, strapForced := s.rst.strapForced || rec } }

/-- The start that input good is of: at a power-on it begins here, from the flash mirror (R108). -/
def State.powerOnStart (s : State) (k : RKind) : State :=
  if k = .powerOn then
    let s := s.coldLedger.newStart .powerOn 1
    { s with met := { s.met with baseSeq := s.led.startSeq }
             cap := { s.cap with sites := (List.range 8).map fun n => (n, { s.capS n with restoring := true }) } }
  else s

theorem State.powerOnStart_keeps (s : State) (k : RKind) : (s.powerOnStart k).pins = s.pins ∧ (s.powerOnStart k).rst = s.rst := by
  unfold State.powerOnStart
  split
  · extract_lets u
    have hc : s.onlyChanges [.led, .maq] s.coldLedger := (State.coldLedger_touches rfl (.refl _ s)).only
    have hp : u.pins = s.pins := (s.coldLedger.newStart_frame .powerOn 1 .pins rfl).trans (hc .pins rfl)
    have hr : u.rst = s.rst := by
      rw [s.coldLedger.newStart_rst .powerOn 1, hc .rst rfl]
      show ({ s.rst with strapForced := s.rst.strapForced && true } : ResetCtl) = s.rst
      rw [Bool.and_true]
    clear_value u
    exact ⟨hp, hr⟩
  · exact ⟨rfl, rfl⟩

theorem inputGood_effect {p m busV : Nat} {b rec ok : Bool} {busI : Int} (hs : s.pwr.standby = true) (hi : s.pins.inputGood = false)
    (hk : s.rst.under.all (fun k => decide (3 ≤ k.rank)) = true) : Completes (.inputGood p b m rec ⟨ok, ⟨busV, busI⟩⟩) s fun t =>
      t.pins = { s.pins with inputGood := true, profile := BitVec.ofNat 2 p, bay := b, mgmtMode := BitVec.ofNat 2 m, recovery := rec } ∧
      t.rst = { s.rst with under := none, strapForced := s.rst.strapForced || rec } ∧
      t.stepEnded 1 = true ∧ t.stepEnded 2 = true ∧ (ok = true → t.stepRuns 4 = true) ∧
      (ok = false → (t.stepOf 3).map LedgerEntry.outcome = some .failed) := by
  refine completes_gated (t := if s.pins.inputGood || decide ((s.rst.under.getD .powerOn).rank < 3) then s else
    (((s.strapped p b m rec).powerOnStart (s.rst.under.getD .powerOn)).busKeep (some busV) (some busI)).firstSteps ok) rfl hs ?_
  have hr : ¬ (s.rst.under.getD .powerOn).rank < 3 := by
    cases h : s.rst.under with
    | none => decide
    | some k =>
      rw [h] at hk
      exact Nat.not_lt.2 (of_decide_eq_true hk)
  rw [hi, Bool.false_or, if_neg (by simpa using hr)]
  obtain ⟨hp, hq⟩ := (s.strapped p b m rec).powerOnStart_keeps (s.rst.under.getD .powerOn)
  generalize (s.strapped p b m rec).powerOnStart (s.rst.under.getD .powerOn) = u at hp hq ⊢
  have hb : u.onlyChanges [.snap, .rel, .met] (u.busKeep (some busV) (some busI)) := (State.busKeep_touches rfl (.refl _ u)).only
  obtain ⟨h1, h2, h3⟩ := (u.busKeep (some busV) (some busI)).firstSteps_effect ok
  exact ⟨h1.trans ((hb .pins rfl).trans hp), h2.trans ((hb .rst rfl).trans hq), h3⟩

end Input

/-! ## Straps (R76, R91, R528) -/

section Straps
variable {s : State}

/-- A strap other than RECOVERY_REQ_N is read from input good until step 5 has ended. -/
theorem strapStable_reads {n : Nat} {v : Bool} {t : State} (hs : s.pwr.standby = true) (hi : s.pins.inputGood = true)
    (h5 : s.stepEnded 5 = false)
    (he : exec (.strapStable n v) s = .next (if s.pwr.standby then if !s.pins.inputGood || s.stepEnded 5 then s else t else s)) :
    Completes (.strapStable n v) s fun u => u = t := by
  refine completes_gated he hs ?_
  rw [hi, h5, if_neg (by decide)]

/-- RECOVERY_REQ_N as sampled: a low forces the Plaster path while straps are open (R91, R528; log 115). -/
def State.recoverySampled (s : State) (low : Bool) : State :=
  { s with pins := { s.pins with recovery := low }
           rst := { s.rst with strapForced := s.rst.strapForced || (low && s.strapsOpen) } }

theorem State.plasterLetGo_stays (h : s.boot.plasterHeld = false ∨ s.pins.recovery = true) : s.plasterLetGo = s := by
  refine if_neg ?_
  rw [Bool.and_eq_true, Bool.not_eq_true', State.plasterForcing]
  rintro ⟨hp, hf⟩
  rcases h with h | h
  · exact Bool.false_ne_true (h.symm.trans hp)
  · rw [h] at hf
    contradiction

/-- A commanded module reset begins, or waits for its snapshot (R88). -/
theorem swReset_module {code : Nat} (h : s.rst.under = none) : (s.swReset code .moduleReset).rst.under = some .moduleReset ∨
    (RKind.moduleReset, code) ∈ (s.swReset code .moduleReset).rst.waiting := by
  cases hj : (s.snapshot 3).snap.job with
  | none => exact .inl (swReset_restarts h (.inl rfl) hj).1.under
  | some j =>
    refine .inr ?_
    rw [(swReset_waiting (s := s) (code := code) (.inl rfl) (by rw [hj]; rfl)).1]
    exact List.mem_append_right _ List.mem_cons_self

theorem State.plasterLetGo_resets (hp : s.boot.plasterHeld = true) (hr : s.pins.recovery = false) (hd : s.ob.defaults = false)
    (hl : s.ob.revminLost = false) (hu : s.rst.under = none) :
    s.plasterLetGo.rst.under = some .moduleReset ∨ (RKind.moduleReset, 6) ∈ s.plasterLetGo.rst.waiting := by
  have hf : (s.boot.plasterHeld && !s.plasterForcing) = true := by
    rw [State.plasterForcing, hp, hr, hd, hl]
    rfl
  rw [State.plasterLetGo, if_pos hf]
  exact swReset_module (s := { s with boot := { s.boot with plasterHeld := false } }) hu

theorem strapStable_recovery {v : Bool} (hs : s.pwr.standby = true) : Completes (.strapStable 5 v) s fun t =>
    (s.boot.plasterHeld = false ∨ v = false → t = s.recoverySampled (!v)) ∧
    (s.boot.plasterHeld = true → v = true → s.ob.defaults = false → s.ob.revminLost = false → s.rst.under = none →
      t.rst.under = some .moduleReset ∨ (RKind.moduleReset, 6) ∈ t.rst.waiting) := by
  refine completes_gated (t := (s.recoverySampled (!v)).plasterLetGo) rfl hs ⟨fun h => ?_, fun hp hv hd hl hu => ?_⟩
  · refine State.plasterLetGo_stays ?_
    rcases h with h | rfl
    · exact .inl h
    · exact .inr rfl
  · subst hv
    exact State.plasterLetGo_resets hp rfl hd hl hu

end Straps

/-! ## Steps 4 and 5 (R73, R101, R203) -/

section Dies
variable {s : State}

/-- Step 4's own work: counters, accelerometer and the summaries of a hold-up that a reset ended. -/
def State.diesRestored (s : State) (ok : Bool) : State :=
  let s := s.restoreCounters.accelTest ok
  if s.snap.sums.isEmpty then s else s.holdupSummaries 2

theorem State.diesRestored_sums (s : State) (ok : Bool) : (s.diesRestored ok).snap.sums = [] := by
  unfold State.diesRestored
  extract_lets u
  split
  · next h => exact List.isEmpty_iff.1 h
  · rfl

theorem State.diesRestored_frame (s : State) (ok : Bool) : s.onlyChanges [.rcnt, .log, .snap, .haz, .evt] (s.diesRestored ok) := by
  unfold State.diesRestored
  extract_lets u
  have hu : Touches [.rcnt, .log, .snap, .haz, .evt] s u := State.accelTest_touches rfl (State.restoreCounters_touches rfl (.refl _ s))
  exact Touches.only (.ite hu (State.holdupSummaries_touches rfl hu))

/-- Steps 5, 6 and 7 begin. -/
theorem State.begin567_effect (s : State) : s.begin567.maq = { s.maq with forceP0 := decide (1 ≤ s.carry 5) } ∧
    s.begin567.rst = s.rst ∧ s.begin567.snap = s.snap ∧ s.begin567.stepRuns 5 = true ∧ s.begin567.stepRuns 6 = true ∧
    (s.rst.otHeld = false → s.begin567.stepRuns 7 = true) ∧ s.begin567.stepOf 4 = s.stepOf 4 := by
  unfold State.begin567
  extract_lets m u
  have hm : u.maq = { s.maq with forceP0 := decide (1 ≤ s.carry 5) } := rfl
  have hr : u.rst = s.rst := rfl
  have hn : u.snap = s.snap := rfl
  have h4 : u.stepOf 4 = s.stepOf 4 := rfl
  clear_value u
  have r5 := u.stepRuns_beginStep 5 (min 1 (u.carry 5)) 0
  have o5 : (u.beginStep 5 (min 1 (u.carry 5)) 0).stepOf 4 = u.stepOf 4 := State.stepOf_beginStep_other (by decide)
  have f5 := u.beginStep_frame 5 (min 1 (u.carry 5)) 0
  generalize u.beginStep 5 (min 1 (u.carry 5)) 0 = v at r5 o5 f5 ⊢
  have r6 := v.stepRuns_beginStep 6 (min 1 (u.carry 6)) 0
  have o64 : (v.beginStep 6 (min 1 (u.carry 6)) 0).stepOf 4 = v.stepOf 4 := State.stepOf_beginStep_other (by decide)
  have o65 : (v.beginStep 6 (min 1 (u.carry 6)) 0).stepOf 5 = v.stepOf 5 := State.stepOf_beginStep_other (by decide)
  have f6 := v.beginStep_frame 6 (min 1 (u.carry 6)) 0
  generalize v.beginStep 6 (min 1 (u.carry 6)) 0 = w at r6 o64 o65 f6 ⊢
  have f7 := begin7_frame w
  have hwr : w.rst = s.rst := (f6 .rst rfl).trans ((f5 .rst rfl).trans hr)
  refine ⟨(f7 .maq rfl).trans ((f6 .maq rfl).trans ((f5 .maq rfl).trans hm)), (f7 .rst rfl).trans hwr,
    (f7 .snap rfl).trans ((f6 .snap rfl).trans ((f5 .snap rfl).trans hn)), ?_, ?_, fun ho => State.begin7_runs (hwr ▸ ho), ?_⟩
  · rw [State.stepRuns_congr ((State.stepOf_begin7_other (by decide)).trans o65), r5]
  · rw [State.stepRuns_congr (State.stepOf_begin7_other (by decide)), r6]
  · rw [State.stepOf_begin7_other (by decide), o64, o5, h4]

theorem State.carry_congr {t : State} {n : Nat} (h : t.led.carries = s.led.carries) : t.carry n = s.carry n := by
  rw [State.carry, h, State.carry]

theorem State.endStep_carries (s : State) (n : Nat) (o : StepEnd) (d : Option Nat) : (s.endStep n o d).led.carries = s.led.carries := by
  unfold State.endStep
  split
  · split <;> rfl
  · split <;> rfl
  · rfl

theorem standbyDiesUp_effect {ok : Bool} (hs : s.pwr.standby = true) (h4 : s.stepRuns 4 = true) : Completes (.standbyDiesUp ok) s fun t =>
    t.rst = { s.rst with wardenHeld := 0 } ∧ t.maq = { s.maq with forceP0 := decide (1 ≤ s.carry 5) } ∧ t.snap.sums = [] ∧
    t.stepRuns 5 = true ∧ t.stepRuns 6 = true ∧ (s.rst.otHeld = false → t.stepRuns 7 = true) ∧
    t.stepOf 4 = (s.stepOf 4).map fun x => x.ended .ok none s.plinth := by
  refine completes_gated (t := if !s.stepRuns 4 then s else
    ((({ s.diesRestored ok with rst := { (s.diesRestored ok).rst with wardenHeld := 0 } } : State).endStep 4 .ok none).startPage).begin567)
    rfl hs ?_
  rw [h4, if_neg (by decide)]
  have hd := s.diesRestored_frame ok
  have hsum := s.diesRestored_sums ok
  generalize s.diesRestored ok = d at hd hsum ⊢
  have hl : d.led = s.led := hd .led rfl
  have hr : ({ d with rst := { d.rst with wardenHeld := 0 } } : State).rst = { s.rst with wardenHeld := 0 } := by
    show ({ d.rst with wardenHeld := 0 } : ResetCtl) = _
    rw [hd .rst rfl]
  have hl' : ({ d with rst := { d.rst with wardenHeld := 0 } } : State).led = s.led := hl
  have hm : ({ d with rst := { d.rst with wardenHeld := 0 } } : State).maq = s.maq := hd .maq rfl
  have hp : ({ d with rst := { d.rst with wardenHeld := 0 } } : State).plinth = s.plinth := hd .plinth rfl
  have hn : ({ d with rst := { d.rst with wardenHeld := 0 } } : State).snap.sums = [] := hsum
  generalize ({ d with rst := { d.rst with wardenHeld := 0 } } : State) = u at hr hl' hm hp hn ⊢
  have he := u.endStep_frame 4 .ok none
  have hc := u.endStep_carries 4 .ok none
  have h4' : u.stepRuns 4 = true := (State.stepRuns_congr (State.stepOf_congr hl' 4)).trans h4
  have hs4 := State.stepOf_endStep_same (o := .ok) (d := none) h4'
  rw [State.stepOf_congr hl', hp] at hs4
  generalize u.endStep 4 .ok none = v at he hc hs4 ⊢
  have hg : v.onlyChanges [.log] v.startPage := (State.startPage_touches rfl (.refl _ v)).only
  have hcar : v.startPage.carry 5 = s.carry 5 := State.carry_congr (by rw [hg .led rfl, hc, hl'])
  have hst : v.startPage.stepOf 4 = v.stepOf 4 := State.stepOf_congr (hg .led rfl) 4
  have hrs : v.startPage.rst = { s.rst with wardenHeld := 0 } := (hg .rst rfl).trans ((he .rst rfl).trans hr)
  have hms : v.startPage.maq = s.maq := (hg .maq rfl).trans ((he .maq rfl).trans hm)
  have hns : v.startPage.snap.sums = [] := by rw [hg .snap rfl, he .snap rfl, hn]
  generalize v.startPage = w at hcar hst hrs hms hns ⊢
  obtain ⟨b1, b2, b3, b4, b5, b6, b7⟩ := w.begin567_effect
  refine ⟨b2.trans hrs, ?_, by rw [b3, hns], b4, b5, fun ho => b6 (by rw [hrs]; exact ho), ?_⟩
  · rw [b1, hms, hcar]
  · rw [b7, hst, hs4]

theorem maquetteStartLoad_effect (hs : s.pwr.standby = true) (h5 : s.stepRuns 5 = true) : Completes .maquetteStartLoad s fun t =>
    t.maq = ((s.reckonerReads.startLoad s.loadOrder).noteLoad (s.loadOrder.headD 0)).1.maq ∧ t.stepEnded 5 = true := by
  refine completes_gated rfl hs ?_
  beta_reduce
  rw [if_pos h5]
  unfold State.loadStep
  extract_lets first r
  have hf : Touches [.pwr, .maq, .seq, .svy, .log, .mem, .cap, .met, .pnt, .haz, .cool, .chi, .cal, .jrn, .gimg, .ques, .ebx, .evt, .pair,
      .dram, .out] s r.1 := State.noteLoad_touches rfl (State.startLoad_touches rfl (.updPwr rfl (.refl _ s)))
  have h5' : r.1.stepRuns 5 = true := (State.stepRuns_congr (State.stepOf_congr (hf.only .led rfl) 5)).trans h5
  refine ⟨r.1.endStep_frame 5 _ _ .maq rfl, State.stepEnded_endStep h5' ?_⟩
  split <;> decide

end Dies
end Sys2Proof.Machine
end


section
/-!
SUPPORT. Steps 7 and 8: the core domain and the identities of the dies (R29, R42 to R45, R101).
-/
namespace Sys2Proof.Machine

/-! ## Step 7: the core domain (R29, R86, R101) -/

section Core
variable {s : State}

theorem coreDomainUp_on {ok : Bool} {p : State → Prop} (hs : s.pwr.standby = true) (h7 : s.stepRuns 7 = true) (ho : s.rst.otHeld = false)
    (hf : ((s.stepOf 7).any fun x => x.form == 2) = false) (h : p (s.coreUp ok)) : Completes (.coreDomainUp ok) s p := by
  refine completes_gated (t := if !s.stepRuns 7 || s.rst.otHeld || (s.stepOf 7).any (fun x => x.form == 2) then s
    else s.coreUp ok) rfl hs ?_
  rw [h7, ho, hf, if_neg (by decide)]
  exact h

/-- A restart of kind `k` over, with the core domain powered. -/
def State.corePowered (s : State) : State := ({ s with pwr := { s.pwr with core := true } } : State).restartOver .coreDie

theorem State.coreUp_effect (h7 : s.stepRuns 7 = true) : (s.coreUp true).pwr = { s.pwr with core := true } ∧
    (s.coreUp true).stepEnded 7 = true ∧ (s.coreUp true).stepRuns 8 = true ∧ s.onlyChanges [.pwr, .rst, .led] (s.coreUp true) := by
  have he : s.coreUp true = (s.corePowered.endStep 7 .ok none).beginStep 8 0 0 := rfl
  have hc : Touches [.pwr, .rst, .led] s s.corePowered := .updRst rfl (.updPwr rfl (.refl _ s))
  have h7' : s.corePowered.stepRuns 7 = true := h7
  have hp : s.corePowered.pwr = { s.pwr with core := true } := rfl
  rw [he]
  generalize s.corePowered = u at hc h7' hp ⊢
  have hd := (u.endStep 7 .ok none).beginStep_ledger 0 0 (n := 8) rfl
  refine ⟨(hd .pwr rfl).trans ((u.endStep_frame 7 .ok none .pwr rfl).trans hp), ?_, State.stepRuns_beginStep .., fun q hq => ?_⟩
  · rw [State.stepEnded_same (State.stepOf_beginStep_other (by decide))]
    exact State.stepEnded_endStep h7' (by decide)
  · have hql : [Part.led].contains q = false := Part.within_not rfl hq
    exact Part.same_trans (hc.only q hq) (Part.same_trans (u.endStep_frame 7 .ok none q hql) (hd q hql))

theorem State.coreUp_fails (h7 : s.stepRuns 7 = true) : ((s.coreUp false).stepOf 7).map LedgerEntry.outcome = some .failed ∧
    (s.coreUp false).rst = { s.rst with under := if s.rst.under = some .coreDie then none else s.rst.under } ∧
    s.onlyChanges [.pwr, .rst, .led, .seq, .log, .mem, .cap, .met, .pnt, .chi, .cal, .jrn, .ques, .ebx, .evt, .dram, .out]
      (s.coreUp false) := by
  have he : s.coreUp false = (s.endStep 7 .failed none).coreFails := rfl
  have ho := State.endStep_failed (d := none) h7
  have hr : (s.endStep 7 .failed none).rst = s.rst := s.endStep_frame 7 .failed none .rst rfl
  have ht : Touches [.pwr, .rst, .led, .seq, .log, .mem, .cap, .met, .pnt, .chi, .cal, .jrn, .ques, .ebx, .evt, .dram, .out] s
      (s.endStep 7 .failed none) := State.endStep_touches rfl (.refl _ s)
  rw [he]
  generalize s.endStep 7 .failed none = u at ho hr ht ⊢
  have ht' : Touches [.pwr, .rst, .led, .seq, .log, .mem, .cap, .met, .pnt, .chi, .cal, .jrn, .ques, .ebx, .evt, .dram, .out] s
      (u.restartOver .coreDie) := .updRst rfl ht
  have ho' : ((u.restartOver .coreDie).stepOf 7).map LedgerEntry.outcome = some .failed := ho
  have hr' : (u.restartOver .coreDie).rst = { s.rst with under := if s.rst.under = some .coreDie then none else s.rst.under } := by
    rw [← hr]
    rfl
  unfold State.coreFails
  generalize u.restartOver .coreDie = v at ht' ho' hr' ⊢
  have hf := v.fallen_frame (u.stepRails 7)
  refine ⟨?_, (hf .rst rfl).trans hr', (State.settle_touches rfl (State.orderDown_touches rfl ht')).only⟩
  rw [State.stepOf_congr (hf .led rfl), ho']

end Core

/-! ## Step 8: the dies' identities (R42 to R45) -/

theorem testBit_maskOf (l : List Nat) (i : Nat) : (maskOf l).testBit i = decide (i ∈ l) := by
  have gen : ∀ (l : List Nat) (m : Nat), (l.foldl (fun m i => m ||| 2 ^ i) m).testBit i = (m.testBit i || decide (i ∈ l)) := by
    intro l
    induction l with
    | nil => exact fun m => by simp
    | cons a l ih =>
      intro m
      rw [List.foldl_cons, ih, Nat.testBit_or, Nat.testBit_two_pow, Bool.or_assoc]
      congr 1
      rw [← Bool.decide_or]
      exact decide_eq_decide.2 (by rw [List.mem_cons, eq_comm])
  rw [maskOf, gen, Nat.zero_testBit, Bool.false_or]

section Identity
variable {s : State} {ids : List Bytes}

theorem State.dieStale_keeps {d b : Nat} (h : (s.chan b).stale = true) : ((s.dieStale d).chan b).stale = true := by
  by_cases hb : b < 24 * d ∨ 24 * d + 24 ≤ b
  · rw [s.dieStale_other hb, h]
  · obtain ⟨i, hi, rfl⟩ : ∃ i, i < 24 ∧ b = 24 * d + i := ⟨b - 24 * d, by omega, by omega⟩
    exact s.dieStale_stale d hi

/-- Of a list of dies each goes stale. -/
theorem State.diesStale {l : List Nat} {d i : Nat} (hd : d ∈ l) (hi : i < 24) :
    ((l.foldl (fun s d => s.dieStale d) s).chan (24 * d + i)).stale = true :=
  foldl_each (P := fun d (s : State) => (s.chan (24 * d + i)).stale = true) (fun s d => s.dieStale_stale d hi)
    (fun _ _ _ h => State.dieStale_keeps h) hd

/-- The identity that a die gave. -/
def dieIdent (ids : List Bytes) (n : Nat) : Bytes := (ids[n]?.getD [] ++ zeros 11).take 11

/-- The dies that gave none. -/
def absentDies (ids : List Bytes) : Nat := maskOf ((List.range 32).filter fun n => u8 (dieIdent ids n) 9 = 0)

theorem testBit_absentDies {n : Nat} (hn : n < 32) : (absentDies ids).testBit n = decide (u8 (dieIdent ids n) 9 = 0) := by
  rw [absentDies, testBit_maskOf]
  refine decide_eq_decide.2 ?_
  rw [List.mem_filter, List.mem_range, decide_eq_true_eq]
  exact and_iff_right hn

/-- The first die whose identity is not the build record's. -/
def State.firstStranger (s : State) (ids : List Bytes) : Option Nat :=
  (List.range 32).find? fun n => dieIdent ids n != Config.buildDie s.buildRecord n

/-- The identities compared, and the channels of absent Survey dies stale (R42 to R45). -/
def State.identified (s : State) (ids : List Bytes) : State :=
  let s1 : State := { s with pwr := { s.pwr with
      dieId := (List.range 32).map fun n => (n, dieIdent ids n)
      absent := BitVec.ofNat 32 (absentDies ids), identMismatch := (s.firstStranger ids).isSome
      identFirst := BitVec.ofNat 5 ((s.firstStranger ids).getD 0)
      calFenced := s.pwr.calFenced || (absentDies ids).testBit 5 } }
  let s2 := if (s.firstStranger ids).isSome then s1.event 0 44 ((s.firstStranger ids).getD 0) 0 else s1
  ((List.range 16).filter fun d => (absentDies ids).testBit (8 + d)).foldl (fun (s : State) d => s.dieStale d) s2

theorem State.identified_touches (s : State) (ids : List Bytes) : Touches [.pwr, .svy, .log, .evt] s (s.identified ids) := by
  unfold State.identified
  extract_lets w s1 s2
  have h1 : Touches [.pwr, .svy, .log, .evt] s s1 := .updPwr rfl (.refl _ s)
  have h2 : Touches [.pwr, .svy, .log, .evt] s s2 := .ite (State.event_touches rfl h1) h1
  clear_value s2
  exact .foldl (fun _ _ h => State.dieStale_touches rfl h) h2

theorem State.identified_stale (s : State) {ids : List Bytes} {c : Nat} (hc : c < 384) (h : u8 (dieIdent ids (8 + c / 24)) 9 = 0) :
    ((s.identified ids).chan c).stale = true := by
  have hd : c / 24 < 16 := by omega
  have hm : c / 24 ∈ (List.range 16).filter fun d => (absentDies ids).testBit (8 + d) := by
    rw [List.mem_filter, List.mem_range, testBit_absentDies (by omega)]
    exact ⟨hd, decide_eq_true h⟩
  unfold State.identified
  extract_lets w s1 s2
  have hs := State.diesStale (s := s2) hm (Nat.mod_lt c (by decide : 24 > 0))
  rw [Nat.div_add_mod] at hs
  exact hs

theorem State.identify32_eq (s : State) (ids : List Bytes) : s.identify32 ids =
    if (absentDies ids).testBit 7 then
      ({ s.identified ids with pair := { (s.identified ids).pair with outputs := false } } : State).endStep 8 .failed (s.firstStranger ids)
    else ((s.identified ids).endStep 8
      (if (s.firstStranger ids).isSome || absentDies ids != 0 then .failed else .ok) (s.firstStranger ids)).begin9 := rfl

theorem State.identify32_effect (h8 : s.stepRuns 8 = true) : (s.identify32 ids).stepEnded 8 = true ∧
    (u8 (dieIdent ids 7) 9 ≠ 0 → (s.identify32 ids).stepRuns 9 = true) ∧
    (u8 (dieIdent ids 7) 9 = 0 → (s.identify32 ids).pair.outputs = false ∧ (s.identify32 ids).stepOf 9 = s.stepOf 9) ∧
    ∀ c, c < 384 → u8 (dieIdent ids (8 + c / 24)) 9 = 0 → ((s.identify32 ids).chan c).stale = true := by
  have hl : (s.identified ids).led = s.led := (s.identified_touches ids).only .led rfl
  have hst {c : Nat} (hc : c < 384) (h : u8 (dieIdent ids (8 + c / 24)) 9 = 0) := s.identified_stale hc h
  have h8' : (s.identified ids).stepRuns 8 = true := (State.stepRuns_congr (State.stepOf_congr hl 8)).trans h8
  have h9' : (s.identified ids).stepOf 9 = s.stepOf 9 := State.stepOf_congr hl 9
  rw [s.identify32_eq ids, testBit_absentDies (by decide)]
  generalize s.identified ids = u at hst h8' h9' ⊢
  by_cases h7 : u8 (dieIdent ids 7) 9 = 0
  · rw [if_pos (decide_eq_true h7)]
    have hp : ({ u with pair := { u.pair with outputs := false } } : State).pair.outputs = false := rfl
    have hv : ({ u with pair := { u.pair with outputs := false } } : State).svy = u.svy := rfl
    have hr : ({ u with pair := { u.pair with outputs := false } } : State).stepRuns 8 = true := h8'
    have ho : ({ u with pair := { u.pair with outputs := false } } : State).stepOf 9 = s.stepOf 9 := h9'
    generalize ({ u with pair := { u.pair with outputs := false } } : State) = v at hp hv hr ho ⊢
    have hf := v.endStep_frame 8 .failed (s.firstStranger ids)
    refine ⟨State.stepEnded_endStep hr (by decide), fun hn => absurd h7 hn, fun _ => ⟨?_, ?_⟩, fun c hc h => ?_⟩
    · rw [hf .pair rfl, hp]
    · rw [State.stepOf_endStep_other (by decide), ho]
    · rw [State.chan_congr ((hf .svy rfl).trans hv)]
      exact hst hc h
  · rw [if_neg (by simp [h7])]
    have he := State.stepEnded_endStep (d := s.firstStranger ids)
      (o := if (s.firstStranger ids).isSome || absentDies ids != 0 then .failed else .ok) h8' (by split <;> decide)
    have hf := u.endStep_frame 8 (if (s.firstStranger ids).isSome || absentDies ids != 0 then .failed else .ok) (s.firstStranger ids)
    generalize u.endStep 8 _ (s.firstStranger ids) = v at he hf ⊢
    have h9 : v.onlyChanges [.pwr, .led, .seq, .log, .mem, .cap, .met, .pnt, .chi, .cal, .jrn, .ques, .ebx, .evt, .dram, .out] v.begin9 :=
      (State.begin9_touches rfl (.refl _ v)).only
    refine ⟨?_, fun _ => v.begin9_runs, fun hn => absurd hn h7, fun c hc h => ?_⟩
    · rw [State.stepEnded_same (State.stepOf_begin9_other (by decide)), he]
    · rw [State.chan_congr ((h9 .svy rfl).trans (hf .svy rfl))]
      exact hst hc h

theorem dieIdentityCheck_effect (hc : s.pwr.core = true) (h8 : s.stepRuns 8 = true) (h0 : u8 (ids[0]?.getD []) 9 ≠ 0) {p : State → Prop}
    (h : p (s.identify32 ids)) : Completes (.dieIdentityCheck ids) s p := by
  refine completes_gated rfl hc ?_
  beta_reduce
  rw [h8, if_neg (by decide), if_pos (bne_iff_ne.2 h0)]
  exact h

end Identity
end Sys2Proof.Machine
end


section
/-!
SUPPORT. Step 9: stacked SRAM and the Armature (R24, R434), and the early steps together.
-/
namespace Sys2Proof.Machine

/-! ## Step 9: stacked SRAM and the Armature (R24, R434) -/

section Armature
variable {s : State}

/-- Pairs that fail change of the power record what is known of pairs alone. -/
theorem State.pairsFail_pwr (s : State) (l : List Nat) : (l.foldl State.pairFails s).pwr = { s.pwr with
    pairFailed := (l.foldl State.pairFails s).pwr.pairFailed, pairTime := (l.foldl State.pairFails s).pwr.pairTime
    pairStuck := (l.foldl State.pairFails s).pwr.pairStuck } := by
  induction l generalizing s with
  | nil => rfl
  | cons p l ih => exact ih (s.pairFails p)

theorem State.pairsFail_frame (s : State) (l : List Nat) : s.onlyChanges [.pwr] (l.foldl State.pairFails s) :=
  (Touches.foldl (fun _ _ h => State.pairFails_touches rfl h) (.refl [.pwr] s)).only

theorem State.pairFailed_foldl (s : State) (l : List Nat) {p : Nat} (hp : p < 4) :
    (l.foldl State.pairFails s).pwr.pairFailed.getLsbD p = (s.pwr.pairFailed.getLsbD p || decide (p ∈ l)) := by
  induction l generalizing s with
  | nil => simp
  | cons a l ih =>
    have h : (s.pairFails a).pwr.pairFailed.getLsbD p = (s.pwr.pairFailed.getLsbD p || decide (a = p)) := getLsbD_setBit_or _ hp
    rw [List.foldl_cons, ih, h, Bool.or_assoc, ← Bool.decide_or]
    exact congrArg _ (decide_eq_decide.2 (by rw [List.mem_cons, eq_comm]))

/-- The pairs that this test finds failed. -/
def State.newFailures (s : State) (failed : Nat) : List Nat := (bitsOf 4 failed).filter fun p => !s.pwr.pairFailed.getLsbD p

/-- A pair is failed that was, or that the test names. -/
theorem State.pairFailed_tested (s : State) (failed : Nat) {p : Nat} (hp : p < 4) :
    ((s.newFailures failed).foldl State.pairFails s).pwr.pairFailed.getLsbD p = true ↔
      s.pwr.pairFailed.getLsbD p = true ∨ failed.testBit p = true := by
  rw [State.pairFailed_foldl _ _ hp, Bool.or_eq_true, decide_eq_true_eq, State.newFailures, List.mem_filter, bitsOf, List.mem_filter,
    List.mem_range, Bool.not_eq_true']
  cases s.pwr.pairFailed.getLsbD p <;> simp [hp]

theorem State.begin10_keeps (s : State) : s.begin10.pwr = s.pwr ∧ ∀ k, k ≠ 10 → s.begin10.stepOf k = s.stepOf k := by
  unfold State.begin10
  split
  · have hf := s.event_frame 0 45 6 0
    exact ⟨hf .pwr rfl, fun k _ => State.stepOf_congr (hf .led rfl) k⟩
  · split
    · exact ⟨s.beginStep_ledger 0 0 rfl .pwr rfl, fun k hk => State.stepOf_beginStep_other hk⟩
    · exact ⟨rfl, fun _ _ => rfl⟩

theorem State.begin10_runs (ha : s.pwr.absent.getLsbD 6 = false) (hu : s.pwr.armature = true) : s.begin10.stepRuns 10 = true := by
  rw [State.begin10, ha, if_neg Bool.false_ne_true, if_pos hu]
  exact State.stepRuns_beginStep ..

theorem State.armUp_pwr (s : State) : s.armUp.pwr = { s.pwr with
    sram := true, armature := decide (s.pwr.pairFailed ≠ 15#4), caliper := !s.pwr.calFenced && !s.cal.selfFenced } := rfl

/-- The Armature domain comes up, step 9 ends and step 10 begins (R24, R45, R101). -/
theorem State.armUp_effect (s : State) {o : StepEnd} {d : Option Nat} (h9 : s.stepRuns 9 = true) (ho : o ≠ .inProgress) {t : State}
    (ht : t = (s.armUp.endStep 9 o d).begin10) :
    t.pwr = s.armUp.pwr ∧ t.stepEnded 9 = true ∧
    (s.pwr.pairFailed ≠ 15#4 → s.pwr.absent.getLsbD 6 = false → t.stepRuns 10 = true) := by
  have h9' : s.armUp.stepRuns 9 = true := h9
  have he := State.stepEnded_endStep (d := d) h9' ho
  have hv := s.armUp.endStep_frame 9 o d .pwr rfl
  generalize s.armUp.endStep 9 o d = v at he hv ht
  obtain ⟨hk, hs⟩ := v.begin10_keeps
  have hw : v.pwr = s.armUp.pwr := hv
  subst ht
  refine ⟨hk.trans hw, ?_, fun hn h6 => State.begin10_runs ?_ ?_⟩
  · rw [State.stepEnded_same (hs 9 (by decide)), he]
  · rw [hw, s.armUp_pwr]
    exact h6
  · rw [hw, s.armUp_pwr]
    exact decide_eq_true hn

/-- The pairs as this test leaves them. -/
def State.pairsTested (s : State) (failed : Nat) : State := (s.newFailures failed).foldl State.pairFails s

theorem State.pairsTested_keeps (s : State) (failed : Nat) : (s.pairsTested failed).pwr.calFenced = s.pwr.calFenced ∧
    (s.pairsTested failed).pwr.absent = s.pwr.absent ∧ (s.pairsTested failed).led = s.led ∧ (s.pairsTested failed).cal = s.cal := by
  have h := s.pairsFail_pwr (s.newFailures failed)
  have hf := s.pairsFail_frame (s.newFailures failed)
  exact ⟨by rw [State.pairsTested, h], by rw [State.pairsTested, h], hf .led rfl, hf .cal rfl⟩

/-- Step 9 with its pairs tested. -/
def State.tested (s : State) (failed : Nat) : State :=
  ((s.pairsTested failed).armUp.endStep 9
    (if (s.newFailures failed).isEmpty && !(s.pairsTested failed).pwr.absent.getLsbD 6 then .ok else .failed)
    (some (s.pairsTested failed).pwr.pairFailed.toNat)).begin10

theorem State.tested_effect (s : State) (failed : Nat) (h9 : s.stepRuns 9 = true) : (s.tested failed).pwr.sram = true ∧
    (s.tested failed).pwr.armature = decide ((s.tested failed).pwr.pairFailed ≠ 15#4) ∧
    (s.tested failed).pwr.caliper = (!s.pwr.calFenced && !s.cal.selfFenced) ∧ (s.tested failed).stepEnded 9 = true ∧
    (∀ p, p < 4 → ((s.tested failed).pwr.pairFailed.getLsbD p = true ↔
      s.pwr.pairFailed.getLsbD p = true ∨ failed.testBit p = true)) ∧
    ((s.tested failed).pwr.pairFailed ≠ 15#4 → s.pwr.absent.getLsbD 6 = false → (s.tested failed).stepRuns 10 = true) := by
  obtain ⟨hfen, habs, hl, hcal⟩ := s.pairsTested_keeps failed
  have hb {p : Nat} (hp : p < 4) : (s.pairsTested failed).pwr.pairFailed.getLsbD p = true ↔ _ := s.pairFailed_tested failed hp
  have h9' : (s.pairsTested failed).stepRuns 9 = true := (State.stepRuns_congr (State.stepOf_congr hl 9)).trans h9
  have ho : (if (s.newFailures failed).isEmpty && !(s.pairsTested failed).pwr.absent.getLsbD 6 then StepEnd.ok else .failed) ≠
      .inProgress := by
    split <;> decide
  generalize ht : s.tested failed = t
  unfold State.tested at ht
  generalize s.pairsTested failed = u at hfen habs hl hcal hb h9' ho ht
  obtain ⟨hp, he, hr⟩ := u.armUp_effect h9' ho ht.symm
  rw [hp, u.armUp_pwr]
  refine ⟨rfl, rfl, ?_, he, fun p hp => hb hp, fun hn h6 => hr hn (habs ▸ h6)⟩
  rw [hfen, hcal]

theorem armatureLockstepCheck_on {failed : Nat} {p : State → Prop} (hc : s.pwr.core = true) (h9 : s.stepRuns 9 = true)
    (ht : s.haz.tjState ≠ 1) (h : p (s.tested failed)) : Completes (.armatureLockstepCheck failed) s p := by
  refine completes_gated (t := if !s.stepRuns 9 || decide (s.haz.tjState = 1) then s else s.tested failed) rfl hc ?_
  rw [h9, decide_eq_false ht, if_neg (by decide)]
  exact h

end Armature

/-- Settles O2: each step's end and the beginning of the next keep the other steps' entries, and their rails keep the domains' bits. -/
theorem earlyStartStepsTakeEffect : Obligations.EarlyStartStepsTakeEffect := by
  intro s
  refine ⟨?_, ?_, ?_, ?_, ?_, ?_, ?_, ?_⟩
  · exact fun p b m rec ok busV busI hs hi hk => inputGood_effect hs hi hk
  · exact fun v hs hi h5 => ⟨strapStable_reads hs hi h5 rfl, strapStable_reads hs hi h5 rfl, strapStable_reads hs hi h5 rfl,
      strapStable_reads hs hi h5 rfl, strapStable_reads hs hi h5 rfl⟩
  · exact fun v hs => strapStable_recovery hs
  · exact fun ok hs h4 => standbyDiesUp_effect hs h4
  · exact fun hs h5 => maquetteStartLoad_effect hs h5
  · exact fun hs h7 ho hf => ⟨coreDomainUp_on hs h7 ho hf (State.coreUp_effect h7),
      coreDomainUp_on hs h7 ho hf (State.coreUp_fails h7)⟩
  · exact fun ids hc h8 h0 => dieIdentityCheck_effect hc h8 h0 (State.identify32_effect h8)
  · exact fun failed hc h9 ht => armatureLockstepCheck_on hc h9 ht (s.tested_effect failed h9)

end Sys2Proof.Machine
end


section
/-!
SUPPORT. What goes out stands before what went out earlier, through the operations that a commit sets going (R57, R66); the Maquette
block itself stands still in all of them.
-/
namespace Sys2Proof.Machine

theorem State.answers.grows {s t : State} {q : Req} {st d v : Nat} (h : s.answers t q st d v) : s.grows t := by
  obtain ⟨l, e, h⟩ := h
  exact ⟨l ++ Out.status q st d v :: e, by rw [h, List.append_assoc, List.cons_append]⟩

/-- From `s` to `t` the Maquette block stands still, and what goes out stands before what went out earlier. -/
structure Onward (s t : State) : Prop where
  maq : t.maq = s.maq
  out : s.grows t

namespace Onward

variable {r s t : State}

theorem refl (s : State) : Onward s s := ⟨rfl, State.grows_refl rfl⟩

theorem trans (h : Onward r s) (h' : Onward s t) : Onward r t := ⟨h'.maq.trans h.maq, State.grows_trans h.out h'.out⟩

/-- The parts that an operation may change which gives nothing out and leaves the Maquette block alone. -/
def quiet : List Part := (Part.others.erase .out).erase .maq

theorem silent (h : Onward r s) (ht : Touches quiet s t) : Onward r t :=
  h.trans ⟨ht.only .maq rfl, State.grows_refl (ht.only .out rfl)⟩

theorem emit {o : Out} (h : Onward r s) : Onward r (s.emit o) := h.trans ⟨rfl, [o], rfl⟩

theorem ite {c : Prop} [Decidable c] (hs : Onward r s) (ht : Onward r t) : Onward r (if c then s else t) := by split <;> assumption

theorem foldl {α : Type} {f : State → α → State} {l : List α} (hf : ∀ s a, Onward r s → Onward r (f s a)) (h : Onward r s) :
    Onward r (l.foldl f s) := by
  induction l generalizing s with
  | nil => exact h
  | cons a l ih => exact ih (hf s a h)

/-! ## Completions (R440, R443) -/

theorem completeAs {q : Req} {st a b : Nat} {rest : Bytes} (h : Onward r s) : Onward r (s.completeAs q st a b rest) :=
  h.trans ⟨(State.completeAs_touches (ps := Part.others.erase .maq) rfl (.refl _ s)).only .maq rfl,
    (s.completeAs_answers q st a b rest).grows⟩

theorem endCheck {c : Check} {key code : Nat} (h : Onward r s) : Onward r (s.endCheck c key code) := by
  unfold State.endCheck
  extract_lets s1 s2
  have h1 : Onward r s1 := h.silent (State.dropCheck_touches rfl (.refl _ s))
  have h2 : Onward r s2 := h1.silent (State.bumpCov_touches rfl (.refl _ s1))
  clear_value s1 s2
  split
  · exact h1.completeAs
  · exact ite h1 (ite (h2.silent (State.runCov_touches rfl (.refl _ s2))) h2)

/-! ## Sites that change state (R164) -/

variable {n : Nat}

theorem calSiteLeft (h : Onward r s) : Onward r (s.calSiteLeft n) := by
  unfold State.calSiteLeft
  refine silent (foldl (fun u c hu => ?_) h) (State.calNext_touches rfl (.refl _ _))
  exact hu.endCheck.silent (State.calSiteEvent_touches rfl (.refl _ _))

theorem leftRunning (h : Onward r s) : Onward r (s.leftRunning n) :=
  (h.silent (State.armsLeft_touches rfl (.refl _ s))).calSiteLeft

theorem siteLeft (h : Onward r s) : Onward r (s.siteLeft n) :=
  (leftRunning (h.silent (State.endJobOn_touches rfl (.refl _ s)))).silent (State.jrnSiteLeft_touches rfl (.refl _ _))

theorem siteTo {st : SiteSt} (h : Onward r s) : Onward r (s.siteTo n st) := by
  have cap {u : State} {x : SiteCap} (hu : Onward r u) : Onward r (u.setCapS n x) := hu.silent (State.setCapS_touches rfl (.refl _ u))
  unfold State.siteTo
  extract_lets _ _ s1 s2 _ s3 _ s4 _
  have h1 : Onward r s1 := h.silent (State.setSite_touches rfl (.refl _ s))
  have h2 : Onward r s2 := h1.siteLeft
  have h3 : Onward r s3 := ite (cap h2) (ite h1.leftRunning h1)
  have h4 : Onward r s4 := ite (cap h3) h3
  exact ite (cap h4) h4

/-- A site's entry into a state with its record and event. -/
theorem siteNoted {st : SiteSt} {kind code : Nat} (h : Onward r s) :
    Onward r (((s.siteTo n st).siteEvent n kind).event 3 164 n code) :=
  h.siteTo.silent (State.event_touches rfl (State.siteEvent_touches rfl (.refl _ _)))

theorem siteDownSeq {b : Bool} (h : Onward r s) : Onward r (s.siteDownSeq n b) :=
  (h.silent (State.setSite_touches rfl (.refl _ s))).siteTo.silent (State.orderDown_touches rfl (.refl _ _))

theorem toIdentify (h : Onward r s) : Onward r (s.toIdentify n) := by
  unfold State.toIdentify
  extract_lets _ s1 _ s2
  have h1 : Onward r s1 := h.silent (State.setSite_touches rfl (.refl _ s))
  exact ite h1.siteTo (h1.silent (State.setSite_touches rfl (.refl _ s1))).siteNoted

theorem siteSettle (h : Onward r s) : Onward r (s.siteSettle n) := by
  have set {x : Site} : Onward r (s.setSite n x) := h.silent (State.setSite_touches rfl (.refl _ s))
  unfold State.siteSettle
  extract_lets x s1
  have h1 : Onward r s1 := set
  split
  · exact ite h.siteNoted h
  · exact ite (ite h1.siteNoted (ite (ite h1.siteTo h1.siteNoted) h1.siteTo)) h
  · exact ite set.siteNoted (ite set h)
  · exact h

/-! ## Rails that follow (R150 to R154) -/

theorem pmbusWrite {g : Nat} {on : Bool} (h : Onward r s) : Onward r (s.pmbusWrite g on) := by
  unfold State.pmbusWrite
  extract_lets
  exact ite h.emit h

theorem moveRail {g : Nat} {x : Rail} (h : Onward r s) : Onward r (s.moveRail g x) := by
  unfold State.moveRail
  extract_lets was s1 s2
  have h1 : Onward r s1 := h.silent (State.setRail_touches rfl (.refl _ s))
  have h2 : Onward r s2 := ite h1.pmbusWrite (ite h1.pmbusWrite h1)
  exact ite (h2.silent (State.unmask_touches rfl (.refl _ s2))) h2

theorem railPasses {base k m : Nat} (h : Onward r s) : Onward r (s.railPasses base k m) := by
  induction m generalizing s with
  | zero => exact h
  | succ m ih =>
    refine ih (foldl (fun _ _ h => ?_) h)
    split
    · exact h.moveRail
    · exact h

theorem sysResetEnd (h : Onward r s) : Onward r s.sysResetEnd := by
  refine foldl (fun u n hu => ?_) (h.silent (.updSeq rfl (.refl _ s)))
  have h1 : Onward r (u.setSite n { u.site n with inSysReset := false, reaction := false }) :=
    hu.silent (State.setSite_touches rfl (.refl _ u))
  exact ite h1.siteNoted h1

theorem sysSettle (h : Onward r s) : Onward r s.sysSettle := by
  have h1 : Onward r (s.event 3 154 0 0) := h.silent (State.event_touches rfl (.refl _ s))
  exact ite (ite (emit (h.silent (.updSeq rfl (.refl _ s)))) h1.sysResetEnd) h

theorem settle {g : Nat} (h : Onward r s) : Onward r (s.settle g) := by
  unfold State.settle
  split
  · exact h.railPasses.siteSettle.sysSettle
  · exact h.railPasses

/-! ## Outputs of fans and valves (R274, R290) -/

theorem withDrive {f : State → State} (h : Onward r s) (hf : Touches quiet s (f s)) : Onward r (s.withDrive f) := by
  unfold State.withDrive
  extract_lets t
  have ht : Onward r t := h.silent hf
  exact ite ht (foldl (fun _ _ h => ite h h.emit) ht)

theorem startAll (h : Onward r s) : Onward r s.startAll :=
  h.withDrive (.foldl (fun _ _ h => .ite h (State.setFan_touches rfl h)) (.refl _ s))

theorem moveValve {v : Nat} {x : Valve} (h : Onward r s) : Onward r (s.moveValve v x) := by
  have set {u : State} {y : Valve} (hu : Onward r u) : Onward r (u.setValve v y) := hu.silent (State.setValve_touches rfl (.refl _ u))
  unfold State.moveValve
  extract_lets was drive s1 now s2
  have h1 : Onward r s1 := set h
  have h2 : Onward r s2 := ite (h1.silent (State.confirmValve_touches rfl (.refl _ s1))) (set h1)
  exact ite h1 (ite h2 h2.emit)

theorem forceNow (h : Onward r s) : Onward r s.forceNow := by
  refine ite (h.withDrive (.foldl (fun u c hu => ?_) (.refl _ s))) h
  have set {x : FanCh} : Touches quiet s (u.setFan c x) := State.setFan_touches rfl hu
  extract_lets x
  refine .ite hu (.ite set ?_)
  split
  · exact hu
  · extract_lets
    split <;> exact set

/-! ## Leak zones judged again (R309 to R312) -/

theorem hazardDown (h : Onward r s) : Onward r (s.hazardDown n) := by
  unfold State.hazardDown
  split
  · exact h.siteDownSeq.settle
  · exact h.siteDownSeq.settle
  · exact h.siteDownSeq.settle
  · exact h.siteTo
  · exact h.silent (State.setSite_touches rfl (.refl _ s))
  · exact h

theorem react {z k ev : Nat} (h : Onward r s) : Onward r (s.react z k ev) := by
  unfold State.react
  extract_lets _ _ _ _ _ _ s1 s2 s3 s4 s5 s6
  split
  · exact h.silent (State.leakEvent_touches rfl (State.event_touches rfl (State.setLzone_touches rfl (.refl _ s))))
  · have h2 : Touches quiet s s2 := by
      refine .foldl (fun u n hu => ?_) (State.setLzone_touches rfl (.refl _ s))
      split
      · exact hu
      · exact hu
      · exact hu
      · exact State.setCapS_touches rfl hu
    have h4 : Onward r s4 := foldl (fun _ _ h => h.moveValve) (h.silent (State.throttleNote_touches rfl h2))
    have h5 : Onward r s5 := foldl (fun _ _ h => h.hazardDown) h4
    exact h5.forceNow.silent (State.leakEvent_touches rfl (.refl _ s6))

theorem leakJudge {z : Nat} (h : Onward r s) : Onward r (s.leakJudge z) := by
  unfold State.leakJudge
  extract_lets _ _ s1 wet _ _ _ s2
  have h1 : Onward r s1 := h.silent (State.setLzone_touches rfl (.refl _ s))
  have h2 : Onward r s2 := by
    unfold s2
    clear_value wet
    split
    · exact h1.silent (State.leakEvent_touches rfl (.refl _ s1))
    · exact h1
  exact ite (ite h2 h2.react) h1

theorem leakJudgeAll (h : Onward r s) : Onward r s.leakJudgeAll := foldl (fun _ _ h => h.leakJudge) h

end Onward
end Sys2Proof.Machine
end

section
/-!
SUPPORT. The commit of a structure, the copies that a load tries, and what the Maquette block keeps (R57, R66, R73, R74, R84).
-/
namespace Sys2Proof.Machine

/-! ## Completions of the Maquette load queue (R448) -/

/-- A Maquette load answers its request with its DETAIL and no VALUE. -/
theorem State.maqDone_answers (s : State) (q : Req) (st p d : Nat) : s.answers (s.maqDone q st p d) q st (d % 2 ^ 32) 0 := by
  have h := s.completeAs_answers q st p 0 (leBytes 4 d)
  have detail : le (leBytes 4 d) 0 4 = d % 2 ^ 32 := by simpa using le_field [] [] 4 d
  rw [detail] at h
  exact h

theorem State.maqDone_frame (s : State) (q : Req) (st p d : Nat) :
    s.onlyChanges [.mem, .ques, .ebx, .evt, .dram, .out] (s.maqDone q st p d) :=
  (State.maqDone_touches rfl (.refl _ s)).only

theorem State.maqDone_maq (s : State) (q : Req) (st p d : Nat) : (s.maqDone q st p d).maq = s.maq :=
  s.maqDone_frame q st p d .maq rfl

/-- What goes out after an answer leaves it an answer. -/
theorem State.answers_then {s t u : State} {q : Req} {st d v : Nat} (h : s.answers t q st d v) (h' : t.grows u) :
    s.answers u q st d v := by
  obtain ⟨l, e, h⟩ := h
  obtain ⟨m, h'⟩ := h'
  exact ⟨m ++ l, e, by rw [h', h, List.append_assoc]⟩

/-! ## What the checks of a stored Maquette read (R58, R538) -/

/-- Flash and option bytes are the same in two states: all that the checks of a Maquette read besides its bytes. -/
structure State.SameStore (s t : State) : Prop where
  ob : t.ob = s.ob
  flash0 : t.flash0 = s.flash0
  flash1 : t.flash1 = s.flash1

namespace State.SameStore

variable {s t : State} (h : s.SameStore t)
include h

theorem fread : t.fread = s.fread := by
  funext dev off n
  unfold State.fread State.flash
  rw [h.flash0, h.flash1]

theorem keyUsable : t.keyUsable = s.keyUsable := by
  funext cls slot sig
  have hc : t.keyCopy = s.keyCopy := by
    funext dev
    unfold State.keyCopy
    rw [h.fread]
  unfold State.keyUsable State.slotOpen State.provisioned State.keyTables State.keyEnable State.optBytes
  rw [hc, h.ob]

theorem hwOk : t.hwOk = s.hwOk := by
  funext g lo hi
  unfold State.hwOk State.boardRevision State.buildRecord
  rw [h.fread]

theorem mqCheck : t.mqCheck = s.mqCheck := by
  funext b n
  unfold State.mqCheck State.mqHeader
  rw [h.keyUsable, h.hwOk, h.ob]

theorem storedMaq : t.storedMaq = s.storedMaq := by
  funext dev off
  unfold State.storedMaq
  rw [h.fread]

theorem profChecks (p : Nat) : t.profChecks p = s.profChecks p := by
  unfold State.profChecks
  rw [h.storedMaq, h.mqCheck]

theorem validMaq (p : Nat) : t.validMaq p = s.validMaq p := by
  unfold State.validMaq
  rw [h.storedMaq, h.mqCheck]

end State.SameStore

variable (s : State)

theorem State.maqError_frame (e : Nat × Nat) : s.onlyChanges [.maq, .evt] (s.maqError e) :=
  (State.maqError_touches rfl (.refl _ s)).only

theorem State.sameStore_maqError (e : Nat × Nat) : s.SameStore (s.maqError e) :=
  ⟨s.maqError_frame e .ob rfl, s.maqError_frame e .flash0 rfl, s.maqError_frame e .flash1 rfl⟩

theorem State.maqError_maq (e : Nat × Nat) : (s.maqError e).maq = { s.maq with errCode := e.1, errWhere := e.2 } :=
  (State.event_touches (ps := [.evt]) rfl (.refl _ _)).only .maq rfl

/-- A profile has one copy, profile 0 two (R109). -/
theorem profCopies_cases (p : Nat) : (∃ c, profCopies p = [c]) ∨ ∃ c c', profCopies p = [c, c'] := by
  unfold profCopies
  split
  · exact .inr ⟨_, _, rfl⟩
  · refine .inl ?_
    split
    · exact ⟨_, rfl⟩
    · split
      · exact ⟨_, rfl⟩
      · exact ⟨_, rfl⟩

/-- A load gives the profile's first valid copy (R73). -/
theorem State.loadCopies_valid (p : Nat) : (s.loadCopies p).2 = s.validMaq p := by
  unfold State.loadCopies State.validMaq
  obtain ⟨c, hp⟩ | ⟨c, c', hp⟩ := profCopies_cases p
  · rw [hp]
    simp only [List.foldl_cons, List.foldl_nil, List.map_cons, List.map_nil, List.find?_cons, List.find?_nil]
    cases s.mqCheck (s.storedMaq c.1 c.2) none <;> rfl
  · rw [hp]
    simp only [List.foldl_cons, List.foldl_nil, List.map_cons, List.map_nil, List.find?_cons, List.find?_nil]
    cases s.mqCheck (s.storedMaq c.1 c.2) none with
    | none => rfl
    | some e =>
      simp only [(s.sameStore_maqError e).storedMaq, (s.sameStore_maqError e).mqCheck]
      cases s.mqCheck (s.storedMaq c'.1 c'.2) none <;> rfl

/-- Trying copies writes MAQ_LOAD_ERR alone of the Maquette block (R84). -/
theorem State.loadCopies_maq (p : Nat) : (s.loadCopies p).1.maq =
    { s.maq with errCode := (s.loadCopies p).1.maq.errCode, errWhere := (s.loadCopies p).1.maq.errWhere } := by
  unfold State.loadCopies
  refine List.foldlRecOn (motive := fun z : State × Option Bytes => z.1.maq =
    { s.maq with errCode := z.1.maq.errCode, errWhere := z.1.maq.errWhere }) _ _ rfl fun z hz c _ => ?_
  dsimp only
  split
  · exact hz
  · split
    · exact hz
    · rw [State.maqError_maq, hz]

theorem State.loadCopies_frame (p : Nat) : s.onlyChanges [.maq, .evt] (s.loadCopies p).1 :=
  (State.loadCopies_touches rfl (.refl _ s)).only

/-! ## The commit (R57, R66, R69, R74) -/

/-- A blocking set depends on the live structure and the sites' states (R69). -/
theorem State.blocking_congr {s t : State} (hl : t.maq.live = s.maq.live) (hs : t.seq = s.seq) (m : Structure) :
    t.blocking m = s.blocking m := by
  unfold State.blocking State.atPoint State.site
  rw [hl, hs]

/-- From `s` to `t` a structure has become live: of the Maquette block the live copy, its profile and its key's state change, what was
pending is gone, and at most a profile record is held back. -/
structure State.Switched (s t : State) (m : Structure) (p : Nat) : Prop where
  maq : t.maq = { s.maq with live := some m, activeProfile := p, blockers := 0, pend := none, keyRevoked := t.maq.keyRevoked
                             recordDue := t.maq.recordDue }
  out : s.grows t

/-- A commit replaces the live copy, and in the Maquette block nothing else but what it discards (R57). -/
theorem State.commit_switched (m : Structure) (p : Nat) : s.Switched (s.commit m p) m p := by
  unfold State.commit
  extract_lets old first s1 tplChange oldWindows c1 c2 c3 s2 c4 s3 s4 s5 s6 c7 s7 s8
  have h1 : Onward s s1 := Onward.foldl (fun u n hu => hu.silent (State.setChiS_touches rfl
    (.ite (State.setCapS_touches rfl (.refl _ u)) (.refl _ u)))) (.refl s)
  clear_value s1
  have h3 : s3.maq = { s1.maq with live := some m, activeProfile := p, blockers := 0, pend := none, keyRevoked := s3.maq.keyRevoked } := rfl
  have o3 : s3.out = s1.out := rfl
  clear_value s3
  have h4 : Onward s3 s4 := (Onward.refl s3).silent (State.keepWindows_touches rfl (State.reclamp_touches rfl
    (State.calSetAll_touches rfl (.refl _ s3))))
  clear_value s4
  have h5 : Onward s3 s5 := h4.silent (.foldl (fun u n hu => .ite hu (State.setFan_touches rfl hu)) (.refl _ s4))
  clear_value s5
  have h6 : Onward s3 s6 := by
    refine Onward.foldl (fun u n hu => ?_) h5
    extract_lets
    refine .ite hu.toIdentify (.ite hu ?_)
    split
    · exact .ite hu.toIdentify hu
    · exact .ite (hu.silent (State.setSite_touches rfl (.refl _ u))) hu
  clear_value s6
  have h7 : Onward s3 s7 := .ite (h6.silent (State.pointingRole_touches rfl (.updSeq rfl (.refl _ s6)))) h6
  clear_value s7
  have h8 : Onward s3 s8 := .ite h7.startAll h7
  clear_value s8
  have h9 : Onward s3 s8.gaugeCommit.leakJudgeAll := (h8.silent (State.gaugeCommit_touches rfl (.refl _ s8))).leakJudgeAll
  refine ⟨?_, State.grows_trans h1.out (State.grows_trans (State.grows_refl o3) h9.out)⟩
  rw [h9.maq, h3, h1.maq]

/-- A commit by command or by pins is noted: step 5's CARRY is cleared, and the profile recorded unless the pins chose it (R74, R107). -/
def State.switchedBy (s : State) (m : Structure) (p : Nat) (byPins : Bool) : State :=
  let s := (s.commit m p).clearCarry 5
  if byPins then s else s.recordSwitch p m.version

theorem State.recordSwitch_frame (p v : Nat) : s.onlyChanges [.maq, .flash0, .flash1] (s.recordSwitch p v) :=
  (State.recordSwitch_touches rfl (.refl _ s)).only

theorem State.recordSwitch_maq (p v : Nat) :
    (s.recordSwitch p v).maq = { s.maq with recordDue := (s.recordSwitch p v).maq.recordDue } := by
  unfold State.recordSwitch
  split
  · rfl
  · rw [(State.writeProfRecord_touches (ps := [.flash0, .flash1]) rfl (.refl _ _)).only .maq rfl]

theorem State.switchedBy_switched (m : Structure) (p : Nat) (byPins : Bool) : s.Switched (s.switchedBy m p byPins) m p := by
  have h := s.commit_switched m p
  unfold State.switchedBy
  extract_lets t
  have ht : s.Switched t m p := ⟨h.maq, h.out⟩
  clear_value t
  split
  · exact ht
  · refine ⟨?_, State.grows_trans ht.out (State.grows_refl (t.recordSwitch_frame p m.version .out rfl))⟩
    rw [t.recordSwitch_maq, ht.maq]

end Sys2Proof.Machine
end

section
/-!
SUPPORT. The Maquette load commands in their turn, the verifier's end and the commit of a pending switch (R58, R76, R79 to R84).
-/
namespace Sys2Proof.Machine

variable {s : State}

/-! ## A command's turn (R79, R80) -/

section Turn

variable {c : Instr} {q : Req} {e : Bytes} {src : Option Bytes} {op : Nat} {f : State → State}

/-- With the verifier idle a command in form, of a principal with the structure right, is carried out at once. -/
theorem maqCmd_runs (he : exec c s = s.maqCmd q e src op f) (hc : s.pwr.core = true) (ho : s.maq.op = none)
    (hw : s.maq.waiting = []) (hm : s.may q.principal .struct = true) (hf : maqField e op = none)
    (hp : op ≠ 5 ∨ s.protBusy = false) : exec c s = .next (f s) := by
  have hb : (s.maq.op.isSome || !s.maq.waiting.isEmpty || (op == 5 && s.protBusy)) = false := by
    rw [ho, hw]
    obtain h | h := hp
    · simp [h]
    · simp [h]
  rw [he, State.maqCmd, coreDo_on hc, if_neg (by simp [hb]), State.maqTurn, if_neg (by simp [hm]), hf]

/-- At any other time it waits. -/
theorem maqCmd_waits (he : exec c s = s.maqCmd q e src op f) (hc : s.pwr.core = true)
    (hb : (s.maq.op.isSome = true ∨ s.maq.waiting ≠ []) ∨ op = 5 ∧ s.protBusy = true) :
    exec c s = .next { s with maq := { s.maq with waiting := s.maq.waiting ++ [(q, e, src)] } } := by
  rw [he, State.maqCmd, coreDo_on hc, if_pos]
  obtain (h | h) | ⟨h, h'⟩ := hb
  · simp [h]
  · simp [h]
  · simp [h, h']

end Turn

/-! ## STORE, SWITCH and CANCEL begin (R80 to R83) -/

section Store

variable {q : Req} {e : Bytes} {src : Option Bytes} (hb : s.brace = false) (hh : s.snap.holdup = false)
  (hp : ∀ x, s.maq.pend = some x → x.profile ≠ u8 e 0x14)
include hb hh hp

theorem State.maqStore_reads {b : Bytes} (hs : s.source (u64 e 8) (u32 e 0x10) src = some b) :
    s.maqStore q e src = { s with maq := { s.maq with op := some { op := 1, req := q, profile := u8 e 0x14, data := b } } } := by
  have other : (s.maq.pend.any fun x => x.profile == u8 e 0x14) = false := by simpa [Option.any_eq_false] using hp
  simp [State.maqStore, hb, hh, other, hs]

theorem State.maqStore_unread (hs : s.source (u64 e 8) (u32 e 0x10) src = none) :
    s.maqStore q e src = s.maqDone q (s.srcCode (u64 e 8)) (u8 e 0x14) 0 := by
  have other : (s.maq.pend.any fun x => x.profile == u8 e 0x14) = false := by simpa [Option.any_eq_false] using hp
  simp [State.maqStore, hb, hh, other, hs]

end Store

theorem State.maqStore_braced (q : Req) (e : Bytes) (src : Option Bytes) (hb : s.brace = true) :
    s.maqStore q e src = s.maqDone q 0x31 (u8 e 0x14) 0 := if_pos hb

/-- The pending switch is told that it is superseded or cancelled, where its request still stands (R82). -/
def State.pendTold (s : State) (code : Nat) : State := match s.maq.pend with
  | some x => if x.byPins || x.queueLost then s else s.maqDone x.req code x.profile 0
  | none => s

theorem Onward.pendTold (s : State) (code : Nat) : Onward s (s.pendTold code) := by
  unfold State.pendTold
  split
  · exact .ite (.refl s) (Onward.refl s).completeAs
  · exact .refl s

theorem State.pendTold_answers {code : Nat} {x : PendSwitch} (hx : s.maq.pend = some x) (hb : x.byPins = false)
    (hl : x.queueLost = false) : s.answers (s.pendTold code) x.req code 0 0 := by
  simp only [State.pendTold, hx, hb, hl]
  exact s.maqDone_answers x.req code x.profile 0

theorem State.maqSwitch_begins {q : Req} {e : Bytes} (hp : (u8 s.optBytes 0xC).testBit 0 = false)
    (hm : u8 e 0x15 ≠ 2 ∨ s.brace = false ∧ s.snap.holdup = false) :
    s.maqSwitch q e = { s.pendTold 0x33 with maq := { (s.pendTold 0x33).maq with
      pend := none, blockers := 0, op := some { op := 2, req := q, profile := u8 e 0x14, mode := u8 e 0x15 } } } := by
  have h1 : ¬ (u8 e 0x15 = 2 ∧ s.brace = true) := by
    rintro ⟨h, h'⟩
    simp [h, h'] at hm
  have h2 : ¬ (u8 e 0x15 = 2 ∧ s.snap.holdup = true) := by
    rintro ⟨h, h'⟩
    simp [h, h'] at hm
  rw [State.maqSwitch, if_neg (by simp [hp]), if_neg h1, if_neg h2]
  rfl

theorem State.maqSwitch_braced (q : Req) {e : Bytes} (hp : (u8 s.optBytes 0xC).testBit 0 = false) (hb : s.brace = true)
    (hm : u8 e 0x15 = 2) : s.maqSwitch q e = s.maqDone q 0x31 (u8 e 0x14) 0 := by
  rw [State.maqSwitch, if_neg (by simp [hp]), if_pos ⟨hm, hb⟩]

theorem State.maqCancel_effect (q : Req) : (s.maqCancel q).maq = { s.maq with pend := none, blockers := 0 } ∧
    s.answers (s.maqCancel q) q 0 0 0 ∧
    ∀ x, s.maq.pend = some x → x.byPins = false → x.queueLost = false → s.answers (s.maqCancel q) x.req 0x34 0 0 := by
  have told := Onward.pendTold s 0x34
  let t : State := { s.pendTold 0x34 with maq := { (s.pendTold 0x34).maq with pend := none, blockers := 0 } }
  have ht : s.maqCancel q = t.maqDone q 0 0 0 := rfl
  have hd := t.maqDone_answers q 0 0 0
  rw [ht]
  refine ⟨?_, State.answers_of_grows told.out hd, fun x hx hb hl => ?_⟩
  · rw [t.maqDone_maq, ← told.maq]
  · exact State.answers_then (State.pendTold_answers hx hb hl) (t := s.pendTold 0x34) hd.grows

/-! ## SET_MIN_VERSION (R58, R127) -/

/-- With both devices answering, the revocation and minimum-version record is written (R127). -/
theorem State.writeRevmin_written (revoked fw st site : Nat) (hd : s.log.devFailed = 0) :
    (s.writeRevmin revoked fw st site).2 = true := by
  unfold State.writeRevmin State.protWrite
  simp [hd]

theorem State.writeRevmin_frame (s : State) (revoked fw st site : Nat) :
    s.onlyChanges [.flash0, .flash1] (s.writeRevmin revoked fw st site).1 :=
  (State.writeRevmin_touches rfl (.refl _ s)).only

section SetMin

variable {q : Req} {e : Bytes}

theorem State.maqSetMin_reached (h : u32 e 0x18 ≤ s.ob.minStruct) : s.maqSetMin q e = s.maqDone q 0 0 0 := by
  rw [State.maqSetMin, if_pos h]

theorem State.maqSetMin_passes {m : Structure} (h : s.ob.minStruct < u32 e 0x18) (hm : s.maq.live = some m)
    (hv : m.version < u32 e 0x18) : s.maqSetMin q e = s.maqDone q 0x23 0 0 := by
  rw [State.maqSetMin, if_neg (by omega), if_pos (.inr (by simp [hm, hv]))]

theorem State.maqSetMin_advances (hb : s.brace = false) (hh : s.snap.holdup = false) (h : s.ob.minStruct < u32 e 0x18)
    (hm : ∀ m, s.maq.live = some m → u32 e 0x18 ≤ m.version)
    (hv : (({ s with ob := { s.ob with minStruct := u32 e 0x18 } } : State).validMaq 0).isSome = true) (hd : s.log.devFailed = 0) :
    s.answers (s.maqSetMin q e) q 0 0 0 ∧ (s.maqSetMin q e).ob = { s.ob with minStruct := u32 e 0x18 } := by
  have old : ¬ ((({ s with ob := { s.ob with minStruct := u32 e 0x18 } } : State).validMaq 0).isNone = true ∨
      s.maq.live.any (fun m => decide (m.version < u32 e 0x18)) = true) := by
    rintro (hn | ha)
    · simp [Option.isNone_iff_eq_none.1 hn] at hv
    · obtain ⟨m, h1, h2⟩ : ∃ m, s.maq.live = some m ∧ m.version < u32 e 0x18 := by simpa [Option.any_eq_true] using ha
      have := hm m h1
      omega
  have frame := s.writeRevmin_frame s.ob.revoked.toNat s.ob.minFw (u32 e 0x18) s.ob.minSite
  have done : s.maqSetMin q e = State.maqDone { (s.writeRevmin s.ob.revoked.toNat s.ob.minFw (u32 e 0x18) s.ob.minSite).1 with
      ob := { (s.writeRevmin s.ob.revoked.toNat s.ob.minFw (u32 e 0x18) s.ob.minSite).1.ob with minStruct := u32 e 0x18 } } q 0 0 0 := by
    rw [State.maqSetMin, if_neg (by omega), if_neg old, if_neg (by simp [hb]), if_neg (by simp [hh])]
    exact if_pos (State.writeRevmin_written _ _ _ _ hd)
  rw [done]
  refine ⟨State.answers_of_grows (State.grows_refl (frame .out rfl)) (State.maqDone_answers _ q 0 0 0), ?_⟩
  rw [State.maqDone_frame _ q 0 0 0 .ob rfl, frame .ob rfl]

end SetMin

/-! ## The verifier's end (R80 to R84) -/

/-- The verifier with its operation taken off. -/
def State.idled (s : State) : State := { s with maq := { s.maq with op := none } }

theorem State.idled_sameStore (s : State) : s.SameStore s.idled := ⟨rfl, rfl, rfl⟩

theorem State.idled_blocking (s : State) (m : Structure) : s.idled.blocking m = s.blocking m := State.blocking_congr rfl rfl m

theorem State.idled_loadCopies (s : State) (p : Nat) : (s.idled.loadCopies p).2 = (s.loadCopies p).2 := by
  rw [State.loadCopies_valid, State.loadCopies_valid, s.idled_sameStore.validMaq]

/-- The end of an operation of the verifier, before what waits for it. -/
def State.opEnd (s : State) (o : MaqOp) (ok : Bool) : State :=
  if o.op = 1 then s.idled.storeEnd o ok else if o.op = 2 then s.idled.switchEnd o ok else s.idled.verifyEnd o

theorem State.opEnd_store {o : MaqOp} (ok : Bool) (h : o.op = 1) : s.opEnd o ok = s.idled.storeEnd o ok := if_pos h

theorem State.opEnd_switch {o : MaqOp} (ok : Bool) (h : o.op = 2) : s.opEnd o ok = s.idled.switchEnd o ok := by
  rw [State.opEnd, if_neg (by simp [h]), if_pos h]

theorem State.opEnd_verify {o : MaqOp} (ok : Bool) (h1 : o.op ≠ 1) (h2 : o.op ≠ 2) : s.opEnd o ok = s.idled.verifyEnd o := by
  rw [State.opEnd, if_neg h1, if_neg h2]

/-- A copy of a STORE is begun: erased, and next to be written (R71, R84). -/
theorem State.storeCopyBegin_maq (s : State) (o : MaqOp) (k : Nat) :
    (s.storeCopyBegin o k).maq = { s.maq with op := some { o with copy := some k } } := by
  unfold State.storeCopyBegin
  extract_lets t
  have ht : Touches [.flash0, .flash1] s t := .elim (.refl _ s) fun _ => State.ferase_touches rfl (.refl _ s)
  have hm : t.maq = s.maq := ht.only .maq rfl
  show ({ t.maq with op := some { o with copy := some k } } : Maq) = _
  rw [hm]

/-- A copy of a STORE written: flash alone changes. -/
theorem State.copyWritten_frame (s : State) (o : MaqOp) (k : Nat) :
    s.onlyChanges [.flash0, .flash1] (((profCopies o.profile)[k]?).elim s fun c => s.fwrite c.1 c.2 o.data) :=
  Touches.only (.elim (.refl _ s) fun _ => State.fwrite_touches rfl (.refl _ s))

theorem State.switchDone_maq (s : State) (o : MaqOp) (st d : Nat) : (s.switchDone o st d).maq = s.maq :=
  (State.switchDone_touches (ps := Part.others.erase .maq) rfl (.refl _ s)).only .maq rfl

/-- From `s` to `t` what waits for the verifier stays as it is. -/
structure State.SameWaits (s t : State) : Prop where
  waiting : t.maq.waiting = s.maq.waiting
  pinsNext : t.maq.pinsNext = s.maq.pinsNext

namespace State.SameWaits

variable {r s t : State} {o : MaqOp}

theorem of_maq (h : r.SameWaits s) (ht : t.maq = s.maq) : r.SameWaits t := ⟨by rw [ht, h.waiting], by rw [ht, h.pinsNext]⟩

theorem of_switched {m : Structure} {p : Nat} (h : r.SameWaits s) (ht : s.Switched t m p) : r.SameWaits t :=
  ⟨by rw [ht.maq, ← h.waiting], by rw [ht.maq, ← h.pinsNext]⟩

theorem maqDone {q : Req} {st p d : Nat} (h : r.SameWaits s) : r.SameWaits (s.maqDone q st p d) := h.of_maq (s.maqDone_maq ..)

theorem maqError {x : Nat × Nat} (h : r.SameWaits s) : r.SameWaits (s.maqError x) :=
  ⟨by rw [s.maqError_maq, ← h.waiting], by rw [s.maqError_maq, ← h.pinsNext]⟩

theorem withOp {x : Option MaqOp} (h : r.SameWaits s) : r.SameWaits { s with maq := { s.maq with op := x } } := ⟨h.waiting, h.pinsNext⟩

theorem storeCopyBegin {k : Nat} (h : r.SameWaits s) : r.SameWaits (s.storeCopyBegin o k) :=
  ⟨by rw [s.storeCopyBegin_maq, ← h.waiting], by rw [s.storeCopyBegin_maq, ← h.pinsNext]⟩

theorem storeEnd {ok : Bool} (h : r.SameWaits s) : r.SameWaits (s.storeEnd o ok) := by
  unfold State.storeEnd
  split
  · unfold State.storeVerified
    split
    · exact h.maqError.maqDone
    · split
      · exact h.withOp
      · exact h.storeCopyBegin
  · next k _ =>
    unfold State.storeWritten
    extract_lets _ s1 _
    have h1 : r.SameWaits s1 := h.of_maq (s.copyWritten_frame o k .maq rfl)
    clear_value s1
    split
    · exact h.withOp
    · split
      · exact h.maqDone
      · split
        · split
          · exact h1.withOp
          · exact h1.storeCopyBegin
        · split
          · exact maqDone (h1.of_maq rfl)
          · exact h1.maqDone

theorem switchDone {st d : Nat} (h : r.SameWaits s) : r.SameWaits (s.switchDone o st d) := h.of_maq (s.switchDone_maq ..)

theorem switchEnd {ok : Bool} (h : r.SameWaits s) : r.SameWaits (s.switchEnd o ok) := by
  unfold State.switchEnd
  extract_lets l x s1
  have h1 : r.SameWaits s1 := ⟨by rw [s.loadCopies_maq, ← h.waiting], by rw [s.loadCopies_maq, ← h.pinsNext]⟩
  clear_value l s1
  split
  · exact h1.switchDone
  · next b _ =>
    extract_lets m set c1 c2 s3 _ s4 _ s5 _
    have h4 : r.SameWaits s4 := ⟨h1.waiting, h1.pinsNext⟩
    have h5 : r.SameWaits s5 := h4.switchDone
    split
    · split
      · exact h1.withOp
      · split
        · exact switchDone (h1.of_maq ((State.writeProfRecord_touches (ps := [.flash0, .flash1]) rfl (.refl _ _)).only .maq rfl))
        · exact h1.switchDone
    · split
      · exact (h1.of_switched (s1.switchedBy_switched m o.profile o.byPins)).switchDone
      · split
        · exact switchDone ⟨h1.waiting, h1.pinsNext⟩
        · split
          · exact h5
          · exact h5.of_maq rfl

theorem verifyEnd (h : r.SameWaits s) : r.SameWaits (s.verifyEnd o) := by
  unfold State.verifyEnd
  extract_lets _ _ _ s1
  have h1 : r.SameWaits s1 := ⟨h.waiting, h.pinsNext⟩
  split
  · exact h1.maqDone
  · split
    · exact h1.maqDone
    · exact h1

theorem opEnd (s : State) (o : MaqOp) (ok : Bool) : s.SameWaits (s.opEnd o ok) := by
  have h : s.SameWaits s.idled := ⟨rfl, rfl⟩
  unfold State.opEnd
  split
  · exact h.storeEnd
  · split
    · exact h.switchEnd
    · exact h.verifyEnd

end State.SameWaits

/-- What waits goes on once the verifier is idle: a pin change first, or else the commands (R76, R80). -/
def State.waitersGo (s : State) : State :=
  if s.maq.op.isSome then s
  else match s.maq.pinsNext with
    | some p => s.pinsBegin p
    | none => s.maqServeAll s.maq.waiting

theorem State.waitersGo_none (hp : s.maq.pinsNext = none) (hw : s.maq.waiting = []) : s.waitersGo = s := by
  unfold State.waitersGo
  rw [hp, hw]
  split
  · rfl
  · rw [State.maqServeAll, ← hw]

theorem maqVerifyComplete_eq {o : MaqOp} (ok : Bool) (hs : s.pwr.standby = true) (ho : s.maq.op = some o) :
    exec (.maqVerifyComplete ok) s = .next (s.opEnd o ok).waitersGo := by
  show execMaqVerifyComplete ok s = _
  rw [execMaqVerifyComplete, standbyDo_on hs]
  split
  · next h =>
    rw [ho] at h
    cases h
  · next o' h =>
    obtain rfl : o = o' := Option.some.inj (ho.symm.trans h)
    rfl

/-- With nothing waiting, the verifier's end is that of its operation. -/
theorem maqVerifyComplete_ends {o : MaqOp} (ok : Bool) (hs : s.pwr.standby = true) (ho : s.maq.op = some o)
    (hp : s.maq.pinsNext = none) (hw : s.maq.waiting = []) : exec (.maqVerifyComplete ok) s = .next (s.opEnd o ok) := by
  have h := State.SameWaits.opEnd s o ok
  rw [maqVerifyComplete_eq ok hs ho, State.waitersGo_none (h.pinsNext.trans hp) (h.waiting.trans hw)]

/-! ### STORE (R71, R80, R84) -/

theorem State.ferase_isErased (s : State) (dev off : Nat) {n m : Nat} (h : m ≤ n) : (s.ferase dev off n).isErased dev off m = true := by
  have hf : (s.ferase dev off n).flash dev = Memory.clear (s.flash dev) off n := by
    unfold State.ferase State.setFlash
    by_cases hd : dev = 0 <;> simp [State.flash, hd]
  rw [State.isErased, hf, Memory.clear, List.all_eq_true]
  intro c hc
  have := (List.mem_filter.1 hc).2
  simp only [Bool.or_eq_true, decide_eq_true_eq] at this ⊢
  omega

theorem State.storeCopyBegin_erased (s : State) (o : MaqOp) {k : Nat} {c : Nat × Nat} (hc : (profCopies o.profile)[k]? = some c) :
    (s.storeCopyBegin o k).isErased c.1 c.2 64 = true := by
  unfold State.storeCopyBegin
  rw [hc]
  exact s.ferase_isErased c.1 c.2 (by decide)

theorem State.storeCopyBegin_frame (s : State) (o : MaqOp) (k : Nat) : s.onlyChanges [.maq, .flash0, .flash1] (s.storeCopyBegin o k) :=
  (State.storeCopyBegin_touches rfl (.refl _ s)).only

section StoreEnd

variable {o : MaqOp}

/-- A Maquette that passes every check begins its first copy. -/
theorem State.storeVerified_passes (hb : s.brace = false) (h : s.mqCheck o.data (some o.data.length) = none) :
    s.storeVerified o = s.storeCopyBegin o 0 := by
  rw [State.storeVerified, h]
  exact if_neg (Bool.eq_false_iff.1 hb)

/-- One that fails a check completes with its status, and MAQ_LOAD_ERR names the check. -/
theorem State.storeVerified_fails {x : Nat × Nat} (h : s.mqCheck o.data (some o.data.length) = some x) (hx : x.1 ≠ 0x38) :
    s.answers (s.storeVerified o) o.req x.1 (x.2 % 2 ^ 32) 0 ∧
    (s.storeVerified o).maq = { s.maq with errCode := x.1, errWhere := x.2 } ∧ (s.storeVerified o).flash0 = s.flash0 ∧
    (s.storeVerified o).flash1 = s.flash1 := by
  have he : s.storeVerified o = (s.maqError x).maqDone o.req x.1 o.profile x.2 := by
    rw [State.storeVerified, h]
    dsimp only
    rw [if_neg hx]
  have error := s.maqError_frame x
  have done := (s.maqError x).maqDone_frame o.req x.1 o.profile x.2
  rw [he]
  exact ⟨State.answers_of_grows (State.grows_refl (error .out rfl)) (State.maqDone_answers _ o.req x.1 o.profile x.2),
    (done .maq rfl).trans (s.maqError_maq x), (done .flash0 rfl).trans (error .flash0 rfl),
    (done .flash1 rfl).trans (error .flash1 rfl)⟩

/-- A copy that does not read back ends the STORE. -/
theorem State.storeWritten_fails (k : Nat) (hb : s.brace = false) :
    s.storeWritten o k false = s.maqDone o.req 0x32 o.profile 0 := by
  rw [State.storeWritten, if_neg (Bool.eq_false_iff.1 hb)]
  rfl

/-- After the last copy the STORE has ended, the Maquette block as it was. -/
theorem State.storeWritten_last {k : Nat} (hb : s.brace = false) (hk : (profCopies o.profile).length ≤ k + 1) :
    s.answers (s.storeWritten o k true) o.req 0 0 0 ∧ (s.storeWritten o k true).maq = s.maq := by
  have frame := s.copyWritten_frame o k
  rw [State.storeWritten, if_neg (Bool.eq_false_iff.1 hb), if_neg (by simp)]
  extract_lets w
  have hw : Touches [.led] w (if w.maq.failedProfile = some o.profile then w.clearCarry 5 else w) :=
    .ite (State.clearCarry_touches rfl (.refl _ w)) (.refl _ w)
  rw [if_neg (by omega), State.maqDone_maq, hw.only .maq rfl]
  exact ⟨State.answers_of_grows (State.grows_refl ((hw.only .out rfl).trans (frame .out rfl)))
    (State.maqDone_answers _ o.req 0 o.profile 0), frame .maq rfl⟩

/-- After any other copy the next begins, unless the module ejects (R487). -/
theorem State.storeWritten_next {k : Nat} (hb : s.brace = false) (hk : k + 1 < (profCopies o.profile).length)
    (hj : s.pins.eject = false) :
    (s.storeWritten o k true).maq = { s.maq with op := some { o with copy := some (k + 1) } } ∧
    (s.storeWritten o k true).out = s.out := by
  have frame := s.copyWritten_frame o k
  rw [State.storeWritten, if_neg (Bool.eq_false_iff.1 hb), if_neg (by simp)]
  extract_lets w
  have hp : w.pins = s.pins := frame .pins rfl
  rw [if_pos hk, hp, if_neg (Bool.eq_false_iff.1 hj), w.storeCopyBegin_maq, frame .maq rfl]
  exact ⟨rfl, (w.storeCopyBegin_frame o (k + 1) .out rfl).trans (frame .out rfl)⟩

end StoreEnd

/-! ### SWITCH and VERIFY (R80 to R84) -/

section SwitchEnd

variable {o : MaqOp} {ok : Bool} {b : Bytes}

/-- A switch of a command whose request still stands answers it. -/
theorem State.switchDone_request (st d : Nat) (hp : o.byPins = false) (hq : o.queueLost = false) :
    s.switchDone o st d = s.maqDone o.req st o.profile d := if_neg (by simp [hp, hq])

/-- An IMMEDIATE or STAGED switch that nothing blocks commits its target. -/
theorem State.switchEnd_commits (hp : o.byPins = false) (hm : o.mode ≠ 2) (hv : (s.loadCopies o.profile).2 = some b)
    (hs : s.blocking (mqStructure b) = 0) : s.switchEnd o ok =
      ((s.loadCopies o.profile).1.switchedBy (mqStructure b) o.profile false).switchDone o 0 0 := by
  have live : (s.loadCopies o.profile).1.maq.live = s.maq.live := by rw [s.loadCopies_maq]
  have blocks := State.blocking_congr live (s.loadCopies_frame o.profile .seq rfl) (mqStructure b)
  rw [State.switchEnd]
  dsimp only
  rw [hv]
  dsimp only
  rw [if_neg hm, if_pos (blocks.trans hs), if_neg (Bool.eq_false_iff.1 hp)]
  rfl

theorem State.switchEnd_blocked (hm : o.mode = 0) (hv : (s.loadCopies o.profile).2 = some b)
    (hs : s.blocking (mqStructure b) ≠ 0) : s.switchEnd o ok =
      ({ (s.loadCopies o.profile).1 with maq := { (s.loadCopies o.profile).1.maq with
        blockers := s.blocking (mqStructure b) } } : State).switchDone o 0x30 (s.blocking (mqStructure b)) := by
  have live : (s.loadCopies o.profile).1.maq.live = s.maq.live := by rw [s.loadCopies_maq]
  have blocks := State.blocking_congr live (s.loadCopies_frame o.profile .seq rfl) (mqStructure b)
  rw [State.switchEnd]
  dsimp only
  rw [hv]
  dsimp only
  rw [blocks, if_neg (by simp [hm]), if_neg hs, if_pos (.inl hm)]

/-- IMMEDIATE and STAGED leave the verifier idle, whatever they find. -/
theorem State.switchEnd_idle (hi : s.maq.op = none) (hm : o.mode ≠ 2) : (s.switchEnd o ok).maq.op = none := by
  unfold State.switchEnd
  extract_lets l x s1
  have h1 : s1.maq.op = none := by
    rw [s.loadCopies_maq]
    exact hi
  clear_value l s1
  split
  · rw [s1.switchDone_maq, h1]
  · extract_lets m set c1 c2 s3 _ s4 _ s5 _
    have h5 : s5.maq.op = none := (congrArg Maq.op (s4.switchDone_maq o 1 set)).trans h1
    have hc : (s1.switchedBy m o.profile o.byPins).maq.op = none := by
      rw [(s1.switchedBy_switched m o.profile o.byPins).maq]
      exact h1
    rw [if_neg hm]
    split
    · exact (congrArg Maq.op (State.switchDone_maq ..)).trans hc
    · split
      · exact (congrArg Maq.op (s3.switchDone_maq o 0x30 set)).trans h1
      · split
        · exact h5
        · exact h5

end SwitchEnd

/-- VERIFY writes MAQ_PROF_STATUS alone of the Maquette block, and a valid copy answers OK. -/
theorem State.verifyEnd_effect (s : State) (o : MaqOp) :
    (s.verifyEnd o).maq = { s.maq with profStatus := (s.verifyEnd o).maq.profStatus } ∧
    ((s.profChecks o.profile).any Option.isNone = true → s.answers (s.verifyEnd o) o.req 0 0 0) := by
  unfold State.verifyEnd
  extract_lets l _ _ u
  have hu (st d : Nat) : (u.maqDone o.req st o.profile d).maq = u.maq := u.maqDone_maq ..
  split
  · exact ⟨by rw [hu], fun _ => u.maqDone_answers o.req 0 o.profile 0⟩
  · next h =>
    refine ⟨?_, fun h' => absurd h' h⟩
    split
    · rw [hu]
    · rfl

/-! ### What every end keeps -/

theorem State.opEnd_ob (s : State) (o : MaqOp) (ok : Bool) : (s.opEnd o ok).ob = s.ob := by
  unfold State.opEnd
  split
  · exact (State.storeEnd_touches (ps := Part.others.erase .ob) rfl (.refl _ _)).only .ob rfl
  · split
    · exact (State.switchEnd_touches (ps := Part.others.erase .ob) rfl (.refl _ _)).only .ob rfl
    · exact (State.verifyEnd_touches (ps := Part.others.erase .ob) rfl (.refl _ _)).only .ob rfl

/-- Only a commit powers anything. -/
theorem State.opEnd_pwr (s : State) {o : MaqOp} (ok : Bool) (h : o.op ≠ 2) : (s.opEnd o ok).pwr = s.pwr := by
  unfold State.opEnd
  split
  · exact (State.storeEnd_touches (ps := Part.others.erase .pwr) rfl (.refl _ _)).only .pwr rfl
  · exact (State.verifyEnd_touches (ps := Part.others.erase .pwr) rfl (.refl _ _)).only .pwr rfl

/-! ## Effects of the verifier's end, operation by operation -/

section Ends

variable {o : MaqOp} {ok : Bool}

theorem State.opEnd_storeVerified (ho : o.op = 1) (hc : o.copy = none) (hb : s.brace = false) :
    (s.mqCheck o.data (some o.data.length) = none →
      (s.opEnd o ok).maq = { s.maq with op := some { o with copy := some 0 } } ∧ (s.opEnd o ok).out = s.out ∧
      ∀ c, (profCopies o.profile)[0]? = some c → (s.opEnd o ok).isErased c.1 c.2 64 = true) ∧
    (∀ x, s.mqCheck o.data (some o.data.length) = some x → x.1 ≠ 0x38 →
      s.answers (s.opEnd o ok) o.req x.1 (x.2 % 2 ^ 32) 0 ∧ (s.opEnd o ok).maq.op = none ∧ (s.opEnd o ok).flash0 = s.flash0 ∧
      (s.opEnd o ok).flash1 = s.flash1 ∧ (s.opEnd o ok).maq.errCode = x.1 ∧ (s.opEnd o ok).maq.errWhere = x.2) := by
  rw [State.opEnd_store ok ho, State.storeEnd, hc, ← s.idled_sameStore.mqCheck]
  refine ⟨fun h => ?_, fun x h hx => ?_⟩
  · dsimp only
    rw [State.storeVerified_passes (s := s.idled) hb h]
    exact ⟨s.idled.storeCopyBegin_maq o 0, s.idled.storeCopyBegin_frame o 0 .out rfl, fun c => s.idled.storeCopyBegin_erased o⟩
  · obtain ⟨answer, maq, flash0, flash1⟩ := State.storeVerified_fails (s := s.idled) h hx
    dsimp only
    rw [maq]
    exact ⟨answer, rfl, flash0, flash1, rfl, rfl⟩

theorem State.opEnd_storeWritten {k : Nat} (ho : o.op = 1) (hc : o.copy = some k) (hb : s.brace = false) :
    (ok = true → (profCopies o.profile).length ≤ k + 1 →
      s.answers (s.opEnd o ok) o.req 0 0 0 ∧ (s.opEnd o ok).maq.live = s.maq.live ∧ (s.opEnd o ok).maq.op = none) ∧
    (ok = true → k + 1 < (profCopies o.profile).length → s.pins.eject = false →
      (s.opEnd o ok).maq = { s.maq with op := some { o with copy := some (k + 1) } } ∧ (s.opEnd o ok).out = s.out) ∧
    (ok = false → s.answers (s.opEnd o ok) o.req 0x32 0 0 ∧ (s.opEnd o ok).maq.op = none) := by
  rw [State.opEnd_store ok ho, State.storeEnd, hc]
  refine ⟨?_, ?_, ?_⟩
  · rintro rfl hk
    obtain ⟨answer, maq⟩ := State.storeWritten_last (s := s.idled) hb hk
    dsimp only
    rw [maq]
    exact ⟨answer, rfl, rfl⟩
  · rintro rfl hk hj
    exact State.storeWritten_next (s := s.idled) hb hk hj
  · rintro rfl
    dsimp only
    rw [State.storeWritten_fails (s := s.idled) k hb, s.idled.maqDone_maq]
    exact ⟨s.idled.maqDone_answers o.req 0x32 o.profile 0, rfl⟩

section Switch

variable {b : Bytes} (ho : o.op = 2) (hp : o.byPins = false) (hq : o.queueLost = false) (hv : (s.loadCopies o.profile).2 = some b)
include ho hp hq hv

/-- A switch whose valid target nothing blocks commits it, under Brace too (R81, R83). -/
theorem State.opEnd_switchCommits (hm : o.mode ≠ 2) (hs : s.blocking (mqStructure b) = 0) :
    s.answers (s.opEnd o ok) o.req 0 0 0 ∧ (s.opEnd o ok).maq.live = some (mqStructure b) ∧
    (s.opEnd o ok).maq.activeProfile = o.profile := by
  rw [← s.idled_loadCopies] at hv
  rw [← s.idled_blocking] at hs
  rw [State.opEnd_switch ok ho, State.switchEnd_commits hp hm hv hs, State.switchDone_request 0 0 hp hq, State.maqDone_maq]
  have h := (s.idled.loadCopies o.profile).1.switchedBy_switched (mqStructure b) o.profile false
  rw [h.maq]
  exact ⟨State.answers_of_grows (State.grows_trans (State.grows_refl (s.idled.loadCopies_frame o.profile .out rfl)) h.out)
    (State.maqDone_answers _ o.req 0 o.profile 0), rfl, rfl⟩

theorem State.opEnd_switchBlocked (hm : o.mode = 0) (hs : s.blocking (mqStructure b) ≠ 0) :
    s.answers (s.opEnd o ok) o.req 0x30 (s.blocking (mqStructure b) % 2 ^ 32) 0 ∧
    (s.opEnd o ok).maq.live = s.maq.live ∧ (s.opEnd o ok).maq.blockers = s.blocking (mqStructure b) := by
  rw [← s.idled_loadCopies] at hv
  rw [← s.idled_blocking] at hs
  rw [State.opEnd_switch ok ho, State.switchEnd_blocked hm hv hs, State.switchDone_request _ _ hp hq, State.maqDone_maq,
    ← s.idled_blocking]
  refine ⟨State.answers_of_grows (State.grows_refl (s.idled.loadCopies_frame o.profile .out rfl)) (State.maqDone_answers _ o.req _ _ _),
    ?_, rfl⟩
  show (s.idled.loadCopies o.profile).1.maq.live = s.maq.live
  rw [s.idled.loadCopies_maq]
  rfl

end Switch

theorem State.opEnd_verified (ho : o.op = 4) : (s.opEnd o ok).maq.op = none ∧ (s.opEnd o ok).maq.live = s.maq.live ∧
    (s.opEnd o ok).maq.pend = s.maq.pend ∧ (s.opEnd o ok).flash0 = s.flash0 ∧ (s.opEnd o ok).flash1 = s.flash1 ∧
    ((s.profChecks o.profile).any Option.isNone = true → s.answers (s.opEnd o ok) o.req 0 0 0) := by
  obtain ⟨maq, answer⟩ := s.idled.verifyEnd_effect o
  have frame := (State.verifyEnd_touches (o := o) (ps := (Part.others.erase .flash0).erase .flash1) rfl (.refl _ s.idled)).only
  rw [s.idled_sameStore.profChecks] at answer
  rw [State.opEnd_verify ok (by simp [ho]) (by simp [ho]), maq]
  exact ⟨rfl, rfl, rfl, frame .flash0 rfl, frame .flash1 rfl, answer⟩

end Ends

/-! ## A pending switch commits, and pins choose a profile (R76, R82) -/

theorem maqStagedCommit_commits {x : PendSwitch} (hs : s.pwr.standby = true) (hx : s.maq.pend = some x)
    (hb : s.blocking x.target = 0) : Completes .maqStagedCommit s fun t =>
      t.maq.live = some x.target ∧ t.maq.activeProfile = x.profile ∧ t.maq.pend = none ∧ t.maq.blockers = 0 ∧
      (x.byPins = false → x.queueLost = false → s.answers t x.req 0 0 0) := by
  let u := s.switchedBy x.target x.profile x.byPins
  have he : exec .maqStagedCommit s =
      .next (if x.byPins || x.queueLost then u.event 1 82 x.profile 0 else u.maqDone x.req 0 x.profile 0) := by
    show execMaqStagedCommit s = _
    rw [execMaqStagedCommit, standbyDo_on hs]
    split
    · next h =>
      rw [hx] at h
      cases h
    · next y h =>
      obtain rfl : x = y := Option.some.inj (hx.symm.trans h)
      rw [if_neg (by simp [hb])]
      rfl
  have hu := s.switchedBy_switched x.target x.profile x.byPins
  have maq : (if x.byPins || x.queueLost then u.event 1 82 x.profile 0 else u.maqDone x.req 0 x.profile 0).maq = u.maq := by
    split
    · exact (State.event_touches (ps := [.evt]) rfl (.refl _ u)).only .maq rfl
    · exact u.maqDone_maq ..
  refine completes_of he ?_
  rw [maq, hu.maq]
  refine ⟨rfl, rfl, rfl, rfl, fun hp hq => ?_⟩
  rw [if_neg (by simp [hp, hq])]
  exact State.answers_of_grows hu.out (u.maqDone_answers x.req 0 x.profile 0)

/-- A SWITCH of the pins as the verifier takes it: STAGED, with no request to answer (R76). -/
def pinsSwitch (p : Nat) : MaqOp :=
  { op := 2, req := ⟨.armature, armPrincipal, none, 0, false⟩, profile := p, mode := 1, byPins := true }

theorem State.pinsBegin_maq (s : State) (p : Nat) :
    (s.pinsBegin p).maq = { s.maq with pend := none, blockers := 0, op := some (pinsSwitch p), pinsNext := none } := by
  have h : (s.pinsBegin p).maq = { (s.pendTold 0x33).maq with
    pend := none, blockers := 0, op := some (pinsSwitch p), pinsNext := none } := rfl
  rw [h, (Onward.pendTold s 0x33).maq]

theorem profilePinsStable_new {v : Nat} (hs : s.pwr.standby = true) (hv : s.pins.profile.toNat ≠ v % 4) (ho : s.maq.op = none) :
    Completes (.profilePinsStable v) s fun t => t.pins = { s.pins with profile := BitVec.ofNat 2 v } ∧
      ((u8 s.optBytes 0xC).testBit 0 = false → t.maq = s.maq) ∧
      ((u8 s.optBytes 0xC).testBit 0 = true → t.maq.pend = none ∧ t.maq.live = s.maq.live ∧
        ∃ o, t.maq.op = some o ∧ o.op = 2 ∧ o.mode = 1 ∧ o.byPins = true ∧ o.profile = v % 4) := by
  let u : State := { s with pins := { s.pins with profile := BitVec.ofNat 2 (v % 4) } }
  have hu : u.pins = { s.pins with profile := BitVec.ofNat 2 v } := by
    have : BitVec.ofNat 2 (v % 4) = BitVec.ofNat 2 v := BitVec.eq_of_toNat_eq (by simp)
    show ({ s.pins with profile := BitVec.ofNat 2 (v % 4) } : Pins) = _
    rw [this]
  have he : exec (.profilePinsStable v) s = .next (if (u8 s.optBytes 0xC).testBit 0 then u.pinsBegin (v % 4) else u) := by
    show execProfilePinsStable v s = _
    rw [execProfilePinsStable, standbyDo_on hs]
    extract_lets w _ t
    have idle : ¬ t.maq.op.isSome = true := by simp [t, ho]
    rw [if_neg hv, if_neg idle]
    rfl
  refine completes_of he ?_
  cases hb : (u8 s.optBytes 0xC).testBit 0 with
  | false => exact ⟨hu, fun _ => rfl, fun h => absurd h (by decide)⟩
  | true =>
    refine ⟨?_, fun h => absurd h (by decide), fun _ => ?_⟩
    · exact ((State.pinsBegin_touches (p := v % 4) (ps := Part.others.erase .pins) rfl (.refl _ u)).only .pins rfl).trans hu
    · rw [if_pos rfl, u.pinsBegin_maq]
      exact ⟨rfl, rfl, pinsSwitch (v % 4), rfl, rfl, rfl, rfl, rfl⟩

/-! ## The commands at an idle verifier -/

section Idle

variable {q : Req} {e : Bytes} (hc : s.pwr.core = true) (ho : s.maq.op = none) (hw : s.maq.waiting = [])
  (hm : s.may q.principal .struct = true)
include hc ho hw hm

theorem maqStore_completes (src : Option Bytes) (hf : maqField e 1 = none) (hb : s.brace = false) (hh : s.snap.holdup = false)
    (hp : ∀ x, s.maq.pend = some x → x.profile ≠ u8 e 0x14) : Completes (.maqStore q e src) s fun t =>
      (∀ b, s.source (u64 e 8) (u32 e 0x10) src = some b →
        t = { s with maq := { s.maq with op := some { op := 1, req := q, profile := u8 e 0x14, data := b } } }) ∧
      (s.source (u64 e 8) (u32 e 0x10) src = none → s.answers t q (s.srcCode (u64 e 8)) 0 0 ∧ t.maq = s.maq) := by
  refine completes_of (maqCmd_runs rfl hc ho hw hm hf (.inl (by decide))) ?_
  refine ⟨fun b h => State.maqStore_reads hb hh hp h, fun h => ?_⟩
  rw [State.maqStore_unread hb hh hp h]
  exact ⟨s.maqDone_answers q _ _ 0, s.maqDone_maq ..⟩

theorem maqSwitch_completes (hf : maqField e 2 = none) (hp : (u8 s.optBytes 0xC).testBit 0 = false)
    (hb : u8 e 0x15 ≠ 2 ∨ s.brace = false ∧ s.snap.holdup = false) : Completes (.maqSwitch q e) s fun t =>
      t.maq = { s.maq with pend := none, blockers := 0
                           op := some { op := 2, req := q, profile := u8 e 0x14, mode := u8 e 0x15 } } ∧
      ∀ x, s.maq.pend = some x → x.byPins = false → x.queueLost = false → s.answers t x.req 0x33 0 0 := by
  refine completes_of (maqCmd_runs rfl hc ho hw hm hf (.inl (by decide))) ?_
  rw [State.maqSwitch_begins hp hb, (Onward.pendTold s 0x33).maq]
  exact ⟨rfl, fun x hx h1 h2 => State.pendTold_answers hx h1 h2⟩

theorem maqSetMinVersion_completes (hf : maqField e 5 = none) (hb : s.brace = false) (hh : s.snap.holdup = false)
    (hp : s.protBusy = false) : Completes (.maqSetMinVersion q e) s fun t =>
      (u32 e 0x18 ≤ s.ob.minStruct → s.answers t q 0 0 0 ∧ t.ob = s.ob) ∧
      (s.ob.minStruct < u32 e 0x18 → (∃ m, s.maq.live = some m ∧ m.version < u32 e 0x18) → s.answers t q 0x23 0 0 ∧ t.ob = s.ob) ∧
      (s.ob.minStruct < u32 e 0x18 → (∀ m, s.maq.live = some m → u32 e 0x18 ≤ m.version) →
        (({ s with ob := { s.ob with minStruct := u32 e 0x18 } } : State).validMaq 0).isSome = true → s.log.devFailed = 0 →
        s.answers t q 0 0 0 ∧ t.ob = { s.ob with minStruct := u32 e 0x18 }) := by
  refine completes_of (maqCmd_runs rfl hc ho hw hm hf (.inr hp)) ⟨fun h => ?_, fun h hv => ?_, State.maqSetMin_advances hb hh⟩
  · rw [State.maqSetMin_reached h]
    exact ⟨s.maqDone_answers q 0 0 0, s.maqDone_frame q 0 0 0 .ob rfl⟩
  · obtain ⟨m, hl, hv⟩ := hv
    rw [State.maqSetMin_passes h hl hv]
    exact ⟨s.maqDone_answers q 0x23 0 0, s.maqDone_frame q 0x23 0 0 .ob rfl⟩

end Idle

/-- Settles O7: the commands by their turn at the verifier, its end by the operation it carries out, and a commit by what it leaves of
the Maquette block and what goes out. -/
theorem maquetteCommandsTakeEffect : Obligations.MaquetteCommandsTakeEffect := by
  refine ⟨fun s r e hc ho hw hm => ⟨?_, ?_, ?_, ?_, ?_⟩, fun s r e hc hb => ?_, fun s r e hc hp => ?_, fun s hs => ⟨?_, ?_, ?_⟩⟩
  · exact fun src hf hb hh hp => maqStore_completes hc ho hw hm src hf hb hh hp
  · exact fun hf hp hb hh => maqSwitch_completes hc ho hw hm hf hp (.inr ⟨hb, hh⟩)
  · exact fun hf => completes_of (maqCmd_runs rfl hc ho hw hm hf (.inl (by decide))) (State.maqCancel_effect r)
  · exact fun hf => completes_of (maqCmd_runs rfl hc ho hw hm hf (.inl (by decide))) rfl
  · exact fun hf hb hh hp => maqSetMinVersion_completes hc ho hw hm hf hb hh hp
  · exact ⟨fun src => completes_of (maqCmd_waits rfl hc (.inl hb)) rfl, completes_of (maqCmd_waits rfl hc (.inl hb)) rfl,
      completes_of (maqCmd_waits rfl hc (.inl hb)) rfl, completes_of (maqCmd_waits rfl hc (.inl hb)) rfl,
      completes_of (maqCmd_waits rfl hc (.inl hb)) rfl⟩
  · exact completes_of (maqCmd_waits rfl hc (.inr ⟨rfl, hp⟩)) rfl
  · intro o ok ho hp hw hb
    refine completes_of (maqVerifyComplete_ends ok hs ho hp hw) ⟨s.opEnd_ob o ok, s.opEnd_pwr ok,
      fun h1 hc => State.opEnd_storeVerified h1 hc hb, fun k h1 hc => State.opEnd_storeWritten h1 hc hb, ?_, State.opEnd_verified⟩
    intro h2 hp hq b hv hm
    refine ⟨?_, fun h => State.opEnd_switchCommits h2 hp hq hv hm h, fun h h0 => State.opEnd_switchBlocked h2 hp hq hv h0 h⟩
    rw [State.opEnd_switch ok h2]
    exact State.switchEnd_idle rfl hm
  · exact fun x hx hb => maqStagedCommit_commits hs hx hb
  · exact fun v hv ho => profilePinsStable_new hs hv ho

/-- Settles O48: under Brace STORE and NEXT_RESET are refused before they touch anything; every other SWITCH begins and commits as ever. -/
theorem braceHoldsOffStructureWrites : Obligations.BraceHoldsOffStructureWrites := by
  intro s r e hc hs hm hb
  have refused : s.answers (s.maqDone r 0x31 (u8 e 0x14) 0) r 0x31 0 0 ∧ (s.maqDone r 0x31 (u8 e 0x14) 0).maq = s.maq ∧
      (s.maqDone r 0x31 (u8 e 0x14) 0).flash0 = s.flash0 ∧ (s.maqDone r 0x31 (u8 e 0x14) 0).flash1 = s.flash1 :=
    ⟨s.maqDone_answers r 0x31 _ 0, s.maqDone_maq .., s.maqDone_frame r 0x31 _ 0 .flash0 rfl, s.maqDone_frame r 0x31 _ 0 .flash1 rfl⟩
  refine ⟨fun ho hw => ⟨fun src hf => ?_, fun hf hp h2 => ?_, fun hf hp h2 => ?_⟩, fun o b ho hn hw h2 hp hq hm' hv hz => ?_⟩
  · refine completes_of (maqCmd_runs rfl hc ho hw hm hf (.inl (by decide))) ?_
    rw [State.maqStore_braced r e src hb]
    exact refused
  · refine completes_of (maqCmd_runs rfl hc ho hw hm hf (.inl (by decide))) ?_
    rw [State.maqSwitch_braced r hp hb h2]
    exact refused
  · obtain ⟨t, he, ht, _⟩ := maqSwitch_completes hc ho hw hm hf hp (.inl h2)
    exact completes_of he (by rw [ht])
  · exact completes_of (maqVerifyComplete_ends true hs ho hn hw) (State.opEnd_switchCommits h2 hp hq hv hm' hz)

end Sys2Proof.Machine
end


section
/-!
SUPPORT. Warden resets and the end of a system reset (R95, R96, R154, R164, R168), and the block as reset leaves it.
-/
namespace Sys2Proof.Machine

/-! ## A Warden's own reset (R95, R96) -/

section Warden
variable (s : State) (w code : Nat)

/-- A Warden's cause noted, and its site's part in jobs, launches and fetches ended (R95, R96, R231). -/
def State.wardenNoted : State :=
  let s := { s with rst := { s.rst with
    wardenLast := Tbl.set s.rst.wardenLast w ⟨BitVec.ofNat 8 code, 1, BitVec.ofNat 48 s.plinth⟩
    wardenHeld := setBit s.rst.wardenHeld w true } }
  let s := s.siteLeft w
  s.setCapS w { s.capS w with telemStale := false }

/-- A site's rails as a Warden in reset leaves them: undriven, and judged off (R96). -/
def State.railsUndriven : State :=
  (List.range 32).foldl (fun s k =>
    s.setRail (32 * w + k) { pg := (s.rail (32 * w + k)).pg, lastBack := (s.rail (32 * w + k)).lastBack }) s

/-- A site whose Warden drives nothing keeps what was read of it and what it reported, and the Site Keeper latch its lines (R96, R168). -/
def State.siteUndriven : State :=
  s.setSite w { rom := (s.site w).rom, imageDigest := (s.site w).imageDigest, imageVersion := (s.site w).imageVersion
                st := if s.pins.present.getLsbD w then .unadopted else .absent }

theorem State.wardenReset_eq : s.wardenReset w code = ((s.wardenNoted w code).railsUndriven w).siteUndriven w := rfl

theorem State.wardenNoted_rst : (s.wardenNoted w code).rst = { s.rst with
    wardenLast := Tbl.set s.rst.wardenLast w ⟨BitVec.ofNat 8 code, 1, BitVec.ofNat 48 s.plinth⟩
    wardenHeld := setBit s.rst.wardenHeld w true } := by
  unfold State.wardenNoted
  extract_lets _ u v
  have hv : v.rst = u.rst :=
    (State.siteLeft_touches (ps := [.log, .mem, .cap, .met, .pnt, .chi, .cal, .jrn, .ques, .ebx, .evt, .dram, .out]) rfl
      (.refl _ u)).only .rst rfl
  clear_value v
  exact hv

theorem State.wardenNoted_frame :
    s.onlyChanges [.rst, .log, .mem, .cap, .met, .pnt, .chi, .cal, .jrn, .ques, .ebx, .evt, .dram, .out] (s.wardenNoted w code) :=
  (State.setCapS_touches rfl (State.siteLeft_touches rfl (.updRst rfl (.refl _ s)))).only

theorem State.railsUndriven_frame : s.onlyChanges [.pwr, .seq] (s.railsUndriven w) :=
  (Touches.foldl (fun _ _ h => State.setRail_touches rfl h) (.refl [.pwr, .seq] s)).only

theorem State.railsUndriven_seq : (s.railsUndriven w).seq = { s.seq with rails := (s.railsUndriven w).seq.rails } :=
  (RailsOnly.foldl (fun s k => RailsOnly.setRail s (32 * w + k) _) s).seq

theorem State.railsUndriven_off {k : Nat} (hk : k < 32) :
    ((s.railsUndriven w).rail (32 * w + k)).enable = false ∧ ((s.railsUndriven w).rail (32 * w + k)).st = .off := by
  refine foldl_each (P := fun k (s : State) => (s.rail (32 * w + k)).enable = false ∧ (s.rail (32 * w + k)).st = .off)
    (fun s k => ?_) (fun s j k h => ?_) (List.mem_range.2 hk)
  · rw [State.rail_setRail_same]
    exact ⟨rfl, rfl⟩
  · by_cases he : k = j
    · subst he
      rw [State.rail_setRail_same]
      exact ⟨rfl, rfl⟩
    · rw [State.rail_setRail_other _ _ _ (by omega)]
      exact h

/-- What a Warden's reset leaves, whatever its cause. -/
theorem State.wardenReset_effect :
    (s.wardenReset w code).rst = { s.rst with
      wardenLast := Tbl.set s.rst.wardenLast w ⟨BitVec.ofNat 8 code, 1, BitVec.ofNat 48 s.plinth⟩
      wardenHeld := setBit s.rst.wardenHeld w true } ∧
    ((s.wardenReset w code).site w).st = (if s.pins.present.getLsbD w then .unadopted else .absent) ∧
    ((s.wardenReset w code).site w).driven = false ∧
    (∀ k, k < 32 → ((s.wardenReset w code).rail (32 * w + k)).enable = false ∧
      ((s.wardenReset w code).rail (32 * w + k)).st = .off) ∧
    (s.wardenReset w code).seq.toAdopt = s.seq.toAdopt := by
  have hf := s.wardenNoted_frame w code
  have hr := s.wardenNoted_rst w code
  rw [s.wardenReset_eq]
  generalize s.wardenNoted w code = t at hf hr ⊢
  have gf := t.railsUndriven_frame w
  have gs := t.railsUndriven_seq w
  have go {k : Nat} (hk : k < 32) := t.railsUndriven_off w hk
  generalize t.railsUndriven w = u at gf gs go ⊢
  refine ⟨(gf .rst rfl).trans hr, ?_, ?_, fun k hk => go hk, ?_⟩
  · rw [State.siteUndriven, State.site_setSite_same, gf .pins rfl, hf .pins rfl]
  · rw [State.siteUndriven, State.site_setSite_same]
  · have ht : t.seq = s.seq := hf .seq rfl
    show u.seq.toAdopt = s.seq.toAdopt
    rw [gs, ht]

/-- A Warden no longer held in reset adopts its site again (R96, R168). -/
def State.wardenReleased : State :=
  { s with rst := { s.rst with wardenHeld := setBit s.rst.wardenHeld w false }
           seq := { s.seq with toAdopt := setBit s.seq.toAdopt w true } }

end Warden

/-! ## The end of a system reset (R154, R164) -/

section SysReset
variable {s : State} {n : Nat}

/-- Of the sequencer a site's entry into a state changes that site alone. -/
theorem State.siteTo_seq (s : State) (n : Nat) (st : SiteSt) : (s.siteTo n st).seq = (s.setSite n { s.site n with st := st }).seq := by
  unfold State.siteTo
  extract_lets _ _ s1 s2 _ s3 _ s4 _
  have h2 : Touches [.log, .mem, .cap, .met, .pnt, .chi, .cal, .jrn, .ques, .ebx, .evt, .dram, .out] s1 s2 :=
    State.siteLeft_touches rfl (.refl _ s1)
  have h3 : Touches [.log, .mem, .cap, .met, .pnt, .chi, .cal, .jrn, .ques, .ebx, .evt, .dram, .out] s1 s3 :=
    .ite (State.setCapS_touches rfl h2) (.ite (State.leftRunning_touches rfl (.refl _ s1)) (.refl _ s1))
  have h4 : Touches [.log, .mem, .cap, .met, .pnt, .chi, .cal, .jrn, .ques, .ebx, .evt, .dram, .out] s1 s4 :=
    .ite (State.setCapS_touches rfl h3) h3
  exact (Touches.ite (State.setCapS_touches rfl h4) h4).only .seq rfl

theorem State.siteFault_seq (s : State) (n : Nat) :
    (s.siteFault n).seq = (s.setSite n { s.site n with st := .faulted }).seq :=
  ((State.event_touches (ps := [.log, .evt]) rfl (State.siteEvent_touches rfl (.refl _ _))).only .seq rfl).trans (s.siteTo_seq n .faulted)

theorem State.site_congr {t : State} (h : t.seq = s.seq) (n : Nat) : t.site n = s.site n := by
  rw [State.site, h, State.site]

/-- From `s` to `t` of the sequencer only sites change, and a site's state to FAULTED alone. -/
structure State.SitesFault (s t : State) : Prop where
  seq : t.seq = { s.seq with sites := t.seq.sites }
  site : ∀ n, (t.site n).st = .faulted ∨ (t.site n).st = (s.site n).st

namespace State.SitesFault

theorem refl (s : State) : s.SitesFault s := ⟨rfl, fun _ => .inr rfl⟩

theorem trans {r s t : State} (h : r.SitesFault s) (h' : s.SitesFault t) : r.SitesFault t := by
  refine ⟨by rw [h'.seq, h.seq], fun n => ?_⟩
  rcases h'.site n with he | he
  · exact .inl he
  · exact (h.site n).imp he.trans he.trans

theorem foldl {α : Type} {f : State → α → State} {l : List α} (hf : ∀ s a, State.SitesFault s (f s a)) (s : State) :
    s.SitesFault (l.foldl f s) := by
  induction l generalizing s with
  | nil => exact refl s
  | cons a l ih => exact (hf s a).trans (ih (f s a))

/-- A site that is replaced by one in FAULTED, or in its own state. -/
theorem of_setSite {t : State} {x : Site} (ht : t.seq = (s.setSite n x).seq) (hx : x.st = .faulted ∨ x.st = (s.site n).st) :
    s.SitesFault t := by
  refine ⟨by rw [ht]; rfl, fun m => ?_⟩
  rw [State.site_congr ht]
  by_cases hm : m = n
  · rw [hm, State.site_setSite_same]
    exact hx
  · rw [State.site_setSite_other _ _ _ hm]
    exact .inr rfl

end State.SitesFault

/-- A site leaves the system reset: FAULTED, but from the states that no reset takes (R154, R164). -/
def State.outOfSysReset (s : State) (n : Nat) : State :=
  let s := s.setSite n { s.site n with inSysReset := false, reaction := false }
  if (s.site n).st.reset then s.siteFault n else s

theorem State.sysResetEnd_eq (s : State) : s.sysResetEnd = (bitsOf 8 s.seq.sysSites.toNat).foldl State.outOfSysReset
    { s with seq := { s.seq with sysReset := false, trayReset := false } } := rfl

theorem State.sitesFault_outOfSysReset (s : State) (n : Nat) : s.SitesFault (s.outOfSysReset n) := by
  unfold State.outOfSysReset
  extract_lets _ u
  have hu : s.SitesFault u := .of_setSite rfl (.inr rfl)
  split
  · exact hu.trans (.of_setSite (u.siteFault_seq n) (.inl rfl))
  · exact hu

theorem State.outOfSysReset_site (s : State) (n : Nat) : (((s.outOfSysReset n).site n).st).reset = false := by
  unfold State.outOfSysReset
  extract_lets _ u
  split
  · rw [State.site_congr (u.siteFault_seq n), State.site_setSite_same]
    rfl
  · next h => exact Bool.not_eq_true _ ▸ h

/-- The end of a system reset takes each of its sites that stands in such a state to FAULTED (R154, R164). -/
theorem State.sysResetEnd_effect (s : State) : s.sysResetEnd.seq.sysReset = false ∧ s.sysResetEnd.seq.trayReset = false ∧
    ∀ n, n < 8 → s.seq.sysSites.getLsbD n = true → (s.site n).st.reset = true → (s.sysResetEnd.site n).st = .faulted := by
  rw [s.sysResetEnd_eq]
  have hf := State.SitesFault.foldl (l := bitsOf 8 s.seq.sysSites.toNat) State.sitesFault_outOfSysReset
    ({ s with seq := { s.seq with sysReset := false, trayReset := false } } : State)
  refine ⟨by rw [hf.seq], by rw [hf.seq], fun n hn hb hr => (hf.site n).resolve_right fun he => ?_⟩
  have hm : n ∈ bitsOf 8 s.seq.sysSites.toNat := List.mem_filter.2 ⟨List.mem_range.2 hn, hb⟩
  have ho := foldl_each (P := fun n (s : State) => (s.site n).st.reset = false) State.outOfSysReset_site
    (fun s m k h => by
      rcases (s.sitesFault_outOfSysReset m).site k with hk | hk
      · rw [hk]; rfl
      · rw [hk, h])
    hm (s := ({ s with seq := { s.seq with sysReset := false, trayReset := false } } : State))
  rw [he] at ho
  exact Bool.false_ne_true (ho.symm.trans hr)

end SysReset

/-! ## The commands (R95, R96, R154, R168) -/

section Commands
variable {s : State} {w : Nat}

/-- A Warden that is reloaded is reset and at once no longer held (R96). -/
theorem wardenReload_effect (w : Nat) (hs : s.pwr.standby = true) : Completes (.wardenReload w) s fun t =>
    t.rst = { s.rst with wardenLast := Tbl.set s.rst.wardenLast w ⟨0x22#8, 1, BitVec.ofNat 48 s.plinth⟩
                         wardenHeld := setBit (setBit s.rst.wardenHeld w true) w false } ∧
    t.seq.toAdopt = setBit s.seq.toAdopt w true ∧ (t.site w).driven = false := by
  have h := s.wardenReset_effect w 0x22
  refine completes_gated (t := (s.wardenReset w 0x22).wardenReleased w) rfl hs ?_
  generalize s.wardenReset w 0x22 = u at h ⊢
  obtain ⟨hr, -, hd, -, ha⟩ := h
  refine ⟨?_, ?_, hd⟩
  · rw [State.wardenReleased, hr]
  · rw [State.wardenReleased, ha]

theorem wardenResetRelease_effect (hs : s.pwr.standby = true) (hh : s.rst.wardenHeld.getLsbD w = true) :
    Completes (.wardenResetRelease w) s fun t => t = s.wardenReleased w :=
  completes_gated (t := if s.rst.wardenHeld.getLsbD w then s.wardenReleased w else s) rfl hs (if_pos hh)

theorem trayResetWidthExpiry_effect (hs : s.pwr.standby = true) (ht : s.seq.trayReset = true) :
    Completes .trayResetWidthExpiry s fun t => t.seq.sysReset = false ∧ t.seq.trayReset = false ∧
      (s.seq.sysSites = 0 → t = { s with seq := { s.seq with sysReset := false, trayReset := false }, out := .line 154 0 :: s.out }) ∧
      ∀ n, n < 8 → s.seq.sysSites.getLsbD n = true → (s.site n).st.reset = true → (t.site n).st = .faulted := by
  refine completes_gated (t := if s.seq.trayReset then (s.emit (.line 154 0)).sysResetEnd else s) rfl hs ?_
  rw [if_pos ht]
  obtain ⟨h1, h2, h3⟩ := (s.emit (.line 154 0)).sysResetEnd_effect
  refine ⟨h1, h2, fun h0 => ?_, h3⟩
  rw [State.sysResetEnd_eq, show (s.emit (.line 154 0)).seq.sysSites = 0 from h0]
  rfl

end Commands

/-- Settles O10: a Warden's reset is its cause, its rails and its site; the end of a system reset takes its sites one by one. -/
theorem wardenResetsTakeEffect : Obligations.WardenResetsTakeEffect := by
  intro s w hs hw
  refine ⟨fun c code hc he => ?_, wardenReload_effect w hs, fun hh => wardenResetRelease_effect hs hh,
    fun ht => trayResetWidthExpiry_effect hs ht⟩
  · rcases List.mem_cons.1 hc with rfl | hc
    · subst he
      exact completes_gated rfl hs (s.wardenReset_effect w _)
    · rw [List.mem_singleton] at hc
      subst hc he
      exact completes_gated rfl hs (s.wardenReset_effect w _)

/-- A rail before any event of it has had no retry. -/
theorem railStart_retries (g : Nat) : (railStart g).retries = 0 := by
  unfold railStart
  split <;> rfl

/-- Settles O52: every listed value is that of the state's own initial values. -/
theorem resetHoldsItsValues : Obligations.ResetHoldsItsValues := by
  refine ⟨rfl, rfl, rfl, rfl, rfl, rfl, rfl, rfl, rfl, rfl, rfl, rfl, rfl, rfl, rfl, rfl, rfl, fun n => ⟨rfl, rfl, rfl, rfl, ?_⟩,
    fun _ _ => rfl⟩
  exact railStart_retries n

end Sys2Proof.Machine
end


section
/-!
SUPPORT. Step 10 and what follows a step that did not end well: slot choice, release, ROM service, timeouts, retries and the flash mirror
of the ledger (R101, R106, R108, R120, R123, R125).
-/
namespace Sys2Proof.Machine

/-! ## Steps that stand still (R102, R105) -/

section Steps
variable {s : State} {n : Nat}

/-- The end of a step that does not run changes nothing. -/
theorem State.endStep_idle {o : StepEnd} {d : Option Nat} (h : s.stepRuns n = false) : s.endStep n o d = s := by
  unfold State.stepRuns State.stepOf at h
  unfold State.endStep
  split
  · next x hx =>
    rw [hx] at h
    exact if_neg (by simpa using h)
  · next x hc hk =>
    rw [hc, hk] at h
    exact if_neg (by simpa using h)
  · rfl

/-- A step that has ended in a way runs no longer. -/
theorem State.stepRuns_of_outcome {e : StepEnd} (h : (s.stepOf n).map LedgerEntry.outcome = some e) (he : e ≠ .inProgress) :
    s.stepRuns n = false := by
  obtain ⟨x, hx, rfl⟩ := Option.map_eq_some_iff.1 h
  rw [State.stepRuns, hx]
  exact beq_eq_false_iff_ne.2 he

/-- From `s` to `t` every step's entry stands. -/
structure State.SameSteps (s t : State) : Prop where
  cur : t.led.cur = s.led.cur
  kept : t.led.kept = s.led.kept

namespace State.SameSteps

variable {r t : State}

theorem stepOf (h : s.SameSteps t) (k : Nat) : t.stepOf k = s.stepOf k := by
  rw [State.stepOf, h.cur, h.kept, State.stepOf]

theorem of_led (h : t.led = s.led) : s.SameSteps t := ⟨by rw [h], by rw [h]⟩

theorem of_touches (h : Touches (Part.others.erase .led) s t) : s.SameSteps t := of_led (h.only .led rfl)

theorem refl (s : State) : s.SameSteps s := ⟨rfl, rfl⟩

theorem trans (h : r.SameSteps s) (h' : s.SameSteps t) : r.SameSteps t := ⟨h'.cur.trans h.cur, h'.kept.trans h.kept⟩

theorem ite {c : Prop} [Decidable c] (hs : r.SameSteps s) (ht : r.SameSteps t) : r.SameSteps (if c then s else t) := by
  split <;> assumption

theorem foldl {α : Type} {f : State → α → State} {l : List α} (hf : ∀ s a, State.SameSteps s (f s a)) (s : State) :
    s.SameSteps (l.foldl f s) := by
  induction l generalizing s with
  | nil => exact refl s
  | cons a l ih => exact (hf s a).trans (ih (f s a))

/-- A channel that leaves service or has its training judged writes serials and saved results, and no step's entry (R421 to R424). -/
theorem chFails (s : State) (n cause : Nat) : s.SameSteps (s.chFails n cause) :=
  have h : s.SameSteps { s with led := { s.led with savedTrain := Tbl.del s.led.savedTrain n } } := ⟨rfl, rfl⟩
  h.trans (of_touches (State.chDown_touches rfl (.refl _ _)))

theorem chNoTrain (s : State) (n : Nat) : s.SameSteps (s.chNoTrain n) := by
  unfold State.chNoTrain
  extract_lets _ u
  have h : s.SameSteps u := ⟨rfl, rfl⟩
  exact h.trans (chFails ..)

theorem chTrained (s : State) (n : Nat) (x : TrainReport) : s.SameSteps (s.chTrained n x) := by
  unfold State.chTrained
  extract_lets _ _ _ _ _ s1 _ s2 _ s3 s4 _ s5 _
  have h1 : s.SameSteps s1 := of_touches (State.setCh_touches rfl (.refl _ s))
  clear_value s1
  have h2 : s.SameSteps s2 := h1.trans ⟨rfl, rfl⟩
  clear_value s2
  have h3 : s.SameSteps s3 := h2.trans ⟨rfl, rfl⟩
  clear_value s3
  have h4 : s.SameSteps s4 := h3.trans (of_touches (State.settle_touches rfl (State.orderUp_touches rfl (.refl _ s3))))
  clear_value s4
  have h5 : s.SameSteps s5 := h4.trans (of_touches (.updPwr rfl (.refl _ s4)))
  clear_value s5
  refine .ite (h2.trans (chFails ..)) (.ite (h2.trans (chFails ..)) (.ite (h2.trans (chFails ..)) (.ite ?_ ?_)))
  · exact h5.trans (of_touches (State.setCh_touches rfl (.refl _ s5)))
  · exact h5.trans (of_touches (State.fillStart_touches rfl (State.chCutLost_touches rfl (.refl _ s5))))

theorem chsTimedOut (s : State) : s.SameSteps s.chsTimedOut := by
  unfold State.chsTimedOut
  extract_lets u
  have hu : s.SameSteps u := by
    refine foldl (fun s k => ?_) s
    split
    · exact chTrained ..
    · exact refl s
    · exact chNoTrain ..
  clear_value u
  exact hu.trans (of_touches (State.noDimms_touches rfl (.foldl (fun _ _ h => State.mirrorCheck_touches rfl h) (.refl _ u))))

theorem trainTimedOut (s : State) : s.SameSteps s.chsTimedOut.clampCheck :=
  (chsTimedOut s).trans (of_touches (State.clampCheck_touches rfl (.refl _ _)))

end State.SameSteps
end Steps

/-! ## Step 10: the choice of a slot and its release (R120, R123, R124) -/

section Choice
variable {s : State} {l : List Nat} {k : Nat}

/-- The candidate that is taken is one of those tried. -/
theorem State.trySlots_mem (h : (s.trySlots l).2 = some k) : k ∈ l := by
  induction l generalizing s with
  | nil => cases h
  | cons a l ih =>
    unfold State.trySlots at h
    split at h
    · exact Option.some.inj h ▸ List.mem_cons_self
    · exact List.mem_cons_of_mem _ (ih h)

/-- Candidates tried up to the one taken, and those behind it noted (R123, R124). -/
def State.slotsTried (s : State) (l : List Nat) (k : Nat) : State := (s.trySlots l).1.noteBelow ((l.dropWhile (· != k)).drop 1)

theorem State.slotsTried_frame (s : State) (l : List Nat) (k : Nat) : s.onlyChanges [.boot, .evt] (s.slotsTried l k) :=
  (State.noteBelow_touches rfl (State.trySlots_touches rfl (.refl _ s))).only

/-- ROM service where no candidate is left (R125). -/
def State.romServes (s : State) (l : List Nat) : State :=
  { (s.trySlots l).1 with boot := { (s.trySlots l).1.boot with chosen := none, romService := true } }

theorem State.romServes_frame (s : State) (l : List Nat) : s.onlyChanges [.boot, .evt] (s.romServes l) :=
  (Touches.updBoot rfl (State.trySlots_touches rfl (.refl [.boot, .evt] s))).only

theorem State.chooseFrom_some (h : (s.trySlots l).2 = some k) : s.chooseFrom l = { s.slotsTried l k with
    boot := { (s.slotsTried l k).boot with chosen := some k, slot := min k 2, romService := false }
    rst := { (s.slotsTried l k).rst with bootLast := { (s.slotsTried l k).rst.bootLast with detail := BitVec.ofNat 8 (min k 2) } } } := by
  unfold State.chooseFrom
  extract_lets r
  have hr : r.2 = some k := h
  rw [hr]
  rfl

theorem State.chooseFrom_none (h : (s.trySlots l).2 = none) : s.chooseFrom l = (s.romServes l).endStep 10 .failed none := by
  unfold State.chooseFrom
  extract_lets r
  have hr : r.2 = none := h
  rw [hr]
  rfl

/-- A choice among candidates leaves every step but step 10, and step 10 too where it has ended. -/
theorem State.chooseFrom_stepOf (h : s.stepRuns 10 = false) (n : Nat) : (s.chooseFrom l).stepOf n = s.stepOf n := by
  cases hk : (s.trySlots l).2 with
  | some k =>
    rw [State.chooseFrom_some hk]
    exact State.stepOf_congr (s.slotsTried_frame l k .led rfl) n
  | none =>
    have hl : (s.romServes l).led = s.led := s.romServes_frame l .led rfl
    rw [State.chooseFrom_none hk, State.endStep_idle ((State.stepRuns_congr (State.stepOf_congr hl 10)).trans h)]
    exact State.stepOf_congr hl n

theorem State.repairAll_frame (s : State) : s.onlyChanges [.flash0, .flash1] s.repairAll :=
  (State.repairAll_touches rfl (.refl _ s)).only

theorem State.choose_takes (h10 : s.stepRuns 10 = true) (h : (s.trySlots s.candidates).2 = some k) :
    s.choose.boot.chosen = some k ∧ s.choose.boot.slot = min k 2 ∧ s.choose.boot.romService = false ∧ s.choose.stepRuns 10 = true ∧
    s.choose.rst = { s.rst with bootLast := { s.rst.bootLast with detail := BitVec.ofNat 8 (min k 2) } } := by
  have hf := s.slotsTried_frame s.candidates k
  have hr := (s.chooseFrom s.candidates).repairAll_frame
  have hc := State.chooseFrom_some h
  have hb : s.choose.boot = (s.chooseFrom s.candidates).boot := hr .boot rfl
  refine ⟨?_, ?_, ?_, ?_, ?_⟩
  · rw [hb, hc]
  · rw [hb, hc]
  · rw [hb, hc]
  · refine (State.stepRuns_congr (State.stepOf_congr ?_ 10)).trans h10
    exact (hr .led rfl).trans (hc ▸ hf .led rfl)
  · have ht : s.choose.rst = (s.chooseFrom s.candidates).rst := hr .rst rfl
    rw [ht, hc, ← hf .rst rfl]

theorem State.choose_none (h10 : s.stepRuns 10 = true) (h : (s.trySlots s.candidates).2 = none) :
    s.choose.boot.romService = true ∧ s.choose.boot.chosen = none ∧ s.choose.rst = s.rst ∧
    (s.choose.stepOf 10).map LedgerEntry.outcome = some .failed := by
  have hf := s.romServes_frame s.candidates
  have hr := (s.chooseFrom s.candidates).repairAll_frame
  have hc := State.chooseFrom_none h
  have he := (s.romServes s.candidates).endStep_frame 10 .failed none
  have hb : s.choose.boot = (s.romServes s.candidates).boot := (hr .boot rfl).trans (hc ▸ he .boot rfl)
  refine ⟨?_, ?_, ?_, ?_⟩
  · rw [hb, State.romServes]
  · rw [hb, State.romServes]
  · exact (hr .rst rfl).trans ((hc ▸ he .rst rfl).trans (hf .rst rfl))
  · have hl : s.choose.led = (s.chooseFrom s.candidates).led := hr .led rfl
    rw [State.stepOf_congr hl, hc]
    exact State.endStep_failed ((State.stepRuns_congr (State.stepOf_congr (hf .led rfl) 10)).trans h10)

/-- With the Plaster path forced no slot is tried (R123). -/
theorem State.candidates_forced (h : s.plasterForced = true) : s.candidates = [2, 3] := by
  rw [State.candidates, if_pos h, List.nil_append]

theorem State.choose_forced (h10 : s.stepRuns 10 = true) (hf : s.plasterForced = true) :
    (s.choose.boot.slot = 2 ∧ s.choose.boot.chosen.isSome = true) ∨ (s.choose.boot.romService = true ∧ s.choose.boot.chosen = none) := by
  cases h : (s.trySlots s.candidates).2 with
  | some k =>
    obtain ⟨h1, h2, -⟩ := State.choose_takes h10 h
    have hk : 2 ≤ k := by
      have hm := State.trySlots_mem h
      rw [State.candidates_forced hf] at hm
      rcases List.mem_cons.1 hm with rfl | hm
      · exact Nat.le_refl 2
      · exact List.mem_singleton.1 hm ▸ by decide
    exact .inl ⟨by rw [h2, Nat.min_eq_right hk], by rw [h1]; rfl⟩
  | none =>
    obtain ⟨h1, h2, -⟩ := State.choose_none h10 h
    exact .inr ⟨h1, h2⟩

theorem imageSlotChoice_on {p : State → Prop} (hc : s.pwr.core = true) (h10 : s.stepRuns 10 = true) (hn : s.boot.chosen = none)
    (h : p s.choose) : Completes .imageSlotChoice s p := by
  refine completes_gated (t := if s.stepRuns 10 && s.boot.chosen.isNone then s.choose else s) rfl hc ?_
  rw [h10, hn, if_pos (by decide)]
  exact h

/-- The candidate in hand is released to run (R120, R126). -/
def State.released (s : State) (k : Nat) : State :=
  { s with boot := { s.boot with chosen := none, run := some (s.imageOf k) }
           rst := { s.rst with locked := true, wdtRunning := true } }

theorem quarantineRelease_effect (hc : s.pwr.core = true) (h10 : s.stepRuns 10 = true) (hk : s.boot.chosen = some k) :
    Completes .quarantineRelease s fun t =>
      t.boot = { s.boot with chosen := none, run := some (s.imageOf k) } ∧ t.rst = { s.rst with locked := true, wdtRunning := true } ∧
      t.stepEnded 10 = true ∧ t.stepRuns 11 = true ∧ s.onlyChanges [.boot, .rst, .led] t := by
  have he : exec .quarantineRelease s =
      .next (((s.released k).endStep 10 .ok (some (min k 2))).beginStep 11 0 (min k 2)) := by
    refine (exec_gated rfl hc).trans (congrArg _ ?_)
    beta_reduce
    rw [hk]
    rfl
  have hr : Touches [.boot, .rst, .led] s (s.released k) := .updRstBoot rfl (.refl _ s)
  have h10' : (s.released k).stepRuns 10 = true := h10
  have hb : (s.released k).boot = { s.boot with chosen := none, run := some (s.imageOf k) } := rfl
  have hs : (s.released k).rst = { s.rst with locked := true, wdtRunning := true } := rfl
  generalize s.released k = u at he hr h10' hb hs
  have ht := State.endStep_touches (n := 10) (o := .ok) (detail := some (min k 2)) rfl hr
  have hf := u.endStep_frame 10 .ok (some (min k 2))
  have h10e := State.stepEnded_endStep (o := .ok) (d := some (min k 2)) h10' (by decide)
  generalize u.endStep 10 .ok (some (min k 2)) = v at he ht hf h10e
  have hd := v.beginStep_ledger 0 (min k 2) (n := 11) rfl
  refine completes_of he ⟨?_, ?_, ?_, State.stepRuns_beginStep .., fun q hq => ?_⟩
  · rw [hd .boot rfl, hf .boot rfl, hb]
  · rw [hd .rst rfl, hf .rst rfl, hs]
  · rw [State.stepEnded_same (State.stepOf_beginStep_other (by decide)), h10e]
  · exact Part.same_trans (ht.only q hq) (hd q (Part.within_not rfl hq))

/-- Both Plaster copies written (R125). -/
def State.plasterWritten (s : State) (img : Bytes) : State :=
  let n := s.nextCount plasterOff
  let s := s.writeArea 0 plasterOff plasterSize n (imgManifest img) (imgBody img)
  s.writeArea 1 plasterOff plasterSize n (imgManifest img) (imgBody img)

theorem romServicePlasterImage_effect (img : Bytes) (hc : s.pwr.core = true) (hr : s.boot.romService = true) (hu : s.rst.under = none) :
    Completes (.romServicePlasterImage img) s fun t => (s.brace = true ∨ s.snap.holdup = true → t = s) ∧
      (s.brace = false → s.snap.holdup = false → s.imgCheck img 2 plasterSize none = none → imgBad img = none →
        t.rst.under = some .moduleReset ∨ (RKind.moduleReset, 6) ∈ t.rst.waiting) ∧
      ((s.imgCheck img 2 plasterSize none).isSome = true ∨ (imgBad img).isSome = true → t = s) := by
  refine completes_gated (t := if !s.boot.romService || s.brace || s.snap.holdup || (s.imgCheck img 2 plasterSize none).isSome ||
    (imgBad img).isSome then s else (s.plasterWritten img).swReset 6 .moduleReset) rfl hc ⟨fun h => ?_, fun h1 h2 h3 h4 => ?_, fun h => ?_⟩
  · refine if_pos ?_
    rcases h with h | h
    · simp [h]
    · simp [h]
  · have hf : s.onlyChanges [.flash0, .flash1] (s.plasterWritten img) :=
      (State.writeArea_touches rfl (State.writeArea_touches rfl (.refl _ s))).only
    rw [hr, h1, h2, h3, h4, if_neg (by decide)]
    exact swReset_module ((congrArg ResetCtl.under (hf .rst rfl)).trans hu)
  · refine if_pos ?_
    rcases h with h | h
    · simp [h]
    · simp [h]

end Choice

/-! ## Timeouts (R101) -/

section Timeout
variable {s : State} {n : Nat}

theorem State.begin19_stepOf {k : Nat} (hk : k ≠ 19) : s.begin19.stepOf k = s.stepOf k := by
  unfold State.begin19
  split
  · rfl
  · exact State.stepOf_beginStep_other hk

theorem State.endStep17_idle {o : StepEnd} {d : Nat} (h : s.stepRuns 17 = false) :
    s.endStep17 o d = s.restartOver .caliperOnly := by
  rw [State.endStep17, State.endStep_idle h]

/-- What follows from a step's timeout leaves the entry of the step as it ended; step 11's timeout alone begins a new start (R101). -/
theorem State.timeoutEffect_stepOf (h : s.stepRuns n = false) (hn : n ≠ 11) : (s.timeoutEffect n).stepOf n = s.stepOf n := by
  unfold State.timeoutEffect
  split
  · rfl
  · obtain ⟨-, -, -, -, -, -, h4⟩ := s.begin567_effect
    exact h4
  · exact (State.SameSteps.of_touches (State.noteLoad_touches rfl (State.startLoad_touches rfl (.refl _ s)))).stepOf 5
  · refine (State.SameSteps.ite (.of_touches ?_) (.refl s)).stepOf 6
    exact State.record_touches rfl (.updPair rfl (.refl _ s))
  · exact (State.SameSteps.of_touches (State.coreFails_touches rfl (.refl _ s))).stepOf 7
  · split
    · rfl
    · exact State.stepOf_begin9_other (by decide)
  · split
    · rfl
    · obtain ⟨-, hk⟩ := s.armUp.begin10_keeps
      exact hk 9 (by decide)
  · rw [State.stepOf_congr (s.chooseNext.repairAll_frame .led rfl)]
    exact State.chooseFrom_stepOf h 10
  · exact absurd rfl hn
  · rfl
  · extract_lets u
    have hu : s.SameSteps u := .trainTimedOut s
    clear_value u
    rw [State.stepOf_beginStep_other (by decide)]
    exact hu.stepOf 15
  · exact (State.SameSteps.of_touches (State.jrnNewEpoch_touches rfl (.refl _ s))).stepOf 16
  · rw [State.endStep17_idle (by exact h)]
    rfl
  · exact State.begin19_stepOf (by decide)
  · rfl
  · rfl

/-- A step that reaches twice its done-by time ends TIMEOUT, with a DETAIL of its own (R101). -/
theorem startStepTimeout_exec (hs : s.pwr.standby = true) (hn : s.stepRuns n = true) :
    ∃ d, exec (.startStepTimeout n) s = .next ((s.endStep n .timeout d).timeoutEffect n) := by
  refine ⟨_, (exec_gated rfl hs).trans (congrArg _ (if_neg ?_))⟩
  rw [hn]
  decide

theorem startStepTimeout_effect (hs : s.pwr.standby = true) (hr : s.stepRuns n = true) (hn : n ≠ 11) :
    Completes (.startStepTimeout n) s fun t => (t.stepOf n).map LedgerEntry.outcome = some .timeout := by
  obtain ⟨d, he⟩ := startStepTimeout_exec hs hr
  have ho : ((s.endStep n .timeout d).stepOf n).map LedgerEntry.outcome = some .timeout := by
    rw [State.endStep_ends hr, if_neg (by rintro ⟨he, -⟩; contradiction)]
  refine completes_of he ?_
  rw [State.timeoutEffect_stepOf (State.stepRuns_of_outcome ho (by decide)) hn, ho]

/-- An Armature restart that no source asks for is a new start of its kind, from step 9 and from this time on (R94, R101, R102). -/
theorem State.armatureAgain_start (s : State) : s.armatureAgain.led.kind = .armature ∧ s.armatureAgain.stepRuns 9 = true ∧
    s.armatureAgain.rst.bootLast.time = BitVec.ofNat 48 s.plinth := by
  have hp : s.armatureStop.plinth = s.plinth := (State.armatureStop_touches (ps := Part.others) rfl (.refl _ s)).only .plinth rfl
  unfold State.armatureAgain
  generalize s.armatureStop = a at hp ⊢
  extract_lets s1 r s2
  have hk : (s2.newStart .armature 0).led.kind = .armature := rfl
  have hb : (s2.newStart .armature 0).rst.bootLast.time = BitVec.ofNat 48 s.plinth := congrArg (BitVec.ofNat 48) hp
  generalize s2.newStart .armature 0 = u at hk hb ⊢
  have hf : u.onlyChanges [.pwr, .led, .seq, .log, .mem, .cap, .met, .pnt, .chi, .cal, .jrn, .ques, .ebx, .evt, .dram, .out] u.begin9 :=
    (State.begin9_touches rfl (.refl _ u)).only
  exact ⟨u.begin9_start.2.trans hk, u.begin9_runs, by rw [hf .rst rfl, hb]⟩

theorem startStepTimeout_firmware (hs : s.pwr.standby = true) (hr : s.stepRuns 11 = true) : Completes (.startStepTimeout 11) s fun t =>
    t.rst.under = some .armature ∧ t.led.kind = .armature ∧ t.boot.run = none ∧ t.stepRuns 9 = true ∧ t.rst.rstCause = s.rst.rstCause ∧
    t.rst.bootLast.time = BitVec.ofNat 48 s.plinth := by
  obtain ⟨d, he⟩ := startStepTimeout_exec hs hr
  have hf := s.endStep_frame 11 .timeout d
  generalize s.endStep 11 .timeout d = u at he hf
  obtain ⟨h1, h2, h3, -⟩ := u.armatureAgain_effect
  obtain ⟨h4, h5, h6⟩ := u.armatureAgain_start
  exact completes_of (t := u.armatureAgain) he ⟨h1, h4, h3, h5, h2.trans (congrArg ResetCtl.rstCause (hf .rst rfl)),
    h6.trans (congrArg (BitVec.ofNat 48) (hf .plinth rfl))⟩

end Timeout

/-! ## Retries (R101) -/

section Retry
variable {s : State} {n : Nat}

/-- A step that begins and ends at once ends with its outcome, a success in an alternate form as one (R105). -/
theorem State.wholeStep_outcome (s : State) (n form detail : Nat) (o : StepEnd) :
    ((s.wholeStep n form detail o).stepOf n).map LedgerEntry.outcome = some (if o = .ok ∧ form ≠ 0 then .okAlternate else o) := by
  have hf : ((s.beginStep n form detail).stepOf n).any (fun x => x.form != 0) = (form != 0) := by
    unfold State.beginStep State.stepOf State.putEntry
    extract_lets t
    simp only [Tbl.find?_set_same]
    cases Tbl.find? t.ledgerCur n <;> rfl
  rw [State.wholeStep, State.endStep_ends (State.stepRuns_beginStep ..)]
  simp only [hf, bne_iff_ne]

theorem startStepRetryTimer_thresholds (hs : s.pwr.standby = true) (h3 : s.stepEnded 3 = true) (h4 : s.stepEnded 4 = false)
    (hr : s.stepRuns 4 = false) :
    Completes (.startStepRetryTimer 3 true) s (fun t => t.stepEnded 3 = true ∧ t.stepRuns 4 = true) ∧
    Completes (.startStepRetryTimer 3 false) s (fun t => (t.stepOf 3).map LedgerEntry.outcome = some .failed) := by
  have on (ok : Bool) {p : State → Prop} (h : p ((s.beginStep 3 0 0).thresholds ok)) : Completes (.startStepRetryTimer 3 ok) s p := by
    refine completes_gated (t := if s.stepEnded 3 && !s.stepEnded 4 && !s.stepRuns 4 then (s.beginStep 3 0 0).thresholds ok else s)
      rfl hs ?_
    rw [h3, h4, hr, if_pos (by decide)]
    exact h
  have r3 := s.stepRuns_beginStep 3 0 0
  generalize s.beginStep 3 0 0 = u at on r3
  refine ⟨on true ⟨?_, u.thresholds_ok⟩, on false (State.thresholds_failed r3)⟩
  rw [State.thresholds, if_pos rfl, State.stepEnded_same
    ((State.stepOf_beginStep_other (by decide)).trans (State.reliefArm_stepOf _ 3))]
  exact State.stepEnded_endStep r3 (by decide)

theorem startStepRetryTimer_pair (ok : Bool) (hs : s.pwr.standby = true) (h6 : s.stepEnded 6 = true) (hp : s.pair.st = .partner) :
    Completes (.startStepRetryTimer 6 ok) s fun t => (t.stepOf 6).map LedgerEntry.outcome =
      some (if ok then (if s.carry 6 = 0 then .ok else .okAlternate) else .failed) := by
  refine completes_gated (t := if s.stepEnded 6 && decide (s.pair.st = .partner) then
    s.wholeStep 6 (min 1 (s.carry 6)) 0 (if ok then .ok else .failed) else s) rfl hs ?_
  rw [h6, decide_eq_true hp, if_pos (by decide), State.wholeStep_outcome]
  cases ok with
  | false => rfl
  | true =>
    by_cases h0 : s.carry 6 = 0
    · simp [h0]
    · have h1 : min 1 (s.carry 6) ≠ 0 := by omega
      simp [h0, h1]

theorem startStepRetryTimer_core (hs : s.pwr.standby = true) (hc : s.pwr.core = false) (ho : s.rst.otHeld = false)
    (h7 : (s.stepOf 7).any (fun x => x.form == 2 || x.outcome != .inProgress && decide (x.attempt < 2)) = true) :
    Completes (.startStepRetryTimer 7 true) s fun t => t.pwr.core = true ∧ t.stepEnded 7 = true ∧ t.stepRuns 8 = true := by
  cases hx : s.stepOf 7 with
  | none =>
    rw [hx] at h7
    cases h7
  | some x =>
    rw [hx] at h7
    have hf : (x.form == 2 || x.outcome != .inProgress && decide (x.attempt < 2)) = true := h7
    have he : exec (.startStepRetryTimer 7 true) s = .next (((s.beginStep 7 x.form 0).powerStep 7).coreUp true) := by
      refine (exec_gated rfl hs).trans (congrArg _ ?_)
      beta_reduce
      rw [if_neg (by decide), if_neg (by decide), if_pos rfl, hx]
      exact if_neg (by rw [hc, ho, hf]; decide)
    have h7' : ((s.beginStep 7 x.form 0).powerStep 7).stepRuns 7 = true := by
      rw [State.stepRuns_congr (State.stepOf_congr (State.powerStep_led ..) 7)]
      exact State.stepRuns_beginStep ..
    obtain ⟨hp, h7e, h8, -⟩ := State.coreUp_effect h7'
    exact completes_of he ⟨congrArg Power.core hp, h7e, h8⟩

theorem startStepRetryTimer_ports (ok : Bool) (hs : s.pwr.standby = true) (h20 : s.stepEnded 20 = true) (hn : n = 13 ∨ n = 14) :
    Completes (.startStepRetryTimer n ok) s fun t =>
      (t.stepOf n).map LedgerEntry.outcome = some (if ok then .okAlternate else .failed) := by
  refine completes_gated rfl hs ?_
  beta_reduce
  rw [if_neg (by omega), if_neg (by omega), if_neg (by omega), if_pos hn, if_pos h20]
  exact (State.wholeStep_outcome _ n 1 _ _).trans (by cases ok <;> rfl)

end Retry

/-! ## The flash mirror (R108) -/

section Mirror

theorem Memory.get_absent {d : Byte} {m : Memory} {a : Nat} (h : ∀ c ∈ m, c.1 ≠ a) : Memory.get d m a = d := by
  induction m with
  | nil => rfl
  | cons e m ih =>
    unfold Memory.get
    rw [if_neg (h e List.mem_cons_self)]
    exact ih fun c hc => h c (List.mem_cons_of_mem _ hc)

/-- A byte written where none was listed reads back, whatever the order of the list. -/
theorem Memory.get_put_absent {d : Byte} {m : Memory} {a : Nat} {b : Byte} (h : ∀ c ∈ m, c.1 ≠ a) :
    Memory.get d (Memory.put d m a b) a = b := by
  induction m with
  | nil =>
    unfold Memory.put
    split
    · next hb => exact hb.symm
    · exact if_pos rfl
  | cons e m ih =>
    have he := h e List.mem_cons_self
    unfold Memory.put
    split
    · split
      · next hb => rw [hb, Memory.get_absent h]
      · exact if_pos rfl
    · exact (if_neg he).trans (ih fun c hc => h c (List.mem_cons_of_mem _ hc))

theorem Memory.mem_put {d : Byte} {m : Memory} {a : Nat} {b : Byte} {c : Host.Cell} (h : c ∈ Memory.put d m a b) : c.1 = a ∨ c ∈ m := by
  induction m with
  | nil =>
    unfold Memory.put at h
    split at h
    · exact .inr h
    · exact .inl (List.mem_singleton.1 h ▸ rfl)
  | cons e m ih =>
    unfold Memory.put at h
    split at h
    · split at h
      · exact .inr h
      · exact (List.mem_cons.1 h).imp (congrArg Prod.fst) id
    · split at h
      · split at h
        · exact .inr (List.mem_cons_of_mem _ h)
        · exact (List.mem_cons.1 h).imp (congrArg Prod.fst) (List.mem_cons_of_mem _)
      · rcases List.mem_cons.1 h with h | h
        · exact .inr (h ▸ List.mem_cons_self)
        · exact (ih h).imp_right (List.mem_cons_of_mem _)

/-- Bytes written into a range without listed bytes read back. -/
theorem Memory.get_putAll_absent {d : Byte} {m : Memory} {a i : Nat} {bs : Bytes} (h : ∀ c ∈ m, c.1 < a ∨ a + bs.length ≤ c.1)
    (hi : i < bs.length) : Memory.get d (Memory.putAll d m a bs) (a + i) = bs[i] := by
  induction bs generalizing m a i with
  | nil => cases hi
  | cons b bs ih =>
    rw [List.length_cons] at h hi
    unfold Memory.putAll
    cases i with
    | zero =>
      rw [Memory.get_putAll_other (by omega)]
      exact Memory.get_put_absent fun c hc => by have := h c hc; omega
    | succ i =>
      have hm : ∀ c ∈ Memory.put d m a b, c.1 < a + 1 ∨ a + 1 + bs.length ≤ c.1 := fun c hc => by
        rcases Memory.mem_put hc with he | hc
        · omega
        · have := h c hc
          omega
      have := ih hm (by omega : i < bs.length)
      rwa [Nat.add_assoc, Nat.add_comm 1 i] at this

variable {s : State}

theorem State.flash_setFlash (s : State) (dev : Nat) (m : Memory) : (s.setFlash dev m).flash dev = m := by
  unfold State.flash State.setFlash
  split <;> rfl

/-- A flash range that is erased and programmed reads back (R108). -/
theorem State.fread_fstore (s : State) (dev off : Nat) (bs : Bytes) : (s.fstore dev off bs.length bs).fread dev off bs.length = bs := by
  unfold State.fread State.fstore State.fwrite State.ferase
  rw [State.flash_setFlash, State.flash_setFlash]
  refine List.ext_getElem (by simp [Memory.getAll]) fun i h1 h2 => ?_
  simp only [Memory.getAll, List.getElem_map, List.getElem_range]
  refine Memory.get_putAll_absent (fun c hc => ?_) h2
  simpa using (List.mem_filter.1 hc).2

theorem State.fstore_one_keeps (s : State) (off n : Nat) (bs : Bytes) :
    (s.fstore 1 off n bs).led = s.led ∧ (s.fstore 1 off n bs).flash0 = s.flash0 := ⟨rfl, rfl⟩

theorem LedgerEntry.bytes_length (x : LedgerEntry) (n : Nat) : (x.bytes n).length = 32 := by
  simp [LedgerEntry.bytes, leBytes_length, zeros]

/-- A slot of the ring that holds an older start's entries is erased before the first entry of a new one (R108). -/
def State.ringSlotReady (s : State) (seq : Nat) : State :=
  if (allSteps.filterMap (s.ringEntry (seq % 64))).any fun b => u32 b 0 != seq then s.ferase 1 (0x04910000 + 640 * (seq % 64)) 640 else s

theorem State.ringSlotReady_keeps (s : State) (seq : Nat) :
    (s.ringSlotReady seq).led = s.led ∧ (s.ringSlotReady seq).flash0 = s.flash0 := by
  unfold State.ringSlotReady
  split
  · exact ⟨rfl, rfl⟩
  · exact ⟨rfl, rfl⟩

/-- The mark of an entry that is mirrored is taken off, its entry in the ring reads back, and flash 0 stands (R108). -/
theorem ledgerFlashMirror_effect {k n : Nat} {x : LedgerEntry} (hs : s.pwr.standby = true) (hh : s.snap.holdup = false)
    (hm : s.led.toMirror.contains k = true) (hx : Tbl.find? (if k < 32 then s.ledgerCur else s.led.prev) (k % 32) = some x)
    (hn : k % 32 = n) : Completes (.ledgerFlashMirror k) s fun t =>
      t.led = { s.led with toMirror := s.led.toMirror.filter (· != k) } ∧ t.fread 1 (ledgerOff x.startSeq n) 32 = x.bytes n ∧
      t.flash0 = s.flash0 := by
  subst hn
  let u : State := { s with led := { s.led with toMirror := s.led.toMirror.filter (· != k) } }
  have he : exec (.ledgerFlashMirror k) s =
      .next ((u.ringSlotReady x.startSeq).fstore 1 (ledgerOff x.startSeq (k % 32)) 32 (x.bytes (k % 32))) := by
    refine (exec_gated rfl hs).trans (congrArg _ ((if_neg (by rw [hh, hm]; decide)).trans ?_))
    extract_lets n _ v
    rw [show Tbl.find? (if k < 32 then v.ledgerCur else v.led.prev) n = some x from hx]
    rfl
  obtain ⟨hl, h0⟩ := u.ringSlotReady_keeps x.startSeq
  have hr := (u.ringSlotReady x.startSeq).fread_fstore 1 (ledgerOff x.startSeq (k % 32)) (x.bytes (k % 32))
  rw [LedgerEntry.bytes_length] at hr
  generalize u.ringSlotReady x.startSeq = v at he hl h0 hr
  obtain ⟨hl', h0'⟩ := v.fstore_one_keeps (ledgerOff x.startSeq (k % 32)) 32 (x.bytes (k % 32))
  exact completes_of he ⟨hl'.trans hl, hr, h0'.trans h0⟩

theorem Tbl.find?_append_of_some {α : Type} {t u : Tbl α} {k : Nat} {v : α} (h : Tbl.find? t k = some v) :
    Tbl.find? (t ++ u) k = some v := by
  induction t with
  | nil => cases h
  | cons e t ih =>
    obtain ⟨j, w⟩ := e
    rw [List.cons_append]
    unfold Tbl.find? at h ⊢
    split
    · next hj => rwa [if_pos hj] at h
    · next hj =>
      rw [if_neg hj] at h
      exact ih h

end Mirror

/-- Settles O3: each command by the lemma of what it carries out; a timeout by the step's end and what keeps that entry after it. -/
theorem releaseAndRecoveryStepsTakeEffect : Obligations.ReleaseAndRecoveryStepsTakeEffect := by
  intro s
  refine ⟨fun hc h10 hn => imageSlotChoice_on hc h10 hn ⟨fun k hk => State.choose_takes h10 hk, fun hk => State.choose_none h10 hk,
      fun hf => State.choose_forced h10 hf⟩,
    fun k hc h10 hk => quarantineRelease_effect hc h10 hk, fun img hc hr hu => romServicePlasterImage_effect img hc hr hu,
    fun n hs hr hn => startStepTimeout_effect hs hr hn, fun hs hr => startStepTimeout_firmware hs hr,
    fun hs h3 h4 hr => startStepRetryTimer_thresholds hs h3 h4 hr, fun ok hs h6 hp => startStepRetryTimer_pair ok hs h6 hp,
    fun hs hc ho h7 => startStepRetryTimer_core hs hc ho h7,
    fun ok hs h20 => ⟨startStepRetryTimer_ports ok hs h20 (.inl rfl), startStepRetryTimer_ports ok hs h20 (.inr rfl)⟩,
    fun n x hs hh hm h1 h20 hx => ?_, fun n x hs hh hm h1 h20 hx => ?_⟩
  · refine ledgerFlashMirror_effect hs hh hm ?_ (Nat.mod_eq_of_lt (by omega))
    rw [if_pos (by omega), Nat.mod_eq_of_lt (by omega)]
    exact Tbl.find?_append_of_some hx
  · have hn : (32 + n) % 32 = n := by omega
    refine ledgerFlashMirror_effect hs hh hm ?_ hn
    rw [if_neg (by omega), hn]
    exact hx

end Sys2Proof.Machine
end


section
/-!
SUPPORT. Start steps 15 to 20 and firmware's own reports (R101, R121, R128, R131, R142, R168, R371, R414, R420).
-/
namespace Sys2Proof.Machine

/-! ## What firmware finds already done (R101, R102) -/

section Found
variable {s : State} {n : Nat}

theorem exec_armServed {c : Instr} {t : State} {b : Bool}
    (he : exec c s = .next (if b then (if s.boot.slot = 2 then s else t) else s)) (ha : (b && decide (s.boot.slot ≠ 2)) = true) :
    exec c s = .next t := by
  rw [Bool.and_eq_true, decide_eq_true_eq] at ha
  rw [he, if_pos ha.1, if_neg ha.2]

theorem State.firmwareRuns_idle (h : s.stepRuns 11 = false) : s.firmwareRuns = s := by
  unfold State.firmwareRuns
  rw [h]
  rfl

theorem State.laterSteps_idle (h : s.stepRuns 18 = false) : s.laterSteps = s := by
  unfold State.laterSteps
  rw [h]
  rfl

theorem State.endStep_kind (s : State) (n : Nat) (o : StepEnd) (d : Option Nat) : (s.endStep n o d).led.kind = s.led.kind := by
  unfold State.endStep
  split
  · split <;> rfl
  · split <;> rfl
  · rfl

end Found

/-! ## Training reports (R107, R420, R422) -/

section Training
variable {s : State} {c : Nat} {r : TrainReport} {ans : Bool}

/-- Rails of the module that are ordered up move the sequencer and what rails ask for alone. -/
theorem State.risen_frame (s : State) (mask : Nat) : s.onlyChanges [.pwr, .seq, .out] ((s.orderUp 256 24 mask).settle 256) := by
  rw [State.settle_module _ (Nat.le_refl 256)]
  exact (State.railPasses_touches rfl (State.orderUp_touches rfl (.refl _ s))).only

theorem State.powerStep_frame (s : State) (n : Nat) : s.onlyChanges [.pwr, .seq, .out] (s.powerStep n) := by
  unfold State.powerStep
  split
  · exact (Touches.refl _ s).only
  · rw [State.settle_module _ (Nat.le_refl 256)]
    exact (State.railPasses_touches rfl (State.orderUp_touches rfl (.updPwr rfl (.refl _ s)))).only

theorem State.beginStep_mem (s : State) (n form detail : Nat) : (s.beginStep n form detail).mem = s.mem := by
  unfold State.beginStep
  extract_lets u
  show u.mem = s.mem
  unfold u
  split
  · rfl
  · exact s.powerStep_frame n .mem rfl

theorem Tbl.mem_set {α : Type} {t : Tbl α} {k : Nat} {v : α} {x : Nat × α} (h : x ∈ Tbl.set t k v) : x.1 = k ∨ x ∈ t := by
  induction t with
  | nil => exact .inl (List.mem_singleton.1 h ▸ rfl)
  | cons e t ih =>
    obtain ⟨j, w⟩ := e
    unfold Tbl.set at h
    split at h
    · exact (List.mem_cons.1 h).imp (congrArg Prod.fst) (List.mem_cons_of_mem _)
    · rcases List.mem_cons.1 h with h | h
      · exact .inr (h ▸ List.mem_cons_self)
      · exact (ih h).imp_right (List.mem_cons_of_mem _)

theorem Tbl.any_set {α : Type} (t : Tbl α) (k : Nat) (v : α) : (Tbl.set t k v).any (fun x => x.1 == k) = true := by
  induction t with
  | nil => simp [Tbl.set]
  | cons e t ih =>
    obtain ⟨j, w⟩ := e
    unfold Tbl.set
    split
    · simp
    · rw [List.any_cons, ih, Bool.or_true]

/-- A report noted, and the channel's state as its SPD shows it (R101, R422). -/
def State.reportNoted (s : State) (c : Nat) (o : Option TrainReport) (st : ChSt) : State :=
  let s := { s with mem := { s.mem with reports := Tbl.set s.mem.reports (c % 4) o } }
  s.setCh (c % 4) { s.ch (c % 4) with st := st }

/-- A channel that reports and answers trains with its rail up, until the four are judged (R101, R422). -/
def State.reportTaken (s : State) (c : Nat) (r : TrainReport) (ans : Bool) : State :=
  if ans then ((s.reportNoted c (if ans then some r else none) .training).orderUp 256 24 (2 ^ (16 + c % 4))).settle 256
  else s.reportNoted c (if ans then some r else none) .absent

/-- The four channels judged together, once all have reported (R101). -/
def State.reportsJudged (s : State) : State :=
  if (List.range 4).all fun k => s.mem.reports.any fun x => x.1 == k then
    s.step15 ((List.range 4).map fun k => (k, Tbl.get none s.mem.reports k))
  else s

theorem State.step15Report_eq (s : State) (c : Nat) (r : TrainReport) (ans : Bool) :
    s.step15Report c r ans = (s.reportTaken c r ans).reportsJudged := rfl

theorem State.reportTaken_noted (s : State) (c : Nat) (r : TrainReport) (ans : Bool) :
    (s.reportNoted c (if ans then some r else none) (if ans then .training else .absent)).onlyChanges [.pwr, .seq, .out]
      (s.reportTaken c r ans) := by
  cases ans with
  | true =>
    rw [State.reportTaken, if_pos rfl, if_pos rfl, if_pos rfl]
    exact State.risen_frame _ _
  | false => exact (Touches.refl _ _).only

theorem State.reportTaken_mem (s : State) (c : Nat) (r : TrainReport) (ans : Bool) : (s.reportTaken c r ans).mem =
    (s.reportNoted c (if ans then some r else none) (if ans then .training else .absent)).mem :=
  s.reportTaken_noted c r ans .mem rfl

theorem State.reportTaken_frame (s : State) (c : Nat) (r : TrainReport) (ans : Bool) :
    s.onlyChanges [.pwr, .seq, .mem, .out] (s.reportTaken c r ans) := by
  have hn (o : Option TrainReport) (st : ChSt) : Touches [.mem] s (s.reportNoted c o st) :=
    State.setCh_touches rfl (.updMem rfl (.refl _ s))
  exact fun q hq => Part.same_trans ((hn _ _).only q (Part.within_not rfl hq)) (s.reportTaken_noted c r ans q (Part.within_not rfl hq))

/-- The channels are judged together, when all have reported (R101). -/
theorem State.step15Report_waits (h : ∃ k, k < 4 ∧ k ≠ c % 4 ∧ ∀ x ∈ s.mem.reports, x.1 ≠ k) :
    s.step15Report c r ans = s.reportTaken c r ans := by
  obtain ⟨k, hk, hkc, hx⟩ := h
  rw [State.step15Report_eq]
  refine if_neg (fun hall => ?_)
  obtain ⟨x, hm, he⟩ := List.any_eq_true.1 (List.all_eq_true.1 hall k (List.mem_range.2 hk))
  rw [State.reportTaken_mem] at hm
  rw [beq_iff_eq] at he
  exact (Tbl.mem_set hm).elim (fun h => hkc (he ▸ h)) fun h => hx x h he

/-- Step 15 begun again writes the ledger and powers its rails; the reports of the four channels stand (R107, R424). -/
theorem State.again15_reports (s : State) : s.again15.mem.reports = s.mem.reports := by
  unfold State.again15
  extract_lets u
  rw [State.beginStep_mem, show u.newSerial.mem = u.mem from (State.newSerial_touches (ps := [.led]) rfl (.refl _ u)).only .mem rfl]
  exact List.foldlRecOn (motive := fun t : State => t.mem.reports = s.mem.reports) _ _ rfl fun _ h _ _ => h

theorem dimmTrainingDone_step (ok mr : Bool) (rate cap ser : Nat) (hc : s.pwr.core = true) (h11 : s.stepRuns 11 = false)
    (h15 : s.stepRuns 15 = true) (hk : ∃ k, k < 4 ∧ k ≠ c % 4 ∧ ∀ x ∈ s.mem.reports, x.1 ≠ k) :
    Completes (.dimmTrainingDone c ok ans mr rate cap ser) s fun t =>
      Tbl.get none t.mem.reports (c % 4) = (if ans then some ⟨dimmOk mr rate cap, ok, cap, ser, dimmRate rate⟩ else none) ∧
      (t.ch (c % 4)).st = (if ans then .training else .absent) ∧
      s.onlyChanges [.pwr, .seq, .log, .mem, .cap, .met, .pnt, .chi, .cal, .jrn, .ques, .ebx, .evt, .dram, .out] t := by
  have he : exec (.dimmTrainingDone c ok ans mr rate cap ser) s =
      .next (s.step15Report c ⟨dimmOk mr rate cap, ok, cap, ser, dimmRate rate⟩ ans) := by
    refine (exec_gated rfl hc).trans (congrArg _ ?_)
    simp only [State.firmwareRuns_idle h11, h15, ↓reduceIte]
  rw [State.step15Report_waits hk] at he
  have hm := s.reportTaken_mem c ⟨dimmOk mr rate cap, ok, cap, ser, dimmRate rate⟩ ans
  refine completes_of he ⟨?_, ?_, fun q hq => s.reportTaken_frame c _ ans q (Part.within_not rfl hq)⟩
  · rw [hm, State.reportNoted]
    exact Tbl.get_set_same ..
  · rw [State.ch, hm, State.reportNoted]
    exact congrArg MemCh.st (Tbl.get_set_same ..)

theorem dimmTrainingDone_otherSerial (ok mr : Bool) (rate cap ser : Nat) (hc : s.pwr.core = true) (h11 : s.stepRuns 11 = false)
    (h15 : s.stepRuns 15 = false) (ht : (s.ch c).st ≠ .training) (hw : s.withoutDimms = true) (ho : s.otherSerial c ser = true)
    (hk : ∃ k, k < 4 ∧ k ≠ c % 4 ∧ ∀ x ∈ s.mem.reports, x.1 ≠ k) :
    Completes (.dimmTrainingDone c ok true mr rate cap ser) s fun t => t.stepRuns 15 = true ∧
      t.mem.reports.any (fun x => x.1 == c % 4) = true := by
  have he : exec (.dimmTrainingDone c ok true mr rate cap ser) s =
      .next (s.again15.step15Report c ⟨dimmOk mr rate cap, ok, cap, ser, dimmRate rate⟩ true) := by
    refine (exec_gated rfl hc).trans (congrArg _ ?_)
    simp only [State.firmwareRuns_idle h11, h15, ht, hw, ho, Bool.false_eq_true, Bool.and_self, ↓reduceIte]
  rw [State.step15Report_waits (by rwa [State.again15_reports])] at he
  refine completes_of he ⟨?_, ?_⟩
  · rw [State.stepRuns_congr (State.stepOf_congr (s.again15.reportTaken_frame c _ true .led rfl) 15)]
    exact State.stepRuns_beginStep ..
  · rw [State.reportTaken_mem]
    exact Tbl.any_set s.again15.mem.reports ..

theorem dimmTrainingDone_silent (ok mr : Bool) (rate cap ser : Nat) (hc : s.pwr.core = true) (h11 : s.stepRuns 11 = false)
    (h15 : s.stepRuns 15 = false) (ht : (s.ch c).st = .training) :
    Completes (.dimmTrainingDone c ok false mr rate cap ser) s fun t => t = s.setCh c { s.ch c with st := .absent } := by
  refine completes_of ((exec_gated rfl hc).trans (congrArg _ ?_)) rfl
  simp only [State.firmwareRuns_idle h11, h15, ht, Bool.false_eq_true, ↓reduceIte]

end Training

/-! ## The journal and the self-test (R371, R391, R414) -/

section Engines
variable {s : State}

theorem State.jrnNewEpoch_epoch (s : State) : s.jrnNewEpoch.jrn.epoch = (s.jrn.epoch + 1) % 2 ^ 32 := by
  unfold State.jrnNewEpoch
  extract_lets _ _ _ u v _
  have hu : u.jrn.epoch = (s.jrn.epoch + 1) % 2 ^ 32 := rfl
  clear_value u
  exact hu ▸ congrArg Journal.epoch
    ((Touches.foldl (fun _ _ h => State.jEvent_touches rfl h) (State.jEvent_touches rfl (.refl [.log, .evt] u))).only .jrn rfl)

theorem journalRecovery_powerOn (ha : s.armServes = true) (h11 : s.stepRuns 11 = false) (h16 : s.stepRuns 16 = true)
    (hk : s.led.kind = .powerOn) : Completes .journalRecovery s fun t => t.jrn.epoch = (s.jrn.epoch + 1) % 2 ^ 32 ∧
      t.stepOf 16 = (s.stepOf 16).map fun x => x.ended .ok none s.plinth := by
  have hg : s.onlyChanges [.cal, .gimg] ((List.range 8).foldl State.gaugeKeep s) :=
    (Touches.foldl (fun _ _ h => State.gaugeKeep_touches rfl h) (.refl _ s)).only
  have he : exec .journalRecovery s = .next (((List.range 8).foldl State.gaugeKeep s).jrnNewEpoch.endStep 16 .ok none) := by
    refine (exec_armServed rfl ha).trans (congrArg _ ?_)
    simp only [State.firmwareRuns_idle h11, h16, Bool.not_true, Bool.false_eq_true, ↓reduceIte]
    exact if_pos ((congrArg Ledger.kind (hg .led rfl)).trans hk)
  generalize (List.range 8).foldl State.gaugeKeep s = u at hg he
  have hn : u.onlyChanges [.log, .jrn, .evt] u.jrnNewEpoch := (State.jrnNewEpoch_touches rfl (.refl _ u)).only
  have hs : u.jrnNewEpoch.stepOf 16 = s.stepOf 16 := State.stepOf_congr ((hn .led rfl).trans (hg .led rfl)) 16
  refine completes_of he ⟨?_, ?_⟩
  · rw [State.endStep_frame _ 16 .ok none .jrn rfl, State.jrnNewEpoch_epoch, hg .jrn rfl]
  · rw [State.stepOf_endStep_same ((State.stepRuns_congr hs).trans h16), hs, hn .plinth rfl, hg .plinth rfl]

/-- The self-test is no longer due (R371). -/
def State.selfTested (s : State) : State := { s with cal := { s.cal with testDue := false } }

/-- A self-test that ends with no tile failing, at this time (R371). -/
def State.selfTestPassed (s : State) : State := { s.selfTested with selfTest := s.plinth }

/-- A self-test that no tile fails fences none, and fails only where none is left to test (R371). -/
theorem State.calSelfTest_passes (s : State) : s.calSelfTest 0 =
    if s.usableTiles.isEmpty then s.selfTested.calFence.endStep17 .failed 0 else s.selfTestPassed.endStep17 .ok 0 := by
  have hb : s.usableTiles.filter (Nat.testBit 0) = [] := List.filter_eq_nil_iff.2 fun k _ => by simp
  unfold State.calSelfTest
  simp only [hb, List.foldl_nil]
  rfl

/-- Step 17 ends, and a Caliper-only restart with it (R86). -/
theorem State.endStep17_effect {o : StepEnd} (d : Nat) (h : s.stepRuns 17 = true) :
    (s.endStep17 o d).stepOf 17 = (s.stepOf 17).map (fun x => x.ended o (some d) s.plinth) ∧
    (s.rst.under = some .caliperOnly → (s.endStep17 o d).rst = { s.rst with under := none }) ∧
    s.onlyChanges [.rst, .led] (s.endStep17 o d) := by
  have hr : (s.endStep 17 o (some d)).rst = s.rst := s.endStep_frame 17 o (some d) .rst rfl
  refine ⟨State.stepOf_endStep_same h, fun hu => ?_, (State.endStep17_touches rfl (.refl _ s)).only⟩
  show ({ (s.endStep 17 o (some d)).rst with under := if (s.endStep 17 o (some d)).rst.under = some .caliperOnly then none
    else (s.endStep 17 o (some d)).rst.under } : ResetCtl) = _
  rw [hr, if_pos hu]

theorem State.endStep17_stepOf (s : State) (o : StepEnd) (d k : Nat) :
    (s.endStep17 o d).stepOf k = (s.endStep 17 o (some d)).stepOf k := rfl

/-- Caliper fenced: off, for good, and no step's entry moves (R29, R371). -/
theorem State.calFence_effect (s : State) : s.calFence.pwr.calFenced = true ∧ s.calFence.pwr.caliper = false ∧
    s.calFence.led = s.led ∧ s.calFence.selfTest = s.selfTest := by
  have hf : s.onlyChanges [.pwr, .seq, .log, .mem, .cap, .met, .pnt, .chi, .cal, .jrn, .gimg, .ques, .ebx, .evt, .dram, .out]
    s.calFence := (State.calFence_touches rfl (.refl _ s)).only
  have hp : s.calFence.pwr = _ :=
    (State.calFall_effect { s with pwr := { s.pwr with calFenced := true, caliper := false } }).1.pwr
  refine ⟨?_, ?_, hf .led rfl, hf .selfTest rfl⟩
  · rw [hp]
  · rw [hp]

theorem caliperSelfTest_passes (hc : s.pwr.core = true) (hp : s.pwr.caliper = true) (h11 : s.stepRuns 11 = false)
    (h17 : s.stepRuns 17 = true) : Completes (.caliperSelfTest 0) s fun t =>
      (s.usableTiles ≠ [] → t.cal = { s.cal with testDue := false } ∧ t.selfTest = s.plinth ∧ t.pwr = s.pwr ∧
        t.stepOf 17 = (s.stepOf 17).map (fun x => x.ended .ok (some 0) s.plinth) ∧
        (s.rst.under = some .caliperOnly → t.rst = { s.rst with under := none })) ∧
      (s.usableTiles = [] → t.selfTest = s.selfTest ∧ t.pwr.calFenced = true ∧ t.pwr.caliper = false ∧
        (t.stepOf 17).map LedgerEntry.outcome = some .failed) := by
  have he : exec (.caliperSelfTest 0) s = .next (s.calSelfTest 0) := by
    refine (exec_gated rfl hc).trans (congrArg _ ?_)
    simp only [State.firmwareRuns_idle h11, h17, hp, Bool.and_self, ↓reduceIte]
  refine completes_of he ⟨fun hu => ?_, fun hu => ?_⟩
  · obtain ⟨h1, h2, h3⟩ := State.endStep17_effect (s := s.selfTestPassed) (o := .ok) 0 h17
    rw [State.calSelfTest_passes, if_neg (by simpa using hu)]
    exact ⟨h3 .cal rfl, h3 .selfTest rfl, h3 .pwr rfl, h1, h2⟩
  · obtain ⟨h1, h2, h3, h4⟩ := s.selfTested.calFence_effect
    have h17' : s.selfTested.calFence.stepRuns 17 = true := (State.stepRuns_congr (State.stepOf_congr h3 17)).trans h17
    obtain ⟨-, -, h6⟩ := State.endStep17_effect (o := .failed) 0 h17'
    rw [State.calSelfTest_passes, if_pos (by simp [hu]), h6 .selfTest rfl, h6 .pwr rfl, State.endStep17_stepOf]
    exact ⟨h4, h1, h2, State.endStep_failed h17'⟩

end Engines

/-! ## Site images and full service (R101, R131, R138, R289, R481) -/

section Service
variable {s : State}

/-- Sites whose digest differs from a matching entry of a higher VERSION (R138). -/
def State.digestsDiffer (s : State) : List Nat :=
  (List.range 8).filter fun n => match s.matchingEntry n with
    | some x => manDigest (s.manifestAt x.2 (storeOff x.1)) != (s.site n).imageDigest &&
        decide ((s.site n).imageVersion < manVersion (s.manifestAt x.2 (storeOff x.1)))
    | none => false

/-- The pushes that step 19 finds needed; none at CARRY 1 or more (R101). -/
def State.pushesNoted (s : State) : State :=
  { s with boot := { s.boot with needPush := BitVec.ofNat 8 (maskOf (if 1 ≤ s.carry 19 then [] else s.digestsDiffer)) } }

theorem siteImageDigestCheck_effect (ha : s.armServes = true) (h11 : s.stepRuns 11 = false) (h18 : s.stepRuns 18 = false)
    (h19 : s.stepRuns 19 = true) : Completes .siteImageDigestCheck s fun t => t.stepEnded 19 = true ∧
      (1 ≤ s.carry 19 → t.boot.needPush = 0) ∧ s.onlyChanges [.boot, .led] t := by
  have he : exec .siteImageDigestCheck s = .next (s.pushesNoted.endStep 19 .ok (some (maskOf s.digestsDiffer))) := by
    refine (exec_armServed rfl ha).trans (congrArg _ ?_)
    beta_reduce
    rw [State.firmwareRuns_idle h11, State.laterSteps_idle h18]
    exact if_neg (by rw [h19]; decide)
  have hf := s.pushesNoted.endStep_frame 19 .ok (some (maskOf s.digestsDiffer))
  refine completes_of he ⟨State.stepEnded_endStep h19 (by decide), fun h1 => ?_, ?_⟩
  · rw [hf .boot rfl, State.pushesNoted, if_pos h1]
    rfl
  · exact (State.endStep_touches rfl (.updBoot rfl (.refl _ s))).only

/-- Steps 12 to 14 and 20 end as full service is reported (R101). -/
def State.serviceSteps (s : State) : State :=
  let s := s.endStep 12 (if s.pnt.valid then .ok else .failed) none
  let s := s.endStep 13 .ok none
  let s := s.endStep 14 (if s.fabricDown.isNone then .ok else .failed) s.fabricDown
  s.endStep 20 .ok none

/-- What full service finds restored: Patina and the Chisel models (R236, R266). -/
def State.serviceRestored (s : State) : State :=
  let s := if (s.capS 0).restoring then s.patinaRestore else s
  if (s.chiS 0).restored then s else s.chiRestore

/-- The commit dwell, the cooling watchdog and the pair as full service begins (R131, R289, R481). -/
def State.serviceBegun (s : State) : State :=
  { s with boot := { s.boot with dwellRunning := true }
           cool := { s.cool with suspended := false, hold := false, wdtAt := if s.cool.suspended then s.plinth else s.cool.wdtAt }
           pair := { s.pair with yielding := false } }

theorem State.serviceSteps_frame (s : State) : s.onlyChanges [.led] s.serviceSteps :=
  (State.endStep_touches rfl (State.endStep_touches rfl (State.endStep_touches rfl (State.endStep_touches rfl (.refl _ s))))).only

theorem State.serviceSteps_kind (s : State) : s.serviceSteps.led.kind = s.led.kind := by
  unfold State.serviceSteps
  extract_lets a b c
  rw [State.endStep_kind]
  exact (State.endStep_kind ..).trans ((State.endStep_kind ..).trans (State.endStep_kind ..))

theorem State.serviceSteps_stepOf (h : s.stepRuns 20 = true) :
    s.serviceSteps.stepOf 20 = (s.stepOf 20).map fun x => x.ended .ok none s.plinth := by
  unfold State.serviceSteps
  extract_lets a b c
  have hc : c.stepOf 20 = s.stepOf 20 := (State.stepOf_endStep_other (by decide)).trans
    ((State.stepOf_endStep_other (by decide)).trans (State.stepOf_endStep_other (by decide)))
  have ht : Touches [.led] s c :=
    State.endStep_touches rfl (State.endStep_touches rfl (State.endStep_touches rfl (.refl _ s)))
  rw [State.stepOf_endStep_same ((State.stepRuns_congr hc).trans h), hc, ht.only .plinth rfl]

theorem State.serviceRestored_frame (s : State) : s.onlyChanges [.log, .cap, .pat, .chi, .evt] s.serviceRestored := by
  unfold State.serviceRestored
  extract_lets u
  have hu : Touches [.log, .cap, .pat, .chi, .evt] s u := .ite (State.patinaRestore_touches rfl (.refl _ s)) (.refl _ s)
  exact (Touches.ite hu (State.chiRestore_touches rfl hu)).only

/-- After an Armature restart no Pointing role takes effect anew: step 12 is not run (R102, R330). -/
theorem State.fullService_armature (h11 : s.stepRuns 11 = false) (h18 : s.stepRuns 18 = false) (h20 : s.stepRuns 20 = true)
    (hk : s.led.kind = .armature) : s.fullService = s.serviceSteps.serviceRestored.serviceBegun.startPushes := by
  have hr : s.serviceSteps.serviceRestored.led.kind = .armature := by
    rw [State.serviceRestored_frame _ .led rfl, State.serviceSteps_kind, hk]
  unfold State.fullService
  rw [State.firmwareRuns_idle h11, State.laterSteps_idle h18]
  refine (if_neg (by rw [h20]; decide)).trans ?_
  extract_lets a b c u e v g _ _ _ w
  have hu : u = s.serviceSteps := rfl
  have hv : v = u.serviceRestored := rfl
  clear_value u v
  rw [hu] at hv
  have hg : g = v := if_neg fun h => h.2 (hv ▸ hr)
  have hw : w = g.serviceBegun := rfl
  rw [hw, hg, hv]

theorem State.startPushes_dwell (s : State) : s.startPushes.boot.dwellRunning = s.boot.dwellRunning := by
  unfold State.startPushes
  split
  · rfl
  · refine List.foldlRecOn (motive := fun t : State => t.boot.dwellRunning = s.boot.dwellRunning) _ _ rfl fun t h n _ => ?_
    extract_lets _ u
    have hu : u.boot.dwellRunning = s.boot.dwellRunning := h
    clear_value u
    split
    · split
      · exact hu
      · exact hu
    · exact hu

theorem fullServiceReported_armature (hi : s.imageRuns = true) (h11 : s.stepRuns 11 = false) (h18 : s.stepRuns 18 = false)
    (h20 : s.stepRuns 20 = true) (hk : s.led.kind = .armature) : Completes .fullServiceReported s fun t =>
      t.boot.dwellRunning = true ∧ t.cool = { s.cool with
        suspended := false, hold := false, wdtAt := if s.cool.suspended then s.plinth else s.cool.wdtAt } ∧
      t.pair = { s.pair with yielding := false } ∧ t.stepOf 20 = (s.stepOf 20).map fun x => x.ended .ok none s.plinth := by
  have he : exec .fullServiceReported s = .next s.fullService := fwDo_on hi
  rw [State.fullService_armature h11 h18 h20 hk] at he
  have hs := State.serviceSteps_stepOf h20
  have h1 := s.serviceSteps_frame
  generalize s.serviceSteps = u at he hs h1
  have h2 := u.serviceRestored_frame
  generalize u.serviceRestored = v at he h2
  have h3 : v.serviceBegun.onlyChanges [.boot, .out] v.serviceBegun.startPushes := (State.startPushes_touches rfl (.refl _ _)).only
  have hd := v.serviceBegun.startPushes_dwell
  have hb : v.serviceBegun.stepOf 20 = v.stepOf 20 := rfl
  refine completes_of he ⟨hd, ?_, ?_, ?_⟩
  · rw [h3 .cool rfl, State.serviceBegun, h2 .cool rfl, h2 .plinth rfl, h1 .cool rfl, h1 .plinth rfl]
  · rw [h3 .pair rfl, State.serviceBegun, h2 .pair rfl, h1 .pair rfl]
  · rw [State.stepOf_congr (h3 .led rfl), hb, State.stepOf_congr (h2 .led rfl), hs]

end Service

/-! ## Deferred blocks and the debug nonce (R121, R128, R142) -/

section Reports
variable {s : State}

theorem deferredBlockCheck_differs {im : RunImage} {b : Nat} {data : Bytes} (hi : s.imageRuns = true) (hr : s.boot.run = some im)
    (hb : im.loadBlocks ≤ b) (hd : some (Config.sha384 data) ≠ im.hashes[b]?) : Completes (.deferredBlockCheck b data) s fun t =>
      t.boot = { s.boot with deferredFail := true, healthy := false } ∧ s.onlyChanges [.boot, .evt] t := by
  have he : exec (.deferredBlockCheck b data) s =
      .next (({ s with boot := { s.boot with deferredFail := true, healthy := false } } : State).event 2 121 b 0) := by
    refine (exec_gated rfl hi).trans (congrArg _ ?_)
    beta_reduce
    rw [hr]
    exact if_neg fun h => h.elim (Nat.not_lt.2 hb) hd
  exact completes_of he ⟨State.event_frame _ 2 121 b 0 .boot rfl, only_of (execDeferredBlockCheck_touches rfl (.refl _ s)) he⟩

theorem deferredBlockCheck_agrees {im : RunImage} {b : Nat} {data : Bytes} (hi : s.imageRuns = true) (hr : s.boot.run = some im)
    (hd : some (Config.sha384 data) = im.hashes[b]?) : Completes (.deferredBlockCheck b data) s fun t => t = s := by
  refine completes_of ((exec_gated rfl hi).trans (congrArg _ ?_)) rfl
  beta_reduce
  rw [hr]
  exact if_pos (.inr hd)

theorem commitDwellExpiry_healthy (hc : s.pwr.core = true) (hd : s.boot.dwellRunning = true) (hf : s.boot.deferredFail = false) :
    Completes .commitDwellExpiry s fun t => t = { s with boot := { s.boot with healthy := true, dwellRunning := false } } :=
  completes_gated rfl hc (if_pos (by rw [hd, hf]; rfl))

theorem debugNonceRead_given (p : Path) {prin : Nat} (hc : s.pwr.core = true) (hm : s.may prin .read = true) :
    Completes (.debugNonceRead p prin) s fun t =>
      t.boot = { s.boot with nonce := Config.freshNonce s.fresh, nonceLive := true } ∧ t.fresh = s.fresh + 1 ∧
      t.out = .read p 0x21040 (BitVec.ofNat 32 (Config.freshNonce s.fresh).toNat) :: s.out ∧
      s.onlyChanges [.boot, .fresh, .acc, .out] t := by
  have he : exec (.debugNonceRead p prin) s = .next
      ((s.nonceLatch p).emit (.read p 0x21040 (BitVec.ofNat 32 (s.nonceLatch p).boot.nonce.toNat))) :=
    (exec_gated rfl hc).trans (congrArg _ (if_pos hm))
  exact completes_of he ⟨rfl, rfl, rfl, only_of (execDebugNonceRead_touches rfl (.refl _ s)) he⟩

/-- A read of DEBUG_NONCE without READ: 0, and READ_REFUSED at the path's block (R128, R498). -/
def State.nonceRefused (s : State) (p : Path) : State :=
  ({ s with acc := Tbl.set s.acc (16 * p.idx + 2) { (Tbl.get {} s.acc (16 * p.idx + 2) : PathBlock) with
    status := setBit (Tbl.get {} s.acc (16 * p.idx + 2) : PathBlock).status 9 true } } : State).emit (.read p 0x21040 0)

theorem debugNonceRead_refused (p : Path) {prin : Nat} (hc : s.pwr.core = true) (hm : s.may prin .read = false) :
    Completes (.debugNonceRead p prin) s fun t =>
      t.out = .read p 0x21040 0 :: s.out ∧ t.boot = s.boot ∧ s.onlyChanges [.acc, .out] t := by
  have he : exec (.debugNonceRead p prin) s = .next (s.nonceRefused p) :=
    (exec_gated rfl hc).trans (congrArg _ (if_neg (by rw [hm]; decide)))
  exact completes_of he ⟨rfl, rfl, (State.emit_touches rfl (.updAcc rfl (.refl _ s))).only⟩

end Reports

/-- Settles O4: each command by the lemma of what it carries out where nothing of an earlier step is left to end. -/
theorem firmwareStepsTakeEffect : Obligations.FirmwareStepsTakeEffect := fun _ =>
  ⟨fun _ ok _ mr rate cap ser hc h11 h15 hk => dimmTrainingDone_step ok mr rate cap ser hc h11 h15 hk,
    fun _ ok mr rate cap ser hc h11 h15 ht hw ho hk => dimmTrainingDone_otherSerial ok mr rate cap ser hc h11 h15 ht hw ho hk,
    fun _ ok mr rate cap ser hc h11 h15 ht => dimmTrainingDone_silent ok mr rate cap ser hc h11 h15 ht,
    journalRecovery_powerOn, caliperSelfTest_passes, siteImageDigestCheck_effect, fullServiceReported_armature,
    fun _ _ _ hi hr hb hd => deferredBlockCheck_differs hi hr hb hd, fun _ _ _ hi hr hd => deferredBlockCheck_agrees hi hr hd,
    commitDwellExpiry_healthy, fun p _ hc hm => debugNonceRead_given p hc hm, fun p _ hc hm => debugNonceRead_refused p hc hm,
    fun hc => completes_gated rfl hc rfl⟩

end Sys2Proof.Machine
end

section
/-!
SUPPORT. Update operations: their gates when they stand open, how one fails, and how a streaming operation begins and ends (R118, R127,
R129, R130, R144).
-/
namespace Sys2Proof.Machine

/-! ## The gates of an operation (R129, R130, R135) -/

section Gates

variable {s : State} {r : Req} {op num : Nat} {f : State → State}

/-- An update operation of a principal with the update right, once an image runs. -/
theorem exec_updRight {c : Instr} {t d : State} {b m : Bool} (he : exec c s = .next (if b then (if m then t else d) else s))
    (hb : b = true) (hm : m = true) : exec c s = .next t := by
  rw [he, if_pos hb, if_pos hm]

theorem State.notPlaster_on (h : s.boot.slot ≠ 2) : s.notPlaster r op num f = f s := if_neg h

theorem State.opDo_on (h : s.opRefusal = none) : s.opDo r op num f = f s := by
  rw [State.opDo, h]

theorem State.updDo_on (h : s.updRefusal = none) : s.updDo r op num f = f s := by
  rw [State.updDo, h]

/-- What may write flash may be carried out at all (R127, R129). -/
theorem State.opRefusal_none (h : s.updRefusal = none) : s.opRefusal = none := by
  unfold State.updRefusal at h
  split at h
  · cases h
  · assumption

/-- An operation that is not refused stands beside no streaming one (R129). -/
theorem State.upd_none (h : s.updRefusal = none) : s.boot.upd = none := by
  have free : s.updBusy = false := by
    cases hb : s.updBusy with
    | false => rfl
    | true =>
      have := State.opRefusal_none h
      rw [State.opRefusal, if_pos hb] at this
      cases this
  rw [State.updBusy, Bool.or_eq_false_iff, Option.isSome_eq_false_iff, Option.isNone_iff_eq_none] at free
  exact free.1

/-- Armature firmware that serves is an image that runs and is not Plaster (R104, R135). -/
theorem State.armServes_iff : s.armServes = true ↔ s.imageRuns = true ∧ s.boot.slot ≠ 2 := by
  rw [State.armServes, Bool.and_eq_true, decide_eq_true_eq]

end Gates

/-! ## Completions and failures (R144, R508) -/

section Ends

variable (s : State) (r : Req) (op num code detail : Nat)

theorem State.complete_frame (st d v : Nat) : s.onlyChanges [.mem, .ques, .ebx, .evt, .dram, .out] (s.complete r st d v) :=
  (State.complete_touches rfl (.refl _ s)).only

/-- What is answered from a state that has given nothing out since `s` is answered from `s`. -/
theorem State.answers_of_silent {s u t : State} {q : Req} {st d v : Nat} (ho : u.out = s.out) (h : u.answers t q st d v) :
    s.answers t q st d v := State.answers_of_grows (State.grows_refl ho) h

/-- Its status and number stand in UPDATE_STATUS (R508). -/
def State.updNoted : State :=
  { s with boot := { s.boot with updStatus := code * 2 ^ 24 + op % 256 * 2 ^ 16 + num % 65536 } }

theorem State.updFail_eq : s.updFail r op num code detail = ((s.updNoted op num code).event 2 144 num code).complete r code detail 0 := rfl

/-- A failed operation changes the boot block in UPDATE_STATUS alone, and nothing else but what its event and its completion take. -/
theorem State.updFail_frame : (s.updNoted op num code).onlyChanges [.mem, .ques, .ebx, .evt, .dram, .out]
    (s.updFail r op num code detail) :=
  (State.complete_touches rfl (State.event_touches rfl (.refl _ (s.updNoted op num code)))).only

theorem State.updFail_answers : s.answers (s.updFail r op num code detail) r code (detail % 2 ^ 32) 0 :=
  State.answers_of_silent (u := (s.updNoted op num code).event 2 144 num code) (State.event_frame _ 2 144 num code .out rfl)
    (State.complete_answers _ r code detail 0)

theorem State.updFail_boot : (s.updFail r op num code detail).boot = (s.updNoted op num code).boot :=
  s.updFail_frame r op num code detail .boot rfl

end Ends

/-! ## What goes out stays, whatever the Maquette load queue does (R80, R127) -/

section Waiters

variable (s : State) (q : Req) (e : Bytes) (src : Option Bytes)

theorem State.grows_ite {s a b : State} {c : Prop} [Decidable c] (ha : s.grows a) (hb : s.grows b) : s.grows (if c then a else b) := by
  split <;> assumption

theorem State.grows_maqDone (st p d : Nat) : s.grows (s.maqDone q st p d) := (s.maqDone_answers q st p d).grows

theorem State.grows_maqStore : s.grows (s.maqStore q e src) := by
  refine State.grows_ite (s.grows_maqDone q ..) (State.grows_ite (s.grows_maqDone q ..) (State.grows_ite (s.grows_maqDone q ..) ?_))
  split
  · exact s.grows_maqDone q ..
  · exact State.grows_refl rfl

theorem State.grows_maqSwitch : s.grows (s.maqSwitch q e) :=
  State.grows_ite (s.grows_maqDone q ..) (State.grows_ite (s.grows_maqDone q ..) (State.grows_ite (s.grows_maqDone q ..)
    (State.grows_trans (Onward.pendTold s 0x33).out (State.grows_refl rfl))))

theorem State.grows_maqSetMin : s.grows (s.maqSetMin q e) := by
  refine State.grows_ite (s.grows_maqDone q ..) (State.grows_ite (s.grows_maqDone q ..) (State.grows_ite (s.grows_maqDone q ..)
    (State.grows_ite (s.grows_maqDone q ..) ?_)))
  have written := s.writeRevmin_frame s.ob.revoked.toNat s.ob.minFw (u32 e 0x18) s.ob.minSite .out rfl
  exact State.grows_ite (State.grows_trans (State.grows_refl written) (State.grows_maqDone _ q ..))
    (State.grows_trans (State.grows_refl written) (State.grows_maqDone _ q ..))

theorem State.grows_maqServe : s.grows (s.maqServe q e src) := by
  refine State.grows_ite (State.grows_trans (State.grows_refl (s.deniedRec_frame q.path q.principal .out rfl))
    (State.grows_maqDone _ q ..)) ?_
  split
  · exact s.grows_maqDone q ..
  · dsimp only
    split
    · exact s.grows_maqStore q e src
    · exact s.grows_maqSwitch q e
    · exact (s.maqCancel_effect q).2.1.grows
    · exact State.grows_refl rfl
    · exact s.grows_maqSetMin q e
    · exact State.grows_refl rfl

theorem State.grows_maqServeAll (s : State) (l : List (Req × Bytes × Option Bytes)) : s.grows (s.maqServeAll l) := by
  induction l generalizing s with
  | nil => exact State.grows_refl rfl
  | cons x l ih => exact State.grows_ite (State.grows_refl rfl) (State.grows_trans (s.grows_maqServe ..) (ih _))

/-- The commands that waited for the protected writer leave the boot block alone and take nothing back that went out (R127). -/
theorem State.protFree_keeps : s.protFree.boot = s.boot ∧ s.grows s.protFree :=
  ⟨(State.protFree_touches (ps := Part.others.erase .boot) rfl (.refl _ s)).only .boot rfl,
    State.grows_ite (s.grows_maqServeAll _) (State.grows_refl rfl)⟩

/-- With none waiting there is nothing that the protected writer lets go. -/
theorem State.protFree_idle {s : State} (h : s.maq.waiting = []) : s.protFree = s := if_neg (by simp [h])

end Waiters

/-! ## A streaming operation begins (R118, R129) -/

section Begin

variable {s : State} {r : Req} {e : Bytes} {src : Option Bytes} {op typ size target off dev : Nat} {v : Option Nat} {b : Bytes}

/-- The operation that streams an image into a target whose two places stand at an offset. -/
def State.newStream (s : State) (r : Req) (op target off : Nat) (b : Bytes) : UpdOp :=
  { op := op, req := r, target := target, image := b, count := s.nextCount off }

/-- An image that passes its checks starts to stream: its record sector is erased (R118). -/
theorem State.streamBegin_begins (hs : s.boot.slot ≠ 2) (hu : s.updRefusal = none) (hb : s.source (u64 e 0x10) (u32 e 0x18) src = some b)
    (hc : s.imgCheck b typ size v = none) (ho : (if op = 0x101 then slotOff else if op = 0x103 then plasterOff else storeOff target) = off)
    (hd : (s.newStream r op target off b).area.1 = dev) (ha : (s.newStream r op target off b).area.2.1 = off) :
    (s.streamBegin r e src op typ size target v).boot = { s.boot with upd := some (s.newStream r op target off b) } ∧
    (s.streamBegin r e src op typ size target v).isErased dev off 4096 = true ∧
    s.onlyChanges [.boot, .flash0, .flash1] (s.streamBegin r e src op typ size target v) := by
  let u : State := { s with boot := { s.boot with upd := some (s.newStream r op target off b) } }
  have h : s.streamBegin r e src op typ size target v =
      u.ferase (s.newStream r op target off b).area.1 (s.newStream r op target off b).area.2.1 4096 := by
    subst ho
    rw [State.streamBegin, State.notPlaster_on hs, State.updDo_on hu]
    split
    · next h =>
      rw [hb] at h
      cases h
    · next b' h =>
      obtain rfl : b = b' := Option.some.inj (hb.symm.trans h)
      rw [hc]
      rfl
  rw [hd, ha] at h
  have hf : Touches [.flash0, .flash1] u (u.ferase dev off 4096) := State.ferase_touches rfl (.refl _ u)
  rw [h]
  exact ⟨hf.only .boot rfl, u.ferase_isErased dev off (Nat.le_refl 4096), (State.ferase_touches rfl (.updBoot rfl (.refl _ s))).only⟩

/-- An image that fails a check is refused with its status (R130). -/
theorem State.streamBegin_refuses {c : Nat} (hs : s.boot.slot ≠ 2) (hu : s.updRefusal = none)
    (hb : s.source (u64 e 0x10) (u32 e 0x18) src = some b) (hc : s.imgCheck b typ size v = some c) :
    s.streamBegin r e src op typ size target v = s.updFail r op target c (if c = 0x11 then 0x18 else 0) := by
  rw [State.streamBegin, State.notPlaster_on hs, State.updDo_on hu, hb]
  dsimp only
  rw [hc]

end Begin

/-! ## A streaming operation ends (R127, R129, R144, R487) -/

section StreamEnd

variable {s : State} {u : UpdOp} {fe : FlashEnd}

/-- No operation streams any longer. -/
def State.streamless (s : State) : State := { s with boot := { s.boot with upd := none } }

/-- The copy in hand is left empty and the operation fails (R144). -/
def State.streamFails (s : State) (u : UpdOp) (num code : Nat) : State :=
  (s.streamless.ferase u.area.1 u.area.2.1 u.area.2.2).updFail u.req u.op num code 0

theorem State.streamFails_effect (s : State) (u : UpdOp) (num code : Nat) : (s.streamFails u num code).boot.upd = none ∧
    s.answers (s.streamFails u num code) u.req code 0 0 := by
  have hf : Touches [.flash0, .flash1] s.streamless (s.streamless.ferase u.area.1 u.area.2.1 u.area.2.2) :=
    State.ferase_touches rfl (.refl _ _)
  refine ⟨?_, State.answers_of_silent (hf.only .out rfl) (State.updFail_answers _ u.req u.op num code 0)⟩
  rw [State.streamFails, State.updFail_boot, State.updNoted, hf.only .boot rfl]
  rfl

/-- A block that does not match its hash is found before it is programmed (R127). -/
theorem State.streamEnd_bad {n : Nat} (h : imgBad u.image = some n) : s.streamEnd u fe = s.streamFails u n 0x17 := by
  unfold State.streamEnd
  rw [h]
  rfl

theorem State.streamEnd_fails (h : imgBad u.image = none) : s.streamEnd u .fails = s.streamFails u u.target 0x32 := by
  unfold State.streamEnd
  rw [h]
  rfl

theorem State.streamEnd_differs (n : Nat) (h : imgBad u.image = none) : s.streamEnd u (.differs n) = s.streamFails u n 0x17 := by
  unfold State.streamEnd
  rw [h]
  rfl

theorem State.updWrite_frame (s : State) (u : UpdOp) : s.onlyChanges [.flash0, .flash1] (s.updWrite u) :=
  (State.updWrite_touches rfl (.refl _ s)).only

/-- A copy is written, and no operation streams. -/
def State.copyStands (s : State) (u : UpdOp) : State := s.streamless.updWrite u

/-- A slot that is written counts anew among those that a start may choose (R101). -/
def State.slotFilled (s : State) (u : UpdOp) : State :=
  { s with led := { s.led with excluded := setBit s.led.excluded u.target false, slotRun := (3, 0) }
           boot := { s.boot with slotErr := Tbl.del s.boot.slotErr u.target } }

/-- Copy 1 is in hand. -/
def State.secondHeld (s : State) (u : UpdOp) : State :=
  { s with boot := { s.boot with upd := some { u with second := true, held := s.pins.eject } } }

/-- What follows a copy that is written: the only one of a slot, copy 1 of the other areas, or copy 0. -/
theorem State.streamEnd_written (h : imgBad u.image = none) : s.streamEnd u .ok =
    if u.op = 0x101 then ((s.copyStands u).slotFilled u).complete u.req 0 0 0
    else if u.second then (s.copyStands u).complete u.req 0 0 0
    else if (s.copyStands u).pins.eject then (s.copyStands u).secondHeld u
    else ((s.copyStands u).secondHeld u).ferase (UpdOp.area { u with second := true, held := (s.copyStands u).pins.eject }).1
      (UpdOp.area { u with second := true, held := (s.copyStands u).pins.eject }).2.1 4096 := by
  unfold State.streamEnd
  rw [h]
  rfl

theorem State.copyStands_keeps (s : State) (u : UpdOp) : (s.copyStands u).boot = { s.boot with upd := none } ∧
    Touches [.boot, .flash0, .flash1] s (s.copyStands u) :=
  ⟨s.streamless.updWrite_frame u .boot rfl, State.updWrite_touches rfl (.updBoot rfl (.refl _ s))⟩

/-- The last copy written ends the operation: a slot has one, the other areas have two (R129). -/
theorem State.streamEnd_last (h : imgBad u.image = none) (hl : u.op = 0x101 ∨ u.second = true) :
    (s.streamEnd u .ok).boot.upd = none ∧ s.answers (s.streamEnd u .ok) u.req 0 0 0 := by
  obtain ⟨hb, ht⟩ := s.copyStands_keeps u
  rw [State.streamEnd_written h]
  generalize s.copyStands u = w at hb ht
  have ends (t : State) (htu : t.boot.upd = none) (hto : t.out = s.out) :
      (t.complete u.req 0 0 0).boot.upd = none ∧ s.answers (t.complete u.req 0 0 0) u.req 0 0 0 :=
    ⟨(congrArg Boot.upd (t.complete_frame u.req 0 0 0 .boot rfl)).trans htu,
      State.answers_of_silent hto (t.complete_answers u.req 0 0 0)⟩
  by_cases ho : u.op = 0x101
  · rw [if_pos ho]
    exact ends (w.slotFilled u) (congrArg Boot.upd hb) (ht.only .out rfl)
  · rw [if_neg ho, if_pos (hl.resolve_left ho)]
    exact ends w (congrArg Boot.upd hb) (ht.only .out rfl)

/-- Of two copies, copy 1 is in hand once copy 0 stands; an ejecting module holds it back (R127, R487). -/
theorem State.streamEnd_next (h : imgBad u.image = none) (ho : u.op ≠ 0x101) (hs : u.second = false) :
    (s.streamEnd u .ok).boot = { s.boot with upd := some { u with second := true, held := s.pins.eject } } ∧
    s.onlyChanges [.boot, .flash0, .flash1] (s.streamEnd u .ok) := by
  obtain ⟨hb, ht⟩ := s.copyStands_keeps u
  rw [State.streamEnd_written h, if_neg ho, if_neg (by rw [hs]; decide)]
  generalize s.copyStands u = w at hb ht
  have held : (w.secondHeld u).boot = { s.boot with upd := some { u with second := true, held := s.pins.eject } } := by
    rw [State.secondHeld, hb, ht.only .pins rfl]
  have after {t : State} (hw : Touches [.flash0, .flash1] (w.secondHeld u) t) :
      t.boot = { s.boot with upd := some { u with second := true, held := s.pins.eject } } ∧ s.onlyChanges [.boot, .flash0, .flash1] t :=
    ⟨(hw.only .boot rfl).trans held, (Touches.trans (.updBoot rfl ht) (hw.mono rfl)).only⟩
  split
  · exact after (.refl _ _)
  · exact after (State.ferase_touches rfl (.refl _ _))

end StreamEnd

end Sys2Proof.Machine
end


section
/-!
SUPPORT. Update operations and site images: INSTALL_FW, UPDATE_PLASTER and STORE_SITE_IMAGE with the end of each copy, COMMIT_FW, the
pushes to sites, ACTIVATE_SITE, VERSION and HELLO (R129 to R131, R137 to R139, R144, R449, R450).
-/
namespace Sys2Proof.Machine

variable {s : State} {r : Req}

/-! ## Images that stream (R129, R130, R144) -/

section Stream

variable {e : Bytes} {src : Option Bytes} {b : Bytes}

theorem installFw_exec (ha : s.armServes = true) (hm : s.may r.principal .update = true) :
    exec (.installFw r e src) s = .next (s.streamBegin r e src 0x101 1 slotSize s.idleSlot (some s.ob.minFw)) :=
  exec_updRight rfl (State.armServes_iff.1 ha).1 hm

theorem updatePlaster_exec (ha : s.armServes = true) (hm : s.may r.principal .update = true) :
    exec (.updatePlaster r e src) s = .next (s.streamBegin r e src 0x103 2 plasterSize 0 none) :=
  exec_updRight rfl (State.armServes_iff.1 ha).1 hm

theorem storeSiteImage_exec (ha : s.armServes = true) (hm : s.may r.principal .update = true) (hn : u8 e 0x1C < 8) :
    exec (.storeSiteImage r e src) s =
      .next (s.streamBegin r e src 0x104 3 storeSize (u8 e 0x1C) (some s.ob.minSite)) :=
  (exec_updRight rfl (State.armServes_iff.1 ha).1 hm).trans (congrArg _ (if_neg (Nat.not_le.2 hn)))

/-- An image that fails a check begins nothing, and UPDATE_STATUS names the slot (R130, R144). -/
theorem State.installFw_refused {c : Nat} (ha : s.armServes = true) (hu : s.updRefusal = none)
    (hb : s.source (u64 e 0x10) (u32 e 0x18) src = some b) (hc : s.imgCheck b 1 slotSize (some s.ob.minFw) = some c) {t : State}
    (ht : t = s.streamBegin r e src 0x101 1 slotSize s.idleSlot (some s.ob.minFw)) :
    t.boot.upd = none ∧ t.boot.updStatus = c * 2 ^ 24 + 2 ^ 16 + s.idleSlot ∧ s.answers t r c (if c = 0x11 then 0x18 else 0) 0 := by
  rw [ht, State.streamBegin_refuses (State.armServes_iff.1 ha).2 hu hb hc, State.updFail_boot]
  have slot : s.idleSlot % 65536 = s.idleSlot := by
    unfold State.idleSlot
    split <;> rfl
  have detail : (if c = 0x11 then 0x18 else 0) % 2 ^ 32 = if c = 0x11 then 0x18 else 0 := by split <;> rfl
  refine ⟨State.upd_none hu, ?_, ?_⟩
  · show c * 2 ^ 24 + 2 ^ 16 + s.idleSlot % 65536 = _
    rw [slot]
  · have := s.updFail_answers r 0x101 s.idleSlot c (if c = 0x11 then 0x18 else 0)
    rwa [detail] at this

/-- The end of a copy, with neither Brace, hold-up nor an ejecting module in its way (R129, R130, R487). -/
theorem updateOperationDone_exec {u : UpdOp} (fe : FlashEnd) (hi : s.imageRuns = true) (hu : s.boot.upd = some u)
    (hb : s.brace = false) (hh : s.snap.holdup = false) (hj : (u.held && s.pins.eject) = false) :
    exec (.updateOperationDone fe) s = .next (s.streamEnd u fe).protFree := by
  refine (exec_gated rfl hi).trans (congrArg _ ?_)
  beta_reduce
  rw [hu]
  exact if_neg (by rw [hb, hh, hj]; decide)

theorem updateOperationDone_waits {u : UpdOp} (fe : FlashEnd) (hi : s.imageRuns = true) (hu : s.boot.upd = some u)
    (h : s.brace = true ∨ s.snap.holdup = true ∨ (u.held && s.pins.eject) = true) :
    Completes (.updateOperationDone fe) s fun t => t = s := by
  refine completes_of ((exec_gated rfl hi).trans (congrArg _ ?_)) rfl
  beta_reduce
  rw [hu]
  exact if_pos (by simpa [or_assoc] using h)

/-- An end that leaves no operation streaming, and its answer, outlast the commands that waited for the protected writer. -/
theorem State.ended_protFree {t : State} {q : Req} {st : Nat} (h : t.boot.upd = none ∧ s.answers t q st 0 0) :
    t.protFree.boot.upd = none ∧ s.answers t.protFree q st 0 0 :=
  ⟨(congrArg Boot.upd t.protFree_keeps.1).trans h.1, State.answers_then h.2 t.protFree_keeps.2⟩

theorem updateOperationDone_ends {u : UpdOp} (fe : FlashEnd) (hi : s.imageRuns = true) (hu : s.boot.upd = some u)
    (hb : s.brace = false) (hh : s.snap.holdup = false) (hj : (u.held && s.pins.eject) = false) :
    Completes (.updateOperationDone fe) s fun t =>
      (imgBad u.image = none → fe = .ok → u.op = 0x101 ∨ u.second = true → t.boot.upd = none ∧ s.answers t u.req 0 0 0) ∧
      (imgBad u.image = none → fe = .ok → u.op ≠ 0x101 → u.second = false →
        t.boot = { s.boot with upd := some { u with second := true, held := s.pins.eject } } ∧
        (s.maq.waiting = [] → s.onlyChanges [.boot, .flash0, .flash1] t)) ∧
      (imgBad u.image = none → fe = .fails → t.boot.upd = none ∧ s.answers t u.req 0x32 0 0) ∧
      (∀ n, imgBad u.image = none → fe = .differs n → t.boot.upd = none ∧ s.answers t u.req 0x17 0 0) ∧
      ((imgBad u.image).isSome = true → t.boot.upd = none ∧ s.answers t u.req 0x17 0 0) := by
  refine completes_of (updateOperationDone_exec fe hi hu hb hh hj) ⟨?_, ?_, ?_, ?_, ?_⟩
  · rintro h rfl hl
    exact State.ended_protFree (State.streamEnd_last h hl)
  · rintro h rfl ho hs
    obtain ⟨hboot, hframe⟩ := State.streamEnd_next (s := s) h ho hs
    refine ⟨(State.protFree_keeps _).1.trans hboot, fun hw => ?_⟩
    have idle : (s.streamEnd u .ok).maq.waiting = [] := by rw [hframe .maq rfl, hw]
    rwa [State.protFree_idle idle]
  · rintro h rfl
    rw [State.streamEnd_fails h]
    exact State.ended_protFree (s.streamFails_effect ..)
  · rintro n h rfl
    rw [State.streamEnd_differs n h]
    exact State.ended_protFree (s.streamFails_effect ..)
  · intro h
    obtain ⟨n, hn⟩ := Option.isSome_iff_exists.1 h
    rw [State.streamEnd_bad hn]
    exact State.ended_protFree (s.streamFails_effect ..)

end Stream

/-! ## COMMIT_FW (R131) -/

section Commit

variable {im : RunImage}

/-- The running image's version becomes the minimum, and the record is written (R114, R131). -/
def State.minFwRaised (s : State) (im : RunImage) : State :=
  { (s.writeRevmin s.ob.revoked.toNat im.version s.ob.minStruct s.ob.minSite).1 with
    ob := { (s.writeRevmin s.ob.revoked.toNat im.version s.ob.minStruct s.ob.minSite).1.ob with minFw := im.version } }

theorem State.minFwRaised_keeps (s : State) (im : RunImage) : (s.minFwRaised im).ob = { s.ob with minFw := im.version } ∧
    (s.minFwRaised im).out = s.out := by
  have frame := s.writeRevmin_frame s.ob.revoked.toNat im.version s.ob.minStruct s.ob.minSite
  refine ⟨?_, frame .out rfl⟩
  rw [State.minFwRaised, frame .ob rfl]

theorem commitFw_exec (hi : s.imageRuns = true) (hm : s.may r.principal .update = true) (hr : s.boot.run = some im)
    (hu : s.updRefusal = none) (hh : s.boot.healthy = true) (hs : s.boot.slot ≠ 2) (hd : s.log.devFailed = 0) :
    exec (.commitFw r) s = .next (if im.version ≤ s.ob.minFw then s.complete r 0 0 0 else (s.minFwRaised im).complete r 0 0 0) := by
  refine (exec_updRight rfl hi hm).trans (congrArg _ ?_)
  beta_reduce
  rw [State.opDo_on (State.opRefusal_none hu), hr]
  refine (if_neg (by simp [hh, hs])).trans (ite_congr rfl (fun _ => rfl) fun _ => ?_)
  rw [State.updDo_on hu]
  exact if_pos (State.writeRevmin_written _ _ _ _ hd)

/-- A commit is done at once where the minimum stands as high already; otherwise it raises it (R131). -/
theorem commitFw_effect (hi : s.imageRuns = true) (hm : s.may r.principal .update = true) (hr : s.boot.run = some im)
    (hu : s.updRefusal = none) (hh : s.boot.healthy = true) (hs : s.boot.slot ≠ 2) (hd : s.log.devFailed = 0) :
    Completes (.commitFw r) s fun t => s.answers t r 0 0 0 ∧ t.ob = { s.ob with minFw := max s.ob.minFw im.version } := by
  refine completes_of (commitFw_exec hi hm hr hu hh hs hd) ?_
  split
  · next h =>
    rw [Nat.max_eq_left h]
    exact ⟨s.complete_answers r 0 0 0, s.complete_frame r 0 0 0 .ob rfl⟩
  · next h =>
    rw [Nat.max_eq_right (by omega)]
    obtain ⟨hob, hout⟩ := s.minFwRaised_keeps im
    exact ⟨State.answers_of_silent hout (State.complete_answers _ r 0 0 0), (State.complete_frame _ r 0 0 0 .ob rfl).trans hob⟩

end Commit

/-! ## Pushes to sites (R137, R138) -/

section Push

variable {n : Nat}

/-- A push of the controller's own goes on as a command's. -/
def State.pushJoined (s : State) (r : Req) (n : Nat) : State :=
  { s with boot := { s.boot with pushes := s.boot.pushes.map fun p => if p.site = n then { p with req := some r } else p } }

theorem pushSite_exec (ha : s.armServes = true) (hm : s.may r.principal .update = true) (hu : s.updRefusal = none) (hn : n < 8) :
    exec (.pushSite r n) s = .next (if s.boot.pushes.any fun p => p.site == n then s.pushJoined r n
      else (s.matchingEntry n).elim (s.updFail r 0x105 n 0x49 0) fun x => s.startPush n x (some r)) := by
  obtain ⟨hi, hs⟩ := State.armServes_iff.1 ha
  refine (exec_updRight rfl hi hm).trans (congrArg _ ?_)
  beta_reduce
  rw [if_neg (Nat.not_le.2 hn), State.notPlaster_on hs, State.updDo_on hu]
  refine ite_congr rfl (fun _ => rfl) fun _ => ?_
  cases s.matchingEntry n <;> rfl

theorem pushSite_joins (ha : s.armServes = true) (hm : s.may r.principal .update = true) (hu : s.updRefusal = none) (hn : n < 8)
    (hp : (s.boot.pushes.any fun p => p.site == n) = true) : Completes (.pushSite r n) s fun t => t = s.pushJoined r n :=
  completes_of (pushSite_exec ha hm hu hn) (if_pos hp)

/-- A push begins where an entry matches the site, and is refused where none does (R137; log 24). -/
theorem pushSite_begins (ha : s.armServes = true) (hm : s.may r.principal .update = true) (hu : s.updRefusal = none) (hn : n < 8)
    (hp : (s.boot.pushes.any fun p => p.site == n) = false) : Completes (.pushSite r n) s fun t =>
    (∀ x, s.matchingEntry n = some x →
      t.boot = { s.boot with pushes := s.boot.pushes ++ [{ site := n, entry := x.1, req := some r
                                                           digest := manDigest (s.manifestAt x.2 (storeOff x.1)) }] } ∧
      t.out = .site 138 n (digestBytes (manDigest (s.manifestAt x.2 (storeOff x.1)))) :: s.out ∧ s.onlyChanges [.boot, .out] t) ∧
    (s.matchingEntry n = none → s.answers t r 0x49 0 0 ∧ t.boot.pushes = s.boot.pushes) := by
  refine completes_of ((pushSite_exec ha hm hu hn).trans (congrArg _ (if_neg (by rw [hp]; decide)))) ⟨fun x hx => ?_, fun hx => ?_⟩
  · rw [hx]
    exact ⟨rfl, rfl, (State.startPush_touches rfl (.refl _ s)).only⟩
  · rw [hx]
    exact ⟨s.updFail_answers r 0x105 n 0x49 0, (congrArg Boot.pushes (s.updFail_boot r 0x105 n 0x49 0) :)⟩

variable {p : Push}

/-- The push of a site is over. -/
def State.pushOver (s : State) (n : Nat) : State :=
  { s with boot := { s.boot with pushes := s.boot.pushes.filter fun p => p.site != n } }

/-- The push of a site is over, and SITE_PUSH_FAIL set (R138). -/
def State.pushFailed (s : State) (n : Nat) : State :=
  { s.pushOver n with boot := { (s.pushOver n).boot with pushFail := setBit s.boot.pushFail n true } }

theorem sitePushDone_exec (d : Option Digest) (hi : s.imageRuns = true) (hp : s.boot.pushes.find? (fun p => p.site == n) = some p)
    (hb : s.brace = false) : exec (.sitePushDone n d) s = .next
      (if d = some p.digest then p.req.elim (s.pushOver n) fun q => (s.pushOver n).complete q 0 0 0
       else if p.retried then p.req.elim ((s.pushFailed n).event 2 138 n 0) fun q => (s.pushFailed n).updFail q 0x105 n 0x32 0
       else { s with boot := { s.boot with
         pushes := { p with retried := true } :: s.boot.pushes.filter fun p => p.site != n } }) := by
  refine (exec_gated rfl hi).trans (congrArg _ ?_)
  beta_reduce
  rw [hp]
  refine (if_neg (by rw [hb]; decide)).trans ?_
  cases p.req <;> rfl

/-- A read-back of the digest ends the push; another is retried once, and then fails it (R138; log 80). -/
theorem sitePushDone_effect (hi : s.imageRuns = true) (hp : s.boot.pushes.find? (fun p => p.site == n) = some p) (hb : s.brace = false) :
    Completes (.sitePushDone n (some p.digest)) s (fun t =>
      t.boot = { s.boot with pushes := s.boot.pushes.filter fun p => p.site != n } ∧ ∀ q, p.req = some q → s.answers t q 0 0 0) ∧
    (∀ d, d ≠ some p.digest → p.retried = false → Completes (.sitePushDone n d) s (fun t => t = { s with boot := { s.boot with
      pushes := { p with retried := true } :: s.boot.pushes.filter fun p => p.site != n } })) ∧
    (∀ d, d ≠ some p.digest → p.retried = true → Completes (.sitePushDone n d) s (fun t =>
      t.boot.pushFail = setBit s.boot.pushFail n true ∧ t.boot.pushes = s.boot.pushes.filter (fun p => p.site != n) ∧
      ∀ q, p.req = some q → s.answers t q 0x32 0 0)) := by
  refine ⟨?_, fun d hd hr => ?_, fun d hd hr => ?_⟩
  · refine completes_of ((sitePushDone_exec _ hi hp hb).trans (congrArg _ (if_pos rfl))) ?_
    cases p.req with
    | none => exact ⟨rfl, fun q hq => by cases hq⟩
    | some q =>
      refine ⟨(s.pushOver n).complete_frame q 0 0 0 .boot rfl, fun q' hq => ?_⟩
      cases hq
      exact State.answers_of_silent (u := s.pushOver n) rfl ((s.pushOver n).complete_answers q 0 0 0)
  · refine completes_of ((sitePushDone_exec d hi hp hb).trans (congrArg _ ((if_neg hd).trans (if_neg ?_)))) rfl
    rw [hr]
    decide
  · refine completes_of ((sitePushDone_exec d hi hp hb).trans (congrArg _ ((if_neg hd).trans (if_pos hr)))) ?_
    cases p.req with
    | none =>
      have event := (s.pushFailed n).event_frame 2 138 n 0 .boot rfl
      exact ⟨congrArg Boot.pushFail event, congrArg Boot.pushes event, fun q hq => by cases hq⟩
    | some q =>
      have fails := (s.pushFailed n).updFail_boot q 0x105 n 0x32 0
      refine ⟨congrArg Boot.pushFail fails, congrArg Boot.pushes fails, fun q' hq => ?_⟩
      cases hq
      exact State.answers_of_silent (u := s.pushFailed n) rfl ((s.pushFailed n).updFail_answers q 0x105 n 0x32 0)

theorem sitePushDone_waits (d : Option Digest) (hi : s.imageRuns = true) (hb : s.brace = true) :
    Completes (.sitePushDone n d) s fun t => t = s := by
  refine completes_of ((exec_gated rfl hi).trans (congrArg _ ?_)) rfl
  beta_reduce
  split
  · rfl
  · exact if_pos hb

end Push

/-! ## ACTIVATE_SITE, VERSION and HELLO (R139, R449, R450) -/

section Report

variable {n : Nat} {e : Bytes}

theorem activateSite_effect (ha : s.armServes = true) (hm : s.may r.principal .update = true) (hn : n < 8) (hu : s.opRefusal = none)
    (ht : (s.site n).template ≠ 0xFF) : Completes (.activateSite r n) s fun t =>
      s.answers t r 0 0 0 ∧ s.sends t (.site 139 n []) ∧ t.boot = s.boot ∧ t.seq = s.seq := by
  obtain ⟨hi, hs⟩ := State.armServes_iff.1 ha
  have he : exec (.activateSite r n) s = .next ((s.emit (.site 139 n [])).complete r 0 0 0) := by
    refine (exec_updRight rfl hi hm).trans (congrArg _ ?_)
    beta_reduce
    rw [if_neg (Nat.not_le.2 hn), State.notPlaster_on hs, State.opDo_on hu, if_neg ht]
  have done := (s.emit (.site 139 n [])).complete_answers r 0 0 0
  have frame := (s.emit (.site 139 n [])).complete_frame r 0 0 0
  obtain ⟨later, hl⟩ := done.grows
  exact completes_of he ⟨State.answers_of_grows ⟨[.site 139 n []], rfl⟩ done, ⟨later, [], hl⟩, frame .boot rfl, frame .seq rfl⟩

theorem versionReport_effect (hi : s.imageRuns = true) (hm : s.may r.principal .update = true) (hu : s.opRefusal = none)
    (hl : 64 ≤ u32 e 0x18) (hg : s.canGive (u64 e 0x10) 64 = none) : Completes (.versionReport r e) s fun t =>
      t = (s.give (u64 e 0x10) s.versionReport).complete r 0 0 0 ∧ s.answers t r 0 0 0 := by
  have he : exec (.versionReport r e) s = .next ((s.give (u64 e 0x10) s.versionReport).complete r 0 0 0) := by
    refine (exec_updRight rfl hi hm).trans (congrArg _ ?_)
    beta_reduce
    rw [State.opDo_on hu, if_neg (Nat.not_lt.2 hl), hg]
  exact completes_of he ⟨rfl, State.answers_of_grows (s.grows_give (u64 e 0x10) s.versionReport) (State.complete_answers _ r 0 0 0)⟩

/-- HELLO notes the session and answers with the running image's interface version (R450). -/
theorem helloSession_effect (hi : s.imageRuns = true) : Completes (.helloSession r e) s fun t =>
    t.boot = { s.boot with sessions := Tbl.set s.boot.sessions r.principal (u16 e 0x10) } ∧
    ∃ v, s.answers t r 0 ((s.boot.run.elim 0 RunImage.ifVersion) % 2 ^ 32) v := by
  let u : State := { s with boot := { s.boot with sessions := Tbl.set s.boot.sessions r.principal (u16 e 0x10) } }
  exact completes_of (exec_gated rfl hi)
    ⟨u.complete_frame r 0 _ _ .boot rfl, _, State.answers_of_silent (u := u) rfl (u.complete_answers r 0 _ _)⟩

end Report

/-- Settles O5: a streaming command by what begins or refuses its image, every other by the lemma of what it carries out. That a push
failing twice completes 0x32 and one without a matching entry 0x49 are the model's choices (logs 80 and 24). -/
theorem updateOperationsTakeEffect : Obligations.UpdateOperationsTakeEffect := by
  intro s r
  refine ⟨fun e src ha hm hu => ⟨?_, ?_, fun hn => ?_⟩, fun u fe hi ho hb hh hj => updateOperationDone_ends fe hi ho hb hh hj,
    fun u fe hi ho h => updateOperationDone_waits fe hi ho h,
    fun im hi hm hr hu hh hs hd => commitFw_effect hi hm hr hu hh hs hd, fun n ha hm hu hn hp => pushSite_joins ha hm hu hn hp,
    fun n ha hm hu hn hp => pushSite_begins ha hm hu hn hp, fun n p hi hp hb => sitePushDone_effect hi hp hb,
    fun n d hi hb => sitePushDone_waits d hi hb, fun n ha hm hn hu ht => activateSite_effect ha hm hn hu ht,
    fun e hi hm hu hl hg => versionReport_effect hi hm hu hl hg, fun e hi => helloSession_effect hi⟩
  · exact completes_of (installFw_exec ha hm) fun b hb => ⟨fun hc => State.streamBegin_begins (State.armServes_iff.1 ha).2 hu hb hc rfl rfl rfl,
      fun c hc => State.installFw_refused ha hu hb hc rfl⟩
  · exact completes_of (updatePlaster_exec ha hm) fun b hb hc =>
      State.streamBegin_begins (State.armServes_iff.1 ha).2 hu hb hc rfl rfl rfl
  · exact completes_of (storeSiteImage_exec ha hm hn) fun b hb hc =>
      State.streamBegin_begins (State.armServes_iff.1 ha).2 hu hb hc rfl rfl rfl

end Sys2Proof.Machine
end


section
/-!
SUPPORT. Control records: what passes their check, the protected writer's two copies, and the gate that each kind goes through (R113, R114,
R127, R132, R144).
-/
namespace Sys2Proof.Machine

/-! ## Fields -/

theorem leNat_lt (b : Bytes) : leNat b < 256 ^ b.length := by
  induction b with
  | nil => exact Nat.one_pos
  | cons x b ih =>
    have hx : x.toNat < 256 := x.isLt
    rw [leNat, List.length_cons, Nat.pow_succ]
    omega

/-- A field of `n` bytes is below 256 to the `n`. -/
theorem le_lt (b : Bytes) (o n : Nat) : le b o n < 256 ^ n :=
  Nat.lt_of_lt_of_le (leNat_lt _) (Nat.pow_le_pow_right (by decide) (List.length_take_le n _))

theorem slice_length {b : Bytes} {o n : Nat} (h : o + n ≤ b.length) : (slice b o n).length = n := by
  rw [slice, List.length_take, List.length_drop]
  omega

theorem digestBytes_len (d : Digest) : (digestBytes d).length = 48 := leBytes_length 48 _

/-! ## Two copies of a protected record (R127) -/

section Copies

variable {s : State} {off : Nat} {b : Bytes}

/-- What a flash range reads is what the device holds. -/
theorem State.fread_congr {t : State} (h0 : t.flash0 = s.flash0) (h1 : t.flash1 = s.flash1) : t.fread = s.fread := by
  funext dev off n
  unfold State.fread State.flash
  rw [h0, h1]

theorem State.fread_length (s : State) (dev off n : Nat) : (s.fread dev off n).length = n := by
  simp only [State.fread, Memory.getAll, List.length_map, List.length_range]

/-- What is programmed at the start of an erased range reads back. -/
theorem State.fread_fstore_take (s : State) (dev : Nat) {k n : Nat} (hk : k ≤ b.length) (hn : b.length ≤ n) :
    (s.fstore dev off n b).fread dev off k = b.take k := by
  unfold State.fread State.fstore State.fwrite State.ferase
  rw [State.flash_setFlash, State.flash_setFlash]
  refine List.ext_getElem (by simp [Memory.getAll, hk]) fun i h1 h2 => ?_
  have hi : i < b.length := by
    simp only [List.length_take] at h2
    omega
  simp only [Memory.getAll, List.getElem_map, List.getElem_range, List.getElem_take]
  refine Memory.get_putAll_absent (fun c hc => ?_) hi
  have := (List.mem_filter.1 hc).2
  simp only [Bool.or_eq_true, decide_eq_true_eq] at this
  omega

/-- The copy of one device stands while the other's is written. -/
theorem State.fread_fstore_one (s : State) (n k : Nat) : (s.fstore 1 off n b).fread 0 off k = s.fread 0 off k := rfl

theorem State.fread_fstore_zero (s : State) (n k : Nat) : (s.fstore 0 off n b).fread 1 off k = s.fread 1 off k := rfl

/-- With both devices answering, both copies are written, and both read back. -/
theorem State.protWrite_written (g : Nat × Nat) (hd : s.log.devFailed = 0) (hb : b.length ≤ 4096) : (s.protWrite g off b).2 = true ∧
    ∀ k, k ≤ b.length → (s.protWrite g off b).1.fread 0 off k = b.take k ∧ (s.protWrite g off b).1.fread 1 off k = b.take k := by
  have both (d : Nat) (h : d = 0 ∨ d = 1) (k : Nat) (hk : k ≤ b.length) :
      ((s.fstore d off 4096 b).fstore (1 - d) off 4096 b).fread 0 off k = b.take k ∧
      ((s.fstore d off 4096 b).fstore (1 - d) off 4096 b).fread 1 off k = b.take k := by
    obtain rfl | rfl := h
    · exact ⟨(State.fread_fstore_one _ _ k).trans (s.fread_fstore_take 0 hk hb), State.fread_fstore_take _ 1 hk hb⟩
    · exact ⟨State.fread_fstore_take _ 0 hk hb, (State.fread_fstore_zero _ _ k).trans (s.fread_fstore_take 1 hk hb)⟩
  unfold State.protWrite
  extract_lets d
  have hd' : d = 0 ∨ d = 1 := by
    by_cases h : g.2 < g.1
    · exact .inr (if_pos h)
    · exact .inl (if_neg h)
  clear_value d
  rw [hd, if_neg (by simp), if_neg (by simp)]
  exact ⟨rfl, both d hd'⟩

/-- With a device failed the write ends before its second copy (R192). -/
theorem State.protWrite_unwritten (g : Nat × Nat) (hd : s.log.devFailed ≠ 0) : (s.protWrite g off b).2 = false := by
  have one : ∀ x : BitVec 2, x ≠ 0 → x.getLsbD 0 = true ∨ x.getLsbD 1 = true := by decide
  unfold State.protWrite
  extract_lets d
  split
  · rfl
  · next h0 =>
    refine congrArg Prod.snd (if_pos ?_)
    by_cases h : g.2 < g.1
    · have hd1 : d = 1 := if_pos h
      rw [hd1] at h0 ⊢
      exact (one _ hd).resolve_right h0
    · have hd0 : d = 0 := if_neg h
      rw [hd0] at h0 ⊢
      exact (one _ hd).resolve_left h0

theorem State.protWrite_frame (s : State) (g : Nat × Nat) (off : Nat) (b : Bytes) :
    s.onlyChanges [.flash0, .flash1] (s.protWrite g off b).1 :=
  (State.protWrite_touches rfl (.refl _ s)).only

end Copies

/-! ## A record's check (R132) -/

section Record

variable {s : State} {r : Req} {b : Bytes} {c : Instr} {kind : Nat} {any : Bool} {f : State → Bytes → State}
  {o : Host.Outcome State Fault Refusal}

/-- A record that passes has the body that its kind asks for. -/
theorem State.crBody_length {n : Nat} (hc : s.crCheck b = none) (hn : crLen (u8 b 6) = some n) : (crBody b).length = n := by
  unfold State.crCheck at hc
  split at hc
  · cases hc
  · rw [hn] at hc
    dsimp only at hc
    split at hc
    · cases hc
    · next h =>
      rw [not_or, not_not, not_not] at h
      rw [crBody, h.1]
      exact slice_length (by rw [h.2]; omega)

/-- The right for a record: PRINCIPAL_SET asks for none (R471). -/
def State.mayRecord (s : State) (r : Req) (any : Bool) : Bool := any || s.may r.principal .update

/-- A record of the kind asked for is refused by its check, or carried out on its body. -/
theorem exec_record (ha : exec c s = o) (he : o = s.crDo r b kind any f) (hi : s.imageRuns = true) (hm : s.mayRecord r any = true)
    (hu : s.updRefusal = none) (hk : u8 b 6 = kind) :
    exec c s = .next ((s.crCheck b).elim (f s (crBody b)) fun x => s.updFail r 0x107 kind x 0) := by
  have right : ¬ ((!any && !s.may r.principal .update) = true) := by
    rw [← Bool.not_or, show (any || s.may r.principal .update) = true from hm]
    decide
  rw [ha, he, State.crDo, fwDo_on hi, if_neg right, State.updDo_on hu, if_neg (not_not.2 hk)]
  cases s.crCheck b <;> rfl

/-- One that passes is carried out. -/
theorem exec_passes {t : State} (ha : exec c s = o) (he : o = s.crDo r b kind any f) (hi : s.imageRuns = true) (hm : s.mayRecord r any = true)
    (hu : s.updRefusal = none) (hk : u8 b 6 = kind) (hc : s.crCheck b = none) (ht : f s (crBody b) = t) : exec c s = .next t := by
  rw [exec_record ha he hi hm hu hk, hc, ← ht]
  rfl

/-- From `s` to `t` an operation failed with a code: its request is answered, and but for UPDATE_STATUS nothing of the block has moved
except what the event and the completion take. -/
structure State.Refused (s t : State) (r : Req) (code : Nat) : Prop where
  answer : s.answers t r code 0 0
  frame : s.onlyChanges [.boot, .mem, .ques, .ebx, .evt, .dram, .out] t

theorem State.updFail_refused (s : State) (r : Req) (op num code : Nat) : s.Refused (s.updFail r op num code 0) r code :=
  ⟨s.updFail_answers r op num code 0, (State.updFail_touches rfl (.refl _ s)).only⟩

/-- What a command does, by the cases of its record's check. -/
theorem record_completes {p : Nat → State → Prop} {q : State → Prop} (ha : exec c s = o) (he : o = s.crDo r b kind any f)
    (hi : s.imageRuns = true) (hm : s.mayRecord r any = true) (hu : s.updRefusal = none) (hk : u8 b 6 = kind)
    (refused : ∀ x t, s.Refused t r x → p x t) (passes : ∀ t, s.crCheck b = none → exec c s = .next t → q t) :
    Completes c s fun t => (∀ x, s.crCheck b = some x → p x t) ∧ (s.crCheck b = none → q t) := by
  have h := exec_record ha he hi hm hu hk
  refine completes_of h ⟨fun x hx => ?_, fun hx => ?_⟩
  · rw [hx]
    exact refused x _ (s.updFail_refused r 0x107 kind x)
  · rw [hx] at h ⊢
    exact passes _ hx h

/-- A command has one next state. -/
theorem next_unique {t u : State} (ht : exec c s = .next t) (hu : exec c s = .next u) : t = u := Host.Outcome.next.inj (ht.symm.trans hu)

end Record

end Sys2Proof.Machine
end


section
/-!
SUPPORT. What each kind of control record does once its check passes (R128, R132 to R134, R471).
-/
namespace Sys2Proof.Machine

variable {s : State} {r : Req} {b : Bytes}

/-! ## REVOKE (R133) -/

section Revoke

/-- Key slots revoked as the record asks, the record in flash not yet written. -/
def State.revoking (s : State) (un : BitVec 6) : State := { s with ob := { s.ob with revoked := un } }

/-- The revocation and minimum-version record with these revocations. -/
def State.revokeWrite (s : State) (un : BitVec 6) : State × Bool :=
  (s.revoking un).writeRevmin un.toNat s.ob.minFw s.ob.minStruct s.ob.minSite

/-- The revocations are in force, for the active structure's key too (R59). -/
def State.revokeDone (s : State) (un : BitVec 6) : State :=
  { (s.revokeWrite un).1 with maq := { (s.revokeWrite un).1.maq with keyRevoked := (s.revokeWrite un).1.activeKeyRevoked }
                              ob := { (s.revokeWrite un).1.ob with keyWritten := none } }

/-- The revocations are not in force, since their record is not written. -/
def State.revokeUndone (s : State) (un : BitVec 6) : State := { (s.revokeWrite un).1 with ob := s.ob }

theorem State.revokeWrite_frame (s : State) (un : BitVec 6) : (s.revoking un).onlyChanges [.flash0, .flash1] (s.revokeWrite un).1 :=
  (s.revoking un).writeRevmin_frame un.toNat s.ob.minFw s.ob.minStruct s.ob.minSite

theorem State.revokeWrite_written (s : State) (un : BitVec 6) (hd : s.log.devFailed = 0) : (s.revokeWrite un).2 = true :=
  State.writeRevmin_written (s := s.revoking un) un.toNat s.ob.minFw s.ob.minStruct s.ob.minSite hd

theorem State.revokeWrite_unwritten (s : State) (un : BitVec 6) (hd : s.log.devFailed ≠ 0) : ¬ (s.revokeWrite un).2 = true := by
  unfold State.revokeWrite State.writeRevmin
  rw [State.protWrite_unwritten (s := s.revoking un) _ hd]
  decide

theorem State.revokeDone_out (s : State) (un : BitVec 6) : (s.revokeDone un).out = s.out := s.revokeWrite_frame un .out rfl

theorem State.revokeUndone_out (s : State) (un : BitVec 6) : (s.revokeUndone un).out = s.out := s.revokeWrite_frame un .out rfl

theorem State.revokeDone_ob (s : State) (un : BitVec 6) : (s.revokeDone un).ob = { s.ob with revoked := un, keyWritten := none } := by
  rw [State.revokeDone, s.revokeWrite_frame un .ob rfl]
  rfl

variable {un : BitVec 6} (hi : s.imageRuns = true) (hm : s.may r.principal .update = true) (hu : s.updRefusal = none)
  (hk : u8 b 6 = 1) (hc : s.crCheck b = none) (hb : u8 (crBody b) 0 < 64) (hz : zeroAt (crBody b) 1 3 = true)
  (hs : (u8 (crBody b) 0).testBit (keyIdx (u8 b 7) (u8 b 8)) = false)
include hi hm hu hk hc hb hz hs

/-- A record in form whose revocations spare its own key is judged by what it adds to those in force. -/
theorem revokeKeys_judged {t : State} (ht : (if s.ob.revoked ||| BitVec.ofNat 6 (u8 (crBody b) 0) = s.ob.revoked then s.complete r 0 0 0
      else if !(s.revoking (s.ob.revoked ||| BitVec.ofNat 6 (u8 (crBody b) 0))).keysSafe (decide (16 ≤ u8 (crBody b) 0)) then
        s.updFail r 0x107 1 0x43 0
      else if (s.revokeWrite (s.ob.revoked ||| BitVec.ofNat 6 (u8 (crBody b) 0))).2 then
        (s.revokeDone (s.ob.revoked ||| BitVec.ofNat 6 (u8 (crBody b) 0))).complete r 0 0 0
      else (s.revokeUndone (s.ob.revoked ||| BitVec.ofNat 6 (u8 (crBody b) 0))).updFail r 0x107 1 0x32 0) = t) :
    exec (.revokeKeys r b) s = .next t := by
  have form : ¬ (64 ≤ u8 (crBody b) 0 ∨ (!zeroAt (crBody b) 1 3) = true) := by simp [hz, hb]
  exact exec_passes (o := execRevokeKeys r b s) rfl rfl hi hm hu hk hc ((if_neg form).trans ((if_neg (Bool.eq_false_iff.1 hs)).trans ht))

theorem revokeKeys_again (ha : s.ob.revoked ||| BitVec.ofNat 6 (u8 (crBody b) 0) = s.ob.revoked) :
    exec (.revokeKeys r b) s = .next (s.complete r 0 0 0) := revokeKeys_judged hi hm hu hk hc hb hz hs (if_pos ha)

variable (ha : s.ob.revoked ||| BitVec.ofNat 6 (u8 (crBody b) 0) = un) (hn : un ≠ s.ob.revoked)
  (hf : (s.revoking un).keysSafe (decide (16 ≤ u8 (crBody b) 0)) = true)
include ha hn hf

theorem revokeKeys_written (hd : s.log.devFailed = 0) : exec (.revokeKeys r b) s = .next ((s.revokeDone un).complete r 0 0 0) := by
  subst ha
  refine revokeKeys_judged hi hm hu hk hc hb hz hs ((if_neg hn).trans ((if_neg ?_).trans (if_pos (s.revokeWrite_written _ hd))))
  rw [hf]
  decide

theorem revokeKeys_unwritten (hd : s.log.devFailed ≠ 0) :
    exec (.revokeKeys r b) s = .next ((s.revokeUndone un).updFail r 0x107 1 0x32 0) := by
  subst ha
  refine revokeKeys_judged hi hm hu hk hc hb hz hs ((if_neg hn).trans ((if_neg ?_).trans
    (if_neg (s.revokeWrite_unwritten _ hd))))
  rw [hf]
  decide

end Revoke

theorem revokeKeys_effect (hi : s.imageRuns = true) (hm : s.may r.principal .update = true) (hu : s.updRefusal = none)
    (hk : u8 b 6 = 1) : Completes (.revokeKeys r b) s fun t => (∀ c, s.crCheck b = some c → s.answers t r c 0 0 ∧ t.ob = s.ob) ∧
      (s.crCheck b = none → u8 (crBody b) 0 < 64 → zeroAt (crBody b) 1 3 = true →
        (u8 (crBody b) 0).testBit (keyIdx (u8 b 7) (u8 b 8)) = false →
        (s.ob.revoked ||| BitVec.ofNat 6 (u8 (crBody b) 0) = s.ob.revoked → t.ob = s.ob ∧ s.answers t r 0 0 0) ∧
        (s.ob.revoked ||| BitVec.ofNat 6 (u8 (crBody b) 0) ≠ s.ob.revoked →
          (s.revoking (s.ob.revoked ||| BitVec.ofNat 6 (u8 (crBody b) 0))).keysSafe (decide (16 ≤ u8 (crBody b) 0)) = true →
          (s.log.devFailed = 0 → s.answers t r 0 0 0 ∧
            t.ob = { s.ob with revoked := s.ob.revoked ||| BitVec.ofNat 6 (u8 (crBody b) 0), keyWritten := none }) ∧
          (s.log.devFailed ≠ 0 → s.answers t r 0x32 0 0 ∧ t.ob = s.ob))) := by
  refine record_completes (o := execRevokeKeys r b s) rfl rfl hi hm hu hk (fun x t ht => ⟨ht.answer, ht.frame .ob rfl⟩)
    fun t hc ht hb hz hs => ⟨fun ha => ?_, fun hne hf => ⟨fun hd => ?_, fun hd => ?_⟩⟩
  · rw [next_unique ht (revokeKeys_again hi hm hu hk hc hb hz hs ha)]
    exact ⟨s.complete_frame r 0 0 0 .ob rfl, s.complete_answers r 0 0 0⟩
  · rw [next_unique ht (revokeKeys_written hi hm hu hk hc hb hz hs rfl hne hf hd)]
    exact ⟨State.answers_of_silent (s.revokeDone_out _) (State.complete_answers _ r 0 0 0),
      (State.complete_frame _ r 0 0 0 .ob rfl).trans (s.revokeDone_ob _)⟩
  · rw [next_unique ht (revokeKeys_unwritten hi hm hu hk hc hb hz hs rfl hne hf hd)]
    exact ⟨State.answers_of_silent (s.revokeUndone_out _) (State.updFail_answers _ r 0x107 1 0x32 0),
      State.updFail_frame _ r 0x107 1 0x32 0 .ob rfl⟩

/-! ## OPTION_UPDATE (R132 to R134) -/

section Option

variable (hi : s.imageRuns = true) (hm : s.may r.principal .update = true) (hu : s.updRefusal = none) (hk : u8 b 6 = 2)
include hi hm hu hk

theorem optionUpdate_malformed (hc : s.crCheck b = none) (hv : obValid (crBody b) = false) :
    exec (.optionUpdate r b) s = .next (s.updFail r 0x107 2 0x10 0) :=
  exec_passes (o := execOptionUpdate r b s) rfl rfl hi hm hu hk hc (if_pos (by rw [hv]; decide))

omit hi hm hu hk in
/-- The option bytes in force stand whatever becomes of the record: they change at the next start (R134). -/
theorem execOptionUpdate_keeps_ob : OTouches (Part.others.erase .ob) s (execOptionUpdate r b s) :=
  State.crDo_touches rfl (fun _ h _ => .ite (State.updFail_touches rfl h) (.ite (State.updFail_touches rfl h)
    (.ite (State.updFail_touches rfl h) (.ite (State.complete_touches rfl (State.protWrite_touches rfl h))
      (State.updFail_touches rfl (State.protWrite_touches rfl h)))))) (.refl _ s)

theorem optionUpdate_effect : Completes (.optionUpdate r b) s fun t => (∀ c, s.crCheck b = some c → s.answers t r c 0 0) ∧ t.ob = s.ob ∧
    (s.crCheck b = none → obValid (crBody b) = false → s.answers t r 0x10 0 0) := by
  obtain ⟨t, ht, refused, malformed⟩ := record_completes (o := execOptionUpdate r b s) rfl rfl hi hm hu hk
    (p := fun x t => s.answers t r x 0 0) (q := fun t => obValid (crBody b) = false → s.answers t r 0x10 0 0)
    (fun x t ht => ht.answer) fun t hc ht hv => by
      rw [next_unique ht (optionUpdate_malformed hi hm hu hk hc hv)]
      exact s.updFail_answers r 0x107 2 0x10 0
  exact ⟨t, ht, refused, only_of execOptionUpdate_keeps_ob ht .ob rfl, malformed⟩

omit hi hm hu hk in
/-- An update that takes no enabled slot away, or leaves R133's conditions true, passes R133. -/
theorem State.enable_safe (h : s.keyEnable &&& obKeyEnable.nat (crBody b) = s.keyEnable ∨
      ({ s with ob := { s.ob with bytes := some (crBody b) } } : State).keysSafe
        ((bitsOf 6 s.keyEnable).any fun k => !(obKeyEnable.nat (crBody b)).testBit k && decide (4 ≤ k)) = true) :
    ¬ ((!((bitsOf 6 s.keyEnable).filter fun k => !(obKeyEnable.nat (crBody b)).testBit k).isEmpty) = true ∧
      (!({ s with ob := { s.ob with bytes := some (crBody b) } } : State).keysSafe
        (((bitsOf 6 s.keyEnable).filter fun k => !(obKeyEnable.nat (crBody b)).testBit k).any fun k => decide (4 ≤ k))) = true) := by
  rintro ⟨gone, refused⟩
  rcases h with h | h
  · have kept : ((bitsOf 6 s.keyEnable).filter fun k => !(obKeyEnable.nat (crBody b)).testBit k) = [] := by
      refine List.filter_eq_nil_iff.2 fun k hk => ?_
      have bit := (List.mem_filter.1 hk).2
      rw [← h, Nat.testBit_and, Bool.and_eq_true] at bit
      rw [bit.2]
      decide
    rw [kept] at gone
    cases gone
  · rw [List.any_filter, h] at refused
    cases refused

theorem optionUpdate_written (hc : s.crCheck b = none) (hv : obValid (crBody b) = true) (hg : u32 (crBody b) 8 = s.obGeneration + 1)
    (hst : s.obStored ≤ s.obGeneration) (hr : obRevoked.nat (crBody b) = s.ob.revoked.toNat) (hf : s.ob.minFw ≤ obMinFw.nat (crBody b))
    (hs : s.ob.minStruct ≤ obMinStruct.nat (crBody b)) (hn : s.ob.minSite ≤ obMinSite.nat (crBody b))
    (he : s.keyEnable &&& obKeyEnable.nat (crBody b) = s.keyEnable ∨
      ({ s with ob := { s.ob with bytes := some (crBody b) } } : State).keysSafe
        ((bitsOf 6 s.keyEnable).any fun k => !(obKeyEnable.nat (crBody b)).testBit k && decide (4 ≤ k)) = true)
    (hd : s.log.devFailed = 0) : Completes (.optionUpdate r b) s fun t => t.fread 0 0 256 = crBody b ∧ t.fread 1 0 256 = crBody b ∧
        s.answers t r 0 0 0 ∧ s.onlyChanges [.flash0, .flash1, .mem, .ques, .ebx, .evt, .dram, .out] t := by
  have len : (crBody b).length = 256 := State.crBody_length hc (by rw [hk]; rfl)
  have rising : ¬ (u32 (crBody b) 8 ≠ s.obGeneration + 1 ∨ s.obGeneration < s.obStored ∨ obRevoked.nat (crBody b) ≠ s.ob.revoked.toNat ∨
      obMinFw.nat (crBody b) < s.ob.minFw ∨ obMinStruct.nat (crBody b) < s.ob.minStruct ∨ obMinSite.nat (crBody b) < s.ob.minSite) := by
    omega
  obtain ⟨done, reads⟩ := State.protWrite_written (s := s) (off := 0) (b := crBody b)
    (copyGens fun d => some (s.fread d 0 256) |>.filter obValid) hd (by omega)
  have written : exec (.optionUpdate r b) s = .next
      ((s.protWrite (copyGens fun d => some (s.fread d 0 256) |>.filter obValid) 0 (crBody b)).1.complete r 0 0 0) :=
    exec_passes (o := execOptionUpdate r b s) rfl rfl hi hm hu hk hc ((if_neg (by rw [hv]; decide)).trans ((if_neg rising).trans
      ((if_neg (State.enable_safe he)).trans (if_pos done))))
  have frame := s.protWrite_frame (copyGens fun d => some (s.fread d 0 256) |>.filter obValid) 0 (crBody b)
  have copies := reads 256 (by omega)
  have whole : List.take 256 (crBody b) = crBody b := List.take_of_length_le (by omega)
  rw [whole] at copies
  refine completes_of written ⟨?_, ?_, State.answers_of_silent (frame .out rfl) (State.complete_answers _ r 0 0 0),
    (State.complete_touches rfl (State.protWrite_touches rfl (.refl _ s))).only⟩
  · rw [State.fread_congr (State.complete_frame _ r 0 0 0 .flash0 rfl) (State.complete_frame _ r 0 0 0 .flash1 rfl)]
    exact copies.1
  · rw [State.fread_congr (State.complete_frame _ r 0 0 0 .flash0 rfl) (State.complete_frame _ r 0 0 0 .flash1 rfl)]
    exact copies.2

end Option

/-! ## KEY_PROVISION (R113, R134) -/

section Provision

/-- A key hash table keeps its 832 bytes as an entry is provisioned. -/
theorem keyTableWith_length {k body : Bytes} {cls slot : Nat} (hk : k.length = 832) (hb : body.length = 104) (hs : keyIdx cls slot < 6) :
    (keyTableWith k body cls slot).length = 832 := by
  have key : (slice body 8 96).length = 96 := slice_length (by omega)
  simp only [keyTableWith, patch, List.length_append, List.length_take, List.length_drop, List.length_replicate, leBytes_length, zeros,
    List.length_cons, List.length_nil, digestBytes_len, key, hk]
  omega

theorem keyIdx_lt {cls slot : Nat} (h : slot < (if cls = 2 then 2 else 4)) : keyIdx cls slot < 6 := by
  unfold keyIdx
  split at h
  · next hc =>
    rw [if_pos hc]
    omega
  · next hc =>
    rw [if_neg hc]
    omega

/-- A valid copy of the key hash table has 832 bytes (R113). -/
theorem State.keyTables_length {k : Bytes} (h : s.keyTables.head? = some k) : k.length = 832 := by
  obtain ⟨dev, -, hd⟩ := List.mem_filterMap.1 (List.mem_of_mem_head? (Option.mem_def.2 h))
  unfold State.keyCopy at hd
  extract_lets b at hd
  split at hd
  · rw [← Option.some.inj hd]
    exact s.fread_length dev 0x2000 0x340
  · cases hd

variable (hi : s.imageRuns = true) (hm : s.may r.principal .update = true) (hu : s.updRefusal = none) (hk : u8 b 6 = 3)
include hi hm hu hk

theorem keyProvision_malformed (hc : s.crCheck b = none) (hz : zeroAt (crBody b) 2 6 = false) :
    exec (.keyProvision r b) s = .next (s.updFail r 0x107 3 0x10 0) :=
  exec_passes (o := execKeyProvision r b s) rfl rfl hi hm hu hk hc (if_pos (.inl (by rw [hz]; rfl)))

theorem keyProvision_effect : Completes (.keyProvision r b) s fun t =>
    (∀ c, s.crCheck b = some c → s.answers t r c 0 0 ∧ t.flash0 = s.flash0) ∧
    (s.crCheck b = none → zeroAt (crBody b) 2 6 = false → s.answers t r 0x10 0 0) :=
  record_completes (o := execKeyProvision r b s) rfl rfl hi hm hu hk (fun x t ht => ⟨ht.answer, ht.frame .flash0 rfl⟩)
    fun t hc ht hz => by
      rw [next_unique ht (keyProvision_malformed hi hm hu hk hc hz)]
      exact s.updFail_answers r 0x107 3 0x10 0

omit hi hm hu hk in
/-- The table with the new entry is written, and the slot is usable (R134). -/
def State.provisionDone (s : State) (t : Bytes) : State :=
  { (s.protWrite (0, 0) 0x2000 t).1 with ob := { (s.protWrite (0, 0) 0x2000 t).1.ob with keyWritten := none } }

omit hi hm hu hk in
theorem State.provisionDone_effect {t : Bytes} (hd : s.log.devFailed = 0) (hl : t.length = 832) :
    (s.provisionDone t).fread 0 0x2000 832 = t ∧ (s.provisionDone t).fread 1 0x2000 832 = t ∧
    (s.provisionDone t).ob = { s.ob with keyWritten := none } ∧ (s.provisionDone t).out = s.out := by
  have frame := s.protWrite_frame (0, 0) 0x2000 t
  have copies := (State.protWrite_written (s := s) (off := 0x2000) (b := t) (0, 0) hd (by omega)).2 832 (by omega)
  have whole : List.take 832 t = t := List.take_of_length_le (by omega)
  rw [whole] at copies
  refine ⟨copies.1, copies.2, ?_, frame .out rfl⟩
  rw [State.provisionDone, frame .ob rfl]

theorem keyProvision_written {k : Bytes} (hc : s.crCheck b = none) (hz : zeroAt (crBody b) 2 6 = true)
    (hs : u8 (crBody b) 1 < (if u8 (crBody b) 0 = 2 then 2 else 4))
    (hr : s.ob.revoked.getLsbD (keyIdx (u8 (crBody b) 0) (u8 (crBody b) 1)) = false)
    (hp : s.provisioned (u8 (crBody b) 0) (u8 (crBody b) 1) = none) (ht : s.keyTables.head? = some k) (hd : s.log.devFailed = 0) :
    Completes (.keyProvision r b) s fun t =>
        t.fread 0 0x2000 832 = keyTableWith k (crBody b) (u8 (crBody b) 0) (u8 (crBody b) 1) ∧
        t.fread 1 0x2000 832 = keyTableWith k (crBody b) (u8 (crBody b) 0) (u8 (crBody b) 1) ∧
        t.ob = { s.ob with keyWritten := none } ∧ s.answers t r 0 0 0 ∧
        s.onlyChanges [.flash0, .flash1, .ob, .mem, .ques, .ebx, .evt, .dram, .out] t := by
  have form : ¬ ((!zeroAt (crBody b) 2 6) = true ∨ (if u8 (crBody b) 0 = 2 then 2 else 4) ≤ u8 (crBody b) 1) := by
    rw [hz, not_or]
    exact ⟨by decide, Nat.not_le.2 hs⟩
  have len := keyTableWith_length (body := crBody b) (State.keyTables_length ht) (State.crBody_length hc (by rw [hk]; rfl)) (keyIdx_lt hs)
  obtain ⟨h0, h1, hob, hout⟩ := State.provisionDone_effect hd len
  have done := (State.protWrite_written (s := s) (off := 0x2000) (0, 0) hd (Nat.le_trans (Nat.le_of_eq len) (by decide))).1
  generalize hw : keyTableWith k (crBody b) (u8 (crBody b) 0) (u8 (crBody b) 1) = w at h0 h1 hob hout done
  have written : exec (.keyProvision r b) s = .next ((s.provisionDone w).complete r 0 0 0) := by
    refine exec_passes (o := execKeyProvision r b s) rfl rfl hi hm hu hk hc ((if_neg form).trans ((if_neg (by rw [hr]; decide)).trans
      ((if_neg (by rw [hp]; decide)).trans ?_)))
    rw [ht, ← hw]
    subst hw
    exact if_pos done
  have frame := (s.provisionDone w).complete_frame r 0 0 0
  refine completes_of written ⟨?_, ?_, (frame .ob rfl).trans hob, State.answers_of_silent hout (State.complete_answers _ r 0 0 0),
    (State.complete_touches rfl (.updOb rfl (State.protWrite_touches rfl (.refl _ s)))).only⟩
  · rw [State.fread_congr (frame .flash0 rfl) (frame .flash1 rfl)]
    exact h0
  · rw [State.fread_congr (frame .flash0 rfl) (frame .flash1 rfl)]
    exact h1

end Provision

/-! ## REVMIN_RESTORE (R116) -/

section Restore

variable (hi : s.imageRuns = true) (hm : s.may r.principal .update = true) (hu : s.updRefusal = none) (hk : u8 b 6 = 4)

/-- The record that a REVMIN_RESTORE writes. -/
def restoredBytes (body : Bytes) : Bytes := revminBytes (u32 body 0) (u8 body 4) (u32 body 8) (u32 body 12) (u32 body 16)

theorem restoredBytes_length (body : Bytes) : (restoredBytes body).length = 80 := by
  simp only [restoredBytes, revminBytes, List.length_append, leBytes_length, zeros, List.length_replicate, digestBytes_len]

/-- The restored values are in force (R116). -/
def State.restoreDone (s : State) (body : Bytes) : State :=
  { (s.protWrite (0, 0) 0x1000 (restoredBytes body)).1 with
    ob := { (s.protWrite (0, 0) 0x1000 (restoredBytes body)).1.ob with
      revminLost := false, revoked := BitVec.ofNat 6 (u8 body 4), minFw := u32 body 8, minStruct := u32 body 12
      minSite := u32 body 16, keyWritten := none } }

theorem State.restoreDone_effect (s : State) (body : Bytes) : (s.restoreDone body).ob = { s.ob with
      revminLost := false, keyWritten := none, revoked := BitVec.ofNat 6 (u8 body 4), minFw := u32 body 8
      minStruct := u32 body 12, minSite := u32 body 16 } ∧
    (s.restoreDone body).boot = s.boot ∧ (s.restoreDone body).out = s.out := by
  have frame := s.protWrite_frame (0, 0) 0x1000 (restoredBytes body)
  refine ⟨?_, frame .boot rfl, frame .out rfl⟩
  rw [State.restoreDone, frame .ob rfl]

include hi hm hu hk

theorem revminRestore_written (hc : s.crCheck b = none) (hl : s.ob.revminLost = true) (h0 : u32 (crBody b) 0 ≠ 0)
    (h1 : u32 (crBody b) 0 ≠ 0xFFFFFFFF) (hr : u8 (crBody b) 4 < 64) (hz : zeroAt (crBody b) 5 3 = true)
    (hz' : zeroAt (crBody b) 20 4 = true) (hs : u8 (crBody b) 4 &&& s.ob.revoked.toNat = s.ob.revoked.toNat)
    (hf : s.ob.minFw ≤ u32 (crBody b) 8) (ht : s.ob.minStruct ≤ u32 (crBody b) 12) (hn : s.ob.minSite ≤ u32 (crBody b) 16)
    (hd : s.log.devFailed = 0) :
    exec (.revminRestore r b) s = .next ((s.restoreDone (crBody b)).complete r 0 0 0).plasterLetGo := by
  have form : ¬ (u32 (crBody b) 0 = 0 ∨ u32 (crBody b) 0 = 0xFFFFFFFF ∨ 64 ≤ u8 (crBody b) 4 ∨ (!zeroAt (crBody b) 5 3) = true ∨
      (!zeroAt (crBody b) 20 4) = true) := by
    simp [h0, h1, hr, hz, hz']
  have rising : ¬ (u8 (crBody b) 4 &&& s.ob.revoked.toNat ≠ s.ob.revoked.toNat ∨ u32 (crBody b) 8 < s.ob.minFw ∨
      u32 (crBody b) 12 < s.ob.minStruct ∨ u32 (crBody b) 16 < s.ob.minSite) := by
    omega
  have done := (State.protWrite_written (s := s) (off := 0x1000) (b := restoredBytes (crBody b)) (0, 0) hd
    (Nat.le_trans (Nat.le_of_eq (restoredBytes_length _)) (by decide))).1
  exact exec_passes (o := execRevminRestore r b s) rfl rfl hi hm hu hk hc ((if_neg form).trans ((if_neg (by rw [hl]; decide)).trans
    ((if_neg rising).trans (if_pos done))))

theorem revminRestore_effect : Completes (.revminRestore r b) s fun t =>
    (∀ c, s.crCheck b = some c → s.answers t r c 0 0 ∧ t.ob = s.ob) ∧
    (s.crCheck b = none → s.ob.revminLost = true → u32 (crBody b) 0 ≠ 0 → u32 (crBody b) 0 ≠ 0xFFFFFFFF → u8 (crBody b) 4 < 64 →
        zeroAt (crBody b) 5 3 = true → zeroAt (crBody b) 20 4 = true →
        u8 (crBody b) 4 &&& s.ob.revoked.toNat = s.ob.revoked.toNat → s.ob.minFw ≤ u32 (crBody b) 8 →
        s.ob.minStruct ≤ u32 (crBody b) 12 → s.ob.minSite ≤ u32 (crBody b) 16 → s.log.devFailed = 0 → s.boot.plasterHeld = false →
        t.ob = { s.ob with revminLost := false, keyWritten := none, revoked := BitVec.ofNat 6 (u8 (crBody b) 4), minFw := u32 (crBody b) 8,
                           minStruct := u32 (crBody b) 12, minSite := u32 (crBody b) 16 } ∧ s.answers t r 0 0 0) := by
  refine record_completes (o := execRevminRestore r b s) rfl rfl hi hm hu hk (fun x t ht => ⟨ht.answer, ht.frame .ob rfl⟩)
    fun t hc ht hl h0 h1 hr hz hz' hs hf hst hn hd hp => ?_
  obtain ⟨hob, hboot, hout⟩ := s.restoreDone_effect (crBody b)
  have frame := (s.restoreDone (crBody b)).complete_frame r 0 0 0
  have stays : ((s.restoreDone (crBody b)).complete r 0 0 0).plasterLetGo = (s.restoreDone (crBody b)).complete r 0 0 0 :=
    State.plasterLetGo_stays (.inl (by rw [frame .boot rfl, hboot, hp]))
  rw [next_unique ht (revminRestore_written hi hm hu hk hc hl h0 h1 hr hz hz' hs hf hst hn hd), stays]
  exact ⟨(frame .ob rfl).trans hob, State.answers_of_silent hout (State.complete_answers _ r 0 0 0)⟩

end Restore

/-! ## DEBUG_OPEN (R128) -/

section Debug

variable (hi : s.imageRuns = true) (hm : s.may r.principal .update = true) (hu : s.updRefusal = none) (hk : u8 b 6 = 5)

/-- The debug port opens at a level, and the nonce is used (R128). -/
def State.debugOpened (s : State) (lv : Nat) : State := { s with debug := lv, boot := { s.boot with nonceLive := false } }

/-- The more restricted of what a record asks for and the policy allows. -/
def State.debugLevel (s : State) (body : Bytes) : Nat := if u8 body 44 = 2 ∨ obDebug.nat s.optBytes = 2 then 2 else 1

include hi hm hu hk

theorem debugOpen_opens (hc : s.crCheck b = none) (hp : obDebug.nat s.optBytes ≠ 0) (hn : s.boot.nonceLive = true)
    (hv : le (crBody b) 0 32 = s.boot.nonce.toNat) (hs : le (crBody b) 32 12 = Config.moduleSerial.toNat)
    (ha : u8 (crBody b) 44 = 1 ∨ u8 (crBody b) 44 = 2) (hz : zeroAt (crBody b) 45 5 = true) : exec (.debugOpen r b) s = .next
      (((s.debugOpened (s.debugLevel (crBody b))).event 2 128 0 (s.debugLevel (crBody b))).complete r 0 0 0) := by
  have fresh : ¬ (obDebug.nat s.optBytes = 0 ∨ (!s.boot.nonceLive) = true ∨ le (crBody b) 0 32 ≠ s.boot.nonce.toNat) := by
    simp [hp, hn, hv]
  have form : ¬ ((u8 (crBody b) 44 ≠ 1 ∧ u8 (crBody b) 44 ≠ 2) ∨ (!zeroAt (crBody b) 45 5) = true) := by
    rw [hz]
    rcases ha with h | h <;> simp [h]
  exact exec_passes (o := execDebugOpen r b s) rfl rfl hi hm hu hk hc ((if_neg fresh).trans ((if_neg (not_not.2 hs)).trans (if_neg form)))

theorem debugOpen_effect : Completes (.debugOpen r b) s fun t =>
    (∀ c, s.crCheck b = some c → s.answers t r c 0 0 ∧ t.debug = s.debug) ∧
    (s.crCheck b = none → obDebug.nat s.optBytes ≠ 0 → s.boot.nonceLive = true → le (crBody b) 0 32 = s.boot.nonce.toNat →
        le (crBody b) 32 12 = Config.moduleSerial.toNat → (u8 (crBody b) 44 = 1 ∨ u8 (crBody b) 44 = 2) → zeroAt (crBody b) 45 5 = true →
        t.debug = (if u8 (crBody b) 44 = 2 ∨ obDebug.nat s.optBytes = 2 then 2 else 1) ∧ t.boot.nonceLive = false ∧
        s.answers t r 0 0 0) := by
  refine record_completes (o := execDebugOpen r b s) rfl rfl hi hm hu hk (fun x t ht => ⟨ht.answer, ht.frame .debug rfl⟩)
    fun t hc ht hp hn hv hs ha hz => ?_
  rw [next_unique ht (debugOpen_opens hi hm hu hk hc hp hn hv hs ha hz)]
  have event := (s.debugOpened (s.debugLevel (crBody b))).event_frame 2 128 0 (s.debugLevel (crBody b))
  have frame := ((s.debugOpened (s.debugLevel (crBody b))).event 2 128 0 (s.debugLevel (crBody b))).complete_frame r 0 0 0
  exact ⟨(frame .debug rfl).trans (event .debug rfl), congrArg Boot.nonceLive ((frame .boot rfl).trans (event .boot rfl)),
    State.answers_of_silent (event .out rfl) (State.complete_answers _ r 0 0 0)⟩

end Debug

/-! ## PRINCIPAL_SET (R470, R471) -/

section Principals

variable (hi : s.imageRuns = true) (hu : s.updRefusal = none) (hk : u8 b 6 = 6)

/-- The header of a principal table up to its GENERATION (R470). -/
def princHead (gen : Nat) : Bytes := leBytes 4 0x544E5250 ++ leBytes 2 1 ++ zeros 2 ++ leBytes 4 gen

/-- The principal table of a record, with its TAG (R470). -/
def princBytes (body : Bytes) : Bytes :=
  let t := princHead (u32 body 0) ++ zeros 4 ++ slice body 8 2048
  t ++ digestBytes (Config.deviceHmac t)

theorem princHead_length (gen : Nat) : (princHead gen).length = 12 := by
  simp only [princHead, List.length_append, leBytes_length, zeros, List.length_replicate]

theorem princHead_generation (body : Bytes) : u32 (princHead (u32 body 0)) 8 = u32 body 0 := by
  have h := le_field (leBytes 4 0x544E5250 ++ leBytes 2 1 ++ zeros 2) [] 4 (u32 body 0)
  rw [List.append_nil] at h
  exact h.trans (Nat.mod_eq_of_lt (le_lt body 0 4))

theorem princBytes_take (body : Bytes) : (princBytes body).take 12 = princHead (u32 body 0) := by
  rw [princBytes, List.append_assoc, List.append_assoc]
  exact List.take_left' (princHead_length _)

theorem princBytes_length (body : Bytes) : 12 ≤ (princBytes body).length ∧ (princBytes body).length ≤ 4096 := by
  have := List.length_take_le 2048 (body.drop 8)
  simp only [princBytes, slice, List.length_append, princHead_length, zeros, List.length_replicate, digestBytes_len]
  omega

/-- The table in force is that of the record, and a record of it is queued (R471, R491). -/
def State.princDone (s : State) (r : Req) (body : Bytes) : State :=
  (s.protWrite (copyGens s.princCopy) 0x04920000 (princBytes body)).1.record 0x22
    (if r.path = .fabric then 8 else if r.path = .debug then 9 else 0) 3 none (leBytes 4 r.principal ++ zeros 16 ++ leBytes 4 (u32 body 0))

/-- Both copies of the table carry the record's GENERATION, and nothing goes out. -/
theorem State.princDone_effect (s : State) (r : Req) (body : Bytes) (hd : s.log.devFailed = 0) :
    u32 ((s.princDone r body).fread 0 0x04920000 12) 8 = u32 body 0 ∧
    u32 ((s.princDone r body).fread 1 0x04920000 12) 8 = u32 body 0 ∧ (s.princDone r body).out = s.out := by
  obtain ⟨h12, h4096⟩ := princBytes_length body
  have frame := s.protWrite_frame (copyGens s.princCopy) 0x04920000 (princBytes body)
  obtain ⟨h0, h1⟩ := (State.protWrite_written (s := s) (off := 0x04920000) (copyGens s.princCopy) hd h4096).2 12 h12
  have noted : (s.protWrite (copyGens s.princCopy) 0x04920000 (princBytes body)).1.onlyChanges [.log, .evt] (s.princDone r body) :=
    (State.record_touches rfl (.refl _ _)).only
  rw [State.fread_congr (noted .flash0 rfl) (noted .flash1 rfl), h0, h1, princBytes_take]
  exact ⟨princHead_generation body, princHead_generation body, (noted .out rfl).trans (frame .out rfl)⟩

include hi hu hk

theorem principalSet_written (hc : s.crCheck b = none) (hz : zeroAt (crBody b) 4 4 = true)
    (hg : u32 s.princTable 8 < u32 (crBody b) 0) (hd : s.log.devFailed = 0) :
    exec (.principalSet r b) s = .next ((s.princDone r (crBody b)).complete r 0 0 0) := by
  have done := (State.protWrite_written (s := s) (off := 0x04920000) (copyGens s.princCopy) hd (princBytes_length (crBody b)).2).1
  exact exec_passes (any := true) (o := execPrincipalSet r b s) rfl rfl hi rfl hu hk hc ((if_neg (by rw [hz]; decide)).trans
    ((if_neg (Nat.not_le.2 hg)).trans (if_neg (by
      show ¬ (!(s.protWrite (copyGens s.princCopy) 0x04920000 (princBytes (crBody b))).2) = true
      rw [done]
      decide))))

theorem principalSet_effect : Completes (.principalSet r b) s fun t =>
    (∀ c, s.crCheck b = some c → s.answers t r c 0 0 ∧ t.flash0 = s.flash0 ∧ t.flash1 = s.flash1) ∧
    (s.crCheck b = none → zeroAt (crBody b) 4 4 = true → u32 s.princTable 8 < u32 (crBody b) 0 → s.log.devFailed = 0 →
      u32 (t.fread 0 0x04920000 12) 8 = u32 (crBody b) 0 ∧ u32 (t.fread 1 0x04920000 12) 8 = u32 (crBody b) 0 ∧
      s.answers t r 0 0 0) := by
  refine record_completes (any := true) (o := execPrincipalSet r b s) rfl rfl hi rfl hu hk
    (fun x t ht => ⟨ht.answer, ht.frame .flash0 rfl, ht.frame .flash1 rfl⟩) fun t hc ht hz hg hd => ?_
  obtain ⟨h0, h1, hout⟩ := s.princDone_effect r (crBody b) hd
  have frame := (s.princDone r (crBody b)).complete_frame r 0 0 0
  rw [next_unique ht (principalSet_written hi hu hk hc hz hg hd), State.fread_congr (frame .flash0 rfl) (frame .flash1 rfl)]
  exact ⟨h0, h1, State.answers_of_silent hout (State.complete_answers _ r 0 0 0)⟩

end Principals

/-- A record of any kind that its check refuses completes with the check's code (R132). -/
theorem controlRecordRefused_effect {c : Nat} (hi : s.imageRuns = true) (hm : s.may r.principal .update = true)
    (hu : s.updRefusal = none) (hc : s.crCheck b = some c) : Completes (.controlRecordRefused r b) s fun t => s.answers t r c 0 0 ∧
      t.boot = { s.boot with updStatus := c * 2 ^ 24 + 0x107 % 256 * 2 ^ 16 + u8 b 6 } ∧ t.ob = s.ob ∧ t.flash0 = s.flash0 ∧
      t.flash1 = s.flash1 := by
  have he : exec (.controlRecordRefused r b) s = .next (s.updFail r 0x107 (u8 b 6) c 0) := by
    refine (exec_gated rfl hi).trans (congrArg _ ?_)
    beta_reduce
    rw [hm, State.updDo_on hu, hc]
    rfl
  have refused := s.updFail_refused r 0x107 (u8 b 6) c
  have kind : u8 b 6 % 65536 = u8 b 6 := Nat.mod_eq_of_lt (Nat.lt_of_lt_of_le (le_lt b 6 1) (by decide))
  refine completes_of he ⟨refused.answer, ?_, refused.frame .ob rfl, refused.frame .flash0 rfl, refused.frame .flash1 rfl⟩
  rw [State.updFail_boot, State.updNoted, kind]

end Sys2Proof.Machine
end


section
/-!
SUPPORT. What Plaster does with an image that it receives, and the answers of the SPDM responder (R135, R136, R142 to R144).
-/
namespace Sys2Proof.Machine

variable {s : State} {r : Req} {b : Bytes}

/-! ## Plaster's image (R135, R136, R144) -/

section Plaster

variable {fe : FlashEnd} {k : Nat}

/-- A failed install of Plaster's own: no request asked for it, so it completes none (R144). -/
def State.plasterFail (s : State) (code num : Nat) : State :=
  ({ s with boot := { s.boot with updStatus := code * 2 ^ 24 + 2 ^ 16 + num } } : State).event 2 144 num code

theorem State.plasterFail_boot (s : State) (code num : Nat) :
    (s.plasterFail code num).boot = { s.boot with updStatus := code * 2 ^ 24 + 2 ^ 16 + num } := State.event_frame _ 2 144 num code .boot rfl

theorem State.plasterFail_frame (s : State) (code num : Nat) : s.onlyChanges [.boot, .evt] (s.plasterFail code num) :=
  (State.event_touches rfl (.updBoot rfl (.refl _ s))).only

/-- The same after a write that failed: the slot is left empty. -/
def State.plasterEmptied (s : State) (code num : Nat) : State := (s.plasterFail code num).ferase s.plasterTarget slotOff slotSize

theorem State.plasterEmptied_effect (s : State) (code num : Nat) :
    (s.plasterEmptied code num).boot = { s.boot with updStatus := code * 2 ^ 24 + 2 ^ 16 + num } ∧
    (s.plasterEmptied code num).led = s.led ∧ (s.plasterEmptied code num).rst = s.rst := by
  have erased : (s.plasterFail code num).onlyChanges [.flash0, .flash1] (s.plasterEmptied code num) :=
    (State.ferase_touches rfl (.refl _ _)).only
  have frame := s.plasterFail_frame code num
  exact ⟨(erased .boot rfl).trans (s.plasterFail_boot code num), (erased .led rfl).trans (frame .led rfl),
    (erased .rst rfl).trans (frame .rst rfl)⟩

/-- The slot that Plaster installs into, with the image written. -/
def State.plasterCopied (s : State) (b : Bytes) : State :=
  s.writeArea s.plasterTarget slotOff slotSize (s.nextCount slotOff) (imgManifest b) (imgBody b)

/-- The image stands in the slot, which a start may choose again (R101). -/
def State.plasterInstalled (s : State) (b : Bytes) : State :=
  { s.plasterCopied b with
    led := { (s.plasterCopied b).led with excluded := setBit (s.plasterCopied b).led.excluded s.plasterTarget false, slotRun := (3, 0) } }

theorem State.plasterInstalled_keeps (s : State) (b : Bytes) :
    (s.plasterInstalled b).led = { s.led with excluded := setBit s.led.excluded s.plasterTarget false, slotRun := (3, 0) } ∧
    s.onlyChanges [.led, .flash0, .flash1] (s.plasterInstalled b) := by
  have frame : Touches [.flash0, .flash1] s (s.plasterCopied b) := State.writeArea_touches rfl (.refl _ s)
  refine ⟨?_, (Touches.updLed rfl (frame.mono rfl)).only⟩
  rw [State.plasterInstalled, frame.only .led rfl]

/-- What holds Plaster after its install stands as it stood before (R136). -/
theorem State.plasterInstalled_forcing (s : State) (b : Bytes) : (s.plasterInstalled b).plasterForcing = s.plasterForcing := by
  have frame := (s.plasterInstalled_keeps b).2
  rw [State.plasterForcing, frame .pins rfl, frame .ob rfl, State.plasterForcing]

variable (hi : s.imageRuns = true) (hs : s.boot.slot = 2) (hu : s.updRefusal = none)
include hi hs hu

/-- An image that fails a check, or of which a block does not match, is not written. -/
theorem plasterImageReceived_refused {c : Nat} (hc : s.imgCheck b 1 slotSize (some s.ob.minFw) = some c) :
    exec (.plasterImageReceived ⟨b, fe⟩) s = .next (s.plasterFail c 0) := by
  refine (exec_gated rfl hi).trans (congrArg _ ?_)
  beta_reduce
  rw [if_neg (not_not.2 hs), hu, Option.none_or, hc]
  rfl

variable (hc : s.imgCheck b 1 slotSize (some s.ob.minFw) = none)
include hc

theorem plasterImageReceived_bad {n : Nat} (hb : imgBad b = some n) :
    exec (.plasterImageReceived ⟨b, fe⟩) s = .next (s.plasterFail 0x17 n) := by
  refine (exec_gated rfl hi).trans (congrArg _ ?_)
  beta_reduce
  rw [if_neg (not_not.2 hs), hu, Option.none_or, hc, hb]
  rfl

variable (hb : imgBad b = none)
include hb

/-- A write that fails, or that reads back otherwise, leaves the slot empty. -/
theorem plasterImageReceived_fails : exec (.plasterImageReceived ⟨b, .fails⟩) s = .next (s.plasterEmptied 0x32 s.plasterTarget) := by
  refine (exec_gated rfl hi).trans (congrArg _ ?_)
  beta_reduce
  rw [if_neg (not_not.2 hs), hu, Option.none_or, hc, hb]
  rfl

theorem plasterImageReceived_differs (n : Nat) :
    exec (.plasterImageReceived ⟨b, .differs n⟩) s = .next (s.plasterEmptied 0x17 n) := by
  refine (exec_gated rfl hi).trans (congrArg _ ?_)
  beta_reduce
  rw [if_neg (not_not.2 hs), hu, Option.none_or, hc, hb]
  rfl

theorem plasterImageReceived_ok : exec (.plasterImageReceived ⟨b, .ok⟩) s = .next
    (if (s.plasterInstalled b).plasterForcing then
      { s.plasterInstalled b with boot := { (s.plasterInstalled b).boot with plasterHeld := true } }
    else (s.plasterInstalled b).swReset 6 .moduleReset) := by
  refine (exec_gated rfl hi).trans (congrArg _ ?_)
  beta_reduce
  rw [if_neg (not_not.2 hs), hu, Option.none_or, hc, hb]
  unfold State.plasterInstalled State.plasterCopied
  with_reducible rfl

end Plaster

theorem plasterImageReceived_effect (fe : FlashEnd) (hi : s.imageRuns = true) (hs : s.boot.slot = 2) (hu : s.updRefusal = none) :
    Completes (.plasterImageReceived ⟨b, fe⟩) s fun t =>
      (∀ c, s.imgCheck b 1 slotSize (some s.ob.minFw) = some c → t.boot = { s.boot with updStatus := c * 2 ^ 24 + 2 ^ 16 } ∧
        t.flash0 = s.flash0 ∧ t.flash1 = s.flash1) ∧
      (∀ n, s.imgCheck b 1 slotSize (some s.ob.minFw) = none → imgBad b = some n →
        t.boot = { s.boot with updStatus := 0x17 * 2 ^ 24 + 2 ^ 16 + n } ∧ t.flash0 = s.flash0 ∧ t.flash1 = s.flash1) ∧
      (s.imgCheck b 1 slotSize (some s.ob.minFw) = none → imgBad b = none → fe = .fails →
        t.boot = { s.boot with updStatus := 0x32 * 2 ^ 24 + 2 ^ 16 + s.plasterTarget } ∧ t.led = s.led ∧ t.rst = s.rst) ∧
      (∀ n, s.imgCheck b 1 slotSize (some s.ob.minFw) = none → imgBad b = none → fe = .differs n →
        t.boot = { s.boot with updStatus := 0x17 * 2 ^ 24 + 2 ^ 16 + n } ∧ t.led = s.led ∧ t.rst = s.rst) ∧
      (s.imgCheck b 1 slotSize (some s.ob.minFw) = none → imgBad b = none → fe = .ok → s.plasterForcing = true →
        t.boot = { s.boot with plasterHeld := true } ∧
        t.led = { s.led with excluded := setBit s.led.excluded s.plasterTarget false, slotRun := (3, 0) }) ∧
      (s.imgCheck b 1 slotSize (some s.ob.minFw) = none → imgBad b = none → fe = .ok → s.plasterForcing = false → s.rst.under = none →
        t.rst.under = some .moduleReset ∨ (RKind.moduleReset, 6) ∈ t.rst.waiting) := by
  obtain ⟨t, ht⟩ : ∃ t, exec (.plasterImageReceived ⟨b, fe⟩) s = .next t := ⟨_, exec_eq_next _ s⟩
  refine completes_of ht ⟨fun c hc => ?_, fun n hc hb => ?_, fun hc hb hf => ?_, fun n hc hb hf => ?_, fun hc hb hf hp => ?_,
    fun hc hb hf hp hr => ?_⟩
  · rw [next_unique ht (plasterImageReceived_refused hi hs hu hc)]
    have boot := s.plasterFail_boot c 0
    rw [Nat.add_zero] at boot
    exact ⟨boot, s.plasterFail_frame c 0 .flash0 rfl, s.plasterFail_frame c 0 .flash1 rfl⟩
  · rw [next_unique ht (plasterImageReceived_bad hi hs hu hc hb)]
    exact ⟨s.plasterFail_boot 0x17 n, s.plasterFail_frame 0x17 n .flash0 rfl, s.plasterFail_frame 0x17 n .flash1 rfl⟩
  · subst hf
    rw [next_unique ht (plasterImageReceived_fails hi hs hu hc hb)]
    exact s.plasterEmptied_effect 0x32 s.plasterTarget
  · subst hf
    rw [next_unique ht (plasterImageReceived_differs hi hs hu hc hb n)]
    exact s.plasterEmptied_effect 0x17 n
  · subst hf
    rw [next_unique ht (plasterImageReceived_ok hi hs hu hc hb), if_pos ((s.plasterInstalled_forcing b).trans hp)]
    obtain ⟨hl, frame⟩ := s.plasterInstalled_keeps b
    refine ⟨?_, hl⟩
    rw [frame .boot rfl]
  · subst hf
    rw [next_unique ht (plasterImageReceived_ok hi hs hu hc hb),
      if_neg (Bool.eq_false_iff.1 ((s.plasterInstalled_forcing b).trans hp))]
    exact swReset_module (by rw [(s.plasterInstalled_keeps b).2 .rst rfl, hr])

/-! ## SPDM (R142, R143; logs 25 and 85) -/

section Spdm

variable {c : Instr} {code : Nat} {put : State → Option Bytes} {o : Host.Outcome State Fault Refusal}

/-- In full service with its identity keys the responder answers a request it serves; one that names nothing it has is answered with
an error (R143). -/
theorem spdm_answered (ha : exec c s = o) (he : o = s.spdm code b put) (hs : s.inService = true) (hr : s.boot.identReady = true) :
    exec c s = .next (s.ingress.emit (.mgmt 143 ((put s.ingress).elim (spdmError 1) (Config.spdmResponse code b)))) := by
  rw [State.inService, Bool.and_eq_true] at hs
  have serving : ¬ ((!s.stepEnded 20 && s.led.kind != .powerOn && s.led.kind != .moduleReset) = true) := by simp [hs.2]
  have ready : ¬ ((!s.ingress.stepEnded 20 || !s.ingress.boot.identReady) = true) := by
    rw [show s.ingress.stepEnded 20 = true from hs.2, show s.ingress.boot.identReady = true from hr]
    decide
  rw [ha, he, State.spdm, fwDo_on hs.1, if_neg serving]
  refine congrArg _ ((if_neg ready).trans ?_)
  cases put s.ingress <;> rfl

/-- Before step 20 of a power-on or a module reset, and until the identity keys are ready, it is busy (R142). -/
theorem spdm_busy (ha : exec c s = o) (he : o = s.spdm code b put) (hi : s.imageRuns = true)
    (hk : s.stepEnded 20 = true ∨ s.led.kind = .powerOn ∨ s.led.kind = .moduleReset)
    (hb : s.stepEnded 20 = false ∨ s.boot.identReady = false) : exec c s = .next (s.ingress.emit (.mgmt 143 (spdmError 3))) := by
  have serving : ¬ ((!s.stepEnded 20 && s.led.kind != .powerOn && s.led.kind != .moduleReset) = true) := by
    rcases hk with h | h | h <;> simp [h]
  have busy : (!s.ingress.stepEnded 20 || !s.ingress.boot.identReady) = true := by
    rcases hb with h | h
    · rw [show s.ingress.stepEnded 20 = false from h]
      rfl
    · rw [show s.ingress.boot.identReady = false from h, Bool.not_false, Bool.or_true]
  rw [ha, he, State.spdm, fwDo_on hi, if_neg serving]
  exact congrArg _ (if_pos busy)

/-- Before step 20 of any other restart it does not answer (R488). -/
theorem spdm_silent (ha : exec c s = o) (he : o = s.spdm code b put) (hi : s.imageRuns = true) (h20 : s.stepEnded 20 = false)
    (hk : s.led.kind = .coreDie ∨ s.led.kind = .armature) : exec c s = .next s := by
  have silent : (!s.stepEnded 20 && s.led.kind != .powerOn && s.led.kind != .moduleReset) = true := by
    rcases hk with h | h <;> simp [h, h20]
  rw [ha, he, State.spdm, fwDo_on hi, if_pos silent]

/-- The measurement blocks are those of the state before the request came. -/
theorem State.spdmBlocks_ingress (s : State) (b : Bytes) : s.ingress.spdmBlocks b = s.spdmBlocks b := rfl

theorem spdm_measured (hs : s.inService = true) (hr : s.boot.identReady = true) : Completes (.spdmGetMeasurements b) s fun t =>
    (∀ m, s.spdmBlocks b = some m → t = s.ingress.emit (.mgmt 143 (Config.spdmResponse 0xE0 b (m ++ Config.rsaSign (b ++ m))))) ∧
    (s.spdmBlocks b = none → t = s.ingress.emit (.mgmt 143 (spdmError 1))) := by
  refine completes_of (spdm_answered (o := execSpdmGetMeasurements b s) rfl rfl hs hr) ⟨fun m hm => ?_, fun hm => ?_⟩
  · rw [State.spdmBlocks_ingress, hm]
    rfl
  · rw [State.spdmBlocks_ingress, hm]
    rfl

end Spdm

/-- Settles O6: each control record by what its check refuses and what it does once it passes, Plaster's image by how its install ends,
and SPDM by the responder's one gate. The response bytes and error answers are those of logs 25 and 85. -/
theorem controlRecordsAndPlasterTakeEffect : Obligations.ControlRecordsAndPlasterTakeEffect := by
  intro s r b
  refine ⟨fun hi hm hu => ⟨fun hk => revokeKeys_effect hi hm hu hk, fun hk => optionUpdate_effect hi hm hu hk,
      fun hk hc hv hg hst hr hf hs hn he hd => optionUpdate_written hi hm hu hk hc hv hg hst hr hf hs hn he hd,
      fun hk => keyProvision_effect hi hm hu hk,
      fun k hk hc hz hs hr hp ht hd => keyProvision_written hi hm hu hk hc hz hs hr hp ht hd,
      fun hk => revminRestore_effect hi hm hu hk, fun hk => debugOpen_effect hi hm hu hk⟩,
    fun hi hu hk => principalSet_effect hi hu hk, fun c hi hm hu hc => controlRecordRefused_effect hi hm hu hc,
    fun fe hi hs hu => plasterImageReceived_effect fe hi hs hu, fun hs hr => ?_, fun hs hr => ?_, fun hi h20 => ?_⟩
  · exact ⟨completes_of (spdm_answered (o := execSpdmGetVersion b s) rfl rfl hs hr) rfl,
      completes_of (spdm_answered (o := execSpdmGetCapabilities b s) rfl rfl hs hr) rfl,
      completes_of (spdm_answered (o := execSpdmNegotiateAlgorithms b s) rfl rfl hs hr) rfl,
      completes_of (spdm_answered (o := execSpdmGetDigests b s) rfl rfl hs hr) rfl,
      completes_of (spdm_answered (o := execSpdmGetCertificate b s) rfl rfl hs hr) rfl,
      completes_of (spdm_answered (o := execSpdmChallenge b s) rfl rfl hs hr) rfl, spdm_measured hs hr⟩
  · rw [State.inService, Bool.and_eq_true] at hs
    exact completes_of (spdm_busy (o := execSpdmGetVersion b s) rfl rfl hs.1 (.inl hs.2) (.inr hr)) rfl
  · obtain ⟨t, ht⟩ : ∃ t, exec (.spdmGetVersion b) s = .next t := ⟨_, exec_eq_next _ s⟩
    exact completes_of ht
      ⟨fun hk => next_unique ht (spdm_busy (o := execSpdmGetVersion b s) rfl rfl hi (.inr hk) (.inl h20)),
        fun hk => next_unique ht (spdm_silent (o := execSpdmGetVersion b s) rfl rfl hi h20 hk)⟩

end Sys2Proof.Machine
end


section
/-!
SUPPORT. The rail state table (R153, R158): which of the moves that need no timer touch a rail's enable.
-/
namespace Sys2Proof.Machine

section Moves
variable {s : State} {g : Nat} {r : Rail}

/-- A test that every rail of a mask meets, rail by rail of the scope. -/
theorem State.allDeps_iff {mask : Nat} {p : Rail → Bool} : s.allDeps g mask p = true ↔
    ∀ k, k < scopeSize g → mask.testBit k = true → p (s.rail (scopeBase g + k)) = true := by
  simp only [State.allDeps, bitsOf, List.all_eq_true, List.mem_filter, List.mem_range, and_imp]

/-- A move keeps the rail's enable, or asserts it from WAIT_UP, or deasserts it from WAIT_DOWN (R153). -/
theorem State.railMove_enable (h : s.railMove g = some r) :
    r.enable = (s.rail g).enable ∨
    ((s.rail g).st = .waitUp ∧ (s.rail g).downReq = false ∧ s.allDeps g (s.upDeps g) (fun d => d.st == .good) = true ∧
      r = (s.rail g).enableNow) ∨
    ((s.rail g).st = .waitDown ∧ s.allDeps g (s.downDeps g) (fun d => !d.downReq || d.st.outOfWay) = true ∧
      r = (s.rail g).disableNow .falling) := by
  unfold State.railMove at h
  extract_lets x n at h
  split at h
  case h_1 hst =>
    by_cases hd : x.downReq = true
    · rw [if_pos hd] at h
      cases h
      exact .inl rfl
    · rw [if_neg hd] at h
      obtain ⟨hg, h⟩ := Option.ite_none_right_eq_some.1 h
      cases h
      split
      · exact .inr (.inl ⟨hst, Bool.eq_false_iff.2 hd, hg, rfl⟩)
      · exact .inl rfl
  case h_3 =>
    by_cases hd : x.downReq = true
    · rw [if_pos hd] at h
      cases h
      exact .inl rfl
    · rw [if_neg hd] at h
      obtain ⟨-, h⟩ := Option.ite_none_right_eq_some.1 h
      cases h
      exact .inl rfl
  case h_5 hst =>
    obtain ⟨hg, h⟩ := Option.ite_none_right_eq_some.1 h
    cases h
    split
    · exact .inr (.inr ⟨hst, hg, rfl⟩)
    · exact .inl rfl
  case h_9 => cases h
  all_goals
    obtain ⟨-, h⟩ := Option.ite_none_right_eq_some.1 h
    cases h
    exact .inl rfl

end Moves

/-- Settles O57: of the moves without a timer one alone asserts an enable and one alone deasserts it, each under its test of the
dependencies. -/
theorem railsRiseOnlyOnGoodDependencies : Obligations.RailsRiseOnlyOnGoodDependencies := by
  intro s g r h
  refine ⟨fun hr hw => ?_, fun hr hw => ?_⟩
  · rcases s.railMove_enable h with he | ⟨hst, hd, hg, rfl⟩ | ⟨-, -, rfl⟩
    · rw [he, hw] at hr
      cases hr
    · exact ⟨rfl, hst, hd, fun k hk hb => eq_of_beq (State.allDeps_iff.1 hg k hk hb)⟩
    · cases hr
  · rcases s.railMove_enable h with he | ⟨-, -, -, rfl⟩ | ⟨hst, hg, rfl⟩
    · rw [he, hw] at hr
      cases hr
    · cases hr
    · refine ⟨hst, fun k hk hb => ?_⟩
      simpa using State.allDeps_iff.1 hg k hk hb
end Sys2Proof.Machine
end


section
/-!
SUPPORT. SITE_CMD (R165, R168): the gate of every site command when it stands open, and what each command does in a state that admits
it.
-/
namespace Sys2Proof.Machine

variable {s : State} {r : Req} {n : Nat}

/-! ## The consequences of a site's rails (R153, R154, R164) -/

/-- A change of a site's rails is followed by the moves of its rails, of the site and of a system reset. -/
theorem State.settle_site (s : State) (hn : n < 8) :
    s.settle (32 * n) = ((s.railPasses (32 * n) 32 64).siteSettle n).sysSettle := by
  have hg : 32 * n < 256 := by omega
  have hd : 32 * n / 32 = n := Nat.mul_div_cancel_left n (by decide)
  unfold State.settle siteOf scopeBase scopeSize
  rw [if_pos hg, if_pos hg, if_pos hg, hd, Nat.mul_comm n 32]

/-- A site on its way down that neither failed to come up nor met a downfault stays on its way or is OFF (R164). -/
theorem State.siteSettle_down (hst : (s.site n).st = .seqDown) (hd : (s.site n).downfault = false) (hf : (s.site n).failedUp = false) :
    s.siteSettle n = s ∨ s.siteSettle n = (s.setSite n { s.site n with reaction := false }).siteTo n .off := by
  unfold State.siteSettle
  extract_lets x t
  split
  case h_1 h => exact absurd (hst.symm.trans h) (by decide)
  case h_2 =>
    by_cases ha : s.siteAllOff n = true
    · rw [if_pos ha, if_neg (Bool.eq_false_iff.1 hd), if_neg (Bool.eq_false_iff.1 hf)]
      exact .inr rfl
    · exact .inl (if_neg ha)
  case h_3 h => exact absurd (hst.symm.trans h) (by decide)
  case h_4 => exact .inl rfl

theorem State.sysSettle_idle (h : s.seq.sysReset = false) : s.sysSettle = s := by
  unfold State.sysSettle
  rw [h]
  rfl

theorem State.siteTo_site (s : State) (n : Nat) (st : SiteSt) : (s.siteTo n st).site n = { s.site n with st := st } :=
  (State.site_congr (s.siteTo_seq n st) n).trans (State.site_setSite_same _ _ _)

/-- Of the sequencer a site's entry into a state with its record and event changes that site alone. -/
theorem State.siteNoted_seq (s : State) (n : Nat) (st : SiteSt) (kind code : Nat) :
    (((s.siteTo n st).siteEvent n kind).event 3 164 n code).seq = (s.setSite n { s.site n with st := st }).seq :=
  ((State.event_touches (ps := [.log, .evt]) rfl (State.siteEvent_touches rfl (.refl _ _))).only .seq rfl).trans (s.siteTo_seq n st)

theorem RailsOnly.site {t : State} (h : RailsOnly s t) (n : Nat) : t.site n = s.site n := by
  rw [State.site, h.seq]
  rfl

/-- From `s` to `t` of the sequencer only rails change, and of its sites only site `n`. -/
structure State.SiteOnly (n : Nat) (s t : State) : Prop where
  seq : t.seq = { s.seq with rails := t.seq.rails, sites := t.seq.sites }
  other : ∀ k, k ≠ n → t.site k = s.site k

namespace State.SiteOnly

theorem refl (n : Nat) (s : State) : SiteOnly n s s := ⟨rfl, fun _ _ => rfl⟩

theorem trans {r s t : State} (h : SiteOnly n r s) (h' : SiteOnly n s t) : SiteOnly n r t :=
  ⟨by rw [h'.seq, h.seq], fun k hk => (h'.other k hk).trans (h.other k hk)⟩

theorem ofRails {t : State} (h : RailsOnly s t) : SiteOnly n s t :=
  ⟨by rw [h.seq], fun k _ => h.site k⟩

theorem ofSite {t : State} {x : Site} (h : t.seq = (s.setSite n x).seq) : SiteOnly n s t :=
  ⟨by rw [h]; rfl, fun k hk => (State.site_congr h k).trans (State.site_setSite_other _ _ _ hk)⟩

theorem ofSame {t : State} (h : t.seq = s.seq) : SiteOnly n s t := ⟨by rw [h], fun k _ => State.site_congr h k⟩

theorem setSite (x : Site) : SiteOnly n s (s.setSite n x) := ofSite rfl

theorem siteTo (st : SiteSt) : SiteOnly n s (s.siteTo n st) := ofSite (s.siteTo_seq n st)

theorem siteFault : SiteOnly n s (s.siteFault n) := ofSite (s.siteFault_seq n)

theorem siteNoted (st : SiteSt) (kind code : Nat) : SiteOnly n s (((s.siteTo n st).siteEvent n kind).event 3 164 n code) :=
  ofSite (s.siteNoted_seq n st kind code)

theorem siteDownSeq (b : Bool) : SiteOnly n s (s.siteDownSeq n b) :=
  (setSite _).trans ((siteTo _).trans (ofRails (RailsOnly.orderDown ..)))

theorem siteSettle : SiteOnly n s (s.siteSettle n) := by
  unfold State.siteSettle
  extract_lets x t
  have ht : SiteOnly n s t := setSite _
  split
  case h_1 =>
    split
    · exact siteNoted ..
    · exact refl n s
  case h_2 =>
    split
    · split
      · exact ht.trans siteFault
      · split
        · split
          · exact ht.trans (siteTo _)
          · exact ht.trans siteFault
        · exact ht.trans (siteTo _)
    · exact refl n s
  case h_3 =>
    split
    · exact (setSite _).trans siteFault
    · split
      · exact setSite _
      · exact refl n s
  case h_4 => exact refl n s

/-- With no system reset under way the consequences of a site's rails are its own (R153, R164). -/
theorem settle (hn : n < 8) (h : s.seq.sysReset = false) : SiteOnly n s (s.settle (32 * n)) := by
  have hs := (ofRails (n := n) (RailsOnly.railPasses s (32 * n) 32 64)).trans siteSettle
  rw [State.settle_site s hn, State.sysSettle_idle (by rw [hs.seq, h])]
  exact hs

end State.SiteOnly

theorem State.siteDownSeq_site (s : State) (n : Nat) (b : Bool) : (s.siteDownSeq n b).site n =
    { s.site n with st := .seqDown, failedUp := b, downfault := false, cutMask := 0 } := by
  unfold State.siteDownSeq
  extract_lets x t
  have ht := t.siteTo_site n .seqDown
  have ho := RailsOnly.orderDown (t.siteTo n .seqDown) (32 * n) 32 allRails
  have hx : t.site n = { s.site n with failedUp := b, downfault := false, cutMask := 0 } := State.site_setSite_same _ _ _
  rw [ho.site, ht, hx]

/-- A site ordered down, once its rails have made the moves that need no timer: on its way, or OFF with its reaction over (R164). -/
theorem State.siteDown_settled (s : State) (hn : n < 8) (h : s.seq.sysReset = false) :
    ((s.siteDownSeq n false).settle (32 * n)).site n =
      { s.site n with st := .seqDown, failedUp := false, downfault := false, cutMask := 0 } ∨
    ((s.siteDownSeq n false).settle (32 * n)).site n =
      { s.site n with st := .off, failedUp := false, downfault := false, cutMask := 0, reaction := false } := by
  have hd := s.siteDownSeq_site n false
  have ho : State.SiteOnly n s (s.siteDownSeq n false) := .siteDownSeq false
  generalize s.siteDownSeq n false = t at hd ho ⊢
  have hr := RailsOnly.railPasses t (32 * n) 32 64
  rw [t.settle_site hn]
  generalize t.railPasses (32 * n) 32 64 = u at hr ⊢
  have hu : u.site n = { s.site n with st := .seqDown, failedUp := false, downfault := false, cutMask := 0 } := by
    rw [hr.site, hd]
  have hs : (u.siteSettle n).seq.sysReset = false := by
    rw [(State.SiteOnly.siteSettle (s := u)).seq, hr.seq, ho.seq, h]
  rw [State.sysSettle_idle hs]
  rcases State.siteSettle_down (s := u) (n := n) (by rw [hu]) (by rw [hu]) (by rw [hu]) with he | he
  · rw [he]
    exact .inl hu
  · rw [he, State.siteTo_site, State.site_setSite_same, hu]
    exact .inr rfl

/-! ## The gate of the site commands, and their completion (R11, R156, R165) -/

theorem State.siteDone_seq (s : State) (r : Req) (n code : Nat) :
    (s.siteDone r n code).seq = { s.seq with cmdStatus := code, cmdSite := n % 8 } :=
  (State.complete_touches (ps := [.mem, .ques, .ebx, .evt, .dram, .out]) rfl (.refl _ _)).only .seq rfl

theorem State.siteDone_site (s : State) (r : Req) (n code k : Nat) : (s.siteDone r n code).site k = s.site k := by
  rw [State.site, s.siteDone_seq]
  rfl

theorem State.siteDone_answers (s : State) (r : Req) (n code : Nat) : s.answers (s.siteDone r n code) r code 0 0 :=
  State.complete_answers { s with seq := { s.seq with cmdStatus := code, cmdSite := n % 8 } } r code 0 0

/-- A site command from a principal that holds the right, for a site of a committed structure with no reaction running. -/
theorem siteCmd_exec {c : Instr} {f : State → State} (he : exec c s = s.coreDo fun s => s.siteCmd r n f) (hc : s.pwr.core = true)
    (hm : s.may r.principal .sitePower = true) (hn : n < 8) (hl : s.maq.live.isSome = true) (hr : s.reacting n = false) :
    exec c s = .next (f s) := by
  have hl : s.maq.live.isNone = false := by rw [← Option.not_isSome, hl]; rfl
  rw [he, coreDo_on hc, State.siteCmd, hm, hl, hr, if_neg (Nat.not_le.2 hn)]
  rfl

/-! ## The commands (R165, R168) -/

section Commands
variable (hc : s.pwr.core = true) (hm : s.may r.principal .sitePower = true) (hn : n < 8) (hl : s.maq.live.isSome = true)
  (hr : s.reacting n = false)
include hc hm hn hl hr

theorem siteUp_begins (hk : s.leakHeld n = false) (hb : s.upBarred n = false) (hh : s.snap.holdup = false)
    (hst : (s.site n).st = .off ∨ (s.site n).st = .degraded) :
    exec (.siteUp r n) s = .next ((s.siteUp n 1).siteDone r n 0) := by
  refine (siteCmd_exec rfl hc hm hn hl hr).trans (congrArg _ ?_)
  rw [if_neg (Bool.eq_false_iff.1 hk), hb, Bool.false_and, if_neg Bool.false_ne_true]
  rcases hst with h | h <;> rw [h] <;> exact if_neg (Bool.eq_false_iff.1 hh)

theorem siteUp_faulted (hk : s.leakHeld n = false) (hst : (s.site n).st = .faulted) :
    exec (.siteUp r n) s = .next (s.siteDone r n 0x52) := by
  refine (siteCmd_exec rfl hc hm hn hl hr).trans (congrArg _ ?_)
  rw [if_neg (Bool.eq_false_iff.1 hk), hst, show (SiteSt.faulted == .off || SiteSt.faulted == .degraded) = false from rfl, Bool.and_false]
  rfl

theorem siteDown_begins (hst : (s.site n).st = .running) :
    exec (.siteDown r n) s = .next (((s.siteDownSeq n false).settle (32 * n)).siteDone r n 0) := by
  refine (siteCmd_exec rfl hc hm hn hl hr).trans (congrArg _ ?_)
  rw [hst]

theorem siteDown_retryWait (hst : (s.site n).st = .retryWait) :
    exec (.siteDown r n) s = .next ((s.siteTo n .off).siteDone r n 0) := by
  refine (siteCmd_exec rfl hc hm hn hl hr).trans (congrArg _ ?_)
  rw [hst]

theorem siteDown_off (hst : (s.site n).st = .off) : exec (.siteDown r n) s = .next (s.siteDone r n 0) := by
  refine (siteCmd_exec rfl hc hm hn hl hr).trans (congrArg _ ?_)
  rw [hst]

theorem siteClear_known (hst : (s.site n).st = .faulted) (hk : (s.site n).stale = false) :
    exec (.siteClear r n) s = .next ((s.siteTo n .off).siteDone r n 0) := by
  refine (siteCmd_exec rfl hc hm hn hl hr).trans (congrArg _ ?_)
  exact (if_pos hst).trans (by rw [if_neg (Bool.eq_false_iff.1 hk)])

theorem siteClear_stale (hst : (s.site n).st = .faulted) (hk : (s.site n).stale = true) :
    exec (.siteClear r n) s = .next ((s.toIdentify n).siteDone r n 0) := by
  refine (siteCmd_exec rfl hc hm hn hl hr).trans (congrArg _ ?_)
  exact (if_pos hst).trans (by rw [if_pos hk])

theorem siteClear_refused (hst : (s.site n).st ≠ .faulted) : exec (.siteClear r n) s = .next (s.siteDone r n 0x53) :=
  (siteCmd_exec rfl hc hm hn hl hr).trans (congrArg _ (if_neg hst))

theorem siteIdentify_begins (hst : (s.site n).st = .off ∨ (s.site n).st = .unmatched) :
    exec (.siteIdentify r n) s = .next ((s.toIdentify n).siteDone r n 0) := by
  refine (siteCmd_exec rfl hc hm hn hl hr).trans (congrArg _ ?_)
  exact if_pos hst

end Commands

/-- A site whose ROM is to be read, with templates to match it (R164). -/
theorem State.toIdentify_site (h : s.hasSec 0x02 = true) :
    (s.toIdentify n).site n = { s.site n with st := .identifying, romReads := 0 } := by
  unfold State.toIdentify
  extract_lets x t _ _
  rw [if_pos (show t.hasSec 0x02 = true from h), State.siteTo_site, State.site_setSite_same]

/-- ADOPT takes a site's rails as its Survey channels show them: on those that are not off, the others OFF (R168). -/
def State.railsTaken (s : State) (n : Nat) : State :=
  (List.range 32).foldl (fun s k =>
    let g := 32 * n + k
    if s.used g && !s.railOff g then (s.setRail g { s.rail g with st := .good }).fullRate g
    else s.setRail g { s.rail g with st := .off }) s

theorem RailsOnly.railsTaken (s : State) (n : Nat) : RailsOnly s (s.railsTaken n) := by
  refine .foldl (fun s k => ?_) s
  extract_lets g
  split
  · exact (RailsOnly.setRail ..).trans (RailsOnly.fullRate ..)
  · exact RailsOnly.setRail ..

/-- An UNADOPTED site's Warden takes drive, and the site goes down (R168). -/
theorem siteAdopt_effect (hc : s.pwr.core = true) (hm : s.may r.principal .sitePower = true) (hn : n < 8)
    (hl : s.maq.live.isSome = true) (hr : s.reacting n = false) (hst : (s.site n).st = .unadopted) (hs : s.seq.sysReset = false) :
    Completes (.siteAdopt r n) s fun t => (t.site n).driven = true ∧ t.seq.cmdStatus = 0 ∧ t.seq.cmdSite = n ∧
      ((t.site n).st = .seqDown ∨ (t.site n).st = .off) := by
  have he : exec (.siteAdopt r n) s = .next
      (((((s.setSite n { s.site n with driven := true }).railsTaken n).siteDownSeq n false).settle (32 * n)).siteDone r n 0) := by
    refine (siteCmd_exec rfl hc hm hn hl hr).trans (congrArg _ ?_)
    exact if_pos hst
  have hr := RailsOnly.railsTaken (s.setSite n { s.site n with driven := true }) n
  generalize (s.setSite n { s.site n with driven := true }).railsTaken n = u at hr he
  have hu : u.site n = { s.site n with driven := true } := by
    rw [hr.site, State.site_setSite_same]
  refine completes_of he ?_
  rw [State.siteDone_site, State.siteDone_seq]
  rcases u.siteDown_settled hn (by rw [hr.seq]; exact hs) with h | h
  · rw [h, hu]
    exact ⟨rfl, rfl, Nat.mod_eq_of_lt hn, .inl rfl⟩
  · rw [h, hu]
    exact ⟨rfl, rfl, Nat.mod_eq_of_lt hn, .inr rfl⟩

/-- A command code outside the table completes FORMAT (R165), with or without a structure in force (log 73). -/
theorem siteCmdInvalid_effect {code : Nat} (hc : s.pwr.core = true) (hm : s.may r.principal .sitePower = true)
    (h : code = 0 ∨ 6 ≤ code) : exec (.siteCmdInvalid r n code) s = .next (s.siteDone r n 0x10) := by
  refine (exec_gated rfl hc).trans (congrArg _ ?_)
  exact (if_pos h).trans (if_pos hm)

/-- Settles O8: each command by what it does behind the gate; what it did stands in the state that its completion starts from. A code
outside the table is FORMAT also with no structure committed, which is the model's choice (log 73). -/
theorem siteCommandsTakeEffect : Obligations.SiteCommandsTakeEffect := by
  intro s r n hc hm
  have status (u : State) (code : Nat) : (u.siteDone r n code).seq.cmdStatus = code := by rw [State.siteDone_seq]
  refine ⟨fun hn hl hr => ?_, fun code h => completes_of (siteCmdInvalid_effect hc hm h) ⟨rfl, s.siteDone_answers r n 0x10, status s 0x10⟩⟩
  have site (u : State) (code : Nat) : (u.siteDone r n code).seq.cmdSite = n := by
    rw [State.siteDone_seq]
    exact Nat.mod_eq_of_lt hn
  have answers {u : State} (hu : Onward s u) : s.answers (u.siteDone r n 0) r 0 0 0 :=
    State.answers_of_grows hu.out (u.siteDone_answers r n 0)
  have up : Onward s (s.siteUp n 1) := by
    unfold State.siteUp
    extract_lets x u
    have hu : Onward s u := (Onward.refl s).silent (State.setSite_touches rfl (.refl _ s))
    exact (hu.siteTo.silent (State.orderUp_touches rfl (.refl _ _))).settle
  refine ⟨fun hk hb hh hst => ?_, fun hk hst => ?_, fun hst => ?_, fun hst => ?_, fun hst => ?_, fun hst hk => ?_, fun hst hk h2 => ?_,
    fun hst => ?_, fun hst hs => ?_, fun hst h2 => ?_⟩
  · exact completes_of (siteUp_begins hc hm hn hl hr hk hb hh hst) ⟨rfl, answers up, status _ 0, site _ 0⟩
  · exact completes_of (siteUp_faulted hc hm hn hl hr hk hst) ⟨rfl, s.siteDone_answers r n 0x52⟩
  · exact completes_of (siteDown_begins hc hm hn hl hr hst) ⟨rfl, status _ 0, site _ 0⟩
  · refine completes_of (siteDown_retryWait hc hm hn hl hr hst) ⟨?_, answers (Onward.refl s).siteTo, ?_⟩
    · rw [State.siteDone_site, State.siteTo_site]
    · rw [State.siteDone_seq, State.siteTo_seq]
      rfl
  · exact completes_of (siteDown_off hc hm hn hl hr hst) ⟨rfl, s.siteDone_answers r n 0⟩
  · refine completes_of (siteClear_known hc hm hn hl hr hst hk) ⟨?_, answers (Onward.refl s).siteTo⟩
    rw [State.siteDone_site, State.siteTo_site]
  · refine completes_of (siteClear_stale hc hm hn hl hr hst hk) ⟨?_, answers (Onward.refl s).toIdentify⟩
    rw [State.siteDone_site, State.toIdentify_site h2]
  · exact completes_of (siteClear_refused hc hm hn hl hr hst) ⟨rfl, s.siteDone_answers r n 0x53⟩
  · exact siteAdopt_effect hc hm hn hl hr hst hs
  · refine completes_of (siteIdentify_begins hc hm hn hl hr hst) ⟨?_, answers (Onward.refl s).toIdentify⟩
    rw [State.siteDone_site, State.toIdentify_site h2]

end Sys2Proof.Machine
end


section
/-!
SUPPORT. A site's presence, its identification, its retries and its adoption (R162 to R168).
-/
namespace Sys2Proof.Machine

variable {s : State} {n : Nat}

/-! ## Presence and settling (R164, R166) -/

/-- A site's presence pin as it now stands. -/
def State.presence (s : State) (n : Nat) (on : Bool) : State :=
  { s with pins := { s.pins with present := setBit s.pins.present n on } }

theorem siteTo_pins (s : State) (n : Nat) (st : SiteSt) : (s.siteTo n st).pins = s.pins :=
  (State.siteTo_touches (ps := Part.others.erase .pins) rfl (.refl _ s)).only .pins rfl

theorem sitePresentAsserted_exec (hs : s.pwr.standby = true) : exec (.sitePresentAsserted n) s = .next
    (if (s.site n).st = .absent && s.maq.live.isSome && !s.pwr.absent.getLsbD (24 + n) then (s.presence n true).siteTo n .settling
      else s.presence n true) :=
  exec_gated rfl hs

theorem sitePresentAsserted_effect (hs : s.pwr.standby = true) : Completes (.sitePresentAsserted n) s fun t =>
    t.pins = { s.pins with present := setBit s.pins.present n true } ∧
    ((s.site n).st = .absent → s.maq.live.isSome = true → s.pwr.absent.getLsbD (24 + n) = false →
      t.site n = { s.site n with st := .settling }) ∧
    ((s.site n).st ≠ .absent → t.seq = s.seq) := by
  refine completes_of (sitePresentAsserted_exec hs) ⟨?_, fun ha hl hw => ?_, fun ha => ?_⟩
  · split
    · exact siteTo_pins ..
    · rfl
  · rw [ha, hl, hw]
    exact (s.presence n true).siteTo_site n .settling
  · rw [decide_eq_false ha]
    rfl

/-- With no templates a site that is to be identified becomes UNMATCHED (R166). -/
theorem State.toIdentify_untemplated (h : s.hasSec 0x02 = false) :
    (s.toIdentify n).site n = { s.site n with st := .unmatched, romReads := 0, template := 0xFF } := by
  unfold State.toIdentify
  extract_lets x t y u
  rw [if_neg (Bool.eq_false_iff.1 (show t.hasSec 0x02 = false from h)), State.site_congr (u.siteNoted_seq n _ _ _)]
  simp only [t, u, x, y, State.site_setSite_same]

theorem siteSettleExpiry_effect (hs : s.pwr.standby = true) (hst : (s.site n).st = .settling) (hp : s.pins.present.getLsbD n = true)
    (hw : s.pwr.absent.getLsbD (24 + n) = false) : exec (.siteSettleExpiry n) s = .next (s.toIdentify n) := by
  refine (exec_gated rfl hs).trans (congrArg _ (if_pos ?_))
  rw [hst, hp, hw]
  rfl

/-! ## Identification (R162, R163) -/

theorem State.sec_congr {t : State} (h : t.maq = s.maq) (k : Nat) : t.sec k = s.sec k := by
  unfold State.sec
  rw [h]

/-- What a template's match is followed by: counters of another serial retired, the ROM's records read (R164, R178, R184, R225). -/
def State.recordsRead (s : State) (n : Nat) (rom : Bytes) : State := (s.retireCounters n (s.serial n)).readRecords n rom

theorem State.recordsRead_frame (s : State) (n : Nat) (rom : Bytes) :
    s.onlyChanges [.svy, .rcnt, .log, .cap, .pat, .chi, .evt] (s.recordsRead n rom) :=
  (State.readRecords_touches rfl (State.retireCounters_touches rfl (.refl _ s))).only

/-- Of the sequencer a site's entry into a state with its record changes that site alone. -/
theorem State.siteEvent_seq (s : State) (n : Nat) (st : SiteSt) (kind : Nat) :
    ((s.siteTo n st).siteEvent n kind).seq = (s.setSite n { s.site n with st := st }).seq :=
  ((State.siteEvent_touches (ps := [.log, .evt]) rfl (.refl _ _)).only .seq rfl).trans (s.siteTo_seq n st)

theorem State.siteEvent_maq (s : State) (n : Nat) (st : SiteSt) (kind : Nat) : ((s.siteTo n st).siteEvent n kind).maq = s.maq :=
  (State.siteEvent_touches (ps := Part.others.erase .maq) rfl (State.siteTo_touches rfl (.refl _ s))).only .maq rfl

section Identify
variable {rom : Bytes} (hst : (s.site n).st = .identifying)
include hst

/-- A bad header is read again, three times in all (R163). -/
theorem State.identify_again (hr : romOk rom = false) (hn : (s.site n).romReads + 1 < 3) :
    s.identify n rom = s.setSite n { s.site n with romReads := (s.site n).romReads + 1 } := by
  unfold State.identify
  extract_lets x
  rw [if_neg (not_not.2 hst), if_neg (Bool.eq_false_iff.1 hr), if_pos hn]

/-- The third bad header leaves the site UNMATCHED with no ROM (R163, R166). -/
theorem State.identify_unread (hr : romOk rom = false) (hn : ¬ (s.site n).romReads + 1 < 3) :
    (s.identify n rom).site n = { s.site n with st := .unmatched, template := 0xFF, rom := [], romReads := 0 } := by
  unfold State.identify
  extract_lets x _ _ _ t
  rw [if_neg (not_not.2 hst), if_neg (Bool.eq_false_iff.1 hr), if_neg hn, State.site_congr (t.siteNoted_seq n _ _ _)]
  simp only [t, x, State.site_setSite_same]

/-- A site that no template matches is UNMATCHED (R163, R166). -/
theorem State.identify_unmatched (hr : romOk rom = true) (hm : s.matchTpl n rom = none) :
    (s.identify n rom).site n = { s.site n with st := .unmatched, template := 0xFF, rom := rom, romReads := 0 } := by
  unfold State.identify
  extract_lets x t y u
  rw [if_neg (not_not.2 hst), if_pos hr, show t.matchTpl n rom = none from hm]
  refine (State.site_congr (u.siteNoted_seq n _ _ _) n).trans ?_
  simp only [t, u, x, y, State.site_setSite_same]

end Identify

/-- A site with the ROM and the template that it has been matched by (R163). -/
def State.templateTaken (s : State) (n : Nat) (rom : Bytes) (p : Nat) : State :=
  let s := s.setSite n { s.site n with rom := rom, romReads := 0 }
  s.setSite n { s.site n with template := p, stale := false }

/-- An identified site stands OFF, with its record (R164). -/
def State.siteIdentified (s : State) (n : Nat) (rom : Bytes) (p : Nat) : State :=
  (((s.templateTaken n rom p).recordsRead n rom).siteTo n .off).siteEvent n 0x01

theorem State.siteIdentified_maq (s : State) (n : Nat) (rom : Bytes) (p : Nat) : (s.siteIdentified n rom p).maq = s.maq :=
  (State.siteEvent_maq _ n .off 0x01).trans (((s.templateTaken n rom p).recordsRead_frame n rom) .maq rfl)

theorem State.siteIdentified_site (s : State) (n : Nat) (rom : Bytes) (p : Nat) : (s.siteIdentified n rom p).site n =
    { s.site n with st := .off, template := p, stale := false, rom := rom, romReads := 0 } := by
  have frame := (s.templateTaken n rom p).recordsRead_frame n rom
  rw [State.siteIdentified, State.site_congr (State.siteEvent_seq _ n .off 0x01), State.site_setSite_same, State.site_congr (frame .seq rfl)]
  simp only [State.templateTaken, State.site_setSite_same]

/-- A site that a template matches is OFF, and is powered up where the template says so and nothing bars it (R163, R164). -/
theorem State.identify_matched {rom : Bytes} {p : Nat} (hst : (s.site n).st = .identifying) (hr : romOk rom = true)
    (hm : s.matchTpl n rom = some p) : s.identify n rom =
      if tplAutoUp (tplOf ((s.siteIdentified n rom p).sec 0x02) p) && !(s.siteIdentified n rom p).snap.holdup &&
          !(s.siteIdentified n rom p).leakHeld n && !(s.siteIdentified n rom p).upBarred n then (s.siteIdentified n rom p).siteUp n 1
      else s.siteIdentified n rom p := by
  unfold State.identify
  extract_lets x t
  rw [if_neg (not_not.2 hst), if_pos hr, show t.matchTpl n rom = some p from hm]
  rfl

/-- Without AUTO_UP it stays OFF. -/
theorem State.identify_off {rom : Bytes} {p : Nat} (hst : (s.site n).st = .identifying) (hr : romOk rom = true)
    (hm : s.matchTpl n rom = some p) (ha : tplAutoUp (tplOf (s.sec 0x02) p) = false) :
    s.identify n rom = s.siteIdentified n rom p := by
  rw [State.identify_matched hst hr hm, State.sec_congr (s.siteIdentified_maq n rom p), ha, Bool.false_and, Bool.false_and, Bool.false_and,
    if_neg Bool.false_ne_true]

theorem siteIdentityRead_exec {rom : Bytes} (hs : s.pwr.standby = true) (h : (s.site n).romReads = 0) :
    exec (.siteIdentityRead n rom) s = .next (s.identify n rom) := (exec_gated rfl hs).trans (congrArg _ (if_pos h))

theorem siteIdromRereadTimer_exec {rom : Bytes} (hs : s.pwr.standby = true) (h : (s.site n).romReads ≠ 0) :
    exec (.siteIdromRereadTimer n rom) s = .next (s.identify n rom) := (exec_gated rfl hs).trans (congrArg _ (if_neg h))

theorem siteIdromRereadTimer_idle {rom : Bytes} (hs : s.pwr.standby = true) (h : (s.site n).romReads = 0) :
    exec (.siteIdromRereadTimer n rom) s = .next s := (exec_gated rfl hs).trans (congrArg _ (if_pos h))

theorem siteIdentityRead_effect {rom : Bytes} (hs : s.pwr.standby = true) (hst : (s.site n).st = .identifying)
    (h0 : (s.site n).romReads = 0) : Completes (.siteIdentityRead n rom) s fun t =>
      (romOk rom = false → t.site n = { s.site n with romReads := 1 } ∧ s.onlyChanges [.seq] t) ∧
      (romOk rom = true → s.matchTpl n rom = none →
        t.site n = { s.site n with st := .unmatched, template := 0xFF, rom := rom, romReads := 0 }) ∧
      (∀ p, romOk rom = true → s.matchTpl n rom = some p → tplAutoUp (tplOf (s.sec 0x02) p) = false →
        t.site n = { s.site n with st := .off, template := p, stale := false, rom := rom, romReads := 0 }) := by
  refine completes_of (siteIdentityRead_exec hs h0) ⟨fun hr => ?_, fun hr hm => State.identify_unmatched hst hr hm, fun p hr hm ha => ?_⟩
  · rw [State.identify_again hst hr (by omega), State.site_setSite_same, h0]
    exact ⟨rfl, (State.setSite_touches rfl (.refl _ s)).only⟩
  · rw [State.identify_off hst hr hm ha]
    exact s.siteIdentified_site n rom p

theorem siteIdromRereadTimer_effect {rom : Bytes} (hs : s.pwr.standby = true) (hst : (s.site n).st = .identifying)
    (h2 : (s.site n).romReads = 2) : Completes (.siteIdromRereadTimer n rom) s fun t =>
      (romOk rom = false → t.site n = { s.site n with st := .unmatched, template := 0xFF, rom := [], romReads := 0 }) ∧
      (romOk rom = true → s.matchTpl n rom = none →
        t.site n = { s.site n with st := .unmatched, template := 0xFF, rom := rom, romReads := 0 }) :=
  completes_of (siteIdromRereadTimer_exec hs (by omega))
    ⟨fun hr => State.identify_unread hst hr (by omega), fun hr hm => State.identify_unmatched hst hr hm⟩

/-! ## Presence lost (R164, R167) -/

/-- The rails of a site that is gone: every enable deasserted without order, every rail judged off (R167). -/
def State.railsRemoved (s : State) (n : Nat) : State :=
  (List.range 32).foldl (fun (s : State) k =>
    let r := s.rail (32 * n + k)
    let s := if r.enable then s.pmbusWrite (32 * n + k) false else s
    s.setRail (32 * n + k) { pg := r.pg, lastBack := r.lastBack }) s

/-- The record of a removal, and the site as it leaves it (R164, R167). -/
def State.siteGone (s : State) (n : Nat) : State :=
  let s := (s.siteEvent n 0x05).siteTo n .absent
  s.setSite n { s.site n with reaction := false, driven := false, template := 0xFF, rom := [] }

/-- A site that was inserted is removed (R167). -/
def State.siteRemoved (s : State) (n : Nat) : State := ((s.railsRemoved n).siteGone n).sysSettle

theorem RailsOnly.railsRemoved (s : State) (n : Nat) : RailsOnly s (s.railsRemoved n) := by
  refine .foldl (fun s k => ?_) s
  extract_lets r t
  refine RailsOnly.trans ?_ (.setRail ..)
  unfold t
  split
  · exact .pmbusWrite ..
  · exact .refl s

theorem State.railsRemoved_off (s : State) (n : Nat) {k : Nat} (hk : k < 32) :
    ((s.railsRemoved n).rail (32 * n + k)).enable = false ∧ ((s.railsRemoved n).rail (32 * n + k)).st = .off := by
  refine foldl_each (P := fun k (s : State) => (s.rail (32 * n + k)).enable = false ∧ (s.rail (32 * n + k)).st = .off)
    (fun s k => ?_) (fun s j k h => ?_) (List.mem_range.2 hk)
  · extract_lets r t
    rw [State.rail_setRail_same]
    exact ⟨rfl, rfl⟩
  · extract_lets r t
    by_cases he : k = j
    · subst he
      rw [State.rail_setRail_same]
      exact ⟨rfl, rfl⟩
    · have ht : t.seq = s.seq := by
        unfold t
        split
        · exact (State.pmbusWrite_touches (ps := [.out]) rfl (.refl _ s)).only .seq rfl
        · rfl
      rw [State.rail_setRail_other _ _ _ (by omega), State.rail, ht]
      exact h

theorem State.railsRemoved_touches (s : State) (n : Nat) : Touches [.pwr, .seq, .out] s (s.railsRemoved n) := by
  refine .foldl (fun u k hu => ?_) (.refl _ s)
  extract_lets r t
  exact State.setRail_touches rfl (.ite (State.pmbusWrite_touches rfl hu) hu)

theorem State.siteRemoved_pins (s : State) (n : Nat) : (s.siteRemoved n).pins = s.pins := by
  have ht : Touches (Part.others.erase .pins) s (((s.railsRemoved n).siteEvent n 0x05).siteTo n .absent) :=
    State.siteTo_touches rfl (State.siteEvent_touches rfl ((s.railsRemoved_touches n).mono rfl))
  exact (State.sysSettle_touches rfl (State.setSite_touches rfl ht)).only .pins rfl

theorem State.siteEvent_keeps (s : State) (n kind : Nat) : (s.siteEvent n kind).seq = s.seq :=
  (State.siteEvent_touches (ps := [.log, .evt]) rfl (.refl _ s)).only .seq rfl

theorem State.siteGone_site (s : State) (n : Nat) : (s.siteGone n).site n =
    { s.site n with st := .absent, reaction := false, driven := false, template := 0xFF, rom := [] } := by
  rw [State.siteGone, State.site_setSite_same, State.siteTo_site, State.site_congr (s.siteEvent_keeps n 0x05)]

theorem State.siteGone_seq (s : State) (n : Nat) : (s.siteGone n).seq = { s.seq with sites := (s.siteGone n).seq.sites } := by
  have ht : (((s.siteEvent n 0x05).siteTo n .absent)).seq = { s.seq with sites := ((s.siteEvent n 0x05).siteTo n .absent).seq.sites } := by
    rw [State.siteTo_seq, State.setSite, s.siteEvent_keeps]
  unfold State.siteGone State.setSite
  generalize (s.siteEvent n 0x05).siteTo n .absent = t at ht ⊢
  dsimp only
  rw [ht]

/-- With no system reset under way a site that is removed stands ABSENT, undriven, its rails off (R167). -/
theorem State.siteRemoved_effect (s : State) (n : Nat) (h : s.seq.sysReset = false) :
    ((s.siteRemoved n).site n).st = .absent ∧ ((s.siteRemoved n).site n).template = 0xFF ∧ ((s.siteRemoved n).site n).driven = false ∧
    ((s.siteRemoved n).site n).reaction = false ∧
    ∀ k, k < 32 → ((s.siteRemoved n).rail (32 * n + k)).enable = false ∧ ((s.siteRemoved n).rail (32 * n + k)).st = .off := by
  have off {k : Nat} (hk : k < 32) := s.railsRemoved_off n hk
  have hr := RailsOnly.railsRemoved s n
  unfold State.siteRemoved
  generalize s.railsRemoved n = u at off hr ⊢
  have hs : (u.siteGone n).seq.sysReset = false := by rw [u.siteGone_seq, hr.seq, h]
  rw [State.sysSettle_idle hs, u.siteGone_site]
  refine ⟨rfl, rfl, rfl, rfl, fun k hk => ?_⟩
  rw [State.rail, u.siteGone_seq]
  exact off hk

theorem sitePresenceLost_exec (hs : s.pwr.standby = true) : exec (.sitePresenceLost n) s = .next
    (match (s.site n).st with
      | .absent => s.presence n false
      | .settling => (s.presence n false).siteTo n .absent
      | _ => (s.presence n false).siteRemoved n) :=
  exec_gated rfl hs

theorem sitePresenceLost_effect (hs : s.pwr.standby = true) : Completes (.sitePresenceLost n) s fun t =>
    t.pins = { s.pins with present := setBit s.pins.present n false } ∧
    ((s.site n).st = .settling → t.site n = { s.site n with st := .absent }) ∧
    ((s.site n).st = .running → s.seq.sysReset = false → (t.site n).st = .absent ∧ (t.site n).template = 0xFF ∧
      (t.site n).driven = false ∧ (t.site n).reaction = false ∧
      ∀ k, k < 32 → (t.rail (32 * n + k)).enable = false ∧ (t.rail (32 * n + k)).st = .off) := by
  refine completes_of (sitePresenceLost_exec hs) ⟨?_, fun h => ?_, fun h h0 => ?_⟩
  · split
    · rfl
    · exact siteTo_pins ..
    · exact State.siteRemoved_pins ..
  · rw [h]
    exact (s.presence n false).siteTo_site n .absent
  · rw [h]
    exact (s.presence n false).siteRemoved_effect n h0

/-! ## Retries (R154, R164) -/

theorem siteRetryWaitExpiry_tries (hs : s.pwr.standby = true) (hst : (s.site n).st = .retryWait) (hh : s.snap.holdup = false)
    (hr : (s.seq.sysReset && s.seq.sysSites.getLsbD n) = false) (hb : s.upBarred n = false) :
    exec (.siteRetryWaitExpiry n) s = .next (s.siteUp n ((s.site n).attempt + 1)) := by
  refine (exec_gated rfl hs).trans (congrArg _ (if_pos ?_))
  rw [hst, hh, hr, hb]
  rfl

theorem siteRetryWaitExpiry_waits (hs : s.pwr.standby = true) (hh : s.snap.holdup = true) :
    exec (.siteRetryWaitExpiry n) s = .next s := by
  refine (exec_gated rfl hs).trans (congrArg _ (if_neg ?_))
  rw [hh, Bool.not_true, Bool.and_false, Bool.false_and, Bool.false_and]
  exact Bool.false_ne_true

/-! ## Adoption (R168) -/

/-- A site to be adopted, with what its Warden reports of it (R138, R168, R455). -/
def State.reported (s : State) (n : Nat) (rom : Bytes) (ep : Nat) (digest : Bytes) (version : Nat) (tpl : Option Nat) : State :=
  let s := { s with ebx := { s.ebx with siteEp := Tbl.set s.ebx.siteEp n ep } }
  s.setSite n { s.site n with rom := if romOk rom then rom else [], template := tpl.getD 0xFF, stale := false
                              imageDigest := digestAt digest 0, imageVersion := version, driven := true }

/-- The USED rails of a site. -/
def State.usedRails (s : State) (n : Nat) : List Nat := (List.range 32).filter fun k => s.used (32 * n + k)

/-- Its rails as the Warden judged them and the latch holds them, those on scanned at full rate (R35, R168). -/
def State.railsAdopted (s : State) (n good off latched : Nat) : State :=
  let used := s.usedRails n
  let s := (List.range 32).foldl (fun s k =>
    s.setRail (32 * n + k) { s.rail (32 * n + k) with
      enable := latched.testBit k, pg := s.adoptPg (32 * n + k) (good.testBit k) (off.testBit k), qualified := good.testBit k, fresh := good.testBit k
      downReq := false, st := if good.testBit k && used.contains k then .good else .off }) s
  used.foldl (fun (s : State) k => if off.testBit k then s else s.fullRate (32 * n + k)) s

/-- A site left under its latch (R168). -/
def State.leftLatched (s : State) (n : Nat) : State := (s.setSite n { s.site n with driven := false }).siteTo n .unadopted

theorem State.adopt_absent {rom digest : Bytes} {good off latched ep version : Nat} {skip : Bool}
    (hg : ¬ (s.pair.st ≠ .lead ∨ s.maq.live.isNone ∨ s.pwr.absent.getLsbD (24 + n) ∨ s.rst.wardenHeld.getLsbD n))
    (hp : s.pins.present.getLsbD n = false) :
    s.adopt n rom good off latched ep digest version skip = (s.endJobOn n false).siteTo n .absent := by
  unfold State.adopt
  rw [if_neg hg, if_pos (by rw [hp]; rfl)]

theorem State.adopt_unmatched {rom digest : Bytes} {good off latched ep version : Nat} {skip : Bool}
    (hg : ¬ (s.pair.st ≠ .lead ∨ s.maq.live.isNone ∨ s.pwr.absent.getLsbD (24 + n) ∨ s.rst.wardenHeld.getLsbD n))
    (hp : s.pins.present.getLsbD n = true) (hm : (if romOk rom then s.matchTpl n rom else none) = none) :
    s.adopt n rom good off latched ep digest version skip =
      ((((((s.reported n rom ep digest version none).railsAdopted n good off latched).endJobOn n false).setSite n
        { ((s.reported n rom ep digest version none).railsAdopted n good off latched).site n with driven := false }).siteTo n
          .unadopted).siteEvent n 0x07) := by
  unfold State.adopt
  rw [if_neg hg, if_neg (by rw [hp]; decide)]
  extract_lets e t tpl
  have ht : tpl = none := hm
  clear_value tpl
  subst ht
  rfl

theorem State.adopt_matched {rom digest : Bytes} {good off latched ep version p : Nat} {skip : Bool}
    (hg : ¬ (s.pair.st ≠ .lead ∨ s.maq.live.isNone ∨ s.pwr.absent.getLsbD (24 + n) ∨ s.rst.wardenHeld.getLsbD n))
    (hp : s.pins.present.getLsbD n = true) (hm : (if romOk rom then s.matchTpl n rom else none) = some p) :
    let u := s.reported n rom ep digest version (some p)
    let v := (u.railsAdopted n good off latched).recordsRead n rom
    s.adopt n rom good off latched ep digest version skip =
      if !skip && (u.usedRails n).all good.testBit then (v.siteTo n .running).siteEvent n 0x06
      else if !skip && (u.usedRails n).all off.testBit then ((v.endJobOn n false).siteTo n .off).siteEvent n 0x06
      else ((v.endJobOn n false).leftLatched n).siteEvent n 0x07 := by
  intro u v
  unfold State.adopt
  rw [if_neg hg, if_neg (by rw [hp]; decide)]
  extract_lets e t tpl
  have ht : tpl = some p := hm
  clear_value tpl
  subst ht
  rfl

theorem RailsOnly.railsAdopted (s : State) (n good off latched : Nat) : RailsOnly s (s.railsAdopted n good off latched) := by
  unfold State.railsAdopted
  extract_lets used t
  have ht : RailsOnly s t := .foldl (fun _ _ => .setRail ..) s
  refine ht.trans (.foldl (fun u k => ?_) t)
  split
  · exact .refl u
  · exact .fullRate ..

theorem State.endJobOn_seq (s : State) (n : Nat) (b : Bool) : (s.endJobOn n b).seq = s.seq :=
  (State.endJobOn_touches (ps := [.met]) rfl (.refl _ s)).only .seq rfl

theorem State.reported_site (s : State) (n : Nat) (rom : Bytes) (ep : Nat) (digest : Bytes) (version : Nat) (tpl : Option Nat) :
    (s.reported n rom ep digest version tpl).site n = { s.site n with
      rom := if romOk rom then rom else [], template := tpl.getD 0xFF, stale := false
      imageDigest := digestAt digest 0, imageVersion := version, driven := true } := State.site_setSite_same _ _ _

theorem State.SiteOnly.reported (n : Nat) (rom : Bytes) (ep : Nat) (digest : Bytes) (version : Nat) (tpl : Option Nat) :
    State.SiteOnly n s (s.reported n rom ep digest version tpl) :=
  ⟨rfl, fun _ hk => State.site_setSite_other _ _ _ hk⟩

theorem State.leftLatched_site (s : State) (n : Nat) :
    ((s.leftLatched n).siteEvent n 0x07).site n = { s.site n with driven := false, st := .unadopted } := by
  rw [State.site_congr (State.siteEvent_keeps _ n 0x07), State.leftLatched, State.siteTo_site, State.site_setSite_same]

theorem State.SiteOnly.leftLatched : State.SiteOnly n s ((s.leftLatched n).siteEvent n 0x07) :=
  (State.SiteOnly.setSite _).trans ((State.SiteOnly.siteTo _).trans (.ofSame (State.siteEvent_keeps _ n 0x07)))

section Adopt
variable {rom digest : Bytes} {good off latched ep version : Nat} {skip : Bool}
  (hg : ¬ (s.pair.st ≠ .lead ∨ s.maq.live.isNone ∨ s.pwr.absent.getLsbD (24 + n) ∨ s.rst.wardenHeld.getLsbD n))
include hg

/-- Of the sequencer an adoption changes the site's rails and the site alone. -/
theorem State.SiteOnly.adopt : State.SiteOnly n s (s.adopt n rom good off latched ep digest version skip) := by
  have job (u : State) : State.SiteOnly n u (u.endJobOn n false) := .ofSame (u.endJobOn_seq n false)
  have entry (u : State) (st : SiteSt) (kind : Nat) : State.SiteOnly n u ((u.siteTo n st).siteEvent n kind) :=
    .ofSite (u.siteEvent_seq n st kind)
  have rails (tpl : Option Nat) :
      State.SiteOnly n s ((s.reported n rom ep digest version tpl).railsAdopted n good off latched) :=
    (State.SiteOnly.reported n rom ep digest version tpl).trans (.ofRails (RailsOnly.railsAdopted ..))
  cases hp : s.pins.present.getLsbD n with
  | false =>
    rw [State.adopt_absent hg hp]
    exact (job s).trans (.siteTo _)
  | true =>
    cases hm : (if romOk rom then s.matchTpl n rom else none) with
    | none =>
      rw [State.adopt_unmatched hg hp hm]
      exact (rails none).trans ((job _).trans ((State.SiteOnly.setSite _).trans (entry ..)))
    | some p =>
      rw [State.adopt_matched hg hp hm]
      have hv := (rails (some p)).trans
        (.ofSame (State.recordsRead_frame ((s.reported n rom ep digest version (some p)).railsAdopted n good off latched) n rom .seq rfl))
      split
      · exact hv.trans (entry ..)
      · split
        · exact hv.trans ((job _).trans (entry ..))
        · exact hv.trans ((job _).trans .leftLatched)

theorem State.adopt_absent_site (hp : s.pins.present.getLsbD n = false) :
    ((s.adopt n rom good off latched ep digest version skip).site n).st = .absent := by
  rw [State.adopt_absent hg hp, State.siteTo_site]

/-- A site whose ROM no template matches is left under its latch. -/
theorem State.adopt_unmatched_site (hp : s.pins.present.getLsbD n = true) (hm : (if romOk rom then s.matchTpl n rom else none) = none) :
    ((s.adopt n rom good off latched ep digest version skip).site n).st = .unadopted ∧
    ((s.adopt n rom good off latched ep digest version skip).site n).driven = false ∧
    ((s.adopt n rom good off latched ep digest version skip).site n).template = 0xFF := by
  rw [State.adopt_unmatched hg hp hm, State.site_congr (State.siteEvent_keeps _ n 0x07), State.siteTo_site, State.site_setSite_same,
    (RailsOnly.railsAdopted ..).site, State.reported_site]
  exact ⟨rfl, rfl, rfl⟩

/-- A site that a template matches is RUNNING where every USED rail is good, and else OFF or left under its latch. -/
theorem State.adopt_matched_site {p : Nat} (hp : s.pins.present.getLsbD n = true) (hr : romOk rom = true) (hm : s.matchTpl n rom = some p) :
    ((s.adopt n rom good off latched ep digest version skip).site n).template = p ∧
    ((s.adopt n rom good off latched ep digest version skip).site n).rom = rom ∧
    (((s.adopt n rom good off latched ep digest version skip).site n).st = .running ∨
      ((s.adopt n rom good off latched ep digest version skip).site n).st = .off ∨
      ((s.adopt n rom good off latched ep digest version skip).site n).st = .unadopted) ∧
    ((∀ k, k < 32 → good.testBit k = true) → skip = false →
      ((s.adopt n rom good off latched ep digest version skip).site n).st = .running ∧
      ((s.adopt n rom good off latched ep digest version skip).site n).driven = true) := by
  rw [State.adopt_matched hg hp ((if_pos hr).trans hm)]
  have hv : (((s.reported n rom ep digest version (some p)).railsAdopted n good off latched).recordsRead n rom).site n =
      { s.site n with
        rom := rom, template := p, stale := false, imageDigest := digestAt digest 0, imageVersion := version, driven := true } := by
    rw [State.site_congr (State.recordsRead_frame _ n rom .seq rfl), (RailsOnly.railsAdopted ..).site, State.reported_site, if_pos hr,
      Option.getD_some]
  generalize ((s.reported n rom ep digest version (some p)).railsAdopted n good off latched).recordsRead n rom = v at hv ⊢
  split
  · rw [State.site_congr (State.siteEvent_seq ..), State.site_setSite_same, hv]
    exact ⟨rfl, rfl, .inl rfl, fun _ _ => ⟨rfl, rfl⟩⟩
  next hno =>
    have bad (hall : ∀ k, k < 32 → good.testBit k = true) (hs : skip = false) : False :=
      hno (by
        rw [hs, Bool.not_false, Bool.true_and, List.all_eq_true]
        exact fun k hk => hall k (List.mem_range.1 (List.mem_of_mem_filter hk)))
    split
    · rw [State.site_congr (State.siteEvent_seq ..), State.site_setSite_same, State.site_congr (v.endJobOn_seq n false), hv]
      exact ⟨rfl, rfl, .inr (.inl rfl), fun h h' => (bad h h').elim⟩
    · rw [State.leftLatched_site, State.site_congr (v.endJobOn_seq n false), hv]
      exact ⟨rfl, rfl, .inr (.inr rfl), fun h h' => (bad h h').elim⟩

end Adopt

/-- The end of step 18 and the beginning of step 19 leave the sites and the sequencer's own state alone (R101, R102). -/
theorem RailsOnly.laterSteps (s : State) : RailsOnly s s.laterSteps := by
  have ended (o : StepEnd) (d : Option Nat) : RailsOnly s (s.endStep 18 o d) :=
    have h := (State.endStep_touches (ps := [.led]) (n := 18) (o := o) (detail := d) rfl (.refl _ s)).only
    .of_same (h .pwr rfl) (h .seq rfl)
  have begun (u : State) : RailsOnly u u.begin19 := by
    unfold State.begin19
    split
    · exact .refl u
    · exact State.beginStep_pwr u _ _ (by decide) (by decide)
  unfold State.laterSteps
  split
  · exact (ended _ _).trans (begun _)
  · exact .refl s

/-- A site judged in step 18 no longer waits for it (R102). -/
def State.siteJudged (s : State) (n : Nat) : State :=
  (({ s with seq := { s.seq with toAdopt := setBit s.seq.toAdopt n false } } : State).noteSite n).laterSteps

theorem State.siteJudged_seq (s : State) (n : Nat) : (s.siteJudged n).seq =
    { s.seq with toAdopt := setBit s.seq.toAdopt n false, rails := (s.siteJudged n).seq.rails } := by
  have hn := (State.noteSite_touches (ps := [.led]) (n := n) rfl
    (.refl _ ({ s with seq := { s.seq with toAdopt := setBit s.seq.toAdopt n false } } : State))).only .seq rfl
  have hl := (RailsOnly.laterSteps (({ s with seq := { s.seq with toAdopt := setBit s.seq.toAdopt n false } } : State).noteSite n)).seq
  unfold State.siteJudged
  rw [hl, hn]

theorem State.siteJudged_site (s : State) (n : Nat) : (s.siteJudged n).site n = s.site n := by
  rw [State.site, s.siteJudged_seq]
  rfl

/-- Adoption of a site that waits for it, by the Lead with a structure in force, its Warden present and not held (R102, R168; log 39: the
sites are adopted one by one). -/
theorem siteAdoption_effect {rom digest : Bytes} {good off latched ep version : Nat} (hs : s.pwr.standby = true) (hn : n < 8)
    (ha : s.seq.toAdopt.getLsbD n = true) (hl : s.pair.st = .lead) (hm : s.maq.live.isSome = true)
    (hw : s.pwr.absent.getLsbD (24 + n) = false) (hh : s.rst.wardenHeld.getLsbD n = false) :
    Completes (.siteAdoption n rom good off latched ep digest version) s fun t =>
      t.seq.toAdopt = setBit s.seq.toAdopt n false ∧
      (s.pins.present.getLsbD n = false → (t.site n).st = .absent) ∧
      (s.pins.present.getLsbD n = true → (romOk rom = false ∨ s.matchTpl n rom = none) →
        (t.site n).st = .unadopted ∧ (t.site n).driven = false ∧ (t.site n).template = 0xFF) ∧
      (∀ p, s.pins.present.getLsbD n = true → romOk rom = true → s.matchTpl n rom = some p → (t.site n).template = p ∧
        (t.site n).rom = rom ∧ ((t.site n).st = .running ∨ (t.site n).st = .off ∨ (t.site n).st = .unadopted) ∧
        ((∀ k, k < 32 → good.testBit k = true) → s.leftSites.testBit n = false → (t.site n).st = .running ∧ (t.site n).driven = true)) := by
  have hg : ¬ (s.pair.st ≠ .lead ∨ s.maq.live.isNone ∨ s.pwr.absent.getLsbD (24 + n) ∨ s.rst.wardenHeld.getLsbD n) := by
    rw [hl, hw, hh, ← Option.not_isSome, hm]
    decide
  have he : exec (.siteAdoption n rom good off latched ep digest version) s =
      .next ((s.adopt n rom good off latched ep digest version (s.leftSites.testBit n)).siteJudged n) := by
    refine (exec_gated rfl hs).trans (congrArg _ (if_pos ?_))
    rw [decide_eq_true hn, ha, hl, hm]
    rfl
  refine completes_of he ?_
  rw [State.siteJudged_site]
  refine ⟨?_, State.adopt_absent_site hg, fun hp hr => State.adopt_unmatched_site hg hp ?_,
    fun p hp hr ht => State.adopt_matched_site hg hp hr ht⟩
  · rw [State.siteJudged_seq, (State.SiteOnly.adopt hg).seq]
  · rcases hr with hr | hr
    · exact if_neg (Bool.eq_false_iff.1 hr)
    · rw [hr, ite_self]

/-- Settles O9: a site's presence, its ROM's readings and its adoption, each by the lemma of what it does. -/
theorem sitePresenceAndIdentityTakeEffect : Obligations.SitePresenceAndIdentityTakeEffect := by
  intro s n hn hs
  refine ⟨sitePresentAsserted_effect hs, fun hst hp hw => ?_, fun rom hst h0 => siteIdentityRead_effect hs hst h0,
    fun rom hst h2 => siteIdromRereadTimer_effect hs hst h2, fun rom h0 => completes_of (siteIdromRereadTimer_idle hs h0) rfl,
    sitePresenceLost_effect hs, fun hst hh hr hb => completes_of (siteRetryWaitExpiry_tries hs hst hh hr hb) rfl,
    fun _ hh => completes_of (siteRetryWaitExpiry_waits hs hh) rfl,
    fun rom good off latched ep digest version ha hl hm hw hh => siteAdoption_effect hs hn ha hl hm hw hh⟩
  exact completes_of (siteSettleExpiry_effect hs hst hp hw) ⟨State.toIdentify_site, State.toIdentify_untemplated⟩

end Sys2Proof.Machine
end


section
/-!
SUPPORT. The rails' timers and inputs, and PMBus writes (R148 to R157): what each command does in the state that it is for, and the
counter that a fault counts in.
-/
namespace Sys2Proof.Machine

variable {s : State} {g : Nat}

/-! ## Counters of faults (R151, R181, R182) -/

/-- A counted fault: its counter, and its rail dirty. -/
theorem State.countRail_rcnt (s : State) (g k : Nat) : (s.countRail g k).rcnt = (s.setRailCnt g
    { cnt := Tbl.set (s.railCnt g).cnt k (Tbl.get ({} : Cnt) (s.railCnt g).cnt k).inc.1, dirty := true }).rcnt := by
  unfold State.countRail State.bump
  extract_lets t
  split
  · exact (State.event_touches (ps := [.evt]) rfl (.refl _ t)).only .rcnt rfl
  · rfl

theorem State.countRail_congr {t : State} (h : t.rcnt = s.rcnt) (g k : Nat) : (t.countRail g k).rcnt = (s.countRail g k).rcnt := by
  have hc : t.railCnt g = s.railCnt g := by rw [State.railCnt, h, State.railCnt]
  rw [State.countRail_rcnt, State.countRail_rcnt, State.setRailCnt, hc, h, State.setRailCnt]

/-- Of the counters a recorded fault changes its own alone. -/
theorem State.logFault_rcnt (s : State) (g : Nat) (k : RailFault) : (s.logFault g k).rcnt = (s.countRail g k.counter).rcnt := by
  unfold State.logFault
  extract_lets s1 _ _ _ _ _ _ s2 _ _
  have h2 : Touches [.log, .snap, .evt] s1 s2 := .ite (.updSnap rfl (.refl _ s1)) (.refl _ s1)
  exact (Touches.ite h2 (State.record_touches rfl h2)).only .rcnt rfl

theorem State.logFault_seq (s : State) (g : Nat) (k : RailFault) : (s.logFault g k).seq = s.seq :=
  (State.logFault_touches (ps := [.rcnt, .log, .snap, .evt]) rfl (.refl _ s)).only .seq rfl

theorem State.rail_congr {t : State} (h : t.seq = s.seq) (g : Nat) : t.rail g = s.rail g := by
  rw [State.rail, h, State.rail]

theorem State.settle_rcnt (s : State) (g : Nat) : (s.settle g).rcnt = s.rcnt :=
  (State.settle_touches (ps := Part.others.erase .rcnt) rfl (.refl _ s)).only .rcnt rfl

theorem State.node_congr {t : State} (hs : t.seq = s.seq) (hm : t.maq = s.maq) (g : Nat) : t.node g = s.node g := by
  unfold State.node State.hasSec
  rw [State.site_congr hs, State.sec_congr hm, State.sec_congr hm, hm]

/-- A fault that no reaction answers is counted and recorded, and moves nothing (R154). -/
theorem State.goodFault_unanswered {k : RailFault} (h : ndReaction.nat (s.node g) = 0) :
    (s.goodFault g k).rcnt = (s.countRail g k.counter).rcnt ∧ (s.goodFault g k).seq = s.seq := by
  unfold State.goodFault
  extract_lets s1 s2
  have h2 : Touches [.evt] s1 s2 := .ite (State.event_touches rfl (.refl _ s1)) (.refl _ s1)
  have h1 : Touches [.rcnt, .log, .snap, .evt] s s2 := (State.logFault_touches rfl (.refl _ s)).trans (h2.mono rfl)
  have hn : ndReaction.nat (s2.node g) = 0 := by rw [State.node_congr (h1.only .seq rfl) (h1.only .maq rfl), h]
  have he : (if (s2.rail g).masked then s2 else match ndReaction.nat (s2.node g) with
      | 1 => (s2.retryReact g).settle g
      | 2 => (s2.groupWidest g).settle g
      | 3 => (s2.unretryAll g).sysResetBegin
      | _ => s2) = s2 := by
    rw [hn]
    exact ite_self s2
  exact ⟨(congrArg State.rcnt he).trans ((h2.only .rcnt rfl).trans (s.logFault_rcnt g k)), (congrArg State.seq he).trans (h1.only .seq rfl)⟩

/-- A rising step's failure counts in its counter, whether the rail is masked or goes down (R153, R155). -/
theorem State.stepFail_rcnt {k : RailFault} (hr : (s.rail g).inRetry = false) (hm : ((s.rail g).masked && (s.rail g).chatterDone) = false) :
    (s.stepFail g k).rcnt = (s.countRail g k.counter).rcnt := by
  unfold State.stepFail
  split
  next h =>
    rw [h, Bool.true_and] at hm
    rw [if_neg (Bool.eq_false_iff.1 hm), State.logFault_rcnt]
    exact State.countRail_congr (State.setRail_rcnt ..) g _
  next =>
    extract_lets s1 s2 s3
    have hr1 : ¬ (s1.rail g).inRetry = true := by rw [State.rail_congr (s.logFault_seq g k), hr]; exact Bool.false_ne_true
    have h3 : Touches (Part.others.erase .rcnt) s1 s3 := by
      have h2 : Touches (Part.others.erase .rcnt) s1 s2 := State.moveRail_touches rfl (.refl _ s1)
      unfold s3
      split
      · exact .ite (State.siteDownSeq_touches rfl h2) h2
      · exact h2
    rw [if_neg hr1, State.settle_rcnt, h3.only .rcnt rfl]
    exact s.logFault_rcnt g k

theorem State.downfault_rcnt (s : State) (g kind : Nat) : (s.downfault g kind).rcnt = (s.countRail g 6).rcnt := by
  unfold State.downfault
  extract_lets _ s1 _ _ s2 s3 s4 _ _ _ _ s5
  have h1 : Touches [.pwr, .seq, .out] s s1 := State.pmbusWrite_touches rfl (State.setRail_touches rfl (.refl _ s))
  have h2 : Touches [.pwr, .seq, .out] s s2 :=
    .foldl (fun _ _ h => .ite (State.moveRail_touches rfl h) (State.setRail_touches rfl h)) h1
  have h4 : Touches [.seq, .snap, .log, .evt] s3 s4 := by
    unfold s4
    split
    · exact State.setSite_touches rfl (.refl _ s3)
    · exact .refl _ s3
  have h5 : Touches [.seq, .snap, .log, .evt] s3 s5 := .ite (.updSnap rfl h4) h4
  exact ((State.record_touches rfl h5).only .rcnt rfl).trans (State.countRail_congr (h2.only .rcnt rfl) g 6)

/-! ## Power-good lines (R147, R149, R150) -/

/-- A rail is among those that its line carries. -/
theorem State.mem_pgLine (s : State) (g : Nat) : g ∈ s.pgLine g := by
  unfold State.pgLine
  split
  · exact List.mem_singleton.2 rfl
  · refine List.mem_filter.2 ⟨List.mem_map.2 ⟨g % 32, List.mem_range.2 (Nat.mod_lt g (by decide)), ?_⟩, ?_⟩
    · rw [scopeBase, if_pos (by omega)]
      omega
    · rw [beq_self_eq_true, Bool.true_or]

section PgChange
variable {level : Bool}

theorem State.pgChange_same (h : (s.rail g).pg = level) : s.pgChange g level = s := if_pos h

theorem State.pgChange_good (h : (s.rail g).pg ≠ level) (hst : (s.rail g).st = .good) : s.pgChange g level =
    (s.setRail g { s.rail g with pg := level, qualified := false, fresh := false }).settle g := by
  unfold State.pgChange
  extract_lets r x past
  rw [if_neg h]
  split
  next hx => exact absurd (hst.symm.trans hx) (by decide)
  next hx => exact absurd (hst.symm.trans hx) (by decide)
  next hx => exact absurd (hst.symm.trans hx) (by decide)
  next => rfl

/-- A rising rail counts the change, and past CHATTER_LIMIT its step fails (R150). -/
theorem State.pgChange_rising (h : (s.rail g).pg ≠ level) (hst : (s.rail g).st = .rising) : s.pgChange g level =
    if ndChatter.nat (s.node g) < (s.rail g).changes + 1 then
      (s.setRail g { s.rail g with pg := level, qualified := false, fresh := false, changes := (s.rail g).changes + 1 }).stepFail g .chatter
    else
      (s.setRail g { s.rail g with pg := level, qualified := false, fresh := false, changes := (s.rail g).changes + 1 }).settle g := by
  unfold State.pgChange
  extract_lets r x past
  rw [if_neg h]
  split
  next => exact if_congr decide_eq_true_iff rfl rfl
  next hx => exact absurd (hst.symm.trans hx) (by decide)
  next hx => exact absurd (hst.symm.trans hx) (by decide)
  next hx _ _ => exact absurd hst hx

end PgChange

/-! ## The commands -/

section Commands
variable (hs : s.pwr.standby = true)
include hs

theorem railUpDelayExpiry_rises (hst : (s.rail g).st = .upDelay) (hd : (s.rail g).downReq = false) :
    exec (.railUpDelayExpiry g) s = .next ((s.moveRail g (s.rail g).enableNow).settle g) := by
  refine (exec_gated rfl hs).trans (congrArg _ (if_pos ?_))
  rw [hst, hd]
  rfl

theorem railPgChange_polled (hk : ndPgKind.nat (s.node g) = 1) (wire : Bool) : exec (.railPgChange g wire) s = .next s :=
  (exec_gated rfl hs).trans (congrArg _ (if_pos hk))

theorem railPgChange_exec (hk : ndPgKind.nat (s.node g) ≠ 1) (wire : Bool) : exec (.railPgChange g wire) s =
    .next ((s.pgLine g).foldl (fun (s : State) h => s.pgChange h (wire != ndPgLow (s.node h))) s) :=
  (exec_gated rfl hs).trans (congrArg _ (if_neg hk))

theorem railPgChange_alone (hk : ndPgKind.nat (s.node g) ≠ 1) (hl : s.pgLine g = [g]) (wire : Bool) :
    exec (.railPgChange g wire) s = .next (s.pgChange g (wire != ndPgLow (s.node g))) := by
  rw [railPgChange_exec hs hk, hl]
  rfl

theorem railQualifyExpiry_exec (hp : (s.rail g).pg = true) : exec (.railQualifyExpiry g) s = .next
    ((s.setRail g { s.rail g with qualified := true, masked := (s.rail g).masked && s.retryAbove g }).settle g).armBack :=
  (exec_gated rfl hs).trans (congrArg _ (if_pos hp))

theorem railRiseTimeout_fails (hst : (s.rail g).st = .rising) : exec (.railRiseTimeout g) s = .next (s.stepFail g .seqFail) :=
  (exec_gated rfl hs).trans (congrArg _ (if_pos hst))

/-- The power-good loss of a GOOD rail, its channel stale or judged in window (logs 72 and 75). -/
theorem railPgLossTimer_loses {u : State} (hst : (s.rail g).st = .good) (hv : s.supervised g = true) (hp : (s.rail g).pg = false)
    (ha : (s.rail g).surveyAt ≠ some s.plinth) (hl : (s.rail g).pgLossAt.all (fun x => x.1 != s.plinth) = true)
    (hw : ∀ c, s.chanOf g 1 = some c → (s.chan c).stale = true ∨ (s.chan c).out = 0)
    (hu : u = s.setRail g { s.rail g with pgLossAt := some (s.plinth,
      (Tbl.get ((0, 0, 0) : Nat × Nat × Nat) s.snap.sums ((siteOf g).getD 8)).1.testBit (g - scopeBase g)) }) :
    exec (.railPgLossTimer g) s = .next (u.goodFault g .pgLoss) := by
  have hg : (u.rail g).st = .good := by rw [hu, State.rail_setRail_same, hst]
  have he : u.cycleFault g .pgLoss = u.goodFault g .pgLoss := if_pos hg
  rw [← he, hu]
  refine (exec_gated rfl hs).trans (congrArg _ (if_pos ?_))
  simp only [Bool.and_eq_true]
  refine ⟨⟨⟨⟨?_, ?_⟩, ?_⟩, ?_⟩, hl⟩
  · rw [State.wasGood, hv, hst]
    rfl
  · rw [hp]
    rfl
  · split
    next c hc => simpa using hw c hc
    next => rfl
  · exact bne_iff_ne.2 ha

theorem railPgLossTimer_unsupervised (hv : s.supervised g = false) : exec (.railPgLossTimer g) s = .next s := by
  refine (exec_gated rfl hs).trans (congrArg _ (if_neg ?_))
  rw [State.wasGood, hv]
  exact Bool.false_ne_true

theorem railDownDelayExpiry_falls (hst : (s.rail g).st = .downDelay) :
    exec (.railDownDelayExpiry g) s = .next ((s.moveRail g ((s.rail g).disableNow .falling)).settle g) :=
  (exec_gated rfl hs).trans (congrArg _ (if_pos hst))

theorem railFallTimeout_falling (hst : (s.rail g).st = .falling) :
    exec (.railFallTimeout g) s = .next ((s.downfault g 1).settle g) := by
  refine (exec_gated rfl hs).trans (congrArg _ ?_)
  beta_reduce
  rw [hst]

theorem railFallTimeout_retryFall (hst : (s.rail g).st = .retryFall) :
    exec (.railFallTimeout g) s = .next (((s.downfault g 1).groupShutdown g).settle g) := by
  refine (exec_gated rfl hs).trans (congrArg _ ?_)
  beta_reduce
  rw [hst]

theorem railBackoffExpiry_held (hst : (s.rail g).st = .backoff) (hh : s.snap.holdup = true) :
    exec (.railBackoffExpiry g) s = .next (s.setRail g { s.rail g with backoffDone := true }) :=
  (exec_gated rfl hs).trans (congrArg _ ((if_neg (not_not.2 hst)).trans (if_pos hh)))

theorem railBackoffExpiry_over (hst : (s.rail g).st = .backoff) (hh : s.snap.holdup = false) :
    exec (.railBackoffExpiry g) s = .next (s.backoffOver g) :=
  (exec_gated rfl hs).trans (congrArg _ ((if_neg (not_not.2 hst)).trans (if_neg (Bool.eq_false_iff.1 hh))))

theorem railRetryCountReset_exec (hst : (s.rail g).st = .good) :
    exec (.railRetryCountReset g) s = .next (s.setRail g { s.rail g with retries := 0 }) :=
  (exec_gated rfl hs).trans (congrArg _ (if_pos hst))

section Pmbus
variable (hk : ndEnableKind.nat (s.node g) = 1)
include hk

theorem pmbusWriteDone_acknowledged : exec (.pmbusWriteDone g true) s = .next (s.setRail g { s.rail g with pmbusTries := 0 }) :=
  (exec_gated rfl hs).trans (congrArg _ ((if_neg (not_not.2 hk)).trans (if_pos rfl)))

theorem pmbusWriteDone_again (ht : (s.rail g).pmbusTries < 2) : exec (.pmbusWriteDone g false) s =
    .next ((s.setRail g { s.rail g with pmbusTries := (s.rail g).pmbusTries + 1 }).pmbusWrite g (s.rail g).enable) :=
  (exec_gated rfl hs).trans (congrArg _ ((if_neg (not_not.2 hk)).trans ((if_neg Bool.false_ne_true).trans (if_pos (Nat.succ_lt_succ ht)))))

theorem pmbusWriteDone_fails (ht : 2 ≤ (s.rail g).pmbusTries) (hst : (s.rail g).st = .rising) : exec (.pmbusWriteDone g false) s =
    .next ((s.setRail g { s.rail g with pmbusTries := 0 }).stepFail g .seqFail) := by
  refine (exec_gated rfl hs).trans (congrArg _ ((if_neg (not_not.2 hk)).trans ((if_neg Bool.false_ne_true).trans ?_)))
  rw [if_neg (by omega)]
  extract_lets t
  split
  next => rfl
  next hx => exact absurd (hst.symm.trans hx) (by decide)
  next hx => exact absurd (hst.symm.trans hx) (by decide)
  next hx => exact absurd (hst.symm.trans hx) (by decide)
  next hx _ _ _ => exact absurd hst hx

end Pmbus

section Polls
variable (hk : ndPgKind.nat (s.node g) = 1)
include hk

theorem pmbusPgPoll_answered (w : Nat) : exec (.pmbusPgPoll g (some w)) s =
    .next ((s.setRail g { s.rail g with pollFails := 0 }).pgChange g (!w.testBit 11)) :=
  (exec_gated rfl hs).trans (congrArg _ (if_neg (not_not.2 hk)))

theorem pmbusPgPoll_unanswered (hf : (s.rail g).pollFails < 2) : exec (.pmbusPgPoll g none) s =
    .next (s.setRail g { s.rail g with pollFails := (s.rail g).pollFails + 1 }) :=
  (exec_gated rfl hs).trans (congrArg _ ((if_neg (not_not.2 hk)).trans (if_pos (Nat.succ_lt_succ hf))))

/-- Three failed polls in a row count as power-good deasserted (R148). -/
theorem pmbusPgPoll_third (hf : 2 ≤ (s.rail g).pollFails) : exec (.pmbusPgPoll g none) s =
    .next ((s.setRail g { s.rail g with pollFails := 0 }).pgChange g false) :=
  (exec_gated rfl hs).trans (congrArg _ ((if_neg (not_not.2 hk)).trans (if_neg fun h => Nat.not_lt.2 hf (Nat.lt_of_succ_lt_succ h))))

end Polls
end Commands

/-- A change of power-good on a line that carries one rail: nothing where the level stands, and else the change of that rail (R150). -/
theorem railPgChange_effect (hs : s.pwr.standby = true) (hk : ndPgKind.nat (s.node g) ≠ 1) (hl : s.pgLine g = [g]) (wire : Bool)
    {level : Bool} (hv : level = (wire != ndPgLow (s.node g))) (hp : (s.rail g).pg ≠ level) : Completes (.railPgChange g wire) s fun t =>
    ((s.rail g).st = .good → t = (s.setRail g { s.rail g with pg := level, qualified := false, fresh := false }).settle g) ∧
    ((s.rail g).st = .rising → (s.rail g).changes + 1 ≤ ndChatter.nat (s.node g) →
      t = (s.setRail g { s.rail g with pg := level, qualified := false, fresh := false, changes := (s.rail g).changes + 1 }).settle g) ∧
    ((s.rail g).st = .rising → ndChatter.nat (s.node g) < (s.rail g).changes + 1 →
      t = (s.setRail g { s.rail g with pg := level, qualified := false, fresh := false
                                       changes := (s.rail g).changes + 1 }).stepFail g .chatter) := by
  refine completes_of (railPgChange_alone hs hk hl wire) ?_
  rw [← hv]
  exact ⟨fun hst => State.pgChange_good hp hst, fun hst hc => (State.pgChange_rising hp hst).trans (if_neg (Nat.not_lt.2 hc)),
    fun hst hc => (State.pgChange_rising hp hst).trans (if_pos hc)⟩

/-- A rising step that times out fails: nothing of a masked rail whose step has failed before, and else one count (R153, R155). -/
theorem railRiseTimeout_effect (hs : s.pwr.standby = true) (hst : (s.rail g).st = .rising) (hr : (s.rail g).inRetry = false) :
    Completes (.railRiseTimeout g) s fun t =>
      t = s.stepFail g .seqFail ∧ (((s.rail g).masked && (s.rail g).chatterDone) = true → t = s) ∧
      (((s.rail g).masked && (s.rail g).chatterDone) = false → t.rcnt = (s.countRail g 5).rcnt) := by
  refine completes_of (railRiseTimeout_fails hs hst) ⟨rfl, fun hm => ?_, fun hm => State.stepFail_rcnt hr hm⟩
  rw [Bool.and_eq_true] at hm
  exact (if_pos hm.1).trans (if_pos hm.2)

/-- A rail leaves BACKOFF for its UP_DELAY, or rises at once where it has none (R153, R155). -/
theorem railBackoffExpiry_effect (hs : s.pwr.standby = true) (hst : (s.rail g).st = .backoff) (hh : s.snap.holdup = false) :
    Completes (.railBackoffExpiry g) s fun t =>
    (ndUpDelay.val (s.node g) ≠ 0 → t = (s.moveRail g { s.rail g with st := .upDelay, backoffDone := false }).settle g) ∧
    (ndUpDelay.val (s.node g) = 0 → (s.rail g).downReq = false →
      t = (s.moveRail g ({ s.rail g with st := .upDelay, backoffDone := false } : Rail).enableNow).settle g) := by
  refine completes_of (railBackoffExpiry_over hs hst hh) ⟨fun hu => ?_, fun hu hd => ?_⟩
  · exact congrArg (fun r => (s.moveRail g r).settle g) (if_neg fun h => hu h.1)
  · exact congrArg (fun r => (s.moveRail g r).settle g) (if_pos ⟨hu, Bool.eq_false_iff.1 hd⟩)

/-- Settles O11: each timer, input and write by what it does in the rail's state; a fault's counter is that of its kind. Of a PG_LOSS
the judged state of the channel and the faults of one Plinth time are the model's reading (logs 75 and 72). -/
theorem railEventsTakeEffect : Obligations.RailEventsTakeEffect := by
  intro s g hs
  refine ⟨fun hst hd => completes_of (railUpDelayExpiry_rises hs hst hd) rfl,
    fun level hk => completes_of (railPgChange_polled hs hk level) rfl,
    fun level hk => completes_of (railPgChange_exec hs hk level) ⟨rfl, s.mem_pgLine g⟩,
    fun wire level hk hl hv hp => completes_of (railPgChange_alone hs hk hl wire) (State.pgChange_same (hp.trans hv)),
    fun wire level hk hl hv hp => railPgChange_effect hs hk hl wire hv hp,
    fun hp => completes_of (railQualifyExpiry_exec hs hp) rfl, fun hst hr => railRiseTimeout_effect hs hst hr,
    fun u hst hv hp ha hl hw hu => ?_, fun hv _ => completes_of (railPgLossTimer_unsupervised hs hv) rfl,
    fun hst => completes_of (railDownDelayExpiry_falls hs hst) rfl, fun hst => ?_,
    fun hst => completes_of (railFallTimeout_retryFall hs hst) rfl,
    fun hst hh => completes_of (railBackoffExpiry_held hs hst hh) rfl, fun hst hh => railBackoffExpiry_effect hs hst hh,
    fun hst => completes_of (railRetryCountReset_exec hs hst) rfl,
    fun hk => ⟨completes_of (pmbusWriteDone_acknowledged hs hk) rfl, fun ht => completes_of (pmbusWriteDone_again hs hk ht) rfl,
      fun ht hst => completes_of (pmbusWriteDone_fails hs hk ht hst) rfl⟩,
    fun hk => ⟨fun w hw => completes_of (pmbusPgPoll_answered hs hk w) (State.pgChange_same ?_),
      fun hf => completes_of (pmbusPgPoll_unanswered hs hk hf) rfl, fun hf => completes_of (pmbusPgPoll_third hs hk hf) rfl⟩⟩
  · refine completes_of (railPgLossTimer_loses hs hst hv hp ha hl hw hu) ⟨rfl, fun h0 => ?_⟩
    have hn : ndReaction.nat (u.node g) = 0 := by
      rw [hu]
      exact h0
    obtain ⟨hc, hq⟩ := State.goodFault_unanswered (k := .pgLoss) hn
    refine ⟨hc.trans (State.countRail_congr ?_ g 1), hq⟩
    rw [hu, State.setRail_rcnt]
  · exact completes_of (railFallTimeout_falling hs hst) ⟨rfl, (State.settle_rcnt _ g).trans (s.downfault_rcnt g 1)⟩
  · rw [State.rail_setRail_same]
    exact hw

end Sys2Proof.Machine
end


section
/-!
SUPPORT. What a site's leaving does to Caliper: its checks end and tiles take other jobs, and the Gauge's slots stand still (R164, R341,
R370, R385).
-/
namespace Sys2Proof.Machine

variable {s : State} {n : Nat}

/-- From `s` to `t` the Gauge's slots stand still. -/
def State.GaugeStands (s t : State) : Prop := t.cal.gauge = s.cal.gauge

namespace State.GaugeStands

variable {r t : State}

theorem refl (s : State) : GaugeStands s s := Eq.refl _

theorem trans (h : GaugeStands r s) (h' : GaugeStands s t) : GaugeStands r t := Eq.trans h' h

/-- The parts that an operation may change which leaves Caliper alone. -/
def outside : List Part := Part.others.erase .cal

theorem apart (h : GaugeStands r s) (ht : Touches outside s t) : GaugeStands r t := h.trans (congrArg Caliper.gauge (ht.only .cal rfl))

theorem ite {c : Prop} [Decidable c] (hs : GaugeStands r s) (ht : GaugeStands r t) : GaugeStands r (if c then s else t) := by
  split <;> assumption

theorem foldl {α : Type} {f : State → α → State} {l : List α} (hf : ∀ s a, GaugeStands r s → GaugeStands r (f s a))
    (h : GaugeStands r s) : GaugeStands r (l.foldl f s) := by
  induction l generalizing s with
  | nil => exact h
  | cons a l ih => exact ih (hf s a h)

/-! ## Checks that end, and tiles (R370, R385) -/

theorem endCheck {c : Check} {key code : Nat} (h : GaugeStands r s) : GaugeStands r (s.endCheck c key code) := by
  unfold State.endCheck
  extract_lets s1 s2
  have h1 : GaugeStands r s1 := h
  have h2 : GaugeStands r s2 := by
    unfold s2 State.bumpCov State.bump
    extract_lets u
    have hu : GaugeStands r u := h1
    exact ite (hu.apart (State.event_touches rfl (.refl _ u))) hu
  clear_value s1 s2
  split
  · exact h1.apart (State.calDone_touches rfl (.refl _ s1))
  · exact ite h1 (ite h2 h2)

theorem calSiteEvent {k count run : Nat} (h : GaugeStands r s) : GaugeStands r (s.calSiteEvent n k count run) := by
  unfold State.calSiteEvent
  extract_lets c
  exact ite (apart (s := s.setCalSite n _) h (State.calEvent_touches rfl (.refl _ _))) h

theorem tileTakes {t : Nat} (h : GaugeStands r s) : GaugeStands r (s.tileTakes t) := by
  unfold State.tileTakes
  refine ite h ?_
  split
  · exact h
  · exact ite h h

theorem calSiteLeft (h : GaugeStands r s) : GaugeStands r (s.calSiteLeft n) :=
  have hc := foldl (l := s.cal.checks.filter fun c => c.site == n && c.req.isNone) (fun _ c h => (h.endCheck (c := c)).calSiteEvent) h
  ite hc (foldl (fun _ _ h => h.tileTakes) hc)

/-! ## Launches that close, and sites that change state (R164, R341, R345) -/

theorem jrnRunClosed {a : ArmEntry} {b : Bytes} (h : GaugeStands r s) : GaugeStands r (s.jrnRunClosed a b) := by
  unfold State.jrnRunClosed
  extract_lets s1 e x y s2 c
  have h1 : GaugeStands r s1 := by
    unfold s1 State.jrnSee
    exact ite h h
  have h2 : GaugeStands r s2 := h1
  exact apart (s := { s2 with cal := { c with runs := c.runs.filter fun y => y.run != a.runId } }) h2 (State.trySeal_touches rfl (.refl _ _))

theorem closeArm {i why : Nat} (h : GaugeStands r s) : GaugeStands r (s.closeArm i why) := by
  unfold State.closeArm
  extract_lets x y rec s1 p s2
  have h1 : GaugeStands r s1 := h
  have h2 : GaugeStands r s2 := jrnRunClosed (s := { s1 with pnt := { p with closed := (y.runId, rec) :: p.closed } }) h1
  refine foldl (fun u m hu => ?_) h2
  extract_lets other u1 c
  exact ite (hu.apart (.updChi rfl (State.setCapS_touches rfl (.refl _ u)))) hu

theorem leftRunning (h : GaugeStands r s) : GaugeStands r (s.leftRunning n) :=
  calSiteLeft (foldl (fun _ _ h => ite (ite (closeArm h) h) h) h)

theorem siteLeft (h : GaugeStands r s) : GaugeStands r (s.siteLeft n) :=
  (leftRunning (h.apart (State.endJobOn_touches rfl (.refl _ s)))).apart (State.jrnSiteLeft_touches rfl (.refl _ _))

theorem siteTo {st : SiteSt} (h : GaugeStands r s) : GaugeStands r (s.siteTo n st) := by
  unfold State.siteTo
  extract_lets _ _ s1 s2 _ s3 _ s4 _
  have cap {u : State} {x : SiteCap} (hu : GaugeStands r u) : GaugeStands r (u.setCapS n x) := hu
  have h1 : GaugeStands r s1 := h
  have h2 : GaugeStands r s2 := h1.siteLeft
  have h3 : GaugeStands r s3 := ite (cap h2) (ite h1.leftRunning h1)
  have h4 : GaugeStands r s4 := ite (cap h3) h3
  exact ite (cap h4) h4

theorem siteNoted {st : SiteSt} {kind code : Nat} (h : GaugeStands r s) :
    GaugeStands r (((s.siteTo n st).siteEvent n kind).event 3 164 n code) :=
  h.siteTo.apart (State.event_touches rfl (State.siteEvent_touches rfl (.refl _ _)))

theorem siteDownSeq {b : Bool} (h : GaugeStands r s) : GaugeStands r (s.siteDownSeq n b) :=
  (siteTo (s := s.setSite n _) h).apart (State.orderDown_touches rfl (.refl _ _))

theorem siteSettle (h : GaugeStands r s) : GaugeStands r (s.siteSettle n) := by
  unfold State.siteSettle
  extract_lets x s1
  have h1 : GaugeStands r s1 := h
  split
  · exact ite h.siteNoted h
  · exact ite (ite h1.siteNoted (ite (ite h1.siteTo h1.siteNoted) h1.siteTo)) h
  · exact ite (siteNoted (s := s.setSite n _) h) (ite h h)
  · exact h

theorem sysSettle (h : GaugeStands r s) : GaugeStands r s.sysSettle := by
  have h1 : GaugeStands r (s.event 3 154 0 0) := h.apart (State.event_touches rfl (.refl _ s))
  refine ite (ite h (foldl (fun u m hu => ?_) h1)) h
  have hu1 : GaugeStands r (u.setSite m { u.site m with inSysReset := false, reaction := false }) := hu
  exact ite hu1.siteNoted hu1

theorem settle {g : Nat} (h : GaugeStands r s) : GaugeStands r (s.settle g) := by
  have hr : GaugeStands r (s.railPasses (scopeBase g) (scopeSize g) 64) := h.apart (State.railPasses_touches rfl (.refl _ s))
  unfold State.settle
  split
  · exact hr.siteSettle.sysSettle
  · exact hr

end State.GaugeStands
end Sys2Proof.Machine
end


section
/-!
SUPPORT. Hold-up: what its beginning ends and what its end resumes (R169, R200 to R203, R539).
-/
namespace Sys2Proof.Machine

variable {s : State} {n : Nat}

/-! ## The bus as hold-up sees it (R187, R201) -/

theorem State.busSeen_snap (s : State) (v : Nat) (i : Int) : (s.busSeen v i).snap =
    { s.snap with busV := v, minBus := if s.snap.holdup then min s.snap.minBus v else s.snap.minBus } := by
  unfold State.busSeen
  extract_lets _ _ u
  split <;> rfl

theorem State.busSeen_frame (s : State) (v : Nat) (i : Int) : s.onlyChanges [.snap, .rel, .met] (s.busSeen v i) :=
  (State.busSeen_touches rfl (.refl _ s)).only

theorem State.snapshot_snap (s : State) (kind : Nat) : (s.snapshot kind).snap = { s.snap with job := (s.snapshot kind).snap.job } := by
  rcases snapshot_cases s kind with ⟨job, bs, he⟩ | he | ⟨-, he⟩
  · rw [he, State.snapBegun]
    exact congrArg (fun x : Snap => { x with job := some job })
      ((State.fwriteBoth_touches (ps := [.flash0, .flash1]) (off := bankOff job.bank) (bs := bs) rfl (.refl _ s)).only .snap rfl)
  · rw [he]
  · rw [he]

/-! ## Sites (R169) -/

/-- A site as hold-up begins. -/
def State.holdupSite (s : State) (n : Nat) : State :=
  match (s.site n).st with
  | .seqUp => (s.siteDownSeq n false).settle (32 * n)
  | .retryWait => s.siteTo n .off
  | _ => s

theorem State.holdupSites_eq (s : State) : s.holdupSites = (List.range 8).foldl State.holdupSite s := rfl

theorem State.SiteOnly.holdupSite (hn : n < 8) (h : s.seq.sysReset = false) : State.SiteOnly n s (s.holdupSite n) := by
  unfold State.holdupSite
  split
  · have hd : State.SiteOnly n s (s.siteDownSeq n false) := .siteDownSeq false
    exact hd.trans (.settle hn (by rw [hd.seq, h]))
  · exact .siteTo _
  · exact .refl n s

theorem State.holdupSite_off (h : (s.site n).st = .retryWait ∨ (s.site n).st = .off) : ((s.holdupSite n).site n).st = .off := by
  unfold State.holdupSite
  rcases h with h | h
  · rw [h]
    exact congrArg Site.st (s.siteTo_site n .off)
  · rw [h]
    exact h

/-- With no system reset under way a site in RETRY_WAIT is OFF once hold-up has begun, and one that is OFF stays so (R169). -/
theorem State.holdupSites_off (hn : n < 8) (h : s.seq.sysReset = false) (hst : (s.site n).st = .retryWait) :
    (s.holdupSites.site n).st = .off := by
  have fold : ∀ (l : List Nat) (s : State), (∀ m ∈ l, m < 8) → s.seq.sysReset = false →
      (n ∈ l ∧ (s.site n).st = .retryWait ∨ (s.site n).st = .off) → ((l.foldl State.holdupSite s).site n).st = .off := by
    intro l
    induction l with
    | nil => exact fun s _ _ hs => hs.elim (fun hs => absurd hs.1 List.not_mem_nil) id
    | cons m l ih =>
      intro s hl h hs
      have ho := State.SiteOnly.holdupSite (s := s) (hl m List.mem_cons_self) h
      refine ih _ (fun k hk => hl k (List.mem_cons_of_mem m hk)) (by rw [ho.seq, h]) ?_
      by_cases he : n = m
      · rw [← he]
        exact .inr (State.holdupSite_off (hs.imp And.right id))
      · rw [ho.other n he]
        exact hs.imp (fun hs => ⟨(List.mem_cons.1 hs.1).resolve_left he, hs.2⟩) id
  exact fold (List.range 8) s (fun m hm => List.mem_range.1 hm) h (.inl ⟨List.mem_range.2 hn, hst⟩)

theorem State.GaugeStands.holdupSites (s : State) : State.GaugeStands s s.holdupSites := by
  refine State.GaugeStands.foldl (fun u m hu => ?_) (State.GaugeStands.refl s)
  split
  · exact hu.siteDownSeq.settle
  · exact hu.siteTo
  · exact hu

/-! ## Update operations (R127, R200) -/

theorem State.updFail_upd (s : State) (r : Req) (op num code detail : Nat) : (s.updFail r op num code detail).boot.upd = s.boot.upd := by
  rw [s.updFail_frame r op num code detail .boot rfl]
  rfl

/-- No update operation and no push outlasts the beginning of hold-up. -/
theorem State.holdupUpdates_boot (s : State) : s.holdupUpdates.boot.upd = none ∧ s.holdupUpdates.boot.pushes = [] := by
  unfold State.holdupUpdates
  extract_lets b s1 s2
  have h1 : s1.boot.upd = none := by
    unfold s1
    split
    next u hu =>
      rw [State.updFail_upd]
      split
      · exact congrArg Boot.upd ((State.updWrite_touches (ps := [.flash0, .flash1]) rfl (.refl _ _)).only .boot rfl)
      · unfold State.dropUpdate
        rw [hu]
        dsimp only
        split
        · rfl
        · exact congrArg Boot.upd ((State.ferase_touches (ps := [.flash0, .flash1]) rfl (.refl _ _)).only .boot rfl)
    next hu => exact hu
  have h2 : s2.boot.upd = none := by
    refine List.foldlRecOn (motive := fun u : State => u.boot.upd = none) s1.boot.pushes _ h1 fun u hu p _ => ?_
    split
    · rw [State.updFail_upd, hu]
    · exact hu
  have free (u : State) : u.protFree.boot = u.boot :=
    (State.protFree_touches (ps := Part.others.erase .boot) rfl (.refl _ u)).only .boot rfl
  rw [free]
  exact ⟨h2, rfl⟩

/-! ## The beginning of hold-up (R169, R200, R202) -/

/-- Hold-up stands, from now and with the bus as it is, and Caliper's clock is given back (R35, R200). -/
def State.holdupNoted (s : State) (v : Nat) : State :=
  { s with snap := { s.snap with holdup := true, holdStart := s.plinth, holdEnd := none, minBus := v, sums := [] }
           pwr := { s.pwr with clkReq := setBit s.pwr.clkReq 2 false, clkGrant := setBit s.pwr.clkGrant 2 false } }

/-- What hold-up ends: Caliper's work, the sites' up sequences, update operations and stores. -/
def State.holdupEnds (s : State) : State := (s.calStop 0x41).holdupSites.holdupUpdates.holdupStore

/-- What it has written and shed, as the option bytes say (R200, R202). -/
def State.holdupSaves (s : State) : State :=
  let ctl := obHoldCtrl.nat s.optBytes
  let s := if ctl.testBit 0 then s.snapshot 2 else s
  let s := if ctl.testBit 1 then { s with snap := { s.snap with flushing := true } } else s
  if ctl.testBit 2 then s.shedDimms else s

theorem State.holdupStart_eq (s : State) (v : Nat) : s.holdupStart v = (s.holdupNoted v).holdupEnds.holdupSaves := rfl

theorem State.holdupEnds_snap (s : State) : s.holdupEnds.snap = s.snap :=
  (State.holdupStore_touches (ps := Part.others.erase .snap) rfl (State.holdupUpdates_touches rfl (State.holdupSites_touches rfl
    (State.calStop_touches rfl (.refl _ s))))).only .snap rfl

theorem State.holdupEnds_boot (s : State) : s.holdupEnds.boot.upd = none ∧ s.holdupEnds.boot.pushes = [] := by
  have h := State.holdupStore_touches (ps := Part.others.erase .boot) rfl (.refl _ (s.calStop 0x41).holdupSites.holdupUpdates)
  rw [State.holdupEnds, h.only .boot rfl]
  exact State.holdupUpdates_boot _

/-- What stands in a part that sites alone change, once sites have been dealt with. -/
theorem State.holdupEnds_rest (s : State) : (s.calStop 0x41).holdupSites.onlyChanges
    [.ob, .maq, .boot, .log, .mem, .ques, .ebx, .evt, .mgt, .flash0, .flash1, .dram, .out] s.holdupEnds :=
  (State.holdupStore_touches rfl (State.holdupUpdates_touches rfl (.refl _ _))).only

theorem State.holdupEnds_jobs (s : State) (hn : n < 8) : (s.holdupEnds.slot n).jobs = [] := by
  have hg : State.GaugeStands (s.calStop 0x41) s.holdupEnds :=
    (State.GaugeStands.holdupSites _).trans (congrArg Caliper.gauge (s.holdupEnds_rest .cal rfl))
  have hj : ((s.calStop 0x41).slot n).jobs = [] := State.endGauge_jobs _ _ hn
  rw [State.slot, hg]
  exact hj

theorem State.holdupEnds_site (hn : n < 8) (h : s.seq.sysReset = false) (hst : (s.site n).st = .retryWait) :
    (s.holdupEnds.site n).st = .off := by
  have hc : (s.calStop 0x41).seq = s.seq := (State.calStop_touches (ps := Part.others.erase .seq) rfl (.refl _ s)).only .seq rfl
  rw [State.site_congr (s.holdupEnds_rest .seq rfl)]
  exact State.holdupSites_off hn (by rw [hc, h]) (by rw [State.site_congr hc, hst])

theorem State.holdupSaves_frame (s : State) : s.onlyChanges [.pwr, .rcnt, .log, .snap, .mem, .flash0, .flash1] s.holdupSaves := by
  unfold State.holdupSaves
  extract_lets ctl s1 x s2
  have h1 : Touches [.pwr, .rcnt, .log, .snap, .mem, .flash0, .flash1] s s1 := .ite (State.snapshot_touches rfl (.refl _ s)) (.refl _ s)
  have h2 : Touches [.pwr, .rcnt, .log, .snap, .mem, .flash0, .flash1] s s2 := .ite (.updSnap rfl h1) h1
  exact (Touches.ite (State.shedDimms_touches rfl h2) h2).only

theorem State.holdupSaves_snap (s : State) : s.holdupSaves.snap =
    { s.snap with job := s.holdupSaves.snap.job, flushing := s.holdupSaves.snap.flushing } := by
  unfold State.holdupSaves
  extract_lets ctl s1 x s2
  have h1 : s1.snap = { s.snap with job := s1.snap.job } := by
    unfold s1
    split
    · exact s.snapshot_snap 2
    · rfl
  have h2 : s2.snap = { s.snap with job := s2.snap.job, flushing := s2.snap.flushing } := by
    unfold s2
    split
    · show ({ s1.snap with flushing := true } : Snap) = _
      rw [h1]
    · rw [h1]
  split
  · exact h2
  · exact h2

/-- Hold-up begins: what it notes of itself, and what ends with it. -/
theorem holdupBegin_effect (v : Nat) (hs : s.pwr.standby = true) (hh : s.snap.holdup = false) : Completes (.holdupBegin v) s fun t =>
    t.snap.holdup = true ∧ t.snap.holdStart = s.plinth ∧ t.snap.minBus = (s.busCorrect v s.met.busI).1 ∧
    t.snap.busV = (s.busCorrect v s.met.busI).1 ∧ t.boot.pushes = [] ∧
    t.boot.upd = none ∧ (∀ n, n < 8 → (t.slot n).jobs = []) ∧
    ∀ n, n < 8 → s.seq.sysReset = false → (s.site n).st = .retryWait → (t.site n).st = .off := by
  have hb := s.busSeen_snap (s.busCorrect v s.met.busI).1 s.met.busI
  have hf := s.busSeen_frame (s.busCorrect v s.met.busI).1 s.met.busI
  have he : exec (.holdupBegin v) s = .next
      ((s.busSeen (s.busCorrect v s.met.busI).1 s.met.busI).holdupStart (s.busCorrect v s.met.busI).1) := by
    refine (exec_gated rfl hs).trans (congrArg _ (if_neg ?_))
    rw [hb]
    exact Bool.eq_false_iff.1 hh
  generalize (s.busCorrect v s.met.busI).1 = w at hb hf he ⊢
  generalize s.busSeen w s.met.busI = a at hb hf he
  refine completes_of he ?_
  rw [State.holdupStart_eq]
  have hq : (a.holdupNoted w).seq = s.seq := hf .seq rfl
  have hsnap : (a.holdupNoted w).holdupEnds.snap =
      { s.snap with busV := w, holdup := true, holdStart := s.plinth, holdEnd := none, minBus := w, sums := [] } := by
    rw [State.holdupEnds_snap, State.holdupNoted, hb, show a.plinth = s.plinth from hf .plinth rfl]
  have hboot := (a.holdupNoted w).holdupEnds_boot
  have hjobs {n : Nat} (hn : n < 8) := (a.holdupNoted w).holdupEnds_jobs hn
  have hsite {n : Nat} (hn : n < 8) (h : s.seq.sysReset = false) (hst : (s.site n).st = .retryWait) :=
    State.holdupEnds_site (s := a.holdupNoted w) hn (by rw [hq, h]) (by rw [State.site_congr hq, hst])
  generalize (a.holdupNoted w).holdupEnds = u at hsnap hboot hjobs hsite ⊢
  have hg := u.holdupSaves_frame
  rw [u.holdupSaves_snap, hsnap, hg .boot rfl]
  refine ⟨rfl, rfl, rfl, rfl, hboot.2, hboot.1, fun n hn => ?_, fun n hn h hst => ?_⟩
  · rw [State.slot, hg .cal rfl]
    exact hjobs hn
  · rw [State.site_congr (hg .seq rfl)]
    exact hsite hn h hst

/-- During a hold-up the lowest bus is kept (R201). -/
theorem holdupBegin_during (v : Nat) (hs : s.pwr.standby = true) (hh : s.snap.holdup = true) : Completes (.holdupBegin v) s fun t =>
    t = s.busSeen (s.busCorrect v s.met.busI).1 s.met.busI ∧
    t.snap = { s.snap with busV := (s.busCorrect v s.met.busI).1, minBus := min s.snap.minBus (s.busCorrect v s.met.busI).1 } := by
  have hb := s.busSeen_snap (s.busCorrect v s.met.busI).1 s.met.busI
  refine completes_of (t := s.busSeen (s.busCorrect v s.met.busI).1 s.met.busI) ?_ ⟨rfl, ?_⟩
  · refine (exec_gated rfl hs).trans (congrArg _ (if_pos ?_))
    rw [hb]
    exact hh
  · rw [hb, if_pos hh]

/-! ## The end of hold-up (R203, R537) -/

theorem State.eraseBadBanks_snap (s : State) (keep : Option Nat) : ∃ m, (s.eraseBadBanks keep).snap = { s.snap with mend := m } := by
  unfold State.eraseBadBanks
  refine List.foldlRecOn (motive := fun u : State => ∃ m, u.snap = { s.snap with mend := m }) _ _ ⟨s.snap.mend, rfl⟩
    fun u ⟨m, hu⟩ x _ => ?_
  split
  · exact ⟨setBit u.snap.mend (2 * x.1 + x.2) true, congrArg (fun y : Snap => { y with mend := setBit u.snap.mend (2 * x.1 + x.2) true }) hu⟩
  · exact ⟨m, hu⟩

/-- Hold-up is over, in the snapshots' part and in the queue of the ring: banks held back are erased, and summaries wait no longer. -/
def State.holdupOver (s : State) : State :=
  let inFlight := s.log.page.elim 0 PageJob.count
  { s with log := { s.log with queue := s.log.queue.take inFlight ++ (s.log.queue.drop inFlight).map fun x => { x with queued := true } }
           snap := { s.snap with holdup := false, erasing := s.snap.erasing ||| s.snap.held, held := 0, flushing := false } }

theorem State.holdupSummaries_sums (s : State) (reason : Nat) : (s.holdupSummaries reason).snap.sums = [] := rfl

/-- What the end of hold-up resumes leaves the snapshots' part alone. -/
theorem State.holdupResumes_snap (s : State) : s.startPage.startPushes.backoffsOver.recordLate.holdupResume.snap = s.snap :=
  (State.holdupResume_touches (ps := Part.others.erase .snap) rfl (State.recordLate_touches rfl (State.backoffsOver_touches rfl
    (State.startPushes_touches rfl (State.startPage_touches rfl (.refl _ s)))))).only .snap rfl

theorem holdupEnd_effect (hs : s.pwr.standby = true) (hh : s.snap.holdup = true) : Completes .holdupEnd s fun t =>
    t.snap.holdup = false ∧ t.snap.held = 0 ∧ t.snap.flushing = false ∧ t.snap.sums = [] := by
  refine completes_of
    (t := ((s.holdupSummaries 1).holdupOver.eraseBadBanks none).startPage.startPushes.backoffsOver.recordLate.holdupResume)
    ((exec_gated rfl hs).trans (congrArg _ (if_neg (by rw [hh]; decide)))) ?_
  obtain ⟨m, hm⟩ := (s.holdupSummaries 1).holdupOver.eraseBadBanks_snap none
  rw [State.holdupResumes_snap, hm]
  exact ⟨rfl, rfl, rfl, s.holdupSummaries_sums 1⟩

theorem holdupEnd_idle (hs : s.pwr.standby = true) (hh : s.snap.holdup = false) : exec .holdupEnd s = .next s :=
  (exec_gated rfl hs).trans (congrArg _ (if_pos (by rw [hh]; rfl)))

end Sys2Proof.Machine
end


section
/-!
SUPPORT. The Hold window, the end of Brace and the junction sensors (R238, R289, R316, R319, R320), and O14.
-/
namespace Sys2Proof.Machine

variable {s : State}

/-! ## What fans and pumps do at once (R280) -/

/-- Of the cooling what a source does at once changes the channels alone. -/
theorem State.forceNow_cool (s : State) : ∃ fans, s.forceNow.cool = { s.cool with fans := fans } := by
  unfold State.forceNow
  split
  · rw [s.withDrive_frame _ .cool rfl]
    refine List.foldlRecOn (motive := fun u : State => ∃ fans, u.cool = { s.cool with fans := fans }) _ _ ⟨s.cool.fans, rfl⟩
      fun u ⟨fans, hu⟩ c _ => ?_
    have set (x : FanCh) : ∃ fans, (u.setFan c x).cool = { s.cool with fans := fans } :=
      ⟨Tbl.set u.cool.fans c x, congrArg (fun y : Cooling => { y with fans := Tbl.set u.cool.fans c x }) hu⟩
    have keep : ∃ fans, u.cool = { s.cool with fans := fans } := ⟨fans, hu⟩
    extract_lets x
    split
    · exact keep
    split
    · exact set _
    split
    · exact keep
    · extract_lets y
      split
      · exact set _
      · exact set _
      · exact set _
      · exact set _
  · exact ⟨s.cool.fans, rfl⟩

/-! ## The Hold window (R238, R289) -/

/-- The fans and pumps as the Hold window ends: at full where no firmware runs (R289). -/
def State.holdFans (s : State) : State :=
  if s.stepEnded 11 && s.boot.run.isSome then s
  else ({ s with cool := { s.cool with hold := true } } : State).forceNow.fanEventAll 7

theorem State.holdFans_cool (s : State) :
    ((s.stepEnded 11 && s.boot.run.isSome) = false → s.holdFans.cool.hold = true) ∧
    ((s.stepEnded 11 && s.boot.run.isSome) = true → s.holdFans.cool = s.cool) := by
  unfold State.holdFans
  refine ⟨fun h => ?_, fun h => by rw [if_pos h]⟩
  rw [if_neg (by rw [h]; decide)]
  obtain ⟨fans, hf⟩ := ({ s with cool := { s.cool with hold := true } } : State).forceNow_cool
  rw [(State.fanEventAll_touches (ps := [.log, .evt]) rfl (.refl _ _)).only .cool rfl, hf]

theorem State.holdFans_pair (s : State) : s.holdFans.pair = s.pair := by
  unfold State.holdFans
  split
  · rfl
  · exact (State.fanEventAll_touches (ps := Part.others.erase .pair) rfl (State.forceNow_touches rfl (.refl _ _))).only .pair rfl

/-- The Hold window ends: its state, and full cooling where no firmware runs. -/
theorem holdWindowExpiry_effect (hs : s.pwr.standby = true) (h1 : s.pair.holdState = 1) : Completes .holdWindowExpiry s fun t =>
    t.pair = { s.pair with holdState := 2 } ∧
    ((s.stepEnded 11 && s.boot.run.isSome) = false → t.cool.hold = true) ∧
    ((s.stepEnded 11 && s.boot.run.isSome) = true → t.cool = s.cool) := by
  have he : exec .holdWindowExpiry s = .next _ := (exec_gated rfl hs).trans (congrArg _ (if_neg (not_not.2 h1)))
  extract_lets a x b y c at he
  refine completes_of he ?_
  have hc : Touches [.cap, .log, .evt, .out] s a := by
    refine .foldl (fun u n hu => ?_) (.refl _ s)
    have fall {v : Int} {x : SiteCap} {m : Int} : Touches [.cap, .log, .evt, .out] s (((u.setCap n v).setCapS n x).capEvent n 2 v m 0) :=
      State.capEvent_touches rfl (State.setCapS_touches rfl (State.setCap_touches rfl hu))
    split
    · exact fall
    · exact fall
    · exact fall
    · exact hu
  have hg {typ source kind site data} : c.onlyChanges [.log, .evt] (c.record typ source kind site data) :=
    (State.record_touches rfl (.refl _ c)).only
  have hb : b = a.holdFans := rfl
  have hf := a.holdFans_cool
  rw [State.stepEnded_congr (hc.only .led rfl), hc.only .boot rfl, ← hb] at hf
  have hp : b.pair = s.pair := a.holdFans_pair.trans (hc.only .pair rfl)
  clear_value b
  refine ⟨(hg .pair rfl).trans (congrArg (fun y : Pair => { y with holdState := 2 }) hp), fun h => ?_, fun h => ?_⟩
  · exact (congrArg Cooling.hold (hg .cool rfl)).trans (hf.1 h)
  · exact (hg .cool rfl).trans ((hf.2 h).trans (hc.only .cool rfl))

/-! ## The end of Brace (R316) -/

/-- BRACE_HOLD has passed, quietly and without a request. -/
def State.braceOver (s : State) : Prop :=
  s.haz.pga < hzNote.nat s.braceSec ∧ s.haz.braceQuiet.getD s.haz.braceAt + secs (hzHold.nat s.braceSec) ≤ s.plinth ∧
    s.since s.haz.lastReq (secs (hzHold.nat s.braceSec)) = true

/-- Brace ends, and what it paused resumes. -/
def State.braceEnd (s : State) : State :=
  ({ s.shakeEvent 3 s.haz.braceAt with haz := { (s.shakeEvent 3 s.haz.braceAt).haz with
      brace := false, causeAcc := false, causeReq := false, braceSec := [] } } : State).startPushes.recordLate

theorem State.braceEnd_haz (s : State) :
    s.braceEnd.haz = { s.haz with brace := false, causeAcc := false, causeReq := false, braceSec := [] } := by
  unfold State.braceEnd
  rw [(State.recordLate_touches (ps := Part.others.erase .haz) rfl (State.startPushes_touches rfl (.refl _ _))).only .haz rfl,
    (State.shakeEvent_touches (ps := [.log, .evt]) rfl (.refl _ s)).only .haz rfl]

theorem braceHoldExpiry_exec (hs : s.pwr.standby = true) (hb : s.haz.brace = true) [Decidable s.braceOver] :
    exec .braceHoldExpiry s = .next (if s.braceOver then s.braceEnd else s) := by
  refine (exec_gated rfl hs).trans (congrArg _ ((if_neg (by rw [hb]; decide)).trans ?_))
  refine if_congr ?_ rfl rfl
  simp only [State.braceOver, Bool.and_eq_true, decide_eq_true_eq, and_assoc]

theorem State.not_braceOver (h : hzNote.nat s.braceSec ≤ s.haz.pga ∨
    s.plinth < s.haz.braceQuiet.getD s.haz.braceAt + secs (hzHold.nat s.braceSec) ∨
    s.since s.haz.lastReq (secs (hzHold.nat s.braceSec)) = false) : ¬ s.braceOver := by
  rintro ⟨hpga, hquiet, hreq⟩
  rcases h with h | h | h
  · omega
  · omega
  · rw [hreq] at h
    contradiction

/-! ## The junction sensors (R319, R320) -/

theorem foldl_max_le {l : List Int} {a b : Int} (ha : a ≤ b) (hl : ∀ v ∈ l, v ≤ b) : l.foldl max a ≤ b :=
  List.foldlRecOn (motive := fun x : Int => x ≤ b) l max ha fun _ hx v hv => max_le hx (hl v hv)

theorem filterMap_map_some {l : List Int} {f : Option Int → Option Int} (h : ∀ v ∈ l, f (some v) = some v) :
    (l.map some).filterMap f = l := by
  rw [List.filterMap_map]
  exact (List.filterMap_congr h).trans List.filterMap_some

/-- Readings of which two or more are valid, and all are: TJ_CORE is the highest, and no fault stands (R319). -/
theorem State.tjTake_valid {l : List Int} (h2 : 2 ≤ l.length) (hv : ∀ v ∈ l, -640 ≤ v ∧ v ≤ 2400) : s.tjTake (l.map some) =
    { s with haz := { s.haz with tjRead := l.map some, tjCore := l.foldl max (-640), tjFault := false } } := by
  unfold State.tjTake
  extract_lets ok stop blind was x s1
  have hok : ok = l := filterMap_map_some fun v hm => if_pos (hv v hm)
  have hb : blind = false := decide_eq_false (by rw [hok]; omega)
  rw [if_neg (by rw [hb]; exact Bool.false_ne_true)]
  unfold s1 x
  rw [hok, hb]
  rfl

/-- No limit is passed: TJ_STOP not reached, TJ_RESET not exceeded (R320). -/
theorem State.tjJudge_below (hstop : s.haz.tjCore < obTjStop.val s.optBytes) (hreset : s.haz.tjCore ≤ obTjReset.val s.optBytes) :
    s.tjJudge = s := by
  unfold State.tjJudge
  extract_lets tj reset
  split
  · rfl
  · rw [if_neg (by omega), if_neg (by omega)]

theorem State.tjJudge_stop (h0 : s.haz.tjState = 0) (hstop : obTjStop.val s.optBytes ≤ s.haz.tjCore)
    (hreset : s.haz.tjCore ≤ obTjReset.val s.optBytes) : s.tjJudge = s.tjStop := by
  unfold State.tjJudge
  extract_lets tj reset
  rw [if_neg (by omega), if_neg (by omega), if_pos ⟨h0, hstop⟩]

theorem State.armatureStop_pair (s : State) : s.armatureStop.pair.holdState = 1 :=
  congrArg Pair.holdState ((State.protFree_touches (ps := Part.others.erase .pair) rfl (.refl _ s.dropUpdate.abandon7.armatureReset)).only
    .pair rfl)

/-- STOPPED: firmware runs no more, the Armature has no power and the Hold window runs (R320, R29). -/
theorem State.tjStop_effect (s : State) : s.tjStop.haz.tjState = 1 ∧ s.tjStop.haz.tjCore = s.haz.tjCore ∧ s.tjStop.boot.run = none ∧
    s.tjStop.pwr.armature = false ∧ s.tjStop.pair.holdState = 1 := by
  unfold State.tjStop
  extract_lets x s1 s2 s3
  have h1 : s1.haz = { s.haz with tjState := 1 } := (State.forceNow_touches (ps := [.cool, .out]) rfl (.refl _ _)).only .haz rfl
  have h2 : s2.haz = { s1.haz with cntStop := s1.haz.cntStop.inc.1 } := State.bump_frame .haz rfl
  have h3 : s3.haz = s2.haz :=
    (State.calStop_touches (ps := Part.others.erase .haz) rfl (State.tjEvent_touches rfl (.refl _ s2))).only .haz rfl
  clear_value s1 s2 s3
  have hr := (RailsOnly.orderDown s3.armatureStop 256 24 (maskOf [8])).trans (RailsOnly.settle _ (g := 256) le_rfl)
  have hf : Touches [.pwr, .seq, .log, .mem, .cap, .met, .pnt, .chi, .cal, .jrn, .ques, .ebx, .evt, .dram, .out] s3.armatureStop _ :=
    State.settle_touches (g := 256) rfl (State.orderDown_touches (base := 256) (n := 24) (mask := maskOf [8]) rfl (.refl _ _))
  have hh : s3.armatureStop.haz = s3.haz := (State.armatureStop_touches (ps := Part.others.erase .haz) rfl (.refl _ s3)).only .haz rfl
  rw [hf.only .haz rfl, hh, h3, h2, h1, hf.only .boot rfl, s3.stops_armatureStop.image, hr.pwr, s3.armatureStop_power.1,
    hf.only .pair rfl, s3.armatureStop_pair]
  exact ⟨rfl, rfl, rfl, rfl, rfl⟩

theorem tjSample_exec {l : List Int} (hs : s.pwr.standby = true) (hc : s.pwr.core = true) (h4 : l.length ≤ 4) :
    exec (.tjSample (l.map some)) s = .next (s.tjTake (l.map some)).tjJudge := by
  refine (exec_gated rfl hs).trans (congrArg _ ((if_pos hc).trans ?_))
  rw [List.take_of_length_le (by rw [List.length_map]; exact h4)]

theorem tjSample_below {l : List Int} (hs : s.pwr.standby = true) (hc : s.pwr.core = true) (h2 : 2 ≤ l.length) (h4 : l.length ≤ 4)
    (hv : ∀ v ∈ l, -640 ≤ v ∧ v ≤ 2400) (hlim : ∀ v ∈ l, v < obTjStop.val s.optBytes ∧ v ≤ obTjReset.val s.optBytes) :
    Completes (.tjSample (l.map some)) s fun t =>
      t = { s with haz := { s.haz with tjRead := l.map some, tjCore := l.foldl max (-640), tjFault := false } } := by
  refine completes_of (tjSample_exec hs hc h4) ?_
  obtain ⟨v, hm⟩ := List.exists_mem_of_length_pos (by omega : 0 < l.length)
  have lo := (hv v hm).1
  obtain ⟨hlo, hhi⟩ := hlim v hm
  rw [State.tjTake_valid h2 hv]
  refine State.tjJudge_below (Int.lt_of_le_sub_one (foldl_max_le (b := obTjStop.val s.optBytes - 1) (by omega) fun w hw => ?_))
    (foldl_max_le (b := obTjReset.val s.optBytes) (by omega) fun w hw => (hlim w hw).2)
  exact Int.le_sub_one_of_lt (hlim w hw).1

theorem tjSample_stop (v : Int) (hs : s.pwr.standby = true) (hc : s.pwr.core = true) (h0 : s.haz.tjState = 0) (hlo : -640 ≤ v)
    (hhi : v ≤ 2400) (hstop : obTjStop.val s.optBytes ≤ v) (hreset : v ≤ obTjReset.val s.optBytes) :
    Completes (.tjSample [some v, some v, some v, some v]) s fun t =>
      t.haz.tjState = 1 ∧ t.haz.tjCore = v ∧ t.boot.run = none ∧ t.pwr.armature = false ∧ t.pair.holdState = 1 := by
  refine completes_of (tjSample_exec (l := List.replicate 4 v) hs hc le_rfl) ?_
  have hm : (List.replicate 4 v).foldl max (-640) = v := by
    show max (max (max (max (-640) v) v) v) v = v
    omega
  rw [State.tjTake_valid (by rw [List.length_replicate]; decide)
    (fun w hw => by rw [List.eq_of_mem_replicate hw]; exact ⟨hlo, hhi⟩), hm]
  generalize hu : ({ s with haz := { s.haz with tjRead := _, tjCore := v, tjFault := false } } : State) = u
  have hj : u.tjJudge = u.tjStop := by
    subst hu
    exact State.tjJudge_stop h0 hstop hreset
  have hcore : u.haz.tjCore = v := by
    subst hu
    rfl
  rw [hj]
  obtain ⟨hst, htj, hrest⟩ := u.tjStop_effect
  exact ⟨hst, htj.trans hcore, hrest⟩

/-- The release of STOPPED: an Armature restart that sets no cause bit (R320). -/
theorem tjStopReleaseTimer_effect (hs : s.pwr.standby = true) (h1 : s.haz.tjState = 1)
    (hcool : s.haz.tjCore < obTjStop.val s.optBytes - 160) : Completes .tjStopReleaseTimer s fun t =>
      t.haz = { s.haz with tjState := 0 } ∧ t.rst.under = some .armature ∧ t.rst.rstCause = s.rst.rstCause ∧ t.stepRuns 9 = true := by
  refine completes_of ((exec_gated rfl hs).trans (congrArg _ (if_pos ⟨h1, hcool⟩))) ?_
  have hf := (State.tjEvent_touches (ps := [.log, .evt]) (kind := 2) (threshold := obTjStop.val s.optBytes - 160) rfl
    (.refl _ ({ s with haz := { s.haz with tjState := 0 } } : State))).only
  generalize State.tjEvent _ 2 (obTjStop.val s.optBytes - 160) = u at hf ⊢
  have hh : u.armatureAgain.haz = u.haz := (State.armatureAgain_touches (ps := Part.others.erase .haz) rfl (.refl _ u)).only .haz rfl
  obtain ⟨hunder, hcause, -, -⟩ := u.armatureAgain_effect
  exact ⟨hh.trans (hf .haz rfl), hunder, hcause.trans (congrArg ResetCtl.rstCause (hf .rst rfl)), u.armatureAgain_start.2.1⟩

/-- Settles O14: hold-up begins, is joined and ends; the Hold window, Brace and the junction sensors' limits end and begin as the rules
say. The bus that hold-up keeps is the corrected reading (log 116), and the release of STOPPED sets no cause bit (log 18). -/
theorem holdupBraceAndJunctionTakeEffect : Obligations.HoldupBraceAndJunctionTakeEffect := by
  unfold Obligations.HoldupBraceAndJunctionTakeEffect
  intro s hs
  refine ⟨fun v => holdupBegin_effect v hs, fun v => holdupBegin_during v hs, holdupEnd_effect hs,
    fun hh => completes_of (holdupEnd_idle hs hh) rfl, holdWindowExpiry_effect hs, fun hb hpga hquiet hreq => ?_, fun hb h => ?_, fun l hc h2 h4 hv hlim => tjSample_below hs hc h2 h4 hv hlim,
    fun v hc h0 hlo hhi hstop hreset => tjSample_stop v hs hc h0 hlo hhi hstop hreset, tjStopReleaseTimer_effect hs⟩
  · classical
    exact completes_of (braceHoldExpiry_exec hs hb) (by rw [if_pos ⟨hpga, hquiet, hreq⟩]; exact s.braceEnd_haz)
  · classical
    exact completes_of (braceHoldExpiry_exec hs hb) (if_neg (State.not_braceOver h))

end Sys2Proof.Machine
end


section
/-!
SUPPORT. Fault records (R186): where each field of the 64 bytes stands.
-/
namespace Sys2Proof.Machine

/-! ## Reading behind a field -/

theorem slice_behind {a b : Bytes} {o n : Nat} (h : a.length ≤ o) : slice (a ++ b) o n = slice b (o - a.length) n := by
  rw [slice, slice, List.drop_append, List.drop_eq_nil_of_le h, List.nil_append]

theorem le_behind_field (m v : Nat) (b : Bytes) {o n : Nat} (h : m ≤ o) : le (leBytes m v ++ b) o n = le b (o - m) n := by
  rw [le, slice_behind (by rwa [leBytes_length]), leBytes_length, le]

theorem le_first_field (n v : Nat) (b : Bytes) : le (leBytes n v ++ b) 0 n = v % 256 ^ n := le_field [] b n v

theorem crc32c_lt (b : Bytes) : crc32c b < 2 ^ 32 := BitVec.isLt _

/-! ## The record -/

/-- The 32 bytes of a record before its DATA. -/
def FaultRec.head (r : FaultRec) (seq : BitVec 32) (epoch : BitVec 8) : Bytes :=
  leBytes 4 seq.toNat ++ leBytes 1 epoch.toNat ++ leBytes 1 r.typ ++ leBytes 2 r.source ++ leBytes 8 r.time ++
    leBytes 8 r.pcount ++ leBytes 1 r.pfrac ++
    leBytes 1 (bitAt r.pvalid 0 + bitAt r.holdup 1 + bitAt r.queued 2 + bitAt r.retired 3) ++
    leBytes 1 r.kind ++ leBytes 1 r.siteState ++ zeros 4

/-- The 28 bytes of DATA, filled up with zeros. -/
def FaultRec.body (r : FaultRec) : Bytes := (r.data ++ zeros 28).take 28

section Record
variable (r : FaultRec) (seq : BitVec 32) (epoch : BitVec 8)

theorem FaultRec.encode_eq : r.encode seq epoch =
    (r.head seq epoch ++ r.body) ++ leBytes 4 (crc32c (r.head seq epoch ++ r.body)) := rfl

theorem FaultRec.head_length : (r.head seq epoch).length = 32 := by
  simp [FaultRec.head, leBytes_length, zeros]

theorem FaultRec.body_length : r.body.length = 28 := by
  simp [FaultRec.body, zeros]

theorem FaultRec.body_full (h : r.data.length = 28) : r.body = r.data := by
  rw [FaultRec.body, ← h, List.take_left]

theorem FaultRec.covered_length : (r.head seq epoch ++ r.body).length = 60 := by
  rw [List.length_append, r.head_length, r.body_length]

theorem FaultRec.encode_length : (r.encode seq epoch).length = 64 := by
  rw [r.encode_eq, List.length_append, r.covered_length, leBytes_length]

/-- The record's fields up to SITE_STATE, each before all that follow it. -/
theorem FaultRec.encode_head : ∃ rest, r.encode seq epoch = leBytes 4 seq.toNat ++ (leBytes 1 epoch.toNat ++ (leBytes 1 r.typ ++
    (leBytes 2 r.source ++ (leBytes 8 r.time ++ (leBytes 8 r.pcount ++ (leBytes 1 r.pfrac ++
    (leBytes 1 (bitAt r.pvalid 0 + bitAt r.holdup 1 + bitAt r.queued 2 + bitAt r.retired 3) ++
    (leBytes 1 r.kind ++ (leBytes 1 r.siteState ++ rest))))))))) :=
  ⟨zeros 4 ++ (r.body ++ leBytes 4 (crc32c (r.head seq epoch ++ r.body))), by
    simp only [r.encode_eq, FaultRec.head, List.append_assoc]⟩

theorem FaultRec.encode_data (h : r.data.length = 28) : slice (r.encode seq epoch) 32 28 = r.data := by
  rw [r.encode_eq, List.append_assoc, slice_behind (r.head_length seq epoch).le, r.head_length, r.body_full h, slice]
  exact List.take_left' h

theorem FaultRec.encode_crc : u32 (r.encode seq epoch) 60 = crc32c ((r.encode seq epoch).take 60) := by
  have hc := r.covered_length seq epoch
  rw [r.encode_eq, List.take_left' hc, ← hc, u32]
  generalize r.head seq epoch ++ r.body = b
  have h := le_field b [] 4 (crc32c b)
  rw [List.append_nil] at h
  exact h.trans (Nat.mod_eq_of_lt (crc32c_lt b))

end Record

/-- Settles O59: each field of the head stands behind those before it, then come DATA and the CRC over both. -/
theorem faultRecordsReadAsLaidOut : Obligations.FaultRecordsReadAsLaidOut := by
  intro r seq epoch
  obtain ⟨rest, he⟩ := r.encode_head seq epoch
  refine ⟨r.encode_length seq epoch, ?_, ?_, ?_, ?_, ?_, ?_, ?_, ?_, r.encode_data seq epoch, r.encode_crc seq epoch⟩
  · rw [he]
    exact (le_first_field 4 _ _).trans (Nat.mod_eq_of_lt seq.isLt)
  · rw [he, u8, le_behind_field _ _ _ (by decide)]
    exact (le_first_field 1 _ _).trans (Nat.mod_eq_of_lt epoch.isLt)
  all_goals simp [he, u8, u16, u64, le_behind_field, le_first_field]

end Sys2Proof.Machine
end


section
/-!
SUPPORT. The fault record ring (R189 to R193): what a page program, a sector erase, a device's failure and the recovery leave of the
log and of both devices.
-/
namespace Sys2Proof.Machine

variable {s t : State}

/-! ## Erased flash -/

/-- Whether a range is erased is a matter of its device alone. -/
theorem State.isErased_congr {dev off n : Nat} (h : t.flash dev = s.flash dev) : t.isErased dev off n = s.isErased dev off n := by
  rw [State.isErased, h, State.isErased]

theorem State.ferase_both (s : State) (off n : Nat) : ((s.ferase 0 off n).ferase 1 off n).isErased 0 off n = true ∧
    ((s.ferase 0 off n).ferase 1 off n).isErased 1 off n = true :=
  ⟨(State.isErased_congr rfl).trans (s.ferase_isErased 0 off le_rfl), State.ferase_isErased _ 1 off le_rfl⟩

/-! ## The page that starts (R190) -/

/-- A page that starts gives its records their numbers; the queue, the write slot and all else of the log stand. -/
theorem State.startPage_log (s : State) : s.startPage.log =
    { s.log with page := s.startPage.log.page, seq := s.startPage.log.seq, epoch := s.startPage.log.epoch, mark := s.startPage.log.mark } := by
  unfold State.startPage
  split <;> rfl

theorem State.startPage_frame (s : State) : s.onlyChanges [.log] s.startPage := (State.startPage_touches rfl (.refl _ s)).only

theorem State.startPage_flash (s : State) (dev : Nat) : s.startPage.flash dev = s.flash dev := by
  rw [State.flash, State.flash, s.startPage_frame .flash0 rfl, s.startPage_frame .flash1 rfl]

theorem State.flushGap_idle (h : s.log.gap = []) : s.flushGap = s := by
  rw [State.flushGap, h, List.foldl_nil]

/-! ## The page that ends (R190, R192) -/

/-- A page's bytes land on a device that has not failed. -/
def State.landOn (s : State) (dev : Nat) (p : PageJob) : State :=
  if s.log.devFailed.getLsbD dev then s else s.fwrite dev (ringOff p.slot) p.bytes

theorem State.landOn_log (s : State) (dev : Nat) (p : PageJob) : (s.landOn dev p).log = s.log :=
  (Touches.ite (.refl [.flash0, .flash1] s) (State.fwrite_touches rfl (.refl _ s))).only .log rfl

/-- What a page that ends leaves of the log. -/
def Log.pageTaken (g : Log) (p : PageJob) : Log :=
  { g with page := none, queue := g.queue.drop p.count, slot := (p.slot + p.bytes.length / 64) % ringSlots
           ahead := if (p.slot + p.bytes.length / 64) % ringSlots / 64 = p.slot / 64 then g.ahead else g.ahead - 1 }

theorem State.pageLand_eq {p : PageJob} (h : s.log.page = some p) :
    s.pageLand = { (s.landOn 0 p).landOn 1 p with log := s.log.pageTaken p } := by
  have hl : ((s.landOn 0 p).landOn 1 p).log = s.log := (State.landOn_log _ 1 p).trans (s.landOn_log 0 p)
  rw [← hl, State.pageLand, h]
  rfl

theorem State.landOn_flash0 (s : State) (p : PageJob) : (s.landOn 0 p).flash0 =
    if s.log.devFailed.getLsbD 0 then s.flash0 else (s.fwrite 0 (ringOff p.slot) p.bytes).flash0 := apply_ite State.flash0 ..

theorem State.landOn_flash1 (s : State) (p : PageJob) : (s.landOn 1 p).flash1 =
    if s.log.devFailed.getLsbD 1 then s.flash1 else (s.fwrite 1 (ringOff p.slot) p.bytes).flash1 := apply_ite State.flash1 ..

/-- Neither device's landing is seen on the other. -/
theorem State.landOn_both (s : State) (p : PageJob) :
    ((s.landOn 0 p).landOn 1 p).flash0 = (s.landOn 0 p).flash0 ∧ ((s.landOn 0 p).landOn 1 p).flash1 = (s.landOn 1 p).flash1 := by
  constructor
  · rw [State.landOn]
    split <;> rfl
  · have h : (s.landOn 0 p).flash1 = s.flash1 := by
      rw [State.landOn]
      split <;> rfl
    rw [State.landOn_flash1, State.landOn_flash1, s.landOn_log, h]
    split
    · rfl
    · exact congrArg (fun m => Memory.putAll erased m (ringOff p.slot) p.bytes) h

theorem logPageProgramDone_effect {p : PageJob} (hs : s.pwr.standby = true) (hp : s.log.page = some p) (hg : s.log.gap = []) :
    Completes .logPageProgramDone s fun t => t.log.queue = s.log.queue.drop p.count ∧
      t.log.slot = (p.slot + p.bytes.length / 64) % ringSlots ∧
      (s.log.devFailed.getLsbD 0 = false → t.flash0 = (s.fwrite 0 (ringOff p.slot) p.bytes).flash0) ∧
      (s.log.devFailed.getLsbD 1 = false → t.flash1 = (s.fwrite 1 (ringOff p.slot) p.bytes).flash1) ∧
      (s.log.devFailed.getLsbD 0 = true → t.flash0 = s.flash0) ∧ (s.log.devFailed.getLsbD 1 = true → t.flash1 = s.flash1) := by
  have he : s.pageDone = s.pageLand.startPage := by
    rw [State.pageDone, if_pos (by rw [hp]; rfl), State.flushGap_idle]
    rw [State.pageLand_eq hp]
    exact hg
  refine completes_of (exec_gated rfl hs) ?_
  have hl := s.pageLand.startPage_log
  have hf := s.pageLand.startPage_frame
  obtain ⟨h0, h1⟩ := s.landOn_both p
  rw [he, hl, hf .flash0 rfl, hf .flash1 rfl, State.pageLand_eq hp]
  refine ⟨rfl, rfl, fun h => h0.trans ?_, fun h => h1.trans ?_, fun h => h0.trans ?_, fun h => h1.trans ?_⟩
  · rw [State.landOn_flash0, h, if_neg Bool.false_ne_true]
  · rw [State.landOn_flash1, h, if_neg Bool.false_ne_true]
  · rw [State.landOn_flash0, if_pos h]
  · rw [State.landOn_flash1, if_pos h]

theorem logPageProgramDone_idle (hs : s.pwr.standby = true) (hp : s.log.page = none) :
    Completes .logPageProgramDone s fun t => t = s := by
  refine completes_of (exec_gated rfl hs) ?_
  rw [State.pageDone, hp]
  rfl

/-! ## The sectors ahead (R190) -/

/-- One more sector erased on both devices. -/
def State.sectorErased (s : State) : State :=
  let off := ringOff (64 * ((s.log.slot / 64 + s.log.ahead) % 4080))
  { (s.ferase 0 off 4096).ferase 1 off 4096 with log := { s.log with ahead := s.log.ahead + 1 } }

theorem logSectorEraseDone_exec (hs : s.pwr.standby = true) (hh : s.snap.holdup = false) (hr : s.log.ready = true)
    (ha : s.log.ahead < 4079) : exec .logSectorEraseDone s = .next s.sectorErased.startPage := by
  have hn : ¬ (s.snap.holdup || !s.log.ready || decide (4079 ≤ s.log.ahead)) = true := by simp [hh, hr, ha]
  exact (exec_gated rfl hs).trans (congrArg _ (if_neg hn))

theorem logSectorEraseDone_effect (hs : s.pwr.standby = true) (hh : s.snap.holdup = false) (hr : s.log.ready = true)
    (ha : s.log.ahead < 4079) : Completes .logSectorEraseDone s fun t =>
      t.log.ahead = s.log.ahead + 1 ∧ t.log.queue = s.log.queue ∧
      t.isErased 0 (ringOff (64 * ((s.log.slot / 64 + s.log.ahead) % 4080))) 4096 = true ∧
      t.isErased 1 (ringOff (64 * ((s.log.slot / 64 + s.log.ahead) % 4080))) 4096 = true ∧
      s.onlyChanges [.log, .flash0, .flash1] t := by
  have he := logSectorEraseDone_exec hs hh hr ha
  obtain ⟨h0, h1⟩ := s.ferase_both (ringOff (64 * ((s.log.slot / 64 + s.log.ahead) % 4080))) 4096
  refine completes_of he ⟨?_, ?_, (State.isErased_congr (State.startPage_flash _ 0)).trans h0,
    (State.isErased_congr (State.startPage_flash _ 1)).trans h1, only_of (execLogSectorEraseDone_touches rfl (.refl _ s)) he⟩
  all_goals
    rw [State.startPage_log]
    rfl

/-! ## A device that fails (R192) -/

/-- The page that both devices' failure gives up takes back its numbers alone. -/
theorem State.pageDrop_log (s : State) : s.pageDrop.log =
    { s.log with page := none, seq := s.pageDrop.log.seq, epoch := s.pageDrop.log.epoch, mark := s.pageDrop.log.mark } := by
  unfold State.pageDrop
  split
  · next h => rw [← h]
  · rfl

/-- A device noted as failed, with the one event. -/
def State.deviceFailed (s : State) (dev : Nat) : State :=
  ({ s with log := { s.log with devFailed := setBit s.log.devFailed dev true } } : State).event 15 192 dev 0

theorem State.deviceFailed_log (s : State) (dev : Nat) :
    (s.deviceFailed dev).log = { s.log with devFailed := setBit s.log.devFailed dev true } :=
  State.event_frame _ 15 192 dev 0 .log rfl

theorem State.deviceFailed_ring (dev : Nat) (h : s.evt.ring.length < 4096) :
    (s.deviceFailed dev).evt.ring = s.evt.ring ++ [⟨s.ptime, 15, 192, dev, 0⟩] :=
  State.event_append (s := { s with log := { s.log with devFailed := setBit s.log.devFailed dev true } }) h

theorem logDeviceTimeout_exec {dev : Nat} (hs : s.pwr.standby = true) (hd : s.log.devFailed.getLsbD dev = false) :
    exec (.logDeviceTimeout dev) s =
      .next (if (s.deviceFailed dev).log.devFailed = 3#2 then (s.deviceFailed dev).pageDrop else s.deviceFailed dev) :=
  (exec_gated rfl hs).trans (congrArg _ (if_neg (Bool.eq_false_iff.1 hd)))

theorem logDeviceTimeout_effect {dev : Nat} (hs : s.pwr.standby = true) (hd : s.log.devFailed.getLsbD dev = false) :
    Completes (.logDeviceTimeout dev) s fun t =>
      t.log.devFailed = setBit s.log.devFailed dev true ∧ t.log.queue = s.log.queue ∧ s.onlyChanges [.log, .evt] t ∧
      (s.evt.ring.length < 4096 → t.evt.ring = s.evt.ring ++ [⟨s.ptime, 15, 192, dev, 0⟩]) := by
  have he := logDeviceTimeout_exec hs hd
  have hf := only_of (execLogDeviceTimeout_touches rfl (.refl [.log, .evt] s)) he
  have hl := s.deviceFailed_log dev
  have hr := State.deviceFailed_ring (s := s) dev
  refine completes_of he ?_
  generalize s.deviceFailed dev = v at hf hl hr ⊢
  by_cases h3 : v.log.devFailed = 3#2
  · rw [if_pos h3] at hf ⊢
    have hv : v.pageDrop.evt = v.evt := (State.pageDrop_touches (ps := [.log]) rfl (.refl _ v)).only .evt rfl
    rw [v.pageDrop_log, hl, hv]
    exact ⟨rfl, rfl, hf, hr⟩
  · rw [if_neg h3] at hf ⊢
    rw [hl]
    exact ⟨rfl, rfl, hf, hr⟩

/-! ## The ring found or started anew (R193) -/

/-- The ring behind its newest record, which stands at slot `k` with place `p`. -/
def State.ringFound (s : State) (k p : Nat) : State :=
  let slot := s.clearSlot ((k + 1) % ringSlots) 64
  { s with log := { s.log with slot := slot, ahead := s.aheadOf slot, ready := true, seq := BitVec.ofNat 32 (p + 1)
                               epoch := BitVec.ofNat 8 ((p + 1) / 2 ^ 32), mark := if (p + 1) % 2 ^ 32 = 0 then 1 else 0 } }

/-- The ring as it starts anew: every sector erased, and the epoch after that of the snapshots. -/
def State.ringAnew (s : State) : State :=
  let s := (s.ferase 0 (ringOff 0) 16711680).ferase 1 (ringOff 0) 16711680
  let epoch := match s.bestBank with
    | some b => s.bankEpoch b.1 b.2 + 1
    | none => 0
  { s with log := { s.log with slot := 0, ahead := 4079, ready := true, seq := 0, epoch := BitVec.ofNat 8 epoch, mark := 2 } }

theorem logRingRecoveryDone_found {k p : Nat} (hs : s.pwr.standby = true) (hr : s.log.ready = false) (hn : s.newest = some (k, p)) :
    exec .logRingRecoveryDone s = .next (s.ringFound k p).startPage := by
  refine (exec_gated rfl hs).trans (congrArg _ ((if_neg (Bool.eq_false_iff.1 hr)).trans ?_))
  rw [hn]
  rfl

theorem logRingRecoveryDone_anew (hs : s.pwr.standby = true) (hr : s.log.ready = false) (hn : s.newest = none) :
    exec .logRingRecoveryDone s = .next s.ringAnew.startPage := by
  refine (exec_gated rfl hs).trans (congrArg _ ((if_neg (Bool.eq_false_iff.1 hr)).trans ?_))
  rw [hn]
  rfl

theorem logRingRecoveryDone_effect (hs : s.pwr.standby = true) (hr : s.log.ready = false) : Completes .logRingRecoveryDone s fun t =>
    t.log.ready = true ∧ t.log.queue = s.log.queue ∧
    (∀ k p, s.newest = some (k, p) → t.log.slot = s.clearSlot ((k + 1) % ringSlots) 64 ∧ t.flash0 = s.flash0 ∧ t.flash1 = s.flash1) ∧
    (s.newest = none → t.log.slot = 0 ∧ t.log.ahead = 4079 ∧ t.isErased 0 (ringOff 0) 16711680 = true ∧
      t.isErased 1 (ringOff 0) 16711680 = true) := by
  rcases hn : s.newest with _ | ⟨k, p⟩
  · refine completes_of (logRingRecoveryDone_anew hs hr hn) ?_
    have h0 := State.isErased_congr (off := ringOff 0) (n := 16711680) (s.ringAnew.startPage_flash 0)
    have h1 := State.isErased_congr (off := ringOff 0) (n := 16711680) (s.ringAnew.startPage_flash 1)
    obtain ⟨he0, he1⟩ := s.ferase_both (ringOff 0) 16711680
    rw [h0, h1, State.startPage_log]
    exact ⟨rfl, rfl, nofun, fun _ => ⟨rfl, rfl, he0, he1⟩⟩
  · refine completes_of (logRingRecoveryDone_found hs hr hn) ?_
    have hf := (s.ringFound k p).startPage_frame
    rw [State.startPage_log]
    refine ⟨rfl, rfl, fun k' p' h => ?_, nofun⟩
    cases h
    exact ⟨rfl, hf .flash0 rfl, hf .flash1 rfl⟩

end Sys2Proof.Machine
end


section
/-!
SUPPORT. The read-out of the ring (R194, R195): where a path's cursor comes to stand, and what a refused write leaves of it.
-/
namespace Sys2Proof.Machine

variable {s t : State}

/-! ## What leaves the paths' cursors alone -/

/-- From `s` to `t` no path's cursor and no LOG_READ_FROM changes. -/
def State.SameReadOut (s t : State) : Prop := t.log.readFrom = s.log.readFrom ∧ t.log.cursor = s.log.cursor

theorem State.bump_log (blk inst : Nat) (c : Cnt) (put : Cnt → State → State) : (s.bump blk inst c put).log = (put c.inc.1 s).log :=
  State.bump_frame .log rfl

namespace State.SameReadOut

theorem trans {r s t : State} (h : r.SameReadOut s) (h' : s.SameReadOut t) : r.SameReadOut t :=
  ⟨h'.1.trans h.1, h'.2.trans h.2⟩

theorem of_log (h : t.log = s.log) : s.SameReadOut t := by
  constructor <;> rw [h]

theorem startPage (s : State) : s.SameReadOut s.startPage := by
  constructor <;> rw [s.startPage_log]

theorem lossRec (s : State) : s.SameReadOut s.lossRec := by
  unfold State.lossRec
  split
  · split <;> exact ⟨rfl, rfl⟩
  · exact ⟨rfl, rfl⟩

theorem flushGap (s : State) : s.SameReadOut s.flushGap := by
  unfold State.flushGap
  generalize s.log.gap = l
  induction l generalizing s with
  | nil => exact ⟨rfl, rfl⟩
  | cons _ l ih => exact (lossRec s).trans (ih s.lossRec)

theorem pushRec (s : State) (r : FaultRec) : s.SameReadOut (s.pushRec r) := by
  refine (flushGap s).trans ?_
  unfold State.pushRec
  extract_lets u
  split
  · exact startPage { u with log := { u.log with queue := u.log.queue ++ [r] } }
  · constructor <;> rw [State.bump_log] <;> rfl

theorem refuseWrite (s : State) (p : Path) (prin addr : Nat) : s.SameReadOut (s.refuseWrite p prin addr) := by
  refine (of_log ((State.violation_touches (ps := [.evt]) (p := p) (addr := addr) rfl (.refl _ s)).only .log rfl)).trans ?_
  unfold State.refuseWrite State.deniedRec
  split
  · exact pushRec _ _
  · exact ⟨rfl, rfl⟩

end State.SameReadOut

/-! ## Torn slots (R195) -/

/-- What a slot holds is a matter of the two devices. -/
theorem State.slotView_congr (h0 : t.flash0 = s.flash0) (h1 : t.flash1 = s.flash1) (k : Nat) : t.slotView k = s.slotView k := by
  unfold State.slotView
  rw [State.fread_congr h0 h1]

/-- A path's cursor at a slot. -/
def State.cursorAt (s : State) (p k : Nat) : State := { s with log := { s.log with cursor := Tbl.set s.log.cursor p k } }

/-- A torn slot counted in the path's LOG_TORN. -/
def State.tornCounted (s : State) (p : Nat) : State :=
  s.bump 15 3 (Tbl.get {} s.log.torn p) fun c s => { s with log := { s.log with torn := Tbl.set s.log.torn p c } }

/-- A record that only flash 1 holds counted in LOG_ONE_COPY. -/
def State.oneCounted (s : State) : State := s.bump 15 2 s.log.oneCopy fun c s => { s with log := { s.log with oneCopy := c } }

theorem State.SameReadOut.tornCounted (s : State) (p : Nat) : s.SameReadOut (s.tornCounted p) := by
  constructor <;> rw [State.tornCounted, State.bump_log]

theorem State.SameReadOut.oneCounted (s : State) : s.SameReadOut s.oneCounted := by
  constructor <;> rw [State.oneCounted, State.bump_log]

/-- One step over the slots: a torn one is counted and passed, any other stops the cursor. -/
theorem State.skipTorn_step (s : State) (p f : Nat) :
    (s.slotView (Tbl.get 0 s.log.cursor p) = .torn ∧
      s.skipTorn p (f + 1) = ((s.tornCounted p).cursorAt p ((Tbl.get 0 s.log.cursor p + 1) % ringSlots)).skipTorn p f) ∨
    s.SameReadOut (s.skipTorn p (f + 1)) := by
  rw [State.skipTorn]
  dsimp only
  split
  · next h => exact .inl ⟨h, rfl⟩
  · exact .inr (.oneCounted s)
  · exact .inr ⟨rfl, rfl⟩

theorem State.skipTorn_stays {p : Nat} (h : s.slotView (Tbl.get 0 s.log.cursor p) ≠ .torn) (f : Nat) :
    (s.skipTorn p f).log.cursor = s.log.cursor := by
  cases f with
  | zero => rfl
  | succ f => exact ((s.skipTorn_step p f).resolve_left fun ht => h ht.1).2

theorem State.skipTorn_readFrom (s : State) (p f : Nat) : (s.skipTorn p f).log.readFrom = s.log.readFrom := by
  induction f generalizing s with
  | zero => rfl
  | succ f ih =>
    rcases s.skipTorn_step p f with ⟨-, he⟩ | h
    · rw [he, ih]
      exact (State.SameReadOut.tornCounted s p).1
    · exact h.1

/-- A cursor put at a slot that is not torn stays there. -/
theorem State.cursorAt_stays {k : Nat} (p : Nat) (h : s.slotView k ≠ .torn) (f : Nat) :
    Tbl.get 0 ((s.cursorAt p k).skipTorn p f).log.cursor p = k := by
  have hk : Tbl.get 0 (s.cursorAt p k).log.cursor p = k := Tbl.get_set_same ..
  have hv : (s.cursorAt p k).slotView k = s.slotView k := State.slotView_congr rfl rfl k
  rw [State.skipTorn_stays, hk]
  rw [hk, hv]
  exact h

/-! ## LOG_READ_FROM (R194) -/

/-- The ring's slots from the write slot on, that is the oldest first. -/
def State.readOrder (s : State) : List Nat := (List.range ringSlots).map fun i => (s.log.slot + i) % ringSlots

/-- A slot holds a record that does not precede a place. -/
def State.readsAt (s : State) (v k : Nat) : Bool := match s.slotView k with
  | .held b _ => !precedes (recPlace b) v
  | _ => false

theorem State.readsAt_whole {v k : Nat} (h : s.readsAt v k = true) : s.slotView k ≠ .torn := by
  intro ht
  rw [State.readsAt, ht] at h
  cases h

/-- The value taken, LOG_TORN back at 0, and no entry in flight (R522); the cursor not yet moved. -/
def State.readTaken (s : State) (p : Path) (v : Nat) : State :=
  { s with log := { s.log with readFrom := Tbl.set s.log.readFrom p.idx v, torn := Tbl.set s.log.torn p.idx {} }
           acc := Tbl.set s.acc (16 * p.idx + 15) { (Tbl.get {} s.acc (16 * p.idx + 15) : PathBlock) with snap := none } }

theorem State.logReadFrom_eq (s : State) (p : Path) (v : Nat) : s.logReadFrom p v =
    ((s.readTaken p (v % 2 ^ 40)).cursorAt p.idx ((s.readOrder.find? (s.readsAt (v % 2 ^ 40))).getD s.log.slot)).skipTorn
      p.idx ringSlots := rfl

theorem State.logReadFrom_readFrom (s : State) (p : Path) (v : Nat) :
    (s.logReadFrom p v).log.readFrom = Tbl.set s.log.readFrom p.idx (v % 2 ^ 40) := by
  rw [s.logReadFrom_eq, State.skipTorn_readFrom]
  rfl

/-- A record that does not precede the value stops the cursor there. -/
theorem State.logReadFrom_cursor {p : Path} {v k : Nat} (h : s.readOrder.find? (s.readsAt (v % 2 ^ 40)) = some k) :
    Tbl.get 0 (s.logReadFrom p v).log.cursor p.idx = k := by
  have hv : (s.readTaken p (v % 2 ^ 40)).slotView k = s.slotView k := State.slotView_congr rfl rfl k
  rw [s.logReadFrom_eq, h, Option.getD_some, State.cursorAt_stays]
  rw [hv]
  exact State.readsAt_whole (List.find?_some h)

theorem logReadFromWrite_effect {p : Path} {prin v : Nat} (hc : s.pwr.core = true) (hm : s.may prin .read = true) :
    Completes (.logReadFromWrite p prin v) s fun t =>
      t.log.readFrom = Tbl.set s.log.readFrom p.idx (v % 2 ^ 40) ∧ s.onlyChanges [.log, .acc, .evt] t ∧
      ∀ k, s.readOrder.find? (s.readsAt (v % 2 ^ 40)) = some k → Tbl.get 0 t.log.cursor p.idx = k := by
  refine completes_of ((exec_gated rfl hc).trans (congrArg _ (if_pos hm))) ?_
  exact ⟨s.logReadFrom_readFrom p v, (State.logReadFrom_touches rfl (.refl _ s)).only, fun k hk => State.logReadFrom_cursor hk⟩

theorem logReadFromWrite_refused {p : Path} {prin v : Nat} (hc : s.pwr.core = true) (hm : s.may prin .read = false) :
    Completes (.logReadFromWrite p prin v) s s.SameReadOut :=
  completes_of ((exec_gated rfl hc).trans (congrArg _ (if_neg (Bool.eq_false_iff.1 hm)))) (.refuseWrite s p prin 0xF1040)

/-! ## The last word of LOG_READ_REC (R194, R195) -/

theorem State.logAdvance_empty {p : Nat} (h : s.slotView (Tbl.get 0 s.log.cursor p) = .empty) : s.logAdvance p = s := by
  rw [State.logAdvance, h]

theorem State.logAdvance_held {p : Nat} {b : Bytes} {one : Bool} (h : s.slotView (Tbl.get 0 s.log.cursor p) = .held b one) :
    s.logAdvance p = (s.cursorAt p ((Tbl.get 0 s.log.cursor p + 1) % ringSlots)).skipTorn p ringSlots := by
  rw [State.logAdvance, h]
  rfl

theorem logReadAdvance_effect {p : Path} (hc : s.pwr.core = true) : Completes (.logReadAdvance p) s fun t =>
    s.onlyChanges [.log, .evt] t ∧ (s.slotView (Tbl.get 0 s.log.cursor p.idx) = .empty → t = s) ∧
    (∀ b one, s.slotView (Tbl.get 0 s.log.cursor p.idx) = .held b one →
      s.slotView ((Tbl.get 0 s.log.cursor p.idx + 1) % ringSlots) ≠ .torn →
      Tbl.get 0 t.log.cursor p.idx = (Tbl.get 0 s.log.cursor p.idx + 1) % ringSlots) :=
  completes_of (exec_gated rfl hc) ⟨(State.logAdvance_touches rfl (.refl _ s)).only, State.logAdvance_empty,
    fun _ _ h hn => (by rw [State.logAdvance_held h, State.cursorAt_stays p.idx hn] :
      Tbl.get 0 (s.logAdvance p.idx).log.cursor p.idx = _)⟩

end Sys2Proof.Machine
end


section
/-!
SUPPORT. Counter snapshots (R196, R197, R537): when one begins, what its trailer page leaves, and the erases of its banks.
-/
namespace Sys2Proof.Machine

section Snapshots
variable {s : State}

/-! ## The timer (R197) -/

/-- A snapshot that begins clears every dirty bit. -/
theorem State.snapBegun_dirty (s : State) (job : SnapJob) (bs : Bytes) : (s.snapBegun job bs).dirty = false := by
  rw [State.dirty, State.snapBegun, List.any_map, List.any_eq_false]
  exact fun _ _ => Bool.false_ne_true

theorem State.snapshot_begins {kind : Nat} (hj : s.snap.job = none) (hf : s.belowFloor = false) (hb : s.bankFree 0 = true) :
    ∃ bs, s.snapshot kind = s.snapBegun ⟨kind, 0, s.rcnt.rails, s.rcnt.owners, s.log.seq, s.log.epoch⟩ bs := by
  have hd : [0, 1].find? s.bankFree = some 0 := List.find?_cons_of_pos hb
  unfold State.snapshot
  rw [hj, hf, hd]
  exact ⟨_, rfl⟩

/-- With no bank erased a snapshot is skipped. -/
theorem State.snapshot_skipped {kind : Nat} (hj : s.snap.job = none) (hf : s.belowFloor = false) (h0 : s.bankFree 0 = false)
    (h1 : s.bankFree 1 = false) : s.snapshot kind = { s with log := { s.log with snapSkipped := true } } := by
  have hd : [0, 1].find? s.bankFree = none := by simp [h0, h1]
  unfold State.snapshot
  rw [hj, hf, hd]
  rfl

/-- Below the bus floor none begins, and none is counted as skipped (log 108). -/
theorem State.snapshot_belowFloor {kind : Nat} (hf : s.belowFloor = true) : s.snapshot kind = s := by
  unfold State.snapshot
  split
  · rfl
  · rw [if_pos hf]

theorem snapshotPeriodicTimer_dirty (hs : s.pwr.standby = true) (hd : s.dirty = true) :
    exec .snapshotPeriodicTimer s = .next (s.snapshot 1) := (exec_gated rfl hs).trans (congrArg _ (if_pos hd))

theorem snapshotPeriodicTimer_effect (hs : s.pwr.standby = true) (hd : s.dirty = true) (hf : s.belowFloor = false)
    (hj : s.snap.job = none) : Completes .snapshotPeriodicTimer s fun t =>
      (s.bankFree 0 = true → t.snap.job = some ⟨1, 0, s.rcnt.rails, s.rcnt.owners, s.log.seq, s.log.epoch⟩ ∧ t.dirty = false) ∧
      (s.bankFree 0 = false → s.bankFree 1 = false → t = { s with log := { s.log with snapSkipped := true } }) := by
  refine completes_of (snapshotPeriodicTimer_dirty hs hd) ⟨fun hb => ?_, State.snapshot_skipped hj hf⟩
  obtain ⟨bs, he⟩ := State.snapshot_begins (kind := 1) hj hf hb
  rw [he]
  exact ⟨rfl, s.snapBegun_dirty _ bs⟩

theorem snapshotPeriodicTimer_belowFloor (hs : s.pwr.standby = true) (hf : s.belowFloor = true) :
    Completes .snapshotPeriodicTimer s fun t => t = s := by
  refine completes_of (exec_gated rfl hs) ?_
  beta_reduce
  split
  · exact State.snapshot_belowFloor hf
  · rfl

/-! ## The trailer page (R197, R202) -/

theorem State.snapDone_frame (s : State) : s.onlyChanges [.snap, .flash0, .flash1] s.snapDone :=
  (State.snapDone_touches rfl (.refl _ s)).only

/-- With no reset waiting for it, the end of a snapshot is all that its last page brings. -/
theorem snapshotTrailerWritten_alone {j : SnapJob} (hs : s.pwr.standby = true) (hj : s.snap.job = some j) (hw : s.rst.waiting = []) :
    exec .snapshotTrailerWritten s = .next s.snapDone := by
  refine (exec_gated rfl hs).trans (congrArg _ ((if_neg (by rw [hj]; exact Bool.false_ne_true)).trans ?_))
  rw [hw, List.foldl_nil]
  have hr : ({ s.snapDone.rst with waiting := [] } : ResetCtl) = s.snapDone.rst := by
    rw [s.snapDone_frame .rst rfl, ← hw]
  rw [hr]

theorem State.snapDone_belowFloor {j : SnapJob} (hj : s.snap.job = some j) (hf : s.belowFloor = true) :
    s.snapDone = { s with snap := { s.snap with job := none } } := by
  unfold State.snapDone
  rw [hj]
  exact if_pos hf

/-- The other bank's erase starts, or is held while hold-up is active. -/
theorem State.snapDone_snap {j : SnapJob} (hj : s.snap.job = some j) (hf : s.belowFloor = false) :
    s.snapDone.snap = { s.snap with
      job := none
      erasing := if s.snap.holdup then s.snap.erasing else setBit s.snap.erasing (1 - j.bank) true
      held := if s.snap.holdup then setBit s.snap.held (1 - j.bank) true else s.snap.held } := by
  unfold State.snapDone
  rw [hj]
  exact congrArg State.snap (if_neg (Bool.eq_false_iff.1 hf))

theorem snapshotTrailerWritten_effect {j : SnapJob} (hs : s.pwr.standby = true) (hj : s.snap.job = some j) (hw : s.rst.waiting = [])
    (hf : s.belowFloor = false) : Completes .snapshotTrailerWritten s fun t => t.snap.job = none ∧
      (s.snap.holdup = false → t.snap.erasing = setBit s.snap.erasing (1 - j.bank) true) ∧
      (s.snap.holdup = true → t.snap.held = setBit s.snap.held (1 - j.bank) true ∧ t.snap.erasing = s.snap.erasing) ∧
      s.onlyChanges [.snap, .flash0, .flash1] t := by
  refine completes_of (snapshotTrailerWritten_alone hs hj hw) ?_
  rw [State.snapDone_snap hj hf]
  refine ⟨rfl, fun hh => ?_, fun hh => ?_, s.snapDone_frame⟩
  · rw [hh, if_neg Bool.false_ne_true]
  · rw [if_pos hh, if_pos hh]
    exact ⟨rfl, rfl⟩

/-! ## The erase of a bank (R197, R200, R537) -/

/-- A bank's erase is due on a device: after a newer snapshot, or where the bank was neither valid nor erased. -/
def State.eraseDue (s : State) (bank dev : Nat) : Bool := s.snap.erasing.getLsbD bank || s.snap.mend.getLsbD (2 * dev + bank)

/-- The bank erased on both devices where it is due. -/
def State.bankErased (s : State) (bank : Nat) : State :=
  let t := if s.eraseDue bank 0 then s.ferase 0 (bankOff bank) 0x8000 else s
  let t := if s.eraseDue bank 1 then t.ferase 1 (bankOff bank) 0x8000 else t
  { t with snap := { s.snap with erasing := setBit s.snap.erasing bank false
                                 mend := setBit (setBit s.snap.mend bank false) (2 + bank) false } }

theorem snapshotBankEraseDone_exec {b : Nat} (hs : s.pwr.standby = true) (hh : s.snap.holdup = false) :
    exec (.snapshotBankEraseDone b) s = .next (s.bankErased b) :=
  (exec_gated rfl hs).trans (congrArg _ (if_neg (Bool.eq_false_iff.1 hh)))

theorem snapshotBankEraseDone_held {b : Nat} (hs : s.pwr.standby = true) (hh : s.snap.holdup = true) :
    exec (.snapshotBankEraseDone b) s = .next s := (exec_gated rfl hs).trans (congrArg _ (if_pos hh))

theorem State.bankErased_frame (s : State) (b : Nat) : s.onlyChanges [.snap, .flash0, .flash1] (s.bankErased b) := by
  unfold State.bankErased
  extract_lets t u
  have ht : Touches [.snap, .flash0, .flash1] s t := .ite (State.ferase_touches rfl (.refl _ s)) (.refl _ s)
  have hu : Touches [.snap, .flash0, .flash1] s u := .ite (State.ferase_touches rfl ht) ht
  exact (hu.updSnap rfl).only

/-- A device of the bank is what the erase of it alone leaves. -/
theorem State.bankErased_flash (s : State) (b : Nat) {dev : Nat} (hd : dev < 2) : (s.bankErased b).flash dev =
    (if s.eraseDue b dev then s.ferase dev (bankOff b) 0x8000 else s).flash dev := by
  have h : dev = 0 ∨ dev = 1 := by omega
  unfold State.bankErased
  extract_lets t u
  rcases h with rfl | rfl
  · show u.flash 0 = t.flash 0
    unfold u
    split <;> rfl
  · have ht : t.flash 1 = s.flash 1 := by
      unfold t
      split <;> rfl
    show u.flash 1 = _
    unfold u
    split
    · exact congrArg (fun m => Memory.clear m (bankOff b) 0x8000) ht
    · exact ht

theorem State.bankErased_due {b dev : Nat} (hd : dev < 2) (h : s.eraseDue b dev = true) :
    (s.bankErased b).isErased dev (bankOff b) 0x8000 = true := by
  rw [State.isErased_congr (s.bankErased_flash b hd), if_pos h]
  exact s.ferase_isErased dev (bankOff b) le_rfl

theorem State.bankErased_stands {b dev : Nat} (hd : dev < 2) (h : s.eraseDue b dev = false) :
    (s.bankErased b).flash dev = s.flash dev := by
  rw [s.bankErased_flash b hd, h, if_neg Bool.false_ne_true]

theorem State.eraseDue_both {b : Nat} (h : s.snap.erasing.getLsbD b = true) (dev : Nat) : s.eraseDue b dev = true := by
  rw [State.eraseDue, h, Bool.true_or]

theorem State.eraseDue_mend {b : Nat} (h : s.snap.erasing.getLsbD b = false) (dev : Nat) :
    s.eraseDue b dev = s.snap.mend.getLsbD (2 * dev + b) := by
  rw [State.eraseDue, h, Bool.false_or]

end Snapshots

/-- Settles O15: a page and a sector by what they leave of the ring, the read-out by where its cursor stops, and a snapshot by its
beginning, its trailer and its banks. That one asked for below the bus floor sets no SNAP_SKIPPED is log 108, and that its last page is
the one command of its end is log 88. -/
theorem logAndSnapshotTakeEffect : Obligations.LogAndSnapshotTakeEffect := by
  intro s hs
  refine ⟨fun p hp hg => logPageProgramDone_effect hs hp hg, logPageProgramDone_idle hs, logSectorEraseDone_effect hs,
    fun dev _ hd => logDeviceTimeout_effect hs hd, logRingRecoveryDone_effect hs, fun p prin v hc hm => logReadFromWrite_effect hc hm,
    fun p prin v hc hm => logReadFromWrite_refused hc hm, fun p hc => logReadAdvance_effect hc,
    snapshotPeriodicTimer_effect hs, snapshotPeriodicTimer_belowFloor hs,
    fun j hj hw hf => completes_of (snapshotTrailerWritten_alone hs hj hw) (State.snapDone_belowFloor hj hf),
    fun j hj hw hf => snapshotTrailerWritten_effect hs hj hw hf, fun b hb he hh => ?_, fun b dev hb hd he hm hm' hh => ?_,
    fun b hh => completes_of (snapshotBankEraseDone_held hs hh) rfl⟩
  · exact completes_of (snapshotBankEraseDone_exec hs hh) ⟨State.bankErased_due (by decide) (State.eraseDue_both he 0),
      State.bankErased_due (by decide) (State.eraseDue_both he 1), rfl, s.bankErased_frame b⟩
  · exact completes_of (snapshotBankEraseDone_exec hs hh) ⟨State.bankErased_due hd ((State.eraseDue_mend he dev).trans hm),
      State.bankErased_stands (by omega) ((State.eraseDue_mend he (1 - dev)).trans hm'), s.bankErased_frame b⟩

end Sys2Proof.Machine
end


section
/-!
SUPPORT. Capping: reading the sites of the capping block, and what leaves a site's caps and levels alone.
-/
namespace Sys2Proof.Machine

variable {s t : State}

theorem State.capS_congr (h : t.cap = s.cap) (n : Nat) : t.capS n = s.capS n := by
  rw [State.capS, h]
  rfl

/-! ## Folds that change a reading at one member alone -/

/-- A reading that no member of the list changes stands. -/
theorem foldl_keeps {α β : Type} {f : State → α → State} (g : State → β) {l : List α} (h : ∀ s, ∀ b ∈ l, g (f s b) = g s) (s : State) :
    g (l.foldl f s) = g s :=
  List.foldlRecOn (motive := fun u => g u = g s) l f rfl fun u hu b hb => (h u b hb).trans hu

/-- A reading that one member of the list alone changes is what that member makes of a state in which it still stands; `P` is kept by
every member. -/
theorem foldl_once {α β : Type} {f : State → α → State} {P : State → Prop} (g : State → β) {l : List α} {a : α} (hn : l.Nodup)
    (ha : a ∈ l) (hP : ∀ s b, P s → P (f s b)) (hg : ∀ s b, P s → b ≠ a → g (f s b) = g s) {s : State} (hs : P s) :
    ∃ u, P u ∧ g u = g s ∧ g (l.foldl f s) = g (f u a) := by
  induction l generalizing s with
  | nil => cases ha
  | cons b l ih =>
    obtain ⟨hb, hn⟩ := List.nodup_cons.1 hn
    by_cases hab : a = b
    · subst hab
      have after := List.foldlRecOn (motive := fun u => P u ∧ g u = g (f s a)) l f ⟨hP s a hs, rfl⟩ fun u hu c hc =>
        ⟨hP u c hu.1, (hg u c hu.1 fun hca => hb (hca ▸ hc)).trans hu.2⟩
      exact ⟨s, hs, rfl, after.2⟩
    · obtain ⟨u, hu, hv, he⟩ := ih hn ((List.mem_cons.1 ha).resolve_left hab) (hP s b hs)
      exact ⟨u, hu, hv.trans (hg s b hs (Ne.symm hab)), he⟩

/-! ## Operations that leave the capping block alone -/

theorem State.event_cap (s : State) (blk cause inst data : Nat) : (s.event blk cause inst data).cap = s.cap :=
  s.event_frame blk cause inst data .cap rfl

theorem State.capEvent_frame (s : State) (source kind : Nat) (cap measured : Int) (level : Nat) :
    s.onlyChanges [.log, .evt] (s.capEvent source kind cap measured level) := (State.capEvent_touches rfl (.refl _ s)).only

theorem State.noteCut_cap (s : State) (n : Nat) : (s.noteCut n).cap = s.cap :=
  (State.noteCut_touches (ps := [.log, .pnt, .evt]) rfl (.refl _ s)).only .cap rfl

/-! ## One site's operations, seen from that site and from another -/

theorem State.bumpSite_cap (s : State) (n k : Nat) : (s.bumpSite n k).cap = (s.setCapS n { s.capS n with
    cnts := Tbl.set (s.capS n).cnts k (Tbl.get {} (s.capS n).cnts k).inc.1 }).cap := State.bump_frame .cap rfl

theorem State.capS_bumpSite_other (s : State) {m n : Nat} (k : Nat) (h : m ≠ n) : (s.bumpSite n k).capS m = s.capS m :=
  (State.capS_congr (s.bumpSite_cap n k) m).trans (s.capS_setCapS_other n _ h)

theorem State.capS_capCut_other (s : State) {m n : Nat} (h : m ≠ n) : (s.capCut n).capS m = s.capS m := by
  unfold State.capCut
  extract_lets c u
  refine (State.capS_congr (u.noteCut_cap n) m).trans ?_
  unfold u
  split
  · rfl
  · exact (State.capS_congr (State.capEvent_frame _ _ _ _ _ _ .cap rfl) m).trans (s.capS_setCapS_other n _ h)

/-! ## What keeps every site's caps, bounds and levels -/

/-- A site's capping state without its counters, its Still mode and STILL_CUT. -/
def SiteCap.steady (c : SiteCap) : SiteCap := { c with cnts := [], still := false, stillCut := false }

/-- A field that is none of these is the same in two sites that agree beside them. -/
theorem SiteCap.of_steady {α : Type} (f : SiteCap → α) {c d : SiteCap} (h : c.steady = d.steady)
    (hf : ∀ c : SiteCap, f c.steady = f c := by exact fun _ => rfl) : f c = f d := by
  rw [← hf c, h, hf]

/-- What the capping block holds of the tray. -/
def Capping.tray (c : Capping) : Capping := { c with sites := [] }

/-- From `s` to `t` nothing of the capping block changes but the counters, Still mode and STILL_CUT of sites. -/
structure State.CapsSteady (s t : State) : Prop where
  tray : t.cap.tray = s.cap.tray
  site : ∀ n, (t.capS n).steady = (s.capS n).steady

namespace State.CapsSteady

theorem refl (s : State) : s.CapsSteady s := ⟨rfl, fun _ => rfl⟩

theorem trans {r : State} (h : r.CapsSteady s) (h' : s.CapsSteady t) : r.CapsSteady t :=
  ⟨h'.tray.trans h.tray, fun n => (h'.site n).trans (h.site n)⟩

theorem of_cap (h : t.cap = s.cap) : s.CapsSteady t := ⟨by rw [h], fun n => by rw [State.capS_congr h n]⟩

theorem ite {c : Prop} [Decidable c] {r a b : State} (ha : r.CapsSteady a) (hb : r.CapsSteady b) :
    r.CapsSteady (if c then a else b) := by split <;> assumption

theorem foldl {α : Type} {f : State → α → State} {l : List α} (hf : ∀ s a, State.CapsSteady s (f s a)) (s : State) :
    s.CapsSteady (l.foldl f s) := by
  induction l generalizing s with
  | nil => exact refl s
  | cons a l ih => exact (hf s a).trans (ih _)

theorem setCapS {n : Nat} {x : SiteCap} (h : x.steady = (s.capS n).steady) : s.CapsSteady (s.setCapS n x) := by
  refine ⟨rfl, fun m => ?_⟩
  by_cases hm : m = n
  · rw [hm, State.capS_setCapS_same, h]
  · rw [s.capS_setCapS_other n x hm]

/-- A site is set to a state that differs in no more, and nothing else of the block changes. -/
theorem of_set {n : Nat} {x : SiteCap} (h : t.cap = (s.setCapS n x).cap) (hx : x.steady = (s.capS n).steady) : s.CapsSteady t :=
  (setCapS hx).trans (of_cap h)

theorem bumpSite (s : State) (n k : Nat) : s.CapsSteady (s.bumpSite n k) := of_set (s.bumpSite_cap n k) rfl

theorem capCut (s : State) (n : Nat) : s.CapsSteady (s.capCut n) := by
  unfold State.capCut
  extract_lets c u
  have hu : s.CapsSteady u := ite (refl s) (of_set (n := n) (x := { c with stillCut := true }) (State.capEvent_frame _ _ _ _ _ _ .cap rfl) rfl)
  exact hu.trans (of_cap (u.noteCut_cap n))

theorem throttleNote (s : State) : s.CapsSteady s.throttleNote := by
  refine foldl (fun u n => ite (refl u) ?_) s
  extract_lets v
  have hv : u.CapsSteady v := by
    refine foldl (fun w i => ?_) u
    extract_lets x
    exact ite (of_cap (State.setArm_cap ..)) (refl w)
  exact ite (hv.trans (capCut v n)) hv

end State.CapsSteady
end Sys2Proof.Machine
end


section
/-!
SUPPORT. The division of an amount among sites: what its phases give out, and to whom (R216).
-/
namespace Sys2Proof.Machine

/-! ## Caps summed and raised -/

/-- The sum of the sites' caps. -/
def capSum (l : List DivSite) : Int := (l.map DivSite.cap).sum

theorem foldl_add_eq_capSum (l : List DivSite) : (l.map DivSite.cap).foldl (· + ·) 0 = capSum l :=
  List.sum_eq_foldl.symm

/-- Each site's cap raised by an amount. -/
def raised (δ : Nat → Int) (l : List DivSite) : List DivSite := l.zipIdx.map fun x => { x.1 with cap := x.1.cap + δ x.2 }

theorem getElem?_raised (δ : Nat → Int) (l : List DivSite) (i : Nat) :
    (raised δ l)[i]? = l[i]?.map fun x => { x with cap := x.cap + δ i } := by
  cases h : l[i]? <;> simp [raised, h]

theorem length_raised (δ : Nat → Int) (l : List DivSite) : (raised δ l).length = l.length := by simp [raised]

theorem capSum_raised (δ : Nat → Int) (l : List DivSite) : capSum (raised δ l) = capSum l + ((List.range l.length).map δ).sum := by
  induction l using List.reverseRecOn with
  | nil => rfl
  | append_singleton l x ih =>
    have hl : raised δ (l ++ [x]) = raised δ l ++ [{ x with cap := x.cap + δ l.length }] := by simp [raised, List.zipIdx_append]
    rw [hl, List.length_append, List.length_singleton, List.range_succ]
    simp only [capSum, List.map_append, List.sum_append, List.map_cons, List.map_nil, List.sum_cons, List.sum_nil] at ih ⊢
    omega

/-- The amounts of the members of a list of sites, summed over all sites. -/
theorem sum_range_members {is : List Nat} {n : Nat} (δ : Nat → Int) (hn : is.Nodup) (hb : ∀ i ∈ is, i < n) :
    ((List.range n).map fun i => if i ∈ is then δ i else 0).sum = (is.map δ).sum := by
  rw [← List.sum_toFinset _ hn, ← List.sum_toFinset _ List.nodup_range, List.toFinset_range]
  simp only [← List.mem_toFinset (l := is)]
  rw [Finset.sum_ite_mem, Finset.inter_eq_right.2 fun i hi => Finset.mem_range.2 (hb i (List.mem_toFinset.1 hi))]

/-! ## Shares by weight -/

theorem share_nonneg {r : Int} (hr : 0 ≤ r) (k w : Nat) : 0 ≤ r * (k : Int) / (w : Int) :=
  Int.ediv_nonneg (Int.mul_nonneg hr (Int.natCast_nonneg k)) (Int.natCast_nonneg w)

/-- Rounded down, the shares of an amount by weight sum to no more than it. -/
theorem sum_shares_le {r : Int} (hr : 0 ≤ r) (f : Nat → Nat) (l : List Nat) :
    (l.map fun i => r * (f i : Int) / ((l.map f).sum : Nat)).sum ≤ r := by
  generalize hw : (l.map f).sum = w
  rcases Nat.eq_zero_or_pos w with rfl | hpos
  · simpa using hr
  · refine le_of_mul_le_mul_right ?_ (Int.natCast_pos.2 hpos)
    calc (l.map fun i => r * (f i : Int) / (w : Int)).sum * w
        = (l.map fun i => r * (f i : Int) / (w : Int) * w).sum := (List.sum_map_mul_right ..).symm
      _ ≤ (l.map fun i => r * (f i : Int)).sum := List.sum_le_sum fun i _ => Int.ediv_mul_le _ (by omega)
      _ = r * w := by rw [List.sum_map_mul_left, ← hw, Nat.cast_list_sum, List.map_map]; rfl

/-! ## One phase -/

/-- A phase that has `r` to give to the sites `is` and leaves `r'` over, from `l` to `l'`. -/
structure Shared (is : List Nat) (r : Int) (l : List DivSite) (r' : Int) (l' : List DivSite) : Prop where
  rest : 0 ≤ r'
  total : capSum l' + r' = capSum l + r
  length : l'.length = l.length
  others : ∀ i, i ∉ is → l'[i]? = l[i]?

theorem Shared.refl (is : List Nat) {r : Int} (hr : 0 ≤ r) (l : List DivSite) : Shared is r l r l :=
  ⟨hr, rfl, rfl, fun _ _ => rfl⟩

theorem Shared.trans {is js : List Nat} {r r' r'' : Int} {l l' l'' : List DivSite} (h : Shared is r l r' l')
    (h' : Shared js r' l' r'' l'') (hs : ∀ i ∈ js, i ∈ is) : Shared is r l r'' l'' :=
  ⟨h'.rest, h'.total.trans h.total, h'.length.trans h.length, fun i hi => (h'.others i fun hj => hi (hs i hj)).trans (h.others i hi)⟩

/-- Raising sites of the list by amounts that sum to no more than there is. -/
theorem Shared.raised {is js : List Nat} {r : Int} {l : List DivSite} {δ : Nat → Int} (hn : js.Nodup) (hs : ∀ i ∈ js, i ∈ is)
    (hb : ∀ i ∈ is, i < l.length) (hr : (js.map δ).sum ≤ r) :
    Shared is r l (r - (js.map δ).sum) (raised (fun i => if i ∈ js then δ i else 0) l) := by
  refine ⟨by omega, ?_, length_raised .., fun i hi => ?_⟩
  · rw [capSum_raised, sum_range_members δ hn fun i hi => hb i (hs i hi)]
    omega
  · rw [getElem?_raised, if_neg fun hj => hi (hs i hj)]
    cases l[i]? <;> simp

/-- The first sites of a list, as many as an amount has units. -/
def firstOf (k : Int) (is : List Nat) : List Nat := (is.zipIdx.filter fun x => decide ((x.2 : Int) < k)).map Prod.fst

theorem firstOf_zipIdx (k : Int) (is : List Nat) (o : Nat) :
    (((is.zipIdx o).filter fun x => decide ((x.2 : Int) < k)).map Prod.fst) = is.take (k - o).toNat := by
  induction is generalizing o with
  | nil => simp
  | cons a is ih =>
    rw [List.zipIdx_cons, List.filter_cons]
    by_cases ho : (o : Int) < k
    · have hk : (k - o).toNat = (k - (o + 1 : Nat)).toNat + 1 := by omega
      simp only [ho, decide_true, if_true, List.map_cons, ih, hk, List.take_succ_cons]
    · have hk : (k - (o + 1 : Nat)).toNat = 0 := by omega
      have hk' : (k - o).toNat = 0 := by omega
      simp only [ho, decide_false, Bool.false_eq_true, if_false, ih, hk, hk', List.take_zero]

theorem firstOf_eq_take (k : Int) (is : List Nat) : firstOf k is = is.take k.toNat := by
  simpa [firstOf] using firstOf_zipIdx k is 0

/-- A unit for each of the first sites of the list is no more than the amount. -/
theorem sum_units_le {k : Int} (hk : 0 ≤ k) (is : List Nat) : ((firstOf k is).map fun _ => (1 : Int)).sum ≤ k := by
  rw [firstOf_eq_take, List.map_const', List.sum_replicate, List.length_take]
  simp
  omega

/-- The site of an index, as a phase looks it up. -/
def siteAt (l : List DivSite) (i : Nat) : DivSite := l.getD i ⟨[], 0, 0, 0, 0, false, false, 0, 0⟩

/-- A phase's share of a site, and what room its target leaves. -/
def shareOf (l : List DivSite) (is : List Nat) (r : Int) (i : Nat) : Int :=
  r * ((siteAt l i).weight : Int) / ((is.map fun j => (siteAt l j).weight).sum : Nat)
def roomOf (target : DivSite → Int) (l : List DivSite) (i : Nat) : Int := target (siteAt l i) - (siteAt l i).cap

/-- The sites whose room their share fills, and the sites left open. -/
def filled (target : DivSite → Int) (l : List DivSite) (is : List Nat) (r : Int) : List Nat :=
  is.filter fun i => decide (roomOf target l i ≤ shareOf l is r i)

section Phase
variable {target : DivSite → Int} {l : List DivSite} {is : List Nat} {r : Int} {f : Nat}

theorem fillCaps_done (h : is = [] ∨ r = 0) : fillCaps target (f + 1) r is l = (r, l) := by
  rw [fillCaps, if_pos h]

/-- Sites that their shares fill are closed at their targets. -/
theorem fillCaps_closes (h : ¬(is = [] ∨ r = 0)) (hf : filled target l is r ≠ []) : fillCaps target (f + 1) r is l =
    fillCaps target f (r - ((filled target l is r).map (roomOf target l)).sum) (is.filter fun i => !(filled target l is r).contains i)
      (raised (fun i => if i ∈ filled target l is r then roomOf target l i else 0) l) := by
  rw [fillCaps, if_neg h]
  extract_lets at' w share room full l'
  have hw : share = shareOf l is r := by
    funext i
    simp only [share, w, shareOf, List.sum_eq_foldl]
    rfl
  have hfull : full = filled target l is r := by simp only [full, hw]; rfl
  have hl : l' = raised (fun i => if i ∈ filled target l is r then roomOf target l i else 0) l := by
    refine List.ext_getElem? fun i => ?_
    rw [getElem?_raised]
    simp only [l', hfull, List.getElem?_map, List.getElem?_zipIdx, Option.map_map]
    cases hi : l[i]? with
    | none => rfl
    | some x =>
      have hx : siteAt l i = x := by simp [siteAt, hi]
      by_cases hm : i ∈ filled target l is r <;> simp [hm, roomOf, hx]
  rw [if_pos (hfull ▸ hf), hl, hfull, List.sum_eq_foldl]
  rfl

/-- With no site to close, each takes its share, and the first of them a unit more. -/
theorem fillCaps_shares (h : ¬(is = [] ∨ r = 0)) (hf : filled target l is r = []) : fillCaps target (f + 1) r is l =
    (r - (is.map (shareOf l is r)).sum - ((firstOf (r - (is.map (shareOf l is r)).sum) is).map fun _ => (1 : Int)).sum,
      raised (fun i => if i ∈ firstOf (r - (is.map (shareOf l is r)).sum) is then 1 else 0)
        (raised (fun i => if i ∈ is then shareOf l is r i else 0) l)) := by
  rw [fillCaps, if_neg h]
  extract_lets at' w share room full _ used extra l'
  have hw : share = shareOf l is r := by
    funext i
    simp only [share, w, shareOf, List.sum_eq_foldl]
    rfl
  have hfull : full = [] := by rw [← hf]; simp only [full, hw]; rfl
  have hused : used = (is.map (shareOf l is r)).sum := by simp only [used, hw, List.sum_eq_foldl]
  have hextra : extra = firstOf (r - used) is := rfl
  have first_mem {i : Nat} (hi : i ∈ extra) : i ∈ is := by
    rw [hextra, firstOf_eq_take] at hi
    exact List.mem_of_mem_take hi
  have hl : l' = raised (fun i => if i ∈ extra then 1 else 0) (raised (fun i => if i ∈ is then shareOf l is r i else 0) l) := by
    refine List.ext_getElem? fun i => ?_
    rw [getElem?_raised, getElem?_raised]
    simp only [l', hw, List.getElem?_map, List.getElem?_zipIdx, Option.map_map]
    cases hi : l[i]? with
    | none => rfl
    | some x =>
      by_cases hm : i ∈ is
      · by_cases he : i ∈ extra <;> simp [hm, he]
      · have he : i ∉ extra := fun he => hm (first_mem he)
        simp [hm, he]
  rw [if_neg (by simp [hfull]), hl, hextra, hused]
  simp

/-- What a phase keeps: it gives out no more than it has, and to the sites that are open alone. -/
theorem fillCaps_shared (hr : 0 ≤ r) (hn : is.Nodup) (hb : ∀ i ∈ is, i < l.length) :
    Shared is r l (fillCaps target f r is l).1 (fillCaps target f r is l).2 := by
  induction f generalizing r is l with
  | zero => exact .refl is hr l
  | succ f ih =>
    by_cases h : is = [] ∨ r = 0
    · rw [fillCaps_done h]
      exact .refl is hr l
    have total : (is.map (shareOf l is r)).sum ≤ r := sum_shares_le hr (fun i => (siteAt l i).weight) is
    by_cases hf : filled target l is r = []
    · rw [fillCaps_shares h hf]
      have hs := Shared.raised hn (fun i hi => hi) hb total
      refine hs.trans (.raised ?_ ?_ ?_ (sum_units_le hs.rest is)) fun i hi => hi
      · rw [firstOf_eq_take]
        exact hn.sublist (List.take_sublist ..)
      · rw [firstOf_eq_take]
        exact fun i hi => List.mem_of_mem_take hi
      · rw [length_raised]
        exact hb
    · rw [fillCaps_closes h hf]
      have room : ((filled target l is r).map (roomOf target l)).sum ≤ r := by
        calc ((filled target l is r).map (roomOf target l)).sum
            ≤ ((filled target l is r).map (shareOf l is r)).sum :=
              List.sum_le_sum fun i hi => of_decide_eq_true (List.mem_filter.1 hi).2
          _ ≤ (is.map (shareOf l is r)).sum :=
              (List.Sublist.map _ List.filter_sublist).sum_le_sum fun x hx => by
                obtain ⟨i, -, rfl⟩ := List.mem_map.1 hx
                exact share_nonneg hr _ _
          _ ≤ r := total
      have hs := Shared.raised (hn.filter _) (fun i hi => (List.mem_filter.1 hi).1) hb room
      refine hs.trans (ih hs.rest (hn.filter _) fun i hi => ?_) fun i hi => (List.mem_filter.1 hi).1
      rw [length_raised]
      exact hb i (List.mem_filter.1 hi).1

end Phase

/-! ## The division (R216) -/

theorem openSites_nodup (target : DivSite → Int) (l : List DivSite) : (openSites target l).Nodup := by
  refine List.Nodup.sublist (List.Sublist.map _ List.filter_sublist) ?_
  rw [List.zipIdx_map_snd]
  exact List.nodup_range' ..

/-- An open site is active. -/
theorem of_mem_openSites {target : DivSite → Int} {l : List DivSite} {i : Nat} (h : i ∈ openSites target l) :
    ∃ x, l[i]? = some x ∧ x.active = true := by
  obtain ⟨⟨x, j⟩, hx, rfl⟩ := List.mem_map.1 h
  obtain ⟨hm, ha⟩ := List.mem_filter.1 hx
  rw [Bool.and_eq_true] at ha
  exact ⟨x, List.mem_zipIdx_iff_getElem?.1 hm, ha.1⟩

theorem openSites_shared {target : DivSite → Int} {l : List DivSite} {r : Int} (f : Nat) (hr : 0 ≤ r) :
    Shared (openSites target l) r l (fillCaps target f r (openSites target l) l).1 (fillCaps target f r (openSites target l) l).2 :=
  fillCaps_shared hr (openSites_nodup target l) fun i hi => by
    obtain ⟨x, hx, -⟩ := of_mem_openSites hi
    exact (List.getElem?_eq_some_iff.1 hx).1

theorem divide_short {a : Int} {l : List DivSite} (h : a < capSum l) : divide a l = (l, false) := by
  rw [divide, foldl_add_eq_capSum]
  exact if_pos (by omega)

/-- Where the lower bounds fit, the division gives out no more than there is, and nothing more to a site that is not active. -/
theorem divide_fits {a : Int} {l : List DivSite} (h : capSum l ≤ a) : ∃ m : List DivSite, divide a l = (m, true) ∧ capSum m ≤ a ∧
    m.length = l.length ∧ ∀ (i : Nat) x, l[i]? = some x → x.active = false → m[i]? = some x := by
  have h1 := openSites_shared (target := DivSite.d) (l := l) (r := a - capSum l) 9 (by omega)
  have h2 := openSites_shared (target := DivSite.hi) (l := (fillCaps DivSite.d 9 (a - capSum l) (openSites DivSite.d l) l).2) 9 h1.rest
  refine ⟨_, ?_, ?_, h2.length.trans h1.length, fun i x hx hi => ?_⟩
  · rw [divide, foldl_add_eq_capSum]
    exact if_neg (by omega)
  · have e1 := h1.total
    have e2 := h2.total
    have e3 := h2.rest
    omega
  · have stays {target : DivSite → Int} {m : List DivSite} (hm : m[i]? = some x) : i ∉ openSites target m := by
      intro ho
      obtain ⟨y, hy, ha⟩ := of_mem_openSites ho
      rw [hm] at hy
      cases hy
      rw [hi] at ha
      cases ha
    have hx1 := (h1.others i (stays hx)).trans hx
    exact (h2.others i (stays hx1)).trans hx1

end Sys2Proof.Machine
end


section
/-!
SUPPORT. The tray's division: what it leaves of each site and of the tray's budget (R216, R218, R480, R483).
-/
namespace Sys2Proof.Machine

variable {s : State}

/-! ## The result for one site -/

/-- A site's capping state holds what the division gave it. -/
structure DivSite.Given (x : DivSite) (c : SiteCap) : Prop where
  cap : c.cap = x.cap
  demand : c.demand = x.demand
  src : c.src = x.src

theorem State.setCap_other (s : State) {m n : Nat} (v : Int) (h : m ≠ n) : (s.setCap n v).capS m = s.capS m := by
  unfold State.setCap
  extract_lets c
  split
  · rfl
  · exact s.capS_setCapS_other n _ h

theorem State.setCap_same (s : State) (n : Nat) (v : Int) : (s.setCap n v).capS n = { s.capS n with cap := v } := by
  unfold State.setCap
  extract_lets c
  split
  case isTrue h => rw [← h]
  case isFalse h => exact s.capS_setCapS_same ..

theorem State.setCap_tray (s : State) (n : Nat) (v : Int) : (s.setCap n v).cap.tray = s.cap.tray := by
  unfold State.setCap
  extract_lets c
  split <;> rfl

/-- A site's result leaves what the block holds of the tray alone. -/
theorem State.divided_tray (s : State) (n : Nat) (x : DivSite) : (s.divided n x).cap.tray = s.cap.tray := by
  unfold State.divided
  extract_lets c src cut s1 s2 s3 s4 c'
  have h2 : s1.CapsSteady s2 := .ite (.bumpSite s1 n 1) (.refl s1)
  have h3 : s3.cap.tray = s2.cap.tray := s2.setCap_tray n x.cap
  have h4 : s3.CapsSteady s4 := .ite (.capCut s3 n) (.refl s3)
  have h : s4.cap.tray = s.cap.tray := h4.tray.trans (h3.trans h2.tray)
  split
  · exact h
  · exact h

theorem State.divided_other (s : State) {m n : Nat} (x : DivSite) (h : m ≠ n) : (s.divided n x).capS m = s.capS m := by
  unfold State.divided
  extract_lets c src cut s1 s2 s3 s4 c'
  have h1 : s1.capS m = s.capS m := s.capS_setCapS_other n _ h
  have h2 : s2.capS m = s1.capS m := by
    unfold s2
    split
    · exact s1.capS_bumpSite_other 1 h
    · rfl
  have h3 : s3.capS m = s2.capS m := s2.setCap_other x.cap h
  have h4 : s4.capS m = s3.capS m := by
    unfold s4
    split
    · exact s3.capS_capCut_other h
    · rfl
  have h' : s4.capS m = s.capS m := h4.trans (h3.trans (h2.trans h1))
  split
  · exact (s4.capS_setCapS_other n _ h).trans h'
  · exact h'

theorem State.divided_given (s : State) (n : Nat) (x : DivSite) : x.Given ((s.divided n x).capS n) := by
  unfold State.divided
  extract_lets c src cut s1 s2 s3 s4 c'
  have h1 : s1.capS n = { c with demand := x.demand, src := src, recovering := c.recovering && src == 6 } := s.capS_setCapS_same ..
  have h2 : s1.CapsSteady s2 := .ite (.bumpSite s1 n 1) (.refl s1)
  have h3 : s3.capS n = { s2.capS n with cap := x.cap } := s2.setCap_same n x.cap
  have h4 : s3.CapsSteady s4 := .ite (.capCut s3 n) (.refl s3)
  have given : x.Given c' := by
    refine ⟨?_, ?_, ?_⟩
    · rw [SiteCap.of_steady SiteCap.cap (h4.site n), h3]
    · rw [SiteCap.of_steady SiteCap.demand (h4.site n), h3]
      exact (SiteCap.of_steady SiteCap.demand (h2.site n)).trans (congrArg SiteCap.demand h1)
    · rw [SiteCap.of_steady SiteCap.src (h4.site n), h3]
      exact (SiteCap.of_steady SiteCap.src (h2.site n)).trans (congrArg SiteCap.src h1)
  split
  · rw [State.capS_setCapS_same]
    exact ⟨given.cap, given.demand, given.src⟩
  · exact given

/-! ## The results for all sites -/

/-- The results of a list of sites that begins with site `k`. -/
def State.dividedFrom (s : State) (k : Nat) (l : List DivSite) : State :=
  (l.zipIdx k).foldl (fun (s : State) x => s.divided x.2 x.1) s

theorem State.dividedFrom_cons (s : State) (k : Nat) (x : DivSite) (l : List DivSite) :
    s.dividedFrom k (x :: l) = (s.divided k x).dividedFrom (k + 1) l := rfl

theorem State.dividedFrom_tray (s : State) (k : Nat) (l : List DivSite) :
    (s.dividedFrom k l).cap.tray = s.cap.tray := by
  induction l generalizing s k with
  | nil => rfl
  | cons x l ih => exact (ih (s.divided k x) (k + 1)).trans (s.divided_tray k x)

theorem State.dividedFrom_below (s : State) {k m : Nat} (l : List DivSite) (h : m < k) : (s.dividedFrom k l).capS m = s.capS m := by
  induction l generalizing s k with
  | nil => rfl
  | cons x l ih => exact (ih (s.divided k x) (by omega)).trans (s.divided_other x (by omega))

theorem State.dividedFrom_given (s : State) (k : Nat) {l : List DivSite} {i : Nat} {x : DivSite} (h : l[i]? = some x) :
    x.Given ((s.dividedFrom k l).capS (k + i)) := by
  induction l generalizing s k i with
  | nil => cases h
  | cons y l ih =>
    rw [State.dividedFrom_cons]
    cases i with
    | zero =>
      cases h
      rw [Nat.add_zero, State.dividedFrom_below _ l (by omega)]
      exact s.divided_given k x
    | succ i =>
      have := ih (s.divided k y) (k + 1) h
      rwa [show k + 1 + i = k + (i + 1) by omega] at this

/-! ## The division -/

/-- The amount left beside the sites, and what the division knows of them. -/
def State.toDivide (s : State) : Int := min s.trayBudget (cpCeiling.val s.caps) - max s.nonsite (cpReserve.val s.caps)
def State.divSites (s : State) : List DivSite := (List.range 8).map s.divSite

theorem State.divSites_get (s : State) {n : Nat} (h : n < 8) : s.divSites[n]? = some (s.divSite n) := by
  simp [State.divSites, h]

/-- The state in which a division that does not fit gives its results: its shortness noted, once in an episode recorded, and the caps held
by Still mode lowered to the floors. -/
def State.fellShort (s : State) : State :=
  let s1 : State := { s with cap := { s.cap with short := true, shortEp := true } }
  let s1 := if s.cap.shortEp then s1 else s1.capEvent 8 3 ((s.divSites.map DivSite.cap).foldl (· + ·) 0) s.nonsite 0
  (List.range 8).foldl (fun (s : State) n =>
    let c := s.capS n
    if c.still then s.setCapS n { c with stillCap := min c.stillCap (cpFloor.val (s.capEntryNow n)) } else s) s1

theorem State.division_cap (s : State) : s.division.cap = (State.dividedFrom
    (if (divide s.toDivide s.divSites).2 then { s with cap := { s.cap with avail := s.toDivide, shortEp := false } } else s.fellShort)
    0 (divide s.toDivide s.divSites).1).cap := by
  unfold State.division
  extract_lets a l r s1 s2 s3 s4
  rfl

theorem State.fellShort_tray (s : State) : s.fellShort.cap.tray = { s.cap.tray with short := true, shortEp := true } := by
  unfold State.fellShort
  extract_lets c s1 s2
  have h2 : s2.cap = s1.cap := by
    unfold s2
    split
    · rfl
    · exact s1.capEvent_frame _ _ _ _ _ .cap rfl
  refine List.foldlRecOn (motive := fun u : State => u.cap.tray = { s.cap.tray with short := true, shortEp := true })
    _ _ ?_ fun u hu n _ => ?_
  · rw [h2]
    rfl
  · dsimp only
    split <;> exact hu

/-- The shadow frames of a division change of the pair block what was last sent, and nothing of capping. -/
theorem State.shadowDivision_keeps (s : State) : s.shadowDivision.cap = s.cap ∧ s.shadowDivision.pair.holdState = s.pair.holdState := by
  refine ⟨(State.shadowDivision_touches (ps := [.pair, .out]) rfl (.refl _ s)).only .cap rfl, ?_⟩
  unfold State.shadowDivision
  split
  · rfl
  extract_lets ids now news s1 s2 arms s3 s4
  have h1 : s1.pair = s.pair := by
    unfold s1
    split <;> rfl
  have h2 : s2.pair = s1.pair := List.foldlRecOn (motive := fun u : State => u.pair = s1.pair) _ _ rfl fun u hu _ _ => hu
  have h3 : s3.pair = s2.pair := List.foldlRecOn (motive := fun u : State => u.pair = s2.pair) _ _ rfl fun u hu _ _ => hu
  show s3.pair.holdState = _
  rw [h3, h2, h1]

/-- A division that fits notes the amount and gives each site its result. -/
theorem State.division_fits (s : State) {l : List DivSite} (h : divide s.toDivide s.divSites = (l, true)) :
    s.division.shadowDivision.cap.avail = s.toDivide ∧ s.division.shadowDivision.cap.shortEp = false ∧
    ∀ (n : Nat) x, l[n]? = some x → x.Given (s.division.shadowDivision.capS n) := by
  have hc := s.division.shadowDivision_keeps.1
  have hd : s.division.cap = (State.dividedFrom { s with cap := { s.cap with avail := s.toDivide, shortEp := false } } 0 l).cap := by
    rw [State.division_cap, h, if_pos rfl]
  have ht := State.dividedFrom_tray { s with cap := { s.cap with avail := s.toDivide, shortEp := false } } 0 l
  refine ⟨?_, ?_, fun n x hx => ?_⟩
  · rw [hc, hd]
    exact congrArg Capping.avail ht
  · rw [hc, hd]
    exact congrArg Capping.shortEp ht
  · rw [State.capS_congr (hc.trans hd), ← Nat.zero_add n]
    exact State.dividedFrom_given _ 0 hx

/-- One that does not fit sets BUDGET_SHORT, gives each site its lower bound and leaves TRAY_AVAIL (log 33). -/
theorem State.division_short (s : State) {l : List DivSite} (h : divide s.toDivide s.divSites = (l, false)) :
    s.division.shadowDivision.cap.short = true ∧ s.division.shadowDivision.cap.avail = s.cap.avail ∧
    ∀ (n : Nat) x, l[n]? = some x → x.Given (s.division.shadowDivision.capS n) := by
  have hc := s.division.shadowDivision_keeps.1
  have hd : s.division.cap = (s.fellShort.dividedFrom 0 l).cap := by rw [State.division_cap, h, if_neg Bool.false_ne_true]
  have ht := (State.dividedFrom_tray s.fellShort 0 l).trans s.fellShort_tray
  refine ⟨?_, ?_, fun n x hx => ?_⟩
  · rw [hc, hd]
    exact congrArg Capping.short ht
  · rw [hc, hd]
    exact (congrArg Capping.avail ht :)
  · rw [State.capS_congr (hc.trans hd), ← Nat.zero_add n]
    exact State.dividedFrom_given _ 0 hx

theorem capDivision_exec (ha : s.armServes = true) (hl : s.maq.live.isSome = true) (hp : s.pair.st = .lead) :
    exec .capDivision s = .next s.division.shadowDivision := by
  rw [show exec .capDivision s = execCapDivision s from rfl, execCapDivision, armDo_on ha, if_pos (by rw [hl, hp]; rfl)]

/-- A site out of service is not active and has 0 for its lower bound (R216). -/
theorem State.divSite_off {n : Nat} (h1 : (s.site n).st ≠ .seqUp) (h2 : (s.site n).st ≠ .running) (h3 : (s.site n).st ≠ .degraded) :
    (s.divSite n).active = false ∧ (s.divSite n).cap = 0 := by
  have hr : (s.site n).st.runs = false := by
    cases hs : (s.site n).st <;> first | rfl | contradiction
  have hh : ((s.site n).st == .seqUp || (s.site n).st.runs) = false := by simp [hr, h1]
  exact ⟨hr, if_neg (by rw [hh]; exact Bool.false_ne_true)⟩

/-- Settles O56: no phase of the division gives out more than it has left, and an inactive site is open in none; where the lower bounds do
not fit they are themselves the result, and TRAY_AVAIL stands (log 33). -/
theorem divisionObeysTheBudget : Obligations.DivisionObeysTheBudget := by
  intro s ha hl hp
  rw [show (((List.range 8).map s.divSite).map DivSite.cap).foldl (· + ·) 0 = capSum s.divSites from foldl_add_eq_capSum _]
  refine ⟨fun h => ?_, fun h => ?_⟩
  · obtain ⟨l, hd, hsum, hlen, hoff⟩ := divide_fits h
    obtain ⟨havail, -, hgiven⟩ := s.division_fits hd
    have hlen8 : l.length = 8 := by rw [hlen]; simp [State.divSites]
    have caps : (List.range 8).map (fun n => (s.division.shadowDivision.capS n).cap) = l.map DivSite.cap := by
      refine List.ext_getElem (by simp [hlen8]) fun n h1 h2 => ?_
      rw [List.length_map] at h2
      simpa using (hgiven n _ (List.getElem?_eq_getElem h2)).cap
    refine completes_of (capDivision_exec ha hl hp) ⟨?_, havail, fun n hn h1 h2 h3 => ?_⟩
    · rw [caps, foldl_add_eq_capSum]
      exact hsum
    · obtain ⟨hact, hzero⟩ := State.divSite_off h1 h2 h3
      exact (hgiven n _ (hoff n _ (s.divSites_get hn) hact)).cap.trans hzero
  · obtain ⟨hshort, havail, hgiven⟩ := s.division_short (divide_short h)
    exact completes_of (capDivision_exec ha hl hp) ⟨hshort, havail, fun n hn => (hgiven n _ (s.divSites_get hn)).cap⟩

end Sys2Proof.Machine
end


section
/-!
SUPPORT. The tray budget, the software bounds, throttle force, SITE_VOUT and the cap guard (R214, R215, R220, R221, R226, R227).
-/
namespace Sys2Proof.Machine

variable {s : State} {r : Req} {n : Nat}

theorem State.live_not_none (h : s.maq.live.isSome = true) : s.maq.live.isNone = false := by
  rw [← Option.not_isSome, h]
  rfl

/-! ## The tray budget (R214) -/

section Budget
variable (hc : s.pwr.core = true) (hm : s.may r.principal .budget = true) (hl : s.maq.live.isSome = true)

/-- TRAY_BUDGET takes a value, and BUDGET_CLAMPED whether it had to be moved. -/
def State.budgetTaken (s : State) (v : Int × Bool) : State :=
  let t : State := { s with cap := { s.cap with budget := some v.1, clamped := s.cap.clamped || v.2 } }
  if v.2 then t.event 5 214 0 0 else t

theorem State.budgetTaken_cap (s : State) (v : Int × Bool) :
    (s.budgetTaken v).cap = { s.cap with budget := some v.1, clamped := s.cap.clamped || v.2 } := by
  unfold State.budgetTaken
  extract_lets c t
  split
  · exact t.event_cap 5 214 0 0
  · rfl

theorem State.budgetTaken_frame (s : State) (v : Int × Bool) : s.onlyChanges [.cap, .evt] (s.budgetTaken v) := by
  unfold State.budgetTaken
  extract_lets c t
  have ht : Touches [.cap, .evt] s t := .updCap rfl (.refl _ s)
  exact (Touches.ite (State.event_touches rfl ht) ht).only

include hc hm hl in
theorem trayBudgetWrite_exec (v : Int) :
    exec (.trayBudgetWrite r v) s = .next (s.budgetTaken (clampTo s.budgetMin (cpCeiling.val s.caps) v)) := by
  rw [show exec (.trayBudgetWrite r v) s = execTrayBudgetWrite r v s from rfl, execTrayBudgetWrite, coreDo_on hc, withWriteRight_on hm,
    State.live_not_none hl, if_neg Bool.false_ne_true]
  rfl

end Budget

/-! ## Software bounds (R215) -/

section Bounds
variable (hc : s.pwr.core = true) (hm : s.may r.principal .sitePower = true) (hn : n < 8)

/-- A site takes its new bounds, and CAP_CNT_SW_CLAMP counts where the value had to be moved. -/
def State.boundTaken (s : State) (n : Nat) (x : SiteCap) (moved : Bool) : State :=
  if moved then (s.setCapS n x).bumpSite n 0 else s.setCapS n x

theorem State.boundTaken_site (s : State) (n : Nat) (x : SiteCap) (moved : Bool) :
    ((s.boundTaken n x moved).capS n).steady = x.steady := by
  have h : ((s.setCapS n x).capS n).steady = x.steady := congrArg _ (s.capS_setCapS_same n x)
  unfold State.boundTaken
  split
  · exact ((State.CapsSteady.bumpSite _ n 0).site n).trans h
  · exact h

theorem State.boundTaken_frame (s : State) (n : Nat) (x : SiteCap) (moved : Bool) : s.onlyChanges [.cap, .evt] (s.boundTaken n x moved) :=
  (Touches.ite (State.bumpSite_touches rfl (State.setCapS_touches rfl (.refl _ s))) (State.setCapS_touches rfl (.refl _ s))).only

include hc hm hn

theorem swFloorWrite_exec (hl : s.maq.live.isSome = true) (v : Int) : exec (.capSwBoundWrite r n 0 v) s = .next (s.boundTaken n
    { s.capS n with swFloor := some (clampTo (cpFloor.val (s.capOf n)) (cpCeil.val (s.capOf n)) v).1 }
    (clampTo (cpFloor.val (s.capOf n)) (cpCeil.val (s.capOf n)) v).2) := by
  rw [show exec (.capSwBoundWrite r n 0 v) s = execCapSwBoundWrite r n 0 v s from rfl, execCapSwBoundWrite, coreDo_on hc,
    withWriteRight_on hm, State.live_not_none hl, if_neg (by simp; omega)]
  rfl

theorem swCeilWrite_exec (hl : s.maq.live.isSome = true) (v : Int) : exec (.capSwBoundWrite r n 1 v) s = .next (s.boundTaken n
    { s.capS n with swCeil := some (clampTo (cpFloor.val (s.capOf n)) (cpCeil.val (s.capOf n)) v).1 }
    (clampTo (cpFloor.val (s.capOf n)) (cpCeil.val (s.capOf n)) v).2) := by
  rw [show exec (.capSwBoundWrite r n 1 v) s = execCapSwBoundWrite r n 1 v s from rfl, execCapSwBoundWrite, coreDo_on hc,
    withWriteRight_on hm, State.live_not_none hl, if_neg (by simp; omega)]
  rfl

theorem weightWrite_exec (hl : s.maq.live.isSome = true) (v : Int) : exec (.capSwBoundWrite r n 2 v) s = .next (s.boundTaken n
    { s.capS n with weight := some (max 1 (v % 256).toNat) } (decide ((v % 256).toNat = 0))) := by
  rw [show exec (.capSwBoundWrite r n 2 v) s = execCapSwBoundWrite r n 2 v s from rfl, execCapSwBoundWrite, coreDo_on hc,
    withWriteRight_on hm, State.live_not_none hl, if_neg (by simp; omega)]
  dsimp only
  rw [if_pos rfl]
  by_cases hw : (v % 256).toNat = 0
  · rw [if_pos hw, hw]
    rfl
  · rw [if_neg hw, State.boundTaken, if_neg (by simpa using hw), max_eq_right (by omega)]

theorem swBoundWrites_effect (hl : s.maq.live.isSome = true) (v : Int) :
    Completes (.capSwBoundWrite r n 0 v) s (fun t => (t.capS n).cap = (s.capS n).cap ∧
      (t.capS n).swFloor = some (clampTo (cpFloor.val (s.capOf n)) (cpCeil.val (s.capOf n)) v).1 ∧ s.onlyChanges [.cap, .evt] t) ∧
    Completes (.capSwBoundWrite r n 1 v) s (fun t =>
      (t.capS n).swCeil = some (clampTo (cpFloor.val (s.capOf n)) (cpCeil.val (s.capOf n)) v).1 ∧ s.onlyChanges [.cap, .evt] t) ∧
    Completes (.capSwBoundWrite r n 2 v) s (fun t => (t.capS n).weight = some (max 1 (v % 256).toNat) ∧ s.onlyChanges [.cap, .evt] t) := by
  refine ⟨completes_of (swFloorWrite_exec hc hm hn hl v) ⟨?_, ?_, s.boundTaken_frame n _ _⟩,
    completes_of (swCeilWrite_exec hc hm hn hl v) ⟨?_, s.boundTaken_frame n _ _⟩,
    completes_of (weightWrite_exec hc hm hn hl v) ⟨?_, s.boundTaken_frame n _ _⟩⟩
  · exact (SiteCap.of_steady SiteCap.cap (s.boundTaken_site n _ _)).trans rfl
  · exact (SiteCap.of_steady SiteCap.swFloor (s.boundTaken_site n _ _)).trans rfl
  · exact (SiteCap.of_steady SiteCap.swCeil (s.boundTaken_site n _ _)).trans rfl
  · exact (SiteCap.of_steady SiteCap.weight (s.boundTaken_site n _ _)).trans rfl

/-! ## Throttle force (R221) -/

theorem siteThrottleForceWrite_effect (level : Nat) :
    Completes (.siteThrottleForceWrite r n level) s fun t => (t.capS n).force = level % 8 := by
  have he : exec (.siteThrottleForceWrite r n level) s =
      .next (s.setCapS n { s.capS n with force := level % 8 }).throttleNote := by
    rw [show exec (.siteThrottleForceWrite r n level) s = execSiteThrottleForceWrite r n level s from rfl, execSiteThrottleForceWrite,
      coreDo_on hc, withWriteRight_on hm, if_neg (by omega)]
  refine completes_of he ?_
  rw [SiteCap.of_steady SiteCap.force ((State.CapsSteady.throttleNote _).site n), State.capS_setCapS_same]

end Bounds

/-! ## SITE_VOUT (R226, R227) -/

section Vout
variable (hc : s.pwr.core = true) (hm : s.may r.principal .sitePower = true)

theorem State.grows_complete (s : State) (r : Req) (st d v : Nat) : s.grows (s.complete r st d v) :=
  (s.complete_answers r st d v).grows

/-- What goes out before a completion is sent. -/
theorem State.sends_of_emit {u t : State} {o : Out} (hu : u.out = s.out) (ht : (u.emit o).grows t) : s.sends t o := by
  obtain ⟨l, hl⟩ := ht
  exact ⟨l, [], by rw [hl, ← hu]; rfl⟩

include hc hm

theorem siteVout_effect {rail code nom lo hi : Nat} (h : ((s.capS n).vtable.bind fun t => vtRail t rail) = some (nom, lo, hi)) :
    Completes (.siteVout r n rail code) s fun t => s.answers t r 0 0 0 ∧
      s.sends t (.site 226 n (leBytes 1 rail ++ leBytes 2 (clampTo lo hi code).1.toNat)) := by
  let u := if (clampTo lo hi code).2 then s.bumpSite n 0 else s
  let o := Out.site 226 n (leBytes 1 rail ++ leBytes 2 (clampTo lo hi code).1.toNat)
  have he : exec (.siteVout r n rail code) s = .next ((u.emit o).complete r 0 0 0) := by
    rw [show exec (.siteVout r n rail code) s = execSiteVout r n rail code s from rfl, execSiteVout, coreDo_on hc, withWriteRight_on hm, h]
  have hu : u.out = s.out :=
    (Touches.ite (State.bumpSite_touches (ps := [.cap, .evt]) rfl (.refl _ s)) (.refl _ s)).only .out rfl
  refine completes_of he ⟨State.answers_of_grows (s := u.emit o) ⟨[o], congrArg _ hu⟩ (State.complete_answers _ r 0 0 0), ?_⟩
  exact State.sends_of_emit hu (State.grows_complete ..)

theorem siteVout_refused {rail code : Nat} (h : ((s.capS n).vtable.bind fun t => vtRail t rail) = none) :
    Completes (.siteVout r n rail code) s fun t => s.answers t r 0x53 0 0 := by
  have he : exec (.siteVout r n rail code) s = .next (s.complete r 0x53 0 0) := by
    rw [show exec (.siteVout r n rail code) s = execSiteVout r n rail code s from rfl, execSiteVout, coreDo_on hc, withWriteRight_on hm, h]
  exact completes_of he (s.complete_answers r 0x53 0 0)

end Vout

/-! ## The cap guard (R220) -/

section Guard

/-- The site's 1 ms mean passes the guard bound. -/
def State.overGuard (s : State) (n : Nat) : Prop := (s.capS n).cap * (1000 + cpGuardMargin.val s.caps) < (s.peaks n).avg1ms * 1000

/-- A window past the guard bound is counted, and from CAP_GUARD_TIME on the level rises. -/
theorem State.guardWindow_over (h : s.overGuard n) :
    ((s.guardWindow n).capS n).guardOver = min ((s.capS n).guardOver + 1) 64 ∧
    ((s.guardWindow n).capS n).guard = if cpGuardTime.nat s.caps ≤ min ((s.capS n).guardOver + 1) 64 then min 7 ((s.capS n).guard + 1)
      else (s.capS n).guard := by
  unfold State.guardWindow
  extract_lets c avg past rise s1 s2
  rw [if_pos (show c.cap * (1000 + cpGuardMargin.val s.caps) < avg * 1000 from h)]
  have h2 : s1.CapsSteady s2 := .ite ((State.CapsSteady.bumpSite s1 n 2).trans (.of_cap (State.capEvent_frame _ _ _ _ _ _ .cap rfl))) (.refl s1)
  have site := ((h2.trans (.throttleNote s2)).site n).trans (congrArg SiteCap.steady (s.capS_setCapS_same n _))
  refine ⟨SiteCap.of_steady SiteCap.guardOver site, (SiteCap.of_steady SiteCap.guard site).trans ?_⟩
  simp only [rise, decide_eq_true_eq]
  rfl

/-- Any other window ends the count, and the level falls by no more than one. -/
theorem State.guardWindow_under (h : ¬ s.overGuard n) :
    ((s.guardWindow n).capS n).guardOver = 0 ∧ ((s.guardWindow n).capS n).guard ≤ (s.capS n).guard ∧
    (s.capS n).guard ≤ ((s.guardWindow n).capS n).guard + 1 ∧ s.onlyChanges [.cap] (s.guardWindow n) := by
  unfold State.guardWindow
  extract_lets c avg past rise s1 s2 under fall
  rw [if_neg (show ¬ c.cap * (1000 + cpGuardMargin.val s.caps) < avg * 1000 from h)]
  have frame (x : SiteCap) : s.onlyChanges [.cap] (s.setCapS n x) := (State.setCapS_touches rfl (.refl _ s)).only
  split
  · rw [State.capS_setCapS_same]
    refine ⟨rfl, ?_, ?_, frame _⟩
    all_goals
      dsimp only [c]
      split <;> omega
  · rw [State.capS_setCapS_same]
    exact ⟨rfl, le_rfl, Nat.le_succ _, frame _⟩

theorem capGuardWindow_exec (hs : s.pwr.standby = true) (hl : s.maq.live.isSome = true) :
    exec (.capGuardWindow n) s = .next (s.guardWindow n) := by
  rw [show exec (.capGuardWindow n) s = execCapGuardWindow n s from rfl, execCapGuardWindow, standbyDo_on hs, if_pos hl]

end Guard

/-- Settles O17: each write by its one equation, the division by what it gives each site, and the guard by its two windows. -/
theorem cappingTakesEffect : Obligations.CappingTakesEffect := by
  intro s
  refine ⟨fun r hc hm hl v => ?_, fun r n v hc hm hn => ⟨fun hl => swBoundWrites_effect hc hm hn hl v,
      fun level => siteThrottleForceWrite_effect hc hm hn level, fun rail code nom lo hi h => siteVout_effect hc hm h,
      fun rail code h => siteVout_refused hc hm h⟩, fun ha hl hp => ?_,
    fun n hs hl => completes_of (capGuardWindow_exec hs hl) ⟨State.guardWindow_over, State.guardWindow_under⟩⟩
  · exact completes_of (trayBudgetWrite_exec hc hm hl v) ⟨s.budgetTaken_cap _, s.budgetTaken_frame _⟩
  · refine completes_of (capDivision_exec ha hl hp) ⟨s.division.shadowDivision_keeps.2, fun a l ha' hd => ?_⟩
    subst ha'
    obtain ⟨havail, hshort, hgiven⟩ := s.division_fits hd
    exact ⟨havail, hshort, fun n x hx => ⟨(hgiven n x hx).cap, (hgiven n x hx).demand, (hgiven n x hx).src⟩⟩

end Sys2Proof.Machine
end


section
/-!
SUPPORT. Relief: what a bus reading, a crossing and stage 2 leave of the Relief block (R222 to R224).
-/
namespace Sys2Proof.Machine

variable {s t : State}

/-! ## What the comparators depend on -/

theorem State.opt_congr (h : t.ob = s.ob) (f : Fld) : t.opt f = s.opt f := by
  rw [State.opt, State.optBytes, h]
  rfl

theorem State.caps_congr (h : t.maq = s.maq) : t.caps = s.caps := State.sec_congr h 0x0C

theorem State.busStage2_congr (ho : t.ob = s.ob) (hm : t.maq = s.maq) (v : Nat) (i : Int) : t.busStage2 v i = s.busStage2 v i := by
  unfold State.busStage2
  rw [State.caps_congr hm, State.opt_congr ho, State.opt_congr ho]

theorem State.enterStage2_below {v : Nat} {i : Int} (h : s.busStage2 v i = false) : s.enterStage2 v i = s := by
  rw [State.enterStage2, h]
  rfl

/-! ## A bus reading that is kept (R539) -/

section Keep
variable (s) (v : Option Nat) (i : Option Int)

theorem State.busKeep_frame : s.onlyChanges [.snap, .rel, .met] (s.busKeep v i) := (State.busKeep_touches rfl (.refl _ s)).only

theorem State.busKeep_busV : (s.busKeep v i).snap.busV = v.elim s.snap.busV fun x => (s.busCorrect x 0).1 :=
  congrArg Snap.busV (s.busSeen_snap _ _)

theorem State.busKeep_busI : (s.busKeep v i).met.busI = i.elim s.met.busI fun x => (s.busCorrect 0 x).2 := by
  unfold State.busKeep State.busSeen
  extract_lets _ _ u
  split <;> rfl

/-- A reading is kept in the least voltage and the peak current of an episode, and changes nothing else of Relief. -/
theorem State.busKeep_rel :
    (s.busKeep v i).rel = { s.rel with minV := (s.busKeep v i).rel.minV, peakI := (s.busKeep v i).rel.peakI } := by
  unfold State.busKeep State.busSeen
  extract_lets _ _ u
  split <;> rfl

theorem State.busKeep_busStage2 (x : Nat) (y : Int) : (s.busKeep v i).busStage2 x y = s.busStage2 x y :=
  State.busStage2_congr (s.busKeep_frame v i .ob rfl) (s.busKeep_frame v i .maq rfl) x y

end Keep

/-! ## Triggers (R223) -/

/-- Relief after a trigger. -/
def State.reliefRaised (s : State) (trig level : Nat) : Relief :=
  let r := s.rel
  let first := r.st == .idle
  let lv := if trig = 4 then max r.level level else if first then level else max r.level level
  { r with
    st := if trig = 4 then RelSt.stage2 else match r.st with
      | .stage2 => .stage2
      | _ => .asserted
    level := lv, cond := false, mask := s.reliefMask first, trig := (if first then 0 else r.trig) ||| trig
    maxLevel := if first then lv else max r.maxLevel lv
    start := if first then s.plinth else r.start
    minV := if first then s.snap.busV else r.minV, peakI := if first then s.met.busI else r.peakI }

theorem State.reliefTrigger_rel (s : State) (trig level : Nat) : (s.reliefTrigger trig level).rel = s.reliefRaised trig level := by
  unfold State.reliefTrigger
  extract_lets r first st lv r'
  exact (State.throttleNote_touches (ps := [.log, .cap, .pnt, .evt]) rfl (.refl _ _)).only .rel rfl

section Raised
variable {u : State} {r : Relief} {trig level : Nat}

/-- The trigger of a crossing, in a state that differs from `s` in events and in the counters of crossings. -/
theorem State.reliefRaised_congr (h : ({ s with rel := r } : State).onlyChanges [.evt] u) :
    u.reliefRaised trig level = ({ s with rel := r } : State).reliefRaised trig level := by
  have hr : u.rel = r := h .rel rfl
  have hp : u.plinth = s.plinth := h .plinth rfl
  have hv : u.snap = s.snap := h .snap rfl
  have hi : u.met = s.met := h .met rfl
  have hc : u.caps = s.caps := State.caps_congr (h .maq rfl)
  unfold State.reliefRaised State.reliefMask
  rw [hr, hp, hv, hi, hc]
  rfl

end Raised

theorem State.crossV_rel (s : State) : s.crossV.rel =
    ({ s with rel := { s.rel with cntV := s.rel.cntV.inc.1 } } : State).reliefRaised 1 (cpLevelV.nat s.caps) :=
  (State.reliefTrigger_rel ..).trans (State.reliefRaised_congr State.bump_frame)

theorem State.crossI_rel (s : State) : s.crossI.rel =
    ({ s with rel := { s.rel with cntI := s.rel.cntI.inc.1 } } : State).reliefRaised 2 (cpLevelI.nat s.caps) :=
  (State.reliefTrigger_rel ..).trans (State.reliefRaised_congr State.bump_frame)

theorem State.crossV_frame (s : State) : s.onlyChanges [.log, .cap, .rel, .pnt, .evt] s.crossV := (State.crossV_touches rfl (.refl _ s)).only
theorem State.crossI_frame (s : State) : s.onlyChanges [.log, .cap, .rel, .pnt, .evt] s.crossI := (State.crossI_touches rfl (.refl _ s)).only

theorem State.enterStage2_rel {v : Nat} {i : Int} (h : s.busStage2 v i = true) (hn : s.rel.st ≠ .stage2) : (s.enterStage2 v i).rel =
    ({ s with rel := { s.rel with cnt2 := s.rel.cnt2.inc.1 } } : State).reliefRaised 4 (cpLevel2.nat s.caps) := by
  rw [State.enterStage2, if_pos (by simp [h, hn])]
  exact (State.reliefTrigger_rel ..).trans (State.reliefRaised_congr State.bump_frame)

/-! ## The rows of the comparators (R222, R223) -/

section Rows
variable (hs : s.pwr.standby = true)
include hs

theorem reliefVoltageCrossing_exec {v : Nat} (h2 : s.busStage2 v s.met.busI = false) : exec (.reliefVoltageCrossing v) s =
    .next (if v < s.opt obRelief then (s.busKeep (some v) none).crossV else s.busKeep (some v) none) := by
  have hi : (s.busKeep (some v) none).met.busI = s.met.busI := s.busKeep_busI (some v) none
  have hk := (s.busKeep_busStage2 (some v) none v s.met.busI).trans h2
  have hc : (s.busKeep (some v) none).crossV.busStage2 v s.met.busI = false :=
    (State.busStage2_congr (State.crossV_frame _ .ob rfl) (State.crossV_frame _ .maq rfl) v _).trans hk
  rw [show exec (.reliefVoltageCrossing v) s = execReliefVoltageCrossing v s from rfl, execReliefVoltageCrossing, standbyDo_on hs]
  dsimp only
  rw [hi, State.busLow, State.opt_congr (s.busKeep_frame (some v) none .ob rfl)]
  by_cases hl : v < s.opt obRelief
  · rw [if_pos (decide_eq_true hl), if_pos hl, State.enterStage2_below hc]
  · rw [if_neg (by simpa using hl), if_neg hl, State.enterStage2_below hk]

theorem reliefCurrentCrossing_exec {i : Int} (h2 : s.busStage2 s.snap.busV i = false) : exec (.reliefCurrentCrossing i) s =
    .next (if (s.opt obTrayI : Int) < i then (s.busKeep none (some i)).crossI else s.busKeep none (some i)) := by
  have hv : (s.busKeep none (some i)).snap.busV = s.snap.busV := s.busKeep_busV none (some i)
  have hk := (s.busKeep_busStage2 none (some i) s.snap.busV i).trans h2
  have hx : (s.busKeep none (some i)).crossI.snap = (s.busKeep none (some i)).snap := State.crossI_frame _ .snap rfl
  have hc : (s.busKeep none (some i)).crossI.busStage2 s.snap.busV i = false :=
    (State.busStage2_congr (State.crossI_frame _ .ob rfl) (State.crossI_frame _ .maq rfl) _ i).trans hk
  rw [show exec (.reliefCurrentCrossing i) s = execReliefCurrentCrossing i s from rfl, execReliefCurrentCrossing, standbyDo_on hs]
  dsimp only
  rw [hv, State.busHigh, State.opt_congr (s.busKeep_frame none (some i) .ob rfl)]
  by_cases hl : (s.opt obTrayI : Int) < i
  · rw [if_pos (decide_eq_true hl), if_pos hl, State.enterStage2_below hc]
  · rw [if_neg (by simpa using hl), if_neg hl, State.enterStage2_below hk]

theorem reliefStage2_exec (v : Nat) (i : Int) : exec (.reliefStage2 v i) s = .next ((s.busKeep (some v) (some i)).enterStage2 v i) := by
  rw [show exec (.reliefStage2 v i) s = execReliefStage2 v i s from rfl, execReliefStage2, standbyDo_on hs]

theorem reliefVoltageCrossing_idle {v : Nat} (hi : s.rel.st = .idle) (hl : v < s.opt obRelief) (h2 : s.busStage2 v s.met.busI = false) :
    Completes (.reliefVoltageCrossing v) s fun t => t.rel.st = .asserted ∧
      t.rel.level = cpLevelV.nat s.caps ∧ t.rel.mask = cpMask.nat s.caps ∧ t.rel.trig = 1 ∧ t.rel.start = s.plinth ∧
      t.rel.cntV = s.rel.cntV.inc.1 ∧ t.snap.busV = (s.busCorrect v 0).1 := by
  have he := reliefVoltageCrossing_exec hs h2
  rw [if_pos hl] at he
  have hk := s.busKeep_rel (some v) none
  have hc : (s.busKeep (some v) none).caps = s.caps := State.caps_congr (s.busKeep_frame _ _ .maq rfl)
  have hst : (s.busKeep (some v) none).rel.st = .idle := by rw [hk, hi]
  refine completes_of he ?_
  rw [State.crossV_rel, hc]
  refine ⟨?_, ?_, ?_, ?_, ?_, ?_, ?_⟩
  · simp [State.reliefRaised, hst]
  · simp [State.reliefRaised, hst]
  · simp only [State.reliefRaised, State.reliefMask, hst]
    exact (Nat.zero_or _).trans (congrArg cpMask.nat hc)
  · simp [State.reliefRaised, hst]
  · simp only [State.reliefRaised, hst]
    exact s.busKeep_frame _ _ .plinth rfl
  · simp only [State.reliefRaised]
    rw [hk]
  · rw [State.crossV_frame _ .snap rfl]
    exact s.busKeep_busV (some v) none

theorem reliefCurrentCrossing_releasing {i : Int} (hr : s.rel.st = .releasing) (hl : (s.opt obTrayI : Int) < i)
    (h2 : s.busStage2 s.snap.busV i = false) : Completes (.reliefCurrentCrossing i) s fun t => t.rel.st = .asserted ∧
      t.rel.level = max s.rel.level (cpLevelI.nat s.caps) ∧ t.rel.trig = s.rel.trig ||| 2 ∧ t.rel.start = s.rel.start ∧
      t.rel.cntI = s.rel.cntI.inc.1 ∧ t.met.busI = (s.busCorrect 0 i).2 := by
  have he := reliefCurrentCrossing_exec hs h2
  rw [if_pos hl] at he
  have hk := s.busKeep_rel none (some i)
  have hc : (s.busKeep none (some i)).caps = s.caps := State.caps_congr (s.busKeep_frame _ _ .maq rfl)
  have hst : (s.busKeep none (some i)).rel.st = .releasing := by rw [hk, hr]
  refine completes_of he ?_
  rw [State.crossI_rel, hc]
  refine ⟨?_, ?_, ?_, ?_, ?_, ?_⟩
  · simp [State.reliefRaised, hst]
  · simp only [State.reliefRaised, hst]
    rw [hk]
    rfl
  · simp only [State.reliefRaised, hst]
    rw [hk]
    rfl
  · simp only [State.reliefRaised, hst]
    rw [hk]
    rfl
  · simp only [State.reliefRaised]
    rw [hk]
  · rw [State.crossI_frame _ .met rfl]
    exact s.busKeep_busI none (some i)

theorem reliefStage2_enters {v : Nat} {i : Int} (hn : s.rel.st ≠ .stage2)
    (h : v + cpStage2.nat s.caps < s.opt obRelief ∨ (s.opt obTrayI : Int) * 110 < i * 100) : Completes (.reliefStage2 v i) s fun t =>
      t.rel.st = .stage2 ∧ t.rel.level = max s.rel.level (cpLevel2.nat s.caps) ∧ t.rel.cnt2 = s.rel.cnt2.inc.1 ∧ t.rel.cond = false := by
  have hk := s.busKeep_rel (some v) (some i)
  have hc : (s.busKeep (some v) (some i)).caps = s.caps := State.caps_congr (s.busKeep_frame _ _ .maq rfl)
  have h2 : (s.busKeep (some v) (some i)).busStage2 v i = true := by
    rw [State.busKeep_busStage2, State.busStage2, Bool.or_eq_true, decide_eq_true_eq, decide_eq_true_eq]
    exact h
  refine completes_of (reliefStage2_exec hs v i) ?_
  rw [State.enterStage2_rel h2 (by rwa [hk]), hc]
  refine ⟨rfl, ?_, ?_, rfl⟩
  · simp only [State.reliefRaised]
    rw [hk]
    rfl
  · simp only [State.reliefRaised]
    rw [hk]

theorem reliefStage2_below {v : Nat} {i : Int} (hv : s.opt obRelief ≤ v + cpStage2.nat s.caps)
    (hi : i * 100 ≤ (s.opt obTrayI : Int) * 110) : Completes (.reliefStage2 v i) s fun t => t = s.busKeep (some v) (some i) := by
  have h2 : (s.busKeep (some v) (some i)).busStage2 v i = false := by
    rw [State.busKeep_busStage2, State.busStage2, decide_eq_false (by omega), decide_eq_false (by omega), Bool.or_false]
  exact completes_of (reliefStage2_exec hs v i) (State.enterStage2_below h2)

end Rows

/-! ## The release (R222 to R224) -/

/-- Relief begins to step down: the condition holds, and the mask is that in force now. -/
def State.releasing (s : State) : State :=
  if s.rel.st = .releasing then { s with rel := { s.rel with cond := true } }
  else ({ s with rel := { s.rel with cond := true, st := .releasing, mask := s.reliefMask false } } : State).throttleNote

theorem State.throttleNote_rel (s : State) : s.throttleNote.rel = s.rel :=
  (State.throttleNote_touches (ps := [.log, .cap, .pnt, .evt]) rfl (.refl _ s)).only .rel rfl

theorem State.releasing_rel (s : State) : s.releasing.rel.st = .releasing ∧ s.releasing.rel.cond = true ∧ s.releasing.rel.level = s.rel.level := by
  unfold State.releasing
  split
  case isTrue h => exact ⟨h, rfl, rfl⟩
  case isFalse => rw [State.throttleNote_rel]; exact ⟨rfl, rfl, rfl⟩

theorem State.busKeep_busReleases (s : State) (a : Option Nat) (b : Option Int) (v : Nat) (i : Int) :
    (s.busKeep a b).busReleases v i = s.busReleases v i := by
  unfold State.busReleases
  rw [State.caps_congr (s.busKeep_frame a b .maq rfl), State.opt_congr (s.busKeep_frame a b .ob rfl),
    State.opt_congr (s.busKeep_frame a b .ob rfl)]

section Release
variable (hs : s.pwr.standby = true)
include hs

theorem reliefReleaseCondition_exec (v : Nat) (i : Int) : exec (.reliefReleaseCondition ⟨v, i⟩) s = .next
    (if (s.busKeep (some v) (some i)).rel.st = .idle then s.busKeep (some v) (some i)
    else if (s.busKeep (some v) (some i)).busReleases v i then (s.busKeep (some v) (some i)).releasing
    else { s.busKeep (some v) (some i) with rel := { (s.busKeep (some v) (some i)).rel with cond := false } }) := by
  rw [show exec (.reliefReleaseCondition ⟨v, i⟩) s = execReliefReleaseCondition ⟨v, i⟩ s from rfl, execReliefReleaseCondition,
    standbyDo_on hs]
  rfl

theorem reliefReleaseCondition_holds {v : Nat} {i : Int} (hn : s.rel.st ≠ .idle) (hv : s.opt obRelief + cpHyst.nat s.caps ≤ v)
    (hi : i * 100 < (s.opt obTrayI : Int) * 95) : Completes (.reliefReleaseCondition ⟨v, i⟩) s fun t =>
      t.rel.st = .releasing ∧ t.rel.cond = true ∧ t.rel.level = s.rel.level := by
  have hk := s.busKeep_rel (some v) (some i)
  have hr : (s.busKeep (some v) (some i)).busReleases v i = true := by
    rw [State.busKeep_busReleases, State.busReleases, decide_eq_true hv, decide_eq_true hi, Bool.and_true]
  have he := reliefReleaseCondition_exec hs v i
  rw [if_neg (by rwa [hk]), if_pos hr] at he
  obtain ⟨hst, hcond, hlevel⟩ := (s.busKeep (some v) (some i)).releasing_rel
  exact completes_of he ⟨hst, hcond, hlevel.trans (by rw [hk])⟩

theorem reliefReleaseCondition_ceases {v : Nat} {i : Int} (hn : s.rel.st ≠ .idle)
    (h : v < s.opt obRelief + cpHyst.nat s.caps ∨ (s.opt obTrayI : Int) * 95 ≤ i * 100) :
    Completes (.reliefReleaseCondition ⟨v, i⟩) s fun t =>
      t = { s.busKeep (some v) (some i) with rel := { (s.busKeep (some v) (some i)).rel with cond := false } } := by
  have hk := s.busKeep_rel (some v) (some i)
  have hr : (s.busKeep (some v) (some i)).busReleases v i = false := by
    rw [State.busKeep_busReleases, State.busReleases, Bool.and_eq_false_iff, decide_eq_false_iff_not, decide_eq_false_iff_not]
    omega
  have he := reliefReleaseCondition_exec hs v i
  rw [if_neg (by rwa [hk]), hr, if_neg Bool.false_ne_true] at he
  exact completes_of he rfl

theorem reliefReleaseCondition_idle {v : Nat} {i : Int} (hi : s.rel.st = .idle) :
    Completes (.reliefReleaseCondition ⟨v, i⟩) s fun t => t = s.busKeep (some v) (some i) := by
  have hk := s.busKeep_rel (some v) (some i)
  have he := reliefReleaseCondition_exec hs v i
  rw [if_pos (by rw [hk, hi])] at he
  exact completes_of he rfl

variable (hr : s.rel.st = .releasing) (hc : s.rel.cond = true)
include hr hc

theorem reliefReleaseStepExpiry_steps (hl : 1 < s.rel.level) : Completes .reliefReleaseStepExpiry s fun t =>
    t.rel = { s.rel with level := s.rel.level - 1, mask := s.reliefMask false } := by
  have he : exec .reliefReleaseStepExpiry s = .next
      ({ s with rel := { s.rel with level := s.rel.level - 1, mask := s.reliefMask false } } : State).throttleNote := by
    rw [show exec .reliefReleaseStepExpiry s = execReliefReleaseStepExpiry s from rfl, execReliefReleaseStepExpiry, standbyDo_on hs]
    dsimp only
    rw [if_pos (by rw [hr, hc]; rfl), if_pos hl]
  exact completes_of he (State.throttleNote_rel _)

theorem reliefReleaseStepExpiry_ends (hl : s.rel.level ≤ 1) : Completes .reliefReleaseStepExpiry s fun t =>
    t.rel = { s.rel with level := 0, st := .idle, cond := false } ∧ s.onlyChanges [.rel, .log, .evt] t := by
  let u : State := { s with rel := { s.rel with level := 0, st := .idle, cond := false } }
  have he : exec .reliefReleaseStepExpiry s = .next u.reliefRecord := by
    rw [show exec .reliefReleaseStepExpiry s = execReliefReleaseStepExpiry s from rfl, execReliefReleaseStepExpiry, standbyDo_on hs]
    dsimp only
    rw [if_pos (by rw [hr, hc]; rfl), if_neg (by omega)]
  have hu : Touches [.rel, .log, .evt] s u := .updRel rfl (.refl _ s)
  refine completes_of he ⟨?_, (State.reliefRecord_touches rfl hu).only⟩
  exact (State.reliefRecord_touches (ps := [.log, .evt]) rfl (.refl _ u)).only .rel rfl

end Release
end Sys2Proof.Machine
end


section
/-!
SUPPORT. Patina: what its second counts, and the records it writes (R235, R240).
-/
namespace Sys2Proof.Machine

variable {s t : State}

/-! ## Counters of a site or of the core die (R235) -/

theorem State.patina_congr (h : t.pat = s.pat) (n : Nat) : t.patina n = s.patina n := by
  rw [State.patina, h]
  rfl

theorem State.bumpPatina_pat (s : State) (n k : Nat) : (s.bumpPatina n k).pat = (s.setPatina n { s.patina n with
    cnt := Tbl.set (s.patina n).cnt k (Tbl.get {} (s.patina n).cnt k).inc.1 }).pat := State.bump_frame .pat rfl

/-- From `s` to `t` Patina's block changes in the counters of `n` alone. -/
structure State.PatinaOf (n : Nat) (s t : State) : Prop where
  run : t.pat.run = s.pat.run
  other : ∀ m, m ≠ n → t.patina m = s.patina m

namespace State.PatinaOf
variable {n : Nat}

theorem refl (s : State) : State.PatinaOf n s s := ⟨rfl, fun _ _ => rfl⟩

theorem trans {r : State} (h : State.PatinaOf n r s) (h' : State.PatinaOf n s t) : State.PatinaOf n r t :=
  ⟨h'.run.trans h.run, fun m hm => (h'.other m hm).trans (h.other m hm)⟩

theorem setPatina (s : State) (n : Nat) (x : PatinaSet) : State.PatinaOf n s (s.setPatina n x) :=
  ⟨rfl, fun _ hm => s.patina_setPatina_other n x hm⟩

theorem bumpPatina (s : State) (n k : Nat) : State.PatinaOf n s (s.bumpPatina n k) :=
  ⟨by rw [s.bumpPatina_pat n k]; rfl,
    fun m hm => (State.patina_congr (s.bumpPatina_pat n k) m).trans (s.patina_setPatina_other n _ hm)⟩

theorem patinaTemp (s : State) (n : Nat) (t : Int) : State.PatinaOf n s (s.patinaTemp n t) := by
  unfold State.patinaTemp
  extract_lets s1 r s2
  have h2 : State.PatinaOf n s s2 := (bumpPatina s n _).trans (setPatina s1 n _)
  split
  · exact h2.trans (bumpPatina s2 n 12)
  · exact h2

theorem patinaSite (s : State) (n : Nat) : State.PatinaOf n s (s.patinaSite n) := by
  unfold State.patinaSite
  extract_lets s1 rail
  have h1 : State.PatinaOf n s s1 := by
    unfold s1
    split
    · exact patinaTemp s n _
    · exact refl s
  split
  · exact refl s
  · split
    · exact h1.trans (bumpPatina s1 n _)
    · exact h1

end State.PatinaOf

theorem State.patinaSite_idle {n : Nat} (h : (s.site n).st.runs = false) : s.patinaSite n = s := by
  rw [State.patinaSite, h]
  rfl

theorem State.patinaSite_frame (s : State) (n : Nat) : s.onlyChanges [.pat, .evt] (s.patinaSite n) :=
  (State.patinaSite_touches rfl (.refl _ s)).only

/-! ## Running time of fans and pumps (R235) -/

/-- A second of a fan or pump. -/
def State.fanSecond (s : State) (c : Nat) : State :=
  if (s.fan c).st = .running ∨ (s.fan c).st = .tachLost then
    s.bump 7 c (Tbl.get {} s.pat.run c) fun x s => { s with pat := { s.pat with run := Tbl.set s.pat.run c x } }
  else s

theorem State.fanSecond_frame (s : State) (c : Nat) : s.onlyChanges [.pat, .evt] (s.fanSecond c) :=
  (Touches.ite (State.bump_touches rfl (fun _ _ h => .updPat rfl h) (.refl _ s)) (.refl _ s)).only

theorem State.fanSecond_runs {c : Nat} (h : (s.fan c).st = .running ∨ (s.fan c).st = .tachLost) :
    (s.fanSecond c).pat = { s.pat with run := Tbl.set s.pat.run c (Tbl.get ({} : Cnt) s.pat.run c).inc.1 } := by
  rw [State.fanSecond, if_pos h]
  exact State.bump_frame .pat rfl

theorem State.fanSecond_idle {c : Nat} (h : ¬((s.fan c).st = .running ∨ (s.fan c).st = .tachLost)) : s.fanSecond c = s := by
  rw [State.fanSecond, if_neg h]

theorem State.fanSecond_sets (s : State) (c : Nat) : (s.fanSecond c).pat.sets = s.pat.sets := by
  by_cases h : (s.fan c).st = .running ∨ (s.fan c).st = .tachLost
  · rw [State.fanSecond_runs h]
  · rw [State.fanSecond_idle h]

theorem State.fanSecond_other (s : State) {b c : Nat} (hb : b ≠ c) :
    Tbl.get ({} : Cnt) (s.fanSecond b).pat.run c = Tbl.get ({} : Cnt) s.pat.run c := by
  by_cases h : (s.fan b).st = .running ∨ (s.fan b).st = .tachLost
  · rw [State.fanSecond_runs h]
    exact Tbl.get_set_other _ _ _ (Ne.symm hb)
  · rw [State.fanSecond_idle h]

/-! ## The second -/

/-- The sites' part of a second, and the core die's. -/
def State.sitesSecond (s : State) : State := (List.range 8).foldl State.patinaSite s
def State.coreSecond (s : State) : State := if s.pwr.core then s.bumpPatina 8 (tempBin s.haz.tjCore) else s

theorem patinaSecond_exec (hs : s.pwr.standby = true) :
    exec .patinaSecond s = .next ((List.range 40).foldl State.fanSecond s.sitesSecond.coreSecond) := by
  rw [show exec .patinaSecond s = execPatinaSecond s from rfl, execPatinaSecond, standbyDo_on hs]
  unfold State.coreSecond State.sitesSecond State.fanSecond
  rfl

theorem State.sitesSecond_frame (s : State) : s.onlyChanges [.pat, .evt] s.sitesSecond :=
  (Touches.foldl (f := State.patinaSite) (l := List.range 8) (fun _ _ h => State.patinaSite_touches rfl h) (.refl _ s)).only

theorem State.sitesSecond_keeps (s : State) : s.sitesSecond.pat.run = s.pat.run ∧ s.sitesSecond.patina 8 = s.patina 8 := by
  have apart : ∀ (u : State), ∀ n ∈ List.range 8, (u.patinaSite n).patina 8 = u.patina 8 := fun u n hn =>
    (State.PatinaOf.patinaSite u n).other 8 (Nat.ne_of_gt (List.mem_range.1 hn))
  unfold State.sitesSecond
  exact ⟨foldl_keeps (f := State.patinaSite) (fun u : State => u.pat.run) (fun u n _ => (State.PatinaOf.patinaSite u n).run) s,
    foldl_keeps (f := State.patinaSite) (fun u : State => u.patina 8) apart s⟩

/-- A site that does not run counts nothing. -/
theorem State.sitesSecond_idle {n : Nat} (hn : n < 8) (h : (s.site n).st.runs = false) : s.sitesSecond.patina n = s.patina n := by
  obtain ⟨u, hseq, hpat, he⟩ := foldl_once (f := State.patinaSite) (P := fun u => u.seq = s.seq) (fun u => u.patina n)
    List.nodup_range (List.mem_range.2 hn) (fun u m hu => (u.patinaSite_frame m .seq rfl).trans hu)
    (fun u m _ hm => (State.PatinaOf.patinaSite u m).other n (Ne.symm hm)) rfl
  rw [State.patinaSite_idle (by rw [State.site_congr hseq, h])] at he
  rw [State.sitesSecond, he, hpat]

theorem State.coreSecond_keeps (s : State) : s.coreSecond.pat.run = s.pat.run ∧ ∀ n, n < 8 → s.coreSecond.patina n = s.patina n := by
  unfold State.coreSecond
  split
  · exact ⟨(State.PatinaOf.bumpPatina s 8 _).run, fun n hn => (State.PatinaOf.bumpPatina s 8 _).other n (Nat.ne_of_lt hn)⟩
  · exact ⟨rfl, fun _ _ => rfl⟩

theorem State.coreSecond_counts (h : s.pwr.core = true) : Tbl.get {} (s.coreSecond.patina 8).cnt (tempBin s.haz.tjCore) =
    (Tbl.get ({} : Cnt) (s.patina 8).cnt (tempBin s.haz.tjCore)).inc.1 := by
  rw [State.coreSecond, if_pos h, State.patina_congr (s.bumpPatina_pat 8 _), State.patina_setPatina_same]
  exact Tbl.get_set_same ..

theorem State.fanSeconds_patina (s : State) (n : Nat) : ((List.range 40).foldl State.fanSecond s).patina n = s.patina n := by
  have h : ((List.range 40).foldl State.fanSecond s).pat.sets = s.pat.sets :=
    foldl_keeps (f := State.fanSecond) (fun u : State => u.pat.sets) (fun u c _ => u.fanSecond_sets c) s
  rw [State.patina, h]
  rfl

theorem State.fanSeconds_run {c : Nat} (hc : c < 40) (h : (s.fan c).st = .running ∨ (s.fan c).st = .tachLost) :
    Tbl.get {} ((List.range 40).foldl State.fanSecond s).pat.run c = (Tbl.get ({} : Cnt) s.pat.run c).inc.1 := by
  obtain ⟨u, hcool, hrun, he⟩ := foldl_once (f := State.fanSecond) (P := fun u => u.cool = s.cool)
    (fun u => Tbl.get ({} : Cnt) u.pat.run c) List.nodup_range (List.mem_range.2 hc) (fun u b hu => (u.fanSecond_frame b .cool rfl).trans hu)
    (fun u b _ hb => u.fanSecond_other hb) rfl
  have hf : u.fan c = s.fan c := by
    rw [State.fan, hcool]
    rfl
  rw [he, State.fanSecond_runs (by rwa [hf]), hrun]
  exact Tbl.get_set_same ..

theorem patinaSecond_effect (hs : s.pwr.standby = true) : Completes .patinaSecond s fun t => s.onlyChanges [.pat, .evt] t ∧
    (∀ c, c < 40 → ((s.fan c).st = .running ∨ (s.fan c).st = .tachLost) →
      Tbl.get {} t.pat.run c = (Tbl.get ({} : Cnt) s.pat.run c).inc.1) ∧
    (s.pwr.core = true → Tbl.get {} (t.patina 8).cnt (tempBin s.haz.tjCore) =
      (Tbl.get ({} : Cnt) (s.patina 8).cnt (tempBin s.haz.tjCore)).inc.1) ∧
    ∀ n, n < 8 → (s.site n).st.runs = false → t.patina n = s.patina n := by
  have he := patinaSecond_exec hs
  have frame := s.sitesSecond_frame
  have hcore : s.sitesSecond.coreSecond.pat.run = s.pat.run := s.sitesSecond.coreSecond_keeps.1.trans s.sitesSecond_keeps.1
  have hfan (c : Nat) : s.sitesSecond.coreSecond.fan c = s.fan c := by
    have hcool : s.sitesSecond.coreSecond.cool = s.sitesSecond.cool :=
      (Touches.ite (State.bumpPatina_touches (ps := [.pat, .evt]) rfl (.refl _ _)) (.refl _ s.sitesSecond)).only .cool rfl
    exact congrArg (fun x : Cooling => Tbl.get ({} : FanCh) x.fans c) (hcool.trans (frame .cool rfl))
  refine completes_of he ⟨only_of (execPatinaSecond_touches rfl (.refl _ s)) he, fun c hc h => ?_, fun h => ?_, fun n hn h => ?_⟩
  · rw [State.fanSeconds_run hc (by rwa [hfan]), hcore]
  · have hp : s.sitesSecond.pwr = s.pwr := frame .pwr rfl
    have hh : s.sitesSecond.haz = s.haz := frame .haz rfl
    rw [State.fanSeconds_patina, ← hh, State.coreSecond_counts (by rw [hp, h]), s.sitesSecond_keeps.2]
  · rw [State.fanSeconds_patina, s.sitesSecond.coreSecond_keeps.2 n hn, State.sitesSecond_idle hn h]

/-! ## Its records (R240) -/

/-- A step that puts from `lo` to `hi` records into a queue that has room for them and none lost. -/
def Queues (lo hi : Nat) (s t : State) : Prop := s.log.gap = [] → s.log.queue.length + hi ≤ 128 →
  t.log.gap = [] ∧ s.log.queue.length + lo ≤ t.log.queue.length ∧ t.log.queue.length ≤ s.log.queue.length + hi

theorem Queues.refl (hi : Nat) (s : State) : Queues 0 hi s s := fun hg _ => ⟨hg, le_rfl, by omega⟩

theorem Queues.trans {a b c d : Nat} {r : State} (h : Queues a b r s) (h' : Queues c d s t) : Queues (a + c) (b + d) r t := by
  intro hg hr
  obtain ⟨hg1, hl1, hu1⟩ := h hg (by omega)
  obtain ⟨hg2, hl2, hu2⟩ := h' hg1 (by omega)
  exact ⟨hg2, by omega, by omega⟩

theorem Queues.foldl {α : Type} {lo hi : Nat} {f : State → α → State} (hf : ∀ s a, Queues lo hi s (f s a)) (l : List α) (s : State) :
    Queues (lo * l.length) (hi * l.length) s (l.foldl f s) := by
  induction l generalizing s with
  | nil => exact Queues.refl 0 s
  | cons a l ih =>
    have h := (hf s a).trans (ih (f s a))
    rwa [List.length_cons, Nat.mul_succ, Nat.mul_succ, Nat.add_comm (lo * _), Nat.add_comm (hi * _)]

/-- A record finds its place in such a queue (R191). -/
theorem Queues.record (s : State) (typ source kind : Nat) (site : Option Nat) (data : Bytes) :
    Queues 1 1 s (s.record typ source kind site data) := by
  intro hg hr
  rw [State.record, State.pushRec, State.flushGap_idle hg]
  dsimp only
  rw [if_pos (by omega), State.startPage_log]
  exact ⟨hg, by simp, by simp⟩

theorem Queues.patinaRecords (s : State) : Queues 18 58 s s.patinaRecords := by
  unfold State.patinaRecords
  extract_lets v u
  have hu : Queues (2 * 9) (2 * 9) s u := Queues.foldl (fun t n => by
    extract_lets site
    exact Queues.trans (Queues.record t 0x12 n 1 site _) (Queues.record _ 0x12 n 2 site _)) (List.range 9) s
  refine hu.trans (Queues.foldl (lo := 0) (hi := 1) (fun t c => ?_) (List.range 40) u)
  split
  · intro hg hr
    obtain ⟨h1, h2, h3⟩ := Queues.record t _ _ _ _ _ hg hr
    exact ⟨h1, by omega, h3⟩
  · exact Queues.refl 1 t

theorem patinaRecordWrite_effect (hs : s.pwr.standby = true) : Completes .patinaRecordWrite s fun t => s.onlyChanges [.log, .evt] t ∧
    (s.log.gap = [] → s.log.queue.length + 58 ≤ 128 → s.log.queue.length + 18 ≤ t.log.queue.length) := by
  have he : exec .patinaRecordWrite s = .next s.patinaRecords := standbyDo_on hs
  exact completes_of he ⟨only_of (execPatinaRecordWrite_touches rfl (.refl _ s)) he, fun hg hr => (Queues.patinaRecords s hg hr).2.1⟩

/-- Settles O18: a crossing, stage 2 and the release by what they leave of Relief's block, of bus readings as the calibration corrects them
(log 116), and Patina by the counters of each member and the room its records find. -/
theorem reliefAndPatinaTakeEffect : Obligations.ReliefAndPatinaTakeEffect := by
  intro s hs
  refine ⟨fun v hi hl h2 => reliefVoltageCrossing_idle hs hi hl h2, fun v hl h2 => ?_,
    fun i hr hl h2 => reliefCurrentCrossing_releasing hs hr hl h2, fun i hl h2 => ?_, fun v i hn h => reliefStage2_enters hs hn h,
    fun v i hv hi => reliefStage2_below hs hv hi, fun v i hn hv hi => reliefReleaseCondition_holds hs hn hv hi,
    fun v i hn h => reliefReleaseCondition_ceases hs hn h, fun v i hi => reliefReleaseCondition_idle hs hi,
    fun hr hc hl => reliefReleaseStepExpiry_steps hs hr hc hl, fun hr hc hl => reliefReleaseStepExpiry_ends hs hr hc hl,
    patinaSecond_effect hs, patinaRecordWrite_effect hs⟩
  · exact completes_of (reliefVoltageCrossing_exec hs h2) (if_neg (by omega))
  · exact completes_of (reliefCurrentCrossing_exec hs h2) (if_neg (by omega))

end Sys2Proof.Machine
end


section
/-!
SUPPORT. Metering: what the marks of jobs leave of the totals and of the sites' caps, and a metering interval (R210, R213, R228 to R230).
-/
namespace Sys2Proof.Machine

variable {s t : State}

/-! ## What marks leave of the totals (R228 to R231) -/

/-- The energy of the sites and of the tray, the bus current as last measured, and the marks that lie ahead. -/
def Meter.totals (m : Meter) : Tbl Energy × Energy × Int × List Mark := (m.energy, m.tray, m.busI, m.ahead)

theorem State.totals_congr (h : t.met = s.met) : t.met.totals = s.met.totals := by rw [h]

theorem State.event_met (s : State) (blk cause inst data : Nat) : (s.event blk cause inst data).met = s.met :=
  s.event_frame blk cause inst data .met rfl

section Marks
variable (s : State) (n m job nj old new id stop : Nat)

theorem State.addTo_totals : (s.addTo n job nj).met.totals = s.met.totals := by
  unfold State.addTo
  split
  · extract_lets r m u
    split
    · exact (State.totals_congr (u.event_met ..)).trans rfl
    · rfl
  · extract_lets j r u
    split
    · exact (State.totals_congr (u.event_met ..)).trans rfl
    · rfl

theorem State.takeFrom_totals : (s.takeFrom n job nj).met.totals = s.met.totals := by
  unfold State.takeFrom
  split <;> rfl

theorem State.markEstimated_totals : (s.markEstimated job).met.totals = s.met.totals := by
  unfold State.markEstimated
  split <;> rfl

theorem State.reattr_totals : (s.reattr n stop old new).met.totals = s.met.totals := by
  unfold State.reattr
  extract_lets h step r
  show r.1.met.totals = _
  refine List.foldlRecOn (motive := fun a : State × List Interval => a.1.met.totals = s.met.totals) _ step rfl fun a ha x _ => ?_
  unfold step
  extract_lets parts e u
  have hu : u.met.totals = a.1.met.totals := (State.addTo_totals ..).trans (State.takeFrom_totals ..)
  split
  · exact ha
  · dsimp only
    split
    · exact (State.markEstimated_totals ..).trans (hu.trans ha)
    · exact hu.trans ha

theorem State.endJobOn_totals (implicit : Bool) : (s.endJobOn n implicit).met.totals = s.met.totals := by
  unfold State.endJobOn
  extract_lets k x x' m u x'' v
  split
  · rfl
  · split <;> rfl

theorem State.releaseJob_totals : (s.releaseJob job).met.totals = s.met.totals := by
  unfold State.releaseJob
  extract_lets x u hist v w
  show u.met.totals = _
  refine List.foldlRecOn (motive := fun a : State => a.met.totals = s.met.totals) _ _ rfl fun a ha k _ => ?_
  extract_lets e r m b
  split
  · exact (State.totals_congr (b.event_met ..)).trans ha
  · exact ha

theorem State.roomForJob_totals : s.roomForJob.1.met.totals = s.met.totals := by
  unfold State.roomForJob
  split
  · rfl
  · extract_lets closed
    split
    · exact s.releaseJob_totals _
    · rfl

theorem State.joinJob_totals : (s.joinJob n stop job).met.totals = s.met.totals := by
  unfold State.joinJob
  extract_lets x u v
  exact (State.reattr_totals ..).trans rfl

theorem State.applyMark_totals (begins : Bool) : (s.applyMark n begins id stop).met.totals = s.met.totals := by
  have ended (k : Nat) (implicit : Bool) : ((if k = 0 then s else s.reattr n stop k 0).endJobOn n implicit).met.totals = s.met.totals := by
    refine (State.endJobOn_totals ..).trans ?_
    split
    · rfl
    · exact s.reattr_totals ..
  unfold State.applyMark
  extract_lets k u
  split
  · have hu : u.met.totals = s.met.totals := ended k true
    split
    · exact (State.joinJob_totals ..).trans hu
    · have hr := u.roomForJob_totals
      split
      next v j hv =>
        rw [hv] at hr
        exact (State.joinJob_totals ..).trans (hr.trans hu)
      next v hv =>
        rw [hv] at hr
        exact (State.totals_congr (State.event_met ..)).trans ((State.totals_congr (State.bump_frame .met rfl)).trans (hr.trans hu))
  · split
    next hk =>
      have := ended k false
      rwa [if_neg hk.1] at this
    · rfl

end Marks

/-! ## What marks leave of the sites' caps (R262, R345) -/

namespace State.CapsSteady

theorem closeArm (s : State) (i why : Nat) : s.CapsSteady (s.closeArm i why) := by
  unfold State.closeArm
  extract_lets a x r u p v
  have hv : s.CapsSteady v := by
    refine of_cap (Eq.trans ?_ (State.setArm_cap s i { x with record := r }))
    exact (State.jrnRunClosed_touches (ps := [.cal, .jrn, .evt]) rfl (.refl _ _)).only .cap rfl
  refine hv.trans (foldl (fun w n => ?_) v)
  extract_lets other d w' c
  exact ite ((setCapS (n := n) (x := { w.capS n with still := false, stillCut := false }) rfl).trans (of_cap rfl)) (refl w)

theorem armsEnded (s : State) (n id : Nat) : s.CapsSteady (s.armsEnded n id) := by
  refine foldl (fun u i => ?_) s
  extract_lets x x' v
  have hv : u.CapsSteady v := of_cap rfl
  exact ite (ite (hv.trans (closeArm v i 2)) hv) (refl u)

theorem markNow (s : State) (n : Nat) (begins : Bool) (id stop : Nat) : s.CapsSteady (s.markNow n begins id stop) := by
  unfold State.markNow
  extract_lets u
  have hu : s.CapsSteady u := of_cap ((State.applyMark_touches (ps := [.met, .evt]) rfl (.refl _ s)).only .cap rfl)
  exact ite hu (hu.trans (armsEnded u n id))

end State.CapsSteady

theorem State.markNow_totals (s : State) (n : Nat) (begins : Bool) (id stop : Nat) :
    (s.markNow n begins id stop).met.totals = s.met.totals := by
  unfold State.markNow
  extract_lets u
  have hu : u.met.totals = s.met.totals := s.applyMark_totals n id stop begins
  split
  · exact hu
  · exact (State.totals_congr ((State.armsEnded_touches (ps := [.cap, .pnt, .chi, .cal, .jrn, .evt]) rfl (.refl _ u)).only .met rfl)).trans hu

/-! ## A site's interval -/

section Interval
variable (s : State) (start len n : Nat)

/-- The interval as far as marks are not due in it: its power, its energy, and what takes that energy. -/
def State.integrated : State :=
  let p := s.sitePower n
  let nj := intervalNj p.1 len
  let c := s.capS n
  let s := s.setCapS n { c with power := p.1, lastValid := p.1, prodSum := 0, prodN := 0 }
  let s := if p.2 then s.bumpSite n 3 else s
  let job := Tbl.get 0 s.met.siteJob n
  let s := (s.addSite n nj).addTo n job nj
  let s := if p.2 then s.markEstimated job else s
  let h : List Interval := ⟨start, len, nj, [(start, job)], p.2⟩ :: Tbl.get [] s.met.hist n
  { s with met := { s.met with hist := Tbl.set s.met.hist n (h.take 100) } }

/-- The marks due in an interval take effect. -/
def State.marked : State :=
  (s.dueMarks n (start + len)).foldl (fun s m => s.markNow n m.begins m.id (max m.time start))
    { s with met := { s.met with ahead := s.met.ahead.filter fun m => !(m.site == n && decide (m.time < start + len)) } }

theorem State.siteInterval_eq : ∃ x, s.siteInterval start len n = ((s.integrated start len n).marked start len n).setPeaks n x :=
  ⟨_, rfl⟩

theorem State.setPeaks_totals (x : Peaks) : (s.setPeaks n x).met.totals = s.met.totals := rfl

theorem State.integrated_cap : (s.integrated start len n).cap = (if (s.sitePower n).2 then (s.setCapS n { s.capS n with
    power := (s.sitePower n).1, lastValid := (s.sitePower n).1, prodSum := 0, prodN := 0 }).bumpSite n 3 else s.setCapS n { s.capS n with
    power := (s.sitePower n).1, lastValid := (s.sitePower n).1, prodSum := 0, prodN := 0 }).cap := by
  unfold State.integrated
  extract_lets p nj c u1 u2 job u3 u4 h
  have h3 : Touches [.met, .evt] u2 u3 := State.addTo_touches rfl (State.addSite_touches rfl (.refl _ u2))
  have h4 : Touches [.met, .evt] u2 u4 := .ite (State.markEstimated_touches rfl h3) h3
  exact h4.only .cap rfl

theorem State.integrated_other {m : Nat} (h : m ≠ n) : (s.integrated start len n).capS m = s.capS m := by
  rw [State.capS_congr (s.integrated_cap start len n)]
  split
  · rw [State.capS_bumpSite_other _ 3 h, State.capS_setCapS_other _ _ _ h]
  · rw [State.capS_setCapS_other _ _ _ h]

theorem State.integrated_site : ((s.integrated start len n).capS n).steady =
    ({ s.capS n with power := (s.sitePower n).1, lastValid := (s.sitePower n).1, prodSum := 0, prodN := 0 } : SiteCap).steady := by
  rw [State.capS_congr (s.integrated_cap start len n)]
  split
  · rw [(State.CapsSteady.bumpSite _ n 3).site n, State.capS_setCapS_same]
  · rw [State.capS_setCapS_same]

theorem State.addSite_totals (nj : Nat) : (s.addSite n nj).met.totals =
    (Tbl.set s.met.energy n ((Tbl.get {} s.met.energy n : Energy).add nj).1, s.met.tray, s.met.busI, s.met.ahead) := by
  unfold State.addSite
  extract_lets r m u
  split
  · exact (State.totals_congr (u.event_met ..)).trans rfl
  · rfl

theorem State.integrated_totals : (s.integrated start len n).met.totals = (Tbl.set s.met.energy n
    ((Tbl.get {} s.met.energy n : Energy).add (intervalNj (s.sitePower n).1 len)).1, s.met.tray, s.met.busI, s.met.ahead) := by
  unfold State.integrated
  extract_lets p nj c u1 u2 job u3 u4 h
  have h2 : u2.met = s.met := by
    unfold u2
    split
    · exact State.bump_frame .met rfl
    · rfl
  have h3 : u3.met.totals = (u2.addSite n nj).met.totals := State.addTo_totals ..
  have h4 : u4.met.totals = u3.met.totals := by
    unfold u4
    split
    · exact State.markEstimated_totals ..
    · rfl
  rw [State.addSite_totals, h2] at h3
  exact h4.trans h3

theorem State.marked_steady : s.CapsSteady (s.marked start len n) := by
  unfold State.marked
  refine State.CapsSteady.trans ?_ (State.CapsSteady.foldl (fun u (m : Mark) => .markNow u n m.begins m.id (max m.time start)) _)
  exact State.CapsSteady.of_cap rfl

/-- The marks that lie ahead once an interval has ended. -/
def State.stillAhead : List Mark := s.met.ahead.filter fun m => !(m.site == n && decide (m.time < start + len))

theorem State.marked_totals : (s.marked start len n).met.totals = (s.met.energy, s.met.tray, s.met.busI, s.stillAhead start len n) := by
  unfold State.marked
  exact foldl_keeps (f := fun (s : State) (m : Mark) => s.markNow n m.begins m.id (max m.time start)) (fun u : State => u.met.totals)
    (fun u m _ => u.markNow_totals ..) _

theorem State.marked_none (h : s.met.ahead = []) : s.marked start len n = s := by
  have hm : ({ s.met with ahead := [] } : Meter) = s.met := by rw [← h]
  unfold State.marked State.dueMarks
  rw [h]
  show ({ s with met := { s.met with ahead := [] } } : State) = s
  rw [hm]

/-! ## The interval of one site, seen from it and from another -/

theorem State.siteInterval_frame : s.onlyChanges [.cap, .met, .pnt, .chi, .cal, .jrn, .evt] (s.siteInterval start len n) :=
  (State.siteInterval_touches rfl (.refl _ s)).only

theorem State.siteInterval_totals : (s.siteInterval start len n).met.totals = (Tbl.set s.met.energy n
    ((Tbl.get {} s.met.energy n : Energy).add (intervalNj (s.sitePower n).1 len)).1, s.met.tray, s.met.busI, s.stillAhead start len n) := by
  have hi := s.integrated_totals start len n
  simp only [Meter.totals, Prod.mk.injEq] at hi
  obtain ⟨henergy, htray, hbus, hahead⟩ := hi
  obtain ⟨x, hx⟩ := s.siteInterval_eq start len n
  rw [hx, State.setPeaks_totals, State.marked_totals]
  rw [State.stillAhead, henergy, htray, hbus, hahead, State.stillAhead]

theorem State.siteInterval_site : ((s.siteInterval start len n).capS n).steady =
    ({ s.capS n with power := (s.sitePower n).1, lastValid := (s.sitePower n).1, prodSum := 0, prodN := 0 } : SiteCap).steady := by
  obtain ⟨x, hx⟩ := s.siteInterval_eq start len n
  rw [hx, State.capS_congr (State.setPeaks_cap ..)]
  exact ((State.marked_steady ..).site n).trans (s.integrated_site start len n)

theorem State.siteInterval_other {m : Nat} (h : m ≠ n) : ((s.siteInterval start len n).capS m).steady = (s.capS m).steady := by
  obtain ⟨x, hx⟩ := s.siteInterval_eq start len n
  rw [hx, State.capS_congr (State.setPeaks_cap ..)]
  exact ((State.marked_steady ..).site m).trans (congrArg SiteCap.steady (s.integrated_other start len n h))

/-- With no mark ahead nothing of another site changes, and none comes up. -/
theorem State.siteInterval_unmarked (ha : s.met.ahead = []) : (s.siteInterval start len n).met.ahead = [] ∧
    ∀ m, m ≠ n → (s.siteInterval start len n).capS m = s.capS m := by
  obtain ⟨x, hx⟩ := s.siteInterval_eq start len n
  have hi : (s.integrated start len n).met.ahead = [] := by
    have := s.integrated_totals start len n
    rw [ha] at this
    exact congrArg (fun x => x.2.2.2) this
  rw [hx, State.marked_none _ _ _ _ hi]
  exact ⟨hi, fun m hm => (State.capS_congr (State.setPeaks_cap ..) m).trans (s.integrated_other start len n hm)⟩

end Interval
end Sys2Proof.Machine
end


section
/-!
SUPPORT. The metering interval as a whole: the sites one after another, and then the tray (R210, R211, R228).
-/
namespace Sys2Proof.Machine

variable {s t : State} {n : Nat}

/-! ## What a site's power depends on (R210, R213) -/

theorem State.capOf_congr (h : t.maq = s.maq) (n : Nat) : t.capOf n = s.capOf n := by
  rw [State.capOf, State.caps_congr h]
  rfl

theorem State.chanOf_congr (h : t.maq = s.maq) (g kind : Nat) : t.chanOf g kind = s.chanOf g kind := by
  rw [State.chanOf, State.surveyMap, State.sec_congr h, h]
  rfl

theorem State.sitePower_congr (hm : t.maq = s.maq) (hv : t.svy = s.svy) (he : t.capEntryNow n = s.capEntryNow n)
    (hc : (t.capS n).steady = (s.capS n).steady) : t.sitePower n = s.sitePower n := by
  have hstale : t.meterStale n = s.meterStale n := by
    have hch (c : Nat) : t.chan c = s.chan c := State.chan_congr hv c
    unfold State.meterStale State.meterChans
    simp only [he, State.chanOf_congr hm, hch]
  unfold State.sitePower
  dsimp only
  rw [hstale, SiteCap.of_steady SiteCap.lastValid hc, SiteCap.of_steady SiteCap.prodN hc, SiteCap.of_steady SiteCap.prodSum hc,
    SiteCap.of_steady SiteCap.prodLast hc]

theorem State.capEntryNow_free (h : (s.capS n).entry = none) : s.capEntryNow n = s.capOf n := by
  rw [State.capEntryNow, h]

theorem State.capEntryNow_congr (hm : t.maq = s.maq) (hc : t.capS n = s.capS n) : t.capEntryNow n = s.capEntryNow n := by
  rw [State.capEntryNow, hc, State.capOf_congr hm]
  rfl

/-! ## The sites of an interval -/

section Sites
variable (s) (start len : Nat)

/-- The eight sites' intervals. -/
def State.sitesInterval : State := (List.range 8).foldl (fun s n => s.siteInterval start len n) s

theorem State.sitesInterval_frame : s.onlyChanges [.cap, .met, .pnt, .chi, .cal, .jrn, .evt] (s.sitesInterval start len) :=
  (Touches.foldl (f := fun s n => State.siteInterval s start len n) (fun _ _ h => State.siteInterval_touches rfl h) (.refl _ s)).only

/-- Of the tray's totals and the bus current the sites change nothing. -/
theorem State.sitesInterval_tray : (s.sitesInterval start len).met.tray = s.met.tray ∧ (s.sitesInterval start len).met.busI = s.met.busI := by
  have one (u : State) (m : Nat) := u.siteInterval_totals start len m
  unfold State.sitesInterval
  exact ⟨foldl_keeps (f := fun s n => State.siteInterval s start len n) (fun u => u.met.tray)
      (fun u m _ => congrArg (fun x => x.2.1) (one u m)) s,
    foldl_keeps (f := fun s n => State.siteInterval s start len n) (fun u => u.met.busI)
      (fun u m _ => congrArg (fun x => x.2.2.1) (one u m)) s⟩

theorem State.siteInterval_energy (u : State) : Tbl.get {} (u.siteInterval start len n).met.energy n =
    ((Tbl.get {} u.met.energy n : Energy).add (intervalNj (u.sitePower n).1 len)).1 := by
  rw [show (u.siteInterval start len n).met.energy = _ from congrArg (fun x => x.1) (u.siteInterval_totals start len n)]
  exact Tbl.get_set_same ..

theorem State.siteInterval_energy_other (u : State) {m : Nat} (h : m ≠ n) :
    Tbl.get ({} : Energy) (u.siteInterval start len m).met.energy n = Tbl.get {} u.met.energy n := by
  rw [show (u.siteInterval start len m).met.energy = _ from congrArg (fun x => x.1) (u.siteInterval_totals start len m)]
  exact Tbl.get_set_other _ _ _ (Ne.symm h)

variable {s}

theorem State.sitesInterval_prodN (hn : n < 8) : ((s.sitesInterval start len).capS n).prodN = 0 := by
  obtain ⟨u, -, -, he⟩ := foldl_once (f := fun s n => State.siteInterval s start len n) (P := fun _ => True) (fun u => (u.capS n).prodN)
    List.nodup_range (List.mem_range.2 hn) (fun _ _ h => h)
    (fun u m _ hm => SiteCap.of_steady SiteCap.prodN (u.siteInterval_other start len m (Ne.symm hm))) (s := s) trivial
  rw [State.sitesInterval, he]
  exact (SiteCap.of_steady SiteCap.prodN (u.siteInterval_site start len n)).trans rfl

/-- A site whose CAPS entry no mark can change in the interval takes the power that it has at its beginning, and its energy. -/
theorem State.sitesInterval_site (hn : n < 8) (h : s.met.ahead = [] ∨ (s.capS n).entry = none) :
    ((s.sitesInterval start len).capS n).power = (s.sitePower n).1 ∧
    Tbl.get {} (s.sitesInterval start len).met.energy n =
      ((Tbl.get {} s.met.energy n : Energy).add (intervalNj (s.sitePower n).1 len)).1 := by
  suffices hs : ∃ u : State, u.sitePower n = s.sitePower n ∧ Tbl.get {} u.met.energy n = Tbl.get ({} : Energy) s.met.energy n ∧
      ((s.sitesInterval start len).capS n).steady = ((u.siteInterval start len n).capS n).steady ∧
      Tbl.get ({} : Energy) (s.sitesInterval start len).met.energy n = Tbl.get {} (u.siteInterval start len n).met.energy n by
    obtain ⟨u, hp, henergy, hsite, htotal⟩ := hs
    rw [htotal, State.siteInterval_energy, henergy, hp, SiteCap.of_steady SiteCap.power hsite, ← hp]
    exact ⟨(SiteCap.of_steady SiteCap.power (u.siteInterval_site start len n)).trans rfl, rfl⟩
  have part {p : Part} (hp : [Part.cap, .met, .pnt, .chi, .cal, .jrn, .evt].contains p = false) (u : State) (m : Nat) (hu : p.same s u) :
      p.same s (u.siteInterval start len m) := Part.same_trans hu (u.siteInterval_frame start len m p hp)
  rcases h with ha | hf
  · obtain ⟨u, ⟨hm, hv, -⟩, hg, he⟩ := foldl_once (f := fun s n => State.siteInterval s start len n)
      (P := fun u => u.maq = s.maq ∧ u.svy = s.svy ∧ u.met.ahead = []) (fun u => (u.capS n, Tbl.get ({} : Energy) u.met.energy n))
      List.nodup_range (List.mem_range.2 hn)
      (fun u m hu => ⟨part (p := .maq) rfl u m hu.1, part (p := .svy) rfl u m hu.2.1, (u.siteInterval_unmarked start len m hu.2.2).1⟩)
      (fun u m hu hm => Prod.ext ((u.siteInterval_unmarked start len m hu.2.2).2 n (Ne.symm hm)) (u.siteInterval_energy_other start len hm))
      (s := s) ⟨rfl, rfl, ha⟩
    obtain ⟨hc, henergy⟩ := Prod.mk.inj hg
    obtain ⟨hc', henergy'⟩ := Prod.mk.inj he
    exact ⟨u, State.sitePower_congr hm hv (State.capEntryNow_congr hm hc) (congrArg _ hc), henergy, congrArg _ hc', henergy'⟩
  · obtain ⟨u, ⟨hm, hv⟩, hg, he⟩ := foldl_once (f := fun s n => State.siteInterval s start len n)
      (P := fun u => u.maq = s.maq ∧ u.svy = s.svy) (fun u => ((u.capS n).steady, Tbl.get ({} : Energy) u.met.energy n))
      List.nodup_range (List.mem_range.2 hn) (fun u m hu => ⟨part (p := .maq) rfl u m hu.1, part (p := .svy) rfl u m hu.2⟩)
      (fun u m _ hm => Prod.ext (u.siteInterval_other start len m (Ne.symm hm)) (u.siteInterval_energy_other start len hm))
      (s := s) ⟨rfl, rfl⟩
    obtain ⟨hc, henergy⟩ := Prod.mk.inj hg
    obtain ⟨hc', henergy'⟩ := Prod.mk.inj he
    have hfree : (u.capS n).entry = none := (SiteCap.of_steady SiteCap.entry hc).trans hf
    refine ⟨u, State.sitePower_congr hm hv ?_ hc, henergy, hc', henergy'⟩
    rw [State.capEntryNow_free hfree, State.capEntryNow_free hf, State.capOf_congr hm]

end Sites

/-! ## The tray of an interval (R211, R228) -/

/-- The bus samples that an interval counts: those it brings, or the bus as last measured (log 87). -/
def State.busOf (s : State) (bus : List (Nat × Int)) : List (Nat × Int) :=
  if bus = [] then [(s.snap.busV, s.met.busI)] else s.busSamples bus

/-- The mean of the products of the bus samples [mW] (R211). -/
def trayPower (b : List (Nat × Int)) : Int := roundDiv ((b.map fun x => (x.1 : Int) * x.2).foldl (· + ·) 0) (100 * b.length)

theorem State.addTray_met (s : State) (nj : Nat) : (s.addTray nj).met = { s.met with tray := (s.met.tray.add nj).1 } := by
  unfold State.addTray
  extract_lets r m u
  split
  · exact u.event_met ..
  · rfl

theorem State.busSeen_met (s : State) (v : Nat) (i : Int) : (s.busSeen v i).met = { s.met with busI := i } := by
  unfold State.busSeen
  extract_lets _ _ u
  split <;> rfl

theorem State.trayInterval_met (s : State) (len : Nat) (bus : List (Nat × Int)) :
    (s.trayInterval len bus).met.energy = s.met.energy ∧
    (s.trayInterval len bus).met.tray = (s.met.tray.add (intervalNj (trayPower (s.busOf bus)) len)).1 := by
  unfold State.trayInterval
  extract_lets b sum p sites s1 s2 k hold s3 m
  have h1 : s1.met.energy = s.met.energy ∧ s1.met.tray = s.met.tray :=
    List.foldlRecOn (motive := fun u : State => u.met.energy = s.met.energy ∧ u.met.tray = s.met.tray) b _ ⟨rfl, rfl⟩ fun u hu x _ => by
      rw [State.busSeen_met]
      exact hu
  have h2 : s2.met = { s1.met with tray := (s1.met.tray.add (intervalNj p len)).1 } := s1.addTray_met _
  show s2.met.energy = _ ∧ s2.met.tray = _
  rw [h2]
  refine ⟨h1.1, ?_⟩
  show (s1.met.tray.add (intervalNj p len)).1 = _
  rw [h1.2]
  rfl

theorem State.busCorrect_congr (h0 : t.flash0 = s.flash0) (h1 : t.flash1 = s.flash1) (v : Nat) (i : Int) :
    t.busCorrect v i = s.busCorrect v i := by
  have hf (dev : Nat) : t.flash dev = s.flash dev := by
    unfold State.flash
    rw [h0, h1]
  have hc (dev : Nat) : t.mcalCopy dev = s.mcalCopy dev := by
    unfold State.mcalCopy State.fread
    rw [hf]
  unfold State.busCorrect State.mcal
  rw [hc, hc]

theorem State.busOf_sitesInterval (s : State) (start len : Nat) (bus : List (Nat × Int)) :
    (s.sitesInterval start len).busOf bus = s.busOf bus := by
  have hf := s.sitesInterval_frame start len
  have hv : (s.sitesInterval start len).snap = s.snap := hf .snap rfl
  unfold State.busOf State.busSamples
  rw [hv, (s.sitesInterval_tray start len).2]
  simp only [State.busCorrect_congr (hf .flash0 rfl) (hf .flash1 rfl)]

/-! ## The command (R210) -/

theorem State.meterEnd_eq (s : State) (start len : Nat) (bus : List (Nat × Int)) :
    s.meterEnd start len bus = (s.sitesInterval start len).trayInterval len bus := rfl

theorem State.meterEnd_capS (s : State) (start len : Nat) (bus : List (Nat × Int)) (n : Nat) :
    (s.meterEnd start len bus).capS n = (s.sitesInterval start len).capS n := by
  rw [State.meterEnd_eq]
  exact State.capS_congr ((State.trayInterval_touches (ps := [.snap, .rel, .met, .evt]) rfl (.refl _ _)).only .cap rfl) n

theorem State.meterEnd_tray (s : State) (start len : Nat) (bus : List (Nat × Int)) :
    (s.meterEnd start len bus).met.tray = (s.met.tray.add (intervalNj (trayPower (s.busOf bus)) len)).1 := by
  rw [State.meterEnd_eq, (State.trayInterval_met ..).2, State.busOf_sitesInterval, (s.sitesInterval_tray start len).1]

/-- The interval's end, and metering's own time. -/
def State.meterAt (s : State) (stop : Nat) (core : Bool) : State :=
  { s with met := { s.met with start := stop, base := if core then s.met.base else (stop : Int) - s.pnt.count } }

theorem meteringIntervalEnd_effect (hs : s.pwr.standby = true) (bus : List (Nat × Int)) {stop len : Nat}
    (hstop : stop = max (s.mtime / 100000 * 100000) ((s.met.start / 100000 + 1) * 100000))
    (hlen : len = stop - max s.met.start (stop - 100000)) : Completes (.meteringIntervalEnd bus) s fun t =>
      t.met.start = stop ∧ len ≤ 100000 ∧ (s.pwr.core = false → (t.pnt.count + t.met.base).toNat = stop) ∧
      (∀ n, n < 8 → (t.capS n).prodN = 0) ∧
      (∀ n, n < 8 → s.met.ahead = [] ∨ (s.capS n).entry = none → (t.capS n).power = (s.sitePower n).1 ∧
        Tbl.get {} t.met.energy n = ((Tbl.get {} s.met.energy n : Energy).add (intervalNj (s.sitePower n).1 len)).1) ∧
      (bus ≠ [] → t.met.tray = (s.met.tray.add (intervalNj (roundDiv
        (((s.busSamples bus).map fun x => (x.1 : Int) * x.2).foldl (· + ·) 0) (100 * bus.length)) len)).1) ∧
      (bus = [] → t.met.tray = (s.met.tray.add (intervalNj (roundDiv ((s.snap.busV : Int) * s.met.busI) 100) len)).1) := by
  let start := max s.met.start (stop - 100000)
  let u := s.meterEnd start len bus
  have he : exec (.meteringIntervalEnd bus) s = .next (u.meterAt stop u.pwr.core) := by
    rw [show exec (.meteringIntervalEnd bus) s = execMeteringIntervalEnd bus s from rfl, execMeteringIntervalEnd, standbyDo_on hs]
    subst hlen hstop
    rfl
  have hpwr : u.pwr = s.pwr := (State.meterEnd_touches (ps := [.snap, .cap, .rel, .met, .pnt, .chi, .cal, .jrn, .evt]) rfl (.refl _ s)).only .pwr rfl
  have hcap (n : Nat) : (u.meterAt stop u.pwr.core).capS n = (s.sitesInterval start len).capS n := s.meterEnd_capS start len bus n
  have htray : (u.meterAt stop u.pwr.core).met.tray = _ := s.meterEnd_tray start len bus
  refine completes_of he ⟨rfl, by omega, fun hc => ?_, fun n hn => ?_, fun n hn h => ?_, fun hb => ?_, fun hb => ?_⟩
  · have hbase : (u.meterAt stop u.pwr.core).met.base = (stop : Int) - u.pnt.count := if_neg (by rw [hpwr, hc]; exact Bool.false_ne_true)
    rw [hbase]
    show ((u.pnt.count : Int) + ((stop : Int) - u.pnt.count)).toNat = stop
    omega
  · rw [hcap, State.sitesInterval_prodN start len hn]
  · obtain ⟨hpower, henergy⟩ := State.sitesInterval_site start len hn h
    rw [hcap]
    refine ⟨hpower, Eq.trans ?_ henergy⟩
    exact congrArg (fun e => Tbl.get {} e n) ((s.sitesInterval start len).trayInterval_met len bus).1
  · rw [htray, State.busOf, if_neg hb, trayPower, State.busSamples, List.length_map]
  · rw [htray, State.busOf, if_pos hb]
    simp [trayPower]

end Sys2Proof.Machine
end


section
/-!
SUPPORT. Metering: the windows, telemetry records, job marks and the release of a job, and PEAK_CLR (R208, R209, R229 to R234).
-/
namespace Sys2Proof.Machine

variable {s : State} {n : Nat}

/-! ## The windows of 1 ms and 1 s (R233) -/

theorem State.peakWindow_other {m : Nat} (h : n ≠ m) : (s.peakWindow m).peaks n = s.peaks n := by
  unfold State.peakWindow
  extract_lets k mn ms
  split
  · rfl
  · exact s.peaks_setPeaks_other m _ h

theorem State.peakWindow_empty (h : (s.peaks n).cur = []) : (s.peakWindow n).peaks n = s.peaks n := by
  rw [State.peakWindow, if_pos h]

theorem State.peakWindow_full (h : (s.peaks n).cur ≠ []) : ((s.peakWindow n).peaks n).cur = [] ∧
    ((s.peakWindow n).peaks n).avg1ms = mean (s.peaks n).cur ∧ ((s.peakWindow n).peaks n).peak1ms = greatest (s.peaks n).cur ∧
    ((s.peakWindow n).peaks n).avg1s = mean ((mean (s.peaks n).cur :: (s.peaks n).ms).take 1000) := by
  rw [State.peakWindow, if_neg h, State.peaks_setPeaks_same]
  exact ⟨rfl, rfl, rfl, rfl⟩

theorem State.secWindow_other {m : Nat} (h : n ≠ m) : (s.secWindow m).peaks n = s.peaks n := by
  unfold State.secWindow
  extract_lets k l
  split
  · rfl
  · exact s.peaks_setPeaks_other m _ h

theorem State.secWindow_full (h : (s.peaks n).secN ≠ 0) : ((s.secWindow n).peaks n).secN = 0 ∧
    ((s.secWindow n).peaks n).avg60s = mean ((roundDiv (s.peaks n).secSum (s.peaks n).secN :: (s.peaks n).secs60).take 60) := by
  rw [State.secWindow, if_neg h, State.peaks_setPeaks_same]
  exact ⟨rfl, rfl⟩

/-- A window that each of the nine metered things ends for itself alone: each finds its peaks as they stood before all. -/
theorem windows_once {f : State → Nat → State} (hf : ∀ (u : State) (m k : Nat), k ≠ m → (f u m).peaks k = u.peaks k) (hn : n < 9) :
    ∃ u : State, u.peaks n = s.peaks n ∧ ((List.range 9).foldl f s).peaks n = (f u n).peaks n := by
  obtain ⟨u, -, hu, he⟩ := foldl_once (f := f) (P := fun _ => True) (fun u => u.peaks n) List.nodup_range (List.mem_range.2 hn)
    (fun _ _ h => h) (fun u m _ hm => hf u m n (Ne.symm hm)) (s := s) trivial
  exact ⟨u, hu, he⟩

/-- The bus samples of a window that ends, towards P_nonsite (R211). -/
def State.nonsiteWindow (s : State) : State := if s.met.nsCur = [] then s
  else { s with met := { s.met with nonsite := (mean s.met.nsCur :: s.met.nonsite).take 1000, nsCur := [] } }

theorem State.nonsiteWindow_peaks (s : State) (n : Nat) : s.nonsiteWindow.peaks n = s.peaks n := by
  unfold State.nonsiteWindow
  split <;> rfl

theorem powerWindow1msEnd_effect (hs : s.pwr.standby = true) : Completes .powerWindow1msEnd s fun t => ∀ n, n < 9 →
    ((s.peaks n).cur = [] → t.peaks n = s.peaks n) ∧
    ((s.peaks n).cur ≠ [] → (t.peaks n).cur = [] ∧ (t.peaks n).avg1ms = mean (s.peaks n).cur ∧
      (t.peaks n).peak1ms = greatest (s.peaks n).cur ∧
      (t.peaks n).avg1s = mean ((mean (s.peaks n).cur :: (s.peaks n).ms).take 1000)) := by
  have he : exec .powerWindow1msEnd s = .next ((List.range 9).foldl State.peakWindow s).nonsiteWindow := by
    rw [show exec .powerWindow1msEnd s = execPowerWindow1msEnd s from rfl, execPowerWindow1msEnd, standbyDo_on hs]
    rfl
  refine completes_of he fun n hn => ?_
  obtain ⟨u, hu, ht⟩ := windows_once (s := s) (f := State.peakWindow) (fun _ _ _ h => State.peakWindow_other h) hn
  rw [State.nonsiteWindow_peaks, ht, ← hu]
  exact ⟨State.peakWindow_empty, State.peakWindow_full⟩

theorem powerWindow1sEnd_effect (hs : s.pwr.standby = true) : Completes .powerWindow1sEnd s fun t => ∀ n, n < 9 →
    (s.peaks n).secN ≠ 0 → (t.peaks n).secN = 0 ∧
      (t.peaks n).avg60s = mean ((roundDiv (s.peaks n).secSum (s.peaks n).secN :: (s.peaks n).secs60).take 60) := by
  have he : exec .powerWindow1sEnd s = .next ((List.range 9).foldl State.secWindow s) := by
    rw [show exec .powerWindow1sEnd s = execPowerWindow1sEnd s from rfl, execPowerWindow1sEnd, standbyDo_on hs]
  refine completes_of he fun n hn hsec => ?_
  obtain ⟨u, hu, ht⟩ := windows_once (s := s) (f := State.secWindow) (fun _ _ _ h => State.secWindow_other h) hn
  rw [← hu] at hsec ⊢
  rw [ht]
  exact State.secWindow_full hsec

/-! ## Telemetry records (R208) -/

section Telemetry
variable {rec : Bytes}

theorem State.useTelemetry_fresh (h : (s.capS n).seen.contains (u32 rec 4) = false) : ((s.useTelemetry n rec).capS n).telem = some rec ∧
    ((s.useTelemetry n rec).capS n).telemStale = false ∧ ((s.useTelemetry n rec).capS n).telemAt = s.plinth := by
  unfold State.useTelemetry
  extract_lets c imp u h' v
  rw [if_pos (by rw [show c.seen = (s.capS n).seen from rfl, h]; rfl)]
  have hv : (if imp && !c.implausible then v.capEvent n 5 c.cap (v.peaks n).avg1ms 0 else v).capS n =
      { c with telem := some rec, telemAt := s.plinth, telemStale := false, implausible := imp
               seen := (u32 rec 4 :: c.seen).take 256 } := by
    refine Eq.trans ?_ (s.capS_setCapS_same n _)
    split
    · exact State.capS_congr (State.capEvent_frame _ _ _ _ _ _ .cap rfl) n
    · rfl
  rw [hv]
  exact ⟨rfl, rfl, rfl⟩

theorem State.useTelemetry_seen (h : (s.capS n).seen.contains (u32 rec 4) = true) : s.useTelemetry n rec = s := by
  rw [State.useTelemetry, h]
  rfl

theorem State.useTelemetry_ebx (s : State) (n : Nat) (rec : Bytes) : (s.useTelemetry n rec).ebx = s.ebx :=
  (State.useTelemetry_touches (ps := [.log, .cap, .chi, .evt]) rfl (.refl _ s)).only .ebx rfl

/-- Telemetry records are not shadowed (R482). -/
theorem State.shadowRec_telemetry (s : State) (rec : Bytes) : s.shadowRec 1 rec = s := by simp [State.shadowRec]

theorem State.siteMsg_warden {typ len : Nat} {f : Nat → State → State} (hl : rec.length = len) (ht : u8 rec 0 = typ) (hn : u8 rec 1 < 8) :
    s.siteMsg none rec typ len f = f (u8 rec 1) (s.shadowRec typ rec) := if_pos ⟨hl, ht, hn⟩

variable (hl : rec.length = 64) (ht : u8 rec 0 = 1) (hr : u8 rec 1 = n) (hn : n < 8)
include hl ht hr hn

theorem wardenTelemetryPoll_exec (hs : s.pwr.standby = true) : exec (.wardenTelemetryPoll n (some rec)) s = .next (s.useTelemetry n rec) := by
  subst hr
  rw [show exec (.wardenTelemetryPoll (u8 rec 1) (some rec)) s = execWardenTelemetryPoll (u8 rec 1) (some rec) s from rfl,
    execWardenTelemetryPoll, standbyDo_on hs]
  dsimp only
  rw [if_pos rfl, State.siteMsg_warden hl ht hn, State.shadowRec_telemetry]

theorem telemetryRecord_exec (hs : s.pwr.standby = true) {port src : Nat} (hc : s.pwr.core = true) (hf : s.pwr.fabric = true)
    (hu : s.ebx.up.getLsbD port = true) (he : Tbl.get 0xFFFF s.ebx.siteEp n = src) :
    exec (.telemetryRecord port src rec) s = .next ((s.credit port 2 3).useTelemetry n rec) := by
  subst hr
  rw [show exec (.telemetryRecord port src rec) s = execTelemetryRecord port src rec s from rfl, execTelemetryRecord, standbyDo_on hs,
    State.siteMsg]
  dsimp only
  rw [hc, hf, hu, hl, if_pos (by rfl), if_pos ⟨rfl, ht, hn, he⟩, State.shadowRec_telemetry]
  rfl

theorem telemetry_effect (hs : s.pwr.standby = true) :
    (Completes (.wardenTelemetryPoll n (some rec)) s fun t =>
      ((s.capS n).seen.contains (u32 rec 4) = false → (t.capS n).telem = some rec ∧ (t.capS n).telemStale = false ∧
        (t.capS n).telemAt = s.plinth) ∧
      ((s.capS n).seen.contains (u32 rec 4) = true → t = s)) ∧
    (∀ port src, s.pwr.core = true → s.pwr.fabric = true → s.ebx.up.getLsbD port = true → Tbl.get 0xFFFF s.ebx.siteEp n = src →
      Completes (.telemetryRecord port src rec) s fun t =>
        ((s.capS n).seen.contains (u32 rec 4) = false → (t.capS n).telem = some rec ∧ (t.capS n).telemStale = false) ∧
        t.ebx = (s.credit port 2 3).ebx) := by
  refine ⟨completes_of (wardenTelemetryPoll_exec hl ht hr hn hs) ⟨State.useTelemetry_fresh, State.useTelemetry_seen⟩,
    fun port src hc hf hu he => completes_of (telemetryRecord_exec hl ht hr hn hs hc hf hu he) ⟨fun hfresh => ?_, State.useTelemetry_ebx ..⟩⟩
  obtain ⟨htelem, hstale, -⟩ := State.useTelemetry_fresh (s := s.credit port 2 3) hfresh
  exact ⟨htelem, hstale⟩

end Telemetry

theorem wardenTelemetryPoll_unanswered (hs : s.pwr.standby = true) : Completes (.wardenTelemetryPoll n none) s fun t => t = s := by
  have he : exec (.wardenTelemetryPoll n none) s = .next s := by
    rw [show exec (.wardenTelemetryPoll n none) s = execWardenTelemetryPoll n none s from rfl, execWardenTelemetryPoll, standbyDo_on hs]
  exact completes_of he rfl

theorem telemetryStaleTimeout_effect (hs : s.pwr.standby = true) (hr : (s.site n).st.runs = true) (hf : (s.capS n).telemStale = false) :
    Completes (.telemetryStaleTimeout n) s fun t =>
      t.capS n = { s.capS n with telemStale := true } ∧ s.onlyChanges [.cap, .log, .evt] t := by
  have he : exec (.telemetryStaleTimeout n) s = .next ((s.setCapS n { s.capS n with telemStale := true }).capEvent n 4 (s.capS n).cap
      (s.peaks n).avg1ms 0) := by
    rw [show exec (.telemetryStaleTimeout n) s = execTelemetryStaleTimeout n s from rfl, execTelemetryStaleTimeout, standbyDo_on hs]
    dsimp only
    rw [hr, hf]
    rfl
  refine completes_of he ⟨?_, only_of (execTelemetryStaleTimeout_touches rfl (.refl _ s)) he⟩
  rw [State.capS_congr (State.capEvent_frame _ _ _ _ _ _ .cap rfl), State.capS_setCapS_same]

/-! ## Job marks (R209, R229, R230) -/

theorem State.markFresh_first {seq : Nat} (h : Tbl.find? s.met.markSeq n = none) :
    s.markFresh n seq = ({ s with met := { s.met with markSeq := Tbl.set s.met.markSeq n seq } }, true) := by
  rw [State.markFresh, h]

theorem State.shadowRec_frame (s : State) (typ : Nat) (rec : Bytes) : s.onlyChanges [.out] (s.shadowRec typ rec) :=
  (State.shadowRec_touches rfl (.refl _ s)).only

/-- The first mark of a site that names a job, not before the current interval nor farther than 10 ms from now, lies ahead. -/
theorem State.jobMark_ahead {rec : Bytes} (hk : u8 rec 2 = 1 ∨ u8 rec 2 = 2) (hid : u64 rec 8 ≠ 0)
    (hfirst : Tbl.find? s.met.markSeq n = none) (hv : s.pnt.valid = true) (h0 : s.met.start ≤ u64 rec 0x10)
    (hlate : s.pnt.count ≤ u64 rec 0x10 + 10000000) (hearly : u64 rec 0x10 ≤ s.pnt.count + 10000000) :
    (s.jobMark n rec).met = { s.met with markSeq := Tbl.set s.met.markSeq n (u32 rec 4)
                                         ahead := s.met.ahead ++ [⟨n, u64 rec 0x10, u8 rec 2 == 1, u64 rec 8⟩] } := by
  have hkind : (u8 rec 2 == 1 || u8 rec 2 == 2) = true := by simpa using hk
  unfold State.jobMark
  rw [State.markFresh_first hfirst]
  dsimp only
  rw [hkind, hv, Bool.not_true, if_neg (by simpa using hid), if_neg Bool.false_ne_true, if_neg (by omega), if_neg (by omega), if_pos h0]

theorem jobMark_effect (hs : s.pwr.standby = true) {rec : Bytes} (hl : rec.length = 32) (ht : u8 rec 0 = 2) (hr : u8 rec 1 = n) (hn : n < 8)
    (hk : u8 rec 2 = 1 ∨ u8 rec 2 = 2) (hid : u64 rec 8 ≠ 0) (hfirst : Tbl.find? s.met.markSeq n = none) (hv : s.pnt.valid = true)
    (h0 : s.met.start ≤ u64 rec 0x10) (hlate : s.pnt.count ≤ u64 rec 0x10 + 10000000) (hearly : u64 rec 0x10 ≤ s.pnt.count + 10000000) :
    Completes (.jobMark none rec) s fun t =>
      t.met = { s.met with markSeq := Tbl.set s.met.markSeq n (u32 rec 4)
                           ahead := s.met.ahead ++ [⟨n, u64 rec 0x10, u8 rec 2 == 1, u64 rec 8⟩] } := by
  subst hr
  have he : exec (.jobMark none rec) s = .next ((s.shadowRec 2 rec).jobMark (u8 rec 1) rec) := by
    rw [show exec (.jobMark none rec) s = execJobMark none rec s from rfl, execJobMark, standbyDo_on hs, State.siteMsg_warden hl ht hn]
  have hmet : (s.shadowRec 2 rec).met = s.met := s.shadowRec_frame 2 rec .met rfl
  have hpnt : (s.shadowRec 2 rec).pnt = s.pnt := s.shadowRec_frame 2 rec .pnt rfl
  refine completes_of he ?_
  have hmark := State.jobMark_ahead (s := s.shadowRec 2 rec) (n := u8 rec 1) hk hid (by rwa [hmet]) (by rwa [hpnt]) (by rwa [hmet])
    (by rwa [hpnt]) (by rwa [hpnt])
  rwa [hmet] at hmark

/-! ## The release of a job (R231) -/

/-- One site's part in a job of a state goes to its SITE_ENERGY_RELEASED. -/
def Job.releaseSite (x : Job) (s : State) (n : Nat) : State :=
  let e : Energy := Tbl.get {} x.energy n
  let r := (Tbl.get {} s.met.released n).add (e.uj.toNat * 1000 + e.nj)
  let s := { s with met := { s.met with released := Tbl.set s.met.released n r.1 } }
  if r.2 then s.event 5 503 n 2 else s

theorem Job.releaseSite_released (x : Job) (s : State) (n : Nat) : (x.releaseSite s n).met.released = Tbl.set s.met.released n
    ((Tbl.get {} s.met.released n : Energy).add ((Tbl.get ({} : Energy) x.energy n).uj.toNat * 1000 + (Tbl.get ({} : Energy) x.energy n).nj)).1 := by
  unfold Job.releaseSite
  extract_lets e r u
  split
  · exact congrArg Meter.released (State.event_met ..)
  · rfl

theorem State.releaseJob_job (s : State) (j : Nat) : (s.releaseJob j).job j = {} := Tbl.get_set_same ..

theorem State.releaseJob_released (s : State) (j : Nat) : (s.releaseJob j).met.released =
    ((List.range 8).foldl (s.job j).releaseSite s).met.released := rfl

theorem State.releaseJob_site (s : State) (j : Nat) (hn : n < 8) : Tbl.get {} (s.releaseJob j).met.released n =
    ((Tbl.get {} s.met.released n : Energy).add
      ((Tbl.get ({} : Energy) (s.job j).energy n).uj.toNat * 1000 + (Tbl.get ({} : Energy) (s.job j).energy n).nj)).1 := by
  obtain ⟨u, -, hu, he⟩ := foldl_once (f := (s.job j).releaseSite) (P := fun _ => True) (fun u => Tbl.get ({} : Energy) u.met.released n)
    List.nodup_range (List.mem_range.2 hn) (fun _ _ h => h)
    (fun u m _ hm => by rw [Job.releaseSite_released]; exact Tbl.get_set_other _ _ _ (Ne.symm hm)) (s := s) trivial
  rw [State.releaseJob_released, he, Job.releaseSite_released, Tbl.get_set_same, hu]

theorem jobRelease_effect (hc : s.pwr.core = true) (r : Req) {j : Nat} (hj : j < 1024) (hst : (s.job j).st = 2) :
    Completes (.jobRelease r j) s fun t => t.job j = {} ∧
      (∀ n, n < 8 → Tbl.get {} t.met.released n = ((Tbl.get {} s.met.released n : Energy).add
        ((Tbl.get ({} : Energy) (s.job j).energy n).uj.toNat * 1000 + (Tbl.get ({} : Energy) (s.job j).energy n).nj)).1) ∧
      s.onlyChanges [.met, .evt] t := by
  have he : exec (.jobRelease r j) s = .next (s.releaseJob j) := by
    rw [show exec (.jobRelease r j) s = execJobRelease r j s from rfl, execJobRelease, coreDo_on hc, if_pos ⟨hj, hst⟩]
  exact completes_of he ⟨s.releaseJob_job j, fun n hn => s.releaseJob_site j hn, (State.releaseJob_touches rfl (.refl _ s)).only⟩

/-! ## PEAK_CLR (R234) -/

theorem peakClr_effect (hc : s.pwr.core = true) {r : Req} (hm : s.may r.principal .counterClear = true) (hn : n < 9) :
    Completes (.peakClr r n) s fun t => t = s.setPeaks n { s.peaks n with hold := 0, holdAt := 0, holdSet := false } := by
  have he : exec (.peakClr r n) s = .next (s.setPeaks n { s.peaks n with hold := 0, holdAt := 0, holdSet := false }) := by
    rw [show exec (.peakClr r n) s = execPeakClr r n s from rfl, execPeakClr, coreDo_on hc, withWriteRight_on hm, if_pos hn]
  exact completes_of he rfl

/-- Settles O16, command by command. The interval ends at its multiple of 100 us, or at the time that has passed; that P_nonsite is a mean
of windows, that an interval without a bus sample takes the bus as last measured, and that a site remembers the SEQ values it used are
DESIGN CHOICES of the model (logs 28, 87 and 86). -/
theorem meteringAndJobsTakeEffect : Obligations.MeteringAndJobsTakeEffect := by
  unfold Obligations.MeteringAndJobsTakeEffect
  refine fun s => ⟨fun hs => ⟨fun bus _ _ hstop hlen => meteringIntervalEnd_effect hs bus hstop hlen, powerWindow1msEnd_effect hs,
    powerWindow1sEnd_effect hs, fun _ _ hl ht hr hn => telemetry_effect hl ht hr hn hs, fun _ => wardenTelemetryPoll_unanswered hs,
    fun _ => telemetryStaleTimeout_effect hs,
    fun _ _ hl ht hr hn hk hid hfirst hv h0 hlate hearly => jobMark_effect hs hl ht hr hn hk hid hfirst hv h0 hlate hearly⟩,
    fun r _ hc hj hst => jobRelease_effect hc r hj hst, fun _ _ hc hm hn => peakClr_effect hc hm hn⟩

end Sys2Proof.Machine
end


section
/-!
SUPPORT. The software bounds as registers: a read of a floor that no signed register holds (R215).
-/
namespace Sys2Proof.Machine

/-- A state under a structure whose CAPS section is all ones: FLOOR_MW of every site is 2^32 - 1. The content check refuses such a section
(FLOOR_MW is 0 to 4,000,000 mW), so no structure that was stored becomes live with it, but the model's states hold it. -/
def wideFloor : State :=
  { State.reset with pwr := { core := true }, maq := { live := some { secs := [⟨0x0C, 0, 0, 0, List.replicate 0x140 0xFF⟩] } } }

theorem wideFloor_floor : cpFloor.val (wideFloor.capOf 0) = 2 ^ 32 - 1 := by decide

/-- The register saturates to the largest signed word. -/
theorem wideFloor_read : (wideFloor.readOut .armature armPrincipal 0x5010C).out = [.read .armature 0x5010C 0x7FFFFFFF] := by decide

/-- Refutes O49: the register of a software floor that no write has set shows FLOOR_MW saturated to its signed word, and the statement, over
every state, asks for it modulo 2^32. The two differ in `wideFloor`, under a structure with FLOOR_MW 0xFFFFFFFF. -/
theorem not_softwareBoundsStayWithinTheStructure : ¬ Obligations.SoftwareBoundsStayWithinTheStructure := by
  unfold Obligations.SoftwareBoundsStayWithinTheStructure
  intro h
  obtain ⟨-, -, hreads⟩ := h wideFloor ⟨.armature, armPrincipal, none, 0, false⟩ 0 0 rfl (by decide) rfl rfl (by decide)
  obtain ⟨-, hfloor, -⟩ := hreads (by decide)
  obtain ⟨t, he, hout⟩ := hfloor rfl
  have hread : exec (.snapshotLatchRead .armature armPrincipal 0x5010C) wideFloor = .next (wideFloor.readOut .armature armPrincipal 0x5010C) :=
    coreDo_on (f := fun s => s.readOut .armature armPrincipal 0x5010C) rfl
  rw [next_unique he hread, wideFloor_read, wideFloor_floor] at hout
  exact absurd hout (by decide)

end Sys2Proof.Machine
end


section
/-!
SUPPORT. Chisel: what its operations leave of a site's Chisel, and that they leave the other sites' alone.
-/
namespace Sys2Proof.Machine

variable {s t : State} {n : Nat} {α : Type}

theorem State.chiS_congr (h : t.chi = s.chi) (n : Nat) : t.chiS n = s.chiS n := by
  rw [State.chiS, h]
  rfl

/-- From `s` to `t` no site's capping changes, of the sites' Chisel that of `n` alone, and there `f` reads the same. -/
structure State.ChiKeeps (f : ChiselSite → α) (n : Nat) (s t : State) : Prop where
  site : f (t.chiS n) = f (s.chiS n)
  other : ∀ m, m ≠ n → t.chiS m = s.chiS m
  cap : t.cap = s.cap

/-- What the record and the allocation of an interval leave alone: ON, FROZEN, a commit and a command that wait, SEQ and the software
bounds. -/
def ChiselSite.orders (c : ChiselSite) : Bool × Bool × Bool × Option ChiselCmd × BitVec 32 × Tbl Nat × Tbl Nat :=
  (c.on, c.frozen, c.recommit, c.cmd, c.seq, c.swFloor, c.swCeil)

/-- What a command that is carried out leaves alone: ON, a commit and a further command that wait, and what an allocation has used and
given. -/
def ChiselSite.given (c : ChiselSite) : Bool × Bool × Option ChiselCmd × BitVec 32 × Option Bytes × Tbl Nat :=
  (c.on, c.recommit, c.cmd, c.seq, c.record, c.alloc)

theorem State.chiEvent_frame (s : State) (n kind mask budget count : Nat) :
    s.onlyChanges [.log, .evt] (s.chiEvent n kind mask budget count) := (State.chiEvent_touches rfl (.refl _ s)).only

namespace State.ChiKeeps

variable {f : ChiselSite → α}

theorem refl (f : ChiselSite → α) (n : Nat) (s : State) : s.ChiKeeps f n s := ⟨rfl, fun _ _ => rfl, rfl⟩

theorem trans {r : State} (h : r.ChiKeeps f n s) (h' : s.ChiKeeps f n t) : r.ChiKeeps f n t :=
  ⟨h'.site.trans h.site, fun m hm => (h'.other m hm).trans (h.other m hm), h'.cap.trans h.cap⟩

theorem symm (h : s.ChiKeeps f n t) : t.ChiKeeps f n s := ⟨h.site.symm, fun m hm => (h.other m hm).symm, h.cap.symm⟩

theorem ite {c : Prop} [Decidable c] {a b : State} (ha : s.ChiKeeps f n a) (hb : s.ChiKeeps f n b) :
    s.ChiKeeps f n (if c then a else b) := by split <;> assumption

theorem foldl {β : Type} {g : State → β → State} {l : List β} (hg : ∀ s b, State.ChiKeeps f n s (g s b)) (s : State) :
    s.ChiKeeps f n (l.foldl g s) :=
  List.foldlRecOn (motive := fun u => s.ChiKeeps f n u) l g (refl f n s) fun u hu b _ => hu.trans (hg u b)

theorem apart (h : s.ChiKeeps f n t) : s.ChiKeeps (fun _ => ()) n t := ⟨rfl, h.other, h.cap⟩

theorem setChiS {x : ChiselSite} (h : f x = f (s.chiS n)) : s.ChiKeeps f n (s.setChiS n x) :=
  ⟨by rw [State.chiS_setChiS_same, h], fun _ hm => s.chiS_setChiS_other n x hm, rfl⟩

/-- What changes neither Chisel nor the capping block. -/
theorem of_frame {ps : List Part} (h : s.onlyChanges ps t) (hchi : ps.contains .chi = false := by rfl)
    (hcap : ps.contains .cap = false := by rfl) : s.ChiKeeps f n t :=
  ⟨congrArg f (State.chiS_congr (h .chi hchi) n), fun m _ => State.chiS_congr (h .chi hchi) m, h .cap hcap⟩

theorem chiEvent (s : State) (kind mask budget count : Nat) : s.ChiKeeps f n (s.chiEvent n kind mask budget count) :=
  of_frame (s.chiEvent_frame n kind mask budget count)

theorem setChiS_event {x : ChiselSite} {kind mask budget count : Nat} (h : f x = f (s.chiS n) := by rfl) :
    s.ChiKeeps f n ((s.setChiS n x).chiEvent n kind mask budget count) := (setChiS h).trans (chiEvent _ ..)

theorem complete (s : State) (r : Req) (code : Nat) : s.ChiKeeps f n (s.complete r code 0 0) := of_frame (s.complete_frame r code 0 0)

theorem bumpChi (s : State) (n k : Nat) : s.ChiKeeps ChiselSite.orders n (s.bumpChi n k) :=
  (setChiS (x := { s.chiS n with cnts := Tbl.set (s.chiS n).cnts k (Tbl.get {} (s.chiS n).cnts k).inc.1 }) rfl).trans
    (of_frame State.bump_frame)

theorem setChiS_bump {x : ChiselSite} (k : Nat) (h : x.orders = (s.chiS n).orders) :
    s.ChiKeeps ChiselSite.orders n ((s.setChiS n x).bumpChi n k) := (setChiS h).trans (bumpChi _ n k)

end State.ChiKeeps

/-! ## The record of an interval (R246 to R251) -/

theorem ChiselSite.pick_orders (c : ChiselSite) (e rec : Bytes) (now : Nat) (learn : Bool) :
    (c.pick e rec now learn).1.orders = c.orders := by
  unfold ChiselSite.pick
  extract_lets near far k old
  split
  · split <;> split <;> rfl
  · rfl

theorem ChiselSite.confirm_orders (c : ChiselSite) (e : Bytes) (i now : Nat) : (c.confirm e i now).1.orders = c.orders := by
  unfold ChiselSite.confirm
  extract_lets k c'
  split
  · rfl
  · split
    · rfl
    · split <;> rfl

namespace State.ChiKeeps

theorem chiRecord (s : State) (n : Nat) : s.ChiKeeps ChiselSite.orders n (s.chiRecord n).1 := by
  unfold State.chiRecord
  extract_lets c s1 c1 row s2 s3
  split
  · exact bumpChi s n 20
  · have h1 : s.ChiKeeps ChiselSite.orders n s1 := setChiS rfl
    split
    · exact h1.trans (setChiS rfl)
    · have h2 : s1.ChiKeeps ChiselSite.orders n s2 := setChiS_bump 16 rfl
      have h3 : s2.ChiKeeps ChiselSite.orders n s3 := ite (chiEvent s2 ..) (refl _ n s2)
      exact ((h1.trans h2).trans h3).trans (bumpChi s3 n 20)

theorem classify (s : State) (n : Nat) (rec : Bytes) (doms : List (Nat × Nat)) :
    s.ChiKeeps ChiselSite.orders n (s.classify n rec doms) := by
  unfold State.classify
  extract_lets c e now learn
  have hp := c.pick_orders e rec now learn
  split
  · exact refl _ n s
  next c' i what hc =>
    extract_lets x c1 r s1 s2
    rw [hc] at hp
    have h1 : s.ChiKeeps ChiselSite.orders n s1 := setChiS ((c1.confirm_orders e i now).trans hp)
    have h2 : s1.ChiKeeps ChiselSite.orders n s2 := ite (bumpChi s1 n 17) (ite (bumpChi s1 n 18) (refl _ n s1))
    exact (h1.trans h2).trans (ite (bumpChi s2 n 19) (refl _ n s2))

/-! ## The allocation and its record (R254 to R257) -/

theorem allocate (s : State) (n : Nat) (fallback : Bool) (code : Option Nat) :
    s.ChiKeeps ChiselSite.orders n (s.allocate n fallback code) := by
  unfold State.allocate
  extract_lets l b ref fin c wasShort past src used s1 s2 s3
  have h1 : s.ChiKeeps ChiselSite.orders n s1 := setChiS rfl
  have h2 : s1.ChiKeeps ChiselSite.orders n s2 := by
    refine foldl (fun u x => ?_) s1
    extract_lets a bind v
    have hv : u.ChiKeeps ChiselSite.orders n v := ite (bumpChi u n x.k) (refl _ n u)
    exact hv.trans (ite (bumpChi v n (8 + x.k)) (refl _ n v))
  have h3 : s2.ChiKeeps ChiselSite.orders n s3 := bumpChi s2 n 21
  exact (h1.trans h2).trans (ite (h3.trans (ite (refl _ n s3) (chiEvent s3 ..))) (refl _ n s2))

end State.ChiKeeps

/-- An allocation record uses one SEQ. -/
theorem State.sendAlloc_chi (s : State) (n : Nat) : (s.sendAlloc n).chi = (s.setChiS n { s.chiS n with seq := (s.chiS n).seq + 1 }).chi := by
  unfold State.sendAlloc
  extract_lets c rec_ s1 ep
  split <;> rfl

theorem State.sendAlloc_cap (s : State) (n : Nat) : (s.sendAlloc n).cap = s.cap :=
  (State.sendAlloc_touches (ps := [.chi, .out]) rfl (.refl _ s)).only .cap rfl

end Sys2Proof.Machine
end


section
/-!
SUPPORT. Chisel at an interval's start: the structure's commit, and the command that waits (R66, R243, R262 to R266).
-/
namespace Sys2Proof.Machine

variable {s t : State} {n : Nat}

/-! ## A commit that waits (R66, R262, R263) -/

/-- A commit leaves the command that waits and the last allocation; with the site not in Still mode none waits on. -/
theorem State.chiCommit_site (s : State) (n : Nat) :
    s.ChiKeeps (fun c => (c.cmd, c.seq, c.record, c.alloc)) n (s.chiCommit n) ∧
    ((s.chiS n).still = false → ((s.chiCommit n).chiS n).recommit = false) := by
  unfold State.chiCommit
  extract_lets c new c1 c2
  have hc : (c2.cmd, c2.seq, c2.record, c2.alloc) = (c.cmd, c.seq, c.record, c.alloc) := by
    have h1 : (c1.cmd, c1.seq, c1.record, c1.alloc) = (c.cmd, c.seq, c.record, c.alloc) := by unfold c1; split <;> rfl
    rw [← h1]
    unfold c2
    split <;> rfl
  split
  next h =>
    refine ⟨.refl _ n s, fun hs => ?_⟩
    obtain h | ⟨h, -⟩ := h
    · exact absurd (hs.symm.trans h) Bool.false_ne_true
    · simpa using h
  next => exact ⟨.setChiS hc, fun _ => by rw [State.chiS_setChiS_same]⟩

/-- A commit reads the structure and the site's own Chisel. -/
theorem State.chiCommit_congr (hm : t.maq = s.maq) (hc : t.chiS n = s.chiS n) : (t.chiCommit n).chiS n = (s.chiCommit n).chiS n := by
  have hh : t.hasSec 0x0D = s.hasSec 0x0D := by unfold State.hasSec; rw [hm]
  unfold State.chiCommit
  simp only [hh, State.sec_congr hm, apply_ite (fun u : State => u.chiS n), State.chiS_setChiS_same, hc]

/-- Whether Chisel is on depends on the site, its domains and its Chisel (R243). -/
theorem State.chiselOn_congr (hs : t.seq = s.seq) (hd : (t.capS n).domains = (s.capS n).domains) (hc : t.chiS n = s.chiS n) :
    t.chiselOn n = s.chiselOn n := by
  unfold State.chiselOn
  rw [State.site_congr hs, hd, hc]

/-! ## The command that waits (R264, R266) -/

/-- The command acts only while firmware runs. -/
def State.chiServes (s : State) : Bool := s.pwr.armature && s.boot.run.isSome

/-- A command whose turn has come waits on where firmware does not run. -/
def State.cmdTurn (s : State) (n : Nat) : State := s.setChiS n { s.chiS n with cmd := if s.chiServes then none else (s.chiS n).cmd }

theorem State.loadImage_given (s : State) (n : Nat) (b : Bytes) : s.ChiKeeps ChiselSite.given n (s.loadImage n b) := by
  unfold State.loadImage
  extract_lets c cl cur
  exact .setChiS rfl

/-- A command that acts no longer waits; it leaves the other sites, ON, and what an allocation uses and gives alone. -/
theorem State.chiRun_acts {m : ChiselCmd} (on : Bool) (hm : (s.chiS n).cmd = some m) (hs : s.chiServes = true) :
    (s.setChiS n { s.chiS n with cmd := none }).ChiKeeps ChiselSite.given n (s.chiRun n on) := by
  unfold State.chiRun
  extract_lets c u c1 image
  split
  next h => exact absurd (hm.symm.trans h) nofun
  next m _ =>
    extract_lets done c2
    have settled {v : State} (code : Nat) (h : u.ChiKeeps ChiselSite.given n v) : u.ChiKeeps ChiselSite.given n (done v code) :=
      h.trans (.complete v m.req code)
    have answered (code : Nat) := settled code (.refl _ n u)
    have noted {v : State} (kind b : Nat) (h : u.ChiKeeps ChiselSite.given n v) :
        u.ChiKeeps ChiselSite.given n (done (v.chiEvent n kind 0 b 0) 0) := settled 0 (h.trans (.chiEvent v ..))
    rw [if_neg (by rw [State.chiServes] at hs; simp [hs])]
    refine .ite (answered _) (.ite ?freeze (.ite ?thaw (.ite ?reset (.ite ?give ?load))))
    case freeze | thaw => exact settled 0 (.setChiS rfl)
    case reset =>
      have hc : c2.given = c1.given := by unfold c2; split <;> rfl
      exact .ite (answered _) (noted 7 _ (.setChiS hc))
    case give =>
      refine .ite (answered _) ?_
      split
      · exact settled _ (.of_frame (ps := [.evt]) (State.ownViolation_touches rfl (.refl _ u)).only)
      · exact settled 0 (.of_frame (ps := [.mem, .ebx, .dram, .out]) (State.give_touches rfl (.refl _ u)).only)
    case load =>
      refine .ite (answered _) (.ite (answered _) ?_)
      split
      · exact answered _
      · exact .ite (answered _) (.ite (answered _) (noted 6 _ (u.loadImage_given n _)))

theorem State.chiRun_none (on : Bool) (h : (s.chiS n).cmd = none) : s.chiRun n on = s := by
  rw [State.chiRun, h]

theorem State.chiRun_waits (on : Bool) (h : s.chiServes = false) : s.chiRun n on = s := by
  unfold State.chiRun
  extract_lets c u c1 c2
  split
  · rfl
  · exact if_pos (by rw [State.chiServes] at h; rw [h]; rfl)

/-- So does the turn of whatever waits, or of nothing. -/
theorem State.chiRun_given (s : State) (n : Nat) (on : Bool) : (s.cmdTurn n).ChiKeeps ChiselSite.given n (s.chiRun n on) := by
  have idle (h : (if s.chiServes then none else (s.chiS n).cmd) = (s.chiS n).cmd) (hr : s.chiRun n on = s) :
      (s.cmdTurn n).ChiKeeps ChiselSite.given n (s.chiRun n on) := by
    rw [hr]
    exact .symm (.setChiS (by rw [h]))
  cases hs : s.chiServes with
  | false => exact idle (by rw [hs]; rfl) (s.chiRun_waits on hs)
  | true =>
    cases hm : (s.chiS n).cmd with
    | none => exact idle (by rw [hm, ite_self]) (s.chiRun_none on hm)
    | some m =>
      rw [State.cmdTurn, if_pos hs]
      exact s.chiRun_acts on hm hs

/-- FREEZE, or THAW, of a site whose Chisel is on, as the command that acts (R264). -/
def State.freezeNow (s : State) (n : Nat) (r : Req) (b : Bool) : State :=
  ((s.cmdTurn n).setChiS n { (s.cmdTurn n).chiS n with frozen := b }).complete r 0 0 0

theorem State.freezeNow_frozen (s : State) (n : Nat) (r : Req) (b : Bool) : ((s.freezeNow n r b).chiS n).frozen = b := by
  rw [State.freezeNow, State.chiS_congr (State.complete_frame _ r 0 0 0 .chi rfl), State.chiS_setChiS_same]

theorem State.chiRun_freeze {m : ChiselCmd} (hm : (s.chiS n).cmd = some m) (hs : s.chiServes = true) :
    (m.code = 1 → s.chiRun n true = s.freezeNow n m.req true) ∧ (m.code = 2 → s.chiRun n true = s.freezeNow n m.req false) := by
  have served : (s.pwr.armature && s.boot.run.isSome) = true := hs
  unfold State.freezeNow State.cmdTurn State.chiRun
  simp only [hs, hm, served, if_true]
  exact ⟨fun h => by simp [h], fun h => by simp [h]⟩

end Sys2Proof.Machine
end


section
/-!
SUPPORT. One site's Chisel interval, and the interval of all sites (R242, R257, R259 to R262).
-/
namespace Sys2Proof.Machine

variable {s t : State} {n : Nat}

/-! ## The steps of one site's interval -/

/-- The commit takes effect and ON is judged. -/
def State.chiJudged (s : State) (n : Nat) : State :=
  (s.chiCommit n).setChiS n { (s.chiCommit n).chiS n with on := (s.chiCommit n).chiselOn n }

/-- Then the command that waits acts. -/
def State.chiReady (s : State) (n : Nat) : State := (s.chiJudged n).chiRun n ((s.chiCommit n).chiselOn n)

/-- A run that asks for Still mode holds the site's caps (R217, R260). -/
def State.stillAsked (s : State) (n : Nat) : State :=
  if s.wantsStill n && !(s.capS n).still then
    (s.setCapS n { s.capS n with still := true, stillCap := (s.capS n).cap, entry := some (s.capOf n) }).throttleNote
  else s

theorem State.stillAsked_chi (s : State) (n : Nat) : (s.stillAsked n).chi = s.chi := by
  unfold State.stillAsked
  split
  · exact (State.throttleNote_touches (ps := [.log, .cap, .pnt, .evt]) rfl (.refl _ _)).only .chi rfl
  · rfl

theorem State.stillAsked_domains (s : State) (n k : Nat) : ((s.stillAsked n).capS k).domains = (s.capS k).domains := by
  unfold State.stillAsked
  split
  · rw [SiteCap.of_steady SiteCap.domains ((State.CapsSteady.throttleNote _).site k)]
    by_cases hk : k = n
    · subst hk
      exact (congrArg SiteCap.domains (State.capS_setCapS_same ..)).trans rfl
    · rw [State.capS_setCapS_other _ _ _ hk]
  · rfl

/-! ## Up to the command -/

section Ready
variable (s) (n)

theorem State.chiJudged_site : (s.chiJudged n).chiS n = { (s.chiCommit n).chiS n with on := (s.chiCommit n).chiselOn n } :=
  State.chiS_setChiS_same ..

theorem State.chiJudged_frame : s.onlyChanges [.chi] (s.chiJudged n) :=
  (State.setChiS_touches rfl (State.chiCommit_touches rfl (.refl _ s))).only

theorem State.chiJudged_serves : (s.chiJudged n).chiServes = s.chiServes := by
  rw [State.chiServes, s.chiJudged_frame n .pwr rfl, s.chiJudged_frame n .boot rfl]
  rfl

theorem State.chiJudged_cmd : ((s.chiJudged n).chiS n).cmd = (s.chiS n).cmd := by
  rw [State.chiJudged_site]
  exact congrArg (·.1) (s.chiCommit_site n).1.site

theorem State.chiReady_apart : s.ChiKeeps (fun _ => ()) n (s.chiReady n) := by
  have judged : s.ChiKeeps (fun _ => ()) n (s.chiJudged n) := (s.chiCommit_site n).1.apart.trans (.setChiS rfl)
  exact judged.trans (State.ChiKeeps.trans (.setChiS rfl) ((s.chiJudged n).chiRun_given n _).apart)

theorem State.chiReady_given : ((s.chiReady n).chiS n).given = ((s.chiCommit n).chiselOn n, ((s.chiCommit n).chiS n).recommit,
    if s.chiServes then none else (s.chiS n).cmd, (s.chiS n).seq, (s.chiS n).record, (s.chiS n).alloc) := by
  have hc := (s.chiCommit_site n).1.site
  simp only [Prod.mk.injEq] at hc
  obtain ⟨hcmd, hseq, hrec, halloc⟩ := hc
  refine ((s.chiJudged n).chiRun_given n ((s.chiCommit n).chiselOn n)).site.trans ?_
  rw [State.cmdTurn, State.chiS_setChiS_same, State.chiJudged_site, State.chiJudged_serves]
  simp only [ChiselSite.given, hcmd, hseq, hrec, halloc]

end Ready

theorem State.chiReady_frozen {m : ChiselCmd} (hon : (s.chiCommit n).chiselOn n = true) (hm : (s.chiS n).cmd = some m)
    (hs : s.chiServes = true) : (m.code = 1 → ((s.chiReady n).chiS n).frozen = true) ∧
    (m.code = 2 → ((s.chiReady n).chiS n).frozen = false) := by
  have hr : s.chiReady n = (s.chiJudged n).chiRun n true := by rw [State.chiReady, hon]
  obtain ⟨freeze, thaw⟩ := (s.chiJudged n).chiRun_freeze ((s.chiJudged_cmd n).trans hm) ((s.chiJudged_serves n).trans hs)
  rw [hr]
  exact ⟨fun h => by rw [freeze h, State.freezeNow_frozen], fun h => by rw [thaw h, State.freezeNow_frozen]⟩

/-! ## From the command on -/

/-- A site whose Chisel is off keeps its last allocation (R258). -/
theorem State.chiSite_off (h : (s.chiCommit n).chiselOn n = false) :
    ((s.chiReady n).stillAsked n).ChiKeeps ChiselSite.given n (s.chiSite n) := by
  unfold State.chiSite
  extract_lets s1 on c1 s2 s3 enter d s4
  have hon : on = false := h
  have h4 : s4 = (s.chiReady n).stillAsked n := rfl
  rw [← h4, if_pos (by rw [hon]; rfl)]
  exact .setChiS rfl

/-- A site whose Chisel is on is sent an allocation; what precedes it leaves its orders alone. -/
theorem State.chiSite_on (h : (s.chiCommit n).chiselOn n = true) :
    ∃ v, ((s.chiReady n).stillAsked n).ChiKeeps ChiselSite.orders n v ∧ s.chiSite n = v.sendAlloc n := by
  unfold State.chiSite
  extract_lets s1 on c1 s2 s3 enter d s4 c4 held s5 r s6 stale c6 s7 c7 s8 c8 s9 cut s10 c10 fb s11 s12
  have hon : on = true := h
  have h4 : s4 = (s.chiReady n).stillAsked n := rfl
  rw [← h4, if_neg (by rw [hon]; exact Bool.false_ne_true)]
  clear_value s4
  have h5 : s4.ChiKeeps ChiselSite.orders n s5 := .ite (.setChiS rfl) (.refl _ n s4)
  have h6 : s4.ChiKeeps ChiselSite.orders n s6 := h5.trans (.chiRecord s5 n)
  clear_value s6
  have told : s6.ChiKeeps ChiselSite.orders n s7 := .ite .setChiS_event (.refl _ n s6)
  have h7 := h6.trans told
  clear_value s7
  split
  · have h8 : s7.ChiKeeps ChiselSite.orders n s8 := .allocate s7 n _ _
    have h9 : s7.ChiKeeps ChiselSite.orders n s9 := h8.trans (.setChiS rfl)
    have hcut : s7.ChiKeeps ChiselSite.orders n cut := .ite
      ((h9.trans (.chiEvent s9 ..)).trans (.of_frame (State.noteCut_touches (ps := [.log, .pnt, .evt]) rfl (.refl _ _)).only)) (.refl _ n s7)
    exact ⟨cut, h7.trans hcut, rfl⟩
  · have h10 : s7.ChiKeeps ChiselSite.orders n s10 := by
      unfold s10
      split
      · exact .classify s7 n _ _
      · exact .refl _ n s7
    have h11 : s7.ChiKeeps ChiselSite.orders n s11 := h10.trans (.setChiS rfl)
    exact ⟨s12, h7.trans (h11.trans (.allocate s11 n _ _)), rfl⟩

/-! ## One site's interval, seen from it and from another -/

/-- What an interval of `s` makes of a site's Chisel (R242, R257, R264, R266). -/
structure State.ChiOutcome (s : State) (n : Nat) (c : ChiselSite) : Prop where
  cmd : c.cmd = if s.chiServes then none else (s.chiS n).cmd
  on : c.on = (s.chiCommit n).chiselOn n
  recommit : (s.chiS n).still = false → c.recommit = false
  kept : (s.chiCommit n).chiselOn n = false →
    c.alloc = (s.chiS n).alloc ∧ c.seq = (s.chiS n).seq ∧ c.record = (s.chiS n).record
  sent : (s.chiCommit n).chiselOn n = true → c.seq = (s.chiS n).seq + 1
  frozen : ∀ m, (s.chiCommit n).chiselOn n = true → (s.chiS n).cmd = some m → s.chiServes = true →
    (m.code = 1 → c.frozen = true) ∧ (m.code = 2 → c.frozen = false)

theorem State.chiSite_site (s : State) (n : Nat) : s.ChiOutcome n ((s.chiSite n).chiS n) := by
  have hready := s.chiReady_given n
  have hcommit := (s.chiCommit_site n).2
  have hasked := State.chiS_congr ((s.chiReady n).stillAsked_chi n) n
  simp only [ChiselSite.given, Prod.mk.injEq] at hready
  obtain ⟨hon, hre, hcmd, hseq, hrec, halloc⟩ := hready
  cases h : (s.chiCommit n).chiselOn n with
  | false =>
    have hsite := (State.chiSite_off h).site
    rw [hasked] at hsite
    simp only [ChiselSite.given, Prod.mk.injEq] at hsite
    obtain ⟨hon', hre', hcmd', hseq', hrec', halloc'⟩ := hsite
    exact ⟨hcmd'.trans hcmd, hon'.trans hon, fun hs => (hre'.trans hre).trans (hcommit hs),
      fun _ => ⟨halloc'.trans halloc, hseq'.trans hseq, hrec'.trans hrec⟩, fun h' => absurd (h.symm.trans h') Bool.false_ne_true,
      fun _ h' => absurd (h.symm.trans h') Bool.false_ne_true⟩
  | true =>
    obtain ⟨v, hv, he⟩ := State.chiSite_on h
    have hsite := hv.site
    rw [hasked] at hsite
    simp only [ChiselSite.orders, Prod.mk.injEq] at hsite
    obtain ⟨hon', hfrozen', hre', hcmd', hseq', -, -⟩ := hsite
    rw [he, State.chiS_congr (v.sendAlloc_chi n), State.chiS_setChiS_same]
    refine ⟨hcmd'.trans hcmd, hon'.trans hon, fun hs => (hre'.trans hre).trans (hcommit hs),
      fun h' => absurd (h.symm.trans h') (Ne.symm Bool.false_ne_true), fun _ => congrArg (· + 1) (hseq'.trans hseq), fun m _ hm hs => ?_⟩
    obtain ⟨freeze, thaw⟩ := State.chiReady_frozen h hm hs
    exact ⟨fun hc => hfrozen'.trans (freeze hc), fun hc => hfrozen'.trans (thaw hc)⟩

/-- The interval of one site leaves the other sites' Chisel alone, and every site's domains. -/
theorem State.chiSite_apart (s : State) (n : Nat) :
    (∀ k, k ≠ n → (s.chiSite n).chiS k = s.chiS k) ∧ ∀ k, ((s.chiSite n).capS k).domains = (s.capS k).domains := by
  have hready := s.chiReady_apart n
  have before {t : State} (h : ((s.chiReady n).stillAsked n).ChiKeeps (fun _ => ()) n t) :
      (∀ k, k ≠ n → t.chiS k = s.chiS k) ∧ ∀ k, (t.capS k).domains = (s.capS k).domains := by
    constructor
    · intro k hk
      rw [h.other k hk, State.chiS_congr (State.stillAsked_chi _ n), hready.other k hk]
    · intro k
      rw [State.capS_congr h.cap, State.stillAsked_domains, State.capS_congr hready.cap]
  cases h : (s.chiCommit n).chiselOn n with
  | false => exact before (State.chiSite_off h).apart
  | true =>
    obtain ⟨v, hv, he⟩ := State.chiSite_on h
    have sent : v.ChiKeeps (fun _ => ()) n (v.sendAlloc n) := by
      have hset : v.ChiKeeps (fun _ => ()) n (v.setChiS n { v.chiS n with seq := (v.chiS n).seq + 1 }) := .setChiS rfl
      exact ⟨rfl, fun k hk => (State.chiS_congr (v.sendAlloc_chi n) k).trans (hset.other k hk), v.sendAlloc_cap n⟩
    rw [he]
    exact before (hv.apart.trans sent)

/-! ## The interval of all sites -/

/-- What a site's interval reads beside its own Chisel. -/
structure State.ChiAlike (s t : State) : Prop where
  maq : t.maq = s.maq
  seq : t.seq = s.seq
  serves : t.chiServes = s.chiServes
  domains : ∀ k, (t.capS k).domains = (s.capS k).domains

theorem State.ChiAlike.chiSite (h : s.ChiAlike t) (n : Nat) : s.ChiAlike (t.chiSite n) := by
  have hf : t.onlyChanges [.log, .mem, .cap, .pnt, .chi, .ques, .ebx, .evt, .dram, .out] (t.chiSite n) :=
    (State.chiSite_touches rfl (.refl _ t)).only
  refine ⟨(hf .maq rfl).trans h.maq, (hf .seq rfl).trans h.seq, Eq.trans ?_ h.serves, fun k => ((t.chiSite_apart n).2 k).trans (h.domains k)⟩
  rw [State.chiServes, hf .pwr rfl, hf .boot rfl]
  rfl

theorem State.chiCommit_on_congr (h : s.ChiAlike t) (hc : t.chiS n = s.chiS n) :
    (t.chiCommit n).chiselOn n = (s.chiCommit n).chiselOn n := by
  have frame (u : State) : u.onlyChanges [.chi] (u.chiCommit n) := (State.chiCommit_touches rfl (.refl _ u)).only
  refine State.chiselOn_congr ?_ ?_ (State.chiCommit_congr h.maq hc)
  · rw [frame t .seq rfl, frame s .seq rfl, h.seq]
  · rw [State.capS_congr (frame t .cap rfl), State.capS_congr (frame s .cap rfl), h.domains]

theorem State.chiInterval_site (s : State) (hr : (s.chiS 0).restored = true) (hn : n < 8) :
    s.ChiOutcome n (s.chiInterval.chiS n) := by
  obtain ⟨u, hu, hc, he⟩ := foldl_once (f := State.chiSite) (P := s.ChiAlike) (fun u => u.chiS n) List.nodup_range (List.mem_range.2 hn)
    (fun _ k h => h.chiSite k) (fun t k _ hk => (t.chiSite_apart k).1 n (Ne.symm hk)) (s := s) ⟨rfl, rfl, rfl, fun _ => rfl⟩
  rw [State.chiInterval, if_pos hr, he]
  obtain ⟨hcmd, hon, hre, hkept, hsent, hfrozen⟩ := u.chiSite_site n
  simp only [hc, hu.serves, State.chiCommit_on_congr hu hc] at hcmd hon hre hkept hsent hfrozen
  exact ⟨hcmd, hon, hre, hkept, hsent, hfrozen⟩

end Sys2Proof.Machine
end


section
/-!
SUPPORT. Chisel's commands: their queue of one, fallback, the software bounds and checkpoints (R242, R259, R263, R264, R266).
-/
namespace Sys2Proof.Machine

variable {s : State} {r : Req} {n : Nat}

/-! ## Commands of the Armature (R11, R468) -/

theorem armCmd_on {x : Right} {f : State → State} (h : s.carriesOut r x = true) : s.armCmd r x f = .next (f s) := by
  simp only [State.carriesOut, Bool.and_eq_true] at h
  obtain ⟨⟨hserves, hmay⟩, hsession⟩ := h
  obtain ⟨hruns, hslot⟩ := State.armServes_iff.1 hserves
  rw [State.armCmd, State.armRight, fwDo_on hruns, withRight_on hmay, hsession, if_neg hslot]
  rfl

section Commands
variable {e : Bytes} (hr : s.carriesOut r .sitePower = true) (hn : u8 e 0x10 < 8) (hz : zeroAt e 0x11 7 = true)
include hr hn hz

theorem chiCommand_waits (hc : (s.chiS (u8 e 0x10)).cmd = none) (code : Nat) (image : Option Bytes) :
    s.chiCommand r e code image = .next (s.setChiS (u8 e 0x10) { s.chiS (u8 e 0x10) with
      cmd := some ⟨code, r, u64 e 0x18, u32 e 0x20, image, s.may r.principal .counterClear⟩ }) := by
  rw [State.chiCommand, armCmd_on hr, if_neg (by omega), hz, hc]
  rfl

theorem chiCommand_busy (hc : (s.chiS (u8 e 0x10)).cmd.isSome = true) (code : Nat) (image : Option Bytes) :
    s.chiCommand r e code image = .next (s.complete r 0x48 0 0) := by
  rw [State.chiCommand, armCmd_on hr, if_neg (by omega), hz, if_pos hc]
  rfl

theorem chiselCommands_effect (hc : (s.chiS (u8 e 0x10)).cmd = none) :
    (∀ c code, c ∈ [(Instr.chiselFreeze r e, 1), (.chiselThaw r e, 2), (.chiselReset r e, 3), (.chiselExport r e, 4)] → c.2 = code →
      Completes c.1 s fun t => t = s.setChiS (u8 e 0x10) { s.chiS (u8 e 0x10) with
        cmd := some ⟨code, r, u64 e 0x18, u32 e 0x20, none, s.may r.principal .counterClear⟩ }) ∧
    ∀ src, Completes (.chiselImport r e src) s fun t => t = s.setChiS (u8 e 0x10) { s.chiS (u8 e 0x10) with
      cmd := some ⟨5, r, u64 e 0x18, u32 e 0x20, src, s.may r.principal .counterClear⟩ } := by
  have waits := chiCommand_waits hr hn hz hc
  refine ⟨fun c code hmem hcode => ?_, fun src => completes_of (waits 5 src) rfl⟩
  subst hcode
  simp only [List.mem_cons, List.not_mem_nil, or_false] at hmem
  obtain rfl | rfl | rfl | rfl := hmem
  · exact completes_of (waits 1 none) rfl
  · exact completes_of (waits 2 none) rfl
  · exact completes_of (waits 3 none) rfl
  · exact completes_of (waits 4 none) rfl

theorem chiselFreeze_busy (hc : (s.chiS (u8 e 0x10)).cmd.isSome = true) :
    Completes (.chiselFreeze r e) s fun t => t = s.complete r 0x48 0 0 ∧ s.answers t r 0x48 0 0 :=
  completes_of (chiCommand_busy hr hn hz hc 1 none) ⟨rfl, s.complete_answers r 0x48 0 0⟩

end Commands

section Core
variable (hc : s.pwr.core = true)
include hc

/-! ## The interval (R242, R257, R264, R266) -/

theorem chiselInterval_exec : exec .chiselInterval s = .next s.chiInterval := coreDo_on hc

theorem chiselInterval_before (hr : (s.chiS 0).restored = false) : Completes .chiselInterval s fun t => t = s :=
  completes_of (chiselInterval_exec hc) (if_neg (Bool.eq_false_iff.1 hr))

theorem chiselInterval_effect (hr : (s.chiS 0).restored = true) : Completes .chiselInterval s fun t => ∀ n, n < 8 →
    ((t.chiS n).cmd = if s.pwr.armature && s.boot.run.isSome then none else (s.chiS n).cmd) ∧
    (t.chiS n).on = (s.chiCommit n).chiselOn n ∧
    ((s.chiS n).still = false → (t.chiS n).recommit = false) ∧
    ((s.chiCommit n).chiselOn n = false → (t.chiS n).alloc = (s.chiS n).alloc ∧ (t.chiS n).seq = (s.chiS n).seq ∧
      (t.chiS n).record = (s.chiS n).record) ∧
    ((s.chiCommit n).chiselOn n = true → (t.chiS n).seq = (s.chiS n).seq + 1 ∧
      ∀ m, (s.chiS n).cmd = some m → s.pwr.armature = true → s.boot.run.isSome = true →
        (m.code = 1 → (t.chiS n).frozen = true) ∧ (m.code = 2 → (t.chiS n).frozen = false)) := by
  refine completes_of (chiselInterval_exec hc) fun n hn => ?_
  obtain ⟨hcmd, hon, hre, hkept, hsent, hfrozen⟩ := s.chiInterval_site hr hn
  have serves (ha : s.pwr.armature = true) (hb : s.boot.run.isSome = true) : s.chiServes = true := by rw [State.chiServes, ha, hb]; rfl
  exact ⟨hcmd, hon, hre, hkept, fun h => ⟨hsent h, fun m hm ha hb => hfrozen m h hm (serves ha hb)⟩⟩

/-! ## Fallback (R259) -/

theorem chiselStaleFallbackExpiry_effect (hs : (s.chiS n).stale = true) (hf : (s.chiS n).fallbackDue = false) :
    Completes (.chiselStaleFallbackExpiry n) s fun t => t.chiS n = { s.chiS n with fallbackDue := true } ∧
      s.onlyChanges [.chi, .log, .evt] t := by
  have he : exec (.chiselStaleFallbackExpiry n) s =
      .next ((s.setChiS n { s.chiS n with fallbackDue := true }).chiEvent n 2 0 (s.chiBudget n) 0) := by
    rw [show exec (.chiselStaleFallbackExpiry n) s = execChiselStaleFallbackExpiry n s from rfl, execChiselStaleFallbackExpiry, coreDo_on hc]
    exact congrArg _ (if_pos (by rw [hs, hf]; rfl))
  refine completes_of he ⟨?_, (State.chiEvent_touches rfl (State.setChiS_touches rfl (.refl _ s))).only⟩
  rw [State.chiS_congr (State.chiEvent_frame _ n 2 0 _ 0 .chi rfl), State.chiS_setChiS_same]

end Core

/-! ## Software bounds (R263) -/

/-- A domain's bound is written, and the other one too where the write would cross it. -/
def ChiselSite.bounded (c : ChiselSite) (k : Nat) (ceil moved : Bool) (w : Nat) : ChiselSite :=
  let c := if ceil then { c with swCeil := Tbl.set c.swCeil k w } else { c with swFloor := Tbl.set c.swFloor k w }
  if moved then (if ceil then { c with swFloor := Tbl.set c.swFloor k w } else { c with swCeil := Tbl.set c.swCeil k w }) else c

theorem ChiselSite.bounded_floor (c : ChiselSite) (k w : Nat) (moved : Bool) :
    Tbl.find? (c.bounded k false moved w).swFloor k = some w := by
  cases moved <;> exact Tbl.find?_set_same ..

theorem ChiselSite.bounded_ceil (c : ChiselSite) (k w : Nat) (moved : Bool) :
    Tbl.find? (c.bounded k true moved w).swCeil k = some w := by
  cases moved <;> exact Tbl.find?_set_same ..

/-- A site takes its new bounds; CHISEL_CNT_SW_CLAMP counts where the value was clamped and where the other bound was moved. -/
def State.chiBounded (s : State) (n : Nat) (x : ChiselSite) (clamped moved : Bool) : State :=
  let s := s.setChiS n x
  let s := if clamped then s.bumpChi n 22 else s
  if moved then s.bumpChi n 22 else s

theorem State.chiBounded_frame (s : State) (n : Nat) (x : ChiselSite) (clamped moved : Bool) :
    s.onlyChanges [.chi, .evt] (s.chiBounded n x clamped moved) := by
  unfold State.chiBounded
  extract_lets u v
  have hu : Touches [.chi, .evt] s u := State.setChiS_touches rfl (.refl _ s)
  have hv : Touches [.chi, .evt] s v := .ite (State.bumpChi_touches rfl hu) hu
  exact (Touches.ite (State.bumpChi_touches rfl hv) hv).only

theorem State.chiBounded_bounds (s : State) (n : Nat) (x : ChiselSite) (clamped moved : Bool) :
    ((s.chiBounded n x clamped moved).chiS n).swFloor = x.swFloor ∧ ((s.chiBounded n x clamped moved).chiS n).swCeil = x.swCeil := by
  unfold State.chiBounded
  extract_lets u v
  have hu : u.chiS n = x := s.chiS_setChiS_same n x
  have hv : u.ChiKeeps ChiselSite.orders n v := .ite (.bumpChi u n 22) (.refl _ n u)
  have ht := (hv.trans (.ite (c := moved = true) (.bumpChi v n 22) (.refl _ n v))).site
  rw [hu] at ht
  simp only [ChiselSite.orders, Prod.mk.injEq] at ht
  obtain ⟨-, -, -, -, -, hfloor, hceil⟩ := ht
  exact ⟨hfloor, hceil⟩

section Bounds
variable {d : Nat × Nat} {k : Nat} (hc : s.pwr.core = true) (hm : s.may r.principal .sitePower = true)
  (hd : (((s.capS n).vtable.map vtDomains).getD []).find? (fun d => d.1 == k) = some d) (v : Int)
include hc hm hd

/-- A write of a bound of a domain in the site's voltage table. -/
theorem chiselSwBoundWrite_exec (ceil : Bool) {x : Dom} {w : Nat} (hx : x = (s.chiS n).domOf d 0) (hw : w = (clampI x.hwLo x.hwHi v).toNat) :
    ∃ moved, exec (.chiselSwBoundWrite r n k ceil v) s =
      .next (s.chiBounded n ((s.chiS n).bounded k ceil moved w) (decide ((w : Int) ≠ v)) moved) := by
  refine ⟨if ceil then decide (w < x.lo) else decide (x.hi < w), ?_⟩
  rw [show exec (.chiselSwBoundWrite r n k ceil v) s = execChiselSwBoundWrite r n k ceil v s from rfl, execChiselSwBoundWrite,
    coreDo_on hc, withWriteRight_on hm, hd, State.chiBounded, hw, hx]
  simp only [decide_eq_true_eq]
  rfl

theorem chiselSwBoundWrites_effect :
    Completes (.chiselSwBoundWrite r n k false v) s (fun t => s.onlyChanges [.chi, .evt] t ∧ Tbl.find? (t.chiS n).swFloor k =
      some (clampI ((s.chiS n).domOf d 0).hwLo ((s.chiS n).domOf d 0).hwHi v).toNat) ∧
    Completes (.chiselSwBoundWrite r n k true v) s (fun t => s.onlyChanges [.chi, .evt] t ∧ Tbl.find? (t.chiS n).swCeil k =
      some (clampI ((s.chiS n).domOf d 0).hwLo ((s.chiS n).domOf d 0).hwHi v).toNat) := by
  obtain ⟨movedCeil, hfloor⟩ := chiselSwBoundWrite_exec hc hm hd v false rfl rfl
  obtain ⟨movedFloor, hceil⟩ := chiselSwBoundWrite_exec hc hm hd v true rfl rfl
  refine ⟨completes_of hfloor ⟨s.chiBounded_frame n _ _ _, ?_⟩, completes_of hceil ⟨s.chiBounded_frame n _ _ _, ?_⟩⟩
  · rw [(s.chiBounded_bounds n _ _ _).1, ChiselSite.bounded_floor]
  · rw [(s.chiBounded_bounds n _ _ _).2, ChiselSite.bounded_ceil]

end Bounds

/-! ## Checkpoints (R266) -/

theorem chiselCheckpoint_effect (ha : s.armServes = true) : Completes .chiselCheckpoint s fun t => s.onlyChanges [.ckpt, .out] t ∧
    (s.hasDram = true → (s.chiS 0).restored = true → t.ckpt = (List.range 8).map fun n => (n, s.modelImage n)) ∧
    (s.hasDram = false ∨ (s.chiS 0).restored = false → t.ckpt = s.ckpt) := by
  have he : exec .chiselCheckpoint s = .next s.chiCheckpoint.shadowSecond :=
    armDo_on (f := fun s => s.chiCheckpoint.shadowSecond) ha
  have hckpt : s.chiCheckpoint.shadowSecond.ckpt = s.chiCheckpoint.ckpt :=
    (State.shadowSecond_touches (ps := [.out]) rfl (.refl _ _)).only .ckpt rfl
  refine completes_of he ⟨(State.shadowSecond_touches rfl (State.chiCheckpoint_touches rfl (.refl _ s))).only, fun hd hr => ?_, fun h => ?_⟩
  · rw [hckpt, State.chiCheckpoint, hd, hr]
    rfl
  · rw [hckpt, State.chiCheckpoint, if_neg]
    obtain h | h := h <;> simp [h]

/-- Settles O19: a command waits for the interval, which is the sites' intervals one after another; each leaves the other sites' Chisel
alone, and at the site itself the command leaves what an allocation gave, the record and the allocation what the command set. That Still
mode begins and ends at an interval, and that a missed one shares again, is deduced (logs 34 and 92). -/
theorem chiselTakesEffect : Obligations.ChiselTakesEffect := by
  unfold Obligations.ChiselTakesEffect
  exact fun s => ⟨fun _ _ hr hn hz hc => chiselCommands_effect hr hn hz hc, fun _ _ hr hn hz hc => chiselFreeze_busy hr hn hz hc,
    chiselInterval_before, chiselInterval_effect, fun _ hc hs hf => chiselStaleFallbackExpiry_effect hc hs hf,
    fun _ _ _ _ v hc hm hd => chiselSwBoundWrites_effect hc hm hd v, chiselCheckpoint_effect⟩

end Sys2Proof.Machine
end


section
/-!
SUPPORT. Cooling: what the readings of channels and zones depend on, and what forced channels, leak reactions and the measurements of a tick
leave of them (R280, R292, R296, R311).
-/
namespace Sys2Proof.Machine

variable {s t : State} {c : Nat}

theorem State.fan_congr (h : t.cool.fans = s.cool.fans) (c : Nat) : t.fan c = s.fan c := by
  rw [State.fan, h]
  rfl

theorem State.fan_frame {ps : List Part} (h : s.onlyChanges ps t) (c : Nat) (hc : ps.contains .cool = false := by rfl) :
    t.fan c = s.fan c := State.fan_congr (congrArg Cooling.fans (h .cool hc)) c

theorem State.czone_congr (h : t.cool.zones = s.cool.zones) (z : Nat) : t.czone z = s.czone z := by
  rw [State.czone, h]
  rfl

theorem State.topo_congr (h : t.maq = s.maq) : t.topo = s.topo := State.sec_congr h 8

theorem State.fanUsed_congr (h : t.maq = s.maq) (c : Nat) : t.fanUsed c = s.fanUsed c := by
  rw [State.fanUsed, State.topo_congr h]
  rfl

theorem FanSt.failed_iff {x : FanSt} : x.failed = true ↔ x = .stalled ∨ x = .seized := by cases x <;> decide

/-! ## A channel that is forced full (R280, R283, R311) -/

/-- What a channel keeps as a source forces it: one that starts or has failed its state and its duty, a fan that runs its state, at the
duty that it had or at full. -/
structure FanCh.Forced (c : Nat) (x y : FanCh) : Prop where
  rests : x.st.failed = true ∨ x.st = .starting → y.st = x.st ∧ y.duty = x.duty
  runs : c < 32 → x.st = .running → y.st = .running ∧ (y.duty = x.duty ∨ y.duty = 0xFFFF)

theorem FanCh.Forced.trans {x y z : FanCh} (h : FanCh.Forced c x y) (h' : FanCh.Forced c y z) : FanCh.Forced c x z := by
  refine ⟨fun hx => ?_, fun hc hx => ?_⟩
  · obtain ⟨hst, hduty⟩ := h.rests hx
    rw [← hst] at hx
    exact ⟨(h'.rests hx).1.trans hst, (h'.rests hx).2.trans hduty⟩
  · obtain ⟨hst, hduty⟩ := h.runs hc hx
    obtain ⟨hst', hduty' | hduty'⟩ := h'.runs hc hst
    · exact ⟨hst', hduty'.symm ▸ hduty⟩
    · exact ⟨hst', .inr hduty'⟩

/-- A channel that neither starts nor has failed may change, but for a fan that runs. -/
theorem FanCh.Forced.of_active {x y : FanCh} (hx : x.st = .off ∨ x.st = .running ∨ x.st = .tachLost)
    (hr : c < 32 → x.st = .running → y.st = .running ∧ (y.duty = x.duty ∨ y.duty = 0xFFFF)) : FanCh.Forced c x y :=
  ⟨fun h => absurd h (by rcases hx with hx | hx | hx <;> rw [hx] <;> decide), hr⟩

/-- A channel that keeps its state and its duty. -/
theorem FanCh.Forced.of_same {x y : FanCh} (hst : y.st = x.st) (hduty : y.duty = x.duty) : FanCh.Forced c x y :=
  ⟨fun _ => ⟨hst, hduty⟩, fun _ h => ⟨hst.trans h, .inl hduty⟩⟩

/-- What a source that begins does to one channel at once. -/
def State.forceFan (s : State) (c : Nat) : State :=
  let x := s.fan c
  if !s.fanUsed c then s
  else if 32 ≤ c && s.pumpStopped (c - 32) then
    s.setFan c (if x.st = .running ∨ x.st = .tachLost then { x with eff := 0, st := .off, duty := 0 } else { x with eff := 0 })
  else match s.forcedBy c with
    | none => s
    | some k =>
      let x := { x with src := k, forced := true }
      match x.st with
      | .off => s.setFan c (x.start 1)
      | .running | .tachLost => s.setFan c { x with duty := 0xFFFF, integ := 65535 }
      | _ => s.setFan c x

theorem State.forceNow_on (hl : s.maq.live.isSome = true) (ho : s.pair.outputs = true) :
    s.forceNow = s.withDrive fun s => (List.range 40).foldl State.forceFan s := if_pos (by rw [hl, ho]; rfl)

theorem State.forceNow_off (h : s.pair.outputs = false) : s.forceNow = s := if_neg (by rw [h]; simp)

/-- A source leaves a channel alone, or sets it, where it is USED, as FanCh.Forced says. -/
theorem State.forceFan_cases (s : State) (c : Nat) :
    s.forceFan c = s ∨ s.fanUsed c = true ∧ ∃ x, s.forceFan c = s.setFan c x ∧ FanCh.Forced c (s.fan c) x := by
  unfold State.forceFan
  extract_lets x
  cases hu : s.fanUsed c with
  | false => exact .inl (if_pos rfl)
  | true =>
    rw [if_neg (by decide)]
    split
    next hstop =>
      simp only [Bool.and_eq_true, decide_eq_true_eq] at hstop
      refine .inr ⟨rfl, _, rfl, ?_⟩
      split
      next h => exact .of_active (.inr h) fun hc => absurd hstop.1 (by omega)
      next => exact .of_same rfl rfl
    next =>
      split
      · exact .inl rfl
      · extract_lets y
        split
        next h => exact .inr ⟨rfl, _, rfl, .of_active (.inl h) fun _ hx => absurd (h.symm.trans hx) (by decide)⟩
        next h => exact .inr ⟨rfl, _, rfl, .of_active (.inr (.inl h)) fun _ hx => ⟨hx, .inr rfl⟩⟩
        next h => exact .inr ⟨rfl, _, rfl, .of_active (.inr (.inr h)) fun _ hx => ⟨hx, .inr rfl⟩⟩
        · exact .inr ⟨rfl, _, rfl, .of_same rfl rfl⟩

/-- The tripped cooling watchdog forces a fan, the guard of a zone before it (R280). -/
theorem State.forcedBy_tripped (hc : c < 32) (h : s.cool.tripped = true) : ∃ k, s.forcedBy c = some k ∧ (k = 4 ∨ k = 5) := by
  rw [State.forcedBy, if_neg (by rw [decide_eq_false (by omega)]; simp), h]
  split
  · exact ⟨4, rfl, .inl rfl⟩
  · exact ⟨5, rfl, .inr rfl⟩

/-- A fan that runs and is forced goes to full duty. -/
theorem State.forceFan_running {k : Nat} (hc : c < 32) (hu : s.fanUsed c = true) (hst : (s.fan c).st = .running)
    (hk : s.forcedBy c = some k) :
    s.forceFan c = s.setFan c { s.fan c with src := k, forced := true, duty := 0xFFFF, integ := 65535 } := by
  rw [State.forceFan, hu, if_neg (by decide), if_neg (by rw [decide_eq_false (by omega)]; simp), hk]
  simp only [hst]

/-! ## What sources and reactions leave of the cooling -/

/-- The cooling without its channels and valves: what forced channels and leak reactions leave alone. -/
def Cooling.apart (x : Cooling) : Cooling := { x with fans := [], valves := [] }

/-- From `s` to `t` what `f` reads of the cooling stands, and channels change only where this controller drives the tray, as sources
force them. -/
structure State.Forces {α : Type} (f : Cooling → α) (s t : State) : Prop where
  maq : t.maq = s.maq
  pair : t.pair = s.pair
  rest : f t.cool = f s.cool
  fans : ∀ c, t.fan c = s.fan c ∨ s.pair.outputs = true ∧ s.fanUsed c = true ∧ FanCh.Forced c (s.fan c) (t.fan c)

namespace State.Forces

variable {α : Type} {f : Cooling → α}

theorem refl (f : Cooling → α) (s : State) : s.Forces f s := ⟨rfl, rfl, rfl, fun _ => .inl rfl⟩

theorem trans {r : State} (h : r.Forces f s) (h' : s.Forces f t) : r.Forces f t := by
  refine ⟨h'.maq.trans h.maq, h'.pair.trans h.pair, h'.rest.trans h.rest, fun c => ?_⟩
  rcases h'.fans c with h1 | ⟨ho, hu, hf⟩
  · rw [h1]
    exact h.fans c
  · rw [h.pair] at ho
    rw [State.fanUsed_congr h.maq] at hu
    rcases h.fans c with h2 | ⟨_, _, hf'⟩
    · exact .inr ⟨ho, hu, h2 ▸ hf⟩
    · exact .inr ⟨ho, hu, hf'.trans hf⟩

theorem ite {c : Prop} [Decidable c] {a b : State} (ha : s.Forces f a) (hb : s.Forces f b) : s.Forces f (if c then a else b) := by
  split <;> assumption

theorem foldl {β : Type} {g : State → β → State} {l : List β} (hg : ∀ s b, State.Forces f s (g s b)) (s : State) :
    s.Forces f (l.foldl g s) :=
  List.foldlRecOn (motive := fun u => s.Forces f u) l g (refl f s) fun u hu b _ => hu.trans (hg u b)

/-- What changes the channels neither, nor what `f` reads. -/
theorem of_cool (hm : t.maq = s.maq) (hp : t.pair = s.pair) (hc : f t.cool = f s.cool) (hf : t.cool.fans = s.cool.fans) : s.Forces f t :=
  ⟨hm, hp, hc, fun c => .inl (State.fan_congr hf c)⟩

theorem of_frame {ps : List Part} (h : s.onlyChanges ps t) (hm : ps.contains .maq = false := by rfl)
    (hp : ps.contains .pair = false := by rfl) (hc : ps.contains .cool = false := by rfl) : s.Forces f t :=
  of_cool (h .maq hm) (h .pair hp) (congrArg f (h .cool hc)) (congrArg Cooling.fans (h .cool hc))

theorem setFan {x : FanCh} (ho : s.pair.outputs = true) (hu : s.fanUsed c = true) (hx : FanCh.Forced c (s.fan c) x) :
    s.Forces Cooling.apart (s.setFan c x) := by
  refine ⟨rfl, rfl, rfl, fun d => ?_⟩
  by_cases hd : d = c
  · subst hd
    rw [State.fan_setFan_same]
    exact .inr ⟨ho, hu, hx⟩
  · exact .inl (s.fan_setFan_other c x hd)

theorem withDrive {g : State → State} (h : s.Forces f (g s)) : s.Forces f (s.withDrive g) := h.trans (of_frame (s.withDrive_frame g))

theorem forceNow (s : State) : s.Forces Cooling.apart s.forceNow := by
  by_cases hl : s.maq.live.isSome = true
  · by_cases ho : s.pair.outputs = true
    · rw [State.forceNow_on hl ho]
      refine withDrive (List.foldlRecOn (motive := fun u : State => s.Forces Cooling.apart u) _ _ (refl _ s) fun u hu c _ => ?_)
      rcases u.forceFan_cases c with h | ⟨hused, x, h, hx⟩
      · rwa [h]
      · rw [h]
        exact hu.trans (setFan (hu.pair ▸ ho) hused hx)
    · rw [State.forceNow_off (Bool.eq_false_iff.2 ho)]
      exact refl _ s
  · rw [State.forceNow, if_neg (by simp [hl])]
    exact refl _ s

theorem setValve (s : State) (v : Nat) (x : Valve) : s.Forces Cooling.apart (s.setValve v x) := of_cool rfl rfl rfl rfl

theorem confirmValve (s : State) (v : Nat) (x : Valve) : s.Forces Cooling.apart (s.confirmValve v x) := by
  unfold State.confirmValve
  extract_lets s1
  have h1 : s.Forces Cooling.apart s1 := setValve s ..
  exact ite (h1.trans (of_frame (State.coolantEvent_touches rfl (.refl [.log, .evt] s1)).only)) h1

theorem moveValve (s : State) (v : Nat) (x : Valve) : s.Forces Cooling.apart (s.moveValve v x) := by
  unfold State.moveValve
  extract_lets was drive s1 now s2
  have h1 : s.Forces Cooling.apart s1 := setValve s ..
  have h2 : s.Forces Cooling.apart s2 := h1.trans (ite (confirmValve s1 ..) (setValve s1 ..))
  exact ite h1 (ite h2 (h2.trans (of_frame (State.emit_touches rfl (.refl [.out] s2)).only)))

theorem hazardDown (s : State) (n : Nat) : s.Forces f (s.hazardDown n) :=
  of_frame (State.hazardDown_touches (ps := [.pwr, .seq, .log, .mem, .cap, .met, .pnt, .chi, .cal, .jrn, .ques, .ebx, .evt, .dram, .out])
    rfl (.refl _ s)).only

theorem leakEvent {src kind z react ev mask : Nat} {x : LeakSensor} (s : State) :
    s.Forces f (s.leakEvent src kind x z react ev mask) := of_frame (State.leakEvent_touches rfl (.refl [.log, .evt] s)).only

theorem react (s : State) (z r ev : Nat) : s.Forces Cooling.apart (s.react z r ev) := by
  unfold State.react
  extract_lets _ _ _ _ _ _ s1 s2 s3 s4 s5 s6
  have h3 : s.Forces Cooling.apart s3 := by
    refine of_frame (ps := [.haz, .cap, .seq, .pnt, .log, .evt, .out]) (State.throttleNote_touches rfl (.foldl (fun u n hu => ?_)
      (State.setLzone_touches rfl (.refl _ s)))).only
    split
    · exact hu
    · exact hu
    · exact hu
    · exact State.setCapS_touches rfl hu
  have h5 : s3.Forces Cooling.apart s5 := (foldl (fun u _ => moveValve u ..) s3).trans (foldl hazardDown s4)
  refine ite ?_ (((h3.trans h5).trans (forceNow s5)).trans (leakEvent s6))
  exact of_frame (ps := [.haz, .log, .evt])
    (State.leakEvent_touches rfl (State.event_touches rfl (State.setLzone_touches rfl (.refl _ s)))).only

theorem leakJudge (s : State) (z : Nat) : s.Forces Cooling.apart (s.leakJudge z) := by
  unfold State.leakJudge
  extract_lets _ _ s1 wet _ _ _ s2
  have h1 : s.Forces Cooling.apart s1 := of_cool rfl rfl rfl rfl
  have h2 : s1.Forces Cooling.apart s2 := by
    unfold s2
    clear_value wet
    split
    · exact leakEvent s1
    · exact refl _ s1
  exact ite (h1.trans (ite h2 (h2.trans (react s2 ..)))) h1

theorem leakJudgeAll (s : State) : s.Forces Cooling.apart s.leakJudgeAll := foldl leakJudge s

/-- What reads neither channels nor valves stands where all that reads neither does. -/
theorem of_apart (h : s.Forces Cooling.apart t) (hf : ∀ x : Cooling, f x.apart = f x := by exact fun _ => rfl) : s.Forces f t :=
  ⟨h.maq, h.pair, by rw [← hf t.cool, h.rest, hf], h.fans⟩

/-! ## The measurements of a tick (R292, R296) -/

theorem zoneEvent {z kind slot : Nat} {value rise : Int} (s : State) : s.Forces f (s.zoneEvent z kind slot value rise) :=
  of_frame (State.zoneEvent_touches rfl (.refl [.log, .evt] s)).only

theorem setCzone (s : State) (z : Nat) (x : Zone) : s.Forces Cooling.tripped (s.setCzone z x) := of_cool rfl rfl rfl rfl

theorem zoneJudge (s : State) (z : Nat) : s.Forces Cooling.tripped (s.zoneJudge z) := by
  unfold State.zoneJudge
  extract_lets x l vals deg med temp level guard past s1 s2 s3
  have h2 : s.Forces Cooling.tripped s2 := (setCzone s ..).trans (ite (zoneEvent s1) (refl _ s1))
  have h3 : s2.Forces Cooling.tripped s3 := ite ((zoneEvent s2).trans (forceNow _).of_apart) (refl _ s2)
  exact (h2.trans h3).trans (ite (zoneEvent s3) (refl _ s3))

theorem zoneTick (s : State) (z : Nat) : s.Forces Cooling.tripped (s.zoneTick z) := by
  unfold State.zoneTick
  extract_lets e x ks r mems med mems' s1 s2
  have h2 : s1.Forces Cooling.tripped s2 := by
    refine foldl (fun u a => ?_) s1
    split
    · exact zoneEvent u
    · exact refl _ u
  exact ite (refl _ s) (((setCzone s ..).trans h2).trans (zoneJudge s2 z))

theorem lossBits (s : State) : s.Forces Cooling.tripped s.lossBits :=
  (foldl (fun u _ => setCzone u ..) s).trans (leakJudgeAll _).of_apart

theorem pressTick (s : State) (p : Nat) : s.Forces Cooling.tripped (s.pressTick p) := by
  unfold State.pressTick
  extract_lets e x ch v below fell lost s1
  have set {y : PressSensor} : s.Forces Cooling.tripped (s.setPressS p y) := of_cool rfl rfl rfl rfl
  have h1 : s.Forces Cooling.tripped s1 := set
  refine ite (refl _ s) (ite set (ite ((h1.trans ?_).trans (lossBits _)) h1))
  exact of_frame (State.coolantEvent_touches rfl (.refl [.log, .evt] s1)).only

theorem measureTick (s : State) : s.Forces Cooling.tripped s.measureTick := (foldl zoneTick s).trans (foldl pressTick _)

end State.Forces
end Sys2Proof.Machine
end

section
/-!
SUPPORT. One tick of a channel: its speed, its state and its duty (R276, R281 to R283), and that it leaves the other channels alone.
-/
namespace Sys2Proof.Machine

variable {s t : State} {c : Nat} {tach : List Tach}

/-! ## The speed of a period (R276) -/

theorem tachSpeed_some_iff {pulses edges n : Nat} : (∃ v, tachSpeed pulses edges n = some v) ↔ 2 ≤ edges ∧ n ≠ 0 := by
  unfold tachSpeed
  split
  next h => exact ⟨fun ⟨_, hv⟩ => (by cases hv), fun h' => by omega⟩
  next h => exact ⟨fun _ => by omega, fun _ => ⟨_, rfl⟩⟩

theorem State.supplySw_congr (h : t.maq = s.maq) (c : Nat) : t.supplySw c = s.supplySw c := by
  rw [State.supplySw, State.topo_congr h]
  rfl

/-- The speed of a period depends on the structure and on the channel's duty. -/
theorem State.periodSpeed_congr (hm : t.maq = s.maq) (hd : (t.fan c).duty = (s.fan c).duty) (a : Option Tach) :
    t.periodSpeed c a = s.periodSpeed c a := by
  unfold State.periodSpeed State.switches
  rw [State.supplySw_congr hm, State.topo_congr hm, hd]

/-- A period that gives a speed gives one at full duty too, where the supply no longer switches. -/
theorem State.periodSpeed_some {a : Option Tach} {v : Nat} (hm : t.maq = s.maq)
    (hd : (t.fan c).duty = (s.fan c).duty ∨ (t.fan c).duty = 0xFFFF) (h : s.periodSpeed c a = some v) :
    ∃ w, t.periodSpeed c a = some w := by
  rcases hd with hd | hd
  · exact ⟨v, (State.periodSpeed_congr hm hd a).trans h⟩
  · have steady : t.switches c = false := by rw [State.switches, hd]; exact Bool.and_false _
    match a with
    | none => cases h
    | some (_, ed, d, second) =>
      simp only [State.periodSpeed, steady, State.topo_congr hm] at h ⊢
      refine tachSpeed_some_iff.2 ?_
      split at h
      · split at h
        · cases h
        · have := tachSpeed_some_iff.1 ⟨v, h⟩
          omega
      · exact tachSpeed_some_iff.1 ⟨v, h⟩

/-- A channel of a controller that does not drive the tray has its speed measured, and no other. -/
theorem State.speedTick_fan (s : State) (tach : List Tach) (c : Nat) : (s.speedTick tach c).fan c =
    if s.fanUsed c then { s.fan c with
      speed := ((s.periodSpeed c (tach.find? fun a => a.1 == c)).map (min · 65535)).getD 0 } else s.fan c := by
  unfold State.speedTick
  cases s.fanUsed c with
  | false => rfl
  | true => exact s.fan_setFan_same c _

theorem State.speedTick_other (s : State) {b c : Nat} (h : b ≠ c) : (s.speedTick tach b).fan c = s.fan c := by
  unfold State.speedTick
  split
  · rfl
  · exact s.fan_setFan_other b _ h.symm

/-! ## A channel's tick leaves the others alone -/

/-- From `s` to `t` no channel changes but `c`, nor the structure, nor whether the watchdog has tripped. -/
structure State.FanAlone (c : Nat) (s t : State) : Prop where
  maq : t.maq = s.maq
  tripped : t.cool.tripped = s.cool.tripped
  other : ∀ d, d ≠ c → t.fan d = s.fan d

namespace State.FanAlone

theorem refl (c : Nat) (s : State) : s.FanAlone c s := ⟨rfl, rfl, fun _ _ => rfl⟩

theorem trans {r : State} (h : r.FanAlone c s) (h' : s.FanAlone c t) : r.FanAlone c t :=
  ⟨h'.maq.trans h.maq, h'.tripped.trans h.tripped, fun d hd => (h'.other d hd).trans (h.other d hd)⟩

theorem ite {p : Prop} [Decidable p] {a b : State} (ha : s.FanAlone c a) (hb : s.FanAlone c b) : s.FanAlone c (if p then a else b) := by
  split <;> assumption

theorem of_frame {ps : List Part} (h : s.onlyChanges ps t) (hm : ps.contains .maq = false := by rfl)
    (hc : ps.contains .cool = false := by rfl) : s.FanAlone c t :=
  ⟨h .maq hm, congrArg Cooling.tripped (h .cool hc), fun d _ => State.fan_frame h d hc⟩

theorem setFan (s : State) (c : Nat) (x : FanCh) : s.FanAlone c (s.setFan c x) := ⟨rfl, rfl, fun _ hd => s.fan_setFan_other c x hd⟩

theorem bumpFan (s : State) (c k : Nat) : s.FanAlone c (s.bumpFan c k) := (setFan s c _).trans (of_frame State.bump_frame)

theorem fanEvent (s : State) (k : Nat) : s.FanAlone c (s.fanEvent c k) := of_frame (State.fanEvent_touches rfl (.refl [.log, .evt] s)).only

theorem forceFan (s : State) (c : Nat) : s.FanAlone c (s.forceFan c) := by
  rcases s.forceFan_cases c with h | ⟨_, x, h, _⟩ <;> rw [h]
  · exact refl c s
  · exact setFan s c x

/-- A channel that fails: its new state, its counter and its record. -/
theorem fails {x : FanCh} {j k : Nat} (h : s.FanAlone c t) : s.FanAlone c (((t.setFan c x).bumpFan c j).fanEvent c k) :=
  ((h.trans (setFan t c x)).trans (bumpFan _ c j)).trans (fanEvent _ k)

theorem fanTick (s : State) (tach : List Tach) (c : Nat) : s.FanAlone c (s.fanTick tach c) := by
  unfold State.fanTick
  extract_lets e t x speed forced stop goal base eff x1 want s1 x2 b m x3 r s2
  have h1 : s.FanAlone c s1 := setFan s c x1
  have set {y : FanCh} : s.FanAlone c (s1.setFan c y) := h1.trans (setFan s1 c y)
  have h2 : s1.FanAlone c s2 := of_frame (State.speedError_touches rfl (.refl [.fresh] s1)).only
  clear_value s1 s2
  refine ite (refl c s) ?_
  split
  · exact ite set set
  · exact ite (set.trans (of_frame (ps := [.pat, .evt]) (State.bump_touches rfl (fun _ _ h => .updPat rfl h) (.refl _ _)).only)) h1
  · refine ite set (ite ?_ (ite set (ite set ?_)))
    · split <;> exact h1.fails
    · exact (h1.trans h2).trans (setFan s2 c _)
  · refine ite set (ite (set.trans (fanEvent _ 5)) ?_)
    split
    · exact set
    · exact ite h1.fails h1
  · exact h1

end State.FanAlone

/-! ## What the tick makes of the channel -/

theorem State.driven_st (s : State) (c : Nat) (x : FanCh) (a : Option Tach) : (s.driven c x a).st = x.st := by
  unfold State.driven
  split <;> rfl

theorem State.driven_duty (s : State) (c : Nat) (x : FanCh) (a : Option Tach) : (s.driven c x a).duty = x.duty := by
  unfold State.driven
  split <;> rfl

theorem State.fanTick_unused (h : s.fanUsed c = false) : s.fanTick tach c = s := if_pos (by rw [h]; rfl)

section Used
variable (hu : s.fanUsed c = true)
include hu

/-- A channel that has failed waits for its timer, and one that starts without a tach value goes on starting (R282, R283). -/
theorem State.fanTick_waits (hw : (s.fan c).st.failed = true ∨ (s.fan c).st = .starting ∧ (tach.find? fun a => a.1 == c) = none) :
    ((s.fanTick tach c).fan c).st = (s.fan c).st ∧ ((s.fanTick tach c).fan c).duty = (s.fan c).duty := by
  unfold State.fanTick
  extract_lets e a x speed forced stop goal base eff x1 want s1 x2 b m x3 r s2
  have hst : x1.st = (s.fan c).st := s.driven_st c _ a
  have hduty : x1.duty = (s.fan c).duty := s.driven_duty c _ a
  have hgood (h : a = none) : x1.good = 0 := by
    unfold x1 speed
    rw [h]
    rfl
  have h1 : (s1.fan c).st = (s.fan c).st ∧ (s1.fan c).duty = (s.fan c).duty := by
    rw [show s1.fan c = x1 from s.fan_setFan_same c x1]
    exact ⟨hst, hduty⟩
  rw [if_neg (by rw [hu]; decide)]
  rcases hw with hf | ⟨hs, ha⟩
  · rcases FanSt.failed_iff.1 hf with hf | hf <;> (rw [hst.trans hf]; exact h1)
  · rw [hst.trans hs]
    dsimp only
    rw [if_neg (by rw [hgood ha]; decide)]
    exact h1

/-- A channel that runs and is forced stays at full while its tach gives values (R280). -/
theorem State.fanTick_forced {k v : Nat} (hst : (s.fan c).st = .running) (hk : s.forcedBy c = some k)
    (hv : s.periodSpeed c (tach.find? fun a => a.1 == c) = some v) :
    ((s.fanTick tach c).fan c).st = .running ∧ ((s.fanTick tach c).fan c).duty = 0xFFFF ∧ ((s.fanTick tach c).fan c).src = k := by
  unfold State.fanTick
  extract_lets e a x speed forced stop goal base eff x1 want s1 x2 b m x3 r s2
  have hforced : forced = some k := hk
  have hx : x1.st = .running := (s.driven_st c _ a).trans hst
  have hsrc : x1.src = k := congrArg (Option.getD · goal.2) hforced
  have habsent : x1.absent = 0 := if_pos (congrArg Option.isSome hv)
  have hon : forced.isSome = true := congrArg Option.isSome hforced
  have hwant : want = true := by
    unfold want
    rw [hon]
    exact Bool.or_true _
  rw [if_neg (by rw [hu]; decide), hx]
  dsimp only
  rw [if_neg (by rw [hwant]; decide), if_neg (by rw [habsent]; decide), if_pos hon, State.fan_setFan_same]
  exact ⟨rfl, rfl, hsrc⟩

end Used
end Sys2Proof.Machine
end


section
/-!
SUPPORT. Fans and pumps: the tick, the timers, the commands and the cooling watchdog (R268, R280 to R283, R288), and O20.
-/
namespace Sys2Proof.Machine

variable {s t : State} {c f : Nat} {r : Req} {tach : List Tach}

/-! ## The tick (R268) -/

theorem State.airCheck_fan (s : State) (z c : Nat) : (s.airCheck z).fan c = s.fan c := by
  unfold State.airCheck
  extract_lets m dead x s1
  exact State.fan_frame (Touches.ite (State.zoneEvent_touches rfl (.refl [.log, .evt] s1)) (.refl _ s1)).only c

/-- Of a controller that drives the tray, a channel after the tick is what its own tick makes of it as the measurements leave it. -/
theorem State.coolingTick_fan (ho : s.pair.outputs = true) (hc : c < 40) (tach : List Tach) :
    ∃ u : State, u.maq = s.maq ∧ u.cool.tripped = s.cool.tripped ∧ u.fan c = s.measureTick.fan c ∧
      (s.coolingTick tach).fan c = (u.fanTick tach c).fan c := by
  have hm := State.Forces.measureTick s
  obtain ⟨u, ⟨humaq, hutrip⟩, hufan, hu⟩ := foldl_once (fun u : State => u.fan c) (a := c) (s := s.measureTick)
    (f := fun u c => u.fanTick tach c) (P := fun u => u.maq = s.maq ∧ u.cool.tripped = s.cool.tripped) List.nodup_range
    (List.mem_range.2 hc) (fun u b h => ⟨(State.FanAlone.fanTick u tach b).maq.trans h.1,
      (State.FanAlone.fanTick u tach b).tripped.trans h.2⟩)
    (fun u b _ hb => (State.FanAlone.fanTick u tach b).other c hb.symm) ⟨hm.maq, hm.rest⟩
  refine ⟨u, humaq, hutrip, hufan, ?_⟩
  unfold State.coolingTick
  extract_lets s1 s2
  rw [if_pos (by rw [hm.pair, ho]), foldl_keeps (fun u : State => u.fan c) fun u b _ => u.airCheck_fan b c]
  exact (State.fan_frame (s1.withDrive_frame _) c).trans hu

/-- The tick of a controller that drives the tray. -/
theorem coolingTick_driving (hs : s.pwr.standby = true) (hl : s.maq.live.isSome = true) (ho : s.pair.outputs = true) :
    Completes (.coolingTick tach) s fun t => ∀ c, c < 40 → (s.fanUsed c = false → t.fan c = s.fan c) ∧
      (s.fanUsed c = true → (s.fan c).st.failed = true → (t.fan c).st = (s.fan c).st ∧ (t.fan c).duty = (s.fan c).duty) ∧
      (s.fanUsed c = true → (s.fan c).st = .starting → (tach.find? fun a => a.1 == c) = none → (t.fan c).st = .starting) ∧
      (∀ v, s.fanUsed c = true → c < 32 → (s.fan c).st = .running → s.cool.tripped = true →
        s.periodSpeed c (tach.find? fun a => a.1 == c) = some v →
        (t.fan c).st = .running ∧ (t.fan c).duty = 0xFFFF ∧ ((t.fan c).src = 4 ∨ (t.fan c).src = 5)) := by
  refine completes_of ((exec_gated rfl hs).trans (congrArg _ (if_pos hl))) fun c hc => ?_
  obtain ⟨u, humaq, hutrip, hufan, ht⟩ := State.coolingTick_fan ho hc tach
  rw [ht]
  have hused : u.fanUsed c = s.fanUsed c := State.fanUsed_congr humaq c
  have hm := (State.Forces.measureTick s).fans c
  rw [← hufan] at hm
  refine ⟨fun hu => ?_, fun hu hf => ?_, fun hu hst ha => ?_, fun v hu hc' hst htrip hv => ?_⟩
  · rw [State.fanTick_unused (hused.trans hu)]
    exact hm.resolve_right fun h => absurd (hu.symm.trans h.2.1) (by decide)
  all_goals
    have hforced : FanCh.Forced c (s.fan c) (u.fan c) := hm.elim (fun h => .of_same (congrArg _ h) (congrArg _ h)) fun h => h.2.2
    rw [← hused] at hu
  · obtain ⟨hst, hduty⟩ := hforced.rests (.inl hf)
    obtain ⟨hst', hduty'⟩ := State.fanTick_waits (tach := tach) hu (.inl (hst ▸ hf))
    exact ⟨hst'.trans hst, hduty'.trans hduty⟩
  · have hst' := (hforced.rests (.inr hst)).1.trans hst
    exact (State.fanTick_waits hu (.inr ⟨hst', ha⟩)).1.trans hst'
  · obtain ⟨hst', hduty⟩ := hforced.runs hc' hst
    obtain ⟨w, hw⟩ := State.periodSpeed_some humaq hduty hv
    obtain ⟨k, hk, hcode⟩ := State.forcedBy_tripped hc' (hutrip.trans htrip)
    obtain ⟨h1, h2, h3⟩ := State.fanTick_forced hu hst' hk hw
    exact ⟨h1, h2, h3 ▸ hcode⟩

/-- Without a structure there is no tick. -/
theorem coolingTick_bare (hs : s.pwr.standby = true) (hl : s.maq.live = none) : Completes (.coolingTick tach) s fun t => t = s :=
  completes_gated rfl hs (if_neg (by rw [hl]; decide))

/-- The tick of a controller that does not drive the tray (R301). -/
theorem coolingTick_idle (hs : s.pwr.standby = true) (hl : s.maq.live.isSome = true) (ho : s.pair.outputs = false) :
    Completes (.coolingTick tach) s fun t => ∀ c, c < 40 → t.fan c = if s.fanUsed c then { s.fan c with
      speed := ((s.periodSpeed c (tach.find? fun a => a.1 == c)).map (min · 65535)).getD 0 } else s.fan c := by
  refine completes_of ((exec_gated rfl hs).trans (congrArg _ (if_pos hl))) fun c hc => ?_
  have hm := State.Forces.measureTick s
  have hfan : s.measureTick.fan c = s.fan c := (hm.fans c).resolve_right fun h => absurd (ho.symm.trans h.1) (by decide)
  obtain ⟨u, humaq, hufan, hu⟩ := foldl_once (fun u : State => u.fan c) (a := c) (s := s.measureTick)
    (f := fun u c => u.speedTick tach c) (P := fun u => u.maq = s.maq) List.nodup_range (List.mem_range.2 hc)
    (fun u b h => ((State.speedTick_touches (ps := [.cool]) rfl (.refl _ u)).only .maq rfl).trans h)
    (fun u b _ hb => u.speedTick_other hb) hm.maq
  rw [hfan] at hufan
  rw [State.coolingTick, if_neg (by rw [hm.pair, ho]; decide), hu, State.speedTick_fan, State.fanUsed_congr humaq,
    State.periodSpeed_congr humaq (congrArg FanCh.duty hufan), hufan]

/-! ## A channel set, and its output (R274, R301) -/

theorem State.fanDrive_setFan_other (s : State) (x : FanCh) {b c : Nat} (h : b ≠ c) : (s.setFan c x).fanDrive b = s.fanDrive b := by
  unfold State.fanDrive
  rw [s.fan_setFan_other c x h]
  rfl

/-- What a change from `s` to `t` puts out for one channel, where the controller drives the tray before it and after it. -/
def State.follow (s t u : State) (d : Nat) : State :=
  if !t.fanUsed d || (s.pair.outputs && s.fanDrive d == t.fanDrive d) then u else u.emit (.line 274 (2 ^ 32 * d + t.fanDrive d))

theorem State.follow_still (u : State) {d : Nat} (ho : s.pair.outputs = true) (h : t.fanUsed d = false ∨ s.fanDrive d = t.fanDrive d) :
    s.follow t u d = u := by
  refine if_pos ?_
  rcases h with h | h
  · rw [h]
    rfl
  · rw [ho, h, beq_self_eq_true]
    exact Bool.or_true _

theorem State.follow_emits (u : State) {d : Nat} (hu : t.fanUsed d = true) (h : s.fanDrive d ≠ t.fanDrive d) :
    s.follow t u d = u.emit (.line 274 (2 ^ 32 * d + t.fanDrive d)) :=
  if_neg (by rw [hu, beq_eq_false_iff_ne.2 h, Bool.and_false]; decide)

/-- A fold in which one member alone acts. -/
theorem foldl_acts_at {α : Type} [DecidableEq α] {g : State → α → State} {l : List α} {a : α} (hn : l.Nodup)
    (hg : ∀ s b, b ≠ a → g s b = s) (s : State) : l.foldl g s = if a ∈ l then g s a else s := by
  split
  next ha =>
    obtain ⟨u, -, hu, h⟩ := foldl_once (P := fun _ => True) id hn ha (fun _ _ _ => trivial) (fun s b _ hb => hg s b hb) (s := s) trivial
    exact h.trans (congrArg (g · a) hu)
  next ha => exact foldl_keeps id (fun s b hb => hg s b fun h => ha (h ▸ hb)) s

theorem State.withDrive_idle {g : State → State} (h : (g s).pair.outputs = false) : s.withDrive g = g s := if_pos (by rw [h]; rfl)

theorem State.withDrive_driving {g : State → State} (h : (g s).pair.outputs = true) :
    s.withDrive g = (List.range 40).foldl (s.follow (g s)) (g s) := if_neg (by rw [h]; decide)

/-- A change of one channel alone has that channel's output follow. -/
theorem State.withDrive_drives {g : State → State} {x : FanCh} (hg : g s = s.setFan c x) :
    s.drives (s.setFan c x) c (s.withDrive g) := by
  have hcool := s.withDrive_frame g .cool rfl
  have hidle (ho : s.pair.outputs = false) : s.withDrive g = s.setFan c x := hg ▸ State.withDrive_idle (hg ▸ ho)
  have hdrive (ho : s.pair.outputs = true) : s.withDrive g =
      if c ∈ List.range 40 then s.follow (s.setFan c x) (s.setFan c x) c else s.setFan c x := by
    rw [State.withDrive_driving (hg ▸ ho), hg]
    exact foldl_acts_at List.nodup_range
      (fun u d hd => State.follow_still u ho (.inr (s.fanDrive_setFan_other x hd).symm)) (s.setFan c x)
  refine ⟨hg ▸ hcool, fun h => ?_, fun hc ho hu h => ?_⟩
  · cases ho : s.pair.outputs with
    | false => exact hidle ho
    | true =>
      rw [hdrive ho, State.follow_still _ ho (h.resolve_left (by rw [ho]; decide)), ite_self]
  · rw [hdrive ho, if_pos (List.mem_range.2 hc)]
    exact State.follow_emits _ hu h

/-! ## The timers (R282, R283) -/

/-- The counters of a channel alone change. -/
theorem State.bumpFan_fan (s : State) (c k : Nat) :
    (s.bumpFan c k).fan c = { s.fan c with cnts := Tbl.set (s.fan c).cnts k (Tbl.get ({} : Cnt) (s.fan c).cnts k).inc.1 } := by
  exact (State.fan_frame State.bump_frame c).trans (s.fan_setFan_same c _)

/-- A channel that fails, its failure counted and recorded: the channel but for its counters. -/
theorem State.failed_fan (s : State) (c j k : Nat) (x : FanCh) :
    ∃ cnts, (((s.setFan c x).bumpFan c j).fanEvent c k).fan c = { x with cnts := cnts } := by
  have h := (s.setFan c x).bumpFan_fan c j
  rw [State.fan_setFan_same] at h
  exact ⟨_, (State.fan_frame (State.fanEvent_touches rfl (.refl [.log, .evt] ((s.setFan c x).bumpFan c j))).only c).trans h⟩

/-- A channel that has not started in time fails: it stalls, or seizes after its fourth attempt (R282, R283). -/
def State.startFails (s : State) (f : Nat) : State :=
  if (s.fan f).attempt < 4 then ((s.setFan f { s.fan f with st := .stalled, duty := s.stallDuty f }).bumpFan f 0).fanEvent f 1
  else ((s.setFan f { s.fan f with st := .seized, duty := s.stallDuty f }).bumpFan f 1).fanEvent f 2

theorem State.startFails_fan (s : State) (f : Nat) : ∃ cnts, (s.startFails f).fan f =
    { s.fan f with st := if (s.fan f).attempt < 4 then .stalled else .seized, duty := s.stallDuty f, cnts := cnts } := by
  unfold State.startFails
  split <;> exact s.failed_fan f _ _ _

theorem fanStartTimeout_effect (hs : s.pwr.standby = true) (hst : (s.fan f).st = .starting) : Completes (.fanStartTimeout f) s fun t =>
    (t.fan f).duty = s.stallDuty f ∧ (t.fan f).attempt = (s.fan f).attempt ∧ s.onlyChanges [.cool, .log, .evt, .out] t ∧
    ((s.fan f).attempt < 4 → (t.fan f).st = .stalled) ∧ (4 ≤ (s.fan f).attempt → (t.fan f).st = .seized) := by
  let g (s : State) : State := if (s.fan f).st = .starting then s.startFails f else s
  have he : exec (.fanStartTimeout f) s = .next (s.withDrive g) := exec_gated rfl hs
  have hg : g s = s.startFails f := if_pos hst
  obtain ⟨cnts, hfan⟩ := s.startFails_fan f
  have ht := State.fan_frame (s.withDrive_frame g) f
  rw [hg, hfan] at ht
  refine completes_of he ?_
  rw [ht]
  exact ⟨rfl, rfl, only_of (execFanStartTimeout_touches rfl (.refl _ s)) he, fun h => if_pos h, fun h => if_neg (Nat.not_lt.2 h)⟩

/-- A stalled channel starts anew. -/
theorem fanStallTimerExpiry_effect {u : State} (hs : s.pwr.standby = true) (hst : (s.fan f).st = .stalled)
    (hu : u = s.setFan f ((s.fan f).start ((s.fan f).attempt + 1))) : Completes (.fanStallTimerExpiry f) s (s.drives u f) := by
  subst hu
  exact completes_of (exec_gated rfl hs) (State.withDrive_drives (if_pos hst))

theorem fanSeizedTimerExpiry_effect {u : State} (hs : s.pwr.standby = true) (hst : (s.fan f).st = .seized)
    (hu : u = s.setFan f ((s.fan f).start 4)) : Completes (.fanSeizedTimerExpiry f) s (s.drives u f) := by
  subst hu
  exact completes_of (exec_gated rfl hs) (State.withDrive_drives (if_pos hst))

/-! ## The commands (R278, R283, R288) -/

section Commands
variable (hc : s.pwr.core = true) (hm : s.may r.principal .cooling = true)
include hc hm

theorem fanTargetWrite_effect {v : Nat} (hf : f < 40) : Completes (.fanTargetWrite r f v) s fun t =>
    t.fan f = { s.fan f with target := min v (ctMax (s.ctl f)) } ∧ t.cool.tripped = false ∧ s.onlyChanges [.cool] t := by
  have he : exec (.fanTargetWrite r f v) s =
      .next (s.setFan f { s.fan f with target := min v (ctMax (s.ctl f)) }).wdtRefresh :=
    (exec_gated rfl hc).trans (congrArg _ ((withWriteRight_on hm).trans (if_neg (Nat.not_le.2 hf))))
  exact completes_of he ⟨s.fan_setFan_same f _, rfl, (State.wdtRefresh_touches rfl (State.setFan_touches rfl (.refl _ s))).only⟩

theorem fanClear_effect {u : State} (hf : f < 40) (hst : (s.fan f).st.failed = true)
    (hu : u = s.setFan f { s.fan f with st := .off, attempt := 0, duty := 0 }) : Completes (.fanClear r f) s (s.drives u f) := by
  subst hu
  have he : exec (.fanClear r f) s =
      .next (s.withDrive fun s => s.setFan f { s.fan f with st := .off, attempt := 0, duty := 0 }) :=
    (exec_gated rfl hc).trans (congrArg _ ((withWriteRight_on hm).trans (if_pos (by rw [hst, decide_eq_true hf]; rfl))))
  exact completes_of he (State.withDrive_drives rfl)

theorem coolWdtRefresh_effect : Completes (.coolWdtRefresh r) s fun t =>
    t = { s with cool := { s.cool with tripped := false, wdtAt := s.plinth } } :=
  completes_of ((exec_gated rfl hc).trans (congrArg _ (withWriteRight_on hm))) rfl

end Commands

/-! ## The cooling watchdog (R288) -/

theorem coolWdtExpiry_early (hs : s.pwr.standby = true) (h : s.plinth < s.cool.wdtAt + secs (clWdt.nat (s.sec 0x09))) :
    Completes .coolWdtExpiry s fun t => t = s := by
  refine completes_gated rfl hs (if_neg ?_)
  rw [show s.since (some s.cool.wdtAt) (secs (clWdt.nat (s.sec 0x09))) = false from decide_eq_false (Nat.not_le.2 h), Bool.and_false]
  decide

/-- A fan that runs goes to full duty as the watchdog trips (R280). -/
theorem State.forceNow_running (hl : s.maq.live.isSome = true) (ho : s.pair.outputs = true) (htrip : s.cool.tripped = true) (hc : c < 32)
    (hu : s.fanUsed c = true) (hst : (s.fan c).st = .running) :
    (s.forceNow.fan c).duty = 0xFFFF ∧ ((s.forceNow.fan c).src = 4 ∨ (s.forceNow.fan c).src = 5) := by
  obtain ⟨u, ⟨humaq, hutrip⟩, hufan, h⟩ := foldl_once (fun u : State => u.fan c) (a := c) (s := s) (f := State.forceFan)
    (P := fun u => u.maq = s.maq ∧ u.cool.tripped = s.cool.tripped) List.nodup_range (List.mem_range.2 (show c < 40 by omega))
    (fun u b h => ⟨(State.FanAlone.forceFan u b).maq.trans h.1, (State.FanAlone.forceFan u b).tripped.trans h.2⟩)
    (fun u b _ hb => (State.FanAlone.forceFan u b).other c hb.symm) ⟨rfl, rfl⟩
  obtain ⟨k, hk, hcode⟩ := State.forcedBy_tripped hc (hutrip.trans htrip)
  rw [State.forceNow_on hl ho, State.fan_frame (s.withDrive_frame _) c, h, State.forceFan_running hc
    ((State.fanUsed_congr humaq c).trans hu) ((congrArg FanCh.st hufan).trans hst) hk, State.fan_setFan_same]
  exact ⟨rfl, hcode⟩

theorem coolWdtExpiry_trips (hs : s.pwr.standby = true) (hr : s.cool.wdtRunning = true) (hsus : s.cool.suspended = false)
    (ht : s.cool.tripped = false) (h : s.cool.wdtAt + secs (clWdt.nat (s.sec 0x09)) ≤ s.plinth) :
    Completes .coolWdtExpiry s fun t => t.cool.tripped = true ∧ t.cool.wdtTripped = true ∧
      s.onlyChanges [.cool, .log, .evt, .out] t ∧ (s.maq.live.isSome = true → s.pair.outputs = true → ∀ c, c < 32 →
        s.fanUsed c = true → (s.fan c).st = .running → (t.fan c).duty = 0xFFFF ∧ ((t.fan c).src = 4 ∨ (t.fan c).src = 5)) := by
  let u : State := { s with cool := { s.cool with tripped := true, wdtTripped := true } }
  have hdue : s.since (some s.cool.wdtAt) (secs (clWdt.nat (s.sec 0x09))) = true := decide_eq_true h
  have he : exec .coolWdtExpiry s = .next (u.forceNow.fanEventAll 6) :=
    (exec_gated rfl hs).trans (congrArg _ (if_pos (by rw [hr, hsus, ht, hdue]; rfl)))
  have hf : u.forceNow.onlyChanges [.log, .evt] (u.forceNow.fanEventAll 6) := (State.fanEventAll_touches rfl (.refl _ u.forceNow)).only
  have hcool := hf .cool rfl
  obtain ⟨fans, hfans⟩ := u.forceNow_cool
  refine completes_of he ⟨?_, ?_, only_of (execCoolWdtExpiry_touches rfl (.refl _ s)) he, fun hl ho c hc hu hst => ?_⟩
  · exact (congrArg Cooling.tripped hcool).trans (congrArg Cooling.tripped hfans)
  · exact (congrArg Cooling.wdtTripped hcool).trans (congrArg Cooling.wdtTripped hfans)
  · rw [State.fan_frame hf]
    exact State.forceNow_running (s := u) hl ho rfl hc hu hst

/-- Settles O20: the measurements of a tick leave a channel as it was or as a source forces it, and of the channels' ticks a channel's own
alone touches it; a command or a timer that sets one channel has that channel's output follow. -/
theorem fansTakeEffect : Obligations.FansTakeEffect := by
  unfold Obligations.FansTakeEffect
  exact fun s => ⟨fun _ => coolingTick_driving, fun _ => coolingTick_bare, fun _ => coolingTick_idle, fun _ => fanStartTimeout_effect,
    fun _ _ => fanStallTimerExpiry_effect, fun _ _ => fanSeizedTimerExpiry_effect,
    fun _ hc hm => ⟨fun _ _ => fanTargetWrite_effect hc hm, fun _ _ => fanClear_effect hc hm, coolWdtRefresh_effect hc hm⟩,
    coolWdtExpiry_early, coolWdtExpiry_trips⟩

end Sys2Proof.Machine
end


section
/-!
SUPPORT. Valves, flow meters and coolant pressure: moves, confirmations, and the losses and their ends (R290 to R293), and O21.
-/
namespace Sys2Proof.Machine

variable {s t : State} {v m p : Nat} {r : Req}

/-! ## Valves (R290) -/

theorem State.valve_congr (h : t.cool.valves = s.cool.valves) (v : Nat) : t.valve v = s.valve v := by
  rw [State.valve, h]
  rfl

theorem State.meter_congr (h : t.cool.meters = s.cool.meters) (m : Nat) : t.meter m = s.meter m := by
  rw [State.meter, h]
  rfl

theorem State.pressS_congr (h : t.cool.press = s.cool.press) (p : Nat) : t.pressS p = s.pressS p := by
  rw [State.pressS, h]
  rfl

theorem State.coolantEvent_frame (s : State) (src kind value limit mask : Nat) :
    s.onlyChanges [.log, .evt] (s.coolantEvent src kind value limit mask) := (State.coolantEvent_touches rfl (.refl _ s)).only

theorem State.coolantEvent_cool (s : State) (src kind value limit mask : Nat) : (s.coolantEvent src kind value limit mask).cool = s.cool :=
  s.coolantEvent_frame src kind value limit mask .cool rfl

/-- A confirmed move: the valve stands where it was read, without a fault. -/
theorem State.confirmValve_valve (s : State) (v : Nat) (x : Valve) :
    (s.confirmValve v x).valve v = { x with moving := false, confirmed := true, strayed := false, fault := false } := by
  unfold State.confirmValve
  extract_lets s1
  refine (State.valve_congr (s := s1) (congrArg Cooling.valves ?_) v).trans (s.valve_setValve_same v _)
  split
  · exact s1.coolantEvent_cool ..
  · rfl

theorem State.confirmValve_frame (s : State) (v : Nat) (x : Valve) : s.onlyChanges [.cool, .log, .evt] (s.confirmValve v x) :=
  (State.confirmValve_touches rfl (.refl _ s)).only

/-- A valve's command or hold changes: it is taken over, and a line goes out exactly if what is driven changes (R290). -/
theorem State.moveValve_effect (s : State) (v : Nat) (x : Valve) {t : State} (ht : t = s.moveValve v x) :
    (t.valve v).cmd = x.cmd ∧ (t.valve v).held = x.held ∧
    (t.valveDrive v = s.valveDrive v → t.out = s.out) ∧
    (t.valveDrive v ≠ s.valveDrive v → t.out = .line 290 (2 * v + bitAt (t.valveDrive v) 0) :: s.out) := by
  unfold State.moveValve at ht
  extract_lets was drive s1 now s2 at ht
  have h1 : s1.valve v = x := s.valve_setValve_same v x
  split at ht
  next hpos =>
    have hdrive : s1.valveDrive v = s.valveDrive v := congrArg (fun b => s.pair.outputs && (b != _)) hpos.symm
    rw [ht, h1]
    exact ⟨rfl, rfl, fun _ => rfl, fun h => absurd hdrive h⟩
  next =>
    have hf : s1.onlyChanges [.cool, .log, .evt] s2 :=
      (Touches.ite (State.confirmValve_touches rfl (.refl _ s1)) (State.setValve_touches rfl (.refl _ s1))).only
    have h2 : (s2.valve v).cmd = x.cmd ∧ (s2.valve v).held = x.held := by
      unfold s2
      split
      · rw [State.confirmValve_valve]
        exact ⟨rfl, rfl⟩
      · rw [State.valve_setValve_same]
        exact ⟨rfl, rfl⟩
    have hout : s2.out = s.out := hf .out rfl
    clear_value s2
    split at ht
    next hdrive =>
      rw [ht]
      exact ⟨h2.1, h2.2, fun _ => hout, fun h => absurd hdrive h⟩
    next hdrive =>
      rw [ht]
      exact ⟨h2.1, h2.2, fun h => absurd h hdrive, fun _ => congrArg _ hout⟩

theorem valveCmdWrite_effect {cmd : Nat} (hc : s.pwr.core = true) (hm : s.may r.principal .cooling = true) (hv : v < 16) (hcmd : cmd < 3) :
    Completes (.valveCmdWrite r v cmd) s fun t => (t.valve v).cmd = cmd ∧ (t.valve v).held = (s.valve v).held ∧
      s.onlyChanges [.cool, .log, .evt, .out] t ∧ (t.valveDrive v = s.valveDrive v → t.out = s.out) ∧
      (t.valveDrive v ≠ s.valveDrive v → t.out = .line 290 (2 * v + bitAt (t.valveDrive v) 0) :: s.out) := by
  have he : exec (.valveCmdWrite r v cmd) s = .next (s.moveValve v { s.valve v with cmd := cmd }) :=
    (exec_gated rfl hc).trans (congrArg _ ((withWriteRight_on hm).trans (if_pos ⟨hv, hcmd⟩)))
  obtain ⟨hcmd', hheld, hsame, hmoved⟩ := s.moveValve_effect v { s.valve v with cmd := cmd } rfl
  exact completes_of he ⟨hcmd', hheld, (State.moveValve_touches rfl (.refl _ s)).only, hsame, hmoved⟩

section Standby
variable (hs : s.pwr.standby = true)
include hs

/-- A valve's fault with its record. -/
theorem valveTravelTimeout_effect (hmv : (s.valve v).moving = true) (hf : (s.valve v).fault = false) :
    Completes (.valveTravelTimeout v) s fun t =>
      t.valve v = { s.valve v with fault := true } ∧ s.onlyChanges [.cool, .log, .evt] t := by
  have he : exec (.valveTravelTimeout v) s = .next _ := (exec_gated rfl hs).trans (congrArg _ (if_pos (by rw [hmv, hf]; rfl)))
  refine completes_of he ⟨?_, only_of (execValveTravelTimeout_touches rfl (.refl _ s)) he⟩
  exact (State.valve_congr (congrArg Cooling.valves (State.coolantEvent_cool ..)) v).trans (s.valve_setValve_same v _)

theorem valveUncommandedTimer_effect (hst : (s.valve v).strayed = true) (hf : (s.valve v).fault = false) :
    Completes (.valveUncommandedTimer v) s fun t =>
      t.valve v = { s.valve v with fault := true } ∧ s.onlyChanges [.cool, .log, .evt] t := by
  have he : exec (.valveUncommandedTimer v) s = .next _ := (exec_gated rfl hs).trans (congrArg _ (if_pos (by rw [hst, hf]; rfl)))
  refine completes_of he ⟨?_, only_of (execValveUncommandedTimer_touches rfl (.refl _ s)) he⟩
  exact (State.valve_congr (congrArg Cooling.valves (State.coolantEvent_cool ..)) v).trans (s.valve_setValve_same v _)

theorem valvePosChange_confirms {level : Bool} (h : (level != (u8 (valveEntry s.topo v) 0).testBit 2) = s.valvePos v) :
    Completes (.valvePosChange v level) s fun t =>
      t.valve v = { s.valve v with pos := s.valvePos v, moving := false, confirmed := true, strayed := false, fault := false } ∧
      s.onlyChanges [.cool, .log, .evt] t := by
  have he : exec (.valvePosChange v level) s = .next (s.confirmValve v { s.valve v with pos := s.valvePos v }) := by
    refine (exec_gated rfl hs).trans (congrArg _ ((if_pos h.symm).trans ?_))
    rw [h]
  exact completes_of he ⟨s.confirmValve_valve v _, s.confirmValve_frame v _⟩

theorem valvePosChange_leaves {level : Bool} (h : (level != (u8 (valveEntry s.topo v) 0).testBit 2) ≠ s.valvePos v) :
    Completes (.valvePosChange v level) s fun t =>
      t = s.setValve v { s.valve v with pos := !s.valvePos v, confirmed := false, strayed := !(s.valve v).moving } := by
  refine completes_of ((exec_gated rfl hs).trans (congrArg _ (if_neg h.symm))) ?_
  rw [Bool.eq_not_of_ne h]

/-! ## Flow and pressure (R291 to R293) -/

theorem flowRateUpdate_effect (hu : entryUsed (meterEntry s.topo m) = true) : Completes (.flowRateUpdate m p) s fun t =>
    s.onlyChanges [.cool] t ∧ (t.meter m).rate = min (p * 6000 * 100 / u32 (meterEntry s.topo m) 4) 65535 ∧
    (t.meter m).loss = (s.meter m).loss ∧
    ((t.meter m).rate < u16 (meterEntry s.topo m) 8 → s.pumpRuns m = true → (t.meter m).lowSince.isSome = true) ∧
    (s.pumpRuns m = false → (t.meter m).lowSince = none) := by
  have he : exec (.flowRateUpdate m p) s = .next _ := (exec_gated rfl hs).trans (congrArg _ (if_neg (by rw [hu]; decide)))
  refine completes_of he ⟨only_of (execFlowRateUpdate_touches rfl (.refl _ s)) he, ?_⟩
  rw [State.meter_setMeter_same]
  refine ⟨rfl, rfl, fun hlow hp => ?_, fun hp => ?_⟩
  · rw [hp, if_pos (by rw [decide_eq_true hlow]; rfl)]
    rfl
  · rw [hp, if_neg (by rw [Bool.and_false]; decide)]

end Standby

/-- A zone takes over the losses of its meters and sensors (R293). -/
def State.lossZone (s : State) (z : Nat) : State :=
  let f := (List.range 16).any fun m => (s.meter m).loss && (u16 (meterEntry s.topo m) 2).testBit z
  let p := (List.range 8).any fun k => (s.pressS k).loss && (u16 (pressEntry s.topo k) 0xE).testBit z
  s.setCzone z { s.czone z with flowLoss := f, pressLoss := p }

theorem State.lossBits_eq (s : State) : s.lossBits = ((List.range 16).foldl State.lossZone s).leakJudgeAll := rfl

/-- What reads neither channels nor valves nor zones stands as the zones take over the losses. -/
theorem State.lossBits_keeps {α : Type} (f : Cooling → α) (hf : ∀ x : Cooling, f x.apart = f x)
    (hz : ∀ (s : State) z, f (s.lossZone z).cool = f s.cool) (s : State) : f s.lossBits.cool = f s.cool := by
  rw [State.lossBits_eq]
  exact ((State.Forces.leakJudgeAll _).of_apart hf).rest.trans (foldl_keeps (fun u : State => f u.cool) (fun u z _ => hz u z) s)

theorem State.meter_lossBits (s : State) (m : Nat) : s.lossBits.meter m = s.meter m :=
  State.meter_congr (State.lossBits_keeps Cooling.meters (fun _ => rfl) (fun _ _ => rfl) s) m

theorem State.pressS_lossBits (s : State) (p : Nat) : s.lossBits.pressS p = s.pressS p :=
  State.pressS_congr (State.lossBits_keeps Cooling.press (fun _ => rfl) (fun _ _ => rfl) s) p

/-- A zone is in flow loss where one of its meters is (R293). -/
theorem State.lossBits_flowLoss {z : Nat} (hz : z < 16) (s : State) : (s.lossBits.czone z).flowLoss =
    (List.range 16).any fun m => (s.meter m).loss && (u16 (meterEntry s.topo m) 2).testBit z := by
  obtain ⟨u, ⟨hmaq, hmeters⟩, -, h⟩ := foldl_once (fun u : State => u.czone z) (a := z) (s := s) (f := State.lossZone)
    (P := fun u => u.maq = s.maq ∧ u.cool.meters = s.cool.meters) List.nodup_range (List.mem_range.2 hz) (fun _ _ h => h)
    (fun u b _ hb => u.czone_setCzone_other b _ hb.symm) ⟨rfl, rfl⟩
  rw [State.lossBits_eq, State.czone_congr ((State.Forces.leakJudgeAll _).of_apart (f := Cooling.zones)).rest, h, State.lossZone,
    State.czone_setCzone_same]
  simp only [State.meter, hmeters, State.topo_congr hmaq]

section Losses
variable (hs : s.pwr.standby = true)
include hs

theorem flowLossTimeExpiry_effect (hm : m < 16) (hlow : (s.meter m).lowSince.isSome = true) (hl : (s.meter m).loss = false) :
    Completes (.flowLossTimeExpiry m) s fun t => t.meter m = { s.meter m with loss := true } ∧
      ∀ z, z < 16 → (u16 (meterEntry s.topo m) 2).testBit z = true → (t.czone z).flowLoss = true := by
  let e := meterEntry s.topo m
  let lost := s.setMeter m { s.meter m with loss := true }
  let u := lost.coolantEvent (0x150 + m) 2 (s.meter m).rate (u16 e 8) (u16 e 2)
  have he : exec (.flowLossTimeExpiry m) s = .next u.lossBits :=
    (exec_gated rfl hs).trans (congrArg _ (if_pos (by rw [hlow, hl]; rfl)))
  have hf : lost.onlyChanges [.log, .evt] u := lost.coolantEvent_frame _ _ _ _ _
  have hmeter : u.meter m = { s.meter m with loss := true } :=
    (State.meter_congr (congrArg Cooling.meters (hf .cool rfl)) m).trans (s.meter_setMeter_same m _)
  refine completes_of he ⟨(u.meter_lossBits m).trans hmeter, fun z hz hbit => ?_⟩
  rw [State.lossBits_flowLoss hz]
  refine List.any_eq_true.2 ⟨m, List.mem_range.2 hm, ?_⟩
  rw [hmeter, State.topo_congr (hf .maq rfl)]
  exact hbit

theorem coolantLossEndTimer_meter (hm : m < 16) (hl : (s.meter m).loss = true) (hlow : (s.meter m).lowSince = none) :
    Completes (.coolantLossEndTimer m) s fun t => t.meter m = { s.meter m with loss := false } := by
  have he : exec (.coolantLossEndTimer m) s = .next _ :=
    (exec_gated rfl hs).trans (congrArg _ ((if_pos hm).trans (if_pos (by rw [hl, hlow]; rfl))))
  refine completes_of he ?_
  exact (State.meter_lossBits _ m).trans
    ((State.meter_congr (congrArg Cooling.meters (State.coolantEvent_cool ..)) m).trans (s.meter_setMeter_same m _))

theorem coolantLossEndTimer_press (hp : p < 8) (hl : (s.pressS p).loss = true) (hj : (s.pressS p).judged = false) :
    Completes (.coolantLossEndTimer (16 + p)) s fun t => t.pressS p = { s.pressS p with loss := false } := by
  have he : exec (.coolantLossEndTimer (16 + p)) s = .next _ :=
    (exec_gated rfl hs).trans (congrArg _ ((if_neg (by omega)).trans (if_pos (by rw [Nat.add_sub_cancel_left, hl, hj]; rfl))))
  refine completes_of he ?_
  rw [Nat.add_sub_cancel_left]
  exact (State.pressS_lossBits _ p).trans
    ((State.pressS_congr (congrArg Cooling.press (State.coolantEvent_cool ..)) p).trans (s.pressS_setPressS_same p _))

end Losses

/-- Settles O21: a move takes over command and hold and puts out a line where what is driven changes; what zones take over of a loss, and
the leaks judged again upon it, leave the meters and sensors as they stand. -/
theorem valvesAndFlowTakeEffect : Obligations.ValvesAndFlowTakeEffect := by
  unfold Obligations.ValvesAndFlowTakeEffect
  exact fun s => ⟨fun _ _ _ => valveCmdWrite_effect, fun hs => ⟨fun _ => valveTravelTimeout_effect hs,
    fun _ _ => valvePosChange_confirms hs, fun _ _ => valvePosChange_leaves hs, fun _ => valveUncommandedTimer_effect hs,
    fun _ _ => flowRateUpdate_effect hs, fun _ => flowLossTimeExpiry_effect hs, fun _ => coolantLossEndTimer_meter hs,
    fun _ => coolantLossEndTimer_press hs⟩⟩

end Sys2Proof.Machine
end


section
/-!
SUPPORT. Thermal zones: exclusion and readmission of members, the cold-lie check, the guard's end and ZONE_CLEAR (R297, R298, R300), and
O22.
-/
namespace Sys2Proof.Machine

variable {s t : State} {z k : Nat} {m : Member} {r : Req}

/-! ## The judgement of a zone (R299, R300) -/

/-- What the judgement of a zone reads and leaves alone: its members, its history and COLD_LIE. -/
def Zone.evidence (x : Zone) : Tbl Member × List (Int × Option Int) × Bool := (x.members, x.cold, x.coldLie)

theorem State.czone_zoneEvent (s : State) (z kind slot : Nat) (value rise : Int) (y : Nat) :
    (s.zoneEvent z kind slot value rise).czone y = s.czone y :=
  State.czone_congr (congrArg Cooling.zones ((State.zoneEvent_touches rfl (.refl [.log, .evt] s)).only .cool rfl)) y

theorem State.czone_forceNow (s : State) (y : Nat) : s.forceNow.czone y = s.czone y :=
  State.czone_congr ((State.Forces.forceNow s).of_apart (f := Cooling.zones)).rest y

theorem State.zoneJudge_evidence (s : State) (z : Nat) : ((s.zoneJudge z).czone z).evidence = (s.czone z).evidence := by
  unfold State.zoneJudge
  extract_lets x l vals deg med temp level guard past s1 s2 s3
  have h1 : (s1.czone z).evidence = (s.czone z).evidence := by
    rw [show s1.czone z = _ from s.czone_setCzone_same z _]
    rfl
  have h2 : s2.czone z = s1.czone z := by
    unfold s2
    split
    · exact s1.czone_zoneEvent ..
    · rfl
  have h3 : s3.czone z = s2.czone z := by
    unfold s3
    split
    · exact (State.czone_forceNow _ z).trans (s2.czone_zoneEvent ..)
    · rfl
  have h4 {b : Prop} [Decidable b] : (if b then s3.zoneEvent z 7 0xFF 0 0 else s3).czone z = s3.czone z := by
    split
    · exact s3.czone_zoneEvent ..
    · rfl
  rw [h4, h3, h2, h1]

/-- The members of a zone that is set, judged again and recorded. -/
theorem State.zoneJudge_members (s : State) (z : Nat) (x : Zone) (kind slot : Nat) (value rise : Int) :
    ((((s.setCzone z x).zoneJudge z).zoneEvent z kind slot value rise).czone z).members = x.members := by
  rw [State.czone_zoneEvent]
  refine (congrArg Prod.fst (State.zoneJudge_evidence _ z)).trans ?_
  rw [State.czone_setCzone_same]
  rfl

section Standby
variable (hs : s.pwr.standby = true)
include hs

/-! ## Members (R297) -/

theorem zoneSensorExclusion_effect (hk : Tbl.get {} (s.czone z).members k = m) (he : m.excl = false)
    (hcnt : znExcl.nat (s.zoneOf z) ≤ m.cnt) : Completes (.zoneSensorExclusion z k) s fun t =>
      s.onlyChanges [.cool, .log, .evt, .out] t ∧
      (Tbl.get ({} : Member) (t.czone z).members k).excl = true ∧ (Tbl.get ({} : Member) (t.czone z).members k).valid = false ∧
      ((Tbl.get ({} : Member) (t.czone z).members k).held = true ↔ m.held = true ∨
        2 ≤ (m.times.filter fun u => decide (s.plinth < u + secs 3600)).length) := by
  subst hk
  have hx : exec (.zoneSensorExclusion z k) s = .next _ :=
    (exec_gated rfl hs).trans (congrArg _ (if_neg (by rw [he, decide_eq_false (Nat.not_lt.2 hcnt)]; decide)))
  refine completes_of hx ⟨only_of (execZoneSensorExclusion_touches rfl (.refl _ s)) hx, ?_⟩
  rw [State.zoneJudge_members, Tbl.get_set_same]
  refine ⟨rfl, rfl, ?_⟩
  rw [Bool.or_eq_true, decide_eq_true_eq]

theorem zoneSensorReadmission_readmits (hk : Tbl.get {} (s.czone z).members k = m) (he : m.excl = true) (hheld : m.held = false)
    (hr : m.readmit = 600) (hcnt : m.cnt < znExcl.nat (s.zoneOf z)) : Completes (.zoneSensorReadmission z k) s fun t =>
      s.onlyChanges [.cool, .log, .evt, .out] t ∧
      Tbl.get {} (t.czone z).members k = { m with excl := false, valid := !m.rated, readmit := 0, cnt := 0 } := by
  subst hk
  have hx : exec (.zoneSensorReadmission z k) s = .next _ :=
    (exec_gated rfl hs).trans (congrArg _ ((if_pos (by rw [he, hheld, hr]; rfl)).trans (if_neg (Nat.not_le.2 hcnt))))
  refine completes_of hx ⟨only_of (execZoneSensorReadmission_touches rfl (.refl _ s)) hx, ?_⟩
  rw [State.zoneJudge_members, Tbl.get_set_same]

/-- An exclusion count that has reached its limit keeps the member excluded. -/
theorem zoneSensorReadmission_excluded (hk : Tbl.get {} (s.czone z).members k = m) (he : m.excl = true) (hheld : m.held = false)
    (hr : m.readmit = 600) (hcnt : znExcl.nat (s.zoneOf z) ≤ m.cnt) : Completes (.zoneSensorReadmission z k) s fun t =>
      s.onlyChanges [.cool] t ∧ Tbl.get {} (t.czone z).members k = { m with readmit := 0, cnt := 0 } := by
  subst hk
  have hx : exec (.zoneSensorReadmission z k) s = .next _ :=
    (exec_gated rfl hs).trans (congrArg _ ((if_pos (by rw [he, hheld, hr]; rfl)).trans (if_pos hcnt)))
  refine completes_of hx ⟨(State.setCzone_touches rfl (.refl _ s)).only, ?_⟩
  rw [State.czone_setCzone_same, Tbl.get_set_same]

/-! ## The cold lie and the guard (R298, R300) -/

theorem zoneColdLieCheck_effect (hu : znUsed (s.zoneOf z) = true) (hd : lmColdDp (s.limits z) ≠ 0) :
    Completes (.zoneColdLieCheck z) s fun t => s.onlyChanges [.cool, .log, .evt, .out] t ∧
      (t.czone z).cold = ((s.zonePower z, (s.czone z).median) :: (s.czone z).cold).take (lmColdWin.nat (s.limits z)) ∧
      ∀ p m b, leastPower ((s.czone z).cold.take (lmColdWin.nat (s.limits z))) = some (p, some m) → (s.czone z).median = some b →
        (lmColdDp (s.limits z) : Int) ≤ s.zonePower z - p →
        (t.czone z).coldLie = decide (b - m < lmColdDt.val (s.limits z)) := by
  have hx : exec (.zoneColdLieCheck z) s = .next _ :=
    (exec_gated rfl hs).trans (congrArg _ (if_neg (by rw [hu, beq_eq_false_iff_ne.2 hd]; decide)))
  extract_lets x p hist rise lie s1 s2 at hx
  have hlie (p0 m0 b : Int) (hleast : leastPower hist = some (p0, some m0)) (hmed : x.median = some b)
      (hrise : (lmColdDp (s.limits z) : Int) ≤ p - p0) : lie = decide (b - m0 < lmColdDt.val (s.limits z)) := by
    unfold lie rise
    rw [hleast]
    dsimp only
    rw [if_pos hrise, hmed]
    rfl
  have hs2 : s2.czone z = { x with cold := ((p, x.median) :: x.cold).take (lmColdWin.nat (s.limits z)), coldLie := lie } := by
    refine Eq.trans ?_ (s.czone_setCzone_same z _)
    unfold s2
    split
    · exact s1.czone_zoneEvent ..
    · rfl
  obtain ⟨-, hcold, hlie'⟩ : _ ∧ _ ∧ _ := by simpa only [Zone.evidence, Prod.mk.injEq, hs2] using s2.zoneJudge_evidence z
  refine completes_of hx ⟨only_of (execZoneColdLieCheck_touches rfl (.refl _ s)) hx, hcold, fun p0 m0 b hleast hmed hrise => ?_⟩
  exact hlie'.trans (hlie p0 m0 b hleast hmed hrise)

theorem zoneGuardExitTimer_effect (h : (s.czone z).temp < lmLimit (s.limits z) - 2 * lmMargin.val (s.limits z)) :
    Completes (.zoneGuardExitTimer z) s fun t => t = s.setCzone z { s.czone z with guard := false } :=
  completes_of ((exec_gated rfl hs).trans (congrArg _ (if_pos h))) rfl

end Standby

/-! ## ZONE_CLEAR (R297, R298) -/

theorem Tbl.get_map {α β : Type} (f : α → β) (d : α) (t : Tbl α) (k : Nat) :
    Tbl.get (f d) (t.map fun e => (e.1, f e.2)) k = f (Tbl.get d t k) := by
  induction t with
  | nil => rfl
  | cons e t ih =>
    obtain ⟨j, v⟩ := e
    by_cases h : j = k
    · simp only [List.map_cons, Tbl.get, if_pos h]
    · simp only [List.map_cons, Tbl.get, if_neg h, ih]

theorem zoneClear_effect (hc : s.pwr.core = true) (hm : s.may r.principal .cooling = true) (hz : z < 16) :
    Completes (.zoneClear r z) s fun t => s.onlyChanges [.cool] t ∧ (t.czone z).coldLie = false ∧ (t.czone z).cold = (s.czone z).cold ∧
      ∀ k, (Tbl.get ({} : Member) (t.czone z).members k).held = false ∧
        (Tbl.get ({} : Member) (t.czone z).members k).excl = (Tbl.get ({} : Member) (s.czone z).members k).excl := by
  have he : exec (.zoneClear r z) s = .next (s.setCzone z { s.czone z with
      coldLie := false, members := (s.czone z).members.map fun m => (m.1, { m.2 with held := false, times := [] }) }) :=
    (exec_gated rfl hc).trans (congrArg _ ((withWriteRight_on hm).trans (if_neg (Nat.not_le.2 hz))))
  refine completes_of he ⟨(State.setCzone_touches rfl (.refl _ s)).only, ?_⟩
  rw [State.czone_setCzone_same]
  refine ⟨rfl, rfl, fun k => ?_⟩
  have h := Tbl.get_map (fun m : Member => { m with held := false, times := [] }) {} (s.czone z).members k
  exact ⟨(congrArg Member.held h :), (congrArg Member.excl h :)⟩

/-- Settles O22: the judgement that follows a change of a zone's members or history leaves them as they were set. -/
theorem zonesTakeEffect : Obligations.ZonesTakeEffect := by
  unfold Obligations.ZonesTakeEffect
  exact fun s z => ⟨fun hs => ⟨fun _ _ hk he => zoneSensorExclusion_effect hs hk he,
      fun _ _ hk he hheld hr => ⟨zoneSensorReadmission_readmits hs hk he hheld hr, zoneSensorReadmission_excluded hs hk he hheld hr⟩,
      zoneColdLieCheck_effect hs, zoneGuardExitTimer_effect hs⟩,
    fun _ => zoneClear_effect⟩

end Sys2Proof.Machine
end


section
/-!
SUPPORT. Leaks and ground shaking: what reactions leave of the Hazards block, readings of leak sensors, LEAK_CLEAR, Brace and the
accelerometer (R303 to R305, R312, R314 to R318), and O23.
-/
namespace Sys2Proof.Machine

variable {s t : State} {n z cls : Nat} {r : Req}

/-! ## What reactions leave of the Hazards block (R311) -/

/-- The Hazards block without its zones: what a leak reaction leaves alone. -/
def Hazards.apart (x : Hazards) : Hazards := { x with zones := [] }

/-- The parts that a reaction changes, once its zone is set. -/
def reactionParts : List Part :=
  [.pwr, .seq, .log, .mem, .cap, .met, .pnt, .cool, .chi, .cal, .jrn, .ques, .ebx, .evt, .dram, .out]

theorem State.apart_touches {ps : List Part} (h : Touches ps s t) (hp : ps.contains .haz = false := by rfl) :
    t.haz.apart = s.haz.apart := congrArg Hazards.apart (h.only .haz hp)

theorem State.apart_event (s : State) (blk cause inst data : Nat) : (s.event blk cause inst data).haz.apart = s.haz.apart :=
  State.apart_touches (State.event_touches rfl (.refl [.evt] s))

theorem State.apart_bump {blk inst : Nat} {c : Cnt} {put : Cnt → State → State} :
    (s.bump blk inst c put).haz.apart = (put c.inc.1 s).haz.apart := congrArg Hazards.apart (State.bump_frame .haz rfl)

theorem State.apart_leakEvent (s : State) (src kind : Nat) (x : LeakSensor) (z re ev mask : Nat) :
    (s.leakEvent src kind x z re ev mask).haz.apart = s.haz.apart :=
  State.apart_touches (State.leakEvent_touches rfl (.refl [.log, .evt] s))

theorem State.shakeEvent_frame (s : State) (kind t0 : Nat) : s.onlyChanges [.log, .evt] (s.shakeEvent kind t0) :=
  (State.shakeEvent_touches rfl (.refl _ s)).only

theorem State.react_apart (s : State) (z re ev : Nat) : (s.react z re ev).haz.apart = s.haz.apart := by
  unfold State.react
  extract_lets _ _ _ _ _ _ s1 s2 s3 s4 s5 s6
  have h2 : Touches reactionParts s1 s2 := by
    refine .foldl (fun u k hu => ?_) (.refl _ s1)
    split
    · exact hu
    · exact hu
    · exact hu
    · exact State.setCapS_touches rfl hu
  have h4 : Touches reactionParts s1 s4 :=
    .foldl (fun _ _ h => State.moveValve_touches rfl h) (State.throttleNote_touches rfl h2)
  have h6 : Touches reactionParts s1 s6 :=
    State.forceNow_touches rfl (.foldl (fun _ _ h => State.hazardDown_touches rfl h) h4)
  split
  · rw [State.apart_leakEvent, State.apart_event]
    rfl
  · rw [State.apart_leakEvent, State.apart_touches h6]
    rfl

theorem State.react_snap (s : State) (z re ev : Nat) : (s.react z re ev).snap = s.snap :=
  (State.react_touches (ps := .haz :: reactionParts) rfl (.refl _ s)).only .snap rfl

theorem State.leakJudge_apart (s : State) (z : Nat) : (s.leakJudge z).haz.apart = s.haz.apart := by
  unfold State.leakJudge
  extract_lets _ _ s1 wet _ _ _ s2
  have h2 : s2.haz.apart = s1.haz.apart := by
    unfold s2
    clear_value wet
    split
    · exact s1.apart_leakEvent ..
    · rfl
  split
  · split
    · exact h2
    · exact (s2.react_apart ..).trans h2
  · rfl

/-! ## Readings of a leak sensor (R303 to R305) -/

theorem State.leak_congr (h : t.haz.apart = s.haz.apart) (n : Nat) : t.leak n = s.leak n := by
  have hsensors : t.haz.sensors = s.haz.sensors := (congrArg Hazards.sensors h :)
  rw [State.leak, hsensors]
  rfl

/-- What a sensor shows: its class in force, whether one has qualified, and its resistances. -/
def LeakSensor.shown (x : LeakSensor) : Nat × Bool × Nat × Nat := (x.cls, x.read, x.senseR, x.loopR)

/-- How many readings in a row a reading of a class makes. -/
def LeakSensor.run (x : LeakSensor) (cls : Nat) : Nat := if x.cand = cls then min (x.candN + 1) 16 else 1

theorem State.leakRead_unused (h : lkUsed (leakEntry (s.sec 0x0A) n) = false) : s.leakRead n cls = s := if_pos (by rw [h]; rfl)

theorem State.shown_bump {blk inst : Nat} {c : Cnt} {put : Cnt → State → State} (n : Nat)
    (h : ((put c.inc.1 s).leak n).shown = (s.leak n).shown) : ((s.bump blk inst c put).leak n).shown = (s.leak n).shown := by
  rw [State.leak_congr State.apart_bump]
  exact h

/-- A reading leaves the sensor's resistances, and its class takes force once QUALIFY readings in a row are of it (R305). -/
theorem State.leakRead_shown (hu : lkUsed (leakEntry (s.sec 0x0A) n) = true) : ((s.leakRead n cls).leak n).shown =
    (if lkQualify.nat (leakEntry (s.sec 0x0A) n) ≤ (s.leak n).run cls then cls else (s.leak n).cls,
      (s.leak n).read || decide (lkQualify.nat (leakEntry (s.sec 0x0A) n) ≤ (s.leak n).run cls),
      (s.leak n).senseR, (s.leak n).loopR) := by
  unfold State.leakRead
  extract_lets e x k full new first x' s1 s2 s3 s4 kind
  have hcls : x'.cls = if lkQualify.nat e ≤ x.run cls then cls else x.cls := by
    by_cases hq : lkQualify.nat e ≤ x.run cls
    · have hfull : full = true := decide_eq_true hq
      rw [if_pos hq]
      by_cases hc : x.cls = cls <;> simp [x', new, hfull, hc]
    · have hfull : full = false := decide_eq_false hq
      rw [if_neg hq]
      simp [x', new, hfull]
  have h1 : (s1.leak n).shown = x'.shown := congrArg LeakSensor.shown (s.leak_setLeak_same n x')
  have h2 : (s2.leak n).shown = x'.shown := by
    unfold s2
    split
    · exact (State.shown_bump n (by rw [State.leak_setLeak_same]; rfl)).trans h1
    · exact h1
  have h3 : (s3.leak n).shown = x'.shown := by
    unfold s3
    split
    · exact (State.shown_bump n (by rw [State.leak_setLeak_same]; rfl)).trans h2
    · exact h2
  have h4 : (s4.leak n).shown = x'.shown := by
    unfold s4
    split
    · rwa [State.leak_congr (s3.apart_event ..)]
    · exact h3
  have h5 {src : Nat} {y : LeakSensor} : (((s4.leakEvent src kind y (lkZone e) 0 0 0).leakJudge (lkZone e)).leak n).shown = x'.shown := by
    rw [State.leak_congr (State.leakJudge_apart ..), State.leak_congr (s4.apart_leakEvent ..)]
    exact h4
  have h6 : ((s1.leakJudge (lkZone e)).leak n).shown = x'.shown := by
    rwa [State.leak_congr (State.leakJudge_apart ..)]
  rw [if_neg (by rw [hu]; decide), ← hcls]
  split
  · exact h5
  · split
    · exact h6
    · exact h1

/-- A class that has qualified is in force. -/
theorem State.leakRead_qualified (hu : lkUsed (leakEntry (s.sec 0x0A) n) = true)
    (hq : lkQualify.nat (leakEntry (s.sec 0x0A) n) ≤ (s.leak n).run cls) :
    ((s.leakRead n cls).leak n).cls = cls ∧ ((s.leakRead n cls).leak n).read = true := by
  have h := State.leakRead_shown hu (cls := cls)
  rw [if_pos hq, decide_eq_true hq, Bool.or_true] at h
  exact ⟨congrArg Prod.fst h, congrArg (fun y => y.2.1) h⟩

theorem State.leakRead_resistances (s : State) (n cls : Nat) : ((s.leakRead n cls).leak n).senseR = (s.leak n).senseR ∧
    ((s.leakRead n cls).leak n).loopR = (s.leak n).loopR := by
  cases hu : lkUsed (leakEntry (s.sec 0x0A) n) with
  | false => rw [State.leakRead_unused hu]; exact ⟨rfl, rfl⟩
  | true =>
    have h := State.leakRead_shown hu (cls := cls)
    exact ⟨congrArg (fun y => y.2.2.1) h, congrArg (fun y => y.2.2.2) h⟩

section Standby
variable (hs : s.pwr.standby = true)
include hs

theorem leakRopeReading_effect (a b : Nat) (hl : s.maq.live.isSome = true) (hn : n < 16) :
    Completes (.leakRopeReading n a b) s fun t =>
      (t.leak n).senseR = ohms a ∧ (t.leak n).loopR = ohms b ∧
      (lkUsed (leakEntry (s.sec 0x0A) n) = false → (t.leak n).cls = (s.leak n).cls) ∧
      (lkUsed (leakEntry (s.sec 0x0A) n) = true → lkQualify.nat (leakEntry (s.sec 0x0A) n) ≤ (s.leak n).run (ropeClass a b) →
        (t.leak n).cls = ropeClass a b ∧ (t.leak n).read = true) := by
  let u := s.setLeak n { s.leak n with senseR := ohms a, loopR := ohms b }
  have he : exec (.leakRopeReading n a b) s = .next (u.leakRead n (ropeClass a b)) :=
    (exec_gated rfl hs).trans (congrArg _ (if_neg (by rw [Option.isNone_eq_false_iff.2 hl, decide_eq_false (by omega)]; decide)))
  have hu : u.leak n = { s.leak n with senseR := ohms a, loopR := ohms b } := s.leak_setLeak_same n _
  have hR := u.leakRead_resistances n (ropeClass a b)
  rw [hu] at hR
  refine completes_of he ⟨hR.1, hR.2, fun h => ?_, fun h hq => State.leakRead_qualified h (by rw [hu]; exact hq)⟩
  rw [State.leakRead_unused (s := u) h, hu]

theorem leakPointSample_effect {k : Nat} (a b : Bool) (hl : s.maq.live.isSome = true) (hk : k < 32) :
    Completes (.leakPointSample k a b) s fun t =>
      (lkUsed (leakEntry (s.sec 0x0A) (16 + k)) = false → t = s) ∧
      (lkUsed (leakEntry (s.sec 0x0A) (16 + k)) = true →
        lkQualify.nat (leakEntry (s.sec 0x0A) (16 + k)) ≤ (s.leak (16 + k)).run (pointClass a b) →
        (t.leak (16 + k)).cls = pointClass a b ∧ (t.leak (16 + k)).read = true) := by
  have he : exec (.leakPointSample k a b) s = .next (s.leakRead (16 + k) (pointClass a b)) :=
    (exec_gated rfl hs).trans (congrArg _ (if_neg (by rw [Option.isNone_eq_false_iff.2 hl, decide_eq_false (by omega)]; decide)))
  exact completes_of he ⟨State.leakRead_unused, State.leakRead_qualified⟩

end Standby

/-! ## LEAK_CLEAR (R312) -/

section Clear
variable (hc : s.pwr.core = true) (hm : s.may r.principal .hazard = true) (hz : z < 16)
include hc hm hz

theorem exec_leakClear : exec (.leakClear r z) s = .next (s.leakClear z) :=
  (exec_gated rfl hc).trans (congrArg _ ((withWriteRight_on hm).trans (if_pos hz)))

theorem leakClear_clears (hl : (s.lzone z).latched = true) (hst : (s.lzone z).st = 0) :
    Completes (.leakClear r z) s fun t => t.lzone z = { st := 0 } ∧ s.onlyChanges [.cool, .haz, .log, .evt, .out] t := by
  refine completes_of (exec_leakClear hc hm hz) ⟨?_, (State.leakClear_touches rfl (.refl _ s)).only⟩
  unfold State.leakClear
  extract_lets x s1 other s2
  have h3 : Touches [.cool, .log, .evt, .out] s1 (s2.leakEvent z 9 {} z x.react 0 x.sites) :=
    State.leakEvent_touches rfl (.foldl (fun _ _ h => .ite h (State.moveValve_touches rfl h)) (.refl _ s1))
  rw [if_pos (by simp [x, hl, hst]), State.lzone, h3.only .haz rfl]
  exact s.lzone_setLzone_same z _

/-- A zone that is not DRY is not cleared. -/
theorem leakClear_refused (hst : (s.lzone z).st ≠ 0) : Completes (.leakClear r z) s fun t => t = s.event 8 312 z 0 :=
  completes_of (exec_leakClear hc hm hz) (if_neg (by simp [hst]))

end Clear

/-! ## Brace (R316, R317) -/

/-- The Hazards block as Brace is entered, before zones in Warn widen. -/
def State.bracedHaz (s : State) (req : Bool) : Hazards :=
  { s.haz with brace := true, causeReq := req, causeAcc := !req, braceAt := s.plinth, braceSec := s.hazSec
               cntBrace := s.haz.cntBrace.inc.1 }

/-- A snapshot that is asked for neither begins nor ends hold-up. -/
theorem State.snapshot_holdup (s : State) (kind : Nat) : (s.snapshot kind).snap.holdup = s.snap.holdup := by
  obtain ⟨job, bs, h⟩ | h | ⟨-, h⟩ := snapshot_cases s kind <;> rw [h]
  rfl

/-- Where Brace begins, the Hazards block but for its zones is as entered, and the flush runs unless hold-up does (R316, R317). -/
theorem State.braceBegin_enters (hb : s.haz.brace = false) (req : Bool) :
    (s.braceBegin req).haz.apart = (s.bracedHaz req).apart ∧
      (s.snap.holdup = false → (s.braceBegin req).snap.flushing = true) := by
  unfold State.braceBegin
  extract_lets _ s1 s2 s3 s4 _ s5
  have h3 : s2.onlyChanges [.log, .evt] s3 := s2.shakeEvent_frame _ _
  have h4 : (s3.snapshot 1).onlyChanges [.log] s4 := State.startPage_frame _
  have hhaz : s5.haz = s.bracedHaz req := calc
    s5.haz = s4.haz := by unfold s5; split <;> rfl
    _ = (s3.snapshot 1).haz := h4 .haz rfl
    _ = s3.haz := snapshot_frame s3 1 .haz rfl
    _ = s2.haz := h3 .haz rfl
    _ = s.bracedHaz req := State.bump_frame .haz rfl
  have hhold : s4.snap.holdup = s.snap.holdup := calc
    s4.snap.holdup = (s3.snapshot 1).snap.holdup := congrArg Snap.holdup (h4 .snap rfl)
    _ = s3.snap.holdup := s3.snapshot_holdup 1
    _ = s2.snap.holdup := congrArg _ (h3 .snap rfl)
    _ = s.snap.holdup := congrArg _ (State.bump_frame .snap rfl)
  rw [if_neg (by rw [hb]; decide)]
  constructor
  · rw [foldl_keeps (fun u : State => u.haz.apart), hhaz]
    intro u y _
    split
    · exact u.react_apart ..
    · rfl
  · intro h
    rw [foldl_keeps (fun u : State => u.snap.flushing)]
    · unfold s5
      rw [if_neg (by rw [hhold, h]; decide)]
    · intro u y _
      split
      · rw [State.react_snap]
      · rfl

theorem State.braceBegin_joins (hb : s.haz.brace = true) (req : Bool) : s.braceBegin req =
    { s with haz := { s.haz with causeReq := s.haz.causeReq || req, causeAcc := s.haz.causeAcc || !req } } := if_pos hb

/-- A BRACE_REQUEST is noted. -/
def State.requested (s : State) : State := { s with haz := { s.haz with lastReq := some s.plinth } }

section Request
variable (hc : s.pwr.core = true) (hm : s.may r.principal .hazard = true)
include hc hm

theorem exec_braceRequest : exec (.braceRequest r) s = .next (s.requested.braceBegin true) :=
  (exec_gated (t := s.withWriteRight r .hazard 0x81010 fun s => s.requested.braceBegin true) rfl hc).trans
    (congrArg _ (withWriteRight_on hm))

theorem braceRequest_begins (hb : s.haz.brace = false) : Completes (.braceRequest r) s fun t => t.haz.brace = true ∧
    t.haz.causeReq = true ∧ t.haz.causeAcc = false ∧ t.haz.braceAt = s.plinth ∧ t.haz.lastReq = some s.plinth ∧
    (s.snap.holdup = false → t.snap.flushing = true) := by
  obtain ⟨h, hflush⟩ := State.braceBegin_enters (s := s.requested) hb true
  exact completes_of (exec_braceRequest hc hm)
    ⟨(congrArg Hazards.brace h :), (congrArg Hazards.causeReq h :), (congrArg Hazards.causeAcc h :), (congrArg Hazards.braceAt h :),
      (congrArg Hazards.lastReq h :), hflush⟩

/-- A request while Brace holds joins its causes and begins nothing anew (log 31). -/
theorem braceRequest_joins (hb : s.haz.brace = true) : Completes (.braceRequest r) s fun t =>
    t = { s with haz := { s.haz with lastReq := some s.plinth, causeReq := true } } := by
  refine completes_of (exec_braceRequest hc hm) ?_
  rw [State.braceBegin_joins (s := s.requested) hb, Bool.or_true, Bool.not_true, Bool.or_false]
  rfl

end Request

theorem shakePeakClr_effect (hc : s.pwr.core = true) (hm : s.may r.principal .counterClear = true) :
    Completes (.shakePeakClr r) s fun t => t = { s with haz := { s.haz with peak := 0 } } :=
  completes_of ((exec_gated rfl hc).trans (congrArg _ (withWriteRight_on hm))) rfl

/-! ## The accelerometer (R314, R315, R318) -/

/-- What a sample measures: SHAKE_PGA, SHAKE_PEAK_HOLD and the filtered axes. -/
def Hazards.motion (x : Hazards) : Nat × Nat × Tbl Int := (x.pga, x.peak, x.axes)

theorem State.motion_congr (h : t.haz.apart = s.haz.apart) : t.haz.motion = s.haz.motion := (congrArg Hazards.motion h :)

theorem State.braceBegin_motion (s : State) (req : Bool) : (s.braceBegin req).haz.motion = s.haz.motion := by
  cases hb : s.haz.brace with
  | false => exact (congrArg Hazards.motion (State.braceBegin_enters hb req).1 :)
  | true => rw [State.braceBegin_joins hb]; rfl

/-- The judgement of a sample leaves what it measured. -/
theorem State.shakeJudge_motion (s : State) : s.shakeJudge.haz.motion = s.haz.motion := by
  unfold State.shakeJudge
  extract_lets note h above past quiet still s1 s2 s3 noted s4
  have h2 : s2.haz = { s1.haz with cntNote := s1.haz.cntNote.inc.1 } := State.bump_frame .haz rfl
  have h3 : s3.haz.motion = s.haz.motion := by
    refine (State.motion_congr (s2.apart_event ..)).trans ?_
    rw [h2]
    rfl
  have h4 : s4.haz.motion = s.haz.motion := by
    unfold s4
    split
    · split
      · exact h3
      · exact (State.motion_congr (State.apart_touches (State.shakeEvent_touches rfl (.refl [.log, .evt] _)))).trans h3
    · rfl
  split
  · exact (s4.braceBegin_motion false).trans h4
  · exact h4

/-- A filtered axis is set; the others stand. -/
theorem State.axis_axes (s : State) (k : Nat) (raw : Int) : ∃ v : Int, (s.axis k raw).haz.axes = Tbl.set s.haz.axes k v ∧
    (32767 ≤ raw → v = 2000) ∧ (raw ≤ -32768 → v = -2000) := by
  refine ⟨_, rfl, fun h => if_pos h, fun h => ?_⟩
  rw [if_neg (by omega), if_pos h]

/-- The three axes of a sample, filtered. -/
def State.sampled (s : State) (x y z : Int) : State := ((s.axis 0 x).axis 1 y).axis 2 z

/-- SHAKE_PGA, the magnitude of the filtered vector, and SHAKE_PEAK_HOLD are taken over (R314). -/
def State.measured (s : State) : State :=
  let a k : Int := Tbl.get 0 s.haz.axes k
  let p := isqrt (a 0 * a 0 + a 1 * a 1 + a 2 * a 2).toNat
  { s with haz := { s.haz with pga := p, peak := max s.haz.peak p } }

theorem execAccelSample_eq (x y z : Int) (s : State) :
    execAccelSample x y z s = s.standbyDo fun s => (s.sampled x y z).measured.shakeJudge := rfl

/-- An axis at its range limit counts as 2,000 mg (R314). -/
theorem State.sampled_limits (s : State) (x y z : Int) :
    (32767 ≤ x → Tbl.get 0 (s.sampled x y z).haz.axes 0 = 2000) ∧
    (y ≤ -32768 → Tbl.get 0 (s.sampled x y z).haz.axes 1 = -2000) := by
  obtain ⟨a, ha, hx, -⟩ := s.axis_axes 0 x
  obtain ⟨b, hb, -, hy⟩ := (s.axis 0 x).axis_axes 1 y
  obtain ⟨c, hc, -, -⟩ := ((s.axis 0 x).axis 1 y).axis_axes 2 z
  rw [State.sampled, hc, Tbl.get_set_other _ _ _ (by decide), Tbl.get_set_other _ _ _ (by decide), hb,
    Tbl.get_set_other _ _ _ (by decide), Tbl.get_set_same, ha, Tbl.get_set_same]
  exact ⟨hx, hy⟩

/-- The accelerometer's fault with its record. -/
theorem State.shakeFail_effect (hf : s.haz.shakeFault = false) :
    s.shakeFail.haz = { s.haz with shakeFault := true } ∧ s.onlyChanges [.haz, .log, .evt] s.shakeFail := by
  refine ⟨?_, (State.shakeFail_touches rfl (.refl _ s)).only⟩
  rw [State.shakeFail, if_neg (by rw [hf]; decide)]
  exact State.shakeEvent_frame _ 5 s.plinth .haz rfl

section Standby
variable (hs : s.pwr.standby = true)
include hs

theorem accelSample_effect (x y z : Int) : Completes (.accelSample x y z) s fun t => t.haz.peak = max s.haz.peak t.haz.pga ∧
    (32767 ≤ x → Tbl.get 0 t.haz.axes 0 = 2000) ∧ (y ≤ -32768 → Tbl.get 0 t.haz.axes 1 = -2000) ∧
    t.haz.pga = isqrt (Tbl.get 0 t.haz.axes 0 * Tbl.get 0 t.haz.axes 0 + Tbl.get 0 t.haz.axes 1 * Tbl.get 0 t.haz.axes 1 +
      Tbl.get 0 t.haz.axes 2 * Tbl.get 0 t.haz.axes 2).toNat := by
  have he : exec (.accelSample x y z) s = .next (s.sampled x y z).measured.shakeJudge :=
    (execAccelSample_eq x y z s).trans (standbyDo_on hs)
  obtain ⟨hpga, hpeak, haxes⟩ : _ ∧ _ ∧ _ := by
    simpa only [Hazards.motion, Prod.mk.injEq] using (s.sampled x y z).measured.shakeJudge_motion
  refine completes_of he ?_
  rw [hpga, hpeak, haxes]
  obtain ⟨hx, hy⟩ := s.sampled_limits x y z
  exact ⟨rfl, hx, hy, rfl⟩

theorem shakeNoteEpisodeEnd_effect (hq : s.haz.quietAt.isSome = true) :
    Completes .shakeNoteEpisodeEnd s fun t => t = { s with haz := { s.haz with note := false } } :=
  completes_of ((exec_gated rfl hs).trans (congrArg _ (if_pos hq))) rfl

theorem accelSelfTest_passes : Completes (.accelSelfTest true) s fun t => t = { s with haz := { s.haz with shakeFault := false } } :=
  completes_of (exec_gated rfl hs) rfl

theorem accelSelfTest_fails (hf : s.haz.shakeFault = false) : Completes (.accelSelfTest false) s fun t =>
    t.haz = { s.haz with shakeFault := true } ∧ s.onlyChanges [.haz, .log, .evt] t :=
  completes_of (exec_gated rfl hs) (State.shakeFail_effect hf)

theorem accelNoAnswer_effect (hf : s.haz.shakeFault = false) : Completes .accelNoAnswer s fun t =>
    t.haz = { s.haz with shakeFault := true } ∧ s.onlyChanges [.haz, .log, .evt] t :=
  completes_of (exec_gated rfl hs) (State.shakeFail_effect hf)

end Standby

/-- Settles O23: reactions change no more of the Hazards block than its zones, so that what a reading, a request or a sample sets there
still stands after the judgement that follows it. -/
theorem leaksAndShakingTakeEffect : Obligations.LeaksAndShakingTakeEffect := by
  unfold Obligations.LeaksAndShakingTakeEffect
  exact fun s => ⟨fun hs => ⟨fun _ a b hl hn => leakRopeReading_effect hs a b hl hn,
      fun _ a b hl hk => leakPointSample_effect hs a b hl hk, accelSample_effect hs, shakeNoteEpisodeEnd_effect hs,
      accelSelfTest_passes hs, fun hf => ⟨accelSelfTest_fails hs hf, accelNoAnswer_effect hs hf⟩⟩,
    fun _ _ hc hm hz => ⟨leakClear_clears hc hm hz, leakClear_refused hc hm hz⟩,
    fun _ hc hm => ⟨braceRequest_begins hc hm, braceRequest_joins hc hm⟩,
    fun _ => shakePeakClr_effect⟩

end Sys2Proof.Machine
end
